-- ==== Sys2Proof/Word.lean ====
section
/-! DEFINITION. The word types of the machine: the widths the spec gives its registers, rows, tiles and beats
(Table 3.2, R70, R72, R204). -/
namespace Sys2Proof

/-- A scalar register, an address or a system register: 64 bits (Table 3.2). -/
abbrev Word := BitVec 64
/-- One lane of a vector register, or one element of an accumulator tile: 32 bits (R70, R72). -/
abbrev Lane := BitVec 32
/-- The unit of memory. -/
abbrev Byte := BitVec 8
/-- One row of a vector register, 64 lanes, lane j in bits [32j+31:32j]: the 256 bytes of R70. -/
abbrev Row := BitVec 2048
/-- One row of a lane mask, bit j for lane j (R70). -/
abbrev MaskRow := BitVec 64
/-- One row of an accumulator tile, 128 elements (R72). -/
abbrev TileRow := BitVec 4096
/-- One tile register q (R73). -/
abbrev Tile := BitVec 128
/-- One beat of 64 bytes (R204). -/
abbrev Beat := BitVec 512
/-- A SHA-384 digest. -/
abbrev Digest := BitVec 384

end Sys2Proof
end

