-- ==== Sys2Proof/Config.lean ====
section
/-! DEFINITION. What the model leaves free, and what an implementation fixes. The opaque constants have no body: nothing
can evaluate them, so every theorem holds whatever they are. -/
namespace Sys2Proof

/-- FREE VALUES (log entry 2): the n-th value that the spec leaves open, drawn by agent `a` (a core key, or a number
above 4,096 for an agent outside the cores). Every undefined value of R5 and R8 and every tick chosen inside a window
(R80, R125, R197, R213) is a low part of one of these numbers. -/
opaque Config.free (a n : Nat) : Nat

/-- AES-256 of one block under a key: named by R330, R353 and R257, defined by FIPS 197, so uninterpreted here (log entry 3). -/
opaque Config.aes256 (key : BitVec 256) (block : BitVec 128) : BitVec 128
/-- The 16-byte AES-256-GCM tag of a key, an IV, additional data and a ciphertext (R257, R331, R370; log entry 3). -/
opaque Config.gcmTag (key : BitVec 256) (iv : List Byte) (aad text : List Byte) : BitVec 128
/-- SHA-384 of a string of bytes (R273, R337; log entry 3). -/
opaque Config.sha384 (text : List Byte) : Digest
/-- HKDF-SHA-384 to 32 bytes, of keying material, salt and info string (R234, R330, R369, R382; log entry 3). -/
opaque Config.hkdf (ikm salt info : List Byte) : BitVec 256
/-- The 64-bit MAC of a 64-byte line in the integrity tree of a stack, under the key of its power-up: the spec names no function (R327; log entry 3). -/
opaque Config.treeMac (key : BitVec 256) (line : List Byte) : BitVec 64
/-- Whether a pair of Ed25519 and ML-DSA-65 signatures over a digest verifies under the identity numbered `who` (R382, R401, R405). -/
opaque Config.verifies (who : Nat) (text : Digest) (ed ml : Nat) : Bool
/-- The shared secret of one X25519 and ML-KEM-768 handshake, from its public values (R382). -/
opaque Config.sharedSecret (transcript : Digest) : List Byte

/-- By how many wall ticks, 0 or 1, the WTIME copy of a die trails the package's count: copies differ by at most one (R23, log entry 2). -/
opaque Config.skew (die : Nat) : Nat

/-- The measurement that this package reports to a peer (Table 18.8): the spec does not say over what (log entry 3). -/
opaque Config.ownMeasurement : Digest

/-- The 384-bit device secret fused at manufacture (R401). -/
opaque Config.deviceSecret : BitVec 384
/-- The n-th output of Adsal's random generator (R401, R406). -/
opaque Config.random (n : Nat) : BitVec 256
/-- SHA-384 of the boot ROM, and of each firmware image (Table 20.3): fixed for a part. -/
opaque Config.romDigest : Digest
opaque Config.firmwareDigest (image : Nat) : Digest
/-- The fused hash of Oxyan's two firmware keys, and the fused minimum version (R404). -/
opaque Config.fusedKeys : Nat
opaque Config.minVersion : Nat
/-- The two halves of a signature of a digest by the identity pair of a seed, Ed25519 and ML-DSA-65 (R401; log entry 3). -/
opaque Config.signEd (seed : BitVec 256) (text : Digest) : Nat
opaque Config.signMl (seed : BitVec 256) (text : Digest) : Nat

/-- The sustained power of the package in watts (R18). -/
def Config.packageWatts : Nat := 2400
/-- The certificate chain of the package, and the capability flags of its SPDM responder (R401, R403): fixed for a part. -/
opaque Config.certificate : List Byte
opaque Config.spdmFlags : Nat

/-- The default power limit of a partition in watts per die (R19). -/
def Config.wattsPerDie : Nat := 300
/-- The hold lead in schedule ticks (R28). -/
def Config.holdLead : Nat := 192
/-- The wall ticks from the clearing of the last hold cause to the resume (R30). -/
def Config.resumeWall : Nat := 64
/-- The wall ticks within which a built-in test of a scrub ends (R391). -/
def Config.testTime : Nat := 65536

end Sys2Proof
end

