-- ==== Sys2Proof/Syntax.lean ====
section
/-! DEFINITION. The instructions of the Melavaral TL8800: one constructor for each row of the opcode table. The first 236 are
the operations of the eight slots, each with its guard (R90, R91) and the operand fields of its body format (Table 4.2); the
other 130 are the events of the package, each with the object that it concerns. -/
namespace Sys2Proof

/-- The guard of a slot operation (R91): the predicate number and whether it is negated. -/
structure Guard where
  neg : Bool
  pred : Nat
  deriving DecidableEq, Repr

/-- The guard p0, which always holds (R91). -/
def Guard.always : Guard := ⟨false, 0⟩

/-- The number formats of Table 2.1, in the order of their codes. -/
inductive Fmt where
  | trn | i4 | i8 | n8 | f4 | f6 | f8a | f8b | h16 | b16 | f32 | i32 | n32 | i64
  deriving DecidableEq, Repr

/-- The rounding modes of Table 2.3, in the order of their codes. -/
inductive Rm where
  | rne | rtz | rup | rdn | rsr
  deriving DecidableEq, Repr

/-- What flash holds of a firmware image besides its text: its version, the hash of the two keys that it comes with, and its Ed25519 and
ML-DSA-65 signatures (R404). -/
structure FlashImage where
  version : Nat
  keys : Nat
  ed : Nat
  ml : Nat
  deriving DecidableEq, Repr

/-- What a try of a start step meets: the step of Table 20.6, its unit (die, or 255 for the package), the choice tried (R408, R409), and
the image that flash holds for the choice (R404); a try without an image fails. -/
structure BootTry where
  step : Nat
  unit : Nat
  choice : Nat
  image : Option FlashImage
  deriving DecidableEq, Repr

/-- What a window of the governor is given (R19, R411): the dies at 105 °C, and the limits that the host driver has set since the last
window, as partition and watts. -/
structure GovernorSet where
  hot : List Nat
  limits : List (Nat × Nat)
  deriving DecidableEq, Repr

/-- What the host driver gives a partition at its creation (R233, R410): its dies and the number of its ASIDs. -/
structure PartRequest where
  dies : List Nat
  pool : Nat
  deriving DecidableEq, Repr

/-- A write of QCFG (R260): the queue and the word. -/
structure QcfgWrite where
  queue : Nat
  cfg : Nat
  deriving DecidableEq, Repr

/-- A context command record of Table 10.3; rsv holds every reserved bit. -/
structure CtxRecord where
  cmd : Nat
  flags : Nat
  asid : Nat
  arg : Nat
  tag : Nat
  rsv : Nat
  deriving DecidableEq, Repr

/-- A page-command record of Table 17.7, without its CMD; rsv holds every reserved bit. -/
structure PageRecord where
  flags : Nat
  asid : Nat
  count : Nat
  addr : Nat
  mem : Nat
  place : Nat
  home : Nat
  size : Nat
  ptea : Nat
  daddr : Nat
  rsv : Nat
  deriving DecidableEq, Repr

/-- A link flit of Table 18.2, with the link that it arrives on (`link`: 0 to 7 a die attach, 16 + c the circuit c
towards its DST, 1024 + c towards its SRC, 512 + n the UALink port n); rsv holds its reserved byte. -/
structure Flit where
  link : Nat
  kind : Nat
  lane : Nat
  space : Nat
  rsv : Nat
  sel : Nat
  seq : Nat
  off : Nat
  tick : Nat
  data : Beat
  tag : Word
  deriving DecidableEq, Repr

/-- One message of the peer handshake of Table 18.8: nonce, public key, KEM value, measurement and the two signatures. -/
structure PeerMsg where
  pkg : Nat
  rpart : Nat
  nonce : Nat
  pub : Nat
  kem : Nat
  meas : Digest
  ed : Nat
  ml : Nat
  deriving DecidableEq, Repr

/-- An instruction: a slot operation of Tables 4.3 to 4.8, or an event of the package. -/
inductive Instr where
  /-- NOP (R92). All-zero body in any slot; writes nothing, occupies no unit and does not count towards any issue interval. -/
  | nop (g : Guard)
  -- X slot (R98)
  /-- BR (R138). Direct branch to bundle TGT after two delay bundles. -/
  | br (g : Guard) (t : Nat)
  /-- BRB (R138). Indirect branch through b[B] after two delay bundles; RET is an alias. -/
  | brb (g : Guard) (b : Nat)
  /-- CALL (R138). Direct call to TGT that writes the link 32 × (PC + 3) into b[LINK]. -/
  | call (g : Guard) (l : Nat) (t : Nat)
  /-- CALLB (R138). Indirect call through b[B] that writes the link into b[D]. -/
  | callb (g : Guard) (d : Nat) (b : Nat)
  /-- LOOP (R139). Branches to TGT when x[A], read unsigned at issue, is greater than 1. -/
  | loop (g : Guard) (a : Nat) (t : Nat)
  /-- MBR_CHAIN (R140). Multiway branch to the b register picked by four predicate tests taken as a chain. -/
  | mbrChain (g : Guard) (a : Nat) (b : Nat) (c : Nat) (d : Nat)
  /-- MBR_TREE (R140). Multiway branch to the b register picked by four predicate tests taken as a tree. -/
  | mbrTree (g : Guard) (a : Nat) (b : Nat) (c : Nat) (d : Nat)
  /-- WAITT (R141). Defers the next bundle to absolute schedule tick x[A] + IMM16. -/
  | waitt (g : Guard) (a : Nat) (i : Nat)
  /-- WAITD (R141). Defers the next bundle by IMM16 ticks. -/
  | waitd (g : Guard) (i : Nat)
  /-- NXT (R143). Requests the next tile from the launch's dispenser into q[QN] and advances QN. -/
  | nxt (g : Guard)
  /-- TRAP (R144). Raises the SOFT trap with INFO holding IMM16. -/
  | trap (g : Guard) (i : Nat)
  /-- BRK (R144). Raises the BREAK trap with INFO holding IMM16. -/
  | brk (g : Guard) (i : Nat)
  /-- CBAR (R301). Arrives at the subgroup barrier named by the code and waits for its completion tick. -/
  | cbar (g : Guard) (c : Nat)
  /-- CBAR_NW (R301). Arrives at the subgroup barrier named by the code without waiting. -/
  | cbarNw (g : Guard) (c : Nat)
  /-- DBAR (R302). Arrives at the die barrier of the launch and waits for its completion tick. -/
  | dbar (g : Guard)
  /-- DBAR_NW (R302). Arrives at the die barrier without waiting. -/
  | dbarNw (g : Guard)
  /-- SSB (R303). Arrives at the superstep barrier of the launch and waits for its completion tick. -/
  | ssb (g : Guard)
  /-- SSB_NW (R303). Arrives at the superstep barrier without waiting. -/
  | ssbNw (g : Guard)
  /-- BSTAT_SUB (R304). Sets a predicate to whether the member's latest subgroup-barrier instance is complete. -/
  | bstatSub (g : Guard) (d : Nat) (c : Nat)
  /-- BSTAT_DIE (R304). Sets a predicate to whether the member's latest die-barrier instance is complete. -/
  | bstatDie (g : Guard) (d : Nat)
  /-- BSTAT_SS (R304). Sets a predicate to whether the member's latest superstep instance is complete. -/
  | bstatSs (g : Guard) (d : Nat)
  /-- TMGE (R142). Sets a predicate to 1 when STIME at issue is at least x[A]. -/
  | tmge (g : Guard) (d : Nat) (a : Nat)
  /-- BDGE (R142). Sets a predicate to 1 when BUDGET at the start of the tick is at least IMM16. -/
  | bdge (g : Guard) (d : Nat) (i : Nat)
  /-- EXIT (R145). Ends the core's issue and arrives at the cluster exit barrier; the core goes IDLE at its exit tick. -/
  | exit (g : Guard)
  /-- YIELD (R146). Marks an armed pre-emption as ready to be saved early; otherwise acts as NOP. -/
  | yield (g : Guard)
  -- S slot (R99)
  /-- ADD (R115). x[D] := x[A] + x[B] modulo 2^64. -/
  | add (g : Guard) (d : Nat) (a : Nat) (b : Nat)
  /-- SUB (R115). x[D] := x[A] − x[B] modulo 2^64. -/
  | sub (g : Guard) (d : Nat) (a : Nat) (b : Nat)
  /-- AND (R115). Bitwise AND of x[A] and x[B]. -/
  | and (g : Guard) (d : Nat) (a : Nat) (b : Nat)
  /-- OR (R115). Bitwise OR of x[A] and x[B]. -/
  | or (g : Guard) (d : Nat) (a : Nat) (b : Nat)
  /-- XOR (R115). Bitwise XOR of x[A] and x[B]. -/
  | xor (g : Guard) (d : Nat) (a : Nat) (b : Nat)
  /-- ANDN (R115). x[A] AND NOT x[B]. -/
  | andn (g : Guard) (d : Nat) (a : Nat) (b : Nat)
  /-- ORN (R115). x[A] OR NOT x[B]. -/
  | orn (g : Guard) (d : Nat) (a : Nat) (b : Nat)
  /-- XNOR (R115). NOT (x[A] XOR x[B]). -/
  | xnor (g : Guard) (d : Nat) (a : Nat) (b : Nat)
  /-- SLL (R115). Shifts x[A] left by x[B][5:0]. -/
  | sll (g : Guard) (d : Nat) (a : Nat) (b : Nat)
  /-- SRL (R115). Shifts x[A] right logically by x[B][5:0]. -/
  | srl (g : Guard) (d : Nat) (a : Nat) (b : Nat)
  /-- SRA (R115). Shifts x[A] right arithmetically by x[B][5:0]. -/
  | sra (g : Guard) (d : Nat) (a : Nat) (b : Nat)
  /-- ROL (R115). Rotates x[A] left by x[B][5:0]. -/
  | rol (g : Guard) (d : Nat) (a : Nat) (b : Nat)
  /-- ROR (R115). Rotates x[A] right by x[B][5:0]. -/
  | ror (g : Guard) (d : Nat) (a : Nat) (b : Nat)
  /-- MUL (R115). Low 64 bits of x[A] × x[B]. -/
  | mul (g : Guard) (d : Nat) (a : Nat) (b : Nat)
  /-- MULH (R115). High 64 bits of the signed product. -/
  | mulh (g : Guard) (d : Nat) (a : Nat) (b : Nat)
  /-- MULHU (R115). High 64 bits of the unsigned product. -/
  | mulhu (g : Guard) (d : Nat) (a : Nat) (b : Nat)
  /-- MIN (R115). Smaller of x[A] and x[B] as I64. -/
  | min (g : Guard) (d : Nat) (a : Nat) (b : Nat)
  /-- MAX (R115). Larger of x[A] and x[B] as I64. -/
  | max (g : Guard) (d : Nat) (a : Nat) (b : Nat)
  /-- MINU (R115). Smaller of x[A] and x[B] as unsigned. -/
  | minu (g : Guard) (d : Nat) (a : Nat) (b : Nat)
  /-- MAXU (R115). Larger of x[A] and x[B] as unsigned. -/
  | maxu (g : Guard) (d : Nat) (a : Nat) (b : Nat)
  /-- CLZ (R115). Counts the leading zero bits of x[A]. -/
  | clz (g : Guard) (d : Nat) (a : Nat)
  /-- CTZ (R115). Counts the trailing zero bits of x[A]. -/
  | ctz (g : Guard) (d : Nat) (a : Nat)
  /-- POPC (R115). Counts the one bits of x[A]. -/
  | popc (g : Guard) (d : Nat) (a : Nat)
  /-- BSWAP (R115). Reverses the eight bytes of x[A]. -/
  | bswap (g : Guard) (d : Nat) (a : Nat)
  /-- ADDS (R115). Saturating I64 addition that sets SAT when it clamps. -/
  | adds (g : Guard) (d : Nat) (a : Nat) (b : Nat)
  /-- SUBS (R115). Saturating I64 subtraction that sets SAT when it clamps. -/
  | subs (g : Guard) (d : Nat) (a : Nat) (b : Nat)
  /-- ADDI (R116). x[D] := x[A] + sign-extended IMM11. -/
  | addi (g : Guard) (d : Nat) (a : Nat) (i : Nat)
  /-- ANDI (R116). x[D] := x[A] AND zero-extended IMM11. -/
  | andi (g : Guard) (d : Nat) (a : Nat) (i : Nat)
  /-- ORI (R116). x[D] := x[A] OR zero-extended IMM11. -/
  | ori (g : Guard) (d : Nat) (a : Nat) (i : Nat)
  /-- XORI (R116). x[D] := x[A] XOR zero-extended IMM11. -/
  | xori (g : Guard) (d : Nat) (a : Nat) (i : Nat)
  /-- SLLI (R116). Shifts x[A] left by an immediate amount. -/
  | slli (g : Guard) (d : Nat) (a : Nat) (s : Nat)
  /-- SRLI (R116). Shifts x[A] right logically by an immediate amount. -/
  | srli (g : Guard) (d : Nat) (a : Nat) (s : Nat)
  /-- SRAI (R116). Shifts x[A] right arithmetically by an immediate amount. -/
  | srai (g : Guard) (d : Nat) (a : Nat) (s : Nat)
  /-- ROLI (R116). Rotates x[A] left by an immediate amount; ror with an immediate assembles to it. -/
  | roli (g : Guard) (d : Nat) (a : Nat) (s : Nat)
  /-- MOVI (R117). x[D] := sign-extended IMM16. -/
  | movi (g : Guard) (d : Nat) (i : Nat)
  /-- MOVK16 (R117). Replaces bits [31:16] of x[D] with IMM16. -/
  | movk16 (g : Guard) (d : Nat) (i : Nat)
  /-- MOVK32 (R117). Replaces bits [47:32] of x[D] with IMM16. -/
  | movk32 (g : Guard) (d : Nat) (i : Nat)
  /-- MOVK48 (R117). Replaces bits [63:48] of x[D] with IMM16. -/
  | movk48 (g : Guard) (d : Nat) (i : Nat)
  /-- CMP_EQ (R118). p[D] := x[A] equals x[B]. -/
  | cmpEq (g : Guard) (d : Nat) (a : Nat) (b : Nat)
  /-- CMP_NE (R118). p[D] := x[A] differs from x[B]. -/
  | cmpNe (g : Guard) (d : Nat) (a : Nat) (b : Nat)
  /-- CMP_LT (R118). p[D] := signed x[A] < x[B]. -/
  | cmpLt (g : Guard) (d : Nat) (a : Nat) (b : Nat)
  /-- CMP_GE (R118). p[D] := signed x[A] ≥ x[B]. -/
  | cmpGe (g : Guard) (d : Nat) (a : Nat) (b : Nat)
  /-- CMP_LTU (R118). p[D] := unsigned x[A] < x[B]. -/
  | cmpLtu (g : Guard) (d : Nat) (a : Nat) (b : Nat)
  /-- CMP_GEU (R118). p[D] := unsigned x[A] ≥ x[B]. -/
  | cmpGeu (g : Guard) (d : Nat) (a : Nat) (b : Nat)
  /-- CMPI_EQ (R118). p[D] := x[A] equals the sign-extended IMM8. -/
  | cmpiEq (g : Guard) (d : Nat) (a : Nat) (i : Nat)
  /-- CMPI_NE (R118). p[D] := x[A] differs from the immediate. -/
  | cmpiNe (g : Guard) (d : Nat) (a : Nat) (i : Nat)
  /-- CMPI_LT (R118). p[D] := signed x[A] < immediate. -/
  | cmpiLt (g : Guard) (d : Nat) (a : Nat) (i : Nat)
  /-- CMPI_GE (R118). p[D] := signed x[A] ≥ immediate. -/
  | cmpiGe (g : Guard) (d : Nat) (a : Nat) (i : Nat)
  /-- CMPI_LTU (R118). p[D] := unsigned x[A] < immediate. -/
  | cmpiLtu (g : Guard) (d : Nat) (a : Nat) (i : Nat)
  /-- CMPI_GEU (R118). p[D] := unsigned x[A] ≥ immediate. -/
  | cmpiGeu (g : Guard) (d : Nat) (a : Nat) (i : Nat)
  /-- PAND (R119). p[D] := p[A] AND p[B]. -/
  | pand (g : Guard) (d : Nat) (a : Nat) (b : Nat)
  /-- POR (R119). p[D] := p[A] OR p[B]. -/
  | por (g : Guard) (d : Nat) (a : Nat) (b : Nat)
  /-- PXOR (R119). p[D] := p[A] XOR p[B]. -/
  | pxor (g : Guard) (d : Nat) (a : Nat) (b : Nat)
  /-- PANDN (R119). p[D] := p[A] AND NOT p[B]. -/
  | pandn (g : Guard) (d : Nat) (a : Nat) (b : Nat)
  /-- PORN (R119). p[D] := p[A] OR NOT p[B]. -/
  | porn (g : Guard) (d : Nat) (a : Nat) (b : Nat)
  /-- PNOT (R119). p[D] := NOT p[A]. -/
  | pnot (g : Guard) (d : Nat) (a : Nat)
  /-- SEL (R120). x[D] := x[A] when p[N] reads 1, else x[B]. -/
  | sel (g : Guard) (d : Nat) (a : Nat) (b : Nat) (p : Nat)
  /-- SETB (R121). b[D] := x[A]. -/
  | setb (g : Guard) (d : Nat) (a : Nat)
  /-- GETB (R121). x[D] := b[A]. -/
  | getb (g : Guard) (d : Nat) (a : Nat)
  /-- SETBI (R121). b[D] := 32 × TGT. -/
  | setbi (g : Guard) (d : Nat) (t : Nat)
  /-- SYSRD (R122). Reads a system register into x[D], after every landing of the issue tick. -/
  | sysrd (g : Guard) (d : Nat) (s : Nat)
  /-- SYSWR (R122). Writes x[A] to a system register from the next tick; RO targets are unchanged. -/
  | syswr (g : Guard) (a : Nat) (s : Nat)
  /-- QRD (R123). Reads one 64-bit half of a q register into x[D]. -/
  | qrd (g : Guard) (d : Nat) (a : Nat) (h : Bool)
  -- L slot (R100)
  /-- LDB (R129). Loads a sign-extended byte. -/
  | ldb (g : Guard) (d : Nat) (a : Nat) (i : Nat)
  /-- LDBU (R129). Loads a zero-extended byte. -/
  | ldbu (g : Guard) (d : Nat) (a : Nat) (i : Nat)
  /-- LDH (R129). Loads a sign-extended half-word. -/
  | ldh (g : Guard) (d : Nat) (a : Nat) (i : Nat)
  /-- LDHU (R129). Loads a zero-extended half-word. -/
  | ldhu (g : Guard) (d : Nat) (a : Nat) (i : Nat)
  /-- LDW (R129). Loads a sign-extended word. -/
  | ldw (g : Guard) (d : Nat) (a : Nat) (i : Nat)
  /-- LDWU (R129). Loads a zero-extended word. -/
  | ldwu (g : Guard) (d : Nat) (a : Nat) (i : Nat)
  /-- LDD (R129). Loads 8 bytes. -/
  | ldd (g : Guard) (d : Nat) (a : Nat) (i : Nat)
  /-- STB (R129). Stores the low byte of x[D]. -/
  | stb (g : Guard) (d : Nat) (a : Nat) (i : Nat)
  /-- STH (R129). Stores the low 2 bytes of x[D]. -/
  | sth (g : Guard) (d : Nat) (a : Nat) (i : Nat)
  /-- STW (R129). Stores the low 4 bytes of x[D]. -/
  | stw (g : Guard) (d : Nat) (a : Nat) (i : Nat)
  /-- STD (R129). Stores the 8 bytes of x[D]. -/
  | std (g : Guard) (d : Nat) (a : Nat) (i : Nat)
  /-- VLD (R130). Loads a whole vector register, one row per perform tick. -/
  | vld (g : Guard) (d : Nat) (a : Nat) (i : Nat)
  /-- VST (R130). Stores a whole vector register, one row per perform tick. -/
  | vst (g : Guard) (d : Nat) (a : Nat) (i : Nat)
  /-- VLDR (R131). Loads one row of a vector register. -/
  | vldr (g : Guard) (d : Nat) (a : Nat) (r : Nat) (i : Nat)
  /-- VSTR (R131). Stores one row of a vector register. -/
  | vstr (g : Guard) (d : Nat) (a : Nat) (r : Nat) (i : Nat)
  /-- VLDS (R132). Loads row i from x[A] + i × x[B]. -/
  | vlds (g : Guard) (d : Nat) (a : Nat) (b : Nat)
  /-- VSTS (R132). Stores row i to x[A] + i × x[B]. -/
  | vsts (g : Guard) (d : Nat) (a : Nat) (b : Nat)
  /-- VLDF6 (R133). Loads packed F6 into the lane layout. -/
  | vldf6 (g : Guard) (d : Nat) (a : Nat) (i : Nat)
  /-- VSTF6 (R133). Stores the lane layout as packed F6. -/
  | vstf6 (g : Guard) (d : Nat) (a : Nat) (i : Nat)
  /-- AMO_ADD (R134). Atomic add on a scratchpad word, returning the old value. -/
  | amoAdd (g : Guard) (d : Nat) (a : Nat) (b : Nat) (w : Bool)
  /-- AMO_SWAP (R134). Atomic swap on a scratchpad word. -/
  | amoSwap (g : Guard) (d : Nat) (a : Nat) (b : Nat) (w : Bool)
  /-- AMO_AND (R134). Atomic AND on a scratchpad word. -/
  | amoAnd (g : Guard) (d : Nat) (a : Nat) (b : Nat) (w : Bool)
  /-- AMO_OR (R134). Atomic OR on a scratchpad word. -/
  | amoOr (g : Guard) (d : Nat) (a : Nat) (b : Nat) (w : Bool)
  /-- AMO_XOR (R134). Atomic XOR on a scratchpad word. -/
  | amoXor (g : Guard) (d : Nat) (a : Nat) (b : Nat) (w : Bool)
  /-- AMO_MIN (R134). Atomic signed minimum on a scratchpad word. -/
  | amoMin (g : Guard) (d : Nat) (a : Nat) (b : Nat) (w : Bool)
  /-- AMO_MAX (R134). Atomic signed maximum on a scratchpad word. -/
  | amoMax (g : Guard) (d : Nat) (a : Nat) (b : Nat) (w : Bool)
  /-- AMO_MINU (R134). Atomic unsigned minimum on a scratchpad word. -/
  | amoMinu (g : Guard) (d : Nat) (a : Nat) (b : Nat) (w : Bool)
  /-- AMO_MAXU (R134). Atomic unsigned maximum on a scratchpad word. -/
  | amoMaxu (g : Guard) (d : Nat) (a : Nat) (b : Nat) (w : Bool)
  /-- MARK (R128). Defers every later L-slot access until after every earlier access has performed. -/
  | mark (g : Guard)
  -- VA and VB slots (R101)
  /-- VADD_F32 (R153). Lane-wise F32 addition. -/
  | vaddF32 (g : Guard) (d : Nat) (a : Nat) (b : Nat) (k : Nat) (r : Rm)
  /-- VSUB_F32 (R153). Lane-wise F32 subtraction. -/
  | vsubF32 (g : Guard) (d : Nat) (a : Nat) (b : Nat) (k : Nat) (r : Rm)
  /-- VMUL_F32 (R153). Lane-wise F32 multiplication. -/
  | vmulF32 (g : Guard) (d : Nat) (a : Nat) (b : Nat) (k : Nat) (r : Rm)
  /-- VFMA_F32 (R153). Lane-wise fused a × b + d. -/
  | vfmaF32 (g : Guard) (d : Nat) (a : Nat) (b : Nat) (k : Nat) (r : Rm)
  /-- VFMS_F32 (R153). Lane-wise fused d − a × b. -/
  | vfmsF32 (g : Guard) (d : Nat) (a : Nat) (b : Nat) (k : Nat) (r : Rm)
  /-- VMIN_F32 (R154). Lane-wise F32 minimum. -/
  | vminF32 (g : Guard) (d : Nat) (a : Nat) (b : Nat) (k : Nat)
  /-- VMAX_F32 (R154). Lane-wise F32 maximum. -/
  | vmaxF32 (g : Guard) (d : Nat) (a : Nat) (b : Nat) (k : Nat)
  /-- VABS_F32 (R154). Clears the sign bit of each lane. -/
  | vabsF32 (g : Guard) (d : Nat) (a : Nat) (k : Nat)
  /-- VNEG_F32 (R154). Inverts the sign bit of each lane. -/
  | vnegF32 (g : Guard) (d : Nat) (a : Nat) (k : Nat)
  /-- VRND_F32 (R155). Rounds each lane to an integral F32 value. -/
  | vrndF32 (g : Guard) (d : Nat) (a : Nat) (k : Nat) (r : Rm)
  /-- VCMP_F32_EQ (R156). F32 equality compare into a lane mask. -/
  | vcmpF32Eq (g : Guard) (d : Nat) (a : Nat) (b : Nat) (k : Nat)
  /-- VCMP_F32_NE (R156). F32 inequality compare into a lane mask. -/
  | vcmpF32Ne (g : Guard) (d : Nat) (a : Nat) (b : Nat) (k : Nat)
  /-- VCMP_F32_LT (R156). F32 less-than compare into a lane mask. -/
  | vcmpF32Lt (g : Guard) (d : Nat) (a : Nat) (b : Nat) (k : Nat)
  /-- VCMP_F32_LE (R156). F32 less-or-equal compare into a lane mask. -/
  | vcmpF32Le (g : Guard) (d : Nat) (a : Nat) (b : Nat) (k : Nat)
  /-- VCMP_F32_UNORD (R156). F32 unordered compare into a lane mask. -/
  | vcmpF32Unord (g : Guard) (d : Nat) (a : Nat) (b : Nat) (k : Nat)
  /-- VCMP_I32_EQ (R156). I32 equality compare into a lane mask. -/
  | vcmpI32Eq (g : Guard) (d : Nat) (a : Nat) (b : Nat) (k : Nat)
  /-- VCMP_I32_NE (R156). I32 inequality compare into a lane mask. -/
  | vcmpI32Ne (g : Guard) (d : Nat) (a : Nat) (b : Nat) (k : Nat)
  /-- VCMP_I32_LT (R156). Signed less-than compare into a lane mask. -/
  | vcmpI32Lt (g : Guard) (d : Nat) (a : Nat) (b : Nat) (k : Nat)
  /-- VCMP_I32_GE (R156). Signed greater-or-equal compare into a lane mask. -/
  | vcmpI32Ge (g : Guard) (d : Nat) (a : Nat) (b : Nat) (k : Nat)
  /-- VCMP_I32_LTU (R156). Unsigned less-than compare into a lane mask. -/
  | vcmpI32Ltu (g : Guard) (d : Nat) (a : Nat) (b : Nat) (k : Nat)
  /-- VCMP_I32_GEU (R156). Unsigned greater-or-equal compare into a lane mask. -/
  | vcmpI32Geu (g : Guard) (d : Nat) (a : Nat) (b : Nat) (k : Nat)
  /-- VADD_I32 (R159). Lane-wise 32-bit wrapping addition. -/
  | vaddI32 (g : Guard) (d : Nat) (a : Nat) (b : Nat) (k : Nat)
  /-- VSUB_I32 (R159). Lane-wise 32-bit wrapping subtraction. -/
  | vsubI32 (g : Guard) (d : Nat) (a : Nat) (b : Nat) (k : Nat)
  /-- VMUL_I32 (R159). Low 32 bits of the lane-wise product. -/
  | vmulI32 (g : Guard) (d : Nat) (a : Nat) (b : Nat) (k : Nat)
  /-- VMULH_I32 (R159). High 32 bits of the signed lane-wise product. -/
  | vmulhI32 (g : Guard) (d : Nat) (a : Nat) (b : Nat) (k : Nat)
  /-- VMIN_I32 (R159). Lane-wise signed minimum. -/
  | vminI32 (g : Guard) (d : Nat) (a : Nat) (b : Nat) (k : Nat)
  /-- VMAX_I32 (R159). Lane-wise signed maximum. -/
  | vmaxI32 (g : Guard) (d : Nat) (a : Nat) (b : Nat) (k : Nat)
  /-- VMIN_N32 (R159). Lane-wise unsigned minimum. -/
  | vminN32 (g : Guard) (d : Nat) (a : Nat) (b : Nat) (k : Nat)
  /-- VMAX_N32 (R159). Lane-wise unsigned maximum. -/
  | vmaxN32 (g : Guard) (d : Nat) (a : Nat) (b : Nat) (k : Nat)
  /-- VADDS_I32 (R159). Lane-wise saturating addition. -/
  | vaddsI32 (g : Guard) (d : Nat) (a : Nat) (b : Nat) (k : Nat)
  /-- VSUBS_I32 (R159). Lane-wise saturating subtraction. -/
  | vsubsI32 (g : Guard) (d : Nat) (a : Nat) (b : Nat) (k : Nat)
  /-- VABS_I32 (R159). Lane-wise saturating absolute value. -/
  | vabsI32 (g : Guard) (d : Nat) (a : Nat) (k : Nat)
  /-- VNEG_I32 (R159). Lane-wise saturating negation. -/
  | vnegI32 (g : Guard) (d : Nat) (a : Nat) (k : Nat)
  /-- VAND (R160). Lane-wise bitwise AND. -/
  | vand (g : Guard) (d : Nat) (a : Nat) (b : Nat) (k : Nat)
  /-- VOR (R160). Lane-wise bitwise OR. -/
  | vor (g : Guard) (d : Nat) (a : Nat) (b : Nat) (k : Nat)
  /-- VXOR (R160). Lane-wise bitwise XOR. -/
  | vxor (g : Guard) (d : Nat) (a : Nat) (b : Nat) (k : Nat)
  /-- VANDN (R160). Lane-wise a AND NOT b. -/
  | vandn (g : Guard) (d : Nat) (a : Nat) (b : Nat) (k : Nat)
  /-- VNOT (R160). Lane-wise bitwise NOT. -/
  | vnot (g : Guard) (d : Nat) (a : Nat) (k : Nat)
  /-- VSLL (R161). Shifts each lane left by an amount from v[B]. -/
  | vsll (g : Guard) (d : Nat) (a : Nat) (b : Nat) (k : Nat)
  /-- VSRL (R161). Shifts each lane right logically by an amount from v[B]. -/
  | vsrl (g : Guard) (d : Nat) (a : Nat) (b : Nat) (k : Nat)
  /-- VSRA (R161). Shifts each lane right arithmetically by an amount from v[B]. -/
  | vsra (g : Guard) (d : Nat) (a : Nat) (b : Nat) (k : Nat)
  /-- VROL (R161). Rotates each lane left by an amount from v[B]. -/
  | vrol (g : Guard) (d : Nat) (a : Nat) (b : Nat) (k : Nat)
  /-- VSLL_IMM (R161). Shifts every lane left by an immediate amount. -/
  | vsllImm (g : Guard) (d : Nat) (a : Nat) (i : Nat)
  /-- VSRL_IMM (R161). Shifts every lane right logically by an immediate amount. -/
  | vsrlImm (g : Guard) (d : Nat) (a : Nat) (i : Nat)
  /-- VSRA_IMM (R161). Shifts every lane right arithmetically by an immediate amount. -/
  | vsraImm (g : Guard) (d : Nat) (a : Nat) (i : Nat)
  /-- VROL_IMM (R161). Rotates every lane left by an immediate amount. -/
  | vrolImm (g : Guard) (d : Nat) (a : Nat) (i : Nat)
  /-- VSEL (R157). Selects v[A] or v[B] per lane by a lane mask. -/
  | vsel (g : Guard) (d : Nat) (a : Nat) (b : Nat) (k : Nat)
  /-- VDOT_I8_I8 (R162). Four-term I8·I8 dot product accumulated into I32, optionally saturated. -/
  | vdotI8I8 (g : Guard) (d : Nat) (a : Nat) (b : Nat) (k : Nat) (s : Bool)
  /-- VDOT_N8_I8 (R162). Four-term N8·I8 dot product accumulated into I32, optionally saturated. -/
  | vdotN8I8 (g : Guard) (d : Nat) (a : Nat) (b : Nat) (k : Nat) (s : Bool)
  /-- VDOT_N8_N8 (R162). Four-term N8·N8 dot product accumulated into I32, optionally saturated. -/
  | vdotN8N8 (g : Guard) (d : Nat) (a : Nat) (b : Nat) (k : Nat) (s : Bool)
  /-- VCVT (R163). Converts the elements of each lane between formats. -/
  | vcvt (g : Guard) (d : Nat) (a : Nat) (t : Fmt) (f : Fmt) (r : Rm)
  /-- VCVT_SAT (R163). Converts the elements of each lane between formats with saturation. -/
  | vcvtSat (g : Guard) (d : Nat) (a : Nat) (t : Fmt) (f : Fmt) (r : Rm)
  /-- VSCA_I32 (R166). Adds an I32 block sum times two scales into F32 accumulators. -/
  | vscaI32 (g : Guard) (d : Nat) (a : Nat) (b : Nat) (k : Nat) (r : Rm)
  /-- VSCA_F32 (R166). Adds an F32 block sum times two scales into F32 accumulators. -/
  | vscaF32 (g : Guard) (d : Nat) (a : Nat) (b : Nat) (k : Nat) (r : Rm)
  /-- VSPLAT (R158). Writes x[A][31:0] into every enabled lane. -/
  | vsplat (g : Guard) (d : Nat) (a : Nat) (k : Nat)
  /-- VROTR (R169). Rotates each row along its columns. -/
  | vrotr (g : Guard) (d : Nat) (a : Nat) (i : Nat)
  /-- VBCR (R169). Broadcasts one column across each row. -/
  | vbcr (g : Guard) (d : Nat) (a : Nat) (i : Nat)
  /-- VROTC (R170). Rotates each column down its rows. -/
  | vrotc (g : Guard) (d : Nat) (a : Nat) (i : Nat)
  /-- VBCC (R170). Broadcasts one row down each column. -/
  | vbcc (g : Guard) (d : Nat) (a : Nat) (i : Nat)
  /-- VREDR_SUM_F32 (R172). Pairwise-tree F32 sum of each row. -/
  | vredrSumF32 (g : Guard) (d : Nat) (a : Nat) (k : Nat)
  /-- VREDR_MAX_F32 (R172). Pairwise-tree F32 maximum of each row. -/
  | vredrMaxF32 (g : Guard) (d : Nat) (a : Nat) (k : Nat)
  /-- VREDR_MIN_F32 (R172). Pairwise-tree F32 minimum of each row. -/
  | vredrMinF32 (g : Guard) (d : Nat) (a : Nat) (k : Nat)
  /-- VREDR_SUM_I32 (R172). Wrapping I32 sum of each row. -/
  | vredrSumI32 (g : Guard) (d : Nat) (a : Nat) (k : Nat)
  /-- VREDR_MAX_I32 (R172). Signed maximum of each row. -/
  | vredrMaxI32 (g : Guard) (d : Nat) (a : Nat) (k : Nat)
  /-- VREDR_MIN_I32 (R172). Signed minimum of each row. -/
  | vredrMinI32 (g : Guard) (d : Nat) (a : Nat) (k : Nat)
  /-- VREDC_SUM_F32 (R172). Pairwise-tree F32 sum of each column. -/
  | vredcSumF32 (g : Guard) (d : Nat) (a : Nat) (k : Nat)
  /-- VREDC_MAX_F32 (R172). Pairwise-tree F32 maximum of each column. -/
  | vredcMaxF32 (g : Guard) (d : Nat) (a : Nat) (k : Nat)
  /-- VREDC_MIN_F32 (R172). Pairwise-tree F32 minimum of each column. -/
  | vredcMinF32 (g : Guard) (d : Nat) (a : Nat) (k : Nat)
  /-- VREDC_SUM_I32 (R172). Wrapping I32 sum of each column. -/
  | vredcSumI32 (g : Guard) (d : Nat) (a : Nat) (k : Nat)
  /-- VREDC_MAX_I32 (R172). Signed maximum of each column. -/
  | vredcMaxI32 (g : Guard) (d : Nat) (a : Nat) (k : Nat)
  /-- VREDC_MIN_I32 (R172). Signed minimum of each column. -/
  | vredcMinI32 (g : Guard) (d : Nat) (a : Nat) (k : Nat)
  /-- VTR (R171). Transposes one 16 × 16 block and copies every other lane unchanged. -/
  | vtr (g : Guard) (d : Nat) (a : Nat) (i : Nat)
  /-- KAND (R174). k[D] := k[A] AND k[B]. -/
  | kand (g : Guard) (d : Nat) (a : Nat) (b : Nat)
  /-- KOR (R174). k[D] := k[A] OR k[B]. -/
  | kor (g : Guard) (d : Nat) (a : Nat) (b : Nat)
  /-- KXOR (R174). k[D] := k[A] XOR k[B]. -/
  | kxor (g : Guard) (d : Nat) (a : Nat) (b : Nat)
  /-- KANDN (R174). k[D] := k[A] AND NOT k[B]. -/
  | kandn (g : Guard) (d : Nat) (a : Nat) (b : Nat)
  /-- KNOT (R174). k[D] := NOT k[A]. -/
  | knot (g : Guard) (d : Nat) (a : Nat)
  /-- KMOV (R174). k[D] := k[A]. -/
  | kmov (g : Guard) (d : Nat) (a : Nat)
  /-- KANY (R175). Sets a predicate when any bit of a lane mask is 1. -/
  | kany (g : Guard) (d : Nat) (a : Nat)
  /-- KALL (R175). Sets a predicate when every bit of a lane mask is 1. -/
  | kall (g : Guard) (d : Nat) (a : Nat)
  /-- VRCPE (R176). Reciprocal estimate with 12 fraction bits. -/
  | vrcpe (g : Guard) (d : Nat) (a : Nat) (k : Nat)
  /-- VRSQE (R176). Reciprocal square root estimate with 12 fraction bits. -/
  | vrsqe (g : Guard) (d : Nat) (a : Nat) (k : Nat)
  /-- VRCPS (R177). Newton refinement step of a reciprocal, with one rounding. -/
  | vrcps (g : Guard) (d : Nat) (a : Nat) (b : Nat) (k : Nat) (r : Rm)
  /-- VRSQS (R177). Newton refinement step of a reciprocal square root, with one rounding. -/
  | vrsqs (g : Guard) (d : Nat) (a : Nat) (b : Nat) (k : Nat) (r : Rm)
  /-- VFEXP (R178). Computes 2^f for f in [0, 1), correctly rounded. -/
  | vfexp (g : Guard) (d : Nat) (a : Nat) (k : Nat)
  /-- VEXPI (R179). Multiplies each lane by 2^n with one rounding. -/
  | vexpi (g : Guard) (d : Nat) (a : Nat) (b : Nat) (k : Nat) (r : Rm)
  /-- VEXPX_E (R180). Extracts the exponent of each F32 lane as I32. -/
  | vexpxE (g : Guard) (d : Nat) (a : Nat) (k : Nat)
  /-- VEXPX_M (R180). Extracts the significand of each F32 lane in [1, 2). -/
  | vexpxM (g : Guard) (d : Nat) (a : Nat) (k : Nat)
  /-- VLG2E (R181). Base-two logarithm of the significand of each lane. -/
  | vlg2e (g : Guard) (d : Nat) (a : Nat) (k : Nat)
  /-- VRNG_N32 (R182). Draws raw 32-bit counter-based random words. -/
  | vrngN32 (g : Guard) (d : Nat) (k : Nat)
  /-- VRNG_F32 (R182). Draws uniform F32 values in (0, 1). -/
  | vrngF32 (g : Guard) (d : Nat) (k : Nat)
  -- M slot (R102)
  /-- MLEASE (R191). Requests the cluster matrix unit's lease. -/
  | mlease (g : Guard)
  /-- MREL (R191). Withdraws a lease request or ends a held lease after its last command. -/
  | mrel (g : Guard)
  /-- MSET (R194). Writes x[A][31:0] into a shadow command register. -/
  | mset (g : Guard) (c : Nat) (a : Nat)
  /-- MSETI (R194). Writes IMM13 into a shadow command register. -/
  | mseti (g : Guard) (c : Nat) (i : Nat)
  /-- MWLD (R196). Loads the weight buffer from the issuing core's scratchpad. -/
  | mwld (g : Guard) (w : Fmt)
  /-- MWLDA (R196). Loads the weight buffer from copy stream A's weight port. -/
  | mwlda (g : Guard) (w : Fmt)
  /-- MWLDB (R196). Loads the weight buffer from copy stream B's weight port. -/
  | mwldb (g : Guard) (w : Fmt)
  /-- MMA (R198). Matrix product of unfolded A rows and the weight buffer, overwriting a tile. -/
  | mma (g : Guard) (w : Fmt) (x : Fmt) (z : Nat)
  /-- MMA_ACC (R198). Matrix product of unfolded A rows and the weight buffer, added into a tile. -/
  | mmaAcc (g : Guard) (w : Fmt) (x : Fmt) (z : Nat)
  /-- MZERO (R199). Clears one accumulator tile. -/
  | mzero (g : Guard) (z : Nat)
  /-- MDRV (R199). Drains one 16 × 64 part of a tile into a vector register. -/
  | mdrv (g : Guard) (d : Nat) (z : Nat) (p : Nat)
  /-- MDRS (R199). Drains a whole tile into the core's scratchpad. -/
  | mdrs (g : Guard) (a : Nat) (z : Nat)
  -- CA and CB slots (R103)
  /-- CPY (R210). Starts a timed copy by an address program, with a constant visible-at offset. -/
  | cpy (g : Guard) (p : Nat) (a : Nat) (t : Nat)
  /-- CPYT (R210). Starts a timed copy with visible-at and not-before ticks taken from registers. -/
  | cpyt (g : Guard) (p : Nat) (a : Nat) (v : Nat) (m : Nat) (x : Bool) (y : Bool)
  /-- CPL (R216). Starts a cluster-local copy by a fixed beat schedule. -/
  | cpl (g : Guard) (p : Nat) (a : Nat) (t : Nat)
  /-- CPROG (R209). Sets an address-program field to x[A]. -/
  | cprog (g : Guard) (p : Nat) (a : Nat) (f : Nat)
  /-- CPROGI (R209). Sets an address-program field to the sign-extended IMM11. -/
  | cprogi (g : Guard) (p : Nat) (f : Nat) (i : Nat)
  /-- SEND (R218). Sends one message to a channel of another core. -/
  | send (g : Guard) (p : Nat) (a : Nat) (t : Nat)
  /-- RECV (R219). Delivers the latest selectable message of a channel into scratchpad. -/
  | recv (g : Guard) (p : Nat) (a : Nat) (t : Nat)
  /-- XMARK (R217). Orders the core's earlier L-slot stores before this stream's later scratchpad reads. -/
  | xmark (g : Guard)
  /-- TBUMP (R336). Schedules the opening of a tensor write epoch at t + 512. -/
  | tbump (g : Guard) (t : Nat)
  /-- TCOMMIT (R336). Freezes the epoch's write count and schedules the commit at t + 512. -/
  | tcommit (g : Guard) (t : Nat)
  /-- TDIG (R336). Schedules a shard digest check of a committed tensor at t + 512. -/
  | tdig (g : Guard) (t : Nat)
  /-- KROT (R336). Schedules a rotation of the tenant's key generations at t + 512. -/
  | krot (g : Guard)
  /-- SEAL (R257). Writes a sealed checkpoint as described by a seal descriptor. -/
  | sealCopy (g : Guard) (a : Nat)
  /-- UNSEAL (R258). Verifies and decrypts a sealed checkpoint. -/
  | unsealCopy (g : Guard) (a : Nat)
  /-- SCRUB (R259). Writes zeros to a destination, with a full write epoch for a TENSOR. -/
  | scrubCopy (g : Guard) (a : Nat)
  -- events of the package
  /-- BUNDLE_ISSUE (R63). At a schedule tick the sequencer issues the bundle at PC after the budget and decode checks, then advances PC or takes a pending transfer. -/
  | bundleIssue (c : Nat)
  /-- RESULT_LAND (R67). A result, row or flag update of an earlier operation lands at its tick within the latency bound. -/
  | resultLand (c : Nat)
  /-- WAIT_END (R141). The tick named by a time wait is reached, and the next bundle issues. -/
  | waitEnd (c : Nat)
  /-- NXT_DELIVERY (R281). The requested tile lands in its q register at exactly issue tick plus 24. -/
  | nxtDelivery (c : Nat)
  /-- BANK_ACCESS_PERFORM (R80). A scratchpad bank serves one presented access per tick, in order of window end and then the fixed order. -/
  | bankAccessPerform (c : Nat)
  /-- HOLD_REQUEST (R28). An agent raises a hold cause at schedule tick e, with hold tick e + 192. -/
  | holdRequest (p : Nat) (cause : Nat)
  /-- HOLD_TAKES_EFFECT (R28). At the hold tick the partition stops schedule time with all causes met there, unless every request has been withdrawn. -/
  | holdTakesEffect (p : Nat)
  /-- HOLD_RESUME (R30). 64 wall ticks after the last hold cause clears, schedule time resumes on every die. -/
  | holdResume (p : Nat)
  /-- STATIONMASTER_RESUME (R239). After a budget-only halt the stationmaster resumes the context at the clearing tick plus 1,024. -/
  | stationmasterResume (p : Nat) (asid : Nat)
  /-- GOVERNOR_WINDOW (R19). At the end of each 16,384-wall-tick window the governor measures power and lowers, raises or keeps each partition's rate step. -/
  | governorWindow (watts : List Nat) (g : GovernorSet)
  /-- RATE_CHANGE_EFFECT (R31). An announced rate step takes effect 192 schedule ticks after the announcement, or at resume. -/
  | rateChangeEffect (p : Nat)
  /-- THERMAL_TRIP (R411). A die at 115 °C makes the routing die remove package power within 1 ms. -/
  | thermalTrip (die : Nat)
  /-- POWER_UP (R408). Power-up resets the package and runs the start steps in order under the step journal. -/
  | powerUp (fails : List BootTry)
  /-- SERVO_SOURCE_SEEN (R21). A valid time source is seen and the servo moves from FREE or HOLDOVER to ACQUIRING. -/
  | servoSourceSeen (valid : List Nat)
  /-- SERVO_MEASUREMENT (R22). An offset measurement from PTM, a UALink peer or a 1PPS edge; 16 below 8 wall ticks lock the servo, which steps or slews WTIME. -/
  | servoMeasurement (off : Int)
  /-- SERVO_SOURCE_LOST (R21). The locked source is lost and the servo enters HOLDOVER. -/
  | servoSourceLost
  /-- SERVO_SOURCE_SELECT (R21). The host driver sets the source preference; selecting no source returns the servo to FREE and clears FADJ. -/
  | servoSourceSelect (order : List Nat)
  /-- LAUNCH_START (R270). Schedule time reaches START and every member of the group moves to RUNNING. -/
  | launchStart (p : Nat) (l : Nat)
  /-- CORE_EXIT_TICK (R145). A core reaches its exit tick, enters IDLE and discards its pending cluster-local beats. -/
  | coreExitTick (c : Nat)
  /-- LAUNCH_RETIRE (R279). The retirement tick of a launch passes; the completion is written or the graph's next node is reached. -/
  | launchRetire (p : Nat) (l : Nat)
  /-- LEASE_GRANT (R187). At a tick at which the unit is FREE, the lease goes to the first eligible requesting position after the last holder. -/
  | leaseGrant (u : Nat)
  /-- LEASE_END (R188). The lease ends at its tick limit, its 64th completion or after an MREL; the weight buffer clears and the unit enters TURN. -/
  | leaseEnd (u : Nat)
  /-- LEASE_TURN_END (R186). Eight ticks after the lease end the unit moves from TURN to FREE. -/
  | leaseTurnEnd (u : Nat)
  /-- MATRIX_COMMAND_SWAP (R193). At a command's start tick the shadow set is copied into the active set and the command starts. -/
  | matrixCommandSwap (c : Nat)
  /-- MATRIX_COMMAND_COMPLETE (R192). A matrix command completes at S + D and settles its writes by C + 24. -/
  | matrixCommandComplete (c : Nat)
  /-- BEAT_SOURCE_READ (R213). A copy beat reads its 64 source bytes at one tick of its window, decrypting and checking the tag when it crosses the die boundary. -/
  | beatSourceRead (c : Nat) (st : Nat) (id : Nat) (b : Nat)
  /-- INDEX_ENTRY_READ (R207). A GATHER or SCATTER copy reads one index-vector entry within its window. -/
  | indexEntryRead (c : Nat) (st : Nat) (id : Nat) (n : Nat)
  /-- BEAT_RELEASE (R212). A beat's destination bytes take the new value exactly at its release tick, and tensor write beats are counted. -/
  | beatRelease (c : Nat) (st : Nat) (id : Nat) (b : Nat)
  /-- CPL_SOURCE_READ (R216). A CPL beat reads its source at exactly tick N + b. -/
  | cplSourceRead (c : Nat) (st : Nat) (id : Nat) (b : Nat)
  /-- CPL_DEST_WRITE (R216). A CPL beat's destination write performs at exactly tick N + b + 12. -/
  | cplDestWrite (c : Nat) (st : Nat) (id : Nat) (b : Nat)
  /-- SEND_BEAT_READ (R218). A SEND beat reads its scratchpad source at exactly tick s + b. -/
  | sendBeatRead (c : Nat) (st : Nat) (id : Nat) (b : Nat)
  /-- MESSAGE_ARRIVAL (R219). A message becomes selectable at its receiver at s + m_s, or is discarded when no core of the context is bound there. -/
  | messageArrival (c : Nat) (st : Nat) (id : Nat)
  /-- LATE_BEAT_CHECK (R226). At v − 192 a missing beat raises hold cause 1 under WAIT or the DEADLINE fault under STRICT. -/
  | lateBeatCheck (c : Nat) (st : Nat) (id : Nat) (b : Nat)
  /-- COPY_FAULT (R225). A post-issue check fails; hold cause 6 is raised, the copy stops and the core traps before the hold tick, or the record goes to EVRING after exit. -/
  | copyFault (c : Nat) (st : Nat) (id : Nat) (b : Nat) (cause : Nat) (info : Nat)
  /-- WPORT_BEAT_CONSUME (R221). A weight load consumes a weight-port beat at its tick, loading zeros and raising DEADLINE when the beat is not yet released. -/
  | wportBeatConsume (c : Nat) (st : Nat) (b : Nat)
  /-- VIRT_LOOKUP (R350). A VIRT beat is looked up at its exact tick, checked for access and ownership, and a miss starts a walk under hold cause 3. -/
  | virtLookup (c : Nat) (st : Nat) (id : Nat) (b : Nat) (dst : Bool)
  /-- WALK_COMPLETE (R351). A page walk writes its translation entry or faults with XLATE. -/
  | walkComplete (c : Nat) (st : Nat) (id : Nat) (b : Nat) (dst : Bool)
  /-- SEAL_DESCRIPTOR_CHECK (R256). At t + 4 the seal descriptor is checked and a failure is raised as a copy fault. -/
  | sealDescriptorCheck (c : Nat) (st : Nat) (id : Nat)
  /-- TBUMP_EFFECT (R328). At the effect tick a write epoch opens with NEXT + 1, or the TENSOR fault is raised. -/
  | tbumpEffect (c : Nat) (st : Nat) (id : Nat)
  /-- TCOMMIT_EFFECT (R333). At the effect tick the frozen count is compared with LIMIT ÷ 64, and the tensor becomes CLOSED or TORN. -/
  | tcommitEffect (c : Nat) (st : Nat) (id : Nat)
  /-- TDIG_EFFECT (R337). At the effect tick a digest check of the committed lines begins, or the TENSOR fault is raised. -/
  | tdigEffect (c : Nat) (st : Nat) (id : Nat)
  /-- DIGEST_RESULT (R337). The digest check ends and sets DIGOK, or sets PSN and starts a refetch. -/
  | digestResult (p : Nat) (tid : Nat)
  /-- KROT_EFFECT (R338). The tenant's generations rotate, tensors and epochs of the retired generation become ERASED or TORN, and lanes re-key. -/
  | krotEffect (c : Nat) (st : Nat) (id : Nat)
  /-- BARRIER_COMPLETE (R299). A barrier instance reaches its completion tick R and waiting members issue. -/
  | barrierComplete (p : Nat) (l : Nat) (scope : Nat) (n : Nat)
  /-- CREATE (R232). Context command that reads the CCB and creates a context with the lowest free ASID. -/
  | create (p : Nat) (rec : CtxRecord)
  /-- DESTROY (R252). Context command that starts teardown. -/
  | destroy (p : Nat) (rec : CtxRecord)
  /-- PREEMPT (R249). Context command that arms pre-emption at its acceptance tick. -/
  | preempt (p : Nat) (rec : CtxRecord)
  /-- RESUME (R246). Context command that resumes a HALTED or SAVED context at partition tick P and sets CTOFF. -/
  | resume (p : Nat) (rec : CtxRecord)
  /-- POLICY (R232). Context command that re-reads LATE, REFILL and RCOUNT. -/
  | policy (p : Nat) (rec : CtxRecord)
  /-- CONTEXT_CREATE_COMPLETE (R229). The save tensor is bound and the keys are installed, and the context becomes READY. -/
  | contextCreateComplete (p : Nat) (asid : Nat)
  /-- PREEMPT_BOUNDARY (R249). The pre-emption boundary b is reached and the stationmaster raises hold cause 4. -/
  | preemptBoundary (p : Nat) (asid : Nat)
  /-- SAVE_COMMIT (R250). The save area is committed, the cores are cleared to IDLE and cause 4 clears. -/
  | saveCommit (p : Nat) (asid : Nat)
  /-- CONTEXT_REISSUE (R246). After a resume, each core re-issues at its own FTICK in context time with its latches re-delivered. -/
  | contextReissue (p : Nat) (asid : Nat)
  /-- TEARDOWN_COMPLETE (R229). Every core of the context is IDLE and every in-flight beat is discarded, and scrub begins. -/
  | teardownComplete (p : Nat) (asid : Nat)
  /-- CONTEXT_SCRUB_COMPLETE (R254). Scrub has zeroed the context's state and memory, and the context returns to FREE with its ASID. -/
  | contextScrubComplete (p : Nat) (asid : Nat)
  /-- BUILTIN_TEST_COMPLETE (R391). A function's built-in test during scrub ends, and the function is fenced on a fail or a second event. -/
  | builtinTestComplete (die : Nat) (fn : Nat) (pass : Bool)
  /-- PARTITION_RESET (R427). At partition creation or after an FLR teardown, row shifts, spare units, row remaps and re-tests are applied. -/
  | partitionReset (p : Nat)
  /-- PARTITION_CREATE (R410). The host driver creates a partition, refused unless time is locked or no source is selected. -/
  | partitionCreate (p : Nat) (r : PartRequest)
  /-- PARTITION_DESTROY (R271). The host driver destroys a partition. -/
  | partitionDestroy (p : Nat)
  /-- DIE_DRAIN (R265). The host driver sets a die draining for removal, which removes it from leader eligibility. -/
  | dieDrain (p : Nat) (d : Nat) (on : Bool)
  /-- QUEUE_ENABLE (R262). A write of QCFG.EN = 1 enables the queue, or leaves it OFF with BAD-CONFIG. -/
  | queueEnable (p : Nat) (q : Nat) (cfg : Nat)
  /-- QUEUE_DISABLE (R262). A write of QCFG.EN = 0 moves the queue to DRAINING, or from FAULTED to OFF. -/
  | queueDisable (p : Nat) (w : QcfgWrite)
  /-- QTAIL_WRITE (R261). The guest driver publishes records by writing QTAIL. -/
  | qtailWrite (p : Nat) (q : Nat) (v : Nat)
  /-- QUEUE_SELECT (R266). A leader selects a READY queue's head record, validates it, snapshots PRIO and submits a claim. -/
  | queueSelect (p : Nat) (q : Nat)
  /-- CLAIM_RESOLVE (R268). At each claim tick the partition's claims are resolved as one batch in priority and round-robin order. -/
  | claimResolve (p : Nat)
  /-- GRAPH_KERNEL_NODE (R284). A KERNEL node is reached and launches as a KERNEL record with EARLIEST set from its header. -/
  | graphKernelNode (p : Nat) (g : Nat)
  /-- GRAPH_COND_NODE (R284). A COND node reads its condition word and reaches NEXT or ALT. -/
  | graphCondNode (p : Nat) (g : Nat)
  /-- GRAPH_WHILE_NODE (R284). A WHILE node reads its word and iterates, exits or ends with LOOP-LIMIT. -/
  | graphWhileNode (p : Nat) (g : Nat)
  /-- GRAPH_SWAP_NODE (R310). At each claim tick a waiting SWAP node passes, counts or times out. -/
  | graphSwapNode (p : Nat) (g : Nat)
  /-- GRAPH_END_NODE (R284). An END node ends the graph with OK. -/
  | graphEndNode (p : Nat) (g : Nat)
  /-- ASSIGN (R357). Page command that assigns free granules to an ASID and zeroes them. -/
  | assign (p : Nat) (rec : PageRecord)
  /-- RELEASE (R357). Page command that zeroes owned granules and clears their entries. -/
  | release (p : Nat) (rec : PageRecord)
  /-- INVALIDATE (R357). Page command that removes matching translation-buffer entries at tick x. -/
  | invalidate (p : Nat) (rec : PageRecord)
  /-- MIGRATE (R358). Page command that moves a page into the siding and starts a stop-and-copy migration. -/
  | migrate (p : Nat) (rec : PageRecord)
  /-- MIGRATION_COPY_START (R358). From x + 192 the copy engine re-encrypts and copies the page's lines in wall time. -/
  | migrationCopyStart (p : Nat)
  /-- COPY_ENGINE_COMPLETE (R358). The engine rewrites the leaf entry, zeroes the source, clears SID and clears hold cause 2. -/
  | copyEngineComplete (p : Nat)
  /-- PATROL_READ (R364). The patrol engine reads a granule's lines on its 2^42-wall-tick pass, marking uncorrectable lines. -/
  | patrolRead (die : Nat) (granule : Nat) (bad : List Nat)
  /-- MANIFEST_LOAD (R342). A write of GO starts the shard load of the entries of this package. -/
  | manifestLoad (p : Nat) (asid : Nat)
  /-- SHARD_ATTEMPT_COMPLETE (R343). A shard fetch, commit and digest attempt ends in success or a failure that poisons and retries. -/
  | shardAttemptComplete (p : Nat) (i : Nat) (ok : Bool) (data : List Nat)
  /-- SHARD_DEADLINE (R343). A shard not checked by its DEADLINE fails and is refetched. -/
  | shardDeadline (p : Nat) (i : Nat)
  /-- MANIFEST_RECHECK (R344). At each multiple of 256 × CHKINT the loader re-checks every checked entry. -/
  | manifestRecheck (p : Nat)
  /-- ATTACH_RESET_END (R372). Power-up or die reset ends and the die attach begins UCIe-3D training. -/
  | attachResetEnd (die : Nat)
  /-- ATTACH_TRAINING_PASS (R372). Die attach training passes and the attach is ACTIVE. -/
  | attachTrainingPass (die : Nat)
  /-- ATTACH_RETRAIN_REQUEST (R372). Either side requests retraining, and flits wait in the routing die. -/
  | attachRetrainRequest (die : Nat)
  /-- ATTACH_TRAINING_FAIL (R372). Training fails three times; the attach is FAULTED and contexts on the die are torn down. -/
  | attachTrainingFail (die : Nat)
  /-- CIRCUIT_ENABLE (R374). A write of EN = 1 to a points-table entry is accepted and reserves wavelengths, or is refused with a LERR code. -/
  | circuitEnable (e : Nat) (w : Nat)
  /-- CIRCUIT_DISABLE (R374). A write of EN = 0 is accepted and the circuit drains, or is refused with code 4. -/
  | circuitDisable (e : Nat)
  /-- CIRCUIT_LIT (R372). The wavelengths of a SETTING circuit are lit and its lanes open at SEQ 0. -/
  | circuitLit (e : Nat)
  /-- CIRCUIT_DRAIN_COMPLETE (R372). A DRAINING circuit has no flit in flight and returns to FREE. -/
  | circuitDrainComplete (e : Nat)
  /-- WAVELENGTH_FENCE (R376). A failing wavelength is fenced and replaced by a spare, or the circuit degrades or fails. -/
  | wavelengthFence (die : Nat) (i : Nat)
  /-- PORT_ENABLE (R372). The host driver enables a UALink port, which begins training. -/
  | portEnable (n : Nat)
  /-- PORT_TRAINING_PASS (R372). Port training passes and its lanes open. -/
  | portTrainingPass (n : Nat) (width : Nat)
  /-- PORT_LANE_LOSS (R372). An UP port loses a lane or its training and retrains, replaying flits after. -/
  | portLaneLoss (n : Nat)
  /-- PORT_DISABLE (R372). The host driver disables a port and every peer association on it closes. -/
  | portDisable (n : Nat)
  /-- FABIDX_WRITE (R378). The host driver writes the fabric index, ignored unless every port is DOWN. -/
  | fabidxWrite (v : Nat)
  /-- FLIT_RECEIVE (R371). A receiver checks a flit's kind and tag, discards and requests replay on failure, and delivers it in lane order. -/
  | flitReceive (f : Flit)
  /-- PEER_OPEN (R382). PCMD OPEN starts the handshake on an initiator entry or offers a responder entry. -/
  | peerOpen (p : Nat) (i : Nat)
  /-- PEER_CLOSE (R383). PCMD CLOSE closes an OPEN or FAILED entry and sends a close control flit. -/
  | peerClose (p : Nat) (i : Nat)
  /-- PEER_INIT (R382). A responder takes an INIT message, checks the measurement and answers with RESP. -/
  | peerInit (p : Nat) (i : Nat) (msg : PeerMsg)
  /-- PEER_RESP (R382). An initiator takes RESP, checks the measurement and both signatures, derives lane keys and sends FIN. -/
  | peerResp (p : Nat) (i : Nat) (msg : PeerMsg)
  /-- PEER_FIN (R382). A responder takes FIN, checks both signatures and moves to OPEN. -/
  | peerFin (p : Nat) (i : Nat) (msg : PeerMsg)
  /-- PEER_CLOSE_RECEIVED (R383). A close control flit from the peer sets the entry FAILED with WHY 4. -/
  | peerCloseReceived (p : Nat) (i : Nat)
  /-- PEER_TIMEOUT (R383). 2^24 wall ticks pass between handshake steps and the entry fails with WHY 3. -/
  | peerTimeout (p : Nat) (i : Nat)
  /-- FUNCTION_LEVEL_RESET (R384). A function-level reset tears down the partition's contexts, discards its flits and beats, and fails its peer entries. -/
  | functionLevelReset (p : Nat)
  /-- TDISP_MESSAGE (R399). A TDISP message moves the VF's device interface between its states. -/
  | tdispMessage (p : Nat) (msg : Nat)
  /-- IDE_CHECK_FAIL (R399). An IDE check fails on the VF's stream and the interface enters ERROR. -/
  | ideCheckFail (p : Nat)
  /-- HOST_DMA_REQUEST (R356). A host DMA request is checked against the TDISP state, the IDE stream and ownership, and is refused with Unsupported Request when it fails. -/
  | hostDmaRequest (p : Nat) (write : Bool) (addr : Nat) (data : List Nat) (ide : Bool)
  /-- GET_VERSION (R403). SPDM request for the supported versions. -/
  | getVersion (fn : Nat)
  /-- GET_CAPABILITIES (R403). SPDM request for the responder's capabilities. -/
  | getCapabilities (fn : Nat)
  /-- NEGOTIATE_ALGORITHMS (R403). SPDM request that negotiates SHA-384, Ed25519 and AES-256-GCM. -/
  | negotiateAlgorithms (fn : Nat) (hash : Nat) (sig : Nat) (aead : Nat)
  /-- GET_DIGESTS (R403). SPDM request for the certificate chain digests. -/
  | getDigests (fn : Nat)
  /-- GET_CERTIFICATE (R403). SPDM request for a certificate chain. -/
  | getCertificate (fn : Nat) (off : Nat) (len : Nat)
  /-- CHALLENGE (R403). SPDM challenge, answered with dual signatures. -/
  | challenge (fn : Nat) (nonce : Nat)
  /-- GET_MEASUREMENTS (R403). SPDM request for signed measurement blocks, with context blocks chosen by MSEL. -/
  | getMeasurements (fn : Nat) (idx : Nat) (nonce : Nat)
  /-- KEY_EXCHANGE (R400). SPDM key exchange that opens a session used for IDE_KM. -/
  | keyExchange (fn : Nat) (sid : Nat) (pub : Nat)
  /-- FINISH (R403). SPDM FINISH that completes a session handshake. -/
  | finish (fn : Nat) (ok : Bool)
  /-- KEY_UPDATE (R403). SPDM request that updates the session keys. -/
  | keyUpdate (fn : Nat)
  /-- END_SESSION (R403). SPDM request that ends a session. -/
  | endSession (fn : Nat)
  /-- TENANTID_WRITE (R402). The trusted VM writes TENANTID once; later writes are ignored until FLR or destruction. -/
  | tenantidWrite (p : Nat) (v : Nat)
  /-- DEBUG_TOKEN_CHECK (R406). A write of DBGCTL.TOKEN makes Adsal check a token and unlock debug when it passes. -/
  | debugTokenCheck (p : Nat) (token : List Nat)
  /-- DEBUG_LOCK (R407). A write of DBGCTL.LOCK = 1 returns debug to LOCKED. -/
  | debugLock (p : Nat)
  /-- DEBUG_STOP_REQUEST (R405). A debugger stop request is accepted as hold cause 5 while UNLOCKED, and refused while LOCKED. -/
  | debugStopRequest (c : Nat)
  /-- DEBUGGER_RESUME (R29). The debugger resumes and clears hold cause 5. -/
  | debuggerResume (p : Nat)
  /-- JRESET (R409). Any write of JRESET returns every start step to its first choice for the next start. -/
  | jreset
  /-- FENCECLR (R396). The host driver asks for a re-test of a fence at the next partition reset. -/
  | fenceclr (loc : Nat)
  /-- REGISTER_WRITE (R6). A write to a register with no behaviour of its own sets its RW fields and ignores the others. -/
  | registerWrite (p : Nat) (off : Nat) (v : Nat)
  /-- BEAT_PRESENT (R226). A fetched beat becomes present in the landing buffer, or at the destination's controller, after passing its checks, and so clears hold cause 1. -/
  | beatPresent (c : Nat) (st : Nat) (id : Nat) (b : Nat)
  /-- FAULT_ACTIONS_COMPLETE (R29). The stationmaster finishes the actions of a fault or halt (stop records, event record, refills) and clears hold cause 6. -/
  | faultActionsComplete (p : Nat)
  /-- POWER_LOSS (R409). Package power is lost outside a thermal trip; every context, key and partition is lost, and the journal record of the running step stays at RESULT 2. -/
  | powerLoss
  /-- WAIT_BUDGET_EXHAUSTED (R308). During a barrier wait on an instance that is not yet set, BUDGET reads 0 at tick z, and the core takes the BUDGET trap at the boundary before z. -/
  | waitBudgetExhausted (c : Nat)
  deriving DecidableEq, Repr

end Sys2Proof
end

