-- ==== Sys2Proof/WellFormed.lean ====
section
/-! DEFINITION. Which terms of Instr stand for a slot word: registers inside their files, immediates inside their fields, and
only the formats, pairs and numbers that R93 to R103 and the instruction entries offer. -/
namespace Sys2Proof

/-- Why a slot word is illegal (R93); `code` is the sub-cause of Table 3.8. -/
inductive Ill where
  /-- All ones, an opcode, minor code, register or pair that is not assigned, or a field that must be zero. -/
  | unassigned
  /-- A guard that names p12 to p15. -/
  | reservedGuard
  /-- Format codes 14 and 15, rounding codes 5 to 7. -/
  | reservedFormat
  /-- A system-register number that Table 3.4 does not list. -/
  | unassignedSysreg
  deriving DecidableEq, Repr

/-- The sub-cause of Table 3.8. -/
def Ill.code : Ill → Nat
  | .unassigned => 0
  | .reservedGuard => 1
  | .reservedFormat => 4
  | .unassignedSysreg => 5

/-- The six maps of R98 to R103: X, S, L, the vector slots, M, and the copy slots. -/
inductive SlotClass where
  | x | s | l | v | m | c
  deriving DecidableEq, Repr

/-- The code of a format (Table 2.1). -/
def Fmt.code : Fmt → Nat
  | .trn => 0 | .i4 => 1 | .i8 => 2 | .n8 => 3 | .f4 => 4 | .f6 => 5 | .f8a => 6 | .f8b => 7
  | .h16 => 8 | .b16 => 9 | .f32 => 10 | .i32 => 11 | .n32 => 12 | .i64 => 13

/-- The format of a code; 14 and 15 are reserved (R35). -/
def Fmt.ofCode : Nat → Option Fmt
  | 0 => some .trn | 1 => some .i4 | 2 => some .i8 | 3 => some .n8 | 4 => some .f4 | 5 => some .f6 | 6 => some .f8a
  | 7 => some .f8b | 8 => some .h16 | 9 => some .b16 | 10 => some .f32 | 11 => some .i32 | 12 => some .n32
  | 13 => some .i64 | _ => none

/-- The code of a rounding mode (Table 2.3). -/
def Rm.code : Rm → Nat
  | .rne => 0 | .rtz => 1 | .rup => 2 | .rdn => 3 | .rsr => 4

/-- The rounding mode of a code; 5 to 7 are reserved (R43). -/
def Rm.ofCode : Nat → Option Rm
  | 0 => some .rne | 1 => some .rtz | 2 => some .rup | 3 => some .rdn | 4 => some .rsr | _ => none

/-- The floating formats of Table 2.1. -/
def Fmt.isFloat : Fmt → Bool
  | .f4 | .f6 | .f8a | .f8b | .h16 | .b16 | .f32 => true
  | _ => false

/-- The conversions of Table 2.5: TRN takes no float source, and no format converts to itself. -/
def Fmt.converts (src dst : Fmt) : Bool := src != dst && !(src.isFloat && dst == .trn)

/-- The weight formats of R195. -/
def Fmt.weight : Fmt → Bool
  | .trn | .i4 | .i8 | .f4 | .f6 | .f8a | .f8b | .h16 | .b16 => true
  | _ => false

/-- The 42 pairs of Table 8.2, weight format first. -/
def Fmt.mmaPair (wf af : Fmt) : Bool :=
  match wf with
  | .trn | .i4 | .i8 => af == .i8 || af == .n8
  | .f4 | .f6 | .f8a | .f8b | .h16 | .b16 => af.isFloat && af != .f32
  | _ => false

/-- The system-register numbers of Table 3.4. -/
def sysNumber (n : Nat) : Bool :=
  n ≤ 0x002 || (0x010 ≤ n && n ≤ 0x014) || (0x020 ≤ n && n ≤ 0x022) || (0x030 ≤ n && n ≤ 0x032) || (0x040 ≤ n && n ≤ 0x047)

/-- The address-program fields of Table 9.2. -/
def copyField (n : Nat) : Bool := n ≤ 0x0C || (0x10 ≤ n && n ≤ 0x14) || (0x18 ≤ n && n ≤ 0x1C) || (0x20 ≤ n && n ≤ 0x22)

/-- The subgroup codes that decoding takes: a from 1 to 5 in bits [7:4] and b from 1 to 6 in bits [3:0] (R301). -/
def barrierCode (c : Nat) : Bool := 1 ≤ c / 16 && c / 16 ≤ 5 && 1 ≤ c % 16 && c % 16 ≤ 6

/-- A guard names p0 to p11 (R68, R90). -/
def Guard.ok (g : Guard) : Bool := g.pred < 12

/-- The term stands for a slot word of its map; an event carries no encoding to be checked. -/
def Instr.wf (i : Instr) : Bool :=
  match i with
  | .nop g => g.ok
  | .br g t => g.ok && t < 8192
  | .brb g b => g.ok && b < 4
  | .call g l t => g.ok && l < 4 && t < 8192
  | .callb g d b => g.ok && d < 4 && b < 4
  | .loop g a t => g.ok && a < 32 && t < 8192
  | .mbrChain g a b c d => g.ok && a < 32 && a % 16 < 12 && b < 32 && b % 16 < 12 && c < 32 && c % 16 < 12 && d < 32 && d % 16 < 12
  | .mbrTree g a b c d => g.ok && a < 32 && a % 16 < 12 && b < 32 && b % 16 < 12 && c < 32 && c % 16 < 12 && d < 32 && d % 16 < 12
  | .waitt g a i => g.ok && a < 32 && i < 65536
  | .waitd g i => g.ok && i < 65536
  | .nxt g => g.ok
  | .trap g i => g.ok && i < 65536
  | .brk g i => g.ok && i < 65536
  | .cbar g c => g.ok && c < 256 && barrierCode c
  | .cbarNw g c => g.ok && c < 256 && barrierCode c
  | .dbar g => g.ok
  | .dbarNw g => g.ok
  | .ssb g => g.ok
  | .ssbNw g => g.ok
  | .bstatSub g d c => g.ok && d < 12 && c < 256 && barrierCode c
  | .bstatDie g d => g.ok && d < 12
  | .bstatSs g d => g.ok && d < 12
  | .tmge g d a => g.ok && d < 12 && a < 32
  | .bdge g d i => g.ok && d < 12 && i < 65536
  | .exit g => g.ok
  | .yield g => g.ok
  | .add g d a b => g.ok && d < 32 && a < 32 && b < 32
  | .sub g d a b => g.ok && d < 32 && a < 32 && b < 32
  | .and g d a b => g.ok && d < 32 && a < 32 && b < 32
  | .or g d a b => g.ok && d < 32 && a < 32 && b < 32
  | .xor g d a b => g.ok && d < 32 && a < 32 && b < 32
  | .andn g d a b => g.ok && d < 32 && a < 32 && b < 32
  | .orn g d a b => g.ok && d < 32 && a < 32 && b < 32
  | .xnor g d a b => g.ok && d < 32 && a < 32 && b < 32
  | .sll g d a b => g.ok && d < 32 && a < 32 && b < 32
  | .srl g d a b => g.ok && d < 32 && a < 32 && b < 32
  | .sra g d a b => g.ok && d < 32 && a < 32 && b < 32
  | .rol g d a b => g.ok && d < 32 && a < 32 && b < 32
  | .ror g d a b => g.ok && d < 32 && a < 32 && b < 32
  | .mul g d a b => g.ok && d < 32 && a < 32 && b < 32
  | .mulh g d a b => g.ok && d < 32 && a < 32 && b < 32
  | .mulhu g d a b => g.ok && d < 32 && a < 32 && b < 32
  | .min g d a b => g.ok && d < 32 && a < 32 && b < 32
  | .max g d a b => g.ok && d < 32 && a < 32 && b < 32
  | .minu g d a b => g.ok && d < 32 && a < 32 && b < 32
  | .maxu g d a b => g.ok && d < 32 && a < 32 && b < 32
  | .clz g d a => g.ok && d < 32 && a < 32
  | .ctz g d a => g.ok && d < 32 && a < 32
  | .popc g d a => g.ok && d < 32 && a < 32
  | .bswap g d a => g.ok && d < 32 && a < 32
  | .adds g d a b => g.ok && d < 32 && a < 32 && b < 32
  | .subs g d a b => g.ok && d < 32 && a < 32 && b < 32
  | .addi g d a i => g.ok && d < 32 && a < 32 && i < 2048
  | .andi g d a i => g.ok && d < 32 && a < 32 && i < 2048
  | .ori g d a i => g.ok && d < 32 && a < 32 && i < 2048
  | .xori g d a i => g.ok && d < 32 && a < 32 && i < 2048
  | .slli g d a s => g.ok && d < 32 && a < 32 && s < 64
  | .srli g d a s => g.ok && d < 32 && a < 32 && s < 64
  | .srai g d a s => g.ok && d < 32 && a < 32 && s < 64
  | .roli g d a s => g.ok && d < 32 && a < 32 && s < 64
  | .movi g d i => g.ok && d < 32 && i < 65536
  | .movk16 g d i => g.ok && d < 32 && i < 65536
  | .movk32 g d i => g.ok && d < 32 && i < 65536
  | .movk48 g d i => g.ok && d < 32 && i < 65536
  | .cmpEq g d a b => g.ok && d < 12 && a < 32 && b < 32
  | .cmpNe g d a b => g.ok && d < 12 && a < 32 && b < 32
  | .cmpLt g d a b => g.ok && d < 12 && a < 32 && b < 32
  | .cmpGe g d a b => g.ok && d < 12 && a < 32 && b < 32
  | .cmpLtu g d a b => g.ok && d < 12 && a < 32 && b < 32
  | .cmpGeu g d a b => g.ok && d < 12 && a < 32 && b < 32
  | .cmpiEq g d a i => g.ok && d < 12 && a < 32 && i < 256
  | .cmpiNe g d a i => g.ok && d < 12 && a < 32 && i < 256
  | .cmpiLt g d a i => g.ok && d < 12 && a < 32 && i < 256
  | .cmpiGe g d a i => g.ok && d < 12 && a < 32 && i < 256
  | .cmpiLtu g d a i => g.ok && d < 12 && a < 32 && i < 256
  | .cmpiGeu g d a i => g.ok && d < 12 && a < 32 && i < 256
  | .pand g d a b => g.ok && d < 12 && a < 12 && b < 12
  | .por g d a b => g.ok && d < 12 && a < 12 && b < 12
  | .pxor g d a b => g.ok && d < 12 && a < 12 && b < 12
  | .pandn g d a b => g.ok && d < 12 && a < 12 && b < 12
  | .porn g d a b => g.ok && d < 12 && a < 12 && b < 12
  | .pnot g d a => g.ok && d < 12 && a < 12
  | .sel g d a b p => g.ok && d < 32 && a < 32 && b < 32 && p < 12
  | .setb g d a => g.ok && d < 4 && a < 32
  | .getb g d a => g.ok && d < 32 && a < 4
  | .setbi g d t => g.ok && d < 4 && t < 8192
  | .sysrd g d s => g.ok && d < 32 && sysNumber s
  | .syswr g a s => g.ok && a < 32 && sysNumber s
  | .qrd g d a _ => g.ok && d < 32 && a < 4
  | .ldb g d a i => g.ok && d < 32 && a < 32 && i < 2048
  | .ldbu g d a i => g.ok && d < 32 && a < 32 && i < 2048
  | .ldh g d a i => g.ok && d < 32 && a < 32 && i < 2048
  | .ldhu g d a i => g.ok && d < 32 && a < 32 && i < 2048
  | .ldw g d a i => g.ok && d < 32 && a < 32 && i < 2048
  | .ldwu g d a i => g.ok && d < 32 && a < 32 && i < 2048
  | .ldd g d a i => g.ok && d < 32 && a < 32 && i < 2048
  | .stb g d a i => g.ok && d < 32 && a < 32 && i < 2048
  | .sth g d a i => g.ok && d < 32 && a < 32 && i < 2048
  | .stw g d a i => g.ok && d < 32 && a < 32 && i < 2048
  | .std g d a i => g.ok && d < 32 && a < 32 && i < 2048
  | .vld g d a i => g.ok && d < 32 && a < 32 && i < 2048
  | .vst g d a i => g.ok && d < 32 && a < 32 && i < 2048
  | .vldr g d a r i => g.ok && d < 32 && a < 32 && r < 16 && i < 128
  | .vstr g d a r i => g.ok && d < 32 && a < 32 && r < 16 && i < 128
  | .vlds g d a b => g.ok && d < 32 && a < 32 && b < 32
  | .vsts g d a b => g.ok && d < 32 && a < 32 && b < 32
  | .vldf6 g d a i => g.ok && d < 32 && a < 32 && i < 2048
  | .vstf6 g d a i => g.ok && d < 32 && a < 32 && i < 2048
  | .amoAdd g d a b _ => g.ok && d < 32 && a < 32 && b < 32
  | .amoSwap g d a b _ => g.ok && d < 32 && a < 32 && b < 32
  | .amoAnd g d a b _ => g.ok && d < 32 && a < 32 && b < 32
  | .amoOr g d a b _ => g.ok && d < 32 && a < 32 && b < 32
  | .amoXor g d a b _ => g.ok && d < 32 && a < 32 && b < 32
  | .amoMin g d a b _ => g.ok && d < 32 && a < 32 && b < 32
  | .amoMax g d a b _ => g.ok && d < 32 && a < 32 && b < 32
  | .amoMinu g d a b _ => g.ok && d < 32 && a < 32 && b < 32
  | .amoMaxu g d a b _ => g.ok && d < 32 && a < 32 && b < 32
  | .mark g => g.ok
  | .vaddF32 g d a b k _ => g.ok && d < 32 && a < 32 && b < 32 && k < 8
  | .vsubF32 g d a b k _ => g.ok && d < 32 && a < 32 && b < 32 && k < 8
  | .vmulF32 g d a b k _ => g.ok && d < 32 && a < 32 && b < 32 && k < 8
  | .vfmaF32 g d a b k _ => g.ok && d < 32 && a < 32 && b < 32 && k < 8
  | .vfmsF32 g d a b k _ => g.ok && d < 32 && a < 32 && b < 32 && k < 8
  | .vminF32 g d a b k => g.ok && d < 32 && a < 32 && b < 32 && k < 8
  | .vmaxF32 g d a b k => g.ok && d < 32 && a < 32 && b < 32 && k < 8
  | .vabsF32 g d a k => g.ok && d < 32 && a < 32 && k < 8
  | .vnegF32 g d a k => g.ok && d < 32 && a < 32 && k < 8
  | .vrndF32 g d a k _ => g.ok && d < 32 && a < 32 && k < 8
  | .vcmpF32Eq g d a b k => g.ok && d < 8 && a < 32 && b < 32 && k < 8
  | .vcmpF32Ne g d a b k => g.ok && d < 8 && a < 32 && b < 32 && k < 8
  | .vcmpF32Lt g d a b k => g.ok && d < 8 && a < 32 && b < 32 && k < 8
  | .vcmpF32Le g d a b k => g.ok && d < 8 && a < 32 && b < 32 && k < 8
  | .vcmpF32Unord g d a b k => g.ok && d < 8 && a < 32 && b < 32 && k < 8
  | .vcmpI32Eq g d a b k => g.ok && d < 8 && a < 32 && b < 32 && k < 8
  | .vcmpI32Ne g d a b k => g.ok && d < 8 && a < 32 && b < 32 && k < 8
  | .vcmpI32Lt g d a b k => g.ok && d < 8 && a < 32 && b < 32 && k < 8
  | .vcmpI32Ge g d a b k => g.ok && d < 8 && a < 32 && b < 32 && k < 8
  | .vcmpI32Ltu g d a b k => g.ok && d < 8 && a < 32 && b < 32 && k < 8
  | .vcmpI32Geu g d a b k => g.ok && d < 8 && a < 32 && b < 32 && k < 8
  | .vaddI32 g d a b k => g.ok && d < 32 && a < 32 && b < 32 && k < 8
  | .vsubI32 g d a b k => g.ok && d < 32 && a < 32 && b < 32 && k < 8
  | .vmulI32 g d a b k => g.ok && d < 32 && a < 32 && b < 32 && k < 8
  | .vmulhI32 g d a b k => g.ok && d < 32 && a < 32 && b < 32 && k < 8
  | .vminI32 g d a b k => g.ok && d < 32 && a < 32 && b < 32 && k < 8
  | .vmaxI32 g d a b k => g.ok && d < 32 && a < 32 && b < 32 && k < 8
  | .vminN32 g d a b k => g.ok && d < 32 && a < 32 && b < 32 && k < 8
  | .vmaxN32 g d a b k => g.ok && d < 32 && a < 32 && b < 32 && k < 8
  | .vaddsI32 g d a b k => g.ok && d < 32 && a < 32 && b < 32 && k < 8
  | .vsubsI32 g d a b k => g.ok && d < 32 && a < 32 && b < 32 && k < 8
  | .vabsI32 g d a k => g.ok && d < 32 && a < 32 && k < 8
  | .vnegI32 g d a k => g.ok && d < 32 && a < 32 && k < 8
  | .vand g d a b k => g.ok && d < 32 && a < 32 && b < 32 && k < 8
  | .vor g d a b k => g.ok && d < 32 && a < 32 && b < 32 && k < 8
  | .vxor g d a b k => g.ok && d < 32 && a < 32 && b < 32 && k < 8
  | .vandn g d a b k => g.ok && d < 32 && a < 32 && b < 32 && k < 8
  | .vnot g d a k => g.ok && d < 32 && a < 32 && k < 8
  | .vsll g d a b k => g.ok && d < 32 && a < 32 && b < 32 && k < 8
  | .vsrl g d a b k => g.ok && d < 32 && a < 32 && b < 32 && k < 8
  | .vsra g d a b k => g.ok && d < 32 && a < 32 && b < 32 && k < 8
  | .vrol g d a b k => g.ok && d < 32 && a < 32 && b < 32 && k < 8
  | .vsllImm g d a i => g.ok && d < 32 && a < 32 && i < 32
  | .vsrlImm g d a i => g.ok && d < 32 && a < 32 && i < 32
  | .vsraImm g d a i => g.ok && d < 32 && a < 32 && i < 32
  | .vrolImm g d a i => g.ok && d < 32 && a < 32 && i < 32
  | .vsel g d a b k => g.ok && d < 32 && a < 32 && b < 32 && k < 8
  | .vdotI8I8 g d a b k _ => g.ok && d < 32 && a < 32 && b < 32 && k < 8
  | .vdotN8I8 g d a b k _ => g.ok && d < 32 && a < 32 && b < 32 && k < 8
  | .vdotN8N8 g d a b k _ => g.ok && d < 32 && a < 32 && b < 32 && k < 8
  | .vcvt g d a t f _ => g.ok && d < 32 && a < 32 && Fmt.converts f t
  | .vcvtSat g d a t f _ => g.ok && d < 32 && a < 32 && Fmt.converts f t
  | .vscaI32 g d a b k _ => g.ok && d < 32 && a < 32 && b < 32 && b % 2 == 0 && k < 8
  | .vscaF32 g d a b k _ => g.ok && d < 32 && a < 32 && b < 32 && b % 2 == 0 && k < 8
  | .vsplat g d a k => g.ok && d < 32 && a < 32 && k < 8
  | .vrotr g d a i => g.ok && d < 32 && a < 32 && i < 64
  | .vbcr g d a i => g.ok && d < 32 && a < 32 && i < 64
  | .vrotc g d a i => g.ok && d < 32 && a < 32 && i < 16
  | .vbcc g d a i => g.ok && d < 32 && a < 32 && i < 16
  | .vredrSumF32 g d a k => g.ok && d < 32 && a < 32 && k < 8
  | .vredrMaxF32 g d a k => g.ok && d < 32 && a < 32 && k < 8
  | .vredrMinF32 g d a k => g.ok && d < 32 && a < 32 && k < 8
  | .vredrSumI32 g d a k => g.ok && d < 32 && a < 32 && k < 8
  | .vredrMaxI32 g d a k => g.ok && d < 32 && a < 32 && k < 8
  | .vredrMinI32 g d a k => g.ok && d < 32 && a < 32 && k < 8
  | .vredcSumF32 g d a k => g.ok && d < 32 && a < 32 && k < 8
  | .vredcMaxF32 g d a k => g.ok && d < 32 && a < 32 && k < 8
  | .vredcMinF32 g d a k => g.ok && d < 32 && a < 32 && k < 8
  | .vredcSumI32 g d a k => g.ok && d < 32 && a < 32 && k < 8
  | .vredcMaxI32 g d a k => g.ok && d < 32 && a < 32 && k < 8
  | .vredcMinI32 g d a k => g.ok && d < 32 && a < 32 && k < 8
  | .vtr g d a i => g.ok && d < 32 && a < 32 && i < 4
  | .kand g d a b => g.ok && d < 8 && a < 8 && b < 8
  | .kor g d a b => g.ok && d < 8 && a < 8 && b < 8
  | .kxor g d a b => g.ok && d < 8 && a < 8 && b < 8
  | .kandn g d a b => g.ok && d < 8 && a < 8 && b < 8
  | .knot g d a => g.ok && d < 8 && a < 8
  | .kmov g d a => g.ok && d < 8 && a < 8
  | .kany g d a => g.ok && d < 12 && a < 8
  | .kall g d a => g.ok && d < 12 && a < 8
  | .vrcpe g d a k => g.ok && d < 32 && a < 32 && k < 8
  | .vrsqe g d a k => g.ok && d < 32 && a < 32 && k < 8
  | .vrcps g d a b k _ => g.ok && d < 32 && a < 32 && b < 32 && k < 8
  | .vrsqs g d a b k _ => g.ok && d < 32 && a < 32 && b < 32 && k < 8
  | .vfexp g d a k => g.ok && d < 32 && a < 32 && k < 8
  | .vexpi g d a b k _ => g.ok && d < 32 && a < 32 && b < 32 && k < 8
  | .vexpxE g d a k => g.ok && d < 32 && a < 32 && k < 8
  | .vexpxM g d a k => g.ok && d < 32 && a < 32 && k < 8
  | .vlg2e g d a k => g.ok && d < 32 && a < 32 && k < 8
  | .vrngN32 g d k => g.ok && d < 32 && k < 8
  | .vrngF32 g d k => g.ok && d < 32 && k < 8
  | .mlease g => g.ok
  | .mrel g => g.ok
  | .mset g c a => g.ok && c < 25 && a < 32
  | .mseti g c i => g.ok && c < 25 && i < 8192
  | .mwld g w => g.ok && Fmt.weight w
  | .mwlda g w => g.ok && Fmt.weight w
  | .mwldb g w => g.ok && Fmt.weight w
  | .mma g w x z => g.ok && z < 4 && Fmt.mmaPair w x
  | .mmaAcc g w x z => g.ok && z < 4 && Fmt.mmaPair w x
  | .mzero g z => g.ok && z < 4
  | .mdrv g d z p => g.ok && d < 32 && z < 4 && p < 16
  | .mdrs g a z => g.ok && a < 32 && z < 4
  | .cpy g p a t => g.ok && p < 16 && a < 32 && t < 4096
  | .cpyt g p a v m _ _ => g.ok && p < 16 && a < 32 && v < 32 && m < 32
  | .cpl g p a t => g.ok && p < 16 && a < 32 && t < 4096
  | .cprog g p a f => g.ok && p < 16 && a < 32 && f < 64 && copyField f
  | .cprogi g p f i => g.ok && p < 16 && f < 64 && copyField f && i < 2048
  | .send g p a t => g.ok && p < 16 && a < 32 && t < 4096
  | .recv g p a t => g.ok && p < 16 && a < 32 && t < 4096
  | .xmark g => g.ok
  | .tbump g t => g.ok && t < 64
  | .tcommit g t => g.ok && t < 64
  | .tdig g t => g.ok && t < 64
  | .krot g => g.ok
  | .sealCopy g a => g.ok && a < 32
  | .unsealCopy g a => g.ok && a < 32
  | .scrubCopy g a => g.ok && a < 32
  | .bundleIssue _ => true
  | .resultLand _ => true
  | .waitEnd _ => true
  | .nxtDelivery _ => true
  | .bankAccessPerform _ => true
  | .holdRequest _ _ => true
  | .holdTakesEffect _ => true
  | .holdResume _ => true
  | .stationmasterResume _ _ => true
  | .governorWindow _ _ => true
  | .rateChangeEffect _ => true
  | .thermalTrip _ => true
  | .powerUp _ => true
  | .servoSourceSeen _ => true
  | .servoMeasurement _ => true
  | .servoSourceLost => true
  | .servoSourceSelect _ => true
  | .launchStart _ _ => true
  | .coreExitTick _ => true
  | .launchRetire _ _ => true
  | .leaseGrant _ => true
  | .leaseEnd _ => true
  | .leaseTurnEnd _ => true
  | .matrixCommandSwap _ => true
  | .matrixCommandComplete _ => true
  | .beatSourceRead _ _ _ _ => true
  | .indexEntryRead _ _ _ _ => true
  | .beatRelease _ _ _ _ => true
  | .cplSourceRead _ _ _ _ => true
  | .cplDestWrite _ _ _ _ => true
  | .sendBeatRead _ _ _ _ => true
  | .messageArrival _ _ _ => true
  | .lateBeatCheck _ _ _ _ => true
  | .copyFault _ _ _ _ _ _ => true
  | .wportBeatConsume _ _ _ => true
  | .virtLookup _ _ _ _ _ => true
  | .walkComplete _ _ _ _ _ => true
  | .sealDescriptorCheck _ _ _ => true
  | .tbumpEffect _ _ _ => true
  | .tcommitEffect _ _ _ => true
  | .tdigEffect _ _ _ => true
  | .digestResult _ _ => true
  | .krotEffect _ _ _ => true
  | .barrierComplete _ _ _ _ => true
  | .create _ _ => true
  | .destroy _ _ => true
  | .preempt _ _ => true
  | .resume _ _ => true
  | .policy _ _ => true
  | .contextCreateComplete _ _ => true
  | .preemptBoundary _ _ => true
  | .saveCommit _ _ => true
  | .contextReissue _ _ => true
  | .teardownComplete _ _ => true
  | .contextScrubComplete _ _ => true
  | .builtinTestComplete _ _ _ => true
  | .partitionReset _ => true
  | .partitionCreate _ _ => true
  | .partitionDestroy _ => true
  | .dieDrain _ _ _ => true
  | .queueEnable _ _ _ => true
  | .queueDisable _ _ => true
  | .qtailWrite _ _ _ => true
  | .queueSelect _ _ => true
  | .claimResolve _ => true
  | .graphKernelNode _ _ => true
  | .graphCondNode _ _ => true
  | .graphWhileNode _ _ => true
  | .graphSwapNode _ _ => true
  | .graphEndNode _ _ => true
  | .assign _ _ => true
  | .release _ _ => true
  | .invalidate _ _ => true
  | .migrate _ _ => true
  | .migrationCopyStart _ => true
  | .copyEngineComplete _ => true
  | .patrolRead _ _ _ => true
  | .manifestLoad _ _ => true
  | .shardAttemptComplete _ _ _ _ => true
  | .shardDeadline _ _ => true
  | .manifestRecheck _ => true
  | .attachResetEnd _ => true
  | .attachTrainingPass _ => true
  | .attachRetrainRequest _ => true
  | .attachTrainingFail _ => true
  | .circuitEnable _ _ => true
  | .circuitDisable _ => true
  | .circuitLit _ => true
  | .circuitDrainComplete _ => true
  | .wavelengthFence _ _ => true
  | .portEnable _ => true
  | .portTrainingPass _ _ => true
  | .portLaneLoss _ => true
  | .portDisable _ => true
  | .fabidxWrite _ => true
  | .flitReceive _ => true
  | .peerOpen _ _ => true
  | .peerClose _ _ => true
  | .peerInit _ _ _ => true
  | .peerResp _ _ _ => true
  | .peerFin _ _ _ => true
  | .peerCloseReceived _ _ => true
  | .peerTimeout _ _ => true
  | .functionLevelReset _ => true
  | .tdispMessage _ _ => true
  | .ideCheckFail _ => true
  | .hostDmaRequest _ _ _ _ _ => true
  | .getVersion _ => true
  | .getCapabilities _ => true
  | .negotiateAlgorithms _ _ _ _ => true
  | .getDigests _ => true
  | .getCertificate _ _ _ => true
  | .challenge _ _ => true
  | .getMeasurements _ _ _ => true
  | .keyExchange _ _ _ => true
  | .finish _ _ => true
  | .keyUpdate _ => true
  | .endSession _ => true
  | .tenantidWrite _ _ => true
  | .debugTokenCheck _ _ => true
  | .debugLock _ => true
  | .debugStopRequest _ => true
  | .debuggerResume _ => true
  | .jreset => true
  | .fenceclr _ => true
  | .registerWrite _ _ _ => true
  | .beatPresent _ _ _ _ => true
  | .faultActionsComplete _ => true
  | .powerLoss => true
  | .waitBudgetExhausted _ => true

end Sys2Proof
end

