-- ==== Sys2Proof/Decode.lean ====
section
/-! DEFINITION. Decoding a slot word against the map of its slot, in the order of checks of R93, and the encoder written from
the same maps (Tables 4.3 to 4.8). -/
namespace Sys2Proof

/-- Bits [hi:lo] of a word. -/
def fld (w hi lo : Nat) : Nat := w / 2 ^ lo % 2 ^ (hi + 1 - lo)

/-- A check of point 3 of R93: unassigned unless c holds. -/
def need (c : Prop) [Decidable c] (r : Except Ill Instr) : Except Ill Instr := if c then r else .error .unassigned

/-- Table 4.3: what an operation word of this map is, its guard being read already. -/
def decodeX (g : Guard) (wd : Nat) : Except Ill Instr :=
  match fld wd 26 21 with
  | 0x01 => need (fld wd 20 13 = 0) (.ok (.br g (fld wd 12 0)))
  | 0x02 => need (fld wd 20 8 = 0 ∧ fld wd 5 0 = 0) (.ok (.brb g (fld wd 7 6)))
  | 0x03 => need (fld wd 20 15 = 0) (.ok (.call g (fld wd 14 13) (fld wd 12 0)))
  | 0x04 => need (fld wd 20 18 = 0 ∧ fld wd 15 8 = 0 ∧ fld wd 5 0 = 0) (.ok (.callb g (fld wd 17 16) (fld wd 7 6)))
  | 0x05 => need (fld wd 15 13 = 0) (.ok (.loop g (fld wd 20 16) (fld wd 12 0)))
  | 0x06 =>
    match fld wd 0 0 with
    | 0 => need (fld wd 20 16 % 16 < 12 ∧ fld wd 15 11 % 16 < 12 ∧ fld wd 10 6 % 16 < 12 ∧ fld wd 5 1 % 16 < 12) (.ok (.mbrChain g (fld wd 20 16) (fld wd 15 11) (fld wd 10 6) (fld wd 5 1)))
    | 1 => need (fld wd 20 16 % 16 < 12 ∧ fld wd 15 11 % 16 < 12 ∧ fld wd 10 6 % 16 < 12 ∧ fld wd 5 1 % 16 < 12) (.ok (.mbrTree g (fld wd 20 16) (fld wd 15 11) (fld wd 10 6) (fld wd 5 1)))
    | _ => .error .unassigned
  | 0x07 => .ok (.waitt g (fld wd 20 16) (fld wd 15 0))
  | 0x08 => need (fld wd 20 16 = 0) (.ok (.waitd g (fld wd 15 0)))
  | 0x09 => need (fld wd 20 0 = 0) (.ok (.nxt g))
  | 0x0A => need (fld wd 20 16 = 0) (.ok (.trap g (fld wd 15 0)))
  | 0x0B => need (fld wd 20 16 = 0) (.ok (.brk g (fld wd 15 0)))
  | 0x0C =>
    match fld wd 15 15 with
    | 0 => need (fld wd 20 16 = 0 ∧ fld wd 14 8 = 0 ∧ barrierCode (fld wd 7 0)) (.ok (.cbar g (fld wd 7 0)))
    | 1 => need (fld wd 20 16 = 0 ∧ fld wd 14 8 = 0 ∧ barrierCode (fld wd 7 0)) (.ok (.cbarNw g (fld wd 7 0)))
    | _ => .error .unassigned
  | 0x0D =>
    match fld wd 15 15 with
    | 0 => need (fld wd 20 16 = 0 ∧ fld wd 14 0 = 0) (.ok (.dbar g))
    | 1 => need (fld wd 20 16 = 0 ∧ fld wd 14 0 = 0) (.ok (.dbarNw g))
    | _ => .error .unassigned
  | 0x0E =>
    match fld wd 15 15 with
    | 0 => need (fld wd 20 16 = 0 ∧ fld wd 14 0 = 0) (.ok (.ssb g))
    | 1 => need (fld wd 20 16 = 0 ∧ fld wd 14 0 = 0) (.ok (.ssbNw g))
    | _ => .error .unassigned
  | 0x0F =>
    match fld wd 13 12 with
    | 0 => need (fld wd 20 20 = 0 ∧ fld wd 15 14 = 0 ∧ fld wd 11 8 = 0 ∧ fld wd 19 16 < 12 ∧ barrierCode (fld wd 7 0)) (.ok (.bstatSub g (fld wd 19 16) (fld wd 7 0)))
    | 1 => need (fld wd 20 20 = 0 ∧ fld wd 15 14 = 0 ∧ fld wd 11 0 = 0 ∧ fld wd 19 16 < 12) (.ok (.bstatDie g (fld wd 19 16)))
    | 2 => need (fld wd 20 20 = 0 ∧ fld wd 15 14 = 0 ∧ fld wd 11 0 = 0 ∧ fld wd 19 16 < 12) (.ok (.bstatSs g (fld wd 19 16)))
    | _ => .error .unassigned
  | 0x10 => need (fld wd 20 20 = 0 ∧ fld wd 10 0 = 0 ∧ fld wd 19 16 < 12) (.ok (.tmge g (fld wd 19 16) (fld wd 15 11)))
  | 0x11 => need (fld wd 20 20 = 0 ∧ fld wd 19 16 < 12) (.ok (.bdge g (fld wd 19 16) (fld wd 15 0)))
  | 0x12 => need (fld wd 20 0 = 0) (.ok (.exit g))
  | 0x13 => need (fld wd 20 0 = 0) (.ok (.yield g))
  | _ => .error .unassigned

/-- Table 4.4: what an operation word of this map is, its guard being read already. -/
def decodeS (g : Guard) (wd : Nat) : Except Ill Instr :=
  match fld wd 26 21 with
  | 0x01 =>
    match fld wd 4 0 with
    | 0 => need (fld wd 5 5 = 0) (.ok (.add g (fld wd 20 16) (fld wd 15 11) (fld wd 10 6)))
    | 1 => need (fld wd 5 5 = 0) (.ok (.sub g (fld wd 20 16) (fld wd 15 11) (fld wd 10 6)))
    | 2 => need (fld wd 5 5 = 0) (.ok (.and g (fld wd 20 16) (fld wd 15 11) (fld wd 10 6)))
    | 3 => need (fld wd 5 5 = 0) (.ok (.or g (fld wd 20 16) (fld wd 15 11) (fld wd 10 6)))
    | 4 => need (fld wd 5 5 = 0) (.ok (.xor g (fld wd 20 16) (fld wd 15 11) (fld wd 10 6)))
    | 5 => need (fld wd 5 5 = 0) (.ok (.andn g (fld wd 20 16) (fld wd 15 11) (fld wd 10 6)))
    | 6 => need (fld wd 5 5 = 0) (.ok (.orn g (fld wd 20 16) (fld wd 15 11) (fld wd 10 6)))
    | 7 => need (fld wd 5 5 = 0) (.ok (.xnor g (fld wd 20 16) (fld wd 15 11) (fld wd 10 6)))
    | 8 => need (fld wd 5 5 = 0) (.ok (.sll g (fld wd 20 16) (fld wd 15 11) (fld wd 10 6)))
    | 9 => need (fld wd 5 5 = 0) (.ok (.srl g (fld wd 20 16) (fld wd 15 11) (fld wd 10 6)))
    | 10 => need (fld wd 5 5 = 0) (.ok (.sra g (fld wd 20 16) (fld wd 15 11) (fld wd 10 6)))
    | 11 => need (fld wd 5 5 = 0) (.ok (.rol g (fld wd 20 16) (fld wd 15 11) (fld wd 10 6)))
    | 12 => need (fld wd 5 5 = 0) (.ok (.ror g (fld wd 20 16) (fld wd 15 11) (fld wd 10 6)))
    | 13 => need (fld wd 5 5 = 0) (.ok (.mul g (fld wd 20 16) (fld wd 15 11) (fld wd 10 6)))
    | 14 => need (fld wd 5 5 = 0) (.ok (.mulh g (fld wd 20 16) (fld wd 15 11) (fld wd 10 6)))
    | 15 => need (fld wd 5 5 = 0) (.ok (.mulhu g (fld wd 20 16) (fld wd 15 11) (fld wd 10 6)))
    | 16 => need (fld wd 5 5 = 0) (.ok (.min g (fld wd 20 16) (fld wd 15 11) (fld wd 10 6)))
    | 17 => need (fld wd 5 5 = 0) (.ok (.max g (fld wd 20 16) (fld wd 15 11) (fld wd 10 6)))
    | 18 => need (fld wd 5 5 = 0) (.ok (.minu g (fld wd 20 16) (fld wd 15 11) (fld wd 10 6)))
    | 19 => need (fld wd 5 5 = 0) (.ok (.maxu g (fld wd 20 16) (fld wd 15 11) (fld wd 10 6)))
    | 20 => need (fld wd 10 5 = 0) (.ok (.clz g (fld wd 20 16) (fld wd 15 11)))
    | 21 => need (fld wd 10 5 = 0) (.ok (.ctz g (fld wd 20 16) (fld wd 15 11)))
    | 22 => need (fld wd 10 5 = 0) (.ok (.popc g (fld wd 20 16) (fld wd 15 11)))
    | 23 => need (fld wd 10 5 = 0) (.ok (.bswap g (fld wd 20 16) (fld wd 15 11)))
    | 24 => need (fld wd 5 5 = 0) (.ok (.adds g (fld wd 20 16) (fld wd 15 11) (fld wd 10 6)))
    | 25 => need (fld wd 5 5 = 0) (.ok (.subs g (fld wd 20 16) (fld wd 15 11) (fld wd 10 6)))
    | _ => .error .unassigned
  | 0x02 => .ok (.addi g (fld wd 20 16) (fld wd 15 11) (fld wd 10 0))
  | 0x03 => .ok (.andi g (fld wd 20 16) (fld wd 15 11) (fld wd 10 0))
  | 0x04 => .ok (.ori g (fld wd 20 16) (fld wd 15 11) (fld wd 10 0))
  | 0x05 => .ok (.xori g (fld wd 20 16) (fld wd 15 11) (fld wd 10 0))
  | 0x06 =>
    match fld wd 9 8 with
    | 0 => need (fld wd 10 10 = 0 ∧ fld wd 7 6 = 0) (.ok (.slli g (fld wd 20 16) (fld wd 15 11) (fld wd 5 0)))
    | 1 => need (fld wd 10 10 = 0 ∧ fld wd 7 6 = 0) (.ok (.srli g (fld wd 20 16) (fld wd 15 11) (fld wd 5 0)))
    | 2 => need (fld wd 10 10 = 0 ∧ fld wd 7 6 = 0) (.ok (.srai g (fld wd 20 16) (fld wd 15 11) (fld wd 5 0)))
    | 3 => need (fld wd 10 10 = 0 ∧ fld wd 7 6 = 0) (.ok (.roli g (fld wd 20 16) (fld wd 15 11) (fld wd 5 0)))
    | _ => .error .unassigned
  | 0x07 => .ok (.movi g (fld wd 20 16) (fld wd 15 0))
  | 0x08 => .ok (.movk16 g (fld wd 20 16) (fld wd 15 0))
  | 0x09 => .ok (.movk32 g (fld wd 20 16) (fld wd 15 0))
  | 0x0A => .ok (.movk48 g (fld wd 20 16) (fld wd 15 0))
  | 0x0B =>
    match fld wd 2 0 with
    | 0 => need (fld wd 20 20 = 0 ∧ fld wd 5 3 = 0 ∧ fld wd 19 16 < 12) (.ok (.cmpEq g (fld wd 19 16) (fld wd 15 11) (fld wd 10 6)))
    | 1 => need (fld wd 20 20 = 0 ∧ fld wd 5 3 = 0 ∧ fld wd 19 16 < 12) (.ok (.cmpNe g (fld wd 19 16) (fld wd 15 11) (fld wd 10 6)))
    | 2 => need (fld wd 20 20 = 0 ∧ fld wd 5 3 = 0 ∧ fld wd 19 16 < 12) (.ok (.cmpLt g (fld wd 19 16) (fld wd 15 11) (fld wd 10 6)))
    | 3 => need (fld wd 20 20 = 0 ∧ fld wd 5 3 = 0 ∧ fld wd 19 16 < 12) (.ok (.cmpGe g (fld wd 19 16) (fld wd 15 11) (fld wd 10 6)))
    | 4 => need (fld wd 20 20 = 0 ∧ fld wd 5 3 = 0 ∧ fld wd 19 16 < 12) (.ok (.cmpLtu g (fld wd 19 16) (fld wd 15 11) (fld wd 10 6)))
    | 5 => need (fld wd 20 20 = 0 ∧ fld wd 5 3 = 0 ∧ fld wd 19 16 < 12) (.ok (.cmpGeu g (fld wd 19 16) (fld wd 15 11) (fld wd 10 6)))
    | _ => .error .unassigned
  | 0x0C =>
    match fld wd 10 8 with
    | 0 => need (fld wd 20 20 = 0 ∧ fld wd 19 16 < 12) (.ok (.cmpiEq g (fld wd 19 16) (fld wd 15 11) (fld wd 7 0)))
    | 1 => need (fld wd 20 20 = 0 ∧ fld wd 19 16 < 12) (.ok (.cmpiNe g (fld wd 19 16) (fld wd 15 11) (fld wd 7 0)))
    | 2 => need (fld wd 20 20 = 0 ∧ fld wd 19 16 < 12) (.ok (.cmpiLt g (fld wd 19 16) (fld wd 15 11) (fld wd 7 0)))
    | 3 => need (fld wd 20 20 = 0 ∧ fld wd 19 16 < 12) (.ok (.cmpiGe g (fld wd 19 16) (fld wd 15 11) (fld wd 7 0)))
    | 4 => need (fld wd 20 20 = 0 ∧ fld wd 19 16 < 12) (.ok (.cmpiLtu g (fld wd 19 16) (fld wd 15 11) (fld wd 7 0)))
    | 5 => need (fld wd 20 20 = 0 ∧ fld wd 19 16 < 12) (.ok (.cmpiGeu g (fld wd 19 16) (fld wd 15 11) (fld wd 7 0)))
    | _ => .error .unassigned
  | 0x0D =>
    match fld wd 2 0 with
    | 0 => need (fld wd 20 20 = 0 ∧ fld wd 15 15 = 0 ∧ fld wd 10 10 = 0 ∧ fld wd 5 3 = 0 ∧ fld wd 19 16 < 12 ∧ fld wd 14 11 < 12 ∧ fld wd 9 6 < 12) (.ok (.pand g (fld wd 19 16) (fld wd 14 11) (fld wd 9 6)))
    | 1 => need (fld wd 20 20 = 0 ∧ fld wd 15 15 = 0 ∧ fld wd 10 10 = 0 ∧ fld wd 5 3 = 0 ∧ fld wd 19 16 < 12 ∧ fld wd 14 11 < 12 ∧ fld wd 9 6 < 12) (.ok (.por g (fld wd 19 16) (fld wd 14 11) (fld wd 9 6)))
    | 2 => need (fld wd 20 20 = 0 ∧ fld wd 15 15 = 0 ∧ fld wd 10 10 = 0 ∧ fld wd 5 3 = 0 ∧ fld wd 19 16 < 12 ∧ fld wd 14 11 < 12 ∧ fld wd 9 6 < 12) (.ok (.pxor g (fld wd 19 16) (fld wd 14 11) (fld wd 9 6)))
    | 3 => need (fld wd 20 20 = 0 ∧ fld wd 15 15 = 0 ∧ fld wd 10 10 = 0 ∧ fld wd 5 3 = 0 ∧ fld wd 19 16 < 12 ∧ fld wd 14 11 < 12 ∧ fld wd 9 6 < 12) (.ok (.pandn g (fld wd 19 16) (fld wd 14 11) (fld wd 9 6)))
    | 4 => need (fld wd 20 20 = 0 ∧ fld wd 15 15 = 0 ∧ fld wd 10 10 = 0 ∧ fld wd 5 3 = 0 ∧ fld wd 19 16 < 12 ∧ fld wd 14 11 < 12 ∧ fld wd 9 6 < 12) (.ok (.porn g (fld wd 19 16) (fld wd 14 11) (fld wd 9 6)))
    | 5 => need (fld wd 20 20 = 0 ∧ fld wd 15 15 = 0 ∧ fld wd 10 3 = 0 ∧ fld wd 19 16 < 12 ∧ fld wd 14 11 < 12) (.ok (.pnot g (fld wd 19 16) (fld wd 14 11)))
    | _ => .error .unassigned
  | 0x0E => need (fld wd 5 4 = 0 ∧ fld wd 3 0 < 12) (.ok (.sel g (fld wd 20 16) (fld wd 15 11) (fld wd 10 6) (fld wd 3 0)))
  | 0x0F => need (fld wd 20 18 = 0 ∧ fld wd 10 0 = 0) (.ok (.setb g (fld wd 17 16) (fld wd 15 11)))
  | 0x10 => need (fld wd 15 13 = 0 ∧ fld wd 10 0 = 0) (.ok (.getb g (fld wd 20 16) (fld wd 12 11)))
  | 0x11 => need (fld wd 20 18 = 0 ∧ fld wd 15 13 = 0) (.ok (.setbi g (fld wd 17 16) (fld wd 12 0)))
  | 0x12 => need (fld wd 15 12 = 0) (if sysNumber (fld wd 11 0) then .ok (.sysrd g (fld wd 20 16) (fld wd 11 0)) else .error .unassignedSysreg)
  | 0x13 => need (fld wd 15 12 = 0) (if sysNumber (fld wd 11 0) then .ok (.syswr g (fld wd 20 16) (fld wd 11 0)) else .error .unassignedSysreg)
  | 0x14 => need (fld wd 15 13 = 0 ∧ fld wd 10 1 = 0) (.ok (.qrd g (fld wd 20 16) (fld wd 12 11) (fld wd 0 0 == 1)))
  | _ => .error .unassigned

/-- Table 4.5: what an operation word of this map is, its guard being read already. -/
def decodeL (g : Guard) (wd : Nat) : Except Ill Instr :=
  match fld wd 26 21 with
  | 0x01 => .ok (.ldb g (fld wd 20 16) (fld wd 15 11) (fld wd 10 0))
  | 0x02 => .ok (.ldbu g (fld wd 20 16) (fld wd 15 11) (fld wd 10 0))
  | 0x03 => .ok (.ldh g (fld wd 20 16) (fld wd 15 11) (fld wd 10 0))
  | 0x04 => .ok (.ldhu g (fld wd 20 16) (fld wd 15 11) (fld wd 10 0))
  | 0x05 => .ok (.ldw g (fld wd 20 16) (fld wd 15 11) (fld wd 10 0))
  | 0x06 => .ok (.ldwu g (fld wd 20 16) (fld wd 15 11) (fld wd 10 0))
  | 0x07 => .ok (.ldd g (fld wd 20 16) (fld wd 15 11) (fld wd 10 0))
  | 0x08 => .ok (.stb g (fld wd 20 16) (fld wd 15 11) (fld wd 10 0))
  | 0x09 => .ok (.sth g (fld wd 20 16) (fld wd 15 11) (fld wd 10 0))
  | 0x0A => .ok (.stw g (fld wd 20 16) (fld wd 15 11) (fld wd 10 0))
  | 0x0B => .ok (.std g (fld wd 20 16) (fld wd 15 11) (fld wd 10 0))
  | 0x0C => .ok (.vld g (fld wd 20 16) (fld wd 15 11) (fld wd 10 0))
  | 0x0D => .ok (.vst g (fld wd 20 16) (fld wd 15 11) (fld wd 10 0))
  | 0x0E => .ok (.vldr g (fld wd 20 16) (fld wd 15 11) (fld wd 10 7) (fld wd 6 0))
  | 0x0F => .ok (.vstr g (fld wd 20 16) (fld wd 15 11) (fld wd 10 7) (fld wd 6 0))
  | 0x10 => need (fld wd 5 0 = 0) (.ok (.vlds g (fld wd 20 16) (fld wd 15 11) (fld wd 10 6)))
  | 0x11 => need (fld wd 5 0 = 0) (.ok (.vsts g (fld wd 20 16) (fld wd 15 11) (fld wd 10 6)))
  | 0x12 => .ok (.vldf6 g (fld wd 20 16) (fld wd 15 11) (fld wd 10 0))
  | 0x13 => .ok (.vstf6 g (fld wd 20 16) (fld wd 15 11) (fld wd 10 0))
  | 0x14 =>
    match fld wd 3 0 with
    | 0 => need (fld wd 5 5 = 0) (.ok (.amoAdd g (fld wd 20 16) (fld wd 15 11) (fld wd 10 6) (fld wd 4 4 == 1)))
    | 1 => need (fld wd 5 5 = 0) (.ok (.amoSwap g (fld wd 20 16) (fld wd 15 11) (fld wd 10 6) (fld wd 4 4 == 1)))
    | 2 => need (fld wd 5 5 = 0) (.ok (.amoAnd g (fld wd 20 16) (fld wd 15 11) (fld wd 10 6) (fld wd 4 4 == 1)))
    | 3 => need (fld wd 5 5 = 0) (.ok (.amoOr g (fld wd 20 16) (fld wd 15 11) (fld wd 10 6) (fld wd 4 4 == 1)))
    | 4 => need (fld wd 5 5 = 0) (.ok (.amoXor g (fld wd 20 16) (fld wd 15 11) (fld wd 10 6) (fld wd 4 4 == 1)))
    | 5 => need (fld wd 5 5 = 0) (.ok (.amoMin g (fld wd 20 16) (fld wd 15 11) (fld wd 10 6) (fld wd 4 4 == 1)))
    | 6 => need (fld wd 5 5 = 0) (.ok (.amoMax g (fld wd 20 16) (fld wd 15 11) (fld wd 10 6) (fld wd 4 4 == 1)))
    | 7 => need (fld wd 5 5 = 0) (.ok (.amoMinu g (fld wd 20 16) (fld wd 15 11) (fld wd 10 6) (fld wd 4 4 == 1)))
    | 8 => need (fld wd 5 5 = 0) (.ok (.amoMaxu g (fld wd 20 16) (fld wd 15 11) (fld wd 10 6) (fld wd 4 4 == 1)))
    | _ => .error .unassigned
  | 0x1F => need (fld wd 20 0 = 0) (.ok (.mark g))
  | _ => .error .unassigned

/-- Table 4.6: what an operation word of this map is, its guard being read already. -/
def decodeV (g : Guard) (wd : Nat) : Except Ill Instr :=
  match fld wd 26 21 with
  | 0x01 => (match Rm.ofCode (fld wd 2 0) with | some r => .ok (.vaddF32 g (fld wd 20 16) (fld wd 15 11) (fld wd 10 6) (fld wd 5 3) r) | _ => .error .reservedFormat)
  | 0x02 => (match Rm.ofCode (fld wd 2 0) with | some r => .ok (.vsubF32 g (fld wd 20 16) (fld wd 15 11) (fld wd 10 6) (fld wd 5 3) r) | _ => .error .reservedFormat)
  | 0x03 => (match Rm.ofCode (fld wd 2 0) with | some r => .ok (.vmulF32 g (fld wd 20 16) (fld wd 15 11) (fld wd 10 6) (fld wd 5 3) r) | _ => .error .reservedFormat)
  | 0x04 => (match Rm.ofCode (fld wd 2 0) with | some r => .ok (.vfmaF32 g (fld wd 20 16) (fld wd 15 11) (fld wd 10 6) (fld wd 5 3) r) | _ => .error .reservedFormat)
  | 0x05 => (match Rm.ofCode (fld wd 2 0) with | some r => .ok (.vfmsF32 g (fld wd 20 16) (fld wd 15 11) (fld wd 10 6) (fld wd 5 3) r) | _ => .error .reservedFormat)
  | 0x06 =>
    match fld wd 1 0 with
    | 0 => need (fld wd 2 2 = 0) (.ok (.vminF32 g (fld wd 20 16) (fld wd 15 11) (fld wd 10 6) (fld wd 5 3)))
    | 1 => need (fld wd 2 2 = 0) (.ok (.vmaxF32 g (fld wd 20 16) (fld wd 15 11) (fld wd 10 6) (fld wd 5 3)))
    | 2 => need (fld wd 10 6 = 0 ∧ fld wd 2 2 = 0) (.ok (.vabsF32 g (fld wd 20 16) (fld wd 15 11) (fld wd 5 3)))
    | 3 => need (fld wd 10 6 = 0 ∧ fld wd 2 2 = 0) (.ok (.vnegF32 g (fld wd 20 16) (fld wd 15 11) (fld wd 5 3)))
    | _ => .error .unassigned
  | 0x07 => need (fld wd 10 6 = 0) (match Rm.ofCode (fld wd 2 0) with | some r => .ok (.vrndF32 g (fld wd 20 16) (fld wd 15 11) (fld wd 5 3) r) | _ => .error .reservedFormat)
  | 0x08 =>
    match fld wd 2 0 with
    | 0 => need (fld wd 20 19 = 0) (.ok (.vcmpF32Eq g (fld wd 18 16) (fld wd 15 11) (fld wd 10 6) (fld wd 5 3)))
    | 1 => need (fld wd 20 19 = 0) (.ok (.vcmpF32Ne g (fld wd 18 16) (fld wd 15 11) (fld wd 10 6) (fld wd 5 3)))
    | 2 => need (fld wd 20 19 = 0) (.ok (.vcmpF32Lt g (fld wd 18 16) (fld wd 15 11) (fld wd 10 6) (fld wd 5 3)))
    | 3 => need (fld wd 20 19 = 0) (.ok (.vcmpF32Le g (fld wd 18 16) (fld wd 15 11) (fld wd 10 6) (fld wd 5 3)))
    | 4 => need (fld wd 20 19 = 0) (.ok (.vcmpF32Unord g (fld wd 18 16) (fld wd 15 11) (fld wd 10 6) (fld wd 5 3)))
    | _ => .error .unassigned
  | 0x09 =>
    match fld wd 2 0 with
    | 0 => need (fld wd 20 19 = 0) (.ok (.vcmpI32Eq g (fld wd 18 16) (fld wd 15 11) (fld wd 10 6) (fld wd 5 3)))
    | 1 => need (fld wd 20 19 = 0) (.ok (.vcmpI32Ne g (fld wd 18 16) (fld wd 15 11) (fld wd 10 6) (fld wd 5 3)))
    | 2 => need (fld wd 20 19 = 0) (.ok (.vcmpI32Lt g (fld wd 18 16) (fld wd 15 11) (fld wd 10 6) (fld wd 5 3)))
    | 3 => need (fld wd 20 19 = 0) (.ok (.vcmpI32Ge g (fld wd 18 16) (fld wd 15 11) (fld wd 10 6) (fld wd 5 3)))
    | 4 => need (fld wd 20 19 = 0) (.ok (.vcmpI32Ltu g (fld wd 18 16) (fld wd 15 11) (fld wd 10 6) (fld wd 5 3)))
    | 5 => need (fld wd 20 19 = 0) (.ok (.vcmpI32Geu g (fld wd 18 16) (fld wd 15 11) (fld wd 10 6) (fld wd 5 3)))
    | _ => .error .unassigned
  | 0x0A =>
    match fld wd 2 0 with
    | 0 => .ok (.vaddI32 g (fld wd 20 16) (fld wd 15 11) (fld wd 10 6) (fld wd 5 3))
    | 1 => .ok (.vsubI32 g (fld wd 20 16) (fld wd 15 11) (fld wd 10 6) (fld wd 5 3))
    | 2 => .ok (.vmulI32 g (fld wd 20 16) (fld wd 15 11) (fld wd 10 6) (fld wd 5 3))
    | 3 => .ok (.vmulhI32 g (fld wd 20 16) (fld wd 15 11) (fld wd 10 6) (fld wd 5 3))
    | 4 => .ok (.vminI32 g (fld wd 20 16) (fld wd 15 11) (fld wd 10 6) (fld wd 5 3))
    | 5 => .ok (.vmaxI32 g (fld wd 20 16) (fld wd 15 11) (fld wd 10 6) (fld wd 5 3))
    | 6 => .ok (.vminN32 g (fld wd 20 16) (fld wd 15 11) (fld wd 10 6) (fld wd 5 3))
    | 7 => .ok (.vmaxN32 g (fld wd 20 16) (fld wd 15 11) (fld wd 10 6) (fld wd 5 3))
    | _ => .error .unassigned
  | 0x0B =>
    match fld wd 1 0 with
    | 0 => need (fld wd 2 2 = 0) (.ok (.vaddsI32 g (fld wd 20 16) (fld wd 15 11) (fld wd 10 6) (fld wd 5 3)))
    | 1 => need (fld wd 2 2 = 0) (.ok (.vsubsI32 g (fld wd 20 16) (fld wd 15 11) (fld wd 10 6) (fld wd 5 3)))
    | 2 => need (fld wd 10 6 = 0 ∧ fld wd 2 2 = 0) (.ok (.vabsI32 g (fld wd 20 16) (fld wd 15 11) (fld wd 5 3)))
    | 3 => need (fld wd 10 6 = 0 ∧ fld wd 2 2 = 0) (.ok (.vnegI32 g (fld wd 20 16) (fld wd 15 11) (fld wd 5 3)))
    | _ => .error .unassigned
  | 0x0C =>
    match fld wd 2 0 with
    | 0 => .ok (.vand g (fld wd 20 16) (fld wd 15 11) (fld wd 10 6) (fld wd 5 3))
    | 1 => .ok (.vor g (fld wd 20 16) (fld wd 15 11) (fld wd 10 6) (fld wd 5 3))
    | 2 => .ok (.vxor g (fld wd 20 16) (fld wd 15 11) (fld wd 10 6) (fld wd 5 3))
    | 3 => .ok (.vandn g (fld wd 20 16) (fld wd 15 11) (fld wd 10 6) (fld wd 5 3))
    | 4 => need (fld wd 10 6 = 0) (.ok (.vnot g (fld wd 20 16) (fld wd 15 11) (fld wd 5 3)))
    | _ => .error .unassigned
  | 0x0D =>
    match fld wd 1 0 with
    | 0 => need (fld wd 2 2 = 0) (.ok (.vsll g (fld wd 20 16) (fld wd 15 11) (fld wd 10 6) (fld wd 5 3)))
    | 1 => need (fld wd 2 2 = 0) (.ok (.vsrl g (fld wd 20 16) (fld wd 15 11) (fld wd 10 6) (fld wd 5 3)))
    | 2 => need (fld wd 2 2 = 0) (.ok (.vsra g (fld wd 20 16) (fld wd 15 11) (fld wd 10 6) (fld wd 5 3)))
    | 3 => need (fld wd 2 2 = 0) (.ok (.vrol g (fld wd 20 16) (fld wd 15 11) (fld wd 10 6) (fld wd 5 3)))
    | _ => .error .unassigned
  | 0x0E =>
    match fld wd 1 0 with
    | 0 => need (fld wd 2 2 = 0 ∧ fld wd 10 3 < 32) (.ok (.vsllImm g (fld wd 20 16) (fld wd 15 11) (fld wd 10 3)))
    | 1 => need (fld wd 2 2 = 0 ∧ fld wd 10 3 < 32) (.ok (.vsrlImm g (fld wd 20 16) (fld wd 15 11) (fld wd 10 3)))
    | 2 => need (fld wd 2 2 = 0 ∧ fld wd 10 3 < 32) (.ok (.vsraImm g (fld wd 20 16) (fld wd 15 11) (fld wd 10 3)))
    | 3 => need (fld wd 2 2 = 0 ∧ fld wd 10 3 < 32) (.ok (.vrolImm g (fld wd 20 16) (fld wd 15 11) (fld wd 10 3)))
    | _ => .error .unassigned
  | 0x0F => need (fld wd 2 0 = 0) (.ok (.vsel g (fld wd 20 16) (fld wd 15 11) (fld wd 10 6) (fld wd 5 3)))
  | 0x10 =>
    match fld wd 1 0 with
    | 0 => .ok (.vdotI8I8 g (fld wd 20 16) (fld wd 15 11) (fld wd 10 6) (fld wd 5 3) (fld wd 2 2 == 1))
    | 1 => .ok (.vdotN8I8 g (fld wd 20 16) (fld wd 15 11) (fld wd 10 6) (fld wd 5 3) (fld wd 2 2 == 1))
    | 2 => .ok (.vdotN8N8 g (fld wd 20 16) (fld wd 15 11) (fld wd 10 6) (fld wd 5 3) (fld wd 2 2 == 1))
    | _ => .error .unassigned
  | 0x11 => (match Fmt.ofCode (fld wd 10 7), Fmt.ofCode (fld wd 6 3), Rm.ofCode (fld wd 2 0) with | some t, some f, some r => if Fmt.converts f t then .ok (.vcvt g (fld wd 20 16) (fld wd 15 11) t f r) else .error .unassigned | _, _, _ => .error .reservedFormat)
  | 0x12 => (match Fmt.ofCode (fld wd 10 7), Fmt.ofCode (fld wd 6 3), Rm.ofCode (fld wd 2 0) with | some t, some f, some r => if Fmt.converts f t then .ok (.vcvtSat g (fld wd 20 16) (fld wd 15 11) t f r) else .error .unassigned | _, _, _ => .error .reservedFormat)
  | 0x13 => need (fld wd 6 6 = 0) (match Rm.ofCode (fld wd 2 0) with | some r => .ok (.vscaI32 g (fld wd 20 16) (fld wd 15 11) (2 * fld wd 10 7) (fld wd 5 3) r) | _ => .error .reservedFormat)
  | 0x14 => need (fld wd 6 6 = 0) (match Rm.ofCode (fld wd 2 0) with | some r => .ok (.vscaF32 g (fld wd 20 16) (fld wd 15 11) (2 * fld wd 10 7) (fld wd 5 3) r) | _ => .error .reservedFormat)
  | 0x15 => need (fld wd 10 6 = 0 ∧ fld wd 2 0 = 0) (.ok (.vsplat g (fld wd 20 16) (fld wd 15 11) (fld wd 5 3)))
  | 0x18 =>
    match fld wd 0 0 with
    | 0 => need (fld wd 2 1 = 0 ∧ fld wd 10 3 < 64) (.ok (.vrotr g (fld wd 20 16) (fld wd 15 11) (fld wd 10 3)))
    | 1 => need (fld wd 2 1 = 0 ∧ fld wd 10 3 < 64) (.ok (.vbcr g (fld wd 20 16) (fld wd 15 11) (fld wd 10 3)))
    | _ => .error .unassigned
  | 0x19 =>
    match fld wd 0 0 with
    | 0 => need (fld wd 2 1 = 0 ∧ fld wd 10 3 < 16) (.ok (.vrotc g (fld wd 20 16) (fld wd 15 11) (fld wd 10 3)))
    | 1 => need (fld wd 2 1 = 0 ∧ fld wd 10 3 < 16) (.ok (.vbcc g (fld wd 20 16) (fld wd 15 11) (fld wd 10 3)))
    | _ => .error .unassigned
  | 0x1A =>
    match fld wd 2 0 with
    | 0 => need (fld wd 10 6 = 0) (.ok (.vredrSumF32 g (fld wd 20 16) (fld wd 15 11) (fld wd 5 3)))
    | 1 => need (fld wd 10 6 = 0) (.ok (.vredrMaxF32 g (fld wd 20 16) (fld wd 15 11) (fld wd 5 3)))
    | 2 => need (fld wd 10 6 = 0) (.ok (.vredrMinF32 g (fld wd 20 16) (fld wd 15 11) (fld wd 5 3)))
    | 3 => need (fld wd 10 6 = 0) (.ok (.vredrSumI32 g (fld wd 20 16) (fld wd 15 11) (fld wd 5 3)))
    | 4 => need (fld wd 10 6 = 0) (.ok (.vredrMaxI32 g (fld wd 20 16) (fld wd 15 11) (fld wd 5 3)))
    | 5 => need (fld wd 10 6 = 0) (.ok (.vredrMinI32 g (fld wd 20 16) (fld wd 15 11) (fld wd 5 3)))
    | _ => .error .unassigned
  | 0x1B =>
    match fld wd 2 0 with
    | 0 => need (fld wd 10 6 = 0) (.ok (.vredcSumF32 g (fld wd 20 16) (fld wd 15 11) (fld wd 5 3)))
    | 1 => need (fld wd 10 6 = 0) (.ok (.vredcMaxF32 g (fld wd 20 16) (fld wd 15 11) (fld wd 5 3)))
    | 2 => need (fld wd 10 6 = 0) (.ok (.vredcMinF32 g (fld wd 20 16) (fld wd 15 11) (fld wd 5 3)))
    | 3 => need (fld wd 10 6 = 0) (.ok (.vredcSumI32 g (fld wd 20 16) (fld wd 15 11) (fld wd 5 3)))
    | 4 => need (fld wd 10 6 = 0) (.ok (.vredcMaxI32 g (fld wd 20 16) (fld wd 15 11) (fld wd 5 3)))
    | 5 => need (fld wd 10 6 = 0) (.ok (.vredcMinI32 g (fld wd 20 16) (fld wd 15 11) (fld wd 5 3)))
    | _ => .error .unassigned
  | 0x1C => need (fld wd 2 0 = 0 ∧ fld wd 10 3 < 4) (.ok (.vtr g (fld wd 20 16) (fld wd 15 11) (fld wd 10 3)))
  | 0x1D =>
    match fld wd 2 0 with
    | 0 => need (fld wd 20 19 = 0 ∧ fld wd 15 14 = 0 ∧ fld wd 10 9 = 0 ∧ fld wd 5 3 = 0) (.ok (.kand g (fld wd 18 16) (fld wd 13 11) (fld wd 8 6)))
    | 1 => need (fld wd 20 19 = 0 ∧ fld wd 15 14 = 0 ∧ fld wd 10 9 = 0 ∧ fld wd 5 3 = 0) (.ok (.kor g (fld wd 18 16) (fld wd 13 11) (fld wd 8 6)))
    | 2 => need (fld wd 20 19 = 0 ∧ fld wd 15 14 = 0 ∧ fld wd 10 9 = 0 ∧ fld wd 5 3 = 0) (.ok (.kxor g (fld wd 18 16) (fld wd 13 11) (fld wd 8 6)))
    | 3 => need (fld wd 20 19 = 0 ∧ fld wd 15 14 = 0 ∧ fld wd 10 9 = 0 ∧ fld wd 5 3 = 0) (.ok (.kandn g (fld wd 18 16) (fld wd 13 11) (fld wd 8 6)))
    | 4 => need (fld wd 20 19 = 0 ∧ fld wd 15 14 = 0 ∧ fld wd 10 3 = 0) (.ok (.knot g (fld wd 18 16) (fld wd 13 11)))
    | 5 => need (fld wd 20 19 = 0 ∧ fld wd 15 14 = 0 ∧ fld wd 10 3 = 0) (.ok (.kmov g (fld wd 18 16) (fld wd 13 11)))
    | _ => .error .unassigned
  | 0x1E =>
    match fld wd 0 0 with
    | 0 => need (fld wd 20 20 = 0 ∧ fld wd 15 14 = 0 ∧ fld wd 10 1 = 0 ∧ fld wd 19 16 < 12) (.ok (.kany g (fld wd 19 16) (fld wd 13 11)))
    | 1 => need (fld wd 20 20 = 0 ∧ fld wd 15 14 = 0 ∧ fld wd 10 1 = 0 ∧ fld wd 19 16 < 12) (.ok (.kall g (fld wd 19 16) (fld wd 13 11)))
    | _ => .error .unassigned
  | 0x20 => need (fld wd 10 6 = 0 ∧ fld wd 2 0 = 0) (.ok (.vrcpe g (fld wd 20 16) (fld wd 15 11) (fld wd 5 3)))
  | 0x21 => need (fld wd 10 6 = 0 ∧ fld wd 2 0 = 0) (.ok (.vrsqe g (fld wd 20 16) (fld wd 15 11) (fld wd 5 3)))
  | 0x22 => (match Rm.ofCode (fld wd 2 0) with | some r => .ok (.vrcps g (fld wd 20 16) (fld wd 15 11) (fld wd 10 6) (fld wd 5 3) r) | _ => .error .reservedFormat)
  | 0x23 => (match Rm.ofCode (fld wd 2 0) with | some r => .ok (.vrsqs g (fld wd 20 16) (fld wd 15 11) (fld wd 10 6) (fld wd 5 3) r) | _ => .error .reservedFormat)
  | 0x24 => need (fld wd 10 6 = 0 ∧ fld wd 2 0 = 0) (.ok (.vfexp g (fld wd 20 16) (fld wd 15 11) (fld wd 5 3)))
  | 0x25 => (match Rm.ofCode (fld wd 2 0) with | some r => .ok (.vexpi g (fld wd 20 16) (fld wd 15 11) (fld wd 10 6) (fld wd 5 3) r) | _ => .error .reservedFormat)
  | 0x26 =>
    match fld wd 0 0 with
    | 0 => need (fld wd 10 6 = 0 ∧ fld wd 2 1 = 0) (.ok (.vexpxE g (fld wd 20 16) (fld wd 15 11) (fld wd 5 3)))
    | 1 => need (fld wd 10 6 = 0 ∧ fld wd 2 1 = 0) (.ok (.vexpxM g (fld wd 20 16) (fld wd 15 11) (fld wd 5 3)))
    | _ => .error .unassigned
  | 0x27 => need (fld wd 10 6 = 0 ∧ fld wd 2 0 = 0) (.ok (.vlg2e g (fld wd 20 16) (fld wd 15 11) (fld wd 5 3)))
  | 0x28 =>
    match fld wd 0 0 with
    | 0 => need (fld wd 15 6 = 0 ∧ fld wd 2 1 = 0) (.ok (.vrngN32 g (fld wd 20 16) (fld wd 5 3)))
    | 1 => need (fld wd 15 6 = 0 ∧ fld wd 2 1 = 0) (.ok (.vrngF32 g (fld wd 20 16) (fld wd 5 3)))
    | _ => .error .unassigned
  | _ => .error .unassigned

/-- Table 4.7: what an operation word of this map is, its guard being read already. -/
def decodeM (g : Guard) (wd : Nat) : Except Ill Instr :=
  match fld wd 26 21 with
  | 0x01 => need (fld wd 20 0 = 0) (.ok (.mlease g))
  | 0x02 => need (fld wd 20 0 = 0) (.ok (.mrel g))
  | 0x03 => need (fld wd 7 0 = 0 ∧ fld wd 20 13 < 25) (.ok (.mset g (fld wd 20 13) (fld wd 12 8)))
  | 0x04 => need (fld wd 20 13 < 25) (.ok (.mseti g (fld wd 20 13) (fld wd 12 0)))
  | 0x05 => need (fld wd 16 0 = 0) (match Fmt.ofCode (fld wd 20 17) with | some w => if Fmt.weight w then .ok (.mwld g w) else .error .unassigned | _ => .error .reservedFormat)
  | 0x06 => need (fld wd 16 0 = 0) (match Fmt.ofCode (fld wd 20 17) with | some w => if Fmt.weight w then .ok (.mwlda g w) else .error .unassigned | _ => .error .reservedFormat)
  | 0x07 => need (fld wd 16 0 = 0) (match Fmt.ofCode (fld wd 20 17) with | some w => if Fmt.weight w then .ok (.mwldb g w) else .error .unassigned | _ => .error .reservedFormat)
  | 0x08 =>
    match fld wd 10 10 with
    | 0 => need (fld wd 9 0 = 0) (match Fmt.ofCode (fld wd 20 17), Fmt.ofCode (fld wd 16 13) with | some w, some x => if Fmt.mmaPair w x then .ok (.mma g w x (fld wd 12 11)) else .error .unassigned | _, _ => .error .reservedFormat)
    | 1 => need (fld wd 9 0 = 0) (match Fmt.ofCode (fld wd 20 17), Fmt.ofCode (fld wd 16 13) with | some w, some x => if Fmt.mmaPair w x then .ok (.mmaAcc g w x (fld wd 12 11)) else .error .unassigned | _, _ => .error .reservedFormat)
    | _ => .error .unassigned
  | 0x09 => need (fld wd 20 13 = 0 ∧ fld wd 10 0 = 0) (.ok (.mzero g (fld wd 12 11)))
  | 0x0A => need (fld wd 9 0 = 0) (.ok (.mdrv g (fld wd 20 16) (fld wd 15 14) (fld wd 13 10)))
  | 0x0B => need (fld wd 13 0 = 0) (.ok (.mdrs g (fld wd 20 16) (fld wd 15 14)))
  | _ => .error .unassigned

/-- Table 4.8: what an operation word of this map is, its guard being read already. -/
def decodeC (g : Guard) (wd : Nat) : Except Ill Instr :=
  match fld wd 26 21 with
  | 0x01 => .ok (.cpy g (fld wd 20 17) (fld wd 16 12) (fld wd 11 0))
  | 0x02 => .ok (.cpyt g (fld wd 20 17) (fld wd 16 12) (fld wd 11 7) (fld wd 6 2) (fld wd 1 1 == 1) (fld wd 0 0 == 1))
  | 0x03 => .ok (.cpl g (fld wd 20 17) (fld wd 16 12) (fld wd 11 0))
  | 0x04 => need (fld wd 5 0 = 0 ∧ copyField (fld wd 11 6)) (.ok (.cprog g (fld wd 20 17) (fld wd 16 12) (fld wd 11 6)))
  | 0x05 => need (copyField (fld wd 16 11)) (.ok (.cprogi g (fld wd 20 17) (fld wd 16 11) (fld wd 10 0)))
  | 0x06 => .ok (.send g (fld wd 20 17) (fld wd 16 12) (fld wd 11 0))
  | 0x07 => .ok (.recv g (fld wd 20 17) (fld wd 16 12) (fld wd 11 0))
  | 0x08 => need (fld wd 20 0 = 0) (.ok (.xmark g))
  | 0x10 => need (fld wd 14 0 = 0) (.ok (.tbump g (fld wd 20 15)))
  | 0x11 => need (fld wd 14 0 = 0) (.ok (.tcommit g (fld wd 20 15)))
  | 0x12 => need (fld wd 14 0 = 0) (.ok (.tdig g (fld wd 20 15)))
  | 0x13 => need (fld wd 20 0 = 0) (.ok (.krot g))
  | 0x14 => need (fld wd 20 16 = 0 ∧ fld wd 10 0 = 0) (.ok (.sealCopy g (fld wd 15 11)))
  | 0x15 => need (fld wd 20 16 = 0 ∧ fld wd 10 0 = 0) (.ok (.unsealCopy g (fld wd 15 11)))
  | 0x16 => need (fld wd 20 16 = 0 ∧ fld wd 10 0 = 0) (.ok (.scrubCopy g (fld wd 15 11)))
  | _ => .error .unassigned

/-- The order of checks of R93 on one slot word, and NOP of R92. -/
def decodeWord (sl : SlotClass) (w : Nat) : Except Ill Instr :=
  if w = 0xFFFFFFFF then .error .unassigned
  else if 12 ≤ fld w 30 27 then .error .reservedGuard
  else
    let g : Guard := ⟨fld w 31 31 == 1, fld w 30 27⟩
    if fld w 26 0 = 0 then .ok (.nop g)
    else match sl with
      | .x => decodeX g w
      | .s => decodeS g w
      | .l => decodeL g w
      | .v => decodeV g w
      | .m => decodeM g w
      | .c => decodeC g w

/-- A body from its fields, each with its lowest bit (Table 4.2). -/
def bodyOf : List (Nat × Nat) → Nat
  | [] => 0
  | (v, lo) :: t => v * 2 ^ lo + bodyOf t

/-- A slot word from its guard, major opcode and body fields (R90). -/
def slotWord (g : Guard) (op : Nat) (fields : List (Nat × Nat)) : Nat :=
  g.neg.toNat * 2 ^ 31 + g.pred * 2 ^ 27 + op * 2 ^ 21 + bodyOf fields

/-- The slot word of an operation (Tables 4.2 to 4.8); an event has no encoding. -/
def encode (i : Instr) : Nat :=
  match i with
  | .nop g => slotWord g 0x00 []
  | .br g t => slotWord g 0x01 [(t, 0)]
  | .brb g b => slotWord g 0x02 [(b, 6)]
  | .call g l t => slotWord g 0x03 [(l, 13), (t, 0)]
  | .callb g d b => slotWord g 0x04 [(d, 16), (b, 6)]
  | .loop g a t => slotWord g 0x05 [(a, 16), (t, 0)]
  | .mbrChain g a b c d => slotWord g 0x06 [(a, 16), (b, 11), (c, 6), (d, 1)]
  | .mbrTree g a b c d => slotWord g 0x06 [(a, 16), (b, 11), (c, 6), (d, 1), (1, 0)]
  | .waitt g a i => slotWord g 0x07 [(a, 16), (i, 0)]
  | .waitd g i => slotWord g 0x08 [(i, 0)]
  | .nxt g => slotWord g 0x09 []
  | .trap g i => slotWord g 0x0A [(i, 0)]
  | .brk g i => slotWord g 0x0B [(i, 0)]
  | .cbar g c => slotWord g 0x0C [(c, 0)]
  | .cbarNw g c => slotWord g 0x0C [(c, 0), (1, 15)]
  | .dbar g => slotWord g 0x0D []
  | .dbarNw g => slotWord g 0x0D [(1, 15)]
  | .ssb g => slotWord g 0x0E []
  | .ssbNw g => slotWord g 0x0E [(1, 15)]
  | .bstatSub g d c => slotWord g 0x0F [(d, 16), (c, 0)]
  | .bstatDie g d => slotWord g 0x0F [(d, 16), (1, 12)]
  | .bstatSs g d => slotWord g 0x0F [(d, 16), (1, 13)]
  | .tmge g d a => slotWord g 0x10 [(d, 16), (a, 11)]
  | .bdge g d i => slotWord g 0x11 [(d, 16), (i, 0)]
  | .exit g => slotWord g 0x12 []
  | .yield g => slotWord g 0x13 []
  | .add g d a b => slotWord g 0x01 [(d, 16), (a, 11), (b, 6)]
  | .sub g d a b => slotWord g 0x01 [(d, 16), (a, 11), (b, 6), (1, 0)]
  | .and g d a b => slotWord g 0x01 [(d, 16), (a, 11), (b, 6), (1, 1)]
  | .or g d a b => slotWord g 0x01 [(d, 16), (a, 11), (b, 6), (3, 0)]
  | .xor g d a b => slotWord g 0x01 [(d, 16), (a, 11), (b, 6), (1, 2)]
  | .andn g d a b => slotWord g 0x01 [(d, 16), (a, 11), (b, 6), (5, 0)]
  | .orn g d a b => slotWord g 0x01 [(d, 16), (a, 11), (b, 6), (3, 1)]
  | .xnor g d a b => slotWord g 0x01 [(d, 16), (a, 11), (b, 6), (7, 0)]
  | .sll g d a b => slotWord g 0x01 [(d, 16), (a, 11), (b, 6), (1, 3)]
  | .srl g d a b => slotWord g 0x01 [(d, 16), (a, 11), (b, 6), (9, 0)]
  | .sra g d a b => slotWord g 0x01 [(d, 16), (a, 11), (b, 6), (5, 1)]
  | .rol g d a b => slotWord g 0x01 [(d, 16), (a, 11), (b, 6), (11, 0)]
  | .ror g d a b => slotWord g 0x01 [(d, 16), (a, 11), (b, 6), (3, 2)]
  | .mul g d a b => slotWord g 0x01 [(d, 16), (a, 11), (b, 6), (13, 0)]
  | .mulh g d a b => slotWord g 0x01 [(d, 16), (a, 11), (b, 6), (7, 1)]
  | .mulhu g d a b => slotWord g 0x01 [(d, 16), (a, 11), (b, 6), (15, 0)]
  | .min g d a b => slotWord g 0x01 [(d, 16), (a, 11), (b, 6), (1, 4)]
  | .max g d a b => slotWord g 0x01 [(d, 16), (a, 11), (b, 6), (17, 0)]
  | .minu g d a b => slotWord g 0x01 [(d, 16), (a, 11), (b, 6), (9, 1)]
  | .maxu g d a b => slotWord g 0x01 [(d, 16), (a, 11), (b, 6), (19, 0)]
  | .clz g d a => slotWord g 0x01 [(d, 16), (a, 11), (5, 2)]
  | .ctz g d a => slotWord g 0x01 [(d, 16), (a, 11), (21, 0)]
  | .popc g d a => slotWord g 0x01 [(d, 16), (a, 11), (11, 1)]
  | .bswap g d a => slotWord g 0x01 [(d, 16), (a, 11), (23, 0)]
  | .adds g d a b => slotWord g 0x01 [(d, 16), (a, 11), (b, 6), (3, 3)]
  | .subs g d a b => slotWord g 0x01 [(d, 16), (a, 11), (b, 6), (25, 0)]
  | .addi g d a i => slotWord g 0x02 [(d, 16), (a, 11), (i, 0)]
  | .andi g d a i => slotWord g 0x03 [(d, 16), (a, 11), (i, 0)]
  | .ori g d a i => slotWord g 0x04 [(d, 16), (a, 11), (i, 0)]
  | .xori g d a i => slotWord g 0x05 [(d, 16), (a, 11), (i, 0)]
  | .slli g d a s => slotWord g 0x06 [(d, 16), (a, 11), (s, 0)]
  | .srli g d a s => slotWord g 0x06 [(d, 16), (a, 11), (s, 0), (1, 8)]
  | .srai g d a s => slotWord g 0x06 [(d, 16), (a, 11), (s, 0), (1, 9)]
  | .roli g d a s => slotWord g 0x06 [(d, 16), (a, 11), (s, 0), (3, 8)]
  | .movi g d i => slotWord g 0x07 [(d, 16), (i, 0)]
  | .movk16 g d i => slotWord g 0x08 [(d, 16), (i, 0)]
  | .movk32 g d i => slotWord g 0x09 [(d, 16), (i, 0)]
  | .movk48 g d i => slotWord g 0x0A [(d, 16), (i, 0)]
  | .cmpEq g d a b => slotWord g 0x0B [(d, 16), (a, 11), (b, 6)]
  | .cmpNe g d a b => slotWord g 0x0B [(d, 16), (a, 11), (b, 6), (1, 0)]
  | .cmpLt g d a b => slotWord g 0x0B [(d, 16), (a, 11), (b, 6), (1, 1)]
  | .cmpGe g d a b => slotWord g 0x0B [(d, 16), (a, 11), (b, 6), (3, 0)]
  | .cmpLtu g d a b => slotWord g 0x0B [(d, 16), (a, 11), (b, 6), (1, 2)]
  | .cmpGeu g d a b => slotWord g 0x0B [(d, 16), (a, 11), (b, 6), (5, 0)]
  | .cmpiEq g d a i => slotWord g 0x0C [(d, 16), (a, 11), (i, 0)]
  | .cmpiNe g d a i => slotWord g 0x0C [(d, 16), (a, 11), (i, 0), (1, 8)]
  | .cmpiLt g d a i => slotWord g 0x0C [(d, 16), (a, 11), (i, 0), (1, 9)]
  | .cmpiGe g d a i => slotWord g 0x0C [(d, 16), (a, 11), (i, 0), (3, 8)]
  | .cmpiLtu g d a i => slotWord g 0x0C [(d, 16), (a, 11), (i, 0), (1, 10)]
  | .cmpiGeu g d a i => slotWord g 0x0C [(d, 16), (a, 11), (i, 0), (5, 8)]
  | .pand g d a b => slotWord g 0x0D [(d, 16), (a, 11), (b, 6)]
  | .por g d a b => slotWord g 0x0D [(d, 16), (a, 11), (b, 6), (1, 0)]
  | .pxor g d a b => slotWord g 0x0D [(d, 16), (a, 11), (b, 6), (1, 1)]
  | .pandn g d a b => slotWord g 0x0D [(d, 16), (a, 11), (b, 6), (3, 0)]
  | .porn g d a b => slotWord g 0x0D [(d, 16), (a, 11), (b, 6), (1, 2)]
  | .pnot g d a => slotWord g 0x0D [(d, 16), (a, 11), (5, 0)]
  | .sel g d a b p => slotWord g 0x0E [(d, 16), (a, 11), (b, 6), (p, 0)]
  | .setb g d a => slotWord g 0x0F [(d, 16), (a, 11)]
  | .getb g d a => slotWord g 0x10 [(d, 16), (a, 11)]
  | .setbi g d t => slotWord g 0x11 [(d, 16), (t, 0)]
  | .sysrd g d s => slotWord g 0x12 [(d, 16), (s, 0)]
  | .syswr g a s => slotWord g 0x13 [(a, 16), (s, 0)]
  | .qrd g d a h => slotWord g 0x14 [(d, 16), (a, 11), (h.toNat, 0)]
  | .ldb g d a i => slotWord g 0x01 [(d, 16), (a, 11), (i, 0)]
  | .ldbu g d a i => slotWord g 0x02 [(d, 16), (a, 11), (i, 0)]
  | .ldh g d a i => slotWord g 0x03 [(d, 16), (a, 11), (i, 0)]
  | .ldhu g d a i => slotWord g 0x04 [(d, 16), (a, 11), (i, 0)]
  | .ldw g d a i => slotWord g 0x05 [(d, 16), (a, 11), (i, 0)]
  | .ldwu g d a i => slotWord g 0x06 [(d, 16), (a, 11), (i, 0)]
  | .ldd g d a i => slotWord g 0x07 [(d, 16), (a, 11), (i, 0)]
  | .stb g d a i => slotWord g 0x08 [(d, 16), (a, 11), (i, 0)]
  | .sth g d a i => slotWord g 0x09 [(d, 16), (a, 11), (i, 0)]
  | .stw g d a i => slotWord g 0x0A [(d, 16), (a, 11), (i, 0)]
  | .std g d a i => slotWord g 0x0B [(d, 16), (a, 11), (i, 0)]
  | .vld g d a i => slotWord g 0x0C [(d, 16), (a, 11), (i, 0)]
  | .vst g d a i => slotWord g 0x0D [(d, 16), (a, 11), (i, 0)]
  | .vldr g d a r i => slotWord g 0x0E [(d, 16), (a, 11), (r, 7), (i, 0)]
  | .vstr g d a r i => slotWord g 0x0F [(d, 16), (a, 11), (r, 7), (i, 0)]
  | .vlds g d a b => slotWord g 0x10 [(d, 16), (a, 11), (b, 6)]
  | .vsts g d a b => slotWord g 0x11 [(d, 16), (a, 11), (b, 6)]
  | .vldf6 g d a i => slotWord g 0x12 [(d, 16), (a, 11), (i, 0)]
  | .vstf6 g d a i => slotWord g 0x13 [(d, 16), (a, 11), (i, 0)]
  | .amoAdd g d a b w => slotWord g 0x14 [(d, 16), (a, 11), (b, 6), (w.toNat, 4)]
  | .amoSwap g d a b w => slotWord g 0x14 [(d, 16), (a, 11), (b, 6), (w.toNat, 4), (1, 0)]
  | .amoAnd g d a b w => slotWord g 0x14 [(d, 16), (a, 11), (b, 6), (w.toNat, 4), (1, 1)]
  | .amoOr g d a b w => slotWord g 0x14 [(d, 16), (a, 11), (b, 6), (w.toNat, 4), (3, 0)]
  | .amoXor g d a b w => slotWord g 0x14 [(d, 16), (a, 11), (b, 6), (w.toNat, 4), (1, 2)]
  | .amoMin g d a b w => slotWord g 0x14 [(d, 16), (a, 11), (b, 6), (w.toNat, 4), (5, 0)]
  | .amoMax g d a b w => slotWord g 0x14 [(d, 16), (a, 11), (b, 6), (w.toNat, 4), (3, 1)]
  | .amoMinu g d a b w => slotWord g 0x14 [(d, 16), (a, 11), (b, 6), (w.toNat, 4), (7, 0)]
  | .amoMaxu g d a b w => slotWord g 0x14 [(d, 16), (a, 11), (b, 6), (w.toNat, 4), (1, 3)]
  | .mark g => slotWord g 0x1F []
  | .vaddF32 g d a b k r => slotWord g 0x01 [(d, 16), (a, 11), (b, 6), (k, 3), (r.code, 0)]
  | .vsubF32 g d a b k r => slotWord g 0x02 [(d, 16), (a, 11), (b, 6), (k, 3), (r.code, 0)]
  | .vmulF32 g d a b k r => slotWord g 0x03 [(d, 16), (a, 11), (b, 6), (k, 3), (r.code, 0)]
  | .vfmaF32 g d a b k r => slotWord g 0x04 [(d, 16), (a, 11), (b, 6), (k, 3), (r.code, 0)]
  | .vfmsF32 g d a b k r => slotWord g 0x05 [(d, 16), (a, 11), (b, 6), (k, 3), (r.code, 0)]
  | .vminF32 g d a b k => slotWord g 0x06 [(d, 16), (a, 11), (b, 6), (k, 3)]
  | .vmaxF32 g d a b k => slotWord g 0x06 [(d, 16), (a, 11), (b, 6), (k, 3), (1, 0)]
  | .vabsF32 g d a k => slotWord g 0x06 [(d, 16), (a, 11), (k, 3), (1, 1)]
  | .vnegF32 g d a k => slotWord g 0x06 [(d, 16), (a, 11), (k, 3), (3, 0)]
  | .vrndF32 g d a k r => slotWord g 0x07 [(d, 16), (a, 11), (k, 3), (r.code, 0)]
  | .vcmpF32Eq g d a b k => slotWord g 0x08 [(d, 16), (a, 11), (b, 6), (k, 3)]
  | .vcmpF32Ne g d a b k => slotWord g 0x08 [(d, 16), (a, 11), (b, 6), (k, 3), (1, 0)]
  | .vcmpF32Lt g d a b k => slotWord g 0x08 [(d, 16), (a, 11), (b, 6), (k, 3), (1, 1)]
  | .vcmpF32Le g d a b k => slotWord g 0x08 [(d, 16), (a, 11), (b, 6), (k, 3), (3, 0)]
  | .vcmpF32Unord g d a b k => slotWord g 0x08 [(d, 16), (a, 11), (b, 6), (k, 3), (1, 2)]
  | .vcmpI32Eq g d a b k => slotWord g 0x09 [(d, 16), (a, 11), (b, 6), (k, 3)]
  | .vcmpI32Ne g d a b k => slotWord g 0x09 [(d, 16), (a, 11), (b, 6), (k, 3), (1, 0)]
  | .vcmpI32Lt g d a b k => slotWord g 0x09 [(d, 16), (a, 11), (b, 6), (k, 3), (1, 1)]
  | .vcmpI32Ge g d a b k => slotWord g 0x09 [(d, 16), (a, 11), (b, 6), (k, 3), (3, 0)]
  | .vcmpI32Ltu g d a b k => slotWord g 0x09 [(d, 16), (a, 11), (b, 6), (k, 3), (1, 2)]
  | .vcmpI32Geu g d a b k => slotWord g 0x09 [(d, 16), (a, 11), (b, 6), (k, 3), (5, 0)]
  | .vaddI32 g d a b k => slotWord g 0x0A [(d, 16), (a, 11), (b, 6), (k, 3)]
  | .vsubI32 g d a b k => slotWord g 0x0A [(d, 16), (a, 11), (b, 6), (k, 3), (1, 0)]
  | .vmulI32 g d a b k => slotWord g 0x0A [(d, 16), (a, 11), (b, 6), (k, 3), (1, 1)]
  | .vmulhI32 g d a b k => slotWord g 0x0A [(d, 16), (a, 11), (b, 6), (k, 3), (3, 0)]
  | .vminI32 g d a b k => slotWord g 0x0A [(d, 16), (a, 11), (b, 6), (k, 3), (1, 2)]
  | .vmaxI32 g d a b k => slotWord g 0x0A [(d, 16), (a, 11), (b, 6), (k, 3), (5, 0)]
  | .vminN32 g d a b k => slotWord g 0x0A [(d, 16), (a, 11), (b, 6), (k, 3), (3, 1)]
  | .vmaxN32 g d a b k => slotWord g 0x0A [(d, 16), (a, 11), (b, 6), (k, 3), (7, 0)]
  | .vaddsI32 g d a b k => slotWord g 0x0B [(d, 16), (a, 11), (b, 6), (k, 3)]
  | .vsubsI32 g d a b k => slotWord g 0x0B [(d, 16), (a, 11), (b, 6), (k, 3), (1, 0)]
  | .vabsI32 g d a k => slotWord g 0x0B [(d, 16), (a, 11), (k, 3), (1, 1)]
  | .vnegI32 g d a k => slotWord g 0x0B [(d, 16), (a, 11), (k, 3), (3, 0)]
  | .vand g d a b k => slotWord g 0x0C [(d, 16), (a, 11), (b, 6), (k, 3)]
  | .vor g d a b k => slotWord g 0x0C [(d, 16), (a, 11), (b, 6), (k, 3), (1, 0)]
  | .vxor g d a b k => slotWord g 0x0C [(d, 16), (a, 11), (b, 6), (k, 3), (1, 1)]
  | .vandn g d a b k => slotWord g 0x0C [(d, 16), (a, 11), (b, 6), (k, 3), (3, 0)]
  | .vnot g d a k => slotWord g 0x0C [(d, 16), (a, 11), (k, 3), (1, 2)]
  | .vsll g d a b k => slotWord g 0x0D [(d, 16), (a, 11), (b, 6), (k, 3)]
  | .vsrl g d a b k => slotWord g 0x0D [(d, 16), (a, 11), (b, 6), (k, 3), (1, 0)]
  | .vsra g d a b k => slotWord g 0x0D [(d, 16), (a, 11), (b, 6), (k, 3), (1, 1)]
  | .vrol g d a b k => slotWord g 0x0D [(d, 16), (a, 11), (b, 6), (k, 3), (3, 0)]
  | .vsllImm g d a i => slotWord g 0x0E [(d, 16), (a, 11), (i, 3)]
  | .vsrlImm g d a i => slotWord g 0x0E [(d, 16), (a, 11), (i, 3), (1, 0)]
  | .vsraImm g d a i => slotWord g 0x0E [(d, 16), (a, 11), (i, 3), (1, 1)]
  | .vrolImm g d a i => slotWord g 0x0E [(d, 16), (a, 11), (i, 3), (3, 0)]
  | .vsel g d a b k => slotWord g 0x0F [(d, 16), (a, 11), (b, 6), (k, 3)]
  | .vdotI8I8 g d a b k s => slotWord g 0x10 [(d, 16), (a, 11), (b, 6), (k, 3), (s.toNat, 2)]
  | .vdotN8I8 g d a b k s => slotWord g 0x10 [(d, 16), (a, 11), (b, 6), (k, 3), (s.toNat, 2), (1, 0)]
  | .vdotN8N8 g d a b k s => slotWord g 0x10 [(d, 16), (a, 11), (b, 6), (k, 3), (s.toNat, 2), (1, 1)]
  | .vcvt g d a t f r => slotWord g 0x11 [(d, 16), (a, 11), (t.code, 7), (f.code, 3), (r.code, 0)]
  | .vcvtSat g d a t f r => slotWord g 0x12 [(d, 16), (a, 11), (t.code, 7), (f.code, 3), (r.code, 0)]
  | .vscaI32 g d a b k r => slotWord g 0x13 [(d, 16), (a, 11), (b / 2, 7), (k, 3), (r.code, 0)]
  | .vscaF32 g d a b k r => slotWord g 0x14 [(d, 16), (a, 11), (b / 2, 7), (k, 3), (r.code, 0)]
  | .vsplat g d a k => slotWord g 0x15 [(d, 16), (a, 11), (k, 3)]
  | .vrotr g d a i => slotWord g 0x18 [(d, 16), (a, 11), (i, 3)]
  | .vbcr g d a i => slotWord g 0x18 [(d, 16), (a, 11), (i, 3), (1, 0)]
  | .vrotc g d a i => slotWord g 0x19 [(d, 16), (a, 11), (i, 3)]
  | .vbcc g d a i => slotWord g 0x19 [(d, 16), (a, 11), (i, 3), (1, 0)]
  | .vredrSumF32 g d a k => slotWord g 0x1A [(d, 16), (a, 11), (k, 3)]
  | .vredrMaxF32 g d a k => slotWord g 0x1A [(d, 16), (a, 11), (k, 3), (1, 0)]
  | .vredrMinF32 g d a k => slotWord g 0x1A [(d, 16), (a, 11), (k, 3), (1, 1)]
  | .vredrSumI32 g d a k => slotWord g 0x1A [(d, 16), (a, 11), (k, 3), (3, 0)]
  | .vredrMaxI32 g d a k => slotWord g 0x1A [(d, 16), (a, 11), (k, 3), (1, 2)]
  | .vredrMinI32 g d a k => slotWord g 0x1A [(d, 16), (a, 11), (k, 3), (5, 0)]
  | .vredcSumF32 g d a k => slotWord g 0x1B [(d, 16), (a, 11), (k, 3)]
  | .vredcMaxF32 g d a k => slotWord g 0x1B [(d, 16), (a, 11), (k, 3), (1, 0)]
  | .vredcMinF32 g d a k => slotWord g 0x1B [(d, 16), (a, 11), (k, 3), (1, 1)]
  | .vredcSumI32 g d a k => slotWord g 0x1B [(d, 16), (a, 11), (k, 3), (3, 0)]
  | .vredcMaxI32 g d a k => slotWord g 0x1B [(d, 16), (a, 11), (k, 3), (1, 2)]
  | .vredcMinI32 g d a k => slotWord g 0x1B [(d, 16), (a, 11), (k, 3), (5, 0)]
  | .vtr g d a i => slotWord g 0x1C [(d, 16), (a, 11), (i, 3)]
  | .kand g d a b => slotWord g 0x1D [(d, 16), (a, 11), (b, 6)]
  | .kor g d a b => slotWord g 0x1D [(d, 16), (a, 11), (b, 6), (1, 0)]
  | .kxor g d a b => slotWord g 0x1D [(d, 16), (a, 11), (b, 6), (1, 1)]
  | .kandn g d a b => slotWord g 0x1D [(d, 16), (a, 11), (b, 6), (3, 0)]
  | .knot g d a => slotWord g 0x1D [(d, 16), (a, 11), (1, 2)]
  | .kmov g d a => slotWord g 0x1D [(d, 16), (a, 11), (5, 0)]
  | .kany g d a => slotWord g 0x1E [(d, 16), (a, 11)]
  | .kall g d a => slotWord g 0x1E [(d, 16), (a, 11), (1, 0)]
  | .vrcpe g d a k => slotWord g 0x20 [(d, 16), (a, 11), (k, 3)]
  | .vrsqe g d a k => slotWord g 0x21 [(d, 16), (a, 11), (k, 3)]
  | .vrcps g d a b k r => slotWord g 0x22 [(d, 16), (a, 11), (b, 6), (k, 3), (r.code, 0)]
  | .vrsqs g d a b k r => slotWord g 0x23 [(d, 16), (a, 11), (b, 6), (k, 3), (r.code, 0)]
  | .vfexp g d a k => slotWord g 0x24 [(d, 16), (a, 11), (k, 3)]
  | .vexpi g d a b k r => slotWord g 0x25 [(d, 16), (a, 11), (b, 6), (k, 3), (r.code, 0)]
  | .vexpxE g d a k => slotWord g 0x26 [(d, 16), (a, 11), (k, 3)]
  | .vexpxM g d a k => slotWord g 0x26 [(d, 16), (a, 11), (k, 3), (1, 0)]
  | .vlg2e g d a k => slotWord g 0x27 [(d, 16), (a, 11), (k, 3)]
  | .vrngN32 g d k => slotWord g 0x28 [(d, 16), (k, 3)]
  | .vrngF32 g d k => slotWord g 0x28 [(d, 16), (k, 3), (1, 0)]
  | .mlease g => slotWord g 0x01 []
  | .mrel g => slotWord g 0x02 []
  | .mset g c a => slotWord g 0x03 [(c, 13), (a, 8)]
  | .mseti g c i => slotWord g 0x04 [(c, 13), (i, 0)]
  | .mwld g w => slotWord g 0x05 [(w.code, 17)]
  | .mwlda g w => slotWord g 0x06 [(w.code, 17)]
  | .mwldb g w => slotWord g 0x07 [(w.code, 17)]
  | .mma g w x z => slotWord g 0x08 [(w.code, 17), (x.code, 13), (z, 11)]
  | .mmaAcc g w x z => slotWord g 0x08 [(w.code, 17), (x.code, 13), (z, 11), (1, 10)]
  | .mzero g z => slotWord g 0x09 [(z, 11)]
  | .mdrv g d z p => slotWord g 0x0A [(d, 16), (z, 14), (p, 10)]
  | .mdrs g a z => slotWord g 0x0B [(a, 16), (z, 14)]
  | .cpy g p a t => slotWord g 0x01 [(p, 17), (a, 12), (t, 0)]
  | .cpyt g p a v m x y => slotWord g 0x02 [(p, 17), (a, 12), (v, 7), (m, 2), (x.toNat, 1), (y.toNat, 0)]
  | .cpl g p a t => slotWord g 0x03 [(p, 17), (a, 12), (t, 0)]
  | .cprog g p a f => slotWord g 0x04 [(p, 17), (a, 12), (f, 6)]
  | .cprogi g p f i => slotWord g 0x05 [(p, 17), (f, 11), (i, 0)]
  | .send g p a t => slotWord g 0x06 [(p, 17), (a, 12), (t, 0)]
  | .recv g p a t => slotWord g 0x07 [(p, 17), (a, 12), (t, 0)]
  | .xmark g => slotWord g 0x08 []
  | .tbump g t => slotWord g 0x10 [(t, 15)]
  | .tcommit g t => slotWord g 0x11 [(t, 15)]
  | .tdig g t => slotWord g 0x12 [(t, 15)]
  | .krot g => slotWord g 0x13 []
  | .sealCopy g a => slotWord g 0x14 [(a, 11)]
  | .unsealCopy g a => slotWord g 0x15 [(a, 11)]
  | .scrubCopy g a => slotWord g 0x16 [(a, 11)]
  | .bundleIssue _ => 0
  | .resultLand _ => 0
  | .waitEnd _ => 0
  | .nxtDelivery _ => 0
  | .bankAccessPerform _ => 0
  | .holdRequest _ _ => 0
  | .holdTakesEffect _ => 0
  | .holdResume _ => 0
  | .stationmasterResume _ _ => 0
  | .governorWindow _ _ => 0
  | .rateChangeEffect _ => 0
  | .thermalTrip _ => 0
  | .powerUp _ => 0
  | .servoSourceSeen _ => 0
  | .servoMeasurement _ => 0
  | .servoSourceLost => 0
  | .servoSourceSelect _ => 0
  | .launchStart _ _ => 0
  | .coreExitTick _ => 0
  | .launchRetire _ _ => 0
  | .leaseGrant _ => 0
  | .leaseEnd _ => 0
  | .leaseTurnEnd _ => 0
  | .matrixCommandSwap _ => 0
  | .matrixCommandComplete _ => 0
  | .beatSourceRead _ _ _ _ => 0
  | .indexEntryRead _ _ _ _ => 0
  | .beatRelease _ _ _ _ => 0
  | .cplSourceRead _ _ _ _ => 0
  | .cplDestWrite _ _ _ _ => 0
  | .sendBeatRead _ _ _ _ => 0
  | .messageArrival _ _ _ => 0
  | .lateBeatCheck _ _ _ _ => 0
  | .copyFault _ _ _ _ _ _ => 0
  | .wportBeatConsume _ _ _ => 0
  | .virtLookup _ _ _ _ _ => 0
  | .walkComplete _ _ _ _ _ => 0
  | .sealDescriptorCheck _ _ _ => 0
  | .tbumpEffect _ _ _ => 0
  | .tcommitEffect _ _ _ => 0
  | .tdigEffect _ _ _ => 0
  | .digestResult _ _ => 0
  | .krotEffect _ _ _ => 0
  | .barrierComplete _ _ _ _ => 0
  | .create _ _ => 0
  | .destroy _ _ => 0
  | .preempt _ _ => 0
  | .resume _ _ => 0
  | .policy _ _ => 0
  | .contextCreateComplete _ _ => 0
  | .preemptBoundary _ _ => 0
  | .saveCommit _ _ => 0
  | .contextReissue _ _ => 0
  | .teardownComplete _ _ => 0
  | .contextScrubComplete _ _ => 0
  | .builtinTestComplete _ _ _ => 0
  | .partitionReset _ => 0
  | .partitionCreate _ _ => 0
  | .partitionDestroy _ => 0
  | .dieDrain _ _ _ => 0
  | .queueEnable _ _ _ => 0
  | .queueDisable _ _ => 0
  | .qtailWrite _ _ _ => 0
  | .queueSelect _ _ => 0
  | .claimResolve _ => 0
  | .graphKernelNode _ _ => 0
  | .graphCondNode _ _ => 0
  | .graphWhileNode _ _ => 0
  | .graphSwapNode _ _ => 0
  | .graphEndNode _ _ => 0
  | .assign _ _ => 0
  | .release _ _ => 0
  | .invalidate _ _ => 0
  | .migrate _ _ => 0
  | .migrationCopyStart _ => 0
  | .copyEngineComplete _ => 0
  | .patrolRead _ _ _ => 0
  | .manifestLoad _ _ => 0
  | .shardAttemptComplete _ _ _ _ => 0
  | .shardDeadline _ _ => 0
  | .manifestRecheck _ => 0
  | .attachResetEnd _ => 0
  | .attachTrainingPass _ => 0
  | .attachRetrainRequest _ => 0
  | .attachTrainingFail _ => 0
  | .circuitEnable _ _ => 0
  | .circuitDisable _ => 0
  | .circuitLit _ => 0
  | .circuitDrainComplete _ => 0
  | .wavelengthFence _ _ => 0
  | .portEnable _ => 0
  | .portTrainingPass _ _ => 0
  | .portLaneLoss _ => 0
  | .portDisable _ => 0
  | .fabidxWrite _ => 0
  | .flitReceive _ => 0
  | .peerOpen _ _ => 0
  | .peerClose _ _ => 0
  | .peerInit _ _ _ => 0
  | .peerResp _ _ _ => 0
  | .peerFin _ _ _ => 0
  | .peerCloseReceived _ _ => 0
  | .peerTimeout _ _ => 0
  | .functionLevelReset _ => 0
  | .tdispMessage _ _ => 0
  | .ideCheckFail _ => 0
  | .hostDmaRequest _ _ _ _ _ => 0
  | .getVersion _ => 0
  | .getCapabilities _ => 0
  | .negotiateAlgorithms _ _ _ _ => 0
  | .getDigests _ => 0
  | .getCertificate _ _ _ => 0
  | .challenge _ _ => 0
  | .getMeasurements _ _ _ => 0
  | .keyExchange _ _ _ => 0
  | .finish _ _ => 0
  | .keyUpdate _ => 0
  | .endSession _ => 0
  | .tenantidWrite _ _ => 0
  | .debugTokenCheck _ _ => 0
  | .debugLock _ => 0
  | .debugStopRequest _ => 0
  | .debuggerResume _ => 0
  | .jreset => 0
  | .fenceclr _ => 0
  | .registerWrite _ _ _ => 0
  | .beatPresent _ _ _ _ => 0
  | .faultActionsComplete _ => 0
  | .powerLoss => 0
  | .waitBudgetExhausted _ => 0

/-- The map that an operation belongs to, one map for each format of Tables 4.3 to 4.8; NOP stands in every map (R92), and an
event in none. -/
def Instr.map (i : Instr) : Option SlotClass :=
  match i with
  | .nop _ => none
  | .br _ _ => some .x
  | .brb _ _ => some .x
  | .call _ _ _ => some .x
  | .callb _ _ _ => some .x
  | .loop _ _ _ => some .x
  | .mbrChain _ _ _ _ _ => some .x
  | .mbrTree _ _ _ _ _ => some .x
  | .waitt _ _ _ => some .x
  | .waitd _ _ => some .x
  | .nxt _ => some .x
  | .trap _ _ => some .x
  | .brk _ _ => some .x
  | .cbar _ _ => some .x
  | .cbarNw _ _ => some .x
  | .dbar _ => some .x
  | .dbarNw _ => some .x
  | .ssb _ => some .x
  | .ssbNw _ => some .x
  | .bstatSub _ _ _ => some .x
  | .bstatDie _ _ => some .x
  | .bstatSs _ _ => some .x
  | .tmge _ _ _ => some .x
  | .bdge _ _ _ => some .x
  | .exit _ => some .x
  | .yield _ => some .x
  | .add _ _ _ _ => some .s
  | .sub _ _ _ _ => some .s
  | .and _ _ _ _ => some .s
  | .or _ _ _ _ => some .s
  | .xor _ _ _ _ => some .s
  | .andn _ _ _ _ => some .s
  | .orn _ _ _ _ => some .s
  | .xnor _ _ _ _ => some .s
  | .sll _ _ _ _ => some .s
  | .srl _ _ _ _ => some .s
  | .sra _ _ _ _ => some .s
  | .rol _ _ _ _ => some .s
  | .ror _ _ _ _ => some .s
  | .mul _ _ _ _ => some .s
  | .mulh _ _ _ _ => some .s
  | .mulhu _ _ _ _ => some .s
  | .min _ _ _ _ => some .s
  | .max _ _ _ _ => some .s
  | .minu _ _ _ _ => some .s
  | .maxu _ _ _ _ => some .s
  | .clz _ _ _ => some .s
  | .ctz _ _ _ => some .s
  | .popc _ _ _ => some .s
  | .bswap _ _ _ => some .s
  | .adds _ _ _ _ => some .s
  | .subs _ _ _ _ => some .s
  | .addi _ _ _ _ => some .s
  | .andi _ _ _ _ => some .s
  | .ori _ _ _ _ => some .s
  | .xori _ _ _ _ => some .s
  | .slli _ _ _ _ => some .s
  | .srli _ _ _ _ => some .s
  | .srai _ _ _ _ => some .s
  | .roli _ _ _ _ => some .s
  | .movi _ _ _ => some .s
  | .movk16 _ _ _ => some .s
  | .movk32 _ _ _ => some .s
  | .movk48 _ _ _ => some .s
  | .cmpEq _ _ _ _ => some .s
  | .cmpNe _ _ _ _ => some .s
  | .cmpLt _ _ _ _ => some .s
  | .cmpGe _ _ _ _ => some .s
  | .cmpLtu _ _ _ _ => some .s
  | .cmpGeu _ _ _ _ => some .s
  | .cmpiEq _ _ _ _ => some .s
  | .cmpiNe _ _ _ _ => some .s
  | .cmpiLt _ _ _ _ => some .s
  | .cmpiGe _ _ _ _ => some .s
  | .cmpiLtu _ _ _ _ => some .s
  | .cmpiGeu _ _ _ _ => some .s
  | .pand _ _ _ _ => some .s
  | .por _ _ _ _ => some .s
  | .pxor _ _ _ _ => some .s
  | .pandn _ _ _ _ => some .s
  | .porn _ _ _ _ => some .s
  | .pnot _ _ _ => some .s
  | .sel _ _ _ _ _ => some .s
  | .setb _ _ _ => some .s
  | .getb _ _ _ => some .s
  | .setbi _ _ _ => some .s
  | .sysrd _ _ _ => some .s
  | .syswr _ _ _ => some .s
  | .qrd _ _ _ _ => some .s
  | .ldb _ _ _ _ => some .l
  | .ldbu _ _ _ _ => some .l
  | .ldh _ _ _ _ => some .l
  | .ldhu _ _ _ _ => some .l
  | .ldw _ _ _ _ => some .l
  | .ldwu _ _ _ _ => some .l
  | .ldd _ _ _ _ => some .l
  | .stb _ _ _ _ => some .l
  | .sth _ _ _ _ => some .l
  | .stw _ _ _ _ => some .l
  | .std _ _ _ _ => some .l
  | .vld _ _ _ _ => some .l
  | .vst _ _ _ _ => some .l
  | .vldr _ _ _ _ _ => some .l
  | .vstr _ _ _ _ _ => some .l
  | .vlds _ _ _ _ => some .l
  | .vsts _ _ _ _ => some .l
  | .vldf6 _ _ _ _ => some .l
  | .vstf6 _ _ _ _ => some .l
  | .amoAdd _ _ _ _ _ => some .l
  | .amoSwap _ _ _ _ _ => some .l
  | .amoAnd _ _ _ _ _ => some .l
  | .amoOr _ _ _ _ _ => some .l
  | .amoXor _ _ _ _ _ => some .l
  | .amoMin _ _ _ _ _ => some .l
  | .amoMax _ _ _ _ _ => some .l
  | .amoMinu _ _ _ _ _ => some .l
  | .amoMaxu _ _ _ _ _ => some .l
  | .mark _ => some .l
  | .vaddF32 _ _ _ _ _ _ => some .v
  | .vsubF32 _ _ _ _ _ _ => some .v
  | .vmulF32 _ _ _ _ _ _ => some .v
  | .vfmaF32 _ _ _ _ _ _ => some .v
  | .vfmsF32 _ _ _ _ _ _ => some .v
  | .vminF32 _ _ _ _ _ => some .v
  | .vmaxF32 _ _ _ _ _ => some .v
  | .vabsF32 _ _ _ _ => some .v
  | .vnegF32 _ _ _ _ => some .v
  | .vrndF32 _ _ _ _ _ => some .v
  | .vcmpF32Eq _ _ _ _ _ => some .v
  | .vcmpF32Ne _ _ _ _ _ => some .v
  | .vcmpF32Lt _ _ _ _ _ => some .v
  | .vcmpF32Le _ _ _ _ _ => some .v
  | .vcmpF32Unord _ _ _ _ _ => some .v
  | .vcmpI32Eq _ _ _ _ _ => some .v
  | .vcmpI32Ne _ _ _ _ _ => some .v
  | .vcmpI32Lt _ _ _ _ _ => some .v
  | .vcmpI32Ge _ _ _ _ _ => some .v
  | .vcmpI32Ltu _ _ _ _ _ => some .v
  | .vcmpI32Geu _ _ _ _ _ => some .v
  | .vaddI32 _ _ _ _ _ => some .v
  | .vsubI32 _ _ _ _ _ => some .v
  | .vmulI32 _ _ _ _ _ => some .v
  | .vmulhI32 _ _ _ _ _ => some .v
  | .vminI32 _ _ _ _ _ => some .v
  | .vmaxI32 _ _ _ _ _ => some .v
  | .vminN32 _ _ _ _ _ => some .v
  | .vmaxN32 _ _ _ _ _ => some .v
  | .vaddsI32 _ _ _ _ _ => some .v
  | .vsubsI32 _ _ _ _ _ => some .v
  | .vabsI32 _ _ _ _ => some .v
  | .vnegI32 _ _ _ _ => some .v
  | .vand _ _ _ _ _ => some .v
  | .vor _ _ _ _ _ => some .v
  | .vxor _ _ _ _ _ => some .v
  | .vandn _ _ _ _ _ => some .v
  | .vnot _ _ _ _ => some .v
  | .vsll _ _ _ _ _ => some .v
  | .vsrl _ _ _ _ _ => some .v
  | .vsra _ _ _ _ _ => some .v
  | .vrol _ _ _ _ _ => some .v
  | .vsllImm _ _ _ _ => some .v
  | .vsrlImm _ _ _ _ => some .v
  | .vsraImm _ _ _ _ => some .v
  | .vrolImm _ _ _ _ => some .v
  | .vsel _ _ _ _ _ => some .v
  | .vdotI8I8 _ _ _ _ _ _ => some .v
  | .vdotN8I8 _ _ _ _ _ _ => some .v
  | .vdotN8N8 _ _ _ _ _ _ => some .v
  | .vcvt _ _ _ _ _ _ => some .v
  | .vcvtSat _ _ _ _ _ _ => some .v
  | .vscaI32 _ _ _ _ _ _ => some .v
  | .vscaF32 _ _ _ _ _ _ => some .v
  | .vsplat _ _ _ _ => some .v
  | .vrotr _ _ _ _ => some .v
  | .vbcr _ _ _ _ => some .v
  | .vrotc _ _ _ _ => some .v
  | .vbcc _ _ _ _ => some .v
  | .vredrSumF32 _ _ _ _ => some .v
  | .vredrMaxF32 _ _ _ _ => some .v
  | .vredrMinF32 _ _ _ _ => some .v
  | .vredrSumI32 _ _ _ _ => some .v
  | .vredrMaxI32 _ _ _ _ => some .v
  | .vredrMinI32 _ _ _ _ => some .v
  | .vredcSumF32 _ _ _ _ => some .v
  | .vredcMaxF32 _ _ _ _ => some .v
  | .vredcMinF32 _ _ _ _ => some .v
  | .vredcSumI32 _ _ _ _ => some .v
  | .vredcMaxI32 _ _ _ _ => some .v
  | .vredcMinI32 _ _ _ _ => some .v
  | .vtr _ _ _ _ => some .v
  | .kand _ _ _ _ => some .v
  | .kor _ _ _ _ => some .v
  | .kxor _ _ _ _ => some .v
  | .kandn _ _ _ _ => some .v
  | .knot _ _ _ => some .v
  | .kmov _ _ _ => some .v
  | .kany _ _ _ => some .v
  | .kall _ _ _ => some .v
  | .vrcpe _ _ _ _ => some .v
  | .vrsqe _ _ _ _ => some .v
  | .vrcps _ _ _ _ _ _ => some .v
  | .vrsqs _ _ _ _ _ _ => some .v
  | .vfexp _ _ _ _ => some .v
  | .vexpi _ _ _ _ _ _ => some .v
  | .vexpxE _ _ _ _ => some .v
  | .vexpxM _ _ _ _ => some .v
  | .vlg2e _ _ _ _ => some .v
  | .vrngN32 _ _ _ => some .v
  | .vrngF32 _ _ _ => some .v
  | .mlease _ => some .m
  | .mrel _ => some .m
  | .mset _ _ _ => some .m
  | .mseti _ _ _ => some .m
  | .mwld _ _ => some .m
  | .mwlda _ _ => some .m
  | .mwldb _ _ => some .m
  | .mma _ _ _ _ => some .m
  | .mmaAcc _ _ _ _ => some .m
  | .mzero _ _ => some .m
  | .mdrv _ _ _ _ => some .m
  | .mdrs _ _ _ => some .m
  | .cpy _ _ _ _ => some .c
  | .cpyt _ _ _ _ _ _ _ => some .c
  | .cpl _ _ _ _ => some .c
  | .cprog _ _ _ _ => some .c
  | .cprogi _ _ _ _ => some .c
  | .send _ _ _ _ => some .c
  | .recv _ _ _ _ => some .c
  | .xmark _ => some .c
  | .tbump _ _ => some .c
  | .tcommit _ _ => some .c
  | .tdig _ _ => some .c
  | .krot _ => some .c
  | .sealCopy _ _ => some .c
  | .unsealCopy _ _ => some .c
  | .scrubCopy _ _ => some .c
  | .bundleIssue _ => none
  | .resultLand _ => none
  | .waitEnd _ => none
  | .nxtDelivery _ => none
  | .bankAccessPerform _ => none
  | .holdRequest _ _ => none
  | .holdTakesEffect _ => none
  | .holdResume _ => none
  | .stationmasterResume _ _ => none
  | .governorWindow _ _ => none
  | .rateChangeEffect _ => none
  | .thermalTrip _ => none
  | .powerUp _ => none
  | .servoSourceSeen _ => none
  | .servoMeasurement _ => none
  | .servoSourceLost => none
  | .servoSourceSelect _ => none
  | .launchStart _ _ => none
  | .coreExitTick _ => none
  | .launchRetire _ _ => none
  | .leaseGrant _ => none
  | .leaseEnd _ => none
  | .leaseTurnEnd _ => none
  | .matrixCommandSwap _ => none
  | .matrixCommandComplete _ => none
  | .beatSourceRead _ _ _ _ => none
  | .indexEntryRead _ _ _ _ => none
  | .beatRelease _ _ _ _ => none
  | .cplSourceRead _ _ _ _ => none
  | .cplDestWrite _ _ _ _ => none
  | .sendBeatRead _ _ _ _ => none
  | .messageArrival _ _ _ => none
  | .lateBeatCheck _ _ _ _ => none
  | .copyFault _ _ _ _ _ _ => none
  | .wportBeatConsume _ _ _ => none
  | .virtLookup _ _ _ _ _ => none
  | .walkComplete _ _ _ _ _ => none
  | .sealDescriptorCheck _ _ _ => none
  | .tbumpEffect _ _ _ => none
  | .tcommitEffect _ _ _ => none
  | .tdigEffect _ _ _ => none
  | .digestResult _ _ => none
  | .krotEffect _ _ _ => none
  | .barrierComplete _ _ _ _ => none
  | .create _ _ => none
  | .destroy _ _ => none
  | .preempt _ _ => none
  | .resume _ _ => none
  | .policy _ _ => none
  | .contextCreateComplete _ _ => none
  | .preemptBoundary _ _ => none
  | .saveCommit _ _ => none
  | .contextReissue _ _ => none
  | .teardownComplete _ _ => none
  | .contextScrubComplete _ _ => none
  | .builtinTestComplete _ _ _ => none
  | .partitionReset _ => none
  | .partitionCreate _ _ => none
  | .partitionDestroy _ => none
  | .dieDrain _ _ _ => none
  | .queueEnable _ _ _ => none
  | .queueDisable _ _ => none
  | .qtailWrite _ _ _ => none
  | .queueSelect _ _ => none
  | .claimResolve _ => none
  | .graphKernelNode _ _ => none
  | .graphCondNode _ _ => none
  | .graphWhileNode _ _ => none
  | .graphSwapNode _ _ => none
  | .graphEndNode _ _ => none
  | .assign _ _ => none
  | .release _ _ => none
  | .invalidate _ _ => none
  | .migrate _ _ => none
  | .migrationCopyStart _ => none
  | .copyEngineComplete _ => none
  | .patrolRead _ _ _ => none
  | .manifestLoad _ _ => none
  | .shardAttemptComplete _ _ _ _ => none
  | .shardDeadline _ _ => none
  | .manifestRecheck _ => none
  | .attachResetEnd _ => none
  | .attachTrainingPass _ => none
  | .attachRetrainRequest _ => none
  | .attachTrainingFail _ => none
  | .circuitEnable _ _ => none
  | .circuitDisable _ => none
  | .circuitLit _ => none
  | .circuitDrainComplete _ => none
  | .wavelengthFence _ _ => none
  | .portEnable _ => none
  | .portTrainingPass _ _ => none
  | .portLaneLoss _ => none
  | .portDisable _ => none
  | .fabidxWrite _ => none
  | .flitReceive _ => none
  | .peerOpen _ _ => none
  | .peerClose _ _ => none
  | .peerInit _ _ _ => none
  | .peerResp _ _ _ => none
  | .peerFin _ _ _ => none
  | .peerCloseReceived _ _ => none
  | .peerTimeout _ _ => none
  | .functionLevelReset _ => none
  | .tdispMessage _ _ => none
  | .ideCheckFail _ => none
  | .hostDmaRequest _ _ _ _ _ => none
  | .getVersion _ => none
  | .getCapabilities _ => none
  | .negotiateAlgorithms _ _ _ _ => none
  | .getDigests _ => none
  | .getCertificate _ _ _ => none
  | .challenge _ _ => none
  | .getMeasurements _ _ _ => none
  | .keyExchange _ _ _ => none
  | .finish _ _ => none
  | .keyUpdate _ => none
  | .endSession _ => none
  | .tenantidWrite _ _ => none
  | .debugTokenCheck _ _ => none
  | .debugLock _ => none
  | .debugStopRequest _ => none
  | .debuggerResume _ => none
  | .jreset => none
  | .fenceclr _ => none
  | .registerWrite _ _ _ => none
  | .beatPresent _ _ _ _ => none
  | .faultActionsComplete _ => none
  | .powerLoss => none
  | .waitBudgetExhausted _ => none

/-- The operation may stand in a slot of the map. -/
def Instr.inMap (i : Instr) (sl : SlotClass) : Bool :=
  match i with
  | .nop _ => true
  | j => decide (j.map = some sl)

/-- The map of slot n of a bundle (Table 3.1, R98 to R103). -/
def slotClass (n : Nat) : SlotClass :=
  match n with
  | 0 => .x
  | 1 => .s
  | 2 => .l
  | 3 => .v
  | 4 => .v
  | 5 => .m
  | _ => .c

/-- The slots in which a table word is tried, in this order (log entry 5: the table does not say the slot of a row). -/
def tableSlots : List Nat := [0, 5, 1, 3, 2, 6]

/-- The first slot of a list whose map gives the word an operation. -/
def firstSlot (w : Nat) : List Nat → Nat
  | [] => 0
  | n :: t => match decodeWord (slotClass n) w with | .ok _ => n | .error _ => firstSlot w t

/-- The slot in which a table word stands. -/
def tableSlot (w : Nat) : Nat := firstSlot w tableSlots

/-- The operation that the decoder reads from a word of the opcode table; a row without an encoding has no bits. -/
def decodeTableWord (nbits w : Nat) : Option Instr :=
  if nbits = 0 then none
  else match decodeWord (slotClass (tableSlot (w % 2 ^ 32))) (w % 2 ^ 32) with | .ok i => some i | .error _ => none

end Sys2Proof
end

