-- ==== Sys2Proof/Machine/Flags.lean ====
section
/-! DEFINITION. The sticky exception flags of a core (R46, Table 2.4): FMT 6, SAT 5, NV 4, DZ 3, OF 2, UF 1, NX 0. -/
namespace Sys2Proof.Machine

/-- The seven flags of Table 2.4, in their bit places. -/
abbrev Flags := BitVec 7

def Flags.none : Flags := 0
/-- Inexact. -/
def Flags.nx : Flags := 1
/-- Tiny and inexact. -/
def Flags.uf : Flags := 2
/-- Above the largest finite value; OF always comes with NX (R44). -/
def Flags.ofnx : Flags := 5
/-- Division by zero of an estimate. -/
def Flags.dz : Flags := 8
/-- Invalid. -/
def Flags.nv : Flags := 16
/-- Clamped or saturated. -/
def Flags.sat : Flags := 32
/-- A TRN operand held 0b10. -/
def Flags.fmt : Flags := 64

/-- A flag that is set when the condition holds. -/
def Flags.when (c : Bool) (f : Flags) : Flags := if c then f else 0

end Sys2Proof.Machine
end

