-- ==== Sys2Proof/Machine/Num.lean ====
section
/-! DEFINITION. Number formats, exact values, rounding and conversions: R35 to R50, R58 and R62. Exact reals are dyadic:
a mantissa and a power of two, so nothing is rounded before `rnd`. -/
namespace Sys2Proof.Machine

/-- The width of a format in bits (Table 2.1). -/
def fmtWidth : Fmt → Nat
  | .trn => 2 | .i4 => 4 | .i8 => 8 | .n8 => 8 | .f4 => 4 | .f6 => 6 | .f8a => 8 | .f8b => 8
  | .h16 => 16 | .b16 => 16 | .f32 => 32 | .i32 => 32 | .n32 => 32 | .i64 => 64

/-- How many elements of a format a 32-bit lane holds (R42); an I64 fills two lanes. -/
def fmtPerLane : Fmt → Nat
  | .trn => 16 | .i4 => 8 | .f4 => 8 | .i8 => 4 | .n8 => 4 | .f8a => 4 | .f8b => 4 | .f6 => 4 | .h16 => 2 | .b16 => 2
  | .f32 => 1 | .i32 => 1 | .n32 => 1 | .i64 => 1

/-- The significand width p of a float format (Table 2.2). -/
def fmtP : Fmt → Nat
  | .f4 => 1 | .f6 => 2 | .f8a => 3 | .f8b => 2 | .h16 => 10 | .b16 => 7 | _ => 23

/-- The exponent bias (Table 2.2). -/
def fmtBias : Fmt → Nat
  | .f4 => 1 | .f6 => 3 | .f8a => 7 | .f8b => 15 | .h16 => 15 | _ => 127

/-- emin(f) = 1 − bias (R44). -/
def fmtEmin (f : Fmt) : Int := 1 - (fmtBias f : Int)

/-- The magnitude code of the largest finite value (Table 2.2). -/
def fmtMaxCode : Fmt → Nat
  | .f4 => 0x7 | .f6 => 0x1F | .f8a => 0x7E | .f8b => 0x7B | .h16 => 0x7BFF | .b16 => 0x7F7F | _ => 0x7F7FFFFF

/-- The magnitude code of infinity, for a format that has one. -/
def fmtInf : Fmt → Option Nat
  | .f8b => some 0x7C | .h16 => some 0x7C00 | .b16 => some 0x7F80 | .f32 => some 0x7F800000 | _ => none

/-- The canonical NaN, for a format that has one (Table 2.2). -/
def fmtNan : Fmt → Option Nat
  | .f8a => some 0x7F | .f8b => some 0x7E | .h16 => some 0x7E00 | .b16 => some 0x7FC0 | .f32 => some 0x7FC00000 | _ => none

/-- The sign bit of a float format, as a value. -/
def fmtSign (f : Fmt) : Nat := 2 ^ (fmtWidth f - 1)

/-- The value of a float code: NaN (signalling or quiet), infinity, or an exact dyadic with its sign. -/
inductive FVal where
  | nan (sig : Bool)
  | inf (neg : Bool)
  | fin (neg : Bool) (m : Nat) (e : Int)
  deriving DecidableEq, Repr

/-- The value of a code of a float format (R38, R39, Table 2.2). -/
def decodeF (f : Fmt) (x : Nat) : FVal :=
  let p := fmtP f
  let neg := x / fmtSign f % 2 == 1
  let mag := x % fmtSign f
  let m := mag % 2 ^ p
  let e := mag / 2 ^ p
  if fmtMaxCode f < mag then
    if fmtInf f = some mag then .inf neg else .nan (f != .f8a && m < 2 ^ (p - 1))
  else if e = 0 then .fin neg m (fmtEmin f - p)
  else .fin neg (2 ^ p + m) (fmtEmin f - p + (e - 1))

/-- A code from a sign and a magnitude code. -/
def signed (f : Fmt) (neg : Bool) (mag : Nat) : Nat := if neg then fmtSign f + mag else mag

/-- Whether rounding steps the magnitude up by one quantum (R44), for the discarded part r of 2^k. -/
def rdir (rm : Rm) (neg : Bool) (n r k rv : Nat) : Bool :=
  if r = 0 then false
  else match rm with
    | .rne => 2 ^ k < 2 * r || (2 ^ k == 2 * r && n % 2 == 1)
    | .rtz => false
    | .rup => !neg
    | .rdn => neg
    | .rsr => 2 ^ 16 ≤ r * 2 ^ 16 / 2 ^ k + rv

/-- The result of an overflow (R44). -/
def ovf (f : Fmt) (neg : Bool) (rm : Rm) (sat : Bool) : Nat × Flags :=
  let away := match rm with | .rne => true | .rsr => true | .rup => !neg | .rdn => neg | .rtz => false
  match fmtInf f with
  | some i => (signed f neg (if !sat && away then i else fmtMaxCode f), Flags.ofnx)
  | none => (signed f neg (fmtMaxCode f), Flags.ofnx)

/-- rnd of R44: the exact real (−1)^neg · m · 2^e to a float format. -/
def rnd (neg : Bool) (m : Nat) (e : Int) (f : Fmt) (rm : Rm) (rv : Nat) (sat : Bool) : Nat × Flags :=
  if m = 0 then (signed f neg 0, 0)
  else
    let lg : Int := (Nat.log2 m : Int) + e
    let ex := max lg (fmtEmin f)
    let q := ex - fmtP f
    let k := (q - e).toNat
    let n := if e ≥ q then m * 2 ^ (e - q).toNat else m / 2 ^ k
    let r := if e ≥ q then 0 else m % 2 ^ k
    let fl := Flags.when (r != 0) Flags.nx ||| Flags.when (r != 0 && lg < fmtEmin f) Flags.uf
    let code := (ex - fmtEmin f).toNat * 2 ^ fmtP f + (n + (rdir rm neg n r k rv).toNat)
    if fmtMaxCode f < code then
      let o := ovf f neg rm sat
      (o.1, fl ||| o.2)
    else (signed f neg code, fl)

/-- rnd of a signed mantissa; zneg is the sign that a zero takes. -/
def rndInt (zneg : Bool) (m : Int) (e : Int) (f : Fmt) (rm : Rm) (rv : Nat) (sat : Bool) : Nat × Flags :=
  rnd (if m = 0 then zneg else m < 0) m.natAbs e f rm rv sat

/-- rint of R44: an exact real to an integer by mode. -/
def rint (neg : Bool) (m : Nat) (e : Int) (rm : Rm) (rv : Nat) : Int × Flags :=
  let k := (-e).toNat
  let n := if 0 ≤ e then m * 2 ^ e.toNat else m / 2 ^ k
  let r := if 0 ≤ e then 0 else m % 2 ^ k
  let y : Int := (n + (rdir rm neg n r k rv).toNat : Nat)
  (if neg then -y else y, Flags.when (r != 0) Flags.nx)

/-- The range of an integer format (R36); TRN is −1 to 1. -/
def intMin : Fmt → Int
  | .trn => -1 | .i4 => -8 | .i8 => -128 | .i32 => -(2 ^ 31) | .i64 => -(2 ^ 63) | _ => 0
def intMax : Fmt → Int
  | .trn => 1 | .i4 => 7 | .i8 => 127 | .n8 => 255 | .i32 => 2 ^ 31 - 1 | .n32 => 2 ^ 32 - 1 | .i64 => 2 ^ 63 - 1 | _ => 0

/-- The nearest value of an integer format (R62, clamp); the second part says whether it changed. -/
def clampInt (f : Fmt) (v : Int) : Int × Bool :=
  if v < intMin f then (intMin f, true) else if intMax f < v then (intMax f, true) else (v, false)

/-- The value of an integer or TRN code; TRN 0b10 reads 0 (R36, R37). -/
def decodeI (f : Fmt) (x : Nat) : Int :=
  match f with
  | .trn => if x = 1 then 1 else if x = 3 then -1 else 0
  | .n8 | .n32 => x
  | _ => if x < 2 ^ (fmtWidth f - 1) then (x : Int) else (x : Int) - 2 ^ fmtWidth f

/-- The low bits of an integer as a code of w bits. -/
def wrap (w : Nat) (v : Int) : Nat := (v % (2 ^ w : Int)).toNat

/-- The code of an integer in an integer format or TRN, keeping low bits. -/
def encI (f : Fmt) (v : Int) : Nat := wrap (fmtWidth f) v

/-- cvt of R47 to R50: an element code of one format to another, with the flags it sets. TRN −1 has no exact value in N8 and N32, where Table 2.5 says Exact: its
low bits stay, and under .sat it is clamped to 0 with SAT (DESIGN CHOICE, log entry 49). -/
def cvt (x : Nat) (src dst : Fmt) (rm : Rm) (rv : Nat) (sat : Bool) : Nat × Flags :=
  if src.isFloat then
    match decodeF src x with
    | .nan sig =>
      if dst.isFloat then
        match fmtNan dst with
        | some c => (c, Flags.when sig Flags.nv)
        | none => (0, Flags.nv)
      else (0, Flags.nv)
    | .inf neg =>
      if dst.isFloat then
        match fmtInf dst with
        | some i => if sat then (signed dst neg (fmtMaxCode dst), Flags.nv) else (signed dst neg i, 0)
        | none => (signed dst neg (fmtMaxCode dst), Flags.nv)
      else (encI dst (if neg then intMin dst else intMax dst), Flags.nv)
    | .fin neg m e =>
      if dst.isFloat then rnd neg m e dst rm rv sat
      else
        let t := rint neg m e rm rv
        let c := clampInt dst t.1
        (encI dst c.1, t.2 ||| Flags.when c.2 Flags.nv)
  else
    let v := decodeI src x
    let fm := Flags.when (src == .trn && x == 2) Flags.fmt
    if dst.isFloat then
      let r := rndInt false v 0 dst rm rv sat
      (r.1, fm ||| r.2)
    else if sat || dst == .trn then
      let c := clampInt dst v
      (encI dst c.1, fm ||| Flags.when c.2 Flags.sat)
    else (encI dst v, fm)

/-- Whether a conversion can be inexact, so that .rsr consumes a random value (R43, R53). -/
def cvtInexact (src dst : Fmt) : Bool :=
  if src.isFloat then
    if dst.isFloat then !(fmtP src ≤ fmtP dst && fmtEmin dst - fmtP dst ≤ fmtEmin src - fmtP src
      && fmtMaxCode src / 2 ^ fmtP src + fmtBias dst ≤ fmtMaxCode dst / 2 ^ fmtP dst + fmtBias src)
    else true
  else dst.isFloat && src != .trn && decide (2 ^ (fmtP dst + 1) < max (intMax src) (-intMin src))

/-- A dyadic sum: two mantissas aligned to the lower exponent. -/
def addDy (a b : Int × Int) : Int × Int :=
  let e := min a.2 b.2
  (a.1 * 2 ^ (a.2 - e).toNat + b.1 * 2 ^ (b.2 - e).toNat, e)

/-- The signed mantissa of a finite value. -/
def sgn (neg : Bool) (m : Nat) : Int := if neg then -(m : Int) else m

/-- Whether a float value is a signalling NaN. -/
def FVal.snan : FVal → Bool
  | .nan s => s
  | _ => false
def FVal.isNan : FVal → Bool
  | .nan _ => true
  | _ => false
def FVal.isInf : FVal → Bool
  | .inf _ => true
  | _ => false
def FVal.isZero : FVal → Bool
  | .fin _ m _ => m == 0
  | _ => false
def FVal.neg : FVal → Bool
  | .nan _ => false
  | .inf n => n
  | .fin n _ _ => n
/-- The value with its sign flipped. -/
def FVal.flip : FVal → FVal
  | .nan s => .nan s
  | .inf n => .inf (!n)
  | .fin n m e => .fin (!n) m e

/-- The canonical NaN of F32. -/
def canon32 : Nat := 0x7FC00000

/-- The product of two values, exactly; none for 0 × ∞ (invalid) and for NaN. -/
def mulF (a b : FVal) : Option FVal :=
  match a, b with
  | .nan _, _ => none
  | _, .nan _ => none
  | .inf s, y => if y.isZero then none else some (.inf (s != y.neg))
  | x, .inf s => if x.isZero then none else some (.inf (x.neg != s))
  | .fin s m e, .fin t n d => some (.fin (s != t) (m * n) (e + d))

/-- The rounded F32 sum of two values that are no NaN, with its flags (R40). -/
def addF (a b : FVal) (rm : Rm) (rv : Nat) : Nat × Flags :=
  match a, b with
  | .inf s, .inf t => if s = t then (signed .f32 s 0x7F800000, 0) else (canon32, Flags.nv)
  | .inf s, _ => (signed .f32 s 0x7F800000, 0)
  | _, .inf t => (signed .f32 t 0x7F800000, 0)
  | .fin s m e, .fin t n d =>
    let v := addDy (sgn s m, e) (sgn t n, d)
    rndInt (if m = 0 ∧ n = 0 ∧ s = t then s else rm == .rdn) v.1 v.2 .f32 rm rv false
  | _, _ => (canon32, 0)

/-- A fused F32 operation x · y + z of R40, of which addition and multiplication are not special cases for zeros. -/
def ffma32 (x y z : FVal) (rm : Rm) (rv : Nat) : Nat × Flags :=
  let s := Flags.when (x.snan || y.snan || z.snan) Flags.nv
  match mulF x y with
  | none => (canon32, s ||| Flags.when (!x.isNan && !y.isNan) Flags.nv)
  | some t => if z.isNan then (canon32, s) else addF t z rm rv

/-- fadd32 of R40. -/
def fadd32 (x y : FVal) (rm : Rm) (rv : Nat) : Nat × Flags :=
  if x.isNan || y.isNan then (canon32, Flags.when (x.snan || y.snan) Flags.nv) else addF x y rm rv

/-- fmul32 of R40. -/
def fmul32 (x y : FVal) (rm : Rm) (rv : Nat) : Nat × Flags :=
  match mulF x y with
  | none => (canon32, Flags.when (x.snan || y.snan || (!x.isNan && !y.isNan)) Flags.nv)
  | some (.fin s m e) => rnd s m e .f32 rm rv false
  | some (.inf s) => (signed .f32 s 0x7F800000, 0)
  | some (.nan _) => (canon32, 0)

/-- scaleacc of R58; s is an I32 (taken exactly) or an F32 value. -/
def scaleacc (acc s sa sb : FVal) (rm : Rm) (rv : Nat) : Nat × Flags :=
  if acc.isNan || s.isNan || sa.isNan || sb.isNan then
    (canon32, Flags.when (acc.snan || s.snan || sa.snan || sb.snan) Flags.nv)
  else if (s.isInf || sa.isInf || sb.isInf) && (s.isZero || sa.isZero || sb.isZero) then (canon32, Flags.nv)
  else match mulF s sa with
    | none => (canon32, Flags.nv)
    | some u =>
      match mulF u sb with
      | none => (canon32, Flags.nv)
      | some t => addF acc t rm rv

/-- An I32 taken exactly as a value. -/
def ofI32 (x : Lane) : FVal := .fin (x.toInt < 0) x.toInt.natAbs 0

/-- An F32 lane as a value. -/
def ofF32 (x : Lane) : FVal := decodeF .f32 x.toNat

/-- A lane from a code and its flags. -/
def lane (r : Nat × Flags) : Lane × Flags := (BitVec.ofNat 32 r.1, r.2)

/-- Element e of a packed array of w-bit elements (R41, R42). -/
def elem (x w e : Nat) : Nat := x / 2 ^ (w * e) % 2 ^ w

/-- Bits [hi:lo] of a natural number (R9). -/
def bits (x hi lo : Nat) : Nat := x / 2 ^ lo % 2 ^ (hi + 1 - lo)

/-! ## Residues (R59, R60, Table 2.8) -/

/-- res7: the residue of a value modulo 7. -/
def res7 (x : Int) : Nat := (x % 7).toNat
/-- What a result that wraps by k · 2^W contributes. -/
def wrapRes (w : Nat) (k : Int) : Int := k * 2 ^ (w % 3)
/-- Add, subtract with c the negated borrow, address arithmetic, and significand align and add with the bits shifted out among the operands. -/
def predAdd (w ra rb : Nat) (c : Int) : Nat := res7 (ra + rb - wrapRes w c)
def predSub (w ra rb : Nat) (c : Int) : Nat := res7 (ra - rb - wrapRes w c)
/-- The low W bits of a product of 2W, `rh` the residue of the high half. -/
def predMul (w ra rb rh : Nat) : Nat := res7 (ra * rb - wrapRes w rh)
/-- A shift left by n, `ro` the residue of the bits shifted out. -/
def predShl (w n ra ro : Nat) : Nat := res7 (ra * 2 ^ (n % 3) - wrapRes w ro)
/-- A shift right by n that gives a result of residue rr, `ro` the residue of the bits shifted out: the left shift that restores a. -/
def shrOk (n ra rr ro : Nat) : Bool := res7 (rr * 2 ^ (n % 3) + ro) == ra
/-- AND, OR and XOR, both results formed. -/
def logicOk (ra rb rand ror rxor : Nat) : Bool := res7 (ra + rb) == res7 (rxor + 2 * rand) && ror == res7 (rxor + rand)
/-- A significand product, a rounding increment, one plane of the sign-select array over its digits and activations, and its accumulation. -/
def predSig (ra rb : Nat) : Nat := res7 (ra * rb)
def predRound (rt : Nat) (up : Bool) : Nat := res7 (rt + up.toNat)
def predPlane (rP : Nat) (l : List (Int × Nat)) : Nat := res7 (l.foldl (fun x e => x + e.1 * e.2) (rP * 4 : Int))
def predAcc (ra rb : Nat) (c : Int) : Nat := predAdd 32 ra rb c

end Sys2Proof.Machine
end

