-- ==== Sys2Proof/Machine/State.lean ====
section
/-! DEFINITION. The state of one Melavaral package, as plain data. A bracket at the end of a field's comment names the rules
of spec/ that give the field, its width, and its value at reset. -/
namespace Sys2Proof.Machine

/-- What a step of the machine can stop with. -/
inductive Fault where
  /-- Raised by a step of a package without power and without a waiting power-up: nothing in it can happen (R409, R411). Safe:
  the package does nothing in that time. -/
  | noPower
  deriving DecidableEq, Repr

/-- Why an instruction has no meaning. -/
inductive Refusal where
  /-- Raised by exec for a constructor whose meaning is not written. Safe: the model stops. -/
  | notModelled (mnemonic : String)
  deriving DecidableEq, Repr

/-! ## The core (03_core.md) -/

/-- The states of Table 3.9. -/
inductive CoreSt where
  | spare | idle | bound | running | held | halted | fenced
  deriving DecidableEq, Repr

/-- TRAPINFO, Table 3.7. -/
structure TrapInfo where
  /-- TRAPINFO.CAUSE [R84, R85 (03_core.md); 8; 0] -/
  cause : Nat
  /-- TRAPINFO.SLOT [R84, R81 (03_core.md); 3; 0] -/
  slot : Nat
  /-- TRAPINFO.PC [R84 (03_core.md); 13; 0] -/
  pc : Nat
  /-- TRAPINFO.INFO [R84, R85 (03_core.md); 32; 0] -/
  info : Nat
  deriving DecidableEq, Repr

/-- A result on its way to a register: the destination and the value (R67). -/
inductive Write where
  | x (d : Nat) (v : Word)
  | p (d : Nat) (v : Bool)
  | b (d : Nat) (v : Word)
  | q (d : Nat) (v : Tile)
  /-- Lanes m of row r of v[d]. -/
  | row (d r : Nat) (m : MaskRow) (v : Row)
  /-- Bits m of row r of k[d]. -/
  | krow (d r : Nat) (m v : MaskRow)
  /-- Flags to be ORed into FPFLAGS (R46). -/
  | flags (f : Flags)
  /-- SYSWR of RW register n (R122). -/
  | sys (n : Nat) (v : Word)
  deriving DecidableEq, Repr

/-- A result not yet landed (R8, R67, R82): a shadow latch while the core is frozen. -/
structure Land where
  /-- Order of issue. -/
  seq : Nat
  /-- First tick at which it may have landed: the destination is undefined from here. -/
  lo : Nat
  /-- The bound: it has landed from here. -/
  hi : Nat
  /-- Its value is known (a load's is from its perform tick). -/
  ready : Bool
  /-- An MDRV row: no later result for its register lands before its bound (R199). -/
  drain : Bool
  wr : Write
  deriving DecidableEq, Repr

/-- The functions of the vector units (Table 4.6), with the operands that are no registers. -/
inductive VFn where
  | addF (r : Rm) | subF (r : Rm) | mulF (r : Rm) | fma (r : Rm) | fms (r : Rm)
  | minF | maxF | absF | negF | rndF (r : Rm)
  | eqF | neF | ltF | leF | unordF
  | eqI | neI | ltI | geI | ltuI | geuI
  | addI | subI | mulI | mulhI | minI | maxI | minN | maxN
  | addsI | subsI | absI | negI
  | and | or | xor | andn | not
  | sll | srl | sra | rol
  | sllI (n : Nat) | srlI (n : Nat) | sraI (n : Nat) | rolI (n : Nat)
  | sel
  | dot (fa fb : Fmt) (sat : Bool)
  | cvt (dst src : Fmt) (r : Rm) (sat : Bool)
  | scaI (r : Rm) | scaF (r : Rm)
  | splat (w : Lane)
  | rotr (n : Nat) | bcr (n : Nat) | rotc (n : Nat) | bcc (n : Nat) | tr (b : Nat)
  | redrSumF | redrMaxF | redrMinF | redrSumI | redrMaxI | redrMinI
  | redcSumF | redcMaxF | redcMinF | redcSumI | redcMaxI | redcMinI
  | kand | kor | kxor | kandn | knot | kmov
  | rcpe | rsqe | rcps (r : Rm) | rsqs (r : Rm) | fexp | expi (r : Rm) | expxE | expxM | lg2e
  | rngN | rngF
  deriving DecidableEq, Repr

/-- A vector operation with rows still to read (R71, R147, R168). -/
structure VOp where
  seq : Nat
  /-- Issue tick. -/
  t : Nat
  fn : VFn
  d : Nat
  a : Nat
  b : Nat
  k : Nat
  /-- RNGKEY at issue and the counter value taken (R53, R54, R182). -/
  key : Word
  n : Word
  /-- The slot, for the identity of free values. -/
  slot : Nat
  /-- Rows of v[a] and of the mask gathered by a column-axis operation (R168). -/
  rows : Tab Row
  masks : Tab MaskRow
  /-- Lanes of those rows that were undefined when they were read (R168). -/
  opens : Tab MaskRow
  /-- Lanes in which a result of a later operation has landed already, by row of v[d], and 16 higher by row of k[d]: this one does
  not land there (R67). -/
  skip : Tab MaskRow
  deriving DecidableEq, Repr

/-- What a scratchpad access does at its perform tick. -/
inductive ReqKind where
  /-- Scalar load into x[d], n bytes, sign extended or not. -/
  | ld (d n : Nat) (sx : Bool)
  /-- Scalar store of the low n bytes. -/
  | st (n : Nat) (v : Word)
  /-- Row r of a vector load into v[d], plain or packed F6. -/
  | vld (d r : Nat) (f6 : Bool)
  /-- Row r of a vector store from v[d]; the data once it has been read. -/
  | vst (d r : Nat) (f6 : Bool) (data : Option Row)
  /-- Atomic f on n bytes with operand v, the old value into x[d] (R134). -/
  | amo (f d n : Nat) (v : Word)
  /-- Line q of weight row k of load command num (R196). -/
  | wline (num k q : Nat)
  /-- A line that the unfolding unit reads for A row m of command num (R197). -/
  | aline (num m : Nat)
  /-- Line of an MDRS command, its data once read (R199). -/
  | dline (num l : Nat) (data : Option Beat)
  /-- Source beat b of copy id of stream st (R213, R216, R218). -/
  | src (st id b : Nat)
  /-- Index entry n of copy id (R207), and the descriptor of a SEAL, UNSEAL or SCRUB (R256). -/
  | idx (st id n : Nat)
  | desc (st id : Nat)
  /-- Destination beat b of a CPL (R216). -/
  | cpl (st id b : Nat) (data : Beat)
  deriving DecidableEq, Repr

/-- A scratchpad access that has not performed (R80, R125). -/
structure Req where
  seq : Nat
  /-- Place among the accesses of one instruction. -/
  sub : Nat
  kind : ReqKind
  /-- The core whose scratchpad it reaches, and the byte address in it. -/
  pad : Nat
  addr : Nat
  /-- Issue tick of its instruction. -/
  t : Nat
  /-- Row offset and length of the window of Table 5.2. -/
  off : Nat
  span : Nat
  /-- Effective issue, when no MARK leaves it open (R128). -/
  e : Option Nat
  /-- MARK group: accesses of lower groups perform first. -/
  grp : Nat
  /-- Pinned to an exact tick: a CPL source read, a CPL destination write or a SEND beat read (R80). -/
  pin : Bool
  deriving DecidableEq, Repr

/-- The effective issue and the occupancy of the last row-path operation, and whether it made accesses (R135). -/
structure RowPath where
  t : Nat
  acc : Bool
  e : Option Nat
  grp : Nat
  occ : Nat
  deriving DecidableEq, Repr

/-- XMARK of a stream (R217): M once known, its bound, and the issue order below which stores count. -/
structure XMark where
  m : Option Nat
  bound : Nat
  /-- Its issue tick: stores issued below it count. -/
  at' : Nat
  deriving DecidableEq, Repr

/-- A tensor descriptor's fields (Table 16.2): in the range buffer, as pinned at launch (R324). -/
structure RangeBind where
  tid : Nat
  vbase : Nat
  offset : Nat
  limit : Nat
  rd : Bool
  wr : Bool
  shard : Bool
  /-- MEM: station memory. -/
  station : Bool
  /-- PLACE: HASHED. -/
  hashed : Bool
  home : Nat
  asid : Nat
  deriving DecidableEq, Repr

/-- One entry of a translation buffer (R350, R351): the page and what its leaf entry gives. -/
structure TlbEntry where
  asid : Nat
  /-- Virtual base and size of the page. -/
  vbase : Nat
  size : Nat
  /-- Device address of the page, with MEM, PLACE and HOME. -/
  dbase : Nat
  station : Bool
  hashed : Bool
  home : Nat
  r : Bool
  w : Bool
  deriving DecidableEq, Repr

/-- Where one line of device memory lies (R345, R346): die index and local offset, and what it is reached as: a line of the tensor
`tid`, or a paged line. -/
structure Place where
  station : Bool
  d : Nat
  off : Nat
  hashed : Bool
  paged : Bool
  tid : Nat
  home : Nat
  /-- Line number in the tensor, and device address of the line (R330, R331); 0 for a paged line. -/
  n : Nat
  addr : Nat
  deriving DecidableEq, Repr

/-- The kinds of queued copy operation. -/
inductive CopyKind where
  | timed | cpl | send | recv
  /-- SEAL, UNSEAL and SCRUB, with their descriptor address (R255). -/
  | seal | unseal | scrub
  deriving DecidableEq, Repr

/-- A copy in the queue of a stream: the snapshot of its program and what has been read of it (R205, R215). -/
structure Copy where
  id : Nat
  /-- Its number in the order of issue of its core. -/
  seq : Nat
  kind : CopyKind
  prog : Nat
  /-- Program fields at issue (Table 9.2), by FIELD number. -/
  fields : Tab Word
  param : Word
  ipc : Nat
  itick : Nat
  /-- Number of beats. -/
  n : Nat
  /-- Release tick of beat 0; for CPL the write tick, for RECV r, for SEND the arrival tick. -/
  v : Nat
  /-- First read tick R0, N or s, when XMARK leaves it open none, with the value before M. -/
  r0 : Option Nat
  r0min : Nat
  /-- Minimum distance. -/
  m : Nat
  /-- While r0 is open: the issue tick of the XMARK that it waits for. -/
  mark : Nat
  /-- Index entries read (R207), and beats read but not released. -/
  idx : Tab Word
  got : Tab Beat
  /-- Beats whose source read has been made, and beats present (R226). -/
  read : List Nat
  present : List Nat
  /-- Beats that failed a check, never released (R225). -/
  bad : List Nat
  /-- Where the looked-up ends of VIRT beats lie, keyed 2·beat, plus 1 for the destination (R350). -/
  places : Tab Place
  /-- Hold tick of a fault that stopped the copy (R225). -/
  stop : Option Nat
  /-- WTIME and CUR at issue, by which a PEER destination converts its ticks to wall deadlines (R27). -/
  wall : Option (Nat × Nat)
  /-- Version and generation of the source tensor, and of the destination tensor, as they stood at issue (R224). -/
  sver : Nat
  sgen : Nat
  dver : Nat
  dgen : Nat
  /-- The same of every tensor of the context as it stood at issue, by record slot, for the VIRT ends: VER, KGEN, EVER, EGEN (R224). -/
  vers : Tab (Nat × Nat × Nat × Nat)
  /-- A SEAL, UNSEAL or SCRUB whose descriptor is still to be checked: its fields, beats and V are those of the descriptor as it stood at issue
  (R256). -/
  unchecked : Bool
  /-- The outputs of a SEAL, UNSEAL or SCRUB cross to another die (R375): each is present once it has. -/
  far : Bool
  /-- First tick after which a read of the whole operation's descriptor or end has been settled: the status word of SEAL, UNSEAL
  and SCRUB once it is known (R257 to R259). -/
  status : Option Nat
  deriving DecidableEq, Repr

/-- Beats that a WPORT copy delivers (R221): how many, from which release tick, how many are consumed, and those released. -/
structure PortSeg where
  id : Nat
  v : Nat
  n : Nat
  used : Nat
  data : Tab Beat
  deriving DecidableEq, Repr

/-- A tensor operation waiting for its effect tick (R328, R333, R337, R338): 0 TBUMP, 1 TCOMMIT, 2 TDIG, 3 KROT. -/
structure TEffect where
  id : Nat
  op : Nat
  at' : Nat
  ipc : Nat
  itick : Nat
  /-- The bound tensor at issue, none for KROT, and the context. -/
  bind : Option RangeBind
  asid : Nat
  deriving DecidableEq, Repr

/-- One shunter (Table 9.1). -/
structure Stream where
  /-- Address programs: 16 programs by FIELD, keyed 64·PROG + FIELD [R204, R206 (09_copy_streams.md); 16 × 27 × 64; Table 9.2] -/
  progs : Tab Word
  /-- Range buffer, 64 entries by index [R204 (09_copy_streams.md); 64 entries; empty] -/
  rb : Tab RangeBind
  /-- Translation buffer, 64 entries, oldest first [R204, R350 (17_page.md); 64 entries; empty] -/
  tlb : List TlbEntry
  /-- Copy queue with the landing buffer's beats inside each copy, and the release track that they occupy [R204, R215 (09_copy_streams.md); 16 copies; empty] -/
  copies : List Copy
  /-- Weight port [R204, R221 (09_copy_streams.md); part of the landing buffer; empty] -/
  port : List PortSeg
  /-- XMARK bound M [R217 (09_copy_streams.md); a tick; none] -/
  xmark : Option XMark
  /-- Tensor operations before their effect tick [R328, R333, R337, R338 (16_tensor.md); a list; empty] -/
  effects : List TEffect
  /-- Numbers given to copies so far [MODEL; -; 0] -/
  nextId : Nat
  deriving DecidableEq, Repr

/-- A message in the mailboxes of a core (R218, R219). -/
structure Msg where
  chan : Nat
  s : Nat
  ms : Nat
  beats : List Beat
  deriving DecidableEq, Repr

/-- The commands of the matrix unit (R192). -/
inductive MOp where
  | wld (f : Fmt) | wldp (st : Nat) (f : Fmt) | mma (wf af : Fmt) (z : Nat) (acc : Bool)
  | zero (z : Nat) | drv (d z part : Nat) | drs (addr z : Nat)
  deriving DecidableEq, Repr

/-- An accepted matrix command (R192): start S, completion C, and what it has read. -/
structure Cmd where
  num : Nat
  seq : Nat
  op : MOp
  t : Nat
  s : Nat
  c : Nat
  /-- The active set that it runs on, once swapped (R193). -/
  regs : Tab Word
  swapped : Bool
  /-- Weight rows of a load: row k as 128 codes of 16 bits (R195). -/
  w : Tab Row
  /-- Bytes of A rows sampled so far, keyed 2^21·m + address (R197). -/
  abytes : Tab Byte
  /-- The load whose weights an MMA uses. -/
  load : Nat
  /-- Rows that have landed, and flags that have been raised: a freeze at their tick lets neither happen twice (R202). -/
  done : List Nat
  /-- Bundle of its instruction, which a machine check names (R201). -/
  pc : Nat
  deriving DecidableEq, Repr

/-- A fault of the core that waits for its hold tick (R225, R201): the trap taken at the boundary before it. -/
structure DueTrap where
  h : Nat
  info : TrapInfo
  /-- Copy fault record of Table 9.6, as beat, ipc, stream, prog, itick. -/
  beat : Nat
  ipc : Nat
  stream : Nat
  prog : Nat
  itick : Nat
  deriving DecidableEq, Repr

/-- Why a core issues no bundle though it runs. -/
inductive Wait where
  /-- A time wait until tick T (R141). -/
  | until' (T : Nat)
  /-- A barrier wait: the scope key and the instance (R300). -/
  | barrier (scope n : Nat)
  deriving DecidableEq, Repr

/-- What a core's registers held at the start of the tick of the bundle under issue (R66, R122, R142). -/
structure Issue where
  pc : Nat
  dly : Nat
  tgt : Nat
  qn : Nat
  budget : Nat
  ecnt : Nat
  rngctr : Word
  ct1 : Bool
  ct2 : Bool
  xnop : Bool
  /-- Highest last window tick of stores and AMOs so far (R217). -/
  stHat : Nat
  deriving DecidableEq, Repr

/-- An access of a core to the bytes of memory from key `lo` on, at a tick of its context: R247 is decided from such accesses. -/
structure Touch where
  core : Nat
  part : Nat
  asid : Nat
  tick : Nat
  lo : Nat
  len : Nat
  wr : Bool
  deriving DecidableEq, Repr

/-- One core position (R63 to R88), named by physical die, logical row and logical column. -/
structure Core where
  /-- Core state of Table 3.9 [R86 (03_core.md); 7 states; IDLE] -/
  st : CoreSt
  /-- Partition of the binding, COREID.PART [R84, Table 3.5 (03_core.md); 3; fixed at bind, DESIGN CHOICE 0, log entry 1] -/
  part : Nat
  /-- Context of the binding [R229 (10_context.md); 16; DESIGN CHOICE 0, log entry 1] -/
  asid : Nat
  /-- Die index within the partition, COREID.DIE [R84, Table 3.5 (03_core.md); 3; fixed at bind, DESIGN CHOICE 0, log entry 1] -/
  die : Nat
  /-- Physical column, COREID.PCOL [R84, Table 3.5 (03_core.md); 5; the logical column] -/
  pcol : Nat
  /-- The launch of the binding [R277 (12_kernel.md); a number; DESIGN CHOICE 0, log entry 1] -/
  launch : Nat
  /-- x0 to x31 [R66 (03_core.md); 32 × 64; 0 (R87)] -/
  x : Tab Word
  /-- p0 to p11 [R66 (03_core.md); 12 × 1; p0 1, others 0 (R87)] -/
  p : BitVec 12
  /-- b0 to b3 [R66, R74 (03_core.md); 4 × 64; 0 (R87)] -/
  b : Tab Word
  /-- q0 to q3 [R66, R73 (03_core.md); 4 × 128; 0 (R87)] -/
  q : Tab Tile
  /-- v0 to v31, keyed 16·register + row [R66, R70 (03_core.md); 32 × 16 × 2048; 0 (R87)] -/
  v : Tab Row
  /-- k0 to k7, keyed 16·register + row [R66 (03_core.md); 8 × 1024; k0 ones, others 0 (R87)] -/
  k : Tab MaskRow
  /-- Accumulator tiles z0 to z3, keyed 128·tile + row [R66, R72 (03_core.md); 4 × 128 × 4096; 0 (R87)] -/
  z : Tab TileRow
  /-- SEQ.PC [R84, Table 3.6 (03_core.md); 13; entry index, DESIGN CHOICE 0 before a bind, log entry 1] -/
  pc : Nat
  /-- SEQ.DLY [R84, R138 (03_core.md, 05_scalar_and_control.md); 2; 0] -/
  dly : Nat
  /-- SEQ.TGT [R84, R138 (03_core.md, 05_scalar_and_control.md); 13; 0] -/
  tgt : Nat
  /-- SEQ.QN [R84, R73 (03_core.md); 2; 0] -/
  qn : Nat
  /-- Whether the last bundle and the one before it held a control transfer [R76 (03_core.md); 2 × 1; 0] -/
  ct1 : Bool
  ct2 : Bool
  /-- Bundles in the instruction store [R77 (03_core.md); 14; DESIGN CHOICE 0 before a bind, log entry 1] -/
  nbundles : Nat
  trap : TrapInfo
  /-- The next bundle issues with its X slot as NOP after SOFT or BREAK [R144 (05_scalar_and_control.md); 1; 0] -/
  xnop : Bool
  /-- FPFLAGS [R46, Table 2.4 (02_number_formats.md); 7; 0] -/
  fpflags : Flags
  /-- RNGKEY [R52, Table 2.6 (02_number_formats.md); 64; 0] -/
  rngkey : Word
  /-- RNGCTR [R52, Table 2.7 (02_number_formats.md); 64; 0] -/
  rngctr : Word
  /-- BUDGET; all ones is unlimited [R237 (10_context.md); 64; Table 10.7, DESIGN CHOICE 0 before a bind, log entry 1] -/
  budget : Nat
  /-- ECNT [R240 (10_context.md); 64; 0] -/
  ecnt : Nat
  /-- Wall ticks of residency not yet in ECNT: those after the wall tick of the last schedule tick [R240 (10_context.md); a number; 0] -/
  stat : Nat
  /-- Group identity registers 0x040 to 0x043 [R296 (13_group.md); 4 × 64; written at bind, DESIGN CHOICE 0, log entry 1] -/
  group : Tab Word
  /-- Time wait or barrier wait [R141, R300 (05_scalar_and_control.md, 14_barrier.md); a tick or an instance; none] -/
  wait : Option Wait
  /-- Tick at which EXIT issued in this launch, from which no later bundle issues [R145, R305 (05_scalar_and_control.md, 14_barrier.md); a tick; none] -/
  exit : Option Nat
  /-- First tick at which VA and VB accept an operation [R150 (06_vector_arithmetic.md); 2 ticks; 0] -/
  vaFree : Nat
  vbFree : Nat
  /-- Vector operations with rows still to read [R71, R82 (03_core.md); a list; empty] -/
  vops : List VOp
  /-- Results not yet landed, in issue order: the shadow latches at a freeze [R67, R82 (03_core.md); a list; empty] -/
  lands : List Land
  /-- Load queue, store queue and the other scratchpad accesses not yet performed [R124, R136 (05_scalar_and_control.md); a list; empty] -/
  reqs : List Req
  /-- Group number of the last MARK [R128 (05_scalar_and_control.md); a number; 0] -/
  markGrp : Nat
  /-- Highest last window tick of all accesses so far, of stores and AMOs, and of those before the last MARK: what M̂ of R217 is taken from [R217 (09_copy_streams.md); 3 ticks; 0] -/
  accHat : Nat
  stHat : Nat
  markHat : Nat
  /-- Highest latency bound of the operations issued so far [R145 (05_scalar_and_control.md); a tick; 0] -/
  bound : Nat
  /-- Ticks left to the windows of the requests that each bank of its scratchpad would still have to serve, had it been presented each at the first tick of its window, and those of
  its load queue and store queue, 0 and 1: the demand limit [R80, R125 (03_core.md, 05_scalar_and_control.md); ticks; empty] -/
  bankDemand : Tab (List Nat)
  queueDemand : Tab (List Nat)
  /-- Row path [R135 (05_scalar_and_control.md); a record; none] -/
  rowPath : Option RowPath
  /-- Perform ticks of the load queue and the store queue so far: the highest of each [R125; 2 ticks; 0] -/
  lastLd : Nat
  lastSt : Nat
  /-- Streams CA and CB [R204 (09_copy_streams.md); 2 shunters; empty] -/
  ca : Stream
  cb : Stream
  /-- Mailboxes of channels 0 to 15 [R204, R219 (09_copy_streams.md); messages; empty] -/
  mail : List Msg
  /-- Faults waiting for their hold tick [R225 (09_copy_streams.md); a list; empty] -/
  due : List DueTrap
  /-- Lease state: 0 NONE, 1 REQUESTED, 2 HELD, and the tick from which a request is eligible [R186 (08_matrix_unit.md); 2 bits and a tick; NONE] -/
  lease : Nat
  leaseFrom : Nat
  /-- MREL or EXIT withdraws at this tick's lease decision [R189 (08_matrix_unit.md); 1; 0] -/
  mrel : Bool
  /-- Shadow command set, by CREG [R193, R194 (08_matrix_unit.md); 25 × 32; Table 8.6] -/
  shadow : Tab Word
  /-- Accepted matrix commands not yet settled [R192 (08_matrix_unit.md); a list; empty] -/
  cmds : List Cmd
  /-- Arrivals made at each barrier scope, by scope key [R298 (14_barrier.md); numbers; 0] -/
  arrivals : Tab Nat
  /-- Late beats of the core's streams since bind [R226, Table 10.8 (09_copy_streams.md, 10_context.md); 32; 0] -/
  late : Nat
  /-- Ticks at which the core froze, in context time [R82, R246 (03_core.md, 10_context.md); a tick; 0] -/
  ftick : Nat
  /-- ECNT at the boundary where the core froze [R245, Table 10.8 (10_context.md); 64; 0] -/
  fecnt : Nat
  /-- Start tick of the launch in context time [R270 (11_queue.md); a tick; 0] -/
  start : Nat
  /-- Context tick of the bind: messages sent below it are not the binding's [R219 (09_copy_streams.md); a tick; 0] -/
  bindAt : Nat
  /-- Bundles whose operations are within their latency bounds or have accesses under way, each with its tick, its index and the latency bounds of its operations by slot, in
  16 bits each, 0 for one that was not carried out: the operations that a check may name [R61, R388 (02_number_formats.md, 19_core_health.md); a list; empty] -/
  issued : List (Nat × Nat × Nat)
  /-- Slots whose operation a check has found failing, each with its issue tick: what it has still to write is undefined [R61 (02_number_formats.md); a list; empty] -/
  spoilt : List (Nat × Nat)
  /-- Operations issued by the core so far, the order of results [MODEL; -; 0] -/
  seq : Nat
  /-- Accesses of other cores in the ticks that it re-runs alone after a halt [R247 (10_context.md); a list; empty] -/
  span : List Touch
  /-- Tick at which its re-run after a halt ends [R247 (10_context.md); a tick; 0] -/
  spanEnd : Nat
  /-- The registers at the start of the tick of the bundle under issue [MODEL; -; 0] -/
  iss : Issue
  deriving DecidableEq, Repr

/-! ## The matrix unit of a cluster (08_matrix_unit.md) -/

/-- The states of the unit (Table 8.3). -/
inductive UnitSt where
  | free | leased | turn
  deriving DecidableEq, Repr

/-- The matrix unit of one cluster, named by physical die and cluster index. -/
structure MUnit where
  /-- FREE, LEASED or TURN [R186 (08_matrix_unit.md); 2; FREE] -/
  st : UnitSt
  /-- Last holder h, LEASE.HOLDER [R186, R190 (08_matrix_unit.md); 2; 3] -/
  h : Nat
  /-- Grant tick g and lease end tick [R186, R188 (08_matrix_unit.md); 2 ticks; 0] -/
  g : Nat
  lend : Nat
  /-- Commands accepted in the lease, LEASE.CMDS [R190 (08_matrix_unit.md); 7; 0] -/
  cmds : Nat
  /-- Completion tick of the latest accepted command [R192 (08_matrix_unit.md); a tick; 0] -/
  clast : Nat
  /-- Command number and format of the latest accepted weight load [R195, R200 (08_matrix_unit.md); 7 and 4; none] -/
  wload : Option (Nat × Fmt)
  /-- Weight buffer: row k as 128 codes of 16 bits [R195 (08_matrix_unit.md); 128 × 128 elements; 0] -/
  wbuf : Tab Row
  /-- Active command set, by CREG [R193, R194 (08_matrix_unit.md); 25 × 32; Table 8.6] -/
  active : Tab Word
  /-- The tick after an MREL or EXIT of the holder: the lease ends at it or at the later completion of its last command [R188; a tick; none] -/
  relAt : Option Nat
  deriving DecidableEq, Repr

/-! ## Events of the machine -/

/-- The events that the machine makes happen by itself. Each but `operandRead`, `digestRead` and `startEnd` is the event of the instruction table with the same name. -/
inductive Ev where
  | bundleIssue (c : Nat)
  | resultLand (c : Nat)
  /-- The part of a tick of no instruction of its own in which stores and vector units read their operands (R71, R130). -/
  | operandRead (c : Nat)
  | waitEnd (c : Nat)
  | nxtDelivery (c : Nat)
  | bankAccessPerform (c : Nat)
  | holdTakesEffect (p : Nat)
  | holdResume (p : Nat)
  | stationmasterResume (p : Nat) (asid : Nat)
  | rateChangeEffect (p : Nat)
  | launchStart (p : Nat) (l : Nat)
  | coreExitTick (c : Nat)
  | launchRetire (p : Nat) (l : Nat)
  | leaseGrant (u : Nat)
  | leaseEnd (u : Nat)
  | leaseTurnEnd (u : Nat)
  | matrixCommandSwap (c : Nat)
  | matrixCommandComplete (c : Nat)
  | beatSourceRead (c : Nat) (st : Nat) (id : Nat) (b : Nat)
  | indexEntryRead (c : Nat) (st : Nat) (id : Nat) (n : Nat)
  | beatRelease (c : Nat) (st : Nat) (id : Nat) (b : Nat)
  | cplSourceRead (c : Nat) (st : Nat) (id : Nat) (b : Nat)
  | cplDestWrite (c : Nat) (st : Nat) (id : Nat) (b : Nat)
  | sendBeatRead (c : Nat) (st : Nat) (id : Nat) (b : Nat)
  | messageArrival (c : Nat) (st : Nat) (id : Nat)
  | lateBeatCheck (c : Nat) (st : Nat) (id : Nat) (b : Nat)
  | copyFault (c : Nat) (st : Nat) (id : Nat) (b : Nat) (cause : Nat) (info : Nat)
  | wportBeatConsume (c : Nat) (st : Nat) (b : Nat)
  | virtLookup (c : Nat) (st : Nat) (id : Nat) (b : Nat) (dst : Bool)
  | walkComplete (c : Nat) (st : Nat) (id : Nat) (b : Nat) (dst : Bool)
  | sealDescriptorCheck (c : Nat) (st : Nat) (id : Nat)
  | tbumpEffect (c : Nat) (st : Nat) (id : Nat)
  | tcommitEffect (c : Nat) (st : Nat) (id : Nat)
  | tdigEffect (c : Nat) (st : Nat) (id : Nat)
  | digestResult (p : Nat) (tid : Nat)
  /-- The part of a tick of no instruction of its own in which digest checks read a line each (R337). -/
  | digestRead (p : Nat)
  | krotEffect (c : Nat) (st : Nat) (id : Nat)
  | barrierComplete (p : Nat) (l : Nat) (scope : Nat) (n : Nat)
  | contextCreateComplete (p : Nat) (asid : Nat)
  | preemptBoundary (p : Nat) (asid : Nat)
  | saveCommit (p : Nat) (asid : Nat)
  | contextReissue (p : Nat) (asid : Nat)
  | teardownComplete (p : Nat) (asid : Nat)
  | contextScrubComplete (p : Nat) (asid : Nat)
  | partitionReset (p : Nat)
  | queueSelect (p : Nat) (q : Nat)
  | claimResolve (p : Nat)
  | graphKernelNode (p : Nat) (g : Nat)
  | graphCondNode (p : Nat) (g : Nat)
  | graphWhileNode (p : Nat) (g : Nat)
  | graphSwapNode (p : Nat) (g : Nat)
  | graphEndNode (p : Nat) (g : Nat)
  | assign (p : Nat) (rec : PageRecord)
  | release (p : Nat) (rec : PageRecord)
  | invalidate (p : Nat) (rec : PageRecord)
  | migrate (p : Nat) (rec : PageRecord)
  | migrationCopyStart (p : Nat)
  | copyEngineComplete (p : Nat)
  | shardDeadline (p : Nat) (i : Nat)
  | manifestRecheck (p : Nat)
  | circuitLit (e : Nat)
  | circuitDrainComplete (e : Nat)
  | peerTimeout (p : Nat) (i : Nat)
  | beatPresent (c : Nat) (st : Nat) (id : Nat) (b : Nat)
  | faultActionsComplete (p : Nat)
  | waitBudgetExhausted (c : Nat)
  | builtinTestComplete (die : Nat) (fn : Nat) (pass : Bool)
  /-- The end of the start step under way, of no instruction of its own: its step, unit and choice, and what the tries of this start meet (R408, R409). -/
  | startEnd (step unit choice : Nat) (fails : List BootTry)
  deriving DecidableEq, Repr

/-! ## Contexts (10_context.md) -/

/-- The states of Table 10.1. -/
inductive CtxSt where
  | free | creating | ready | active | halted | saved | teardown | scrubbing
  deriving DecidableEq, Repr

/-- A stop record (Table 10.8). -/
structure StopRec where
  core : Nat
  kind : Nat
  etick : Nat
  ftick : Nat
  trap : TrapInfo
  late : Nat
  ecnt : Nat
  budget : Nat
  /-- COPY: the record of Table 9.6 as beat, ipc, stream, prog, cause, itick, info. -/
  copy : Option DueTrap
  deriving DecidableEq, Repr

/-- An event record of the context: a trap or halt delivered to the guest driver (R239, R245, R389), or a copy fault found after
exit, with its core (R248). -/
structure EventRec where
  core : Nat
  trap : TrapInfo
  copy : Option DueTrap
  /-- The machine-check record that the event carries (R389). -/
  check : Option (BitVec 256)
  deriving DecidableEq, Repr

/-- A halt on its way or in effect (R243, R244): its hold tick and the cores whose own events it carries, with kind and tick. -/
structure Halt where
  h : Nat
  events : List (Nat × Nat × Nat)
  /-- The cores that it has frozen, once it has taken effect: their stop records are this halt's. -/
  cores : List Nat
  deriving DecidableEq, Repr

/-- An instance of a barrier scope that is OPEN or SET (Table 14.3). -/
structure Barrier where
  scope : Nat
  n : Nat
  /-- Members that have arrived, each with its arrival tick. -/
  arrived : List (Nat × Nat)
  /-- R once the instance is set, but for the copies that are open: core, stream and number of copies whose start an XMARK, or whose descriptor a check, is still to
  settle (R216, R217, R256, R303). -/
  r : Option Nat
  waits : List (Nat × Nat × Nat)
  /-- It has completed: kept until the next of its scope completes, for members that re-run ticks before R (R247, R304). -/
  over' : Bool
  deriving DecidableEq, Repr

/-- A launch that is BOUND or RUNNING (Table 12.3). -/
structure Launch where
  running : Bool
  asid : Nat
  image : Nat
  /-- Origin and size of the rectangle [R288]. -/
  gx0 : Nat
  gy0 : Nat
  gw : Nat
  gh : Nat
  /-- START in partition time [R270]. -/
  start : Nat
  queue : Nat
  prio : Nat
  index : Nat
  tag : Nat
  /-- The graph run that it belongs to. -/
  graph : Option Nat
  /-- Lateness policy of the launch: STRICT [R236]. -/
  strict : Bool
  /-- Measurement of its kernel [R257, R273]. -/
  meas : Digest
  /-- Dispenser: TILESX, TILESY, ORDER and the counter n [R280]. -/
  tilesx : Nat
  tilesy : Nat
  order : Nat
  tile : Nat
  /-- Members by rank, as core keys [R290]. -/
  members : List Nat
  bars : List Barrier
  /-- Lines of device memory that its cores have read or written, by key / 64, with whether one has written it [R285, R319]. -/
  met : Tab Bool
  /-- Accesses to device memory of agents of no domain, the host and the stationmasters, that nothing orders with it: key of the byte, and whether it was written
  [R312, R319]. -/
  host : List (Nat × Bool)
  /-- QBASE and N of its queue at the record's selection tick [R261]. -/
  base : Nat
  log2n : Nat
  deriving DecidableEq, Repr

/-- A context (R229). -/
structure Ctx where
  /-- CCB.STATE [R229, R231 (10_context.md); 8; FREE] -/
  st : CtxSt
  /-- CCB.CTOFF [R235, R231 (10_context.md); 64; 0] -/
  ctoff : Nat
  /-- Address of the CCB [R232 (10_context.md); 64; given by CREATE] -/
  ccb : Nat
  /-- CCB.SDOM as read at CREATE [R231, R234 (10_context.md); 64; read at CREATE] -/
  sdom : Nat
  /-- Sealing key [R234 (10_context.md); 256; derived at CREATE] -/
  sealKey : BitVec 256
  /-- CCB.LATE as last read: 1 STRICT [R231, R236 (10_context.md); 8; read at CREATE] -/
  strict : Bool
  /-- CCB.REFILL as last read [R231, R239 (10_context.md); 64; read at CREATE] -/
  refill : Nat
  /-- CCB.RCOUNT [R231, R239 (10_context.md); 16; read at CREATE] -/
  rcount : Nat
  /-- CCB.SAVETID [R231, R251 (10_context.md); 32; read at CREATE] -/
  savetid : Nat
  /-- CCB.EVRING [R231 (10_context.md); 64; read at CREATE] -/
  evring : Nat
  /-- CCB.ENERGY [R231, R242 (10_context.md); 48 and its saturation bit; 0] -/
  energy : Nat
  /-- Created protected [Table 10.3 (10_context.md), R407 (20_host_and_boot.md); 1; given by CREATE] -/
  prot : Bool
  /-- TAG of the command whose completion is still to be written [Table 10.3 (10_context.md); 64; given by the record] -/
  tag : Nat
  /-- Event records appended to the event ring [R239, R248 (10_context.md); records; empty] -/
  events : List EventRec
  /-- Stop records by core key [R245 (10_context.md); 512 each; none] -/
  stops : Tab StopRec
  /-- Core records saved by a pre-emption: the core blocks of the save area [R250, R251 (10_context.md); core blocks; none] -/
  saved : Tab Core
  /-- Matrix units saved by a pre-emption [R250 (10_context.md); unit records; none] -/
  savedUnits : Tab MUnit
  /-- Scratchpads saved by a pre-emption, keyed by core address [R250, R251 (10_context.md); bytes; none] -/
  savedMem : List Host.Cell
  /-- Launches saved by a pre-emption, with their dispensers and barriers: the context header [R251, R282, R307 (10_context.md, 12_kernel.md, 14_barrier.md); launches; none] -/
  savedLaunches : Tab Launch
  /-- Events of wall time under way for the streams saved, raised again when they are restored [MODEL; -; empty] -/
  savedEvents : List Ev
  /-- Version under which the save area was committed [R250, R251 (10_context.md); 32; 0] -/
  saveVer : Nat
  /-- Halt under way or in effect [R243 (10_context.md); a record; none] -/
  halt : Option Halt
  /-- Pre-emption armed: acceptance tick, and whether a YIELD has issued since [R249, R146 (10_context.md, 05_scalar_and_control.md); a tick and 1; none] -/
  armed : Option Nat
  yielded : Bool
  /-- The boundary b has been taken [R249 (10_context.md); a tick; none] -/
  boundary : Option Nat
  /-- Partition tick P of an accepted resume [R246 (10_context.md); a tick; none] -/
  resumeP : Option Nat
  /-- An agent has written the save area while the context was HALTED or SAVED: its next resume fails [R251 (10_context.md); 1; 0] -/
  spoiled : Bool
  /-- Cores that its launches have held: what a scrub zeroes [R254 (10_context.md); cores; none] -/
  cores : List Nat
  /-- Functions, by die, that its machine checks have found failing: what its scrub tests [R391 (19_core_health.md); locations; none] -/
  suspects : List (Nat × Nat)
  /-- Late-event counter [R226 (09_copy_streams.md); a number; 0] -/
  lateEvents : Nat
  /-- Cores whose meter has saturated in an earlier launch of the context: their SAT stays set [R240, Table 10.6 (10_context.md); cores; none] -/
  sats : List Nat
  /-- Measurement log: digests of sealed kernels and shards [R273, R403 (12_kernel.md, 20_host_and_boot.md); digests; empty] -/
  log : List Digest
  deriving DecidableEq, Repr

/-! ## Launches, queues, kernels, groups and barriers (11 to 14) -/

/-- The states of Table 11.3. -/
inductive QueueSt where
  | off | empty | ready | selected | draining | faulted
  deriving DecidableEq, Repr

/-- A claim that waits for its claim tick (R266): the launch it asks for. -/
structure Claim where
  at' : Nat
  prio : Nat
  queue : Nat
  index : Nat
  tag : Nat
  asid : Nat
  image : Nat
  arg : Nat
  earliest : Nat
  any : Bool
  gw : Nat
  gh : Nat
  gx0 : Nat
  gy0 : Nat
  graph : Option Nat
  /-- QBASE and N of the queue at the record's selection tick (R261). -/
  base : Nat
  log2n : Nat
  deriving DecidableEq, Repr

/-- The registers of a queue that software writes, and its state, as a selection reads them (R262). -/
structure QueueRegs where
  base : Nat
  asid : Nat
  log2n : Nat
  prio : Nat
  tail : Nat
  st : QueueSt
  deriving DecidableEq, Repr

/-- The registers of one queue (R260). -/
structure Queue where
  /-- QBASE [R260 (11_queue.md); 64; 0] -/
  base : Nat
  /-- QCFG.ASID [Table 11.1 (11_queue.md); 12; 0] -/
  asid : Nat
  /-- QCFG.LOG2N [Table 11.1 (11_queue.md); 5; 4] -/
  log2n : Nat
  /-- QCFG.EN [Table 11.1 (11_queue.md); 1; 0] -/
  en : Bool
  /-- QCFG.PRIO [Table 11.1 (11_queue.md); 4; 0] -/
  prio : Nat
  /-- QTAIL [R261 (11_queue.md); 16; 0] -/
  tail : Nat
  /-- QHEAD [R261 (11_queue.md); 16; 0] -/
  head : Nat
  /-- QSTAT.STATE [R262, Table 11.2 (11_queue.md); 3; OFF] -/
  st : QueueSt
  /-- QSTAT.LOSS [Table 11.2 (11_queue.md); 16; 0] -/
  loss : Nat
  /-- QSTAT.MOVES [Table 11.2 (11_queue.md); 16; 0] -/
  moves : Nat
  /-- QSTAT.ERR [Table 11.2 (11_queue.md); 8; 0] -/
  err : Nat
  /-- QSTAT.LDR [Table 11.2 (11_queue.md); 3; 0] -/
  ldr : Nat
  /-- Host accesses since its oldest record that is not consumed was published: key of the byte, whether it was written, and QTAIL then [R319 (15_ordering.md); a list; empty] -/
  host : List (Nat × Bool × Nat)
  /-- What stood at the start of the tick of the last write, and that tick: a selection of the tick reads this [R262 (11_queue.md); registers and a tick; none] -/
  was : QueueRegs
  wrAt : Option Nat
  deriving DecidableEq, Repr

/-- A kernel-table entry (Table 12.1). -/
structure KernelEntry where
  /-- IMAGE [Table 12.1 (12_kernel.md); 64; 0] -/
  image : Nat
  /-- ASID [Table 12.1 (12_kernel.md); 16; 0] -/
  asid : Nat
  /-- M [Table 12.1, R273 (12_kernel.md); 384; 0] -/
  meas : Digest
  deriving DecidableEq, Repr

/-- What a graph run waits for at its present node (R284). -/
inductive GraphSt where
  /-- The node is reached at the context tick given by `at'`. -/
  | reached | claiming | launched | swapping
  deriving DecidableEq, Repr

/-- A timetable graph being followed (R284). -/
structure Graph where
  asid : Nat
  queue : Nat
  prio : Nat
  index : Nat
  tag : Nat
  /-- Present node and the context tick at which it was reached. -/
  node : Nat
  at' : Nat
  st : GraphSt
  /-- Iteration counts of WHILE nodes, by node. -/
  iters : Tab Nat
  /-- COND, WHILE and SWAP nodes reached since the last KERNEL node (R286). -/
  row : Nat
  /-- Claim ticks that a SWAP node has waited. -/
  waited : Nat
  /-- NEXT of the present kernel node or swap node, and OBJ, VAL and LIMIT of the latter, as read when it was reached (R283). -/
  next : Nat
  obj : Nat
  val : Nat
  limit : Nat
  /-- QBASE and N of its queue at the record's selection tick (R261). -/
  base : Nat
  log2n : Nat
  /-- START of the first kernel node. -/
  first : Option Nat
  /-- Host accesses since the record was published, and the lines met by launches of the run that have retired [R319]. -/
  host : List (Nat × Bool)
  met : List (Tab Bool)
  deriving DecidableEq, Repr

/-! ## Tensors and pages (16_tensor.md, 17_page.md) -/

/-- The states of Table 16.4. -/
inductive TensorSt where
  | invalid | empty | closed | opened | torn | erased
  deriving DecidableEq, Repr

/-- A version record (Table 16.3). -/
structure VRec where
  /-- STATE [R326, Table 16.3 (16_tensor.md); 3; INVALID] -/
  st : TensorSt
  /-- TID [Table 16.3 (16_tensor.md); 32; 0] -/
  tid : Nat
  /-- ASID [Table 16.3 (16_tensor.md); 12; 0] -/
  asid : Nat
  /-- VER [Table 16.3 (16_tensor.md); 32; 0] -/
  ver : Nat
  /-- EVER [Table 16.3 (16_tensor.md); 32; 0] -/
  ever : Nat
  /-- NEXT [Table 16.3 (16_tensor.md); 32; 0] -/
  next : Nat
  /-- COV [Table 16.3 (16_tensor.md); 40; 0] -/
  cov : Nat
  /-- KGEN [Table 16.3 (16_tensor.md); 16; 0] -/
  kgen : Nat
  /-- EGEN [Table 16.3 (16_tensor.md); 16; 0] -/
  egen : Nat
  /-- DIGOK [Table 16.3 (16_tensor.md); 1; 0] -/
  digok : Bool
  /-- PSN [Table 16.3 (16_tensor.md); 1; 0] -/
  psn : Bool
  /-- Partition whose tenant owns the record [R326; 3; 0] -/
  part : Nat
  /-- Issue ticks of TCOMMITs whose effect is to come: the count is frozen at them [R333 (16_tensor.md); ticks; none] -/
  frozen : List Nat
  deriving DecidableEq, Repr

/-- What a line of HBM was written under (R330, R331, R353): a tensor id with version and generation, or a paged line
(tid 2^32 − 1, ver the EPOCH); bad is the sideband mark of an uncorrectable error (R363). -/
structure Stamp where
  tid : Nat
  ver : Nat
  gen : Nat
  /-- Line number and device address that the keystream and the tag take (R330, R331); 0 for a paged line, which stands where it was written. -/
  n : Nat
  addr : Nat
  bad : Bool
  deriving DecidableEq, Repr

/-- A tensor whose lines have been written whole by a save (R250): every line without a stamp of its own stands under this one, but for
those in `except` (granules by ownership key, lines by `exceptKey`). -/
structure Cover where
  part : Nat
  bind : RangeBind
  stamp : Stamp
  except : List Nat
  /-- Number of the save, which names the free bytes of its opaque areas. -/
  num : Nat
  deriving DecidableEq, Repr

/-- An ownership entry (Table 17.4). -/
structure Own where
  /-- V [Table 17.4 (17_page.md); 1; 0] -/
  v : Bool
  /-- ASID [Table 17.4 (17_page.md); 12; 0] -/
  asid : Nat
  /-- CODE [Table 17.4 (17_page.md); 1; 0] -/
  code : Bool
  /-- HOST [Table 17.4 (17_page.md); 1; 0] -/
  host : Bool
  /-- CKP [Table 17.4 (17_page.md); 1; 0] -/
  ckp : Bool
  /-- PT [Table 17.4 (17_page.md); 1; 0] -/
  pt : Bool
  /-- SID [Table 17.4 (17_page.md); 1; 0] -/
  sid : Bool
  /-- EPOCH [Table 17.4 (17_page.md); 16; 0] -/
  epoch : Nat
  /-- PGEN [Table 17.4 (17_page.md); 16; 0] -/
  pgen : Nat
  /-- UNUSABLE, Table 17.12 [R359, R393 (17_page.md, 19_core_health.md); 1; 0] -/
  unusable : Bool
  deriving DecidableEq, Repr

/-- A page command on its way (R357): 1 ASSIGN, 2 RELEASE, 3 INVALIDATE, 4 MIGRATE, with its effect tick. -/
structure PageCmd where
  cmd : Nat
  record : PageRecord
  at' : Nat
  deriving DecidableEq, Repr

/-- A migration in progress (R358). -/
structure Migration where
  asid : Nat
  va : Nat
  size : Nat
  /-- Leaf entry: memory key of its first byte. -/
  pte : Nat
  src : TlbEntry
  dst : Nat
  dstStation : Bool
  dstHashed : Bool
  dstHome : Nat
  /-- Effect tick x, and whether the engine has begun to copy. -/
  x : Nat
  copying : Bool
  /-- Lookups that wait in the siding: core, stream, copy, beat, and whether the end is a destination. -/
  waiting : List (Nat × Nat × Nat × Nat × Bool)
  deriving DecidableEq, Repr

/-- A shard manifest being loaded or kept (R340 to R344). -/
structure Manifest where
  /-- Manifest BASE [Table 16.6 (16_tensor.md); 64; 0] -/
  base : Nat
  /-- Manifest ASID [Table 16.6 (16_tensor.md); 12; 0] -/
  asid : Nat
  /-- STATE: 0 IDLE, 1 LOADING, 2 DONE, 3 FAILED [Table 16.6 (16_tensor.md); 2; 0] -/
  st : Nat
  /-- RETRIES [Table 16.6 (16_tensor.md); 16; 0] -/
  retries : Nat
  /-- POISON [Table 16.6 (16_tensor.md); 16; 0] -/
  poison : Nat
  /-- FIRSTBAD [Table 16.6 (16_tensor.md); 16; 0] -/
  firstbad : Nat
  /-- Context of the load that STATE reports: the ASID field as GO was written [R340; 12; 0] -/
  cur : Nat
  /-- Entries of the package still to be loaded, each with the context of its manifest, and the attempts made for each since the load began, keyed
  4,096·ASID + entry [R342, R343; lists; empty] -/
  todo : List (Nat × Nat)
  tries : Tab Nat
  /-- Base addresses of the manifests loaded, by ASID: what checks and re-checks go by [R337, R340, R344; a table; empty] -/
  loaded : Tab Nat
  /-- Entries of the load whose DEADLINE has come, each with the context of its manifest: a deadline fails a shard once [R343 (16_tensor.md); a list; empty] -/
  late : List (Nat × Nat)
  deriving DecidableEq, Repr

/-- A digest check under way (R337): the tensor, the tick of its context of its first line and of its result, and the plaintext read so far, when every line
could be read. -/
structure DigestCheck where
  bind : RangeBind
  asid : Nat
  from' : Nat
  at' : Nat
  bytes : List Byte
  ok : Bool
  /-- The manifest entry that the check is for, as base and number; none for the one that its tensor has as the check ends. -/
  entry : Option (Nat × Nat)
  deriving DecidableEq, Repr

/-! ## Links, health, host and start (18 to 20) -/

/-- The states of links (Table 18.3). -/
inductive LinkSt where
  | reset | training | active | faulted
  | free | setting | up | degraded | failed | draining
  | down
  deriving DecidableEq, Repr

/-- A points-table entry (Table 18.4) with its counters (Table 18.5). -/
structure Circuit where
  /-- EN [Table 18.4 (18_link.md); 1; 0] -/
  en : Bool
  /-- STATE [Table 18.4 (18_link.md); 3; FREE] -/
  st : LinkSt
  /-- PART [Table 18.4 (18_link.md); 3; 0] -/
  part : Nat
  /-- DKIND [Table 18.4 (18_link.md); 1; 0] -/
  toPort : Bool
  /-- DST [Table 18.4 (18_link.md); 4; 0] -/
  dst : Nat
  /-- SRC [Table 18.4 (18_link.md); 3; 0] -/
  src : Nat
  /-- NWL [Table 18.4 (18_link.md); 8; 0] -/
  nwl : Nat
  /-- ACT [Table 18.4 (18_link.md); 8; 0] -/
  act : Nat
  /-- Setup count [R369 (18_link.md); 32; 0] -/
  setups : Nat
  /-- REPLAY [Table 18.5 (18_link.md); 32; 0] -/
  replay : Nat
  /-- TAGF [Table 18.5 (18_link.md); 16; 0] -/
  tagf : Nat
  /-- DISC [Table 18.5 (18_link.md); 16; 0] -/
  disc : Nat
  deriving DecidableEq, Repr

/-- The receiving end of a lane (R368 to R371): next SEQ, failures in a row, and the generation of its key. -/
structure Lane' where
  seq : Nat
  fails : Nat
  gen : Nat
  deriving DecidableEq, Repr

/-- A peer entry (Table 18.7). -/
structure Peer where
  /-- PKG [Table 18.7 (18_link.md); 10; 0] -/
  pkg : Nat
  /-- RPART [Table 18.7 (18_link.md); 3; 0] -/
  rpart : Nat
  /-- PORT [Table 18.7 (18_link.md); 4; 0] -/
  port : Nat
  /-- RTID [Table 18.7 (18_link.md); 32; 0] -/
  rtid : Nat
  /-- LIMIT [Table 18.7 (18_link.md); 64; 0] -/
  limit : Nat
  /-- ASID [Table 18.7 (18_link.md); 16; 0] -/
  asid : Nat
  /-- ROLE: responder [Table 18.7 (18_link.md); 1; 0] -/
  responder : Bool
  /-- STATE: 0 CLOSED, 1 OFFERED, 2 KEYED, 3 OPEN, 4 FAILED [Table 18.7 (18_link.md); 8; 0] -/
  st : Nat
  /-- WHY [Table 18.7 (18_link.md); 8; 0] -/
  why : Nat
  /-- EXPECT [Table 18.7 (18_link.md); 384; 0] -/
  expect : Digest
  /-- Lane keys, initiator to responder and back, while KEYED or OPEN [R382 (18_link.md); 2 × 256; none] -/
  keys : Option (BitVec 256 × BitVec 256)
  /-- Transcript of the handshake so far [R382; digests; empty] -/
  init : Option PeerMsg
  resp : Option PeerMsg
  /-- Wall tick of the last handshake step [R383; 64; 0] -/
  stepAt : Nat
  deriving DecidableEq, Repr

/-- A control message sent on the package lane of a port: kind (1 INIT, 2 RESP, 3 FIN, 4 close), peer entry, and its payload, which goes as control flits of 64 bytes each
from the SEQ that it takes on its lane (Table 18.8). -/
structure Sent where
  kind : Nat
  part : Nat
  peer : Nat
  port : Nat
  seq : Nat
  body : List Byte
  deriving DecidableEq, Repr

/-- The TDISP states of R399. -/
inductive TdispSt where
  | configUnlocked | configLocked | run | error
  deriving DecidableEq, Repr

/-- The SPDM responder of one function (R403): how far its session has come. -/
structure Spdm where
  /-- Negotiation: 0 none, 1 version, 2 capabilities, 3 algorithms [R403 (20_host_and_boot.md); 2; 0] -/
  phase : Nat
  /-- Session: 0 none, 1 handshake, 2 open [R400, R403 (20_host_and_boot.md); 2; 0] -/
  session : Nat
  /-- Session id [R403; 32; 0] -/
  sid : Nat
  /-- Key updates of the session [R403; a number; 0] -/
  updates : Nat
  /-- The last response: its request's name and its contents as words [R403; words; none] -/
  reply : Option (String × List Nat)
  /-- Both signatures of the last response, Ed25519 and ML-DSA-65, over the digest of its transcript [R401, R403; 2; none] -/
  signed : Option (Nat × Nat)
  deriving DecidableEq, Repr

/-- A physical die. -/
structure Die where
  /-- State of the die attach [R372, Table 18.3 (18_link.md); Table 18.3; RESET] -/
  attach : LinkSt
  /-- The die is in reset [R265 (11_queue.md); 1; 1 until the start steps have passed it] -/
  inReset : Bool
  /-- Left out by the start steps [R409 (20_host_and_boot.md); 1; 0] -/
  leftOut : Bool
  /-- Thermal rate request in the last completed window [R19, R265, R411 (20_host_and_boot.md); 1; 0] -/
  thermal : Bool
  /-- WLSTAT.FENW [Table 18.6 (18_link.md); 64; 0] -/
  fenw : Nat
  /-- WLSTAT.USED [Table 18.6 (18_link.md); 8; 0] -/
  wlUsed : Nat
  /-- WLSTAT.FENS [Table 18.6 (18_link.md); 8; 0] -/
  fens : Nat
  /-- MCLOG by entry, and the entry written last [R388, Table 19.1 (19_core_health.md); 256 × 256; empty, DESIGN CHOICE 255 for the last entry, log entry 1] -/
  mclog : Tab (BitVec 256)
  mclast : Nat
  /-- Event counts of functions since power-up [R391 (19_core_health.md); numbers; 0] -/
  counts : Tab Nat
  /-- Corrected errors of SRAM rows since power-up, or since the row was remapped [R393 (19_core_health.md); numbers; 0] -/
  soft : Tab Nat
  /-- Fenced functions [R391, Table 19.2 (19_core_health.md); locations; none] -/
  fences : List Nat
  /-- Fences asked to be re-tested at the next partition reset [R396 (19_core_health.md); locations; none] -/
  retest : List Nat
  /-- Marked SRAM rows [R393 (19_core_health.md); locations; none] -/
  marked : List Nat
  /-- Spare rows of SRAM in use, by bank or row group [R393, Table 19.2 (19_core_health.md); numbers; 0] -/
  rowSpares : Tab Nat
  /-- RES [Table 19.3 (19_core_health.md); 32; 0] -/
  res : Nat
  /-- UE [Table 19.3 (19_core_health.md); 32; 0] -/
  ue : Nat
  /-- SCE [Table 19.3 (19_core_health.md); 32; 0] -/
  sce : Nat
  /-- MCE [Table 19.3 (19_core_health.md); 32; 0] -/
  mce : Nat
  /-- MSPARE [Table 19.3 (19_core_health.md); 8; 0] -/
  mspare : Nat
  /-- UNREP [Table 19.3 (19_core_health.md); 16; 0] -/
  unrep : Nat
  /-- SHIFT [Table 19.3 (19_core_health.md); 16; 0] -/
  shift : Nat
  /-- LSPARE [Table 19.3 (19_core_health.md); 16; 0] -/
  lspare : Nat
  /-- Stack tree key of R327 [Table 20.2 (20_host_and_boot.md); 256; drawn at each power-up, DESIGN CHOICE 0 before the start steps, log entry 1] -/
  treeKey : BitVec 256
  /-- Slots of version records whose path to the root has failed its check [R327 (16_tensor.md); slots; none] -/
  broken : List Nat
  /-- Granules that the patrol engine has passed, by the wall time of its last read [R364 (17_page.md); numbers; 0] -/
  patrol : Nat
  deriving DecidableEq, Repr

/-- Error history of a pseudo-channel (Table 17.9). -/
structure EccHist where
  /-- CE [Table 17.9 (17_page.md); 32; 0] -/
  ce : Nat
  /-- UE [Table 17.9 (17_page.md); 16; 0] -/
  ue : Nat
  /-- SRC [Table 17.9 (17_page.md); 2; 0] -/
  src : Nat
  /-- KIND [Table 17.9 (17_page.md); 2; 0] -/
  kind : Nat
  /-- LINE [Table 17.9 (17_page.md); 30; 0] -/
  line : Nat
  deriving DecidableEq, Repr

/-- What a check of the hardware finds (R327, R387 to R392): KIND 0 a corrected word, 1 a residue mismatch, 2 an uncorrectable word that an
operation reads, 3 one that none reads, 4 a version record whose path to the root fails, by the slot in its location, 5 a corrected error of an HBM line that the
reader `slot` has met, in the numbers of SRC, 6 an uncorrectable one, which its next reader meets (R363); the failing operation as Table 19.1 records
it but for the slot word, and the SRAM row or the HBM line by its location. -/
structure Check where
  kind : Nat
  core : Nat
  pc : Nat
  slot : Nat
  row : Nat
  col : Nat
  unit : Nat
  exp : Nat
  obs : Nat
  addr : Nat
  loc : Nat
  deriving DecidableEq, Repr

/-- A step-journal record (R409). -/
structure Journal where
  seq : Nat
  step : Nat
  unit : Nat
  choice : Nat
  result : Nat
  deriving DecidableEq, Repr

/-! ## Partitions and time (01_package_and_time.md) -/

/-- A beat that a peer package sent, waiting for its release tick (R27, R212, R381). -/
structure Inbound where
  /-- `tick` is the partition tick of its release. -/
  id : Nat
  peer : Nat
  tid : Nat
  off : Nat
  tick : Nat
  data : Beat
  /-- EVER of the tensor as the beat arrived: the epoch that it is a write of (R333). -/
  ever : Nat
  /-- SEQ of its flit. No field of a flit names the core that sent it, so two beats of one peer count as two agents (R316, R320; log entry 41). -/
  src : Nat
  /-- TICK of its flit, the wall deadline: a refusal names the beat by it (R381). -/
  wall : Nat
  deriving DecidableEq, Repr

/-- A hold request (R28, R29). -/
structure HoldReq where
  cause : Nat
  /-- Its hold tick e + 192, in partition time. -/
  h : Nat
  cleared : Bool
  /-- Who raised it, so that its clearing finds it: core, stream, copy and beat, or 0. -/
  tag : Nat
  deriving DecidableEq, Repr

/-- A beat for a peer package that waits at a port for a slot (R379): the circuit and the peer entry, and the beat of its copy. -/
structure OutBeat where
  circuit : Nat
  part : Nat
  peer : Nat
  core : Nat
  st : Nat
  id : Nat
  b : Nat
  off : Nat
  tick : Nat
  data : Beat
  deriving DecidableEq, Repr

/-- A partition. -/
structure Part where
  /-- Physical die of each die index [R4 (00_scope.md); up to 8; assigned at creation] -/
  dies : List Nat
  /-- STIME of the partition: the schedule tick whose bundles issue next or are issuing [R24 (01_package_and_time.md); 64; 0] -/
  stime : Nat
  /-- SRATE.CUR [R26, Table 1.7 (01_package_and_time.md); 5; 16] -/
  rate : Nat
  /-- SRATE.NEXT [R26, Table 1.7 (01_package_and_time.md); 5; 16] -/
  next : Nat
  /-- SRATE.PEND, with the tick at which the change takes effect [R31 (01_package_and_time.md); 1; 0] -/
  pend : Option Nat
  /-- SRATE.OVER [R19, Table 1.7 (01_package_and_time.md); 1; 0] -/
  overLimit : Bool
  /-- Tick T0 and wall tick W0 at which the step or the last resume took effect [R26 (01_package_and_time.md); 2 × 64; 0] -/
  t0 : Nat
  w0 : Nat
  /-- Power limit in watts, as the host driver has set it [R19 (01_package_and_time.md); a number; 300 for each die] -/
  limit : Nat
  /-- Consecutive windows below 95 % of the limit [R19 (01_package_and_time.md); a number; 0] -/
  calm : Nat
  /-- Power events raised to the stationmaster [R19 (01_package_and_time.md); a number; 0] -/
  powerEvents : Nat
  /-- The partition holds [R28 (01_package_and_time.md); 1; 0] -/
  held : Bool
  /-- Causes of the present hold that have not cleared [R30 (01_package_and_time.md); causes 1 to 6; none] -/
  causes : List HoldReq
  /-- Requests whose hold tick lies ahead [R28 (01_package_and_time.md); a list; empty] -/
  reqs : List HoldReq
  /-- Wall tick of the resume [R30 (01_package_and_time.md); 64; none] -/
  resumeAt : Option Nat
  /-- HOLDINFO.COUNT [Table 1.9 (01_package_and_time.md); 32; 0] -/
  holdCount : Nat
  /-- HOLDINFO.WDRN [Table 1.9 (01_package_and_time.md); 16; 0] -/
  holdWdrn : Nat
  /-- HOLDINFO.LAST [Table 1.9 (01_package_and_time.md); 4; 0] -/
  holdLast : Nat
  /-- Contexts by ASID [R229, R233 (10_context.md); up to 4,096; none] -/
  ctxs : Tab Ctx
  /-- First ASID and size of the pool [R233 (10_context.md); 2 × 12; fixed at creation] -/
  pool0 : Nat
  poolN : Nat
  /-- Completions of the context command ring, as written [R232 (10_context.md); 128 each; empty] -/
  ctxDone : List (BitVec 128)
  /-- Launches that are bound or running, by number [R278 (12_kernel.md); a table; none] -/
  launches : Tab Launch
  /-- Launches numbered so far [MODEL; -; 0] -/
  nextLaunch : Nat
  /-- Queues 0 to 255 [R260 (11_queue.md); 256; OFF] -/
  queues : Tab Queue
  /-- Claims not resolved [R266, R284 (11_queue.md, 12_kernel.md); a list; empty] -/
  claims : List Claim
  /-- What launches have met whose completions the host has not read: address of the completion, context, and lines [R319 (15_ordering.md); a list; empty] -/
  unread : List (Nat × Nat × List (Tab Bool))
  /-- Bytes that the host has written since its last read of the function: no launch published from now on is ordered after them [R319 (15_ordering.md); keys; empty] -/
  unflushed : List Nat
  /-- RR of each priority: the queue that last won [R268 (11_queue.md); 16 × 8; 255] -/
  rr : Tab Nat
  /-- Slot table rows, 32 bytes each, STATE read from the core [R269, Table 11.6 (11_queue.md); 2,048 × 256; 0] -/
  slots : Tab (BitVec 256)
  /-- Kernel table [R273, Table 12.1 (12_kernel.md); 256 entries; invalid] -/
  kernels : Tab KernelEntry
  /-- TTBASE.BASE and LOG2E [R283, Table 12.6 (12_kernel.md); 64; 0] -/
  ttbase : Nat
  ttlog : Nat
  /-- Graphs being followed, by number [R284 (12_kernel.md); a table; none] -/
  graphs : Tab Graph
  /-- Dies that the host driver is draining [R265, R271 (11_queue.md); 8; none] -/
  draining : List Nat
  /-- TNBASE.BASE and LOG2N [R322, Table 16.1 (16_tensor.md); 64; 0] -/
  tnbase : Nat
  tnlog : Nat
  /-- Current key generation of the tenant [R338 (16_tensor.md); 16; 1] -/
  gen : Nat
  /-- Turns taken by the circuits between two dies, keyed 8·die + die [R375 (18_link.md); numbers; 0] -/
  turns : Tab Nat
  /-- Tick of the last rotation: the KROTs of one tick make one [R338 (16_tensor.md); a tick; none] -/
  rotated : Option Nat
  /-- Version records as they stood at the start of the last claim tick: what swap barriers read in it [R310 (14_barrier.md); records; none] -/
  recs0 : Tab VRec
  /-- Tenant key secret, as the draw of Adsal's generator that made it [Table 20.2 (20_host_and_boot.md); 256; drawn at creation] -/
  secret : BitVec 256
  manifest : Manifest
  /-- Digest checks in progress [R337 (16_tensor.md); a list; empty] -/
  digests : List DigestCheck
  /-- PTROOT entries by ASID [R348, Table 17.2 (17_page.md); 4,096 × 64; 0] -/
  ptroot : Tab Word
  /-- Page commands written and not yet effective; PGSTAT.BUSY [R357, Table 17.6 (17_page.md); 1 and the record; none] -/
  pgcmd : Option PageCmd
  /-- PGSTAT.CODE [Table 17.6 (17_page.md); 8; 0] -/
  pgcode : Nat
  /-- PGSTAT.HREF [Table 17.6 (17_page.md); 16; 0] -/
  href : Nat
  migration : Option Migration
  /-- Request counters PLOC, PREM, HLOC and HREM of die d, keyed 4·d and on [R360, Table 17.8 (17_page.md); 8 × 4 × 64; 0] -/
  reqCount : Tab Nat
  /-- Peer entries 1 to 30 [R380, Table 18.7 (18_link.md); 30 × 128 bytes; 0] -/
  peers : Tab Peer
  /-- Beats of peers before their release ticks [R212, R381 (09_copy_streams.md, 18_link.md); a list; empty] -/
  inbound : List Inbound
  /-- Schedule ticks to which the wall deadlines of peers' beats that are still on their way have been converted, by flit [R27, R320 (01_package_and_time.md); ticks; none] -/
  awaited : List (Nat × Nat)
  /-- TDISP state of the VF [R399 (20_host_and_boot.md); 4 states; CONFIG_UNLOCKED] -/
  tdisp : TdispSt
  /-- The selective IDE stream carries traffic [R399, R400 (20_host_and_boot.md); 1; 0] -/
  ide : Bool
  /-- TENANTID [R402 (20_host_and_boot.md); 384; 0] -/
  tenantid : Nat
  /-- TENANTID has been written since the last function-level reset [R402 (20_host_and_boot.md); 1; 0] -/
  tenantSet : Bool
  /-- MSEL [R403 (20_host_and_boot.md); 12; 0] -/
  msel : Nat
  /-- DBGCTL.STATE: UNLOCKED [R405, Table 20.4 (20_host_and_boot.md); 1; 0] -/
  unlocked : Bool
  /-- DBGCTL.STAT [Table 20.4 (20_host_and_boot.md); 4; 0] -/
  dbgstat : Nat
  /-- DBGCTL.NONCE [Table 20.4 (20_host_and_boot.md); 32; random at creation] -/
  nonce : Nat
  /-- Data returned by the last host DMA read [R356; bytes; empty] -/
  dmaOut : List Byte
  /-- The host driver has destroyed the partition, and its teardowns are not complete [R271, R399 (11_queue.md, 20_host_and_boot.md); 1; 0] -/
  destroying : Bool
  /-- A function-level reset has been accepted and its teardowns are not complete [R384, R427; 1; 0] -/
  resetting : Bool
  deriving DecidableEq, Repr

/-- TSYNC and the servo (R21 to R23). -/
inductive ServoSt where
  | free | acquiring | locked | holdover
  deriving DecidableEq, Repr

/-- The time servo of the package. -/
structure Servo where
  /-- TSYNC.STATE [Table 1.5 (01_package_and_time.md); 2; FREE] -/
  st : ServoSt
  /-- TSYNC.OFFS [Table 1.5 (01_package_and_time.md); 16, signed; 0] -/
  offs : Int
  /-- TSYNC.FADJ [Table 1.5 (01_package_and_time.md); 8, signed; 0] -/
  fadj : Int
  /-- TSYNC.SRC [Table 1.5 (01_package_and_time.md); 4; 0] -/
  src : Nat
  /-- Order of preference of the sources, empty for none [R21 (01_package_and_time.md); a list; empty] -/
  order : List Nat
  /-- Sources that are present and valid [R21 (01_package_and_time.md); a list; empty] -/
  present : List Nat
  /-- Measurements below 8 wall ticks in a row [R22, Table 1.4 (01_package_and_time.md); a number; 0] -/
  good : Nat
  /-- The servo has locked since power-up: no later lock may step WTIME [R22 (01_package_and_time.md); 1; 0] -/
  stepped : Bool
  deriving DecidableEq, Repr

/-! ## The package -/

/-- Which core and slot the operation under execution stands in. -/
structure Cursor where
  core : Nat
  slot : Nat
  deriving DecidableEq, Repr

/-- The state of the package. -/
structure State where
  /-- The package has power [R408, R409 (20_host_and_boot.md); 1; 1] -/
  power : Bool
  /-- Wall ticks stepped since the first power-up, the index of free values [MODEL; -; DESIGN CHOICE 0, log entry 2] -/
  epoch : Nat
  /-- WTIME.COUNT [R20, Table 1.3 (01_package_and_time.md); 64; 0] -/
  wtime : Nat
  servo : Servo
  /-- Partitions by index [R24, R410; up to 8; none] -/
  parts : Tab Part
  /-- Core positions by 256·die + 16·y + x; a position without an entry is IDLE with its registers at reset [R12 (01_package_and_time.md); 2,048; Core.reset] -/
  cores : Tab Core
  /-- Matrix units by 64·die + cluster [R184 (08_matrix_unit.md); 512; MUnit.reset] -/
  units : Tab MUnit
  /-- Every byte of the package: scratchpads, station memories, HBM stacks and instruction stores, by the layout of log entry 4 [R14, R15, R77, R78; bytes; DESIGN CHOICE 0 in every byte, log entry 4] -/
  mem : List Host.Cell
  /-- Physical dies CD0 to CD7 [R12 (01_package_and_time.md); 8; Die.reset] -/
  dies : Tab Die
  /-- Version records, keyed 2^18·die + slot [R326 (16_tensor.md); 8 × 2^18 × 256; INVALID] -/
  vrecs : Tab VRec
  /-- What each HBM line was last written under, keyed 2^30·die + line; a line without an entry stands as its granule's ASSIGN left it [R331, R353 (16_tensor.md, 17_page.md); a stamp for each line; as assigned] -/
  stamps : Tab Stamp
  /-- Save areas as their last save left them [R250, R251 (10_context.md); a list; empty] -/
  covers : List Cover
  /-- Page ownership table, keyed 2^21·die + 2^20·station + granule [R355, Table 17.4 (17_page.md); 8 × (2^20 + 24,576) × 64; 0] -/
  owns : Tab Own
  /-- Error histories, keyed 192·die + pseudo-channel [R365, Table 17.9 (17_page.md); 8 × 192 × 128; 0] -/
  ecc : Tab EccHist
  /-- Points table and link error counters [R373, Tables 18.4 and 18.5 (18_link.md); 256 × 128; FREE, 0] -/
  circuits : Tab Circuit
  /-- LERR [R374 (18_link.md); 3; 0] -/
  lerr : Nat
  /-- UALink port states, 0 to 15 [R372, Table 18.3 (18_link.md); 16; DOWN] -/
  ports : Tab LinkSt
  /-- FABIDX [R378 (18_link.md); 10; 0] -/
  fabidx : Nat
  /-- Receiving ends of lanes, keyed 256·link + LANE [R368, R371 (18_link.md); numbers; SEQ 0] -/
  lanes : Tab Lane'
  /-- Sending ends of lanes, keyed 256·link + LANE: the next SEQ and the generation of the key [R368, R369 (18_link.md); numbers; SEQ 0] -/
  seqs : Tab (Nat × Nat)
  /-- Wall ticks of the failed checks of flits on each lit wavelength, keyed 72·die + wavelength, spares from 64 on, of the last 2^24 [R376 (18_link.md); ticks; none] -/
  waveFails : Tab (List Nat)
  /-- Flit put last on each lane, sealed, by the same key [R368, R370 (18_link.md); 104 bytes each; none] -/
  wire : Tab Flit
  /-- Beats that wait at ports, in the order in which they came [R379 (18_link.md); a list; empty] -/
  outq : List OutBeat
  /-- Slots that each port has offered in its rounds [R379 (18_link.md); numbers; 0] -/
  rounds : Tab Nat
  /-- Control messages sent on the package lane, latest first [R368, R382, R383 (18_link.md); a list; empty] -/
  sent : List Sent
  /-- Control messages that wait on the package lane until their port is UP, with the port [R384 (18_link.md); a list; empty] -/
  waiting : List (Nat × Sent)
  /-- SPDM responders: function 0 to 7 the VFs, 8 the PF [R403 (20_host_and_boot.md); 9; idle] -/
  spdm : Tab Spdm
  /-- Debug unlocks since power-up, by partition [R407 (20_host_and_boot.md); numbers; 0] -/
  unlocks : Tab Nat
  /-- BOOTSTAT: the step under way, 0xFF when ready [R408 (20_host_and_boot.md); 8; DESIGN CHOICE 1 at power-up, log entry 1] -/
  bootStep : Nat
  /-- BOOTSTAT bit 8: recovery [R408, R409 (20_host_and_boot.md); 1; 0] -/
  recovery : Bool
  /-- The start step under way, with its unit and its choice [R408, R409 (20_host_and_boot.md); three numbers; none] -/
  stepNow : Option (Nat × Nat × Nat)
  /-- The steps that this start has passed, with the choices that run since [R403, R409 (20_host_and_boot.md); records; none] -/
  started : List Journal
  /-- A partition has existed since the start [R22, R410 (20_host_and_boot.md); 1; 0] -/
  everPart : Bool
  /-- The step journal, latest record first [R409 (20_host_and_boot.md); 32-byte records; empty] -/
  journal : List Journal
  /-- Fences and marked rows kept in the journal, keyed by die [R396 (19_core_health.md); locations; none] -/
  kept : Tab (List Nat)
  /-- Draws taken from Adsal's random generator [R401, R406 (20_host_and_boot.md); a number; 0] -/
  draws : Nat
  /-- Events raised to the host driver, latest first: 1 power, 2 attach, 3 circuit, with their number [R19, R372 (18_link.md); a list; empty] -/
  hostEvents : List (Nat × Nat)
  /-- Events and bundles of the present wall tick that are still to happen [MODEL; -; empty] -/
  agenda : List Ev
  /-- Events of the machine that await a wall tick [MODEL; -; empty] -/
  events : List (Nat × Ev)
  /-- How far the present wall tick has come: 0 what reaches it from outside and from wall time, 1 resumes, 2 boundaries of schedule ticks, 3 the schedule ticks themselves, 4 the shard loaders in them [MODEL; -; 0] -/
  phase : Nat
  /-- Events from outside, each with the epoch in which it comes [MODEL; -; empty] -/
  inputs : List (Nat × Instr)
  /-- Failures of the hardware that its checks will find, each with its epoch: an input [R387, R392 (19_core_health.md); a list; empty] -/
  checks : List (Nat × Check)
  /-- Bytes written in the present wall tick by memory key, each with the core that wrote it: two cores on one byte race (R316) [MODEL; -; empty] -/
  hits : List (Nat × Nat)
  /-- Bytes that cores have read in the present wall tick: first key, length and core [MODEL; -; empty] -/
  seen : List (Nat × Nat × Nat)
  /-- Accesses of the cores of each context in its last 192 ticks [R247 (10_context.md); a list; empty] -/
  touches : List Touch
  /-- The operation under execution [MODEL; -; core 0 slot 0] -/
  cur : Cursor
  /-- Operations of the bundle under issue, by slot, and the lowest illegal slot with its sub-cause [MODEL; -; empty] -/
  ops : List (Nat × Instr)
  ill : Option (Nat × Nat)
  deriving DecidableEq, Repr

/-! ## Reset (R408): every die, link and register starts from reset, and the start steps have not run -/

/-- A shunter at bind (R204, R206): its programs read Table 9.2, and nothing is queued. -/
def Stream.reset : Stream :=
  ⟨[], [], [], [], [], none, [], 0⟩

/-- No trap in this binding (Table 3.7). -/
def TrapInfo.reset : TrapInfo := ⟨0, 0, 0, 0⟩

/-- A core position with its registers at reset (R87, Tables 3.5 to 3.7). -/
def Core.reset : Core where
  st := .idle
  part := 0
  asid := 0
  die := 0
  pcol := 0
  launch := 0
  x := []
  p := 1
  b := []
  q := []
  v := []
  k := []
  z := []
  pc := 0
  dly := 0
  tgt := 0
  qn := 0
  ct1 := false
  ct2 := false
  nbundles := 0
  trap := TrapInfo.reset
  xnop := false
  fpflags := 0
  rngkey := 0
  rngctr := 0
  budget := 0
  ecnt := 0
  stat := 0
  group := []
  wait := none
  exit := none
  vaFree := 0
  vbFree := 0
  vops := []
  lands := []
  reqs := []
  markGrp := 0
  accHat := 0
  stHat := 0
  markHat := 0
  bound := 0
  bankDemand := []
  queueDemand := []
  rowPath := none
  lastLd := 0
  lastSt := 0
  ca := Stream.reset
  cb := Stream.reset
  mail := []
  due := []
  lease := 0
  leaseFrom := 0
  mrel := false
  shadow := []
  cmds := []
  arrivals := []
  late := 0
  ftick := 0
  fecnt := 0
  start := 0
  bindAt := 0
  issued := []
  spoilt := []
  seq := 0
  span := []
  spanEnd := 0
  iss := ⟨0, 0, 0, 0, 0, 0, 0, false, false, false, 0⟩

/-- A matrix unit at the start of a launch (R186). -/
def MUnit.reset : MUnit := ⟨.free, 3, 0, 0, 0, 0, none, [], [], none⟩

/-- A queue at reset (Tables 11.1 and 11.2). -/
def Queue.reset : Queue := ⟨0, 0, 4, false, 0, 0, 0, .off, 0, 0, 0, 0, [], ⟨0, 0, 4, 0, 0, .off⟩, none⟩

/-- A version record at reset (Table 16.3). -/
def VRec.reset : VRec := ⟨.invalid, 0, 0, 0, 0, 0, 0, 0, 0, false, false, 0, []⟩

/-- An ownership entry at reset (Table 17.4). -/
def Own.reset : Own := ⟨false, 0, false, false, false, false, false, 0, 0, false⟩

/-- A points-table entry at reset (Tables 18.4 and 18.5). -/
def Circuit.reset : Circuit := ⟨false, .free, 0, false, 0, 0, 0, 0, 0, 0, 0, 0⟩

/-- A peer entry at reset (Table 18.7). -/
def Peer.reset : Peer := ⟨0, 0, 0, 0, 0, 0, false, 0, 0, 0, none, none, none, 0⟩

/-- A die at reset. -/
def Die.reset : Die where
  attach := .reset
  inReset := true
  leftOut := false
  thermal := false
  fenw := 0
  wlUsed := 0
  fens := 0
  mclog := []
  mclast := 255
  counts := []
  soft := []
  fences := []
  retest := []
  marked := []
  rowSpares := []
  res := 0
  ue := 0
  sce := 0
  mce := 0
  mspare := 0
  unrep := 0
  shift := 0
  lspare := 0
  treeKey := 0
  broken := []
  patrol := 0

/-- The error history of a pseudo-channel at reset. -/
def EccHist.reset : EccHist := ⟨0, 0, 0, 0, 0⟩

/-- An SPDM responder before any request. -/
def Spdm.reset : Spdm := ⟨0, 0, 0, 0, none, none⟩

/-- The manifest registers at reset (Table 16.6). -/
def Manifest.reset : Manifest := ⟨0, 0, 0, 0, 0, 0, 0, [], [], [], []⟩

/-- A partition just created, before its dies and secrets are set (R24, R260, R268, R338). -/
def Part.reset : Part where
  dies := []
  stime := 0
  rate := 16
  next := 16
  pend := none
  overLimit := false
  t0 := 0
  w0 := 0
  limit := 0
  calm := 0
  powerEvents := 0
  held := false
  causes := []
  reqs := []
  resumeAt := none
  holdCount := 0
  holdWdrn := 0
  holdLast := 0
  ctxs := []
  pool0 := 1
  poolN := 0
  ctxDone := []
  launches := []
  nextLaunch := 0
  queues := []
  claims := []
  unread := []
  unflushed := []
  rr := []
  slots := []
  kernels := []
  ttbase := 0
  ttlog := 0
  graphs := []
  draining := []
  tnbase := 0
  tnlog := 0
  gen := 1
  turns := []
  rotated := none
  recs0 := []
  secret := 0
  manifest := Manifest.reset
  digests := []
  ptroot := []
  pgcmd := none
  pgcode := 0
  href := 0
  migration := none
  reqCount := []
  peers := []
  inbound := []
  awaited := []
  tdisp := .configUnlocked
  ide := false
  tenantid := 0
  tenantSet := false
  msel := 0
  unlocked := false
  dbgstat := 0
  nonce := 0
  dmaOut := []
  destroying := false
  resetting := false

/-- The machine right after package power comes on (R408): WTIME 0, no partition, nothing stored, the start steps to come. -/
def State.reset : State where
  power := true
  epoch := 0
  wtime := 0
  servo := ⟨.free, 0, 0, 0, [], [], 0, false⟩
  parts := []
  cores := []
  units := []
  mem := []
  dies := []
  vrecs := []
  stamps := []
  covers := []
  owns := []
  ecc := []
  circuits := []
  lerr := 0
  ports := []
  fabidx := 0
  lanes := []
  seqs := []
  waveFails := []
  wire := []
  outq := []
  rounds := []
  sent := []
  waiting := []
  spdm := []
  unlocks := []
  bootStep := 1
  recovery := false
  stepNow := none
  started := []
  everPart := false
  journal := []
  kept := []
  draws := 0
  hostEvents := []
  agenda := []
  events := []
  phase := 0
  inputs := []
  checks := []
  hits := []
  seen := []
  touches := []
  cur := ⟨0, 0⟩
  ops := []
  ill := none

end Sys2Proof.Machine
end

