-- ==== Sys2Proof/Machine/Ops.lean ====
section
/-! DEFINITION. The named operations over the state: memory, registers with their results under way, guards, holds, halts and
taking a trap. Every meaning is written over these. -/
namespace Sys2Proof.Machine

/-- The three outcomes, for this machine. -/
abbrev Out := Host.Outcome State Fault Refusal

/-! ## Memory (R3, R14, R15, R77, R78; layout of log entry 4) -/

/-- Key of byte `off` of the scratchpad of core k. -/
def padKey (k off : Nat) : Nat := k * 2 ^ 21 + off
/-- Key of byte `off` of the station memory of physical die d. -/
def stationKey (d off : Nat) : Nat := 2 ^ 40 + d * 2 ^ 31 + off
/-- Key of byte `off` of the HBM stack of physical die d. -/
def hbmKey (d off : Nat) : Nat := 2 ^ 44 + d * 2 ^ 36 + off
/-- Key of byte `off` of the instruction store of core k. -/
def istoreKey (k off : Nat) : Nat := 2 ^ 48 + k * 2 ^ 18 + off

/-- The canonical form of memory: addresses strictly rising, no listed byte equal to what an unlisted one reads as (0). -/
abbrev Memory.wf (m : List Host.Cell) : Bool := Tab.wf (0 : Byte) m

/-- One byte. -/
def State.byte (s : State) (a : Nat) : Byte := Tab.get (0 : Byte) s.mem a
/-- Write one byte. -/
def State.setByte (s : State) (a : Nat) (v : Byte) : State := { s with mem := Tab.set (0 : Byte) s.mem a v }

/-- The n bytes from a. -/
def State.bytes (s : State) (a : Nat) : Nat → List Byte
  | 0 => []
  | n + 1 => s.byte a :: s.bytes (a + 1) n
/-- Write a list of bytes from a upwards. -/
def State.setBytes (s : State) (a : Nat) : List Byte → State
  | [] => s
  | v :: t => (s.setByte a v).setBytes (a + 1) t

/-- The number that bytes hold, the first the least significant (R3). -/
def leNat : List Byte → Nat
  | [] => 0
  | b :: t => b.toNat + 256 * leNat t
/-- The n low bytes of a number, the least significant first (R3). -/
def leBytes : Nat → Nat → List Byte
  | 0, _ => []
  | n + 1, v => BitVec.ofNat 8 v :: leBytes n (v / 256)
/-- The bytes of a block of a cipher, the first the most significant (FIPS 197). -/
def blockBytes (b : BitVec 128) : List Byte := (leBytes 16 b.toNat).reverse
/-- The n bytes from a as a number. -/
def State.load (s : State) (a n : Nat) : Nat := leNat (s.bytes a n)
/-- Write the n low bytes of v from a upwards. -/
def State.store (s : State) (a n v : Nat) : State := s.setBytes a (leBytes n v)

/-- The characters of an info string. -/
def ascii (t : String) : List Byte := t.toList.map fun c => BitVec.ofNat 8 c.toNat

/-! ## Objects of the package -/

/-- The core position k; one that nothing has touched has its registers at reset. -/
def State.core (s : State) (k : Nat) : Core := (Tab.find s.cores k).getD { Core.reset with pcol := k % 16 }
/-- Write the core position k. -/
def State.setCore (s : State) (k : Nat) (c : Core) : State := { s with cores := Tab.put s.cores k c }
/-- Change the core position k. -/
def State.modCore (s : State) (k : Nat) (f : Core → Core) : State := s.setCore k (f (s.core k))
/-- The core of the operation under execution. -/
def State.here (s : State) : Core := s.core s.cur.core
/-- Write the core of the operation under execution. -/
def State.setHere (s : State) (c : Core) : State := s.setCore s.cur.core c

/-- Matrix unit u. -/
def State.unit (s : State) (u : Nat) : MUnit := (Tab.find s.units u).getD MUnit.reset
def State.modUnit (s : State) (u : Nat) (f : MUnit → MUnit) : State := { s with units := Tab.put s.units u (f (s.unit u)) }

/-- Physical die d. -/
def State.die (s : State) (d : Nat) : Die := (Tab.find s.dies d).getD Die.reset
def State.modDie (s : State) (d : Nat) (f : Die → Die) : State := { s with dies := Tab.put s.dies d (f (s.die d)) }

/-- Partition p; one that does not exist reads as one just created. -/
def State.part (s : State) (p : Nat) : Part := (Tab.find s.parts p).getD Part.reset
/-- Change partition p, if it exists. -/
def State.modPart (s : State) (p : Nat) (f : Part → Part) : State := { s with parts := Tab.upd s.parts p f }

/-- Context a of partition p. -/
def State.ctx (s : State) (p a : Nat) : Option Ctx := Tab.find (s.part p).ctxs a
/-- Change context a of partition p, if it exists. -/
def State.modCtx (s : State) (p a : Nat) (f : Ctx → Ctx) : State :=
  s.modPart p fun q => { q with ctxs := Tab.upd q.ctxs a f }

/-- Launch l of partition p. -/
def State.launch (s : State) (p l : Nat) : Option Launch := Tab.find (s.part p).launches l
def State.modLaunch (s : State) (p l : Nat) (f : Launch → Launch) : State :=
  s.modPart p fun q => { q with launches := Tab.upd q.launches l f }

/-- An object of a partition acts only while the partition exists (R10). -/
def withPart (s : State) (p : Nat) (f : Part → State) : State :=
  match Tab.find s.parts p with | some q => f q | none => s

/-- A refused transaction of the VF of partition p counts in PGSTAT.HREF (R356, R400). -/
def State.countHref (s : State) (p : Nat) : State := s.modPart p fun q => { q with href := min 65535 (q.href + 1) }
/-- An access to the register space of the VF of partition p: outside the stream it is refused and counted (R400), and it is refused while the interface is not in RUN (R399). -/
def withVf (s : State) (p : Nat) (f : Part → State) : State :=
  withPart s p fun q => if !q.ide then s.countHref p else if q.tdisp = .run then f q else s

/-! ## Schedule time of a context (R24, R235) -/

/-- CTOFF of the context of a core. -/
def State.ctoff (s : State) (c : Core) : Nat := match s.ctx c.part c.asid with | some x => x.ctoff | none => 0
/-- The schedule tick as the core reads it. -/
def State.now (s : State) (c : Core) : Nat := (s.part c.part).stime - s.ctoff c
/-- The schedule tick of core k. -/
def State.tick (s : State) (k : Nat) : Nat := s.now (s.core k)

/-! ## Free values (log entry 2) -/

/-- The free value with a code of its own, for the operation under execution: one of the binding and of its schedule tick, so that no hold, rate
step or freeze changes it (R33). -/
def State.free (s : State) (code : Nat) : Nat :=
  let c := s.core s.cur.core
  Config.free s.cur.core (2 ^ 160 + ((((s.now c * 2 ^ 16 + c.asid) * 8 + c.part) * 2 ^ 32 + c.launch) * 8 + s.cur.slot) * 2 ^ 24 + code)

/-! ## Data races with what has gone before (R247, R316, R319) -/

/-- Whether an access of core k to a byte races with an access of another core that it meets again in the span of R247, or with a host
access since its launch was claimed (R319): one of the two must write. -/
def State.unsettled (s : State) (k a : Nat) (wr : Bool) : Bool :=
  let c := s.core k
  decide (k < 2048)
  && ((decide (s.now c < c.spanEnd) && c.span.any fun e => decide (e.lo ≤ a) && decide (a < e.lo + e.len) && (wr || e.wr))
    || ((s.launch c.part c.launch).any fun y => y.host.any fun h => h.1 == a && (wr || h.2)))
/-- Whether no access of core k can race so: it re-runs nothing, and the host has left its launch alone. -/
def State.quiet (s : State) (k : Nat) : Bool :=
  let c := s.core k
  decide (c.spanEnd ≤ s.now c) && (s.launch c.part c.launch).all fun y => y.host.isEmpty
/-- What names the moment of an access in its free values: of a core its binding and schedule tick, so that no hold or rate step changes them (R33); of another
agent the wall tick. -/
def State.moment (s : State) (k : Nat) : Nat :=
  if k < 2048 then
    let c := s.core k
    (((s.now c * 2 ^ 16 + c.asid) * 8 + c.part) * 2 ^ 32 + c.launch) * 2
  else s.epoch * 2 + 1
/-- One byte as core k reads it: free in a race. -/
def State.seenByte (s : State) (k a : Nat) : Byte :=
  if s.unsettled k a false then BitVec.ofNat 8 (Config.free k (2 ^ 240 + s.moment k * 2 ^ 56 + a)) else s.byte a
/-- The n bytes from a as a number, as core k reads them. -/
def State.loadBy (s : State) (k a n : Nat) : Nat :=
  if s.quiet k then s.load a n else leNat ((List.range n).map fun i => s.seenByte k (a + i))
/-- A line that core k reads from key a, with the bytes of a race free. -/
def State.blur (s : State) (k a : Nat) (v : BitVec 512) : BitVec 512 :=
  if s.quiet k then v
  else BitVec.ofNat 512 (leNat ((List.range 64).map fun i =>
    if s.unsettled k (a + i) false then s.seenByte k (a + i) else v.extractLsb' (8 * i) 8))
/-- Core k has read n bytes from a in this tick. -/
def State.see (s : State) (k a n : Nat) : State := { s with seen := (a, n, k) :: s.seen }

/-! ## Positions (R4, R13) -/

/-- Physical die, row and column of a core key. -/
def coreDie (k : Nat) : Nat := k / 256
def coreY (k : Nat) : Nat := k / 16 % 16
def coreX (k : Nat) : Nat := k % 16
/-- Cluster index and position (R13). -/
def clusterOf (k : Nat) : Nat := 8 * (coreY k / 2) + coreX k / 2
def posOf (k : Nat) : Nat := 2 * (coreY k % 2) + coreX k % 2
/-- The core at a position of a cluster of a die. -/
def coreAt (d cl pos : Nat) : Nat := d * 256 + (2 * (cl / 8) + pos / 2) * 16 + (2 * (cl % 8) + pos % 2)
/-- The matrix unit of a core. -/
def unitOf (k : Nat) : Nat := coreDie k * 64 + clusterOf k
/-- The sibling that window w of a core maps (R79). -/
def siblingOf (k w : Nat) : Nat := coreAt (coreDie k) (clusterOf k) (posOf k ^^^ w)

/-! ## Registers and the results under way (R8, R66, R67) -/

/-- A result that may have landed and need not have at tick t. -/
def Land.pending (l : Land) (t : Nat) : Bool := decide (l.lo ≤ t) && (decide (t < l.hi) || !l.ready)
/-- A result that lands at or before tick t. -/
def Land.due (l : Land) (t : Nat) : Bool := l.ready && decide (l.hi ≤ t)

/-- The lanes enabled by a mask, as bits of a row. -/
def expand (m : MaskRow) : Row :=
  if m = 0 then 0 else if m = BitVec.allOnes 64 then BitVec.allOnes 2048
  else (List.range 64).foldl (fun acc j => if m.getLsbD j then acc ||| (0xFFFFFFFF#2048 <<< (32 * j)) else acc) 0
/-- Replace the enabled lanes of a row. -/
def blend (m : MaskRow) (old new : Row) : Row := (old &&& ~~~ expand m) ||| (new &&& expand m)
/-- Lane j of a row. -/
def laneOf (r : Row) (j : Nat) : Lane := r.extractLsb' (32 * j) 32
/-- A row from its lanes. -/
def mkRow (f : Nat → Lane) : Row :=
  (List.range 64).foldl (fun acc j => acc ||| ((f j).setWidth 2048 <<< (32 * j))) 0
/-- Some result for x[d], and some for b[d] or q[d], may or may not have landed. -/
def Core.xOpen (c : Core) (t d : Nat) : Bool :=
  c.lands.any fun l => match l.wr with | .x e _ => e == d && l.pending t | _ => false

/-- x[a] at the tick of the operation (R66): x0 reads 0, and an undefined register a free value. -/
def State.readX (s : State) (c : Core) (a : Nat) : Word :=
  if a = 0 then 0
  else if c.xOpen (s.now c) a then BitVec.ofNat 64 (s.free a) else Tab.get 0 c.x a

/-- p[a] at the start of the tick (R69). -/
def Core.readP (c : Core) (a : Nat) : Bool := a == 0 || c.p.getLsbD a
/-- A guard (R91). -/
def Core.guardOn (c : Core) (g : Guard) : Bool := c.readP g.pred != g.neg

/-- b[a] and q[a]: both land at one exact tick. -/
def Core.readB (c : Core) (a : Nat) : Word := Tab.get 0 c.b a
def Core.readQ (c : Core) (a : Nat) : Tile := Tab.get 0 c.q a

/-- Lanes of row i of v[r] that are undefined at tick t. -/
def Core.vOpen (c : Core) (t r i : Nat) : MaskRow :=
  c.lands.foldl (fun acc l => match l.wr with | .row d j m _ => if d == r && j == i && l.pending t then acc ||| m else acc
                                              | _ => acc) 0
/-- Row i of v[r] (R70, R71). -/
def State.readV (s : State) (c : Core) (r i : Nat) : Row :=
  let o := c.vOpen (s.now c) r i
  let base := Tab.get (0 : Row) c.v (16 * r + i)
  if o = 0 then base else blend o base (BitVec.ofNat 2048 (s.free (0x10000 + 16 * r + i)))
/-- Whether an operation still to read row i at tick t has left row i of its destination undefined: it has issued, and the row has not landed
(R8, R67). A column-axis operation lands nothing before it has read every row (R71). -/
def VOp.ahead (o : VOp) (t i : Nat) (column : Bool) : Bool := decide (o.t < t) && (column || decide (t ≤ o.t + i))
/-- Bits of row i of k[r] that are undefined at tick t. -/
def Core.kOpen (c : Core) (t r i : Nat) : MaskRow :=
  c.lands.foldl (fun acc l => match l.wr with | .krow d j m _ => if d == r && j == i && l.pending t then acc ||| m else acc
                                              | _ => acc) 0
/-- Row i of k[r]; k0 reads all ones (Table 3.2). -/
def State.readK (s : State) (c : Core) (r i : Nat) : MaskRow :=
  if r = 0 then BitVec.allOnes 64
  else
    let o := c.kOpen (s.now c) r i
    let base := Tab.get (0 : MaskRow) c.k (16 * r + i)
    if o = 0 then base else (base &&& ~~~o) ||| (BitVec.ofNat 64 (s.free (0x20000 + 16 * r + i)) &&& o)

/-- Put a value where a result goes; constant members ignore it (Table 3.2). -/
def Core.write (c : Core) : Write → Core
  | .x d v => if d = 0 then c else { c with x := Tab.set 0 c.x d v }
  | .p d v => if d = 0 then c else { c with p := if v then c.p ||| (1#12 <<< d) else c.p &&& ~~~(1#12 <<< d) }
  | .b d v => { c with b := Tab.set 0 c.b d v }
  | .q d v => { c with q := Tab.set 0 c.q d v }
  | .row d i m v => { c with v := Tab.set 0 c.v (16 * d + i) (blend m (Tab.get 0 c.v (16 * d + i)) v) }
  | .krow d i m v =>
    if d = 0 then c else
    { c with k := Tab.set 0 c.k (16 * d + i) ((Tab.get 0 c.k (16 * d + i) &&& ~~~m) ||| (v &&& m)) }
  | .flags f => { c with fpflags := c.fpflags ||| f }
  | .sys n v =>
    if n = 0x020 then { c with fpflags := v.setWidth 7 }
    else if n = 0x021 then { c with rngkey := v }
    else if n = 0x022 then { c with rngctr := v }
    else c

/-- What is left of an earlier result once a later one for `w` has landed (R67). -/
def Land.after (w : Write) (l : Land) : Option Land :=
  match w, l.wr with
  | .x d _, .x e _ => if d = e then none else some l
  | .b d _, .b e _ => if d = e then none else some l
  | .row d i m _, .row e j n v =>
    if d = e ∧ i = j then (if n &&& ~~~m = 0 then none else some { l with wr := .row e j (n &&& ~~~m) v }) else some l
  | .krow d i m _, .krow e j n v =>
    if d = e ∧ i = j then (if n &&& ~~~m = 0 then none else some { l with wr := .krow e j (n &&& ~~~m) v }) else some l
  | _, _ => some l

/-- What a landed result leaves of an earlier vector operation that has rows still to read (R67). -/
def VOp.after (l : Land) (o : VOp) : VOp :=
  if o.seq < l.seq then
    match l.wr with
    | .row d i m _ => if d = o.d then { o with skip := Tab.set 0 o.skip i (Tab.get 0 o.skip i ||| m) } else o
    | .krow d i m _ => if d = o.d then { o with skip := Tab.set 0 o.skip (16 + i) (Tab.get 0 o.skip (16 + i) ||| m) } else o
    | _ => o
  else o

/-- Put a result into a list in order of issue. -/
def insertLand (l : Land) : List Land → List Land
  | [] => [l]
  | e :: t => if l.seq < e.seq then l :: e :: t else e :: insertLand l t

/-- Land one result: it is written, and earlier results for the same place are superseded (R67). -/
def Core.landOne (c : Core) (l : Land) : Core :=
  { c with
    lands := c.lands.filterMap fun (e : Land) => if e.seq < l.seq then e.after l.wr else some e
    vops := c.vops.map (VOp.after l) }.write l.wr

/-- Whether a result is a system-register write: it takes effect before flags of the same tick (R46). -/
def Land.isSys (l : Land) : Bool := match l.wr with | .sys _ _ => true | _ => false

/-- Land, in order of issue, every result whose bound is tick t or below (R67). -/
def Core.settle (c : Core) (t : Nat) : Core :=
  let due := (c.lands.filter (·.due t)).foldl (fun acc l => insertLand l acc) []
  (due.filter (·.isSys) ++ due.filter fun l => !l.isSys).foldl Core.landOne
    { c with lands := c.lands.filter fun l => !l.due t }

/-- The tick below which no later result for v[d] lands: the bound of an MDRV still under way (R199). -/
def Core.drainBound (c : Core) (d : Nat) : Nat :=
  c.lands.foldl (fun acc l => match l.wr with | .row e _ _ _ => if e == d && l.drain then max acc l.hi else acc | _ => acc) 0

/-- Row i of a result for v[d] with window lo to hi, ready or not, of the operation numbered n. -/
def Core.rowResult (c : Core) (n lo hi : Nat) (ready : Bool) (d i : Nat) (m : MaskRow) (v : Row) : Core :=
  { c with lands := c.lands ++ [⟨n, lo, max hi (c.drainBound d), ready, false, .row d i m v⟩] }
/-- An operation with latency bound h is under way (R145). -/
def Core.until' (c : Core) (h : Nat) : Core := { c with bound := max c.bound h }

/-- A result of an operation issued at tick t with latency bound `lat` (R8). -/
def Core.result (c : Core) (t lat : Nat) (w : Write) : Core :=
  { c with lands := c.lands ++ [⟨c.seq, t + 1, t + lat, true, false, w⟩], bound := max c.bound (t + lat) }

/-- The tick at which flags land that may land from lo to hi: free, whatever lands else (R46). -/
def flagTick (lo hi free : Nat) : Nat := lo + free % (hi + 1 - lo)
/-- Flags of the operation numbered n, when it sets any, which land once, at some tick from lo to hi. -/
def Core.flagsBy (c : Core) (n lo hi free : Nat) (f : Flags) : Core :=
  if f = 0 then c
  else { c with lands := c.lands ++ [⟨n, flagTick lo hi free, flagTick lo hi free, true, false, .flags f⟩] }
/-- Flags of an operation issued at tick t with a latency bound of one tick. -/
def Core.flag (c : Core) (t : Nat) (f : Flags) : Core := c.flagsBy c.seq (t + 1) (t + 1) 0 f

/-! ## Energy (R240, R241) -/

/-- The highest COUNT. -/
def ecntMax : Nat := 2 ^ 48 - 1
/-- Add to a meter: it saturates and sets SAT, bit 63 (R242). ENERGY of the CCB, for which Table 10.2 names no SAT bit, shows it in bit 63 as well (log entry 19). -/
def addEnergy (m n : Nat) : Nat :=
  let v := m % 2 ^ 48 + n
  if ecntMax < v then 2 ^ 63 + ecntMax else m / 2 ^ 63 * 2 ^ 63 + v
/-- Charge n energy units to the core. -/
def Core.charge (c : Core) (n : Nat) : Core := { c with ecnt := addEnergy c.ecnt n }

/-- The latency bound of the operation of slot n among those of a bundle that has issued, in ticks: 0 where none was carried out (R61). -/
def slotBound (v n : Nat) : Nat := v / 2 ^ (16 * n) % 2 ^ 16
/-- Give the operation of slot n of the bundle issued at tick t a latency bound of b ticks. -/
def Core.noteBound (c : Core) (t n b : Nat) : Core :=
  { c with issued := c.issued.map fun e => if e.1 = t then (e.1, e.2.1, e.2.2 - slotBound e.2.2 n * 2 ^ (16 * n) + min b 65535 * 2 ^ (16 * n)) else e }
/-- The next number in issue order. -/
def Core.next (c : Core) : Core := { c with seq := c.seq + 1 }

/-! ## Holds and halts (R28, R29, R243, R244) -/

/-- Raise a hold request of partition p with hold tick h. -/
def State.raiseHoldAt (s : State) (p cause tag h : Nat) : State :=
  s.modPart p fun q => { q with reqs := q.reqs ++ [⟨cause, h, false, tag⟩] }
/-- Raise a hold request of partition p: its hold tick is 192 ticks ahead. -/
def State.raiseHold (s : State) (p cause tag : Nat) : State := s.raiseHoldAt p cause tag ((s.part p).stime + Config.holdLead)

/-- What tags the requests of the halts of a context. -/
def haltTag (asid : Nat) : Nat := 2 ^ 60 + asid
/-- A halting event of core k at its context's tick e, with the kind of Table 10.8, the cause of its hold and its hold tick in
partition time: its request, and the halt it joins or starts. The halt takes effect at the hold tick of its first event, in whatever order they are reported
(R244); one that has taken effect is another's. -/
def State.haltAt (s : State) (k kind cause e h : Nat) : State :=
  let c := s.core k
  (s.raiseHoldAt c.part cause (haltTag c.asid) h).modCtx c.part c.asid fun x =>
    { x with halt := some (match x.halt with
      | some y => { y with h := if y.h = 0 then 0 else min y.h h, events := y.events ++ [(k, kind, e)] }
      | none => ⟨h, [(k, kind, e)], []⟩) }
/-- A halting event at the present tick, under cause 6. -/
def State.raiseHalt (s : State) (k kind e : Nat) : State :=
  s.haltAt k kind 6 e ((s.part (s.core k).part).stime + Config.holdLead)

/-! ## Taking a trap (R81) -/

/-- The core at the boundary before the bundle under issue: nothing of the bundle has happened. -/
def Core.atBoundary (c : Core) : Core :=
  { c with pc := c.iss.pc, dly := c.iss.dly, tgt := c.iss.tgt, qn := c.iss.qn, budget := c.iss.budget, ecnt := c.iss.ecnt,
           rngctr := c.iss.rngctr, ct1 := c.iss.ct1, ct2 := c.iss.ct2, xnop := c.iss.xnop }

/-- Freeze a core HALTED at the boundary before its tick t (R81, R243): the tick and the meter of the freeze stand for its stop record. -/
def Core.freeze (c : Core) (t : Nat) : Core := { c with st := .halted, ftick := t, fecnt := c.ecnt }

/-- Take a trap of the bundle under issue on core k (R81, R84): TRAPINFO is written, the core freezes HALTED at the boundary
before the bundle, and the halt of its context is raised. After SOFT and BREAK the bundle issues again with its X slot as NOP (R144). -/
def State.takeTrap (s : State) (k slot cause info : Nat) : State :=
  let c := s.core k
  let t := s.now c
  let c' := { c.atBoundary.freeze t with
    trap := ⟨cause, slot, c.iss.pc, info % 2 ^ 32⟩
    xnop := c.iss.xnop || cause == 14 || cause == 15 }
  (s.setCore k c').raiseHalt k 1 t

/-- The trap of the operation under execution. -/
def State.trapHere (s : State) (cause info : Nat) : State := s.takeTrap s.cur.core s.cur.slot cause info

/-! ## Operations of a slot (R66, R68, R91, R241) -/

/-- An operation of a slot: when its guard reads 1 it is charged, numbered, and takes effect on its core; else nothing happens. -/
def slotOp (g : Guard) (eu : Nat) (f : State → Core → Core) (s : State) : Out :=
  let c := s.here
  if c.guardOn g then .next (s.setHere (f s (c.charge eu).next)) else .next s

/-- An operation that may trap when its guard reads 1: cause and INFO, or its effect. -/
def slotTry (g : Guard) (eu : Nat) (chk : State → Core → Option (Nat × Nat)) (f : State → Core → Core) (s : State) : Out :=
  let c := s.here
  if c.guardOn g then
    match chk s c with
    | some (cause, info) => .next (s.trapHere cause info)
    | none => .next (s.setHere (f s (c.charge eu).next))
  else .next s

/-- Sign extension of the low w bits of a field to 64 bits (R97). -/
def sext (w v : Nat) : Word := (BitVec.ofNat w v).signExtend 64

end Sys2Proof.Machine
end

