-- ==== Sys2Proof/Machine/Group.lean ====
section
/-! DEFINITION. The partition grid, launch rectangles, ranks and subgroups: R4, R287 to R296. -/
namespace Sys2Proof.Machine

/-- Grid width and height of a partition of n dies (Table 13.1). -/
def gridW (n : Nat) : Nat := if n = 1 then 16 else 32
def gridH (n : Nat) : Nat := if n = 8 then 64 else if n = 4 then 32 else 16
/-- Die index, row and column of grid position (gx, gy) (R4, Table 13.1). -/
def gridDie (gx gy : Nat) : Nat := 2 * (gy / 16) + gx / 16
/-- Grid column and row of core y.x of die index d. -/
def gridX (d x : Nat) : Nat := 16 * (d % 2) + x
def gridY (d y : Nat) : Nat := 16 * (d / 2) + y

/-- The core at a grid position of a partition. -/
def Part.coreAtGrid (q : Part) (gx gy : Nat) : Nat :=
  q.dies.getD (gridDie gx gy) 0 * 256 + gy % 16 * 16 + gx % 16

/-- The core at a launch-relative position, and the members of a rectangle by rank (R290). -/
def Part.memberAt (q : Part) (gx0 gy0 gw r : Nat) : Nat := q.coreAtGrid (gx0 + r % gw) (gy0 + r / gw)
def Part.rectMembers (q : Part) (gx0 gy0 gw gh : Nat) : List Nat :=
  (List.range (gw * gh)).map fun r => q.memberAt gx0 gy0 gw r

/-- Rank of a core in a launch (R290). -/
def Launch.rank (l : Launch) (k : Nat) : Nat := l.members.idxOf k
/-- Launch-relative column and row (R290). -/
def Launch.lx (l : Launch) (k : Nat) : Nat := l.rank k % l.gw
def Launch.ly (l : Launch) (k : Nat) : Nat := l.rank k / l.gw

/-- Largest e with 2^e dividing n (Table 13.6). -/
def pow2Of (n : Nat) : Nat := ((List.range 7).filter fun e => n % 2 ^ e == 0).foldl max 0
/-- Whether a subgroup code is legal in a launch (R295). -/
def Launch.codeOk (l : Launch) (code : Nat) : Bool :=
  1 ≤ code / 16 && code / 16 ≤ pow2Of l.gw && 1 ≤ code % 16 && code % 16 ≤ pow2Of l.gh
/-- Subgroup number of a member under a code (R295). -/
def Launch.sid (l : Launch) (code k : Nat) : Nat :=
  l.ly k / 2 ^ (code % 16) * (l.gw / 2 ^ (code / 16)) + l.lx k / 2 ^ (code / 16)
/-- The members of a member's subgroup. -/
def Launch.subgroup (l : Launch) (code k : Nat) : List Nat := l.members.filter fun j => l.sid code j == l.sid code k

/-- The group identity registers of a member (Tables 13.3 to 13.6), by number. -/
def groupRegs (n : Nat) (l : Launch) (k : Nat) : Tab Word :=
  let gx := l.gx0 + l.lx k
  let gy := l.gy0 + l.ly k
  [(0x040, BitVec.ofNat 64 (n * 2 ^ 16 + gridH n * 2 ^ 8 + gridW n)),
   (0x041, BitVec.ofNat 64 (l.gh * 2 ^ 24 + l.gw * 2 ^ 16 + l.gy0 * 2 ^ 8 + l.gx0)),
   (0x042, BitVec.ofNat 64 (l.rank k * 2 ^ 32 + l.ly k * 2 ^ 24 + l.lx k * 2 ^ 16 + gy * 2 ^ 8 + gx)),
   (0x043, BitVec.ofNat 64 (pow2Of l.gw * 16 + pow2Of l.gh))]

end Sys2Proof.Machine
end

