-- ==== Sys2Proof/Machine/Scalar.lean ====
section
/-! DEFINITION. The S slot: R114 to R123. Every operation reads its sources at its issue tick and lands at most three ticks later. -/
namespace Sys2Proof.Machine

/-- A two-register operation (R115): x[d] := f x[a] x[b], landing within `lat`. -/
def aluRR (g : Guard) (lat d a b : Nat) (f : Word → Word → Word) (s : State) : Out :=
  slotOp g 1 (fun s c => c.result (s.now c) lat (.x d (f (s.readX c a) (s.readX c b)))) s

/-- A one-register operation (R115, R116): x[d] := f x[a], landing at t + 1. -/
def aluR (g : Guard) (d a : Nat) (f : Word → Word) (s : State) : Out :=
  slotOp g 1 (fun s c => c.result (s.now c) 1 (.x d (f (s.readX c a)))) s

/-- A saturating operation (R115): x[d] := clamp of an exact sum, with FPFLAGS.SAT when it clamps. -/
def aluSat (g : Guard) (d a b : Nat) (f : Int → Int → Int) (s : State) : Out :=
  slotOp g 1 (fun s c =>
    let r := clampInt .i64 (f (s.readX c a).toInt (s.readX c b).toInt)
    (c.result (s.now c) 1 (.x d (BitVec.ofInt 64 r.1))).flag (s.now c) (Flags.when r.2 Flags.sat)) s

/-- A compare (R118): p[d] := f of x[a] and a second operand. -/
def cmpRR (g : Guard) (d a b : Nat) (f : Word → Word → Bool) (s : State) : Out :=
  slotOp g 1 (fun s c => c.result (s.now c) 1 (.p d (f (s.readX c a) (s.readX c b)))) s
def cmpRI (g : Guard) (d a i : Nat) (f : Word → Word → Bool) (s : State) : Out :=
  slotOp g 1 (fun s c => c.result (s.now c) 1 (.p d (f (s.readX c a) (sext 8 i)))) s

/-- A predicate operation (R119). -/
def plog (g : Guard) (d a b : Nat) (f : Bool → Bool → Bool) (s : State) : Out :=
  slotOp g 1 (fun s c => c.result (s.now c) 1 (.p d (f (c.readP a) (c.readP b)))) s

/-- Replace bits [k+15:k] of x[d] (R117). -/
def movk (g : Guard) (k d i : Nat) (s : State) : Out :=
  aluR g d d (fun w => (w &&& ~~~(0xFFFF#64 <<< k)) ||| (BitVec.ofNat 64 (i % 2 ^ 16) <<< k)) s

/-- Amount of a shift by a register (R115): b[5:0]. -/
def amount (b : Word) : Nat := b.toNat % 64
/-- The zero bits above the highest one bit of n, and below the lowest (R115). -/
def clz64 (w : Word) : Word := if w = 0 then 64 else BitVec.ofNat 64 (63 - Nat.log2 w.toNat)
def ctz64 (w : Word) : Word := BitVec.ofNat 64 (((List.range 64).find? fun i => w.getLsbD i).getD 64)
/-- How many bits are one (R115). -/
def popc64 (w : Word) : Word := BitVec.ofNat 64 (((List.range 64).filter fun i => w.getLsbD i).length)
/-- The eight bytes in reverse order (R115). -/
def bswap64 (w : Word) : Word := BitVec.ofNat 64 (leNat (leBytes 8 w.toNat).reverse)

/-- ADD (R115): x[a] + x[b]. -/
def execAdd (g : Guard) (d a b : Nat) (s : State) : Out := aluRR g 1 d a b (· + ·) s
/-- SUB (R115): x[a] − x[b]. -/
def execSub (g : Guard) (d a b : Nat) (s : State) : Out := aluRR g 1 d a b (· - ·) s
/-- AND (R115): bitwise and. -/
def execAnd (g : Guard) (d a b : Nat) (s : State) : Out := aluRR g 1 d a b (· &&& ·) s
/-- OR (R115): bitwise or. -/
def execOr (g : Guard) (d a b : Nat) (s : State) : Out := aluRR g 1 d a b (· ||| ·) s
/-- XOR (R115): bitwise exclusive or. -/
def execXor (g : Guard) (d a b : Nat) (s : State) : Out := aluRR g 1 d a b (· ^^^ ·) s
/-- ANDN (R115): x[a] and not x[b]. -/
def execAndn (g : Guard) (d a b : Nat) (s : State) : Out := aluRR g 1 d a b (fun a b => a &&& ~~~b) s
/-- ORN (R115): x[a] or not x[b]. -/
def execOrn (g : Guard) (d a b : Nat) (s : State) : Out := aluRR g 1 d a b (fun a b => a ||| ~~~b) s
/-- XNOR (R115): not (x[a] xor x[b]). -/
def execXnor (g : Guard) (d a b : Nat) (s : State) : Out := aluRR g 1 d a b (fun a b => ~~~(a ^^^ b)) s
/-- SLL (R115): shift left by x[b][5:0]. -/
def execSll (g : Guard) (d a b : Nat) (s : State) : Out := aluRR g 1 d a b (fun a b => a <<< amount b) s
/-- SRL (R115): logical shift right by x[b][5:0]. -/
def execSrl (g : Guard) (d a b : Nat) (s : State) : Out := aluRR g 1 d a b (fun a b => a >>> amount b) s
/-- SRA (R115): arithmetic shift right by x[b][5:0]. -/
def execSra (g : Guard) (d a b : Nat) (s : State) : Out := aluRR g 1 d a b (fun a b => a.sshiftRight (amount b)) s
/-- ROL (R115): rotate left by x[b][5:0]. -/
def execRol (g : Guard) (d a b : Nat) (s : State) : Out := aluRR g 1 d a b (fun a b => a.rotateLeft (amount b)) s
/-- ROR (R115): rotate right by x[b][5:0]. -/
def execRor (g : Guard) (d a b : Nat) (s : State) : Out := aluRR g 1 d a b (fun a b => a.rotateRight (amount b)) s
/-- MUL (R115): low half of the product, within 3 ticks. -/
def execMul (g : Guard) (d a b : Nat) (s : State) : Out := aluRR g 3 d a b (· * ·) s
/-- MULH (R115): high half of the signed product, within 3 ticks. -/
def execMulh (g : Guard) (d a b : Nat) (s : State) : Out := aluRR g 3 d a b (fun a b => ((a.signExtend 128 * b.signExtend 128).extractLsb' 64 64)) s
/-- MULHU (R115): high half of the unsigned product, within 3 ticks. -/
def execMulhu (g : Guard) (d a b : Nat) (s : State) : Out := aluRR g 3 d a b (fun a b => ((a.setWidth 128 * b.setWidth 128).extractLsb' 64 64)) s
/-- MIN (R115): smaller as I64. -/
def execMin (g : Guard) (d a b : Nat) (s : State) : Out := aluRR g 1 d a b (fun a b => if a.slt b then a else b) s
/-- MAX (R115): larger as I64. -/
def execMax (g : Guard) (d a b : Nat) (s : State) : Out := aluRR g 1 d a b (fun a b => if a.slt b then b else a) s
/-- MINU (R115): smaller as unsigned. -/
def execMinu (g : Guard) (d a b : Nat) (s : State) : Out := aluRR g 1 d a b (fun a b => if a.ult b then a else b) s
/-- MAXU (R115): larger as unsigned. -/
def execMaxu (g : Guard) (d a b : Nat) (s : State) : Out := aluRR g 1 d a b (fun a b => if a.ult b then b else a) s
/-- CLZ (R115): leading zero bits of x[a]. -/
def execClz (g : Guard) (d a : Nat) (s : State) : Out := aluR g d a clz64 s
/-- CTZ (R115): trailing zero bits of x[a]. -/
def execCtz (g : Guard) (d a : Nat) (s : State) : Out := aluR g d a ctz64 s
/-- POPC (R115): one bits of x[a]. -/
def execPopc (g : Guard) (d a : Nat) (s : State) : Out := aluR g d a popc64 s
/-- BSWAP (R115): bytes reversed of x[a]. -/
def execBswap (g : Guard) (d a : Nat) (s : State) : Out := aluR g d a bswap64 s
/-- ADDS (R115): clamped sum. -/
def execAdds (g : Guard) (d a b : Nat) (s : State) : Out := aluSat g d a b (· + ·) s
/-- SUBS (R115): clamped difference. -/
def execSubs (g : Guard) (d a b : Nat) (s : State) : Out := aluSat g d a b (· - ·) s
/-- ADDI (R116): IMM11 sign-extended. -/
def execAddi (g : Guard) (d a i : Nat) (s : State) : Out := aluR g d a (· + sext 11 i) s
/-- ANDI (R116): IMM11 zero-extended. -/
def execAndi (g : Guard) (d a i : Nat) (s : State) : Out := aluR g d a (· &&& BitVec.ofNat 64 i) s
/-- ORI (R116): IMM11 zero-extended. -/
def execOri (g : Guard) (d a i : Nat) (s : State) : Out := aluR g d a (· ||| BitVec.ofNat 64 i) s
/-- XORI (R116): IMM11 zero-extended. -/
def execXori (g : Guard) (d a i : Nat) (s : State) : Out := aluR g d a (· ^^^ BitVec.ofNat 64 i) s
/-- SLLI (R116): the amount in IMM11[5:0]. -/
def execSlli (g : Guard) (d a n : Nat) (s : State) : Out := aluR g d a (· <<< n) s
/-- SRLI (R116): the amount in IMM11[5:0]. -/
def execSrli (g : Guard) (d a n : Nat) (s : State) : Out := aluR g d a (· >>> n) s
/-- SRAI (R116): the amount in IMM11[5:0]. -/
def execSrai (g : Guard) (d a n : Nat) (s : State) : Out := aluR g d a (·.sshiftRight n) s
/-- ROLI (R116): the amount in IMM11[5:0]. -/
def execRoli (g : Guard) (d a n : Nat) (s : State) : Out := aluR g d a (·.rotateLeft n) s
/-- MOVI (R117): IMM16 sign-extended. -/
def execMovi (g : Guard) (d i : Nat) (s : State) : Out := aluR g d 0 (fun _ => sext 16 i) s
/-- MOVK16 (R117). -/
def execMovk16 (g : Guard) (d i : Nat) (s : State) : Out := movk g 16 d i s
/-- MOVK32 (R117). -/
def execMovk32 (g : Guard) (d i : Nat) (s : State) : Out := movk g 32 d i s
/-- MOVK48 (R117). -/
def execMovk48 (g : Guard) (d i : Nat) (s : State) : Out := movk g 48 d i s
/-- CMP .eq (R118). -/
def execCmpEq (g : Guard) (d a b : Nat) (s : State) : Out := cmpRR g d a b (· == ·) s
/-- CMP .ne (R118). -/
def execCmpNe (g : Guard) (d a b : Nat) (s : State) : Out := cmpRR g d a b (· != ·) s
/-- CMP .lt (R118). -/
def execCmpLt (g : Guard) (d a b : Nat) (s : State) : Out := cmpRR g d a b (·.slt ·) s
/-- CMP .ge (R118). -/
def execCmpGe (g : Guard) (d a b : Nat) (s : State) : Out := cmpRR g d a b (fun a b => !a.slt b) s
/-- CMP .ltu (R118). -/
def execCmpLtu (g : Guard) (d a b : Nat) (s : State) : Out := cmpRR g d a b (·.ult ·) s
/-- CMP .geu (R118). -/
def execCmpGeu (g : Guard) (d a b : Nat) (s : State) : Out := cmpRR g d a b (fun a b => !a.ult b) s
/-- CMPI .eq (R118): IMM8 sign-extended. -/
def execCmpiEq (g : Guard) (d a i : Nat) (s : State) : Out := cmpRI g d a i (· == ·) s
/-- CMPI .ne (R118): IMM8 sign-extended. -/
def execCmpiNe (g : Guard) (d a i : Nat) (s : State) : Out := cmpRI g d a i (· != ·) s
/-- CMPI .lt (R118): IMM8 sign-extended. -/
def execCmpiLt (g : Guard) (d a i : Nat) (s : State) : Out := cmpRI g d a i (·.slt ·) s
/-- CMPI .ge (R118): IMM8 sign-extended. -/
def execCmpiGe (g : Guard) (d a i : Nat) (s : State) : Out := cmpRI g d a i (fun a b => !a.slt b) s
/-- CMPI .ltu (R118): IMM8 sign-extended. -/
def execCmpiLtu (g : Guard) (d a i : Nat) (s : State) : Out := cmpRI g d a i (·.ult ·) s
/-- CMPI .geu (R118): IMM8 sign-extended. -/
def execCmpiGeu (g : Guard) (d a i : Nat) (s : State) : Out := cmpRI g d a i (fun a b => !a.ult b) s
/-- PAND (R119). -/
def execPand (g : Guard) (d a b : Nat) (s : State) : Out := plog g d a b (· && ·) s
/-- POR (R119). -/
def execPor (g : Guard) (d a b : Nat) (s : State) : Out := plog g d a b (· || ·) s
/-- PXOR (R119). -/
def execPxor (g : Guard) (d a b : Nat) (s : State) : Out := plog g d a b (· != ·) s
/-- PANDN (R119). -/
def execPandn (g : Guard) (d a b : Nat) (s : State) : Out := plog g d a b (fun a b => a && !b) s
/-- PORN (R119). -/
def execPorn (g : Guard) (d a b : Nat) (s : State) : Out := plog g d a b (fun a b => a || !b) s
/-- PNOT (R119). -/
def execPnot (g : Guard) (d a : Nat) (s : State) : Out := plog g d a 0 (fun a _ => !a) s
/-- SEL (R120): x[a] when p[n] reads 1, else x[b]. -/
def execSel (g : Guard) (d a b n : Nat) (s : State) : Out := slotOp g 1 (fun s c => c.result (s.now c) 1 (.x d (if c.readP n then s.readX c a else s.readX c b))) s
/-- SETB (R121): any 64-bit value. -/
def execSetb (g : Guard) (d a : Nat) (s : State) : Out := slotOp g 1 (fun s c => c.result (s.now c) 1 (.b d (s.readX c a))) s
/-- GETB (R121). -/
def execGetb (g : Guard) (d a : Nat) (s : State) : Out := slotOp g 1 (fun s c => c.result (s.now c) 1 (.x d (c.readB a))) s
/-- SETBI (R121): the byte address 32 × TGT. -/
def execSetbi (g : Guard) (d t : Nat) (s : State) : Out := slotOp g 1 (fun s c => c.result (s.now c) 1 (.b d (BitVec.ofNat 64 (32 * t)))) s

/-! ## System registers (R84, R122) -/

/-- COREID (Table 3.5). -/
def coreidOf (k : Nat) (c : Core) : Nat :=
  coreDie k * 2 ^ 27 + c.part % 8 * 2 ^ 24 + c.die % 8 * 2 ^ 21 + c.pcol % 32 * 2 ^ 16 + coreY k * 2 ^ 12 + coreX k * 2 ^ 8
    + clusterOf k * 4 + posOf k
/-- SEQ (Table 3.6), of the bundle under issue. -/
def seqOf (c : Core) : Nat :=
  c.iss.qn % 4 * 2 ^ 50 + c.iss.dly % 4 * 2 ^ 48 + c.iss.tgt % 2 ^ 13 * 2 ^ 32 + c.iss.pc % 2 ^ 13
/-- TRAPINFO (Table 3.7). -/
def trapinfoOf (i : TrapInfo) : Nat := i.info % 2 ^ 32 * 2 ^ 32 + i.pc % 2 ^ 13 * 2 ^ 19 + i.slot % 8 * 2 ^ 16 + i.cause % 256
/-- SRATE (Table 1.7). -/
def srateOf (q : Part) : Nat :=
  q.overLimit.toNat * 2 ^ 17 + q.pend.isSome.toNat * 2 ^ 16 + (if q.pend.isSome then q.next else q.rate) * 2 ^ 8 + q.rate
/-- HOLDINFO (Table 1.9). -/
def holdinfoOf (q : Part) : Nat := q.holdCount * 2 ^ 32 + q.holdWdrn * 2 ^ 16 + q.holdLast
/-- TSYNC (Table 1.5). -/
def tsyncOf (v : Servo) : Nat :=
  wrap 16 v.offs * 2 ^ 32 + wrap 8 v.fadj * 2 ^ 16 + v.src * 2 ^ 4
    + (match v.st with | .free => 0 | .acquiring => 1 | .locked => 2 | .holdover => 3)
/-- LEASE (Table 8.4). -/
def leaseOf (s : State) (k : Nat) (c : Core) : Nat :=
  let u := s.unit (unitOf k)
  let t := s.now c
  let held := c.lease == 2
  (if held then (u.g + 16384 - t) % 2 ^ 15 * 2 ^ 32 + u.cmds % 128 * 2 ^ 16 else 0)
    + (c.cmds.any fun m => decide (t < m.s)).toNat * 2 ^ 5
    + (c.cmds.any fun m => decide (m.s ≤ t) && decide (t < m.c)).toNat * 2 ^ 4
    + u.h % 4 * 4 + c.lease
/-- A system register, by number (Table 3.4), at the start of the issue tick. -/
def State.sysreg (s : State) (k : Nat) (c : Core) (n : Nat) : Word :=
  let q := s.part c.part
  if n = 0x000 then BitVec.ofNat 64 (coreidOf k c)
  else if n = 0x001 then BitVec.ofNat 64 (seqOf c)
  else if n = 0x002 then BitVec.ofNat 64 (trapinfoOf c.trap)
  else if n = 0x010 then BitVec.ofNat 64 (s.now c)
  else if n = 0x011 then BitVec.ofNat 64 (s.wtime - Config.skew (coreDie k) % 2)
  else if n = 0x012 then BitVec.ofNat 64 (srateOf q)
  else if n = 0x013 then BitVec.ofNat 64 (holdinfoOf q)
  else if n = 0x014 then BitVec.ofNat 64 (tsyncOf s.servo)
  else if n = 0x020 then c.fpflags.setWidth 64
  else if n = 0x021 then c.rngkey
  else if n = 0x022 then c.rngctr
  else if n = 0x030 then BitVec.ofNat 64 c.iss.budget
  else if n = 0x031 then BitVec.ofNat 64 c.iss.ecnt
  else if n = 0x032 then BitVec.ofNat 64 (leaseOf s k c)
  else Tab.get 0 c.group n

/-- SYSRD (R122): lands within 2 ticks. -/
def execSysrd (g : Guard) (d n : Nat) (s : State) : Out :=
  slotOp g 1 (fun s c => c.result (s.now c) 2 (.x d (s.sysreg s.cur.core c n))) s

/-- SYSWR (R122): the value stands from tick t + 1; a write of an RO register changes nothing. Flags that land in that tick are added after
a write of FPFLAGS, and flags of operations still under way land in later ticks (R46). -/
def execSyswr (g : Guard) (a n : Nat) (s : State) : Out :=
  slotOp g 1 (fun s c =>
    if n = 0x020 ∨ n = 0x021 ∨ n = 0x022 then c.result (s.now c) 1 (.sys n (s.readX c a)) else c) s

/-- QRD (R123): half h of q[a]. -/
def execQrd (g : Guard) (d a : Nat) (h : Bool) (s : State) : Out :=
  slotOp g 1 (fun s c => c.result (s.now c) 1 (.x d ((c.readQ a).extractLsb' (if h then 64 else 0) 64))) s

end Sys2Proof.Machine
end

