-- ==== Sys2Proof/Machine/Device.lean ====
section
/-! DEFINITION. Device memory: placement (R345, R346), ownership (R355, R356), lines with what they were written under (R330,
R331, R353), tensor descriptors and version records (R322 to R329), page walks and translation buffers (R348 to R351). Memory holds
plaintext; a line read under another version, generation or epoch than it was written under fails its tag (log entry 3). -/
namespace Sys2Proof.Machine

/-! ## Events of the machine in wall time -/

/-- Put an event of wall tick w in its place among the waiting ones: after those of earlier or equal ticks. -/
def insertEvent (w : Nat) (i : Ev) : List (Nat × Ev) → List (Nat × Ev)
  | [] => [(w, i)]
  | (v, j) :: t => if v ≤ w then (v, j) :: insertEvent w i t else (w, i) :: (v, j) :: t
/-- An event at wall tick w. -/
def State.atWall (s : State) (w : Nat) (i : Ev) : State := { s with events := insertEvent w i s.events }
/-- An event that the package makes happen after a wall time that the spec leaves open, of at least n ticks: the delay is free (log entry 6). -/
def State.laterBy (s : State) (n code : Nat) (i : Ev) : State :=
  s.atWall (s.wtime + 1 + n + Config.free (2 ^ 20) (s.epoch * 2 ^ 40 + code)) i
def State.later (s : State) (code : Nat) (i : Ev) : State := s.laterBy 0 code i
/-- The same, within n wall ticks. -/
def State.within (s : State) (code n : Nat) (i : Ev) : State :=
  s.atWall (s.wtime + 1 + Config.free (2 ^ 20) (s.epoch * 2 ^ 40 + code) % n) i
/-- Bits of a wide number. -/
def field (x hi lo : Nat) : Nat := x / 2 ^ lo % 2 ^ (hi + 1 - lo)

/-! ## Placement (Table 17.1, R346) -/

/-- Bytes of an HBM stack and of a die's station memory. -/
def memSize (station : Bool) : Nat := if station then 3 * 2 ^ 29 else 2 ^ 36
/-- log2 of the die count. -/
def Part.logN (q : Part) : Nat := Nat.log2 q.dies.length
/-- The fold f of R346. -/
def homeFold (gi : Nat) : Nat := (List.range 9).foldl (fun f j => f ^^^ (gi / 2 ^ (3 * j) % 8)) 0
/-- homedie: die index and local offset of a HASHED offset, k = log2 of the die count (R346). -/
def homedie (k o : Nat) : Nat × Nat := (homeFold (o / 4096) % 2 ^ k, o / 4096 / 2 ^ k * 4096 + o % 4096)
/-- Die index and local offset of a device address, or none outside its memory (Table 17.1). -/
def Part.locate (q : Part) (station hashed : Bool) (home addr : Nat) : Option (Nat × Nat) :=
  if hashed then
    if addr < q.dies.length * memSize station then some (homedie q.logN addr) else none
  else if addr < memSize station ∧ home < q.dies.length then some (home, addr) else none
/-- The physical die of a die index. -/
def Part.pdie (q : Part) (d : Nat) : Nat := q.dies.getD d 0
/-- Memory key of a byte of device memory. -/
def devKey (station : Bool) (pd off : Nat) : Nat := if station then stationKey pd off else hbmKey pd off
/-- Key of the ownership entry of the granule of a local offset. -/
def ownKey (station : Bool) (pd off : Nat) : Nat := 2 ^ 21 * pd + 2 ^ 20 * station.toNat + off / 65536
/-- Key of the stamp of an HBM line. -/
def lineKey (pd off : Nat) : Nat := 2 ^ 30 * pd + off / 64

/-! ## Ownership (R355, R356) -/

def State.own (s : State) (station : Bool) (pd off : Nat) : Own := Tab.get Own.reset s.owns (ownKey station pd off)
def State.setOwn (s : State) (station : Bool) (pd off : Nat) (o : Own) : State :=
  { s with owns := Tab.set Own.reset s.owns (ownKey station pd off) o }
/-- Whether a generation is live (R338). -/
def Part.live (q : Part) (g : Nat) : Bool := g == q.gen || g + 1 == q.gen
/-- The shunter's check of a beat (Table 17.5). -/
def shunterMay (o : Own) (asid : Nat) : Bool := o.v && o.asid == asid && !o.code && !o.pt
/-- The stationmaster's check (Table 17.5): a code-sealed granule refuses it too (R273). -/
def masterMay (o : Own) (asid : Nat) : Bool := o.v && o.asid == asid && !o.code
/-- The check of the loaders of a kernel image (Table 17.5), and of the leader that seals and measures it (R273). -/
def loaderMay (o : Own) (asid : Nat) : Bool := o.v && o.asid == asid && o.code

/-! ## Version records (R326) -/

def vrecKey (pd tid : Nat) : Nat := 2 ^ 18 * pd + tid % 2 ^ 18
def State.vrec (s : State) (pd tid : Nat) : VRec := Tab.get VRec.reset s.vrecs (vrecKey pd tid)
/-- STATE codes of Table 16.4. -/
def TensorSt.code : TensorSt → Nat
  | .invalid => 0 | .empty => 1 | .closed => 2 | .opened => 3 | .torn => 4 | .erased => 5
/-- The device address of the descriptor of tensor tid (R322), when there is a table. -/
def Part.descAddr (q : Part) (tid : Nat) : Option Nat :=
  if 1 ≤ q.tnlog ∧ q.tnlog ≤ 16 then some (q.tnbase * 4096 + 64 * (tid % 2 ^ q.tnlog)) else none
/-! ## The version area (R326, R327) -/

/-- A version record as its 32 bytes (Table 16.3). -/
def VRec.word (r : VRec) : Nat :=
  r.psn.toNat * 2 ^ 225 + r.digok.toNat * 2 ^ 224 + r.st.code * 2 ^ 221 + r.kgen % 2 ^ 16 * 2 ^ 205 + r.egen % 2 ^ 16 * 2 ^ 189 + r.asid % 2 ^ 12 * 2 ^ 177
    + r.cov % 2 ^ 40 * 2 ^ 137 + r.tid % 2 ^ 32 * 2 ^ 96 + r.next % 2 ^ 32 * 2 ^ 64 + r.ever % 2 ^ 32 * 2 ^ 32 + r.ver % 2 ^ 32
/-- Line i of the version area of a die: two records. -/
def State.recordLine (s : State) (pd i : Nat) : List Byte :=
  leBytes 32 (s.vrec pd (2 * i)).word ++ leBytes 32 (s.vrec pd (2 * i + 1)).word
/-- Node i of a level of the tree over a die's version area, level 0 the record lines: the eight MACs of its children. The node of level 6 is the root,
held in the compute die. -/
def State.treeNode (s : State) (pd : Nat) : Nat → Nat → List Byte
  | 0, i => s.recordLine pd i
  | n + 1, i => (List.range 8).flatMap fun j => leBytes 8 (Config.treeMac (s.die pd).treeKey (s.treeNode pd n (8 * i + j))).toNat
/-- Whether the path of a record to the root holds, as its controller checks it at every read: each line of it has the MAC that its parent keeps, which a write
of the record brings up to date. What fails it is a fault of the memory, which a check finds (Machine/Health.lean). -/
def State.pathHolds (s : State) (pd tid : Nat) : Bool := !(s.die pd).broken.contains (tid % 2 ^ 18)

/-! ## Fields of a descriptor (R323, R325) -/

/-- The fields of a descriptor that a range buffer keeps. -/
def descBind (x : Nat) : RangeBind where
  tid := field x 223 192
  vbase := field x 63 0
  offset := field x 191 128
  limit := field x 127 64
  rd := field x 293 293 == 1
  wr := field x 294 294 == 1
  shard := field x 295 295 == 1
  station := field x 292 292 == 1
  hashed := field x 291 291 == 1
  home := field x 290 288
  asid := field x 283 272
/-- The device address of byte o of a tensor (R325). -/
def RangeBind.dev (b : RangeBind) (o : Nat) : Nat := (b.vbase + b.offset + o) % 2 ^ 64
/-! ## Lines (R330, R331, R353) -/

/-- The tensor id under which paged lines are tagged. -/
def pagedTid : Nat := 2 ^ 32 - 1
/-- The stamp of paged lines of a granule. -/
def Own.stamp (o : Own) : Stamp := ⟨pagedTid, o.epoch * 65536 + o.pgen, o.pgen, 0, 0, false⟩
/-- The stamp of a line of a tensor at a place under a version and a generation. -/
def Place.stamp (y : Place) (ver gen : Nat) : Stamp := ⟨y.tid, ver, gen, y.n, y.addr, false⟩
/-- The device address of a local offset of a physical die under a placement, when there is one: the inverse of `locate`. -/
def Part.devOf (q : Part) (hashed : Bool) (home pd off : Nat) : Option Nat :=
  if hashed then
    if q.dies.contains pd then
      ((List.range (2 ^ q.logN)).find? fun j => homeFold (off / 4096 * 2 ^ q.logN + j) % 2 ^ q.logN == q.dies.idxOf pd).map fun j =>
        (off / 4096 * 2 ^ q.logN + j) * 4096 + off % 4096
    else none
  else if q.pdie home = pd ∧ home < q.dies.length then some off else none
/-- The offset in a bound tensor of a byte of a die's memory, when it lies in the tensor. -/
def RangeBind.offsetOf (b : RangeBind) (q : Part) (station : Bool) (pd off : Nat) : Option Nat :=
  if b.station = station then
    match q.devOf b.hashed b.home pd off with
    | some a => if b.dev 0 ≤ a ∧ a < b.dev 0 + b.limit then some (a - b.dev 0) else none
    | none => none
  else none
/-- How a line that is excepted from a cover is named. -/
def exceptKey (station : Bool) (pd off : Nat) : Nat := 2 ^ 36 * (1 + station.toNat) + lineKey pd off
/-- The cover that a line stands under, and its offset in the tensor. -/
def State.coverAt (s : State) (station : Bool) (pd off : Nat) : Option (Cover × Nat) :=
  s.covers.findSome? fun c =>
    if c.except.contains (ownKey station pd off) || c.except.contains (exceptKey station pd off) then none
    else (c.bind.offsetOf (s.part c.part) station pd off).map fun o => (c, o)
/-- What an HBM line was written under; a line without a stamp stands under the save that covers it, or as its granule was assigned. -/
def State.stampAt (s : State) (pd off : Nat) : Stamp :=
  match Tab.find s.stamps (lineKey pd off) with
  | some x => x
  | none => match s.coverAt false pd off with
    | some c => { c.1.stamp with n := c.2 / 64, addr := c.1.bind.dev c.2 / 64 * 64 }
    | none => (s.own false pd off).stamp
/-- Except names from every cover. -/
def State.uncover (s : State) (key : Nat) : State :=
  { s with covers := s.covers.map fun c => { c with except := if c.except.contains key then c.except else key :: c.except } }
/-- Whether an offset of a save area lies in an area marked opaque (R251, Table 10.11): the context header; of a core block the landing
buffers and latches, the queues of the shunters, the mailboxes, and at cluster position 0 the matrix unit. The table gives the range buffer at +0x2000 of a shunter's
block no layout either, and its line does not say opaque: it is taken as opaque too (log entry 24). -/
def saveOpaque (o : Nat) : Bool :=
  let f := o % 2 ^ 22
  o < 2 ^ 22 || (0x260000 ≤ f && f < 0x290000) || (0x292000 ≤ f && f < 0x294000) || (0x296000 ≤ f && f < 0x2A0000)
    || (0x2A2000 ≤ f && f < 0x2AC000)
def State.setStamp (s : State) (pd off : Nat) (x : Stamp) : State := { s with stamps := Tab.put s.stamps (lineKey pd off) x }
/-- Forget the stamps of a granule: its lines stand as assigned. -/
def State.clearStamps (s : State) (pd off : Nat) : State :=
  { s.uncover (ownKey false pd off) with stamps := s.stamps.filter fun e => !(e.1 / 1024 == lineKey pd off / 1024) }

/-! ## Device memory as the stationmasters read it (log entry 7: rings, records and tables lie in HASHED HBM) -/

/-- Bytes at a HASHED HBM device address; those of a line with an uncorrectable error are free (R363). -/
def State.devByte (s : State) (q : Part) (addr : Nat) : Byte :=
  let l := homedie q.logN addr
  let pd := q.pdie l.1
  if (Tab.find s.stamps (lineKey pd l.2)).any (·.bad) then BitVec.ofNat 8 (Config.free (2 ^ 20 + 10) (s.epoch * 2 ^ 52 + hbmKey pd l.2))
  else s.byte (hbmKey pd l.2)
def State.devLoad (s : State) (q : Part) (addr n : Nat) : Nat := leNat ((List.range n).map fun i => s.devByte q (addr + i))
/-- The key of a HASHED HBM device address. -/
def Part.hostKey (q : Part) (a : Nat) : Nat := let l := homedie q.logN a; hbmKey (q.pdie l.1) l.2

/-! ### Races with agents of no domain (R312, R316, R319) -/

/-- Whether a launch has met the line of a byte: has written it when `wr`. -/
def Launch.metLine (y : Launch) (key : Nat) (wr : Bool) : Bool := (Tab.find y.met (key / 64)).any fun w => !wr || w
/-- Whether a launch of a partition that has not retired has. -/
def Part.metBy (q : Part) (key : Nat) (wr : Bool) : Bool :=
  (q.launches.any fun e => e.2.metLine key wr) || q.ctxs.any fun x => x.2.savedLaunches.any fun e => e.2.metLine key wr
def State.metBy (s : State) (p key : Nat) (wr : Bool) : Bool := (s.part p).metBy key wr
/-- Change every launch of a partition that has been claimed and has not retired. -/
def Part.mapLaunches (q : Part) (f : Launch → Launch) : Part :=
  { q with
    launches := q.launches.map fun (e : Nat × Launch) => (e.1, f e.2)
    ctxs := q.ctxs.map fun (x : Nat × Ctx) => (x.1, { x.2 with savedLaunches := x.2.savedLaunches.map fun (e : Nat × Launch) => (e.1, f e.2) }) }
/-- Whether a partition has no launch that such an access could race with. -/
def Part.unlaunched (q : Part) : Bool := q.launches.isEmpty && q.ctxs.all fun x => x.2.savedLaunches.isEmpty
/-- Whether n bytes at a device address lie in memory and the entry of every granule that they touch passes a check. -/
def State.devAll (s : State) (q : Part) (addr n : Nat) (may : Own → Bool) : Bool :=
  decide (addr + n ≤ q.dies.length * memSize false) && (List.range (n / 4096 + 2)).all fun i =>
    let l := homedie q.logN (min (addr + 4096 * i) (addr + n - 1))
    may (s.own false (q.pdie l.1) l.2)
/-- Whether every granule of n bytes at a device address is the context's, under a generation that is live (R354, R356). -/
def State.devOwned (s : State) (q : Part) (asid addr n : Nat) : Bool := s.devAll q addr n fun o => masterMay o asid && q.live o.pgen
/-- A record of n bytes of a context, or none when the ownership check refuses it. -/
def State.devRecord (s : State) (q : Part) (asid addr n : Nat) : Option Nat :=
  if s.devOwned q asid addr n then some (s.devLoad q addr n) else none

/-- Whether the loader may read n bytes of an image: code-sealed granules of the context, whose lines stand under a live generation (R354, R356). -/
def State.loaderReads (s : State) (q : Part) (asid image n : Nat) : Bool :=
  s.devAll q image n (fun o => loaderMay o asid) && (List.range ((n + 63) / 64)).all fun i =>
    let l := homedie q.logN (image + 64 * i)
    q.live (s.stampAt (q.pdie l.1) (l.2 / 64 * 64)).gen
/-- The length that the header of an image gives it (R112). -/
def imLen (h : Nat) : Nat := field h 383 352

/-! ## Descriptors (R322 to R324, R326) -/

/-- Whether a descriptor's own fields are valid (R324). -/
def descFieldsOk (q : Part) (x : Nat) : Bool :=
  let b := descBind x
  x / 2 ^ 328 == 0 && field x 326 309 == 0 && field x 303 296 == 0 && field x 287 284 == 0
  && b.limit % 64 == 0 && decide (64 ≤ b.limit) && decide (b.limit ≤ 2 ^ 38) && b.vbase % 65536 == 0
  && b.dev 0 % 65536 == 0 && decide (b.home < q.dies.length)
  && (q.locate b.station b.hashed b.home (b.dev 0)).isSome && (q.locate b.station b.hashed b.home (b.dev 0 + b.limit - 1)).isSome
/-- Whether a record stands for a tensor of this context and partition. -/
def VRec.isFor (r : VRec) (p tid asid : Nat) : Bool := r.tid == tid && r.asid == asid && r.part == p
/-- A version record as its controller reads it: one whose path fails is of no context (R327). -/
def State.recAt (s : State) (pd tid : Nat) : VRec := if s.pathHolds pd tid then s.vrec pd tid else VRec.reset
/-- The version record of a bound tensor. -/
def State.recOf (s : State) (p : Nat) (b : RangeBind) : VRec := s.recAt ((s.part p).pdie b.home) b.tid
/-- Whether a tensor can be read, and written, now (R329). -/
def VRec.readable (r : VRec) (b : RangeBind) (p : Nat) : Bool :=
  r.isFor p b.tid b.asid && r.st == .closed && b.rd && !r.psn && (!b.shard || r.digok)
def VRec.writable (r : VRec) (b : RangeBind) (p : Nat) : Bool := r.isFor p b.tid b.asid && r.st == .opened && b.wr
/-- The place of offset o of a bound tensor. -/
def State.tensorPlace (s : State) (p : Nat) (b : RangeBind) (o : Nat) : Option Place :=
  ((s.part p).locate b.station b.hashed b.home (b.dev o)).map fun l => ⟨b.station, l.1, l.2, b.hashed, false, b.tid, b.home, o / 64, b.dev o / 64 * 64⟩
/-- The bound tensor of id tid for a context, when its descriptor is valid against the version record of its slot (R322, R324, R326): one whose record is INVALID
becomes EMPTY as it is read (`State.pinTensor`). The entry must lie in a granule that is assigned and not code-sealed (R273, R356). -/
def State.checkDesc (s : State) (p asid tid : Nat) : Option RangeBind :=
  let q := s.part p
  match q.descAddr tid with
  | none => none
  | some a =>
    let x := s.devLoad q a 64
    let b := descBind x
    let r := s.vrec (q.pdie b.home) tid
    let same := field x 308 308 == r.psn.toNat && field x 307 307 == r.digok.toNat && field x 306 304 == r.st.code
      && field x 271 256 == r.kgen && field x 255 224 == r.ver
    if field x 223 192 = tid ∧ field x 327 327 = 1 ∧ b.asid = asid ∧ descFieldsOk q x ∧ same ∧ s.pathHolds (q.pdie b.home) tid
        ∧ s.devAll q a 64 (fun o => o.v && !o.code) ∧ (r.st = .invalid ∨ r.isFor p tid asid) then some b
    else none
/-- The save tensor of a context, when it is bound and large enough (R251). -/
def State.saveTensor (s : State) (p a : Nat) (x : Ctx) : Option RangeBind :=
  (s.checkDesc p a x.savetid).filter fun b => decide (0x400000 * (256 * (s.part p).dies.length + 1) ≤ b.limit)
/-- An agent has written a line: if it lies in the save area of a context that is HALTED or SAVED, that area is spoiled (R251). -/
def State.spoil (s : State) (q : Part) (station : Bool) (pd off : Nat) : State :=
  (s.parts.filter fun z => z.2.dies == q.dies).foldl (fun s z => z.2.ctxs.foldl (fun s e =>
    if (e.2.st = .halted ∨ e.2.st = .saved) ∧ ((s.saveTensor z.1 e.1 e.2).any fun b => (b.offsetOf q station pd off).isSome) then
      s.modCtx z.1 e.1 fun x => { x with spoiled := true }
    else s) s) s

/-! ### Writes of stationmasters (R251, R273, R316) -/

/-- A stationmaster of a partition writes one byte of memory: free where it races with a launch that has not retired, which notes it (R316; log entry 48). -/
def State.masterKey (q : Part) (s : State) (e : Nat × Byte) : State :=
  let key := e.1
  if q.unlaunched then s.setByte key e.2
  else
    let v := if q.metBy key false || (s.hits.any fun h => h.1 == key) || (s.seen.any fun h => decide (h.1 ≤ key) && decide (key < h.1 + h.2.1)) then BitVec.ofNat 8 (Config.free (2 ^ 20 + 8) (s.epoch * 2 ^ 52 + key)) else e.2
    { s.setByte key v with parts := s.parts.map fun (z : Nat × Part) =>
      if z.2.dies = q.dies then (z.1, z.2.mapLaunches fun y => { y with host := (key, true) :: y.host }) else z }
/-- A stationmaster writes bytes from a memory key upwards. -/
def State.masterBytes (q : Part) (s : State) (key : Nat) (bs : List Byte) : State :=
  (((List.range bs.length).map (key + ·)).zip bs).foldl (State.masterKey q) s
/-- An agent of no tensor has written a line of HBM: a save area that holds it is spoiled (R251), and the line stands as a page of its granule (R353). -/
def State.lineWritten (s : State) (q : Part) (addr : Nat) : State :=
  let l := homedie q.logN addr
  let pd := q.pdie l.1
  let s1 := s.spoil q false pd l.2
  let x := (s1.own false pd l.2).stamp
  if s1.stampAt pd l.2 = x then s1 else s1.setStamp pd l.2 x
/-- A stationmaster of a partition writes n bytes of a record at a device address: a code-sealed granule refuses them (R273). -/
def State.devStore (s : State) (q : Part) (addr n v : Nat) : State :=
  let may := fun (a : Nat) => let l := homedie q.logN a; !(s.own false (q.pdie l.1) l.2).code
  let s1 := ((((List.range n).map (addr + ·)).zip (leBytes n v)).filter fun e => may e.1).foldl (fun s e => State.masterKey q s (q.hostKey e.1, e.2)) s
  (List.range ((addr + n - 1) / 64 + 1 - addr / 64)).foldl (fun s i => if may (addr / 64 * 64 + 64 * i) then s.lineWritten q (addr / 64 * 64 + 64 * i) else s) s1

/-! ## Event records (R239, R248, R389) -/

/-- A copy fault record (Table 9.6). -/
def copyRecord (d : DueTrap) : Nat :=
  d.info.info % 2 ^ 32 * 2 ^ 96 + d.beat % 2 ^ 32 * 2 ^ 64 + d.ipc % 2 ^ 13 * 2 ^ 51 + d.stream % 2 * 2 ^ 50 + d.prog % 16 * 2 ^ 46
    + d.info.cause % 256 * 2 ^ 32 + d.itick % 2 ^ 32
/-- The 32 bytes of an event record: the record of a machine check whole (R389), that of a copy fault with the core's d.y.x and zeros (R248), and of any other
event, whose layout the spec does not give, the free value `open'` (log entry 25). -/
def EventRec.word (e : EventRec) (die open' : Nat) : Nat :=
  match e.check, e.copy with
  | some r, _ => r.toNat
  | none, some d => (die % 8 * 256 + e.core % 256) * 2 ^ 128 + copyRecord d
  | none, none => open'
/-- Append an event record to the event ring of a context: 32 bytes after those of the records before it, when the ownership check lets the stationmaster write
them (log entry 25). -/
def State.appendEvent (s : State) (p a : Nat) (e : EventRec) : State :=
  match s.ctx p a with
  | none => s
  | some x =>
    let q := s.part p
    let n := x.events.length
    let s1 := s.modCtx p a fun x => { x with events := x.events ++ [e] }
    if s.devOwned q a (x.evring + 32 * n) 32 then
      s1.devStore q (x.evring + 32 * n) 32 (e.word (s.core e.core).die (Config.free (2 ^ 20 + 7) ((p * 4096 + a) * 2 ^ 64 + n)))
    else s1

/-! ## Error histories (R363, R365) -/

/-- Count an uncorrectable error of a line of a die in the history of its pseudo-channel, found by `src`. -/
def State.countError (s : State) (die line src : Nat) : State :=
  let key := 192 * die + line % 192
  let h := Tab.get EccHist.reset s.ecc key
  { s with ecc := Tab.set EccHist.reset s.ecc key { h with ue := min 65535 (h.ue + 1), src := src, kind := 2, line := line } }
/-- Count a corrected one: the line is as it was, and has been written back. -/
def State.countFixed (s : State) (die line src : Nat) : State :=
  let key := 192 * die + line % 192
  let h := Tab.get EccHist.reset s.ecc key
  { s with ecc := Tab.set EccHist.reset s.ecc key { h with ce := min (2 ^ 32 - 1) (h.ce + 1), src := src, kind := 1, line := line } }

/-- An agent other than a copy, a digest check, the patrol or a walker reads n bytes at a HASHED HBM device address: the uncorrectable lines that it meets are counted
(R363). Table 17.9 names no SRC for it: they count as found by a copy (DESIGN CHOICE, log entry 7). -/
def State.meetRecord (s : State) (q : Part) (addr n : Nat) : State :=
  (List.range ((addr + n + 63) / 64 - addr / 64)).foldl (fun s i =>
    let l := homedie q.logN (addr / 64 * 64 + 64 * i)
    let pd := q.pdie l.1
    if (Tab.find s.stamps (lineKey pd l.2)).any (·.bad) then s.countError pd (l.2 / 64) 0 else s) s

/-! ## Records and descriptors as they are written (R323, R326) -/

/-- The RO fields of a descriptor with those of a version record (R323, Table 16.2). -/
def descWithRecord (x : Nat) (r : VRec) : Nat :=
  x - field x 308 304 * 2 ^ 304 - field x 271 256 * 2 ^ 256 - field x 255 224 * 2 ^ 224
    + (r.psn.toNat * 16 + r.digok.toNat * 8 + r.st.code) * 2 ^ 304 + r.kgen % 2 ^ 16 * 2 ^ 256 + r.ver % 2 ^ 32 * 2 ^ 224
/-- Write a version record, and the RO fields of the tensor's descriptor with it (R323). -/
def State.setVrec (s : State) (q : Part) (pd tid : Nat) (r : VRec) : State :=
  let s1 := { s with vrecs := Tab.set VRec.reset s.vrecs (vrecKey pd tid) r }
  match q.descAddr tid with
  | none => s1
  | some a =>
    let x := s1.devLoad q a 64
    let y := descWithRecord x r
    if field x 223 192 = tid ∧ field x 327 327 = 1 ∧ y ≠ x then (s1.devStore q (a + 28) 6 (field y 271 224)).devStore q (a + 38) 1 (field y 311 304) else s1
/-- Read the descriptor of tensor tid for a context: the state, where an INVALID record has become EMPTY (R326), and the bound tensor, or none when the entry is
a miss or invalid. -/
def State.pinTensor (s : State) (p asid tid : Nat) : State × Option RangeBind :=
  match s.checkDesc p asid tid with
  | none => (s, none)
  | some b =>
    let pd := (s.part p).pdie b.home
    let r := s.vrec pd tid
    if r.st = .invalid then (s.setVrec (s.part p) pd tid { r with st := .empty, tid := tid, asid := asid, part := p, ver := r.next }, some b)
    else (s, some b)
/-- The TENSOR fault of a reader that is no core (R324): an event record of the context with the tensor id. -/
def State.tensorFault (s : State) (p asid tid : Nat) : State :=
  s.appendEvent p asid ⟨0, ⟨0x0C, 0, 0, tid % 2 ^ 32⟩, none, none⟩
/-- A descriptor as such a reader reads it: an invalid one is its TENSOR fault. -/
def State.readDesc (s : State) (p asid tid : Nat) : State × Option RangeBind :=
  match s.pinTensor p asid tid with
  | (s1, some b) => (s1, some b)
  | (s1, none) => (s1.tensorFault p asid tid, none)

/-! ## What stands at rest (R330, R331, R353): derived from the plaintext and the stamp of a line -/

/-- A key of a tenant's generation, by its info string (R330). -/
def Part.genKey (q : Part) (info : String) (g : Nat) : BitVec 256 := Config.hkdf (leBytes 32 q.secret.toNat) [] (ascii info ++ leBytes 2 g)
/-- ctr(g, tid, ver, n, j). -/
def lineCounter (x : Stamp) (j : Nat) : BitVec 128 :=
  BitVec.ofNat 128 ((((x.gen % 2 ^ 16 * 2 ^ 32 + x.tid % 2 ^ 32) * 2 ^ 32 + x.ver % 2 ^ 32) * 2 ^ 40 + x.n % 2 ^ 40) * 2 ^ 8 + j % 4)
/-- The keystream of a line of a tensor. -/
def Part.lineStream (q : Part) (x : Stamp) : Beat :=
  let a := fun (j : Nat) => Config.aes256 (q.genKey "TL8800-data" x.gen) (lineCounter x j)
  a 3 ++ a 2 ++ a 1 ++ a 0
/-- The tweak of a paged line (R353): EPOCH, die, MEM and line of the local offset. -/
def pageTweak (x : Stamp) (pd off : Nat) : BitVec 128 :=
  BitVec.ofNat 128 (((x.ver / 65536 % 65536 * 8 + pd % 8) * 2 + 0) * 2 ^ 40 + off / 64 % 2 ^ 40)
/-- AES-256 of a block that is a number with its first byte the least significant, as IEEE 1619 counts. -/
def aesLow (key : BitVec 256) (b : BitVec 128) : BitVec 128 :=
  BitVec.ofNat 128 (leNat (blockBytes (Config.aes256 key (BitVec.ofNat 128 (leNat (blockBytes b))))))
/-- One line under AES-256-XTS as one data unit of four blocks: block j goes under the encrypted tweak times α to the j (IEEE 1619). -/
def xtsLine (k1 k2 : BitVec 256) (tweak : BitVec 128) (v : Beat) : Beat :=
  let double := fun (t : BitVec 128) => (t <<< 1) ^^^ (if t.getLsbD 127 then 0x87 else 0)
  let t0 := aesLow k2 tweak
  let t1 := double t0
  let t2 := double t1
  let t3 := double t2
  let b := fun (j : Nat) (t : BitVec 128) => aesLow k1 (v.extractLsb' (128 * j) 128 ^^^ t) ^^^ t
  b 3 t3 ++ b 2 t2 ++ b 1 t1 ++ b 0 t0
/-- The ciphertext of plaintext v that stands under x at a line of die pd. -/
def Part.cipherLine (q : Part) (x : Stamp) (pd off : Nat) (v : Beat) : Beat :=
  if x.tid = pagedTid then xtsLine (q.genKey "TL8800-data" x.gen) (q.genKey "TL8800-xts" x.gen) (pageTweak x pd off) v
  else v ^^^ q.lineStream x
/-- The tag of a ciphertext under x at a local offset, the first 8 bytes of the GCM tag (R331): IV and additional data end with their low bytes first. A paged line has its local offset for an
address and the line of it for a number (R353; log entry 3). -/
def Part.lineTag (q : Part) (x : Stamp) (off : Nat) (ct : Beat) : BitVec 64 :=
  let paged := x.tid == pagedTid
  BitVec.ofNat 64 (leNat ((blockBytes (Config.gcmTag (q.genKey "TL8800-tag" x.gen) (leBytes 4 (if paged then off / 64 else x.n) ++ leBytes 4 x.ver ++ leBytes 4 x.tid)
    (leBytes 64 ct.toNat ++ leBytes 8 (if paged then off / 64 * 64 else x.addr) ++ leBytes 4 x.ver) [])).take 8))

/-- The 64 bytes of a line. -/
def State.line (s : State) (key : Nat) : Beat := BitVec.ofNat 512 (s.load key 64)
/-- The 64 bytes of a line of device memory; those of an opaque area of a save are free. -/
def State.memLine (s : State) (station : Bool) (pd off : Nat) : Beat :=
  let plain := s.line (devKey station pd off)
  if !station && (Tab.find s.stamps (lineKey pd off)).isSome then plain
  else match s.coverAt station pd off with
    | some c => if saveOpaque c.2 then BitVec.ofNat 512 (Config.free (2 ^ 21) (c.1.num * 2 ^ 40 + c.2 / 64)) else plain
    | none => plain
/-- Write bytes from an address upwards for agent k, a free byte where another core has written in this tick, or in a race with what has
gone before (R316). -/
def State.writeRaced (s : State) (k : Nat) (a : Nat) : List Byte → State
  | [] => s
  | v :: t =>
    let raced := (s.hits.any fun h => h.1 == a && h.2 != k) || s.unsettled k a true
    let v' := if raced then BitVec.ofNat 8 (Config.free k (2 ^ 241 + s.moment k * 2 ^ 56 + a)) else v
    ({ s with mem := Tab.set (0 : Byte) s.mem a v', hits := (a, k) :: s.hits }).writeRaced k (a + 1) t
/-- Write a line for agent k. -/
def State.writeLine (s : State) (k a : Nat) (v : Beat) : State := s.writeRaced k a (leBytes 64 v.toNat)

/-- What reading a line of device memory gives: its bytes, or a refused owner, or a failed tag. -/
inductive LineRead where
  | data (v : Beat) | refused | tag
  deriving DecidableEq, Repr
/-- Read the line at a place for a context under a version and generation (R224, R356): paged lines take their granule's. -/
def State.readPlace (s : State) (p asid : Nat) (y : Place) (ver gen : Nat) : LineRead :=
  let q := s.part p
  let pd := q.pdie y.d
  let o := s.own y.station pd y.off
  if !shunterMay o asid || (y.paged && !y.station && !q.live o.pgen) then .refused
  else if y.station then .data (s.memLine true pd y.off)
  else
    let x := s.stampAt pd y.off
    let want : Stamp := if y.paged then o.stamp else y.stamp ver gen
    if x = want then .data (s.memLine false pd y.off) else .tag
/-- Write the line at a place (R224); none when the ownership check refuses it. -/
def State.writePlace (s : State) (k p asid : Nat) (y : Place) (ver gen : Nat) (v : Beat) : Option State :=
  let q := s.part p
  let pd := q.pdie y.d
  let o := s.own y.station pd y.off
  if !shunterMay o asid || (y.paged && !y.station && !q.live o.pgen) then none
  else
    let s1 := (s.spoil q y.station pd y.off).writeLine k (devKey y.station pd y.off) v
    some (if y.station then s1.uncover (exceptKey true pd y.off) else s1.setStamp pd y.off (if y.paged then o.stamp else y.stamp ver gen))
/-- Whether the line at a place is uncorrectable or has been marked so (R363). -/
def State.spoiltLine (s : State) (q : Part) (y : Place) : Bool := !y.station && (s.stampAt (q.pdie y.d) y.off).bad
/-- A reader meets the line at a place: an uncorrectable error of it counts (R363). -/
def State.meetError (s : State) (p : Nat) (y : Place) (src : Nat) : State :=
  if s.spoiltLine (s.part p) y then s.countError ((s.part p).pdie y.d) (y.off / 64) src else s
/-- Count a request of a beat issued on die index d at a place (R360, Table 17.8). -/
def State.countRequest (s : State) (p d : Nat) (y : Place) : State :=
  let n := (if y.hashed then 2 else 0) + (if y.d = d then 0 else 1)
  s.modPart p fun q => { q with reqCount := Tab.set 0 q.reqCount (4 * d + n) ((Tab.get 0 q.reqCount (4 * d + n) + 1) % 2 ^ 64) }

/-! ## Page walks (R348, R349) -/

/-- The entry of a table at a station-memory offset of a die index, when the walker may read it (Table 17.5). -/
def State.pte (s : State) (q : Part) (asid d off : Nat) : Option Nat :=
  let pd := q.pdie d
  let o := s.own true pd off
  if decide (d < q.dies.length) && o.v && o.asid == asid && o.pt && decide (off + 8 ≤ memSize true) then some (s.load (stationKey pd off) 8)
  else none
/-- Which entry of its table translates an address at a level: the one that it indexes, but any of its sixteen where a 64 KiB page is written with
entries that differ: which of them translates an address is free, by context and page, whatever the time (R33, R349). -/
def State.pteIndex (s : State) (q : Part) (asid va lvl d off idx : Nat) : Nat :=
  match s.pte q asid d (off + 8 * idx) with
  | none => idx
  | some e =>
    if lvl = 0 ∧ field e 4 4 = 1 ∧ ((List.range 16).any fun i => s.pte q asid d (off + 8 * (idx / 16 * 16 + i)) != some e) then
      idx / 16 * 16 + Config.free (2 ^ 20 + 2) (2 ^ 125 + (asid * 8 + q.dies.headD 0) * 2 ^ 44 + va / 4096) % 16
    else idx
/-- The entry that translates an address at a level. -/
def State.pteAt (s : State) (q : Part) (asid va lvl d off idx : Nat) : Option Nat := s.pte q asid d (off + 8 * s.pteIndex q asid va lvl d off idx)
/-- The walk from a level down (R349). -/
def State.walkFrom (s : State) (q : Part) (asid va : Nat) : Nat → Nat → Nat → Option TlbEntry
  | lvl, d, off =>
    let idx := va / 2 ^ (12 + 9 * lvl) % (if lvl = 3 then 32 else 512)
    match s.pteAt q asid va lvl d off idx with
    | none => none
    | some e =>
      let addr := field e 47 12 * 4096
      let leaf := field e 1 1 == 1
      let station := field e 6 6 == 1
      let hashed := field e 5 5 == 1
      let s64 := field e 4 4 == 1
      let home := field e 9 7
      if field e 0 0 = 0 ∨ field e 63 48 ≠ 0 ∨ field e 11 10 ≠ 0 then none
      else if leaf then
        if lvl = 3 ∨ (s64 ∧ lvl ≠ 0) then none
        else
          let size := if lvl = 2 then 2 ^ 30 else if lvl = 1 then 2 ^ 21 else if s64 then 2 ^ 16 else 2 ^ 12
          if addr % size ≠ 0 ∨ (q.locate station hashed home addr).isNone
            ∨ (q.locate station hashed home (addr + size - 1)).isNone then none
          else some ⟨asid, va / size * size, size, addr, station, hashed, home, field e 2 2 == 1, field e 3 3 == 1⟩
      else
        match lvl with
        | 0 => none
        | n + 1 => if !station ∨ hashed ∨ s64 then none else s.walkFrom q asid va n home addr
/-- walk(asid, va) of R349. -/
def State.walk (s : State) (q : Part) (asid va : Nat) : Option TlbEntry :=
  let r := (Tab.get (0 : Word) q.ptroot asid).toNat
  if va / 2 ^ 44 ≠ 0 ∨ field r 0 0 = 0 then none
  else s.walkFrom q asid va 3 (field r 7 5) (field r 47 12 * 4096)

/-- The entries that a walk reads from a level down: die index and offset of each (R349, R352). -/
def State.walkReads (s : State) (q : Part) (asid va : Nat) : Nat → Nat → Nat → List (Nat × Nat)
  | lvl, d, off =>
    let idx := s.pteIndex q asid va lvl d off (va / 2 ^ (12 + 9 * lvl) % (if lvl = 3 then 32 else 512))
    (d, off + 8 * idx) ::
    match s.pte q asid d (off + 8 * idx) with
    | none => []
    | some e =>
      match lvl with
      | 0 => []
      | n + 1 => if field e 0 0 = 0 ∨ field e 1 1 = 1 ∨ field e 6 6 = 0 ∨ field e 5 5 = 1 then [] else s.walkReads q asid va n (field e 9 7) (field e 47 12 * 4096)
/-- The entries that the walk for an address reads. -/
def State.walkPath (s : State) (q : Part) (asid va : Nat) : List (Nat × Nat) :=
  let r := (Tab.get (0 : Word) q.ptroot asid).toNat
  if va / 2 ^ 44 ≠ 0 ∨ field r 0 0 = 0 then [] else s.walkReads q asid va 3 (field r 7 5) (field r 47 12 * 4096)

/-- Whether an entry of a translation buffer holds an address. -/
def TlbEntry.holds (e : TlbEntry) (asid va : Nat) : Bool :=
  e.asid == asid && decide (e.vbase ≤ va) && decide (va < e.vbase + e.size)
/-- The place of an address inside a page. -/
def TlbEntry.place (q : Part) (e : TlbEntry) (va : Nat) : Option Place :=
  (q.locate e.station e.hashed e.home (e.dbase + va % e.size)).map fun l => ⟨e.station, l.1, l.2, e.hashed, true, 0, 0, 0, 0⟩
/-- Fill an entry: of 64, it replaces the one filled longest ago (R351). -/
def fillTlb (t : List TlbEntry) (e : TlbEntry) : List TlbEntry :=
  (if 64 ≤ t.length then t.drop 1 else t) ++ [e]

end Sys2Proof.Machine
end

