-- ==== Sys2Proof/Machine/Hold.lean ====
section
/-! DEFINITION. The signal box: holds (R28 to R30, R32), halts and stop records (R82, R243 to R245), the actions of a fault (R239, Table
10.9), resume (R246), the start of a teardown (R252), and faults found after issue (R225, R248). -/
namespace Sys2Proof.Machine

/-! ## Clearing a cause (R29, R30) -/

/-- Clear the causes that f names: requests before their hold tick are withdrawn, causes of a hold are cleared, and with the last of
them the resume is 64 wall ticks away. -/
def Part.clearHold (q : Part) (wall : Nat) (f : HoldReq → Bool) : Part :=
  let cs := q.causes.map fun r => if f r then { r with cleared := true } else r
  { q with
    reqs := q.reqs.filter fun r => !f r
    holdWdrn := min 65535 (q.holdWdrn + (q.reqs.filter f).length)
    causes := cs
    resumeAt := if q.held && q.resumeAt.isNone && cs.all (·.cleared) then some (wall + Config.resumeWall) else q.resumeAt }
/-- Clear one cause of partition p, with the tag of who raised it; requests raised by no agent of the model (tag 0) clear with it. -/
def State.clearHold (s : State) (p cause tag : Nat) : State :=
  s.modPart p fun q => q.clearHold s.wtime fun r => r.cause == cause && (r.tag == tag || r.tag == 0)
/-- Tag of one end of one beat of a copy. -/
def beatTag (k st id b : Nat) (dst : Bool) : Nat := 2 ^ 62 + (((id * 2 ^ 20 + b) * 2 + dst.toNat) * 2 + st) * 4096 + k

/-! ## Cores of a context -/

/-- The positions bound to a context whose state is one of those given. -/
def State.coresOf (s : State) (p a : Nat) (f : CoreSt → Bool) : List Nat :=
  (s.cores.filter fun e => e.2.part == p && e.2.asid == a && f e.2.st).map (·.1)
def CoreSt.live : CoreSt → Bool | .running => true | .held => true | .halted => true | _ => false
def CoreSt.bound' : CoreSt → Bool | .bound => true | .running => true | .held => true | .halted => true | _ => false
/-- Whether a core has left its launch by EXIT (R145). -/
def Core.gone (c : Core) : Bool := c.exit.isSome && c.st == .idle

/-! ## Completions (R264) -/

/-- Write the completion of record `index` of queue n of a context, whose ring stood at `base` with 2^log2n records at its selection (R261): TAG, STATUS and the start tick. A refused ring
leaves the queue FAULTED; a claim of it that is unresolved still resolves (log entry 27). -/
def State.complete (s : State) (p asid n base log2n index tag status start : Nat) : State :=
  let q := s.part p
  let size := 2 ^ log2n
  let a := base + 64 * size + 16 * (index % size)
  if s.devOwned q asid a 16 then s.devStore q a 16 (tag % 2 ^ 64 + status % 256 * 2 ^ 64 + start % 2 ^ 48 * 2 ^ 80)
  else s.modPart p fun q => { q with queues := Tab.upd q.queues n fun u =>
    if u.st = .empty ∨ u.st = .ready ∨ u.st = .selected then { u with st := .faulted, err := 2 } else u }

/-- What launches have met whose completion this record gets: until the host has read the completion, no host access is ordered after them (R319). -/
def State.unreadBy (s : State) (p asid base log2n index : Nat) (mets : List (Tab Bool)) : State :=
  s.modPart p fun q => { q with unread := (base + 64 * 2 ^ log2n + 16 * (index % 2 ^ log2n), asid, mets) :: q.unread }

/-! ## Freezing for a halt (R82, R243, R244, R245) -/

/-- The stop record of core k for a halt, with its kind, event tick and copy record (Table 10.8). -/
def stopRecord (k : Nat) (c : Core) (kind e : Nat) (copy : Option DueTrap) : StopRec :=
  ⟨k, kind, e, c.ftick, c.trap, min c.late (2 ^ 32 - 1), c.fecnt, c.budget, copy⟩
/-- A stop record (Table 10.8) of a core with die index d. -/
def stopRecordOf (d : Nat) (r : StopRec) : Nat :=
  (match r.copy with | some y => copyRecord y | none => 0) * 2 ^ 384 + r.etick % 2 ^ 64 * 2 ^ 320 + r.ftick % 2 ^ 64 * 2 ^ 256
    + trapinfoOf r.trap * 2 ^ 192 + r.late % 2 ^ 32 * 2 ^ 160 + d % 8 * 2 ^ 140 + r.core % 256 * 2 ^ 132 + r.kind % 16 * 2 ^ 128
    + r.ecnt % 2 ^ 64 * 2 ^ 64 + r.budget % 2 ^ 64
/-- Offset of the core block of a position. -/
def blockAt (q : Part) (k : Nat) (c : Core) : Nat :=
  0x400000 * (gridY c.die (coreY k) * gridW q.dies.length + gridX c.die (coreX k) + 1)
/-- Write bytes within a line of the save tensor, as the stationmaster does where the granule is the context's: they race as any of its writes (R316). -/
def State.saveAt (q : Part) (b : RangeBind) (s : State) (o : Nat) (bs : List Byte) : State :=
  match q.locate b.station b.hashed b.home (b.dev o) with
  | some l =>
    if masterMay (s.own b.station (q.pdie l.1) l.2) b.asid then s.masterBytes q (devKey b.station (q.pdie l.1) l.2) bs else s
  | none => s
/-- Keep the stop record of a core, and write it into the save area: a line under the tensor's version (R245, R251). -/
def State.putStop (s : State) (p a : Nat) (r : StopRec) : State :=
  let s1 := s.modCtx p a fun x => { x with stops := Tab.put x.stops r.core r }
  match (s.ctx p a).bind (s.saveTensor p a) with
  | none => s1
  | some b =>
    let q := s.part p
    let c := s.core r.core
    let o := blockAt q r.core c + 0x2A1000
    let s2 := State.saveAt q b s1 o (leBytes 64 (stopRecordOf c.die r))
    match s.tensorPlace p b o with
    | none => s2
    | some y => if y.station then s2.uncover (exceptKey true (q.pdie y.d) y.off)
        else s2.setStamp (q.pdie y.d) y.off (y.stamp (s.recOf p b).ver (s.recOf p b).kgen)
/-- Whether core k of a context has frozen at a trap of its own whose halt has not taken effect. -/
def Ctx.trapped (x : Ctx) (k : Nat) (c : Core) : Bool :=
  c.st == .halted && x.halt.any fun y => decide (0 < y.h) && y.events.any fun e => e == (k, 1, c.ftick)
/-- Take the first element that f names out of a list. -/
def dropFirst (f : DueTrap → Bool) : List DueTrap → List DueTrap
  | [] => []
  | d :: t => if f d then t else d :: dropFirst f t
/-- Whether a fault that waits for its hold tick is one that a halt carries: a machine check, or a fault of a copy or tensor instruction. -/
def DueTrap.halts (d : DueTrap) : Bool := d.info.cause == 0x0D || decide (6 ≤ d.info.slot)
/-- Freeze one core of a halted context at the boundary of the present tick: its own trap or machine check stands (kind 1), its own copy or tensor
fault becomes its trap (5), a debugger stop is its own (4), and else the halt line stopped it (2). `again` says that the context was HALTED before: a fault found since
becomes the core's trap. Further faults of the core stay for the actions of the halt. -/
def State.haltCore (s : State) (hal : Halt) (again : Bool) (k : Nat) : State × StopRec :=
  let c := s.core k
  let first := hal.events.foldl (fun m e => min m e.2.2) ((hal.events.head?.map (·.2.2)).getD 0)
  let c1 := if c.st = .halted then c else c.freeze (s.now c)
  let mine := fun (kind : Nat) => ((hal.events.find? fun e => e.1 == k && e.2.1 == kind).map (·.2.2)).getD first
  match c.due.find? fun d => d.info.cause == 0x0D with
  | some d =>
    let c2 := { c1 with trap := d.info, due := dropFirst (fun x => x.info.cause == 0x0D) c.due }
    (s.setCore k c2, stopRecord k c2 1 (mine 1) none)
  | none =>
    if c.st = .halted ∧ again = false then
      (s, if hal.events.any fun e => e.1 == k && e.2.1 == 1 then stopRecord k c 1 (mine 1) none else stopRecord k c 2 first none)
    else
    match c.due.find? fun d => 6 ≤ d.info.slot with
    | some d =>
      let c2 := { c1 with trap := { d.info with pc := c.pc }, due := dropFirst (fun x => decide (6 ≤ x.info.slot)) c.due }
      (s.setCore k c2, stopRecord k c2 5 (mine 5) (some d))
    | none =>
      match hal.events.find? fun e => e.1 == k && e.2.1 == 4 with
      | some e => (s.setCore k c1, stopRecord k c1 4 e.2.2 none)
      | none => (s.setCore k c1, stopRecord k c1 2 first none)
/-- Core k is to re-run the ticks from its freeze to H alone: what other cores of its context have read and written in them (R247). -/
def State.spanOf (s : State) (p a k f H : Nat) : List Touch :=
  (s.touches ++ (s.core k).span).filter fun e =>
    e.part == p && e.asid == a && e.core != k && decide (f ≤ e.tick) && decide (e.tick < H)
/-- A new freeze of context a: the stop records of an earlier one are over, and a core that a restore has left waiting for its own freeze tick is HALTED there
again, so that it has a record too (R245). -/
def State.newFreeze (s : State) (p a : Nat) : State :=
  ((s.coresOf p a fun y => y == .bound).foldl (fun s k =>
    let c := s.core k
    if (s.launch p c.launch).any (·.running) then s.setCore k { c with st := .halted, fecnt := c.ecnt } else s) s).modCtx p a fun x => { x with stops := [] }
/-- The halt of context a takes effect: its cores are HALTED with their stop records, exited cores keep their streams from this tick
(R227), and the requests of later events of the halt are withdrawn (R244). -/
def State.haltContext (s0 : State) (p a : Nat) (hal : Halt) : State :=
  let s := s0.newFreeze p a
  let s1 := (s.coresOf p a CoreSt.live).foldl (fun s k =>
    let r := s.haltCore hal false k
    r.1.putStop p a r.2) s
  let s2 := (s.coresOf p a fun y => y == .idle || y == .bound).foldl (fun s k => s.modCore k fun c => { c with ftick := max c.ftick (s.now c) }) s1
  let s3 := (s2.coresOf p a CoreSt.live).foldl (fun s k => s.modCore k fun c =>
    { c with span := s2.spanOf p a k c.ftick (s2.now c), spanEnd := s2.now c }) s2
  (s3.modPart p fun q =>
    let late := q.reqs.filter fun r => r.tag == haltTag a
    { q with reqs := q.reqs.filter fun r => !(r.tag == haltTag a), holdWdrn := min 65535 (q.holdWdrn + late.length) }).modCtx p a fun x =>
      { x with st := if x.st = .active then .halted else x.st, spoiled := false, halt := some { hal with h := 0, cores := s.coresOf p a CoreSt.live } }
/-- A halt whose context is HALTED already: nothing freezes again, and the cores with a fault found since have it in TRAPINFO and in a new stop record (R239, R389). -/
def State.haltAgain (s : State) (p a : Nat) (hal : Halt) : State :=
  let ks := (s.coresOf p a CoreSt.live).filter fun k => (s.core k).due.any (·.halts)
  (ks.foldl (fun s k =>
    let r := s.haltCore hal true k
    r.1.putStop p a r.2) s).modCtx p a fun x => { x with halt := some { hal with h := 0, cores := ks } }
/-- Every halt of partition p whose hold tick has come takes effect. The halt of a SAVED context waits for its resume: its hold tick is one of the context. -/
def State.applyHalts (s : State) (p : Nat) : State :=
  (s.part p).ctxs.foldl (fun s e => match e.2.halt with
    | some hal =>
      if e.2.st ≠ .saved ∧ 0 < hal.h ∧ hal.h ≤ (s.part p).stime then
        if e.2.st = .active ∨ e.2.st = .teardown then s.haltContext p e.1 hal
        else if e.2.st = .halted then s.haltAgain p e.1 hal
        else s.modCtx p e.1 fun x => { x with halt := none }
      else s
    | none => s) s

/-! ## Pre-emption freeze (R249) -/

/-- Tag of the pre-emption hold of a context. -/
def preTag (a : Nat) : Nat := 2 ^ 61 + a
/-- Freeze a context for its save: every core at this boundary, with kind 3 and the tick at which the PREEMPT was accepted. A core that has frozen before stays
so: at its own trap, whose halt is still to come, with kind 1. -/
def State.freezeForSave (s : State) (p a : Nat) : State :=
  match s.ctx p a with
  | some x =>
    if x.st = .active then
      let s0 := s.newFreeze p a
      let s1 := (s0.coresOf p a CoreSt.live).foldl (fun s k =>
        let c := s.core k
        let c1 := if c.st = .halted then c else c.freeze (s.now c)
        (s.setCore k c1).putStop p a (if x.trapped k c then stopRecord k c1 1 c.ftick none else stopRecord k c1 3 (x.armed.getD 0) none)) s0
      let s2 := (s.coresOf p a fun y => y == .idle || y == .bound).foldl (fun s k => s.modCore k fun c => { c with ftick := max c.ftick (s.now c) }) s1
      s2.later (8192 + a) (.saveCommit p a)
    else s
  | none => s

/-! ## Hold events (R28 to R32) -/

/-- HOLD_REQUEST (R28): an agent that the model does not hold raises a cause; a debugger's stop is refused while the partition is LOCKED (R405). -/
def execHoldRequest (p cause : Nat) (s : State) : Out :=
  if 1 ≤ cause ∧ cause ≤ 6 ∧ (cause = 5 → (s.part p).unlocked = true) then .next (s.raiseHold p cause 0) else .next s

/-- Wall ticks in which the actions of a fault are over: with the resume they keep the hold below 16,384 (R253). -/
def actionTicks : Nat := 16384 - Config.resumeWall - 1
/-- HOLD_TAKES_EFFECT (R28, R31, R32, R88): requests that meet at the hold tick form one hold, and one whose hold tick the partition holds at
joins it (R352); cores stop HELD, halts and pre-emption freezes take effect, and the stationmaster starts on the actions of a fault. A rate change
announced at the hold tick counts as decided during the hold. -/
def execHoldTakesEffect (p : Nat) (s : State) : Out :=
  let q := s.part p
  let due := q.reqs.filter fun r => decide (r.h ≤ q.stime)
  if due.isEmpty then .next s
  else
    let s1 := s.modPart p fun q => { q with
      held := true
      causes := q.causes ++ due
      reqs := q.reqs.filter fun r => !decide (r.h ≤ q.stime)
      holdCount := if q.held then q.holdCount else min (2 ^ 32 - 1) (q.holdCount + 1)
      holdLast := due.foldl (fun m r => max m r.cause) (if q.held then q.holdLast else 0)
      resumeAt := none
      pend := q.pend.map fun a => if a = q.stime + Config.holdLead then q.stime else a }
    let s2 := { s1 with cores := s1.cores.map fun (e : Nat × Core) => if e.2.part = p ∧ e.2.st = CoreSt.running then (e.1, { e.2 with st := CoreSt.held }) else e }
    let s3 := s2.applyHalts p
    let s4 := (due.filter fun r => r.cause == 4).foldl (fun s r => s.freezeForSave p (r.tag - preTag 0)) s3
    .next (if due.any fun r => r.cause == 6 || r.cause == 5 then s4.within (2 ^ 20 + p) actionTicks (.faultActionsComplete p) else s4)

/-- HOLD_RESUME (R30, R31): schedule time goes on at this wall tick, and a rate change decided during the hold takes effect. -/
def execHoldResume (p : Nat) (s : State) : Out :=
  let q := s.part p
  match q.resumeAt with
  | some w =>
    if q.held ∧ w ≤ s.wtime then
      let now := q.pend.any fun a => decide (a ≤ q.stime)
      let s1 := s.modPart p fun q => { q with
        held := false
        causes := []
        resumeAt := none
        t0 := q.stime
        w0 := s.wtime
        rate := if now then q.next else q.rate
        pend := if now then none else q.pend }
      .next { s1 with cores := s1.cores.map fun (e : Nat × Core) => if e.2.part = p ∧ e.2.st = CoreSt.held then (e.1, { e.2 with st := CoreSt.running }) else e }
    else .next s
  | none => .next s

/-! ## Resume of a context (R246) -/

/-- The lowest freeze tick of the cores among some that are to issue again. -/
def lowestFreeze (cs : List Core) : Nat :=
  let fs := (cs.filter fun c => c.st == .halted || (c.st == .bound && decide (0 < c.ftick))).map (·.ftick)
  fs.foldl min (fs.headD 0)
/-- Context time of a context: while it is HALTED or SAVED it stands at the tick from which a resume goes on (R246, R284). -/
def State.ctxNow (s : State) (p a : Nat) : Nat :=
  match s.ctx p a with
  | some x =>
    if x.st = .halted then lowestFreeze ((s.coresOf p a fun _ => true).map s.core)
    else if x.st = .saved then lowestFreeze (x.saved.map (·.2))
    else (s.part p).stime - x.ctoff
  | none => (s.part p).stime
/-- A resume of a halted or saved context is accepted for partition tick P: context time goes on from the lowest freeze tick, and a halt that its save has met
is still to take effect, at its tick of the context; one of a fault found while the context was HALTED keeps its hold tick. -/
def State.acceptResume (s : State) (p a P : Nat) : State :=
  let f0 := lowestFreeze ((s.coresOf p a fun _ => true).map s.core)
  let saved := (s.ctx p a).any fun x => x.st == .saved
  let hal := (s.ctx p a).bind fun x => (x.halt.filter fun y => decide (0 < y.h)).map fun y => if saved then { y with h := y.h + (P - f0) } else y
  let s1 := s.modCtx p a fun x =>
    { x with st := .active, ctoff := P - f0, resumeP := some P, boundary := none, spoiled := false, halt := hal }
  match hal with
  | some y => if !saved then s1 else s1.raiseHoldAt p (if y.events.all fun e => e.2.1 == 4 then 5 else 6) (haltTag a) y.h
  | none => s1
/-- The cores of a context that are to issue again: HALTED, or restored and BOUND until then (R420). -/
def State.reissuing (s : State) (p a : Nat) : List Nat :=
  (s.coresOf p a fun y => y == .halted || y == .bound).filter fun k =>
    let c := s.core k
    (c.st == .halted || (s.launch p c.launch).any (·.running)) && !((s.ctx p a).any fun x => x.trapped k c)
/-- CONTEXT_REISSUE (R83, R246): each core issues again at its own freeze tick. -/
def execContextReissue (p asid : Nat) (s : State) : Out :=
  match s.ctx p asid with
  | some x =>
    if x.st = .active ∧ (x.resumeP.any fun P => decide (P ≤ (s.part p).stime)) then
      let s1 := (s.reissuing p asid).foldl (fun s k =>
        let c := s.core k
        if c.ftick ≤ s.now c ∧ !((s.part p).held) then s.setCore k { c with st := .running } else s) s
      .next (if (s1.reissuing p asid).isEmpty then s1.modCtx p asid fun x => { x with resumeP := none } else s1)
    else .next s
  | none => .next s

/-! ## Teardown (R252) -/

/-- A queue of another context whose claim a teardown has made void, as QCFG.ASID was rewritten under it: READY, or OFF when it drains (log entry 27). -/
def Queue.freed (u : Queue) : Queue := { u with st := match u.st with | .selected => .ready | .draining => .off | st => st }
/-- Start the teardown of a context: its queues, claims and graphs end, and when it is running it is halted first. -/
def State.teardown (s : State) (p a : Nat) : State :=
  match s.ctx p a with
  | none => s
  | some x =>
    if x.st = .teardown ∨ x.st = .scrubbing ∨ x.st = .free then s
    else
      let q := s.part p
      let killed := fun (s : State) (l : Launch) =>
        if l.asid = a ∧ l.graph.isNone then (s.complete p a l.queue l.base l.log2n l.index l.tag 4 l.start).unreadBy p a l.base l.log2n l.index [l.met] else s
      let s01 := (q.launches.map (·.2) ++ x.savedLaunches.map (·.2)).foldl killed s
      let s02 := (q.graphs.filter fun g => g.2.asid == a).foldl (fun s g => (s.complete p a g.2.queue g.2.base g.2.log2n g.2.index g.2.tag 4 (g.2.first.getD 0)).unreadBy p a g.2.base
        g.2.log2n g.2.index (g.2.met ++ (q.launches.filter fun l => l.2.graph == some g.1).map (·.2.met))) s01
      let void := fun (c : Claim) => c.asid == a || (c.graph.isNone && (Tab.find q.queues c.queue).any fun u => u.asid == a)
      let freed := (q.claims.filter fun c => void c && c.graph.isNone).map (·.queue)
      let s1 := (s02.clearHold p 4 (preTag a)).modPart p fun q => { q with
        queues := q.queues.map fun e =>
          if e.2.asid = a ∧ e.2.st ≠ .off then (e.1, { e.2 with en := false, st := .off, err := 3 }) else if freed.contains e.1 then (e.1, e.2.freed) else e
        claims := q.claims.filter fun c => !void c
        graphs := q.graphs.filter fun g => !(g.2.asid == a)
        migration := q.migration.filter fun m => !(m.asid == a)
        pgcmd := if q.migration.any fun m => m.asid == a then none else q.pgcmd }
      let s1 := freed.foldl (fun s n => if (Tab.find (s.part p).queues n).any fun u => u.st == .ready then s.later (2 ^ 21 + 256 * p + n) (.queueSelect p n) else s) s1
      let s2 := s1.modCtx p a fun x => { x with st := .teardown, armed := none, boundary := none, resumeP := none }
      match s2.coresOf p a fun y => y == .running || y == .held with
      | [] => s2.later (16384 + a) (.teardownComplete p a)
      | k :: _ => s2.haltAt k 2 6 (s2.tick k) ((s2.part p).stime + Config.holdLead)

/-- Resume a halted context, unless its save area has been written since: then it is torn down (R251). -/
def State.resumeHalted (s : State) (p a P : Nat) : State :=
  if (s.ctx p a).any (·.spoiled) then s.teardown p a else s.acceptResume p a P
/-- STATIONMASTER_RESUME (R239): a context halted by BUDGET alone goes on 1,024 ticks after its hold clears. -/
def execStationmasterResume (p asid : Nat) (s : State) : Out :=
  match s.ctx p asid with
  | some x => .next (if x.st = .halted then s.resumeHalted p asid ((s.part p).stime + 1024) else s)
  | none => .next s

/-! ## The actions of a fault (R239, R245, Table 10.9) -/

/-- Causes after which the context does not resume. -/
def unrecoverable (cause : Nat) : Bool := cause == 0x0A || cause == 0x0D
/-- The event record of a fault of core k: with the record of a machine check (R389), or of a copy fault (R248). -/
def State.eventOf (s : State) (k : Nat) (info : TrapInfo) (copy : Option DueTrap) : EventRec :=
  ⟨k, info, copy, if info.cause = 0x0D then Tab.find (s.die (info.info / 256 % 8)).mclog (info.info % 256) else none⟩
/-- The faults of core k beside the one that its stop record shows: an event record for each, and whether one is unrecoverable. -/
def State.dueActions (s : State) (p a k : Nat) : State × Bool :=
  let rest := (s.core k).due.filter (·.halts)
  (rest.foldl (fun s d => s.appendEvent p a (s.eventOf k d.info (if d.info.cause = 0x0D then none else some d)))
    (s.modCore k fun c => { c with due := c.due.filter fun d => !d.halts }), rest.any fun d => unrecoverable d.info.cause)
/-- What the stationmaster does for one stop record: whether BUDGET remains without a refill, and an event record. A halt that carries the BUDGET traps of several cores
gets one record for each core: R239 names one and does not say for which (log entry 25). -/
def State.stopAction (s : State) (p a : Nat) (r : StopRec) : State × Bool :=
  if r.kind = 1 ∨ r.kind = 5 then
    let ev := s.eventOf r.core r.trap r.copy
    if r.trap.cause = 0x0F ∧ (s.part p).unlocked then (s, false)
    else
      let s1 := s.appendEvent p a ev
      if r.trap.cause = 6 then
        match s1.ctx p a with
        | some x =>
          if 0 < x.rcount then
            ((s1.modCore r.core fun c => { c with budget := x.refill }).modCtx p a fun x => { x with rcount := x.rcount - 1 }, false)
          else (s1, true)
        | none => (s1, false)
      else (s1, unrecoverable r.trap.cause)
  else (s, false)
/-- The actions for one halted context: event records, refills, and a teardown, the save of an armed pre-emption (R230), or the stationmaster's own resume. -/
def State.haltActions (s : State) (p a : Nat) (x : Ctx) : State :=
  let hers := match x.halt with | some y => y.cores | none => []
  let others := match x.halt with | some y => y.events.map (·.1) | none => []
  let rs := (x.stops.filter fun e => hers.contains e.1).map (·.2)
  let r0 := rs.foldl (fun (e : State × Bool) r => let y := e.1.stopAction p a r; (y.1, e.2 || y.2)) (s, false)
  let r := (hers ++ others).foldl (fun (e : State × Bool) k => let y := e.1.dueActions p a k; (y.1, e.2 || y.2)) r0
  let s1 := r.1.modCtx p a fun y => { y with halt := none }
  let own := rs.filter fun y => y.kind == 1 || y.kind == 4 || y.kind == 5
  if x.st = .teardown then s1.later (16384 + a) (.teardownComplete p a)
  else if r.2 then s1.teardown p a
  else if x.armed.isSome then { s1 with agenda := .saveCommit p a :: s1.agenda }
  else if !own.isEmpty && own.all fun y => y.kind == 1 && y.trap.cause == 6 then
    { s1 with agenda := .stationmasterResume p a :: s1.agenda }
  else s1
/-- FAULT_ACTIONS_COMPLETE (R29): stop records, event records and refills are written, and cause 6 clears. -/
def execFaultActionsComplete (p : Nat) (s : State) : Out :=
  let s1 := (s.part p).ctxs.foldl (fun s e =>
    if e.2.halt.any fun hal => hal.h == 0 then s.haltActions p e.1 e.2 else s) s
  .next (s1.modPart p fun q => q.clearHold s.wtime fun r => r.cause == 6 && q.held && q.causes.contains r)

/-! ## Faults found after issue (R225, R248) -/

/-- A fault of copy or tensor instruction `d` of core k, detected at context tick e: the core traps at the boundary before e + 192. A core
that has exited traps no more: the record goes to the event ring, and INTEGRITY tears the context down. -/
def State.laterFault (s : State) (k e : Nat) (d : DueTrap) : State :=
  let c := s.core k
  if c.gone then
    let s1 := s.appendEvent c.part c.asid ⟨k, d.info, some d, none⟩
    if unrecoverable d.info.cause then s1.teardown c.part c.asid else s1
  else
    (s.setCore k { c with due := c.due ++ [{ d with h := e + Config.holdLead }] }).haltAt k 5 6 e
      (e + s.ctoff c + Config.holdLead)

/-! ## Rate steps (R31) -/

/-- Announce a rate step: it takes effect 192 ticks on, or at the resume of the hold. -/
def Part.announce (q : Part) (n : Nat) : Part :=
  { q with next := n, pend := match q.pend with | some a => some a | none => some (if q.held then q.stime else q.stime + Config.holdLead) }
/-- RATE_CHANGE_EFFECT (R26, R31). -/
def execRateChangeEffect (p : Nat) (s : State) : Out :=
  let q := s.part p
  if !q.held && (q.pend.any fun a => decide (a ≤ q.stime)) then
    .next (s.modPart p fun q => { q with rate := q.next, pend := none, t0 := q.stime, w0 := s.wtime })
  else .next s

/-- What the governor does to one partition at the end of a window (R19, R411): `w` watts of `total`, `limits` the sum of the limits. R19 does not say from which step it
counts while a change is pending: it steps from NEXT, and holds NEXT against 4 and 16 (log entry 19). -/
def Part.govern (q : Part) (w total limits : Nat) (hot : Bool) : Part :=
  let above := decide (q.limit < w) || (decide (Config.packageWatts < total) && decide (Config.packageWatts * q.limit < w * limits))
  let calm := if 100 * w < 95 * q.limit then q.calm + 1 else 0
  if above || hot then
    if 4 < q.next then { q.announce (q.next - 1) with calm := calm, overLimit := false }
    else if q.limit < w then { q with calm := calm, overLimit := true, powerEvents := q.powerEvents + 1 }
    else { q with calm := calm, overLimit := false }
  else if 4 ≤ calm ∧ q.next < 16 then { q.announce (q.next + 1) with calm := 0, overLimit := false }
  else { q with calm := calm, overLimit := false }
/-- Wall ticks of a window of the governor (R19). -/
def governorWindow : Nat := 16384
/-- GOVERNOR_WINDOW (R19, R411): the measured watts of each partition, the dies at 105 °C, and the limits that the host driver has set. A window ends at each multiple of
16,384 of WTIME (log entry 19): at another wall tick the limits alone are taken. -/
def execGovernorWindow (watts : List Nat) (g : GovernorSet) (s : State) : Out :=
  let set := s.parts.map fun e => (e.1, { e.2 with limit := ((g.limits.find? fun (l : Nat × Nat) => l.1 == e.1).map fun (l : Nat × Nat) => l.2).getD e.2.limit })
  let total := watts.foldl (· + ·) 0
  let sum := set.foldl (fun n e => n + e.2.limit) 0
  .next (if s.wtime % governorWindow ≠ 0 then { s with parts := set } else
    (List.range 8).foldl (fun s d => s.modDie d fun y => { y with thermal := g.hot.contains d })
    { s with parts := set.map fun e => (e.1, e.2.govern (watts.getD e.1 0) total sum (e.2.dies.any fun d => g.hot.contains d)) })

/-! ## The time servo (R21, R22) -/

/-- The source that the servo uses: the first of the host driver's order that is present and valid (R21), or 0. -/
def Servo.choice (v : Servo) : Nat := (v.order.find? v.present.contains).getD 0
/-- A servo whose order or sources have changed: it begins to measure against the source that it now uses, if there is one. -/
def Servo.follow (v : Servo) : Servo :=
  let src := v.choice
  if src = 0 then v
  else match v.st with
    | .free => { v with st := .acquiring, src := src, good := 0 }
    | .holdover => { v with st := .acquiring, src := src, good := 0 }
    | _ => if v.src = src then v else { v with src := src, good := 0 }
/-- The sources that are present and valid once `valid` have been seen so: those, and the source in use until it is lost. -/
def Servo.sees (v : Servo) (valid : List Nat) : List Nat := valid ++ v.present.filter fun x => x == v.src && !valid.contains x
/-- SERVO_SOURCE_SEEN (R21, Table 1.4): the sources that are seen to be present and valid. -/
def execServoSourceSeen (valid : List Nat) (s : State) : Out :=
  .next { s with servo := { s.servo with present := s.servo.sees valid }.follow }
/-- SERVO_MEASUREMENT (R22): sixteen offsets below 8 wall ticks lock the servo, whose first lock steps WTIME forward before the first partition exists (R410);
else it slews, and the frequency adjustment is free within ±100 ppm. -/
def execServoMeasurement (off : Int) (s : State) : Out :=
  let v := s.servo
  let v1 := { v with offs := max (-32767) (min 32767 off) }
  let slew : Int := (Config.free (2 ^ 20) (s.epoch * 2 ^ 40 + 2 ^ 30) % 201 : Nat) - 100
  match v.st with
  | .acquiring =>
    let good := if -8 < off ∧ off < 8 then v.good + 1 else 0
    if 16 ≤ good then
      if v.stepped = false ∧ s.everPart = false ∧ 0 ≤ off then
        .next { s with servo := { v1 with st := .locked, good := 0, stepped := true }, wtime := s.wtime + off.toNat }
      else .next { s with servo := { v1 with st := .locked, good := 0, stepped := true, fadj := slew } }
    else .next { s with servo := { v1 with good := good, fadj := slew } }
  | .locked => .next { s with servo := { v1 with fadj := slew } }
  | _ => .next s
/-- SERVO_SOURCE_LOST (R21, Table 1.4): the source in use is no longer present. A LOCKED servo goes to HOLDOVER with the last frequency
adjustment, and from there to the next source of the order that is present. What TSYNC.SRC reads in HOLDOVER the spec does not say: it keeps the code of the source that was lost
(log entry 21). -/
def execServoSourceLost (s : State) : Out :=
  let v := { s.servo with present := s.servo.present.filter fun x => x != s.servo.src }
  match v.st with
  | .locked => .next { s with servo := { v with st := .holdover, good := 0 }.follow }
  | .acquiring => .next { s with servo := { v with src := 0, good := 0 }.follow }
  | _ => .next { s with servo := v }
/-- SERVO_SOURCE_SELECT (R21, Table 1.4): the order of preference; none returns the servo to FREE and clears FADJ. A LOCKED servo whose source has
left the order has lost it. -/
def execServoSourceSelect (order : List Nat) (s : State) : Out :=
  let v := { s.servo with order := order }
  .next { s with servo :=
    if order.isEmpty then { v with st := .free, fadj := 0, src := 0, good := 0 }
    else if v.st = .locked ∧ !(order.contains v.src) then { v with st := .holdover, good := 0 }.follow
    else if v.st = .acquiring ∧ !(order.contains v.src) then { v with src := 0, good := 0 }.follow
    else v.follow }

/-! ## Debugger stops (R29, R244, R405) -/

/-- DEBUG_STOP_REQUEST (R405): accepted while the partition's debug state is UNLOCKED; the stop halts the core's context. -/
def execDebugStopRequest (k : Nat) (s : State) : Out :=
  let c := s.core k
  if (s.part c.part).unlocked ∧ (c.st = .running ∨ c.st = .held) then
    .next (s.haltAt k 4 5 (s.now c) ((s.part c.part).stime + Config.holdLead))
  else .next s
/-- A halt on its way without its debugger stops, whose hold requests are withdrawn: its hold tick is that of the first event left, and with none left it is over. -/
def Halt.withoutStops (y : Halt) (ctoff : Nat) : Option Halt :=
  match y.events.filter fun e => e.2.1 != 4 with
  | [] => none
  | e :: t => some { y with events := e :: t, h := t.foldl (fun m e => min m (e.2.2 + ctoff + Config.holdLead)) (e.2.2 + ctoff + Config.holdLead) }
/-- DEBUGGER_RESUME (R29): cause 5 clears. A stop whose hold tick has not come is withdrawn, and with it the halt that it would have made. -/
def execDebuggerResume (p : Nat) (s : State) : Out :=
  .next (s.modPart p fun q => { q.clearHold s.wtime (fun r => r.cause == 5) with
    ctxs := q.ctxs.map fun (e : Nat × Ctx) => (e.1, { e.2 with
      halt := e.2.halt.bind fun y => if 0 < y.h ∧ y.events.any (fun z => z.2.1 == 4) then y.withoutStops (if e.2.st = .saved then 0 else e.2.ctoff) else some y }) })

end Sys2Proof.Machine
end

