-- ==== Sys2Proof/Machine/VectorFn.lean ====
section
/-! DEFINITION. What one lane, one row and one column of a vector operation compute: R51, R54, R153 to R182. -/
namespace Sys2Proof.Machine

/-! ## The random generator (R51, R54) -/

/-- One round on the counter words, under the key words. -/
def philoxRound (k0 k1 : Nat) (c : Nat × Nat × Nat × Nat) : Nat × Nat × Nat × Nat :=
  let pa := 0xD2511F53 * c.1
  let pb := 0xCD9E8D57 * c.2.2.1
  (pb / 2 ^ 32 ^^^ c.2.1 ^^^ k0, pb % 2 ^ 32, pa / 2 ^ 32 ^^^ c.2.2.2 ^^^ k1, pa % 2 ^ 32)
/-- The rounds that are left, the key bumped after each. -/
def philoxRounds : Nat → Nat → Nat → Nat × Nat × Nat × Nat → Nat × Nat × Nat × Nat
  | 0, _, _, c => c
  | n + 1, k0, k1, c => philoxRounds n ((k0 + 0x9E3779B9) % 2 ^ 32) ((k1 + 0xBB67AE85) % 2 ^ 32) (philoxRound k0 k1 c)
/-- rngblk: ten rounds of Philox 4×32 (R51). -/
def rngblk (key : Word) (ctr : BitVec 128) : BitVec 128 :=
  let x := ctr.toNat
  let c := philoxRounds 10 (key.toNat % 2 ^ 32) (key.toNat / 2 ^ 32)
    (x % 2 ^ 32, x / 2 ^ 32 % 2 ^ 32, x / 2 ^ 64 % 2 ^ 32, x / 2 ^ 96)
  BitVec.ofNat 128 (c.2.2.2 * 2 ^ 96 + c.2.2.1 * 2 ^ 64 + c.2.1 * 2 ^ 32 + c.1)
/-- The block of lane (i, j) under .rsr, and that of VRNG (R54, R182): counter word 1 is 0 or 1. -/
def rsrBlock (key n : Word) (i j : Nat) : BitVec 128 := rngblk key (BitVec.ofNat 128 (n.toNat * 2 ^ 64 + i * 64 + j))
def vrngBlock (key n : Word) (i j : Nat) : BitVec 128 :=
  rngblk key (BitVec.ofNat 128 (n.toNat * 2 ^ 64 + 2 ^ 32 + 16 * i + j / 4))
/-- rvof: the random value of element e (R54). -/
def rvOf (blk : BitVec 128) (e : Nat) : Nat := blk.toNat / 2 ^ (16 * e) % 2 ^ 16

/-! ## Estimates, powers and logarithms (R176 to R181) -/

/-- floor(log2(p / q)) of a positive rational. -/
def log2Rat (p q : Nat) : Int :=
  let e : Int := (Nat.log2 p : Int) - (Nat.log2 q : Int)
  if 0 ≤ e then (if q * 2 ^ e.toNat ≤ p then e else e - 1) else (if q ≤ p * 2 ^ (-e).toNat then e else e - 1)
/-- p / q times 2^x as a rational. -/
def scaleRat (p q : Nat) (x : Int) : Nat × Nat := (p * 2 ^ x.toNat, q * 2 ^ (-x).toNat)
/-- The exponent of the grid of est12 (R176), from floor(log2 v). -/
def estGrid (e : Int) : Int := max (e - 12) (-149)
/-- est12 of the positive rational p / q: a multiple n of 2^g, as (n, g). -/
def est12 (p q : Nat) : Nat × Int :=
  let g := estGrid (log2Rat p q)
  let v := scaleRat p q (-g)
  let n := v.1 / v.2
  let r := 2 * (v.1 % v.2)
  (n + (decide (v.2 < r) || (r == v.2 && n % 2 == 1)).toNat, g)
/-- The integer square root of n below 2^32. -/
def isqrt (n : Nat) : Nat :=
  (List.range 16).foldl (fun acc i => let c := acc + 2 ^ (15 - i); if c * c ≤ n then c else acc) 0
/-- est12 of the square root of the positive rational p / q. -/
def est12Sqrt (p q : Nat) : Nat × Int :=
  let g := estGrid (log2Rat p q / 2)
  let v := scaleRat p q (-2 * g)
  let n := isqrt (v.1 / v.2)
  let h := (2 * n + 1) * (2 * n + 1) * v.2
  (n + (decide (h < 4 * v.1) || (h == 4 * v.1 && n % 2 == 1)).toNat, g)
/-- VRCPE of one lane (Table 7.3). -/
def rcpe (a : FVal) : Nat × Flags :=
  match a with
  | .nan s => (canon32, Flags.when s Flags.nv)
  | .inf s => (signed .f32 s 0, 0)
  | .fin s m e =>
    if m = 0 then (signed .f32 s 0x7F800000, Flags.dz)
    else
      let v := scaleRat 1 m (-e)
      let y := est12 v.1 v.2
      rnd s y.1 y.2 .f32 .rne 0 false
/-- VRSQE of one lane (Table 7.3). -/
def rsqe (a : FVal) : Nat × Flags :=
  match a with
  | .nan s => (canon32, Flags.when s Flags.nv)
  | .inf s => if s then (canon32, Flags.nv) else (0, 0)
  | .fin s m e =>
    if m = 0 then (signed .f32 s 0x7F800000, Flags.dz)
    else if s then (canon32, Flags.nv)
    else
      let v := scaleRat 1 m (-e)
      let y := est12Sqrt v.1 v.2
      rnd false y.1 y.2 .f32 .rne 0 false
/-- One Newton step (R177): y (2 − a y), or y (3 − a y²) / 2, exactly, rounded once. -/
def newton (sq : Bool) (a y : FVal) (rm : Rm) (rv : Nat) : Nat × Flags :=
  match a, y with
  | .fin s m e, .fin u n x =>
    if m = 0 ∨ n = 0 then (if n = 0 then signed .f32 u 0 else (rnd u n x .f32 .rne 0 false).1, 0)
    else
      let p := if sq then (-(sgn s m) * (n * n : Nat), e + 2 * x) else (-(sgn s m * sgn u n), e + x)
      let t := addDy (if sq then 3 else 2, 0) p
      rndInt (rm == .rdn) (sgn u n * t.1) (x + t.2 - (if sq then 1 else 0)) .f32 rm rv false
  | a, y =>
    if a.isNan || y.isNan then (canon32, Flags.when (a.snan || y.snan) Flags.nv)
    else match y with
      | .inf u => (signed .f32 u 0x7F800000, 0)
      | .fin u n x => ((rnd u n x .f32 .rne 0 false).1, 0)
      | .nan _ => (canon32, 0)

/-- floor(ln 2 · 2^256). -/
def ln2Scaled : Nat := 0xb17217f7d1cf79abc9e3b39803f2f6af40f343267298b62d8a0d175b8baafa2b
/-- The sum of the n terms that are left of the exponential series of y / 2^256, from term t on. -/
def expSeries : Nat → Nat → Nat → Nat → Nat
  | 0, _, _, _ => 0
  | n + 1, k, y, t => t + expSeries n (k + 1) y (t * y / 2 ^ 256 / k)
/-- floor(2^f · 2^128) for f = m · 2^e in (0, 1): 128 bits below it are computed and dropped (log entry 20). -/
def exp2Bits (m : Nat) (e : Int) : Nat :=
  let y := if 0 ≤ e then m * 2 ^ e.toNat * ln2Scaled else m * ln2Scaled / 2 ^ (-e).toNat
  expSeries 80 1 y (2 ^ 256) / 2 ^ 128
/-- VFEXP of one lane (R178). -/
def fexp (a : FVal) : Nat × Flags :=
  match a with
  | .nan s => (canon32, Flags.when s Flags.nv)
  | .inf _ => (canon32, Flags.nv)
  | .fin s m e =>
    if m = 0 then (0x3F800000, 0)
    else if s || decide (0 ≤ (Nat.log2 m : Int) + e) then (canon32, Flags.nv)
    else rnd false (2 * exp2Bits m e + 1) (-129) .f32 .rne 0 false
/-- The n next bits of log2 of y / 2^512 in [1, 2), by repeated squaring. -/
def logBits : Nat → Nat → Nat → Nat
  | 0, _, acc => acc
  | n + 1, y, acc =>
    let z := y * y / 2 ^ 512
    if 2 ^ 513 ≤ z then logBits n (z / 2) (2 * acc + 1) else logBits n z (2 * acc)
/-- VLG2E of one lane (R181). -/
def lg2e (a : FVal) : Nat × Flags :=
  match a with
  | .nan s => (canon32, Flags.when s Flags.nv)
  | .inf _ => (canon32, Flags.nv)
  | .fin _ m _ =>
    if m = 0 then (canon32, Flags.nv)
    else
      let k := Nat.log2 m
      if m = 2 ^ k then (0, 0)
      else rnd false (2 * logBits 128 (m * 2 ^ (512 - k)) 0 + 1) (-129) .f32 .rne 0 false
/-- VEXPX.E and VEXPX.M of one lane (Table 7.4). -/
def expxE (a : FVal) : Nat × Flags :=
  match a with
  | .nan _ => (0, Flags.nv)
  | .inf _ => (0x7FFFFFFF, Flags.nv)
  | .fin _ m e => if m = 0 then (0x80000000, 0) else (wrap 32 ((Nat.log2 m : Int) + e), 0)
def expxM (a : FVal) : Nat × Flags :=
  match a with
  | .nan s => (canon32, Flags.when s Flags.nv)
  | .inf s => (signed .f32 s 0x7F800000, 0)
  | .fin s m _ => if m = 0 then (signed .f32 s 0, 0) else ((rnd s m (-(Nat.log2 m : Int)) .f32 .rne 0 false).1, 0)
/-- VEXPI of one lane (R179). -/
def expi (a : FVal) (n : Int) (rm : Rm) (rv : Nat) : Nat × Flags :=
  match a with
  | .nan s => (canon32, Flags.when s Flags.nv)
  | .inf s => (signed .f32 s 0x7F800000, 0)
  | .fin s m e => rnd s m (e + n) .f32 rm rv false

/-! ## Comparison (R154, R156) -/

/-- The order of F32 codes that are no NaN, with −0 below +0. -/
def ordF (a : Lane) : Int := if a.msb then -((a.toNat % 2 ^ 31 : Nat) : Int) - 1 else (a.toNat : Int)
/-- The value order, where the zeros are equal. -/
def valF (a : Lane) : Int := if a.msb then -((a.toNat % 2 ^ 31 : Nat) : Int) else (a.toNat : Int)
/-- VMIN.F32 and VMAX.F32 of one lane (R154). -/
def minmaxF (mx : Bool) (a b : Lane) : Lane × Flags :=
  if (ofF32 a).isNan || (ofF32 b).isNan then
    (BitVec.ofNat 32 canon32, Flags.when ((ofF32 a).snan || (ofF32 b).snan) Flags.nv)
  else if mx then (if ordF b < ordF a then a else b, 0) else (if ordF a < ordF b then a else b, 0)
/-- One lane of a compare, with its flags (R156). -/
def cmpLane (fn : VFn) (a b : Lane) : Bool × Flags :=
  let nan := (ofF32 a).isNan || (ofF32 b).isNan
  let sn := Flags.when ((ofF32 a).snan || (ofF32 b).snan) Flags.nv
  let qn := Flags.when nan Flags.nv
  match fn with
  | .eqF => (!nan && valF a == valF b, sn)
  | .neF => (nan || valF a != valF b, sn)
  | .ltF => (!nan && decide (valF a < valF b), qn)
  | .leF => (!nan && decide (valF a ≤ valF b), qn)
  | .unordF => (nan, sn)
  | .eqI => (a == b, 0)
  | .neI => (a != b, 0)
  | .ltI => (a.slt b, 0)
  | .geI => (!a.slt b, 0)
  | .ltuI => (a.ult b, 0)
  | .geuI => (!a.ult b, 0)
  | _ => (false, 0)

/-! ## Lanes -/

/-- VRND.F32 of one lane (R155). -/
def rndLane (a : Lane) (rm : Rm) (rv : Nat) : Lane × Flags :=
  match ofF32 a with
  | .nan s => (BitVec.ofNat 32 canon32, Flags.when s Flags.nv)
  | .inf _ => (a, 0)
  | .fin s m e =>
    if m = 0 then (a, 0)
    else
      let n := rint s m e rm rv
      (BitVec.ofNat 32 (rnd s n.1.natAbs 0 .f32 .rne 0 false).1, n.2)
/-- A clamped 32-bit result (R159). -/
def clamp32 (v : Int) : Lane × Flags :=
  let r := clampInt .i32 v
  (BitVec.ofInt 32 r.1, Flags.when r.2 Flags.sat)
/-- Four products of packed bytes added to an accumulator (R162). -/
def dotLane (fa fb : Fmt) (sat : Bool) (a b d : Lane) : Lane × Flags :=
  let v := (List.range 4).foldl (fun s e => s + decodeI fa (elem a.toNat 8 e) * decodeI fb (elem b.toNat 8 e)) d.toInt
  if sat then clamp32 v else (BitVec.ofInt 32 v, 0)
/-- The n elements of a lane converted one by one from element e (R163). -/
def cvtElems (src dst : Fmt) (r : Rm) (sat : Bool) (x : Nat) (rv : Nat → Nat) : Nat → Nat → Nat × Flags
  | 0, _ => (0, 0)
  | n + 1, e =>
    let y := cvt (elem x (fmtWidth src) e) src dst r (rv e) sat
    let z := cvtElems src dst r sat x rv n (e + 1)
    (y.1 * 2 ^ (fmtWidth dst * e) + z.1, y.2 ||| z.2)
/-- VCVT of one lane of formats of at most 32 bits (R163). -/
def cvtLane (src dst : Fmt) (r : Rm) (sat : Bool) (a : Lane) (rv : Nat → Nat) : Lane × Flags :=
  lane (cvtElems src dst r sat a.toNat rv (min (fmtPerLane src) (fmtPerLane dst)) 0)

/-- One lane of an element-wise operation: f of its entry, for sources a, b, d and the second scale (R153 to R181). -/
def laneFn (fn : VFn) (a b d b2 : Lane) (rv : Nat → Nat) : Lane × Flags :=
  match fn with
  | .addF r => lane (fadd32 (ofF32 a) (ofF32 b) r (rv 0))
  | .subF r => lane (fadd32 (ofF32 a) (ofF32 b).flip r (rv 0))
  | .mulF r => lane (fmul32 (ofF32 a) (ofF32 b) r (rv 0))
  | .fma r => lane (ffma32 (ofF32 a) (ofF32 b) (ofF32 d) r (rv 0))
  | .fms r => lane (ffma32 (ofF32 a).flip (ofF32 b) (ofF32 d) r (rv 0))
  | .minF => minmaxF false a b
  | .maxF => minmaxF true a b
  | .absF => (if (ofF32 a).isNan then BitVec.ofNat 32 canon32 else a &&& 0x7FFFFFFF, 0)
  | .negF => (if (ofF32 a).isNan then BitVec.ofNat 32 canon32 else a ^^^ 0x80000000, 0)
  | .rndF r => rndLane a r (rv 0)
  | .addI => (a + b, 0)
  | .subI => (a - b, 0)
  | .mulI => (a * b, 0)
  | .mulhI => (BitVec.ofInt 32 (a.toInt * b.toInt / 2 ^ 32), 0)
  | .minI => (if a.slt b then a else b, 0)
  | .maxI => (if a.slt b then b else a, 0)
  | .minN => (if a.ult b then a else b, 0)
  | .maxN => (if a.ult b then b else a, 0)
  | .addsI => clamp32 (a.toInt + b.toInt)
  | .subsI => clamp32 (a.toInt - b.toInt)
  | .absI => clamp32 (a.toInt.natAbs : Int)
  | .negI => clamp32 (-a.toInt)
  | .and => (a &&& b, 0)
  | .or => (a ||| b, 0)
  | .xor => (a ^^^ b, 0)
  | .andn => (a &&& ~~~b, 0)
  | .not => (~~~a, 0)
  | .sll => (a <<< (b.toNat % 32), 0)
  | .srl => (a >>> (b.toNat % 32), 0)
  | .sra => (a.sshiftRight (b.toNat % 32), 0)
  | .rol => (a.rotateLeft (b.toNat % 32), 0)
  | .sllI n => (a <<< n, 0)
  | .srlI n => (a >>> n, 0)
  | .sraI n => (a.sshiftRight n, 0)
  | .rolI n => (a.rotateLeft n, 0)
  | .dot fa fb sat => dotLane fa fb sat a b d
  | .cvt dst src r sat => cvtLane src dst r sat a rv
  | .scaI r => lane (scaleacc (ofF32 d) (ofI32 a) (ofF32 b) (ofF32 b2) r (rv 0))
  | .scaF r => lane (scaleacc (ofF32 d) (ofF32 a) (ofF32 b) (ofF32 b2) r (rv 0))
  | .splat w => (w, 0)
  | .rcpe => lane (rcpe (ofF32 a))
  | .rsqe => lane (rsqe (ofF32 a))
  | .rcps r => lane (newton false (ofF32 a) (ofF32 b) r (rv 0))
  | .rsqs r => lane (newton true (ofF32 a) (ofF32 b) r (rv 0))
  | .fexp => lane (fexp (ofF32 a))
  | .expi r => lane (expi (ofF32 a) b.toInt r (rv 0))
  | .expxE => lane (expxE (ofF32 a))
  | .expxM => lane (expxM (ofF32 a))
  | .lg2e => lane (lg2e (ofF32 a))
  | _ => (a, 0)

/-! ## Rows and columns -/

/-- The lanes of a row that a mask enables, each computed with its flags. -/
def mapRow (m : MaskRow) (f : Nat → Lane × Flags) : Row × Flags :=
  (List.range 64).foldl (fun acc j =>
    if m.getLsbD j then
      let y := f j
      (acc.1 ||| (y.1.setWidth 2048 <<< (32 * j)), acc.2 ||| y.2)
    else acc) (0, 0)

/-- comb of R172 at one node of the tree: an absent input passes its partner through. -/
def combine (op : Lane → Lane → Lane × Flags) (x y : Option Lane × Flags) : Option Lane × Flags :=
  match x.1, y.1 with
  | none, _ => (y.1, x.2 ||| y.2)
  | _, none => (x.1, x.2 ||| y.2)
  | some a, some b => let r := op a b; (some r.1, x.2 ||| y.2 ||| r.2)
/-- One level of the tree. -/
def combLevel (op : Lane → Lane → Lane × Flags) : List (Option Lane × Flags) → List (Option Lane × Flags)
  | x :: y :: t => combine op x y :: combLevel op t
  | t => t
/-- The fixed pairwise tree of n levels (R172). -/
def combTree (op : Lane → Lane → Lane × Flags) : Nat → List (Option Lane × Flags) → List (Option Lane × Flags)
  | 0, t => t
  | n + 1, t => combTree op n (combLevel op t)
/-- The function of a reduction (Table 7.2). -/
def redOp (fn : VFn) (a b : Lane) : Lane × Flags :=
  match fn with
  | .redrSumF | .redcSumF => lane (fadd32 (ofF32 a) (ofF32 b) .rne 0)
  | .redrMaxF | .redcMaxF => minmaxF true a b
  | .redrMinF | .redcMinF => minmaxF false a b
  | .redrSumI | .redcSumI => (a + b, 0)
  | .redrMaxI | .redcMaxI => (if a.slt b then b else a, 0)
  | _ => (if a.slt b then a else b, 0)

/-- Whether a function is a reduction. -/
def VFn.isRed : VFn → Bool
  | .redrSumI | .redrMaxI | .redrMinI | .redcSumI | .redcMaxI | .redcMinI => true
  | .redrSumF | .redcSumF | .redrMaxF | .redcMaxF | .redrMinF | .redcMinF => true | _ => false
/-- Whether a reduction is of F32 values, and whether it takes their largest or smallest. -/
def VFn.redF : VFn → Bool
  | .redrSumF | .redcSumF | .redrMaxF | .redcMaxF | .redrMinF | .redcMinF => true | _ => false
def VFn.redMinMaxF : VFn → Bool
  | .redrMaxF | .redcMaxF | .redrMinF | .redcMinF => true | _ => false
/-- The reduction of a list of inputs; none when all are absent. A NaN among F32 inputs gives the canonical NaN, also one that no node combines
(R173), and a signalling NaN among those of MAX and MIN sets NV (Table 7.2). -/
def reduce (fn : VFn) (levels : Nat) (xs : List (Option Lane)) : Option Lane × Flags :=
  let r := (combTree (redOp fn) levels (xs.map fun x => (x, 0))).headD (none, 0)
  if fn.redF then
    (r.1.map fun w => if (ofF32 w).isNan then BitVec.ofNat 32 canon32 else w,
      r.2 ||| Flags.when (fn.redMinMaxF && xs.any fun x => x.any fun w => (ofF32 w).snan) Flags.nv)
  else r
/-- The flags that a reduction can set, for a source that is undefined (R8). -/
def VFn.redFlags (fn : VFn) : Flags := if fn.redMinMaxF then Flags.nv else if fn.redF then 0x17 else 0
/-- The flags that an operation can set, for a source that is undefined (R8). -/
def VFn.flagMask : VFn → Flags
  | .addF _ | .subF _ | .mulF _ | .fma _ | .fms _ | .scaI _ | .scaF _ | .rcps _ | .rsqs _ => 0x17
  | .minF | .maxF | .eqF | .neF | .ltF | .leF | .unordF => Flags.nv
  | .rndF _ => 0x11
  | .addsI | .subsI | .absI | .negI => Flags.sat
  | .dot _ _ sat => if sat then Flags.sat else 0
  | .cvt _ _ _ _ => 0x77
  | .rcpe => 0x1D
  | .rsqe => 0x18
  | .fexp | .expi _ | .expxE | .expxM | .lg2e => 0x1F
  | fn => fn.redFlags
/-- Whether an operation takes values of its lanes from v[A], from v[B], from v[B + 1], and from v[D]. -/
def VFn.reads : VFn → Bool × Bool × Bool × Bool
  | .splat _ | .rngN | .rngF => (false, false, false, false)
  | .fma _ | .fms _ | .dot _ _ _ => (true, true, false, true)
  | .scaI _ | .scaF _ => (true, true, true, true)
  | .addF _ | .subF _ | .mulF _ | .minF | .maxF | .eqF | .neF | .ltF | .leF | .unordF | .eqI | .neI | .ltI | .geI | .ltuI | .geuI
  | .addI | .subI | .mulI | .mulhI | .minI | .maxI | .minN | .maxN | .addsI | .subsI | .and | .or | .xor | .andn | .sll | .srl | .sra | .rol
  | .sel | .rcps _ | .rsqs _ | .expi _ => (true, true, false, false)
  | _ => (true, false, false, false)

/-- Whether lanes switched off by k[K] keep their contents: masked(op) of R147 and of the entries of R169 to R182. -/
def VFn.masked : VFn → Bool
  | .sel => false
  | .sllI _ => false | .srlI _ => false | .sraI _ => false | .rolI _ => false
  | .cvt _ _ _ _ => false
  | .rotr _ => false | .bcr _ => false
  | _ => true
/-- A conversion to or from I64 of one row, on column pairs (R164). -/
def cvtPairRow (src dst : Fmt) (r : Rm) (sat : Bool) (a : Row) (rv : Nat → Nat) : Row × Flags :=
  (List.range 32).foldl (fun acc j =>
    let lo := (laneOf a (2 * j)).toNat
    let x := if src = .i64 then lo + (laneOf a (2 * j + 1)).toNat * 2 ^ 32 else elem lo (fmtWidth src) 0
    let y := cvt x src dst r (rv (2 * j)) sat
    (acc.1 ||| (BitVec.ofNat 2048 (y.1 % 2 ^ 64) <<< (64 * j)), acc.2 ||| y.2)) (0, 0)

/-- One row of an element-wise or row-axis operation: the lanes written, their values, and the flags. -/
def rowFn (fn : VFn) (key n : Word) (i : Nat) (a b b2 d : Row) (k : MaskRow) : MaskRow × Row × Flags :=
  let all := BitVec.allOnes 64
  let m := if fn.masked then k else all
  match fn with
  | .sel => (all, blend k b a, 0)
  | .rotr n => (all, mkRow (fun j => laneOf a ((j + n) % 64)), 0)
  | .bcr n => (all, mkRow (fun _ => laneOf a n), 0)
  | .redrSumF | .redrMaxF | .redrMinF | .redrSumI | .redrMaxI | .redrMinI =>
    let r := reduce fn 6 ((List.range 64).map fun j => if k.getLsbD j then some (laneOf a j) else none)
    (k, mkRow (fun _ => r.1.getD 0), r.2)
  | .rngN => let y := mapRow m fun j => ((vrngBlock key n i j).extractLsb' (32 * (j % 4)) 32, 0); (m, y.1, 0)
  | .rngF =>
    let y := mapRow m fun j =>
      let w := ((vrngBlock key n i j).extractLsb' (32 * (j % 4)) 32).toNat
      lane (rnd false (2 * (w / 2 ^ 9) + 1) (-24) .f32 .rne 0 false)
    (m, y.1, 0)
  | .cvt dst src r sat =>
    if src = .i64 ∨ dst = .i64 then
      let y := cvtPairRow src dst r sat a fun j => rvOf (rsrBlock key n i j) 0
      (all, y.1, y.2)
    else
      let y := mapRow all fun j => laneFn fn (laneOf a j) 0 0 0 fun e => if r = .rsr then rvOf (rsrBlock key n i j) e else 0
      (all, y.1, y.2)
  | fn =>
    let y := mapRow m fun j =>
      laneFn fn (laneOf a j) (laneOf b j) (laneOf d j) (laneOf b2 j) fun e => rvOf (rsrBlock key n i j) e
    (m, y.1, y.2)

/-- One row of a compare (R156): a disabled lane writes 0. -/
def cmpRow (fn : VFn) (a b : Row) (k : MaskRow) : MaskRow × Flags :=
  (List.range 64).foldl (fun acc j =>
    if k.getLsbD j then
      let y := cmpLane fn (laneOf a j) (laneOf b j)
      (if y.1 then acc.1 ||| (1#64 <<< j) else acc.1, acc.2 ||| y.2)
    else acc) (0, 0)
/-- One row of a mask operation (R174). -/
def kopRow (fn : VFn) (a b : MaskRow) : MaskRow :=
  match fn with
  | .kand => a &&& b | .kor => a ||| b | .kxor => a ^^^ b | .kandn => a &&& ~~~b | .knot => ~~~a | _ => a

/-- Row i of a column-axis operation from all its source rows and mask rows (R170 to R172). -/
def colRow (fn : VFn) (i : Nat) (a : Nat → Row) (k : Nat → MaskRow) : MaskRow × Row :=
  match fn with
  | .rotc n => (BitVec.allOnes 64, a ((i + n) % 16))
  | .bcc n => (BitVec.allOnes 64, a n)
  | .tr b => (BitVec.allOnes 64, mkRow fun j =>
      if 16 * b ≤ j ∧ j ≤ 16 * b + 15 then laneOf (a (j - 16 * b)) (16 * b + i) else laneOf (a i) j)
  | fn => (k i, mkRow fun j =>
      (reduce fn 4 ((List.range 16).map fun r => if (k r).getLsbD j then some (laneOf (a r) j) else none)).1.getD 0)
/-- The flags of a column-axis operation. -/
def colFlags (fn : VFn) (a : Nat → Row) (k : Nat → MaskRow) : Flags :=
  match fn with
  | .redcSumF | .redcMaxF | .redcMinF =>
    (List.range 64).foldl (fun acc j =>
      acc ||| (reduce fn 4 ((List.range 16).map fun r => if (k r).getLsbD j then some (laneOf (a r) j) else none)).2) 0
  | _ => 0

/-! ## Classes of operation -/

/-- Whether an operation under .rsr takes a random value, or is VRNG (R53, R152, R165). -/
def VFn.draws : VFn → Bool
  | .addF r | .subF r | .mulF r | .fma r | .fms r | .rndF r | .scaI r | .scaF r | .rcps r | .rsqs r | .expi r => r == .rsr
  | .cvt dst src r _ => r == .rsr && cvtInexact src dst
  | .rngN | .rngF => true
  | _ => false
/-- Whether the operation reads all rows before any lands (Table 7.1). -/
def VFn.column : VFn → Bool
  | .rotc _ | .bcc _ | .tr _ | .redcSumF | .redcMaxF | .redcMinF | .redcSumI | .redcMaxI | .redcMinI => true
  | _ => false
/-- Whether the destination is a k register, and whether the sources are. -/
def VFn.toMask : VFn → Bool
  | .eqF | .neF | .ltF | .leF | .unordF | .eqI | .neI | .ltI | .geI | .ltuI | .geuI => true
  | .kand | .kor | .kxor | .kandn | .knot | .kmov => true
  | _ => false
def VFn.isKop : VFn → Bool
  | .kand | .kor | .kxor | .kandn | .knot | .kmov => true
  | _ => false
/-- The latency bound of Tables 6.2 and 7.1. -/
def VFn.lat : VFn → Nat
  | .splat _ => 17
  | .kand | .kor | .kxor | .kandn | .knot | .kmov => 17
  | .mulI | .mulhI => 19
  | .addF _ | .subF _ | .mulF _ | .rndF _ | .cvt _ _ _ _ => 20
  | .fma _ | .fms _ | .dot _ _ _ => 22
  | .scaI _ | .scaF _ => 24
  | .expi _ => 19
  | .rcpe | .rsqe => 20
  | .rcps _ | .rsqs _ => 22
  | .redrSumF | .redrMaxF | .redrMinF | .redrSumI | .redrMaxI | .redrMinI | .fexp | .lg2e => 24
  | .rngN | .rngF => 26
  | .rotc _ | .bcc _ | .tr _ => 20
  | .redcSumF | .redcMaxF | .redcMinF | .redcSumI | .redcMaxI | .redcMinI => 26
  | _ => 18
/-- The energy of an operation (Table 10.7). -/
def VFn.energy : VFn → Nat
  | .addF _ | .subF _ | .mulF _ | .rndF _ | .cvt _ _ _ _ | .expi _ | .expxE | .expxM | .rcpe | .rsqe => 240
  | .fma _ | .fms _ | .dot _ _ _ | .rcps _ | .rsqs _ => 320
  | .scaI _ | .scaF _ | .fexp | .lg2e | .rngN | .rngF => 400
  | .redrSumF | .redrMaxF | .redrMinF | .redrSumI | .redrMaxI | .redrMinI => 400
  | .redcSumF | .redcMaxF | .redcMinF | .redcSumI | .redcMaxI | .redcMinI => 400
  | _ => 160

end Sys2Proof.Machine
end

