-- ==== Sys2Proof/Machine/LoadStore.lean ====
section
/-! DEFINITION. The L slot: R78, R79, R124 to R136. A load or store is checked at issue and becomes requests that
Machine/Bank.lean presents and performs. -/
namespace Sys2Proof.Machine

/-! ## Addresses (R78, R79, R124) -/

/-- The scratchpad and offset of n bytes at scratchpad address a, seen from core k. -/
def spadAt (k a n : Nat) : Option (Nat × Nat) :=
  if a + n ≤ 2 ^ 21 then some (k, a)
  else if 9 * 2 ^ 21 ≤ a ∧ a + n ≤ 12 * 2 ^ 21 ∧ a / 2 ^ 21 = (a + n - 1) / 2 ^ 21 then
    some (siblingOf k (a / 2 ^ 21 - 8), a % 2 ^ 21)
  else none

/-- The first address that is misaligned or outside the windows: cause SPAD and INFO (R124). -/
def spadFault (k n al : Nat) : List Word → Option (Nat × Nat)
  | [] => none
  | a :: t => if a.toNat % al = 0 ∧ (spadAt k a.toNat n).isSome then spadFault k n al t else some (4, a.toNat % 2 ^ 32)

/-! ## Entering the queues (R125, R128) -/

/-- Whether a request is an access of the L slot. -/
def Req.isL (r : Req) : Bool :=
  match r.kind with | .ld .. => true | .st .. => true | .vld .. => true | .vst .. => true | .amo .. => true | _ => false
/-- Whether it stands in the load queue, and in the store queue; an AMO stands in both (R134). -/
def Req.inLd (r : Req) : Bool := match r.kind with | .ld .. => true | .vld .. => true | .amo .. => true | _ => false
def Req.inSt (r : Req) : Bool := match r.kind with | .st .. => true | .vst .. => true | .amo .. => true | _ => false

/-- The first and the last tick of a request's window, once its effective issue is known. -/
def Req.lo (r : Req) : Option Nat := r.e.map fun e => e + 1 + r.off
def Req.hi (r : Req) : Nat := match r.e with | some e => e + r.off + r.span | none => 0
/-- Atomics are presented at the first tick of their window (R318). -/
def Req.isAmo (r : Req) : Bool := match r.kind with | .amo .. => true | _ => false
/-- The tick at which a request of core j is presented, but for its predecessors: free in its window, and fixed by its issue. -/
def Req.present (r : Req) (j : Nat) : Option Nat :=
  r.lo.map fun l => if r.isAmo || r.span ≤ 1 then l else l + Config.free j (2 ^ 115 + r.seq * 2 ^ 21 + r.sub) % r.span
/-- The effective issue of an access, once it is known: row i of a whole-register access has e + i (R125). -/
def Req.eff (r : Req) : Option Nat := r.e.map (· + r.off)
/-- The accesses of one queue in the order in which they perform (R125): effective issue, then issue. -/
def queueOrder (q : Req → Bool) (rs : List Req) : List Req :=
  let key := fun (r : Req) => [if r.e.isNone then 1 else 0, r.eff.getD 0, r.seq, r.sub]
  let put := fun (l : List Req) (r : Req) => l.takeWhile (fun a => decide (key a < key r)) ++ r :: l.dropWhile (fun a => decide (key a < key r))
  (rs.filter q).foldl put []

/-- Insert a tick in rising order. -/
def putTick (n : Nat) : List Nat → List Nat
  | [] => [n]
  | a :: t => if n ≤ a then n :: a :: t else a :: putTick n t
/-- One tick of what a bank or a queue would still have to serve, had each request been presented at the first tick of its window: the ticks left to each window, of the
requests of `new` too, and one served, the window that ends first (R80). A window that ends with what is left over is one that the demand limit does not cover. -/
def demandTick (new : List (Nat × Nat)) (d : Tab (List Nat)) : Tab (List Nat) :=
  let aged : Tab (List Nat) := d.map fun (e : Nat × List Nat) => (e.1, e.2.map (· - 1))
  let asked := new.foldl (fun t e => Tab.set [] t e.1 (putTick e.2 (Tab.get [] t e.1))) aged
  (asked.map fun (e : Nat × List Nat) => (e.1, e.2.drop 1)).filter fun e => e.2 != []
/-- Whether a bank or queue is asked more than the limit at this tick. -/
def overAsked (d : Tab (List Nat)) (i : Nat) : Bool := (Tab.get [] d i).head? == some 0
/-- The demand on the load queue and the store queue of a core at tick t, counted as that on a bank. -/
def Core.askQueues (c : Core) (t : Nat) : Core :=
  let new := (c.reqs.filter fun r => r.lo == some t).flatMap fun r => (if r.inLd then [(0, r.hi - t)] else []) ++ (if r.inSt then [(1, r.hi - t)] else [])
  { c with queueDemand := if new.isEmpty && c.queueDemand.isEmpty then [] else demandTick new c.queueDemand }

/-- Whether accesses before MARK group g have still to perform. -/
def Core.behind (c : Core) (g : Nat) : Bool := c.reqs.any fun r => r.isL && decide (r.grp < g)
/-- The effective issue of an access of the present group issued at t, when no MARK leaves it open (R128). -/
def Core.effIssue (c : Core) (t : Nat) : Option Nat := if c.behind c.markGrp then none else some t

/-- Add one access; the last tick its window can have counts for M̂ (R217). -/
def Core.enq (c : Core) (t sub : Nat) (kind : ReqKind) (where' : Nat × Nat) (off span : Nat) : Core :=
  let r : Req := ⟨c.seq, sub, kind, where'.1, where'.2, t, off, span, c.effIssue t, c.markGrp, false⟩
  let last := max t c.markHat + off + span
  { c with reqs := c.reqs ++ [r], accHat := max c.accHat last, stHat := if r.inSt then max c.stHat last else c.stHat }
/-- A result for x[d] whose value is not known before its access performs. -/
def Core.awaitX (c : Core) (t d : Nat) : Core :=
  if d = 0 then c else { c with lands := c.lands ++ [⟨c.seq, t + 1, 0, false, false, .x d 0⟩] }
/-- MARK (R128): accesses from here on wait for all earlier ones. -/
def Core.mark (c : Core) : Core := { c with markGrp := c.markGrp + 1, markHat := c.accHat }

/-- Lanes of row i of its destination that an operation may write, as far as tick t knows: by the row of its mask that it has read or reads now, else any. -/
def Core.maskOf (c : Core) (t i : Nat) (o : VOp) : MaskRow :=
  (if !o.fn.masked || o.k == 0 then BitVec.allOnes 64
   else if o.t + i = t then Tab.get 0 c.k (16 * o.k + i) ||| c.kOpen t o.k i
   else if o.t + i < t then Tab.get 0 o.masks i
   else BitVec.allOnes 64) &&& ~~~Tab.get 0 o.skip i
/-- Lanes of row i of v[r] that operations issued before tick `before`, and still to give the row, have left undefined at tick t (R8, R67, R70). -/
def Core.vAhead (c : Core) (t before r i : Nat) : MaskRow :=
  c.vops.foldl (fun acc o => if !o.fn.toMask && o.d == r && decide (o.t < before) && o.ahead t i o.fn.column then acc ||| c.maskOf t i o else acc) 0
/-- Row i of v[r] as a store reads it (R8, R130). -/
def State.storeRow (s : State) (c : Core) (r i : Nat) : Row :=
  let o := c.vAhead (s.now c) (s.now c) r i
  if o = 0 then s.readV c r i else blend o (s.readV c r i) (BitVec.ofNat 2048 (s.free (0x14000 + 16 * r + i)))
/-- Data that vector stores read at this tick (R130): row i at exactly its effective issue. -/
def State.sampleStores (s : State) (c : Core) : Core :=
  let t := s.now c
  { c with reqs := c.reqs.map fun r => match r.kind with
      | .vst d i f6 none => if r.e.map (· + r.off) = some t then { r with kind := .vst d i f6 (some (s.storeRow c d i)) } else r
      | _ => r }

/-! ## Scalar accesses and atomics (R129, R134) -/

/-- The address of a scalar access. The spec gives the sums of R124 no width: they are taken modulo 2^64 before the test of R78 (DESIGN CHOICE, log entry
42). -/
def State.lAddr (s : State) (c : Core) (a i : Nat) : Word := s.readX c a + sext 11 i

/-- A scalar load of n bytes into x[d]. -/
def loadOp (g : Guard) (n : Nat) (sx : Bool) (d a i : Nat) (s : State) : Out :=
  slotTry g 2 (fun s c => spadFault s.cur.core n n [s.lAddr c a i])
    (fun s c =>
      let t := s.now c
      (c.awaitX t d).enq t 0 (.ld d n sx) ((spadAt s.cur.core (s.lAddr c a i).toNat n).getD (s.cur.core, 0)) 0 4) s
/-- A scalar store of the low n bytes of x[d], read at issue. -/
def storeOp (g : Guard) (n d a i : Nat) (s : State) : Out :=
  slotTry g 2 (fun s c => spadFault s.cur.core n n [s.lAddr c a i])
    (fun s c => c.enq (s.now c) 0 (.st n (s.readX c d)) ((spadAt s.cur.core (s.lAddr c a i).toNat n).getD (s.cur.core, 0)) 0 8) s
/-- An atomic of function f: a MARK, one access in both queues, and a MARK (R134). -/
def amoOp (g : Guard) (f d a b : Nat) (w : Bool) (s : State) : Out :=
  let n := if w then 4 else 8
  slotTry g 2 (fun s c => spadFault s.cur.core n n [s.readX c a])
    (fun s c =>
      let t := s.now c
      ((c.mark.awaitX t d).enq t 0 (.amo f d n (s.readX c b))
        ((spadAt s.cur.core (s.readX c a).toNat n).getD (s.cur.core, 0)) 0 4).mark) s

/-! ## The row path (R130 to R133, R135) -/

/-- The accesses of the L slot before the present MARK group that stand in group g or later. -/
def Core.between (c : Core) (g : Nat) : List Req := c.reqs.filter fun r => r.isL && decide (g ≤ r.grp) && decide (r.grp < c.markGrp)
/-- The least and the greatest number of ticks from the effective issue of the accesses of MARK group g on to the highest perform tick of those
before the present group: each group's accesses follow those of the group before it. -/
def Core.spread (c : Core) (g : Nat) : Nat × Nat :=
  let rs := (c.between g).filter (·.e.isNone)
  let groups := (rs.map (·.grp)).eraseDups
  (groups.length, groups.foldl (fun n h => n + ((rs.filter fun r => r.grp == h).map fun r => r.off + r.span).foldl max 0) 0)
/-- The perform tick of the last of a queue's accesses of MARK groups before g, each presented at its tick and after the one before it (R80, R125). -/
def Core.forecast (c : Core) (j g last : Nat) (q : Req → Bool) : Nat :=
  (queueOrder (fun r => q r && decide (r.grp < g)) c.reqs).foldl (fun p r => max (p + 1) ((r.present j).getD 0)) last
/-- Whether a row-path operation issued now falls before the previous one's effective issue plus its occupancy (R135). A MARK may leave either
effective issue open until accesses perform: the answer then follows from the ticks at which the accesses are presented, and from their windows where more
than one MARK stands between, with a free answer where these do not decide it (log entry 40). -/
def State.rowBlocked (s : State) (c : Core) : Bool :=
  let t := s.now c
  let decided := fun (lo hi : Nat) (limit : Nat) => decide (hi < limit) || (decide (lo < limit) && s.free 0x40000 % 2 == 1)
  match c.rowPath with
  | none => false
  | some r =>
    match r.e, c.effIssue t with
    | some p, some e => decide (e < p + r.occ)
    | some p, none =>
      let k := s.cur.core
      let known := (c.between 0).filterMap fun q => q.e.map fun e => (e + q.off + 1, e + q.off + q.span)
      let base := known.foldl (fun m e => (max m.1 e.1, max m.2 e.2)) (t, t)
      let w := c.spread 0
      !r.acc && (if w.1 = 0 then decide (max t (max (c.forecast k c.markGrp c.lastLd (·.inLd)) (c.forecast k c.markGrp c.lastSt (·.inSt))) < p + r.occ)
        else decided (base.1 + w.1) (base.2 + w.2) (p + r.occ))
    | none, _ => r.grp == c.markGrp || (!r.acc && (let w := c.spread r.grp; decided w.1 w.2 r.occ))

/-- A row-path operation: checked on the row path whatever its guard, then on its addresses; its rows are (row, address, kind). -/
def rowOp (g : Guard) (occ eu n span : Nat) (rows : State → Core → List (Nat × Word × ReqKind))
    (pre : Nat → Core → Core) (s : State) : Out :=
  let c := s.here
  let t := s.now c
  if s.rowBlocked c then .next (s.trapHere 2 2)
  else
    let on := c.guardOn g
    let c1 := { c with rowPath := some ⟨t, on, c.effIssue t, c.markGrp, occ⟩ }
    if on then
      match spadFault s.cur.core n 64 ((rows s c).map (·.2.1)) with
      | some (cause, info) => .next (s.trapHere cause info)
      | none =>
        let c2 := pre t (c1.charge eu).next
        let c3 := (rows s c).foldl (fun c r =>
          c.enq t r.1 r.2.2 ((spadAt s.cur.core r.2.1.toNat n).getD (s.cur.core, 0)) r.1 span) c2
        .next (s.setHere (s.sampleStores c3))
    else .next (s.setHere c1)

/-- Rows of v[d] that a load will fill, undefined from the next tick (R130). -/
def awaitRows (d : Nat) (rows : List Nat) (t : Nat) (c : Core) : Core :=
  rows.foldl (fun c i => c.rowResult c.seq (t + 1) 0 false d i (BitVec.allOnes 64) 0) c

/-- A whole-register load, row i at address `at' i`, of n bytes a row. -/
def vldOp (g : Guard) (f6 : Bool) (d : Nat) (at' : State → Core → Nat → Word) (s : State) : Out :=
  rowOp g 16 128 (if f6 then 192 else 256) 4
    (fun s c => (List.range 16).map fun i => (i, at' s c i, .vld d i f6)) (awaitRows d (List.range 16)) s
/-- A whole-register store. -/
def vstOp (g : Guard) (f6 : Bool) (d : Nat) (at' : State → Core → Nat → Word) (s : State) : Out :=
  rowOp g 16 128 (if f6 then 192 else 256) 8
    (fun s c => (List.range 16).map fun i => (i, at' s c i, .vst d i f6 none)) (fun _ c => c) s

/-- Row i of a register stored whole at x[a] + 64 × IMM11, rows of n bytes (R130, R133), modulo 2^64 as `State.lAddr` (log entry 42). -/
def wholeAddr (n a i : Nat) (s : State) (c : Core) (r : Nat) : Word :=
  s.readX c a + (sext 11 i <<< 6) + BitVec.ofNat 64 (n * r)
/-- Row i at x[a] + i × x[b] (R132), modulo 2^64 (log entry 42). -/
def strideAddr (a b : Nat) (s : State) (c : Core) (r : Nat) : Word := s.readX c a + BitVec.ofNat 64 r * s.readX c b
/-- The one row of VLDR and VSTR (R131), modulo 2^64 (log entry 42). -/
def oneAddr (a i : Nat) (s : State) (c : Core) : Word := s.readX c a + (sext 7 i <<< 8)

/-- LDB (R129). -/
def execLdb (g : Guard) (d a i : Nat) (s : State) : Out := loadOp g 1 true d a i s
/-- LDBU (R129). -/
def execLdbu (g : Guard) (d a i : Nat) (s : State) : Out := loadOp g 1 false d a i s
/-- LDH (R129). -/
def execLdh (g : Guard) (d a i : Nat) (s : State) : Out := loadOp g 2 true d a i s
/-- LDHU (R129). -/
def execLdhu (g : Guard) (d a i : Nat) (s : State) : Out := loadOp g 2 false d a i s
/-- LDW (R129). -/
def execLdw (g : Guard) (d a i : Nat) (s : State) : Out := loadOp g 4 true d a i s
/-- LDWU (R129). -/
def execLdwu (g : Guard) (d a i : Nat) (s : State) : Out := loadOp g 4 false d a i s
/-- LDD (R129). -/
def execLdd (g : Guard) (d a i : Nat) (s : State) : Out := loadOp g 8 false d a i s
/-- STB (R129). -/
def execStb (g : Guard) (d a i : Nat) (s : State) : Out := storeOp g 1 d a i s
/-- STH (R129). -/
def execSth (g : Guard) (d a i : Nat) (s : State) : Out := storeOp g 2 d a i s
/-- STW (R129). -/
def execStw (g : Guard) (d a i : Nat) (s : State) : Out := storeOp g 4 d a i s
/-- STD (R129). -/
def execStd (g : Guard) (d a i : Nat) (s : State) : Out := storeOp g 8 d a i s
/-- VLD (R130). -/
def execVld (g : Guard) (d a i : Nat) (s : State) : Out := vldOp g false d (wholeAddr 256 a i) s
/-- VST (R130): row i of v[d] read at its effective issue. -/
def execVst (g : Guard) (d a i : Nat) (s : State) : Out := vstOp g false d (wholeAddr 256 a i) s
/-- VLDR (R131): row r only. -/
def execVldr (g : Guard) (d a r i : Nat) (s : State) : Out := rowOp g 1 8 256 4 (fun s c => [(0, oneAddr a i s c, .vld d r false)]) (awaitRows d [r]) s
/-- VSTR (R131): row r only. -/
def execVstr (g : Guard) (d a r i : Nat) (s : State) : Out := rowOp g 1 8 256 8 (fun s c => [(0, oneAddr a i s c, .vst d r false none)]) (fun _ c => c) s
/-- VLDS (R132). -/
def execVlds (g : Guard) (d a b : Nat) (s : State) : Out := vldOp g false d (strideAddr a b) s
/-- VSTS (R132). -/
def execVsts (g : Guard) (d a b : Nat) (s : State) : Out := vstOp g false d (strideAddr a b) s
/-- VLDF6 (R133): 192 bytes a row. -/
def execVldf6 (g : Guard) (d a i : Nat) (s : State) : Out := vldOp g true d (wholeAddr 192 a i) s
/-- VSTF6 (R133). -/
def execVstf6 (g : Guard) (d a i : Nat) (s : State) : Out := vstOp g true d (wholeAddr 192 a i) s
/-- AMO.add (R134). -/
def execAmoAdd (g : Guard) (d a b : Nat) (w : Bool) (s : State) : Out := amoOp g 0 d a b w s
/-- AMO.swap (R134). -/
def execAmoSwap (g : Guard) (d a b : Nat) (w : Bool) (s : State) : Out := amoOp g 1 d a b w s
/-- AMO.and (R134). -/
def execAmoAnd (g : Guard) (d a b : Nat) (w : Bool) (s : State) : Out := amoOp g 2 d a b w s
/-- AMO.or (R134). -/
def execAmoOr (g : Guard) (d a b : Nat) (w : Bool) (s : State) : Out := amoOp g 3 d a b w s
/-- AMO.xor (R134). -/
def execAmoXor (g : Guard) (d a b : Nat) (w : Bool) (s : State) : Out := amoOp g 4 d a b w s
/-- AMO.min (R134). -/
def execAmoMin (g : Guard) (d a b : Nat) (w : Bool) (s : State) : Out := amoOp g 5 d a b w s
/-- AMO.max (R134). -/
def execAmoMax (g : Guard) (d a b : Nat) (w : Bool) (s : State) : Out := amoOp g 6 d a b w s
/-- AMO.minu (R134). -/
def execAmoMinu (g : Guard) (d a b : Nat) (w : Bool) (s : State) : Out := amoOp g 7 d a b w s
/-- AMO.maxu (R134). -/
def execAmoMaxu (g : Guard) (d a b : Nat) (w : Bool) (s : State) : Out := amoOp g 8 d a b w s
/-- MARK (R128). -/
def execMark (g : Guard) (s : State) : Out := slotOp g 1 (fun _ c => c.mark) s

end Sys2Proof.Machine
end

