-- ==== Sys2Proof/Machine/CopyOps.lean ====
section
/-! DEFINITION. Copies: address programs (R206, R207), ends and distances (R208), the checks at issue (R211), source reads (R213), faults
found later (R225) and lookups of VIRT ends (R350 to R352). -/
namespace Sys2Proof.Machine

/-! ## Address programs (Table 9.2) -/

/-- Reset value of a program field. -/
def copyReset (n : Nat) : Word := if n = 0x07 ∨ n = 0x21 then 64 else if 0x08 ≤ n ∧ n ≤ 0x0C then 1 else 0
/-- A stream of a core. -/
def Core.stream (c : Core) (st : Nat) : Stream := if st = 0 then c.ca else c.cb
def Core.setStream (c : Core) (st : Nat) (x : Stream) : Core := if st = 0 then { c with ca := x } else { c with cb := x }
/-- Set a field of a program (R209). The spec gives the fields no widths: the whole value is kept, so that one outside its limits fails its check when a
copy uses it (DESIGN CHOICE, log entry 44). -/
def Stream.setField (x : Stream) (prog n : Nat) (v : Word) : Stream :=
  { x with progs := Tab.set (copyReset n) x.progs (64 * prog + n) v }
/-- The snapshot of a program (R205). -/
def Stream.snapshot (x : Stream) (prog : Nat) : Tab Word :=
  (x.progs.filter fun e => e.1 / 64 == prog).map fun e => (e.1 % 64, e.2)
/-- A field of a copy. -/
def Copy.f (y : Copy) (n : Nat) : Nat := (Tab.get (copyReset n) y.fields n).toNat
/-- A copy of a stream by number. -/
def Core.copy (c : Core) (st id : Nat) : Option Copy := (c.stream st).copies.find? fun y => y.id == id
/-- Change a copy. -/
def State.modCopy (s : State) (k st id : Nat) (f : Copy → Copy) : State :=
  s.modCore k fun c =>
    let x := c.stream st
    c.setStream st { x with copies := x.copies.map fun y => if y.id = id then f y else y }

/-! ## Beats (R207) -/

/-- Beats of one contiguous run. -/
def Copy.run (y : Copy) : Nat := y.f 0x07 / 64
/-- Whether ELEM and the counts are in their limits, and B of R207. -/
def Copy.countsOk (y : Copy) : Bool :=
  y.f 0x07 % 64 == 0 && decide (64 ≤ y.f 0x07) && decide (y.f 0x07 ≤ 65536)
  && (List.range 5).all fun i => decide (1 ≤ y.f (0x08 + i)) && decide (y.f (0x08 + i) ≤ 65536)
def Copy.count (y : Copy) : Nat := y.run * y.f 0x08 * y.f 0x09 * y.f 0x0A * y.f 0x0B * y.f 0x0C
/-- Iteration of the innermost level that beat b belongs to: its index entry. -/
def Copy.entry (y : Copy) (b : Nat) : Nat := b / y.run % y.f 0x08
/-- Whether an end is formed from index entries. -/
def Copy.indexed (y : Copy) (dst : Bool) : Bool := y.f 0x00 == (if dst then 2 else 1)
/-- The base of an end, formed with the parameter (R207). -/
def Copy.base (y : Copy) (dst : Bool) : Nat :=
  (y.f (if dst then 0x05 else 0x02) + (if y.f 0x22 / (if dst then 2 else 1) % 2 = 1 then y.param.toNat else 0)) % 2 ^ 64
/-- The offset or address of an end of beat b (R207); an index entry is a signed 32-bit number. -/
def Copy.offset (y : Copy) (dst : Bool) (b : Nat) : Nat :=
  let r := b / y.run
  let c1 := y.f 0x08
  let c2 := y.f 0x09
  let c3 := y.f 0x0A
  let c4 := y.f 0x0B
  let str := fun i => y.f ((if dst then 0x18 else 0x10) + i)
  let first := if y.indexed dst then ((Tab.get (0 : Word) y.idx (r % c1)).toNat * y.f 0x21) else r % c1 * str 0
  (y.base dst + first + r / c1 % c2 * str 1 + r / (c1 * c2) % c3 * str 2 + r / (c1 * c2 * c3) % c4 * str 3
    + r / (c1 * c2 * c3 * c4) * str 4 + 64 * (b % y.run)) % 2 ^ 64
/-- Space and selector of an end. -/
def Copy.space (y : Copy) (dst : Bool) : Nat := y.f (if dst then 0x04 else 0x01)
def Copy.sel (y : Copy) (dst : Bool) : Nat := y.f (if dst then 0x06 else 0x03)
/-- Which ends a kind of copy uses (R218, R219). -/
def CopyKind.uses : CopyKind → Bool → Bool
  | .recv, false => false | .scrub, false => false | .send, true => false | _, _ => true

/-! ## Ends (R208, R241, R292, R381) -/

/-- The core that a CORE selector names, when it is another member of the launch (R292). -/
def State.coreSel (s : State) (k sel : Nat) : Option Nat :=
  let c := s.core k
  let q := s.part c.part
  let d := sel / 256 % 8
  let j := q.pdie d * 256 + sel % 256
  match s.launch c.part c.launch with
  | some l => if d < q.dies.length ∧ l.members.contains j ∧ j ≠ k then some j else none
  | none => none
/-- The bound tensor of an end. -/
def Copy.bind (y : Copy) (x : Stream) (dst : Bool) : Option RangeBind := Tab.find x.rb (y.sel dst)
/-- The peer entry of an end. -/
def State.peer (s : State) (p i : Nat) : Peer := (Tab.find (s.part p).peers i).getD Peer.reset

/-- The minimum distance of an end (Table 9.3). -/
def endDist (c : Core) (st : Nat) (y : Copy) (dst : Bool) : Nat :=
  match y.space dst with
  | 1 => if y.sel dst / 256 % 8 = c.die then 128 else 512
  | 2 =>
    match y.bind (c.stream st) dst with
    | some b =>
      let near := !b.hashed && b.home == c.die
      if b.station then (if near then 256 else 512) else if near then 1536 else 2048
    | none => 2048
  | 3 => 2048
  | 5 => 8192
  | _ => 12
/-- Energy units for each beat by the class of an end (Table 10.7). -/
def endEnergy (c : Core) (st : Nat) (y : Copy) (dst : Bool) : Nat :=
  match y.space dst with
  | 1 => if y.sel dst / 256 % 8 = c.die then 24 else 64
  | 2 =>
    match y.bind (c.stream st) dst with
    | some b => if !b.hashed && b.home == c.die then (if b.station then 24 else 40) else 64
    | none => 64
  | 3 => 64
  | 5 => 96
  | _ => 8

/-- The fault of one offset of an end, by cause and INFO (R211 check 4, Table 9.5): `first` is the end's first address. -/
def State.offsetFault (s : State) (k : Nat) (c : Core) (st : Nat) (y : Copy) (dst : Bool) (first o : Nat) : Option (Nat × Nat) :=
  match y.space dst with
  | 0 => if (spadAt k o 64).isSome then none else some (4, o % 2 ^ 32)
  | 1 =>
    if 2 ^ 21 < o + 64 then some (4, o % 2 ^ 32)
    else if (s.coreSel k (y.sel dst)).isNone then some (5, first % 2 ^ 32) else none
  | 2 =>
    match y.bind (c.stream st) dst with
    | none => some (0x0C, 0)
    | some b => if b.limit < o + 64 then some (0x0C, b.tid % 2 ^ 32) else none
  | 5 =>
    let e := s.peer c.part (y.sel dst)
    if e.st = 3 ∧ e.asid = c.asid ∧ o + 64 ≤ e.limit then none else some (0x0C, if e.st = 0 then 0 else e.rtid)
  | _ => none
/-- The fault of an end at issue: its offsets, when they are known, in beat order, then the state of a bound tensor (R329). An address
out of its space goes before a core out of the launch. An end formed from index entries is checked when they are read (R211, R225), an unbound index
of the range buffer with them. -/
def State.endFault (s : State) (k : Nat) (c : Core) (st : Nat) (y : Copy) (dst : Bool) (n : Nat) : Option (Nat × Nat) :=
  let os := (List.range n).map (y.offset dst)
  let fs := if y.indexed dst then [] else os.filterMap (s.offsetFault k c st y dst (y.offset dst 0))
  match fs.find? fun e => e.1 != 5 with
  | some e => some e
  | none =>
    match fs.head? with
    | some e => some e
    | none =>
      if y.space dst = 2 then
        match y.bind (c.stream st) dst with
        | none => if y.indexed dst then none else some (0x0C, 0)
        | some b =>
          let r := s.recOf c.part b
          if (if dst then r.writable b c.part else r.readable b c.part) then none else some (0x0C, b.tid % 2 ^ 32)
      else none

/-! ## Fitness of a program (R211 check 3) -/

def selOk (space sel : Nat) : Bool :=
  match space with
  | 1 => decide (sel < 2 ^ 11)
  | 2 => decide (sel < 64)
  | 5 => decide (sel < 32)
  | _ => true
/-- Limits of the fields of one end; an indexed end does not use its innermost stride (R206, R207). -/
def Copy.endOk (y : Copy) (dst : Bool) : Bool :=
  decide (y.space dst ≤ 5) && (dst || y.space dst != 4) && y.f (if dst then 0x05 else 0x02) % 64 == 0
  && ((List.range 5).all fun i => (i == 0 && y.indexed dst) || y.f ((if dst then 0x18 else 0x10) + i) % 64 == 0)
  && selOk (y.space dst) (y.sel dst) && y.base dst % 64 == 0 && (y.space dst != 4 || y.base dst == 0)
/-- Whether a program fits its instruction: a field is checked when the copy uses it (R206), and only an indexed copy uses IADDR and
ISCALE. -/
def Copy.fits (y : Copy) : Bool :=
  y.countsOk && inRange' y.count && decide (y.f 0x00 ≤ 2) && decide (y.f 0x22 ≤ 3)
  && (y.f 0x00 == 0 || (y.f 0x21 % 64 == 0 && y.f 0x20 % 4 == 0 && decide (y.f 0x20 + 4 * y.f 0x08 ≤ 2 ^ 21)))
  && (!y.kind.uses false || y.endOk false) && (!y.kind.uses true || y.endOk true)
  && (match y.kind with
      | .timed => !(y.space false == 5 && y.space true == 5)
      | .cpl => y.f 0x00 == 0 && y.space false == 0 && y.space true == 0
      | .send => y.f 0x00 == 0 && y.space false == 0 && decide (y.count ≤ 32)
      | .recv => y.f 0x00 == 0 && y.space true == 0
      | _ => true)
where
  /-- B lies between 1 and 65,536. -/
  inRange' (n : Nat) : Bool := decide (1 ≤ n) && decide (n ≤ 65536)

/-! ## The queue and the release track (R215) -/

/-- Whether an operation has a descriptor and a status word (R255). -/
def CopyKind.sealed (kd : CopyKind) : Bool := match kd with | .seal => true | .unseal => true | .scrub => true | _ => false
/-- Source reads that a copy makes. -/
def Copy.reads (y : Copy) : Nat :=
  match y.kind with
  | .seal => y.n - 3
  | .unseal => y.n + 3
  | .recv => 0 | .scrub => 0
  | _ => y.n
/-- The last tick that it occupies of the track; a sealed operation has its status word after its beats. -/
def Copy.last (y : Copy) : Nat := if y.kind.sealed then y.v + y.n else y.v + y.n - 1
/-- Whether it is in the copy queue at tick t. -/
def Copy.queued (y : Copy) (t : Nat) : Bool :=
  (y.kind != .send && decide (t ≤ y.last)) || (y.stop.isNone && decide (y.read.length < y.reads))
/-- Whether two copies share a tick of the track. -/
def Copy.clash (a b : Copy) : Bool :=
  a.kind != .send && b.kind != .send && a.n != 0 && b.n != 0 && decide (a.v ≤ b.last) && decide (b.v ≤ a.last)
/-- Drop the copies of a stream that have left the queue and have nothing more to do. -/
def Stream.prune (x : Stream) (t : Nat) : Stream :=
  { x with copies := x.copies.filter fun y => y.queued t || decide (t ≤ y.last) || (y.kind != .send && y.stop.isNone
      && decide (256 ≤ y.m) && decide (y.present.length + y.bad.length < y.reads)) }

/-! ## Issue (R205, R210, R211, R215) -/

/-- A copy as its instruction asks for it: reading starts at `lead` but for the XMARK bound (R217). -/
def newCopy (c : Core) (st t : Nat) (kind : CopyKind) (prog : Nat) (param : Word) (v lead dist : Nat) : Copy :=
  let x := c.stream st
  let r0 := if kind = .recv then some lead else match x.xmark with
    | none => some lead
    | some m => m.m.map fun n => max lead (n + 1)
  let hat := match x.xmark with | none => lead | some m => max lead (m.bound + 1)
  let y : Copy :=
    { id := x.nextId
      seq := c.seq + 1
      kind := kind
      prog := prog
      fields := x.snapshot prog
      param := param
      ipc := c.iss.pc
      itick := t
      n := 0
      v := match kind with | .cpl => r0.getD hat + 12 | .send => r0.getD hat + dist | _ => v
      r0 := r0
      r0min := lead
      m := dist
      mark := (x.xmark.map (·.at')).getD 0
      idx := []
      got := []
      read := []
      present := []
      bad := []
      places := []
      stop := none
      wall := none
      sver := 0
      sgen := 0
      dver := 0
      dgen := 0
      vers := []
      unchecked := false
      far := false
      status := none }
  { y with n := if y.countsOk && decide (y.count ≤ 65536) then y.count else 0 }
/-- R̂0 of R210. -/
def Copy.hat (y : Copy) (x : Stream) : Nat := match x.xmark with | none => y.r0min | some m => max y.r0min (m.bound + 1)

/-- The minimum distance of a copy (R208). -/
def Copy.dist (y : Copy) (c : Core) (st : Nat) : Nat :=
  match y.kind with
  | .timed => max (endDist c st y false) (endDist c st y true)
  | .send => y.m
  | _ => 12
/-- The trap of a copy at issue (R211), `hasV` saying that it names a visible-at tick. -/
def State.copyTrap (s : State) (k : Nat) (c : Core) (st t : Nat) (y : Copy) (hasV : Bool) : Option (Nat × Nat) :=
  let x := c.stream st
  let q := x.copies.filter fun z => z.queued t
  if 16 ≤ q.length || (hasV && q.any fun z => z.clash y) then some (2, 6 + st)
  else if !y.fits then some (8, 2 ^ 32 - 1)
  else
    match (if y.kind.uses false then s.endFault k c st y false y.n else none) with
    | some e => some e
    | none =>
      match (if y.kind.uses true then s.endFault k c st y true y.n else none) with
      | some e => some e
      | none =>
        let d := if hasV then y.v + 1 - y.hat x else 0
        if y.kind = .timed ∧ d < y.dist c st then some (8, d % 2 ^ 32) else none

/-- The first and the last tick of the source-read window of input beat b (R213; of SEAL and UNSEAL after their descriptor is known, of UNSEAL before the
verification of R258). -/
def Copy.window (y : Copy) (b : Nat) : Nat × Nat :=
  let r := y.r0.getD (y.r0min)
  match y.kind with
  | .timed => if y.space false = 3 then (r + b + 192, r + b + 192) else (r + b, y.v + b + 1 - y.m)
  | .seal => (max (r + b) (y.itick + 5), y.v + b + 1 - y.m)
  | .unseal => (max (r + b) (y.itick + 5), y.v + b - y.m - (y.n + 2))
  | _ => (r + b, r + b)
/-- Whether the banks decide when a copy's source is read: a scratchpad source (R80). -/
def Copy.banked (y : Copy) : Bool := y.space false == 0 && y.kind.uses false
/-- Whether the offset of beat b is known: an index entry that forms it has been read. -/
def Copy.known (y : Copy) (b : Nat) : Bool := y.f 0x00 == 0 || (Tab.find y.idx (y.entry b)).isSome
/-- The scratchpad reads among some beats that a copy asks of the banks at tick t, once its start and their offsets are known (R80, R213, R216, R218):
each from the next tick on, in the window of its beat. -/
def copyReqs (k st t : Nat) (y : Copy) (bs : List Nat) : List Req :=
  if y.r0.isNone || y.unchecked || !y.banked then []
  else bs.filterMap fun b =>
    if y.known b then
      let w := y.window b
      let lo := max w.1 (t + 1)
      (spadAt k (y.offset false b) 64).map fun a =>
        ⟨y.seq, b, .src st y.id b, a.1, a.2, y.itick, 0, max w.2 lo + 1 - lo, some (lo - 1), 0, y.kind == .cpl || y.kind == .send⟩
    else none
/-- The index entries that a copy reads (R207): each by the last tick at which a beat that it forms may still read its source, when that comes first. -/
def indexReqs (k st : Nat) (y : Copy) : List Req :=
  if y.f 0x00 = 0 then []
  else (List.range (y.f 0x08)).map fun n =>
    let last := min (8 + n / 16) ((y.window (n * y.run)).2 - y.itick)
    ⟨y.seq, n, .idx st y.id n, k, y.f 0x20 + 4 * n, y.itick, 0, max 1 last, some y.itick, 0, false⟩

/-- The versions of a context's tensors as they stand (R224). -/
def State.versions (s : State) (p asid : Nat) : Tab (Nat × Nat × Nat × Nat) :=
  (s.vrecs.filter fun e => e.2.part == p && e.2.asid == asid && e.2.st != .invalid).map fun e => (e.1, e.2.ver, e.2.kgen, e.2.ever, e.2.egen)
/-- The versions of the tensor of a looked-up place as they stood at the issue of a copy: none where it had no record yet. -/
def Copy.versOf (y : Copy) (q : Part) (pl : Place) : Nat × Nat × Nat × Nat := (Tab.find y.vers (vrecKey (q.pdie pl.home) pl.tid)).getD (0, 0, 0, 0)
/-- Put a checked copy in the queue of its stream: charged for all its beats, with the versions that stand now (R224, R241). The port beats of a stream's
WPORT copies follow one another in the order of issue: the spec orders the beats of one copy only (DESIGN CHOICE, log entry 45). -/
def State.queueCopy (s : State) (k : Nat) (c : Core) (st t eu : Nat) (y : Copy) : State :=
  let x := c.stream st
  let q := s.part c.part
  let sr := (y.bind x false).map (s.recOf c.part)
  let dr := (y.bind x true).map (s.recOf c.part)
  let y1 := { y with
    m := y.dist c st
    sver := (sr.map (·.ver)).getD 0
    sgen := (sr.map (·.kgen)).getD 0
    dver := (dr.map (·.ever)).getD 0
    dgen := (dr.map (·.egen)).getD 0
    vers := if y.space false == 3 || y.space true == 3 then s.versions c.part c.asid else []
    wall := if y.kind.uses true && y.kind == .timed && y.space true == 5 then some (s.wtime, q.rate) else none }
  let x1 := { x.prune t with nextId := x.nextId + 1 }
  let x2 := { x1 with
    copies := x1.copies ++ [y1]
    port := if y.kind = .timed ∧ y.space true = 4 then x1.port ++ [⟨y.id, y.v, y.n, 0, []⟩] else x1.port }
  let c1 := ((c.charge (y.n * eu)).next).setStream st x2
  s.setCore k { c1 with reqs := c1.reqs ++ copyReqs k st t y1 (List.range y1.reads) ++ indexReqs k st y1 }

/-- A copy instruction (R211): nothing when its guard reads 0, else its trap or its place in the queue. -/
def copyOp (g : Guard) (ask : State → Core → Nat → Nat → Copy × Bool) (eu : Core → Nat → Copy → Nat) (s : State) : Out :=
  let c := s.here
  if c.guardOn g then
    let k := s.cur.core
    let st := s.cur.slot - 6
    let t := s.now c
    let a := ask s c st t
    match s.copyTrap k c st t a.1 a.2 with
    | some (cause, info) => .next (s.trapHere cause info)
    | none => .next (s.queueCopy k c st t (eu c st a.1) a.1)
  else .next s

/-! ## Faults of a copy (R225) -/

/-- A fault of beat b detected at tick e: the beat is never released, and unless `runs` nor is any of tick e + 192 or later. A second
fault of a stopped copy adds only its beat. -/
def State.copyFaultAt (s : State) (k st id b cause info e : Nat) (runs : Bool) : State :=
  match (s.core k).copy st id with
  | none => s
  | some y =>
    let d : DueTrap := ⟨0, ⟨cause, 6 + st, 0, info % 2 ^ 32⟩, b, y.ipc, st, y.prog, y.itick⟩
    if runs then s.laterFault k e d
    else
      let s1 := s.modCopy k st id fun y => { y with bad := if y.bad.contains b then y.bad else b :: y.bad }
      if y.stop.isSome then s1
      else (s1.modCopy k st id fun y => { y with stop := some (e + Config.holdLead) }).laterFault k e d
/-- Where the descriptor of a sealed operation stands among the beats of its copy. -/
def descKey : Nat := 2 ^ 20
/-- Where the outputs of a copy stand among its beats, in the events that carry them to another die (R375). -/
def outBeat : Nat := 2 ^ 19
/-- The number that identifies an event of a beat among those of its wall tick. -/
def beatCode (k st id b what : Nat) : Nat := 2 ^ 36 + ((((id * 2 + st) * 2 ^ 20 + b) * 8 + what) * 4096 + k)

/-! ## Source reads (R207, R213, R224) -/

/-- What a source read gives: bytes, or a fault by cause and INFO. -/
inductive Got where
  | data (v : Beat) | fault (cause info : Nat)
  deriving DecidableEq, Repr
/-- Read an index entry now: the signed 32-bit number, the faults of the beats that it forms (R225), and the requests of those that read a scratchpad. Its own request
stays until its bank serves it. -/
def State.readIndex (s : State) (k st id n : Nat) : State :=
  match (s.core k).copy st id with
  | none => s
  | some y =>
    if (Tab.find y.idx n).isSome then s
    else
      let a := padKey k (y.f 0x20 + 4 * n)
      let w := (BitVec.ofNat 32 (s.loadBy k a 4)).signExtend 64
      let y1 := { y with idx := Tab.put y.idx n w }
      let dst := y.f 0x00 == 2
      let c := s.core k
      let bs := (List.range y.n).filter fun b => y.entry b == n
      let o0 := y1.offset dst (bs.headD 0)
      let faults := bs.filterMap fun b => (s.offsetFault k c st y1 dst o0 (y1.offset dst b)).map fun e => (b, e)
      let good := bs.filter fun b => !(faults.any fun e => e.1 == b)
      let req := if dst then [] else copyReqs k st (s.now c) y1 good
      let s1 := (s.modCopy k st id fun _ => { y1 with bad := faults.map (·.1) ++ y1.bad }).modCore k fun c =>
        { c with reqs := c.reqs ++ req }
      let s1 := s1.see k a 4
      match faults with
      | [] => s1
      | e :: _ => s1.later (beatCode k st id e.1 1) (.copyFault k st id e.1 e.2.1 e.2.2)
/-- Read the index entry of a beat, if it has one that has not been read. -/
def State.needIndex (s : State) (k st id b : Nat) : State :=
  match (s.core k).copy st id with
  | some y => if y.f 0x00 = 0 then s else s.readIndex k st id (y.entry b)
  | none => s

/-- INFO of a VIRT fault: address bits [43:12]. -/
def virtInfo (va : Nat) : Nat := va / 4096 % 2 ^ 32
/-- The source bytes of beat b as they stand now. -/
def State.sourceOf (s : State) (k : Nat) (c : Core) (st : Nat) (y : Copy) (b : Nat) : Got :=
  let o := y.offset false b
  match y.space false with
  | 0 => match spadAt k o 64 with | some w => .data (s.line (padKey w.1 w.2)) | none => .fault 4 o
  | 1 => match s.coreSel k (y.sel false) with | some j => .data (s.line (padKey j o)) | none => .fault 5 o
  | 2 =>
    match y.bind (c.stream st) false with
    | none => .fault 0x0C 0
    | some r =>
      match s.tensorPlace c.part r o with
      | none => .fault 0x0C r.tid
      | some pl =>
        match s.readPlace c.part c.asid pl y.sver y.sgen with
        | .data v => .data v | .refused => .fault 0x0C r.tid | .tag => .fault 0x0A r.tid
  | 3 =>
    match Tab.find y.places (2 * b) with
    | none => .fault 9 (virtInfo o)
    | some pl =>
      let r := y.versOf (s.part c.part) pl
      match s.readPlace c.part c.asid pl r.1 r.2.1 with
      | .data v => .data v
      | .refused => .fault 9 (virtInfo o)
      | .tag => .fault 0x0A (if pl.paged then pagedTid else pl.tid)
  | _ => .data (BitVec.ofNat 512 (Config.free k (2 ^ 111 + beatCode k st y.id b 2)))
/-- The key of the source of beat b, where it is memory of this package. -/
def State.sourceKey (s : State) (k : Nat) (c : Core) (st : Nat) (y : Copy) (b : Nat) : Option Nat :=
  let o := y.offset false b
  let dev := fun (pl : Place) => devKey pl.station ((s.part c.part).pdie pl.d) pl.off
  match y.space false with
  | 0 => (spadAt k o 64).map fun w => padKey w.1 w.2
  | 1 => (s.coreSel k (y.sel false)).map fun j => padKey j o
  | 2 => ((y.bind (c.stream st) false).bind fun r => s.tensorPlace c.part r o).map dev
  | 3 => (Tab.find y.places (2 * b)).map dev
  | _ => none
/-- The place of a memory end of a beat, for the request counters (R360). -/
def State.memPlace (s : State) (c : Core) (st : Nat) (y : Copy) (dst : Bool) (b : Nat) : Option Place :=
  match y.space dst with
  | 2 => (y.bind (c.stream st) dst).bind fun r => s.tensorPlace c.part r (y.offset dst b)
  | 3 => Tab.find y.places (2 * b + dst.toNat)
  | _ => none

/-- Read the source of beat b (R213, R216, R218). The beat of a near copy is present (R226); another's arrives later, and so does a
fault of its checks. A copy that a check has found failing delivers what is free (R61). -/
def State.readBeat (s : State) (k st id b : Nat) : State :=
  let s := s.needIndex k st id b
  let c := s.core k
  match c.copy st id with
  | none => s
  | some y =>
    if y.read.contains b || y.bad.contains b then s
    else
      match s.sourceOf k c st y b with
      | .data v0 =>
        let near := decide (y.m < 256) && y.kind != .send
        let key := s.sourceKey k c st y b
        let v := if c.spoilt.contains (6 + st, y.itick) then BitVec.ofNat 512 (Config.free k (2 ^ 117 + beatCode k st y.id b 6))
          else match key with | some a => s.blur k a v0 | none => v0
        let s0 := match key with | some a => s.see k a 64 | none => s
        let s1 := s0.modCopy k st id fun y => { y with
          got := Tab.put y.got b v
          read := b :: y.read
          present := if near then b :: y.present else y.present }
        let s2 := match s.memPlace c st y false b with | some pl => s1.countRequest c.part c.die pl | none => s1
        let s3 := if near then s2 else s2.later (beatCode k st id b 0) (.beatPresent k st id b)
        if y.kind = .cpl then
          match spadAt k (y.offset true b) 64 with
          | some w => s3.modCore k fun c =>
            { c with reqs := c.reqs ++ [⟨c.seq, b, .cpl st id b v, w.1, w.2, y.itick, b, 1, some (y.v - 1), 0, true⟩] }
          | none => s3
        else s3
      | .fault cause info =>
        let s0 := match s.memPlace c st y false b with
          | some pl => if cause = 0x0A then (s.countRequest c.part c.die pl).meetError c.part pl 0 else s
          | none => s
        (s0.modCopy k st id fun y => { y with read := b :: y.read, bad := b :: y.bad }).later (beatCode k st id b 1)
          (.copyFault k st id b cause (info % 2 ^ 32))

/-- The tick of that window at which the beat reads, where no bank decides it: free. -/
def Copy.readTick (y : Copy) (k st b : Nat) : Nat :=
  let w := y.window b
  w.1 + Config.free k (2 ^ 112 + beatCode k st y.id b 3) % (w.2 + 1 - w.1)
/-! ## VIRT ends (R350 to R352) -/

/-- The tick at which an end of beat b is looked up. -/
def Copy.lookupTick (y : Copy) (b : Nat) (dst : Bool) : Nat := if dst then y.v + b - 192 else y.r0.getD y.r0min + b
/-- The tensor whose descriptor in the tensor table has a range that holds a virtual address (R324, R325). -/
def State.rangeHit (s : State) (p asid va : Nat) : Option Nat :=
  let q := s.part p
  if 1 ≤ q.tnlog ∧ q.tnlog ≤ 16 then
    (List.range (2 ^ q.tnlog)).findSome? fun i =>
      let x := s.devLoad q (q.tnbase * 4096 + 64 * i) 64
      let b := descBind x
      if field x 327 327 = 1 ∧ b.tid % 2 ^ q.tnlog = i ∧ b.asid = asid ∧ b.vbase ≤ va ∧ va < b.vbase + b.limit then
        some b.tid
      else none
  else none
/-- A lookup ends with a page entry: the access flags and the ownership check, then the place (R350, R352). -/
def State.endLookup (s : State) (k st id b : Nat) (dst : Bool) (e : TlbEntry) (va at' : Nat) : State :=
  let c := s.core k
  let q := s.part c.part
  let fault := s.copyFaultAt k st id b 9 (virtInfo va) at' false
  if (if dst then e.w else e.r) then
    match e.place q va with
    | none => fault
    | some pl =>
      let o := s.own pl.station (q.pdie pl.d) pl.off
      if shunterMay o c.asid && (pl.station || q.live o.pgen) then
        s.modCopy k st id fun y => { y with places := Tab.put y.places (2 * b + dst.toNat) pl }
      else fault
  else fault
/-- Whether a migration in effect moves the page of an address. -/
def Part.moving (q : Part) (asid va : Nat) : Bool :=
  q.migration.any fun m => m.asid == asid && decide (m.va ≤ va) && decide (va < m.va + m.size) && decide (m.x ≤ q.stime)
/-- The place of an end of beat b is known. -/
def State.putPlace (s : State) (k st id b : Nat) (dst : Bool) (pl : Place) : State :=
  s.modCopy k st id fun y => { y with places := Tab.put y.places (2 * b + dst.toNat) pl }
/-- An end of beat b lies in the range of tensor tid: its descriptor is read, which makes an INVALID record EMPTY (R326), and its record and granule must allow the beat. -/
def State.lookupTensor (s0 : State) (k st id b : Nat) (dst : Bool) (tid va at' : Nat) : State :=
  let c := s0.core k
  let pin := s0.pinTensor c.part c.asid tid
  let s := pin.1
  let q := s.part c.part
  let fault := s.copyFaultAt k st id b 0x0C tid at' false
  match pin.2 with
  | none => fault
  | some r =>
    let x := s.recOf c.part r
    let ok := if dst then x.writable r c.part else x.readable r c.part
    match s.tensorPlace c.part r (va - r.vbase) with
    | some pl => if ok && shunterMay (s.own pl.station (q.pdie pl.d) pl.off) c.asid then s.putPlace k st id b dst pl else fault
    | none => fault
/-- Look up one end of beat b (R350): by range, in the translation buffer, by a walk under hold cause 3, or in the siding under cause 2. -/
def State.lookup (s : State) (k st id b : Nat) (dst : Bool) : State :=
  let s := s.needIndex k st id b
  let c := s.core k
  match c.copy st id with
  | none => s
  | some y =>
    let q := s.part c.part
    let va := y.offset dst b
    let at' := y.lookupTick b dst
    match s.rangeHit c.part c.asid va with
    | some tid => s.lookupTensor k st id b dst tid va at'
    | none =>
      if 2 ^ 44 ≤ va then s.copyFaultAt k st id b 9 (virtInfo va) at' false
      else if q.moving c.asid va then
        (s.raiseHoldAt c.part 2 (beatTag k st id b dst) (at' + s.ctoff c + Config.holdLead)).modPart c.part fun q =>
          { q with migration := q.migration.map fun m => { m with waiting := m.waiting ++ [(k, st, id, b, dst)] } }
      else
        match (c.stream st).tlb.find? fun e => e.holds c.asid va with
        | some e => s.endLookup k st id b dst e va at'
        | none => (s.raiseHoldAt c.part 3 (beatTag k st id b dst) (at' + s.ctoff c + Config.holdLead)).later (beatCode k st id b (4 + dst.toNat)) (.walkComplete k st id b dst)
/-- Walk for an end of beat b; the entry is kept unless the page is moving (R351, R352, R358). -/
def State.walkEnd (s : State) (k st id b : Nat) (dst : Bool) : State :=
  let c := s.core k
  match c.copy st id with
  | none => s
  | some y =>
    let q := s.part c.part
    let va := y.offset dst b
    let at' := y.lookupTick b dst
    match s.walk q c.asid va with
    | none => s.copyFaultAt k st id b 9 (virtInfo va) at' false
    | some e =>
      let x := c.stream st
      let keep := q.moving c.asid va || x.tlb.any fun z => z.holds c.asid va
      let s1 := if keep then s else s.setCore k (c.setStream st { x with tlb := fillTlb x.tlb e })
      s1.endLookup k st id b dst e va at'
/-- What the walk for an end of beat b finds. -/
def State.walkFor (s : State) (k st id b : Nat) (dst : Bool) : Option TlbEntry :=
  let c := s.core k
  (c.copy st id).bind fun y => s.walk (s.part c.part) c.asid (y.offset dst b)
/-- The lookups of a stream that wait for a walk of the page of an entry (R351): copy, beat and end. -/
def State.walkMates (s : State) (k st : Nat) (e : TlbEntry) : List (Nat × Nat × Bool) :=
  let c := s.core k
  s.events.filterMap fun z =>
    match z.2 with
    | .walkComplete k' st' id b dst =>
      if k' = k ∧ st' = st ∧ ((c.copy st id).any fun y => e.holds c.asid (y.offset dst b)) then some (id, b, dst) else none
    | _ => none
/-- A lookup that waited for a walk of its page ends with the walk's entry. -/
def State.walkMate (k st : Nat) (e : TlbEntry) (s : State) (w : Nat × Nat × Bool) : State :=
  let s1 := { s with events := s.events.filter fun z => !(z.2 == .walkComplete k st w.1 w.2.1 w.2.2) }
  match (s.core k).copy st w.1 with
  | none => s1
  | some y => s1.endLookup k st w.1 w.2.1 w.2.2 e (y.offset w.2.2 w.2.1) (y.lookupTick w.2.1 w.2.2)

/-! ## What a tick reads before its releases (R207, R213, R256) -/

/-- A descriptor line is read (R256). -/
def State.readDescriptor (s : State) (k st id : Nat) (r : Req) : State :=
  let a := padKey r.pad r.addr
  s.modCopy k st id fun y => { y with got := if (Tab.find y.got descKey).isSome then y.got else Tab.put y.got descKey (s.blur k a (s.line a)) }
/-- Before the releases of tick t, the streams of core k take what no bank has served in its time, since a write at the tick is not seen: index entries and descriptors whose
window ends with the tick, and source beats whose window has ended before it. Their banks serve them in their turn, which changes nothing more. -/
def State.closeReads (s : State) (k t : Nat) : State :=
  (s.core k).reqs.foldl (fun s r =>
    let ends := r.e.any fun e => decide (e + r.off + r.span ≤ t)
    match r.kind with
    | .idx st id n => if ends then s.readIndex k st id n else s
    | .desc st id => if ends then s.readDescriptor k st id r else s
    | .src st id b => if ((s.core k).copy st id).any fun y => decide ((y.window b).2 < t) then s.readBeat k st id b else s
    | _ => s) s

/-! ## Writing a destination (R212, R228, R333, R356) -/

/-- Count a line of an open epoch (Table 16.4), in a record whose path holds (R327). -/
def State.countLine (s : State) (p : Nat) (pd tid : Nat) : State :=
  if s.pathHolds pd tid then s.setVrec (s.part p) pd tid (let r := s.vrec pd tid; { r with cov := r.cov + 1 }) else s
/-- Whether a write beat released at context tick t belongs to the open epoch `ever` of a tensor (R333). -/
def VRec.takes (r : VRec) (b : RangeBind) (p ever t : Nat) : Bool :=
  r.writable b p && r.ever == ever && !r.frozen.any fun f => decide (f < t)
/-- Write the destination of beat b of a copy of core k at this tick. -/
def State.writeDest (s : State) (k st : Nat) (y : Copy) (b : Nat) (v : Beat) : State :=
  let c := s.core k
  let t := s.now c
  let o := y.offset true b
  match y.space true with
  | 0 => match spadAt k o 64 with | some w => s.writeLine k (padKey w.1 w.2) v | none => s
  | 1 => match s.coreSel k (y.sel true) with | some j => s.writeLine k (padKey j o) v | none => s
  | 2 =>
    match y.bind (c.stream st) true with
    | none => s
    | some r =>
      let x := s.recOf c.part r
      match (if x.takes r c.part y.dver t then s.tensorPlace c.part r o else none) with
      | none => s.copyFaultAt k st y.id b 0x0C r.tid t false
      | some pl =>
        match s.writePlace k c.part c.asid pl y.dver y.dgen v with
        | none => s.copyFaultAt k st y.id b 0x0C r.tid t false
        | some s1 => (s1.countLine c.part ((s.part c.part).pdie r.home) r.tid).countRequest c.part c.die pl
  | 3 =>
    match Tab.find y.places (2 * b + 1) with
    | none => s
    | some pl =>
      let pd := (s.part c.part).pdie pl.home
      let r := s.recAt pd pl.tid
      let e := y.versOf (s.part c.part) pl
      if !pl.paged && !(r.st == .opened && r.ever == e.2.2.1 && !r.frozen.any fun f => decide (f < t)) then s.copyFaultAt k st y.id b 0x0C pl.tid t false
      else
        match s.writePlace k c.part c.asid pl e.2.2.1 e.2.2.2 v with
        | none => s.copyFaultAt k st y.id b 9 (virtInfo o) t false
        | some s1 => (if pl.paged then s1 else s1.countLine c.part pd pl.tid).countRequest c.part c.die pl
  | 4 =>
    s.modCore k fun c =>
      let x := c.stream st
      c.setStream st { x with port := x.port.map fun g => if g.id = y.id then { g with data := Tab.put g.data b v } else g }
  | _ => s

end Sys2Proof.Machine
end

