-- ==== Sys2Proof/Machine/Tensor.lean ====
section
/-! DEFINITION. The tensor instructions and their effects: R328, R333, R336 to R339. -/
namespace Sys2Proof.Machine

/-! ## Issue (R336) -/

/-- Change the issue ticks at which the count of a record is frozen (R333): a record whose path fails stays as it is (R327). -/
def State.freezeCount (s : State) (pd tid : Nat) (f : List Nat → List Nat) : State :=
  if s.pathHolds pd tid then
    { s with vrecs := Tab.set VRec.reset s.vrecs (vrecKey pd tid) { s.vrec pd tid with frozen := f (s.vrec pd tid).frozen } }
  else s
/-- A tensor instruction on a bound index: an unbound one traps at issue; else it is charged and its effect waits for t + 512. -/
def tensorOp (g : Guard) (op tidx : Nat) (eu : RangeBind → Nat) (s : State) : Out :=
  let c := s.here
  if c.guardOn g then
    let st := s.cur.slot - 6
    let x := c.stream st
    let t := s.now c
    match Tab.find x.rb tidx with
    | none => .next (s.trapHere 0x0C 0)
    | some b =>
      let e : TEffect := ⟨x.nextId, op, t + 512, c.iss.pc, t, some b, c.asid⟩
      let c1 := ((c.charge (eu b)).next).setStream st { x with nextId := x.nextId + 1, effects := x.effects ++ [e] }
      let s1 := s.setHere c1
      let q := s1.part c.part
      if op = 1 then
        .next (s1.freezeCount (q.pdie b.home) b.tid fun l => l ++ [t])
      else .next s1
  else .next s

/-- TBUMP (R336). -/
def execTbump (g : Guard) (i : Nat) (s : State) : Out := tensorOp g 0 i (fun _ => 1) s
/-- TCOMMIT (R333, R336): the count freezes at the beats released so far. -/
def execTcommit (g : Guard) (i : Nat) (s : State) : Out := tensorOp g 1 i (fun _ => 1) s
/-- TDIG (R336): charged for its lines. -/
def execTdig (g : Guard) (i : Nat) (s : State) : Out := tensorOp g 2 i (fun b => 1 + 40 * (b.limit / 64)) s
/-- KROT (R336, R338). -/
def execKrot (g : Guard) (s : State) : Out :=
  slotOp g 1 (fun s c =>
    let st := s.cur.slot - 6
    let x := c.stream st
    let t := s.now c
    c.setStream st { x with nextId := x.nextId + 1, effects := x.effects ++ [⟨x.nextId, 3, t + 512, c.iss.pc, t, none, c.asid⟩] }) s

/-! ## Epochs (R328, R333) -/

/-- Whether an epoch may open. -/
def VRec.opens (r : VRec) (b : RangeBind) (p : Nat) : Bool :=
  r.isFor p b.tid b.asid && r.st != .opened && r.st != .invalid && b.wr && decide (r.next < 2 ^ 32 - 1)
/-- Open epoch NEXT + 1 under generation g. -/
def VRec.openAt (r : VRec) (g : Nat) : VRec :=
  { r with st := .opened, next := r.next + 1, ever := r.next + 1, egen := g, cov := 0, digok := false }
/-- Commit: CLOSED under the open version when every line has been counted, else TORN. -/
def VRec.commit (r : VRec) (limit : Nat) : VRec :=
  if r.cov = limit / 64 then { r with st := .closed, ver := r.ever, kgen := r.egen } else { r with st := .torn }
/-- The beats of a copy whose source-read window closes at or after tick e and which read tensor tid (R333). -/
def openReads (x : Stream) (y : Copy) (tid e : Nat) : List Nat :=
  if y.kind != .timed && y.kind != .seal && y.kind != .unseal then []
  else if y.space false = 2 then
    if (y.bind x false).any fun b => b.tid == tid then (List.range y.reads).filter fun b => decide (e ≤ (y.window b).2) else []
  else if y.space false = 3 then
    (List.range y.reads).filter fun b =>
      decide (e ≤ (y.window b).2) && (Tab.find y.places (2 * b)).any fun pl => !pl.paged && pl.tid == tid
  else []
/-- The read copies of a context that the opening of tensor tid reaches at tick e fault with TENSOR (R333). -/
def State.faultReads (s : State) (p asid tid : Nat) : State :=
  (s.cores.filter fun z => z.2.part == p && z.2.asid == asid).foldl (fun s z =>
    (List.range 2).foldl (fun s st =>
      ((s.core z.1).stream st).copies.foldl (fun s y =>
        match openReads ((s.core z.1).stream st) y tid (s.tick z.1) with
        | [] => s
        | b :: bs =>
          let s1 := s.copyFaultAt z.1 st y.id b 0x0C tid (s.tick z.1) false
          s1.modCopy z.1 st y.id fun y => { y with bad := bs ++ y.bad }) s) s) s
/-- Open an epoch of a tensor: a running digest check is cancelled (R337), and reads still open fault. -/
def State.openEpoch (s : State) (p : Nat) (b : RangeBind) : State :=
  let q := s.part p
  let s1 := s.setVrec q (q.pdie b.home) b.tid ((s.recOf p b).openAt q.gen)
  (s1.modPart p fun q => { q with digests := q.digests.filter fun d => !(d.bind.tid == b.tid && d.asid == b.asid) }).faultReads p b.asid b.tid
/-- Commit the open epoch of a tensor. -/
def State.commitEpoch (s : State) (p : Nat) (b : RangeBind) : State :=
  let q := s.part p
  s.setVrec q (q.pdie b.home) b.tid ((s.recOf p b).commit b.limit)

/-! ## Effects (Table 16.5) -/

/-- An effect by number, and the stream without it. -/
def State.effect (s : State) (k st id : Nat) : Option TEffect := ((s.core k).stream st).effects.find? fun e => e.id == id
def State.dropEffect (s : State) (k st id : Nat) : State :=
  s.modCore k fun c => let x := c.stream st; c.setStream st { x with effects := x.effects.filter fun e => !(e.id == id) }
/-- CTOFF of context a of partition p. -/
def State.ctoffOf (s : State) (p a : Nat) : Nat := match s.ctx p a with | some x => x.ctoff | none => 0
/-- A fault at an effect tick, with the tensor id (R336). A core whose launch has ended traps no more: the record goes to the event ring. -/
def State.effectFault (s : State) (k st : Nat) (e : TEffect) (tid : Nat) : State :=
  let c := s.core k
  let d : DueTrap := ⟨0, ⟨0x0C, 6 + st, 0, tid % 2 ^ 32⟩, 0, e.ipc, st, 0, e.itick⟩
  if c.asid = e.asid ∧ c.st.live then s.laterFault k e.at' d
  else s.appendEvent c.part e.asid ⟨k, d.info, some d, none⟩
/-- An effect on a bound tensor: a fault when its record does not allow it. -/
def tensorEffect (k st id op : Nat) (ok : Nat → RangeBind → VRec → Bool) (act : State → TEffect → Nat → RangeBind → State)
    (s : State) : Out :=
  match s.effect k st id with
  | none => .next s
  | some e =>
    if e.op ≠ op then .next s
    else
      let c := s.core k
      let s1 := s.dropEffect k st id
      match e.bind with
      | none => .next (s1.effectFault k st e 0)
      | some b =>
        if ok c.part b (s.recOf c.part b) then .next (act s1 e c.part b) else .next (s1.effectFault k st e b.tid)

/-- TBUMP_EFFECT (R328). -/
def execTbumpEffect (k st id : Nat) (s : State) : Out :=
  tensorEffect k st id 0 (fun p b r => r.opens b p) (fun s _ p b => s.openEpoch p b) s
/-- TCOMMIT_EFFECT (R333, R335): a count other than LIMIT ÷ 64 leaves the tensor TORN and faults. -/
def execTcommitEffect (k st id : Nat) (s : State) : Out :=
  let thaw := fun (s : State) (e : TEffect) (p : Nat) (b : RangeBind) =>
    s.freezeCount ((s.part p).pdie b.home) b.tid fun l => l.erase e.itick
  match s.effect k st id with
  | none => .next s
  | some e0 =>
    let c := s.core k
    let s0 := match e0.bind with | some b => thaw s e0 c.part b | none => s
    tensorEffect k st id 1 (fun p b r => r.isFor p b.tid b.asid && r.st == .opened)
      (fun s e p b =>
        let bad := decide ((s.recOf p b).cov ≠ b.limit / 64)
        let s1 := s.commitEpoch p b
        if bad then s1.effectFault k st e b.tid else s1) s0
/-- TDIG_EFFECT (R337): one line is read at each tick from this one on, and the result comes one tick for each line later. -/
def execTdigEffect (k st id : Nat) (s : State) : Out :=
  tensorEffect k st id 2 (fun p b r => r.isFor p b.tid b.asid && r.st == .closed && b.shard)
    (fun s e p b => s.modPart p fun q => { q with
      digests := q.digests ++ [⟨b, b.asid, e.at', e.at' + b.limit / 64, [], true, none⟩] }) s

/-- Records after generation g has been retired (R338). -/
def VRec.retire (r : VRec) (g : Nat) : VRec :=
  if r.st = .closed ∧ r.kgen = g then { r with st := .erased }
  else if r.st = .opened ∧ r.egen = g then { r with st := .torn } else r
/-- Rotate the generations of a partition's tenant (R338). Each lane takes the new one, and restarts at SEQ 0, at its next flit (R369). -/
def State.rotate (s : State) (p : Nat) : State :=
  let g := (s.part p).gen
  let s1 := s.modPart p fun q => { q with gen := g + 1 }
  (s1.vrecs.filter fun e => e.2.part == p && e.2.st != .invalid).foldl (fun s e =>
    if e.2.retire (g - 1) = e.2 then s else s.setVrec (s.part p) (e.1 / 2 ^ 18) e.2.tid (e.2.retire (g - 1))) s1
/-- KROT_EFFECT (R338): the KROTs of one tenant whose effects fall in one tick make one rotation. -/
def execKrotEffect (k st id : Nat) (s : State) : Out :=
  match s.effect k st id with
  | none => .next s
  | some e =>
    if e.op ≠ 3 then .next s
    else
      let p := (s.core k).part
      let q := s.part p
      let s1 := s.dropEffect k st id
      if q.rotated = some q.stime then .next s1
      else if q.gen = 0xFFFF then .next (s1.effectFault k st e 0)
      else .next ((s1.rotate p).modPart p fun q => { q with rotated := some q.stime })

end Sys2Proof.Machine
end

