-- ==== Sys2Proof/Machine/Seal.lean ====
section
/-! DEFINITION. SEAL, UNSEAL and SCRUB: R255 to R259. Their descriptor stands at key 2^20 of the beats of the copy. -/
namespace Sys2Proof.Machine

/-! ## Bytes for the ciphers (R257; FIPS 197 and SP 800-38D name the functions that Config leaves uninterpreted) -/

/-- A block from its bytes, the first the most significant. -/
def blockOf (bs : List Byte) : BitVec 128 := BitVec.ofNat 128 (bs.foldl (fun n b => n * 256 + b.toNat) 0)
/-- n bytes of key stream: counter block j is the IV and the 32-bit number j + 2. -/
def gcmStream (key : BitVec 256) (iv : List Byte) (n : Nat) : List Byte :=
  ((List.range ((n + 15) / 16)).flatMap fun j =>
    blockBytes (Config.aes256 key (blockOf (iv ++ (leBytes 4 (j + 2)).reverse)))).take n
def xorBytes (a b : List Byte) : List Byte := (a.zip b).map fun e => e.1 ^^^ e.2

/-! ## The descriptor (Table 10.12) -/

/-- The descriptor of a sealed operation, as a number. -/
def Copy.desc (y : Copy) : Nat := ((Tab.find y.got descKey).getD 0).toNat
def dSkind (x : Nat) : Nat := field x 7 0
def dSidx (x : Nat) : Nat := field x 15 8
def dDkind (x : Nat) : Nat := field x 23 16
def dDidx (x : Nat) : Nat := field x 31 24
def dLabel (x : Nat) : Nat := field x 63 32
def dSoff (x : Nat) : Nat := field x 127 64
def dDoff (x : Nat) : Nat := field x 191 128
def dLen (x : Nat) : Nat := field x 223 192
def dVis (x : Nat) : Nat := field x 255 224
def dSerial (x : Nat) : Nat := field x 319 256
def dStat (x : Nat) : Nat := field x 351 320

/-- Whether its fields are in their limits, `src` saying that the source fields count. -/
def descLimits (x : Nat) (src : Bool) : Bool :=
  field x 511 352 == 0 && decide (dDkind x ≤ 1) && (dDkind x == 0 || decide (dDidx x < 64)) && dDoff x % 64 == 0
  && (!src || (decide (dSkind x ≤ 1) && (dSkind x == 0 || decide (dSidx x < 64)) && dSoff x % 64 == 0))
  && dLen x % 64 == 0 && decide (64 ≤ dLen x) && decide (dLen x ≤ 2 ^ 24) && decide (1 ≤ dVis x) && dStat x % 8 == 0
/-- Output beats, and the ticks that the minimum VIS adds to m (Table 10.13). -/
def CopyKind.outBeats (kd : CopyKind) (l : Nat) : Nat := match kd with | .seal => l + 3 | _ => l
def CopyKind.extra (kd : CopyKind) (l : Nat) : Nat := match kd with | .seal => 64 | .unseal => l + 67 | _ => 0
/-- A sealed operation with the fields of its descriptor: both ends are one contiguous run. -/
def Copy.withDesc (y : Copy) (x : Nat) : Copy :=
  let l := dLen x / 64
  let put := fun (t : Tab Word) (n v : Nat) => Tab.set (copyReset n) t n (BitVec.ofNat 64 v)
  { y with
    fields := put (put (put (put (put (put (put [] 0x01 (2 * dSkind x)) 0x02 (dSoff x)) 0x03 (dSidx x)) 0x04 (2 * dDkind x))
      0x05 (dDoff x)) 0x06 (dDidx x)) 0x07 (64 * (l + 3))
    n := y.kind.outBeats l
    v := y.itick + dVis x }

/-- The failure of a descriptor, by cause and INFO, in the order of R256. -/
def State.descFault (s : State) (k : Nat) (c : Core) (st : Nat) (y : Copy) (x : Nat) : Option (Nat × Nat) :=
  let src := y.kind != .scrub
  if !descLimits x src then some (8, 2 ^ 32 - 1)
  else
    let z := y.withDesc x
    let tensor := (z.bind (c.stream st) true).filter fun _ => z.space true == 2
    let whole := y.kind == .scrub && tensor.any fun b => !b.station
    let dstFault := if whole then
        match tensor with
        | some b =>
          if dDoff x = 0 ∧ dLen x = b.limit ∧ (s.recOf c.part b).opens b c.part then none else some (0x0C, b.tid % 2 ^ 32)
        | none => none
      else s.endFault k c st z true z.n
    match (if src then s.endFault k c st z false z.reads else none) with
    | some e => some e
    | none =>
      match dstFault with
      | some e => some e
      | none =>
        if (spadAt k (dStat x) 8).isNone then some (4, dStat x)
        else
          let m := max (if src then endDist c st z false else 0) (endDist c st z true)
          if dVis x < m + y.kind.extra (dLen x / 64) then some (8, dVis x) else none

/-! ## Issue (R255, R256) -/

/-- Energy of the beats of a sealed operation (R241). -/
def sealEnergy (c : Core) (st : Nat) (z : Copy) : Nat :=
  z.n * max (if z.kind = .scrub then 0 else endEnergy c st z false) (endEnergy c st z true)
/-- What an operation takes from a descriptor whose fields are within their limits: its ends, its beats and its V. -/
def Copy.foresee (y : Copy) (x : Nat) : Copy := if descLimits x (y.kind != .scrub) then y.withDesc x else y
/-- SEAL, UNSEAL and SCRUB at issue: the queue and the release track, and R78 on x[a]. The track and the charge for all the beats go by the descriptor as it
stands at issue (R211, R241; log entry 18). -/
def sealOp (g : Guard) (kd : CopyKind) (a : Nat) (s : State) : Out :=
  let c := s.here
  if c.guardOn g then
    let k := s.cur.core
    let st := s.cur.slot - 6
    let t := s.now c
    let x := c.stream st
    let d := s.readX c a
    let y0 : Copy := { newCopy c st t kd 0 d 0 (t + 1) 12 with fields := [], n := 0, v := t + 4, unchecked := true }
    let here := d.toNat % 64 = 0 ∧ d.toNat + 64 ≤ 2 ^ 21
    let y := if here then y0.foresee (s.line (padKey k d.toNat)).toNat else y0
    let q := x.copies.filter fun z => z.queued t
    if 16 ≤ q.length ∨ (q.any fun z => z.clash y) then .next (s.trapHere 2 (6 + st))
    else if ¬here then .next (s.trapHere 4 d.toNat)
    else
      let x1 := { x.prune t with nextId := x.nextId + 1 }
      let c1 := ((c.charge (sealEnergy c st y)).next).setStream st { x1 with copies := x1.copies ++ [y] }
      .next (s.setHere { c1 with reqs := c1.reqs ++ [⟨c1.seq, 0, .desc st y.id, k, d.toNat, t, 0, 4, some t, 0, false⟩] })
  else .next s
/-- SEAL (R257). -/
def execSealCopy (g : Guard) (a : Nat) (s : State) : Out := sealOp g .seal a s
/-- UNSEAL (R258). -/
def execUnsealCopy (g : Guard) (a : Nat) (s : State) : Out := sealOp g .unseal a s
/-- SCRUB (R259). -/
def execScrubCopy (g : Guard) (a : Nat) (s : State) : Out := sealOp g .scrub a s

/-- Whether the inputs that output beat b needs are present: none for SCRUB and a header, one line for a ciphertext beat, all for the rest. -/
def Copy.sealReady (y : Copy) (b : Nat) : Bool :=
  match y.kind with
  | .scrub => true
  | .seal => if b < 2 then true else if b < y.n - 1 then y.present.contains (b - 2) else (List.range y.reads).all y.present.contains
  | _ => (List.range y.reads).all y.present.contains
/-- Whether output beat b is where it is released, or the status word can be written when b is their count: an output that crosses dies has crossed. -/
def Copy.outReady (y : Copy) (b : Nat) : Bool := y.sealReady b && (b == y.n || !y.far || y.present.contains (outBeat + b))
/-- Whether outputs of a sealed operation of core k lie on another die. -/
def Copy.farTo (y : Copy) (s : State) (k : Nat) (b : Option RangeBind) (c : Core) : Bool :=
  y.space true == 2 && b.any fun r => if r.hashed then decide (1 < (s.part c.part).dies.length) else (s.part c.part).pdie r.home != coreDie k
/-- The outputs of a sealed operation that are ready now and were not before start on their way to another die; `first` says that nothing was before. -/
def State.startOutputs (s : State) (k st : Nat) (old new : Copy) (first : Bool) : State :=
  if new.far then
    ((List.range new.n).filter fun b => new.sealReady b && (first || !old.sealReady b)).foldl (fun s b =>
      s.later (beatCode k st new.id (outBeat + b) 0) (.beatPresent k st new.id (outBeat + b))) s
  else s
/-- SEAL_DESCRIPTOR_CHECK (R256): at t + 4; a descriptor that passes gives the operation its ends, beats and V, and asks the banks for its source. One that was
written since issue corrects the charge. -/
def execSealDescriptorCheck (k st id : Nat) (s : State) : Out :=
  let c := s.core k
  match c.copy st id with
  | none => .next s
  | some y =>
    if !y.kind.sealed || !y.unchecked then .next s
    else
      let line := (Tab.find y.got descKey).getD (s.line (padKey k y.param.toNat))
      let y1 := { y with got := Tab.put y.got descKey line }
      let s1 := (s.modCopy k st id fun _ => y1).modCore k fun c => { c with reqs := c.reqs.filter fun r => !(r.kind == .desc st id) }
      match s.descFault k c st y1 line.toNat with
      | some e => .next (s1.copyFaultAt k st id 0 e.1 e.2 (s.now c) false)
      | none =>
        let z0 := { y1.withDesc line.toNat with unchecked := false }
        let z := { z0 with far := z0.farTo s k (z0.bind (c.stream st) true) c }
        let src := y.kind != .scrub
        let m := max (if src then endDist c st z false else 0) (endDist c st z true)
        let sr := (z.bind (c.stream st) false).map (s.recOf c.part)
        let dr := (z.bind (c.stream st) true).map (s.recOf c.part)
        let z1 := { z with
          m := m
          sver := (sr.map (·.ver)).getD 0
          sgen := (sr.map (·.kgen)).getD 0
          dver := (dr.map (·.ever)).getD 0
          dgen := (dr.map (·.egen)).getD 0 }
        let paid := sealEnergy c st y
        .next (((s1.modCopy k st id fun _ => z1).modCore k fun c =>
          { c with
            ecnt := if paid ≤ sealEnergy c st z1 then addEnergy c.ecnt (sealEnergy c st z1 - paid) else c.ecnt - (paid - sealEnergy c st z1)
            reqs := c.reqs ++ copyReqs k st (s.now c) z1 (List.range z1.reads) }).startOutputs k st { z1 with present := [] } z1 true)

/-! ## Contents (R257, R258) -/

/-- The measurement of the kernel that a core runs, and the sealing key of its context. -/
def State.measOf (s : State) (c : Core) : Digest := match s.launch c.part c.launch with | some l => l.meas | none => 0
def State.sealKeyOf (s : State) (c : Core) : BitVec 256 := match s.ctx c.part c.asid with | some x => x.sealKey | none => 0
/-- The cipher key under a measurement and a label. -/
def cipherKey (sk : BitVec 256) (m : Digest) (label : Nat) : BitVec 256 :=
  Config.hkdf (leBytes 32 sk.toNat) (leBytes 48 m.toNat) (ascii "TL8800-seal" ++ leBytes 4 label)
/-- The header of a checkpoint. -/
def sealHeader (len label serial : Nat) (m : Digest) : List Byte :=
  leBytes 4 0x4C414553 ++ leBytes 2 1 ++ leBytes 2 0 ++ leBytes 4 len ++ leBytes 4 label ++ leBytes 8 serial
    ++ leBytes 48 m.toNat ++ List.replicate 56 0
/-- The bytes of the input beats 0 to n − 1. -/
def Copy.input (y : Copy) (n : Nat) : List Byte := (List.range n).flatMap fun i => leBytes 64 ((Tab.find y.got i).getD 0).toNat
/-- Beat b of a string of bytes. -/
def beatOf (bs : List Byte) (b : Nat) : Beat := BitVec.ofNat 512 (leNat ((bs.drop (64 * b)).take 64))
/-- The sealed checkpoint of SEAL. -/
def State.sealed (s : State) (c : Core) (y : Copy) : List Byte :=
  let x := y.desc
  let h := sealHeader (dLen x) (dLabel x) (dSerial x) (s.measOf c)
  let iv := leBytes 8 (dSerial x) ++ leBytes 4 (dLabel x)
  let key := cipherKey (s.sealKeyOf c) (s.measOf c) (dLabel x)
  let ct := xorBytes (y.input (dLen x / 64)) (gcmStream key iv (dLen x))
  h ++ ct ++ blockBytes (Config.gcmTag key iv h ct) ++ List.replicate 48 0
/-- The status word of UNSEAL: MAGIC, version and LEN, then LABEL and M, then the tag. -/
def State.verdict (s : State) (c : Core) (y : Copy) : Nat :=
  let x := y.desc
  let bs := y.input (dLen x / 64 + 3)
  let h := bs.take 128
  let num := fun o n => leNat ((h.drop o).take n)
  let ct := (bs.drop 128).take (dLen x)
  let iv := leBytes 8 (num 16 8) ++ leBytes 4 (num 12 4)
  let key := cipherKey (s.sealKeyOf c) (s.measOf c) (num 12 4)
  if num 0 4 ≠ 0x4C414553 ∨ num 4 2 ≠ 1 ∨ num 8 4 ≠ dLen x then 4
  else if num 12 4 ≠ dLabel x ∨ num 24 48 ≠ (s.measOf c).toNat then 3
  else if blockBytes (Config.gcmTag key iv h ct) ≠ (bs.drop (128 + dLen x)).take 16 then 2 else 1
/-- The plaintext of UNSEAL. -/
def State.unsealed (s : State) (c : Core) (y : Copy) : List Byte :=
  let x := y.desc
  let bs := y.input (dLen x / 64 + 3)
  let iv := (bs.drop 16).take 8 ++ (bs.drop 12).take 4
  xorBytes ((bs.drop 128).take (dLen x)) (gcmStream (cipherKey (s.sealKeyOf c) (s.measOf c) (dLabel x)) iv (dLen x))

/-- Output beat b, as it crosses to another die. -/
def State.outputOf (s : State) (c : Core) (y : Copy) (b : Nat) : Beat :=
  match y.kind with
  | .seal => beatOf (s.sealed c y) b
  | .unseal => beatOf (s.unsealed c y) b
  | .scrub => 0
  | _ => (Tab.find y.got b).getD 0

/-- Release output beat b, or the status word when b is their count (R256 to R259). -/
def State.releaseSealed (s : State) (k st : Nat) (y : Copy) (b : Nat) : State :=
  let c := s.core k
  let code := match y.kind with | .unseal => y.status.getD (s.verdict c y) | _ => 1
  if b = y.n then
    match (if c.gone then none else spadAt k (dStat y.desc) 8) with
    | some w => s.writeRaced k (padKey w.1 w.2) (leBytes 8 code)
    | none => s
  else
    match y.kind with
    | .seal => s.writeDest k st y b (beatOf (s.sealed c y) b)
    | .unseal =>
      let s1 := s.modCopy k st y.id fun z => { z with status := some code }
      if code = 1 then s1.writeDest k st y b (beatOf (s.unsealed c y) b) else s1
    | _ =>
      match (y.bind (c.stream st) true).filter fun r => y.space true == 2 && !r.station with
      | none => s.writeDest k st y b 0
      | some r =>
        let s1 := if b = 0 then s.openEpoch c.part r else s
        let x := s1.recOf c.part r
        let s2 := if b = 0 then s1.modCopy k st y.id fun z => { z with dver := x.ever, dgen := x.egen } else s1
        let y2 := if b = 0 then { y with dver := x.ever, dgen := x.egen } else y
        let s3 := s2.writeDest k st y2 b 0
        if b + 1 = y.n then s3.commitEpoch c.part r else s3

end Sys2Proof.Machine
end

