-- ==== Sys2Proof/Machine/Wire.lean ====
section
/-! DEFINITION. What a package puts on its links: the circuits that carry beats between dies (R375), the lanes and their keys (R368 to R370), and
the ports, which serve their circuits in rounds (R379). -/
namespace Sys2Proof.Machine

/-! ## Circuits and ports as they stand -/

def State.circuit (s : State) (e : Nat) : Circuit := (Tab.find s.circuits e).getD Circuit.reset
def State.modCircuit (s : State) (e : Nat) (f : Circuit → Circuit) : State :=
  { s with circuits := Tab.put s.circuits e (f (s.circuit e)) }
/-- Whether a circuit touches a die, and a port. -/
def Circuit.onDie (c : Circuit) (d : Nat) : Bool := c.src == d || (!c.toPort && c.dst == d)
def Circuit.onPort (c : Circuit) (n : Nat) : Bool := c.toPort && c.dst == n
def State.port (s : State) (n : Nat) : LinkSt := (Tab.find s.ports n).getD .down
def State.setPort (s : State) (n : Nat) (x : LinkSt) : State := { s with ports := Tab.set .down s.ports n x }
/-- Whether a circuit carries flits. -/
def Circuit.lit (c : Circuit) : Bool := c.st == .up || c.st == .degraded

/-! ## Flits and their seals (R367 to R370) -/

/-- The fields of a flit before its data: what the tag covers besides the data. -/
def flitHeader (f : Flit) : List Byte :=
  leBytes 1 f.kind ++ leBytes 1 f.lane ++ leBytes 1 f.space ++ leBytes 1 f.rsv ++ leBytes 4 f.sel ++ leBytes 8 f.seq ++ leBytes 8 f.off
    ++ leBytes 8 f.tick
/-- The partition and the peer index of a lane. -/
def flitPart (f : Flit) : Nat := f.lane / 32 % 8
def flitPeer (f : Flit) : Nat := f.lane % 32
/-- The circuit that a flit arrives on, if it is one. -/
def flitCircuit (f : Flit) : Option Nat :=
  if 16 ≤ f.link ∧ f.link < 272 then some (f.link - 16) else if 1024 ≤ f.link ∧ f.link < 1280 then some (f.link - 1024) else none
/-- IV of a flit under generation g (R370). -/
def flitIv (f : Flit) (g : Nat) : List Byte := (leBytes 12 (f.lane % 256 * 2 ^ 88 + g % 65536 * 2 ^ 64 + f.seq % 2 ^ 64)).reverse
/-- Key of an in-package lane of circuit e under generation g, towards its DST or its SRC (R369). -/
def State.linkKey (s : State) (q : Part) (e g : Nat) (toDst : Bool) : BitVec 256 :=
  let c := s.circuit e
  let far := if c.toPort then c.dst + 8 else c.dst
  Config.hkdf (leBytes 32 q.secret.toNat) [] (ascii "TL8800-link" ++ leBytes 2 g ++ leBytes 1 (if toDst then c.src else far)
    ++ leBytes 1 (if toDst then far else c.src) ++ leBytes 1 e ++ leBytes 4 c.setups)
/-- A flit sealed under a key and a generation, with its data and tag. -/
def sealFlit (f : Flit) (key : BitVec 256) (g : Nat) (v : Beat) : Flit :=
  let d := BitVec.ofNat 512 (leNat (xorBytes (leBytes 64 v.toNat) (gcmStream key (flitIv f g) 64)))
  { f with
    data := d
    tag := BitVec.ofNat 64 (leNat ((blockBytes (Config.gcmTag key (flitIv f g) (flitHeader f) (leBytes 64 d.toNat))).take 8)) }
/-- Put a data flit on a lane under generation g: it takes the lane's next SEQ, which restarts at 0 under a new generation (R369). -/
def State.putFlit (s : State) (f : Flit) (key : BitVec 256) (g : Nat) (v : Beat) : State :=
  let at' := 256 * f.link + f.lane
  let n := match Tab.find s.seqs at' with | some e => if e.2 = g then e.1 else 0 | none => 0
  { s with
    seqs := Tab.put s.seqs at' (n + 1, g)
    wire := Tab.put s.wire at' (sealFlit { f with seq := n } key g v) }

/-- The flit put last on a lane crosses the attach of die a as well. -/
def State.overAttach (s : State) (a : Nat) (f : Flit) : State :=
  match Tab.find s.wire (256 * f.link + f.lane) with
  | some g => { s with wire := Tab.put s.wire (256 * a + f.lane) { g with link := a } }
  | none => s

/-! ## Beats between dies (R375) -/

/-- The circuits that carry beats of partition p between two dies, by increasing entry: none while an attach of them is not ACTIVE (R372), or while the function is
reset (R384). -/
def State.pathsOf (s : State) (p a b : Nat) : List Nat :=
  if (s.die a).attach = .active ∧ (s.die b).attach = .active ∧ !(s.part p).resetting then
    (s.circuits.filter fun e => e.2.part == p && e.2.lit && !e.2.toPort && ((e.2.src == a && e.2.dst == b) || (e.2.src == b && e.2.dst == a))).map (·.1)
  else []
/-- Carry a beat from die a to die b of partition p: by the circuits of the pair in turn. The flit goes as it is over the attach of the die that it leaves (R366, R367). -/
def State.carry (s : State) (p a b kind space sel off tick : Nat) (v : Beat) : State :=
  let es := s.pathsOf p a b
  let q := s.part p
  let key := 8 * min a b + max a b
  let n := Tab.get 0 q.turns key
  match es[n % es.length]? with
  | none => s
  | some e =>
    let toDst := (s.circuit e).dst == b
    let f : Flit := ⟨if toDst then 16 + e else 1024 + e, kind, 32 * p, space, 0, sel, 0, off, tick, 0, 0⟩
    ((s.putFlit f (s.linkKey q e q.gen toDst) q.gen v).overAttach a f).modPart p fun q => { q with turns := Tab.set 0 q.turns key (n + 1) }
/-- The physical die of an end of beat b of a copy of core k, where it is memory of this package. -/
def State.endDie (s : State) (k : Nat) (c : Core) (st : Nat) (y : Copy) (dst : Bool) (b : Nat) : Option Nat :=
  let q := s.part c.part
  if y.kind = .send ∧ dst then some (q.pdie (y.param.toNat / 256 % 8))
  else
    match y.space dst with
    | 1 => some (q.pdie (y.sel dst / 256 % 8))
    | 2 => (s.memPlace c st y dst b).map fun pl => q.pdie pl.d
    | 3 => (s.memPlace c st y dst b).map fun pl => q.pdie pl.d
    | 5 => none
    | _ => some (coreDie k)
/-- The pairs of dies that beat b crosses once it is read: from its source to the issuing die, and from there to its destination where that is known. The outputs of a
sealed operation, and a beat whose VIRT destination is looked up later, cross to theirs when they are ready (`State.crossOut`). -/
def State.hops (s : State) (k : Nat) (c : Core) (st : Nat) (y : Copy) (b : Nat) : List (Nat × Nat) :=
  let here := coreDie k
  (match s.endDie k c st y false b with | some d => if y.kind.uses false && d != here then [(d, here)] else [] | none => [])
  ++ (match s.endDie k c st y true b with | some d => if !y.kind.sealed && d != here then [(here, d)] else [] | none => [])
/-- KIND, SPACE, SEL, OFF and TICK of the flit of beat b at its receiver (Table 18.2). A message beat is one of KIND 2, for the core and the channel that x[a] names, at its
offset in the message, with the message's arrival for its tick: the table says no more of it (log entry 32). -/
def State.flitFields (s : State) (c : Core) (y : Copy) (b : Nat) : Nat × Nat × Nat × Nat × Nat :=
  if y.kind = .send then (2, 1, y.param.toNat % 2 ^ 20, 64 * b, y.v + s.ctoff c)
  else (1, y.space true, y.sel true % 2 ^ 32, y.offset true b, y.v + b + s.ctoff c)
/-- Send beat b over some pairs of dies; none while one of them has no circuit: it waits in wall time (R375). -/
def State.crossBy (s : State) (c : Core) (y : Copy) (b : Nat) (hs : List (Nat × Nat)) (v : Beat) : Option State :=
  if hs.any fun h => (s.pathsOf c.part h.1 h.2).isEmpty then none
  else
    let f := s.flitFields c y b
    some (hs.foldl (fun s h => s.carry c.part h.1 h.2 f.1 f.2.1 f.2.2.1 f.2.2.2.1 f.2.2.2.2 v) s)
/-- Beat b crosses the dies on its way once it is read. -/
def State.cross (s : State) (k : Nat) (c : Core) (st : Nat) (y : Copy) (b : Nat) : Option State :=
  s.crossBy c y b (s.hops k c st y b) ((Tab.find y.got b).getD 0)
/-- Output beat b crosses to the die of its destination. -/
def State.crossOut (s : State) (k : Nat) (c : Core) (st : Nat) (y : Copy) (b : Nat) : Option State :=
  s.crossBy c y b (match s.endDie k c st y true b with | some d => if d != coreDie k then [(coreDie k, d)] else [] | none => []) (s.outputOf c y b)
/-- The entries that a walk reads on other dies cross to the die of its core: each as the 64 bytes around it, with its offset (R352); none while a pair of dies has no circuit. -/
def State.crossWalk (s : State) (k va tick : Nat) : Option State :=
  let c := s.core k
  let q := s.part c.part
  let es := (s.walkPath q c.asid va).filter fun e => q.pdie e.1 != coreDie k
  if es.any fun e => (s.pathsOf c.part (q.pdie e.1) (coreDie k)).isEmpty then none
  else some (es.foldl (fun s e => s.carry c.part (q.pdie e.1) (coreDie k) 1 3 0 (e.2 / 64 * 64) tick (s.line (stationKey (q.pdie e.1) (e.2 / 64 * 64)))) s)

/-! ## Ports (R379) -/

/-- The circuit by which a beat of a die of partition p goes to a port: one of its own die first, else the lowest of a die that circuits of the partition join to it. The
attach of the circuit's die is ACTIVE (R372). -/
def State.portCircuit (s : State) (p die n : Nat) : Option Nat :=
  if (s.part p).resetting then none
  else
    let es := s.circuits.filter fun e => e.2.part == p && e.2.lit && e.2.onPort n && (s.die e.2.src).attach == .active
    match es.find? fun e => e.2.src == die with
    | some e => some e.1
    | none => (es.find? fun e => !(s.pathsOf p die e.2.src).isEmpty).map (·.1)
/-- The wall deadline of beat b of a copy to a peer: d ticks after its issue at the rate of then (R27). -/
def Copy.deadline (y : Copy) (b : Nat) : Nat :=
  match y.wall with | some w => w.1 + ((y.v + b - y.itick) * 16 + w.2 - 1) / w.2 | none => 0
/-- A beat for a peer waits at the port of its association, on the die of the circuit that it takes; none while no circuit leads there. -/
def State.queueOut (s : State) (k : Nat) (c : Core) (st : Nat) (y : Copy) (b : Nat) : Option State :=
  (s.portCircuit c.part (coreDie k) (s.peer c.part (y.sel true)).port).map fun e =>
    let f := s.flitFields c y b
    let v := (Tab.find y.got b).getD 0
    let d := (s.circuit e).src
    let s1 := if d = coreDie k then s else s.carry c.part (coreDie k) d f.1 f.2.1 f.2.2.1 f.2.2.2.1 f.2.2.2.2 v
    { s1 with outq := s1.outq ++ [⟨e, c.part, y.sel true, k, st, y.id, b, y.offset true b, y.deadline b, v⟩] }
/-- A beat that is not sent, since its association has left OPEN, is refused (R381, R383). -/
def State.refuseOut (s : State) (o : OutBeat) : State :=
  s.copyFaultAt o.core o.st o.id o.b 0x0C (s.peer o.part o.peer).rtid (s.tick o.core) false
/-- The key under which this package sends to a peer. -/
def Peer.sendKey (y : Peer) : Option (BitVec 256) := y.keys.map fun ks => if y.responder then ks.2 else ks.1
/-- Put a flit of a kind on the lane to a peer; nothing where its keys are gone. -/
def State.putPeer (s : State) (p i kind sel off tick : Nat) (v : Beat) : State :=
  let y := s.peer p i
  match y.sendKey with
  | some key => s.putFlit ⟨512 + y.port, kind, 32 * p + i, 5, 0, sel, 0, off, tick, 0, 0⟩ key (s.part p).gen v
  | none => s
/-- Send a waiting beat in a slot of its port, sealed under the key of its peer lane. -/
def State.sendOut (s : State) (o : OutBeat) : State :=
  let s1 := { s with outq := s.outq.erase o }
  let y := s.peer o.part o.peer
  if y.st = 3 ∧ y.sendKey.isSome then s1.putPeer o.part o.peer 1 y.rtid o.off o.tick o.data else s1.refuseOut o
/-- The circuit that carries a waiting beat: the one that it was given while that is lit, else another of its partition to the port (R377). -/
def State.outCircuit (s : State) (o : OutBeat) : Option Nat :=
  let c := s.circuit o.circuit
  let n := (s.peer o.part o.peer).port
  if c.lit && c.part == o.part && c.onPort n then some o.circuit else s.portCircuit o.part (coreDie o.core) n
/-- The beat that circuit e sends next: of the lowest peer index, the one that came first. -/
def State.nextOut (s : State) (e : Nat) : Option OutBeat :=
  (s.outq.filter fun o => s.outCircuit o == some e).foldl (fun best o =>
    match best with | none => some o | some a => if o.peer < a.peer then some o else some a) none
/-- Whether a slot of a port begins in wall tick w: one takes 2.6 wall ticks. -/
def slotBegins (w : Nat) : Bool := decide ((5 * w + 12) / 13 < (5 * (w + 1) + 12) / 13)
/-- One slot of port n: its round holds a slot for each wavelength of its circuits, by entry and then wavelength; a slot whose circuit has nothing waiting
passes to the next circuit that has. -/
def State.servePort (s : State) (n : Nat) : State :=
  let slots := (s.circuits.filter fun e => e.2.lit && e.2.onPort n && (s.die e.2.src).attach == .active).flatMap fun e => List.replicate e.2.nwl e.1
  if s.port n = .up ∧ slots ≠ [] then
    let r := Tab.get 0 s.rounds n % slots.length
    let s1 := { s with rounds := Tab.set 0 s.rounds n (r + 1) }
    match (slots.drop r ++ slots.take r).findSome? s.nextOut with
    | some o => s1.sendOut o
    | none => s1
  else s
/-- The ports in one wall tick. -/
def State.servePorts (s : State) : State :=
  if s.outq.isEmpty || !slotBegins s.wtime then s else (List.range 16).foldl State.servePort s

/-! ## Beats from a peer before they arrive (R226, R320) -/

/-- The schedule tick of a partition that wall tick w is converted to, at its present step (R27): the first that does not fall before w. That it is rounded up, and counted from
the tick of the present step's start, is the model's choice (DESIGN CHOICE, log entry 41). -/
def Part.tickAt (q : Part) (w : Nat) : Nat := q.t0 + ((w - q.w0) * q.rate + 15) / 16
/-- Tag of the hold for a flit that is late. -/
def flitTag (f : Flit) : Nat := ((2 ^ 52 + f.link * 256 + f.lane) * 2 ^ 64 + f.seq) * 4096 + 4095
/-- A refusal returns on the lane of a peer as a control flit, which names the beat by its tensor, its offset and its deadline (R381; log entry 32). -/
def State.refusePeer (s : State) (p i sel off tick : Nat) : State := s.putPeer p i 3 sel off tick 0
/-- Whether an input is a beat of a peer for an open association of partition p that is found missing at this tick: its release tick is at most 192 ticks ahead. -/
def State.lateInput (s : State) (p : Nat) (q : Part) : Instr → Bool
  | .flitReceive f => f.kind == 1 && flitPart f == p && flitPeer f != 0 && f.lane != 255 && (s.peer p (flitPeer f)).st == 3
      && !(q.awaited.any fun a => a.1 == flitTag f) && decide (q.tickAt f.tick ≤ q.stime + Config.holdLead)
  | _ => false
/-- A beat of a peer that has not arrived 192 ticks before its release tick is late: it counts once, its deadline is converted for good (R27), and the receiving partition
holds from that tick until it is present (R226). What the sender has sent is among the inputs to come. -/
def State.holdForPeer (s : State) (p i : Nat) : State :=
  match s.inputs[i]? with
  | some (_, .flitReceive f) =>
    let q := s.part p
    if s.lateInput p q (.flitReceive f) then
      ((s.raiseHoldAt p 1 (flitTag f) (q.tickAt f.tick)).modPart p fun q => { q with awaited := (flitTag f, q.tickAt f.tick) :: q.awaited }).modCtx p
        (s.peer p (flitPeer f)).asid fun x => { x with lateEvents := x.lateEvents + 1 }
    else s
  | _ => s
/-- Beats of a peer that were awaited and come no more: their holds clear. -/
def State.unawait (s : State) (p : Nat) (gone : Nat → Bool) : State :=
  (((s.part p).awaited.filter fun a => gone a.1).foldl (fun s a => s.clearHold p 1 a.1) s).modPart p fun q => { q with awaited := q.awaited.filter fun a => !gone a.1 }

end Sys2Proof.Machine
end

