-- ==== Sys2Proof/Machine/Copy.lean ====
section
/-! DEFINITION. The copy slots and the events of copies: R207 to R221, R225 to R228, R350, R351. -/
namespace Sys2Proof.Machine

/-! ## Programs (R209) -/

/-- CPROG: the field takes x[a], read at issue; copies of later bundles take it. -/
def execCprog (g : Guard) (p a f : Nat) (s : State) : Out :=
  slotOp g 1 (fun s c => c.setStream (s.cur.slot - 6) ((c.stream (s.cur.slot - 6)).setField p f (s.readX c a))) s
/-- CPROGI: the field takes IMM11, sign extended. -/
def execCprogi (g : Guard) (p f i : Nat) (s : State) : Out :=
  slotOp g 1 (fun s c => c.setStream (s.cur.slot - 6) ((c.stream (s.cur.slot - 6)).setField p f (sext 11 i))) s

/-! ## Copies (R210, R216, R218, R219) -/

/-- Energy of a beat of a two-ended copy: its costlier end (R241). -/
def copyEnergy (c : Core) (st : Nat) (y : Copy) : Nat := max (endEnergy c st y false) (endEnergy c st y true)
/-- CPY: V = t + TIME. -/
def execCpy (g : Guard) (p a time : Nat) (s : State) : Out :=
  copyOp g (fun s c st t => (newCopy c st t .timed p (s.readX c a) (t + time) (t + 1) 12, true)) copyEnergy s
/-- A tick operand of CPYT: none for x0, an absolute tick or an offset from t. -/
def tickOperand (s : State) (c : Core) (t r : Nat) (abs : Bool) : Option Nat :=
  if r = 0 then none else some (if abs then (s.readX c r).toNat else t + (s.readX c r).toNat)
/-- CPYT: V and N from registers; a copy without V has no named distance. -/
def execCpyt (g : Guard) (p a v n : Nat) (vabs nabs : Bool) (s : State) : Out :=
  copyOp g (fun s c st t =>
    let vv := tickOperand s c t v vabs
    (newCopy c st t .timed p (s.readX c a) (vv.getD 0) (max (t + 1) ((tickOperand s c t n nabs).getD 0)) 12, vv.isSome)) copyEnergy s
/-- CPL: by beat schedule from max(t + 1, t + TIME). -/
def execCpl (g : Guard) (p a time : Nat) (s : State) : Out :=
  copyOp g (fun s c st t => (newCopy c st t .cpl p (s.readX c a) 0 (max (t + 1) (t + time)) 12, true)) (fun _ _ _ => 8) s
/-- The receiver that x[a] of SEND names: die index, and the core of that die. -/
def sendDie (w : Nat) : Nat := w / 256 % 8
/-- Energy of a message beat by where its receiver lies (Table 10.7). -/
def sendEnergy (k : Nat) (c : Core) (w : Nat) : Nat :=
  if sendDie w ≠ c.die then 64 else if clusterOf (w % 256) = clusterOf k then 8 else 24
/-- SEND: sent at t + max(1, TIME), with the route distance of R218. -/
def execSend (g : Guard) (p a time : Nat) (s : State) : Out :=
  copyOp g (fun s c st t =>
      let w := s.readX c a
      (newCopy c st t .send p w 0 (t + max 1 time) (if sendDie w.toNat = c.die then 256 else 512), true))
    (fun c _ y => sendEnergy s.cur.core c y.param.toNat) s
/-- RECV: received at t + max(1, TIME). -/
def execRecv (g : Guard) (p a time : Nat) (s : State) : Out :=
  copyOp g (fun s c st t => (newCopy c st t .recv p (s.readX c a) (t + max 1 time) (t + max 1 time) 12, true)) (fun _ _ _ => 8) s

/-- XMARK (R217): later copies of the stream read after every store and atomic issued before this tick has performed. -/
def execXmark (g : Guard) (s : State) : Out :=
  slotOp g 1 (fun s c =>
    let t := s.now c
    let st := s.cur.slot - 6
    let wait := c.reqs.any fun r => r.inSt && decide (r.t < t)
    c.setStream st { c.stream st with xmark := some ⟨if wait then none else some t, max t c.iss.stHat, t⟩ }) s

/-- What the performing of a store or atomic at tick p settles (R217): marks, and the starts of copies that wait for them, once no store
that they count is left. -/
def Core.settleMarks (c : Core) (k p : Nat) : Core :=
  (List.range 2).foldl (fun c st =>
    let x := c.stream st
    let open' := fun (m : Nat) => c.reqs.any fun r => r.inSt && decide (r.t < m)
    let start := fun (y : Copy) =>
      if y.r0.isNone && !open' y.mark then
        let r := max y.r0min (p + 1)
        { y with r0 := some r, v := match y.kind with | .cpl => r + 12 | .send => r + y.m | _ => y.v }
      else y
    let x1 := { x with
      xmark := x.xmark.map fun m => if m.m.isNone && !open' m.at' then { m with m := some p } else m
      copies := x.copies.map start }
    let new := (x.copies.filter fun y => y.r0.isNone).flatMap fun y => copyReqs k st p (start y) (List.range y.reads)
    { c.setStream st x1 with reqs := c.reqs ++ new }) c

/-! ## Reading events -/

/-- BEAT_SOURCE_READ (R213, R224). -/
def execBeatSourceRead (k st id b : Nat) (s : State) : Out := .next (s.readBeat k st id b)
/-- INDEX_ENTRY_READ (R207). -/
def execIndexEntryRead (k st id n : Nat) (s : State) : Out := .next (s.readIndex k st id n)
/-- CPL_SOURCE_READ (R216): the beat's destination write is due twelve ticks on. -/
def execCplSourceRead (k st id b : Nat) (s : State) : Out := .next (s.readBeat k st id b)
/-- SEND_BEAT_READ (R218). -/
def execSendBeatRead (k st id b : Nat) (s : State) : Out := .next (s.readBeat k st id b)
/-- CPL_DEST_WRITE (R216): the bank write of a beat that has been read. -/
def execCplDestWrite (k st id b : Nat) (s : State) : Out :=
  match (s.core k).copy st id with
  | some y =>
    match (if y.kind = .cpl then Tab.find y.got b else none) with
    | some v =>
      let s1 := s.writeDest k st y b v
      .next (s1.modCore k fun c => { c with reqs := c.reqs.filter fun r => !(r.kind == .cpl st id b v) })
    | none => .next s
  | none => .next s

/-! ## Messages (R218 to R220) -/

/-- The message that a RECV at tick r takes from channel ch: the greatest send tick among those arrived by r. -/
def selectMsg (ms : List Msg) (ch r : Nat) : Option Msg :=
  (ms.filter fun m => m.chan == ch && decide (m.s + m.ms ≤ r)).foldl (fun best m =>
    match best with | none => some m | some b => if b.s < m.s then some m else some b) none
/-- Send ticks of the messages for channel ch of core j that are on their way to its binding (R218, R220). -/
def State.underWay (s : State) (j ch : Nat) : List Nat :=
  let r := s.core j
  s.cores.flatMap fun e =>
    let q := s.part e.2.part
    ((e.2.ca.copies ++ e.2.cb.copies).filter fun y =>
      let w := y.param.toNat
      y.kind == .send && y.stop.isNone && y.r0.isSome && decide (sendDie w < q.dies.length) && q.pdie (sendDie w) * 256 + w % 256 == j
      && e.2.part == r.part && e.2.asid == r.asid && w / 2 ^ 16 % 16 == ch && decide (r.bindAt ≤ y.v - y.m)).map fun y => y.v - y.m
/-- Whether the send ticks of a channel break the limits of R220, or the message selected shares its own. What a channel is sent after a RECV has released
a beat cannot reach back to that beat (DEDUCED, log entry 46). -/
def channelRaces (c : List Nat) (m : Option Msg) : Bool :=
  (c.any fun a => decide (4 < (c.filter fun b => decide (a ≤ b) && decide (b < a + 512)).length))
  || (m.any fun a => decide (1 < (c.filter fun b => b == a.s).length))
/-- Whether the messages of a RECV's channel, those on their way among them, break the limits of R220. -/
def Core.channelBroken (c : Core) (y : Copy) (far : List Nat) : Bool :=
  channelRaces (((c.mail.filter fun x => x.chan == y.param.toNat % 16).map (·.s)) ++ far) none
/-- The beats of a RECV at its tick (R219), with the send ticks of the messages still on their way to its channel; unconstrained where R220 is broken. -/
def recvBeats (k st : Nat) (c : Core) (y : Copy) (far : List Nat) : Tab Beat :=
  let ch := y.param.toNat % 16
  let m := selectMsg c.mail ch y.v
  if channelRaces (((c.mail.filter fun x => x.chan == ch).map (·.s)) ++ far) m then
    (List.range y.n).map fun b => (b, BitVec.ofNat 512 (Config.free k (2 ^ 113 + beatCode k st y.id b 5)))
  else (List.range y.n).map fun b => (b, (m.bind fun x => x.beats[b]?).getD 0)

/-- MESSAGE_ARRIVAL (R218, R219): the message stands in the mailbox of its receiver, or is discarded when no core of the context is
bound there, or was not yet when it was sent. -/
def execMessageArrival (k st id : Nat) (s : State) : Out :=
  let c := s.core k
  match c.copy st id with
  | none => .next s
  | some y =>
    if y.kind ≠ .send ∨ y.stop.isSome then .next s
    else
      let q := s.part c.part
      let w := y.param.toNat
      let j := q.pdie (sendDie w) * 256 + w % 256
      let r := s.core j
      let msg : Msg := ⟨w / 2 ^ 16 % 16, y.v - y.m, y.m, (List.range y.n).map fun b => (Tab.find y.got b).getD 0⟩
      let s1 := s.modCopy k st id fun z => { z with stop := some 0 }
      if sendDie w < q.dies.length ∧ r.part = c.part ∧ r.asid = c.asid ∧ r.st.bound' ∧ r.bindAt ≤ msg.s then
        .next (s1.setCore j { s1.core j with mail := (s1.core j).mail ++ [msg] })
      else .next s1

/-! ## Release (R212, R214, R228) -/

/-- Release a beat of a peer package's copy at its tick (R212, R320, R381): it writes the tensor while that is open, else it is refused. -/
def State.releaseInbound (s : State) (p id : Nat) : State :=
  let q := s.part p
  match q.inbound.find? fun e => e.id == id with
  | none => s
  | some e =>
    let s1 := s.modPart p fun q => { q with inbound := q.inbound.filter fun z => !(z.id == id) }
    let pe := s.peer p e.peer
    let refuse := s1.refusePeer p e.peer e.tid e.off e.wall
    match (s1.pinTensor p pe.asid e.tid).2 with
    | none => refuse
    | some b =>
      let r := s.recOf p b
      if r.takes b p e.ever (q.stime - (match s.ctx p pe.asid with | some x => x.ctoff | none => 0)) && decide (e.off + 64 ≤ b.limit) then
        match s.tensorPlace p b e.off with
        | none => refuse
        | some pl =>
          match s1.writePlace (4096 + (32 * p + e.peer) * 2048 + e.src % 2048) p pe.asid pl r.ever r.egen e.data with
          | none => refuse
          | some s2 => s2.countLine p (q.pdie b.home) b.tid
      else refuse

/-- Release beat b of a copy at this tick. One that is not present has been left behind by a resume under STRICT: it is written when it is (R226). -/
def State.release (s : State) (k st : Nat) (y : Copy) (b : Nat) : State :=
  if y.bad.contains b || (y.stop.any fun h => decide (h ≤ y.v + b)) then s
  else
    match y.kind with
    | .timed => match (if y.present.contains b then Tab.find y.got b else none) with | some v => s.writeDest k st y b v | none => s
    | .recv =>
      let far := s.underWay k (y.param.toNat % 16)
      let got := if y.got.isEmpty || (s.core k).channelBroken y far then recvBeats k st (s.core k) y far else y.got
      let s1 := s.modCopy k st y.id fun z => { z with got := got }
      s1.writeDest k st { y with got := got } b ((Tab.find got b).getD 0)
    | .seal | .unseal | .scrub => if y.outReady b then s.releaseSealed k st y b else s
    | _ => s
/-- BEAT_RELEASE (R212): k of 4096 + p names a beat of a peer for partition p, by its number. -/
def execBeatRelease (k st id b : Nat) (s : State) : Out :=
  if 4096 ≤ k then .next (s.releaseInbound (k - 4096) id)
  else
    let s1 := s.needIndex k st id b
    match (s1.core k).copy st id with
    | some y => .next (s1.release k st y b)
    | none => .next s1

/-! ## Lateness (R226) -/

/-- Whether beat b counts as present for its release; a sealed operation's needs its inputs. -/
def Copy.isPresent (y : Copy) (b : Nat) : Bool :=
  match y.kind with
  | .seal | .unseal | .scrub => y.outReady b
  | .recv => true
  | _ => y.present.contains b
/-- The tick at which beat b is due: its release, or the arrival of its message. -/
def Copy.due (y : Copy) (b : Nat) : Nat := if y.kind = .send then y.v else y.v + b
/-- Whether a beat has failed a check whose fault is still to be found: until then it is one that is not present. -/
def State.faultAwaited (s : State) (k st id b : Nat) : Bool :=
  s.events.any fun e => match e.2 with | .copyFault k' st' id' b' _ _ => k' == k && st' == st && id' == id && b' == b | _ => false
/-- LATE_BEAT_CHECK (R226): a beat for a peer is judged at the receiving package. k of 4096 + p names a beat of a peer for partition p, by the number of its input; a beat missing 192 ticks before its tick is late: hold cause 1 under WAIT, DEADLINE under STRICT. -/
def execLateBeatCheck (k st id b : Nat) (s : State) : Out :=
  let c := s.core k
  if 4096 ≤ k then .next (s.holdForPeer (k - 4096) id)
  else match c.copy st id with
  | none => .next s
  | some y =>
    if y.isPresent b || (y.bad.contains b && !s.faultAwaited k st id b) || (y.stop.any fun h => decide (h ≤ y.due b)) || decide (y.m < 256)
      || (y.kind == .timed && y.space true == 5) then .next s
    else
      let s1 := (s.setCore k { c with late := c.late + 1 }).modCtx c.part c.asid fun x => { x with lateEvents := x.lateEvents + 1 }
      let strict : Bool := match s.launch c.part c.launch with
        | some l => l.strict
        | none => (s.ctx c.part c.asid).any (·.strict)
      if strict then .next (s1.copyFaultAt k st id b 7 (y.due b) (s.now c) true)
      else .next (s1.raiseHold c.part 1 (beatTag k st id b false))
/-- Whether the streams of a core stand still at a freeze (R227): it is HALTED, or has left by EXIT and its context does not go on. -/
def State.frozen (s : State) (k : Nat) : Bool :=
  let c := s.core k
  c.st == .halted || (c.gone && (s.ctx c.part c.asid).any fun x => x.st == .halted)
/-- Release what waited past its tick: under STRICT a beat of an exited core may arrive after it. At a freeze it waits for the resume (R227). -/
def State.releaseOverdue (s : State) (k st id b : Nat) : State :=
  match (s.core k).copy st id with
  | some y =>
    if (y.kind = .timed ∨ y.kind.sealed) ∧ y.v + b < s.tick k then
      if s.frozen k then s.later (beatCode k st id b 0) (.beatPresent k st id (if y.kind.sealed then outBeat + b else b)) else s.release k st y b
    else s
  | none => s
/-- Beats that have become present: a hold for one clears, and one whose tick has passed is released. -/
def State.nowPresent (s : State) (k st id : Nat) (bs : List Nat) : State :=
  let p := (s.core k).part
  bs.foldl (fun s i => (s.clearHold p 1 (beatTag k st id i false)).releaseOverdue k st id i) s
/-- Output beat b of a sealed operation, or a beat whose VIRT destination has been looked up, crosses to the die of its destination, and waits in wall time for a circuit
(R375). -/
def State.outputCrosses (s : State) (k st : Nat) (y : Copy) (b : Nat) : State :=
  let c := s.core k
  let at' := if y.kind.sealed then outBeat + b else b
  if y.bad.contains b then s
  else if y.present.contains at' then s.nowPresent k st y.id [b]
  else match s.crossOut k c st y b with
  | none => s.later (beatCode k st y.id (outBeat + b) 0) (.beatPresent k st y.id (outBeat + b))
  | some s1 => (s1.modCopy k st y.id fun z => { z with present := at' :: z.present }).nowPresent k st y.id [b]
/-- A beat that is present and whose VIRT destination now has a place crosses to the die of it: while it has no circuit it is not present there (R226, R375). -/
def State.placed (s : State) (k st id b : Nat) (dst : Bool) : State :=
  let c := s.core k
  match c.copy st id with
  | none => s
  | some y =>
    if dst && y.present.contains b && (Tab.find y.places (2 * b + 1)).isSome then
      (s.modCopy k st id fun z => { z with present := z.present.filter (· != b) }).outputCrosses k st { y with present := y.present.filter (· != b) } b
    else s
/-- BEAT_PRESENT (R226): a fetched beat has passed its checks; the late beats that it completes are late no more. One that crosses dies takes the
circuits between them, and waits in wall time for one (R375); one of `outBeat` and above is an output on its way. A beat for a peer waits at its port (R379), unless the association has left OPEN (R383). -/
def execBeatPresent (k st id b : Nat) (s : State) : Out :=
  let c := s.core k
  match c.copy st id with
  | none => .next s
  | some y =>
    if outBeat ≤ b then .next (s.outputCrosses k st y (b - outBeat))
    else if y.bad.contains b || !y.read.contains b then .next s
    else if y.kind = .timed ∧ y.space true = 5 ∧ (s.peer c.part (y.sel true)).st ≠ 3 then
      .next (s.copyFaultAt k st id b 0x0C (s.peer c.part (y.sel true)).rtid (s.now c) false)
    else
    match (if y.present.contains b then some s
      else (s.cross k c st y b).bind fun s1 => if y.kind = .timed ∧ y.space true = 5 then s1.queueOut k c st y b else some s1) with
    | none => .next (s.later (beatCode k st id b 0) (.beatPresent k st id b))
    | some s0 =>
      let s1 := s0.modCopy k st id fun z => { z with present := if z.present.contains b then z.present else b :: z.present }
      let y1 := { y with present := b :: y.present }
      .next ((s1.startOutputs k st y y1 false).nowPresent k st id ((List.range (max (y.n + y.kind.sealed.toNat) (b + 1))).filter fun i => y1.isPresent i && (!y.isPresent i || i == b)))
/-- COPY_FAULT (R225): a check of a fetched beat fails at this tick. A frozen core meets it when it runs again. -/
def execCopyFault (k st id b cause info : Nat) (s : State) : Out :=
  let c := s.core k
  if c.st = .halted then .next (s.later (beatCode k st id b 1) (.copyFault k st id b cause info))
  else
    let s1 := s.copyFaultAt k st id b cause info (s.now c) false
    .next (match c.copy st id with
      | some y => ((List.range (y.n + 1)).foldl (fun s i => s.clearHold c.part 1 (beatTag k st id i false)) s1)
      | none => s1)

/-! ## The weight port (R196, R221) -/

/-- Take the next beat of the port: its data when released, and its release tick. -/
def takePort : List PortSeg → Option (Option Beat × Nat × List PortSeg)
  | [] => none
  | g :: t =>
    if g.used < g.n then some (Tab.find g.data g.used, g.v + g.used, { g with used := g.used + 1 } :: t)
    else (takePort t).map fun r => (r.1, r.2.1, g :: r.2.2)
/-- WPORT_BEAT_CONSUME (R221): line b of the running load takes the next beat of stream st's port; a beat not yet released loads zeros, and
the core traps with DEADLINE at the boundary before the next tick. -/
def execWportBeatConsume (k st b : Nat) (s : State) : Out :=
  let c := s.core k
  let t := s.now c
  match c.cmds.find? fun y => y.swapped && decide (y.s + b = t) && (match y.op with | .wldp z _ => z == st | _ => false) with
  | none => .next s
  | some y =>
    let x := c.stream st
    let r := takePort x.port
    let data := (r.bind (·.1)).getD 0
    let v := match r with | some e => e.2.1 | none => Config.free k (2 ^ 114 + t)
    let late := (r.bind (·.1)).isNone
    let fill := (leBytes 64 data.toNat).zip (List.range 64)
    let c1 := c.setStream st { x with port := match r with | some e => e.2.2 | none => x.port }
    .next (s.setCore k { c1 with
      cmds := c1.cmds.map fun z => if z.seq = y.seq then
        { z with abytes := fill.foldl (fun a e => Tab.put a (64 * b + e.2) e.1) z.abytes } else z
      due := if late then c1.due ++ [⟨t + 1, ⟨7, 5, 0, v % 2 ^ 32⟩, 0, 0, 0, 0, 0⟩] else c1.due })

/-! ## Lookups (R350, R351) -/

/-- VIRT_LOOKUP (R350). -/
def execVirtLookup (k st id b : Nat) (dst : Bool) (s : State) : Out := .next ((s.lookup k st id b dst).placed k st id b dst)
/-- The address of an end of beat b, and the partition tick of its lookup. -/
def State.lookupOf (s : State) (k st id b : Nat) (dst : Bool) : Nat × Nat :=
  let c := s.core k
  match c.copy st id with | some y => (y.offset dst b, y.lookupTick b dst + s.ctoff c) | none => (0, 0)
/-- WALK_COMPLETE (R351, R352): the entry or the fault, and cause 3 clears for every lookup that waited for the walk. Entries on other dies cross the circuits between them, and
the walk waits in wall time for those. -/
def execWalkComplete (k st id b : Nat) (dst : Bool) (s : State) : Out :=
  let p := (s.core k).part
  let va := s.lookupOf k st id b dst
  match s.crossWalk k va.1 va.2 with
  | none => .next (s.later (beatCode k st id b (4 + dst.toNat)) (.walkComplete k st id b dst))
  | some s0 =>
    let s1 := ((s0.walkEnd k st id b dst).clearHold p 3 (beatTag k st id b dst)).placed k st id b dst
    match s.walkFor k st id b dst with
    | none => .next s1
    | some e => .next ((s1.walkMates k st e).foldl (fun s w =>
        ((State.walkMate k st e s w).clearHold p 3 (beatTag k st w.1 w.2.1 w.2.2)).placed k st w.1 w.2.1 w.2.2) s1)

end Sys2Proof.Machine
end

