-- ==== Sys2Proof/Machine/Barrier.lean ====
section
/-! DEFINITION. Barriers: R297 to R309. An arrival is recorded when its bundle issues; once the whole bundle has taken effect,
every instance whose last member has arrived is set (`setBarriers`), so that copies of the arrival bundle count (R303). -/
namespace Sys2Proof.Machine

/-! ## Scopes (Table 14.1), as keys: the kind in bits 20 and up, then the code and the subgroup or die -/

def scopeSub (l : Launch) (code k : Nat) : Nat := 2 ^ 20 + code * 2 ^ 12 + l.sid code k
def scopeDie (d : Nat) : Nat := 2 * 2 ^ 20 + d
def scopeSs : Nat := 3 * 2 ^ 20
def scopeExit (l : Launch) (k : Nat) : Nat := 4 * 2 ^ 20 + l.sid 0x11 k

/-- The members of a scope (R297). -/
def scopeMembers (s : State) (l : Launch) (scope : Nat) : List Nat :=
  let kind := scope / 2 ^ 20
  if kind = 1 then l.members.filter fun j => l.sid (scope / 2 ^ 12 % 256) j == scope % 2 ^ 12
  else if kind = 2 then l.members.filter fun j => (s.core j).die == scope % 2 ^ 20
  else if kind = 3 then l.members
  else l.members.filter fun j => l.sid 0x11 j == scope % 2 ^ 20

/-- Whether all cores of a list stand on one die. -/
def oneDie (ks : List Nat) : Bool := ks.all fun j => coreDie j == coreDie (ks.headD 0)

/-- Lb of Table 14.2. -/
def barrierLat (scope : Nat) (ks : List Nat) : Nat :=
  let kind := scope / 2 ^ 20
  if kind = 4 then 8
  else if kind = 1 then (if scope / 2 ^ 12 % 256 = 0x11 then 8 else if oneDie ks then 16 else 512)
  else if kind = 2 then 32
  else if oneDie ks then 256 else 1024

/-- The arrival tick of member j at an instance: its own, or that of its EXIT (R305). -/
def arrivalOf (s : State) (b : Barrier) (j : Nat) : Option Nat :=
  match (b.arrived.find? fun e => e.1 == j) with
  | some e => some e.2
  | none => if b.scope / 2 ^ 20 = 4 then none else (s.core j).exit

/-- The last tick at which one of the first n beats of a copy is released: below its hold tick where a fault stops it (R225). -/
def lastRelease (y : Copy) (n : Nat) : Nat :=
  match y.stop with
  | none => y.v + n - 1
  | some h => ((List.range n).filter fun b => decide (y.v + b < h) && !y.bad.contains b).foldl (fun acc b => max acc (y.v + b)) 0
/-- Whether the ticks of a copy are still to be settled: its start waits for an XMARK bound (R216, R218), or its descriptor has not been read (R256). -/
def Copy.unsettled (y : Copy) : Bool := y.stop.isNone && ((y.r0.isNone && (y.kind == .cpl || y.kind == .send)) || y.unchecked)
/-- The highest tick at which a kept beat or message queued by tick a of a stream is released, written or arrives (R303), of the copies that are settled: of a sealed
operation, its status word's. -/
def streamReach (st : Stream) (a : Nat) : Nat :=
  st.copies.foldl (fun acc y =>
    if a < y.itick || y.wall.isSome || y.unsettled then acc
    else match y.kind with
      | .send => if y.stop.isSome then acc else max acc y.v
      | .timed => max acc (lastRelease y y.n)
      | .recv => max acc (lastRelease y y.n)
      | .cpl => max acc (lastRelease y y.n)
      | .seal => if y.stop.isSome then acc else max acc (y.v + y.n)
      | .unseal => if y.stop.isSome then acc else max acc (y.v + y.n)
      | .scrub => if y.stop.isSome then acc else max acc (y.v + y.n)) 0

/-- The copies queued by tick a of core k that are not settled. -/
def openCopies (c : Core) (k a : Nat) : List (Nat × Nat × Nat) :=
  let of := fun (st : Nat) (x : Stream) => (x.copies.filter fun y => decide (y.itick ≤ a) && y.wall.isNone && y.unsettled).map fun y => (k, st, y.id)
  of 0 c.ca ++ of 1 c.cb
/-- R of an instance whose members have all arrived (R299, R303). -/
def completionTick (s : State) (scope : Nat) (ks : List (Nat × Nat)) : Nat :=
  let a := ks.foldl (fun acc e => max acc e.2) 0
  let r := a + barrierLat scope (ks.map (·.1))
  if scope / 2 ^ 20 = 3 then
    ks.foldl (fun acc e => max acc (max (streamReach (s.core e.1).ca e.2) (streamReach (s.core e.1).cb e.2))) r
  else r

/-- Set an instance if its last member has arrived. -/
def setBarrier (s : State) (l : Launch) (b : Barrier) : Barrier :=
  match b.r with
  | some _ => b
  | none =>
    let ks := (scopeMembers s l b.scope).map fun j => (j, arrivalOf s b j)
    if ks.all fun e => e.2.isSome then { b with
      r := some (completionTick s b.scope (ks.map fun e => (e.1, e.2.getD 0)))
      waits := if b.scope / 2 ^ 20 = 3 then ks.flatMap fun e => openCopies (s.core e.1) e.1 (e.2.getD 0) else [] } else b
/-- The last tick of a copy that has been settled since its instance set: a stop that came later does not change it (R303). -/
def settledReach (y : Copy) : Nat :=
  match y.kind with
  | .send => y.v
  | .cpl => y.v + y.n - 1
  | _ => if y.unchecked then 0 else y.v + y.n
/-- An instance takes into its R what has been settled of the copies that it waits for. -/
def Barrier.close (s : State) (b : Barrier) : Barrier :=
  b.waits.foldl (fun b e =>
    match (if e.2.1 = 0 then (s.core e.1).ca else (s.core e.1).cb).copies.find? fun y => y.id == e.2.2 with
    | some y => if y.unsettled then b
        else { b with r := b.r.map fun r => max r (settledReach y), waits := b.waits.erase e }
    | none => { b with waits := b.waits.erase e }) b
/-- Every instance of a partition does (R303). -/
def Part.closeBarriers (s : State) (q : Part) : Part :=
  if q.launches.any fun e => e.2.bars.any fun b => !b.waits.isEmpty then
    { q with launches := q.launches.map fun (e : Nat × Launch) => (e.1, { e.2 with bars := e.2.bars.map fun b => if b.waits.isEmpty then b else b.close s }) }
  else q

/-- Set every instance of a launch whose last member has arrived (R299, R309). -/
def setBarriers (s : State) (p n : Nat) : State :=
  s.modLaunch p n fun l => { l with bars := l.bars.map (setBarrier s l) }

/-- Record an arrival of core k at a scope at tick t (R298). -/
def recordArrival (bars : List Barrier) (scope n k t : Nat) : List Barrier :=
  if bars.any fun b => b.scope == scope && b.n == n then
    bars.map fun b => if b.scope == scope && b.n == n then { b with arrived := b.arrived ++ [(k, t)] } else b
  else bars ++ [⟨scope, n, [(k, t)], none, [], false⟩]

/-- An arrival of the core under execution, and its wait unless the form does not wait (R298, R300). -/
def State.arrive (s : State) (scope : Nat) (wait : Bool) : State :=
  let k := s.cur.core
  let c := s.here
  let n := Tab.get 0 c.arrivals scope + 1
  let c' := { c with arrivals := Tab.set 0 c.arrivals scope n, wait := if wait then some (.barrier scope n) else c.wait }
  (s.setHere c').modLaunch c.part c.launch fun l => { l with bars := recordArrival l.bars scope n k (s.now c) }

/-- The launch of the core under execution. -/
def State.myLaunch (s : State) : Option Launch := s.launch s.here.part s.here.launch

/-- A barrier instruction (R298, R300): charged, numbered, and an arrival at the scope that its launch gives. -/
def barrierOp (g : Guard) (wait : Bool) (chk : Launch → Bool) (scope : Launch → Nat → Core → Nat) (s : State) : Out :=
  let c := s.here
  if c.guardOn g then
    match s.myLaunch with
    | none => .next s
    | some l =>
      if chk l then .next ((s.setHere (c.charge 1).next).arrive (scope l s.cur.core c) wait)
      else .next (s.trapHere 1 0)
  else .next s

/-- CBAR and CBAR.NW (R301): a code beyond AMAX or BMAX is ILLEGAL with sub-cause 0. -/
def execCbar (g : Guard) (code : Nat) (s : State) : Out :=
  barrierOp g true (fun l => l.codeOk code) (fun l k _ => scopeSub l code k) s
def execCbarNw (g : Guard) (code : Nat) (s : State) : Out :=
  barrierOp g false (fun l => l.codeOk code) (fun l k _ => scopeSub l code k) s
/-- DBAR and DBAR.NW (R302). -/
def execDbar (g : Guard) (s : State) : Out := barrierOp g true (fun _ => true) (fun _ _ c => scopeDie c.die) s
def execDbarNw (g : Guard) (s : State) : Out := barrierOp g false (fun _ => true) (fun _ _ c => scopeDie c.die) s
/-- SSB and SSB.NW (R303). -/
def execSsb (g : Guard) (s : State) : Out := barrierOp g true (fun _ => true) (fun _ _ _ => scopeSs) s
def execSsbNw (g : Guard) (s : State) : Out := barrierOp g false (fun _ => true) (fun _ _ _ => scopeSs) s

/-- Whether the instance of the member's latest arrival at a scope is complete at its tick t, R ≤ t, or there was none (R304). -/
def barrierDone (c : Core) (l : Launch) (scope t : Nat) : Bool :=
  let n := Tab.get 0 c.arrivals scope
  n == 0 || !(l.bars.any fun b => b.scope == scope && b.n == n && !(b.waits.isEmpty && b.r.any fun r => decide (r ≤ t)))

/-- BSTAT (R304). -/
def bstatOp (g : Guard) (d : Nat) (chk : Launch → Bool) (scope : Launch → Nat → Core → Nat) (s : State) : Out :=
  let c := s.here
  if c.guardOn g then
    match s.myLaunch with
    | none => .next (s.setHere ((c.charge 1).next.result (s.now c) 1 (.p d true)))
    | some l =>
      if chk l then
        .next (s.setHere ((c.charge 1).next.result (s.now c) 1 (.p d (barrierDone c l (scope l s.cur.core c) (s.now c)))))
      else .next (s.trapHere 1 0)
  else .next s

def execBstatSub (g : Guard) (d code : Nat) (s : State) : Out :=
  bstatOp g d (fun l => l.codeOk code) (fun l k _ => scopeSub l code k) s
def execBstatDie (g : Guard) (d : Nat) (s : State) : Out := bstatOp g d (fun _ => true) (fun _ _ c => scopeDie c.die) s
def execBstatSs (g : Guard) (d : Nat) (s : State) : Out := bstatOp g d (fun _ => true) (fun _ _ _ => scopeSs) s

/-- The wait of core k on a completed instance with its R: over, but for a member that is frozen, whose wait on re-issue ends at R (R247, R307). -/
def State.endWait (s : State) (l scope n r k : Nat) : State :=
  let c := s.core k
  if c.wait = some (.barrier scope n) ∧ c.launch = l then
    s.setCore k { c with wait := if c.st = .halted then some (.until' r) else none }
  else s
/-- BARRIER_COMPLETE (Table 14.3, R309): a set instance whose tick R has come completes, and the members that wait on it issue. It takes the place of the
instance of its scope that completed before. -/
def execBarrierComplete (p l scope n : Nat) (s : State) : Out :=
  match s.launch p l with
  | none => .next s
  | some y =>
    match y.bars.find? fun b => b.scope == scope && b.n == n && b.r.isSome && !b.over' with
    | none => .next s
    | some b =>
      let s1 := s.modLaunch p l fun z => { z with
        bars := (z.bars.filter fun e => !(e.scope == scope && e.over')).map fun e => if e.scope = scope ∧ e.n = n then { e with over' := true } else e }
      .next (y.members.foldl (fun s k => s.endWait l scope n (b.r.getD 0) k) s1)

/-- WAIT_BUDGET_EXHAUSTED (R308): a wait on an instance that is not set, met by a BUDGET of 0, takes the BUDGET trap; the wait stays
pending. A wait on a set instance runs on. -/
def execWaitBudgetExhausted (k : Nat) (s : State) : Out :=
  let c := s.core k
  match c.wait, s.launch c.part c.launch with
  | some (.barrier scope n), some y =>
    if c.budget = 0 ∧ c.st = .running ∧ (y.bars.any fun b => b.scope == scope && b.n == n && b.r.isNone) then
      let t := s.now c
      .next ((s.setCore k { c.freeze t with trap := ⟨6, 0, c.pc, 0⟩ }).raiseHalt k 1 t)
    else .next s
  | _, _ => .next s

end Sys2Proof.Machine
end

