-- ==== Sys2Proof/Machine/Control.lean ====
section
/-! DEFINITION. The X slot but for barriers: R137 to R146, R280 to R282. -/
namespace Sys2Proof.Machine

/-! ## Control transfers (R74, R75, R137, R138) -/

/-- A transfer that takes effect: two delay bundles, then the target. -/
def Core.transfer (c : Core) (target : Nat) : Core := { c with dly := 2, tgt := target }
/-- The check of a target index: FETCH (R137). -/
def targetFault (c : Core) (target : Nat) : Option (Nat × Nat) := if target < c.nbundles then none else some (3, target)
/-- The bundle index that a b register names, and the check of its value (R74). -/
def bTarget (w : Word) : Nat := w.toNat / 32 % 2 ^ 13
def bFault (c : Core) (w : Word) : Option (Nat × Nat) :=
  if w.toNat / 2 ^ 18 = 0 ∧ w.toNat % 32 = 0 then targetFault c (bTarget w) else some (3, w.toNat % 2 ^ 32)
/-- The link: the bundle after the second delay bundle (R138). -/
def linkOf (c : Core) : Word := BitVec.ofNat 64 (32 * (c.iss.pc + 3))

/-- BR (R138). -/
def execBr (g : Guard) (t : Nat) (s : State) : Out :=
  slotTry g 1 (fun _ c => targetFault c t) (fun _ c => c.transfer t) s
/-- BRB, RET (R138). -/
def execBrb (g : Guard) (b : Nat) (s : State) : Out :=
  slotTry g 1 (fun _ c => bFault c (c.readB b)) (fun _ c => c.transfer (bTarget (c.readB b))) s
/-- CALL (R138): the link lands at t + 1. -/
def execCall (g : Guard) (l t : Nat) (s : State) : Out :=
  slotTry g 1 (fun _ c => targetFault c t) (fun s c => (c.transfer t).result (s.now c) 1 (.b l (linkOf c))) s
/-- CALLB (R138): the old value of b[b] is the target, even when d names the same register. -/
def execCallb (g : Guard) (d b : Nat) (s : State) : Out :=
  slotTry g 1 (fun _ c => bFault c (c.readB b))
    (fun s c => (c.transfer (bTarget (c.readB b))).result (s.now c) 1 (.b d (linkOf c))) s
/-- LOOP (R139): takes effect while x[a], unsigned, exceeds 1. -/
def execLoop (g : Guard) (a t : Nat) (s : State) : Out :=
  slotTry g 1 (fun s c => if 1 < (s.readX c a).toNat then targetFault c t else none)
    (fun s c => if 1 < (s.readX c a).toNat then c.transfer t else c) s

/-- A test field of MBR: bits [3:0] name the predicate and bit 4 negates it (R140). -/
def mbrTest (c : Core) (f : Nat) : Bool := c.readP (f % 16) != (f / 16 % 2 == 1)
/-- The b register that a chain and a tree select (R140). -/
def mbrChainSel (c : Core) (t0 t1 t2 t3 : Nat) : Option Nat :=
  if mbrTest c t0 then some 0 else if mbrTest c t1 then some 1 else if mbrTest c t2 then some 2
  else if mbrTest c t3 then some 3 else none
def mbrTreeSel (c : Core) (t0 t1 t2 t3 : Nat) : Option Nat :=
  if mbrTest c t0 then (if mbrTest c t1 then some 0 else some 1)
  else if mbrTest c t2 then some 2 else if mbrTest c t3 then some 3 else none
/-- A multiway branch to the selected register, or none (R137, R140). -/
def mbrOp (g : Guard) (sel : Core → Option Nat) (s : State) : Out :=
  slotTry g 1 (fun _ c => match sel c with | some b => bFault c (c.readB b) | none => none)
    (fun _ c => match sel c with | some b => c.transfer (bTarget (c.readB b)) | none => c) s
/-- MBR.CHAIN and MBR.TREE (R140). -/
def execMbrChain (g : Guard) (a b c d : Nat) (s : State) : Out := mbrOp g (fun y => mbrChainSel y a b c d) s
def execMbrTree (g : Guard) (a b c d : Nat) (s : State) : Out := mbrOp g (fun y => mbrTreeSel y a b c d) s

/-! ## Waits and tests (R141, R142) -/

/-- Wait until tick T, when T lies beyond the next tick. -/
def Core.waitFor (c : Core) (t T : Nat) : Core := if t + 1 < T then { c with wait := some (.until' T) } else c
/-- WAITT (R141): T = x[a] + IMM16. The spec gives the sum no width: it is taken modulo 2^64, so a sum beyond names an early tick and waits for
nothing (DESIGN CHOICE, log entry 42). -/
def execWaitt (g : Guard) (a i : Nat) (s : State) : Out :=
  slotOp g 1 (fun s c => c.waitFor (s.now c) (s.readX c a + BitVec.ofNat 64 i).toNat) s
/-- WAITD (R141): T = t + 1 + IMM16. -/
def execWaitd (g : Guard) (i : Nat) (s : State) : Out :=
  slotOp g 1 (fun s c => c.waitFor (s.now c) (s.now c + 1 + i)) s
/-- TMGE (R142). -/
def execTmge (g : Guard) (d a : Nat) (s : State) : Out :=
  slotOp g 1 (fun s c => c.result (s.now c) 1 (.p d (decide ((s.readX c a).toNat ≤ s.now c)))) s
/-- BDGE (R142): BUDGET as it stood at the start of the tick. -/
def execBdge (g : Guard) (d i : Nat) (s : State) : Out :=
  slotOp g 1 (fun s c => c.result (s.now c) 1 (.p d (decide (i ≤ c.iss.budget)))) s

/-! ## The dispenser (R143, R280, R281) -/

/-- The tile numbered n of a launch (R280, Table 12.4); bit 127 alone is NULL. -/
def Launch.tileAt (l : Launch) (n : Nat) : Tile :=
  if l.tilesx * l.tilesy ≤ n then 1#128 <<< 127
  else
    let col := if l.order = 0 then n % l.tilesx else n / l.tilesy
    let row := if l.order = 0 then n / l.tilesx else n % l.tilesy
    BitVec.ofNat 128 (n % 2 ^ 32 * 2 ^ 64 + row % 2 ^ 32 * 2 ^ 32 + col % 2 ^ 32)

/-- NXT (R143): the next value of the launch's counter, delivered to q[QN] at exactly t + 24; QN advances at issue. -/
def execNxt (g : Guard) (s : State) : Out :=
  let c := s.here
  if c.guardOn g then
    let t := s.now c
    let tile := match s.myLaunch with | some l => l.tileAt l.tile | none => 1#128 <<< 127
    let c1 := (c.charge 1).next
    let c2 := { c1 with qn := (c.qn + 1) % 4,
                        lands := c1.lands ++ [⟨c1.seq, t + 24, t + 24, true, false, .q c.qn tile⟩], bound := max c1.bound (t + 24) }
    .next ((s.setHere c2).modLaunch c.part c.launch fun l => if l.tilesx = 0 then l else { l with tile := l.tile + 1 })
  else .next s

/-- NXT_DELIVERY (R73, R281): tiles whose tick has come are in their q registers. -/
def execNxtDelivery (k : Nat) (s : State) : Out :=
  let c := s.core k
  let t := s.now c
  let due := c.lands.filter fun l => l.due t && (match l.wr with | .q .. => true | _ => false)
  .next (s.setCore k (due.foldl (fun c l => c.write l.wr)
    { c with lands := c.lands.filter fun l => !(l.due t && (match l.wr with | .q .. => true | _ => false)) }))

/-! ## Stopping and yielding (R144 to R146) -/

/-- TRAP: SOFT with INFO IMM16 (R144). -/
def execTrap (g : Guard) (i : Nat) (s : State) : Out := slotTry g 1 (fun _ _ => some (14, i)) (fun _ c => c) s
/-- BRK: BREAK with INFO IMM16 (R144). -/
def execBrk (g : Guard) (i : Nat) (s : State) : Out := slotTry g 1 (fun _ _ => some (15, i)) (fun _ c => c) s

/-- The effect of MREL, and of EXIT on the lease (Table 8.3, R188). -/
def State.releaseLease (s : State) (k : Nat) : State :=
  let c := s.core k
  let t := s.now c
  if c.lease = 1 then s.setCore k { c with lease := 0, mrel := false }
  else if c.lease = 2 then s.modUnit (unitOf k) fun u => { u with relAt := some (u.relAt.getD (t + 1)) }
  else s
/-- EXIT (R145, R188, R305): no later bundle issues, the lease is released as by MREL, and the core arrives at the exit barrier
of its cluster. -/
def execExit (g : Guard) (s : State) : Out :=
  let c := s.here
  if c.guardOn g then
    let c' := { (c.charge 1).next with exit := some (s.now c) }
    match s.myLaunch with
    | none => .next ((s.setHere c').releaseLease s.cur.core)
    | some l => .next (((s.setHere c').arrive (scopeExit l s.cur.core) false).releaseLease s.cur.core)
  else .next s

/-- YIELD (R146): readies an armed pre-emption of the context for an early save; else NOP. -/
def execYield (g : Guard) (s : State) : Out :=
  let c := s.here
  if c.guardOn g then
    .next ((s.setHere (c.charge 1).next).modCtx c.part c.asid fun x => if x.armed.isSome then { x with yielded := true } else x)
  else .next s

/-- NOP (R92). -/
def execNop (_ : Guard) (s : State) : Out := .next s

end Sys2Proof.Machine
end

