-- ==== Sys2Proof/Machine/Matrix.lean ====
section
/-! DEFINITION. The matrix unit: R55 to R57 and R184 to R203. A command keeps the registers it was accepted with; the work of
each tick is `matrixWork`, which the landing of results calls. -/
namespace Sys2Proof.Machine

/-! ## Command registers (Table 8.6) -/

/-- Reset value of a command register. -/
def cregReset (n : Nat) : Nat :=
  if n = 0x00 ∨ n = 0x01 ∨ n = 0x02 ∨ n = 0x05 ∨ n = 0x07 ∨ n = 0x0A ∨ n = 0x0B ∨ n = 0x15 then 128
  else if n = 0x08 then 16384
  else if n = 0x09 ∨ (0x0C ≤ n ∧ n ≤ 0x11) then 1
  else if n = 0x18 then 512 else 0
/-- A command register of a set. -/
def creg (t : Tab Word) (n : Nat) : Nat := (Tab.get (BitVec.ofNat 64 (cregReset n)) t n).toNat
/-- Write the low 32 bits of a value to a command register (R194). -/
def setCreg (t : Tab Word) (n v : Nat) : Tab Word := Tab.set (BitVec.ofNat 64 (cregReset n)) t n (BitVec.ofNat 64 (v % 2 ^ 32))

/-! ## Arrays (R55 to R57, Table 8.2) -/

/-- Whether the sign-select array runs a weight format. -/
def ssa (wf : Fmt) : Bool := wf == .trn || wf == .i4 || wf == .i8
/-- T, the ticks per A row. -/
def rowTicks (wf af : Fmt) : Nat :=
  if wf = .trn then 1 else if wf = .i4 then 2 else if wf = .i8 then 4
  else if fmtWidth wf = 16 ∨ fmtWidth af = 16 then 16 else 4
/-- G of R55. -/
def groupLen (wf af : Fmt) : Nat := if fmtWidth wf ≤ 8 ∧ fmtWidth af ≤ 8 then 32 else 16
/-- Lw: lines per weight row (Table 8.5). -/
def lineCount (ncol : Nat) (wf : Fmt) : Nat := ((ncol * fmtWidth wf + 7) / 8 + 63) / 64

/-- The exact sum of a group's products as a rounded F32 code (R55). `short` says that positions beyond K add an exact +0.
A product of 0 and infinity and products of both infinities set NV beside a NaN operand too. -/
def groupSum (ps : List (FVal × FVal)) (short : Bool) : Nat × Flags :=
  let sn := Flags.when (ps.any fun p => p.1.snan || p.2.snan) Flags.nv
  let nums := ps.filter fun p => !(p.1.isNan || p.2.isNan)
  let prods := nums.map fun p => mulF p.1 p.2
  let pos := prods.any fun p => p == some (.inf false)
  let neg := prods.any fun p => p == some (.inf true)
  let inv := (prods.any fun p => p.isNone) || (pos && neg)
  if nums.length < ps.length ∨ inv then (canon32, sn ||| Flags.when inv Flags.nv)
  else if pos then (signed .f32 false 0x7F800000, 0)
  else if neg then (signed .f32 true 0x7F800000, 0)
  else
    let v := prods.foldl (fun acc p => match p with | some (.fin s m e) => addDy acc (sgn s m, e) | _ => acc) ((0 : Int), (0 : Int))
    let allNeg := !short && prods.all fun p => match p with | some (.fin s m _) => s && m == 0 | _ => false
    rndInt allNeg v.1 v.2 .f32 .rne 0 false
/-- grpstep: one group into the accumulator (R55). -/
def grpStep (acc : Nat × Flags) (ps : List (FVal × FVal)) (short : Bool) : Nat × Flags :=
  let t := groupSum ps short
  let r := fadd32 (decodeF .f32 acc.1) (decodeF .f32 t.1) .rne 0
  (r.1, acc.2 ||| t.2 ||| r.2)
/-- The groups of a list of products, at most n of them. -/
def grpSteps (g : Nat) : Nat → Nat × Flags → List (FVal × FVal) → Nat × Flags
  | 0, acc, _ => acc
  | _, acc, [] => acc
  | n + 1, acc, ps => grpSteps g n (grpStep acc (ps.take g) (decide (ps.length < g))) (ps.drop g)

/-! ## Unfolding (R197) -/

/-- The address of the first byte of element k of A row m and the place of its first bit, or none where PADV stands. -/
def aelemAt (r : Tab Word) (af : Fmt) (m k : Nat) : Option (Nat × Nat) :=
  let cin := creg r 0x0B
  let kw := creg r 0x0D
  let ch := k % cin
  let kx := k / cin % kw
  let ky := k / (cin * kw)
  let q := creg r 0x17 + m
  let oy := creg r 0x16 + q / creg r 0x15
  let ox := q % creg r 0x15
  let iy : Int := (oy * creg r 0x0E + ky * creg r 0x10 : Nat) - (creg r 0x12 : Int)
  let ix : Int := (ox * creg r 0x0F + kx * creg r 0x11 : Nat) - (creg r 0x13 : Int)
  if iy < 0 ∨ (creg r 0x09 : Int) ≤ iy ∨ ix < 0 ∨ (creg r 0x0A : Int) ≤ ix then none
  else
    let base := creg r 0x06 + iy.toNat * creg r 0x08 + ix.toNat * creg r 0x07
    let bit := ch * fmtWidth af
    some (base + bit / 8, bit % 8)
/-- The bytes that element (m, k) reads. -/
def aelemBytes (r : Tab Word) (af : Fmt) (m k : Nat) : List Nat :=
  match aelemAt r af m k with
  | none => []
  | some (a, b) => (List.range ((b + fmtWidth af + 7) / 8)).map (a + ·)
/-- The code of element (m, k), from the bytes sampled for the row. -/
def aelem (y : Cmd) (af : Fmt) (m k : Nat) : Nat :=
  match aelemAt y.regs af m k with
  | none => creg y.regs 0x14 % 2 ^ fmtWidth af
  | some (_, b) =>
    leNat ((aelemBytes y.regs af m k).map fun a => Tab.get 0 y.abytes (2 ^ 22 * m + a)) / 2 ^ b % 2 ^ fmtWidth af

/-! ## Tiles (R72, R198) -/

/-- Row r of tile z. -/
def Core.zRow (c : Core) (z r : Nat) : TileRow := Tab.get (0 : TileRow) c.z (128 * z + r)
def Core.setZ (c : Core) (z r : Nat) (v : TileRow) : Core := { c with z := Tab.set 0 c.z (128 * z + r) v }
/-- Element n of a tile row. -/
def zElem (v : TileRow) (n : Nat) : Lane := v.extractLsb' (32 * n) 32
/-- A tile row whose first n elements are given and whose others stay. -/
def zPut (old : TileRow) (n : Nat) (f : Nat → Lane) : TileRow :=
  (List.range n).foldl (fun acc j =>
    (acc &&& ~~~(0xFFFFFFFF#4096 <<< (32 * j))) ||| ((f j).setWidth 4096 <<< (32 * j))) old
/-- Code of weight element (k, n) of a load. -/
def wCode (w : Tab Row) (k n : Nat) : Nat := ((Tab.get (0 : Row) w k).extractLsb' (16 * n) 16).toNat

/-- Row m of an MMA against the weights w (R198). -/
def mmaRow (c : Core) (y : Cmd) (w : Tab Row) (wf af : Fmt) (z : Nat) (acc : Bool) (m : Nat) : TileRow × Flags :=
  let klen := creg y.regs 0x01
  let ncol := creg y.regs 0x02
  let old := c.zRow z (creg y.regs 0x03 + m)
  let a := (List.range klen).map fun k => aelem y af m k
  if ssa wf then
    (zPut old ncol fun n =>
      let s := (a.zip (List.range klen)).foldl (fun (s : Int) e => s + decodeI wf (wCode w e.2 n) * decodeI af e.1) 0
      BitVec.ofInt 32 ((if acc then ((zElem old n).toNat : Int) else 0) + s), 0)
  else
    let av := a.map fun x => decodeF af x
    let cols := (List.range ncol).map fun n =>
      grpSteps (groupLen wf af) 128 (if acc then (zElem old n).toNat else 0, 0)
        (av.zip ((List.range klen).map fun k => decodeF wf (wCode w k n)))
    (zPut old ncol fun n => BitVec.ofNat 32 (cols.getD n (0, 0)).1, cols.foldl (fun f e => f ||| e.2) 0)

/-! ## Checks of a command (R192, R200) -/

/-- Whether the core has a pending command (R192), and whether its shadow set is frozen (R193). -/
def Core.cmdPending (c : Core) (t : Nat) : Bool := c.cmds.any fun m => decide (t < m.s)
def Core.shadowFrozen (c : Core) (t : Nat) : Bool := c.cmds.any fun m => decide (m.t < t) && decide (t < m.s)

/-- The duration of a command (Table 8.5). -/
def MOp.duration (op : MOp) (r : Tab Word) : Nat :=
  match op with
  | .wld f | .wldp _ f => creg r 0x01 * lineCount (creg r 0x02) f
  | .mma wf af _ _ => creg r 0x00 * rowTicks wf af
  | .zero _ | .drv _ _ _ => 16
  | .drs _ _ => 1032
/-- Energy per tick of duration (Table 10.7). -/
def MOp.energy : MOp → Nat
  | .mma wf _ _ _ => if ssa wf then 64 else 80
  | _ => 16

/-- Whether a value lies in lo to hi. -/
def inRange (v lo hi : Nat) : Bool := decide (lo ≤ v) && decide (v ≤ hi)
/-- Code 5: the registers that a command uses are inside their limits (Table 8.6). -/
def MOp.limitsOk (op : MOp) (r : Tab Word) : Bool :=
  let kn := inRange (creg r 0x01) 1 128 && inRange (creg r 0x02) 4 128 && creg r 0x02 % 4 == 0
  match op with
  | .wldp _ _ => kn
  | .wld _ => kn && creg r 0x04 % 64 == 0 && creg r 0x05 % 64 == 0
  | .mma _ af _ _ =>
    kn && inRange (creg r 0x00) 1 128 && inRange (creg r 0x03) 0 127 && decide (creg r 0x03 + creg r 0x00 ≤ 128)
    && inRange (creg r 0x07) 1 65535 && inRange (creg r 0x08) 1 (2 ^ 21 - 1) && inRange (creg r 0x09) 1 4096
    && inRange (creg r 0x0A) 1 4096 && inRange (creg r 0x0B) 1 128 && (af != .f6 || creg r 0x0B % 4 == 0)
    && inRange (creg r 0x0C) 1 16 && inRange (creg r 0x0D) 1 16 && inRange (creg r 0x0E) 1 8 && inRange (creg r 0x0F) 1 8
    && inRange (creg r 0x10) 1 8 && inRange (creg r 0x11) 1 8 && inRange (creg r 0x12) 0 15 && inRange (creg r 0x13) 0 15
    && inRange (creg r 0x14) 0 65535 && inRange (creg r 0x15) 1 4096 && inRange (creg r 0x16) 0 4095
    && inRange (creg r 0x17) 0 4095 && creg r 0x01 == creg r 0x0C * creg r 0x0D * creg r 0x0B
  | .drs _ _ => creg r 0x18 % 64 == 0 && decide (512 ≤ creg r 0x18)
  | _ => true
/-- Code 6: every address of the command lies in the core's own scratchpad. -/
def MOp.rangeOk (op : MOp) (r : Tab Word) : Bool :=
  match op with
  | .wld f => decide (creg r 0x04 + (creg r 0x01 - 1) * creg r 0x05 + 64 * lineCount (creg r 0x02) f ≤ 2 ^ 21)
  | .mma _ af _ _ =>
    (List.range (creg r 0x00)).all fun m => (List.range (creg r 0x01)).all fun k =>
      (aelemBytes r af m k).all fun a => decide (a < 2 ^ 21)
  | .drs a _ => a % 64 == 0 && decide (a + 127 * creg r 0x18 + 512 ≤ 2 ^ 21)
  | _ => true
/-- Code 4: an MMA without a weight load of its format in this lease. -/
def MOp.badLoad (op : MOp) (u : MUnit) : Bool :=
  match op with | .mma wf _ _ _ => decide (u.wload.map (·.2) ≠ some wf) | _ => false
/-- The lowest failing code of Table 8.7, or none. -/
def cmdError (c : Core) (u : MUnit) (op : MOp) (cEnd : Nat) : Option Nat :=
  if c.lease ≠ 2 then some 1
  else if u.g + 16384 < cEnd then some 2
  else if 64 ≤ u.cmds then some 3
  else if op.badLoad u then some 4
  else if !op.limitsOk c.shadow then some 5
  else if !op.rangeOk c.shadow then some 6
  else none

/-- Start and completion tick of a command issued at t (R192). -/
def cmdStart (u : MUnit) (t : Nat) : Nat := max (t + 1) u.clast

/-- Rows of v[d] that MDRV will fill (R199). -/
def Core.awaitDrain (c : Core) (t d s0 : Nat) : Core :=
  { c with
    bound := max c.bound (s0 + 40)
    lands := c.lands ++ (List.range 16).map fun i => ⟨c.seq, t + 1, s0 + 40, false, true, .row d i (BitVec.allOnes 64) 0⟩ }

/-- A command instruction (R192, R200): the pending check, the checks of Table 8.7, then acceptance. -/
def cmdOp (g : Guard) (op : State → Core → MOp) (s : State) : Out :=
  let c := s.here
  if c.guardOn g then
    let t := s.now c
    let k := s.cur.core
    let u := s.unit (unitOf k)
    let o := op s c
    let s0 := cmdStart u t
    let d := o.duration c.shadow
    if c.cmdPending t then .next (s.trapHere 2 5)
    else match cmdError c u o (s0 + d) with
      | some e => .next (s.trapHere 0x0B (e * 256 + (if c.lease = 2 then u.cmds + 1 else 0)))
      | none =>
        let c1 := (c.charge (d * o.energy)).next
        let y : Cmd := ⟨u.cmds + 1, c1.seq, o, t, s0, s0 + d, c.shadow, false, [], [], (u.wload.map (·.1)).getD 0, [], c.iss.pc⟩
        let c2 := match o with | .drv v _ _ => c1.awaitDrain t v s0 | _ => c1
        let s1 := s.setHere { c2 with cmds := c2.cmds ++ [y] }
        .next (s1.modUnit (unitOf k) fun u =>
          { u with cmds := u.cmds + 1, clast := s0 + d
                   wload := match o with | .wld f => some (c1.seq, f) | .wldp _ f => some (c1.seq, f) | _ => u.wload })
  else .next s

/-! ## The M slot -/

/-- MLEASE (R186, R191): a request eligible from the next tick; no effect when requested or held. -/
def execMlease (g : Guard) (s : State) : Out :=
  slotOp g 1 (fun s c => if c.lease = 0 then { c with lease := 1, leaseFrom := s.now c + 1 } else c) s
/-- MREL (R188, R191). -/
def execMrel (g : Guard) (s : State) : Out :=
  let c := s.here
  if c.guardOn g then .next ((s.setHere (c.charge 1).next).releaseLease s.cur.core) else .next s
/-- MSET (R193, R194). -/
def execMset (g : Guard) (n a : Nat) (s : State) : Out :=
  slotTry g 1 (fun s c => if c.shadowFrozen (s.now c) then some (2, 5) else none)
    (fun s c => { c with shadow := setCreg c.shadow n (s.readX c a).toNat }) s
/-- MSETI (R193, R194). -/
def execMseti (g : Guard) (n i : Nat) (s : State) : Out :=
  slotTry g 1 (fun s c => if c.shadowFrozen (s.now c) then some (2, 5) else none)
    (fun _ c => { c with shadow := setCreg c.shadow n i }) s
/-- MWLD, MWLDA and MWLDB (R195, R196). -/
def execMwld (g : Guard) (f : Fmt) (s : State) : Out := cmdOp g (fun _ _ => .wld f) s
def execMwlda (g : Guard) (f : Fmt) (s : State) : Out := cmdOp g (fun _ _ => .wldp 0 f) s
def execMwldb (g : Guard) (f : Fmt) (s : State) : Out := cmdOp g (fun _ _ => .wldp 1 f) s
/-- MMA and MMA.ACC (R198). -/
def execMma (g : Guard) (wf af : Fmt) (z : Nat) (s : State) : Out := cmdOp g (fun _ _ => .mma wf af z false) s
def execMmaAcc (g : Guard) (wf af : Fmt) (z : Nat) (s : State) : Out := cmdOp g (fun _ _ => .mma wf af z true) s
/-- MZERO, MDRV and MDRS (R199); x[a] of MDRS is read at issue. -/
def execMzero (g : Guard) (z : Nat) (s : State) : Out := cmdOp g (fun _ _ => .zero z) s
def execMdrv (g : Guard) (d z p : Nat) (s : State) : Out := cmdOp g (fun _ _ => .drv d z p) s
def execMdrs (g : Guard) (a z : Nat) (s : State) : Out := cmdOp g (fun s c => .drs (s.readX c a).toNat z) s

/-! ## The lease events (Table 8.3, R187, R189) -/

/-- The cores of a matrix unit by position. -/
def unitCore (u pos : Nat) : Nat := coreAt (u / 64) (u % 64) pos
/-- Schedule tick of the context that holds the cluster. -/
def State.unitTick (s : State) (u : Nat) : Nat := s.tick (unitCore u 0)
/-- The end tick of the lease that stands (R188), once it is known. -/
def MUnit.leaseEnd (u : MUnit) : Nat :=
  let e := match u.relAt with | some r => min (u.g + 16384) (max r u.clast) | none => u.g + 16384
  if u.cmds = 64 then min e u.clast else e

/-- LEASE_END (R188): the holder is NONE, the weight buffer is clear, and the unit turns for eight ticks. -/
def execLeaseEnd (u : Nat) (s : State) : Out :=
  let y := s.unit u
  let t := s.unitTick u
  if y.st = .leased ∧ y.leaseEnd ≤ t then
    .next ((s.modCore (unitCore u y.h) fun c => { c with lease := 0 }).modUnit u fun y =>
      { y with st := .turn, lend := t, wbuf := [], wload := none, relAt := none })
  else .next s
/-- LEASE_TURN_END (Table 8.3). -/
def execLeaseTurnEnd (u : Nat) (s : State) : Out :=
  if (s.unit u).st = .turn ∧ (s.unit u).lend + 8 ≤ s.unitTick u then .next (s.modUnit u fun y => { y with st := .free }) else .next s
/-- Whether the core at a position has an eligible request that no MREL or EXIT of this tick withdraws (R187, R189). -/
def State.wantsLease (s : State) (u pos : Nat) : Bool :=
  let c := s.core (unitCore u pos)
  c.lease == 1 && decide (c.leaseFrom ≤ s.now c) && !c.mrel
/-- LEASE_GRANT (R187): to the first requesting position after the last holder. -/
def execLeaseGrant (u : Nat) (s : State) : Out :=
  let y := s.unit u
  if y.st = .free then
    match ((List.range 4).map fun i => (y.h + 1 + i) % 4).find? (s.wantsLease u) with
    | none => .next s
    | some pos =>
      let t := s.unitTick u
      .next ((s.modCore (unitCore u pos) fun c => { c with lease := 2 }).modUnit u fun y =>
        { y with st := .leased, h := pos, g := t, cmds := 0, clast := 0, wload := none, relAt := none })
  else .next s

/-! ## The work of a command (R193, R195 to R199) -/

/-- The requests that a command makes of its core's banks, queued when it starts: weight lines in S + line to S + line + 7, drained
lines in S + 25 + ℓ to S + 32 + ℓ (R196, R199). -/
def cmdReqs (k : Nat) (y : Cmd) : List Req :=
  match y.op with
  | .wld f =>
    let lw := lineCount (creg y.regs 0x02) f
    (List.range (creg y.regs 0x01 * lw)).map fun l =>
      ⟨y.seq, l, .wline y.num (l / lw) (l % lw), k, creg y.regs 0x04 + l / lw * creg y.regs 0x05 + 64 * (l % lw), y.t, l, 8,
        some (y.s - 1), 0, false⟩
  | .drs a _ =>
    (List.range 1024).map fun l =>
      ⟨y.seq, l, .dline y.num l none, k, a + l / 8 * creg y.regs 0x18 + 64 * (l % 8), y.t, l, 8, some (y.s + 24), 0, false⟩
  | _ => []

/-- MATRIX_COMMAND_SWAP (R193): commands whose start tick has come; the active set takes the shadow set. -/
def execMatrixCommandSwap (k : Nat) (s : State) : Out :=
  let c := s.core k
  let t := s.now c
  let start := c.cmds.filter fun y => !y.swapped && decide (y.s ≤ t)
  match start with
  | [] => .next s
  | _ =>
    let c' := { c with
      cmds := c.cmds.map fun y => if y.s ≤ t then { y with swapped := true } else y
      reqs := c.reqs ++ start.flatMap (cmdReqs k) }
    .next ((s.setCore k c').modUnit (unitOf k) fun u => { u with active := c.shadow })

/-- The addresses that A row m of a product reads (R197). -/
def rowAddrs (y : Cmd) (af : Fmt) (m : Nat) : List Nat := (List.range (creg y.regs 0x01)).flatMap fun e => aelemBytes y.regs af m e
/-- The accesses of A row m, one to each line that it reads, presented from S + m T to S + m T + 15 (R80, R197). -/
def rowReqs (k : Nat) (y : Cmd) (af : Fmt) (tt m : Nat) : List Req :=
  let lines := ((rowAddrs y af m).foldl (fun (t : Tab Unit) a => Tab.put t (a / 64) ()) []).map (·.1)
  lines.map fun l => ⟨y.seq, m * 2 ^ 15 + l, .aline y.num m, k, 64 * l, y.t, m * tt, 16, some (y.s - 1), 0, false⟩
/-- The offset, 0 to 15, from S + m T of the tick at which the unfolding unit reads a byte for A row m: free for each byte and row (R197). -/
def sampleAt (k seq m a : Nat) : Nat := Config.free k (2 ^ 100 + (seq * 1024 + m) * 2 ^ 24 + a) % 16
/-- Bytes of its own scratchpad that a command's unfolding reads at tick t, with the number under which it keeps each. -/
def sampleList (k t : Nat) (y : Cmd) : List (Nat × Nat) :=
  match y.op with
  | .mma wf af _ _ =>
    let tt := rowTicks wf af
    (List.range (creg y.regs 0x00)).flatMap fun m =>
      let t0 := y.s + m * tt
      if t0 ≤ t ∧ t ≤ t0 + 15 then
        ((rowAddrs y af m).filter fun a => t == t0 + sampleAt k y.seq m a).map fun a => (2 ^ 22 * m + a, a)
      else []
  | _ => []
/-- A command with the bytes of a list read now. -/
def Cmd.take (s : State) (k : Nat) (y : Cmd) (l : List (Nat × Nat)) : Cmd :=
  { y with abytes := l.foldl (fun b e => Tab.put b e.1 (s.seenByte k (padKey k e.2))) y.abytes }
/-- The bytes of weight line l at address a, with the number under which a load keeps each (R196). -/
def lineBytes (l a : Nat) : List (Nat × Nat) := (List.range 64).map fun b => (64 * l + b, a + b)
/-- Change the command of a core that stands under a number of issue. -/
def Core.modCmd (c : Core) (seq : Nat) (f : Cmd → Cmd) : Core := { c with cmds := c.cmds.map fun y => if y.seq = seq then f y else y }
/-- A bank serves line l of a load at this tick (R196). At the last tick of its window the line has been taken as it stood before the tick. -/
def State.weightLine (s : State) (k : Nat) (r : Req) (last : Bool) : State :=
  if last then s else s.modCore k fun c => c.modCmd r.seq fun y => y.take s k (lineBytes r.sub r.addr)
/-- A bank serves a line of an A row later than its window: what the row takes from it is read now (R80). -/
def State.lateLine (s : State) (k : Nat) (r : Req) (m : Nat) : State :=
  s.modCore k fun c => c.modCmd r.seq fun y => match y.op with
    | .mma _ af _ _ => y.take s k (((rowAddrs y af m).filter fun a => a / 64 == r.addr / 64).map fun a => (2 ^ 22 * m + a, a))
    | _ => y
/-- Before the releases of tick t, loads take the lines whose window ends with it and that no bank has served: a write at or after the last
tick is not seen (R196). -/
def State.closeLines (s : State) (k t : Nat) (c : Core) : Core :=
  (c.reqs.filter fun r => match r.kind with | .wline .. => r.e.map (· + r.off + r.span) == some t | _ => false).foldl
    (fun c r => c.modCmd r.seq fun y => y.take s k (lineBytes r.sub r.addr)) c

/-- The weights of a load from its lines (R195): TRN 0b10 loads as 0, and what lies beyond NCOL and KLEN is 0. -/
def loadRows (y : Cmd) (f : Fmt) : Tab Row :=
  let lw := lineCount (creg y.regs 0x02) f
  (List.range (creg y.regs 0x01)).foldl (fun w k =>
    let bytes := leNat ((List.range (64 * lw)).map fun b => Tab.get 0 y.abytes (64 * lw * k + b))
    let row := (List.range (creg y.regs 0x02)).foldl (fun (acc : Row) n =>
      let e := elem bytes (fmtWidth f) n
      acc ||| (BitVec.ofNat 2048 (if f = .trn ∧ e = 2 then 0 else e) <<< (16 * n))) 0
    Tab.set 0 w k row) []
/-- FMT when a TRN weight held 0b10 (R37, R195). -/
def loadFlags (y : Cmd) (f : Fmt) : Flags :=
  let lw := lineCount (creg y.regs 0x02) f
  Flags.when (f == .trn && ((List.range (creg y.regs 0x01)).any fun k =>
    let bytes := leNat ((List.range (64 * lw)).map fun b => Tab.get 0 y.abytes (64 * lw * k + b))
    (List.range (creg y.regs 0x02)).any fun n => elem bytes 2 n == 2)) Flags.fmt
/-- Whether a check has found a command of core c failing: what it has still to write is undefined (R61, R201). -/
def Core.cmdFailed (c : Core) (y : Cmd) : Bool := c.spoilt.contains (5, y.t)
/-- What a failed command writes in place of a number: free (R201). -/
def failDraw (k : Nat) (y : Cmd) (n : Nat) : Nat := Config.free k (2 ^ 121 + y.seq * 2 ^ 24 + n)
/-- The weights that a load of core k leaves: those of its lines, and of a failed one free codes in the rows and columns that it writes (R195, R201). -/
def Core.weightRows (c : Core) (k : Nat) (y : Cmd) (f : Fmt) : Tab Row :=
  if c.cmdFailed y then
    (List.range (creg y.regs 0x01)).foldl (fun w i =>
      Tab.set 0 w i (BitVec.ofNat 2048 ((List.range (creg y.regs 0x02)).foldl (fun acc n => acc + failDraw k y (128 * i + n) % 2 ^ 16 * 2 ^ (16 * n)) 0))) []
  else loadRows y f
/-- The weights of the load that a command of core k uses. -/
def weightsOf (c : Core) (k : Nat) (y : Cmd) : Tab Row :=
  match c.cmds.find? fun l => l.seq == y.load with
  | some l => (match l.op with | .wld f => c.weightRows k l f | .wldp _ f => c.weightRows k l f | _ => [])
  | none => []

/-- Elements of tile row r that a later accepted command writes and has not landed, undefined for a drain (R8). -/
def laterWrites (c : Core) (seq z r : Nat) : Nat :=
  c.cmds.foldl (fun acc y => if y.seq ≤ seq then acc else match y.op with
    | .mma _ _ w _ => if w = z ∧ creg y.regs 0x03 ≤ r ∧ r < creg y.regs 0x03 + creg y.regs 0x00 then max acc (creg y.regs 0x02) else acc
    | .zero w => if w = z then 128 else acc
    | _ => acc) 0
/-- Tile row r as a drain reads it. -/
def State.drainRow (s : State) (c : Core) (seq z r : Nat) : TileRow :=
  let n := laterWrites c seq z r
  if n = 0 then c.zRow z r else zPut (c.zRow z r) n fun j => BitVec.ofNat 32 (s.free (0x50000 + 128 * z + r) / 2 ^ (32 * j))

/-- Whether row m of a command has been done. -/
def Cmd.did (y : Cmd) (m : Nat) : Bool := y.done.contains m
/-- Row m of a command is done. -/
def Core.cmdDone (c : Core) (y : Cmd) (m : Nat) : Core := c.modCmd y.seq fun z => { z with done := m :: z.done }
/-- Flags of row m of a command, known at tick t: they reach FPFLAGS once, at a free tick up to the settle tick (R46, R198). The spec gives no first tick:
they come no earlier than the operands that raise them have been taken (DEDUCED, log entry 43). -/
def Core.cmdFlags (c : Core) (k : Nat) (y : Cmd) (m t : Nat) (f : Flags) : Core :=
  let free := Config.free k (2 ^ 118 + y.seq * 2 ^ 8 + m)
  if f = 0 then c
  else if flagTick t (max t (y.c + 24)) free ≤ t then c.write (.flags f)
  else c.flagsBy y.seq t (max t (y.c + 24)) free f
/-- What marks that the flags of row m of a product have been raised: row m itself is marked when it lands, and the two are not tied (R46). -/
def flagMark (m : Nat) : Nat := 128 + m
/-- Whether everything that a command does has been done. -/
def Cmd.finished (y : Cmd) : Bool :=
  match y.op with
  | .mma .. => decide (creg y.regs 0x00 ≤ (y.done.filter (· < 128)).length) && decide (creg y.regs 0x00 ≤ (y.done.filter (128 ≤ ·)).length)
  | .zero _ => y.did 0
  | _ => true

/-- The tick at which tile row m of a product lands (R198). -/
def rowTick (y : Cmd) (wf af : Fmt) (m : Nat) : Nat := y.s + (m + 1) * rowTicks wf af + 24
/-- The tick from which the flags of tile row m of a product are raised: its A row has been read, and the commands before it have landed their rows (R46, R197). -/
def rowKnown (y : Cmd) (wf af : Fmt) (m : Nat) : Nat := y.s + m * rowTicks wf af + 24
/-- A tile row with its first n elements free, as a failed command leaves those that it writes. -/
def failRow (k : Nat) (y : Cmd) (old : TileRow) (n i : Nat) : TileRow := zPut old n fun j => BitVec.ofNat 32 (failDraw k y (128 * i + j))
/-- What one started command does to core k at tick t: A rows ask for their lines, flags are raised once their row is known, and tile rows land by their ticks, later where a
bank that is asked too much has not served a line (R46, R80, R198). -/
def cmdWork (s : State) (k t : Nat) (c : Core) (y : Cmd) : Core :=
  match y.op with
  | .mma wf af z acc =>
    let waits := fun (c : Core) (m : Nat) => c.reqs.any fun r => r.seq == y.seq && r.kind == .aline y.num m
    (List.range (creg y.regs 0x00)).foldl (fun c m =>
      if t = y.s + m * rowTicks wf af then
        (if waits c m then c else { c with reqs := c.reqs ++ rowReqs k y af (rowTicks wf af) m })
      else
        let row := fun (_ : Unit) => mmaRow c y (weightsOf c k y) wf af z acc m
        let c1 := if rowKnown y wf af m ≤ t ∧ !y.did (flagMark m) ∧ !waits c m then (c.cmdFlags k y m t (row ()).2).cmdDone y (flagMark m) else c
        if rowTick y wf af m ≤ t ∧ !y.did m ∧ !waits c m then
          let v := if c.cmdFailed y then failRow k y (c.zRow z (creg y.regs 0x03 + m)) (creg y.regs 0x02) m else (row ()).1
          (c1.setZ z (creg y.regs 0x03 + m) v).cmdDone y m
        else c1) c
  | .zero z =>
    if y.c + 24 ≤ t ∧ !y.did 0 then
      ((List.range 128).foldl (fun c r => c.setZ z r (if c.cmdFailed y then failRow k y 0 128 r else 0)) c).cmdDone y 0
    else c
  | .drv d z p =>
    (List.range 16).foldl (fun c i =>
      if t = y.s + 24 + i then
        let row := if c.cmdFailed y then failRow k y 0 128 i else s.drainRow c y.seq z (16 * (p / 2) + i)
        { c with lands := c.lands.map fun l => match l.wr with
            | .row e j m _ =>
              if l.seq = y.seq ∧ e = d ∧ j = i then
                { l with ready := true, wr := .row e j m (row.extractLsb' (2048 * (p % 2)) 2048) } else l
            | _ => l }
      else c) c
  | .drs _ z =>
    { c with reqs := c.reqs.map fun r => match r.kind with
        | .dline n l none =>
          if r.seq = y.seq ∧ t = y.s + 24 + l then
            { r with kind := .dline n l (some ((s.drainRow c y.seq z (l / 8)).extractLsb' (512 * (l % 8)) 512)) } else r
        | _ => r }
  | .wld f => if y.c + 8 ≤ t ∧ !y.did 0 then (c.cmdFlags k y 0 t (loadFlags y f)).cmdDone y 0 else c
  | .wldp _ f => if y.c + 8 ≤ t ∧ !y.did 0 then (c.cmdFlags k y 0 t (loadFlags y f)).cmdDone y 0 else c

/-- The bytes that core k's unfolding reads at this tick, after its releases and before its bank accesses (R80, R197). -/
def State.sampleMatrix (s : State) (k : Nat) : State :=
  let c := s.core k
  if c.cmds.any (·.swapped) then
    let t := s.now c
    let reads := (c.cmds.filter (·.swapped)).flatMap (sampleList k t)
    reads.foldl (fun s e => s.see k (padKey k e.2) 1)
      (s.setCore k { c with cmds := c.cmds.map fun (y : Cmd) => if y.swapped then y.take s k (sampleList k t y) else y })
  else s
/-- The matrix work of core k at its tick: lines taken, rows landed, tiles drained (R195 to R199). -/
def State.matrixWork (s : State) (c : Core) : Core :=
  let k := s.cur.core
  let c1 := s.closeLines k (s.now c) c
  c1.cmds.foldl (fun c' (y : Cmd) => if y.swapped then cmdWork s k (s.now c) c' y else c') c1

/-- MATRIX_COMMAND_COMPLETE (R192): at C a load's contents stand in the weight buffer; commands past C + 24 are settled and leave,
but for the load whose weights later commands still use. -/
def execMatrixCommandComplete (k : Nat) (s : State) : Out :=
  let c := s.core k
  let t := s.now c
  let u := s.unit (unitOf k)
  let wbuf := c.cmds.foldl (fun w y => if y.c + 8 = t ∧ c.lease = 2 then
    (match y.op with | .wld f => c.weightRows k y f | .wldp _ f => c.weightRows k y f | _ => w) else w) u.wbuf
  let keep := fun (y : Cmd) => decide (t < y.c + 24) || (y.swapped && !y.finished) || (c.cmds.any fun z => decide (z.load = y.seq ∧ t < z.c + 24))
    || (c.lease == 2 && u.wload.map (·.1) == some y.seq)
  .next ((s.setCore k { c with cmds := c.cmds.filter keep }).modUnit (unitOf k) fun u => { u with wbuf := wbuf })

end Sys2Proof.Machine
end

