-- ==== Sys2Proof/Machine/Bank.lean ====
section
/-! DEFINITION. The banks of a scratchpad: R80, R125 to R128, R134, R316, R318. -/
namespace Sys2Proof.Machine

/-! ## Which requests a bank may serve (R80) -/

/-- Pinned accesses: CPL reads and writes and SEND reads. -/
def Req.pinned (r : Req) : Bool := r.pin
/-- Whether two requests are one. -/
def Req.same (a b : Req) : Bool := a.seq == b.seq && a.sub == b.sub && a.kind == b.kind
/-- The access of a queue that performs next: the lowest effective issue, then the order of issue (R125). -/
def firstOf (q : Req → Bool) (rs : List Req) : Option Req :=
  rs.foldl (fun acc r =>
    if q r then
      match acc with
      | none => some r
      | some a => match r.eff, a.eff with
        | some x, some y => if x < y then some r else acc
        | some _, none => some r
        | none, _ => acc
    else acc) none
/-- Whether an access is the next of its queues, whose predecessors have performed before tick t (R125). -/
def Core.turn (c : Core) (t : Nat) (r : Req) : Bool :=
  (!r.inLd || (decide (c.lastLd < t) && (firstOf (·.inLd) c.reqs).any fun h => h.same r))
  && (!r.inSt || (decide (c.lastSt < t) && (firstOf (·.inSt) c.reqs).any fun h => h.same r))
/-- The stream of a copy's request. -/
def Req.stream (r : Req) : Nat :=
  match r.kind with
  | .src st _ _ => st | .idx st _ _ => st | .desc st _ => st | .cpl st _ _ _ => st | _ => 0
/-- The fixed order among requests of core j at the scratchpad of core k whose windows end together. -/
def Req.rank (r : Req) (j k : Nat) : Nat :=
  let w := posOf j ^^^ posOf k
  if r.pinned then 16 + 2 * w + r.stream
  else if r.isL then (if j = k then 32 else 80 + w)
  else match r.kind with
    | .aline .. => 64 + w
    | .wline .. => 68 + w
    | .dline .. => 72 + w
    | _ => if j = k then 48 + r.stream else 96 + 2 * w + r.stream

/-- The banks of an access: the one of its line, or those of the lines of a vector row. -/
def Req.banks (r : Req) : List Nat :=
  let n := match r.kind with | .vld _ _ f6 => if f6 then 3 else 4 | .vst _ _ f6 _ => if f6 then 3 else 4 | _ => 1
  (List.range n).map fun i => (r.addr / 64 + i) % 32

/-- The latest tick at which each access of a queue, in order, may perform so that those behind it keep their windows (R125): one tick apart. -/
def latest : List Req → List (Req × Nat)
  | [] => []
  | r :: t =>
    let rest := latest t
    let own := if r.e.isSome then r.hi else 2 ^ 64
    (r, match rest with | a :: _ => min own (a.2 - 1) | [] => own) :: rest
/-- The requests of a core with the latest tick of each: by its window, and by its queues. -/
def Core.lateTicks (c : Core) : List (Req × Nat) :=
  let ld := latest (queueOrder (·.inLd) c.reqs)
  let st := latest (queueOrder (·.inSt) c.reqs)
  let find := fun (l : List (Req × Nat)) (r : Req) (d : Nat) => ((l.find? fun e => e.1.same r).map (·.2)).getD d
  (c.reqs.filter (·.e.isSome)).map fun r => (r, if r.isL then min (find ld r r.hi) (find st r r.hi) else r.hi)
/-- Of the latest ticks of a bank's requests, in rising order: the last one by which, counted from tick t on, as many must be served as there are
ticks left; n of them stand before. -/
def tightTick (t : Nat) : Nat → List Nat → Option Nat
  | _, [] => none
  | n, d :: rest => match tightTick t (n + 1) rest with | some e => some e | none => if d < t + n + 1 then some d else none
/-- For each bank, the tick up to which its requests have no tick to spare. -/
def tightBanks (t : Nat) (all : List (Req × Nat)) : List (Option Nat) :=
  (List.range 32).map fun i => tightTick t 0 ((all.filter fun e => e.1.banks.contains i).foldl (fun l e => putTick e.2 l) [])
/-- Whether a request with latest tick d has no tick to spare at tick t: it is then presented at once, so that no window is missed while the demand
limit is met (R80). -/
def urgent (t : Nat) (tight : List (Option Nat)) (r : Req) (d : Nat) : Bool :=
  decide (d ≤ t) || r.banks.any fun i => (tight.getD i none).any fun e => decide (d ≤ e)
/-- Whether a request of core j, with latest tick d, stands before its banks at tick t. -/
def Core.presents (c : Core) (t : Nat) (tight : List (Option Nat)) (j : Nat) (r : Req) (d : Nat) : Bool :=
  c.turn t r && ((r.present j).any (fun p => decide (p ≤ t)) || (r.lo.any (fun l => decide (l ≤ t)) && urgent t tight r d))

/-- Whether one candidate goes before another: the window that ends first, then the fixed order, then the order of issue. -/
def before (k : Nat) (a b : Nat × Req) : Bool :=
  let key := fun (e : Nat × Req) => [e.2.hi, e.2.rank e.1 k, e.2.seq, e.2.sub]
  decide (key a < key b)
/-- Put a candidate in its place. -/
def putReq (k : Nat) (a : Nat × Req) : List (Nat × Req) → List (Nat × Req)
  | [] => [a]
  | b :: t => if before k a b then a :: b :: t else b :: putReq k a t
/-- Serve in order: each request whose banks are all still free this tick. -/
def serve : List Nat → List (Nat × Req) → List (Nat × Req)
  | _, [] => []
  | busy, e :: t => if e.2.banks.any busy.contains then serve busy t else e :: serve (e.2.banks ++ busy) t
/-- Whether the units of a core act at this tick: it runs, or it has left by EXIT and its context goes on (R227, R228). -/
def State.acts (s : State) (k : Nat) : Bool :=
  let c := s.core k
  c.st == .running || (c.gone && decide (c.ftick ≤ s.now c) && (s.ctx c.part c.asid).any fun x => x.st == .active || x.st == .ready)
/-- The cores of the cluster of core k. -/
def clusterCores (k : Nat) : List Nat := (List.range 4).map fun pos => coreAt (coreDie k) (clusterOf k) pos
/-- The requests that the banks of core k's scratchpad serve at this tick. -/
def State.served (s : State) (k : Nat) : List (Nat × Req) :=
  let all := (clusterCores k).flatMap fun j => if s.acts j then ((s.core j).lateTicks.filter fun e => e.1.pad == k).map fun e => (j, e) else []
  let tight := tightBanks (s.tick k) (all.map (·.2))
  let rs := (all.filter fun e => let c := s.core e.1; c.presents (s.now c) tight e.1 e.2.1 e.2.2).map fun e => (e.1, e.2.1)
  serve [] (rs.foldl (fun l a => putReq k a l) [])

/-! ## Accesses that their banks owe a service (R80, R125)

An access is presented at a free tick of its window, and so a bank may have stood idle, or have served a later window, while it could have been served. Where the demand limit
is met its window still holds: such an access performs at its last tick, though its bank or its queue has performed another in it (log entry 12). -/

/-- The demand on the banks of core k's scratchpad after this tick. -/
def State.askBanks (s : State) (k : Nat) : State :=
  let new := (clusterCores k).flatMap fun j =>
    if s.acts j then
      let c := s.core j
      let t := s.now c
      (c.reqs.filter fun r => r.pad == k && r.lo == some t).flatMap fun r => r.banks.map fun i => (i, r.hi - t)
    else []
  if new.isEmpty && (s.core k).bankDemand.isEmpty then s else s.modCore k fun c => { c with bankDemand := demandTick new c.bankDemand }
/-- Whether a request of core j, at the last tick that its window and its queue leave it, is owed a service at the scratchpad of core k: neither a bank that it takes nor a queue
in which it is next is asked more than the limit. -/
def State.owed (s : State) (k j : Nat) (e : Req × Nat) : Bool :=
  let c := s.core j
  let t := s.now c
  let r := e.1
  r.pad == k && (r.lo.any fun l => decide (l ≤ t)) && decide (e.2 ≤ t) && decide (t ≤ r.hi) && c.turn (t + 1) r
  && !(r.banks.any (overAsked (s.core k).bankDemand)) && !(r.inLd && overAsked c.queueDemand 0) && !(r.inSt && overAsked c.queueDemand 1)
/-- The first of the accesses that are owed a service at the scratchpad of core k, in the order of its banks. -/
def State.firstOwed (s : State) (k : Nat) : Option (Nat × Req) :=
  let rs := (clusterCores k).flatMap fun j => if s.acts j then ((s.core j).lateTicks.filter (s.owed k j)).map fun e => (j, e.1) else []
  (rs.foldl (fun l a => putReq k a l) []).head?

/-! ## Performing -/

/-- Packed F6 rows (R133): lane j holds the 24 bits of its four elements. -/
def unpackF6 (n : Nat) : Row := mkRow fun j => BitVec.ofNat 32 (n / 2 ^ (24 * j) % 2 ^ 24)
def packF6 (r : Row) : Nat := (List.range 64).foldl (fun n j => n + (laneOf r j).toNat % 2 ^ 24 * 2 ^ (24 * j)) 0
/-- The function of an atomic on n bytes (R134). -/
def amoValue (f n : Nat) (old x : Word) : Word :=
  let w := 8 * n
  let a := BitVec.ofNat w old.toNat
  let b := BitVec.ofNat w x.toNat
  BitVec.ofNat 64 ((match f with
    | 0 => a + b | 1 => b | 2 => a &&& b | 3 => a ||| b | 4 => a ^^^ b
    | 5 => if a.slt b then a else b | 6 => if a.slt b then b else a
    | 7 => if a < b then a else b | _ => if a < b then b else a).toNat)
/-- The value of a scalar load. -/
def loadValue (n : Nat) (sx : Bool) (v : Nat) : Word := if sx then sext (8 * n) v else BitVec.ofNat 64 v
/-- The result of an access is known: it lands from p + 1, a scalar one at its bound. -/
def Core.deliver (c : Core) (r : Req) (f : Land → Option Land) : Core :=
  { c with lands := c.lands.map fun l => if l.seq = r.seq then (f l).getD l else l }
def landX (d hi : Nat) (v : Word) (l : Land) : Option Land :=
  match l.wr with | .x e _ => if e = d then some { l with hi := hi, ready := true, wr := .x d v } else none | _ => none
def landRow (d i p : Nat) (v : Row) (l : Land) : Option Land :=
  match l.wr with
  | .row e j m _ => if e = d ∧ j = i then some { l with hi := max (p + 1) l.hi, ready := true, wr := .row e j m v } else none
  | _ => none
/-- An access leaves its queue at tick t, and accesses and the row path behind a MARK learn their effective issue (R128). -/
def Core.leave (c : Core) (r : Req) (t : Nat) : Core :=
  let c1 := { c with
    reqs := c.reqs.filter fun q => !q.same r
    lastLd := if r.inLd then t else c.lastLd
    lastSt := if r.inSt then t else c.lastSt }
  if r.isL then
    { c1 with
      reqs := c1.reqs.map fun q => if q.isL && q.e.isNone && !c1.behind q.grp then { q with e := some (max q.t t) } else q
      rowPath := c1.rowPath.map fun q => if q.e.isNone && !c1.behind q.grp then { q with e := some (max q.t t) } else q }
  else c1
/-- Whether a byte of an atomic has been written in its perform tick: by a release, of its own core too, as its bank serves nothing else (R318). -/
def State.raced (s : State) (a n : Nat) : Bool := s.hits.any fun h => decide (a ≤ h.1) && decide (h.1 < a + n)

/-- Bytes that a load or atomic reads. -/
def Req.readLength (r : Req) : Nat :=
  match r.kind with
  | .ld _ n _ => n
  | .vld _ _ f6 => if f6 then 192 else 256
  | .amo _ _ n _ => n
  | .desc .. => 64
  | .wline .. => 64
  | _ => 0
/-- Perform one request of core j. -/
def State.perform (s : State) (j : Nat) (r : Req) : State :=
  let c := s.core j
  let t := s.now c
  let a := padKey r.pad r.addr
  let bound := (r.e.getD t) + 5
  let failed := c.spoilt.contains (if r.isL then 2 else 5, r.t)
  let draw := fun (i : Nat) => Config.free j (2 ^ 120 + r.seq * 2 ^ 24 + r.sub * 2 + i)
  let c0 := (if r.inLd then c.until' (bound + r.off) else c).noteBound r.t 2 (if r.isL then bound + r.off - r.t else 0)
  let s1 := s.setCore j (c0.leave r t)
  let s2 := match r.kind with
    | .ld d n sx => s1.modCore j fun c => c.deliver r (landX d (max bound (t + 1)) (if failed then BitVec.ofNat 64 (draw 0) else loadValue n sx (s.loadBy j a n)))
    | .st n v => s1.writeRaced j a (leBytes n (if failed then draw 0 else v.toNat))
    | .vld d i f6 =>
      let v := if failed then BitVec.ofNat 2048 (draw 0) else if f6 then unpackF6 (s.loadBy j a 192) else BitVec.ofNat 2048 (s.loadBy j a 256)
      s1.modCore j fun c => c.deliver r (landRow d i t v)
    | .vst _ _ f6 data =>
      let v := if failed then BitVec.ofNat 2048 (draw 0) else data.getD 0
      s1.writeRaced j a (if f6 then leBytes 192 (packF6 v) else leBytes 256 v.toNat)
    | .amo f d n v =>
      let free := Config.free j (2 ^ 116 + r.seq)
      let race := s.raced a n
      let old := BitVec.ofNat 64 (if race then free % 2 ^ (8 * n) else s.loadBy j a n)
      (s1.modCore j fun c => c.deliver r (landX d (max bound (t + 1)) (if failed then BitVec.ofNat 64 (draw 0) else old))).writeRaced j a
        (leBytes n (if failed then draw 1 else if race then free / 2 ^ 64 else (amoValue f n old v).toNat))
    | .dline _ _ data => s1.writeRaced j a (leBytes 64 (if failed then draw 0 else (data.getD 0).toNat))
    | .wline .. => s1.weightLine j r (r.hi == t)
    | .aline _ m => if r.hi < t then s1.lateLine j r m else s1
    | .src st id b => s1.readBeat j st id b
    | .idx st id n => s1.readIndex j st id n
    | .desc st id => s1.readDescriptor j st id r
    | .cpl _ _ _ data => s1.writeRaced j a (leBytes 64 data.toNat)
  let s3 := if r.inSt then s2.modCore j fun c => c.settleMarks j t else s2
  let s4 := if r.isL then s3.setCore j (s3.sampleStores (s3.core j)) else s3
  if r.readLength = 0 then s4 else s4.see j a r.readLength

/-- Perform an access of a core, as its L slot's. -/
def State.performOne (s : State) (e : Nat × Req) : State := { s with cur := ⟨e.1, 2⟩ }.perform e.1 e.2
/-- Perform what the scratchpad of core k owes, at most n accesses. -/
def State.performOwed (k : Nat) : Nat → State → State
  | 0, s => s
  | n + 1, s => match s.firstOwed k with | some e => State.performOwed k n (s.performOne e) | none => s
/-- BANK_ACCESS_PERFORM (R80): each bank of core k's scratchpad serves at most one presented access in this tick, and then performs what it owes; what the core's
unfolding unit reads in it comes first. -/
def execBankAccessPerform (k : Nat) (s : State) : Out :=
  let s1 := (if s.acts k then s.sampleMatrix k else s).askBanks k
  .next (State.performOwed k 64 ((s1.served k).foldl State.performOne s1))

end Sys2Proof.Machine
end

