-- ==== Sys2Proof/Machine/Issue.lean ====
section
/-! DEFINITION. Issue of a bundle: R63 to R65, R75 to R77, R81, R93, R94, R141, R238, R308. The meanings of its operations follow,
one for each slot, from what this leaves in `ops` (Machine/Run.lean). -/
namespace Sys2Proof.Machine

/-- The register files that R65 names. -/
inductive File where
  | x | p | b | v | k
  deriving DecidableEq, Repr

/-- The destination that an operation's encoding names (R65, Table 3.1). -/
def destOf (i : Instr) : Option (File × Nat) :=
  match i with
  | .call _ d _ => some (.b, d)
  | .callb _ d _ => some (.b, d)
  | .bstatSub _ d _ => some (.p, d)
  | .bstatDie _ d => some (.p, d)
  | .bstatSs _ d => some (.p, d)
  | .tmge _ d _ => some (.p, d)
  | .bdge _ d _ => some (.p, d)
  | .add _ d _ _ => some (.x, d)
  | .sub _ d _ _ => some (.x, d)
  | .and _ d _ _ => some (.x, d)
  | .or _ d _ _ => some (.x, d)
  | .xor _ d _ _ => some (.x, d)
  | .andn _ d _ _ => some (.x, d)
  | .orn _ d _ _ => some (.x, d)
  | .xnor _ d _ _ => some (.x, d)
  | .sll _ d _ _ => some (.x, d)
  | .srl _ d _ _ => some (.x, d)
  | .sra _ d _ _ => some (.x, d)
  | .rol _ d _ _ => some (.x, d)
  | .ror _ d _ _ => some (.x, d)
  | .mul _ d _ _ => some (.x, d)
  | .mulh _ d _ _ => some (.x, d)
  | .mulhu _ d _ _ => some (.x, d)
  | .min _ d _ _ => some (.x, d)
  | .max _ d _ _ => some (.x, d)
  | .minu _ d _ _ => some (.x, d)
  | .maxu _ d _ _ => some (.x, d)
  | .clz _ d _ => some (.x, d)
  | .ctz _ d _ => some (.x, d)
  | .popc _ d _ => some (.x, d)
  | .bswap _ d _ => some (.x, d)
  | .adds _ d _ _ => some (.x, d)
  | .subs _ d _ _ => some (.x, d)
  | .addi _ d _ _ => some (.x, d)
  | .andi _ d _ _ => some (.x, d)
  | .ori _ d _ _ => some (.x, d)
  | .xori _ d _ _ => some (.x, d)
  | .slli _ d _ _ => some (.x, d)
  | .srli _ d _ _ => some (.x, d)
  | .srai _ d _ _ => some (.x, d)
  | .roli _ d _ _ => some (.x, d)
  | .movi _ d _ => some (.x, d)
  | .movk16 _ d _ => some (.x, d)
  | .movk32 _ d _ => some (.x, d)
  | .movk48 _ d _ => some (.x, d)
  | .cmpEq _ d _ _ => some (.p, d)
  | .cmpNe _ d _ _ => some (.p, d)
  | .cmpLt _ d _ _ => some (.p, d)
  | .cmpGe _ d _ _ => some (.p, d)
  | .cmpLtu _ d _ _ => some (.p, d)
  | .cmpGeu _ d _ _ => some (.p, d)
  | .cmpiEq _ d _ _ => some (.p, d)
  | .cmpiNe _ d _ _ => some (.p, d)
  | .cmpiLt _ d _ _ => some (.p, d)
  | .cmpiGe _ d _ _ => some (.p, d)
  | .cmpiLtu _ d _ _ => some (.p, d)
  | .cmpiGeu _ d _ _ => some (.p, d)
  | .pand _ d _ _ => some (.p, d)
  | .por _ d _ _ => some (.p, d)
  | .pxor _ d _ _ => some (.p, d)
  | .pandn _ d _ _ => some (.p, d)
  | .porn _ d _ _ => some (.p, d)
  | .pnot _ d _ => some (.p, d)
  | .sel _ d _ _ _ => some (.x, d)
  | .setb _ d _ => some (.b, d)
  | .getb _ d _ => some (.x, d)
  | .setbi _ d _ => some (.b, d)
  | .sysrd _ d _ => some (.x, d)
  | .qrd _ d _ _ => some (.x, d)
  | .ldb _ d _ _ => some (.x, d)
  | .ldbu _ d _ _ => some (.x, d)
  | .ldh _ d _ _ => some (.x, d)
  | .ldhu _ d _ _ => some (.x, d)
  | .ldw _ d _ _ => some (.x, d)
  | .ldwu _ d _ _ => some (.x, d)
  | .ldd _ d _ _ => some (.x, d)
  | .vld _ d _ _ => some (.v, d)
  | .vldr _ d _ _ _ => some (.v, d)
  | .vlds _ d _ _ => some (.v, d)
  | .vldf6 _ d _ _ => some (.v, d)
  | .amoAdd _ d _ _ _ => some (.x, d)
  | .amoSwap _ d _ _ _ => some (.x, d)
  | .amoAnd _ d _ _ _ => some (.x, d)
  | .amoOr _ d _ _ _ => some (.x, d)
  | .amoXor _ d _ _ _ => some (.x, d)
  | .amoMin _ d _ _ _ => some (.x, d)
  | .amoMax _ d _ _ _ => some (.x, d)
  | .amoMinu _ d _ _ _ => some (.x, d)
  | .amoMaxu _ d _ _ _ => some (.x, d)
  | .vaddF32 _ d _ _ _ _ => some (.v, d)
  | .vsubF32 _ d _ _ _ _ => some (.v, d)
  | .vmulF32 _ d _ _ _ _ => some (.v, d)
  | .vfmaF32 _ d _ _ _ _ => some (.v, d)
  | .vfmsF32 _ d _ _ _ _ => some (.v, d)
  | .vminF32 _ d _ _ _ => some (.v, d)
  | .vmaxF32 _ d _ _ _ => some (.v, d)
  | .vabsF32 _ d _ _ => some (.v, d)
  | .vnegF32 _ d _ _ => some (.v, d)
  | .vrndF32 _ d _ _ _ => some (.v, d)
  | .vcmpF32Eq _ d _ _ _ => some (.k, d)
  | .vcmpF32Ne _ d _ _ _ => some (.k, d)
  | .vcmpF32Lt _ d _ _ _ => some (.k, d)
  | .vcmpF32Le _ d _ _ _ => some (.k, d)
  | .vcmpF32Unord _ d _ _ _ => some (.k, d)
  | .vcmpI32Eq _ d _ _ _ => some (.k, d)
  | .vcmpI32Ne _ d _ _ _ => some (.k, d)
  | .vcmpI32Lt _ d _ _ _ => some (.k, d)
  | .vcmpI32Ge _ d _ _ _ => some (.k, d)
  | .vcmpI32Ltu _ d _ _ _ => some (.k, d)
  | .vcmpI32Geu _ d _ _ _ => some (.k, d)
  | .vaddI32 _ d _ _ _ => some (.v, d)
  | .vsubI32 _ d _ _ _ => some (.v, d)
  | .vmulI32 _ d _ _ _ => some (.v, d)
  | .vmulhI32 _ d _ _ _ => some (.v, d)
  | .vminI32 _ d _ _ _ => some (.v, d)
  | .vmaxI32 _ d _ _ _ => some (.v, d)
  | .vminN32 _ d _ _ _ => some (.v, d)
  | .vmaxN32 _ d _ _ _ => some (.v, d)
  | .vaddsI32 _ d _ _ _ => some (.v, d)
  | .vsubsI32 _ d _ _ _ => some (.v, d)
  | .vabsI32 _ d _ _ => some (.v, d)
  | .vnegI32 _ d _ _ => some (.v, d)
  | .vand _ d _ _ _ => some (.v, d)
  | .vor _ d _ _ _ => some (.v, d)
  | .vxor _ d _ _ _ => some (.v, d)
  | .vandn _ d _ _ _ => some (.v, d)
  | .vnot _ d _ _ => some (.v, d)
  | .vsll _ d _ _ _ => some (.v, d)
  | .vsrl _ d _ _ _ => some (.v, d)
  | .vsra _ d _ _ _ => some (.v, d)
  | .vrol _ d _ _ _ => some (.v, d)
  | .vsllImm _ d _ _ => some (.v, d)
  | .vsrlImm _ d _ _ => some (.v, d)
  | .vsraImm _ d _ _ => some (.v, d)
  | .vrolImm _ d _ _ => some (.v, d)
  | .vsel _ d _ _ _ => some (.v, d)
  | .vdotI8I8 _ d _ _ _ _ => some (.v, d)
  | .vdotN8I8 _ d _ _ _ _ => some (.v, d)
  | .vdotN8N8 _ d _ _ _ _ => some (.v, d)
  | .vcvt _ d _ _ _ _ => some (.v, d)
  | .vcvtSat _ d _ _ _ _ => some (.v, d)
  | .vscaI32 _ d _ _ _ _ => some (.v, d)
  | .vscaF32 _ d _ _ _ _ => some (.v, d)
  | .vsplat _ d _ _ => some (.v, d)
  | .vrotr _ d _ _ => some (.v, d)
  | .vbcr _ d _ _ => some (.v, d)
  | .vrotc _ d _ _ => some (.v, d)
  | .vbcc _ d _ _ => some (.v, d)
  | .vredrSumF32 _ d _ _ => some (.v, d)
  | .vredrMaxF32 _ d _ _ => some (.v, d)
  | .vredrMinF32 _ d _ _ => some (.v, d)
  | .vredrSumI32 _ d _ _ => some (.v, d)
  | .vredrMaxI32 _ d _ _ => some (.v, d)
  | .vredrMinI32 _ d _ _ => some (.v, d)
  | .vredcSumF32 _ d _ _ => some (.v, d)
  | .vredcMaxF32 _ d _ _ => some (.v, d)
  | .vredcMinF32 _ d _ _ => some (.v, d)
  | .vredcSumI32 _ d _ _ => some (.v, d)
  | .vredcMaxI32 _ d _ _ => some (.v, d)
  | .vredcMinI32 _ d _ _ => some (.v, d)
  | .vtr _ d _ _ => some (.v, d)
  | .kand _ d _ _ => some (.k, d)
  | .kor _ d _ _ => some (.k, d)
  | .kxor _ d _ _ => some (.k, d)
  | .kandn _ d _ _ => some (.k, d)
  | .knot _ d _ => some (.k, d)
  | .kmov _ d _ => some (.k, d)
  | .kany _ d _ => some (.p, d)
  | .kall _ d _ => some (.p, d)
  | .vrcpe _ d _ _ => some (.v, d)
  | .vrsqe _ d _ _ => some (.v, d)
  | .vrcps _ d _ _ _ _ => some (.v, d)
  | .vrsqs _ d _ _ _ _ => some (.v, d)
  | .vfexp _ d _ _ => some (.v, d)
  | .vexpi _ d _ _ _ _ => some (.v, d)
  | .vexpxE _ d _ _ => some (.v, d)
  | .vexpxM _ d _ _ => some (.v, d)
  | .vlg2e _ d _ _ => some (.v, d)
  | .vrngN32 _ d _ => some (.v, d)
  | .vrngF32 _ d _ => some (.v, d)
  | .mdrv _ d _ _ => some (.v, d)
  | _ => none
/-- Whether it is one: the constant members are none. -/
def destCounts : File × Nat → Bool
  | (.x, 0) => false | (.p, 0) => false | (.k, 0) => false | _ => true
/-- The destinations that count for R65. -/
def dest (i : Instr) : Option (File × Nat) := (destOf i).filter destCounts
/-- Control transfers (R76, R137). -/
def isTransfer : Instr → Bool
  | .br _ _ => true | .brb _ _ => true | .call _ _ _ => true | .callb _ _ _ => true | .loop _ _ _ => true
  | .mbrChain .. => true | .mbrTree .. => true | _ => false

/-- The word of slot n of bundle i of core k (R89). -/
def State.slotWordAt (s : State) (k i n : Nat) : Nat := s.load (istoreKey k (32 * i + 4 * n)) 4
/-- The eight slots of a bundle, decoded against their maps; after SOFT or BREAK the X slot is a NOP (R144). -/
def State.fetch (s : State) (k : Nat) (c : Core) : List (Nat × Except Ill Instr) :=
  (List.range 8).map fun n =>
    (n, if n = 0 ∧ c.xnop then .ok (.nop Guard.always) else decodeWord (slotClass n) (s.slotWordAt k c.pc n))
/-- The operations of the slots that decode. -/
def goodSlots (l : List (Nat × Except Ill Instr)) : List (Nat × Instr) :=
  l.filterMap fun e => match e.2 with | .ok i => some (e.1, i) | .error _ => none
/-- Whether a bundle's X slot holds a control transfer. -/
def hasTransfer (l : List (Nat × Instr)) : Bool := l.any fun e => e.1 == 0 && isTransfer e.2
/-- The lowest slot charged with ILLEGAL, and its sub-cause (R94). -/
def illegalSlot (c : Core) (l : List (Nat × Except Ill Instr)) : Option (Nat × Nat) :=
  let ok := goodSlots l
  (l.find? fun e => match e.2 with
    | .error _ => true
    | .ok i => (e.1 == 0 && isTransfer i && (c.ct1 || c.ct2))
      || (dest i).any fun d => ok.any fun z => decide (z.1 < e.1) && dest z.2 == some d).map fun e => (e.1, match e.2 with
        | .error y => y.code
        | .ok _ => if e.1 = 0 then 2 else 3)

/-- The registers as they stand before the bundle of this tick. -/
def Core.snapshot (c : Core) : Core :=
  { c with iss := ⟨c.pc, c.dly, c.tgt, c.qn, c.budget, c.ecnt, c.rngctr, c.ct1, c.ct2, c.xnop, c.stHat⟩ }
/-- The BUDGET that is never decremented. -/
def unlimited : Nat := 2 ^ 64 - 1
/-- One bundle or wait tick less (R238). -/
def Core.spend (c : Core) : Core := { c with budget := if c.budget = unlimited then c.budget else c.budget - 1 }
/-- The bundle has issued: it is charged, and the sequencer advances, through the delay bundles of a transfer to its target. -/
def Core.advance (c : Core) (ct : Bool) : Core :=
  let c1 := { c.spend.charge 2 with ct1 := ct, ct2 := c.ct1, xnop := false }
  if c.dly = 0 then { c1 with pc := c.pc + 1 }
  else if c.dly = 1 then { c1 with pc := c.tgt, dly := 0, tgt := 0 }
  else { c1 with pc := c.pc + 1, dly := c.dly - 1 }

/-- BUNDLE_ISSUE (R63, R238): the bundle at PC issues. A core that waits is charged a wait tick in its place, one that has met EXIT
issues nothing, and a DEADLINE of the weight port is taken at this boundary (R221). -/
def execBundleIssue (k : Nat) (s : State) : Out :=
  let c := s.core k
  let t := s.now c
  let s := { s with ops := [], ill := none, cur := ⟨k, 0⟩ }
  if c.st ≠ .running then .next s
  else
    match c.due.find? fun d => d.info.cause == 7 && d.info.slot == 5 && decide (d.h ≤ t) with
    | some d =>
      .next ((s.setCore k { c.freeze t with
        trap := { d.info with pc := c.pc }
        due := c.due.filter fun e => !(e.info.cause == 7 && e.info.slot == 5) }).raiseHalt k 1 t)
    | none =>
      if c.exit.isSome then .next s
      else if c.wait.isSome then .next (s.setCore k (c.spend.charge 1))
      else
        let c0 := c.snapshot
        let s0 := s.setCore k c0
        if c.budget = 0 then .next (s0.takeTrap k 0 6 0)
        else if c.nbundles ≤ c.pc then .next (s0.takeTrap k 0 3 c.pc)
        else
          let l := s.fetch k c
          let c1 := { c0.advance (hasTransfer (goodSlots l)) with issued := (t, c.pc, 0) :: c.issued.filter fun e => decide (t < e.1 + 64) || c.reqs.any fun r => r.t == e.1 }
          .next { s.setCore k c1 with ops := goodSlots l, ill := illegalSlot c l }

/-- WAIT_END (R141): the tick of a time wait has come. -/
def execWaitEnd (k : Nat) (s : State) : Out :=
  let c := s.core k
  match c.wait with
  | some (.until' T) => .next (if T ≤ s.now c then s.setCore k { c with wait := none } else s)
  | _ => .next s

end Sys2Proof.Machine
end

