-- ==== Sys2Proof/Machine/Context.lean ====
section
/-! DEFINITION. The context commands and the life of a context: R229 to R236, R246, R249 to R254. -/
namespace Sys2Proof.Machine

/-! ## The context control block (R231, Table 10.2) -/

/-- Whether a CCB is valid: reserved bytes zero and LATE 0 or 1. -/
def ccbOk (x : Nat) : Bool :=
  field x 127 72 == 0 && field x 255 208 == 0 && field x 319 288 == 0 && field x 527 520 == 0 && x / 2 ^ 544 == 0
  && decide (field x 71 64 ≤ 1)
/-- Read the CCB at an address for a context: aligned, in granules of the context (R356), and valid. -/
def State.readCcb (s : State) (q : Part) (asid addr : Nat) : Option Nat :=
  if addr % 256 = 0 then (s.devRecord q asid addr 256).filter ccbOk else none
/-- STATE codes of Table 10.2. -/
def CtxSt.code : CtxSt → Nat
  | .free => 0 | .creating => 1 | .ready => 2 | .active => 3 | .halted => 4 | .saved => 5 | .teardown => 6 | .scrubbing => 7
/-- Write the RO fields of a context's CCB, when the ownership check lets the stationmaster (R356). -/
def State.writeCcb (s : State) (p a : Nat) (x : Ctx) (st : CtxSt) : State :=
  let q := s.part p
  if !s.devOwned q a x.ccb 256 then s else ((((s.devStore q (x.ccb + 0x30) 8 x.ctoff).devStore q (x.ccb + 0x38) 8 x.energy).devStore q (x.ccb + 0x40) 1 st.code).devStore q
    (x.ccb + 0x42) 2 a)

/-! ## Commands (R232) -/

/-- The 16 bytes of a completion. -/
def ctxWord (tag status asid : Nat) : BitVec 128 := BitVec.ofNat 128 (asid % 2 ^ 16 * 2 ^ 80 + status % 256 * 2 ^ 64 + tag % 2 ^ 64)
/-- Write a completion of the context command ring; the spec does not say where the ring lies (log entry 25). -/
def State.ctxComplete (s : State) (p tag status asid : Nat) : State :=
  s.modPart p fun q => { q with ctxDone := q.ctxDone ++ [ctxWord tag status asid] }
/-- A context command with code `cmd`, as the leader of queue 0 takes it (Machine/Run.lean) while the interface is in RUN and its stream stands: else the guest reaches no ring
(R399, R400, log entry 33). BAD-RECORD for another CMD or a reserved field, else what `f` does. -/
def ctxCommand (p cmd : Nat) (rec : CtxRecord) (argOk : Bool) (f : Part → State) (s : State) : Out :=
  .next (withPart s p fun q =>
    if q.tdisp ≠ .run ∨ q.ide = false then s
    else if rec.cmd ≠ cmd ∨ rec.rsv ≠ 0 ∨ 1 < rec.flags ∨ argOk = false then s.ctxComplete p rec.tag 4 rec.asid else f q)
/-- The lowest free ASID of the pool (R233). -/
def Part.freeAsid (q : Part) : Option Nat :=
  ((List.range q.poolN).map (q.pool0 + ·)).find? fun a => (Tab.find q.ctxs a).isNone
/-- The tenant's sealing secret, and the sealing key of a context (R234, Table 20.2). -/
def sealingSecret (tenant : Nat) : BitVec 256 :=
  Config.hkdf (leBytes 48 Config.deviceSecret.toNat) [] (ascii "TL8800-tseal" ++ leBytes 48 tenant)
def sealingKey (tenant sdom : Nat) : BitVec 256 :=
  Config.hkdf (leBytes 32 (sealingSecret tenant).toNat) [] (ascii "ctx" ++ leBytes 8 sdom)
/-- A context just created from its CCB. -/
def newCtx (q : Part) (rec : CtxRecord) (x : Nat) : Ctx where
  st := .creating
  ctoff := 0
  ccb := rec.arg
  sdom := field x 63 0
  sealKey := sealingKey q.tenantid (field x 63 0)
  strict := field x 71 64 == 1
  refill := field x 191 128
  rcount := field x 207 192
  savetid := field x 287 256
  evring := field x 383 320
  energy := 0
  prot := rec.flags == 1
  tag := rec.tag
  events := []
  stops := []
  saved := []
  savedUnits := []
  savedMem := []
  savedLaunches := []
  savedEvents := []
  saveVer := 0
  halt := none
  armed := none
  yielded := false
  boundary := none
  resumeP := none
  spoiled := false
  cores := []
  suspects := []
  lateEvents := 0
  sats := []
  log := []

/-- CREATE (R229, R232, R402, R407): without a tenant BAD-STATE, and of a protected context while debug is UNLOCKED BUSY. The CCB is a record of the context that is to be, so
its granules must be the allocated ASID's (R356; log entry 25). -/
def execCreate (p : Nat) (rec : CtxRecord) (s : State) : Out :=
  ctxCommand p 1 rec true (fun q =>
    if q.tenantid = 0 then s.ctxComplete p rec.tag 3 0
    else if rec.flags = 1 ∧ q.unlocked then s.ctxComplete p rec.tag 1 0
    else
      match q.freeAsid with
      | none => s.ctxComplete p rec.tag 2 0
      | some a =>
        let s := s.meetRecord q rec.arg 256
        match s.readCcb q a rec.arg with
        | none => s.ctxComplete p rec.tag 4 0
        | some x =>
          (s.modPart p fun q => { q with ctxs := Tab.put q.ctxs a (newCtx q rec x) }).later (20480 + a) (.contextCreateComplete p a)) s
/-- CONTEXT_CREATE_COMPLETE (R229, R251). -/
def execContextCreateComplete (p asid : Nat) (s : State) : Out :=
  match s.ctx p asid with
  | none => .next s
  | some x =>
    if x.st ≠ .creating then .next s
    else if (s.saveTensor p asid x).isSome then
      .next (((s.pinTensor p asid x.savetid).1.modCtx p asid fun y => { y with st := .ready }).ctxComplete p x.tag 0 asid)
    else .next (((s.writeCcb p asid x .free).modPart p fun q => { q with ctxs := Tab.del q.ctxs asid }).ctxComplete p x.tag 4 asid)

/-- POLICY (Table 10.4): LATE, REFILL and RCOUNT are read again. -/
def execPolicy (p : Nat) (rec : CtxRecord) (s : State) : Out :=
  ctxCommand p 5 rec (rec.arg == 0) (fun q =>
    match s.ctx p rec.asid with
    | none => s.ctxComplete p rec.tag 3 rec.asid
    | some y =>
      if y.st = .ready ∨ y.st = .active ∨ y.st = .halted ∨ y.st = .saved then
        let s := s.meetRecord q y.ccb 256
        match s.readCcb q rec.asid y.ccb with
        | none => s.ctxComplete p rec.tag 4 rec.asid
        | some x =>
          (s.modCtx p rec.asid fun y =>
            { y with strict := field x 71 64 == 1, refill := field x 191 128, rcount := field x 207 192 }).ctxComplete p rec.tag 0 rec.asid
      else s.ctxComplete p rec.tag 3 rec.asid) s

/-- DESTROY (R252). -/
def execDestroy (p : Nat) (rec : CtxRecord) (s : State) : Out :=
  ctxCommand p 2 rec (rec.arg == 0) (fun _ =>
    match s.ctx p rec.asid with
    | none => s.ctxComplete p rec.tag 3 rec.asid
    | some y =>
      if y.st = .ready ∨ y.st = .active ∨ y.st = .halted ∨ y.st = .saved then
        (s.teardown p rec.asid).ctxComplete p rec.tag 0 rec.asid
      else s.ctxComplete p rec.tag 3 rec.asid) s

/-! ## Pre-emption (R249, R250) -/

/-- PREEMPT (R230, R249): arms an ACTIVE context at its present tick; a HALTED one goes to its save. -/
def execPreempt (p : Nat) (rec : CtxRecord) (s : State) : Out :=
  ctxCommand p 3 rec (rec.arg == 0) (fun q =>
    match s.ctx p rec.asid with
    | none => s.ctxComplete p rec.tag 3 rec.asid
    | some y =>
      if y.st = .active then
        (s.modCtx p rec.asid fun y =>
          if y.armed.isSome then y else { y with armed := some (q.stime - y.ctoff), yielded := false }).ctxComplete p rec.tag 0 rec.asid
      else if y.st = .halted then
        ((s.modCtx p rec.asid fun y => { y with armed := some (q.stime - y.ctoff) }).later (4096 + rec.asid) (.saveCommit p rec.asid)).ctxComplete p
          rec.tag 0 rec.asid
      else s.ctxComplete p rec.tag 3 rec.asid) s

/-- The positions of a context, those that have left by EXIT among them. -/
def State.positions (s : State) (p a : Nat) : List Nat := s.coresOf p a fun _ => true
/-- Whether every matrix unit with commands of the context is between commands at tick b (R203, R249). -/
def State.betweenCommands (s : State) (p a b : Nat) : Bool :=
  (s.positions p a).all fun k => (s.core k).cmds.all fun y => !(decide (y.s < b) && decide (b < y.c))
/-- PREEMPT_BOUNDARY (R249): the first tick at which an armed pre-emption may take its boundary raises hold cause 4. -/
def execPreemptBoundary (p asid : Nat) (s : State) : Out :=
  match s.ctx p asid with
  | none => .next s
  | some x =>
    match x.armed, x.boundary with
    | some a, none =>
      let b := (s.part p).stime - x.ctoff
      let ready := (decide (a + 2048 ≤ b) || (x.yielded && decide (a < b))) && s.betweenCommands p asid b
      if x.st = .active ∧ a ≤ b ∧ (ready ∨ a + 4096 ≤ b) then
        .next ((s.raiseHold p 4 (preTag asid)).modCtx p asid fun y => { y with boundary := some b })
      else .next s
    | _, _ => .next s

/-- Core position k cleared to IDLE (Table 3.9): its registers and streams; copies are numbered on. -/
def Core.cleared (c : Core) : Core :=
  { Core.reset with
    st := if c.st = .fenced then .fenced else .idle
    pcol := c.pcol
    seq := c.seq
    ca := { Stream.reset with nextId := c.ca.nextId }
    cb := { Stream.reset with nextId := c.cb.nextId } }
/-- Clear positions to IDLE, their matrix units with them. -/
def State.clearCores (s : State) (ks : List Nat) : State :=
  ks.foldl (fun s k => (s.setCore k (s.core k).cleared).modUnit (unitOf k) fun _ => MUnit.reset) s
/-- Zero the scratchpads of positions. -/
def State.clearPads (s : State) (ks : List Nat) : State :=
  { s with mem := s.mem.filter fun e => !(decide (e.1 < 2 ^ 40) && ks.contains (e.1 / 2 ^ 21)) }
/-- The core whose stream an event of wall time concerns. -/
def Ev.streamCore : Ev → Option Nat
  | .beatPresent c _ _ _ => some c
  | .copyFault c _ _ _ _ _ => some c
  | .walkComplete c _ _ _ _ => some c
  | _ => none
/-- Clear the holds that beats of positions have raised (R29): their beats are fetched, looked up and walked for no more. -/
def State.clearBeatHolds (s : State) (p : Nat) (ks : List Nat) : State :=
  s.modPart p fun q => q.clearHold s.wtime fun r => decide (2 ^ 62 ≤ r.tag) && ks.contains (r.tag % 4096)
/-- Drop the events of wall time of positions. -/
def State.dropStreamEvents (s : State) (ks : List Nat) : State :=
  { s with
    events := s.events.filter fun e => !(e.2.streamCore.any ks.contains)
    outq := s.outq.filter fun o => !ks.contains o.core }

/-! ### The save area (R251, Table 10.11) -/

/-- Write the core block of position k, but for its opaque areas and its zeros. -/
def State.saveCore (q : Part) (b : RangeBind) (stops : Tab StopRec) (s : State) (k : Nat) : State :=
  let c := (s.core k).snapshot
  let o := blockAt q k c
  let put := fun (s : State) (n len v : Nat) => if v = 0 then s else s.saveAt q b (o + n) (leBytes len v)
  let s1 := (s.mem.filter fun e => decide (e.1 < 2 ^ 40) && e.1 / 2 ^ 21 == k).foldl (fun s e => put s (e.1 % 2 ^ 21) 1 e.2.toNat) s
  let s2 := c.v.foldl (fun s e => put s (0x200000 + 256 * e.1) 256 e.2.toNat) s1
  let s3 := c.z.foldl (fun s e => put s (0x220000 + 512 * e.1) 512 e.2.toNat) s2
  let prog := fun (x : Stream) (at' : Nat) (s : State) => (List.range 1024).foldl (fun s i =>
    put s (at' + 8 * i) 8 (Tab.get (copyReset (i % 64)) x.progs i).toNat) s
  let s4 := prog c.cb 0x294000 (prog c.ca 0x290000 s3)
  let s5 := c.x.foldl (fun s e => put s (0x2A0000 + 8 * e.1) 8 e.2.toNat) s4
  let s6 := c.b.foldl (fun s e => put s (0x2A0100 + 8 * e.1) 8 e.2.toNat) s5
  let s7 := c.q.foldl (fun s e => put s (0x2A0120 + 16 * e.1) 16 e.2.toNat) s6
  let s8 := put s7 0x2A0160 8 (c.p ||| 1).toNat
  let s9 := (List.range 128).foldl (fun s i =>
    put s (0x2A0200 + 8 * i) 8 (if i < 16 then 2 ^ 64 - 1 else (Tab.get (0 : MaskRow) c.k i).toNat)) s8
  let regs := [seqOf c, trapinfoOf c.trap, c.fpflags.toNat, c.rngkey.toNat, c.rngctr.toNat, c.budget, c.ecnt, leaseOf s k c]
  let s10 := ((List.range 8).zip regs).foldl (fun s e => put s (0x2A0600 + 8 * e.1) 8 e.2) s9
  let s11 := (List.range 25).foldl (fun s i => put s (0x2A0640 + 4 * i) 4 (creg c.shadow i)) s10
  match Tab.find stops k with
  | some r => put s11 0x2A1000 64 (stopRecordOf c.die r)
  | none => s11
/-- Where a cell of device memory lies. -/
def cellPlace (a : Nat) : Option (Bool × Nat × Nat) :=
  if a < 2 ^ 40 then none
  else if a < 2 ^ 44 then some (true, (a - 2 ^ 40) / 2 ^ 31, (a - 2 ^ 40) % 2 ^ 31)
  else if a < 2 ^ 48 then some (false, (a - 2 ^ 44) / 2 ^ 36, (a - 2 ^ 44) % 2 ^ 36) else none
/-- Whether a cell belongs to a bound tensor. -/
def RangeBind.hasCell (b : RangeBind) (q : Part) (a : Nat) : Bool :=
  (cellPlace a).any fun l => (b.offsetOf q l.1 l.2.1 l.2.2).isSome
/-- Granules of a tensor: those of its pages of 4 KiB, which lie in turn on the dies under HASHED placement (R346). -/
def RangeBind.granuleCount (b : RangeBind) (q : Part) : Nat :=
  let k := if b.hashed then 2 ^ q.logN else 1
  let n := (b.limit + 4095) / 4096
  let first := b.dev 0 / 4096 / k
  let whole := n / k
  (if whole = 0 then 0 else k * ((first + whole - 1) / 16 - first / 16 + 1)) + (if whole = 0 ∨ (first + whole) % 16 = 0 then n % k else 0)
/-- Whether a granule of an ownership key holds a page of a tensor. -/
def RangeBind.hasGranule (b : RangeBind) (q : Part) (key : Nat) : Bool :=
  (List.range 16).any fun j => (b.offsetOf q (key / 2 ^ 20 % 2 == 1) (key / 2 ^ 21) (key % 2 ^ 20 * 65536 + 4096 * j)).isSome
/-- Whether the ownership check lets the stationmaster write every granule of a context's tensor (R356). -/
def State.tensorGranted (s : State) (q : Part) (b : RangeBind) : Bool :=
  (s.owns.filter fun e => masterMay e.2 b.asid && b.hasGranule q e.1).length == b.granuleCount q
/-- Write the save area whole within one epoch, and commit it (R250): the tensor as one cover, zeros where the core blocks hold none. A byte of a line that a launch which
has not retired has met is free (R316). -/
def State.writeSave (s : State) (p : Nat) (b : RangeBind) (stops : Tab StopRec) (ks : List Nat) : State :=
  let q := s.part p
  let r := (s.recOf p b).openAt q.gen
  let cover : Cover := ⟨p, b, ⟨b.tid, r.ever, r.egen, 0, 0, false⟩, [], s.epoch * 4096 + b.asid⟩
  let s1 := { s with
    mem := s.mem.filter fun e => !(b.hasCell q e.1)
    stamps := s.stamps.filter fun e => b.station || (b.offsetOf q false (e.1 / 2 ^ 30) (e.1 % 2 ^ 30 * 64)).isNone
    covers := cover :: s.covers.filter fun c => !(c.part == p && c.bind.tid == b.tid) }
  let lines := fun (e : Nat × Launch) => e.2.met.map fun m => 64 * m.1
  let met := ((q.launches.flatMap lines) ++ q.ctxs.flatMap fun (x : Nat × Ctx) => x.2.savedLaunches.flatMap lines).filter (b.hasCell q)
  let s0 := ks.foldl (State.saveCore q b stops) s1
  let s2 := met.foldl (fun s a => s.masterBytes q a (s.bytes a 64)) s0
  (s2.setVrec q (q.pdie b.home) b.tid ({ r with cov := b.limit / 64 }.commit b.limit)).modPart p fun q =>
    { q with digests := q.digests.filter fun d => !(d.bind.tid == b.tid && d.asid == b.asid) }

/-- Charge a core the wall ticks of residency not yet in its meter (R241, R420). -/
def Core.fold (c : Core) : Core := { c with ecnt := addEnergy c.ecnt c.stat, stat := 0 }
/-- The save or the restore of a save area is the patrol read of its lines (R364): the uncorrectable ones among them count. -/
def State.patrolSave (s : State) (q : Part) (b : RangeBind) : State :=
  if b.station then s
  else (s.stamps.filter fun e => e.2.bad && (b.offsetOf q false (e.1 / 2 ^ 30) (e.1 % 2 ^ 30 * 64)).isSome).foldl (fun s e => s.countError (e.1 / 2 ^ 30) (e.1 % 2 ^ 30) 2) s
/-- The cores whose meters have saturated: their SAT stays set for the life of the context (R240, R423; log entry 19). -/
def Ctx.keepSat (x : Ctx) (k : Nat) (c : Core) : Ctx := if 2 ^ 63 ≤ c.ecnt ∧ !x.sats.contains k then { x with sats := k :: x.sats } else x
/-- SAVE_COMMIT (R250): the save area is written and committed, the cores are cleared to IDLE and cause 4 clears. A save tensor whose epoch
cannot open, or whose granules refuse the stationmaster, tears the context down. A member that had left by EXIT stays one of its launch, which has not retired (R268, R294). A halt that is still to take
effect does so in the context's time, after its resume (R33, R244). -/
def execSaveCommit (p asid : Nat) (s0 : State) : Out :=
  let s := (s0.positions p asid).foldl (fun s k => s.modCore k Core.fold) s0
  match s.ctx p asid with
  | none => .next s0
  | some x =>
    if x.st ≠ .active ∧ x.st ≠ .halted ∨ !(s.coresOf p asid fun y => y == .running || y == .held).isEmpty then .next s0
    else
      match (s.saveTensor p asid x).filter fun b => (s.recOf p b).opens b p && s.tensorGranted (s.part p) b with
      | none => .next (s.teardown p asid)
      | some b =>
        let ks := s.positions p asid
        let us := ks.foldl (fun t k => Tab.put t (unitOf k) (s.unit (unitOf k))) ([] : Tab MUnit)
        let mine := fun (e : Host.Cell) => decide (e.1 < 2 ^ 40) && ks.contains (e.1 / 2 ^ 21)
        let ver := ((s.recOf p b).openAt 0).ever
        let s1 := ((s.patrolSave (s.part p) b).writeSave p b x.stops ks).modCtx p asid fun y0 =>
          let y := ks.foldl (fun y k => y.keepSat k (s.core k)) y0
          { y with
          st := .saved
          armed := none
          boundary := none
          halt := (x.halt.filter fun y => decide (0 < y.h)).map fun y => { y with h := y.h - x.ctoff }
          resumeP := none
          energy := ks.foldl (fun n k => addEnergy n ((s.core k).ecnt % 2 ^ 48)) y.energy
          saved := ks.foldl (fun t k => Tab.put t k (s.core k)) []
          savedUnits := us
          savedMem := s.mem.filter mine
          savedLaunches := (s.part p).launches.filter fun l => l.2.asid == asid
          savedEvents := (s.events.filter fun e => e.2.streamCore.any ks.contains).map (·.2)
          saveVer := ver }
        let s2 := s1.modPart p fun q => { q with
          launches := q.launches.filter fun l => !(l.2.asid == asid)
          reqs := q.reqs.filter fun r => !(r.tag == haltTag asid) }
        let s3 := (((s2.dropStreamEvents ks).clearBeatHolds p ks).clearPads ks).clearCores ks
        let s4 := (ks.filter fun k => (s.core k).gone).foldl (fun s1 k => s1.modCore k fun c =>
          let d := s.core k
          { c with part := d.part, asid := d.asid, die := d.die, launch := d.launch, exit := d.exit }) s3
        .next (s4.clearHold p 4 (preTag asid))

/-! ## Resume (R246) -/

/-- Whether the save area stands as its save left it: committed under the version of the save, and no line written since (R251). -/
def State.saveIntact (s : State) (p a : Nat) (x : Ctx) : Bool :=
  match s.saveTensor p a x with
  | none => false
  | some b =>
    let r := s.recOf p b
    let q := s.part p
    r.st == .closed && r.ver == x.saveVer && (s.covers.any fun c => c.part == p && c.bind == b && c.except == [])
    && (b.station || s.stamps.all fun e => (b.offsetOf q false (e.1 / 2 ^ 30) (e.1 % 2 ^ 30 * 64)).isNone)
/-- Whether a position is free for a saved context to return to: IDLE, and of no launch (R228, R246). -/
def State.coreFree (s : State) (k : Nat) : Bool :=
  let c := s.core k
  c.st == .idle && c.exit.isNone
/-- Whether a position is free for context a to return to: one of its own that had left by EXIT is (R268, R294). -/
def State.coreFreeFor (s : State) (p a k : Nat) : Bool :=
  let c := s.core k
  s.coreFree k || (c.gone && c.part == p && c.asid == a)
/-- Write the non-zero bytes of a list from a key upwards. -/
def State.loadBytes (s : State) (key : Nat) : List Byte → State
  | [] => s
  | v :: t => (if v = 0 then s else s.setByte key v).loadBytes (key + 1) t
/-- The bytes of an image. -/
def State.imageBytes (s : State) (q : Part) (image off n : Nat) : List Byte := (List.range n).map fun i => s.devByte q (image + off + i)
/-- Load the instruction store of a saved position again from the sealed code pages of its launch (R246). -/
def State.reload (p : Nat) (ls : Tab Launch) (s : State) (e : Nat × Core) : State :=
  match Tab.find ls e.2.launch with
  | none => s
  | some l =>
    let s := s.meetRecord (s.part p) (l.image + 0x100) (32 * e.2.nbundles)
    ({ s with mem := s.mem.filter fun b => !(decide (2 ^ 48 ≤ b.1) && (b.1 - 2 ^ 48) / 2 ^ 18 == e.1) }).loadBytes (istoreKey e.1 0)
      (s.imageBytes (s.part p) l.image 0x100 (32 * e.2.nbundles))
/-- Put the cores, units, launches and scratchpads of a saved context back, and load its instruction stores again. -/
def State.restore (s0 : State) (p a : Nat) (x : Ctx) : State :=
  let s := match s0.saveTensor p a x with | some b => s0.patrolSave (s0.part p) b | none => s0
  let put := fun (s : State) (e : Nat × Core) =>
    let old := s.core e.1
    let next := fun (y z : Stream) => { y with nextId := max y.nextId z.nextId, tlb := [] }
    s.setCore e.1 { e.2 with st := if e.2.st = .halted then .bound else e.2.st, seq := max e.2.seq old.seq, ca := next e.2.ca old.ca, cb := next e.2.cb old.cb }
  let s1 := x.saved.foldl put (s.clearPads (x.saved.map (·.1)))
  let s2 := x.savedUnits.foldl (fun s e => s.modUnit e.1 fun _ => e.2) s1
  let s3 := x.saved.foldl (State.reload p x.savedLaunches) (x.savedMem.foldl (fun s e => s.setByte e.1 e.2) s2)
  let s4 := s3.modPart p fun q => { q with launches := x.savedLaunches.foldl (fun t e => Tab.put t e.1 e.2) q.launches }
  let s5 := ((List.range x.savedEvents.length).zip x.savedEvents).foldl (fun s e => s.later (2 ^ 37 + e.1) e.2) s4
  s5.modCtx p a fun y => { y with saved := [], savedUnits := [], savedMem := [], savedLaunches := [], savedEvents := [] }

/-- RESUME (R246): BAD-STATE for a tick nearer than 1,024 or a state that resumes from nothing, BUSY while the rectangle of a saved context
is in use; a save area written since its save, or an image of it that its loader can read no more (R246, R354, R356; log entry 28), tears the context down (R251). -/
def execResume (p : Nat) (rec : CtxRecord) (s : State) : Out :=
  ctxCommand p 4 rec true (fun q =>
    match s.ctx p rec.asid with
    | none => s.ctxComplete p rec.tag 3 rec.asid
    | some x =>
      if x.st ≠ .halted ∧ x.st ≠ .saved ∨ rec.arg < q.stime + 1024 then s.ctxComplete p rec.tag 3 rec.asid
      else if x.st = .halted then (s.resumeHalted p rec.asid rec.arg).ctxComplete p rec.tag 0 rec.asid
      else if !(x.saved.all fun e => s.coreFreeFor p rec.asid e.1) then s.ctxComplete p rec.tag 1 rec.asid
      else if x.spoiled ∨ !(s.saveIntact p rec.asid x)
          ∨ !(x.savedLaunches.all fun l => s.loaderReads q rec.asid l.2.image (max 256 (imLen (s.devLoad q l.2.image 256)))) then
        let s1 := match s.saveTensor p rec.asid x with | some b => s.patrolSave q b | none => s
        (s1.teardown p rec.asid).ctxComplete p rec.tag 0 rec.asid
      else ((s.restore p rec.asid x).acceptResume p rec.asid rec.arg).ctxComplete p rec.tag 0 rec.asid) s

/-! ## Teardown and scrub (R252, R254) -/

/-- TEARDOWN_COMPLETE (R252, R254): beats in flight and launches are discarded, and every core of the context is cleared to IDLE; its scratchpad and matrix unit
are zeroed, and with them those of cores that it held in earlier launches and that nothing has been bound to since. Scrub begins. -/
def execTeardownComplete (p asid : Nat) (s : State) : Out :=
  match s.ctx p asid with
  | none => .next s
  | some x =>
    if x.st ≠ .teardown then .next s
    else
      let own := s.positions p asid
      let ks := own ++ x.cores.filter fun k => !own.contains k && s.coreFree k
      let s1 := s.modPart p fun q => { q with
        launches := q.launches.filter fun l => !(l.2.asid == asid)
        inbound := q.inbound.filter fun e => !((s.peer p e.peer).asid == asid) }
      let s2 := (((s1.dropStreamEvents ks).clearBeatHolds p ks).clearPads ks).clearCores ks
      let tested := x.suspects.foldl (fun s e =>
        s.within (2 ^ 27 + 2 ^ 20 * asid + s.events.length) Config.testTime (.builtinTestComplete e.1 e.2 (Config.free (2 ^ 20 + 3) (s.epoch * 2 ^ 60 + 2 ^ 59 + asid * 2 ^ 43 + e.1 * 2 ^ 40 + e.2) % 2 == 1))) s2
      let rest := if x.suspects = [] then 0 else Config.testTime
      .next ((tested.modCtx p asid fun y => { y with
        st := .scrubbing
        suspects := []
        saved := []
        savedUnits := []
        savedMem := []
        savedLaunches := []
        savedEvents := []
        stops := [] }).laterBy rest (28672 + asid) (.contextScrubComplete p asid))

/-- Zero every granule whose ownership entry names an ASID, and release the entries (R254, R355). -/
def State.scrubMemory (s : State) (asid : Nat) : State :=
  let named := fun (st : Bool) (pd off : Nat) => let o := s.own st pd off; o.v && o.asid == asid
  { s with
    mem := s.mem.filter fun e => !((cellPlace e.1).any fun l => named l.1 l.2.1 l.2.2)
    stamps := s.stamps.filter fun e => !(named false (e.1 / 2 ^ 30) (e.1 % 2 ^ 30 * 64))
    covers := s.covers.filter fun c => !(c.bind.asid == asid)
    owns := (s.owns.map fun (e : Nat × Own) => if e.2.v ∧ e.2.asid = asid then (e.1, { Own.reset with unusable := e.2.unusable }) else e).filter
      fun e => e.2 != Own.reset }
/-- Remove the translation and range entries of an ASID from a stream. -/
def Stream.forget (x : Stream) (asid : Nat) : Stream :=
  { x with tlb := x.tlb.filter fun e => !(e.asid == asid), rb := x.rb.filter fun e => !(e.2.asid == asid) }
/-- CONTEXT_SCRUB_COMPLETE (R254): the context's memory reads zero, its entries are gone, and its ASID returns to the pool. -/
def execContextScrubComplete (p asid : Nat) (s : State) : Out :=
  match s.ctx p asid with
  | none => .next s
  | some x =>
    if x.st ≠ .scrubbing then .next s
    else
      let s1 := (s.writeCcb p asid x .free).scrubMemory asid
      let s2 := (s1.vrecs.filter fun e => e.2.part == p && e.2.asid == asid && e.2.st != .invalid).foldl (fun s e =>
        s.setVrec (s.part p) (e.1 / 2 ^ 18) e.2.tid { VRec.reset with next := e.2.next }) s1
      let s3 := { s2 with cores := s2.cores.map fun (e : Nat × Core) =>
        (e.1, { e.2 with ca := e.2.ca.forget asid, cb := e.2.cb.forget asid }) }
      .next (s3.modPart p fun q => { q with
        ctxs := Tab.del q.ctxs asid
        unread := q.unread.filter fun u => u.2.1 != asid
        kernels := q.kernels.filter fun e => !(e.2.asid == asid)
        digests := q.digests.filter fun d => !(d.asid == asid)
        manifest := { q.manifest with
          loaded := Tab.del q.manifest.loaded asid
          todo := q.manifest.todo.filter fun e => e.1 != asid
          poison := if q.manifest.cur = asid then 0 else q.manifest.poison
          st := if q.manifest.cur = asid ∧ q.manifest.st = 1 then 3 else q.manifest.st } })

end Sys2Proof.Machine
end

