-- ==== Sys2Proof/Machine/Queue.lean ====
section
/-! DEFINITION. Queues and their leaders (R260 to R271), and the launches that a batch of claims binds (R268, R269, R272 to R277). -/
namespace Sys2Proof.Machine

/-! ## Queues (R260 to R262) -/

def Part.queue (q : Part) (n : Nat) : Queue := (Tab.find q.queues n).getD Queue.reset
/-- Change queue n, one of 256. -/
def State.modQueue (s : State) (p n : Nat) (f : Queue → Queue) : State :=
  s.modPart p fun q => if n < 256 then { q with queues := Tab.put q.queues n (f (q.queue n)) } else q
/-- What a selection reads of a queue (R262). -/
def Queue.regs (u : Queue) : QueueRegs := ⟨u.base, u.asid, u.log2n, u.prio, u.tail, u.st⟩
/-- The registers of a queue as they stood at the start of tick x, for a selection at it. -/
def Queue.seen (u : Queue) (x : Nat) : QueueRegs := if u.wrAt = some x then u.was else u.regs
/-- Change queue n by a register write that arrives at the present tick. -/
def State.writeQueue (s : State) (p n : Nat) (f : Queue → Queue) : State :=
  let x := (s.part p).stime
  s.modQueue p n fun u => { f u with was := u.seen x, wrAt := some x }
/-- EMPTY becomes READY when a record is published; a READY queue stays READY whatever QTAIL reads (Table 11.3). -/
def Queue.refresh (u : Queue) : Queue := if u.st = .empty ∧ u.tail ≠ u.head then { u with st := .ready } else u
/-- A queue whose head record has been consumed: READY or EMPTY. -/
def Queue.consumed (u : Queue) : Queue :=
  let h := (u.head + 1) % 65536
  { u with head := h, host := if u.tail = h then [] else u.host, st := if u.st = .ready ∨ u.st = .selected then (if u.tail = h then .empty else .ready) else u.st }
/-- Host accesses since record i of a queue was published: QTAIL had passed it (R319). -/
def Queue.hostSince (u : Queue) (i : Nat) : List (Nat × Bool) :=
  (u.host.filter fun e => decide (1 ≤ (e.2.2 + 65536 - i % 65536) % 65536) && decide ((e.2.2 + 65536 - i % 65536) % 65536 ≤ 32768)).map fun e => (e.1, e.2.1)
/-- A leader selects from a READY queue at a tick that the spec leaves open: after a free wall time. -/
def State.selectLater (s : State) (p n : Nat) : State :=
  if ((s.part p).queue n).st = .ready then s.later (2 ^ 21 + 256 * p + n) (.queueSelect p n) else s

/-- Whether die index d may lead (R265). -/
def State.eligible (s : State) (q : Part) (d : Nat) : Bool :=
  let y := s.die (q.pdie d)
  !y.inReset && !q.draining.contains d && !y.thermal
/-- The leader of queue n: the first eligible die from n mod the die count on (R265). -/
def State.leader (s : State) (q : Part) (n : Nat) : Option Nat :=
  let m := q.dies.length
  ((List.range m).map fun i => (n + i) % m).find? (s.eligible q)

/-- Whether a claim of a queue is unresolved; a graph's claims are not its queue's (R284). -/
def Part.claimed (q : Part) (n : Nat) : Bool := q.claims.any fun c => c.queue == n && c.graph.isNone
/-- A queue with the RW fields of a write of QCFG, but for EN (Table 11.1). -/
def Queue.withCfg (u : Queue) (cfg : Nat) : Queue := { u with asid := field cfg 43 32, log2n := field cfg 12 8, prio := field cfg 3 0 }
/-- A write of QCFG with EN 1 (R262). -/
def State.enableQueue (s : State) (p : Nat) (q : Part) (n cfg : Nat) : State :=
  let u := (q.queue n).withCfg cfg
  if (q.queue n).st = .off then
    if ((Tab.find q.ctxs u.asid).any fun x => x.st == .ready || x.st == .active) ∧ 4 ≤ u.log2n ∧ u.log2n ≤ 12 then
      (s.writeQueue p n fun _ => ({ u with en := true, st := .empty, err := 0 } : Queue).refresh).selectLater p n
    else s.writeQueue p n fun _ => { u with en := false, err := 1 }
  else s.writeQueue p n fun _ => u
/-- A write of QCFG with EN 0 (R262). -/
def State.disableQueue (s : State) (p : Nat) (q : Part) (n cfg : Nat) : State :=
  let u := { (q.queue n).withCfg cfg with en := false }
  s.writeQueue p n fun _ =>
    match u.st with
    | .off => u
    | .faulted => { u with st := .off }
    | _ => { u with st := if q.claimed n then .draining else .off }
/-- A write of QTAIL (R261): the host's writes that no read of the function has followed are not ordered before what it publishes (R319), but for the records of the ring
themselves, which the leader reads. -/
def State.writeTail (s : State) (p n v : Nat) : State :=
  let q := s.part p
  let u := q.queue n
  let own := fun (key : Nat) => (List.range (2 ^ u.log2n)).any fun i => q.hostKey (u.base + 64 * i) / 64 == key / 64
  let late := (q.unflushed.filter fun key => !own key).map fun key => (key, true, v % 65536)
  (s.writeQueue p n fun u => ({ u with tail := v % 65536, host := late ++ u.host } : Queue).refresh).selectLater p n
/-- QUEUE_ENABLE (R262). -/
def execQueueEnable (p n cfg : Nat) (s : State) : Out := .next (withVf s p fun q => s.enableQueue p q n cfg)
/-- QUEUE_DISABLE (R262). -/
def execQueueDisable (p : Nat) (w : QcfgWrite) (s : State) : Out := .next (withVf s p fun q => s.disableQueue p q w.queue w.cfg)
/-- QTAIL_WRITE (R261). -/
def execQtailWrite (p n v : Nat) (s : State) : Out := .next (withVf s p fun _ => s.writeTail p n v)
/-- DIE_DRAIN (R265, R271). -/
def execDieDrain (p d : Nat) (on : Bool) (s : State) : Out :=
  .next (s.modPart p fun q =>
    let rest := q.draining.filter (· != d)
    { q with draining := if on then d :: rest else rest })

/-! ## Rectangles (R288) -/

def sizeOk (gw gh : Nat) : Bool :=
  gw % 2 == 0 && decide (2 ≤ gw) && decide (gw ≤ 32) && gh % 2 == 0 && decide (2 ≤ gh) && decide (gh ≤ 64)
def Part.placeOk (q : Part) (gx gy gw gh : Nat) : Bool :=
  gx % 2 == 0 && gy % 2 == 0 && decide (gx + gw ≤ gridW q.dies.length) && decide (gy + gh ≤ gridH q.dies.length)
/-- The aligned positions of a rectangle, by increasing row and then column. -/
def Part.places (q : Part) (gw gh : Nat) : List (Nat × Nat) :=
  (List.range (gridH q.dies.length)).flatMap fun gy =>
    (List.range (gridW q.dies.length)).filterMap fun gx => if q.placeOk gx gy gw gh then some (gx, gy) else none
/-- Whether a rectangle holds a fenced core. -/
def State.hasFence (s : State) (q : Part) (gx gy gw gh : Nat) : Bool :=
  (q.rectMembers gx gy gw gh).any fun k => (s.core k).st == .fenced
/-- The checks of a rectangle at selection: status 1, 3, or none (R278). -/
def State.rectStatus (s : State) (q : Part) (any' : Bool) (gx gy gw gh : Nat) : Option Nat :=
  if !sizeOk gw gh then some 1
  else if any' then
    if (q.places gw gh).any fun e => !s.hasFence q e.1 e.2 gw gh then none else some 3
  else if q.placeOk gx gy gw gh then none else some 3

/-! ## Kernel images (R111, R112, R272 to R274) -/

def imNbundle (h : Nat) : Nat := field h 79 64
def imEntry (h : Nat) : Nat := field h 95 80
def imNtensor (h : Nat) : Nat := field h 119 112
def imStart (h : Nat) : Nat := field h 191 160
def imBudget (h : Nat) : Nat := field h 255 192
/-- Data blocks of an image from an offset: address, length and place of the bytes, and the offset after them. -/
def State.dataBlocks (s : State) (q : Part) (image : Nat) : Nat → Nat → List (Nat × Nat × Nat) × Nat
  | 0, off => ([], off)
  | n + 1, off =>
    let w := s.devLoad q (image + off) 8
    let len := field w 63 32
    let r := s.dataBlocks q image n (off + 8 + (len + 7) / 8 * 8)
    ((field w 31 0, len, off + 8) :: r.1, r.2)
/-- Tensor declarations: stream, index and minimum size, with their reserved bytes. -/
def State.tensorDecls (s : State) (q : Part) (image h : Nat) : List (Nat × Nat × Nat × Nat) :=
  (List.range (imNtensor h)).map fun i =>
    let w := s.devLoad q (image + field h 351 320 + 16 * i) 16
    (field w 7 0, field w 15 8, field w 127 64, field w 63 16)
def rising : List Nat → Bool
  | a :: b :: t => decide (a < b) && rising (b :: t)
  | _ => true
/-- Whether an image is valid for a launch of gw × gh cores (R274). A data block of length 0 overlaps another when it lies strictly inside it, and may stand at
the end of the scratchpad: the spec does not say (DESIGN CHOICE, log entry 47). -/
def State.imageOk (s : State) (q : Part) (image h gw gh : Nat) : Bool :=
  let n := imNbundle h
  let d := s.dataBlocks q image (field h 127 120) (0x100 + 32 * n)
  let ds := s.tensorDecls q image h
  let apart := fun (a b : Nat × Nat × Nat) => decide (a.1 + a.2.1 ≤ b.1) || decide (b.1 + b.2.1 ≤ a.1)
  let gOk := fun (v g : Nat) => v == 0 || v == g
  field h 31 0 == 0x4B4E4C4D && field h 47 32 == 1 && field h 63 48 == 0 && h / 2 ^ 384 == 0
  && decide (1 ≤ n) && decide (n ≤ 8192) && decide (imEntry h < n) && decide (imNtensor h ≤ 128)
  && field h 287 256 == 0x100 && field h 319 288 == 0x100 + 32 * n && field h 351 320 == d.2 && imLen h == d.2 + 16 * imNtensor h
  && d.1.all (fun b => decide (b.1 + b.2.1 ≤ 2 ^ 21)) && (List.range d.1.length).all (fun i => (d.1.drop (i + 1)).all (apart (d.1.getD i (0, 0, 0))))
  && ds.all (fun t => decide (t.1 < 2) && decide (t.2.1 < 64) && t.2.2.2 == 0) && rising (ds.map fun t => 64 * t.1 + t.2.1)
  && gOk (field h 103 96) gw && gOk (field h 111 104) gh
/-- The granules that hold n bytes at a HASHED HBM device address, as die and local offset. -/
def Part.granules (q : Part) (addr n : Nat) : List (Nat × Nat) :=
  (List.range ((n + 4095) / 4096)).map fun i => homedie q.logN (addr + 4096 * i)
/-- Whether the line at a place of an image stands under the tag of its page, or of a tensor of the context that can be read (R272, R353; log entry 28). -/
def State.imageLine (s : State) (p asid pd off : Nat) : Bool :=
  let x := s.stampAt pd off
  x == (s.own false pd off).stamp || (!x.bad && (s.checkDesc p asid x.tid).any fun b =>
    let r := s.recOf p b
    r.readable b p && x.ver == r.ver && x.gen == r.kgen && (b.offsetOf (s.part p) false pd off).isSome)
/-- Whether n bytes of an image can be read and verified at the crypto boundary under the context's keys (R273). -/
def State.imageReads (s : State) (p asid image n : Nat) : Bool :=
  let q := s.part p
  s.loaderReads q asid image n && (List.range ((n + 63) / 64)).all fun i =>
    let l := homedie q.logN (image + 64 * i)
    s.imageLine p asid (q.pdie l.1) (l.2 / 64 * 64)
/-- Mark the code granules of an image that the context owns code-sealed (R273): a granule in the siding is left (Table 17.12). -/
def State.sealCode (s : State) (q : Part) (asid image len : Nat) : State :=
  (q.granules image len).foldl (fun s l =>
    let pd := q.pdie l.1
    let o := s.own false pd l.2
    if o.v && o.asid == asid && !o.sid then s.setOwn false pd l.2 { o with code := true } else s) s
/-- The kernel-table entry of an image. -/
def Part.kernel (q : Part) (image asid : Nat) : Option KernelEntry :=
  (q.kernels.map (·.2)).find? fun e => e.image == image && e.asid == asid
/-- Look an image up, and when it is new seal and measure it (R273, R274): the state, and its header with its measurement when it is not
refused. -/
def State.takeImage (s : State) (p asid image gw gh : Nat) : State × Option (Nat × Digest) :=
  let q := s.part p
  let h := s.devLoad q image 256
  if image % 65536 ≠ 0 ∨ q.dies.length * memSize false < image + 256 then (s, none)
  else
    match q.kernel image asid with
    | some e => (s, if s.loaderReads q asid image (max 256 (imLen h)) && s.imageOk q image h gw gh then some (h, e.meas) else none)
    | none =>
      let len := max 256 (imLen h)
      let fits := decide (image + len ≤ q.dies.length * memSize false)
      let s1 := (if fits then s.sealCode q asid image len else s.sealCode q asid image 256).meetRecord q image (if fits then len else 256)
      if fits && s1.imageReads p asid image len && s.imageOk q image h gw gh then
        match (List.range 256).find? fun j => (Tab.find q.kernels j).isNone with
        | none => (s1, none)
        | some j =>
          let m := Config.sha384 ((List.range len).map fun i => s1.devByte q (image + i))
          ((s1.modPart p fun q => { q with kernels := Tab.put q.kernels j ⟨image, asid, m⟩ }).modCtx p asid fun x =>
            { x with log := x.log ++ [m] }, some (h, m))
      else (s1, none)

/-! ## Selection (R266, R278) -/

/-- Whether the fields of a launch record are in order, but for its rectangle (Tables 11.4, 11.5). -/
def recordOk (r : Nat) : Bool :=
  (field r 7 0 == 1 || field r 7 0 == 2) && field r 15 9 == 0 && field r 63 48 == 0 && r / 2 ^ 320 == 0
/-- The head record completes at selection with a status. Its launch has no start tick, and R264 gives START no value for it: it is written 0 (DESIGN CHOICE, log entry 27). -/
def State.refuseHead (s : State) (p n : Nat) (r : QueueRegs) (tag status : Nat) : State :=
  let u := (s.part p).queue n
  (((s.modQueue p n Queue.consumed).complete p r.asid n r.base r.log2n u.head tag status 0)).selectLater p n
/-- The head record of a queue: one that the host has written since its publication, or that a launch has, is read unconstrained (R261, R316, R319). -/
def State.headRecord (s : State) (p n : Nat) (w : QueueRegs) : Option Nat :=
  let q := s.part p
  let u := q.queue n
  let a := w.base + 64 * (u.head % 2 ^ w.log2n)
  let key := q.hostKey a
  (s.devRecord q w.asid a 64).map fun r =>
    if ((u.hostSince u.head).any fun e => e.2 && decide (key ≤ e.1) && decide (e.1 < key + 64)) || q.metBy key true then
      Config.free (2 ^ 20 + 12) (s.epoch * 2 ^ 12 + 256 * p + n) % 2 ^ 512
    else r
/-- QUEUE_SELECT (R262, R266, R278): the leader, as the last claim tick left it, takes the head record and the priority snapshot, checks the record, its
rectangle and its image, and claims for the next claim tick; a graph record starts its graph at this tick (R284), at which it is consumed, since no claim of the queue follows (log
entry 27). It waits while the partition holds, while its die is not eligible, in the tick of the write that made the queue READY, and for a page command that takes effect in its
tick (R359). -/
def execQueueSelect (p n : Nat) (s : State) : Out :=
  let q := s.part p
  let u := q.queue n
  if u.st ≠ .ready ∨ q.claimed n then .next s
  else if q.held ∨ (u.seen q.stime).st ≠ .ready ∨ s.eligible q u.ldr = false ∨ (q.migration.isNone ∧ q.pgcmd.any fun c => decide (c.at' ≤ q.stime)) then .next (s.selectLater p n)
  else
    let w := u.seen q.stime
    let s := s.meetRecord q (w.base + 64 * (u.head % 2 ^ w.log2n)) 64
    match s.headRecord p n w with
    | none => .next (s.modQueue p n fun u => { u with st := .faulted, err := 2 })
    | some r =>
      let gw := field r 23 16
      let gh := field r 31 24
      let gx := field r 39 32
      let gy := field r 47 40
      let image := field r 127 64
      let tag := field r 255 192
      let any' := field r 8 8 == 1
      if !recordOk r then .next (s.refuseHead p n w tag 1)
      else
        match s.rectStatus q any' gx gy gw gh with
        | some st => .next (s.refuseHead p n w tag st)
        | none =>
          if field r 7 0 = 2 then
            let g := (List.range (q.graphs.length + 1)).find? fun i => (Tab.find q.graphs i).isNone
            let run : Graph := ⟨w.asid, n, w.prio, u.head, tag, image, s.ctxNow p w.asid, .reached, [], 0, 0, 0, 0, 0, 0, w.base, w.log2n, none, u.hostSince u.head, []⟩
            .next (((s.modPart p fun q => { q with graphs := Tab.put q.graphs (g.getD 0) run }).modQueue p n Queue.consumed).selectLater p n)
          else
            match s.takeImage p w.asid image gw gh with
            | (s1, none) => .next (s1.refuseHead p n w tag 5)
            | (s1, some _) =>
              let c : Claim := ⟨(q.stime / 256 + 1) * 256, w.prio, n, u.head, tag, w.asid, image, field r 319 256, field r 191 128,
                any', gw, gh, gx, gy, none, w.base, w.log2n⟩
              .next ((s1.modPart p fun q => { q with claims := q.claims ++ [c] }).modQueue p n fun u => { u with st := .selected })

/-! ## The launch block (R275, R276) -/

/-- What a launch block gives: TILESX, TILESY, ORDER, USER and the bound tensors with their streams and indices. -/
structure LaunchArgs where
  tilesx : Nat
  tilesy : Nat
  order : Nat
  user : Nat
  binds : List (Nat × Nat × RangeBind)
  deriving DecidableEq, Repr
/-- Bind the tensors of the declarations from entry i on (R276); the state, where records have become EMPTY (R326). -/
def State.bindTensors (s : State) (p asid arg : Nat) : Nat → List (Nat × Nat × Nat × Nat) → Option (State × List (Nat × Nat × RangeBind))
  | _, [] => some (s, [])
  | i, d :: t =>
    let q := s.part p
    match s.devRecord q asid (arg + 0x40 + 8 * i) 8 with
    | none => none
    | some w =>
      if field w 63 32 ≠ 0 then none
      else
        match s.pinTensor p asid (field w 31 0) with
        | (_, none) => none
        | (s1, some b) =>
          if b.limit < d.2.2.1 then none
          else (s1.bindTensors p asid arg (i + 1) t).map fun r => (r.1, (d.1, d.2.1, b) :: r.2)
/-- Read the launch block of a claim: none is BAD-BINDING. -/
def State.launchArgs (s : State) (p : Nat) (c : Claim) (h : Nat) : Option (State × LaunchArgs) :=
  let q := s.part p
  let ds := s.tensorDecls q c.image h
  if c.arg = 0 then (if ds.isEmpty then some (s, ⟨0, 0, 0, 0, []⟩) else none)
  else if c.arg % 64 ≠ 0 then none
  else
    let s := s.meetRecord q c.arg (64 + 8 * ds.length)
    match s.devRecord q c.asid c.arg 64 with
    | none => none
    | some w =>
      let tx := field w 31 0
      let ty := field w 63 32
      let tilesOk := if tx = 0 then ty == 0 else decide (tx ≤ 65535) && decide (1 ≤ ty) && decide (ty ≤ 65535)
      if !tilesOk || decide (1 < field w 71 64) || field w 127 72 != 0 || w / 2 ^ 192 != 0 then none
      else (s.bindTensors p c.asid c.arg 0 ds).map fun r => (r.1, ⟨tx, ty, field w 71 64, field w 191 128, r.2⟩)

/-! ## Bind (R269, R270, R277, R87) -/

/-- A slot-table row (Table 11.6), its STATE apart. -/
def slotRow (c : Claim) (start gx gy : Nat) : BitVec 256 :=
  BitVec.ofNat 256 (c.image * 2 ^ 192 + start % 2 ^ 64 * 2 ^ 128 + c.queue % 256 * 2 ^ 120 + c.prio % 16 * 2 ^ 116 + c.asid % 4096 * 2 ^ 104
    + gx % 256 * 2 ^ 88 + gy % 256 * 2 ^ 80 + c.index % 65536 * 2 ^ 64)
/-- The core of a member at bind. COUNT of ECNT starts from 0 (R240), and SAT keeps what it was in the context, as Table 10.6 has it (log entry 19). -/
def boundCore (old : Core) (p n l : Nat) (y : Launch) (k h arg ct bt : Nat) (a : LaunchArgs) (sat : Bool) : Core :=
  let rb := fun (st : Nat) => (a.binds.filter fun e => e.1 == st).foldl (fun t e => Tab.put t e.2.1 e.2.2) ([] : Tab RangeBind)
  { old.cleared with
    st := .bound
    part := p
    asid := y.asid
    die := gridDie (y.gx0 + y.lx k) (y.gy0 + y.ly k)
    launch := l
    x := Tab.set 0 (Tab.set 0 (Tab.set 0 [] 1 (BitVec.ofNat 64 arg)) 2 (BitVec.ofNat 64 a.user)) 3 (BitVec.ofNat 64 ct)
    pc := imEntry h
    nbundles := imNbundle h
    budget := if imBudget h = 0 then unlimited else imBudget h
    ecnt := if sat then 2 ^ 63 else 0
    group := groupRegs n y k
    start := ct
    bindAt := bt
    ca := { Stream.reset with nextId := old.ca.nextId, rb := rb 0, effects := old.ca.effects }
    cb := { Stream.reset with nextId := old.cb.nextId, rb := rb 1, effects := old.cb.effects } }
/-- Bind a winning claim at an origin: the rows, the launch, the cores with their matrix units and their memories (R194, R269, R270, R277). -/
def State.bindLaunch (s : State) (p : Nat) (c : Claim) (h : Nat) (m : Digest) (a : LaunchArgs) (gx gy : Nat) : State :=
  let q := s.part p
  let x := Tab.find q.ctxs c.asid
  let ctoff := match x with | some y => y.ctoff | none => 0
  let start := max (q.stime + 4096) (c.earliest + ctoff)
  let l := q.nextLaunch
  let y : Launch := ⟨false, c.asid, c.image, gx, gy, c.gw, c.gh, start, c.queue, c.prio, c.index, c.tag, c.graph, x.any (·.strict), m,
    a.tilesx, a.tilesy, a.order, 0, q.rectMembers gx gy c.gw c.gh, [], [],
    (match c.graph with | some g => (match Tab.find q.graphs g with | some z => z.host | none => []) | none => (q.queue c.queue).hostSince c.index), c.base, c.log2n⟩
  let code := s.imageBytes q c.image 0x100 (32 * imNbundle h)
  let blocks := (s.dataBlocks q c.image (field h 127 120) (0x100 + 32 * imNbundle h)).1.map fun b => (b.1, s.imageBytes q c.image b.2.2 b.2.1)
  let s1 := s.clearPads y.members
  let s2 := { s1 with mem := s1.mem.filter fun e => !(decide (2 ^ 48 ≤ e.1) && y.members.contains ((e.1 - 2 ^ 48) / 2 ^ 18)) }
  let s2 := y.members.foldl (fun s k => s.modUnit (unitOf k) fun _ => MUnit.reset) s2
  let s3 := y.members.foldl (fun s k =>
    let s1 := (s.loadBytes (istoreKey k 0) code).setCore k (boundCore (s.core k) p q.dies.length l y k h c.arg (start - ctoff) (q.stime - ctoff) a (x.any fun z => z.sats.contains k))
    blocks.foldl (fun s b => s.loadBytes (padKey k b.1) b.2) s1) s2
  let s4 := s3.modPart p fun q => { q with
    nextLaunch := l + 1
    launches := Tab.put q.launches l y
    slots := y.members.foldl (fun t k => Tab.set 0 t ((gy + y.ly k) * 32 + gx + y.lx k) (slotRow c start gx gy)) q.slots
    rr := Tab.put q.rr c.prio c.queue }
  let s5 := s4.modCtx p c.asid fun x => { x with
    st := if x.st = .ready then .active else x.st
    cores := x.cores ++ y.members.filter fun k => !x.cores.contains k }
  match c.graph with
  | none => s5
  | some g => s5.modPart p fun q => { q with graphs := Tab.upd q.graphs g fun z =>
      { z with st := .launched, first := if z.first.isNone then some start else z.first } }

/-! ## Resolving a batch of claims (R265, R266, R268) -/

/-- The ranks of a claim in its batch: the order of R268. -/
def claimKey (q : Part) (c : Claim) : List Nat :=
  [15 - min 15 c.prio, (c.queue + 511 - (Tab.find q.rr c.prio).getD 255) % 256, c.queue, if c.graph.isNone then 0 else 1, c.index]
def putClaim (q : Part) (c : Claim) : List Claim → List Claim
  | [] => [c]
  | d :: t => if claimKey q c < claimKey q d then c :: d :: t else d :: putClaim q c t
/-- Whether every core of a rectangle is free (R268). -/
def State.rectFree (s : State) (q : Part) (gx gy gw gh : Nat) : Bool := (q.rectMembers gx gy gw gh).all s.coreFree
/-- The queue of a claim after it has been resolved: consumed, or lost. -/
def Queue.resolved (u : Queue) (lost : Bool) : Queue :=
  let v := if lost then { u with loss := min 65535 (u.loss + 1), st := if u.st = .selected then .ready else u.st } else u.consumed
  if v.st = .draining then { v with st := .off } else v
/-- End a graph with a status (R284, R286). -/
def State.endGraph (s : State) (p g status : Nat) : State :=
  match Tab.find (s.part p).graphs g with
  | none => s
  | some z =>
    ((s.modPart p fun q => { q with
      graphs := Tab.del q.graphs g
      claims := q.claims.filter fun c => c.graph != some g }).complete p z.asid z.queue z.base z.log2n z.index z.tag status (z.first.getD 0)).unreadBy p z.asid z.base z.log2n z.index z.met
/-- A claim is consumed with a status and no launch. -/
def State.refuseClaim (s : State) (p : Nat) (c : Claim) (status : Nat) : State :=
  match c.graph with
  | some g => s.endGraph p g status
  | none => ((s.modQueue p c.queue fun u => u.resolved false).complete p c.asid c.queue c.base c.log2n c.index c.tag status 0).selectLater p c.queue
/-- A claim loses: a graph's claims again at the next claim tick. -/
def State.loseClaim (s : State) (p : Nat) (c : Claim) : State :=
  match c.graph with
  | some _ => s.modPart p fun q => { q with claims := q.claims ++ [{ c with at' := q.stime + 256 }] }
  | none => (s.modQueue p c.queue fun u => u.resolved true).selectLater p c.queue
/-- Resolve one claim (R268): an image that its loader may no longer read ends it as it would have its selection (R356; log entry 28). -/
def State.resolveClaim (s : State) (p : Nat) (c : Claim) : State :=
  let q := s.part p
  let h := s.devLoad q c.image 256
  let m := match q.kernel c.image c.asid with | some e => e.meas | none => 0
  if !c.any && s.hasFence q c.gx0 c.gy0 c.gw c.gh then s.refuseClaim p c 2
  else
    if !s.loaderReads q c.asid c.image (max 256 (imLen h)) then s.refuseClaim p c 5
    else match s.launchArgs p c h with
    | none => s.refuseClaim p c 6
    | some (s1, a) =>
      let at' := if c.any then (q.places c.gw c.gh).find? fun e => s.rectFree q e.1 e.2 c.gw c.gh
        else if s.rectFree q c.gx0 c.gy0 c.gw c.gh then some (c.gx0, c.gy0) else none
      match at' with
      | none => s.loseClaim p c
      | some e =>
        let s2 := (s1.meetRecord q c.image (max 256 (imLen h))).bindLaunch p c h m a e.1 e.2
        match c.graph with
        | some _ => s2
        | none => (s2.modQueue p c.queue fun u => u.resolved false).selectLater p c.queue
/-- The leaders of all queues at a claim tick (R265): where one has changed, the selection not yet resolved is void and MOVES counts. The first of a partition, at tick 0, is no
change (log entry 27). -/
def State.moveLeaders (s : State) (p : Nat) : State :=
  (List.range 256).foldl (fun s n =>
    let q := s.part p
    let u := q.queue n
    match s.leader q n with
    | none => s
    | some d =>
      if d = u.ldr then s
      else
        let s1 := s.modPart p fun q => { q with claims := q.claims.filter fun c => !(c.queue == n && c.graph.isNone) }
        (s1.modQueue p n fun u =>
          let v := { u with ldr := d, moves := if q.stime = 0 then u.moves else min 65535 (u.moves + 1) }
          if q.claimed n then v.freed else v).selectLater p n) s
/-- CLAIM_RESOLVE (R268): the claims of this claim tick, as one batch in order. -/
def execClaimResolve (p : Nat) (s : State) : Out :=
  .next (withPart s p fun q0 =>
    if q0.stime % 256 ≠ 0 then s
    else
      let s1 := (s.modPart p fun q => { q with recs0 := s.vrecs }).moveLeaders p
      let q := s1.part p
      let due := (q.claims.filter fun c => decide (c.at' ≤ q.stime)).foldl (fun l c => putClaim q c l) []
      let s2 := s1.modPart p fun q => { q with claims := q.claims.filter fun c => !decide (c.at' ≤ q.stime) }
      due.foldl (fun s c => s.resolveClaim p c) s2)

end Sys2Proof.Machine
end

