-- ==== Sys2Proof/Machine/Launch.lean ====
section
/-! DEFINITION. The life of a launch: start, exit and retirement (R145, R228, R278, R279, R291, R305), and timetable graphs (R283 to
R286, R310). -/
namespace Sys2Proof.Machine

/-! ## Start (R270, R291) -/

/-- Whether a launch that is bound starts now: the partition does not hold, its context goes on, and schedule time has reached START, which no
later CTOFF moves (R270); members that a halt or a save has met go on from their freeze tick (R246). -/
def State.startsNow (s : State) (p : Nat) (y : Launch) : Bool :=
  !y.running && !(s.part p).held && decide (y.start ≤ (s.part p).stime) && (s.ctx p y.asid).any fun x =>
    x.st == .active && y.members.all fun k => decide ((s.core k).ftick + x.ctoff ≤ (s.part p).stime)
/-- LAUNCH_START (R186, R270, R291): every member moves to RUNNING, and the matrix units of the launch are FREE. -/
def execLaunchStart (p l : Nat) (s : State) : Out :=
  match s.launch p l with
  | none => .next s
  | some y =>
    if s.startsNow p y then
      let s1 := s.modLaunch p l fun y => { y with running := true }
      let s2 := y.members.foldl (fun s k => s.modUnit (unitOf k) fun u => { MUnit.reset with active := u.active }) s1
      .next (y.members.foldl (fun s k =>
        let c := s.core k
        if c.st = .bound ∧ c.launch = l then s.setCore k { c with st := .running } else s) s2)
    else .next s

/-! ## Exit (R145, R228, R305) -/

/-- Whether a core waits at the exit barrier of its cluster (R305). -/
def State.waitsExit (s : State) (k : Nat) : Bool :=
  let c := s.core k
  match s.launch c.part c.launch with
  | some y => y.bars.any fun b => b.scope == scopeExit y k && !b.over' && b.arrived.any fun e => e.1 == k
  | none => false
/-- Whether a core may go IDLE at its tick t (R145, R305): everything that it issued has landed, performed and settled, and its exit barrier
is complete. -/
def State.exits (s : State) (k : Nat) : Bool :=
  let c := s.core k
  let t := s.now c
  c.st == .running && (c.exit.any fun x => decide (x < t)) && decide (c.bound ≤ t) && c.lands.isEmpty && c.vops.isEmpty
  && c.cmds.isEmpty && !(c.reqs.any (·.isL)) && !(s.waitsExit k)
/-- Whether the destination of a copy of core k lies in the core's cluster (R228): its scratchpad or a sibling window, its weight ports, or a CORE end that
names a sibling. -/
def Copy.inCluster (y : Copy) (k : Nat) (c : Core) : Bool :=
  match y.kind with
  | .cpl => true
  | .recv => true
  | .send => false
  | _ => y.space true == 0 || y.space true == 4
    || (y.space true == 1 && y.sel true / 256 % 8 == c.die && clusterOf (y.sel true % 256) == clusterOf k)
/-- The copies of a stream of core k at the exit tick t (R228): beats for the cluster and messages not sent are discarded. -/
def Stream.atExit (x : Stream) (k : Nat) (c : Core) (t : Nat) : Stream :=
  { x with
    port := []
    copies := (x.copies.filter fun y => !(y.kind == .send && decide (t < y.v - y.m))).map fun y =>
      if y.inCluster k c then { y with stop := some (min (t + 1) (y.stop.getD (t + 1))) } else y }
/-- A fault found before the exit of core k whose hold tick comes after it: the core traps no more, and the record goes to the event ring as that of a later one
does (R248; log entry 17). -/
def State.lateTrap (s : State) (k : Nat) (d : DueTrap) : State :=
  let c := s.core k
  let rec' := if d.info.cause = 0x0D then Tab.find (s.die (d.info.info / 256 % 8)).mclog (d.info.info % 256) else none
  let s1 := s.appendEvent c.part c.asid ⟨k, d.info, if d.info.cause = 0x0D then none else some d, rec'⟩
  if unrecoverable d.info.cause then s1.teardown c.part c.asid else s1
/-- CORE_EXIT_TICK (R145, R228, R242): the core goes IDLE, its registers are cleared and its energy, with the static charge to this tick, is added to the context's. The context is
READY when no core of it is left. A core that waits at the exit barrier is charged wait ticks in ECNT alone, up to the R of its instance
(R300, R305; R421 counts 7 of them, and none from R to a later exit tick). -/
def execCoreExitTick (k : Nat) (s : State) : Out :=
  if s.exits k then
    let c := (s.core k).fold
    let t := s.now c
    let ca := c.ca.atExit k c t
    let cb := c.cb.atExit k c t
    let live := fun (r : Req) =>
      match r.kind with
      | .src st id _ => ((if st = 0 then ca else cb).copies.any fun y => y.id == id && y.stop.isNone)
      | .idx st id _ => ((if st = 0 then ca else cb).copies.any fun y => y.id == id && y.stop.isNone)
      | .desc _ _ => true
      | _ => false
    let c1 : Core := { c.cleared with
      part := c.part
      asid := c.asid
      die := c.die
      launch := c.launch
      exit := c.exit
      span := c.span
      spanEnd := c.spanEnd
      late := c.late
      start := c.start
      lease := c.lease
      reqs := c.reqs.filter live
      ca := { ca with xmark := none, progs := [] }
      cb := { cb with xmark := none, progs := [] } }
    let s1 := (s.setCore k c1).modCtx c.part c.asid fun x => { x.keepSat k c with energy := addEnergy x.energy (c.ecnt % 2 ^ 48) }
    let s1 := c.due.foldl (fun s d => s.lateTrap k d) s1
    if (s1.coresOf c.part c.asid CoreSt.bound').isEmpty then
      .next ((s1.clearHold c.part 4 (preTag c.asid)).modCtx c.part c.asid fun x =>
        if x.st = .active then { x with st := .ready, armed := none, yielded := false, boundary := none, halt := none } else x)
    else .next s1
  else
    let c := s.core k
    .next (if c.st = .running ∧ (c.exit.any fun x => decide (x < s.now c)) ∧ s.waitsExit k then s.setCore k (c.charge 1) else s)

/-! ## Retirement (R279) -/

/-- Whether a copy of a core that has left has no release, arrival or source window after tick t. -/
def Copy.over (y : Copy) (t : Nat) : Bool :=
  match y.stop with
  | some h => decide (h ≤ t + 1) || decide (y.last ≤ t)
  | none => decide (y.last ≤ t) && (y.reads == 0 || decide ((y.window (y.reads - 1)).2 ≤ t))
def Stream.over (x : Stream) (t : Nat) : Bool := x.copies.all (·.over t)
/-- Whether a launch retires at this tick: never while its context is HALTED, when the beats that its cores have left stand still (R227), nor once its teardown
has begun, which completes it (R278). -/
def State.retires (s : State) (p : Nat) (y : Launch) (l : Nat) : Bool :=
  y.running && ((s.ctx p y.asid).any fun x => x.st == .active || x.st == .ready) && y.members.all fun k =>
    let c := s.core k
    c.gone && c.launch == l && c.ca.over (s.now c) && c.cb.over (s.now c)
/-- A core after its launch has retired: nothing is left but tensor operations before their effect ticks (R336). -/
def Core.retired (c : Core) : Core :=
  let d := c.cleared
  { d with part := c.part, die := c.die, ca := { d.ca with effects := c.ca.effects }, cb := { d.cb with effects := c.cb.effects } }
/-- The faults of copies of exited cores that are still to be found are found before their launch retires (R248). -/
def State.findFaults (s : State) (ks : List Nat) : State :=
  let mine := fun (e : Nat × Ev) => match e.2 with | .copyFault k _ _ _ _ _ => ks.contains k | _ => false
  (s.events.filter mine).foldl (fun s e => match e.2 with
    | .copyFault k st id b cause info => s.copyFaultAt k st id b cause info (s.tick k) false
    | _ => s) { s with events := s.events.filter fun e => !mine e }
/-- LAUNCH_RETIRE (R279): the completion is written, or the graph's next node is reached at the next tick (R284); a fault found by then that tears the context down has killed
the launch (R248). -/
def execLaunchRetire (p l : Nat) (s : State) : Out :=
  match s.launch p l with
  | none => .next s
  | some y =>
    if s.retires p y l then
      let s := s.findFaults y.members
      let x := s.ctx p y.asid
      let t := (s.part p).stime - (match x with | some z => z.ctoff | none => 0)
      if x.any fun z => z.st == .teardown then .next s else
      let s1 := y.members.foldl (fun s k => s.setCore k (s.core k).retired) (s.modPart p fun q => { q with launches := Tab.del q.launches l })
      match y.graph with
      | none => .next ((s1.complete p y.asid y.queue y.base y.log2n y.index y.tag 0 y.start).unreadBy p y.asid y.base y.log2n y.index [y.met])
      | some g => .next (s1.modPart p fun q => { q with graphs := Tab.upd q.graphs g fun z =>
          if z.st = .launched then { z with st := .reached, node := z.next, at' := t + 1, met := y.met :: z.met } else z })
    else .next s

/-! ## Timetable graphs (R283 to R286) -/

/-- The fields of a node (Table 12.7). -/
def nKind (x : Nat) : Nat := field x 7 0
def nNext (x : Nat) : Nat := field x 63 48
def nObj (x : Nat) : Nat := field x 127 64
def nVal (x : Nat) : Nat := field x 191 128
def nAlt (x : Nat) : Nat := field x 207 192
def nLimit (x : Nat) : Nat := field x 255 224
/-- Whether a node's own fields are in order, with e nodes in the timetable (R286). -/
def nodeOk (x e : Nat) : Bool :=
  let kind := nKind x
  decide (kind ≤ 4) && field x 223 208 == 0 && x / 2 ^ 256 == 0
  && (if kind = 1 then field x 15 9 == 0 else field x 47 8 == 0)
  && decide (nNext x < e) && (if kind = 2 ∨ kind = 3 then decide (nAlt x < e) else nAlt x == 0)
  && (match kind with
      | 0 => nObj x == 0 && nVal x == 0 && nLimit x == 0
      | 1 => nLimit x == 0
      | 2 => nObj x / 2 ^ 32 == 0 && nVal x % 8 == 0 && nLimit x == 0
      | 3 => nObj x / 2 ^ 32 == 0 && nVal x % 8 == 0 && decide (1 ≤ nLimit x)
      | _ => nObj x / 2 ^ 32 == 0 && nVal x / 2 ^ 32 == 0)
/-- The present node of a graph, when the timetable holds it and it is valid. -/
def State.node (s : State) (p : Nat) (z : Graph) : Option Nat :=
  let q := s.part p
  if 1 ≤ q.ttlog ∧ q.ttlog ≤ 12 ∧ z.node < 2 ^ q.ttlog then
    (s.devRecord q z.asid (q.ttbase * 4096 + 64 * z.node) 64).filter fun x => nodeOk x (2 ^ q.ttlog)
  else none
/-- The event by which the present node of a graph is taken; a bad node ends the graph. -/
def State.nodeEvent (s : State) (p g : Nat) (z : Graph) : Ev :=
  match s.node p z with
  | none => .graphEndNode p g
  | some x =>
    match nKind x with
    | 1 => .graphKernelNode p g
    | 2 => .graphCondNode p g
    | 3 => .graphWhileNode p g
    | 4 => .graphSwapNode p g
    | _ => .graphEndNode p g
/-- Context time of a context of a partition. -/
def State.ctxTick (s : State) (p a : Nat) : Nat := (s.part p).stime - s.ctoffOf p a
/-- Whether a graph's present node is reached by now. -/
def State.reachedNow (s : State) (p : Nat) (z : Graph) : Bool :=
  z.st == .reached && decide (z.at' ≤ s.ctxTick p z.asid) && (s.ctx p z.asid).any fun x => x.st == .ready || x.st == .active
def State.modGraph (s : State) (p g : Nat) (f : Graph → Graph) : State :=
  s.modPart p fun q => { q with graphs := Tab.upd q.graphs g f }
/-- Reach a node at a context tick; one reached by now is taken in this tick. -/
def State.reach (s : State) (p g node at' : Nat) : State :=
  let s1 := s.modGraph p g fun z => { z with st := .reached, node := node, at' := at' }
  match Tab.find (s1.part p).graphs g with
  | some z => if s1.reachedNow p z then { s1 with agenda := s1.nodeEvent p g z :: s1.agenda } else s1
  | none => s1
/-- Take the present node of a graph of a kind: BAD-NODE for one that is not valid, or the sixty-fourth in a row without a KERNEL node. -/
def takeNode (p g kind : Nat) (f : Graph → Nat → State → State) (s : State) : Out :=
  .next (withPart s p fun q =>
    match Tab.find q.graphs g with
    | none => s
    | some z =>
      if z.st ≠ .reached ∨ !s.reachedNow p z then s
      else
        let s1 := s.meetRecord q (q.ttbase * 4096 + 64 * z.node) 64
        match s.node p z with
        | none => s1.endGraph p g 7
        | some x =>
          if nKind x ≠ kind then s
          else if kind = 2 ∨ kind = 3 ∨ kind = 4 then
            if 63 ≤ z.row then s1.endGraph p g 7 else f z x (s1.modGraph p g fun z => { z with row := z.row + 1 })
          else f z x s1)

/-- GRAPH_KERNEL_NODE (R284): the node launches as a KERNEL record with EARLIEST x + START of the header, claiming at every claim tick. -/
def execGraphKernelNode (p g : Nat) (s : State) : Out :=
  takeNode p g 1 (fun z x s =>
    let q := s.part p
    let gw := field x 23 16
    let gh := field x 31 24
    let any' := field x 8 8 == 1
    match s.rectStatus q any' (field x 39 32) (field x 47 40) gw gh with
    | some st => s.endGraph p g st
    | none =>
      match s.takeImage p z.asid (nObj x) gw gh with
      | (s1, none) => s1.endGraph p g 5
      | (s1, some (h, _)) =>
        let c : Claim := ⟨(q.stime / 256 + 1) * 256, z.prio, z.queue, z.index, z.tag, z.asid, nObj x, nVal x, z.at' + imStart h,
          any', gw, gh, field x 39 32, field x 47 40, some g, z.base, z.log2n⟩
        (s1.modPart p fun q => { q with claims := q.claims ++ [c] }).modGraph p g fun z =>
          { z with st := .claiming, next := nNext x, row := 0 }) s
/-- The condition word of a node (R285): unconstrained where a launch that still runs has written its line, none when it is unreadable, as a tensor that
refuses reads is (R329). -/
def State.condWord (s : State) (p : Nat) (z : Graph) (x : Nat) : State × Option Nat :=
  match s.readDesc p z.asid (nObj x) with
  | (s1, none) => (s1, none)
  | (s1, some b) =>
    let r := s1.recOf p b
    if nVal x + 8 ≤ b.limit ∧ r.readable b p then
      (match s1.tensorPlace p b (nVal x) with | some pl => s1.meetError p pl 0 | none => s1, (s1.tensorPlace p b (nVal x)).bind fun pl =>
        let key := devKey pl.station ((s1.part p).pdie pl.d) pl.off
        if s1.metBy p key true || s1.hits.any fun h => decide (key ≤ h.1) && decide (h.1 < key + 8) && decide (h.2 < 2048) then
          some (Config.free (2 ^ 20 + 1) (s1.epoch * 2 ^ 20 + z.node) % 2 ^ 64)
        else match s1.readPlace p z.asid { pl with off := pl.off / 64 * 64 } r.ver r.kgen with
          | .data v => some (v.toNat / 2 ^ (8 * (pl.off % 64)) % 2 ^ 64)
          | _ => none)
    else (s1, none)
/-- GRAPH_COND_NODE (R284). -/
def execGraphCondNode (p g : Nat) (s : State) : Out :=
  takeNode p g 2 (fun z x s =>
    match s.condWord p z x with
    | (s, none) => s.endGraph p g 7
    | (s, some w) => s.reach p g (if w = 0 then nAlt x else nNext x) z.at') s
/-- GRAPH_WHILE_NODE (R284). -/
def execGraphWhileNode (p g : Nat) (s : State) : Out :=
  takeNode p g 3 (fun z x s =>
    match s.condWord p z x with
    | (s, none) => s.endGraph p g 7
    | (s, some w) =>
      let n := Tab.get 0 z.iters z.node
      if w = 0 then (s.modGraph p g fun y => { y with iters := Tab.set 0 y.iters z.node 0 }).reach p g (nNext x) z.at'
      else if n < nLimit x then (s.modGraph p g fun y => { y with iters := Tab.set 0 y.iters z.node (n + 1) }).reach p g (nAlt x) z.at'
      else s.endGraph p g 8) s
/-- Whether a swap barrier's tensor stands committed at a version, with its digests checked and no poison (R284), by the version records `recs`. -/
def State.swapMet (s : State) (recs : Tab VRec) (p asid tid ver : Nat) : Bool :=
  (s.pinTensor p asid tid).2.any fun b =>
    let pd := (s.part p).pdie b.home
    let r := Tab.get VRec.reset recs (vrecKey pd tid)
    s.pathHolds pd tid && r.isFor p tid asid && r.st == .closed && decide (ver ≤ r.ver) && (!b.shard || r.digok) && !r.psn
/-- A waiting swap barrier at a claim tick (Table 14.4): it passes, by `go`, counts, or times out. -/
def State.swapTick (s : State) (recs : Tab VRec) (p g : Nat) (z : Graph) (go : State → State) : State :=
  if s.swapMet recs p z.asid z.obj z.val then go s
  else if z.limit ≠ 0 ∧ z.limit ≤ z.waited then s.endGraph p g 9
  else s.modGraph p g fun z => { z with waited := z.waited + 1 }
/-- GRAPH_SWAP_NODE (R283, R310): reached, the node is read and waits; at each claim tick it passes, counts or times out by the conditions at the start of
the tick. One that passes there reaches its successor, which is taken after the releases of the tick (R285). -/
def execGraphSwapNode (p g : Nat) (s : State) : Out :=
  match Tab.find (s.part p).graphs g with
  | none => .next s
  | some z =>
    let q := s.part p
    if z.st = .swapping then
      .next (if q.stime % 256 = 0 then
        s.swapTick s.vrecs p g z fun s => s.modGraph p g fun y => { y with st := .reached, node := y.next, at' := s.ctxNow p y.asid }
      else s)
    else
      takeNode p g 4 (fun z x s =>
        let w : Graph := { z with st := .swapping, waited := 0, next := nNext x, obj := nObj x, val := nVal x, limit := nLimit x }
        let s0 := (s.readDesc p z.asid (nObj x)).1
        let s1 := s0.modGraph p g fun y => { w with row := y.row }
        if q.stime % 256 ≠ 0 then s1 else s1.swapTick q.recs0 p g w fun s => s.reach p g w.next (s.ctxTick p w.asid)) s
/-- GRAPH_END_NODE (R284): the graph ends with OK, or with BAD-NODE when the node is not valid. -/
def execGraphEndNode (p g : Nat) (s : State) : Out := takeNode p g 0 (fun _ _ s => s.endGraph p g 0) s

end Sys2Proof.Machine
end

