-- ==== Sys2Proof/Machine/Page.lean ====
section
/-! DEFINITION. Page commands, migration and patrol: R357 to R359, R363 to R365. -/
namespace Sys2Proof.Machine

/-! ## Commands (R357) -/

/-- A page command ends with a code of Table 17.6. -/
def State.pageDone (s : State) (p code : Nat) : State := s.modPart p fun q => { q with pgcmd := none, pgcode := code }
/-- Whether an ASID lies in a partition's pool. -/
def Part.inPool (q : Part) (asid : Nat) : Bool := decide (q.pool0 ≤ asid) && decide (asid < q.pool0 + q.poolN)
/-- Limits of the fields that every command shares. -/
def recordLimits (q : Part) (r : PageRecord) (flags : Nat) : Bool := r.rsv == 0 && decide (r.flags ≤ flags) && q.inPool r.asid
/-- The same of a command whose record names a memory; HOME counts under LOCAL (Table 17.7). -/
def pageRecordOk (q : Part) (r : PageRecord) (flags : Nat) : Bool :=
  recordLimits q r flags && decide (r.mem ≤ 1) && (r.place == 1 || (r.place == 0 && decide (r.home < q.dies.length)))
/-- The granules of COUNT units from ADDR, as die index and local offset; none when they are not aligned or leave the memory. -/
def Part.units (q : Part) (r : PageRecord) : Option (List (Nat × Nat)) :=
  let n := q.dies.length
  let hashed := r.place == 1
  let size := if hashed then n * 65536 else 65536
  let mem := memSize (r.mem == 1)
  if r.count = 0 ∨ 2 ^ 20 < r.count ∨ r.addr % size ≠ 0 ∨ (if hashed then n * mem else mem) < r.addr + r.count * size then none
  else some (if hashed then (List.range r.count).flatMap fun i => (List.range n).map fun d => (d, (r.addr / size + i) * 65536)
    else (List.range r.count).map fun i => (r.home, r.addr + 65536 * i))
/-- Zero the lines of a granule; its lines stand as assigned. -/
def State.zeroGranule (s : State) (station : Bool) (pd off : Nat) : State :=
  let g := off / 65536 * 65536
  let s1 := { s with mem := s.mem.filter fun e => !(decide (devKey station pd g ≤ e.1) && decide (e.1 < devKey station pd g + 65536)) }
  if station then s1.uncover (ownKey true pd g) else s1.clearStamps pd g
/-- ASSIGN at its effect tick. -/
def execAssign (p : Nat) (rec : PageRecord) (s : State) : Out :=
  .next (withPart s p fun q =>
    match (if pageRecordOk q rec 7 then q.units rec else none) with
    | none => s.pageDone p 1
    | some gs =>
      let station := rec.mem == 1
      if gs.any fun l => let o := s.own station (q.pdie l.1) l.2; o.v || o.unusable then s.pageDone p 3
      else
        (gs.foldl (fun s l =>
          let pd := q.pdie l.1
          let o := s.own station pd l.2
          (s.zeroGranule station pd l.2).setOwn station pd l.2
            ⟨true, rec.asid, false, rec.flags % 2 == 1, rec.flags / 4 % 2 == 1, rec.flags / 2 % 2 == 1, false, (o.epoch + 1) % 65536, q.gen,
              o.unusable⟩) s).pageDone p 0)
/-- RELEASE at its effect tick. -/
def execRelease (p : Nat) (rec : PageRecord) (s : State) : Out :=
  .next (withPart s p fun q =>
    match (if pageRecordOk q rec 0 then q.units rec else none) with
    | none => s.pageDone p 1
    | some gs =>
      let station := rec.mem == 1
      let o := fun (l : Nat × Nat) => s.own station (q.pdie l.1) l.2
      if gs.any fun l => !((o l).v && (o l).asid == rec.asid && !(o l).code) then s.pageDone p 2
      else if gs.any fun l => (o l).sid then s.pageDone p 4
      else
        (gs.foldl (fun s l =>
          let pd := q.pdie l.1
          (s.zeroGranule station pd l.2).setOwn station pd l.2 { Own.reset with unusable := (o l).unusable }) s).pageDone p 0)
/-- Remove the translation entries of an ASID that overlap a range, on every shunter of a partition. -/
def State.dropTlb (s : State) (p asid va size : Nat) : State :=
  let keep := fun (x : Stream) =>
    { x with tlb := x.tlb.filter fun e => !(e.asid == asid && (size == 0 || (decide (e.vbase < va + size) && decide (va < e.vbase + e.size)))) }
  { s with cores := s.cores.map fun (e : Nat × Core) => if e.2.part = p then (e.1, { e.2 with ca := keep e.2.ca, cb := keep e.2.cb }) else e }
/-- INVALIDATE at its effect tick. -/
def execInvalidate (p : Nat) (rec : PageRecord) (s : State) : Out :=
  .next (withPart s p fun q =>
    if recordLimits q rec 0 ∧ rec.size % 4096 = 0 then (s.dropTlb p rec.asid rec.addr rec.size).pageDone p 0 else s.pageDone p 1)

/-! ## Migration (R358) -/

/-- Where the leaf entry that maps an address lies (R349): die index and offset, with the page. -/
def State.leafFrom (s : State) (q : Part) (asid va : Nat) : Nat → Nat → Nat → Option (Nat × Nat)
  | lvl, d, off =>
    let at' := off + 8 * (va / 2 ^ (12 + 9 * lvl) % (if lvl = 3 then 32 else 512))
    match s.pte q asid d at' with
    | none => none
    | some e =>
      if field e 1 1 = 1 then some (d, at')
      else match lvl with
        | 0 => none
        | n + 1 => s.leafFrom q asid va n (field e 9 7) (field e 47 12 * 4096)
/-- The granules of a page, as die index and local offset of their first bytes. -/
def Part.pageGranules (q : Part) (station hashed : Bool) (home addr size : Nat) : List (Nat × Nat) :=
  ((List.range (size / 4096)).filterMap fun i =>
    (q.locate station hashed home (addr + 4096 * i)).map fun l => (l.1, l.2 / 65536 * 65536)).eraseDups
/-- MIGRATE at its effect tick x: the source granules go into the siding. -/
def execMigrate (p : Nat) (rec : PageRecord) (s : State) : Out :=
  .next (withPart s p fun q =>
    let d := field rec.ptea 63 61
    let off := field rec.ptea 60 0
    let root := (Tab.get (0 : Word) q.ptroot rec.asid).toNat
    let leaf := s.leafFrom q rec.asid rec.addr 3 (field root 7 5) (field root 47 12 * 4096)
    let group := fun (e : TlbEntry) (o : Nat) => if e.size = 2 ^ 16 then o / 128 else o / 8
    match s.walk q rec.asid rec.addr with
    | none => s.pageDone p 1
    | some e =>
      let station := rec.mem == 1
      let hashed := rec.place == 1
      if !pageRecordOk q rec 0 ∨ off % 8 ≠ 0 ∨ (leaf.map fun l => (l.1, group e l.2)) ≠ some (d, group e off) ∨ rec.daddr % e.size ≠ 0
          ∨ (q.locate station hashed rec.home rec.daddr).isNone ∨ (q.locate station hashed rec.home (rec.daddr + e.size - 1)).isNone then
        s.pageDone p 1
      else
        let from' := q.pageGranules e.station e.hashed e.home e.dbase e.size
        let dests := q.pageGranules station hashed rec.home rec.daddr e.size
        let mine := fun (st : Bool) (l : Nat × Nat) => let o := s.own st (q.pdie l.1) l.2; o.v && o.asid == rec.asid && !o.code
        if !(from'.all (mine e.station)) ∨ !(dests.all (mine station)) then s.pageDone p 2
        else if q.migration.isSome ∨ s.owns.any (fun z => z.2.v && z.2.asid == rec.asid && z.2.sid) then s.pageDone p 4
        else
          let s1 := from'.foldl (fun s l => let pd := q.pdie l.1; s.setOwn e.station pd l.2 { s.own e.station pd l.2 with sid := true }) s
          (s1.dropTlb p rec.asid e.vbase e.size).modPart p fun q => { q with
            pgcmd := some ⟨4, rec, q.stime⟩
            migration := some ⟨rec.asid, e.vbase, e.size, (if e.size = 2 ^ 16 then stationKey (q.pdie d) (off / 128 * 128)
              else stationKey (q.pdie d) off), e, rec.daddr, station, hashed, rec.home, q.stime, false, []⟩ })
/-- MIGRATION_COPY_START (R358): from x + 192 the engine copies in wall time. -/
def execMigrationCopyStart (p : Nat) (s : State) : Out :=
  match (s.part p).migration with
  | some m =>
    if !m.copying ∧ m.x + Config.holdLead ≤ (s.part p).stime then
      .next ((s.modPart p fun q => { q with migration := some { m with copying := true } }).later (2 ^ 23 + p) (.copyEngineComplete p))
    else .next s
  | none => .next s
/-- Copy one line of a page: it stands under `new` at its new place, or marked when the old line fails its tag. One with an uncorrectable error counts as the engine meets it
(R363). A new place that has been code-sealed since refuses the engine (R273), and the line stays. -/
def State.moveLine (s : State) (q : Part) (m : Migration) (new : Nat × Nat → Stamp) (i : Nat) : State :=
  match q.locate m.src.station m.src.hashed m.src.home (m.src.dbase + 64 * i), q.locate m.dstStation m.dstHashed m.dstHome (m.dst + 64 * i) with
  | some a, some b =>
    let pa := q.pdie a.1
    let pb := q.pdie b.1
    let o := s.own m.src.station pa a.2
    if (s.own m.dstStation pb b.2).code then s else
    let good := m.src.station || (s.stampAt pa a.2 == o.stamp && q.live o.pgen)
    let v := s.memLine m.src.station pa a.2
    let s0 := if !m.src.station && (s.stampAt pa a.2).bad then s.countError pa (a.2 / 64) 0 else s
    let s1 := s0.setBytes (devKey m.dstStation pb b.2) (leBytes 64 v.toNat)
    let s2 := if m.dstStation then s1 else s1.setStamp pb b.2 { new b with bad := !good }
    if m.src.station = m.dstStation ∧ pa = pb ∧ a.2 = b.2 then s2
    else
      let s3 := s2.setBytes (devKey m.src.station pa a.2) (List.replicate 64 0)
      if m.src.station then s3 else { s3 with stamps := Tab.del s3.stamps (lineKey pa a.2) }
  | _, _ => s
/-- Give a destination granule its new generation and epoch: lines of it that stand as assigned keep what they stood under. -/
def State.reEpoch (s : State) (station : Bool) (pd off gen epoch : Nat) : State :=
  let o := s.own station pd off
  let s1 := if station then s else (List.range 1024).foldl (fun s i =>
    if (Tab.find s.stamps (lineKey pd (off + 64 * i))).isSome then s else s.setStamp pd (off + 64 * i) (s.stampAt pd (off + 64 * i))) s
  s1.setOwn station pd off { o with pgen := gen, epoch := epoch }
/-- COPY_ENGINE_COMPLETE (R358): the lines have moved, the leaf entry names their new place, SID is clear, waiting lookups look up again, and
cause 2 clears. -/
def execCopyEngineComplete (p : Nat) (s : State) : Out :=
  match (s.part p).migration with
  | none => .next s
  | some m =>
    if !m.copying then .next s
    else
      let q := s.part p
      let dests := q.pageGranules m.dstStation m.dstHashed m.dstHome m.dst m.size
      let new := fun (b : Nat × Nat) =>
        let o := s.own m.dstStation (q.pdie b.1) b.2
        ({ o with pgen := q.gen, epoch := (o.epoch + 1) % 65536 } : Own).stamp
      let s1 := (List.range (m.size / 64)).foldl (fun s i => s.moveLine q m new i) s
      let s2 := dests.foldl (fun s l =>
        let pd := q.pdie l.1
        s.reEpoch m.dstStation pd l.2 q.gen (((s.own m.dstStation pd l.2).epoch + 1) % 65536)) s1
      let leaf := fun (e : Nat) => e - field e 47 12 * 2 ^ 12 - field e 9 5 * 2 ^ 5
        + m.dst / 4096 % 2 ^ 36 * 2 ^ 12 + m.dstHome % 8 * 2 ^ 7 + m.dstStation.toNat * 2 ^ 6 + m.dstHashed.toNat * 2 ^ 5
      let s3 := (List.range (if m.size = 2 ^ 16 then 16 else 1)).foldl (fun s i =>
        s.store (m.pte + 8 * i) 8 (leaf (s.load (m.pte + 8 * i) 8))) s2
      let s4 := (q.pageGranules m.src.station m.src.hashed m.src.home m.src.dbase m.size).foldl (fun s l =>
        let pd := q.pdie l.1
        s.setOwn m.src.station pd l.2 { s.own m.src.station pd l.2 with sid := false }) s3
      let s5 := (s4.modPart p fun q => { q with migration := none }).pageDone p 0
      .next ((m.waiting.foldl (fun s w => (s.lookup w.1 w.2.1 w.2.2.1 w.2.2.2.1 w.2.2.2.2).placed w.1 w.2.1 w.2.2.1 w.2.2.2.1 w.2.2.2.2) s5).modPart p fun q =>
        q.clearHold s.wtime fun r => r.cause == 2)

/-! ## Patrol (R363 to R365) -/

/-- PATROL_READ (R363, R364): the patrol engine reads a granule that is not in the checkpoint set, each in its turn: granule g in the g-th of the 2^20 equal parts of a
pass, by WTIME (log entry 40). Its uncorrectable lines are counted and marked. -/
def execPatrolRead (die granule : Nat) (bad : List Nat) (s : State) : Out :=
  let turn := s.wtime / 2 ^ 22
  if die < 8 ∧ granule = turn % 2 ^ 20 ∧ (s.die die).patrol ≤ turn ∧ !(s.own false die (granule * 65536)).ckp then
    let met := (List.range 1024).filter fun i => bad.contains i || (s.stampAt die (granule * 65536 + 64 * i)).bad
    .next ((met.foldl (fun s i =>
      let off := granule * 65536 + 64 * i
      (s.setStamp die off { s.stampAt die off with bad := true }).countError die (off / 64) 2) s).modDie die fun y => { y with patrol := turn + 1 })
  else .next s

end Sys2Proof.Machine
end

