-- ==== Sys2Proof/Machine/Shard.lean ====
section
/-! DEFINITION. Digest checks and shard loads: R337, R340 to R344. -/
namespace Sys2Proof.Machine

/-! ## Manifests (R341) -/

/-- Number of entries and re-check interval of a manifest at an address, when its header is valid. -/
def State.manifestHeader (s : State) (q : Part) (asid base : Nat) : Option (Nat × Nat) :=
  match s.devRecord q asid base 64 with
  | none => none
  | some h =>
    let n := field h 63 48
    if field h 31 0 = 0x4E414D53 ∧ field h 47 32 = 1 ∧ 1 ≤ n ∧ n ≤ 4096 ∧ h / 2 ^ 96 = 0 ∧ base % 64 = 0 then some (n, field h 95 64) else none
/-- Address and contents of entry i. -/
def entryAt (base i : Nat) : Nat := base + 64 + 128 * i
/-- The contents as they stand in memory. -/
def State.manifestEntry (s : State) (q : Part) (base i : Nat) : Nat := s.devLoad q (entryAt base i) 128
def eTid (x : Nat) : Nat := field x 31 0
def ePkg (x : Nat) : Nat := field x 47 32
def eRetry (x : Nat) : Nat := field x 55 48
def eFirst (x : Nat) : Nat := field x 63 56
def eDeadline (x : Nat) : Nat := field x 127 64
def eSrc0 (x : Nat) : Nat := field x 191 128
def eSkind (x : Nat) : Nat := field x 327 320
def eHaddr (x : Nat) : Nat := field x 255 192
def ePeer (x : Nat) : Nat := field x 319 256
def eStatus (x : Nat) : Nat := field x 343 336
def eFails (x : Nat) : Nat := field x 351 344
def eDigest (x : Nat) : Nat := field x 767 384
/-- Write one byte field of an entry of a context's manifest, when the ownership check lets the stationmaster (R356). -/
def State.setEntry (s : State) (p asid base i off v : Nat) : State :=
  if s.devOwned (s.part p) asid (entryAt base i + off) 1 then s.devStore (s.part p) (entryAt base i + off) 1 v else s
/-- Whether an entry is valid: reserved bytes zero, and RETRY, FIRST and SKIND among the values of Table 16.7 (R7; log entry 29). -/
def entryOk (x : Nat) : Bool :=
  field x 383 352 == 0 && field x 1023 768 == 0 && decide (eRetry x ≤ 15) && decide (eFirst x ≤ 2) && decide (eSkind x ≤ 1)
/-- Entry i of a context's manifest as the loader reads it: in granules of the context (R356), and valid; else there is none. -/
def State.entryIn (s : State) (q : Part) (asid base i : Nat) : Option Nat := (s.devRecord q asid (entryAt base i) 128).filter entryOk
/-- The entries of a manifest that this package loads (R342): of those that are no valid entries too, which a load refuses. -/
def State.ownEntries (s : State) (q : Part) (base n : Nat) : List Nat :=
  (List.range n).filter fun i => ePkg (s.manifestEntry q base i) == s.fabidx
/-- The entry of a tensor in the manifest of its context (R337): the first valid one of this package, else the first valid one. -/
def State.entryOf (s : State) (p asid tid : Nat) : Option (Nat × Nat) :=
  let q := s.part p
  match Tab.find q.manifest.loaded asid with
  | none => none
  | some base =>
    match s.manifestHeader q asid base with
    | none => none
    | some h =>
      let of' := (List.range h.1).filter fun i => (s.entryIn q asid base i).any fun x => eTid x == tid
      match of'.find? fun i => ePkg (s.manifestEntry q base i) == s.fabidx with
      | some i => some (base, i)
      | none => of'.head?.map fun i => (base, i)
/-- Base address of the manifest of a context as its load took it. -/
def Manifest.baseOf (m : Manifest) (asid : Nat) : Nat := (Tab.find m.loaded asid).getD m.base
/-- Bring POISON, FIRSTBAD and STATE of the load up to date. -/
def State.manifestCount (s : State) (p : Nat) : State :=
  let q := s.part p
  let m := q.manifest
  let base := m.baseOf m.cur
  match s.manifestHeader q m.cur base with
  | none => s
  | some h =>
    let es := (s.ownEntries q base h.1).filter fun i => (s.entryIn q m.cur base i).isSome
    let psn := es.filter fun i =>
      let tid := eTid (s.manifestEntry q base i)
      (List.range q.dies.length).any fun d => let r := s.recAt (q.pdie d) tid; r.isFor p tid m.cur && r.st != .invalid && r.psn
    let bad := es.filter fun i => eStatus (s.manifestEntry q base i) == 3
    s.modPart p fun q => { q with manifest := { q.manifest with
      poison := min 65535 psn.length
      firstbad := bad.headD 0
      st := if q.manifest.todo.isEmpty ∧ q.manifest.st = 1 then (if bad.isEmpty then 2 else 3) else q.manifest.st } }

/-! ## Failure of a shard (R343) -/

/-- The next source after `src` that is present, in the order SRC0, host, peer. -/
def nextSource (x src : Nat) : Nat :=
  let there := fun n => n == 0 || (n == 1 && eHaddr x != 0) || (n == 2 && ePeer x != 0)
  (([1, 2, 3].map fun i => (src + i) % 3).find? there).getD 0
/-- A digest check has ended, or a shard has failed (Table 16.4): a mismatch sets PSN and clears DIGOK in any state but INVALID, a match the reverse of a CLOSED
tensor. -/
def VRec.checked (r : VRec) (bad : Bool) : VRec :=
  if bad then { r with psn := true, digok := false } else if r.st = .closed then { r with psn := false, digok := true } else r
/-- The result of a check for a tensor of a context: in its version record, on the die of its descriptor, or where a record of it stands when the
descriptor is no longer valid. -/
def State.setPoison (s : State) (p asid tid : Nat) (bad : Bool) : State :=
  match s.readDesc p asid tid with
  | (s1, some b) => s1.setVrec (s1.part p) ((s1.part p).pdie b.home) b.tid ((s1.recOf p b).checked bad)
  | (s1, none) =>
    ((s1.part p).dies.filter fun pd => (s1.recAt pd tid).isFor p tid asid && (s1.recAt pd tid).st != .invalid).foldl (fun s pd =>
      s.setVrec (s.part p) pd tid ((s.recAt pd tid).checked bad)) s1
/-- Where the source that FIRST names lies: at a peer or a host, and its address (Table 16.7). -/
def entrySource (x : Nat) : Bool × Nat :=
  match eFirst x with
  | 0 => (eSkind x == 1, eSrc0 x)
  | 1 => (false, eHaddr x)
  | _ => (true, ePeer x)
/-- Whether the loader can fetch n bytes from that source: host memory through the interface in RUN and its stream (R399, R400), a peer through an OPEN association of the context whose
LIMIT covers the bytes (R381); an alternate source that the entry leaves 0 is none. -/
def State.sourceOpen (s : State) (p asid x n : Nat) : Bool :=
  let q := s.part p
  let src := entrySource x
  (eFirst x == 0 || src.2 != 0)
  && (if src.1 then q.peers.any fun e => e.2.st == 3 && e.2.asid == asid && decide (src.2 + n ≤ e.2.limit) else q.tdisp == .run && q.ide)
/-- An entry fails: its tensor is poisoned, the next source is tried while attempts remain, and after the last an event record is written. -/
def State.shardFail (s : State) (p asid base i : Nat) : State :=
  let q := s.part p
  let x := s.manifestEntry q base i
  let src := eFirst x % 3
  let key := 4096 * asid + i
  let n := Tab.get 0 q.manifest.tries key + 1
  let nxt := nextSource x src
  let s1 := s.setPoison p asid (eTid x) true
  let s2 := ((s1.setEntry p asid base i 0x29 src).setEntry p asid base i 0x2B (min 255 (eFails x + 1))).setEntry p asid base i 0x07 nxt
  if n ≤ eRetry x then
    (s2.setEntry p asid base i 0x2A 2).modPart p fun q => { q with manifest := { q.manifest with
      st := 1
      todo := if q.manifest.todo.contains (asid, i) then q.manifest.todo else q.manifest.todo ++ [(asid, i)]
      tries := Tab.set 0 q.manifest.tries key n
      retries := if nxt = 0 then q.manifest.retries else min 65535 (q.manifest.retries + 1) } }
  else
    ((s2.setEntry p asid base i 0x2A 3).modPart p fun q => { q with manifest := { q.manifest with
      todo := q.manifest.todo.filter (· != (asid, i))
      tries := Tab.set 0 q.manifest.tries key n } }).appendEvent p asid ⟨0, ⟨0, 0, 0, eTid x % 2 ^ 32⟩, none, none⟩

/-! ## Digests (R337) -/

/-- The plaintext bytes of a tensor, when every line passes its checks. -/
def State.tensorBytes (s : State) (p : Nat) (b : RangeBind) : Option (List Byte) :=
  let r := s.recOf p b
  (List.range (b.limit / 64)).foldr (fun n acc =>
    match acc, s.tensorPlace p b (64 * n) with
    | some t, some pl =>
      match s.readPlace p b.asid pl r.ver r.kgen with
      | .data v => some (leBytes 64 v.toNat ++ t)
      | _ => none
    | _, _ => none) (some [])
/-- Whether a tensor's bytes have the digest of its manifest entry. -/
def State.digestMatches (s : State) (p : Nat) (b : RangeBind) (x : Nat) : Bool :=
  (s.tensorBytes p b).any fun t => (Config.sha384 t).toNat == eDigest x
/-- Line n of a tensor as a digest check reads it at this tick: of a CLOSED tensor whose line passes its checks (R331, R337, R338). -/
def State.digestLine (s : State) (p : Nat) (b : RangeBind) (n : Nat) : Option Beat :=
  let r := s.recOf p b
  if r.isFor p b.tid b.asid ∧ r.st = .closed then
    (s.tensorPlace p b (64 * n)).bind fun pl => match s.readPlace p b.asid pl r.ver r.kgen with | .data v => some v | _ => none
  else none
/-- The line that a check reads next: one at each tick of its context. -/
def DigestCheck.line (d : DigestCheck) : Nat := d.bytes.length / 64
/-- Whether a check reads a line in this tick: its context goes on, and it has lines left. -/
def State.reads (s : State) (p : Nat) (d : DigestCheck) : Bool :=
  decide (d.from' + d.line ≤ s.ctxTick p d.asid) && decide (d.from' + d.line < d.at')
  && (s.ctx p d.asid).any fun x => x.st == .active || x.st == .ready
/-- A check with its next line read. -/
def DigestCheck.read (d : DigestCheck) (s : State) (p : Nat) : DigestCheck :=
  if s.reads p d then
    match s.digestLine p d.bind d.line with
    | some v => { d with bytes := d.bytes ++ leBytes 64 v.toNat }
    | none => { d with bytes := d.bytes ++ leBytes 64 0, ok := false }
  else d
/-- Each digest check of a partition reads its line of the present tick (R337); an uncorrectable line counts (R363). -/
def State.digestRead (s : State) (p : Nat) : State :=
  (s.part p).digests.foldl (fun s d =>
    if s.reads p d then
      match s.tensorPlace p d.bind (64 * d.line) with | some pl => s.meetError p pl 1 | none => s
    else s) (s.modPart p fun q => { q with digests := q.digests.map fun d => d.read s p })
/-- Whether the result of a check is due: its tick has come, and its context goes on. -/
def State.digestDue (s : State) (p : Nat) (d : DigestCheck) : Bool :=
  decide (d.at' ≤ s.ctxTick p d.asid) && (s.ctx p d.asid).any fun x => x.st == .active || x.st == .ready
/-- The end of a digest check: a match sets DIGOK and clears PSN; else, and without a valid entry for the tensor, PSN is set, and the shard of an entry of this package is fetched
again. A re-check goes by the entry that it began with. -/
def State.endDigest (s : State) (p : Nat) (d : DigestCheck) : State :=
  let b := d.bind
  let q := s.part p
  let set := fun (s : State) (bad : Bool) =>
    (if (s.recOf p b).isFor p b.tid b.asid then s.setVrec (s.part p) ((s.part p).pdie b.home) b.tid ((s.recOf p b).checked bad) else s).manifestCount p
  match (match d.entry with | some e => some e | none => s.entryOf p d.asid b.tid) with
  | none => set s true
  | some (base, i) =>
    match s.entryIn q d.asid base i with
    | none => set s true
    | some x =>
      if d.ok ∧ (Config.sha384 d.bytes).toNat = eDigest x then set s false
      else if ePkg x = s.fabidx then set (s.shardFail p d.asid base i) true
      else set s true
/-- DIGEST_RESULT (R337): the check of tensor tid that ends at this tick. -/
def execDigestResult (p tid : Nat) (s : State) : Out :=
  .next (withPart s p fun q =>
    match q.digests.find? fun d => d.bind.tid == tid && s.digestDue p d with
    | none => s
    | some d => (s.modPart p fun q => { q with digests := q.digests.filter fun e => !(e == d) }).endDigest p d)

/-! ## Loads (R340 to R344) -/

/-- A write of GO for a context (R340 to R342): while a load runs it sets ASID only. A manifest whose header is invalid, or that has an entry of this package that is, sets FAILED
(R7; log entry 29); else every entry of this package is pending again, and no source has failed. -/
def State.startLoad (s : State) (p asid : Nat) (q : Part) : State :=
  let s0 := s.modPart p fun q => { q with manifest := { q.manifest with asid := asid } }
  if q.manifest.st = 1 then s0
  else
    let base := q.manifest.base
    let fail := s0.modPart p fun q => { q with manifest := { q.manifest with cur := asid, st := 3 } }
    match s.manifestHeader q asid base with
    | none => fail
    | some h =>
      let es := s.ownEntries q base h.1
      if !(es.all fun i => (s.entryIn q asid base i).isSome) then fail
      else
        let s1 := es.foldl (fun s i => (s.setEntry p asid base i 0x29 0xFF).setEntry p asid base i 0x2A 0) (s0.meetRecord q base (64 + 128 * h.1))
        (s1.modPart p fun q => { q with manifest := { q.manifest with
          cur := asid
          st := 1
          todo := es.map fun i => (asid, i)
          late := q.manifest.late.filter fun e => e.1 != asid
          tries := q.manifest.tries.filter fun e => e.1 / 4096 != asid
          loaded := Tab.put q.manifest.loaded asid base } }).manifestCount p
/-- MANIFEST_LOAD (R340, R342): the guest driver writes GO, with the ASID of the manifest's context. -/
def execManifestLoad (p asid : Nat) (s : State) : Out := .next (withVf s p fun q => s.startLoad p asid q)
/-- Write the lines of a shard whole within a loader epoch and commit it; none when a line is refused. -/
def State.loadShard (s : State) (p : Nat) (b : RangeBind) (data : List Nat) : Option State :=
  let r := s.recOf p b
  if b.limit ≠ data.length ∨ r.st = .opened ∨ 2 ^ 32 - 1 ≤ r.next then none
  else
    let s1 := s.openEpoch p b
    let r1 := s1.recOf p b
    let line := fun (n : Nat) => BitVec.ofNat 512 (leNat (((data.drop (64 * n)).take 64).map (BitVec.ofNat 8)))
    let s2 := (List.range (b.limit / 64)).foldl (fun (acc : Option State) n =>
      match acc, s1.tensorPlace p b (64 * n) with
      | some z, some pl => (z.writePlace (8192 + p) p b.asid pl r1.ever r1.egen (line n)).map fun z => z.countLine p ((z.part p).pdie b.home) b.tid
      | _, _ => none) (some s1)
    match s2 with
    | some z => some (z.commitEpoch p b)
    | none => some (s1.commitEpoch p b)
/-- SHARD_ATTEMPT_COMPLETE (R342, R343): the fetch of the entry under load from the source that FIRST names has ended, with the bytes that it gave when it was not refused there. -/
def execShardAttemptComplete (p i : Nat) (ok : Bool) (data : List Nat) (s : State) : Out :=
  .next (withPart s p fun q =>
    match q.manifest.todo with
    | [] => s
    | (asid, j) :: _ =>
      if q.manifest.st ≠ 1 ∨ j ≠ i then s
      else
        let base := q.manifest.baseOf asid
        let fail := fun (s : State) => (s.shardFail p asid base i).manifestCount p
        match s.entryIn q asid base i with
        | none => fail s
        | some x =>
          match s.readDesc p asid (eTid x) with
          | (s0, none) => fail s0
          | (s0, some b) =>
            match (if ok && b.shard && s0.sourceOpen p asid x data.length then s0.loadShard p b data else none) with
            | none => fail s0
            | some s1 =>
              if (s1.recOf p b).st = .closed ∧ s1.digestMatches p b x then
                (((s1.setPoison p asid (eTid x) false).setEntry p asid base i 0x2A 1).modPart p fun q =>
                  { q with manifest := { q.manifest with todo := q.manifest.todo.filter (· != (asid, i)) } }).manifestCount p
              else fail s1)
/-- The entries still to be loaded whose DEADLINE has come at the tick of their context, which goes on, and has not failed them before (R343). -/
def State.lateShards (s : State) (p : Nat) (q : Part) : List (Nat × Nat) :=
  if q.manifest.st = 1 then
    q.manifest.todo.filter fun e => !q.manifest.late.contains e && decide (eDeadline (s.manifestEntry q (q.manifest.baseOf e.1) e.2) ≤ s.ctxTick p e.1)
      && (s.ctx p e.1).any fun x => x.st == .active || x.st == .ready
  else []
/-- SHARD_DEADLINE (R343): an entry still to be loaded that is not checked by its deadline fails, once. -/
def execShardDeadline (p i : Nat) (s : State) : Out :=
  .next (withPart s p fun q =>
    ((s.lateShards p q).filter fun e => e.2 == i).foldl (fun s e =>
      ((s.modPart p fun q => { q with manifest := { q.manifest with late := e :: q.manifest.late } }).shardFail p e.1 (q.manifest.baseOf e.1) i).manifestCount p) s)
/-- The re-checks of one loaded manifest that fall due at this context tick (R344): its checked entries of this package. -/
def State.recheck (s : State) (p asid base : Nat) : State :=
  let q := s.part p
  let t := s.ctxTick p asid
  match s.manifestHeader q asid base with
  | none => s
  | some h =>
    if h.2 = 0 ∨ t % (256 * h.2) ≠ 0 ∨ ((s.ctx p asid).any fun x => x.st == .active || x.st == .ready) = false then s
    else
      (s.ownEntries q base h.1).foldl (fun s i =>
        match (s.entryIn q asid base i).filter fun x => eStatus x == 1 with
        | none => s
        | some x =>
          match s.readDesc p asid (eTid x) with
          | (s1, none) => s1
          | (s1, some b) => s1.modPart p fun q => { q with digests := q.digests ++ [⟨b, asid, t, t + b.limit / 64, [], true, some (base, i)⟩] }) s
/-- MANIFEST_RECHECK (R344). -/
def execManifestRecheck (p : Nat) (s : State) : Out :=
  .next (withPart s p fun q => q.manifest.loaded.foldl (fun s e => s.recheck p e.1 e.2) s)

end Sys2Proof.Machine
end

