-- ==== Sys2Proof/Machine/Link.lean ====
section
/-! DEFINITION. Links: die attaches, circuits and spare wavelengths, ports, and the flits that arrive (R366 to R379). -/
namespace Sys2Proof.Machine

/-- An event to the host driver: 1 power, 2 attach, 3 circuit. -/
def State.tellHost (s : State) (kind n : Nat) : State := { s with hostEvents := (kind, n) :: s.hostEvents }

/-! ## Die attaches (Table 18.3) -/

/-- Change the attach of a die from one state to another. -/
def State.moveAttach (s : State) (d : Nat) (from' : LinkSt) (f : Die → Die) : State :=
  if d < 8 ∧ (s.die d).attach = from' then s.modDie d f else s
/-- ATTACH_RESET_END. -/
def execAttachResetEnd (die : Nat) (s : State) : Out :=
  .next (s.moveAttach die .reset fun d => { d with attach := .training, inReset := false })
/-- ATTACH_TRAINING_PASS. -/
def execAttachTrainingPass (die : Nat) (s : State) : Out :=
  .next (s.moveAttach die .training fun d => { d with attach := .active })
/-- ATTACH_RETRAIN_REQUEST: no flit is lost. -/
def execAttachRetrainRequest (die : Nat) (s : State) : Out :=
  .next (s.moveAttach die .active fun d => { d with attach := .training })
/-- Tear down every context with a core on a physical die. -/
def State.teardownDie (s : State) (d : Nat) : State :=
  s.parts.foldl (fun s e => e.2.ctxs.foldl (fun s x =>
    if (s.coresOf e.1 x.1 CoreSt.bound').any fun k => coreDie k == d then s.teardown e.1 x.1 else s) s) s
/-- ATTACH_TRAINING_FAIL: the third failure of a training leaves the attach FAULTED. -/
def execAttachTrainingFail (die : Nat) (s : State) : Out :=
  if die < 8 ∧ (s.die die).attach = .training then
    .next (((s.modDie die fun d => { d with attach := .faulted }).teardownDie die).tellHost 2 die)
  else .next s

/-! ## The points table (R373, R374) -/

/-- The fields that a write gives an entry (Table 18.4). -/
def Circuit.withWord (c : Circuit) (w : Nat) : Circuit :=
  { c with part := field w 55 53, toPort := field w 48 48 == 1, dst := field w 47 44, src := field w 39 37, nwl := field w 31 24 }
/-- Wavelengths that the circuits not FREE take of those that f picks. -/
def State.wavelengths (s : State) (f : Circuit → Bool) : Nat :=
  s.circuits.foldl (fun n e => if e.2.st != .free && f e.2 then n + e.2.nwl else n) 0
/-- The code by which a circuit is refused (R374), or 0. -/
def State.circuitCode (s : State) (c : Circuit) : Nat :=
  match Tab.find s.parts c.part with
  | none => 1
  | some q =>
    if !q.dies.contains c.src || (!c.toPort && (!q.dies.contains c.dst || c.dst == c.src)) then 1
    else if c.nwl = 0 ∨ (if c.toPort then 4 else 64) < c.nwl then 2
    else
      let full := fun (d : Nat) => decide (64 < s.wavelengths (·.onDie d) + c.nwl)
      if full c.src || (!c.toPort && full c.dst) || (c.toPort && decide (4 < s.wavelengths (·.onPort c.dst) + c.nwl)) then 3 else 0
/-- CIRCUIT_ENABLE (R374): a write of entry e with EN 1. -/
def execCircuitEnable (e w : Nat) (s : State) : Out :=
  if 256 ≤ e then .next s
  else
    let c := s.circuit e
    let n := c.withWord w
    if c.st ≠ .free then .next (if n = c then s else { s with lerr := 5 })
    else if s.circuitCode n ≠ 0 then .next { s with lerr := s.circuitCode n }
    else
      .next ((s.modCircuit e fun _ => { n with en := true, st := .setting, act := 0, setups := (c.setups + 1) % 2 ^ 32 }).atWall
        (s.wtime + 1 + Config.free (2 ^ 20) (s.epoch * 2 ^ 40 + 2 ^ 24 + e) % 25000) (.circuitLit e))
/-- CIRCUIT_LIT (R372): the lanes of the circuit open at SEQ 0. It lights only once the attaches of its dies are ACTIVE. -/
def execCircuitLit (e : Nat) (s : State) : Out :=
  let c := s.circuit e
  if c.st ≠ .setting then .next s
  else if (s.die c.src).attach ≠ .active ∨ (!c.toPort ∧ (s.die c.dst).attach ≠ .active) then .next (s.later (2 ^ 24 + e) (.circuitLit e))
  else
    .next { s.modCircuit e fun c => { c with st := .up, act := c.nwl } with
      lanes := s.lanes.filter fun l => !(l.1 / 256 == 16 + e || l.1 / 256 == 1024 + e)
      seqs := s.seqs.filter fun l => !(l.1 / 256 == 16 + e || l.1 / 256 == 1024 + e) }
/-- Whether a circuit carries or will carry beats between its dies. -/
def Circuit.joins (c : Circuit) : Bool := c.st == .setting || c.st == .up || c.st == .degraded
/-- CIRCUIT_DISABLE (R374): refused with code 4 when it would leave two dies of a live partition without a circuit. -/
def execCircuitDisable (e : Nat) (s : State) : Out :=
  let c := s.circuit e
  if c.st = .up ∨ c.st = .degraded ∨ c.st = .failed then
    let same := fun (z : Circuit) => !z.toPort && ((z.src == c.src && z.dst == c.dst) || (z.src == c.dst && z.dst == c.src))
    let other := s.circuits.any fun z => z.1 != e && z.2.joins && same z.2
    if !c.toPort && c.joins && (Tab.find s.parts c.part).isSome && !other then .next { s with lerr := 4 }
    else
      .next ((s.modCircuit e fun c => { c with en := false, st := .draining }).atWall
        (s.wtime + 1 + Config.free (2 ^ 20) (s.epoch * 2 ^ 40 + 2 ^ 24 + 256 + e) % 25000) (.circuitDrainComplete e))
  else .next s
/-- CIRCUIT_DRAIN_COMPLETE (R372). -/
def execCircuitDrainComplete (e : Nat) (s : State) : Out :=
  if (s.circuit e).st = .draining then .next (s.modCircuit e fun c => { c with st := .free, act := 0 }) else .next s

/-! ## Spare wavelengths (R376, R377) -/

/-- Spares of a die that are neither lit nor fenced. -/
def Die.spares (d : Die) : Nat := 8 - d.wlUsed - ((List.range 8).filter fun i => d.fens / 2 ^ i % 2 == 1).length
/-- A circuit loses a wavelength: which of the die's circuits carried it is free. -/
def State.degrade (s : State) (d : Nat) : State :=
  let es := (s.circuits.filter fun e => (e.2.st == .up || e.2.st == .degraded) && e.2.onDie d).map (·.1)
  match es with
  | [] => s
  | e0 :: _ =>
    let e := es.getD (Config.free (2 ^ 20) (s.epoch * 2 ^ 40 + 2 ^ 25 + d) % es.length) e0
    (s.modCircuit e fun c => { c with act := c.act - 1, st := if c.act ≤ 1 then .failed else .degraded }).tellHost 3 e
/-! ### What the journal keeps (R396); functions by log entry 8, as Machine/Health.lean numbers them -/

def fnKind (fn : Nat) : Nat := fn / 2 ^ 32
def fnRest (fn : Nat) : Nat := fn % 2 ^ 32
def fnIsRow (fn : Nat) : Bool := fnKind fn == 3 || fnKind fn == 4
/-- Fences, wavelength fences and rows ever marked go to the journal. -/
def State.keep (s : State) (d : Nat) : State :=
  let y := s.die d
  let waves := ((List.range 64).filter fun i => y.fenw / 2 ^ i % 2 == 1) ++ ((List.range 8).filter fun i => y.fens / 2 ^ i % 2 == 1).map (64 + ·)
  let rows := (((Tab.find s.kept d).getD []).filter fnIsRow ++ y.marked).eraseDups
  { s with kept := Tab.set [] s.kept d (y.fences ++ waves.map (5 * 2 ^ 32 + ·) ++ rows) }
/-- Flits in flight on some lit circuits are replayed (R371): how many were in flight on each is free. -/
def State.replays (s : State) (on : Circuit → Bool) (code : Nat) : State :=
  { s with circuits := s.circuits.map fun (e : Nat × Circuit) =>
      if e.2.lit && on e.2 then (e.1, { e.2 with replay := min (2 ^ 32 - 1) (e.2.replay + Config.free (2 ^ 20) (s.epoch * 2 ^ 40 + 2 ^ 28 + 256 * code + e.1)) }) else e }
/-- A lit wavelength of a die is replaced by a spare, or its circuit loses it. -/
def State.replaceWave (s : State) (d : Nat) : State :=
  if 0 < (s.die d).spares then s.modDie d fun y => { y with wlUsed := y.wlUsed + 1 } else s.degrade d
/-- Fence working wavelength i below 64, or spare i − 64 (R376, R377): the flits in flight on it are replayed, and a spare takes its place; whether a fenced spare was lit is
free. -/
def State.fenceWave (s : State) (die i : Nat) : State :=
  if 8 ≤ die ∨ 72 ≤ i then s
  else
    let d := s.die die
    if i < 64 then
      if d.fenw / 2 ^ i % 2 = 1 then s else ((s.modDie die fun y => { y with fenw := y.fenw + 2 ^ i }).replays (·.onDie die) (72 * die + i)).replaceWave die
    else if d.fens / 2 ^ (i - 64) % 2 = 1 then s
    else
      let lit := decide (0 < d.wlUsed) && (Config.free (2 ^ 20) (s.epoch * 2 ^ 40 + 2 ^ 25 + 8 + i) % 2 == 1 || d.spares == 0)
      let s1 := s.modDie die fun y => { y with fens := y.fens + 2 ^ (i - 64), wlUsed := if lit then y.wlUsed - 1 else y.wlUsed }
      if lit then (s1.replays (·.onDie die) (72 * die + i)).replaceWave die else s1
/-- WAVELENGTH_FENCE (R376, R377): the fence goes to the journal. -/
def execWavelengthFence (die i : Nat) (s : State) : Out := .next (if die < 8 then (s.fenceWave die i).keep die else s)
/-- The wavelengths of a die that may be lit, by number, spares from 64 on. -/
def Die.litWaves (d : Die) : List Nat :=
  ((List.range 64).filter fun i => d.fenw / 2 ^ i % 2 == 0) ++ (if d.wlUsed = 0 then [] else ((List.range 8).filter fun i => d.fens / 2 ^ i % 2 == 0).map (64 + ·))
/-- A flit has failed its check on a wavelength of a die, which of those lit is free: one with more than 16 such failures within 2^24 wall ticks is fenced (R376). -/
def State.waveFail (s : State) (d : Nat) : State :=
  let ws := (s.die d).litWaves
  let i := ws.getD (Config.free (2 ^ 20) (s.epoch * 2 ^ 40 + 2 ^ 26 + 8 * s.inputs.length + d) % ws.length) 72
  let ts := s.wtime :: (Tab.get [] s.waveFails (72 * d + i)).filter fun t => decide (s.wtime < t + 2 ^ 24)
  if ws = [] then s
  else if ts.length ≤ 16 then { s with waveFails := Tab.put s.waveFails (72 * d + i) ts }
  else (({ s with waveFails := Tab.set [] s.waveFails (72 * d + i) [] }).fenceWave d i).keep d

/-! ## Ports (R372, R378) -/

/-- PORT_ENABLE. -/
def execPortEnable (n : Nat) (s : State) : Out := .next (if n < 16 ∧ s.port n = .down then s.setPort n .training else s)
/-- PORT_TRAINING_PASS: ports run as ×4 alone (Table 18.1); control flits that waited are sent (R384). -/
def execPortTrainingPass (n width : Nat) (s : State) : Out :=
  if s.port n = .training ∧ width = 4 then
    let s1 := s.setPort n .up
    .next { s1 with sent := ((s1.waiting.filter fun e => e.1 == n).map (·.2)).reverse ++ s1.sent, waiting := s1.waiting.filter fun e => !(e.1 == n) }
  else .next s
/-- PORT_LANE_LOSS: flits are replayed after training. -/
def execPortLaneLoss (n : Nat) (s : State) : Out := .next (if s.port n = .up then (s.setPort n .training).replays (·.onPort n) (1024 + n) else s)
/-- Send a control message on the package lane of a port, as many flits of 64 bytes as its payload needs and one at least: at once while it is UP, else when it next is, or
never when it is DOWN. -/
def State.sendControl (s : State) (n kind p i : Nat) (body : List Byte) : State :=
  let at' := 256 * (512 + n) + 255
  let seq := ((Tab.find s.seqs at').map (·.1)).getD 0
  let m : Sent := ⟨kind, p, i, n, seq, body⟩
  let s1 := { s with seqs := Tab.put s.seqs at' (seq + max 1 ((body.length + 63) / 64), 0) }
  match s.port n with
  | .up => { s1 with sent := m :: s1.sent }
  | .training => { s1 with waiting := s1.waiting ++ [(n, m)] }
  | _ => s
/-- Count a flit or beat as discarded on a circuit of a partition to a port (Table 18.5). -/
def State.countDisc (s : State) (p port n : Nat) : State :=
  match s.circuits.find? fun e => e.2.onPort port && e.2.part == p && e.2.st != .free with
  | some e => s.modCircuit e.1 fun c => { c with disc := min 65535 (c.disc + n) }
  | none => s
/-- Change a peer entry of a partition. -/
def State.modPeer (s : State) (p i : Nat) (f : Peer → Peer) : State :=
  s.modPart p fun q => { q with peers := Tab.put q.peers i (f ((Tab.find q.peers i).getD Peer.reset)) }
/-- Leave an association: the keys are destroyed, inbound beats not released are discarded, those awaited hold nothing more, and outbound beats not sent are refused (R383). -/
def State.dropPeer (s : State) (p i st why : Nat) : State :=
  let q := s.part p
  let y := s.peer p i
  let n := (q.inbound.filter fun e => e.peer == i).length
  let s1 := (s.modPart p fun q => { q with inbound := q.inbound.filter fun e => !(e.peer == i) }).modPeer p i fun y =>
    { y with st := st, why := why, keys := none, init := none, resp := none }
  let s2 := (s1.countDisc p y.port n).unawait p fun g => g / 2 ^ 76 == 2 ^ 52 + (512 + y.port) * 256 + 32 * p + i
  let mine := fun (l : Nat) => decide (512 ≤ l / 256) && decide (l / 256 < 528) && l % 256 == 32 * p + i
  (s2.outq.filter fun o => o.part == p && o.peer == i).foldl State.refuseOut { s2 with
    lanes := s2.lanes.filter fun l => !mine l.1
    seqs := s2.seqs.filter fun l => !mine l.1
    outq := s2.outq.filter fun o => !(o.part == p && o.peer == i) }
/-- PORT_DISABLE: every peer association on the port is CLOSED. -/
def execPortDisable (n : Nat) (s : State) : Out :=
  if s.port n = .up ∨ s.port n = .training then
    let s1 := { s.setPort n .down with waiting := s.waiting.filter fun e => !(e.1 == n) }
    .next (s1.parts.foldl (fun s e => e.2.peers.foldl (fun s y =>
      if y.2.port = n ∧ y.2.st ≠ 0 then s.dropPeer e.1 y.1 0 y.2.why else s) s) s1)
  else .next s
/-- FABIDX_WRITE (R378). -/
def execFabidxWrite (v : Nat) (s : State) : Out := .next (if s.ports = [] then { s with fabidx := v % 1024 } else s)

/-! ## Flits (R367 to R371, R381) -/

/-- The key under which a flit must have been sealed, with its generation. -/
def State.flitKey (s : State) (q : Part) (f : Flit) (g : Nat) : Option (BitVec 256) :=
  if (flitPeer f) = 0 then (flitCircuit f).map fun e => s.linkKey q e g (decide (f.link < 1024))
  else
    let y := (Tab.find q.peers (flitPeer f)).getD Peer.reset
    if y.st = 2 ∨ y.st = 3 then y.keys.map fun k => if y.responder then k.1 else k.2 else none
/-- Whether a flit's tag verifies under a key and generation. -/
def flitVerifies (f : Flit) (key : BitVec 256) (g : Nat) : Bool :=
  (blockBytes (Config.gcmTag key (flitIv f g) (flitHeader f) (leBytes 64 f.data.toNat))).take 8 == leBytes 8 f.tag.toNat
/-- The plaintext of a flit. -/
def flitPlain (f : Flit) (key : BitVec 256) (g : Nat) : Beat :=
  BitVec.ofNat 512 (leNat (xorBytes (leBytes 64 f.data.toNat) (gcmStream key (flitIv f g) 64)))
/-- Whether beat b of a copy is the one that a flit carries, by all its fields (Table 18.2), or that a refusal of a peer names, at either end of it. -/
def State.flitNames (s : State) (c : Core) (y : Copy) (b : Nat) (f : Flit) : Bool :=
  if flitPeer f = 0 then (y.kind == .timed || y.kind == .send || y.kind.sealed) && s.flitFields c y b == (f.kind, f.space, f.sel % 2 ^ 32, f.off, f.tick)
  else [true, false].any fun dst => y.kind == .timed && y.space dst == 5 && y.sel dst == flitPeer f && y.offset dst b == f.off && y.deadline b == f.tick
/-- The beat of this package that a flit carries or refuses: its core, stream, copy and number. -/
def State.flitBeat (s : State) (p : Nat) (f : Flit) : Option (Nat × Nat × Nat × Nat) :=
  s.cores.findSome? fun e =>
    if e.2.part ≠ p then none
    else (List.range 2).findSome? fun st => (e.2.stream st).copies.findSome? fun y =>
      (List.range (y.n + y.kind.sealed.toNat)).findSome? fun b => if s.flitNames e.2 y b f then some (e.1, st, y.id, b) else none
def laneKey (f : Flit) : Nat := 256 * f.link + f.lane
def State.laneOf' (s : State) (f : Flit) : Lane' := (Tab.find s.lanes (laneKey f)).getD ⟨0, 0, 0⟩
def State.setLane (s : State) (f : Flit) (l : Lane') : State := { s with lanes := Tab.put s.lanes (laneKey f) l }
/-- The circuit that a flit counts on: its own, or its partition's to the port that it comes from. -/
def State.flitEntry (s : State) (f : Flit) : Option Nat :=
  match flitCircuit f with
  | some e => some e
  | none =>
    if 512 ≤ f.link ∧ f.link < 528 then (s.circuits.find? fun e => e.2.onPort (f.link - 512) && e.2.part == flitPart f && e.2.st != .free).map (·.1) else none
/-- Count on the circuit of a flit. -/
def State.countFlit (s : State) (f : Flit) (g : Circuit → Circuit) : State :=
  match s.flitEntry f with | some e => s.modCircuit e g | none => s
/-- A failed check on a wavelength of the die that receives a flit. -/
def State.waveFailed (s : State) (f : Flit) : State :=
  match s.flitEntry f with
  | some e => let c := s.circuit e; s.waveFail (if 16 ≤ f.link ∧ f.link < 272 ∧ !c.toPort then c.dst else c.src)
  | none => s
/-- A flit whose tag has failed: replayed, and after eight failures in a row lost, with the beat that it carries (R371): one of a peer is a beat of the peer's context. -/
def State.flitFail (s : State) (f : Flit) : State :=
  let l := s.laneOf' f
  let s1 := (s.countFlit f fun c => { c with tagf := min 65535 (c.tagf + 1), replay := min (2 ^ 32 - 1) (c.replay + 1) }).waveFailed f
  if l.fails + 1 < 8 then s1.setLane f { l with fails := l.fails + 1 }
  else
    let s2 := (s1.setLane f { l with fails := 0, seq := l.seq + 1 }).unawait (flitPart f) (· == flitTag f)
    match (if flitPeer f = 0 then s2.flitBeat (flitPart f) f else none) with
    | some (k, st, id, b) => s2.copyFaultAt k st id b 0x0A 0 (s2.tick k) false
    | none => s2
/-- Deliver a flit (R368, R381): a beat of this package is present, one of a peer is checked against its tensor and waits for its release tick (R27),
with which a hold for it clears (R226), and a refusal is the TENSOR fault of the beat refused. -/
def State.deliver (s : State) (f : Flit) (v : Beat) : State :=
  let p := (flitPart f)
  if (flitPeer f) = 0 then
    match s.flitBeat p f with
    | some (k, st, id, b) => match execBeatPresent k st id b s with | .next t => t | _ => s
    | none => s
  else
    let y := s.peer p (flitPeer f)
    let s1 := if y.st = 2 ∧ !y.responder ∧ f.seq = 0 then s.modPeer p (flitPeer f) fun y => { y with st := 3, init := none, resp := none } else s
    if f.kind = 1 then
      let q := s1.part p
      let tick := match q.awaited.find? fun a => a.1 == flitTag f with | some a => a.2 | none => q.tickAt f.tick
      let s2 := s1.unawait p (· == flitTag f)
      match s2.readDesc p y.asid f.sel with
      | (s3, none) => s3.refusePeer p (flitPeer f) f.sel f.off f.tick
      | (s3, some b) =>
        let r := s3.recOf p b
        if r.writable b p && decide (f.off + 64 ≤ b.limit) then
          s3.modPart p fun q => { q with inbound := q.inbound ++
            [⟨s.epoch * 2 ^ 20 + q.inbound.length, (flitPeer f), f.sel, f.off, tick, v, r.ever, f.seq, f.tick⟩] }
        else s3.refusePeer p (flitPeer f) f.sel f.off f.tick
    else if f.kind = 3 then
      match s1.flitBeat p f with
      | some (k, st, id, b) => s1.copyFaultAt k st id b 0x0C y.rtid (s1.tick k) false
      | none => s1
    else s1
/-- The generations under which the next flit of a lane may be sealed, each with the SEQ that it then has: the two of the tenant that are live, from the lane's own on; the lane
restarts under a later one (R369). Of a peer, whose generations this package cannot see, the lane's own and the one after it as well (log entry 32). -/
def laneGens (q : Part) (f : Flit) (l : Lane') : List (Nat × Nat) :=
  let live := [q.gen - 1, q.gen].filter fun g => decide (1 ≤ g) && decide (l.gen ≤ g)
  let far := if flitPeer f = 0 ∨ l.gen = 0 then [] else [l.gen, l.gen + 1]
  (far ++ live).eraseDups.map fun g => (g, if g = l.gen ∨ l.gen = 0 then l.seq else 0)
/-- The key, the generation and the awaited SEQ under which a flit's tag verifies. -/
def State.openFlit (s : State) (q : Part) (f : Flit) : Option (BitVec 256 × Nat × Nat) :=
  (laneGens q f (s.laneOf' f)).findSome? fun a =>
    ((s.flitKey q f a.1).filter fun key => flitVerifies f key a.1).map fun key => (key, a.1, a.2)
/-- The link on which a flit counts: of one that comes over the attach of a die, the circuit of its partition at that die under whose key it verifies, else the first (R366). -/
def State.arrivalLink (s : State) (q : Part) (f : Flit) : Nat :=
  if f.link < 8 then
    let ls := (s.circuits.filter fun e => e.2.part == flitPart f && e.2.onDie f.link).map fun e => if !e.2.toPort && e.2.dst == f.link then 16 + e.1 else 1024 + e.1
    (ls.find? fun l => (s.openFlit q { f with link := l }).isSome).getD (ls.headD f.link)
  else f.link
/-- Whether the circuit of an in-package flit carries it: one of its partition, not FREE, SETTING or FAILED (R372). -/
def State.flitCarried (s : State) (f : Flit) : Bool :=
  (flitCircuit f).any fun e => let c := s.circuit e; c.part == flitPart f && (c.lit || c.st == .draining)
/-- FLIT_RECEIVE (R367, R368, R371). A flit of a function under reset is discarded by its LANE (R384). Control flits of the package lane carry the handshakes and the time exchanges, which are events of
their own. -/
def execFlitReceive (f0 : Flit) (s : State) : Out :=
  let f := match Tab.find s.parts (flitPart f0) with | some q => { f0 with link := s.arrivalLink q f0 } | none => f0
  let disc := fun (s : State) => s.countFlit f fun c => { c with disc := min 65535 (c.disc + 1) }
  if f.kind = 0 ∨ 3 < f.kind ∨ f.rsv ≠ 0 ∨ f.off % 64 ≠ 0 then .next (disc s)
  else if f.lane = 255 then .next (if f.kind = 3 then s else disc s)
  else
    match Tab.find s.parts (flitPart f) with
    | none => .next s
    | some q =>
      if q.resetting || (flitPeer f == 0 && !s.flitCarried f) then .next s
      else if (s.flitKey q f q.gen).isNone then .next (disc s)
      else
        match s.openFlit q f with
        | none => .next (s.flitFail f)
        | some (key, g, n) =>
          if f.seq ≠ n then .next (s.countFlit f fun c => { c with replay := min (2 ^ 32 - 1) (c.replay + 1) })
          else .next ((s.setLane f ⟨n + 1, 0, g⟩).deliver f (flitPlain f key g))

end Sys2Proof.Machine
end

