-- ==== Sys2Proof/Machine/Peer.lean ====
section
/-! DEFINITION. Associations with peer packages and the function-level reset: R380 to R386, R427 in part. -/
namespace Sys2Proof.Machine

/-! ## The handshake (R382, Table 18.8) -/

/-- INIT as bytes, and RESP as bytes without and with its signatures. -/
def initBytes (m : PeerMsg) : List Byte :=
  leBytes 32 m.nonce ++ leBytes 32 m.pub ++ leBytes 1184 m.kem ++ leBytes 48 m.meas.toNat
def respBody (m : PeerMsg) : List Byte :=
  leBytes 32 m.nonce ++ leBytes 32 m.pub ++ leBytes 1088 m.kem ++ leBytes 48 m.meas.toNat
def respBytes (m : PeerMsg) : List Byte := respBody m ++ leBytes 64 m.ed ++ leBytes 3309 m.ml
/-- H1 and H2 of Table 18.8. -/
def hash1 (i r : PeerMsg) : Digest := Config.sha384 (initBytes i ++ respBody r)
def hash2 (i r : PeerMsg) : Digest := Config.sha384 (initBytes i ++ respBytes r)
/-- The two lane keys, initiator to responder and back. -/
def laneKeys (i r : PeerMsg) : BitVec 256 × BitVec 256 :=
  let salt := leBytes 48 (hash2 i r).toNat
  (Config.hkdf (Config.sharedSecret (hash2 i r)) salt (ascii "TL8800-peer-i2r"),
   Config.hkdf (Config.sharedSecret (hash2 i r)) salt (ascii "TL8800-peer-r2i"))
/-- Who signs for a peer: the identity numbered by its package and partition, apart from Oxyan's own (0 to 7). -/
def peerIdentity (y : Peer) : Nat := 8 + 8 * y.pkg + y.rpart
/-- The choice by which a step of this start passed (Table 20.6): which image runs. -/
def State.imageOf (s : State) (step unit : Nat) : Nat := match s.started.find? fun j => j.step == step && j.unit == unit with | some j => j.choice | none => 0
/-- Seeds of the device identity pair, and of the attestation pair of the firmware that runs (Table 20.2). -/
def identitySeed : BitVec 256 := Config.hkdf (leBytes 48 Config.deviceSecret.toNat) [] (ascii "TL8800-id")
def State.attestSeed (s : State) : BitVec 256 :=
  Config.hkdf (leBytes 32 identitySeed.toNat) [] (ascii "TL8800-att" ++ leBytes 48 (Config.firmwareDigest (s.imageOf 1 255)).toNat)
/-- Both halves of a signature of this package by its attestation pair (R401). -/
def State.sign (s : State) (h : Digest) : Nat × Nat := (Config.signEd s.attestSeed h, Config.signMl s.attestSeed h)
/-- A message of this package, unsigned: its nonce and keys are draws of Adsal's generator, its measurement is the package's own. -/
def State.ownMsg (s : State) (p : Nat) : State × PeerMsg :=
  let r := fun (i : Nat) => (Config.random (s.draws + i)).toNat
  ({ s with draws := s.draws + 3 }, ⟨s.fabidx, p, r 0, r 1, r 2, Config.ownMeasurement, 0, 0⟩)
/-- RESP to an INIT: signed over H1. -/
def State.ownResp (s : State) (p : Nat) (msg : PeerMsg) : State × PeerMsg :=
  let (s1, m) := s.ownMsg p
  (s1, { m with ed := (s.sign (hash1 msg m)).1, ml := (s.sign (hash1 msg m)).2 })
/-- FIN as bytes: both signatures over H2. -/
def State.finBytes (s : State) (i r : PeerMsg) : List Byte := let g := s.sign (hash2 i r); leBytes 64 g.1 ++ leBytes 3309 g.2
/-- How long a handshake waits for its next step (R383). -/
def peerWait : Nat := 2 ^ 24
/-- Record a handshake step of this wall tick, after which the next is awaited. -/
def State.peerStep (s : State) (p i : Nat) (f : Peer → Peer) : State :=
  (s.modPeer p i fun y => { f y with stepAt := s.wtime }).atWall (s.wtime + peerWait) (.peerTimeout p i)
/-- Whether i names a peer entry. -/
def peerIndex (i : Nat) : Bool := decide (1 ≤ i) && decide (i ≤ 30)

/-- PEER_OPEN (R382, R383): CLOSED becomes OFFERED; the initiator sends INIT. -/
def execPeerOpen (p i : Nat) (s : State) : Out :=
  .next (withVf s p fun _ =>
    let y := s.peer p i
    if peerIndex i ∧ y.st = 0 then
      if y.responder then s.modPeer p i fun y => { y with st := 1, why := 0, stepAt := s.wtime }
      else
        let (s1, m) := s.ownMsg p
        (s1.peerStep p i fun y => { y with st := 1, why := 0, init := some m }).sendControl y.port 1 p i (initBytes m)
    else s)
/-- PEER_CLOSE (R383): OPEN becomes CLOSED with a close control flit, FAILED becomes CLOSED. -/
def execPeerClose (p i : Nat) (s : State) : Out :=
  .next (withVf s p fun _ =>
    let y := s.peer p i
    if y.st = 3 then (s.dropPeer p i 0 0).sendControl y.port 4 p i []
    else if y.st = 4 then s.dropPeer p i 0 0
    else s)
/-- The responder entry on offer that matches the sender of an INIT, by PKG, RPART and ROLE. -/
def Part.offered (q : Part) (msg : PeerMsg) : Option (Nat × Peer) :=
  q.peers.find? fun e => peerIndex e.1 && e.2.st == 1 && e.2.responder && e.2.pkg == msg.pkg && e.2.rpart == msg.rpart
/-- PEER_INIT (R382), at port n: a responder entry on offer that matches the sender checks the measurement and answers with RESP on its own port; an INIT that matches none is
discarded and counted. -/
def execPeerInit (p n : Nat) (msg : PeerMsg) (s : State) : Out :=
  .next (withPart s p fun q =>
    match (if q.resetting then none else q.offered msg) with
    | none => s.countDisc p n 1
    | some (i, y) =>
      if msg.meas ≠ y.expect then s.dropPeer p i 4 2
      else
        let (s1, m) := s.ownResp p msg
        (s1.peerStep p i fun y => { y with st := 2, init := some msg, resp := some m, keys := some (laneKeys msg m) }).sendControl y.port 2 p i (respBytes m))
/-- PEER_RESP (R382): an initiator on offer checks the measurement and both signatures, derives the lane keys and sends FIN. -/
def execPeerResp (p i : Nat) (msg : PeerMsg) (s : State) : Out :=
  .next (withPart s p fun q =>
    let y := s.peer p i
    match y.init with
    | some m =>
      if q.resetting || y.st != 1 || y.responder then s
      else if msg.meas ≠ y.expect then s.dropPeer p i 4 2
      else if Config.verifies (peerIdentity y) (hash1 m msg) msg.ed msg.ml then
        (s.modPeer p i fun y => { y with st := 2, resp := some msg, keys := some (laneKeys m msg), stepAt := s.wtime }).sendControl y.port 3 p i (s.finBytes m msg)
      else s.dropPeer p i 4 1
    | none => s)
/-- PEER_FIN (R382): a responder that is KEYED checks both signatures and is OPEN; the transcript is erased. -/
def execPeerFin (p i : Nat) (msg : PeerMsg) (s : State) : Out :=
  .next (withPart s p fun q =>
    let y := s.peer p i
    match y.init, y.resp with
    | some a, some b =>
      if q.resetting || y.st != 2 || !y.responder then s
      else if Config.verifies (peerIdentity y) (hash2 a b) msg.ed msg.ml then
        s.modPeer p i fun y => { y with st := 3, init := none, resp := none, stepAt := s.wtime }
      else s.dropPeer p i 4 1
    | _, _ => s)
/-- PEER_CLOSE_RECEIVED (R383): the entry becomes FAILED with WHY 4. -/
def execPeerCloseReceived (p i : Nat) (s : State) : Out :=
  .next (withPart s p fun _ =>
    let st := (s.peer p i).st
    if peerIndex i ∧ st ≠ 0 ∧ st ≠ 4 then s.dropPeer p i 4 4 else s)
/-- PEER_TIMEOUT (R383): 2^24 wall ticks have passed since the last step of a handshake that awaits another: RESP at the initiator, FIN
at the responder. -/
def execPeerTimeout (p i : Nat) (s : State) : Out :=
  .next (withPart s p fun _ =>
    let y := s.peer p i
    if ((y.st = 1 ∧ !y.responder) ∨ (y.st = 2 ∧ y.responder)) ∧ y.stepAt + peerWait ≤ s.wtime then s.dropPeer p i 4 3 else s)

/-! ## Function-level reset (R384, R399, R402, R407) -/

/-- The receiving ends of the lanes once those within partition p have gone past the gaps of a reset (R385): each awaits the flit that its sender forms next, since no lane key
seals two flits under one SEQ (R370). -/
def State.lanesPast (s : State) (p : Nat) : Tab Lane' :=
  (s.seqs.filter fun l => l.1 % 256 != 255 && l.1 % 256 / 32 == p).foldl (fun t l => Tab.put t l.1 ⟨l.2.1, 0, l.2.2⟩)
    (s.lanes.filter fun l => l.1 % 256 == 255 || l.1 % 256 / 32 != p)
/-- The reset of a partition's function: contexts begin teardown, queues are OFF, peers are told and their entries fail, arrived beats and
lanes are gone; the partition reset follows when no context is left (R427). -/
def State.resetFunction (s : State) (p : Nat) : State :=
  withPart s p fun q =>
    let s0 := s.modPart p fun q => { q with resetting := true }
    let s1 := q.ctxs.foldl (fun s e => s.teardown p e.1) s0
    let s2 := s1.modPart p fun q => { q with
      queues := q.queues.map fun e => (e.1, { e.2 with en := false, st := .off })
      claims := []
      graphs := []
      tdisp := .configUnlocked
      ide := false
      tenantid := 0
      tenantSet := false
      unlocked := false }
    let tell := fun (s : State) (e : Nat × Peer) =>
      if e.2.st = 2 ∨ e.2.st = 3 then s.sendControl e.2.port 4 p e.1 [] else s
    let s3 := q.peers.foldl tell s2
    let s4 := (List.range 30).foldl (fun s i => s.dropPeer p (i + 1) 4 5) s3
    { (s4.modPart p fun q => { q with inbound := [] }) with
      lanes := s4.lanesPast p
      outq := s4.outq.filter fun o => o.part != p }
/-- FUNCTION_LEVEL_RESET (R384). -/
def execFunctionLevelReset (p : Nat) (s : State) : Out := .next (s.resetFunction p)

end Sys2Proof.Machine
end

