-- ==== Sys2Proof/Machine/Health.lean ====
section
/-! DEFINITION. Machine checks, fences, spares and the partition reset: R387 to R397, R427. -/
namespace Sys2Proof.Machine

/-! ## Locations (R391, Table 19.2; their numbers by log entry 8)

A location is 2^40 · die + a function; a function is 2^32 · kind + a place: 0 a vector lane (128 · position + 64 · unit + lane), 1 the core
logic of a position, 2 the matrix unit of a cluster, 3 a scratchpad row ((32 · position + bank) · 1,024 + row), 4 a station-memory row of 64
bytes, 5 a wavelength. A position is 32 · row + physical column. -/

def coreFn (pos : Nat) : Nat := 2 ^ 32 + pos
/-- The core position that stands at a physical position of a die. -/
def State.coreAtPhys (s : State) (d pos : Nat) : Option Nat :=
  ((List.range 16).map fun x => d * 256 + pos / 32 % 16 * 16 + x).find? fun k => (s.core k).pcol == pos % 32

/-! ## Fencing (R88, R391, R393, Table 19.2) -/

def Die.addFence (y : Die) (fn : Nat) : Die := { y with fences := if y.fences.contains fn then y.fences else y.fences ++ [fn] }
def Die.mark (y : Die) (fn : Nat) : Die := { y with marked := if y.marked.contains fn then y.marked else y.marked ++ [fn] }
/-- The contexts with a launch, BOUND or RUNNING, of which core k is a member: one that has left by EXIT is (R292), and one that a save has cleared (R278). -/
def State.launchedOn (s : State) (k : Nat) : List (Nat × Nat) :=
  s.parts.flatMap fun e =>
    (e.2.launches.filter fun l => l.2.members.contains k).map (fun l => (e.1, l.2.asid))
    ++ (e.2.ctxs.filter fun x => x.2.savedLaunches.any fun l => l.2.members.contains k).map fun x => (e.1, x.1)
/-- A core position becomes FENCED (Table 3.9): the context of a launch that it is a member of is torn down (R293). -/
def State.fenceCore (s : State) (k : Nat) : State :=
  ((s.launchedOn k).foldl (fun s e => s.teardown e.1 e.2) s).modCore k fun c => { c with st := .fenced }
/-- Fence the core logic of a physical position. -/
def State.fencePos (s : State) (d pos : Nat) : State :=
  let s1 := s.modDie d fun y => y.addFence (coreFn pos)
  match s1.coreAtPhys d pos with | some k => s1.fenceCore k | none => s1
/-- The lanes among some fences of a vector unit that its two spares serve: the first two fences take one each, the second of one lane in place of its first. -/
def spareLanes (fences : List Nat) (unit : Nat) : Nat := ((fences.filter fun g => fnKind g == 0 && fnRest g / 64 == unit).take 2).eraseDups.length
/-- A die with other fences: LSPARE follows those of a unit. -/
def Die.withFences (y : Die) (unit : Nat) (fs : List Nat) : Die := { y with fences := fs, lspare := y.lspare + spareLanes fs unit - spareLanes y.fences unit }
/-- Fence a function. A lane or a matrix unit that is fenced already stands for the spare that serves it, which has now failed itself (log entry 8): the lane's next spare, while there
is one, starts with no events. -/
def State.fence (s : State) (d fn : Nat) : State :=
  let y := s.die d
  let r := fnRest fn
  let again := y.fences.contains fn
  if again && fnKind fn != 0 && fnKind fn != 2 then s
  else (match fnKind fn with
    | 0 =>
      let used := (y.fences.filter fun g => fnKind g == 0 && fnRest g / 64 == r / 64).length
      let s1 := s.modDie d fun y => { y.withFences (r / 64) (y.fences ++ [fn]) with counts := Tab.set 0 y.counts fn 0 }
      if used < 2 then s1 else s1.fencePos d (r / 128)
    | 1 => s.fencePos d r
    | 2 => (List.range 4).foldl (fun s pos => s.fenceCore (coreAt d (r % 64) pos)) (s.modDie d fun y =>
        { y with fences := y.fences ++ [fn], counts := Tab.set 0 y.counts fn 0 })
    | 5 => s.fenceWave d r
    | _ => s.modDie d fun y => y.mark fn).keep d
/-- BUILTIN_TEST_COMPLETE (R391): the event is counted, and a failed test or a second event fences the function. -/
def execBuiltinTestComplete (die fn : Nat) (pass : Bool) (s : State) : Out :=
  if die < 8 ∧ fnKind fn ≤ 5 then
    let n := Tab.get 0 (s.die die).counts fn + 1
    let s1 := s.modDie die fun y => { y with counts := Tab.set 0 y.counts fn n }
    .next (if !pass || decide (2 ≤ n) then s1.fence die fn else s1)
  else .next s
/-- FENCECLR (R396): a re-test of a fence at the next partition reset. -/
def execFenceclr (loc : Nat) (s : State) : Out :=
  let d := loc / 2 ^ 40
  let fn := loc % 2 ^ 40
  if d < 8 then .next (s.modDie d fun y => { y with retest := if y.retest.contains fn then y.retest else y.retest ++ [fn] }) else .next s

/-! ## The operation that a check names (R61, R151, R167, R201, R390) -/

/-- The issue tick of the operation that a finding names at tick t: one that a bundle carried out and that is within its latency bound, or whose access is still to perform, a
matrix command that has not settled, or a copy that is still under way. -/
def Core.issueOf (c : Core) (x : Check) (t : Nat) : Option Nat :=
  let within := fun (e : Nat × Nat × Nat) =>
    let b := slotBound e.2.2 x.slot
    decide (0 < b) && (decide (t ≤ e.1 + b) || (x.slot == 2 && c.reqs.any fun r => r.isL && r.t == e.1))
  (((if x.slot < 5 then (c.issued.filter within).map fun e => (e.1, e.2.1) else [])
    ++ (if x.slot = 5 then c.cmds.map fun y => (y.t, y.pc) else [])
    ++ (if x.slot = 6 then c.ca.copies.map fun y => (y.itick, y.ipc) else [])
    ++ (if x.slot = 7 then c.cb.copies.map fun y => (y.itick, y.ipc) else [])).find? fun e => e.2 == x.pc).map (·.1)
/-- The operation of slot n of bundle i of core k. -/
def State.opAt (s : State) (k i n : Nat) : Option Instr := match decodeWord (slotClass n) (s.slotWordAt k i n) with | .ok y => some y | .error _ => none
/-- Whether a unit may fail for a slot (Table 19.1, R392): its own, of the matrix slot those of the unit, and for a word the storage array, but the shunter itself of a
copy. -/
def Check.unitOk (x : Check) : Bool :=
  let own := match x.slot with
    | 5 => decide (5 ≤ x.unit) && decide (x.unit ≤ 9)
    | 6 => x.unit == 10
    | 7 => x.unit == 11
    | n => x.unit == n
  own || (x.kind == 2 && decide (x.slot < 6) && x.unit == 12)
/-- Whether a finding is one: it names an operation that is under way and a unit of its slot, and a residue mismatch has a predicted residue and another
observed one (R60). -/
def State.names (s : State) (x : Check) : Bool :=
  let c := s.core x.core
  decide (x.slot < 8) && x.unitOk && (c.issueOf x (s.now c)).isSome && (s.opAt x.core x.pc x.slot).isSome && (x.kind != 1 || (decide (x.exp ≤ 6) && decide (x.obs ≤ 7) && x.exp != x.obs))
/-- The reductions: whether one combines rows of a column, and its mask register. -/
def reductionOf : Instr → Option (Bool × Nat)
  | .vredrSumF32 _ _ _ k => some (false, k)
  | .vredrMaxF32 _ _ _ k => some (false, k)
  | .vredrMinF32 _ _ _ k => some (false, k)
  | .vredrSumI32 _ _ _ k => some (false, k)
  | .vredrMaxI32 _ _ _ k => some (false, k)
  | .vredrMinI32 _ _ _ k => some (false, k)
  | .vredcSumF32 _ _ _ k => some (true, k)
  | .vredcMaxF32 _ _ _ k => some (true, k)
  | .vredcMinF32 _ _ _ k => some (true, k)
  | .vredcSumI32 _ _ _ k => some (true, k)
  | .vredcMaxI32 _ _ _ k => some (true, k)
  | .vredcMinI32 _ _ _ k => some (true, k)
  | _ => none
/-- Row and column as Table 19.1 has them for an operation: of a reduction the lowest input that the failing adder combines (R167). The adder that a finding names combines inputs from an
even row or column on, and masked inputs are none of them. -/
def State.placeOf (s : State) (x : Check) (i : Option Instr) : Nat × Nat :=
  let c := s.core x.core
  if x.slot = 3 ∨ x.slot = 4 then
    let row := x.row % 16
    let col := x.col % 64
    match i.bind reductionOf with
    | some (false, k) =>
      let m := s.readK c k row
      (row, ((List.range 64).find? fun n => decide (col / 2 * 2 ≤ n) && m.getLsbD n).getD (col / 2 * 2))
    | some (true, k) => (((List.range 16).find? fun n => decide (row / 2 * 2 ≤ n) && (s.readK c k n).getLsbD col).getD (row / 2 * 2), col)
    | none => (row, col)
  else if x.slot = 5 then (x.row % 128, x.col % 128)
  else (0, 0)
/-- The physical column of the unit that a finding names (R388): of a word the column of its row of the scratchpad, of a matrix unit the first of its pair, or the spare column when
the spare serves the cluster (log entry 8), and else the core's. -/
def State.unitCol (s : State) (x : Check) : Nat :=
  let u := unitOf x.core % 64
  let fn := x.loc % 2 ^ 40
  if x.kind = 2 ∧ fnKind fn = 3 then fnRest fn / 2 ^ 15 % 32
  else if 5 ≤ x.unit ∧ x.unit ≤ 9 then
    (if (s.die (coreDie x.core)).mspare / 2 ^ (u / 8) % 2 = 1 ∧ ((s.die (coreDie x.core)).fences.find? fun g => fnKind g == 2 && fnRest g % 64 / 8 == u / 8) = some (2 * 2 ^ 32 + u)
      then 16 else u % 8 * 2)
  else (s.core x.core).pcol

/-! ### The destination of a failing operation is undefined (R61, R201) -/

/-- Free what stands in a destination register, and what is on its way to it. -/
def Core.spoilReg (c : Core) (d : File × Nat) (g : Nat → Nat) : Core :=
  let w := BitVec.ofNat 64 (g 0)
  let lands := fun (f : Land → Land) => c.lands.map f
  match d with
  | (.x, n) => { c with x := Tab.set 0 c.x n w, lands := lands fun l => match l.wr with | .x e _ => if e = n then { l with wr := .x e w } else l | _ => l }
  | (.b, n) => { c with b := Tab.set 0 c.b n w, lands := lands fun l => match l.wr with | .b e _ => if e = n then { l with wr := .b e w } else l | _ => l }
  | (.p, n) =>
    { c.write (.p n (g 0 % 2 == 1)) with lands := lands fun l => match l.wr with | .p e _ => if e = n then { l with wr := .p e (g 0 % 2 == 1) } else l | _ => l }
  | (.v, n) =>
    { c with
      v := (List.range 16).foldl (fun t i => Tab.set 0 t (16 * n + i) (BitVec.ofNat 2048 (g (1 + i)))) c.v
      lands := lands fun l => match l.wr with | .row e i m _ => if e = n then { l with wr := .row e i m (BitVec.ofNat 2048 (g (17 + i))) } else l | _ => l }
  | (.k, n) =>
    { c with
      k := (List.range 16).foldl (fun t i => Tab.set 0 t (16 * n + i) (BitVec.ofNat 64 (g (1 + i)))) c.k
      lands := lands fun l => match l.wr with | .krow e i m _ => if e = n then { l with wr := .krow e i m (BitVec.ofNat 64 (g (17 + i))) } else l | _ => l }
/-- Free what a matrix command has written of its tile, or v[D]; what it is still to write is free by `Core.cmdFailed`. -/
def Core.spoilCmd (c : Core) (y : Cmd) (k : Nat) (g : Nat → Nat) : Core :=
  let tile := fun (z lo n cols : Nat) => (List.range n).foldl (fun c i => c.setZ z (lo + i) (failRow k y (c.zRow z (lo + i)) cols i)) c
  match y.op with
  | .mma _ _ z _ => tile z (creg y.regs 0x03) (creg y.regs 0x00) (creg y.regs 0x02)
  | .zero z => tile z 0 128 128
  | .drv d _ _ => c.spoilReg (.v, d) g
  | _ => c
/-- Free what a matrix command of core k has left outside the core: the weights of its load, or the lines that it has drained. -/
def State.spoilUnit (s : State) (k : Nat) (y : Cmd) : State :=
  let c := s.core k
  let load := fun (f : Fmt) => s.modUnit (unitOf k) fun u => if u.wload.map (·.1) = some y.seq then { u with wbuf := c.weightRows k y f } else u
  match y.op with
  | .wld f => load f
  | .wldp _ f => load f
  | .drs a _ =>
    ((List.range 1024).filter fun l => decide (y.s + 24 + l < s.now c) && !c.reqs.any fun r => r.seq == y.seq && r.sub == l).foldl (fun s l =>
      s.setBytes (padKey k (a + l / 8 * creg y.regs 0x18 + 64 * (l % 8))) (leBytes 64 (failDraw k y l))) s
  | _ => s
/-- Free the beats that a copy issued at tick t from bundle `pc` has read. -/
def Stream.spoilCopy (x : Stream) (pc t : Nat) (g : Nat → Nat) : Stream :=
  { x with copies := x.copies.map fun y =>
      if y.ipc = pc ∧ y.itick = t then { y with got := y.got.map fun (e : Nat × Beat) => (e.1, BitVec.ofNat 512 (g (2 ^ 20 + e.1))) } else y }
/-- Free the destination of the operation that a finding names, issued at tick t: its register, what it writes by its slot, and the bytes that core k has stored
since, when it is a store. What it has still to write is undefined by its entry in `spoilt`. -/
def State.spoilOp (s : State) (x : Check) (t : Nat) : State :=
  let k := x.core
  let c := s.core k
  let g := fun (n : Nat) => Config.free k (2 ^ 119 + (s.epoch * 8 + x.slot) * 2 ^ 32 + n)
  let c1 := match (s.opAt k x.pc x.slot).bind dest with | some d => c.spoilReg d g | none => c
  let c2 := { c1 with spoilt := if c1.spoilt.contains (x.slot, t) then c1.spoilt else (x.slot, t) :: c1.spoilt }
  match x.slot with
  | 2 =>
    (s.touches.filter fun e => e.core == k && e.wr && decide (e.lo < 2 ^ 40) && decide (t < e.tick)).foldl (fun s e =>
      (List.range e.len).foldl (fun s n => s.setByte (e.lo + n) (BitVec.ofNat 8 (g (2 ^ 28 + (e.lo + n) % 2 ^ 28)))) s) (s.setCore k c2)
  | 5 =>
    match c2.cmds.find? fun y => y.pc == x.pc && y.t == t with
    | some y => (s.setCore k (c2.spoilCmd y k g)).spoilUnit k y
    | none => s.setCore k c2
  | 6 => s.setCore k { c2 with ca := c2.ca.spoilCopy x.pc t g }
  | 7 => s.setCore k { c2 with cb := c2.cb.spoilCopy x.pc t g }
  | _ => s.setCore k c2

/-! ## Machine checks (R387 to R390, R392) -/

def satInc (n : Nat) : Nat := min (2 ^ 32 - 1) (n + 1)
/-- The record of Table 19.1 of a failing operation of core k at its context's tick t. -/
def State.checkRecord (s : State) (x : Check) (t : Nat) : BitVec 256 :=
  let k := x.core
  let c := s.core k
  let at' := s.placeOf x (s.opAt k x.pc x.slot)
  BitVec.ofNat 256 (t % 2 ^ 64 * 2 ^ 192 + s.slotWordAt k x.pc x.slot % 2 ^ 32 * 2 ^ 160 + x.pc % 2 ^ 13 * 2 ^ 147 + x.slot % 8 * 2 ^ 144 + at'.1 % 256 * 2 ^ 136
    + at'.2 % 256 * 2 ^ 128 + c.asid % 2 ^ 12 * 2 ^ 116 + coreDie k % 8 * 2 ^ 113 + coreY k * 2 ^ 109 + coreX k * 2 ^ 105 + s.unitCol x % 32 * 2 ^ 100
    + x.unit % 16 * 2 ^ 92 + x.kind % 16 * 2 ^ 88 + (if x.kind = 1 then x.exp % 8 * 2 ^ 85 + x.obs % 8 * 2 ^ 82 else 0)
    + (if x.kind = 2 then x.addr % 2 ^ 64 else 0))
/-- The function that a finding of a failing operation concerns, with its die (Table 19.2): a row of SRAM, the vector lane, the matrix unit, or the logic of the
core. -/
def Check.suspect (x : Check) (pcol : Nat) : Nat × Nat :=
  let fn := x.loc % 2 ^ 40
  let pos := 32 * coreY x.core + pcol
  if x.kind = 2 ∧ fnIsRow fn then (x.loc / 2 ^ 40 % 8, fn)
  else
    (coreDie x.core, match x.slot with
      | 3 => 128 * pos + x.col % 64
      | 4 => 128 * pos + 64 + x.col % 64
      | 5 => 2 * 2 ^ 32 + unitOf x.core % 64
      | _ => coreFn pos)
/-- An operation of a context fails a check: its destination is free, the record enters MCLOG, and unless the context is in TEARDOWN the core traps with MCHECK
at the boundary before e + 192 (R61, R388, R389). -/
def State.machineCheck (s : State) (x : Check) : State :=
  let k := x.core
  let c := s.core k
  let t := s.now c
  let d := coreDie k
  let i := ((s.die d).mclast + 1) % 256
  let r := s.checkRecord x t
  let s1 := (s.spoilOp x ((c.issueOf x t).getD t)).modDie d fun y => { y with mclog := Tab.put y.mclog i r, mclast := i }
  let info : TrapInfo := ⟨0x0D, x.slot % 8, x.pc % 2 ^ 13, d * 256 + i⟩
  match s.ctx c.part c.asid with
  | some z =>
    let sus := x.suspect c.pcol
    let s1 := if z.st = .teardown ∨ z.st = .scrubbing then s1
      else s1.modCtx c.part c.asid fun y => { y with suspects := if y.suspects.contains sus then y.suspects else y.suspects ++ [sus] }
    if z.st = .teardown ∨ z.st = .scrubbing then s1
    else if c.gone then
      (s1.appendEvent c.part c.asid ⟨k, info, none, some r⟩).teardown c.part c.asid
    else (s1.modCore k fun c => { c with due := c.due ++ [⟨t + Config.holdLead, info, 0, 0, 0, 0, 0⟩] }).raiseHalt k 1 t
  | none => s1
/-- A version record whose path to the root fails as its controller checks it: the tensor is unreadable, the failure counts in the error history of its stack, in a
pseudo-channel that the spec leaves open, and the context that owns the record meets INTEGRITY, which tears it down (R327, Table 10.9). -/
def State.pathFails (s : State) (d slot : Nat) : State :=
  let r := s.vrec d slot
  let s1 := (s.modDie d fun y => { y with broken := if y.broken.contains slot then y.broken else slot :: y.broken }).countError d
    (Config.free (2 ^ 20 + 9) (s.epoch * 2 ^ 24 + slot) % 2 ^ 30) 3
  if r.st = .invalid then s1 else (s1.appendEvent r.part r.asid ⟨0, ⟨0x0A, 0, 0, r.tid % 2 ^ 32⟩, none, none⟩).teardown r.part r.asid
/-- A finding of a check is counted (an uncorrectable error of an HBM line when it is met), and an SRAM row is marked at its fourth corrected error and at any uncorrectable one
(R392, R393). -/
def State.counted (s : State) (x : Check) : State :=
  let d := x.loc / 2 ^ 40 % 8
  let fn := x.loc % 2 ^ 40
  let mark := fun (s : State) => if fnIsRow fn then (s.modDie d fun y => y.mark fn).keep d else s
  match x.kind with
  | 0 =>
    let n := Tab.get 0 (s.die d).soft fn + 1
    let s1 := s.modDie d fun y =>
      let z := if fnIsRow fn then { y with soft := Tab.set 0 y.soft fn n } else y
      if fnKind fn = 4 then { z with mce := satInc z.mce } else { z with sce := satInc z.sce }
    if 4 ≤ n then mark s1 else s1
  | 1 => if s.names x then s.modDie (coreDie x.core) fun y => { y with res := satInc y.res } else s
  | 2 => if s.names x then mark (s.modDie d fun y => { y with ue := satInc y.ue }) else s
  | 3 => mark (s.modDie d fun y => { y with ue := satInc y.ue })
  | 4 => s.pathFails d (fn % 2 ^ 18)
  | 5 => s.countFixed d (fn % 2 ^ 30) (x.slot % 4)
  | _ => s.setStamp d (fn % 2 ^ 30 * 64) { s.stampAt d (fn % 2 ^ 30 * 64) with bad := true }
/-- A failing operation raises its machine check. -/
def State.found (s : State) (x : Check) : State := if (x.kind = 1 ∨ x.kind = 2) ∧ s.names x then s.machineCheck x else s
/-- Put a finding in the order of R390: slot, row, column. -/
def putCheck (x : Check) : List Check → List Check
  | [] => [x]
  | y :: t => if [x.slot, x.row, x.col] < [y.slot, y.row, y.col] then x :: y :: t else y :: putCheck x t
/-- Whether two findings are of one operation. -/
def Check.same (x y : Check) : Bool := (x.kind == 1 || x.kind == 2) && (y.kind == 1 || y.kind == 2) && x.core == y.core && x.pc == y.pc && x.slot == y.slot
/-- The findings of a tick with one for each failing operation: of KIND 2 where it fails by both, and the first in order (R390). -/
def oneEach : List Check → List Check
  | [] => []
  | x :: t =>
    let rest := oneEach t
    if x.kind = 1 ∧ t.any (fun y => x.same y && y.kind == 2) then rest else x :: rest.filter fun y => !x.same y
/-- What the checks find in this wall tick: every finding counts, and each failing operation has one machine check. -/
def State.runChecks (s : State) : State :=
  let due := (s.checks.filter fun e => decide (e.1 ≤ s.epoch)).foldl (fun l e => putCheck e.2 l) []
  (oneEach due).foldl State.found (due.foldl State.counted { s with checks := s.checks.filter fun e => !decide (e.1 ≤ s.epoch) })

/-! ## Repairs (R393 to R396) -/

/-- Whether a function is fenced, or a row kept as marked. -/
def State.isFenced (s : State) (d fn : Nat) : Bool :=
  let y := s.die d
  let r := fnRest fn
  if fnKind fn = 5 then (if r < 64 then y.fenw / 2 ^ r % 2 == 1 else y.fens / 2 ^ (r - 64) % 2 == 1)
  else y.fences.contains fn || ((Tab.find s.kept d).getD []).contains fn
/-- A fence is cleared: a lane or a wavelength gives its spare back, and the journal keeps a row no more. -/
def State.unfence (s : State) (d fn : Nat) : State :=
  let r := fnRest fn
  let s1 := { s with kept := Tab.upd s.kept d fun l => l.filter (· != fn) }
  s1.modDie d fun y =>
    if fnKind fn = 5 then
      (if r < 64 then { y with fenw := y.fenw - 2 ^ r, wlUsed := y.wlUsed - 1 } else { y with fens := y.fens - 2 ^ (r - 64) })
    else { y.withFences (r / 64) (y.fences.filter (· != fn)) with marked := y.marked.filter (· != fn), counts := Tab.set 0 y.counts fn 0 }
/-- The re-test of a fence (R396): whether it passes is free; a fail sets the count of the function to 2. -/
def State.reTest (s : State) (d fn : Nat) : State :=
  if s.isFenced d fn then
    (if Config.free (2 ^ 20 + 3) (s.epoch * 2 ^ 44 + d * 2 ^ 40 + fn) % 2 = 1 then s.unfence d fn
    else s.modDie d fun y => { y with counts := Tab.put y.counts fn 2 })
  else s
/-- Zero n bytes of memory from a key on. -/
def State.zero (s : State) (a n : Nat) : State := { s with mem := s.mem.filter fun e => !(decide (a ≤ e.1) && decide (e.1 < a + n)) }
/-- Remap a marked row to a spare of its bank, or of its 1,024 rows, with zero contents; with none left its core is fenced, or its granule is
unusable (R393). -/
def State.remap (s : State) (d fn : Nat) : State :=
  let r := fnRest fn
  let used := Tab.get 0 (s.die d).rowSpares (fn / 1024)
  let pad := fnKind fn == 3
  let s1 := if pad then
      match s.coreAtPhys d (r / 2 ^ 15) with
      | some k => s.zero (padKey k ((r % 1024 * 32 + r / 1024 % 32) * 64)) 64
      | none => s
    else s.zero (stationKey d (64 * r)) 64
  if used < (if pad then 2 else 1) then s1.modDie d fun y => { y with rowSpares := Tab.put y.rowSpares (fn / 1024) (used + 1), soft := Tab.set 0 y.soft fn 0 }
  else if pad then s1.modDie d fun y => y.addFence (coreFn (r / 2 ^ 15))
  else s1.setOwn true d (64 * r) { s1.own true d (64 * r) with unusable := true }
/-- Fenced matrix units of a row pair, in the order in which they were fenced. -/
def Die.fencedUnits (y : Die) (rp : Nat) : List Nat := (y.fences.filter fun g => fnKind g == 2 && fnRest g % 64 / 8 == rp).map fun g => fnRest g % 64
/-- Fenced physical columns of a row. -/
def Die.fencedCols (y : Die) (row : Nat) : List Nat := (y.fences.filter fun g => fnKind g == 1 && fnRest g / 32 == row).map fun g => fnRest g % 32
/-- The lowest fenced column of a row that a shift repairs (R394). -/
def Die.shiftAt (y : Die) (row : Nat) : Option Nat :=
  match (y.fencedCols row).filter (· < 16) with
  | [] => none
  | f :: t => some (t.foldl min f)
/-- The physical column of logical column x of a row, and whether it stands FENCED (R394, R395). -/
def Die.placeOf (y : Die) (row x : Nat) : Nat × Bool :=
  let pc := match y.shiftAt row with | some f => if x < f then x else x + 1 | none => x
  (pc, (y.fencedCols row).contains pc || ((y.fencedUnits (row / 2)).drop 1).contains (8 * (row / 2) + x / 2))
/-- A core position after a repair: IDLE or FENCED at its physical column. -/
def State.placeCore (s : State) (k pcol : Nat) (fenced : Bool) : State :=
  if (Tab.find s.cores k).isNone && pcol == k % 16 && !fenced then s
  else s.setCore k { (s.core k).cleared with st := if fenced then .fenced else .idle, pcol := pcol }
/-- The state of a core position of a die, row and physical column (Table 3.9): that of the core that stands there; a position where none stands is FENCED, or
the SPARE one of its row. -/
def State.positionSt (s : State) (d row pc : Nat) : CoreSt :=
  match s.coreAtPhys d (32 * row + pc) with
  | some k => (s.core k).st
  | none => if (s.die d).fences.contains (coreFn (32 * row + pc)) then .fenced else .spare
/-- Bits of the rows that f picks. -/
def bitsOf (n : Nat) (f : Nat → Bool) : Nat := ((List.range n).filter f).foldl (fun v i => v + 2 ^ i) 0
/-- Re-tests, row remaps, spare matrix units and row shifts of a die. -/
def State.repairDie (s : State) (d : Nat) : State :=
  let s1 := (s.die d).retest.foldl (fun s fn => s.reTest d fn) s
  let s2 := (s1.die d).marked.foldl (fun s fn => s.remap d fn) s1
  let s3 := (s2.keep d).modDie d fun y => { y with
    retest := []
    marked := []
    mspare := bitsOf 8 fun rp => match y.fencedUnits rp with | [] => false | u :: t => !t.contains u
    shift := bitsOf 16 fun r => (y.shiftAt r).isSome
    unrep := bitsOf 16 fun r => (List.range 16).any fun x => (y.placeOf r x).2 }
  let y := s3.die d
  { (List.range 256).foldl (fun s i => let z := y.placeOf (i / 16) (i % 16); s.placeCore (d * 256 + i) z.1 z.2) s3 with
    units := s3.units.filter fun e => !(e.1 / 64 == d) }
/-- PARTITION_RESET (R427): once no context is left the repairs are made; a partition that is being destroyed is gone, and its version records
are cleared (R326); the lanes of the next partition of its number begin at SEQ 0, under a secret of its own. -/
def execPartitionReset (p : Nat) (s : State) : Out :=
  .next (withPart s p fun q =>
    if q.ctxs = [] then
      let s1 := q.dies.foldl State.repairDie s
      if q.destroying then { s1 with
        parts := Tab.del s1.parts p
        vrecs := s1.vrecs.filter fun e => !q.dies.contains (e.1 / 2 ^ 18)
        dies := s1.dies.map fun (e : Nat × Die) => (e.1, if q.dies.contains e.1 then { e.2 with broken := [] } else e.2)
        lanes := s1.lanes.filter fun l => l.1 % 256 == 255 || l.1 % 256 / 32 != p
        seqs := s1.seqs.filter fun l => l.1 % 256 == 255 || l.1 % 256 / 32 != p }
      else s1.modPart p fun q => { q with resetting := false }
    else s)

end Sys2Proof.Machine
end

