-- ==== Sys2Proof/Machine/Host.lean ====
section
/-! DEFINITION. The host interface: TDISP and host DMA (R356, R399, R400), SPDM (R403), TENANTID (R402), debug unlock (R405 to R407), and
the registers that have no behaviour of their own (R6). -/
namespace Sys2Proof.Machine

/-! ## TDISP and IDE (R399, R400; message numbers of TDISP 1.0, PRESUMED: log entry 9) -/

/-- Whether the SPDM session of a function is open. -/
def State.sessionOpen (s : State) (fn : Nat) : Bool := ((Tab.find s.spdm fn).getD Spdm.reset).session == 2
/-- TDISP_MESSAGE (R399): LOCK, START and STOP of the interface; every other message leaves its state. -/
def execTdispMessage (p msg : Nat) (s : State) : Out :=
  .next (withPart s p fun q =>
    if msg = 0x83 ∧ q.tdisp = .configUnlocked then s.modPart p fun q => { q with tdisp := .configLocked, ide := s.sessionOpen p }
    else if msg = 0x86 ∧ q.tdisp = .configLocked then s.modPart p fun q => { q with tdisp := .run }
    else if msg = 0x87 then s.modPart p fun q => { q with tdisp := .configUnlocked, ide := false }
    else s)
/-- IDE_CHECK_FAIL (R399): the interface is in ERROR and its stream carries nothing more. -/
def execIdeCheckFail (p : Nat) (s : State) : Out :=
  .next (withPart s p fun q => if q.ide then s.modPart p fun q => { q with tdisp := .error, ide := false } else s)

/-! ## Host DMA (R356, Table 17.5) -/

/-- Whether a host DMA request may touch a granule: one whose generation is not live refuses it (R354), and a code-sealed one refuses reads too (R273). -/
def Part.hostMay (q : Part) (o : Own) (_write : Bool) : Bool := o.v && q.inPool o.asid && o.host && !o.code && q.live o.pgen
/-- Whether every byte of a request lies in memory and may be touched. -/
def State.hostOk (s : State) (q : Part) (write : Bool) (addr n : Nat) : Bool := n == 0 || s.devAll q addr n fun o => q.hostMay o write
/-- Whether a host access to a byte is ordered with no launch that has met its line, or written it when `wr`: one that has not retired, or whose completion the
host has not read (R319). -/
def Part.hostRaces (q : Part) (key : Nat) (wr : Bool) : Bool :=
  q.metBy key wr || q.unread.any fun u => u.2.2.any fun m => (Tab.find m (key / 64)).any fun w => !wr || w
/-- A byte as a host DMA read gives it: one of a line that stands under another tag than its granule's pages is free, and so is one that a launch has written
whose completion the host has not read (R319). -/
def State.hostByte (s : State) (q : Part) (a : Nat) : Byte :=
  let l := homedie q.logN a
  let pd := q.pdie l.1
  if s.stampAt pd l.2 = (s.own false pd l.2).stamp ∧ q.hostRaces (q.hostKey a) true = false then s.devByte q a
  else BitVec.ofNat 8 (Config.free (2 ^ 20 + 4) (s.epoch * 2 ^ 48 + a))
/-- What notes a host access to a byte (R319): the launches of a partition that have been claimed and have not retired, its graphs, and the queues whose records
have been published and not consumed. -/
def Part.noteHost (wr : Bool) (q : Part) (key : Nat) : Part :=
  { q.mapLaunches (fun y => { y with host := (key, wr) :: y.host }) with
    graphs := q.graphs.map fun (g : Nat × Graph) => (g.1, { g.2 with host := (key, wr) :: g.2.host })
    queues := q.queues.map fun (u : Nat × Queue) => (u.1, if u.2.tail = u.2.head then u.2 else { u.2 with host := (key, wr, u.2.tail) :: u.2.host }) }
/-- Whether nothing would note a host access. -/
def Part.idle (q : Part) : Bool := q.unlaunched && q.graphs.isEmpty && q.queues.all fun u => u.2.tail == u.2.head
/-- Note host accesses to bytes. -/
def State.noteHosts (s : State) (p : Nat) (wr : Bool) (keys : List Nat) : State :=
  if (s.part p).idle then s else s.modPart p fun q => keys.foldl (Part.noteHost wr) q
/-- A byte that the host has read and a launch has written: any value is left (R5, R319). -/
def State.scatter (q : Part) (s : State) (key : Nat) : State :=
  if q.hostRaces key true then s.setByte key (BitVec.ofNat 8 (Config.free (2 ^ 20 + 5) (s.epoch * 2 ^ 52 + key))) else s
/-- The host has read n bytes from a device address: what the launches of the completions among them have met is ordered before its later reads. -/
def Part.hostHasRead (q : Part) (addr n : Nat) : Part :=
  { q with unread := q.unread.filter fun u => !(decide (addr ≤ u.1) && decide (u.1 + 16 ≤ addr + n)) }
/-- Write one byte as host DMA does: free where it races (R319). -/
def State.setHostByte (q : Part) (s : State) (e : Nat × Nat) : State :=
  let l := homedie q.logN e.1
  let pd := q.pdie l.1
  let v := if q.hostRaces (q.hostKey e.1) false then Config.free (2 ^ 20 + 6) (s.epoch * 2 ^ 52 + q.hostKey e.1) else e.2
  ((s.spoil q false pd l.2).setByte (q.hostKey e.1) (BitVec.ofNat 8 v)).setStamp pd (l.2 / 64 * 64) (s.own false pd l.2).stamp
/-- A host read of the function returns, and what the host has written before is complete (R319); or a host write joins what is not. -/
def Part.flush (q : Part) (write : Bool) (keys : List Nat) : Part := { q with unflushed := if write then (keys ++ q.unflushed).eraseDups else [] }
/-- HOST_DMA_REQUEST (R356, R399, R400): a request outside RUN, outside the stream or refused by ownership is counted in HREF; a read
returns as many bytes as `data` holds. -/
def execHostDmaRequest (p : Nat) (write : Bool) (addr : Nat) (data : List Nat) (ide : Bool) (s : State) : Out :=
  .next (withPart s p fun q =>
    if q.tdisp = .run ∧ ide ∧ q.ide ∧ s.hostOk q write addr data.length then
      let as := (List.range data.length).map (addr + ·)
      let s1 := if write then ((List.range data.length).map fun i => (addr + i, data.getD i 0)).foldl (State.setHostByte q) s
        else (as.map q.hostKey).foldl (State.scatter q)
          ((s.meetRecord q addr data.length).modPart p fun z => { z.hostHasRead addr data.length with dmaOut := as.map (s.hostByte q) })
      (s1.noteHosts p write (as.map q.hostKey)).modPart p fun z => z.flush write (as.map q.hostKey)
    else s.countHref p)

/-! ## TENANTID and debug (R402, R405 to R407) -/

/-- TENANTID_WRITE (R402): taken once, whatever its value. -/
def execTenantidWrite (p v : Nat) (s : State) : Out :=
  .next (withVf s p fun q => if q.tenantSet then s else s.modPart p fun q => { q with tenantid := v % 2 ^ 384, tenantSet := true })
/-- The layout of a token (R405): MAGIC, p, and zeros where the rest stands. -/
def tokenOk (p : Nat) (t : List Nat) : Bool :=
  let zero := fun (a b : Nat) => ((t.drop a).take (b - a)).all (· == 0)
  t.length == 3520 && t.all (fun b => decide (b < 256)) && t.take 4 == [0x55, 0x4C, 0x4E, 0x4B] && t.getD 4 0 == p
  && zero 5 8 && zero 12 16 && zero 24 64 && zero 3437 3520
/-- Bytes a to b of a token as a number. -/
def tokenNat (t : List Nat) (a b : Nat) : Nat := leNat (((t.drop a).take (b - a)).map (BitVec.ofNat 8))
/-- The status of a token (R406), the first failing check of its order. -/
def State.tokenStatus (s : State) (p : Nat) (q : Part) (t : List Nat) : Nat :=
  let text := Config.sha384 ((t.take 64).map (BitVec.ofNat 8))
  if !tokenOk p t then 4
  else if tokenNat t 8 12 ≠ q.nonce ∨ tokenNat t 16 24 < s.wtime then 3
  else if !Config.verifies 0 text (tokenNat t 64 128) (tokenNat t 128 3437) then 2
  else if q.ctxs.any fun e => e.2.prot then 1 else 0
/-- DEBUG_TOKEN_CHECK (R406). -/
def execDebugTokenCheck (p : Nat) (token : List Nat) (s : State) : Out :=
  .next (withPart s p fun q =>
    let st := s.tokenStatus p q token
    if st = 0 then
      { (s.modPart p fun q => { q with
          unlocked := true
          dbgstat := 0
          nonce := (Config.random s.draws).toNat % 2 ^ 32 }) with
        draws := s.draws + 1
        unlocks := Tab.set 0 s.unlocks p (Tab.get 0 s.unlocks p + 1) }
    else s.modPart p fun q => { q with dbgstat := st })
/-- DEBUG_LOCK (R407). -/
def execDebugLock (p : Nat) (s : State) : Out := .next (s.modPart p fun q => { q with unlocked := false })

/-! ## Registers (R6) -/

/-- The fields of a peer entry that a write of 8 bytes at an offset of it sets (Table 18.7). -/
def Peer.withWord (y : Peer) (off v : Nat) : Peer :=
  let i := (off - 0x20) / 8
  if off = 0 then { y with pkg := field v 9 0, rpart := field v 18 16, port := field v 27 24, rtid := field v 63 32 }
  else if off = 8 then { y with limit := v / 64 % 2 ^ 58 * 64 }
  else if off = 0x10 then { y with asid := field v 15 0, responder := field v 16 16 == 1 }
  else if 0x20 ≤ off ∧ off < 0x50 then
    let x := y.expect.toNat
    { y with expect := BitVec.ofNat 384 (x - field x (64 * i + 63) (64 * i) * 2 ^ (64 * i) + v % 2 ^ 64 * 2 ^ (64 * i)) }
  else y
/-- A page-command record (Table 17.7). -/
def pageRecordAt (x : Nat) : PageRecord where
  flags := field x 15 8
  asid := field x 31 16
  count := field x 63 32
  addr := field x 127 64
  mem := field x 135 128
  place := field x 143 136
  home := field x 151 144
  size := field x 255 192
  ptea := field x 319 256
  daddr := field x 383 320
  rsv := field x 191 152 + field x 511 384
/-- A write of PGCMD (R357): the record is taken from a HOST granule of a context of the partition, and takes effect at the next partition
tick that is a multiple of 256; what is no record takes effect as one with a reserved bit set. -/
def State.pgcmdWrite (s : State) (p : Nat) (q : Part) (v : Nat) : State :=
  if q.pgcmd.isSome then s
  else
    let a := v / 64 * 64
    let x := s.devLoad q a 64
    let r := pageRecordAt x
    let cmd := field x 7 0
    let good := s.devAll q a 64 (fun o => q.hostMay o false) && decide (1 ≤ cmd) && decide (cmd ≤ 4)
    (s.meetRecord q a 64).modPart p fun q => { q with pgcmd := some ⟨if good then cmd else 1, if good then r else { r with rsv := 1 }, (q.stime / 256 + 1) * 256⟩ }
/-- A write of 8 bytes to a register of the VF. -/
def State.vfWrite (s : State) (p : Nat) (q : Part) (off v : Nat) : State :=
  if 0x10000 ≤ off ∧ off < 0x14000 ∧ off % 0x40 = 0 then s.writeQueue p ((off - 0x10000) / 0x40) fun u => { u with base := v / 4096 % 2 ^ 52 * 4096 }
  else if 0x10000 ≤ off ∧ off < 0x14000 ∧ off % 0x40 = 8 then
    (if field v 4 4 = 1 then s.enableQueue p q ((off - 0x10000) / 0x40) v else s.disableQueue p q ((off - 0x10000) / 0x40) v)
  else if 0x10000 ≤ off ∧ off < 0x14000 ∧ off % 0x40 = 0x10 then s.writeTail p ((off - 0x10000) / 0x40) v
  else if off = 0x30000 then s.modPart p fun q => { q with ttbase := field v 63 12, ttlog := field v 3 0 }
  else if off = 0x50000 then s.modPart p fun q => { q with tnbase := field v 63 12, tnlog := field v 4 0 }
  else if off = 0x50008 then s.modPart p fun q => { q with manifest := { q.manifest with base := v / 64 % 2 ^ 58 * 64 } }
  else if off = 0x50010 then
    (if field v 0 0 = 1 then s.startLoad p (field v 15 4) q else s.modPart p fun q => { q with manifest := { q.manifest with asid := field v 15 4 } })
  else if 0x60000 ≤ off ∧ off < 0x68000 ∧ off % 8 = 0 then
    (let a := (off - 0x60000) / 8
     let w := BitVec.ofNat 64 (field v 47 12 * 2 ^ 12 + field v 7 5 * 2 ^ 5 + field v 0 0)
     if q.inPool a then s.modPart p fun q => { q with ptroot := Tab.set 0 q.ptroot a w } else s)
  else if off = 0x68000 then s.pgcmdWrite p q v
  else if 0x70080 ≤ off ∧ off < 0x70F80 ∧ off % 8 = 0 then
    (let i := (off - 0x70000) / 128
     if (s.peer p i).st = 0 then s.modPeer p i fun y => y.withWord (off % 128) v else s)
  else if off = 0x80040 then s.modPart p fun q => { q with msel := v % 2 ^ 12 }
  else s
/-- A write of 8 bytes to a register of the host driver's function: the points table, while EN stays 0 (R373, R374), which a package in recovery has not (R409). -/
def State.pfWrite (s : State) (off v : Nat) : State :=
  if s.recovery then s
  else if 0x100000 ≤ off ∧ off < 0x100800 ∧ off % 8 = 0 ∧ field v 63 63 = 0 then
    let e := (off - 0x100000) / 8
    let c := s.circuit e
    if c.st = .free then s.modCircuit e fun c => c.withWord v
    else if c.withWord v = c then s else { s with lerr := 5 }
  else s
/-- REGISTER_WRITE (R6, R398 to R400): function 8 is the host driver's, and function p below it the VF of partition p on its stream; a write to that VF which arrives outside
the stream is one of function 16 + p. -/
def execRegisterWrite (p off v : Nat) (s : State) : Out :=
  if p = 8 then .next (s.pfWrite off v)
  else if 16 ≤ p then .next (withPart s (p - 16) fun _ => s.countHref (p - 16))
  else .next (withVf s p fun q => s.vfWrite p q off v)

/-! ## SPDM (R400, R403) -/

def State.responder (s : State) (fn : Nat) : Spdm := (Tab.find s.spdm fn).getD Spdm.reset
/-- Set the responder of a function, one of nine, none of which a package in recovery has (R409). -/
def State.setResponder (s : State) (fn : Nat) (x : Spdm) : State := if fn ≤ 8 ∧ s.recovery = false then { s with spdm := Tab.put s.spdm fn x } else s
/-- The digest of the transcript that a signed response signs: its request, its contents and those of the response before it. -/
def transcript (x : Spdm) (name : String) (ws : List Nat) : Digest :=
  let bytes := fun (r : String × List Nat) => ascii r.1 ++ r.2.flatMap (leBytes 48)
  Config.sha384 ((match x.reply with | some r => bytes r | none => []) ++ bytes (name, ws))
/-- Answer a request, signed by both halves of the attestation pair when `sig` (R401, R403): with its contents when `ok`, else with the code of an unexpected request and nothing changed. -/
def answer (s : State) (fn : Nat) (name : String) (ok sig : Bool) (ws : List Nat) (f : Spdm → Spdm) : State :=
  let x := s.responder fn
  if ok then s.setResponder fn { f x with reply := some (name, ws), signed := if sig then some (s.sign (transcript x name ws)) else none }
  else s.setResponder fn { x with reply := some ("ERROR", [4]), signed := none }
/-- A measurement block as words (Table 20.3); none where the function reports no such block. -/
def State.measurement (s : State) (fn idx : Nat) : Option (List Nat) :=
  match idx with
  | 1 => some [Config.romDigest.toNat]
  | 2 => some [(Config.firmwareDigest (s.imageOf 1 255)).toNat]
  | 3 => some ((List.range 8).map fun d => (Config.firmwareDigest (16 + s.imageOf 4 d)).toNat)
  | 4 => some ((List.range 8).flatMap fun d => let y := s.die d; [y.leftOut.toNat, y.mspare, y.lspare, y.shift, y.wlUsed] ++ (Tab.find s.kept d).getD [])
  | _ =>
    match Tab.find s.parts fn with
    | none => none
    | some q =>
      if idx = 5 then
        some (q.dies ++ ((s.circuits.filter fun e => e.2.part == fn && e.2.st != .free).map (·.1)) ++ [q.limit, q.unlocked.toNat, Tab.get 0 s.unlocks fn, q.msel])
      else if 0x10 ≤ idx ∧ idx ≤ 0xEF then
        let n := q.msel + idx - 0x10
        some (match Tab.find q.ctxs (q.pool0 + n) with
          | some x => [q.pool0 + n, n] ++ x.log.map (·.toNat)
          | none => [])
      else none
/-- GET_VERSION: SPDM 1.3; what was negotiated before begins anew. -/
def execGetVersion (fn : Nat) (s : State) : Out :=
  .next (answer s fn "VERSION" true false [0x13] fun x => { x with phase := 1, session := 0, sid := 0 })
/-- GET_CAPABILITIES. -/
def execGetCapabilities (fn : Nat) (s : State) : Out :=
  .next (answer s fn "CAPABILITIES" ((s.responder fn).phase == 1) false [Config.spdmFlags] fun x => { x with phase := 2 })
/-- NEGOTIATE_ALGORITHMS: SHA-384, Ed25519 and AES-256-GCM, when the requester offers all three. -/
def execNegotiateAlgorithms (fn hash sig aead : Nat) (s : State) : Out :=
  .next (answer s fn "ALGORITHMS" ((s.responder fn).phase == 2 && hash / 2 % 2 == 1 && sig / 2 ^ 9 % 2 == 1 && aead / 2 % 2 == 1) false
    [2, 2 ^ 9, 2] fun x => { x with phase := 3 })
/-- GET_DIGESTS. -/
def execGetDigests (fn : Nat) (s : State) : Out :=
  .next (answer s fn "DIGESTS" ((s.responder fn).phase == 3) false [(Config.sha384 Config.certificate).toNat] id)
/-- GET_CERTIFICATE: a part of the chain. -/
def execGetCertificate (fn off len : Nat) (s : State) : Out :=
  .next (answer s fn "CERTIFICATE" ((s.responder fn).phase == 3) false (((Config.certificate.drop off).take len).map (·.toNat)) id)
/-- CHALLENGE: both nonces and the digest of the chain, signed. -/
def execChallenge (fn nonce : Nat) (s : State) : Out :=
  .next (answer { s with draws := s.draws + 1 } fn "CHALLENGE_AUTH" ((s.responder fn).phase == 3) true
    [nonce, (Config.random s.draws).toNat, (Config.sha384 Config.certificate).toNat] id)
/-- GET_MEASUREMENTS: block idx, its number and both nonces, signed; a block that the function does not report is an error. -/
def execGetMeasurements (fn idx nonce : Nat) (s : State) : Out :=
  let b := s.measurement fn idx
  .next (answer { s with draws := s.draws + 1 } fn "MEASUREMENTS" ((s.responder fn).phase == 3 && b.isSome) true
    ([nonce, (Config.random s.draws).toNat, idx] ++ b.getD []) id)
/-- KEY_EXCHANGE (R400): a session begins its handshake. -/
def execKeyExchange (fn sid pub : Nat) (s : State) : Out :=
  let x := s.responder fn
  .next (answer { s with draws := s.draws + 2 } fn "KEY_EXCHANGE_RSP" (x.phase == 3 && x.session == 0) true
    [sid, pub, (Config.random s.draws).toNat, (Config.random (s.draws + 1)).toNat] fun x => { x with session := 1, sid := sid, updates := 0 })
/-- FINISH: the session opens, or the handshake is abandoned. -/
def execFinish (fn : Nat) (ok : Bool) (s : State) : Out :=
  let x := s.responder fn
  if x.session = 1 ∧ !ok then .next (answer (s.setResponder fn { x with session := 0 }) fn "ERROR" false false [] id)
  else .next (answer s fn "FINISH_RSP" (x.session == 1) false [] fun x => { x with session := 2 })
/-- KEY_UPDATE. -/
def execKeyUpdate (fn : Nat) (s : State) : Out :=
  .next (answer s fn "KEY_UPDATE_ACK" ((s.responder fn).session == 2) false [] fun x => { x with updates := x.updates + 1 })
/-- END_SESSION. -/
def execEndSession (fn : Nat) (s : State) : Out :=
  .next (answer s fn "END_SESSION_ACK" ((s.responder fn).session == 2) false [] fun x => { x with session := 0, sid := 0 })

end Sys2Proof.Machine
end

