-- ==== Sys2Proof/Machine/Boot.lean ====
section
/-! DEFINITION. Partitions, power and the start steps: R24, R271, R408 to R411. -/
namespace Sys2Proof.Machine

/-! ## Partitions (R410, R271) -/

/-- Whether the host driver may create partition p on these physical dies now. -/
def State.mayCreate (s : State) (p : Nat) (dies : List Nat) : Bool :=
  s.bootStep == 255 && !s.recovery && (s.servo.st == .locked || s.servo.order.isEmpty) && decide (p < 8) && (Tab.find s.parts p).isNone
  && [1, 2, 4, 8].contains dies.length && dies.eraseDups == dies
  && dies.all fun d => decide (d < 8) && !(s.die d).leftOut && s.parts.all fun e => !e.2.dies.contains d
/-- Whether n ASIDs from a on are free of the pools of the partitions that exist (R233). -/
def State.poolFree (s : State) (a n : Nat) : Bool := s.parts.all fun e => decide (a + n ≤ e.2.pool0) || decide (e.2.pool0 + e.2.poolN ≤ a)
/-- The first ASID of a pool of n: the lowest at which one fits, after no pool or after one that exists (log entry 10). -/
def State.poolBase (s : State) (n : Nat) : Option Nat :=
  ((1 :: s.parts.map fun e => e.2.pool0 + e.2.poolN).filter fun a => s.poolFree a n && decide (a + n ≤ 4096)).foldl
    (fun best a => match best with | none => some a | some b => some (min a b)) none
/-- PARTITION_CREATE (R233, R410, R427): STIME 0 at the full rate, fresh secrets, a pool of as many ASIDs as the host driver gives it, and a partition
reset of its dies. -/
def execPartitionCreate (p : Nat) (r : PartRequest) (s : State) : Out :=
  match (if s.mayCreate p r.dies ∧ 1 ≤ r.pool then s.poolBase r.pool else none) with
  | none => .next s
  | some base =>
    .next { s with
      parts := Tab.put s.parts p { Part.reset with
        dies := r.dies
        w0 := s.wtime
        limit := Config.wattsPerDie * r.dies.length
        pool0 := base
        poolN := r.pool
        secret := Config.random s.draws
        nonce := (Config.random (s.draws + 1)).toNat % 2 ^ 32 }
      draws := s.draws + 2
      everPart := true
      agenda := .partitionReset p :: s.agenda }
/-- PARTITION_DESTROY (R271, R399): the function is reset, and the partition is gone once no context of it is left. -/
def execPartitionDestroy (p : Nat) (s : State) : Out :=
  .next ((s.resetFunction p).modPart p fun q => { q with destroying := true })

/-! ## The step journal (R409) -/

def State.latest (s : State) (step unit : Nat) : Option Journal := s.journal.find? fun j => j.step == step && j.unit == unit
/-- The choice with which a unit takes a step: the first, the one that passed, or the one after one that did not. -/
def State.choiceOf (s : State) (step unit : Nat) : Nat :=
  match s.latest step unit with
  | none => 0
  | some j => if j.result = 0 then j.choice else j.choice + 1
def State.record (s : State) (step unit choice result : Nat) : State :=
  { s with journal := ⟨(match s.journal with | j :: _ => j.seq + 1 | [] => 0), step, unit, choice, result⟩ :: s.journal }
/-- Complete the record of the step that ends: the latest, unless a JRESET has taken it. -/
def State.completeRecord (s : State) (step unit choice result : Nat) : State :=
  match s.journal with
  | j :: t => if (j.step, j.unit, j.choice, j.result) = (step, unit, choice, 2) then { s with journal := { j with result := result } :: t } else s
  | [] => s
/-- What is left when power has gone: the journal, what it keeps, and what the world outside still brings. -/
def State.afterPower (s : State) (on : Bool) : State :=
  { State.reset with
    power := on
    epoch := s.epoch
    journal := s.journal
    kept := s.kept
    draws := s.draws
    inputs := s.inputs
    checks := s.checks }
/-- JRESET (R409): every step returns to its first choice; dies left out stay out until the restart. -/
def execJreset (s : State) : Out := .next { s with journal := [] }
/-- POWER_LOSS (R409): the record of a step under way stays at RESULT 2. -/
def execPowerLoss (s : State) : Out := .next (s.afterPower false)
/-- What a thermal trip is recorded against: the step under way, by its own record where that still stands, or step 8 of a package that was ready. -/
def State.tripRecord (s : State) : State :=
  if s.bootStep = 255 then s.record 8 255 (s.choiceOf 8 255) 2
  else
    match s.stepNow with
    | some (step, unit, c) =>
      if (s.latest step unit).any fun j => j.choice == c && j.result == 2 then s else s.record step unit c 2
    | none => s.record s.bootStep 255 (s.choiceOf s.bootStep 255) 2
/-- THERMAL_TRIP (R411): power is removed, and the trip is recorded with RESULT 2. -/
def execThermalTrip (die : Nat) (s : State) : Out :=
  if die < 8 ∧ s.power then .next (s.tripRecord.afterPower false) else .next s

/-! ## The start steps (R408, Table 20.6) -/

/-- Steps with the number of their choices, and whether each die takes them. -/
def startSteps : List (Nat × Nat × Bool) :=
  [(1, 2, false), (2, 1, false), (3, 2, true), (4, 3, true), (5, 2, true), (6, 2, true), (7, 1, false), (8, 1, false)]
/-- The number of choices of a step, and whether each die takes it. -/
def stepKind (step : Nat) : Nat × Bool := ((startSteps.find? fun e => e.1 == step).map (·.2)).getD (0, false)
/-- The steps in order, each for each of its units. -/
def startUnits : List (Nat × Nat) :=
  startSteps.flatMap fun e => (if e.2.2 then List.range 8 else [255]).map fun u => (e.1, u)
/-- Whether an image loads (R404): it comes with the fused keys, its version is not below the fused minimum, and both signatures verify. -/
def imageLoads (text : Digest) (f : Sys2Proof.FlashImage) : Bool :=
  f.keys == Config.fusedKeys && decide (Config.minVersion ≤ f.version)
  && Config.verifies 0 (Config.sha384 (leBytes 48 text.toNat ++ leBytes 8 f.version)) f.ed f.ml
/-- The text of the image of a choice: the package's of step 1, a stationmaster's of step 4. -/
def imageText (step c : Nat) : Digest := Config.firmwareDigest (if step = 4 then 16 + c else c)
/-- Whether a try of a step fails: by its finding, or because its image does not load; leaving a die out does not. -/
def tryFails (fails : List Sys2Proof.BootTry) (step unit c : Nat) : Bool :=
  !((stepKind step).2 && c + 1 == (stepKind step).1)
  && fails.any fun f => f.step == step && f.unit == unit && f.choice == c
      && match f.image with | some i => !imageLoads (imageText step c) i | none => true
/-- Begin a step with a choice: its record says that power was lost until it is completed, and BOOTSTAT shows it until it ends. A unit with no choice
left is a package step's: the package is in recovery (R409). -/
def State.beginStep (fails : List Sys2Proof.BootTry) (s : State) (step unit c0 : Nat) : State :=
  let n := (stepKind step).1
  let c := if (stepKind step).2 then min c0 (n - 1) else c0
  if n ≤ c then { s with bootStep := step, stepNow := none, recovery := true }
  else
    { (s.record step unit c 2).atWall (s.wtime + 1 + Config.free (2 ^ 20 + 11) s.epoch) (.startEnd step unit c fails) with
      bootStep := step
      stepNow := some (step, unit, c) }
/-- Go on with the first unit of a list that is not a die left out; with none left the package is ready. -/
def State.beginNext (fails : List Sys2Proof.BootTry) : List (Nat × Nat) → State → State
  | [], s => { s with bootStep := 255, stepNow := none }
  | (step, unit) :: t, s =>
    if (stepKind step).2 && (s.die unit).leftOut then State.beginNext fails t s else s.beginStep fails step unit (s.choiceOf step unit)
/-- What passing a step does for a die. -/
def State.diePassed (s : State) (step n d c : Nat) : State :=
  if c + 1 = n then s.modDie d fun y => { y with leftOut := true }
  else if step = 3 then s.modDie d fun y => { y with attach := .active }
  else if step = 6 then
    let ks := (Tab.find s.kept d).getD []
    let s1 := (ks.filter fun fn => !fnIsRow fn).foldl (fun s fn => s.fence d fn) s
    ((s1.modDie d fun y => { y with marked := ks.filter fnIsRow, inReset := false }).keep d).repairDie d
  else s
/-- What a step of the package does: Adsal draws the tree keys of the stacks (Table 20.2). -/
def State.packagePassed (s : State) (step : Nat) : State :=
  if step = 2 then
    let key := fun (d : Nat) => Config.hkdf (leBytes 48 Config.deviceSecret.toNat) []
      (ascii "TL8800-tree" ++ leBytes 1 d ++ leBytes 32 (Config.random (s.draws + d)).toNat)
    { (List.range 8).foldl (fun s d => s.modDie d fun y => { y with treeKey := key d }) s with draws := s.draws + 8 }
  else s
/-- The end of the start step under way (R408, R409): one that fails goes on with its next choice, one that passes with the next unit or step. Servo acquisition lasts until
the servo is LOCKED, or there is no source to lock to (Table 1.4, R410). -/
def State.endStep (s : State) (step unit c : Nat) (fails : List Sys2Proof.BootTry) : State :=
  if s.stepNow ≠ some (step, unit, c) then s
  else if tryFails fails step unit c then (s.completeRecord step unit c 1).beginStep fails step unit (c + 1)
  else if step = 8 ∧ s.servo.st ≠ .locked ∧ s.servo.order ≠ [] then s.atWall (s.wtime + 1) (.startEnd step unit c fails)
  else
    let s1 := s.completeRecord step unit c 0
    let s2 := if (stepKind step).2 then s1.diePassed step (stepKind step).1 unit c else s1.packagePassed step
    { s2 with started := ⟨0, step, unit, c, 0⟩ :: s2.started }.beginNext fails ((startUnits.dropWhile (· != (step, unit))).drop 1)
/-- POWER_UP (R408, R409): everything starts from reset, and the first step begins. -/
def execPowerUp (fails : List Sys2Proof.BootTry) (s : State) : Out := .next ((s.afterPower true).beginNext fails startUnits)

end Sys2Proof.Machine
end

