-- ==== Sys2Proof/Machine/VectorArith.lean ====
section
/-! DEFINITION. The vector units: the frame of R147 to R152 and R167 to R168, and the element-wise operations of R153 to R166. -/
namespace Sys2Proof.Machine

/-- The columns whose enabled inputs to a reduction include an undefined lane (R168). -/
def VOp.undefined (o : VOp) : MaskRow :=
  if o.fn.column && o.fn.isRed then
    (List.range 16).foldl (fun acc r => acc ||| (Tab.get 0 o.masks r &&& Tab.get 0 o.opens r)) 0
  else 0
/-- Rows i of the result of a column-axis operation whose last source row has been read (R168), with the free numbers for what is undefined in it: every lane when the
operation has failed a check (R61). Its flags are known once every row has been read, and R168 gives no first tick for them: the earliest at which they are
ORed is t + 16 (DESIGN CHOICE, log entry 13). -/
def Core.landColumn (free : Nat → Nat) (c : Core) (failed : Bool) (o : VOp) : Core :=
  let bad := if failed then BitVec.allOnes 64 else o.undefined
  let a := fun i => Tab.get (0 : Row) o.rows i
  let k := fun i => Tab.get (0 : MaskRow) o.masks i
  let c1 := (List.range 16).foldl (fun c i =>
    let y := colRow o.fn i a k
    let v := if bad = 0 then y.2 else blend bad y.2 (BitVec.ofNat 2048 (free i))
    c.rowResult o.seq (o.t + 16) (o.t + o.fn.lat) true o.d i (y.1 &&& ~~~Tab.get 0 o.skip i) v) c
  let f := colFlags o.fn a k ||| (if bad = 0 then 0 else BitVec.ofNat 7 (free 16) &&& o.fn.flagMask)
  c1.flagsBy o.seq (o.t + 16) (o.t + o.fn.lat) (free 17) f

/-- Lanes of row i of v[r] that are undefined for operation o as it reads them at its tick (R8): results under way, and what an operation issued before it has still to
give. What an operation issued with it or after it gives later is not seen (R71; DEDUCED, log entry 50). -/
def State.srcOpen (s : State) (c : Core) (o : VOp) (r i : Nat) : MaskRow := c.vOpen (s.now c) r i ||| s.here.vAhead (s.now c) o.t r i
/-- Row i of v[r] as operation o reads it. -/
def State.srcRow (s : State) (c : Core) (o : VOp) (r i : Nat) : Row :=
  let ahead := s.here.vAhead (s.now c) o.t r i
  if ahead = 0 then s.readV c r i else blend ahead (s.readV c r i) (BitVec.ofNat 2048 (s.free (0x18000 + 16 * r + i)))
/-- Whether row i of the operation depends on an undefined lane of its sources or on an undefined bit of its mask. -/
def State.srcUndefined (s : State) (c : Core) (o : VOp) (i : Nat) : Bool :=
  let m := if o.fn.masked || o.fn.isRed || o.fn.toMask then s.readK c o.k i else BitVec.allOnes 64
  let u := o.fn.reads
  let bad := fun (on : Bool) (r : Nat) => on && (m &&& s.srcOpen c o r i) != 0
  bad u.1 o.a || bad u.2.1 o.b || bad u.2.2.1 (o.b + 1) || bad u.2.2.2 o.d
  || ((o.fn.masked || o.fn.isRed || o.fn.toMask) && o.k != 0 && c.kOpen (s.now c) o.k i != 0)
/-- Read row i = now − t of the sources of an operation (R71, R147) and put its result under way; of an operation that has failed a check the result is free (R61). -/
def State.vopRow (s : State) (c : Core) (o : VOp) : Core :=
  let t := s.now c
  let i := t - o.t
  let failed := c.spoilt.contains (o.slot, o.t)
  let keep := fun (c : Core) (o : VOp) => if i < 15 then { c with vops := c.vops ++ [o] } else c
  if o.fn.column then
    let o' := { o with
      rows := Tab.put o.rows i (s.srcRow c o o.a i)
      masks := Tab.put o.masks i (s.readK c o.k i)
      opens := Tab.put o.opens i (s.srcOpen c o o.a i) }
    if i < 15 then keep c o' else c.landColumn (fun n => s.free (0x70000 + n)) failed o'
  else
    let lo := t + 1
    let hi := t + o.fn.lat - 15
    let open' := s.srcUndefined c o i
    let flag := fun (c : Core) (f : Flags) =>
      c.flagsBy o.seq lo (o.t + o.fn.lat) (s.free (0x70020 + i))
        (if open' || failed then f ||| (BitVec.ofNat 7 (s.free (0x70060 + i)) &&& o.fn.flagMask) else f)
    if o.fn.toMask then
      let y : MaskRow × Flags :=
        if o.fn.isKop then (kopRow o.fn (s.readK c o.a i) (s.readK c o.b i), 0)
        else cmpRow o.fn (s.srcRow c o o.a i) (s.srcRow c o o.b i) (s.readK c o.k i)
      let v := if failed then BitVec.ofNat 64 (s.free (0x70040 + i)) else y.1
      keep (flag { c with lands := c.lands ++ [⟨o.seq, lo, hi, true, false, .krow o.d i (~~~Tab.get 0 o.skip (16 + i)) v⟩] } y.2) o
    else
      let y := rowFn o.fn o.key o.n i (s.srcRow c o o.a i) (s.srcRow c o o.b i) (s.srcRow c o (o.b + 1) i) (s.srcRow c o o.d i) (s.readK c o.k i)
      let v := if failed || (o.fn.isRed && open') then BitVec.ofNat 2048 (s.free (0x70040 + i)) else y.2.1
      keep (flag (c.rowResult o.seq lo hi true o.d i (y.1 &&& ~~~Tab.get 0 o.skip i) v) y.2.2) o

/-- Read the rows of this tick of every operation that has rows left (R71); one issued in this tick has read its row 0 at issue. -/
def State.readRows (s : State) (c : Core) : Core :=
  let t := s.now c
  (c.vops.filter fun o => decide (o.t < t)).foldl (fun c' o => { s with cur := ⟨s.cur.core, o.slot⟩ }.vopRow c' o)
    { c with vops := c.vops.filter fun o => !decide (o.t < t) }

/-- Whether the unit of the slot is still busy (R150), and the core with it busy from now. -/
def State.vBusy (s : State) (c : Core) : Bool :=
  decide (s.now c < if s.cur.slot = 3 then c.vaFree else c.vbFree)
def State.vTake (s : State) (c : Core) : Core :=
  if s.cur.slot = 3 then { c with vaFree := s.now c + 16 } else { c with vbFree := s.now c + 16 }

/-- An operation of a vector slot (R147, R150, R152): the unit is checked and taken whatever the guard; a random value is taken
at issue; row 0 is read at once. -/
def vecOp (g : Guard) (d a b k : Nat) (fn : State → Core → VFn) (s : State) : Out :=
  let c := s.here
  if s.vBusy c then .next (s.trapHere 2 s.cur.slot)
  else if c.guardOn g then
    let f := fn s c
    let c1 := ((s.vTake c).charge f.energy).next
    let c2 := (if f.draws then { c1 with rngctr := c.rngctr + 1 } else c1).until' (s.now c + f.lat)
    .next (s.setHere (s.vopRow c2 ⟨c2.seq, s.now c, f, d, a, b, k, c.rngkey, c.rngctr, s.cur.slot, [], [], [], []⟩))
  else .next (s.setHere (s.vTake c))

/-- R153. -/
def execVaddF32 (g : Guard) (d a b k : Nat) (r : Rm) (s : State) : Out := vecOp g d a b k (fun _ _ => .addF r) s
/-- R153. -/
def execVsubF32 (g : Guard) (d a b k : Nat) (r : Rm) (s : State) : Out := vecOp g d a b k (fun _ _ => .subF r) s
/-- R153. -/
def execVmulF32 (g : Guard) (d a b k : Nat) (r : Rm) (s : State) : Out := vecOp g d a b k (fun _ _ => .mulF r) s
/-- R153. -/
def execVfmaF32 (g : Guard) (d a b k : Nat) (r : Rm) (s : State) : Out := vecOp g d a b k (fun _ _ => .fma r) s
/-- R153. -/
def execVfmsF32 (g : Guard) (d a b k : Nat) (r : Rm) (s : State) : Out := vecOp g d a b k (fun _ _ => .fms r) s
/-- R154. -/
def execVminF32 (g : Guard) (d a b k : Nat) (s : State) : Out := vecOp g d a b k (fun _ _ => .minF) s
/-- R154. -/
def execVmaxF32 (g : Guard) (d a b k : Nat) (s : State) : Out := vecOp g d a b k (fun _ _ => .maxF) s
/-- R154. -/
def execVabsF32 (g : Guard) (d a k : Nat) (s : State) : Out := vecOp g d a 0 k (fun _ _ => .absF) s
/-- R154. -/
def execVnegF32 (g : Guard) (d a k : Nat) (s : State) : Out := vecOp g d a 0 k (fun _ _ => .negF) s
/-- R155. -/
def execVrndF32 (g : Guard) (d a k : Nat) (r : Rm) (s : State) : Out := vecOp g d a 0 k (fun _ _ => .rndF r) s
/-- R156. -/
def execVcmpF32Eq (g : Guard) (d a b k : Nat) (s : State) : Out := vecOp g d a b k (fun _ _ => .eqF) s
/-- R156. -/
def execVcmpF32Ne (g : Guard) (d a b k : Nat) (s : State) : Out := vecOp g d a b k (fun _ _ => .neF) s
/-- R156. -/
def execVcmpF32Lt (g : Guard) (d a b k : Nat) (s : State) : Out := vecOp g d a b k (fun _ _ => .ltF) s
/-- R156. -/
def execVcmpF32Le (g : Guard) (d a b k : Nat) (s : State) : Out := vecOp g d a b k (fun _ _ => .leF) s
/-- R156. -/
def execVcmpF32Unord (g : Guard) (d a b k : Nat) (s : State) : Out := vecOp g d a b k (fun _ _ => .unordF) s
/-- R156. -/
def execVcmpI32Eq (g : Guard) (d a b k : Nat) (s : State) : Out := vecOp g d a b k (fun _ _ => .eqI) s
/-- R156. -/
def execVcmpI32Ne (g : Guard) (d a b k : Nat) (s : State) : Out := vecOp g d a b k (fun _ _ => .neI) s
/-- R156. -/
def execVcmpI32Lt (g : Guard) (d a b k : Nat) (s : State) : Out := vecOp g d a b k (fun _ _ => .ltI) s
/-- R156. -/
def execVcmpI32Ge (g : Guard) (d a b k : Nat) (s : State) : Out := vecOp g d a b k (fun _ _ => .geI) s
/-- R156. -/
def execVcmpI32Ltu (g : Guard) (d a b k : Nat) (s : State) : Out := vecOp g d a b k (fun _ _ => .ltuI) s
/-- R156. -/
def execVcmpI32Geu (g : Guard) (d a b k : Nat) (s : State) : Out := vecOp g d a b k (fun _ _ => .geuI) s
/-- R159. -/
def execVaddI32 (g : Guard) (d a b k : Nat) (s : State) : Out := vecOp g d a b k (fun _ _ => .addI) s
/-- R159. -/
def execVsubI32 (g : Guard) (d a b k : Nat) (s : State) : Out := vecOp g d a b k (fun _ _ => .subI) s
/-- R159. -/
def execVmulI32 (g : Guard) (d a b k : Nat) (s : State) : Out := vecOp g d a b k (fun _ _ => .mulI) s
/-- R159. -/
def execVmulhI32 (g : Guard) (d a b k : Nat) (s : State) : Out := vecOp g d a b k (fun _ _ => .mulhI) s
/-- R159. -/
def execVminI32 (g : Guard) (d a b k : Nat) (s : State) : Out := vecOp g d a b k (fun _ _ => .minI) s
/-- R159. -/
def execVmaxI32 (g : Guard) (d a b k : Nat) (s : State) : Out := vecOp g d a b k (fun _ _ => .maxI) s
/-- R159. -/
def execVminN32 (g : Guard) (d a b k : Nat) (s : State) : Out := vecOp g d a b k (fun _ _ => .minN) s
/-- R159. -/
def execVmaxN32 (g : Guard) (d a b k : Nat) (s : State) : Out := vecOp g d a b k (fun _ _ => .maxN) s
/-- R159. -/
def execVaddsI32 (g : Guard) (d a b k : Nat) (s : State) : Out := vecOp g d a b k (fun _ _ => .addsI) s
/-- R159. -/
def execVsubsI32 (g : Guard) (d a b k : Nat) (s : State) : Out := vecOp g d a b k (fun _ _ => .subsI) s
/-- R159. -/
def execVabsI32 (g : Guard) (d a k : Nat) (s : State) : Out := vecOp g d a 0 k (fun _ _ => .absI) s
/-- R159. -/
def execVnegI32 (g : Guard) (d a k : Nat) (s : State) : Out := vecOp g d a 0 k (fun _ _ => .negI) s
/-- R160. -/
def execVand (g : Guard) (d a b k : Nat) (s : State) : Out := vecOp g d a b k (fun _ _ => .and) s
/-- R160. -/
def execVor (g : Guard) (d a b k : Nat) (s : State) : Out := vecOp g d a b k (fun _ _ => .or) s
/-- R160. -/
def execVxor (g : Guard) (d a b k : Nat) (s : State) : Out := vecOp g d a b k (fun _ _ => .xor) s
/-- R160. -/
def execVandn (g : Guard) (d a b k : Nat) (s : State) : Out := vecOp g d a b k (fun _ _ => .andn) s
/-- R160. -/
def execVnot (g : Guard) (d a k : Nat) (s : State) : Out := vecOp g d a 0 k (fun _ _ => .not) s
/-- R161. -/
def execVsll (g : Guard) (d a b k : Nat) (s : State) : Out := vecOp g d a b k (fun _ _ => .sll) s
/-- R161: immediate amount, no mask. -/
def execVsllImm (g : Guard) (d a i : Nat) (s : State) : Out := vecOp g d a 0 0 (fun _ _ => .sllI i) s
/-- R161. -/
def execVsrl (g : Guard) (d a b k : Nat) (s : State) : Out := vecOp g d a b k (fun _ _ => .srl) s
/-- R161: immediate amount, no mask. -/
def execVsrlImm (g : Guard) (d a i : Nat) (s : State) : Out := vecOp g d a 0 0 (fun _ _ => .srlI i) s
/-- R161. -/
def execVsra (g : Guard) (d a b k : Nat) (s : State) : Out := vecOp g d a b k (fun _ _ => .sra) s
/-- R161: immediate amount, no mask. -/
def execVsraImm (g : Guard) (d a i : Nat) (s : State) : Out := vecOp g d a 0 0 (fun _ _ => .sraI i) s
/-- R161. -/
def execVrol (g : Guard) (d a b k : Nat) (s : State) : Out := vecOp g d a b k (fun _ _ => .rol) s
/-- R161: immediate amount, no mask. -/
def execVrolImm (g : Guard) (d a i : Nat) (s : State) : Out := vecOp g d a 0 0 (fun _ _ => .rolI i) s
/-- R157: k[K] selects. -/
def execVsel (g : Guard) (d a b k : Nat) (s : State) : Out := vecOp g d a b k (fun _ _ => .sel) s
/-- R162. -/
def execVdotI8I8 (g : Guard) (d a b k : Nat) (sat : Bool) (s : State) : Out := vecOp g d a b k (fun _ _ => .dot .i8 .i8 sat) s
/-- R162. -/
def execVdotN8I8 (g : Guard) (d a b k : Nat) (sat : Bool) (s : State) : Out := vecOp g d a b k (fun _ _ => .dot .n8 .i8 sat) s
/-- R162. -/
def execVdotN8N8 (g : Guard) (d a b k : Nat) (sat : Bool) (s : State) : Out := vecOp g d a b k (fun _ _ => .dot .n8 .n8 sat) s
/-- R163. -/
def execVcvt (g : Guard) (d a : Nat) (dst src : Fmt) (r : Rm) (s : State) : Out := vecOp g d a 0 0 (fun _ _ => .cvt dst src r false) s
/-- R163, R165. -/
def execVcvtSat (g : Guard) (d a : Nat) (dst src : Fmt) (r : Rm) (s : State) : Out := vecOp g d a 0 0 (fun _ _ => .cvt dst src r true) s
/-- R166. -/
def execVscaI32 (g : Guard) (d a b k : Nat) (r : Rm) (s : State) : Out := vecOp g d a b k (fun _ _ => .scaI r) s
/-- R166. -/
def execVscaF32 (g : Guard) (d a b k : Nat) (r : Rm) (s : State) : Out := vecOp g d a b k (fun _ _ => .scaF r) s
/-- R158: x[a] is read once, at issue. -/
def execVsplat (g : Guard) (d a k : Nat) (s : State) : Out := vecOp g d 0 0 k (fun s c => .splat ((s.readX c a).setWidth 32)) s

end Sys2Proof.Machine
end

