-- ==== Sys2Proof/Machine/VectorStruct.lean ====
section
/-! DEFINITION. Moves, reductions, masks, special functions and random numbers of the vector units: R169 to R182. -/
namespace Sys2Proof.Machine

/-- Whether some row of k[a] is undefined at tick t: on its way, or not yet read by the operation that gives it (R67, R175). -/
def Core.maskOpen (c : Core) (t a : Nat) : Bool :=
  a != 0 && ((List.range 16).any fun i => c.kOpen t a i != 0
    || c.vops.any fun o => o.fn.toMask && o.d == a && o.ahead t i false && ~~~Tab.get 0 o.skip (16 + i) != 0)
/-- KANY and KALL (R175): the whole mask is read at issue and the predicate lands at t + 1; of an undefined row it is free. -/
def ktestOp (g : Guard) (d a : Nat) (all : Bool) (s : State) : Out :=
  let c := s.here
  if s.vBusy c then .next (s.trapHere 2 s.cur.slot)
  else if c.guardOn g then
    let rows := (List.range 16).map fun i => s.readK c a i
    let known := if all then rows.all fun r => r == BitVec.allOnes 64 else rows.any fun r => r != 0
    let v := if c.maskOpen (s.now c) a then s.free 0x48000 % 2 == 1 else known
    .next (s.setHere ((((s.vTake c).charge 160).next).result (s.now c) 1 (.p d v)))
  else .next (s.setHere (s.vTake c))

/-- R169. -/
def execVrotr (g : Guard) (d a i : Nat) (s : State) : Out := vecOp g d a 0 0 (fun _ _ => .rotr i) s
/-- R169. -/
def execVbcr (g : Guard) (d a i : Nat) (s : State) : Out := vecOp g d a 0 0 (fun _ _ => .bcr i) s
/-- R170. -/
def execVrotc (g : Guard) (d a i : Nat) (s : State) : Out := vecOp g d a 0 0 (fun _ _ => .rotc i) s
/-- R170. -/
def execVbcc (g : Guard) (d a i : Nat) (s : State) : Out := vecOp g d a 0 0 (fun _ _ => .bcc i) s
/-- R171. -/
def execVtr (g : Guard) (d a i : Nat) (s : State) : Out := vecOp g d a 0 0 (fun _ _ => .tr i) s
/-- R172. -/
def execVredrSumF32 (g : Guard) (d a k : Nat) (s : State) : Out := vecOp g d a 0 k (fun _ _ => .redrSumF) s
/-- R172. -/
def execVredrMaxF32 (g : Guard) (d a k : Nat) (s : State) : Out := vecOp g d a 0 k (fun _ _ => .redrMaxF) s
/-- R172. -/
def execVredrMinF32 (g : Guard) (d a k : Nat) (s : State) : Out := vecOp g d a 0 k (fun _ _ => .redrMinF) s
/-- R172. -/
def execVredrSumI32 (g : Guard) (d a k : Nat) (s : State) : Out := vecOp g d a 0 k (fun _ _ => .redrSumI) s
/-- R172. -/
def execVredrMaxI32 (g : Guard) (d a k : Nat) (s : State) : Out := vecOp g d a 0 k (fun _ _ => .redrMaxI) s
/-- R172. -/
def execVredrMinI32 (g : Guard) (d a k : Nat) (s : State) : Out := vecOp g d a 0 k (fun _ _ => .redrMinI) s
/-- R172. -/
def execVredcSumF32 (g : Guard) (d a k : Nat) (s : State) : Out := vecOp g d a 0 k (fun _ _ => .redcSumF) s
/-- R172. -/
def execVredcMaxF32 (g : Guard) (d a k : Nat) (s : State) : Out := vecOp g d a 0 k (fun _ _ => .redcMaxF) s
/-- R172. -/
def execVredcMinF32 (g : Guard) (d a k : Nat) (s : State) : Out := vecOp g d a 0 k (fun _ _ => .redcMinF) s
/-- R172. -/
def execVredcSumI32 (g : Guard) (d a k : Nat) (s : State) : Out := vecOp g d a 0 k (fun _ _ => .redcSumI) s
/-- R172. -/
def execVredcMaxI32 (g : Guard) (d a k : Nat) (s : State) : Out := vecOp g d a 0 k (fun _ _ => .redcMaxI) s
/-- R172. -/
def execVredcMinI32 (g : Guard) (d a k : Nat) (s : State) : Out := vecOp g d a 0 k (fun _ _ => .redcMinI) s
/-- R174. -/
def execKand (g : Guard) (d a b : Nat) (s : State) : Out := vecOp g d a b 0 (fun _ _ => .kand) s
/-- R174. -/
def execKor (g : Guard) (d a b : Nat) (s : State) : Out := vecOp g d a b 0 (fun _ _ => .kor) s
/-- R174. -/
def execKxor (g : Guard) (d a b : Nat) (s : State) : Out := vecOp g d a b 0 (fun _ _ => .kxor) s
/-- R174. -/
def execKandn (g : Guard) (d a b : Nat) (s : State) : Out := vecOp g d a b 0 (fun _ _ => .kandn) s
/-- R174. -/
def execKnot (g : Guard) (d a : Nat) (s : State) : Out := vecOp g d a 0 0 (fun _ _ => .knot) s
/-- R174. -/
def execKmov (g : Guard) (d a : Nat) (s : State) : Out := vecOp g d a 0 0 (fun _ _ => .kmov) s
/-- R175. -/
def execKany (g : Guard) (d a : Nat) (s : State) : Out := ktestOp g d a false s
/-- R175. -/
def execKall (g : Guard) (d a : Nat) (s : State) : Out := ktestOp g d a true s
/-- R176. -/
def execVrcpe (g : Guard) (d a k : Nat) (s : State) : Out := vecOp g d a 0 k (fun _ _ => .rcpe) s
/-- R176. -/
def execVrsqe (g : Guard) (d a k : Nat) (s : State) : Out := vecOp g d a 0 k (fun _ _ => .rsqe) s
/-- R177. -/
def execVrcps (g : Guard) (d a b k : Nat) (r : Rm) (s : State) : Out := vecOp g d a b k (fun _ _ => .rcps r) s
/-- R177. -/
def execVrsqs (g : Guard) (d a b k : Nat) (r : Rm) (s : State) : Out := vecOp g d a b k (fun _ _ => .rsqs r) s
/-- R178. -/
def execVfexp (g : Guard) (d a k : Nat) (s : State) : Out := vecOp g d a 0 k (fun _ _ => .fexp) s
/-- R179. -/
def execVexpi (g : Guard) (d a b k : Nat) (r : Rm) (s : State) : Out := vecOp g d a b k (fun _ _ => .expi r) s
/-- R180. -/
def execVexpxE (g : Guard) (d a k : Nat) (s : State) : Out := vecOp g d a 0 k (fun _ _ => .expxE) s
/-- R180. -/
def execVexpxM (g : Guard) (d a k : Nat) (s : State) : Out := vecOp g d a 0 k (fun _ _ => .expxM) s
/-- R181. -/
def execVlg2e (g : Guard) (d a k : Nat) (s : State) : Out := vecOp g d a 0 k (fun _ _ => .lg2e) s
/-- R182. -/
def execVrngN32 (g : Guard) (d k : Nat) (s : State) : Out := vecOp g d 0 0 k (fun _ _ => .rngN) s
/-- R182. -/
def execVrngF32 (g : Guard) (d k : Nat) (s : State) : Out := vecOp g d 0 0 k (fun _ _ => .rngF) s

end Sys2Proof.Machine
end

