-- ==== Sys2Proof/Machine/Land.lean ====
section
/-! DEFINITION. What lands at a tick of a core: R8, R46, R67, R71, R130, R195 to R199. -/
namespace Sys2Proof.Machine

/-- RESULT_LAND (R67): at the start of its tick a core's due results land, and its running matrix commands do their work. -/
def execResultLand (k : Nat) (s : State) : Out :=
  let s := { s with cur := ⟨k, 0⟩ }
  let c := s.core k
  let c1 := c.settle (s.now c)
  .next (s.setCore k ((s.setCore k c1).matrixWork c1))
/-- After the bundle of its tick, stores of a core take the rows that they read at it (R130), and its vector units read the rows of the tick (R71), and its streams take what they must read before the tick's releases: at a
freeze these reads are still to come (R82). -/
def State.readOperands (s : State) (k : Nat) : State :=
  let s := { s with cur := ⟨k, 0⟩ }
  let c := (s.sampleStores (s.core k)).askQueues (s.tick k)
  let s1 := s.setCore k ((s.setCore k c).readRows c)
  s1.closeReads k (s1.tick k)

end Sys2Proof.Machine
end

