-- ==== Sys2Proof/Machine/Clock.lean ====
section
/-! DEFINITION. The two clocks (R20, R24, R26) and what falls in a wall tick and in a schedule tick, in order: R10, R88, R187, R227, R240,
R268, R284, R299, R339. -/
namespace Sys2Proof.Machine

/-! ## Schedule ticks in wall time (R26) -/

/-- The wall tick of schedule tick T of a partition at its present step. -/
def Part.wallOf (q : Part) (T : Nat) : Nat := q.w0 + ((T - q.t0) * 16 + (q.rate - 1)) / q.rate
/-- Whether the present schedule tick of a partition falls in wall tick w, unless it holds. -/
def Part.ticks (q : Part) (w : Nat) : Bool := !q.held && decide (q.wallOf q.stime ≤ w)

/-! ## What comes before the boundary of a schedule tick -/

/-- Requests that join a hold (R352), resumes of holds (R30), partition resets that wait for no more context (R427), and migrations whose copy may start (R358). -/
def State.resumeEvents (s : State) : List Ev :=
  s.parts.flatMap fun e =>
    let q := e.2
    (if q.held ∧ (q.reqs.any fun r => decide (r.h ≤ q.stime)) then [.holdTakesEffect e.1] else [])
    ++ (if q.held ∧ (q.resumeAt.any fun w => decide (w ≤ s.wtime)) then [.holdResume e.1] else [])
    ++ (if q.resetting ∧ q.ctxs = [] then [.partitionReset e.1] else [])
    ++ (if q.migration.any fun m => !m.copying && decide (m.x + Config.holdLead ≤ q.stime) then [.migrationCopyStart e.1] else [])

/-! ## The boundary of a schedule tick -/

/-- The event of a page command (R357). -/
def PageCmd.event (p : Nat) (c : PageCmd) : Ev :=
  match c.cmd with
  | 2 => .release p c.record
  | 3 => .invalidate p c.record
  | 4 => .migrate p c.record
  | _ => .assign p c.record
/-- What happens at the boundary before the present schedule tick of a partition, in the order of R32 and R88: the hold first, then a rate change,
then what lets cores run. -/
def State.boundaryOf (s : State) (p : Nat) (q : Part) : List Ev :=
  (q.ctxs.filter fun x => x.2.armed.isSome && x.2.boundary.isNone).map (fun x => .preemptBoundary p x.1)
  ++ (if q.reqs.any fun r => decide (r.h ≤ q.stime) then [.holdTakesEffect p] else [])
  ++ (if q.pend.any fun a => decide (a ≤ q.stime) then [.rateChangeEffect p] else [])
  ++ (q.ctxs.filter fun x => x.2.resumeP.any fun P => decide (P ≤ q.stime)).map (fun x => .contextReissue p x.1)
  ++ (q.launches.filter fun l => s.startsNow p l.2).map (fun l => .launchStart p l.1)
  ++ (match q.pgcmd with
      | some c => if c.at' ≤ q.stime ∧ q.migration.isNone then [c.event p] else []
      | none => [])
/-- The boundary events of this wall tick. -/
def State.boundaryEvents (s : State) : List Ev :=
  s.parts.flatMap fun e => if e.2.ticks s.wtime then s.boundaryOf e.1 e.2 else []

/-! ## One schedule tick of a partition -/

/-- The cores of a partition whose units act in this tick (R227, R228). -/
def State.acting (s : State) (p : Nat) : List (Nat × Core) := s.cores.filter fun e => e.2.part == p && s.acts e.1
/-- The copies of a core, each with its stream. -/
def Core.allCopies (c : Core) : List (Nat × Copy) := c.ca.copies.map (fun y => (0, y)) ++ c.cb.copies.map (fun y => (1, y))

/-- Insert by a key: equal keys keep their order. -/
def insertBy (a : List Nat × Ev) : List (List Nat × Ev) → List (List Nat × Ev)
  | [] => [a]
  | b :: t => if a.1 < b.1 then a :: b :: t else b :: insertBy a t
/-- The tensor operations whose effect tick this is: rotations first, then by grid row and column, CA before CB (R338, R339). -/
def State.effectEvents (s : State) (p : Nat) (q : Part) : List Ev :=
  let due := (s.cores.filter fun e => e.2.part == p).flatMap fun e =>
    (List.range 2).flatMap fun st =>
      ((e.2.stream st).effects.filter fun f =>
        f.at' + s.ctoffOf p f.asid == q.stime && !(e.2.st == .halted && e.2.asid == f.asid) && (s.ctx p f.asid).any fun x => x.st == .active || x.st == .ready).map fun f =>
          ([if f.op = 3 then 0 else 1, gridY e.2.die (coreY e.1), gridX e.2.die (coreX e.1), st],
            match f.op with
            | 0 => .tbumpEffect e.1 st f.id
            | 1 => .tcommitEffect e.1 st f.id
            | 2 => .tdigEffect e.1 st f.id
            | _ => .krotEffect e.1 st f.id)
  (due.foldl (fun l a => insertBy a l) []).map (·.2)

/-- Swap barriers and claims, at the start of a claim tick (R268, R310). -/
def claimEvents (p : Nat) (q : Part) : List Ev :=
  if q.stime % 256 = 0 then
    (q.graphs.filter fun g => g.2.st == .swapping).map (fun g => .graphSwapNode p g.1) ++ [.claimResolve p] else []
/-- Graph nodes reached at this tick, after its releases (R284, R285), and those that a swap barrier reaches in passing at the start of a claim tick. A node is read then, as
the releases leave it (R283): whatever its kind, one of the five events takes it, the others do nothing. -/
def State.graphEvents (s : State) (p : Nat) (q : Part) : List Ev :=
  (q.graphs.filter fun g => s.reachedNow p g.2
    || (q.stime % 256 == 0 && g.2.st == .swapping && s.swapMet s.vrecs p g.2.asid g.2.obj g.2.val)).flatMap fun g =>
      [.graphSwapNode p g.1, .graphKernelNode p g.1, .graphCondNode p g.1, .graphWhileNode p g.1, .graphEndNode p g.1]
/-- Events of the shard loader in this tick, after its releases (R337, R339, R343, R344). -/
def State.loaderEvents (s : State) (p : Nat) (q : Part) : List Ev :=
  let again := q.manifest.loaded.any fun e => s.ctxTick p e.1 % 256 == 0
  (q.digests.filter fun d => s.digestDue p d).map (fun d => .digestResult p d.bind.tid)
  ++ (s.lateShards p q).map (fun e => .shardDeadline p e.2)
  ++ (if again then [.manifestRecheck p] else [])
  ++ (if again || !q.digests.isEmpty then [.digestRead p] else [])

/-- What starts a core's tick: tiles, commands, and results (R67, R193, R281). -/
def Core.landEvents (c : Core) (k t : Nat) : List Ev :=
  (if c.lands.any fun (l : Land) => l.due t && (match l.wr with | .q .. => true | _ => false) then [.nxtDelivery k] else [])
  ++ (if c.cmds.any fun y => !y.swapped && decide (y.s ≤ t) then [.matrixCommandSwap k] else [])
  ++ (if c.lands.isEmpty && c.vops.isEmpty && c.cmds.isEmpty && c.reqs.isEmpty then [] else [.resultLand k])
  ++ (if c.cmds.isEmpty then [] else [.matrixCommandComplete k])
/-- Messages that arrive. -/
def Core.arrivalEvents (c : Core) (k t : Nat) : List Ev :=
  (c.allCopies.filter fun e => e.2.kind == .send && e.2.stop.isNone && e.2.r0.isSome && e.2.v == t).map fun e => .messageArrival k e.1 e.2.id
/-- Lookups of VIRT ends. -/
def Core.lookupEvents (c : Core) (k t : Nat) : List Ev :=
  c.allCopies.flatMap fun e =>
    let y := e.2
    let one := fun (dst : Bool) => if y.kind = .timed ∧ y.space dst = 3 ∧ (dst ∨ y.r0.isSome) ∧ y.lookupTick 0 dst ≤ t ∧ t < y.lookupTick 0 dst + y.n then
      [Ev.virtLookup k e.1 y.id (t - y.lookupTick 0 dst) dst] else []
    one false ++ one true
/-- Whether beats of a copy are released at their ticks by its stream: CPL and SEND write by other means. -/
def Copy.releases (y : Copy) : Bool := match y.kind with | .cpl => false | .send => false | _ => true
/-- Releases, and the status words of sealed operations after their last beats. -/
def Core.releaseEvents (c : Core) (k t : Nat) : List Ev :=
  c.allCopies.flatMap fun e =>
    let y := e.2
    if y.releases ∧ y.n ≠ 0 ∧ !y.unchecked ∧ y.v ≤ t ∧ t < y.v + y.n + y.kind.sealed.toNat then [Ev.beatRelease k e.1 y.id (t - y.v)] else []
/-- Waits that end. -/
def Core.waitEvents (c : Core) (k t : Nat) : List Ev :=
  match c.wait with
  | some (.until' T) => if T ≤ t then [.waitEnd k] else []
  | _ => []
/-- Whether a core waits at a barrier with a BUDGET of 0: what becomes of it follows the bundles of the tick, which may set its instance (R308, R309). -/
def Core.waitsDry (c : Core) : Bool := match c.wait with | some (.barrier _ _) => c.budget == 0 | _ => false
/-- The operands that stores and vector units read after the bundles. -/
def Core.operandEvents (c : Core) (k _t : Nat) : List Ev := if c.vops.isEmpty && c.reqs.isEmpty then [] else [.operandRead k]
/-- Source reads that no bank decides. -/
def Core.readEvents (c : Core) (k t : Nat) : List Ev :=
  c.allCopies.flatMap fun e =>
    let y := e.2
    if y.banked || y.r0.isNone || y.n == 0 || y.unchecked || y.stop.any (fun h => decide (h ≤ t)) then []
    else ((List.range y.reads).filter fun b => decide ((y.window b).1 ≤ t) && decide (t ≤ (y.window b).2) && y.readTick k e.1 b == t).map
      fun b => .beatSourceRead k e.1 y.id b
/-- Weight-port beats that running loads consume (R221). -/
def Core.portEvents (c : Core) (k t : Nat) : List Ev :=
  c.cmds.filterMap fun y => match y.op with
    | .wldp st _ => if y.s ≤ t ∧ t < y.c then some (.wportBeatConsume k st (t - y.s)) else none
    | _ => none
/-- Descriptors that are checked (R256). -/
def Core.descEvents (c : Core) (k t : Nat) : List Ev :=
  (c.allCopies.filter fun e => e.2.kind.sealed && e.2.unchecked && e.2.stop.isNone && e.2.itick + 4 == t).map fun e => .sealDescriptorCheck k e.1 e.2.id
/-- Beats that are due 192 ticks ahead (R226). -/
def Core.lateEvents (c : Core) (k t : Nat) : List Ev :=
  c.allCopies.flatMap fun e =>
    let y := e.2
    if y.m < 256 ∨ (y.kind = .timed ∧ y.space true = 5) then []
    else if y.kind = .send then (if y.v = t + 192 then (List.range y.n).map fun b => .lateBeatCheck k e.1 y.id b else [])
    else if y.v ≤ t + 192 ∧ t + 192 < y.v + y.n then [.lateBeatCheck k e.1 y.id (t + 192 - y.v)] else []
/-- Every acting core's events of one sort. -/
def State.perCore (s : State) (cs : List (Nat × Core)) (f : Core → Nat → Nat → List Ev) : List Ev :=
  cs.flatMap fun e => f e.2 e.1 (s.now e.2)

/-- The matrix units that acting cores of a partition hold or ask for, and what becomes of their leases (R186 to R189). -/
def State.leaseEvents (s : State) (cs : List (Nat × Core)) : List Ev :=
  ((cs.map fun e => unitOf e.1).eraseDups).flatMap fun u =>
    let y := s.unit u
    let t := s.unitTick u
    (if y.st = .leased ∧ y.leaseEnd ≤ t ∧ s.acts (unitCore u y.h) then [.leaseEnd u] else [])
    ++ (if y.st = .turn ∧ y.lend + 8 ≤ t then [.leaseTurnEnd u] else [])
    ++ (if (y.st = .free ∨ (y.st = .turn ∧ y.lend + 8 ≤ t)) ∧ ((List.range 4).any fun pos => (s.core (unitCore u pos)).lease == 1) then [.leaseGrant u] else [])
/-- Barriers whose completion tick has come (R299). -/
def State.barrierEvents (s : State) (p : Nat) (q : Part) : List Ev :=
  q.launches.flatMap fun e =>
    let y := e.2
    if y.members.any s.acts then
      (y.bars.filter fun b => !b.over' && b.waits.isEmpty && b.r.any fun r => decide (r ≤ s.ctxTick p y.asid)).map fun b => .barrierComplete p e.1 b.scope b.n
    else []
/-- The cores that issue, by launch and rank. -/
def State.issueOrder (_s : State) (p : Nat) (q : Part) (cs : List (Nat × Core)) : List Nat :=
  let ranked := q.launches.flatMap fun e => e.2.members
  let run := (cs.filter fun e => e.2.st == .running && e.2.part == p).map (·.1)
  (ranked.filter run.contains) ++ run.filter fun k => !ranked.contains k
/-- The scratchpads that acting cores ask something of, in order. -/
def padsOf (cs : List (Nat × Core)) : List Nat :=
  (cs.flatMap fun e => (if e.2.cmds.isEmpty then [] else [e.1]) ++ e.2.reqs.map (·.pad)).foldl (fun (t : Tab Unit) k => Tab.put t k ()) [] |>.map (·.1)

/-- The events of one schedule tick of a partition, in order. A core that traps in its bundle freezes before the tick: what follows the bundles waits for
its resume (Machine/Run.lean), but for results that land at the tick, which its bundle has read (R67, R82, R412). -/
def State.tickOf (s : State) (p : Nat) (q : Part) : List Ev :=
  let cs := s.acting p
  let order := s.issueOrder p q cs
  let dry := fun (k : Nat) => (s.core k).waitsDry
  claimEvents p q
  ++ s.perCore cs Core.landEvents
  ++ s.barrierEvents p q
  ++ s.perCore cs Core.waitEvents
  ++ s.effectEvents p q
  ++ s.perCore cs Core.arrivalEvents
  ++ s.leaseEvents cs
  ++ (order.filter fun k => !dry k).map (fun k => .bundleIssue k)
  ++ (order.filter dry).flatMap (fun k => [.waitBudgetExhausted k, .bundleIssue k])
  ++ s.perCore cs Core.operandEvents
  ++ s.perCore cs Core.lookupEvents
  ++ (q.inbound.filter fun e => decide (e.tick ≤ q.stime)).map (fun e => .beatRelease (4096 + p) 0 e.id 0)
  ++ s.perCore cs Core.releaseEvents
  ++ s.graphEvents p q
  ++ s.perCore cs Core.readEvents
  ++ s.perCore cs Core.portEvents
  ++ (padsOf cs).map (fun k => .bankAccessPerform k)
  ++ s.perCore cs Core.descEvents
  ++ cs.map (fun e => .coreExitTick e.1)
  ++ q.launches.map (fun e => .launchRetire p e.1)
  ++ s.perCore cs Core.lateEvents
  ++ ((List.range s.inputs.length).filter fun i => (s.inputs[i]?).any fun e => s.lateInput p q e.2).map fun i => .lateBeatCheck (4096 + p) 0 i 0
/-- The events of the schedule ticks that fall in this wall tick. -/
def State.tickEvents (s : State) : List Ev := s.parts.flatMap fun e => if e.2.ticks s.wtime then s.tickOf e.1 e.2 else []
/-- The events of the shard loaders in those ticks: the last of each tick (R339). -/
def State.tickLoads (s : State) : List Ev := s.parts.flatMap fun e => if e.2.ticks s.wtime then s.loaderEvents e.1 e.2 else []

/-! ## The end of a wall tick -/

/-- Whether a core accrues static charge (Table 10.7). -/
def CoreSt.resident (x : CoreSt) : Bool := x.bound'
/-- One wall tick of residency, in the meter from the next schedule tick on (R240). -/
def Core.reside (c : Core) (ticked : Bool) : Core :=
  if c.st.resident then (let d := { c with stat := c.stat + 1 }; if ticked then d.fold else d) else c
/-- The accesses of cores in this wall tick. -/
def State.newTouches (s : State) : List Touch :=
  let touch := fun (k lo len : Nat) (wr : Bool) =>
    let c := s.core k
    if k < 2048 then [(⟨k, c.part, c.asid, s.now c, lo, len, wr⟩ : Touch)] else []
  s.hits.flatMap (fun h => touch h.2 h.1 1 true) ++ s.seen.flatMap fun e => touch e.2.2 e.1 e.2.1 false
/-- Whether an access may still lie in the span of a halt to come: its context does not run, or is at most 192 ticks on. -/
def State.recent (s : State) (e : Touch) : Bool :=
  (s.ctx e.part e.asid).any fun x => x.st != .active || decide ((s.part e.part).stime ≤ e.tick + x.ctoff + Config.holdLead)
/-- The launch of an access to device memory has met its line. -/
def State.meetLine (s : State) (e : Touch) : State :=
  if 2 ^ 40 ≤ e.lo ∧ e.lo < 2 ^ 48 then
    s.modLaunch e.part (s.core e.core).launch fun y =>
      { y with met := Tab.put y.met (e.lo / 64) (e.wr || (Tab.find y.met (e.lo / 64)).getD false) }
  else s
/-- Bytes that a read has met in a race: any value is left (R5, R316). -/
def State.scatterRead (s : State) (e : Nat × Nat × Nat) : State :=
  if s.quiet e.2.2 then s
  else (List.range e.2.1).foldl (fun s i =>
    if s.unsettled e.2.2 (e.1 + i) false then
      s.setByte (e.1 + i) (BitVec.ofNat 8 (Config.free e.2.2 (2 ^ 242 + s.moment e.2.2 * 2 ^ 56 + e.1 + i)))
    else s) s
/-- What the accesses of this wall tick leave for those to come (R247, R316, R319). -/
def State.recordAccesses (s : State) : State :=
  let new := s.newTouches
  let s1 := new.foldl State.meetLine (s.seen.foldl State.scatterRead s)
  { s1 with hits := [], seen := [], touches := new ++ s1.touches.filter s1.recent }
/-- Where a turn of the patrol ends, the engine of each die has read the granule whose turn it is (R364). -/
def State.patrolOn (s : State) : State :=
  if (s.wtime + 1) % 2 ^ 22 = 0 then
    (List.range 8).foldl (fun s d => match execPatrolRead d (s.wtime / 2 ^ 22 % 2 ^ 20) [] s with | .next s' => s' | _ => s) s
  else s
/-- The wall tick ends: schedule time goes on where a tick has fallen in it (R24, R26), residency is charged, ports offer their slots (R379), and WTIME counts (R20).
From here to its wall tick, the coming schedule tick is the present one: below step 16 a hold request raised in between belongs to it (DESIGN CHOICE, log entry 37). -/
def State.endWallTick (s0 : State) : State :=
  let s := s0.recordAccesses.servePorts.patrolOn
  let ran := (s.parts.filter fun e => e.2.ticks s.wtime).map (·.1)
  { s with
    wtime := (s.wtime + 1) % 2 ^ 64
    epoch := s.epoch + 1
    parts := s.parts.map fun e => if ran.contains e.1 then (e.1, { e.2.closeBarriers s with stime := e.2.stime + 1 }) else e
    cores := s.cores.map fun (e : Nat × Core) => (e.1, e.2.reside (ran.contains e.2.part))
    phase := 0 }
/-- The next thing from outside or from wall time that this wall tick holds and that nothing makes wait: findings of checks, then events of the machine, then
inputs. -/
def dueHead {α : Type} (w : Nat) (may : α → Bool) : List (Nat × α) → Option (α × List (Nat × α))
  | [] => none
  | e :: t => if e.1 ≤ w ∧ may e.2 then some (e.2, t) else (dueHead w may t).map fun r => (r.1, e :: r.2)

end Sys2Proof.Machine
end

