-- ==== Sys2Proof/Machine/Dispatch.lean ====
section
/-! DEFINITION. The one dispatch from an instruction or event to its meaning. -/
namespace Sys2Proof.Machine
open Host

def exec (i : Instr) (s : State) : Host.Outcome State Fault Refusal :=
  match i with
  | .nop a0 => Sys2Proof.Machine.execNop a0 s
  | .br a0 a1 => Sys2Proof.Machine.execBr a0 a1 s
  | .brb a0 a1 => Sys2Proof.Machine.execBrb a0 a1 s
  | .call a0 a1 a2 => Sys2Proof.Machine.execCall a0 a1 a2 s
  | .callb a0 a1 a2 => Sys2Proof.Machine.execCallb a0 a1 a2 s
  | .loop a0 a1 a2 => Sys2Proof.Machine.execLoop a0 a1 a2 s
  | .mbrChain a0 a1 a2 a3 a4 => Sys2Proof.Machine.execMbrChain a0 a1 a2 a3 a4 s
  | .mbrTree a0 a1 a2 a3 a4 => Sys2Proof.Machine.execMbrTree a0 a1 a2 a3 a4 s
  | .waitt a0 a1 a2 => Sys2Proof.Machine.execWaitt a0 a1 a2 s
  | .waitd a0 a1 => Sys2Proof.Machine.execWaitd a0 a1 s
  | .nxt a0 => Sys2Proof.Machine.execNxt a0 s
  | .trap a0 a1 => Sys2Proof.Machine.execTrap a0 a1 s
  | .brk a0 a1 => Sys2Proof.Machine.execBrk a0 a1 s
  | .cbar a0 a1 => Sys2Proof.Machine.execCbar a0 a1 s
  | .cbarNw a0 a1 => Sys2Proof.Machine.execCbarNw a0 a1 s
  | .dbar a0 => Sys2Proof.Machine.execDbar a0 s
  | .dbarNw a0 => Sys2Proof.Machine.execDbarNw a0 s
  | .ssb a0 => Sys2Proof.Machine.execSsb a0 s
  | .ssbNw a0 => Sys2Proof.Machine.execSsbNw a0 s
  | .bstatSub a0 a1 a2 => Sys2Proof.Machine.execBstatSub a0 a1 a2 s
  | .bstatDie a0 a1 => Sys2Proof.Machine.execBstatDie a0 a1 s
  | .bstatSs a0 a1 => Sys2Proof.Machine.execBstatSs a0 a1 s
  | .tmge a0 a1 a2 => Sys2Proof.Machine.execTmge a0 a1 a2 s
  | .bdge a0 a1 a2 => Sys2Proof.Machine.execBdge a0 a1 a2 s
  | .exit a0 => Sys2Proof.Machine.execExit a0 s
  | .yield a0 => Sys2Proof.Machine.execYield a0 s
  | .add a0 a1 a2 a3 => Sys2Proof.Machine.execAdd a0 a1 a2 a3 s
  | .sub a0 a1 a2 a3 => Sys2Proof.Machine.execSub a0 a1 a2 a3 s
  | .and a0 a1 a2 a3 => Sys2Proof.Machine.execAnd a0 a1 a2 a3 s
  | .or a0 a1 a2 a3 => Sys2Proof.Machine.execOr a0 a1 a2 a3 s
  | .xor a0 a1 a2 a3 => Sys2Proof.Machine.execXor a0 a1 a2 a3 s
  | .andn a0 a1 a2 a3 => Sys2Proof.Machine.execAndn a0 a1 a2 a3 s
  | .orn a0 a1 a2 a3 => Sys2Proof.Machine.execOrn a0 a1 a2 a3 s
  | .xnor a0 a1 a2 a3 => Sys2Proof.Machine.execXnor a0 a1 a2 a3 s
  | .sll a0 a1 a2 a3 => Sys2Proof.Machine.execSll a0 a1 a2 a3 s
  | .srl a0 a1 a2 a3 => Sys2Proof.Machine.execSrl a0 a1 a2 a3 s
  | .sra a0 a1 a2 a3 => Sys2Proof.Machine.execSra a0 a1 a2 a3 s
  | .rol a0 a1 a2 a3 => Sys2Proof.Machine.execRol a0 a1 a2 a3 s
  | .ror a0 a1 a2 a3 => Sys2Proof.Machine.execRor a0 a1 a2 a3 s
  | .mul a0 a1 a2 a3 => Sys2Proof.Machine.execMul a0 a1 a2 a3 s
  | .mulh a0 a1 a2 a3 => Sys2Proof.Machine.execMulh a0 a1 a2 a3 s
  | .mulhu a0 a1 a2 a3 => Sys2Proof.Machine.execMulhu a0 a1 a2 a3 s
  | .min a0 a1 a2 a3 => Sys2Proof.Machine.execMin a0 a1 a2 a3 s
  | .max a0 a1 a2 a3 => Sys2Proof.Machine.execMax a0 a1 a2 a3 s
  | .minu a0 a1 a2 a3 => Sys2Proof.Machine.execMinu a0 a1 a2 a3 s
  | .maxu a0 a1 a2 a3 => Sys2Proof.Machine.execMaxu a0 a1 a2 a3 s
  | .clz a0 a1 a2 => Sys2Proof.Machine.execClz a0 a1 a2 s
  | .ctz a0 a1 a2 => Sys2Proof.Machine.execCtz a0 a1 a2 s
  | .popc a0 a1 a2 => Sys2Proof.Machine.execPopc a0 a1 a2 s
  | .bswap a0 a1 a2 => Sys2Proof.Machine.execBswap a0 a1 a2 s
  | .adds a0 a1 a2 a3 => Sys2Proof.Machine.execAdds a0 a1 a2 a3 s
  | .subs a0 a1 a2 a3 => Sys2Proof.Machine.execSubs a0 a1 a2 a3 s
  | .addi a0 a1 a2 a3 => Sys2Proof.Machine.execAddi a0 a1 a2 a3 s
  | .andi a0 a1 a2 a3 => Sys2Proof.Machine.execAndi a0 a1 a2 a3 s
  | .ori a0 a1 a2 a3 => Sys2Proof.Machine.execOri a0 a1 a2 a3 s
  | .xori a0 a1 a2 a3 => Sys2Proof.Machine.execXori a0 a1 a2 a3 s
  | .slli a0 a1 a2 a3 => Sys2Proof.Machine.execSlli a0 a1 a2 a3 s
  | .srli a0 a1 a2 a3 => Sys2Proof.Machine.execSrli a0 a1 a2 a3 s
  | .srai a0 a1 a2 a3 => Sys2Proof.Machine.execSrai a0 a1 a2 a3 s
  | .roli a0 a1 a2 a3 => Sys2Proof.Machine.execRoli a0 a1 a2 a3 s
  | .movi a0 a1 a2 => Sys2Proof.Machine.execMovi a0 a1 a2 s
  | .movk16 a0 a1 a2 => Sys2Proof.Machine.execMovk16 a0 a1 a2 s
  | .movk32 a0 a1 a2 => Sys2Proof.Machine.execMovk32 a0 a1 a2 s
  | .movk48 a0 a1 a2 => Sys2Proof.Machine.execMovk48 a0 a1 a2 s
  | .cmpEq a0 a1 a2 a3 => Sys2Proof.Machine.execCmpEq a0 a1 a2 a3 s
  | .cmpNe a0 a1 a2 a3 => Sys2Proof.Machine.execCmpNe a0 a1 a2 a3 s
  | .cmpLt a0 a1 a2 a3 => Sys2Proof.Machine.execCmpLt a0 a1 a2 a3 s
  | .cmpGe a0 a1 a2 a3 => Sys2Proof.Machine.execCmpGe a0 a1 a2 a3 s
  | .cmpLtu a0 a1 a2 a3 => Sys2Proof.Machine.execCmpLtu a0 a1 a2 a3 s
  | .cmpGeu a0 a1 a2 a3 => Sys2Proof.Machine.execCmpGeu a0 a1 a2 a3 s
  | .cmpiEq a0 a1 a2 a3 => Sys2Proof.Machine.execCmpiEq a0 a1 a2 a3 s
  | .cmpiNe a0 a1 a2 a3 => Sys2Proof.Machine.execCmpiNe a0 a1 a2 a3 s
  | .cmpiLt a0 a1 a2 a3 => Sys2Proof.Machine.execCmpiLt a0 a1 a2 a3 s
  | .cmpiGe a0 a1 a2 a3 => Sys2Proof.Machine.execCmpiGe a0 a1 a2 a3 s
  | .cmpiLtu a0 a1 a2 a3 => Sys2Proof.Machine.execCmpiLtu a0 a1 a2 a3 s
  | .cmpiGeu a0 a1 a2 a3 => Sys2Proof.Machine.execCmpiGeu a0 a1 a2 a3 s
  | .pand a0 a1 a2 a3 => Sys2Proof.Machine.execPand a0 a1 a2 a3 s
  | .por a0 a1 a2 a3 => Sys2Proof.Machine.execPor a0 a1 a2 a3 s
  | .pxor a0 a1 a2 a3 => Sys2Proof.Machine.execPxor a0 a1 a2 a3 s
  | .pandn a0 a1 a2 a3 => Sys2Proof.Machine.execPandn a0 a1 a2 a3 s
  | .porn a0 a1 a2 a3 => Sys2Proof.Machine.execPorn a0 a1 a2 a3 s
  | .pnot a0 a1 a2 => Sys2Proof.Machine.execPnot a0 a1 a2 s
  | .sel a0 a1 a2 a3 a4 => Sys2Proof.Machine.execSel a0 a1 a2 a3 a4 s
  | .setb a0 a1 a2 => Sys2Proof.Machine.execSetb a0 a1 a2 s
  | .getb a0 a1 a2 => Sys2Proof.Machine.execGetb a0 a1 a2 s
  | .setbi a0 a1 a2 => Sys2Proof.Machine.execSetbi a0 a1 a2 s
  | .sysrd a0 a1 a2 => Sys2Proof.Machine.execSysrd a0 a1 a2 s
  | .syswr a0 a1 a2 => Sys2Proof.Machine.execSyswr a0 a1 a2 s
  | .qrd a0 a1 a2 a3 => Sys2Proof.Machine.execQrd a0 a1 a2 a3 s
  | .ldb a0 a1 a2 a3 => Sys2Proof.Machine.execLdb a0 a1 a2 a3 s
  | .ldbu a0 a1 a2 a3 => Sys2Proof.Machine.execLdbu a0 a1 a2 a3 s
  | .ldh a0 a1 a2 a3 => Sys2Proof.Machine.execLdh a0 a1 a2 a3 s
  | .ldhu a0 a1 a2 a3 => Sys2Proof.Machine.execLdhu a0 a1 a2 a3 s
  | .ldw a0 a1 a2 a3 => Sys2Proof.Machine.execLdw a0 a1 a2 a3 s
  | .ldwu a0 a1 a2 a3 => Sys2Proof.Machine.execLdwu a0 a1 a2 a3 s
  | .ldd a0 a1 a2 a3 => Sys2Proof.Machine.execLdd a0 a1 a2 a3 s
  | .stb a0 a1 a2 a3 => Sys2Proof.Machine.execStb a0 a1 a2 a3 s
  | .sth a0 a1 a2 a3 => Sys2Proof.Machine.execSth a0 a1 a2 a3 s
  | .stw a0 a1 a2 a3 => Sys2Proof.Machine.execStw a0 a1 a2 a3 s
  | .std a0 a1 a2 a3 => Sys2Proof.Machine.execStd a0 a1 a2 a3 s
  | .vld a0 a1 a2 a3 => Sys2Proof.Machine.execVld a0 a1 a2 a3 s
  | .vst a0 a1 a2 a3 => Sys2Proof.Machine.execVst a0 a1 a2 a3 s
  | .vldr a0 a1 a2 a3 a4 => Sys2Proof.Machine.execVldr a0 a1 a2 a3 a4 s
  | .vstr a0 a1 a2 a3 a4 => Sys2Proof.Machine.execVstr a0 a1 a2 a3 a4 s
  | .vlds a0 a1 a2 a3 => Sys2Proof.Machine.execVlds a0 a1 a2 a3 s
  | .vsts a0 a1 a2 a3 => Sys2Proof.Machine.execVsts a0 a1 a2 a3 s
  | .vldf6 a0 a1 a2 a3 => Sys2Proof.Machine.execVldf6 a0 a1 a2 a3 s
  | .vstf6 a0 a1 a2 a3 => Sys2Proof.Machine.execVstf6 a0 a1 a2 a3 s
  | .amoAdd a0 a1 a2 a3 a4 => Sys2Proof.Machine.execAmoAdd a0 a1 a2 a3 a4 s
  | .amoSwap a0 a1 a2 a3 a4 => Sys2Proof.Machine.execAmoSwap a0 a1 a2 a3 a4 s
  | .amoAnd a0 a1 a2 a3 a4 => Sys2Proof.Machine.execAmoAnd a0 a1 a2 a3 a4 s
  | .amoOr a0 a1 a2 a3 a4 => Sys2Proof.Machine.execAmoOr a0 a1 a2 a3 a4 s
  | .amoXor a0 a1 a2 a3 a4 => Sys2Proof.Machine.execAmoXor a0 a1 a2 a3 a4 s
  | .amoMin a0 a1 a2 a3 a4 => Sys2Proof.Machine.execAmoMin a0 a1 a2 a3 a4 s
  | .amoMax a0 a1 a2 a3 a4 => Sys2Proof.Machine.execAmoMax a0 a1 a2 a3 a4 s
  | .amoMinu a0 a1 a2 a3 a4 => Sys2Proof.Machine.execAmoMinu a0 a1 a2 a3 a4 s
  | .amoMaxu a0 a1 a2 a3 a4 => Sys2Proof.Machine.execAmoMaxu a0 a1 a2 a3 a4 s
  | .mark a0 => Sys2Proof.Machine.execMark a0 s
  | .vaddF32 a0 a1 a2 a3 a4 a5 => Sys2Proof.Machine.execVaddF32 a0 a1 a2 a3 a4 a5 s
  | .vsubF32 a0 a1 a2 a3 a4 a5 => Sys2Proof.Machine.execVsubF32 a0 a1 a2 a3 a4 a5 s
  | .vmulF32 a0 a1 a2 a3 a4 a5 => Sys2Proof.Machine.execVmulF32 a0 a1 a2 a3 a4 a5 s
  | .vfmaF32 a0 a1 a2 a3 a4 a5 => Sys2Proof.Machine.execVfmaF32 a0 a1 a2 a3 a4 a5 s
  | .vfmsF32 a0 a1 a2 a3 a4 a5 => Sys2Proof.Machine.execVfmsF32 a0 a1 a2 a3 a4 a5 s
  | .vminF32 a0 a1 a2 a3 a4 => Sys2Proof.Machine.execVminF32 a0 a1 a2 a3 a4 s
  | .vmaxF32 a0 a1 a2 a3 a4 => Sys2Proof.Machine.execVmaxF32 a0 a1 a2 a3 a4 s
  | .vabsF32 a0 a1 a2 a3 => Sys2Proof.Machine.execVabsF32 a0 a1 a2 a3 s
  | .vnegF32 a0 a1 a2 a3 => Sys2Proof.Machine.execVnegF32 a0 a1 a2 a3 s
  | .vrndF32 a0 a1 a2 a3 a4 => Sys2Proof.Machine.execVrndF32 a0 a1 a2 a3 a4 s
  | .vcmpF32Eq a0 a1 a2 a3 a4 => Sys2Proof.Machine.execVcmpF32Eq a0 a1 a2 a3 a4 s
  | .vcmpF32Ne a0 a1 a2 a3 a4 => Sys2Proof.Machine.execVcmpF32Ne a0 a1 a2 a3 a4 s
  | .vcmpF32Lt a0 a1 a2 a3 a4 => Sys2Proof.Machine.execVcmpF32Lt a0 a1 a2 a3 a4 s
  | .vcmpF32Le a0 a1 a2 a3 a4 => Sys2Proof.Machine.execVcmpF32Le a0 a1 a2 a3 a4 s
  | .vcmpF32Unord a0 a1 a2 a3 a4 => Sys2Proof.Machine.execVcmpF32Unord a0 a1 a2 a3 a4 s
  | .vcmpI32Eq a0 a1 a2 a3 a4 => Sys2Proof.Machine.execVcmpI32Eq a0 a1 a2 a3 a4 s
  | .vcmpI32Ne a0 a1 a2 a3 a4 => Sys2Proof.Machine.execVcmpI32Ne a0 a1 a2 a3 a4 s
  | .vcmpI32Lt a0 a1 a2 a3 a4 => Sys2Proof.Machine.execVcmpI32Lt a0 a1 a2 a3 a4 s
  | .vcmpI32Ge a0 a1 a2 a3 a4 => Sys2Proof.Machine.execVcmpI32Ge a0 a1 a2 a3 a4 s
  | .vcmpI32Ltu a0 a1 a2 a3 a4 => Sys2Proof.Machine.execVcmpI32Ltu a0 a1 a2 a3 a4 s
  | .vcmpI32Geu a0 a1 a2 a3 a4 => Sys2Proof.Machine.execVcmpI32Geu a0 a1 a2 a3 a4 s
  | .vaddI32 a0 a1 a2 a3 a4 => Sys2Proof.Machine.execVaddI32 a0 a1 a2 a3 a4 s
  | .vsubI32 a0 a1 a2 a3 a4 => Sys2Proof.Machine.execVsubI32 a0 a1 a2 a3 a4 s
  | .vmulI32 a0 a1 a2 a3 a4 => Sys2Proof.Machine.execVmulI32 a0 a1 a2 a3 a4 s
  | .vmulhI32 a0 a1 a2 a3 a4 => Sys2Proof.Machine.execVmulhI32 a0 a1 a2 a3 a4 s
  | .vminI32 a0 a1 a2 a3 a4 => Sys2Proof.Machine.execVminI32 a0 a1 a2 a3 a4 s
  | .vmaxI32 a0 a1 a2 a3 a4 => Sys2Proof.Machine.execVmaxI32 a0 a1 a2 a3 a4 s
  | .vminN32 a0 a1 a2 a3 a4 => Sys2Proof.Machine.execVminN32 a0 a1 a2 a3 a4 s
  | .vmaxN32 a0 a1 a2 a3 a4 => Sys2Proof.Machine.execVmaxN32 a0 a1 a2 a3 a4 s
  | .vaddsI32 a0 a1 a2 a3 a4 => Sys2Proof.Machine.execVaddsI32 a0 a1 a2 a3 a4 s
  | .vsubsI32 a0 a1 a2 a3 a4 => Sys2Proof.Machine.execVsubsI32 a0 a1 a2 a3 a4 s
  | .vabsI32 a0 a1 a2 a3 => Sys2Proof.Machine.execVabsI32 a0 a1 a2 a3 s
  | .vnegI32 a0 a1 a2 a3 => Sys2Proof.Machine.execVnegI32 a0 a1 a2 a3 s
  | .vand a0 a1 a2 a3 a4 => Sys2Proof.Machine.execVand a0 a1 a2 a3 a4 s
  | .vor a0 a1 a2 a3 a4 => Sys2Proof.Machine.execVor a0 a1 a2 a3 a4 s
  | .vxor a0 a1 a2 a3 a4 => Sys2Proof.Machine.execVxor a0 a1 a2 a3 a4 s
  | .vandn a0 a1 a2 a3 a4 => Sys2Proof.Machine.execVandn a0 a1 a2 a3 a4 s
  | .vnot a0 a1 a2 a3 => Sys2Proof.Machine.execVnot a0 a1 a2 a3 s
  | .vsll a0 a1 a2 a3 a4 => Sys2Proof.Machine.execVsll a0 a1 a2 a3 a4 s
  | .vsrl a0 a1 a2 a3 a4 => Sys2Proof.Machine.execVsrl a0 a1 a2 a3 a4 s
  | .vsra a0 a1 a2 a3 a4 => Sys2Proof.Machine.execVsra a0 a1 a2 a3 a4 s
  | .vrol a0 a1 a2 a3 a4 => Sys2Proof.Machine.execVrol a0 a1 a2 a3 a4 s
  | .vsllImm a0 a1 a2 a3 => Sys2Proof.Machine.execVsllImm a0 a1 a2 a3 s
  | .vsrlImm a0 a1 a2 a3 => Sys2Proof.Machine.execVsrlImm a0 a1 a2 a3 s
  | .vsraImm a0 a1 a2 a3 => Sys2Proof.Machine.execVsraImm a0 a1 a2 a3 s
  | .vrolImm a0 a1 a2 a3 => Sys2Proof.Machine.execVrolImm a0 a1 a2 a3 s
  | .vsel a0 a1 a2 a3 a4 => Sys2Proof.Machine.execVsel a0 a1 a2 a3 a4 s
  | .vdotI8I8 a0 a1 a2 a3 a4 a5 => Sys2Proof.Machine.execVdotI8I8 a0 a1 a2 a3 a4 a5 s
  | .vdotN8I8 a0 a1 a2 a3 a4 a5 => Sys2Proof.Machine.execVdotN8I8 a0 a1 a2 a3 a4 a5 s
  | .vdotN8N8 a0 a1 a2 a3 a4 a5 => Sys2Proof.Machine.execVdotN8N8 a0 a1 a2 a3 a4 a5 s
  | .vcvt a0 a1 a2 a3 a4 a5 => Sys2Proof.Machine.execVcvt a0 a1 a2 a3 a4 a5 s
  | .vcvtSat a0 a1 a2 a3 a4 a5 => Sys2Proof.Machine.execVcvtSat a0 a1 a2 a3 a4 a5 s
  | .vscaI32 a0 a1 a2 a3 a4 a5 => Sys2Proof.Machine.execVscaI32 a0 a1 a2 a3 a4 a5 s
  | .vscaF32 a0 a1 a2 a3 a4 a5 => Sys2Proof.Machine.execVscaF32 a0 a1 a2 a3 a4 a5 s
  | .vsplat a0 a1 a2 a3 => Sys2Proof.Machine.execVsplat a0 a1 a2 a3 s
  | .vrotr a0 a1 a2 a3 => Sys2Proof.Machine.execVrotr a0 a1 a2 a3 s
  | .vbcr a0 a1 a2 a3 => Sys2Proof.Machine.execVbcr a0 a1 a2 a3 s
  | .vrotc a0 a1 a2 a3 => Sys2Proof.Machine.execVrotc a0 a1 a2 a3 s
  | .vbcc a0 a1 a2 a3 => Sys2Proof.Machine.execVbcc a0 a1 a2 a3 s
  | .vredrSumF32 a0 a1 a2 a3 => Sys2Proof.Machine.execVredrSumF32 a0 a1 a2 a3 s
  | .vredrMaxF32 a0 a1 a2 a3 => Sys2Proof.Machine.execVredrMaxF32 a0 a1 a2 a3 s
  | .vredrMinF32 a0 a1 a2 a3 => Sys2Proof.Machine.execVredrMinF32 a0 a1 a2 a3 s
  | .vredrSumI32 a0 a1 a2 a3 => Sys2Proof.Machine.execVredrSumI32 a0 a1 a2 a3 s
  | .vredrMaxI32 a0 a1 a2 a3 => Sys2Proof.Machine.execVredrMaxI32 a0 a1 a2 a3 s
  | .vredrMinI32 a0 a1 a2 a3 => Sys2Proof.Machine.execVredrMinI32 a0 a1 a2 a3 s
  | .vredcSumF32 a0 a1 a2 a3 => Sys2Proof.Machine.execVredcSumF32 a0 a1 a2 a3 s
  | .vredcMaxF32 a0 a1 a2 a3 => Sys2Proof.Machine.execVredcMaxF32 a0 a1 a2 a3 s
  | .vredcMinF32 a0 a1 a2 a3 => Sys2Proof.Machine.execVredcMinF32 a0 a1 a2 a3 s
  | .vredcSumI32 a0 a1 a2 a3 => Sys2Proof.Machine.execVredcSumI32 a0 a1 a2 a3 s
  | .vredcMaxI32 a0 a1 a2 a3 => Sys2Proof.Machine.execVredcMaxI32 a0 a1 a2 a3 s
  | .vredcMinI32 a0 a1 a2 a3 => Sys2Proof.Machine.execVredcMinI32 a0 a1 a2 a3 s
  | .vtr a0 a1 a2 a3 => Sys2Proof.Machine.execVtr a0 a1 a2 a3 s
  | .kand a0 a1 a2 a3 => Sys2Proof.Machine.execKand a0 a1 a2 a3 s
  | .kor a0 a1 a2 a3 => Sys2Proof.Machine.execKor a0 a1 a2 a3 s
  | .kxor a0 a1 a2 a3 => Sys2Proof.Machine.execKxor a0 a1 a2 a3 s
  | .kandn a0 a1 a2 a3 => Sys2Proof.Machine.execKandn a0 a1 a2 a3 s
  | .knot a0 a1 a2 => Sys2Proof.Machine.execKnot a0 a1 a2 s
  | .kmov a0 a1 a2 => Sys2Proof.Machine.execKmov a0 a1 a2 s
  | .kany a0 a1 a2 => Sys2Proof.Machine.execKany a0 a1 a2 s
  | .kall a0 a1 a2 => Sys2Proof.Machine.execKall a0 a1 a2 s
  | .vrcpe a0 a1 a2 a3 => Sys2Proof.Machine.execVrcpe a0 a1 a2 a3 s
  | .vrsqe a0 a1 a2 a3 => Sys2Proof.Machine.execVrsqe a0 a1 a2 a3 s
  | .vrcps a0 a1 a2 a3 a4 a5 => Sys2Proof.Machine.execVrcps a0 a1 a2 a3 a4 a5 s
  | .vrsqs a0 a1 a2 a3 a4 a5 => Sys2Proof.Machine.execVrsqs a0 a1 a2 a3 a4 a5 s
  | .vfexp a0 a1 a2 a3 => Sys2Proof.Machine.execVfexp a0 a1 a2 a3 s
  | .vexpi a0 a1 a2 a3 a4 a5 => Sys2Proof.Machine.execVexpi a0 a1 a2 a3 a4 a5 s
  | .vexpxE a0 a1 a2 a3 => Sys2Proof.Machine.execVexpxE a0 a1 a2 a3 s
  | .vexpxM a0 a1 a2 a3 => Sys2Proof.Machine.execVexpxM a0 a1 a2 a3 s
  | .vlg2e a0 a1 a2 a3 => Sys2Proof.Machine.execVlg2e a0 a1 a2 a3 s
  | .vrngN32 a0 a1 a2 => Sys2Proof.Machine.execVrngN32 a0 a1 a2 s
  | .vrngF32 a0 a1 a2 => Sys2Proof.Machine.execVrngF32 a0 a1 a2 s
  | .mlease a0 => Sys2Proof.Machine.execMlease a0 s
  | .mrel a0 => Sys2Proof.Machine.execMrel a0 s
  | .mset a0 a1 a2 => Sys2Proof.Machine.execMset a0 a1 a2 s
  | .mseti a0 a1 a2 => Sys2Proof.Machine.execMseti a0 a1 a2 s
  | .mwld a0 a1 => Sys2Proof.Machine.execMwld a0 a1 s
  | .mwlda a0 a1 => Sys2Proof.Machine.execMwlda a0 a1 s
  | .mwldb a0 a1 => Sys2Proof.Machine.execMwldb a0 a1 s
  | .mma a0 a1 a2 a3 => Sys2Proof.Machine.execMma a0 a1 a2 a3 s
  | .mmaAcc a0 a1 a2 a3 => Sys2Proof.Machine.execMmaAcc a0 a1 a2 a3 s
  | .mzero a0 a1 => Sys2Proof.Machine.execMzero a0 a1 s
  | .mdrv a0 a1 a2 a3 => Sys2Proof.Machine.execMdrv a0 a1 a2 a3 s
  | .mdrs a0 a1 a2 => Sys2Proof.Machine.execMdrs a0 a1 a2 s
  | .cpy a0 a1 a2 a3 => Sys2Proof.Machine.execCpy a0 a1 a2 a3 s
  | .cpyt a0 a1 a2 a3 a4 a5 a6 => Sys2Proof.Machine.execCpyt a0 a1 a2 a3 a4 a5 a6 s
  | .cpl a0 a1 a2 a3 => Sys2Proof.Machine.execCpl a0 a1 a2 a3 s
  | .cprog a0 a1 a2 a3 => Sys2Proof.Machine.execCprog a0 a1 a2 a3 s
  | .cprogi a0 a1 a2 a3 => Sys2Proof.Machine.execCprogi a0 a1 a2 a3 s
  | .send a0 a1 a2 a3 => Sys2Proof.Machine.execSend a0 a1 a2 a3 s
  | .recv a0 a1 a2 a3 => Sys2Proof.Machine.execRecv a0 a1 a2 a3 s
  | .xmark a0 => Sys2Proof.Machine.execXmark a0 s
  | .tbump a0 a1 => Sys2Proof.Machine.execTbump a0 a1 s
  | .tcommit a0 a1 => Sys2Proof.Machine.execTcommit a0 a1 s
  | .tdig a0 a1 => Sys2Proof.Machine.execTdig a0 a1 s
  | .krot a0 => Sys2Proof.Machine.execKrot a0 s
  | .sealCopy a0 a1 => Sys2Proof.Machine.execSealCopy a0 a1 s
  | .unsealCopy a0 a1 => Sys2Proof.Machine.execUnsealCopy a0 a1 s
  | .scrubCopy a0 a1 => Sys2Proof.Machine.execScrubCopy a0 a1 s
  | .bundleIssue a0 => Sys2Proof.Machine.execBundleIssue a0 s
  | .resultLand a0 => Sys2Proof.Machine.execResultLand a0 s
  | .waitEnd a0 => Sys2Proof.Machine.execWaitEnd a0 s
  | .nxtDelivery a0 => Sys2Proof.Machine.execNxtDelivery a0 s
  | .bankAccessPerform a0 => Sys2Proof.Machine.execBankAccessPerform a0 s
  | .holdRequest a0 a1 => Sys2Proof.Machine.execHoldRequest a0 a1 s
  | .holdTakesEffect a0 => Sys2Proof.Machine.execHoldTakesEffect a0 s
  | .holdResume a0 => Sys2Proof.Machine.execHoldResume a0 s
  | .stationmasterResume a0 a1 => Sys2Proof.Machine.execStationmasterResume a0 a1 s
  | .governorWindow a0 a1 => Sys2Proof.Machine.execGovernorWindow a0 a1 s
  | .rateChangeEffect a0 => Sys2Proof.Machine.execRateChangeEffect a0 s
  | .thermalTrip a0 => Sys2Proof.Machine.execThermalTrip a0 s
  | .powerUp a0 => Sys2Proof.Machine.execPowerUp a0 s
  | .servoSourceSeen a0 => Sys2Proof.Machine.execServoSourceSeen a0 s
  | .servoMeasurement a0 => Sys2Proof.Machine.execServoMeasurement a0 s
  | .servoSourceLost => Sys2Proof.Machine.execServoSourceLost s
  | .servoSourceSelect a0 => Sys2Proof.Machine.execServoSourceSelect a0 s
  | .launchStart a0 a1 => Sys2Proof.Machine.execLaunchStart a0 a1 s
  | .coreExitTick a0 => Sys2Proof.Machine.execCoreExitTick a0 s
  | .launchRetire a0 a1 => Sys2Proof.Machine.execLaunchRetire a0 a1 s
  | .leaseGrant a0 => Sys2Proof.Machine.execLeaseGrant a0 s
  | .leaseEnd a0 => Sys2Proof.Machine.execLeaseEnd a0 s
  | .leaseTurnEnd a0 => Sys2Proof.Machine.execLeaseTurnEnd a0 s
  | .matrixCommandSwap a0 => Sys2Proof.Machine.execMatrixCommandSwap a0 s
  | .matrixCommandComplete a0 => Sys2Proof.Machine.execMatrixCommandComplete a0 s
  | .beatSourceRead a0 a1 a2 a3 => Sys2Proof.Machine.execBeatSourceRead a0 a1 a2 a3 s
  | .indexEntryRead a0 a1 a2 a3 => Sys2Proof.Machine.execIndexEntryRead a0 a1 a2 a3 s
  | .beatRelease a0 a1 a2 a3 => Sys2Proof.Machine.execBeatRelease a0 a1 a2 a3 s
  | .cplSourceRead a0 a1 a2 a3 => Sys2Proof.Machine.execCplSourceRead a0 a1 a2 a3 s
  | .cplDestWrite a0 a1 a2 a3 => Sys2Proof.Machine.execCplDestWrite a0 a1 a2 a3 s
  | .sendBeatRead a0 a1 a2 a3 => Sys2Proof.Machine.execSendBeatRead a0 a1 a2 a3 s
  | .messageArrival a0 a1 a2 => Sys2Proof.Machine.execMessageArrival a0 a1 a2 s
  | .lateBeatCheck a0 a1 a2 a3 => Sys2Proof.Machine.execLateBeatCheck a0 a1 a2 a3 s
  | .copyFault a0 a1 a2 a3 a4 a5 => Sys2Proof.Machine.execCopyFault a0 a1 a2 a3 a4 a5 s
  | .wportBeatConsume a0 a1 a2 => Sys2Proof.Machine.execWportBeatConsume a0 a1 a2 s
  | .virtLookup a0 a1 a2 a3 a4 => Sys2Proof.Machine.execVirtLookup a0 a1 a2 a3 a4 s
  | .walkComplete a0 a1 a2 a3 a4 => Sys2Proof.Machine.execWalkComplete a0 a1 a2 a3 a4 s
  | .sealDescriptorCheck a0 a1 a2 => Sys2Proof.Machine.execSealDescriptorCheck a0 a1 a2 s
  | .tbumpEffect a0 a1 a2 => Sys2Proof.Machine.execTbumpEffect a0 a1 a2 s
  | .tcommitEffect a0 a1 a2 => Sys2Proof.Machine.execTcommitEffect a0 a1 a2 s
  | .tdigEffect a0 a1 a2 => Sys2Proof.Machine.execTdigEffect a0 a1 a2 s
  | .digestResult a0 a1 => Sys2Proof.Machine.execDigestResult a0 a1 s
  | .krotEffect a0 a1 a2 => Sys2Proof.Machine.execKrotEffect a0 a1 a2 s
  | .barrierComplete a0 a1 a2 a3 => Sys2Proof.Machine.execBarrierComplete a0 a1 a2 a3 s
  | .create a0 a1 => Sys2Proof.Machine.execCreate a0 a1 s
  | .destroy a0 a1 => Sys2Proof.Machine.execDestroy a0 a1 s
  | .preempt a0 a1 => Sys2Proof.Machine.execPreempt a0 a1 s
  | .resume a0 a1 => Sys2Proof.Machine.execResume a0 a1 s
  | .policy a0 a1 => Sys2Proof.Machine.execPolicy a0 a1 s
  | .contextCreateComplete a0 a1 => Sys2Proof.Machine.execContextCreateComplete a0 a1 s
  | .preemptBoundary a0 a1 => Sys2Proof.Machine.execPreemptBoundary a0 a1 s
  | .saveCommit a0 a1 => Sys2Proof.Machine.execSaveCommit a0 a1 s
  | .contextReissue a0 a1 => Sys2Proof.Machine.execContextReissue a0 a1 s
  | .teardownComplete a0 a1 => Sys2Proof.Machine.execTeardownComplete a0 a1 s
  | .contextScrubComplete a0 a1 => Sys2Proof.Machine.execContextScrubComplete a0 a1 s
  | .builtinTestComplete a0 a1 a2 => Sys2Proof.Machine.execBuiltinTestComplete a0 a1 a2 s
  | .partitionReset a0 => Sys2Proof.Machine.execPartitionReset a0 s
  | .partitionCreate a0 a1 => Sys2Proof.Machine.execPartitionCreate a0 a1 s
  | .partitionDestroy a0 => Sys2Proof.Machine.execPartitionDestroy a0 s
  | .dieDrain a0 a1 a2 => Sys2Proof.Machine.execDieDrain a0 a1 a2 s
  | .queueEnable a0 a1 a2 => Sys2Proof.Machine.execQueueEnable a0 a1 a2 s
  | .queueDisable a0 a1 => Sys2Proof.Machine.execQueueDisable a0 a1 s
  | .qtailWrite a0 a1 a2 => Sys2Proof.Machine.execQtailWrite a0 a1 a2 s
  | .queueSelect a0 a1 => Sys2Proof.Machine.execQueueSelect a0 a1 s
  | .claimResolve a0 => Sys2Proof.Machine.execClaimResolve a0 s
  | .graphKernelNode a0 a1 => Sys2Proof.Machine.execGraphKernelNode a0 a1 s
  | .graphCondNode a0 a1 => Sys2Proof.Machine.execGraphCondNode a0 a1 s
  | .graphWhileNode a0 a1 => Sys2Proof.Machine.execGraphWhileNode a0 a1 s
  | .graphSwapNode a0 a1 => Sys2Proof.Machine.execGraphSwapNode a0 a1 s
  | .graphEndNode a0 a1 => Sys2Proof.Machine.execGraphEndNode a0 a1 s
  | .assign a0 a1 => Sys2Proof.Machine.execAssign a0 a1 s
  | .release a0 a1 => Sys2Proof.Machine.execRelease a0 a1 s
  | .invalidate a0 a1 => Sys2Proof.Machine.execInvalidate a0 a1 s
  | .migrate a0 a1 => Sys2Proof.Machine.execMigrate a0 a1 s
  | .migrationCopyStart a0 => Sys2Proof.Machine.execMigrationCopyStart a0 s
  | .copyEngineComplete a0 => Sys2Proof.Machine.execCopyEngineComplete a0 s
  | .patrolRead a0 a1 a2 => Sys2Proof.Machine.execPatrolRead a0 a1 a2 s
  | .manifestLoad a0 a1 => Sys2Proof.Machine.execManifestLoad a0 a1 s
  | .shardAttemptComplete a0 a1 a2 a3 => Sys2Proof.Machine.execShardAttemptComplete a0 a1 a2 a3 s
  | .shardDeadline a0 a1 => Sys2Proof.Machine.execShardDeadline a0 a1 s
  | .manifestRecheck a0 => Sys2Proof.Machine.execManifestRecheck a0 s
  | .attachResetEnd a0 => Sys2Proof.Machine.execAttachResetEnd a0 s
  | .attachTrainingPass a0 => Sys2Proof.Machine.execAttachTrainingPass a0 s
  | .attachRetrainRequest a0 => Sys2Proof.Machine.execAttachRetrainRequest a0 s
  | .attachTrainingFail a0 => Sys2Proof.Machine.execAttachTrainingFail a0 s
  | .circuitEnable a0 a1 => Sys2Proof.Machine.execCircuitEnable a0 a1 s
  | .circuitDisable a0 => Sys2Proof.Machine.execCircuitDisable a0 s
  | .circuitLit a0 => Sys2Proof.Machine.execCircuitLit a0 s
  | .circuitDrainComplete a0 => Sys2Proof.Machine.execCircuitDrainComplete a0 s
  | .wavelengthFence a0 a1 => Sys2Proof.Machine.execWavelengthFence a0 a1 s
  | .portEnable a0 => Sys2Proof.Machine.execPortEnable a0 s
  | .portTrainingPass a0 a1 => Sys2Proof.Machine.execPortTrainingPass a0 a1 s
  | .portLaneLoss a0 => Sys2Proof.Machine.execPortLaneLoss a0 s
  | .portDisable a0 => Sys2Proof.Machine.execPortDisable a0 s
  | .fabidxWrite a0 => Sys2Proof.Machine.execFabidxWrite a0 s
  | .flitReceive a0 => Sys2Proof.Machine.execFlitReceive a0 s
  | .peerOpen a0 a1 => Sys2Proof.Machine.execPeerOpen a0 a1 s
  | .peerClose a0 a1 => Sys2Proof.Machine.execPeerClose a0 a1 s
  | .peerInit a0 a1 a2 => Sys2Proof.Machine.execPeerInit a0 a1 a2 s
  | .peerResp a0 a1 a2 => Sys2Proof.Machine.execPeerResp a0 a1 a2 s
  | .peerFin a0 a1 a2 => Sys2Proof.Machine.execPeerFin a0 a1 a2 s
  | .peerCloseReceived a0 a1 => Sys2Proof.Machine.execPeerCloseReceived a0 a1 s
  | .peerTimeout a0 a1 => Sys2Proof.Machine.execPeerTimeout a0 a1 s
  | .functionLevelReset a0 => Sys2Proof.Machine.execFunctionLevelReset a0 s
  | .tdispMessage a0 a1 => Sys2Proof.Machine.execTdispMessage a0 a1 s
  | .ideCheckFail a0 => Sys2Proof.Machine.execIdeCheckFail a0 s
  | .hostDmaRequest a0 a1 a2 a3 a4 => Sys2Proof.Machine.execHostDmaRequest a0 a1 a2 a3 a4 s
  | .getVersion a0 => Sys2Proof.Machine.execGetVersion a0 s
  | .getCapabilities a0 => Sys2Proof.Machine.execGetCapabilities a0 s
  | .negotiateAlgorithms a0 a1 a2 a3 => Sys2Proof.Machine.execNegotiateAlgorithms a0 a1 a2 a3 s
  | .getDigests a0 => Sys2Proof.Machine.execGetDigests a0 s
  | .getCertificate a0 a1 a2 => Sys2Proof.Machine.execGetCertificate a0 a1 a2 s
  | .challenge a0 a1 => Sys2Proof.Machine.execChallenge a0 a1 s
  | .getMeasurements a0 a1 a2 => Sys2Proof.Machine.execGetMeasurements a0 a1 a2 s
  | .keyExchange a0 a1 a2 => Sys2Proof.Machine.execKeyExchange a0 a1 a2 s
  | .finish a0 a1 => Sys2Proof.Machine.execFinish a0 a1 s
  | .keyUpdate a0 => Sys2Proof.Machine.execKeyUpdate a0 s
  | .endSession a0 => Sys2Proof.Machine.execEndSession a0 s
  | .tenantidWrite a0 a1 => Sys2Proof.Machine.execTenantidWrite a0 a1 s
  | .debugTokenCheck a0 a1 => Sys2Proof.Machine.execDebugTokenCheck a0 a1 s
  | .debugLock a0 => Sys2Proof.Machine.execDebugLock a0 s
  | .debugStopRequest a0 => Sys2Proof.Machine.execDebugStopRequest a0 s
  | .debuggerResume a0 => Sys2Proof.Machine.execDebuggerResume a0 s
  | .jreset => Sys2Proof.Machine.execJreset s
  | .fenceclr a0 => Sys2Proof.Machine.execFenceclr a0 s
  | .registerWrite a0 a1 a2 => Sys2Proof.Machine.execRegisterWrite a0 a1 a2 s
  | .beatPresent a0 a1 a2 a3 => Sys2Proof.Machine.execBeatPresent a0 a1 a2 a3 s
  | .faultActionsComplete a0 => Sys2Proof.Machine.execFaultActionsComplete a0 s
  | .powerLoss => Sys2Proof.Machine.execPowerLoss s
  | .waitBudgetExhausted a0 => Sys2Proof.Machine.execWaitBudgetExhausted a0 s

end Sys2Proof.Machine
end

