-- ==== Sys2Proof/Machine/Run.lean ====
section
/-! DEFINITION. Running one event of the machine: a whole bundle (R63, R66, R81, R94), a lease decision with the withdrawals of its tick
(R189), and every other event by its meaning. -/
namespace Sys2Proof.Machine

/-! ## A bundle (R63, R81, R94) -/

/-- An operation of the bundle of core k: its slot, and its meaning at the state in which the bundle has issued. -/
def runOp (k : Nat) (s : State) (e : Nat × Instr) : Out := exec e.2 { s with cur := ⟨k, e.1⟩ }
/-- The first operation of a bundle that traps, as its slot and the state that its trap leaves. -/
def firstTrap (k : Nat) (s : State) : List (Nat × Instr) → Option (Nat × State)
  | [] => none
  | e :: t =>
    match runOp k s e with
    | .next s' => if (s'.core k).st = .halted then some (e.1, s') else firstTrap k s t
    | _ => firstTrap k s t
/-- The latency bound of the operation that a core has issued last, at tick t: that of its results. -/
def Core.lastBound (c : Core) (t : Nat) : Nat :=
  c.vops.foldl (fun m o => if o.seq = c.seq then max m o.fn.lat else m) (c.lands.foldl (fun m l => if l.seq = c.seq then max m (l.hi - t) else m) 1)
/-- Note the latency bound of the operation that slot n of core k has carried out since `s`, when it has carried one out (R61). -/
def State.noted (k n : Nat) (s s' : State) : State :=
  let c := s'.core k
  if c.seq = (s.core k).seq then s' else s'.setCore k (c.noteBound (s.now (s.core k)) n (c.lastBound (s.now (s.core k))))
/-- The operations of a bundle in slot order, one after another: none sees a result of another, which lands in a later tick (R66). EXIT of slot X so acts before an
MLEASE of slot M on the same core's lease, an order that the spec leaves open (log entry 16). -/
def runOps (k : Nat) : List (Nat × Instr) → State → Out
  | [], s => .next s
  | e :: t, s =>
    match runOp k s e with
    | .next s' => runOps k t (State.noted k e.1 s s')
    | .fault r => .fault r
    | .refused r => .refused r
/-- The bundle of core k once it has issued: the lowest charged slot takes its trap and nothing of the bundle happens (R81, R94), else every
operation takes effect and the barriers that its arrivals complete are set (R299, R303). -/
def finishBundle (k : Nat) (s : State) : Out :=
  let clean := fun (s : State) => { s with ops := [], ill := none }
  let trap := firstTrap k s s.ops
  match s.ill, trap with
  | some i, some t => if t.1 < i.1 then .next (clean t.2) else .next (clean (s.takeTrap k i.1 1 i.2))
  | some i, none => .next (clean (s.takeTrap k i.1 1 i.2))
  | none, some t => .next (clean t.2)
  | none, none =>
    match runOps k s.ops s with
    | .next s' => let c := s'.core k; .next (clean (setBarriers s' c.part c.launch))
    | o => o
/-- BUNDLE_ISSUE with the operations of the bundle. -/
def runBundle (k : Nat) (s : State) : Out :=
  match execBundleIssue k s with
  | .next s' => if (s'.core k).st = .running then finishBundle k s' else .next s'
  | o => o

/-! ## A lease decision (R187, R189) -/

/-- Whether the bundle that core k issues in this tick withdraws its request: an MREL or EXIT that does not trap. -/
def withdraws (s : State) (k : Nat) : Bool :=
  (s.core k).lease == 1 && (s.core k).st == .running &&
  match runBundle k s with | .next s' => (s'.core k).lease == 0 | _ => false
/-- LEASE_GRANT of unit u, with the withdrawals of its tick. -/
def runGrant (u : Nat) (s : State) : Out :=
  let ks := (List.range 4).map fun pos => unitCore u pos
  let mark := fun (s' : State) (k : Nat) => if withdraws s k then s'.modCore k fun c => { c with mrel := true } else s'
  let clear := fun (s' : State) (k : Nat) => if (s'.core k).mrel then s'.modCore k fun c => { c with mrel := false } else s'
  match execLeaseGrant u (ks.foldl mark s) with
  | .next s' => .next (ks.foldl clear s')
  | o => o

/-! ## Events of a core that freezes in this tick (R82, R202, R227, R336) -/

/-- An event of this tick that decides on whether core k traps in its turn to issue: the lease of its unit (R187), the bundle, and the end of BUDGET in a wait at a barrier, which follows
the bundles of the other cores (R308). -/
def deciding (k : Nat) (dry : Bool) : Ev → Option (State → Out)
  | .leaseEnd u => if u = unitOf k then some (execLeaseEnd u) else none
  | .leaseTurnEnd u => if u = unitOf k then some (execLeaseTurnEnd u) else none
  | .leaseGrant u => if u = unitOf k then some (runGrant u) else none
  | .bundleIssue j => if dry || j == k then some (runBundle j) else none
  | .waitBudgetExhausted j => if j = k then some (execWaitBudgetExhausted k) else none
  | _ => none
/-- Run the deciding events among those to come, as far as they go. -/
def tryEvents (k : Nat) (dry : Bool) : List Ev → State → State
  | [], s => s
  | e :: t, s =>
    match deciding k dry e with
    | none => tryEvents k dry t s
    | some f => match f s with | .next s' => tryEvents k dry t s' | _ => tryEvents k dry t s
/-- Whether core k traps in the bundle that it is to issue in this tick, or in the wait that it is in. -/
def willTrap (s : State) (k : Nat) : Bool :=
  (s.core k).st == .running && ((tryEvents k (s.core k).waitsDry s.agenda s).core k).st == .halted
/-- An event of core k before the bundles: it waits for the resume when the core traps in this tick. The bundle is tried on what the event leaves, since it
issues after it. -/
def unlessTrap (k : Nat) (f : State → Out) (s : State) : Out :=
  match f s with
  | .next s' => if willTrap s' k then .next s else .next s'
  | o => o
/-- An event of core k after the bundles: it waits for the resume when the core has trapped in this tick. -/
def unlessHalted (k : Nat) (f : State → Out) (s : State) : Out := if (s.core k).st = .halted then .next s else f s

/-! ## Every event -/

/-- The meaning of an event of the machine. -/
def runEvent (e : Ev) (s : State) : Out :=
  match e with
  | .bundleIssue a0 => runBundle a0 s
  | .resultLand a0 => execResultLand a0 s
  | .operandRead a0 => unlessHalted a0 (fun s => .next (s.readOperands a0)) s
  | .waitEnd a0 => execWaitEnd a0 s
  | .nxtDelivery a0 => execNxtDelivery a0 s
  | .bankAccessPerform a0 => execBankAccessPerform a0 s
  | .holdTakesEffect a0 => execHoldTakesEffect a0 s
  | .holdResume a0 => execHoldResume a0 s
  | .stationmasterResume a0 a1 => execStationmasterResume a0 a1 s
  | .rateChangeEffect a0 => execRateChangeEffect a0 s
  | .launchStart a0 a1 => execLaunchStart a0 a1 s
  | .coreExitTick a0 => unlessHalted a0 (execCoreExitTick a0) s
  | .launchRetire a0 a1 => execLaunchRetire a0 a1 s
  | .leaseGrant a0 => runGrant a0 s
  | .leaseEnd a0 => execLeaseEnd a0 s
  | .leaseTurnEnd a0 => execLeaseTurnEnd a0 s
  | .matrixCommandSwap a0 => execMatrixCommandSwap a0 s
  | .matrixCommandComplete a0 => execMatrixCommandComplete a0 s
  | .beatSourceRead a0 a1 a2 a3 => unlessHalted a0 (execBeatSourceRead a0 a1 a2 a3) s
  | .indexEntryRead a0 a1 a2 a3 => unlessHalted a0 (execIndexEntryRead a0 a1 a2 a3) s
  | .beatRelease a0 a1 a2 a3 => unlessHalted a0 (execBeatRelease a0 a1 a2 a3) s
  | .cplSourceRead a0 a1 a2 a3 => unlessHalted a0 (execCplSourceRead a0 a1 a2 a3) s
  | .cplDestWrite a0 a1 a2 a3 => unlessHalted a0 (execCplDestWrite a0 a1 a2 a3) s
  | .sendBeatRead a0 a1 a2 a3 => unlessHalted a0 (execSendBeatRead a0 a1 a2 a3) s
  | .messageArrival a0 a1 a2 => unlessTrap a0 (execMessageArrival a0 a1 a2) s
  | .lateBeatCheck a0 a1 a2 a3 => unlessHalted a0 (execLateBeatCheck a0 a1 a2 a3) s
  | .copyFault a0 a1 a2 a3 a4 a5 => execCopyFault a0 a1 a2 a3 a4 a5 s
  | .wportBeatConsume a0 a1 a2 => unlessHalted a0 (execWportBeatConsume a0 a1 a2) s
  | .virtLookup a0 a1 a2 a3 a4 => unlessHalted a0 (execVirtLookup a0 a1 a2 a3 a4) s
  | .walkComplete a0 a1 a2 a3 a4 => execWalkComplete a0 a1 a2 a3 a4 s
  | .sealDescriptorCheck a0 a1 a2 => unlessHalted a0 (execSealDescriptorCheck a0 a1 a2) s
  | .tbumpEffect a0 a1 a2 => unlessTrap a0 (execTbumpEffect a0 a1 a2) s
  | .tcommitEffect a0 a1 a2 => unlessTrap a0 (execTcommitEffect a0 a1 a2) s
  | .tdigEffect a0 a1 a2 => unlessTrap a0 (execTdigEffect a0 a1 a2) s
  | .digestResult a0 a1 => execDigestResult a0 a1 s
  | .digestRead a0 => .next (s.digestRead a0)
  | .krotEffect a0 a1 a2 => unlessTrap a0 (execKrotEffect a0 a1 a2) s
  | .barrierComplete a0 a1 a2 a3 => execBarrierComplete a0 a1 a2 a3 s
  | .contextCreateComplete a0 a1 => execContextCreateComplete a0 a1 s
  | .preemptBoundary a0 a1 => execPreemptBoundary a0 a1 s
  | .saveCommit a0 a1 => execSaveCommit a0 a1 s
  | .contextReissue a0 a1 => execContextReissue a0 a1 s
  | .teardownComplete a0 a1 => execTeardownComplete a0 a1 s
  | .contextScrubComplete a0 a1 => execContextScrubComplete a0 a1 s
  | .partitionReset a0 => execPartitionReset a0 s
  | .queueSelect a0 a1 => execQueueSelect a0 a1 s
  | .claimResolve a0 => execClaimResolve a0 s
  | .graphKernelNode a0 a1 => execGraphKernelNode a0 a1 s
  | .graphCondNode a0 a1 => execGraphCondNode a0 a1 s
  | .graphWhileNode a0 a1 => execGraphWhileNode a0 a1 s
  | .graphSwapNode a0 a1 => execGraphSwapNode a0 a1 s
  | .graphEndNode a0 a1 => execGraphEndNode a0 a1 s
  | .assign a0 a1 => execAssign a0 a1 s
  | .release a0 a1 => execRelease a0 a1 s
  | .invalidate a0 a1 => execInvalidate a0 a1 s
  | .migrate a0 a1 => execMigrate a0 a1 s
  | .migrationCopyStart a0 => execMigrationCopyStart a0 s
  | .copyEngineComplete a0 => execCopyEngineComplete a0 s
  | .shardDeadline a0 a1 => execShardDeadline a0 a1 s
  | .manifestRecheck a0 => execManifestRecheck a0 s
  | .circuitLit a0 => execCircuitLit a0 s
  | .circuitDrainComplete a0 => execCircuitDrainComplete a0 s
  | .peerTimeout a0 a1 => execPeerTimeout a0 a1 s
  | .beatPresent a0 a1 a2 a3 => execBeatPresent a0 a1 a2 a3 s
  | .faultActionsComplete a0 => execFaultActionsComplete a0 s
  | .waitBudgetExhausted a0 => execWaitBudgetExhausted a0 s
  | .builtinTestComplete a0 a1 a2 => execBuiltinTestComplete a0 a1 a2 s
  | .startEnd a0 a1 a2 a3 => .next (s.endStep a0 a1 a2 a3)

/-- The RO fields of a CCB follow their context (R231). -/
def State.syncCcb (old new : State) : State :=
  new.parts.foldl (fun s e => e.2.ctxs.foldl (fun s x =>
    match old.ctx e.1 x.1 with
    | some y => if y.st = x.2.st ∧ y.ctoff = x.2.ctoff ∧ y.energy = x.2.energy then s else s.writeCcb e.1 x.1 x.2 x.2.st
    | none => s.writeCcb e.1 x.1 x.2 x.2.st) s) new
/-- What follows from an outcome: the CCBs are written. -/
def settled (s : State) : Out → Out
  | .next s' => .next (s.syncCcb s')
  | o => o

/-! ## Steps -/

/-- The next power-up from outside: whatever comes before it reaches a package without power. -/
def nextPowerUp : List (Nat × Instr) → Option (List BootTry × List (Nat × Instr))
  | [] => none
  | (_, .powerUp fs) :: t => some (fs, t)
  | _ :: t => nextPowerUp t
/-- A step of a package without power. -/
def stepDark (s : State) : Out :=
  match nextPowerUp s.inputs with
  | some (fs, rest) => execPowerUp fs { s with inputs := rest }
  | none => .fault .noPower
/-- The partition whose context command ring holds an event from outside. -/
def ringOf : Instr → Option Nat
  | .create p _ => some p
  | .destroy p _ => some p
  | .preempt p _ => some p
  | .resume p _ => some p
  | .policy p _ => some p
  | _ => none
/-- Whether the next record of a partition's command ring waits (R232, R249, R265): for a leader of queue 0, for the completion of a CREATE before it, or for
the actions and the save of a halted context. -/
def State.ringWaits (s : State) (p : Nat) : Bool :=
  let q := s.part p
  (Tab.find s.parts p).isSome && ((s.leader q 0).isNone
    || q.ctxs.any fun e => e.2.st == .creating || (e.2.st == .halted && (e.2.armed.isSome || e.2.halt.isSome)))
/-- The order in which inputs of one wall tick come: a function-level reset and what tears down, a port that goes DOWN, the steps of handshakes, flits (R386); a
token check after the creations (R406). -/
def linkRank : Instr → Nat
  | .functionLevelReset .. => 0
  | .portDisable .. => 2
  | .debugTokenCheck .. => 2
  | .peerOpen .. => 3
  | .peerClose .. => 3
  | .peerInit .. => 3
  | .peerResp .. => 3
  | .peerFin .. => 3
  | .peerCloseReceived .. => 3
  | .flitReceive .. => 4
  | _ => 1
/-- The place of an event of the machine in that order. -/
def eventRank : Ev → Nat
  | .teardownComplete .. => 0
  | .peerTimeout .. => 3
  | .beatPresent .. => 4
  | _ => 1
/-- Whether a KROT takes effect in a schedule tick of this wall tick. -/
def State.rekeys (s : State) : Bool :=
  s.parts.any fun e => e.2.ticks s.wtime && (s.effectEvents e.1 e.2).any fun v => match v with | .krotEffect .. => true | _ => false
/-- Whether an input comes after the events of the schedule ticks: what a fetch of the shard loader has brought (R339), and where a KROT takes effect the steps of handshakes and flits
(R386). -/
def State.comesLate (s : State) (i : Instr) : Bool :=
  match i with
  | .shardAttemptComplete .. => true
  | _ => decide (3 ≤ linkRank i) && s.rekeys
/-- The next input of rank n of this wall tick that comes before its schedule ticks. -/
def State.inputOf (s : State) (n : Nat) : Option (Instr × List (Nat × Instr)) :=
  dueHead s.epoch (fun i => linkRank i == n && !((ringOf i).any s.ringWaits) && !s.comesLate i) s.inputs
def State.nextInput (s : State) : Option (Instr × List (Nat × Instr)) := (List.range 5).findSome? s.inputOf
/-- The next input of this wall tick that comes after its schedule ticks. -/
def State.lateLink (s : State) : Option (Instr × List (Nat × Instr)) :=
  (List.range 5).findSome? fun n => dueHead s.epoch (fun i => linkRank i == n && (match i with | .shardAttemptComplete .. => true | _ => decide (3 ≤ n))) s.inputs
/-- What the next event or input of this wall tick leaves before its schedule ticks: by rank, events first. -/
def State.nextDue (s : State) : Option Out :=
  (List.range 5).findSome? fun n =>
    match dueHead s.wtime (fun e => eventRank e == n) s.events with
    | some (e, rest) => some (runEvent e { s with events := rest })
    | none => (s.inputOf n).map fun r => exec r.1 { s with inputs := r.2 }
/-- A step between the events of an agenda: in a wall tick first what the checks of the hardware find, events of wall time, and inputs; then
resumes, the boundaries of schedule ticks, and the ticks, with the inputs that come late and the shard loader last; then the wall tick ends. -/
def stepClock (s : State) : Out :=
  match s.phase with
  | 0 =>
    if s.checks.any fun e => decide (e.1 ≤ s.epoch) then settled s (.next s.runChecks)
    else
      match s.nextDue with
      | some o => settled s o
      | none => .next { s with agenda := s.resumeEvents, phase := 1 }
  | 1 => .next { s with agenda := s.boundaryEvents, phase := 2 }
  | 2 => .next { s with agenda := s.tickEvents, phase := 3 }
  | 3 =>
    match s.lateLink with
    | some (i, rest) => settled s (exec i { s with inputs := rest })
    | none => .next { s with agenda := s.tickLoads, phase := 4 }
  | _ => .next s.endWallTick

/-! ## Placing one bundle (log entry 11) -/

/-- A context that runs, for a bundle that is placed from outside. -/
def placedCtx (q : Part) : Ctx := { newCtx q ⟨1, 0, 0, 0, 0, 0⟩ 0 with st := .active }
/-- The state with a bundle at the PC of core 0 that holds a word in the slot of its map, and with that core RUNNING in context 1 of
partition 0, so that its issue is the next event. -/
def placeWord (s : State) (w : Nat) : State :=
  let q := (Tab.find s.parts 0).getD { Part.reset with dies := [0], limit := 300, poolN := 511 }
  let q1 := { q with ctxs := if (Tab.find q.ctxs 1).isSome then q.ctxs else Tab.put q.ctxs 1 (placedCtx q) }
  let c := s.core 0
  let c1 := { c with
    st := .running
    part := 0
    asid := 1
    nbundles := max c.nbundles (c.pc + 1)
    budget := if c.budget = 0 then unlimited else c.budget
    wait := none
    exit := none
    xnop := false
    ct1 := false
    ct2 := false
    due := [] }
  let s1 := { (s.setCore 0 c1) with parts := Tab.put s.parts 0 q1, power := true, agenda := [.bundleIssue 0] }
  let bytes := (List.range 8).flatMap fun n => leBytes 4 (if n = tableSlot w then w else 0)
  s1.setBytes (istoreKey 0 (32 * c.pc)) bytes

end Sys2Proof.Machine
end

