-- ==== Sys2Proof/Machine/Step.lean ====
section
/-! DEFINITION. One step of the package. -/
namespace Sys2Proof.Machine

/-- One step: the head of the agenda, or the clock that fills it. Without power only a power-up can happen. -/
def step (s : State) : Host.Outcome State Fault Refusal :=
  if s.power then
    match s.agenda with
    | e :: t => settled s (runEvent e { s with agenda := t })
    | [] => stepClock s
  else stepDark s

/-- The state with the instruction of a table word as the one that the next step issues, in a bundle whose other slots hold NOP. -/
def State.withFetchWord (s : State) (nbits w : Nat) : State := if nbits = 0 then s else placeWord s (w % 2 ^ 32)

end Sys2Proof.Machine
end

