-- ==== Sys2Proof/Safety.lean ====
section
/-! DEFINITION. What counts as a safe run: the invariants that claims about every state assume, and runs. -/
namespace Sys2Proof.Safety
open Sys2Proof.Machine

/-- The memory is in its canonical form (keys rise strictly, no listed byte equals what an unlisted one reads as), and every core
position is listed once. -/
def inv (s : State) : Bool := Memory.wf s.mem && Tab.sorted s.cores

/-- The rate of every partition, and the rate that it announces, is one of 4 to 16 sixteenths (R19), and partitions are listed once. -/
def ratesOk (s : State) : Bool :=
  Tab.sorted s.parts && s.parts.all fun e => decide (4 ≤ e.2.rate ∧ e.2.rate ≤ 16) && decide (4 ≤ e.2.next ∧ e.2.next ≤ 16)

/-- n steps of the machine, or the first stop. -/
def run : Nat → State → Out
  | 0, s => .next s
  | n + 1, s => match step s with | .next t => run n t | o => o

end Sys2Proof.Safety
end

