-- ==== Sys2Proof/Certificates/Slice0/Obligations.lean ====
section
/-! DEFINITION. The statements for the provers. `Sys2Proof.Claims` holds the vocabulary that they are written in; each statement is a
definition Obligations.<Name>. Every equation `exec i s = .next t` names the whole next state, so it states what changes and that
nothing else does. -/
namespace Sys2Proof.Claims
open Sys2Proof.Machine

/-- The core of the operation, charged eu energy units (R241) and numbered in issue order. -/
def issued (s : State) (eu : Nat) : Core := { s.here with ecnt := addEnergy s.here.ecnt eu, seq := s.here.seq + 1 }
/-- A result on its way from the operation that issues now: undefined from the next tick, landed at the tick of its bound (R8, R67). -/
def landing (s : State) (lat : Nat) (w : Write) : Land :=
  ⟨s.here.seq + 1, s.now s.here + 1, s.now s.here + lat, true, false, w⟩
/-- The state after an operation whose one effect is a result within `lat` ticks: with its bound, before which an EXIT does not end the core (R145). -/
def withResult (s : State) (eu lat : Nat) (w : Write) : State :=
  s.setHere { issued s eu with lands := s.here.lands ++ [landing s lat w], bound := max s.here.bound (s.now s.here + lat) }
/-- The state after an operation with a result and, when it clamps, FPFLAGS.SAT on its way. -/
def withClamped (s : State) (d : Nat) (v : Word) (clamped : Bool) : State :=
  s.setHere { issued s 1 with
    bound := max s.here.bound (s.now s.here + 1)
    lands := s.here.lands ++ [landing s 1 (.x d v)] ++ (if clamped then [landing s 1 (.flags Flags.sat)] else []) }
/-- The value of w as a signed number clamped to the range of I64. -/
def clampI64 (v : Int) : Int := max (-9223372036854775808) (min 9223372036854775807 v)
/-- The number of one bits of a word. -/
def ones (w : Word) : Nat := ((List.range 64).filter fun i => w.getLsbD i).length
/-- A signed field of w bits. -/
def signedField (w v : Nat) : Int := if v < 2 ^ (w - 1) then v else (v : Int) - 2 ^ w

end Sys2Proof.Claims

open Sys2Proof Sys2Proof.Machine Sys2Proof.Claims

/-! ## Encoding -/

/-- Words written out from Tables 4.2 to 4.8 decode, each against the map of its slot, to the operations they stand for. -/
def Sys2Proof.Claims.WordsDecode : Prop :=
  decodeWord .x 0x00200040 = .ok (.br Guard.always 64) ∧
  decodeWord .x 0x00A70003 = .ok (.loop Guard.always 7 3) ∧
  decodeWord .s 0x98442001 = .ok (.addi ⟨true, 3⟩ 4 4 1) ∧
  decodeWord .s 0x02450042 = .ok (.sysrd Guard.always 5 0x042) ∧
  decodeWord .l 0x02854990 = .ok (.amoAdd Guard.always 5 9 6 true) ∧
  decodeWord .v 0x00221140 = .ok (.vaddF32 Guard.always 2 2 5 0 .rne) ∧
  decodeWord .v 0x01C33041 = .ok (.vsrlImm Guard.always 3 6 8) ∧
  decodeWord .m 0x09004000 = .ok (.mma ⟨false, 1⟩ .trn .i8 0) ∧
  decodeWord .c 0x00240640 = .ok (.cpy Guard.always 2 0 0x640) ∧
  decodeWord .c 0x02028000 = .ok (.tbump Guard.always 5)

/-- Decoding and encoding agree: from the word of every well-formed operation the decoder reads, in the map of its slot, that
operation, with every operand at every value the encoding admits (R90, R93 to R103). -/
def Obligations.EncodeDecodeAgree : Prop :=
  ∀ (i : Instr) (sl : SlotClass), i.wf = true → i.inMap sl = true → decodeWord sl (encode i) = .ok i

/-- A word that decodes has one meaning: the operation read is well formed, belongs to the map of the slot, and its encoding is the
word itself, so that no bit of the word is ignored (R90, R93). -/
def Obligations.DecodeEncodeAgree : Prop :=
  ∀ (sl : SlotClass) (w : Nat) (i : Instr), w < 2 ^ 32 → decodeWord sl w = .ok i → i.wf = true ∧ i.inMap sl = true ∧ encode i = w

/-- R92: in every slot OP 0x00 with a body of all zeros is NOP, under each guard, and the all-zero word too; OP 0x00 with another
body is unassigned; and NOP leaves the machine as it is. -/
def Obligations.NopEncoding : Prop :=
  (∀ sl, decodeWord sl 0 = .ok (.nop Guard.always)) ∧
  (∀ (sl : SlotClass) (n : Bool) (p : Nat), p < 12 → decodeWord sl (n.toNat * 2 ^ 31 + p * 2 ^ 27) = .ok (.nop ⟨n, p⟩)) ∧
  (∀ (sl : SlotClass) (n : Bool) (p body : Nat), p < 12 → 0 < body → body < 2 ^ 21 →
    decodeWord sl (n.toNat * 2 ^ 31 + p * 2 ^ 27 + body) = .error .unassigned) ∧
  (∀ (g : Guard) (s : State), exec (.nop g) s = .next s)

/-- R93, first checks: the all-ones word is unassigned and a guard that names p12 to p15 is reserved, whatever the rest of the word
and whatever the map. -/
def Sys2Proof.Claims.ReservedWords : Prop :=
  (∀ sl, decodeWord sl 0xFFFFFFFF = .error .unassigned) ∧
  (∀ (sl : SlotClass) (w : Nat), w < 2 ^ 32 → w ≠ 0xFFFFFFFF → 12 ≤ w / 2 ^ 27 % 16 → decodeWord sl w = .error .reservedGuard)

/-- Decoding is right: words written out from the tables decode to their operations, and reserved words are refused (R90, R93). -/
def Obligations.WordsDecode : Prop :=
  Sys2Proof.Claims.WordsDecode ∧ Sys2Proof.Claims.ReservedWords


/-! ## The S slot -/

/-- The two-register functions of Table 5.1: with the guard on, each completes, and its one effect is the result of the table on its
way to x[D], within 3 ticks for MUL, MULH and MULHU and at the next tick for the others; a shift or rotate uses b[5:0]. -/
def Sys2Proof.Claims.TwoRegisterResults : Prop :=
  ∀ (g : Guard) (d a b : Nat) (s : State), s.here.guardOn g = true →
    let A := s.readX s.here a
    let B := s.readX s.here b
    let n := B.toNat % 64
    exec (.add g d a b) s = .next (withResult s 1 1 (.x d (BitVec.ofNat 64 (A.toNat + B.toNat)))) ∧
    exec (.sub g d a b) s = .next (withResult s 1 1 (.x d (BitVec.ofInt 64 (A.toInt - B.toInt)))) ∧
    exec (.and g d a b) s = .next (withResult s 1 1 (.x d (A &&& B))) ∧
    exec (.or g d a b) s = .next (withResult s 1 1 (.x d (A ||| B))) ∧
    exec (.xor g d a b) s = .next (withResult s 1 1 (.x d (A ^^^ B))) ∧
    exec (.andn g d a b) s = .next (withResult s 1 1 (.x d (A &&& ~~~B))) ∧
    exec (.orn g d a b) s = .next (withResult s 1 1 (.x d (A ||| ~~~B))) ∧
    exec (.xnor g d a b) s = .next (withResult s 1 1 (.x d (~~~(A ^^^ B)))) ∧
    exec (.sll g d a b) s = .next (withResult s 1 1 (.x d (BitVec.ofNat 64 (A.toNat * 2 ^ n)))) ∧
    exec (.srl g d a b) s = .next (withResult s 1 1 (.x d (BitVec.ofNat 64 (A.toNat / 2 ^ n)))) ∧
    exec (.sra g d a b) s = .next (withResult s 1 1 (.x d (BitVec.ofInt 64 (A.toInt / 2 ^ n)))) ∧
    exec (.rol g d a b) s = .next (withResult s 1 1 (.x d ((A <<< n) ||| (A >>> (64 - n))))) ∧
    exec (.ror g d a b) s = .next (withResult s 1 1 (.x d ((A >>> n) ||| (A <<< (64 - n))))) ∧
    exec (.mul g d a b) s = .next (withResult s 1 3 (.x d (BitVec.ofNat 64 (A.toNat * B.toNat)))) ∧
    exec (.mulh g d a b) s = .next (withResult s 1 3 (.x d (BitVec.ofInt 64 (A.toInt * B.toInt / 2 ^ 64)))) ∧
    exec (.mulhu g d a b) s = .next (withResult s 1 3 (.x d (BitVec.ofNat 64 (A.toNat * B.toNat / 2 ^ 64)))) ∧
    exec (.min g d a b) s = .next (withResult s 1 1 (.x d (if A.toInt ≤ B.toInt then A else B))) ∧
    exec (.max g d a b) s = .next (withResult s 1 1 (.x d (if A.toInt ≤ B.toInt then B else A))) ∧
    exec (.minu g d a b) s = .next (withResult s 1 1 (.x d (if A.toNat ≤ B.toNat then A else B))) ∧
    exec (.maxu g d a b) s = .next (withResult s 1 1 (.x d (if A.toNat ≤ B.toNat then B else A)))

/-- CLZ, CTZ, POPC and BSWAP (Table 5.1) complete with the guard on. CLZ: the number r of zero bits above the highest one bit, 64 for
0; CTZ: the number of zero bits below the lowest, 64 for 0; POPC: the number of one bits; BSWAP: byte i of the result is byte 7 − i. -/
def Sys2Proof.Claims.OneRegisterResults : Prop :=
  ∀ (g : Guard) (d a : Nat) (s : State), s.here.guardOn g = true →
    let A := s.readX s.here a
    (∃ r : Nat, exec (.clz g d a) s = .next (withResult s 1 1 (.x d (BitVec.ofNat 64 r))) ∧
      (A = 0 → r = 64) ∧ (A ≠ 0 → r < 64 ∧ 2 ^ (63 - r) ≤ A.toNat ∧ A.toNat < 2 ^ (64 - r))) ∧
    (∃ r : Nat, exec (.ctz g d a) s = .next (withResult s 1 1 (.x d (BitVec.ofNat 64 r))) ∧
      (A = 0 → r = 64) ∧ (A ≠ 0 → r < 64 ∧ A.getLsbD r = true ∧ ∀ i, i < r → A.getLsbD i = false)) ∧
    exec (.popc g d a) s = .next (withResult s 1 1 (.x d (BitVec.ofNat 64 (ones A)))) ∧
    (∃ R : Word, exec (.bswap g d a) s = .next (withResult s 1 1 (.x d R)) ∧
      ∀ i, i < 8 → R.toNat / 256 ^ i % 256 = A.toNat / 256 ^ (7 - i) % 256)

/-- ADDS and SUBS (Table 5.1): the exact signed sum or difference clamped to I64, with FPFLAGS.SAT on its way when it clamps. -/
def Sys2Proof.Claims.SaturatingResults : Prop :=
  ∀ (g : Guard) (d a b : Nat) (s : State), s.here.guardOn g = true →
    let A := (s.readX s.here a).toInt
    let B := (s.readX s.here b).toInt
    exec (.adds g d a b) s = .next (withClamped s d (BitVec.ofInt 64 (clampI64 (A + B))) (decide (clampI64 (A + B) ≠ A + B))) ∧
    exec (.subs g d a b) s = .next (withClamped s d (BitVec.ofInt 64 (clampI64 (A - B))) (decide (clampI64 (A - B) ≠ A - B)))

/-- The immediate forms (R116, R117): IMM11 sign-extended for ADDI and zero-extended for ANDI, ORI and XORI; SHI by its amount; MOVI
sign-extends IMM16; MOVK replaces bits [k+15:k] of x[D] and no other. -/
def Sys2Proof.Claims.ImmediateResults : Prop :=
  ∀ (g : Guard) (d a i : Nat) (s : State), s.here.guardOn g = true →
    let A := s.readX s.here a
    let D := s.readX s.here d
    (i < 2 ^ 11 →
      exec (.addi g d a i) s = .next (withResult s 1 1 (.x d (BitVec.ofInt 64 (A.toInt + signedField 11 i)))) ∧
      exec (.andi g d a i) s = .next (withResult s 1 1 (.x d (BitVec.ofNat 64 (A.toNat &&& i)))) ∧
      exec (.ori g d a i) s = .next (withResult s 1 1 (.x d (BitVec.ofNat 64 (A.toNat ||| i)))) ∧
      exec (.xori g d a i) s = .next (withResult s 1 1 (.x d (BitVec.ofNat 64 (A.toNat ^^^ i))))) ∧
    (i < 64 →
      exec (.slli g d a i) s = .next (withResult s 1 1 (.x d (BitVec.ofNat 64 (A.toNat * 2 ^ i)))) ∧
      exec (.srli g d a i) s = .next (withResult s 1 1 (.x d (BitVec.ofNat 64 (A.toNat / 2 ^ i)))) ∧
      exec (.srai g d a i) s = .next (withResult s 1 1 (.x d (BitVec.ofInt 64 (A.toInt / 2 ^ i)))) ∧
      exec (.roli g d a i) s = .next (withResult s 1 1 (.x d ((A <<< i) ||| (A >>> (64 - i)))))) ∧
    (i < 2 ^ 16 →
      exec (.movi g d i) s = .next (withResult s 1 1 (.x d (BitVec.ofInt 64 (signedField 16 i)))) ∧
      (∃ R, exec (.movk16 g d i) s = .next (withResult s 1 1 (.x d R)) ∧
        R.toNat = D.toNat / 2 ^ 32 * 2 ^ 32 + i * 2 ^ 16 + D.toNat % 2 ^ 16) ∧
      (∃ R, exec (.movk32 g d i) s = .next (withResult s 1 1 (.x d R)) ∧
        R.toNat = D.toNat / 2 ^ 48 * 2 ^ 48 + i * 2 ^ 32 + D.toNat % 2 ^ 32) ∧
      (∃ R, exec (.movk48 g d i) s = .next (withResult s 1 1 (.x d R)) ∧
        R.toNat = i * 2 ^ 48 + D.toNat % 2 ^ 48))

/-- Results of the arithmetic of slot S (R114 to R117 and their tables): each operation completes with its one result on the way and nothing else changed. -/
def Obligations.ArithmeticResults : Prop :=
  Sys2Proof.Claims.TwoRegisterResults ∧ Sys2Proof.Claims.SaturatingResults ∧ Sys2Proof.Claims.OneRegisterResults ∧ Sys2Proof.Claims.ImmediateResults


/-- Compares (R118): p[D] becomes 1 at the next tick when the condition holds between x[A] and x[B], or IMM8 sign-extended, and 0 else;
.lt and .ge compare as signed, .ltu and .geu as unsigned numbers. -/
def Sys2Proof.Claims.CompareResults : Prop :=
  ∀ (g : Guard) (d a b i : Nat) (s : State), s.here.guardOn g = true → i < 2 ^ 8 →
    let A := s.readX s.here a
    let B := s.readX s.here b
    let I : Word := BitVec.ofInt 64 (signedField 8 i)
    exec (.cmpEq g d a b) s = .next (withResult s 1 1 (.p d (decide (A.toNat = B.toNat)))) ∧
    exec (.cmpNe g d a b) s = .next (withResult s 1 1 (.p d (decide (A.toNat ≠ B.toNat)))) ∧
    exec (.cmpLt g d a b) s = .next (withResult s 1 1 (.p d (decide (A.toInt < B.toInt)))) ∧
    exec (.cmpGe g d a b) s = .next (withResult s 1 1 (.p d (decide (B.toInt ≤ A.toInt)))) ∧
    exec (.cmpLtu g d a b) s = .next (withResult s 1 1 (.p d (decide (A.toNat < B.toNat)))) ∧
    exec (.cmpGeu g d a b) s = .next (withResult s 1 1 (.p d (decide (B.toNat ≤ A.toNat)))) ∧
    exec (.cmpiEq g d a i) s = .next (withResult s 1 1 (.p d (decide (A.toInt = signedField 8 i)))) ∧
    exec (.cmpiNe g d a i) s = .next (withResult s 1 1 (.p d (decide (A.toInt ≠ signedField 8 i)))) ∧
    exec (.cmpiLt g d a i) s = .next (withResult s 1 1 (.p d (decide (A.toInt < signedField 8 i)))) ∧
    exec (.cmpiGe g d a i) s = .next (withResult s 1 1 (.p d (decide (signedField 8 i ≤ A.toInt)))) ∧
    exec (.cmpiLtu g d a i) s = .next (withResult s 1 1 (.p d (decide (A.toNat < I.toNat)))) ∧
    exec (.cmpiGeu g d a i) s = .next (withResult s 1 1 (.p d (decide (I.toNat ≤ A.toNat))))

/-- Predicate operations (R119): p[D] from predicates as they stood at the start of the tick; p0 reads 1. -/
def Sys2Proof.Claims.PredicateResults : Prop :=
  ∀ (g : Guard) (d a b : Nat) (s : State), s.here.guardOn g = true →
    let P := fun n : Nat => decide (n = 0) || s.here.p.getLsbD n
    exec (.pand g d a b) s = .next (withResult s 1 1 (.p d (P a && P b))) ∧
    exec (.por g d a b) s = .next (withResult s 1 1 (.p d (P a || P b))) ∧
    exec (.pxor g d a b) s = .next (withResult s 1 1 (.p d (P a ^^ P b))) ∧
    exec (.pandn g d a b) s = .next (withResult s 1 1 (.p d (P a && !P b))) ∧
    exec (.porn g d a b) s = .next (withResult s 1 1 (.p d (P a || !P b))) ∧
    exec (.pnot g d a) s = .next (withResult s 1 1 (.p d (!P a)))

/-- SEL, the b registers and QRD (R120, R121, R123): SEL picks x[A] when p[N] reads 1 and x[B] else; SETB, GETB and SETBI move to and
from b registers, SETBI the byte address 32 × TGT; QRD reads the half of q[A] that h names. -/
def Sys2Proof.Claims.MoveResults : Prop :=
  ∀ (g : Guard) (d a b n t : Nat) (s : State), s.here.guardOn g = true →
    exec (.sel g d a b n) s = .next (withResult s 1 1 (.x d (if s.here.readP n = true then s.readX s.here a else s.readX s.here b))) ∧
    exec (.setb g d a) s = .next (withResult s 1 1 (.b d (s.readX s.here a))) ∧
    exec (.getb g d a) s = .next (withResult s 1 1 (.x d (Tab.get 0 s.here.b a))) ∧
    exec (.setbi g d t) s = .next (withResult s 1 1 (.b d (BitVec.ofNat 64 (32 * t)))) ∧
    exec (.qrd g d a false) s = .next (withResult s 1 1 (.x d (BitVec.ofNat 64 ((Tab.get 0 s.here.q a).toNat % 2 ^ 64)))) ∧
    exec (.qrd g d a true) s = .next (withResult s 1 1 (.x d (BitVec.ofNat 64 ((Tab.get 0 s.here.q a).toNat / 2 ^ 64))))

/-- Results of compares, predicate operations and moves of slot S. -/
def Obligations.PredicateAndMoveResults : Prop :=
  Sys2Proof.Claims.CompareResults ∧ Sys2Proof.Claims.PredicateResults ∧ Sys2Proof.Claims.MoveResults


/-- SYSRD and SYSWR (R122, Tables 3.4 to 3.7, 1.5, 1.7, 1.9, 8.4): SYSRD lands within 2 ticks and gives every system register at the issue tick: COREID its place by
field; SEQ, BUDGET and ECNT as they stood before the bundle; TRAPINFO its fields; STIME the tick; WTIME the wall tick less the skew of the die;
SRATE, HOLDINFO and TSYNC of the partition and the servo; FPFLAGS, RNGKEY and RNGCTR; LEASE; and the group registers. SYSWR puts x[A] into FPFLAGS, RNGKEY or
RNGCTR from the next tick, and changes nothing but the charge where the register is RO. -/
def Obligations.SystemRegisterAccess : Prop :=
  ∀ (g : Guard) (d a n : Nat) (s : State), s.here.guardOn g = true →
    let c := s.here
    let k := s.cur.core
    let q := s.part c.part
    let u := s.unit (unitOf k)
    let t := s.now c
    let bit := fun b : Bool => if b = true then 1 else 0
    let is := fun (v : Word) (n : Nat) => v = BitVec.ofNat 64 n
    (∃ v, exec (.sysrd g d n) s = .next (withResult s 1 2 (.x d v)) ∧
      (n = 0x000 → is v (k / 256 * 2 ^ 27 + c.part % 8 * 2 ^ 24 + c.die % 8 * 2 ^ 21 + c.pcol % 32 * 2 ^ 16 + k / 16 % 16 * 2 ^ 12 + k % 16 * 2 ^ 8 +
        (8 * (k / 16 % 16 / 2) + k % 16 / 2) * 4 + (2 * (k / 16 % 16 % 2) + k % 16 % 2))) ∧
      (n = 0x001 → is v (c.iss.qn % 4 * 2 ^ 50 + c.iss.dly % 4 * 2 ^ 48 + c.iss.tgt % 2 ^ 13 * 2 ^ 32 + c.iss.pc % 2 ^ 13)) ∧
      (n = 0x002 → is v (c.trap.info % 2 ^ 32 * 2 ^ 32 + c.trap.pc % 2 ^ 13 * 2 ^ 19 + c.trap.slot % 8 * 2 ^ 16 + c.trap.cause % 256)) ∧
      (n = 0x010 → is v t) ∧
      (n = 0x011 → is v (s.wtime - Config.skew (k / 256) % 2)) ∧
      (n = 0x012 → is v (bit q.overLimit * 2 ^ 17 + bit q.pend.isSome * 2 ^ 16 + (if q.pend.isSome = true then q.next else q.rate) * 2 ^ 8 + q.rate)) ∧
      (n = 0x013 → is v (q.holdCount * 2 ^ 32 + q.holdWdrn * 2 ^ 16 + q.holdLast)) ∧
      (n = 0x014 → is v ((s.servo.offs % 2 ^ 16).toNat * 2 ^ 32 + (s.servo.fadj % 2 ^ 8).toNat * 2 ^ 16 + s.servo.src * 2 ^ 4 +
        (match s.servo.st with | .free => 0 | .acquiring => 1 | .locked => 2 | .holdover => 3))) ∧
      (n = 0x020 → v.toNat = c.fpflags.toNat) ∧
      (n = 0x021 → v = c.rngkey) ∧
      (n = 0x022 → v = c.rngctr) ∧
      (n = 0x030 → is v c.iss.budget) ∧
      (n = 0x031 → is v c.iss.ecnt) ∧
      (n = 0x032 → is v ((if c.lease = 2 then (u.g + 16384 - t) % 2 ^ 15 * 2 ^ 32 + u.cmds % 128 * 2 ^ 16 else 0) +
        bit (c.cmds.any fun m => decide (t < m.s)) * 2 ^ 5 + bit (c.cmds.any fun m => decide (m.s ≤ t) && decide (t < m.c)) * 2 ^ 4 + u.h % 4 * 4 + c.lease)) ∧
      (0x040 ≤ n → n ≤ 0x043 → v = Tab.get 0 c.group n)) ∧
    (n = 0x020 ∨ n = 0x021 ∨ n = 0x022 → exec (.syswr g a n) s = .next (withResult s 1 1 (.sys n (s.readX s.here a)))) ∧
    (sysNumber n = true → ¬ (0x020 ≤ n ∧ n ≤ 0x022) → exec (.syswr g a n) s = .next (s.setHere (issued s 1)))

/-- An operation of the X, S or L slot whose guard reads 0 does nothing: no charge, no result, no trap (R91); MARK and the atomics among them. A row-path
operation whose guard reads 0 makes no access either, but it takes the row path for its occupancy, 16 ticks or 1, and so raises ISSUE with INFO 2 on a path that is not free (R135). -/
def Obligations.GuardOffDoesNothing : Prop :=
  ∀ (g : Guard) (s : State) (d a b c i n r : Nat) (w : Bool), s.here.guardOn g = false →
    let idle := fun (ins : Instr) => exec ins s = .next s
    let rows := fun (ins : Instr) (occ : Nat) =>
      (s.rowBlocked s.here = false →
        exec ins s = .next (s.setHere { s.here with rowPath := some ⟨s.now s.here, false, s.here.effIssue (s.now s.here), s.here.markGrp, occ⟩ })) ∧
      (s.rowBlocked s.here = true → exec ins s = .next (s.trapHere 2 2))
    idle (.nop g) ∧ idle (.br g i) ∧ idle (.brb g b) ∧ idle (.call g d i) ∧ idle (.callb g d b) ∧ idle (.loop g a i) ∧
    idle (.mbrChain g a b c d) ∧ idle (.mbrTree g a b c d) ∧ idle (.waitt g a i) ∧ idle (.waitd g i) ∧ idle (.nxt g) ∧ idle (.trap g i) ∧
    idle (.brk g i) ∧ idle (.cbar g c) ∧ idle (.cbarNw g c) ∧ idle (.dbar g) ∧ idle (.dbarNw g) ∧ idle (.ssb g) ∧ idle (.ssbNw g) ∧
    idle (.bstatSub g d c) ∧ idle (.bstatDie g d) ∧ idle (.bstatSs g d) ∧ idle (.tmge g d a) ∧ idle (.bdge g d i) ∧ idle (.exit g) ∧
    idle (.yield g) ∧ idle (.add g d a b) ∧ idle (.sub g d a b) ∧ idle (.and g d a b) ∧ idle (.or g d a b) ∧ idle (.xor g d a b) ∧
    idle (.andn g d a b) ∧ idle (.orn g d a b) ∧ idle (.xnor g d a b) ∧ idle (.sll g d a b) ∧ idle (.srl g d a b) ∧ idle (.sra g d a b) ∧
    idle (.rol g d a b) ∧ idle (.ror g d a b) ∧ idle (.mul g d a b) ∧ idle (.mulh g d a b) ∧ idle (.mulhu g d a b) ∧ idle (.min g d a b) ∧
    idle (.max g d a b) ∧ idle (.minu g d a b) ∧ idle (.maxu g d a b) ∧ idle (.clz g d a) ∧ idle (.ctz g d a) ∧ idle (.popc g d a) ∧
    idle (.bswap g d a) ∧ idle (.adds g d a b) ∧ idle (.subs g d a b) ∧ idle (.addi g d a i) ∧ idle (.andi g d a i) ∧ idle (.ori g d a i) ∧
    idle (.xori g d a i) ∧ idle (.slli g d a n) ∧ idle (.srli g d a n) ∧ idle (.srai g d a n) ∧ idle (.roli g d a n) ∧ idle (.movi g d i) ∧
    idle (.movk16 g d i) ∧ idle (.movk32 g d i) ∧ idle (.movk48 g d i) ∧ idle (.cmpEq g d a b) ∧ idle (.cmpNe g d a b) ∧
    idle (.cmpLt g d a b) ∧ idle (.cmpGe g d a b) ∧ idle (.cmpLtu g d a b) ∧ idle (.cmpGeu g d a b) ∧ idle (.cmpiEq g d a i) ∧
    idle (.cmpiNe g d a i) ∧ idle (.cmpiLt g d a i) ∧ idle (.cmpiGe g d a i) ∧ idle (.cmpiLtu g d a i) ∧ idle (.cmpiGeu g d a i) ∧
    idle (.pand g d a b) ∧ idle (.por g d a b) ∧ idle (.pxor g d a b) ∧ idle (.pandn g d a b) ∧ idle (.porn g d a b) ∧ idle (.pnot g d a) ∧
    idle (.sel g d a b n) ∧ idle (.setb g d a) ∧ idle (.getb g d a) ∧ idle (.setbi g d i) ∧ idle (.sysrd g d n) ∧ idle (.syswr g a n) ∧
    idle (.qrd g d a w) ∧ idle (.ldb g d a i) ∧ idle (.ldbu g d a i) ∧ idle (.ldh g d a i) ∧ idle (.ldhu g d a i) ∧ idle (.ldw g d a i) ∧
    idle (.ldwu g d a i) ∧ idle (.ldd g d a i) ∧ idle (.stb g d a i) ∧ idle (.sth g d a i) ∧ idle (.stw g d a i) ∧ idle (.std g d a i) ∧
    idle (.amoAdd g d a b w) ∧ idle (.amoSwap g d a b w) ∧ idle (.amoAnd g d a b w) ∧ idle (.amoOr g d a b w) ∧ idle (.amoXor g d a b w) ∧
    idle (.amoMin g d a b w) ∧ idle (.amoMax g d a b w) ∧ idle (.amoMinu g d a b w) ∧ idle (.amoMaxu g d a b w) ∧ idle (.mark g) ∧
    rows (.vld g d a i) 16 ∧ rows (.vst g d a i) 16 ∧ rows (.vldr g d a r i) 1 ∧ rows (.vstr g d a r i) 1 ∧ rows (.vlds g d a b) 16 ∧
    rows (.vsts g d a b) 16 ∧ rows (.vldf6 g d a i) 16 ∧ rows (.vstf6 g d a i) 16

/-! ## The X slot -/

/-- Control transfers that take effect (R137, R138): SEQ.DLY becomes 2 and SEQ.TGT the target, BR and CALL to a bundle index, BRB and
CALLB to the bundle that the byte address in b[B], read at issue, names; CALL and CALLB send 32 × (PC + 3) to their link register. -/
def Sys2Proof.Claims.TransfersTakeEffect : Prop :=
  ∀ (g : Guard) (d b t : Nat) (s : State), s.here.guardOn g = true → t < s.here.nbundles →
    let c := issued s 1
    let link : Word := BitVec.ofNat 64 (32 * (s.here.iss.pc + 3))
    exec (.br g t) s = .next (s.setHere { c with dly := 2, tgt := t }) ∧
    exec (.call g d t) s = .next (s.setHere { c with dly := 2, tgt := t, lands := c.lands ++ [landing s 1 (.b d link)], bound := max c.bound (s.now s.here + 1) }) ∧
    (Tab.get 0 s.here.b b = BitVec.ofNat 64 (32 * t) → t < 8192 →
      exec (.brb g b) s = .next (s.setHere { c with dly := 2, tgt := t }) ∧
      exec (.callb g d b) s =
        .next (s.setHere { c with dly := 2, tgt := t, lands := c.lands ++ [landing s 1 (.b d link)], bound := max c.bound (s.now s.here + 1) }))

/-- A transfer to an index at or above the bundle count, or through a b value that is no multiple of 32 or has bits above bit 17, raises
FETCH, cause 3, in the X slot, and INFO holds the index or the low half of the b value (R74, R137); MBR through the register that it selects does the same, as `MultiwayBranch` says. -/
def Sys2Proof.Claims.BadTargetsTrap : Prop :=
  ∀ (g : Guard) (d b t : Nat) (s : State), s.here.guardOn g = true →
    let w : Word := Tab.get 0 s.here.b b
    (s.here.nbundles ≤ t →
      exec (.br g t) s = .next (s.trapHere 3 t) ∧ exec (.call g d t) s = .next (s.trapHere 3 t) ∧
      ∀ a, 1 < (s.readX s.here a).toNat → exec (.loop g a t) s = .next (s.trapHere 3 t)) ∧
    (w.toNat % 32 ≠ 0 ∨ 2 ^ 18 ≤ w.toNat →
      exec (.brb g b) s = .next (s.trapHere 3 (w.toNat % 2 ^ 32)) ∧
      exec (.callb g d b) s = .next (s.trapHere 3 (w.toNat % 2 ^ 32))) ∧
    (w.toNat % 32 = 0 → w.toNat < 2 ^ 18 → s.here.nbundles ≤ w.toNat / 32 →
      exec (.brb g b) s = .next (s.trapHere 3 (w.toNat / 32)) ∧
      exec (.callb g d b) s = .next (s.trapHere 3 (w.toNat / 32)))

/-- R139: LOOP takes effect when its guard runs and x[A], read at issue as unsigned, exceeds 1; else it writes no register and checks no
target, so a LOOP with A = 0 never takes effect. -/
def Obligations.LoopCounts : Prop :=
  ∀ (g : Guard) (a t : Nat) (s : State), s.here.guardOn g = true →
    (1 < (s.readX s.here a).toNat → t < s.here.nbundles →
      exec (.loop g a t) s = .next (s.setHere { issued s 1 with dly := 2, tgt := t })) ∧
    ((s.readX s.here a).toNat ≤ 1 → exec (.loop g a t) s = .next (s.setHere (issued s 1))) ∧
    exec (.loop g 0 t) s = .next (s.setHere (issued s 1))

/-- A test field of MBR: bits [3:0] name the predicate and bit 4 negates it (R140). -/
def Sys2Proof.Claims.mbrHolds (c : Core) (f : Nat) : Bool :=
  (decide (f % 16 = 0) || c.p.getLsbD (f % 16)) ^^ decide (f / 16 % 2 = 1)

/-- MBR (R140): a chain branches to the b register of its first test that holds, a tree by T0 to b0 or b1 on T1, and else to b2 on T2
or b3 on T3; no test, no transfer; only the selected register is checked, and it raises FETCH as in BRB. -/
def Sys2Proof.Claims.MultiwayBranch : Prop :=
  ∀ (g : Guard) (t0 t1 t2 t3 : Nat) (s : State), s.here.guardOn g = true →
    let T := fun f => mbrHolds s.here f
    let goes := fun (i : Instr) (n : Nat) =>
      let w : Word := Tab.get 0 s.here.b n
      (∀ t, w = BitVec.ofNat 64 (32 * t) → t < s.here.nbundles → t < 8192 → exec i s = .next (s.setHere { issued s 1 with dly := 2, tgt := t })) ∧
      (w.toNat % 32 ≠ 0 ∨ 2 ^ 18 ≤ w.toNat → exec i s = .next (s.trapHere 3 (w.toNat % 2 ^ 32))) ∧
      (w.toNat % 32 = 0 → w.toNat < 2 ^ 18 → s.here.nbundles ≤ w.toNat / 32 → exec i s = .next (s.trapHere 3 (w.toNat / 32)))
    let stays := fun (i : Instr) => exec i s = .next (s.setHere (issued s 1))
    let chain := Instr.mbrChain g t0 t1 t2 t3
    let tree := Instr.mbrTree g t0 t1 t2 t3
    (T t0 = true → goes chain 0) ∧
    (T t0 = false → T t1 = true → goes chain 1) ∧
    (T t0 = false → T t1 = false → T t2 = true → goes chain 2) ∧
    (T t0 = false → T t1 = false → T t2 = false → T t3 = true → goes chain 3) ∧
    (T t0 = false → T t1 = false → T t2 = false → T t3 = false → stays chain) ∧
    (T t0 = true → T t1 = true → goes tree 0) ∧
    (T t0 = true → T t1 = false → goes tree 1) ∧
    (T t0 = false → T t2 = true → goes tree 2) ∧
    (T t0 = false → T t2 = false → T t3 = true → goes tree 3) ∧
    (T t0 = false → T t2 = false → T t3 = false → stays tree)

/-- Control transfers (R75, R137, R138, R140): those that are taken reach the sequencer, and a target beyond the image traps. -/
def Obligations.ControlTransfers : Prop :=
  Sys2Proof.Claims.TransfersTakeEffect ∧ Sys2Proof.Claims.BadTargetsTrap ∧ Sys2Proof.Claims.MultiwayBranch


/-- Waits and tests (R141, R142): WAITT and WAITD set a wait until T when T lies beyond the next tick and else none; TMGE and BDGE
compare the issue tick with x[A] and BUDGET at the start of the tick with IMM16. That T is a sum modulo 2^64 is the model's choice (log
entry 42). -/
def Sys2Proof.Claims.WaitsAndTests : Prop :=
  ∀ (g : Guard) (d a i : Nat) (s : State), s.here.guardOn g = true →
    let t := s.now s.here
    let T := ((s.readX s.here a).toNat + i) % 2 ^ 64
    (t + 1 < T → exec (.waitt g a i) s = .next (s.setHere { issued s 1 with wait := some (.until' T) })) ∧
    (T ≤ t + 1 → exec (.waitt g a i) s = .next (s.setHere (issued s 1))) ∧
    (0 < i → exec (.waitd g i) s = .next (s.setHere { issued s 1 with wait := some (.until' (t + 1 + i)) })) ∧
    exec (.waitd g 0) s = .next (s.setHere (issued s 1)) ∧
    exec (.tmge g d a) s = .next (withResult s 1 1 (.p d (decide ((s.readX s.here a).toNat ≤ t)))) ∧
    exec (.bdge g d i) s = .next (withResult s 1 1 (.p d (decide (i ≤ s.here.iss.budget))))

/-- NXT (R143, R280): the next tile of the launch is on its way to q[QN] for exactly tick t + 24, QN advances modulo 4 at issue, and the
dispenser of a launch with tiles moves on by one; beyond the last tile it delivers NULL, bit 127 alone. -/
def Sys2Proof.Claims.NextTile : Prop :=
  ∀ (g : Guard) (s : State) (q : Part) (l : Launch), s.here.guardOn g = true →
    Tab.find s.parts s.here.part = some q → Tab.find q.launches s.here.launch = some l →
    ∃ (t : State) (tile : Tile), exec (.nxt g) s = .next t ∧
      t.here = { issued s 1 with
        qn := (s.here.qn + 1) % 4
        lands := s.here.lands ++ [⟨s.here.seq + 1, s.now s.here + 24, s.now s.here + 24, true, false, .q s.here.qn tile⟩]
        bound := max s.here.bound (s.now s.here + 24) } ∧
      (l.tilesx * l.tilesy ≤ l.tile → tile.toNat = 2 ^ 127) ∧
      (l.tile < l.tilesx * l.tilesy → l.order = 0 → l.tilesx * l.tilesy < 2 ^ 32 →
        tile.toNat = l.tile * 2 ^ 64 + l.tile / l.tilesx * 2 ^ 32 + l.tile % l.tilesx) ∧
      (l.tile < l.tilesx * l.tilesy → l.order ≠ 0 → l.tilesx * l.tilesy < 2 ^ 32 →
        tile.toNat = l.tile * 2 ^ 64 + l.tile % l.tilesy * 2 ^ 32 + l.tile / l.tilesy) ∧
      t.launch s.here.part s.here.launch = some (if l.tilesx = 0 then l else { l with tile := l.tile + 1 }) ∧
      t.mem = s.mem ∧ t.units = s.units ∧ ∀ j, j ≠ s.cur.core → t.core j = s.core j

/-- Waits, tests of time and the next tile (R141, R143, R280, R281). -/
def Obligations.WaitsAndTiles : Prop :=
  Sys2Proof.Claims.WaitsAndTests ∧ Sys2Proof.Claims.NextTile


/-- TRAP and BRK (R144): the SOFT trap, cause 0x0E, and the BREAK trap, cause 0x0F, with INFO IMM16 and SLOT the slot of the operation:
the core freezes HALTED with its sequencer at the bundle, which will issue again with its X slot as NOP. -/
def Sys2Proof.Claims.SoftwareTraps : Prop :=
  ∀ (g : Guard) (i : Nat) (s : State), s.here.guardOn g = true → i < 2 ^ 16 →
    (∃ t, exec (.trap g i) s = .next t ∧ t.here.st = .halted ∧ t.here.trap = ⟨0x0E, s.cur.slot, s.here.iss.pc, i⟩ ∧
      t.here.pc = s.here.iss.pc ∧ t.here.xnop = true ∧ t.mem = s.mem) ∧
    (∃ t, exec (.brk g i) s = .next t ∧ t.here.st = .halted ∧ t.here.trap = ⟨0x0F, s.cur.slot, s.here.iss.pc, i⟩ ∧
      t.here.pc = s.here.iss.pc ∧ t.here.xnop = true ∧ t.mem = s.mem)

/-- Taking a trap (R81, R84, R243): TRAPINFO holds cause, slot, bundle index and INFO; PC, delay count, target, QN, BUDGET, the meter
and RNGCTR stand as before the bundle; the core is HALTED from its present tick; the halt is raised on its context for 192 ticks on;
and no byte of memory and no other core changes. -/
def Sys2Proof.Claims.TrapEntry : Prop :=
  ∀ (s : State) (k slot cause info : Nat),
    let t := s.takeTrap k slot cause info
    let c := s.core k
    (t.core k).trap = ⟨cause, slot, c.iss.pc, info % 2 ^ 32⟩ ∧ (t.core k).st = .halted ∧ (t.core k).ftick = s.now c ∧
    (t.core k).pc = c.iss.pc ∧ (t.core k).dly = c.iss.dly ∧ (t.core k).tgt = c.iss.tgt ∧ (t.core k).qn = c.iss.qn ∧
    (t.core k).budget = c.iss.budget ∧ (t.core k).ecnt = c.iss.ecnt ∧ (t.core k).rngctr = c.iss.rngctr ∧
    (t.core k).x = c.x ∧ (t.core k).p = c.p ∧ (t.core k).b = c.b ∧ (t.core k).q = c.q ∧ (t.core k).v = c.v ∧ (t.core k).k = c.k ∧
    (t.core k).z = c.z ∧ (t.core k).fpflags = c.fpflags ∧ (t.core k).rngkey = c.rngkey ∧
    t.mem = s.mem ∧ (∀ j, j ≠ k → t.core j = s.core j) ∧
    (∀ q, Tab.find s.parts c.part = some q → q.held = false →
      ∃ q', Tab.find t.parts c.part = some q' ∧ q'.reqs = q.reqs ++ [⟨6, q.stime + 192, false, haltTag c.asid⟩] ∧ q'.held = false)

/-- Taking a trap, and the operations whose effect it is (R81, R84, R144). -/
def Obligations.Traps : Prop :=
  Sys2Proof.Claims.SoftwareTraps ∧ Sys2Proof.Claims.TrapEntry


/-- Barrier arrivals (R298, R300 to R303): with the guard on in a launch in which the code is legal, each records the arrival of the core
at its scope with the instance number one above its last, at the issue tick; the plain forms then wait on the instance and the NW forms
do not. -/
def Sys2Proof.Claims.BarrierArrivals : Prop :=
  ∀ (g : Guard) (code : Nat) (s : State) (q : Part) (l : Launch), s.here.guardOn g = true →
    Tab.find s.parts s.here.part = some q → Tab.find q.launches s.here.launch = some l → l.codeOk code = true →
    let arrives := fun (i : Instr) (scope : Nat) (waits : Bool) =>
      let n := Tab.get 0 s.here.arrivals scope + 1
      ∃ (t : State) (l' : Launch), exec i s = .next t ∧
        t.here = { issued s 1 with
          arrivals := Tab.set 0 s.here.arrivals scope n
          wait := if waits = true then some (.barrier scope n) else s.here.wait } ∧
        t.launch s.here.part s.here.launch = some l' ∧
        (∃ b ∈ l'.bars, b.scope = scope ∧ b.n = n ∧ (s.cur.core, s.now s.here) ∈ b.arrived) ∧
        t.mem = s.mem ∧ ∀ j, j ≠ s.cur.core → t.core j = s.core j
    arrives (.cbar g code) (scopeSub l code s.cur.core) true ∧
    arrives (.cbarNw g code) (scopeSub l code s.cur.core) false ∧
    arrives (.dbar g) (scopeDie s.here.die) true ∧
    arrives (.dbarNw g) (scopeDie s.here.die) false ∧
    arrives (.ssb g) scopeSs true ∧
    arrives (.ssbNw g) scopeSs false

/-- BSTAT (R304): p[D] becomes 1 when the core has never arrived at the scope, or when the instance of its latest arrival is complete, R ≤ t with every copy that it waits for settled (R303); and
CBAR and BSTAT with a code beyond the launch are ILLEGAL with sub-cause 0 (R301). -/
def Sys2Proof.Claims.BarrierStatus : Prop :=
  ∀ (g : Guard) (d code : Nat) (s : State) (q : Part) (l : Launch), s.here.guardOn g = true →
    Tab.find s.parts s.here.part = some q → Tab.find q.launches s.here.launch = some l →
    let tells := fun (i : Instr) (scope : Nat) =>
      let n := Tab.get 0 s.here.arrivals scope
      ∃ v : Bool, exec i s = .next (withResult s 1 1 (.p d v)) ∧
        (v = true ↔ n = 0 ∨ ∀ b ∈ l.bars, b.scope = scope ∧ b.n = n → b.waits = [] ∧ ∃ r, b.r = some r ∧ r ≤ s.now s.here)
    (l.codeOk code = true → tells (.bstatSub g d code) (scopeSub l code s.cur.core)) ∧
    tells (.bstatDie g d) (scopeDie s.here.die) ∧
    tells (.bstatSs g d) scopeSs ∧
    (l.codeOk code = false → exec (.bstatSub g d code) s = .next (s.trapHere 1 0) ∧ exec (.cbar g code) s = .next (s.trapHere 1 0) ∧
      exec (.cbarNw g code) s = .next (s.trapHere 1 0))

/-- Arrivals at barriers and their status (R298 to R306). -/
def Obligations.Barriers : Prop :=
  Sys2Proof.Claims.BarrierArrivals ∧ Sys2Proof.Claims.BarrierStatus


/-- EXIT and YIELD (R145, R146): EXIT marks the core as exiting from its issue tick and records its arrival at the exit barrier of its
cluster, and with no lease it changes nothing else but the charge; YIELD marks an armed pre-emption ready for an early save and else only is charged. -/
def Obligations.ExitAndYield : Prop :=
  ∀ (g : Guard) (s : State) (q : Part), s.here.guardOn g = true → Tab.find s.parts s.here.part = some q →
    (∀ l, Tab.find q.launches s.here.launch = some l → s.here.lease = 0 →
      let scope := scopeExit l s.cur.core
      ∃ (t : State) (l' : Launch), exec (.exit g) s = .next t ∧
        t.here = { issued s 1 with
          exit := some (s.now s.here)
          arrivals := Tab.set 0 s.here.arrivals scope (Tab.get 0 s.here.arrivals scope + 1) } ∧
        t.launch s.here.part s.here.launch = some l' ∧
        (∃ b ∈ l'.bars, b.scope = scope ∧ (s.cur.core, s.now s.here) ∈ b.arrived) ∧
        t.mem = s.mem ∧ ∀ j, j ≠ s.cur.core → t.core j = s.core j) ∧
    (∀ x, Tab.find q.ctxs s.here.asid = some x →
      ∃ t, exec (.yield g) s = .next t ∧ t.here = issued s 1 ∧
        t.ctx s.here.part s.here.asid = some (if x.armed.isSome = true then { x with yielded := true } else x) ∧
        t.mem = s.mem ∧ ∀ j, j ≠ s.cur.core → t.core j = s.core j)

/-! ## The L slot -/

/-- The effective issue of an access issued now: the issue tick, unless an access issued before a MARK has still to perform (R128). -/
def Sys2Proof.Claims.effective (s : State) : Option Nat :=
  if (s.here.reqs.any fun r => r.isL && decide (r.grp < s.here.markGrp)) = true then none else some (s.now s.here)
/-- A new access of the operation, in the place y, with its row offset and the length of its perform window (Table 5.2). -/
def Sys2Proof.Claims.access (s : State) (sub : Nat) (kind : ReqKind) (y : Nat × Nat) (span : Nat) : Req :=
  ⟨s.here.seq + 1, sub, kind, y.1, y.2, s.now s.here, sub, span, effective s, s.here.markGrp, false⟩
/-- A result whose value is not known before its access performs: x[d] is undefined from the next tick; x0 awaits nothing. -/
def Sys2Proof.Claims.awaited (s : State) (d : Nat) : List Land :=
  if d = 0 then [] else [⟨s.here.seq + 1, s.now s.here + 1, 0, false, false, .x d 0⟩]
/-- The address x[a] + IMM11 sign-extended, in bytes; that the sum wraps modulo 2^64 is the model's choice (log entry 42). -/
def Sys2Proof.Claims.byteAddr (s : State) (a i : Nat) : Word := s.readX s.here a + BitVec.ofInt 64 (signedField 11 i)
/-- Nothing but the core of the operation differs. -/
def Sys2Proof.Claims.onlyHere (s t : State) : Prop := ∃ c, t = s.setHere c

/-- Scalar loads (R124, R125, R129): on an aligned address of the own scratchpad or a sibling window each completes by entering the load
queue with a perform window of 4 ticks from its effective issue, x[D] awaiting its value; nothing but the core changes. -/
def Sys2Proof.Claims.LoadsEnterTheQueue : Prop :=
  ∀ (g : Guard) (d a i : Nat) (s : State) (y : Nat × Nat), s.here.guardOn g = true → i < 2 ^ 11 →
    let loads := fun (ins : Instr) (n : Nat) (sx : Bool) =>
      (byteAddr s a i).toNat % n = 0 → spadAt s.cur.core (byteAddr s a i).toNat n = some y →
      ∃ t, exec ins s = .next t ∧ onlyHere s t ∧
        t.here.reqs = s.here.reqs ++ [access s 0 (.ld d n sx) y 4] ∧ t.here.lands = s.here.lands ++ awaited s d ∧
        t.here.x = s.here.x ∧ t.here.p = s.here.p ∧ t.here.v = s.here.v ∧ t.here.ecnt = addEnergy s.here.ecnt 2
    loads (.ldb g d a i) 1 true ∧ loads (.ldbu g d a i) 1 false ∧ loads (.ldh g d a i) 2 true ∧ loads (.ldhu g d a i) 2 false ∧
    loads (.ldw g d a i) 4 true ∧ loads (.ldwu g d a i) 4 false ∧ loads (.ldd g d a i) 8 false

/-- Scalar stores (R124, R125, R129): each completes by entering the store queue with its data, x[D] read at issue, and a perform window
of 8 ticks; no register awaits a result and nothing but the core changes. -/
def Sys2Proof.Claims.StoresEnterTheQueue : Prop :=
  ∀ (g : Guard) (d a i : Nat) (s : State) (y : Nat × Nat), s.here.guardOn g = true → i < 2 ^ 11 →
    let stores := fun (ins : Instr) (n : Nat) =>
      (byteAddr s a i).toNat % n = 0 → spadAt s.cur.core (byteAddr s a i).toNat n = some y →
      ∃ t, exec ins s = .next t ∧ onlyHere s t ∧
        t.here.reqs = s.here.reqs ++ [access s 0 (.st n (s.readX s.here d)) y 8] ∧ t.here.lands = s.here.lands ∧
        t.here.x = s.here.x ∧ t.here.p = s.here.p ∧ t.here.v = s.here.v ∧ t.here.ecnt = addEnergy s.here.ecnt 2
    stores (.stb g d a i) 1 ∧ stores (.sth g d a i) 2 ∧ stores (.stw g d a i) 4 ∧ stores (.std g d a i) 8

/-- Atomics and MARK (R128, R134): an atomic of 8 or 4 bytes at x[a] acts as a MARK, enters both queues with its operand x[b] and acts as
a MARK again for what follows; MARK begins a new group and makes no access. -/
def Sys2Proof.Claims.AtomicsEnterBothQueues : Prop :=
  ∀ (g : Guard) (d a b : Nat) (w : Bool) (s : State) (y : Nat × Nat), s.here.guardOn g = true →
    let n := if w = true then 4 else 8
    let atomic := fun (ins : Instr) (f : Nat) =>
      (s.readX s.here a).toNat % n = 0 → spadAt s.cur.core (s.readX s.here a).toNat n = some y →
      ∃ (t : State) (r : Req), exec ins s = .next t ∧ onlyHere s t ∧
        t.here.reqs = s.here.reqs ++ [r] ∧ r.kind = .amo f d n (s.readX s.here b) ∧ r.pad = y.1 ∧ r.addr = y.2 ∧ r.span = 4 ∧
        r.grp = s.here.markGrp + 1 ∧ t.here.markGrp = s.here.markGrp + 2 ∧ r.inLd = true ∧ r.inSt = true ∧
        (s.here.reqs = [] → r.e = some (s.now s.here)) ∧
        t.here.lands = s.here.lands ++ awaited s d
    atomic (.amoAdd g d a b w) 0 ∧ atomic (.amoSwap g d a b w) 1 ∧ atomic (.amoAnd g d a b w) 2 ∧ atomic (.amoOr g d a b w) 3 ∧
    atomic (.amoXor g d a b w) 4 ∧ atomic (.amoMin g d a b w) 5 ∧ atomic (.amoMax g d a b w) 6 ∧ atomic (.amoMinu g d a b w) 7 ∧
    atomic (.amoMaxu g d a b w) 8 ∧
    (∃ t, exec (.mark g) s = .next t ∧ onlyHere s t ∧ t.here.markGrp = s.here.markGrp + 1 ∧ t.here.reqs = s.here.reqs ∧
      t.here.lands = s.here.lands ∧ t.here.ecnt = addEnergy s.here.ecnt 1)

/-- Scalar loads, stores and atomics enter their queues (R124 to R134). -/
def Obligations.AccessesEnterTheQueues : Prop :=
  Sys2Proof.Claims.LoadsEnterTheQueue ∧ Sys2Proof.Claims.StoresEnterTheQueue ∧ Sys2Proof.Claims.AtomicsEnterBothQueues


/-- R124, R130 to R134: an address that is misaligned, or in no scratchpad window, raises SPAD, cause 4, whose INFO is the low 32 bits of the address: of a scalar
access its size, of a row-path operation on a free path 64 bytes; the first row that fails counts. -/
def Sys2Proof.Claims.BadAddressesTrap : Prop :=
  ∀ (g : Guard) (d a b r i : Nat) (w : Bool) (s : State), s.here.guardOn g = true → i < 2 ^ 11 →
    let good := fun (A : Word) (al n : Nat) => A.toNat % al = 0 ∧ spadAt s.cur.core A.toNat n ≠ none
    let traps := fun (ins : Instr) (A : Word) (n : Nat) => ¬ good A n n → exec ins s = .next (s.trapHere 4 (A.toNat % 2 ^ 32))
    let size := if w = true then 4 else 8
    let rows := fun (ins : Instr) (n : Nat) (A : Nat → Word) => s.rowBlocked s.here = false → ∀ j, j < 16 → ¬ good (A j) 64 n → (∀ h, h < j → good (A h) 64 n) →
      exec ins s = .next (s.trapHere 4 ((A j).toNat % 2 ^ 32))
    let base := fun (n j : Nat) => s.readX s.here a + BitVec.ofInt 64 (64 * signedField 11 i) + BitVec.ofNat 64 (n * j)
    let strided := fun (j : Nat) => s.readX s.here a + BitVec.ofNat 64 j * s.readX s.here b
    let single := s.readX s.here a + BitVec.ofInt 64 (256 * signedField 7 (i % 128))
    traps (.ldb g d a i) (byteAddr s a i) 1 ∧ traps (.ldbu g d a i) (byteAddr s a i) 1 ∧ traps (.stb g d a i) (byteAddr s a i) 1 ∧
    traps (.ldh g d a i) (byteAddr s a i) 2 ∧ traps (.ldhu g d a i) (byteAddr s a i) 2 ∧ traps (.sth g d a i) (byteAddr s a i) 2 ∧
    traps (.ldw g d a i) (byteAddr s a i) 4 ∧ traps (.ldwu g d a i) (byteAddr s a i) 4 ∧ traps (.stw g d a i) (byteAddr s a i) 4 ∧
    traps (.ldd g d a i) (byteAddr s a i) 8 ∧ traps (.std g d a i) (byteAddr s a i) 8 ∧
    traps (.amoAdd g d a b w) (s.readX s.here a) size ∧ traps (.amoSwap g d a b w) (s.readX s.here a) size ∧
    traps (.amoAnd g d a b w) (s.readX s.here a) size ∧ traps (.amoOr g d a b w) (s.readX s.here a) size ∧
    traps (.amoXor g d a b w) (s.readX s.here a) size ∧ traps (.amoMin g d a b w) (s.readX s.here a) size ∧
    traps (.amoMax g d a b w) (s.readX s.here a) size ∧ traps (.amoMinu g d a b w) (s.readX s.here a) size ∧
    traps (.amoMaxu g d a b w) (s.readX s.here a) size ∧
    rows (.vld g d a i) 256 (base 256) ∧ rows (.vst g d a i) 256 (base 256) ∧ rows (.vlds g d a b) 256 strided ∧ rows (.vsts g d a b) 256 strided ∧
    rows (.vldf6 g d a i) 192 (base 192) ∧ rows (.vstf6 g d a i) 192 (base 192) ∧
    (s.rowBlocked s.here = false → ¬ good single 64 256 → exec (.vldr g d a r (i % 128)) s = .next (s.trapHere 4 (single.toNat % 2 ^ 32)) ∧
      exec (.vstr g d a r (i % 128)) s = .next (s.trapHere 4 (single.toNat % 2 ^ 32)))

/-- The scratchpad address map (R78, R79): n bytes from A lie in the own scratchpad when they end by 2 MiB, in the sibling at position
pos xor w when they lie in window w = 1, 2 or 3 from (8 + w) × 2 MiB on, and nowhere else: bytes that run from one window into the next lie in none, which is the model's
reading (log entry 15). -/
def Sys2Proof.Claims.ScratchpadWindows : Prop :=
  ∀ (k A n : Nat), 0 < n → n ≤ 2 ^ 21 →
    (A + n ≤ 2 ^ 21 → spadAt k A n = some (k, A)) ∧
    (∀ w off, 1 ≤ w → w ≤ 3 → off + n ≤ 2 ^ 21 → A = (8 + w) * 2 ^ 21 + off →
      spadAt k A n = some (coreAt (coreDie k) (clusterOf k) (posOf k ^^^ w), off)) ∧
    (2 ^ 21 < A + n → A < 9 * 2 ^ 21 → spadAt k A n = none) ∧
    (∀ w off, 1 ≤ w → w ≤ 3 → off < 2 ^ 21 → 2 ^ 21 < off + n → A = (8 + w) * 2 ^ 21 + off → spadAt k A n = none) ∧
    (12 * 2 ^ 21 < A + n → spadAt k A n = none)

/-- Addresses of the scratchpad (R78, R79, R126): the windows of the siblings, and the traps of addresses out of them. -/
def Obligations.ScratchpadAddresses : Prop :=
  Sys2Proof.Claims.ScratchpadWindows ∧ Sys2Proof.Claims.BadAddressesTrap


/-- The row path (R130 to R133, R135): on a row path that is not blocked and with every row address aligned to 64 and in a window, a whole-register
operation completes with one access for each of its 16 rows, row i at its own address and offset i of the effective issue, and VLDR and
VSTR with one; the path is then occupied for 16 ticks, or 1, from the effective issue. That the address sums wrap modulo 2^64 is the
model's choice (log entry 42). -/
def Obligations.RowOperationsEnterTheQueues : Prop :=
  ∀ (g : Guard) (d a b r i : Nat) (s : State) (y : Nat → Nat × Nat), s.here.guardOn g = true → s.rowBlocked s.here = false → i < 2 ^ 11 →
    let queued := fun (t : State) (span j : Nat) (at' : Nat × Nat) (p : ReqKind → Prop) =>
      ∃ q ∈ t.here.reqs, q.seq = s.here.seq + 1 ∧ q.sub = j ∧ q.pad = at'.1 ∧ q.addr = at'.2 ∧ q.off = j ∧ q.span = span ∧
        q.e = effective s ∧ p q.kind
    let isLoad := fun (row : Nat) (f6 : Bool) (k : ReqKind) => k = ReqKind.vld d row f6
    let isStore := fun (row : Nat) (f6 : Bool) (k : ReqKind) => ∃ data, k = ReqKind.vst d row f6 data
    let whole := fun (ins : Instr) (n span : Nat) (A : Nat → Word) (p : Nat → ReqKind → Prop) =>
      (∀ j, j < 16 → (A j).toNat % 64 = 0 ∧ spadAt s.cur.core (A j).toNat n = some (y j)) →
      ∃ t, exec ins s = .next t ∧ onlyHere s t ∧ (∀ j, j < 16 → queued t span j (y j) (p j)) ∧
        t.here.reqs.length = s.here.reqs.length + 16 ∧
        t.here.rowPath = some ⟨s.now s.here, true, effective s, s.here.markGrp, 16⟩ ∧ t.here.x = s.here.x ∧ t.here.v = s.here.v
    let base := fun (n j : Nat) => s.readX s.here a + BitVec.ofInt 64 (64 * signedField 11 i) + BitVec.ofNat 64 (n * j)
    let strided := fun (j : Nat) => s.readX s.here a + BitVec.ofNat 64 j * s.readX s.here b
    let single := s.readX s.here a + BitVec.ofInt 64 (256 * signedField 7 (i % 128))
    whole (.vld g d a i) 256 4 (base 256) (fun j => isLoad j false) ∧
    whole (.vst g d a i) 256 8 (base 256) (fun j => isStore j false) ∧
    whole (.vlds g d a b) 256 4 strided (fun j => isLoad j false) ∧
    whole (.vsts g d a b) 256 8 strided (fun j => isStore j false) ∧
    whole (.vldf6 g d a i) 192 4 (base 192) (fun j => isLoad j true) ∧
    whole (.vstf6 g d a i) 192 8 (base 192) (fun j => isStore j true) ∧
    (single.toNat % 64 = 0 → spadAt s.cur.core single.toNat 256 = some (y 0) →
      (∃ t, exec (.vldr g d a r (i % 128)) s = .next t ∧ onlyHere s t ∧ queued t 4 0 (y 0) (isLoad r false) ∧
        t.here.reqs.length = s.here.reqs.length + 1 ∧
        t.here.rowPath = some ⟨s.now s.here, true, effective s, s.here.markGrp, 1⟩ ∧ t.here.x = s.here.x ∧ t.here.v = s.here.v) ∧
      (∃ t, exec (.vstr g d a r (i % 128)) s = .next t ∧ onlyHere s t ∧ queued t 8 0 (y 0) (isStore r false) ∧
        t.here.reqs.length = s.here.reqs.length + 1 ∧
        t.here.rowPath = some ⟨s.now s.here, true, effective s, s.here.markGrp, 1⟩ ∧ t.here.x = s.here.x ∧ t.here.v = s.here.v))

/-- R135: a row-path operation whose effective issue falls before the previous one's effective issue plus its occupancy raises ISSUE,
cause 2, with INFO 2, whatever its guard. -/
def Sys2Proof.Claims.RowPathBusyTraps : Prop :=
  ∀ (g : Guard) (d a b r i : Nat) (s : State) (y : RowPath) (p e : Nat), s.here.rowPath = some y → y.e = some p → effective s = some e →
    e < p + y.occ →
    exec (.vld g d a i) s = .next (s.trapHere 2 2) ∧ exec (.vst g d a i) s = .next (s.trapHere 2 2) ∧
    exec (.vldr g d a r i) s = .next (s.trapHere 2 2) ∧ exec (.vstr g d a r i) s = .next (s.trapHere 2 2) ∧
    exec (.vlds g d a b) s = .next (s.trapHere 2 2) ∧ exec (.vsts g d a b) s = .next (s.trapHere 2 2) ∧
    exec (.vldf6 g d a i) s = .next (s.trapHere 2 2) ∧ exec (.vstf6 g d a i) s = .next (s.trapHere 2 2)

/-- Where an access of the L slot, a drain line or a CPL beat stores: its bytes from its address in its scratchpad; a load stores none. -/
def Sys2Proof.Claims.storedLength (r : Req) : Nat :=
  match r.kind with
  | .st n _ => n
  | .vst _ _ f6 _ => if f6 then 192 else 256
  | .amo _ _ n _ => n
  | .dline .. => 64
  | .cpl .. => 64
  | _ => 0

/-- The frame of performing one access, but for the source read of a copy beat, which `CopyReadsAndLookups` states: every byte of memory outside the bytes that the access stores to reads as before, and a load
stores none; no partition, matrix unit or other core changes. -/
def Obligations.PerformFrame : Prop :=
  ∀ (s : State) (j : Nat) (r : Req), (∀ st id b, r.kind ≠ .src st id b) →
    (∀ a, a < padKey r.pad r.addr ∨ padKey r.pad r.addr + storedLength r ≤ a → (s.perform j r).byte a = s.byte a) ∧
    (s.perform j r).parts = s.parts ∧ (s.perform j r).units = s.units ∧ ∀ k, k ≠ j → (s.perform j r).core k = s.core k

/-- The operation of an access has failed no check (R61), and it meets no race: no other agent has written in the tick (R316) and the core repeats nothing and has
its launch to itself (R247, R319). -/
def Sys2Proof.Claims.undisturbed (s : State) (j : Nat) (r : Req) : Prop :=
  Memory.wf s.mem = true ∧ s.hits = [] ∧ s.quiet j = true ∧ (2, r.t) ∉ (s.core j).spoilt

/-- A store writes all its bytes in its perform tick, least significant first (R3, R125), where it is undisturbed: byte i of the place reads byte i of the data; a vector store
writes its row (R130), VSTF6 the low 24 bits of each lane in three bytes (R133); and an atomic the sum, the operand, the bitwise function, or the smaller or larger of the
two as signed or unsigned numbers of its size (R134, R318). -/
def Sys2Proof.Claims.StoresWriteTheirBytes : Prop :=
  ∀ (s : State) (j : Nat) (r : Req), undisturbed s j r →
    let a := padKey r.pad r.addr
    let after := fun i => ((s.perform j r).byte i).toNat
    (∀ n v, r.kind = .st n v → ∀ i, i < n → after (a + i) = v.toNat / 256 ^ i % 256) ∧
    (∀ d i (v : Row), r.kind = .vst d i false (some v) → ∀ b, b < 256 → after (a + b) = v.toNat / 256 ^ b % 256) ∧
    (∀ d i (v : Row), r.kind = .vst d i true (some v) → ∀ l b, l < 64 → b < 3 → after (a + 3 * l + b) = (laneOf v l).toNat / 256 ^ b % 256) ∧
    (∀ f d n v, r.kind = .amo f d n v → n = 4 ∨ n = 8 →
      let old := s.load a n
      let new := v.toNat % 256 ^ n
      let S := signedField (8 * n)
      let writes := fun (m : Nat) => ∀ i, i < n → after (a + i) = m / 256 ^ i % 256
      (f = 0 → writes (old + new)) ∧ (f = 1 → writes new) ∧ (f = 2 → writes (old &&& new)) ∧ (f = 3 → writes (old ||| new)) ∧
      (f = 4 → writes (old ^^^ new)) ∧ (f = 5 → writes (if S old < S new then old else new)) ∧ (f = 6 → writes (if S old < S new then new else old)) ∧
      (f = 7 → writes (min old new)) ∧ (f = 8 → writes (max old new)))

/-- A load that meets no race of an earlier tick and whose operation has failed no check reads all its bytes in its perform tick (R125, R129): the awaited result becomes known, bounded by 5 ticks from the effective
issue, with the bytes as a number, the first the least significant, sign-extended for LDB, LDH and LDW and zero-extended else, as an atomic gives the old value when no release of the tick has written it (R134, R316); a row of
a vector load stands from the next tick on (R130), each lane from 4 bytes, of VLDF6 from 3 (R133); and a vector store reads row i of its register at its effective issue. -/
def Sys2Proof.Claims.LoadsReadTheirBytes : Prop :=
  ∀ (s : State) (j : Nat) (r : Req) (e : Nat) (l : Land), s.quiet j = true → (2, r.t) ∉ (s.core j).spoilt → r.e = some e → l ∈ (s.core j).lands → l.seq = r.seq →
    let a := padKey r.pad r.addr
    let t := s.now (s.core j)
    let lands := ((s.perform j r).core j).lands
    (∀ d n sx w, r.kind = .ld d n sx → l.wr = .x d w → n = 1 ∨ n = 2 ∨ n = 4 ∨ n = 8 →
      ∃ v : Word, { l with hi := max (e + 5) (t + 1), ready := true, wr := .x d v } ∈ lands ∧
        (sx = false → v.toNat = s.load a n) ∧ (sx = true → v = BitVec.ofInt 64 (signedField (8 * n) (s.load a n)))) ∧
    (∀ f d n x w, r.kind = .amo f d n x → l.wr = .x d w → n = 4 ∨ n = 8 → s.hits = [] →
      { l with hi := max (e + 5) (t + 1), ready := true, wr := .x d (BitVec.ofNat 64 (s.load a n)) } ∈ lands) ∧
    (∀ d i f6 m w, r.kind = .vld d i f6 → l.wr = .row d i m w →
      ∃ v : Row, { l with hi := max (t + 1) l.hi, ready := true, wr := .row d i m v } ∈ lands ∧
        ∀ h, h < 64 → (laneOf v h).toNat = if f6 = true then s.load (a + 3 * h) 3 else s.load (a + 4 * h) 4) ∧
    (∀ (c : Core) (r' : Req) d i f6 e', r' ∈ c.reqs → r'.kind = .vst d i f6 none → r'.e = some e' → e' + r'.off = s.now c →
      c.vAhead (s.now c) (s.now c) d i = 0 → { r' with kind := .vst d i f6 (some (s.readV c d i)) } ∈ (s.sampleStores c).reqs)

/-- What accesses write and read at their perform ticks (R124, R125, R134). -/
def Obligations.AccessBytes : Prop :=
  Sys2Proof.Claims.StoresWriteTheirBytes ∧ Sys2Proof.Claims.LoadsReadTheirBytes


/-! ## The vector slots -/

/-- The unit of the slot is free: an earlier operation issued in it at least 16 ticks ago (R150). -/
def Sys2Proof.Claims.unitFree (s : State) : Prop := (if s.cur.slot = 3 then s.here.vaFree else s.here.vbFree) ≤ s.now s.here
/-- The core with the unit of the slot taken for 16 ticks. -/
def Sys2Proof.Claims.unitTaken (s : State) (c : Core) : Core :=
  if s.cur.slot = 3 then { c with vaFree := s.now s.here + 16 } else { c with vbFree := s.now s.here + 16 }
/-- The core after a vector operation has issued: charged, numbered, its unit taken and, where it draws, RNGCTR advanced (R53, R152). -/
def Sys2Proof.Claims.vecIssued (s : State) (eu : Nat) (draws : Bool) : Core :=
  { unitTaken s (issued s eu) with rngctr := if draws = true then s.here.rngctr + 1 else s.here.rngctr }
/-- The operation under way, with the random value it took; fn names the function whose lanes the statements on rows give. -/
def Sys2Proof.Claims.underWay (s : State) (fn : VFn) (d a b k : Nat) : VOp :=
  ⟨s.here.seq + 1, s.now s.here, fn, d, a, b, k, s.here.rngkey, s.here.rngctr, s.cur.slot, [], [], [], []⟩
/-- The state after a vector operation has issued: its row 0 is read in the issue tick (R71), and its other rows follow; an EXIT does not end the core
before its latency bound (R145). -/
def Sys2Proof.Claims.vecStarted (s : State) (eu : Nat) (draws : Bool) (fn : VFn) (d a b k : Nat) : State :=
  s.setHere (s.vopRow { vecIssued s eu draws with bound := max s.here.bound (s.now s.here + fn.lat) } (underWay s fn d a b k))

/-- The float operations, VCMP.F32, VSCA, special functions and VRNG (R153 to R156, R166, R176 to R182): with the guard on and the unit
free, each starts, charged by Table 10.7, and draws a random value exactly when it may round under .rsr or is VRNG. -/
def Obligations.FloatVectorOperationsStart : Prop :=
  ∀ (g : Guard) (d a b k : Nat) (r : Rm) (s : State), s.here.guardOn g = true → unitFree s →
    let starts := fun (i : Instr) (eu : Nat) (draws : Bool) (fn : VFn) (d a b k : Nat) => exec i s = .next (vecStarted s eu draws fn d a b k)
    starts (.vaddF32 g d a b k r) 240 (r == .rsr) (.addF r) d a b k ∧
    starts (.vsubF32 g d a b k r) 240 (r == .rsr) (.subF r) d a b k ∧
    starts (.vmulF32 g d a b k r) 240 (r == .rsr) (.mulF r) d a b k ∧
    starts (.vfmaF32 g d a b k r) 320 (r == .rsr) (.fma r) d a b k ∧
    starts (.vfmsF32 g d a b k r) 320 (r == .rsr) (.fms r) d a b k ∧
    starts (.vminF32 g d a b k) 160 false .minF d a b k ∧
    starts (.vmaxF32 g d a b k) 160 false .maxF d a b k ∧
    starts (.vabsF32 g d a k) 160 false .absF d a 0 k ∧
    starts (.vnegF32 g d a k) 160 false .negF d a 0 k ∧
    starts (.vrndF32 g d a k r) 240 (r == .rsr) (.rndF r) d a 0 k ∧
    starts (.vcmpF32Eq g d a b k) 160 false .eqF d a b k ∧
    starts (.vcmpF32Ne g d a b k) 160 false .neF d a b k ∧
    starts (.vcmpF32Lt g d a b k) 160 false .ltF d a b k ∧
    starts (.vcmpF32Le g d a b k) 160 false .leF d a b k ∧
    starts (.vcmpF32Unord g d a b k) 160 false .unordF d a b k ∧
    starts (.vscaI32 g d a b k r) 400 (r == .rsr) (.scaI r) d a b k ∧
    starts (.vscaF32 g d a b k r) 400 (r == .rsr) (.scaF r) d a b k ∧
    starts (.vrcpe g d a k) 240 false .rcpe d a 0 k ∧
    starts (.vrsqe g d a k) 240 false .rsqe d a 0 k ∧
    starts (.vfexp g d a k) 400 false .fexp d a 0 k ∧
    starts (.vexpxE g d a k) 240 false .expxE d a 0 k ∧
    starts (.vexpxM g d a k) 240 false .expxM d a 0 k ∧
    starts (.vlg2e g d a k) 400 false .lg2e d a 0 k ∧
    starts (.vrcps g d a b k r) 320 (r == .rsr) (.rcps r) d a b k ∧
    starts (.vrsqs g d a b k r) 320 (r == .rsr) (.rsqs r) d a b k ∧
    starts (.vexpi g d a b k r) 240 (r == .rsr) (.expi r) d a b k ∧
    starts (.vrngN32 g d k) 400 true .rngN d 0 0 k ∧
    starts (.vrngF32 g d k) 400 true .rngF d 0 0 k

/-- The integer, logic, shift, select, dot-product, conversion, move, reduction and mask operations (R157 to R165, R169 to R174): with the
guard on and the unit free, each starts, charged by Table 10.7; VCVT alone draws a random value, when inexact under .rsr; VSPLAT reads
x[A] at issue. -/
def Sys2Proof.Claims.IntegerVectorOperationsStart : Prop :=
  ∀ (g : Guard) (d a b k i : Nat) (z : Bool) (to' of : Fmt) (r : Rm) (s : State), s.here.guardOn g = true → unitFree s →
    let starts := fun (i : Instr) (eu : Nat) (draws : Bool) (fn : VFn) (d a b k : Nat) => exec i s = .next (vecStarted s eu draws fn d a b k)
    starts (.vcmpI32Eq g d a b k) 160 false .eqI d a b k ∧
    starts (.vcmpI32Ne g d a b k) 160 false .neI d a b k ∧
    starts (.vcmpI32Lt g d a b k) 160 false .ltI d a b k ∧
    starts (.vcmpI32Ge g d a b k) 160 false .geI d a b k ∧
    starts (.vcmpI32Ltu g d a b k) 160 false .ltuI d a b k ∧
    starts (.vcmpI32Geu g d a b k) 160 false .geuI d a b k ∧
    starts (.vaddI32 g d a b k) 160 false .addI d a b k ∧
    starts (.vsubI32 g d a b k) 160 false .subI d a b k ∧
    starts (.vmulI32 g d a b k) 160 false .mulI d a b k ∧
    starts (.vmulhI32 g d a b k) 160 false .mulhI d a b k ∧
    starts (.vminI32 g d a b k) 160 false .minI d a b k ∧
    starts (.vmaxI32 g d a b k) 160 false .maxI d a b k ∧
    starts (.vminN32 g d a b k) 160 false .minN d a b k ∧
    starts (.vmaxN32 g d a b k) 160 false .maxN d a b k ∧
    starts (.vaddsI32 g d a b k) 160 false .addsI d a b k ∧
    starts (.vsubsI32 g d a b k) 160 false .subsI d a b k ∧
    starts (.vand g d a b k) 160 false .and d a b k ∧
    starts (.vor g d a b k) 160 false .or d a b k ∧
    starts (.vxor g d a b k) 160 false .xor d a b k ∧
    starts (.vandn g d a b k) 160 false .andn d a b k ∧
    starts (.vsll g d a b k) 160 false .sll d a b k ∧
    starts (.vsrl g d a b k) 160 false .srl d a b k ∧
    starts (.vsra g d a b k) 160 false .sra d a b k ∧
    starts (.vrol g d a b k) 160 false .rol d a b k ∧
    starts (.vsel g d a b k) 160 false .sel d a b k ∧
    starts (.vabsI32 g d a k) 160 false .absI d a 0 k ∧
    starts (.vnegI32 g d a k) 160 false .negI d a 0 k ∧
    starts (.vnot g d a k) 160 false .not d a 0 k ∧
    starts (.vsllImm g d a i) 160 false (.sllI i) d a 0 0 ∧
    starts (.vsrlImm g d a i) 160 false (.srlI i) d a 0 0 ∧
    starts (.vsraImm g d a i) 160 false (.sraI i) d a 0 0 ∧
    starts (.vrolImm g d a i) 160 false (.rolI i) d a 0 0 ∧
    starts (.vdotI8I8 g d a b k z) 320 false (.dot .i8 .i8 z) d a b k ∧
    starts (.vdotN8I8 g d a b k z) 320 false (.dot .n8 .i8 z) d a b k ∧
    starts (.vdotN8N8 g d a b k z) 320 false (.dot .n8 .n8 z) d a b k ∧
    starts (.vcvt g d a to' of r) 240 (r == .rsr && cvtInexact of to') (.cvt to' of r false) d a 0 0 ∧
    starts (.vcvtSat g d a to' of r) 240 (r == .rsr && cvtInexact of to') (.cvt to' of r true) d a 0 0 ∧
    starts (.vsplat g d a k) 160 false (.splat ((s.readX s.here a).setWidth 32)) d 0 0 k ∧
    starts (.vrotr g d a i) 160 false (.rotr i) d a 0 0 ∧
    starts (.vbcr g d a i) 160 false (.bcr i) d a 0 0 ∧
    starts (.vrotc g d a i) 160 false (.rotc i) d a 0 0 ∧
    starts (.vbcc g d a i) 160 false (.bcc i) d a 0 0 ∧
    starts (.vtr g d a i) 160 false (.tr i) d a 0 0 ∧
    starts (.vredrSumF32 g d a k) 400 false .redrSumF d a 0 k ∧
    starts (.vredrSumI32 g d a k) 400 false .redrSumI d a 0 k ∧
    starts (.vredrMaxF32 g d a k) 400 false .redrMaxF d a 0 k ∧
    starts (.vredrMaxI32 g d a k) 400 false .redrMaxI d a 0 k ∧
    starts (.vredrMinF32 g d a k) 400 false .redrMinF d a 0 k ∧
    starts (.vredrMinI32 g d a k) 400 false .redrMinI d a 0 k ∧
    starts (.vredcSumF32 g d a k) 400 false .redcSumF d a 0 k ∧
    starts (.vredcSumI32 g d a k) 400 false .redcSumI d a 0 k ∧
    starts (.vredcMaxF32 g d a k) 400 false .redcMaxF d a 0 k ∧
    starts (.vredcMaxI32 g d a k) 400 false .redcMaxI d a 0 k ∧
    starts (.vredcMinF32 g d a k) 400 false .redcMinF d a 0 k ∧
    starts (.vredcMinI32 g d a k) 400 false .redcMinI d a 0 k ∧
    starts (.kand g d a b) 160 false .kand d a b 0 ∧
    starts (.kor g d a b) 160 false .kor d a b 0 ∧
    starts (.kxor g d a b) 160 false .kxor d a b 0 ∧
    starts (.kandn g d a b) 160 false .kandn d a b 0 ∧
    starts (.knot g d a) 160 false .knot d a 0 0 ∧
    starts (.kmov g d a) 160 false .kmov d a 0 0

/-- KANY and KALL (R175): with the guard on and the unit free, p[D] is on its way for the next tick: where no row of k[A] is undefined, KANY 1
when any of the 1024 bits of k[A] reads 1, KALL 1 when all do; k0 reads all ones; the unit is taken for 16 ticks. -/
def Sys2Proof.Claims.MaskTests : Prop :=
  ∀ (g : Guard) (d a : Nat) (s : State), s.here.guardOn g = true → unitFree s →
    ∃ any all : Bool,
      exec (.kany g d a) s = .next (s.setHere { unitTaken s (issued s 160) with 
        lands := s.here.lands ++ [landing s 1 (.p d any)], bound := max s.here.bound (s.now s.here + 1) }) ∧
      exec (.kall g d a) s = .next (s.setHere { unitTaken s (issued s 160) with 
        lands := s.here.lands ++ [landing s 1 (.p d all)], bound := max s.here.bound (s.now s.here + 1) }) ∧
      (s.here.maskOpen (s.now s.here) a = false →
        (any = true ↔ ∃ i j, i < 16 ∧ j < 64 ∧ (s.readK s.here a i).getLsbD j = true) ∧
        (all = true ↔ ∀ i j, i < 16 → j < 64 → (s.readK s.here a i).getLsbD j = true)) ∧
      (a = 0 → all = true)

/-- Integer vector operations and mask operations start, and mask tests give their predicates. -/
def Obligations.IntegerVectorOperationsStart : Prop :=
  Sys2Proof.Claims.IntegerVectorOperationsStart ∧ Sys2Proof.Claims.MaskTests


/-- R150 and R68: an operation of the slots VA and VB issued less than 16 ticks after the last one of its unit raises ISSUE, cause 2, with INFO the slot number,
3 for VA and 4 for VB, whatever its guard; and an operation whose guard reads 0 takes a free unit for 16 ticks and does nothing else. -/
def Obligations.VectorUnitIntervals : Prop :=
  ∀ (g : Guard) (a b d i k : Nat) (rm : Rm) (z : Bool) (x y : Fmt) (s : State),
    let all := fun (o : Host.Outcome State Fault Refusal) =>
      exec (.vaddF32 g d a b k rm) s = o ∧ exec (.vsubF32 g d a b k rm) s = o ∧ exec (.vmulF32 g d a b k rm) s = o ∧
      exec (.vfmaF32 g d a b k rm) s = o ∧ exec (.vfmsF32 g d a b k rm) s = o ∧ exec (.vminF32 g d a b k) s = o ∧ exec (.vmaxF32 g d a b k) s = o ∧
      exec (.vabsF32 g d a k) s = o ∧ exec (.vnegF32 g d a k) s = o ∧ exec (.vrndF32 g d a k rm) s = o ∧ exec (.vcmpF32Eq g d a b k) s = o ∧
      exec (.vcmpF32Ne g d a b k) s = o ∧ exec (.vcmpF32Lt g d a b k) s = o ∧ exec (.vcmpF32Le g d a b k) s = o ∧
      exec (.vcmpF32Unord g d a b k) s = o ∧ exec (.vcmpI32Eq g d a b k) s = o ∧ exec (.vcmpI32Ne g d a b k) s = o ∧
      exec (.vcmpI32Lt g d a b k) s = o ∧ exec (.vcmpI32Ge g d a b k) s = o ∧ exec (.vcmpI32Ltu g d a b k) s = o ∧
      exec (.vcmpI32Geu g d a b k) s = o ∧ exec (.vaddI32 g d a b k) s = o ∧ exec (.vsubI32 g d a b k) s = o ∧ exec (.vmulI32 g d a b k) s = o ∧
      exec (.vmulhI32 g d a b k) s = o ∧ exec (.vminI32 g d a b k) s = o ∧ exec (.vmaxI32 g d a b k) s = o ∧ exec (.vminN32 g d a b k) s = o ∧
      exec (.vmaxN32 g d a b k) s = o ∧ exec (.vaddsI32 g d a b k) s = o ∧ exec (.vsubsI32 g d a b k) s = o ∧ exec (.vabsI32 g d a k) s = o ∧
      exec (.vnegI32 g d a k) s = o ∧ exec (.vand g d a b k) s = o ∧ exec (.vor g d a b k) s = o ∧ exec (.vxor g d a b k) s = o ∧
      exec (.vandn g d a b k) s = o ∧ exec (.vnot g d a k) s = o ∧ exec (.vsll g d a b k) s = o ∧ exec (.vsrl g d a b k) s = o ∧
      exec (.vsra g d a b k) s = o ∧ exec (.vrol g d a b k) s = o ∧ exec (.vsllImm g d a i) s = o ∧ exec (.vsrlImm g d a i) s = o ∧
      exec (.vsraImm g d a i) s = o ∧ exec (.vrolImm g d a i) s = o ∧ exec (.vsel g d a b k) s = o ∧ exec (.vdotI8I8 g d a b k z) s = o ∧
      exec (.vdotN8I8 g d a b k z) s = o ∧ exec (.vdotN8N8 g d a b k z) s = o ∧ exec (.vcvt g d a x y rm) s = o ∧ exec (.vcvtSat g d a x y rm) s = o ∧
      exec (.vscaI32 g d a b k rm) s = o ∧ exec (.vscaF32 g d a b k rm) s = o ∧ exec (.vsplat g d a k) s = o ∧ exec (.vrotr g d a i) s = o ∧
      exec (.vbcr g d a i) s = o ∧ exec (.vrotc g d a i) s = o ∧ exec (.vbcc g d a i) s = o ∧ exec (.vredrSumF32 g d a k) s = o ∧
      exec (.vredrMaxF32 g d a k) s = o ∧ exec (.vredrMinF32 g d a k) s = o ∧ exec (.vredrSumI32 g d a k) s = o ∧ exec (.vredrMaxI32 g d a k) s = o ∧
      exec (.vredrMinI32 g d a k) s = o ∧ exec (.vredcSumF32 g d a k) s = o ∧ exec (.vredcMaxF32 g d a k) s = o ∧ exec (.vredcMinF32 g d a k) s = o ∧
      exec (.vredcSumI32 g d a k) s = o ∧ exec (.vredcMaxI32 g d a k) s = o ∧ exec (.vredcMinI32 g d a k) s = o ∧ exec (.vtr g d a i) s = o ∧
      exec (.kand g d a b) s = o ∧ exec (.kor g d a b) s = o ∧ exec (.kxor g d a b) s = o ∧ exec (.kandn g d a b) s = o ∧ exec (.knot g d a) s = o ∧
      exec (.kmov g d a) s = o ∧ exec (.kany g d a) s = o ∧ exec (.kall g d a) s = o ∧ exec (.vrcpe g d a k) s = o ∧ exec (.vrsqe g d a k) s = o ∧
      exec (.vrcps g d a b k rm) s = o ∧ exec (.vrsqs g d a b k rm) s = o ∧ exec (.vfexp g d a k) s = o ∧ exec (.vexpi g d a b k rm) s = o ∧
      exec (.vexpxE g d a k) s = o ∧ exec (.vexpxM g d a k) s = o ∧ exec (.vlg2e g d a k) s = o ∧ exec (.vrngN32 g d k) s = o ∧
      exec (.vrngF32 g d k) s = o
    (¬ unitFree s → all (.next (s.trapHere 2 s.cur.slot))) ∧
    (unitFree s → s.here.guardOn g = false → all (.next (s.setHere (unitTaken s s.here))))

/-- The value of a finite code of a float format, as a rational (Table 2.2). -/
def Sys2Proof.Claims.valueOf (x : FVal) : ℚ :=
  match x with
  | .fin neg m e => (if neg = true then -1 else 1) * (m : ℚ) * (2 : ℚ) ^ e
  | _ => 0
/-- F32 codes (Table 2.2, R38, R39): NaN, signalling NaN, infinity, zero; and an order of those that are no NaN in which the zeros are equal. -/
def Sys2Proof.Claims.f32Nan (w : Lane) : Bool := decide (0x7F800000 < w.toNat % 2 ^ 31)
def Sys2Proof.Claims.f32Sig (w : Lane) : Bool := f32Nan w && !w.getLsbD 22
def Sys2Proof.Claims.f32Inf (w : Lane) : Bool := decide (w.toNat % 2 ^ 31 = 0x7F800000)
def Sys2Proof.Claims.f32Zero (w : Lane) : Bool := decide (w.toNat % 2 ^ 31 = 0)
def Sys2Proof.Claims.f32Key (w : Lane) : Int := if w.msb = true then -((w.toNat % 2 ^ 31 : Nat) : Int) else (w.toNat % 2 ^ 31 : Nat)
/-- The value of a finite F32 code: a signed mantissa times a power of two (Table 2.2). -/
def Sys2Proof.Claims.f32Mant (w : Lane) : Int :=
  let m : Int := if w.toNat / 2 ^ 23 % 256 = 0 then (w.toNat % 2 ^ 23 : Nat) else (2 ^ 23 + w.toNat % 2 ^ 23 : Nat)
  if w.msb = true then -m else m
def Sys2Proof.Claims.f32Exp (w : Lane) : Int := (max (w.toNat / 2 ^ 23 % 256) 1 : Nat) - 150
def Sys2Proof.Claims.f32Value (w : Lane) : ℚ := (f32Mant w : ℚ) * (2 : ℚ) ^ f32Exp w
/-- The canonical NaN, and infinity and zero of a sign. -/
def Sys2Proof.Claims.f32Canon : Lane := 0x7FC00000
def Sys2Proof.Claims.f32InfOf (neg : Bool) : Lane := if neg = true then 0xFF800000 else 0x7F800000
def Sys2Proof.Claims.f32ZeroOf (neg : Bool) : Lane := if neg = true then 0x80000000 else 0
/-- What operands among which is a NaN give: the canonical NaN, with NV when one is signalling (R39, R40). -/
def Sys2Proof.Claims.f32NaNs (l : List Lane) : Lane × Flags := (f32Canon, if l.any f32Sig = true then Flags.nv else 0)
/-- The exact number m × 2^e rounded once to F32, or the zero of the given sign (R44). -/
def Sys2Proof.Claims.f32Round (neg : Bool) (m e : Int) (r : Rm) (rv : Nat) : Lane × Flags :=
  if m = 0 then (f32ZeroOf neg, 0)
  else let y := rnd (decide (m < 0)) m.natAbs e .f32 r rv false; (BitVec.ofNat 32 y.1, y.2)
/-- z + t rounded once, z no NaN and t an infinity or the exact number m × 2^e, of sign neg where it is 0 (R40): unlike infinities give NV; an exact zero sum keeps
the sign of two equal zeros and is else +0, under .rdn −0. -/
def Sys2Proof.Claims.f32Plus (r : Rm) (rv : Nat) (z : Lane) (inf neg : Bool) (m e : Int) : Lane × Flags :=
  if inf = true then (if f32Inf z = true ∧ z.msb ≠ neg then (f32Canon, Flags.nv) else (f32InfOf neg, 0))
  else if f32Inf z = true then (z, 0)
  else
    let q := min e (f32Exp z)
    f32Round (if m = 0 ∧ f32Mant z = 0 ∧ neg = z.msb then neg else r == .rdn) (m * 2 ^ (e - q).toNat + f32Mant z * 2 ^ (f32Exp z - q).toNat) q r rv
/-- F32 addition, and multiplication and fused multiply-add of R40. -/
def Sys2Proof.Claims.f32Add (r : Rm) (rv : Nat) (a b : Lane) : Lane × Flags :=
  if f32Nan a || f32Nan b then f32NaNs [a, b] else f32Plus r rv b (f32Inf a) a.msb (f32Mant a) (f32Exp a)
def Sys2Proof.Claims.f32Mul (r : Rm) (rv : Nat) (a b : Lane) : Lane × Flags :=
  if f32Nan a || f32Nan b then f32NaNs [a, b]
  else if f32Inf a && f32Zero b || f32Zero a && f32Inf b then (f32Canon, Flags.nv)
  else if f32Inf a || f32Inf b then (f32InfOf (a.msb ^^ b.msb), 0)
  else f32Round (a.msb ^^ b.msb) (f32Mant a * f32Mant b) (f32Exp a + f32Exp b) r rv
def Sys2Proof.Claims.f32Fma (r : Rm) (rv : Nat) (a b d : Lane) : Lane × Flags :=
  if f32Nan a || f32Nan b then f32NaNs [a, b, d]
  else if f32Inf a && f32Zero b || f32Zero a && f32Inf b then (f32Canon, Flags.nv)
  else if f32Nan d then f32NaNs [d]
  else f32Plus r rv d (f32Inf a || f32Inf b) (a.msb ^^ b.msb) (f32Mant a * f32Mant b) (f32Exp a + f32Exp b)
/-- The other sign. -/
def Sys2Proof.Claims.f32Neg (a : Lane) : Lane := a ^^^ 0x80000000
/-- The smaller of two codes, −0 below +0 (R154); of equal ones the second. -/
def Sys2Proof.Claims.f32Least (mx : Bool) (a b : Lane) : Lane × Flags :=
  let less := fun (x y : Lane) => decide (f32Key x < f32Key y) || f32Zero x && f32Zero y && x.msb && !y.msb
  if f32Nan a || f32Nan b then f32NaNs [a, b] else (if (if mx = true then less b a else less a b) = true then a else b, 0)
/-- Scale-and-accumulate (R58): the accumulator d and two scales, and a block sum of value m × 2^e that may be a NaN, signalling or not, or an infinity. -/
def Sys2Proof.Claims.f32Scale (r : Rm) (rv : Nat) (d x y : Lane) (nan sig inf neg : Bool) (m e : Int) : Lane × Flags :=
  if f32Nan d || nan || f32Nan x || f32Nan y then (f32Canon, if f32Sig d || sig || f32Sig x || f32Sig y then Flags.nv else 0)
  else if (inf || f32Inf x || f32Inf y) && (!inf && decide (m = 0) || f32Zero x || f32Zero y) then (f32Canon, Flags.nv)
  else f32Plus r rv d (inf || f32Inf x || f32Inf y) (neg ^^ x.msb ^^ y.msb) (m * f32Mant x * f32Mant y) (e + f32Exp x + f32Exp y)

/-- The flags that land for an operation: the flags f when its sources and its mask are defined, those that they may set else (R8). -/
def Sys2Proof.Claims.flagsLand (s : State) (c : Core) (o : VOp) (i lat : Nat) (f : Flags) (l : List Land) : Prop :=
  ∃ (f' : Flags) (T : Nat), o.t + i + 1 ≤ T ∧ T ≤ o.t + lat ∧ (s.srcUndefined c o i = false → f' = f) ∧ f' &&& ~~~(f ||| o.fn.flagMask) = 0 ∧
    l = if f' = 0 then [] else [⟨o.seq, T, T, true, false, .flags f'⟩]
/-- The core with row i of v[d] of an operation that has failed no check on its way: the lanes of m with the values val, from the next tick to lat − 15 ticks on
(not before an MDRV still under way, R199), with its flags, which land at one tick up to its bound (R46), and its other rows to come. -/
def Sys2Proof.Claims.RowLands (s : State) (c : Core) (o : VOp) (i lat : Nat) (m : MaskRow) (val : Nat → Lane) (f : Flags) : Prop :=
  (o.slot, o.t) ∉ c.spoilt → ∃ (v : Row) (l : List Land), flagsLand s c o i lat f l ∧
    s.vopRow c o = { c with
      lands := c.lands ++ [⟨o.seq, o.t + i + 1, max (o.t + i + (lat - 15)) (c.drainBound o.d), true, false,
          .row o.d i (m &&& ~~~Tab.get 0 o.skip i) v⟩] ++ l
      vops := if i < 15 then c.vops ++ [o] else c.vops } ∧
    ∀ j, j < 64 → m.getLsbD j = true → laneOf v j = val j
/-- The flags of the enabled lanes of a row together. -/
def Sys2Proof.Claims.rowFlags (m : MaskRow) (f : Nat → Flags) : Flags :=
  (List.range 64).foldl (fun acc j => if m.getLsbD j = true then acc ||| f j else acc) 0

/-- What an operation reads (R8, R66, R67, R70, R71): row i of v[r] as it stands, where no result for it is under way and no operation issued before it has still to give
it; a mask likewise; and its row of k0 all ones. -/
def Sys2Proof.Claims.SourceRows : Prop :=
  ∀ (s : State) (c : Core) (o : VOp) (r i : Nat),
    (s.here.vAhead (s.now c) o.t r i = 0 → s.srcRow c o r i = s.readV c r i) ∧
    (c.vOpen (s.now c) r i = 0 → s.readV c r i = Tab.get 0 c.v (16 * r + i)) ∧
    (r ≠ 0 → c.kOpen (s.now c) r i = 0 → s.readK c r i = Tab.get 0 c.k (16 * r + i)) ∧
    s.readK c 0 i = BitVec.allOnes 64 ∧
    (∀ j, j < 64 → (s.srcOpen c o r i).getLsbD j = false → laneOf (s.srcRow c o r i) j = laneOf (Tab.get 0 c.v (16 * r + i)) j)

/-- What the rows of integer operations hold (R157 to R161): row i is read at exactly t + i (R71); every enabled lane gets the value of its
entry of Table 6.3 or R160, R161, the others keep theirs, and shifts by an immediate and VSEL write every lane; the saturating forms set SAT when an
enabled lane clamps. -/
def Sys2Proof.Claims.IntegerRows : Prop :=
  ∀ (s : State) (c : Core) (i : Nat) (o : VOp), s.now c = o.t + i → i < 16 →
    let A := fun j => laneOf (s.srcRow c o o.a i) j
    let B := fun j => laneOf (s.srcRow c o o.b i) j
    let K := s.readK c o.k i
    let clamp : Int → Int := fun v => max (-2147483648) (min 2147483647 v)
    let rows := fun (fn : VFn) (lat : Nat) (val : Nat → Lane) => o.fn = fn → RowLands s c o i lat K val 0
    let saturates := fun (fn : VFn) (v : Nat → Int) => o.fn = fn → RowLands s c o i 18 K (fun j => BitVec.ofInt 32 (clamp (v j)))
      (if (List.range 64).any (fun j => K.getLsbD j && decide (clamp (v j) ≠ v j)) = true then Flags.sat else 0)
    let everyLane := fun (fn : VFn) (val : Nat → Lane) => o.fn = fn → RowLands s c o i 18 (BitVec.allOnes 64) val 0
    rows .addI 18 (fun j => BitVec.ofNat 32 ((A j).toNat + (B j).toNat)) ∧
    rows .subI 18 (fun j => BitVec.ofInt 32 ((A j).toInt - (B j).toInt)) ∧
    rows .mulI 19 (fun j => BitVec.ofNat 32 ((A j).toNat * (B j).toNat)) ∧
    rows .mulhI 19 (fun j => BitVec.ofInt 32 ((A j).toInt * (B j).toInt / 2 ^ 32)) ∧
    rows .minI 18 (fun j => BitVec.ofInt 32 (min (A j).toInt (B j).toInt)) ∧
    rows .maxI 18 (fun j => BitVec.ofInt 32 (max (A j).toInt (B j).toInt)) ∧
    rows .minN 18 (fun j => BitVec.ofNat 32 (min (A j).toNat (B j).toNat)) ∧
    rows .maxN 18 (fun j => BitVec.ofNat 32 (max (A j).toNat (B j).toNat)) ∧
    saturates .addsI (fun j => (A j).toInt + (B j).toInt) ∧
    saturates .subsI (fun j => (A j).toInt - (B j).toInt) ∧
    saturates .absI (fun j => |(A j).toInt|) ∧
    saturates .negI (fun j => -(A j).toInt) ∧
    rows .and 18 (fun j => A j &&& B j) ∧ rows .or 18 (fun j => A j ||| B j) ∧ rows .xor 18 (fun j => A j ^^^ B j) ∧
    rows .andn 18 (fun j => A j &&& ~~~B j) ∧ rows .not 18 (fun j => ~~~A j) ∧
    rows .sll 18 (fun j => BitVec.ofNat 32 ((A j).toNat * 2 ^ ((B j).toNat % 32))) ∧
    rows .srl 18 (fun j => BitVec.ofNat 32 ((A j).toNat / 2 ^ ((B j).toNat % 32))) ∧
    rows .sra 18 (fun j => BitVec.ofInt 32 ((A j).toInt / 2 ^ ((B j).toNat % 32))) ∧
    rows .rol 18 (fun j => (A j).rotateLeft ((B j).toNat % 32)) ∧
    (∀ n, n < 32 → everyLane (.sllI n) (fun j => BitVec.ofNat 32 ((A j).toNat * 2 ^ n)) ∧
      everyLane (.srlI n) (fun j => BitVec.ofNat 32 ((A j).toNat / 2 ^ n)) ∧
      everyLane (.sraI n) (fun j => BitVec.ofInt 32 ((A j).toInt / 2 ^ n)) ∧
      everyLane (.rolI n) (fun j => (A j).rotateLeft n)) ∧
    everyLane .sel (fun j => if K.getLsbD j = true then A j else B j) ∧
    (∀ w, o.fn = .splat w → RowLands s c o i 17 K (fun _ => w) 0)

/-- VDOT (R162): an enabled lane adds the four products of its packed bytes to its accumulator in v[D], wrapping, or clamped under .sat. -/
def Sys2Proof.Claims.DotRows : Prop :=
  ∀ (s : State) (c : Core) (i : Nat) (o : VOp) (x y : Fmt) (z : Bool), s.now c = o.t + i → i < 16 →
    (x = .i8 ∨ x = .n8) → (y = .i8 ∨ y = .n8) → o.fn = .dot x y z →
    let byte := fun (f : Fmt) (w : Lane) (e : Nat) =>
      let u := w.toNat / 256 ^ e % 256
      if f = .i8 then signedField 8 u else (u : Int)
    let A := fun j => laneOf (s.srcRow c o o.a i) j
    let B := fun j => laneOf (s.srcRow c o o.b i) j
    let exact := fun j => (laneOf (s.srcRow c o o.d i) j).toInt + byte x (A j) 0 * byte y (B j) 0 + byte x (A j) 1 * byte y (B j) 1 +
      byte x (A j) 2 * byte y (B j) 2 + byte x (A j) 3 * byte y (B j) 3
    let clamp : Int → Int := fun v => max (-2147483648) (min 2147483647 v)
    let K := s.readK c o.k i
    (z = false → RowLands s c o i 22 K (fun j => BitVec.ofInt 32 (exact j)) 0) ∧
    (z = true → RowLands s c o i 22 K (fun j => BitVec.ofInt 32 (clamp (exact j)))
      (if (List.range 64).any (fun j => K.getLsbD j && decide (clamp (exact j) ≠ exact j)) = true then Flags.sat else 0))

/-- What vector operations read, and rows of integer operations and of dot products. -/
def Obligations.IntegerRows : Prop :=
  Sys2Proof.Claims.SourceRows ∧ Sys2Proof.Claims.IntegerRows ∧ Sys2Proof.Claims.DotRows


/-- What rows of masks hold (R156, R174): a compare writes bit j of its row from lane j, 0 where k[K] disables it, and the mask operations combine the rows of
k[A] and k[B], row i within 3 ticks and 2 ticks of its read. In VCMP.F32 the zeros are equal, a NaN makes .eq, .lt and .le false and .ne and .unord true, a signalling NaN
sets NV, and a quiet one under .lt and .le too. -/
def Obligations.MaskRows : Prop :=
  ∀ (s : State) (c : Core) (i : Nat) (o : VOp), s.now c = o.t + i → i < 16 → (o.slot, o.t) ∉ c.spoilt →
    let A := fun j => laneOf (s.srcRow c o o.a i) j
    let B := fun j => laneOf (s.srcRow c o o.b i) j
    let K := s.readK c o.k i
    let KA := s.readK c o.a i
    let KB := s.readK c o.b i
    let lands := fun (lag : Nat) (bit : Nat → Bool) (f : Flags) => ∃ (v : MaskRow) (l : List Land), flagsLand s c o i (lag + 15) f l ∧
      s.vopRow c o = { c with
        lands := c.lands ++ [⟨o.seq, o.t + i + 1, o.t + i + lag, true, false, .krow o.d i (~~~Tab.get 0 o.skip (16 + i)) v⟩] ++ l
        vops := if i < 15 then c.vops ++ [o] else c.vops } ∧ ∀ j, j < 64 → v.getLsbD j = bit j
    let compares := fun (fn : VFn) (holds : Nat → Bool) => o.fn = fn → lands 3 (fun j => K.getLsbD j && holds j) 0
    let nan := fun j => f32Nan (A j) || f32Nan (B j)
    let sig := rowFlags K fun j => if f32Sig (A j) || f32Sig (B j) then Flags.nv else 0
    let any := rowFlags K fun j => if nan j then Flags.nv else 0
    let floats := fun (fn : VFn) (holds : Nat → Bool) (f : Flags) => o.fn = fn → lands 3 (fun j => K.getLsbD j && holds j) f
    compares .eqI (fun j => decide ((A j).toNat = (B j).toNat)) ∧
    compares .neI (fun j => decide ((A j).toNat ≠ (B j).toNat)) ∧
    compares .ltI (fun j => decide ((A j).toInt < (B j).toInt)) ∧
    compares .geI (fun j => decide ((B j).toInt ≤ (A j).toInt)) ∧
    compares .ltuI (fun j => decide ((A j).toNat < (B j).toNat)) ∧
    compares .geuI (fun j => decide ((B j).toNat ≤ (A j).toNat)) ∧
    floats .eqF (fun j => !nan j && decide (f32Key (A j) = f32Key (B j))) sig ∧
    floats .neF (fun j => nan j || decide (f32Key (A j) ≠ f32Key (B j))) sig ∧
    floats .ltF (fun j => !nan j && decide (f32Key (A j) < f32Key (B j))) any ∧
    floats .leF (fun j => !nan j && decide (f32Key (A j) ≤ f32Key (B j))) any ∧
    floats .unordF nan sig ∧
    (o.fn = .kand → lands 2 (fun j => KA.getLsbD j && KB.getLsbD j) 0) ∧
    (o.fn = .kor → lands 2 (fun j => KA.getLsbD j || KB.getLsbD j) 0) ∧
    (o.fn = .kxor → lands 2 (fun j => KA.getLsbD j ^^ KB.getLsbD j) 0) ∧
    (o.fn = .kandn → lands 2 (fun j => KA.getLsbD j && !KB.getLsbD j) 0) ∧
    (o.fn = .knot → lands 2 (fun j => !KA.getLsbD j) 0) ∧
    (o.fn = .kmov → lands 2 (fun j => KA.getLsbD j) 0)

/-- Row moves and row reductions (R169, R172): VROTR takes lane (j + n) mod 64 and VBCR lane n; where no enabled lane is undefined, VREDR.sum.i32 puts the sum modulo 2^32 of
the enabled lanes of the row into every enabled lane, and VREDR.max.i32 and VREDR.min.i32 an enabled lane that no enabled lane exceeds or
falls below. -/
def Sys2Proof.Claims.RowMovesAndReductions : Prop :=
  ∀ (s : State) (c : Core) (i n : Nat) (o : VOp), s.now c = o.t + i → i < 16 → n < 64 →
    let A := fun j => laneOf (s.srcRow c o o.a i) j
    let K := s.readK c o.k i
    let on := fun j => j < 64 ∧ K.getLsbD j = true
    (o.fn = .rotr n → RowLands s c o i 18 (BitVec.allOnes 64) (fun j => A ((j + n) % 64)) 0) ∧
    (o.fn = .bcr n → RowLands s c o i 18 (BitVec.allOnes 64) (fun _ => A n) 0) ∧
    (o.fn = .redrSumI → s.srcUndefined c o i = false → RowLands s c o i 24 K
      (fun _ => BitVec.ofNat 32 (((List.range 64).map fun j => if K.getLsbD j = true then (A j).toNat else 0).sum)) 0) ∧
    (o.fn = .redrMaxI → s.srcUndefined c o i = false → ∃ w : Lane, RowLands s c o i 24 K (fun _ => w) 0 ∧ ∀ j, on j → (A j).toInt ≤ w.toInt ∧ ∃ h, on h ∧ A h = w) ∧
    (o.fn = .redrMinI → s.srcUndefined c o i = false → ∃ w : Lane, RowLands s c o i 24 K (fun _ => w) 0 ∧ ∀ j, on j → w.toInt ≤ (A j).toInt ∧ ∃ h, on h ∧ A h = w)

/-- Column moves and reductions (R168, R170 to R172), from the sixteen rows of the source as they were read: row i of VROTC is row
(i + n) mod 16, of VBCC row n; VTR transposes the block of columns 16 b to 16 b + 15 and copies the rest; VREDC.sum.i32 puts into each enabled
lane the sum modulo 2^32 of the enabled lanes of its column. -/
def Sys2Proof.Claims.ColumnMovesAndReductions : Prop :=
  ∀ (a : Nat → Row) (k : Nat → MaskRow) (i j n b : Nat), i < 16 → j < 64 → n < 16 → b < 4 →
    let lands := fun (fn : VFn) (m : MaskRow) (w : Lane) => (colRow fn i a k).1 = m ∧ laneOf (colRow fn i a k).2 j = w
    lands (.rotc n) (BitVec.allOnes 64) (laneOf (a ((i + n) % 16)) j) ∧
    lands (.bcc n) (BitVec.allOnes 64) (laneOf (a n) j) ∧
    (∀ h, h < 16 → j = 16 * b + h → lands (.tr b) (BitVec.allOnes 64) (laneOf (a h) (16 * b + i))) ∧
    (j < 16 * b ∨ 16 * b + 16 ≤ j → lands (.tr b) (BitVec.allOnes 64) (laneOf (a i) j)) ∧
    lands .redcSumI (k i)
      (BitVec.ofNat 32 (((List.range 16).map fun r => if (k r).getLsbD j = true then (laneOf (a r) j).toNat else 0).sum))

/-- Moves and reductions along rows and columns. -/
def Obligations.RowAndColumnMoves : Prop :=
  Sys2Proof.Claims.RowMovesAndReductions ∧ Sys2Proof.Claims.ColumnMovesAndReductions


/-- Float lanes (R39, R40, R53, R54, R58, R153, R154, R166): every enabled lane of the row of VADD, VSUB, VMUL, VFMA, VFMS, VSCA, VMIN and VMAX is that of R40, R58 and R154 on
its operands, with the random value of its lane under .rsr, and the row sets the flags of its enabled lanes together; VABS and VNEG change the sign bit of a lane that is no NaN
and set none. -/
def Sys2Proof.Claims.FloatRows : Prop :=
  ∀ (s : State) (c : Core) (i : Nat) (o : VOp) (r : Rm), s.now c = o.t + i → i < 16 →
    let A := fun j => laneOf (s.srcRow c o o.a i) j
    let B := fun j => laneOf (s.srcRow c o o.b i) j
    let C := fun j => laneOf (s.srcRow c o (o.b + 1) i) j
    let D := fun j => laneOf (s.srcRow c o o.d i) j
    let K := s.readK c o.k i
    let rv := fun j => rvOf (rsrBlock o.key o.n i j) 0
    let rows := fun (fn : VFn) (lat : Nat) (val : Nat → Lane × Flags) => o.fn = fn → RowLands s c o i lat K (fun j => (val j).1) (rowFlags K fun j => (val j).2)
    rows (.addF r) 20 (fun j => f32Add r (rv j) (A j) (B j)) ∧
    rows (.subF r) 20 (fun j => f32Add r (rv j) (A j) (f32Neg (B j))) ∧
    rows (.mulF r) 20 (fun j => f32Mul r (rv j) (A j) (B j)) ∧
    rows (.fma r) 22 (fun j => f32Fma r (rv j) (A j) (B j) (D j)) ∧
    rows (.fms r) 22 (fun j => f32Fma r (rv j) (f32Neg (A j)) (B j) (D j)) ∧
    rows .minF 18 (fun j => f32Least false (A j) (B j)) ∧
    rows .maxF 18 (fun j => f32Least true (A j) (B j)) ∧
    rows (.scaI r) 24 (fun j => f32Scale r (rv j) (D j) (B j) (C j) false false false (A j).msb (A j).toInt 0) ∧
    rows (.scaF r) 24 (fun j => f32Scale r (rv j) (D j) (B j) (C j) (f32Nan (A j)) (f32Sig (A j)) (f32Inf (A j)) (A j).msb (f32Mant (A j)) (f32Exp (A j))) ∧
    (o.fn = .absF → RowLands s c o i 18 K (fun j => if f32Nan (A j) = true then f32Canon else A j &&& 0x7FFFFFFF) 0) ∧
    (o.fn = .negF → RowLands s c o i 18 K (fun j => if f32Nan (A j) = true then f32Canon else f32Neg (A j)) 0)

/-- Conversions (R42, R47 to R50, R53, R54, R163 to R165): VCVT converts as many elements of a lane as both formats hold, each from and to its place, and 0 stands above them;
to and from I64 it works on column pairs; every lane is written, and the row sets the flags of all its elements. -/
def Sys2Proof.Claims.ConversionRows : Prop :=
  ∀ (s : State) (c : Core) (i : Nat) (o : VOp) (r : Rm) (dst src : Fmt) (sat : Bool), s.now c = o.t + i → i < 16 → o.fn = .cvt dst src r sat →
    let A := fun j => laneOf (s.srcRow c o o.a i) j
    let n := min (fmtPerLane src) (fmtPerLane dst)
    let rv := fun j e => if r = .rsr then rvOf (rsrBlock o.key o.n i j) e else 0
    (src ≠ .i64 → dst ≠ .i64 → ∃ (val : Nat → Lane) (f : Flags), RowLands s c o i 20 (BitVec.allOnes 64) val f ∧
      (∀ j e, j < 64 → e < n → ∃ y : Nat × Flags, y = cvt ((A j).toNat / 2 ^ (fmtWidth src * e) % 2 ^ fmtWidth src) src dst r (rv j e) sat ∧
        (val j).toNat / 2 ^ (fmtWidth dst * e) % 2 ^ fmtWidth dst = y.1 ∧ y.2 &&& ~~~f = 0) ∧
      (∀ j, j < 64 → (val j).toNat < 2 ^ (fmtWidth dst * n)) ∧
      (∀ b, f.getLsbD b = true → ∃ j e, j < 64 ∧ e < n ∧
        (cvt ((A j).toNat / 2 ^ (fmtWidth src * e) % 2 ^ fmtWidth src) src dst r (rv j e) sat).2.getLsbD b = true)) ∧
    (src = .i64 → dst ≠ .i64 → ∃ (val : Nat → Lane) (f : Flags), RowLands s c o i 20 (BitVec.allOnes 64) val f ∧
      ∀ j, j < 32 → ∃ y : Nat × Flags, y = cvt ((A (2 * j)).toNat + (A (2 * j + 1)).toNat * 2 ^ 32) .i64 dst r (rvOf (rsrBlock o.key o.n i (2 * j)) 0) sat ∧
        (val (2 * j)).toNat = y.1 ∧ val (2 * j + 1) = 0 ∧ y.2 &&& ~~~f = 0) ∧
    (src ≠ .i64 → dst = .i64 → ∃ (val : Nat → Lane) (f : Flags), RowLands s c o i 20 (BitVec.allOnes 64) val f ∧
      ∀ j, j < 32 → ∃ y : Nat × Flags, y = cvt ((A (2 * j)).toNat % 2 ^ fmtWidth src) src .i64 r (rvOf (rsrBlock o.key o.n i (2 * j)) 0) sat ∧
        (val (2 * j)).toNat + (val (2 * j + 1)).toNat * 2 ^ 32 = y.1 ∧ y.2 &&& ~~~f = 0)

/-- What one element converts to (R36, R37, R47 to R50): integers that fit are exact, others keep their low bits, or under .sat, and to TRN always, are clamped with SAT; a TRN
0b10 reads 0 with FMT; a float rounds to a float by R44 and to an integer by its mode, clamped with NV; a NaN gives the canonical NaN, or 0 where the
format has none, with NV there and for a signalling one; an infinity stays, or is clamped with NV. -/
def Sys2Proof.Claims.ConversionResults : Prop :=
  ∀ (src dst : Fmt) (rm : Rm) (rv x : Nat) (sat : Bool), x < 2 ^ fmtWidth src →
    let low := fun (v : Int) => (v % 2 ^ fmtWidth dst).toNat
    let v := decodeI src x
    let fits := fun (v : Int) => intMin dst ≤ v ∧ v ≤ intMax dst
    let nearest := fun (v : Int) => low (if v < intMin dst then intMin dst else intMax dst)
    let fm : Flags := if src = .trn ∧ x = 2 then Flags.fmt else 0
    let y := cvt x src dst rm rv sat
    (src.isFloat = false → dst.isFloat = false →
      (fits v → y = (low v, fm)) ∧
      (¬ fits v → sat = false → dst ≠ .trn → y = (low v, fm)) ∧
      (¬ fits v → sat = true ∨ dst = .trn → y = (nearest v, fm ||| Flags.sat))) ∧
    (src.isFloat = false → dst.isFloat = true → v ≠ 0 → ∃ z : Nat × Flags, z = rnd (decide (v < 0)) v.natAbs 0 dst rm rv sat ∧ y = (z.1, fm ||| z.2)) ∧
    (src.isFloat = false → dst.isFloat = true → v = 0 → y = (0, fm)) ∧
    (src.isFloat = true → ∀ (neg : Bool) (m : Nat) (e : Int), decodeF src x = .fin neg m e →
      (dst.isFloat = true → y = rnd neg m e dst rm rv sat) ∧
      (dst.isFloat = false → ∃ t : Int × Flags, t = rint neg m e rm rv ∧
        (fits t.1 → y = (low t.1, t.2)) ∧ (¬ fits t.1 → y = (nearest t.1, t.2 ||| Flags.nv)))) ∧
    (src.isFloat = true → ∀ sig : Bool, decodeF src x = .nan sig →
      (dst.isFloat = false ∨ fmtNan dst = none → y = (0, Flags.nv)) ∧
      (∀ n, dst.isFloat = true → fmtNan dst = some n → y = (n, if sig = true then Flags.nv else 0))) ∧
    (src.isFloat = true → ∀ neg : Bool, decodeF src x = .inf neg →
      let sign := if neg = true then 2 ^ (fmtWidth dst - 1) else 0
      (∀ n, dst.isFloat = true → fmtInf dst = some n → sat = false → y = (sign + n, 0)) ∧
      (dst.isFloat = true → fmtInf dst = none ∨ sat = true → y = (sign + fmtMaxCode dst, Flags.nv)) ∧
      (dst.isFloat = false → y = (low (if neg = true then intMin dst else intMax dst), Flags.nv)))

/-- Special functions of enabled lanes (R53, R54, R155, R176 to R182): VRND gives the integral value of R44 with the lane's sign; VRCPE and VRSQE the estimate of 1 ÷ a and 1 ÷ √a to
12 fraction bits; VRCPS and VRSQS one Newton step, rounded once; VEXPI a × 2^n; VEXPX the exponent and the significand; VFEXP 2^f and VLG2E the logarithm of the significand, each
within half a unit in the last place of F32 and what 2^−100 adds (the bits that the model computes, log entry 20); VRNG the words of its block. Zeros, infinities and NaNs are as
Tables 7.3 and 7.4 say. -/
def Sys2Proof.Claims.FunctionRows : Prop :=
  ∀ (s : State) (c : Core) (i : Nat) (o : VOp) (r : Rm), s.now c = o.t + i → i < 16 →
    let A := fun j => laneOf (s.srcRow c o o.a i) j
    let B := fun j => laneOf (s.srcRow c o o.b i) j
    let K := s.readK c o.k i
    let rv := fun j => rvOf (rsrBlock o.key o.n i j) 0
    let rows := fun (fn : VFn) (lat : Nat) (is : Nat → Lane × Flags → Prop) =>
      o.fn = fn → ∃ val : Nat → Lane × Flags, RowLands s c o i lat K (fun j => (val j).1) (rowFlags K fun j => (val j).2) ∧ ∀ j, j < 64 → is j (val j)
    let number := fun (a : Lane) => f32Nan a = false ∧ f32Inf a = false ∧ f32Zero a = false
    let nans := fun (a : Lane) (y : Lane × Flags) => f32Nan a = true → y = f32NaNs [a]
    let invalid : Lane × Flags := (f32Canon, Flags.nv)
    let size := fun (a : Lane) => |f32Value a|
    let two := fun (g : Int) => (2 : ℚ) ^ g
    let mantReal := fun (a : Lane) (E : Int) => ((size a * two (-E) : ℚ) : ℝ)
    rows (.rndF r) 20 (fun j y => nans (A j) y ∧ (f32Inf (A j) = true ∨ f32Zero (A j) = true → y = (A j, 0)) ∧
      (number (A j) → ∃ n : Int × Flags, n = rint (A j).msb (f32Mant (A j)).natAbs (f32Exp (A j)) r (rv j) ∧ y.2 = n.2 ∧
        y.1.msb = (A j).msb ∧ f32Nan y.1 = false ∧ f32Inf y.1 = false ∧ f32Value y.1 = n.1)) ∧
    rows .rcpe 20 (fun j y => nans (A j) y ∧ (f32Zero (A j) = true → y = (f32InfOf (A j).msb, Flags.dz)) ∧
      (f32Inf (A j) = true → y = (f32ZeroOf (A j).msb, 0)) ∧
      (number (A j) → ∃ (n : Nat) (g : Int), (g = -149 ∧ (size (A j))⁻¹ < two (-136) ∨ -149 < g ∧ two (g + 12) ≤ (size (A j))⁻¹ ∧ (size (A j))⁻¹ < two (g + 13)) ∧
        |n * two g - (size (A j))⁻¹| ≤ two (g - 1) ∧ (|n * two g - (size (A j))⁻¹| = two (g - 1) → n % 2 = 0) ∧
        y = f32Round (A j).msb (if (A j).msb = true then -(n : Int) else n) g .rne 0)) ∧
    rows .rsqe 20 (fun j y => nans (A j) y ∧ (f32Zero (A j) = true → y = (f32InfOf (A j).msb, Flags.dz)) ∧
      (f32Inf (A j) = true → y = if (A j).msb = true then invalid else (0, 0)) ∧
      (number (A j) → (A j).msb = true → y = invalid) ∧
      (number (A j) → (A j).msb = false → ∃ (n : Nat) (g : Int), two (2 * g + 24) ≤ (f32Value (A j))⁻¹ ∧ (f32Value (A j))⁻¹ < two (2 * g + 26) ∧ 0 < n ∧
        (2 * n - 1) ^ 2 * two (2 * g - 2) ≤ (f32Value (A j))⁻¹ ∧ (f32Value (A j))⁻¹ ≤ (2 * n + 1) ^ 2 * two (2 * g - 2) ∧
        ((f32Value (A j))⁻¹ = (2 * n - 1) ^ 2 * two (2 * g - 2) ∨ (f32Value (A j))⁻¹ = (2 * n + 1) ^ 2 * two (2 * g - 2) → n % 2 = 0) ∧
        y = f32Round false n g .rne 0)) ∧
    rows (.rcps r) 22 (fun j y => (f32Nan (A j) = true ∨ f32Nan (B j) = true → y = f32NaNs [A j, B j]) ∧
      (f32Nan (A j) = false → f32Nan (B j) = false → number (A j) ∧ number (B j) ∨ y = (B j, 0)) ∧
      (number (A j) → number (B j) → let e := f32Exp (A j) + f32Exp (B j); let q := min 0 e
        y = f32Round (r == .rdn) (f32Mant (B j) * (2 * 2 ^ (-q).toNat - f32Mant (A j) * f32Mant (B j) * 2 ^ (e - q).toNat)) (f32Exp (B j) + q) r (rv j))) ∧
    rows (.rsqs r) 22 (fun j y => (f32Nan (A j) = true ∨ f32Nan (B j) = true → y = f32NaNs [A j, B j]) ∧
      (f32Nan (A j) = false → f32Nan (B j) = false → number (A j) ∧ number (B j) ∨ y = (B j, 0)) ∧
      (number (A j) → number (B j) → let e := f32Exp (A j) + 2 * f32Exp (B j); let q := min 0 e
        y = f32Round (r == .rdn) (f32Mant (B j) * (3 * 2 ^ (-q).toNat - f32Mant (A j) * f32Mant (B j) ^ 2 * 2 ^ (e - q).toNat)) (f32Exp (B j) + q - 1) r (rv j))) ∧
    rows (.expi r) 19 (fun j y => nans (A j) y ∧ (f32Inf (A j) = true ∨ f32Zero (A j) = true → y = (A j, 0)) ∧
      (number (A j) → y = f32Round false (f32Mant (A j)) (f32Exp (A j) + (B j).toInt) r (rv j))) ∧
    rows .expxE 18 (fun j y => (f32Nan (A j) = true → y = (0, Flags.nv)) ∧ (f32Inf (A j) = true → y = (0x7FFFFFFF, Flags.nv)) ∧
      (f32Zero (A j) = true → y = (0x80000000, 0)) ∧
      (number (A j) → y.2 = 0 ∧ two y.1.toInt ≤ size (A j) ∧ size (A j) < two (y.1.toInt + 1))) ∧
    rows .expxM 18 (fun j y => nans (A j) y ∧ (f32Inf (A j) = true ∨ f32Zero (A j) = true → y = (A j, 0)) ∧
      (number (A j) → y.2 = 0 ∧ y.1.msb = (A j).msb ∧ f32Nan y.1 = false ∧ f32Inf y.1 = false ∧
        ∃ E : Int, 1 ≤ size y.1 ∧ size y.1 < 2 ∧ f32Value y.1 * two E = f32Value (A j))) ∧
    rows .fexp 24 (fun j y => nans (A j) y ∧ (f32Zero (A j) = true → y = (0x3F800000, 0)) ∧
      (f32Nan (A j) = false → f32Zero (A j) = false → (A j).msb = true ∨ 0x3F800000 ≤ (A j).toNat → y = invalid) ∧
      (0 < (A j).toNat → (A j).toNat < 0x3F800000 → y.2 = Flags.nx ∧ 1 ≤ f32Value y.1 ∧ f32Value y.1 < 2 ∧ y.1.toNat < 0x40000000 ∧
        |((f32Value y.1 : ℚ) : ℝ) - (2 : ℝ) ^ ((f32Value (A j) : ℚ) : ℝ)| ≤ 2⁻¹ ^ 24 + 2⁻¹ ^ 100)) ∧
    rows .lg2e 24 (fun j y => nans (A j) y ∧ (f32Inf (A j) = true ∨ f32Zero (A j) = true → y = invalid) ∧
      (number (A j) → ∃ E : Int, 1 ≤ size (A j) * two (-E) ∧ size (A j) * two (-E) < 2 ∧
        (size (A j) * two (-E) = 1 → y = (0, 0)) ∧
        (size (A j) * two (-E) ≠ 1 → y.2 = Flags.nx ∧ y.1.toNat < 0x3F800000 ∧
          |((f32Value y.1 : ℚ) : ℝ) - Real.logb 2 (mantReal (A j) E)| ≤ Real.logb 2 (mantReal (A j) E) * 2⁻¹ ^ 24 + 2⁻¹ ^ 100))) ∧
    rows .rngN 26 (fun j y => y = ((rngblk o.key (BitVec.ofNat 128 (o.n.toNat * 2 ^ 64 + 2 ^ 32 + 16 * i + j / 4))).extractLsb' (32 * (j % 4)) 32, 0)) ∧
    rows .rngF 26 (fun j y => y.2 = 0 ∧ y.1.toNat < 0x3F800000 ∧ f32Value y.1 =
      (2 * (((rngblk o.key (BitVec.ofNat 128 (o.n.toNat * 2 ^ 64 + 2 ^ 32 + 16 * i + j / 4))).extractLsb' (32 * (j % 4)) 32).toNat / 2 ^ 9 : Nat) + 1) * two (-24))

/-- The fixed pairwise tree of R172: node m of level l of the inputs x, an ABSENT one passing its partner through; with the flags of its nodes. -/
def Sys2Proof.Claims.pairwise (op : Lane → Lane → Lane × Flags) (x : Nat → Option Lane) : Nat → Nat → Option Lane × Flags
  | 0, m => (x m, 0)
  | l + 1, m =>
    let a := pairwise op x l (2 * m)
    let b := pairwise op x l (2 * m + 1)
    match a.1, b.1 with
    | some u, some v => (some (op u v).1, a.2 ||| b.2 ||| (op u v).2)
    | some u, none => (some u, a.2 ||| b.2)
    | none, w => (w, a.2 ||| b.2)
/-- The float reduction of the inputs x by a tree of l levels (R172, R173): a NaN gives the canonical one, and a signalling NaN among the inputs of a largest or smallest sets NV. -/
def Sys2Proof.Claims.floatReduces (op : Lane → Lane → Lane × Flags) (sum : Bool) (x : Nat → Option Lane) (l : Nat) (v : Lane) (f : Flags) : Prop :=
  let y := pairwise op x l 0
  (∀ w, y.1 = some w → v = if f32Nan w = true then f32Canon else w) ∧
  (sum = true → f = y.2) ∧
  (sum = false → f = if (List.range (2 ^ l)).any (fun j => (x j).any f32Sig) = true then Flags.nv else 0)
/-- Float reductions (R172, R173): where the enabled lanes and the mask are defined, every enabled lane of a row of VREDR, or of a column of VREDC, is that of the tree over the
enabled lanes of its row or column, rounded to nearest at each node of SUM. -/
def Sys2Proof.Claims.FloatReductions : Prop :=
  (∀ (s : State) (c : Core) (i : Nat) (o : VOp), s.now c = o.t + i → i < 16 → s.srcUndefined c o i = false →
    let K := s.readK c o.k i
    let x := fun j => if K.getLsbD j = true then some (laneOf (s.srcRow c o o.a i) j) else none
    let row := fun (fn : VFn) (op : Lane → Lane → Lane × Flags) (sum : Bool) =>
      o.fn = fn → ∃ (v : Lane) (f : Flags), RowLands s c o i 24 K (fun _ => v) f ∧ floatReduces op sum x 6 v f
    row .redrSumF (f32Add .rne 0) true ∧ row .redrMaxF (f32Least true) false ∧ row .redrMinF (f32Least false) false) ∧
  (∀ (a : Nat → Row) (k : Nat → MaskRow) (i j : Nat), i < 16 → j < 64 →
    let x := fun h => if (k h).getLsbD j = true then some (laneOf (a h) j) else none
    let column := fun (fn : VFn) (op : Lane → Lane → Lane × Flags) (sum : Bool) => ∃ f : Flags,
      floatReduces op sum x 4 (laneOf (colRow fn i a k).2 j) f ∧ f &&& ~~~colFlags fn a k = 0 ∧ (colRow fn i a k).1 = k i
    column .redcSumF (f32Add .rne 0) true ∧ column .redcMaxF (f32Least true) false ∧ column .redcMinF (f32Least false) false)

/-- Rows of float operations, conversions, special functions, random numbers and float reductions. -/
def Obligations.FloatRows : Prop :=
  Sys2Proof.Claims.FloatRows ∧ Sys2Proof.Claims.ConversionRows ∧ Sys2Proof.Claims.ConversionResults ∧ Sys2Proof.Claims.FunctionRows ∧ Sys2Proof.Claims.FloatReductions


/-- A code of a float format that is neither infinite nor NaN. -/
def Sys2Proof.Claims.isFinite (f : Fmt) (x : Nat) : Prop := x < 2 ^ fmtWidth f ∧ x % 2 ^ (fmtWidth f - 1) ≤ fmtMaxCode f

/-- Rounding (R44): a value that a format represents rounds to its own code, without a flag, in every mode; under
.rne, where no overflow is flagged, the result is a finite code and no finite code of the format lies closer to the exact value; and rounding to an integer gives an integer that
is its own result, or else sets NX and gives one of the two neighbours that the mode selects. -/
def Obligations.RoundToNearest : Prop :=
  (∀ f : Fmt, f.isFloat = true →
    (∀ (x : Nat) (neg : Bool) (m : Nat) (e : Int) (rm : Rm) (rv : Nat) (sat : Bool), isFinite f x → decodeF f x = .fin neg m e →
      rv < 2 ^ 16 → rnd neg m e f rm rv sat = (x, 0)) ∧
    (∀ (neg : Bool) (m : Nat) (e : Int) (rv : Nat) (sat : Bool) (y : Nat), 0 < m → isFinite f y →
      let r := rnd neg m e f .rne rv sat
      r.2.getLsbD 2 = false →
      isFinite f r.1 ∧ |valueOf (decodeF f r.1) - valueOf (.fin neg m e)| ≤ |valueOf (decodeF f y) - valueOf (.fin neg m e)|)) ∧
  (∀ (neg : Bool) (m : Nat) (e : Int) (rm : Rm) (rv : Nat),
    let x := valueOf (.fin neg m e)
    let n := rint neg m e rm rv
    ((∃ z : Int, x = z) → (n.1 : ℚ) = x ∧ n.2 = 0) ∧
    ((∀ z : Int, x ≠ z) → n.2 = Flags.nx ∧ |(n.1 : ℚ) - x| < 1 ∧ (rm = .rne → |(n.1 : ℚ) - x| ≤ 2⁻¹ ∧ (|(n.1 : ℚ) - x| = 2⁻¹ → n.1 % 2 = 0)) ∧
      (rm = .rtz → |(n.1 : ℚ)| < |x|) ∧ (rm = .rup → x < n.1) ∧ (rm = .rdn → (n.1 : ℚ) < x)))


/-! ## The M slot -/

/-- Leases and command registers (R186, R188, R191 to R194): MLEASE requests from the next tick when the core neither holds nor requests;
MREL withdraws a request, fixes the end of a held lease at the later of the next tick and the last accepted completion, and else is only charged;
MSET and MSETI write the low 32 bits of x[A] and IMM13 to a shadow register, and trap ISSUE with INFO 5 while the shadow set is frozen. -/
def Obligations.LeasesAndCommandRegisters : Prop :=
  ∀ (g : Guard) (n a i : Nat) (s : State), s.here.guardOn g = true →
    let u := s.unit (unitOf s.cur.core)
    let frozen := ∃ y ∈ s.here.cmds, y.t < s.now s.here ∧ s.now s.here < y.s
    (s.here.lease = 0 → exec (.mlease g) s = .next (s.setHere { issued s 1 with lease := 1, leaseFrom := s.now s.here + 1 })) ∧
    (s.here.lease ≠ 0 → exec (.mlease g) s = .next (s.setHere (issued s 1))) ∧
    (s.here.lease = 0 → exec (.mrel g) s = .next (s.setHere (issued s 1))) ∧
    (s.here.lease = 1 → exec (.mrel g) s = .next (s.setHere { issued s 1 with lease := 0, mrel := false })) ∧
    (s.here.lease = 2 → u.relAt = none → ∃ t, exec (.mrel g) s = .next t ∧ t.here = issued s 1 ∧
      t.unit (unitOf s.cur.core) = { u with relAt := some (s.now s.here + 1) } ∧
      (u.cmds < 64 → (t.unit (unitOf s.cur.core)).leaseEnd = min (u.g + 16384) (max (s.now s.here + 1) u.clast)) ∧ t.mem = s.mem) ∧
    (¬ frozen → n < 32 → i < 2 ^ 13 →
      (∃ t, exec (.mset g n a) s = .next t ∧ onlyHere s t ∧ t.here = { issued s 1 with shadow := t.here.shadow } ∧
        creg t.here.shadow n = (s.readX s.here a).toNat % 2 ^ 32 ∧ ∀ m, m ≠ n → creg t.here.shadow m = creg s.here.shadow m) ∧
      (∃ t, exec (.mseti g n i) s = .next t ∧ onlyHere s t ∧ t.here = { issued s 1 with shadow := t.here.shadow } ∧
        creg t.here.shadow n = i ∧ ∀ m, m ≠ n → creg t.here.shadow m = creg s.here.shadow m)) ∧
    (frozen → exec (.mset g n a) s = .next (s.trapHere 2 5) ∧ exec (.mseti g n i) s = .next (s.trapHere 2 5))

/-- Matrix commands (R192, R195, R198 to R200): with no command pending, the lease held, room in it, fewer than 64 commands and the checks of
Table 8.7 passed, each is accepted with the shadow registers, starts at the later of the next tick and the last completion, runs for
the duration of Table 8.5, and is charged for every tick of it. -/
def Sys2Proof.Claims.MatrixCommandsAreAccepted : Prop :=
  ∀ (g : Guard) (d a z p : Nat) (wf af : Fmt) (s : State), s.here.guardOn g = true → (∀ y ∈ s.here.cmds, y.s ≤ s.now s.here) →
    s.here.lease = 2 →
    let u := s.unit (unitOf s.cur.core)
    let reg := fun n => creg s.here.shadow n
    let start := max (s.now s.here + 1) u.clast
    let accepted := fun (i : Instr) (op : MOp) (n eu : Nat) (load : Option (Nat × Fmt)) =>
      start + n ≤ u.g + 16384 → u.cmds < 64 → op.limitsOk s.here.shadow = true → op.rangeOk s.here.shadow = true →
      ∃ (t : State) (y : Cmd), exec i s = .next t ∧ t.here.cmds = s.here.cmds ++ [y] ∧
        y.num = u.cmds + 1 ∧ y.op = op ∧ y.t = s.now s.here ∧ y.s = start ∧ y.c = start + n ∧ y.regs = s.here.shadow ∧
        t.unit (unitOf s.cur.core) = { u with cmds := u.cmds + 1, clast := start + n, wload := load } ∧
        t.here.ecnt = addEnergy s.here.ecnt (n * eu) ∧ t.here.x = s.here.x ∧ t.here.v = s.here.v ∧ t.here.z = s.here.z ∧ t.mem = s.mem ∧
        ∀ j, j ≠ s.cur.core → t.core j = s.core j
    let lines := reg 0x01 * lineCount (reg 0x02) wf
    accepted (.mwld g wf) (.wld wf) lines 16 (some (s.here.seq + 1, wf)) ∧
    accepted (.mwlda g wf) (.wldp 0 wf) lines 16 (some (s.here.seq + 1, wf)) ∧
    accepted (.mwldb g wf) (.wldp 1 wf) lines 16 (some (s.here.seq + 1, wf)) ∧
    (u.wload.map (·.2) = some wf →
      accepted (.mma g wf af z) (.mma wf af z false) (reg 0x00 * rowTicks wf af) (if ssa wf = true then 64 else 80) u.wload ∧
      accepted (.mmaAcc g wf af z) (.mma wf af z true) (reg 0x00 * rowTicks wf af) (if ssa wf = true then 64 else 80) u.wload) ∧
    accepted (.mzero g z) (.zero z) 16 16 u.wload ∧
    accepted (.mdrv g d z p) (.drv d z p) 16 16 u.wload ∧
    accepted (.mdrs g a z) (.drs (s.readX s.here a).toNat z) 1032 16 u.wload

/-- Rejected commands (R192, R200, Table 8.7): a second pending command raises ISSUE with INFO 5; else the lowest code of the table raises LEASE, cause 0x0B, with the
code in INFO[15:8] and the number that the command would have had in the lease, 0 without one, in INFO[7:0]: 1 without the lease, 2 past its end, 3 beyond
the 64th command, 4 an MMA without weights of its format, 5 a register that the command uses outside its limits, 6 an address out of the own scratchpad. -/
def Sys2Proof.Claims.MatrixCommandsAreRejected : Prop :=
  ∀ (g : Guard) (d a z p : Nat) (wf af : Fmt) (s : State), s.here.guardOn g = true →
    let u := s.unit (unitOf s.cur.core)
    let reg := fun n => creg s.here.shadow n
    let start := max (s.now s.here + 1) u.clast
    let pending := ∃ y ∈ s.here.cmds, s.now s.here < y.s
    let lines := reg 0x01 * lineCount (reg 0x02) wf
    let x := (s.readX s.here a).toNat
    let kn := 1 ≤ reg 0x01 ∧ reg 0x01 ≤ 128 ∧ 4 ≤ reg 0x02 ∧ reg 0x02 ≤ 128 ∧ reg 0x02 % 4 = 0
    let between := fun (n lo hi : Nat) => lo ≤ reg n ∧ reg n ≤ hi
    let mmaRegs := kn ∧ between 0x00 1 128 ∧ reg 0x03 ≤ 127 ∧ reg 0x03 + reg 0x00 ≤ 128 ∧ between 0x07 1 65535 ∧ between 0x08 1 (2 ^ 21 - 1) ∧
      between 0x09 1 4096 ∧ between 0x0A 1 4096 ∧ between 0x0B 1 128 ∧ (af = .f6 → reg 0x0B % 4 = 0) ∧ between 0x0C 1 16 ∧ between 0x0D 1 16 ∧
      between 0x0E 1 8 ∧ between 0x0F 1 8 ∧ between 0x10 1 8 ∧ between 0x11 1 8 ∧ reg 0x12 ≤ 15 ∧ reg 0x13 ≤ 15 ∧ reg 0x14 ≤ 65535 ∧
      between 0x15 1 4096 ∧ reg 0x16 ≤ 4095 ∧ reg 0x17 ≤ 4095 ∧ reg 0x01 = reg 0x0C * reg 0x0D * reg 0x0B
    let mmaReads := ∀ m k, m < reg 0x00 → k < reg 0x01 → ∀ b ∈ aelemBytes s.here.shadow af m k, b < 2 ^ 21
    let rejected := fun (i : Instr) (n : Nat) (loaded regs addrs : Prop) =>
      let error := fun (code num : Nat) => exec i s = .next (s.trapHere 0x0B (code * 256 + num))
      (pending → exec i s = .next (s.trapHere 2 5)) ∧
      (¬ pending → s.here.lease ≠ 2 → error 1 0) ∧
      (¬ pending → s.here.lease = 2 → u.g + 16384 < start + n → error 2 (u.cmds + 1)) ∧
      (¬ pending → s.here.lease = 2 → start + n ≤ u.g + 16384 → 64 ≤ u.cmds → error 3 (u.cmds + 1)) ∧
      (¬ pending → s.here.lease = 2 → start + n ≤ u.g + 16384 → u.cmds < 64 → ¬ loaded → error 4 (u.cmds + 1)) ∧
      (¬ pending → s.here.lease = 2 → start + n ≤ u.g + 16384 → u.cmds < 64 → loaded → ¬ regs → error 5 (u.cmds + 1)) ∧
      (¬ pending → s.here.lease = 2 → start + n ≤ u.g + 16384 → u.cmds < 64 → loaded → regs → ¬ addrs → error 6 (u.cmds + 1))
    let weights := u.wload.map (·.2) = some wf
    rejected (.mwld g wf) lines True (kn ∧ reg 0x04 % 64 = 0 ∧ reg 0x05 % 64 = 0)
      (reg 0x04 + (reg 0x01 - 1) * reg 0x05 + 64 * lineCount (reg 0x02) wf ≤ 2 ^ 21) ∧
    rejected (.mwlda g wf) lines True kn True ∧
    rejected (.mwldb g wf) lines True kn True ∧
    rejected (.mma g wf af z) (reg 0x00 * rowTicks wf af) weights mmaRegs mmaReads ∧
    rejected (.mmaAcc g wf af z) (reg 0x00 * rowTicks wf af) weights mmaRegs mmaReads ∧
    rejected (.mzero g z) 16 True True True ∧
    rejected (.mdrv g d z p) 16 True True True ∧
    rejected (.mdrs g a z) 1032 True (reg 0x18 % 64 = 0 ∧ 512 ≤ reg 0x18) (x % 64 = 0 ∧ x + 127 * reg 0x18 + 512 ≤ 2 ^ 21)

/-- Matrix commands are accepted in their order, or rejected with their fault. -/
def Obligations.MatrixCommands : Prop :=
  Sys2Proof.Claims.MatrixCommandsAreAccepted ∧ Sys2Proof.Claims.MatrixCommandsAreRejected


/-- A row of an MMA on the sign-select array (R56, R198): element n of the tile row is, modulo 2^32, the sum over K of weight times activation,
plus the old element for MMA.ACC; elements at and above NCOL keep their contents, and no flag is set. -/
def Obligations.MatrixRow : Prop :=
  ∀ (c : Core) (y : Cmd) (w : Tab Row) (wf af : Fmt) (z m n : Nat) (acc : Bool), ssa wf = true → n < 128 → creg y.regs 0x02 ≤ 128 →
    let old := zElem (c.zRow z (creg y.regs 0x03 + m)) n
    let sum := ((List.range (creg y.regs 0x01)).map fun k => decodeI wf (wCode w k n) * decodeI af (aelem y af m k)).sum
    (mmaRow c y w wf af z acc m).2 = 0 ∧
    zElem (mmaRow c y w wf af z acc m).1 n =
      (if n < creg y.regs 0x02 then BitVec.ofInt 32 ((if acc = true then (old.toNat : Int) else 0) + sum) else old)

/-! ## The copy slots -/

/-- Copies and messages (R205, R210, R211, R216, R218, R219): an instruction that passes its checks enters the copy queue of the stream of
its slot with a snapshot of its program, its parameter x[A] and its ticks, charged for every beat; nothing but the core changes. CPY is visible at
t + TIME; CPYT takes V and N from registers, and without V always traps; CPL, SEND and RECV start at t + TIME, but after t. -/
def Sys2Proof.Claims.CopiesEnterTheQueue : Prop :=
  ∀ (g : Guard) (p a v n time : Nat) (vabs nabs : Bool) (s : State), s.here.guardOn g = true →
    let st := s.cur.slot - 6
    let t0 := s.now s.here
    let x := s.here.stream st
    let w := s.readX s.here a
    let dist := if w.toNat / 256 % 8 = s.here.die then 256 else 512
    let opTick := fun (r : Nat) (abs : Bool) => if abs = true then (s.readX s.here r).toNat else t0 + (s.readX s.here r).toNat
    let enters := fun (i : Instr) (kind : CopyKind) (vis first dist : Nat) (hasV : Bool) (eu : Copy → Nat) =>
      let asked := newCopy s.here st t0 kind p w (if kind = .timed then vis else if kind = .recv then first else 0) first dist
      s.copyTrap s.cur.core s.here st t0 asked hasV = none →
      ∃ (t : State) (y : Copy), exec i s = .next t ∧ onlyHere s t ∧ (t.here.stream st).copies = (x.prune t0).copies ++ [y] ∧
        y.kind = kind ∧ y.prog = p ∧ y.param = w ∧ y.itick = t0 ∧ y.r0min = first ∧ y.n = asked.n ∧
        (∀ f, y.f f = (Tab.get (copyReset f) (x.snapshot p) f).toNat) ∧
        (kind = .timed → y.v = vis) ∧ (x.xmark = none → y.r0 = some first ∧ y.v = vis) ∧
        t.here.ecnt = addEnergy s.here.ecnt (y.n * eu asked) ∧ t.here.x = s.here.x ∧ t.here.p = s.here.p ∧ t.here.v = s.here.v
    let costlier := fun (y : Copy) => max (endEnergy s.here st y false) (endEnergy s.here st y true)
    enters (.cpy g p a time) .timed (t0 + time) (t0 + 1) 12 true costlier ∧
    (v ≠ 0 → n ≠ 0 → enters (.cpyt g p a v n vabs nabs) .timed (opTick v vabs) (max (t0 + 1) (opTick n nabs)) 12 true costlier) ∧
    (v ≠ 0 → n = 0 → enters (.cpyt g p a v n vabs nabs) .timed (opTick v vabs) (t0 + 1) 12 true costlier) ∧
    (∃ cause info, exec (.cpyt g p a 0 n vabs nabs) s = .next (s.trapHere cause info)) ∧
    enters (.cpl g p a time) .cpl (max (t0 + 1) (t0 + time) + 12) (max (t0 + 1) (t0 + time)) 12 true (fun _ => 8) ∧
    enters (.send g p a time) .send (t0 + max 1 time + dist) (t0 + max 1 time) dist true
      (fun _ => if w.toNat / 256 % 8 ≠ s.here.die then 64 else if clusterOf (w.toNat % 256) = clusterOf s.cur.core then 8 else 24) ∧
    enters (.recv g p a time) .recv (t0 + max 1 time) (t0 + max 1 time) 12 true (fun _ => 8)

/-- Programs and marks (R209, R217): CPROG and CPROGI write one field of one program of their stream from x[A], or IMM11 sign-extended, and no
other; XMARK marks the stream at its issue tick. -/
def Sys2Proof.Claims.CopyPrograms : Prop :=
  ∀ (g : Guard) (p a f i : Nat) (s : State), s.here.guardOn g = true → p < 32 → f < 64 → i < 2 ^ 11 →
    let st := s.cur.slot - 6
    let field := fun (c : Core) (p f : Nat) => Tab.get (copyReset f) (c.stream st).progs (64 * p + f)
    let writes := fun (ins : Instr) (v : Word) =>
      ∃ t, exec ins s = .next t ∧ onlyHere s t ∧ field t.here p f = v ∧
        (∀ p' f', p' < 32 → f' < 64 → (p', f') ≠ (p, f) → field t.here p' f' = field s.here p' f') ∧
        (t.here.stream st).copies = (s.here.stream st).copies ∧ t.here.x = s.here.x ∧ t.here.ecnt = addEnergy s.here.ecnt 1
    writes (.cprog g p a f) (s.readX s.here a) ∧
    writes (.cprogi g p f i) (BitVec.ofInt 64 (signedField 11 i)) ∧
    (∃ t m, exec (.xmark g) s = .next t ∧ onlyHere s t ∧ (t.here.stream st).xmark = some m ∧ m.at' = s.now s.here ∧
      (t.here.stream st).copies = (s.here.stream st).copies ∧ t.here.reqs = s.here.reqs ∧ t.here.x = s.here.x)

/-- Copies enter the queue of their stream, and programs take their fields. -/
def Obligations.CopiesEnterTheQueue : Prop :=
  Sys2Proof.Claims.CopiesEnterTheQueue ∧ Sys2Proof.Claims.CopyPrograms


/-- A full copy queue (R211): a copy or a message into a stream whose queue holds 16 raises ISSUE with INFO 6 for CA and 7 for CB. -/
def Sys2Proof.Claims.FullCopyQueueTraps : Prop :=
  ∀ (g : Guard) (p a v n time : Nat) (vabs nabs : Bool) (s : State), s.here.guardOn g = true → s.cur.slot = 6 ∨ s.cur.slot = 7 →
    16 ≤ ((s.here.stream (s.cur.slot - 6)).copies.filter fun y => y.queued (s.now s.here)).length →
    let traps := fun (i : Instr) => exec i s = .next (s.trapHere 2 s.cur.slot)
    traps (.cpy g p a time) ∧ traps (.cpyt g p a v n vabs nabs) ∧ traps (.cpl g p a time) ∧ traps (.send g p a time) ∧
    traps (.recv g p a time) ∧ traps (.sealCopy g a) ∧ traps (.unsealCopy g a) ∧ traps (.scrubCopy g a)

/-- A busy row path and a full copy queue trap with ISSUE (R135, R211). -/
def Obligations.BusyPathsTrap : Prop :=
  Sys2Proof.Claims.RowPathBusyTraps ∧ Sys2Proof.Claims.FullCopyQueueTraps


/-- A SEAL, UNSEAL or SCRUB as it enters the queue at issue: its descriptor, at x[A] = w, is still to be checked, and its beats and release ticks are
those of the descriptor as it stands (log entry 18). -/
def Sys2Proof.Claims.sealAsked (s : State) (kind : CopyKind) (w : Word) : Copy :=
  let t0 := s.now s.here
  let y : Copy := { newCopy s.here (s.cur.slot - 6) t0 kind 0 w 0 (t0 + 1) 12 with fields := [], n := 0, v := t0 + 4, unchecked := true }
  y.foresee (s.line (padKey s.cur.core w.toNat)).toNat
/-- Tensor and seal instructions (R255, R256, R336, R338): on a bound tensor index TBUMP, TCOMMIT and TDIG put their effect on its way for tick
t + 512, KROT always, and on an unbound one they raise TENSOR, cause 0x0C, with INFO 0; SEAL, UNSEAL and SCRUB with room in the
queue, no shared tick of the release track and an aligned x[A] in the own scratchpad enter the queue, their descriptor to be read within 4 ticks. -/
def Obligations.TensorAndSealOperations : Prop :=
  ∀ (g : Guard) (i a : Nat) (s : State), s.here.guardOn g = true →
    let st := s.cur.slot - 6
    let x := s.here.stream st
    let t0 := s.now s.here
    let w := s.readX s.here a
    let waits := fun (ins : Instr) (op eu : Nat) (b : Option RangeBind) =>
      ∃ (t : State) (e : TEffect), exec ins s = .next t ∧ (t.here.stream st).effects = x.effects ++ [e] ∧ e.op = op ∧ e.at' = t0 + 512 ∧
        e.bind = b ∧ e.asid = s.here.asid ∧ t.here.ecnt = addEnergy s.here.ecnt eu ∧ t.here.x = s.here.x ∧ t.mem = s.mem ∧
        ∀ j, j ≠ s.cur.core → t.core j = s.core j
    let queues := fun (ins : Instr) (kind : CopyKind) =>
      let y := sealAsked s kind w
      (x.copies.filter fun z => z.queued t0).length < 16 → (∀ z ∈ x.copies, z.queued t0 = true → z.clash y = false) →
      w.toNat % 64 = 0 → w.toNat + 64 ≤ 2 ^ 21 →
      ∃ t : State, exec ins s = .next t ∧ onlyHere s t ∧ (t.here.stream st).copies = (x.prune t0).copies ++ [y] ∧
        y.kind = kind ∧ y.param = w ∧ y.itick = t0 ∧ t.here.ecnt = addEnergy s.here.ecnt (sealEnergy s.here st y) ∧
        (∃ r ∈ t.here.reqs, r.kind = .desc st y.id ∧ r.pad = s.cur.core ∧ r.addr = w.toNat ∧ r.e = some t0 ∧ r.span = 4) ∧ t.here.x = s.here.x
    (∀ b, Tab.find x.rb i = some b →
      waits (.tbump g i) 0 1 (some b) ∧ waits (.tcommit g i) 1 1 (some b) ∧ waits (.tdig g i) 2 (1 + 40 * (b.limit / 64)) (some b)) ∧
    waits (.krot g) 3 1 none ∧
    (Tab.find x.rb i = none → exec (.tbump g i) s = .next (s.trapHere 0x0C 0) ∧ exec (.tcommit g i) s = .next (s.trapHere 0x0C 0) ∧
      exec (.tdig g i) s = .next (s.trapHere 0x0C 0)) ∧
    queues (.sealCopy g a) .seal ∧ queues (.unsealCopy g a) .unseal ∧ queues (.scrubCopy g a) .scrub

/-! ## Events of the two clocks -/

/-- Partition p reads as q' afterwards and every other partition as before. -/
def Sys2Proof.Claims.partBecomes (s t : State) (p : Nat) (q' : Part) : Prop :=
  Tab.find t.parts p = some q' ∧ ∀ j, j ≠ p → Tab.find t.parts j = Tab.find s.parts j
/-- What lies outside the partitions is as before. -/
def Sys2Proof.Claims.restKept (s t : State) : Prop :=
  t.mem = s.mem ∧ t.cores = s.cores ∧ t.units = s.units ∧ t.dies = s.dies ∧ t.wtime = s.wtime ∧ t.servo = s.servo
/-- Context a of partition p reads as x afterwards. -/
def Sys2Proof.Claims.ctxBecomes (t : State) (p a : Nat) (x : Ctx) : Prop := t.ctx p a = some x

/-- Holds (R28 to R30, R32, R239): a request raised at tick e has hold tick e + 192; requests whose hold tick has come hold the partition, and
no core of it runs; 64 wall ticks after the last cause clears it resumes, each HELD core RUNNING again at the same schedule tick; the debugger
clears cause 5, which no one raises while the partition is LOCKED, and the end of the actions of a fault clears cause 6; after a halt by BUDGET alone with refills left, BUDGET is refilled and the stationmaster resumes the
context 1,024 ticks on. -/
def Obligations.HoldEvents : Prop :=
  ∀ (p a k w : Nat) (s : State) (q : Part), Tab.find s.parts p = some q →
    let lastCleared := fun (c : Nat) (q' : Part) =>
      (∀ r ∈ q'.causes, r.cause = c → r.cleared = true) ∧
      (q.held = true → q.resumeAt = none → (∀ r ∈ q.causes, r.cause = c ∨ r.cleared = true) → q'.resumeAt = some (s.wtime + 64))
    (∀ cause, 1 ≤ cause → cause ≤ 6 → (cause = 5 → q.unlocked = true) → ∃ t, exec (.holdRequest p cause) s = .next t ∧
      partBecomes s t p { q with reqs := q.reqs ++ [⟨cause, q.stime + 192, false, 0⟩] } ∧ restKept s t) ∧
    (q.unlocked = false → exec (.holdRequest p 5) s = .next s) ∧
    (q.held = false → (∃ r ∈ q.reqs, r.h ≤ q.stime) → ∃ t q', exec (.holdTakesEffect p) s = .next t ∧ Tab.find t.parts p = some q' ∧
      q'.held = true ∧ q'.causes = q.causes ++ q.reqs.filter (fun r => decide (r.h ≤ q.stime)) ∧ q'.stime = q.stime ∧
      q'.holdCount = min (2 ^ 32 - 1) (q.holdCount + 1) ∧ (∀ j, (t.core j).part = p → (t.core j).st ≠ .running) ∧
      ((∀ e ∈ q.ctxs, e.2.halt = none) → (∀ r ∈ q.reqs, r.h ≤ q.stime → r.cause ≠ 4) → t.mem = s.mem ∧ partBecomes s t p q')) ∧
    ((∀ r ∈ q.reqs, q.stime < r.h) → exec (.holdTakesEffect p) s = .next s) ∧
    (q.held = true → q.resumeAt = some w → w ≤ s.wtime → ∃ t q', exec (.holdResume p) s = .next t ∧ partBecomes s t p q' ∧
      (q.pend = none → q' = { q with held := false, causes := [], resumeAt := none, t0 := q.stime, w0 := s.wtime }) ∧
      (∀ a, q.pend = some a → a ≤ q.stime →
        q' = { q with held := false, causes := [], resumeAt := none, t0 := q.stime, w0 := s.wtime, rate := q.next, pend := none }) ∧ t.mem = s.mem ∧
      ∀ j, t.core j = if (s.core j).part = p ∧ (s.core j).st = .held then { s.core j with st := .running } else s.core j) ∧
    (∃ t q', exec (.debuggerResume p) s = .next t ∧ partBecomes s t p q' ∧ restKept s t ∧ (∀ r ∈ q'.reqs, r.cause ≠ 5) ∧ lastCleared 5 q') ∧
    ((∀ e ∈ q.ctxs, e.2.halt = none) → q.held = true →
      ∃ t q', exec (.faultActionsComplete p) s = .next t ∧ partBecomes s t p q' ∧ restKept s t ∧ lastCleared 6 q') ∧
    (∀ (x : Ctx) (h : Halt) (r : StopRec), q.ctxs = [(a, x)] → x.halt = some h → h.h = 0 → h.cores = [k] → x.st = .halted → x.armed = none →
      x.stops = [(k, r)] → r.kind = 1 → r.core = k → r.trap.cause = 6 → 0 < x.rcount → (∃ e, h.events = [(k, 1, e)]) →
      (∀ d ∈ (s.core k).due, d.halts = false) →
      ∃ t, exec (.faultActionsComplete p) s = .next t ∧ t.core k = { s.core k with budget := x.refill } ∧ (∀ j, j ≠ k → t.core j = s.core j) ∧
        (∃ x', ctxBecomes t p a x' ∧ x'.rcount = x.rcount - 1 ∧ x'.halt = none) ∧ t.agenda = .stationmasterResume p a :: s.agenda) ∧
    (∀ x, Tab.find q.ctxs a = some x → x.st = .halted → x.spoiled = false → ∃ t x', exec (.stationmasterResume p a) s = .next t ∧ ctxBecomes t p a x' ∧
      x'.st = .active ∧ x'.resumeP = some (q.stime + 1024) ∧ restKept s t)

/-- Rates, the governor and the servo (R19, R21, R22, R31): an announced step takes effect at its tick; above its limit a partition's step goes
down by one, or at 4 a power event is raised, and after four windows below 95 % it goes up (from NEXT, at multiples of 16,384 of WTIME: the model's choices, log entry 19); a limit
that the host driver has set holds from the next window on; the first lock steps WTIME forward only before the first partition; the servo's states follow Table 1.4, and its source is the first of the order that is present. -/
def Obligations.RateAndServoEvents : Prop :=
  ∀ (p : Nat) (s : State) (q : Part), Tab.find s.parts p = some q →
    (∀ a, q.held = false → q.pend = some a → a ≤ q.stime → ∃ t, exec (.rateChangeEffect p) s = .next t ∧
      partBecomes s t p { q with rate := q.next, pend := none, t0 := q.stime, w0 := s.wtime } ∧ restKept s t) ∧
    (∀ (watts : List Nat), ∃ t q', exec (.governorWindow watts ⟨[], []⟩) s = .next t ∧ Tab.find t.parts p = some q' ∧ t.mem = s.mem ∧
      t.cores = s.cores ∧ q'.rate = q.rate ∧
      (s.wtime % 16384 = 0 → q.limit < watts.getD p 0 → 4 < q.next → q'.next = q.next - 1 ∧ (q.held = false → q.pend = none → q'.pend = some (q.stime + 192))) ∧
      (s.wtime % 16384 = 0 → q.limit < watts.getD p 0 → q.next ≤ 4 → q'.next = q.next ∧ q'.overLimit = true ∧ q'.powerEvents = q.powerEvents + 1) ∧
      (s.wtime % 16384 = 0 → watts.sum ≤ 2400 → 100 * watts.getD p 0 < 95 * q.limit → 3 ≤ q.calm → q.next < 16 → q'.next = q.next + 1 ∧ q'.calm = 0)) ∧
    (∀ watts hot, s.wtime % 16384 ≠ 0 → exec (.governorWindow watts ⟨hot, []⟩) s = .next s) ∧
    (∀ (watts : List Nat) (L : Nat), ∃ t q', exec (.governorWindow watts ⟨[], [(p, L)]⟩) s = .next t ∧ Tab.find t.parts p = some q' ∧ q'.limit = L ∧
      t.mem = s.mem ∧ t.cores = s.cores) ∧
    (∀ (src : Nat) (valid a b : List Nat), s.servo.order = a ++ src :: b → src ≠ 0 → src ∈ valid → (∀ x ∈ a, x ∉ valid ∧ x ≠ s.servo.src) →
      s.servo.st = .free ∨ s.servo.st = .holdover →
      exec (.servoSourceSeen valid) s = .next { s with servo := { s.servo with
        st := .acquiring, src := src, good := 0
        present := valid ++ s.servo.present.filter (fun x => x == s.servo.src && !valid.contains x) } }) ∧
    (∀ off : Int, s.servo.st = .acquiring → -8 < off → off < 8 → s.servo.good = 15 → ∃ t, exec (.servoMeasurement off) s = .next t ∧
      t.servo.st = .locked ∧ t.servo.offs = off ∧ (s.everPart = true → t.wtime = s.wtime) ∧
      (s.everPart = false → s.servo.stepped = false → 0 ≤ off → t.wtime = s.wtime + off.toNat) ∧ t.parts = s.parts ∧ t.mem = s.mem) ∧
    (∀ off : Int, s.servo.st = .acquiring → off ≤ -8 ∨ 8 ≤ off → ∃ t, exec (.servoMeasurement off) s = .next t ∧ t.servo.st = .acquiring ∧
      t.servo.good = 0 ∧ t.wtime = s.wtime ∧ t.mem = s.mem) ∧
    (let src := s.servo.src
     let left := s.servo.present.filter (fun x => x != src)
     s.servo.st = .locked →
      ((∀ x ∈ s.servo.order, x ∉ left) → exec .servoSourceLost s = .next { s with servo := { s.servo with st := .holdover, good := 0, present := left } }) ∧
      (∀ a n b, s.servo.order = a ++ n :: b → n ∈ left → n ≠ 0 → (∀ x ∈ a, x ∉ left) →
        exec .servoSourceLost s = .next { s with servo := { s.servo with st := .acquiring, src := n, good := 0, present := left } })) ∧
    (∃ t, exec (.servoSourceSelect []) s = .next t ∧ t.servo.st = .free ∧ t.servo.fadj = 0 ∧ t.servo.order = [] ∧ restKept { s with servo := t.servo } t) ∧
    (∀ src l, src ≠ 0 → src ∈ s.servo.present →
      (s.servo.st = .locked → s.servo.src = src → exec (.servoSourceSelect (src :: l)) s = .next { s with servo := { s.servo with order := src :: l } }) ∧
      (s.servo.st = .free → exec (.servoSourceSelect (src :: l)) s =
        .next { s with servo := { s.servo with order := src :: l, st := .acquiring, src := src, good := 0 } }))

/-- Power, the journal and tests (R391, R396, R408, R409, R411, R427): power-up begins the first start step from reset, and the last one, once the servo is LOCKED, makes the package
ready; losing power leaves the journal
and what it keeps, and no partition, core or byte; a thermal trip of a ready package is recorded against step 8; JRESET empties the journal; a built-in test is
counted, and a failed one fences a core's logic; FENCECLR asks for a re-test; and a reset partition with no context left is gone when it is being destroyed. -/
def Obligations.PowerAndTestEvents : Prop :=
  ∀ (p d : Nat) (s : State), d < 8 →
    let lost := fun (t : State) => t.power = false ∧ t.parts = [] ∧ t.cores = [] ∧ t.mem = [] ∧ t.kept = s.kept
    (s.journal = [] → s.kept = [] → ∃ t, exec (.powerUp []) s = .next t ∧ t.power = true ∧ t.bootStep = 1 ∧ t.stepNow = some (1, 255, 0) ∧
      t.parts = [] ∧ t.mem = [] ∧ t.wtime = 0 ∧ t.recovery = false ∧ ∃ e ∈ t.events, e.2 = .startEnd 1 255 0 []) ∧
    (∀ c, s.stepNow = some (8, 255, c) → s.servo.st = .locked → (s.endStep 8 255 c []).bootStep = 255 ∧ (s.endStep 8 255 c []).recovery = s.recovery ∧
      (s.endStep 8 255 c []).parts = s.parts) ∧
    (∃ t, exec .powerLoss s = .next t ∧ lost t ∧ t.journal = s.journal) ∧
    (s.power = true → s.bootStep = 255 → ∃ t j, exec (.thermalTrip d) s = .next t ∧ lost t ∧ t.journal = j :: s.journal ∧ j.step = 8 ∧ j.result = 2) ∧
    exec .jreset s = .next { s with journal := [] } ∧
    (∀ fn, fn < 2 ^ 40 → ∃ t, exec (.fenceclr (d * 2 ^ 40 + fn)) s = .next t ∧ fn ∈ (t.die d).retest ∧ t.mem = s.mem ∧ t.cores = s.cores ∧
      t.parts = s.parts) ∧
    (∀ fn, fn < 6 * 2 ^ 32 → Tab.get 0 (s.die d).counts fn = 0 → ∃ t, exec (.builtinTestComplete d fn true) s = .next t ∧
      Tab.get 0 (t.die d).counts fn = 1 ∧ (t.die d).fences = (s.die d).fences ∧ t.mem = s.mem ∧ t.cores = s.cores) ∧
    (∀ pos, pos < 512 → ∃ t, exec (.builtinTestComplete d (2 ^ 32 + pos) false) s = .next t ∧ 2 ^ 32 + pos ∈ (t.die d).fences) ∧
    (∀ q, Tab.find s.parts p = some q → q.ctxs = [] →
      (q.destroying = true → ∃ t, exec (.partitionReset p) s = .next t ∧ Tab.find t.parts p = none) ∧
      (q.destroying = false → ∃ t q', exec (.partitionReset p) s = .next t ∧ Tab.find t.parts p = some q' ∧ q'.resetting = false ∧ q'.ctxs = []))

/-! ## Events of cores and launches -/

/-- The bundle at PC (R63, R75, R141, R238): it issues at the cost of one of BUDGET and 2 energy units, its slots decode, and the
sequencer moves to the next bundle, or to SEQ.TGT after the second delay bundle; a wait tick costs 1 of each; BUDGET 0 and a PC beyond the image trap
before the bundle; a time wait ends at its tick. -/
def Obligations.BundleEvents : Prop :=
  ∀ (k : Nat) (s : State), (s.core k).st = .running → (s.core k).due = [] → (s.core k).exit = none →
    let c := s.core k
    let spent := if c.budget = 2 ^ 64 - 1 then c.budget else c.budget - 1
    (c.wait = none → c.budget ≠ 0 → c.pc < c.nbundles → ∃ t, exec (.bundleIssue k) s = .next t ∧
      t.ops = goodSlots (s.fetch k c) ∧ t.cur = ⟨k, 0⟩ ∧ (t.core k).iss.pc = c.pc ∧ (t.core k).budget = spent ∧
      (t.core k).ecnt = addEnergy c.ecnt 2 ∧
      (c.dly = 0 → (t.core k).pc = c.pc + 1 ∧ (t.core k).dly = 0) ∧ (c.dly = 1 → (t.core k).pc = c.tgt ∧ (t.core k).dly = 0) ∧
      (c.dly = 2 → (t.core k).pc = c.pc + 1 ∧ (t.core k).dly = 1) ∧
      (t.core k).x = c.x ∧ (t.core k).p = c.p ∧ (t.core k).b = c.b ∧ (t.core k).v = c.v ∧ t.mem = s.mem ∧ ∀ j, j ≠ k → t.core j = s.core j) ∧
    (c.wait ≠ none → ∃ t, exec (.bundleIssue k) s = .next t ∧ t.ops = [] ∧
      t.core k = { c with budget := spent, ecnt := addEnergy c.ecnt 1 } ∧ t.mem = s.mem) ∧
    (c.wait = none → c.budget = 0 → ∃ t, exec (.bundleIssue k) s = .next t ∧ (t.core k).st = .halted ∧ (t.core k).trap = ⟨6, 0, c.pc, 0⟩) ∧
    (c.wait = none → c.budget ≠ 0 → c.nbundles ≤ c.pc → ∃ t, exec (.bundleIssue k) s = .next t ∧ (t.core k).st = .halted ∧
      (t.core k).trap = ⟨3, 0, c.pc, c.pc % 2 ^ 32⟩) ∧
    (∀ T, c.wait = some (.until' T) → T ≤ s.now c → exec (.waitEnd k) s = .next (s.setCore k { c with wait := none })) ∧
    (∀ T, c.wait = some (.until' T) → s.now c < T → exec (.waitEnd k) s = .next s)

/-- Results land (R67, R70, R143; Table 3.2): at its tick a result is written to its register, and x0, p0 and k0 discard it and read their
constants; a row takes the enabled lanes only. -/
def Obligations.ResultsLand : Prop :=
  ∀ (k : Nat) (s : State) (l : Land), (s.core k).lands = [l] → (s.core k).vops = [] → (s.core k).cmds = [] → (s.core k).reqs = [] →
    l.ready = true → l.hi ≤ s.now (s.core k) →
    let c := s.core k
    (∀ w, l.wr = w → ∃ t, exec (.resultLand k) s = .next t ∧ t.core k = Core.write { c with lands := [] } w ∧
      t.mem = s.mem ∧ ∀ j, j ≠ k → t.core j = s.core j) ∧
    (∀ d v, l.wr = .q d v → ∃ t, exec (.nxtDelivery k) s = .next t ∧ t.core k = Core.write { c with lands := [] } (.q d v) ∧ t.mem = s.mem) ∧
    (∀ d v, d ≠ 0 → ∀ a, Tab.get 0 (c.write (.x d v)).x a = if a = d then v else Tab.get 0 c.x a) ∧
    (∀ v, c.write (.x 0 v) = c) ∧ (∀ v, c.write (.p 0 v) = c) ∧ (∀ i m v, c.write (.krow 0 i m v) = c) ∧
    (∀ d v, 0 < d → d < 12 → ∀ a, (c.write (.p d v)).readP a = if a = d then v else c.readP a) ∧
    (∀ d i m v, ∀ j, j < 64 → laneOf (Tab.get 0 (c.write (.row d i m v)).v (16 * d + i)) j =
      if m.getLsbD j = true then laneOf v j else laneOf (Tab.get 0 c.v (16 * d + i)) j) ∧
    s.readX c 0 = 0 ∧ c.readP 0 = true ∧ ∀ i, s.readK c 0 i = BitVec.allOnes 64

/-- The banks (R80): what a scratchpad serves in one tick never uses a bank twice, each served access stands in the window of its
presentation, and one access that stands alone performs; an access that is owed a service at its last tick (a choice of the model, log entry 12) stands in its window too. -/
def Obligations.BanksServeOncePerTick : Prop :=
  ∀ (k : Nat) (s : State),
    (s.served k).Pairwise (fun a b => ∀ n ∈ a.2.banks, n ∉ b.2.banks) ∧
    (∀ e ∈ s.served k, e.2 ∈ (s.core e.1).reqs ∧ e.2.pad = k ∧ ∃ l, e.2.lo = some l ∧ l ≤ s.now (s.core e.1)) ∧
    (∀ e, s.firstOwed k = some e → e.2 ∈ (s.core e.1).reqs ∧ e.2.pad = k ∧ (∃ l, e.2.lo = some l ∧ l ≤ s.now (s.core e.1)) ∧ s.now (s.core e.1) ≤ e.2.hi) ∧
    ((s.core k).cmds = [] →
      let s1 := s.askBanks k
      (∀ e, s1.served k = [e] → (s1.performOne e).firstOwed k = none → exec (.bankAccessPerform k) s = .next (s1.performOne e)) ∧
      (∀ e, s1.served k = [] → s1.firstOwed k = some e → (s1.performOne e).firstOwed k = none → exec (.bankAccessPerform k) s = .next (s1.performOne e)) ∧
      (s1.served k = [] → s1.firstOwed k = none → exec (.bankAccessPerform k) s = .next s1) ∧
      s1.mem = s.mem ∧ ∀ j, s1.core j = { s.core j with bankDemand := (s1.core j).bankDemand })

/-- The start and the end of a launch (R86, R186, R270, R278, R279): at START, while the partition does not hold, the members of a BOUND launch
of a running context move to RUNNING, and their matrix units are FREE with the last holder 3; once every member has left by EXIT and no release, arrival or source
window of a kept copy is to come, and no fault of theirs to be found, the launch retires, its members leave it, and the node of a graph run that it belongs to is over: the next is reached one tick on. -/
def Obligations.LaunchEvents : Prop :=
  ∀ (p l : Nat) (s : State) (q : Part) (y : Launch) (x : Ctx), Tab.find s.parts p = some q → Tab.find q.launches l = some y →
    Tab.find q.ctxs y.asid = some x →
    (y.running = false → q.held = false → y.start ≤ q.stime → x.st = .active → (∀ j ∈ y.members, (s.core j).ftick + x.ctoff ≤ q.stime) →
      ∃ t, exec (.launchStart p l) s = .next t ∧ (∃ y', t.launch p l = some y' ∧ y'.running = true) ∧ t.mem = s.mem ∧
        (∀ j, t.core j = if j ∈ y.members ∧ (s.core j).st = .bound ∧ (s.core j).launch = l then { s.core j with st := .running } else s.core j) ∧
        ∀ u, t.unit u = if u ∈ y.members.map unitOf then { MUnit.reset with active := (s.unit u).active } else s.unit u) ∧
    (let left := fun (j : Nat) => let c := s.core j
      c.exit.isSome = true ∧ c.st = .idle ∧ c.launch = l ∧
        ∀ e ∈ c.ca.copies ++ c.cb.copies, e.last ≤ s.now c ∧ (e.reads = 0 ∨ (e.window (e.reads - 1)).2 ≤ s.now c)
     y.running = true → x.st = .active ∨ x.st = .ready → (∀ j ∈ y.members, left j) →
      (∀ e ∈ s.events, ∀ k st id b c i, e.2 = .copyFault k st id b c i → k ∉ y.members) →
      ∃ t, exec (.launchRetire p l) s = .next t ∧ t.launch p l = none ∧
        (∀ j ∈ y.members, (t.core j).launch = Core.reset.launch ∧ (t.core j).exit = none) ∧ (∀ j, j ∉ y.members → t.core j = s.core j) ∧
        ∀ g z, y.graph = some g → Tab.find q.graphs g = some z → z.st = .launched → t.mem = s.mem ∧
          ∃ z', Tab.find (t.part p).graphs g = some z' ∧ z'.st = .reached ∧ z'.node = z.next ∧ z'.at' = q.stime - x.ctoff + 1)

/-- Exits and barriers (R145, R228, R242, R299, R300, R305, R307, R308): after its exit tick a core with nothing left to land, perform or settle, whose exit
barrier is complete, goes IDLE with its registers cleared and its energy added to its context's; one that waits at the exit barrier is charged a wait tick; an
instance whose tick has come completes, and its waiters issue, a frozen one from that tick on; a wait on an instance that is not set traps when it meets BUDGET 0. -/
def Obligations.ExitAndBarrierEvents : Prop :=
  ∀ (p l k : Nat) (s : State) (q : Part) (y : Launch), Tab.find s.parts p = some q → Tab.find q.launches l = some y →
    let c := s.core k
    (∀ e, c.part = p → c.launch = l → c.st = .running → c.exit = some e → e < s.now c → c.bound ≤ s.now c → c.lands = [] → c.vops = [] →
      c.cmds = [] → (∀ r ∈ c.reqs, r.isL = false) →
      (∀ b ∈ y.bars, b.scope = scopeExit y k → b.over' = true ∨ ∀ a ∈ b.arrived, a.1 ≠ k) →
      ∃ t, exec (.coreExitTick k) s = .next t ∧ (t.core k).st = .idle ∧ (t.core k).x = [] ∧ (t.core k).v = [] ∧ (t.core k).p = Core.reset.p ∧
        (t.core k).exit = some e ∧ (∀ j, j ≠ k → t.core j = s.core j) ∧
        (c.due = [] → t.mem = s.mem ∧ ∀ x, Tab.find q.ctxs c.asid = some x → ∃ x', ctxBecomes t p c.asid x' ∧
          x'.energy = addEnergy x.energy (addEnergy c.ecnt c.stat % 2 ^ 48))) ∧
    (∀ e b a, c.part = p → c.launch = l → c.st = .running → c.exit = some e → e < s.now c → b ∈ y.bars → b.scope = scopeExit y k → b.over' = false →
      (k, a) ∈ b.arrived → exec (.coreExitTick k) s = .next (s.setCore k { c with ecnt := addEnergy c.ecnt 1 })) ∧
    (∀ scope n b, b ∈ y.bars → b.scope = scope → b.n = n → b.r ≠ none → b.over' = false →
      ∃ t b' r, exec (.barrierComplete p l scope n) s = .next t ∧ b' ∈ y.bars ∧ b'.scope = scope ∧ b'.n = n ∧ b'.r = some r ∧
        (∃ y', t.launch p l = some y' ∧ ∀ b ∈ y'.bars, b.scope = scope → b.n = n → b.over' = true) ∧ t.mem = s.mem ∧
        ∀ j, t.core j = if j ∈ y.members ∧ (s.core j).wait = some (.barrier scope n) ∧ (s.core j).launch = l then
            { s.core j with wait := if (s.core j).st = .halted then some (.until' r) else none }
          else s.core j) ∧
    (∀ scope n b, c.part = p → c.launch = l → c.wait = some (.barrier scope n) → c.budget = 0 → c.st = .running → b ∈ y.bars → b.scope = scope →
      b.n = n → b.r = none →
      ∃ t, exec (.waitBudgetExhausted k) s = .next t ∧ (t.core k).st = .halted ∧ (t.core k).trap = ⟨6, 0, c.pc, 0⟩ ∧ (t.core k).wait = c.wait ∧
        t.mem = s.mem)

/-- Leases and commands as time passes (R186 to R189, R192, R193): a free unit goes to the first requesting position after the last holder; a
lease ends at its tick with the weight buffer clear; eight ticks later the unit is free; at its start tick a command becomes active with the shadow
registers; and a settled command leaves. -/
def Obligations.MatrixEvents : Prop :=
  ∀ (u k : Nat) (s : State),
    let y := s.unit u
    let at' := fun pos => unitCore u pos
    let wants := fun (pos : Nat) => (s.core (at' pos)).lease = 1 ∧ (s.core (at' pos)).leaseFrom ≤ s.now (s.core (at' pos)) ∧ (s.core (at' pos)).mrel = false
    (∀ i, y.st = .free → i < 4 → wants ((y.h + 1 + i) % 4) → (∀ j, j < i → ¬ wants ((y.h + 1 + j) % 4)) →
      let pos := (y.h + 1 + i) % 4
      ∃ t, exec (.leaseGrant u) s = .next t ∧
        t.unit u = { y with st := .leased, h := pos, g := s.unitTick u, cmds := 0, clast := 0, wload := none, relAt := none } ∧
        t.core (at' pos) = { s.core (at' pos) with lease := 2 } ∧ t.mem = s.mem ∧ ∀ j, j ≠ at' pos → t.core j = s.core j) ∧
    (y.st = .leased → y.leaseEnd ≤ s.unitTick u → ∃ t, exec (.leaseEnd u) s = .next t ∧ (t.unit u).st = .turn ∧ (t.unit u).wbuf = [] ∧
      (t.unit u).wload = none ∧ (t.unit u).lend = s.unitTick u ∧ (t.core (at' y.h)).lease = 0 ∧ t.mem = s.mem) ∧
    (y.st = .turn → y.lend + 8 ≤ s.unitTick u → ∃ t, exec (.leaseTurnEnd u) s = .next t ∧ t.unit u = { y with st := .free } ∧ t.cores = s.cores ∧
      t.mem = s.mem) ∧
    ((∃ c ∈ (s.core k).cmds, c.swapped = false ∧ c.s ≤ s.now (s.core k)) → ∃ t, exec (.matrixCommandSwap k) s = .next t ∧
      (t.unit (unitOf k)).active = (s.core k).shadow ∧ (∀ c ∈ (t.core k).cmds, c.s ≤ s.now (s.core k) → c.swapped = true) ∧
      (t.core k).shadow = (s.core k).shadow ∧ t.mem = s.mem) ∧
    (∀ c, (s.core k).cmds = [c] → c.c + 24 ≤ s.now (s.core k) → (s.core k).lease = 0 → c.swapped = false ∨ c.finished = true → ∃ t,
      exec (.matrixCommandComplete k) s = .next t ∧ (t.core k).cmds = [] ∧ (t.core k).z = (s.core k).z ∧ t.mem = s.mem)

/-! ## Events of copies -/

/-- Copy id of stream st of core k reads as y afterwards, and every other core as before. -/
def Sys2Proof.Claims.copyBecomes (s t : State) (k st id : Nat) (y : Copy) : Prop :=
  (t.core k).copy st id = some y ∧ ∀ j, j ≠ k → t.core j = s.core j
/-- A fault of copy y is on its way: the core traps at the boundary before its tick h (R225). -/
def Sys2Proof.Claims.faultDue (s t : State) (k st : Nat) (y : Copy) (b h cause info : Nat) : Prop :=
  (t.core k).due = (s.core k).due ++ [⟨h, ⟨cause, 6 + st, 0, info % 2 ^ 32⟩, b, y.ipc, st, y.prog, y.itick⟩]

/-- Reads of copies (R207, R213, R216, R218, R226): a beat of a scratchpad source takes the 64 bytes of its line as they stand; of a near copy it is
present, of a message it is announced, and of a CPL its destination write joins the banks' requests for one tick of its schedule; an index
entry is the signed 32-bit number at its place. The core meets no race of an earlier tick (R247, R319), and no check has found the copy failing (R61). -/
def Sys2Proof.Claims.CopyReadEvents : Prop :=
  ∀ (k st id b n : Nat) (s : State) (y : Copy), (s.core k).copy st id = some y →
    (∀ a i, i < 64 → (s.line a).extractLsb' (8 * i) 8 = s.byte (a + i)) ∧
    (∀ w, s.quiet k = true → (6 + st, y.itick) ∉ (s.core k).spoilt → y.f 0 = 0 → y.space false = 0 → spadAt k (y.offset false b) 64 = some w → b ∉ y.read → b ∉ y.bad →
      let v := s.line (padKey w.1 w.2)
      let got := fun (near : Bool) => { y with
        got := Tab.put y.got b v, read := b :: y.read, present := if near then b :: y.present else y.present }
      (y.kind = .timed → ∃ t, exec (.beatSourceRead k st id b) s = .next t ∧ copyBecomes s t k st id (got (decide (y.m < 256))) ∧
        t.mem = s.mem) ∧
      (y.kind = .send → ∃ t, exec (.sendBeatRead k st id b) s = .next t ∧ copyBecomes s t k st id (got false) ∧ t.mem = s.mem ∧
        ∃ e ∈ t.events, e.2 = .beatPresent k st id b) ∧
      (∀ d, y.kind = .cpl → y.m < 256 → spadAt k (y.offset true b) 64 = some d → ∃ t, exec (.cplSourceRead k st id b) s = .next t ∧
        copyBecomes s t k st id (got true) ∧ t.mem = s.mem ∧
        ∃ r ∈ (t.core k).reqs, r.kind = .cpl st id b v ∧ r.pad = d.1 ∧ r.addr = d.2 ∧ r.e = some (y.v - 1) ∧ r.off = b ∧ r.span = 1)) ∧
    (s.quiet k = true → y.f 0 = 1 ∨ y.f 0 = 2 → Tab.find y.idx n = none →
      let dst : Bool := y.f 0 == 2
      let y1 := { y with idx := Tab.put y.idx n ((BitVec.ofNat 32 (s.load (padKey k (y.f 0x20 + 4 * n)) 4)).signExtend 64) }
      (∀ i o, i < y.n → y.entry i = n → s.offsetFault k (s.core k) st y1 dst o (y1.offset dst i) = none) →
      ∃ t, exec (.indexEntryRead k st id n) s = .next t ∧ copyBecomes s t k st id y1 ∧ t.mem = s.mem ∧ t.events = s.events ∧
        ∃ l, (t.core k).reqs = (s.core k).reqs ++ l ∧ ∀ r ∈ l, ∃ b, r.kind = .src st id b)

/-- Releases of copies (R212, R216, R219, R221, R225): at its tick a beat of a scratchpad destination is written, all 64 bytes and no other,
unless it failed a check or its copy stopped; a message joins the mailbox of its receiver, which was bound when it was sent, or is discarded; the weight port gives a running load its next
beat, or zeros and a DEADLINE one tick on when that beat has not been released. -/
def Sys2Proof.Claims.CopyWriteEvents : Prop :=
  ∀ (k st id b : Nat) (s : State) (y : Copy),
    let c := s.core k
    (∀ w v, c.copy st id = some y → s.hits = [] → s.quiet k = true → y.f 0 = 0 → y.space true = 0 → spadAt k (y.offset true b) 64 = some w →
      Tab.find y.got b = some v →
      let a0 := padKey w.1 w.2
      let writes := fun (t : State) => (∀ i, i < 64 → t.byte (a0 + i) = v.extractLsb' (8 * i) 8) ∧
        ∀ a, a < a0 ∨ a0 + 64 ≤ a → t.byte a = s.byte a
      (y.kind = .timed → k < 4096 → b ∈ y.present → b ∉ y.bad → (∀ h, y.stop = some h → y.v + b < h) →
        ∃ t, exec (.beatRelease k st id b) s = .next t ∧ writes t ∧ t.cores = s.cores ∧ t.parts = s.parts) ∧
      (y.kind = .cpl → ∃ t, exec (.cplDestWrite k st id b) s = .next t ∧ writes t ∧ (t.core k).x = c.x ∧
        (t.core k).copy st id = some y ∧ (∀ r ∈ (t.core k).reqs, r.kind ≠ .cpl st id b v) ∧ ∀ j, j ≠ k → t.core j = s.core j)) ∧
    (c.copy st id = some y → y.f 0 = 0 → k < 4096 → b ∈ y.bad ∨ (∃ h, y.stop = some h ∧ h ≤ y.v + b) →
      exec (.beatRelease k st id b) s = .next s) ∧
    (c.copy st id = some y → y.kind = .send → y.stop = none →
      let q := s.part c.part
      let d := y.param.toNat / 256 % 8
      let j := q.dies.getD d 0 * 256 + y.param.toNat % 256
      let msg : Msg := ⟨y.param.toNat / 65536 % 16, y.v - y.m, y.m, (List.range y.n).map fun i => (Tab.find y.got i).getD 0⟩
      let bound : Prop := d < q.dies.length ∧ (s.core j).part = c.part ∧ (s.core j).asid = c.asid ∧ (s.core j).st ≠ .spare ∧
        (s.core j).st ≠ .idle ∧ (s.core j).st ≠ .fenced ∧ (s.core j).bindAt ≤ y.v - y.m
      ∃ t, exec (.messageArrival k st id) s = .next t ∧ (t.core k).copy st id = some { y with stop := some 0 } ∧ t.mem = s.mem ∧
        (bound → (t.core j).mail = (s.core j).mail ++ [msg]) ∧ (¬ bound → (t.core j).mail = (s.core j).mail) ∧
        ∀ i, i ≠ j → (t.core i).mail = (s.core i).mail) ∧
    (∀ z f g rest (v : Option Beat), c.cmds = [z] → z.swapped = true → z.s + b = s.now c → z.op = .wldp st f →
      (c.stream st).port = g :: rest → g.used < g.n → Tab.find g.data g.used = v →
      ∃ t z', exec (.wportBeatConsume k st b) s = .next t ∧ (t.core k).cmds = [z'] ∧ z' = { z with abytes := z'.abytes } ∧
        (∀ i, i < 64 → Tab.find z'.abytes (64 * b + i) = some ((v.getD 0).extractLsb' (8 * i) 8)) ∧
        ((t.core k).stream st).port = { g with used := g.used + 1 } :: rest ∧ t.mem = s.mem ∧ (t.core k).x = c.x ∧
        (v ≠ none → (t.core k).due = c.due) ∧
        (v = none → (t.core k).due = c.due ++ [⟨s.now c + 1, ⟨7, 5, 0, (g.v + g.used) % 2 ^ 32⟩, 0, 0, 0, 0, 0⟩]))

/-- Late beats, faults and sealed operations (R225, R226, R256, R375): a beat missing at its check is counted, raises hold cause 1 for 192 ticks on under
WAIT and DEADLINE under STRICT; a beat that has passed its checks is present once every pair of dies that it crosses has a circuit to carry it, and waits while one
has none; a beat for a peer is judged by the receiving package; one that failed is never released, and the core traps 192 ticks on; and a
descriptor that passes its check gives SEAL, UNSEAL or SCRUB its beats and its visible-at tick, and one that fails a fault. -/
def Sys2Proof.Claims.CopyCheckEvents : Prop :=
  ∀ (k st id b : Nat) (s : State) (y : Copy), k < 4096 → (s.core k).copy st id = some y →
    let c := s.core k
    let now := s.now c
    (∀ q l, Tab.find s.parts c.part = some q → Tab.find q.launches c.launch = some l → y.isPresent b = false → b ∉ y.bad →
      (∀ h, y.stop = some h → y.due b < h) → 256 ≤ y.m → (y.kind = .timed → y.space true ≠ 5) → ∃ t, exec (.lateBeatCheck k st id b) s = .next t ∧
        (t.core k).late = c.late + 1 ∧ (∀ j, j ≠ k → t.core j = s.core j) ∧ (l.strict = false ∨ c.gone = false → t.mem = s.mem) ∧
        (l.strict = false → (t.core k).due = c.due ∧
          ∃ q', Tab.find t.parts c.part = some q' ∧ q'.reqs = q.reqs ++ [⟨1, q.stime + 192, false, beatTag k st id b false⟩]) ∧
        (l.strict = true → c.gone = false → faultDue s t k st y b (now + 192) 7 (y.due b))) ∧
    (y.isPresent b = true ∨ (y.kind = .timed ∧ y.space true = 5) → exec (.lateBeatCheck k st id b) s = .next s) ∧
    (b < 2 ^ 19 → b ∈ y.read → b ∉ y.bad → b ∉ y.present → y.kind = .send ∨ (y.kind = .timed ∧ now ≤ y.v + b ∧ y.space true ≠ 5) →
      ((∀ h ∈ s.hops k c st y b, s.pathsOf c.part h.1 h.2 ≠ []) →
        ∃ t, exec (.beatPresent k st id b) s = .next t ∧ copyBecomes s t k st id { y with present := b :: y.present } ∧ t.mem = s.mem) ∧
      ((∃ h ∈ s.hops k c st y b, s.pathsOf c.part h.1 h.2 = []) →
        ∃ t, exec (.beatPresent k st id b) s = .next t ∧ t.cores = s.cores ∧ t.mem = s.mem ∧ t.parts = s.parts ∧ ∃ e ∈ t.events, e.2 = .beatPresent k st id b)) ∧
    (∀ cause info, c.st ≠ .halted → c.gone = false → y.stop = none → ∃ t y', exec (.copyFault k st id b cause info) s = .next t ∧
      faultDue s t k st y b (now + 192) cause info ∧ copyBecomes s t k st id y' ∧ b ∈ y'.bad ∧ y'.stop = some (now + 192) ∧ t.mem = s.mem) ∧
    (y.kind = .seal ∨ y.kind = .unseal ∨ y.kind = .scrub → y.unchecked = true →
      let line := (Tab.find y.got descKey).getD (s.line (padKey k y.param.toNat))
      let y1 := { y with got := Tab.put y.got descKey line }
      (s.descFault k c st y1 line.toNat = none → ∃ t z, exec (.sealDescriptorCheck k st id) s = .next t ∧ copyBecomes s t k st id z ∧
        z.kind = y.kind ∧ z.n = y.kind.outBeats (dLen line.toNat / 64) ∧ z.v = y.itick + dVis line.toNat ∧ z.got = y1.got ∧
        (∀ r ∈ (t.core k).reqs, r.kind ≠ .desc st id) ∧ (t.core k).due = c.due ∧ t.mem = s.mem) ∧
      (∀ cause info, s.descFault k c st y1 line.toNat = some (cause, info) → c.gone = false → y.stop = none →
        ∃ t, exec (.sealDescriptorCheck k st id) s = .next t ∧ faultDue s t k st y 0 (now + 192) cause info ∧ t.mem = s.mem))

/-- Releases of copies, their checks and their faults. -/
def Obligations.CopyWritesAndChecks : Prop :=
  Sys2Proof.Claims.CopyWriteEvents ∧ Sys2Proof.Claims.CopyCheckEvents


/-- Lookups of virtual addresses (R324, R350 to R352): an address in the range of a tensor that allows the access goes to its line, a hit of the translation buffer whose page allows the access gives the beat its place; a miss raises
hold cause 3 for 192 ticks after its lookup tick and starts a walk; a walk that finds a leaf fills the buffer and ends the lookup, here the only one that waits for it, and one that finds none
(the entries that it reads on other dies have crossed circuits, or it waits for those)
faults with XLATE, cause 9, and bits 43 to 12 of the address. -/
def Sys2Proof.Claims.LookupEvents : Prop :=
  ∀ (k st id b : Nat) (dst : Bool) (s : State) (y : Copy) (q : Part), (s.core k).copy st id = some y →
    Tab.find s.parts (s.core k).part = some q → y.f 0 = 0 →
    let c := s.core k
    let va := y.offset dst b
    let allowed := fun (e : TlbEntry) (pl : Place) => (if dst then e.w else e.r) = true ∧ e.place q va = some pl ∧
      (let o := s.own pl.station (q.pdie pl.d) pl.off
       o.v = true ∧ o.asid = c.asid ∧ o.code = false ∧ o.pt = false ∧ (pl.station = false → o.pgen = q.gen ∨ o.pgen + 1 = q.gen))
    let placed := fun (pl : Place) => { y with places := Tab.put y.places (2 * b + dst.toNat) pl }
    va < 2 ^ 44 → q.migration = none → (dst = true → b ∉ y.present) →
    (∀ tid r pl, s.rangeHit c.part c.asid va = some tid → s.pinTensor c.part c.asid tid = (s, some r) →
      (if dst then (s.recOf c.part r).writable r c.part else (s.recOf c.part r).readable r c.part) = true →
      s.tensorPlace c.part r (va - r.vbase) = some pl → shunterMay (s.own pl.station (q.pdie pl.d) pl.off) c.asid = true →
      ∃ t, exec (.virtLookup k st id b dst) s = .next t ∧ copyBecomes s t k st id (placed pl) ∧ t.mem = s.mem ∧ t.parts = s.parts) ∧
    (∀ e pl, s.rangeHit c.part c.asid va = none → (c.stream st).tlb.find? (fun e => e.holds c.asid va) = some e → allowed e pl →
      ∃ t, exec (.virtLookup k st id b dst) s = .next t ∧ copyBecomes s t k st id (placed pl) ∧ t.mem = s.mem ∧ t.parts = s.parts) ∧
    (s.rangeHit c.part c.asid va = none → (∀ e ∈ (c.stream st).tlb, e.holds c.asid va = false) → q.held = false →
      ∃ t q', exec (.virtLookup k st id b dst) s = .next t ∧ t.cores = s.cores ∧ t.mem = s.mem ∧ Tab.find t.parts c.part = some q' ∧
        q'.reqs = q.reqs ++ [⟨3, y.lookupTick b dst + s.ctoff c + 192, false, beatTag k st id b dst⟩] ∧
        ∃ e ∈ t.events, e.2 = .walkComplete k st id b dst) ∧
    (∀ e pl, s.walk q c.asid va = some e → (∀ e ∈ (c.stream st).tlb, e.holds c.asid va = false) → allowed e pl →
      (∀ z ∈ s.events, ∀ i n w, z.2 ≠ .walkComplete k st i n w) → (s.crossWalk k va (y.lookupTick b dst + s.ctoff c)).isSome = true →
      ∃ t, exec (.walkComplete k st id b dst) s = .next t ∧ copyBecomes s t k st id (placed pl) ∧
        ((t.core k).stream st).tlb = fillTlb (c.stream st).tlb e ∧ t.mem = s.mem) ∧
    (s.walk q c.asid va = none → c.gone = false → y.stop = none → (s.crossWalk k va (y.lookupTick b dst + s.ctoff c)).isSome = true →
      ∃ t, exec (.walkComplete k st id b dst) s = .next t ∧ faultDue s t k st y b (y.lookupTick b dst + 192) 9 (va / 4096) ∧ t.mem = s.mem) ∧
    (s.crossWalk k va (y.lookupTick b dst + s.ctoff c) = none → ∃ t, exec (.walkComplete k st id b dst) s = .next t ∧ t.cores = s.cores ∧ t.mem = s.mem ∧
      t.parts = s.parts ∧ ∃ e ∈ t.events, e.2 = .walkComplete k st id b dst)

/-- Source reads of copies and lookups of virtual addresses. -/
def Obligations.CopyReadsAndLookups : Prop :=
  Sys2Proof.Claims.CopyReadEvents ∧ Sys2Proof.Claims.LookupEvents


/-! ## Tensors, contexts and partitions -/

/-- A fault of a tensor operation is on its way: TENSOR, cause 0x0C, with the tensor id, 192 ticks after its effect tick (R336). -/
def Sys2Proof.Claims.effectDue (s t : State) (k st : Nat) (e : TEffect) (tid : Nat) : Prop :=
  (t.core k).due = (s.core k).due ++ [⟨e.at' + 192, ⟨0x0C, 6 + st, 0, tid % 2 ^ 32⟩, 0, e.ipc, st, 0, e.itick⟩]

/-- Effects of tensor operations at their effect ticks (R328, R333, R337, R338): TBUMP opens epoch NEXT + 1 under the current generation;
TCOMMIT closes an epoch whose every line has been counted and leaves any other TORN with a fault; TDIG puts the check of a CLOSED shard on its way, one
tick for each line from its effect tick on; KROT steps the generation, once in a tick; what the record does not allow faults. The result of a check sets DIGOK and clears
PSN, or sets PSN where the bytes differ from the entry's digest, a line could not be read, or no valid entry is there. -/
def Obligations.TensorEffects : Prop :=
  ∀ (k st id : Nat) (s : State) (e : TEffect) (q : Part), s.effect k st id = some e → Tab.find s.parts (s.core k).part = some q →
    let p := (s.core k).part
    let live : Prop := (s.core k).asid = e.asid ∧ ((s.core k).st = .running ∨ (s.core k).st = .held ∨ (s.core k).st = .halted)
    (∀ b, e.bind = some b →
      let r := s.recOf p b
      (e.op = 0 → r.opens b p = true → ∃ t, exec (.tbumpEffect k st id) s = .next t ∧
        t.recOf p b = { r with st := .opened, next := r.next + 1, ever := r.next + 1, egen := q.gen, cov := 0, digok := false } ∧
        ∀ n, n ≠ vrecKey (q.pdie b.home) b.tid → Tab.get VRec.reset t.vrecs n = Tab.get VRec.reset s.vrecs n) ∧
      (e.op = 0 → r.opens b p = false → live → ∃ t, exec (.tbumpEffect k st id) s = .next t ∧ effectDue s t k st e b.tid ∧ t.vrecs = s.vrecs ∧
        t.mem = s.mem) ∧
      (e.op = 1 → r.isFor p b.tid b.asid = true → r.st = .opened →
        (r.cov = b.limit / 64 → ∃ t, exec (.tcommitEffect k st id) s = .next t ∧ (t.core k).due = (s.core k).due ∧
          t.recOf p b = { r with st := .closed, ver := r.ever, kgen := r.egen, frozen := r.frozen.erase e.itick }) ∧
        (r.cov ≠ b.limit / 64 → live → ∃ t, exec (.tcommitEffect k st id) s = .next t ∧ effectDue s t k st e b.tid ∧
          t.recOf p b = { r with st := .torn, frozen := r.frozen.erase e.itick })) ∧
      (e.op = 2 → r.isFor p b.tid b.asid = true → r.st = .closed → b.shard = true → ∃ t, exec (.tdigEffect k st id) s = .next t ∧
        partBecomes s t p { q with digests := q.digests ++ [⟨b, b.asid, e.at', e.at' + b.limit / 64, [], true, none⟩] } ∧
        t.vrecs = s.vrecs ∧ t.mem = s.mem) ∧
      (e.op = 2 → r.isFor p b.tid b.asid = false ∨ r.st ≠ .closed ∨ b.shard = false → live → ∃ t, exec (.tdigEffect k st id) s = .next t ∧
        effectDue s t k st e b.tid ∧ t.vrecs = s.vrecs ∧ t.mem = s.mem)) ∧
    (e.op = 3 → q.rotated ≠ some q.stime → q.gen ≠ 65535 → ∃ t q', exec (.krotEffect k st id) s = .next t ∧ Tab.find t.parts p = some q' ∧
      q'.gen = q.gen + 1 ∧ q'.rotated = some q.stime ∧ ∀ f ∈ ((t.core k).stream st).effects, f.id ≠ id) ∧
    (e.op = 3 → q.rotated = some q.stime → exec (.krotEffect k st id) s = .next (s.dropEffect k st id)) ∧
    (e.op = 3 → q.rotated ≠ some q.stime → q.gen = 65535 → live → ∃ t, exec (.krotEffect k st id) s = .next t ∧ effectDue s t k st e 0 ∧ t.vrecs = s.vrecs) ∧
    (∀ d, q.digests = [d] → d.entry = none →
      (s.digestDue p d = false → exec (.digestResult p d.bind.tid) s = .next s) ∧
      (s.digestDue p d = true →
        let s1 := s.modPart p fun q => { q with digests := q.digests.filter fun e => !(e == d) }
        let r := s.recOf p d.bind
        let poisoned := ∃ t, exec (.digestResult p d.bind.tid) s = .next t ∧ t.recOf p d.bind = { r with psn := true, digok := false }
        r.isFor p d.bind.tid d.bind.asid = true → r.st ≠ .invalid →
          (s1.entryOf p d.asid d.bind.tid = none → poisoned) ∧
          (∀ base i x, s1.entryOf p d.asid d.bind.tid = some (base, i) → s1.entryIn (s1.part p) d.asid base i = some x →
            (d.ok = true → (Config.sha384 d.bytes).toNat = field x 767 384 → ∃ t, exec (.digestResult p d.bind.tid) s = .next t ∧
              t.recOf p d.bind = if r.st = .closed then { r with psn := false, digok := true } else r) ∧
            (d.ok = false ∨ (Config.sha384 d.bytes).toNat ≠ field x 767 384 → field x 47 32 ≠ s.fabidx → poisoned))))

/-- Context commands (R229, R230, R232, R233, R239, R246, R249, R252): a record with another CMD or a reserved field completes BAD-RECORD, 4, and one for a
context that does not exist BAD-STATE, 3; CREATE gives the lowest free ASID of the pool to a context CREATING from its CCB; POLICY takes LATE, REFILL and
RCOUNT again; PREEMPT arms an ACTIVE context at its present tick; RESUME of a HALTED one whose save area stands, at least 1,024 ticks ahead, makes it ACTIVE;
DESTROY begins the teardown. The guest reaches its ring through the interface in RUN and on its stream, and no record of it is taken else (R399, R400). -/
def Obligations.ContextCommands : Prop :=
  ∀ (p : Nat) (rec : CtxRecord) (s : State) (q : Part), Tab.find s.parts p = some q →
    let all := [(1, Instr.create p rec), (2, .destroy p rec), (3, .preempt p rec), (4, .resume p rec), (5, .policy p rec)]
    (q.tdisp ≠ .run ∨ q.ide = false → ∀ e ∈ all, exec e.2 s = .next s) ∧
    (q.tdisp = .run → q.ide = true →
    let word := fun (status asid : Nat) => BitVec.ofNat 128 (asid % 2 ^ 16 * 2 ^ 80 + status % 256 * 2 ^ 64 + rec.tag % 2 ^ 64)
    let done := fun (t : State) (status asid : Nat) => ∃ q', Tab.find t.parts p = some q' ∧ q'.ctxDone = q.ctxDone ++ [word status asid]
    let refused := fun (i : Instr) (status asid : Nat) => exec i s = .next (s.modPart p fun q =>
      { q with ctxDone := q.ctxDone ++ [word status asid] })
    (∀ e ∈ all, rec.cmd ≠ e.1 ∨ rec.rsv ≠ 0 ∨ 1 < rec.flags → refused e.2 4 rec.asid) ∧
    (rec.rsv = 0 → rec.flags ≤ 1 →
      (rec.cmd = 1 → q.tenantid = 0 → refused (.create p rec) 3 0) ∧
      (rec.cmd = 1 → q.tenantid ≠ 0 → rec.flags = 1 → q.unlocked = true → refused (.create p rec) 1 0) ∧
      (∀ x a, rec.cmd = 1 → q.tenantid ≠ 0 → rec.flags = 0 ∨ q.unlocked = false → q.freeAsid = some a → s.readCcb q a rec.arg = some x →
        (q.pool0 ≤ a ∧ a < q.pool0 + q.poolN ∧ Tab.find q.ctxs a = none) ∧
        ∃ t y, exec (.create p rec) s = .next t ∧ ctxBecomes t p a y ∧ y.st = .creating ∧ y.ccb = rec.arg ∧ y.tag = rec.tag ∧ y.ctoff = 0 ∧
          y.strict = (field x 71 64 == 1) ∧ y.refill = field x 191 128 ∧ y.rcount = field x 207 192 ∧ y.prot = (rec.flags == 1) ∧
          t.mem = s.mem ∧ t.cores = s.cores ∧ ∃ e ∈ t.events, e.2 = .contextCreateComplete p a) ∧
      (∀ e ∈ all, e.1 ≠ 1 → rec.cmd = e.1 → Tab.find q.ctxs rec.asid = none → rec.arg = 0 → refused e.2 3 rec.asid) ∧
      (∀ y, Tab.find q.ctxs rec.asid = some y →
        (∀ x, rec.cmd = 5 → rec.arg = 0 → y.st = .ready ∨ y.st = .active ∨ y.st = .halted ∨ y.st = .saved → s.readCcb q rec.asid y.ccb = some x →
          ∃ t, exec (.policy p rec) s = .next t ∧ done t 0 rec.asid ∧ t.mem = s.mem ∧ t.cores = s.cores ∧
            ctxBecomes t p rec.asid { y with strict := field x 71 64 == 1, refill := field x 191 128, rcount := field x 207 192 }) ∧
        (rec.cmd = 3 → rec.arg = 0 → y.st = .active → y.armed = none → ∃ t, exec (.preempt p rec) s = .next t ∧ done t 0 rec.asid ∧ t.mem = s.mem ∧
          t.cores = s.cores ∧ ctxBecomes t p rec.asid { y with armed := some (q.stime - y.ctoff), yielded := false }) ∧
        (rec.cmd = 3 → rec.arg = 0 → y.st = .halted → ∃ t, exec (.preempt p rec) s = .next t ∧ done t 0 rec.asid ∧ t.mem = s.mem ∧
          t.cores = s.cores ∧ ctxBecomes t p rec.asid { y with armed := some (q.stime - y.ctoff) } ∧ ∃ e ∈ t.events, e.2 = .saveCommit p rec.asid) ∧
        (rec.cmd = 4 → y.st = .halted → y.spoiled = false → q.stime + 1024 ≤ rec.arg → ∃ t y', exec (.resume p rec) s = .next t ∧ done t 0 rec.asid ∧
          t.mem = s.mem ∧ t.cores = s.cores ∧ ctxBecomes t p rec.asid y' ∧ y'.st = .active ∧ y'.resumeP = some rec.arg) ∧
        (rec.cmd = 4 → y.st = .halted → y.spoiled = true → q.stime + 1024 ≤ rec.arg → ∃ t y', exec (.resume p rec) s = .next t ∧ done t 0 rec.asid ∧
          ctxBecomes t p rec.asid y' ∧ y'.st = .teardown) ∧
        (rec.cmd = 4 → rec.arg < q.stime + 1024 → refused (.resume p rec) 3 rec.asid) ∧
        (rec.cmd = 2 → rec.arg = 0 → y.st = .ready ∨ y.st = .active ∨ y.st = .halted ∨ y.st = .saved → ∃ t y', exec (.destroy p rec) s = .next t ∧
          done t 0 rec.asid ∧ ctxBecomes t p rec.asid y' ∧ y'.st = .teardown))))

/-- The life of a context (R83, R229, R246, R249, R250, R252, R254): a created context with a save tensor that is large enough is READY, and one
without is gone; an armed pre-emption takes its boundary no earlier than 2,048 ticks after acceptance without a YIELD, and by 4,096 at the
latest, and raises hold cause 4; a save leaves the context SAVED and its cores IDLE, and one that cannot be written tears it down; a halted core issues again at its freeze tick; a teardown zeroes
scratchpads and leaves cores IDLE, and after the scrub the context is gone. -/
def Obligations.ContextEvents : Prop :=
  ∀ (p a : Nat) (s : State) (q : Part) (x : Ctx), Tab.find s.parts p = some q → Tab.find q.ctxs a = some x →
    let b := q.stime - x.ctoff
    let idle := fun (s1 t : State) => ∀ k ∈ s1.positions p a, (s1.core k).st ≠ .fenced → (t.core k).st = .idle ∧ (t.core k).x = []
    (x.st = .creating →
      ((s.saveTensor p a x).isSome = true → ∃ t q' x', exec (.contextCreateComplete p a) s = .next t ∧ ctxBecomes t p a x' ∧ x'.st = .ready ∧
        Tab.find t.parts p = some q' ∧ q'.ctxDone = q.ctxDone ++ [ctxWord x.tag 0 a]) ∧
      (s.saveTensor p a x = none → ∃ t q', exec (.contextCreateComplete p a) s = .next t ∧ Tab.find t.parts p = some q' ∧
        Tab.find q'.ctxs a = none ∧ q'.ctxDone = q.ctxDone ++ [ctxWord x.tag 4 a])) ∧
    (∀ a0, x.armed = some a0 → x.boundary = none → x.st = .active →
      (a0 ≤ b → a0 + 4096 ≤ b ∨ (a0 + 2048 ≤ b ∧ s.betweenCommands p a b = true) → q.held = false →
        ∃ t q', exec (.preemptBoundary p a) s = .next t ∧ ctxBecomes t p a { x with boundary := some b } ∧ Tab.find t.parts p = some q' ∧
          q'.reqs = q.reqs ++ [⟨4, q.stime + 192, false, preTag a⟩] ∧ t.cores = s.cores ∧ t.mem = s.mem) ∧
      (b < a0 + 2048 → x.yielded = false → exec (.preemptBoundary p a) s = .next s)) ∧
    (let s1 := (s.positions p a).foldl (fun s k => s.modCore k Core.fold) s
     x.st = .active ∨ x.st = .halted → (s1.coresOf p a fun y => y == .running || y == .held) = [] →
      (∀ b, s1.saveTensor p a x = some b → (s1.recOf p b).opens b p = true → s1.tensorGranted (s1.part p) b = true → ∃ t x', exec (.saveCommit p a) s = .next t ∧
        ctxBecomes t p a x' ∧ x'.st = .saved ∧ x'.armed = none ∧ x'.saveVer = (s1.recOf p b).next + 1 ∧ idle s1 t) ∧
      ((∀ b, s1.saveTensor p a x = some b → (s1.recOf p b).opens b p = false ∨ s1.tensorGranted (s1.part p) b = false) →
        exec (.saveCommit p a) s = .next (s1.teardown p a))) ∧
    (∀ P, x.st = .active → x.resumeP = some P → P ≤ q.stime → q.held = false → ∃ t, exec (.contextReissue p a) s = .next t ∧
      (∀ k ∈ s.reissuing p a, (s.core k).ftick ≤ s.now (s.core k) → t.core k = { s.core k with st := .running }) ∧
      (∀ k, k ∉ s.reissuing p a ∨ s.now (s.core k) < (s.core k).ftick → t.core k = s.core k) ∧ t.mem = s.mem) ∧
    (x.st = .teardown → ∃ t x', exec (.teardownComplete p a) s = .next t ∧ ctxBecomes t p a x' ∧ x'.st = .scrubbing ∧ idle s t ∧
      (∀ k ∈ s.positions p a, k < 2048 → ∀ o, o < 2 ^ 21 → t.byte (padKey k o) = 0) ∧
      ∃ e ∈ t.events, e.2 = .contextScrubComplete p a) ∧
    (x.st = .scrubbing → ∃ t q', exec (.contextScrubComplete p a) s = .next t ∧ Tab.find t.parts p = some q' ∧ Tab.find q'.ctxs a = none)

/-- Partitions and the host's function (R24, R233, R271, R356, R384, R399, R400, R402, R405 to R407, R410): the host driver creates a partition at STIME 0 and the
full rate on free dies, with a pool of as many ASIDs as it gives (where a pool begins is the model's choice, log entry 10); a function-level reset and a destroy end the sessions, claims and queues of the VF; TDISP messages move the interface as R399
says; host DMA is served in RUN on the stream to granules that it may touch, and counted in HREF otherwise; TENANTID is taken once; a
good token unlocks debug, and a debugger stop raises hold cause 5. -/
def Obligations.HostEvents : Prop :=
  ∀ (p : Nat) (s : State),
    (∀ (dies : List Nat) (n base : Nat), 1 ≤ n → s.poolBase n = some base → s.bootStep = 255 → s.recovery = false → s.servo.st = .locked ∨ s.servo.order = [] → p < 8 →
      Tab.find s.parts p = none → dies.length = 1 ∨ dies.length = 2 ∨ dies.length = 4 ∨ dies.length = 8 → dies.eraseDups = dies →
      (∀ d ∈ dies, d < 8 ∧ (s.die d).leftOut = false ∧ ∀ e ∈ s.parts, d ∉ e.2.dies) →
      ∃ t q', exec (.partitionCreate p ⟨dies, n⟩) s = .next t ∧ partBecomes s t p q' ∧ q'.pool0 = base ∧ q'.poolN = n ∧ base + n ≤ 4096 ∧ q'.dies = dies ∧ q'.stime = 0 ∧ q'.rate = 16 ∧
        q'.w0 = s.wtime ∧ q'.limit = 300 * dies.length ∧ q'.ctxs = [] ∧ q'.gen = 1 ∧ t.agenda = .partitionReset p :: s.agenda ∧ restKept s t) ∧
    (∀ q, Tab.find s.parts p = some q →
      let cleared := fun (t : State) (destroying : Bool) => ∃ q', Tab.find t.parts p = some q' ∧ q'.resetting = true ∧
        q'.destroying = destroying ∧ q'.tdisp = .configUnlocked ∧ q'.ide = false ∧ q'.tenantid = 0 ∧ q'.unlocked = false ∧ q'.claims = [] ∧
        q'.graphs = [] ∧ q'.inbound = [] ∧ (∀ e ∈ q'.queues, e.2.st = .off) ∧ ∀ i, 1 ≤ i → i ≤ 30 → (t.peer p i).st = 4 ∧ (t.peer p i).why = 5
      (∃ t, exec (.functionLevelReset p) s = .next t ∧ cleared t q.destroying) ∧
      (∃ t, exec (.partitionDestroy p) s = .next t ∧ cleared t true) ∧
      (∀ d on, ∃ t q', exec (.dieDrain p d on) s = .next t ∧ partBecomes s t p q' ∧ restKept s t ∧
        (∀ j, j ∈ q'.draining ↔ if j = d then on = true else j ∈ q.draining)) ∧
      (q.tdisp = .configUnlocked → ∃ t, exec (.tdispMessage p 0x83) s = .next t ∧ restKept s t ∧
        partBecomes s t p { q with tdisp := .configLocked, ide := s.sessionOpen p }) ∧
      (q.tdisp = .configLocked → ∃ t, exec (.tdispMessage p 0x86) s = .next t ∧ restKept s t ∧ partBecomes s t p { q with tdisp := .run }) ∧
      (∃ t, exec (.tdispMessage p 0x87) s = .next t ∧ restKept s t ∧ partBecomes s t p { q with tdisp := .configUnlocked, ide := false }) ∧
      (∀ m, m ≠ 0x83 → m ≠ 0x86 → m ≠ 0x87 → exec (.tdispMessage p m) s = .next s) ∧
      (q.ide = true → ∃ t, exec (.ideCheckFail p) s = .next t ∧ restKept s t ∧ partBecomes s t p { q with tdisp := .error, ide := false }) ∧
      (∀ w addr data ide, q.tdisp ≠ .run ∨ ide = false ∨ q.ide = false ∨ s.hostOk q w addr data.length = false →
        ∃ t, exec (.hostDmaRequest p w addr data ide) s = .next t ∧ restKept s t ∧ partBecomes s t p { q with href := min 65535 (q.href + 1) }) ∧
      (∀ addr data, q.tdisp = .run → q.ide = true → s.hostOk q true addr data.length = true →
        let at' := fun (i : Nat) => q.hostKey (addr + i)
        ∃ t, exec (.hostDmaRequest p true addr data true) s = .next t ∧ t.cores = s.cores ∧
          (q.idle = true → (∀ e ∈ s.parts, ∀ x ∈ e.2.ctxs, x.2.st ≠ .halted ∧ x.2.st ≠ .saved) →
            partBecomes s t p { q with unflushed := ((List.range data.length).map at' ++ q.unflushed).eraseDups }) ∧
          (∀ n, (∀ i, i < data.length → n ≠ at' i) → t.byte n = s.byte n) ∧
          ∀ i, i < data.length → (∀ j, i < j → j < data.length → at' j ≠ at' i) → q.hostRaces (at' i) false = false →
            t.byte (at' i) = BitVec.ofNat 8 (data.getD i 0)) ∧
      (∀ addr data, q.tdisp = .run → q.ide = true → s.hostOk q false addr data.length = true →
        let out := (List.range data.length).map fun i => s.hostByte q (addr + i)
        ∃ t q', exec (.hostDmaRequest p false addr data true) s = .next t ∧ Tab.find t.parts p = some q' ∧ q'.dmaOut = out ∧ t.cores = s.cores ∧
          (q.idle = true → q.unread = [] → restKept s t ∧ partBecomes s t p { q with dmaOut := out, unflushed := [] })) ∧
      (∀ v, q.tdisp = .run → q.ide = true → q.tenantSet = false → ∃ t, exec (.tenantidWrite p v) s = .next t ∧ restKept s t ∧
        partBecomes s t p { q with tenantid := v % 2 ^ 384, tenantSet := true }) ∧
      (∀ v, q.ide = true → q.tenantSet = true ∨ q.tdisp ≠ .run → exec (.tenantidWrite p v) s = .next s) ∧
      (∀ v, q.ide = false → ∃ t, exec (.tenantidWrite p v) s = .next t ∧ restKept s t ∧ partBecomes s t p { q with href := min 65535 (q.href + 1) }) ∧
      (∀ tok, s.tokenStatus p q tok = 0 → ∃ t q', exec (.debugTokenCheck p tok) s = .next t ∧ restKept s t ∧ partBecomes s t p q' ∧
        q'.unlocked = true ∧ q'.dbgstat = 0 ∧ Tab.get 0 t.unlocks p = Tab.get 0 s.unlocks p + 1) ∧
      (∀ tok, s.tokenStatus p q tok ≠ 0 → ∃ t, exec (.debugTokenCheck p tok) s = .next t ∧ restKept s t ∧
        partBecomes s t p { q with dbgstat := s.tokenStatus p q tok }) ∧
      (∃ t, exec (.debugLock p) s = .next t ∧ restKept s t ∧ partBecomes s t p { q with unlocked := false }) ∧
      (∀ k, (s.core k).part = p → (s.core k).st = .running → q.unlocked = true → q.held = false → ∃ t q',
        exec (.debugStopRequest k) s = .next t ∧ restKept s t ∧ Tab.find t.parts p = some q' ∧
        q'.reqs = q.reqs ++ [⟨5, q.stime + 192, false, haltTag (s.core k).asid⟩]) ∧
      (∀ k, (s.core k).part = p → q.unlocked = false → exec (.debugStopRequest k) s = .next s))

/-! ## Registers, attestation, queues and graphs -/

/-- Register writes and attestation (R260, R283, R322, R340, R373, R399, R400, R401, R403): in RUN a write on the stream sets its register of the VF, or starts a load, and outside RUN nothing; one outside the stream counts in HREF;
a free entry of the points table takes its fields. Each SPDM request is answered in its phase, with its contents, and with an
error otherwise, outside recovery; a session goes from a key exchange through FINISH to open, counts its key updates and ends. -/
def Obligations.RegistersAndAttestation : Prop :=
  ∀ (p fn v : Nat) (s : State), fn ≤ 8 →
    (∀ q, p < 8 → Tab.find s.parts p = some q →
      let refused := s.modPart p fun q => { q with href := min 65535 (q.href + 1) }
      (∀ off, q.ide = false → exec (.registerWrite p off v) s = .next refused) ∧
      (∀ off, exec (.registerWrite (16 + p) off v) s = .next refused) ∧
      (∀ off, q.ide = true → q.tdisp ≠ .run → exec (.registerWrite p off v) s = .next s) ∧
      (q.ide = true → q.tdisp = .run →
        let sets := fun (off : Nat) (q' : Part) => ∃ t, exec (.registerWrite p off v) s = .next t ∧ partBecomes s t p q' ∧ restKept s t
        (∀ n, n < 256 → ∃ q', sets (0x10000 + 0x40 * n) q' ∧ q'.queue n = { q.queue n with
            base := v / 4096 % 2 ^ 52 * 4096, was := (q.queue n).seen q.stime, wrAt := some q.stime } ∧
          ∀ m, m ≠ n → q'.queue m = q.queue m) ∧
        sets 0x30000 { q with ttbase := field v 63 12, ttlog := field v 3 0 } ∧
        sets 0x50000 { q with tnbase := field v 63 12, tnlog := field v 4 0 } ∧
        sets 0x50008 { q with manifest := { q.manifest with base := v / 64 % 2 ^ 58 * 64 } } ∧
        (field v 0 0 = 0 → sets 0x50010 { q with manifest := { q.manifest with asid := field v 15 4 } }) ∧
        (field v 0 0 = 1 → exec (.registerWrite p 0x50010 v) s = exec (.manifestLoad p (field v 15 4)) s) ∧
        sets 0x80040 { q with msel := v % 2 ^ 12 })) ∧
    (∀ off, s.recovery = true → exec (.registerWrite 8 off v) s = .next s) ∧
    (∀ e, s.recovery = false → e < 256 → v < 2 ^ 63 → (s.circuit e).st = .free → ∃ t, exec (.registerWrite 8 (0x100000 + 8 * e) v) s = .next t ∧
      t.circuit e = (s.circuit e).withWord v ∧ t.parts = s.parts ∧ t.mem = s.mem ∧ t.cores = s.cores) ∧
    (s.recovery = false →
     let y := s.responder fn
     let kept := fun (t : State) => t.parts = s.parts ∧ t.mem = s.mem ∧ t.cores = s.cores ∧ ∀ m, m ≠ fn → t.responder m = s.responder m
     let tells := fun (i : Instr) (name : String) (ws : List Nat) (phase session sid updates : Nat) => ∃ t, exec i s = .next t ∧ kept t ∧
      (t.responder fn).reply = some (name, ws) ∧ (t.responder fn).phase = phase ∧ (t.responder fn).session = session ∧
      (t.responder fn).sid = sid ∧ (t.responder fn).updates = updates
     let same := fun (i : Instr) (name : String) (ws : List Nat) => tells i name ws y.phase y.session y.sid y.updates
     let unexpected := fun (i : Instr) => same i "ERROR" [4]
     let r := fun (i : Nat) => (Config.random (s.draws + i)).toNat
     tells (.getVersion fn) "VERSION" [0x13] 1 0 0 y.updates ∧
     (y.phase = 1 → tells (.getCapabilities fn) "CAPABILITIES" [Config.spdmFlags] 2 y.session y.sid y.updates) ∧
     (y.phase ≠ 1 → unexpected (.getCapabilities fn)) ∧
     (∀ hash sig aead, y.phase = 2 → hash / 2 % 2 = 1 → sig / 512 % 2 = 1 → aead / 2 % 2 = 1 →
       tells (.negotiateAlgorithms fn hash sig aead) "ALGORITHMS" [2, 512, 2] 3 y.session y.sid y.updates) ∧
     (∀ hash sig aead, y.phase ≠ 2 → unexpected (.negotiateAlgorithms fn hash sig aead)) ∧
     (y.phase = 3 → same (.getDigests fn) "DIGESTS" [(Config.sha384 Config.certificate).toNat]) ∧
     (∀ off len, y.phase = 3 → same (.getCertificate fn off len) "CERTIFICATE" (((Config.certificate.drop off).take len).map (·.toNat))) ∧
     (∀ nonce, y.phase = 3 → same (.challenge fn nonce) "CHALLENGE_AUTH" [nonce, r 0, (Config.sha384 Config.certificate).toNat]) ∧
     (∀ idx nonce ws, y.phase = 3 → s.measurement fn idx = some ws →
       same (.getMeasurements fn idx nonce) "MEASUREMENTS" ([nonce, r 0, idx] ++ ws)) ∧
     (∀ off len nonce idx, y.phase ≠ 3 → unexpected (.getDigests fn) ∧ unexpected (.getCertificate fn off len) ∧ unexpected (.challenge fn nonce) ∧
       unexpected (.getMeasurements fn idx nonce)) ∧
     (∀ sid pub, y.phase = 3 → y.session = 0 → tells (.keyExchange fn sid pub) "KEY_EXCHANGE_RSP" [sid, pub, r 0, r 1] 3 1 sid 0) ∧
     (y.session = 1 → tells (.finish fn true) "FINISH_RSP" [] y.phase 2 y.sid y.updates ∧ tells (.finish fn false) "ERROR" [4] y.phase 0 y.sid y.updates) ∧
     (y.session = 2 → tells (.keyUpdate fn) "KEY_UPDATE_ACK" [] y.phase 2 y.sid (y.updates + 1) ∧
       tells (.endSession fn) "END_SESSION_ACK" [] y.phase 0 0 y.updates) ∧
     (y.session ≠ 2 → unexpected (.keyUpdate fn) ∧ unexpected (.endSession fn)))

/-- Queues (R260 to R262, R265, R266, R268, R270, R278): enabling an OFF queue for a READY or ACTIVE context leaves it READY or EMPTY, and a bad one
OFF with ERR 1; a tail write makes an EMPTY queue with a record READY, and a READY one stays so; a write with EN 0 leaves it OFF, or DRAINING while a claim is
unresolved, with the fields that it gives; a selection, by a leader that is eligible and from the registers as they stood at the start of the tick, claims for
the next claim tick, starts a graph that it consumes (that it does so in its own tick is the model's choice, log entry 27), consumes a bad record or faults the queue; at a claim tick at which no leader moves a claim with a free rectangle binds every member of it,
with START at least 4,096 ticks on, and one without loses. -/
def Obligations.QueueEvents : Prop :=
  ∀ (p n : Nat) (s : State) (q : Part), Tab.find s.parts p = some q → n < 256 →
    let u := q.queue n
    let queueBecomes := fun (i : Instr) (f : Queue → Prop) => ∃ t q', exec i s = .next t ∧ Tab.find t.parts p = some q' ∧ f (q'.queue n) ∧
      (∀ m, m ≠ n → q'.queue m = q.queue m) ∧ t.mem = s.mem ∧ t.cores = s.cores
    (q.ide = true → q.tdisp = .run →
      (∀ cfg,
        let asid := field cfg 43 32
        let log2n := field cfg 12 8
        let fields := fun (v : Queue) => v.asid = asid ∧ v.log2n = log2n ∧ v.prio = field cfg 3 0 ∧ v.tail = u.tail ∧ v.head = u.head
        (∀ x, u.st = .off → Tab.find q.ctxs asid = some x → x.st = .ready ∨ x.st = .active → 4 ≤ log2n → log2n ≤ 12 → field cfg 4 4 = 1 →
          queueBecomes (.queueEnable p n cfg) fun v => fields v ∧ v.en = true ∧ v.err = 0 ∧ v.st = if v.tail = v.head then .empty else .ready) ∧
        (u.st = .off → Tab.find q.ctxs asid = none ∨ log2n < 4 ∨ 12 < log2n →
          queueBecomes (.queueEnable p n cfg) fun v => fields v ∧ v.en = false ∧ v.err = 1 ∧ v.st = .off) ∧
        queueBecomes (.queueDisable p ⟨n, cfg⟩) (fun v => fields v ∧ v.en = false ∧
          v.st = match u.st with | .off => .off | .faulted => .off | _ => if q.claimed n then .draining else .off)) ∧
      (∀ v, u.st = .empty ∨ u.st = .ready → queueBecomes (.qtailWrite p n v) fun w => w.tail = v % 65536 ∧ w.head = u.head ∧
        w.st = if u.st = .empty ∧ v % 65536 = u.head then .empty else .ready)) ∧
    (let w := u.seen q.stime
     u.st = .ready → w.st = .ready → q.claimed n = false → q.held = false → s.eligible q u.ldr = true →
      (q.migration = none → ∀ c, q.pgcmd = some c → q.stime < c.at') →
      let s0 := s.meetRecord q (w.base + 64 * (u.head % 2 ^ w.log2n)) 64
      let rec' := s0.headRecord p n w
      (rec' = none → queueBecomes (.queueSelect p n) fun v => v.st = .faulted ∧ v.err = 2 ∧ v.head = u.head) ∧
      (∀ r, rec' = some r → recordOk r = false → ∃ t q', exec (.queueSelect p n) s = .next t ∧ Tab.find t.parts p = some q' ∧
        (q'.queue n).head = (u.head + 1) % 65536) ∧
      (∀ r, rec' = some r → recordOk r = true → s0.rectStatus q (field r 8 8 == 1) (field r 39 32) (field r 47 40) (field r 23 16) (field r 31 24) = none →
        (field r 7 0 = 2 → ∃ t q' g z, exec (.queueSelect p n) s = .next t ∧ Tab.find t.parts p = some q' ∧ (q'.queue n).head = (u.head + 1) % 65536 ∧
          Tab.find q'.graphs g = some z ∧ z.st = .reached ∧ z.node = field r 127 64 ∧ z.at' = s.ctxNow p w.asid ∧ z.asid = w.asid ∧ z.queue = n ∧
          z.tag = field r 255 192 ∧ t.cores = s.cores ∧ t.mem = s.mem) ∧
        (∀ s1 q1 hm, field r 7 0 = 1 → s0.takeImage p w.asid (field r 127 64) (field r 23 16) (field r 31 24) = (s1, some hm) →
          Tab.find s1.parts p = some q1 →
          ∃ t q' c, exec (.queueSelect p n) s = .next t ∧ Tab.find t.parts p = some q' ∧ q'.claims = q1.claims ++ [c] ∧
            (q'.queue n).st = .selected ∧ c.at' = (q.stime / 256 + 1) * 256 ∧ c.queue = n ∧ c.tag = field r 255 192 ∧ c.image = field r 127 64 ∧
            c.asid = w.asid ∧ c.index = u.head ∧ c.earliest = field r 191 128 ∧ c.arg = field r 319 256 ∧ c.base = w.base ∧ c.log2n = w.log2n))) ∧
    (q.stime % 256 ≠ 0 → exec (.claimResolve p) s = .next s) ∧
    (∀ c s1 q1 args, q.claims = [c] → c.at' ≤ q.stime → q.stime % 256 = 0 →
      (∀ i, i < 256 → s.leader q i = none ∨ s.leader q i = some (q.queue i).ldr) → c.any = false → c.graph = none →
      let s2 := (s.modPart p fun q => { q with recs0 := s.vrecs }).modPart p fun q =>
        { q with claims := q.claims.filter fun c => !decide (c.at' ≤ q.stime) }
      let h := s2.devLoad (s2.part p) c.image 256
      s2.hasFence (s2.part p) c.gx0 c.gy0 c.gw c.gh = false → s2.loaderReads (s2.part p) c.asid c.image (max 256 (imLen h)) = true →
      s2.launchArgs p c h = some (s1, args) → Tab.find s1.parts p = some q1 →
      let members := q1.rectMembers c.gx0 c.gy0 c.gw c.gh
      (s2.rectFree (s2.part p) c.gx0 c.gy0 c.gw c.gh = true →
        ∃ t y, exec (.claimResolve p) s = .next t ∧ t.launch p q1.nextLaunch = some y ∧ y.running = false ∧ y.members = members ∧
          y.asid = c.asid ∧ y.tag = c.tag ∧ q1.stime + 4096 ≤ y.start ∧
          (∀ k ∈ members, (t.core k).st = .bound ∧ (t.core k).part = p ∧ (t.core k).asid = c.asid ∧ (t.core k).launch = q1.nextLaunch ∧
            (t.core k).pc = imEntry h ∧ (t.core k).nbundles = imNbundle h) ∧ ∀ k, k ∉ members → t.core k = s1.core k) ∧
      (s2.rectFree (s2.part p) c.gx0 c.gy0 c.gw c.gh = false → ∃ t q', exec (.claimResolve p) s = .next t ∧ Tab.find t.parts p = some q' ∧
        (c.queue < 256 → (q'.queue c.queue).loss = min 65535 ((q.queue c.queue).loss + 1)) ∧ t.cores = s.cores))

/-- The present node of a graph has been reached: by a tick of its context's time, while the context is READY or ACTIVE (R284). -/
def Sys2Proof.Claims.nodeReached (q : Part) (z : Graph) : Prop :=
  z.st = .reached ∧ ∃ x, Tab.find q.ctxs z.asid = some x ∧ (x.st = .ready ∨ x.st = .active) ∧ z.at' ≤ q.stime - x.ctoff
/-- An event ends graph g of partition p. -/
def Sys2Proof.Claims.graphEnds (s : State) (p g : Nat) (i : Instr) : Prop :=
  ∃ t q', exec i s = .next t ∧ Tab.find t.parts p = some q' ∧ Tab.find q'.graphs g = none ∧ t.cores = s.cores
/-- An event takes graph g of partition p on. -/
def Sys2Proof.Claims.graphMoves (s : State) (p g : Nat) (i : Instr) (f : Graph → Prop) : Prop :=
  ∃ t q' z', exec i s = .next t ∧ Tab.find t.parts p = some q' ∧ Tab.find q'.graphs g = some z' ∧ f z' ∧ t.cores = s.cores

/-- KERNEL and END nodes, and nodes that are not valid (R284, R286): a KERNEL node whose image is in the kernel table, or is taken into it, claims for the next
claim tick and keeps its NEXT; END ends the graph, and so does a node that is not valid. -/
def Obligations.GraphEvents : Prop :=
  ∀ (p g : Nat) (s : State) (q : Part) (z : Graph), Tab.find s.parts p = some q → Tab.find q.graphs g = some z → nodeReached q z →
    (s.node p z = none → ∀ i ∈ [Instr.graphKernelNode p g, .graphCondNode p g, .graphWhileNode p g, .graphSwapNode p g, .graphEndNode p g],
      graphEnds s p g i) ∧
    (∀ x, s.node p z = some x →
      (nKind x = 0 → graphEnds s p g (.graphEndNode p g)) ∧
      (nKind x = 1 →
        let claims := fun (q1 : Part) (start : Nat) => ∃ t q' c, exec (.graphKernelNode p g) s = .next t ∧ Tab.find t.parts p = some q' ∧
          q'.claims = q1.claims ++ [c] ∧ c.at' = (q.stime / 256 + 1) * 256 ∧ c.graph = some g ∧ c.image = nObj x ∧ c.arg = nVal x ∧
          c.asid = z.asid ∧ c.earliest = z.at' + start ∧ Tab.find q'.graphs g = some { z with st := .claiming, next := nNext x, row := 0 }
        s.rectStatus q (field x 8 8 == 1) (field x 39 32) (field x 47 40) (field x 23 16) (field x 31 24) = none →
        (let h := s.devLoad q (nObj x) 256
         nObj x % 65536 = 0 → nObj x + 256 ≤ q.dies.length * 2 ^ 36 → (q.kernel (nObj x) z.asid).isSome = true →
          let ok := s.loaderReads q z.asid (nObj x) (max 256 (imLen h)) && s.imageOk q (nObj x) h (field x 23 16) (field x 31 24)
          (ok = true → claims q (imStart h)) ∧ (ok = false → graphEnds s p g (.graphKernelNode p g))) ∧
        ∀ s1 q1 h m, (s.meetRecord q (q.ttbase * 4096 + 64 * z.node) 64).takeImage p z.asid (nObj x) (field x 23 16) (field x 31 24) = (s1, some (h, m)) → Tab.find s1.parts p = some q1 →
          Tab.find q1.graphs g = some z → claims q1 (imStart h)) ∧
      (63 ≤ z.row → (nKind x = 2 → graphEnds s p g (.graphCondNode p g)) ∧ (nKind x = 3 → graphEnds s p g (.graphWhileNode p g)) ∧
        (nKind x = 4 → graphEnds s p g (.graphSwapNode p g))))

/-- COND, WHILE and SWAP nodes (R283 to R286, R310): COND goes to ALT when its word is 0, else to NEXT, in the tick at which it was reached; WHILE goes to NEXT
when its word is 0, to ALT while its count is below LIMIT, and ends there; a word that cannot be read ends the graph; SWAP keeps what the node holds, waits for a
claim tick at which its version stands, and ends when it has waited LIMIT of them. -/
def Obligations.GraphConditions : Prop :=
  ∀ (p g : Nat) (s : State) (q : Part) (z : Graph), Tab.find s.parts p = some q → Tab.find q.graphs g = some z →
    let s' := (s.meetRecord q (q.ttbase * 4096 + 64 * z.node) 64).modGraph p g fun z => { z with row := z.row + 1 }
    (∀ x, nodeReached q z → s.node p z = some x → z.row < 63 →
      (nKind x = 2 →
        (∀ s1 w, s'.condWord p z x = (s1, some w) → graphMoves s p g (.graphCondNode p g) fun y => y.st = .reached ∧ y.at' = z.at' ∧
          y.node = (if w = 0 then nAlt x else nNext x) ∧ y.row = z.row + 1) ∧
        (∀ s1, s'.condWord p z x = (s1, none) → graphEnds s p g (.graphCondNode p g))) ∧
      (nKind x = 3 →
        (∀ s1, s'.condWord p z x = (s1, none) → graphEnds s p g (.graphWhileNode p g)) ∧
        ∀ s1 w, s'.condWord p z x = (s1, some w) →
          let n := Tab.get 0 z.iters z.node
          (w = 0 → graphMoves s p g (.graphWhileNode p g) fun y => y.node = nNext x ∧ y.at' = z.at' ∧ Tab.get 0 y.iters z.node = 0) ∧
          (w ≠ 0 → n < nLimit x → graphMoves s p g (.graphWhileNode p g) fun y => y.node = nAlt x ∧ y.at' = z.at' ∧
            Tab.get 0 y.iters z.node = n + 1) ∧
          (w ≠ 0 → nLimit x ≤ n → graphEnds s p g (.graphWhileNode p g))) ∧
      (nKind x = 4 → q.stime % 256 ≠ 0 → graphMoves s p g (.graphSwapNode p g) fun y =>
        y = { z with st := .swapping, waited := 0, next := nNext x, obj := nObj x, val := nVal x, limit := nLimit x, row := z.row + 1 })) ∧
    (z.st = .swapping →
      (q.stime % 256 ≠ 0 → exec (.graphSwapNode p g) s = .next s) ∧
      (q.stime % 256 = 0 → s.swapMet s.vrecs p z.asid z.obj z.val = true →
        graphMoves s p g (.graphSwapNode p g) fun y => y = { z with st := .reached, node := z.next, at' := s.ctxNow p z.asid }) ∧
      (q.stime % 256 = 0 → s.swapMet s.vrecs p z.asid z.obj z.val = false →
        (z.limit = 0 ∨ z.waited < z.limit → graphMoves s p g (.graphSwapNode p g) fun y => y = { z with waited := z.waited + 1 }) ∧
        (z.limit ≠ 0 → z.limit ≤ z.waited → graphEnds s p g (.graphSwapNode p g))))

/-- Pages (R355, R357 to R359, R363): ASSIGN gives free granules to its ASID, zeroed; RELEASE takes them back; INVALIDATE removes the entries that
overlap its range; a bad record ends with code 1, a granule in use with 3 and one of another owner with 2. A migration that is in order puts its source in
the siding, copies from 192 ticks on, and ends with the leaf at its new place and cause 2 clear. A patrol read of the granule whose turn it is, unless that
is of the checkpoint set, marks the lines that it finds uncorrectable (that WTIME tells the turn is the model's choice, log entry 40). -/
def Obligations.PageEvents : Prop :=
  ∀ (p : Nat) (rec : PageRecord) (s : State) (q : Part), Tab.find s.parts p = some q →
    let st : Bool := rec.mem == 1
    let own := fun (s : State) (l : Nat × Nat) => s.own st (q.pdie l.1) l.2
    let done := fun (i : Instr) (code : Nat) (f : State → Prop) => ∃ t q', exec i s = .next t ∧ Tab.find t.parts p = some q' ∧
      q'.pgcmd = none ∧ q'.pgcode = code ∧ f t
    let kept := fun (t : State) => t.mem = s.mem ∧ t.owns = s.owns ∧ t.cores = s.cores
    let zeroed := fun (t : State) (gs : List (Nat × Nat)) => ∀ l ∈ gs, ∀ o, o < 65536 →
      t.byte (devKey st (q.pdie l.1) (l.2 / 65536 * 65536) + o) = 0
    (pageRecordOk q rec 7 = false ∨ q.units rec = none → done (.assign p rec) 1 kept) ∧
    (pageRecordOk q rec 0 = false ∨ q.units rec = none → done (.release p rec) 1 kept) ∧
    (recordLimits q rec 0 = false ∨ rec.size % 4096 ≠ 0 → done (.invalidate p rec) 1 kept) ∧
    (∀ gs, q.units rec = some gs →
      (pageRecordOk q rec 7 = true → (∃ l ∈ gs, (own s l).v = true ∨ (own s l).unusable = true) → done (.assign p rec) 3 kept) ∧
      (pageRecordOk q rec 7 = true → (∀ l ∈ gs, (own s l).v = false ∧ (own s l).unusable = false) → done (.assign p rec) 0 fun t =>
        t.cores = s.cores ∧ zeroed t gs ∧ ∀ l ∈ gs, (own t l).v = true ∧ (own t l).asid = rec.asid ∧ (own t l).code = false ∧
          (own t l).sid = false ∧ (own t l).pgen = q.gen ∧ (own t l).host = (rec.flags % 2 == 1) ∧ (own t l).pt = (rec.flags / 2 % 2 == 1) ∧
          (own t l).ckp = (rec.flags / 4 % 2 == 1)) ∧
      (pageRecordOk q rec 0 = true → (∃ l ∈ gs, ¬ ((own s l).v = true ∧ (own s l).asid = rec.asid ∧ (own s l).code = false)) →
        done (.release p rec) 2 kept) ∧
      (pageRecordOk q rec 0 = true → (∀ l ∈ gs, (own s l).v = true ∧ (own s l).asid = rec.asid ∧ (own s l).code = false ∧ (own s l).sid = false) →
        done (.release p rec) 0 fun t => t.cores = s.cores ∧ zeroed t gs ∧ ∀ l ∈ gs, (own t l).v = false)) ∧
    (recordLimits q rec 0 = true → rec.size % 4096 = 0 → done (.invalidate p rec) 0 fun t => t.mem = s.mem ∧ t.owns = s.owns ∧
      ∀ k i, (t.core k).part = p → ∀ e ∈ ((t.core k).stream i).tlb, ¬ (e.asid = rec.asid ∧
        (rec.size = 0 ∨ (e.vbase < rec.addr + rec.size ∧ rec.addr < e.vbase + e.size)))) ∧
    (s.walk q rec.asid rec.addr = none → done (.migrate p rec) 1 kept) ∧
    (∀ e, s.walk q rec.asid rec.addr = some e → pageRecordOk q rec 0 = true →
      let d := field rec.ptea 63 61
      let off := field rec.ptea 60 0
      let root := (Tab.get (0 : Word) q.ptroot rec.asid).toNat
      let group := fun (o : Nat) => if e.size = 2 ^ 16 then o / 128 else o / 8
      let hashed : Bool := rec.place == 1
      let mine := fun (st : Bool) (l : Nat × Nat) => let o := s.own st (q.pdie l.1) l.2; o.v = true ∧ o.asid = rec.asid ∧ o.code = false
      let sources := q.pageGranules e.station e.hashed e.home e.dbase e.size
      off % 8 = 0 → ((s.leafFrom q rec.asid rec.addr 3 (field root 7 5) (field root 47 12 * 4096)).map fun l => (l.1, group l.2)) = some (d, group off) →
      rec.daddr % e.size = 0 → (q.locate st hashed rec.home rec.daddr).isSome = true →
      (q.locate st hashed rec.home (rec.daddr + e.size - 1)).isSome = true →
      (∀ l ∈ sources, mine e.station l) → (∀ l ∈ q.pageGranules st hashed rec.home rec.daddr e.size, mine st l) → q.migration = none →
      (∀ z ∈ s.owns, ¬ (z.2.v = true ∧ z.2.asid = rec.asid ∧ z.2.sid = true)) →
      ∃ t q' m, exec (.migrate p rec) s = .next t ∧ Tab.find t.parts p = some q' ∧ q'.migration = some m ∧ m.asid = rec.asid ∧ m.va = e.vbase ∧
        m.size = e.size ∧ m.dst = rec.daddr ∧ m.x = q.stime ∧ m.copying = false ∧ m.waiting = [] ∧ t.mem = s.mem ∧
        ∀ l ∈ sources, (t.own e.station (q.pdie l.1) l.2).sid = true) ∧
    (∀ m, q.migration = some m →
      (m.copying = false → m.x + 192 ≤ q.stime → ∃ t, exec (.migrationCopyStart p) s = .next t ∧ restKept s t ∧
        partBecomes s t p { q with migration := some { m with copying := true } } ∧ ∃ e ∈ t.events, e.2 = .copyEngineComplete p) ∧
      (m.copying = true → m.waiting = [] → ∃ t q', exec (.copyEngineComplete p) s = .next t ∧ Tab.find t.parts p = some q' ∧
        q'.migration = none ∧ q'.pgcmd = none ∧ q'.pgcode = 0 ∧ (∀ r ∈ q'.causes, r.cause = 2 → r.cleared = true) ∧
        (∀ r ∈ q'.reqs, r.cause ≠ 2) ∧ t.cores = s.cores ∧
        (m.size ≠ 2 ^ 16 → field (t.load m.pte 8) 47 12 = m.dst / 4096 % 2 ^ 36 ∧ field (t.load m.pte 8) 9 7 = m.dstHome % 8 ∧
          field (t.load m.pte 8) 6 5 = 2 * m.dstStation.toNat + m.dstHashed.toNat))) ∧
    (∀ die granule bad,
      let turn := s.wtime / 2 ^ 22
      (die < 8 → granule = turn % 2 ^ 20 → (s.die die).patrol ≤ turn → (s.own false die (granule * 65536)).ckp = false →
        ∃ t, exec (.patrolRead die granule bad) s = .next t ∧ t.mem = s.mem ∧ t.cores = s.cores ∧ t.parts = s.parts ∧
          ∀ i ∈ bad, i < 1024 → (t.stampAt die (granule * 65536 + 64 * i)).bad = true) ∧
      (granule ≠ turn % 2 ^ 20 ∨ turn < (s.die die).patrol ∨ (s.own false die (granule * 65536)).ckp = true →
        exec (.patrolRead die granule bad) s = .next s))

/-! ## Manifests, links and peers -/

/-- Manifests (R340 to R344): GO with a valid header loads the package's own entries, a manifest that is invalid is FAILED, and GO during a load sets ASID
only; an attempt whose shard stands committed with its digest takes the entry from the load and sets DIGOK; a failed attempt, and an entry unchecked at its
deadline, poisons its tensor, the latter once; a re-check of a checked entry falls due at each multiple of 256 times the interval. An entry that is not valid is refused
(R7; which are valid is in log entry 29). -/
def Obligations.ManifestEvents : Prop :=
  ∀ (p a i : Nat) (s : State) (q : Part), Tab.find s.parts p = some q →
    let m := q.manifest
    let own := fun (h : Nat × Nat) => s.ownEntries q m.base h.1
    let x := s.manifestEntry q (m.baseOf a) i
    let pinned := fun (b : RangeBind) => (s.pinTensor p a (eTid x)).2 = some b ∧ (s.recOf p b).st ≠ .invalid
    let poisoned := fun (t : State) (b : RangeBind) => t.recOf p b = { s.recOf p b with psn := true, digok := false }
    let goes := ∃ z, Tab.find q.ctxs a = some z ∧ (z.st = .active ∨ z.st = .ready)
    (q.ide = true → q.tdisp = .run →
      (m.st = 1 → ∃ t, exec (.manifestLoad p a) s = .next t ∧ restKept s t ∧ partBecomes s t p { q with manifest := { m with asid := a } }) ∧
      (m.st ≠ 1 → (s.manifestHeader q a m.base = none ∨
          ∃ h, s.manifestHeader q a m.base = some h ∧ ∃ j ∈ own h, s.entryIn q a m.base j = none) →
        ∃ t, exec (.manifestLoad p a) s = .next t ∧ restKept s t ∧
          partBecomes s t p { q with manifest := { m with asid := a, cur := a, st := 3 } }) ∧
      (∀ h, m.st ≠ 1 → s.manifestHeader q a m.base = some h → (∀ j ∈ own h, s.entryIn q a m.base j ≠ none) → own h ≠ [] →
        ∃ t q', exec (.manifestLoad p a) s = .next t ∧ Tab.find t.parts p = some q' ∧ q'.manifest.asid = a ∧ q'.manifest.cur = a ∧ q'.manifest.st = 1 ∧
          q'.manifest.todo = (own h).map (fun j => (a, j)) ∧ Tab.find q'.manifest.loaded a = some m.base ∧ t.cores = s.cores)) ∧
    (m.st = 1 → m.todo.head? = some (a, i) →
      (∀ b data s1 q1, s.entryIn q a (m.baseOf a) i = some x → pinned b → b.shard = true → s.sourceOpen p a x data.length = true → s.loadShard p b data = some s1 → (s1.recOf p b).st = .closed → s1.digestMatches p b x = true →
        (s1.pinTensor p a (eTid x)).2 = some b → Tab.find s1.parts p = some q1 →
        ∃ t q', exec (.shardAttemptComplete p i true data) s = .next t ∧ Tab.find t.parts p = some q' ∧
          q'.manifest.todo = q1.manifest.todo.filter (· != (a, i)) ∧ t.recOf p b = { s1.recOf p b with psn := false, digok := true }) ∧
      (∀ b data, pinned b → ∃ t, exec (.shardAttemptComplete p i false data) s = .next t ∧ poisoned t b)) ∧
    (m.st ≠ 1 ∨ (∀ e, m.todo.head? = some e → e.2 ≠ i) → ∀ ok data, exec (.shardAttemptComplete p i ok data) s = .next s) ∧
    (∀ b, m.st = 1 → m.todo = [(a, i)] → (a, i) ∉ m.late → eDeadline x ≤ s.ctxTick p a → goes → pinned b →
      ∃ t, exec (.shardDeadline p i) s = .next t ∧ poisoned t b) ∧
    (m.st ≠ 1 ∨ (∀ e ∈ m.todo, e.2 = i → e ∈ m.late ∨ s.ctxTick p e.1 < eDeadline (s.manifestEntry q (m.baseOf e.1) i)) → exec (.shardDeadline p i) s = .next s) ∧
    (∀ base h, m.loaded = [(a, base)] → s.manifestHeader q a base = some h →
      (h.2 = 0 ∨ s.ctxTick p a % (256 * h.2) ≠ 0 → exec (.manifestRecheck p) s = .next s) ∧
      (∀ b, h.2 ≠ 0 → s.ctxTick p a % (256 * h.2) = 0 → goes →
        ((s.ownEntries q base h.1).filter fun j => (s.entryIn q a base j).any fun x => eStatus x == 1) = [i] → pinned b →
        ∃ t, exec (.manifestRecheck p) s = .next t ∧ restKept s t ∧
          partBecomes s t p { q with digests := q.digests ++ [⟨b, a, s.ctxTick p a, s.ctxTick p a + b.limit / 64, [], true, some (base, i)⟩] }))

/-- Links (R372 to R378, Table 18.3): the states of die attaches, ports and circuits change as the table says; an enabled circuit is SETTING for
at most 25,000 wall ticks, UP once its attaches are ACTIVE, DRAINING when it is disabled and then FREE; a refused write leaves its code in LERR; a fenced
wavelength is replaced by a spare, and no circuit changes by it but in REPLAY; and FABIDX is taken while every port is DOWN. -/
def Obligations.LinkEvents : Prop :=
  ∀ (d e n i w : Nat) (s : State), d < 8 → e < 256 → n < 16 →
    let attach := fun (ins : Instr) (from' to' : LinkSt) => (s.die d).attach = from' →
      ∃ t, exec ins s = .next t ∧ (t.die d).attach = to' ∧ (∀ j, j ≠ d → t.die j = s.die j) ∧ t.circuits = s.circuits ∧ t.ports = s.ports
    let stays := fun (ins : Instr) (from' : LinkSt) => (s.die d).attach ≠ from' → exec ins s = .next s
    let port := fun (ins : Instr) (from' to' : LinkSt) => s.port n = from' → ∃ t, exec ins s = .next t ∧ t.port n = to' ∧
      (∀ j, j ≠ n → t.port j = s.port j) ∧ t.mem = s.mem ∧ t.cores = s.cores
    let c := s.circuit e
    let circuit := fun (t : State) (c' : Circuit) => t.circuit e = c' ∧ (∀ j, j ≠ e → t.circuit j = s.circuit j) ∧ t.mem = s.mem ∧
      t.cores = s.cores ∧ t.parts = s.parts
    attach (.attachResetEnd d) .reset .training ∧ stays (.attachResetEnd d) .reset ∧
    attach (.attachTrainingPass d) .training .active ∧ stays (.attachTrainingPass d) .training ∧
    attach (.attachRetrainRequest d) .active .training ∧ stays (.attachRetrainRequest d) .active ∧
    attach (.attachTrainingFail d) .training .faulted ∧ stays (.attachTrainingFail d) .training ∧
    port (.portEnable n) .down .training ∧ port (.portTrainingPass n 4) .training .up ∧ port (.portLaneLoss n) .up .training ∧
    (∀ k, k ≠ 4 → exec (.portTrainingPass n k) s = .next s) ∧
    (s.port n = .up ∨ s.port n = .training → ∃ t, exec (.portDisable n) s = .next t ∧ t.port n = .down ∧ (s.outq = [] → t.mem = s.mem ∧ t.cores = s.cores)) ∧
    exec (.fabidxWrite w) s = .next (if s.ports = [] then { s with fabidx := w % 1024 } else s) ∧
    (c.st = .free →
      (s.circuitCode (c.withWord w) = 0 → ∃ t v, exec (.circuitEnable e w) s = .next t ∧
        circuit t { c.withWord w with en := true, st := .setting, act := 0, setups := (c.setups + 1) % 2 ^ 32 } ∧
        (v, Ev.circuitLit e) ∈ t.events ∧ s.wtime < v ∧ v ≤ s.wtime + 25000) ∧
      (s.circuitCode (c.withWord w) ≠ 0 → exec (.circuitEnable e w) s = .next { s with lerr := s.circuitCode (c.withWord w) })) ∧
    (c.st = .setting → (s.die c.src).attach = .active → c.toPort = true ∨ (s.die c.dst).attach = .active →
      ∃ t, exec (.circuitLit e) s = .next t ∧ circuit t { c with st := .up, act := c.nwl }) ∧
    (c.st = .up ∨ c.st = .degraded ∨ c.st = .failed →
      (c.toPort = true ∨ Tab.find s.parts c.part = none → ∃ t, exec (.circuitDisable e) s = .next t ∧
        circuit t { c with en := false, st := .draining } ∧ ∃ v ∈ t.events, v.2 = .circuitDrainComplete e) ∧
      (c.toPort = false → c.st ≠ .failed → Tab.find s.parts c.part ≠ none →
        (∀ z ∈ s.circuits, z.1 = e ∨ z.2.toPort = true ∨ ¬ (z.2.st = .setting ∨ z.2.st = .up ∨ z.2.st = .degraded)) →
        exec (.circuitDisable e) s = .next { s with lerr := 4 })) ∧
    (c.st = .draining → ∃ t, exec (.circuitDrainComplete e) s = .next t ∧ circuit t { c with st := .free, act := 0 }) ∧
    (i < 64 → (s.die d).fenw / 2 ^ i % 2 = 0 → 0 < (s.die d).spares → ∃ t, exec (.wavelengthFence d i) s = .next t ∧
      t.die d = { s.die d with fenw := (s.die d).fenw + 2 ^ i, wlUsed := (s.die d).wlUsed + 1 } ∧ (∀ j, j ≠ d → t.die j = s.die j) ∧
      ∀ j, t.circuit j = { s.circuit j with replay := (t.circuit j).replay })

/-- Flits and peers (R367, R368, R371, R381 to R384): a flit whose fields are out of order changes no core and no byte; a data flit of an OPEN
peer whose tag verifies and that comes in sequence waits for its release tick, one out of sequence is dropped, and a failed tag counts towards the eight; an
association goes from OFFERED through KEYED to OPEN, FAILED with WHY 1 for a signature, 2 for a measurement, 3 for a time-out and 4 for a close by the peer, and
CLOSED when it is closed here, and each message that it sends goes out whole on the package lane of its port; an INIT that matches no entry on offer is discarded, and so is a
flit of a function under reset. -/
def Obligations.PeerEvents : Prop :=
  ∀ (p i : Nat) (s : State) (q : Part), Tab.find s.parts p = some q → 1 ≤ i → i ≤ 30 → (∀ o ∈ s.outq, o.part = p → o.peer ≠ i) →
    let y := s.peer p i
    let peer := fun (ins : Instr) (f : Peer → Prop) => ∃ t, exec ins s = .next t ∧ f (t.peer p i) ∧ (∀ j, j ≠ i → t.peer p j = s.peer p j) ∧
      t.mem = s.mem ∧ t.cores = s.cores
    let failed := fun (ins : Instr) (why : Nat) => peer ins fun z => z.st = 4 ∧ z.why = why ∧ z.keys = none
    let sends := fun (ins : Instr) (n kind : Nat) (body : State → List Byte → Prop) => s.port n = .up → ∃ t m, exec ins s = .next t ∧
      t.sent.head? = some m ∧ m.kind = kind ∧ m.part = p ∧ m.peer = i ∧ m.port = n ∧ body t m.body
    (∀ f : Flit, f.kind = 0 ∨ 3 < f.kind ∨ f.rsv ≠ 0 ∨ f.off % 64 ≠ 0 → ∃ t, exec (.flitReceive f) s = .next t ∧ t.mem = s.mem ∧
      t.cores = s.cores ∧ t.parts = s.parts ∧ t.lanes = s.lanes) ∧
    (∀ f : Flit, f.kind = 1 → f.rsv = 0 → f.off % 64 = 0 → f.lane = 32 * p + i → p < 8 → f.lane ≠ 255 → q.resetting = true → exec (.flitReceive f) s = .next s) ∧
    (∀ f : Flit, f.kind = 1 → f.rsv = 0 → f.off % 64 = 0 → f.lane = 32 * p + i → p < 8 → f.lane ≠ 255 → 8 ≤ f.link → q.resetting = false → y.st = 3 → y.keys ≠ none →
      let l := s.laneOf' f
      let tick := ((q.awaited.find? fun a => a.1 == flitTag f).map (·.2)).getD (q.t0 + ((f.tick - q.w0) * q.rate + 15) / 16)
      (∀ key g n, s.openFlit q f = some (key, g, n) →
        (∀ b, f.seq = n → (s.pinTensor p y.asid f.sel).2 = some b → (s.recOf p b).writable b p = true → f.off + 64 ≤ b.limit →
          ∃ t q', exec (.flitReceive f) s = .next t ∧ Tab.find t.parts p = some q' ∧
            q'.inbound = q.inbound ++ [⟨s.epoch * 2 ^ 20 + q.inbound.length, i, f.sel, f.off, tick,
              flitPlain f key g, (s.recOf p b).ever, f.seq, f.tick⟩] ∧
            t.laneOf' f = ⟨n + 1, 0, g⟩ ∧ t.mem = s.mem ∧ t.cores = s.cores) ∧
        (f.seq ≠ n → ∃ t, exec (.flitReceive f) s = .next t ∧ t.parts = s.parts ∧ t.mem = s.mem ∧ t.cores = s.cores ∧ t.lanes = s.lanes)) ∧
      (s.openFlit q f = none → l.fails < 7 → ∃ t, exec (.flitReceive f) s = .next t ∧ t.laneOf' f = { l with fails := l.fails + 1 } ∧
        t.parts = s.parts ∧ t.mem = s.mem ∧ t.cores = s.cores)) ∧
    (q.ide = true → q.tdisp = .run →
      (y.st = 0 → peer (.peerOpen p i) (fun z => z.st = 1 ∧ z.why = 0) ∧ (y.responder = false → sends (.peerOpen p i) y.port 1 fun t b => ∃ m, (t.peer p i).init = some m ∧ b = initBytes m)) ∧
      (y.st = 3 → peer (.peerClose p i) (fun z => z.st = 0 ∧ z.keys = none) ∧ sends (.peerClose p i) y.port 4 fun _ b => b = []) ∧
      (y.st = 4 → peer (.peerClose p i) (fun z => z.st = 0 ∧ z.keys = none))) ∧
    (∀ n msg, q.resetting = false →
      (∀ y0, q.offered msg = some (i, y0) →
        (msg.meas = y0.expect → peer (.peerInit p n msg) (fun z => z.st = 2 ∧ z.keys ≠ none ∧ z.init = some msg) ∧ sends (.peerInit p n msg) y0.port 2 fun t b => ∃ m, (t.peer p i).resp = some m ∧ b = respBytes m ∧ (t.peer p i).keys = some (laneKeys msg m) ∧
            (m.ed, m.ml) = s.sign (hash1 msg m)) ∧
        (msg.meas ≠ y0.expect → failed (.peerInit p n msg) 2)) ∧
      (q.offered msg = none → exec (.peerInit p n msg) s = .next (s.countDisc p n 1))) ∧
    (∀ msg m, y.st = 1 → y.responder = false → y.init = some m → q.resetting = false →
      let good := Config.verifies (peerIdentity y) (hash1 m msg) msg.ed msg.ml
      (msg.meas = y.expect → good = true → peer (.peerResp p i msg) (fun z => z.st = 2 ∧ z.keys = some (laneKeys m msg)) ∧
        sends (.peerResp p i msg) y.port 3 fun _ b => b = s.finBytes m msg) ∧
      (msg.meas = y.expect → good = false → failed (.peerResp p i msg) 1) ∧
      (msg.meas ≠ y.expect → failed (.peerResp p i msg) 2)) ∧
    (∀ msg a b, y.st = 2 → y.responder = true → y.init = some a → y.resp = some b → q.resetting = false →
      let good := Config.verifies (peerIdentity y) (hash2 a b) msg.ed msg.ml
      (good = true → peer (.peerFin p i msg) fun z => z.st = 3 ∧ z.keys = y.keys ∧ z.init = none ∧ z.resp = none) ∧
      (good = false → failed (.peerFin p i msg) 1)) ∧
    (y.st = 1 ∨ y.st = 2 ∨ y.st = 3 → failed (.peerCloseReceived p i) 4) ∧
    ((y.st = 1 ∧ y.responder = false) ∨ (y.st = 2 ∧ y.responder = true) →
      (y.stepAt + 2 ^ 24 ≤ s.wtime → failed (.peerTimeout p i) 3) ∧ (s.wtime < y.stepAt + 2 ^ 24 → exec (.peerTimeout p i) s = .next s))

/-! ## Reset and steps -/

/-- i is the instruction of the table that the event e of the machine is. -/
def Sys2Proof.Claims.isEvent (e : Ev) (i : Instr) : Prop :=
  match e with
  | .bundleIssue a0 => i = .bundleIssue a0
  | .resultLand a0 => i = .resultLand a0
  | .waitEnd a0 => i = .waitEnd a0
  | .nxtDelivery a0 => i = .nxtDelivery a0
  | .bankAccessPerform a0 => i = .bankAccessPerform a0
  | .holdTakesEffect a0 => i = .holdTakesEffect a0
  | .holdResume a0 => i = .holdResume a0
  | .stationmasterResume a0 a1 => i = .stationmasterResume a0 a1
  | .rateChangeEffect a0 => i = .rateChangeEffect a0
  | .launchStart a0 a1 => i = .launchStart a0 a1
  | .coreExitTick a0 => i = .coreExitTick a0
  | .launchRetire a0 a1 => i = .launchRetire a0 a1
  | .leaseGrant a0 => i = .leaseGrant a0
  | .leaseEnd a0 => i = .leaseEnd a0
  | .leaseTurnEnd a0 => i = .leaseTurnEnd a0
  | .matrixCommandSwap a0 => i = .matrixCommandSwap a0
  | .matrixCommandComplete a0 => i = .matrixCommandComplete a0
  | .beatSourceRead a0 a1 a2 a3 => i = .beatSourceRead a0 a1 a2 a3
  | .indexEntryRead a0 a1 a2 a3 => i = .indexEntryRead a0 a1 a2 a3
  | .beatRelease a0 a1 a2 a3 => i = .beatRelease a0 a1 a2 a3
  | .cplSourceRead a0 a1 a2 a3 => i = .cplSourceRead a0 a1 a2 a3
  | .cplDestWrite a0 a1 a2 a3 => i = .cplDestWrite a0 a1 a2 a3
  | .sendBeatRead a0 a1 a2 a3 => i = .sendBeatRead a0 a1 a2 a3
  | .messageArrival a0 a1 a2 => i = .messageArrival a0 a1 a2
  | .lateBeatCheck a0 a1 a2 a3 => i = .lateBeatCheck a0 a1 a2 a3
  | .copyFault a0 a1 a2 a3 a4 a5 => i = .copyFault a0 a1 a2 a3 a4 a5
  | .wportBeatConsume a0 a1 a2 => i = .wportBeatConsume a0 a1 a2
  | .virtLookup a0 a1 a2 a3 a4 => i = .virtLookup a0 a1 a2 a3 a4
  | .walkComplete a0 a1 a2 a3 a4 => i = .walkComplete a0 a1 a2 a3 a4
  | .sealDescriptorCheck a0 a1 a2 => i = .sealDescriptorCheck a0 a1 a2
  | .tbumpEffect a0 a1 a2 => i = .tbumpEffect a0 a1 a2
  | .tcommitEffect a0 a1 a2 => i = .tcommitEffect a0 a1 a2
  | .tdigEffect a0 a1 a2 => i = .tdigEffect a0 a1 a2
  | .digestResult a0 a1 => i = .digestResult a0 a1
  | .krotEffect a0 a1 a2 => i = .krotEffect a0 a1 a2
  | .barrierComplete a0 a1 a2 a3 => i = .barrierComplete a0 a1 a2 a3
  | .contextCreateComplete a0 a1 => i = .contextCreateComplete a0 a1
  | .preemptBoundary a0 a1 => i = .preemptBoundary a0 a1
  | .saveCommit a0 a1 => i = .saveCommit a0 a1
  | .contextReissue a0 a1 => i = .contextReissue a0 a1
  | .teardownComplete a0 a1 => i = .teardownComplete a0 a1
  | .contextScrubComplete a0 a1 => i = .contextScrubComplete a0 a1
  | .partitionReset a0 => i = .partitionReset a0
  | .queueSelect a0 a1 => i = .queueSelect a0 a1
  | .claimResolve a0 => i = .claimResolve a0
  | .graphKernelNode a0 a1 => i = .graphKernelNode a0 a1
  | .graphCondNode a0 a1 => i = .graphCondNode a0 a1
  | .graphWhileNode a0 a1 => i = .graphWhileNode a0 a1
  | .graphSwapNode a0 a1 => i = .graphSwapNode a0 a1
  | .graphEndNode a0 a1 => i = .graphEndNode a0 a1
  | .assign a0 a1 => i = .assign a0 a1
  | .release a0 a1 => i = .release a0 a1
  | .invalidate a0 a1 => i = .invalidate a0 a1
  | .migrate a0 a1 => i = .migrate a0 a1
  | .migrationCopyStart a0 => i = .migrationCopyStart a0
  | .copyEngineComplete a0 => i = .copyEngineComplete a0
  | .shardDeadline a0 a1 => i = .shardDeadline a0 a1
  | .manifestRecheck a0 => i = .manifestRecheck a0
  | .circuitLit a0 => i = .circuitLit a0
  | .circuitDrainComplete a0 => i = .circuitDrainComplete a0
  | .peerTimeout a0 a1 => i = .peerTimeout a0 a1
  | .beatPresent a0 a1 a2 a3 => i = .beatPresent a0 a1 a2 a3
  | .faultActionsComplete a0 => i = .faultActionsComplete a0
  | .waitBudgetExhausted a0 => i = .waitBudgetExhausted a0
  | .builtinTestComplete a0 a1 a2 => i = .builtinTestComplete a0 a1 a2
  | .operandRead _ => False
  | .digestRead _ => False
  | .startEnd .. => False
/-- The core whose trap of this tick keeps an event that comes after the bundles for the resume (R82, R227). -/
def Sys2Proof.Claims.keptIfHalted : Ev → Option Nat
  | .coreExitTick a0 => some a0
  | .beatSourceRead a0 _ _ _ => some a0
  | .indexEntryRead a0 _ _ _ => some a0
  | .beatRelease a0 _ _ _ => some a0
  | .cplSourceRead a0 _ _ _ => some a0
  | .cplDestWrite a0 _ _ _ => some a0
  | .sendBeatRead a0 _ _ _ => some a0
  | .lateBeatCheck a0 _ _ _ => some a0
  | .wportBeatConsume a0 _ _ => some a0
  | .virtLookup a0 _ _ _ _ => some a0
  | .sealDescriptorCheck a0 _ _ => some a0
  | _ => none
/-- The core whose trap of this tick keeps an event that comes before the bundles for the resume (R82, R227, R336). -/
def Sys2Proof.Claims.keptIfTraps : Ev → Option Nat
  | .messageArrival a0 _ _ => some a0
  | .tbumpEffect a0 _ _ => some a0
  | .tcommitEffect a0 _ _ => some a0
  | .tdigEffect a0 _ _ => some a0
  | .krotEffect a0 _ _ => some a0
  | _ => none

/-- No event of wall time and no input that comes before the schedule ticks is due in the order of ranks below n (R386). -/
def Sys2Proof.Claims.noneBelow (s : State) (n : Nat) : Prop := ∀ m, m < n → dueHead s.wtime (fun e => eventRank e == m) s.events = none ∧ s.inputOf m = none

/-- A step runs the decoded instruction (R63, R66, R81, R94): when the bundle at PC issues and one of its slots decodes to i while the others
hold zeros, the step is exec of i, in its slot, at the state that the issue leaves, with what every bundle does after its operations: barriers that
are complete are set, and the fields of the CCBs follow; an operation that traps ends the bundle, and an illegal slot traps with ILLEGAL and its sub-cause.
Every other event that is due, of the agenda or of wall time, is exec of its instruction, unless its core freezes at its own trap in this tick: then it waits
for the resume (R82); and an input is exec of its instruction, before the schedule ticks of its wall tick by rank, events of the rank first, or after them (R339, R386); what checks find
comes before both. -/
def Obligations.StepRunsTheDecodedInstruction : Prop :=
  ∀ (s : State), s.power = true →
    (∀ (k n : Nat) (rest : List Ev) (t : State), s.agenda = .bundleIssue k :: rest → n < 8 → (s.core k).st = .running → (s.core k).due = [] →
      (s.core k).exit = none → (s.core k).wait = none → (s.core k).budget ≠ 0 → (s.core k).pc < (s.core k).nbundles → (s.core k).xnop = false →
      (∀ m, m < 8 → m ≠ n → s.load (istoreKey k (32 * (s.core k).pc + 4 * m)) 4 = 0) →
      exec (.bundleIssue k) { s with agenda := rest } = .next t →
      let word := s.load (istoreKey k (32 * (s.core k).pc + 4 * n)) 4
      (∀ i, decodeWord (slotClass n) word = .ok i → isTransfer i = false ∨ ((s.core k).ct1 = false ∧ (s.core k).ct2 = false) →
        ∀ u, exec i { t with cur := ⟨k, n⟩ } = .next u →
          let v := State.noted k n t u
          let last := if n = 7 then v else { v with cur := ⟨k, 7⟩ }
          ((u.core k).st ≠ .halted →
            step s = settled s (.next { setBarriers last (u.core k).part (u.core k).launch with ops := [], ill := none })) ∧
          ((u.core k).st = .halted → step s = settled s (.next { u with ops := [], ill := none }))) ∧
      (∀ y : Ill, decodeWord (slotClass n) word = .error y →
        step s = settled s (.next { t.takeTrap k n 1 y.code with ops := [], ill := none }))) ∧
    (∀ (e : Ev) (i : Instr) (s0 : State), isEvent e i → (∀ k, e ≠ .bundleIssue k) → (∀ u, e ≠ .leaseGrant u) →
      ((∃ rest, s.agenda = e :: rest ∧ s0 = { s with agenda := rest }) ∨
        (s.agenda = [] ∧ s.phase = 0 ∧ (∀ c ∈ s.checks, s.epoch < c.1) ∧
          ∃ n rest, n < 5 ∧ noneBelow s n ∧ dueHead s.wtime (fun e => eventRank e == n) s.events = some (e, rest) ∧ s0 = { s with events := rest })) →
      let kept := (∃ k, keptIfHalted e = some k ∧ (s.core k).st = .halted) ∨
        ∃ k u, keptIfTraps e = some k ∧ exec i s0 = .next u ∧ willTrap u k = true
      (¬ kept → step s = settled s (exec i s0)) ∧ (kept → step s = settled s (.next s0))) ∧
    (∀ (i : Instr) (rest : List (Nat × Instr)), s.agenda = [] →
      (s.phase = 0 → (∀ c ∈ s.checks, s.epoch < c.1) →
        ∀ n, n < 5 → noneBelow s n → dueHead s.wtime (fun e => eventRank e == n) s.events = none → s.inputOf n = some (i, rest) →
          step s = settled s (exec i { s with inputs := rest })) ∧
      (s.phase = 3 → s.lateLink = some (i, rest) → step s = settled s (exec i { s with inputs := rest }))) ∧
    (s.agenda = [] → s.phase = 0 → (∃ c ∈ s.checks, c.1 ≤ s.epoch) → step s = settled s (.next s.runChecks))

/-- What reset leaves (R20, R21, R87, R204, R260, R408; Tables 1.3, 1.4, 3.2, 3.5 to 3.7, 9.2, 11.1): WTIME 0, no partition, the servo FREE, and every
core position IDLE with its registers at 0 but p0, k0 and the program fields that Table 9.2 gives another value; queues are OFF at LOG2N 4. The
invariants hold there. Registers that the spec gives no reset value are the model's choice (log entry 1). -/
def Obligations.ResetValues : Prop :=
  let s := State.reset
  s.wtime = 0 ∧ s.parts = [] ∧ s.servo.st = .free ∧ s.servo.offs = 0 ∧ s.servo.fadj = 0 ∧ s.journal = [] ∧ s.recovery = false ∧
  (∀ k, let c := s.core k
    c.st = .idle ∧ c.dly = 0 ∧ c.tgt = 0 ∧ c.qn = 0 ∧ c.trap = ⟨0, 0, 0, 0⟩ ∧ c.fpflags = 0 ∧ c.rngkey = 0 ∧ c.rngctr = 0 ∧ c.ecnt = 0 ∧ c.lease = 0 ∧
    (∀ a, s.readX c a = 0) ∧ c.readP 0 = true ∧ (∀ a, 0 < a → c.readP a = false) ∧ (∀ a, c.readB a = 0) ∧ (∀ a, c.readQ a = 0) ∧
    (∀ r i, s.readV c r i = 0) ∧ (∀ i, s.readK c 0 i = BitVec.allOnes 64) ∧ (∀ r i, 0 < r → s.readK c r i = 0) ∧ c.z = [] ∧
    ∀ st, (c.stream st).copies = [] ∧ (c.stream st).rb = [] ∧ (c.stream st).tlb = [] ∧
      ∀ prog n, n < 64 → Tab.get (copyReset n) (c.stream st).progs (64 * prog + n) =
        if n = 0x07 ∨ n = 0x21 then 64 else if 0x08 ≤ n ∧ n ≤ 0x0C then 1 else 0) ∧
  (∀ n, (Part.reset.queue n).st = .off ∧ (Part.reset.queue n).log2n = 4 ∧ (Part.reset.queue n).en = false) ∧ Part.reset.rate = 16 ∧ Part.reset.stime = 0 ∧
  Safety.inv s = true ∧ Safety.ratesOk s = true

/-- Every step keeps the invariant: memory stays in its canonical form, keys strictly rising and no listed byte equal to what an unlisted one reads
as, and every core position stays listed once; from every state that has it, not only from those that a run reaches (log entry 4 fixes the form). -/
def Obligations.StepKeepsTheInvariant : Prop :=
  ∀ s t : State, Safety.inv s = true → step s = .next t → Safety.inv t = true

/-- Every step keeps the rate of every partition, and the rate that it announces, one of 4 to 16 sixteenths, and each partition listed once (R19). -/
def Obligations.StepKeepsTheRates : Prop :=
  ∀ s t : State, Safety.ratesOk s = true → step s = .next t → Safety.ratesOk t = true
end

