-- ==== Sys2Proof/Laws/Dispatch.lean ====
section
/-! SUPPORT. What exec calls for each constructor, so that no proof unfolds the whole dispatch. -/
namespace Sys2Proof.Laws
open Sys2Proof.Machine
set_option Elab.async false

@[simp] theorem exec_nop (a0 : Guard) (s : State) : exec (.nop a0) s = execNop a0 s := rfl
@[simp] theorem exec_br (a0 : Guard) (a1 : Nat) (s : State) : exec (.br a0 a1) s = execBr a0 a1 s := rfl
@[simp] theorem exec_brb (a0 : Guard) (a1 : Nat) (s : State) : exec (.brb a0 a1) s = execBrb a0 a1 s := rfl
@[simp] theorem exec_call (a0 : Guard) (a1 : Nat) (a2 : Nat) (s : State) : exec (.call a0 a1 a2) s = execCall a0 a1 a2 s := rfl
@[simp] theorem exec_callb (a0 : Guard) (a1 : Nat) (a2 : Nat) (s : State) : exec (.callb a0 a1 a2) s = execCallb a0 a1 a2 s := rfl
@[simp] theorem exec_loop (a0 : Guard) (a1 : Nat) (a2 : Nat) (s : State) : exec (.loop a0 a1 a2) s = execLoop a0 a1 a2 s := rfl
@[simp] theorem exec_mbrChain (a0 : Guard) (a1 : Nat) (a2 : Nat) (a3 : Nat) (a4 : Nat) (s : State) : exec (.mbrChain a0 a1 a2 a3 a4) s = execMbrChain a0 a1 a2 a3 a4 s := rfl
@[simp] theorem exec_mbrTree (a0 : Guard) (a1 : Nat) (a2 : Nat) (a3 : Nat) (a4 : Nat) (s : State) : exec (.mbrTree a0 a1 a2 a3 a4) s = execMbrTree a0 a1 a2 a3 a4 s := rfl
@[simp] theorem exec_waitt (a0 : Guard) (a1 : Nat) (a2 : Nat) (s : State) : exec (.waitt a0 a1 a2) s = execWaitt a0 a1 a2 s := rfl
@[simp] theorem exec_waitd (a0 : Guard) (a1 : Nat) (s : State) : exec (.waitd a0 a1) s = execWaitd a0 a1 s := rfl
@[simp] theorem exec_nxt (a0 : Guard) (s : State) : exec (.nxt a0) s = execNxt a0 s := rfl
@[simp] theorem exec_trap (a0 : Guard) (a1 : Nat) (s : State) : exec (.trap a0 a1) s = execTrap a0 a1 s := rfl
@[simp] theorem exec_brk (a0 : Guard) (a1 : Nat) (s : State) : exec (.brk a0 a1) s = execBrk a0 a1 s := rfl
@[simp] theorem exec_cbar (a0 : Guard) (a1 : Nat) (s : State) : exec (.cbar a0 a1) s = execCbar a0 a1 s := rfl
@[simp] theorem exec_cbarNw (a0 : Guard) (a1 : Nat) (s : State) : exec (.cbarNw a0 a1) s = execCbarNw a0 a1 s := rfl
@[simp] theorem exec_dbar (a0 : Guard) (s : State) : exec (.dbar a0) s = execDbar a0 s := rfl
@[simp] theorem exec_dbarNw (a0 : Guard) (s : State) : exec (.dbarNw a0) s = execDbarNw a0 s := rfl
@[simp] theorem exec_ssb (a0 : Guard) (s : State) : exec (.ssb a0) s = execSsb a0 s := rfl
@[simp] theorem exec_ssbNw (a0 : Guard) (s : State) : exec (.ssbNw a0) s = execSsbNw a0 s := rfl
@[simp] theorem exec_bstatSub (a0 : Guard) (a1 : Nat) (a2 : Nat) (s : State) : exec (.bstatSub a0 a1 a2) s = execBstatSub a0 a1 a2 s := rfl
@[simp] theorem exec_bstatDie (a0 : Guard) (a1 : Nat) (s : State) : exec (.bstatDie a0 a1) s = execBstatDie a0 a1 s := rfl
@[simp] theorem exec_bstatSs (a0 : Guard) (a1 : Nat) (s : State) : exec (.bstatSs a0 a1) s = execBstatSs a0 a1 s := rfl
@[simp] theorem exec_tmge (a0 : Guard) (a1 : Nat) (a2 : Nat) (s : State) : exec (.tmge a0 a1 a2) s = execTmge a0 a1 a2 s := rfl
@[simp] theorem exec_bdge (a0 : Guard) (a1 : Nat) (a2 : Nat) (s : State) : exec (.bdge a0 a1 a2) s = execBdge a0 a1 a2 s := rfl
@[simp] theorem exec_exit (a0 : Guard) (s : State) : exec (.exit a0) s = execExit a0 s := rfl
@[simp] theorem exec_yield (a0 : Guard) (s : State) : exec (.yield a0) s = execYield a0 s := rfl
@[simp] theorem exec_add (a0 : Guard) (a1 : Nat) (a2 : Nat) (a3 : Nat) (s : State) : exec (.add a0 a1 a2 a3) s = execAdd a0 a1 a2 a3 s := rfl
@[simp] theorem exec_sub (a0 : Guard) (a1 : Nat) (a2 : Nat) (a3 : Nat) (s : State) : exec (.sub a0 a1 a2 a3) s = execSub a0 a1 a2 a3 s := rfl
@[simp] theorem exec_and (a0 : Guard) (a1 : Nat) (a2 : Nat) (a3 : Nat) (s : State) : exec (.and a0 a1 a2 a3) s = execAnd a0 a1 a2 a3 s := rfl
@[simp] theorem exec_or (a0 : Guard) (a1 : Nat) (a2 : Nat) (a3 : Nat) (s : State) : exec (.or a0 a1 a2 a3) s = execOr a0 a1 a2 a3 s := rfl
@[simp] theorem exec_xor (a0 : Guard) (a1 : Nat) (a2 : Nat) (a3 : Nat) (s : State) : exec (.xor a0 a1 a2 a3) s = execXor a0 a1 a2 a3 s := rfl
@[simp] theorem exec_andn (a0 : Guard) (a1 : Nat) (a2 : Nat) (a3 : Nat) (s : State) : exec (.andn a0 a1 a2 a3) s = execAndn a0 a1 a2 a3 s := rfl
@[simp] theorem exec_orn (a0 : Guard) (a1 : Nat) (a2 : Nat) (a3 : Nat) (s : State) : exec (.orn a0 a1 a2 a3) s = execOrn a0 a1 a2 a3 s := rfl
@[simp] theorem exec_xnor (a0 : Guard) (a1 : Nat) (a2 : Nat) (a3 : Nat) (s : State) : exec (.xnor a0 a1 a2 a3) s = execXnor a0 a1 a2 a3 s := rfl
@[simp] theorem exec_sll (a0 : Guard) (a1 : Nat) (a2 : Nat) (a3 : Nat) (s : State) : exec (.sll a0 a1 a2 a3) s = execSll a0 a1 a2 a3 s := rfl
@[simp] theorem exec_srl (a0 : Guard) (a1 : Nat) (a2 : Nat) (a3 : Nat) (s : State) : exec (.srl a0 a1 a2 a3) s = execSrl a0 a1 a2 a3 s := rfl
@[simp] theorem exec_sra (a0 : Guard) (a1 : Nat) (a2 : Nat) (a3 : Nat) (s : State) : exec (.sra a0 a1 a2 a3) s = execSra a0 a1 a2 a3 s := rfl
@[simp] theorem exec_rol (a0 : Guard) (a1 : Nat) (a2 : Nat) (a3 : Nat) (s : State) : exec (.rol a0 a1 a2 a3) s = execRol a0 a1 a2 a3 s := rfl
@[simp] theorem exec_ror (a0 : Guard) (a1 : Nat) (a2 : Nat) (a3 : Nat) (s : State) : exec (.ror a0 a1 a2 a3) s = execRor a0 a1 a2 a3 s := rfl
@[simp] theorem exec_mul (a0 : Guard) (a1 : Nat) (a2 : Nat) (a3 : Nat) (s : State) : exec (.mul a0 a1 a2 a3) s = execMul a0 a1 a2 a3 s := rfl
@[simp] theorem exec_mulh (a0 : Guard) (a1 : Nat) (a2 : Nat) (a3 : Nat) (s : State) : exec (.mulh a0 a1 a2 a3) s = execMulh a0 a1 a2 a3 s := rfl
@[simp] theorem exec_mulhu (a0 : Guard) (a1 : Nat) (a2 : Nat) (a3 : Nat) (s : State) : exec (.mulhu a0 a1 a2 a3) s = execMulhu a0 a1 a2 a3 s := rfl
@[simp] theorem exec_min (a0 : Guard) (a1 : Nat) (a2 : Nat) (a3 : Nat) (s : State) : exec (.min a0 a1 a2 a3) s = execMin a0 a1 a2 a3 s := rfl
@[simp] theorem exec_max (a0 : Guard) (a1 : Nat) (a2 : Nat) (a3 : Nat) (s : State) : exec (.max a0 a1 a2 a3) s = execMax a0 a1 a2 a3 s := rfl
@[simp] theorem exec_minu (a0 : Guard) (a1 : Nat) (a2 : Nat) (a3 : Nat) (s : State) : exec (.minu a0 a1 a2 a3) s = execMinu a0 a1 a2 a3 s := rfl
@[simp] theorem exec_maxu (a0 : Guard) (a1 : Nat) (a2 : Nat) (a3 : Nat) (s : State) : exec (.maxu a0 a1 a2 a3) s = execMaxu a0 a1 a2 a3 s := rfl
@[simp] theorem exec_clz (a0 : Guard) (a1 : Nat) (a2 : Nat) (s : State) : exec (.clz a0 a1 a2) s = execClz a0 a1 a2 s := rfl
@[simp] theorem exec_ctz (a0 : Guard) (a1 : Nat) (a2 : Nat) (s : State) : exec (.ctz a0 a1 a2) s = execCtz a0 a1 a2 s := rfl
@[simp] theorem exec_popc (a0 : Guard) (a1 : Nat) (a2 : Nat) (s : State) : exec (.popc a0 a1 a2) s = execPopc a0 a1 a2 s := rfl
@[simp] theorem exec_bswap (a0 : Guard) (a1 : Nat) (a2 : Nat) (s : State) : exec (.bswap a0 a1 a2) s = execBswap a0 a1 a2 s := rfl
@[simp] theorem exec_adds (a0 : Guard) (a1 : Nat) (a2 : Nat) (a3 : Nat) (s : State) : exec (.adds a0 a1 a2 a3) s = execAdds a0 a1 a2 a3 s := rfl
@[simp] theorem exec_subs (a0 : Guard) (a1 : Nat) (a2 : Nat) (a3 : Nat) (s : State) : exec (.subs a0 a1 a2 a3) s = execSubs a0 a1 a2 a3 s := rfl
@[simp] theorem exec_addi (a0 : Guard) (a1 : Nat) (a2 : Nat) (a3 : Nat) (s : State) : exec (.addi a0 a1 a2 a3) s = execAddi a0 a1 a2 a3 s := rfl
@[simp] theorem exec_andi (a0 : Guard) (a1 : Nat) (a2 : Nat) (a3 : Nat) (s : State) : exec (.andi a0 a1 a2 a3) s = execAndi a0 a1 a2 a3 s := rfl
@[simp] theorem exec_ori (a0 : Guard) (a1 : Nat) (a2 : Nat) (a3 : Nat) (s : State) : exec (.ori a0 a1 a2 a3) s = execOri a0 a1 a2 a3 s := rfl
@[simp] theorem exec_xori (a0 : Guard) (a1 : Nat) (a2 : Nat) (a3 : Nat) (s : State) : exec (.xori a0 a1 a2 a3) s = execXori a0 a1 a2 a3 s := rfl
@[simp] theorem exec_slli (a0 : Guard) (a1 : Nat) (a2 : Nat) (a3 : Nat) (s : State) : exec (.slli a0 a1 a2 a3) s = execSlli a0 a1 a2 a3 s := rfl
@[simp] theorem exec_srli (a0 : Guard) (a1 : Nat) (a2 : Nat) (a3 : Nat) (s : State) : exec (.srli a0 a1 a2 a3) s = execSrli a0 a1 a2 a3 s := rfl
@[simp] theorem exec_srai (a0 : Guard) (a1 : Nat) (a2 : Nat) (a3 : Nat) (s : State) : exec (.srai a0 a1 a2 a3) s = execSrai a0 a1 a2 a3 s := rfl
@[simp] theorem exec_roli (a0 : Guard) (a1 : Nat) (a2 : Nat) (a3 : Nat) (s : State) : exec (.roli a0 a1 a2 a3) s = execRoli a0 a1 a2 a3 s := rfl
@[simp] theorem exec_movi (a0 : Guard) (a1 : Nat) (a2 : Nat) (s : State) : exec (.movi a0 a1 a2) s = execMovi a0 a1 a2 s := rfl
@[simp] theorem exec_movk16 (a0 : Guard) (a1 : Nat) (a2 : Nat) (s : State) : exec (.movk16 a0 a1 a2) s = execMovk16 a0 a1 a2 s := rfl
@[simp] theorem exec_movk32 (a0 : Guard) (a1 : Nat) (a2 : Nat) (s : State) : exec (.movk32 a0 a1 a2) s = execMovk32 a0 a1 a2 s := rfl
@[simp] theorem exec_movk48 (a0 : Guard) (a1 : Nat) (a2 : Nat) (s : State) : exec (.movk48 a0 a1 a2) s = execMovk48 a0 a1 a2 s := rfl
@[simp] theorem exec_cmpEq (a0 : Guard) (a1 : Nat) (a2 : Nat) (a3 : Nat) (s : State) : exec (.cmpEq a0 a1 a2 a3) s = execCmpEq a0 a1 a2 a3 s := rfl
@[simp] theorem exec_cmpNe (a0 : Guard) (a1 : Nat) (a2 : Nat) (a3 : Nat) (s : State) : exec (.cmpNe a0 a1 a2 a3) s = execCmpNe a0 a1 a2 a3 s := rfl
@[simp] theorem exec_cmpLt (a0 : Guard) (a1 : Nat) (a2 : Nat) (a3 : Nat) (s : State) : exec (.cmpLt a0 a1 a2 a3) s = execCmpLt a0 a1 a2 a3 s := rfl
@[simp] theorem exec_cmpGe (a0 : Guard) (a1 : Nat) (a2 : Nat) (a3 : Nat) (s : State) : exec (.cmpGe a0 a1 a2 a3) s = execCmpGe a0 a1 a2 a3 s := rfl
@[simp] theorem exec_cmpLtu (a0 : Guard) (a1 : Nat) (a2 : Nat) (a3 : Nat) (s : State) : exec (.cmpLtu a0 a1 a2 a3) s = execCmpLtu a0 a1 a2 a3 s := rfl
@[simp] theorem exec_cmpGeu (a0 : Guard) (a1 : Nat) (a2 : Nat) (a3 : Nat) (s : State) : exec (.cmpGeu a0 a1 a2 a3) s = execCmpGeu a0 a1 a2 a3 s := rfl
@[simp] theorem exec_cmpiEq (a0 : Guard) (a1 : Nat) (a2 : Nat) (a3 : Nat) (s : State) : exec (.cmpiEq a0 a1 a2 a3) s = execCmpiEq a0 a1 a2 a3 s := rfl
@[simp] theorem exec_cmpiNe (a0 : Guard) (a1 : Nat) (a2 : Nat) (a3 : Nat) (s : State) : exec (.cmpiNe a0 a1 a2 a3) s = execCmpiNe a0 a1 a2 a3 s := rfl
@[simp] theorem exec_cmpiLt (a0 : Guard) (a1 : Nat) (a2 : Nat) (a3 : Nat) (s : State) : exec (.cmpiLt a0 a1 a2 a3) s = execCmpiLt a0 a1 a2 a3 s := rfl
@[simp] theorem exec_cmpiGe (a0 : Guard) (a1 : Nat) (a2 : Nat) (a3 : Nat) (s : State) : exec (.cmpiGe a0 a1 a2 a3) s = execCmpiGe a0 a1 a2 a3 s := rfl
@[simp] theorem exec_cmpiLtu (a0 : Guard) (a1 : Nat) (a2 : Nat) (a3 : Nat) (s : State) : exec (.cmpiLtu a0 a1 a2 a3) s = execCmpiLtu a0 a1 a2 a3 s := rfl
@[simp] theorem exec_cmpiGeu (a0 : Guard) (a1 : Nat) (a2 : Nat) (a3 : Nat) (s : State) : exec (.cmpiGeu a0 a1 a2 a3) s = execCmpiGeu a0 a1 a2 a3 s := rfl
@[simp] theorem exec_pand (a0 : Guard) (a1 : Nat) (a2 : Nat) (a3 : Nat) (s : State) : exec (.pand a0 a1 a2 a3) s = execPand a0 a1 a2 a3 s := rfl
@[simp] theorem exec_por (a0 : Guard) (a1 : Nat) (a2 : Nat) (a3 : Nat) (s : State) : exec (.por a0 a1 a2 a3) s = execPor a0 a1 a2 a3 s := rfl
@[simp] theorem exec_pxor (a0 : Guard) (a1 : Nat) (a2 : Nat) (a3 : Nat) (s : State) : exec (.pxor a0 a1 a2 a3) s = execPxor a0 a1 a2 a3 s := rfl
@[simp] theorem exec_pandn (a0 : Guard) (a1 : Nat) (a2 : Nat) (a3 : Nat) (s : State) : exec (.pandn a0 a1 a2 a3) s = execPandn a0 a1 a2 a3 s := rfl
@[simp] theorem exec_porn (a0 : Guard) (a1 : Nat) (a2 : Nat) (a3 : Nat) (s : State) : exec (.porn a0 a1 a2 a3) s = execPorn a0 a1 a2 a3 s := rfl
@[simp] theorem exec_pnot (a0 : Guard) (a1 : Nat) (a2 : Nat) (s : State) : exec (.pnot a0 a1 a2) s = execPnot a0 a1 a2 s := rfl
@[simp] theorem exec_sel (a0 : Guard) (a1 : Nat) (a2 : Nat) (a3 : Nat) (a4 : Nat) (s : State) : exec (.sel a0 a1 a2 a3 a4) s = execSel a0 a1 a2 a3 a4 s := rfl
@[simp] theorem exec_setb (a0 : Guard) (a1 : Nat) (a2 : Nat) (s : State) : exec (.setb a0 a1 a2) s = execSetb a0 a1 a2 s := rfl
@[simp] theorem exec_getb (a0 : Guard) (a1 : Nat) (a2 : Nat) (s : State) : exec (.getb a0 a1 a2) s = execGetb a0 a1 a2 s := rfl
@[simp] theorem exec_setbi (a0 : Guard) (a1 : Nat) (a2 : Nat) (s : State) : exec (.setbi a0 a1 a2) s = execSetbi a0 a1 a2 s := rfl
@[simp] theorem exec_sysrd (a0 : Guard) (a1 : Nat) (a2 : Nat) (s : State) : exec (.sysrd a0 a1 a2) s = execSysrd a0 a1 a2 s := rfl
@[simp] theorem exec_syswr (a0 : Guard) (a1 : Nat) (a2 : Nat) (s : State) : exec (.syswr a0 a1 a2) s = execSyswr a0 a1 a2 s := rfl
@[simp] theorem exec_qrd (a0 : Guard) (a1 : Nat) (a2 : Nat) (a3 : Bool) (s : State) : exec (.qrd a0 a1 a2 a3) s = execQrd a0 a1 a2 a3 s := rfl
@[simp] theorem exec_ldb (a0 : Guard) (a1 : Nat) (a2 : Nat) (a3 : Nat) (s : State) : exec (.ldb a0 a1 a2 a3) s = execLdb a0 a1 a2 a3 s := rfl
@[simp] theorem exec_ldbu (a0 : Guard) (a1 : Nat) (a2 : Nat) (a3 : Nat) (s : State) : exec (.ldbu a0 a1 a2 a3) s = execLdbu a0 a1 a2 a3 s := rfl
@[simp] theorem exec_ldh (a0 : Guard) (a1 : Nat) (a2 : Nat) (a3 : Nat) (s : State) : exec (.ldh a0 a1 a2 a3) s = execLdh a0 a1 a2 a3 s := rfl
@[simp] theorem exec_ldhu (a0 : Guard) (a1 : Nat) (a2 : Nat) (a3 : Nat) (s : State) : exec (.ldhu a0 a1 a2 a3) s = execLdhu a0 a1 a2 a3 s := rfl
@[simp] theorem exec_ldw (a0 : Guard) (a1 : Nat) (a2 : Nat) (a3 : Nat) (s : State) : exec (.ldw a0 a1 a2 a3) s = execLdw a0 a1 a2 a3 s := rfl
@[simp] theorem exec_ldwu (a0 : Guard) (a1 : Nat) (a2 : Nat) (a3 : Nat) (s : State) : exec (.ldwu a0 a1 a2 a3) s = execLdwu a0 a1 a2 a3 s := rfl
@[simp] theorem exec_ldd (a0 : Guard) (a1 : Nat) (a2 : Nat) (a3 : Nat) (s : State) : exec (.ldd a0 a1 a2 a3) s = execLdd a0 a1 a2 a3 s := rfl
@[simp] theorem exec_stb (a0 : Guard) (a1 : Nat) (a2 : Nat) (a3 : Nat) (s : State) : exec (.stb a0 a1 a2 a3) s = execStb a0 a1 a2 a3 s := rfl
@[simp] theorem exec_sth (a0 : Guard) (a1 : Nat) (a2 : Nat) (a3 : Nat) (s : State) : exec (.sth a0 a1 a2 a3) s = execSth a0 a1 a2 a3 s := rfl
@[simp] theorem exec_stw (a0 : Guard) (a1 : Nat) (a2 : Nat) (a3 : Nat) (s : State) : exec (.stw a0 a1 a2 a3) s = execStw a0 a1 a2 a3 s := rfl
@[simp] theorem exec_std (a0 : Guard) (a1 : Nat) (a2 : Nat) (a3 : Nat) (s : State) : exec (.std a0 a1 a2 a3) s = execStd a0 a1 a2 a3 s := rfl
@[simp] theorem exec_vld (a0 : Guard) (a1 : Nat) (a2 : Nat) (a3 : Nat) (s : State) : exec (.vld a0 a1 a2 a3) s = execVld a0 a1 a2 a3 s := rfl
@[simp] theorem exec_vst (a0 : Guard) (a1 : Nat) (a2 : Nat) (a3 : Nat) (s : State) : exec (.vst a0 a1 a2 a3) s = execVst a0 a1 a2 a3 s := rfl
@[simp] theorem exec_vldr (a0 : Guard) (a1 : Nat) (a2 : Nat) (a3 : Nat) (a4 : Nat) (s : State) : exec (.vldr a0 a1 a2 a3 a4) s = execVldr a0 a1 a2 a3 a4 s := rfl
@[simp] theorem exec_vstr (a0 : Guard) (a1 : Nat) (a2 : Nat) (a3 : Nat) (a4 : Nat) (s : State) : exec (.vstr a0 a1 a2 a3 a4) s = execVstr a0 a1 a2 a3 a4 s := rfl
@[simp] theorem exec_vlds (a0 : Guard) (a1 : Nat) (a2 : Nat) (a3 : Nat) (s : State) : exec (.vlds a0 a1 a2 a3) s = execVlds a0 a1 a2 a3 s := rfl
@[simp] theorem exec_vsts (a0 : Guard) (a1 : Nat) (a2 : Nat) (a3 : Nat) (s : State) : exec (.vsts a0 a1 a2 a3) s = execVsts a0 a1 a2 a3 s := rfl
@[simp] theorem exec_vldf6 (a0 : Guard) (a1 : Nat) (a2 : Nat) (a3 : Nat) (s : State) : exec (.vldf6 a0 a1 a2 a3) s = execVldf6 a0 a1 a2 a3 s := rfl
@[simp] theorem exec_vstf6 (a0 : Guard) (a1 : Nat) (a2 : Nat) (a3 : Nat) (s : State) : exec (.vstf6 a0 a1 a2 a3) s = execVstf6 a0 a1 a2 a3 s := rfl
@[simp] theorem exec_amoAdd (a0 : Guard) (a1 : Nat) (a2 : Nat) (a3 : Nat) (a4 : Bool) (s : State) : exec (.amoAdd a0 a1 a2 a3 a4) s = execAmoAdd a0 a1 a2 a3 a4 s := rfl
@[simp] theorem exec_amoSwap (a0 : Guard) (a1 : Nat) (a2 : Nat) (a3 : Nat) (a4 : Bool) (s : State) : exec (.amoSwap a0 a1 a2 a3 a4) s = execAmoSwap a0 a1 a2 a3 a4 s := rfl
@[simp] theorem exec_amoAnd (a0 : Guard) (a1 : Nat) (a2 : Nat) (a3 : Nat) (a4 : Bool) (s : State) : exec (.amoAnd a0 a1 a2 a3 a4) s = execAmoAnd a0 a1 a2 a3 a4 s := rfl
@[simp] theorem exec_amoOr (a0 : Guard) (a1 : Nat) (a2 : Nat) (a3 : Nat) (a4 : Bool) (s : State) : exec (.amoOr a0 a1 a2 a3 a4) s = execAmoOr a0 a1 a2 a3 a4 s := rfl
@[simp] theorem exec_amoXor (a0 : Guard) (a1 : Nat) (a2 : Nat) (a3 : Nat) (a4 : Bool) (s : State) : exec (.amoXor a0 a1 a2 a3 a4) s = execAmoXor a0 a1 a2 a3 a4 s := rfl
@[simp] theorem exec_amoMin (a0 : Guard) (a1 : Nat) (a2 : Nat) (a3 : Nat) (a4 : Bool) (s : State) : exec (.amoMin a0 a1 a2 a3 a4) s = execAmoMin a0 a1 a2 a3 a4 s := rfl
@[simp] theorem exec_amoMax (a0 : Guard) (a1 : Nat) (a2 : Nat) (a3 : Nat) (a4 : Bool) (s : State) : exec (.amoMax a0 a1 a2 a3 a4) s = execAmoMax a0 a1 a2 a3 a4 s := rfl
@[simp] theorem exec_amoMinu (a0 : Guard) (a1 : Nat) (a2 : Nat) (a3 : Nat) (a4 : Bool) (s : State) : exec (.amoMinu a0 a1 a2 a3 a4) s = execAmoMinu a0 a1 a2 a3 a4 s := rfl
@[simp] theorem exec_amoMaxu (a0 : Guard) (a1 : Nat) (a2 : Nat) (a3 : Nat) (a4 : Bool) (s : State) : exec (.amoMaxu a0 a1 a2 a3 a4) s = execAmoMaxu a0 a1 a2 a3 a4 s := rfl
@[simp] theorem exec_mark (a0 : Guard) (s : State) : exec (.mark a0) s = execMark a0 s := rfl
@[simp] theorem exec_vaddF32 (a0 : Guard) (a1 : Nat) (a2 : Nat) (a3 : Nat) (a4 : Nat) (a5 : Rm) (s : State) : exec (.vaddF32 a0 a1 a2 a3 a4 a5) s = execVaddF32 a0 a1 a2 a3 a4 a5 s := rfl
@[simp] theorem exec_vsubF32 (a0 : Guard) (a1 : Nat) (a2 : Nat) (a3 : Nat) (a4 : Nat) (a5 : Rm) (s : State) : exec (.vsubF32 a0 a1 a2 a3 a4 a5) s = execVsubF32 a0 a1 a2 a3 a4 a5 s := rfl
@[simp] theorem exec_vmulF32 (a0 : Guard) (a1 : Nat) (a2 : Nat) (a3 : Nat) (a4 : Nat) (a5 : Rm) (s : State) : exec (.vmulF32 a0 a1 a2 a3 a4 a5) s = execVmulF32 a0 a1 a2 a3 a4 a5 s := rfl
@[simp] theorem exec_vfmaF32 (a0 : Guard) (a1 : Nat) (a2 : Nat) (a3 : Nat) (a4 : Nat) (a5 : Rm) (s : State) : exec (.vfmaF32 a0 a1 a2 a3 a4 a5) s = execVfmaF32 a0 a1 a2 a3 a4 a5 s := rfl
@[simp] theorem exec_vfmsF32 (a0 : Guard) (a1 : Nat) (a2 : Nat) (a3 : Nat) (a4 : Nat) (a5 : Rm) (s : State) : exec (.vfmsF32 a0 a1 a2 a3 a4 a5) s = execVfmsF32 a0 a1 a2 a3 a4 a5 s := rfl
@[simp] theorem exec_vminF32 (a0 : Guard) (a1 : Nat) (a2 : Nat) (a3 : Nat) (a4 : Nat) (s : State) : exec (.vminF32 a0 a1 a2 a3 a4) s = execVminF32 a0 a1 a2 a3 a4 s := rfl
@[simp] theorem exec_vmaxF32 (a0 : Guard) (a1 : Nat) (a2 : Nat) (a3 : Nat) (a4 : Nat) (s : State) : exec (.vmaxF32 a0 a1 a2 a3 a4) s = execVmaxF32 a0 a1 a2 a3 a4 s := rfl
@[simp] theorem exec_vabsF32 (a0 : Guard) (a1 : Nat) (a2 : Nat) (a3 : Nat) (s : State) : exec (.vabsF32 a0 a1 a2 a3) s = execVabsF32 a0 a1 a2 a3 s := rfl
@[simp] theorem exec_vnegF32 (a0 : Guard) (a1 : Nat) (a2 : Nat) (a3 : Nat) (s : State) : exec (.vnegF32 a0 a1 a2 a3) s = execVnegF32 a0 a1 a2 a3 s := rfl
@[simp] theorem exec_vrndF32 (a0 : Guard) (a1 : Nat) (a2 : Nat) (a3 : Nat) (a4 : Rm) (s : State) : exec (.vrndF32 a0 a1 a2 a3 a4) s = execVrndF32 a0 a1 a2 a3 a4 s := rfl
@[simp] theorem exec_vcmpF32Eq (a0 : Guard) (a1 : Nat) (a2 : Nat) (a3 : Nat) (a4 : Nat) (s : State) : exec (.vcmpF32Eq a0 a1 a2 a3 a4) s = execVcmpF32Eq a0 a1 a2 a3 a4 s := rfl
@[simp] theorem exec_vcmpF32Ne (a0 : Guard) (a1 : Nat) (a2 : Nat) (a3 : Nat) (a4 : Nat) (s : State) : exec (.vcmpF32Ne a0 a1 a2 a3 a4) s = execVcmpF32Ne a0 a1 a2 a3 a4 s := rfl
@[simp] theorem exec_vcmpF32Lt (a0 : Guard) (a1 : Nat) (a2 : Nat) (a3 : Nat) (a4 : Nat) (s : State) : exec (.vcmpF32Lt a0 a1 a2 a3 a4) s = execVcmpF32Lt a0 a1 a2 a3 a4 s := rfl
@[simp] theorem exec_vcmpF32Le (a0 : Guard) (a1 : Nat) (a2 : Nat) (a3 : Nat) (a4 : Nat) (s : State) : exec (.vcmpF32Le a0 a1 a2 a3 a4) s = execVcmpF32Le a0 a1 a2 a3 a4 s := rfl
@[simp] theorem exec_vcmpF32Unord (a0 : Guard) (a1 : Nat) (a2 : Nat) (a3 : Nat) (a4 : Nat) (s : State) : exec (.vcmpF32Unord a0 a1 a2 a3 a4) s = execVcmpF32Unord a0 a1 a2 a3 a4 s := rfl
@[simp] theorem exec_vcmpI32Eq (a0 : Guard) (a1 : Nat) (a2 : Nat) (a3 : Nat) (a4 : Nat) (s : State) : exec (.vcmpI32Eq a0 a1 a2 a3 a4) s = execVcmpI32Eq a0 a1 a2 a3 a4 s := rfl
@[simp] theorem exec_vcmpI32Ne (a0 : Guard) (a1 : Nat) (a2 : Nat) (a3 : Nat) (a4 : Nat) (s : State) : exec (.vcmpI32Ne a0 a1 a2 a3 a4) s = execVcmpI32Ne a0 a1 a2 a3 a4 s := rfl
@[simp] theorem exec_vcmpI32Lt (a0 : Guard) (a1 : Nat) (a2 : Nat) (a3 : Nat) (a4 : Nat) (s : State) : exec (.vcmpI32Lt a0 a1 a2 a3 a4) s = execVcmpI32Lt a0 a1 a2 a3 a4 s := rfl
@[simp] theorem exec_vcmpI32Ge (a0 : Guard) (a1 : Nat) (a2 : Nat) (a3 : Nat) (a4 : Nat) (s : State) : exec (.vcmpI32Ge a0 a1 a2 a3 a4) s = execVcmpI32Ge a0 a1 a2 a3 a4 s := rfl
@[simp] theorem exec_vcmpI32Ltu (a0 : Guard) (a1 : Nat) (a2 : Nat) (a3 : Nat) (a4 : Nat) (s : State) : exec (.vcmpI32Ltu a0 a1 a2 a3 a4) s = execVcmpI32Ltu a0 a1 a2 a3 a4 s := rfl
@[simp] theorem exec_vcmpI32Geu (a0 : Guard) (a1 : Nat) (a2 : Nat) (a3 : Nat) (a4 : Nat) (s : State) : exec (.vcmpI32Geu a0 a1 a2 a3 a4) s = execVcmpI32Geu a0 a1 a2 a3 a4 s := rfl
@[simp] theorem exec_vaddI32 (a0 : Guard) (a1 : Nat) (a2 : Nat) (a3 : Nat) (a4 : Nat) (s : State) : exec (.vaddI32 a0 a1 a2 a3 a4) s = execVaddI32 a0 a1 a2 a3 a4 s := rfl
@[simp] theorem exec_vsubI32 (a0 : Guard) (a1 : Nat) (a2 : Nat) (a3 : Nat) (a4 : Nat) (s : State) : exec (.vsubI32 a0 a1 a2 a3 a4) s = execVsubI32 a0 a1 a2 a3 a4 s := rfl
@[simp] theorem exec_vmulI32 (a0 : Guard) (a1 : Nat) (a2 : Nat) (a3 : Nat) (a4 : Nat) (s : State) : exec (.vmulI32 a0 a1 a2 a3 a4) s = execVmulI32 a0 a1 a2 a3 a4 s := rfl
@[simp] theorem exec_vmulhI32 (a0 : Guard) (a1 : Nat) (a2 : Nat) (a3 : Nat) (a4 : Nat) (s : State) : exec (.vmulhI32 a0 a1 a2 a3 a4) s = execVmulhI32 a0 a1 a2 a3 a4 s := rfl
@[simp] theorem exec_vminI32 (a0 : Guard) (a1 : Nat) (a2 : Nat) (a3 : Nat) (a4 : Nat) (s : State) : exec (.vminI32 a0 a1 a2 a3 a4) s = execVminI32 a0 a1 a2 a3 a4 s := rfl
@[simp] theorem exec_vmaxI32 (a0 : Guard) (a1 : Nat) (a2 : Nat) (a3 : Nat) (a4 : Nat) (s : State) : exec (.vmaxI32 a0 a1 a2 a3 a4) s = execVmaxI32 a0 a1 a2 a3 a4 s := rfl
@[simp] theorem exec_vminN32 (a0 : Guard) (a1 : Nat) (a2 : Nat) (a3 : Nat) (a4 : Nat) (s : State) : exec (.vminN32 a0 a1 a2 a3 a4) s = execVminN32 a0 a1 a2 a3 a4 s := rfl
@[simp] theorem exec_vmaxN32 (a0 : Guard) (a1 : Nat) (a2 : Nat) (a3 : Nat) (a4 : Nat) (s : State) : exec (.vmaxN32 a0 a1 a2 a3 a4) s = execVmaxN32 a0 a1 a2 a3 a4 s := rfl
@[simp] theorem exec_vaddsI32 (a0 : Guard) (a1 : Nat) (a2 : Nat) (a3 : Nat) (a4 : Nat) (s : State) : exec (.vaddsI32 a0 a1 a2 a3 a4) s = execVaddsI32 a0 a1 a2 a3 a4 s := rfl
@[simp] theorem exec_vsubsI32 (a0 : Guard) (a1 : Nat) (a2 : Nat) (a3 : Nat) (a4 : Nat) (s : State) : exec (.vsubsI32 a0 a1 a2 a3 a4) s = execVsubsI32 a0 a1 a2 a3 a4 s := rfl
@[simp] theorem exec_vabsI32 (a0 : Guard) (a1 : Nat) (a2 : Nat) (a3 : Nat) (s : State) : exec (.vabsI32 a0 a1 a2 a3) s = execVabsI32 a0 a1 a2 a3 s := rfl
@[simp] theorem exec_vnegI32 (a0 : Guard) (a1 : Nat) (a2 : Nat) (a3 : Nat) (s : State) : exec (.vnegI32 a0 a1 a2 a3) s = execVnegI32 a0 a1 a2 a3 s := rfl
@[simp] theorem exec_vand (a0 : Guard) (a1 : Nat) (a2 : Nat) (a3 : Nat) (a4 : Nat) (s : State) : exec (.vand a0 a1 a2 a3 a4) s = execVand a0 a1 a2 a3 a4 s := rfl
@[simp] theorem exec_vor (a0 : Guard) (a1 : Nat) (a2 : Nat) (a3 : Nat) (a4 : Nat) (s : State) : exec (.vor a0 a1 a2 a3 a4) s = execVor a0 a1 a2 a3 a4 s := rfl
@[simp] theorem exec_vxor (a0 : Guard) (a1 : Nat) (a2 : Nat) (a3 : Nat) (a4 : Nat) (s : State) : exec (.vxor a0 a1 a2 a3 a4) s = execVxor a0 a1 a2 a3 a4 s := rfl
@[simp] theorem exec_vandn (a0 : Guard) (a1 : Nat) (a2 : Nat) (a3 : Nat) (a4 : Nat) (s : State) : exec (.vandn a0 a1 a2 a3 a4) s = execVandn a0 a1 a2 a3 a4 s := rfl
@[simp] theorem exec_vnot (a0 : Guard) (a1 : Nat) (a2 : Nat) (a3 : Nat) (s : State) : exec (.vnot a0 a1 a2 a3) s = execVnot a0 a1 a2 a3 s := rfl
@[simp] theorem exec_vsll (a0 : Guard) (a1 : Nat) (a2 : Nat) (a3 : Nat) (a4 : Nat) (s : State) : exec (.vsll a0 a1 a2 a3 a4) s = execVsll a0 a1 a2 a3 a4 s := rfl
@[simp] theorem exec_vsrl (a0 : Guard) (a1 : Nat) (a2 : Nat) (a3 : Nat) (a4 : Nat) (s : State) : exec (.vsrl a0 a1 a2 a3 a4) s = execVsrl a0 a1 a2 a3 a4 s := rfl
@[simp] theorem exec_vsra (a0 : Guard) (a1 : Nat) (a2 : Nat) (a3 : Nat) (a4 : Nat) (s : State) : exec (.vsra a0 a1 a2 a3 a4) s = execVsra a0 a1 a2 a3 a4 s := rfl
@[simp] theorem exec_vrol (a0 : Guard) (a1 : Nat) (a2 : Nat) (a3 : Nat) (a4 : Nat) (s : State) : exec (.vrol a0 a1 a2 a3 a4) s = execVrol a0 a1 a2 a3 a4 s := rfl
@[simp] theorem exec_vsllImm (a0 : Guard) (a1 : Nat) (a2 : Nat) (a3 : Nat) (s : State) : exec (.vsllImm a0 a1 a2 a3) s = execVsllImm a0 a1 a2 a3 s := rfl
@[simp] theorem exec_vsrlImm (a0 : Guard) (a1 : Nat) (a2 : Nat) (a3 : Nat) (s : State) : exec (.vsrlImm a0 a1 a2 a3) s = execVsrlImm a0 a1 a2 a3 s := rfl
@[simp] theorem exec_vsraImm (a0 : Guard) (a1 : Nat) (a2 : Nat) (a3 : Nat) (s : State) : exec (.vsraImm a0 a1 a2 a3) s = execVsraImm a0 a1 a2 a3 s := rfl
@[simp] theorem exec_vrolImm (a0 : Guard) (a1 : Nat) (a2 : Nat) (a3 : Nat) (s : State) : exec (.vrolImm a0 a1 a2 a3) s = execVrolImm a0 a1 a2 a3 s := rfl
@[simp] theorem exec_vsel (a0 : Guard) (a1 : Nat) (a2 : Nat) (a3 : Nat) (a4 : Nat) (s : State) : exec (.vsel a0 a1 a2 a3 a4) s = execVsel a0 a1 a2 a3 a4 s := rfl
@[simp] theorem exec_vdotI8I8 (a0 : Guard) (a1 : Nat) (a2 : Nat) (a3 : Nat) (a4 : Nat) (a5 : Bool) (s : State) : exec (.vdotI8I8 a0 a1 a2 a3 a4 a5) s = execVdotI8I8 a0 a1 a2 a3 a4 a5 s := rfl
@[simp] theorem exec_vdotN8I8 (a0 : Guard) (a1 : Nat) (a2 : Nat) (a3 : Nat) (a4 : Nat) (a5 : Bool) (s : State) : exec (.vdotN8I8 a0 a1 a2 a3 a4 a5) s = execVdotN8I8 a0 a1 a2 a3 a4 a5 s := rfl
@[simp] theorem exec_vdotN8N8 (a0 : Guard) (a1 : Nat) (a2 : Nat) (a3 : Nat) (a4 : Nat) (a5 : Bool) (s : State) : exec (.vdotN8N8 a0 a1 a2 a3 a4 a5) s = execVdotN8N8 a0 a1 a2 a3 a4 a5 s := rfl
@[simp] theorem exec_vcvt (a0 : Guard) (a1 : Nat) (a2 : Nat) (a3 : Fmt) (a4 : Fmt) (a5 : Rm) (s : State) : exec (.vcvt a0 a1 a2 a3 a4 a5) s = execVcvt a0 a1 a2 a3 a4 a5 s := rfl
@[simp] theorem exec_vcvtSat (a0 : Guard) (a1 : Nat) (a2 : Nat) (a3 : Fmt) (a4 : Fmt) (a5 : Rm) (s : State) : exec (.vcvtSat a0 a1 a2 a3 a4 a5) s = execVcvtSat a0 a1 a2 a3 a4 a5 s := rfl
@[simp] theorem exec_vscaI32 (a0 : Guard) (a1 : Nat) (a2 : Nat) (a3 : Nat) (a4 : Nat) (a5 : Rm) (s : State) : exec (.vscaI32 a0 a1 a2 a3 a4 a5) s = execVscaI32 a0 a1 a2 a3 a4 a5 s := rfl
@[simp] theorem exec_vscaF32 (a0 : Guard) (a1 : Nat) (a2 : Nat) (a3 : Nat) (a4 : Nat) (a5 : Rm) (s : State) : exec (.vscaF32 a0 a1 a2 a3 a4 a5) s = execVscaF32 a0 a1 a2 a3 a4 a5 s := rfl
@[simp] theorem exec_vsplat (a0 : Guard) (a1 : Nat) (a2 : Nat) (a3 : Nat) (s : State) : exec (.vsplat a0 a1 a2 a3) s = execVsplat a0 a1 a2 a3 s := rfl
@[simp] theorem exec_vrotr (a0 : Guard) (a1 : Nat) (a2 : Nat) (a3 : Nat) (s : State) : exec (.vrotr a0 a1 a2 a3) s = execVrotr a0 a1 a2 a3 s := rfl
@[simp] theorem exec_vbcr (a0 : Guard) (a1 : Nat) (a2 : Nat) (a3 : Nat) (s : State) : exec (.vbcr a0 a1 a2 a3) s = execVbcr a0 a1 a2 a3 s := rfl
@[simp] theorem exec_vrotc (a0 : Guard) (a1 : Nat) (a2 : Nat) (a3 : Nat) (s : State) : exec (.vrotc a0 a1 a2 a3) s = execVrotc a0 a1 a2 a3 s := rfl
@[simp] theorem exec_vbcc (a0 : Guard) (a1 : Nat) (a2 : Nat) (a3 : Nat) (s : State) : exec (.vbcc a0 a1 a2 a3) s = execVbcc a0 a1 a2 a3 s := rfl
@[simp] theorem exec_vredrSumF32 (a0 : Guard) (a1 : Nat) (a2 : Nat) (a3 : Nat) (s : State) : exec (.vredrSumF32 a0 a1 a2 a3) s = execVredrSumF32 a0 a1 a2 a3 s := rfl
@[simp] theorem exec_vredrMaxF32 (a0 : Guard) (a1 : Nat) (a2 : Nat) (a3 : Nat) (s : State) : exec (.vredrMaxF32 a0 a1 a2 a3) s = execVredrMaxF32 a0 a1 a2 a3 s := rfl
@[simp] theorem exec_vredrMinF32 (a0 : Guard) (a1 : Nat) (a2 : Nat) (a3 : Nat) (s : State) : exec (.vredrMinF32 a0 a1 a2 a3) s = execVredrMinF32 a0 a1 a2 a3 s := rfl
@[simp] theorem exec_vredrSumI32 (a0 : Guard) (a1 : Nat) (a2 : Nat) (a3 : Nat) (s : State) : exec (.vredrSumI32 a0 a1 a2 a3) s = execVredrSumI32 a0 a1 a2 a3 s := rfl
@[simp] theorem exec_vredrMaxI32 (a0 : Guard) (a1 : Nat) (a2 : Nat) (a3 : Nat) (s : State) : exec (.vredrMaxI32 a0 a1 a2 a3) s = execVredrMaxI32 a0 a1 a2 a3 s := rfl
@[simp] theorem exec_vredrMinI32 (a0 : Guard) (a1 : Nat) (a2 : Nat) (a3 : Nat) (s : State) : exec (.vredrMinI32 a0 a1 a2 a3) s = execVredrMinI32 a0 a1 a2 a3 s := rfl
@[simp] theorem exec_vredcSumF32 (a0 : Guard) (a1 : Nat) (a2 : Nat) (a3 : Nat) (s : State) : exec (.vredcSumF32 a0 a1 a2 a3) s = execVredcSumF32 a0 a1 a2 a3 s := rfl
@[simp] theorem exec_vredcMaxF32 (a0 : Guard) (a1 : Nat) (a2 : Nat) (a3 : Nat) (s : State) : exec (.vredcMaxF32 a0 a1 a2 a3) s = execVredcMaxF32 a0 a1 a2 a3 s := rfl
@[simp] theorem exec_vredcMinF32 (a0 : Guard) (a1 : Nat) (a2 : Nat) (a3 : Nat) (s : State) : exec (.vredcMinF32 a0 a1 a2 a3) s = execVredcMinF32 a0 a1 a2 a3 s := rfl
@[simp] theorem exec_vredcSumI32 (a0 : Guard) (a1 : Nat) (a2 : Nat) (a3 : Nat) (s : State) : exec (.vredcSumI32 a0 a1 a2 a3) s = execVredcSumI32 a0 a1 a2 a3 s := rfl
@[simp] theorem exec_vredcMaxI32 (a0 : Guard) (a1 : Nat) (a2 : Nat) (a3 : Nat) (s : State) : exec (.vredcMaxI32 a0 a1 a2 a3) s = execVredcMaxI32 a0 a1 a2 a3 s := rfl
@[simp] theorem exec_vredcMinI32 (a0 : Guard) (a1 : Nat) (a2 : Nat) (a3 : Nat) (s : State) : exec (.vredcMinI32 a0 a1 a2 a3) s = execVredcMinI32 a0 a1 a2 a3 s := rfl
@[simp] theorem exec_vtr (a0 : Guard) (a1 : Nat) (a2 : Nat) (a3 : Nat) (s : State) : exec (.vtr a0 a1 a2 a3) s = execVtr a0 a1 a2 a3 s := rfl
@[simp] theorem exec_kand (a0 : Guard) (a1 : Nat) (a2 : Nat) (a3 : Nat) (s : State) : exec (.kand a0 a1 a2 a3) s = execKand a0 a1 a2 a3 s := rfl
@[simp] theorem exec_kor (a0 : Guard) (a1 : Nat) (a2 : Nat) (a3 : Nat) (s : State) : exec (.kor a0 a1 a2 a3) s = execKor a0 a1 a2 a3 s := rfl
@[simp] theorem exec_kxor (a0 : Guard) (a1 : Nat) (a2 : Nat) (a3 : Nat) (s : State) : exec (.kxor a0 a1 a2 a3) s = execKxor a0 a1 a2 a3 s := rfl
@[simp] theorem exec_kandn (a0 : Guard) (a1 : Nat) (a2 : Nat) (a3 : Nat) (s : State) : exec (.kandn a0 a1 a2 a3) s = execKandn a0 a1 a2 a3 s := rfl
@[simp] theorem exec_knot (a0 : Guard) (a1 : Nat) (a2 : Nat) (s : State) : exec (.knot a0 a1 a2) s = execKnot a0 a1 a2 s := rfl
@[simp] theorem exec_kmov (a0 : Guard) (a1 : Nat) (a2 : Nat) (s : State) : exec (.kmov a0 a1 a2) s = execKmov a0 a1 a2 s := rfl
@[simp] theorem exec_kany (a0 : Guard) (a1 : Nat) (a2 : Nat) (s : State) : exec (.kany a0 a1 a2) s = execKany a0 a1 a2 s := rfl
@[simp] theorem exec_kall (a0 : Guard) (a1 : Nat) (a2 : Nat) (s : State) : exec (.kall a0 a1 a2) s = execKall a0 a1 a2 s := rfl
@[simp] theorem exec_vrcpe (a0 : Guard) (a1 : Nat) (a2 : Nat) (a3 : Nat) (s : State) : exec (.vrcpe a0 a1 a2 a3) s = execVrcpe a0 a1 a2 a3 s := rfl
@[simp] theorem exec_vrsqe (a0 : Guard) (a1 : Nat) (a2 : Nat) (a3 : Nat) (s : State) : exec (.vrsqe a0 a1 a2 a3) s = execVrsqe a0 a1 a2 a3 s := rfl
@[simp] theorem exec_vrcps (a0 : Guard) (a1 : Nat) (a2 : Nat) (a3 : Nat) (a4 : Nat) (a5 : Rm) (s : State) : exec (.vrcps a0 a1 a2 a3 a4 a5) s = execVrcps a0 a1 a2 a3 a4 a5 s := rfl
@[simp] theorem exec_vrsqs (a0 : Guard) (a1 : Nat) (a2 : Nat) (a3 : Nat) (a4 : Nat) (a5 : Rm) (s : State) : exec (.vrsqs a0 a1 a2 a3 a4 a5) s = execVrsqs a0 a1 a2 a3 a4 a5 s := rfl
@[simp] theorem exec_vfexp (a0 : Guard) (a1 : Nat) (a2 : Nat) (a3 : Nat) (s : State) : exec (.vfexp a0 a1 a2 a3) s = execVfexp a0 a1 a2 a3 s := rfl
@[simp] theorem exec_vexpi (a0 : Guard) (a1 : Nat) (a2 : Nat) (a3 : Nat) (a4 : Nat) (a5 : Rm) (s : State) : exec (.vexpi a0 a1 a2 a3 a4 a5) s = execVexpi a0 a1 a2 a3 a4 a5 s := rfl
@[simp] theorem exec_vexpxE (a0 : Guard) (a1 : Nat) (a2 : Nat) (a3 : Nat) (s : State) : exec (.vexpxE a0 a1 a2 a3) s = execVexpxE a0 a1 a2 a3 s := rfl
@[simp] theorem exec_vexpxM (a0 : Guard) (a1 : Nat) (a2 : Nat) (a3 : Nat) (s : State) : exec (.vexpxM a0 a1 a2 a3) s = execVexpxM a0 a1 a2 a3 s := rfl
@[simp] theorem exec_vlg2e (a0 : Guard) (a1 : Nat) (a2 : Nat) (a3 : Nat) (s : State) : exec (.vlg2e a0 a1 a2 a3) s = execVlg2e a0 a1 a2 a3 s := rfl
@[simp] theorem exec_vrngN32 (a0 : Guard) (a1 : Nat) (a2 : Nat) (s : State) : exec (.vrngN32 a0 a1 a2) s = execVrngN32 a0 a1 a2 s := rfl
@[simp] theorem exec_vrngF32 (a0 : Guard) (a1 : Nat) (a2 : Nat) (s : State) : exec (.vrngF32 a0 a1 a2) s = execVrngF32 a0 a1 a2 s := rfl
@[simp] theorem exec_mlease (a0 : Guard) (s : State) : exec (.mlease a0) s = execMlease a0 s := rfl
@[simp] theorem exec_mrel (a0 : Guard) (s : State) : exec (.mrel a0) s = execMrel a0 s := rfl
@[simp] theorem exec_mset (a0 : Guard) (a1 : Nat) (a2 : Nat) (s : State) : exec (.mset a0 a1 a2) s = execMset a0 a1 a2 s := rfl
@[simp] theorem exec_mseti (a0 : Guard) (a1 : Nat) (a2 : Nat) (s : State) : exec (.mseti a0 a1 a2) s = execMseti a0 a1 a2 s := rfl
@[simp] theorem exec_mwld (a0 : Guard) (a1 : Fmt) (s : State) : exec (.mwld a0 a1) s = execMwld a0 a1 s := rfl
@[simp] theorem exec_mwlda (a0 : Guard) (a1 : Fmt) (s : State) : exec (.mwlda a0 a1) s = execMwlda a0 a1 s := rfl
@[simp] theorem exec_mwldb (a0 : Guard) (a1 : Fmt) (s : State) : exec (.mwldb a0 a1) s = execMwldb a0 a1 s := rfl
@[simp] theorem exec_mma (a0 : Guard) (a1 : Fmt) (a2 : Fmt) (a3 : Nat) (s : State) : exec (.mma a0 a1 a2 a3) s = execMma a0 a1 a2 a3 s := rfl
@[simp] theorem exec_mmaAcc (a0 : Guard) (a1 : Fmt) (a2 : Fmt) (a3 : Nat) (s : State) : exec (.mmaAcc a0 a1 a2 a3) s = execMmaAcc a0 a1 a2 a3 s := rfl
@[simp] theorem exec_mzero (a0 : Guard) (a1 : Nat) (s : State) : exec (.mzero a0 a1) s = execMzero a0 a1 s := rfl
@[simp] theorem exec_mdrv (a0 : Guard) (a1 : Nat) (a2 : Nat) (a3 : Nat) (s : State) : exec (.mdrv a0 a1 a2 a3) s = execMdrv a0 a1 a2 a3 s := rfl
@[simp] theorem exec_mdrs (a0 : Guard) (a1 : Nat) (a2 : Nat) (s : State) : exec (.mdrs a0 a1 a2) s = execMdrs a0 a1 a2 s := rfl
@[simp] theorem exec_cpy (a0 : Guard) (a1 : Nat) (a2 : Nat) (a3 : Nat) (s : State) : exec (.cpy a0 a1 a2 a3) s = execCpy a0 a1 a2 a3 s := rfl
@[simp] theorem exec_cpyt (a0 : Guard) (a1 : Nat) (a2 : Nat) (a3 : Nat) (a4 : Nat) (a5 : Bool) (a6 : Bool) (s : State) : exec (.cpyt a0 a1 a2 a3 a4 a5 a6) s = execCpyt a0 a1 a2 a3 a4 a5 a6 s := rfl
@[simp] theorem exec_cpl (a0 : Guard) (a1 : Nat) (a2 : Nat) (a3 : Nat) (s : State) : exec (.cpl a0 a1 a2 a3) s = execCpl a0 a1 a2 a3 s := rfl
@[simp] theorem exec_cprog (a0 : Guard) (a1 : Nat) (a2 : Nat) (a3 : Nat) (s : State) : exec (.cprog a0 a1 a2 a3) s = execCprog a0 a1 a2 a3 s := rfl
@[simp] theorem exec_cprogi (a0 : Guard) (a1 : Nat) (a2 : Nat) (a3 : Nat) (s : State) : exec (.cprogi a0 a1 a2 a3) s = execCprogi a0 a1 a2 a3 s := rfl
@[simp] theorem exec_send (a0 : Guard) (a1 : Nat) (a2 : Nat) (a3 : Nat) (s : State) : exec (.send a0 a1 a2 a3) s = execSend a0 a1 a2 a3 s := rfl
@[simp] theorem exec_recv (a0 : Guard) (a1 : Nat) (a2 : Nat) (a3 : Nat) (s : State) : exec (.recv a0 a1 a2 a3) s = execRecv a0 a1 a2 a3 s := rfl
@[simp] theorem exec_xmark (a0 : Guard) (s : State) : exec (.xmark a0) s = execXmark a0 s := rfl
@[simp] theorem exec_tbump (a0 : Guard) (a1 : Nat) (s : State) : exec (.tbump a0 a1) s = execTbump a0 a1 s := rfl
@[simp] theorem exec_tcommit (a0 : Guard) (a1 : Nat) (s : State) : exec (.tcommit a0 a1) s = execTcommit a0 a1 s := rfl
@[simp] theorem exec_tdig (a0 : Guard) (a1 : Nat) (s : State) : exec (.tdig a0 a1) s = execTdig a0 a1 s := rfl
@[simp] theorem exec_krot (a0 : Guard) (s : State) : exec (.krot a0) s = execKrot a0 s := rfl
@[simp] theorem exec_sealCopy (a0 : Guard) (a1 : Nat) (s : State) : exec (.sealCopy a0 a1) s = execSealCopy a0 a1 s := rfl
@[simp] theorem exec_unsealCopy (a0 : Guard) (a1 : Nat) (s : State) : exec (.unsealCopy a0 a1) s = execUnsealCopy a0 a1 s := rfl
@[simp] theorem exec_scrubCopy (a0 : Guard) (a1 : Nat) (s : State) : exec (.scrubCopy a0 a1) s = execScrubCopy a0 a1 s := rfl
@[simp] theorem exec_bundleIssue (a0 : Nat) (s : State) : exec (.bundleIssue a0) s = execBundleIssue a0 s := rfl
@[simp] theorem exec_resultLand (a0 : Nat) (s : State) : exec (.resultLand a0) s = execResultLand a0 s := rfl
@[simp] theorem exec_waitEnd (a0 : Nat) (s : State) : exec (.waitEnd a0) s = execWaitEnd a0 s := rfl
@[simp] theorem exec_nxtDelivery (a0 : Nat) (s : State) : exec (.nxtDelivery a0) s = execNxtDelivery a0 s := rfl
@[simp] theorem exec_bankAccessPerform (a0 : Nat) (s : State) : exec (.bankAccessPerform a0) s = execBankAccessPerform a0 s := rfl
@[simp] theorem exec_holdRequest (a0 : Nat) (a1 : Nat) (s : State) : exec (.holdRequest a0 a1) s = execHoldRequest a0 a1 s := rfl
@[simp] theorem exec_holdTakesEffect (a0 : Nat) (s : State) : exec (.holdTakesEffect a0) s = execHoldTakesEffect a0 s := rfl
@[simp] theorem exec_holdResume (a0 : Nat) (s : State) : exec (.holdResume a0) s = execHoldResume a0 s := rfl
@[simp] theorem exec_stationmasterResume (a0 : Nat) (a1 : Nat) (s : State) : exec (.stationmasterResume a0 a1) s = execStationmasterResume a0 a1 s := rfl
@[simp] theorem exec_governorWindow (a0 : List Nat) (a1 : GovernorSet) (s : State) : exec (.governorWindow a0 a1) s = execGovernorWindow a0 a1 s := rfl
@[simp] theorem exec_rateChangeEffect (a0 : Nat) (s : State) : exec (.rateChangeEffect a0) s = execRateChangeEffect a0 s := rfl
@[simp] theorem exec_thermalTrip (a0 : Nat) (s : State) : exec (.thermalTrip a0) s = execThermalTrip a0 s := rfl
@[simp] theorem exec_powerUp (a0 : List BootTry) (s : State) : exec (.powerUp a0) s = execPowerUp a0 s := rfl
@[simp] theorem exec_servoSourceSeen (a0 : List Nat) (s : State) : exec (.servoSourceSeen a0) s = execServoSourceSeen a0 s := rfl
@[simp] theorem exec_servoMeasurement (a0 : Int) (s : State) : exec (.servoMeasurement a0) s = execServoMeasurement a0 s := rfl
@[simp] theorem exec_servoSourceLost (s : State) : exec .servoSourceLost s = execServoSourceLost s := rfl
@[simp] theorem exec_servoSourceSelect (a0 : List Nat) (s : State) : exec (.servoSourceSelect a0) s = execServoSourceSelect a0 s := rfl
@[simp] theorem exec_launchStart (a0 : Nat) (a1 : Nat) (s : State) : exec (.launchStart a0 a1) s = execLaunchStart a0 a1 s := rfl
@[simp] theorem exec_coreExitTick (a0 : Nat) (s : State) : exec (.coreExitTick a0) s = execCoreExitTick a0 s := rfl
@[simp] theorem exec_launchRetire (a0 : Nat) (a1 : Nat) (s : State) : exec (.launchRetire a0 a1) s = execLaunchRetire a0 a1 s := rfl
@[simp] theorem exec_leaseGrant (a0 : Nat) (s : State) : exec (.leaseGrant a0) s = execLeaseGrant a0 s := rfl
@[simp] theorem exec_leaseEnd (a0 : Nat) (s : State) : exec (.leaseEnd a0) s = execLeaseEnd a0 s := rfl
@[simp] theorem exec_leaseTurnEnd (a0 : Nat) (s : State) : exec (.leaseTurnEnd a0) s = execLeaseTurnEnd a0 s := rfl
@[simp] theorem exec_matrixCommandSwap (a0 : Nat) (s : State) : exec (.matrixCommandSwap a0) s = execMatrixCommandSwap a0 s := rfl
@[simp] theorem exec_matrixCommandComplete (a0 : Nat) (s : State) : exec (.matrixCommandComplete a0) s = execMatrixCommandComplete a0 s := rfl
@[simp] theorem exec_beatSourceRead (a0 : Nat) (a1 : Nat) (a2 : Nat) (a3 : Nat) (s : State) : exec (.beatSourceRead a0 a1 a2 a3) s = execBeatSourceRead a0 a1 a2 a3 s := rfl
@[simp] theorem exec_indexEntryRead (a0 : Nat) (a1 : Nat) (a2 : Nat) (a3 : Nat) (s : State) : exec (.indexEntryRead a0 a1 a2 a3) s = execIndexEntryRead a0 a1 a2 a3 s := rfl
@[simp] theorem exec_beatRelease (a0 : Nat) (a1 : Nat) (a2 : Nat) (a3 : Nat) (s : State) : exec (.beatRelease a0 a1 a2 a3) s = execBeatRelease a0 a1 a2 a3 s := rfl
@[simp] theorem exec_cplSourceRead (a0 : Nat) (a1 : Nat) (a2 : Nat) (a3 : Nat) (s : State) : exec (.cplSourceRead a0 a1 a2 a3) s = execCplSourceRead a0 a1 a2 a3 s := rfl
@[simp] theorem exec_cplDestWrite (a0 : Nat) (a1 : Nat) (a2 : Nat) (a3 : Nat) (s : State) : exec (.cplDestWrite a0 a1 a2 a3) s = execCplDestWrite a0 a1 a2 a3 s := rfl
@[simp] theorem exec_sendBeatRead (a0 : Nat) (a1 : Nat) (a2 : Nat) (a3 : Nat) (s : State) : exec (.sendBeatRead a0 a1 a2 a3) s = execSendBeatRead a0 a1 a2 a3 s := rfl
@[simp] theorem exec_messageArrival (a0 : Nat) (a1 : Nat) (a2 : Nat) (s : State) : exec (.messageArrival a0 a1 a2) s = execMessageArrival a0 a1 a2 s := rfl
@[simp] theorem exec_lateBeatCheck (a0 : Nat) (a1 : Nat) (a2 : Nat) (a3 : Nat) (s : State) : exec (.lateBeatCheck a0 a1 a2 a3) s = execLateBeatCheck a0 a1 a2 a3 s := rfl
@[simp] theorem exec_copyFault (a0 : Nat) (a1 : Nat) (a2 : Nat) (a3 : Nat) (a4 : Nat) (a5 : Nat) (s : State) : exec (.copyFault a0 a1 a2 a3 a4 a5) s = execCopyFault a0 a1 a2 a3 a4 a5 s := rfl
@[simp] theorem exec_wportBeatConsume (a0 : Nat) (a1 : Nat) (a2 : Nat) (s : State) : exec (.wportBeatConsume a0 a1 a2) s = execWportBeatConsume a0 a1 a2 s := rfl
@[simp] theorem exec_virtLookup (a0 : Nat) (a1 : Nat) (a2 : Nat) (a3 : Nat) (a4 : Bool) (s : State) : exec (.virtLookup a0 a1 a2 a3 a4) s = execVirtLookup a0 a1 a2 a3 a4 s := rfl
@[simp] theorem exec_walkComplete (a0 : Nat) (a1 : Nat) (a2 : Nat) (a3 : Nat) (a4 : Bool) (s : State) : exec (.walkComplete a0 a1 a2 a3 a4) s = execWalkComplete a0 a1 a2 a3 a4 s := rfl
@[simp] theorem exec_sealDescriptorCheck (a0 : Nat) (a1 : Nat) (a2 : Nat) (s : State) : exec (.sealDescriptorCheck a0 a1 a2) s = execSealDescriptorCheck a0 a1 a2 s := rfl
@[simp] theorem exec_tbumpEffect (a0 : Nat) (a1 : Nat) (a2 : Nat) (s : State) : exec (.tbumpEffect a0 a1 a2) s = execTbumpEffect a0 a1 a2 s := rfl
@[simp] theorem exec_tcommitEffect (a0 : Nat) (a1 : Nat) (a2 : Nat) (s : State) : exec (.tcommitEffect a0 a1 a2) s = execTcommitEffect a0 a1 a2 s := rfl
@[simp] theorem exec_tdigEffect (a0 : Nat) (a1 : Nat) (a2 : Nat) (s : State) : exec (.tdigEffect a0 a1 a2) s = execTdigEffect a0 a1 a2 s := rfl
@[simp] theorem exec_digestResult (a0 : Nat) (a1 : Nat) (s : State) : exec (.digestResult a0 a1) s = execDigestResult a0 a1 s := rfl
@[simp] theorem exec_krotEffect (a0 : Nat) (a1 : Nat) (a2 : Nat) (s : State) : exec (.krotEffect a0 a1 a2) s = execKrotEffect a0 a1 a2 s := rfl
@[simp] theorem exec_barrierComplete (a0 : Nat) (a1 : Nat) (a2 : Nat) (a3 : Nat) (s : State) : exec (.barrierComplete a0 a1 a2 a3) s = execBarrierComplete a0 a1 a2 a3 s := rfl
@[simp] theorem exec_create (a0 : Nat) (a1 : CtxRecord) (s : State) : exec (.create a0 a1) s = execCreate a0 a1 s := rfl
@[simp] theorem exec_destroy (a0 : Nat) (a1 : CtxRecord) (s : State) : exec (.destroy a0 a1) s = execDestroy a0 a1 s := rfl
@[simp] theorem exec_preempt (a0 : Nat) (a1 : CtxRecord) (s : State) : exec (.preempt a0 a1) s = execPreempt a0 a1 s := rfl
@[simp] theorem exec_resume (a0 : Nat) (a1 : CtxRecord) (s : State) : exec (.resume a0 a1) s = execResume a0 a1 s := rfl
@[simp] theorem exec_policy (a0 : Nat) (a1 : CtxRecord) (s : State) : exec (.policy a0 a1) s = execPolicy a0 a1 s := rfl
@[simp] theorem exec_contextCreateComplete (a0 : Nat) (a1 : Nat) (s : State) : exec (.contextCreateComplete a0 a1) s = execContextCreateComplete a0 a1 s := rfl
@[simp] theorem exec_preemptBoundary (a0 : Nat) (a1 : Nat) (s : State) : exec (.preemptBoundary a0 a1) s = execPreemptBoundary a0 a1 s := rfl
@[simp] theorem exec_saveCommit (a0 : Nat) (a1 : Nat) (s : State) : exec (.saveCommit a0 a1) s = execSaveCommit a0 a1 s := rfl
@[simp] theorem exec_contextReissue (a0 : Nat) (a1 : Nat) (s : State) : exec (.contextReissue a0 a1) s = execContextReissue a0 a1 s := rfl
@[simp] theorem exec_teardownComplete (a0 : Nat) (a1 : Nat) (s : State) : exec (.teardownComplete a0 a1) s = execTeardownComplete a0 a1 s := rfl
@[simp] theorem exec_contextScrubComplete (a0 : Nat) (a1 : Nat) (s : State) : exec (.contextScrubComplete a0 a1) s = execContextScrubComplete a0 a1 s := rfl
@[simp] theorem exec_builtinTestComplete (a0 : Nat) (a1 : Nat) (a2 : Bool) (s : State) : exec (.builtinTestComplete a0 a1 a2) s = execBuiltinTestComplete a0 a1 a2 s := rfl
@[simp] theorem exec_partitionReset (a0 : Nat) (s : State) : exec (.partitionReset a0) s = execPartitionReset a0 s := rfl
@[simp] theorem exec_partitionCreate (a0 : Nat) (a1 : PartRequest) (s : State) : exec (.partitionCreate a0 a1) s = execPartitionCreate a0 a1 s := rfl
@[simp] theorem exec_partitionDestroy (a0 : Nat) (s : State) : exec (.partitionDestroy a0) s = execPartitionDestroy a0 s := rfl
@[simp] theorem exec_dieDrain (a0 : Nat) (a1 : Nat) (a2 : Bool) (s : State) : exec (.dieDrain a0 a1 a2) s = execDieDrain a0 a1 a2 s := rfl
@[simp] theorem exec_queueEnable (a0 : Nat) (a1 : Nat) (a2 : Nat) (s : State) : exec (.queueEnable a0 a1 a2) s = execQueueEnable a0 a1 a2 s := rfl
@[simp] theorem exec_queueDisable (a0 : Nat) (a1 : QcfgWrite) (s : State) : exec (.queueDisable a0 a1) s = execQueueDisable a0 a1 s := rfl
@[simp] theorem exec_qtailWrite (a0 : Nat) (a1 : Nat) (a2 : Nat) (s : State) : exec (.qtailWrite a0 a1 a2) s = execQtailWrite a0 a1 a2 s := rfl
@[simp] theorem exec_queueSelect (a0 : Nat) (a1 : Nat) (s : State) : exec (.queueSelect a0 a1) s = execQueueSelect a0 a1 s := rfl
@[simp] theorem exec_claimResolve (a0 : Nat) (s : State) : exec (.claimResolve a0) s = execClaimResolve a0 s := rfl
@[simp] theorem exec_graphKernelNode (a0 : Nat) (a1 : Nat) (s : State) : exec (.graphKernelNode a0 a1) s = execGraphKernelNode a0 a1 s := rfl
@[simp] theorem exec_graphCondNode (a0 : Nat) (a1 : Nat) (s : State) : exec (.graphCondNode a0 a1) s = execGraphCondNode a0 a1 s := rfl
@[simp] theorem exec_graphWhileNode (a0 : Nat) (a1 : Nat) (s : State) : exec (.graphWhileNode a0 a1) s = execGraphWhileNode a0 a1 s := rfl
@[simp] theorem exec_graphSwapNode (a0 : Nat) (a1 : Nat) (s : State) : exec (.graphSwapNode a0 a1) s = execGraphSwapNode a0 a1 s := rfl
@[simp] theorem exec_graphEndNode (a0 : Nat) (a1 : Nat) (s : State) : exec (.graphEndNode a0 a1) s = execGraphEndNode a0 a1 s := rfl
@[simp] theorem exec_assign (a0 : Nat) (a1 : PageRecord) (s : State) : exec (.assign a0 a1) s = execAssign a0 a1 s := rfl
@[simp] theorem exec_release (a0 : Nat) (a1 : PageRecord) (s : State) : exec (.release a0 a1) s = execRelease a0 a1 s := rfl
@[simp] theorem exec_invalidate (a0 : Nat) (a1 : PageRecord) (s : State) : exec (.invalidate a0 a1) s = execInvalidate a0 a1 s := rfl
@[simp] theorem exec_migrate (a0 : Nat) (a1 : PageRecord) (s : State) : exec (.migrate a0 a1) s = execMigrate a0 a1 s := rfl
@[simp] theorem exec_migrationCopyStart (a0 : Nat) (s : State) : exec (.migrationCopyStart a0) s = execMigrationCopyStart a0 s := rfl
@[simp] theorem exec_copyEngineComplete (a0 : Nat) (s : State) : exec (.copyEngineComplete a0) s = execCopyEngineComplete a0 s := rfl
@[simp] theorem exec_patrolRead (a0 : Nat) (a1 : Nat) (a2 : List Nat) (s : State) : exec (.patrolRead a0 a1 a2) s = execPatrolRead a0 a1 a2 s := rfl
@[simp] theorem exec_manifestLoad (a0 : Nat) (a1 : Nat) (s : State) : exec (.manifestLoad a0 a1) s = execManifestLoad a0 a1 s := rfl
@[simp] theorem exec_shardAttemptComplete (a0 : Nat) (a1 : Nat) (a2 : Bool) (a3 : List Nat) (s : State) : exec (.shardAttemptComplete a0 a1 a2 a3) s = execShardAttemptComplete a0 a1 a2 a3 s := rfl
@[simp] theorem exec_shardDeadline (a0 : Nat) (a1 : Nat) (s : State) : exec (.shardDeadline a0 a1) s = execShardDeadline a0 a1 s := rfl
@[simp] theorem exec_manifestRecheck (a0 : Nat) (s : State) : exec (.manifestRecheck a0) s = execManifestRecheck a0 s := rfl
@[simp] theorem exec_attachResetEnd (a0 : Nat) (s : State) : exec (.attachResetEnd a0) s = execAttachResetEnd a0 s := rfl
@[simp] theorem exec_attachTrainingPass (a0 : Nat) (s : State) : exec (.attachTrainingPass a0) s = execAttachTrainingPass a0 s := rfl
@[simp] theorem exec_attachRetrainRequest (a0 : Nat) (s : State) : exec (.attachRetrainRequest a0) s = execAttachRetrainRequest a0 s := rfl
@[simp] theorem exec_attachTrainingFail (a0 : Nat) (s : State) : exec (.attachTrainingFail a0) s = execAttachTrainingFail a0 s := rfl
@[simp] theorem exec_circuitEnable (a0 : Nat) (a1 : Nat) (s : State) : exec (.circuitEnable a0 a1) s = execCircuitEnable a0 a1 s := rfl
@[simp] theorem exec_circuitDisable (a0 : Nat) (s : State) : exec (.circuitDisable a0) s = execCircuitDisable a0 s := rfl
@[simp] theorem exec_circuitLit (a0 : Nat) (s : State) : exec (.circuitLit a0) s = execCircuitLit a0 s := rfl
@[simp] theorem exec_circuitDrainComplete (a0 : Nat) (s : State) : exec (.circuitDrainComplete a0) s = execCircuitDrainComplete a0 s := rfl
@[simp] theorem exec_wavelengthFence (a0 : Nat) (a1 : Nat) (s : State) : exec (.wavelengthFence a0 a1) s = execWavelengthFence a0 a1 s := rfl
@[simp] theorem exec_portEnable (a0 : Nat) (s : State) : exec (.portEnable a0) s = execPortEnable a0 s := rfl
@[simp] theorem exec_portTrainingPass (a0 : Nat) (a1 : Nat) (s : State) : exec (.portTrainingPass a0 a1) s = execPortTrainingPass a0 a1 s := rfl
@[simp] theorem exec_portLaneLoss (a0 : Nat) (s : State) : exec (.portLaneLoss a0) s = execPortLaneLoss a0 s := rfl
@[simp] theorem exec_portDisable (a0 : Nat) (s : State) : exec (.portDisable a0) s = execPortDisable a0 s := rfl
@[simp] theorem exec_fabidxWrite (a0 : Nat) (s : State) : exec (.fabidxWrite a0) s = execFabidxWrite a0 s := rfl
@[simp] theorem exec_flitReceive (a0 : Flit) (s : State) : exec (.flitReceive a0) s = execFlitReceive a0 s := rfl
@[simp] theorem exec_peerOpen (a0 : Nat) (a1 : Nat) (s : State) : exec (.peerOpen a0 a1) s = execPeerOpen a0 a1 s := rfl
@[simp] theorem exec_peerClose (a0 : Nat) (a1 : Nat) (s : State) : exec (.peerClose a0 a1) s = execPeerClose a0 a1 s := rfl
@[simp] theorem exec_peerInit (a0 : Nat) (a1 : Nat) (a2 : PeerMsg) (s : State) : exec (.peerInit a0 a1 a2) s = execPeerInit a0 a1 a2 s := rfl
@[simp] theorem exec_peerResp (a0 : Nat) (a1 : Nat) (a2 : PeerMsg) (s : State) : exec (.peerResp a0 a1 a2) s = execPeerResp a0 a1 a2 s := rfl
@[simp] theorem exec_peerFin (a0 : Nat) (a1 : Nat) (a2 : PeerMsg) (s : State) : exec (.peerFin a0 a1 a2) s = execPeerFin a0 a1 a2 s := rfl
@[simp] theorem exec_peerCloseReceived (a0 : Nat) (a1 : Nat) (s : State) : exec (.peerCloseReceived a0 a1) s = execPeerCloseReceived a0 a1 s := rfl
@[simp] theorem exec_peerTimeout (a0 : Nat) (a1 : Nat) (s : State) : exec (.peerTimeout a0 a1) s = execPeerTimeout a0 a1 s := rfl
@[simp] theorem exec_functionLevelReset (a0 : Nat) (s : State) : exec (.functionLevelReset a0) s = execFunctionLevelReset a0 s := rfl
@[simp] theorem exec_tdispMessage (a0 : Nat) (a1 : Nat) (s : State) : exec (.tdispMessage a0 a1) s = execTdispMessage a0 a1 s := rfl
@[simp] theorem exec_ideCheckFail (a0 : Nat) (s : State) : exec (.ideCheckFail a0) s = execIdeCheckFail a0 s := rfl
@[simp] theorem exec_hostDmaRequest (a0 : Nat) (a1 : Bool) (a2 : Nat) (a3 : List Nat) (a4 : Bool) (s : State) : exec (.hostDmaRequest a0 a1 a2 a3 a4) s = execHostDmaRequest a0 a1 a2 a3 a4 s := rfl
@[simp] theorem exec_getVersion (a0 : Nat) (s : State) : exec (.getVersion a0) s = execGetVersion a0 s := rfl
@[simp] theorem exec_getCapabilities (a0 : Nat) (s : State) : exec (.getCapabilities a0) s = execGetCapabilities a0 s := rfl
@[simp] theorem exec_negotiateAlgorithms (a0 : Nat) (a1 : Nat) (a2 : Nat) (a3 : Nat) (s : State) : exec (.negotiateAlgorithms a0 a1 a2 a3) s = execNegotiateAlgorithms a0 a1 a2 a3 s := rfl
@[simp] theorem exec_getDigests (a0 : Nat) (s : State) : exec (.getDigests a0) s = execGetDigests a0 s := rfl
@[simp] theorem exec_getCertificate (a0 : Nat) (a1 : Nat) (a2 : Nat) (s : State) : exec (.getCertificate a0 a1 a2) s = execGetCertificate a0 a1 a2 s := rfl
@[simp] theorem exec_challenge (a0 : Nat) (a1 : Nat) (s : State) : exec (.challenge a0 a1) s = execChallenge a0 a1 s := rfl
@[simp] theorem exec_getMeasurements (a0 : Nat) (a1 : Nat) (a2 : Nat) (s : State) : exec (.getMeasurements a0 a1 a2) s = execGetMeasurements a0 a1 a2 s := rfl
@[simp] theorem exec_keyExchange (a0 : Nat) (a1 : Nat) (a2 : Nat) (s : State) : exec (.keyExchange a0 a1 a2) s = execKeyExchange a0 a1 a2 s := rfl
@[simp] theorem exec_finish (a0 : Nat) (a1 : Bool) (s : State) : exec (.finish a0 a1) s = execFinish a0 a1 s := rfl
@[simp] theorem exec_keyUpdate (a0 : Nat) (s : State) : exec (.keyUpdate a0) s = execKeyUpdate a0 s := rfl
@[simp] theorem exec_endSession (a0 : Nat) (s : State) : exec (.endSession a0) s = execEndSession a0 s := rfl
@[simp] theorem exec_tenantidWrite (a0 : Nat) (a1 : Nat) (s : State) : exec (.tenantidWrite a0 a1) s = execTenantidWrite a0 a1 s := rfl
@[simp] theorem exec_debugTokenCheck (a0 : Nat) (a1 : List Nat) (s : State) : exec (.debugTokenCheck a0 a1) s = execDebugTokenCheck a0 a1 s := rfl
@[simp] theorem exec_debugLock (a0 : Nat) (s : State) : exec (.debugLock a0) s = execDebugLock a0 s := rfl
@[simp] theorem exec_debugStopRequest (a0 : Nat) (s : State) : exec (.debugStopRequest a0) s = execDebugStopRequest a0 s := rfl
@[simp] theorem exec_debuggerResume (a0 : Nat) (s : State) : exec (.debuggerResume a0) s = execDebuggerResume a0 s := rfl
@[simp] theorem exec_jreset (s : State) : exec (.jreset) s = execJreset s := rfl
@[simp] theorem exec_fenceclr (a0 : Nat) (s : State) : exec (.fenceclr a0) s = execFenceclr a0 s := rfl
@[simp] theorem exec_registerWrite (a0 : Nat) (a1 : Nat) (a2 : Nat) (s : State) : exec (.registerWrite a0 a1 a2) s = execRegisterWrite a0 a1 a2 s := rfl
@[simp] theorem exec_beatPresent (a0 : Nat) (a1 : Nat) (a2 : Nat) (a3 : Nat) (s : State) : exec (.beatPresent a0 a1 a2 a3) s = execBeatPresent a0 a1 a2 a3 s := rfl
@[simp] theorem exec_faultActionsComplete (a0 : Nat) (s : State) : exec (.faultActionsComplete a0) s = execFaultActionsComplete a0 s := rfl
@[simp] theorem exec_powerLoss (s : State) : exec (.powerLoss) s = execPowerLoss s := rfl
@[simp] theorem exec_waitBudgetExhausted (a0 : Nat) (s : State) : exec (.waitBudgetExhausted a0) s = execWaitBudgetExhausted a0 s := rfl

end Sys2Proof.Laws
end

