-- ==== Sys2Proof/Laws/Tab.lean ====
section
/-! SUPPORT. Laws of sparse tables: reading after writing, and the canonical form of memory and of the register files. -/
namespace Sys2Proof.Laws
open Sys2Proof.Machine

variable {α : Type}

theorem find_put_same (t : Tab α) (k : Nat) (v : α) : Tab.find (Tab.put t k v) k = some v := by
  induction t with
  | nil => simp [Tab.put, Tab.find]
  | cons e t ih =>
    obtain ⟨j, w⟩ := e
    simp only [Tab.put]
    split
    · simp [Tab.find]
    · split
      · simp [Tab.find]
      · simp_all [Tab.find]

theorem find_put_other (t : Tab α) {k j : Nat} (v : α) (h : j ≠ k) : Tab.find (Tab.put t k v) j = Tab.find t j := by
  induction t with
  | nil => simp [Tab.put, Tab.find, Ne.symm h]
  | cons e t ih =>
    obtain ⟨i, w⟩ := e
    simp only [Tab.put]
    split
    · simp [Tab.find, Ne.symm h]
    · split
      · subst_vars; simp [Tab.find, Ne.symm h]
      · simp [Tab.find, ih]

theorem get_put_same (d : α) (t : Tab α) (k : Nat) (v : α) : Tab.get d (Tab.put t k v) k = v := by
  induction t with
  | nil => simp [Tab.put, Tab.get]
  | cons e t ih =>
    obtain ⟨j, w⟩ := e
    simp only [Tab.put]
    split
    · simp [Tab.get]
    · split
      · simp [Tab.get]
      · simp_all [Tab.get]

theorem get_put_other (d : α) (t : Tab α) {k j : Nat} (v : α) (h : j ≠ k) : Tab.get d (Tab.put t k v) j = Tab.get d t j := by
  induction t with
  | nil => simp [Tab.put, Tab.get, Ne.symm h]
  | cons e t ih =>
    obtain ⟨i, w⟩ := e
    simp only [Tab.put]
    split
    · simp [Tab.get, Ne.symm h]
    · split
      · subst_vars; simp [Tab.get, Ne.symm h]
      · simp [Tab.get, ih]

/-- Every key of the table lies above k. -/
def above (k : Nat) (t : Tab α) : Prop := ∀ e ∈ t, k < e.1

theorem sorted_cons (j : Nat) (v : α) (t : Tab α) : Tab.sorted ((j, v) :: t) = true ↔ above j t ∧ Tab.sorted t = true := by
  induction t generalizing j v with
  | nil => simp [Tab.sorted, above]
  | cons e t ih =>
    obtain ⟨k, w⟩ := e
    simp only [Tab.sorted, Bool.and_eq_true, decide_eq_true_eq, above, List.mem_cons, forall_eq_or_imp]
    constructor
    · intro ⟨h1, h2⟩
      exact ⟨⟨h1, fun e he => Nat.lt_trans h1 (((ih k w).mp h2).1 e he)⟩, h2⟩
    · intro ⟨⟨h1, _⟩, h2⟩
      exact ⟨h1, h2⟩

theorem get_above (d : α) (k : Nat) (t : Tab α) (h : above k t) : Tab.get d t k = d := by
  induction t with
  | nil => rfl
  | cons e t ih =>
    obtain ⟨j, w⟩ := e
    have h1 := h (j, w) (by simp)
    have h2 : j ≠ k := Nat.ne_of_gt h1
    simp only [Tab.get, h2, if_false]
    exact ih fun e he => h e (by simp [he])

theorem get_del_same (d : α) (t : Tab α) (k : Nat) : Tab.get d (Tab.del t k) k = d := by
  induction t with
  | nil => rfl
  | cons e t ih =>
    obtain ⟨j, w⟩ := e
    simp only [Tab.del]
    split
    · exact ih
    · rename_i e1; simp only [Tab.get, e1, if_false]; exact ih

theorem get_del_other (d : α) (t : Tab α) {k j : Nat} (h : j ≠ k) : Tab.get d (Tab.del t k) j = Tab.get d t j := by
  induction t with
  | nil => rfl
  | cons e t ih =>
    obtain ⟨i, w⟩ := e
    simp only [Tab.del]
    split
    · subst_vars; simp [Tab.get, Ne.symm h, ih]
    · simp [Tab.get, ih]

theorem mem_put {t : Tab α} {k : Nat} {v : α} {e : Nat × α} (h : e ∈ Tab.put t k v) : e = (k, v) ∨ e ∈ t := by
  induction t with
  | nil => simp [Tab.put] at h; exact .inl h
  | cons a t ih =>
    obtain ⟨i, w⟩ := a
    simp only [Tab.put] at h
    split at h
    · simpa using h
    · split at h
      · simp only [List.mem_cons] at h ⊢; tauto
      · simp only [List.mem_cons] at h ⊢
        rcases h with h | h
        · exact .inr (.inl h)
        · rcases ih h with h | h
          · exact .inl h
          · exact .inr (.inr h)

theorem mem_del {t : Tab α} {k : Nat} {e : Nat × α} (h : e ∈ Tab.del t k) : e ∈ t := by
  induction t with
  | nil => exact h
  | cons a t ih =>
    obtain ⟨i, w⟩ := a
    simp only [Tab.del] at h
    split at h
    · exact List.mem_cons_of_mem _ (ih h)
    · simp only [List.mem_cons] at h ⊢; exact h.imp id ih

theorem sorted_put (t : Tab α) (k : Nat) (v : α) (h : Tab.sorted t = true) : Tab.sorted (Tab.put t k v) = true := by
  induction t with
  | nil => rfl
  | cons a t ih =>
    obtain ⟨i, w⟩ := a
    have hs := (sorted_cons i w t).mp h
    simp only [Tab.put]
    split
    · rename_i hk
      refine (sorted_cons k v _).mpr ⟨fun e he => ?_, h⟩
      rcases List.mem_cons.mp he with rfl | he
      · exact hk
      · exact Nat.lt_trans hk (hs.1 e he)
    · split
      · subst_vars; exact (sorted_cons _ v t).mpr hs
      · rename_i h1 h2
        refine (sorted_cons i w _).mpr ⟨fun e he => ?_, ih hs.2⟩
        rcases mem_put he with rfl | he
        · show i < k; omega
        · exact hs.1 e he

theorem put_put (t : Tab α) (k : Nat) (v w : α) : Tab.put (Tab.put t k v) k w = Tab.put t k w := by
  induction t with
  | nil => simp [Tab.put]
  | cons a t ih =>
    obtain ⟨i, u⟩ := a
    simp only [Tab.put]
    split
    · simp [Tab.put]
    · rename_i h1
      split
      · simp [Tab.put]
      · rename_i h2; simp [Tab.put, h1, h2, ih]

theorem sorted_del (t : Tab α) (k : Nat) (h : Tab.sorted t = true) : Tab.sorted (Tab.del t k) = true := by
  induction t with
  | nil => rfl
  | cons a t ih =>
    obtain ⟨i, w⟩ := a
    have hs := (sorted_cons i w t).mp h
    simp only [Tab.del]
    split
    · exact ih hs.2
    · exact (sorted_cons i w _).mpr ⟨fun e he => hs.1 e (mem_del he), ih hs.2⟩

theorem sorted_filter (t : Tab α) (f : Nat × α → Bool) (h : Tab.sorted t = true) : Tab.sorted (t.filter f) = true := by
  induction t with
  | nil => rfl
  | cons a t ih =>
    obtain ⟨i, w⟩ := a
    have hs := (sorted_cons i w t).mp h
    simp only [List.filter_cons]
    split
    · exact (sorted_cons i w _).mpr ⟨fun e he => hs.1 e (List.mem_of_mem_filter he), ih hs.2⟩
    · exact ih hs.2

/-- A change of the values alone keeps the order of the keys. -/
theorem sorted_map {β : Type} (t : Tab α) (f : Nat × α → Nat × β) (hf : ∀ e, (f e).1 = e.1) (h : Tab.sorted t = true) :
    Tab.sorted (t.map f) = true := by
  induction t with
  | nil => rfl
  | cons a t ih =>
    obtain ⟨i, w⟩ := a
    have hs := (sorted_cons i w t).mp h
    have e1 : f (i, w) = (i, (f (i, w)).2) := Prod.ext (hf _) rfl
    rw [List.map_cons, e1]
    refine (sorted_cons i _ _).mpr ⟨fun e he => ?_, ih hs.2⟩
    obtain ⟨x, hx, rfl⟩ := List.mem_map.mp he
    rw [hf]; exact hs.1 x hx

theorem sorted_upd (t : Tab α) (k : Nat) (f : α → α) (h : Tab.sorted t = true) : Tab.sorted (Tab.upd t k f) = true :=
  sorted_map t _ (fun e => by split <;> rfl) h

theorem find_upd (t : Tab α) (k j : Nat) (f : α → α) :
    Tab.find (Tab.upd t k f) j = if j = k then (Tab.find t j).map f else Tab.find t j := by
  induction t with
  | nil => simp [Tab.upd, Tab.find]
  | cons a t ih =>
    obtain ⟨i, w⟩ := a
    simp only [Tab.upd, List.map_cons] at ih ⊢
    by_cases h1 : i = k
    · subst h1
      by_cases h2 : i = j
      · simp [Tab.find, h2]
      · simp only [if_true, Tab.find, h2, if_false]; exact ih
    · by_cases h2 : i = j
      · have h3 : ¬ j = k := fun h => h1 (h2.trans h)
        simp only [if_false, Tab.find, h2, if_true, h3]
      · simp only [h1, if_false, Tab.find, h2]; exact ih

section Canonical
variable [DecidableEq α]

theorem wf_iff (d : α) (t : Tab α) : Tab.wf d t = true ↔ Tab.sorted t = true ∧ ∀ e ∈ t, e.2 ≠ d := by
  simp [Tab.wf]

theorem get_set_same (d : α) (t : Tab α) (k : Nat) (v : α) : Tab.get d (Tab.set d t k v) k = v := by
  unfold Tab.set
  split
  · subst_vars; exact get_del_same _ t k
  · exact get_put_same d t k v

theorem get_set_other (d : α) (t : Tab α) {k j : Nat} (v : α) (h : j ≠ k) : Tab.get d (Tab.set d t k v) j = Tab.get d t j := by
  unfold Tab.set
  split
  · exact get_del_other d t h
  · exact get_put_other d t v h

theorem wf_set (d : α) (t : Tab α) (k : Nat) (v : α) (h : Tab.wf d t = true) : Tab.wf d (Tab.set d t k v) = true := by
  obtain ⟨h1, h2⟩ := (wf_iff d t).mp h
  unfold Tab.set
  split
  · exact (wf_iff d _).mpr ⟨sorted_del t k h1, fun e he => h2 e (mem_del he)⟩
  · rename_i hv
    refine (wf_iff d _).mpr ⟨sorted_put t k v h1, fun e he => ?_⟩
    rcases mem_put he with rfl | he
    · exact hv
    · exact h2 e he

theorem wf_filter (d : α) (t : Tab α) (f : Nat × α → Bool) (h : Tab.wf d t = true) : Tab.wf d (t.filter f) = true := by
  obtain ⟨h1, h2⟩ := (wf_iff d t).mp h
  exact (wf_iff d _).mpr ⟨sorted_filter t f h1, fun e he => h2 e (List.mem_of_mem_filter he)⟩

end Canonical

end Sys2Proof.Laws
end

