-- ==== Sys2Proof/Laws/State.lean ====
section
/-! SUPPORT. One lemma for each field and each named update of the package and of a core: what the update leaves, true by
definition. -/
namespace Sys2Proof.Laws
open Sys2Proof.Machine

/-! ## State.setCore -/

@[simp] theorem setCore_power (s : State) (k : Nat) (c : Core) : (s.setCore k c).power = s.power := rfl
@[simp] theorem setCore_epoch (s : State) (k : Nat) (c : Core) : (s.setCore k c).epoch = s.epoch := rfl
@[simp] theorem setCore_wtime (s : State) (k : Nat) (c : Core) : (s.setCore k c).wtime = s.wtime := rfl
@[simp] theorem setCore_servo (s : State) (k : Nat) (c : Core) : (s.setCore k c).servo = s.servo := rfl
@[simp] theorem setCore_parts (s : State) (k : Nat) (c : Core) : (s.setCore k c).parts = s.parts := rfl
@[simp] theorem setCore_cores (s : State) (k : Nat) (c : Core) : (s.setCore k c).cores = Tab.put s.cores k c := rfl
@[simp] theorem setCore_units (s : State) (k : Nat) (c : Core) : (s.setCore k c).units = s.units := rfl
@[simp] theorem setCore_mem (s : State) (k : Nat) (c : Core) : (s.setCore k c).mem = s.mem := rfl
@[simp] theorem setCore_dies (s : State) (k : Nat) (c : Core) : (s.setCore k c).dies = s.dies := rfl
@[simp] theorem setCore_vrecs (s : State) (k : Nat) (c : Core) : (s.setCore k c).vrecs = s.vrecs := rfl
@[simp] theorem setCore_stamps (s : State) (k : Nat) (c : Core) : (s.setCore k c).stamps = s.stamps := rfl
@[simp] theorem setCore_covers (s : State) (k : Nat) (c : Core) : (s.setCore k c).covers = s.covers := rfl
@[simp] theorem setCore_owns (s : State) (k : Nat) (c : Core) : (s.setCore k c).owns = s.owns := rfl
@[simp] theorem setCore_ecc (s : State) (k : Nat) (c : Core) : (s.setCore k c).ecc = s.ecc := rfl
@[simp] theorem setCore_circuits (s : State) (k : Nat) (c : Core) : (s.setCore k c).circuits = s.circuits := rfl
@[simp] theorem setCore_lerr (s : State) (k : Nat) (c : Core) : (s.setCore k c).lerr = s.lerr := rfl
@[simp] theorem setCore_ports (s : State) (k : Nat) (c : Core) : (s.setCore k c).ports = s.ports := rfl
@[simp] theorem setCore_fabidx (s : State) (k : Nat) (c : Core) : (s.setCore k c).fabidx = s.fabidx := rfl
@[simp] theorem setCore_lanes (s : State) (k : Nat) (c : Core) : (s.setCore k c).lanes = s.lanes := rfl
@[simp] theorem setCore_seqs (s : State) (k : Nat) (c : Core) : (s.setCore k c).seqs = s.seqs := rfl
@[simp] theorem setCore_waveFails (s : State) (k : Nat) (c : Core) : (s.setCore k c).waveFails = s.waveFails := rfl
@[simp] theorem setCore_wire (s : State) (k : Nat) (c : Core) : (s.setCore k c).wire = s.wire := rfl
@[simp] theorem setCore_outq (s : State) (k : Nat) (c : Core) : (s.setCore k c).outq = s.outq := rfl
@[simp] theorem setCore_rounds (s : State) (k : Nat) (c : Core) : (s.setCore k c).rounds = s.rounds := rfl
@[simp] theorem setCore_sent (s : State) (k : Nat) (c : Core) : (s.setCore k c).sent = s.sent := rfl
@[simp] theorem setCore_waiting (s : State) (k : Nat) (c : Core) : (s.setCore k c).waiting = s.waiting := rfl
@[simp] theorem setCore_spdm (s : State) (k : Nat) (c : Core) : (s.setCore k c).spdm = s.spdm := rfl
@[simp] theorem setCore_unlocks (s : State) (k : Nat) (c : Core) : (s.setCore k c).unlocks = s.unlocks := rfl
@[simp] theorem setCore_bootStep (s : State) (k : Nat) (c : Core) : (s.setCore k c).bootStep = s.bootStep := rfl
@[simp] theorem setCore_recovery (s : State) (k : Nat) (c : Core) : (s.setCore k c).recovery = s.recovery := rfl
@[simp] theorem setCore_stepNow (s : State) (k : Nat) (c : Core) : (s.setCore k c).stepNow = s.stepNow := rfl
@[simp] theorem setCore_started (s : State) (k : Nat) (c : Core) : (s.setCore k c).started = s.started := rfl
@[simp] theorem setCore_everPart (s : State) (k : Nat) (c : Core) : (s.setCore k c).everPart = s.everPart := rfl
@[simp] theorem setCore_journal (s : State) (k : Nat) (c : Core) : (s.setCore k c).journal = s.journal := rfl
@[simp] theorem setCore_kept (s : State) (k : Nat) (c : Core) : (s.setCore k c).kept = s.kept := rfl
@[simp] theorem setCore_draws (s : State) (k : Nat) (c : Core) : (s.setCore k c).draws = s.draws := rfl
@[simp] theorem setCore_hostEvents (s : State) (k : Nat) (c : Core) : (s.setCore k c).hostEvents = s.hostEvents := rfl
@[simp] theorem setCore_agenda (s : State) (k : Nat) (c : Core) : (s.setCore k c).agenda = s.agenda := rfl
@[simp] theorem setCore_events (s : State) (k : Nat) (c : Core) : (s.setCore k c).events = s.events := rfl
@[simp] theorem setCore_phase (s : State) (k : Nat) (c : Core) : (s.setCore k c).phase = s.phase := rfl
@[simp] theorem setCore_inputs (s : State) (k : Nat) (c : Core) : (s.setCore k c).inputs = s.inputs := rfl
@[simp] theorem setCore_checks (s : State) (k : Nat) (c : Core) : (s.setCore k c).checks = s.checks := rfl
@[simp] theorem setCore_hits (s : State) (k : Nat) (c : Core) : (s.setCore k c).hits = s.hits := rfl
@[simp] theorem setCore_seen (s : State) (k : Nat) (c : Core) : (s.setCore k c).seen = s.seen := rfl
@[simp] theorem setCore_touches (s : State) (k : Nat) (c : Core) : (s.setCore k c).touches = s.touches := rfl
@[simp] theorem setCore_cur (s : State) (k : Nat) (c : Core) : (s.setCore k c).cur = s.cur := rfl
@[simp] theorem setCore_ops (s : State) (k : Nat) (c : Core) : (s.setCore k c).ops = s.ops := rfl
@[simp] theorem setCore_ill (s : State) (k : Nat) (c : Core) : (s.setCore k c).ill = s.ill := rfl

/-! ## State.setHere -/

@[simp] theorem setHere_power (s : State) (c : Core) : (s.setHere c).power = s.power := rfl
@[simp] theorem setHere_epoch (s : State) (c : Core) : (s.setHere c).epoch = s.epoch := rfl
@[simp] theorem setHere_wtime (s : State) (c : Core) : (s.setHere c).wtime = s.wtime := rfl
@[simp] theorem setHere_servo (s : State) (c : Core) : (s.setHere c).servo = s.servo := rfl
@[simp] theorem setHere_parts (s : State) (c : Core) : (s.setHere c).parts = s.parts := rfl
@[simp] theorem setHere_cores (s : State) (c : Core) : (s.setHere c).cores = Tab.put s.cores s.cur.core c := rfl
@[simp] theorem setHere_units (s : State) (c : Core) : (s.setHere c).units = s.units := rfl
@[simp] theorem setHere_mem (s : State) (c : Core) : (s.setHere c).mem = s.mem := rfl
@[simp] theorem setHere_dies (s : State) (c : Core) : (s.setHere c).dies = s.dies := rfl
@[simp] theorem setHere_vrecs (s : State) (c : Core) : (s.setHere c).vrecs = s.vrecs := rfl
@[simp] theorem setHere_stamps (s : State) (c : Core) : (s.setHere c).stamps = s.stamps := rfl
@[simp] theorem setHere_covers (s : State) (c : Core) : (s.setHere c).covers = s.covers := rfl
@[simp] theorem setHere_owns (s : State) (c : Core) : (s.setHere c).owns = s.owns := rfl
@[simp] theorem setHere_ecc (s : State) (c : Core) : (s.setHere c).ecc = s.ecc := rfl
@[simp] theorem setHere_circuits (s : State) (c : Core) : (s.setHere c).circuits = s.circuits := rfl
@[simp] theorem setHere_lerr (s : State) (c : Core) : (s.setHere c).lerr = s.lerr := rfl
@[simp] theorem setHere_ports (s : State) (c : Core) : (s.setHere c).ports = s.ports := rfl
@[simp] theorem setHere_fabidx (s : State) (c : Core) : (s.setHere c).fabidx = s.fabidx := rfl
@[simp] theorem setHere_lanes (s : State) (c : Core) : (s.setHere c).lanes = s.lanes := rfl
@[simp] theorem setHere_seqs (s : State) (c : Core) : (s.setHere c).seqs = s.seqs := rfl
@[simp] theorem setHere_waveFails (s : State) (c : Core) : (s.setHere c).waveFails = s.waveFails := rfl
@[simp] theorem setHere_wire (s : State) (c : Core) : (s.setHere c).wire = s.wire := rfl
@[simp] theorem setHere_outq (s : State) (c : Core) : (s.setHere c).outq = s.outq := rfl
@[simp] theorem setHere_rounds (s : State) (c : Core) : (s.setHere c).rounds = s.rounds := rfl
@[simp] theorem setHere_sent (s : State) (c : Core) : (s.setHere c).sent = s.sent := rfl
@[simp] theorem setHere_waiting (s : State) (c : Core) : (s.setHere c).waiting = s.waiting := rfl
@[simp] theorem setHere_spdm (s : State) (c : Core) : (s.setHere c).spdm = s.spdm := rfl
@[simp] theorem setHere_unlocks (s : State) (c : Core) : (s.setHere c).unlocks = s.unlocks := rfl
@[simp] theorem setHere_bootStep (s : State) (c : Core) : (s.setHere c).bootStep = s.bootStep := rfl
@[simp] theorem setHere_recovery (s : State) (c : Core) : (s.setHere c).recovery = s.recovery := rfl
@[simp] theorem setHere_stepNow (s : State) (c : Core) : (s.setHere c).stepNow = s.stepNow := rfl
@[simp] theorem setHere_started (s : State) (c : Core) : (s.setHere c).started = s.started := rfl
@[simp] theorem setHere_everPart (s : State) (c : Core) : (s.setHere c).everPart = s.everPart := rfl
@[simp] theorem setHere_journal (s : State) (c : Core) : (s.setHere c).journal = s.journal := rfl
@[simp] theorem setHere_kept (s : State) (c : Core) : (s.setHere c).kept = s.kept := rfl
@[simp] theorem setHere_draws (s : State) (c : Core) : (s.setHere c).draws = s.draws := rfl
@[simp] theorem setHere_hostEvents (s : State) (c : Core) : (s.setHere c).hostEvents = s.hostEvents := rfl
@[simp] theorem setHere_agenda (s : State) (c : Core) : (s.setHere c).agenda = s.agenda := rfl
@[simp] theorem setHere_events (s : State) (c : Core) : (s.setHere c).events = s.events := rfl
@[simp] theorem setHere_phase (s : State) (c : Core) : (s.setHere c).phase = s.phase := rfl
@[simp] theorem setHere_inputs (s : State) (c : Core) : (s.setHere c).inputs = s.inputs := rfl
@[simp] theorem setHere_checks (s : State) (c : Core) : (s.setHere c).checks = s.checks := rfl
@[simp] theorem setHere_hits (s : State) (c : Core) : (s.setHere c).hits = s.hits := rfl
@[simp] theorem setHere_seen (s : State) (c : Core) : (s.setHere c).seen = s.seen := rfl
@[simp] theorem setHere_touches (s : State) (c : Core) : (s.setHere c).touches = s.touches := rfl
@[simp] theorem setHere_cur (s : State) (c : Core) : (s.setHere c).cur = s.cur := rfl
@[simp] theorem setHere_ops (s : State) (c : Core) : (s.setHere c).ops = s.ops := rfl
@[simp] theorem setHere_ill (s : State) (c : Core) : (s.setHere c).ill = s.ill := rfl

/-! ## State.setByte -/

@[simp] theorem setByte_power (s : State) (a : Nat) (v : Byte) : (s.setByte a v).power = s.power := rfl
@[simp] theorem setByte_epoch (s : State) (a : Nat) (v : Byte) : (s.setByte a v).epoch = s.epoch := rfl
@[simp] theorem setByte_wtime (s : State) (a : Nat) (v : Byte) : (s.setByte a v).wtime = s.wtime := rfl
@[simp] theorem setByte_servo (s : State) (a : Nat) (v : Byte) : (s.setByte a v).servo = s.servo := rfl
@[simp] theorem setByte_parts (s : State) (a : Nat) (v : Byte) : (s.setByte a v).parts = s.parts := rfl
@[simp] theorem setByte_cores (s : State) (a : Nat) (v : Byte) : (s.setByte a v).cores = s.cores := rfl
@[simp] theorem setByte_units (s : State) (a : Nat) (v : Byte) : (s.setByte a v).units = s.units := rfl
@[simp] theorem setByte_mem (s : State) (a : Nat) (v : Byte) : (s.setByte a v).mem = Tab.set (0 : Byte) s.mem a v := rfl
@[simp] theorem setByte_dies (s : State) (a : Nat) (v : Byte) : (s.setByte a v).dies = s.dies := rfl
@[simp] theorem setByte_vrecs (s : State) (a : Nat) (v : Byte) : (s.setByte a v).vrecs = s.vrecs := rfl
@[simp] theorem setByte_stamps (s : State) (a : Nat) (v : Byte) : (s.setByte a v).stamps = s.stamps := rfl
@[simp] theorem setByte_covers (s : State) (a : Nat) (v : Byte) : (s.setByte a v).covers = s.covers := rfl
@[simp] theorem setByte_owns (s : State) (a : Nat) (v : Byte) : (s.setByte a v).owns = s.owns := rfl
@[simp] theorem setByte_ecc (s : State) (a : Nat) (v : Byte) : (s.setByte a v).ecc = s.ecc := rfl
@[simp] theorem setByte_circuits (s : State) (a : Nat) (v : Byte) : (s.setByte a v).circuits = s.circuits := rfl
@[simp] theorem setByte_lerr (s : State) (a : Nat) (v : Byte) : (s.setByte a v).lerr = s.lerr := rfl
@[simp] theorem setByte_ports (s : State) (a : Nat) (v : Byte) : (s.setByte a v).ports = s.ports := rfl
@[simp] theorem setByte_fabidx (s : State) (a : Nat) (v : Byte) : (s.setByte a v).fabidx = s.fabidx := rfl
@[simp] theorem setByte_lanes (s : State) (a : Nat) (v : Byte) : (s.setByte a v).lanes = s.lanes := rfl
@[simp] theorem setByte_seqs (s : State) (a : Nat) (v : Byte) : (s.setByte a v).seqs = s.seqs := rfl
@[simp] theorem setByte_waveFails (s : State) (a : Nat) (v : Byte) : (s.setByte a v).waveFails = s.waveFails := rfl
@[simp] theorem setByte_wire (s : State) (a : Nat) (v : Byte) : (s.setByte a v).wire = s.wire := rfl
@[simp] theorem setByte_outq (s : State) (a : Nat) (v : Byte) : (s.setByte a v).outq = s.outq := rfl
@[simp] theorem setByte_rounds (s : State) (a : Nat) (v : Byte) : (s.setByte a v).rounds = s.rounds := rfl
@[simp] theorem setByte_sent (s : State) (a : Nat) (v : Byte) : (s.setByte a v).sent = s.sent := rfl
@[simp] theorem setByte_waiting (s : State) (a : Nat) (v : Byte) : (s.setByte a v).waiting = s.waiting := rfl
@[simp] theorem setByte_spdm (s : State) (a : Nat) (v : Byte) : (s.setByte a v).spdm = s.spdm := rfl
@[simp] theorem setByte_unlocks (s : State) (a : Nat) (v : Byte) : (s.setByte a v).unlocks = s.unlocks := rfl
@[simp] theorem setByte_bootStep (s : State) (a : Nat) (v : Byte) : (s.setByte a v).bootStep = s.bootStep := rfl
@[simp] theorem setByte_recovery (s : State) (a : Nat) (v : Byte) : (s.setByte a v).recovery = s.recovery := rfl
@[simp] theorem setByte_stepNow (s : State) (a : Nat) (v : Byte) : (s.setByte a v).stepNow = s.stepNow := rfl
@[simp] theorem setByte_started (s : State) (a : Nat) (v : Byte) : (s.setByte a v).started = s.started := rfl
@[simp] theorem setByte_everPart (s : State) (a : Nat) (v : Byte) : (s.setByte a v).everPart = s.everPart := rfl
@[simp] theorem setByte_journal (s : State) (a : Nat) (v : Byte) : (s.setByte a v).journal = s.journal := rfl
@[simp] theorem setByte_kept (s : State) (a : Nat) (v : Byte) : (s.setByte a v).kept = s.kept := rfl
@[simp] theorem setByte_draws (s : State) (a : Nat) (v : Byte) : (s.setByte a v).draws = s.draws := rfl
@[simp] theorem setByte_hostEvents (s : State) (a : Nat) (v : Byte) : (s.setByte a v).hostEvents = s.hostEvents := rfl
@[simp] theorem setByte_agenda (s : State) (a : Nat) (v : Byte) : (s.setByte a v).agenda = s.agenda := rfl
@[simp] theorem setByte_events (s : State) (a : Nat) (v : Byte) : (s.setByte a v).events = s.events := rfl
@[simp] theorem setByte_phase (s : State) (a : Nat) (v : Byte) : (s.setByte a v).phase = s.phase := rfl
@[simp] theorem setByte_inputs (s : State) (a : Nat) (v : Byte) : (s.setByte a v).inputs = s.inputs := rfl
@[simp] theorem setByte_checks (s : State) (a : Nat) (v : Byte) : (s.setByte a v).checks = s.checks := rfl
@[simp] theorem setByte_hits (s : State) (a : Nat) (v : Byte) : (s.setByte a v).hits = s.hits := rfl
@[simp] theorem setByte_seen (s : State) (a : Nat) (v : Byte) : (s.setByte a v).seen = s.seen := rfl
@[simp] theorem setByte_touches (s : State) (a : Nat) (v : Byte) : (s.setByte a v).touches = s.touches := rfl
@[simp] theorem setByte_cur (s : State) (a : Nat) (v : Byte) : (s.setByte a v).cur = s.cur := rfl
@[simp] theorem setByte_ops (s : State) (a : Nat) (v : Byte) : (s.setByte a v).ops = s.ops := rfl
@[simp] theorem setByte_ill (s : State) (a : Nat) (v : Byte) : (s.setByte a v).ill = s.ill := rfl

/-! ## State.modUnit -/

@[simp] theorem modUnit_power (s : State) (u : Nat) (f : MUnit → MUnit) : (s.modUnit u f).power = s.power := rfl
@[simp] theorem modUnit_epoch (s : State) (u : Nat) (f : MUnit → MUnit) : (s.modUnit u f).epoch = s.epoch := rfl
@[simp] theorem modUnit_wtime (s : State) (u : Nat) (f : MUnit → MUnit) : (s.modUnit u f).wtime = s.wtime := rfl
@[simp] theorem modUnit_servo (s : State) (u : Nat) (f : MUnit → MUnit) : (s.modUnit u f).servo = s.servo := rfl
@[simp] theorem modUnit_parts (s : State) (u : Nat) (f : MUnit → MUnit) : (s.modUnit u f).parts = s.parts := rfl
@[simp] theorem modUnit_cores (s : State) (u : Nat) (f : MUnit → MUnit) : (s.modUnit u f).cores = s.cores := rfl
@[simp] theorem modUnit_units (s : State) (u : Nat) (f : MUnit → MUnit) : (s.modUnit u f).units = Tab.put s.units u (f (s.unit u)) := rfl
@[simp] theorem modUnit_mem (s : State) (u : Nat) (f : MUnit → MUnit) : (s.modUnit u f).mem = s.mem := rfl
@[simp] theorem modUnit_dies (s : State) (u : Nat) (f : MUnit → MUnit) : (s.modUnit u f).dies = s.dies := rfl
@[simp] theorem modUnit_vrecs (s : State) (u : Nat) (f : MUnit → MUnit) : (s.modUnit u f).vrecs = s.vrecs := rfl
@[simp] theorem modUnit_stamps (s : State) (u : Nat) (f : MUnit → MUnit) : (s.modUnit u f).stamps = s.stamps := rfl
@[simp] theorem modUnit_covers (s : State) (u : Nat) (f : MUnit → MUnit) : (s.modUnit u f).covers = s.covers := rfl
@[simp] theorem modUnit_owns (s : State) (u : Nat) (f : MUnit → MUnit) : (s.modUnit u f).owns = s.owns := rfl
@[simp] theorem modUnit_ecc (s : State) (u : Nat) (f : MUnit → MUnit) : (s.modUnit u f).ecc = s.ecc := rfl
@[simp] theorem modUnit_circuits (s : State) (u : Nat) (f : MUnit → MUnit) : (s.modUnit u f).circuits = s.circuits := rfl
@[simp] theorem modUnit_lerr (s : State) (u : Nat) (f : MUnit → MUnit) : (s.modUnit u f).lerr = s.lerr := rfl
@[simp] theorem modUnit_ports (s : State) (u : Nat) (f : MUnit → MUnit) : (s.modUnit u f).ports = s.ports := rfl
@[simp] theorem modUnit_fabidx (s : State) (u : Nat) (f : MUnit → MUnit) : (s.modUnit u f).fabidx = s.fabidx := rfl
@[simp] theorem modUnit_lanes (s : State) (u : Nat) (f : MUnit → MUnit) : (s.modUnit u f).lanes = s.lanes := rfl
@[simp] theorem modUnit_seqs (s : State) (u : Nat) (f : MUnit → MUnit) : (s.modUnit u f).seqs = s.seqs := rfl
@[simp] theorem modUnit_waveFails (s : State) (u : Nat) (f : MUnit → MUnit) : (s.modUnit u f).waveFails = s.waveFails := rfl
@[simp] theorem modUnit_wire (s : State) (u : Nat) (f : MUnit → MUnit) : (s.modUnit u f).wire = s.wire := rfl
@[simp] theorem modUnit_outq (s : State) (u : Nat) (f : MUnit → MUnit) : (s.modUnit u f).outq = s.outq := rfl
@[simp] theorem modUnit_rounds (s : State) (u : Nat) (f : MUnit → MUnit) : (s.modUnit u f).rounds = s.rounds := rfl
@[simp] theorem modUnit_sent (s : State) (u : Nat) (f : MUnit → MUnit) : (s.modUnit u f).sent = s.sent := rfl
@[simp] theorem modUnit_waiting (s : State) (u : Nat) (f : MUnit → MUnit) : (s.modUnit u f).waiting = s.waiting := rfl
@[simp] theorem modUnit_spdm (s : State) (u : Nat) (f : MUnit → MUnit) : (s.modUnit u f).spdm = s.spdm := rfl
@[simp] theorem modUnit_unlocks (s : State) (u : Nat) (f : MUnit → MUnit) : (s.modUnit u f).unlocks = s.unlocks := rfl
@[simp] theorem modUnit_bootStep (s : State) (u : Nat) (f : MUnit → MUnit) : (s.modUnit u f).bootStep = s.bootStep := rfl
@[simp] theorem modUnit_recovery (s : State) (u : Nat) (f : MUnit → MUnit) : (s.modUnit u f).recovery = s.recovery := rfl
@[simp] theorem modUnit_stepNow (s : State) (u : Nat) (f : MUnit → MUnit) : (s.modUnit u f).stepNow = s.stepNow := rfl
@[simp] theorem modUnit_started (s : State) (u : Nat) (f : MUnit → MUnit) : (s.modUnit u f).started = s.started := rfl
@[simp] theorem modUnit_everPart (s : State) (u : Nat) (f : MUnit → MUnit) : (s.modUnit u f).everPart = s.everPart := rfl
@[simp] theorem modUnit_journal (s : State) (u : Nat) (f : MUnit → MUnit) : (s.modUnit u f).journal = s.journal := rfl
@[simp] theorem modUnit_kept (s : State) (u : Nat) (f : MUnit → MUnit) : (s.modUnit u f).kept = s.kept := rfl
@[simp] theorem modUnit_draws (s : State) (u : Nat) (f : MUnit → MUnit) : (s.modUnit u f).draws = s.draws := rfl
@[simp] theorem modUnit_hostEvents (s : State) (u : Nat) (f : MUnit → MUnit) : (s.modUnit u f).hostEvents = s.hostEvents := rfl
@[simp] theorem modUnit_agenda (s : State) (u : Nat) (f : MUnit → MUnit) : (s.modUnit u f).agenda = s.agenda := rfl
@[simp] theorem modUnit_events (s : State) (u : Nat) (f : MUnit → MUnit) : (s.modUnit u f).events = s.events := rfl
@[simp] theorem modUnit_phase (s : State) (u : Nat) (f : MUnit → MUnit) : (s.modUnit u f).phase = s.phase := rfl
@[simp] theorem modUnit_inputs (s : State) (u : Nat) (f : MUnit → MUnit) : (s.modUnit u f).inputs = s.inputs := rfl
@[simp] theorem modUnit_checks (s : State) (u : Nat) (f : MUnit → MUnit) : (s.modUnit u f).checks = s.checks := rfl
@[simp] theorem modUnit_hits (s : State) (u : Nat) (f : MUnit → MUnit) : (s.modUnit u f).hits = s.hits := rfl
@[simp] theorem modUnit_seen (s : State) (u : Nat) (f : MUnit → MUnit) : (s.modUnit u f).seen = s.seen := rfl
@[simp] theorem modUnit_touches (s : State) (u : Nat) (f : MUnit → MUnit) : (s.modUnit u f).touches = s.touches := rfl
@[simp] theorem modUnit_cur (s : State) (u : Nat) (f : MUnit → MUnit) : (s.modUnit u f).cur = s.cur := rfl
@[simp] theorem modUnit_ops (s : State) (u : Nat) (f : MUnit → MUnit) : (s.modUnit u f).ops = s.ops := rfl
@[simp] theorem modUnit_ill (s : State) (u : Nat) (f : MUnit → MUnit) : (s.modUnit u f).ill = s.ill := rfl

/-! ## State.modDie -/

@[simp] theorem modDie_power (s : State) (d : Nat) (f : Die → Die) : (s.modDie d f).power = s.power := rfl
@[simp] theorem modDie_epoch (s : State) (d : Nat) (f : Die → Die) : (s.modDie d f).epoch = s.epoch := rfl
@[simp] theorem modDie_wtime (s : State) (d : Nat) (f : Die → Die) : (s.modDie d f).wtime = s.wtime := rfl
@[simp] theorem modDie_servo (s : State) (d : Nat) (f : Die → Die) : (s.modDie d f).servo = s.servo := rfl
@[simp] theorem modDie_parts (s : State) (d : Nat) (f : Die → Die) : (s.modDie d f).parts = s.parts := rfl
@[simp] theorem modDie_cores (s : State) (d : Nat) (f : Die → Die) : (s.modDie d f).cores = s.cores := rfl
@[simp] theorem modDie_units (s : State) (d : Nat) (f : Die → Die) : (s.modDie d f).units = s.units := rfl
@[simp] theorem modDie_mem (s : State) (d : Nat) (f : Die → Die) : (s.modDie d f).mem = s.mem := rfl
@[simp] theorem modDie_dies (s : State) (d : Nat) (f : Die → Die) : (s.modDie d f).dies = Tab.put s.dies d (f (s.die d)) := rfl
@[simp] theorem modDie_vrecs (s : State) (d : Nat) (f : Die → Die) : (s.modDie d f).vrecs = s.vrecs := rfl
@[simp] theorem modDie_stamps (s : State) (d : Nat) (f : Die → Die) : (s.modDie d f).stamps = s.stamps := rfl
@[simp] theorem modDie_covers (s : State) (d : Nat) (f : Die → Die) : (s.modDie d f).covers = s.covers := rfl
@[simp] theorem modDie_owns (s : State) (d : Nat) (f : Die → Die) : (s.modDie d f).owns = s.owns := rfl
@[simp] theorem modDie_ecc (s : State) (d : Nat) (f : Die → Die) : (s.modDie d f).ecc = s.ecc := rfl
@[simp] theorem modDie_circuits (s : State) (d : Nat) (f : Die → Die) : (s.modDie d f).circuits = s.circuits := rfl
@[simp] theorem modDie_lerr (s : State) (d : Nat) (f : Die → Die) : (s.modDie d f).lerr = s.lerr := rfl
@[simp] theorem modDie_ports (s : State) (d : Nat) (f : Die → Die) : (s.modDie d f).ports = s.ports := rfl
@[simp] theorem modDie_fabidx (s : State) (d : Nat) (f : Die → Die) : (s.modDie d f).fabidx = s.fabidx := rfl
@[simp] theorem modDie_lanes (s : State) (d : Nat) (f : Die → Die) : (s.modDie d f).lanes = s.lanes := rfl
@[simp] theorem modDie_seqs (s : State) (d : Nat) (f : Die → Die) : (s.modDie d f).seqs = s.seqs := rfl
@[simp] theorem modDie_waveFails (s : State) (d : Nat) (f : Die → Die) : (s.modDie d f).waveFails = s.waveFails := rfl
@[simp] theorem modDie_wire (s : State) (d : Nat) (f : Die → Die) : (s.modDie d f).wire = s.wire := rfl
@[simp] theorem modDie_outq (s : State) (d : Nat) (f : Die → Die) : (s.modDie d f).outq = s.outq := rfl
@[simp] theorem modDie_rounds (s : State) (d : Nat) (f : Die → Die) : (s.modDie d f).rounds = s.rounds := rfl
@[simp] theorem modDie_sent (s : State) (d : Nat) (f : Die → Die) : (s.modDie d f).sent = s.sent := rfl
@[simp] theorem modDie_waiting (s : State) (d : Nat) (f : Die → Die) : (s.modDie d f).waiting = s.waiting := rfl
@[simp] theorem modDie_spdm (s : State) (d : Nat) (f : Die → Die) : (s.modDie d f).spdm = s.spdm := rfl
@[simp] theorem modDie_unlocks (s : State) (d : Nat) (f : Die → Die) : (s.modDie d f).unlocks = s.unlocks := rfl
@[simp] theorem modDie_bootStep (s : State) (d : Nat) (f : Die → Die) : (s.modDie d f).bootStep = s.bootStep := rfl
@[simp] theorem modDie_recovery (s : State) (d : Nat) (f : Die → Die) : (s.modDie d f).recovery = s.recovery := rfl
@[simp] theorem modDie_stepNow (s : State) (d : Nat) (f : Die → Die) : (s.modDie d f).stepNow = s.stepNow := rfl
@[simp] theorem modDie_started (s : State) (d : Nat) (f : Die → Die) : (s.modDie d f).started = s.started := rfl
@[simp] theorem modDie_everPart (s : State) (d : Nat) (f : Die → Die) : (s.modDie d f).everPart = s.everPart := rfl
@[simp] theorem modDie_journal (s : State) (d : Nat) (f : Die → Die) : (s.modDie d f).journal = s.journal := rfl
@[simp] theorem modDie_kept (s : State) (d : Nat) (f : Die → Die) : (s.modDie d f).kept = s.kept := rfl
@[simp] theorem modDie_draws (s : State) (d : Nat) (f : Die → Die) : (s.modDie d f).draws = s.draws := rfl
@[simp] theorem modDie_hostEvents (s : State) (d : Nat) (f : Die → Die) : (s.modDie d f).hostEvents = s.hostEvents := rfl
@[simp] theorem modDie_agenda (s : State) (d : Nat) (f : Die → Die) : (s.modDie d f).agenda = s.agenda := rfl
@[simp] theorem modDie_events (s : State) (d : Nat) (f : Die → Die) : (s.modDie d f).events = s.events := rfl
@[simp] theorem modDie_phase (s : State) (d : Nat) (f : Die → Die) : (s.modDie d f).phase = s.phase := rfl
@[simp] theorem modDie_inputs (s : State) (d : Nat) (f : Die → Die) : (s.modDie d f).inputs = s.inputs := rfl
@[simp] theorem modDie_checks (s : State) (d : Nat) (f : Die → Die) : (s.modDie d f).checks = s.checks := rfl
@[simp] theorem modDie_hits (s : State) (d : Nat) (f : Die → Die) : (s.modDie d f).hits = s.hits := rfl
@[simp] theorem modDie_seen (s : State) (d : Nat) (f : Die → Die) : (s.modDie d f).seen = s.seen := rfl
@[simp] theorem modDie_touches (s : State) (d : Nat) (f : Die → Die) : (s.modDie d f).touches = s.touches := rfl
@[simp] theorem modDie_cur (s : State) (d : Nat) (f : Die → Die) : (s.modDie d f).cur = s.cur := rfl
@[simp] theorem modDie_ops (s : State) (d : Nat) (f : Die → Die) : (s.modDie d f).ops = s.ops := rfl
@[simp] theorem modDie_ill (s : State) (d : Nat) (f : Die → Die) : (s.modDie d f).ill = s.ill := rfl

/-! ## State.modPart -/

@[simp] theorem modPart_power (s : State) (p : Nat) (f : Part → Part) : (s.modPart p f).power = s.power := rfl
@[simp] theorem modPart_epoch (s : State) (p : Nat) (f : Part → Part) : (s.modPart p f).epoch = s.epoch := rfl
@[simp] theorem modPart_wtime (s : State) (p : Nat) (f : Part → Part) : (s.modPart p f).wtime = s.wtime := rfl
@[simp] theorem modPart_servo (s : State) (p : Nat) (f : Part → Part) : (s.modPart p f).servo = s.servo := rfl
@[simp] theorem modPart_parts (s : State) (p : Nat) (f : Part → Part) : (s.modPart p f).parts = Tab.upd s.parts p f := rfl
@[simp] theorem modPart_cores (s : State) (p : Nat) (f : Part → Part) : (s.modPart p f).cores = s.cores := rfl
@[simp] theorem modPart_units (s : State) (p : Nat) (f : Part → Part) : (s.modPart p f).units = s.units := rfl
@[simp] theorem modPart_mem (s : State) (p : Nat) (f : Part → Part) : (s.modPart p f).mem = s.mem := rfl
@[simp] theorem modPart_dies (s : State) (p : Nat) (f : Part → Part) : (s.modPart p f).dies = s.dies := rfl
@[simp] theorem modPart_vrecs (s : State) (p : Nat) (f : Part → Part) : (s.modPart p f).vrecs = s.vrecs := rfl
@[simp] theorem modPart_stamps (s : State) (p : Nat) (f : Part → Part) : (s.modPart p f).stamps = s.stamps := rfl
@[simp] theorem modPart_covers (s : State) (p : Nat) (f : Part → Part) : (s.modPart p f).covers = s.covers := rfl
@[simp] theorem modPart_owns (s : State) (p : Nat) (f : Part → Part) : (s.modPart p f).owns = s.owns := rfl
@[simp] theorem modPart_ecc (s : State) (p : Nat) (f : Part → Part) : (s.modPart p f).ecc = s.ecc := rfl
@[simp] theorem modPart_circuits (s : State) (p : Nat) (f : Part → Part) : (s.modPart p f).circuits = s.circuits := rfl
@[simp] theorem modPart_lerr (s : State) (p : Nat) (f : Part → Part) : (s.modPart p f).lerr = s.lerr := rfl
@[simp] theorem modPart_ports (s : State) (p : Nat) (f : Part → Part) : (s.modPart p f).ports = s.ports := rfl
@[simp] theorem modPart_fabidx (s : State) (p : Nat) (f : Part → Part) : (s.modPart p f).fabidx = s.fabidx := rfl
@[simp] theorem modPart_lanes (s : State) (p : Nat) (f : Part → Part) : (s.modPart p f).lanes = s.lanes := rfl
@[simp] theorem modPart_seqs (s : State) (p : Nat) (f : Part → Part) : (s.modPart p f).seqs = s.seqs := rfl
@[simp] theorem modPart_waveFails (s : State) (p : Nat) (f : Part → Part) : (s.modPart p f).waveFails = s.waveFails := rfl
@[simp] theorem modPart_wire (s : State) (p : Nat) (f : Part → Part) : (s.modPart p f).wire = s.wire := rfl
@[simp] theorem modPart_outq (s : State) (p : Nat) (f : Part → Part) : (s.modPart p f).outq = s.outq := rfl
@[simp] theorem modPart_rounds (s : State) (p : Nat) (f : Part → Part) : (s.modPart p f).rounds = s.rounds := rfl
@[simp] theorem modPart_sent (s : State) (p : Nat) (f : Part → Part) : (s.modPart p f).sent = s.sent := rfl
@[simp] theorem modPart_waiting (s : State) (p : Nat) (f : Part → Part) : (s.modPart p f).waiting = s.waiting := rfl
@[simp] theorem modPart_spdm (s : State) (p : Nat) (f : Part → Part) : (s.modPart p f).spdm = s.spdm := rfl
@[simp] theorem modPart_unlocks (s : State) (p : Nat) (f : Part → Part) : (s.modPart p f).unlocks = s.unlocks := rfl
@[simp] theorem modPart_bootStep (s : State) (p : Nat) (f : Part → Part) : (s.modPart p f).bootStep = s.bootStep := rfl
@[simp] theorem modPart_recovery (s : State) (p : Nat) (f : Part → Part) : (s.modPart p f).recovery = s.recovery := rfl
@[simp] theorem modPart_stepNow (s : State) (p : Nat) (f : Part → Part) : (s.modPart p f).stepNow = s.stepNow := rfl
@[simp] theorem modPart_started (s : State) (p : Nat) (f : Part → Part) : (s.modPart p f).started = s.started := rfl
@[simp] theorem modPart_everPart (s : State) (p : Nat) (f : Part → Part) : (s.modPart p f).everPart = s.everPart := rfl
@[simp] theorem modPart_journal (s : State) (p : Nat) (f : Part → Part) : (s.modPart p f).journal = s.journal := rfl
@[simp] theorem modPart_kept (s : State) (p : Nat) (f : Part → Part) : (s.modPart p f).kept = s.kept := rfl
@[simp] theorem modPart_draws (s : State) (p : Nat) (f : Part → Part) : (s.modPart p f).draws = s.draws := rfl
@[simp] theorem modPart_hostEvents (s : State) (p : Nat) (f : Part → Part) : (s.modPart p f).hostEvents = s.hostEvents := rfl
@[simp] theorem modPart_agenda (s : State) (p : Nat) (f : Part → Part) : (s.modPart p f).agenda = s.agenda := rfl
@[simp] theorem modPart_events (s : State) (p : Nat) (f : Part → Part) : (s.modPart p f).events = s.events := rfl
@[simp] theorem modPart_phase (s : State) (p : Nat) (f : Part → Part) : (s.modPart p f).phase = s.phase := rfl
@[simp] theorem modPart_inputs (s : State) (p : Nat) (f : Part → Part) : (s.modPart p f).inputs = s.inputs := rfl
@[simp] theorem modPart_checks (s : State) (p : Nat) (f : Part → Part) : (s.modPart p f).checks = s.checks := rfl
@[simp] theorem modPart_hits (s : State) (p : Nat) (f : Part → Part) : (s.modPart p f).hits = s.hits := rfl
@[simp] theorem modPart_seen (s : State) (p : Nat) (f : Part → Part) : (s.modPart p f).seen = s.seen := rfl
@[simp] theorem modPart_touches (s : State) (p : Nat) (f : Part → Part) : (s.modPart p f).touches = s.touches := rfl
@[simp] theorem modPart_cur (s : State) (p : Nat) (f : Part → Part) : (s.modPart p f).cur = s.cur := rfl
@[simp] theorem modPart_ops (s : State) (p : Nat) (f : Part → Part) : (s.modPart p f).ops = s.ops := rfl
@[simp] theorem modPart_ill (s : State) (p : Nat) (f : Part → Part) : (s.modPart p f).ill = s.ill := rfl

/-! ## Core.charge -/

@[simp] theorem core_charge_st (c : Core) (n : Nat) : (c.charge n).st = c.st := rfl
@[simp] theorem core_charge_part (c : Core) (n : Nat) : (c.charge n).part = c.part := rfl
@[simp] theorem core_charge_asid (c : Core) (n : Nat) : (c.charge n).asid = c.asid := rfl
@[simp] theorem core_charge_die (c : Core) (n : Nat) : (c.charge n).die = c.die := rfl
@[simp] theorem core_charge_pcol (c : Core) (n : Nat) : (c.charge n).pcol = c.pcol := rfl
@[simp] theorem core_charge_launch (c : Core) (n : Nat) : (c.charge n).launch = c.launch := rfl
@[simp] theorem core_charge_x (c : Core) (n : Nat) : (c.charge n).x = c.x := rfl
@[simp] theorem core_charge_p (c : Core) (n : Nat) : (c.charge n).p = c.p := rfl
@[simp] theorem core_charge_b (c : Core) (n : Nat) : (c.charge n).b = c.b := rfl
@[simp] theorem core_charge_q (c : Core) (n : Nat) : (c.charge n).q = c.q := rfl
@[simp] theorem core_charge_v (c : Core) (n : Nat) : (c.charge n).v = c.v := rfl
@[simp] theorem core_charge_k (c : Core) (n : Nat) : (c.charge n).k = c.k := rfl
@[simp] theorem core_charge_z (c : Core) (n : Nat) : (c.charge n).z = c.z := rfl
@[simp] theorem core_charge_pc (c : Core) (n : Nat) : (c.charge n).pc = c.pc := rfl
@[simp] theorem core_charge_dly (c : Core) (n : Nat) : (c.charge n).dly = c.dly := rfl
@[simp] theorem core_charge_tgt (c : Core) (n : Nat) : (c.charge n).tgt = c.tgt := rfl
@[simp] theorem core_charge_qn (c : Core) (n : Nat) : (c.charge n).qn = c.qn := rfl
@[simp] theorem core_charge_ct1 (c : Core) (n : Nat) : (c.charge n).ct1 = c.ct1 := rfl
@[simp] theorem core_charge_ct2 (c : Core) (n : Nat) : (c.charge n).ct2 = c.ct2 := rfl
@[simp] theorem core_charge_nbundles (c : Core) (n : Nat) : (c.charge n).nbundles = c.nbundles := rfl
@[simp] theorem core_charge_trap (c : Core) (n : Nat) : (c.charge n).trap = c.trap := rfl
@[simp] theorem core_charge_xnop (c : Core) (n : Nat) : (c.charge n).xnop = c.xnop := rfl
@[simp] theorem core_charge_fpflags (c : Core) (n : Nat) : (c.charge n).fpflags = c.fpflags := rfl
@[simp] theorem core_charge_rngkey (c : Core) (n : Nat) : (c.charge n).rngkey = c.rngkey := rfl
@[simp] theorem core_charge_rngctr (c : Core) (n : Nat) : (c.charge n).rngctr = c.rngctr := rfl
@[simp] theorem core_charge_budget (c : Core) (n : Nat) : (c.charge n).budget = c.budget := rfl
@[simp] theorem core_charge_ecnt (c : Core) (n : Nat) : (c.charge n).ecnt = addEnergy c.ecnt n := rfl
@[simp] theorem core_charge_stat (c : Core) (n : Nat) : (c.charge n).stat = c.stat := rfl
@[simp] theorem core_charge_group (c : Core) (n : Nat) : (c.charge n).group = c.group := rfl
@[simp] theorem core_charge_wait (c : Core) (n : Nat) : (c.charge n).wait = c.wait := rfl
@[simp] theorem core_charge_exit (c : Core) (n : Nat) : (c.charge n).exit = c.exit := rfl
@[simp] theorem core_charge_vaFree (c : Core) (n : Nat) : (c.charge n).vaFree = c.vaFree := rfl
@[simp] theorem core_charge_vbFree (c : Core) (n : Nat) : (c.charge n).vbFree = c.vbFree := rfl
@[simp] theorem core_charge_vops (c : Core) (n : Nat) : (c.charge n).vops = c.vops := rfl
@[simp] theorem core_charge_lands (c : Core) (n : Nat) : (c.charge n).lands = c.lands := rfl
@[simp] theorem core_charge_reqs (c : Core) (n : Nat) : (c.charge n).reqs = c.reqs := rfl
@[simp] theorem core_charge_markGrp (c : Core) (n : Nat) : (c.charge n).markGrp = c.markGrp := rfl
@[simp] theorem core_charge_accHat (c : Core) (n : Nat) : (c.charge n).accHat = c.accHat := rfl
@[simp] theorem core_charge_stHat (c : Core) (n : Nat) : (c.charge n).stHat = c.stHat := rfl
@[simp] theorem core_charge_markHat (c : Core) (n : Nat) : (c.charge n).markHat = c.markHat := rfl
@[simp] theorem core_charge_bound (c : Core) (n : Nat) : (c.charge n).bound = c.bound := rfl
@[simp] theorem core_charge_bankDemand (c : Core) (n : Nat) : (c.charge n).bankDemand = c.bankDemand := rfl
@[simp] theorem core_charge_queueDemand (c : Core) (n : Nat) : (c.charge n).queueDemand = c.queueDemand := rfl
@[simp] theorem core_charge_rowPath (c : Core) (n : Nat) : (c.charge n).rowPath = c.rowPath := rfl
@[simp] theorem core_charge_lastLd (c : Core) (n : Nat) : (c.charge n).lastLd = c.lastLd := rfl
@[simp] theorem core_charge_lastSt (c : Core) (n : Nat) : (c.charge n).lastSt = c.lastSt := rfl
@[simp] theorem core_charge_ca (c : Core) (n : Nat) : (c.charge n).ca = c.ca := rfl
@[simp] theorem core_charge_cb (c : Core) (n : Nat) : (c.charge n).cb = c.cb := rfl
@[simp] theorem core_charge_mail (c : Core) (n : Nat) : (c.charge n).mail = c.mail := rfl
@[simp] theorem core_charge_due (c : Core) (n : Nat) : (c.charge n).due = c.due := rfl
@[simp] theorem core_charge_lease (c : Core) (n : Nat) : (c.charge n).lease = c.lease := rfl
@[simp] theorem core_charge_leaseFrom (c : Core) (n : Nat) : (c.charge n).leaseFrom = c.leaseFrom := rfl
@[simp] theorem core_charge_mrel (c : Core) (n : Nat) : (c.charge n).mrel = c.mrel := rfl
@[simp] theorem core_charge_shadow (c : Core) (n : Nat) : (c.charge n).shadow = c.shadow := rfl
@[simp] theorem core_charge_cmds (c : Core) (n : Nat) : (c.charge n).cmds = c.cmds := rfl
@[simp] theorem core_charge_arrivals (c : Core) (n : Nat) : (c.charge n).arrivals = c.arrivals := rfl
@[simp] theorem core_charge_late (c : Core) (n : Nat) : (c.charge n).late = c.late := rfl
@[simp] theorem core_charge_ftick (c : Core) (n : Nat) : (c.charge n).ftick = c.ftick := rfl
@[simp] theorem core_charge_fecnt (c : Core) (n : Nat) : (c.charge n).fecnt = c.fecnt := rfl
@[simp] theorem core_charge_start (c : Core) (n : Nat) : (c.charge n).start = c.start := rfl
@[simp] theorem core_charge_bindAt (c : Core) (n : Nat) : (c.charge n).bindAt = c.bindAt := rfl
@[simp] theorem core_charge_issued (c : Core) (n : Nat) : (c.charge n).issued = c.issued := rfl
@[simp] theorem core_charge_spoilt (c : Core) (n : Nat) : (c.charge n).spoilt = c.spoilt := rfl
@[simp] theorem core_charge_seq (c : Core) (n : Nat) : (c.charge n).seq = c.seq := rfl
@[simp] theorem core_charge_span (c : Core) (n : Nat) : (c.charge n).span = c.span := rfl
@[simp] theorem core_charge_spanEnd (c : Core) (n : Nat) : (c.charge n).spanEnd = c.spanEnd := rfl
@[simp] theorem core_charge_iss (c : Core) (n : Nat) : (c.charge n).iss = c.iss := rfl

/-! ## Core.next -/

@[simp] theorem core_next_st (c : Core) : (c.next).st = c.st := rfl
@[simp] theorem core_next_part (c : Core) : (c.next).part = c.part := rfl
@[simp] theorem core_next_asid (c : Core) : (c.next).asid = c.asid := rfl
@[simp] theorem core_next_die (c : Core) : (c.next).die = c.die := rfl
@[simp] theorem core_next_pcol (c : Core) : (c.next).pcol = c.pcol := rfl
@[simp] theorem core_next_launch (c : Core) : (c.next).launch = c.launch := rfl
@[simp] theorem core_next_x (c : Core) : (c.next).x = c.x := rfl
@[simp] theorem core_next_p (c : Core) : (c.next).p = c.p := rfl
@[simp] theorem core_next_b (c : Core) : (c.next).b = c.b := rfl
@[simp] theorem core_next_q (c : Core) : (c.next).q = c.q := rfl
@[simp] theorem core_next_v (c : Core) : (c.next).v = c.v := rfl
@[simp] theorem core_next_k (c : Core) : (c.next).k = c.k := rfl
@[simp] theorem core_next_z (c : Core) : (c.next).z = c.z := rfl
@[simp] theorem core_next_pc (c : Core) : (c.next).pc = c.pc := rfl
@[simp] theorem core_next_dly (c : Core) : (c.next).dly = c.dly := rfl
@[simp] theorem core_next_tgt (c : Core) : (c.next).tgt = c.tgt := rfl
@[simp] theorem core_next_qn (c : Core) : (c.next).qn = c.qn := rfl
@[simp] theorem core_next_ct1 (c : Core) : (c.next).ct1 = c.ct1 := rfl
@[simp] theorem core_next_ct2 (c : Core) : (c.next).ct2 = c.ct2 := rfl
@[simp] theorem core_next_nbundles (c : Core) : (c.next).nbundles = c.nbundles := rfl
@[simp] theorem core_next_trap (c : Core) : (c.next).trap = c.trap := rfl
@[simp] theorem core_next_xnop (c : Core) : (c.next).xnop = c.xnop := rfl
@[simp] theorem core_next_fpflags (c : Core) : (c.next).fpflags = c.fpflags := rfl
@[simp] theorem core_next_rngkey (c : Core) : (c.next).rngkey = c.rngkey := rfl
@[simp] theorem core_next_rngctr (c : Core) : (c.next).rngctr = c.rngctr := rfl
@[simp] theorem core_next_budget (c : Core) : (c.next).budget = c.budget := rfl
@[simp] theorem core_next_ecnt (c : Core) : (c.next).ecnt = c.ecnt := rfl
@[simp] theorem core_next_stat (c : Core) : (c.next).stat = c.stat := rfl
@[simp] theorem core_next_group (c : Core) : (c.next).group = c.group := rfl
@[simp] theorem core_next_wait (c : Core) : (c.next).wait = c.wait := rfl
@[simp] theorem core_next_exit (c : Core) : (c.next).exit = c.exit := rfl
@[simp] theorem core_next_vaFree (c : Core) : (c.next).vaFree = c.vaFree := rfl
@[simp] theorem core_next_vbFree (c : Core) : (c.next).vbFree = c.vbFree := rfl
@[simp] theorem core_next_vops (c : Core) : (c.next).vops = c.vops := rfl
@[simp] theorem core_next_lands (c : Core) : (c.next).lands = c.lands := rfl
@[simp] theorem core_next_reqs (c : Core) : (c.next).reqs = c.reqs := rfl
@[simp] theorem core_next_markGrp (c : Core) : (c.next).markGrp = c.markGrp := rfl
@[simp] theorem core_next_accHat (c : Core) : (c.next).accHat = c.accHat := rfl
@[simp] theorem core_next_stHat (c : Core) : (c.next).stHat = c.stHat := rfl
@[simp] theorem core_next_markHat (c : Core) : (c.next).markHat = c.markHat := rfl
@[simp] theorem core_next_bound (c : Core) : (c.next).bound = c.bound := rfl
@[simp] theorem core_next_bankDemand (c : Core) : (c.next).bankDemand = c.bankDemand := rfl
@[simp] theorem core_next_queueDemand (c : Core) : (c.next).queueDemand = c.queueDemand := rfl
@[simp] theorem core_next_rowPath (c : Core) : (c.next).rowPath = c.rowPath := rfl
@[simp] theorem core_next_lastLd (c : Core) : (c.next).lastLd = c.lastLd := rfl
@[simp] theorem core_next_lastSt (c : Core) : (c.next).lastSt = c.lastSt := rfl
@[simp] theorem core_next_ca (c : Core) : (c.next).ca = c.ca := rfl
@[simp] theorem core_next_cb (c : Core) : (c.next).cb = c.cb := rfl
@[simp] theorem core_next_mail (c : Core) : (c.next).mail = c.mail := rfl
@[simp] theorem core_next_due (c : Core) : (c.next).due = c.due := rfl
@[simp] theorem core_next_lease (c : Core) : (c.next).lease = c.lease := rfl
@[simp] theorem core_next_leaseFrom (c : Core) : (c.next).leaseFrom = c.leaseFrom := rfl
@[simp] theorem core_next_mrel (c : Core) : (c.next).mrel = c.mrel := rfl
@[simp] theorem core_next_shadow (c : Core) : (c.next).shadow = c.shadow := rfl
@[simp] theorem core_next_cmds (c : Core) : (c.next).cmds = c.cmds := rfl
@[simp] theorem core_next_arrivals (c : Core) : (c.next).arrivals = c.arrivals := rfl
@[simp] theorem core_next_late (c : Core) : (c.next).late = c.late := rfl
@[simp] theorem core_next_ftick (c : Core) : (c.next).ftick = c.ftick := rfl
@[simp] theorem core_next_fecnt (c : Core) : (c.next).fecnt = c.fecnt := rfl
@[simp] theorem core_next_start (c : Core) : (c.next).start = c.start := rfl
@[simp] theorem core_next_bindAt (c : Core) : (c.next).bindAt = c.bindAt := rfl
@[simp] theorem core_next_issued (c : Core) : (c.next).issued = c.issued := rfl
@[simp] theorem core_next_spoilt (c : Core) : (c.next).spoilt = c.spoilt := rfl
@[simp] theorem core_next_seq (c : Core) : (c.next).seq = c.seq + 1 := rfl
@[simp] theorem core_next_span (c : Core) : (c.next).span = c.span := rfl
@[simp] theorem core_next_spanEnd (c : Core) : (c.next).spanEnd = c.spanEnd := rfl
@[simp] theorem core_next_iss (c : Core) : (c.next).iss = c.iss := rfl

/-! ## Core.result -/

@[simp] theorem core_result_st (c : Core) (t lat : Nat) (w : Write) : (c.result t lat w).st = c.st := rfl
@[simp] theorem core_result_part (c : Core) (t lat : Nat) (w : Write) : (c.result t lat w).part = c.part := rfl
@[simp] theorem core_result_asid (c : Core) (t lat : Nat) (w : Write) : (c.result t lat w).asid = c.asid := rfl
@[simp] theorem core_result_die (c : Core) (t lat : Nat) (w : Write) : (c.result t lat w).die = c.die := rfl
@[simp] theorem core_result_pcol (c : Core) (t lat : Nat) (w : Write) : (c.result t lat w).pcol = c.pcol := rfl
@[simp] theorem core_result_launch (c : Core) (t lat : Nat) (w : Write) : (c.result t lat w).launch = c.launch := rfl
@[simp] theorem core_result_x (c : Core) (t lat : Nat) (w : Write) : (c.result t lat w).x = c.x := rfl
@[simp] theorem core_result_p (c : Core) (t lat : Nat) (w : Write) : (c.result t lat w).p = c.p := rfl
@[simp] theorem core_result_b (c : Core) (t lat : Nat) (w : Write) : (c.result t lat w).b = c.b := rfl
@[simp] theorem core_result_q (c : Core) (t lat : Nat) (w : Write) : (c.result t lat w).q = c.q := rfl
@[simp] theorem core_result_v (c : Core) (t lat : Nat) (w : Write) : (c.result t lat w).v = c.v := rfl
@[simp] theorem core_result_k (c : Core) (t lat : Nat) (w : Write) : (c.result t lat w).k = c.k := rfl
@[simp] theorem core_result_z (c : Core) (t lat : Nat) (w : Write) : (c.result t lat w).z = c.z := rfl
@[simp] theorem core_result_pc (c : Core) (t lat : Nat) (w : Write) : (c.result t lat w).pc = c.pc := rfl
@[simp] theorem core_result_dly (c : Core) (t lat : Nat) (w : Write) : (c.result t lat w).dly = c.dly := rfl
@[simp] theorem core_result_tgt (c : Core) (t lat : Nat) (w : Write) : (c.result t lat w).tgt = c.tgt := rfl
@[simp] theorem core_result_qn (c : Core) (t lat : Nat) (w : Write) : (c.result t lat w).qn = c.qn := rfl
@[simp] theorem core_result_ct1 (c : Core) (t lat : Nat) (w : Write) : (c.result t lat w).ct1 = c.ct1 := rfl
@[simp] theorem core_result_ct2 (c : Core) (t lat : Nat) (w : Write) : (c.result t lat w).ct2 = c.ct2 := rfl
@[simp] theorem core_result_nbundles (c : Core) (t lat : Nat) (w : Write) : (c.result t lat w).nbundles = c.nbundles := rfl
@[simp] theorem core_result_trap (c : Core) (t lat : Nat) (w : Write) : (c.result t lat w).trap = c.trap := rfl
@[simp] theorem core_result_xnop (c : Core) (t lat : Nat) (w : Write) : (c.result t lat w).xnop = c.xnop := rfl
@[simp] theorem core_result_fpflags (c : Core) (t lat : Nat) (w : Write) : (c.result t lat w).fpflags = c.fpflags := rfl
@[simp] theorem core_result_rngkey (c : Core) (t lat : Nat) (w : Write) : (c.result t lat w).rngkey = c.rngkey := rfl
@[simp] theorem core_result_rngctr (c : Core) (t lat : Nat) (w : Write) : (c.result t lat w).rngctr = c.rngctr := rfl
@[simp] theorem core_result_budget (c : Core) (t lat : Nat) (w : Write) : (c.result t lat w).budget = c.budget := rfl
@[simp] theorem core_result_ecnt (c : Core) (t lat : Nat) (w : Write) : (c.result t lat w).ecnt = c.ecnt := rfl
@[simp] theorem core_result_stat (c : Core) (t lat : Nat) (w : Write) : (c.result t lat w).stat = c.stat := rfl
@[simp] theorem core_result_group (c : Core) (t lat : Nat) (w : Write) : (c.result t lat w).group = c.group := rfl
@[simp] theorem core_result_wait (c : Core) (t lat : Nat) (w : Write) : (c.result t lat w).wait = c.wait := rfl
@[simp] theorem core_result_exit (c : Core) (t lat : Nat) (w : Write) : (c.result t lat w).exit = c.exit := rfl
@[simp] theorem core_result_vaFree (c : Core) (t lat : Nat) (w : Write) : (c.result t lat w).vaFree = c.vaFree := rfl
@[simp] theorem core_result_vbFree (c : Core) (t lat : Nat) (w : Write) : (c.result t lat w).vbFree = c.vbFree := rfl
@[simp] theorem core_result_vops (c : Core) (t lat : Nat) (w : Write) : (c.result t lat w).vops = c.vops := rfl
@[simp] theorem core_result_lands (c : Core) (t lat : Nat) (w : Write) : (c.result t lat w).lands = c.lands ++ [⟨c.seq, t + 1, t + lat, true, false, w⟩] := rfl
@[simp] theorem core_result_reqs (c : Core) (t lat : Nat) (w : Write) : (c.result t lat w).reqs = c.reqs := rfl
@[simp] theorem core_result_markGrp (c : Core) (t lat : Nat) (w : Write) : (c.result t lat w).markGrp = c.markGrp := rfl
@[simp] theorem core_result_accHat (c : Core) (t lat : Nat) (w : Write) : (c.result t lat w).accHat = c.accHat := rfl
@[simp] theorem core_result_stHat (c : Core) (t lat : Nat) (w : Write) : (c.result t lat w).stHat = c.stHat := rfl
@[simp] theorem core_result_markHat (c : Core) (t lat : Nat) (w : Write) : (c.result t lat w).markHat = c.markHat := rfl
@[simp] theorem core_result_bound (c : Core) (t lat : Nat) (w : Write) : (c.result t lat w).bound = max c.bound (t + lat) := rfl
@[simp] theorem core_result_bankDemand (c : Core) (t lat : Nat) (w : Write) : (c.result t lat w).bankDemand = c.bankDemand := rfl
@[simp] theorem core_result_queueDemand (c : Core) (t lat : Nat) (w : Write) : (c.result t lat w).queueDemand = c.queueDemand := rfl
@[simp] theorem core_result_rowPath (c : Core) (t lat : Nat) (w : Write) : (c.result t lat w).rowPath = c.rowPath := rfl
@[simp] theorem core_result_lastLd (c : Core) (t lat : Nat) (w : Write) : (c.result t lat w).lastLd = c.lastLd := rfl
@[simp] theorem core_result_lastSt (c : Core) (t lat : Nat) (w : Write) : (c.result t lat w).lastSt = c.lastSt := rfl
@[simp] theorem core_result_ca (c : Core) (t lat : Nat) (w : Write) : (c.result t lat w).ca = c.ca := rfl
@[simp] theorem core_result_cb (c : Core) (t lat : Nat) (w : Write) : (c.result t lat w).cb = c.cb := rfl
@[simp] theorem core_result_mail (c : Core) (t lat : Nat) (w : Write) : (c.result t lat w).mail = c.mail := rfl
@[simp] theorem core_result_due (c : Core) (t lat : Nat) (w : Write) : (c.result t lat w).due = c.due := rfl
@[simp] theorem core_result_lease (c : Core) (t lat : Nat) (w : Write) : (c.result t lat w).lease = c.lease := rfl
@[simp] theorem core_result_leaseFrom (c : Core) (t lat : Nat) (w : Write) : (c.result t lat w).leaseFrom = c.leaseFrom := rfl
@[simp] theorem core_result_mrel (c : Core) (t lat : Nat) (w : Write) : (c.result t lat w).mrel = c.mrel := rfl
@[simp] theorem core_result_shadow (c : Core) (t lat : Nat) (w : Write) : (c.result t lat w).shadow = c.shadow := rfl
@[simp] theorem core_result_cmds (c : Core) (t lat : Nat) (w : Write) : (c.result t lat w).cmds = c.cmds := rfl
@[simp] theorem core_result_arrivals (c : Core) (t lat : Nat) (w : Write) : (c.result t lat w).arrivals = c.arrivals := rfl
@[simp] theorem core_result_late (c : Core) (t lat : Nat) (w : Write) : (c.result t lat w).late = c.late := rfl
@[simp] theorem core_result_ftick (c : Core) (t lat : Nat) (w : Write) : (c.result t lat w).ftick = c.ftick := rfl
@[simp] theorem core_result_fecnt (c : Core) (t lat : Nat) (w : Write) : (c.result t lat w).fecnt = c.fecnt := rfl
@[simp] theorem core_result_start (c : Core) (t lat : Nat) (w : Write) : (c.result t lat w).start = c.start := rfl
@[simp] theorem core_result_bindAt (c : Core) (t lat : Nat) (w : Write) : (c.result t lat w).bindAt = c.bindAt := rfl
@[simp] theorem core_result_issued (c : Core) (t lat : Nat) (w : Write) : (c.result t lat w).issued = c.issued := rfl
@[simp] theorem core_result_spoilt (c : Core) (t lat : Nat) (w : Write) : (c.result t lat w).spoilt = c.spoilt := rfl
@[simp] theorem core_result_seq (c : Core) (t lat : Nat) (w : Write) : (c.result t lat w).seq = c.seq := rfl
@[simp] theorem core_result_span (c : Core) (t lat : Nat) (w : Write) : (c.result t lat w).span = c.span := rfl
@[simp] theorem core_result_spanEnd (c : Core) (t lat : Nat) (w : Write) : (c.result t lat w).spanEnd = c.spanEnd := rfl
@[simp] theorem core_result_iss (c : Core) (t lat : Nat) (w : Write) : (c.result t lat w).iss = c.iss := rfl

/-! ## Core.freeze -/

@[simp] theorem core_freeze_st (c : Core) (t : Nat) : (c.freeze t).st = .halted := rfl
@[simp] theorem core_freeze_part (c : Core) (t : Nat) : (c.freeze t).part = c.part := rfl
@[simp] theorem core_freeze_asid (c : Core) (t : Nat) : (c.freeze t).asid = c.asid := rfl
@[simp] theorem core_freeze_die (c : Core) (t : Nat) : (c.freeze t).die = c.die := rfl
@[simp] theorem core_freeze_pcol (c : Core) (t : Nat) : (c.freeze t).pcol = c.pcol := rfl
@[simp] theorem core_freeze_launch (c : Core) (t : Nat) : (c.freeze t).launch = c.launch := rfl
@[simp] theorem core_freeze_x (c : Core) (t : Nat) : (c.freeze t).x = c.x := rfl
@[simp] theorem core_freeze_p (c : Core) (t : Nat) : (c.freeze t).p = c.p := rfl
@[simp] theorem core_freeze_b (c : Core) (t : Nat) : (c.freeze t).b = c.b := rfl
@[simp] theorem core_freeze_q (c : Core) (t : Nat) : (c.freeze t).q = c.q := rfl
@[simp] theorem core_freeze_v (c : Core) (t : Nat) : (c.freeze t).v = c.v := rfl
@[simp] theorem core_freeze_k (c : Core) (t : Nat) : (c.freeze t).k = c.k := rfl
@[simp] theorem core_freeze_z (c : Core) (t : Nat) : (c.freeze t).z = c.z := rfl
@[simp] theorem core_freeze_pc (c : Core) (t : Nat) : (c.freeze t).pc = c.pc := rfl
@[simp] theorem core_freeze_dly (c : Core) (t : Nat) : (c.freeze t).dly = c.dly := rfl
@[simp] theorem core_freeze_tgt (c : Core) (t : Nat) : (c.freeze t).tgt = c.tgt := rfl
@[simp] theorem core_freeze_qn (c : Core) (t : Nat) : (c.freeze t).qn = c.qn := rfl
@[simp] theorem core_freeze_ct1 (c : Core) (t : Nat) : (c.freeze t).ct1 = c.ct1 := rfl
@[simp] theorem core_freeze_ct2 (c : Core) (t : Nat) : (c.freeze t).ct2 = c.ct2 := rfl
@[simp] theorem core_freeze_nbundles (c : Core) (t : Nat) : (c.freeze t).nbundles = c.nbundles := rfl
@[simp] theorem core_freeze_trap (c : Core) (t : Nat) : (c.freeze t).trap = c.trap := rfl
@[simp] theorem core_freeze_xnop (c : Core) (t : Nat) : (c.freeze t).xnop = c.xnop := rfl
@[simp] theorem core_freeze_fpflags (c : Core) (t : Nat) : (c.freeze t).fpflags = c.fpflags := rfl
@[simp] theorem core_freeze_rngkey (c : Core) (t : Nat) : (c.freeze t).rngkey = c.rngkey := rfl
@[simp] theorem core_freeze_rngctr (c : Core) (t : Nat) : (c.freeze t).rngctr = c.rngctr := rfl
@[simp] theorem core_freeze_budget (c : Core) (t : Nat) : (c.freeze t).budget = c.budget := rfl
@[simp] theorem core_freeze_ecnt (c : Core) (t : Nat) : (c.freeze t).ecnt = c.ecnt := rfl
@[simp] theorem core_freeze_stat (c : Core) (t : Nat) : (c.freeze t).stat = c.stat := rfl
@[simp] theorem core_freeze_group (c : Core) (t : Nat) : (c.freeze t).group = c.group := rfl
@[simp] theorem core_freeze_wait (c : Core) (t : Nat) : (c.freeze t).wait = c.wait := rfl
@[simp] theorem core_freeze_exit (c : Core) (t : Nat) : (c.freeze t).exit = c.exit := rfl
@[simp] theorem core_freeze_vaFree (c : Core) (t : Nat) : (c.freeze t).vaFree = c.vaFree := rfl
@[simp] theorem core_freeze_vbFree (c : Core) (t : Nat) : (c.freeze t).vbFree = c.vbFree := rfl
@[simp] theorem core_freeze_vops (c : Core) (t : Nat) : (c.freeze t).vops = c.vops := rfl
@[simp] theorem core_freeze_lands (c : Core) (t : Nat) : (c.freeze t).lands = c.lands := rfl
@[simp] theorem core_freeze_reqs (c : Core) (t : Nat) : (c.freeze t).reqs = c.reqs := rfl
@[simp] theorem core_freeze_markGrp (c : Core) (t : Nat) : (c.freeze t).markGrp = c.markGrp := rfl
@[simp] theorem core_freeze_accHat (c : Core) (t : Nat) : (c.freeze t).accHat = c.accHat := rfl
@[simp] theorem core_freeze_stHat (c : Core) (t : Nat) : (c.freeze t).stHat = c.stHat := rfl
@[simp] theorem core_freeze_markHat (c : Core) (t : Nat) : (c.freeze t).markHat = c.markHat := rfl
@[simp] theorem core_freeze_bound (c : Core) (t : Nat) : (c.freeze t).bound = c.bound := rfl
@[simp] theorem core_freeze_bankDemand (c : Core) (t : Nat) : (c.freeze t).bankDemand = c.bankDemand := rfl
@[simp] theorem core_freeze_queueDemand (c : Core) (t : Nat) : (c.freeze t).queueDemand = c.queueDemand := rfl
@[simp] theorem core_freeze_rowPath (c : Core) (t : Nat) : (c.freeze t).rowPath = c.rowPath := rfl
@[simp] theorem core_freeze_lastLd (c : Core) (t : Nat) : (c.freeze t).lastLd = c.lastLd := rfl
@[simp] theorem core_freeze_lastSt (c : Core) (t : Nat) : (c.freeze t).lastSt = c.lastSt := rfl
@[simp] theorem core_freeze_ca (c : Core) (t : Nat) : (c.freeze t).ca = c.ca := rfl
@[simp] theorem core_freeze_cb (c : Core) (t : Nat) : (c.freeze t).cb = c.cb := rfl
@[simp] theorem core_freeze_mail (c : Core) (t : Nat) : (c.freeze t).mail = c.mail := rfl
@[simp] theorem core_freeze_due (c : Core) (t : Nat) : (c.freeze t).due = c.due := rfl
@[simp] theorem core_freeze_lease (c : Core) (t : Nat) : (c.freeze t).lease = c.lease := rfl
@[simp] theorem core_freeze_leaseFrom (c : Core) (t : Nat) : (c.freeze t).leaseFrom = c.leaseFrom := rfl
@[simp] theorem core_freeze_mrel (c : Core) (t : Nat) : (c.freeze t).mrel = c.mrel := rfl
@[simp] theorem core_freeze_shadow (c : Core) (t : Nat) : (c.freeze t).shadow = c.shadow := rfl
@[simp] theorem core_freeze_cmds (c : Core) (t : Nat) : (c.freeze t).cmds = c.cmds := rfl
@[simp] theorem core_freeze_arrivals (c : Core) (t : Nat) : (c.freeze t).arrivals = c.arrivals := rfl
@[simp] theorem core_freeze_late (c : Core) (t : Nat) : (c.freeze t).late = c.late := rfl
@[simp] theorem core_freeze_ftick (c : Core) (t : Nat) : (c.freeze t).ftick = t := rfl
@[simp] theorem core_freeze_fecnt (c : Core) (t : Nat) : (c.freeze t).fecnt = c.ecnt := rfl
@[simp] theorem core_freeze_start (c : Core) (t : Nat) : (c.freeze t).start = c.start := rfl
@[simp] theorem core_freeze_bindAt (c : Core) (t : Nat) : (c.freeze t).bindAt = c.bindAt := rfl
@[simp] theorem core_freeze_issued (c : Core) (t : Nat) : (c.freeze t).issued = c.issued := rfl
@[simp] theorem core_freeze_spoilt (c : Core) (t : Nat) : (c.freeze t).spoilt = c.spoilt := rfl
@[simp] theorem core_freeze_seq (c : Core) (t : Nat) : (c.freeze t).seq = c.seq := rfl
@[simp] theorem core_freeze_span (c : Core) (t : Nat) : (c.freeze t).span = c.span := rfl
@[simp] theorem core_freeze_spanEnd (c : Core) (t : Nat) : (c.freeze t).spanEnd = c.spanEnd := rfl
@[simp] theorem core_freeze_iss (c : Core) (t : Nat) : (c.freeze t).iss = c.iss := rfl

/-! ## Objects after an update -/

@[simp] theorem core_setCore_same (s : State) (k : Nat) (c : Core) : (s.setCore k c).core k = c := by
  simp [State.core, find_put_same]
theorem core_setCore_other (s : State) (c : Core) {k j : Nat} (h : j ≠ k) : (s.setCore k c).core j = s.core j := by
  simp [State.core, find_put_other _ _ h]
@[simp] theorem here_setHere (s : State) (c : Core) : (s.setHere c).here = c := core_setCore_same s _ c
theorem core_setHere_other (s : State) (c : Core) {j : Nat} (h : j ≠ s.cur.core) : (s.setHere c).core j = s.core j :=
  core_setCore_other s c h
@[simp] theorem core_setByte (s : State) (a : Nat) (v : Byte) (k : Nat) : (s.setByte a v).core k = s.core k := rfl
@[simp] theorem here_setByte (s : State) (a : Nat) (v : Byte) : (s.setByte a v).here = s.here := rfl
@[simp] theorem core_modPart (s : State) (p : Nat) (f : Part → Part) (k : Nat) : (s.modPart p f).core k = s.core k := rfl
@[simp] theorem core_modUnit (s : State) (u : Nat) (f : MUnit → MUnit) (k : Nat) : (s.modUnit u f).core k = s.core k := rfl
@[simp] theorem core_modDie (s : State) (d : Nat) (f : Die → Die) (k : Nat) : (s.modDie d f).core k = s.core k := rfl
@[simp] theorem part_setCore (s : State) (k : Nat) (c : Core) (p : Nat) : (s.setCore k c).part p = s.part p := rfl
@[simp] theorem part_setHere (s : State) (c : Core) (p : Nat) : (s.setHere c).part p = s.part p := rfl
@[simp] theorem ctx_setCore (s : State) (k : Nat) (c : Core) (p a : Nat) : (s.setCore k c).ctx p a = s.ctx p a := rfl
@[simp] theorem launch_setCore (s : State) (k : Nat) (c : Core) (p l : Nat) : (s.setCore k c).launch p l = s.launch p l := rfl
@[simp] theorem byte_setCore (s : State) (k : Nat) (c : Core) (a : Nat) : (s.setCore k c).byte a = s.byte a := rfl
@[simp] theorem byte_setHere (s : State) (c : Core) (a : Nat) : (s.setHere c).byte a = s.byte a := rfl
@[simp] theorem byte_modPart (s : State) (p : Nat) (f : Part → Part) (a : Nat) : (s.modPart p f).byte a = s.byte a := rfl
@[simp] theorem byte_modUnit (s : State) (u : Nat) (f : MUnit → MUnit) (a : Nat) : (s.modUnit u f).byte a = s.byte a := rfl
/-- A partition that exists, after a change of it. -/
theorem find_modPart (s : State) (p : Nat) (f : Part → Part) (j : Nat) :
    Tab.find (s.modPart p f).parts j = if j = p then (Tab.find s.parts j).map f else Tab.find s.parts j := find_upd s.parts p j f
theorem part_modPart (s : State) (p : Nat) (f : Part → Part) (q : Part) (h : Tab.find s.parts p = some q) :
    (s.modPart p f).part p = f q := by
  simp only [State.part, find_modPart, h, if_true, Option.map_some, Option.getD_some]
theorem part_modPart_other (s : State) (f : Part → Part) {p j : Nat} (h : j ≠ p) : (s.modPart p f).part j = s.part j := by
  simp only [State.part, find_modPart, h, if_false]

/-- A context after a change of it, and a launch: there is one after exactly when there was one before. -/
theorem ctx_modCtx (s : State) (p a : Nat) (f : Ctx → Ctx) : (s.modCtx p a f).ctx p a = (s.ctx p a).map f := by
  cases h : Tab.find s.parts p with
  | none =>
    have e : (s.modCtx p a f).part p = Part.reset := by
      unfold State.modCtx; simp only [State.part, find_modPart, h, if_true, Option.map_none, Option.getD_none]
    have e2 : s.part p = Part.reset := by simp only [State.part, h, Option.getD_none]
    unfold State.ctx; rw [e, e2]; rfl
  | some q =>
    have e : (s.modCtx p a f).part p = { q with ctxs := Tab.upd q.ctxs a f } := part_modPart s p _ q h
    have e2 : s.part p = q := by simp only [State.part, h, Option.getD_some]
    unfold State.ctx; rw [e, e2]; exact (find_upd _ _ _ _).trans (if_pos rfl)
theorem launch_modLaunch (s : State) (p l : Nat) (f : Launch → Launch) :
    (s.modLaunch p l f).launch p l = (s.launch p l).map f := by
  cases h : Tab.find s.parts p with
  | none =>
    have e : (s.modLaunch p l f).part p = Part.reset := by
      unfold State.modLaunch; simp only [State.part, find_modPart, h, if_true, Option.map_none, Option.getD_none]
    have e2 : s.part p = Part.reset := by simp only [State.part, h, Option.getD_none]
    unfold State.launch; rw [e, e2]; rfl
  | some q =>
    have e : (s.modLaunch p l f).part p = { q with launches := Tab.upd q.launches l f } := part_modPart s p _ q h
    have e2 : s.part p = q := by simp only [State.part, h, Option.getD_some]
    unfold State.launch; rw [e, e2]; exact (find_upd _ _ _ _).trans (if_pos rfl)
@[simp] theorem core_modCtx (s : State) (p a : Nat) (f : Ctx → Ctx) (k : Nat) : (s.modCtx p a f).core k = s.core k := rfl
@[simp] theorem core_modLaunch (s : State) (p l : Nat) (f : Launch → Launch) (k : Nat) : (s.modLaunch p l f).core k = s.core k := rfl
@[simp] theorem modCtx_mem (s : State) (p a : Nat) (f : Ctx → Ctx) : (s.modCtx p a f).mem = s.mem := rfl
@[simp] theorem modLaunch_mem (s : State) (p l : Nat) (f : Launch → Launch) : (s.modLaunch p l f).mem = s.mem := rfl

end Sys2Proof.Laws
end

