-- ==== Sys2Proof/Laws/Memory.lean ====
section
/-! SUPPORT. Laws of memory: a byte read after a write, and that every operation over memory keeps its canonical form. -/
namespace Sys2Proof.Laws
open Sys2Proof.Machine

theorem byte_setByte_same (s : State) (a : Nat) (v : Byte) : (s.setByte a v).byte a = v :=
  get_set_same 0 s.mem a v
theorem byte_setByte_other (s : State) (v : Byte) {a b : Nat} (h : b ≠ a) : (s.setByte a v).byte b = s.byte b :=
  get_set_other 0 s.mem v h
theorem wf_setByte (s : State) (a : Nat) (v : Byte) (h : Memory.wf s.mem = true) : Memory.wf (s.setByte a v).mem = true :=
  wf_set 0 s.mem a v h

theorem wf_setBytes (vs : List Byte) (s : State) (a : Nat) (h : Memory.wf s.mem = true) :
    Memory.wf (s.setBytes a vs).mem = true := by
  induction vs generalizing s a with
  | nil => exact h
  | cons v t ih => exact ih _ _ (wf_setByte s a v h)
theorem wf_store (s : State) (a n v : Nat) (h : Memory.wf s.mem = true) : Memory.wf (s.store a n v).mem = true :=
  wf_setBytes _ s a h
/-- Writing a list of bytes leaves every other byte as it was. -/
theorem byte_setBytes_other (vs : List Byte) (s : State) (a b : Nat) (h : b < a ∨ a + vs.length ≤ b) :
    (s.setBytes a vs).byte b = s.byte b := by
  induction vs generalizing s a with
  | nil => rfl
  | cons v t ih =>
    simp only [List.length_cons] at h
    rw [State.setBytes, ih _ _ (by omega), byte_setByte_other s v (by omega)]
theorem leBytes_length (n v : Nat) : (leBytes n v).length = n := by
  induction n generalizing v with
  | zero => rfl
  | succ n ih => simp [leBytes, ih]
theorem byte_store_other (s : State) (a n v b : Nat) (h : b < a ∨ a + n ≤ b) : (s.store a n v).byte b = s.byte b :=
  byte_setBytes_other _ s a b (by rw [leBytes_length]; exact h)

theorem wf_writeRaced (vs : List Byte) (s : State) (k a : Nat) (h : Memory.wf s.mem = true) :
    Memory.wf (s.writeRaced k a vs).mem = true := by
  induction vs generalizing s a with
  | nil => exact h
  | cons v t ih => exact ih _ _ (wf_set 0 s.mem a _ h)
theorem byte_writeRaced_other (vs : List Byte) (s : State) (k a b : Nat) (h : b < a ∨ a + vs.length ≤ b) :
    (s.writeRaced k a vs).byte b = s.byte b := by
  induction vs generalizing s a with
  | nil => rfl
  | cons v t ih =>
    simp only [List.length_cons] at h
    rw [State.writeRaced, ih _ _ (by omega)]
    exact get_set_other 0 s.mem _ (by omega)

end Sys2Proof.Laws
end

