-- ==== Sys2Proof/Laws/Ops.lean ====
section
/-! SUPPORT. What each shared operation of the slots can do, said once: with its guard off, with its guard on, and when it traps. -/
namespace Sys2Proof.Laws
open Sys2Proof.Machine

/-! ## Reading registers of a core that has been charged and numbered -/

@[simp] theorem readX_zero (s : State) (c : Core) : s.readX c 0 = 0 := rfl
@[simp] theorem readP_zero (c : Core) : c.readP 0 = true := rfl
@[simp] theorem readK_zero (s : State) (c : Core) (i : Nat) : s.readK c 0 i = BitVec.allOnes 64 := rfl
@[simp] theorem readX_charge (s : State) (c : Core) (n a : Nat) : s.readX (c.charge n).next a = s.readX c a := rfl
@[simp] theorem readV_charge (s : State) (c : Core) (n r i : Nat) : s.readV (c.charge n).next r i = s.readV c r i := rfl
@[simp] theorem readK_charge (s : State) (c : Core) (n r i : Nat) : s.readK (c.charge n).next r i = s.readK c r i := rfl
@[simp] theorem readP_charge (c : Core) (n a : Nat) : ((c.charge n).next).readP a = c.readP a := rfl
@[simp] theorem readB_charge (c : Core) (n a : Nat) : ((c.charge n).next).readB a = c.readB a := rfl
@[simp] theorem readQ_charge (c : Core) (n a : Nat) : ((c.charge n).next).readQ a = c.readQ a := rfl
@[simp] theorem now_charge (s : State) (c : Core) (n : Nat) : s.now (c.charge n).next = s.now c := rfl
@[simp] theorem guardOn_charge (c : Core) (n : Nat) (g : Guard) : ((c.charge n).next).guardOn g = c.guardOn g := rfl

/-! ## Operations of a slot -/

theorem slotOp_on {g : Guard} {s : State} (h : s.here.guardOn g = true) (eu : Nat) (f : State → Core → Core) :
    slotOp g eu f s = .next (s.setHere (f s (s.here.charge eu).next)) := by
  simp [slotOp, h]
theorem slotOp_off {g : Guard} {s : State} (h : s.here.guardOn g = false) (eu : Nat) (f : State → Core → Core) :
    slotOp g eu f s = .next s := by
  simp [slotOp, h]
theorem slotTry_on {g : Guard} {s : State} (h : s.here.guardOn g = true) (eu : Nat) (chk : State → Core → Option (Nat × Nat))
    (f : State → Core → Core) (hc : chk s s.here = none) :
    slotTry g eu chk f s = .next (s.setHere (f s (s.here.charge eu).next)) := by
  simp [slotTry, h, hc]
theorem slotTry_trap {g : Guard} {s : State} (h : s.here.guardOn g = true) (eu : Nat) (chk : State → Core → Option (Nat × Nat))
    (f : State → Core → Core) {cause info : Nat} (hc : chk s s.here = some (cause, info)) :
    slotTry g eu chk f s = .next (s.trapHere cause info) := by
  simp [slotTry, h, hc]
theorem slotTry_off {g : Guard} {s : State} (h : s.here.guardOn g = false) (eu : Nat) (chk : State → Core → Option (Nat × Nat))
    (f : State → Core → Core) : slotTry g eu chk f s = .next s := by
  simp [slotTry, h]
/-- A slot operation always answers a next state. -/
theorem slotOp_next (g : Guard) (eu : Nat) (f : State → Core → Core) (s : State) : ∃ t, slotOp g eu f s = .next t := by
  cases h : s.here.guardOn g
  · exact ⟨_, slotOp_off h eu f⟩
  · exact ⟨_, slotOp_on h eu f⟩
/-- A slot operation writes nothing but its own core. -/
theorem slotOp_frame {g : Guard} {eu : Nat} {f : State → Core → Core} {s t : State} (h : slotOp g eu f s = .next t) :
    ∃ c, t = s.setHere c ∨ t = s := by
  cases hg : s.here.guardOn g
  · rw [slotOp_off hg] at h; exact ⟨s.here, .inr (Host.Outcome.next.inj h).symm⟩
  · rw [slotOp_on hg] at h; exact ⟨_, .inl (Host.Outcome.next.inj h).symm⟩

theorem aluRR_on {g : Guard} {s : State} (h : s.here.guardOn g = true) (lat d a b : Nat) (f : Word → Word → Word) :
    aluRR g lat d a b f s
      = .next (s.setHere ((s.here.charge 1).next.result (s.now s.here) lat (.x d (f (s.readX s.here a) (s.readX s.here b))))) :=
  slotOp_on h 1 _
theorem aluR_on {g : Guard} {s : State} (h : s.here.guardOn g = true) (d a : Nat) (f : Word → Word) :
    aluR g d a f s = .next (s.setHere ((s.here.charge 1).next.result (s.now s.here) 1 (.x d (f (s.readX s.here a))))) :=
  slotOp_on h 1 _
theorem cmpRR_on {g : Guard} {s : State} (h : s.here.guardOn g = true) (d a b : Nat) (f : Word → Word → Bool) :
    cmpRR g d a b f s
      = .next (s.setHere ((s.here.charge 1).next.result (s.now s.here) 1 (.p d (f (s.readX s.here a) (s.readX s.here b))))) :=
  slotOp_on h 1 _
theorem cmpRI_on {g : Guard} {s : State} (h : s.here.guardOn g = true) (d a i : Nat) (f : Word → Word → Bool) :
    cmpRI g d a i f s
      = .next (s.setHere ((s.here.charge 1).next.result (s.now s.here) 1 (.p d (f (s.readX s.here a) (sext 8 i))))) :=
  slotOp_on h 1 _
theorem plog_on {g : Guard} {s : State} (h : s.here.guardOn g = true) (d a b : Nat) (f : Bool → Bool → Bool) :
    plog g d a b f s
      = .next (s.setHere ((s.here.charge 1).next.result (s.now s.here) 1 (.p d (f (s.here.readP a) (s.here.readP b))))) :=
  slotOp_on h 1 _

/-! ## The vector units -/

theorem vecOp_busy {g : Guard} {s : State} (h : s.vBusy s.here = true) (d a b k : Nat) (fn : State → Core → VFn) :
    vecOp g d a b k fn s = .next (s.trapHere 2 s.cur.slot) := by
  simp [vecOp, h]
theorem vecOp_off {g : Guard} {s : State} (h : s.vBusy s.here = false) (hg : s.here.guardOn g = false) (d a b k : Nat)
    (fn : State → Core → VFn) : vecOp g d a b k fn s = .next (s.setHere (s.vTake s.here)) := by
  simp [vecOp, h, hg]

end Sys2Proof.Laws
end

