-- ==== Sys2Proof/Laws/PerInstr.lean ====
section
/-! SUPPORT. Statements for every instruction, one lemma for each constructor. RoundTrip: decoding the encoded word of a well-formed
operation against the map of its slot gives it back, with every operand at every value the encoding admits. -/
namespace Sys2Proof.Laws
set_option Elab.async false

/-- The decoder reads from the word of a well-formed operation, in each map that has it, that operation. -/
def RoundTrip.Statement (i : Instr) : Prop :=
  i.wf = true → ∀ sl : SlotClass, i.inMap sl = true → decodeWord sl (encode i) = .ok i

/-! ## What the proofs share -/

theorem need_pos {c : Prop} [Decidable c] (r : Except Ill Instr) (h : c) : need c r = r := if_pos h

theorem ofCode_code (f : Fmt) : Fmt.ofCode f.code = some f := by cases f <;> rfl
theorem rmOfCode_code (r : Rm) : Rm.ofCode r.code = some r := by cases r <;> rfl
theorem fmt_code_lt (f : Fmt) : f.code < 16 := by cases f <;> decide
theorem rm_code_lt (r : Rm) : r.code < 8 := by cases r <;> decide
theorem toNat_beq_one (b : Bool) : (b.toNat == 1) = b := by cases b <;> rfl
theorem toNat_lt_two (b : Bool) : b.toNat < 2 := by cases b <;> decide

theorem sysNumber_lt {n : Nat} (h : sysNumber n = true) : n < 4096 := by
  simp only [sysNumber, Bool.or_eq_true, Bool.and_eq_true, decide_eq_true_eq] at h; omega

/-- The guard of a word, and that it is neither all ones nor a NOP. -/
theorem decodeWord_op (sl : SlotClass) (g : Guard) (op body w : Nat) (hg : g.pred < 12) (ho : op < 64) (hb : body < 2 ^ 21)
    (h1 : op ≠ 0) (hw : g.neg.toNat * 2 ^ 31 + g.pred * 2 ^ 27 + op * 2 ^ 21 + body = w) :
    decodeWord sl w = (match sl with
      | .x => decodeX g w | .s => decodeS g w | .l => decodeL g w | .v => decodeV g w | .m => decodeM g w | .c => decodeC g w) := by
  have hn := toNat_lt_two g.neg
  have e1 : w ≠ 0xFFFFFFFF := by omega
  have e2 : fld w 30 27 = g.pred := by simp only [fld]; omega
  have e3 : fld w 31 31 = g.neg.toNat := by simp only [fld]; omega
  have e4 : fld w 26 0 ≠ 0 := by simp only [fld]; omega
  unfold decodeWord
  rw [if_neg e1, e2, e3, if_neg (Nat.not_le.mpr hg), toNat_beq_one, if_neg e4]
  all_goals rfl

/-- A field of a word that lies in its body. -/
theorem fld_body (g : Guard) (op body w hi lo : Nat) (h : hi + 1 ≤ 21) (hl : lo ≤ hi)
    (hw : g.neg.toNat * 2 ^ 31 + g.pred * 2 ^ 27 + op * 2 ^ 21 + body = w) : fld w hi lo = fld body hi lo := by
  have e : w = body + 2 ^ lo * (2 ^ (hi + 1 - lo) * (2 ^ (20 - hi) * (g.neg.toNat * 2 ^ 10 + g.pred * 2 ^ 6 + op))) := by
    have : (2 : Nat) ^ lo * (2 ^ (hi + 1 - lo) * (2 ^ (20 - hi) * (g.neg.toNat * 2 ^ 10 + g.pred * 2 ^ 6 + op)))
        = 2 ^ 21 * (g.neg.toNat * 2 ^ 10 + g.pred * 2 ^ 6 + op) := by
      rw [← Nat.mul_assoc, ← Nat.mul_assoc, ← Nat.pow_add, ← Nat.pow_add]
      congr 2; omega
    rw [this]; omega
  unfold fld
  rw [e, Nat.add_mul_div_left _ _ (Nat.two_pow_pos lo), Nat.add_mul_mod_self_left]

/-- The major opcode of a word. -/
theorem fld_major (g : Guard) (op body w : Nat) (ho : op < 64) (hb : body < 2 ^ 21)
    (hw : g.neg.toNat * 2 ^ 31 + g.pred * 2 ^ 27 + op * 2 ^ 21 + body = w) : fld w 26 21 = op := by
  simp only [fld]; omega

/-- A field put above a lower part. -/
theorem lt_field {v n r lo m : Nat} (hv : v < n) (hr : r < 2 ^ lo) (hn : n * 2 ^ lo ≤ 2 ^ m) : v * 2 ^ lo + r < 2 ^ m := by
  have h : (v + 1) * 2 ^ lo ≤ n * 2 ^ lo := Nat.mul_le_mul_right _ hv
  rw [Nat.add_mul, Nat.one_mul] at h; omega

/-- The field that stands on top. -/
theorem fld_here {v n r hi lo : Nat} (hv : v < n) (hr : r < 2 ^ lo) (hn : n ≤ 2 ^ (hi + 1 - lo)) : fld (v * 2 ^ lo + r) hi lo = v := by
  unfold fld
  rw [Nat.add_comm, Nat.add_mul_div_right _ _ (Nat.two_pow_pos lo), Nat.div_eq_of_lt hr, Nat.zero_add,
    Nat.mod_eq_of_lt (Nat.lt_of_lt_of_le hv hn)]

/-- A field below what stands on top. -/
theorem fld_below {v r k hi lo : Nat} (h : hi + 1 ≤ k) (hl : lo ≤ hi) : fld (v * 2 ^ k + r) hi lo = fld r hi lo := by
  have e : v * 2 ^ k + r = r + 2 ^ lo * (2 ^ (hi + 1 - lo) * (2 ^ (k - (hi + 1)) * v)) := by
    rw [← Nat.mul_assoc, ← Nat.mul_assoc, ← Nat.pow_add, ← Nat.pow_add,
      show lo + (hi + 1 - lo) + (k - (hi + 1)) = k by omega, Nat.mul_comm, Nat.add_comm]
  unfold fld
  rw [e, Nat.add_mul_div_left _ _ (Nat.two_pow_pos lo), Nat.add_mul_mod_self_left]

/-- A field above all that stands. -/
theorem fld_above {r hi lo : Nat} (h : r < 2 ^ lo) : fld r hi lo = 0 := by
  unfold fld; rw [Nat.div_eq_of_lt h, Nat.zero_mod]

/-! ## Operations -/

theorem RoundTrip.nop (g : Guard) : Statement (.nop g) := by
  intro h sl _
  change decide (g.pred < 12) = true at h
  have h0 := of_decide_eq_true h
  have hn := toNat_lt_two g.neg
  obtain ⟨w, hw⟩ : ∃ w, g.neg.toNat * 2 ^ 31 + g.pred * 2 ^ 27 + 0 * 2 ^ 21 + 0 = w := ⟨_, rfl⟩
  change decodeWord sl (g.neg.toNat * 2 ^ 31 + g.pred * 2 ^ 27 + 0 * 2 ^ 21 + 0) = _
  have e1 : w ≠ 0xFFFFFFFF := by omega
  have e2 : fld w 30 27 = g.pred := by simp only [fld]; omega
  have e3 : fld w 31 31 = g.neg.toNat := by simp only [fld]; omega
  have e4 : fld w 26 0 = 0 := by simp only [fld]; omega
  rw [hw]; unfold decodeWord
  rw [if_neg e1, e2, e3, if_neg (Nat.not_le.mpr h0), toNat_beq_one, if_pos e4]

theorem RoundTrip.br (g : Guard) (t : Nat) : Statement (.br g t) := by
  intro h sl hs
  change (decide (g.pred < 12) && decide (t < 8192)) = true at h
  simp only [Bool.and_eq_true, decide_eq_true_eq] at h
  obtain ⟨h0, h1⟩ := h
  obtain rfl : SlotClass.x = sl := Option.some.inj (of_decide_eq_true hs)
  have t0 : (t * 2 ^ 0 + 0) < 2 ^ 21 := lt_field (n := 8192) h1 (by decide) (by decide)
  obtain ⟨wd, hw⟩ : ∃ wd, g.neg.toNat * 2 ^ 31 + g.pred * 2 ^ 27 + 1 * 2 ^ 21 + (t * 2 ^ 0 + 0) = wd := ⟨_, rfl⟩
  change decodeWord .x (g.neg.toNat * 2 ^ 31 + g.pred * 2 ^ 27 + 1 * 2 ^ 21 + (t * 2 ^ 0 + 0)) = _
  rw [hw, decodeWord_op .x g 1 _ wd h0 (by decide) t0 (by decide) hw]
  change decodeX g wd = _
  have em := fld_major g 1 _ wd (by decide) t0 hw
  have f20_13 : fld wd 20 13 = 0 := (fld_body g 1 _ wd 20 13 (by decide) (by decide) hw).trans (fld_above (lt_field (n := 8192) h1 (by decide) (by decide)))
  have f12_0 : fld wd 12 0 = t := (fld_body g 1 _ wd 12 0 (by decide) (by decide) hw).trans (fld_here (n := 8192) h1 (by decide) (by decide))
  have ha : decodeX g wd = need (fld wd 20 13 = 0) (.ok (.br g (fld wd 12 0))) := by
    unfold decodeX; rw [em]; rfl
  rw [ha]
  simp only [need, f20_13, f12_0, if_true]

theorem RoundTrip.brb (g : Guard) (b : Nat) : Statement (.brb g b) := by
  intro h sl hs
  change (decide (g.pred < 12) && decide (b < 4)) = true at h
  simp only [Bool.and_eq_true, decide_eq_true_eq] at h
  obtain ⟨h0, h1⟩ := h
  obtain rfl : SlotClass.x = sl := Option.some.inj (of_decide_eq_true hs)
  have t0 : (b * 2 ^ 6 + 0) < 2 ^ 21 := lt_field (n := 4) h1 (by decide) (by decide)
  obtain ⟨wd, hw⟩ : ∃ wd, g.neg.toNat * 2 ^ 31 + g.pred * 2 ^ 27 + 2 * 2 ^ 21 + (b * 2 ^ 6 + 0) = wd := ⟨_, rfl⟩
  change decodeWord .x (g.neg.toNat * 2 ^ 31 + g.pred * 2 ^ 27 + 2 * 2 ^ 21 + (b * 2 ^ 6 + 0)) = _
  rw [hw, decodeWord_op .x g 2 _ wd h0 (by decide) t0 (by decide) hw]
  change decodeX g wd = _
  have em := fld_major g 2 _ wd (by decide) t0 hw
  have f20_8 : fld wd 20 8 = 0 := (fld_body g 2 _ wd 20 8 (by decide) (by decide) hw).trans (fld_above (lt_field (n := 4) h1 (by decide) (by decide)))
  have f5_0 : fld wd 5 0 = 0 := (fld_body g 2 _ wd 5 0 (by decide) (by decide) hw).trans ((fld_below (by decide) (by decide)).trans (by decide))
  have f7_6 : fld wd 7 6 = b := (fld_body g 2 _ wd 7 6 (by decide) (by decide) hw).trans (fld_here (n := 4) h1 (by decide) (by decide))
  have ha : decodeX g wd = need (fld wd 20 8 = 0 ∧ fld wd 5 0 = 0) (.ok (.brb g (fld wd 7 6))) := by
    unfold decodeX; rw [em]; rfl
  rw [ha]
  simp only [need, f20_8, f5_0, f7_6, and_self, if_true]

theorem RoundTrip.call (g : Guard) (l : Nat) (t : Nat) : Statement (.call g l t) := by
  intro h sl hs
  change (decide (g.pred < 12) && decide (l < 4) && decide (t < 8192)) = true at h
  simp only [Bool.and_eq_true, decide_eq_true_eq] at h
  obtain ⟨⟨h0, h1⟩, h2⟩ := h
  obtain rfl : SlotClass.x = sl := Option.some.inj (of_decide_eq_true hs)
  have t1 : (t * 2 ^ 0 + 0) < 2 ^ 13 := lt_field (n := 8192) h2 (by decide) (by decide)
  have t0 : (l * 2 ^ 13 + (t * 2 ^ 0 + 0)) < 2 ^ 21 := lt_field (n := 4) h1 t1 (by decide)
  obtain ⟨wd, hw⟩ : ∃ wd, g.neg.toNat * 2 ^ 31 + g.pred * 2 ^ 27 + 3 * 2 ^ 21 + (l * 2 ^ 13 + (t * 2 ^ 0 + 0)) = wd := ⟨_, rfl⟩
  change decodeWord .x (g.neg.toNat * 2 ^ 31 + g.pred * 2 ^ 27 + 3 * 2 ^ 21 + (l * 2 ^ 13 + (t * 2 ^ 0 + 0))) = _
  rw [hw, decodeWord_op .x g 3 _ wd h0 (by decide) t0 (by decide) hw]
  change decodeX g wd = _
  have em := fld_major g 3 _ wd (by decide) t0 hw
  have f20_15 : fld wd 20 15 = 0 := (fld_body g 3 _ wd 20 15 (by decide) (by decide) hw).trans (fld_above (lt_field (n := 4) h1 t1 (by decide)))
  have f14_13 : fld wd 14 13 = l := (fld_body g 3 _ wd 14 13 (by decide) (by decide) hw).trans (fld_here (n := 4) h1 t1 (by decide))
  have f12_0 : fld wd 12 0 = t := (fld_body g 3 _ wd 12 0 (by decide) (by decide) hw).trans ((fld_below (by decide) (by decide)).trans (fld_here (n := 8192) h2 (by decide) (by decide)))
  have ha : decodeX g wd = need (fld wd 20 15 = 0) (.ok (.call g (fld wd 14 13) (fld wd 12 0))) := by
    unfold decodeX; rw [em]; rfl
  rw [ha]
  simp only [need, f20_15, f14_13, f12_0, if_true]

theorem RoundTrip.callb (g : Guard) (d : Nat) (b : Nat) : Statement (.callb g d b) := by
  intro h sl hs
  change (decide (g.pred < 12) && decide (d < 4) && decide (b < 4)) = true at h
  simp only [Bool.and_eq_true, decide_eq_true_eq] at h
  obtain ⟨⟨h0, h1⟩, h2⟩ := h
  obtain rfl : SlotClass.x = sl := Option.some.inj (of_decide_eq_true hs)
  have t1 : (b * 2 ^ 6 + 0) < 2 ^ 16 := lt_field (n := 4) h2 (by decide) (by decide)
  have t0 : (d * 2 ^ 16 + (b * 2 ^ 6 + 0)) < 2 ^ 21 := lt_field (n := 4) h1 t1 (by decide)
  obtain ⟨wd, hw⟩ : ∃ wd, g.neg.toNat * 2 ^ 31 + g.pred * 2 ^ 27 + 4 * 2 ^ 21 + (d * 2 ^ 16 + (b * 2 ^ 6 + 0)) = wd := ⟨_, rfl⟩
  change decodeWord .x (g.neg.toNat * 2 ^ 31 + g.pred * 2 ^ 27 + 4 * 2 ^ 21 + (d * 2 ^ 16 + (b * 2 ^ 6 + 0))) = _
  rw [hw, decodeWord_op .x g 4 _ wd h0 (by decide) t0 (by decide) hw]
  change decodeX g wd = _
  have em := fld_major g 4 _ wd (by decide) t0 hw
  have f20_18 : fld wd 20 18 = 0 := (fld_body g 4 _ wd 20 18 (by decide) (by decide) hw).trans (fld_above (lt_field (n := 4) h1 t1 (by decide)))
  have f15_8 : fld wd 15 8 = 0 := (fld_body g 4 _ wd 15 8 (by decide) (by decide) hw).trans ((fld_below (by decide) (by decide)).trans (fld_above (lt_field (n := 4) h2 (by decide) (by decide))))
  have f5_0 : fld wd 5 0 = 0 := (fld_body g 4 _ wd 5 0 (by decide) (by decide) hw).trans ((fld_below (by decide) (by decide)).trans ((fld_below (by decide) (by decide)).trans (by decide)))
  have f17_16 : fld wd 17 16 = d := (fld_body g 4 _ wd 17 16 (by decide) (by decide) hw).trans (fld_here (n := 4) h1 t1 (by decide))
  have f7_6 : fld wd 7 6 = b := (fld_body g 4 _ wd 7 6 (by decide) (by decide) hw).trans ((fld_below (by decide) (by decide)).trans (fld_here (n := 4) h2 (by decide) (by decide)))
  have ha : decodeX g wd = need (fld wd 20 18 = 0 ∧ fld wd 15 8 = 0 ∧ fld wd 5 0 = 0) (.ok (.callb g (fld wd 17 16) (fld wd 7 6))) := by
    unfold decodeX; rw [em]; rfl
  rw [ha]
  simp only [need, f20_18, f15_8, f5_0, f17_16, f7_6, and_self, if_true]

theorem RoundTrip.loop (g : Guard) (a : Nat) (t : Nat) : Statement (.loop g a t) := by
  intro h sl hs
  change (decide (g.pred < 12) && decide (a < 32) && decide (t < 8192)) = true at h
  simp only [Bool.and_eq_true, decide_eq_true_eq] at h
  obtain ⟨⟨h0, h1⟩, h2⟩ := h
  obtain rfl : SlotClass.x = sl := Option.some.inj (of_decide_eq_true hs)
  have t1 : (t * 2 ^ 0 + 0) < 2 ^ 16 := lt_field (n := 8192) h2 (by decide) (by decide)
  have t0 : (a * 2 ^ 16 + (t * 2 ^ 0 + 0)) < 2 ^ 21 := lt_field (n := 32) h1 t1 (by decide)
  obtain ⟨wd, hw⟩ : ∃ wd, g.neg.toNat * 2 ^ 31 + g.pred * 2 ^ 27 + 5 * 2 ^ 21 + (a * 2 ^ 16 + (t * 2 ^ 0 + 0)) = wd := ⟨_, rfl⟩
  change decodeWord .x (g.neg.toNat * 2 ^ 31 + g.pred * 2 ^ 27 + 5 * 2 ^ 21 + (a * 2 ^ 16 + (t * 2 ^ 0 + 0))) = _
  rw [hw, decodeWord_op .x g 5 _ wd h0 (by decide) t0 (by decide) hw]
  change decodeX g wd = _
  have em := fld_major g 5 _ wd (by decide) t0 hw
  have f15_13 : fld wd 15 13 = 0 := (fld_body g 5 _ wd 15 13 (by decide) (by decide) hw).trans ((fld_below (by decide) (by decide)).trans (fld_above (lt_field (n := 8192) h2 (by decide) (by decide))))
  have f20_16 : fld wd 20 16 = a := (fld_body g 5 _ wd 20 16 (by decide) (by decide) hw).trans (fld_here (n := 32) h1 t1 (by decide))
  have f12_0 : fld wd 12 0 = t := (fld_body g 5 _ wd 12 0 (by decide) (by decide) hw).trans ((fld_below (by decide) (by decide)).trans (fld_here (n := 8192) h2 (by decide) (by decide)))
  have ha : decodeX g wd = need (fld wd 15 13 = 0) (.ok (.loop g (fld wd 20 16) (fld wd 12 0))) := by
    unfold decodeX; rw [em]; rfl
  rw [ha]
  simp only [need, f15_13, f20_16, f12_0, if_true]

theorem RoundTrip.mbrChain (g : Guard) (a : Nat) (b : Nat) (c : Nat) (d : Nat) : Statement (.mbrChain g a b c d) := by
  intro h sl hs
  change (decide (g.pred < 12) && decide (a < 32) && decide (a % 16 < 12) && decide (b < 32) && decide (b % 16 < 12) && decide (c < 32) && decide (c % 16 < 12) && decide (d < 32) && decide (d % 16 < 12)) = true at h
  simp only [Bool.and_eq_true, decide_eq_true_eq] at h
  obtain ⟨⟨⟨⟨⟨⟨⟨⟨h0, h1⟩, h2⟩, h3⟩, h4⟩, h5⟩, h6⟩, h7⟩, h8⟩ := h
  obtain rfl : SlotClass.x = sl := Option.some.inj (of_decide_eq_true hs)
  have t3 : (d * 2 ^ 1 + 0) < 2 ^ 6 := lt_field (n := 32) h7 (by decide) (by decide)
  have t2 : (c * 2 ^ 6 + (d * 2 ^ 1 + 0)) < 2 ^ 11 := lt_field (n := 32) h5 t3 (by decide)
  have t1 : (b * 2 ^ 11 + (c * 2 ^ 6 + (d * 2 ^ 1 + 0))) < 2 ^ 16 := lt_field (n := 32) h3 t2 (by decide)
  have t0 : (a * 2 ^ 16 + (b * 2 ^ 11 + (c * 2 ^ 6 + (d * 2 ^ 1 + 0)))) < 2 ^ 21 := lt_field (n := 32) h1 t1 (by decide)
  obtain ⟨wd, hw⟩ : ∃ wd, g.neg.toNat * 2 ^ 31 + g.pred * 2 ^ 27 + 6 * 2 ^ 21 + (a * 2 ^ 16 + (b * 2 ^ 11 + (c * 2 ^ 6 + (d * 2 ^ 1 + 0)))) = wd := ⟨_, rfl⟩
  change decodeWord .x (g.neg.toNat * 2 ^ 31 + g.pred * 2 ^ 27 + 6 * 2 ^ 21 + (a * 2 ^ 16 + (b * 2 ^ 11 + (c * 2 ^ 6 + (d * 2 ^ 1 + 0))))) = _
  rw [hw, decodeWord_op .x g 6 _ wd h0 (by decide) t0 (by decide) hw]
  change decodeX g wd = _
  have em := fld_major g 6 _ wd (by decide) t0 hw
  have f20_16 : fld wd 20 16 = a := (fld_body g 6 _ wd 20 16 (by decide) (by decide) hw).trans (fld_here (n := 32) h1 t1 (by decide))
  have f15_11 : fld wd 15 11 = b := (fld_body g 6 _ wd 15 11 (by decide) (by decide) hw).trans ((fld_below (by decide) (by decide)).trans (fld_here (n := 32) h3 t2 (by decide)))
  have f10_6 : fld wd 10 6 = c := (fld_body g 6 _ wd 10 6 (by decide) (by decide) hw).trans ((fld_below (by decide) (by decide)).trans ((fld_below (by decide) (by decide)).trans (fld_here (n := 32) h5 t3 (by decide))))
  have f5_1 : fld wd 5 1 = d := (fld_body g 6 _ wd 5 1 (by decide) (by decide) hw).trans ((fld_below (by decide) (by decide)).trans ((fld_below (by decide) (by decide)).trans ((fld_below (by decide) (by decide)).trans (fld_here (n := 32) h7 (by decide) (by decide)))))
  have f0_0 : fld wd 0 0 = 0 := (fld_body g 6 _ wd 0 0 (by decide) (by decide) hw).trans ((fld_below (by decide) (by decide)).trans ((fld_below (by decide) (by decide)).trans ((fld_below (by decide) (by decide)).trans ((fld_below (by decide) (by decide)).trans (by decide)))))
  have ha : decodeX g wd = need (fld wd 20 16 % 16 < 12 ∧ fld wd 15 11 % 16 < 12 ∧ fld wd 10 6 % 16 < 12 ∧ fld wd 5 1 % 16 < 12) (.ok (.mbrChain g (fld wd 20 16) (fld wd 15 11) (fld wd 10 6) (fld wd 5 1))) := by
    unfold decodeX; rw [em, f0_0]; rfl
  rw [ha]
  simp only [need, f20_16, f15_11, f10_6, f5_1, h2, h4, h6, h8, and_self, if_true]

theorem RoundTrip.mbrTree (g : Guard) (a : Nat) (b : Nat) (c : Nat) (d : Nat) : Statement (.mbrTree g a b c d) := by
  intro h sl hs
  change (decide (g.pred < 12) && decide (a < 32) && decide (a % 16 < 12) && decide (b < 32) && decide (b % 16 < 12) && decide (c < 32) && decide (c % 16 < 12) && decide (d < 32) && decide (d % 16 < 12)) = true at h
  simp only [Bool.and_eq_true, decide_eq_true_eq] at h
  obtain ⟨⟨⟨⟨⟨⟨⟨⟨h0, h1⟩, h2⟩, h3⟩, h4⟩, h5⟩, h6⟩, h7⟩, h8⟩ := h
  obtain rfl : SlotClass.x = sl := Option.some.inj (of_decide_eq_true hs)
  have t4 : (1 * 2 ^ 0 + 0) < 2 ^ 1 := lt_field (n := 2) (Nat.lt_succ_self 1) (by decide) (by decide)
  have t3 : (d * 2 ^ 1 + (1 * 2 ^ 0 + 0)) < 2 ^ 6 := lt_field (n := 32) h7 t4 (by decide)
  have t2 : (c * 2 ^ 6 + (d * 2 ^ 1 + (1 * 2 ^ 0 + 0))) < 2 ^ 11 := lt_field (n := 32) h5 t3 (by decide)
  have t1 : (b * 2 ^ 11 + (c * 2 ^ 6 + (d * 2 ^ 1 + (1 * 2 ^ 0 + 0)))) < 2 ^ 16 := lt_field (n := 32) h3 t2 (by decide)
  have t0 : (a * 2 ^ 16 + (b * 2 ^ 11 + (c * 2 ^ 6 + (d * 2 ^ 1 + (1 * 2 ^ 0 + 0))))) < 2 ^ 21 := lt_field (n := 32) h1 t1 (by decide)
  obtain ⟨wd, hw⟩ : ∃ wd, g.neg.toNat * 2 ^ 31 + g.pred * 2 ^ 27 + 6 * 2 ^ 21 + (a * 2 ^ 16 + (b * 2 ^ 11 + (c * 2 ^ 6 + (d * 2 ^ 1 + (1 * 2 ^ 0 + 0))))) = wd := ⟨_, rfl⟩
  change decodeWord .x (g.neg.toNat * 2 ^ 31 + g.pred * 2 ^ 27 + 6 * 2 ^ 21 + (a * 2 ^ 16 + (b * 2 ^ 11 + (c * 2 ^ 6 + (d * 2 ^ 1 + (1 * 2 ^ 0 + 0)))))) = _
  rw [hw, decodeWord_op .x g 6 _ wd h0 (by decide) t0 (by decide) hw]
  change decodeX g wd = _
  have em := fld_major g 6 _ wd (by decide) t0 hw
  have f20_16 : fld wd 20 16 = a := (fld_body g 6 _ wd 20 16 (by decide) (by decide) hw).trans (fld_here (n := 32) h1 t1 (by decide))
  have f15_11 : fld wd 15 11 = b := (fld_body g 6 _ wd 15 11 (by decide) (by decide) hw).trans ((fld_below (by decide) (by decide)).trans (fld_here (n := 32) h3 t2 (by decide)))
  have f10_6 : fld wd 10 6 = c := (fld_body g 6 _ wd 10 6 (by decide) (by decide) hw).trans ((fld_below (by decide) (by decide)).trans ((fld_below (by decide) (by decide)).trans (fld_here (n := 32) h5 t3 (by decide))))
  have f5_1 : fld wd 5 1 = d := (fld_body g 6 _ wd 5 1 (by decide) (by decide) hw).trans ((fld_below (by decide) (by decide)).trans ((fld_below (by decide) (by decide)).trans ((fld_below (by decide) (by decide)).trans (fld_here (n := 32) h7 t4 (by decide)))))
  have f0_0 : fld wd 0 0 = 1 := (fld_body g 6 _ wd 0 0 (by decide) (by decide) hw).trans ((fld_below (by decide) (by decide)).trans ((fld_below (by decide) (by decide)).trans ((fld_below (by decide) (by decide)).trans ((fld_below (by decide) (by decide)).trans (fld_here (n := 2) (Nat.lt_succ_self 1) (by decide) (by decide))))))
  have ha : decodeX g wd = need (fld wd 20 16 % 16 < 12 ∧ fld wd 15 11 % 16 < 12 ∧ fld wd 10 6 % 16 < 12 ∧ fld wd 5 1 % 16 < 12) (.ok (.mbrTree g (fld wd 20 16) (fld wd 15 11) (fld wd 10 6) (fld wd 5 1))) := by
    unfold decodeX; rw [em, f0_0]; rfl
  rw [ha]
  simp only [need, f20_16, f15_11, f10_6, f5_1, h2, h4, h6, h8, and_self, if_true]

theorem RoundTrip.waitt (g : Guard) (a : Nat) (i : Nat) : Statement (.waitt g a i) := by
  intro h sl hs
  change (decide (g.pred < 12) && decide (a < 32) && decide (i < 65536)) = true at h
  simp only [Bool.and_eq_true, decide_eq_true_eq] at h
  obtain ⟨⟨h0, h1⟩, h2⟩ := h
  obtain rfl : SlotClass.x = sl := Option.some.inj (of_decide_eq_true hs)
  have t1 : (i * 2 ^ 0 + 0) < 2 ^ 16 := lt_field (n := 65536) h2 (by decide) (by decide)
  have t0 : (a * 2 ^ 16 + (i * 2 ^ 0 + 0)) < 2 ^ 21 := lt_field (n := 32) h1 t1 (by decide)
  obtain ⟨wd, hw⟩ : ∃ wd, g.neg.toNat * 2 ^ 31 + g.pred * 2 ^ 27 + 7 * 2 ^ 21 + (a * 2 ^ 16 + (i * 2 ^ 0 + 0)) = wd := ⟨_, rfl⟩
  change decodeWord .x (g.neg.toNat * 2 ^ 31 + g.pred * 2 ^ 27 + 7 * 2 ^ 21 + (a * 2 ^ 16 + (i * 2 ^ 0 + 0))) = _
  rw [hw, decodeWord_op .x g 7 _ wd h0 (by decide) t0 (by decide) hw]
  change decodeX g wd = _
  have em := fld_major g 7 _ wd (by decide) t0 hw
  have f20_16 : fld wd 20 16 = a := (fld_body g 7 _ wd 20 16 (by decide) (by decide) hw).trans (fld_here (n := 32) h1 t1 (by decide))
  have f15_0 : fld wd 15 0 = i := (fld_body g 7 _ wd 15 0 (by decide) (by decide) hw).trans ((fld_below (by decide) (by decide)).trans (fld_here (n := 65536) h2 (by decide) (by decide)))
  have ha : decodeX g wd = .ok (.waitt g (fld wd 20 16) (fld wd 15 0)) := by
    unfold decodeX; rw [em]; rfl
  rw [ha]
  rw [f20_16, f15_0]

theorem RoundTrip.waitd (g : Guard) (i : Nat) : Statement (.waitd g i) := by
  intro h sl hs
  change (decide (g.pred < 12) && decide (i < 65536)) = true at h
  simp only [Bool.and_eq_true, decide_eq_true_eq] at h
  obtain ⟨h0, h1⟩ := h
  obtain rfl : SlotClass.x = sl := Option.some.inj (of_decide_eq_true hs)
  have t0 : (i * 2 ^ 0 + 0) < 2 ^ 21 := lt_field (n := 65536) h1 (by decide) (by decide)
  obtain ⟨wd, hw⟩ : ∃ wd, g.neg.toNat * 2 ^ 31 + g.pred * 2 ^ 27 + 8 * 2 ^ 21 + (i * 2 ^ 0 + 0) = wd := ⟨_, rfl⟩
  change decodeWord .x (g.neg.toNat * 2 ^ 31 + g.pred * 2 ^ 27 + 8 * 2 ^ 21 + (i * 2 ^ 0 + 0)) = _
  rw [hw, decodeWord_op .x g 8 _ wd h0 (by decide) t0 (by decide) hw]
  change decodeX g wd = _
  have em := fld_major g 8 _ wd (by decide) t0 hw
  have f20_16 : fld wd 20 16 = 0 := (fld_body g 8 _ wd 20 16 (by decide) (by decide) hw).trans (fld_above (lt_field (n := 65536) h1 (by decide) (by decide)))
  have f15_0 : fld wd 15 0 = i := (fld_body g 8 _ wd 15 0 (by decide) (by decide) hw).trans (fld_here (n := 65536) h1 (by decide) (by decide))
  have ha : decodeX g wd = need (fld wd 20 16 = 0) (.ok (.waitd g (fld wd 15 0))) := by
    unfold decodeX; rw [em]; rfl
  rw [ha]
  simp only [need, f20_16, f15_0, if_true]

theorem RoundTrip.nxt (g : Guard) : Statement (.nxt g) := by
  intro h sl hs
  change (decide (g.pred < 12)) = true at h
  simp only [decide_eq_true_eq] at h
  have h0 := h
  obtain rfl : SlotClass.x = sl := Option.some.inj (of_decide_eq_true hs)
  have t0 : 0 < 2 ^ 21 := by decide
  obtain ⟨wd, hw⟩ : ∃ wd, g.neg.toNat * 2 ^ 31 + g.pred * 2 ^ 27 + 9 * 2 ^ 21 + 0 = wd := ⟨_, rfl⟩
  change decodeWord .x (g.neg.toNat * 2 ^ 31 + g.pred * 2 ^ 27 + 9 * 2 ^ 21 + 0) = _
  rw [hw, decodeWord_op .x g 9 _ wd h0 (by decide) t0 (by decide) hw]
  change decodeX g wd = _
  have em := fld_major g 9 _ wd (by decide) t0 hw
  have f20_0 : fld wd 20 0 = 0 := (fld_body g 9 _ wd 20 0 (by decide) (by decide) hw).trans (by decide)
  have ha : decodeX g wd = need (fld wd 20 0 = 0) (.ok (.nxt g)) := by
    unfold decodeX; rw [em]; rfl
  rw [ha]
  simp only [need, f20_0, if_true]

theorem RoundTrip.trap (g : Guard) (i : Nat) : Statement (.trap g i) := by
  intro h sl hs
  change (decide (g.pred < 12) && decide (i < 65536)) = true at h
  simp only [Bool.and_eq_true, decide_eq_true_eq] at h
  obtain ⟨h0, h1⟩ := h
  obtain rfl : SlotClass.x = sl := Option.some.inj (of_decide_eq_true hs)
  have t0 : (i * 2 ^ 0 + 0) < 2 ^ 21 := lt_field (n := 65536) h1 (by decide) (by decide)
  obtain ⟨wd, hw⟩ : ∃ wd, g.neg.toNat * 2 ^ 31 + g.pred * 2 ^ 27 + 10 * 2 ^ 21 + (i * 2 ^ 0 + 0) = wd := ⟨_, rfl⟩
  change decodeWord .x (g.neg.toNat * 2 ^ 31 + g.pred * 2 ^ 27 + 10 * 2 ^ 21 + (i * 2 ^ 0 + 0)) = _
  rw [hw, decodeWord_op .x g 10 _ wd h0 (by decide) t0 (by decide) hw]
  change decodeX g wd = _
  have em := fld_major g 10 _ wd (by decide) t0 hw
  have f20_16 : fld wd 20 16 = 0 := (fld_body g 10 _ wd 20 16 (by decide) (by decide) hw).trans (fld_above (lt_field (n := 65536) h1 (by decide) (by decide)))
  have f15_0 : fld wd 15 0 = i := (fld_body g 10 _ wd 15 0 (by decide) (by decide) hw).trans (fld_here (n := 65536) h1 (by decide) (by decide))
  have ha : decodeX g wd = need (fld wd 20 16 = 0) (.ok (.trap g (fld wd 15 0))) := by
    unfold decodeX; rw [em]; rfl
  rw [ha]
  simp only [need, f20_16, f15_0, if_true]

theorem RoundTrip.brk (g : Guard) (i : Nat) : Statement (.brk g i) := by
  intro h sl hs
  change (decide (g.pred < 12) && decide (i < 65536)) = true at h
  simp only [Bool.and_eq_true, decide_eq_true_eq] at h
  obtain ⟨h0, h1⟩ := h
  obtain rfl : SlotClass.x = sl := Option.some.inj (of_decide_eq_true hs)
  have t0 : (i * 2 ^ 0 + 0) < 2 ^ 21 := lt_field (n := 65536) h1 (by decide) (by decide)
  obtain ⟨wd, hw⟩ : ∃ wd, g.neg.toNat * 2 ^ 31 + g.pred * 2 ^ 27 + 11 * 2 ^ 21 + (i * 2 ^ 0 + 0) = wd := ⟨_, rfl⟩
  change decodeWord .x (g.neg.toNat * 2 ^ 31 + g.pred * 2 ^ 27 + 11 * 2 ^ 21 + (i * 2 ^ 0 + 0)) = _
  rw [hw, decodeWord_op .x g 11 _ wd h0 (by decide) t0 (by decide) hw]
  change decodeX g wd = _
  have em := fld_major g 11 _ wd (by decide) t0 hw
  have f20_16 : fld wd 20 16 = 0 := (fld_body g 11 _ wd 20 16 (by decide) (by decide) hw).trans (fld_above (lt_field (n := 65536) h1 (by decide) (by decide)))
  have f15_0 : fld wd 15 0 = i := (fld_body g 11 _ wd 15 0 (by decide) (by decide) hw).trans (fld_here (n := 65536) h1 (by decide) (by decide))
  have ha : decodeX g wd = need (fld wd 20 16 = 0) (.ok (.brk g (fld wd 15 0))) := by
    unfold decodeX; rw [em]; rfl
  rw [ha]
  simp only [need, f20_16, f15_0, if_true]

theorem RoundTrip.cbar (g : Guard) (c : Nat) : Statement (.cbar g c) := by
  intro h sl hs
  change (decide (g.pred < 12) && decide (c < 256) && barrierCode c) = true at h
  simp only [Bool.and_eq_true, decide_eq_true_eq] at h
  obtain ⟨⟨h0, h1⟩, h2⟩ := h
  obtain rfl : SlotClass.x = sl := Option.some.inj (of_decide_eq_true hs)
  have t0 : (c * 2 ^ 0 + 0) < 2 ^ 21 := lt_field (n := 256) h1 (by decide) (by decide)
  obtain ⟨wd, hw⟩ : ∃ wd, g.neg.toNat * 2 ^ 31 + g.pred * 2 ^ 27 + 12 * 2 ^ 21 + (c * 2 ^ 0 + 0) = wd := ⟨_, rfl⟩
  change decodeWord .x (g.neg.toNat * 2 ^ 31 + g.pred * 2 ^ 27 + 12 * 2 ^ 21 + (c * 2 ^ 0 + 0)) = _
  rw [hw, decodeWord_op .x g 12 _ wd h0 (by decide) t0 (by decide) hw]
  change decodeX g wd = _
  have em := fld_major g 12 _ wd (by decide) t0 hw
  have f20_16 : fld wd 20 16 = 0 := (fld_body g 12 _ wd 20 16 (by decide) (by decide) hw).trans (fld_above (lt_field (n := 256) h1 (by decide) (by decide)))
  have f14_8 : fld wd 14 8 = 0 := (fld_body g 12 _ wd 14 8 (by decide) (by decide) hw).trans (fld_above (lt_field (n := 256) h1 (by decide) (by decide)))
  have f7_0 : fld wd 7 0 = c := (fld_body g 12 _ wd 7 0 (by decide) (by decide) hw).trans (fld_here (n := 256) h1 (by decide) (by decide))
  have f15_15 : fld wd 15 15 = 0 := (fld_body g 12 _ wd 15 15 (by decide) (by decide) hw).trans (fld_above (lt_field (n := 256) h1 (by decide) (by decide)))
  have ha : decodeX g wd = need (fld wd 20 16 = 0 ∧ fld wd 14 8 = 0 ∧ barrierCode (fld wd 7 0)) (.ok (.cbar g (fld wd 7 0))) := by
    unfold decodeX; rw [em, f15_15]; rfl
  rw [ha]
  simp only [need, f20_16, f14_8, f7_0, h2, and_self, if_true]

theorem RoundTrip.cbarNw (g : Guard) (c : Nat) : Statement (.cbarNw g c) := by
  intro h sl hs
  change (decide (g.pred < 12) && decide (c < 256) && barrierCode c) = true at h
  simp only [Bool.and_eq_true, decide_eq_true_eq] at h
  obtain ⟨⟨h0, h1⟩, h2⟩ := h
  obtain rfl : SlotClass.x = sl := Option.some.inj (of_decide_eq_true hs)
  have t0 : (c * 2 ^ 0 + (1 * 2 ^ 15 + 0)) < 2 ^ 21 := by omega
  obtain ⟨wd, hw⟩ : ∃ wd, g.neg.toNat * 2 ^ 31 + g.pred * 2 ^ 27 + 12 * 2 ^ 21 + (c * 2 ^ 0 + (1 * 2 ^ 15 + 0)) = wd := ⟨_, rfl⟩
  change decodeWord .x (g.neg.toNat * 2 ^ 31 + g.pred * 2 ^ 27 + 12 * 2 ^ 21 + (c * 2 ^ 0 + (1 * 2 ^ 15 + 0))) = _
  rw [hw, decodeWord_op .x g 12 _ wd h0 (by decide) t0 (by decide) hw]
  change decodeX g wd = _
  have em := fld_major g 12 _ wd (by decide) t0 hw
  have f20_16 : fld wd 20 16 = 0 := (fld_body g 12 _ wd 20 16 (by decide) (by decide) hw).trans (by simp only [fld]; omega)
  have f14_8 : fld wd 14 8 = 0 := (fld_body g 12 _ wd 14 8 (by decide) (by decide) hw).trans (by simp only [fld]; omega)
  have f7_0 : fld wd 7 0 = c := (fld_body g 12 _ wd 7 0 (by decide) (by decide) hw).trans (by simp only [fld]; omega)
  have f15_15 : fld wd 15 15 = 1 := (fld_body g 12 _ wd 15 15 (by decide) (by decide) hw).trans (by simp only [fld]; omega)
  have ha : decodeX g wd = need (fld wd 20 16 = 0 ∧ fld wd 14 8 = 0 ∧ barrierCode (fld wd 7 0)) (.ok (.cbarNw g (fld wd 7 0))) := by
    unfold decodeX; rw [em, f15_15]; rfl
  rw [ha]
  simp only [need, f20_16, f14_8, f7_0, h2, and_self, if_true]

theorem RoundTrip.dbar (g : Guard) : Statement (.dbar g) := by
  intro h sl hs
  change (decide (g.pred < 12)) = true at h
  simp only [decide_eq_true_eq] at h
  have h0 := h
  obtain rfl : SlotClass.x = sl := Option.some.inj (of_decide_eq_true hs)
  have t0 : 0 < 2 ^ 21 := by decide
  obtain ⟨wd, hw⟩ : ∃ wd, g.neg.toNat * 2 ^ 31 + g.pred * 2 ^ 27 + 13 * 2 ^ 21 + 0 = wd := ⟨_, rfl⟩
  change decodeWord .x (g.neg.toNat * 2 ^ 31 + g.pred * 2 ^ 27 + 13 * 2 ^ 21 + 0) = _
  rw [hw, decodeWord_op .x g 13 _ wd h0 (by decide) t0 (by decide) hw]
  change decodeX g wd = _
  have em := fld_major g 13 _ wd (by decide) t0 hw
  have f20_16 : fld wd 20 16 = 0 := (fld_body g 13 _ wd 20 16 (by decide) (by decide) hw).trans (by decide)
  have f14_0 : fld wd 14 0 = 0 := (fld_body g 13 _ wd 14 0 (by decide) (by decide) hw).trans (by decide)
  have f15_15 : fld wd 15 15 = 0 := (fld_body g 13 _ wd 15 15 (by decide) (by decide) hw).trans (by decide)
  have ha : decodeX g wd = need (fld wd 20 16 = 0 ∧ fld wd 14 0 = 0) (.ok (.dbar g)) := by
    unfold decodeX; rw [em, f15_15]; rfl
  rw [ha]
  simp only [need, f20_16, f14_0, and_self, if_true]

theorem RoundTrip.dbarNw (g : Guard) : Statement (.dbarNw g) := by
  intro h sl hs
  change (decide (g.pred < 12)) = true at h
  simp only [decide_eq_true_eq] at h
  have h0 := h
  obtain rfl : SlotClass.x = sl := Option.some.inj (of_decide_eq_true hs)
  have t0 : (1 * 2 ^ 15 + 0) < 2 ^ 21 := lt_field (n := 2) (Nat.lt_succ_self 1) (by decide) (by decide)
  obtain ⟨wd, hw⟩ : ∃ wd, g.neg.toNat * 2 ^ 31 + g.pred * 2 ^ 27 + 13 * 2 ^ 21 + (1 * 2 ^ 15 + 0) = wd := ⟨_, rfl⟩
  change decodeWord .x (g.neg.toNat * 2 ^ 31 + g.pred * 2 ^ 27 + 13 * 2 ^ 21 + (1 * 2 ^ 15 + 0)) = _
  rw [hw, decodeWord_op .x g 13 _ wd h0 (by decide) t0 (by decide) hw]
  change decodeX g wd = _
  have em := fld_major g 13 _ wd (by decide) t0 hw
  have f20_16 : fld wd 20 16 = 0 := (fld_body g 13 _ wd 20 16 (by decide) (by decide) hw).trans (fld_above (lt_field (n := 2) (Nat.lt_succ_self 1) (by decide) (by decide)))
  have f14_0 : fld wd 14 0 = 0 := (fld_body g 13 _ wd 14 0 (by decide) (by decide) hw).trans ((fld_below (by decide) (by decide)).trans (by decide))
  have f15_15 : fld wd 15 15 = 1 := (fld_body g 13 _ wd 15 15 (by decide) (by decide) hw).trans (fld_here (n := 2) (Nat.lt_succ_self 1) (by decide) (by decide))
  have ha : decodeX g wd = need (fld wd 20 16 = 0 ∧ fld wd 14 0 = 0) (.ok (.dbarNw g)) := by
    unfold decodeX; rw [em, f15_15]; rfl
  rw [ha]
  simp only [need, f20_16, f14_0, and_self, if_true]

theorem RoundTrip.ssb (g : Guard) : Statement (.ssb g) := by
  intro h sl hs
  change (decide (g.pred < 12)) = true at h
  simp only [decide_eq_true_eq] at h
  have h0 := h
  obtain rfl : SlotClass.x = sl := Option.some.inj (of_decide_eq_true hs)
  have t0 : 0 < 2 ^ 21 := by decide
  obtain ⟨wd, hw⟩ : ∃ wd, g.neg.toNat * 2 ^ 31 + g.pred * 2 ^ 27 + 14 * 2 ^ 21 + 0 = wd := ⟨_, rfl⟩
  change decodeWord .x (g.neg.toNat * 2 ^ 31 + g.pred * 2 ^ 27 + 14 * 2 ^ 21 + 0) = _
  rw [hw, decodeWord_op .x g 14 _ wd h0 (by decide) t0 (by decide) hw]
  change decodeX g wd = _
  have em := fld_major g 14 _ wd (by decide) t0 hw
  have f20_16 : fld wd 20 16 = 0 := (fld_body g 14 _ wd 20 16 (by decide) (by decide) hw).trans (by decide)
  have f14_0 : fld wd 14 0 = 0 := (fld_body g 14 _ wd 14 0 (by decide) (by decide) hw).trans (by decide)
  have f15_15 : fld wd 15 15 = 0 := (fld_body g 14 _ wd 15 15 (by decide) (by decide) hw).trans (by decide)
  have ha : decodeX g wd = need (fld wd 20 16 = 0 ∧ fld wd 14 0 = 0) (.ok (.ssb g)) := by
    unfold decodeX; rw [em, f15_15]; rfl
  rw [ha]
  simp only [need, f20_16, f14_0, and_self, if_true]

theorem RoundTrip.ssbNw (g : Guard) : Statement (.ssbNw g) := by
  intro h sl hs
  change (decide (g.pred < 12)) = true at h
  simp only [decide_eq_true_eq] at h
  have h0 := h
  obtain rfl : SlotClass.x = sl := Option.some.inj (of_decide_eq_true hs)
  have t0 : (1 * 2 ^ 15 + 0) < 2 ^ 21 := lt_field (n := 2) (Nat.lt_succ_self 1) (by decide) (by decide)
  obtain ⟨wd, hw⟩ : ∃ wd, g.neg.toNat * 2 ^ 31 + g.pred * 2 ^ 27 + 14 * 2 ^ 21 + (1 * 2 ^ 15 + 0) = wd := ⟨_, rfl⟩
  change decodeWord .x (g.neg.toNat * 2 ^ 31 + g.pred * 2 ^ 27 + 14 * 2 ^ 21 + (1 * 2 ^ 15 + 0)) = _
  rw [hw, decodeWord_op .x g 14 _ wd h0 (by decide) t0 (by decide) hw]
  change decodeX g wd = _
  have em := fld_major g 14 _ wd (by decide) t0 hw
  have f20_16 : fld wd 20 16 = 0 := (fld_body g 14 _ wd 20 16 (by decide) (by decide) hw).trans (fld_above (lt_field (n := 2) (Nat.lt_succ_self 1) (by decide) (by decide)))
  have f14_0 : fld wd 14 0 = 0 := (fld_body g 14 _ wd 14 0 (by decide) (by decide) hw).trans ((fld_below (by decide) (by decide)).trans (by decide))
  have f15_15 : fld wd 15 15 = 1 := (fld_body g 14 _ wd 15 15 (by decide) (by decide) hw).trans (fld_here (n := 2) (Nat.lt_succ_self 1) (by decide) (by decide))
  have ha : decodeX g wd = need (fld wd 20 16 = 0 ∧ fld wd 14 0 = 0) (.ok (.ssbNw g)) := by
    unfold decodeX; rw [em, f15_15]; rfl
  rw [ha]
  simp only [need, f20_16, f14_0, and_self, if_true]

theorem RoundTrip.bstatSub (g : Guard) (d : Nat) (c : Nat) : Statement (.bstatSub g d c) := by
  intro h sl hs
  change (decide (g.pred < 12) && decide (d < 12) && decide (c < 256) && barrierCode c) = true at h
  simp only [Bool.and_eq_true, decide_eq_true_eq] at h
  obtain ⟨⟨⟨h0, h1⟩, h2⟩, h3⟩ := h
  obtain rfl : SlotClass.x = sl := Option.some.inj (of_decide_eq_true hs)
  have t1 : (c * 2 ^ 0 + 0) < 2 ^ 16 := lt_field (n := 256) h2 (by decide) (by decide)
  have t0 : (d * 2 ^ 16 + (c * 2 ^ 0 + 0)) < 2 ^ 21 := lt_field (n := 12) h1 t1 (by decide)
  obtain ⟨wd, hw⟩ : ∃ wd, g.neg.toNat * 2 ^ 31 + g.pred * 2 ^ 27 + 15 * 2 ^ 21 + (d * 2 ^ 16 + (c * 2 ^ 0 + 0)) = wd := ⟨_, rfl⟩
  change decodeWord .x (g.neg.toNat * 2 ^ 31 + g.pred * 2 ^ 27 + 15 * 2 ^ 21 + (d * 2 ^ 16 + (c * 2 ^ 0 + 0))) = _
  rw [hw, decodeWord_op .x g 15 _ wd h0 (by decide) t0 (by decide) hw]
  change decodeX g wd = _
  have em := fld_major g 15 _ wd (by decide) t0 hw
  have f20_20 : fld wd 20 20 = 0 := (fld_body g 15 _ wd 20 20 (by decide) (by decide) hw).trans (fld_above (lt_field (n := 12) h1 t1 (by decide)))
  have f15_14 : fld wd 15 14 = 0 := (fld_body g 15 _ wd 15 14 (by decide) (by decide) hw).trans ((fld_below (by decide) (by decide)).trans (fld_above (lt_field (n := 256) h2 (by decide) (by decide))))
  have f11_8 : fld wd 11 8 = 0 := (fld_body g 15 _ wd 11 8 (by decide) (by decide) hw).trans ((fld_below (by decide) (by decide)).trans (fld_above (lt_field (n := 256) h2 (by decide) (by decide))))
  have f19_16 : fld wd 19 16 = d := (fld_body g 15 _ wd 19 16 (by decide) (by decide) hw).trans (fld_here (n := 12) h1 t1 (by decide))
  have f7_0 : fld wd 7 0 = c := (fld_body g 15 _ wd 7 0 (by decide) (by decide) hw).trans ((fld_below (by decide) (by decide)).trans (fld_here (n := 256) h2 (by decide) (by decide)))
  have f13_12 : fld wd 13 12 = 0 := (fld_body g 15 _ wd 13 12 (by decide) (by decide) hw).trans ((fld_below (by decide) (by decide)).trans (fld_above (lt_field (n := 256) h2 (by decide) (by decide))))
  have ha : decodeX g wd = need (fld wd 20 20 = 0 ∧ fld wd 15 14 = 0 ∧ fld wd 11 8 = 0 ∧ fld wd 19 16 < 12 ∧ barrierCode (fld wd 7 0)) (.ok (.bstatSub g (fld wd 19 16) (fld wd 7 0))) := by
    unfold decodeX; rw [em, f13_12]; rfl
  rw [ha]
  simp only [need, f20_20, f15_14, f11_8, f19_16, f7_0, h1, h3, and_self, if_true]

theorem RoundTrip.bstatDie (g : Guard) (d : Nat) : Statement (.bstatDie g d) := by
  intro h sl hs
  change (decide (g.pred < 12) && decide (d < 12)) = true at h
  simp only [Bool.and_eq_true, decide_eq_true_eq] at h
  obtain ⟨h0, h1⟩ := h
  obtain rfl : SlotClass.x = sl := Option.some.inj (of_decide_eq_true hs)
  have t1 : (1 * 2 ^ 12 + 0) < 2 ^ 16 := lt_field (n := 2) (Nat.lt_succ_self 1) (by decide) (by decide)
  have t0 : (d * 2 ^ 16 + (1 * 2 ^ 12 + 0)) < 2 ^ 21 := lt_field (n := 12) h1 t1 (by decide)
  obtain ⟨wd, hw⟩ : ∃ wd, g.neg.toNat * 2 ^ 31 + g.pred * 2 ^ 27 + 15 * 2 ^ 21 + (d * 2 ^ 16 + (1 * 2 ^ 12 + 0)) = wd := ⟨_, rfl⟩
  change decodeWord .x (g.neg.toNat * 2 ^ 31 + g.pred * 2 ^ 27 + 15 * 2 ^ 21 + (d * 2 ^ 16 + (1 * 2 ^ 12 + 0))) = _
  rw [hw, decodeWord_op .x g 15 _ wd h0 (by decide) t0 (by decide) hw]
  change decodeX g wd = _
  have em := fld_major g 15 _ wd (by decide) t0 hw
  have f20_20 : fld wd 20 20 = 0 := (fld_body g 15 _ wd 20 20 (by decide) (by decide) hw).trans (fld_above (lt_field (n := 12) h1 t1 (by decide)))
  have f15_14 : fld wd 15 14 = 0 := (fld_body g 15 _ wd 15 14 (by decide) (by decide) hw).trans ((fld_below (by decide) (by decide)).trans (fld_above (lt_field (n := 2) (Nat.lt_succ_self 1) (by decide) (by decide))))
  have f11_0 : fld wd 11 0 = 0 := (fld_body g 15 _ wd 11 0 (by decide) (by decide) hw).trans ((fld_below (by decide) (by decide)).trans ((fld_below (by decide) (by decide)).trans (by decide)))
  have f19_16 : fld wd 19 16 = d := (fld_body g 15 _ wd 19 16 (by decide) (by decide) hw).trans (fld_here (n := 12) h1 t1 (by decide))
  have f13_12 : fld wd 13 12 = 1 := (fld_body g 15 _ wd 13 12 (by decide) (by decide) hw).trans ((fld_below (by decide) (by decide)).trans (fld_here (n := 2) (Nat.lt_succ_self 1) (by decide) (by decide)))
  have ha : decodeX g wd = need (fld wd 20 20 = 0 ∧ fld wd 15 14 = 0 ∧ fld wd 11 0 = 0 ∧ fld wd 19 16 < 12) (.ok (.bstatDie g (fld wd 19 16))) := by
    unfold decodeX; rw [em, f13_12]; rfl
  rw [ha]
  simp only [need, f20_20, f15_14, f11_0, f19_16, h1, and_self, if_true]

theorem RoundTrip.bstatSs (g : Guard) (d : Nat) : Statement (.bstatSs g d) := by
  intro h sl hs
  change (decide (g.pred < 12) && decide (d < 12)) = true at h
  simp only [Bool.and_eq_true, decide_eq_true_eq] at h
  obtain ⟨h0, h1⟩ := h
  obtain rfl : SlotClass.x = sl := Option.some.inj (of_decide_eq_true hs)
  have t1 : (1 * 2 ^ 13 + 0) < 2 ^ 16 := lt_field (n := 2) (Nat.lt_succ_self 1) (by decide) (by decide)
  have t0 : (d * 2 ^ 16 + (1 * 2 ^ 13 + 0)) < 2 ^ 21 := lt_field (n := 12) h1 t1 (by decide)
  obtain ⟨wd, hw⟩ : ∃ wd, g.neg.toNat * 2 ^ 31 + g.pred * 2 ^ 27 + 15 * 2 ^ 21 + (d * 2 ^ 16 + (1 * 2 ^ 13 + 0)) = wd := ⟨_, rfl⟩
  change decodeWord .x (g.neg.toNat * 2 ^ 31 + g.pred * 2 ^ 27 + 15 * 2 ^ 21 + (d * 2 ^ 16 + (1 * 2 ^ 13 + 0))) = _
  rw [hw, decodeWord_op .x g 15 _ wd h0 (by decide) t0 (by decide) hw]
  change decodeX g wd = _
  have em := fld_major g 15 _ wd (by decide) t0 hw
  have f20_20 : fld wd 20 20 = 0 := (fld_body g 15 _ wd 20 20 (by decide) (by decide) hw).trans (fld_above (lt_field (n := 12) h1 t1 (by decide)))
  have f15_14 : fld wd 15 14 = 0 := (fld_body g 15 _ wd 15 14 (by decide) (by decide) hw).trans ((fld_below (by decide) (by decide)).trans (fld_above (lt_field (n := 2) (Nat.lt_succ_self 1) (by decide) (by decide))))
  have f11_0 : fld wd 11 0 = 0 := (fld_body g 15 _ wd 11 0 (by decide) (by decide) hw).trans ((fld_below (by decide) (by decide)).trans ((fld_below (by decide) (by decide)).trans (by decide)))
  have f19_16 : fld wd 19 16 = d := (fld_body g 15 _ wd 19 16 (by decide) (by decide) hw).trans (fld_here (n := 12) h1 t1 (by decide))
  have f13_12 : fld wd 13 12 = 2 := (fld_body g 15 _ wd 13 12 (by decide) (by decide) hw).trans ((fld_below (by decide) (by decide)).trans (by decide))
  have ha : decodeX g wd = need (fld wd 20 20 = 0 ∧ fld wd 15 14 = 0 ∧ fld wd 11 0 = 0 ∧ fld wd 19 16 < 12) (.ok (.bstatSs g (fld wd 19 16))) := by
    unfold decodeX; rw [em, f13_12]; rfl
  rw [ha]
  simp only [need, f20_20, f15_14, f11_0, f19_16, h1, and_self, if_true]

theorem RoundTrip.tmge (g : Guard) (d : Nat) (a : Nat) : Statement (.tmge g d a) := by
  intro h sl hs
  change (decide (g.pred < 12) && decide (d < 12) && decide (a < 32)) = true at h
  simp only [Bool.and_eq_true, decide_eq_true_eq] at h
  obtain ⟨⟨h0, h1⟩, h2⟩ := h
  obtain rfl : SlotClass.x = sl := Option.some.inj (of_decide_eq_true hs)
  have t1 : (a * 2 ^ 11 + 0) < 2 ^ 16 := lt_field (n := 32) h2 (by decide) (by decide)
  have t0 : (d * 2 ^ 16 + (a * 2 ^ 11 + 0)) < 2 ^ 21 := lt_field (n := 12) h1 t1 (by decide)
  obtain ⟨wd, hw⟩ : ∃ wd, g.neg.toNat * 2 ^ 31 + g.pred * 2 ^ 27 + 16 * 2 ^ 21 + (d * 2 ^ 16 + (a * 2 ^ 11 + 0)) = wd := ⟨_, rfl⟩
  change decodeWord .x (g.neg.toNat * 2 ^ 31 + g.pred * 2 ^ 27 + 16 * 2 ^ 21 + (d * 2 ^ 16 + (a * 2 ^ 11 + 0))) = _
  rw [hw, decodeWord_op .x g 16 _ wd h0 (by decide) t0 (by decide) hw]
  change decodeX g wd = _
  have em := fld_major g 16 _ wd (by decide) t0 hw
  have f20_20 : fld wd 20 20 = 0 := (fld_body g 16 _ wd 20 20 (by decide) (by decide) hw).trans (fld_above (lt_field (n := 12) h1 t1 (by decide)))
  have f10_0 : fld wd 10 0 = 0 := (fld_body g 16 _ wd 10 0 (by decide) (by decide) hw).trans ((fld_below (by decide) (by decide)).trans ((fld_below (by decide) (by decide)).trans (by decide)))
  have f19_16 : fld wd 19 16 = d := (fld_body g 16 _ wd 19 16 (by decide) (by decide) hw).trans (fld_here (n := 12) h1 t1 (by decide))
  have f15_11 : fld wd 15 11 = a := (fld_body g 16 _ wd 15 11 (by decide) (by decide) hw).trans ((fld_below (by decide) (by decide)).trans (fld_here (n := 32) h2 (by decide) (by decide)))
  have ha : decodeX g wd = need (fld wd 20 20 = 0 ∧ fld wd 10 0 = 0 ∧ fld wd 19 16 < 12) (.ok (.tmge g (fld wd 19 16) (fld wd 15 11))) := by
    unfold decodeX; rw [em]; rfl
  rw [ha]
  simp only [need, f20_20, f10_0, f19_16, f15_11, h1, and_self, if_true]

theorem RoundTrip.bdge (g : Guard) (d : Nat) (i : Nat) : Statement (.bdge g d i) := by
  intro h sl hs
  change (decide (g.pred < 12) && decide (d < 12) && decide (i < 65536)) = true at h
  simp only [Bool.and_eq_true, decide_eq_true_eq] at h
  obtain ⟨⟨h0, h1⟩, h2⟩ := h
  obtain rfl : SlotClass.x = sl := Option.some.inj (of_decide_eq_true hs)
  have t1 : (i * 2 ^ 0 + 0) < 2 ^ 16 := lt_field (n := 65536) h2 (by decide) (by decide)
  have t0 : (d * 2 ^ 16 + (i * 2 ^ 0 + 0)) < 2 ^ 21 := lt_field (n := 12) h1 t1 (by decide)
  obtain ⟨wd, hw⟩ : ∃ wd, g.neg.toNat * 2 ^ 31 + g.pred * 2 ^ 27 + 17 * 2 ^ 21 + (d * 2 ^ 16 + (i * 2 ^ 0 + 0)) = wd := ⟨_, rfl⟩
  change decodeWord .x (g.neg.toNat * 2 ^ 31 + g.pred * 2 ^ 27 + 17 * 2 ^ 21 + (d * 2 ^ 16 + (i * 2 ^ 0 + 0))) = _
  rw [hw, decodeWord_op .x g 17 _ wd h0 (by decide) t0 (by decide) hw]
  change decodeX g wd = _
  have em := fld_major g 17 _ wd (by decide) t0 hw
  have f20_20 : fld wd 20 20 = 0 := (fld_body g 17 _ wd 20 20 (by decide) (by decide) hw).trans (fld_above (lt_field (n := 12) h1 t1 (by decide)))
  have f19_16 : fld wd 19 16 = d := (fld_body g 17 _ wd 19 16 (by decide) (by decide) hw).trans (fld_here (n := 12) h1 t1 (by decide))
  have f15_0 : fld wd 15 0 = i := (fld_body g 17 _ wd 15 0 (by decide) (by decide) hw).trans ((fld_below (by decide) (by decide)).trans (fld_here (n := 65536) h2 (by decide) (by decide)))
  have ha : decodeX g wd = need (fld wd 20 20 = 0 ∧ fld wd 19 16 < 12) (.ok (.bdge g (fld wd 19 16) (fld wd 15 0))) := by
    unfold decodeX; rw [em]; rfl
  rw [ha]
  simp only [need, f20_20, f19_16, f15_0, h1, and_self, if_true]

theorem RoundTrip.exit (g : Guard) : Statement (.exit g) := by
  intro h sl hs
  change (decide (g.pred < 12)) = true at h
  simp only [decide_eq_true_eq] at h
  have h0 := h
  obtain rfl : SlotClass.x = sl := Option.some.inj (of_decide_eq_true hs)
  have t0 : 0 < 2 ^ 21 := by decide
  obtain ⟨wd, hw⟩ : ∃ wd, g.neg.toNat * 2 ^ 31 + g.pred * 2 ^ 27 + 18 * 2 ^ 21 + 0 = wd := ⟨_, rfl⟩
  change decodeWord .x (g.neg.toNat * 2 ^ 31 + g.pred * 2 ^ 27 + 18 * 2 ^ 21 + 0) = _
  rw [hw, decodeWord_op .x g 18 _ wd h0 (by decide) t0 (by decide) hw]
  change decodeX g wd = _
  have em := fld_major g 18 _ wd (by decide) t0 hw
  have f20_0 : fld wd 20 0 = 0 := (fld_body g 18 _ wd 20 0 (by decide) (by decide) hw).trans (by decide)
  have ha : decodeX g wd = need (fld wd 20 0 = 0) (.ok (.exit g)) := by
    unfold decodeX; rw [em]; rfl
  rw [ha]
  simp only [need, f20_0, if_true]

theorem RoundTrip.yield (g : Guard) : Statement (.yield g) := by
  intro h sl hs
  change (decide (g.pred < 12)) = true at h
  simp only [decide_eq_true_eq] at h
  have h0 := h
  obtain rfl : SlotClass.x = sl := Option.some.inj (of_decide_eq_true hs)
  have t0 : 0 < 2 ^ 21 := by decide
  obtain ⟨wd, hw⟩ : ∃ wd, g.neg.toNat * 2 ^ 31 + g.pred * 2 ^ 27 + 19 * 2 ^ 21 + 0 = wd := ⟨_, rfl⟩
  change decodeWord .x (g.neg.toNat * 2 ^ 31 + g.pred * 2 ^ 27 + 19 * 2 ^ 21 + 0) = _
  rw [hw, decodeWord_op .x g 19 _ wd h0 (by decide) t0 (by decide) hw]
  change decodeX g wd = _
  have em := fld_major g 19 _ wd (by decide) t0 hw
  have f20_0 : fld wd 20 0 = 0 := (fld_body g 19 _ wd 20 0 (by decide) (by decide) hw).trans (by decide)
  have ha : decodeX g wd = need (fld wd 20 0 = 0) (.ok (.yield g)) := by
    unfold decodeX; rw [em]; rfl
  rw [ha]
  simp only [need, f20_0, if_true]

theorem RoundTrip.add (g : Guard) (d : Nat) (a : Nat) (b : Nat) : Statement (.add g d a b) := by
  intro h sl hs
  change (decide (g.pred < 12) && decide (d < 32) && decide (a < 32) && decide (b < 32)) = true at h
  simp only [Bool.and_eq_true, decide_eq_true_eq] at h
  obtain ⟨⟨⟨h0, h1⟩, h2⟩, h3⟩ := h
  obtain rfl : SlotClass.s = sl := Option.some.inj (of_decide_eq_true hs)
  have t2 : (b * 2 ^ 6 + 0) < 2 ^ 11 := lt_field (n := 32) h3 (by decide) (by decide)
  have t1 : (a * 2 ^ 11 + (b * 2 ^ 6 + 0)) < 2 ^ 16 := lt_field (n := 32) h2 t2 (by decide)
  have t0 : (d * 2 ^ 16 + (a * 2 ^ 11 + (b * 2 ^ 6 + 0))) < 2 ^ 21 := lt_field (n := 32) h1 t1 (by decide)
  obtain ⟨wd, hw⟩ : ∃ wd, g.neg.toNat * 2 ^ 31 + g.pred * 2 ^ 27 + 1 * 2 ^ 21 + (d * 2 ^ 16 + (a * 2 ^ 11 + (b * 2 ^ 6 + 0))) = wd := ⟨_, rfl⟩
  change decodeWord .s (g.neg.toNat * 2 ^ 31 + g.pred * 2 ^ 27 + 1 * 2 ^ 21 + (d * 2 ^ 16 + (a * 2 ^ 11 + (b * 2 ^ 6 + 0)))) = _
  rw [hw, decodeWord_op .s g 1 _ wd h0 (by decide) t0 (by decide) hw]
  change decodeS g wd = _
  have em := fld_major g 1 _ wd (by decide) t0 hw
  have f5_5 : fld wd 5 5 = 0 := (fld_body g 1 _ wd 5 5 (by decide) (by decide) hw).trans ((fld_below (by decide) (by decide)).trans ((fld_below (by decide) (by decide)).trans ((fld_below (by decide) (by decide)).trans (by decide))))
  have f20_16 : fld wd 20 16 = d := (fld_body g 1 _ wd 20 16 (by decide) (by decide) hw).trans (fld_here (n := 32) h1 t1 (by decide))
  have f15_11 : fld wd 15 11 = a := (fld_body g 1 _ wd 15 11 (by decide) (by decide) hw).trans ((fld_below (by decide) (by decide)).trans (fld_here (n := 32) h2 t2 (by decide)))
  have f10_6 : fld wd 10 6 = b := (fld_body g 1 _ wd 10 6 (by decide) (by decide) hw).trans ((fld_below (by decide) (by decide)).trans ((fld_below (by decide) (by decide)).trans (fld_here (n := 32) h3 (by decide) (by decide))))
  have f4_0 : fld wd 4 0 = 0 := (fld_body g 1 _ wd 4 0 (by decide) (by decide) hw).trans ((fld_below (by decide) (by decide)).trans ((fld_below (by decide) (by decide)).trans ((fld_below (by decide) (by decide)).trans (by decide))))
  have ha : decodeS g wd = need (fld wd 5 5 = 0) (.ok (.add g (fld wd 20 16) (fld wd 15 11) (fld wd 10 6))) := by
    unfold decodeS; rw [em, f4_0]; rfl
  rw [ha]
  simp only [need, f5_5, f20_16, f15_11, f10_6, if_true]

theorem RoundTrip.sub (g : Guard) (d : Nat) (a : Nat) (b : Nat) : Statement (.sub g d a b) := by
  intro h sl hs
  change (decide (g.pred < 12) && decide (d < 32) && decide (a < 32) && decide (b < 32)) = true at h
  simp only [Bool.and_eq_true, decide_eq_true_eq] at h
  obtain ⟨⟨⟨h0, h1⟩, h2⟩, h3⟩ := h
  obtain rfl : SlotClass.s = sl := Option.some.inj (of_decide_eq_true hs)
  have t3 : (1 * 2 ^ 0 + 0) < 2 ^ 6 := lt_field (n := 2) (Nat.lt_succ_self 1) (by decide) (by decide)
  have t2 : (b * 2 ^ 6 + (1 * 2 ^ 0 + 0)) < 2 ^ 11 := lt_field (n := 32) h3 t3 (by decide)
  have t1 : (a * 2 ^ 11 + (b * 2 ^ 6 + (1 * 2 ^ 0 + 0))) < 2 ^ 16 := lt_field (n := 32) h2 t2 (by decide)
  have t0 : (d * 2 ^ 16 + (a * 2 ^ 11 + (b * 2 ^ 6 + (1 * 2 ^ 0 + 0)))) < 2 ^ 21 := lt_field (n := 32) h1 t1 (by decide)
  obtain ⟨wd, hw⟩ : ∃ wd, g.neg.toNat * 2 ^ 31 + g.pred * 2 ^ 27 + 1 * 2 ^ 21 + (d * 2 ^ 16 + (a * 2 ^ 11 + (b * 2 ^ 6 + (1 * 2 ^ 0 + 0)))) = wd := ⟨_, rfl⟩
  change decodeWord .s (g.neg.toNat * 2 ^ 31 + g.pred * 2 ^ 27 + 1 * 2 ^ 21 + (d * 2 ^ 16 + (a * 2 ^ 11 + (b * 2 ^ 6 + (1 * 2 ^ 0 + 0))))) = _
  rw [hw, decodeWord_op .s g 1 _ wd h0 (by decide) t0 (by decide) hw]
  change decodeS g wd = _
  have em := fld_major g 1 _ wd (by decide) t0 hw
  have f5_5 : fld wd 5 5 = 0 := (fld_body g 1 _ wd 5 5 (by decide) (by decide) hw).trans ((fld_below (by decide) (by decide)).trans ((fld_below (by decide) (by decide)).trans ((fld_below (by decide) (by decide)).trans (fld_above (lt_field (n := 2) (Nat.lt_succ_self 1) (by decide) (by decide))))))
  have f20_16 : fld wd 20 16 = d := (fld_body g 1 _ wd 20 16 (by decide) (by decide) hw).trans (fld_here (n := 32) h1 t1 (by decide))
  have f15_11 : fld wd 15 11 = a := (fld_body g 1 _ wd 15 11 (by decide) (by decide) hw).trans ((fld_below (by decide) (by decide)).trans (fld_here (n := 32) h2 t2 (by decide)))
  have f10_6 : fld wd 10 6 = b := (fld_body g 1 _ wd 10 6 (by decide) (by decide) hw).trans ((fld_below (by decide) (by decide)).trans ((fld_below (by decide) (by decide)).trans (fld_here (n := 32) h3 t3 (by decide))))
  have f4_0 : fld wd 4 0 = 1 := (fld_body g 1 _ wd 4 0 (by decide) (by decide) hw).trans ((fld_below (by decide) (by decide)).trans ((fld_below (by decide) (by decide)).trans ((fld_below (by decide) (by decide)).trans (fld_here (n := 2) (Nat.lt_succ_self 1) (by decide) (by decide)))))
  have ha : decodeS g wd = need (fld wd 5 5 = 0) (.ok (.sub g (fld wd 20 16) (fld wd 15 11) (fld wd 10 6))) := by
    unfold decodeS; rw [em, f4_0]; rfl
  rw [ha]
  simp only [need, f5_5, f20_16, f15_11, f10_6, if_true]

theorem RoundTrip.and (g : Guard) (d : Nat) (a : Nat) (b : Nat) : Statement (.and g d a b) := by
  intro h sl hs
  change (decide (g.pred < 12) && decide (d < 32) && decide (a < 32) && decide (b < 32)) = true at h
  simp only [Bool.and_eq_true, decide_eq_true_eq] at h
  obtain ⟨⟨⟨h0, h1⟩, h2⟩, h3⟩ := h
  obtain rfl : SlotClass.s = sl := Option.some.inj (of_decide_eq_true hs)
  have t3 : (1 * 2 ^ 1 + 0) < 2 ^ 6 := lt_field (n := 2) (Nat.lt_succ_self 1) (by decide) (by decide)
  have t2 : (b * 2 ^ 6 + (1 * 2 ^ 1 + 0)) < 2 ^ 11 := lt_field (n := 32) h3 t3 (by decide)
  have t1 : (a * 2 ^ 11 + (b * 2 ^ 6 + (1 * 2 ^ 1 + 0))) < 2 ^ 16 := lt_field (n := 32) h2 t2 (by decide)
  have t0 : (d * 2 ^ 16 + (a * 2 ^ 11 + (b * 2 ^ 6 + (1 * 2 ^ 1 + 0)))) < 2 ^ 21 := lt_field (n := 32) h1 t1 (by decide)
  obtain ⟨wd, hw⟩ : ∃ wd, g.neg.toNat * 2 ^ 31 + g.pred * 2 ^ 27 + 1 * 2 ^ 21 + (d * 2 ^ 16 + (a * 2 ^ 11 + (b * 2 ^ 6 + (1 * 2 ^ 1 + 0)))) = wd := ⟨_, rfl⟩
  change decodeWord .s (g.neg.toNat * 2 ^ 31 + g.pred * 2 ^ 27 + 1 * 2 ^ 21 + (d * 2 ^ 16 + (a * 2 ^ 11 + (b * 2 ^ 6 + (1 * 2 ^ 1 + 0))))) = _
  rw [hw, decodeWord_op .s g 1 _ wd h0 (by decide) t0 (by decide) hw]
  change decodeS g wd = _
  have em := fld_major g 1 _ wd (by decide) t0 hw
  have f5_5 : fld wd 5 5 = 0 := (fld_body g 1 _ wd 5 5 (by decide) (by decide) hw).trans ((fld_below (by decide) (by decide)).trans ((fld_below (by decide) (by decide)).trans ((fld_below (by decide) (by decide)).trans (fld_above (lt_field (n := 2) (Nat.lt_succ_self 1) (by decide) (by decide))))))
  have f20_16 : fld wd 20 16 = d := (fld_body g 1 _ wd 20 16 (by decide) (by decide) hw).trans (fld_here (n := 32) h1 t1 (by decide))
  have f15_11 : fld wd 15 11 = a := (fld_body g 1 _ wd 15 11 (by decide) (by decide) hw).trans ((fld_below (by decide) (by decide)).trans (fld_here (n := 32) h2 t2 (by decide)))
  have f10_6 : fld wd 10 6 = b := (fld_body g 1 _ wd 10 6 (by decide) (by decide) hw).trans ((fld_below (by decide) (by decide)).trans ((fld_below (by decide) (by decide)).trans (fld_here (n := 32) h3 t3 (by decide))))
  have f4_0 : fld wd 4 0 = 2 := (fld_body g 1 _ wd 4 0 (by decide) (by decide) hw).trans ((fld_below (by decide) (by decide)).trans ((fld_below (by decide) (by decide)).trans ((fld_below (by decide) (by decide)).trans (by decide))))
  have ha : decodeS g wd = need (fld wd 5 5 = 0) (.ok (.and g (fld wd 20 16) (fld wd 15 11) (fld wd 10 6))) := by
    unfold decodeS; rw [em, f4_0]; rfl
  rw [ha]
  simp only [need, f5_5, f20_16, f15_11, f10_6, if_true]

theorem RoundTrip.or (g : Guard) (d : Nat) (a : Nat) (b : Nat) : Statement (.or g d a b) := by
  intro h sl hs
  change (decide (g.pred < 12) && decide (d < 32) && decide (a < 32) && decide (b < 32)) = true at h
  simp only [Bool.and_eq_true, decide_eq_true_eq] at h
  obtain ⟨⟨⟨h0, h1⟩, h2⟩, h3⟩ := h
  obtain rfl : SlotClass.s = sl := Option.some.inj (of_decide_eq_true hs)
  have t3 : (3 * 2 ^ 0 + 0) < 2 ^ 6 := lt_field (n := 4) (Nat.lt_succ_self 3) (by decide) (by decide)
  have t2 : (b * 2 ^ 6 + (3 * 2 ^ 0 + 0)) < 2 ^ 11 := lt_field (n := 32) h3 t3 (by decide)
  have t1 : (a * 2 ^ 11 + (b * 2 ^ 6 + (3 * 2 ^ 0 + 0))) < 2 ^ 16 := lt_field (n := 32) h2 t2 (by decide)
  have t0 : (d * 2 ^ 16 + (a * 2 ^ 11 + (b * 2 ^ 6 + (3 * 2 ^ 0 + 0)))) < 2 ^ 21 := lt_field (n := 32) h1 t1 (by decide)
  obtain ⟨wd, hw⟩ : ∃ wd, g.neg.toNat * 2 ^ 31 + g.pred * 2 ^ 27 + 1 * 2 ^ 21 + (d * 2 ^ 16 + (a * 2 ^ 11 + (b * 2 ^ 6 + (3 * 2 ^ 0 + 0)))) = wd := ⟨_, rfl⟩
  change decodeWord .s (g.neg.toNat * 2 ^ 31 + g.pred * 2 ^ 27 + 1 * 2 ^ 21 + (d * 2 ^ 16 + (a * 2 ^ 11 + (b * 2 ^ 6 + (3 * 2 ^ 0 + 0))))) = _
  rw [hw, decodeWord_op .s g 1 _ wd h0 (by decide) t0 (by decide) hw]
  change decodeS g wd = _
  have em := fld_major g 1 _ wd (by decide) t0 hw
  have f5_5 : fld wd 5 5 = 0 := (fld_body g 1 _ wd 5 5 (by decide) (by decide) hw).trans ((fld_below (by decide) (by decide)).trans ((fld_below (by decide) (by decide)).trans ((fld_below (by decide) (by decide)).trans (fld_above (lt_field (n := 4) (Nat.lt_succ_self 3) (by decide) (by decide))))))
  have f20_16 : fld wd 20 16 = d := (fld_body g 1 _ wd 20 16 (by decide) (by decide) hw).trans (fld_here (n := 32) h1 t1 (by decide))
  have f15_11 : fld wd 15 11 = a := (fld_body g 1 _ wd 15 11 (by decide) (by decide) hw).trans ((fld_below (by decide) (by decide)).trans (fld_here (n := 32) h2 t2 (by decide)))
  have f10_6 : fld wd 10 6 = b := (fld_body g 1 _ wd 10 6 (by decide) (by decide) hw).trans ((fld_below (by decide) (by decide)).trans ((fld_below (by decide) (by decide)).trans (fld_here (n := 32) h3 t3 (by decide))))
  have f4_0 : fld wd 4 0 = 3 := (fld_body g 1 _ wd 4 0 (by decide) (by decide) hw).trans ((fld_below (by decide) (by decide)).trans ((fld_below (by decide) (by decide)).trans ((fld_below (by decide) (by decide)).trans (fld_here (n := 4) (Nat.lt_succ_self 3) (by decide) (by decide)))))
  have ha : decodeS g wd = need (fld wd 5 5 = 0) (.ok (.or g (fld wd 20 16) (fld wd 15 11) (fld wd 10 6))) := by
    unfold decodeS; rw [em, f4_0]; rfl
  rw [ha]
  simp only [need, f5_5, f20_16, f15_11, f10_6, if_true]

theorem RoundTrip.xor (g : Guard) (d : Nat) (a : Nat) (b : Nat) : Statement (.xor g d a b) := by
  intro h sl hs
  change (decide (g.pred < 12) && decide (d < 32) && decide (a < 32) && decide (b < 32)) = true at h
  simp only [Bool.and_eq_true, decide_eq_true_eq] at h
  obtain ⟨⟨⟨h0, h1⟩, h2⟩, h3⟩ := h
  obtain rfl : SlotClass.s = sl := Option.some.inj (of_decide_eq_true hs)
  have t3 : (1 * 2 ^ 2 + 0) < 2 ^ 6 := lt_field (n := 2) (Nat.lt_succ_self 1) (by decide) (by decide)
  have t2 : (b * 2 ^ 6 + (1 * 2 ^ 2 + 0)) < 2 ^ 11 := lt_field (n := 32) h3 t3 (by decide)
  have t1 : (a * 2 ^ 11 + (b * 2 ^ 6 + (1 * 2 ^ 2 + 0))) < 2 ^ 16 := lt_field (n := 32) h2 t2 (by decide)
  have t0 : (d * 2 ^ 16 + (a * 2 ^ 11 + (b * 2 ^ 6 + (1 * 2 ^ 2 + 0)))) < 2 ^ 21 := lt_field (n := 32) h1 t1 (by decide)
  obtain ⟨wd, hw⟩ : ∃ wd, g.neg.toNat * 2 ^ 31 + g.pred * 2 ^ 27 + 1 * 2 ^ 21 + (d * 2 ^ 16 + (a * 2 ^ 11 + (b * 2 ^ 6 + (1 * 2 ^ 2 + 0)))) = wd := ⟨_, rfl⟩
  change decodeWord .s (g.neg.toNat * 2 ^ 31 + g.pred * 2 ^ 27 + 1 * 2 ^ 21 + (d * 2 ^ 16 + (a * 2 ^ 11 + (b * 2 ^ 6 + (1 * 2 ^ 2 + 0))))) = _
  rw [hw, decodeWord_op .s g 1 _ wd h0 (by decide) t0 (by decide) hw]
  change decodeS g wd = _
  have em := fld_major g 1 _ wd (by decide) t0 hw
  have f5_5 : fld wd 5 5 = 0 := (fld_body g 1 _ wd 5 5 (by decide) (by decide) hw).trans ((fld_below (by decide) (by decide)).trans ((fld_below (by decide) (by decide)).trans ((fld_below (by decide) (by decide)).trans (fld_above (lt_field (n := 2) (Nat.lt_succ_self 1) (by decide) (by decide))))))
  have f20_16 : fld wd 20 16 = d := (fld_body g 1 _ wd 20 16 (by decide) (by decide) hw).trans (fld_here (n := 32) h1 t1 (by decide))
  have f15_11 : fld wd 15 11 = a := (fld_body g 1 _ wd 15 11 (by decide) (by decide) hw).trans ((fld_below (by decide) (by decide)).trans (fld_here (n := 32) h2 t2 (by decide)))
  have f10_6 : fld wd 10 6 = b := (fld_body g 1 _ wd 10 6 (by decide) (by decide) hw).trans ((fld_below (by decide) (by decide)).trans ((fld_below (by decide) (by decide)).trans (fld_here (n := 32) h3 t3 (by decide))))
  have f4_0 : fld wd 4 0 = 4 := (fld_body g 1 _ wd 4 0 (by decide) (by decide) hw).trans ((fld_below (by decide) (by decide)).trans ((fld_below (by decide) (by decide)).trans ((fld_below (by decide) (by decide)).trans (by decide))))
  have ha : decodeS g wd = need (fld wd 5 5 = 0) (.ok (.xor g (fld wd 20 16) (fld wd 15 11) (fld wd 10 6))) := by
    unfold decodeS; rw [em, f4_0]; rfl
  rw [ha]
  simp only [need, f5_5, f20_16, f15_11, f10_6, if_true]

theorem RoundTrip.andn (g : Guard) (d : Nat) (a : Nat) (b : Nat) : Statement (.andn g d a b) := by
  intro h sl hs
  change (decide (g.pred < 12) && decide (d < 32) && decide (a < 32) && decide (b < 32)) = true at h
  simp only [Bool.and_eq_true, decide_eq_true_eq] at h
  obtain ⟨⟨⟨h0, h1⟩, h2⟩, h3⟩ := h
  obtain rfl : SlotClass.s = sl := Option.some.inj (of_decide_eq_true hs)
  have t3 : (5 * 2 ^ 0 + 0) < 2 ^ 6 := lt_field (n := 6) (Nat.lt_succ_self 5) (by decide) (by decide)
  have t2 : (b * 2 ^ 6 + (5 * 2 ^ 0 + 0)) < 2 ^ 11 := lt_field (n := 32) h3 t3 (by decide)
  have t1 : (a * 2 ^ 11 + (b * 2 ^ 6 + (5 * 2 ^ 0 + 0))) < 2 ^ 16 := lt_field (n := 32) h2 t2 (by decide)
  have t0 : (d * 2 ^ 16 + (a * 2 ^ 11 + (b * 2 ^ 6 + (5 * 2 ^ 0 + 0)))) < 2 ^ 21 := lt_field (n := 32) h1 t1 (by decide)
  obtain ⟨wd, hw⟩ : ∃ wd, g.neg.toNat * 2 ^ 31 + g.pred * 2 ^ 27 + 1 * 2 ^ 21 + (d * 2 ^ 16 + (a * 2 ^ 11 + (b * 2 ^ 6 + (5 * 2 ^ 0 + 0)))) = wd := ⟨_, rfl⟩
  change decodeWord .s (g.neg.toNat * 2 ^ 31 + g.pred * 2 ^ 27 + 1 * 2 ^ 21 + (d * 2 ^ 16 + (a * 2 ^ 11 + (b * 2 ^ 6 + (5 * 2 ^ 0 + 0))))) = _
  rw [hw, decodeWord_op .s g 1 _ wd h0 (by decide) t0 (by decide) hw]
  change decodeS g wd = _
  have em := fld_major g 1 _ wd (by decide) t0 hw
  have f5_5 : fld wd 5 5 = 0 := (fld_body g 1 _ wd 5 5 (by decide) (by decide) hw).trans ((fld_below (by decide) (by decide)).trans ((fld_below (by decide) (by decide)).trans ((fld_below (by decide) (by decide)).trans (fld_above (lt_field (n := 6) (Nat.lt_succ_self 5) (by decide) (by decide))))))
  have f20_16 : fld wd 20 16 = d := (fld_body g 1 _ wd 20 16 (by decide) (by decide) hw).trans (fld_here (n := 32) h1 t1 (by decide))
  have f15_11 : fld wd 15 11 = a := (fld_body g 1 _ wd 15 11 (by decide) (by decide) hw).trans ((fld_below (by decide) (by decide)).trans (fld_here (n := 32) h2 t2 (by decide)))
  have f10_6 : fld wd 10 6 = b := (fld_body g 1 _ wd 10 6 (by decide) (by decide) hw).trans ((fld_below (by decide) (by decide)).trans ((fld_below (by decide) (by decide)).trans (fld_here (n := 32) h3 t3 (by decide))))
  have f4_0 : fld wd 4 0 = 5 := (fld_body g 1 _ wd 4 0 (by decide) (by decide) hw).trans ((fld_below (by decide) (by decide)).trans ((fld_below (by decide) (by decide)).trans ((fld_below (by decide) (by decide)).trans (fld_here (n := 6) (Nat.lt_succ_self 5) (by decide) (by decide)))))
  have ha : decodeS g wd = need (fld wd 5 5 = 0) (.ok (.andn g (fld wd 20 16) (fld wd 15 11) (fld wd 10 6))) := by
    unfold decodeS; rw [em, f4_0]; rfl
  rw [ha]
  simp only [need, f5_5, f20_16, f15_11, f10_6, if_true]

theorem RoundTrip.orn (g : Guard) (d : Nat) (a : Nat) (b : Nat) : Statement (.orn g d a b) := by
  intro h sl hs
  change (decide (g.pred < 12) && decide (d < 32) && decide (a < 32) && decide (b < 32)) = true at h
  simp only [Bool.and_eq_true, decide_eq_true_eq] at h
  obtain ⟨⟨⟨h0, h1⟩, h2⟩, h3⟩ := h
  obtain rfl : SlotClass.s = sl := Option.some.inj (of_decide_eq_true hs)
  have t3 : (3 * 2 ^ 1 + 0) < 2 ^ 6 := lt_field (n := 4) (Nat.lt_succ_self 3) (by decide) (by decide)
  have t2 : (b * 2 ^ 6 + (3 * 2 ^ 1 + 0)) < 2 ^ 11 := lt_field (n := 32) h3 t3 (by decide)
  have t1 : (a * 2 ^ 11 + (b * 2 ^ 6 + (3 * 2 ^ 1 + 0))) < 2 ^ 16 := lt_field (n := 32) h2 t2 (by decide)
  have t0 : (d * 2 ^ 16 + (a * 2 ^ 11 + (b * 2 ^ 6 + (3 * 2 ^ 1 + 0)))) < 2 ^ 21 := lt_field (n := 32) h1 t1 (by decide)
  obtain ⟨wd, hw⟩ : ∃ wd, g.neg.toNat * 2 ^ 31 + g.pred * 2 ^ 27 + 1 * 2 ^ 21 + (d * 2 ^ 16 + (a * 2 ^ 11 + (b * 2 ^ 6 + (3 * 2 ^ 1 + 0)))) = wd := ⟨_, rfl⟩
  change decodeWord .s (g.neg.toNat * 2 ^ 31 + g.pred * 2 ^ 27 + 1 * 2 ^ 21 + (d * 2 ^ 16 + (a * 2 ^ 11 + (b * 2 ^ 6 + (3 * 2 ^ 1 + 0))))) = _
  rw [hw, decodeWord_op .s g 1 _ wd h0 (by decide) t0 (by decide) hw]
  change decodeS g wd = _
  have em := fld_major g 1 _ wd (by decide) t0 hw
  have f5_5 : fld wd 5 5 = 0 := (fld_body g 1 _ wd 5 5 (by decide) (by decide) hw).trans ((fld_below (by decide) (by decide)).trans ((fld_below (by decide) (by decide)).trans ((fld_below (by decide) (by decide)).trans (fld_above (lt_field (n := 4) (Nat.lt_succ_self 3) (by decide) (by decide))))))
  have f20_16 : fld wd 20 16 = d := (fld_body g 1 _ wd 20 16 (by decide) (by decide) hw).trans (fld_here (n := 32) h1 t1 (by decide))
  have f15_11 : fld wd 15 11 = a := (fld_body g 1 _ wd 15 11 (by decide) (by decide) hw).trans ((fld_below (by decide) (by decide)).trans (fld_here (n := 32) h2 t2 (by decide)))
  have f10_6 : fld wd 10 6 = b := (fld_body g 1 _ wd 10 6 (by decide) (by decide) hw).trans ((fld_below (by decide) (by decide)).trans ((fld_below (by decide) (by decide)).trans (fld_here (n := 32) h3 t3 (by decide))))
  have f4_0 : fld wd 4 0 = 6 := (fld_body g 1 _ wd 4 0 (by decide) (by decide) hw).trans ((fld_below (by decide) (by decide)).trans ((fld_below (by decide) (by decide)).trans ((fld_below (by decide) (by decide)).trans (by decide))))
  have ha : decodeS g wd = need (fld wd 5 5 = 0) (.ok (.orn g (fld wd 20 16) (fld wd 15 11) (fld wd 10 6))) := by
    unfold decodeS; rw [em, f4_0]; rfl
  rw [ha]
  simp only [need, f5_5, f20_16, f15_11, f10_6, if_true]

theorem RoundTrip.xnor (g : Guard) (d : Nat) (a : Nat) (b : Nat) : Statement (.xnor g d a b) := by
  intro h sl hs
  change (decide (g.pred < 12) && decide (d < 32) && decide (a < 32) && decide (b < 32)) = true at h
  simp only [Bool.and_eq_true, decide_eq_true_eq] at h
  obtain ⟨⟨⟨h0, h1⟩, h2⟩, h3⟩ := h
  obtain rfl : SlotClass.s = sl := Option.some.inj (of_decide_eq_true hs)
  have t3 : (7 * 2 ^ 0 + 0) < 2 ^ 6 := lt_field (n := 8) (Nat.lt_succ_self 7) (by decide) (by decide)
  have t2 : (b * 2 ^ 6 + (7 * 2 ^ 0 + 0)) < 2 ^ 11 := lt_field (n := 32) h3 t3 (by decide)
  have t1 : (a * 2 ^ 11 + (b * 2 ^ 6 + (7 * 2 ^ 0 + 0))) < 2 ^ 16 := lt_field (n := 32) h2 t2 (by decide)
  have t0 : (d * 2 ^ 16 + (a * 2 ^ 11 + (b * 2 ^ 6 + (7 * 2 ^ 0 + 0)))) < 2 ^ 21 := lt_field (n := 32) h1 t1 (by decide)
  obtain ⟨wd, hw⟩ : ∃ wd, g.neg.toNat * 2 ^ 31 + g.pred * 2 ^ 27 + 1 * 2 ^ 21 + (d * 2 ^ 16 + (a * 2 ^ 11 + (b * 2 ^ 6 + (7 * 2 ^ 0 + 0)))) = wd := ⟨_, rfl⟩
  change decodeWord .s (g.neg.toNat * 2 ^ 31 + g.pred * 2 ^ 27 + 1 * 2 ^ 21 + (d * 2 ^ 16 + (a * 2 ^ 11 + (b * 2 ^ 6 + (7 * 2 ^ 0 + 0))))) = _
  rw [hw, decodeWord_op .s g 1 _ wd h0 (by decide) t0 (by decide) hw]
  change decodeS g wd = _
  have em := fld_major g 1 _ wd (by decide) t0 hw
  have f5_5 : fld wd 5 5 = 0 := (fld_body g 1 _ wd 5 5 (by decide) (by decide) hw).trans ((fld_below (by decide) (by decide)).trans ((fld_below (by decide) (by decide)).trans ((fld_below (by decide) (by decide)).trans (fld_above (lt_field (n := 8) (Nat.lt_succ_self 7) (by decide) (by decide))))))
  have f20_16 : fld wd 20 16 = d := (fld_body g 1 _ wd 20 16 (by decide) (by decide) hw).trans (fld_here (n := 32) h1 t1 (by decide))
  have f15_11 : fld wd 15 11 = a := (fld_body g 1 _ wd 15 11 (by decide) (by decide) hw).trans ((fld_below (by decide) (by decide)).trans (fld_here (n := 32) h2 t2 (by decide)))
  have f10_6 : fld wd 10 6 = b := (fld_body g 1 _ wd 10 6 (by decide) (by decide) hw).trans ((fld_below (by decide) (by decide)).trans ((fld_below (by decide) (by decide)).trans (fld_here (n := 32) h3 t3 (by decide))))
  have f4_0 : fld wd 4 0 = 7 := (fld_body g 1 _ wd 4 0 (by decide) (by decide) hw).trans ((fld_below (by decide) (by decide)).trans ((fld_below (by decide) (by decide)).trans ((fld_below (by decide) (by decide)).trans (fld_here (n := 8) (Nat.lt_succ_self 7) (by decide) (by decide)))))
  have ha : decodeS g wd = need (fld wd 5 5 = 0) (.ok (.xnor g (fld wd 20 16) (fld wd 15 11) (fld wd 10 6))) := by
    unfold decodeS; rw [em, f4_0]; rfl
  rw [ha]
  simp only [need, f5_5, f20_16, f15_11, f10_6, if_true]

theorem RoundTrip.sll (g : Guard) (d : Nat) (a : Nat) (b : Nat) : Statement (.sll g d a b) := by
  intro h sl hs
  change (decide (g.pred < 12) && decide (d < 32) && decide (a < 32) && decide (b < 32)) = true at h
  simp only [Bool.and_eq_true, decide_eq_true_eq] at h
  obtain ⟨⟨⟨h0, h1⟩, h2⟩, h3⟩ := h
  obtain rfl : SlotClass.s = sl := Option.some.inj (of_decide_eq_true hs)
  have t3 : (1 * 2 ^ 3 + 0) < 2 ^ 6 := lt_field (n := 2) (Nat.lt_succ_self 1) (by decide) (by decide)
  have t2 : (b * 2 ^ 6 + (1 * 2 ^ 3 + 0)) < 2 ^ 11 := lt_field (n := 32) h3 t3 (by decide)
  have t1 : (a * 2 ^ 11 + (b * 2 ^ 6 + (1 * 2 ^ 3 + 0))) < 2 ^ 16 := lt_field (n := 32) h2 t2 (by decide)
  have t0 : (d * 2 ^ 16 + (a * 2 ^ 11 + (b * 2 ^ 6 + (1 * 2 ^ 3 + 0)))) < 2 ^ 21 := lt_field (n := 32) h1 t1 (by decide)
  obtain ⟨wd, hw⟩ : ∃ wd, g.neg.toNat * 2 ^ 31 + g.pred * 2 ^ 27 + 1 * 2 ^ 21 + (d * 2 ^ 16 + (a * 2 ^ 11 + (b * 2 ^ 6 + (1 * 2 ^ 3 + 0)))) = wd := ⟨_, rfl⟩
  change decodeWord .s (g.neg.toNat * 2 ^ 31 + g.pred * 2 ^ 27 + 1 * 2 ^ 21 + (d * 2 ^ 16 + (a * 2 ^ 11 + (b * 2 ^ 6 + (1 * 2 ^ 3 + 0))))) = _
  rw [hw, decodeWord_op .s g 1 _ wd h0 (by decide) t0 (by decide) hw]
  change decodeS g wd = _
  have em := fld_major g 1 _ wd (by decide) t0 hw
  have f5_5 : fld wd 5 5 = 0 := (fld_body g 1 _ wd 5 5 (by decide) (by decide) hw).trans ((fld_below (by decide) (by decide)).trans ((fld_below (by decide) (by decide)).trans ((fld_below (by decide) (by decide)).trans (fld_above (lt_field (n := 2) (Nat.lt_succ_self 1) (by decide) (by decide))))))
  have f20_16 : fld wd 20 16 = d := (fld_body g 1 _ wd 20 16 (by decide) (by decide) hw).trans (fld_here (n := 32) h1 t1 (by decide))
  have f15_11 : fld wd 15 11 = a := (fld_body g 1 _ wd 15 11 (by decide) (by decide) hw).trans ((fld_below (by decide) (by decide)).trans (fld_here (n := 32) h2 t2 (by decide)))
  have f10_6 : fld wd 10 6 = b := (fld_body g 1 _ wd 10 6 (by decide) (by decide) hw).trans ((fld_below (by decide) (by decide)).trans ((fld_below (by decide) (by decide)).trans (fld_here (n := 32) h3 t3 (by decide))))
  have f4_0 : fld wd 4 0 = 8 := (fld_body g 1 _ wd 4 0 (by decide) (by decide) hw).trans ((fld_below (by decide) (by decide)).trans ((fld_below (by decide) (by decide)).trans ((fld_below (by decide) (by decide)).trans (by decide))))
  have ha : decodeS g wd = need (fld wd 5 5 = 0) (.ok (.sll g (fld wd 20 16) (fld wd 15 11) (fld wd 10 6))) := by
    unfold decodeS; rw [em, f4_0]; rfl
  rw [ha]
  simp only [need, f5_5, f20_16, f15_11, f10_6, if_true]

theorem RoundTrip.srl (g : Guard) (d : Nat) (a : Nat) (b : Nat) : Statement (.srl g d a b) := by
  intro h sl hs
  change (decide (g.pred < 12) && decide (d < 32) && decide (a < 32) && decide (b < 32)) = true at h
  simp only [Bool.and_eq_true, decide_eq_true_eq] at h
  obtain ⟨⟨⟨h0, h1⟩, h2⟩, h3⟩ := h
  obtain rfl : SlotClass.s = sl := Option.some.inj (of_decide_eq_true hs)
  have t3 : (9 * 2 ^ 0 + 0) < 2 ^ 6 := lt_field (n := 10) (Nat.lt_succ_self 9) (by decide) (by decide)
  have t2 : (b * 2 ^ 6 + (9 * 2 ^ 0 + 0)) < 2 ^ 11 := lt_field (n := 32) h3 t3 (by decide)
  have t1 : (a * 2 ^ 11 + (b * 2 ^ 6 + (9 * 2 ^ 0 + 0))) < 2 ^ 16 := lt_field (n := 32) h2 t2 (by decide)
  have t0 : (d * 2 ^ 16 + (a * 2 ^ 11 + (b * 2 ^ 6 + (9 * 2 ^ 0 + 0)))) < 2 ^ 21 := lt_field (n := 32) h1 t1 (by decide)
  obtain ⟨wd, hw⟩ : ∃ wd, g.neg.toNat * 2 ^ 31 + g.pred * 2 ^ 27 + 1 * 2 ^ 21 + (d * 2 ^ 16 + (a * 2 ^ 11 + (b * 2 ^ 6 + (9 * 2 ^ 0 + 0)))) = wd := ⟨_, rfl⟩
  change decodeWord .s (g.neg.toNat * 2 ^ 31 + g.pred * 2 ^ 27 + 1 * 2 ^ 21 + (d * 2 ^ 16 + (a * 2 ^ 11 + (b * 2 ^ 6 + (9 * 2 ^ 0 + 0))))) = _
  rw [hw, decodeWord_op .s g 1 _ wd h0 (by decide) t0 (by decide) hw]
  change decodeS g wd = _
  have em := fld_major g 1 _ wd (by decide) t0 hw
  have f5_5 : fld wd 5 5 = 0 := (fld_body g 1 _ wd 5 5 (by decide) (by decide) hw).trans ((fld_below (by decide) (by decide)).trans ((fld_below (by decide) (by decide)).trans ((fld_below (by decide) (by decide)).trans (fld_above (lt_field (n := 10) (Nat.lt_succ_self 9) (by decide) (by decide))))))
  have f20_16 : fld wd 20 16 = d := (fld_body g 1 _ wd 20 16 (by decide) (by decide) hw).trans (fld_here (n := 32) h1 t1 (by decide))
  have f15_11 : fld wd 15 11 = a := (fld_body g 1 _ wd 15 11 (by decide) (by decide) hw).trans ((fld_below (by decide) (by decide)).trans (fld_here (n := 32) h2 t2 (by decide)))
  have f10_6 : fld wd 10 6 = b := (fld_body g 1 _ wd 10 6 (by decide) (by decide) hw).trans ((fld_below (by decide) (by decide)).trans ((fld_below (by decide) (by decide)).trans (fld_here (n := 32) h3 t3 (by decide))))
  have f4_0 : fld wd 4 0 = 9 := (fld_body g 1 _ wd 4 0 (by decide) (by decide) hw).trans ((fld_below (by decide) (by decide)).trans ((fld_below (by decide) (by decide)).trans ((fld_below (by decide) (by decide)).trans (fld_here (n := 10) (Nat.lt_succ_self 9) (by decide) (by decide)))))
  have ha : decodeS g wd = need (fld wd 5 5 = 0) (.ok (.srl g (fld wd 20 16) (fld wd 15 11) (fld wd 10 6))) := by
    unfold decodeS; rw [em, f4_0]; rfl
  rw [ha]
  simp only [need, f5_5, f20_16, f15_11, f10_6, if_true]

theorem RoundTrip.sra (g : Guard) (d : Nat) (a : Nat) (b : Nat) : Statement (.sra g d a b) := by
  intro h sl hs
  change (decide (g.pred < 12) && decide (d < 32) && decide (a < 32) && decide (b < 32)) = true at h
  simp only [Bool.and_eq_true, decide_eq_true_eq] at h
  obtain ⟨⟨⟨h0, h1⟩, h2⟩, h3⟩ := h
  obtain rfl : SlotClass.s = sl := Option.some.inj (of_decide_eq_true hs)
  have t3 : (5 * 2 ^ 1 + 0) < 2 ^ 6 := lt_field (n := 6) (Nat.lt_succ_self 5) (by decide) (by decide)
  have t2 : (b * 2 ^ 6 + (5 * 2 ^ 1 + 0)) < 2 ^ 11 := lt_field (n := 32) h3 t3 (by decide)
  have t1 : (a * 2 ^ 11 + (b * 2 ^ 6 + (5 * 2 ^ 1 + 0))) < 2 ^ 16 := lt_field (n := 32) h2 t2 (by decide)
  have t0 : (d * 2 ^ 16 + (a * 2 ^ 11 + (b * 2 ^ 6 + (5 * 2 ^ 1 + 0)))) < 2 ^ 21 := lt_field (n := 32) h1 t1 (by decide)
  obtain ⟨wd, hw⟩ : ∃ wd, g.neg.toNat * 2 ^ 31 + g.pred * 2 ^ 27 + 1 * 2 ^ 21 + (d * 2 ^ 16 + (a * 2 ^ 11 + (b * 2 ^ 6 + (5 * 2 ^ 1 + 0)))) = wd := ⟨_, rfl⟩
  change decodeWord .s (g.neg.toNat * 2 ^ 31 + g.pred * 2 ^ 27 + 1 * 2 ^ 21 + (d * 2 ^ 16 + (a * 2 ^ 11 + (b * 2 ^ 6 + (5 * 2 ^ 1 + 0))))) = _
  rw [hw, decodeWord_op .s g 1 _ wd h0 (by decide) t0 (by decide) hw]
  change decodeS g wd = _
  have em := fld_major g 1 _ wd (by decide) t0 hw
  have f5_5 : fld wd 5 5 = 0 := (fld_body g 1 _ wd 5 5 (by decide) (by decide) hw).trans ((fld_below (by decide) (by decide)).trans ((fld_below (by decide) (by decide)).trans ((fld_below (by decide) (by decide)).trans (fld_above (lt_field (n := 6) (Nat.lt_succ_self 5) (by decide) (by decide))))))
  have f20_16 : fld wd 20 16 = d := (fld_body g 1 _ wd 20 16 (by decide) (by decide) hw).trans (fld_here (n := 32) h1 t1 (by decide))
  have f15_11 : fld wd 15 11 = a := (fld_body g 1 _ wd 15 11 (by decide) (by decide) hw).trans ((fld_below (by decide) (by decide)).trans (fld_here (n := 32) h2 t2 (by decide)))
  have f10_6 : fld wd 10 6 = b := (fld_body g 1 _ wd 10 6 (by decide) (by decide) hw).trans ((fld_below (by decide) (by decide)).trans ((fld_below (by decide) (by decide)).trans (fld_here (n := 32) h3 t3 (by decide))))
  have f4_0 : fld wd 4 0 = 10 := (fld_body g 1 _ wd 4 0 (by decide) (by decide) hw).trans ((fld_below (by decide) (by decide)).trans ((fld_below (by decide) (by decide)).trans ((fld_below (by decide) (by decide)).trans (by decide))))
  have ha : decodeS g wd = need (fld wd 5 5 = 0) (.ok (.sra g (fld wd 20 16) (fld wd 15 11) (fld wd 10 6))) := by
    unfold decodeS; rw [em, f4_0]; rfl
  rw [ha]
  simp only [need, f5_5, f20_16, f15_11, f10_6, if_true]

theorem RoundTrip.rol (g : Guard) (d : Nat) (a : Nat) (b : Nat) : Statement (.rol g d a b) := by
  intro h sl hs
  change (decide (g.pred < 12) && decide (d < 32) && decide (a < 32) && decide (b < 32)) = true at h
  simp only [Bool.and_eq_true, decide_eq_true_eq] at h
  obtain ⟨⟨⟨h0, h1⟩, h2⟩, h3⟩ := h
  obtain rfl : SlotClass.s = sl := Option.some.inj (of_decide_eq_true hs)
  have t3 : (11 * 2 ^ 0 + 0) < 2 ^ 6 := lt_field (n := 12) (Nat.lt_succ_self 11) (by decide) (by decide)
  have t2 : (b * 2 ^ 6 + (11 * 2 ^ 0 + 0)) < 2 ^ 11 := lt_field (n := 32) h3 t3 (by decide)
  have t1 : (a * 2 ^ 11 + (b * 2 ^ 6 + (11 * 2 ^ 0 + 0))) < 2 ^ 16 := lt_field (n := 32) h2 t2 (by decide)
  have t0 : (d * 2 ^ 16 + (a * 2 ^ 11 + (b * 2 ^ 6 + (11 * 2 ^ 0 + 0)))) < 2 ^ 21 := lt_field (n := 32) h1 t1 (by decide)
  obtain ⟨wd, hw⟩ : ∃ wd, g.neg.toNat * 2 ^ 31 + g.pred * 2 ^ 27 + 1 * 2 ^ 21 + (d * 2 ^ 16 + (a * 2 ^ 11 + (b * 2 ^ 6 + (11 * 2 ^ 0 + 0)))) = wd := ⟨_, rfl⟩
  change decodeWord .s (g.neg.toNat * 2 ^ 31 + g.pred * 2 ^ 27 + 1 * 2 ^ 21 + (d * 2 ^ 16 + (a * 2 ^ 11 + (b * 2 ^ 6 + (11 * 2 ^ 0 + 0))))) = _
  rw [hw, decodeWord_op .s g 1 _ wd h0 (by decide) t0 (by decide) hw]
  change decodeS g wd = _
  have em := fld_major g 1 _ wd (by decide) t0 hw
  have f5_5 : fld wd 5 5 = 0 := (fld_body g 1 _ wd 5 5 (by decide) (by decide) hw).trans ((fld_below (by decide) (by decide)).trans ((fld_below (by decide) (by decide)).trans ((fld_below (by decide) (by decide)).trans (fld_above (lt_field (n := 12) (Nat.lt_succ_self 11) (by decide) (by decide))))))
  have f20_16 : fld wd 20 16 = d := (fld_body g 1 _ wd 20 16 (by decide) (by decide) hw).trans (fld_here (n := 32) h1 t1 (by decide))
  have f15_11 : fld wd 15 11 = a := (fld_body g 1 _ wd 15 11 (by decide) (by decide) hw).trans ((fld_below (by decide) (by decide)).trans (fld_here (n := 32) h2 t2 (by decide)))
  have f10_6 : fld wd 10 6 = b := (fld_body g 1 _ wd 10 6 (by decide) (by decide) hw).trans ((fld_below (by decide) (by decide)).trans ((fld_below (by decide) (by decide)).trans (fld_here (n := 32) h3 t3 (by decide))))
  have f4_0 : fld wd 4 0 = 11 := (fld_body g 1 _ wd 4 0 (by decide) (by decide) hw).trans ((fld_below (by decide) (by decide)).trans ((fld_below (by decide) (by decide)).trans ((fld_below (by decide) (by decide)).trans (fld_here (n := 12) (Nat.lt_succ_self 11) (by decide) (by decide)))))
  have ha : decodeS g wd = need (fld wd 5 5 = 0) (.ok (.rol g (fld wd 20 16) (fld wd 15 11) (fld wd 10 6))) := by
    unfold decodeS; rw [em, f4_0]; rfl
  rw [ha]
  simp only [need, f5_5, f20_16, f15_11, f10_6, if_true]

theorem RoundTrip.ror (g : Guard) (d : Nat) (a : Nat) (b : Nat) : Statement (.ror g d a b) := by
  intro h sl hs
  change (decide (g.pred < 12) && decide (d < 32) && decide (a < 32) && decide (b < 32)) = true at h
  simp only [Bool.and_eq_true, decide_eq_true_eq] at h
  obtain ⟨⟨⟨h0, h1⟩, h2⟩, h3⟩ := h
  obtain rfl : SlotClass.s = sl := Option.some.inj (of_decide_eq_true hs)
  have t3 : (3 * 2 ^ 2 + 0) < 2 ^ 6 := lt_field (n := 4) (Nat.lt_succ_self 3) (by decide) (by decide)
  have t2 : (b * 2 ^ 6 + (3 * 2 ^ 2 + 0)) < 2 ^ 11 := lt_field (n := 32) h3 t3 (by decide)
  have t1 : (a * 2 ^ 11 + (b * 2 ^ 6 + (3 * 2 ^ 2 + 0))) < 2 ^ 16 := lt_field (n := 32) h2 t2 (by decide)
  have t0 : (d * 2 ^ 16 + (a * 2 ^ 11 + (b * 2 ^ 6 + (3 * 2 ^ 2 + 0)))) < 2 ^ 21 := lt_field (n := 32) h1 t1 (by decide)
  obtain ⟨wd, hw⟩ : ∃ wd, g.neg.toNat * 2 ^ 31 + g.pred * 2 ^ 27 + 1 * 2 ^ 21 + (d * 2 ^ 16 + (a * 2 ^ 11 + (b * 2 ^ 6 + (3 * 2 ^ 2 + 0)))) = wd := ⟨_, rfl⟩
  change decodeWord .s (g.neg.toNat * 2 ^ 31 + g.pred * 2 ^ 27 + 1 * 2 ^ 21 + (d * 2 ^ 16 + (a * 2 ^ 11 + (b * 2 ^ 6 + (3 * 2 ^ 2 + 0))))) = _
  rw [hw, decodeWord_op .s g 1 _ wd h0 (by decide) t0 (by decide) hw]
  change decodeS g wd = _
  have em := fld_major g 1 _ wd (by decide) t0 hw
  have f5_5 : fld wd 5 5 = 0 := (fld_body g 1 _ wd 5 5 (by decide) (by decide) hw).trans ((fld_below (by decide) (by decide)).trans ((fld_below (by decide) (by decide)).trans ((fld_below (by decide) (by decide)).trans (fld_above (lt_field (n := 4) (Nat.lt_succ_self 3) (by decide) (by decide))))))
  have f20_16 : fld wd 20 16 = d := (fld_body g 1 _ wd 20 16 (by decide) (by decide) hw).trans (fld_here (n := 32) h1 t1 (by decide))
  have f15_11 : fld wd 15 11 = a := (fld_body g 1 _ wd 15 11 (by decide) (by decide) hw).trans ((fld_below (by decide) (by decide)).trans (fld_here (n := 32) h2 t2 (by decide)))
  have f10_6 : fld wd 10 6 = b := (fld_body g 1 _ wd 10 6 (by decide) (by decide) hw).trans ((fld_below (by decide) (by decide)).trans ((fld_below (by decide) (by decide)).trans (fld_here (n := 32) h3 t3 (by decide))))
  have f4_0 : fld wd 4 0 = 12 := (fld_body g 1 _ wd 4 0 (by decide) (by decide) hw).trans ((fld_below (by decide) (by decide)).trans ((fld_below (by decide) (by decide)).trans ((fld_below (by decide) (by decide)).trans (by decide))))
  have ha : decodeS g wd = need (fld wd 5 5 = 0) (.ok (.ror g (fld wd 20 16) (fld wd 15 11) (fld wd 10 6))) := by
    unfold decodeS; rw [em, f4_0]; rfl
  rw [ha]
  simp only [need, f5_5, f20_16, f15_11, f10_6, if_true]

theorem RoundTrip.mul (g : Guard) (d : Nat) (a : Nat) (b : Nat) : Statement (.mul g d a b) := by
  intro h sl hs
  change (decide (g.pred < 12) && decide (d < 32) && decide (a < 32) && decide (b < 32)) = true at h
  simp only [Bool.and_eq_true, decide_eq_true_eq] at h
  obtain ⟨⟨⟨h0, h1⟩, h2⟩, h3⟩ := h
  obtain rfl : SlotClass.s = sl := Option.some.inj (of_decide_eq_true hs)
  have t3 : (13 * 2 ^ 0 + 0) < 2 ^ 6 := lt_field (n := 14) (Nat.lt_succ_self 13) (by decide) (by decide)
  have t2 : (b * 2 ^ 6 + (13 * 2 ^ 0 + 0)) < 2 ^ 11 := lt_field (n := 32) h3 t3 (by decide)
  have t1 : (a * 2 ^ 11 + (b * 2 ^ 6 + (13 * 2 ^ 0 + 0))) < 2 ^ 16 := lt_field (n := 32) h2 t2 (by decide)
  have t0 : (d * 2 ^ 16 + (a * 2 ^ 11 + (b * 2 ^ 6 + (13 * 2 ^ 0 + 0)))) < 2 ^ 21 := lt_field (n := 32) h1 t1 (by decide)
  obtain ⟨wd, hw⟩ : ∃ wd, g.neg.toNat * 2 ^ 31 + g.pred * 2 ^ 27 + 1 * 2 ^ 21 + (d * 2 ^ 16 + (a * 2 ^ 11 + (b * 2 ^ 6 + (13 * 2 ^ 0 + 0)))) = wd := ⟨_, rfl⟩
  change decodeWord .s (g.neg.toNat * 2 ^ 31 + g.pred * 2 ^ 27 + 1 * 2 ^ 21 + (d * 2 ^ 16 + (a * 2 ^ 11 + (b * 2 ^ 6 + (13 * 2 ^ 0 + 0))))) = _
  rw [hw, decodeWord_op .s g 1 _ wd h0 (by decide) t0 (by decide) hw]
  change decodeS g wd = _
  have em := fld_major g 1 _ wd (by decide) t0 hw
  have f5_5 : fld wd 5 5 = 0 := (fld_body g 1 _ wd 5 5 (by decide) (by decide) hw).trans ((fld_below (by decide) (by decide)).trans ((fld_below (by decide) (by decide)).trans ((fld_below (by decide) (by decide)).trans (fld_above (lt_field (n := 14) (Nat.lt_succ_self 13) (by decide) (by decide))))))
  have f20_16 : fld wd 20 16 = d := (fld_body g 1 _ wd 20 16 (by decide) (by decide) hw).trans (fld_here (n := 32) h1 t1 (by decide))
  have f15_11 : fld wd 15 11 = a := (fld_body g 1 _ wd 15 11 (by decide) (by decide) hw).trans ((fld_below (by decide) (by decide)).trans (fld_here (n := 32) h2 t2 (by decide)))
  have f10_6 : fld wd 10 6 = b := (fld_body g 1 _ wd 10 6 (by decide) (by decide) hw).trans ((fld_below (by decide) (by decide)).trans ((fld_below (by decide) (by decide)).trans (fld_here (n := 32) h3 t3 (by decide))))
  have f4_0 : fld wd 4 0 = 13 := (fld_body g 1 _ wd 4 0 (by decide) (by decide) hw).trans ((fld_below (by decide) (by decide)).trans ((fld_below (by decide) (by decide)).trans ((fld_below (by decide) (by decide)).trans (fld_here (n := 14) (Nat.lt_succ_self 13) (by decide) (by decide)))))
  have ha : decodeS g wd = need (fld wd 5 5 = 0) (.ok (.mul g (fld wd 20 16) (fld wd 15 11) (fld wd 10 6))) := by
    unfold decodeS; rw [em, f4_0]; rfl
  rw [ha]
  simp only [need, f5_5, f20_16, f15_11, f10_6, if_true]

theorem RoundTrip.mulh (g : Guard) (d : Nat) (a : Nat) (b : Nat) : Statement (.mulh g d a b) := by
  intro h sl hs
  change (decide (g.pred < 12) && decide (d < 32) && decide (a < 32) && decide (b < 32)) = true at h
  simp only [Bool.and_eq_true, decide_eq_true_eq] at h
  obtain ⟨⟨⟨h0, h1⟩, h2⟩, h3⟩ := h
  obtain rfl : SlotClass.s = sl := Option.some.inj (of_decide_eq_true hs)
  have t3 : (7 * 2 ^ 1 + 0) < 2 ^ 6 := lt_field (n := 8) (Nat.lt_succ_self 7) (by decide) (by decide)
  have t2 : (b * 2 ^ 6 + (7 * 2 ^ 1 + 0)) < 2 ^ 11 := lt_field (n := 32) h3 t3 (by decide)
  have t1 : (a * 2 ^ 11 + (b * 2 ^ 6 + (7 * 2 ^ 1 + 0))) < 2 ^ 16 := lt_field (n := 32) h2 t2 (by decide)
  have t0 : (d * 2 ^ 16 + (a * 2 ^ 11 + (b * 2 ^ 6 + (7 * 2 ^ 1 + 0)))) < 2 ^ 21 := lt_field (n := 32) h1 t1 (by decide)
  obtain ⟨wd, hw⟩ : ∃ wd, g.neg.toNat * 2 ^ 31 + g.pred * 2 ^ 27 + 1 * 2 ^ 21 + (d * 2 ^ 16 + (a * 2 ^ 11 + (b * 2 ^ 6 + (7 * 2 ^ 1 + 0)))) = wd := ⟨_, rfl⟩
  change decodeWord .s (g.neg.toNat * 2 ^ 31 + g.pred * 2 ^ 27 + 1 * 2 ^ 21 + (d * 2 ^ 16 + (a * 2 ^ 11 + (b * 2 ^ 6 + (7 * 2 ^ 1 + 0))))) = _
  rw [hw, decodeWord_op .s g 1 _ wd h0 (by decide) t0 (by decide) hw]
  change decodeS g wd = _
  have em := fld_major g 1 _ wd (by decide) t0 hw
  have f5_5 : fld wd 5 5 = 0 := (fld_body g 1 _ wd 5 5 (by decide) (by decide) hw).trans ((fld_below (by decide) (by decide)).trans ((fld_below (by decide) (by decide)).trans ((fld_below (by decide) (by decide)).trans (fld_above (lt_field (n := 8) (Nat.lt_succ_self 7) (by decide) (by decide))))))
  have f20_16 : fld wd 20 16 = d := (fld_body g 1 _ wd 20 16 (by decide) (by decide) hw).trans (fld_here (n := 32) h1 t1 (by decide))
  have f15_11 : fld wd 15 11 = a := (fld_body g 1 _ wd 15 11 (by decide) (by decide) hw).trans ((fld_below (by decide) (by decide)).trans (fld_here (n := 32) h2 t2 (by decide)))
  have f10_6 : fld wd 10 6 = b := (fld_body g 1 _ wd 10 6 (by decide) (by decide) hw).trans ((fld_below (by decide) (by decide)).trans ((fld_below (by decide) (by decide)).trans (fld_here (n := 32) h3 t3 (by decide))))
  have f4_0 : fld wd 4 0 = 14 := (fld_body g 1 _ wd 4 0 (by decide) (by decide) hw).trans ((fld_below (by decide) (by decide)).trans ((fld_below (by decide) (by decide)).trans ((fld_below (by decide) (by decide)).trans (by decide))))
  have ha : decodeS g wd = need (fld wd 5 5 = 0) (.ok (.mulh g (fld wd 20 16) (fld wd 15 11) (fld wd 10 6))) := by
    unfold decodeS; rw [em, f4_0]; rfl
  rw [ha]
  simp only [need, f5_5, f20_16, f15_11, f10_6, if_true]

theorem RoundTrip.mulhu (g : Guard) (d : Nat) (a : Nat) (b : Nat) : Statement (.mulhu g d a b) := by
  intro h sl hs
  change (decide (g.pred < 12) && decide (d < 32) && decide (a < 32) && decide (b < 32)) = true at h
  simp only [Bool.and_eq_true, decide_eq_true_eq] at h
  obtain ⟨⟨⟨h0, h1⟩, h2⟩, h3⟩ := h
  obtain rfl : SlotClass.s = sl := Option.some.inj (of_decide_eq_true hs)
  have t3 : (15 * 2 ^ 0 + 0) < 2 ^ 6 := lt_field (n := 16) (Nat.lt_succ_self 15) (by decide) (by decide)
  have t2 : (b * 2 ^ 6 + (15 * 2 ^ 0 + 0)) < 2 ^ 11 := lt_field (n := 32) h3 t3 (by decide)
  have t1 : (a * 2 ^ 11 + (b * 2 ^ 6 + (15 * 2 ^ 0 + 0))) < 2 ^ 16 := lt_field (n := 32) h2 t2 (by decide)
  have t0 : (d * 2 ^ 16 + (a * 2 ^ 11 + (b * 2 ^ 6 + (15 * 2 ^ 0 + 0)))) < 2 ^ 21 := lt_field (n := 32) h1 t1 (by decide)
  obtain ⟨wd, hw⟩ : ∃ wd, g.neg.toNat * 2 ^ 31 + g.pred * 2 ^ 27 + 1 * 2 ^ 21 + (d * 2 ^ 16 + (a * 2 ^ 11 + (b * 2 ^ 6 + (15 * 2 ^ 0 + 0)))) = wd := ⟨_, rfl⟩
  change decodeWord .s (g.neg.toNat * 2 ^ 31 + g.pred * 2 ^ 27 + 1 * 2 ^ 21 + (d * 2 ^ 16 + (a * 2 ^ 11 + (b * 2 ^ 6 + (15 * 2 ^ 0 + 0))))) = _
  rw [hw, decodeWord_op .s g 1 _ wd h0 (by decide) t0 (by decide) hw]
  change decodeS g wd = _
  have em := fld_major g 1 _ wd (by decide) t0 hw
  have f5_5 : fld wd 5 5 = 0 := (fld_body g 1 _ wd 5 5 (by decide) (by decide) hw).trans ((fld_below (by decide) (by decide)).trans ((fld_below (by decide) (by decide)).trans ((fld_below (by decide) (by decide)).trans (fld_above (lt_field (n := 16) (Nat.lt_succ_self 15) (by decide) (by decide))))))
  have f20_16 : fld wd 20 16 = d := (fld_body g 1 _ wd 20 16 (by decide) (by decide) hw).trans (fld_here (n := 32) h1 t1 (by decide))
  have f15_11 : fld wd 15 11 = a := (fld_body g 1 _ wd 15 11 (by decide) (by decide) hw).trans ((fld_below (by decide) (by decide)).trans (fld_here (n := 32) h2 t2 (by decide)))
  have f10_6 : fld wd 10 6 = b := (fld_body g 1 _ wd 10 6 (by decide) (by decide) hw).trans ((fld_below (by decide) (by decide)).trans ((fld_below (by decide) (by decide)).trans (fld_here (n := 32) h3 t3 (by decide))))
  have f4_0 : fld wd 4 0 = 15 := (fld_body g 1 _ wd 4 0 (by decide) (by decide) hw).trans ((fld_below (by decide) (by decide)).trans ((fld_below (by decide) (by decide)).trans ((fld_below (by decide) (by decide)).trans (fld_here (n := 16) (Nat.lt_succ_self 15) (by decide) (by decide)))))
  have ha : decodeS g wd = need (fld wd 5 5 = 0) (.ok (.mulhu g (fld wd 20 16) (fld wd 15 11) (fld wd 10 6))) := by
    unfold decodeS; rw [em, f4_0]; rfl
  rw [ha]
  simp only [need, f5_5, f20_16, f15_11, f10_6, if_true]

theorem RoundTrip.min (g : Guard) (d : Nat) (a : Nat) (b : Nat) : Statement (.min g d a b) := by
  intro h sl hs
  change (decide (g.pred < 12) && decide (d < 32) && decide (a < 32) && decide (b < 32)) = true at h
  simp only [Bool.and_eq_true, decide_eq_true_eq] at h
  obtain ⟨⟨⟨h0, h1⟩, h2⟩, h3⟩ := h
  obtain rfl : SlotClass.s = sl := Option.some.inj (of_decide_eq_true hs)
  have t3 : (1 * 2 ^ 4 + 0) < 2 ^ 6 := lt_field (n := 2) (Nat.lt_succ_self 1) (by decide) (by decide)
  have t2 : (b * 2 ^ 6 + (1 * 2 ^ 4 + 0)) < 2 ^ 11 := lt_field (n := 32) h3 t3 (by decide)
  have t1 : (a * 2 ^ 11 + (b * 2 ^ 6 + (1 * 2 ^ 4 + 0))) < 2 ^ 16 := lt_field (n := 32) h2 t2 (by decide)
  have t0 : (d * 2 ^ 16 + (a * 2 ^ 11 + (b * 2 ^ 6 + (1 * 2 ^ 4 + 0)))) < 2 ^ 21 := lt_field (n := 32) h1 t1 (by decide)
  obtain ⟨wd, hw⟩ : ∃ wd, g.neg.toNat * 2 ^ 31 + g.pred * 2 ^ 27 + 1 * 2 ^ 21 + (d * 2 ^ 16 + (a * 2 ^ 11 + (b * 2 ^ 6 + (1 * 2 ^ 4 + 0)))) = wd := ⟨_, rfl⟩
  change decodeWord .s (g.neg.toNat * 2 ^ 31 + g.pred * 2 ^ 27 + 1 * 2 ^ 21 + (d * 2 ^ 16 + (a * 2 ^ 11 + (b * 2 ^ 6 + (1 * 2 ^ 4 + 0))))) = _
  rw [hw, decodeWord_op .s g 1 _ wd h0 (by decide) t0 (by decide) hw]
  change decodeS g wd = _
  have em := fld_major g 1 _ wd (by decide) t0 hw
  have f5_5 : fld wd 5 5 = 0 := (fld_body g 1 _ wd 5 5 (by decide) (by decide) hw).trans ((fld_below (by decide) (by decide)).trans ((fld_below (by decide) (by decide)).trans ((fld_below (by decide) (by decide)).trans (fld_above (lt_field (n := 2) (Nat.lt_succ_self 1) (by decide) (by decide))))))
  have f20_16 : fld wd 20 16 = d := (fld_body g 1 _ wd 20 16 (by decide) (by decide) hw).trans (fld_here (n := 32) h1 t1 (by decide))
  have f15_11 : fld wd 15 11 = a := (fld_body g 1 _ wd 15 11 (by decide) (by decide) hw).trans ((fld_below (by decide) (by decide)).trans (fld_here (n := 32) h2 t2 (by decide)))
  have f10_6 : fld wd 10 6 = b := (fld_body g 1 _ wd 10 6 (by decide) (by decide) hw).trans ((fld_below (by decide) (by decide)).trans ((fld_below (by decide) (by decide)).trans (fld_here (n := 32) h3 t3 (by decide))))
  have f4_0 : fld wd 4 0 = 16 := (fld_body g 1 _ wd 4 0 (by decide) (by decide) hw).trans ((fld_below (by decide) (by decide)).trans ((fld_below (by decide) (by decide)).trans ((fld_below (by decide) (by decide)).trans (by decide))))
  have ha : decodeS g wd = need (fld wd 5 5 = 0) (.ok (.min g (fld wd 20 16) (fld wd 15 11) (fld wd 10 6))) := by
    unfold decodeS; rw [em, f4_0]; rfl
  rw [ha]
  simp only [need, f5_5, f20_16, f15_11, f10_6, if_true]

theorem RoundTrip.max (g : Guard) (d : Nat) (a : Nat) (b : Nat) : Statement (.max g d a b) := by
  intro h sl hs
  change (decide (g.pred < 12) && decide (d < 32) && decide (a < 32) && decide (b < 32)) = true at h
  simp only [Bool.and_eq_true, decide_eq_true_eq] at h
  obtain ⟨⟨⟨h0, h1⟩, h2⟩, h3⟩ := h
  obtain rfl : SlotClass.s = sl := Option.some.inj (of_decide_eq_true hs)
  have t3 : (17 * 2 ^ 0 + 0) < 2 ^ 6 := lt_field (n := 18) (Nat.lt_succ_self 17) (by decide) (by decide)
  have t2 : (b * 2 ^ 6 + (17 * 2 ^ 0 + 0)) < 2 ^ 11 := lt_field (n := 32) h3 t3 (by decide)
  have t1 : (a * 2 ^ 11 + (b * 2 ^ 6 + (17 * 2 ^ 0 + 0))) < 2 ^ 16 := lt_field (n := 32) h2 t2 (by decide)
  have t0 : (d * 2 ^ 16 + (a * 2 ^ 11 + (b * 2 ^ 6 + (17 * 2 ^ 0 + 0)))) < 2 ^ 21 := lt_field (n := 32) h1 t1 (by decide)
  obtain ⟨wd, hw⟩ : ∃ wd, g.neg.toNat * 2 ^ 31 + g.pred * 2 ^ 27 + 1 * 2 ^ 21 + (d * 2 ^ 16 + (a * 2 ^ 11 + (b * 2 ^ 6 + (17 * 2 ^ 0 + 0)))) = wd := ⟨_, rfl⟩
  change decodeWord .s (g.neg.toNat * 2 ^ 31 + g.pred * 2 ^ 27 + 1 * 2 ^ 21 + (d * 2 ^ 16 + (a * 2 ^ 11 + (b * 2 ^ 6 + (17 * 2 ^ 0 + 0))))) = _
  rw [hw, decodeWord_op .s g 1 _ wd h0 (by decide) t0 (by decide) hw]
  change decodeS g wd = _
  have em := fld_major g 1 _ wd (by decide) t0 hw
  have f5_5 : fld wd 5 5 = 0 := (fld_body g 1 _ wd 5 5 (by decide) (by decide) hw).trans ((fld_below (by decide) (by decide)).trans ((fld_below (by decide) (by decide)).trans ((fld_below (by decide) (by decide)).trans (fld_above (lt_field (n := 18) (Nat.lt_succ_self 17) (by decide) (by decide))))))
  have f20_16 : fld wd 20 16 = d := (fld_body g 1 _ wd 20 16 (by decide) (by decide) hw).trans (fld_here (n := 32) h1 t1 (by decide))
  have f15_11 : fld wd 15 11 = a := (fld_body g 1 _ wd 15 11 (by decide) (by decide) hw).trans ((fld_below (by decide) (by decide)).trans (fld_here (n := 32) h2 t2 (by decide)))
  have f10_6 : fld wd 10 6 = b := (fld_body g 1 _ wd 10 6 (by decide) (by decide) hw).trans ((fld_below (by decide) (by decide)).trans ((fld_below (by decide) (by decide)).trans (fld_here (n := 32) h3 t3 (by decide))))
  have f4_0 : fld wd 4 0 = 17 := (fld_body g 1 _ wd 4 0 (by decide) (by decide) hw).trans ((fld_below (by decide) (by decide)).trans ((fld_below (by decide) (by decide)).trans ((fld_below (by decide) (by decide)).trans (fld_here (n := 18) (Nat.lt_succ_self 17) (by decide) (by decide)))))
  have ha : decodeS g wd = need (fld wd 5 5 = 0) (.ok (.max g (fld wd 20 16) (fld wd 15 11) (fld wd 10 6))) := by
    unfold decodeS; rw [em, f4_0]; rfl
  rw [ha]
  simp only [need, f5_5, f20_16, f15_11, f10_6, if_true]

theorem RoundTrip.minu (g : Guard) (d : Nat) (a : Nat) (b : Nat) : Statement (.minu g d a b) := by
  intro h sl hs
  change (decide (g.pred < 12) && decide (d < 32) && decide (a < 32) && decide (b < 32)) = true at h
  simp only [Bool.and_eq_true, decide_eq_true_eq] at h
  obtain ⟨⟨⟨h0, h1⟩, h2⟩, h3⟩ := h
  obtain rfl : SlotClass.s = sl := Option.some.inj (of_decide_eq_true hs)
  have t3 : (9 * 2 ^ 1 + 0) < 2 ^ 6 := lt_field (n := 10) (Nat.lt_succ_self 9) (by decide) (by decide)
  have t2 : (b * 2 ^ 6 + (9 * 2 ^ 1 + 0)) < 2 ^ 11 := lt_field (n := 32) h3 t3 (by decide)
  have t1 : (a * 2 ^ 11 + (b * 2 ^ 6 + (9 * 2 ^ 1 + 0))) < 2 ^ 16 := lt_field (n := 32) h2 t2 (by decide)
  have t0 : (d * 2 ^ 16 + (a * 2 ^ 11 + (b * 2 ^ 6 + (9 * 2 ^ 1 + 0)))) < 2 ^ 21 := lt_field (n := 32) h1 t1 (by decide)
  obtain ⟨wd, hw⟩ : ∃ wd, g.neg.toNat * 2 ^ 31 + g.pred * 2 ^ 27 + 1 * 2 ^ 21 + (d * 2 ^ 16 + (a * 2 ^ 11 + (b * 2 ^ 6 + (9 * 2 ^ 1 + 0)))) = wd := ⟨_, rfl⟩
  change decodeWord .s (g.neg.toNat * 2 ^ 31 + g.pred * 2 ^ 27 + 1 * 2 ^ 21 + (d * 2 ^ 16 + (a * 2 ^ 11 + (b * 2 ^ 6 + (9 * 2 ^ 1 + 0))))) = _
  rw [hw, decodeWord_op .s g 1 _ wd h0 (by decide) t0 (by decide) hw]
  change decodeS g wd = _
  have em := fld_major g 1 _ wd (by decide) t0 hw
  have f5_5 : fld wd 5 5 = 0 := (fld_body g 1 _ wd 5 5 (by decide) (by decide) hw).trans ((fld_below (by decide) (by decide)).trans ((fld_below (by decide) (by decide)).trans ((fld_below (by decide) (by decide)).trans (fld_above (lt_field (n := 10) (Nat.lt_succ_self 9) (by decide) (by decide))))))
  have f20_16 : fld wd 20 16 = d := (fld_body g 1 _ wd 20 16 (by decide) (by decide) hw).trans (fld_here (n := 32) h1 t1 (by decide))
  have f15_11 : fld wd 15 11 = a := (fld_body g 1 _ wd 15 11 (by decide) (by decide) hw).trans ((fld_below (by decide) (by decide)).trans (fld_here (n := 32) h2 t2 (by decide)))
  have f10_6 : fld wd 10 6 = b := (fld_body g 1 _ wd 10 6 (by decide) (by decide) hw).trans ((fld_below (by decide) (by decide)).trans ((fld_below (by decide) (by decide)).trans (fld_here (n := 32) h3 t3 (by decide))))
  have f4_0 : fld wd 4 0 = 18 := (fld_body g 1 _ wd 4 0 (by decide) (by decide) hw).trans ((fld_below (by decide) (by decide)).trans ((fld_below (by decide) (by decide)).trans ((fld_below (by decide) (by decide)).trans (by decide))))
  have ha : decodeS g wd = need (fld wd 5 5 = 0) (.ok (.minu g (fld wd 20 16) (fld wd 15 11) (fld wd 10 6))) := by
    unfold decodeS; rw [em, f4_0]; rfl
  rw [ha]
  simp only [need, f5_5, f20_16, f15_11, f10_6, if_true]

theorem RoundTrip.maxu (g : Guard) (d : Nat) (a : Nat) (b : Nat) : Statement (.maxu g d a b) := by
  intro h sl hs
  change (decide (g.pred < 12) && decide (d < 32) && decide (a < 32) && decide (b < 32)) = true at h
  simp only [Bool.and_eq_true, decide_eq_true_eq] at h
  obtain ⟨⟨⟨h0, h1⟩, h2⟩, h3⟩ := h
  obtain rfl : SlotClass.s = sl := Option.some.inj (of_decide_eq_true hs)
  have t3 : (19 * 2 ^ 0 + 0) < 2 ^ 6 := lt_field (n := 20) (Nat.lt_succ_self 19) (by decide) (by decide)
  have t2 : (b * 2 ^ 6 + (19 * 2 ^ 0 + 0)) < 2 ^ 11 := lt_field (n := 32) h3 t3 (by decide)
  have t1 : (a * 2 ^ 11 + (b * 2 ^ 6 + (19 * 2 ^ 0 + 0))) < 2 ^ 16 := lt_field (n := 32) h2 t2 (by decide)
  have t0 : (d * 2 ^ 16 + (a * 2 ^ 11 + (b * 2 ^ 6 + (19 * 2 ^ 0 + 0)))) < 2 ^ 21 := lt_field (n := 32) h1 t1 (by decide)
  obtain ⟨wd, hw⟩ : ∃ wd, g.neg.toNat * 2 ^ 31 + g.pred * 2 ^ 27 + 1 * 2 ^ 21 + (d * 2 ^ 16 + (a * 2 ^ 11 + (b * 2 ^ 6 + (19 * 2 ^ 0 + 0)))) = wd := ⟨_, rfl⟩
  change decodeWord .s (g.neg.toNat * 2 ^ 31 + g.pred * 2 ^ 27 + 1 * 2 ^ 21 + (d * 2 ^ 16 + (a * 2 ^ 11 + (b * 2 ^ 6 + (19 * 2 ^ 0 + 0))))) = _
  rw [hw, decodeWord_op .s g 1 _ wd h0 (by decide) t0 (by decide) hw]
  change decodeS g wd = _
  have em := fld_major g 1 _ wd (by decide) t0 hw
  have f5_5 : fld wd 5 5 = 0 := (fld_body g 1 _ wd 5 5 (by decide) (by decide) hw).trans ((fld_below (by decide) (by decide)).trans ((fld_below (by decide) (by decide)).trans ((fld_below (by decide) (by decide)).trans (fld_above (lt_field (n := 20) (Nat.lt_succ_self 19) (by decide) (by decide))))))
  have f20_16 : fld wd 20 16 = d := (fld_body g 1 _ wd 20 16 (by decide) (by decide) hw).trans (fld_here (n := 32) h1 t1 (by decide))
  have f15_11 : fld wd 15 11 = a := (fld_body g 1 _ wd 15 11 (by decide) (by decide) hw).trans ((fld_below (by decide) (by decide)).trans (fld_here (n := 32) h2 t2 (by decide)))
  have f10_6 : fld wd 10 6 = b := (fld_body g 1 _ wd 10 6 (by decide) (by decide) hw).trans ((fld_below (by decide) (by decide)).trans ((fld_below (by decide) (by decide)).trans (fld_here (n := 32) h3 t3 (by decide))))
  have f4_0 : fld wd 4 0 = 19 := (fld_body g 1 _ wd 4 0 (by decide) (by decide) hw).trans ((fld_below (by decide) (by decide)).trans ((fld_below (by decide) (by decide)).trans ((fld_below (by decide) (by decide)).trans (fld_here (n := 20) (Nat.lt_succ_self 19) (by decide) (by decide)))))
  have ha : decodeS g wd = need (fld wd 5 5 = 0) (.ok (.maxu g (fld wd 20 16) (fld wd 15 11) (fld wd 10 6))) := by
    unfold decodeS; rw [em, f4_0]; rfl
  rw [ha]
  simp only [need, f5_5, f20_16, f15_11, f10_6, if_true]

theorem RoundTrip.clz (g : Guard) (d : Nat) (a : Nat) : Statement (.clz g d a) := by
  intro h sl hs
  change (decide (g.pred < 12) && decide (d < 32) && decide (a < 32)) = true at h
  simp only [Bool.and_eq_true, decide_eq_true_eq] at h
  obtain ⟨⟨h0, h1⟩, h2⟩ := h
  obtain rfl : SlotClass.s = sl := Option.some.inj (of_decide_eq_true hs)
  have t2 : (5 * 2 ^ 2 + 0) < 2 ^ 11 := lt_field (n := 6) (Nat.lt_succ_self 5) (by decide) (by decide)
  have t1 : (a * 2 ^ 11 + (5 * 2 ^ 2 + 0)) < 2 ^ 16 := lt_field (n := 32) h2 t2 (by decide)
  have t0 : (d * 2 ^ 16 + (a * 2 ^ 11 + (5 * 2 ^ 2 + 0))) < 2 ^ 21 := lt_field (n := 32) h1 t1 (by decide)
  obtain ⟨wd, hw⟩ : ∃ wd, g.neg.toNat * 2 ^ 31 + g.pred * 2 ^ 27 + 1 * 2 ^ 21 + (d * 2 ^ 16 + (a * 2 ^ 11 + (5 * 2 ^ 2 + 0))) = wd := ⟨_, rfl⟩
  change decodeWord .s (g.neg.toNat * 2 ^ 31 + g.pred * 2 ^ 27 + 1 * 2 ^ 21 + (d * 2 ^ 16 + (a * 2 ^ 11 + (5 * 2 ^ 2 + 0)))) = _
  rw [hw, decodeWord_op .s g 1 _ wd h0 (by decide) t0 (by decide) hw]
  change decodeS g wd = _
  have em := fld_major g 1 _ wd (by decide) t0 hw
  have f10_5 : fld wd 10 5 = 0 := (fld_body g 1 _ wd 10 5 (by decide) (by decide) hw).trans ((fld_below (by decide) (by decide)).trans ((fld_below (by decide) (by decide)).trans (fld_above (lt_field (n := 6) (Nat.lt_succ_self 5) (by decide) (by decide)))))
  have f20_16 : fld wd 20 16 = d := (fld_body g 1 _ wd 20 16 (by decide) (by decide) hw).trans (fld_here (n := 32) h1 t1 (by decide))
  have f15_11 : fld wd 15 11 = a := (fld_body g 1 _ wd 15 11 (by decide) (by decide) hw).trans ((fld_below (by decide) (by decide)).trans (fld_here (n := 32) h2 t2 (by decide)))
  have f4_0 : fld wd 4 0 = 20 := (fld_body g 1 _ wd 4 0 (by decide) (by decide) hw).trans ((fld_below (by decide) (by decide)).trans ((fld_below (by decide) (by decide)).trans (by decide)))
  have ha : decodeS g wd = need (fld wd 10 5 = 0) (.ok (.clz g (fld wd 20 16) (fld wd 15 11))) := by
    unfold decodeS; rw [em, f4_0]; rfl
  rw [ha]
  simp only [need, f10_5, f20_16, f15_11, if_true]

theorem RoundTrip.ctz (g : Guard) (d : Nat) (a : Nat) : Statement (.ctz g d a) := by
  intro h sl hs
  change (decide (g.pred < 12) && decide (d < 32) && decide (a < 32)) = true at h
  simp only [Bool.and_eq_true, decide_eq_true_eq] at h
  obtain ⟨⟨h0, h1⟩, h2⟩ := h
  obtain rfl : SlotClass.s = sl := Option.some.inj (of_decide_eq_true hs)
  have t2 : (21 * 2 ^ 0 + 0) < 2 ^ 11 := lt_field (n := 22) (Nat.lt_succ_self 21) (by decide) (by decide)
  have t1 : (a * 2 ^ 11 + (21 * 2 ^ 0 + 0)) < 2 ^ 16 := lt_field (n := 32) h2 t2 (by decide)
  have t0 : (d * 2 ^ 16 + (a * 2 ^ 11 + (21 * 2 ^ 0 + 0))) < 2 ^ 21 := lt_field (n := 32) h1 t1 (by decide)
  obtain ⟨wd, hw⟩ : ∃ wd, g.neg.toNat * 2 ^ 31 + g.pred * 2 ^ 27 + 1 * 2 ^ 21 + (d * 2 ^ 16 + (a * 2 ^ 11 + (21 * 2 ^ 0 + 0))) = wd := ⟨_, rfl⟩
  change decodeWord .s (g.neg.toNat * 2 ^ 31 + g.pred * 2 ^ 27 + 1 * 2 ^ 21 + (d * 2 ^ 16 + (a * 2 ^ 11 + (21 * 2 ^ 0 + 0)))) = _
  rw [hw, decodeWord_op .s g 1 _ wd h0 (by decide) t0 (by decide) hw]
  change decodeS g wd = _
  have em := fld_major g 1 _ wd (by decide) t0 hw
  have f10_5 : fld wd 10 5 = 0 := (fld_body g 1 _ wd 10 5 (by decide) (by decide) hw).trans ((fld_below (by decide) (by decide)).trans ((fld_below (by decide) (by decide)).trans (fld_above (lt_field (n := 22) (Nat.lt_succ_self 21) (by decide) (by decide)))))
  have f20_16 : fld wd 20 16 = d := (fld_body g 1 _ wd 20 16 (by decide) (by decide) hw).trans (fld_here (n := 32) h1 t1 (by decide))
  have f15_11 : fld wd 15 11 = a := (fld_body g 1 _ wd 15 11 (by decide) (by decide) hw).trans ((fld_below (by decide) (by decide)).trans (fld_here (n := 32) h2 t2 (by decide)))
  have f4_0 : fld wd 4 0 = 21 := (fld_body g 1 _ wd 4 0 (by decide) (by decide) hw).trans ((fld_below (by decide) (by decide)).trans ((fld_below (by decide) (by decide)).trans (fld_here (n := 22) (Nat.lt_succ_self 21) (by decide) (by decide))))
  have ha : decodeS g wd = need (fld wd 10 5 = 0) (.ok (.ctz g (fld wd 20 16) (fld wd 15 11))) := by
    unfold decodeS; rw [em, f4_0]; rfl
  rw [ha]
  simp only [need, f10_5, f20_16, f15_11, if_true]

theorem RoundTrip.popc (g : Guard) (d : Nat) (a : Nat) : Statement (.popc g d a) := by
  intro h sl hs
  change (decide (g.pred < 12) && decide (d < 32) && decide (a < 32)) = true at h
  simp only [Bool.and_eq_true, decide_eq_true_eq] at h
  obtain ⟨⟨h0, h1⟩, h2⟩ := h
  obtain rfl : SlotClass.s = sl := Option.some.inj (of_decide_eq_true hs)
  have t2 : (11 * 2 ^ 1 + 0) < 2 ^ 11 := lt_field (n := 12) (Nat.lt_succ_self 11) (by decide) (by decide)
  have t1 : (a * 2 ^ 11 + (11 * 2 ^ 1 + 0)) < 2 ^ 16 := lt_field (n := 32) h2 t2 (by decide)
  have t0 : (d * 2 ^ 16 + (a * 2 ^ 11 + (11 * 2 ^ 1 + 0))) < 2 ^ 21 := lt_field (n := 32) h1 t1 (by decide)
  obtain ⟨wd, hw⟩ : ∃ wd, g.neg.toNat * 2 ^ 31 + g.pred * 2 ^ 27 + 1 * 2 ^ 21 + (d * 2 ^ 16 + (a * 2 ^ 11 + (11 * 2 ^ 1 + 0))) = wd := ⟨_, rfl⟩
  change decodeWord .s (g.neg.toNat * 2 ^ 31 + g.pred * 2 ^ 27 + 1 * 2 ^ 21 + (d * 2 ^ 16 + (a * 2 ^ 11 + (11 * 2 ^ 1 + 0)))) = _
  rw [hw, decodeWord_op .s g 1 _ wd h0 (by decide) t0 (by decide) hw]
  change decodeS g wd = _
  have em := fld_major g 1 _ wd (by decide) t0 hw
  have f10_5 : fld wd 10 5 = 0 := (fld_body g 1 _ wd 10 5 (by decide) (by decide) hw).trans ((fld_below (by decide) (by decide)).trans ((fld_below (by decide) (by decide)).trans (fld_above (lt_field (n := 12) (Nat.lt_succ_self 11) (by decide) (by decide)))))
  have f20_16 : fld wd 20 16 = d := (fld_body g 1 _ wd 20 16 (by decide) (by decide) hw).trans (fld_here (n := 32) h1 t1 (by decide))
  have f15_11 : fld wd 15 11 = a := (fld_body g 1 _ wd 15 11 (by decide) (by decide) hw).trans ((fld_below (by decide) (by decide)).trans (fld_here (n := 32) h2 t2 (by decide)))
  have f4_0 : fld wd 4 0 = 22 := (fld_body g 1 _ wd 4 0 (by decide) (by decide) hw).trans ((fld_below (by decide) (by decide)).trans ((fld_below (by decide) (by decide)).trans (by decide)))
  have ha : decodeS g wd = need (fld wd 10 5 = 0) (.ok (.popc g (fld wd 20 16) (fld wd 15 11))) := by
    unfold decodeS; rw [em, f4_0]; rfl
  rw [ha]
  simp only [need, f10_5, f20_16, f15_11, if_true]

theorem RoundTrip.bswap (g : Guard) (d : Nat) (a : Nat) : Statement (.bswap g d a) := by
  intro h sl hs
  change (decide (g.pred < 12) && decide (d < 32) && decide (a < 32)) = true at h
  simp only [Bool.and_eq_true, decide_eq_true_eq] at h
  obtain ⟨⟨h0, h1⟩, h2⟩ := h
  obtain rfl : SlotClass.s = sl := Option.some.inj (of_decide_eq_true hs)
  have t2 : (23 * 2 ^ 0 + 0) < 2 ^ 11 := lt_field (n := 24) (Nat.lt_succ_self 23) (by decide) (by decide)
  have t1 : (a * 2 ^ 11 + (23 * 2 ^ 0 + 0)) < 2 ^ 16 := lt_field (n := 32) h2 t2 (by decide)
  have t0 : (d * 2 ^ 16 + (a * 2 ^ 11 + (23 * 2 ^ 0 + 0))) < 2 ^ 21 := lt_field (n := 32) h1 t1 (by decide)
  obtain ⟨wd, hw⟩ : ∃ wd, g.neg.toNat * 2 ^ 31 + g.pred * 2 ^ 27 + 1 * 2 ^ 21 + (d * 2 ^ 16 + (a * 2 ^ 11 + (23 * 2 ^ 0 + 0))) = wd := ⟨_, rfl⟩
  change decodeWord .s (g.neg.toNat * 2 ^ 31 + g.pred * 2 ^ 27 + 1 * 2 ^ 21 + (d * 2 ^ 16 + (a * 2 ^ 11 + (23 * 2 ^ 0 + 0)))) = _
  rw [hw, decodeWord_op .s g 1 _ wd h0 (by decide) t0 (by decide) hw]
  change decodeS g wd = _
  have em := fld_major g 1 _ wd (by decide) t0 hw
  have f10_5 : fld wd 10 5 = 0 := (fld_body g 1 _ wd 10 5 (by decide) (by decide) hw).trans ((fld_below (by decide) (by decide)).trans ((fld_below (by decide) (by decide)).trans (fld_above (lt_field (n := 24) (Nat.lt_succ_self 23) (by decide) (by decide)))))
  have f20_16 : fld wd 20 16 = d := (fld_body g 1 _ wd 20 16 (by decide) (by decide) hw).trans (fld_here (n := 32) h1 t1 (by decide))
  have f15_11 : fld wd 15 11 = a := (fld_body g 1 _ wd 15 11 (by decide) (by decide) hw).trans ((fld_below (by decide) (by decide)).trans (fld_here (n := 32) h2 t2 (by decide)))
  have f4_0 : fld wd 4 0 = 23 := (fld_body g 1 _ wd 4 0 (by decide) (by decide) hw).trans ((fld_below (by decide) (by decide)).trans ((fld_below (by decide) (by decide)).trans (fld_here (n := 24) (Nat.lt_succ_self 23) (by decide) (by decide))))
  have ha : decodeS g wd = need (fld wd 10 5 = 0) (.ok (.bswap g (fld wd 20 16) (fld wd 15 11))) := by
    unfold decodeS; rw [em, f4_0]; rfl
  rw [ha]
  simp only [need, f10_5, f20_16, f15_11, if_true]

theorem RoundTrip.adds (g : Guard) (d : Nat) (a : Nat) (b : Nat) : Statement (.adds g d a b) := by
  intro h sl hs
  change (decide (g.pred < 12) && decide (d < 32) && decide (a < 32) && decide (b < 32)) = true at h
  simp only [Bool.and_eq_true, decide_eq_true_eq] at h
  obtain ⟨⟨⟨h0, h1⟩, h2⟩, h3⟩ := h
  obtain rfl : SlotClass.s = sl := Option.some.inj (of_decide_eq_true hs)
  have t3 : (3 * 2 ^ 3 + 0) < 2 ^ 6 := lt_field (n := 4) (Nat.lt_succ_self 3) (by decide) (by decide)
  have t2 : (b * 2 ^ 6 + (3 * 2 ^ 3 + 0)) < 2 ^ 11 := lt_field (n := 32) h3 t3 (by decide)
  have t1 : (a * 2 ^ 11 + (b * 2 ^ 6 + (3 * 2 ^ 3 + 0))) < 2 ^ 16 := lt_field (n := 32) h2 t2 (by decide)
  have t0 : (d * 2 ^ 16 + (a * 2 ^ 11 + (b * 2 ^ 6 + (3 * 2 ^ 3 + 0)))) < 2 ^ 21 := lt_field (n := 32) h1 t1 (by decide)
  obtain ⟨wd, hw⟩ : ∃ wd, g.neg.toNat * 2 ^ 31 + g.pred * 2 ^ 27 + 1 * 2 ^ 21 + (d * 2 ^ 16 + (a * 2 ^ 11 + (b * 2 ^ 6 + (3 * 2 ^ 3 + 0)))) = wd := ⟨_, rfl⟩
  change decodeWord .s (g.neg.toNat * 2 ^ 31 + g.pred * 2 ^ 27 + 1 * 2 ^ 21 + (d * 2 ^ 16 + (a * 2 ^ 11 + (b * 2 ^ 6 + (3 * 2 ^ 3 + 0))))) = _
  rw [hw, decodeWord_op .s g 1 _ wd h0 (by decide) t0 (by decide) hw]
  change decodeS g wd = _
  have em := fld_major g 1 _ wd (by decide) t0 hw
  have f5_5 : fld wd 5 5 = 0 := (fld_body g 1 _ wd 5 5 (by decide) (by decide) hw).trans ((fld_below (by decide) (by decide)).trans ((fld_below (by decide) (by decide)).trans ((fld_below (by decide) (by decide)).trans (fld_above (lt_field (n := 4) (Nat.lt_succ_self 3) (by decide) (by decide))))))
  have f20_16 : fld wd 20 16 = d := (fld_body g 1 _ wd 20 16 (by decide) (by decide) hw).trans (fld_here (n := 32) h1 t1 (by decide))
  have f15_11 : fld wd 15 11 = a := (fld_body g 1 _ wd 15 11 (by decide) (by decide) hw).trans ((fld_below (by decide) (by decide)).trans (fld_here (n := 32) h2 t2 (by decide)))
  have f10_6 : fld wd 10 6 = b := (fld_body g 1 _ wd 10 6 (by decide) (by decide) hw).trans ((fld_below (by decide) (by decide)).trans ((fld_below (by decide) (by decide)).trans (fld_here (n := 32) h3 t3 (by decide))))
  have f4_0 : fld wd 4 0 = 24 := (fld_body g 1 _ wd 4 0 (by decide) (by decide) hw).trans ((fld_below (by decide) (by decide)).trans ((fld_below (by decide) (by decide)).trans ((fld_below (by decide) (by decide)).trans (by decide))))
  have ha : decodeS g wd = need (fld wd 5 5 = 0) (.ok (.adds g (fld wd 20 16) (fld wd 15 11) (fld wd 10 6))) := by
    unfold decodeS; rw [em, f4_0]; rfl
  rw [ha]
  simp only [need, f5_5, f20_16, f15_11, f10_6, if_true]

theorem RoundTrip.subs (g : Guard) (d : Nat) (a : Nat) (b : Nat) : Statement (.subs g d a b) := by
  intro h sl hs
  change (decide (g.pred < 12) && decide (d < 32) && decide (a < 32) && decide (b < 32)) = true at h
  simp only [Bool.and_eq_true, decide_eq_true_eq] at h
  obtain ⟨⟨⟨h0, h1⟩, h2⟩, h3⟩ := h
  obtain rfl : SlotClass.s = sl := Option.some.inj (of_decide_eq_true hs)
  have t3 : (25 * 2 ^ 0 + 0) < 2 ^ 6 := lt_field (n := 26) (Nat.lt_succ_self 25) (by decide) (by decide)
  have t2 : (b * 2 ^ 6 + (25 * 2 ^ 0 + 0)) < 2 ^ 11 := lt_field (n := 32) h3 t3 (by decide)
  have t1 : (a * 2 ^ 11 + (b * 2 ^ 6 + (25 * 2 ^ 0 + 0))) < 2 ^ 16 := lt_field (n := 32) h2 t2 (by decide)
  have t0 : (d * 2 ^ 16 + (a * 2 ^ 11 + (b * 2 ^ 6 + (25 * 2 ^ 0 + 0)))) < 2 ^ 21 := lt_field (n := 32) h1 t1 (by decide)
  obtain ⟨wd, hw⟩ : ∃ wd, g.neg.toNat * 2 ^ 31 + g.pred * 2 ^ 27 + 1 * 2 ^ 21 + (d * 2 ^ 16 + (a * 2 ^ 11 + (b * 2 ^ 6 + (25 * 2 ^ 0 + 0)))) = wd := ⟨_, rfl⟩
  change decodeWord .s (g.neg.toNat * 2 ^ 31 + g.pred * 2 ^ 27 + 1 * 2 ^ 21 + (d * 2 ^ 16 + (a * 2 ^ 11 + (b * 2 ^ 6 + (25 * 2 ^ 0 + 0))))) = _
  rw [hw, decodeWord_op .s g 1 _ wd h0 (by decide) t0 (by decide) hw]
  change decodeS g wd = _
  have em := fld_major g 1 _ wd (by decide) t0 hw
  have f5_5 : fld wd 5 5 = 0 := (fld_body g 1 _ wd 5 5 (by decide) (by decide) hw).trans ((fld_below (by decide) (by decide)).trans ((fld_below (by decide) (by decide)).trans ((fld_below (by decide) (by decide)).trans (fld_above (lt_field (n := 26) (Nat.lt_succ_self 25) (by decide) (by decide))))))
  have f20_16 : fld wd 20 16 = d := (fld_body g 1 _ wd 20 16 (by decide) (by decide) hw).trans (fld_here (n := 32) h1 t1 (by decide))
  have f15_11 : fld wd 15 11 = a := (fld_body g 1 _ wd 15 11 (by decide) (by decide) hw).trans ((fld_below (by decide) (by decide)).trans (fld_here (n := 32) h2 t2 (by decide)))
  have f10_6 : fld wd 10 6 = b := (fld_body g 1 _ wd 10 6 (by decide) (by decide) hw).trans ((fld_below (by decide) (by decide)).trans ((fld_below (by decide) (by decide)).trans (fld_here (n := 32) h3 t3 (by decide))))
  have f4_0 : fld wd 4 0 = 25 := (fld_body g 1 _ wd 4 0 (by decide) (by decide) hw).trans ((fld_below (by decide) (by decide)).trans ((fld_below (by decide) (by decide)).trans ((fld_below (by decide) (by decide)).trans (fld_here (n := 26) (Nat.lt_succ_self 25) (by decide) (by decide)))))
  have ha : decodeS g wd = need (fld wd 5 5 = 0) (.ok (.subs g (fld wd 20 16) (fld wd 15 11) (fld wd 10 6))) := by
    unfold decodeS; rw [em, f4_0]; rfl
  rw [ha]
  simp only [need, f5_5, f20_16, f15_11, f10_6, if_true]

theorem RoundTrip.addi (g : Guard) (d : Nat) (a : Nat) (i : Nat) : Statement (.addi g d a i) := by
  intro h sl hs
  change (decide (g.pred < 12) && decide (d < 32) && decide (a < 32) && decide (i < 2048)) = true at h
  simp only [Bool.and_eq_true, decide_eq_true_eq] at h
  obtain ⟨⟨⟨h0, h1⟩, h2⟩, h3⟩ := h
  obtain rfl : SlotClass.s = sl := Option.some.inj (of_decide_eq_true hs)
  have t2 : (i * 2 ^ 0 + 0) < 2 ^ 11 := lt_field (n := 2048) h3 (by decide) (by decide)
  have t1 : (a * 2 ^ 11 + (i * 2 ^ 0 + 0)) < 2 ^ 16 := lt_field (n := 32) h2 t2 (by decide)
  have t0 : (d * 2 ^ 16 + (a * 2 ^ 11 + (i * 2 ^ 0 + 0))) < 2 ^ 21 := lt_field (n := 32) h1 t1 (by decide)
  obtain ⟨wd, hw⟩ : ∃ wd, g.neg.toNat * 2 ^ 31 + g.pred * 2 ^ 27 + 2 * 2 ^ 21 + (d * 2 ^ 16 + (a * 2 ^ 11 + (i * 2 ^ 0 + 0))) = wd := ⟨_, rfl⟩
  change decodeWord .s (g.neg.toNat * 2 ^ 31 + g.pred * 2 ^ 27 + 2 * 2 ^ 21 + (d * 2 ^ 16 + (a * 2 ^ 11 + (i * 2 ^ 0 + 0)))) = _
  rw [hw, decodeWord_op .s g 2 _ wd h0 (by decide) t0 (by decide) hw]
  change decodeS g wd = _
  have em := fld_major g 2 _ wd (by decide) t0 hw
  have f20_16 : fld wd 20 16 = d := (fld_body g 2 _ wd 20 16 (by decide) (by decide) hw).trans (fld_here (n := 32) h1 t1 (by decide))
  have f15_11 : fld wd 15 11 = a := (fld_body g 2 _ wd 15 11 (by decide) (by decide) hw).trans ((fld_below (by decide) (by decide)).trans (fld_here (n := 32) h2 t2 (by decide)))
  have f10_0 : fld wd 10 0 = i := (fld_body g 2 _ wd 10 0 (by decide) (by decide) hw).trans ((fld_below (by decide) (by decide)).trans ((fld_below (by decide) (by decide)).trans (fld_here (n := 2048) h3 (by decide) (by decide))))
  have ha : decodeS g wd = .ok (.addi g (fld wd 20 16) (fld wd 15 11) (fld wd 10 0)) := by
    unfold decodeS; rw [em]; rfl
  rw [ha]
  rw [f20_16, f15_11, f10_0]

theorem RoundTrip.andi (g : Guard) (d : Nat) (a : Nat) (i : Nat) : Statement (.andi g d a i) := by
  intro h sl hs
  change (decide (g.pred < 12) && decide (d < 32) && decide (a < 32) && decide (i < 2048)) = true at h
  simp only [Bool.and_eq_true, decide_eq_true_eq] at h
  obtain ⟨⟨⟨h0, h1⟩, h2⟩, h3⟩ := h
  obtain rfl : SlotClass.s = sl := Option.some.inj (of_decide_eq_true hs)
  have t2 : (i * 2 ^ 0 + 0) < 2 ^ 11 := lt_field (n := 2048) h3 (by decide) (by decide)
  have t1 : (a * 2 ^ 11 + (i * 2 ^ 0 + 0)) < 2 ^ 16 := lt_field (n := 32) h2 t2 (by decide)
  have t0 : (d * 2 ^ 16 + (a * 2 ^ 11 + (i * 2 ^ 0 + 0))) < 2 ^ 21 := lt_field (n := 32) h1 t1 (by decide)
  obtain ⟨wd, hw⟩ : ∃ wd, g.neg.toNat * 2 ^ 31 + g.pred * 2 ^ 27 + 3 * 2 ^ 21 + (d * 2 ^ 16 + (a * 2 ^ 11 + (i * 2 ^ 0 + 0))) = wd := ⟨_, rfl⟩
  change decodeWord .s (g.neg.toNat * 2 ^ 31 + g.pred * 2 ^ 27 + 3 * 2 ^ 21 + (d * 2 ^ 16 + (a * 2 ^ 11 + (i * 2 ^ 0 + 0)))) = _
  rw [hw, decodeWord_op .s g 3 _ wd h0 (by decide) t0 (by decide) hw]
  change decodeS g wd = _
  have em := fld_major g 3 _ wd (by decide) t0 hw
  have f20_16 : fld wd 20 16 = d := (fld_body g 3 _ wd 20 16 (by decide) (by decide) hw).trans (fld_here (n := 32) h1 t1 (by decide))
  have f15_11 : fld wd 15 11 = a := (fld_body g 3 _ wd 15 11 (by decide) (by decide) hw).trans ((fld_below (by decide) (by decide)).trans (fld_here (n := 32) h2 t2 (by decide)))
  have f10_0 : fld wd 10 0 = i := (fld_body g 3 _ wd 10 0 (by decide) (by decide) hw).trans ((fld_below (by decide) (by decide)).trans ((fld_below (by decide) (by decide)).trans (fld_here (n := 2048) h3 (by decide) (by decide))))
  have ha : decodeS g wd = .ok (.andi g (fld wd 20 16) (fld wd 15 11) (fld wd 10 0)) := by
    unfold decodeS; rw [em]; rfl
  rw [ha]
  rw [f20_16, f15_11, f10_0]

theorem RoundTrip.ori (g : Guard) (d : Nat) (a : Nat) (i : Nat) : Statement (.ori g d a i) := by
  intro h sl hs
  change (decide (g.pred < 12) && decide (d < 32) && decide (a < 32) && decide (i < 2048)) = true at h
  simp only [Bool.and_eq_true, decide_eq_true_eq] at h
  obtain ⟨⟨⟨h0, h1⟩, h2⟩, h3⟩ := h
  obtain rfl : SlotClass.s = sl := Option.some.inj (of_decide_eq_true hs)
  have t2 : (i * 2 ^ 0 + 0) < 2 ^ 11 := lt_field (n := 2048) h3 (by decide) (by decide)
  have t1 : (a * 2 ^ 11 + (i * 2 ^ 0 + 0)) < 2 ^ 16 := lt_field (n := 32) h2 t2 (by decide)
  have t0 : (d * 2 ^ 16 + (a * 2 ^ 11 + (i * 2 ^ 0 + 0))) < 2 ^ 21 := lt_field (n := 32) h1 t1 (by decide)
  obtain ⟨wd, hw⟩ : ∃ wd, g.neg.toNat * 2 ^ 31 + g.pred * 2 ^ 27 + 4 * 2 ^ 21 + (d * 2 ^ 16 + (a * 2 ^ 11 + (i * 2 ^ 0 + 0))) = wd := ⟨_, rfl⟩
  change decodeWord .s (g.neg.toNat * 2 ^ 31 + g.pred * 2 ^ 27 + 4 * 2 ^ 21 + (d * 2 ^ 16 + (a * 2 ^ 11 + (i * 2 ^ 0 + 0)))) = _
  rw [hw, decodeWord_op .s g 4 _ wd h0 (by decide) t0 (by decide) hw]
  change decodeS g wd = _
  have em := fld_major g 4 _ wd (by decide) t0 hw
  have f20_16 : fld wd 20 16 = d := (fld_body g 4 _ wd 20 16 (by decide) (by decide) hw).trans (fld_here (n := 32) h1 t1 (by decide))
  have f15_11 : fld wd 15 11 = a := (fld_body g 4 _ wd 15 11 (by decide) (by decide) hw).trans ((fld_below (by decide) (by decide)).trans (fld_here (n := 32) h2 t2 (by decide)))
  have f10_0 : fld wd 10 0 = i := (fld_body g 4 _ wd 10 0 (by decide) (by decide) hw).trans ((fld_below (by decide) (by decide)).trans ((fld_below (by decide) (by decide)).trans (fld_here (n := 2048) h3 (by decide) (by decide))))
  have ha : decodeS g wd = .ok (.ori g (fld wd 20 16) (fld wd 15 11) (fld wd 10 0)) := by
    unfold decodeS; rw [em]; rfl
  rw [ha]
  rw [f20_16, f15_11, f10_0]

theorem RoundTrip.xori (g : Guard) (d : Nat) (a : Nat) (i : Nat) : Statement (.xori g d a i) := by
  intro h sl hs
  change (decide (g.pred < 12) && decide (d < 32) && decide (a < 32) && decide (i < 2048)) = true at h
  simp only [Bool.and_eq_true, decide_eq_true_eq] at h
  obtain ⟨⟨⟨h0, h1⟩, h2⟩, h3⟩ := h
  obtain rfl : SlotClass.s = sl := Option.some.inj (of_decide_eq_true hs)
  have t2 : (i * 2 ^ 0 + 0) < 2 ^ 11 := lt_field (n := 2048) h3 (by decide) (by decide)
  have t1 : (a * 2 ^ 11 + (i * 2 ^ 0 + 0)) < 2 ^ 16 := lt_field (n := 32) h2 t2 (by decide)
  have t0 : (d * 2 ^ 16 + (a * 2 ^ 11 + (i * 2 ^ 0 + 0))) < 2 ^ 21 := lt_field (n := 32) h1 t1 (by decide)
  obtain ⟨wd, hw⟩ : ∃ wd, g.neg.toNat * 2 ^ 31 + g.pred * 2 ^ 27 + 5 * 2 ^ 21 + (d * 2 ^ 16 + (a * 2 ^ 11 + (i * 2 ^ 0 + 0))) = wd := ⟨_, rfl⟩
  change decodeWord .s (g.neg.toNat * 2 ^ 31 + g.pred * 2 ^ 27 + 5 * 2 ^ 21 + (d * 2 ^ 16 + (a * 2 ^ 11 + (i * 2 ^ 0 + 0)))) = _
  rw [hw, decodeWord_op .s g 5 _ wd h0 (by decide) t0 (by decide) hw]
  change decodeS g wd = _
  have em := fld_major g 5 _ wd (by decide) t0 hw
  have f20_16 : fld wd 20 16 = d := (fld_body g 5 _ wd 20 16 (by decide) (by decide) hw).trans (fld_here (n := 32) h1 t1 (by decide))
  have f15_11 : fld wd 15 11 = a := (fld_body g 5 _ wd 15 11 (by decide) (by decide) hw).trans ((fld_below (by decide) (by decide)).trans (fld_here (n := 32) h2 t2 (by decide)))
  have f10_0 : fld wd 10 0 = i := (fld_body g 5 _ wd 10 0 (by decide) (by decide) hw).trans ((fld_below (by decide) (by decide)).trans ((fld_below (by decide) (by decide)).trans (fld_here (n := 2048) h3 (by decide) (by decide))))
  have ha : decodeS g wd = .ok (.xori g (fld wd 20 16) (fld wd 15 11) (fld wd 10 0)) := by
    unfold decodeS; rw [em]; rfl
  rw [ha]
  rw [f20_16, f15_11, f10_0]

theorem RoundTrip.slli (g : Guard) (d : Nat) (a : Nat) (s : Nat) : Statement (.slli g d a s) := by
  intro h sl hs
  change (decide (g.pred < 12) && decide (d < 32) && decide (a < 32) && decide (s < 64)) = true at h
  simp only [Bool.and_eq_true, decide_eq_true_eq] at h
  obtain ⟨⟨⟨h0, h1⟩, h2⟩, h3⟩ := h
  obtain rfl : SlotClass.s = sl := Option.some.inj (of_decide_eq_true hs)
  have t2 : (s * 2 ^ 0 + 0) < 2 ^ 11 := lt_field (n := 64) h3 (by decide) (by decide)
  have t1 : (a * 2 ^ 11 + (s * 2 ^ 0 + 0)) < 2 ^ 16 := lt_field (n := 32) h2 t2 (by decide)
  have t0 : (d * 2 ^ 16 + (a * 2 ^ 11 + (s * 2 ^ 0 + 0))) < 2 ^ 21 := lt_field (n := 32) h1 t1 (by decide)
  obtain ⟨wd, hw⟩ : ∃ wd, g.neg.toNat * 2 ^ 31 + g.pred * 2 ^ 27 + 6 * 2 ^ 21 + (d * 2 ^ 16 + (a * 2 ^ 11 + (s * 2 ^ 0 + 0))) = wd := ⟨_, rfl⟩
  change decodeWord .s (g.neg.toNat * 2 ^ 31 + g.pred * 2 ^ 27 + 6 * 2 ^ 21 + (d * 2 ^ 16 + (a * 2 ^ 11 + (s * 2 ^ 0 + 0)))) = _
  rw [hw, decodeWord_op .s g 6 _ wd h0 (by decide) t0 (by decide) hw]
  change decodeS g wd = _
  have em := fld_major g 6 _ wd (by decide) t0 hw
  have f10_10 : fld wd 10 10 = 0 := (fld_body g 6 _ wd 10 10 (by decide) (by decide) hw).trans ((fld_below (by decide) (by decide)).trans ((fld_below (by decide) (by decide)).trans (fld_above (lt_field (n := 64) h3 (by decide) (by decide)))))
  have f7_6 : fld wd 7 6 = 0 := (fld_body g 6 _ wd 7 6 (by decide) (by decide) hw).trans ((fld_below (by decide) (by decide)).trans ((fld_below (by decide) (by decide)).trans (fld_above (lt_field (n := 64) h3 (by decide) (by decide)))))
  have f20_16 : fld wd 20 16 = d := (fld_body g 6 _ wd 20 16 (by decide) (by decide) hw).trans (fld_here (n := 32) h1 t1 (by decide))
  have f15_11 : fld wd 15 11 = a := (fld_body g 6 _ wd 15 11 (by decide) (by decide) hw).trans ((fld_below (by decide) (by decide)).trans (fld_here (n := 32) h2 t2 (by decide)))
  have f5_0 : fld wd 5 0 = s := (fld_body g 6 _ wd 5 0 (by decide) (by decide) hw).trans ((fld_below (by decide) (by decide)).trans ((fld_below (by decide) (by decide)).trans (fld_here (n := 64) h3 (by decide) (by decide))))
  have f9_8 : fld wd 9 8 = 0 := (fld_body g 6 _ wd 9 8 (by decide) (by decide) hw).trans ((fld_below (by decide) (by decide)).trans ((fld_below (by decide) (by decide)).trans (fld_above (lt_field (n := 64) h3 (by decide) (by decide)))))
  have ha : decodeS g wd = need (fld wd 10 10 = 0 ∧ fld wd 7 6 = 0) (.ok (.slli g (fld wd 20 16) (fld wd 15 11) (fld wd 5 0))) := by
    unfold decodeS; rw [em, f9_8]; rfl
  rw [ha]
  simp only [need, f10_10, f7_6, f20_16, f15_11, f5_0, and_self, if_true]

theorem RoundTrip.srli (g : Guard) (d : Nat) (a : Nat) (s : Nat) : Statement (.srli g d a s) := by
  intro h sl hs
  change (decide (g.pred < 12) && decide (d < 32) && decide (a < 32) && decide (s < 64)) = true at h
  simp only [Bool.and_eq_true, decide_eq_true_eq] at h
  obtain ⟨⟨⟨h0, h1⟩, h2⟩, h3⟩ := h
  obtain rfl : SlotClass.s = sl := Option.some.inj (of_decide_eq_true hs)
  have t0 : (d * 2 ^ 16 + (a * 2 ^ 11 + (s * 2 ^ 0 + (1 * 2 ^ 8 + 0)))) < 2 ^ 21 := by omega
  obtain ⟨wd, hw⟩ : ∃ wd, g.neg.toNat * 2 ^ 31 + g.pred * 2 ^ 27 + 6 * 2 ^ 21 + (d * 2 ^ 16 + (a * 2 ^ 11 + (s * 2 ^ 0 + (1 * 2 ^ 8 + 0)))) = wd := ⟨_, rfl⟩
  change decodeWord .s (g.neg.toNat * 2 ^ 31 + g.pred * 2 ^ 27 + 6 * 2 ^ 21 + (d * 2 ^ 16 + (a * 2 ^ 11 + (s * 2 ^ 0 + (1 * 2 ^ 8 + 0))))) = _
  rw [hw, decodeWord_op .s g 6 _ wd h0 (by decide) t0 (by decide) hw]
  change decodeS g wd = _
  have em := fld_major g 6 _ wd (by decide) t0 hw
  have f10_10 : fld wd 10 10 = 0 := (fld_body g 6 _ wd 10 10 (by decide) (by decide) hw).trans (by simp only [fld]; omega)
  have f7_6 : fld wd 7 6 = 0 := (fld_body g 6 _ wd 7 6 (by decide) (by decide) hw).trans (by simp only [fld]; omega)
  have f20_16 : fld wd 20 16 = d := (fld_body g 6 _ wd 20 16 (by decide) (by decide) hw).trans (by simp only [fld]; omega)
  have f15_11 : fld wd 15 11 = a := (fld_body g 6 _ wd 15 11 (by decide) (by decide) hw).trans (by simp only [fld]; omega)
  have f5_0 : fld wd 5 0 = s := (fld_body g 6 _ wd 5 0 (by decide) (by decide) hw).trans (by simp only [fld]; omega)
  have f9_8 : fld wd 9 8 = 1 := (fld_body g 6 _ wd 9 8 (by decide) (by decide) hw).trans (by simp only [fld]; omega)
  have ha : decodeS g wd = need (fld wd 10 10 = 0 ∧ fld wd 7 6 = 0) (.ok (.srli g (fld wd 20 16) (fld wd 15 11) (fld wd 5 0))) := by
    unfold decodeS; rw [em, f9_8]; rfl
  rw [ha]
  simp only [need, f10_10, f7_6, f20_16, f15_11, f5_0, and_self, if_true]

theorem RoundTrip.srai (g : Guard) (d : Nat) (a : Nat) (s : Nat) : Statement (.srai g d a s) := by
  intro h sl hs
  change (decide (g.pred < 12) && decide (d < 32) && decide (a < 32) && decide (s < 64)) = true at h
  simp only [Bool.and_eq_true, decide_eq_true_eq] at h
  obtain ⟨⟨⟨h0, h1⟩, h2⟩, h3⟩ := h
  obtain rfl : SlotClass.s = sl := Option.some.inj (of_decide_eq_true hs)
  have t0 : (d * 2 ^ 16 + (a * 2 ^ 11 + (s * 2 ^ 0 + (1 * 2 ^ 9 + 0)))) < 2 ^ 21 := by omega
  obtain ⟨wd, hw⟩ : ∃ wd, g.neg.toNat * 2 ^ 31 + g.pred * 2 ^ 27 + 6 * 2 ^ 21 + (d * 2 ^ 16 + (a * 2 ^ 11 + (s * 2 ^ 0 + (1 * 2 ^ 9 + 0)))) = wd := ⟨_, rfl⟩
  change decodeWord .s (g.neg.toNat * 2 ^ 31 + g.pred * 2 ^ 27 + 6 * 2 ^ 21 + (d * 2 ^ 16 + (a * 2 ^ 11 + (s * 2 ^ 0 + (1 * 2 ^ 9 + 0))))) = _
  rw [hw, decodeWord_op .s g 6 _ wd h0 (by decide) t0 (by decide) hw]
  change decodeS g wd = _
  have em := fld_major g 6 _ wd (by decide) t0 hw
  have f10_10 : fld wd 10 10 = 0 := (fld_body g 6 _ wd 10 10 (by decide) (by decide) hw).trans (by simp only [fld]; omega)
  have f7_6 : fld wd 7 6 = 0 := (fld_body g 6 _ wd 7 6 (by decide) (by decide) hw).trans (by simp only [fld]; omega)
  have f20_16 : fld wd 20 16 = d := (fld_body g 6 _ wd 20 16 (by decide) (by decide) hw).trans (by simp only [fld]; omega)
  have f15_11 : fld wd 15 11 = a := (fld_body g 6 _ wd 15 11 (by decide) (by decide) hw).trans (by simp only [fld]; omega)
  have f5_0 : fld wd 5 0 = s := (fld_body g 6 _ wd 5 0 (by decide) (by decide) hw).trans (by simp only [fld]; omega)
  have f9_8 : fld wd 9 8 = 2 := (fld_body g 6 _ wd 9 8 (by decide) (by decide) hw).trans (by simp only [fld]; omega)
  have ha : decodeS g wd = need (fld wd 10 10 = 0 ∧ fld wd 7 6 = 0) (.ok (.srai g (fld wd 20 16) (fld wd 15 11) (fld wd 5 0))) := by
    unfold decodeS; rw [em, f9_8]; rfl
  rw [ha]
  simp only [need, f10_10, f7_6, f20_16, f15_11, f5_0, and_self, if_true]

theorem RoundTrip.roli (g : Guard) (d : Nat) (a : Nat) (s : Nat) : Statement (.roli g d a s) := by
  intro h sl hs
  change (decide (g.pred < 12) && decide (d < 32) && decide (a < 32) && decide (s < 64)) = true at h
  simp only [Bool.and_eq_true, decide_eq_true_eq] at h
  obtain ⟨⟨⟨h0, h1⟩, h2⟩, h3⟩ := h
  obtain rfl : SlotClass.s = sl := Option.some.inj (of_decide_eq_true hs)
  have t0 : (d * 2 ^ 16 + (a * 2 ^ 11 + (s * 2 ^ 0 + (3 * 2 ^ 8 + 0)))) < 2 ^ 21 := by omega
  obtain ⟨wd, hw⟩ : ∃ wd, g.neg.toNat * 2 ^ 31 + g.pred * 2 ^ 27 + 6 * 2 ^ 21 + (d * 2 ^ 16 + (a * 2 ^ 11 + (s * 2 ^ 0 + (3 * 2 ^ 8 + 0)))) = wd := ⟨_, rfl⟩
  change decodeWord .s (g.neg.toNat * 2 ^ 31 + g.pred * 2 ^ 27 + 6 * 2 ^ 21 + (d * 2 ^ 16 + (a * 2 ^ 11 + (s * 2 ^ 0 + (3 * 2 ^ 8 + 0))))) = _
  rw [hw, decodeWord_op .s g 6 _ wd h0 (by decide) t0 (by decide) hw]
  change decodeS g wd = _
  have em := fld_major g 6 _ wd (by decide) t0 hw
  have f10_10 : fld wd 10 10 = 0 := (fld_body g 6 _ wd 10 10 (by decide) (by decide) hw).trans (by simp only [fld]; omega)
  have f7_6 : fld wd 7 6 = 0 := (fld_body g 6 _ wd 7 6 (by decide) (by decide) hw).trans (by simp only [fld]; omega)
  have f20_16 : fld wd 20 16 = d := (fld_body g 6 _ wd 20 16 (by decide) (by decide) hw).trans (by simp only [fld]; omega)
  have f15_11 : fld wd 15 11 = a := (fld_body g 6 _ wd 15 11 (by decide) (by decide) hw).trans (by simp only [fld]; omega)
  have f5_0 : fld wd 5 0 = s := (fld_body g 6 _ wd 5 0 (by decide) (by decide) hw).trans (by simp only [fld]; omega)
  have f9_8 : fld wd 9 8 = 3 := (fld_body g 6 _ wd 9 8 (by decide) (by decide) hw).trans (by simp only [fld]; omega)
  have ha : decodeS g wd = need (fld wd 10 10 = 0 ∧ fld wd 7 6 = 0) (.ok (.roli g (fld wd 20 16) (fld wd 15 11) (fld wd 5 0))) := by
    unfold decodeS; rw [em, f9_8]; rfl
  rw [ha]
  simp only [need, f10_10, f7_6, f20_16, f15_11, f5_0, and_self, if_true]

theorem RoundTrip.movi (g : Guard) (d : Nat) (i : Nat) : Statement (.movi g d i) := by
  intro h sl hs
  change (decide (g.pred < 12) && decide (d < 32) && decide (i < 65536)) = true at h
  simp only [Bool.and_eq_true, decide_eq_true_eq] at h
  obtain ⟨⟨h0, h1⟩, h2⟩ := h
  obtain rfl : SlotClass.s = sl := Option.some.inj (of_decide_eq_true hs)
  have t1 : (i * 2 ^ 0 + 0) < 2 ^ 16 := lt_field (n := 65536) h2 (by decide) (by decide)
  have t0 : (d * 2 ^ 16 + (i * 2 ^ 0 + 0)) < 2 ^ 21 := lt_field (n := 32) h1 t1 (by decide)
  obtain ⟨wd, hw⟩ : ∃ wd, g.neg.toNat * 2 ^ 31 + g.pred * 2 ^ 27 + 7 * 2 ^ 21 + (d * 2 ^ 16 + (i * 2 ^ 0 + 0)) = wd := ⟨_, rfl⟩
  change decodeWord .s (g.neg.toNat * 2 ^ 31 + g.pred * 2 ^ 27 + 7 * 2 ^ 21 + (d * 2 ^ 16 + (i * 2 ^ 0 + 0))) = _
  rw [hw, decodeWord_op .s g 7 _ wd h0 (by decide) t0 (by decide) hw]
  change decodeS g wd = _
  have em := fld_major g 7 _ wd (by decide) t0 hw
  have f20_16 : fld wd 20 16 = d := (fld_body g 7 _ wd 20 16 (by decide) (by decide) hw).trans (fld_here (n := 32) h1 t1 (by decide))
  have f15_0 : fld wd 15 0 = i := (fld_body g 7 _ wd 15 0 (by decide) (by decide) hw).trans ((fld_below (by decide) (by decide)).trans (fld_here (n := 65536) h2 (by decide) (by decide)))
  have ha : decodeS g wd = .ok (.movi g (fld wd 20 16) (fld wd 15 0)) := by
    unfold decodeS; rw [em]; rfl
  rw [ha]
  rw [f20_16, f15_0]

theorem RoundTrip.movk16 (g : Guard) (d : Nat) (i : Nat) : Statement (.movk16 g d i) := by
  intro h sl hs
  change (decide (g.pred < 12) && decide (d < 32) && decide (i < 65536)) = true at h
  simp only [Bool.and_eq_true, decide_eq_true_eq] at h
  obtain ⟨⟨h0, h1⟩, h2⟩ := h
  obtain rfl : SlotClass.s = sl := Option.some.inj (of_decide_eq_true hs)
  have t1 : (i * 2 ^ 0 + 0) < 2 ^ 16 := lt_field (n := 65536) h2 (by decide) (by decide)
  have t0 : (d * 2 ^ 16 + (i * 2 ^ 0 + 0)) < 2 ^ 21 := lt_field (n := 32) h1 t1 (by decide)
  obtain ⟨wd, hw⟩ : ∃ wd, g.neg.toNat * 2 ^ 31 + g.pred * 2 ^ 27 + 8 * 2 ^ 21 + (d * 2 ^ 16 + (i * 2 ^ 0 + 0)) = wd := ⟨_, rfl⟩
  change decodeWord .s (g.neg.toNat * 2 ^ 31 + g.pred * 2 ^ 27 + 8 * 2 ^ 21 + (d * 2 ^ 16 + (i * 2 ^ 0 + 0))) = _
  rw [hw, decodeWord_op .s g 8 _ wd h0 (by decide) t0 (by decide) hw]
  change decodeS g wd = _
  have em := fld_major g 8 _ wd (by decide) t0 hw
  have f20_16 : fld wd 20 16 = d := (fld_body g 8 _ wd 20 16 (by decide) (by decide) hw).trans (fld_here (n := 32) h1 t1 (by decide))
  have f15_0 : fld wd 15 0 = i := (fld_body g 8 _ wd 15 0 (by decide) (by decide) hw).trans ((fld_below (by decide) (by decide)).trans (fld_here (n := 65536) h2 (by decide) (by decide)))
  have ha : decodeS g wd = .ok (.movk16 g (fld wd 20 16) (fld wd 15 0)) := by
    unfold decodeS; rw [em]; rfl
  rw [ha]
  rw [f20_16, f15_0]

theorem RoundTrip.movk32 (g : Guard) (d : Nat) (i : Nat) : Statement (.movk32 g d i) := by
  intro h sl hs
  change (decide (g.pred < 12) && decide (d < 32) && decide (i < 65536)) = true at h
  simp only [Bool.and_eq_true, decide_eq_true_eq] at h
  obtain ⟨⟨h0, h1⟩, h2⟩ := h
  obtain rfl : SlotClass.s = sl := Option.some.inj (of_decide_eq_true hs)
  have t1 : (i * 2 ^ 0 + 0) < 2 ^ 16 := lt_field (n := 65536) h2 (by decide) (by decide)
  have t0 : (d * 2 ^ 16 + (i * 2 ^ 0 + 0)) < 2 ^ 21 := lt_field (n := 32) h1 t1 (by decide)
  obtain ⟨wd, hw⟩ : ∃ wd, g.neg.toNat * 2 ^ 31 + g.pred * 2 ^ 27 + 9 * 2 ^ 21 + (d * 2 ^ 16 + (i * 2 ^ 0 + 0)) = wd := ⟨_, rfl⟩
  change decodeWord .s (g.neg.toNat * 2 ^ 31 + g.pred * 2 ^ 27 + 9 * 2 ^ 21 + (d * 2 ^ 16 + (i * 2 ^ 0 + 0))) = _
  rw [hw, decodeWord_op .s g 9 _ wd h0 (by decide) t0 (by decide) hw]
  change decodeS g wd = _
  have em := fld_major g 9 _ wd (by decide) t0 hw
  have f20_16 : fld wd 20 16 = d := (fld_body g 9 _ wd 20 16 (by decide) (by decide) hw).trans (fld_here (n := 32) h1 t1 (by decide))
  have f15_0 : fld wd 15 0 = i := (fld_body g 9 _ wd 15 0 (by decide) (by decide) hw).trans ((fld_below (by decide) (by decide)).trans (fld_here (n := 65536) h2 (by decide) (by decide)))
  have ha : decodeS g wd = .ok (.movk32 g (fld wd 20 16) (fld wd 15 0)) := by
    unfold decodeS; rw [em]; rfl
  rw [ha]
  rw [f20_16, f15_0]

theorem RoundTrip.movk48 (g : Guard) (d : Nat) (i : Nat) : Statement (.movk48 g d i) := by
  intro h sl hs
  change (decide (g.pred < 12) && decide (d < 32) && decide (i < 65536)) = true at h
  simp only [Bool.and_eq_true, decide_eq_true_eq] at h
  obtain ⟨⟨h0, h1⟩, h2⟩ := h
  obtain rfl : SlotClass.s = sl := Option.some.inj (of_decide_eq_true hs)
  have t1 : (i * 2 ^ 0 + 0) < 2 ^ 16 := lt_field (n := 65536) h2 (by decide) (by decide)
  have t0 : (d * 2 ^ 16 + (i * 2 ^ 0 + 0)) < 2 ^ 21 := lt_field (n := 32) h1 t1 (by decide)
  obtain ⟨wd, hw⟩ : ∃ wd, g.neg.toNat * 2 ^ 31 + g.pred * 2 ^ 27 + 10 * 2 ^ 21 + (d * 2 ^ 16 + (i * 2 ^ 0 + 0)) = wd := ⟨_, rfl⟩
  change decodeWord .s (g.neg.toNat * 2 ^ 31 + g.pred * 2 ^ 27 + 10 * 2 ^ 21 + (d * 2 ^ 16 + (i * 2 ^ 0 + 0))) = _
  rw [hw, decodeWord_op .s g 10 _ wd h0 (by decide) t0 (by decide) hw]
  change decodeS g wd = _
  have em := fld_major g 10 _ wd (by decide) t0 hw
  have f20_16 : fld wd 20 16 = d := (fld_body g 10 _ wd 20 16 (by decide) (by decide) hw).trans (fld_here (n := 32) h1 t1 (by decide))
  have f15_0 : fld wd 15 0 = i := (fld_body g 10 _ wd 15 0 (by decide) (by decide) hw).trans ((fld_below (by decide) (by decide)).trans (fld_here (n := 65536) h2 (by decide) (by decide)))
  have ha : decodeS g wd = .ok (.movk48 g (fld wd 20 16) (fld wd 15 0)) := by
    unfold decodeS; rw [em]; rfl
  rw [ha]
  rw [f20_16, f15_0]

theorem RoundTrip.cmpEq (g : Guard) (d : Nat) (a : Nat) (b : Nat) : Statement (.cmpEq g d a b) := by
  intro h sl hs
  change (decide (g.pred < 12) && decide (d < 12) && decide (a < 32) && decide (b < 32)) = true at h
  simp only [Bool.and_eq_true, decide_eq_true_eq] at h
  obtain ⟨⟨⟨h0, h1⟩, h2⟩, h3⟩ := h
  obtain rfl : SlotClass.s = sl := Option.some.inj (of_decide_eq_true hs)
  have t2 : (b * 2 ^ 6 + 0) < 2 ^ 11 := lt_field (n := 32) h3 (by decide) (by decide)
  have t1 : (a * 2 ^ 11 + (b * 2 ^ 6 + 0)) < 2 ^ 16 := lt_field (n := 32) h2 t2 (by decide)
  have t0 : (d * 2 ^ 16 + (a * 2 ^ 11 + (b * 2 ^ 6 + 0))) < 2 ^ 21 := lt_field (n := 12) h1 t1 (by decide)
  obtain ⟨wd, hw⟩ : ∃ wd, g.neg.toNat * 2 ^ 31 + g.pred * 2 ^ 27 + 11 * 2 ^ 21 + (d * 2 ^ 16 + (a * 2 ^ 11 + (b * 2 ^ 6 + 0))) = wd := ⟨_, rfl⟩
  change decodeWord .s (g.neg.toNat * 2 ^ 31 + g.pred * 2 ^ 27 + 11 * 2 ^ 21 + (d * 2 ^ 16 + (a * 2 ^ 11 + (b * 2 ^ 6 + 0)))) = _
  rw [hw, decodeWord_op .s g 11 _ wd h0 (by decide) t0 (by decide) hw]
  change decodeS g wd = _
  have em := fld_major g 11 _ wd (by decide) t0 hw
  have f20_20 : fld wd 20 20 = 0 := (fld_body g 11 _ wd 20 20 (by decide) (by decide) hw).trans (fld_above (lt_field (n := 12) h1 t1 (by decide)))
  have f5_3 : fld wd 5 3 = 0 := (fld_body g 11 _ wd 5 3 (by decide) (by decide) hw).trans ((fld_below (by decide) (by decide)).trans ((fld_below (by decide) (by decide)).trans ((fld_below (by decide) (by decide)).trans (by decide))))
  have f19_16 : fld wd 19 16 = d := (fld_body g 11 _ wd 19 16 (by decide) (by decide) hw).trans (fld_here (n := 12) h1 t1 (by decide))
  have f15_11 : fld wd 15 11 = a := (fld_body g 11 _ wd 15 11 (by decide) (by decide) hw).trans ((fld_below (by decide) (by decide)).trans (fld_here (n := 32) h2 t2 (by decide)))
  have f10_6 : fld wd 10 6 = b := (fld_body g 11 _ wd 10 6 (by decide) (by decide) hw).trans ((fld_below (by decide) (by decide)).trans ((fld_below (by decide) (by decide)).trans (fld_here (n := 32) h3 (by decide) (by decide))))
  have f2_0 : fld wd 2 0 = 0 := (fld_body g 11 _ wd 2 0 (by decide) (by decide) hw).trans ((fld_below (by decide) (by decide)).trans ((fld_below (by decide) (by decide)).trans ((fld_below (by decide) (by decide)).trans (by decide))))
  have ha : decodeS g wd = need (fld wd 20 20 = 0 ∧ fld wd 5 3 = 0 ∧ fld wd 19 16 < 12) (.ok (.cmpEq g (fld wd 19 16) (fld wd 15 11) (fld wd 10 6))) := by
    unfold decodeS; rw [em, f2_0]; rfl
  rw [ha]
  simp only [need, f20_20, f5_3, f19_16, f15_11, f10_6, h1, and_self, if_true]

theorem RoundTrip.cmpNe (g : Guard) (d : Nat) (a : Nat) (b : Nat) : Statement (.cmpNe g d a b) := by
  intro h sl hs
  change (decide (g.pred < 12) && decide (d < 12) && decide (a < 32) && decide (b < 32)) = true at h
  simp only [Bool.and_eq_true, decide_eq_true_eq] at h
  obtain ⟨⟨⟨h0, h1⟩, h2⟩, h3⟩ := h
  obtain rfl : SlotClass.s = sl := Option.some.inj (of_decide_eq_true hs)
  have t3 : (1 * 2 ^ 0 + 0) < 2 ^ 6 := lt_field (n := 2) (Nat.lt_succ_self 1) (by decide) (by decide)
  have t2 : (b * 2 ^ 6 + (1 * 2 ^ 0 + 0)) < 2 ^ 11 := lt_field (n := 32) h3 t3 (by decide)
  have t1 : (a * 2 ^ 11 + (b * 2 ^ 6 + (1 * 2 ^ 0 + 0))) < 2 ^ 16 := lt_field (n := 32) h2 t2 (by decide)
  have t0 : (d * 2 ^ 16 + (a * 2 ^ 11 + (b * 2 ^ 6 + (1 * 2 ^ 0 + 0)))) < 2 ^ 21 := lt_field (n := 12) h1 t1 (by decide)
  obtain ⟨wd, hw⟩ : ∃ wd, g.neg.toNat * 2 ^ 31 + g.pred * 2 ^ 27 + 11 * 2 ^ 21 + (d * 2 ^ 16 + (a * 2 ^ 11 + (b * 2 ^ 6 + (1 * 2 ^ 0 + 0)))) = wd := ⟨_, rfl⟩
  change decodeWord .s (g.neg.toNat * 2 ^ 31 + g.pred * 2 ^ 27 + 11 * 2 ^ 21 + (d * 2 ^ 16 + (a * 2 ^ 11 + (b * 2 ^ 6 + (1 * 2 ^ 0 + 0))))) = _
  rw [hw, decodeWord_op .s g 11 _ wd h0 (by decide) t0 (by decide) hw]
  change decodeS g wd = _
  have em := fld_major g 11 _ wd (by decide) t0 hw
  have f20_20 : fld wd 20 20 = 0 := (fld_body g 11 _ wd 20 20 (by decide) (by decide) hw).trans (fld_above (lt_field (n := 12) h1 t1 (by decide)))
  have f5_3 : fld wd 5 3 = 0 := (fld_body g 11 _ wd 5 3 (by decide) (by decide) hw).trans ((fld_below (by decide) (by decide)).trans ((fld_below (by decide) (by decide)).trans ((fld_below (by decide) (by decide)).trans (fld_above (lt_field (n := 2) (Nat.lt_succ_self 1) (by decide) (by decide))))))
  have f19_16 : fld wd 19 16 = d := (fld_body g 11 _ wd 19 16 (by decide) (by decide) hw).trans (fld_here (n := 12) h1 t1 (by decide))
  have f15_11 : fld wd 15 11 = a := (fld_body g 11 _ wd 15 11 (by decide) (by decide) hw).trans ((fld_below (by decide) (by decide)).trans (fld_here (n := 32) h2 t2 (by decide)))
  have f10_6 : fld wd 10 6 = b := (fld_body g 11 _ wd 10 6 (by decide) (by decide) hw).trans ((fld_below (by decide) (by decide)).trans ((fld_below (by decide) (by decide)).trans (fld_here (n := 32) h3 t3 (by decide))))
  have f2_0 : fld wd 2 0 = 1 := (fld_body g 11 _ wd 2 0 (by decide) (by decide) hw).trans ((fld_below (by decide) (by decide)).trans ((fld_below (by decide) (by decide)).trans ((fld_below (by decide) (by decide)).trans (fld_here (n := 2) (Nat.lt_succ_self 1) (by decide) (by decide)))))
  have ha : decodeS g wd = need (fld wd 20 20 = 0 ∧ fld wd 5 3 = 0 ∧ fld wd 19 16 < 12) (.ok (.cmpNe g (fld wd 19 16) (fld wd 15 11) (fld wd 10 6))) := by
    unfold decodeS; rw [em, f2_0]; rfl
  rw [ha]
  simp only [need, f20_20, f5_3, f19_16, f15_11, f10_6, h1, and_self, if_true]

theorem RoundTrip.cmpLt (g : Guard) (d : Nat) (a : Nat) (b : Nat) : Statement (.cmpLt g d a b) := by
  intro h sl hs
  change (decide (g.pred < 12) && decide (d < 12) && decide (a < 32) && decide (b < 32)) = true at h
  simp only [Bool.and_eq_true, decide_eq_true_eq] at h
  obtain ⟨⟨⟨h0, h1⟩, h2⟩, h3⟩ := h
  obtain rfl : SlotClass.s = sl := Option.some.inj (of_decide_eq_true hs)
  have t3 : (1 * 2 ^ 1 + 0) < 2 ^ 6 := lt_field (n := 2) (Nat.lt_succ_self 1) (by decide) (by decide)
  have t2 : (b * 2 ^ 6 + (1 * 2 ^ 1 + 0)) < 2 ^ 11 := lt_field (n := 32) h3 t3 (by decide)
  have t1 : (a * 2 ^ 11 + (b * 2 ^ 6 + (1 * 2 ^ 1 + 0))) < 2 ^ 16 := lt_field (n := 32) h2 t2 (by decide)
  have t0 : (d * 2 ^ 16 + (a * 2 ^ 11 + (b * 2 ^ 6 + (1 * 2 ^ 1 + 0)))) < 2 ^ 21 := lt_field (n := 12) h1 t1 (by decide)
  obtain ⟨wd, hw⟩ : ∃ wd, g.neg.toNat * 2 ^ 31 + g.pred * 2 ^ 27 + 11 * 2 ^ 21 + (d * 2 ^ 16 + (a * 2 ^ 11 + (b * 2 ^ 6 + (1 * 2 ^ 1 + 0)))) = wd := ⟨_, rfl⟩
  change decodeWord .s (g.neg.toNat * 2 ^ 31 + g.pred * 2 ^ 27 + 11 * 2 ^ 21 + (d * 2 ^ 16 + (a * 2 ^ 11 + (b * 2 ^ 6 + (1 * 2 ^ 1 + 0))))) = _
  rw [hw, decodeWord_op .s g 11 _ wd h0 (by decide) t0 (by decide) hw]
  change decodeS g wd = _
  have em := fld_major g 11 _ wd (by decide) t0 hw
  have f20_20 : fld wd 20 20 = 0 := (fld_body g 11 _ wd 20 20 (by decide) (by decide) hw).trans (fld_above (lt_field (n := 12) h1 t1 (by decide)))
  have f5_3 : fld wd 5 3 = 0 := (fld_body g 11 _ wd 5 3 (by decide) (by decide) hw).trans ((fld_below (by decide) (by decide)).trans ((fld_below (by decide) (by decide)).trans ((fld_below (by decide) (by decide)).trans (fld_above (lt_field (n := 2) (Nat.lt_succ_self 1) (by decide) (by decide))))))
  have f19_16 : fld wd 19 16 = d := (fld_body g 11 _ wd 19 16 (by decide) (by decide) hw).trans (fld_here (n := 12) h1 t1 (by decide))
  have f15_11 : fld wd 15 11 = a := (fld_body g 11 _ wd 15 11 (by decide) (by decide) hw).trans ((fld_below (by decide) (by decide)).trans (fld_here (n := 32) h2 t2 (by decide)))
  have f10_6 : fld wd 10 6 = b := (fld_body g 11 _ wd 10 6 (by decide) (by decide) hw).trans ((fld_below (by decide) (by decide)).trans ((fld_below (by decide) (by decide)).trans (fld_here (n := 32) h3 t3 (by decide))))
  have f2_0 : fld wd 2 0 = 2 := (fld_body g 11 _ wd 2 0 (by decide) (by decide) hw).trans ((fld_below (by decide) (by decide)).trans ((fld_below (by decide) (by decide)).trans ((fld_below (by decide) (by decide)).trans (by decide))))
  have ha : decodeS g wd = need (fld wd 20 20 = 0 ∧ fld wd 5 3 = 0 ∧ fld wd 19 16 < 12) (.ok (.cmpLt g (fld wd 19 16) (fld wd 15 11) (fld wd 10 6))) := by
    unfold decodeS; rw [em, f2_0]; rfl
  rw [ha]
  simp only [need, f20_20, f5_3, f19_16, f15_11, f10_6, h1, and_self, if_true]

theorem RoundTrip.cmpGe (g : Guard) (d : Nat) (a : Nat) (b : Nat) : Statement (.cmpGe g d a b) := by
  intro h sl hs
  change (decide (g.pred < 12) && decide (d < 12) && decide (a < 32) && decide (b < 32)) = true at h
  simp only [Bool.and_eq_true, decide_eq_true_eq] at h
  obtain ⟨⟨⟨h0, h1⟩, h2⟩, h3⟩ := h
  obtain rfl : SlotClass.s = sl := Option.some.inj (of_decide_eq_true hs)
  have t3 : (3 * 2 ^ 0 + 0) < 2 ^ 6 := lt_field (n := 4) (Nat.lt_succ_self 3) (by decide) (by decide)
  have t2 : (b * 2 ^ 6 + (3 * 2 ^ 0 + 0)) < 2 ^ 11 := lt_field (n := 32) h3 t3 (by decide)
  have t1 : (a * 2 ^ 11 + (b * 2 ^ 6 + (3 * 2 ^ 0 + 0))) < 2 ^ 16 := lt_field (n := 32) h2 t2 (by decide)
  have t0 : (d * 2 ^ 16 + (a * 2 ^ 11 + (b * 2 ^ 6 + (3 * 2 ^ 0 + 0)))) < 2 ^ 21 := lt_field (n := 12) h1 t1 (by decide)
  obtain ⟨wd, hw⟩ : ∃ wd, g.neg.toNat * 2 ^ 31 + g.pred * 2 ^ 27 + 11 * 2 ^ 21 + (d * 2 ^ 16 + (a * 2 ^ 11 + (b * 2 ^ 6 + (3 * 2 ^ 0 + 0)))) = wd := ⟨_, rfl⟩
  change decodeWord .s (g.neg.toNat * 2 ^ 31 + g.pred * 2 ^ 27 + 11 * 2 ^ 21 + (d * 2 ^ 16 + (a * 2 ^ 11 + (b * 2 ^ 6 + (3 * 2 ^ 0 + 0))))) = _
  rw [hw, decodeWord_op .s g 11 _ wd h0 (by decide) t0 (by decide) hw]
  change decodeS g wd = _
  have em := fld_major g 11 _ wd (by decide) t0 hw
  have f20_20 : fld wd 20 20 = 0 := (fld_body g 11 _ wd 20 20 (by decide) (by decide) hw).trans (fld_above (lt_field (n := 12) h1 t1 (by decide)))
  have f5_3 : fld wd 5 3 = 0 := (fld_body g 11 _ wd 5 3 (by decide) (by decide) hw).trans ((fld_below (by decide) (by decide)).trans ((fld_below (by decide) (by decide)).trans ((fld_below (by decide) (by decide)).trans (fld_above (lt_field (n := 4) (Nat.lt_succ_self 3) (by decide) (by decide))))))
  have f19_16 : fld wd 19 16 = d := (fld_body g 11 _ wd 19 16 (by decide) (by decide) hw).trans (fld_here (n := 12) h1 t1 (by decide))
  have f15_11 : fld wd 15 11 = a := (fld_body g 11 _ wd 15 11 (by decide) (by decide) hw).trans ((fld_below (by decide) (by decide)).trans (fld_here (n := 32) h2 t2 (by decide)))
  have f10_6 : fld wd 10 6 = b := (fld_body g 11 _ wd 10 6 (by decide) (by decide) hw).trans ((fld_below (by decide) (by decide)).trans ((fld_below (by decide) (by decide)).trans (fld_here (n := 32) h3 t3 (by decide))))
  have f2_0 : fld wd 2 0 = 3 := (fld_body g 11 _ wd 2 0 (by decide) (by decide) hw).trans ((fld_below (by decide) (by decide)).trans ((fld_below (by decide) (by decide)).trans ((fld_below (by decide) (by decide)).trans (fld_here (n := 4) (Nat.lt_succ_self 3) (by decide) (by decide)))))
  have ha : decodeS g wd = need (fld wd 20 20 = 0 ∧ fld wd 5 3 = 0 ∧ fld wd 19 16 < 12) (.ok (.cmpGe g (fld wd 19 16) (fld wd 15 11) (fld wd 10 6))) := by
    unfold decodeS; rw [em, f2_0]; rfl
  rw [ha]
  simp only [need, f20_20, f5_3, f19_16, f15_11, f10_6, h1, and_self, if_true]

theorem RoundTrip.cmpLtu (g : Guard) (d : Nat) (a : Nat) (b : Nat) : Statement (.cmpLtu g d a b) := by
  intro h sl hs
  change (decide (g.pred < 12) && decide (d < 12) && decide (a < 32) && decide (b < 32)) = true at h
  simp only [Bool.and_eq_true, decide_eq_true_eq] at h
  obtain ⟨⟨⟨h0, h1⟩, h2⟩, h3⟩ := h
  obtain rfl : SlotClass.s = sl := Option.some.inj (of_decide_eq_true hs)
  have t3 : (1 * 2 ^ 2 + 0) < 2 ^ 6 := lt_field (n := 2) (Nat.lt_succ_self 1) (by decide) (by decide)
  have t2 : (b * 2 ^ 6 + (1 * 2 ^ 2 + 0)) < 2 ^ 11 := lt_field (n := 32) h3 t3 (by decide)
  have t1 : (a * 2 ^ 11 + (b * 2 ^ 6 + (1 * 2 ^ 2 + 0))) < 2 ^ 16 := lt_field (n := 32) h2 t2 (by decide)
  have t0 : (d * 2 ^ 16 + (a * 2 ^ 11 + (b * 2 ^ 6 + (1 * 2 ^ 2 + 0)))) < 2 ^ 21 := lt_field (n := 12) h1 t1 (by decide)
  obtain ⟨wd, hw⟩ : ∃ wd, g.neg.toNat * 2 ^ 31 + g.pred * 2 ^ 27 + 11 * 2 ^ 21 + (d * 2 ^ 16 + (a * 2 ^ 11 + (b * 2 ^ 6 + (1 * 2 ^ 2 + 0)))) = wd := ⟨_, rfl⟩
  change decodeWord .s (g.neg.toNat * 2 ^ 31 + g.pred * 2 ^ 27 + 11 * 2 ^ 21 + (d * 2 ^ 16 + (a * 2 ^ 11 + (b * 2 ^ 6 + (1 * 2 ^ 2 + 0))))) = _
  rw [hw, decodeWord_op .s g 11 _ wd h0 (by decide) t0 (by decide) hw]
  change decodeS g wd = _
  have em := fld_major g 11 _ wd (by decide) t0 hw
  have f20_20 : fld wd 20 20 = 0 := (fld_body g 11 _ wd 20 20 (by decide) (by decide) hw).trans (fld_above (lt_field (n := 12) h1 t1 (by decide)))
  have f5_3 : fld wd 5 3 = 0 := (fld_body g 11 _ wd 5 3 (by decide) (by decide) hw).trans ((fld_below (by decide) (by decide)).trans ((fld_below (by decide) (by decide)).trans ((fld_below (by decide) (by decide)).trans (fld_above (lt_field (n := 2) (Nat.lt_succ_self 1) (by decide) (by decide))))))
  have f19_16 : fld wd 19 16 = d := (fld_body g 11 _ wd 19 16 (by decide) (by decide) hw).trans (fld_here (n := 12) h1 t1 (by decide))
  have f15_11 : fld wd 15 11 = a := (fld_body g 11 _ wd 15 11 (by decide) (by decide) hw).trans ((fld_below (by decide) (by decide)).trans (fld_here (n := 32) h2 t2 (by decide)))
  have f10_6 : fld wd 10 6 = b := (fld_body g 11 _ wd 10 6 (by decide) (by decide) hw).trans ((fld_below (by decide) (by decide)).trans ((fld_below (by decide) (by decide)).trans (fld_here (n := 32) h3 t3 (by decide))))
  have f2_0 : fld wd 2 0 = 4 := (fld_body g 11 _ wd 2 0 (by decide) (by decide) hw).trans ((fld_below (by decide) (by decide)).trans ((fld_below (by decide) (by decide)).trans ((fld_below (by decide) (by decide)).trans (by decide))))
  have ha : decodeS g wd = need (fld wd 20 20 = 0 ∧ fld wd 5 3 = 0 ∧ fld wd 19 16 < 12) (.ok (.cmpLtu g (fld wd 19 16) (fld wd 15 11) (fld wd 10 6))) := by
    unfold decodeS; rw [em, f2_0]; rfl
  rw [ha]
  simp only [need, f20_20, f5_3, f19_16, f15_11, f10_6, h1, and_self, if_true]

theorem RoundTrip.cmpGeu (g : Guard) (d : Nat) (a : Nat) (b : Nat) : Statement (.cmpGeu g d a b) := by
  intro h sl hs
  change (decide (g.pred < 12) && decide (d < 12) && decide (a < 32) && decide (b < 32)) = true at h
  simp only [Bool.and_eq_true, decide_eq_true_eq] at h
  obtain ⟨⟨⟨h0, h1⟩, h2⟩, h3⟩ := h
  obtain rfl : SlotClass.s = sl := Option.some.inj (of_decide_eq_true hs)
  have t3 : (5 * 2 ^ 0 + 0) < 2 ^ 6 := lt_field (n := 6) (Nat.lt_succ_self 5) (by decide) (by decide)
  have t2 : (b * 2 ^ 6 + (5 * 2 ^ 0 + 0)) < 2 ^ 11 := lt_field (n := 32) h3 t3 (by decide)
  have t1 : (a * 2 ^ 11 + (b * 2 ^ 6 + (5 * 2 ^ 0 + 0))) < 2 ^ 16 := lt_field (n := 32) h2 t2 (by decide)
  have t0 : (d * 2 ^ 16 + (a * 2 ^ 11 + (b * 2 ^ 6 + (5 * 2 ^ 0 + 0)))) < 2 ^ 21 := lt_field (n := 12) h1 t1 (by decide)
  obtain ⟨wd, hw⟩ : ∃ wd, g.neg.toNat * 2 ^ 31 + g.pred * 2 ^ 27 + 11 * 2 ^ 21 + (d * 2 ^ 16 + (a * 2 ^ 11 + (b * 2 ^ 6 + (5 * 2 ^ 0 + 0)))) = wd := ⟨_, rfl⟩
  change decodeWord .s (g.neg.toNat * 2 ^ 31 + g.pred * 2 ^ 27 + 11 * 2 ^ 21 + (d * 2 ^ 16 + (a * 2 ^ 11 + (b * 2 ^ 6 + (5 * 2 ^ 0 + 0))))) = _
  rw [hw, decodeWord_op .s g 11 _ wd h0 (by decide) t0 (by decide) hw]
  change decodeS g wd = _
  have em := fld_major g 11 _ wd (by decide) t0 hw
  have f20_20 : fld wd 20 20 = 0 := (fld_body g 11 _ wd 20 20 (by decide) (by decide) hw).trans (fld_above (lt_field (n := 12) h1 t1 (by decide)))
  have f5_3 : fld wd 5 3 = 0 := (fld_body g 11 _ wd 5 3 (by decide) (by decide) hw).trans ((fld_below (by decide) (by decide)).trans ((fld_below (by decide) (by decide)).trans ((fld_below (by decide) (by decide)).trans (fld_above (lt_field (n := 6) (Nat.lt_succ_self 5) (by decide) (by decide))))))
  have f19_16 : fld wd 19 16 = d := (fld_body g 11 _ wd 19 16 (by decide) (by decide) hw).trans (fld_here (n := 12) h1 t1 (by decide))
  have f15_11 : fld wd 15 11 = a := (fld_body g 11 _ wd 15 11 (by decide) (by decide) hw).trans ((fld_below (by decide) (by decide)).trans (fld_here (n := 32) h2 t2 (by decide)))
  have f10_6 : fld wd 10 6 = b := (fld_body g 11 _ wd 10 6 (by decide) (by decide) hw).trans ((fld_below (by decide) (by decide)).trans ((fld_below (by decide) (by decide)).trans (fld_here (n := 32) h3 t3 (by decide))))
  have f2_0 : fld wd 2 0 = 5 := (fld_body g 11 _ wd 2 0 (by decide) (by decide) hw).trans ((fld_below (by decide) (by decide)).trans ((fld_below (by decide) (by decide)).trans ((fld_below (by decide) (by decide)).trans (fld_here (n := 6) (Nat.lt_succ_self 5) (by decide) (by decide)))))
  have ha : decodeS g wd = need (fld wd 20 20 = 0 ∧ fld wd 5 3 = 0 ∧ fld wd 19 16 < 12) (.ok (.cmpGeu g (fld wd 19 16) (fld wd 15 11) (fld wd 10 6))) := by
    unfold decodeS; rw [em, f2_0]; rfl
  rw [ha]
  simp only [need, f20_20, f5_3, f19_16, f15_11, f10_6, h1, and_self, if_true]

theorem RoundTrip.cmpiEq (g : Guard) (d : Nat) (a : Nat) (i : Nat) : Statement (.cmpiEq g d a i) := by
  intro h sl hs
  change (decide (g.pred < 12) && decide (d < 12) && decide (a < 32) && decide (i < 256)) = true at h
  simp only [Bool.and_eq_true, decide_eq_true_eq] at h
  obtain ⟨⟨⟨h0, h1⟩, h2⟩, h3⟩ := h
  obtain rfl : SlotClass.s = sl := Option.some.inj (of_decide_eq_true hs)
  have t2 : (i * 2 ^ 0 + 0) < 2 ^ 11 := lt_field (n := 256) h3 (by decide) (by decide)
  have t1 : (a * 2 ^ 11 + (i * 2 ^ 0 + 0)) < 2 ^ 16 := lt_field (n := 32) h2 t2 (by decide)
  have t0 : (d * 2 ^ 16 + (a * 2 ^ 11 + (i * 2 ^ 0 + 0))) < 2 ^ 21 := lt_field (n := 12) h1 t1 (by decide)
  obtain ⟨wd, hw⟩ : ∃ wd, g.neg.toNat * 2 ^ 31 + g.pred * 2 ^ 27 + 12 * 2 ^ 21 + (d * 2 ^ 16 + (a * 2 ^ 11 + (i * 2 ^ 0 + 0))) = wd := ⟨_, rfl⟩
  change decodeWord .s (g.neg.toNat * 2 ^ 31 + g.pred * 2 ^ 27 + 12 * 2 ^ 21 + (d * 2 ^ 16 + (a * 2 ^ 11 + (i * 2 ^ 0 + 0)))) = _
  rw [hw, decodeWord_op .s g 12 _ wd h0 (by decide) t0 (by decide) hw]
  change decodeS g wd = _
  have em := fld_major g 12 _ wd (by decide) t0 hw
  have f20_20 : fld wd 20 20 = 0 := (fld_body g 12 _ wd 20 20 (by decide) (by decide) hw).trans (fld_above (lt_field (n := 12) h1 t1 (by decide)))
  have f19_16 : fld wd 19 16 = d := (fld_body g 12 _ wd 19 16 (by decide) (by decide) hw).trans (fld_here (n := 12) h1 t1 (by decide))
  have f15_11 : fld wd 15 11 = a := (fld_body g 12 _ wd 15 11 (by decide) (by decide) hw).trans ((fld_below (by decide) (by decide)).trans (fld_here (n := 32) h2 t2 (by decide)))
  have f7_0 : fld wd 7 0 = i := (fld_body g 12 _ wd 7 0 (by decide) (by decide) hw).trans ((fld_below (by decide) (by decide)).trans ((fld_below (by decide) (by decide)).trans (fld_here (n := 256) h3 (by decide) (by decide))))
  have f10_8 : fld wd 10 8 = 0 := (fld_body g 12 _ wd 10 8 (by decide) (by decide) hw).trans ((fld_below (by decide) (by decide)).trans ((fld_below (by decide) (by decide)).trans (fld_above (lt_field (n := 256) h3 (by decide) (by decide)))))
  have ha : decodeS g wd = need (fld wd 20 20 = 0 ∧ fld wd 19 16 < 12) (.ok (.cmpiEq g (fld wd 19 16) (fld wd 15 11) (fld wd 7 0))) := by
    unfold decodeS; rw [em, f10_8]; rfl
  rw [ha]
  simp only [need, f20_20, f19_16, f15_11, f7_0, h1, and_self, if_true]

theorem RoundTrip.cmpiNe (g : Guard) (d : Nat) (a : Nat) (i : Nat) : Statement (.cmpiNe g d a i) := by
  intro h sl hs
  change (decide (g.pred < 12) && decide (d < 12) && decide (a < 32) && decide (i < 256)) = true at h
  simp only [Bool.and_eq_true, decide_eq_true_eq] at h
  obtain ⟨⟨⟨h0, h1⟩, h2⟩, h3⟩ := h
  obtain rfl : SlotClass.s = sl := Option.some.inj (of_decide_eq_true hs)
  have t0 : (d * 2 ^ 16 + (a * 2 ^ 11 + (i * 2 ^ 0 + (1 * 2 ^ 8 + 0)))) < 2 ^ 21 := by omega
  obtain ⟨wd, hw⟩ : ∃ wd, g.neg.toNat * 2 ^ 31 + g.pred * 2 ^ 27 + 12 * 2 ^ 21 + (d * 2 ^ 16 + (a * 2 ^ 11 + (i * 2 ^ 0 + (1 * 2 ^ 8 + 0)))) = wd := ⟨_, rfl⟩
  change decodeWord .s (g.neg.toNat * 2 ^ 31 + g.pred * 2 ^ 27 + 12 * 2 ^ 21 + (d * 2 ^ 16 + (a * 2 ^ 11 + (i * 2 ^ 0 + (1 * 2 ^ 8 + 0))))) = _
  rw [hw, decodeWord_op .s g 12 _ wd h0 (by decide) t0 (by decide) hw]
  change decodeS g wd = _
  have em := fld_major g 12 _ wd (by decide) t0 hw
  have f20_20 : fld wd 20 20 = 0 := (fld_body g 12 _ wd 20 20 (by decide) (by decide) hw).trans (by simp only [fld]; omega)
  have f19_16 : fld wd 19 16 = d := (fld_body g 12 _ wd 19 16 (by decide) (by decide) hw).trans (by simp only [fld]; omega)
  have f15_11 : fld wd 15 11 = a := (fld_body g 12 _ wd 15 11 (by decide) (by decide) hw).trans (by simp only [fld]; omega)
  have f7_0 : fld wd 7 0 = i := (fld_body g 12 _ wd 7 0 (by decide) (by decide) hw).trans (by simp only [fld]; omega)
  have f10_8 : fld wd 10 8 = 1 := (fld_body g 12 _ wd 10 8 (by decide) (by decide) hw).trans (by simp only [fld]; omega)
  have ha : decodeS g wd = need (fld wd 20 20 = 0 ∧ fld wd 19 16 < 12) (.ok (.cmpiNe g (fld wd 19 16) (fld wd 15 11) (fld wd 7 0))) := by
    unfold decodeS; rw [em, f10_8]; rfl
  rw [ha]
  simp only [need, f20_20, f19_16, f15_11, f7_0, h1, and_self, if_true]

theorem RoundTrip.cmpiLt (g : Guard) (d : Nat) (a : Nat) (i : Nat) : Statement (.cmpiLt g d a i) := by
  intro h sl hs
  change (decide (g.pred < 12) && decide (d < 12) && decide (a < 32) && decide (i < 256)) = true at h
  simp only [Bool.and_eq_true, decide_eq_true_eq] at h
  obtain ⟨⟨⟨h0, h1⟩, h2⟩, h3⟩ := h
  obtain rfl : SlotClass.s = sl := Option.some.inj (of_decide_eq_true hs)
  have t0 : (d * 2 ^ 16 + (a * 2 ^ 11 + (i * 2 ^ 0 + (1 * 2 ^ 9 + 0)))) < 2 ^ 21 := by omega
  obtain ⟨wd, hw⟩ : ∃ wd, g.neg.toNat * 2 ^ 31 + g.pred * 2 ^ 27 + 12 * 2 ^ 21 + (d * 2 ^ 16 + (a * 2 ^ 11 + (i * 2 ^ 0 + (1 * 2 ^ 9 + 0)))) = wd := ⟨_, rfl⟩
  change decodeWord .s (g.neg.toNat * 2 ^ 31 + g.pred * 2 ^ 27 + 12 * 2 ^ 21 + (d * 2 ^ 16 + (a * 2 ^ 11 + (i * 2 ^ 0 + (1 * 2 ^ 9 + 0))))) = _
  rw [hw, decodeWord_op .s g 12 _ wd h0 (by decide) t0 (by decide) hw]
  change decodeS g wd = _
  have em := fld_major g 12 _ wd (by decide) t0 hw
  have f20_20 : fld wd 20 20 = 0 := (fld_body g 12 _ wd 20 20 (by decide) (by decide) hw).trans (by simp only [fld]; omega)
  have f19_16 : fld wd 19 16 = d := (fld_body g 12 _ wd 19 16 (by decide) (by decide) hw).trans (by simp only [fld]; omega)
  have f15_11 : fld wd 15 11 = a := (fld_body g 12 _ wd 15 11 (by decide) (by decide) hw).trans (by simp only [fld]; omega)
  have f7_0 : fld wd 7 0 = i := (fld_body g 12 _ wd 7 0 (by decide) (by decide) hw).trans (by simp only [fld]; omega)
  have f10_8 : fld wd 10 8 = 2 := (fld_body g 12 _ wd 10 8 (by decide) (by decide) hw).trans (by simp only [fld]; omega)
  have ha : decodeS g wd = need (fld wd 20 20 = 0 ∧ fld wd 19 16 < 12) (.ok (.cmpiLt g (fld wd 19 16) (fld wd 15 11) (fld wd 7 0))) := by
    unfold decodeS; rw [em, f10_8]; rfl
  rw [ha]
  simp only [need, f20_20, f19_16, f15_11, f7_0, h1, and_self, if_true]

theorem RoundTrip.cmpiGe (g : Guard) (d : Nat) (a : Nat) (i : Nat) : Statement (.cmpiGe g d a i) := by
  intro h sl hs
  change (decide (g.pred < 12) && decide (d < 12) && decide (a < 32) && decide (i < 256)) = true at h
  simp only [Bool.and_eq_true, decide_eq_true_eq] at h
  obtain ⟨⟨⟨h0, h1⟩, h2⟩, h3⟩ := h
  obtain rfl : SlotClass.s = sl := Option.some.inj (of_decide_eq_true hs)
  have t0 : (d * 2 ^ 16 + (a * 2 ^ 11 + (i * 2 ^ 0 + (3 * 2 ^ 8 + 0)))) < 2 ^ 21 := by omega
  obtain ⟨wd, hw⟩ : ∃ wd, g.neg.toNat * 2 ^ 31 + g.pred * 2 ^ 27 + 12 * 2 ^ 21 + (d * 2 ^ 16 + (a * 2 ^ 11 + (i * 2 ^ 0 + (3 * 2 ^ 8 + 0)))) = wd := ⟨_, rfl⟩
  change decodeWord .s (g.neg.toNat * 2 ^ 31 + g.pred * 2 ^ 27 + 12 * 2 ^ 21 + (d * 2 ^ 16 + (a * 2 ^ 11 + (i * 2 ^ 0 + (3 * 2 ^ 8 + 0))))) = _
  rw [hw, decodeWord_op .s g 12 _ wd h0 (by decide) t0 (by decide) hw]
  change decodeS g wd = _
  have em := fld_major g 12 _ wd (by decide) t0 hw
  have f20_20 : fld wd 20 20 = 0 := (fld_body g 12 _ wd 20 20 (by decide) (by decide) hw).trans (by simp only [fld]; omega)
  have f19_16 : fld wd 19 16 = d := (fld_body g 12 _ wd 19 16 (by decide) (by decide) hw).trans (by simp only [fld]; omega)
  have f15_11 : fld wd 15 11 = a := (fld_body g 12 _ wd 15 11 (by decide) (by decide) hw).trans (by simp only [fld]; omega)
  have f7_0 : fld wd 7 0 = i := (fld_body g 12 _ wd 7 0 (by decide) (by decide) hw).trans (by simp only [fld]; omega)
  have f10_8 : fld wd 10 8 = 3 := (fld_body g 12 _ wd 10 8 (by decide) (by decide) hw).trans (by simp only [fld]; omega)
  have ha : decodeS g wd = need (fld wd 20 20 = 0 ∧ fld wd 19 16 < 12) (.ok (.cmpiGe g (fld wd 19 16) (fld wd 15 11) (fld wd 7 0))) := by
    unfold decodeS; rw [em, f10_8]; rfl
  rw [ha]
  simp only [need, f20_20, f19_16, f15_11, f7_0, h1, and_self, if_true]

theorem RoundTrip.cmpiLtu (g : Guard) (d : Nat) (a : Nat) (i : Nat) : Statement (.cmpiLtu g d a i) := by
  intro h sl hs
  change (decide (g.pred < 12) && decide (d < 12) && decide (a < 32) && decide (i < 256)) = true at h
  simp only [Bool.and_eq_true, decide_eq_true_eq] at h
  obtain ⟨⟨⟨h0, h1⟩, h2⟩, h3⟩ := h
  obtain rfl : SlotClass.s = sl := Option.some.inj (of_decide_eq_true hs)
  have t0 : (d * 2 ^ 16 + (a * 2 ^ 11 + (i * 2 ^ 0 + (1 * 2 ^ 10 + 0)))) < 2 ^ 21 := by omega
  obtain ⟨wd, hw⟩ : ∃ wd, g.neg.toNat * 2 ^ 31 + g.pred * 2 ^ 27 + 12 * 2 ^ 21 + (d * 2 ^ 16 + (a * 2 ^ 11 + (i * 2 ^ 0 + (1 * 2 ^ 10 + 0)))) = wd := ⟨_, rfl⟩
  change decodeWord .s (g.neg.toNat * 2 ^ 31 + g.pred * 2 ^ 27 + 12 * 2 ^ 21 + (d * 2 ^ 16 + (a * 2 ^ 11 + (i * 2 ^ 0 + (1 * 2 ^ 10 + 0))))) = _
  rw [hw, decodeWord_op .s g 12 _ wd h0 (by decide) t0 (by decide) hw]
  change decodeS g wd = _
  have em := fld_major g 12 _ wd (by decide) t0 hw
  have f20_20 : fld wd 20 20 = 0 := (fld_body g 12 _ wd 20 20 (by decide) (by decide) hw).trans (by simp only [fld]; omega)
  have f19_16 : fld wd 19 16 = d := (fld_body g 12 _ wd 19 16 (by decide) (by decide) hw).trans (by simp only [fld]; omega)
  have f15_11 : fld wd 15 11 = a := (fld_body g 12 _ wd 15 11 (by decide) (by decide) hw).trans (by simp only [fld]; omega)
  have f7_0 : fld wd 7 0 = i := (fld_body g 12 _ wd 7 0 (by decide) (by decide) hw).trans (by simp only [fld]; omega)
  have f10_8 : fld wd 10 8 = 4 := (fld_body g 12 _ wd 10 8 (by decide) (by decide) hw).trans (by simp only [fld]; omega)
  have ha : decodeS g wd = need (fld wd 20 20 = 0 ∧ fld wd 19 16 < 12) (.ok (.cmpiLtu g (fld wd 19 16) (fld wd 15 11) (fld wd 7 0))) := by
    unfold decodeS; rw [em, f10_8]; rfl
  rw [ha]
  simp only [need, f20_20, f19_16, f15_11, f7_0, h1, and_self, if_true]

theorem RoundTrip.cmpiGeu (g : Guard) (d : Nat) (a : Nat) (i : Nat) : Statement (.cmpiGeu g d a i) := by
  intro h sl hs
  change (decide (g.pred < 12) && decide (d < 12) && decide (a < 32) && decide (i < 256)) = true at h
  simp only [Bool.and_eq_true, decide_eq_true_eq] at h
  obtain ⟨⟨⟨h0, h1⟩, h2⟩, h3⟩ := h
  obtain rfl : SlotClass.s = sl := Option.some.inj (of_decide_eq_true hs)
  have t0 : (d * 2 ^ 16 + (a * 2 ^ 11 + (i * 2 ^ 0 + (5 * 2 ^ 8 + 0)))) < 2 ^ 21 := by omega
  obtain ⟨wd, hw⟩ : ∃ wd, g.neg.toNat * 2 ^ 31 + g.pred * 2 ^ 27 + 12 * 2 ^ 21 + (d * 2 ^ 16 + (a * 2 ^ 11 + (i * 2 ^ 0 + (5 * 2 ^ 8 + 0)))) = wd := ⟨_, rfl⟩
  change decodeWord .s (g.neg.toNat * 2 ^ 31 + g.pred * 2 ^ 27 + 12 * 2 ^ 21 + (d * 2 ^ 16 + (a * 2 ^ 11 + (i * 2 ^ 0 + (5 * 2 ^ 8 + 0))))) = _
  rw [hw, decodeWord_op .s g 12 _ wd h0 (by decide) t0 (by decide) hw]
  change decodeS g wd = _
  have em := fld_major g 12 _ wd (by decide) t0 hw
  have f20_20 : fld wd 20 20 = 0 := (fld_body g 12 _ wd 20 20 (by decide) (by decide) hw).trans (by simp only [fld]; omega)
  have f19_16 : fld wd 19 16 = d := (fld_body g 12 _ wd 19 16 (by decide) (by decide) hw).trans (by simp only [fld]; omega)
  have f15_11 : fld wd 15 11 = a := (fld_body g 12 _ wd 15 11 (by decide) (by decide) hw).trans (by simp only [fld]; omega)
  have f7_0 : fld wd 7 0 = i := (fld_body g 12 _ wd 7 0 (by decide) (by decide) hw).trans (by simp only [fld]; omega)
  have f10_8 : fld wd 10 8 = 5 := (fld_body g 12 _ wd 10 8 (by decide) (by decide) hw).trans (by simp only [fld]; omega)
  have ha : decodeS g wd = need (fld wd 20 20 = 0 ∧ fld wd 19 16 < 12) (.ok (.cmpiGeu g (fld wd 19 16) (fld wd 15 11) (fld wd 7 0))) := by
    unfold decodeS; rw [em, f10_8]; rfl
  rw [ha]
  simp only [need, f20_20, f19_16, f15_11, f7_0, h1, and_self, if_true]

theorem RoundTrip.pand (g : Guard) (d : Nat) (a : Nat) (b : Nat) : Statement (.pand g d a b) := by
  intro h sl hs
  change (decide (g.pred < 12) && decide (d < 12) && decide (a < 12) && decide (b < 12)) = true at h
  simp only [Bool.and_eq_true, decide_eq_true_eq] at h
  obtain ⟨⟨⟨h0, h1⟩, h2⟩, h3⟩ := h
  obtain rfl : SlotClass.s = sl := Option.some.inj (of_decide_eq_true hs)
  have t2 : (b * 2 ^ 6 + 0) < 2 ^ 11 := lt_field (n := 12) h3 (by decide) (by decide)
  have t1 : (a * 2 ^ 11 + (b * 2 ^ 6 + 0)) < 2 ^ 16 := lt_field (n := 12) h2 t2 (by decide)
  have t0 : (d * 2 ^ 16 + (a * 2 ^ 11 + (b * 2 ^ 6 + 0))) < 2 ^ 21 := lt_field (n := 12) h1 t1 (by decide)
  obtain ⟨wd, hw⟩ : ∃ wd, g.neg.toNat * 2 ^ 31 + g.pred * 2 ^ 27 + 13 * 2 ^ 21 + (d * 2 ^ 16 + (a * 2 ^ 11 + (b * 2 ^ 6 + 0))) = wd := ⟨_, rfl⟩
  change decodeWord .s (g.neg.toNat * 2 ^ 31 + g.pred * 2 ^ 27 + 13 * 2 ^ 21 + (d * 2 ^ 16 + (a * 2 ^ 11 + (b * 2 ^ 6 + 0)))) = _
  rw [hw, decodeWord_op .s g 13 _ wd h0 (by decide) t0 (by decide) hw]
  change decodeS g wd = _
  have em := fld_major g 13 _ wd (by decide) t0 hw
  have f20_20 : fld wd 20 20 = 0 := (fld_body g 13 _ wd 20 20 (by decide) (by decide) hw).trans (fld_above (lt_field (n := 12) h1 t1 (by decide)))
  have f15_15 : fld wd 15 15 = 0 := (fld_body g 13 _ wd 15 15 (by decide) (by decide) hw).trans ((fld_below (by decide) (by decide)).trans (fld_above (lt_field (n := 12) h2 t2 (by decide))))
  have f10_10 : fld wd 10 10 = 0 := (fld_body g 13 _ wd 10 10 (by decide) (by decide) hw).trans ((fld_below (by decide) (by decide)).trans ((fld_below (by decide) (by decide)).trans (fld_above (lt_field (n := 12) h3 (by decide) (by decide)))))
  have f5_3 : fld wd 5 3 = 0 := (fld_body g 13 _ wd 5 3 (by decide) (by decide) hw).trans ((fld_below (by decide) (by decide)).trans ((fld_below (by decide) (by decide)).trans ((fld_below (by decide) (by decide)).trans (by decide))))
  have f19_16 : fld wd 19 16 = d := (fld_body g 13 _ wd 19 16 (by decide) (by decide) hw).trans (fld_here (n := 12) h1 t1 (by decide))
  have f14_11 : fld wd 14 11 = a := (fld_body g 13 _ wd 14 11 (by decide) (by decide) hw).trans ((fld_below (by decide) (by decide)).trans (fld_here (n := 12) h2 t2 (by decide)))
  have f9_6 : fld wd 9 6 = b := (fld_body g 13 _ wd 9 6 (by decide) (by decide) hw).trans ((fld_below (by decide) (by decide)).trans ((fld_below (by decide) (by decide)).trans (fld_here (n := 12) h3 (by decide) (by decide))))
  have f2_0 : fld wd 2 0 = 0 := (fld_body g 13 _ wd 2 0 (by decide) (by decide) hw).trans ((fld_below (by decide) (by decide)).trans ((fld_below (by decide) (by decide)).trans ((fld_below (by decide) (by decide)).trans (by decide))))
  have ha : decodeS g wd = need (fld wd 20 20 = 0 ∧ fld wd 15 15 = 0 ∧ fld wd 10 10 = 0 ∧ fld wd 5 3 = 0 ∧ fld wd 19 16 < 12 ∧ fld wd 14 11 < 12 ∧ fld wd 9 6 < 12) (.ok (.pand g (fld wd 19 16) (fld wd 14 11) (fld wd 9 6))) := by
    unfold decodeS; rw [em, f2_0]; rfl
  rw [ha]
  simp only [need, f20_20, f15_15, f10_10, f5_3, f19_16, f14_11, f9_6, h1, h2, h3, and_self, if_true]

theorem RoundTrip.por (g : Guard) (d : Nat) (a : Nat) (b : Nat) : Statement (.por g d a b) := by
  intro h sl hs
  change (decide (g.pred < 12) && decide (d < 12) && decide (a < 12) && decide (b < 12)) = true at h
  simp only [Bool.and_eq_true, decide_eq_true_eq] at h
  obtain ⟨⟨⟨h0, h1⟩, h2⟩, h3⟩ := h
  obtain rfl : SlotClass.s = sl := Option.some.inj (of_decide_eq_true hs)
  have t3 : (1 * 2 ^ 0 + 0) < 2 ^ 6 := lt_field (n := 2) (Nat.lt_succ_self 1) (by decide) (by decide)
  have t2 : (b * 2 ^ 6 + (1 * 2 ^ 0 + 0)) < 2 ^ 11 := lt_field (n := 12) h3 t3 (by decide)
  have t1 : (a * 2 ^ 11 + (b * 2 ^ 6 + (1 * 2 ^ 0 + 0))) < 2 ^ 16 := lt_field (n := 12) h2 t2 (by decide)
  have t0 : (d * 2 ^ 16 + (a * 2 ^ 11 + (b * 2 ^ 6 + (1 * 2 ^ 0 + 0)))) < 2 ^ 21 := lt_field (n := 12) h1 t1 (by decide)
  obtain ⟨wd, hw⟩ : ∃ wd, g.neg.toNat * 2 ^ 31 + g.pred * 2 ^ 27 + 13 * 2 ^ 21 + (d * 2 ^ 16 + (a * 2 ^ 11 + (b * 2 ^ 6 + (1 * 2 ^ 0 + 0)))) = wd := ⟨_, rfl⟩
  change decodeWord .s (g.neg.toNat * 2 ^ 31 + g.pred * 2 ^ 27 + 13 * 2 ^ 21 + (d * 2 ^ 16 + (a * 2 ^ 11 + (b * 2 ^ 6 + (1 * 2 ^ 0 + 0))))) = _
  rw [hw, decodeWord_op .s g 13 _ wd h0 (by decide) t0 (by decide) hw]
  change decodeS g wd = _
  have em := fld_major g 13 _ wd (by decide) t0 hw
  have f20_20 : fld wd 20 20 = 0 := (fld_body g 13 _ wd 20 20 (by decide) (by decide) hw).trans (fld_above (lt_field (n := 12) h1 t1 (by decide)))
  have f15_15 : fld wd 15 15 = 0 := (fld_body g 13 _ wd 15 15 (by decide) (by decide) hw).trans ((fld_below (by decide) (by decide)).trans (fld_above (lt_field (n := 12) h2 t2 (by decide))))
  have f10_10 : fld wd 10 10 = 0 := (fld_body g 13 _ wd 10 10 (by decide) (by decide) hw).trans ((fld_below (by decide) (by decide)).trans ((fld_below (by decide) (by decide)).trans (fld_above (lt_field (n := 12) h3 t3 (by decide)))))
  have f5_3 : fld wd 5 3 = 0 := (fld_body g 13 _ wd 5 3 (by decide) (by decide) hw).trans ((fld_below (by decide) (by decide)).trans ((fld_below (by decide) (by decide)).trans ((fld_below (by decide) (by decide)).trans (fld_above (lt_field (n := 2) (Nat.lt_succ_self 1) (by decide) (by decide))))))
  have f19_16 : fld wd 19 16 = d := (fld_body g 13 _ wd 19 16 (by decide) (by decide) hw).trans (fld_here (n := 12) h1 t1 (by decide))
  have f14_11 : fld wd 14 11 = a := (fld_body g 13 _ wd 14 11 (by decide) (by decide) hw).trans ((fld_below (by decide) (by decide)).trans (fld_here (n := 12) h2 t2 (by decide)))
  have f9_6 : fld wd 9 6 = b := (fld_body g 13 _ wd 9 6 (by decide) (by decide) hw).trans ((fld_below (by decide) (by decide)).trans ((fld_below (by decide) (by decide)).trans (fld_here (n := 12) h3 t3 (by decide))))
  have f2_0 : fld wd 2 0 = 1 := (fld_body g 13 _ wd 2 0 (by decide) (by decide) hw).trans ((fld_below (by decide) (by decide)).trans ((fld_below (by decide) (by decide)).trans ((fld_below (by decide) (by decide)).trans (fld_here (n := 2) (Nat.lt_succ_self 1) (by decide) (by decide)))))
  have ha : decodeS g wd = need (fld wd 20 20 = 0 ∧ fld wd 15 15 = 0 ∧ fld wd 10 10 = 0 ∧ fld wd 5 3 = 0 ∧ fld wd 19 16 < 12 ∧ fld wd 14 11 < 12 ∧ fld wd 9 6 < 12) (.ok (.por g (fld wd 19 16) (fld wd 14 11) (fld wd 9 6))) := by
    unfold decodeS; rw [em, f2_0]; rfl
  rw [ha]
  simp only [need, f20_20, f15_15, f10_10, f5_3, f19_16, f14_11, f9_6, h1, h2, h3, and_self, if_true]

theorem RoundTrip.pxor (g : Guard) (d : Nat) (a : Nat) (b : Nat) : Statement (.pxor g d a b) := by
  intro h sl hs
  change (decide (g.pred < 12) && decide (d < 12) && decide (a < 12) && decide (b < 12)) = true at h
  simp only [Bool.and_eq_true, decide_eq_true_eq] at h
  obtain ⟨⟨⟨h0, h1⟩, h2⟩, h3⟩ := h
  obtain rfl : SlotClass.s = sl := Option.some.inj (of_decide_eq_true hs)
  have t3 : (1 * 2 ^ 1 + 0) < 2 ^ 6 := lt_field (n := 2) (Nat.lt_succ_self 1) (by decide) (by decide)
  have t2 : (b * 2 ^ 6 + (1 * 2 ^ 1 + 0)) < 2 ^ 11 := lt_field (n := 12) h3 t3 (by decide)
  have t1 : (a * 2 ^ 11 + (b * 2 ^ 6 + (1 * 2 ^ 1 + 0))) < 2 ^ 16 := lt_field (n := 12) h2 t2 (by decide)
  have t0 : (d * 2 ^ 16 + (a * 2 ^ 11 + (b * 2 ^ 6 + (1 * 2 ^ 1 + 0)))) < 2 ^ 21 := lt_field (n := 12) h1 t1 (by decide)
  obtain ⟨wd, hw⟩ : ∃ wd, g.neg.toNat * 2 ^ 31 + g.pred * 2 ^ 27 + 13 * 2 ^ 21 + (d * 2 ^ 16 + (a * 2 ^ 11 + (b * 2 ^ 6 + (1 * 2 ^ 1 + 0)))) = wd := ⟨_, rfl⟩
  change decodeWord .s (g.neg.toNat * 2 ^ 31 + g.pred * 2 ^ 27 + 13 * 2 ^ 21 + (d * 2 ^ 16 + (a * 2 ^ 11 + (b * 2 ^ 6 + (1 * 2 ^ 1 + 0))))) = _
  rw [hw, decodeWord_op .s g 13 _ wd h0 (by decide) t0 (by decide) hw]
  change decodeS g wd = _
  have em := fld_major g 13 _ wd (by decide) t0 hw
  have f20_20 : fld wd 20 20 = 0 := (fld_body g 13 _ wd 20 20 (by decide) (by decide) hw).trans (fld_above (lt_field (n := 12) h1 t1 (by decide)))
  have f15_15 : fld wd 15 15 = 0 := (fld_body g 13 _ wd 15 15 (by decide) (by decide) hw).trans ((fld_below (by decide) (by decide)).trans (fld_above (lt_field (n := 12) h2 t2 (by decide))))
  have f10_10 : fld wd 10 10 = 0 := (fld_body g 13 _ wd 10 10 (by decide) (by decide) hw).trans ((fld_below (by decide) (by decide)).trans ((fld_below (by decide) (by decide)).trans (fld_above (lt_field (n := 12) h3 t3 (by decide)))))
  have f5_3 : fld wd 5 3 = 0 := (fld_body g 13 _ wd 5 3 (by decide) (by decide) hw).trans ((fld_below (by decide) (by decide)).trans ((fld_below (by decide) (by decide)).trans ((fld_below (by decide) (by decide)).trans (fld_above (lt_field (n := 2) (Nat.lt_succ_self 1) (by decide) (by decide))))))
  have f19_16 : fld wd 19 16 = d := (fld_body g 13 _ wd 19 16 (by decide) (by decide) hw).trans (fld_here (n := 12) h1 t1 (by decide))
  have f14_11 : fld wd 14 11 = a := (fld_body g 13 _ wd 14 11 (by decide) (by decide) hw).trans ((fld_below (by decide) (by decide)).trans (fld_here (n := 12) h2 t2 (by decide)))
  have f9_6 : fld wd 9 6 = b := (fld_body g 13 _ wd 9 6 (by decide) (by decide) hw).trans ((fld_below (by decide) (by decide)).trans ((fld_below (by decide) (by decide)).trans (fld_here (n := 12) h3 t3 (by decide))))
  have f2_0 : fld wd 2 0 = 2 := (fld_body g 13 _ wd 2 0 (by decide) (by decide) hw).trans ((fld_below (by decide) (by decide)).trans ((fld_below (by decide) (by decide)).trans ((fld_below (by decide) (by decide)).trans (by decide))))
  have ha : decodeS g wd = need (fld wd 20 20 = 0 ∧ fld wd 15 15 = 0 ∧ fld wd 10 10 = 0 ∧ fld wd 5 3 = 0 ∧ fld wd 19 16 < 12 ∧ fld wd 14 11 < 12 ∧ fld wd 9 6 < 12) (.ok (.pxor g (fld wd 19 16) (fld wd 14 11) (fld wd 9 6))) := by
    unfold decodeS; rw [em, f2_0]; rfl
  rw [ha]
  simp only [need, f20_20, f15_15, f10_10, f5_3, f19_16, f14_11, f9_6, h1, h2, h3, and_self, if_true]

theorem RoundTrip.pandn (g : Guard) (d : Nat) (a : Nat) (b : Nat) : Statement (.pandn g d a b) := by
  intro h sl hs
  change (decide (g.pred < 12) && decide (d < 12) && decide (a < 12) && decide (b < 12)) = true at h
  simp only [Bool.and_eq_true, decide_eq_true_eq] at h
  obtain ⟨⟨⟨h0, h1⟩, h2⟩, h3⟩ := h
  obtain rfl : SlotClass.s = sl := Option.some.inj (of_decide_eq_true hs)
  have t3 : (3 * 2 ^ 0 + 0) < 2 ^ 6 := lt_field (n := 4) (Nat.lt_succ_self 3) (by decide) (by decide)
  have t2 : (b * 2 ^ 6 + (3 * 2 ^ 0 + 0)) < 2 ^ 11 := lt_field (n := 12) h3 t3 (by decide)
  have t1 : (a * 2 ^ 11 + (b * 2 ^ 6 + (3 * 2 ^ 0 + 0))) < 2 ^ 16 := lt_field (n := 12) h2 t2 (by decide)
  have t0 : (d * 2 ^ 16 + (a * 2 ^ 11 + (b * 2 ^ 6 + (3 * 2 ^ 0 + 0)))) < 2 ^ 21 := lt_field (n := 12) h1 t1 (by decide)
  obtain ⟨wd, hw⟩ : ∃ wd, g.neg.toNat * 2 ^ 31 + g.pred * 2 ^ 27 + 13 * 2 ^ 21 + (d * 2 ^ 16 + (a * 2 ^ 11 + (b * 2 ^ 6 + (3 * 2 ^ 0 + 0)))) = wd := ⟨_, rfl⟩
  change decodeWord .s (g.neg.toNat * 2 ^ 31 + g.pred * 2 ^ 27 + 13 * 2 ^ 21 + (d * 2 ^ 16 + (a * 2 ^ 11 + (b * 2 ^ 6 + (3 * 2 ^ 0 + 0))))) = _
  rw [hw, decodeWord_op .s g 13 _ wd h0 (by decide) t0 (by decide) hw]
  change decodeS g wd = _
  have em := fld_major g 13 _ wd (by decide) t0 hw
  have f20_20 : fld wd 20 20 = 0 := (fld_body g 13 _ wd 20 20 (by decide) (by decide) hw).trans (fld_above (lt_field (n := 12) h1 t1 (by decide)))
  have f15_15 : fld wd 15 15 = 0 := (fld_body g 13 _ wd 15 15 (by decide) (by decide) hw).trans ((fld_below (by decide) (by decide)).trans (fld_above (lt_field (n := 12) h2 t2 (by decide))))
  have f10_10 : fld wd 10 10 = 0 := (fld_body g 13 _ wd 10 10 (by decide) (by decide) hw).trans ((fld_below (by decide) (by decide)).trans ((fld_below (by decide) (by decide)).trans (fld_above (lt_field (n := 12) h3 t3 (by decide)))))
  have f5_3 : fld wd 5 3 = 0 := (fld_body g 13 _ wd 5 3 (by decide) (by decide) hw).trans ((fld_below (by decide) (by decide)).trans ((fld_below (by decide) (by decide)).trans ((fld_below (by decide) (by decide)).trans (fld_above (lt_field (n := 4) (Nat.lt_succ_self 3) (by decide) (by decide))))))
  have f19_16 : fld wd 19 16 = d := (fld_body g 13 _ wd 19 16 (by decide) (by decide) hw).trans (fld_here (n := 12) h1 t1 (by decide))
  have f14_11 : fld wd 14 11 = a := (fld_body g 13 _ wd 14 11 (by decide) (by decide) hw).trans ((fld_below (by decide) (by decide)).trans (fld_here (n := 12) h2 t2 (by decide)))
  have f9_6 : fld wd 9 6 = b := (fld_body g 13 _ wd 9 6 (by decide) (by decide) hw).trans ((fld_below (by decide) (by decide)).trans ((fld_below (by decide) (by decide)).trans (fld_here (n := 12) h3 t3 (by decide))))
  have f2_0 : fld wd 2 0 = 3 := (fld_body g 13 _ wd 2 0 (by decide) (by decide) hw).trans ((fld_below (by decide) (by decide)).trans ((fld_below (by decide) (by decide)).trans ((fld_below (by decide) (by decide)).trans (fld_here (n := 4) (Nat.lt_succ_self 3) (by decide) (by decide)))))
  have ha : decodeS g wd = need (fld wd 20 20 = 0 ∧ fld wd 15 15 = 0 ∧ fld wd 10 10 = 0 ∧ fld wd 5 3 = 0 ∧ fld wd 19 16 < 12 ∧ fld wd 14 11 < 12 ∧ fld wd 9 6 < 12) (.ok (.pandn g (fld wd 19 16) (fld wd 14 11) (fld wd 9 6))) := by
    unfold decodeS; rw [em, f2_0]; rfl
  rw [ha]
  simp only [need, f20_20, f15_15, f10_10, f5_3, f19_16, f14_11, f9_6, h1, h2, h3, and_self, if_true]

theorem RoundTrip.porn (g : Guard) (d : Nat) (a : Nat) (b : Nat) : Statement (.porn g d a b) := by
  intro h sl hs
  change (decide (g.pred < 12) && decide (d < 12) && decide (a < 12) && decide (b < 12)) = true at h
  simp only [Bool.and_eq_true, decide_eq_true_eq] at h
  obtain ⟨⟨⟨h0, h1⟩, h2⟩, h3⟩ := h
  obtain rfl : SlotClass.s = sl := Option.some.inj (of_decide_eq_true hs)
  have t3 : (1 * 2 ^ 2 + 0) < 2 ^ 6 := lt_field (n := 2) (Nat.lt_succ_self 1) (by decide) (by decide)
  have t2 : (b * 2 ^ 6 + (1 * 2 ^ 2 + 0)) < 2 ^ 11 := lt_field (n := 12) h3 t3 (by decide)
  have t1 : (a * 2 ^ 11 + (b * 2 ^ 6 + (1 * 2 ^ 2 + 0))) < 2 ^ 16 := lt_field (n := 12) h2 t2 (by decide)
  have t0 : (d * 2 ^ 16 + (a * 2 ^ 11 + (b * 2 ^ 6 + (1 * 2 ^ 2 + 0)))) < 2 ^ 21 := lt_field (n := 12) h1 t1 (by decide)
  obtain ⟨wd, hw⟩ : ∃ wd, g.neg.toNat * 2 ^ 31 + g.pred * 2 ^ 27 + 13 * 2 ^ 21 + (d * 2 ^ 16 + (a * 2 ^ 11 + (b * 2 ^ 6 + (1 * 2 ^ 2 + 0)))) = wd := ⟨_, rfl⟩
  change decodeWord .s (g.neg.toNat * 2 ^ 31 + g.pred * 2 ^ 27 + 13 * 2 ^ 21 + (d * 2 ^ 16 + (a * 2 ^ 11 + (b * 2 ^ 6 + (1 * 2 ^ 2 + 0))))) = _
  rw [hw, decodeWord_op .s g 13 _ wd h0 (by decide) t0 (by decide) hw]
  change decodeS g wd = _
  have em := fld_major g 13 _ wd (by decide) t0 hw
  have f20_20 : fld wd 20 20 = 0 := (fld_body g 13 _ wd 20 20 (by decide) (by decide) hw).trans (fld_above (lt_field (n := 12) h1 t1 (by decide)))
  have f15_15 : fld wd 15 15 = 0 := (fld_body g 13 _ wd 15 15 (by decide) (by decide) hw).trans ((fld_below (by decide) (by decide)).trans (fld_above (lt_field (n := 12) h2 t2 (by decide))))
  have f10_10 : fld wd 10 10 = 0 := (fld_body g 13 _ wd 10 10 (by decide) (by decide) hw).trans ((fld_below (by decide) (by decide)).trans ((fld_below (by decide) (by decide)).trans (fld_above (lt_field (n := 12) h3 t3 (by decide)))))
  have f5_3 : fld wd 5 3 = 0 := (fld_body g 13 _ wd 5 3 (by decide) (by decide) hw).trans ((fld_below (by decide) (by decide)).trans ((fld_below (by decide) (by decide)).trans ((fld_below (by decide) (by decide)).trans (fld_above (lt_field (n := 2) (Nat.lt_succ_self 1) (by decide) (by decide))))))
  have f19_16 : fld wd 19 16 = d := (fld_body g 13 _ wd 19 16 (by decide) (by decide) hw).trans (fld_here (n := 12) h1 t1 (by decide))
  have f14_11 : fld wd 14 11 = a := (fld_body g 13 _ wd 14 11 (by decide) (by decide) hw).trans ((fld_below (by decide) (by decide)).trans (fld_here (n := 12) h2 t2 (by decide)))
  have f9_6 : fld wd 9 6 = b := (fld_body g 13 _ wd 9 6 (by decide) (by decide) hw).trans ((fld_below (by decide) (by decide)).trans ((fld_below (by decide) (by decide)).trans (fld_here (n := 12) h3 t3 (by decide))))
  have f2_0 : fld wd 2 0 = 4 := (fld_body g 13 _ wd 2 0 (by decide) (by decide) hw).trans ((fld_below (by decide) (by decide)).trans ((fld_below (by decide) (by decide)).trans ((fld_below (by decide) (by decide)).trans (by decide))))
  have ha : decodeS g wd = need (fld wd 20 20 = 0 ∧ fld wd 15 15 = 0 ∧ fld wd 10 10 = 0 ∧ fld wd 5 3 = 0 ∧ fld wd 19 16 < 12 ∧ fld wd 14 11 < 12 ∧ fld wd 9 6 < 12) (.ok (.porn g (fld wd 19 16) (fld wd 14 11) (fld wd 9 6))) := by
    unfold decodeS; rw [em, f2_0]; rfl
  rw [ha]
  simp only [need, f20_20, f15_15, f10_10, f5_3, f19_16, f14_11, f9_6, h1, h2, h3, and_self, if_true]

theorem RoundTrip.pnot (g : Guard) (d : Nat) (a : Nat) : Statement (.pnot g d a) := by
  intro h sl hs
  change (decide (g.pred < 12) && decide (d < 12) && decide (a < 12)) = true at h
  simp only [Bool.and_eq_true, decide_eq_true_eq] at h
  obtain ⟨⟨h0, h1⟩, h2⟩ := h
  obtain rfl : SlotClass.s = sl := Option.some.inj (of_decide_eq_true hs)
  have t2 : (5 * 2 ^ 0 + 0) < 2 ^ 11 := lt_field (n := 6) (Nat.lt_succ_self 5) (by decide) (by decide)
  have t1 : (a * 2 ^ 11 + (5 * 2 ^ 0 + 0)) < 2 ^ 16 := lt_field (n := 12) h2 t2 (by decide)
  have t0 : (d * 2 ^ 16 + (a * 2 ^ 11 + (5 * 2 ^ 0 + 0))) < 2 ^ 21 := lt_field (n := 12) h1 t1 (by decide)
  obtain ⟨wd, hw⟩ : ∃ wd, g.neg.toNat * 2 ^ 31 + g.pred * 2 ^ 27 + 13 * 2 ^ 21 + (d * 2 ^ 16 + (a * 2 ^ 11 + (5 * 2 ^ 0 + 0))) = wd := ⟨_, rfl⟩
  change decodeWord .s (g.neg.toNat * 2 ^ 31 + g.pred * 2 ^ 27 + 13 * 2 ^ 21 + (d * 2 ^ 16 + (a * 2 ^ 11 + (5 * 2 ^ 0 + 0)))) = _
  rw [hw, decodeWord_op .s g 13 _ wd h0 (by decide) t0 (by decide) hw]
  change decodeS g wd = _
  have em := fld_major g 13 _ wd (by decide) t0 hw
  have f20_20 : fld wd 20 20 = 0 := (fld_body g 13 _ wd 20 20 (by decide) (by decide) hw).trans (fld_above (lt_field (n := 12) h1 t1 (by decide)))
  have f15_15 : fld wd 15 15 = 0 := (fld_body g 13 _ wd 15 15 (by decide) (by decide) hw).trans ((fld_below (by decide) (by decide)).trans (fld_above (lt_field (n := 12) h2 t2 (by decide))))
  have f10_3 : fld wd 10 3 = 0 := (fld_body g 13 _ wd 10 3 (by decide) (by decide) hw).trans ((fld_below (by decide) (by decide)).trans ((fld_below (by decide) (by decide)).trans (fld_above (lt_field (n := 6) (Nat.lt_succ_self 5) (by decide) (by decide)))))
  have f19_16 : fld wd 19 16 = d := (fld_body g 13 _ wd 19 16 (by decide) (by decide) hw).trans (fld_here (n := 12) h1 t1 (by decide))
  have f14_11 : fld wd 14 11 = a := (fld_body g 13 _ wd 14 11 (by decide) (by decide) hw).trans ((fld_below (by decide) (by decide)).trans (fld_here (n := 12) h2 t2 (by decide)))
  have f2_0 : fld wd 2 0 = 5 := (fld_body g 13 _ wd 2 0 (by decide) (by decide) hw).trans ((fld_below (by decide) (by decide)).trans ((fld_below (by decide) (by decide)).trans (fld_here (n := 6) (Nat.lt_succ_self 5) (by decide) (by decide))))
  have ha : decodeS g wd = need (fld wd 20 20 = 0 ∧ fld wd 15 15 = 0 ∧ fld wd 10 3 = 0 ∧ fld wd 19 16 < 12 ∧ fld wd 14 11 < 12) (.ok (.pnot g (fld wd 19 16) (fld wd 14 11))) := by
    unfold decodeS; rw [em, f2_0]; rfl
  rw [ha]
  simp only [need, f20_20, f15_15, f10_3, f19_16, f14_11, h1, h2, and_self, if_true]

theorem RoundTrip.sel (g : Guard) (d : Nat) (a : Nat) (b : Nat) (p : Nat) : Statement (.sel g d a b p) := by
  intro h sl hs
  change (decide (g.pred < 12) && decide (d < 32) && decide (a < 32) && decide (b < 32) && decide (p < 12)) = true at h
  simp only [Bool.and_eq_true, decide_eq_true_eq] at h
  obtain ⟨⟨⟨⟨h0, h1⟩, h2⟩, h3⟩, h4⟩ := h
  obtain rfl : SlotClass.s = sl := Option.some.inj (of_decide_eq_true hs)
  have t3 : (p * 2 ^ 0 + 0) < 2 ^ 6 := lt_field (n := 12) h4 (by decide) (by decide)
  have t2 : (b * 2 ^ 6 + (p * 2 ^ 0 + 0)) < 2 ^ 11 := lt_field (n := 32) h3 t3 (by decide)
  have t1 : (a * 2 ^ 11 + (b * 2 ^ 6 + (p * 2 ^ 0 + 0))) < 2 ^ 16 := lt_field (n := 32) h2 t2 (by decide)
  have t0 : (d * 2 ^ 16 + (a * 2 ^ 11 + (b * 2 ^ 6 + (p * 2 ^ 0 + 0)))) < 2 ^ 21 := lt_field (n := 32) h1 t1 (by decide)
  obtain ⟨wd, hw⟩ : ∃ wd, g.neg.toNat * 2 ^ 31 + g.pred * 2 ^ 27 + 14 * 2 ^ 21 + (d * 2 ^ 16 + (a * 2 ^ 11 + (b * 2 ^ 6 + (p * 2 ^ 0 + 0)))) = wd := ⟨_, rfl⟩
  change decodeWord .s (g.neg.toNat * 2 ^ 31 + g.pred * 2 ^ 27 + 14 * 2 ^ 21 + (d * 2 ^ 16 + (a * 2 ^ 11 + (b * 2 ^ 6 + (p * 2 ^ 0 + 0))))) = _
  rw [hw, decodeWord_op .s g 14 _ wd h0 (by decide) t0 (by decide) hw]
  change decodeS g wd = _
  have em := fld_major g 14 _ wd (by decide) t0 hw
  have f5_4 : fld wd 5 4 = 0 := (fld_body g 14 _ wd 5 4 (by decide) (by decide) hw).trans ((fld_below (by decide) (by decide)).trans ((fld_below (by decide) (by decide)).trans ((fld_below (by decide) (by decide)).trans (fld_above (lt_field (n := 12) h4 (by decide) (by decide))))))
  have f3_0 : fld wd 3 0 = p := (fld_body g 14 _ wd 3 0 (by decide) (by decide) hw).trans ((fld_below (by decide) (by decide)).trans ((fld_below (by decide) (by decide)).trans ((fld_below (by decide) (by decide)).trans (fld_here (n := 12) h4 (by decide) (by decide)))))
  have f20_16 : fld wd 20 16 = d := (fld_body g 14 _ wd 20 16 (by decide) (by decide) hw).trans (fld_here (n := 32) h1 t1 (by decide))
  have f15_11 : fld wd 15 11 = a := (fld_body g 14 _ wd 15 11 (by decide) (by decide) hw).trans ((fld_below (by decide) (by decide)).trans (fld_here (n := 32) h2 t2 (by decide)))
  have f10_6 : fld wd 10 6 = b := (fld_body g 14 _ wd 10 6 (by decide) (by decide) hw).trans ((fld_below (by decide) (by decide)).trans ((fld_below (by decide) (by decide)).trans (fld_here (n := 32) h3 t3 (by decide))))
  have ha : decodeS g wd = need (fld wd 5 4 = 0 ∧ fld wd 3 0 < 12) (.ok (.sel g (fld wd 20 16) (fld wd 15 11) (fld wd 10 6) (fld wd 3 0))) := by
    unfold decodeS; rw [em]; rfl
  rw [ha]
  simp only [need, f5_4, f3_0, f20_16, f15_11, f10_6, h4, and_self, if_true]

theorem RoundTrip.setb (g : Guard) (d : Nat) (a : Nat) : Statement (.setb g d a) := by
  intro h sl hs
  change (decide (g.pred < 12) && decide (d < 4) && decide (a < 32)) = true at h
  simp only [Bool.and_eq_true, decide_eq_true_eq] at h
  obtain ⟨⟨h0, h1⟩, h2⟩ := h
  obtain rfl : SlotClass.s = sl := Option.some.inj (of_decide_eq_true hs)
  have t1 : (a * 2 ^ 11 + 0) < 2 ^ 16 := lt_field (n := 32) h2 (by decide) (by decide)
  have t0 : (d * 2 ^ 16 + (a * 2 ^ 11 + 0)) < 2 ^ 21 := lt_field (n := 4) h1 t1 (by decide)
  obtain ⟨wd, hw⟩ : ∃ wd, g.neg.toNat * 2 ^ 31 + g.pred * 2 ^ 27 + 15 * 2 ^ 21 + (d * 2 ^ 16 + (a * 2 ^ 11 + 0)) = wd := ⟨_, rfl⟩
  change decodeWord .s (g.neg.toNat * 2 ^ 31 + g.pred * 2 ^ 27 + 15 * 2 ^ 21 + (d * 2 ^ 16 + (a * 2 ^ 11 + 0))) = _
  rw [hw, decodeWord_op .s g 15 _ wd h0 (by decide) t0 (by decide) hw]
  change decodeS g wd = _
  have em := fld_major g 15 _ wd (by decide) t0 hw
  have f20_18 : fld wd 20 18 = 0 := (fld_body g 15 _ wd 20 18 (by decide) (by decide) hw).trans (fld_above (lt_field (n := 4) h1 t1 (by decide)))
  have f10_0 : fld wd 10 0 = 0 := (fld_body g 15 _ wd 10 0 (by decide) (by decide) hw).trans ((fld_below (by decide) (by decide)).trans ((fld_below (by decide) (by decide)).trans (by decide)))
  have f17_16 : fld wd 17 16 = d := (fld_body g 15 _ wd 17 16 (by decide) (by decide) hw).trans (fld_here (n := 4) h1 t1 (by decide))
  have f15_11 : fld wd 15 11 = a := (fld_body g 15 _ wd 15 11 (by decide) (by decide) hw).trans ((fld_below (by decide) (by decide)).trans (fld_here (n := 32) h2 (by decide) (by decide)))
  have ha : decodeS g wd = need (fld wd 20 18 = 0 ∧ fld wd 10 0 = 0) (.ok (.setb g (fld wd 17 16) (fld wd 15 11))) := by
    unfold decodeS; rw [em]; rfl
  rw [ha]
  simp only [need, f20_18, f10_0, f17_16, f15_11, and_self, if_true]

theorem RoundTrip.getb (g : Guard) (d : Nat) (a : Nat) : Statement (.getb g d a) := by
  intro h sl hs
  change (decide (g.pred < 12) && decide (d < 32) && decide (a < 4)) = true at h
  simp only [Bool.and_eq_true, decide_eq_true_eq] at h
  obtain ⟨⟨h0, h1⟩, h2⟩ := h
  obtain rfl : SlotClass.s = sl := Option.some.inj (of_decide_eq_true hs)
  have t1 : (a * 2 ^ 11 + 0) < 2 ^ 16 := lt_field (n := 4) h2 (by decide) (by decide)
  have t0 : (d * 2 ^ 16 + (a * 2 ^ 11 + 0)) < 2 ^ 21 := lt_field (n := 32) h1 t1 (by decide)
  obtain ⟨wd, hw⟩ : ∃ wd, g.neg.toNat * 2 ^ 31 + g.pred * 2 ^ 27 + 16 * 2 ^ 21 + (d * 2 ^ 16 + (a * 2 ^ 11 + 0)) = wd := ⟨_, rfl⟩
  change decodeWord .s (g.neg.toNat * 2 ^ 31 + g.pred * 2 ^ 27 + 16 * 2 ^ 21 + (d * 2 ^ 16 + (a * 2 ^ 11 + 0))) = _
  rw [hw, decodeWord_op .s g 16 _ wd h0 (by decide) t0 (by decide) hw]
  change decodeS g wd = _
  have em := fld_major g 16 _ wd (by decide) t0 hw
  have f15_13 : fld wd 15 13 = 0 := (fld_body g 16 _ wd 15 13 (by decide) (by decide) hw).trans ((fld_below (by decide) (by decide)).trans (fld_above (lt_field (n := 4) h2 (by decide) (by decide))))
  have f10_0 : fld wd 10 0 = 0 := (fld_body g 16 _ wd 10 0 (by decide) (by decide) hw).trans ((fld_below (by decide) (by decide)).trans ((fld_below (by decide) (by decide)).trans (by decide)))
  have f20_16 : fld wd 20 16 = d := (fld_body g 16 _ wd 20 16 (by decide) (by decide) hw).trans (fld_here (n := 32) h1 t1 (by decide))
  have f12_11 : fld wd 12 11 = a := (fld_body g 16 _ wd 12 11 (by decide) (by decide) hw).trans ((fld_below (by decide) (by decide)).trans (fld_here (n := 4) h2 (by decide) (by decide)))
  have ha : decodeS g wd = need (fld wd 15 13 = 0 ∧ fld wd 10 0 = 0) (.ok (.getb g (fld wd 20 16) (fld wd 12 11))) := by
    unfold decodeS; rw [em]; rfl
  rw [ha]
  simp only [need, f15_13, f10_0, f20_16, f12_11, and_self, if_true]

theorem RoundTrip.setbi (g : Guard) (d : Nat) (t : Nat) : Statement (.setbi g d t) := by
  intro h sl hs
  change (decide (g.pred < 12) && decide (d < 4) && decide (t < 8192)) = true at h
  simp only [Bool.and_eq_true, decide_eq_true_eq] at h
  obtain ⟨⟨h0, h1⟩, h2⟩ := h
  obtain rfl : SlotClass.s = sl := Option.some.inj (of_decide_eq_true hs)
  have t1 : (t * 2 ^ 0 + 0) < 2 ^ 16 := lt_field (n := 8192) h2 (by decide) (by decide)
  have t0 : (d * 2 ^ 16 + (t * 2 ^ 0 + 0)) < 2 ^ 21 := lt_field (n := 4) h1 t1 (by decide)
  obtain ⟨wd, hw⟩ : ∃ wd, g.neg.toNat * 2 ^ 31 + g.pred * 2 ^ 27 + 17 * 2 ^ 21 + (d * 2 ^ 16 + (t * 2 ^ 0 + 0)) = wd := ⟨_, rfl⟩
  change decodeWord .s (g.neg.toNat * 2 ^ 31 + g.pred * 2 ^ 27 + 17 * 2 ^ 21 + (d * 2 ^ 16 + (t * 2 ^ 0 + 0))) = _
  rw [hw, decodeWord_op .s g 17 _ wd h0 (by decide) t0 (by decide) hw]
  change decodeS g wd = _
  have em := fld_major g 17 _ wd (by decide) t0 hw
  have f20_18 : fld wd 20 18 = 0 := (fld_body g 17 _ wd 20 18 (by decide) (by decide) hw).trans (fld_above (lt_field (n := 4) h1 t1 (by decide)))
  have f15_13 : fld wd 15 13 = 0 := (fld_body g 17 _ wd 15 13 (by decide) (by decide) hw).trans ((fld_below (by decide) (by decide)).trans (fld_above (lt_field (n := 8192) h2 (by decide) (by decide))))
  have f17_16 : fld wd 17 16 = d := (fld_body g 17 _ wd 17 16 (by decide) (by decide) hw).trans (fld_here (n := 4) h1 t1 (by decide))
  have f12_0 : fld wd 12 0 = t := (fld_body g 17 _ wd 12 0 (by decide) (by decide) hw).trans ((fld_below (by decide) (by decide)).trans (fld_here (n := 8192) h2 (by decide) (by decide)))
  have ha : decodeS g wd = need (fld wd 20 18 = 0 ∧ fld wd 15 13 = 0) (.ok (.setbi g (fld wd 17 16) (fld wd 12 0))) := by
    unfold decodeS; rw [em]; rfl
  rw [ha]
  simp only [need, f20_18, f15_13, f17_16, f12_0, and_self, if_true]

theorem RoundTrip.sysrd (g : Guard) (d : Nat) (s : Nat) : Statement (.sysrd g d s) := by
  intro h sl hs
  change (decide (g.pred < 12) && decide (d < 32) && sysNumber s) = true at h
  simp only [Bool.and_eq_true, decide_eq_true_eq] at h
  obtain ⟨⟨h0, h1⟩, h2⟩ := h
  have hn := sysNumber_lt h2
  obtain rfl : SlotClass.s = sl := Option.some.inj (of_decide_eq_true hs)
  have t1 : (s * 2 ^ 0 + 0) < 2 ^ 16 := lt_field (n := 4096) hn (by decide) (by decide)
  have t0 : (d * 2 ^ 16 + (s * 2 ^ 0 + 0)) < 2 ^ 21 := lt_field (n := 32) h1 t1 (by decide)
  obtain ⟨wd, hw⟩ : ∃ wd, g.neg.toNat * 2 ^ 31 + g.pred * 2 ^ 27 + 18 * 2 ^ 21 + (d * 2 ^ 16 + (s * 2 ^ 0 + 0)) = wd := ⟨_, rfl⟩
  change decodeWord .s (g.neg.toNat * 2 ^ 31 + g.pred * 2 ^ 27 + 18 * 2 ^ 21 + (d * 2 ^ 16 + (s * 2 ^ 0 + 0))) = _
  rw [hw, decodeWord_op .s g 18 _ wd h0 (by decide) t0 (by decide) hw]
  change decodeS g wd = _
  have em := fld_major g 18 _ wd (by decide) t0 hw
  have f15_12 : fld wd 15 12 = 0 := (fld_body g 18 _ wd 15 12 (by decide) (by decide) hw).trans ((fld_below (by decide) (by decide)).trans (fld_above (lt_field (n := 4096) hn (by decide) (by decide))))
  have f11_0 : fld wd 11 0 = s := (fld_body g 18 _ wd 11 0 (by decide) (by decide) hw).trans ((fld_below (by decide) (by decide)).trans (fld_here (n := 4096) hn (by decide) (by decide)))
  have f20_16 : fld wd 20 16 = d := (fld_body g 18 _ wd 20 16 (by decide) (by decide) hw).trans (fld_here (n := 32) h1 t1 (by decide))
  have ha : decodeS g wd = need (fld wd 15 12 = 0) (if sysNumber (fld wd 11 0) then .ok (.sysrd g (fld wd 20 16) (fld wd 11 0)) else .error .unassignedSysreg) := by
    unfold decodeS; rw [em]; rfl
  rw [ha]
  simp only [need, f15_12, f11_0, f20_16, h2, if_true]

theorem RoundTrip.syswr (g : Guard) (a : Nat) (s : Nat) : Statement (.syswr g a s) := by
  intro h sl hs
  change (decide (g.pred < 12) && decide (a < 32) && sysNumber s) = true at h
  simp only [Bool.and_eq_true, decide_eq_true_eq] at h
  obtain ⟨⟨h0, h1⟩, h2⟩ := h
  have hn := sysNumber_lt h2
  obtain rfl : SlotClass.s = sl := Option.some.inj (of_decide_eq_true hs)
  have t1 : (s * 2 ^ 0 + 0) < 2 ^ 16 := lt_field (n := 4096) hn (by decide) (by decide)
  have t0 : (a * 2 ^ 16 + (s * 2 ^ 0 + 0)) < 2 ^ 21 := lt_field (n := 32) h1 t1 (by decide)
  obtain ⟨wd, hw⟩ : ∃ wd, g.neg.toNat * 2 ^ 31 + g.pred * 2 ^ 27 + 19 * 2 ^ 21 + (a * 2 ^ 16 + (s * 2 ^ 0 + 0)) = wd := ⟨_, rfl⟩
  change decodeWord .s (g.neg.toNat * 2 ^ 31 + g.pred * 2 ^ 27 + 19 * 2 ^ 21 + (a * 2 ^ 16 + (s * 2 ^ 0 + 0))) = _
  rw [hw, decodeWord_op .s g 19 _ wd h0 (by decide) t0 (by decide) hw]
  change decodeS g wd = _
  have em := fld_major g 19 _ wd (by decide) t0 hw
  have f15_12 : fld wd 15 12 = 0 := (fld_body g 19 _ wd 15 12 (by decide) (by decide) hw).trans ((fld_below (by decide) (by decide)).trans (fld_above (lt_field (n := 4096) hn (by decide) (by decide))))
  have f11_0 : fld wd 11 0 = s := (fld_body g 19 _ wd 11 0 (by decide) (by decide) hw).trans ((fld_below (by decide) (by decide)).trans (fld_here (n := 4096) hn (by decide) (by decide)))
  have f20_16 : fld wd 20 16 = a := (fld_body g 19 _ wd 20 16 (by decide) (by decide) hw).trans (fld_here (n := 32) h1 t1 (by decide))
  have ha : decodeS g wd = need (fld wd 15 12 = 0) (if sysNumber (fld wd 11 0) then .ok (.syswr g (fld wd 20 16) (fld wd 11 0)) else .error .unassignedSysreg) := by
    unfold decodeS; rw [em]; rfl
  rw [ha]
  simp only [need, f15_12, f11_0, f20_16, h2, if_true]

theorem RoundTrip.qrd (g : Guard) (d : Nat) (a : Nat) (h : Bool) : Statement (.qrd g d a h) := by
  intro h sl hs
  change (decide (g.pred < 12) && decide (d < 32) && decide (a < 4)) = true at h
  simp only [Bool.and_eq_true, decide_eq_true_eq] at h
  obtain ⟨⟨h0, h1⟩, h2⟩ := h
  obtain rfl : SlotClass.s = sl := Option.some.inj (of_decide_eq_true hs)
  have t2 : (h.toNat * 2 ^ 0 + 0) < 2 ^ 11 := lt_field (n := 2) (toNat_lt_two h) (by decide) (by decide)
  have t1 : (a * 2 ^ 11 + (h.toNat * 2 ^ 0 + 0)) < 2 ^ 16 := lt_field (n := 4) h2 t2 (by decide)
  have t0 : (d * 2 ^ 16 + (a * 2 ^ 11 + (h.toNat * 2 ^ 0 + 0))) < 2 ^ 21 := lt_field (n := 32) h1 t1 (by decide)
  obtain ⟨wd, hw⟩ : ∃ wd, g.neg.toNat * 2 ^ 31 + g.pred * 2 ^ 27 + 20 * 2 ^ 21 + (d * 2 ^ 16 + (a * 2 ^ 11 + (h.toNat * 2 ^ 0 + 0))) = wd := ⟨_, rfl⟩
  change decodeWord .s (g.neg.toNat * 2 ^ 31 + g.pred * 2 ^ 27 + 20 * 2 ^ 21 + (d * 2 ^ 16 + (a * 2 ^ 11 + (h.toNat * 2 ^ 0 + 0)))) = _
  rw [hw, decodeWord_op .s g 20 _ wd h0 (by decide) t0 (by decide) hw]
  change decodeS g wd = _
  have em := fld_major g 20 _ wd (by decide) t0 hw
  have f15_13 : fld wd 15 13 = 0 := (fld_body g 20 _ wd 15 13 (by decide) (by decide) hw).trans ((fld_below (by decide) (by decide)).trans (fld_above (lt_field (n := 4) h2 t2 (by decide))))
  have f10_1 : fld wd 10 1 = 0 := (fld_body g 20 _ wd 10 1 (by decide) (by decide) hw).trans ((fld_below (by decide) (by decide)).trans ((fld_below (by decide) (by decide)).trans (fld_above (lt_field (n := 2) (toNat_lt_two h) (by decide) (by decide)))))
  have f20_16 : fld wd 20 16 = d := (fld_body g 20 _ wd 20 16 (by decide) (by decide) hw).trans (fld_here (n := 32) h1 t1 (by decide))
  have f12_11 : fld wd 12 11 = a := (fld_body g 20 _ wd 12 11 (by decide) (by decide) hw).trans ((fld_below (by decide) (by decide)).trans (fld_here (n := 4) h2 t2 (by decide)))
  have f0_0 : fld wd 0 0 = h.toNat := (fld_body g 20 _ wd 0 0 (by decide) (by decide) hw).trans ((fld_below (by decide) (by decide)).trans ((fld_below (by decide) (by decide)).trans (fld_here (n := 2) (toNat_lt_two h) (by decide) (by decide))))
  have ha : decodeS g wd = need (fld wd 15 13 = 0 ∧ fld wd 10 1 = 0) (.ok (.qrd g (fld wd 20 16) (fld wd 12 11) (fld wd 0 0 == 1))) := by
    unfold decodeS; rw [em]; rfl
  rw [ha]
  simp only [need, f15_13, f10_1, f20_16, f12_11, f0_0, toNat_beq_one, and_self, if_true]

theorem RoundTrip.ldb (g : Guard) (d : Nat) (a : Nat) (i : Nat) : Statement (.ldb g d a i) := by
  intro h sl hs
  change (decide (g.pred < 12) && decide (d < 32) && decide (a < 32) && decide (i < 2048)) = true at h
  simp only [Bool.and_eq_true, decide_eq_true_eq] at h
  obtain ⟨⟨⟨h0, h1⟩, h2⟩, h3⟩ := h
  obtain rfl : SlotClass.l = sl := Option.some.inj (of_decide_eq_true hs)
  have t2 : (i * 2 ^ 0 + 0) < 2 ^ 11 := lt_field (n := 2048) h3 (by decide) (by decide)
  have t1 : (a * 2 ^ 11 + (i * 2 ^ 0 + 0)) < 2 ^ 16 := lt_field (n := 32) h2 t2 (by decide)
  have t0 : (d * 2 ^ 16 + (a * 2 ^ 11 + (i * 2 ^ 0 + 0))) < 2 ^ 21 := lt_field (n := 32) h1 t1 (by decide)
  obtain ⟨wd, hw⟩ : ∃ wd, g.neg.toNat * 2 ^ 31 + g.pred * 2 ^ 27 + 1 * 2 ^ 21 + (d * 2 ^ 16 + (a * 2 ^ 11 + (i * 2 ^ 0 + 0))) = wd := ⟨_, rfl⟩
  change decodeWord .l (g.neg.toNat * 2 ^ 31 + g.pred * 2 ^ 27 + 1 * 2 ^ 21 + (d * 2 ^ 16 + (a * 2 ^ 11 + (i * 2 ^ 0 + 0)))) = _
  rw [hw, decodeWord_op .l g 1 _ wd h0 (by decide) t0 (by decide) hw]
  change decodeL g wd = _
  have em := fld_major g 1 _ wd (by decide) t0 hw
  have f20_16 : fld wd 20 16 = d := (fld_body g 1 _ wd 20 16 (by decide) (by decide) hw).trans (fld_here (n := 32) h1 t1 (by decide))
  have f15_11 : fld wd 15 11 = a := (fld_body g 1 _ wd 15 11 (by decide) (by decide) hw).trans ((fld_below (by decide) (by decide)).trans (fld_here (n := 32) h2 t2 (by decide)))
  have f10_0 : fld wd 10 0 = i := (fld_body g 1 _ wd 10 0 (by decide) (by decide) hw).trans ((fld_below (by decide) (by decide)).trans ((fld_below (by decide) (by decide)).trans (fld_here (n := 2048) h3 (by decide) (by decide))))
  have ha : decodeL g wd = .ok (.ldb g (fld wd 20 16) (fld wd 15 11) (fld wd 10 0)) := by
    unfold decodeL; rw [em]; rfl
  rw [ha]
  rw [f20_16, f15_11, f10_0]

theorem RoundTrip.ldbu (g : Guard) (d : Nat) (a : Nat) (i : Nat) : Statement (.ldbu g d a i) := by
  intro h sl hs
  change (decide (g.pred < 12) && decide (d < 32) && decide (a < 32) && decide (i < 2048)) = true at h
  simp only [Bool.and_eq_true, decide_eq_true_eq] at h
  obtain ⟨⟨⟨h0, h1⟩, h2⟩, h3⟩ := h
  obtain rfl : SlotClass.l = sl := Option.some.inj (of_decide_eq_true hs)
  have t2 : (i * 2 ^ 0 + 0) < 2 ^ 11 := lt_field (n := 2048) h3 (by decide) (by decide)
  have t1 : (a * 2 ^ 11 + (i * 2 ^ 0 + 0)) < 2 ^ 16 := lt_field (n := 32) h2 t2 (by decide)
  have t0 : (d * 2 ^ 16 + (a * 2 ^ 11 + (i * 2 ^ 0 + 0))) < 2 ^ 21 := lt_field (n := 32) h1 t1 (by decide)
  obtain ⟨wd, hw⟩ : ∃ wd, g.neg.toNat * 2 ^ 31 + g.pred * 2 ^ 27 + 2 * 2 ^ 21 + (d * 2 ^ 16 + (a * 2 ^ 11 + (i * 2 ^ 0 + 0))) = wd := ⟨_, rfl⟩
  change decodeWord .l (g.neg.toNat * 2 ^ 31 + g.pred * 2 ^ 27 + 2 * 2 ^ 21 + (d * 2 ^ 16 + (a * 2 ^ 11 + (i * 2 ^ 0 + 0)))) = _
  rw [hw, decodeWord_op .l g 2 _ wd h0 (by decide) t0 (by decide) hw]
  change decodeL g wd = _
  have em := fld_major g 2 _ wd (by decide) t0 hw
  have f20_16 : fld wd 20 16 = d := (fld_body g 2 _ wd 20 16 (by decide) (by decide) hw).trans (fld_here (n := 32) h1 t1 (by decide))
  have f15_11 : fld wd 15 11 = a := (fld_body g 2 _ wd 15 11 (by decide) (by decide) hw).trans ((fld_below (by decide) (by decide)).trans (fld_here (n := 32) h2 t2 (by decide)))
  have f10_0 : fld wd 10 0 = i := (fld_body g 2 _ wd 10 0 (by decide) (by decide) hw).trans ((fld_below (by decide) (by decide)).trans ((fld_below (by decide) (by decide)).trans (fld_here (n := 2048) h3 (by decide) (by decide))))
  have ha : decodeL g wd = .ok (.ldbu g (fld wd 20 16) (fld wd 15 11) (fld wd 10 0)) := by
    unfold decodeL; rw [em]; rfl
  rw [ha]
  rw [f20_16, f15_11, f10_0]

theorem RoundTrip.ldh (g : Guard) (d : Nat) (a : Nat) (i : Nat) : Statement (.ldh g d a i) := by
  intro h sl hs
  change (decide (g.pred < 12) && decide (d < 32) && decide (a < 32) && decide (i < 2048)) = true at h
  simp only [Bool.and_eq_true, decide_eq_true_eq] at h
  obtain ⟨⟨⟨h0, h1⟩, h2⟩, h3⟩ := h
  obtain rfl : SlotClass.l = sl := Option.some.inj (of_decide_eq_true hs)
  have t2 : (i * 2 ^ 0 + 0) < 2 ^ 11 := lt_field (n := 2048) h3 (by decide) (by decide)
  have t1 : (a * 2 ^ 11 + (i * 2 ^ 0 + 0)) < 2 ^ 16 := lt_field (n := 32) h2 t2 (by decide)
  have t0 : (d * 2 ^ 16 + (a * 2 ^ 11 + (i * 2 ^ 0 + 0))) < 2 ^ 21 := lt_field (n := 32) h1 t1 (by decide)
  obtain ⟨wd, hw⟩ : ∃ wd, g.neg.toNat * 2 ^ 31 + g.pred * 2 ^ 27 + 3 * 2 ^ 21 + (d * 2 ^ 16 + (a * 2 ^ 11 + (i * 2 ^ 0 + 0))) = wd := ⟨_, rfl⟩
  change decodeWord .l (g.neg.toNat * 2 ^ 31 + g.pred * 2 ^ 27 + 3 * 2 ^ 21 + (d * 2 ^ 16 + (a * 2 ^ 11 + (i * 2 ^ 0 + 0)))) = _
  rw [hw, decodeWord_op .l g 3 _ wd h0 (by decide) t0 (by decide) hw]
  change decodeL g wd = _
  have em := fld_major g 3 _ wd (by decide) t0 hw
  have f20_16 : fld wd 20 16 = d := (fld_body g 3 _ wd 20 16 (by decide) (by decide) hw).trans (fld_here (n := 32) h1 t1 (by decide))
  have f15_11 : fld wd 15 11 = a := (fld_body g 3 _ wd 15 11 (by decide) (by decide) hw).trans ((fld_below (by decide) (by decide)).trans (fld_here (n := 32) h2 t2 (by decide)))
  have f10_0 : fld wd 10 0 = i := (fld_body g 3 _ wd 10 0 (by decide) (by decide) hw).trans ((fld_below (by decide) (by decide)).trans ((fld_below (by decide) (by decide)).trans (fld_here (n := 2048) h3 (by decide) (by decide))))
  have ha : decodeL g wd = .ok (.ldh g (fld wd 20 16) (fld wd 15 11) (fld wd 10 0)) := by
    unfold decodeL; rw [em]; rfl
  rw [ha]
  rw [f20_16, f15_11, f10_0]

theorem RoundTrip.ldhu (g : Guard) (d : Nat) (a : Nat) (i : Nat) : Statement (.ldhu g d a i) := by
  intro h sl hs
  change (decide (g.pred < 12) && decide (d < 32) && decide (a < 32) && decide (i < 2048)) = true at h
  simp only [Bool.and_eq_true, decide_eq_true_eq] at h
  obtain ⟨⟨⟨h0, h1⟩, h2⟩, h3⟩ := h
  obtain rfl : SlotClass.l = sl := Option.some.inj (of_decide_eq_true hs)
  have t2 : (i * 2 ^ 0 + 0) < 2 ^ 11 := lt_field (n := 2048) h3 (by decide) (by decide)
  have t1 : (a * 2 ^ 11 + (i * 2 ^ 0 + 0)) < 2 ^ 16 := lt_field (n := 32) h2 t2 (by decide)
  have t0 : (d * 2 ^ 16 + (a * 2 ^ 11 + (i * 2 ^ 0 + 0))) < 2 ^ 21 := lt_field (n := 32) h1 t1 (by decide)
  obtain ⟨wd, hw⟩ : ∃ wd, g.neg.toNat * 2 ^ 31 + g.pred * 2 ^ 27 + 4 * 2 ^ 21 + (d * 2 ^ 16 + (a * 2 ^ 11 + (i * 2 ^ 0 + 0))) = wd := ⟨_, rfl⟩
  change decodeWord .l (g.neg.toNat * 2 ^ 31 + g.pred * 2 ^ 27 + 4 * 2 ^ 21 + (d * 2 ^ 16 + (a * 2 ^ 11 + (i * 2 ^ 0 + 0)))) = _
  rw [hw, decodeWord_op .l g 4 _ wd h0 (by decide) t0 (by decide) hw]
  change decodeL g wd = _
  have em := fld_major g 4 _ wd (by decide) t0 hw
  have f20_16 : fld wd 20 16 = d := (fld_body g 4 _ wd 20 16 (by decide) (by decide) hw).trans (fld_here (n := 32) h1 t1 (by decide))
  have f15_11 : fld wd 15 11 = a := (fld_body g 4 _ wd 15 11 (by decide) (by decide) hw).trans ((fld_below (by decide) (by decide)).trans (fld_here (n := 32) h2 t2 (by decide)))
  have f10_0 : fld wd 10 0 = i := (fld_body g 4 _ wd 10 0 (by decide) (by decide) hw).trans ((fld_below (by decide) (by decide)).trans ((fld_below (by decide) (by decide)).trans (fld_here (n := 2048) h3 (by decide) (by decide))))
  have ha : decodeL g wd = .ok (.ldhu g (fld wd 20 16) (fld wd 15 11) (fld wd 10 0)) := by
    unfold decodeL; rw [em]; rfl
  rw [ha]
  rw [f20_16, f15_11, f10_0]

theorem RoundTrip.ldw (g : Guard) (d : Nat) (a : Nat) (i : Nat) : Statement (.ldw g d a i) := by
  intro h sl hs
  change (decide (g.pred < 12) && decide (d < 32) && decide (a < 32) && decide (i < 2048)) = true at h
  simp only [Bool.and_eq_true, decide_eq_true_eq] at h
  obtain ⟨⟨⟨h0, h1⟩, h2⟩, h3⟩ := h
  obtain rfl : SlotClass.l = sl := Option.some.inj (of_decide_eq_true hs)
  have t2 : (i * 2 ^ 0 + 0) < 2 ^ 11 := lt_field (n := 2048) h3 (by decide) (by decide)
  have t1 : (a * 2 ^ 11 + (i * 2 ^ 0 + 0)) < 2 ^ 16 := lt_field (n := 32) h2 t2 (by decide)
  have t0 : (d * 2 ^ 16 + (a * 2 ^ 11 + (i * 2 ^ 0 + 0))) < 2 ^ 21 := lt_field (n := 32) h1 t1 (by decide)
  obtain ⟨wd, hw⟩ : ∃ wd, g.neg.toNat * 2 ^ 31 + g.pred * 2 ^ 27 + 5 * 2 ^ 21 + (d * 2 ^ 16 + (a * 2 ^ 11 + (i * 2 ^ 0 + 0))) = wd := ⟨_, rfl⟩
  change decodeWord .l (g.neg.toNat * 2 ^ 31 + g.pred * 2 ^ 27 + 5 * 2 ^ 21 + (d * 2 ^ 16 + (a * 2 ^ 11 + (i * 2 ^ 0 + 0)))) = _
  rw [hw, decodeWord_op .l g 5 _ wd h0 (by decide) t0 (by decide) hw]
  change decodeL g wd = _
  have em := fld_major g 5 _ wd (by decide) t0 hw
  have f20_16 : fld wd 20 16 = d := (fld_body g 5 _ wd 20 16 (by decide) (by decide) hw).trans (fld_here (n := 32) h1 t1 (by decide))
  have f15_11 : fld wd 15 11 = a := (fld_body g 5 _ wd 15 11 (by decide) (by decide) hw).trans ((fld_below (by decide) (by decide)).trans (fld_here (n := 32) h2 t2 (by decide)))
  have f10_0 : fld wd 10 0 = i := (fld_body g 5 _ wd 10 0 (by decide) (by decide) hw).trans ((fld_below (by decide) (by decide)).trans ((fld_below (by decide) (by decide)).trans (fld_here (n := 2048) h3 (by decide) (by decide))))
  have ha : decodeL g wd = .ok (.ldw g (fld wd 20 16) (fld wd 15 11) (fld wd 10 0)) := by
    unfold decodeL; rw [em]; rfl
  rw [ha]
  rw [f20_16, f15_11, f10_0]

theorem RoundTrip.ldwu (g : Guard) (d : Nat) (a : Nat) (i : Nat) : Statement (.ldwu g d a i) := by
  intro h sl hs
  change (decide (g.pred < 12) && decide (d < 32) && decide (a < 32) && decide (i < 2048)) = true at h
  simp only [Bool.and_eq_true, decide_eq_true_eq] at h
  obtain ⟨⟨⟨h0, h1⟩, h2⟩, h3⟩ := h
  obtain rfl : SlotClass.l = sl := Option.some.inj (of_decide_eq_true hs)
  have t2 : (i * 2 ^ 0 + 0) < 2 ^ 11 := lt_field (n := 2048) h3 (by decide) (by decide)
  have t1 : (a * 2 ^ 11 + (i * 2 ^ 0 + 0)) < 2 ^ 16 := lt_field (n := 32) h2 t2 (by decide)
  have t0 : (d * 2 ^ 16 + (a * 2 ^ 11 + (i * 2 ^ 0 + 0))) < 2 ^ 21 := lt_field (n := 32) h1 t1 (by decide)
  obtain ⟨wd, hw⟩ : ∃ wd, g.neg.toNat * 2 ^ 31 + g.pred * 2 ^ 27 + 6 * 2 ^ 21 + (d * 2 ^ 16 + (a * 2 ^ 11 + (i * 2 ^ 0 + 0))) = wd := ⟨_, rfl⟩
  change decodeWord .l (g.neg.toNat * 2 ^ 31 + g.pred * 2 ^ 27 + 6 * 2 ^ 21 + (d * 2 ^ 16 + (a * 2 ^ 11 + (i * 2 ^ 0 + 0)))) = _
  rw [hw, decodeWord_op .l g 6 _ wd h0 (by decide) t0 (by decide) hw]
  change decodeL g wd = _
  have em := fld_major g 6 _ wd (by decide) t0 hw
  have f20_16 : fld wd 20 16 = d := (fld_body g 6 _ wd 20 16 (by decide) (by decide) hw).trans (fld_here (n := 32) h1 t1 (by decide))
  have f15_11 : fld wd 15 11 = a := (fld_body g 6 _ wd 15 11 (by decide) (by decide) hw).trans ((fld_below (by decide) (by decide)).trans (fld_here (n := 32) h2 t2 (by decide)))
  have f10_0 : fld wd 10 0 = i := (fld_body g 6 _ wd 10 0 (by decide) (by decide) hw).trans ((fld_below (by decide) (by decide)).trans ((fld_below (by decide) (by decide)).trans (fld_here (n := 2048) h3 (by decide) (by decide))))
  have ha : decodeL g wd = .ok (.ldwu g (fld wd 20 16) (fld wd 15 11) (fld wd 10 0)) := by
    unfold decodeL; rw [em]; rfl
  rw [ha]
  rw [f20_16, f15_11, f10_0]

theorem RoundTrip.ldd (g : Guard) (d : Nat) (a : Nat) (i : Nat) : Statement (.ldd g d a i) := by
  intro h sl hs
  change (decide (g.pred < 12) && decide (d < 32) && decide (a < 32) && decide (i < 2048)) = true at h
  simp only [Bool.and_eq_true, decide_eq_true_eq] at h
  obtain ⟨⟨⟨h0, h1⟩, h2⟩, h3⟩ := h
  obtain rfl : SlotClass.l = sl := Option.some.inj (of_decide_eq_true hs)
  have t2 : (i * 2 ^ 0 + 0) < 2 ^ 11 := lt_field (n := 2048) h3 (by decide) (by decide)
  have t1 : (a * 2 ^ 11 + (i * 2 ^ 0 + 0)) < 2 ^ 16 := lt_field (n := 32) h2 t2 (by decide)
  have t0 : (d * 2 ^ 16 + (a * 2 ^ 11 + (i * 2 ^ 0 + 0))) < 2 ^ 21 := lt_field (n := 32) h1 t1 (by decide)
  obtain ⟨wd, hw⟩ : ∃ wd, g.neg.toNat * 2 ^ 31 + g.pred * 2 ^ 27 + 7 * 2 ^ 21 + (d * 2 ^ 16 + (a * 2 ^ 11 + (i * 2 ^ 0 + 0))) = wd := ⟨_, rfl⟩
  change decodeWord .l (g.neg.toNat * 2 ^ 31 + g.pred * 2 ^ 27 + 7 * 2 ^ 21 + (d * 2 ^ 16 + (a * 2 ^ 11 + (i * 2 ^ 0 + 0)))) = _
  rw [hw, decodeWord_op .l g 7 _ wd h0 (by decide) t0 (by decide) hw]
  change decodeL g wd = _
  have em := fld_major g 7 _ wd (by decide) t0 hw
  have f20_16 : fld wd 20 16 = d := (fld_body g 7 _ wd 20 16 (by decide) (by decide) hw).trans (fld_here (n := 32) h1 t1 (by decide))
  have f15_11 : fld wd 15 11 = a := (fld_body g 7 _ wd 15 11 (by decide) (by decide) hw).trans ((fld_below (by decide) (by decide)).trans (fld_here (n := 32) h2 t2 (by decide)))
  have f10_0 : fld wd 10 0 = i := (fld_body g 7 _ wd 10 0 (by decide) (by decide) hw).trans ((fld_below (by decide) (by decide)).trans ((fld_below (by decide) (by decide)).trans (fld_here (n := 2048) h3 (by decide) (by decide))))
  have ha : decodeL g wd = .ok (.ldd g (fld wd 20 16) (fld wd 15 11) (fld wd 10 0)) := by
    unfold decodeL; rw [em]; rfl
  rw [ha]
  rw [f20_16, f15_11, f10_0]

theorem RoundTrip.stb (g : Guard) (d : Nat) (a : Nat) (i : Nat) : Statement (.stb g d a i) := by
  intro h sl hs
  change (decide (g.pred < 12) && decide (d < 32) && decide (a < 32) && decide (i < 2048)) = true at h
  simp only [Bool.and_eq_true, decide_eq_true_eq] at h
  obtain ⟨⟨⟨h0, h1⟩, h2⟩, h3⟩ := h
  obtain rfl : SlotClass.l = sl := Option.some.inj (of_decide_eq_true hs)
  have t2 : (i * 2 ^ 0 + 0) < 2 ^ 11 := lt_field (n := 2048) h3 (by decide) (by decide)
  have t1 : (a * 2 ^ 11 + (i * 2 ^ 0 + 0)) < 2 ^ 16 := lt_field (n := 32) h2 t2 (by decide)
  have t0 : (d * 2 ^ 16 + (a * 2 ^ 11 + (i * 2 ^ 0 + 0))) < 2 ^ 21 := lt_field (n := 32) h1 t1 (by decide)
  obtain ⟨wd, hw⟩ : ∃ wd, g.neg.toNat * 2 ^ 31 + g.pred * 2 ^ 27 + 8 * 2 ^ 21 + (d * 2 ^ 16 + (a * 2 ^ 11 + (i * 2 ^ 0 + 0))) = wd := ⟨_, rfl⟩
  change decodeWord .l (g.neg.toNat * 2 ^ 31 + g.pred * 2 ^ 27 + 8 * 2 ^ 21 + (d * 2 ^ 16 + (a * 2 ^ 11 + (i * 2 ^ 0 + 0)))) = _
  rw [hw, decodeWord_op .l g 8 _ wd h0 (by decide) t0 (by decide) hw]
  change decodeL g wd = _
  have em := fld_major g 8 _ wd (by decide) t0 hw
  have f20_16 : fld wd 20 16 = d := (fld_body g 8 _ wd 20 16 (by decide) (by decide) hw).trans (fld_here (n := 32) h1 t1 (by decide))
  have f15_11 : fld wd 15 11 = a := (fld_body g 8 _ wd 15 11 (by decide) (by decide) hw).trans ((fld_below (by decide) (by decide)).trans (fld_here (n := 32) h2 t2 (by decide)))
  have f10_0 : fld wd 10 0 = i := (fld_body g 8 _ wd 10 0 (by decide) (by decide) hw).trans ((fld_below (by decide) (by decide)).trans ((fld_below (by decide) (by decide)).trans (fld_here (n := 2048) h3 (by decide) (by decide))))
  have ha : decodeL g wd = .ok (.stb g (fld wd 20 16) (fld wd 15 11) (fld wd 10 0)) := by
    unfold decodeL; rw [em]; rfl
  rw [ha]
  rw [f20_16, f15_11, f10_0]

theorem RoundTrip.sth (g : Guard) (d : Nat) (a : Nat) (i : Nat) : Statement (.sth g d a i) := by
  intro h sl hs
  change (decide (g.pred < 12) && decide (d < 32) && decide (a < 32) && decide (i < 2048)) = true at h
  simp only [Bool.and_eq_true, decide_eq_true_eq] at h
  obtain ⟨⟨⟨h0, h1⟩, h2⟩, h3⟩ := h
  obtain rfl : SlotClass.l = sl := Option.some.inj (of_decide_eq_true hs)
  have t2 : (i * 2 ^ 0 + 0) < 2 ^ 11 := lt_field (n := 2048) h3 (by decide) (by decide)
  have t1 : (a * 2 ^ 11 + (i * 2 ^ 0 + 0)) < 2 ^ 16 := lt_field (n := 32) h2 t2 (by decide)
  have t0 : (d * 2 ^ 16 + (a * 2 ^ 11 + (i * 2 ^ 0 + 0))) < 2 ^ 21 := lt_field (n := 32) h1 t1 (by decide)
  obtain ⟨wd, hw⟩ : ∃ wd, g.neg.toNat * 2 ^ 31 + g.pred * 2 ^ 27 + 9 * 2 ^ 21 + (d * 2 ^ 16 + (a * 2 ^ 11 + (i * 2 ^ 0 + 0))) = wd := ⟨_, rfl⟩
  change decodeWord .l (g.neg.toNat * 2 ^ 31 + g.pred * 2 ^ 27 + 9 * 2 ^ 21 + (d * 2 ^ 16 + (a * 2 ^ 11 + (i * 2 ^ 0 + 0)))) = _
  rw [hw, decodeWord_op .l g 9 _ wd h0 (by decide) t0 (by decide) hw]
  change decodeL g wd = _
  have em := fld_major g 9 _ wd (by decide) t0 hw
  have f20_16 : fld wd 20 16 = d := (fld_body g 9 _ wd 20 16 (by decide) (by decide) hw).trans (fld_here (n := 32) h1 t1 (by decide))
  have f15_11 : fld wd 15 11 = a := (fld_body g 9 _ wd 15 11 (by decide) (by decide) hw).trans ((fld_below (by decide) (by decide)).trans (fld_here (n := 32) h2 t2 (by decide)))
  have f10_0 : fld wd 10 0 = i := (fld_body g 9 _ wd 10 0 (by decide) (by decide) hw).trans ((fld_below (by decide) (by decide)).trans ((fld_below (by decide) (by decide)).trans (fld_here (n := 2048) h3 (by decide) (by decide))))
  have ha : decodeL g wd = .ok (.sth g (fld wd 20 16) (fld wd 15 11) (fld wd 10 0)) := by
    unfold decodeL; rw [em]; rfl
  rw [ha]
  rw [f20_16, f15_11, f10_0]

theorem RoundTrip.stw (g : Guard) (d : Nat) (a : Nat) (i : Nat) : Statement (.stw g d a i) := by
  intro h sl hs
  change (decide (g.pred < 12) && decide (d < 32) && decide (a < 32) && decide (i < 2048)) = true at h
  simp only [Bool.and_eq_true, decide_eq_true_eq] at h
  obtain ⟨⟨⟨h0, h1⟩, h2⟩, h3⟩ := h
  obtain rfl : SlotClass.l = sl := Option.some.inj (of_decide_eq_true hs)
  have t2 : (i * 2 ^ 0 + 0) < 2 ^ 11 := lt_field (n := 2048) h3 (by decide) (by decide)
  have t1 : (a * 2 ^ 11 + (i * 2 ^ 0 + 0)) < 2 ^ 16 := lt_field (n := 32) h2 t2 (by decide)
  have t0 : (d * 2 ^ 16 + (a * 2 ^ 11 + (i * 2 ^ 0 + 0))) < 2 ^ 21 := lt_field (n := 32) h1 t1 (by decide)
  obtain ⟨wd, hw⟩ : ∃ wd, g.neg.toNat * 2 ^ 31 + g.pred * 2 ^ 27 + 10 * 2 ^ 21 + (d * 2 ^ 16 + (a * 2 ^ 11 + (i * 2 ^ 0 + 0))) = wd := ⟨_, rfl⟩
  change decodeWord .l (g.neg.toNat * 2 ^ 31 + g.pred * 2 ^ 27 + 10 * 2 ^ 21 + (d * 2 ^ 16 + (a * 2 ^ 11 + (i * 2 ^ 0 + 0)))) = _
  rw [hw, decodeWord_op .l g 10 _ wd h0 (by decide) t0 (by decide) hw]
  change decodeL g wd = _
  have em := fld_major g 10 _ wd (by decide) t0 hw
  have f20_16 : fld wd 20 16 = d := (fld_body g 10 _ wd 20 16 (by decide) (by decide) hw).trans (fld_here (n := 32) h1 t1 (by decide))
  have f15_11 : fld wd 15 11 = a := (fld_body g 10 _ wd 15 11 (by decide) (by decide) hw).trans ((fld_below (by decide) (by decide)).trans (fld_here (n := 32) h2 t2 (by decide)))
  have f10_0 : fld wd 10 0 = i := (fld_body g 10 _ wd 10 0 (by decide) (by decide) hw).trans ((fld_below (by decide) (by decide)).trans ((fld_below (by decide) (by decide)).trans (fld_here (n := 2048) h3 (by decide) (by decide))))
  have ha : decodeL g wd = .ok (.stw g (fld wd 20 16) (fld wd 15 11) (fld wd 10 0)) := by
    unfold decodeL; rw [em]; rfl
  rw [ha]
  rw [f20_16, f15_11, f10_0]

theorem RoundTrip.std (g : Guard) (d : Nat) (a : Nat) (i : Nat) : Statement (.std g d a i) := by
  intro h sl hs
  change (decide (g.pred < 12) && decide (d < 32) && decide (a < 32) && decide (i < 2048)) = true at h
  simp only [Bool.and_eq_true, decide_eq_true_eq] at h
  obtain ⟨⟨⟨h0, h1⟩, h2⟩, h3⟩ := h
  obtain rfl : SlotClass.l = sl := Option.some.inj (of_decide_eq_true hs)
  have t2 : (i * 2 ^ 0 + 0) < 2 ^ 11 := lt_field (n := 2048) h3 (by decide) (by decide)
  have t1 : (a * 2 ^ 11 + (i * 2 ^ 0 + 0)) < 2 ^ 16 := lt_field (n := 32) h2 t2 (by decide)
  have t0 : (d * 2 ^ 16 + (a * 2 ^ 11 + (i * 2 ^ 0 + 0))) < 2 ^ 21 := lt_field (n := 32) h1 t1 (by decide)
  obtain ⟨wd, hw⟩ : ∃ wd, g.neg.toNat * 2 ^ 31 + g.pred * 2 ^ 27 + 11 * 2 ^ 21 + (d * 2 ^ 16 + (a * 2 ^ 11 + (i * 2 ^ 0 + 0))) = wd := ⟨_, rfl⟩
  change decodeWord .l (g.neg.toNat * 2 ^ 31 + g.pred * 2 ^ 27 + 11 * 2 ^ 21 + (d * 2 ^ 16 + (a * 2 ^ 11 + (i * 2 ^ 0 + 0)))) = _
  rw [hw, decodeWord_op .l g 11 _ wd h0 (by decide) t0 (by decide) hw]
  change decodeL g wd = _
  have em := fld_major g 11 _ wd (by decide) t0 hw
  have f20_16 : fld wd 20 16 = d := (fld_body g 11 _ wd 20 16 (by decide) (by decide) hw).trans (fld_here (n := 32) h1 t1 (by decide))
  have f15_11 : fld wd 15 11 = a := (fld_body g 11 _ wd 15 11 (by decide) (by decide) hw).trans ((fld_below (by decide) (by decide)).trans (fld_here (n := 32) h2 t2 (by decide)))
  have f10_0 : fld wd 10 0 = i := (fld_body g 11 _ wd 10 0 (by decide) (by decide) hw).trans ((fld_below (by decide) (by decide)).trans ((fld_below (by decide) (by decide)).trans (fld_here (n := 2048) h3 (by decide) (by decide))))
  have ha : decodeL g wd = .ok (.std g (fld wd 20 16) (fld wd 15 11) (fld wd 10 0)) := by
    unfold decodeL; rw [em]; rfl
  rw [ha]
  rw [f20_16, f15_11, f10_0]

theorem RoundTrip.vld (g : Guard) (d : Nat) (a : Nat) (i : Nat) : Statement (.vld g d a i) := by
  intro h sl hs
  change (decide (g.pred < 12) && decide (d < 32) && decide (a < 32) && decide (i < 2048)) = true at h
  simp only [Bool.and_eq_true, decide_eq_true_eq] at h
  obtain ⟨⟨⟨h0, h1⟩, h2⟩, h3⟩ := h
  obtain rfl : SlotClass.l = sl := Option.some.inj (of_decide_eq_true hs)
  have t2 : (i * 2 ^ 0 + 0) < 2 ^ 11 := lt_field (n := 2048) h3 (by decide) (by decide)
  have t1 : (a * 2 ^ 11 + (i * 2 ^ 0 + 0)) < 2 ^ 16 := lt_field (n := 32) h2 t2 (by decide)
  have t0 : (d * 2 ^ 16 + (a * 2 ^ 11 + (i * 2 ^ 0 + 0))) < 2 ^ 21 := lt_field (n := 32) h1 t1 (by decide)
  obtain ⟨wd, hw⟩ : ∃ wd, g.neg.toNat * 2 ^ 31 + g.pred * 2 ^ 27 + 12 * 2 ^ 21 + (d * 2 ^ 16 + (a * 2 ^ 11 + (i * 2 ^ 0 + 0))) = wd := ⟨_, rfl⟩
  change decodeWord .l (g.neg.toNat * 2 ^ 31 + g.pred * 2 ^ 27 + 12 * 2 ^ 21 + (d * 2 ^ 16 + (a * 2 ^ 11 + (i * 2 ^ 0 + 0)))) = _
  rw [hw, decodeWord_op .l g 12 _ wd h0 (by decide) t0 (by decide) hw]
  change decodeL g wd = _
  have em := fld_major g 12 _ wd (by decide) t0 hw
  have f20_16 : fld wd 20 16 = d := (fld_body g 12 _ wd 20 16 (by decide) (by decide) hw).trans (fld_here (n := 32) h1 t1 (by decide))
  have f15_11 : fld wd 15 11 = a := (fld_body g 12 _ wd 15 11 (by decide) (by decide) hw).trans ((fld_below (by decide) (by decide)).trans (fld_here (n := 32) h2 t2 (by decide)))
  have f10_0 : fld wd 10 0 = i := (fld_body g 12 _ wd 10 0 (by decide) (by decide) hw).trans ((fld_below (by decide) (by decide)).trans ((fld_below (by decide) (by decide)).trans (fld_here (n := 2048) h3 (by decide) (by decide))))
  have ha : decodeL g wd = .ok (.vld g (fld wd 20 16) (fld wd 15 11) (fld wd 10 0)) := by
    unfold decodeL; rw [em]; rfl
  rw [ha]
  rw [f20_16, f15_11, f10_0]

theorem RoundTrip.vst (g : Guard) (d : Nat) (a : Nat) (i : Nat) : Statement (.vst g d a i) := by
  intro h sl hs
  change (decide (g.pred < 12) && decide (d < 32) && decide (a < 32) && decide (i < 2048)) = true at h
  simp only [Bool.and_eq_true, decide_eq_true_eq] at h
  obtain ⟨⟨⟨h0, h1⟩, h2⟩, h3⟩ := h
  obtain rfl : SlotClass.l = sl := Option.some.inj (of_decide_eq_true hs)
  have t2 : (i * 2 ^ 0 + 0) < 2 ^ 11 := lt_field (n := 2048) h3 (by decide) (by decide)
  have t1 : (a * 2 ^ 11 + (i * 2 ^ 0 + 0)) < 2 ^ 16 := lt_field (n := 32) h2 t2 (by decide)
  have t0 : (d * 2 ^ 16 + (a * 2 ^ 11 + (i * 2 ^ 0 + 0))) < 2 ^ 21 := lt_field (n := 32) h1 t1 (by decide)
  obtain ⟨wd, hw⟩ : ∃ wd, g.neg.toNat * 2 ^ 31 + g.pred * 2 ^ 27 + 13 * 2 ^ 21 + (d * 2 ^ 16 + (a * 2 ^ 11 + (i * 2 ^ 0 + 0))) = wd := ⟨_, rfl⟩
  change decodeWord .l (g.neg.toNat * 2 ^ 31 + g.pred * 2 ^ 27 + 13 * 2 ^ 21 + (d * 2 ^ 16 + (a * 2 ^ 11 + (i * 2 ^ 0 + 0)))) = _
  rw [hw, decodeWord_op .l g 13 _ wd h0 (by decide) t0 (by decide) hw]
  change decodeL g wd = _
  have em := fld_major g 13 _ wd (by decide) t0 hw
  have f20_16 : fld wd 20 16 = d := (fld_body g 13 _ wd 20 16 (by decide) (by decide) hw).trans (fld_here (n := 32) h1 t1 (by decide))
  have f15_11 : fld wd 15 11 = a := (fld_body g 13 _ wd 15 11 (by decide) (by decide) hw).trans ((fld_below (by decide) (by decide)).trans (fld_here (n := 32) h2 t2 (by decide)))
  have f10_0 : fld wd 10 0 = i := (fld_body g 13 _ wd 10 0 (by decide) (by decide) hw).trans ((fld_below (by decide) (by decide)).trans ((fld_below (by decide) (by decide)).trans (fld_here (n := 2048) h3 (by decide) (by decide))))
  have ha : decodeL g wd = .ok (.vst g (fld wd 20 16) (fld wd 15 11) (fld wd 10 0)) := by
    unfold decodeL; rw [em]; rfl
  rw [ha]
  rw [f20_16, f15_11, f10_0]

theorem RoundTrip.vldr (g : Guard) (d : Nat) (a : Nat) (r : Nat) (i : Nat) : Statement (.vldr g d a r i) := by
  intro h sl hs
  change (decide (g.pred < 12) && decide (d < 32) && decide (a < 32) && decide (r < 16) && decide (i < 128)) = true at h
  simp only [Bool.and_eq_true, decide_eq_true_eq] at h
  obtain ⟨⟨⟨⟨h0, h1⟩, h2⟩, h3⟩, h4⟩ := h
  obtain rfl : SlotClass.l = sl := Option.some.inj (of_decide_eq_true hs)
  have t3 : (i * 2 ^ 0 + 0) < 2 ^ 7 := lt_field (n := 128) h4 (by decide) (by decide)
  have t2 : (r * 2 ^ 7 + (i * 2 ^ 0 + 0)) < 2 ^ 11 := lt_field (n := 16) h3 t3 (by decide)
  have t1 : (a * 2 ^ 11 + (r * 2 ^ 7 + (i * 2 ^ 0 + 0))) < 2 ^ 16 := lt_field (n := 32) h2 t2 (by decide)
  have t0 : (d * 2 ^ 16 + (a * 2 ^ 11 + (r * 2 ^ 7 + (i * 2 ^ 0 + 0)))) < 2 ^ 21 := lt_field (n := 32) h1 t1 (by decide)
  obtain ⟨wd, hw⟩ : ∃ wd, g.neg.toNat * 2 ^ 31 + g.pred * 2 ^ 27 + 14 * 2 ^ 21 + (d * 2 ^ 16 + (a * 2 ^ 11 + (r * 2 ^ 7 + (i * 2 ^ 0 + 0)))) = wd := ⟨_, rfl⟩
  change decodeWord .l (g.neg.toNat * 2 ^ 31 + g.pred * 2 ^ 27 + 14 * 2 ^ 21 + (d * 2 ^ 16 + (a * 2 ^ 11 + (r * 2 ^ 7 + (i * 2 ^ 0 + 0))))) = _
  rw [hw, decodeWord_op .l g 14 _ wd h0 (by decide) t0 (by decide) hw]
  change decodeL g wd = _
  have em := fld_major g 14 _ wd (by decide) t0 hw
  have f20_16 : fld wd 20 16 = d := (fld_body g 14 _ wd 20 16 (by decide) (by decide) hw).trans (fld_here (n := 32) h1 t1 (by decide))
  have f15_11 : fld wd 15 11 = a := (fld_body g 14 _ wd 15 11 (by decide) (by decide) hw).trans ((fld_below (by decide) (by decide)).trans (fld_here (n := 32) h2 t2 (by decide)))
  have f10_7 : fld wd 10 7 = r := (fld_body g 14 _ wd 10 7 (by decide) (by decide) hw).trans ((fld_below (by decide) (by decide)).trans ((fld_below (by decide) (by decide)).trans (fld_here (n := 16) h3 t3 (by decide))))
  have f6_0 : fld wd 6 0 = i := (fld_body g 14 _ wd 6 0 (by decide) (by decide) hw).trans ((fld_below (by decide) (by decide)).trans ((fld_below (by decide) (by decide)).trans ((fld_below (by decide) (by decide)).trans (fld_here (n := 128) h4 (by decide) (by decide)))))
  have ha : decodeL g wd = .ok (.vldr g (fld wd 20 16) (fld wd 15 11) (fld wd 10 7) (fld wd 6 0)) := by
    unfold decodeL; rw [em]; rfl
  rw [ha]
  rw [f20_16, f15_11, f10_7, f6_0]

theorem RoundTrip.vstr (g : Guard) (d : Nat) (a : Nat) (r : Nat) (i : Nat) : Statement (.vstr g d a r i) := by
  intro h sl hs
  change (decide (g.pred < 12) && decide (d < 32) && decide (a < 32) && decide (r < 16) && decide (i < 128)) = true at h
  simp only [Bool.and_eq_true, decide_eq_true_eq] at h
  obtain ⟨⟨⟨⟨h0, h1⟩, h2⟩, h3⟩, h4⟩ := h
  obtain rfl : SlotClass.l = sl := Option.some.inj (of_decide_eq_true hs)
  have t3 : (i * 2 ^ 0 + 0) < 2 ^ 7 := lt_field (n := 128) h4 (by decide) (by decide)
  have t2 : (r * 2 ^ 7 + (i * 2 ^ 0 + 0)) < 2 ^ 11 := lt_field (n := 16) h3 t3 (by decide)
  have t1 : (a * 2 ^ 11 + (r * 2 ^ 7 + (i * 2 ^ 0 + 0))) < 2 ^ 16 := lt_field (n := 32) h2 t2 (by decide)
  have t0 : (d * 2 ^ 16 + (a * 2 ^ 11 + (r * 2 ^ 7 + (i * 2 ^ 0 + 0)))) < 2 ^ 21 := lt_field (n := 32) h1 t1 (by decide)
  obtain ⟨wd, hw⟩ : ∃ wd, g.neg.toNat * 2 ^ 31 + g.pred * 2 ^ 27 + 15 * 2 ^ 21 + (d * 2 ^ 16 + (a * 2 ^ 11 + (r * 2 ^ 7 + (i * 2 ^ 0 + 0)))) = wd := ⟨_, rfl⟩
  change decodeWord .l (g.neg.toNat * 2 ^ 31 + g.pred * 2 ^ 27 + 15 * 2 ^ 21 + (d * 2 ^ 16 + (a * 2 ^ 11 + (r * 2 ^ 7 + (i * 2 ^ 0 + 0))))) = _
  rw [hw, decodeWord_op .l g 15 _ wd h0 (by decide) t0 (by decide) hw]
  change decodeL g wd = _
  have em := fld_major g 15 _ wd (by decide) t0 hw
  have f20_16 : fld wd 20 16 = d := (fld_body g 15 _ wd 20 16 (by decide) (by decide) hw).trans (fld_here (n := 32) h1 t1 (by decide))
  have f15_11 : fld wd 15 11 = a := (fld_body g 15 _ wd 15 11 (by decide) (by decide) hw).trans ((fld_below (by decide) (by decide)).trans (fld_here (n := 32) h2 t2 (by decide)))
  have f10_7 : fld wd 10 7 = r := (fld_body g 15 _ wd 10 7 (by decide) (by decide) hw).trans ((fld_below (by decide) (by decide)).trans ((fld_below (by decide) (by decide)).trans (fld_here (n := 16) h3 t3 (by decide))))
  have f6_0 : fld wd 6 0 = i := (fld_body g 15 _ wd 6 0 (by decide) (by decide) hw).trans ((fld_below (by decide) (by decide)).trans ((fld_below (by decide) (by decide)).trans ((fld_below (by decide) (by decide)).trans (fld_here (n := 128) h4 (by decide) (by decide)))))
  have ha : decodeL g wd = .ok (.vstr g (fld wd 20 16) (fld wd 15 11) (fld wd 10 7) (fld wd 6 0)) := by
    unfold decodeL; rw [em]; rfl
  rw [ha]
  rw [f20_16, f15_11, f10_7, f6_0]

theorem RoundTrip.vlds (g : Guard) (d : Nat) (a : Nat) (b : Nat) : Statement (.vlds g d a b) := by
  intro h sl hs
  change (decide (g.pred < 12) && decide (d < 32) && decide (a < 32) && decide (b < 32)) = true at h
  simp only [Bool.and_eq_true, decide_eq_true_eq] at h
  obtain ⟨⟨⟨h0, h1⟩, h2⟩, h3⟩ := h
  obtain rfl : SlotClass.l = sl := Option.some.inj (of_decide_eq_true hs)
  have t2 : (b * 2 ^ 6 + 0) < 2 ^ 11 := lt_field (n := 32) h3 (by decide) (by decide)
  have t1 : (a * 2 ^ 11 + (b * 2 ^ 6 + 0)) < 2 ^ 16 := lt_field (n := 32) h2 t2 (by decide)
  have t0 : (d * 2 ^ 16 + (a * 2 ^ 11 + (b * 2 ^ 6 + 0))) < 2 ^ 21 := lt_field (n := 32) h1 t1 (by decide)
  obtain ⟨wd, hw⟩ : ∃ wd, g.neg.toNat * 2 ^ 31 + g.pred * 2 ^ 27 + 16 * 2 ^ 21 + (d * 2 ^ 16 + (a * 2 ^ 11 + (b * 2 ^ 6 + 0))) = wd := ⟨_, rfl⟩
  change decodeWord .l (g.neg.toNat * 2 ^ 31 + g.pred * 2 ^ 27 + 16 * 2 ^ 21 + (d * 2 ^ 16 + (a * 2 ^ 11 + (b * 2 ^ 6 + 0)))) = _
  rw [hw, decodeWord_op .l g 16 _ wd h0 (by decide) t0 (by decide) hw]
  change decodeL g wd = _
  have em := fld_major g 16 _ wd (by decide) t0 hw
  have f5_0 : fld wd 5 0 = 0 := (fld_body g 16 _ wd 5 0 (by decide) (by decide) hw).trans ((fld_below (by decide) (by decide)).trans ((fld_below (by decide) (by decide)).trans ((fld_below (by decide) (by decide)).trans (by decide))))
  have f20_16 : fld wd 20 16 = d := (fld_body g 16 _ wd 20 16 (by decide) (by decide) hw).trans (fld_here (n := 32) h1 t1 (by decide))
  have f15_11 : fld wd 15 11 = a := (fld_body g 16 _ wd 15 11 (by decide) (by decide) hw).trans ((fld_below (by decide) (by decide)).trans (fld_here (n := 32) h2 t2 (by decide)))
  have f10_6 : fld wd 10 6 = b := (fld_body g 16 _ wd 10 6 (by decide) (by decide) hw).trans ((fld_below (by decide) (by decide)).trans ((fld_below (by decide) (by decide)).trans (fld_here (n := 32) h3 (by decide) (by decide))))
  have ha : decodeL g wd = need (fld wd 5 0 = 0) (.ok (.vlds g (fld wd 20 16) (fld wd 15 11) (fld wd 10 6))) := by
    unfold decodeL; rw [em]; rfl
  rw [ha]
  simp only [need, f5_0, f20_16, f15_11, f10_6, if_true]

theorem RoundTrip.vsts (g : Guard) (d : Nat) (a : Nat) (b : Nat) : Statement (.vsts g d a b) := by
  intro h sl hs
  change (decide (g.pred < 12) && decide (d < 32) && decide (a < 32) && decide (b < 32)) = true at h
  simp only [Bool.and_eq_true, decide_eq_true_eq] at h
  obtain ⟨⟨⟨h0, h1⟩, h2⟩, h3⟩ := h
  obtain rfl : SlotClass.l = sl := Option.some.inj (of_decide_eq_true hs)
  have t2 : (b * 2 ^ 6 + 0) < 2 ^ 11 := lt_field (n := 32) h3 (by decide) (by decide)
  have t1 : (a * 2 ^ 11 + (b * 2 ^ 6 + 0)) < 2 ^ 16 := lt_field (n := 32) h2 t2 (by decide)
  have t0 : (d * 2 ^ 16 + (a * 2 ^ 11 + (b * 2 ^ 6 + 0))) < 2 ^ 21 := lt_field (n := 32) h1 t1 (by decide)
  obtain ⟨wd, hw⟩ : ∃ wd, g.neg.toNat * 2 ^ 31 + g.pred * 2 ^ 27 + 17 * 2 ^ 21 + (d * 2 ^ 16 + (a * 2 ^ 11 + (b * 2 ^ 6 + 0))) = wd := ⟨_, rfl⟩
  change decodeWord .l (g.neg.toNat * 2 ^ 31 + g.pred * 2 ^ 27 + 17 * 2 ^ 21 + (d * 2 ^ 16 + (a * 2 ^ 11 + (b * 2 ^ 6 + 0)))) = _
  rw [hw, decodeWord_op .l g 17 _ wd h0 (by decide) t0 (by decide) hw]
  change decodeL g wd = _
  have em := fld_major g 17 _ wd (by decide) t0 hw
  have f5_0 : fld wd 5 0 = 0 := (fld_body g 17 _ wd 5 0 (by decide) (by decide) hw).trans ((fld_below (by decide) (by decide)).trans ((fld_below (by decide) (by decide)).trans ((fld_below (by decide) (by decide)).trans (by decide))))
  have f20_16 : fld wd 20 16 = d := (fld_body g 17 _ wd 20 16 (by decide) (by decide) hw).trans (fld_here (n := 32) h1 t1 (by decide))
  have f15_11 : fld wd 15 11 = a := (fld_body g 17 _ wd 15 11 (by decide) (by decide) hw).trans ((fld_below (by decide) (by decide)).trans (fld_here (n := 32) h2 t2 (by decide)))
  have f10_6 : fld wd 10 6 = b := (fld_body g 17 _ wd 10 6 (by decide) (by decide) hw).trans ((fld_below (by decide) (by decide)).trans ((fld_below (by decide) (by decide)).trans (fld_here (n := 32) h3 (by decide) (by decide))))
  have ha : decodeL g wd = need (fld wd 5 0 = 0) (.ok (.vsts g (fld wd 20 16) (fld wd 15 11) (fld wd 10 6))) := by
    unfold decodeL; rw [em]; rfl
  rw [ha]
  simp only [need, f5_0, f20_16, f15_11, f10_6, if_true]

theorem RoundTrip.vldf6 (g : Guard) (d : Nat) (a : Nat) (i : Nat) : Statement (.vldf6 g d a i) := by
  intro h sl hs
  change (decide (g.pred < 12) && decide (d < 32) && decide (a < 32) && decide (i < 2048)) = true at h
  simp only [Bool.and_eq_true, decide_eq_true_eq] at h
  obtain ⟨⟨⟨h0, h1⟩, h2⟩, h3⟩ := h
  obtain rfl : SlotClass.l = sl := Option.some.inj (of_decide_eq_true hs)
  have t2 : (i * 2 ^ 0 + 0) < 2 ^ 11 := lt_field (n := 2048) h3 (by decide) (by decide)
  have t1 : (a * 2 ^ 11 + (i * 2 ^ 0 + 0)) < 2 ^ 16 := lt_field (n := 32) h2 t2 (by decide)
  have t0 : (d * 2 ^ 16 + (a * 2 ^ 11 + (i * 2 ^ 0 + 0))) < 2 ^ 21 := lt_field (n := 32) h1 t1 (by decide)
  obtain ⟨wd, hw⟩ : ∃ wd, g.neg.toNat * 2 ^ 31 + g.pred * 2 ^ 27 + 18 * 2 ^ 21 + (d * 2 ^ 16 + (a * 2 ^ 11 + (i * 2 ^ 0 + 0))) = wd := ⟨_, rfl⟩
  change decodeWord .l (g.neg.toNat * 2 ^ 31 + g.pred * 2 ^ 27 + 18 * 2 ^ 21 + (d * 2 ^ 16 + (a * 2 ^ 11 + (i * 2 ^ 0 + 0)))) = _
  rw [hw, decodeWord_op .l g 18 _ wd h0 (by decide) t0 (by decide) hw]
  change decodeL g wd = _
  have em := fld_major g 18 _ wd (by decide) t0 hw
  have f20_16 : fld wd 20 16 = d := (fld_body g 18 _ wd 20 16 (by decide) (by decide) hw).trans (fld_here (n := 32) h1 t1 (by decide))
  have f15_11 : fld wd 15 11 = a := (fld_body g 18 _ wd 15 11 (by decide) (by decide) hw).trans ((fld_below (by decide) (by decide)).trans (fld_here (n := 32) h2 t2 (by decide)))
  have f10_0 : fld wd 10 0 = i := (fld_body g 18 _ wd 10 0 (by decide) (by decide) hw).trans ((fld_below (by decide) (by decide)).trans ((fld_below (by decide) (by decide)).trans (fld_here (n := 2048) h3 (by decide) (by decide))))
  have ha : decodeL g wd = .ok (.vldf6 g (fld wd 20 16) (fld wd 15 11) (fld wd 10 0)) := by
    unfold decodeL; rw [em]; rfl
  rw [ha]
  rw [f20_16, f15_11, f10_0]

theorem RoundTrip.vstf6 (g : Guard) (d : Nat) (a : Nat) (i : Nat) : Statement (.vstf6 g d a i) := by
  intro h sl hs
  change (decide (g.pred < 12) && decide (d < 32) && decide (a < 32) && decide (i < 2048)) = true at h
  simp only [Bool.and_eq_true, decide_eq_true_eq] at h
  obtain ⟨⟨⟨h0, h1⟩, h2⟩, h3⟩ := h
  obtain rfl : SlotClass.l = sl := Option.some.inj (of_decide_eq_true hs)
  have t2 : (i * 2 ^ 0 + 0) < 2 ^ 11 := lt_field (n := 2048) h3 (by decide) (by decide)
  have t1 : (a * 2 ^ 11 + (i * 2 ^ 0 + 0)) < 2 ^ 16 := lt_field (n := 32) h2 t2 (by decide)
  have t0 : (d * 2 ^ 16 + (a * 2 ^ 11 + (i * 2 ^ 0 + 0))) < 2 ^ 21 := lt_field (n := 32) h1 t1 (by decide)
  obtain ⟨wd, hw⟩ : ∃ wd, g.neg.toNat * 2 ^ 31 + g.pred * 2 ^ 27 + 19 * 2 ^ 21 + (d * 2 ^ 16 + (a * 2 ^ 11 + (i * 2 ^ 0 + 0))) = wd := ⟨_, rfl⟩
  change decodeWord .l (g.neg.toNat * 2 ^ 31 + g.pred * 2 ^ 27 + 19 * 2 ^ 21 + (d * 2 ^ 16 + (a * 2 ^ 11 + (i * 2 ^ 0 + 0)))) = _
  rw [hw, decodeWord_op .l g 19 _ wd h0 (by decide) t0 (by decide) hw]
  change decodeL g wd = _
  have em := fld_major g 19 _ wd (by decide) t0 hw
  have f20_16 : fld wd 20 16 = d := (fld_body g 19 _ wd 20 16 (by decide) (by decide) hw).trans (fld_here (n := 32) h1 t1 (by decide))
  have f15_11 : fld wd 15 11 = a := (fld_body g 19 _ wd 15 11 (by decide) (by decide) hw).trans ((fld_below (by decide) (by decide)).trans (fld_here (n := 32) h2 t2 (by decide)))
  have f10_0 : fld wd 10 0 = i := (fld_body g 19 _ wd 10 0 (by decide) (by decide) hw).trans ((fld_below (by decide) (by decide)).trans ((fld_below (by decide) (by decide)).trans (fld_here (n := 2048) h3 (by decide) (by decide))))
  have ha : decodeL g wd = .ok (.vstf6 g (fld wd 20 16) (fld wd 15 11) (fld wd 10 0)) := by
    unfold decodeL; rw [em]; rfl
  rw [ha]
  rw [f20_16, f15_11, f10_0]

theorem RoundTrip.amoAdd (g : Guard) (d : Nat) (a : Nat) (b : Nat) (w : Bool) : Statement (.amoAdd g d a b w) := by
  intro h sl hs
  change (decide (g.pred < 12) && decide (d < 32) && decide (a < 32) && decide (b < 32)) = true at h
  simp only [Bool.and_eq_true, decide_eq_true_eq] at h
  obtain ⟨⟨⟨h0, h1⟩, h2⟩, h3⟩ := h
  obtain rfl : SlotClass.l = sl := Option.some.inj (of_decide_eq_true hs)
  have t3 : (w.toNat * 2 ^ 4 + 0) < 2 ^ 6 := lt_field (n := 2) (toNat_lt_two w) (by decide) (by decide)
  have t2 : (b * 2 ^ 6 + (w.toNat * 2 ^ 4 + 0)) < 2 ^ 11 := lt_field (n := 32) h3 t3 (by decide)
  have t1 : (a * 2 ^ 11 + (b * 2 ^ 6 + (w.toNat * 2 ^ 4 + 0))) < 2 ^ 16 := lt_field (n := 32) h2 t2 (by decide)
  have t0 : (d * 2 ^ 16 + (a * 2 ^ 11 + (b * 2 ^ 6 + (w.toNat * 2 ^ 4 + 0)))) < 2 ^ 21 := lt_field (n := 32) h1 t1 (by decide)
  obtain ⟨wd, hw⟩ : ∃ wd, g.neg.toNat * 2 ^ 31 + g.pred * 2 ^ 27 + 20 * 2 ^ 21 + (d * 2 ^ 16 + (a * 2 ^ 11 + (b * 2 ^ 6 + (w.toNat * 2 ^ 4 + 0)))) = wd := ⟨_, rfl⟩
  change decodeWord .l (g.neg.toNat * 2 ^ 31 + g.pred * 2 ^ 27 + 20 * 2 ^ 21 + (d * 2 ^ 16 + (a * 2 ^ 11 + (b * 2 ^ 6 + (w.toNat * 2 ^ 4 + 0))))) = _
  rw [hw, decodeWord_op .l g 20 _ wd h0 (by decide) t0 (by decide) hw]
  change decodeL g wd = _
  have em := fld_major g 20 _ wd (by decide) t0 hw
  have f5_5 : fld wd 5 5 = 0 := (fld_body g 20 _ wd 5 5 (by decide) (by decide) hw).trans ((fld_below (by decide) (by decide)).trans ((fld_below (by decide) (by decide)).trans ((fld_below (by decide) (by decide)).trans (fld_above (lt_field (n := 2) (toNat_lt_two w) (by decide) (by decide))))))
  have f20_16 : fld wd 20 16 = d := (fld_body g 20 _ wd 20 16 (by decide) (by decide) hw).trans (fld_here (n := 32) h1 t1 (by decide))
  have f15_11 : fld wd 15 11 = a := (fld_body g 20 _ wd 15 11 (by decide) (by decide) hw).trans ((fld_below (by decide) (by decide)).trans (fld_here (n := 32) h2 t2 (by decide)))
  have f10_6 : fld wd 10 6 = b := (fld_body g 20 _ wd 10 6 (by decide) (by decide) hw).trans ((fld_below (by decide) (by decide)).trans ((fld_below (by decide) (by decide)).trans (fld_here (n := 32) h3 t3 (by decide))))
  have f4_4 : fld wd 4 4 = w.toNat := (fld_body g 20 _ wd 4 4 (by decide) (by decide) hw).trans ((fld_below (by decide) (by decide)).trans ((fld_below (by decide) (by decide)).trans ((fld_below (by decide) (by decide)).trans (fld_here (n := 2) (toNat_lt_two w) (by decide) (by decide)))))
  have f3_0 : fld wd 3 0 = 0 := (fld_body g 20 _ wd 3 0 (by decide) (by decide) hw).trans ((fld_below (by decide) (by decide)).trans ((fld_below (by decide) (by decide)).trans ((fld_below (by decide) (by decide)).trans ((fld_below (by decide) (by decide)).trans (by decide)))))
  have ha : decodeL g wd = need (fld wd 5 5 = 0) (.ok (.amoAdd g (fld wd 20 16) (fld wd 15 11) (fld wd 10 6) (fld wd 4 4 == 1))) := by
    unfold decodeL; rw [em, f3_0]; rfl
  rw [ha]
  simp only [need, f5_5, f20_16, f15_11, f10_6, f4_4, toNat_beq_one, if_true]

theorem RoundTrip.amoSwap (g : Guard) (d : Nat) (a : Nat) (b : Nat) (w : Bool) : Statement (.amoSwap g d a b w) := by
  intro h sl hs
  change (decide (g.pred < 12) && decide (d < 32) && decide (a < 32) && decide (b < 32)) = true at h
  simp only [Bool.and_eq_true, decide_eq_true_eq] at h
  obtain ⟨⟨⟨h0, h1⟩, h2⟩, h3⟩ := h
  obtain rfl : SlotClass.l = sl := Option.some.inj (of_decide_eq_true hs)
  have t4 : (1 * 2 ^ 0 + 0) < 2 ^ 4 := lt_field (n := 2) (Nat.lt_succ_self 1) (by decide) (by decide)
  have t3 : (w.toNat * 2 ^ 4 + (1 * 2 ^ 0 + 0)) < 2 ^ 6 := lt_field (n := 2) (toNat_lt_two w) t4 (by decide)
  have t2 : (b * 2 ^ 6 + (w.toNat * 2 ^ 4 + (1 * 2 ^ 0 + 0))) < 2 ^ 11 := lt_field (n := 32) h3 t3 (by decide)
  have t1 : (a * 2 ^ 11 + (b * 2 ^ 6 + (w.toNat * 2 ^ 4 + (1 * 2 ^ 0 + 0)))) < 2 ^ 16 := lt_field (n := 32) h2 t2 (by decide)
  have t0 : (d * 2 ^ 16 + (a * 2 ^ 11 + (b * 2 ^ 6 + (w.toNat * 2 ^ 4 + (1 * 2 ^ 0 + 0))))) < 2 ^ 21 := lt_field (n := 32) h1 t1 (by decide)
  obtain ⟨wd, hw⟩ : ∃ wd, g.neg.toNat * 2 ^ 31 + g.pred * 2 ^ 27 + 20 * 2 ^ 21 + (d * 2 ^ 16 + (a * 2 ^ 11 + (b * 2 ^ 6 + (w.toNat * 2 ^ 4 + (1 * 2 ^ 0 + 0))))) = wd := ⟨_, rfl⟩
  change decodeWord .l (g.neg.toNat * 2 ^ 31 + g.pred * 2 ^ 27 + 20 * 2 ^ 21 + (d * 2 ^ 16 + (a * 2 ^ 11 + (b * 2 ^ 6 + (w.toNat * 2 ^ 4 + (1 * 2 ^ 0 + 0)))))) = _
  rw [hw, decodeWord_op .l g 20 _ wd h0 (by decide) t0 (by decide) hw]
  change decodeL g wd = _
  have em := fld_major g 20 _ wd (by decide) t0 hw
  have f5_5 : fld wd 5 5 = 0 := (fld_body g 20 _ wd 5 5 (by decide) (by decide) hw).trans ((fld_below (by decide) (by decide)).trans ((fld_below (by decide) (by decide)).trans ((fld_below (by decide) (by decide)).trans (fld_above (lt_field (n := 2) (toNat_lt_two w) t4 (by decide))))))
  have f20_16 : fld wd 20 16 = d := (fld_body g 20 _ wd 20 16 (by decide) (by decide) hw).trans (fld_here (n := 32) h1 t1 (by decide))
  have f15_11 : fld wd 15 11 = a := (fld_body g 20 _ wd 15 11 (by decide) (by decide) hw).trans ((fld_below (by decide) (by decide)).trans (fld_here (n := 32) h2 t2 (by decide)))
  have f10_6 : fld wd 10 6 = b := (fld_body g 20 _ wd 10 6 (by decide) (by decide) hw).trans ((fld_below (by decide) (by decide)).trans ((fld_below (by decide) (by decide)).trans (fld_here (n := 32) h3 t3 (by decide))))
  have f4_4 : fld wd 4 4 = w.toNat := (fld_body g 20 _ wd 4 4 (by decide) (by decide) hw).trans ((fld_below (by decide) (by decide)).trans ((fld_below (by decide) (by decide)).trans ((fld_below (by decide) (by decide)).trans (fld_here (n := 2) (toNat_lt_two w) t4 (by decide)))))
  have f3_0 : fld wd 3 0 = 1 := (fld_body g 20 _ wd 3 0 (by decide) (by decide) hw).trans ((fld_below (by decide) (by decide)).trans ((fld_below (by decide) (by decide)).trans ((fld_below (by decide) (by decide)).trans ((fld_below (by decide) (by decide)).trans (fld_here (n := 2) (Nat.lt_succ_self 1) (by decide) (by decide))))))
  have ha : decodeL g wd = need (fld wd 5 5 = 0) (.ok (.amoSwap g (fld wd 20 16) (fld wd 15 11) (fld wd 10 6) (fld wd 4 4 == 1))) := by
    unfold decodeL; rw [em, f3_0]; rfl
  rw [ha]
  simp only [need, f5_5, f20_16, f15_11, f10_6, f4_4, toNat_beq_one, if_true]

theorem RoundTrip.amoAnd (g : Guard) (d : Nat) (a : Nat) (b : Nat) (w : Bool) : Statement (.amoAnd g d a b w) := by
  intro h sl hs
  change (decide (g.pred < 12) && decide (d < 32) && decide (a < 32) && decide (b < 32)) = true at h
  simp only [Bool.and_eq_true, decide_eq_true_eq] at h
  obtain ⟨⟨⟨h0, h1⟩, h2⟩, h3⟩ := h
  obtain rfl : SlotClass.l = sl := Option.some.inj (of_decide_eq_true hs)
  have t4 : (1 * 2 ^ 1 + 0) < 2 ^ 4 := lt_field (n := 2) (Nat.lt_succ_self 1) (by decide) (by decide)
  have t3 : (w.toNat * 2 ^ 4 + (1 * 2 ^ 1 + 0)) < 2 ^ 6 := lt_field (n := 2) (toNat_lt_two w) t4 (by decide)
  have t2 : (b * 2 ^ 6 + (w.toNat * 2 ^ 4 + (1 * 2 ^ 1 + 0))) < 2 ^ 11 := lt_field (n := 32) h3 t3 (by decide)
  have t1 : (a * 2 ^ 11 + (b * 2 ^ 6 + (w.toNat * 2 ^ 4 + (1 * 2 ^ 1 + 0)))) < 2 ^ 16 := lt_field (n := 32) h2 t2 (by decide)
  have t0 : (d * 2 ^ 16 + (a * 2 ^ 11 + (b * 2 ^ 6 + (w.toNat * 2 ^ 4 + (1 * 2 ^ 1 + 0))))) < 2 ^ 21 := lt_field (n := 32) h1 t1 (by decide)
  obtain ⟨wd, hw⟩ : ∃ wd, g.neg.toNat * 2 ^ 31 + g.pred * 2 ^ 27 + 20 * 2 ^ 21 + (d * 2 ^ 16 + (a * 2 ^ 11 + (b * 2 ^ 6 + (w.toNat * 2 ^ 4 + (1 * 2 ^ 1 + 0))))) = wd := ⟨_, rfl⟩
  change decodeWord .l (g.neg.toNat * 2 ^ 31 + g.pred * 2 ^ 27 + 20 * 2 ^ 21 + (d * 2 ^ 16 + (a * 2 ^ 11 + (b * 2 ^ 6 + (w.toNat * 2 ^ 4 + (1 * 2 ^ 1 + 0)))))) = _
  rw [hw, decodeWord_op .l g 20 _ wd h0 (by decide) t0 (by decide) hw]
  change decodeL g wd = _
  have em := fld_major g 20 _ wd (by decide) t0 hw
  have f5_5 : fld wd 5 5 = 0 := (fld_body g 20 _ wd 5 5 (by decide) (by decide) hw).trans ((fld_below (by decide) (by decide)).trans ((fld_below (by decide) (by decide)).trans ((fld_below (by decide) (by decide)).trans (fld_above (lt_field (n := 2) (toNat_lt_two w) t4 (by decide))))))
  have f20_16 : fld wd 20 16 = d := (fld_body g 20 _ wd 20 16 (by decide) (by decide) hw).trans (fld_here (n := 32) h1 t1 (by decide))
  have f15_11 : fld wd 15 11 = a := (fld_body g 20 _ wd 15 11 (by decide) (by decide) hw).trans ((fld_below (by decide) (by decide)).trans (fld_here (n := 32) h2 t2 (by decide)))
  have f10_6 : fld wd 10 6 = b := (fld_body g 20 _ wd 10 6 (by decide) (by decide) hw).trans ((fld_below (by decide) (by decide)).trans ((fld_below (by decide) (by decide)).trans (fld_here (n := 32) h3 t3 (by decide))))
  have f4_4 : fld wd 4 4 = w.toNat := (fld_body g 20 _ wd 4 4 (by decide) (by decide) hw).trans ((fld_below (by decide) (by decide)).trans ((fld_below (by decide) (by decide)).trans ((fld_below (by decide) (by decide)).trans (fld_here (n := 2) (toNat_lt_two w) t4 (by decide)))))
  have f3_0 : fld wd 3 0 = 2 := (fld_body g 20 _ wd 3 0 (by decide) (by decide) hw).trans ((fld_below (by decide) (by decide)).trans ((fld_below (by decide) (by decide)).trans ((fld_below (by decide) (by decide)).trans ((fld_below (by decide) (by decide)).trans (by decide)))))
  have ha : decodeL g wd = need (fld wd 5 5 = 0) (.ok (.amoAnd g (fld wd 20 16) (fld wd 15 11) (fld wd 10 6) (fld wd 4 4 == 1))) := by
    unfold decodeL; rw [em, f3_0]; rfl
  rw [ha]
  simp only [need, f5_5, f20_16, f15_11, f10_6, f4_4, toNat_beq_one, if_true]

theorem RoundTrip.amoOr (g : Guard) (d : Nat) (a : Nat) (b : Nat) (w : Bool) : Statement (.amoOr g d a b w) := by
  intro h sl hs
  change (decide (g.pred < 12) && decide (d < 32) && decide (a < 32) && decide (b < 32)) = true at h
  simp only [Bool.and_eq_true, decide_eq_true_eq] at h
  obtain ⟨⟨⟨h0, h1⟩, h2⟩, h3⟩ := h
  obtain rfl : SlotClass.l = sl := Option.some.inj (of_decide_eq_true hs)
  have t4 : (3 * 2 ^ 0 + 0) < 2 ^ 4 := lt_field (n := 4) (Nat.lt_succ_self 3) (by decide) (by decide)
  have t3 : (w.toNat * 2 ^ 4 + (3 * 2 ^ 0 + 0)) < 2 ^ 6 := lt_field (n := 2) (toNat_lt_two w) t4 (by decide)
  have t2 : (b * 2 ^ 6 + (w.toNat * 2 ^ 4 + (3 * 2 ^ 0 + 0))) < 2 ^ 11 := lt_field (n := 32) h3 t3 (by decide)
  have t1 : (a * 2 ^ 11 + (b * 2 ^ 6 + (w.toNat * 2 ^ 4 + (3 * 2 ^ 0 + 0)))) < 2 ^ 16 := lt_field (n := 32) h2 t2 (by decide)
  have t0 : (d * 2 ^ 16 + (a * 2 ^ 11 + (b * 2 ^ 6 + (w.toNat * 2 ^ 4 + (3 * 2 ^ 0 + 0))))) < 2 ^ 21 := lt_field (n := 32) h1 t1 (by decide)
  obtain ⟨wd, hw⟩ : ∃ wd, g.neg.toNat * 2 ^ 31 + g.pred * 2 ^ 27 + 20 * 2 ^ 21 + (d * 2 ^ 16 + (a * 2 ^ 11 + (b * 2 ^ 6 + (w.toNat * 2 ^ 4 + (3 * 2 ^ 0 + 0))))) = wd := ⟨_, rfl⟩
  change decodeWord .l (g.neg.toNat * 2 ^ 31 + g.pred * 2 ^ 27 + 20 * 2 ^ 21 + (d * 2 ^ 16 + (a * 2 ^ 11 + (b * 2 ^ 6 + (w.toNat * 2 ^ 4 + (3 * 2 ^ 0 + 0)))))) = _
  rw [hw, decodeWord_op .l g 20 _ wd h0 (by decide) t0 (by decide) hw]
  change decodeL g wd = _
  have em := fld_major g 20 _ wd (by decide) t0 hw
  have f5_5 : fld wd 5 5 = 0 := (fld_body g 20 _ wd 5 5 (by decide) (by decide) hw).trans ((fld_below (by decide) (by decide)).trans ((fld_below (by decide) (by decide)).trans ((fld_below (by decide) (by decide)).trans (fld_above (lt_field (n := 2) (toNat_lt_two w) t4 (by decide))))))
  have f20_16 : fld wd 20 16 = d := (fld_body g 20 _ wd 20 16 (by decide) (by decide) hw).trans (fld_here (n := 32) h1 t1 (by decide))
  have f15_11 : fld wd 15 11 = a := (fld_body g 20 _ wd 15 11 (by decide) (by decide) hw).trans ((fld_below (by decide) (by decide)).trans (fld_here (n := 32) h2 t2 (by decide)))
  have f10_6 : fld wd 10 6 = b := (fld_body g 20 _ wd 10 6 (by decide) (by decide) hw).trans ((fld_below (by decide) (by decide)).trans ((fld_below (by decide) (by decide)).trans (fld_here (n := 32) h3 t3 (by decide))))
  have f4_4 : fld wd 4 4 = w.toNat := (fld_body g 20 _ wd 4 4 (by decide) (by decide) hw).trans ((fld_below (by decide) (by decide)).trans ((fld_below (by decide) (by decide)).trans ((fld_below (by decide) (by decide)).trans (fld_here (n := 2) (toNat_lt_two w) t4 (by decide)))))
  have f3_0 : fld wd 3 0 = 3 := (fld_body g 20 _ wd 3 0 (by decide) (by decide) hw).trans ((fld_below (by decide) (by decide)).trans ((fld_below (by decide) (by decide)).trans ((fld_below (by decide) (by decide)).trans ((fld_below (by decide) (by decide)).trans (fld_here (n := 4) (Nat.lt_succ_self 3) (by decide) (by decide))))))
  have ha : decodeL g wd = need (fld wd 5 5 = 0) (.ok (.amoOr g (fld wd 20 16) (fld wd 15 11) (fld wd 10 6) (fld wd 4 4 == 1))) := by
    unfold decodeL; rw [em, f3_0]; rfl
  rw [ha]
  simp only [need, f5_5, f20_16, f15_11, f10_6, f4_4, toNat_beq_one, if_true]

theorem RoundTrip.amoXor (g : Guard) (d : Nat) (a : Nat) (b : Nat) (w : Bool) : Statement (.amoXor g d a b w) := by
  intro h sl hs
  change (decide (g.pred < 12) && decide (d < 32) && decide (a < 32) && decide (b < 32)) = true at h
  simp only [Bool.and_eq_true, decide_eq_true_eq] at h
  obtain ⟨⟨⟨h0, h1⟩, h2⟩, h3⟩ := h
  obtain rfl : SlotClass.l = sl := Option.some.inj (of_decide_eq_true hs)
  have t4 : (1 * 2 ^ 2 + 0) < 2 ^ 4 := lt_field (n := 2) (Nat.lt_succ_self 1) (by decide) (by decide)
  have t3 : (w.toNat * 2 ^ 4 + (1 * 2 ^ 2 + 0)) < 2 ^ 6 := lt_field (n := 2) (toNat_lt_two w) t4 (by decide)
  have t2 : (b * 2 ^ 6 + (w.toNat * 2 ^ 4 + (1 * 2 ^ 2 + 0))) < 2 ^ 11 := lt_field (n := 32) h3 t3 (by decide)
  have t1 : (a * 2 ^ 11 + (b * 2 ^ 6 + (w.toNat * 2 ^ 4 + (1 * 2 ^ 2 + 0)))) < 2 ^ 16 := lt_field (n := 32) h2 t2 (by decide)
  have t0 : (d * 2 ^ 16 + (a * 2 ^ 11 + (b * 2 ^ 6 + (w.toNat * 2 ^ 4 + (1 * 2 ^ 2 + 0))))) < 2 ^ 21 := lt_field (n := 32) h1 t1 (by decide)
  obtain ⟨wd, hw⟩ : ∃ wd, g.neg.toNat * 2 ^ 31 + g.pred * 2 ^ 27 + 20 * 2 ^ 21 + (d * 2 ^ 16 + (a * 2 ^ 11 + (b * 2 ^ 6 + (w.toNat * 2 ^ 4 + (1 * 2 ^ 2 + 0))))) = wd := ⟨_, rfl⟩
  change decodeWord .l (g.neg.toNat * 2 ^ 31 + g.pred * 2 ^ 27 + 20 * 2 ^ 21 + (d * 2 ^ 16 + (a * 2 ^ 11 + (b * 2 ^ 6 + (w.toNat * 2 ^ 4 + (1 * 2 ^ 2 + 0)))))) = _
  rw [hw, decodeWord_op .l g 20 _ wd h0 (by decide) t0 (by decide) hw]
  change decodeL g wd = _
  have em := fld_major g 20 _ wd (by decide) t0 hw
  have f5_5 : fld wd 5 5 = 0 := (fld_body g 20 _ wd 5 5 (by decide) (by decide) hw).trans ((fld_below (by decide) (by decide)).trans ((fld_below (by decide) (by decide)).trans ((fld_below (by decide) (by decide)).trans (fld_above (lt_field (n := 2) (toNat_lt_two w) t4 (by decide))))))
  have f20_16 : fld wd 20 16 = d := (fld_body g 20 _ wd 20 16 (by decide) (by decide) hw).trans (fld_here (n := 32) h1 t1 (by decide))
  have f15_11 : fld wd 15 11 = a := (fld_body g 20 _ wd 15 11 (by decide) (by decide) hw).trans ((fld_below (by decide) (by decide)).trans (fld_here (n := 32) h2 t2 (by decide)))
  have f10_6 : fld wd 10 6 = b := (fld_body g 20 _ wd 10 6 (by decide) (by decide) hw).trans ((fld_below (by decide) (by decide)).trans ((fld_below (by decide) (by decide)).trans (fld_here (n := 32) h3 t3 (by decide))))
  have f4_4 : fld wd 4 4 = w.toNat := (fld_body g 20 _ wd 4 4 (by decide) (by decide) hw).trans ((fld_below (by decide) (by decide)).trans ((fld_below (by decide) (by decide)).trans ((fld_below (by decide) (by decide)).trans (fld_here (n := 2) (toNat_lt_two w) t4 (by decide)))))
  have f3_0 : fld wd 3 0 = 4 := (fld_body g 20 _ wd 3 0 (by decide) (by decide) hw).trans ((fld_below (by decide) (by decide)).trans ((fld_below (by decide) (by decide)).trans ((fld_below (by decide) (by decide)).trans ((fld_below (by decide) (by decide)).trans (by decide)))))
  have ha : decodeL g wd = need (fld wd 5 5 = 0) (.ok (.amoXor g (fld wd 20 16) (fld wd 15 11) (fld wd 10 6) (fld wd 4 4 == 1))) := by
    unfold decodeL; rw [em, f3_0]; rfl
  rw [ha]
  simp only [need, f5_5, f20_16, f15_11, f10_6, f4_4, toNat_beq_one, if_true]

theorem RoundTrip.amoMin (g : Guard) (d : Nat) (a : Nat) (b : Nat) (w : Bool) : Statement (.amoMin g d a b w) := by
  intro h sl hs
  change (decide (g.pred < 12) && decide (d < 32) && decide (a < 32) && decide (b < 32)) = true at h
  simp only [Bool.and_eq_true, decide_eq_true_eq] at h
  obtain ⟨⟨⟨h0, h1⟩, h2⟩, h3⟩ := h
  obtain rfl : SlotClass.l = sl := Option.some.inj (of_decide_eq_true hs)
  have t4 : (5 * 2 ^ 0 + 0) < 2 ^ 4 := lt_field (n := 6) (Nat.lt_succ_self 5) (by decide) (by decide)
  have t3 : (w.toNat * 2 ^ 4 + (5 * 2 ^ 0 + 0)) < 2 ^ 6 := lt_field (n := 2) (toNat_lt_two w) t4 (by decide)
  have t2 : (b * 2 ^ 6 + (w.toNat * 2 ^ 4 + (5 * 2 ^ 0 + 0))) < 2 ^ 11 := lt_field (n := 32) h3 t3 (by decide)
  have t1 : (a * 2 ^ 11 + (b * 2 ^ 6 + (w.toNat * 2 ^ 4 + (5 * 2 ^ 0 + 0)))) < 2 ^ 16 := lt_field (n := 32) h2 t2 (by decide)
  have t0 : (d * 2 ^ 16 + (a * 2 ^ 11 + (b * 2 ^ 6 + (w.toNat * 2 ^ 4 + (5 * 2 ^ 0 + 0))))) < 2 ^ 21 := lt_field (n := 32) h1 t1 (by decide)
  obtain ⟨wd, hw⟩ : ∃ wd, g.neg.toNat * 2 ^ 31 + g.pred * 2 ^ 27 + 20 * 2 ^ 21 + (d * 2 ^ 16 + (a * 2 ^ 11 + (b * 2 ^ 6 + (w.toNat * 2 ^ 4 + (5 * 2 ^ 0 + 0))))) = wd := ⟨_, rfl⟩
  change decodeWord .l (g.neg.toNat * 2 ^ 31 + g.pred * 2 ^ 27 + 20 * 2 ^ 21 + (d * 2 ^ 16 + (a * 2 ^ 11 + (b * 2 ^ 6 + (w.toNat * 2 ^ 4 + (5 * 2 ^ 0 + 0)))))) = _
  rw [hw, decodeWord_op .l g 20 _ wd h0 (by decide) t0 (by decide) hw]
  change decodeL g wd = _
  have em := fld_major g 20 _ wd (by decide) t0 hw
  have f5_5 : fld wd 5 5 = 0 := (fld_body g 20 _ wd 5 5 (by decide) (by decide) hw).trans ((fld_below (by decide) (by decide)).trans ((fld_below (by decide) (by decide)).trans ((fld_below (by decide) (by decide)).trans (fld_above (lt_field (n := 2) (toNat_lt_two w) t4 (by decide))))))
  have f20_16 : fld wd 20 16 = d := (fld_body g 20 _ wd 20 16 (by decide) (by decide) hw).trans (fld_here (n := 32) h1 t1 (by decide))
  have f15_11 : fld wd 15 11 = a := (fld_body g 20 _ wd 15 11 (by decide) (by decide) hw).trans ((fld_below (by decide) (by decide)).trans (fld_here (n := 32) h2 t2 (by decide)))
  have f10_6 : fld wd 10 6 = b := (fld_body g 20 _ wd 10 6 (by decide) (by decide) hw).trans ((fld_below (by decide) (by decide)).trans ((fld_below (by decide) (by decide)).trans (fld_here (n := 32) h3 t3 (by decide))))
  have f4_4 : fld wd 4 4 = w.toNat := (fld_body g 20 _ wd 4 4 (by decide) (by decide) hw).trans ((fld_below (by decide) (by decide)).trans ((fld_below (by decide) (by decide)).trans ((fld_below (by decide) (by decide)).trans (fld_here (n := 2) (toNat_lt_two w) t4 (by decide)))))
  have f3_0 : fld wd 3 0 = 5 := (fld_body g 20 _ wd 3 0 (by decide) (by decide) hw).trans ((fld_below (by decide) (by decide)).trans ((fld_below (by decide) (by decide)).trans ((fld_below (by decide) (by decide)).trans ((fld_below (by decide) (by decide)).trans (fld_here (n := 6) (Nat.lt_succ_self 5) (by decide) (by decide))))))
  have ha : decodeL g wd = need (fld wd 5 5 = 0) (.ok (.amoMin g (fld wd 20 16) (fld wd 15 11) (fld wd 10 6) (fld wd 4 4 == 1))) := by
    unfold decodeL; rw [em, f3_0]; rfl
  rw [ha]
  simp only [need, f5_5, f20_16, f15_11, f10_6, f4_4, toNat_beq_one, if_true]

theorem RoundTrip.amoMax (g : Guard) (d : Nat) (a : Nat) (b : Nat) (w : Bool) : Statement (.amoMax g d a b w) := by
  intro h sl hs
  change (decide (g.pred < 12) && decide (d < 32) && decide (a < 32) && decide (b < 32)) = true at h
  simp only [Bool.and_eq_true, decide_eq_true_eq] at h
  obtain ⟨⟨⟨h0, h1⟩, h2⟩, h3⟩ := h
  obtain rfl : SlotClass.l = sl := Option.some.inj (of_decide_eq_true hs)
  have t4 : (3 * 2 ^ 1 + 0) < 2 ^ 4 := lt_field (n := 4) (Nat.lt_succ_self 3) (by decide) (by decide)
  have t3 : (w.toNat * 2 ^ 4 + (3 * 2 ^ 1 + 0)) < 2 ^ 6 := lt_field (n := 2) (toNat_lt_two w) t4 (by decide)
  have t2 : (b * 2 ^ 6 + (w.toNat * 2 ^ 4 + (3 * 2 ^ 1 + 0))) < 2 ^ 11 := lt_field (n := 32) h3 t3 (by decide)
  have t1 : (a * 2 ^ 11 + (b * 2 ^ 6 + (w.toNat * 2 ^ 4 + (3 * 2 ^ 1 + 0)))) < 2 ^ 16 := lt_field (n := 32) h2 t2 (by decide)
  have t0 : (d * 2 ^ 16 + (a * 2 ^ 11 + (b * 2 ^ 6 + (w.toNat * 2 ^ 4 + (3 * 2 ^ 1 + 0))))) < 2 ^ 21 := lt_field (n := 32) h1 t1 (by decide)
  obtain ⟨wd, hw⟩ : ∃ wd, g.neg.toNat * 2 ^ 31 + g.pred * 2 ^ 27 + 20 * 2 ^ 21 + (d * 2 ^ 16 + (a * 2 ^ 11 + (b * 2 ^ 6 + (w.toNat * 2 ^ 4 + (3 * 2 ^ 1 + 0))))) = wd := ⟨_, rfl⟩
  change decodeWord .l (g.neg.toNat * 2 ^ 31 + g.pred * 2 ^ 27 + 20 * 2 ^ 21 + (d * 2 ^ 16 + (a * 2 ^ 11 + (b * 2 ^ 6 + (w.toNat * 2 ^ 4 + (3 * 2 ^ 1 + 0)))))) = _
  rw [hw, decodeWord_op .l g 20 _ wd h0 (by decide) t0 (by decide) hw]
  change decodeL g wd = _
  have em := fld_major g 20 _ wd (by decide) t0 hw
  have f5_5 : fld wd 5 5 = 0 := (fld_body g 20 _ wd 5 5 (by decide) (by decide) hw).trans ((fld_below (by decide) (by decide)).trans ((fld_below (by decide) (by decide)).trans ((fld_below (by decide) (by decide)).trans (fld_above (lt_field (n := 2) (toNat_lt_two w) t4 (by decide))))))
  have f20_16 : fld wd 20 16 = d := (fld_body g 20 _ wd 20 16 (by decide) (by decide) hw).trans (fld_here (n := 32) h1 t1 (by decide))
  have f15_11 : fld wd 15 11 = a := (fld_body g 20 _ wd 15 11 (by decide) (by decide) hw).trans ((fld_below (by decide) (by decide)).trans (fld_here (n := 32) h2 t2 (by decide)))
  have f10_6 : fld wd 10 6 = b := (fld_body g 20 _ wd 10 6 (by decide) (by decide) hw).trans ((fld_below (by decide) (by decide)).trans ((fld_below (by decide) (by decide)).trans (fld_here (n := 32) h3 t3 (by decide))))
  have f4_4 : fld wd 4 4 = w.toNat := (fld_body g 20 _ wd 4 4 (by decide) (by decide) hw).trans ((fld_below (by decide) (by decide)).trans ((fld_below (by decide) (by decide)).trans ((fld_below (by decide) (by decide)).trans (fld_here (n := 2) (toNat_lt_two w) t4 (by decide)))))
  have f3_0 : fld wd 3 0 = 6 := (fld_body g 20 _ wd 3 0 (by decide) (by decide) hw).trans ((fld_below (by decide) (by decide)).trans ((fld_below (by decide) (by decide)).trans ((fld_below (by decide) (by decide)).trans ((fld_below (by decide) (by decide)).trans (by decide)))))
  have ha : decodeL g wd = need (fld wd 5 5 = 0) (.ok (.amoMax g (fld wd 20 16) (fld wd 15 11) (fld wd 10 6) (fld wd 4 4 == 1))) := by
    unfold decodeL; rw [em, f3_0]; rfl
  rw [ha]
  simp only [need, f5_5, f20_16, f15_11, f10_6, f4_4, toNat_beq_one, if_true]

theorem RoundTrip.amoMinu (g : Guard) (d : Nat) (a : Nat) (b : Nat) (w : Bool) : Statement (.amoMinu g d a b w) := by
  intro h sl hs
  change (decide (g.pred < 12) && decide (d < 32) && decide (a < 32) && decide (b < 32)) = true at h
  simp only [Bool.and_eq_true, decide_eq_true_eq] at h
  obtain ⟨⟨⟨h0, h1⟩, h2⟩, h3⟩ := h
  obtain rfl : SlotClass.l = sl := Option.some.inj (of_decide_eq_true hs)
  have t4 : (7 * 2 ^ 0 + 0) < 2 ^ 4 := lt_field (n := 8) (Nat.lt_succ_self 7) (by decide) (by decide)
  have t3 : (w.toNat * 2 ^ 4 + (7 * 2 ^ 0 + 0)) < 2 ^ 6 := lt_field (n := 2) (toNat_lt_two w) t4 (by decide)
  have t2 : (b * 2 ^ 6 + (w.toNat * 2 ^ 4 + (7 * 2 ^ 0 + 0))) < 2 ^ 11 := lt_field (n := 32) h3 t3 (by decide)
  have t1 : (a * 2 ^ 11 + (b * 2 ^ 6 + (w.toNat * 2 ^ 4 + (7 * 2 ^ 0 + 0)))) < 2 ^ 16 := lt_field (n := 32) h2 t2 (by decide)
  have t0 : (d * 2 ^ 16 + (a * 2 ^ 11 + (b * 2 ^ 6 + (w.toNat * 2 ^ 4 + (7 * 2 ^ 0 + 0))))) < 2 ^ 21 := lt_field (n := 32) h1 t1 (by decide)
  obtain ⟨wd, hw⟩ : ∃ wd, g.neg.toNat * 2 ^ 31 + g.pred * 2 ^ 27 + 20 * 2 ^ 21 + (d * 2 ^ 16 + (a * 2 ^ 11 + (b * 2 ^ 6 + (w.toNat * 2 ^ 4 + (7 * 2 ^ 0 + 0))))) = wd := ⟨_, rfl⟩
  change decodeWord .l (g.neg.toNat * 2 ^ 31 + g.pred * 2 ^ 27 + 20 * 2 ^ 21 + (d * 2 ^ 16 + (a * 2 ^ 11 + (b * 2 ^ 6 + (w.toNat * 2 ^ 4 + (7 * 2 ^ 0 + 0)))))) = _
  rw [hw, decodeWord_op .l g 20 _ wd h0 (by decide) t0 (by decide) hw]
  change decodeL g wd = _
  have em := fld_major g 20 _ wd (by decide) t0 hw
  have f5_5 : fld wd 5 5 = 0 := (fld_body g 20 _ wd 5 5 (by decide) (by decide) hw).trans ((fld_below (by decide) (by decide)).trans ((fld_below (by decide) (by decide)).trans ((fld_below (by decide) (by decide)).trans (fld_above (lt_field (n := 2) (toNat_lt_two w) t4 (by decide))))))
  have f20_16 : fld wd 20 16 = d := (fld_body g 20 _ wd 20 16 (by decide) (by decide) hw).trans (fld_here (n := 32) h1 t1 (by decide))
  have f15_11 : fld wd 15 11 = a := (fld_body g 20 _ wd 15 11 (by decide) (by decide) hw).trans ((fld_below (by decide) (by decide)).trans (fld_here (n := 32) h2 t2 (by decide)))
  have f10_6 : fld wd 10 6 = b := (fld_body g 20 _ wd 10 6 (by decide) (by decide) hw).trans ((fld_below (by decide) (by decide)).trans ((fld_below (by decide) (by decide)).trans (fld_here (n := 32) h3 t3 (by decide))))
  have f4_4 : fld wd 4 4 = w.toNat := (fld_body g 20 _ wd 4 4 (by decide) (by decide) hw).trans ((fld_below (by decide) (by decide)).trans ((fld_below (by decide) (by decide)).trans ((fld_below (by decide) (by decide)).trans (fld_here (n := 2) (toNat_lt_two w) t4 (by decide)))))
  have f3_0 : fld wd 3 0 = 7 := (fld_body g 20 _ wd 3 0 (by decide) (by decide) hw).trans ((fld_below (by decide) (by decide)).trans ((fld_below (by decide) (by decide)).trans ((fld_below (by decide) (by decide)).trans ((fld_below (by decide) (by decide)).trans (fld_here (n := 8) (Nat.lt_succ_self 7) (by decide) (by decide))))))
  have ha : decodeL g wd = need (fld wd 5 5 = 0) (.ok (.amoMinu g (fld wd 20 16) (fld wd 15 11) (fld wd 10 6) (fld wd 4 4 == 1))) := by
    unfold decodeL; rw [em, f3_0]; rfl
  rw [ha]
  simp only [need, f5_5, f20_16, f15_11, f10_6, f4_4, toNat_beq_one, if_true]

theorem RoundTrip.amoMaxu (g : Guard) (d : Nat) (a : Nat) (b : Nat) (w : Bool) : Statement (.amoMaxu g d a b w) := by
  intro h sl hs
  change (decide (g.pred < 12) && decide (d < 32) && decide (a < 32) && decide (b < 32)) = true at h
  simp only [Bool.and_eq_true, decide_eq_true_eq] at h
  obtain ⟨⟨⟨h0, h1⟩, h2⟩, h3⟩ := h
  obtain rfl : SlotClass.l = sl := Option.some.inj (of_decide_eq_true hs)
  have t4 : (1 * 2 ^ 3 + 0) < 2 ^ 4 := lt_field (n := 2) (Nat.lt_succ_self 1) (by decide) (by decide)
  have t3 : (w.toNat * 2 ^ 4 + (1 * 2 ^ 3 + 0)) < 2 ^ 6 := lt_field (n := 2) (toNat_lt_two w) t4 (by decide)
  have t2 : (b * 2 ^ 6 + (w.toNat * 2 ^ 4 + (1 * 2 ^ 3 + 0))) < 2 ^ 11 := lt_field (n := 32) h3 t3 (by decide)
  have t1 : (a * 2 ^ 11 + (b * 2 ^ 6 + (w.toNat * 2 ^ 4 + (1 * 2 ^ 3 + 0)))) < 2 ^ 16 := lt_field (n := 32) h2 t2 (by decide)
  have t0 : (d * 2 ^ 16 + (a * 2 ^ 11 + (b * 2 ^ 6 + (w.toNat * 2 ^ 4 + (1 * 2 ^ 3 + 0))))) < 2 ^ 21 := lt_field (n := 32) h1 t1 (by decide)
  obtain ⟨wd, hw⟩ : ∃ wd, g.neg.toNat * 2 ^ 31 + g.pred * 2 ^ 27 + 20 * 2 ^ 21 + (d * 2 ^ 16 + (a * 2 ^ 11 + (b * 2 ^ 6 + (w.toNat * 2 ^ 4 + (1 * 2 ^ 3 + 0))))) = wd := ⟨_, rfl⟩
  change decodeWord .l (g.neg.toNat * 2 ^ 31 + g.pred * 2 ^ 27 + 20 * 2 ^ 21 + (d * 2 ^ 16 + (a * 2 ^ 11 + (b * 2 ^ 6 + (w.toNat * 2 ^ 4 + (1 * 2 ^ 3 + 0)))))) = _
  rw [hw, decodeWord_op .l g 20 _ wd h0 (by decide) t0 (by decide) hw]
  change decodeL g wd = _
  have em := fld_major g 20 _ wd (by decide) t0 hw
  have f5_5 : fld wd 5 5 = 0 := (fld_body g 20 _ wd 5 5 (by decide) (by decide) hw).trans ((fld_below (by decide) (by decide)).trans ((fld_below (by decide) (by decide)).trans ((fld_below (by decide) (by decide)).trans (fld_above (lt_field (n := 2) (toNat_lt_two w) t4 (by decide))))))
  have f20_16 : fld wd 20 16 = d := (fld_body g 20 _ wd 20 16 (by decide) (by decide) hw).trans (fld_here (n := 32) h1 t1 (by decide))
  have f15_11 : fld wd 15 11 = a := (fld_body g 20 _ wd 15 11 (by decide) (by decide) hw).trans ((fld_below (by decide) (by decide)).trans (fld_here (n := 32) h2 t2 (by decide)))
  have f10_6 : fld wd 10 6 = b := (fld_body g 20 _ wd 10 6 (by decide) (by decide) hw).trans ((fld_below (by decide) (by decide)).trans ((fld_below (by decide) (by decide)).trans (fld_here (n := 32) h3 t3 (by decide))))
  have f4_4 : fld wd 4 4 = w.toNat := (fld_body g 20 _ wd 4 4 (by decide) (by decide) hw).trans ((fld_below (by decide) (by decide)).trans ((fld_below (by decide) (by decide)).trans ((fld_below (by decide) (by decide)).trans (fld_here (n := 2) (toNat_lt_two w) t4 (by decide)))))
  have f3_0 : fld wd 3 0 = 8 := (fld_body g 20 _ wd 3 0 (by decide) (by decide) hw).trans ((fld_below (by decide) (by decide)).trans ((fld_below (by decide) (by decide)).trans ((fld_below (by decide) (by decide)).trans ((fld_below (by decide) (by decide)).trans (by decide)))))
  have ha : decodeL g wd = need (fld wd 5 5 = 0) (.ok (.amoMaxu g (fld wd 20 16) (fld wd 15 11) (fld wd 10 6) (fld wd 4 4 == 1))) := by
    unfold decodeL; rw [em, f3_0]; rfl
  rw [ha]
  simp only [need, f5_5, f20_16, f15_11, f10_6, f4_4, toNat_beq_one, if_true]

theorem RoundTrip.mark (g : Guard) : Statement (.mark g) := by
  intro h sl hs
  change (decide (g.pred < 12)) = true at h
  simp only [decide_eq_true_eq] at h
  have h0 := h
  obtain rfl : SlotClass.l = sl := Option.some.inj (of_decide_eq_true hs)
  have t0 : 0 < 2 ^ 21 := by decide
  obtain ⟨wd, hw⟩ : ∃ wd, g.neg.toNat * 2 ^ 31 + g.pred * 2 ^ 27 + 31 * 2 ^ 21 + 0 = wd := ⟨_, rfl⟩
  change decodeWord .l (g.neg.toNat * 2 ^ 31 + g.pred * 2 ^ 27 + 31 * 2 ^ 21 + 0) = _
  rw [hw, decodeWord_op .l g 31 _ wd h0 (by decide) t0 (by decide) hw]
  change decodeL g wd = _
  have em := fld_major g 31 _ wd (by decide) t0 hw
  have f20_0 : fld wd 20 0 = 0 := (fld_body g 31 _ wd 20 0 (by decide) (by decide) hw).trans (by decide)
  have ha : decodeL g wd = need (fld wd 20 0 = 0) (.ok (.mark g)) := by
    unfold decodeL; rw [em]; rfl
  rw [ha]
  simp only [need, f20_0, if_true]

theorem RoundTrip.vaddF32 (g : Guard) (d : Nat) (a : Nat) (b : Nat) (k : Nat) (r : Rm) : Statement (.vaddF32 g d a b k r) := by
  intro h sl hs
  change (decide (g.pred < 12) && decide (d < 32) && decide (a < 32) && decide (b < 32) && decide (k < 8)) = true at h
  simp only [Bool.and_eq_true, decide_eq_true_eq] at h
  obtain ⟨⟨⟨⟨h0, h1⟩, h2⟩, h3⟩, h4⟩ := h
  obtain rfl : SlotClass.v = sl := Option.some.inj (of_decide_eq_true hs)
  have t4 : (r.code * 2 ^ 0 + 0) < 2 ^ 3 := lt_field (n := 8) (rm_code_lt r) (by decide) (by decide)
  have t3 : (k * 2 ^ 3 + (r.code * 2 ^ 0 + 0)) < 2 ^ 6 := lt_field (n := 8) h4 t4 (by decide)
  have t2 : (b * 2 ^ 6 + (k * 2 ^ 3 + (r.code * 2 ^ 0 + 0))) < 2 ^ 11 := lt_field (n := 32) h3 t3 (by decide)
  have t1 : (a * 2 ^ 11 + (b * 2 ^ 6 + (k * 2 ^ 3 + (r.code * 2 ^ 0 + 0)))) < 2 ^ 16 := lt_field (n := 32) h2 t2 (by decide)
  have t0 : (d * 2 ^ 16 + (a * 2 ^ 11 + (b * 2 ^ 6 + (k * 2 ^ 3 + (r.code * 2 ^ 0 + 0))))) < 2 ^ 21 := lt_field (n := 32) h1 t1 (by decide)
  obtain ⟨wd, hw⟩ : ∃ wd, g.neg.toNat * 2 ^ 31 + g.pred * 2 ^ 27 + 1 * 2 ^ 21 + (d * 2 ^ 16 + (a * 2 ^ 11 + (b * 2 ^ 6 + (k * 2 ^ 3 + (r.code * 2 ^ 0 + 0))))) = wd := ⟨_, rfl⟩
  change decodeWord .v (g.neg.toNat * 2 ^ 31 + g.pred * 2 ^ 27 + 1 * 2 ^ 21 + (d * 2 ^ 16 + (a * 2 ^ 11 + (b * 2 ^ 6 + (k * 2 ^ 3 + (r.code * 2 ^ 0 + 0)))))) = _
  rw [hw, decodeWord_op .v g 1 _ wd h0 (by decide) t0 (by decide) hw]
  change decodeV g wd = _
  have em := fld_major g 1 _ wd (by decide) t0 hw
  have f2_0 : fld wd 2 0 = r.code := (fld_body g 1 _ wd 2 0 (by decide) (by decide) hw).trans ((fld_below (by decide) (by decide)).trans ((fld_below (by decide) (by decide)).trans ((fld_below (by decide) (by decide)).trans ((fld_below (by decide) (by decide)).trans (fld_here (n := 8) (rm_code_lt r) (by decide) (by decide))))))
  have f20_16 : fld wd 20 16 = d := (fld_body g 1 _ wd 20 16 (by decide) (by decide) hw).trans (fld_here (n := 32) h1 t1 (by decide))
  have f15_11 : fld wd 15 11 = a := (fld_body g 1 _ wd 15 11 (by decide) (by decide) hw).trans ((fld_below (by decide) (by decide)).trans (fld_here (n := 32) h2 t2 (by decide)))
  have f10_6 : fld wd 10 6 = b := (fld_body g 1 _ wd 10 6 (by decide) (by decide) hw).trans ((fld_below (by decide) (by decide)).trans ((fld_below (by decide) (by decide)).trans (fld_here (n := 32) h3 t3 (by decide))))
  have f5_3 : fld wd 5 3 = k := (fld_body g 1 _ wd 5 3 (by decide) (by decide) hw).trans ((fld_below (by decide) (by decide)).trans ((fld_below (by decide) (by decide)).trans ((fld_below (by decide) (by decide)).trans (fld_here (n := 8) h4 t4 (by decide)))))
  have ha : decodeV g wd = (match Rm.ofCode (fld wd 2 0) with | some r => .ok (.vaddF32 g (fld wd 20 16) (fld wd 15 11) (fld wd 10 6) (fld wd 5 3) r) | _ => .error .reservedFormat) := by
    unfold decodeV; rw [em]; rfl
  rw [ha]
  simp only [f2_0, f20_16, f15_11, f10_6, f5_3, rmOfCode_code]

theorem RoundTrip.vsubF32 (g : Guard) (d : Nat) (a : Nat) (b : Nat) (k : Nat) (r : Rm) : Statement (.vsubF32 g d a b k r) := by
  intro h sl hs
  change (decide (g.pred < 12) && decide (d < 32) && decide (a < 32) && decide (b < 32) && decide (k < 8)) = true at h
  simp only [Bool.and_eq_true, decide_eq_true_eq] at h
  obtain ⟨⟨⟨⟨h0, h1⟩, h2⟩, h3⟩, h4⟩ := h
  obtain rfl : SlotClass.v = sl := Option.some.inj (of_decide_eq_true hs)
  have t4 : (r.code * 2 ^ 0 + 0) < 2 ^ 3 := lt_field (n := 8) (rm_code_lt r) (by decide) (by decide)
  have t3 : (k * 2 ^ 3 + (r.code * 2 ^ 0 + 0)) < 2 ^ 6 := lt_field (n := 8) h4 t4 (by decide)
  have t2 : (b * 2 ^ 6 + (k * 2 ^ 3 + (r.code * 2 ^ 0 + 0))) < 2 ^ 11 := lt_field (n := 32) h3 t3 (by decide)
  have t1 : (a * 2 ^ 11 + (b * 2 ^ 6 + (k * 2 ^ 3 + (r.code * 2 ^ 0 + 0)))) < 2 ^ 16 := lt_field (n := 32) h2 t2 (by decide)
  have t0 : (d * 2 ^ 16 + (a * 2 ^ 11 + (b * 2 ^ 6 + (k * 2 ^ 3 + (r.code * 2 ^ 0 + 0))))) < 2 ^ 21 := lt_field (n := 32) h1 t1 (by decide)
  obtain ⟨wd, hw⟩ : ∃ wd, g.neg.toNat * 2 ^ 31 + g.pred * 2 ^ 27 + 2 * 2 ^ 21 + (d * 2 ^ 16 + (a * 2 ^ 11 + (b * 2 ^ 6 + (k * 2 ^ 3 + (r.code * 2 ^ 0 + 0))))) = wd := ⟨_, rfl⟩
  change decodeWord .v (g.neg.toNat * 2 ^ 31 + g.pred * 2 ^ 27 + 2 * 2 ^ 21 + (d * 2 ^ 16 + (a * 2 ^ 11 + (b * 2 ^ 6 + (k * 2 ^ 3 + (r.code * 2 ^ 0 + 0)))))) = _
  rw [hw, decodeWord_op .v g 2 _ wd h0 (by decide) t0 (by decide) hw]
  change decodeV g wd = _
  have em := fld_major g 2 _ wd (by decide) t0 hw
  have f2_0 : fld wd 2 0 = r.code := (fld_body g 2 _ wd 2 0 (by decide) (by decide) hw).trans ((fld_below (by decide) (by decide)).trans ((fld_below (by decide) (by decide)).trans ((fld_below (by decide) (by decide)).trans ((fld_below (by decide) (by decide)).trans (fld_here (n := 8) (rm_code_lt r) (by decide) (by decide))))))
  have f20_16 : fld wd 20 16 = d := (fld_body g 2 _ wd 20 16 (by decide) (by decide) hw).trans (fld_here (n := 32) h1 t1 (by decide))
  have f15_11 : fld wd 15 11 = a := (fld_body g 2 _ wd 15 11 (by decide) (by decide) hw).trans ((fld_below (by decide) (by decide)).trans (fld_here (n := 32) h2 t2 (by decide)))
  have f10_6 : fld wd 10 6 = b := (fld_body g 2 _ wd 10 6 (by decide) (by decide) hw).trans ((fld_below (by decide) (by decide)).trans ((fld_below (by decide) (by decide)).trans (fld_here (n := 32) h3 t3 (by decide))))
  have f5_3 : fld wd 5 3 = k := (fld_body g 2 _ wd 5 3 (by decide) (by decide) hw).trans ((fld_below (by decide) (by decide)).trans ((fld_below (by decide) (by decide)).trans ((fld_below (by decide) (by decide)).trans (fld_here (n := 8) h4 t4 (by decide)))))
  have ha : decodeV g wd = (match Rm.ofCode (fld wd 2 0) with | some r => .ok (.vsubF32 g (fld wd 20 16) (fld wd 15 11) (fld wd 10 6) (fld wd 5 3) r) | _ => .error .reservedFormat) := by
    unfold decodeV; rw [em]; rfl
  rw [ha]
  simp only [f2_0, f20_16, f15_11, f10_6, f5_3, rmOfCode_code]

theorem RoundTrip.vmulF32 (g : Guard) (d : Nat) (a : Nat) (b : Nat) (k : Nat) (r : Rm) : Statement (.vmulF32 g d a b k r) := by
  intro h sl hs
  change (decide (g.pred < 12) && decide (d < 32) && decide (a < 32) && decide (b < 32) && decide (k < 8)) = true at h
  simp only [Bool.and_eq_true, decide_eq_true_eq] at h
  obtain ⟨⟨⟨⟨h0, h1⟩, h2⟩, h3⟩, h4⟩ := h
  obtain rfl : SlotClass.v = sl := Option.some.inj (of_decide_eq_true hs)
  have t4 : (r.code * 2 ^ 0 + 0) < 2 ^ 3 := lt_field (n := 8) (rm_code_lt r) (by decide) (by decide)
  have t3 : (k * 2 ^ 3 + (r.code * 2 ^ 0 + 0)) < 2 ^ 6 := lt_field (n := 8) h4 t4 (by decide)
  have t2 : (b * 2 ^ 6 + (k * 2 ^ 3 + (r.code * 2 ^ 0 + 0))) < 2 ^ 11 := lt_field (n := 32) h3 t3 (by decide)
  have t1 : (a * 2 ^ 11 + (b * 2 ^ 6 + (k * 2 ^ 3 + (r.code * 2 ^ 0 + 0)))) < 2 ^ 16 := lt_field (n := 32) h2 t2 (by decide)
  have t0 : (d * 2 ^ 16 + (a * 2 ^ 11 + (b * 2 ^ 6 + (k * 2 ^ 3 + (r.code * 2 ^ 0 + 0))))) < 2 ^ 21 := lt_field (n := 32) h1 t1 (by decide)
  obtain ⟨wd, hw⟩ : ∃ wd, g.neg.toNat * 2 ^ 31 + g.pred * 2 ^ 27 + 3 * 2 ^ 21 + (d * 2 ^ 16 + (a * 2 ^ 11 + (b * 2 ^ 6 + (k * 2 ^ 3 + (r.code * 2 ^ 0 + 0))))) = wd := ⟨_, rfl⟩
  change decodeWord .v (g.neg.toNat * 2 ^ 31 + g.pred * 2 ^ 27 + 3 * 2 ^ 21 + (d * 2 ^ 16 + (a * 2 ^ 11 + (b * 2 ^ 6 + (k * 2 ^ 3 + (r.code * 2 ^ 0 + 0)))))) = _
  rw [hw, decodeWord_op .v g 3 _ wd h0 (by decide) t0 (by decide) hw]
  change decodeV g wd = _
  have em := fld_major g 3 _ wd (by decide) t0 hw
  have f2_0 : fld wd 2 0 = r.code := (fld_body g 3 _ wd 2 0 (by decide) (by decide) hw).trans ((fld_below (by decide) (by decide)).trans ((fld_below (by decide) (by decide)).trans ((fld_below (by decide) (by decide)).trans ((fld_below (by decide) (by decide)).trans (fld_here (n := 8) (rm_code_lt r) (by decide) (by decide))))))
  have f20_16 : fld wd 20 16 = d := (fld_body g 3 _ wd 20 16 (by decide) (by decide) hw).trans (fld_here (n := 32) h1 t1 (by decide))
  have f15_11 : fld wd 15 11 = a := (fld_body g 3 _ wd 15 11 (by decide) (by decide) hw).trans ((fld_below (by decide) (by decide)).trans (fld_here (n := 32) h2 t2 (by decide)))
  have f10_6 : fld wd 10 6 = b := (fld_body g 3 _ wd 10 6 (by decide) (by decide) hw).trans ((fld_below (by decide) (by decide)).trans ((fld_below (by decide) (by decide)).trans (fld_here (n := 32) h3 t3 (by decide))))
  have f5_3 : fld wd 5 3 = k := (fld_body g 3 _ wd 5 3 (by decide) (by decide) hw).trans ((fld_below (by decide) (by decide)).trans ((fld_below (by decide) (by decide)).trans ((fld_below (by decide) (by decide)).trans (fld_here (n := 8) h4 t4 (by decide)))))
  have ha : decodeV g wd = (match Rm.ofCode (fld wd 2 0) with | some r => .ok (.vmulF32 g (fld wd 20 16) (fld wd 15 11) (fld wd 10 6) (fld wd 5 3) r) | _ => .error .reservedFormat) := by
    unfold decodeV; rw [em]; rfl
  rw [ha]
  simp only [f2_0, f20_16, f15_11, f10_6, f5_3, rmOfCode_code]

theorem RoundTrip.vfmaF32 (g : Guard) (d : Nat) (a : Nat) (b : Nat) (k : Nat) (r : Rm) : Statement (.vfmaF32 g d a b k r) := by
  intro h sl hs
  change (decide (g.pred < 12) && decide (d < 32) && decide (a < 32) && decide (b < 32) && decide (k < 8)) = true at h
  simp only [Bool.and_eq_true, decide_eq_true_eq] at h
  obtain ⟨⟨⟨⟨h0, h1⟩, h2⟩, h3⟩, h4⟩ := h
  obtain rfl : SlotClass.v = sl := Option.some.inj (of_decide_eq_true hs)
  have t4 : (r.code * 2 ^ 0 + 0) < 2 ^ 3 := lt_field (n := 8) (rm_code_lt r) (by decide) (by decide)
  have t3 : (k * 2 ^ 3 + (r.code * 2 ^ 0 + 0)) < 2 ^ 6 := lt_field (n := 8) h4 t4 (by decide)
  have t2 : (b * 2 ^ 6 + (k * 2 ^ 3 + (r.code * 2 ^ 0 + 0))) < 2 ^ 11 := lt_field (n := 32) h3 t3 (by decide)
  have t1 : (a * 2 ^ 11 + (b * 2 ^ 6 + (k * 2 ^ 3 + (r.code * 2 ^ 0 + 0)))) < 2 ^ 16 := lt_field (n := 32) h2 t2 (by decide)
  have t0 : (d * 2 ^ 16 + (a * 2 ^ 11 + (b * 2 ^ 6 + (k * 2 ^ 3 + (r.code * 2 ^ 0 + 0))))) < 2 ^ 21 := lt_field (n := 32) h1 t1 (by decide)
  obtain ⟨wd, hw⟩ : ∃ wd, g.neg.toNat * 2 ^ 31 + g.pred * 2 ^ 27 + 4 * 2 ^ 21 + (d * 2 ^ 16 + (a * 2 ^ 11 + (b * 2 ^ 6 + (k * 2 ^ 3 + (r.code * 2 ^ 0 + 0))))) = wd := ⟨_, rfl⟩
  change decodeWord .v (g.neg.toNat * 2 ^ 31 + g.pred * 2 ^ 27 + 4 * 2 ^ 21 + (d * 2 ^ 16 + (a * 2 ^ 11 + (b * 2 ^ 6 + (k * 2 ^ 3 + (r.code * 2 ^ 0 + 0)))))) = _
  rw [hw, decodeWord_op .v g 4 _ wd h0 (by decide) t0 (by decide) hw]
  change decodeV g wd = _
  have em := fld_major g 4 _ wd (by decide) t0 hw
  have f2_0 : fld wd 2 0 = r.code := (fld_body g 4 _ wd 2 0 (by decide) (by decide) hw).trans ((fld_below (by decide) (by decide)).trans ((fld_below (by decide) (by decide)).trans ((fld_below (by decide) (by decide)).trans ((fld_below (by decide) (by decide)).trans (fld_here (n := 8) (rm_code_lt r) (by decide) (by decide))))))
  have f20_16 : fld wd 20 16 = d := (fld_body g 4 _ wd 20 16 (by decide) (by decide) hw).trans (fld_here (n := 32) h1 t1 (by decide))
  have f15_11 : fld wd 15 11 = a := (fld_body g 4 _ wd 15 11 (by decide) (by decide) hw).trans ((fld_below (by decide) (by decide)).trans (fld_here (n := 32) h2 t2 (by decide)))
  have f10_6 : fld wd 10 6 = b := (fld_body g 4 _ wd 10 6 (by decide) (by decide) hw).trans ((fld_below (by decide) (by decide)).trans ((fld_below (by decide) (by decide)).trans (fld_here (n := 32) h3 t3 (by decide))))
  have f5_3 : fld wd 5 3 = k := (fld_body g 4 _ wd 5 3 (by decide) (by decide) hw).trans ((fld_below (by decide) (by decide)).trans ((fld_below (by decide) (by decide)).trans ((fld_below (by decide) (by decide)).trans (fld_here (n := 8) h4 t4 (by decide)))))
  have ha : decodeV g wd = (match Rm.ofCode (fld wd 2 0) with | some r => .ok (.vfmaF32 g (fld wd 20 16) (fld wd 15 11) (fld wd 10 6) (fld wd 5 3) r) | _ => .error .reservedFormat) := by
    unfold decodeV; rw [em]; rfl
  rw [ha]
  simp only [f2_0, f20_16, f15_11, f10_6, f5_3, rmOfCode_code]

theorem RoundTrip.vfmsF32 (g : Guard) (d : Nat) (a : Nat) (b : Nat) (k : Nat) (r : Rm) : Statement (.vfmsF32 g d a b k r) := by
  intro h sl hs
  change (decide (g.pred < 12) && decide (d < 32) && decide (a < 32) && decide (b < 32) && decide (k < 8)) = true at h
  simp only [Bool.and_eq_true, decide_eq_true_eq] at h
  obtain ⟨⟨⟨⟨h0, h1⟩, h2⟩, h3⟩, h4⟩ := h
  obtain rfl : SlotClass.v = sl := Option.some.inj (of_decide_eq_true hs)
  have t4 : (r.code * 2 ^ 0 + 0) < 2 ^ 3 := lt_field (n := 8) (rm_code_lt r) (by decide) (by decide)
  have t3 : (k * 2 ^ 3 + (r.code * 2 ^ 0 + 0)) < 2 ^ 6 := lt_field (n := 8) h4 t4 (by decide)
  have t2 : (b * 2 ^ 6 + (k * 2 ^ 3 + (r.code * 2 ^ 0 + 0))) < 2 ^ 11 := lt_field (n := 32) h3 t3 (by decide)
  have t1 : (a * 2 ^ 11 + (b * 2 ^ 6 + (k * 2 ^ 3 + (r.code * 2 ^ 0 + 0)))) < 2 ^ 16 := lt_field (n := 32) h2 t2 (by decide)
  have t0 : (d * 2 ^ 16 + (a * 2 ^ 11 + (b * 2 ^ 6 + (k * 2 ^ 3 + (r.code * 2 ^ 0 + 0))))) < 2 ^ 21 := lt_field (n := 32) h1 t1 (by decide)
  obtain ⟨wd, hw⟩ : ∃ wd, g.neg.toNat * 2 ^ 31 + g.pred * 2 ^ 27 + 5 * 2 ^ 21 + (d * 2 ^ 16 + (a * 2 ^ 11 + (b * 2 ^ 6 + (k * 2 ^ 3 + (r.code * 2 ^ 0 + 0))))) = wd := ⟨_, rfl⟩
  change decodeWord .v (g.neg.toNat * 2 ^ 31 + g.pred * 2 ^ 27 + 5 * 2 ^ 21 + (d * 2 ^ 16 + (a * 2 ^ 11 + (b * 2 ^ 6 + (k * 2 ^ 3 + (r.code * 2 ^ 0 + 0)))))) = _
  rw [hw, decodeWord_op .v g 5 _ wd h0 (by decide) t0 (by decide) hw]
  change decodeV g wd = _
  have em := fld_major g 5 _ wd (by decide) t0 hw
  have f2_0 : fld wd 2 0 = r.code := (fld_body g 5 _ wd 2 0 (by decide) (by decide) hw).trans ((fld_below (by decide) (by decide)).trans ((fld_below (by decide) (by decide)).trans ((fld_below (by decide) (by decide)).trans ((fld_below (by decide) (by decide)).trans (fld_here (n := 8) (rm_code_lt r) (by decide) (by decide))))))
  have f20_16 : fld wd 20 16 = d := (fld_body g 5 _ wd 20 16 (by decide) (by decide) hw).trans (fld_here (n := 32) h1 t1 (by decide))
  have f15_11 : fld wd 15 11 = a := (fld_body g 5 _ wd 15 11 (by decide) (by decide) hw).trans ((fld_below (by decide) (by decide)).trans (fld_here (n := 32) h2 t2 (by decide)))
  have f10_6 : fld wd 10 6 = b := (fld_body g 5 _ wd 10 6 (by decide) (by decide) hw).trans ((fld_below (by decide) (by decide)).trans ((fld_below (by decide) (by decide)).trans (fld_here (n := 32) h3 t3 (by decide))))
  have f5_3 : fld wd 5 3 = k := (fld_body g 5 _ wd 5 3 (by decide) (by decide) hw).trans ((fld_below (by decide) (by decide)).trans ((fld_below (by decide) (by decide)).trans ((fld_below (by decide) (by decide)).trans (fld_here (n := 8) h4 t4 (by decide)))))
  have ha : decodeV g wd = (match Rm.ofCode (fld wd 2 0) with | some r => .ok (.vfmsF32 g (fld wd 20 16) (fld wd 15 11) (fld wd 10 6) (fld wd 5 3) r) | _ => .error .reservedFormat) := by
    unfold decodeV; rw [em]; rfl
  rw [ha]
  simp only [f2_0, f20_16, f15_11, f10_6, f5_3, rmOfCode_code]

theorem RoundTrip.vminF32 (g : Guard) (d : Nat) (a : Nat) (b : Nat) (k : Nat) : Statement (.vminF32 g d a b k) := by
  intro h sl hs
  change (decide (g.pred < 12) && decide (d < 32) && decide (a < 32) && decide (b < 32) && decide (k < 8)) = true at h
  simp only [Bool.and_eq_true, decide_eq_true_eq] at h
  obtain ⟨⟨⟨⟨h0, h1⟩, h2⟩, h3⟩, h4⟩ := h
  obtain rfl : SlotClass.v = sl := Option.some.inj (of_decide_eq_true hs)
  have t3 : (k * 2 ^ 3 + 0) < 2 ^ 6 := lt_field (n := 8) h4 (by decide) (by decide)
  have t2 : (b * 2 ^ 6 + (k * 2 ^ 3 + 0)) < 2 ^ 11 := lt_field (n := 32) h3 t3 (by decide)
  have t1 : (a * 2 ^ 11 + (b * 2 ^ 6 + (k * 2 ^ 3 + 0))) < 2 ^ 16 := lt_field (n := 32) h2 t2 (by decide)
  have t0 : (d * 2 ^ 16 + (a * 2 ^ 11 + (b * 2 ^ 6 + (k * 2 ^ 3 + 0)))) < 2 ^ 21 := lt_field (n := 32) h1 t1 (by decide)
  obtain ⟨wd, hw⟩ : ∃ wd, g.neg.toNat * 2 ^ 31 + g.pred * 2 ^ 27 + 6 * 2 ^ 21 + (d * 2 ^ 16 + (a * 2 ^ 11 + (b * 2 ^ 6 + (k * 2 ^ 3 + 0)))) = wd := ⟨_, rfl⟩
  change decodeWord .v (g.neg.toNat * 2 ^ 31 + g.pred * 2 ^ 27 + 6 * 2 ^ 21 + (d * 2 ^ 16 + (a * 2 ^ 11 + (b * 2 ^ 6 + (k * 2 ^ 3 + 0))))) = _
  rw [hw, decodeWord_op .v g 6 _ wd h0 (by decide) t0 (by decide) hw]
  change decodeV g wd = _
  have em := fld_major g 6 _ wd (by decide) t0 hw
  have f2_2 : fld wd 2 2 = 0 := (fld_body g 6 _ wd 2 2 (by decide) (by decide) hw).trans ((fld_below (by decide) (by decide)).trans ((fld_below (by decide) (by decide)).trans ((fld_below (by decide) (by decide)).trans ((fld_below (by decide) (by decide)).trans (by decide)))))
  have f20_16 : fld wd 20 16 = d := (fld_body g 6 _ wd 20 16 (by decide) (by decide) hw).trans (fld_here (n := 32) h1 t1 (by decide))
  have f15_11 : fld wd 15 11 = a := (fld_body g 6 _ wd 15 11 (by decide) (by decide) hw).trans ((fld_below (by decide) (by decide)).trans (fld_here (n := 32) h2 t2 (by decide)))
  have f10_6 : fld wd 10 6 = b := (fld_body g 6 _ wd 10 6 (by decide) (by decide) hw).trans ((fld_below (by decide) (by decide)).trans ((fld_below (by decide) (by decide)).trans (fld_here (n := 32) h3 t3 (by decide))))
  have f5_3 : fld wd 5 3 = k := (fld_body g 6 _ wd 5 3 (by decide) (by decide) hw).trans ((fld_below (by decide) (by decide)).trans ((fld_below (by decide) (by decide)).trans ((fld_below (by decide) (by decide)).trans (fld_here (n := 8) h4 (by decide) (by decide)))))
  have f1_0 : fld wd 1 0 = 0 := (fld_body g 6 _ wd 1 0 (by decide) (by decide) hw).trans ((fld_below (by decide) (by decide)).trans ((fld_below (by decide) (by decide)).trans ((fld_below (by decide) (by decide)).trans ((fld_below (by decide) (by decide)).trans (by decide)))))
  have ha : decodeV g wd = need (fld wd 2 2 = 0) (.ok (.vminF32 g (fld wd 20 16) (fld wd 15 11) (fld wd 10 6) (fld wd 5 3))) := by
    unfold decodeV; rw [em, f1_0]; rfl
  rw [ha]
  simp only [need, f2_2, f20_16, f15_11, f10_6, f5_3, if_true]

theorem RoundTrip.vmaxF32 (g : Guard) (d : Nat) (a : Nat) (b : Nat) (k : Nat) : Statement (.vmaxF32 g d a b k) := by
  intro h sl hs
  change (decide (g.pred < 12) && decide (d < 32) && decide (a < 32) && decide (b < 32) && decide (k < 8)) = true at h
  simp only [Bool.and_eq_true, decide_eq_true_eq] at h
  obtain ⟨⟨⟨⟨h0, h1⟩, h2⟩, h3⟩, h4⟩ := h
  obtain rfl : SlotClass.v = sl := Option.some.inj (of_decide_eq_true hs)
  have t4 : (1 * 2 ^ 0 + 0) < 2 ^ 3 := lt_field (n := 2) (Nat.lt_succ_self 1) (by decide) (by decide)
  have t3 : (k * 2 ^ 3 + (1 * 2 ^ 0 + 0)) < 2 ^ 6 := lt_field (n := 8) h4 t4 (by decide)
  have t2 : (b * 2 ^ 6 + (k * 2 ^ 3 + (1 * 2 ^ 0 + 0))) < 2 ^ 11 := lt_field (n := 32) h3 t3 (by decide)
  have t1 : (a * 2 ^ 11 + (b * 2 ^ 6 + (k * 2 ^ 3 + (1 * 2 ^ 0 + 0)))) < 2 ^ 16 := lt_field (n := 32) h2 t2 (by decide)
  have t0 : (d * 2 ^ 16 + (a * 2 ^ 11 + (b * 2 ^ 6 + (k * 2 ^ 3 + (1 * 2 ^ 0 + 0))))) < 2 ^ 21 := lt_field (n := 32) h1 t1 (by decide)
  obtain ⟨wd, hw⟩ : ∃ wd, g.neg.toNat * 2 ^ 31 + g.pred * 2 ^ 27 + 6 * 2 ^ 21 + (d * 2 ^ 16 + (a * 2 ^ 11 + (b * 2 ^ 6 + (k * 2 ^ 3 + (1 * 2 ^ 0 + 0))))) = wd := ⟨_, rfl⟩
  change decodeWord .v (g.neg.toNat * 2 ^ 31 + g.pred * 2 ^ 27 + 6 * 2 ^ 21 + (d * 2 ^ 16 + (a * 2 ^ 11 + (b * 2 ^ 6 + (k * 2 ^ 3 + (1 * 2 ^ 0 + 0)))))) = _
  rw [hw, decodeWord_op .v g 6 _ wd h0 (by decide) t0 (by decide) hw]
  change decodeV g wd = _
  have em := fld_major g 6 _ wd (by decide) t0 hw
  have f2_2 : fld wd 2 2 = 0 := (fld_body g 6 _ wd 2 2 (by decide) (by decide) hw).trans ((fld_below (by decide) (by decide)).trans ((fld_below (by decide) (by decide)).trans ((fld_below (by decide) (by decide)).trans ((fld_below (by decide) (by decide)).trans (fld_above (lt_field (n := 2) (Nat.lt_succ_self 1) (by decide) (by decide)))))))
  have f20_16 : fld wd 20 16 = d := (fld_body g 6 _ wd 20 16 (by decide) (by decide) hw).trans (fld_here (n := 32) h1 t1 (by decide))
  have f15_11 : fld wd 15 11 = a := (fld_body g 6 _ wd 15 11 (by decide) (by decide) hw).trans ((fld_below (by decide) (by decide)).trans (fld_here (n := 32) h2 t2 (by decide)))
  have f10_6 : fld wd 10 6 = b := (fld_body g 6 _ wd 10 6 (by decide) (by decide) hw).trans ((fld_below (by decide) (by decide)).trans ((fld_below (by decide) (by decide)).trans (fld_here (n := 32) h3 t3 (by decide))))
  have f5_3 : fld wd 5 3 = k := (fld_body g 6 _ wd 5 3 (by decide) (by decide) hw).trans ((fld_below (by decide) (by decide)).trans ((fld_below (by decide) (by decide)).trans ((fld_below (by decide) (by decide)).trans (fld_here (n := 8) h4 t4 (by decide)))))
  have f1_0 : fld wd 1 0 = 1 := (fld_body g 6 _ wd 1 0 (by decide) (by decide) hw).trans ((fld_below (by decide) (by decide)).trans ((fld_below (by decide) (by decide)).trans ((fld_below (by decide) (by decide)).trans ((fld_below (by decide) (by decide)).trans (fld_here (n := 2) (Nat.lt_succ_self 1) (by decide) (by decide))))))
  have ha : decodeV g wd = need (fld wd 2 2 = 0) (.ok (.vmaxF32 g (fld wd 20 16) (fld wd 15 11) (fld wd 10 6) (fld wd 5 3))) := by
    unfold decodeV; rw [em, f1_0]; rfl
  rw [ha]
  simp only [need, f2_2, f20_16, f15_11, f10_6, f5_3, if_true]

theorem RoundTrip.vabsF32 (g : Guard) (d : Nat) (a : Nat) (k : Nat) : Statement (.vabsF32 g d a k) := by
  intro h sl hs
  change (decide (g.pred < 12) && decide (d < 32) && decide (a < 32) && decide (k < 8)) = true at h
  simp only [Bool.and_eq_true, decide_eq_true_eq] at h
  obtain ⟨⟨⟨h0, h1⟩, h2⟩, h3⟩ := h
  obtain rfl : SlotClass.v = sl := Option.some.inj (of_decide_eq_true hs)
  have t3 : (1 * 2 ^ 1 + 0) < 2 ^ 3 := lt_field (n := 2) (Nat.lt_succ_self 1) (by decide) (by decide)
  have t2 : (k * 2 ^ 3 + (1 * 2 ^ 1 + 0)) < 2 ^ 11 := lt_field (n := 8) h3 t3 (by decide)
  have t1 : (a * 2 ^ 11 + (k * 2 ^ 3 + (1 * 2 ^ 1 + 0))) < 2 ^ 16 := lt_field (n := 32) h2 t2 (by decide)
  have t0 : (d * 2 ^ 16 + (a * 2 ^ 11 + (k * 2 ^ 3 + (1 * 2 ^ 1 + 0)))) < 2 ^ 21 := lt_field (n := 32) h1 t1 (by decide)
  obtain ⟨wd, hw⟩ : ∃ wd, g.neg.toNat * 2 ^ 31 + g.pred * 2 ^ 27 + 6 * 2 ^ 21 + (d * 2 ^ 16 + (a * 2 ^ 11 + (k * 2 ^ 3 + (1 * 2 ^ 1 + 0)))) = wd := ⟨_, rfl⟩
  change decodeWord .v (g.neg.toNat * 2 ^ 31 + g.pred * 2 ^ 27 + 6 * 2 ^ 21 + (d * 2 ^ 16 + (a * 2 ^ 11 + (k * 2 ^ 3 + (1 * 2 ^ 1 + 0))))) = _
  rw [hw, decodeWord_op .v g 6 _ wd h0 (by decide) t0 (by decide) hw]
  change decodeV g wd = _
  have em := fld_major g 6 _ wd (by decide) t0 hw
  have f10_6 : fld wd 10 6 = 0 := (fld_body g 6 _ wd 10 6 (by decide) (by decide) hw).trans ((fld_below (by decide) (by decide)).trans ((fld_below (by decide) (by decide)).trans (fld_above (lt_field (n := 8) h3 t3 (by decide)))))
  have f2_2 : fld wd 2 2 = 0 := (fld_body g 6 _ wd 2 2 (by decide) (by decide) hw).trans ((fld_below (by decide) (by decide)).trans ((fld_below (by decide) (by decide)).trans ((fld_below (by decide) (by decide)).trans (fld_above (lt_field (n := 2) (Nat.lt_succ_self 1) (by decide) (by decide))))))
  have f20_16 : fld wd 20 16 = d := (fld_body g 6 _ wd 20 16 (by decide) (by decide) hw).trans (fld_here (n := 32) h1 t1 (by decide))
  have f15_11 : fld wd 15 11 = a := (fld_body g 6 _ wd 15 11 (by decide) (by decide) hw).trans ((fld_below (by decide) (by decide)).trans (fld_here (n := 32) h2 t2 (by decide)))
  have f5_3 : fld wd 5 3 = k := (fld_body g 6 _ wd 5 3 (by decide) (by decide) hw).trans ((fld_below (by decide) (by decide)).trans ((fld_below (by decide) (by decide)).trans (fld_here (n := 8) h3 t3 (by decide))))
  have f1_0 : fld wd 1 0 = 2 := (fld_body g 6 _ wd 1 0 (by decide) (by decide) hw).trans ((fld_below (by decide) (by decide)).trans ((fld_below (by decide) (by decide)).trans ((fld_below (by decide) (by decide)).trans (by decide))))
  have ha : decodeV g wd = need (fld wd 10 6 = 0 ∧ fld wd 2 2 = 0) (.ok (.vabsF32 g (fld wd 20 16) (fld wd 15 11) (fld wd 5 3))) := by
    unfold decodeV; rw [em, f1_0]; rfl
  rw [ha]
  simp only [need, f10_6, f2_2, f20_16, f15_11, f5_3, and_self, if_true]

theorem RoundTrip.vnegF32 (g : Guard) (d : Nat) (a : Nat) (k : Nat) : Statement (.vnegF32 g d a k) := by
  intro h sl hs
  change (decide (g.pred < 12) && decide (d < 32) && decide (a < 32) && decide (k < 8)) = true at h
  simp only [Bool.and_eq_true, decide_eq_true_eq] at h
  obtain ⟨⟨⟨h0, h1⟩, h2⟩, h3⟩ := h
  obtain rfl : SlotClass.v = sl := Option.some.inj (of_decide_eq_true hs)
  have t3 : (3 * 2 ^ 0 + 0) < 2 ^ 3 := lt_field (n := 4) (Nat.lt_succ_self 3) (by decide) (by decide)
  have t2 : (k * 2 ^ 3 + (3 * 2 ^ 0 + 0)) < 2 ^ 11 := lt_field (n := 8) h3 t3 (by decide)
  have t1 : (a * 2 ^ 11 + (k * 2 ^ 3 + (3 * 2 ^ 0 + 0))) < 2 ^ 16 := lt_field (n := 32) h2 t2 (by decide)
  have t0 : (d * 2 ^ 16 + (a * 2 ^ 11 + (k * 2 ^ 3 + (3 * 2 ^ 0 + 0)))) < 2 ^ 21 := lt_field (n := 32) h1 t1 (by decide)
  obtain ⟨wd, hw⟩ : ∃ wd, g.neg.toNat * 2 ^ 31 + g.pred * 2 ^ 27 + 6 * 2 ^ 21 + (d * 2 ^ 16 + (a * 2 ^ 11 + (k * 2 ^ 3 + (3 * 2 ^ 0 + 0)))) = wd := ⟨_, rfl⟩
  change decodeWord .v (g.neg.toNat * 2 ^ 31 + g.pred * 2 ^ 27 + 6 * 2 ^ 21 + (d * 2 ^ 16 + (a * 2 ^ 11 + (k * 2 ^ 3 + (3 * 2 ^ 0 + 0))))) = _
  rw [hw, decodeWord_op .v g 6 _ wd h0 (by decide) t0 (by decide) hw]
  change decodeV g wd = _
  have em := fld_major g 6 _ wd (by decide) t0 hw
  have f10_6 : fld wd 10 6 = 0 := (fld_body g 6 _ wd 10 6 (by decide) (by decide) hw).trans ((fld_below (by decide) (by decide)).trans ((fld_below (by decide) (by decide)).trans (fld_above (lt_field (n := 8) h3 t3 (by decide)))))
  have f2_2 : fld wd 2 2 = 0 := (fld_body g 6 _ wd 2 2 (by decide) (by decide) hw).trans ((fld_below (by decide) (by decide)).trans ((fld_below (by decide) (by decide)).trans ((fld_below (by decide) (by decide)).trans (fld_above (lt_field (n := 4) (Nat.lt_succ_self 3) (by decide) (by decide))))))
  have f20_16 : fld wd 20 16 = d := (fld_body g 6 _ wd 20 16 (by decide) (by decide) hw).trans (fld_here (n := 32) h1 t1 (by decide))
  have f15_11 : fld wd 15 11 = a := (fld_body g 6 _ wd 15 11 (by decide) (by decide) hw).trans ((fld_below (by decide) (by decide)).trans (fld_here (n := 32) h2 t2 (by decide)))
  have f5_3 : fld wd 5 3 = k := (fld_body g 6 _ wd 5 3 (by decide) (by decide) hw).trans ((fld_below (by decide) (by decide)).trans ((fld_below (by decide) (by decide)).trans (fld_here (n := 8) h3 t3 (by decide))))
  have f1_0 : fld wd 1 0 = 3 := (fld_body g 6 _ wd 1 0 (by decide) (by decide) hw).trans ((fld_below (by decide) (by decide)).trans ((fld_below (by decide) (by decide)).trans ((fld_below (by decide) (by decide)).trans (fld_here (n := 4) (Nat.lt_succ_self 3) (by decide) (by decide)))))
  have ha : decodeV g wd = need (fld wd 10 6 = 0 ∧ fld wd 2 2 = 0) (.ok (.vnegF32 g (fld wd 20 16) (fld wd 15 11) (fld wd 5 3))) := by
    unfold decodeV; rw [em, f1_0]; rfl
  rw [ha]
  simp only [need, f10_6, f2_2, f20_16, f15_11, f5_3, and_self, if_true]

theorem RoundTrip.vrndF32 (g : Guard) (d : Nat) (a : Nat) (k : Nat) (r : Rm) : Statement (.vrndF32 g d a k r) := by
  intro h sl hs
  change (decide (g.pred < 12) && decide (d < 32) && decide (a < 32) && decide (k < 8)) = true at h
  simp only [Bool.and_eq_true, decide_eq_true_eq] at h
  obtain ⟨⟨⟨h0, h1⟩, h2⟩, h3⟩ := h
  obtain rfl : SlotClass.v = sl := Option.some.inj (of_decide_eq_true hs)
  have t3 : (r.code * 2 ^ 0 + 0) < 2 ^ 3 := lt_field (n := 8) (rm_code_lt r) (by decide) (by decide)
  have t2 : (k * 2 ^ 3 + (r.code * 2 ^ 0 + 0)) < 2 ^ 11 := lt_field (n := 8) h3 t3 (by decide)
  have t1 : (a * 2 ^ 11 + (k * 2 ^ 3 + (r.code * 2 ^ 0 + 0))) < 2 ^ 16 := lt_field (n := 32) h2 t2 (by decide)
  have t0 : (d * 2 ^ 16 + (a * 2 ^ 11 + (k * 2 ^ 3 + (r.code * 2 ^ 0 + 0)))) < 2 ^ 21 := lt_field (n := 32) h1 t1 (by decide)
  obtain ⟨wd, hw⟩ : ∃ wd, g.neg.toNat * 2 ^ 31 + g.pred * 2 ^ 27 + 7 * 2 ^ 21 + (d * 2 ^ 16 + (a * 2 ^ 11 + (k * 2 ^ 3 + (r.code * 2 ^ 0 + 0)))) = wd := ⟨_, rfl⟩
  change decodeWord .v (g.neg.toNat * 2 ^ 31 + g.pred * 2 ^ 27 + 7 * 2 ^ 21 + (d * 2 ^ 16 + (a * 2 ^ 11 + (k * 2 ^ 3 + (r.code * 2 ^ 0 + 0))))) = _
  rw [hw, decodeWord_op .v g 7 _ wd h0 (by decide) t0 (by decide) hw]
  change decodeV g wd = _
  have em := fld_major g 7 _ wd (by decide) t0 hw
  have f10_6 : fld wd 10 6 = 0 := (fld_body g 7 _ wd 10 6 (by decide) (by decide) hw).trans ((fld_below (by decide) (by decide)).trans ((fld_below (by decide) (by decide)).trans (fld_above (lt_field (n := 8) h3 t3 (by decide)))))
  have f2_0 : fld wd 2 0 = r.code := (fld_body g 7 _ wd 2 0 (by decide) (by decide) hw).trans ((fld_below (by decide) (by decide)).trans ((fld_below (by decide) (by decide)).trans ((fld_below (by decide) (by decide)).trans (fld_here (n := 8) (rm_code_lt r) (by decide) (by decide)))))
  have f20_16 : fld wd 20 16 = d := (fld_body g 7 _ wd 20 16 (by decide) (by decide) hw).trans (fld_here (n := 32) h1 t1 (by decide))
  have f15_11 : fld wd 15 11 = a := (fld_body g 7 _ wd 15 11 (by decide) (by decide) hw).trans ((fld_below (by decide) (by decide)).trans (fld_here (n := 32) h2 t2 (by decide)))
  have f5_3 : fld wd 5 3 = k := (fld_body g 7 _ wd 5 3 (by decide) (by decide) hw).trans ((fld_below (by decide) (by decide)).trans ((fld_below (by decide) (by decide)).trans (fld_here (n := 8) h3 t3 (by decide))))
  have ha : decodeV g wd = need (fld wd 10 6 = 0) (match Rm.ofCode (fld wd 2 0) with | some r => .ok (.vrndF32 g (fld wd 20 16) (fld wd 15 11) (fld wd 5 3) r) | _ => .error .reservedFormat) := by
    unfold decodeV; rw [em]; rfl
  rw [ha]
  simp only [need, f10_6, f2_0, f20_16, f15_11, f5_3, rmOfCode_code, if_true]

theorem RoundTrip.vcmpF32Eq (g : Guard) (d : Nat) (a : Nat) (b : Nat) (k : Nat) : Statement (.vcmpF32Eq g d a b k) := by
  intro h sl hs
  change (decide (g.pred < 12) && decide (d < 8) && decide (a < 32) && decide (b < 32) && decide (k < 8)) = true at h
  simp only [Bool.and_eq_true, decide_eq_true_eq] at h
  obtain ⟨⟨⟨⟨h0, h1⟩, h2⟩, h3⟩, h4⟩ := h
  obtain rfl : SlotClass.v = sl := Option.some.inj (of_decide_eq_true hs)
  have t3 : (k * 2 ^ 3 + 0) < 2 ^ 6 := lt_field (n := 8) h4 (by decide) (by decide)
  have t2 : (b * 2 ^ 6 + (k * 2 ^ 3 + 0)) < 2 ^ 11 := lt_field (n := 32) h3 t3 (by decide)
  have t1 : (a * 2 ^ 11 + (b * 2 ^ 6 + (k * 2 ^ 3 + 0))) < 2 ^ 16 := lt_field (n := 32) h2 t2 (by decide)
  have t0 : (d * 2 ^ 16 + (a * 2 ^ 11 + (b * 2 ^ 6 + (k * 2 ^ 3 + 0)))) < 2 ^ 21 := lt_field (n := 8) h1 t1 (by decide)
  obtain ⟨wd, hw⟩ : ∃ wd, g.neg.toNat * 2 ^ 31 + g.pred * 2 ^ 27 + 8 * 2 ^ 21 + (d * 2 ^ 16 + (a * 2 ^ 11 + (b * 2 ^ 6 + (k * 2 ^ 3 + 0)))) = wd := ⟨_, rfl⟩
  change decodeWord .v (g.neg.toNat * 2 ^ 31 + g.pred * 2 ^ 27 + 8 * 2 ^ 21 + (d * 2 ^ 16 + (a * 2 ^ 11 + (b * 2 ^ 6 + (k * 2 ^ 3 + 0))))) = _
  rw [hw, decodeWord_op .v g 8 _ wd h0 (by decide) t0 (by decide) hw]
  change decodeV g wd = _
  have em := fld_major g 8 _ wd (by decide) t0 hw
  have f20_19 : fld wd 20 19 = 0 := (fld_body g 8 _ wd 20 19 (by decide) (by decide) hw).trans (fld_above (lt_field (n := 8) h1 t1 (by decide)))
  have f18_16 : fld wd 18 16 = d := (fld_body g 8 _ wd 18 16 (by decide) (by decide) hw).trans (fld_here (n := 8) h1 t1 (by decide))
  have f15_11 : fld wd 15 11 = a := (fld_body g 8 _ wd 15 11 (by decide) (by decide) hw).trans ((fld_below (by decide) (by decide)).trans (fld_here (n := 32) h2 t2 (by decide)))
  have f10_6 : fld wd 10 6 = b := (fld_body g 8 _ wd 10 6 (by decide) (by decide) hw).trans ((fld_below (by decide) (by decide)).trans ((fld_below (by decide) (by decide)).trans (fld_here (n := 32) h3 t3 (by decide))))
  have f5_3 : fld wd 5 3 = k := (fld_body g 8 _ wd 5 3 (by decide) (by decide) hw).trans ((fld_below (by decide) (by decide)).trans ((fld_below (by decide) (by decide)).trans ((fld_below (by decide) (by decide)).trans (fld_here (n := 8) h4 (by decide) (by decide)))))
  have f2_0 : fld wd 2 0 = 0 := (fld_body g 8 _ wd 2 0 (by decide) (by decide) hw).trans ((fld_below (by decide) (by decide)).trans ((fld_below (by decide) (by decide)).trans ((fld_below (by decide) (by decide)).trans ((fld_below (by decide) (by decide)).trans (by decide)))))
  have ha : decodeV g wd = need (fld wd 20 19 = 0) (.ok (.vcmpF32Eq g (fld wd 18 16) (fld wd 15 11) (fld wd 10 6) (fld wd 5 3))) := by
    unfold decodeV; rw [em, f2_0]; rfl
  rw [ha]
  simp only [need, f20_19, f18_16, f15_11, f10_6, f5_3, if_true]

theorem RoundTrip.vcmpF32Ne (g : Guard) (d : Nat) (a : Nat) (b : Nat) (k : Nat) : Statement (.vcmpF32Ne g d a b k) := by
  intro h sl hs
  change (decide (g.pred < 12) && decide (d < 8) && decide (a < 32) && decide (b < 32) && decide (k < 8)) = true at h
  simp only [Bool.and_eq_true, decide_eq_true_eq] at h
  obtain ⟨⟨⟨⟨h0, h1⟩, h2⟩, h3⟩, h4⟩ := h
  obtain rfl : SlotClass.v = sl := Option.some.inj (of_decide_eq_true hs)
  have t4 : (1 * 2 ^ 0 + 0) < 2 ^ 3 := lt_field (n := 2) (Nat.lt_succ_self 1) (by decide) (by decide)
  have t3 : (k * 2 ^ 3 + (1 * 2 ^ 0 + 0)) < 2 ^ 6 := lt_field (n := 8) h4 t4 (by decide)
  have t2 : (b * 2 ^ 6 + (k * 2 ^ 3 + (1 * 2 ^ 0 + 0))) < 2 ^ 11 := lt_field (n := 32) h3 t3 (by decide)
  have t1 : (a * 2 ^ 11 + (b * 2 ^ 6 + (k * 2 ^ 3 + (1 * 2 ^ 0 + 0)))) < 2 ^ 16 := lt_field (n := 32) h2 t2 (by decide)
  have t0 : (d * 2 ^ 16 + (a * 2 ^ 11 + (b * 2 ^ 6 + (k * 2 ^ 3 + (1 * 2 ^ 0 + 0))))) < 2 ^ 21 := lt_field (n := 8) h1 t1 (by decide)
  obtain ⟨wd, hw⟩ : ∃ wd, g.neg.toNat * 2 ^ 31 + g.pred * 2 ^ 27 + 8 * 2 ^ 21 + (d * 2 ^ 16 + (a * 2 ^ 11 + (b * 2 ^ 6 + (k * 2 ^ 3 + (1 * 2 ^ 0 + 0))))) = wd := ⟨_, rfl⟩
  change decodeWord .v (g.neg.toNat * 2 ^ 31 + g.pred * 2 ^ 27 + 8 * 2 ^ 21 + (d * 2 ^ 16 + (a * 2 ^ 11 + (b * 2 ^ 6 + (k * 2 ^ 3 + (1 * 2 ^ 0 + 0)))))) = _
  rw [hw, decodeWord_op .v g 8 _ wd h0 (by decide) t0 (by decide) hw]
  change decodeV g wd = _
  have em := fld_major g 8 _ wd (by decide) t0 hw
  have f20_19 : fld wd 20 19 = 0 := (fld_body g 8 _ wd 20 19 (by decide) (by decide) hw).trans (fld_above (lt_field (n := 8) h1 t1 (by decide)))
  have f18_16 : fld wd 18 16 = d := (fld_body g 8 _ wd 18 16 (by decide) (by decide) hw).trans (fld_here (n := 8) h1 t1 (by decide))
  have f15_11 : fld wd 15 11 = a := (fld_body g 8 _ wd 15 11 (by decide) (by decide) hw).trans ((fld_below (by decide) (by decide)).trans (fld_here (n := 32) h2 t2 (by decide)))
  have f10_6 : fld wd 10 6 = b := (fld_body g 8 _ wd 10 6 (by decide) (by decide) hw).trans ((fld_below (by decide) (by decide)).trans ((fld_below (by decide) (by decide)).trans (fld_here (n := 32) h3 t3 (by decide))))
  have f5_3 : fld wd 5 3 = k := (fld_body g 8 _ wd 5 3 (by decide) (by decide) hw).trans ((fld_below (by decide) (by decide)).trans ((fld_below (by decide) (by decide)).trans ((fld_below (by decide) (by decide)).trans (fld_here (n := 8) h4 t4 (by decide)))))
  have f2_0 : fld wd 2 0 = 1 := (fld_body g 8 _ wd 2 0 (by decide) (by decide) hw).trans ((fld_below (by decide) (by decide)).trans ((fld_below (by decide) (by decide)).trans ((fld_below (by decide) (by decide)).trans ((fld_below (by decide) (by decide)).trans (fld_here (n := 2) (Nat.lt_succ_self 1) (by decide) (by decide))))))
  have ha : decodeV g wd = need (fld wd 20 19 = 0) (.ok (.vcmpF32Ne g (fld wd 18 16) (fld wd 15 11) (fld wd 10 6) (fld wd 5 3))) := by
    unfold decodeV; rw [em, f2_0]; rfl
  rw [ha]
  simp only [need, f20_19, f18_16, f15_11, f10_6, f5_3, if_true]

theorem RoundTrip.vcmpF32Lt (g : Guard) (d : Nat) (a : Nat) (b : Nat) (k : Nat) : Statement (.vcmpF32Lt g d a b k) := by
  intro h sl hs
  change (decide (g.pred < 12) && decide (d < 8) && decide (a < 32) && decide (b < 32) && decide (k < 8)) = true at h
  simp only [Bool.and_eq_true, decide_eq_true_eq] at h
  obtain ⟨⟨⟨⟨h0, h1⟩, h2⟩, h3⟩, h4⟩ := h
  obtain rfl : SlotClass.v = sl := Option.some.inj (of_decide_eq_true hs)
  have t4 : (1 * 2 ^ 1 + 0) < 2 ^ 3 := lt_field (n := 2) (Nat.lt_succ_self 1) (by decide) (by decide)
  have t3 : (k * 2 ^ 3 + (1 * 2 ^ 1 + 0)) < 2 ^ 6 := lt_field (n := 8) h4 t4 (by decide)
  have t2 : (b * 2 ^ 6 + (k * 2 ^ 3 + (1 * 2 ^ 1 + 0))) < 2 ^ 11 := lt_field (n := 32) h3 t3 (by decide)
  have t1 : (a * 2 ^ 11 + (b * 2 ^ 6 + (k * 2 ^ 3 + (1 * 2 ^ 1 + 0)))) < 2 ^ 16 := lt_field (n := 32) h2 t2 (by decide)
  have t0 : (d * 2 ^ 16 + (a * 2 ^ 11 + (b * 2 ^ 6 + (k * 2 ^ 3 + (1 * 2 ^ 1 + 0))))) < 2 ^ 21 := lt_field (n := 8) h1 t1 (by decide)
  obtain ⟨wd, hw⟩ : ∃ wd, g.neg.toNat * 2 ^ 31 + g.pred * 2 ^ 27 + 8 * 2 ^ 21 + (d * 2 ^ 16 + (a * 2 ^ 11 + (b * 2 ^ 6 + (k * 2 ^ 3 + (1 * 2 ^ 1 + 0))))) = wd := ⟨_, rfl⟩
  change decodeWord .v (g.neg.toNat * 2 ^ 31 + g.pred * 2 ^ 27 + 8 * 2 ^ 21 + (d * 2 ^ 16 + (a * 2 ^ 11 + (b * 2 ^ 6 + (k * 2 ^ 3 + (1 * 2 ^ 1 + 0)))))) = _
  rw [hw, decodeWord_op .v g 8 _ wd h0 (by decide) t0 (by decide) hw]
  change decodeV g wd = _
  have em := fld_major g 8 _ wd (by decide) t0 hw
  have f20_19 : fld wd 20 19 = 0 := (fld_body g 8 _ wd 20 19 (by decide) (by decide) hw).trans (fld_above (lt_field (n := 8) h1 t1 (by decide)))
  have f18_16 : fld wd 18 16 = d := (fld_body g 8 _ wd 18 16 (by decide) (by decide) hw).trans (fld_here (n := 8) h1 t1 (by decide))
  have f15_11 : fld wd 15 11 = a := (fld_body g 8 _ wd 15 11 (by decide) (by decide) hw).trans ((fld_below (by decide) (by decide)).trans (fld_here (n := 32) h2 t2 (by decide)))
  have f10_6 : fld wd 10 6 = b := (fld_body g 8 _ wd 10 6 (by decide) (by decide) hw).trans ((fld_below (by decide) (by decide)).trans ((fld_below (by decide) (by decide)).trans (fld_here (n := 32) h3 t3 (by decide))))
  have f5_3 : fld wd 5 3 = k := (fld_body g 8 _ wd 5 3 (by decide) (by decide) hw).trans ((fld_below (by decide) (by decide)).trans ((fld_below (by decide) (by decide)).trans ((fld_below (by decide) (by decide)).trans (fld_here (n := 8) h4 t4 (by decide)))))
  have f2_0 : fld wd 2 0 = 2 := (fld_body g 8 _ wd 2 0 (by decide) (by decide) hw).trans ((fld_below (by decide) (by decide)).trans ((fld_below (by decide) (by decide)).trans ((fld_below (by decide) (by decide)).trans ((fld_below (by decide) (by decide)).trans (by decide)))))
  have ha : decodeV g wd = need (fld wd 20 19 = 0) (.ok (.vcmpF32Lt g (fld wd 18 16) (fld wd 15 11) (fld wd 10 6) (fld wd 5 3))) := by
    unfold decodeV; rw [em, f2_0]; rfl
  rw [ha]
  simp only [need, f20_19, f18_16, f15_11, f10_6, f5_3, if_true]

theorem RoundTrip.vcmpF32Le (g : Guard) (d : Nat) (a : Nat) (b : Nat) (k : Nat) : Statement (.vcmpF32Le g d a b k) := by
  intro h sl hs
  change (decide (g.pred < 12) && decide (d < 8) && decide (a < 32) && decide (b < 32) && decide (k < 8)) = true at h
  simp only [Bool.and_eq_true, decide_eq_true_eq] at h
  obtain ⟨⟨⟨⟨h0, h1⟩, h2⟩, h3⟩, h4⟩ := h
  obtain rfl : SlotClass.v = sl := Option.some.inj (of_decide_eq_true hs)
  have t4 : (3 * 2 ^ 0 + 0) < 2 ^ 3 := lt_field (n := 4) (Nat.lt_succ_self 3) (by decide) (by decide)
  have t3 : (k * 2 ^ 3 + (3 * 2 ^ 0 + 0)) < 2 ^ 6 := lt_field (n := 8) h4 t4 (by decide)
  have t2 : (b * 2 ^ 6 + (k * 2 ^ 3 + (3 * 2 ^ 0 + 0))) < 2 ^ 11 := lt_field (n := 32) h3 t3 (by decide)
  have t1 : (a * 2 ^ 11 + (b * 2 ^ 6 + (k * 2 ^ 3 + (3 * 2 ^ 0 + 0)))) < 2 ^ 16 := lt_field (n := 32) h2 t2 (by decide)
  have t0 : (d * 2 ^ 16 + (a * 2 ^ 11 + (b * 2 ^ 6 + (k * 2 ^ 3 + (3 * 2 ^ 0 + 0))))) < 2 ^ 21 := lt_field (n := 8) h1 t1 (by decide)
  obtain ⟨wd, hw⟩ : ∃ wd, g.neg.toNat * 2 ^ 31 + g.pred * 2 ^ 27 + 8 * 2 ^ 21 + (d * 2 ^ 16 + (a * 2 ^ 11 + (b * 2 ^ 6 + (k * 2 ^ 3 + (3 * 2 ^ 0 + 0))))) = wd := ⟨_, rfl⟩
  change decodeWord .v (g.neg.toNat * 2 ^ 31 + g.pred * 2 ^ 27 + 8 * 2 ^ 21 + (d * 2 ^ 16 + (a * 2 ^ 11 + (b * 2 ^ 6 + (k * 2 ^ 3 + (3 * 2 ^ 0 + 0)))))) = _
  rw [hw, decodeWord_op .v g 8 _ wd h0 (by decide) t0 (by decide) hw]
  change decodeV g wd = _
  have em := fld_major g 8 _ wd (by decide) t0 hw
  have f20_19 : fld wd 20 19 = 0 := (fld_body g 8 _ wd 20 19 (by decide) (by decide) hw).trans (fld_above (lt_field (n := 8) h1 t1 (by decide)))
  have f18_16 : fld wd 18 16 = d := (fld_body g 8 _ wd 18 16 (by decide) (by decide) hw).trans (fld_here (n := 8) h1 t1 (by decide))
  have f15_11 : fld wd 15 11 = a := (fld_body g 8 _ wd 15 11 (by decide) (by decide) hw).trans ((fld_below (by decide) (by decide)).trans (fld_here (n := 32) h2 t2 (by decide)))
  have f10_6 : fld wd 10 6 = b := (fld_body g 8 _ wd 10 6 (by decide) (by decide) hw).trans ((fld_below (by decide) (by decide)).trans ((fld_below (by decide) (by decide)).trans (fld_here (n := 32) h3 t3 (by decide))))
  have f5_3 : fld wd 5 3 = k := (fld_body g 8 _ wd 5 3 (by decide) (by decide) hw).trans ((fld_below (by decide) (by decide)).trans ((fld_below (by decide) (by decide)).trans ((fld_below (by decide) (by decide)).trans (fld_here (n := 8) h4 t4 (by decide)))))
  have f2_0 : fld wd 2 0 = 3 := (fld_body g 8 _ wd 2 0 (by decide) (by decide) hw).trans ((fld_below (by decide) (by decide)).trans ((fld_below (by decide) (by decide)).trans ((fld_below (by decide) (by decide)).trans ((fld_below (by decide) (by decide)).trans (fld_here (n := 4) (Nat.lt_succ_self 3) (by decide) (by decide))))))
  have ha : decodeV g wd = need (fld wd 20 19 = 0) (.ok (.vcmpF32Le g (fld wd 18 16) (fld wd 15 11) (fld wd 10 6) (fld wd 5 3))) := by
    unfold decodeV; rw [em, f2_0]; rfl
  rw [ha]
  simp only [need, f20_19, f18_16, f15_11, f10_6, f5_3, if_true]

theorem RoundTrip.vcmpF32Unord (g : Guard) (d : Nat) (a : Nat) (b : Nat) (k : Nat) : Statement (.vcmpF32Unord g d a b k) := by
  intro h sl hs
  change (decide (g.pred < 12) && decide (d < 8) && decide (a < 32) && decide (b < 32) && decide (k < 8)) = true at h
  simp only [Bool.and_eq_true, decide_eq_true_eq] at h
  obtain ⟨⟨⟨⟨h0, h1⟩, h2⟩, h3⟩, h4⟩ := h
  obtain rfl : SlotClass.v = sl := Option.some.inj (of_decide_eq_true hs)
  have t4 : (1 * 2 ^ 2 + 0) < 2 ^ 3 := lt_field (n := 2) (Nat.lt_succ_self 1) (by decide) (by decide)
  have t3 : (k * 2 ^ 3 + (1 * 2 ^ 2 + 0)) < 2 ^ 6 := lt_field (n := 8) h4 t4 (by decide)
  have t2 : (b * 2 ^ 6 + (k * 2 ^ 3 + (1 * 2 ^ 2 + 0))) < 2 ^ 11 := lt_field (n := 32) h3 t3 (by decide)
  have t1 : (a * 2 ^ 11 + (b * 2 ^ 6 + (k * 2 ^ 3 + (1 * 2 ^ 2 + 0)))) < 2 ^ 16 := lt_field (n := 32) h2 t2 (by decide)
  have t0 : (d * 2 ^ 16 + (a * 2 ^ 11 + (b * 2 ^ 6 + (k * 2 ^ 3 + (1 * 2 ^ 2 + 0))))) < 2 ^ 21 := lt_field (n := 8) h1 t1 (by decide)
  obtain ⟨wd, hw⟩ : ∃ wd, g.neg.toNat * 2 ^ 31 + g.pred * 2 ^ 27 + 8 * 2 ^ 21 + (d * 2 ^ 16 + (a * 2 ^ 11 + (b * 2 ^ 6 + (k * 2 ^ 3 + (1 * 2 ^ 2 + 0))))) = wd := ⟨_, rfl⟩
  change decodeWord .v (g.neg.toNat * 2 ^ 31 + g.pred * 2 ^ 27 + 8 * 2 ^ 21 + (d * 2 ^ 16 + (a * 2 ^ 11 + (b * 2 ^ 6 + (k * 2 ^ 3 + (1 * 2 ^ 2 + 0)))))) = _
  rw [hw, decodeWord_op .v g 8 _ wd h0 (by decide) t0 (by decide) hw]
  change decodeV g wd = _
  have em := fld_major g 8 _ wd (by decide) t0 hw
  have f20_19 : fld wd 20 19 = 0 := (fld_body g 8 _ wd 20 19 (by decide) (by decide) hw).trans (fld_above (lt_field (n := 8) h1 t1 (by decide)))
  have f18_16 : fld wd 18 16 = d := (fld_body g 8 _ wd 18 16 (by decide) (by decide) hw).trans (fld_here (n := 8) h1 t1 (by decide))
  have f15_11 : fld wd 15 11 = a := (fld_body g 8 _ wd 15 11 (by decide) (by decide) hw).trans ((fld_below (by decide) (by decide)).trans (fld_here (n := 32) h2 t2 (by decide)))
  have f10_6 : fld wd 10 6 = b := (fld_body g 8 _ wd 10 6 (by decide) (by decide) hw).trans ((fld_below (by decide) (by decide)).trans ((fld_below (by decide) (by decide)).trans (fld_here (n := 32) h3 t3 (by decide))))
  have f5_3 : fld wd 5 3 = k := (fld_body g 8 _ wd 5 3 (by decide) (by decide) hw).trans ((fld_below (by decide) (by decide)).trans ((fld_below (by decide) (by decide)).trans ((fld_below (by decide) (by decide)).trans (fld_here (n := 8) h4 t4 (by decide)))))
  have f2_0 : fld wd 2 0 = 4 := (fld_body g 8 _ wd 2 0 (by decide) (by decide) hw).trans ((fld_below (by decide) (by decide)).trans ((fld_below (by decide) (by decide)).trans ((fld_below (by decide) (by decide)).trans ((fld_below (by decide) (by decide)).trans (by decide)))))
  have ha : decodeV g wd = need (fld wd 20 19 = 0) (.ok (.vcmpF32Unord g (fld wd 18 16) (fld wd 15 11) (fld wd 10 6) (fld wd 5 3))) := by
    unfold decodeV; rw [em, f2_0]; rfl
  rw [ha]
  simp only [need, f20_19, f18_16, f15_11, f10_6, f5_3, if_true]

theorem RoundTrip.vcmpI32Eq (g : Guard) (d : Nat) (a : Nat) (b : Nat) (k : Nat) : Statement (.vcmpI32Eq g d a b k) := by
  intro h sl hs
  change (decide (g.pred < 12) && decide (d < 8) && decide (a < 32) && decide (b < 32) && decide (k < 8)) = true at h
  simp only [Bool.and_eq_true, decide_eq_true_eq] at h
  obtain ⟨⟨⟨⟨h0, h1⟩, h2⟩, h3⟩, h4⟩ := h
  obtain rfl : SlotClass.v = sl := Option.some.inj (of_decide_eq_true hs)
  have t3 : (k * 2 ^ 3 + 0) < 2 ^ 6 := lt_field (n := 8) h4 (by decide) (by decide)
  have t2 : (b * 2 ^ 6 + (k * 2 ^ 3 + 0)) < 2 ^ 11 := lt_field (n := 32) h3 t3 (by decide)
  have t1 : (a * 2 ^ 11 + (b * 2 ^ 6 + (k * 2 ^ 3 + 0))) < 2 ^ 16 := lt_field (n := 32) h2 t2 (by decide)
  have t0 : (d * 2 ^ 16 + (a * 2 ^ 11 + (b * 2 ^ 6 + (k * 2 ^ 3 + 0)))) < 2 ^ 21 := lt_field (n := 8) h1 t1 (by decide)
  obtain ⟨wd, hw⟩ : ∃ wd, g.neg.toNat * 2 ^ 31 + g.pred * 2 ^ 27 + 9 * 2 ^ 21 + (d * 2 ^ 16 + (a * 2 ^ 11 + (b * 2 ^ 6 + (k * 2 ^ 3 + 0)))) = wd := ⟨_, rfl⟩
  change decodeWord .v (g.neg.toNat * 2 ^ 31 + g.pred * 2 ^ 27 + 9 * 2 ^ 21 + (d * 2 ^ 16 + (a * 2 ^ 11 + (b * 2 ^ 6 + (k * 2 ^ 3 + 0))))) = _
  rw [hw, decodeWord_op .v g 9 _ wd h0 (by decide) t0 (by decide) hw]
  change decodeV g wd = _
  have em := fld_major g 9 _ wd (by decide) t0 hw
  have f20_19 : fld wd 20 19 = 0 := (fld_body g 9 _ wd 20 19 (by decide) (by decide) hw).trans (fld_above (lt_field (n := 8) h1 t1 (by decide)))
  have f18_16 : fld wd 18 16 = d := (fld_body g 9 _ wd 18 16 (by decide) (by decide) hw).trans (fld_here (n := 8) h1 t1 (by decide))
  have f15_11 : fld wd 15 11 = a := (fld_body g 9 _ wd 15 11 (by decide) (by decide) hw).trans ((fld_below (by decide) (by decide)).trans (fld_here (n := 32) h2 t2 (by decide)))
  have f10_6 : fld wd 10 6 = b := (fld_body g 9 _ wd 10 6 (by decide) (by decide) hw).trans ((fld_below (by decide) (by decide)).trans ((fld_below (by decide) (by decide)).trans (fld_here (n := 32) h3 t3 (by decide))))
  have f5_3 : fld wd 5 3 = k := (fld_body g 9 _ wd 5 3 (by decide) (by decide) hw).trans ((fld_below (by decide) (by decide)).trans ((fld_below (by decide) (by decide)).trans ((fld_below (by decide) (by decide)).trans (fld_here (n := 8) h4 (by decide) (by decide)))))
  have f2_0 : fld wd 2 0 = 0 := (fld_body g 9 _ wd 2 0 (by decide) (by decide) hw).trans ((fld_below (by decide) (by decide)).trans ((fld_below (by decide) (by decide)).trans ((fld_below (by decide) (by decide)).trans ((fld_below (by decide) (by decide)).trans (by decide)))))
  have ha : decodeV g wd = need (fld wd 20 19 = 0) (.ok (.vcmpI32Eq g (fld wd 18 16) (fld wd 15 11) (fld wd 10 6) (fld wd 5 3))) := by
    unfold decodeV; rw [em, f2_0]; rfl
  rw [ha]
  simp only [need, f20_19, f18_16, f15_11, f10_6, f5_3, if_true]

theorem RoundTrip.vcmpI32Ne (g : Guard) (d : Nat) (a : Nat) (b : Nat) (k : Nat) : Statement (.vcmpI32Ne g d a b k) := by
  intro h sl hs
  change (decide (g.pred < 12) && decide (d < 8) && decide (a < 32) && decide (b < 32) && decide (k < 8)) = true at h
  simp only [Bool.and_eq_true, decide_eq_true_eq] at h
  obtain ⟨⟨⟨⟨h0, h1⟩, h2⟩, h3⟩, h4⟩ := h
  obtain rfl : SlotClass.v = sl := Option.some.inj (of_decide_eq_true hs)
  have t4 : (1 * 2 ^ 0 + 0) < 2 ^ 3 := lt_field (n := 2) (Nat.lt_succ_self 1) (by decide) (by decide)
  have t3 : (k * 2 ^ 3 + (1 * 2 ^ 0 + 0)) < 2 ^ 6 := lt_field (n := 8) h4 t4 (by decide)
  have t2 : (b * 2 ^ 6 + (k * 2 ^ 3 + (1 * 2 ^ 0 + 0))) < 2 ^ 11 := lt_field (n := 32) h3 t3 (by decide)
  have t1 : (a * 2 ^ 11 + (b * 2 ^ 6 + (k * 2 ^ 3 + (1 * 2 ^ 0 + 0)))) < 2 ^ 16 := lt_field (n := 32) h2 t2 (by decide)
  have t0 : (d * 2 ^ 16 + (a * 2 ^ 11 + (b * 2 ^ 6 + (k * 2 ^ 3 + (1 * 2 ^ 0 + 0))))) < 2 ^ 21 := lt_field (n := 8) h1 t1 (by decide)
  obtain ⟨wd, hw⟩ : ∃ wd, g.neg.toNat * 2 ^ 31 + g.pred * 2 ^ 27 + 9 * 2 ^ 21 + (d * 2 ^ 16 + (a * 2 ^ 11 + (b * 2 ^ 6 + (k * 2 ^ 3 + (1 * 2 ^ 0 + 0))))) = wd := ⟨_, rfl⟩
  change decodeWord .v (g.neg.toNat * 2 ^ 31 + g.pred * 2 ^ 27 + 9 * 2 ^ 21 + (d * 2 ^ 16 + (a * 2 ^ 11 + (b * 2 ^ 6 + (k * 2 ^ 3 + (1 * 2 ^ 0 + 0)))))) = _
  rw [hw, decodeWord_op .v g 9 _ wd h0 (by decide) t0 (by decide) hw]
  change decodeV g wd = _
  have em := fld_major g 9 _ wd (by decide) t0 hw
  have f20_19 : fld wd 20 19 = 0 := (fld_body g 9 _ wd 20 19 (by decide) (by decide) hw).trans (fld_above (lt_field (n := 8) h1 t1 (by decide)))
  have f18_16 : fld wd 18 16 = d := (fld_body g 9 _ wd 18 16 (by decide) (by decide) hw).trans (fld_here (n := 8) h1 t1 (by decide))
  have f15_11 : fld wd 15 11 = a := (fld_body g 9 _ wd 15 11 (by decide) (by decide) hw).trans ((fld_below (by decide) (by decide)).trans (fld_here (n := 32) h2 t2 (by decide)))
  have f10_6 : fld wd 10 6 = b := (fld_body g 9 _ wd 10 6 (by decide) (by decide) hw).trans ((fld_below (by decide) (by decide)).trans ((fld_below (by decide) (by decide)).trans (fld_here (n := 32) h3 t3 (by decide))))
  have f5_3 : fld wd 5 3 = k := (fld_body g 9 _ wd 5 3 (by decide) (by decide) hw).trans ((fld_below (by decide) (by decide)).trans ((fld_below (by decide) (by decide)).trans ((fld_below (by decide) (by decide)).trans (fld_here (n := 8) h4 t4 (by decide)))))
  have f2_0 : fld wd 2 0 = 1 := (fld_body g 9 _ wd 2 0 (by decide) (by decide) hw).trans ((fld_below (by decide) (by decide)).trans ((fld_below (by decide) (by decide)).trans ((fld_below (by decide) (by decide)).trans ((fld_below (by decide) (by decide)).trans (fld_here (n := 2) (Nat.lt_succ_self 1) (by decide) (by decide))))))
  have ha : decodeV g wd = need (fld wd 20 19 = 0) (.ok (.vcmpI32Ne g (fld wd 18 16) (fld wd 15 11) (fld wd 10 6) (fld wd 5 3))) := by
    unfold decodeV; rw [em, f2_0]; rfl
  rw [ha]
  simp only [need, f20_19, f18_16, f15_11, f10_6, f5_3, if_true]

theorem RoundTrip.vcmpI32Lt (g : Guard) (d : Nat) (a : Nat) (b : Nat) (k : Nat) : Statement (.vcmpI32Lt g d a b k) := by
  intro h sl hs
  change (decide (g.pred < 12) && decide (d < 8) && decide (a < 32) && decide (b < 32) && decide (k < 8)) = true at h
  simp only [Bool.and_eq_true, decide_eq_true_eq] at h
  obtain ⟨⟨⟨⟨h0, h1⟩, h2⟩, h3⟩, h4⟩ := h
  obtain rfl : SlotClass.v = sl := Option.some.inj (of_decide_eq_true hs)
  have t4 : (1 * 2 ^ 1 + 0) < 2 ^ 3 := lt_field (n := 2) (Nat.lt_succ_self 1) (by decide) (by decide)
  have t3 : (k * 2 ^ 3 + (1 * 2 ^ 1 + 0)) < 2 ^ 6 := lt_field (n := 8) h4 t4 (by decide)
  have t2 : (b * 2 ^ 6 + (k * 2 ^ 3 + (1 * 2 ^ 1 + 0))) < 2 ^ 11 := lt_field (n := 32) h3 t3 (by decide)
  have t1 : (a * 2 ^ 11 + (b * 2 ^ 6 + (k * 2 ^ 3 + (1 * 2 ^ 1 + 0)))) < 2 ^ 16 := lt_field (n := 32) h2 t2 (by decide)
  have t0 : (d * 2 ^ 16 + (a * 2 ^ 11 + (b * 2 ^ 6 + (k * 2 ^ 3 + (1 * 2 ^ 1 + 0))))) < 2 ^ 21 := lt_field (n := 8) h1 t1 (by decide)
  obtain ⟨wd, hw⟩ : ∃ wd, g.neg.toNat * 2 ^ 31 + g.pred * 2 ^ 27 + 9 * 2 ^ 21 + (d * 2 ^ 16 + (a * 2 ^ 11 + (b * 2 ^ 6 + (k * 2 ^ 3 + (1 * 2 ^ 1 + 0))))) = wd := ⟨_, rfl⟩
  change decodeWord .v (g.neg.toNat * 2 ^ 31 + g.pred * 2 ^ 27 + 9 * 2 ^ 21 + (d * 2 ^ 16 + (a * 2 ^ 11 + (b * 2 ^ 6 + (k * 2 ^ 3 + (1 * 2 ^ 1 + 0)))))) = _
  rw [hw, decodeWord_op .v g 9 _ wd h0 (by decide) t0 (by decide) hw]
  change decodeV g wd = _
  have em := fld_major g 9 _ wd (by decide) t0 hw
  have f20_19 : fld wd 20 19 = 0 := (fld_body g 9 _ wd 20 19 (by decide) (by decide) hw).trans (fld_above (lt_field (n := 8) h1 t1 (by decide)))
  have f18_16 : fld wd 18 16 = d := (fld_body g 9 _ wd 18 16 (by decide) (by decide) hw).trans (fld_here (n := 8) h1 t1 (by decide))
  have f15_11 : fld wd 15 11 = a := (fld_body g 9 _ wd 15 11 (by decide) (by decide) hw).trans ((fld_below (by decide) (by decide)).trans (fld_here (n := 32) h2 t2 (by decide)))
  have f10_6 : fld wd 10 6 = b := (fld_body g 9 _ wd 10 6 (by decide) (by decide) hw).trans ((fld_below (by decide) (by decide)).trans ((fld_below (by decide) (by decide)).trans (fld_here (n := 32) h3 t3 (by decide))))
  have f5_3 : fld wd 5 3 = k := (fld_body g 9 _ wd 5 3 (by decide) (by decide) hw).trans ((fld_below (by decide) (by decide)).trans ((fld_below (by decide) (by decide)).trans ((fld_below (by decide) (by decide)).trans (fld_here (n := 8) h4 t4 (by decide)))))
  have f2_0 : fld wd 2 0 = 2 := (fld_body g 9 _ wd 2 0 (by decide) (by decide) hw).trans ((fld_below (by decide) (by decide)).trans ((fld_below (by decide) (by decide)).trans ((fld_below (by decide) (by decide)).trans ((fld_below (by decide) (by decide)).trans (by decide)))))
  have ha : decodeV g wd = need (fld wd 20 19 = 0) (.ok (.vcmpI32Lt g (fld wd 18 16) (fld wd 15 11) (fld wd 10 6) (fld wd 5 3))) := by
    unfold decodeV; rw [em, f2_0]; rfl
  rw [ha]
  simp only [need, f20_19, f18_16, f15_11, f10_6, f5_3, if_true]

theorem RoundTrip.vcmpI32Ge (g : Guard) (d : Nat) (a : Nat) (b : Nat) (k : Nat) : Statement (.vcmpI32Ge g d a b k) := by
  intro h sl hs
  change (decide (g.pred < 12) && decide (d < 8) && decide (a < 32) && decide (b < 32) && decide (k < 8)) = true at h
  simp only [Bool.and_eq_true, decide_eq_true_eq] at h
  obtain ⟨⟨⟨⟨h0, h1⟩, h2⟩, h3⟩, h4⟩ := h
  obtain rfl : SlotClass.v = sl := Option.some.inj (of_decide_eq_true hs)
  have t4 : (3 * 2 ^ 0 + 0) < 2 ^ 3 := lt_field (n := 4) (Nat.lt_succ_self 3) (by decide) (by decide)
  have t3 : (k * 2 ^ 3 + (3 * 2 ^ 0 + 0)) < 2 ^ 6 := lt_field (n := 8) h4 t4 (by decide)
  have t2 : (b * 2 ^ 6 + (k * 2 ^ 3 + (3 * 2 ^ 0 + 0))) < 2 ^ 11 := lt_field (n := 32) h3 t3 (by decide)
  have t1 : (a * 2 ^ 11 + (b * 2 ^ 6 + (k * 2 ^ 3 + (3 * 2 ^ 0 + 0)))) < 2 ^ 16 := lt_field (n := 32) h2 t2 (by decide)
  have t0 : (d * 2 ^ 16 + (a * 2 ^ 11 + (b * 2 ^ 6 + (k * 2 ^ 3 + (3 * 2 ^ 0 + 0))))) < 2 ^ 21 := lt_field (n := 8) h1 t1 (by decide)
  obtain ⟨wd, hw⟩ : ∃ wd, g.neg.toNat * 2 ^ 31 + g.pred * 2 ^ 27 + 9 * 2 ^ 21 + (d * 2 ^ 16 + (a * 2 ^ 11 + (b * 2 ^ 6 + (k * 2 ^ 3 + (3 * 2 ^ 0 + 0))))) = wd := ⟨_, rfl⟩
  change decodeWord .v (g.neg.toNat * 2 ^ 31 + g.pred * 2 ^ 27 + 9 * 2 ^ 21 + (d * 2 ^ 16 + (a * 2 ^ 11 + (b * 2 ^ 6 + (k * 2 ^ 3 + (3 * 2 ^ 0 + 0)))))) = _
  rw [hw, decodeWord_op .v g 9 _ wd h0 (by decide) t0 (by decide) hw]
  change decodeV g wd = _
  have em := fld_major g 9 _ wd (by decide) t0 hw
  have f20_19 : fld wd 20 19 = 0 := (fld_body g 9 _ wd 20 19 (by decide) (by decide) hw).trans (fld_above (lt_field (n := 8) h1 t1 (by decide)))
  have f18_16 : fld wd 18 16 = d := (fld_body g 9 _ wd 18 16 (by decide) (by decide) hw).trans (fld_here (n := 8) h1 t1 (by decide))
  have f15_11 : fld wd 15 11 = a := (fld_body g 9 _ wd 15 11 (by decide) (by decide) hw).trans ((fld_below (by decide) (by decide)).trans (fld_here (n := 32) h2 t2 (by decide)))
  have f10_6 : fld wd 10 6 = b := (fld_body g 9 _ wd 10 6 (by decide) (by decide) hw).trans ((fld_below (by decide) (by decide)).trans ((fld_below (by decide) (by decide)).trans (fld_here (n := 32) h3 t3 (by decide))))
  have f5_3 : fld wd 5 3 = k := (fld_body g 9 _ wd 5 3 (by decide) (by decide) hw).trans ((fld_below (by decide) (by decide)).trans ((fld_below (by decide) (by decide)).trans ((fld_below (by decide) (by decide)).trans (fld_here (n := 8) h4 t4 (by decide)))))
  have f2_0 : fld wd 2 0 = 3 := (fld_body g 9 _ wd 2 0 (by decide) (by decide) hw).trans ((fld_below (by decide) (by decide)).trans ((fld_below (by decide) (by decide)).trans ((fld_below (by decide) (by decide)).trans ((fld_below (by decide) (by decide)).trans (fld_here (n := 4) (Nat.lt_succ_self 3) (by decide) (by decide))))))
  have ha : decodeV g wd = need (fld wd 20 19 = 0) (.ok (.vcmpI32Ge g (fld wd 18 16) (fld wd 15 11) (fld wd 10 6) (fld wd 5 3))) := by
    unfold decodeV; rw [em, f2_0]; rfl
  rw [ha]
  simp only [need, f20_19, f18_16, f15_11, f10_6, f5_3, if_true]

theorem RoundTrip.vcmpI32Ltu (g : Guard) (d : Nat) (a : Nat) (b : Nat) (k : Nat) : Statement (.vcmpI32Ltu g d a b k) := by
  intro h sl hs
  change (decide (g.pred < 12) && decide (d < 8) && decide (a < 32) && decide (b < 32) && decide (k < 8)) = true at h
  simp only [Bool.and_eq_true, decide_eq_true_eq] at h
  obtain ⟨⟨⟨⟨h0, h1⟩, h2⟩, h3⟩, h4⟩ := h
  obtain rfl : SlotClass.v = sl := Option.some.inj (of_decide_eq_true hs)
  have t4 : (1 * 2 ^ 2 + 0) < 2 ^ 3 := lt_field (n := 2) (Nat.lt_succ_self 1) (by decide) (by decide)
  have t3 : (k * 2 ^ 3 + (1 * 2 ^ 2 + 0)) < 2 ^ 6 := lt_field (n := 8) h4 t4 (by decide)
  have t2 : (b * 2 ^ 6 + (k * 2 ^ 3 + (1 * 2 ^ 2 + 0))) < 2 ^ 11 := lt_field (n := 32) h3 t3 (by decide)
  have t1 : (a * 2 ^ 11 + (b * 2 ^ 6 + (k * 2 ^ 3 + (1 * 2 ^ 2 + 0)))) < 2 ^ 16 := lt_field (n := 32) h2 t2 (by decide)
  have t0 : (d * 2 ^ 16 + (a * 2 ^ 11 + (b * 2 ^ 6 + (k * 2 ^ 3 + (1 * 2 ^ 2 + 0))))) < 2 ^ 21 := lt_field (n := 8) h1 t1 (by decide)
  obtain ⟨wd, hw⟩ : ∃ wd, g.neg.toNat * 2 ^ 31 + g.pred * 2 ^ 27 + 9 * 2 ^ 21 + (d * 2 ^ 16 + (a * 2 ^ 11 + (b * 2 ^ 6 + (k * 2 ^ 3 + (1 * 2 ^ 2 + 0))))) = wd := ⟨_, rfl⟩
  change decodeWord .v (g.neg.toNat * 2 ^ 31 + g.pred * 2 ^ 27 + 9 * 2 ^ 21 + (d * 2 ^ 16 + (a * 2 ^ 11 + (b * 2 ^ 6 + (k * 2 ^ 3 + (1 * 2 ^ 2 + 0)))))) = _
  rw [hw, decodeWord_op .v g 9 _ wd h0 (by decide) t0 (by decide) hw]
  change decodeV g wd = _
  have em := fld_major g 9 _ wd (by decide) t0 hw
  have f20_19 : fld wd 20 19 = 0 := (fld_body g 9 _ wd 20 19 (by decide) (by decide) hw).trans (fld_above (lt_field (n := 8) h1 t1 (by decide)))
  have f18_16 : fld wd 18 16 = d := (fld_body g 9 _ wd 18 16 (by decide) (by decide) hw).trans (fld_here (n := 8) h1 t1 (by decide))
  have f15_11 : fld wd 15 11 = a := (fld_body g 9 _ wd 15 11 (by decide) (by decide) hw).trans ((fld_below (by decide) (by decide)).trans (fld_here (n := 32) h2 t2 (by decide)))
  have f10_6 : fld wd 10 6 = b := (fld_body g 9 _ wd 10 6 (by decide) (by decide) hw).trans ((fld_below (by decide) (by decide)).trans ((fld_below (by decide) (by decide)).trans (fld_here (n := 32) h3 t3 (by decide))))
  have f5_3 : fld wd 5 3 = k := (fld_body g 9 _ wd 5 3 (by decide) (by decide) hw).trans ((fld_below (by decide) (by decide)).trans ((fld_below (by decide) (by decide)).trans ((fld_below (by decide) (by decide)).trans (fld_here (n := 8) h4 t4 (by decide)))))
  have f2_0 : fld wd 2 0 = 4 := (fld_body g 9 _ wd 2 0 (by decide) (by decide) hw).trans ((fld_below (by decide) (by decide)).trans ((fld_below (by decide) (by decide)).trans ((fld_below (by decide) (by decide)).trans ((fld_below (by decide) (by decide)).trans (by decide)))))
  have ha : decodeV g wd = need (fld wd 20 19 = 0) (.ok (.vcmpI32Ltu g (fld wd 18 16) (fld wd 15 11) (fld wd 10 6) (fld wd 5 3))) := by
    unfold decodeV; rw [em, f2_0]; rfl
  rw [ha]
  simp only [need, f20_19, f18_16, f15_11, f10_6, f5_3, if_true]

theorem RoundTrip.vcmpI32Geu (g : Guard) (d : Nat) (a : Nat) (b : Nat) (k : Nat) : Statement (.vcmpI32Geu g d a b k) := by
  intro h sl hs
  change (decide (g.pred < 12) && decide (d < 8) && decide (a < 32) && decide (b < 32) && decide (k < 8)) = true at h
  simp only [Bool.and_eq_true, decide_eq_true_eq] at h
  obtain ⟨⟨⟨⟨h0, h1⟩, h2⟩, h3⟩, h4⟩ := h
  obtain rfl : SlotClass.v = sl := Option.some.inj (of_decide_eq_true hs)
  have t4 : (5 * 2 ^ 0 + 0) < 2 ^ 3 := lt_field (n := 6) (Nat.lt_succ_self 5) (by decide) (by decide)
  have t3 : (k * 2 ^ 3 + (5 * 2 ^ 0 + 0)) < 2 ^ 6 := lt_field (n := 8) h4 t4 (by decide)
  have t2 : (b * 2 ^ 6 + (k * 2 ^ 3 + (5 * 2 ^ 0 + 0))) < 2 ^ 11 := lt_field (n := 32) h3 t3 (by decide)
  have t1 : (a * 2 ^ 11 + (b * 2 ^ 6 + (k * 2 ^ 3 + (5 * 2 ^ 0 + 0)))) < 2 ^ 16 := lt_field (n := 32) h2 t2 (by decide)
  have t0 : (d * 2 ^ 16 + (a * 2 ^ 11 + (b * 2 ^ 6 + (k * 2 ^ 3 + (5 * 2 ^ 0 + 0))))) < 2 ^ 21 := lt_field (n := 8) h1 t1 (by decide)
  obtain ⟨wd, hw⟩ : ∃ wd, g.neg.toNat * 2 ^ 31 + g.pred * 2 ^ 27 + 9 * 2 ^ 21 + (d * 2 ^ 16 + (a * 2 ^ 11 + (b * 2 ^ 6 + (k * 2 ^ 3 + (5 * 2 ^ 0 + 0))))) = wd := ⟨_, rfl⟩
  change decodeWord .v (g.neg.toNat * 2 ^ 31 + g.pred * 2 ^ 27 + 9 * 2 ^ 21 + (d * 2 ^ 16 + (a * 2 ^ 11 + (b * 2 ^ 6 + (k * 2 ^ 3 + (5 * 2 ^ 0 + 0)))))) = _
  rw [hw, decodeWord_op .v g 9 _ wd h0 (by decide) t0 (by decide) hw]
  change decodeV g wd = _
  have em := fld_major g 9 _ wd (by decide) t0 hw
  have f20_19 : fld wd 20 19 = 0 := (fld_body g 9 _ wd 20 19 (by decide) (by decide) hw).trans (fld_above (lt_field (n := 8) h1 t1 (by decide)))
  have f18_16 : fld wd 18 16 = d := (fld_body g 9 _ wd 18 16 (by decide) (by decide) hw).trans (fld_here (n := 8) h1 t1 (by decide))
  have f15_11 : fld wd 15 11 = a := (fld_body g 9 _ wd 15 11 (by decide) (by decide) hw).trans ((fld_below (by decide) (by decide)).trans (fld_here (n := 32) h2 t2 (by decide)))
  have f10_6 : fld wd 10 6 = b := (fld_body g 9 _ wd 10 6 (by decide) (by decide) hw).trans ((fld_below (by decide) (by decide)).trans ((fld_below (by decide) (by decide)).trans (fld_here (n := 32) h3 t3 (by decide))))
  have f5_3 : fld wd 5 3 = k := (fld_body g 9 _ wd 5 3 (by decide) (by decide) hw).trans ((fld_below (by decide) (by decide)).trans ((fld_below (by decide) (by decide)).trans ((fld_below (by decide) (by decide)).trans (fld_here (n := 8) h4 t4 (by decide)))))
  have f2_0 : fld wd 2 0 = 5 := (fld_body g 9 _ wd 2 0 (by decide) (by decide) hw).trans ((fld_below (by decide) (by decide)).trans ((fld_below (by decide) (by decide)).trans ((fld_below (by decide) (by decide)).trans ((fld_below (by decide) (by decide)).trans (fld_here (n := 6) (Nat.lt_succ_self 5) (by decide) (by decide))))))
  have ha : decodeV g wd = need (fld wd 20 19 = 0) (.ok (.vcmpI32Geu g (fld wd 18 16) (fld wd 15 11) (fld wd 10 6) (fld wd 5 3))) := by
    unfold decodeV; rw [em, f2_0]; rfl
  rw [ha]
  simp only [need, f20_19, f18_16, f15_11, f10_6, f5_3, if_true]

theorem RoundTrip.vaddI32 (g : Guard) (d : Nat) (a : Nat) (b : Nat) (k : Nat) : Statement (.vaddI32 g d a b k) := by
  intro h sl hs
  change (decide (g.pred < 12) && decide (d < 32) && decide (a < 32) && decide (b < 32) && decide (k < 8)) = true at h
  simp only [Bool.and_eq_true, decide_eq_true_eq] at h
  obtain ⟨⟨⟨⟨h0, h1⟩, h2⟩, h3⟩, h4⟩ := h
  obtain rfl : SlotClass.v = sl := Option.some.inj (of_decide_eq_true hs)
  have t3 : (k * 2 ^ 3 + 0) < 2 ^ 6 := lt_field (n := 8) h4 (by decide) (by decide)
  have t2 : (b * 2 ^ 6 + (k * 2 ^ 3 + 0)) < 2 ^ 11 := lt_field (n := 32) h3 t3 (by decide)
  have t1 : (a * 2 ^ 11 + (b * 2 ^ 6 + (k * 2 ^ 3 + 0))) < 2 ^ 16 := lt_field (n := 32) h2 t2 (by decide)
  have t0 : (d * 2 ^ 16 + (a * 2 ^ 11 + (b * 2 ^ 6 + (k * 2 ^ 3 + 0)))) < 2 ^ 21 := lt_field (n := 32) h1 t1 (by decide)
  obtain ⟨wd, hw⟩ : ∃ wd, g.neg.toNat * 2 ^ 31 + g.pred * 2 ^ 27 + 10 * 2 ^ 21 + (d * 2 ^ 16 + (a * 2 ^ 11 + (b * 2 ^ 6 + (k * 2 ^ 3 + 0)))) = wd := ⟨_, rfl⟩
  change decodeWord .v (g.neg.toNat * 2 ^ 31 + g.pred * 2 ^ 27 + 10 * 2 ^ 21 + (d * 2 ^ 16 + (a * 2 ^ 11 + (b * 2 ^ 6 + (k * 2 ^ 3 + 0))))) = _
  rw [hw, decodeWord_op .v g 10 _ wd h0 (by decide) t0 (by decide) hw]
  change decodeV g wd = _
  have em := fld_major g 10 _ wd (by decide) t0 hw
  have f20_16 : fld wd 20 16 = d := (fld_body g 10 _ wd 20 16 (by decide) (by decide) hw).trans (fld_here (n := 32) h1 t1 (by decide))
  have f15_11 : fld wd 15 11 = a := (fld_body g 10 _ wd 15 11 (by decide) (by decide) hw).trans ((fld_below (by decide) (by decide)).trans (fld_here (n := 32) h2 t2 (by decide)))
  have f10_6 : fld wd 10 6 = b := (fld_body g 10 _ wd 10 6 (by decide) (by decide) hw).trans ((fld_below (by decide) (by decide)).trans ((fld_below (by decide) (by decide)).trans (fld_here (n := 32) h3 t3 (by decide))))
  have f5_3 : fld wd 5 3 = k := (fld_body g 10 _ wd 5 3 (by decide) (by decide) hw).trans ((fld_below (by decide) (by decide)).trans ((fld_below (by decide) (by decide)).trans ((fld_below (by decide) (by decide)).trans (fld_here (n := 8) h4 (by decide) (by decide)))))
  have f2_0 : fld wd 2 0 = 0 := (fld_body g 10 _ wd 2 0 (by decide) (by decide) hw).trans ((fld_below (by decide) (by decide)).trans ((fld_below (by decide) (by decide)).trans ((fld_below (by decide) (by decide)).trans ((fld_below (by decide) (by decide)).trans (by decide)))))
  have ha : decodeV g wd = .ok (.vaddI32 g (fld wd 20 16) (fld wd 15 11) (fld wd 10 6) (fld wd 5 3)) := by
    unfold decodeV; rw [em, f2_0]; rfl
  rw [ha]
  rw [f20_16, f15_11, f10_6, f5_3]

theorem RoundTrip.vsubI32 (g : Guard) (d : Nat) (a : Nat) (b : Nat) (k : Nat) : Statement (.vsubI32 g d a b k) := by
  intro h sl hs
  change (decide (g.pred < 12) && decide (d < 32) && decide (a < 32) && decide (b < 32) && decide (k < 8)) = true at h
  simp only [Bool.and_eq_true, decide_eq_true_eq] at h
  obtain ⟨⟨⟨⟨h0, h1⟩, h2⟩, h3⟩, h4⟩ := h
  obtain rfl : SlotClass.v = sl := Option.some.inj (of_decide_eq_true hs)
  have t4 : (1 * 2 ^ 0 + 0) < 2 ^ 3 := lt_field (n := 2) (Nat.lt_succ_self 1) (by decide) (by decide)
  have t3 : (k * 2 ^ 3 + (1 * 2 ^ 0 + 0)) < 2 ^ 6 := lt_field (n := 8) h4 t4 (by decide)
  have t2 : (b * 2 ^ 6 + (k * 2 ^ 3 + (1 * 2 ^ 0 + 0))) < 2 ^ 11 := lt_field (n := 32) h3 t3 (by decide)
  have t1 : (a * 2 ^ 11 + (b * 2 ^ 6 + (k * 2 ^ 3 + (1 * 2 ^ 0 + 0)))) < 2 ^ 16 := lt_field (n := 32) h2 t2 (by decide)
  have t0 : (d * 2 ^ 16 + (a * 2 ^ 11 + (b * 2 ^ 6 + (k * 2 ^ 3 + (1 * 2 ^ 0 + 0))))) < 2 ^ 21 := lt_field (n := 32) h1 t1 (by decide)
  obtain ⟨wd, hw⟩ : ∃ wd, g.neg.toNat * 2 ^ 31 + g.pred * 2 ^ 27 + 10 * 2 ^ 21 + (d * 2 ^ 16 + (a * 2 ^ 11 + (b * 2 ^ 6 + (k * 2 ^ 3 + (1 * 2 ^ 0 + 0))))) = wd := ⟨_, rfl⟩
  change decodeWord .v (g.neg.toNat * 2 ^ 31 + g.pred * 2 ^ 27 + 10 * 2 ^ 21 + (d * 2 ^ 16 + (a * 2 ^ 11 + (b * 2 ^ 6 + (k * 2 ^ 3 + (1 * 2 ^ 0 + 0)))))) = _
  rw [hw, decodeWord_op .v g 10 _ wd h0 (by decide) t0 (by decide) hw]
  change decodeV g wd = _
  have em := fld_major g 10 _ wd (by decide) t0 hw
  have f20_16 : fld wd 20 16 = d := (fld_body g 10 _ wd 20 16 (by decide) (by decide) hw).trans (fld_here (n := 32) h1 t1 (by decide))
  have f15_11 : fld wd 15 11 = a := (fld_body g 10 _ wd 15 11 (by decide) (by decide) hw).trans ((fld_below (by decide) (by decide)).trans (fld_here (n := 32) h2 t2 (by decide)))
  have f10_6 : fld wd 10 6 = b := (fld_body g 10 _ wd 10 6 (by decide) (by decide) hw).trans ((fld_below (by decide) (by decide)).trans ((fld_below (by decide) (by decide)).trans (fld_here (n := 32) h3 t3 (by decide))))
  have f5_3 : fld wd 5 3 = k := (fld_body g 10 _ wd 5 3 (by decide) (by decide) hw).trans ((fld_below (by decide) (by decide)).trans ((fld_below (by decide) (by decide)).trans ((fld_below (by decide) (by decide)).trans (fld_here (n := 8) h4 t4 (by decide)))))
  have f2_0 : fld wd 2 0 = 1 := (fld_body g 10 _ wd 2 0 (by decide) (by decide) hw).trans ((fld_below (by decide) (by decide)).trans ((fld_below (by decide) (by decide)).trans ((fld_below (by decide) (by decide)).trans ((fld_below (by decide) (by decide)).trans (fld_here (n := 2) (Nat.lt_succ_self 1) (by decide) (by decide))))))
  have ha : decodeV g wd = .ok (.vsubI32 g (fld wd 20 16) (fld wd 15 11) (fld wd 10 6) (fld wd 5 3)) := by
    unfold decodeV; rw [em, f2_0]; rfl
  rw [ha]
  rw [f20_16, f15_11, f10_6, f5_3]

theorem RoundTrip.vmulI32 (g : Guard) (d : Nat) (a : Nat) (b : Nat) (k : Nat) : Statement (.vmulI32 g d a b k) := by
  intro h sl hs
  change (decide (g.pred < 12) && decide (d < 32) && decide (a < 32) && decide (b < 32) && decide (k < 8)) = true at h
  simp only [Bool.and_eq_true, decide_eq_true_eq] at h
  obtain ⟨⟨⟨⟨h0, h1⟩, h2⟩, h3⟩, h4⟩ := h
  obtain rfl : SlotClass.v = sl := Option.some.inj (of_decide_eq_true hs)
  have t4 : (1 * 2 ^ 1 + 0) < 2 ^ 3 := lt_field (n := 2) (Nat.lt_succ_self 1) (by decide) (by decide)
  have t3 : (k * 2 ^ 3 + (1 * 2 ^ 1 + 0)) < 2 ^ 6 := lt_field (n := 8) h4 t4 (by decide)
  have t2 : (b * 2 ^ 6 + (k * 2 ^ 3 + (1 * 2 ^ 1 + 0))) < 2 ^ 11 := lt_field (n := 32) h3 t3 (by decide)
  have t1 : (a * 2 ^ 11 + (b * 2 ^ 6 + (k * 2 ^ 3 + (1 * 2 ^ 1 + 0)))) < 2 ^ 16 := lt_field (n := 32) h2 t2 (by decide)
  have t0 : (d * 2 ^ 16 + (a * 2 ^ 11 + (b * 2 ^ 6 + (k * 2 ^ 3 + (1 * 2 ^ 1 + 0))))) < 2 ^ 21 := lt_field (n := 32) h1 t1 (by decide)
  obtain ⟨wd, hw⟩ : ∃ wd, g.neg.toNat * 2 ^ 31 + g.pred * 2 ^ 27 + 10 * 2 ^ 21 + (d * 2 ^ 16 + (a * 2 ^ 11 + (b * 2 ^ 6 + (k * 2 ^ 3 + (1 * 2 ^ 1 + 0))))) = wd := ⟨_, rfl⟩
  change decodeWord .v (g.neg.toNat * 2 ^ 31 + g.pred * 2 ^ 27 + 10 * 2 ^ 21 + (d * 2 ^ 16 + (a * 2 ^ 11 + (b * 2 ^ 6 + (k * 2 ^ 3 + (1 * 2 ^ 1 + 0)))))) = _
  rw [hw, decodeWord_op .v g 10 _ wd h0 (by decide) t0 (by decide) hw]
  change decodeV g wd = _
  have em := fld_major g 10 _ wd (by decide) t0 hw
  have f20_16 : fld wd 20 16 = d := (fld_body g 10 _ wd 20 16 (by decide) (by decide) hw).trans (fld_here (n := 32) h1 t1 (by decide))
  have f15_11 : fld wd 15 11 = a := (fld_body g 10 _ wd 15 11 (by decide) (by decide) hw).trans ((fld_below (by decide) (by decide)).trans (fld_here (n := 32) h2 t2 (by decide)))
  have f10_6 : fld wd 10 6 = b := (fld_body g 10 _ wd 10 6 (by decide) (by decide) hw).trans ((fld_below (by decide) (by decide)).trans ((fld_below (by decide) (by decide)).trans (fld_here (n := 32) h3 t3 (by decide))))
  have f5_3 : fld wd 5 3 = k := (fld_body g 10 _ wd 5 3 (by decide) (by decide) hw).trans ((fld_below (by decide) (by decide)).trans ((fld_below (by decide) (by decide)).trans ((fld_below (by decide) (by decide)).trans (fld_here (n := 8) h4 t4 (by decide)))))
  have f2_0 : fld wd 2 0 = 2 := (fld_body g 10 _ wd 2 0 (by decide) (by decide) hw).trans ((fld_below (by decide) (by decide)).trans ((fld_below (by decide) (by decide)).trans ((fld_below (by decide) (by decide)).trans ((fld_below (by decide) (by decide)).trans (by decide)))))
  have ha : decodeV g wd = .ok (.vmulI32 g (fld wd 20 16) (fld wd 15 11) (fld wd 10 6) (fld wd 5 3)) := by
    unfold decodeV; rw [em, f2_0]; rfl
  rw [ha]
  rw [f20_16, f15_11, f10_6, f5_3]

theorem RoundTrip.vmulhI32 (g : Guard) (d : Nat) (a : Nat) (b : Nat) (k : Nat) : Statement (.vmulhI32 g d a b k) := by
  intro h sl hs
  change (decide (g.pred < 12) && decide (d < 32) && decide (a < 32) && decide (b < 32) && decide (k < 8)) = true at h
  simp only [Bool.and_eq_true, decide_eq_true_eq] at h
  obtain ⟨⟨⟨⟨h0, h1⟩, h2⟩, h3⟩, h4⟩ := h
  obtain rfl : SlotClass.v = sl := Option.some.inj (of_decide_eq_true hs)
  have t4 : (3 * 2 ^ 0 + 0) < 2 ^ 3 := lt_field (n := 4) (Nat.lt_succ_self 3) (by decide) (by decide)
  have t3 : (k * 2 ^ 3 + (3 * 2 ^ 0 + 0)) < 2 ^ 6 := lt_field (n := 8) h4 t4 (by decide)
  have t2 : (b * 2 ^ 6 + (k * 2 ^ 3 + (3 * 2 ^ 0 + 0))) < 2 ^ 11 := lt_field (n := 32) h3 t3 (by decide)
  have t1 : (a * 2 ^ 11 + (b * 2 ^ 6 + (k * 2 ^ 3 + (3 * 2 ^ 0 + 0)))) < 2 ^ 16 := lt_field (n := 32) h2 t2 (by decide)
  have t0 : (d * 2 ^ 16 + (a * 2 ^ 11 + (b * 2 ^ 6 + (k * 2 ^ 3 + (3 * 2 ^ 0 + 0))))) < 2 ^ 21 := lt_field (n := 32) h1 t1 (by decide)
  obtain ⟨wd, hw⟩ : ∃ wd, g.neg.toNat * 2 ^ 31 + g.pred * 2 ^ 27 + 10 * 2 ^ 21 + (d * 2 ^ 16 + (a * 2 ^ 11 + (b * 2 ^ 6 + (k * 2 ^ 3 + (3 * 2 ^ 0 + 0))))) = wd := ⟨_, rfl⟩
  change decodeWord .v (g.neg.toNat * 2 ^ 31 + g.pred * 2 ^ 27 + 10 * 2 ^ 21 + (d * 2 ^ 16 + (a * 2 ^ 11 + (b * 2 ^ 6 + (k * 2 ^ 3 + (3 * 2 ^ 0 + 0)))))) = _
  rw [hw, decodeWord_op .v g 10 _ wd h0 (by decide) t0 (by decide) hw]
  change decodeV g wd = _
  have em := fld_major g 10 _ wd (by decide) t0 hw
  have f20_16 : fld wd 20 16 = d := (fld_body g 10 _ wd 20 16 (by decide) (by decide) hw).trans (fld_here (n := 32) h1 t1 (by decide))
  have f15_11 : fld wd 15 11 = a := (fld_body g 10 _ wd 15 11 (by decide) (by decide) hw).trans ((fld_below (by decide) (by decide)).trans (fld_here (n := 32) h2 t2 (by decide)))
  have f10_6 : fld wd 10 6 = b := (fld_body g 10 _ wd 10 6 (by decide) (by decide) hw).trans ((fld_below (by decide) (by decide)).trans ((fld_below (by decide) (by decide)).trans (fld_here (n := 32) h3 t3 (by decide))))
  have f5_3 : fld wd 5 3 = k := (fld_body g 10 _ wd 5 3 (by decide) (by decide) hw).trans ((fld_below (by decide) (by decide)).trans ((fld_below (by decide) (by decide)).trans ((fld_below (by decide) (by decide)).trans (fld_here (n := 8) h4 t4 (by decide)))))
  have f2_0 : fld wd 2 0 = 3 := (fld_body g 10 _ wd 2 0 (by decide) (by decide) hw).trans ((fld_below (by decide) (by decide)).trans ((fld_below (by decide) (by decide)).trans ((fld_below (by decide) (by decide)).trans ((fld_below (by decide) (by decide)).trans (fld_here (n := 4) (Nat.lt_succ_self 3) (by decide) (by decide))))))
  have ha : decodeV g wd = .ok (.vmulhI32 g (fld wd 20 16) (fld wd 15 11) (fld wd 10 6) (fld wd 5 3)) := by
    unfold decodeV; rw [em, f2_0]; rfl
  rw [ha]
  rw [f20_16, f15_11, f10_6, f5_3]

theorem RoundTrip.vminI32 (g : Guard) (d : Nat) (a : Nat) (b : Nat) (k : Nat) : Statement (.vminI32 g d a b k) := by
  intro h sl hs
  change (decide (g.pred < 12) && decide (d < 32) && decide (a < 32) && decide (b < 32) && decide (k < 8)) = true at h
  simp only [Bool.and_eq_true, decide_eq_true_eq] at h
  obtain ⟨⟨⟨⟨h0, h1⟩, h2⟩, h3⟩, h4⟩ := h
  obtain rfl : SlotClass.v = sl := Option.some.inj (of_decide_eq_true hs)
  have t4 : (1 * 2 ^ 2 + 0) < 2 ^ 3 := lt_field (n := 2) (Nat.lt_succ_self 1) (by decide) (by decide)
  have t3 : (k * 2 ^ 3 + (1 * 2 ^ 2 + 0)) < 2 ^ 6 := lt_field (n := 8) h4 t4 (by decide)
  have t2 : (b * 2 ^ 6 + (k * 2 ^ 3 + (1 * 2 ^ 2 + 0))) < 2 ^ 11 := lt_field (n := 32) h3 t3 (by decide)
  have t1 : (a * 2 ^ 11 + (b * 2 ^ 6 + (k * 2 ^ 3 + (1 * 2 ^ 2 + 0)))) < 2 ^ 16 := lt_field (n := 32) h2 t2 (by decide)
  have t0 : (d * 2 ^ 16 + (a * 2 ^ 11 + (b * 2 ^ 6 + (k * 2 ^ 3 + (1 * 2 ^ 2 + 0))))) < 2 ^ 21 := lt_field (n := 32) h1 t1 (by decide)
  obtain ⟨wd, hw⟩ : ∃ wd, g.neg.toNat * 2 ^ 31 + g.pred * 2 ^ 27 + 10 * 2 ^ 21 + (d * 2 ^ 16 + (a * 2 ^ 11 + (b * 2 ^ 6 + (k * 2 ^ 3 + (1 * 2 ^ 2 + 0))))) = wd := ⟨_, rfl⟩
  change decodeWord .v (g.neg.toNat * 2 ^ 31 + g.pred * 2 ^ 27 + 10 * 2 ^ 21 + (d * 2 ^ 16 + (a * 2 ^ 11 + (b * 2 ^ 6 + (k * 2 ^ 3 + (1 * 2 ^ 2 + 0)))))) = _
  rw [hw, decodeWord_op .v g 10 _ wd h0 (by decide) t0 (by decide) hw]
  change decodeV g wd = _
  have em := fld_major g 10 _ wd (by decide) t0 hw
  have f20_16 : fld wd 20 16 = d := (fld_body g 10 _ wd 20 16 (by decide) (by decide) hw).trans (fld_here (n := 32) h1 t1 (by decide))
  have f15_11 : fld wd 15 11 = a := (fld_body g 10 _ wd 15 11 (by decide) (by decide) hw).trans ((fld_below (by decide) (by decide)).trans (fld_here (n := 32) h2 t2 (by decide)))
  have f10_6 : fld wd 10 6 = b := (fld_body g 10 _ wd 10 6 (by decide) (by decide) hw).trans ((fld_below (by decide) (by decide)).trans ((fld_below (by decide) (by decide)).trans (fld_here (n := 32) h3 t3 (by decide))))
  have f5_3 : fld wd 5 3 = k := (fld_body g 10 _ wd 5 3 (by decide) (by decide) hw).trans ((fld_below (by decide) (by decide)).trans ((fld_below (by decide) (by decide)).trans ((fld_below (by decide) (by decide)).trans (fld_here (n := 8) h4 t4 (by decide)))))
  have f2_0 : fld wd 2 0 = 4 := (fld_body g 10 _ wd 2 0 (by decide) (by decide) hw).trans ((fld_below (by decide) (by decide)).trans ((fld_below (by decide) (by decide)).trans ((fld_below (by decide) (by decide)).trans ((fld_below (by decide) (by decide)).trans (by decide)))))
  have ha : decodeV g wd = .ok (.vminI32 g (fld wd 20 16) (fld wd 15 11) (fld wd 10 6) (fld wd 5 3)) := by
    unfold decodeV; rw [em, f2_0]; rfl
  rw [ha]
  rw [f20_16, f15_11, f10_6, f5_3]

theorem RoundTrip.vmaxI32 (g : Guard) (d : Nat) (a : Nat) (b : Nat) (k : Nat) : Statement (.vmaxI32 g d a b k) := by
  intro h sl hs
  change (decide (g.pred < 12) && decide (d < 32) && decide (a < 32) && decide (b < 32) && decide (k < 8)) = true at h
  simp only [Bool.and_eq_true, decide_eq_true_eq] at h
  obtain ⟨⟨⟨⟨h0, h1⟩, h2⟩, h3⟩, h4⟩ := h
  obtain rfl : SlotClass.v = sl := Option.some.inj (of_decide_eq_true hs)
  have t4 : (5 * 2 ^ 0 + 0) < 2 ^ 3 := lt_field (n := 6) (Nat.lt_succ_self 5) (by decide) (by decide)
  have t3 : (k * 2 ^ 3 + (5 * 2 ^ 0 + 0)) < 2 ^ 6 := lt_field (n := 8) h4 t4 (by decide)
  have t2 : (b * 2 ^ 6 + (k * 2 ^ 3 + (5 * 2 ^ 0 + 0))) < 2 ^ 11 := lt_field (n := 32) h3 t3 (by decide)
  have t1 : (a * 2 ^ 11 + (b * 2 ^ 6 + (k * 2 ^ 3 + (5 * 2 ^ 0 + 0)))) < 2 ^ 16 := lt_field (n := 32) h2 t2 (by decide)
  have t0 : (d * 2 ^ 16 + (a * 2 ^ 11 + (b * 2 ^ 6 + (k * 2 ^ 3 + (5 * 2 ^ 0 + 0))))) < 2 ^ 21 := lt_field (n := 32) h1 t1 (by decide)
  obtain ⟨wd, hw⟩ : ∃ wd, g.neg.toNat * 2 ^ 31 + g.pred * 2 ^ 27 + 10 * 2 ^ 21 + (d * 2 ^ 16 + (a * 2 ^ 11 + (b * 2 ^ 6 + (k * 2 ^ 3 + (5 * 2 ^ 0 + 0))))) = wd := ⟨_, rfl⟩
  change decodeWord .v (g.neg.toNat * 2 ^ 31 + g.pred * 2 ^ 27 + 10 * 2 ^ 21 + (d * 2 ^ 16 + (a * 2 ^ 11 + (b * 2 ^ 6 + (k * 2 ^ 3 + (5 * 2 ^ 0 + 0)))))) = _
  rw [hw, decodeWord_op .v g 10 _ wd h0 (by decide) t0 (by decide) hw]
  change decodeV g wd = _
  have em := fld_major g 10 _ wd (by decide) t0 hw
  have f20_16 : fld wd 20 16 = d := (fld_body g 10 _ wd 20 16 (by decide) (by decide) hw).trans (fld_here (n := 32) h1 t1 (by decide))
  have f15_11 : fld wd 15 11 = a := (fld_body g 10 _ wd 15 11 (by decide) (by decide) hw).trans ((fld_below (by decide) (by decide)).trans (fld_here (n := 32) h2 t2 (by decide)))
  have f10_6 : fld wd 10 6 = b := (fld_body g 10 _ wd 10 6 (by decide) (by decide) hw).trans ((fld_below (by decide) (by decide)).trans ((fld_below (by decide) (by decide)).trans (fld_here (n := 32) h3 t3 (by decide))))
  have f5_3 : fld wd 5 3 = k := (fld_body g 10 _ wd 5 3 (by decide) (by decide) hw).trans ((fld_below (by decide) (by decide)).trans ((fld_below (by decide) (by decide)).trans ((fld_below (by decide) (by decide)).trans (fld_here (n := 8) h4 t4 (by decide)))))
  have f2_0 : fld wd 2 0 = 5 := (fld_body g 10 _ wd 2 0 (by decide) (by decide) hw).trans ((fld_below (by decide) (by decide)).trans ((fld_below (by decide) (by decide)).trans ((fld_below (by decide) (by decide)).trans ((fld_below (by decide) (by decide)).trans (fld_here (n := 6) (Nat.lt_succ_self 5) (by decide) (by decide))))))
  have ha : decodeV g wd = .ok (.vmaxI32 g (fld wd 20 16) (fld wd 15 11) (fld wd 10 6) (fld wd 5 3)) := by
    unfold decodeV; rw [em, f2_0]; rfl
  rw [ha]
  rw [f20_16, f15_11, f10_6, f5_3]

theorem RoundTrip.vminN32 (g : Guard) (d : Nat) (a : Nat) (b : Nat) (k : Nat) : Statement (.vminN32 g d a b k) := by
  intro h sl hs
  change (decide (g.pred < 12) && decide (d < 32) && decide (a < 32) && decide (b < 32) && decide (k < 8)) = true at h
  simp only [Bool.and_eq_true, decide_eq_true_eq] at h
  obtain ⟨⟨⟨⟨h0, h1⟩, h2⟩, h3⟩, h4⟩ := h
  obtain rfl : SlotClass.v = sl := Option.some.inj (of_decide_eq_true hs)
  have t4 : (3 * 2 ^ 1 + 0) < 2 ^ 3 := lt_field (n := 4) (Nat.lt_succ_self 3) (by decide) (by decide)
  have t3 : (k * 2 ^ 3 + (3 * 2 ^ 1 + 0)) < 2 ^ 6 := lt_field (n := 8) h4 t4 (by decide)
  have t2 : (b * 2 ^ 6 + (k * 2 ^ 3 + (3 * 2 ^ 1 + 0))) < 2 ^ 11 := lt_field (n := 32) h3 t3 (by decide)
  have t1 : (a * 2 ^ 11 + (b * 2 ^ 6 + (k * 2 ^ 3 + (3 * 2 ^ 1 + 0)))) < 2 ^ 16 := lt_field (n := 32) h2 t2 (by decide)
  have t0 : (d * 2 ^ 16 + (a * 2 ^ 11 + (b * 2 ^ 6 + (k * 2 ^ 3 + (3 * 2 ^ 1 + 0))))) < 2 ^ 21 := lt_field (n := 32) h1 t1 (by decide)
  obtain ⟨wd, hw⟩ : ∃ wd, g.neg.toNat * 2 ^ 31 + g.pred * 2 ^ 27 + 10 * 2 ^ 21 + (d * 2 ^ 16 + (a * 2 ^ 11 + (b * 2 ^ 6 + (k * 2 ^ 3 + (3 * 2 ^ 1 + 0))))) = wd := ⟨_, rfl⟩
  change decodeWord .v (g.neg.toNat * 2 ^ 31 + g.pred * 2 ^ 27 + 10 * 2 ^ 21 + (d * 2 ^ 16 + (a * 2 ^ 11 + (b * 2 ^ 6 + (k * 2 ^ 3 + (3 * 2 ^ 1 + 0)))))) = _
  rw [hw, decodeWord_op .v g 10 _ wd h0 (by decide) t0 (by decide) hw]
  change decodeV g wd = _
  have em := fld_major g 10 _ wd (by decide) t0 hw
  have f20_16 : fld wd 20 16 = d := (fld_body g 10 _ wd 20 16 (by decide) (by decide) hw).trans (fld_here (n := 32) h1 t1 (by decide))
  have f15_11 : fld wd 15 11 = a := (fld_body g 10 _ wd 15 11 (by decide) (by decide) hw).trans ((fld_below (by decide) (by decide)).trans (fld_here (n := 32) h2 t2 (by decide)))
  have f10_6 : fld wd 10 6 = b := (fld_body g 10 _ wd 10 6 (by decide) (by decide) hw).trans ((fld_below (by decide) (by decide)).trans ((fld_below (by decide) (by decide)).trans (fld_here (n := 32) h3 t3 (by decide))))
  have f5_3 : fld wd 5 3 = k := (fld_body g 10 _ wd 5 3 (by decide) (by decide) hw).trans ((fld_below (by decide) (by decide)).trans ((fld_below (by decide) (by decide)).trans ((fld_below (by decide) (by decide)).trans (fld_here (n := 8) h4 t4 (by decide)))))
  have f2_0 : fld wd 2 0 = 6 := (fld_body g 10 _ wd 2 0 (by decide) (by decide) hw).trans ((fld_below (by decide) (by decide)).trans ((fld_below (by decide) (by decide)).trans ((fld_below (by decide) (by decide)).trans ((fld_below (by decide) (by decide)).trans (by decide)))))
  have ha : decodeV g wd = .ok (.vminN32 g (fld wd 20 16) (fld wd 15 11) (fld wd 10 6) (fld wd 5 3)) := by
    unfold decodeV; rw [em, f2_0]; rfl
  rw [ha]
  rw [f20_16, f15_11, f10_6, f5_3]

theorem RoundTrip.vmaxN32 (g : Guard) (d : Nat) (a : Nat) (b : Nat) (k : Nat) : Statement (.vmaxN32 g d a b k) := by
  intro h sl hs
  change (decide (g.pred < 12) && decide (d < 32) && decide (a < 32) && decide (b < 32) && decide (k < 8)) = true at h
  simp only [Bool.and_eq_true, decide_eq_true_eq] at h
  obtain ⟨⟨⟨⟨h0, h1⟩, h2⟩, h3⟩, h4⟩ := h
  obtain rfl : SlotClass.v = sl := Option.some.inj (of_decide_eq_true hs)
  have t4 : (7 * 2 ^ 0 + 0) < 2 ^ 3 := lt_field (n := 8) (Nat.lt_succ_self 7) (by decide) (by decide)
  have t3 : (k * 2 ^ 3 + (7 * 2 ^ 0 + 0)) < 2 ^ 6 := lt_field (n := 8) h4 t4 (by decide)
  have t2 : (b * 2 ^ 6 + (k * 2 ^ 3 + (7 * 2 ^ 0 + 0))) < 2 ^ 11 := lt_field (n := 32) h3 t3 (by decide)
  have t1 : (a * 2 ^ 11 + (b * 2 ^ 6 + (k * 2 ^ 3 + (7 * 2 ^ 0 + 0)))) < 2 ^ 16 := lt_field (n := 32) h2 t2 (by decide)
  have t0 : (d * 2 ^ 16 + (a * 2 ^ 11 + (b * 2 ^ 6 + (k * 2 ^ 3 + (7 * 2 ^ 0 + 0))))) < 2 ^ 21 := lt_field (n := 32) h1 t1 (by decide)
  obtain ⟨wd, hw⟩ : ∃ wd, g.neg.toNat * 2 ^ 31 + g.pred * 2 ^ 27 + 10 * 2 ^ 21 + (d * 2 ^ 16 + (a * 2 ^ 11 + (b * 2 ^ 6 + (k * 2 ^ 3 + (7 * 2 ^ 0 + 0))))) = wd := ⟨_, rfl⟩
  change decodeWord .v (g.neg.toNat * 2 ^ 31 + g.pred * 2 ^ 27 + 10 * 2 ^ 21 + (d * 2 ^ 16 + (a * 2 ^ 11 + (b * 2 ^ 6 + (k * 2 ^ 3 + (7 * 2 ^ 0 + 0)))))) = _
  rw [hw, decodeWord_op .v g 10 _ wd h0 (by decide) t0 (by decide) hw]
  change decodeV g wd = _
  have em := fld_major g 10 _ wd (by decide) t0 hw
  have f20_16 : fld wd 20 16 = d := (fld_body g 10 _ wd 20 16 (by decide) (by decide) hw).trans (fld_here (n := 32) h1 t1 (by decide))
  have f15_11 : fld wd 15 11 = a := (fld_body g 10 _ wd 15 11 (by decide) (by decide) hw).trans ((fld_below (by decide) (by decide)).trans (fld_here (n := 32) h2 t2 (by decide)))
  have f10_6 : fld wd 10 6 = b := (fld_body g 10 _ wd 10 6 (by decide) (by decide) hw).trans ((fld_below (by decide) (by decide)).trans ((fld_below (by decide) (by decide)).trans (fld_here (n := 32) h3 t3 (by decide))))
  have f5_3 : fld wd 5 3 = k := (fld_body g 10 _ wd 5 3 (by decide) (by decide) hw).trans ((fld_below (by decide) (by decide)).trans ((fld_below (by decide) (by decide)).trans ((fld_below (by decide) (by decide)).trans (fld_here (n := 8) h4 t4 (by decide)))))
  have f2_0 : fld wd 2 0 = 7 := (fld_body g 10 _ wd 2 0 (by decide) (by decide) hw).trans ((fld_below (by decide) (by decide)).trans ((fld_below (by decide) (by decide)).trans ((fld_below (by decide) (by decide)).trans ((fld_below (by decide) (by decide)).trans (fld_here (n := 8) (Nat.lt_succ_self 7) (by decide) (by decide))))))
  have ha : decodeV g wd = .ok (.vmaxN32 g (fld wd 20 16) (fld wd 15 11) (fld wd 10 6) (fld wd 5 3)) := by
    unfold decodeV; rw [em, f2_0]; rfl
  rw [ha]
  rw [f20_16, f15_11, f10_6, f5_3]

theorem RoundTrip.vaddsI32 (g : Guard) (d : Nat) (a : Nat) (b : Nat) (k : Nat) : Statement (.vaddsI32 g d a b k) := by
  intro h sl hs
  change (decide (g.pred < 12) && decide (d < 32) && decide (a < 32) && decide (b < 32) && decide (k < 8)) = true at h
  simp only [Bool.and_eq_true, decide_eq_true_eq] at h
  obtain ⟨⟨⟨⟨h0, h1⟩, h2⟩, h3⟩, h4⟩ := h
  obtain rfl : SlotClass.v = sl := Option.some.inj (of_decide_eq_true hs)
  have t3 : (k * 2 ^ 3 + 0) < 2 ^ 6 := lt_field (n := 8) h4 (by decide) (by decide)
  have t2 : (b * 2 ^ 6 + (k * 2 ^ 3 + 0)) < 2 ^ 11 := lt_field (n := 32) h3 t3 (by decide)
  have t1 : (a * 2 ^ 11 + (b * 2 ^ 6 + (k * 2 ^ 3 + 0))) < 2 ^ 16 := lt_field (n := 32) h2 t2 (by decide)
  have t0 : (d * 2 ^ 16 + (a * 2 ^ 11 + (b * 2 ^ 6 + (k * 2 ^ 3 + 0)))) < 2 ^ 21 := lt_field (n := 32) h1 t1 (by decide)
  obtain ⟨wd, hw⟩ : ∃ wd, g.neg.toNat * 2 ^ 31 + g.pred * 2 ^ 27 + 11 * 2 ^ 21 + (d * 2 ^ 16 + (a * 2 ^ 11 + (b * 2 ^ 6 + (k * 2 ^ 3 + 0)))) = wd := ⟨_, rfl⟩
  change decodeWord .v (g.neg.toNat * 2 ^ 31 + g.pred * 2 ^ 27 + 11 * 2 ^ 21 + (d * 2 ^ 16 + (a * 2 ^ 11 + (b * 2 ^ 6 + (k * 2 ^ 3 + 0))))) = _
  rw [hw, decodeWord_op .v g 11 _ wd h0 (by decide) t0 (by decide) hw]
  change decodeV g wd = _
  have em := fld_major g 11 _ wd (by decide) t0 hw
  have f2_2 : fld wd 2 2 = 0 := (fld_body g 11 _ wd 2 2 (by decide) (by decide) hw).trans ((fld_below (by decide) (by decide)).trans ((fld_below (by decide) (by decide)).trans ((fld_below (by decide) (by decide)).trans ((fld_below (by decide) (by decide)).trans (by decide)))))
  have f20_16 : fld wd 20 16 = d := (fld_body g 11 _ wd 20 16 (by decide) (by decide) hw).trans (fld_here (n := 32) h1 t1 (by decide))
  have f15_11 : fld wd 15 11 = a := (fld_body g 11 _ wd 15 11 (by decide) (by decide) hw).trans ((fld_below (by decide) (by decide)).trans (fld_here (n := 32) h2 t2 (by decide)))
  have f10_6 : fld wd 10 6 = b := (fld_body g 11 _ wd 10 6 (by decide) (by decide) hw).trans ((fld_below (by decide) (by decide)).trans ((fld_below (by decide) (by decide)).trans (fld_here (n := 32) h3 t3 (by decide))))
  have f5_3 : fld wd 5 3 = k := (fld_body g 11 _ wd 5 3 (by decide) (by decide) hw).trans ((fld_below (by decide) (by decide)).trans ((fld_below (by decide) (by decide)).trans ((fld_below (by decide) (by decide)).trans (fld_here (n := 8) h4 (by decide) (by decide)))))
  have f1_0 : fld wd 1 0 = 0 := (fld_body g 11 _ wd 1 0 (by decide) (by decide) hw).trans ((fld_below (by decide) (by decide)).trans ((fld_below (by decide) (by decide)).trans ((fld_below (by decide) (by decide)).trans ((fld_below (by decide) (by decide)).trans (by decide)))))
  have ha : decodeV g wd = need (fld wd 2 2 = 0) (.ok (.vaddsI32 g (fld wd 20 16) (fld wd 15 11) (fld wd 10 6) (fld wd 5 3))) := by
    unfold decodeV; rw [em, f1_0]; rfl
  rw [ha]
  simp only [need, f2_2, f20_16, f15_11, f10_6, f5_3, if_true]

theorem RoundTrip.vsubsI32 (g : Guard) (d : Nat) (a : Nat) (b : Nat) (k : Nat) : Statement (.vsubsI32 g d a b k) := by
  intro h sl hs
  change (decide (g.pred < 12) && decide (d < 32) && decide (a < 32) && decide (b < 32) && decide (k < 8)) = true at h
  simp only [Bool.and_eq_true, decide_eq_true_eq] at h
  obtain ⟨⟨⟨⟨h0, h1⟩, h2⟩, h3⟩, h4⟩ := h
  obtain rfl : SlotClass.v = sl := Option.some.inj (of_decide_eq_true hs)
  have t4 : (1 * 2 ^ 0 + 0) < 2 ^ 3 := lt_field (n := 2) (Nat.lt_succ_self 1) (by decide) (by decide)
  have t3 : (k * 2 ^ 3 + (1 * 2 ^ 0 + 0)) < 2 ^ 6 := lt_field (n := 8) h4 t4 (by decide)
  have t2 : (b * 2 ^ 6 + (k * 2 ^ 3 + (1 * 2 ^ 0 + 0))) < 2 ^ 11 := lt_field (n := 32) h3 t3 (by decide)
  have t1 : (a * 2 ^ 11 + (b * 2 ^ 6 + (k * 2 ^ 3 + (1 * 2 ^ 0 + 0)))) < 2 ^ 16 := lt_field (n := 32) h2 t2 (by decide)
  have t0 : (d * 2 ^ 16 + (a * 2 ^ 11 + (b * 2 ^ 6 + (k * 2 ^ 3 + (1 * 2 ^ 0 + 0))))) < 2 ^ 21 := lt_field (n := 32) h1 t1 (by decide)
  obtain ⟨wd, hw⟩ : ∃ wd, g.neg.toNat * 2 ^ 31 + g.pred * 2 ^ 27 + 11 * 2 ^ 21 + (d * 2 ^ 16 + (a * 2 ^ 11 + (b * 2 ^ 6 + (k * 2 ^ 3 + (1 * 2 ^ 0 + 0))))) = wd := ⟨_, rfl⟩
  change decodeWord .v (g.neg.toNat * 2 ^ 31 + g.pred * 2 ^ 27 + 11 * 2 ^ 21 + (d * 2 ^ 16 + (a * 2 ^ 11 + (b * 2 ^ 6 + (k * 2 ^ 3 + (1 * 2 ^ 0 + 0)))))) = _
  rw [hw, decodeWord_op .v g 11 _ wd h0 (by decide) t0 (by decide) hw]
  change decodeV g wd = _
  have em := fld_major g 11 _ wd (by decide) t0 hw
  have f2_2 : fld wd 2 2 = 0 := (fld_body g 11 _ wd 2 2 (by decide) (by decide) hw).trans ((fld_below (by decide) (by decide)).trans ((fld_below (by decide) (by decide)).trans ((fld_below (by decide) (by decide)).trans ((fld_below (by decide) (by decide)).trans (fld_above (lt_field (n := 2) (Nat.lt_succ_self 1) (by decide) (by decide)))))))
  have f20_16 : fld wd 20 16 = d := (fld_body g 11 _ wd 20 16 (by decide) (by decide) hw).trans (fld_here (n := 32) h1 t1 (by decide))
  have f15_11 : fld wd 15 11 = a := (fld_body g 11 _ wd 15 11 (by decide) (by decide) hw).trans ((fld_below (by decide) (by decide)).trans (fld_here (n := 32) h2 t2 (by decide)))
  have f10_6 : fld wd 10 6 = b := (fld_body g 11 _ wd 10 6 (by decide) (by decide) hw).trans ((fld_below (by decide) (by decide)).trans ((fld_below (by decide) (by decide)).trans (fld_here (n := 32) h3 t3 (by decide))))
  have f5_3 : fld wd 5 3 = k := (fld_body g 11 _ wd 5 3 (by decide) (by decide) hw).trans ((fld_below (by decide) (by decide)).trans ((fld_below (by decide) (by decide)).trans ((fld_below (by decide) (by decide)).trans (fld_here (n := 8) h4 t4 (by decide)))))
  have f1_0 : fld wd 1 0 = 1 := (fld_body g 11 _ wd 1 0 (by decide) (by decide) hw).trans ((fld_below (by decide) (by decide)).trans ((fld_below (by decide) (by decide)).trans ((fld_below (by decide) (by decide)).trans ((fld_below (by decide) (by decide)).trans (fld_here (n := 2) (Nat.lt_succ_self 1) (by decide) (by decide))))))
  have ha : decodeV g wd = need (fld wd 2 2 = 0) (.ok (.vsubsI32 g (fld wd 20 16) (fld wd 15 11) (fld wd 10 6) (fld wd 5 3))) := by
    unfold decodeV; rw [em, f1_0]; rfl
  rw [ha]
  simp only [need, f2_2, f20_16, f15_11, f10_6, f5_3, if_true]

theorem RoundTrip.vabsI32 (g : Guard) (d : Nat) (a : Nat) (k : Nat) : Statement (.vabsI32 g d a k) := by
  intro h sl hs
  change (decide (g.pred < 12) && decide (d < 32) && decide (a < 32) && decide (k < 8)) = true at h
  simp only [Bool.and_eq_true, decide_eq_true_eq] at h
  obtain ⟨⟨⟨h0, h1⟩, h2⟩, h3⟩ := h
  obtain rfl : SlotClass.v = sl := Option.some.inj (of_decide_eq_true hs)
  have t3 : (1 * 2 ^ 1 + 0) < 2 ^ 3 := lt_field (n := 2) (Nat.lt_succ_self 1) (by decide) (by decide)
  have t2 : (k * 2 ^ 3 + (1 * 2 ^ 1 + 0)) < 2 ^ 11 := lt_field (n := 8) h3 t3 (by decide)
  have t1 : (a * 2 ^ 11 + (k * 2 ^ 3 + (1 * 2 ^ 1 + 0))) < 2 ^ 16 := lt_field (n := 32) h2 t2 (by decide)
  have t0 : (d * 2 ^ 16 + (a * 2 ^ 11 + (k * 2 ^ 3 + (1 * 2 ^ 1 + 0)))) < 2 ^ 21 := lt_field (n := 32) h1 t1 (by decide)
  obtain ⟨wd, hw⟩ : ∃ wd, g.neg.toNat * 2 ^ 31 + g.pred * 2 ^ 27 + 11 * 2 ^ 21 + (d * 2 ^ 16 + (a * 2 ^ 11 + (k * 2 ^ 3 + (1 * 2 ^ 1 + 0)))) = wd := ⟨_, rfl⟩
  change decodeWord .v (g.neg.toNat * 2 ^ 31 + g.pred * 2 ^ 27 + 11 * 2 ^ 21 + (d * 2 ^ 16 + (a * 2 ^ 11 + (k * 2 ^ 3 + (1 * 2 ^ 1 + 0))))) = _
  rw [hw, decodeWord_op .v g 11 _ wd h0 (by decide) t0 (by decide) hw]
  change decodeV g wd = _
  have em := fld_major g 11 _ wd (by decide) t0 hw
  have f10_6 : fld wd 10 6 = 0 := (fld_body g 11 _ wd 10 6 (by decide) (by decide) hw).trans ((fld_below (by decide) (by decide)).trans ((fld_below (by decide) (by decide)).trans (fld_above (lt_field (n := 8) h3 t3 (by decide)))))
  have f2_2 : fld wd 2 2 = 0 := (fld_body g 11 _ wd 2 2 (by decide) (by decide) hw).trans ((fld_below (by decide) (by decide)).trans ((fld_below (by decide) (by decide)).trans ((fld_below (by decide) (by decide)).trans (fld_above (lt_field (n := 2) (Nat.lt_succ_self 1) (by decide) (by decide))))))
  have f20_16 : fld wd 20 16 = d := (fld_body g 11 _ wd 20 16 (by decide) (by decide) hw).trans (fld_here (n := 32) h1 t1 (by decide))
  have f15_11 : fld wd 15 11 = a := (fld_body g 11 _ wd 15 11 (by decide) (by decide) hw).trans ((fld_below (by decide) (by decide)).trans (fld_here (n := 32) h2 t2 (by decide)))
  have f5_3 : fld wd 5 3 = k := (fld_body g 11 _ wd 5 3 (by decide) (by decide) hw).trans ((fld_below (by decide) (by decide)).trans ((fld_below (by decide) (by decide)).trans (fld_here (n := 8) h3 t3 (by decide))))
  have f1_0 : fld wd 1 0 = 2 := (fld_body g 11 _ wd 1 0 (by decide) (by decide) hw).trans ((fld_below (by decide) (by decide)).trans ((fld_below (by decide) (by decide)).trans ((fld_below (by decide) (by decide)).trans (by decide))))
  have ha : decodeV g wd = need (fld wd 10 6 = 0 ∧ fld wd 2 2 = 0) (.ok (.vabsI32 g (fld wd 20 16) (fld wd 15 11) (fld wd 5 3))) := by
    unfold decodeV; rw [em, f1_0]; rfl
  rw [ha]
  simp only [need, f10_6, f2_2, f20_16, f15_11, f5_3, and_self, if_true]

theorem RoundTrip.vnegI32 (g : Guard) (d : Nat) (a : Nat) (k : Nat) : Statement (.vnegI32 g d a k) := by
  intro h sl hs
  change (decide (g.pred < 12) && decide (d < 32) && decide (a < 32) && decide (k < 8)) = true at h
  simp only [Bool.and_eq_true, decide_eq_true_eq] at h
  obtain ⟨⟨⟨h0, h1⟩, h2⟩, h3⟩ := h
  obtain rfl : SlotClass.v = sl := Option.some.inj (of_decide_eq_true hs)
  have t3 : (3 * 2 ^ 0 + 0) < 2 ^ 3 := lt_field (n := 4) (Nat.lt_succ_self 3) (by decide) (by decide)
  have t2 : (k * 2 ^ 3 + (3 * 2 ^ 0 + 0)) < 2 ^ 11 := lt_field (n := 8) h3 t3 (by decide)
  have t1 : (a * 2 ^ 11 + (k * 2 ^ 3 + (3 * 2 ^ 0 + 0))) < 2 ^ 16 := lt_field (n := 32) h2 t2 (by decide)
  have t0 : (d * 2 ^ 16 + (a * 2 ^ 11 + (k * 2 ^ 3 + (3 * 2 ^ 0 + 0)))) < 2 ^ 21 := lt_field (n := 32) h1 t1 (by decide)
  obtain ⟨wd, hw⟩ : ∃ wd, g.neg.toNat * 2 ^ 31 + g.pred * 2 ^ 27 + 11 * 2 ^ 21 + (d * 2 ^ 16 + (a * 2 ^ 11 + (k * 2 ^ 3 + (3 * 2 ^ 0 + 0)))) = wd := ⟨_, rfl⟩
  change decodeWord .v (g.neg.toNat * 2 ^ 31 + g.pred * 2 ^ 27 + 11 * 2 ^ 21 + (d * 2 ^ 16 + (a * 2 ^ 11 + (k * 2 ^ 3 + (3 * 2 ^ 0 + 0))))) = _
  rw [hw, decodeWord_op .v g 11 _ wd h0 (by decide) t0 (by decide) hw]
  change decodeV g wd = _
  have em := fld_major g 11 _ wd (by decide) t0 hw
  have f10_6 : fld wd 10 6 = 0 := (fld_body g 11 _ wd 10 6 (by decide) (by decide) hw).trans ((fld_below (by decide) (by decide)).trans ((fld_below (by decide) (by decide)).trans (fld_above (lt_field (n := 8) h3 t3 (by decide)))))
  have f2_2 : fld wd 2 2 = 0 := (fld_body g 11 _ wd 2 2 (by decide) (by decide) hw).trans ((fld_below (by decide) (by decide)).trans ((fld_below (by decide) (by decide)).trans ((fld_below (by decide) (by decide)).trans (fld_above (lt_field (n := 4) (Nat.lt_succ_self 3) (by decide) (by decide))))))
  have f20_16 : fld wd 20 16 = d := (fld_body g 11 _ wd 20 16 (by decide) (by decide) hw).trans (fld_here (n := 32) h1 t1 (by decide))
  have f15_11 : fld wd 15 11 = a := (fld_body g 11 _ wd 15 11 (by decide) (by decide) hw).trans ((fld_below (by decide) (by decide)).trans (fld_here (n := 32) h2 t2 (by decide)))
  have f5_3 : fld wd 5 3 = k := (fld_body g 11 _ wd 5 3 (by decide) (by decide) hw).trans ((fld_below (by decide) (by decide)).trans ((fld_below (by decide) (by decide)).trans (fld_here (n := 8) h3 t3 (by decide))))
  have f1_0 : fld wd 1 0 = 3 := (fld_body g 11 _ wd 1 0 (by decide) (by decide) hw).trans ((fld_below (by decide) (by decide)).trans ((fld_below (by decide) (by decide)).trans ((fld_below (by decide) (by decide)).trans (fld_here (n := 4) (Nat.lt_succ_self 3) (by decide) (by decide)))))
  have ha : decodeV g wd = need (fld wd 10 6 = 0 ∧ fld wd 2 2 = 0) (.ok (.vnegI32 g (fld wd 20 16) (fld wd 15 11) (fld wd 5 3))) := by
    unfold decodeV; rw [em, f1_0]; rfl
  rw [ha]
  simp only [need, f10_6, f2_2, f20_16, f15_11, f5_3, and_self, if_true]

theorem RoundTrip.vand (g : Guard) (d : Nat) (a : Nat) (b : Nat) (k : Nat) : Statement (.vand g d a b k) := by
  intro h sl hs
  change (decide (g.pred < 12) && decide (d < 32) && decide (a < 32) && decide (b < 32) && decide (k < 8)) = true at h
  simp only [Bool.and_eq_true, decide_eq_true_eq] at h
  obtain ⟨⟨⟨⟨h0, h1⟩, h2⟩, h3⟩, h4⟩ := h
  obtain rfl : SlotClass.v = sl := Option.some.inj (of_decide_eq_true hs)
  have t3 : (k * 2 ^ 3 + 0) < 2 ^ 6 := lt_field (n := 8) h4 (by decide) (by decide)
  have t2 : (b * 2 ^ 6 + (k * 2 ^ 3 + 0)) < 2 ^ 11 := lt_field (n := 32) h3 t3 (by decide)
  have t1 : (a * 2 ^ 11 + (b * 2 ^ 6 + (k * 2 ^ 3 + 0))) < 2 ^ 16 := lt_field (n := 32) h2 t2 (by decide)
  have t0 : (d * 2 ^ 16 + (a * 2 ^ 11 + (b * 2 ^ 6 + (k * 2 ^ 3 + 0)))) < 2 ^ 21 := lt_field (n := 32) h1 t1 (by decide)
  obtain ⟨wd, hw⟩ : ∃ wd, g.neg.toNat * 2 ^ 31 + g.pred * 2 ^ 27 + 12 * 2 ^ 21 + (d * 2 ^ 16 + (a * 2 ^ 11 + (b * 2 ^ 6 + (k * 2 ^ 3 + 0)))) = wd := ⟨_, rfl⟩
  change decodeWord .v (g.neg.toNat * 2 ^ 31 + g.pred * 2 ^ 27 + 12 * 2 ^ 21 + (d * 2 ^ 16 + (a * 2 ^ 11 + (b * 2 ^ 6 + (k * 2 ^ 3 + 0))))) = _
  rw [hw, decodeWord_op .v g 12 _ wd h0 (by decide) t0 (by decide) hw]
  change decodeV g wd = _
  have em := fld_major g 12 _ wd (by decide) t0 hw
  have f20_16 : fld wd 20 16 = d := (fld_body g 12 _ wd 20 16 (by decide) (by decide) hw).trans (fld_here (n := 32) h1 t1 (by decide))
  have f15_11 : fld wd 15 11 = a := (fld_body g 12 _ wd 15 11 (by decide) (by decide) hw).trans ((fld_below (by decide) (by decide)).trans (fld_here (n := 32) h2 t2 (by decide)))
  have f10_6 : fld wd 10 6 = b := (fld_body g 12 _ wd 10 6 (by decide) (by decide) hw).trans ((fld_below (by decide) (by decide)).trans ((fld_below (by decide) (by decide)).trans (fld_here (n := 32) h3 t3 (by decide))))
  have f5_3 : fld wd 5 3 = k := (fld_body g 12 _ wd 5 3 (by decide) (by decide) hw).trans ((fld_below (by decide) (by decide)).trans ((fld_below (by decide) (by decide)).trans ((fld_below (by decide) (by decide)).trans (fld_here (n := 8) h4 (by decide) (by decide)))))
  have f2_0 : fld wd 2 0 = 0 := (fld_body g 12 _ wd 2 0 (by decide) (by decide) hw).trans ((fld_below (by decide) (by decide)).trans ((fld_below (by decide) (by decide)).trans ((fld_below (by decide) (by decide)).trans ((fld_below (by decide) (by decide)).trans (by decide)))))
  have ha : decodeV g wd = .ok (.vand g (fld wd 20 16) (fld wd 15 11) (fld wd 10 6) (fld wd 5 3)) := by
    unfold decodeV; rw [em, f2_0]; rfl
  rw [ha]
  rw [f20_16, f15_11, f10_6, f5_3]

theorem RoundTrip.vor (g : Guard) (d : Nat) (a : Nat) (b : Nat) (k : Nat) : Statement (.vor g d a b k) := by
  intro h sl hs
  change (decide (g.pred < 12) && decide (d < 32) && decide (a < 32) && decide (b < 32) && decide (k < 8)) = true at h
  simp only [Bool.and_eq_true, decide_eq_true_eq] at h
  obtain ⟨⟨⟨⟨h0, h1⟩, h2⟩, h3⟩, h4⟩ := h
  obtain rfl : SlotClass.v = sl := Option.some.inj (of_decide_eq_true hs)
  have t4 : (1 * 2 ^ 0 + 0) < 2 ^ 3 := lt_field (n := 2) (Nat.lt_succ_self 1) (by decide) (by decide)
  have t3 : (k * 2 ^ 3 + (1 * 2 ^ 0 + 0)) < 2 ^ 6 := lt_field (n := 8) h4 t4 (by decide)
  have t2 : (b * 2 ^ 6 + (k * 2 ^ 3 + (1 * 2 ^ 0 + 0))) < 2 ^ 11 := lt_field (n := 32) h3 t3 (by decide)
  have t1 : (a * 2 ^ 11 + (b * 2 ^ 6 + (k * 2 ^ 3 + (1 * 2 ^ 0 + 0)))) < 2 ^ 16 := lt_field (n := 32) h2 t2 (by decide)
  have t0 : (d * 2 ^ 16 + (a * 2 ^ 11 + (b * 2 ^ 6 + (k * 2 ^ 3 + (1 * 2 ^ 0 + 0))))) < 2 ^ 21 := lt_field (n := 32) h1 t1 (by decide)
  obtain ⟨wd, hw⟩ : ∃ wd, g.neg.toNat * 2 ^ 31 + g.pred * 2 ^ 27 + 12 * 2 ^ 21 + (d * 2 ^ 16 + (a * 2 ^ 11 + (b * 2 ^ 6 + (k * 2 ^ 3 + (1 * 2 ^ 0 + 0))))) = wd := ⟨_, rfl⟩
  change decodeWord .v (g.neg.toNat * 2 ^ 31 + g.pred * 2 ^ 27 + 12 * 2 ^ 21 + (d * 2 ^ 16 + (a * 2 ^ 11 + (b * 2 ^ 6 + (k * 2 ^ 3 + (1 * 2 ^ 0 + 0)))))) = _
  rw [hw, decodeWord_op .v g 12 _ wd h0 (by decide) t0 (by decide) hw]
  change decodeV g wd = _
  have em := fld_major g 12 _ wd (by decide) t0 hw
  have f20_16 : fld wd 20 16 = d := (fld_body g 12 _ wd 20 16 (by decide) (by decide) hw).trans (fld_here (n := 32) h1 t1 (by decide))
  have f15_11 : fld wd 15 11 = a := (fld_body g 12 _ wd 15 11 (by decide) (by decide) hw).trans ((fld_below (by decide) (by decide)).trans (fld_here (n := 32) h2 t2 (by decide)))
  have f10_6 : fld wd 10 6 = b := (fld_body g 12 _ wd 10 6 (by decide) (by decide) hw).trans ((fld_below (by decide) (by decide)).trans ((fld_below (by decide) (by decide)).trans (fld_here (n := 32) h3 t3 (by decide))))
  have f5_3 : fld wd 5 3 = k := (fld_body g 12 _ wd 5 3 (by decide) (by decide) hw).trans ((fld_below (by decide) (by decide)).trans ((fld_below (by decide) (by decide)).trans ((fld_below (by decide) (by decide)).trans (fld_here (n := 8) h4 t4 (by decide)))))
  have f2_0 : fld wd 2 0 = 1 := (fld_body g 12 _ wd 2 0 (by decide) (by decide) hw).trans ((fld_below (by decide) (by decide)).trans ((fld_below (by decide) (by decide)).trans ((fld_below (by decide) (by decide)).trans ((fld_below (by decide) (by decide)).trans (fld_here (n := 2) (Nat.lt_succ_self 1) (by decide) (by decide))))))
  have ha : decodeV g wd = .ok (.vor g (fld wd 20 16) (fld wd 15 11) (fld wd 10 6) (fld wd 5 3)) := by
    unfold decodeV; rw [em, f2_0]; rfl
  rw [ha]
  rw [f20_16, f15_11, f10_6, f5_3]

theorem RoundTrip.vxor (g : Guard) (d : Nat) (a : Nat) (b : Nat) (k : Nat) : Statement (.vxor g d a b k) := by
  intro h sl hs
  change (decide (g.pred < 12) && decide (d < 32) && decide (a < 32) && decide (b < 32) && decide (k < 8)) = true at h
  simp only [Bool.and_eq_true, decide_eq_true_eq] at h
  obtain ⟨⟨⟨⟨h0, h1⟩, h2⟩, h3⟩, h4⟩ := h
  obtain rfl : SlotClass.v = sl := Option.some.inj (of_decide_eq_true hs)
  have t4 : (1 * 2 ^ 1 + 0) < 2 ^ 3 := lt_field (n := 2) (Nat.lt_succ_self 1) (by decide) (by decide)
  have t3 : (k * 2 ^ 3 + (1 * 2 ^ 1 + 0)) < 2 ^ 6 := lt_field (n := 8) h4 t4 (by decide)
  have t2 : (b * 2 ^ 6 + (k * 2 ^ 3 + (1 * 2 ^ 1 + 0))) < 2 ^ 11 := lt_field (n := 32) h3 t3 (by decide)
  have t1 : (a * 2 ^ 11 + (b * 2 ^ 6 + (k * 2 ^ 3 + (1 * 2 ^ 1 + 0)))) < 2 ^ 16 := lt_field (n := 32) h2 t2 (by decide)
  have t0 : (d * 2 ^ 16 + (a * 2 ^ 11 + (b * 2 ^ 6 + (k * 2 ^ 3 + (1 * 2 ^ 1 + 0))))) < 2 ^ 21 := lt_field (n := 32) h1 t1 (by decide)
  obtain ⟨wd, hw⟩ : ∃ wd, g.neg.toNat * 2 ^ 31 + g.pred * 2 ^ 27 + 12 * 2 ^ 21 + (d * 2 ^ 16 + (a * 2 ^ 11 + (b * 2 ^ 6 + (k * 2 ^ 3 + (1 * 2 ^ 1 + 0))))) = wd := ⟨_, rfl⟩
  change decodeWord .v (g.neg.toNat * 2 ^ 31 + g.pred * 2 ^ 27 + 12 * 2 ^ 21 + (d * 2 ^ 16 + (a * 2 ^ 11 + (b * 2 ^ 6 + (k * 2 ^ 3 + (1 * 2 ^ 1 + 0)))))) = _
  rw [hw, decodeWord_op .v g 12 _ wd h0 (by decide) t0 (by decide) hw]
  change decodeV g wd = _
  have em := fld_major g 12 _ wd (by decide) t0 hw
  have f20_16 : fld wd 20 16 = d := (fld_body g 12 _ wd 20 16 (by decide) (by decide) hw).trans (fld_here (n := 32) h1 t1 (by decide))
  have f15_11 : fld wd 15 11 = a := (fld_body g 12 _ wd 15 11 (by decide) (by decide) hw).trans ((fld_below (by decide) (by decide)).trans (fld_here (n := 32) h2 t2 (by decide)))
  have f10_6 : fld wd 10 6 = b := (fld_body g 12 _ wd 10 6 (by decide) (by decide) hw).trans ((fld_below (by decide) (by decide)).trans ((fld_below (by decide) (by decide)).trans (fld_here (n := 32) h3 t3 (by decide))))
  have f5_3 : fld wd 5 3 = k := (fld_body g 12 _ wd 5 3 (by decide) (by decide) hw).trans ((fld_below (by decide) (by decide)).trans ((fld_below (by decide) (by decide)).trans ((fld_below (by decide) (by decide)).trans (fld_here (n := 8) h4 t4 (by decide)))))
  have f2_0 : fld wd 2 0 = 2 := (fld_body g 12 _ wd 2 0 (by decide) (by decide) hw).trans ((fld_below (by decide) (by decide)).trans ((fld_below (by decide) (by decide)).trans ((fld_below (by decide) (by decide)).trans ((fld_below (by decide) (by decide)).trans (by decide)))))
  have ha : decodeV g wd = .ok (.vxor g (fld wd 20 16) (fld wd 15 11) (fld wd 10 6) (fld wd 5 3)) := by
    unfold decodeV; rw [em, f2_0]; rfl
  rw [ha]
  rw [f20_16, f15_11, f10_6, f5_3]

theorem RoundTrip.vandn (g : Guard) (d : Nat) (a : Nat) (b : Nat) (k : Nat) : Statement (.vandn g d a b k) := by
  intro h sl hs
  change (decide (g.pred < 12) && decide (d < 32) && decide (a < 32) && decide (b < 32) && decide (k < 8)) = true at h
  simp only [Bool.and_eq_true, decide_eq_true_eq] at h
  obtain ⟨⟨⟨⟨h0, h1⟩, h2⟩, h3⟩, h4⟩ := h
  obtain rfl : SlotClass.v = sl := Option.some.inj (of_decide_eq_true hs)
  have t4 : (3 * 2 ^ 0 + 0) < 2 ^ 3 := lt_field (n := 4) (Nat.lt_succ_self 3) (by decide) (by decide)
  have t3 : (k * 2 ^ 3 + (3 * 2 ^ 0 + 0)) < 2 ^ 6 := lt_field (n := 8) h4 t4 (by decide)
  have t2 : (b * 2 ^ 6 + (k * 2 ^ 3 + (3 * 2 ^ 0 + 0))) < 2 ^ 11 := lt_field (n := 32) h3 t3 (by decide)
  have t1 : (a * 2 ^ 11 + (b * 2 ^ 6 + (k * 2 ^ 3 + (3 * 2 ^ 0 + 0)))) < 2 ^ 16 := lt_field (n := 32) h2 t2 (by decide)
  have t0 : (d * 2 ^ 16 + (a * 2 ^ 11 + (b * 2 ^ 6 + (k * 2 ^ 3 + (3 * 2 ^ 0 + 0))))) < 2 ^ 21 := lt_field (n := 32) h1 t1 (by decide)
  obtain ⟨wd, hw⟩ : ∃ wd, g.neg.toNat * 2 ^ 31 + g.pred * 2 ^ 27 + 12 * 2 ^ 21 + (d * 2 ^ 16 + (a * 2 ^ 11 + (b * 2 ^ 6 + (k * 2 ^ 3 + (3 * 2 ^ 0 + 0))))) = wd := ⟨_, rfl⟩
  change decodeWord .v (g.neg.toNat * 2 ^ 31 + g.pred * 2 ^ 27 + 12 * 2 ^ 21 + (d * 2 ^ 16 + (a * 2 ^ 11 + (b * 2 ^ 6 + (k * 2 ^ 3 + (3 * 2 ^ 0 + 0)))))) = _
  rw [hw, decodeWord_op .v g 12 _ wd h0 (by decide) t0 (by decide) hw]
  change decodeV g wd = _
  have em := fld_major g 12 _ wd (by decide) t0 hw
  have f20_16 : fld wd 20 16 = d := (fld_body g 12 _ wd 20 16 (by decide) (by decide) hw).trans (fld_here (n := 32) h1 t1 (by decide))
  have f15_11 : fld wd 15 11 = a := (fld_body g 12 _ wd 15 11 (by decide) (by decide) hw).trans ((fld_below (by decide) (by decide)).trans (fld_here (n := 32) h2 t2 (by decide)))
  have f10_6 : fld wd 10 6 = b := (fld_body g 12 _ wd 10 6 (by decide) (by decide) hw).trans ((fld_below (by decide) (by decide)).trans ((fld_below (by decide) (by decide)).trans (fld_here (n := 32) h3 t3 (by decide))))
  have f5_3 : fld wd 5 3 = k := (fld_body g 12 _ wd 5 3 (by decide) (by decide) hw).trans ((fld_below (by decide) (by decide)).trans ((fld_below (by decide) (by decide)).trans ((fld_below (by decide) (by decide)).trans (fld_here (n := 8) h4 t4 (by decide)))))
  have f2_0 : fld wd 2 0 = 3 := (fld_body g 12 _ wd 2 0 (by decide) (by decide) hw).trans ((fld_below (by decide) (by decide)).trans ((fld_below (by decide) (by decide)).trans ((fld_below (by decide) (by decide)).trans ((fld_below (by decide) (by decide)).trans (fld_here (n := 4) (Nat.lt_succ_self 3) (by decide) (by decide))))))
  have ha : decodeV g wd = .ok (.vandn g (fld wd 20 16) (fld wd 15 11) (fld wd 10 6) (fld wd 5 3)) := by
    unfold decodeV; rw [em, f2_0]; rfl
  rw [ha]
  rw [f20_16, f15_11, f10_6, f5_3]

theorem RoundTrip.vnot (g : Guard) (d : Nat) (a : Nat) (k : Nat) : Statement (.vnot g d a k) := by
  intro h sl hs
  change (decide (g.pred < 12) && decide (d < 32) && decide (a < 32) && decide (k < 8)) = true at h
  simp only [Bool.and_eq_true, decide_eq_true_eq] at h
  obtain ⟨⟨⟨h0, h1⟩, h2⟩, h3⟩ := h
  obtain rfl : SlotClass.v = sl := Option.some.inj (of_decide_eq_true hs)
  have t3 : (1 * 2 ^ 2 + 0) < 2 ^ 3 := lt_field (n := 2) (Nat.lt_succ_self 1) (by decide) (by decide)
  have t2 : (k * 2 ^ 3 + (1 * 2 ^ 2 + 0)) < 2 ^ 11 := lt_field (n := 8) h3 t3 (by decide)
  have t1 : (a * 2 ^ 11 + (k * 2 ^ 3 + (1 * 2 ^ 2 + 0))) < 2 ^ 16 := lt_field (n := 32) h2 t2 (by decide)
  have t0 : (d * 2 ^ 16 + (a * 2 ^ 11 + (k * 2 ^ 3 + (1 * 2 ^ 2 + 0)))) < 2 ^ 21 := lt_field (n := 32) h1 t1 (by decide)
  obtain ⟨wd, hw⟩ : ∃ wd, g.neg.toNat * 2 ^ 31 + g.pred * 2 ^ 27 + 12 * 2 ^ 21 + (d * 2 ^ 16 + (a * 2 ^ 11 + (k * 2 ^ 3 + (1 * 2 ^ 2 + 0)))) = wd := ⟨_, rfl⟩
  change decodeWord .v (g.neg.toNat * 2 ^ 31 + g.pred * 2 ^ 27 + 12 * 2 ^ 21 + (d * 2 ^ 16 + (a * 2 ^ 11 + (k * 2 ^ 3 + (1 * 2 ^ 2 + 0))))) = _
  rw [hw, decodeWord_op .v g 12 _ wd h0 (by decide) t0 (by decide) hw]
  change decodeV g wd = _
  have em := fld_major g 12 _ wd (by decide) t0 hw
  have f10_6 : fld wd 10 6 = 0 := (fld_body g 12 _ wd 10 6 (by decide) (by decide) hw).trans ((fld_below (by decide) (by decide)).trans ((fld_below (by decide) (by decide)).trans (fld_above (lt_field (n := 8) h3 t3 (by decide)))))
  have f20_16 : fld wd 20 16 = d := (fld_body g 12 _ wd 20 16 (by decide) (by decide) hw).trans (fld_here (n := 32) h1 t1 (by decide))
  have f15_11 : fld wd 15 11 = a := (fld_body g 12 _ wd 15 11 (by decide) (by decide) hw).trans ((fld_below (by decide) (by decide)).trans (fld_here (n := 32) h2 t2 (by decide)))
  have f5_3 : fld wd 5 3 = k := (fld_body g 12 _ wd 5 3 (by decide) (by decide) hw).trans ((fld_below (by decide) (by decide)).trans ((fld_below (by decide) (by decide)).trans (fld_here (n := 8) h3 t3 (by decide))))
  have f2_0 : fld wd 2 0 = 4 := (fld_body g 12 _ wd 2 0 (by decide) (by decide) hw).trans ((fld_below (by decide) (by decide)).trans ((fld_below (by decide) (by decide)).trans ((fld_below (by decide) (by decide)).trans (by decide))))
  have ha : decodeV g wd = need (fld wd 10 6 = 0) (.ok (.vnot g (fld wd 20 16) (fld wd 15 11) (fld wd 5 3))) := by
    unfold decodeV; rw [em, f2_0]; rfl
  rw [ha]
  simp only [need, f10_6, f20_16, f15_11, f5_3, if_true]

theorem RoundTrip.vsll (g : Guard) (d : Nat) (a : Nat) (b : Nat) (k : Nat) : Statement (.vsll g d a b k) := by
  intro h sl hs
  change (decide (g.pred < 12) && decide (d < 32) && decide (a < 32) && decide (b < 32) && decide (k < 8)) = true at h
  simp only [Bool.and_eq_true, decide_eq_true_eq] at h
  obtain ⟨⟨⟨⟨h0, h1⟩, h2⟩, h3⟩, h4⟩ := h
  obtain rfl : SlotClass.v = sl := Option.some.inj (of_decide_eq_true hs)
  have t3 : (k * 2 ^ 3 + 0) < 2 ^ 6 := lt_field (n := 8) h4 (by decide) (by decide)
  have t2 : (b * 2 ^ 6 + (k * 2 ^ 3 + 0)) < 2 ^ 11 := lt_field (n := 32) h3 t3 (by decide)
  have t1 : (a * 2 ^ 11 + (b * 2 ^ 6 + (k * 2 ^ 3 + 0))) < 2 ^ 16 := lt_field (n := 32) h2 t2 (by decide)
  have t0 : (d * 2 ^ 16 + (a * 2 ^ 11 + (b * 2 ^ 6 + (k * 2 ^ 3 + 0)))) < 2 ^ 21 := lt_field (n := 32) h1 t1 (by decide)
  obtain ⟨wd, hw⟩ : ∃ wd, g.neg.toNat * 2 ^ 31 + g.pred * 2 ^ 27 + 13 * 2 ^ 21 + (d * 2 ^ 16 + (a * 2 ^ 11 + (b * 2 ^ 6 + (k * 2 ^ 3 + 0)))) = wd := ⟨_, rfl⟩
  change decodeWord .v (g.neg.toNat * 2 ^ 31 + g.pred * 2 ^ 27 + 13 * 2 ^ 21 + (d * 2 ^ 16 + (a * 2 ^ 11 + (b * 2 ^ 6 + (k * 2 ^ 3 + 0))))) = _
  rw [hw, decodeWord_op .v g 13 _ wd h0 (by decide) t0 (by decide) hw]
  change decodeV g wd = _
  have em := fld_major g 13 _ wd (by decide) t0 hw
  have f2_2 : fld wd 2 2 = 0 := (fld_body g 13 _ wd 2 2 (by decide) (by decide) hw).trans ((fld_below (by decide) (by decide)).trans ((fld_below (by decide) (by decide)).trans ((fld_below (by decide) (by decide)).trans ((fld_below (by decide) (by decide)).trans (by decide)))))
  have f20_16 : fld wd 20 16 = d := (fld_body g 13 _ wd 20 16 (by decide) (by decide) hw).trans (fld_here (n := 32) h1 t1 (by decide))
  have f15_11 : fld wd 15 11 = a := (fld_body g 13 _ wd 15 11 (by decide) (by decide) hw).trans ((fld_below (by decide) (by decide)).trans (fld_here (n := 32) h2 t2 (by decide)))
  have f10_6 : fld wd 10 6 = b := (fld_body g 13 _ wd 10 6 (by decide) (by decide) hw).trans ((fld_below (by decide) (by decide)).trans ((fld_below (by decide) (by decide)).trans (fld_here (n := 32) h3 t3 (by decide))))
  have f5_3 : fld wd 5 3 = k := (fld_body g 13 _ wd 5 3 (by decide) (by decide) hw).trans ((fld_below (by decide) (by decide)).trans ((fld_below (by decide) (by decide)).trans ((fld_below (by decide) (by decide)).trans (fld_here (n := 8) h4 (by decide) (by decide)))))
  have f1_0 : fld wd 1 0 = 0 := (fld_body g 13 _ wd 1 0 (by decide) (by decide) hw).trans ((fld_below (by decide) (by decide)).trans ((fld_below (by decide) (by decide)).trans ((fld_below (by decide) (by decide)).trans ((fld_below (by decide) (by decide)).trans (by decide)))))
  have ha : decodeV g wd = need (fld wd 2 2 = 0) (.ok (.vsll g (fld wd 20 16) (fld wd 15 11) (fld wd 10 6) (fld wd 5 3))) := by
    unfold decodeV; rw [em, f1_0]; rfl
  rw [ha]
  simp only [need, f2_2, f20_16, f15_11, f10_6, f5_3, if_true]

theorem RoundTrip.vsrl (g : Guard) (d : Nat) (a : Nat) (b : Nat) (k : Nat) : Statement (.vsrl g d a b k) := by
  intro h sl hs
  change (decide (g.pred < 12) && decide (d < 32) && decide (a < 32) && decide (b < 32) && decide (k < 8)) = true at h
  simp only [Bool.and_eq_true, decide_eq_true_eq] at h
  obtain ⟨⟨⟨⟨h0, h1⟩, h2⟩, h3⟩, h4⟩ := h
  obtain rfl : SlotClass.v = sl := Option.some.inj (of_decide_eq_true hs)
  have t4 : (1 * 2 ^ 0 + 0) < 2 ^ 3 := lt_field (n := 2) (Nat.lt_succ_self 1) (by decide) (by decide)
  have t3 : (k * 2 ^ 3 + (1 * 2 ^ 0 + 0)) < 2 ^ 6 := lt_field (n := 8) h4 t4 (by decide)
  have t2 : (b * 2 ^ 6 + (k * 2 ^ 3 + (1 * 2 ^ 0 + 0))) < 2 ^ 11 := lt_field (n := 32) h3 t3 (by decide)
  have t1 : (a * 2 ^ 11 + (b * 2 ^ 6 + (k * 2 ^ 3 + (1 * 2 ^ 0 + 0)))) < 2 ^ 16 := lt_field (n := 32) h2 t2 (by decide)
  have t0 : (d * 2 ^ 16 + (a * 2 ^ 11 + (b * 2 ^ 6 + (k * 2 ^ 3 + (1 * 2 ^ 0 + 0))))) < 2 ^ 21 := lt_field (n := 32) h1 t1 (by decide)
  obtain ⟨wd, hw⟩ : ∃ wd, g.neg.toNat * 2 ^ 31 + g.pred * 2 ^ 27 + 13 * 2 ^ 21 + (d * 2 ^ 16 + (a * 2 ^ 11 + (b * 2 ^ 6 + (k * 2 ^ 3 + (1 * 2 ^ 0 + 0))))) = wd := ⟨_, rfl⟩
  change decodeWord .v (g.neg.toNat * 2 ^ 31 + g.pred * 2 ^ 27 + 13 * 2 ^ 21 + (d * 2 ^ 16 + (a * 2 ^ 11 + (b * 2 ^ 6 + (k * 2 ^ 3 + (1 * 2 ^ 0 + 0)))))) = _
  rw [hw, decodeWord_op .v g 13 _ wd h0 (by decide) t0 (by decide) hw]
  change decodeV g wd = _
  have em := fld_major g 13 _ wd (by decide) t0 hw
  have f2_2 : fld wd 2 2 = 0 := (fld_body g 13 _ wd 2 2 (by decide) (by decide) hw).trans ((fld_below (by decide) (by decide)).trans ((fld_below (by decide) (by decide)).trans ((fld_below (by decide) (by decide)).trans ((fld_below (by decide) (by decide)).trans (fld_above (lt_field (n := 2) (Nat.lt_succ_self 1) (by decide) (by decide)))))))
  have f20_16 : fld wd 20 16 = d := (fld_body g 13 _ wd 20 16 (by decide) (by decide) hw).trans (fld_here (n := 32) h1 t1 (by decide))
  have f15_11 : fld wd 15 11 = a := (fld_body g 13 _ wd 15 11 (by decide) (by decide) hw).trans ((fld_below (by decide) (by decide)).trans (fld_here (n := 32) h2 t2 (by decide)))
  have f10_6 : fld wd 10 6 = b := (fld_body g 13 _ wd 10 6 (by decide) (by decide) hw).trans ((fld_below (by decide) (by decide)).trans ((fld_below (by decide) (by decide)).trans (fld_here (n := 32) h3 t3 (by decide))))
  have f5_3 : fld wd 5 3 = k := (fld_body g 13 _ wd 5 3 (by decide) (by decide) hw).trans ((fld_below (by decide) (by decide)).trans ((fld_below (by decide) (by decide)).trans ((fld_below (by decide) (by decide)).trans (fld_here (n := 8) h4 t4 (by decide)))))
  have f1_0 : fld wd 1 0 = 1 := (fld_body g 13 _ wd 1 0 (by decide) (by decide) hw).trans ((fld_below (by decide) (by decide)).trans ((fld_below (by decide) (by decide)).trans ((fld_below (by decide) (by decide)).trans ((fld_below (by decide) (by decide)).trans (fld_here (n := 2) (Nat.lt_succ_self 1) (by decide) (by decide))))))
  have ha : decodeV g wd = need (fld wd 2 2 = 0) (.ok (.vsrl g (fld wd 20 16) (fld wd 15 11) (fld wd 10 6) (fld wd 5 3))) := by
    unfold decodeV; rw [em, f1_0]; rfl
  rw [ha]
  simp only [need, f2_2, f20_16, f15_11, f10_6, f5_3, if_true]

theorem RoundTrip.vsra (g : Guard) (d : Nat) (a : Nat) (b : Nat) (k : Nat) : Statement (.vsra g d a b k) := by
  intro h sl hs
  change (decide (g.pred < 12) && decide (d < 32) && decide (a < 32) && decide (b < 32) && decide (k < 8)) = true at h
  simp only [Bool.and_eq_true, decide_eq_true_eq] at h
  obtain ⟨⟨⟨⟨h0, h1⟩, h2⟩, h3⟩, h4⟩ := h
  obtain rfl : SlotClass.v = sl := Option.some.inj (of_decide_eq_true hs)
  have t4 : (1 * 2 ^ 1 + 0) < 2 ^ 3 := lt_field (n := 2) (Nat.lt_succ_self 1) (by decide) (by decide)
  have t3 : (k * 2 ^ 3 + (1 * 2 ^ 1 + 0)) < 2 ^ 6 := lt_field (n := 8) h4 t4 (by decide)
  have t2 : (b * 2 ^ 6 + (k * 2 ^ 3 + (1 * 2 ^ 1 + 0))) < 2 ^ 11 := lt_field (n := 32) h3 t3 (by decide)
  have t1 : (a * 2 ^ 11 + (b * 2 ^ 6 + (k * 2 ^ 3 + (1 * 2 ^ 1 + 0)))) < 2 ^ 16 := lt_field (n := 32) h2 t2 (by decide)
  have t0 : (d * 2 ^ 16 + (a * 2 ^ 11 + (b * 2 ^ 6 + (k * 2 ^ 3 + (1 * 2 ^ 1 + 0))))) < 2 ^ 21 := lt_field (n := 32) h1 t1 (by decide)
  obtain ⟨wd, hw⟩ : ∃ wd, g.neg.toNat * 2 ^ 31 + g.pred * 2 ^ 27 + 13 * 2 ^ 21 + (d * 2 ^ 16 + (a * 2 ^ 11 + (b * 2 ^ 6 + (k * 2 ^ 3 + (1 * 2 ^ 1 + 0))))) = wd := ⟨_, rfl⟩
  change decodeWord .v (g.neg.toNat * 2 ^ 31 + g.pred * 2 ^ 27 + 13 * 2 ^ 21 + (d * 2 ^ 16 + (a * 2 ^ 11 + (b * 2 ^ 6 + (k * 2 ^ 3 + (1 * 2 ^ 1 + 0)))))) = _
  rw [hw, decodeWord_op .v g 13 _ wd h0 (by decide) t0 (by decide) hw]
  change decodeV g wd = _
  have em := fld_major g 13 _ wd (by decide) t0 hw
  have f2_2 : fld wd 2 2 = 0 := (fld_body g 13 _ wd 2 2 (by decide) (by decide) hw).trans ((fld_below (by decide) (by decide)).trans ((fld_below (by decide) (by decide)).trans ((fld_below (by decide) (by decide)).trans ((fld_below (by decide) (by decide)).trans (fld_above (lt_field (n := 2) (Nat.lt_succ_self 1) (by decide) (by decide)))))))
  have f20_16 : fld wd 20 16 = d := (fld_body g 13 _ wd 20 16 (by decide) (by decide) hw).trans (fld_here (n := 32) h1 t1 (by decide))
  have f15_11 : fld wd 15 11 = a := (fld_body g 13 _ wd 15 11 (by decide) (by decide) hw).trans ((fld_below (by decide) (by decide)).trans (fld_here (n := 32) h2 t2 (by decide)))
  have f10_6 : fld wd 10 6 = b := (fld_body g 13 _ wd 10 6 (by decide) (by decide) hw).trans ((fld_below (by decide) (by decide)).trans ((fld_below (by decide) (by decide)).trans (fld_here (n := 32) h3 t3 (by decide))))
  have f5_3 : fld wd 5 3 = k := (fld_body g 13 _ wd 5 3 (by decide) (by decide) hw).trans ((fld_below (by decide) (by decide)).trans ((fld_below (by decide) (by decide)).trans ((fld_below (by decide) (by decide)).trans (fld_here (n := 8) h4 t4 (by decide)))))
  have f1_0 : fld wd 1 0 = 2 := (fld_body g 13 _ wd 1 0 (by decide) (by decide) hw).trans ((fld_below (by decide) (by decide)).trans ((fld_below (by decide) (by decide)).trans ((fld_below (by decide) (by decide)).trans ((fld_below (by decide) (by decide)).trans (by decide)))))
  have ha : decodeV g wd = need (fld wd 2 2 = 0) (.ok (.vsra g (fld wd 20 16) (fld wd 15 11) (fld wd 10 6) (fld wd 5 3))) := by
    unfold decodeV; rw [em, f1_0]; rfl
  rw [ha]
  simp only [need, f2_2, f20_16, f15_11, f10_6, f5_3, if_true]

theorem RoundTrip.vrol (g : Guard) (d : Nat) (a : Nat) (b : Nat) (k : Nat) : Statement (.vrol g d a b k) := by
  intro h sl hs
  change (decide (g.pred < 12) && decide (d < 32) && decide (a < 32) && decide (b < 32) && decide (k < 8)) = true at h
  simp only [Bool.and_eq_true, decide_eq_true_eq] at h
  obtain ⟨⟨⟨⟨h0, h1⟩, h2⟩, h3⟩, h4⟩ := h
  obtain rfl : SlotClass.v = sl := Option.some.inj (of_decide_eq_true hs)
  have t4 : (3 * 2 ^ 0 + 0) < 2 ^ 3 := lt_field (n := 4) (Nat.lt_succ_self 3) (by decide) (by decide)
  have t3 : (k * 2 ^ 3 + (3 * 2 ^ 0 + 0)) < 2 ^ 6 := lt_field (n := 8) h4 t4 (by decide)
  have t2 : (b * 2 ^ 6 + (k * 2 ^ 3 + (3 * 2 ^ 0 + 0))) < 2 ^ 11 := lt_field (n := 32) h3 t3 (by decide)
  have t1 : (a * 2 ^ 11 + (b * 2 ^ 6 + (k * 2 ^ 3 + (3 * 2 ^ 0 + 0)))) < 2 ^ 16 := lt_field (n := 32) h2 t2 (by decide)
  have t0 : (d * 2 ^ 16 + (a * 2 ^ 11 + (b * 2 ^ 6 + (k * 2 ^ 3 + (3 * 2 ^ 0 + 0))))) < 2 ^ 21 := lt_field (n := 32) h1 t1 (by decide)
  obtain ⟨wd, hw⟩ : ∃ wd, g.neg.toNat * 2 ^ 31 + g.pred * 2 ^ 27 + 13 * 2 ^ 21 + (d * 2 ^ 16 + (a * 2 ^ 11 + (b * 2 ^ 6 + (k * 2 ^ 3 + (3 * 2 ^ 0 + 0))))) = wd := ⟨_, rfl⟩
  change decodeWord .v (g.neg.toNat * 2 ^ 31 + g.pred * 2 ^ 27 + 13 * 2 ^ 21 + (d * 2 ^ 16 + (a * 2 ^ 11 + (b * 2 ^ 6 + (k * 2 ^ 3 + (3 * 2 ^ 0 + 0)))))) = _
  rw [hw, decodeWord_op .v g 13 _ wd h0 (by decide) t0 (by decide) hw]
  change decodeV g wd = _
  have em := fld_major g 13 _ wd (by decide) t0 hw
  have f2_2 : fld wd 2 2 = 0 := (fld_body g 13 _ wd 2 2 (by decide) (by decide) hw).trans ((fld_below (by decide) (by decide)).trans ((fld_below (by decide) (by decide)).trans ((fld_below (by decide) (by decide)).trans ((fld_below (by decide) (by decide)).trans (fld_above (lt_field (n := 4) (Nat.lt_succ_self 3) (by decide) (by decide)))))))
  have f20_16 : fld wd 20 16 = d := (fld_body g 13 _ wd 20 16 (by decide) (by decide) hw).trans (fld_here (n := 32) h1 t1 (by decide))
  have f15_11 : fld wd 15 11 = a := (fld_body g 13 _ wd 15 11 (by decide) (by decide) hw).trans ((fld_below (by decide) (by decide)).trans (fld_here (n := 32) h2 t2 (by decide)))
  have f10_6 : fld wd 10 6 = b := (fld_body g 13 _ wd 10 6 (by decide) (by decide) hw).trans ((fld_below (by decide) (by decide)).trans ((fld_below (by decide) (by decide)).trans (fld_here (n := 32) h3 t3 (by decide))))
  have f5_3 : fld wd 5 3 = k := (fld_body g 13 _ wd 5 3 (by decide) (by decide) hw).trans ((fld_below (by decide) (by decide)).trans ((fld_below (by decide) (by decide)).trans ((fld_below (by decide) (by decide)).trans (fld_here (n := 8) h4 t4 (by decide)))))
  have f1_0 : fld wd 1 0 = 3 := (fld_body g 13 _ wd 1 0 (by decide) (by decide) hw).trans ((fld_below (by decide) (by decide)).trans ((fld_below (by decide) (by decide)).trans ((fld_below (by decide) (by decide)).trans ((fld_below (by decide) (by decide)).trans (fld_here (n := 4) (Nat.lt_succ_self 3) (by decide) (by decide))))))
  have ha : decodeV g wd = need (fld wd 2 2 = 0) (.ok (.vrol g (fld wd 20 16) (fld wd 15 11) (fld wd 10 6) (fld wd 5 3))) := by
    unfold decodeV; rw [em, f1_0]; rfl
  rw [ha]
  simp only [need, f2_2, f20_16, f15_11, f10_6, f5_3, if_true]

theorem RoundTrip.vsllImm (g : Guard) (d : Nat) (a : Nat) (i : Nat) : Statement (.vsllImm g d a i) := by
  intro h sl hs
  change (decide (g.pred < 12) && decide (d < 32) && decide (a < 32) && decide (i < 32)) = true at h
  simp only [Bool.and_eq_true, decide_eq_true_eq] at h
  obtain ⟨⟨⟨h0, h1⟩, h2⟩, h3⟩ := h
  obtain rfl : SlotClass.v = sl := Option.some.inj (of_decide_eq_true hs)
  have t2 : (i * 2 ^ 3 + 0) < 2 ^ 11 := lt_field (n := 32) h3 (by decide) (by decide)
  have t1 : (a * 2 ^ 11 + (i * 2 ^ 3 + 0)) < 2 ^ 16 := lt_field (n := 32) h2 t2 (by decide)
  have t0 : (d * 2 ^ 16 + (a * 2 ^ 11 + (i * 2 ^ 3 + 0))) < 2 ^ 21 := lt_field (n := 32) h1 t1 (by decide)
  obtain ⟨wd, hw⟩ : ∃ wd, g.neg.toNat * 2 ^ 31 + g.pred * 2 ^ 27 + 14 * 2 ^ 21 + (d * 2 ^ 16 + (a * 2 ^ 11 + (i * 2 ^ 3 + 0))) = wd := ⟨_, rfl⟩
  change decodeWord .v (g.neg.toNat * 2 ^ 31 + g.pred * 2 ^ 27 + 14 * 2 ^ 21 + (d * 2 ^ 16 + (a * 2 ^ 11 + (i * 2 ^ 3 + 0)))) = _
  rw [hw, decodeWord_op .v g 14 _ wd h0 (by decide) t0 (by decide) hw]
  change decodeV g wd = _
  have em := fld_major g 14 _ wd (by decide) t0 hw
  have f2_2 : fld wd 2 2 = 0 := (fld_body g 14 _ wd 2 2 (by decide) (by decide) hw).trans ((fld_below (by decide) (by decide)).trans ((fld_below (by decide) (by decide)).trans ((fld_below (by decide) (by decide)).trans (by decide))))
  have f10_3 : fld wd 10 3 = i := (fld_body g 14 _ wd 10 3 (by decide) (by decide) hw).trans ((fld_below (by decide) (by decide)).trans ((fld_below (by decide) (by decide)).trans (fld_here (n := 32) h3 (by decide) (by decide))))
  have f20_16 : fld wd 20 16 = d := (fld_body g 14 _ wd 20 16 (by decide) (by decide) hw).trans (fld_here (n := 32) h1 t1 (by decide))
  have f15_11 : fld wd 15 11 = a := (fld_body g 14 _ wd 15 11 (by decide) (by decide) hw).trans ((fld_below (by decide) (by decide)).trans (fld_here (n := 32) h2 t2 (by decide)))
  have f1_0 : fld wd 1 0 = 0 := (fld_body g 14 _ wd 1 0 (by decide) (by decide) hw).trans ((fld_below (by decide) (by decide)).trans ((fld_below (by decide) (by decide)).trans ((fld_below (by decide) (by decide)).trans (by decide))))
  have ha : decodeV g wd = need (fld wd 2 2 = 0 ∧ fld wd 10 3 < 32) (.ok (.vsllImm g (fld wd 20 16) (fld wd 15 11) (fld wd 10 3))) := by
    unfold decodeV; rw [em, f1_0]; rfl
  rw [ha]
  simp only [need, f2_2, f10_3, f20_16, f15_11, h3, and_self, if_true]

theorem RoundTrip.vsrlImm (g : Guard) (d : Nat) (a : Nat) (i : Nat) : Statement (.vsrlImm g d a i) := by
  intro h sl hs
  change (decide (g.pred < 12) && decide (d < 32) && decide (a < 32) && decide (i < 32)) = true at h
  simp only [Bool.and_eq_true, decide_eq_true_eq] at h
  obtain ⟨⟨⟨h0, h1⟩, h2⟩, h3⟩ := h
  obtain rfl : SlotClass.v = sl := Option.some.inj (of_decide_eq_true hs)
  have t3 : (1 * 2 ^ 0 + 0) < 2 ^ 3 := lt_field (n := 2) (Nat.lt_succ_self 1) (by decide) (by decide)
  have t2 : (i * 2 ^ 3 + (1 * 2 ^ 0 + 0)) < 2 ^ 11 := lt_field (n := 32) h3 t3 (by decide)
  have t1 : (a * 2 ^ 11 + (i * 2 ^ 3 + (1 * 2 ^ 0 + 0))) < 2 ^ 16 := lt_field (n := 32) h2 t2 (by decide)
  have t0 : (d * 2 ^ 16 + (a * 2 ^ 11 + (i * 2 ^ 3 + (1 * 2 ^ 0 + 0)))) < 2 ^ 21 := lt_field (n := 32) h1 t1 (by decide)
  obtain ⟨wd, hw⟩ : ∃ wd, g.neg.toNat * 2 ^ 31 + g.pred * 2 ^ 27 + 14 * 2 ^ 21 + (d * 2 ^ 16 + (a * 2 ^ 11 + (i * 2 ^ 3 + (1 * 2 ^ 0 + 0)))) = wd := ⟨_, rfl⟩
  change decodeWord .v (g.neg.toNat * 2 ^ 31 + g.pred * 2 ^ 27 + 14 * 2 ^ 21 + (d * 2 ^ 16 + (a * 2 ^ 11 + (i * 2 ^ 3 + (1 * 2 ^ 0 + 0))))) = _
  rw [hw, decodeWord_op .v g 14 _ wd h0 (by decide) t0 (by decide) hw]
  change decodeV g wd = _
  have em := fld_major g 14 _ wd (by decide) t0 hw
  have f2_2 : fld wd 2 2 = 0 := (fld_body g 14 _ wd 2 2 (by decide) (by decide) hw).trans ((fld_below (by decide) (by decide)).trans ((fld_below (by decide) (by decide)).trans ((fld_below (by decide) (by decide)).trans (fld_above (lt_field (n := 2) (Nat.lt_succ_self 1) (by decide) (by decide))))))
  have f10_3 : fld wd 10 3 = i := (fld_body g 14 _ wd 10 3 (by decide) (by decide) hw).trans ((fld_below (by decide) (by decide)).trans ((fld_below (by decide) (by decide)).trans (fld_here (n := 32) h3 t3 (by decide))))
  have f20_16 : fld wd 20 16 = d := (fld_body g 14 _ wd 20 16 (by decide) (by decide) hw).trans (fld_here (n := 32) h1 t1 (by decide))
  have f15_11 : fld wd 15 11 = a := (fld_body g 14 _ wd 15 11 (by decide) (by decide) hw).trans ((fld_below (by decide) (by decide)).trans (fld_here (n := 32) h2 t2 (by decide)))
  have f1_0 : fld wd 1 0 = 1 := (fld_body g 14 _ wd 1 0 (by decide) (by decide) hw).trans ((fld_below (by decide) (by decide)).trans ((fld_below (by decide) (by decide)).trans ((fld_below (by decide) (by decide)).trans (fld_here (n := 2) (Nat.lt_succ_self 1) (by decide) (by decide)))))
  have ha : decodeV g wd = need (fld wd 2 2 = 0 ∧ fld wd 10 3 < 32) (.ok (.vsrlImm g (fld wd 20 16) (fld wd 15 11) (fld wd 10 3))) := by
    unfold decodeV; rw [em, f1_0]; rfl
  rw [ha]
  simp only [need, f2_2, f10_3, f20_16, f15_11, h3, and_self, if_true]

theorem RoundTrip.vsraImm (g : Guard) (d : Nat) (a : Nat) (i : Nat) : Statement (.vsraImm g d a i) := by
  intro h sl hs
  change (decide (g.pred < 12) && decide (d < 32) && decide (a < 32) && decide (i < 32)) = true at h
  simp only [Bool.and_eq_true, decide_eq_true_eq] at h
  obtain ⟨⟨⟨h0, h1⟩, h2⟩, h3⟩ := h
  obtain rfl : SlotClass.v = sl := Option.some.inj (of_decide_eq_true hs)
  have t3 : (1 * 2 ^ 1 + 0) < 2 ^ 3 := lt_field (n := 2) (Nat.lt_succ_self 1) (by decide) (by decide)
  have t2 : (i * 2 ^ 3 + (1 * 2 ^ 1 + 0)) < 2 ^ 11 := lt_field (n := 32) h3 t3 (by decide)
  have t1 : (a * 2 ^ 11 + (i * 2 ^ 3 + (1 * 2 ^ 1 + 0))) < 2 ^ 16 := lt_field (n := 32) h2 t2 (by decide)
  have t0 : (d * 2 ^ 16 + (a * 2 ^ 11 + (i * 2 ^ 3 + (1 * 2 ^ 1 + 0)))) < 2 ^ 21 := lt_field (n := 32) h1 t1 (by decide)
  obtain ⟨wd, hw⟩ : ∃ wd, g.neg.toNat * 2 ^ 31 + g.pred * 2 ^ 27 + 14 * 2 ^ 21 + (d * 2 ^ 16 + (a * 2 ^ 11 + (i * 2 ^ 3 + (1 * 2 ^ 1 + 0)))) = wd := ⟨_, rfl⟩
  change decodeWord .v (g.neg.toNat * 2 ^ 31 + g.pred * 2 ^ 27 + 14 * 2 ^ 21 + (d * 2 ^ 16 + (a * 2 ^ 11 + (i * 2 ^ 3 + (1 * 2 ^ 1 + 0))))) = _
  rw [hw, decodeWord_op .v g 14 _ wd h0 (by decide) t0 (by decide) hw]
  change decodeV g wd = _
  have em := fld_major g 14 _ wd (by decide) t0 hw
  have f2_2 : fld wd 2 2 = 0 := (fld_body g 14 _ wd 2 2 (by decide) (by decide) hw).trans ((fld_below (by decide) (by decide)).trans ((fld_below (by decide) (by decide)).trans ((fld_below (by decide) (by decide)).trans (fld_above (lt_field (n := 2) (Nat.lt_succ_self 1) (by decide) (by decide))))))
  have f10_3 : fld wd 10 3 = i := (fld_body g 14 _ wd 10 3 (by decide) (by decide) hw).trans ((fld_below (by decide) (by decide)).trans ((fld_below (by decide) (by decide)).trans (fld_here (n := 32) h3 t3 (by decide))))
  have f20_16 : fld wd 20 16 = d := (fld_body g 14 _ wd 20 16 (by decide) (by decide) hw).trans (fld_here (n := 32) h1 t1 (by decide))
  have f15_11 : fld wd 15 11 = a := (fld_body g 14 _ wd 15 11 (by decide) (by decide) hw).trans ((fld_below (by decide) (by decide)).trans (fld_here (n := 32) h2 t2 (by decide)))
  have f1_0 : fld wd 1 0 = 2 := (fld_body g 14 _ wd 1 0 (by decide) (by decide) hw).trans ((fld_below (by decide) (by decide)).trans ((fld_below (by decide) (by decide)).trans ((fld_below (by decide) (by decide)).trans (by decide))))
  have ha : decodeV g wd = need (fld wd 2 2 = 0 ∧ fld wd 10 3 < 32) (.ok (.vsraImm g (fld wd 20 16) (fld wd 15 11) (fld wd 10 3))) := by
    unfold decodeV; rw [em, f1_0]; rfl
  rw [ha]
  simp only [need, f2_2, f10_3, f20_16, f15_11, h3, and_self, if_true]

theorem RoundTrip.vrolImm (g : Guard) (d : Nat) (a : Nat) (i : Nat) : Statement (.vrolImm g d a i) := by
  intro h sl hs
  change (decide (g.pred < 12) && decide (d < 32) && decide (a < 32) && decide (i < 32)) = true at h
  simp only [Bool.and_eq_true, decide_eq_true_eq] at h
  obtain ⟨⟨⟨h0, h1⟩, h2⟩, h3⟩ := h
  obtain rfl : SlotClass.v = sl := Option.some.inj (of_decide_eq_true hs)
  have t3 : (3 * 2 ^ 0 + 0) < 2 ^ 3 := lt_field (n := 4) (Nat.lt_succ_self 3) (by decide) (by decide)
  have t2 : (i * 2 ^ 3 + (3 * 2 ^ 0 + 0)) < 2 ^ 11 := lt_field (n := 32) h3 t3 (by decide)
  have t1 : (a * 2 ^ 11 + (i * 2 ^ 3 + (3 * 2 ^ 0 + 0))) < 2 ^ 16 := lt_field (n := 32) h2 t2 (by decide)
  have t0 : (d * 2 ^ 16 + (a * 2 ^ 11 + (i * 2 ^ 3 + (3 * 2 ^ 0 + 0)))) < 2 ^ 21 := lt_field (n := 32) h1 t1 (by decide)
  obtain ⟨wd, hw⟩ : ∃ wd, g.neg.toNat * 2 ^ 31 + g.pred * 2 ^ 27 + 14 * 2 ^ 21 + (d * 2 ^ 16 + (a * 2 ^ 11 + (i * 2 ^ 3 + (3 * 2 ^ 0 + 0)))) = wd := ⟨_, rfl⟩
  change decodeWord .v (g.neg.toNat * 2 ^ 31 + g.pred * 2 ^ 27 + 14 * 2 ^ 21 + (d * 2 ^ 16 + (a * 2 ^ 11 + (i * 2 ^ 3 + (3 * 2 ^ 0 + 0))))) = _
  rw [hw, decodeWord_op .v g 14 _ wd h0 (by decide) t0 (by decide) hw]
  change decodeV g wd = _
  have em := fld_major g 14 _ wd (by decide) t0 hw
  have f2_2 : fld wd 2 2 = 0 := (fld_body g 14 _ wd 2 2 (by decide) (by decide) hw).trans ((fld_below (by decide) (by decide)).trans ((fld_below (by decide) (by decide)).trans ((fld_below (by decide) (by decide)).trans (fld_above (lt_field (n := 4) (Nat.lt_succ_self 3) (by decide) (by decide))))))
  have f10_3 : fld wd 10 3 = i := (fld_body g 14 _ wd 10 3 (by decide) (by decide) hw).trans ((fld_below (by decide) (by decide)).trans ((fld_below (by decide) (by decide)).trans (fld_here (n := 32) h3 t3 (by decide))))
  have f20_16 : fld wd 20 16 = d := (fld_body g 14 _ wd 20 16 (by decide) (by decide) hw).trans (fld_here (n := 32) h1 t1 (by decide))
  have f15_11 : fld wd 15 11 = a := (fld_body g 14 _ wd 15 11 (by decide) (by decide) hw).trans ((fld_below (by decide) (by decide)).trans (fld_here (n := 32) h2 t2 (by decide)))
  have f1_0 : fld wd 1 0 = 3 := (fld_body g 14 _ wd 1 0 (by decide) (by decide) hw).trans ((fld_below (by decide) (by decide)).trans ((fld_below (by decide) (by decide)).trans ((fld_below (by decide) (by decide)).trans (fld_here (n := 4) (Nat.lt_succ_self 3) (by decide) (by decide)))))
  have ha : decodeV g wd = need (fld wd 2 2 = 0 ∧ fld wd 10 3 < 32) (.ok (.vrolImm g (fld wd 20 16) (fld wd 15 11) (fld wd 10 3))) := by
    unfold decodeV; rw [em, f1_0]; rfl
  rw [ha]
  simp only [need, f2_2, f10_3, f20_16, f15_11, h3, and_self, if_true]

theorem RoundTrip.vsel (g : Guard) (d : Nat) (a : Nat) (b : Nat) (k : Nat) : Statement (.vsel g d a b k) := by
  intro h sl hs
  change (decide (g.pred < 12) && decide (d < 32) && decide (a < 32) && decide (b < 32) && decide (k < 8)) = true at h
  simp only [Bool.and_eq_true, decide_eq_true_eq] at h
  obtain ⟨⟨⟨⟨h0, h1⟩, h2⟩, h3⟩, h4⟩ := h
  obtain rfl : SlotClass.v = sl := Option.some.inj (of_decide_eq_true hs)
  have t3 : (k * 2 ^ 3 + 0) < 2 ^ 6 := lt_field (n := 8) h4 (by decide) (by decide)
  have t2 : (b * 2 ^ 6 + (k * 2 ^ 3 + 0)) < 2 ^ 11 := lt_field (n := 32) h3 t3 (by decide)
  have t1 : (a * 2 ^ 11 + (b * 2 ^ 6 + (k * 2 ^ 3 + 0))) < 2 ^ 16 := lt_field (n := 32) h2 t2 (by decide)
  have t0 : (d * 2 ^ 16 + (a * 2 ^ 11 + (b * 2 ^ 6 + (k * 2 ^ 3 + 0)))) < 2 ^ 21 := lt_field (n := 32) h1 t1 (by decide)
  obtain ⟨wd, hw⟩ : ∃ wd, g.neg.toNat * 2 ^ 31 + g.pred * 2 ^ 27 + 15 * 2 ^ 21 + (d * 2 ^ 16 + (a * 2 ^ 11 + (b * 2 ^ 6 + (k * 2 ^ 3 + 0)))) = wd := ⟨_, rfl⟩
  change decodeWord .v (g.neg.toNat * 2 ^ 31 + g.pred * 2 ^ 27 + 15 * 2 ^ 21 + (d * 2 ^ 16 + (a * 2 ^ 11 + (b * 2 ^ 6 + (k * 2 ^ 3 + 0))))) = _
  rw [hw, decodeWord_op .v g 15 _ wd h0 (by decide) t0 (by decide) hw]
  change decodeV g wd = _
  have em := fld_major g 15 _ wd (by decide) t0 hw
  have f2_0 : fld wd 2 0 = 0 := (fld_body g 15 _ wd 2 0 (by decide) (by decide) hw).trans ((fld_below (by decide) (by decide)).trans ((fld_below (by decide) (by decide)).trans ((fld_below (by decide) (by decide)).trans ((fld_below (by decide) (by decide)).trans (by decide)))))
  have f20_16 : fld wd 20 16 = d := (fld_body g 15 _ wd 20 16 (by decide) (by decide) hw).trans (fld_here (n := 32) h1 t1 (by decide))
  have f15_11 : fld wd 15 11 = a := (fld_body g 15 _ wd 15 11 (by decide) (by decide) hw).trans ((fld_below (by decide) (by decide)).trans (fld_here (n := 32) h2 t2 (by decide)))
  have f10_6 : fld wd 10 6 = b := (fld_body g 15 _ wd 10 6 (by decide) (by decide) hw).trans ((fld_below (by decide) (by decide)).trans ((fld_below (by decide) (by decide)).trans (fld_here (n := 32) h3 t3 (by decide))))
  have f5_3 : fld wd 5 3 = k := (fld_body g 15 _ wd 5 3 (by decide) (by decide) hw).trans ((fld_below (by decide) (by decide)).trans ((fld_below (by decide) (by decide)).trans ((fld_below (by decide) (by decide)).trans (fld_here (n := 8) h4 (by decide) (by decide)))))
  have ha : decodeV g wd = need (fld wd 2 0 = 0) (.ok (.vsel g (fld wd 20 16) (fld wd 15 11) (fld wd 10 6) (fld wd 5 3))) := by
    unfold decodeV; rw [em]; rfl
  rw [ha]
  simp only [need, f2_0, f20_16, f15_11, f10_6, f5_3, if_true]

theorem RoundTrip.vdotI8I8 (g : Guard) (d : Nat) (a : Nat) (b : Nat) (k : Nat) (s : Bool) : Statement (.vdotI8I8 g d a b k s) := by
  intro h sl hs
  change (decide (g.pred < 12) && decide (d < 32) && decide (a < 32) && decide (b < 32) && decide (k < 8)) = true at h
  simp only [Bool.and_eq_true, decide_eq_true_eq] at h
  obtain ⟨⟨⟨⟨h0, h1⟩, h2⟩, h3⟩, h4⟩ := h
  obtain rfl : SlotClass.v = sl := Option.some.inj (of_decide_eq_true hs)
  have t4 : (s.toNat * 2 ^ 2 + 0) < 2 ^ 3 := lt_field (n := 2) (toNat_lt_two s) (by decide) (by decide)
  have t3 : (k * 2 ^ 3 + (s.toNat * 2 ^ 2 + 0)) < 2 ^ 6 := lt_field (n := 8) h4 t4 (by decide)
  have t2 : (b * 2 ^ 6 + (k * 2 ^ 3 + (s.toNat * 2 ^ 2 + 0))) < 2 ^ 11 := lt_field (n := 32) h3 t3 (by decide)
  have t1 : (a * 2 ^ 11 + (b * 2 ^ 6 + (k * 2 ^ 3 + (s.toNat * 2 ^ 2 + 0)))) < 2 ^ 16 := lt_field (n := 32) h2 t2 (by decide)
  have t0 : (d * 2 ^ 16 + (a * 2 ^ 11 + (b * 2 ^ 6 + (k * 2 ^ 3 + (s.toNat * 2 ^ 2 + 0))))) < 2 ^ 21 := lt_field (n := 32) h1 t1 (by decide)
  obtain ⟨wd, hw⟩ : ∃ wd, g.neg.toNat * 2 ^ 31 + g.pred * 2 ^ 27 + 16 * 2 ^ 21 + (d * 2 ^ 16 + (a * 2 ^ 11 + (b * 2 ^ 6 + (k * 2 ^ 3 + (s.toNat * 2 ^ 2 + 0))))) = wd := ⟨_, rfl⟩
  change decodeWord .v (g.neg.toNat * 2 ^ 31 + g.pred * 2 ^ 27 + 16 * 2 ^ 21 + (d * 2 ^ 16 + (a * 2 ^ 11 + (b * 2 ^ 6 + (k * 2 ^ 3 + (s.toNat * 2 ^ 2 + 0)))))) = _
  rw [hw, decodeWord_op .v g 16 _ wd h0 (by decide) t0 (by decide) hw]
  change decodeV g wd = _
  have em := fld_major g 16 _ wd (by decide) t0 hw
  have f20_16 : fld wd 20 16 = d := (fld_body g 16 _ wd 20 16 (by decide) (by decide) hw).trans (fld_here (n := 32) h1 t1 (by decide))
  have f15_11 : fld wd 15 11 = a := (fld_body g 16 _ wd 15 11 (by decide) (by decide) hw).trans ((fld_below (by decide) (by decide)).trans (fld_here (n := 32) h2 t2 (by decide)))
  have f10_6 : fld wd 10 6 = b := (fld_body g 16 _ wd 10 6 (by decide) (by decide) hw).trans ((fld_below (by decide) (by decide)).trans ((fld_below (by decide) (by decide)).trans (fld_here (n := 32) h3 t3 (by decide))))
  have f5_3 : fld wd 5 3 = k := (fld_body g 16 _ wd 5 3 (by decide) (by decide) hw).trans ((fld_below (by decide) (by decide)).trans ((fld_below (by decide) (by decide)).trans ((fld_below (by decide) (by decide)).trans (fld_here (n := 8) h4 t4 (by decide)))))
  have f2_2 : fld wd 2 2 = s.toNat := (fld_body g 16 _ wd 2 2 (by decide) (by decide) hw).trans ((fld_below (by decide) (by decide)).trans ((fld_below (by decide) (by decide)).trans ((fld_below (by decide) (by decide)).trans ((fld_below (by decide) (by decide)).trans (fld_here (n := 2) (toNat_lt_two s) (by decide) (by decide))))))
  have f1_0 : fld wd 1 0 = 0 := (fld_body g 16 _ wd 1 0 (by decide) (by decide) hw).trans ((fld_below (by decide) (by decide)).trans ((fld_below (by decide) (by decide)).trans ((fld_below (by decide) (by decide)).trans ((fld_below (by decide) (by decide)).trans ((fld_below (by decide) (by decide)).trans (by decide))))))
  have ha : decodeV g wd = .ok (.vdotI8I8 g (fld wd 20 16) (fld wd 15 11) (fld wd 10 6) (fld wd 5 3) (fld wd 2 2 == 1)) := by
    unfold decodeV; rw [em, f1_0]; rfl
  rw [ha]
  rw [f20_16, f15_11, f10_6, f5_3, f2_2, toNat_beq_one]

theorem RoundTrip.vdotN8I8 (g : Guard) (d : Nat) (a : Nat) (b : Nat) (k : Nat) (s : Bool) : Statement (.vdotN8I8 g d a b k s) := by
  intro h sl hs
  change (decide (g.pred < 12) && decide (d < 32) && decide (a < 32) && decide (b < 32) && decide (k < 8)) = true at h
  simp only [Bool.and_eq_true, decide_eq_true_eq] at h
  obtain ⟨⟨⟨⟨h0, h1⟩, h2⟩, h3⟩, h4⟩ := h
  obtain rfl : SlotClass.v = sl := Option.some.inj (of_decide_eq_true hs)
  have t5 : (1 * 2 ^ 0 + 0) < 2 ^ 2 := lt_field (n := 2) (Nat.lt_succ_self 1) (by decide) (by decide)
  have t4 : (s.toNat * 2 ^ 2 + (1 * 2 ^ 0 + 0)) < 2 ^ 3 := lt_field (n := 2) (toNat_lt_two s) t5 (by decide)
  have t3 : (k * 2 ^ 3 + (s.toNat * 2 ^ 2 + (1 * 2 ^ 0 + 0))) < 2 ^ 6 := lt_field (n := 8) h4 t4 (by decide)
  have t2 : (b * 2 ^ 6 + (k * 2 ^ 3 + (s.toNat * 2 ^ 2 + (1 * 2 ^ 0 + 0)))) < 2 ^ 11 := lt_field (n := 32) h3 t3 (by decide)
  have t1 : (a * 2 ^ 11 + (b * 2 ^ 6 + (k * 2 ^ 3 + (s.toNat * 2 ^ 2 + (1 * 2 ^ 0 + 0))))) < 2 ^ 16 := lt_field (n := 32) h2 t2 (by decide)
  have t0 : (d * 2 ^ 16 + (a * 2 ^ 11 + (b * 2 ^ 6 + (k * 2 ^ 3 + (s.toNat * 2 ^ 2 + (1 * 2 ^ 0 + 0)))))) < 2 ^ 21 := lt_field (n := 32) h1 t1 (by decide)
  obtain ⟨wd, hw⟩ : ∃ wd, g.neg.toNat * 2 ^ 31 + g.pred * 2 ^ 27 + 16 * 2 ^ 21 + (d * 2 ^ 16 + (a * 2 ^ 11 + (b * 2 ^ 6 + (k * 2 ^ 3 + (s.toNat * 2 ^ 2 + (1 * 2 ^ 0 + 0)))))) = wd := ⟨_, rfl⟩
  change decodeWord .v (g.neg.toNat * 2 ^ 31 + g.pred * 2 ^ 27 + 16 * 2 ^ 21 + (d * 2 ^ 16 + (a * 2 ^ 11 + (b * 2 ^ 6 + (k * 2 ^ 3 + (s.toNat * 2 ^ 2 + (1 * 2 ^ 0 + 0))))))) = _
  rw [hw, decodeWord_op .v g 16 _ wd h0 (by decide) t0 (by decide) hw]
  change decodeV g wd = _
  have em := fld_major g 16 _ wd (by decide) t0 hw
  have f20_16 : fld wd 20 16 = d := (fld_body g 16 _ wd 20 16 (by decide) (by decide) hw).trans (fld_here (n := 32) h1 t1 (by decide))
  have f15_11 : fld wd 15 11 = a := (fld_body g 16 _ wd 15 11 (by decide) (by decide) hw).trans ((fld_below (by decide) (by decide)).trans (fld_here (n := 32) h2 t2 (by decide)))
  have f10_6 : fld wd 10 6 = b := (fld_body g 16 _ wd 10 6 (by decide) (by decide) hw).trans ((fld_below (by decide) (by decide)).trans ((fld_below (by decide) (by decide)).trans (fld_here (n := 32) h3 t3 (by decide))))
  have f5_3 : fld wd 5 3 = k := (fld_body g 16 _ wd 5 3 (by decide) (by decide) hw).trans ((fld_below (by decide) (by decide)).trans ((fld_below (by decide) (by decide)).trans ((fld_below (by decide) (by decide)).trans (fld_here (n := 8) h4 t4 (by decide)))))
  have f2_2 : fld wd 2 2 = s.toNat := (fld_body g 16 _ wd 2 2 (by decide) (by decide) hw).trans ((fld_below (by decide) (by decide)).trans ((fld_below (by decide) (by decide)).trans ((fld_below (by decide) (by decide)).trans ((fld_below (by decide) (by decide)).trans (fld_here (n := 2) (toNat_lt_two s) t5 (by decide))))))
  have f1_0 : fld wd 1 0 = 1 := (fld_body g 16 _ wd 1 0 (by decide) (by decide) hw).trans ((fld_below (by decide) (by decide)).trans ((fld_below (by decide) (by decide)).trans ((fld_below (by decide) (by decide)).trans ((fld_below (by decide) (by decide)).trans ((fld_below (by decide) (by decide)).trans (fld_here (n := 2) (Nat.lt_succ_self 1) (by decide) (by decide)))))))
  have ha : decodeV g wd = .ok (.vdotN8I8 g (fld wd 20 16) (fld wd 15 11) (fld wd 10 6) (fld wd 5 3) (fld wd 2 2 == 1)) := by
    unfold decodeV; rw [em, f1_0]; rfl
  rw [ha]
  rw [f20_16, f15_11, f10_6, f5_3, f2_2, toNat_beq_one]

theorem RoundTrip.vdotN8N8 (g : Guard) (d : Nat) (a : Nat) (b : Nat) (k : Nat) (s : Bool) : Statement (.vdotN8N8 g d a b k s) := by
  intro h sl hs
  change (decide (g.pred < 12) && decide (d < 32) && decide (a < 32) && decide (b < 32) && decide (k < 8)) = true at h
  simp only [Bool.and_eq_true, decide_eq_true_eq] at h
  obtain ⟨⟨⟨⟨h0, h1⟩, h2⟩, h3⟩, h4⟩ := h
  obtain rfl : SlotClass.v = sl := Option.some.inj (of_decide_eq_true hs)
  have t5 : (1 * 2 ^ 1 + 0) < 2 ^ 2 := lt_field (n := 2) (Nat.lt_succ_self 1) (by decide) (by decide)
  have t4 : (s.toNat * 2 ^ 2 + (1 * 2 ^ 1 + 0)) < 2 ^ 3 := lt_field (n := 2) (toNat_lt_two s) t5 (by decide)
  have t3 : (k * 2 ^ 3 + (s.toNat * 2 ^ 2 + (1 * 2 ^ 1 + 0))) < 2 ^ 6 := lt_field (n := 8) h4 t4 (by decide)
  have t2 : (b * 2 ^ 6 + (k * 2 ^ 3 + (s.toNat * 2 ^ 2 + (1 * 2 ^ 1 + 0)))) < 2 ^ 11 := lt_field (n := 32) h3 t3 (by decide)
  have t1 : (a * 2 ^ 11 + (b * 2 ^ 6 + (k * 2 ^ 3 + (s.toNat * 2 ^ 2 + (1 * 2 ^ 1 + 0))))) < 2 ^ 16 := lt_field (n := 32) h2 t2 (by decide)
  have t0 : (d * 2 ^ 16 + (a * 2 ^ 11 + (b * 2 ^ 6 + (k * 2 ^ 3 + (s.toNat * 2 ^ 2 + (1 * 2 ^ 1 + 0)))))) < 2 ^ 21 := lt_field (n := 32) h1 t1 (by decide)
  obtain ⟨wd, hw⟩ : ∃ wd, g.neg.toNat * 2 ^ 31 + g.pred * 2 ^ 27 + 16 * 2 ^ 21 + (d * 2 ^ 16 + (a * 2 ^ 11 + (b * 2 ^ 6 + (k * 2 ^ 3 + (s.toNat * 2 ^ 2 + (1 * 2 ^ 1 + 0)))))) = wd := ⟨_, rfl⟩
  change decodeWord .v (g.neg.toNat * 2 ^ 31 + g.pred * 2 ^ 27 + 16 * 2 ^ 21 + (d * 2 ^ 16 + (a * 2 ^ 11 + (b * 2 ^ 6 + (k * 2 ^ 3 + (s.toNat * 2 ^ 2 + (1 * 2 ^ 1 + 0))))))) = _
  rw [hw, decodeWord_op .v g 16 _ wd h0 (by decide) t0 (by decide) hw]
  change decodeV g wd = _
  have em := fld_major g 16 _ wd (by decide) t0 hw
  have f20_16 : fld wd 20 16 = d := (fld_body g 16 _ wd 20 16 (by decide) (by decide) hw).trans (fld_here (n := 32) h1 t1 (by decide))
  have f15_11 : fld wd 15 11 = a := (fld_body g 16 _ wd 15 11 (by decide) (by decide) hw).trans ((fld_below (by decide) (by decide)).trans (fld_here (n := 32) h2 t2 (by decide)))
  have f10_6 : fld wd 10 6 = b := (fld_body g 16 _ wd 10 6 (by decide) (by decide) hw).trans ((fld_below (by decide) (by decide)).trans ((fld_below (by decide) (by decide)).trans (fld_here (n := 32) h3 t3 (by decide))))
  have f5_3 : fld wd 5 3 = k := (fld_body g 16 _ wd 5 3 (by decide) (by decide) hw).trans ((fld_below (by decide) (by decide)).trans ((fld_below (by decide) (by decide)).trans ((fld_below (by decide) (by decide)).trans (fld_here (n := 8) h4 t4 (by decide)))))
  have f2_2 : fld wd 2 2 = s.toNat := (fld_body g 16 _ wd 2 2 (by decide) (by decide) hw).trans ((fld_below (by decide) (by decide)).trans ((fld_below (by decide) (by decide)).trans ((fld_below (by decide) (by decide)).trans ((fld_below (by decide) (by decide)).trans (fld_here (n := 2) (toNat_lt_two s) t5 (by decide))))))
  have f1_0 : fld wd 1 0 = 2 := (fld_body g 16 _ wd 1 0 (by decide) (by decide) hw).trans ((fld_below (by decide) (by decide)).trans ((fld_below (by decide) (by decide)).trans ((fld_below (by decide) (by decide)).trans ((fld_below (by decide) (by decide)).trans ((fld_below (by decide) (by decide)).trans (by decide))))))
  have ha : decodeV g wd = .ok (.vdotN8N8 g (fld wd 20 16) (fld wd 15 11) (fld wd 10 6) (fld wd 5 3) (fld wd 2 2 == 1)) := by
    unfold decodeV; rw [em, f1_0]; rfl
  rw [ha]
  rw [f20_16, f15_11, f10_6, f5_3, f2_2, toNat_beq_one]

theorem RoundTrip.vcvt (g : Guard) (d : Nat) (a : Nat) (t : Fmt) (f : Fmt) (r : Rm) : Statement (.vcvt g d a t f r) := by
  intro h sl hs
  change (decide (g.pred < 12) && decide (d < 32) && decide (a < 32) && Fmt.converts f t) = true at h
  simp only [Bool.and_eq_true, decide_eq_true_eq] at h
  obtain ⟨⟨⟨h0, h1⟩, h2⟩, h3⟩ := h
  obtain rfl : SlotClass.v = sl := Option.some.inj (of_decide_eq_true hs)
  have t4 : (r.code * 2 ^ 0 + 0) < 2 ^ 3 := lt_field (n := 8) (rm_code_lt r) (by decide) (by decide)
  have t3 : (f.code * 2 ^ 3 + (r.code * 2 ^ 0 + 0)) < 2 ^ 7 := lt_field (n := 16) (fmt_code_lt f) t4 (by decide)
  have t2 : (t.code * 2 ^ 7 + (f.code * 2 ^ 3 + (r.code * 2 ^ 0 + 0))) < 2 ^ 11 := lt_field (n := 16) (fmt_code_lt t) t3 (by decide)
  have t1 : (a * 2 ^ 11 + (t.code * 2 ^ 7 + (f.code * 2 ^ 3 + (r.code * 2 ^ 0 + 0)))) < 2 ^ 16 := lt_field (n := 32) h2 t2 (by decide)
  have t0 : (d * 2 ^ 16 + (a * 2 ^ 11 + (t.code * 2 ^ 7 + (f.code * 2 ^ 3 + (r.code * 2 ^ 0 + 0))))) < 2 ^ 21 := lt_field (n := 32) h1 t1 (by decide)
  obtain ⟨wd, hw⟩ : ∃ wd, g.neg.toNat * 2 ^ 31 + g.pred * 2 ^ 27 + 17 * 2 ^ 21 + (d * 2 ^ 16 + (a * 2 ^ 11 + (t.code * 2 ^ 7 + (f.code * 2 ^ 3 + (r.code * 2 ^ 0 + 0))))) = wd := ⟨_, rfl⟩
  change decodeWord .v (g.neg.toNat * 2 ^ 31 + g.pred * 2 ^ 27 + 17 * 2 ^ 21 + (d * 2 ^ 16 + (a * 2 ^ 11 + (t.code * 2 ^ 7 + (f.code * 2 ^ 3 + (r.code * 2 ^ 0 + 0)))))) = _
  rw [hw, decodeWord_op .v g 17 _ wd h0 (by decide) t0 (by decide) hw]
  change decodeV g wd = _
  have em := fld_major g 17 _ wd (by decide) t0 hw
  have f10_7 : fld wd 10 7 = t.code := (fld_body g 17 _ wd 10 7 (by decide) (by decide) hw).trans ((fld_below (by decide) (by decide)).trans ((fld_below (by decide) (by decide)).trans (fld_here (n := 16) (fmt_code_lt t) t3 (by decide))))
  have f6_3 : fld wd 6 3 = f.code := (fld_body g 17 _ wd 6 3 (by decide) (by decide) hw).trans ((fld_below (by decide) (by decide)).trans ((fld_below (by decide) (by decide)).trans ((fld_below (by decide) (by decide)).trans (fld_here (n := 16) (fmt_code_lt f) t4 (by decide)))))
  have f2_0 : fld wd 2 0 = r.code := (fld_body g 17 _ wd 2 0 (by decide) (by decide) hw).trans ((fld_below (by decide) (by decide)).trans ((fld_below (by decide) (by decide)).trans ((fld_below (by decide) (by decide)).trans ((fld_below (by decide) (by decide)).trans (fld_here (n := 8) (rm_code_lt r) (by decide) (by decide))))))
  have f20_16 : fld wd 20 16 = d := (fld_body g 17 _ wd 20 16 (by decide) (by decide) hw).trans (fld_here (n := 32) h1 t1 (by decide))
  have f15_11 : fld wd 15 11 = a := (fld_body g 17 _ wd 15 11 (by decide) (by decide) hw).trans ((fld_below (by decide) (by decide)).trans (fld_here (n := 32) h2 t2 (by decide)))
  have ha : decodeV g wd = (match Fmt.ofCode (fld wd 10 7), Fmt.ofCode (fld wd 6 3), Rm.ofCode (fld wd 2 0) with | some t, some f, some r => if Fmt.converts f t then .ok (.vcvt g (fld wd 20 16) (fld wd 15 11) t f r) else .error .unassigned | _, _, _ => .error .reservedFormat) := by
    unfold decodeV; rw [em]; rfl
  rw [ha]
  simp only [f10_7, f6_3, f2_0, f20_16, f15_11, h3, ofCode_code, rmOfCode_code, if_true]

theorem RoundTrip.vcvtSat (g : Guard) (d : Nat) (a : Nat) (t : Fmt) (f : Fmt) (r : Rm) : Statement (.vcvtSat g d a t f r) := by
  intro h sl hs
  change (decide (g.pred < 12) && decide (d < 32) && decide (a < 32) && Fmt.converts f t) = true at h
  simp only [Bool.and_eq_true, decide_eq_true_eq] at h
  obtain ⟨⟨⟨h0, h1⟩, h2⟩, h3⟩ := h
  obtain rfl : SlotClass.v = sl := Option.some.inj (of_decide_eq_true hs)
  have t4 : (r.code * 2 ^ 0 + 0) < 2 ^ 3 := lt_field (n := 8) (rm_code_lt r) (by decide) (by decide)
  have t3 : (f.code * 2 ^ 3 + (r.code * 2 ^ 0 + 0)) < 2 ^ 7 := lt_field (n := 16) (fmt_code_lt f) t4 (by decide)
  have t2 : (t.code * 2 ^ 7 + (f.code * 2 ^ 3 + (r.code * 2 ^ 0 + 0))) < 2 ^ 11 := lt_field (n := 16) (fmt_code_lt t) t3 (by decide)
  have t1 : (a * 2 ^ 11 + (t.code * 2 ^ 7 + (f.code * 2 ^ 3 + (r.code * 2 ^ 0 + 0)))) < 2 ^ 16 := lt_field (n := 32) h2 t2 (by decide)
  have t0 : (d * 2 ^ 16 + (a * 2 ^ 11 + (t.code * 2 ^ 7 + (f.code * 2 ^ 3 + (r.code * 2 ^ 0 + 0))))) < 2 ^ 21 := lt_field (n := 32) h1 t1 (by decide)
  obtain ⟨wd, hw⟩ : ∃ wd, g.neg.toNat * 2 ^ 31 + g.pred * 2 ^ 27 + 18 * 2 ^ 21 + (d * 2 ^ 16 + (a * 2 ^ 11 + (t.code * 2 ^ 7 + (f.code * 2 ^ 3 + (r.code * 2 ^ 0 + 0))))) = wd := ⟨_, rfl⟩
  change decodeWord .v (g.neg.toNat * 2 ^ 31 + g.pred * 2 ^ 27 + 18 * 2 ^ 21 + (d * 2 ^ 16 + (a * 2 ^ 11 + (t.code * 2 ^ 7 + (f.code * 2 ^ 3 + (r.code * 2 ^ 0 + 0)))))) = _
  rw [hw, decodeWord_op .v g 18 _ wd h0 (by decide) t0 (by decide) hw]
  change decodeV g wd = _
  have em := fld_major g 18 _ wd (by decide) t0 hw
  have f10_7 : fld wd 10 7 = t.code := (fld_body g 18 _ wd 10 7 (by decide) (by decide) hw).trans ((fld_below (by decide) (by decide)).trans ((fld_below (by decide) (by decide)).trans (fld_here (n := 16) (fmt_code_lt t) t3 (by decide))))
  have f6_3 : fld wd 6 3 = f.code := (fld_body g 18 _ wd 6 3 (by decide) (by decide) hw).trans ((fld_below (by decide) (by decide)).trans ((fld_below (by decide) (by decide)).trans ((fld_below (by decide) (by decide)).trans (fld_here (n := 16) (fmt_code_lt f) t4 (by decide)))))
  have f2_0 : fld wd 2 0 = r.code := (fld_body g 18 _ wd 2 0 (by decide) (by decide) hw).trans ((fld_below (by decide) (by decide)).trans ((fld_below (by decide) (by decide)).trans ((fld_below (by decide) (by decide)).trans ((fld_below (by decide) (by decide)).trans (fld_here (n := 8) (rm_code_lt r) (by decide) (by decide))))))
  have f20_16 : fld wd 20 16 = d := (fld_body g 18 _ wd 20 16 (by decide) (by decide) hw).trans (fld_here (n := 32) h1 t1 (by decide))
  have f15_11 : fld wd 15 11 = a := (fld_body g 18 _ wd 15 11 (by decide) (by decide) hw).trans ((fld_below (by decide) (by decide)).trans (fld_here (n := 32) h2 t2 (by decide)))
  have ha : decodeV g wd = (match Fmt.ofCode (fld wd 10 7), Fmt.ofCode (fld wd 6 3), Rm.ofCode (fld wd 2 0) with | some t, some f, some r => if Fmt.converts f t then .ok (.vcvtSat g (fld wd 20 16) (fld wd 15 11) t f r) else .error .unassigned | _, _, _ => .error .reservedFormat) := by
    unfold decodeV; rw [em]; rfl
  rw [ha]
  simp only [f10_7, f6_3, f2_0, f20_16, f15_11, h3, ofCode_code, rmOfCode_code, if_true]

theorem RoundTrip.vscaI32 (g : Guard) (d : Nat) (a : Nat) (b : Nat) (k : Nat) (r : Rm) : Statement (.vscaI32 g d a b k r) := by
  intro h sl hs
  change (decide (g.pred < 12) && decide (d < 32) && decide (a < 32) && decide (b < 32) && (b % 2 == 0) && decide (k < 8)) = true at h
  simp only [Bool.and_eq_true, decide_eq_true_eq, beq_iff_eq] at h
  obtain ⟨⟨⟨⟨⟨h0, h1⟩, h2⟩, h3⟩, h4⟩, h5⟩ := h
  obtain rfl : SlotClass.v = sl := Option.some.inj (of_decide_eq_true hs)
  have hq : b / 2 < 16 := by omega
  have t4 : (r.code * 2 ^ 0 + 0) < 2 ^ 3 := lt_field (n := 8) (rm_code_lt r) (by decide) (by decide)
  have t3 : (k * 2 ^ 3 + (r.code * 2 ^ 0 + 0)) < 2 ^ 7 := lt_field (n := 8) h5 t4 (by decide)
  have t2 : (b / 2 * 2 ^ 7 + (k * 2 ^ 3 + (r.code * 2 ^ 0 + 0))) < 2 ^ 11 := lt_field (n := 16) hq t3 (by decide)
  have t1 : (a * 2 ^ 11 + (b / 2 * 2 ^ 7 + (k * 2 ^ 3 + (r.code * 2 ^ 0 + 0)))) < 2 ^ 16 := lt_field (n := 32) h2 t2 (by decide)
  have t0 : (d * 2 ^ 16 + (a * 2 ^ 11 + (b / 2 * 2 ^ 7 + (k * 2 ^ 3 + (r.code * 2 ^ 0 + 0))))) < 2 ^ 21 := lt_field (n := 32) h1 t1 (by decide)
  obtain ⟨wd, hw⟩ : ∃ wd, g.neg.toNat * 2 ^ 31 + g.pred * 2 ^ 27 + 19 * 2 ^ 21 + (d * 2 ^ 16 + (a * 2 ^ 11 + (b / 2 * 2 ^ 7 + (k * 2 ^ 3 + (r.code * 2 ^ 0 + 0))))) = wd := ⟨_, rfl⟩
  change decodeWord .v (g.neg.toNat * 2 ^ 31 + g.pred * 2 ^ 27 + 19 * 2 ^ 21 + (d * 2 ^ 16 + (a * 2 ^ 11 + (b / 2 * 2 ^ 7 + (k * 2 ^ 3 + (r.code * 2 ^ 0 + 0)))))) = _
  rw [hw, decodeWord_op .v g 19 _ wd h0 (by decide) t0 (by decide) hw]
  change decodeV g wd = _
  have em := fld_major g 19 _ wd (by decide) t0 hw
  have f6_6 : fld wd 6 6 = 0 := (fld_body g 19 _ wd 6 6 (by decide) (by decide) hw).trans ((fld_below (by decide) (by decide)).trans ((fld_below (by decide) (by decide)).trans ((fld_below (by decide) (by decide)).trans (fld_above (lt_field (n := 8) h5 t4 (by decide))))))
  have f2_0 : fld wd 2 0 = r.code := (fld_body g 19 _ wd 2 0 (by decide) (by decide) hw).trans ((fld_below (by decide) (by decide)).trans ((fld_below (by decide) (by decide)).trans ((fld_below (by decide) (by decide)).trans ((fld_below (by decide) (by decide)).trans (fld_here (n := 8) (rm_code_lt r) (by decide) (by decide))))))
  have f20_16 : fld wd 20 16 = d := (fld_body g 19 _ wd 20 16 (by decide) (by decide) hw).trans (fld_here (n := 32) h1 t1 (by decide))
  have f15_11 : fld wd 15 11 = a := (fld_body g 19 _ wd 15 11 (by decide) (by decide) hw).trans ((fld_below (by decide) (by decide)).trans (fld_here (n := 32) h2 t2 (by decide)))
  have f10_7 : fld wd 10 7 = b / 2 := (fld_body g 19 _ wd 10 7 (by decide) (by decide) hw).trans ((fld_below (by decide) (by decide)).trans ((fld_below (by decide) (by decide)).trans (fld_here (n := 16) hq t3 (by decide))))
  have f5_3 : fld wd 5 3 = k := (fld_body g 19 _ wd 5 3 (by decide) (by decide) hw).trans ((fld_below (by decide) (by decide)).trans ((fld_below (by decide) (by decide)).trans ((fld_below (by decide) (by decide)).trans (fld_here (n := 8) h5 t4 (by decide)))))
  have ha : decodeV g wd = need (fld wd 6 6 = 0) (match Rm.ofCode (fld wd 2 0) with | some r => .ok (.vscaI32 g (fld wd 20 16) (fld wd 15 11) (2 * fld wd 10 7) (fld wd 5 3) r) | _ => .error .reservedFormat) := by
    unfold decodeV; rw [em]; rfl
  rw [ha]
  have he : 2 * (b / 2) = b := by omega
  simp only [need, f6_6, f2_0, f20_16, f15_11, f10_7, f5_3, rmOfCode_code, he, if_true]

theorem RoundTrip.vscaF32 (g : Guard) (d : Nat) (a : Nat) (b : Nat) (k : Nat) (r : Rm) : Statement (.vscaF32 g d a b k r) := by
  intro h sl hs
  change (decide (g.pred < 12) && decide (d < 32) && decide (a < 32) && decide (b < 32) && (b % 2 == 0) && decide (k < 8)) = true at h
  simp only [Bool.and_eq_true, decide_eq_true_eq, beq_iff_eq] at h
  obtain ⟨⟨⟨⟨⟨h0, h1⟩, h2⟩, h3⟩, h4⟩, h5⟩ := h
  obtain rfl : SlotClass.v = sl := Option.some.inj (of_decide_eq_true hs)
  have hq : b / 2 < 16 := by omega
  have t4 : (r.code * 2 ^ 0 + 0) < 2 ^ 3 := lt_field (n := 8) (rm_code_lt r) (by decide) (by decide)
  have t3 : (k * 2 ^ 3 + (r.code * 2 ^ 0 + 0)) < 2 ^ 7 := lt_field (n := 8) h5 t4 (by decide)
  have t2 : (b / 2 * 2 ^ 7 + (k * 2 ^ 3 + (r.code * 2 ^ 0 + 0))) < 2 ^ 11 := lt_field (n := 16) hq t3 (by decide)
  have t1 : (a * 2 ^ 11 + (b / 2 * 2 ^ 7 + (k * 2 ^ 3 + (r.code * 2 ^ 0 + 0)))) < 2 ^ 16 := lt_field (n := 32) h2 t2 (by decide)
  have t0 : (d * 2 ^ 16 + (a * 2 ^ 11 + (b / 2 * 2 ^ 7 + (k * 2 ^ 3 + (r.code * 2 ^ 0 + 0))))) < 2 ^ 21 := lt_field (n := 32) h1 t1 (by decide)
  obtain ⟨wd, hw⟩ : ∃ wd, g.neg.toNat * 2 ^ 31 + g.pred * 2 ^ 27 + 20 * 2 ^ 21 + (d * 2 ^ 16 + (a * 2 ^ 11 + (b / 2 * 2 ^ 7 + (k * 2 ^ 3 + (r.code * 2 ^ 0 + 0))))) = wd := ⟨_, rfl⟩
  change decodeWord .v (g.neg.toNat * 2 ^ 31 + g.pred * 2 ^ 27 + 20 * 2 ^ 21 + (d * 2 ^ 16 + (a * 2 ^ 11 + (b / 2 * 2 ^ 7 + (k * 2 ^ 3 + (r.code * 2 ^ 0 + 0)))))) = _
  rw [hw, decodeWord_op .v g 20 _ wd h0 (by decide) t0 (by decide) hw]
  change decodeV g wd = _
  have em := fld_major g 20 _ wd (by decide) t0 hw
  have f6_6 : fld wd 6 6 = 0 := (fld_body g 20 _ wd 6 6 (by decide) (by decide) hw).trans ((fld_below (by decide) (by decide)).trans ((fld_below (by decide) (by decide)).trans ((fld_below (by decide) (by decide)).trans (fld_above (lt_field (n := 8) h5 t4 (by decide))))))
  have f2_0 : fld wd 2 0 = r.code := (fld_body g 20 _ wd 2 0 (by decide) (by decide) hw).trans ((fld_below (by decide) (by decide)).trans ((fld_below (by decide) (by decide)).trans ((fld_below (by decide) (by decide)).trans ((fld_below (by decide) (by decide)).trans (fld_here (n := 8) (rm_code_lt r) (by decide) (by decide))))))
  have f20_16 : fld wd 20 16 = d := (fld_body g 20 _ wd 20 16 (by decide) (by decide) hw).trans (fld_here (n := 32) h1 t1 (by decide))
  have f15_11 : fld wd 15 11 = a := (fld_body g 20 _ wd 15 11 (by decide) (by decide) hw).trans ((fld_below (by decide) (by decide)).trans (fld_here (n := 32) h2 t2 (by decide)))
  have f10_7 : fld wd 10 7 = b / 2 := (fld_body g 20 _ wd 10 7 (by decide) (by decide) hw).trans ((fld_below (by decide) (by decide)).trans ((fld_below (by decide) (by decide)).trans (fld_here (n := 16) hq t3 (by decide))))
  have f5_3 : fld wd 5 3 = k := (fld_body g 20 _ wd 5 3 (by decide) (by decide) hw).trans ((fld_below (by decide) (by decide)).trans ((fld_below (by decide) (by decide)).trans ((fld_below (by decide) (by decide)).trans (fld_here (n := 8) h5 t4 (by decide)))))
  have ha : decodeV g wd = need (fld wd 6 6 = 0) (match Rm.ofCode (fld wd 2 0) with | some r => .ok (.vscaF32 g (fld wd 20 16) (fld wd 15 11) (2 * fld wd 10 7) (fld wd 5 3) r) | _ => .error .reservedFormat) := by
    unfold decodeV; rw [em]; rfl
  rw [ha]
  have he : 2 * (b / 2) = b := by omega
  simp only [need, f6_6, f2_0, f20_16, f15_11, f10_7, f5_3, rmOfCode_code, he, if_true]

theorem RoundTrip.vsplat (g : Guard) (d : Nat) (a : Nat) (k : Nat) : Statement (.vsplat g d a k) := by
  intro h sl hs
  change (decide (g.pred < 12) && decide (d < 32) && decide (a < 32) && decide (k < 8)) = true at h
  simp only [Bool.and_eq_true, decide_eq_true_eq] at h
  obtain ⟨⟨⟨h0, h1⟩, h2⟩, h3⟩ := h
  obtain rfl : SlotClass.v = sl := Option.some.inj (of_decide_eq_true hs)
  have t2 : (k * 2 ^ 3 + 0) < 2 ^ 11 := lt_field (n := 8) h3 (by decide) (by decide)
  have t1 : (a * 2 ^ 11 + (k * 2 ^ 3 + 0)) < 2 ^ 16 := lt_field (n := 32) h2 t2 (by decide)
  have t0 : (d * 2 ^ 16 + (a * 2 ^ 11 + (k * 2 ^ 3 + 0))) < 2 ^ 21 := lt_field (n := 32) h1 t1 (by decide)
  obtain ⟨wd, hw⟩ : ∃ wd, g.neg.toNat * 2 ^ 31 + g.pred * 2 ^ 27 + 21 * 2 ^ 21 + (d * 2 ^ 16 + (a * 2 ^ 11 + (k * 2 ^ 3 + 0))) = wd := ⟨_, rfl⟩
  change decodeWord .v (g.neg.toNat * 2 ^ 31 + g.pred * 2 ^ 27 + 21 * 2 ^ 21 + (d * 2 ^ 16 + (a * 2 ^ 11 + (k * 2 ^ 3 + 0)))) = _
  rw [hw, decodeWord_op .v g 21 _ wd h0 (by decide) t0 (by decide) hw]
  change decodeV g wd = _
  have em := fld_major g 21 _ wd (by decide) t0 hw
  have f10_6 : fld wd 10 6 = 0 := (fld_body g 21 _ wd 10 6 (by decide) (by decide) hw).trans ((fld_below (by decide) (by decide)).trans ((fld_below (by decide) (by decide)).trans (fld_above (lt_field (n := 8) h3 (by decide) (by decide)))))
  have f2_0 : fld wd 2 0 = 0 := (fld_body g 21 _ wd 2 0 (by decide) (by decide) hw).trans ((fld_below (by decide) (by decide)).trans ((fld_below (by decide) (by decide)).trans ((fld_below (by decide) (by decide)).trans (by decide))))
  have f20_16 : fld wd 20 16 = d := (fld_body g 21 _ wd 20 16 (by decide) (by decide) hw).trans (fld_here (n := 32) h1 t1 (by decide))
  have f15_11 : fld wd 15 11 = a := (fld_body g 21 _ wd 15 11 (by decide) (by decide) hw).trans ((fld_below (by decide) (by decide)).trans (fld_here (n := 32) h2 t2 (by decide)))
  have f5_3 : fld wd 5 3 = k := (fld_body g 21 _ wd 5 3 (by decide) (by decide) hw).trans ((fld_below (by decide) (by decide)).trans ((fld_below (by decide) (by decide)).trans (fld_here (n := 8) h3 (by decide) (by decide))))
  have ha : decodeV g wd = need (fld wd 10 6 = 0 ∧ fld wd 2 0 = 0) (.ok (.vsplat g (fld wd 20 16) (fld wd 15 11) (fld wd 5 3))) := by
    unfold decodeV; rw [em]; rfl
  rw [ha]
  simp only [need, f10_6, f2_0, f20_16, f15_11, f5_3, and_self, if_true]

theorem RoundTrip.vrotr (g : Guard) (d : Nat) (a : Nat) (i : Nat) : Statement (.vrotr g d a i) := by
  intro h sl hs
  change (decide (g.pred < 12) && decide (d < 32) && decide (a < 32) && decide (i < 64)) = true at h
  simp only [Bool.and_eq_true, decide_eq_true_eq] at h
  obtain ⟨⟨⟨h0, h1⟩, h2⟩, h3⟩ := h
  obtain rfl : SlotClass.v = sl := Option.some.inj (of_decide_eq_true hs)
  have t2 : (i * 2 ^ 3 + 0) < 2 ^ 11 := lt_field (n := 64) h3 (by decide) (by decide)
  have t1 : (a * 2 ^ 11 + (i * 2 ^ 3 + 0)) < 2 ^ 16 := lt_field (n := 32) h2 t2 (by decide)
  have t0 : (d * 2 ^ 16 + (a * 2 ^ 11 + (i * 2 ^ 3 + 0))) < 2 ^ 21 := lt_field (n := 32) h1 t1 (by decide)
  obtain ⟨wd, hw⟩ : ∃ wd, g.neg.toNat * 2 ^ 31 + g.pred * 2 ^ 27 + 24 * 2 ^ 21 + (d * 2 ^ 16 + (a * 2 ^ 11 + (i * 2 ^ 3 + 0))) = wd := ⟨_, rfl⟩
  change decodeWord .v (g.neg.toNat * 2 ^ 31 + g.pred * 2 ^ 27 + 24 * 2 ^ 21 + (d * 2 ^ 16 + (a * 2 ^ 11 + (i * 2 ^ 3 + 0)))) = _
  rw [hw, decodeWord_op .v g 24 _ wd h0 (by decide) t0 (by decide) hw]
  change decodeV g wd = _
  have em := fld_major g 24 _ wd (by decide) t0 hw
  have f2_1 : fld wd 2 1 = 0 := (fld_body g 24 _ wd 2 1 (by decide) (by decide) hw).trans ((fld_below (by decide) (by decide)).trans ((fld_below (by decide) (by decide)).trans ((fld_below (by decide) (by decide)).trans (by decide))))
  have f10_3 : fld wd 10 3 = i := (fld_body g 24 _ wd 10 3 (by decide) (by decide) hw).trans ((fld_below (by decide) (by decide)).trans ((fld_below (by decide) (by decide)).trans (fld_here (n := 64) h3 (by decide) (by decide))))
  have f20_16 : fld wd 20 16 = d := (fld_body g 24 _ wd 20 16 (by decide) (by decide) hw).trans (fld_here (n := 32) h1 t1 (by decide))
  have f15_11 : fld wd 15 11 = a := (fld_body g 24 _ wd 15 11 (by decide) (by decide) hw).trans ((fld_below (by decide) (by decide)).trans (fld_here (n := 32) h2 t2 (by decide)))
  have f0_0 : fld wd 0 0 = 0 := (fld_body g 24 _ wd 0 0 (by decide) (by decide) hw).trans ((fld_below (by decide) (by decide)).trans ((fld_below (by decide) (by decide)).trans ((fld_below (by decide) (by decide)).trans (by decide))))
  have ha : decodeV g wd = need (fld wd 2 1 = 0 ∧ fld wd 10 3 < 64) (.ok (.vrotr g (fld wd 20 16) (fld wd 15 11) (fld wd 10 3))) := by
    unfold decodeV; rw [em, f0_0]; rfl
  rw [ha]
  simp only [need, f2_1, f10_3, f20_16, f15_11, h3, and_self, if_true]

theorem RoundTrip.vbcr (g : Guard) (d : Nat) (a : Nat) (i : Nat) : Statement (.vbcr g d a i) := by
  intro h sl hs
  change (decide (g.pred < 12) && decide (d < 32) && decide (a < 32) && decide (i < 64)) = true at h
  simp only [Bool.and_eq_true, decide_eq_true_eq] at h
  obtain ⟨⟨⟨h0, h1⟩, h2⟩, h3⟩ := h
  obtain rfl : SlotClass.v = sl := Option.some.inj (of_decide_eq_true hs)
  have t3 : (1 * 2 ^ 0 + 0) < 2 ^ 3 := lt_field (n := 2) (Nat.lt_succ_self 1) (by decide) (by decide)
  have t2 : (i * 2 ^ 3 + (1 * 2 ^ 0 + 0)) < 2 ^ 11 := lt_field (n := 64) h3 t3 (by decide)
  have t1 : (a * 2 ^ 11 + (i * 2 ^ 3 + (1 * 2 ^ 0 + 0))) < 2 ^ 16 := lt_field (n := 32) h2 t2 (by decide)
  have t0 : (d * 2 ^ 16 + (a * 2 ^ 11 + (i * 2 ^ 3 + (1 * 2 ^ 0 + 0)))) < 2 ^ 21 := lt_field (n := 32) h1 t1 (by decide)
  obtain ⟨wd, hw⟩ : ∃ wd, g.neg.toNat * 2 ^ 31 + g.pred * 2 ^ 27 + 24 * 2 ^ 21 + (d * 2 ^ 16 + (a * 2 ^ 11 + (i * 2 ^ 3 + (1 * 2 ^ 0 + 0)))) = wd := ⟨_, rfl⟩
  change decodeWord .v (g.neg.toNat * 2 ^ 31 + g.pred * 2 ^ 27 + 24 * 2 ^ 21 + (d * 2 ^ 16 + (a * 2 ^ 11 + (i * 2 ^ 3 + (1 * 2 ^ 0 + 0))))) = _
  rw [hw, decodeWord_op .v g 24 _ wd h0 (by decide) t0 (by decide) hw]
  change decodeV g wd = _
  have em := fld_major g 24 _ wd (by decide) t0 hw
  have f2_1 : fld wd 2 1 = 0 := (fld_body g 24 _ wd 2 1 (by decide) (by decide) hw).trans ((fld_below (by decide) (by decide)).trans ((fld_below (by decide) (by decide)).trans ((fld_below (by decide) (by decide)).trans (fld_above (lt_field (n := 2) (Nat.lt_succ_self 1) (by decide) (by decide))))))
  have f10_3 : fld wd 10 3 = i := (fld_body g 24 _ wd 10 3 (by decide) (by decide) hw).trans ((fld_below (by decide) (by decide)).trans ((fld_below (by decide) (by decide)).trans (fld_here (n := 64) h3 t3 (by decide))))
  have f20_16 : fld wd 20 16 = d := (fld_body g 24 _ wd 20 16 (by decide) (by decide) hw).trans (fld_here (n := 32) h1 t1 (by decide))
  have f15_11 : fld wd 15 11 = a := (fld_body g 24 _ wd 15 11 (by decide) (by decide) hw).trans ((fld_below (by decide) (by decide)).trans (fld_here (n := 32) h2 t2 (by decide)))
  have f0_0 : fld wd 0 0 = 1 := (fld_body g 24 _ wd 0 0 (by decide) (by decide) hw).trans ((fld_below (by decide) (by decide)).trans ((fld_below (by decide) (by decide)).trans ((fld_below (by decide) (by decide)).trans (fld_here (n := 2) (Nat.lt_succ_self 1) (by decide) (by decide)))))
  have ha : decodeV g wd = need (fld wd 2 1 = 0 ∧ fld wd 10 3 < 64) (.ok (.vbcr g (fld wd 20 16) (fld wd 15 11) (fld wd 10 3))) := by
    unfold decodeV; rw [em, f0_0]; rfl
  rw [ha]
  simp only [need, f2_1, f10_3, f20_16, f15_11, h3, and_self, if_true]

theorem RoundTrip.vrotc (g : Guard) (d : Nat) (a : Nat) (i : Nat) : Statement (.vrotc g d a i) := by
  intro h sl hs
  change (decide (g.pred < 12) && decide (d < 32) && decide (a < 32) && decide (i < 16)) = true at h
  simp only [Bool.and_eq_true, decide_eq_true_eq] at h
  obtain ⟨⟨⟨h0, h1⟩, h2⟩, h3⟩ := h
  obtain rfl : SlotClass.v = sl := Option.some.inj (of_decide_eq_true hs)
  have t2 : (i * 2 ^ 3 + 0) < 2 ^ 11 := lt_field (n := 16) h3 (by decide) (by decide)
  have t1 : (a * 2 ^ 11 + (i * 2 ^ 3 + 0)) < 2 ^ 16 := lt_field (n := 32) h2 t2 (by decide)
  have t0 : (d * 2 ^ 16 + (a * 2 ^ 11 + (i * 2 ^ 3 + 0))) < 2 ^ 21 := lt_field (n := 32) h1 t1 (by decide)
  obtain ⟨wd, hw⟩ : ∃ wd, g.neg.toNat * 2 ^ 31 + g.pred * 2 ^ 27 + 25 * 2 ^ 21 + (d * 2 ^ 16 + (a * 2 ^ 11 + (i * 2 ^ 3 + 0))) = wd := ⟨_, rfl⟩
  change decodeWord .v (g.neg.toNat * 2 ^ 31 + g.pred * 2 ^ 27 + 25 * 2 ^ 21 + (d * 2 ^ 16 + (a * 2 ^ 11 + (i * 2 ^ 3 + 0)))) = _
  rw [hw, decodeWord_op .v g 25 _ wd h0 (by decide) t0 (by decide) hw]
  change decodeV g wd = _
  have em := fld_major g 25 _ wd (by decide) t0 hw
  have f2_1 : fld wd 2 1 = 0 := (fld_body g 25 _ wd 2 1 (by decide) (by decide) hw).trans ((fld_below (by decide) (by decide)).trans ((fld_below (by decide) (by decide)).trans ((fld_below (by decide) (by decide)).trans (by decide))))
  have f10_3 : fld wd 10 3 = i := (fld_body g 25 _ wd 10 3 (by decide) (by decide) hw).trans ((fld_below (by decide) (by decide)).trans ((fld_below (by decide) (by decide)).trans (fld_here (n := 16) h3 (by decide) (by decide))))
  have f20_16 : fld wd 20 16 = d := (fld_body g 25 _ wd 20 16 (by decide) (by decide) hw).trans (fld_here (n := 32) h1 t1 (by decide))
  have f15_11 : fld wd 15 11 = a := (fld_body g 25 _ wd 15 11 (by decide) (by decide) hw).trans ((fld_below (by decide) (by decide)).trans (fld_here (n := 32) h2 t2 (by decide)))
  have f0_0 : fld wd 0 0 = 0 := (fld_body g 25 _ wd 0 0 (by decide) (by decide) hw).trans ((fld_below (by decide) (by decide)).trans ((fld_below (by decide) (by decide)).trans ((fld_below (by decide) (by decide)).trans (by decide))))
  have ha : decodeV g wd = need (fld wd 2 1 = 0 ∧ fld wd 10 3 < 16) (.ok (.vrotc g (fld wd 20 16) (fld wd 15 11) (fld wd 10 3))) := by
    unfold decodeV; rw [em, f0_0]; rfl
  rw [ha]
  simp only [need, f2_1, f10_3, f20_16, f15_11, h3, and_self, if_true]

theorem RoundTrip.vbcc (g : Guard) (d : Nat) (a : Nat) (i : Nat) : Statement (.vbcc g d a i) := by
  intro h sl hs
  change (decide (g.pred < 12) && decide (d < 32) && decide (a < 32) && decide (i < 16)) = true at h
  simp only [Bool.and_eq_true, decide_eq_true_eq] at h
  obtain ⟨⟨⟨h0, h1⟩, h2⟩, h3⟩ := h
  obtain rfl : SlotClass.v = sl := Option.some.inj (of_decide_eq_true hs)
  have t3 : (1 * 2 ^ 0 + 0) < 2 ^ 3 := lt_field (n := 2) (Nat.lt_succ_self 1) (by decide) (by decide)
  have t2 : (i * 2 ^ 3 + (1 * 2 ^ 0 + 0)) < 2 ^ 11 := lt_field (n := 16) h3 t3 (by decide)
  have t1 : (a * 2 ^ 11 + (i * 2 ^ 3 + (1 * 2 ^ 0 + 0))) < 2 ^ 16 := lt_field (n := 32) h2 t2 (by decide)
  have t0 : (d * 2 ^ 16 + (a * 2 ^ 11 + (i * 2 ^ 3 + (1 * 2 ^ 0 + 0)))) < 2 ^ 21 := lt_field (n := 32) h1 t1 (by decide)
  obtain ⟨wd, hw⟩ : ∃ wd, g.neg.toNat * 2 ^ 31 + g.pred * 2 ^ 27 + 25 * 2 ^ 21 + (d * 2 ^ 16 + (a * 2 ^ 11 + (i * 2 ^ 3 + (1 * 2 ^ 0 + 0)))) = wd := ⟨_, rfl⟩
  change decodeWord .v (g.neg.toNat * 2 ^ 31 + g.pred * 2 ^ 27 + 25 * 2 ^ 21 + (d * 2 ^ 16 + (a * 2 ^ 11 + (i * 2 ^ 3 + (1 * 2 ^ 0 + 0))))) = _
  rw [hw, decodeWord_op .v g 25 _ wd h0 (by decide) t0 (by decide) hw]
  change decodeV g wd = _
  have em := fld_major g 25 _ wd (by decide) t0 hw
  have f2_1 : fld wd 2 1 = 0 := (fld_body g 25 _ wd 2 1 (by decide) (by decide) hw).trans ((fld_below (by decide) (by decide)).trans ((fld_below (by decide) (by decide)).trans ((fld_below (by decide) (by decide)).trans (fld_above (lt_field (n := 2) (Nat.lt_succ_self 1) (by decide) (by decide))))))
  have f10_3 : fld wd 10 3 = i := (fld_body g 25 _ wd 10 3 (by decide) (by decide) hw).trans ((fld_below (by decide) (by decide)).trans ((fld_below (by decide) (by decide)).trans (fld_here (n := 16) h3 t3 (by decide))))
  have f20_16 : fld wd 20 16 = d := (fld_body g 25 _ wd 20 16 (by decide) (by decide) hw).trans (fld_here (n := 32) h1 t1 (by decide))
  have f15_11 : fld wd 15 11 = a := (fld_body g 25 _ wd 15 11 (by decide) (by decide) hw).trans ((fld_below (by decide) (by decide)).trans (fld_here (n := 32) h2 t2 (by decide)))
  have f0_0 : fld wd 0 0 = 1 := (fld_body g 25 _ wd 0 0 (by decide) (by decide) hw).trans ((fld_below (by decide) (by decide)).trans ((fld_below (by decide) (by decide)).trans ((fld_below (by decide) (by decide)).trans (fld_here (n := 2) (Nat.lt_succ_self 1) (by decide) (by decide)))))
  have ha : decodeV g wd = need (fld wd 2 1 = 0 ∧ fld wd 10 3 < 16) (.ok (.vbcc g (fld wd 20 16) (fld wd 15 11) (fld wd 10 3))) := by
    unfold decodeV; rw [em, f0_0]; rfl
  rw [ha]
  simp only [need, f2_1, f10_3, f20_16, f15_11, h3, and_self, if_true]

theorem RoundTrip.vredrSumF32 (g : Guard) (d : Nat) (a : Nat) (k : Nat) : Statement (.vredrSumF32 g d a k) := by
  intro h sl hs
  change (decide (g.pred < 12) && decide (d < 32) && decide (a < 32) && decide (k < 8)) = true at h
  simp only [Bool.and_eq_true, decide_eq_true_eq] at h
  obtain ⟨⟨⟨h0, h1⟩, h2⟩, h3⟩ := h
  obtain rfl : SlotClass.v = sl := Option.some.inj (of_decide_eq_true hs)
  have t2 : (k * 2 ^ 3 + 0) < 2 ^ 11 := lt_field (n := 8) h3 (by decide) (by decide)
  have t1 : (a * 2 ^ 11 + (k * 2 ^ 3 + 0)) < 2 ^ 16 := lt_field (n := 32) h2 t2 (by decide)
  have t0 : (d * 2 ^ 16 + (a * 2 ^ 11 + (k * 2 ^ 3 + 0))) < 2 ^ 21 := lt_field (n := 32) h1 t1 (by decide)
  obtain ⟨wd, hw⟩ : ∃ wd, g.neg.toNat * 2 ^ 31 + g.pred * 2 ^ 27 + 26 * 2 ^ 21 + (d * 2 ^ 16 + (a * 2 ^ 11 + (k * 2 ^ 3 + 0))) = wd := ⟨_, rfl⟩
  change decodeWord .v (g.neg.toNat * 2 ^ 31 + g.pred * 2 ^ 27 + 26 * 2 ^ 21 + (d * 2 ^ 16 + (a * 2 ^ 11 + (k * 2 ^ 3 + 0)))) = _
  rw [hw, decodeWord_op .v g 26 _ wd h0 (by decide) t0 (by decide) hw]
  change decodeV g wd = _
  have em := fld_major g 26 _ wd (by decide) t0 hw
  have f10_6 : fld wd 10 6 = 0 := (fld_body g 26 _ wd 10 6 (by decide) (by decide) hw).trans ((fld_below (by decide) (by decide)).trans ((fld_below (by decide) (by decide)).trans (fld_above (lt_field (n := 8) h3 (by decide) (by decide)))))
  have f20_16 : fld wd 20 16 = d := (fld_body g 26 _ wd 20 16 (by decide) (by decide) hw).trans (fld_here (n := 32) h1 t1 (by decide))
  have f15_11 : fld wd 15 11 = a := (fld_body g 26 _ wd 15 11 (by decide) (by decide) hw).trans ((fld_below (by decide) (by decide)).trans (fld_here (n := 32) h2 t2 (by decide)))
  have f5_3 : fld wd 5 3 = k := (fld_body g 26 _ wd 5 3 (by decide) (by decide) hw).trans ((fld_below (by decide) (by decide)).trans ((fld_below (by decide) (by decide)).trans (fld_here (n := 8) h3 (by decide) (by decide))))
  have f2_0 : fld wd 2 0 = 0 := (fld_body g 26 _ wd 2 0 (by decide) (by decide) hw).trans ((fld_below (by decide) (by decide)).trans ((fld_below (by decide) (by decide)).trans ((fld_below (by decide) (by decide)).trans (by decide))))
  have ha : decodeV g wd = need (fld wd 10 6 = 0) (.ok (.vredrSumF32 g (fld wd 20 16) (fld wd 15 11) (fld wd 5 3))) := by
    unfold decodeV; rw [em, f2_0]; rfl
  rw [ha]
  simp only [need, f10_6, f20_16, f15_11, f5_3, if_true]

theorem RoundTrip.vredrMaxF32 (g : Guard) (d : Nat) (a : Nat) (k : Nat) : Statement (.vredrMaxF32 g d a k) := by
  intro h sl hs
  change (decide (g.pred < 12) && decide (d < 32) && decide (a < 32) && decide (k < 8)) = true at h
  simp only [Bool.and_eq_true, decide_eq_true_eq] at h
  obtain ⟨⟨⟨h0, h1⟩, h2⟩, h3⟩ := h
  obtain rfl : SlotClass.v = sl := Option.some.inj (of_decide_eq_true hs)
  have t3 : (1 * 2 ^ 0 + 0) < 2 ^ 3 := lt_field (n := 2) (Nat.lt_succ_self 1) (by decide) (by decide)
  have t2 : (k * 2 ^ 3 + (1 * 2 ^ 0 + 0)) < 2 ^ 11 := lt_field (n := 8) h3 t3 (by decide)
  have t1 : (a * 2 ^ 11 + (k * 2 ^ 3 + (1 * 2 ^ 0 + 0))) < 2 ^ 16 := lt_field (n := 32) h2 t2 (by decide)
  have t0 : (d * 2 ^ 16 + (a * 2 ^ 11 + (k * 2 ^ 3 + (1 * 2 ^ 0 + 0)))) < 2 ^ 21 := lt_field (n := 32) h1 t1 (by decide)
  obtain ⟨wd, hw⟩ : ∃ wd, g.neg.toNat * 2 ^ 31 + g.pred * 2 ^ 27 + 26 * 2 ^ 21 + (d * 2 ^ 16 + (a * 2 ^ 11 + (k * 2 ^ 3 + (1 * 2 ^ 0 + 0)))) = wd := ⟨_, rfl⟩
  change decodeWord .v (g.neg.toNat * 2 ^ 31 + g.pred * 2 ^ 27 + 26 * 2 ^ 21 + (d * 2 ^ 16 + (a * 2 ^ 11 + (k * 2 ^ 3 + (1 * 2 ^ 0 + 0))))) = _
  rw [hw, decodeWord_op .v g 26 _ wd h0 (by decide) t0 (by decide) hw]
  change decodeV g wd = _
  have em := fld_major g 26 _ wd (by decide) t0 hw
  have f10_6 : fld wd 10 6 = 0 := (fld_body g 26 _ wd 10 6 (by decide) (by decide) hw).trans ((fld_below (by decide) (by decide)).trans ((fld_below (by decide) (by decide)).trans (fld_above (lt_field (n := 8) h3 t3 (by decide)))))
  have f20_16 : fld wd 20 16 = d := (fld_body g 26 _ wd 20 16 (by decide) (by decide) hw).trans (fld_here (n := 32) h1 t1 (by decide))
  have f15_11 : fld wd 15 11 = a := (fld_body g 26 _ wd 15 11 (by decide) (by decide) hw).trans ((fld_below (by decide) (by decide)).trans (fld_here (n := 32) h2 t2 (by decide)))
  have f5_3 : fld wd 5 3 = k := (fld_body g 26 _ wd 5 3 (by decide) (by decide) hw).trans ((fld_below (by decide) (by decide)).trans ((fld_below (by decide) (by decide)).trans (fld_here (n := 8) h3 t3 (by decide))))
  have f2_0 : fld wd 2 0 = 1 := (fld_body g 26 _ wd 2 0 (by decide) (by decide) hw).trans ((fld_below (by decide) (by decide)).trans ((fld_below (by decide) (by decide)).trans ((fld_below (by decide) (by decide)).trans (fld_here (n := 2) (Nat.lt_succ_self 1) (by decide) (by decide)))))
  have ha : decodeV g wd = need (fld wd 10 6 = 0) (.ok (.vredrMaxF32 g (fld wd 20 16) (fld wd 15 11) (fld wd 5 3))) := by
    unfold decodeV; rw [em, f2_0]; rfl
  rw [ha]
  simp only [need, f10_6, f20_16, f15_11, f5_3, if_true]

theorem RoundTrip.vredrMinF32 (g : Guard) (d : Nat) (a : Nat) (k : Nat) : Statement (.vredrMinF32 g d a k) := by
  intro h sl hs
  change (decide (g.pred < 12) && decide (d < 32) && decide (a < 32) && decide (k < 8)) = true at h
  simp only [Bool.and_eq_true, decide_eq_true_eq] at h
  obtain ⟨⟨⟨h0, h1⟩, h2⟩, h3⟩ := h
  obtain rfl : SlotClass.v = sl := Option.some.inj (of_decide_eq_true hs)
  have t3 : (1 * 2 ^ 1 + 0) < 2 ^ 3 := lt_field (n := 2) (Nat.lt_succ_self 1) (by decide) (by decide)
  have t2 : (k * 2 ^ 3 + (1 * 2 ^ 1 + 0)) < 2 ^ 11 := lt_field (n := 8) h3 t3 (by decide)
  have t1 : (a * 2 ^ 11 + (k * 2 ^ 3 + (1 * 2 ^ 1 + 0))) < 2 ^ 16 := lt_field (n := 32) h2 t2 (by decide)
  have t0 : (d * 2 ^ 16 + (a * 2 ^ 11 + (k * 2 ^ 3 + (1 * 2 ^ 1 + 0)))) < 2 ^ 21 := lt_field (n := 32) h1 t1 (by decide)
  obtain ⟨wd, hw⟩ : ∃ wd, g.neg.toNat * 2 ^ 31 + g.pred * 2 ^ 27 + 26 * 2 ^ 21 + (d * 2 ^ 16 + (a * 2 ^ 11 + (k * 2 ^ 3 + (1 * 2 ^ 1 + 0)))) = wd := ⟨_, rfl⟩
  change decodeWord .v (g.neg.toNat * 2 ^ 31 + g.pred * 2 ^ 27 + 26 * 2 ^ 21 + (d * 2 ^ 16 + (a * 2 ^ 11 + (k * 2 ^ 3 + (1 * 2 ^ 1 + 0))))) = _
  rw [hw, decodeWord_op .v g 26 _ wd h0 (by decide) t0 (by decide) hw]
  change decodeV g wd = _
  have em := fld_major g 26 _ wd (by decide) t0 hw
  have f10_6 : fld wd 10 6 = 0 := (fld_body g 26 _ wd 10 6 (by decide) (by decide) hw).trans ((fld_below (by decide) (by decide)).trans ((fld_below (by decide) (by decide)).trans (fld_above (lt_field (n := 8) h3 t3 (by decide)))))
  have f20_16 : fld wd 20 16 = d := (fld_body g 26 _ wd 20 16 (by decide) (by decide) hw).trans (fld_here (n := 32) h1 t1 (by decide))
  have f15_11 : fld wd 15 11 = a := (fld_body g 26 _ wd 15 11 (by decide) (by decide) hw).trans ((fld_below (by decide) (by decide)).trans (fld_here (n := 32) h2 t2 (by decide)))
  have f5_3 : fld wd 5 3 = k := (fld_body g 26 _ wd 5 3 (by decide) (by decide) hw).trans ((fld_below (by decide) (by decide)).trans ((fld_below (by decide) (by decide)).trans (fld_here (n := 8) h3 t3 (by decide))))
  have f2_0 : fld wd 2 0 = 2 := (fld_body g 26 _ wd 2 0 (by decide) (by decide) hw).trans ((fld_below (by decide) (by decide)).trans ((fld_below (by decide) (by decide)).trans ((fld_below (by decide) (by decide)).trans (by decide))))
  have ha : decodeV g wd = need (fld wd 10 6 = 0) (.ok (.vredrMinF32 g (fld wd 20 16) (fld wd 15 11) (fld wd 5 3))) := by
    unfold decodeV; rw [em, f2_0]; rfl
  rw [ha]
  simp only [need, f10_6, f20_16, f15_11, f5_3, if_true]

theorem RoundTrip.vredrSumI32 (g : Guard) (d : Nat) (a : Nat) (k : Nat) : Statement (.vredrSumI32 g d a k) := by
  intro h sl hs
  change (decide (g.pred < 12) && decide (d < 32) && decide (a < 32) && decide (k < 8)) = true at h
  simp only [Bool.and_eq_true, decide_eq_true_eq] at h
  obtain ⟨⟨⟨h0, h1⟩, h2⟩, h3⟩ := h
  obtain rfl : SlotClass.v = sl := Option.some.inj (of_decide_eq_true hs)
  have t3 : (3 * 2 ^ 0 + 0) < 2 ^ 3 := lt_field (n := 4) (Nat.lt_succ_self 3) (by decide) (by decide)
  have t2 : (k * 2 ^ 3 + (3 * 2 ^ 0 + 0)) < 2 ^ 11 := lt_field (n := 8) h3 t3 (by decide)
  have t1 : (a * 2 ^ 11 + (k * 2 ^ 3 + (3 * 2 ^ 0 + 0))) < 2 ^ 16 := lt_field (n := 32) h2 t2 (by decide)
  have t0 : (d * 2 ^ 16 + (a * 2 ^ 11 + (k * 2 ^ 3 + (3 * 2 ^ 0 + 0)))) < 2 ^ 21 := lt_field (n := 32) h1 t1 (by decide)
  obtain ⟨wd, hw⟩ : ∃ wd, g.neg.toNat * 2 ^ 31 + g.pred * 2 ^ 27 + 26 * 2 ^ 21 + (d * 2 ^ 16 + (a * 2 ^ 11 + (k * 2 ^ 3 + (3 * 2 ^ 0 + 0)))) = wd := ⟨_, rfl⟩
  change decodeWord .v (g.neg.toNat * 2 ^ 31 + g.pred * 2 ^ 27 + 26 * 2 ^ 21 + (d * 2 ^ 16 + (a * 2 ^ 11 + (k * 2 ^ 3 + (3 * 2 ^ 0 + 0))))) = _
  rw [hw, decodeWord_op .v g 26 _ wd h0 (by decide) t0 (by decide) hw]
  change decodeV g wd = _
  have em := fld_major g 26 _ wd (by decide) t0 hw
  have f10_6 : fld wd 10 6 = 0 := (fld_body g 26 _ wd 10 6 (by decide) (by decide) hw).trans ((fld_below (by decide) (by decide)).trans ((fld_below (by decide) (by decide)).trans (fld_above (lt_field (n := 8) h3 t3 (by decide)))))
  have f20_16 : fld wd 20 16 = d := (fld_body g 26 _ wd 20 16 (by decide) (by decide) hw).trans (fld_here (n := 32) h1 t1 (by decide))
  have f15_11 : fld wd 15 11 = a := (fld_body g 26 _ wd 15 11 (by decide) (by decide) hw).trans ((fld_below (by decide) (by decide)).trans (fld_here (n := 32) h2 t2 (by decide)))
  have f5_3 : fld wd 5 3 = k := (fld_body g 26 _ wd 5 3 (by decide) (by decide) hw).trans ((fld_below (by decide) (by decide)).trans ((fld_below (by decide) (by decide)).trans (fld_here (n := 8) h3 t3 (by decide))))
  have f2_0 : fld wd 2 0 = 3 := (fld_body g 26 _ wd 2 0 (by decide) (by decide) hw).trans ((fld_below (by decide) (by decide)).trans ((fld_below (by decide) (by decide)).trans ((fld_below (by decide) (by decide)).trans (fld_here (n := 4) (Nat.lt_succ_self 3) (by decide) (by decide)))))
  have ha : decodeV g wd = need (fld wd 10 6 = 0) (.ok (.vredrSumI32 g (fld wd 20 16) (fld wd 15 11) (fld wd 5 3))) := by
    unfold decodeV; rw [em, f2_0]; rfl
  rw [ha]
  simp only [need, f10_6, f20_16, f15_11, f5_3, if_true]

theorem RoundTrip.vredrMaxI32 (g : Guard) (d : Nat) (a : Nat) (k : Nat) : Statement (.vredrMaxI32 g d a k) := by
  intro h sl hs
  change (decide (g.pred < 12) && decide (d < 32) && decide (a < 32) && decide (k < 8)) = true at h
  simp only [Bool.and_eq_true, decide_eq_true_eq] at h
  obtain ⟨⟨⟨h0, h1⟩, h2⟩, h3⟩ := h
  obtain rfl : SlotClass.v = sl := Option.some.inj (of_decide_eq_true hs)
  have t3 : (1 * 2 ^ 2 + 0) < 2 ^ 3 := lt_field (n := 2) (Nat.lt_succ_self 1) (by decide) (by decide)
  have t2 : (k * 2 ^ 3 + (1 * 2 ^ 2 + 0)) < 2 ^ 11 := lt_field (n := 8) h3 t3 (by decide)
  have t1 : (a * 2 ^ 11 + (k * 2 ^ 3 + (1 * 2 ^ 2 + 0))) < 2 ^ 16 := lt_field (n := 32) h2 t2 (by decide)
  have t0 : (d * 2 ^ 16 + (a * 2 ^ 11 + (k * 2 ^ 3 + (1 * 2 ^ 2 + 0)))) < 2 ^ 21 := lt_field (n := 32) h1 t1 (by decide)
  obtain ⟨wd, hw⟩ : ∃ wd, g.neg.toNat * 2 ^ 31 + g.pred * 2 ^ 27 + 26 * 2 ^ 21 + (d * 2 ^ 16 + (a * 2 ^ 11 + (k * 2 ^ 3 + (1 * 2 ^ 2 + 0)))) = wd := ⟨_, rfl⟩
  change decodeWord .v (g.neg.toNat * 2 ^ 31 + g.pred * 2 ^ 27 + 26 * 2 ^ 21 + (d * 2 ^ 16 + (a * 2 ^ 11 + (k * 2 ^ 3 + (1 * 2 ^ 2 + 0))))) = _
  rw [hw, decodeWord_op .v g 26 _ wd h0 (by decide) t0 (by decide) hw]
  change decodeV g wd = _
  have em := fld_major g 26 _ wd (by decide) t0 hw
  have f10_6 : fld wd 10 6 = 0 := (fld_body g 26 _ wd 10 6 (by decide) (by decide) hw).trans ((fld_below (by decide) (by decide)).trans ((fld_below (by decide) (by decide)).trans (fld_above (lt_field (n := 8) h3 t3 (by decide)))))
  have f20_16 : fld wd 20 16 = d := (fld_body g 26 _ wd 20 16 (by decide) (by decide) hw).trans (fld_here (n := 32) h1 t1 (by decide))
  have f15_11 : fld wd 15 11 = a := (fld_body g 26 _ wd 15 11 (by decide) (by decide) hw).trans ((fld_below (by decide) (by decide)).trans (fld_here (n := 32) h2 t2 (by decide)))
  have f5_3 : fld wd 5 3 = k := (fld_body g 26 _ wd 5 3 (by decide) (by decide) hw).trans ((fld_below (by decide) (by decide)).trans ((fld_below (by decide) (by decide)).trans (fld_here (n := 8) h3 t3 (by decide))))
  have f2_0 : fld wd 2 0 = 4 := (fld_body g 26 _ wd 2 0 (by decide) (by decide) hw).trans ((fld_below (by decide) (by decide)).trans ((fld_below (by decide) (by decide)).trans ((fld_below (by decide) (by decide)).trans (by decide))))
  have ha : decodeV g wd = need (fld wd 10 6 = 0) (.ok (.vredrMaxI32 g (fld wd 20 16) (fld wd 15 11) (fld wd 5 3))) := by
    unfold decodeV; rw [em, f2_0]; rfl
  rw [ha]
  simp only [need, f10_6, f20_16, f15_11, f5_3, if_true]

theorem RoundTrip.vredrMinI32 (g : Guard) (d : Nat) (a : Nat) (k : Nat) : Statement (.vredrMinI32 g d a k) := by
  intro h sl hs
  change (decide (g.pred < 12) && decide (d < 32) && decide (a < 32) && decide (k < 8)) = true at h
  simp only [Bool.and_eq_true, decide_eq_true_eq] at h
  obtain ⟨⟨⟨h0, h1⟩, h2⟩, h3⟩ := h
  obtain rfl : SlotClass.v = sl := Option.some.inj (of_decide_eq_true hs)
  have t3 : (5 * 2 ^ 0 + 0) < 2 ^ 3 := lt_field (n := 6) (Nat.lt_succ_self 5) (by decide) (by decide)
  have t2 : (k * 2 ^ 3 + (5 * 2 ^ 0 + 0)) < 2 ^ 11 := lt_field (n := 8) h3 t3 (by decide)
  have t1 : (a * 2 ^ 11 + (k * 2 ^ 3 + (5 * 2 ^ 0 + 0))) < 2 ^ 16 := lt_field (n := 32) h2 t2 (by decide)
  have t0 : (d * 2 ^ 16 + (a * 2 ^ 11 + (k * 2 ^ 3 + (5 * 2 ^ 0 + 0)))) < 2 ^ 21 := lt_field (n := 32) h1 t1 (by decide)
  obtain ⟨wd, hw⟩ : ∃ wd, g.neg.toNat * 2 ^ 31 + g.pred * 2 ^ 27 + 26 * 2 ^ 21 + (d * 2 ^ 16 + (a * 2 ^ 11 + (k * 2 ^ 3 + (5 * 2 ^ 0 + 0)))) = wd := ⟨_, rfl⟩
  change decodeWord .v (g.neg.toNat * 2 ^ 31 + g.pred * 2 ^ 27 + 26 * 2 ^ 21 + (d * 2 ^ 16 + (a * 2 ^ 11 + (k * 2 ^ 3 + (5 * 2 ^ 0 + 0))))) = _
  rw [hw, decodeWord_op .v g 26 _ wd h0 (by decide) t0 (by decide) hw]
  change decodeV g wd = _
  have em := fld_major g 26 _ wd (by decide) t0 hw
  have f10_6 : fld wd 10 6 = 0 := (fld_body g 26 _ wd 10 6 (by decide) (by decide) hw).trans ((fld_below (by decide) (by decide)).trans ((fld_below (by decide) (by decide)).trans (fld_above (lt_field (n := 8) h3 t3 (by decide)))))
  have f20_16 : fld wd 20 16 = d := (fld_body g 26 _ wd 20 16 (by decide) (by decide) hw).trans (fld_here (n := 32) h1 t1 (by decide))
  have f15_11 : fld wd 15 11 = a := (fld_body g 26 _ wd 15 11 (by decide) (by decide) hw).trans ((fld_below (by decide) (by decide)).trans (fld_here (n := 32) h2 t2 (by decide)))
  have f5_3 : fld wd 5 3 = k := (fld_body g 26 _ wd 5 3 (by decide) (by decide) hw).trans ((fld_below (by decide) (by decide)).trans ((fld_below (by decide) (by decide)).trans (fld_here (n := 8) h3 t3 (by decide))))
  have f2_0 : fld wd 2 0 = 5 := (fld_body g 26 _ wd 2 0 (by decide) (by decide) hw).trans ((fld_below (by decide) (by decide)).trans ((fld_below (by decide) (by decide)).trans ((fld_below (by decide) (by decide)).trans (fld_here (n := 6) (Nat.lt_succ_self 5) (by decide) (by decide)))))
  have ha : decodeV g wd = need (fld wd 10 6 = 0) (.ok (.vredrMinI32 g (fld wd 20 16) (fld wd 15 11) (fld wd 5 3))) := by
    unfold decodeV; rw [em, f2_0]; rfl
  rw [ha]
  simp only [need, f10_6, f20_16, f15_11, f5_3, if_true]

theorem RoundTrip.vredcSumF32 (g : Guard) (d : Nat) (a : Nat) (k : Nat) : Statement (.vredcSumF32 g d a k) := by
  intro h sl hs
  change (decide (g.pred < 12) && decide (d < 32) && decide (a < 32) && decide (k < 8)) = true at h
  simp only [Bool.and_eq_true, decide_eq_true_eq] at h
  obtain ⟨⟨⟨h0, h1⟩, h2⟩, h3⟩ := h
  obtain rfl : SlotClass.v = sl := Option.some.inj (of_decide_eq_true hs)
  have t2 : (k * 2 ^ 3 + 0) < 2 ^ 11 := lt_field (n := 8) h3 (by decide) (by decide)
  have t1 : (a * 2 ^ 11 + (k * 2 ^ 3 + 0)) < 2 ^ 16 := lt_field (n := 32) h2 t2 (by decide)
  have t0 : (d * 2 ^ 16 + (a * 2 ^ 11 + (k * 2 ^ 3 + 0))) < 2 ^ 21 := lt_field (n := 32) h1 t1 (by decide)
  obtain ⟨wd, hw⟩ : ∃ wd, g.neg.toNat * 2 ^ 31 + g.pred * 2 ^ 27 + 27 * 2 ^ 21 + (d * 2 ^ 16 + (a * 2 ^ 11 + (k * 2 ^ 3 + 0))) = wd := ⟨_, rfl⟩
  change decodeWord .v (g.neg.toNat * 2 ^ 31 + g.pred * 2 ^ 27 + 27 * 2 ^ 21 + (d * 2 ^ 16 + (a * 2 ^ 11 + (k * 2 ^ 3 + 0)))) = _
  rw [hw, decodeWord_op .v g 27 _ wd h0 (by decide) t0 (by decide) hw]
  change decodeV g wd = _
  have em := fld_major g 27 _ wd (by decide) t0 hw
  have f10_6 : fld wd 10 6 = 0 := (fld_body g 27 _ wd 10 6 (by decide) (by decide) hw).trans ((fld_below (by decide) (by decide)).trans ((fld_below (by decide) (by decide)).trans (fld_above (lt_field (n := 8) h3 (by decide) (by decide)))))
  have f20_16 : fld wd 20 16 = d := (fld_body g 27 _ wd 20 16 (by decide) (by decide) hw).trans (fld_here (n := 32) h1 t1 (by decide))
  have f15_11 : fld wd 15 11 = a := (fld_body g 27 _ wd 15 11 (by decide) (by decide) hw).trans ((fld_below (by decide) (by decide)).trans (fld_here (n := 32) h2 t2 (by decide)))
  have f5_3 : fld wd 5 3 = k := (fld_body g 27 _ wd 5 3 (by decide) (by decide) hw).trans ((fld_below (by decide) (by decide)).trans ((fld_below (by decide) (by decide)).trans (fld_here (n := 8) h3 (by decide) (by decide))))
  have f2_0 : fld wd 2 0 = 0 := (fld_body g 27 _ wd 2 0 (by decide) (by decide) hw).trans ((fld_below (by decide) (by decide)).trans ((fld_below (by decide) (by decide)).trans ((fld_below (by decide) (by decide)).trans (by decide))))
  have ha : decodeV g wd = need (fld wd 10 6 = 0) (.ok (.vredcSumF32 g (fld wd 20 16) (fld wd 15 11) (fld wd 5 3))) := by
    unfold decodeV; rw [em, f2_0]; rfl
  rw [ha]
  simp only [need, f10_6, f20_16, f15_11, f5_3, if_true]

theorem RoundTrip.vredcMaxF32 (g : Guard) (d : Nat) (a : Nat) (k : Nat) : Statement (.vredcMaxF32 g d a k) := by
  intro h sl hs
  change (decide (g.pred < 12) && decide (d < 32) && decide (a < 32) && decide (k < 8)) = true at h
  simp only [Bool.and_eq_true, decide_eq_true_eq] at h
  obtain ⟨⟨⟨h0, h1⟩, h2⟩, h3⟩ := h
  obtain rfl : SlotClass.v = sl := Option.some.inj (of_decide_eq_true hs)
  have t3 : (1 * 2 ^ 0 + 0) < 2 ^ 3 := lt_field (n := 2) (Nat.lt_succ_self 1) (by decide) (by decide)
  have t2 : (k * 2 ^ 3 + (1 * 2 ^ 0 + 0)) < 2 ^ 11 := lt_field (n := 8) h3 t3 (by decide)
  have t1 : (a * 2 ^ 11 + (k * 2 ^ 3 + (1 * 2 ^ 0 + 0))) < 2 ^ 16 := lt_field (n := 32) h2 t2 (by decide)
  have t0 : (d * 2 ^ 16 + (a * 2 ^ 11 + (k * 2 ^ 3 + (1 * 2 ^ 0 + 0)))) < 2 ^ 21 := lt_field (n := 32) h1 t1 (by decide)
  obtain ⟨wd, hw⟩ : ∃ wd, g.neg.toNat * 2 ^ 31 + g.pred * 2 ^ 27 + 27 * 2 ^ 21 + (d * 2 ^ 16 + (a * 2 ^ 11 + (k * 2 ^ 3 + (1 * 2 ^ 0 + 0)))) = wd := ⟨_, rfl⟩
  change decodeWord .v (g.neg.toNat * 2 ^ 31 + g.pred * 2 ^ 27 + 27 * 2 ^ 21 + (d * 2 ^ 16 + (a * 2 ^ 11 + (k * 2 ^ 3 + (1 * 2 ^ 0 + 0))))) = _
  rw [hw, decodeWord_op .v g 27 _ wd h0 (by decide) t0 (by decide) hw]
  change decodeV g wd = _
  have em := fld_major g 27 _ wd (by decide) t0 hw
  have f10_6 : fld wd 10 6 = 0 := (fld_body g 27 _ wd 10 6 (by decide) (by decide) hw).trans ((fld_below (by decide) (by decide)).trans ((fld_below (by decide) (by decide)).trans (fld_above (lt_field (n := 8) h3 t3 (by decide)))))
  have f20_16 : fld wd 20 16 = d := (fld_body g 27 _ wd 20 16 (by decide) (by decide) hw).trans (fld_here (n := 32) h1 t1 (by decide))
  have f15_11 : fld wd 15 11 = a := (fld_body g 27 _ wd 15 11 (by decide) (by decide) hw).trans ((fld_below (by decide) (by decide)).trans (fld_here (n := 32) h2 t2 (by decide)))
  have f5_3 : fld wd 5 3 = k := (fld_body g 27 _ wd 5 3 (by decide) (by decide) hw).trans ((fld_below (by decide) (by decide)).trans ((fld_below (by decide) (by decide)).trans (fld_here (n := 8) h3 t3 (by decide))))
  have f2_0 : fld wd 2 0 = 1 := (fld_body g 27 _ wd 2 0 (by decide) (by decide) hw).trans ((fld_below (by decide) (by decide)).trans ((fld_below (by decide) (by decide)).trans ((fld_below (by decide) (by decide)).trans (fld_here (n := 2) (Nat.lt_succ_self 1) (by decide) (by decide)))))
  have ha : decodeV g wd = need (fld wd 10 6 = 0) (.ok (.vredcMaxF32 g (fld wd 20 16) (fld wd 15 11) (fld wd 5 3))) := by
    unfold decodeV; rw [em, f2_0]; rfl
  rw [ha]
  simp only [need, f10_6, f20_16, f15_11, f5_3, if_true]

theorem RoundTrip.vredcMinF32 (g : Guard) (d : Nat) (a : Nat) (k : Nat) : Statement (.vredcMinF32 g d a k) := by
  intro h sl hs
  change (decide (g.pred < 12) && decide (d < 32) && decide (a < 32) && decide (k < 8)) = true at h
  simp only [Bool.and_eq_true, decide_eq_true_eq] at h
  obtain ⟨⟨⟨h0, h1⟩, h2⟩, h3⟩ := h
  obtain rfl : SlotClass.v = sl := Option.some.inj (of_decide_eq_true hs)
  have t3 : (1 * 2 ^ 1 + 0) < 2 ^ 3 := lt_field (n := 2) (Nat.lt_succ_self 1) (by decide) (by decide)
  have t2 : (k * 2 ^ 3 + (1 * 2 ^ 1 + 0)) < 2 ^ 11 := lt_field (n := 8) h3 t3 (by decide)
  have t1 : (a * 2 ^ 11 + (k * 2 ^ 3 + (1 * 2 ^ 1 + 0))) < 2 ^ 16 := lt_field (n := 32) h2 t2 (by decide)
  have t0 : (d * 2 ^ 16 + (a * 2 ^ 11 + (k * 2 ^ 3 + (1 * 2 ^ 1 + 0)))) < 2 ^ 21 := lt_field (n := 32) h1 t1 (by decide)
  obtain ⟨wd, hw⟩ : ∃ wd, g.neg.toNat * 2 ^ 31 + g.pred * 2 ^ 27 + 27 * 2 ^ 21 + (d * 2 ^ 16 + (a * 2 ^ 11 + (k * 2 ^ 3 + (1 * 2 ^ 1 + 0)))) = wd := ⟨_, rfl⟩
  change decodeWord .v (g.neg.toNat * 2 ^ 31 + g.pred * 2 ^ 27 + 27 * 2 ^ 21 + (d * 2 ^ 16 + (a * 2 ^ 11 + (k * 2 ^ 3 + (1 * 2 ^ 1 + 0))))) = _
  rw [hw, decodeWord_op .v g 27 _ wd h0 (by decide) t0 (by decide) hw]
  change decodeV g wd = _
  have em := fld_major g 27 _ wd (by decide) t0 hw
  have f10_6 : fld wd 10 6 = 0 := (fld_body g 27 _ wd 10 6 (by decide) (by decide) hw).trans ((fld_below (by decide) (by decide)).trans ((fld_below (by decide) (by decide)).trans (fld_above (lt_field (n := 8) h3 t3 (by decide)))))
  have f20_16 : fld wd 20 16 = d := (fld_body g 27 _ wd 20 16 (by decide) (by decide) hw).trans (fld_here (n := 32) h1 t1 (by decide))
  have f15_11 : fld wd 15 11 = a := (fld_body g 27 _ wd 15 11 (by decide) (by decide) hw).trans ((fld_below (by decide) (by decide)).trans (fld_here (n := 32) h2 t2 (by decide)))
  have f5_3 : fld wd 5 3 = k := (fld_body g 27 _ wd 5 3 (by decide) (by decide) hw).trans ((fld_below (by decide) (by decide)).trans ((fld_below (by decide) (by decide)).trans (fld_here (n := 8) h3 t3 (by decide))))
  have f2_0 : fld wd 2 0 = 2 := (fld_body g 27 _ wd 2 0 (by decide) (by decide) hw).trans ((fld_below (by decide) (by decide)).trans ((fld_below (by decide) (by decide)).trans ((fld_below (by decide) (by decide)).trans (by decide))))
  have ha : decodeV g wd = need (fld wd 10 6 = 0) (.ok (.vredcMinF32 g (fld wd 20 16) (fld wd 15 11) (fld wd 5 3))) := by
    unfold decodeV; rw [em, f2_0]; rfl
  rw [ha]
  simp only [need, f10_6, f20_16, f15_11, f5_3, if_true]

theorem RoundTrip.vredcSumI32 (g : Guard) (d : Nat) (a : Nat) (k : Nat) : Statement (.vredcSumI32 g d a k) := by
  intro h sl hs
  change (decide (g.pred < 12) && decide (d < 32) && decide (a < 32) && decide (k < 8)) = true at h
  simp only [Bool.and_eq_true, decide_eq_true_eq] at h
  obtain ⟨⟨⟨h0, h1⟩, h2⟩, h3⟩ := h
  obtain rfl : SlotClass.v = sl := Option.some.inj (of_decide_eq_true hs)
  have t3 : (3 * 2 ^ 0 + 0) < 2 ^ 3 := lt_field (n := 4) (Nat.lt_succ_self 3) (by decide) (by decide)
  have t2 : (k * 2 ^ 3 + (3 * 2 ^ 0 + 0)) < 2 ^ 11 := lt_field (n := 8) h3 t3 (by decide)
  have t1 : (a * 2 ^ 11 + (k * 2 ^ 3 + (3 * 2 ^ 0 + 0))) < 2 ^ 16 := lt_field (n := 32) h2 t2 (by decide)
  have t0 : (d * 2 ^ 16 + (a * 2 ^ 11 + (k * 2 ^ 3 + (3 * 2 ^ 0 + 0)))) < 2 ^ 21 := lt_field (n := 32) h1 t1 (by decide)
  obtain ⟨wd, hw⟩ : ∃ wd, g.neg.toNat * 2 ^ 31 + g.pred * 2 ^ 27 + 27 * 2 ^ 21 + (d * 2 ^ 16 + (a * 2 ^ 11 + (k * 2 ^ 3 + (3 * 2 ^ 0 + 0)))) = wd := ⟨_, rfl⟩
  change decodeWord .v (g.neg.toNat * 2 ^ 31 + g.pred * 2 ^ 27 + 27 * 2 ^ 21 + (d * 2 ^ 16 + (a * 2 ^ 11 + (k * 2 ^ 3 + (3 * 2 ^ 0 + 0))))) = _
  rw [hw, decodeWord_op .v g 27 _ wd h0 (by decide) t0 (by decide) hw]
  change decodeV g wd = _
  have em := fld_major g 27 _ wd (by decide) t0 hw
  have f10_6 : fld wd 10 6 = 0 := (fld_body g 27 _ wd 10 6 (by decide) (by decide) hw).trans ((fld_below (by decide) (by decide)).trans ((fld_below (by decide) (by decide)).trans (fld_above (lt_field (n := 8) h3 t3 (by decide)))))
  have f20_16 : fld wd 20 16 = d := (fld_body g 27 _ wd 20 16 (by decide) (by decide) hw).trans (fld_here (n := 32) h1 t1 (by decide))
  have f15_11 : fld wd 15 11 = a := (fld_body g 27 _ wd 15 11 (by decide) (by decide) hw).trans ((fld_below (by decide) (by decide)).trans (fld_here (n := 32) h2 t2 (by decide)))
  have f5_3 : fld wd 5 3 = k := (fld_body g 27 _ wd 5 3 (by decide) (by decide) hw).trans ((fld_below (by decide) (by decide)).trans ((fld_below (by decide) (by decide)).trans (fld_here (n := 8) h3 t3 (by decide))))
  have f2_0 : fld wd 2 0 = 3 := (fld_body g 27 _ wd 2 0 (by decide) (by decide) hw).trans ((fld_below (by decide) (by decide)).trans ((fld_below (by decide) (by decide)).trans ((fld_below (by decide) (by decide)).trans (fld_here (n := 4) (Nat.lt_succ_self 3) (by decide) (by decide)))))
  have ha : decodeV g wd = need (fld wd 10 6 = 0) (.ok (.vredcSumI32 g (fld wd 20 16) (fld wd 15 11) (fld wd 5 3))) := by
    unfold decodeV; rw [em, f2_0]; rfl
  rw [ha]
  simp only [need, f10_6, f20_16, f15_11, f5_3, if_true]

theorem RoundTrip.vredcMaxI32 (g : Guard) (d : Nat) (a : Nat) (k : Nat) : Statement (.vredcMaxI32 g d a k) := by
  intro h sl hs
  change (decide (g.pred < 12) && decide (d < 32) && decide (a < 32) && decide (k < 8)) = true at h
  simp only [Bool.and_eq_true, decide_eq_true_eq] at h
  obtain ⟨⟨⟨h0, h1⟩, h2⟩, h3⟩ := h
  obtain rfl : SlotClass.v = sl := Option.some.inj (of_decide_eq_true hs)
  have t3 : (1 * 2 ^ 2 + 0) < 2 ^ 3 := lt_field (n := 2) (Nat.lt_succ_self 1) (by decide) (by decide)
  have t2 : (k * 2 ^ 3 + (1 * 2 ^ 2 + 0)) < 2 ^ 11 := lt_field (n := 8) h3 t3 (by decide)
  have t1 : (a * 2 ^ 11 + (k * 2 ^ 3 + (1 * 2 ^ 2 + 0))) < 2 ^ 16 := lt_field (n := 32) h2 t2 (by decide)
  have t0 : (d * 2 ^ 16 + (a * 2 ^ 11 + (k * 2 ^ 3 + (1 * 2 ^ 2 + 0)))) < 2 ^ 21 := lt_field (n := 32) h1 t1 (by decide)
  obtain ⟨wd, hw⟩ : ∃ wd, g.neg.toNat * 2 ^ 31 + g.pred * 2 ^ 27 + 27 * 2 ^ 21 + (d * 2 ^ 16 + (a * 2 ^ 11 + (k * 2 ^ 3 + (1 * 2 ^ 2 + 0)))) = wd := ⟨_, rfl⟩
  change decodeWord .v (g.neg.toNat * 2 ^ 31 + g.pred * 2 ^ 27 + 27 * 2 ^ 21 + (d * 2 ^ 16 + (a * 2 ^ 11 + (k * 2 ^ 3 + (1 * 2 ^ 2 + 0))))) = _
  rw [hw, decodeWord_op .v g 27 _ wd h0 (by decide) t0 (by decide) hw]
  change decodeV g wd = _
  have em := fld_major g 27 _ wd (by decide) t0 hw
  have f10_6 : fld wd 10 6 = 0 := (fld_body g 27 _ wd 10 6 (by decide) (by decide) hw).trans ((fld_below (by decide) (by decide)).trans ((fld_below (by decide) (by decide)).trans (fld_above (lt_field (n := 8) h3 t3 (by decide)))))
  have f20_16 : fld wd 20 16 = d := (fld_body g 27 _ wd 20 16 (by decide) (by decide) hw).trans (fld_here (n := 32) h1 t1 (by decide))
  have f15_11 : fld wd 15 11 = a := (fld_body g 27 _ wd 15 11 (by decide) (by decide) hw).trans ((fld_below (by decide) (by decide)).trans (fld_here (n := 32) h2 t2 (by decide)))
  have f5_3 : fld wd 5 3 = k := (fld_body g 27 _ wd 5 3 (by decide) (by decide) hw).trans ((fld_below (by decide) (by decide)).trans ((fld_below (by decide) (by decide)).trans (fld_here (n := 8) h3 t3 (by decide))))
  have f2_0 : fld wd 2 0 = 4 := (fld_body g 27 _ wd 2 0 (by decide) (by decide) hw).trans ((fld_below (by decide) (by decide)).trans ((fld_below (by decide) (by decide)).trans ((fld_below (by decide) (by decide)).trans (by decide))))
  have ha : decodeV g wd = need (fld wd 10 6 = 0) (.ok (.vredcMaxI32 g (fld wd 20 16) (fld wd 15 11) (fld wd 5 3))) := by
    unfold decodeV; rw [em, f2_0]; rfl
  rw [ha]
  simp only [need, f10_6, f20_16, f15_11, f5_3, if_true]

theorem RoundTrip.vredcMinI32 (g : Guard) (d : Nat) (a : Nat) (k : Nat) : Statement (.vredcMinI32 g d a k) := by
  intro h sl hs
  change (decide (g.pred < 12) && decide (d < 32) && decide (a < 32) && decide (k < 8)) = true at h
  simp only [Bool.and_eq_true, decide_eq_true_eq] at h
  obtain ⟨⟨⟨h0, h1⟩, h2⟩, h3⟩ := h
  obtain rfl : SlotClass.v = sl := Option.some.inj (of_decide_eq_true hs)
  have t3 : (5 * 2 ^ 0 + 0) < 2 ^ 3 := lt_field (n := 6) (Nat.lt_succ_self 5) (by decide) (by decide)
  have t2 : (k * 2 ^ 3 + (5 * 2 ^ 0 + 0)) < 2 ^ 11 := lt_field (n := 8) h3 t3 (by decide)
  have t1 : (a * 2 ^ 11 + (k * 2 ^ 3 + (5 * 2 ^ 0 + 0))) < 2 ^ 16 := lt_field (n := 32) h2 t2 (by decide)
  have t0 : (d * 2 ^ 16 + (a * 2 ^ 11 + (k * 2 ^ 3 + (5 * 2 ^ 0 + 0)))) < 2 ^ 21 := lt_field (n := 32) h1 t1 (by decide)
  obtain ⟨wd, hw⟩ : ∃ wd, g.neg.toNat * 2 ^ 31 + g.pred * 2 ^ 27 + 27 * 2 ^ 21 + (d * 2 ^ 16 + (a * 2 ^ 11 + (k * 2 ^ 3 + (5 * 2 ^ 0 + 0)))) = wd := ⟨_, rfl⟩
  change decodeWord .v (g.neg.toNat * 2 ^ 31 + g.pred * 2 ^ 27 + 27 * 2 ^ 21 + (d * 2 ^ 16 + (a * 2 ^ 11 + (k * 2 ^ 3 + (5 * 2 ^ 0 + 0))))) = _
  rw [hw, decodeWord_op .v g 27 _ wd h0 (by decide) t0 (by decide) hw]
  change decodeV g wd = _
  have em := fld_major g 27 _ wd (by decide) t0 hw
  have f10_6 : fld wd 10 6 = 0 := (fld_body g 27 _ wd 10 6 (by decide) (by decide) hw).trans ((fld_below (by decide) (by decide)).trans ((fld_below (by decide) (by decide)).trans (fld_above (lt_field (n := 8) h3 t3 (by decide)))))
  have f20_16 : fld wd 20 16 = d := (fld_body g 27 _ wd 20 16 (by decide) (by decide) hw).trans (fld_here (n := 32) h1 t1 (by decide))
  have f15_11 : fld wd 15 11 = a := (fld_body g 27 _ wd 15 11 (by decide) (by decide) hw).trans ((fld_below (by decide) (by decide)).trans (fld_here (n := 32) h2 t2 (by decide)))
  have f5_3 : fld wd 5 3 = k := (fld_body g 27 _ wd 5 3 (by decide) (by decide) hw).trans ((fld_below (by decide) (by decide)).trans ((fld_below (by decide) (by decide)).trans (fld_here (n := 8) h3 t3 (by decide))))
  have f2_0 : fld wd 2 0 = 5 := (fld_body g 27 _ wd 2 0 (by decide) (by decide) hw).trans ((fld_below (by decide) (by decide)).trans ((fld_below (by decide) (by decide)).trans ((fld_below (by decide) (by decide)).trans (fld_here (n := 6) (Nat.lt_succ_self 5) (by decide) (by decide)))))
  have ha : decodeV g wd = need (fld wd 10 6 = 0) (.ok (.vredcMinI32 g (fld wd 20 16) (fld wd 15 11) (fld wd 5 3))) := by
    unfold decodeV; rw [em, f2_0]; rfl
  rw [ha]
  simp only [need, f10_6, f20_16, f15_11, f5_3, if_true]

theorem RoundTrip.vtr (g : Guard) (d : Nat) (a : Nat) (i : Nat) : Statement (.vtr g d a i) := by
  intro h sl hs
  change (decide (g.pred < 12) && decide (d < 32) && decide (a < 32) && decide (i < 4)) = true at h
  simp only [Bool.and_eq_true, decide_eq_true_eq] at h
  obtain ⟨⟨⟨h0, h1⟩, h2⟩, h3⟩ := h
  obtain rfl : SlotClass.v = sl := Option.some.inj (of_decide_eq_true hs)
  have t2 : (i * 2 ^ 3 + 0) < 2 ^ 11 := lt_field (n := 4) h3 (by decide) (by decide)
  have t1 : (a * 2 ^ 11 + (i * 2 ^ 3 + 0)) < 2 ^ 16 := lt_field (n := 32) h2 t2 (by decide)
  have t0 : (d * 2 ^ 16 + (a * 2 ^ 11 + (i * 2 ^ 3 + 0))) < 2 ^ 21 := lt_field (n := 32) h1 t1 (by decide)
  obtain ⟨wd, hw⟩ : ∃ wd, g.neg.toNat * 2 ^ 31 + g.pred * 2 ^ 27 + 28 * 2 ^ 21 + (d * 2 ^ 16 + (a * 2 ^ 11 + (i * 2 ^ 3 + 0))) = wd := ⟨_, rfl⟩
  change decodeWord .v (g.neg.toNat * 2 ^ 31 + g.pred * 2 ^ 27 + 28 * 2 ^ 21 + (d * 2 ^ 16 + (a * 2 ^ 11 + (i * 2 ^ 3 + 0)))) = _
  rw [hw, decodeWord_op .v g 28 _ wd h0 (by decide) t0 (by decide) hw]
  change decodeV g wd = _
  have em := fld_major g 28 _ wd (by decide) t0 hw
  have f2_0 : fld wd 2 0 = 0 := (fld_body g 28 _ wd 2 0 (by decide) (by decide) hw).trans ((fld_below (by decide) (by decide)).trans ((fld_below (by decide) (by decide)).trans ((fld_below (by decide) (by decide)).trans (by decide))))
  have f10_3 : fld wd 10 3 = i := (fld_body g 28 _ wd 10 3 (by decide) (by decide) hw).trans ((fld_below (by decide) (by decide)).trans ((fld_below (by decide) (by decide)).trans (fld_here (n := 4) h3 (by decide) (by decide))))
  have f20_16 : fld wd 20 16 = d := (fld_body g 28 _ wd 20 16 (by decide) (by decide) hw).trans (fld_here (n := 32) h1 t1 (by decide))
  have f15_11 : fld wd 15 11 = a := (fld_body g 28 _ wd 15 11 (by decide) (by decide) hw).trans ((fld_below (by decide) (by decide)).trans (fld_here (n := 32) h2 t2 (by decide)))
  have ha : decodeV g wd = need (fld wd 2 0 = 0 ∧ fld wd 10 3 < 4) (.ok (.vtr g (fld wd 20 16) (fld wd 15 11) (fld wd 10 3))) := by
    unfold decodeV; rw [em]; rfl
  rw [ha]
  simp only [need, f2_0, f10_3, f20_16, f15_11, h3, and_self, if_true]

theorem RoundTrip.kand (g : Guard) (d : Nat) (a : Nat) (b : Nat) : Statement (.kand g d a b) := by
  intro h sl hs
  change (decide (g.pred < 12) && decide (d < 8) && decide (a < 8) && decide (b < 8)) = true at h
  simp only [Bool.and_eq_true, decide_eq_true_eq] at h
  obtain ⟨⟨⟨h0, h1⟩, h2⟩, h3⟩ := h
  obtain rfl : SlotClass.v = sl := Option.some.inj (of_decide_eq_true hs)
  have t2 : (b * 2 ^ 6 + 0) < 2 ^ 11 := lt_field (n := 8) h3 (by decide) (by decide)
  have t1 : (a * 2 ^ 11 + (b * 2 ^ 6 + 0)) < 2 ^ 16 := lt_field (n := 8) h2 t2 (by decide)
  have t0 : (d * 2 ^ 16 + (a * 2 ^ 11 + (b * 2 ^ 6 + 0))) < 2 ^ 21 := lt_field (n := 8) h1 t1 (by decide)
  obtain ⟨wd, hw⟩ : ∃ wd, g.neg.toNat * 2 ^ 31 + g.pred * 2 ^ 27 + 29 * 2 ^ 21 + (d * 2 ^ 16 + (a * 2 ^ 11 + (b * 2 ^ 6 + 0))) = wd := ⟨_, rfl⟩
  change decodeWord .v (g.neg.toNat * 2 ^ 31 + g.pred * 2 ^ 27 + 29 * 2 ^ 21 + (d * 2 ^ 16 + (a * 2 ^ 11 + (b * 2 ^ 6 + 0)))) = _
  rw [hw, decodeWord_op .v g 29 _ wd h0 (by decide) t0 (by decide) hw]
  change decodeV g wd = _
  have em := fld_major g 29 _ wd (by decide) t0 hw
  have f20_19 : fld wd 20 19 = 0 := (fld_body g 29 _ wd 20 19 (by decide) (by decide) hw).trans (fld_above (lt_field (n := 8) h1 t1 (by decide)))
  have f15_14 : fld wd 15 14 = 0 := (fld_body g 29 _ wd 15 14 (by decide) (by decide) hw).trans ((fld_below (by decide) (by decide)).trans (fld_above (lt_field (n := 8) h2 t2 (by decide))))
  have f10_9 : fld wd 10 9 = 0 := (fld_body g 29 _ wd 10 9 (by decide) (by decide) hw).trans ((fld_below (by decide) (by decide)).trans ((fld_below (by decide) (by decide)).trans (fld_above (lt_field (n := 8) h3 (by decide) (by decide)))))
  have f5_3 : fld wd 5 3 = 0 := (fld_body g 29 _ wd 5 3 (by decide) (by decide) hw).trans ((fld_below (by decide) (by decide)).trans ((fld_below (by decide) (by decide)).trans ((fld_below (by decide) (by decide)).trans (by decide))))
  have f18_16 : fld wd 18 16 = d := (fld_body g 29 _ wd 18 16 (by decide) (by decide) hw).trans (fld_here (n := 8) h1 t1 (by decide))
  have f13_11 : fld wd 13 11 = a := (fld_body g 29 _ wd 13 11 (by decide) (by decide) hw).trans ((fld_below (by decide) (by decide)).trans (fld_here (n := 8) h2 t2 (by decide)))
  have f8_6 : fld wd 8 6 = b := (fld_body g 29 _ wd 8 6 (by decide) (by decide) hw).trans ((fld_below (by decide) (by decide)).trans ((fld_below (by decide) (by decide)).trans (fld_here (n := 8) h3 (by decide) (by decide))))
  have f2_0 : fld wd 2 0 = 0 := (fld_body g 29 _ wd 2 0 (by decide) (by decide) hw).trans ((fld_below (by decide) (by decide)).trans ((fld_below (by decide) (by decide)).trans ((fld_below (by decide) (by decide)).trans (by decide))))
  have ha : decodeV g wd = need (fld wd 20 19 = 0 ∧ fld wd 15 14 = 0 ∧ fld wd 10 9 = 0 ∧ fld wd 5 3 = 0) (.ok (.kand g (fld wd 18 16) (fld wd 13 11) (fld wd 8 6))) := by
    unfold decodeV; rw [em, f2_0]; rfl
  rw [ha]
  simp only [need, f20_19, f15_14, f10_9, f5_3, f18_16, f13_11, f8_6, and_self, if_true]

theorem RoundTrip.kor (g : Guard) (d : Nat) (a : Nat) (b : Nat) : Statement (.kor g d a b) := by
  intro h sl hs
  change (decide (g.pred < 12) && decide (d < 8) && decide (a < 8) && decide (b < 8)) = true at h
  simp only [Bool.and_eq_true, decide_eq_true_eq] at h
  obtain ⟨⟨⟨h0, h1⟩, h2⟩, h3⟩ := h
  obtain rfl : SlotClass.v = sl := Option.some.inj (of_decide_eq_true hs)
  have t3 : (1 * 2 ^ 0 + 0) < 2 ^ 6 := lt_field (n := 2) (Nat.lt_succ_self 1) (by decide) (by decide)
  have t2 : (b * 2 ^ 6 + (1 * 2 ^ 0 + 0)) < 2 ^ 11 := lt_field (n := 8) h3 t3 (by decide)
  have t1 : (a * 2 ^ 11 + (b * 2 ^ 6 + (1 * 2 ^ 0 + 0))) < 2 ^ 16 := lt_field (n := 8) h2 t2 (by decide)
  have t0 : (d * 2 ^ 16 + (a * 2 ^ 11 + (b * 2 ^ 6 + (1 * 2 ^ 0 + 0)))) < 2 ^ 21 := lt_field (n := 8) h1 t1 (by decide)
  obtain ⟨wd, hw⟩ : ∃ wd, g.neg.toNat * 2 ^ 31 + g.pred * 2 ^ 27 + 29 * 2 ^ 21 + (d * 2 ^ 16 + (a * 2 ^ 11 + (b * 2 ^ 6 + (1 * 2 ^ 0 + 0)))) = wd := ⟨_, rfl⟩
  change decodeWord .v (g.neg.toNat * 2 ^ 31 + g.pred * 2 ^ 27 + 29 * 2 ^ 21 + (d * 2 ^ 16 + (a * 2 ^ 11 + (b * 2 ^ 6 + (1 * 2 ^ 0 + 0))))) = _
  rw [hw, decodeWord_op .v g 29 _ wd h0 (by decide) t0 (by decide) hw]
  change decodeV g wd = _
  have em := fld_major g 29 _ wd (by decide) t0 hw
  have f20_19 : fld wd 20 19 = 0 := (fld_body g 29 _ wd 20 19 (by decide) (by decide) hw).trans (fld_above (lt_field (n := 8) h1 t1 (by decide)))
  have f15_14 : fld wd 15 14 = 0 := (fld_body g 29 _ wd 15 14 (by decide) (by decide) hw).trans ((fld_below (by decide) (by decide)).trans (fld_above (lt_field (n := 8) h2 t2 (by decide))))
  have f10_9 : fld wd 10 9 = 0 := (fld_body g 29 _ wd 10 9 (by decide) (by decide) hw).trans ((fld_below (by decide) (by decide)).trans ((fld_below (by decide) (by decide)).trans (fld_above (lt_field (n := 8) h3 t3 (by decide)))))
  have f5_3 : fld wd 5 3 = 0 := (fld_body g 29 _ wd 5 3 (by decide) (by decide) hw).trans ((fld_below (by decide) (by decide)).trans ((fld_below (by decide) (by decide)).trans ((fld_below (by decide) (by decide)).trans (fld_above (lt_field (n := 2) (Nat.lt_succ_self 1) (by decide) (by decide))))))
  have f18_16 : fld wd 18 16 = d := (fld_body g 29 _ wd 18 16 (by decide) (by decide) hw).trans (fld_here (n := 8) h1 t1 (by decide))
  have f13_11 : fld wd 13 11 = a := (fld_body g 29 _ wd 13 11 (by decide) (by decide) hw).trans ((fld_below (by decide) (by decide)).trans (fld_here (n := 8) h2 t2 (by decide)))
  have f8_6 : fld wd 8 6 = b := (fld_body g 29 _ wd 8 6 (by decide) (by decide) hw).trans ((fld_below (by decide) (by decide)).trans ((fld_below (by decide) (by decide)).trans (fld_here (n := 8) h3 t3 (by decide))))
  have f2_0 : fld wd 2 0 = 1 := (fld_body g 29 _ wd 2 0 (by decide) (by decide) hw).trans ((fld_below (by decide) (by decide)).trans ((fld_below (by decide) (by decide)).trans ((fld_below (by decide) (by decide)).trans (fld_here (n := 2) (Nat.lt_succ_self 1) (by decide) (by decide)))))
  have ha : decodeV g wd = need (fld wd 20 19 = 0 ∧ fld wd 15 14 = 0 ∧ fld wd 10 9 = 0 ∧ fld wd 5 3 = 0) (.ok (.kor g (fld wd 18 16) (fld wd 13 11) (fld wd 8 6))) := by
    unfold decodeV; rw [em, f2_0]; rfl
  rw [ha]
  simp only [need, f20_19, f15_14, f10_9, f5_3, f18_16, f13_11, f8_6, and_self, if_true]

theorem RoundTrip.kxor (g : Guard) (d : Nat) (a : Nat) (b : Nat) : Statement (.kxor g d a b) := by
  intro h sl hs
  change (decide (g.pred < 12) && decide (d < 8) && decide (a < 8) && decide (b < 8)) = true at h
  simp only [Bool.and_eq_true, decide_eq_true_eq] at h
  obtain ⟨⟨⟨h0, h1⟩, h2⟩, h3⟩ := h
  obtain rfl : SlotClass.v = sl := Option.some.inj (of_decide_eq_true hs)
  have t3 : (1 * 2 ^ 1 + 0) < 2 ^ 6 := lt_field (n := 2) (Nat.lt_succ_self 1) (by decide) (by decide)
  have t2 : (b * 2 ^ 6 + (1 * 2 ^ 1 + 0)) < 2 ^ 11 := lt_field (n := 8) h3 t3 (by decide)
  have t1 : (a * 2 ^ 11 + (b * 2 ^ 6 + (1 * 2 ^ 1 + 0))) < 2 ^ 16 := lt_field (n := 8) h2 t2 (by decide)
  have t0 : (d * 2 ^ 16 + (a * 2 ^ 11 + (b * 2 ^ 6 + (1 * 2 ^ 1 + 0)))) < 2 ^ 21 := lt_field (n := 8) h1 t1 (by decide)
  obtain ⟨wd, hw⟩ : ∃ wd, g.neg.toNat * 2 ^ 31 + g.pred * 2 ^ 27 + 29 * 2 ^ 21 + (d * 2 ^ 16 + (a * 2 ^ 11 + (b * 2 ^ 6 + (1 * 2 ^ 1 + 0)))) = wd := ⟨_, rfl⟩
  change decodeWord .v (g.neg.toNat * 2 ^ 31 + g.pred * 2 ^ 27 + 29 * 2 ^ 21 + (d * 2 ^ 16 + (a * 2 ^ 11 + (b * 2 ^ 6 + (1 * 2 ^ 1 + 0))))) = _
  rw [hw, decodeWord_op .v g 29 _ wd h0 (by decide) t0 (by decide) hw]
  change decodeV g wd = _
  have em := fld_major g 29 _ wd (by decide) t0 hw
  have f20_19 : fld wd 20 19 = 0 := (fld_body g 29 _ wd 20 19 (by decide) (by decide) hw).trans (fld_above (lt_field (n := 8) h1 t1 (by decide)))
  have f15_14 : fld wd 15 14 = 0 := (fld_body g 29 _ wd 15 14 (by decide) (by decide) hw).trans ((fld_below (by decide) (by decide)).trans (fld_above (lt_field (n := 8) h2 t2 (by decide))))
  have f10_9 : fld wd 10 9 = 0 := (fld_body g 29 _ wd 10 9 (by decide) (by decide) hw).trans ((fld_below (by decide) (by decide)).trans ((fld_below (by decide) (by decide)).trans (fld_above (lt_field (n := 8) h3 t3 (by decide)))))
  have f5_3 : fld wd 5 3 = 0 := (fld_body g 29 _ wd 5 3 (by decide) (by decide) hw).trans ((fld_below (by decide) (by decide)).trans ((fld_below (by decide) (by decide)).trans ((fld_below (by decide) (by decide)).trans (fld_above (lt_field (n := 2) (Nat.lt_succ_self 1) (by decide) (by decide))))))
  have f18_16 : fld wd 18 16 = d := (fld_body g 29 _ wd 18 16 (by decide) (by decide) hw).trans (fld_here (n := 8) h1 t1 (by decide))
  have f13_11 : fld wd 13 11 = a := (fld_body g 29 _ wd 13 11 (by decide) (by decide) hw).trans ((fld_below (by decide) (by decide)).trans (fld_here (n := 8) h2 t2 (by decide)))
  have f8_6 : fld wd 8 6 = b := (fld_body g 29 _ wd 8 6 (by decide) (by decide) hw).trans ((fld_below (by decide) (by decide)).trans ((fld_below (by decide) (by decide)).trans (fld_here (n := 8) h3 t3 (by decide))))
  have f2_0 : fld wd 2 0 = 2 := (fld_body g 29 _ wd 2 0 (by decide) (by decide) hw).trans ((fld_below (by decide) (by decide)).trans ((fld_below (by decide) (by decide)).trans ((fld_below (by decide) (by decide)).trans (by decide))))
  have ha : decodeV g wd = need (fld wd 20 19 = 0 ∧ fld wd 15 14 = 0 ∧ fld wd 10 9 = 0 ∧ fld wd 5 3 = 0) (.ok (.kxor g (fld wd 18 16) (fld wd 13 11) (fld wd 8 6))) := by
    unfold decodeV; rw [em, f2_0]; rfl
  rw [ha]
  simp only [need, f20_19, f15_14, f10_9, f5_3, f18_16, f13_11, f8_6, and_self, if_true]

theorem RoundTrip.kandn (g : Guard) (d : Nat) (a : Nat) (b : Nat) : Statement (.kandn g d a b) := by
  intro h sl hs
  change (decide (g.pred < 12) && decide (d < 8) && decide (a < 8) && decide (b < 8)) = true at h
  simp only [Bool.and_eq_true, decide_eq_true_eq] at h
  obtain ⟨⟨⟨h0, h1⟩, h2⟩, h3⟩ := h
  obtain rfl : SlotClass.v = sl := Option.some.inj (of_decide_eq_true hs)
  have t3 : (3 * 2 ^ 0 + 0) < 2 ^ 6 := lt_field (n := 4) (Nat.lt_succ_self 3) (by decide) (by decide)
  have t2 : (b * 2 ^ 6 + (3 * 2 ^ 0 + 0)) < 2 ^ 11 := lt_field (n := 8) h3 t3 (by decide)
  have t1 : (a * 2 ^ 11 + (b * 2 ^ 6 + (3 * 2 ^ 0 + 0))) < 2 ^ 16 := lt_field (n := 8) h2 t2 (by decide)
  have t0 : (d * 2 ^ 16 + (a * 2 ^ 11 + (b * 2 ^ 6 + (3 * 2 ^ 0 + 0)))) < 2 ^ 21 := lt_field (n := 8) h1 t1 (by decide)
  obtain ⟨wd, hw⟩ : ∃ wd, g.neg.toNat * 2 ^ 31 + g.pred * 2 ^ 27 + 29 * 2 ^ 21 + (d * 2 ^ 16 + (a * 2 ^ 11 + (b * 2 ^ 6 + (3 * 2 ^ 0 + 0)))) = wd := ⟨_, rfl⟩
  change decodeWord .v (g.neg.toNat * 2 ^ 31 + g.pred * 2 ^ 27 + 29 * 2 ^ 21 + (d * 2 ^ 16 + (a * 2 ^ 11 + (b * 2 ^ 6 + (3 * 2 ^ 0 + 0))))) = _
  rw [hw, decodeWord_op .v g 29 _ wd h0 (by decide) t0 (by decide) hw]
  change decodeV g wd = _
  have em := fld_major g 29 _ wd (by decide) t0 hw
  have f20_19 : fld wd 20 19 = 0 := (fld_body g 29 _ wd 20 19 (by decide) (by decide) hw).trans (fld_above (lt_field (n := 8) h1 t1 (by decide)))
  have f15_14 : fld wd 15 14 = 0 := (fld_body g 29 _ wd 15 14 (by decide) (by decide) hw).trans ((fld_below (by decide) (by decide)).trans (fld_above (lt_field (n := 8) h2 t2 (by decide))))
  have f10_9 : fld wd 10 9 = 0 := (fld_body g 29 _ wd 10 9 (by decide) (by decide) hw).trans ((fld_below (by decide) (by decide)).trans ((fld_below (by decide) (by decide)).trans (fld_above (lt_field (n := 8) h3 t3 (by decide)))))
  have f5_3 : fld wd 5 3 = 0 := (fld_body g 29 _ wd 5 3 (by decide) (by decide) hw).trans ((fld_below (by decide) (by decide)).trans ((fld_below (by decide) (by decide)).trans ((fld_below (by decide) (by decide)).trans (fld_above (lt_field (n := 4) (Nat.lt_succ_self 3) (by decide) (by decide))))))
  have f18_16 : fld wd 18 16 = d := (fld_body g 29 _ wd 18 16 (by decide) (by decide) hw).trans (fld_here (n := 8) h1 t1 (by decide))
  have f13_11 : fld wd 13 11 = a := (fld_body g 29 _ wd 13 11 (by decide) (by decide) hw).trans ((fld_below (by decide) (by decide)).trans (fld_here (n := 8) h2 t2 (by decide)))
  have f8_6 : fld wd 8 6 = b := (fld_body g 29 _ wd 8 6 (by decide) (by decide) hw).trans ((fld_below (by decide) (by decide)).trans ((fld_below (by decide) (by decide)).trans (fld_here (n := 8) h3 t3 (by decide))))
  have f2_0 : fld wd 2 0 = 3 := (fld_body g 29 _ wd 2 0 (by decide) (by decide) hw).trans ((fld_below (by decide) (by decide)).trans ((fld_below (by decide) (by decide)).trans ((fld_below (by decide) (by decide)).trans (fld_here (n := 4) (Nat.lt_succ_self 3) (by decide) (by decide)))))
  have ha : decodeV g wd = need (fld wd 20 19 = 0 ∧ fld wd 15 14 = 0 ∧ fld wd 10 9 = 0 ∧ fld wd 5 3 = 0) (.ok (.kandn g (fld wd 18 16) (fld wd 13 11) (fld wd 8 6))) := by
    unfold decodeV; rw [em, f2_0]; rfl
  rw [ha]
  simp only [need, f20_19, f15_14, f10_9, f5_3, f18_16, f13_11, f8_6, and_self, if_true]

theorem RoundTrip.knot (g : Guard) (d : Nat) (a : Nat) : Statement (.knot g d a) := by
  intro h sl hs
  change (decide (g.pred < 12) && decide (d < 8) && decide (a < 8)) = true at h
  simp only [Bool.and_eq_true, decide_eq_true_eq] at h
  obtain ⟨⟨h0, h1⟩, h2⟩ := h
  obtain rfl : SlotClass.v = sl := Option.some.inj (of_decide_eq_true hs)
  have t2 : (1 * 2 ^ 2 + 0) < 2 ^ 11 := lt_field (n := 2) (Nat.lt_succ_self 1) (by decide) (by decide)
  have t1 : (a * 2 ^ 11 + (1 * 2 ^ 2 + 0)) < 2 ^ 16 := lt_field (n := 8) h2 t2 (by decide)
  have t0 : (d * 2 ^ 16 + (a * 2 ^ 11 + (1 * 2 ^ 2 + 0))) < 2 ^ 21 := lt_field (n := 8) h1 t1 (by decide)
  obtain ⟨wd, hw⟩ : ∃ wd, g.neg.toNat * 2 ^ 31 + g.pred * 2 ^ 27 + 29 * 2 ^ 21 + (d * 2 ^ 16 + (a * 2 ^ 11 + (1 * 2 ^ 2 + 0))) = wd := ⟨_, rfl⟩
  change decodeWord .v (g.neg.toNat * 2 ^ 31 + g.pred * 2 ^ 27 + 29 * 2 ^ 21 + (d * 2 ^ 16 + (a * 2 ^ 11 + (1 * 2 ^ 2 + 0)))) = _
  rw [hw, decodeWord_op .v g 29 _ wd h0 (by decide) t0 (by decide) hw]
  change decodeV g wd = _
  have em := fld_major g 29 _ wd (by decide) t0 hw
  have f20_19 : fld wd 20 19 = 0 := (fld_body g 29 _ wd 20 19 (by decide) (by decide) hw).trans (fld_above (lt_field (n := 8) h1 t1 (by decide)))
  have f15_14 : fld wd 15 14 = 0 := (fld_body g 29 _ wd 15 14 (by decide) (by decide) hw).trans ((fld_below (by decide) (by decide)).trans (fld_above (lt_field (n := 8) h2 t2 (by decide))))
  have f10_3 : fld wd 10 3 = 0 := (fld_body g 29 _ wd 10 3 (by decide) (by decide) hw).trans ((fld_below (by decide) (by decide)).trans ((fld_below (by decide) (by decide)).trans (fld_above (lt_field (n := 2) (Nat.lt_succ_self 1) (by decide) (by decide)))))
  have f18_16 : fld wd 18 16 = d := (fld_body g 29 _ wd 18 16 (by decide) (by decide) hw).trans (fld_here (n := 8) h1 t1 (by decide))
  have f13_11 : fld wd 13 11 = a := (fld_body g 29 _ wd 13 11 (by decide) (by decide) hw).trans ((fld_below (by decide) (by decide)).trans (fld_here (n := 8) h2 t2 (by decide)))
  have f2_0 : fld wd 2 0 = 4 := (fld_body g 29 _ wd 2 0 (by decide) (by decide) hw).trans ((fld_below (by decide) (by decide)).trans ((fld_below (by decide) (by decide)).trans (by decide)))
  have ha : decodeV g wd = need (fld wd 20 19 = 0 ∧ fld wd 15 14 = 0 ∧ fld wd 10 3 = 0) (.ok (.knot g (fld wd 18 16) (fld wd 13 11))) := by
    unfold decodeV; rw [em, f2_0]; rfl
  rw [ha]
  simp only [need, f20_19, f15_14, f10_3, f18_16, f13_11, and_self, if_true]

theorem RoundTrip.kmov (g : Guard) (d : Nat) (a : Nat) : Statement (.kmov g d a) := by
  intro h sl hs
  change (decide (g.pred < 12) && decide (d < 8) && decide (a < 8)) = true at h
  simp only [Bool.and_eq_true, decide_eq_true_eq] at h
  obtain ⟨⟨h0, h1⟩, h2⟩ := h
  obtain rfl : SlotClass.v = sl := Option.some.inj (of_decide_eq_true hs)
  have t2 : (5 * 2 ^ 0 + 0) < 2 ^ 11 := lt_field (n := 6) (Nat.lt_succ_self 5) (by decide) (by decide)
  have t1 : (a * 2 ^ 11 + (5 * 2 ^ 0 + 0)) < 2 ^ 16 := lt_field (n := 8) h2 t2 (by decide)
  have t0 : (d * 2 ^ 16 + (a * 2 ^ 11 + (5 * 2 ^ 0 + 0))) < 2 ^ 21 := lt_field (n := 8) h1 t1 (by decide)
  obtain ⟨wd, hw⟩ : ∃ wd, g.neg.toNat * 2 ^ 31 + g.pred * 2 ^ 27 + 29 * 2 ^ 21 + (d * 2 ^ 16 + (a * 2 ^ 11 + (5 * 2 ^ 0 + 0))) = wd := ⟨_, rfl⟩
  change decodeWord .v (g.neg.toNat * 2 ^ 31 + g.pred * 2 ^ 27 + 29 * 2 ^ 21 + (d * 2 ^ 16 + (a * 2 ^ 11 + (5 * 2 ^ 0 + 0)))) = _
  rw [hw, decodeWord_op .v g 29 _ wd h0 (by decide) t0 (by decide) hw]
  change decodeV g wd = _
  have em := fld_major g 29 _ wd (by decide) t0 hw
  have f20_19 : fld wd 20 19 = 0 := (fld_body g 29 _ wd 20 19 (by decide) (by decide) hw).trans (fld_above (lt_field (n := 8) h1 t1 (by decide)))
  have f15_14 : fld wd 15 14 = 0 := (fld_body g 29 _ wd 15 14 (by decide) (by decide) hw).trans ((fld_below (by decide) (by decide)).trans (fld_above (lt_field (n := 8) h2 t2 (by decide))))
  have f10_3 : fld wd 10 3 = 0 := (fld_body g 29 _ wd 10 3 (by decide) (by decide) hw).trans ((fld_below (by decide) (by decide)).trans ((fld_below (by decide) (by decide)).trans (fld_above (lt_field (n := 6) (Nat.lt_succ_self 5) (by decide) (by decide)))))
  have f18_16 : fld wd 18 16 = d := (fld_body g 29 _ wd 18 16 (by decide) (by decide) hw).trans (fld_here (n := 8) h1 t1 (by decide))
  have f13_11 : fld wd 13 11 = a := (fld_body g 29 _ wd 13 11 (by decide) (by decide) hw).trans ((fld_below (by decide) (by decide)).trans (fld_here (n := 8) h2 t2 (by decide)))
  have f2_0 : fld wd 2 0 = 5 := (fld_body g 29 _ wd 2 0 (by decide) (by decide) hw).trans ((fld_below (by decide) (by decide)).trans ((fld_below (by decide) (by decide)).trans (fld_here (n := 6) (Nat.lt_succ_self 5) (by decide) (by decide))))
  have ha : decodeV g wd = need (fld wd 20 19 = 0 ∧ fld wd 15 14 = 0 ∧ fld wd 10 3 = 0) (.ok (.kmov g (fld wd 18 16) (fld wd 13 11))) := by
    unfold decodeV; rw [em, f2_0]; rfl
  rw [ha]
  simp only [need, f20_19, f15_14, f10_3, f18_16, f13_11, and_self, if_true]

theorem RoundTrip.kany (g : Guard) (d : Nat) (a : Nat) : Statement (.kany g d a) := by
  intro h sl hs
  change (decide (g.pred < 12) && decide (d < 12) && decide (a < 8)) = true at h
  simp only [Bool.and_eq_true, decide_eq_true_eq] at h
  obtain ⟨⟨h0, h1⟩, h2⟩ := h
  obtain rfl : SlotClass.v = sl := Option.some.inj (of_decide_eq_true hs)
  have t1 : (a * 2 ^ 11 + 0) < 2 ^ 16 := lt_field (n := 8) h2 (by decide) (by decide)
  have t0 : (d * 2 ^ 16 + (a * 2 ^ 11 + 0)) < 2 ^ 21 := lt_field (n := 12) h1 t1 (by decide)
  obtain ⟨wd, hw⟩ : ∃ wd, g.neg.toNat * 2 ^ 31 + g.pred * 2 ^ 27 + 30 * 2 ^ 21 + (d * 2 ^ 16 + (a * 2 ^ 11 + 0)) = wd := ⟨_, rfl⟩
  change decodeWord .v (g.neg.toNat * 2 ^ 31 + g.pred * 2 ^ 27 + 30 * 2 ^ 21 + (d * 2 ^ 16 + (a * 2 ^ 11 + 0))) = _
  rw [hw, decodeWord_op .v g 30 _ wd h0 (by decide) t0 (by decide) hw]
  change decodeV g wd = _
  have em := fld_major g 30 _ wd (by decide) t0 hw
  have f20_20 : fld wd 20 20 = 0 := (fld_body g 30 _ wd 20 20 (by decide) (by decide) hw).trans (fld_above (lt_field (n := 12) h1 t1 (by decide)))
  have f15_14 : fld wd 15 14 = 0 := (fld_body g 30 _ wd 15 14 (by decide) (by decide) hw).trans ((fld_below (by decide) (by decide)).trans (fld_above (lt_field (n := 8) h2 (by decide) (by decide))))
  have f10_1 : fld wd 10 1 = 0 := (fld_body g 30 _ wd 10 1 (by decide) (by decide) hw).trans ((fld_below (by decide) (by decide)).trans ((fld_below (by decide) (by decide)).trans (by decide)))
  have f19_16 : fld wd 19 16 = d := (fld_body g 30 _ wd 19 16 (by decide) (by decide) hw).trans (fld_here (n := 12) h1 t1 (by decide))
  have f13_11 : fld wd 13 11 = a := (fld_body g 30 _ wd 13 11 (by decide) (by decide) hw).trans ((fld_below (by decide) (by decide)).trans (fld_here (n := 8) h2 (by decide) (by decide)))
  have f0_0 : fld wd 0 0 = 0 := (fld_body g 30 _ wd 0 0 (by decide) (by decide) hw).trans ((fld_below (by decide) (by decide)).trans ((fld_below (by decide) (by decide)).trans (by decide)))
  have ha : decodeV g wd = need (fld wd 20 20 = 0 ∧ fld wd 15 14 = 0 ∧ fld wd 10 1 = 0 ∧ fld wd 19 16 < 12) (.ok (.kany g (fld wd 19 16) (fld wd 13 11))) := by
    unfold decodeV; rw [em, f0_0]; rfl
  rw [ha]
  simp only [need, f20_20, f15_14, f10_1, f19_16, f13_11, h1, and_self, if_true]

theorem RoundTrip.kall (g : Guard) (d : Nat) (a : Nat) : Statement (.kall g d a) := by
  intro h sl hs
  change (decide (g.pred < 12) && decide (d < 12) && decide (a < 8)) = true at h
  simp only [Bool.and_eq_true, decide_eq_true_eq] at h
  obtain ⟨⟨h0, h1⟩, h2⟩ := h
  obtain rfl : SlotClass.v = sl := Option.some.inj (of_decide_eq_true hs)
  have t2 : (1 * 2 ^ 0 + 0) < 2 ^ 11 := lt_field (n := 2) (Nat.lt_succ_self 1) (by decide) (by decide)
  have t1 : (a * 2 ^ 11 + (1 * 2 ^ 0 + 0)) < 2 ^ 16 := lt_field (n := 8) h2 t2 (by decide)
  have t0 : (d * 2 ^ 16 + (a * 2 ^ 11 + (1 * 2 ^ 0 + 0))) < 2 ^ 21 := lt_field (n := 12) h1 t1 (by decide)
  obtain ⟨wd, hw⟩ : ∃ wd, g.neg.toNat * 2 ^ 31 + g.pred * 2 ^ 27 + 30 * 2 ^ 21 + (d * 2 ^ 16 + (a * 2 ^ 11 + (1 * 2 ^ 0 + 0))) = wd := ⟨_, rfl⟩
  change decodeWord .v (g.neg.toNat * 2 ^ 31 + g.pred * 2 ^ 27 + 30 * 2 ^ 21 + (d * 2 ^ 16 + (a * 2 ^ 11 + (1 * 2 ^ 0 + 0)))) = _
  rw [hw, decodeWord_op .v g 30 _ wd h0 (by decide) t0 (by decide) hw]
  change decodeV g wd = _
  have em := fld_major g 30 _ wd (by decide) t0 hw
  have f20_20 : fld wd 20 20 = 0 := (fld_body g 30 _ wd 20 20 (by decide) (by decide) hw).trans (fld_above (lt_field (n := 12) h1 t1 (by decide)))
  have f15_14 : fld wd 15 14 = 0 := (fld_body g 30 _ wd 15 14 (by decide) (by decide) hw).trans ((fld_below (by decide) (by decide)).trans (fld_above (lt_field (n := 8) h2 t2 (by decide))))
  have f10_1 : fld wd 10 1 = 0 := (fld_body g 30 _ wd 10 1 (by decide) (by decide) hw).trans ((fld_below (by decide) (by decide)).trans ((fld_below (by decide) (by decide)).trans (fld_above (lt_field (n := 2) (Nat.lt_succ_self 1) (by decide) (by decide)))))
  have f19_16 : fld wd 19 16 = d := (fld_body g 30 _ wd 19 16 (by decide) (by decide) hw).trans (fld_here (n := 12) h1 t1 (by decide))
  have f13_11 : fld wd 13 11 = a := (fld_body g 30 _ wd 13 11 (by decide) (by decide) hw).trans ((fld_below (by decide) (by decide)).trans (fld_here (n := 8) h2 t2 (by decide)))
  have f0_0 : fld wd 0 0 = 1 := (fld_body g 30 _ wd 0 0 (by decide) (by decide) hw).trans ((fld_below (by decide) (by decide)).trans ((fld_below (by decide) (by decide)).trans (fld_here (n := 2) (Nat.lt_succ_self 1) (by decide) (by decide))))
  have ha : decodeV g wd = need (fld wd 20 20 = 0 ∧ fld wd 15 14 = 0 ∧ fld wd 10 1 = 0 ∧ fld wd 19 16 < 12) (.ok (.kall g (fld wd 19 16) (fld wd 13 11))) := by
    unfold decodeV; rw [em, f0_0]; rfl
  rw [ha]
  simp only [need, f20_20, f15_14, f10_1, f19_16, f13_11, h1, and_self, if_true]

theorem RoundTrip.vrcpe (g : Guard) (d : Nat) (a : Nat) (k : Nat) : Statement (.vrcpe g d a k) := by
  intro h sl hs
  change (decide (g.pred < 12) && decide (d < 32) && decide (a < 32) && decide (k < 8)) = true at h
  simp only [Bool.and_eq_true, decide_eq_true_eq] at h
  obtain ⟨⟨⟨h0, h1⟩, h2⟩, h3⟩ := h
  obtain rfl : SlotClass.v = sl := Option.some.inj (of_decide_eq_true hs)
  have t2 : (k * 2 ^ 3 + 0) < 2 ^ 11 := lt_field (n := 8) h3 (by decide) (by decide)
  have t1 : (a * 2 ^ 11 + (k * 2 ^ 3 + 0)) < 2 ^ 16 := lt_field (n := 32) h2 t2 (by decide)
  have t0 : (d * 2 ^ 16 + (a * 2 ^ 11 + (k * 2 ^ 3 + 0))) < 2 ^ 21 := lt_field (n := 32) h1 t1 (by decide)
  obtain ⟨wd, hw⟩ : ∃ wd, g.neg.toNat * 2 ^ 31 + g.pred * 2 ^ 27 + 32 * 2 ^ 21 + (d * 2 ^ 16 + (a * 2 ^ 11 + (k * 2 ^ 3 + 0))) = wd := ⟨_, rfl⟩
  change decodeWord .v (g.neg.toNat * 2 ^ 31 + g.pred * 2 ^ 27 + 32 * 2 ^ 21 + (d * 2 ^ 16 + (a * 2 ^ 11 + (k * 2 ^ 3 + 0)))) = _
  rw [hw, decodeWord_op .v g 32 _ wd h0 (by decide) t0 (by decide) hw]
  change decodeV g wd = _
  have em := fld_major g 32 _ wd (by decide) t0 hw
  have f10_6 : fld wd 10 6 = 0 := (fld_body g 32 _ wd 10 6 (by decide) (by decide) hw).trans ((fld_below (by decide) (by decide)).trans ((fld_below (by decide) (by decide)).trans (fld_above (lt_field (n := 8) h3 (by decide) (by decide)))))
  have f2_0 : fld wd 2 0 = 0 := (fld_body g 32 _ wd 2 0 (by decide) (by decide) hw).trans ((fld_below (by decide) (by decide)).trans ((fld_below (by decide) (by decide)).trans ((fld_below (by decide) (by decide)).trans (by decide))))
  have f20_16 : fld wd 20 16 = d := (fld_body g 32 _ wd 20 16 (by decide) (by decide) hw).trans (fld_here (n := 32) h1 t1 (by decide))
  have f15_11 : fld wd 15 11 = a := (fld_body g 32 _ wd 15 11 (by decide) (by decide) hw).trans ((fld_below (by decide) (by decide)).trans (fld_here (n := 32) h2 t2 (by decide)))
  have f5_3 : fld wd 5 3 = k := (fld_body g 32 _ wd 5 3 (by decide) (by decide) hw).trans ((fld_below (by decide) (by decide)).trans ((fld_below (by decide) (by decide)).trans (fld_here (n := 8) h3 (by decide) (by decide))))
  have ha : decodeV g wd = need (fld wd 10 6 = 0 ∧ fld wd 2 0 = 0) (.ok (.vrcpe g (fld wd 20 16) (fld wd 15 11) (fld wd 5 3))) := by
    unfold decodeV; rw [em]; rfl
  rw [ha]
  simp only [need, f10_6, f2_0, f20_16, f15_11, f5_3, and_self, if_true]

theorem RoundTrip.vrsqe (g : Guard) (d : Nat) (a : Nat) (k : Nat) : Statement (.vrsqe g d a k) := by
  intro h sl hs
  change (decide (g.pred < 12) && decide (d < 32) && decide (a < 32) && decide (k < 8)) = true at h
  simp only [Bool.and_eq_true, decide_eq_true_eq] at h
  obtain ⟨⟨⟨h0, h1⟩, h2⟩, h3⟩ := h
  obtain rfl : SlotClass.v = sl := Option.some.inj (of_decide_eq_true hs)
  have t2 : (k * 2 ^ 3 + 0) < 2 ^ 11 := lt_field (n := 8) h3 (by decide) (by decide)
  have t1 : (a * 2 ^ 11 + (k * 2 ^ 3 + 0)) < 2 ^ 16 := lt_field (n := 32) h2 t2 (by decide)
  have t0 : (d * 2 ^ 16 + (a * 2 ^ 11 + (k * 2 ^ 3 + 0))) < 2 ^ 21 := lt_field (n := 32) h1 t1 (by decide)
  obtain ⟨wd, hw⟩ : ∃ wd, g.neg.toNat * 2 ^ 31 + g.pred * 2 ^ 27 + 33 * 2 ^ 21 + (d * 2 ^ 16 + (a * 2 ^ 11 + (k * 2 ^ 3 + 0))) = wd := ⟨_, rfl⟩
  change decodeWord .v (g.neg.toNat * 2 ^ 31 + g.pred * 2 ^ 27 + 33 * 2 ^ 21 + (d * 2 ^ 16 + (a * 2 ^ 11 + (k * 2 ^ 3 + 0)))) = _
  rw [hw, decodeWord_op .v g 33 _ wd h0 (by decide) t0 (by decide) hw]
  change decodeV g wd = _
  have em := fld_major g 33 _ wd (by decide) t0 hw
  have f10_6 : fld wd 10 6 = 0 := (fld_body g 33 _ wd 10 6 (by decide) (by decide) hw).trans ((fld_below (by decide) (by decide)).trans ((fld_below (by decide) (by decide)).trans (fld_above (lt_field (n := 8) h3 (by decide) (by decide)))))
  have f2_0 : fld wd 2 0 = 0 := (fld_body g 33 _ wd 2 0 (by decide) (by decide) hw).trans ((fld_below (by decide) (by decide)).trans ((fld_below (by decide) (by decide)).trans ((fld_below (by decide) (by decide)).trans (by decide))))
  have f20_16 : fld wd 20 16 = d := (fld_body g 33 _ wd 20 16 (by decide) (by decide) hw).trans (fld_here (n := 32) h1 t1 (by decide))
  have f15_11 : fld wd 15 11 = a := (fld_body g 33 _ wd 15 11 (by decide) (by decide) hw).trans ((fld_below (by decide) (by decide)).trans (fld_here (n := 32) h2 t2 (by decide)))
  have f5_3 : fld wd 5 3 = k := (fld_body g 33 _ wd 5 3 (by decide) (by decide) hw).trans ((fld_below (by decide) (by decide)).trans ((fld_below (by decide) (by decide)).trans (fld_here (n := 8) h3 (by decide) (by decide))))
  have ha : decodeV g wd = need (fld wd 10 6 = 0 ∧ fld wd 2 0 = 0) (.ok (.vrsqe g (fld wd 20 16) (fld wd 15 11) (fld wd 5 3))) := by
    unfold decodeV; rw [em]; rfl
  rw [ha]
  simp only [need, f10_6, f2_0, f20_16, f15_11, f5_3, and_self, if_true]

theorem RoundTrip.vrcps (g : Guard) (d : Nat) (a : Nat) (b : Nat) (k : Nat) (r : Rm) : Statement (.vrcps g d a b k r) := by
  intro h sl hs
  change (decide (g.pred < 12) && decide (d < 32) && decide (a < 32) && decide (b < 32) && decide (k < 8)) = true at h
  simp only [Bool.and_eq_true, decide_eq_true_eq] at h
  obtain ⟨⟨⟨⟨h0, h1⟩, h2⟩, h3⟩, h4⟩ := h
  obtain rfl : SlotClass.v = sl := Option.some.inj (of_decide_eq_true hs)
  have t4 : (r.code * 2 ^ 0 + 0) < 2 ^ 3 := lt_field (n := 8) (rm_code_lt r) (by decide) (by decide)
  have t3 : (k * 2 ^ 3 + (r.code * 2 ^ 0 + 0)) < 2 ^ 6 := lt_field (n := 8) h4 t4 (by decide)
  have t2 : (b * 2 ^ 6 + (k * 2 ^ 3 + (r.code * 2 ^ 0 + 0))) < 2 ^ 11 := lt_field (n := 32) h3 t3 (by decide)
  have t1 : (a * 2 ^ 11 + (b * 2 ^ 6 + (k * 2 ^ 3 + (r.code * 2 ^ 0 + 0)))) < 2 ^ 16 := lt_field (n := 32) h2 t2 (by decide)
  have t0 : (d * 2 ^ 16 + (a * 2 ^ 11 + (b * 2 ^ 6 + (k * 2 ^ 3 + (r.code * 2 ^ 0 + 0))))) < 2 ^ 21 := lt_field (n := 32) h1 t1 (by decide)
  obtain ⟨wd, hw⟩ : ∃ wd, g.neg.toNat * 2 ^ 31 + g.pred * 2 ^ 27 + 34 * 2 ^ 21 + (d * 2 ^ 16 + (a * 2 ^ 11 + (b * 2 ^ 6 + (k * 2 ^ 3 + (r.code * 2 ^ 0 + 0))))) = wd := ⟨_, rfl⟩
  change decodeWord .v (g.neg.toNat * 2 ^ 31 + g.pred * 2 ^ 27 + 34 * 2 ^ 21 + (d * 2 ^ 16 + (a * 2 ^ 11 + (b * 2 ^ 6 + (k * 2 ^ 3 + (r.code * 2 ^ 0 + 0)))))) = _
  rw [hw, decodeWord_op .v g 34 _ wd h0 (by decide) t0 (by decide) hw]
  change decodeV g wd = _
  have em := fld_major g 34 _ wd (by decide) t0 hw
  have f2_0 : fld wd 2 0 = r.code := (fld_body g 34 _ wd 2 0 (by decide) (by decide) hw).trans ((fld_below (by decide) (by decide)).trans ((fld_below (by decide) (by decide)).trans ((fld_below (by decide) (by decide)).trans ((fld_below (by decide) (by decide)).trans (fld_here (n := 8) (rm_code_lt r) (by decide) (by decide))))))
  have f20_16 : fld wd 20 16 = d := (fld_body g 34 _ wd 20 16 (by decide) (by decide) hw).trans (fld_here (n := 32) h1 t1 (by decide))
  have f15_11 : fld wd 15 11 = a := (fld_body g 34 _ wd 15 11 (by decide) (by decide) hw).trans ((fld_below (by decide) (by decide)).trans (fld_here (n := 32) h2 t2 (by decide)))
  have f10_6 : fld wd 10 6 = b := (fld_body g 34 _ wd 10 6 (by decide) (by decide) hw).trans ((fld_below (by decide) (by decide)).trans ((fld_below (by decide) (by decide)).trans (fld_here (n := 32) h3 t3 (by decide))))
  have f5_3 : fld wd 5 3 = k := (fld_body g 34 _ wd 5 3 (by decide) (by decide) hw).trans ((fld_below (by decide) (by decide)).trans ((fld_below (by decide) (by decide)).trans ((fld_below (by decide) (by decide)).trans (fld_here (n := 8) h4 t4 (by decide)))))
  have ha : decodeV g wd = (match Rm.ofCode (fld wd 2 0) with | some r => .ok (.vrcps g (fld wd 20 16) (fld wd 15 11) (fld wd 10 6) (fld wd 5 3) r) | _ => .error .reservedFormat) := by
    unfold decodeV; rw [em]; rfl
  rw [ha]
  simp only [f2_0, f20_16, f15_11, f10_6, f5_3, rmOfCode_code]

theorem RoundTrip.vrsqs (g : Guard) (d : Nat) (a : Nat) (b : Nat) (k : Nat) (r : Rm) : Statement (.vrsqs g d a b k r) := by
  intro h sl hs
  change (decide (g.pred < 12) && decide (d < 32) && decide (a < 32) && decide (b < 32) && decide (k < 8)) = true at h
  simp only [Bool.and_eq_true, decide_eq_true_eq] at h
  obtain ⟨⟨⟨⟨h0, h1⟩, h2⟩, h3⟩, h4⟩ := h
  obtain rfl : SlotClass.v = sl := Option.some.inj (of_decide_eq_true hs)
  have t4 : (r.code * 2 ^ 0 + 0) < 2 ^ 3 := lt_field (n := 8) (rm_code_lt r) (by decide) (by decide)
  have t3 : (k * 2 ^ 3 + (r.code * 2 ^ 0 + 0)) < 2 ^ 6 := lt_field (n := 8) h4 t4 (by decide)
  have t2 : (b * 2 ^ 6 + (k * 2 ^ 3 + (r.code * 2 ^ 0 + 0))) < 2 ^ 11 := lt_field (n := 32) h3 t3 (by decide)
  have t1 : (a * 2 ^ 11 + (b * 2 ^ 6 + (k * 2 ^ 3 + (r.code * 2 ^ 0 + 0)))) < 2 ^ 16 := lt_field (n := 32) h2 t2 (by decide)
  have t0 : (d * 2 ^ 16 + (a * 2 ^ 11 + (b * 2 ^ 6 + (k * 2 ^ 3 + (r.code * 2 ^ 0 + 0))))) < 2 ^ 21 := lt_field (n := 32) h1 t1 (by decide)
  obtain ⟨wd, hw⟩ : ∃ wd, g.neg.toNat * 2 ^ 31 + g.pred * 2 ^ 27 + 35 * 2 ^ 21 + (d * 2 ^ 16 + (a * 2 ^ 11 + (b * 2 ^ 6 + (k * 2 ^ 3 + (r.code * 2 ^ 0 + 0))))) = wd := ⟨_, rfl⟩
  change decodeWord .v (g.neg.toNat * 2 ^ 31 + g.pred * 2 ^ 27 + 35 * 2 ^ 21 + (d * 2 ^ 16 + (a * 2 ^ 11 + (b * 2 ^ 6 + (k * 2 ^ 3 + (r.code * 2 ^ 0 + 0)))))) = _
  rw [hw, decodeWord_op .v g 35 _ wd h0 (by decide) t0 (by decide) hw]
  change decodeV g wd = _
  have em := fld_major g 35 _ wd (by decide) t0 hw
  have f2_0 : fld wd 2 0 = r.code := (fld_body g 35 _ wd 2 0 (by decide) (by decide) hw).trans ((fld_below (by decide) (by decide)).trans ((fld_below (by decide) (by decide)).trans ((fld_below (by decide) (by decide)).trans ((fld_below (by decide) (by decide)).trans (fld_here (n := 8) (rm_code_lt r) (by decide) (by decide))))))
  have f20_16 : fld wd 20 16 = d := (fld_body g 35 _ wd 20 16 (by decide) (by decide) hw).trans (fld_here (n := 32) h1 t1 (by decide))
  have f15_11 : fld wd 15 11 = a := (fld_body g 35 _ wd 15 11 (by decide) (by decide) hw).trans ((fld_below (by decide) (by decide)).trans (fld_here (n := 32) h2 t2 (by decide)))
  have f10_6 : fld wd 10 6 = b := (fld_body g 35 _ wd 10 6 (by decide) (by decide) hw).trans ((fld_below (by decide) (by decide)).trans ((fld_below (by decide) (by decide)).trans (fld_here (n := 32) h3 t3 (by decide))))
  have f5_3 : fld wd 5 3 = k := (fld_body g 35 _ wd 5 3 (by decide) (by decide) hw).trans ((fld_below (by decide) (by decide)).trans ((fld_below (by decide) (by decide)).trans ((fld_below (by decide) (by decide)).trans (fld_here (n := 8) h4 t4 (by decide)))))
  have ha : decodeV g wd = (match Rm.ofCode (fld wd 2 0) with | some r => .ok (.vrsqs g (fld wd 20 16) (fld wd 15 11) (fld wd 10 6) (fld wd 5 3) r) | _ => .error .reservedFormat) := by
    unfold decodeV; rw [em]; rfl
  rw [ha]
  simp only [f2_0, f20_16, f15_11, f10_6, f5_3, rmOfCode_code]

theorem RoundTrip.vfexp (g : Guard) (d : Nat) (a : Nat) (k : Nat) : Statement (.vfexp g d a k) := by
  intro h sl hs
  change (decide (g.pred < 12) && decide (d < 32) && decide (a < 32) && decide (k < 8)) = true at h
  simp only [Bool.and_eq_true, decide_eq_true_eq] at h
  obtain ⟨⟨⟨h0, h1⟩, h2⟩, h3⟩ := h
  obtain rfl : SlotClass.v = sl := Option.some.inj (of_decide_eq_true hs)
  have t2 : (k * 2 ^ 3 + 0) < 2 ^ 11 := lt_field (n := 8) h3 (by decide) (by decide)
  have t1 : (a * 2 ^ 11 + (k * 2 ^ 3 + 0)) < 2 ^ 16 := lt_field (n := 32) h2 t2 (by decide)
  have t0 : (d * 2 ^ 16 + (a * 2 ^ 11 + (k * 2 ^ 3 + 0))) < 2 ^ 21 := lt_field (n := 32) h1 t1 (by decide)
  obtain ⟨wd, hw⟩ : ∃ wd, g.neg.toNat * 2 ^ 31 + g.pred * 2 ^ 27 + 36 * 2 ^ 21 + (d * 2 ^ 16 + (a * 2 ^ 11 + (k * 2 ^ 3 + 0))) = wd := ⟨_, rfl⟩
  change decodeWord .v (g.neg.toNat * 2 ^ 31 + g.pred * 2 ^ 27 + 36 * 2 ^ 21 + (d * 2 ^ 16 + (a * 2 ^ 11 + (k * 2 ^ 3 + 0)))) = _
  rw [hw, decodeWord_op .v g 36 _ wd h0 (by decide) t0 (by decide) hw]
  change decodeV g wd = _
  have em := fld_major g 36 _ wd (by decide) t0 hw
  have f10_6 : fld wd 10 6 = 0 := (fld_body g 36 _ wd 10 6 (by decide) (by decide) hw).trans ((fld_below (by decide) (by decide)).trans ((fld_below (by decide) (by decide)).trans (fld_above (lt_field (n := 8) h3 (by decide) (by decide)))))
  have f2_0 : fld wd 2 0 = 0 := (fld_body g 36 _ wd 2 0 (by decide) (by decide) hw).trans ((fld_below (by decide) (by decide)).trans ((fld_below (by decide) (by decide)).trans ((fld_below (by decide) (by decide)).trans (by decide))))
  have f20_16 : fld wd 20 16 = d := (fld_body g 36 _ wd 20 16 (by decide) (by decide) hw).trans (fld_here (n := 32) h1 t1 (by decide))
  have f15_11 : fld wd 15 11 = a := (fld_body g 36 _ wd 15 11 (by decide) (by decide) hw).trans ((fld_below (by decide) (by decide)).trans (fld_here (n := 32) h2 t2 (by decide)))
  have f5_3 : fld wd 5 3 = k := (fld_body g 36 _ wd 5 3 (by decide) (by decide) hw).trans ((fld_below (by decide) (by decide)).trans ((fld_below (by decide) (by decide)).trans (fld_here (n := 8) h3 (by decide) (by decide))))
  have ha : decodeV g wd = need (fld wd 10 6 = 0 ∧ fld wd 2 0 = 0) (.ok (.vfexp g (fld wd 20 16) (fld wd 15 11) (fld wd 5 3))) := by
    unfold decodeV; rw [em]; rfl
  rw [ha]
  simp only [need, f10_6, f2_0, f20_16, f15_11, f5_3, and_self, if_true]

theorem RoundTrip.vexpi (g : Guard) (d : Nat) (a : Nat) (b : Nat) (k : Nat) (r : Rm) : Statement (.vexpi g d a b k r) := by
  intro h sl hs
  change (decide (g.pred < 12) && decide (d < 32) && decide (a < 32) && decide (b < 32) && decide (k < 8)) = true at h
  simp only [Bool.and_eq_true, decide_eq_true_eq] at h
  obtain ⟨⟨⟨⟨h0, h1⟩, h2⟩, h3⟩, h4⟩ := h
  obtain rfl : SlotClass.v = sl := Option.some.inj (of_decide_eq_true hs)
  have t4 : (r.code * 2 ^ 0 + 0) < 2 ^ 3 := lt_field (n := 8) (rm_code_lt r) (by decide) (by decide)
  have t3 : (k * 2 ^ 3 + (r.code * 2 ^ 0 + 0)) < 2 ^ 6 := lt_field (n := 8) h4 t4 (by decide)
  have t2 : (b * 2 ^ 6 + (k * 2 ^ 3 + (r.code * 2 ^ 0 + 0))) < 2 ^ 11 := lt_field (n := 32) h3 t3 (by decide)
  have t1 : (a * 2 ^ 11 + (b * 2 ^ 6 + (k * 2 ^ 3 + (r.code * 2 ^ 0 + 0)))) < 2 ^ 16 := lt_field (n := 32) h2 t2 (by decide)
  have t0 : (d * 2 ^ 16 + (a * 2 ^ 11 + (b * 2 ^ 6 + (k * 2 ^ 3 + (r.code * 2 ^ 0 + 0))))) < 2 ^ 21 := lt_field (n := 32) h1 t1 (by decide)
  obtain ⟨wd, hw⟩ : ∃ wd, g.neg.toNat * 2 ^ 31 + g.pred * 2 ^ 27 + 37 * 2 ^ 21 + (d * 2 ^ 16 + (a * 2 ^ 11 + (b * 2 ^ 6 + (k * 2 ^ 3 + (r.code * 2 ^ 0 + 0))))) = wd := ⟨_, rfl⟩
  change decodeWord .v (g.neg.toNat * 2 ^ 31 + g.pred * 2 ^ 27 + 37 * 2 ^ 21 + (d * 2 ^ 16 + (a * 2 ^ 11 + (b * 2 ^ 6 + (k * 2 ^ 3 + (r.code * 2 ^ 0 + 0)))))) = _
  rw [hw, decodeWord_op .v g 37 _ wd h0 (by decide) t0 (by decide) hw]
  change decodeV g wd = _
  have em := fld_major g 37 _ wd (by decide) t0 hw
  have f2_0 : fld wd 2 0 = r.code := (fld_body g 37 _ wd 2 0 (by decide) (by decide) hw).trans ((fld_below (by decide) (by decide)).trans ((fld_below (by decide) (by decide)).trans ((fld_below (by decide) (by decide)).trans ((fld_below (by decide) (by decide)).trans (fld_here (n := 8) (rm_code_lt r) (by decide) (by decide))))))
  have f20_16 : fld wd 20 16 = d := (fld_body g 37 _ wd 20 16 (by decide) (by decide) hw).trans (fld_here (n := 32) h1 t1 (by decide))
  have f15_11 : fld wd 15 11 = a := (fld_body g 37 _ wd 15 11 (by decide) (by decide) hw).trans ((fld_below (by decide) (by decide)).trans (fld_here (n := 32) h2 t2 (by decide)))
  have f10_6 : fld wd 10 6 = b := (fld_body g 37 _ wd 10 6 (by decide) (by decide) hw).trans ((fld_below (by decide) (by decide)).trans ((fld_below (by decide) (by decide)).trans (fld_here (n := 32) h3 t3 (by decide))))
  have f5_3 : fld wd 5 3 = k := (fld_body g 37 _ wd 5 3 (by decide) (by decide) hw).trans ((fld_below (by decide) (by decide)).trans ((fld_below (by decide) (by decide)).trans ((fld_below (by decide) (by decide)).trans (fld_here (n := 8) h4 t4 (by decide)))))
  have ha : decodeV g wd = (match Rm.ofCode (fld wd 2 0) with | some r => .ok (.vexpi g (fld wd 20 16) (fld wd 15 11) (fld wd 10 6) (fld wd 5 3) r) | _ => .error .reservedFormat) := by
    unfold decodeV; rw [em]; rfl
  rw [ha]
  simp only [f2_0, f20_16, f15_11, f10_6, f5_3, rmOfCode_code]

theorem RoundTrip.vexpxE (g : Guard) (d : Nat) (a : Nat) (k : Nat) : Statement (.vexpxE g d a k) := by
  intro h sl hs
  change (decide (g.pred < 12) && decide (d < 32) && decide (a < 32) && decide (k < 8)) = true at h
  simp only [Bool.and_eq_true, decide_eq_true_eq] at h
  obtain ⟨⟨⟨h0, h1⟩, h2⟩, h3⟩ := h
  obtain rfl : SlotClass.v = sl := Option.some.inj (of_decide_eq_true hs)
  have t2 : (k * 2 ^ 3 + 0) < 2 ^ 11 := lt_field (n := 8) h3 (by decide) (by decide)
  have t1 : (a * 2 ^ 11 + (k * 2 ^ 3 + 0)) < 2 ^ 16 := lt_field (n := 32) h2 t2 (by decide)
  have t0 : (d * 2 ^ 16 + (a * 2 ^ 11 + (k * 2 ^ 3 + 0))) < 2 ^ 21 := lt_field (n := 32) h1 t1 (by decide)
  obtain ⟨wd, hw⟩ : ∃ wd, g.neg.toNat * 2 ^ 31 + g.pred * 2 ^ 27 + 38 * 2 ^ 21 + (d * 2 ^ 16 + (a * 2 ^ 11 + (k * 2 ^ 3 + 0))) = wd := ⟨_, rfl⟩
  change decodeWord .v (g.neg.toNat * 2 ^ 31 + g.pred * 2 ^ 27 + 38 * 2 ^ 21 + (d * 2 ^ 16 + (a * 2 ^ 11 + (k * 2 ^ 3 + 0)))) = _
  rw [hw, decodeWord_op .v g 38 _ wd h0 (by decide) t0 (by decide) hw]
  change decodeV g wd = _
  have em := fld_major g 38 _ wd (by decide) t0 hw
  have f10_6 : fld wd 10 6 = 0 := (fld_body g 38 _ wd 10 6 (by decide) (by decide) hw).trans ((fld_below (by decide) (by decide)).trans ((fld_below (by decide) (by decide)).trans (fld_above (lt_field (n := 8) h3 (by decide) (by decide)))))
  have f2_1 : fld wd 2 1 = 0 := (fld_body g 38 _ wd 2 1 (by decide) (by decide) hw).trans ((fld_below (by decide) (by decide)).trans ((fld_below (by decide) (by decide)).trans ((fld_below (by decide) (by decide)).trans (by decide))))
  have f20_16 : fld wd 20 16 = d := (fld_body g 38 _ wd 20 16 (by decide) (by decide) hw).trans (fld_here (n := 32) h1 t1 (by decide))
  have f15_11 : fld wd 15 11 = a := (fld_body g 38 _ wd 15 11 (by decide) (by decide) hw).trans ((fld_below (by decide) (by decide)).trans (fld_here (n := 32) h2 t2 (by decide)))
  have f5_3 : fld wd 5 3 = k := (fld_body g 38 _ wd 5 3 (by decide) (by decide) hw).trans ((fld_below (by decide) (by decide)).trans ((fld_below (by decide) (by decide)).trans (fld_here (n := 8) h3 (by decide) (by decide))))
  have f0_0 : fld wd 0 0 = 0 := (fld_body g 38 _ wd 0 0 (by decide) (by decide) hw).trans ((fld_below (by decide) (by decide)).trans ((fld_below (by decide) (by decide)).trans ((fld_below (by decide) (by decide)).trans (by decide))))
  have ha : decodeV g wd = need (fld wd 10 6 = 0 ∧ fld wd 2 1 = 0) (.ok (.vexpxE g (fld wd 20 16) (fld wd 15 11) (fld wd 5 3))) := by
    unfold decodeV; rw [em, f0_0]; rfl
  rw [ha]
  simp only [need, f10_6, f2_1, f20_16, f15_11, f5_3, and_self, if_true]

theorem RoundTrip.vexpxM (g : Guard) (d : Nat) (a : Nat) (k : Nat) : Statement (.vexpxM g d a k) := by
  intro h sl hs
  change (decide (g.pred < 12) && decide (d < 32) && decide (a < 32) && decide (k < 8)) = true at h
  simp only [Bool.and_eq_true, decide_eq_true_eq] at h
  obtain ⟨⟨⟨h0, h1⟩, h2⟩, h3⟩ := h
  obtain rfl : SlotClass.v = sl := Option.some.inj (of_decide_eq_true hs)
  have t3 : (1 * 2 ^ 0 + 0) < 2 ^ 3 := lt_field (n := 2) (Nat.lt_succ_self 1) (by decide) (by decide)
  have t2 : (k * 2 ^ 3 + (1 * 2 ^ 0 + 0)) < 2 ^ 11 := lt_field (n := 8) h3 t3 (by decide)
  have t1 : (a * 2 ^ 11 + (k * 2 ^ 3 + (1 * 2 ^ 0 + 0))) < 2 ^ 16 := lt_field (n := 32) h2 t2 (by decide)
  have t0 : (d * 2 ^ 16 + (a * 2 ^ 11 + (k * 2 ^ 3 + (1 * 2 ^ 0 + 0)))) < 2 ^ 21 := lt_field (n := 32) h1 t1 (by decide)
  obtain ⟨wd, hw⟩ : ∃ wd, g.neg.toNat * 2 ^ 31 + g.pred * 2 ^ 27 + 38 * 2 ^ 21 + (d * 2 ^ 16 + (a * 2 ^ 11 + (k * 2 ^ 3 + (1 * 2 ^ 0 + 0)))) = wd := ⟨_, rfl⟩
  change decodeWord .v (g.neg.toNat * 2 ^ 31 + g.pred * 2 ^ 27 + 38 * 2 ^ 21 + (d * 2 ^ 16 + (a * 2 ^ 11 + (k * 2 ^ 3 + (1 * 2 ^ 0 + 0))))) = _
  rw [hw, decodeWord_op .v g 38 _ wd h0 (by decide) t0 (by decide) hw]
  change decodeV g wd = _
  have em := fld_major g 38 _ wd (by decide) t0 hw
  have f10_6 : fld wd 10 6 = 0 := (fld_body g 38 _ wd 10 6 (by decide) (by decide) hw).trans ((fld_below (by decide) (by decide)).trans ((fld_below (by decide) (by decide)).trans (fld_above (lt_field (n := 8) h3 t3 (by decide)))))
  have f2_1 : fld wd 2 1 = 0 := (fld_body g 38 _ wd 2 1 (by decide) (by decide) hw).trans ((fld_below (by decide) (by decide)).trans ((fld_below (by decide) (by decide)).trans ((fld_below (by decide) (by decide)).trans (fld_above (lt_field (n := 2) (Nat.lt_succ_self 1) (by decide) (by decide))))))
  have f20_16 : fld wd 20 16 = d := (fld_body g 38 _ wd 20 16 (by decide) (by decide) hw).trans (fld_here (n := 32) h1 t1 (by decide))
  have f15_11 : fld wd 15 11 = a := (fld_body g 38 _ wd 15 11 (by decide) (by decide) hw).trans ((fld_below (by decide) (by decide)).trans (fld_here (n := 32) h2 t2 (by decide)))
  have f5_3 : fld wd 5 3 = k := (fld_body g 38 _ wd 5 3 (by decide) (by decide) hw).trans ((fld_below (by decide) (by decide)).trans ((fld_below (by decide) (by decide)).trans (fld_here (n := 8) h3 t3 (by decide))))
  have f0_0 : fld wd 0 0 = 1 := (fld_body g 38 _ wd 0 0 (by decide) (by decide) hw).trans ((fld_below (by decide) (by decide)).trans ((fld_below (by decide) (by decide)).trans ((fld_below (by decide) (by decide)).trans (fld_here (n := 2) (Nat.lt_succ_self 1) (by decide) (by decide)))))
  have ha : decodeV g wd = need (fld wd 10 6 = 0 ∧ fld wd 2 1 = 0) (.ok (.vexpxM g (fld wd 20 16) (fld wd 15 11) (fld wd 5 3))) := by
    unfold decodeV; rw [em, f0_0]; rfl
  rw [ha]
  simp only [need, f10_6, f2_1, f20_16, f15_11, f5_3, and_self, if_true]

theorem RoundTrip.vlg2e (g : Guard) (d : Nat) (a : Nat) (k : Nat) : Statement (.vlg2e g d a k) := by
  intro h sl hs
  change (decide (g.pred < 12) && decide (d < 32) && decide (a < 32) && decide (k < 8)) = true at h
  simp only [Bool.and_eq_true, decide_eq_true_eq] at h
  obtain ⟨⟨⟨h0, h1⟩, h2⟩, h3⟩ := h
  obtain rfl : SlotClass.v = sl := Option.some.inj (of_decide_eq_true hs)
  have t2 : (k * 2 ^ 3 + 0) < 2 ^ 11 := lt_field (n := 8) h3 (by decide) (by decide)
  have t1 : (a * 2 ^ 11 + (k * 2 ^ 3 + 0)) < 2 ^ 16 := lt_field (n := 32) h2 t2 (by decide)
  have t0 : (d * 2 ^ 16 + (a * 2 ^ 11 + (k * 2 ^ 3 + 0))) < 2 ^ 21 := lt_field (n := 32) h1 t1 (by decide)
  obtain ⟨wd, hw⟩ : ∃ wd, g.neg.toNat * 2 ^ 31 + g.pred * 2 ^ 27 + 39 * 2 ^ 21 + (d * 2 ^ 16 + (a * 2 ^ 11 + (k * 2 ^ 3 + 0))) = wd := ⟨_, rfl⟩
  change decodeWord .v (g.neg.toNat * 2 ^ 31 + g.pred * 2 ^ 27 + 39 * 2 ^ 21 + (d * 2 ^ 16 + (a * 2 ^ 11 + (k * 2 ^ 3 + 0)))) = _
  rw [hw, decodeWord_op .v g 39 _ wd h0 (by decide) t0 (by decide) hw]
  change decodeV g wd = _
  have em := fld_major g 39 _ wd (by decide) t0 hw
  have f10_6 : fld wd 10 6 = 0 := (fld_body g 39 _ wd 10 6 (by decide) (by decide) hw).trans ((fld_below (by decide) (by decide)).trans ((fld_below (by decide) (by decide)).trans (fld_above (lt_field (n := 8) h3 (by decide) (by decide)))))
  have f2_0 : fld wd 2 0 = 0 := (fld_body g 39 _ wd 2 0 (by decide) (by decide) hw).trans ((fld_below (by decide) (by decide)).trans ((fld_below (by decide) (by decide)).trans ((fld_below (by decide) (by decide)).trans (by decide))))
  have f20_16 : fld wd 20 16 = d := (fld_body g 39 _ wd 20 16 (by decide) (by decide) hw).trans (fld_here (n := 32) h1 t1 (by decide))
  have f15_11 : fld wd 15 11 = a := (fld_body g 39 _ wd 15 11 (by decide) (by decide) hw).trans ((fld_below (by decide) (by decide)).trans (fld_here (n := 32) h2 t2 (by decide)))
  have f5_3 : fld wd 5 3 = k := (fld_body g 39 _ wd 5 3 (by decide) (by decide) hw).trans ((fld_below (by decide) (by decide)).trans ((fld_below (by decide) (by decide)).trans (fld_here (n := 8) h3 (by decide) (by decide))))
  have ha : decodeV g wd = need (fld wd 10 6 = 0 ∧ fld wd 2 0 = 0) (.ok (.vlg2e g (fld wd 20 16) (fld wd 15 11) (fld wd 5 3))) := by
    unfold decodeV; rw [em]; rfl
  rw [ha]
  simp only [need, f10_6, f2_0, f20_16, f15_11, f5_3, and_self, if_true]

theorem RoundTrip.vrngN32 (g : Guard) (d : Nat) (k : Nat) : Statement (.vrngN32 g d k) := by
  intro h sl hs
  change (decide (g.pred < 12) && decide (d < 32) && decide (k < 8)) = true at h
  simp only [Bool.and_eq_true, decide_eq_true_eq] at h
  obtain ⟨⟨h0, h1⟩, h2⟩ := h
  obtain rfl : SlotClass.v = sl := Option.some.inj (of_decide_eq_true hs)
  have t1 : (k * 2 ^ 3 + 0) < 2 ^ 16 := lt_field (n := 8) h2 (by decide) (by decide)
  have t0 : (d * 2 ^ 16 + (k * 2 ^ 3 + 0)) < 2 ^ 21 := lt_field (n := 32) h1 t1 (by decide)
  obtain ⟨wd, hw⟩ : ∃ wd, g.neg.toNat * 2 ^ 31 + g.pred * 2 ^ 27 + 40 * 2 ^ 21 + (d * 2 ^ 16 + (k * 2 ^ 3 + 0)) = wd := ⟨_, rfl⟩
  change decodeWord .v (g.neg.toNat * 2 ^ 31 + g.pred * 2 ^ 27 + 40 * 2 ^ 21 + (d * 2 ^ 16 + (k * 2 ^ 3 + 0))) = _
  rw [hw, decodeWord_op .v g 40 _ wd h0 (by decide) t0 (by decide) hw]
  change decodeV g wd = _
  have em := fld_major g 40 _ wd (by decide) t0 hw
  have f15_6 : fld wd 15 6 = 0 := (fld_body g 40 _ wd 15 6 (by decide) (by decide) hw).trans ((fld_below (by decide) (by decide)).trans (fld_above (lt_field (n := 8) h2 (by decide) (by decide))))
  have f2_1 : fld wd 2 1 = 0 := (fld_body g 40 _ wd 2 1 (by decide) (by decide) hw).trans ((fld_below (by decide) (by decide)).trans ((fld_below (by decide) (by decide)).trans (by decide)))
  have f20_16 : fld wd 20 16 = d := (fld_body g 40 _ wd 20 16 (by decide) (by decide) hw).trans (fld_here (n := 32) h1 t1 (by decide))
  have f5_3 : fld wd 5 3 = k := (fld_body g 40 _ wd 5 3 (by decide) (by decide) hw).trans ((fld_below (by decide) (by decide)).trans (fld_here (n := 8) h2 (by decide) (by decide)))
  have f0_0 : fld wd 0 0 = 0 := (fld_body g 40 _ wd 0 0 (by decide) (by decide) hw).trans ((fld_below (by decide) (by decide)).trans ((fld_below (by decide) (by decide)).trans (by decide)))
  have ha : decodeV g wd = need (fld wd 15 6 = 0 ∧ fld wd 2 1 = 0) (.ok (.vrngN32 g (fld wd 20 16) (fld wd 5 3))) := by
    unfold decodeV; rw [em, f0_0]; rfl
  rw [ha]
  simp only [need, f15_6, f2_1, f20_16, f5_3, and_self, if_true]

theorem RoundTrip.vrngF32 (g : Guard) (d : Nat) (k : Nat) : Statement (.vrngF32 g d k) := by
  intro h sl hs
  change (decide (g.pred < 12) && decide (d < 32) && decide (k < 8)) = true at h
  simp only [Bool.and_eq_true, decide_eq_true_eq] at h
  obtain ⟨⟨h0, h1⟩, h2⟩ := h
  obtain rfl : SlotClass.v = sl := Option.some.inj (of_decide_eq_true hs)
  have t2 : (1 * 2 ^ 0 + 0) < 2 ^ 3 := lt_field (n := 2) (Nat.lt_succ_self 1) (by decide) (by decide)
  have t1 : (k * 2 ^ 3 + (1 * 2 ^ 0 + 0)) < 2 ^ 16 := lt_field (n := 8) h2 t2 (by decide)
  have t0 : (d * 2 ^ 16 + (k * 2 ^ 3 + (1 * 2 ^ 0 + 0))) < 2 ^ 21 := lt_field (n := 32) h1 t1 (by decide)
  obtain ⟨wd, hw⟩ : ∃ wd, g.neg.toNat * 2 ^ 31 + g.pred * 2 ^ 27 + 40 * 2 ^ 21 + (d * 2 ^ 16 + (k * 2 ^ 3 + (1 * 2 ^ 0 + 0))) = wd := ⟨_, rfl⟩
  change decodeWord .v (g.neg.toNat * 2 ^ 31 + g.pred * 2 ^ 27 + 40 * 2 ^ 21 + (d * 2 ^ 16 + (k * 2 ^ 3 + (1 * 2 ^ 0 + 0)))) = _
  rw [hw, decodeWord_op .v g 40 _ wd h0 (by decide) t0 (by decide) hw]
  change decodeV g wd = _
  have em := fld_major g 40 _ wd (by decide) t0 hw
  have f15_6 : fld wd 15 6 = 0 := (fld_body g 40 _ wd 15 6 (by decide) (by decide) hw).trans ((fld_below (by decide) (by decide)).trans (fld_above (lt_field (n := 8) h2 t2 (by decide))))
  have f2_1 : fld wd 2 1 = 0 := (fld_body g 40 _ wd 2 1 (by decide) (by decide) hw).trans ((fld_below (by decide) (by decide)).trans ((fld_below (by decide) (by decide)).trans (fld_above (lt_field (n := 2) (Nat.lt_succ_self 1) (by decide) (by decide)))))
  have f20_16 : fld wd 20 16 = d := (fld_body g 40 _ wd 20 16 (by decide) (by decide) hw).trans (fld_here (n := 32) h1 t1 (by decide))
  have f5_3 : fld wd 5 3 = k := (fld_body g 40 _ wd 5 3 (by decide) (by decide) hw).trans ((fld_below (by decide) (by decide)).trans (fld_here (n := 8) h2 t2 (by decide)))
  have f0_0 : fld wd 0 0 = 1 := (fld_body g 40 _ wd 0 0 (by decide) (by decide) hw).trans ((fld_below (by decide) (by decide)).trans ((fld_below (by decide) (by decide)).trans (fld_here (n := 2) (Nat.lt_succ_self 1) (by decide) (by decide))))
  have ha : decodeV g wd = need (fld wd 15 6 = 0 ∧ fld wd 2 1 = 0) (.ok (.vrngF32 g (fld wd 20 16) (fld wd 5 3))) := by
    unfold decodeV; rw [em, f0_0]; rfl
  rw [ha]
  simp only [need, f15_6, f2_1, f20_16, f5_3, and_self, if_true]

theorem RoundTrip.mlease (g : Guard) : Statement (.mlease g) := by
  intro h sl hs
  change (decide (g.pred < 12)) = true at h
  simp only [decide_eq_true_eq] at h
  have h0 := h
  obtain rfl : SlotClass.m = sl := Option.some.inj (of_decide_eq_true hs)
  have t0 : 0 < 2 ^ 21 := by decide
  obtain ⟨wd, hw⟩ : ∃ wd, g.neg.toNat * 2 ^ 31 + g.pred * 2 ^ 27 + 1 * 2 ^ 21 + 0 = wd := ⟨_, rfl⟩
  change decodeWord .m (g.neg.toNat * 2 ^ 31 + g.pred * 2 ^ 27 + 1 * 2 ^ 21 + 0) = _
  rw [hw, decodeWord_op .m g 1 _ wd h0 (by decide) t0 (by decide) hw]
  change decodeM g wd = _
  have em := fld_major g 1 _ wd (by decide) t0 hw
  have f20_0 : fld wd 20 0 = 0 := (fld_body g 1 _ wd 20 0 (by decide) (by decide) hw).trans (by decide)
  have ha : decodeM g wd = need (fld wd 20 0 = 0) (.ok (.mlease g)) := by
    unfold decodeM; rw [em]; rfl
  rw [ha]
  simp only [need, f20_0, if_true]

theorem RoundTrip.mrel (g : Guard) : Statement (.mrel g) := by
  intro h sl hs
  change (decide (g.pred < 12)) = true at h
  simp only [decide_eq_true_eq] at h
  have h0 := h
  obtain rfl : SlotClass.m = sl := Option.some.inj (of_decide_eq_true hs)
  have t0 : 0 < 2 ^ 21 := by decide
  obtain ⟨wd, hw⟩ : ∃ wd, g.neg.toNat * 2 ^ 31 + g.pred * 2 ^ 27 + 2 * 2 ^ 21 + 0 = wd := ⟨_, rfl⟩
  change decodeWord .m (g.neg.toNat * 2 ^ 31 + g.pred * 2 ^ 27 + 2 * 2 ^ 21 + 0) = _
  rw [hw, decodeWord_op .m g 2 _ wd h0 (by decide) t0 (by decide) hw]
  change decodeM g wd = _
  have em := fld_major g 2 _ wd (by decide) t0 hw
  have f20_0 : fld wd 20 0 = 0 := (fld_body g 2 _ wd 20 0 (by decide) (by decide) hw).trans (by decide)
  have ha : decodeM g wd = need (fld wd 20 0 = 0) (.ok (.mrel g)) := by
    unfold decodeM; rw [em]; rfl
  rw [ha]
  simp only [need, f20_0, if_true]

theorem RoundTrip.mset (g : Guard) (c : Nat) (a : Nat) : Statement (.mset g c a) := by
  intro h sl hs
  change (decide (g.pred < 12) && decide (c < 25) && decide (a < 32)) = true at h
  simp only [Bool.and_eq_true, decide_eq_true_eq] at h
  obtain ⟨⟨h0, h1⟩, h2⟩ := h
  obtain rfl : SlotClass.m = sl := Option.some.inj (of_decide_eq_true hs)
  have t1 : (a * 2 ^ 8 + 0) < 2 ^ 13 := lt_field (n := 32) h2 (by decide) (by decide)
  have t0 : (c * 2 ^ 13 + (a * 2 ^ 8 + 0)) < 2 ^ 21 := lt_field (n := 25) h1 t1 (by decide)
  obtain ⟨wd, hw⟩ : ∃ wd, g.neg.toNat * 2 ^ 31 + g.pred * 2 ^ 27 + 3 * 2 ^ 21 + (c * 2 ^ 13 + (a * 2 ^ 8 + 0)) = wd := ⟨_, rfl⟩
  change decodeWord .m (g.neg.toNat * 2 ^ 31 + g.pred * 2 ^ 27 + 3 * 2 ^ 21 + (c * 2 ^ 13 + (a * 2 ^ 8 + 0))) = _
  rw [hw, decodeWord_op .m g 3 _ wd h0 (by decide) t0 (by decide) hw]
  change decodeM g wd = _
  have em := fld_major g 3 _ wd (by decide) t0 hw
  have f7_0 : fld wd 7 0 = 0 := (fld_body g 3 _ wd 7 0 (by decide) (by decide) hw).trans ((fld_below (by decide) (by decide)).trans ((fld_below (by decide) (by decide)).trans (by decide)))
  have f20_13 : fld wd 20 13 = c := (fld_body g 3 _ wd 20 13 (by decide) (by decide) hw).trans (fld_here (n := 25) h1 t1 (by decide))
  have f12_8 : fld wd 12 8 = a := (fld_body g 3 _ wd 12 8 (by decide) (by decide) hw).trans ((fld_below (by decide) (by decide)).trans (fld_here (n := 32) h2 (by decide) (by decide)))
  have ha : decodeM g wd = need (fld wd 7 0 = 0 ∧ fld wd 20 13 < 25) (.ok (.mset g (fld wd 20 13) (fld wd 12 8))) := by
    unfold decodeM; rw [em]; rfl
  rw [ha]
  simp only [need, f7_0, f20_13, f12_8, h1, and_self, if_true]

theorem RoundTrip.mseti (g : Guard) (c : Nat) (i : Nat) : Statement (.mseti g c i) := by
  intro h sl hs
  change (decide (g.pred < 12) && decide (c < 25) && decide (i < 8192)) = true at h
  simp only [Bool.and_eq_true, decide_eq_true_eq] at h
  obtain ⟨⟨h0, h1⟩, h2⟩ := h
  obtain rfl : SlotClass.m = sl := Option.some.inj (of_decide_eq_true hs)
  have t1 : (i * 2 ^ 0 + 0) < 2 ^ 13 := lt_field (n := 8192) h2 (by decide) (by decide)
  have t0 : (c * 2 ^ 13 + (i * 2 ^ 0 + 0)) < 2 ^ 21 := lt_field (n := 25) h1 t1 (by decide)
  obtain ⟨wd, hw⟩ : ∃ wd, g.neg.toNat * 2 ^ 31 + g.pred * 2 ^ 27 + 4 * 2 ^ 21 + (c * 2 ^ 13 + (i * 2 ^ 0 + 0)) = wd := ⟨_, rfl⟩
  change decodeWord .m (g.neg.toNat * 2 ^ 31 + g.pred * 2 ^ 27 + 4 * 2 ^ 21 + (c * 2 ^ 13 + (i * 2 ^ 0 + 0))) = _
  rw [hw, decodeWord_op .m g 4 _ wd h0 (by decide) t0 (by decide) hw]
  change decodeM g wd = _
  have em := fld_major g 4 _ wd (by decide) t0 hw
  have f20_13 : fld wd 20 13 = c := (fld_body g 4 _ wd 20 13 (by decide) (by decide) hw).trans (fld_here (n := 25) h1 t1 (by decide))
  have f12_0 : fld wd 12 0 = i := (fld_body g 4 _ wd 12 0 (by decide) (by decide) hw).trans ((fld_below (by decide) (by decide)).trans (fld_here (n := 8192) h2 (by decide) (by decide)))
  have ha : decodeM g wd = need (fld wd 20 13 < 25) (.ok (.mseti g (fld wd 20 13) (fld wd 12 0))) := by
    unfold decodeM; rw [em]; rfl
  rw [ha]
  simp only [need, f20_13, f12_0, h1, if_true]

theorem RoundTrip.mwld (g : Guard) (w : Fmt) : Statement (.mwld g w) := by
  intro h sl hs
  change (decide (g.pred < 12) && Fmt.weight w) = true at h
  simp only [Bool.and_eq_true, decide_eq_true_eq] at h
  obtain ⟨h0, h1⟩ := h
  obtain rfl : SlotClass.m = sl := Option.some.inj (of_decide_eq_true hs)
  have t0 : (w.code * 2 ^ 17 + 0) < 2 ^ 21 := lt_field (n := 16) (fmt_code_lt w) (by decide) (by decide)
  obtain ⟨wd, hw⟩ : ∃ wd, g.neg.toNat * 2 ^ 31 + g.pred * 2 ^ 27 + 5 * 2 ^ 21 + (w.code * 2 ^ 17 + 0) = wd := ⟨_, rfl⟩
  change decodeWord .m (g.neg.toNat * 2 ^ 31 + g.pred * 2 ^ 27 + 5 * 2 ^ 21 + (w.code * 2 ^ 17 + 0)) = _
  rw [hw, decodeWord_op .m g 5 _ wd h0 (by decide) t0 (by decide) hw]
  change decodeM g wd = _
  have em := fld_major g 5 _ wd (by decide) t0 hw
  have f16_0 : fld wd 16 0 = 0 := (fld_body g 5 _ wd 16 0 (by decide) (by decide) hw).trans ((fld_below (by decide) (by decide)).trans (by decide))
  have f20_17 : fld wd 20 17 = w.code := (fld_body g 5 _ wd 20 17 (by decide) (by decide) hw).trans (fld_here (n := 16) (fmt_code_lt w) (by decide) (by decide))
  have ha : decodeM g wd = need (fld wd 16 0 = 0) (match Fmt.ofCode (fld wd 20 17) with | some w => if Fmt.weight w then .ok (.mwld g w) else .error .unassigned | _ => .error .reservedFormat) := by
    unfold decodeM; rw [em]; rfl
  rw [ha]
  simp only [need, f16_0, f20_17, h1, ofCode_code, if_true]

theorem RoundTrip.mwlda (g : Guard) (w : Fmt) : Statement (.mwlda g w) := by
  intro h sl hs
  change (decide (g.pred < 12) && Fmt.weight w) = true at h
  simp only [Bool.and_eq_true, decide_eq_true_eq] at h
  obtain ⟨h0, h1⟩ := h
  obtain rfl : SlotClass.m = sl := Option.some.inj (of_decide_eq_true hs)
  have t0 : (w.code * 2 ^ 17 + 0) < 2 ^ 21 := lt_field (n := 16) (fmt_code_lt w) (by decide) (by decide)
  obtain ⟨wd, hw⟩ : ∃ wd, g.neg.toNat * 2 ^ 31 + g.pred * 2 ^ 27 + 6 * 2 ^ 21 + (w.code * 2 ^ 17 + 0) = wd := ⟨_, rfl⟩
  change decodeWord .m (g.neg.toNat * 2 ^ 31 + g.pred * 2 ^ 27 + 6 * 2 ^ 21 + (w.code * 2 ^ 17 + 0)) = _
  rw [hw, decodeWord_op .m g 6 _ wd h0 (by decide) t0 (by decide) hw]
  change decodeM g wd = _
  have em := fld_major g 6 _ wd (by decide) t0 hw
  have f16_0 : fld wd 16 0 = 0 := (fld_body g 6 _ wd 16 0 (by decide) (by decide) hw).trans ((fld_below (by decide) (by decide)).trans (by decide))
  have f20_17 : fld wd 20 17 = w.code := (fld_body g 6 _ wd 20 17 (by decide) (by decide) hw).trans (fld_here (n := 16) (fmt_code_lt w) (by decide) (by decide))
  have ha : decodeM g wd = need (fld wd 16 0 = 0) (match Fmt.ofCode (fld wd 20 17) with | some w => if Fmt.weight w then .ok (.mwlda g w) else .error .unassigned | _ => .error .reservedFormat) := by
    unfold decodeM; rw [em]; rfl
  rw [ha]
  simp only [need, f16_0, f20_17, h1, ofCode_code, if_true]

theorem RoundTrip.mwldb (g : Guard) (w : Fmt) : Statement (.mwldb g w) := by
  intro h sl hs
  change (decide (g.pred < 12) && Fmt.weight w) = true at h
  simp only [Bool.and_eq_true, decide_eq_true_eq] at h
  obtain ⟨h0, h1⟩ := h
  obtain rfl : SlotClass.m = sl := Option.some.inj (of_decide_eq_true hs)
  have t0 : (w.code * 2 ^ 17 + 0) < 2 ^ 21 := lt_field (n := 16) (fmt_code_lt w) (by decide) (by decide)
  obtain ⟨wd, hw⟩ : ∃ wd, g.neg.toNat * 2 ^ 31 + g.pred * 2 ^ 27 + 7 * 2 ^ 21 + (w.code * 2 ^ 17 + 0) = wd := ⟨_, rfl⟩
  change decodeWord .m (g.neg.toNat * 2 ^ 31 + g.pred * 2 ^ 27 + 7 * 2 ^ 21 + (w.code * 2 ^ 17 + 0)) = _
  rw [hw, decodeWord_op .m g 7 _ wd h0 (by decide) t0 (by decide) hw]
  change decodeM g wd = _
  have em := fld_major g 7 _ wd (by decide) t0 hw
  have f16_0 : fld wd 16 0 = 0 := (fld_body g 7 _ wd 16 0 (by decide) (by decide) hw).trans ((fld_below (by decide) (by decide)).trans (by decide))
  have f20_17 : fld wd 20 17 = w.code := (fld_body g 7 _ wd 20 17 (by decide) (by decide) hw).trans (fld_here (n := 16) (fmt_code_lt w) (by decide) (by decide))
  have ha : decodeM g wd = need (fld wd 16 0 = 0) (match Fmt.ofCode (fld wd 20 17) with | some w => if Fmt.weight w then .ok (.mwldb g w) else .error .unassigned | _ => .error .reservedFormat) := by
    unfold decodeM; rw [em]; rfl
  rw [ha]
  simp only [need, f16_0, f20_17, h1, ofCode_code, if_true]

theorem RoundTrip.mma (g : Guard) (w : Fmt) (x : Fmt) (z : Nat) : Statement (.mma g w x z) := by
  intro h sl hs
  change (decide (g.pred < 12) && decide (z < 4) && Fmt.mmaPair w x) = true at h
  simp only [Bool.and_eq_true, decide_eq_true_eq] at h
  obtain ⟨⟨h0, h1⟩, h2⟩ := h
  obtain rfl : SlotClass.m = sl := Option.some.inj (of_decide_eq_true hs)
  have t2 : (z * 2 ^ 11 + 0) < 2 ^ 13 := lt_field (n := 4) h1 (by decide) (by decide)
  have t1 : (x.code * 2 ^ 13 + (z * 2 ^ 11 + 0)) < 2 ^ 17 := lt_field (n := 16) (fmt_code_lt x) t2 (by decide)
  have t0 : (w.code * 2 ^ 17 + (x.code * 2 ^ 13 + (z * 2 ^ 11 + 0))) < 2 ^ 21 := lt_field (n := 16) (fmt_code_lt w) t1 (by decide)
  obtain ⟨wd, hw⟩ : ∃ wd, g.neg.toNat * 2 ^ 31 + g.pred * 2 ^ 27 + 8 * 2 ^ 21 + (w.code * 2 ^ 17 + (x.code * 2 ^ 13 + (z * 2 ^ 11 + 0))) = wd := ⟨_, rfl⟩
  change decodeWord .m (g.neg.toNat * 2 ^ 31 + g.pred * 2 ^ 27 + 8 * 2 ^ 21 + (w.code * 2 ^ 17 + (x.code * 2 ^ 13 + (z * 2 ^ 11 + 0)))) = _
  rw [hw, decodeWord_op .m g 8 _ wd h0 (by decide) t0 (by decide) hw]
  change decodeM g wd = _
  have em := fld_major g 8 _ wd (by decide) t0 hw
  have f9_0 : fld wd 9 0 = 0 := (fld_body g 8 _ wd 9 0 (by decide) (by decide) hw).trans ((fld_below (by decide) (by decide)).trans ((fld_below (by decide) (by decide)).trans ((fld_below (by decide) (by decide)).trans (by decide))))
  have f20_17 : fld wd 20 17 = w.code := (fld_body g 8 _ wd 20 17 (by decide) (by decide) hw).trans (fld_here (n := 16) (fmt_code_lt w) t1 (by decide))
  have f16_13 : fld wd 16 13 = x.code := (fld_body g 8 _ wd 16 13 (by decide) (by decide) hw).trans ((fld_below (by decide) (by decide)).trans (fld_here (n := 16) (fmt_code_lt x) t2 (by decide)))
  have f12_11 : fld wd 12 11 = z := (fld_body g 8 _ wd 12 11 (by decide) (by decide) hw).trans ((fld_below (by decide) (by decide)).trans ((fld_below (by decide) (by decide)).trans (fld_here (n := 4) h1 (by decide) (by decide))))
  have f10_10 : fld wd 10 10 = 0 := (fld_body g 8 _ wd 10 10 (by decide) (by decide) hw).trans ((fld_below (by decide) (by decide)).trans ((fld_below (by decide) (by decide)).trans ((fld_below (by decide) (by decide)).trans (by decide))))
  have ha : decodeM g wd = need (fld wd 9 0 = 0) (match Fmt.ofCode (fld wd 20 17), Fmt.ofCode (fld wd 16 13) with | some w, some x => if Fmt.mmaPair w x then .ok (.mma g w x (fld wd 12 11)) else .error .unassigned | _, _ => .error .reservedFormat) := by
    unfold decodeM; rw [em, f10_10]; rfl
  rw [ha]
  simp only [need, f9_0, f20_17, f16_13, f12_11, h2, ofCode_code, if_true]

theorem RoundTrip.mmaAcc (g : Guard) (w : Fmt) (x : Fmt) (z : Nat) : Statement (.mmaAcc g w x z) := by
  intro h sl hs
  change (decide (g.pred < 12) && decide (z < 4) && Fmt.mmaPair w x) = true at h
  simp only [Bool.and_eq_true, decide_eq_true_eq] at h
  obtain ⟨⟨h0, h1⟩, h2⟩ := h
  obtain rfl : SlotClass.m = sl := Option.some.inj (of_decide_eq_true hs)
  have t3 : (1 * 2 ^ 10 + 0) < 2 ^ 11 := lt_field (n := 2) (Nat.lt_succ_self 1) (by decide) (by decide)
  have t2 : (z * 2 ^ 11 + (1 * 2 ^ 10 + 0)) < 2 ^ 13 := lt_field (n := 4) h1 t3 (by decide)
  have t1 : (x.code * 2 ^ 13 + (z * 2 ^ 11 + (1 * 2 ^ 10 + 0))) < 2 ^ 17 := lt_field (n := 16) (fmt_code_lt x) t2 (by decide)
  have t0 : (w.code * 2 ^ 17 + (x.code * 2 ^ 13 + (z * 2 ^ 11 + (1 * 2 ^ 10 + 0)))) < 2 ^ 21 := lt_field (n := 16) (fmt_code_lt w) t1 (by decide)
  obtain ⟨wd, hw⟩ : ∃ wd, g.neg.toNat * 2 ^ 31 + g.pred * 2 ^ 27 + 8 * 2 ^ 21 + (w.code * 2 ^ 17 + (x.code * 2 ^ 13 + (z * 2 ^ 11 + (1 * 2 ^ 10 + 0)))) = wd := ⟨_, rfl⟩
  change decodeWord .m (g.neg.toNat * 2 ^ 31 + g.pred * 2 ^ 27 + 8 * 2 ^ 21 + (w.code * 2 ^ 17 + (x.code * 2 ^ 13 + (z * 2 ^ 11 + (1 * 2 ^ 10 + 0))))) = _
  rw [hw, decodeWord_op .m g 8 _ wd h0 (by decide) t0 (by decide) hw]
  change decodeM g wd = _
  have em := fld_major g 8 _ wd (by decide) t0 hw
  have f9_0 : fld wd 9 0 = 0 := (fld_body g 8 _ wd 9 0 (by decide) (by decide) hw).trans ((fld_below (by decide) (by decide)).trans ((fld_below (by decide) (by decide)).trans ((fld_below (by decide) (by decide)).trans ((fld_below (by decide) (by decide)).trans (by decide)))))
  have f20_17 : fld wd 20 17 = w.code := (fld_body g 8 _ wd 20 17 (by decide) (by decide) hw).trans (fld_here (n := 16) (fmt_code_lt w) t1 (by decide))
  have f16_13 : fld wd 16 13 = x.code := (fld_body g 8 _ wd 16 13 (by decide) (by decide) hw).trans ((fld_below (by decide) (by decide)).trans (fld_here (n := 16) (fmt_code_lt x) t2 (by decide)))
  have f12_11 : fld wd 12 11 = z := (fld_body g 8 _ wd 12 11 (by decide) (by decide) hw).trans ((fld_below (by decide) (by decide)).trans ((fld_below (by decide) (by decide)).trans (fld_here (n := 4) h1 t3 (by decide))))
  have f10_10 : fld wd 10 10 = 1 := (fld_body g 8 _ wd 10 10 (by decide) (by decide) hw).trans ((fld_below (by decide) (by decide)).trans ((fld_below (by decide) (by decide)).trans ((fld_below (by decide) (by decide)).trans (fld_here (n := 2) (Nat.lt_succ_self 1) (by decide) (by decide)))))
  have ha : decodeM g wd = need (fld wd 9 0 = 0) (match Fmt.ofCode (fld wd 20 17), Fmt.ofCode (fld wd 16 13) with | some w, some x => if Fmt.mmaPair w x then .ok (.mmaAcc g w x (fld wd 12 11)) else .error .unassigned | _, _ => .error .reservedFormat) := by
    unfold decodeM; rw [em, f10_10]; rfl
  rw [ha]
  simp only [need, f9_0, f20_17, f16_13, f12_11, h2, ofCode_code, if_true]

theorem RoundTrip.mzero (g : Guard) (z : Nat) : Statement (.mzero g z) := by
  intro h sl hs
  change (decide (g.pred < 12) && decide (z < 4)) = true at h
  simp only [Bool.and_eq_true, decide_eq_true_eq] at h
  obtain ⟨h0, h1⟩ := h
  obtain rfl : SlotClass.m = sl := Option.some.inj (of_decide_eq_true hs)
  have t0 : (z * 2 ^ 11 + 0) < 2 ^ 21 := lt_field (n := 4) h1 (by decide) (by decide)
  obtain ⟨wd, hw⟩ : ∃ wd, g.neg.toNat * 2 ^ 31 + g.pred * 2 ^ 27 + 9 * 2 ^ 21 + (z * 2 ^ 11 + 0) = wd := ⟨_, rfl⟩
  change decodeWord .m (g.neg.toNat * 2 ^ 31 + g.pred * 2 ^ 27 + 9 * 2 ^ 21 + (z * 2 ^ 11 + 0)) = _
  rw [hw, decodeWord_op .m g 9 _ wd h0 (by decide) t0 (by decide) hw]
  change decodeM g wd = _
  have em := fld_major g 9 _ wd (by decide) t0 hw
  have f20_13 : fld wd 20 13 = 0 := (fld_body g 9 _ wd 20 13 (by decide) (by decide) hw).trans (fld_above (lt_field (n := 4) h1 (by decide) (by decide)))
  have f10_0 : fld wd 10 0 = 0 := (fld_body g 9 _ wd 10 0 (by decide) (by decide) hw).trans ((fld_below (by decide) (by decide)).trans (by decide))
  have f12_11 : fld wd 12 11 = z := (fld_body g 9 _ wd 12 11 (by decide) (by decide) hw).trans (fld_here (n := 4) h1 (by decide) (by decide))
  have ha : decodeM g wd = need (fld wd 20 13 = 0 ∧ fld wd 10 0 = 0) (.ok (.mzero g (fld wd 12 11))) := by
    unfold decodeM; rw [em]; rfl
  rw [ha]
  simp only [need, f20_13, f10_0, f12_11, and_self, if_true]

theorem RoundTrip.mdrv (g : Guard) (d : Nat) (z : Nat) (p : Nat) : Statement (.mdrv g d z p) := by
  intro h sl hs
  change (decide (g.pred < 12) && decide (d < 32) && decide (z < 4) && decide (p < 16)) = true at h
  simp only [Bool.and_eq_true, decide_eq_true_eq] at h
  obtain ⟨⟨⟨h0, h1⟩, h2⟩, h3⟩ := h
  obtain rfl : SlotClass.m = sl := Option.some.inj (of_decide_eq_true hs)
  have t2 : (p * 2 ^ 10 + 0) < 2 ^ 14 := lt_field (n := 16) h3 (by decide) (by decide)
  have t1 : (z * 2 ^ 14 + (p * 2 ^ 10 + 0)) < 2 ^ 16 := lt_field (n := 4) h2 t2 (by decide)
  have t0 : (d * 2 ^ 16 + (z * 2 ^ 14 + (p * 2 ^ 10 + 0))) < 2 ^ 21 := lt_field (n := 32) h1 t1 (by decide)
  obtain ⟨wd, hw⟩ : ∃ wd, g.neg.toNat * 2 ^ 31 + g.pred * 2 ^ 27 + 10 * 2 ^ 21 + (d * 2 ^ 16 + (z * 2 ^ 14 + (p * 2 ^ 10 + 0))) = wd := ⟨_, rfl⟩
  change decodeWord .m (g.neg.toNat * 2 ^ 31 + g.pred * 2 ^ 27 + 10 * 2 ^ 21 + (d * 2 ^ 16 + (z * 2 ^ 14 + (p * 2 ^ 10 + 0)))) = _
  rw [hw, decodeWord_op .m g 10 _ wd h0 (by decide) t0 (by decide) hw]
  change decodeM g wd = _
  have em := fld_major g 10 _ wd (by decide) t0 hw
  have f9_0 : fld wd 9 0 = 0 := (fld_body g 10 _ wd 9 0 (by decide) (by decide) hw).trans ((fld_below (by decide) (by decide)).trans ((fld_below (by decide) (by decide)).trans ((fld_below (by decide) (by decide)).trans (by decide))))
  have f20_16 : fld wd 20 16 = d := (fld_body g 10 _ wd 20 16 (by decide) (by decide) hw).trans (fld_here (n := 32) h1 t1 (by decide))
  have f15_14 : fld wd 15 14 = z := (fld_body g 10 _ wd 15 14 (by decide) (by decide) hw).trans ((fld_below (by decide) (by decide)).trans (fld_here (n := 4) h2 t2 (by decide)))
  have f13_10 : fld wd 13 10 = p := (fld_body g 10 _ wd 13 10 (by decide) (by decide) hw).trans ((fld_below (by decide) (by decide)).trans ((fld_below (by decide) (by decide)).trans (fld_here (n := 16) h3 (by decide) (by decide))))
  have ha : decodeM g wd = need (fld wd 9 0 = 0) (.ok (.mdrv g (fld wd 20 16) (fld wd 15 14) (fld wd 13 10))) := by
    unfold decodeM; rw [em]; rfl
  rw [ha]
  simp only [need, f9_0, f20_16, f15_14, f13_10, if_true]

theorem RoundTrip.mdrs (g : Guard) (a : Nat) (z : Nat) : Statement (.mdrs g a z) := by
  intro h sl hs
  change (decide (g.pred < 12) && decide (a < 32) && decide (z < 4)) = true at h
  simp only [Bool.and_eq_true, decide_eq_true_eq] at h
  obtain ⟨⟨h0, h1⟩, h2⟩ := h
  obtain rfl : SlotClass.m = sl := Option.some.inj (of_decide_eq_true hs)
  have t1 : (z * 2 ^ 14 + 0) < 2 ^ 16 := lt_field (n := 4) h2 (by decide) (by decide)
  have t0 : (a * 2 ^ 16 + (z * 2 ^ 14 + 0)) < 2 ^ 21 := lt_field (n := 32) h1 t1 (by decide)
  obtain ⟨wd, hw⟩ : ∃ wd, g.neg.toNat * 2 ^ 31 + g.pred * 2 ^ 27 + 11 * 2 ^ 21 + (a * 2 ^ 16 + (z * 2 ^ 14 + 0)) = wd := ⟨_, rfl⟩
  change decodeWord .m (g.neg.toNat * 2 ^ 31 + g.pred * 2 ^ 27 + 11 * 2 ^ 21 + (a * 2 ^ 16 + (z * 2 ^ 14 + 0))) = _
  rw [hw, decodeWord_op .m g 11 _ wd h0 (by decide) t0 (by decide) hw]
  change decodeM g wd = _
  have em := fld_major g 11 _ wd (by decide) t0 hw
  have f13_0 : fld wd 13 0 = 0 := (fld_body g 11 _ wd 13 0 (by decide) (by decide) hw).trans ((fld_below (by decide) (by decide)).trans ((fld_below (by decide) (by decide)).trans (by decide)))
  have f20_16 : fld wd 20 16 = a := (fld_body g 11 _ wd 20 16 (by decide) (by decide) hw).trans (fld_here (n := 32) h1 t1 (by decide))
  have f15_14 : fld wd 15 14 = z := (fld_body g 11 _ wd 15 14 (by decide) (by decide) hw).trans ((fld_below (by decide) (by decide)).trans (fld_here (n := 4) h2 (by decide) (by decide)))
  have ha : decodeM g wd = need (fld wd 13 0 = 0) (.ok (.mdrs g (fld wd 20 16) (fld wd 15 14))) := by
    unfold decodeM; rw [em]; rfl
  rw [ha]
  simp only [need, f13_0, f20_16, f15_14, if_true]

theorem RoundTrip.cpy (g : Guard) (p : Nat) (a : Nat) (t : Nat) : Statement (.cpy g p a t) := by
  intro h sl hs
  change (decide (g.pred < 12) && decide (p < 16) && decide (a < 32) && decide (t < 4096)) = true at h
  simp only [Bool.and_eq_true, decide_eq_true_eq] at h
  obtain ⟨⟨⟨h0, h1⟩, h2⟩, h3⟩ := h
  obtain rfl : SlotClass.c = sl := Option.some.inj (of_decide_eq_true hs)
  have t2 : (t * 2 ^ 0 + 0) < 2 ^ 12 := lt_field (n := 4096) h3 (by decide) (by decide)
  have t1 : (a * 2 ^ 12 + (t * 2 ^ 0 + 0)) < 2 ^ 17 := lt_field (n := 32) h2 t2 (by decide)
  have t0 : (p * 2 ^ 17 + (a * 2 ^ 12 + (t * 2 ^ 0 + 0))) < 2 ^ 21 := lt_field (n := 16) h1 t1 (by decide)
  obtain ⟨wd, hw⟩ : ∃ wd, g.neg.toNat * 2 ^ 31 + g.pred * 2 ^ 27 + 1 * 2 ^ 21 + (p * 2 ^ 17 + (a * 2 ^ 12 + (t * 2 ^ 0 + 0))) = wd := ⟨_, rfl⟩
  change decodeWord .c (g.neg.toNat * 2 ^ 31 + g.pred * 2 ^ 27 + 1 * 2 ^ 21 + (p * 2 ^ 17 + (a * 2 ^ 12 + (t * 2 ^ 0 + 0)))) = _
  rw [hw, decodeWord_op .c g 1 _ wd h0 (by decide) t0 (by decide) hw]
  change decodeC g wd = _
  have em := fld_major g 1 _ wd (by decide) t0 hw
  have f20_17 : fld wd 20 17 = p := (fld_body g 1 _ wd 20 17 (by decide) (by decide) hw).trans (fld_here (n := 16) h1 t1 (by decide))
  have f16_12 : fld wd 16 12 = a := (fld_body g 1 _ wd 16 12 (by decide) (by decide) hw).trans ((fld_below (by decide) (by decide)).trans (fld_here (n := 32) h2 t2 (by decide)))
  have f11_0 : fld wd 11 0 = t := (fld_body g 1 _ wd 11 0 (by decide) (by decide) hw).trans ((fld_below (by decide) (by decide)).trans ((fld_below (by decide) (by decide)).trans (fld_here (n := 4096) h3 (by decide) (by decide))))
  have ha : decodeC g wd = .ok (.cpy g (fld wd 20 17) (fld wd 16 12) (fld wd 11 0)) := by
    unfold decodeC; rw [em]; rfl
  rw [ha]
  rw [f20_17, f16_12, f11_0]

theorem RoundTrip.cpyt (g : Guard) (p : Nat) (a : Nat) (v : Nat) (m : Nat) (x : Bool) (y : Bool) : Statement (.cpyt g p a v m x y) := by
  intro h sl hs
  change (decide (g.pred < 12) && decide (p < 16) && decide (a < 32) && decide (v < 32) && decide (m < 32)) = true at h
  simp only [Bool.and_eq_true, decide_eq_true_eq] at h
  obtain ⟨⟨⟨⟨h0, h1⟩, h2⟩, h3⟩, h4⟩ := h
  obtain rfl : SlotClass.c = sl := Option.some.inj (of_decide_eq_true hs)
  have t5 : (y.toNat * 2 ^ 0 + 0) < 2 ^ 1 := lt_field (n := 2) (toNat_lt_two y) (by decide) (by decide)
  have t4 : (x.toNat * 2 ^ 1 + (y.toNat * 2 ^ 0 + 0)) < 2 ^ 2 := lt_field (n := 2) (toNat_lt_two x) t5 (by decide)
  have t3 : (m * 2 ^ 2 + (x.toNat * 2 ^ 1 + (y.toNat * 2 ^ 0 + 0))) < 2 ^ 7 := lt_field (n := 32) h4 t4 (by decide)
  have t2 : (v * 2 ^ 7 + (m * 2 ^ 2 + (x.toNat * 2 ^ 1 + (y.toNat * 2 ^ 0 + 0)))) < 2 ^ 12 := lt_field (n := 32) h3 t3 (by decide)
  have t1 : (a * 2 ^ 12 + (v * 2 ^ 7 + (m * 2 ^ 2 + (x.toNat * 2 ^ 1 + (y.toNat * 2 ^ 0 + 0))))) < 2 ^ 17 := lt_field (n := 32) h2 t2 (by decide)
  have t0 : (p * 2 ^ 17 + (a * 2 ^ 12 + (v * 2 ^ 7 + (m * 2 ^ 2 + (x.toNat * 2 ^ 1 + (y.toNat * 2 ^ 0 + 0)))))) < 2 ^ 21 := lt_field (n := 16) h1 t1 (by decide)
  obtain ⟨wd, hw⟩ : ∃ wd, g.neg.toNat * 2 ^ 31 + g.pred * 2 ^ 27 + 2 * 2 ^ 21 + (p * 2 ^ 17 + (a * 2 ^ 12 + (v * 2 ^ 7 + (m * 2 ^ 2 + (x.toNat * 2 ^ 1 + (y.toNat * 2 ^ 0 + 0)))))) = wd := ⟨_, rfl⟩
  change decodeWord .c (g.neg.toNat * 2 ^ 31 + g.pred * 2 ^ 27 + 2 * 2 ^ 21 + (p * 2 ^ 17 + (a * 2 ^ 12 + (v * 2 ^ 7 + (m * 2 ^ 2 + (x.toNat * 2 ^ 1 + (y.toNat * 2 ^ 0 + 0))))))) = _
  rw [hw, decodeWord_op .c g 2 _ wd h0 (by decide) t0 (by decide) hw]
  change decodeC g wd = _
  have em := fld_major g 2 _ wd (by decide) t0 hw
  have f20_17 : fld wd 20 17 = p := (fld_body g 2 _ wd 20 17 (by decide) (by decide) hw).trans (fld_here (n := 16) h1 t1 (by decide))
  have f16_12 : fld wd 16 12 = a := (fld_body g 2 _ wd 16 12 (by decide) (by decide) hw).trans ((fld_below (by decide) (by decide)).trans (fld_here (n := 32) h2 t2 (by decide)))
  have f11_7 : fld wd 11 7 = v := (fld_body g 2 _ wd 11 7 (by decide) (by decide) hw).trans ((fld_below (by decide) (by decide)).trans ((fld_below (by decide) (by decide)).trans (fld_here (n := 32) h3 t3 (by decide))))
  have f6_2 : fld wd 6 2 = m := (fld_body g 2 _ wd 6 2 (by decide) (by decide) hw).trans ((fld_below (by decide) (by decide)).trans ((fld_below (by decide) (by decide)).trans ((fld_below (by decide) (by decide)).trans (fld_here (n := 32) h4 t4 (by decide)))))
  have f1_1 : fld wd 1 1 = x.toNat := (fld_body g 2 _ wd 1 1 (by decide) (by decide) hw).trans ((fld_below (by decide) (by decide)).trans ((fld_below (by decide) (by decide)).trans ((fld_below (by decide) (by decide)).trans ((fld_below (by decide) (by decide)).trans (fld_here (n := 2) (toNat_lt_two x) t5 (by decide))))))
  have f0_0 : fld wd 0 0 = y.toNat := (fld_body g 2 _ wd 0 0 (by decide) (by decide) hw).trans ((fld_below (by decide) (by decide)).trans ((fld_below (by decide) (by decide)).trans ((fld_below (by decide) (by decide)).trans ((fld_below (by decide) (by decide)).trans ((fld_below (by decide) (by decide)).trans (fld_here (n := 2) (toNat_lt_two y) (by decide) (by decide)))))))
  have ha : decodeC g wd = .ok (.cpyt g (fld wd 20 17) (fld wd 16 12) (fld wd 11 7) (fld wd 6 2) (fld wd 1 1 == 1) (fld wd 0 0 == 1)) := by
    unfold decodeC; rw [em]; rfl
  rw [ha]
  rw [f20_17, f16_12, f11_7, f6_2, f1_1, f0_0, toNat_beq_one, toNat_beq_one]

theorem RoundTrip.cpl (g : Guard) (p : Nat) (a : Nat) (t : Nat) : Statement (.cpl g p a t) := by
  intro h sl hs
  change (decide (g.pred < 12) && decide (p < 16) && decide (a < 32) && decide (t < 4096)) = true at h
  simp only [Bool.and_eq_true, decide_eq_true_eq] at h
  obtain ⟨⟨⟨h0, h1⟩, h2⟩, h3⟩ := h
  obtain rfl : SlotClass.c = sl := Option.some.inj (of_decide_eq_true hs)
  have t2 : (t * 2 ^ 0 + 0) < 2 ^ 12 := lt_field (n := 4096) h3 (by decide) (by decide)
  have t1 : (a * 2 ^ 12 + (t * 2 ^ 0 + 0)) < 2 ^ 17 := lt_field (n := 32) h2 t2 (by decide)
  have t0 : (p * 2 ^ 17 + (a * 2 ^ 12 + (t * 2 ^ 0 + 0))) < 2 ^ 21 := lt_field (n := 16) h1 t1 (by decide)
  obtain ⟨wd, hw⟩ : ∃ wd, g.neg.toNat * 2 ^ 31 + g.pred * 2 ^ 27 + 3 * 2 ^ 21 + (p * 2 ^ 17 + (a * 2 ^ 12 + (t * 2 ^ 0 + 0))) = wd := ⟨_, rfl⟩
  change decodeWord .c (g.neg.toNat * 2 ^ 31 + g.pred * 2 ^ 27 + 3 * 2 ^ 21 + (p * 2 ^ 17 + (a * 2 ^ 12 + (t * 2 ^ 0 + 0)))) = _
  rw [hw, decodeWord_op .c g 3 _ wd h0 (by decide) t0 (by decide) hw]
  change decodeC g wd = _
  have em := fld_major g 3 _ wd (by decide) t0 hw
  have f20_17 : fld wd 20 17 = p := (fld_body g 3 _ wd 20 17 (by decide) (by decide) hw).trans (fld_here (n := 16) h1 t1 (by decide))
  have f16_12 : fld wd 16 12 = a := (fld_body g 3 _ wd 16 12 (by decide) (by decide) hw).trans ((fld_below (by decide) (by decide)).trans (fld_here (n := 32) h2 t2 (by decide)))
  have f11_0 : fld wd 11 0 = t := (fld_body g 3 _ wd 11 0 (by decide) (by decide) hw).trans ((fld_below (by decide) (by decide)).trans ((fld_below (by decide) (by decide)).trans (fld_here (n := 4096) h3 (by decide) (by decide))))
  have ha : decodeC g wd = .ok (.cpl g (fld wd 20 17) (fld wd 16 12) (fld wd 11 0)) := by
    unfold decodeC; rw [em]; rfl
  rw [ha]
  rw [f20_17, f16_12, f11_0]

theorem RoundTrip.cprog (g : Guard) (p : Nat) (a : Nat) (f : Nat) : Statement (.cprog g p a f) := by
  intro h sl hs
  change (decide (g.pred < 12) && decide (p < 16) && decide (a < 32) && decide (f < 64) && copyField f) = true at h
  simp only [Bool.and_eq_true, decide_eq_true_eq] at h
  obtain ⟨⟨⟨⟨h0, h1⟩, h2⟩, h3⟩, h4⟩ := h
  obtain rfl : SlotClass.c = sl := Option.some.inj (of_decide_eq_true hs)
  have t2 : (f * 2 ^ 6 + 0) < 2 ^ 12 := lt_field (n := 64) h3 (by decide) (by decide)
  have t1 : (a * 2 ^ 12 + (f * 2 ^ 6 + 0)) < 2 ^ 17 := lt_field (n := 32) h2 t2 (by decide)
  have t0 : (p * 2 ^ 17 + (a * 2 ^ 12 + (f * 2 ^ 6 + 0))) < 2 ^ 21 := lt_field (n := 16) h1 t1 (by decide)
  obtain ⟨wd, hw⟩ : ∃ wd, g.neg.toNat * 2 ^ 31 + g.pred * 2 ^ 27 + 4 * 2 ^ 21 + (p * 2 ^ 17 + (a * 2 ^ 12 + (f * 2 ^ 6 + 0))) = wd := ⟨_, rfl⟩
  change decodeWord .c (g.neg.toNat * 2 ^ 31 + g.pred * 2 ^ 27 + 4 * 2 ^ 21 + (p * 2 ^ 17 + (a * 2 ^ 12 + (f * 2 ^ 6 + 0)))) = _
  rw [hw, decodeWord_op .c g 4 _ wd h0 (by decide) t0 (by decide) hw]
  change decodeC g wd = _
  have em := fld_major g 4 _ wd (by decide) t0 hw
  have f5_0 : fld wd 5 0 = 0 := (fld_body g 4 _ wd 5 0 (by decide) (by decide) hw).trans ((fld_below (by decide) (by decide)).trans ((fld_below (by decide) (by decide)).trans ((fld_below (by decide) (by decide)).trans (by decide))))
  have f11_6 : fld wd 11 6 = f := (fld_body g 4 _ wd 11 6 (by decide) (by decide) hw).trans ((fld_below (by decide) (by decide)).trans ((fld_below (by decide) (by decide)).trans (fld_here (n := 64) h3 (by decide) (by decide))))
  have f20_17 : fld wd 20 17 = p := (fld_body g 4 _ wd 20 17 (by decide) (by decide) hw).trans (fld_here (n := 16) h1 t1 (by decide))
  have f16_12 : fld wd 16 12 = a := (fld_body g 4 _ wd 16 12 (by decide) (by decide) hw).trans ((fld_below (by decide) (by decide)).trans (fld_here (n := 32) h2 t2 (by decide)))
  have ha : decodeC g wd = need (fld wd 5 0 = 0 ∧ copyField (fld wd 11 6)) (.ok (.cprog g (fld wd 20 17) (fld wd 16 12) (fld wd 11 6))) := by
    unfold decodeC; rw [em]; rfl
  rw [ha]
  simp only [need, f5_0, f11_6, f20_17, f16_12, h4, and_self, if_true]

theorem RoundTrip.cprogi (g : Guard) (p : Nat) (f : Nat) (i : Nat) : Statement (.cprogi g p f i) := by
  intro h sl hs
  change (decide (g.pred < 12) && decide (p < 16) && decide (f < 64) && copyField f && decide (i < 2048)) = true at h
  simp only [Bool.and_eq_true, decide_eq_true_eq] at h
  obtain ⟨⟨⟨⟨h0, h1⟩, h2⟩, h3⟩, h4⟩ := h
  obtain rfl : SlotClass.c = sl := Option.some.inj (of_decide_eq_true hs)
  have t2 : (i * 2 ^ 0 + 0) < 2 ^ 11 := lt_field (n := 2048) h4 (by decide) (by decide)
  have t1 : (f * 2 ^ 11 + (i * 2 ^ 0 + 0)) < 2 ^ 17 := lt_field (n := 64) h2 t2 (by decide)
  have t0 : (p * 2 ^ 17 + (f * 2 ^ 11 + (i * 2 ^ 0 + 0))) < 2 ^ 21 := lt_field (n := 16) h1 t1 (by decide)
  obtain ⟨wd, hw⟩ : ∃ wd, g.neg.toNat * 2 ^ 31 + g.pred * 2 ^ 27 + 5 * 2 ^ 21 + (p * 2 ^ 17 + (f * 2 ^ 11 + (i * 2 ^ 0 + 0))) = wd := ⟨_, rfl⟩
  change decodeWord .c (g.neg.toNat * 2 ^ 31 + g.pred * 2 ^ 27 + 5 * 2 ^ 21 + (p * 2 ^ 17 + (f * 2 ^ 11 + (i * 2 ^ 0 + 0)))) = _
  rw [hw, decodeWord_op .c g 5 _ wd h0 (by decide) t0 (by decide) hw]
  change decodeC g wd = _
  have em := fld_major g 5 _ wd (by decide) t0 hw
  have f16_11 : fld wd 16 11 = f := (fld_body g 5 _ wd 16 11 (by decide) (by decide) hw).trans ((fld_below (by decide) (by decide)).trans (fld_here (n := 64) h2 t2 (by decide)))
  have f20_17 : fld wd 20 17 = p := (fld_body g 5 _ wd 20 17 (by decide) (by decide) hw).trans (fld_here (n := 16) h1 t1 (by decide))
  have f10_0 : fld wd 10 0 = i := (fld_body g 5 _ wd 10 0 (by decide) (by decide) hw).trans ((fld_below (by decide) (by decide)).trans ((fld_below (by decide) (by decide)).trans (fld_here (n := 2048) h4 (by decide) (by decide))))
  have ha : decodeC g wd = need (copyField (fld wd 16 11)) (.ok (.cprogi g (fld wd 20 17) (fld wd 16 11) (fld wd 10 0))) := by
    unfold decodeC; rw [em]; rfl
  rw [ha]
  simp only [need, f16_11, f20_17, f10_0, h3, if_true]

theorem RoundTrip.send (g : Guard) (p : Nat) (a : Nat) (t : Nat) : Statement (.send g p a t) := by
  intro h sl hs
  change (decide (g.pred < 12) && decide (p < 16) && decide (a < 32) && decide (t < 4096)) = true at h
  simp only [Bool.and_eq_true, decide_eq_true_eq] at h
  obtain ⟨⟨⟨h0, h1⟩, h2⟩, h3⟩ := h
  obtain rfl : SlotClass.c = sl := Option.some.inj (of_decide_eq_true hs)
  have t2 : (t * 2 ^ 0 + 0) < 2 ^ 12 := lt_field (n := 4096) h3 (by decide) (by decide)
  have t1 : (a * 2 ^ 12 + (t * 2 ^ 0 + 0)) < 2 ^ 17 := lt_field (n := 32) h2 t2 (by decide)
  have t0 : (p * 2 ^ 17 + (a * 2 ^ 12 + (t * 2 ^ 0 + 0))) < 2 ^ 21 := lt_field (n := 16) h1 t1 (by decide)
  obtain ⟨wd, hw⟩ : ∃ wd, g.neg.toNat * 2 ^ 31 + g.pred * 2 ^ 27 + 6 * 2 ^ 21 + (p * 2 ^ 17 + (a * 2 ^ 12 + (t * 2 ^ 0 + 0))) = wd := ⟨_, rfl⟩
  change decodeWord .c (g.neg.toNat * 2 ^ 31 + g.pred * 2 ^ 27 + 6 * 2 ^ 21 + (p * 2 ^ 17 + (a * 2 ^ 12 + (t * 2 ^ 0 + 0)))) = _
  rw [hw, decodeWord_op .c g 6 _ wd h0 (by decide) t0 (by decide) hw]
  change decodeC g wd = _
  have em := fld_major g 6 _ wd (by decide) t0 hw
  have f20_17 : fld wd 20 17 = p := (fld_body g 6 _ wd 20 17 (by decide) (by decide) hw).trans (fld_here (n := 16) h1 t1 (by decide))
  have f16_12 : fld wd 16 12 = a := (fld_body g 6 _ wd 16 12 (by decide) (by decide) hw).trans ((fld_below (by decide) (by decide)).trans (fld_here (n := 32) h2 t2 (by decide)))
  have f11_0 : fld wd 11 0 = t := (fld_body g 6 _ wd 11 0 (by decide) (by decide) hw).trans ((fld_below (by decide) (by decide)).trans ((fld_below (by decide) (by decide)).trans (fld_here (n := 4096) h3 (by decide) (by decide))))
  have ha : decodeC g wd = .ok (.send g (fld wd 20 17) (fld wd 16 12) (fld wd 11 0)) := by
    unfold decodeC; rw [em]; rfl
  rw [ha]
  rw [f20_17, f16_12, f11_0]

theorem RoundTrip.recv (g : Guard) (p : Nat) (a : Nat) (t : Nat) : Statement (.recv g p a t) := by
  intro h sl hs
  change (decide (g.pred < 12) && decide (p < 16) && decide (a < 32) && decide (t < 4096)) = true at h
  simp only [Bool.and_eq_true, decide_eq_true_eq] at h
  obtain ⟨⟨⟨h0, h1⟩, h2⟩, h3⟩ := h
  obtain rfl : SlotClass.c = sl := Option.some.inj (of_decide_eq_true hs)
  have t2 : (t * 2 ^ 0 + 0) < 2 ^ 12 := lt_field (n := 4096) h3 (by decide) (by decide)
  have t1 : (a * 2 ^ 12 + (t * 2 ^ 0 + 0)) < 2 ^ 17 := lt_field (n := 32) h2 t2 (by decide)
  have t0 : (p * 2 ^ 17 + (a * 2 ^ 12 + (t * 2 ^ 0 + 0))) < 2 ^ 21 := lt_field (n := 16) h1 t1 (by decide)
  obtain ⟨wd, hw⟩ : ∃ wd, g.neg.toNat * 2 ^ 31 + g.pred * 2 ^ 27 + 7 * 2 ^ 21 + (p * 2 ^ 17 + (a * 2 ^ 12 + (t * 2 ^ 0 + 0))) = wd := ⟨_, rfl⟩
  change decodeWord .c (g.neg.toNat * 2 ^ 31 + g.pred * 2 ^ 27 + 7 * 2 ^ 21 + (p * 2 ^ 17 + (a * 2 ^ 12 + (t * 2 ^ 0 + 0)))) = _
  rw [hw, decodeWord_op .c g 7 _ wd h0 (by decide) t0 (by decide) hw]
  change decodeC g wd = _
  have em := fld_major g 7 _ wd (by decide) t0 hw
  have f20_17 : fld wd 20 17 = p := (fld_body g 7 _ wd 20 17 (by decide) (by decide) hw).trans (fld_here (n := 16) h1 t1 (by decide))
  have f16_12 : fld wd 16 12 = a := (fld_body g 7 _ wd 16 12 (by decide) (by decide) hw).trans ((fld_below (by decide) (by decide)).trans (fld_here (n := 32) h2 t2 (by decide)))
  have f11_0 : fld wd 11 0 = t := (fld_body g 7 _ wd 11 0 (by decide) (by decide) hw).trans ((fld_below (by decide) (by decide)).trans ((fld_below (by decide) (by decide)).trans (fld_here (n := 4096) h3 (by decide) (by decide))))
  have ha : decodeC g wd = .ok (.recv g (fld wd 20 17) (fld wd 16 12) (fld wd 11 0)) := by
    unfold decodeC; rw [em]; rfl
  rw [ha]
  rw [f20_17, f16_12, f11_0]

theorem RoundTrip.xmark (g : Guard) : Statement (.xmark g) := by
  intro h sl hs
  change (decide (g.pred < 12)) = true at h
  simp only [decide_eq_true_eq] at h
  have h0 := h
  obtain rfl : SlotClass.c = sl := Option.some.inj (of_decide_eq_true hs)
  have t0 : 0 < 2 ^ 21 := by decide
  obtain ⟨wd, hw⟩ : ∃ wd, g.neg.toNat * 2 ^ 31 + g.pred * 2 ^ 27 + 8 * 2 ^ 21 + 0 = wd := ⟨_, rfl⟩
  change decodeWord .c (g.neg.toNat * 2 ^ 31 + g.pred * 2 ^ 27 + 8 * 2 ^ 21 + 0) = _
  rw [hw, decodeWord_op .c g 8 _ wd h0 (by decide) t0 (by decide) hw]
  change decodeC g wd = _
  have em := fld_major g 8 _ wd (by decide) t0 hw
  have f20_0 : fld wd 20 0 = 0 := (fld_body g 8 _ wd 20 0 (by decide) (by decide) hw).trans (by decide)
  have ha : decodeC g wd = need (fld wd 20 0 = 0) (.ok (.xmark g)) := by
    unfold decodeC; rw [em]; rfl
  rw [ha]
  simp only [need, f20_0, if_true]

theorem RoundTrip.tbump (g : Guard) (t : Nat) : Statement (.tbump g t) := by
  intro h sl hs
  change (decide (g.pred < 12) && decide (t < 64)) = true at h
  simp only [Bool.and_eq_true, decide_eq_true_eq] at h
  obtain ⟨h0, h1⟩ := h
  obtain rfl : SlotClass.c = sl := Option.some.inj (of_decide_eq_true hs)
  have t0 : (t * 2 ^ 15 + 0) < 2 ^ 21 := lt_field (n := 64) h1 (by decide) (by decide)
  obtain ⟨wd, hw⟩ : ∃ wd, g.neg.toNat * 2 ^ 31 + g.pred * 2 ^ 27 + 16 * 2 ^ 21 + (t * 2 ^ 15 + 0) = wd := ⟨_, rfl⟩
  change decodeWord .c (g.neg.toNat * 2 ^ 31 + g.pred * 2 ^ 27 + 16 * 2 ^ 21 + (t * 2 ^ 15 + 0)) = _
  rw [hw, decodeWord_op .c g 16 _ wd h0 (by decide) t0 (by decide) hw]
  change decodeC g wd = _
  have em := fld_major g 16 _ wd (by decide) t0 hw
  have f14_0 : fld wd 14 0 = 0 := (fld_body g 16 _ wd 14 0 (by decide) (by decide) hw).trans ((fld_below (by decide) (by decide)).trans (by decide))
  have f20_15 : fld wd 20 15 = t := (fld_body g 16 _ wd 20 15 (by decide) (by decide) hw).trans (fld_here (n := 64) h1 (by decide) (by decide))
  have ha : decodeC g wd = need (fld wd 14 0 = 0) (.ok (.tbump g (fld wd 20 15))) := by
    unfold decodeC; rw [em]; rfl
  rw [ha]
  simp only [need, f14_0, f20_15, if_true]

theorem RoundTrip.tcommit (g : Guard) (t : Nat) : Statement (.tcommit g t) := by
  intro h sl hs
  change (decide (g.pred < 12) && decide (t < 64)) = true at h
  simp only [Bool.and_eq_true, decide_eq_true_eq] at h
  obtain ⟨h0, h1⟩ := h
  obtain rfl : SlotClass.c = sl := Option.some.inj (of_decide_eq_true hs)
  have t0 : (t * 2 ^ 15 + 0) < 2 ^ 21 := lt_field (n := 64) h1 (by decide) (by decide)
  obtain ⟨wd, hw⟩ : ∃ wd, g.neg.toNat * 2 ^ 31 + g.pred * 2 ^ 27 + 17 * 2 ^ 21 + (t * 2 ^ 15 + 0) = wd := ⟨_, rfl⟩
  change decodeWord .c (g.neg.toNat * 2 ^ 31 + g.pred * 2 ^ 27 + 17 * 2 ^ 21 + (t * 2 ^ 15 + 0)) = _
  rw [hw, decodeWord_op .c g 17 _ wd h0 (by decide) t0 (by decide) hw]
  change decodeC g wd = _
  have em := fld_major g 17 _ wd (by decide) t0 hw
  have f14_0 : fld wd 14 0 = 0 := (fld_body g 17 _ wd 14 0 (by decide) (by decide) hw).trans ((fld_below (by decide) (by decide)).trans (by decide))
  have f20_15 : fld wd 20 15 = t := (fld_body g 17 _ wd 20 15 (by decide) (by decide) hw).trans (fld_here (n := 64) h1 (by decide) (by decide))
  have ha : decodeC g wd = need (fld wd 14 0 = 0) (.ok (.tcommit g (fld wd 20 15))) := by
    unfold decodeC; rw [em]; rfl
  rw [ha]
  simp only [need, f14_0, f20_15, if_true]

theorem RoundTrip.tdig (g : Guard) (t : Nat) : Statement (.tdig g t) := by
  intro h sl hs
  change (decide (g.pred < 12) && decide (t < 64)) = true at h
  simp only [Bool.and_eq_true, decide_eq_true_eq] at h
  obtain ⟨h0, h1⟩ := h
  obtain rfl : SlotClass.c = sl := Option.some.inj (of_decide_eq_true hs)
  have t0 : (t * 2 ^ 15 + 0) < 2 ^ 21 := lt_field (n := 64) h1 (by decide) (by decide)
  obtain ⟨wd, hw⟩ : ∃ wd, g.neg.toNat * 2 ^ 31 + g.pred * 2 ^ 27 + 18 * 2 ^ 21 + (t * 2 ^ 15 + 0) = wd := ⟨_, rfl⟩
  change decodeWord .c (g.neg.toNat * 2 ^ 31 + g.pred * 2 ^ 27 + 18 * 2 ^ 21 + (t * 2 ^ 15 + 0)) = _
  rw [hw, decodeWord_op .c g 18 _ wd h0 (by decide) t0 (by decide) hw]
  change decodeC g wd = _
  have em := fld_major g 18 _ wd (by decide) t0 hw
  have f14_0 : fld wd 14 0 = 0 := (fld_body g 18 _ wd 14 0 (by decide) (by decide) hw).trans ((fld_below (by decide) (by decide)).trans (by decide))
  have f20_15 : fld wd 20 15 = t := (fld_body g 18 _ wd 20 15 (by decide) (by decide) hw).trans (fld_here (n := 64) h1 (by decide) (by decide))
  have ha : decodeC g wd = need (fld wd 14 0 = 0) (.ok (.tdig g (fld wd 20 15))) := by
    unfold decodeC; rw [em]; rfl
  rw [ha]
  simp only [need, f14_0, f20_15, if_true]

theorem RoundTrip.krot (g : Guard) : Statement (.krot g) := by
  intro h sl hs
  change (decide (g.pred < 12)) = true at h
  simp only [decide_eq_true_eq] at h
  have h0 := h
  obtain rfl : SlotClass.c = sl := Option.some.inj (of_decide_eq_true hs)
  have t0 : 0 < 2 ^ 21 := by decide
  obtain ⟨wd, hw⟩ : ∃ wd, g.neg.toNat * 2 ^ 31 + g.pred * 2 ^ 27 + 19 * 2 ^ 21 + 0 = wd := ⟨_, rfl⟩
  change decodeWord .c (g.neg.toNat * 2 ^ 31 + g.pred * 2 ^ 27 + 19 * 2 ^ 21 + 0) = _
  rw [hw, decodeWord_op .c g 19 _ wd h0 (by decide) t0 (by decide) hw]
  change decodeC g wd = _
  have em := fld_major g 19 _ wd (by decide) t0 hw
  have f20_0 : fld wd 20 0 = 0 := (fld_body g 19 _ wd 20 0 (by decide) (by decide) hw).trans (by decide)
  have ha : decodeC g wd = need (fld wd 20 0 = 0) (.ok (.krot g)) := by
    unfold decodeC; rw [em]; rfl
  rw [ha]
  simp only [need, f20_0, if_true]

theorem RoundTrip.sealCopy (g : Guard) (a : Nat) : Statement (.sealCopy g a) := by
  intro h sl hs
  change (decide (g.pred < 12) && decide (a < 32)) = true at h
  simp only [Bool.and_eq_true, decide_eq_true_eq] at h
  obtain ⟨h0, h1⟩ := h
  obtain rfl : SlotClass.c = sl := Option.some.inj (of_decide_eq_true hs)
  have t0 : (a * 2 ^ 11 + 0) < 2 ^ 21 := lt_field (n := 32) h1 (by decide) (by decide)
  obtain ⟨wd, hw⟩ : ∃ wd, g.neg.toNat * 2 ^ 31 + g.pred * 2 ^ 27 + 20 * 2 ^ 21 + (a * 2 ^ 11 + 0) = wd := ⟨_, rfl⟩
  change decodeWord .c (g.neg.toNat * 2 ^ 31 + g.pred * 2 ^ 27 + 20 * 2 ^ 21 + (a * 2 ^ 11 + 0)) = _
  rw [hw, decodeWord_op .c g 20 _ wd h0 (by decide) t0 (by decide) hw]
  change decodeC g wd = _
  have em := fld_major g 20 _ wd (by decide) t0 hw
  have f20_16 : fld wd 20 16 = 0 := (fld_body g 20 _ wd 20 16 (by decide) (by decide) hw).trans (fld_above (lt_field (n := 32) h1 (by decide) (by decide)))
  have f10_0 : fld wd 10 0 = 0 := (fld_body g 20 _ wd 10 0 (by decide) (by decide) hw).trans ((fld_below (by decide) (by decide)).trans (by decide))
  have f15_11 : fld wd 15 11 = a := (fld_body g 20 _ wd 15 11 (by decide) (by decide) hw).trans (fld_here (n := 32) h1 (by decide) (by decide))
  have ha : decodeC g wd = need (fld wd 20 16 = 0 ∧ fld wd 10 0 = 0) (.ok (.sealCopy g (fld wd 15 11))) := by
    unfold decodeC; rw [em]; rfl
  rw [ha]
  simp only [need, f20_16, f10_0, f15_11, and_self, if_true]

theorem RoundTrip.unsealCopy (g : Guard) (a : Nat) : Statement (.unsealCopy g a) := by
  intro h sl hs
  change (decide (g.pred < 12) && decide (a < 32)) = true at h
  simp only [Bool.and_eq_true, decide_eq_true_eq] at h
  obtain ⟨h0, h1⟩ := h
  obtain rfl : SlotClass.c = sl := Option.some.inj (of_decide_eq_true hs)
  have t0 : (a * 2 ^ 11 + 0) < 2 ^ 21 := lt_field (n := 32) h1 (by decide) (by decide)
  obtain ⟨wd, hw⟩ : ∃ wd, g.neg.toNat * 2 ^ 31 + g.pred * 2 ^ 27 + 21 * 2 ^ 21 + (a * 2 ^ 11 + 0) = wd := ⟨_, rfl⟩
  change decodeWord .c (g.neg.toNat * 2 ^ 31 + g.pred * 2 ^ 27 + 21 * 2 ^ 21 + (a * 2 ^ 11 + 0)) = _
  rw [hw, decodeWord_op .c g 21 _ wd h0 (by decide) t0 (by decide) hw]
  change decodeC g wd = _
  have em := fld_major g 21 _ wd (by decide) t0 hw
  have f20_16 : fld wd 20 16 = 0 := (fld_body g 21 _ wd 20 16 (by decide) (by decide) hw).trans (fld_above (lt_field (n := 32) h1 (by decide) (by decide)))
  have f10_0 : fld wd 10 0 = 0 := (fld_body g 21 _ wd 10 0 (by decide) (by decide) hw).trans ((fld_below (by decide) (by decide)).trans (by decide))
  have f15_11 : fld wd 15 11 = a := (fld_body g 21 _ wd 15 11 (by decide) (by decide) hw).trans (fld_here (n := 32) h1 (by decide) (by decide))
  have ha : decodeC g wd = need (fld wd 20 16 = 0 ∧ fld wd 10 0 = 0) (.ok (.unsealCopy g (fld wd 15 11))) := by
    unfold decodeC; rw [em]; rfl
  rw [ha]
  simp only [need, f20_16, f10_0, f15_11, and_self, if_true]

theorem RoundTrip.scrubCopy (g : Guard) (a : Nat) : Statement (.scrubCopy g a) := by
  intro h sl hs
  change (decide (g.pred < 12) && decide (a < 32)) = true at h
  simp only [Bool.and_eq_true, decide_eq_true_eq] at h
  obtain ⟨h0, h1⟩ := h
  obtain rfl : SlotClass.c = sl := Option.some.inj (of_decide_eq_true hs)
  have t0 : (a * 2 ^ 11 + 0) < 2 ^ 21 := lt_field (n := 32) h1 (by decide) (by decide)
  obtain ⟨wd, hw⟩ : ∃ wd, g.neg.toNat * 2 ^ 31 + g.pred * 2 ^ 27 + 22 * 2 ^ 21 + (a * 2 ^ 11 + 0) = wd := ⟨_, rfl⟩
  change decodeWord .c (g.neg.toNat * 2 ^ 31 + g.pred * 2 ^ 27 + 22 * 2 ^ 21 + (a * 2 ^ 11 + 0)) = _
  rw [hw, decodeWord_op .c g 22 _ wd h0 (by decide) t0 (by decide) hw]
  change decodeC g wd = _
  have em := fld_major g 22 _ wd (by decide) t0 hw
  have f20_16 : fld wd 20 16 = 0 := (fld_body g 22 _ wd 20 16 (by decide) (by decide) hw).trans (fld_above (lt_field (n := 32) h1 (by decide) (by decide)))
  have f10_0 : fld wd 10 0 = 0 := (fld_body g 22 _ wd 10 0 (by decide) (by decide) hw).trans ((fld_below (by decide) (by decide)).trans (by decide))
  have f15_11 : fld wd 15 11 = a := (fld_body g 22 _ wd 15 11 (by decide) (by decide) hw).trans (fld_here (n := 32) h1 (by decide) (by decide))
  have ha : decodeC g wd = need (fld wd 20 16 = 0 ∧ fld wd 10 0 = 0) (.ok (.scrubCopy g (fld wd 15 11))) := by
    unfold decodeC; rw [em]; rfl
  rw [ha]
  simp only [need, f20_16, f10_0, f15_11, and_self, if_true]

theorem RoundTrip.bundleIssue (c : Nat) : Statement (.bundleIssue c) := fun _ _ h => by cases h

theorem RoundTrip.resultLand (c : Nat) : Statement (.resultLand c) := fun _ _ h => by cases h

theorem RoundTrip.waitEnd (c : Nat) : Statement (.waitEnd c) := fun _ _ h => by cases h

theorem RoundTrip.nxtDelivery (c : Nat) : Statement (.nxtDelivery c) := fun _ _ h => by cases h

theorem RoundTrip.bankAccessPerform (c : Nat) : Statement (.bankAccessPerform c) := fun _ _ h => by cases h

theorem RoundTrip.holdRequest (p : Nat) (cause : Nat) : Statement (.holdRequest p cause) := fun _ _ h => by cases h

theorem RoundTrip.holdTakesEffect (p : Nat) : Statement (.holdTakesEffect p) := fun _ _ h => by cases h

theorem RoundTrip.holdResume (p : Nat) : Statement (.holdResume p) := fun _ _ h => by cases h

theorem RoundTrip.stationmasterResume (p : Nat) (asid : Nat) : Statement (.stationmasterResume p asid) := fun _ _ h => by cases h

theorem RoundTrip.governorWindow (watts : List Nat) (g : GovernorSet) : Statement (.governorWindow watts g) := fun _ _ h => by cases h

theorem RoundTrip.rateChangeEffect (p : Nat) : Statement (.rateChangeEffect p) := fun _ _ h => by cases h

theorem RoundTrip.thermalTrip (die : Nat) : Statement (.thermalTrip die) := fun _ _ h => by cases h

theorem RoundTrip.powerUp (fails : List BootTry) : Statement (.powerUp fails) := fun _ _ h => by cases h

theorem RoundTrip.servoSourceSeen (valid : List Nat) : Statement (.servoSourceSeen valid) := fun _ _ h => by cases h

theorem RoundTrip.servoMeasurement (off : Int) : Statement (.servoMeasurement off) := fun _ _ h => by cases h

theorem RoundTrip.servoSourceLost : Statement .servoSourceLost := fun _ _ h => by cases h

theorem RoundTrip.servoSourceSelect (order : List Nat) : Statement (.servoSourceSelect order) := fun _ _ h => by cases h

theorem RoundTrip.launchStart (p : Nat) (l : Nat) : Statement (.launchStart p l) := fun _ _ h => by cases h

theorem RoundTrip.coreExitTick (c : Nat) : Statement (.coreExitTick c) := fun _ _ h => by cases h

theorem RoundTrip.launchRetire (p : Nat) (l : Nat) : Statement (.launchRetire p l) := fun _ _ h => by cases h

theorem RoundTrip.leaseGrant (u : Nat) : Statement (.leaseGrant u) := fun _ _ h => by cases h

theorem RoundTrip.leaseEnd (u : Nat) : Statement (.leaseEnd u) := fun _ _ h => by cases h

theorem RoundTrip.leaseTurnEnd (u : Nat) : Statement (.leaseTurnEnd u) := fun _ _ h => by cases h

theorem RoundTrip.matrixCommandSwap (c : Nat) : Statement (.matrixCommandSwap c) := fun _ _ h => by cases h

theorem RoundTrip.matrixCommandComplete (c : Nat) : Statement (.matrixCommandComplete c) := fun _ _ h => by cases h

theorem RoundTrip.beatSourceRead (c : Nat) (st : Nat) (id : Nat) (b : Nat) : Statement (.beatSourceRead c st id b) := fun _ _ h => by cases h

theorem RoundTrip.indexEntryRead (c : Nat) (st : Nat) (id : Nat) (n : Nat) : Statement (.indexEntryRead c st id n) := fun _ _ h => by cases h

theorem RoundTrip.beatRelease (c : Nat) (st : Nat) (id : Nat) (b : Nat) : Statement (.beatRelease c st id b) := fun _ _ h => by cases h

theorem RoundTrip.cplSourceRead (c : Nat) (st : Nat) (id : Nat) (b : Nat) : Statement (.cplSourceRead c st id b) := fun _ _ h => by cases h

theorem RoundTrip.cplDestWrite (c : Nat) (st : Nat) (id : Nat) (b : Nat) : Statement (.cplDestWrite c st id b) := fun _ _ h => by cases h

theorem RoundTrip.sendBeatRead (c : Nat) (st : Nat) (id : Nat) (b : Nat) : Statement (.sendBeatRead c st id b) := fun _ _ h => by cases h

theorem RoundTrip.messageArrival (c : Nat) (st : Nat) (id : Nat) : Statement (.messageArrival c st id) := fun _ _ h => by cases h

theorem RoundTrip.lateBeatCheck (c : Nat) (st : Nat) (id : Nat) (b : Nat) : Statement (.lateBeatCheck c st id b) := fun _ _ h => by cases h

theorem RoundTrip.copyFault (c : Nat) (st : Nat) (id : Nat) (b : Nat) (cause : Nat) (info : Nat) : Statement (.copyFault c st id b cause info) := fun _ _ h => by cases h

theorem RoundTrip.wportBeatConsume (c : Nat) (st : Nat) (b : Nat) : Statement (.wportBeatConsume c st b) := fun _ _ h => by cases h

theorem RoundTrip.virtLookup (c : Nat) (st : Nat) (id : Nat) (b : Nat) (dst : Bool) : Statement (.virtLookup c st id b dst) := fun _ _ h => by cases h

theorem RoundTrip.walkComplete (c : Nat) (st : Nat) (id : Nat) (b : Nat) (dst : Bool) : Statement (.walkComplete c st id b dst) := fun _ _ h => by cases h

theorem RoundTrip.sealDescriptorCheck (c : Nat) (st : Nat) (id : Nat) : Statement (.sealDescriptorCheck c st id) := fun _ _ h => by cases h

theorem RoundTrip.tbumpEffect (c : Nat) (st : Nat) (id : Nat) : Statement (.tbumpEffect c st id) := fun _ _ h => by cases h

theorem RoundTrip.tcommitEffect (c : Nat) (st : Nat) (id : Nat) : Statement (.tcommitEffect c st id) := fun _ _ h => by cases h

theorem RoundTrip.tdigEffect (c : Nat) (st : Nat) (id : Nat) : Statement (.tdigEffect c st id) := fun _ _ h => by cases h

theorem RoundTrip.digestResult (p : Nat) (tid : Nat) : Statement (.digestResult p tid) := fun _ _ h => by cases h

theorem RoundTrip.krotEffect (c : Nat) (st : Nat) (id : Nat) : Statement (.krotEffect c st id) := fun _ _ h => by cases h

theorem RoundTrip.barrierComplete (p : Nat) (l : Nat) (scope : Nat) (n : Nat) : Statement (.barrierComplete p l scope n) := fun _ _ h => by cases h

theorem RoundTrip.create (p : Nat) (rec : CtxRecord) : Statement (.create p rec) := fun _ _ h => by cases h

theorem RoundTrip.destroy (p : Nat) (rec : CtxRecord) : Statement (.destroy p rec) := fun _ _ h => by cases h

theorem RoundTrip.preempt (p : Nat) (rec : CtxRecord) : Statement (.preempt p rec) := fun _ _ h => by cases h

theorem RoundTrip.resume (p : Nat) (rec : CtxRecord) : Statement (.resume p rec) := fun _ _ h => by cases h

theorem RoundTrip.policy (p : Nat) (rec : CtxRecord) : Statement (.policy p rec) := fun _ _ h => by cases h

theorem RoundTrip.contextCreateComplete (p : Nat) (asid : Nat) : Statement (.contextCreateComplete p asid) := fun _ _ h => by cases h

theorem RoundTrip.preemptBoundary (p : Nat) (asid : Nat) : Statement (.preemptBoundary p asid) := fun _ _ h => by cases h

theorem RoundTrip.saveCommit (p : Nat) (asid : Nat) : Statement (.saveCommit p asid) := fun _ _ h => by cases h

theorem RoundTrip.contextReissue (p : Nat) (asid : Nat) : Statement (.contextReissue p asid) := fun _ _ h => by cases h

theorem RoundTrip.teardownComplete (p : Nat) (asid : Nat) : Statement (.teardownComplete p asid) := fun _ _ h => by cases h

theorem RoundTrip.contextScrubComplete (p : Nat) (asid : Nat) : Statement (.contextScrubComplete p asid) := fun _ _ h => by cases h

theorem RoundTrip.builtinTestComplete (die : Nat) (fn : Nat) (pass : Bool) : Statement (.builtinTestComplete die fn pass) := fun _ _ h => by cases h

theorem RoundTrip.partitionReset (p : Nat) : Statement (.partitionReset p) := fun _ _ h => by cases h

theorem RoundTrip.partitionCreate (p : Nat) (r : PartRequest) : Statement (.partitionCreate p r) := fun _ _ h => by cases h

theorem RoundTrip.partitionDestroy (p : Nat) : Statement (.partitionDestroy p) := fun _ _ h => by cases h

theorem RoundTrip.dieDrain (p : Nat) (d : Nat) (on : Bool) : Statement (.dieDrain p d on) := fun _ _ h => by cases h

theorem RoundTrip.queueEnable (p : Nat) (q : Nat) (cfg : Nat) : Statement (.queueEnable p q cfg) := fun _ _ h => by cases h

theorem RoundTrip.queueDisable (p : Nat) (w : QcfgWrite) : Statement (.queueDisable p w) := fun _ _ h => by cases h

theorem RoundTrip.qtailWrite (p : Nat) (q : Nat) (v : Nat) : Statement (.qtailWrite p q v) := fun _ _ h => by cases h

theorem RoundTrip.queueSelect (p : Nat) (q : Nat) : Statement (.queueSelect p q) := fun _ _ h => by cases h

theorem RoundTrip.claimResolve (p : Nat) : Statement (.claimResolve p) := fun _ _ h => by cases h

theorem RoundTrip.graphKernelNode (p : Nat) (g : Nat) : Statement (.graphKernelNode p g) := fun _ _ h => by cases h

theorem RoundTrip.graphCondNode (p : Nat) (g : Nat) : Statement (.graphCondNode p g) := fun _ _ h => by cases h

theorem RoundTrip.graphWhileNode (p : Nat) (g : Nat) : Statement (.graphWhileNode p g) := fun _ _ h => by cases h

theorem RoundTrip.graphSwapNode (p : Nat) (g : Nat) : Statement (.graphSwapNode p g) := fun _ _ h => by cases h

theorem RoundTrip.graphEndNode (p : Nat) (g : Nat) : Statement (.graphEndNode p g) := fun _ _ h => by cases h

theorem RoundTrip.assign (p : Nat) (rec : PageRecord) : Statement (.assign p rec) := fun _ _ h => by cases h

theorem RoundTrip.release (p : Nat) (rec : PageRecord) : Statement (.release p rec) := fun _ _ h => by cases h

theorem RoundTrip.invalidate (p : Nat) (rec : PageRecord) : Statement (.invalidate p rec) := fun _ _ h => by cases h

theorem RoundTrip.migrate (p : Nat) (rec : PageRecord) : Statement (.migrate p rec) := fun _ _ h => by cases h

theorem RoundTrip.migrationCopyStart (p : Nat) : Statement (.migrationCopyStart p) := fun _ _ h => by cases h

theorem RoundTrip.copyEngineComplete (p : Nat) : Statement (.copyEngineComplete p) := fun _ _ h => by cases h

theorem RoundTrip.patrolRead (die : Nat) (granule : Nat) (bad : List Nat) : Statement (.patrolRead die granule bad) := fun _ _ h => by cases h

theorem RoundTrip.manifestLoad (p : Nat) (asid : Nat) : Statement (.manifestLoad p asid) := fun _ _ h => by cases h

theorem RoundTrip.shardAttemptComplete (p : Nat) (i : Nat) (ok : Bool) (data : List Nat) : Statement (.shardAttemptComplete p i ok data) := fun _ _ h => by cases h

theorem RoundTrip.shardDeadline (p : Nat) (i : Nat) : Statement (.shardDeadline p i) := fun _ _ h => by cases h

theorem RoundTrip.manifestRecheck (p : Nat) : Statement (.manifestRecheck p) := fun _ _ h => by cases h

theorem RoundTrip.attachResetEnd (die : Nat) : Statement (.attachResetEnd die) := fun _ _ h => by cases h

theorem RoundTrip.attachTrainingPass (die : Nat) : Statement (.attachTrainingPass die) := fun _ _ h => by cases h

theorem RoundTrip.attachRetrainRequest (die : Nat) : Statement (.attachRetrainRequest die) := fun _ _ h => by cases h

theorem RoundTrip.attachTrainingFail (die : Nat) : Statement (.attachTrainingFail die) := fun _ _ h => by cases h

theorem RoundTrip.circuitEnable (e : Nat) (w : Nat) : Statement (.circuitEnable e w) := fun _ _ h => by cases h

theorem RoundTrip.circuitDisable (e : Nat) : Statement (.circuitDisable e) := fun _ _ h => by cases h

theorem RoundTrip.circuitLit (e : Nat) : Statement (.circuitLit e) := fun _ _ h => by cases h

theorem RoundTrip.circuitDrainComplete (e : Nat) : Statement (.circuitDrainComplete e) := fun _ _ h => by cases h

theorem RoundTrip.wavelengthFence (die : Nat) (i : Nat) : Statement (.wavelengthFence die i) := fun _ _ h => by cases h

theorem RoundTrip.portEnable (n : Nat) : Statement (.portEnable n) := fun _ _ h => by cases h

theorem RoundTrip.portTrainingPass (n : Nat) (width : Nat) : Statement (.portTrainingPass n width) := fun _ _ h => by cases h

theorem RoundTrip.portLaneLoss (n : Nat) : Statement (.portLaneLoss n) := fun _ _ h => by cases h

theorem RoundTrip.portDisable (n : Nat) : Statement (.portDisable n) := fun _ _ h => by cases h

theorem RoundTrip.fabidxWrite (v : Nat) : Statement (.fabidxWrite v) := fun _ _ h => by cases h

theorem RoundTrip.flitReceive (f : Flit) : Statement (.flitReceive f) := fun _ _ h => by cases h

theorem RoundTrip.peerOpen (p : Nat) (i : Nat) : Statement (.peerOpen p i) := fun _ _ h => by cases h

theorem RoundTrip.peerClose (p : Nat) (i : Nat) : Statement (.peerClose p i) := fun _ _ h => by cases h

theorem RoundTrip.peerInit (p : Nat) (i : Nat) (msg : PeerMsg) : Statement (.peerInit p i msg) := fun _ _ h => by cases h

theorem RoundTrip.peerResp (p : Nat) (i : Nat) (msg : PeerMsg) : Statement (.peerResp p i msg) := fun _ _ h => by cases h

theorem RoundTrip.peerFin (p : Nat) (i : Nat) (msg : PeerMsg) : Statement (.peerFin p i msg) := fun _ _ h => by cases h

theorem RoundTrip.peerCloseReceived (p : Nat) (i : Nat) : Statement (.peerCloseReceived p i) := fun _ _ h => by cases h

theorem RoundTrip.peerTimeout (p : Nat) (i : Nat) : Statement (.peerTimeout p i) := fun _ _ h => by cases h

theorem RoundTrip.functionLevelReset (p : Nat) : Statement (.functionLevelReset p) := fun _ _ h => by cases h

theorem RoundTrip.tdispMessage (p : Nat) (msg : Nat) : Statement (.tdispMessage p msg) := fun _ _ h => by cases h

theorem RoundTrip.ideCheckFail (p : Nat) : Statement (.ideCheckFail p) := fun _ _ h => by cases h

theorem RoundTrip.hostDmaRequest (p : Nat) (write : Bool) (addr : Nat) (data : List Nat) (ide : Bool) : Statement (.hostDmaRequest p write addr data ide) := fun _ _ h => by cases h

theorem RoundTrip.getVersion (fn : Nat) : Statement (.getVersion fn) := fun _ _ h => by cases h

theorem RoundTrip.getCapabilities (fn : Nat) : Statement (.getCapabilities fn) := fun _ _ h => by cases h

theorem RoundTrip.negotiateAlgorithms (fn : Nat) (hash : Nat) (sig : Nat) (aead : Nat) : Statement (.negotiateAlgorithms fn hash sig aead) := fun _ _ h => by cases h

theorem RoundTrip.getDigests (fn : Nat) : Statement (.getDigests fn) := fun _ _ h => by cases h

theorem RoundTrip.getCertificate (fn : Nat) (off : Nat) (len : Nat) : Statement (.getCertificate fn off len) := fun _ _ h => by cases h

theorem RoundTrip.challenge (fn : Nat) (nonce : Nat) : Statement (.challenge fn nonce) := fun _ _ h => by cases h

theorem RoundTrip.getMeasurements (fn : Nat) (idx : Nat) (nonce : Nat) : Statement (.getMeasurements fn idx nonce) := fun _ _ h => by cases h

theorem RoundTrip.keyExchange (fn : Nat) (sid : Nat) (pub : Nat) : Statement (.keyExchange fn sid pub) := fun _ _ h => by cases h

theorem RoundTrip.finish (fn : Nat) (ok : Bool) : Statement (.finish fn ok) := fun _ _ h => by cases h

theorem RoundTrip.keyUpdate (fn : Nat) : Statement (.keyUpdate fn) := fun _ _ h => by cases h

theorem RoundTrip.endSession (fn : Nat) : Statement (.endSession fn) := fun _ _ h => by cases h

theorem RoundTrip.tenantidWrite (p : Nat) (v : Nat) : Statement (.tenantidWrite p v) := fun _ _ h => by cases h

theorem RoundTrip.debugTokenCheck (p : Nat) (token : List Nat) : Statement (.debugTokenCheck p token) := fun _ _ h => by cases h

theorem RoundTrip.debugLock (p : Nat) : Statement (.debugLock p) := fun _ _ h => by cases h

theorem RoundTrip.debugStopRequest (c : Nat) : Statement (.debugStopRequest c) := fun _ _ h => by cases h

theorem RoundTrip.debuggerResume (p : Nat) : Statement (.debuggerResume p) := fun _ _ h => by cases h

theorem RoundTrip.jreset : Statement (.jreset) := fun _ _ h => by cases h

theorem RoundTrip.fenceclr (loc : Nat) : Statement (.fenceclr loc) := fun _ _ h => by cases h

theorem RoundTrip.registerWrite (p : Nat) (off : Nat) (v : Nat) : Statement (.registerWrite p off v) := fun _ _ h => by cases h

theorem RoundTrip.beatPresent (c : Nat) (st : Nat) (id : Nat) (b : Nat) : Statement (.beatPresent c st id b) := fun _ _ h => by cases h

theorem RoundTrip.faultActionsComplete (p : Nat) : Statement (.faultActionsComplete p) := fun _ _ h => by cases h

theorem RoundTrip.powerLoss : Statement (.powerLoss) := fun _ _ h => by cases h

theorem RoundTrip.waitBudgetExhausted (c : Nat) : Statement (.waitBudgetExhausted c) := fun _ _ h => by cases h

end Sys2Proof.Laws
end

