-- ==== Sys2Proof/Laws/Vector.lean ====
section
/-! SUPPORT. Laws of rows: the lanes and the flags of a row that is computed lane by lane. -/
namespace Sys2Proof.Laws
open Sys2Proof.Machine

theorem laneOf_or (x : Row) (y : Lane) (n j : Nat) (hj : j < 64) :
    laneOf (x ||| (y.setWidth 2048 <<< (32 * n))) j = if j = n then laneOf x j ||| y else laneOf x j := by
  apply BitVec.eq_of_getLsbD_eq
  intro i hi
  have hb : 32 * j + i < 2048 := by omega
  by_cases h : j = n
  · subst h
    simp [laneOf, hi, hb]
  · simp only [laneOf, h, if_false, BitVec.getLsbD_extractLsb', BitVec.getLsbD_or, BitVec.getLsbD_shiftLeft, hi, decide_true, Bool.true_and]
    rcases Nat.lt_or_gt_of_ne h with h1 | h1
    · simp [show 32 * j + i < 32 * n by omega]
    · simp [BitVec.getLsbD_setWidth, BitVec.getLsbD_of_ge y (32 * j + i - 32 * n) (by omega)]

theorem mapRow_fold_lane (m : MaskRow) (f : Nat → Lane × Flags) (n : Nat) (j : Nat) (hj : j < 64) :
    laneOf ((List.range n).foldl (fun acc j => if m.getLsbD j then
      let y := f j; (acc.1 ||| (y.1.setWidth 2048 <<< (32 * j)), acc.2 ||| y.2) else acc) ((0 : Row), (0 : Flags))).1 j =
      if j < n ∧ m.getLsbD j = true then (f j).1 else 0 := by
  induction n with
  | zero => simp [laneOf]
  | succ n ih =>
    rw [List.range_succ, List.foldl_append]
    simp only [List.foldl_cons, List.foldl_nil]
    by_cases hm : m.getLsbD n = true
    · rw [if_pos hm]
      simp only []
      rw [laneOf_or _ _ n j hj, ih]
      by_cases h : j = n
      · subst h; simp [hm]
      · rw [if_neg h]
        by_cases h1 : j < n
        · simp [h1, Nat.lt_succ_of_lt h1]
        · simp [h1, show ¬ j < n + 1 by omega]
    · rw [if_neg hm, ih]
      by_cases h : j = n
      · subst h; simp [hm]
      · by_cases h1 : j < n
        · simp [h1, Nat.lt_succ_of_lt h1]
        · simp [h1, show ¬ j < n + 1 by omega]

theorem mapRow_lane (m f) (j : Nat) (hj : j < 64) (h : m.getLsbD j = true) : laneOf (mapRow m f).1 j = (f j).1 := by
  unfold mapRow; rw [mapRow_fold_lane m f 64 j hj]; simp [hj, h]

theorem mapRow_fold_flags (m : MaskRow) (f : Nat → Lane × Flags) (c : Nat → Bool) (F : Flags) (hf : ∀ j, (f j).2 = Flags.when (c j) F) (n : Nat) :
  ((List.range n).foldl (fun acc j => if m.getLsbD j then let y := f j; (acc.1 ||| (y.1.setWidth 2048 <<< (32 * j)), acc.2 ||| y.2) else acc) ((0:Row), (0:Flags))).2 = if (List.range n).any (fun j => m.getLsbD j && c j) = true then F else 0 := by
  induction n with
  | zero => simp
  | succ n ih =>
    rw [List.range_succ, List.foldl_append, List.any_append]
    simp only [List.foldl_cons, List.foldl_nil]
    by_cases hm : m.getLsbD n = true
    · rw [if_pos hm]; show (_ ||| (f n).2) = _
      rw [ih, hf n]; simp only [Flags.when, List.any_cons, List.any_nil, Bool.or_false, hm, Bool.true_and]
      generalize (List.range n).any _ = q
      cases q <;> cases c n <;> simp
      
    · rw [if_neg hm, ih]; simp [hm]

theorem mapRow_flags (m f) (c : Nat → Bool) (F : Flags) (hf : ∀ j, (f j).2 = Flags.when (c j) F) : (mapRow m f).2 = if (List.range 64).any (fun j => m.getLsbD j && c j) = true then F else 0 := mapRow_fold_flags m f c F hf 64

theorem mapRow_noFlags (m f) (hf : ∀ j, (f j).2 = 0) : (mapRow m f).2 = 0 := by
  rw [mapRow_flags m f (fun _ => false) 0 (by intro j; rw [hf]; rfl)]; simp

end Sys2Proof.Laws
end

