-- ==== Sys2Proof/Machine/Regs.lean ====
section
/-! DEFINITION. What a read of 8 bytes of a register space returns (R6): a view of the state, for the VF of a partition and for the host driver's function. -/
namespace Sys2Proof.Machine

/-! ## Words of the tables -/

/-- STATE codes of Table 11.2. -/
def QueueSt.code : QueueSt → Nat
  | .off => 0 | .empty => 1 | .ready => 2 | .selected => 3 | .draining => 4 | .faulted => 5
/-- QCFG (Table 11.1). -/
def Queue.cfgWord (u : Queue) : Nat := u.asid % 2 ^ 12 * 2 ^ 32 + u.log2n % 2 ^ 5 * 2 ^ 8 + u.en.toNat * 2 ^ 4 + u.prio % 2 ^ 4
/-- QSTAT (Table 11.2). -/
def Queue.statWord (u : Queue) : Nat := u.loss * 2 ^ 48 + u.moves * 2 ^ 32 + u.err * 2 ^ 8 + u.ldr * 2 ^ 5 + u.st.code
/-- A register of a queue by its offset (R260). -/
def Queue.word (u : Queue) (off : Nat) : Nat :=
  match off with
  | 0x00 => u.base
  | 0x08 => u.cfgWord
  | 0x10 => u.tail
  | 0x18 => u.head
  | 0x20 => u.statWord
  | _ => 0
/-- STATE codes of Table 11.6. -/
def CoreSt.code : CoreSt → Nat
  | .spare => 0 | .idle => 0 | .bound => 1 | .running => 2 | .held => 3 | .halted => 4 | .fenced => 5
/-- Row k of the slot table (Table 11.6), with the state of its core: a place outside the partition's grid has no row (R269). -/
def State.slotRowAt (s : State) (q : Part) (k : Nat) : BitVec 256 :=
  if gridDie (k % 32) (k / 32) < q.dies.length then Tab.get 0 q.slots k ||| BitVec.ofNat 256 (s.core (q.coreAtGrid (k % 32) (k / 32))).st.code else 0
/-- A kernel-table entry (Table 12.1). -/
def KernelEntry.word (e : KernelEntry) (off : Nat) : Nat :=
  if off = 0 then e.image else if off = 8 then e.asid % 2 ^ 16 + 2 ^ 16 else e.meas.toNat / 2 ^ (8 * (off - 0x10)) % 2 ^ 64
/-- The counters of a manifest load (Table 16.6). -/
def Manifest.statWord (m : Manifest) : Nat := m.retries * 2 ^ 48 + m.poison * 2 ^ 32 + m.firstbad * 2 ^ 16 + m.st % 4
/-- A peer entry (Table 18.7). -/
def Peer.word (y : Peer) (off : Nat) : Nat :=
  if off = 0 then y.rtid * 2 ^ 32 + y.port * 2 ^ 24 + y.rpart * 2 ^ 16 + y.pkg
  else if off = 8 then y.limit
  else if off = 0x10 then y.why * 2 ^ 32 + y.st * 2 ^ 24 + y.responder.toNat * 2 ^ 16 + y.asid
  else if 0x20 ≤ off ∧ off < 0x50 then y.expect.toNat / 2 ^ (8 * (off - 0x20)) % 2 ^ 64
  else 0
/-- An error history (Table 17.9). -/
def EccHist.word (e : EccHist) (off : Nat) : Nat := if off = 0 then e.ce * 2 ^ 32 + e.ue * 2 ^ 16 + e.src * 2 ^ 8 + e.kind else e.line
/-- STATE codes of Table 18.4. -/
def LinkSt.code : LinkSt → Nat
  | .setting => 1 | .up => 2 | .degraded => 3 | .failed => 4 | .draining => 5 | _ => 0
/-- A points-table entry (Table 18.4). -/
def Circuit.word (c : Circuit) : Nat :=
  c.en.toNat * 2 ^ 63 + c.st.code * 2 ^ 60 + c.part * 2 ^ 53 + c.toPort.toNat * 2 ^ 48 + c.dst * 2 ^ 44 + c.src * 2 ^ 37 + c.nwl * 2 ^ 24 + c.act
/-- Link error counters (Table 18.5). -/
def Circuit.errWord (c : Circuit) : Nat := c.replay * 2 ^ 32 + c.tagf * 2 ^ 16 + c.disc
/-- WLSTAT (Table 18.6). -/
def Die.wlWord (y : Die) (off : Nat) : Nat :=
  if off = 0 then y.fenw
  else (8 - y.wlUsed - ((List.range 8).filter fun i => y.fens / 2 ^ i % 2 == 1).length) * 2 ^ 16 + y.wlUsed * 2 ^ 8 + y.fens
/-- Health counters (Table 19.3). -/
def Die.healthWord (y : Die) (off : Nat) : Nat :=
  match off with
  | 0x00 => y.res * 2 ^ 32 + y.ue
  | 0x08 => y.sce * 2 ^ 32 + y.mce
  | 0x10 => y.mspare * 2 ^ 32 + y.unrep * 2 ^ 16 + y.shift
  | 0x18 => y.lspare
  | _ => 0
/-- Entry i of MCLOG as the host driver reads it: WORD, PC and ADDR zero (R388). -/
def Die.mcWord (y : Die) (i off : Nat) : Nat :=
  let x := ((Tab.find y.mclog i).getD 0).toNat
  let z := x - field x 191 160 * 2 ^ 160 - field x 159 147 * 2 ^ 147 - field x 63 0
  z / 2 ^ (8 * off) % 2 ^ 64
/-- DBGCTL (Table 20.4). -/
def Part.dbgWord (q : Part) (off : Nat) : Nat := if off = 8 then q.nonce * 2 ^ 32 + q.dbgstat * 2 ^ 4 + q.unlocked.toNat else 0
/-- BOOTSTAT (R408). -/
def State.bootWord (s : State) : Nat :=
  ((List.range 8).filter fun d => (s.die d).leftOut).foldl (fun m d => m + 2 ^ d) 0 * 2 ^ 16 + s.recovery.toNat * 2 ^ 8 + s.bootStep % 256

/-! ## The two register spaces -/

/-- Error histories, which both drivers read (R365): by die index for a partition, by physical die for the host driver. -/
def State.eccRead (s : State) (die : Nat → Nat) (off : Nat) : Nat :=
  let o := off - 0x6A000
  (Tab.get EccHist.reset s.ecc (192 * die (o / 0xC00) + o % 0xC00 / 16)).word (o % 16)
/-- A read of the VF of a partition at an offset that is a multiple of 8; WO fields and reserved places read zero (R6, R260, R269, R273, R283, R322, R340, R348,
R357, R360, R365, R380, R402, R403). -/
def State.vfWord (s : State) (q : Part) (off : Nat) : Nat :=
  if off < 0x10000 then 0
  else if off < 0x14000 then (q.queue ((off - 0x10000) / 0x40)).word (off % 0x40)
  else if off < 0x20000 then 0
  else if off < 0x30000 then (s.slotRowAt q ((off - 0x20000) / 32)).toNat / 2 ^ (8 * (off % 32)) % 2 ^ 64
  else if off = 0x30000 then q.ttbase * 2 ^ 12 + q.ttlog
  else if off < 0x40000 then 0
  else if off < 0x44000 then (match Tab.find q.kernels ((off - 0x40000) / 64) with | some e => e.word (off % 64) | none => 0)
  else if off = 0x50000 then q.tnbase * 2 ^ 12 + q.tnlog
  else if off = 0x50008 then q.manifest.base
  else if off = 0x50010 then q.manifest.asid * 2 ^ 4
  else if off = 0x50018 then q.manifest.statWord
  else if off < 0x60000 then 0
  else if off < 0x68000 then (Tab.get (0 : Word) q.ptroot ((off - 0x60000) / 8)).toNat
  else if off = 0x68008 then q.href * 2 ^ 48 + q.pgcode * 2 ^ 8 + q.pgcmd.isSome.toNat
  else if off < 0x69000 then 0
  else if off < 0x69100 then Tab.get 0 q.reqCount ((off - 0x69000) / 8)
  else if off < 0x6A000 then 0
  else if off < 0x70000 then s.eccRead q.pdie off
  else if off < 0x70080 then 0
  else if off < 0x70F80 then ((Tab.find q.peers ((off - 0x70000) / 128)).getD Peer.reset).word (off % 128)
  else if off < 0x80000 then 0
  else if off < 0x80030 then q.tenantid / 2 ^ (8 * (off - 0x80000)) % 2 ^ 64
  else if off = 0x80040 then q.msel
  else 0
/-- A read of 8 bytes of the VF of partition p: none while the interface is not in RUN or has no stream (R399, R400). -/
def State.vfRead (s : State) (p off : Nat) : Option Nat :=
  match Tab.find s.parts p with
  | some q => if q.tdisp = .run ∧ q.ide then some (s.vfWord q off) else none
  | none => none
/-- A read of 8 bytes of the host driver's function at an offset that is a multiple of 8 (R365, R373, R374, R378, R388, R397, R405, R408): in
recovery BOOTSTAT alone (R409). -/
def State.pfRead (s : State) (off : Nat) : Nat :=
  if s.recovery ∧ off ≠ 0x121000 then 0
  else if 0x6A000 ≤ off ∧ off < 0x70000 then s.eccRead id off
  else if off < 0x100000 then 0
  else if off < 0x100800 then (s.circuit ((off - 0x100000) / 8)).word
  else if off < 0x101000 then (s.circuit ((off - 0x100800) / 8)).errWord
  else if off < 0x101080 then (s.die ((off - 0x101000) / 16)).wlWord (off % 16)
  else if off = 0x101800 then s.lerr
  else if off = 0x102000 then s.fabidx
  else if off < 0x104000 then 0
  else if off < 0x114000 then (s.die ((off - 0x104000) / 0x2000)).mcWord ((off - 0x104000) % 0x2000 / 32) (off % 32)
  else if off < 0x114100 then (s.die ((off - 0x114000) / 32)).healthWord (off % 32)
  else if off < 0x120000 then 0
  else if off < 0x120080 then (match Tab.find s.parts ((off - 0x120000) / 16) with | some q => q.dbgWord (off % 16) | none => 0)
  else if off = 0x121000 then s.bootWord
  else 0

end Sys2Proof.Machine
end

