-- ==== Sys2Proof/Tests/Slice0.lean ====
section
/-! SUPPORT. Tests of the model: words written out from the spec's encoding tables, terms that are no instruction, single steps whose
results are worked out by hand from the rules named beside them, and for the statements a state that meets their hypotheses. -/
namespace Sys2Proof.Tests
open Sys2Proof.Machine Sys2Proof.Claims
set_option Elab.async false

/-! ## Words of Tables 4.2 to 4.8: guard in bits 31 to 27, OP in bits 26 to 21 -/

theorem test_decode_x : decodeWord .x 0x00200040 = .ok (.br Guard.always 64) ∧ decodeWord .x 0x00A70003 = .ok (.loop Guard.always 7 3) ∧
    decodeWord .x 0x01800011 = .ok (.cbar Guard.always 0x11) ∧ decodeWord .x 0x01E40011 = .ok (.bstatSub Guard.always 4 0x11) ∧
    decodeWord .x 0x01E22000 = .ok (.bstatSs Guard.always 2) := by decide +kernel
theorem test_decode_mbr : decodeWord .x 0x00C2A9C3 = .ok (.mbrTree Guard.always 2 21 7 1) := by decide +kernel
theorem test_decode_s : decodeWord .s 0x98442001 = .ok (.addi ⟨true, 3⟩ 4 4 1) ∧
    decodeWord .s 0x02450042 = .ok (.sysrd Guard.always 5 0x042) := by decide +kernel
theorem test_decode_l : decodeWord .l 0x02854990 = .ok (.amoAdd Guard.always 5 9 6 true) := by decide +kernel
theorem test_decode_v_float : decodeWord .v 0x00221140 = .ok (.vaddF32 Guard.always 2 2 5 0 .rne) ∧
    decodeWord .v 0x0084089C = .ok (.vfmaF32 Guard.always 4 1 2 3 .rsr) := by decide +kernel
theorem test_decode_v_int : decodeWord .v 0x01C33041 = .ok (.vsrlImm Guard.always 3 6 8) ∧
    decodeWord .v 0x03492010 = .ok (.vredrSumF32 Guard.always 9 4 2) := by decide +kernel
theorem test_decode_v_pack : decodeWord .v 0x02070884 = .ok (.vdotI8I8 Guard.always 7 1 2 0 true) ∧
    decodeWord .v 0x02260B54 = .ok (.vcvt Guard.always 6 1 .f8a .f32 .rsr) := by decide +kernel
theorem test_decode_v_other : decodeWord .v 0x03C41800 = .ok (.kany Guard.always 4 3) ∧ decodeWord .v 0x04430880 = .ok (.vrcps Guard.always 3 1 2 0 .rne) ∧
    decodeWord .v 0x050C0009 = .ok (.vrngF32 Guard.always 12 1) := by decide +kernel
theorem test_decode_m : decodeWord .m 0x09004000 = .ok (.mma ⟨false, 1⟩ .trn .i8 0) ∧
    decodeWord .m 0x08200000 = .ok (.mlease ⟨false, 1⟩) ∧ decodeWord .m 0x0860C900 = .ok (.mset ⟨false, 1⟩ 6 9) := by decide +kernel
theorem test_decode_c_program : decodeWord .c 0x00A40802 = .ok (.cprogi Guard.always 2 1 2) ∧
    decodeWord .c 0x00444298 = .ok (.cpyt Guard.always 2 4 5 6 false false) := by decide +kernel
theorem test_decode_c : decodeWord .c 0x00240640 = .ok (.cpy Guard.always 2 0 0x640) ∧
    decodeWord .c 0x02028000 = .ok (.tbump Guard.always 5) ∧ decodeWord .c 0x02803800 = .ok (.sealCopy Guard.always 7) := by decide +kernel
theorem test_decode_event : decodeTableWord 0 0 = none := by decide +kernel

/-! ## Terms that stand for no word: one for each check of Instr.wf -/

def g0 : Guard := Guard.always
theorem test_ill_formed : ([.nop ⟨false, 12⟩, .br g0 8192, .brb g0 4, .callb g0 4 0, .mbrChain g0 12 0 0 0, .mbrTree g0 0 0 0 28, .mbrChain g0 32 0 0 0,
    .waitt g0 0 65536, .cbar g0 0x10, .cbar g0 0x61, .bstatSub g0 0 0x17, .bstatDie g0 12, .tmge g0 12 0, .add g0 32 0 0, .addi g0 0 0 2048,
    .slli g0 0 0 64, .cmpEq g0 12 0 0, .cmpiEq g0 0 0 256, .sel g0 0 0 0 12, .getb g0 0 4, .sysrd g0 0 0x003, .syswr g0 0 0x048, .qrd g0 0 4 true,
    .vldr g0 0 0 16 0, .vstr g0 0 0 0 128, .vaddF32 g0 0 0 0 8 .rne, .vcmpI32Eq g0 8 0 0 0, .vsllImm g0 0 0 32, .vcvt g0 0 0 .f32 .f32 .rne,
    .vcvt g0 0 0 .trn .f32 .rne, .vscaI32 g0 0 0 1 0 .rne, .vrotr g0 0 0 64, .vrotc g0 0 0 16, .vtr g0 0 0 4, .kand g0 8 0 0, .mset g0 25 0,
    .mseti g0 0 8192, .mwld g0 .n8, .mma g0 .f4 .i8 0, .mma g0 .trn .i8 4, .mdrv g0 0 0 16, .cpy g0 16 0 0, .cpy g0 0 0 4096, .cprog g0 0 0 0x0D,
    .cprogi g0 0 0 2048, .tbump g0 64] : List Instr).all (fun i => !i.wf) = true := by decide +kernel

/-! ## Worked examples of the spec, lane by lane -/

/-- R45's example: 0x3FA66666 to F8A under .rsr gives 0x3B from rv 39,322 on and 0x3A below. -/
theorem test_stochastic_rounding : cvt 0x3FA66666 .f32 .f8a .rsr 39322 false = (0x3B, Flags.nx) ∧
    cvt 0x3FA66666 .f32 .f8a .rsr 39321 false = (0x3A, Flags.nx) := by decide +kernel
/-- R44: 2^24 + 1 is a tie in F32 and goes to the even code. -/
theorem test_tie_to_even : rnd false 16777217 0 .f32 .rne 0 false = (0x4B800000, Flags.nx) := by decide +kernel
/-- R162's examples: the exact total of four products and the accumulator, clamped or wrapped once. -/
theorem test_vdot : laneFn (.dot .i8 .i8 true) 0x80807F7F 0x7F7F7F7F (BitVec.ofNat 32 2147480000) 0 (fun _ => 0) = (BitVec.ofNat 32 2147479746, 0) ∧
    laneFn (.dot .i8 .i8 true) 0x7F7F7F7F 0x7F7F7F7F (BitVec.ofNat 32 2147483000) 0 (fun _ => 0) = (0x7FFFFFFF, Flags.sat) := by decide +kernel
theorem test_vdot_wraps : laneFn (.dot .i8 .i8 false) 0x7F7F7F7F 0x7F7F7F7F (BitVec.ofNat 32 2147483000) 0 (fun _ => 0) = (0x8000F97C, 0) := by decide +kernel
/-- R166's example: the block sum 3 and two scales of 1 + 2^−12 round once. -/
theorem test_vsca : laneFn (.scaI .rne) 3 0x3F800800 0 0x3F800800 (fun _ => 0) = (0x40401801, Flags.nx) := by decide +kernel
/-- R177's example: the estimate of 1/3 and the step from it. -/
theorem test_reciprocal : (laneFn .rcpe 0x40400000 0 0 0 (fun _ => 0)).1 = 0x3EAAA800 ∧
    laneFn (.rcps .rne) 0x40400000 0x3EAAA800 0 0 (fun _ => 0) = (0x3EAAAAAB, Flags.nx) := by decide +kernel
/-- R39 and R157: a NaN operand gives the canonical NaN, and an integer sum wraps. -/
theorem test_nan_and_wrap : (laneFn (.addF .rne) 0x7FC12345 0x3F800000 0 0 (fun _ => 0)).1 = 0x7FC00000 ∧
    laneFn .addI 0xFFFFFFFF 2 0 0 (fun _ => 0) = (1, 0) := by decide +kernel

/-! ## A small state: core 0 RUNNING in context 1 of partition 0, alone in launch 0 of one tile row of three tiles -/

def launch0 : Launch := ⟨true, 1, 0, 0, 0, 1, 1, 0, 0, 0, 0, 7, none, false, 0, 3, 1, 0, 0, [0], [], [], [], 0, 4⟩
def base : State := (placeWord State.reset 0).modPart 0 fun q => { q with launches := [(0, launch0)] }
/-- The state with core 0 changed and slot n under execution. -/
def core0 (n : Nat) (f : Core → Core) : State := { base with cur := ⟨0, n⟩ }.setHere (f base.here)
/-- Partition 0 at tick n. -/
def atTick (n : Nat) (s : State) : State := s.modPart 0 fun q => { q with stime := n }
/-- With these x registers. -/
def xs (l : Tab Word) : State := core0 1 fun c => { c with x := l }
def outcome (o : Out) (f : State → Bool) : Bool := match o with | .next t => f t | _ => false
/-- The one result of an operation. -/
def result (i : Instr) (s : State) : List Write := match exec i s with | .next t => t.here.lands.map (·.wr) | _ => []
theorem answers (o : Out) (f : State → Bool) (h : outcome o f = true) : ∃ t, o = .next t ∧ f t = true := by
  match o, h with
  | .next t, h => exact ⟨t, rfl, h⟩

theorem test_add_wraps : result (.add g0 3 1 2) (xs [(1, BitVec.allOnes 64), (2, 1)]) = [.x 3 0] := by decide +kernel
theorem test_mulh_is_signed : result (.mulh g0 3 1 2) (xs [(1, BitVec.allOnes 64), (2, 1)]) = [.x 3 (BitVec.allOnes 64)] := by decide +kernel
theorem test_sra_by_low_six_bits : result (.sra g0 3 1 2) (xs [(1, 0x8000000000000000), (2, 0x47F)]) = [.x 3 (BitVec.allOnes 64)] := by decide +kernel
theorem test_adds_clamps : result (.adds g0 3 1 2) (xs [(1, 0x7FFFFFFFFFFFFFFF), (2, 1)]) = [.x 3 0x7FFFFFFFFFFFFFFF, .flags Flags.sat] := by
  decide +kernel
theorem test_clz_of_zero : result (.clz g0 3 1) (xs []) = [.x 3 64] ∧ result (.ctz g0 3 1) (xs [(1, 8)]) = [.x 3 3] := by decide +kernel
theorem test_bswap : result (.bswap g0 3 1) (xs [(1, 0x0102030405060708)]) = [.x 3 0x0807060504030201] := by decide +kernel
theorem test_addi_sign_extends : result (.addi g0 4 4 0x7FF) (xs []) = [.x 4 (BitVec.allOnes 64)] := by decide +kernel
/-- R117's example: the second of the four bundles that place 0x0123456789ABCDEF. -/
theorem test_movk : result (.movi g0 9 0xCDEF) (xs []) = [.x 9 0xFFFFFFFFFFFFCDEF] ∧
    result (.movk16 g0 9 0x89AB) (xs [(9, 0xFFFFFFFFFFFFCDEF)]) = [.x 9 0xFFFFFFFF89ABCDEF] := by decide +kernel
theorem test_compare_signs : result (.cmpLt g0 3 1 0) (xs [(1, BitVec.allOnes 64)]) = [.p 3 true] ∧
    result (.cmpLtu g0 3 1 0) (xs [(1, BitVec.allOnes 64)]) = [.p 3 false] := by decide +kernel
/-- R140's example: p2 = 1 and p5 = 0, so the tree goes to b0, whatever p7 and p1 hold. -/
theorem test_mbr_tree : outcome (exec (.mbrTree g0 2 21 7 1) (core0 0 fun c => { c with p := 0x085, nbundles := 9, b := [(0, 0x100)] }))
    (fun t => t.here.dly == 2 && t.here.tgt == 8) = true := by decide +kernel
theorem test_loop_ends_at_one : outcome (exec (.loop g0 7 0) (core0 0 fun c => { c with x := [(7, 1)] })) (fun t => t.here.dly == 0) = true ∧
    outcome (exec (.loop g0 7 0) (core0 0 fun c => { c with x := [(7, 2)] })) (fun t => t.here.dly == 2) = true := by decide +kernel
theorem test_trap_halts : outcome (exec (.trap g0 42) (core0 0 id)) (fun t => t.here.st == .halted && t.here.trap == ⟨0x0E, 0, 0, 42⟩) = true := by
  decide +kernel
theorem test_misaligned_load_traps : outcome (exec (.ldd g0 3 1 1) (core0 2 id)) (fun t => t.here.trap == ⟨4, 2, 0, 1⟩) = true := by decide +kernel
theorem test_load_enters_queue : outcome (exec (.ldw g0 3 1 8) (core0 2 fun c => { c with x := [(1, 0x2000)] }))
    (fun t => t.here.reqs.map (·.kind) == [.ld 3 4 true] && t.here.reqs.map (·.addr) == [0x2008]) = true := by decide +kernel
/-- R3 and R125: a store puts its least significant byte first. -/
theorem test_store_byte_order : ((base.perform 0 ⟨1, 0, .st 4 0x11223344, 0, 0x40, 0, 0, 8, some 0, 0, false⟩).byte (padKey 0 0x40),
    (base.perform 0 ⟨1, 0, .st 4 0x11223344, 0, 0x40, 0, 0, 8, some 0, 0, false⟩).byte (padKey 0 0x43)) = (0x44, 0x11) := by decide +kernel
/-- R247: a core that trapped at tick 5 under a halt of tick 9 meets again what core 1 wrote at tick 7, and not what it wrote at tick 4. -/
theorem test_span : ({ base with touches := [⟨1, 0, 1, 7, 64, 8, true⟩, ⟨1, 0, 1, 4, 80, 8, true⟩] }.spanOf 0 1 0 5 9).map Touch.lo = [64] := by
  decide +kernel
/-- R319: a byte that the host has written since the launch was claimed is a race for a read, one that it has read is none. -/
theorem test_host_race : (let s := base.modPart 0 fun q => { q with launches := [(0, { launch0 with host := [(64, true), (65, false)] })] }
    (s.unsettled 0 64 false, s.unsettled 0 65 false, s.unsettled 0 65 true)) = (true, false, true) := by decide +kernel
theorem test_vector_unit_is_taken : outcome (exec (.vaddI32 g0 2 2 5 0) (core0 3 id)) (fun t => t.here.vaFree == 16) = true := by decide +kernel
theorem test_mset : outcome (exec (.mset g0 6 9) (core0 5 fun c => { c with x := [(9, 0x100000005)] })) (fun t => t.here.shadow == [(6, 5)]) = true := by
  decide +kernel
theorem test_command_without_lease : outcome (exec (.mzero g0 0) (core0 5 id)) (fun t => t.here.trap == ⟨0x0B, 5, 0, 0x100⟩) = true := by decide +kernel
theorem test_unbound_tensor : outcome (exec (.tbump g0 5) (core0 6 id)) (fun t => t.here.trap == ⟨0x0C, 6, 0, 0⟩) = true := by decide +kernel
theorem test_first_tile : outcome (exec (.nxt g0) (core0 0 id)) (fun t => t.here.lands.map (·.wr) == [.q 0 0] && t.here.qn == 1) = true := by decide +kernel

/-! ## One step on a placed word (log entry 11) -/

def placed (w : Nat) (f : State → Bool) : Bool := outcome (step (State.reset.withFetchWord 32 w)) f
theorem test_step_addi : placed 0x00442001 (fun t => (t.core 0).lands.map (·.wr) == [.x 4 1] && (t.core 0).pc == 1) = true := by decide +kernel
theorem test_step_trap : placed 0x0140002A (fun t => (t.core 0).st == .halted && (t.core 0).trap == ⟨0x0E, 0, 0, 42⟩) = true := by decide +kernel
theorem test_step_illegal : placed 0x00000001 (fun t => (t.core 0).trap == ⟨1, 0, 0, 0⟩) = true := by decide +kernel
theorem test_no_power : step { State.reset with power := false } = .fault .noPower := rfl

/-! ## States and operands that meet the hypotheses of the statements, clause by clause, at the ends of their ranges -/

def gOff : Guard := ⟨true, 0⟩
theorem witness_EncodeDecodeAgree : (Instr.mma ⟨true, 11⟩ .h16 .f8b 3).wf = true ∧ (Instr.mma ⟨true, 11⟩ .h16 .f8b 3).inMap .m = true ∧
    (Instr.br ⟨false, 11⟩ 8191).wf = true ∧ (Instr.br ⟨false, 11⟩ 8191).inMap .x = true := by decide +kernel
theorem witness_DecodeEncodeAgree : 0x98442001 < 2 ^ 32 ∧ decodeWord .s 0x98442001 = .ok (.addi ⟨true, 3⟩ 4 4 1) := by decide +kernel
theorem witness_NopEncoding : 11 < 12 ∧ 0 < 1 ∧ 1 < 2 ^ 21 ∧ 2 ^ 21 - 1 < 2 ^ 21 := by decide
theorem witness_WordsDecode : ∀ w ∈ [0x60000000, 0xFFFFFFFE], w < 2 ^ 32 ∧ w ≠ 0xFFFFFFFF ∧ 12 ≤ w / 2 ^ 27 % 16 := by decide +kernel
theorem witness_ArithmeticResults : base.here.guardOn g0 = true ∧ base.readX base.here 1 = 0 ∧
    (xs [(1, 1)]).here.guardOn g0 = true ∧ (xs [(1, 1)]).readX (xs [(1, 1)]).here 1 ≠ 0 ∧ 2 ^ 11 - 1 < 2 ^ 11 ∧ 63 < 64 ∧ 2 ^ 16 - 1 < 2 ^ 16 := by
  decide +kernel
theorem witness_PredicateAndMoveResults : base.here.guardOn g0 = true ∧ (core0 1 fun c => { c with p := 0x801 }).here.guardOn ⟨false, 11⟩ = true ∧
    2 ^ 8 - 1 < 2 ^ 8 := by decide +kernel
theorem witness_SystemRegisterAccess : base.here.guardOn g0 = true ∧ base.here.lands = [] ∧
    ∀ n ∈ [0x000, 0x001, 0x002, 0x010, 0x011, 0x012, 0x013, 0x014, 0x030, 0x031, 0x032, 0x040, 0x043, 0x047], sysNumber n = true ∧ ¬ (0x020 ≤ n ∧ n ≤ 0x022) := by decide +kernel
theorem witness_GuardOffDoesNothing : base.here.guardOn gOff = false ∧ base.here.guardOn ⟨false, 11⟩ = false ∧ base.rowBlocked base.here = false ∧
    (let s := core0 2 fun c => { c with rowPath := some ⟨0, true, some 0, 0, 16⟩ }
     s.here.guardOn gOff = false ∧ s.rowBlocked s.here = true) := by decide +kernel
theorem witness_LoopCounts : (xs [(7, 2)]).here.guardOn g0 = true ∧ 1 < ((xs [(7, 2)]).readX (xs [(7, 2)]).here 7).toNat ∧
    0 < (xs [(7, 2)]).here.nbundles ∧ ((xs [(7, 1)]).readX (xs [(7, 1)]).here 7).toNat ≤ 1 := by decide +kernel

/-- Nine bundles, with b0 to b3 at bundle 8, the last of them. -/
def branchy : State := core0 0 fun c => { c with nbundles := 9, b := [(0, 0x100), (1, 0x100), (2, 0x100), (3, 0x100)] }
/-- Nine bundles, with b0 to b3 just beyond the last of them. -/
def beyond : State := core0 0 fun c => { c with nbundles := 9, b := [(0, 0x120), (1, 0x120), (2, 0x120), (3, 0x120)] }
/-- Bad branch values: no multiple of 32, and above bit 17. -/
def badB (w : Word) : State := core0 0 fun c => { c with x := [(7, 2)], b := [(2, w)] }
theorem witness_ControlTransfers : branchy.here.guardOn g0 = true ∧ 8 < branchy.here.nbundles ∧ 8 < 8192 ∧
    (∀ n ∈ [0, 1, 2, 3], Tab.get 0 branchy.here.b n = BitVec.ofNat 64 (32 * 8)) ∧ branchy.here.nbundles ≤ 9 ∧
    mbrHolds branchy.here 0 = true ∧ mbrHolds branchy.here 16 = false ∧ mbrHolds branchy.here 27 = true ∧
    (badB 1).here.guardOn g0 = true ∧ (Tab.get 0 (badB 1).here.b 2).toNat % 32 ≠ 0 ∧ 2 ^ 18 ≤ (Tab.get 0 (badB 0x40000).here.b 2).toNat ∧
    beyond.here.guardOn g0 = true ∧ beyond.here.nbundles ≤ 9 ∧ (∀ n ∈ [0, 1, 2, 3], let w : Word := Tab.get 0 beyond.here.b n
      w.toNat % 32 = 0 ∧ w.toNat < 2 ^ 18 ∧ beyond.here.nbundles ≤ w.toNat / 32) ∧
    1 < ((badB 1).readX (badB 1).here 7).toNat := by decide +kernel
theorem witness_WaitsAndTiles : (xs [(1, 2)]).here.guardOn g0 = true ∧
    (let s := xs [(1, 2)]; s.now s.here + 1 < ((s.readX s.here 1).toNat + 0) % 2 ^ 64) ∧
    (let s := xs [(1, 1)]; ((s.readX s.here 1).toNat + 0) % 2 ^ 64 ≤ s.now s.here + 1) ∧ 0 < 1 ∧
    (Tab.find base.parts base.here.part).isSome = true ∧ (base.launch base.here.part base.here.launch) = some launch0 ∧
    launch0.tile < launch0.tilesx * launch0.tilesy ∧ launch0.order = 0 ∧ launch0.tilesx * launch0.tilesy < 2 ^ 32 := by decide +kernel
/-- The launch at its last tile, in the other order, and beyond it. -/
def tileAt (n order : Nat) : Launch := { launch0 with tile := n, order := order }
theorem witness_WaitsAndTiles_ends : (tileAt 2 1).tile < (tileAt 2 1).tilesx * (tileAt 2 1).tilesy ∧ (tileAt 2 1).order ≠ 0 ∧
    (tileAt 3 0).tilesx * (tileAt 3 0).tilesy ≤ (tileAt 3 0).tile := by decide
theorem witness_Traps : base.here.guardOn g0 = true ∧ 2 ^ 16 - 1 < 2 ^ 16 ∧ (Tab.find base.parts (base.core 0).part).any (fun q => !q.held) = true := by
  decide +kernel

/-- A launch of 2 × 2 cores. -/
def square : State := base.modPart 0 fun q => { q with launches := [(0, { launch0 with gw := 2, gh := 2, members := [0, 1, 16, 17] })] }
theorem witness_Barriers : square.here.guardOn g0 = true ∧ (Tab.find square.parts square.here.part).isSome = true ∧
    (square.launch square.here.part square.here.launch).any (fun l => l.codeOk 0x11 && !l.codeOk 0x21 && !l.codeOk 0x12) = true := by decide +kernel
theorem witness_ExitAndYield : base.here.guardOn g0 = true ∧ (base.launch base.here.part base.here.launch).isSome = true ∧ base.here.lease = 0 ∧
    (base.ctx base.here.part base.here.asid).isSome = true := by decide +kernel

/-! ### Slot L -/

theorem witness_AccessesEnterTheQueues : base.here.guardOn g0 = true ∧ 2 ^ 11 - 1 < 2 ^ 11 ∧ (byteAddr (xs [(1, 0x1FFFF8)]) 1 0).toNat % 8 = 0 ∧
    spadAt 0 (byteAddr (xs [(1, 0x1FFFF8)]) 1 0).toNat 8 = some (0, 0x1FFFF8) ∧ (byteAddr (xs [(1, 0x1800000)]) 1 0x7F8).toNat % 8 = 0 ∧
    spadAt 0 (byteAddr (xs [(1, 0x1800000)]) 1 0x7F8).toNat 8 = some (17, 0x1FFFF8) ∧
    ((xs [(1, 0x1200004)]).readX (xs [(1, 0x1200004)]).here 1).toNat % 4 = 0 ∧
    spadAt 0 ((xs [(1, 0x1200004)]).readX (xs [(1, 0x1200004)]).here 1).toNat 4 = some (1, 4) ∧ base.here.reqs = [] := by decide +kernel
theorem witness_ScratchpadAddresses : 0 < 8 ∧ 8 ≤ 2 ^ 21 ∧ 0x1FFFF8 + 8 ≤ 2 ^ 21 ∧ 0x11FFFFF + 1 ≤ 12 * 2 ^ 21 ∧
    2 ^ 21 < 0x1FFFF9 + 8 ∧ 0x1FFFF9 < 9 * 2 ^ 21 ∧ 1 ≤ 3 ∧ 2 ^ 21 - 7 < 2 ^ 21 ∧ 2 ^ 21 < (2 ^ 21 - 7) + 8 ∧ 12 * 2 ^ 21 < (12 * 2 ^ 21 - 7) + 8 ∧
    (byteAddr (xs [(1, 1)]) 1 0).toNat % 2 ≠ 0 ∧ spadAt 0 (byteAddr (xs [(1, 0x200000)]) 1 0).toNat 8 = none ∧ spadAt 0 (byteAddr base 1 0x7F8).toNat 8 = none ∧
    ((xs [(1, 2)]).readX (xs [(1, 2)]).here 1).toNat % 4 ≠ 0 ∧ 2 ^ 11 - 1 < 2 ^ 11 ∧
    (let s := xs [(1, 0x1FF100), (2, 0x100)]
     let strided := fun (j : Nat) => s.readX s.here 1 + BitVec.ofNat 64 j * s.readX s.here 2
     s.here.guardOn g0 = true ∧ s.rowBlocked s.here = false ∧ spadAt s.cur.core (strided 15).toNat 256 = none ∧
     ∀ h, h < 15 → (strided h).toNat % 64 = 0 ∧ spadAt s.cur.core (strided h).toNat 256 ≠ none) ∧
    (let s := xs [(1, 1)]
     s.rowBlocked s.here = false ∧ (s.readX s.here 1 + BitVec.ofInt 64 (64 * signedField 11 0) + BitVec.ofNat 64 (192 * 0)).toNat % 64 ≠ 0 ∧
     (s.readX s.here 1 + BitVec.ofInt 64 (256 * signedField 7 (0x7FF % 128))).toNat % 64 ≠ 0) := by decide +kernel
theorem witness_RowOperationsEnterTheQueues : base.here.guardOn g0 = true ∧ base.rowBlocked base.here = false ∧
    (let s := atTick 16 (core0 2 fun c => { c with rowPath := some ⟨0, true, some 0, 0, 16⟩ })
     s.here.rowPath ≠ none ∧ s.rowBlocked s.here = false) ∧ 2 ^ 11 - 1 < 2 ^ 11 ∧
    (∀ j, j < 16 → (base.readX base.here 1 + BitVec.ofInt 64 (64 * signedField 11 1) + BitVec.ofNat 64 (256 * j)).toNat % 64 = 0 ∧
      spadAt 0 (base.readX base.here 1 + BitVec.ofInt 64 (64 * signedField 11 1) + BitVec.ofNat 64 (256 * j)).toNat 256 = some (0, 64 + 256 * j)) ∧
    (let s := xs [(1, 0x1000), (2, 0x140)]
     ∀ j, j < 16 → (s.readX s.here 1 + BitVec.ofNat 64 j * s.readX s.here 2).toNat % 64 = 0 ∧
      spadAt 0 (s.readX s.here 1 + BitVec.ofNat 64 j * s.readX s.here 2).toNat 256 = some (0, 0x1000 + 0x140 * j)) ∧
    (let s := xs [(1, 0x1000)]
     (s.readX s.here 1 + BitVec.ofInt 64 (256 * signedField 7 (0x7FF % 128))).toNat % 64 = 0 ∧
      spadAt 0 (s.readX s.here 1 + BitVec.ofInt 64 (256 * signedField 7 (0x7FF % 128))).toNat 256 = some (0, 0xF00)) := by decide +kernel

/-- A copy of one beat from address 0 to address 0 of the own scratchpad. -/
def copy0 : Copy := ⟨0, 0, .timed, 0, [], 0, 0, 0, 1, 20, some 1, 1, 12, 0, [], [], [], [], [], [], none, none, 0, 0, 0, 0, [], false, false, none⟩
/-- A full queue of stream n. -/
def full (n : Nat) : State := core0 (6 + n) fun c => c.setStream n { c.ca with copies := (List.range 16).map fun i => { copy0 with id := i } }
theorem witness_BusyPathsTrap : (let s := core0 2 fun c => { c with rowPath := some ⟨0, true, some 0, 0, 16⟩ }
      effective s = some 0 ∧ s.here.rowPath = some ⟨0, true, some 0, 0, 16⟩ ∧ 0 < 0 + 16) ∧
    (∀ n ∈ [0, 1], (full n).here.guardOn g0 = true ∧ (full n).cur.slot = 6 + n ∧
      16 ≤ (((full n).here.stream n).copies.filter fun y => y.queued ((full n).now (full n).here)).length) := by decide +kernel

def req (kind : ReqKind) : Req := ⟨1, 0, kind, 0, 0x40, 0, 0, 8, some 0, 0, false⟩
theorem witness_PerformFrame : ∀ st id b, (req (.st 8 0)).kind ≠ .src st id b ∧ (req (.st 8 0)).kind ≠ .idx st id b ∧
    (req (.ld 3 8 true)).kind ≠ .desc st id := by intro _ _ _; simp [req]
theorem witness_AccessBytes : Memory.wf base.mem = true ∧ base.hits = [] ∧ base.quiet 0 = true ∧
    (∀ kd ∈ [ReqKind.st 8 0, .vst 2 15 false (some 0), .vst 2 15 true (some 0), .amo 8 3 4 0, .amo 0 3 8 0], (2, (req kd).t) ∉ (base.core 0).spoilt) ∧
    7 < 8 ∧ 255 < 256 ∧ 63 < 64 ∧ 2 < 3 ∧
    (∀ wr ∈ [Write.x 3 0, .row 2 15 (BitVec.allOnes 64) 0],
      let l : Land := ⟨1, 1, 0, false, false, wr⟩
      let s := core0 2 fun c => { c with lands := [l] }
      s.quiet 0 = true ∧ s.hits = [] ∧ l ∈ (s.core 0).lands ∧
      ∀ kd ∈ [ReqKind.ld 3 8 true, .ld 3 1 false, .amo 8 3 4 0, .vld 2 15 true, .vld 2 15 false], (2, (req kd).t) ∉ (s.core 0).spoilt ∧ (req kd).e = some 0 ∧ l.seq = (req kd).seq) ∧
    (let s := core0 2 fun c => { c with reqs := [req (.vst 2 0 false none)] }
     req (.vst 2 0 false none) ∈ s.here.reqs ∧ (req (.vst 2 0 false none)).e = some 0 ∧ 0 + (req (.vst 2 0 false none)).off = s.now s.here ∧
     s.here.vAhead (s.now s.here) (s.now s.here) 2 0 = 0) := by decide +kernel

/-! ### Vector slots -/

theorem witness_FloatVectorOperationsStart : ∀ n ∈ [3, 4], (core0 n id).here.guardOn g0 = true ∧
    (if (core0 n id).cur.slot = 3 then (core0 n id).here.vaFree else (core0 n id).here.vbFree) ≤ (core0 n id).now (core0 n id).here := by decide +kernel
theorem witness_IntegerVectorOperationsStart : (core0 4 fun c => { c with vaFree := 16 }).here.guardOn g0 = true ∧
    (core0 4 fun c => { c with vaFree := 16 }).here.maskOpen 0 7 = false ∧ unitFree (core0 4 fun c => { c with vaFree := 16 }) := by
  refine ⟨by decide +kernel, by decide +kernel, ?_⟩
  unfold unitFree
  decide +kernel
theorem witness_VectorUnitIntervals : ¬ unitFree (core0 3 fun c => { c with vaFree := 1 }) ∧ unitFree (core0 3 id) ∧
    (core0 3 id).here.guardOn gOff = false := by
  refine ⟨?_, ?_, by decide +kernel⟩ <;> unfold unitFree <;> decide +kernel
/-- An operation that issued at tick 0, at row i. -/
def vop (fn : VFn) : VOp := ⟨1, 0, fn, 2, 1, 3, 0, 0, 0, 3, [], [], [], []⟩
theorem witness_IntegerRows : (∀ i, i < 16 → (atTick i base).now base.here = (vop .addI).t + i) ∧ 31 < 32 ∧
    ((vop .addI).slot, (vop .addI).t) ∉ base.here.spoilt ∧ base.srcUndefined base.here (vop .addI) 0 = false ∧
    base.here.vAhead (base.now base.here) (vop .addI).t 31 15 = 0 ∧ base.here.vOpen (base.now base.here) 31 15 = 0 ∧ base.here.kOpen (base.now base.here) 7 15 = 0 ∧
    (base.srcOpen base.here (vop .addI) 31 15).getLsbD 63 = false ∧
    (∀ fn ∈ [VFn.dot .i8 .i8 false, .dot .n8 .i8 true, .dot .n8 .n8 true, .sllI 31, .splat 7], (vop fn).fn = fn) := by decide +kernel
theorem witness_MaskRows : (atTick 15 base).now base.here = (vop .eqI).t + 15 ∧ ((vop .eqI).slot, (vop .eqI).t) ∉ base.here.spoilt ∧
    (∀ fn ∈ [VFn.eqI, .geuI, .eqF, .unordF, .kand, .kmov], (vop fn).fn = fn ∧ base.srcUndefined base.here (vop fn) 0 = false) := by decide +kernel
theorem witness_RowAndColumnMoves : (atTick 15 base).now base.here = (vop (.rotr 63)).t + 15 ∧ 15 < 16 ∧ 63 < 64 ∧ 3 < 4 ∧
    ((vop (.rotr 63)).slot, (vop (.rotr 63)).t) ∉ base.here.spoilt ∧ ((base.readK base.here 0 15).getLsbD 63 = true) ∧ 63 = 16 * 3 + 15 ∧ 15 < 16 * 1 ∧ 16 * 1 + 16 ≤ 32 ∧
    (∀ fn ∈ [VFn.redrSumI, .redrMaxI, .redrMinI], (vop fn).fn = fn ∧ (atTick 15 base).srcUndefined base.here (vop fn) 15 = false) := by decide +kernel
theorem witness_FloatRows : (atTick 15 base).now base.here = (vop (.addF .rdn)).t + 15 ∧ ((vop (.addF .rsr)).slot, (vop (.addF .rsr)).t) ∉ base.here.spoilt ∧
    (∀ fn ∈ [VFn.addF .rsr, .fms .rdn, .scaF .rne, .minF, .absF, .rndF .rup, .rcpe, .rcps .rne, .fexp, .lg2e, .rngF],
      base.srcUndefined base.here (vop fn) 0 = false) ∧
    (∀ fn ∈ [VFn.redrSumF, .redrMaxF, .redrMinF], (atTick 15 base).srcUndefined base.here (vop fn) 15 = false) ∧
    Fmt.f32 ≠ .i64 ∧ min (fmtPerLane .f32) (fmtPerLane .f8a) = 1 := by decide +kernel
theorem witness_FloatRows_functions : (∀ fn, (vop fn).fn = fn) ∧ (vop (.cvt .i64 .f32 .rne true)).fn = .cvt .i64 .f32 .rne true := ⟨fun _ => rfl, rfl⟩
theorem witness_FloatRows_codes :
    ([0x00000001, 0x7F7FFFFF, 0x80000001] : List Lane).all (fun w => !f32Nan w && !f32Inf w && !f32Zero w) = true ∧
    ([0x7F800001, 0xFFFFFFFF] : List Lane).all f32Nan = true ∧ f32Sig 0x7FBFFFFF = true ∧ f32Inf 0xFF800000 = true ∧ f32Zero 0x80000000 = true ∧
    ([0x00000001, 0x3F7FFFFF] : List Lane).all (fun w => decide (0 < w.toNat) && decide (w.toNat < 0x3F800000)) = true ∧ (0x80000001 : Lane).msb = true ∧
    0x3F800000 ≤ (0x3F800000 : Lane).toNat := by
  decide +kernel
theorem witness_FloatRows_conversions : 0x7F < 2 ^ fmtWidth .i8 ∧ 0xFF < 2 ^ fmtWidth .n8 ∧ Fmt.isFloat .i8 = false ∧ Fmt.isFloat .f8b = true ∧
    (intMin .i4 ≤ decodeI .i8 7 ∧ decodeI .i8 7 ≤ intMax .i4) ∧ ¬ (decodeI .i8 8 ≤ intMax .i4) ∧ ¬ (intMin .i4 ≤ decodeI .i8 0xF7) ∧ ¬ (decodeI .i8 2 ≤ intMax .trn) ∧
    decodeI .i8 0x80 ≠ 0 ∧ decodeI .trn 2 = 0 ∧ decodeF .f32 0xFF7FFFFF = .fin true 16777215 104 ∧
    (let t := rint true 16777215 104 .rne 0
     ¬ (intMin .i32 ≤ t.1)) ∧
    (let t := rint false 1 (-1) .rup 0
     intMin .i32 ≤ t.1 ∧ t.1 ≤ intMax .i32) ∧
    decodeF .h16 0x7C01 = .nan true ∧ decodeF .h16 0xFFFF = .nan false ∧ fmtNan .f4 = none ∧ fmtNan .b16 = some 0x7FC0 ∧
    decodeF .b16 0xFF80 = .inf true ∧ fmtInf .f8b = some 0x7C ∧ fmtInf .f8a = none := by decide +kernel
theorem witness_RoundToNearest : Fmt.f4.isFloat = true ∧ 0xF < 2 ^ fmtWidth .f4 ∧ 0xF % 2 ^ (fmtWidth .f4 - 1) ≤ fmtMaxCode .f4 ∧
    decodeF .f32 0xFF7FFFFF = .fin true 16777215 104 ∧ 0xFF7FFFFF % 2 ^ 31 ≤ fmtMaxCode .f32 ∧ 65535 < 2 ^ 16 ∧
    (rnd true 16777215 104 .f32 .rne 0 false).2.getLsbD 2 = false ∧ (rnd false 16777217 0 .f32 .rne 0 false).2.getLsbD 2 = false := by decide +kernel
theorem witness_RoundToNearest_integers : (∃ z : Int, valueOf (.fin true 1 0) = z) ∧ ∀ z : Int, valueOf (.fin false 1 (-1)) ≠ z := by
  refine ⟨⟨-1, by norm_num [valueOf]⟩, fun z h => ?_⟩
  have h2 : (1 : ℚ) = (2 * z : Int) := by
    push_cast
    rw [← h]
    norm_num [valueOf]
  have h3 : (1 : Int) = 2 * z := by exact_mod_cast h2
  omega

/-! ### Slot M -/

def mcmd (s : Nat) : Cmd := ⟨1, 1, .zero 0, 0, s, s + 16, [], false, [], [], 0, [], 0⟩
/-- Core 0 as the holder of the lease of its unit since tick 0, at tick n, with these commands and shadow registers. -/
def holder (n : Nat) (cmds : List Cmd) (sh : Tab Word) : State :=
  (atTick n (core0 5 fun c => { c with lease := 2, cmds := cmds, shadow := sh })).modUnit 0 fun u => { u with st := .leased, h := 0, wload := some (1, .trn) }
theorem witness_LeasesAndCommandRegisters : base.here.guardOn g0 = true ∧ base.here.lease = 0 ∧ (holder 0 [] []).here.lease = 2 ∧
    (core0 5 fun c => { c with lease := 1 }).here.lease = 1 ∧ ((holder 0 [] []).unit 0).relAt = none ∧ ((holder 0 [] []).unit 0).cmds < 64 ∧
    (∀ y ∈ (holder 1 [mcmd 1] []).here.cmds, ¬ (y.t < (holder 1 [mcmd 1] []).now (holder 1 [mcmd 1] []).here ∧
      (holder 1 [mcmd 1] []).now (holder 1 [mcmd 1] []).here < y.s)) ∧
    (∃ y ∈ (holder 1 [mcmd 2] []).here.cmds, y.t < (holder 1 [mcmd 2] []).now (holder 1 [mcmd 2] []).here ∧
      (holder 1 [mcmd 2] []).now (holder 1 [mcmd 2] []).here < y.s) ∧ 31 < 32 ∧ 2 ^ 13 - 1 < 2 ^ 13 := by decide +kernel

/-- Shadow registers within the limits: M 4, K 8, NCOL 16, and the strides of the tables. -/
def shadow0 : Tab Word := [(0x00, 4), (0x01, 8), (0x02, 16), (0x07, 16), (0x0B, 8)]
theorem witness_MatrixCommands_accepted : (let s := holder 0 [] shadow0
     let u := s.unit (unitOf s.cur.core)
     let start := max (s.now s.here + 1) u.clast
     s.here.guardOn g0 = true ∧ s.here.cmds = [] ∧ s.here.lease = 2 ∧ u.cmds < 64 ∧ start + 1032 ≤ u.g + 16384 ∧
     u.wload.map (·.2) = some .trn ∧ start + creg s.here.shadow 0 * rowTicks .trn .i8 ≤ u.g + 16384 ∧
     start + creg s.here.shadow 1 * lineCount (creg s.here.shadow 2) .trn ≤ u.g + 16384 ∧
     ∀ op ∈ [MOp.wld .trn, .wldp 0 .trn, .wldp 1 .trn, .mma .trn .i8 3 false, .mma .trn .i8 3 true, .zero 3, .drv 31 3 1, .drs 0x100000 3],
       op.limitsOk s.here.shadow = true ∧ op.rangeOk s.here.shadow = true) := by decide +kernel
theorem witness_MatrixCommands_rejected : (let s := holder 0 [mcmd 1] []
      ∃ y ∈ s.here.cmds, s.now s.here < y.s) ∧
    (let s := core0 5 id;
      (∀ y ∈ s.here.cmds, ¬ s.now s.here < y.s) ∧ s.here.lease ≠ 2) ∧
    (let s := holder 16368 [] []
      let u := s.unit (unitOf s.cur.core)
      s.here.lease = 2 ∧ u.g + 16384 < max (s.now s.here + 1) u.clast + 16) ∧
    (let s := (holder 16367 [] []).modUnit 0 fun u => { u with cmds := 64 }
      let u := s.unit (unitOf s.cur.core)
      s.here.lease = 2 ∧ max (s.now s.here + 1) u.clast + 16 ≤ u.g + 16384 ∧ 64 ≤ u.cmds) ∧
    (let s := holder 0 [] shadow0
      let u := s.unit (unitOf s.cur.core)
      max (s.now s.here + 1) u.clast + creg s.here.shadow 0 * rowTicks .i8 .i8 ≤ u.g + 16384 ∧ u.cmds < 64 ∧ u.wload.map (·.2) ≠ some .i8) ∧
    (let s := holder 0 [] [(0x01, 0), (0x18, 0)]
      let u := s.unit (unitOf s.cur.core)
      s.here.lease = 2 ∧ max (s.now s.here + 1) u.clast + creg s.here.shadow 0 * rowTicks .trn .i8 ≤ u.g + 16384 ∧ u.cmds < 64 ∧ u.wload.map (·.2) = some .trn ∧
      ¬ 1 ≤ creg s.here.shadow 1 ∧ max (s.now s.here + 1) u.clast + 1032 ≤ u.g + 16384 ∧ ¬ 512 ≤ creg s.here.shadow 0x18) ∧
    (let s := holder 0 [] [(0x00, 4), (0x01, 8), (0x02, 16), (0x04, 2 ^ 21), (0x18, 2 ^ 20)]
      let u := s.unit (unitOf s.cur.core)
      let lines := creg s.here.shadow 1 * lineCount (creg s.here.shadow 2) .trn
      max (s.now s.here + 1) u.clast + lines ≤ u.g + 16384 ∧ creg s.here.shadow 4 % 64 = 0 ∧ creg s.here.shadow 5 % 64 = 0 ∧
      ¬ creg s.here.shadow 4 + (creg s.here.shadow 1 - 1) * creg s.here.shadow 5 + 64 * lineCount (creg s.here.shadow 2) .trn ≤ 2 ^ 21 ∧
      creg s.here.shadow 0x18 % 64 = 0 ∧ 512 ≤ creg s.here.shadow 0x18 ∧ ¬ (s.readX s.here 0).toNat + 127 * creg s.here.shadow 0x18 + 512 ≤ 2 ^ 21) ∧
    (let s := holder 0 [] (shadow0 ++ [(0x06, 2 ^ 21)])
      let u := s.unit (unitOf s.cur.core)
      max (s.now s.here + 1) u.clast + creg s.here.shadow 0 * rowTicks .trn .i8 ≤ u.g + 16384 ∧
      (MOp.mma .trn .i8 3 false).limitsOk s.here.shadow = true ∧ 0 < creg s.here.shadow 0 ∧ 0 < creg s.here.shadow 1 ∧
      ∃ b ∈ aelemBytes s.here.shadow .i8 0 0, ¬ b < 2 ^ 21) := by
  decide +kernel
theorem witness_MatrixRow : ssa .trn = true ∧ ssa .i8 = true ∧ 127 < 128 ∧ creg [(0x02, 128)] 0x02 ≤ 128 := by decide +kernel

/-! ### Copy slots -/

def copier : State := core0 7 id
theorem witness_CopiesEnterTheQueue :
    (let s := copier
     let asked := fun (kind : CopyKind) v first dist => newCopy s.here 1 0 kind 0 0 v first dist
     s.here.guardOn g0 = true ∧ s.copyTrap 0 s.here 1 0 (asked .timed 12 1 12) true = none ∧
     s.copyTrap 0 s.here 1 0 (asked .cpl 0 1 12) true = none ∧ s.copyTrap 0 s.here 1 0 (asked .send 0 1 256) true = none ∧
     s.copyTrap 0 s.here 1 0 (asked .recv 1 1 12) true = none ∧ (s.here.stream 1).xmark = none) ∧
    31 < 32 ∧ 63 < 64 ∧ 2 ^ 11 - 1 < 2 ^ 11 ∧ 1 ≠ 0 := by decide +kernel
def bind0 : RangeBind := ⟨5, 0, 0, 0x1000, true, true, true, false, false, 0, 1⟩
theorem witness_TensorAndSealOperations :
    (let s := core0 6 fun c => { c with ca := { c.ca with rb := [(63, bind0)] }, x := [(7, 0x1FFFC0)] }
     s.here.guardOn g0 = true ∧ Tab.find (s.here.stream 0).rb 63 = some bind0 ∧ Tab.find (s.here.stream 0).rb 0 = none ∧
     ((s.here.stream 0).copies.filter fun y => y.queued (s.now s.here)).length < 16 ∧ (s.here.stream 0).copies = [] ∧ (s.readX s.here 7).toNat % 64 = 0 ∧
     (s.readX s.here 7).toNat + 64 ≤ 2 ^ 21) := by decide +kernel

/-! ### Events of the two clocks -/

def part0 (f : Part → Part) : State := base.modPart 0 f
def q0 (s : State) : Part := s.part 0
def ctx1 (f : Ctx → Ctx) : State := base.modCtx 0 1 f
def stopped : StopRec := ⟨0, 1, 0, 0, ⟨6, 0, 0, 0⟩, 0, 0, 0, none⟩
theorem witness_HoldEvents : (Tab.find base.parts 0).isSome = true ∧ 1 ≤ 6 ∧
    (let q := q0 (part0 fun q => { q with reqs := [⟨1, 0, false, 0⟩] })
     q.held = false ∧ (∃ r ∈ q.reqs, r.h ≤ q.stime) ∧ (∀ e ∈ q.ctxs, e.2.halt = none) ∧ ∀ r ∈ q.reqs, r.h ≤ q.stime → r.cause ≠ 4) ∧
    (let q := q0 (part0 fun q => { q with reqs := [⟨1, 1, false, 0⟩] })
     ∀ r ∈ q.reqs, q.stime < r.h) ∧
    (let q := q0 (part0 fun q => { q with held := true, resumeAt := some 0 })
     q.held = true ∧ q.resumeAt = some 0 ∧ 0 ≤ base.wtime ∧ q.pend = none ∧ { q with pend := some 0 }.pend = some 0 ∧ 0 ≤ q.stime) ∧
    (let q := q0 (part0 fun q => { q with held := true, causes := [⟨6, 0, false, 0⟩, ⟨5, 0, true, 0⟩] })
     q.held = true ∧ q.resumeAt = none ∧ (∀ r ∈ q.causes, r.cause = 6 ∨ r.cleared = true) ∧ ∀ e ∈ q.ctxs, e.2.halt = none) ∧
    (q0 base).unlocked = false ∧ (q0 (part0 fun q => { q with unlocked := true })).unlocked = true ∧
    (let q := q0 (part0 fun q => { q with held := true, causes := [⟨6, 0, true, 0⟩, ⟨5, 0, false, 0⟩] })
     ∀ r ∈ q.causes, r.cause = 5 ∨ r.cleared = true) := by decide +kernel
theorem witness_HoldEvents_budget :
    (let s := ctx1 fun x => { x with st := .halted, halt := some ⟨0, [(0, 1, 0)], [0]⟩, stops := [(0, stopped)], rcount := 1 }
     (q0 s).ctxs.map (·.1) = [1] ∧ (s.ctx 0 1).any (fun x => x.halt == some ⟨0, [(0, 1, 0)], [0]⟩ && x.st == .halted && x.stops == [(0, stopped)] &&
       x.armed == none && !x.spoiled && decide (0 < x.rcount)) = true ∧ (s.core 0).due = []) ∧ stopped.kind = 1 ∧ stopped.core = 0 ∧ stopped.trap.cause = 6 := by decide +kernel
theorem witness_RateAndServoEvents :
    (let q := q0 (part0 fun q => { q with next := 8, pend := some 0 })
     q.held = false ∧ q.pend = some 0 ∧ 0 ≤ q.stime) ∧
    (let q := q0 base
     q.limit < [301].getD 0 0 ∧ 4 < q.next ∧ q.held = false ∧ q.pend = none ∧ base.wtime % 16384 = 0 ∧ { base with wtime := 16383 }.wtime % 16384 ≠ 0) ∧
    (let q := q0 (part0 fun q => { q with next := 4, calm := 3 })
     q.limit < [301].getD 0 0 ∧ q.next ≤ 4 ∧ [284].sum ≤ 2400 ∧ 100 * [284].getD 0 0 < 95 * q.limit ∧ 3 ≤ q.calm ∧ q.next < 16) ∧
    (∀ st ∈ [ServoSt.free, .holdover], let v : Servo := ⟨st, 0, 0, 0, [1, 2], [], 0, false⟩
      v.order = [1] ++ 2 :: [] ∧ 2 ∈ [3, 2] ∧ (∀ x ∈ [1], x ∉ [3, 2] ∧ x ≠ v.src) ∧ (v.st = .free ∨ v.st = .holdover)) ∧
    State.reset.everPart = false ∧ State.reset.servo.stepped = false ∧ { State.reset with everPart := true }.everPart = true ∧ (0 : Int) ≤ 7 ∧
    (-8 < (7 : Int) ∧ (7 : Int) < 8 ∧ (8 : Int) ≤ 8 ∧ (-8 : Int) ≤ -8) ∧ (⟨.acquiring, 0, 0, 0, [2], [2], 15, false⟩ : Servo).good = 15 ∧
    (let v : Servo := ⟨.locked, 0, 0, 2, [2], [2], 0, true⟩
     v.st = .locked ∧ (∀ x ∈ v.order, x ∉ v.present.filter fun x => x != v.src) ∧ 2 ∈ v.present ∧ v.src = 2) ∧
    (let v : Servo := ⟨.locked, 0, 0, 2, [1, 3, 2], [2, 3], 0, true⟩
     let left := v.present.filter fun x => x != v.src
     v.order = [1] ++ 3 :: [2] ∧ 3 ∈ left ∧ ∀ x ∈ [1], x ∉ left) ∧
    (let v : Servo := ⟨.free, 0, 0, 0, [], [2], 0, false⟩
     v.st = .free ∧ 2 ∈ v.present ∧ 2 ≠ 0) := by decide +kernel
theorem witness_PowerAndTestEvents : 7 < 8 ∧ State.reset.journal = [] ∧ State.reset.kept = [] ∧
    (let s := { State.reset with bootStep := 255 }
     s.power = true ∧ s.bootStep = 255) ∧
    (let s := { State.reset with stepNow := some (8, 255, 1), servo := { State.reset.servo with st := .locked } }
     s.stepNow = some (8, 255, 1) ∧ s.servo.st = .locked) ∧ 2 ^ 40 - 1 < 2 ^ 40 ∧ 6 * 2 ^ 32 - 1 < 6 * 2 ^ 32 ∧ Tab.get 0 (State.reset.die 7).counts (6 * 2 ^ 32 - 1) = 0 ∧
    511 < 512 ∧ (q0 (part0 fun q => { q with ctxs := [] })).ctxs = [] ∧ (q0 (part0 fun q => { q with destroying := true })).destroying = true ∧
    (q0 base).destroying = false := by decide +kernel

/-! ### Events of cores and launches -/

theorem witness_BundleEvents : (base.core 0).st = .running ∧ (base.core 0).due = [] ∧ (base.core 0).exit = none ∧ (base.core 0).wait = none ∧
    (base.core 0).budget ≠ 0 ∧ (base.core 0).pc < (base.core 0).nbundles ∧ (base.core 0).dly = 0 ∧
    (∀ n ∈ [1, 2], ((core0 0 fun c => { c with dly := n }).core 0).dly = n) ∧
    (let c := (core0 0 fun c => { c with wait := some (.until' 1) }).core 0
     c.wait ≠ none ∧ c.st = .running ∧ base.now c < 1) ∧
    ((core0 0 fun c => { c with budget := 0 }).core 0).budget = 0 ∧
    (let c := (core0 0 fun c => { c with pc := 1 }).core 0
     c.nbundles ≤ c.pc ∧ c.budget ≠ 0) ∧ 0 ≤ base.now (base.core 0) := by decide +kernel
def landed (w : Write) : Land := ⟨1, 0, 0, true, false, w⟩
theorem witness_ResultsLand : ∀ w ∈ [Write.x 31 1, .x 0 1, .p 11 true, .q 3 1, .krow 7 15 1 1, .row 31 15 1 1, .sys 0x021 1],
    (let s := core0 0 fun c => { c with lands := [landed w] }
     (s.core 0).lands = [landed w] ∧ (s.core 0).vops = [] ∧ (s.core 0).cmds = [] ∧ (s.core 0).reqs = [] ∧ (landed w).ready = true ∧
     (landed w).hi ≤ s.now (s.core 0)) := by decide +kernel
theorem witness_BanksServeOncePerTick :
    (let s := (atTick 8 (core0 0 fun c => { c with reqs := [req (.amo 0 3 8 0)] })).askBanks 0
     (s.core 0).cmds = [] ∧ s.served 0 = [(0, req (.amo 0 3 8 0))] ∧ (s.performOne (0, req (.amo 0 3 8 0))).firstOwed 0 = none) ∧
    (let s := (atTick 8 (core0 0 fun c => { c with reqs := [req (.ld 3 8 true)], lastLd := 8 })).askBanks 0
     s.served 0 = [] ∧ s.firstOwed 0 = some (0, req (.ld 3 8 true)) ∧ (s.performOne (0, req (.ld 3 8 true))).firstOwed 0 = none) ∧
    (base.askBanks 0).served 0 = [] ∧ (base.askBanks 0).firstOwed 0 = none := by decide +kernel
/-- Launch 0 with its one core in a state. -/
def launch (y : Launch) (f : Core → Core) : State := (core0 0 f).modPart 0 fun q => { q with launches := [(0, y)] }
theorem witness_LaunchEvents :
    (let s := launch { launch0 with running := false } fun c => { c with st := .bound }
     (s.part 0).held = false ∧ launch0.start ≤ (s.part 0).stime ∧ (s.ctx 0 1).any (fun x => x.st == .active && x.ctoff == 0) = true ∧
     ∀ j ∈ launch0.members, (s.core j).ftick ≤ (s.part 0).stime) ∧
    (let s := launch launch0 fun c => { c with exit := some 0, st := .idle }
     s.events = [] ∧ launch0.running = true ∧ ∀ j ∈ launch0.members, (s.core j).exit.isSome = true ∧ (s.core j).st = .idle ∧ (s.core j).launch = 0 ∧
       (s.core j).ca.copies ++ (s.core j).cb.copies = []) ∧
    (let y := { copy0 with kind := .timed }
     let s := atTick 20 (launch launch0 fun c => { c with exit := some 0, st := .idle, ca := { c.ca with copies := [y] } })
     y.last ≤ s.now (s.core 0) ∧ (y.window (y.reads - 1)).2 ≤ s.now (s.core 0)) := by decide +kernel
theorem witness_ExitAndBarrierEvents :
    (let s := atTick 1 (launch launch0 fun c => { c with exit := some 0 })
     let c := s.core 0
     c.part = 0 ∧ c.launch = 0 ∧ c.st = .running ∧ c.exit = some 0 ∧ 0 < s.now c ∧ c.bound ≤ s.now c ∧ c.lands = [] ∧ c.vops = [] ∧ c.cmds = [] ∧
     (∀ r ∈ c.reqs, r.isL = false) ∧ c.due = []) ∧
    (∀ b ∈ [(⟨scopeExit launch0 0, 1, [(0, 0)], some 1, [], true⟩ : Barrier), ⟨scopeExit launch0 0, 1, [(16, 0)], none, [], false⟩],
      b.over' = true ∨ ∀ a ∈ b.arrived, a.1 ≠ 0) ∧
    (let b : Barrier := ⟨scopeExit launch0 0, 1, [(0, 0)], none, [], false⟩
     b.scope = scopeExit launch0 0 ∧ b.over' = false ∧ (0, 0) ∈ b.arrived) ∧
    (∃ b ∈ [(⟨1, 1, [(0, 0)], some 9, [], false⟩ : Barrier)], b.scope = 1 ∧ b.n = 1 ∧ b.r ≠ none ∧ b.over' = false) ∧
    (let c := (launch { launch0 with bars := [⟨1, 1, [(0, 0)], none, [], false⟩] } fun c => { c with wait := some (.barrier 1 1), budget := 0 }).core 0
     c.part = 0 ∧ c.launch = 0 ∧ c.wait = some (.barrier 1 1) ∧ c.budget = 0 ∧ c.st = .running) := by decide +kernel
/-- Whether the core at a position of unit 0 asks for the lease. -/
def wants (s : State) (pos : Nat) : Bool :=
  let c := s.core (unitCore 0 pos)
  c.lease == 1 && decide (c.leaseFrom ≤ s.now c) && !c.mrel
theorem witness_MatrixEvents :
    (let s := core0 0 fun c => { c with lease := 1 }
     (s.unit 0).st = .free ∧ 0 < 4 ∧ wants s (((s.unit 0).h + 1 + 0) % 4) = true) ∧
    (let s := (core0 0 fun c => { c with lease := 1 }).modUnit 0 fun u => { u with h := 0 }
     3 < 4 ∧ wants s (((s.unit 0).h + 1 + 3) % 4) = true ∧ ∀ j, j < 3 → wants s (((s.unit 0).h + 1 + j) % 4) = false) ∧
    (let s := holder 16384 [] []
     (s.unit 0).st = .leased ∧ (s.unit 0).leaseEnd ≤ s.unitTick 0) ∧
    (let s := (atTick 8 base).modUnit 0 fun u => { u with st := .turn }
     (s.unit 0).st = .turn ∧ (s.unit 0).lend + 8 ≤ s.unitTick 0) ∧
    (let s := holder 1 [mcmd 1] []
     ∃ c ∈ (s.core 0).cmds, c.swapped = false ∧ c.s ≤ s.now (s.core 0)) ∧
    (let s := atTick 41 (core0 0 fun c => { c with cmds := [mcmd 1] })
     (s.core 0).cmds = [mcmd 1] ∧ (mcmd 1).c + 24 ≤ s.now (s.core 0) ∧ (s.core 0).lease = 0 ∧ (mcmd 1).swapped = false) ∧
    { mcmd 1 with swapped := true, done := [0] }.finished = true := by decide +kernel

/-! ### Copies, lookups and tensors -/

def copying (y : Copy) (f : Core → Core) : State := core0 6 fun c => f { c with ca := { c.ca with copies := [y] } }
theorem witness_CopyReadsAndLookups :
    (∀ kd ∈ [CopyKind.timed, .send, .cpl],
      (let y := { copy0 with kind := kd }
       ((copying y id).core 0).copy 0 0 = some y ∧ (copying y id).quiet 0 = true ∧ (6 + 0, y.itick) ∉ ((copying y id).core 0).spoilt ∧ y.f 0 = 0 ∧ y.space false = 0 ∧ y.m < 256 ∧ spadAt 0 (y.offset false 0) 64 = some (0, 0) ∧
       spadAt 0 (y.offset true 0) 64 = some (0, 0) ∧ 0 ∉ y.read ∧ 0 ∉ y.bad)) ∧
    (let y := { copy0 with fields := [(0, 1)] }
     let s := copying y id
     let y1 := { y with idx := Tab.put y.idx 0 ((BitVec.ofNat 32 (s.load (padKey 0 (y.f 0x20 + 4 * 0)) 4)).signExtend 64) }
     s.quiet 0 = true ∧ y.f 0 = 1 ∧ Tab.find y.idx 0 = none ∧ y.n = 1 ∧ y.entry 0 = 0 ∧ ∀ o ∈ [0, 1], s.offsetFault 0 (s.core 0) 0 y1 false o (y1.offset false 0) = none) := by
  decide +kernel
/-- A page of context 1 by way of two table entries in station memory: the leaf of 1 GiB at level 2 maps address 0 to HBM offset 0. -/
def paged (f : Core → Core) : State :=
  let s := (copying { copy0 with fields := [(4, 3)] } f).modPart 0 fun q => { q with ptroot := [(1, 1)] }
  (((s.setBytes (stationKey 0 0) (leBytes 2 0x1041)).setBytes (stationKey 0 0x1000) [0x0F]).setOwn true 0 0
    { Own.reset with v := true, asid := 1, pt := true }).setOwn false 0 0 { Own.reset with v := true, asid := 1, pgen := 1 }
def page0 : TlbEntry := ⟨1, 0, 2 ^ 30, 0, false, false, 0, true, true⟩
theorem witness_LookupEvents : (paged id).walk ((paged id).part 0) 1 0 = some page0 ∧ (paged id).rangeHit 0 1 0 = none ∧
    ((paged id).part 0).migration = none ∧ ((paged id).part 0).held = false ∧ (∀ e ∈ (((paged id).core 0).stream 0).tlb, e.holds 1 0 = false) ∧
    (paged id).events = [] ∧ ((paged id).crossWalk 0 0 0).isSome = true ∧ ((paged id).core 0).gone = false ∧ 0 ∉ copy0.present ∧
    (let s := paged fun c => { c with ca := { c.ca with tlb := [page0] } }
     (((s.core 0).stream 0).tlb.find? fun e => e.holds 1 0) = some page0) ∧
    (let q := (paged id).part 0
     let o := (paged id).own false 0 0
     page0.place q 0 = some ⟨false, 0, 0, false, true, 0, 0, 0, 0⟩ ∧ page0.w = true ∧ page0.r = true ∧ o.v = true ∧ o.asid = 1 ∧ o.code = false ∧ o.pt = false ∧
       o.pgen = q.gen) ∧ base.walk (base.part 0) 1 0 = none ∧ (base.crossWalk 0 0 0).isSome = true ∧ 2 ^ 44 - 1 < 2 ^ 44 := by decide +kernel
/-- The tables of context 1 begin on the other die of two, with no circuit between them. -/
def apart : State := base.modPart 0 fun q => { q with dies := [0, 1], ptroot := [(1, 0x21)] }
theorem witness_LookupEvents_apart : apart.crossWalk 0 0 0 = none := by decide +kernel
theorem witness_CopyWritesAndChecks :
    (let y := { copy0 with got := [(0, 1)] }
     let s := copying y id
     (s.core 0).copy 0 0 = some y ∧ s.hits = [] ∧ s.quiet 0 = true ∧ y.space true = 0 ∧ spadAt 0 (y.offset true 0) 64 = some (0, 0) ∧ Tab.find y.got 0 = some 1 ∧
     0 ∉ y.bad ∧ y.stop = none ∧ 0 < 4096) ∧
    (0 ∈ { copy0 with bad := [0] }.bad ∧ { copy0 with stop := some 20 }.stop = some 20 ∧ 20 ≤ copy0.v + 0) ∧
    (let y := { copy0 with kind := .send }
     y.kind = .send ∧ y.stop = none ∧ 0 < (base.part 0).dies.length ∧ (base.core 0).st ≠ .spare ∧ (base.core 0).st ≠ .idle ∧ (base.core 0).st ≠ .fenced) ∧
    (let z : Cmd := { mcmd 0 with op := .wldp 0 .trn, swapped := true }
     let s := core0 6 fun c => { c with cmds := [z], ca := { c.ca with port := [⟨0, 20, 2, 1, [(1, 7)]⟩] } }
     (s.core 0).cmds = [z] ∧ z.s + 0 = s.now (s.core 0) ∧ ((s.core 0).stream 0).port.map (·.used) = [1] ∧ 1 < 2) := by decide +kernel
theorem witness_CopyChecks :
    (let y := { copy0 with m := 256 }
     y.isPresent 0 = false ∧ 0 ∉ y.bad ∧ y.stop = none ∧ 256 ≤ y.m ∧ y.space true ≠ 5 ∧ { y with fields := [(4, 5)] }.space true = 5) ∧ launch0.strict = false ∧ { launch0 with strict := true }.strict = true ∧
    ((copying copy0 id).core 0).gone = false ∧ ((copying copy0 id).core 0).st ≠ .halted ∧ { copy0 with present := [0] }.isPresent 0 = true ∧
    (let y := { copy0 with read := [0] }
     let s := copying y id
     0 ∈ y.read ∧ 0 ∉ y.bad ∧ 0 ∉ y.present ∧ base.now base.here ≤ y.v + 0 ∧ y.space true ≠ 5 ∧ s.hops 0 (s.core 0) 0 y 0 = []) ∧
    (let y := { copy0 with kind := .send, param := 256, read := [0] }
     let s := (copying y id).modPart 0 fun q => { q with dies := [0, 1] }
     let t := { s with dies := [(0, { Die.reset with attach := .active }), (1, { Die.reset with attach := .active })],
                       circuits := [(0, ⟨true, .up, 0, false, 1, 0, 4, 4, 0, 0, 0, 0⟩)] }
     s.hops 0 (s.core 0) 0 y 0 = [(0, 1)] ∧ s.pathsOf 0 0 1 = [] ∧ t.hops 0 (t.core 0) 0 y 0 = [(0, 1)] ∧ t.pathsOf 0 0 1 = [0]) ∧
    (let y := { copy0 with kind := .scrub, n := 0, param := 64, unchecked := true }
     let s := copying y id
     (s.core 0).copy 0 0 = some y ∧ y.unchecked = true ∧
     s.descFault 0 (s.core 0) 0 { y with got := [(descKey, 0)] } (12 * 2 ^ 224 + 64 * 2 ^ 192) = none ∧
     (s.descFault 0 (s.core 0) 0 { y with got := [(descKey, 0)] } 0).isSome = true) := by decide +kernel

/-- The descriptor of tensor 5 of context 1: 4 KiB of HBM from 0, read, write and shard; entry 1 of a table of two. -/
def desc5 (limit : Nat) : Nat := limit * 2 ^ 64 + 5 * 2 ^ 192 + 2 ^ 272 + 7 * 2 ^ 293 + 2 ^ 327
def tensors (limit : Nat) (s : State) : State :=
  (s.modPart 0 fun q => { q with tnlog := 1 }).setBytes (hbmKey 0 64) (leBytes 64 (desc5 limit))
def rec5 (st : TensorSt) : VRec := ⟨st, 5, 1, 0, 1, 1, 64, 0, 1, false, false, 0, []⟩
def effect (op : Nat) (b : Option RangeBind) : TEffect := ⟨0, op, 0, 0, 0, b, 1⟩
def effects (e : TEffect) (r : VRec) : State :=
  { (core0 6 fun c => { c with ca := { c.ca with effects := [e] } }) with vrecs := [(vrecKey 0 5, r)] }
theorem witness_TensorEffects : ((effects (effect 0 (some bind0)) (rec5 .empty)).effect 0 0 0 = some (effect 0 (some bind0))) ∧
    (let s := effects (effect 0 (some bind0)) (rec5 .empty)
     (s.recOf 0 bind0).opens bind0 0 = true ∧ (s.core 0).asid = 1 ∧ (s.core 0).st = .running) ∧
    ((effects (effect 0 (some bind0)) (rec5 .opened)).recOf 0 bind0).opens bind0 0 = false ∧
    (let r := (effects (effect 1 (some bind0)) (rec5 .opened)).recOf 0 bind0
     r.isFor 0 bind0.tid bind0.asid = true ∧ r.st = .opened ∧ r.cov = bind0.limit / 64 ∧ { rec5 .opened with cov := 63 }.cov ≠ bind0.limit / 64) ∧
    (let r := (effects (effect 2 (some bind0)) (rec5 .closed)).recOf 0 bind0
     r.isFor 0 bind0.tid bind0.asid = true ∧ r.st = .closed ∧ bind0.shard = true) ∧
    (let r := (effects (effect 2 (some bind0)) (rec5 .closed)).recOf 0 bind0
     r.isFor 0 (bind0.tid + 1) bind0.asid = false ∧ { bind0 with shard := false }.shard = false) ∧ (rec5 .opened).st ≠ .closed ∧
    (base.part 0).rotated ≠ some (base.part 0).stime ∧ ((part0 fun q => { q with rotated := some 0 }).part 0).rotated = some (base.part 0).stime ∧
    (base.part 0).gen ≠ 65535 ∧ ((part0 fun q => { q with gen := 65535 }).part 0).gen = 65535 ∧
    (let d : DigestCheck := ⟨bind0, 1, 0, 0, [], true, none⟩
     let s := { tensors 0x1000 (part0 fun q => { q with digests := [d] }) with vrecs := [(vrecKey 0 5, rec5 .closed)] }
     (s.part 0).digests = [d] ∧ s.digestDue 0 d = true ∧ s.digestDue 0 { d with at' := 1 } = false ∧ (s.recOf 0 bind0).isFor 0 bind0.tid bind0.asid = true ∧
     (s.recOf 0 bind0).st ≠ .invalid ∧ d.ok = true ∧ s.entryOf 0 1 5 = none) := by decide +kernel

/-! ### Contexts, partitions and the host's function -/

def put (a n v : Nat) (s : State) : State := s.setBytes (hbmKey 0 a) (leBytes n v)
/-- The granules of HBM from 0 and from 65536, owned by context 1. -/
def owned (s : State) : State :=
  (s.setOwn false 0 0 { Own.reset with v := true, asid := 1, pgen := 1 }).setOwn false 0 65536 { Own.reset with v := true, asid := 1, pgen := 1 }
def running (s : State) : State := s.modPart 0 fun q => { q with tdisp := .run, ide := true }
def record (cmd asid arg : Nat) : CtxRecord := ⟨cmd, 0, asid, arg, 7, 0⟩
def has (o : Option Ctx) (f : Ctx → Bool) : Bool := o.any f
theorem witness_ContextCommands : (∀ n ∈ [1, 2, 3, 4, 5], (record n 1 0).cmd = n ∧ (record 0 1 0).cmd ≠ n) ∧ ({ record 1 1 0 with rsv := 1 } : CtxRecord).rsv ≠ 0 ∧
    1 < ({ record 1 1 0 with flags := 2 } : CtxRecord).flags ∧ (record 1 1 0).rsv = 0 ∧ (record 1 1 0).flags ≤ 1 ∧ { record 1 1 0 with flags := 1 }.flags = 1 ∧
    (base.part 0).tenantid = 0 ∧
    (let q := (part0 fun q => { q with tenantid := 1, unlocked := true }).part 0
     q.tenantid ≠ 0 ∧ q.unlocked = true ∧ q.freeAsid = some 2 ∧ ((base.setOwn false 0 0 { Own.reset with v := true, asid := 2, pgen := 1 }).readCcb q 2 0).isSome = true) ∧
    (base.part 0).ide = false ∧ ((running base).part 0).tdisp = .run ∧ ((running base).part 0).ide = true ∧ (base.part 0).pool0 ≤ 2 ∧
    Tab.find (base.part 0).ctxs 511 = none ∧
    (∀ st ∈ [CtxSt.ready, .active, .halted, .saved],
      (let s := owned (ctx1 fun x => { x with st := st })
       has (s.ctx 0 1) (fun x => x.st == st && (s.readCcb (s.part 0) 1 x.ccb).isSome && !x.spoiled && { x with spoiled := true }.spoiled) = true)) ∧
    has (base.ctx 0 1) (fun x => x.armed == none) = true ∧ (base.part 0).stime + 1024 ≤ (record 4 1 1024).arg ∧
    (record 4 1 1023).arg < (base.part 0).stime + 1024 := by decide +kernel
theorem witness_ContextEvents :
    (let s := owned (tensors 0x40400000 (ctx1 fun x => { x with st := .creating, savetid := 5 }))
     has (s.ctx 0 1) (fun x => x.st == .creating && (s.saveTensor 0 1 x).isSome) = true) ∧
    has (base.ctx 0 1) (fun x => base.saveTensor 0 1 x == none) = true ∧
    (let s := atTick 2048 (ctx1 fun x => { x with armed := some 0 })
     has (s.ctx 0 1) (fun x => x.armed == some 0 && x.boundary == none && x.st == .active && !x.yielded) = true ∧ s.betweenCommands 0 1 2048 = true ∧
     0 + 2048 ≤ (s.part 0).stime ∧ (s.part 0).held = false ∧ ((atTick 2047 s).part 0).stime < 0 + 2048 ∧ 0 + 4096 ≤ ((atTick 4096 s).part 0).stime) ∧
    (let s := ctx1 fun x => { x with resumeP := some 0 }
     has (s.ctx 0 1) (fun x => x.st == .active && x.resumeP == some 0) = true ∧ 0 ≤ (s.part 0).stime ∧ (s.part 0).held = false) ∧
    (let s := core0 0 fun c => { c with st := .halted }
     0 ∈ s.reissuing 0 1 ∧ (s.core 0).ftick ≤ s.now (s.core 0)) ∧
    (∀ st ∈ [CtxSt.teardown, .scrubbing], has ((ctx1 fun x => { x with st := st }).ctx 0 1) (fun x => x.st == st) = true) := by decide +kernel
/-- A context whose one core has halted and whose save tensor is large enough, with the first n granules of the tensor its own. -/
def saving (n : Nat) : State :=
  let s := tensors 0x40400000 ((core0 0 fun c => { c with st := .halted }).modCtx 0 1 fun x => { x with savetid := 5 })
  let s1 := { s.setBytes (hbmKey 0 64) (leBytes 64 (desc5 0x40400000 + 2 ^ 304)) with
    vrecs := [(vrecKey 0 5, { rec5 .empty with ver := 0 })]
    owns := (List.range n).map fun i => (i, { Own.reset with v := true, asid := 1, pgen := 1 }) }
  (s1.positions 0 1).foldl (fun s k => s.modCore k Core.fold) s1
theorem witness_ContextEvents_save : ((saving 1).coresOf 0 1 fun y => y == .running || y == .held) = [] ∧
    (((saving 1).ctx 0 1).any fun x => ((saving 1).saveTensor 0 1 x).any fun b => !(saving 1).tensorGranted ((saving 1).part 0) b) = true := by decide +kernel
theorem witness_ContextEvents_saves : (((saving 16448).ctx 0 1).any fun x => ((saving 16448).saveTensor 0 1 x).any fun b =>
    ((saving 16448).recOf 0 b).opens b 0 && (saving 16448).tensorGranted ((saving 16448).part 0) b) = true := by decide +kernel
def granted (host : Bool) : State := base.setOwn false 0 0 { Own.reset with v := true, asid := 1, host := host }
theorem witness_HostEvents :
    (let s := { State.reset with bootStep := 255 }
     s.bootStep = 255 ∧ s.recovery = false ∧ s.servo.order = [] ∧ 1 ≤ 4095 ∧ s.poolBase 1 = some 1 ∧ s.poolBase 4095 = some 1 ∧ 7 < 8 ∧ Tab.find s.parts 7 = none ∧
     (∀ l ∈ [[7], [0, 1], [0, 1, 2, 3], [0, 1, 2, 3, 4, 5, 6, 7]], l.eraseDups = l ∧ ∀ d ∈ l, d < 8 ∧ (s.die d).leftOut = false ∧ ∀ e ∈ s.parts, d ∉ e.2.dies)) ∧
    (base.part 0).tdisp = .configUnlocked ∧ ((part0 fun q => { q with tdisp := .configLocked, ide := true }).part 0).ide = true ∧
    (let q := (part0 fun q => { q with tdisp := .run, ide := true }).part 0
     (granted true).hostOk q true 65535 1 = true ∧ (granted true).hostOk q true 65536 1 = false ∧ (granted false).hostOk q false 0 1 = false ∧ q.tdisp = .run ∧ { q with launches := [] }.idle = true ∧
     q.unread = [] ∧ q.ide = true ∧ q.tenantSet = false ∧ { q with tenantSet := true }.tenantSet = true ∧ (∀ x ∈ q.ctxs, x.2.st ≠ .halted ∧ x.2.st ≠ .saved) ∧ q.hostRaces (hbmKey 0 65535) false = false ∧
     (granted true).hostOk q false 65535 1 = true) ∧
    base.tokenStatus 0 (base.part 0) [] ≠ 0 ∧ (base.core 0).part = 0 ∧ (base.core 0).st = .running ∧
    ((part0 fun q => { q with unlocked := true }).part 0).unlocked = true ∧ (base.part 0).unlocked = false ∧ (base.part 0).held = false := by decide +kernel
theorem witness_RegistersAndAttestation : ((running base).part 0).ide = true ∧ (base.part 0).ide = false ∧ base.recovery = false ∧ { base with recovery := true }.recovery = true ∧ 8 ≤ 8 ∧ 0xFFFFF < 0x100000 ∧ (base.part 0).tdisp ≠ .run ∧
    ((part0 fun q => { q with tdisp := .run }).part 0).tdisp = .run ∧ 255 < 256 ∧ 2 ^ 63 - 1 < 2 ^ 63 ∧ (base.circuit 255).st = .free ∧
    (base.responder 8).phase ≠ 1 ∧ (base.responder 8).session ≠ 2 ∧
    (∀ n ∈ [1, 2, 3], ({ base with spdm := [(8, ⟨n, n - 1, 0, 0, none, none⟩)] }.responder 8).phase = n) ∧
    ({ base with spdm := [(8, ⟨3, 1, 0, 0, none, none⟩)] }.responder 8).session = 1 ∧ ({ base with spdm := [(8, ⟨3, 2, 0, 0, none, none⟩)] }.responder 8).session = 2 ∧
    ({ base with spdm := [(8, ⟨3, 0, 0, 0, none, none⟩)] }.responder 8).session = 0 ∧ 3 / 2 % 2 = 1 ∧ 512 / 512 % 2 = 1 ∧
    (base.measurement 8 1).isSome = true := by decide +kernel

/-! ### Queues, graphs and pages -/

/-- An image of one bundle at 65536: its header of 256 bytes. -/
def image0 : Nat := 0x4B4E4C4D + 2 ^ 32 + 1 * 2 ^ 64 + 0x100 * 2 ^ 256 + 0x120 * 2 ^ 288 + 0x120 * 2 ^ 320 + 0x120 * 2 ^ 352
/-- A launch record of 2 × 2 cores at the origin, and one whose TYPE is reserved. -/
def record0 : Nat := 1 + 2 * 2 ^ 16 + 2 * 2 ^ 24 + 65536 * 2 ^ 64
def queued (r : Nat) (f : Queue → Queue) : State :=
  { put 65536 256 image0 (put 0 64 r (owned (atTick 1 (part0 fun q => { q with queues := [(255, f { Queue.reset with asid := 1, en := true, tail := 1, st := .ready })] })))) with
    dies := [(0, { Die.reset with inReset := false })] }
theorem witness_QueueEvents_registers : 255 < 256 ∧ ((running base).part 0).tdisp = .run ∧ (((running base).part 0).queue 255).st = .off ∧
    (base.ctx 0 1).any (fun x => x.st == .active) = true ∧ (∀ cfg ∈ [2 ^ 32 + 4 * 256, 2 ^ 32 + 12 * 256], field cfg 43 32 = 1 ∧ 4 ≤ field cfg 12 8 ∧ field cfg 12 8 ≤ 12) ∧
    field (2 ^ 32 + 3 * 256) 12 8 < 4 ∧ 12 < field (2 ^ 32 + 13 * 256) 12 8 ∧ Tab.find (base.part 0).ctxs (field (2 * 2 ^ 32) 43 32) = none ∧
    ((queued record0 id).part 0).queue 255 = { Queue.reset with asid := 1, en := true, tail := 1, st := .ready } := by decide +kernel
theorem witness_QueueEvents_select : (∀ r ∈ [record0, record0 + 1],
    (let s := queued r id
     let q := s.part 0
     let w := (q.queue 255).seen q.stime
     let s0 := s.meetRecord q (w.base + 64 * ((q.queue 255).head % 2 ^ w.log2n)) 64
     (q.queue 255).st = .ready ∧ w.st = .ready ∧ q.claimed 255 = false ∧ q.held = false ∧ s.eligible q (q.queue 255).ldr = true ∧ q.pgcmd = none ∧
     s0.headRecord 0 255 w = some r ∧ recordOk r = true ∧ (field r 7 0 = 1 ∨ field r 7 0 = 2) ∧
     s0.rectStatus q (field r 8 8 == 1) (field r 39 32) (field r 47 40) (field r 23 16) (field r 31 24) = none ∧
     (field r 7 0 = 1 → (s0.takeImage 0 1 (field r 127 64) 2 2).2.isSome = true ∧ (Tab.find (s0.takeImage 0 1 (field r 127 64) 2 2).1.parts 0).isSome = true))) ∧
    (let s := queued 3 id
     let q := s.part 0
     (s.meetRecord q 0 64).headRecord 0 255 ((q.queue 255).seen q.stime) = some 3 ∧ recordOk 3 = false) ∧
    (let s := queued 3 fun u => { u with base := 2 ^ 17 }
     let q := s.part 0
     (s.meetRecord q (2 ^ 17) 64).headRecord 0 255 ((q.queue 255).seen q.stime) = none) := by decide +kernel
def claim0 (gx0 : Nat) : Claim := ⟨256, 0, 255, 0, 7, 1, 65536, 0, 0, false, 2, 2, gx0, 0, none, 0, 4⟩
/-- A claim of that image, code-sealed. -/
def claimed (gx0 : Nat) : State :=
  (atTick 256 (put 65536 256 image0 (owned (part0 fun q => { q with claims := [claim0 gx0] })))).setOwn false 0 65536
    { Own.reset with v := true, asid := 1, pgen := 1, code := true }
theorem witness_QueueEvents_resolve : ∀ gx0 ∈ [0, 2], (∀ i, i < 256 → (claimed gx0).leader ((claimed gx0).part 0) i = none) ∧
    (claim0 gx0).any = false ∧ (claim0 gx0).graph = none ∧ (claim0 gx0).queue < 256 := by decide +kernel
theorem witness_QueueEvents_leaders :
    (let s := queued record0 id
     ∀ e ∈ (s.part 0).queues, s.leader (s.part 0) e.1 = some e.2.ldr) ∧
    (∀ st ∈ [QueueSt.empty, .ready], { Queue.reset with st := st }.st = .empty ∨ { Queue.reset with st := st }.st = .ready) := by decide +kernel
theorem witness_QueueEvents_bind : ∀ gx0 ∈ [0, 2],
    (let s := claimed gx0
     let c := claim0 gx0
     let s2 := (s.modPart 0 fun q => { q with recs0 := s.vrecs }).modPart 0 fun q => { q with claims := q.claims.filter fun c => !decide (c.at' ≤ q.stime) }
     (s.part 0).claims = [c] ∧ c.at' ≤ (s.part 0).stime ∧ (s.part 0).stime % 256 = 0 ∧ s2.hasFence (s2.part 0) c.gx0 c.gy0 c.gw c.gh = false ∧
     s2.loaderReads (s2.part 0) c.asid c.image (max 256 (imLen (s2.devLoad (s2.part 0) c.image 256))) = true ∧
     ((s2.launchArgs 0 c (s2.devLoad (s2.part 0) c.image 256)).any fun r => (Tab.find r.1.parts 0).isSome) = true ∧
     s2.rectFree (s2.part 0) c.gx0 c.gy0 c.gw c.gh = decide (gx0 = 2)) := by decide +kernel

/-- A graph of context 1 that has reached node 0 of a timetable of two nodes at 4096. -/
def graph0 : Graph := ⟨1, 0, 0, 0, 7, 0, 0, .reached, [], 0, 0, 0, 0, 0, 0, 0, 4, none, [], []⟩
def graphed (x : Nat) (z : Graph) : State :=
  put 65536 256 image0 (put 4096 32 x (owned (tensors 0x1000 (atTick 1 (part0 fun q => { q with ttlog := 1, ttbase := 1, graphs := [(0, z)] })))))
/-- Whether a graph has reached its node in partition 0. -/
def reachedAt (s : State) (z : Graph) : Bool :=
  z.st == .reached && (s.ctx 0 z.asid).any fun x => (x.st == .ready || x.st == .active) && decide (z.at' ≤ (s.part 0).stime - x.ctoff)
theorem witness_LaunchEvents_graph : launch0.graph = none ∧ { launch0 with graph := some 0 }.graph = some 0 ∧
    Tab.find ((part0 fun q => { q with graphs := [(0, { graph0 with st := .launched })] }).part 0).graphs 0 = some { graph0 with st := .launched } := by decide +kernel
theorem witness_GraphEvents :
    (let s := part0 fun q => { q with graphs := [(0, graph0)] }
     Tab.find (s.part 0).graphs 0 = some graph0 ∧ reachedAt s graph0 = true ∧ s.node 0 graph0 = none) ∧
    (let s := graphed 0 graph0
     s.node 0 graph0 = some 0 ∧ nKind 0 = 0 ∧ reachedAt s graph0 = true) ∧
    (let x := 1 + 2 * 2 ^ 16 + 2 * 2 ^ 24 + 65536 * 2 ^ 64
     let s := (graphed x graph0).meetRecord ((graphed x graph0).part 0) 4096 64
     let s1 := (s.takeImage 0 1 (nObj x) (field x 23 16) (field x 31 24)).1
     s.node 0 graph0 = some x ∧ nKind x = 1 ∧
     s.rectStatus (s.part 0) (field x 8 8 == 1) (field x 39 32) (field x 47 40) (field x 23 16) (field x 31 24) = none ∧
     (s.takeImage 0 1 (nObj x) (field x 23 16) (field x 31 24)).2.isSome = true ∧ (Tab.find s1.parts 0).isSome = true ∧
     Tab.find (s1.part 0).graphs 0 = some graph0 ∧ nObj x % 65536 = 0 ∧ nObj x + 256 ≤ (s1.part 0).dies.length * 2 ^ 36 ∧
     ((s1.part 0).kernel (nObj x) 1).isSome = true ∧ s1.node 0 graph0 = some x ∧
     s1.imageOk (s1.part 0) (nObj x) (s1.devLoad (s1.part 0) (nObj x) 256) (field x 23 16) (field x 31 24) = true ∧ reachedAt s1 graph0 = true ∧
     s1.loaderReads (s1.part 0) 1 (nObj x) (max 256 (imLen (s1.devLoad (s1.part 0) (nObj x) 256))) = true ∧
     (let b := put 65536 1 0 s1
      b.node 0 graph0 = some x ∧ ((b.part 0).kernel (nObj x) 1).isSome = true ∧
      b.imageOk (b.part 0) (nObj x) (b.devLoad (b.part 0) (nObj x) 256) (field x 23 16) (field x 31 24) = false)) ∧ 63 ≤ { graph0 with row := 63 }.row := by
  decide +kernel
/-- Tensor 5 CLOSED under version 41, its first line written under it. -/
def closed5 (s : State) : State :=
  { put 64 64 (desc5 0x1000 + (8 + 2) * 2 ^ 304 + 41 * 2 ^ 224 + 2 ^ 256) s with
    vrecs := [(vrecKey 0 5, { rec5 .closed with ver := 41, kgen := 1, digok := true })], stamps := [(0, ⟨5, 41, 1, 0, 0, false⟩)] }
theorem witness_GraphConditions :
    (∀ k ∈ [2, 3],
      (let x := k + 2 ^ 48 + 5 * 2 ^ 64 + (k - 2) * 2 ^ 224
       let s := ((closed5 (graphed x graph0)).meetRecord ((graphed x graph0).part 0) 4096 64).modGraph 0 0 fun z => { z with row := z.row + 1 }
       reachedAt (closed5 (graphed x graph0)) graph0 = true ∧ (closed5 (graphed x graph0)).node 0 graph0 = some x ∧ nKind x = k ∧ (s.condWord 0 graph0 x).2 = some 0 ∧
       ((put 0 1 1 s).condWord 0 graph0 x).2 = some 1)) ∧
    (let x := 2 + 2 ^ 48 + 6 * 2 ^ 64
     (graphed x graph0).node 0 graph0 = some x ∧ ((((graphed x graph0).meetRecord ((graphed x graph0).part 0) 4096 64).modGraph 0 0 fun z => { z with row := z.row + 1 }).condWord 0 graph0 x).2 = none) ∧
    nLimit (3 + 2 ^ 224) = 1 ∧ Tab.get 0 { graph0 with iters := [(0, 1)] }.iters 0 = 1 ∧ 62 < 63 := by decide +kernel
theorem witness_GraphConditions_swap :
    (let x := 4 + 2 ^ 48 + 5 * 2 ^ 64 + 41 * 2 ^ 128 + 2 * 2 ^ 224
     let s := graphed x graph0
     s.node 0 graph0 = some x ∧ nKind x = 4 ∧ reachedAt s graph0 = true ∧ (s.part 0).stime % 256 ≠ 0 ∧ nLimit x = 2) ∧
    (let z := { graph0 with st := .swapping, obj := 5, val := 41, limit := 2 }
     let s := atTick 256 (graphed 0 z)
     Tab.find (s.part 0).graphs 0 = some z ∧ (s.part 0).stime % 256 = 0 ∧ s.swapMet s.vrecs 0 1 5 41 = false ∧ z.waited < z.limit ∧
     z.limit ≤ { z with waited := 2 }.waited ∧
     (closed5 s).swapMet (closed5 s).vrecs 0 1 5 41 = true) := by decide +kernel
/-- The same tensor met by a virtual address of its range. -/
def ranged : State := closed5 (owned (tensors 0x1000 (copying { copy0 with fields := [(4, 3)] } id)))
def bind5 : RangeBind := ⟨5, 0, 0, 0x1000, true, true, true, false, false, 0, 1⟩
theorem witness_LookupEvents_range : ranged.rangeHit 0 1 0 = some 5 ∧ ranged.pinTensor 0 1 5 = (ranged, some bind5) ∧ (ranged.part 0).migration = none ∧
    (ranged.recOf 0 bind5).readable bind5 0 = true ∧ (ranged.tensorPlace 0 bind5 0).any (fun pl =>
      shunterMay (ranged.own pl.station ((ranged.part 0).pdie pl.d) pl.off) 1) = true := by
  have h : ranged.checkDesc 0 1 5 = some bind5 := by decide +kernel
  have h2 : (ranged.vrec ((ranged.part 0).pdie bind5.home) 5).st ≠ .invalid := by decide +kernel
  refine ⟨by decide +kernel, ?_, by decide +kernel, by decide +kernel, by decide +kernel⟩
  simp only [State.pinTensor, h]
  exact if_neg h2

def pageRec (count addr : Nat) : PageRecord := ⟨0, 1, count, addr, 0, 0, 0, 4096, 0x3000, 65536, 0⟩
/-- Page 0 of 4 KiB through four levels of tables in station memory, and context 1 the owner of its granule and the next. -/
def mapped : State :=
  let s := owned (part0 fun q => { q with ptroot := [(1, 1)] })
  ((((s.setBytes (stationKey 0 0) (leBytes 2 0x1041)).setBytes (stationKey 0 0x1000) (leBytes 2 0x2041)).setBytes (stationKey 0 0x2000)
    (leBytes 2 0x3041)).setBytes (stationKey 0 0x3000) [0x0F]).setOwn true 0 0 { Own.reset with v := true, asid := 1, pt := true }
def page4K : TlbEntry := ⟨1, 0, 4096, 0, false, false, 0, true, true⟩
theorem witness_PageEvents :
    (let q := base.part 0
     pageRecordOk q { pageRec 1 0 with rsv := 1 } 7 = false ∧ recordLimits q { pageRec 1 0 with rsv := 1 } 0 = false ∧ recordLimits q (pageRec 1 0) 0 = true ∧
     pageRecordOk q { pageRec 2 0 with rsv := 1 } 0 = false ∧ (base.own false 0 0).v = false ∧ q.units (pageRec 0 0) = none ∧ q.units (pageRec 1 1) = none ∧
     q.units (pageRec 2 0) = some [(0, 0), (0, 65536)] ∧ pageRecordOk q (pageRec 2 0) 7 = true ∧ pageRecordOk q (pageRec 2 0) 0 = true ∧
     pageRecordOk q { pageRec 2 0 with flags := 7 } 7 = true ∧ { pageRec 1 0 with size := 1 }.size % 4096 ≠ 0 ∧ (pageRec 1 0).size % 4096 = 0) ∧
    (∀ l ∈ [(0, 0), (0, 65536)], (base.own false ((base.part 0).pdie l.1) l.2).v = false ∧ (base.own false 0 l.2).unusable = false ∧
      ((owned base).own false 0 l.2).v = true ∧ ((owned base).own false 0 l.2).asid = 1 ∧ ((owned base).own false 0 l.2).code = false ∧
      ((owned base).own false 0 l.2).sid = false) ∧ base.walk (base.part 0) 1 0 = none := by decide +kernel
theorem witness_PageEvents_patrol :
    (let s := { base with wtime := (2 ^ 20 - 1) * 2 ^ 22 }
     7 < 8 ∧ 2 ^ 20 - 1 = s.wtime / 2 ^ 22 % 2 ^ 20 ∧ (s.die 7).patrol ≤ s.wtime / 2 ^ 22 ∧ (s.own false 7 ((2 ^ 20 - 1) * 65536)).ckp = false ∧
     0 ≠ s.wtime / 2 ^ 22 % 2 ^ 20 ∧ s.wtime / 2 ^ 22 < { Die.reset with patrol := 2 ^ 20 }.patrol) ∧
    ((base.setOwn false 0 0 { Own.reset with ckp := true }).own false 0 0).ckp = true := by decide +kernel
theorem witness_PageEvents_migrate :
    (let s := mapped
     let q := s.part 0
     let r := pageRec 1 0
     s.walk q 1 0 = some page4K ∧ pageRecordOk q r 0 = true ∧ field r.ptea 60 0 % 8 = 0 ∧
     ((s.leafFrom q 1 0 3 (field (Tab.get (0 : Word) q.ptroot 1).toNat 7 5) (field (Tab.get (0 : Word) q.ptroot 1).toNat 47 12 * 4096)).map
       fun l => (l.1, l.2 / 8)) = some (field r.ptea 63 61, field r.ptea 60 0 / 8) ∧
     r.daddr % page4K.size = 0 ∧ (q.locate false false r.home r.daddr).isSome = true ∧ (q.locate false false r.home (r.daddr + 4095)).isSome = true ∧
     q.pageGranules false false 0 0 4096 = [(0, 0)] ∧ q.pageGranules false false 0 65536 4096 = [(0, 65536)] ∧ q.migration = none ∧
     ∀ z ∈ s.owns, z.2.sid = false) ∧
    (let m : Migration := ⟨1, 0, 4096, stationKey 0 0x3000, page4K, 65536, false, false, 0, 0, false, []⟩
     let s := atTick 192 (part0 fun q => { q with migration := some m })
     (s.part 0).migration = some m ∧ m.copying = false ∧ m.x + 192 ≤ (s.part 0).stime ∧ { m with copying := true }.waiting = [] ∧ m.size ≠ 2 ^ 16) := by
  decide +kernel

/-! ### Manifests, links and peers -/

def bind64 : RangeBind := { bind0 with limit := 64 }
/-- The manifest of context 1 at 8192 with one entry, of tensor 5 of package 0 with its deadline at tick 0, checked. -/
def shards (f : Manifest → Manifest) : State :=
  put 8192 64 (0x4E414D53 + 2 ^ 32 + 2 ^ 48 + 2 ^ 64) (put (8192 + 64) 128 (5 + 2 ^ 336) (owned (tensors 64 (running (part0 fun q =>
    { q with manifest := f { q.manifest with base := 8192 } })))))
/-- The same while the load of its one entry goes on, with tensor 5 EMPTY. -/
def loading (f : Manifest → Manifest) : State :=
  { put 64 64 (desc5 64 + 2 ^ 304) (shards fun m => f { m with asid := 1, cur := 1, st := 1, todo := [(1, 0)], loaded := [(1, 8192)] }) with
    vrecs := [(vrecKey 0 5, rec5 .empty)] }
theorem witness_ManifestEvents :
    (let s := shards id
     let q := s.part 0
     q.ide = true ∧ q.tdisp = .run ∧ q.manifest.st ≠ 1 ∧ s.entryIn q 1 8192 0 ≠ none ∧ s.manifestHeader q 1 8192 = some (1, 1) ∧ s.ownEntries q 8192 1 = [0] ∧
     s.manifestHeader q 2 8192 = none) ∧
    (let s := put (8192 + 64 + 127) 1 1 (shards id)
     s.manifestHeader (s.part 0) 1 8192 = some (1, 1) ∧ s.ownEntries (s.part 0) 8192 1 = [0] ∧ s.entryIn (s.part 0) 1 8192 0 = none) := by
  decide +kernel
theorem witness_ManifestEvents_loading :
    (let s := loading id
     let q := s.part 0
     let x := s.manifestEntry q (q.manifest.baseOf 1) 0
     (Tab.find q.ctxs 1).any (fun z => z.st == .active) = true ∧ q.manifest.late = [] ∧ s.entryIn q 1 8192 0 = some x ∧ s.sourceOpen 0 1 x 64 = true ∧ 1 ≠ 0 ∧
     q.manifest.st = 1 ∧ q.manifest.todo.head? = some (1, 0) ∧ q.manifest.todo = [(1, 0)] ∧ (s.pinTensor 0 1 (eTid x)).2 = some bind64 ∧
     (s.recOf 0 bind64).st ≠ .invalid ∧ bind64.shard = true ∧ (s.loadShard 0 bind64 (List.replicate 64 0)).any (fun t => (t.recOf 0 bind64).st == .closed &&
       (t.pinTensor 0 1 (eTid x)).2 == some bind64 && (Tab.find t.parts 0).isSome) = true ∧ eDeadline x ≤ s.ctxTick 0 1 ∧
     (∀ e ∈ q.manifest.todo, e.2 = 1 → False) ∧
     q.manifest.loaded = [(1, 8192)] ∧ s.manifestHeader q 1 8192 = some (1, 1) ∧ s.ctxTick 0 1 % (256 * 1) = 0 ∧ (atTick 255 s).ctxTick 0 1 % (256 * 1) ≠ 0 ∧
     ((s.ownEntries q 8192 1).filter fun i => (s.entryIn q 1 8192 i).any fun x => eStatus x == 1) = [0]) ∧
    (let s := loading fun m => { m with late := [(1, 0)] }
     ∀ e ∈ (s.part 0).manifest.todo, e.2 = 0 → e ∈ (s.part 0).manifest.late) ∧
    (let d : DigestCheck := ⟨bind64, 1, 0, 0, [], true, none⟩
     let s := (loading id).modPart 0 fun q => { q with digests := [d] }
     s.digestDue 0 d = true ∧ s.digestDue 0 { d with at' := 1 } = false ∧ (s.recOf 0 bind64).isFor 0 5 1 = true ∧ s.entryOf 0 1 5 = some (8192, 0) ∧
     (s.entryIn (s.part 0) 1 8192 0).isSome = true) ∧
    (let s := put (8192 + 64 + 4) 2 9 (loading id)
     s.entryOf 0 1 5 = some (8192, 0) ∧ (s.entryIn (s.part 0) 1 8192 0).any (fun x => decide (field x 47 32 ≠ s.fabidx)) = true) ∧
    (let s := put (8192 + 64 + 8) 8 1 (loading id)
     ∀ e ∈ (s.part 0).manifest.todo, e.2 = 0 → s.ctxTick 0 e.1 < eDeadline (s.manifestEntry (s.part 0) 8192 0)) := by decide +kernel
/-- An entry can hold any digest, that of its shard too, whatever SHA-384 gives. -/
theorem witness_ManifestEvents_digest (D : Nat) (h : D < 2 ^ 384) : eDigest (5 + 2 ^ 336 + D * 2 ^ 384) = D ∧ eTid (5 + 2 ^ 336 + D * 2 ^ 384) = 5 ∧
    field (5 + 2 ^ 336 + D * 2 ^ 384) 767 384 = D := by
  simp only [eDigest, eTid, field]
  omega
def linked (st : LinkSt) : State :=
  { base with circuits := [(255, ⟨false, st, 0, true, 3, 0, 4, 0, 0, 0, 0, 0⟩)], ports := [(15, st)], dies := [(0, { Die.reset with attach := st })] }
theorem witness_LinkEvents : 7 < 8 ∧ 255 < 256 ∧ 15 < 16 ∧
    (∀ st ∈ [LinkSt.reset, .training, .active, .faulted, .setting, .up, .degraded, .failed, .draining],
      ((linked st).die 0).attach = st ∧ (linked st).port 15 = st ∧ (linked st).circuit 255 = ⟨false, st, 0, true, 3, 0, 4, 0, 0, 0, 0, 0⟩) ∧
    base.port 15 = .down ∧ base.ports = [] ∧ 3 ≠ 4 ∧ (base.circuit 255).st = .free ∧
    base.circuitCode { Circuit.reset with toPort := true, nwl := 4 } = 0 ∧ base.circuitCode { Circuit.reset with toPort := true } ≠ 0 ∧
    (let s := { base with parts := base.parts.map fun (e : Nat × Part) => (e.1, { e.2 with dies := [0, 1] }), circuits := [(0, ⟨true, .up, 0, false, 1, 0, 4, 4, 0, 0, 0, 0⟩)] }
     (s.circuit 0).toPort = false ∧ (s.circuit 0).st = .up ∧ (Tab.find s.parts 0).isSome = true ∧ ∀ z ∈ s.circuits, z.1 = 0) ∧
    63 < 64 ∧ (base.die 0).fenw / 2 ^ 63 % 2 = 0 ∧ 0 < (base.die 0).spares := by decide +kernel
def flit0 : Flit := ⟨512, 1, 30, 2, 0, 5, 0, 0, 0, 0, 0⟩
def peered (y : Peer) : State := running (part0 fun q => { q with peers := [(30, y)] })
def peer0 (st : Nat) (responder : Bool) : Peer := { Peer.reset with st := st, responder := responder }
def msg0 : PeerMsg := ⟨0, 0, 0, 0, 0, 0, 0, 0⟩
theorem witness_PeerEvents : 1 ≤ 30 ∧ 30 ≤ 30 ∧ base.outq = [] ∧ ({ flit0 with kind := 0 } : Flit).kind = 0 ∧ 3 < ({ flit0 with kind := 4 } : Flit).kind ∧
    ({ flit0 with off := 1 } : Flit).off % 64 ≠ 0 ∧
    (∀ st ∈ [0, 1, 2, 3, 4], ∀ r ∈ [true, false], ((peered (peer0 st r)).peer 0 30).st = st ∧ ((peered (peer0 st r)).peer 0 30).responder = r) ∧
    ((peered (peer0 1 true)).part 0).offered msg0 = some (30, peer0 1 true) ∧ ((peered (peer0 1 true)).part 0).offered { msg0 with pkg := 1 } = none ∧
    ((peered (peer0 1 true)).part 0).ide = true ∧ ((peered (peer0 1 true)).part 0).tdisp = .run ∧ (peered (peer0 1 true)).outq = [] ∧
    ((peered (peer0 1 true)).part 0).resetting = false ∧ { base with ports := [(0, .up)] }.port 0 = .up ∧
    msg0.meas = (peer0 1 true).expect ∧ { msg0 with meas := 1 }.meas ≠ (peer0 1 true).expect ∧
    { peer0 1 false with init := some msg0 }.init = some msg0 ∧ { peer0 2 true with init := some msg0, resp := some msg0 }.resp = some msg0 ∧
    (peer0 1 false).stepAt + 2 ^ 24 ≤ { base with wtime := 2 ^ 24 }.wtime ∧ { base with wtime := 2 ^ 24 - 1 }.wtime < (peer0 1 false).stepAt + 2 ^ 24 := by
  decide +kernel
theorem leBytes_leNat (l : List Byte) : leBytes l.length (leNat l) = l := by
  induction l with
  | nil => rfl
  | cons b t ih =>
    have h1 : (b.toNat + 256 * leNat t) / 256 = leNat t := by have := b.isLt; omega
    have h2 : BitVec.ofNat 8 (b.toNat + 256 * leNat t) = b := by
      apply BitVec.eq_of_toNat_eq
      have := b.isLt
      rw [BitVec.toNat_ofNat]
      omega
    simp [leBytes, leNat, h1, h2, ih]
theorem leNat_lt (l : List Byte) : leNat l < 256 ^ l.length := by
  induction l with
  | nil => simp [leNat]
  | cons b t ih => have := b.isLt; simp only [leNat, List.length_cons, Nat.pow_succ]; omega
/-- R371: a flit that was sealed under a key and a generation verifies under them. -/
theorem test_sealed_flit_verifies (f : Flit) (key : BitVec 256) (g : Nat) (v : Beat) : flitVerifies (sealFlit f key g v) key g = true := by
  have hl : ∀ b : BitVec 128, ((blockBytes b).take 8).length = 8 := by intro b; simp [blockBytes, Sys2Proof.Laws.leBytes_length]
  simp only [flitVerifies, sealFlit, flitIv, flitHeader, beq_iff_eq]
  generalize hb : (blockBytes _).take 8 = l
  have h8 : l.length = 8 := by rw [← hb]; exact hl _
  have := leNat_lt l
  rw [BitVec.toNat_ofNat, Nat.mod_eq_of_lt (by rw [h8] at this; omega)]
  have h := leBytes_leNat l
  rw [h8] at h
  exact h.symm
/-- With the descriptor table of two entries. -/
def tensorsOn (s : State) : State := s.modPart 0 fun q => { q with tnlog := 1 }
/-- A flit of peer 30, sealed under its key. -/
def flit1 : Flit := sealFlit flit0 1 1 0
theorem witness_PeerEvents_flits :
    flit1.kind = 1 ∧ flit1.rsv = 0 ∧ flit1.off % 64 = 0 ∧ flit1.lane = 32 * 0 + 30 ∧ 0 < 8 ∧ flit1.lane ≠ 255 ∧ 8 ≤ flit1.link ∧ flit1.seq = 0 ∧
    (let s := { put 64 64 (desc5 64) (peered { peer0 3 true with keys := some (1, 2), asid := 1 }) with vrecs := [] }
     (s.peer 0 30).st = 3 ∧ (s.part 0).resetting = false ∧ (s.laneOf' flit0).fails < 7) ∧
    (let s := { put 64 64 (desc5 64 + TensorSt.opened.code * 2 ^ 304) (peered { peer0 3 true with keys := some (1, 2), asid := 1, rtid := 5 }) with
       vrecs := [(vrecKey 0 5, rec5 .opened)] }
     ((tensorsOn (owned s)).pinTensor 0 1 5).2 = some bind64 ∧ ((tensorsOn s).recOf 0 bind64).writable bind64 0 = true ∧ flit0.off + 64 ≤ bind64.limit) := by
  refine ⟨rfl, rfl, by decide, rfl, by decide, by decide, by decide, rfl, ?_, ?_⟩ <;> decide +kernel
/-- Peer 30 OPEN with its keys. -/
def opened : State := peered { peer0 3 true with keys := some (1, 2) }
theorem witness_PeerEvents_open : opened.openFlit (opened.part 0) flit1 = some (1, 1, 0) := by
  have h1 : laneGens (opened.part 0) flit1 (opened.laneOf' flit1) = [(1, 0)] := by decide +kernel
  have h2 : opened.flitKey (opened.part 0) flit1 1 = some 1 := by decide +kernel
  have h3 : flitVerifies flit1 1 1 = true := test_sealed_flit_verifies flit0 1 1 0
  unfold State.openFlit
  rw [h1]
  simp only [List.findSome?_cons, h2, Option.filter_some, h3, if_true, Option.map_some]

/-! ### Steps and invariants -/

/-- A word in slot 7 of the bundle at PC 0 of core 0 alone. -/
def issuing (w : Nat) : State := base.setBytes (istoreKey 0 28) (leBytes 4 w)
theorem witness_StepRunsTheDecodedInstruction :
    (let s := issuing 0x00240640
     let c := s.core 0
     s.power = true ∧ s.agenda = [.bundleIssue 0] ∧ c.st = .running ∧ c.due = [] ∧ c.exit = none ∧ c.wait = none ∧ c.budget ≠ 0 ∧ c.pc < c.nbundles ∧ c.xnop = false ∧
     (∀ m, m < 8 → m ≠ 7 → s.load (istoreKey 0 (32 * c.pc + 4 * m)) 4 = 0) ∧ c.ct1 = false ∧ c.ct2 = false ∧
     decodeWord (slotClass 7) (s.load (istoreKey 0 (32 * c.pc + 4 * 7)) 4) = .ok (.cpy g0 2 0 0x640) ∧ isTransfer (.cpy g0 2 0 0x640) = false ∧
     outcome (exec (.bundleIssue 0) { s with agenda := [] }) (fun t =>
       outcome (exec (.cpy g0 2 0 0x640) { t with cur := ⟨0, 7⟩ }) fun u => (u.core 0).st != .halted) = true) ∧
    decodeWord (slotClass 7) ((issuing 0xFFFFFFFF).load (istoreKey 0 28) 4) = .error .unassigned ∧
    outcome (exec (.tbump g0 5) (core0 7 id)) (fun u => (u.core 0).st == .halted) = true := by decide +kernel
theorem witness_StepRunsEvents : isEvent (.holdResume 7) (.holdResume 7) ∧ (∀ k, Ev.holdResume 7 ≠ .bundleIssue k) ∧ (∀ u, Ev.holdResume 7 ≠ .leaseGrant u) ∧
    { base with agenda := [.holdResume 7] }.agenda = [.holdResume 7] ∧ keptIfHalted (.holdResume 7) = none ∧ keptIfTraps (.holdResume 7) = none := by
  refine ⟨rfl, nofun, nofun, rfl, rfl, rfl⟩
theorem witness_StepRunsEvents_clock :
    (let s := { base with agenda := [], inputs := [(0, .jreset)] }
     s.power = true ∧ s.agenda = [] ∧ s.phase = 0 ∧ (∀ c ∈ s.checks, s.epoch < c.1) ∧ s.events = [] ∧ 1 < 5 ∧ s.inputOf 0 = none ∧ (s.inputOf 1).map (·.2) = some []) ∧
    (let s := { base with agenda := [], events := [(0, .circuitLit 255)] }
     dueHead s.wtime (fun e => eventRank e == 0) s.events = none ∧ s.inputOf 0 = none ∧
     dueHead s.wtime (fun e => eventRank e == 1) s.events = some (.circuitLit 255, [])) ∧
    (let s := { base with agenda := [], phase := 3, inputs := [(0, .shardAttemptComplete 0 0 true [])] }
     s.phase = 3 ∧ s.lateLink.map (·.2) = some []) ∧
    (let s := { base with agenda := [], checks := [(0, ⟨0, 0, 0, 0, 0, 0, 0, 0, 0, 0, 0⟩)] }
     ∃ c ∈ s.checks, c.1 ≤ s.epoch) := by decide +kernel
theorem witness_StepRunsEvents_kept :
    keptIfHalted (.coreExitTick 0) = some 0 ∧ ((core0 0 fun c => { c with st := .halted }).core 0).st = .halted ∧
    keptIfTraps (.messageArrival 0 0 0) = some 0 ∧
    (let s := base.setBytes (istoreKey 0 0) (leBytes 4 0x0140002A)
     outcome (exec (.messageArrival 0 0 0) s) (fun u => willTrap u 0) = true) := by decide +kernel
theorem witness_ResetValues : 7 < 64 ∧ 0x21 < 64 ∧ 0 < 31 := by decide
theorem witness_StepKeepsTheInvariant : Safety.inv base = true ∧ Safety.ratesOk base = true ∧ outcome (step base) (fun t => Safety.inv t && Safety.ratesOk t) = true := by
  decide +kernel
end Sys2Proof.Tests
end

section
/-! PROOFS. Every step keeps the canonical form of memory and of the core table (O59). A state function that leaves both fields alone keeps the form by
computation; every other one writes them through `State.setByte`, `State.setCore`, a filter of the listed bytes or a map over the listed cores. One lemma per
function of the model says so, in the order in which the model defines them, and each proof follows the body of its function. -/
namespace Sys2Proof.Proofs
open Sys2Proof.Machine Sys2Proof.Laws

/-! ## The canonical form -/

/-- The invariant as a proposition: memory is in its canonical form, and every core position is listed once. -/
def Canon (s : State) : Prop := Memory.wf s.mem = true ∧ Tab.sorted s.cores = true

/-- An outcome that leaves a canonical state, when it leaves one. -/
def Keeps : Out → Prop
  | .next t => Canon t
  | _ => True

/-- A state that is canonical, when there is one. -/
def CanonOpt (o : Option State) : Prop := ∀ t, o = some t → Canon t

/-- A state that is canonical beside another value, when there is one. -/
def CanonFst {β : Type} (o : Option (State × β)) : Prop := ∀ x, o = some x → Canon x.1

theorem inv_iff_canon (s : State) : Safety.inv s = true ↔ Canon s := by
  simp only [Safety.inv, Bool.and_eq_true, Canon]

section
variable {α β : Type} {s t : State}

theorem canon_of_next {o : Out} (h : Keeps o) (e : o = .next t) : Canon t := by
  subst e
  exact h
theorem canon_of_mk {x : State × β} {b : β} (h : Canon x.1) (e : x = (t, b)) : Canon t := by
  subst e
  exact h
theorem canon_of_some {o : Option State} (h : CanonOpt o) (e : o = some t) : Canon t := h t e

theorem canonOpt_none : CanonOpt none := fun _ e => nomatch e
theorem canonOpt_some (h : Canon s) : CanonOpt (some s) := fun _ e => Option.some.inj e ▸ h
theorem canonOpt_map {o : Option α} {f : α → State} (hf : ∀ x, Canon (f x)) : CanonOpt (o.map f) := by
  cases o with
  | none => exact canonOpt_none
  | some x => exact canonOpt_some (hf x)
theorem canonOpt_map_of {o : Option State} {f : State → State} (ho : CanonOpt o) (hf : ∀ t, Canon t → Canon (f t)) : CanonOpt (o.map f) := by
  cases o with
  | none => exact canonOpt_none
  | some t => exact canonOpt_some (hf t (ho t rfl))
theorem canonOpt_bind_of {o : Option State} {f : State → Option State} (ho : CanonOpt o) (hf : ∀ t, Canon t → CanonOpt (f t)) :
    CanonOpt (o.bind f) := by
  cases o with
  | none => exact canonOpt_none
  | some t => exact hf t (ho t rfl)

theorem canonFst_none : CanonFst (β := β) none := fun _ e => nomatch e
theorem canonFst_some {b : β} (hs : Canon s) : CanonFst (some (s, b)) := fun _ e => Option.some.inj e ▸ hs
theorem canonFst_ite {c : Prop} [Decidable c] {o o' : Option (State × β)} (h : CanonFst o) (h' : CanonFst o') : CanonFst (if c then o else o') := by
  split
  · exact h
  · exact h'
theorem canonFst_map {o : Option (State × α)} {f : State × α → State × β} (h : CanonFst o) (hf : ∀ x, (f x).1 = x.1) : CanonFst (o.map f) := by
  rintro x e
  obtain ⟨y, ey, rfl⟩ := Option.map_eq_some_iff.mp e
  exact hf y ▸ h y ey

/-! A branch keeps the form when both of its sides do; a fold does when its step does. -/

theorem canon_ite {c : Prop} [Decidable c] (hs : Canon s) (ht : Canon t) : Canon (if c then s else t) := by
  split
  · exact hs
  · exact ht
theorem keeps_ite {c : Prop} [Decidable c] {o o' : Out} (h : Keeps o) (h' : Keeps o') : Keeps (if c then o else o') := by
  split
  · exact h
  · exact h'
theorem canon_fst_ite {c : Prop} [Decidable c] {x y : State × β} (hx : Canon x.1) (hy : Canon y.1) : Canon (if c then x else y).1 := by
  split
  · exact hx
  · exact hy
theorem canonOpt_ite {c : Prop} [Decidable c] {o o' : Option State} (h : CanonOpt o) (h' : CanonOpt o') : CanonOpt (if c then o else o') := by
  split
  · exact h
  · exact h'
theorem canon_foldl {f : State → α → State} {l : List α} (hf : ∀ t x, Canon t → Canon (f t x)) (h : Canon s) : Canon (l.foldl f s) := by
  induction l generalizing s with
  | nil => exact h
  | cons x l ih => exact ih (hf s x h)
theorem canonOpt_foldl {f : Option State → α → Option State} {l : List α} {o : Option State} (hf : ∀ o x, CanonOpt o → CanonOpt (f o x)) (h : CanonOpt o) :
    CanonOpt (l.foldl f o) := by
  induction l generalizing o with
  | nil => exact h
  | cons x l ih => exact ih (hf o x h)
theorem canon_fst_foldl {f : State × β → α → State × β} {l : List α} {x : State × β} (hf : ∀ y a, Canon y.1 → Canon (f y a).1) (h : Canon x.1) :
    Canon (l.foldl f x).1 := by
  induction l generalizing x with
  | nil => exact h
  | cons a l ih => exact ih (hf x a h)

/-! Writes of memory and of the core table themselves. -/

theorem canon_of_eq (h : Canon s) (hm : t.mem = s.mem) (hc : t.cores = s.cores) : Canon t := ⟨hm ▸ h.1, hc ▸ h.2⟩
theorem canon_filterMem {f : Nat × Byte → Bool} (h : Canon s) (hm : t.mem = s.mem.filter f) (hc : t.cores = s.cores) : Canon t :=
  ⟨hm ▸ wf_filter 0 s.mem f h.1, hc ▸ h.2⟩
theorem canon_setCores {cs} (h : Canon s) (hc : Tab.sorted cs = true) : Canon { s with cores := cs } := ⟨h.1, hc⟩
theorem canon_mapCores {f : Nat × Core → Nat × Core} (hf : ∀ e, (f e).1 = e.1) (h : Canon s) (hm : t.mem = s.mem) (hc : t.cores = s.cores.map f) :
    Canon t :=
  ⟨hm ▸ h.1, hc ▸ sorted_map s.cores f hf h.2⟩
theorem canon_reset : Canon State.reset := ⟨rfl, rfl⟩
theorem canon_setByte {a v} (h : Canon s) : Canon (s.setByte a v) := ⟨wf_setByte s a v h.1, h.2⟩
theorem canon_setBytes {a vs} (h : Canon s) : Canon (s.setBytes a vs) := by
  induction vs generalizing s a with
  | nil => exact h
  | cons v vs ih => exact ih (canon_setByte h)
theorem canon_setCore {k c} (h : Canon s) : Canon (s.setCore k c) := ⟨h.1, sorted_put s.cores k c h.2⟩

end

theorem canon_store {s : State} {a n v} (hs : Canon s) : Canon (s.store a n v) :=
  canon_setBytes hs
theorem canon_modCore {s : State} {k f} (hs : Canon s) : Canon (s.modCore k f) :=
  canon_setCore hs
theorem canon_setHere {s : State} {c} (hs : Canon s) : Canon (s.setHere c) :=
  canon_setCore hs
theorem canon_modUnit {s : State} {u f} (hs : Canon s) : Canon (s.modUnit u f) :=
  hs
theorem canon_modDie {s : State} {d f} (hs : Canon s) : Canon (s.modDie d f) :=
  hs
theorem canon_modPart {s : State} {p f} (hs : Canon s) : Canon (s.modPart p f) :=
  hs
theorem canon_modCtx {s : State} {p a f} (hs : Canon s) : Canon (s.modCtx p a f) :=
  canon_modPart hs
theorem canon_modLaunch {s : State} {p l f} (hs : Canon s) : Canon (s.modLaunch p l f) :=
  canon_modPart hs
theorem canon_withPart {s : State} {p f} (hs : Canon s) (hf : ∀ x, Canon (f x)) : Canon (withPart s p f) := by
  unfold withPart
  split
  · exact hf _
  · exact hs
theorem canon_countHref {s : State} {p} (hs : Canon s) : Canon (s.countHref p) :=
  canon_modPart hs
theorem canon_withVf {s : State} {p f} (hs : Canon s) (hf : ∀ x, Canon (f x)) : Canon (withVf s p f) :=
  canon_withPart hs (fun _ => canon_ite (canon_countHref hs) <| canon_ite (hf _) hs)
theorem canon_see {s : State} {k a n} (hs : Canon s) : Canon (s.see k a n) :=
  hs
theorem canon_raiseHoldAt {s : State} {p cause tag h} (hs : Canon s) : Canon (s.raiseHoldAt p cause tag h) :=
  canon_modPart hs
theorem canon_raiseHold {s : State} {p cause tag} (hs : Canon s) : Canon (s.raiseHold p cause tag) :=
  canon_raiseHoldAt hs
theorem canon_haltAt {s : State} {k kind cause e h} (hs : Canon s) : Canon (s.haltAt k kind cause e h) :=
  canon_modCtx <| canon_raiseHoldAt hs
theorem canon_raiseHalt {s : State} {k kind e} (hs : Canon s) : Canon (s.raiseHalt k kind e) :=
  canon_haltAt hs
theorem canon_takeTrap {s : State} {k slot cause info} (hs : Canon s) : Canon (s.takeTrap k slot cause info) :=
  canon_raiseHalt <| canon_setCore hs
theorem canon_trapHere {s : State} {cause info} (hs : Canon s) : Canon (s.trapHere cause info) :=
  canon_takeTrap hs
theorem keeps_slotOp {s : State} {g eu f} (hs : Canon s) : Keeps (slotOp g eu f s) :=
  keeps_ite (canon_setHere hs) hs
theorem keeps_slotTry {s : State} {g eu chk f} (hs : Canon s) : Keeps (slotTry g eu chk f s) := by
  unfold slotTry
  refine keeps_ite ?_ hs
  split
  · exact canon_trapHere hs
  · exact canon_setHere hs

/-! ### The functions of Machine/Scalar.lean -/

theorem keeps_aluRR {s : State} {g lat d a b f} (hs : Canon s) : Keeps (aluRR g lat d a b f s) :=
  keeps_slotOp hs
theorem keeps_aluR {s : State} {g d a f} (hs : Canon s) : Keeps (aluR g d a f s) :=
  keeps_slotOp hs
theorem keeps_aluSat {s : State} {g d a b f} (hs : Canon s) : Keeps (aluSat g d a b f s) :=
  keeps_slotOp hs
theorem keeps_cmpRR {s : State} {g d a b f} (hs : Canon s) : Keeps (cmpRR g d a b f s) :=
  keeps_slotOp hs
theorem keeps_cmpRI {s : State} {g d a i f} (hs : Canon s) : Keeps (cmpRI g d a i f s) :=
  keeps_slotOp hs
theorem keeps_plog {s : State} {g d a b f} (hs : Canon s) : Keeps (plog g d a b f s) :=
  keeps_slotOp hs
theorem keeps_movk {s : State} {g k d i} (hs : Canon s) : Keeps (movk g k d i s) :=
  keeps_aluR hs

/-! ### The functions of Machine/Device.lean -/

theorem canon_atWall {s : State} {w i} (hs : Canon s) : Canon (s.atWall w i) :=
  hs
theorem canon_laterBy {s : State} {n code i} (hs : Canon s) : Canon (s.laterBy n code i) :=
  canon_atWall hs
theorem canon_later {s : State} {code i} (hs : Canon s) : Canon (s.later code i) :=
  canon_laterBy hs
theorem canon_within {s : State} {code n i} (hs : Canon s) : Canon (s.within code n i) :=
  canon_atWall hs
theorem canon_setOwn {s : State} {station pd off o} (hs : Canon s) : Canon (s.setOwn station pd off o) :=
  hs
theorem canon_uncover {s : State} {key} (hs : Canon s) : Canon (s.uncover key) :=
  hs
theorem canon_setStamp {s : State} {pd off x} (hs : Canon s) : Canon (s.setStamp pd off x) :=
  hs
theorem canon_clearStamps {s : State} {pd off} (hs : Canon s) : Canon (s.clearStamps pd off) :=
  canon_uncover (key := ownKey false pd off) hs
theorem canon_spoil {s : State} {q station pd off} (hs : Canon s) : Canon (s.spoil q station pd off) :=
  canon_foldl (fun _ _ ht => canon_foldl (fun _ _ hu => canon_ite (canon_modCtx hu) hu) ht) hs
theorem canon_masterKey {s : State} {q e} (hs : Canon s) : Canon (State.masterKey q s e) :=
  canon_ite (canon_setByte hs) <| canon_setByte hs
theorem canon_masterBytes {s : State} {q key bs} (hs : Canon s) : Canon (State.masterBytes q s key bs) :=
  canon_foldl (fun _ _ ht => canon_masterKey ht) hs
theorem canon_lineWritten {s : State} {q addr} (hs : Canon s) : Canon (s.lineWritten q addr) :=
  canon_ite (canon_spoil hs) <| canon_setStamp <| canon_spoil hs
theorem canon_devStore {s : State} {q addr n v} (hs : Canon s) : Canon (s.devStore q addr n v) :=
  canon_foldl (fun _ _ ht => canon_ite (canon_lineWritten ht) ht) <| canon_foldl (fun _ _ ht => canon_masterKey ht) hs
theorem canon_appendEvent {s : State} {p a e} (hs : Canon s) : Canon (s.appendEvent p a e) := by
  unfold State.appendEvent
  split
  · exact hs
  · exact canon_ite (canon_devStore <| canon_modCtx hs) <| canon_modCtx hs
theorem canon_countError {s : State} {die line src} (hs : Canon s) : Canon (s.countError die line src) :=
  hs
theorem canon_countFixed {s : State} {die line src} (hs : Canon s) : Canon (s.countFixed die line src) :=
  hs
theorem canon_meetRecord {s : State} {q addr n} (hs : Canon s) : Canon (s.meetRecord q addr n) :=
  canon_foldl (fun _ _ ht => canon_ite (canon_countError ht) ht) hs
theorem canon_setVrec {s : State} {q pd tid r} (hs : Canon s) : Canon (s.setVrec q pd tid r) := by
  unfold State.setVrec
  dsimp only
  split
  · exact hs
  · exact canon_ite (canon_devStore <| canon_devStore hs) hs
theorem canon_pinTensor {s : State} {p asid tid} (hs : Canon s) : Canon (s.pinTensor p asid tid).1 := by
  unfold State.pinTensor
  split
  · exact hs
  · exact canon_fst_ite (canon_setVrec hs) hs
theorem canon_tensorFault {s : State} {p asid tid} (hs : Canon s) : Canon (s.tensorFault p asid tid) :=
  canon_appendEvent hs
theorem canon_readDesc {s : State} {p asid tid} (hs : Canon s) : Canon (s.readDesc p asid tid).1 := by
  unfold State.readDesc
  split
  · rename_i heq
    have ht1 := canon_of_mk (canon_pinTensor hs) heq
    exact ht1
  · rename_i heq
    have ht1 := canon_of_mk (canon_pinTensor hs) heq
    exact canon_tensorFault ht1
theorem canon_writeRaced {s : State} {k a vs} (hs : Canon s) : Canon (s.writeRaced k a vs) := by
  induction vs generalizing s a with
  | nil => exact hs
  | cons v vs ih => exact ih ⟨wf_set 0 s.mem a _ hs.1, hs.2⟩
theorem canon_writeLine {s : State} {k a v} (hs : Canon s) : Canon (s.writeLine k a v) :=
  canon_writeRaced hs
theorem canonOpt_writePlace {s : State} {k p asid y ver gen v} (hs : Canon s) : CanonOpt (s.writePlace k p asid y ver gen v) :=
  canonOpt_ite canonOpt_none <| canonOpt_some <| canon_ite (canon_uncover <| canon_writeLine <| canon_spoil hs) <| canon_setStamp <|
    canon_writeLine <| canon_spoil hs
theorem canon_meetError {s : State} {p y src} (hs : Canon s) : Canon (s.meetError p y src) :=
  canon_ite (canon_countError hs) hs
theorem canon_countRequest {s : State} {p d y} (hs : Canon s) : Canon (s.countRequest p d y) :=
  canon_modPart hs

/-! ### The functions of Machine/Hold.lean -/

theorem canon_clearHold {s : State} {p cause tag} (hs : Canon s) : Canon (s.clearHold p cause tag) :=
  canon_modPart hs
theorem canon_complete {s : State} {p asid n base log2n index tag status start} (hs : Canon s) :
    Canon (s.complete p asid n base log2n index tag status start) :=
  canon_ite (canon_devStore hs) <| canon_modPart hs
theorem canon_unreadBy {s : State} {p asid base log2n index mets} (hs : Canon s) : Canon (s.unreadBy p asid base log2n index mets) :=
  canon_modPart hs
theorem canon_saveAt {s : State} {q b o bs} (hs : Canon s) : Canon (State.saveAt q b s o bs) := by
  unfold State.saveAt
  split
  · exact canon_ite (canon_masterBytes hs) hs
  · exact hs
theorem canon_putStop {s : State} {p a r} (hs : Canon s) : Canon (s.putStop p a r) := by
  unfold State.putStop
  dsimp only
  split
  · exact canon_modCtx hs
  · split
    · exact canon_saveAt <| canon_modCtx hs
    · exact canon_ite (canon_uncover <| canon_saveAt <| canon_modCtx hs) <| canon_setStamp <| canon_saveAt <| canon_modCtx hs
theorem canon_haltCore {s : State} {hal again k} (hs : Canon s) : Canon (s.haltCore hal again k).1 := by
  unfold State.haltCore
  dsimp only
  split
  · exact canon_setCore hs
  · refine canon_fst_ite hs ?_
    split
    · exact canon_setCore hs
    · split
      · exact canon_setCore hs
      · exact canon_setCore hs
theorem canon_newFreeze {s : State} {p a} (hs : Canon s) : Canon (s.newFreeze p a) :=
  canon_modCtx <| canon_foldl (fun _ _ ht => canon_ite (canon_setCore ht) ht) hs
theorem canon_haltContext {s0 : State} {p a hal} (hs : Canon s0) : Canon (s0.haltContext p a hal) :=
  canon_modCtx <| canon_modPart <| canon_foldl (fun _ _ ht => canon_modCore ht) <| canon_foldl (fun _ _ ht => canon_modCore ht) <|
    canon_foldl (fun _ _ ht => canon_putStop <| canon_haltCore ht) <| canon_newFreeze hs
theorem canon_haltAgain {s : State} {p a hal} (hs : Canon s) : Canon (s.haltAgain p a hal) :=
  canon_modCtx <| canon_foldl (fun _ _ ht => canon_putStop <| canon_haltCore ht) hs
theorem canon_applyHalts {s : State} {p} (hs : Canon s) : Canon (s.applyHalts p) := by
  unfold State.applyHalts
  refine canon_foldl (fun _ _ ht => ?_) hs
  split
  · exact canon_ite (canon_ite (canon_haltContext ht) <| canon_ite (canon_haltAgain ht) <| canon_modCtx ht) ht
  · exact ht
theorem canon_freezeForSave {s : State} {p a} (hs : Canon s) : Canon (s.freezeForSave p a) := by
  unfold State.freezeForSave
  split
  · exact canon_ite (canon_later <| canon_foldl (fun _ _ ht => canon_modCore ht) <| canon_foldl (fun _ _ ht => canon_putStop <| canon_setCore ht) <|
      canon_newFreeze hs) hs
  · exact hs
theorem keeps_execHoldRequest {s : State} {p cause} (hs : Canon s) : Keeps (execHoldRequest p cause s) :=
  keeps_ite (canon_raiseHold hs) hs
theorem keeps_execHoldTakesEffect {s : State} {p} (hs : Canon s) : Keeps (execHoldTakesEffect p s) :=
  keeps_ite hs <| canon_ite (canon_within <| canon_foldl (fun _ _ ht => canon_freezeForSave ht) <| canon_applyHalts <|
    canon_mapCores (fun e => by split <;> rfl) (canon_modPart hs) rfl rfl) <| canon_foldl (fun _ _ ht => canon_freezeForSave ht) <|
    canon_applyHalts <| canon_mapCores (fun e => by split <;> rfl) (canon_modPart hs) rfl rfl
theorem keeps_execHoldResume {s : State} {p} (hs : Canon s) : Keeps (execHoldResume p s) := by
  unfold execHoldResume
  dsimp only
  split
  · exact keeps_ite (canon_mapCores (fun e => by split <;> rfl) (canon_modPart hs) rfl rfl) hs
  · exact hs
theorem canon_acceptResume {s : State} {p a P} (hs : Canon s) : Canon (s.acceptResume p a P) := by
  unfold State.acceptResume
  dsimp only
  split
  · exact canon_ite (canon_modCtx hs) <| canon_raiseHoldAt <| canon_modCtx hs
  · exact canon_modCtx hs
theorem keeps_execContextReissue {s : State} {p asid} (hs : Canon s) : Keeps (execContextReissue p asid s) := by
  unfold execContextReissue
  split
  · refine keeps_ite ?_ hs
    extract_lets -underBinder +onlyGivenNames s1
    have h1 : Canon s1 := canon_foldl (fun _ _ ht => canon_ite (canon_setCore ht) ht) hs
    exact canon_ite (canon_modCtx h1) h1
  · exact hs
theorem canon_teardown {s : State} {p a} (hs : Canon s) : Canon (s.teardown p a) := by
  unfold State.teardown
  split
  · exact hs
  · refine canon_ite hs ?_
    extract_lets -underBinder +onlyGivenNames _ _ _ _ _ _ s1
    have h1 : Canon s1 := canon_modPart <| canon_clearHold <| canon_foldl (fun _ _ ht => canon_unreadBy <| canon_complete ht) <|
      canon_foldl (fun _ _ ht => canon_ite (canon_unreadBy <| canon_complete ht) ht) hs
    extract_lets -underBinder +onlyGivenNames s1
    have h1 : Canon s1 := canon_foldl (fun _ _ ht => canon_ite (canon_later ht) ht) h1
    dsimp only
    split
    · exact canon_later <| canon_modCtx h1
    · exact canon_haltAt <| canon_modCtx h1
theorem canon_resumeHalted {s : State} {p a P} (hs : Canon s) : Canon (s.resumeHalted p a P) :=
  canon_ite (canon_teardown hs) <| canon_acceptResume hs
theorem keeps_execStationmasterResume {s : State} {p asid} (hs : Canon s) : Keeps (execStationmasterResume p asid s) := by
  unfold execStationmasterResume
  split
  · exact canon_ite (canon_resumeHalted hs) hs
  · exact hs
theorem canon_dueActions {s : State} {p a k} (hs : Canon s) : Canon (s.dueActions p a k).1 :=
  canon_foldl (fun _ _ ht => canon_appendEvent ht) <| canon_modCore hs
theorem canon_stopAction {s : State} {p a r} (hs : Canon s) : Canon (s.stopAction p a r).1 := by
  unfold State.stopAction
  refine canon_fst_ite ?_ hs
  refine canon_fst_ite hs ?_
  extract_lets -underBinder +onlyGivenNames s1
  have h1 : Canon s1 := canon_appendEvent hs
  refine canon_fst_ite ?_ h1
  split
  · exact canon_fst_ite (canon_modCtx <| canon_modCore h1) h1
  · exact h1
theorem canon_haltActions {s : State} {p a x} (hs : Canon s) : Canon (s.haltActions p a x) := by
  unfold State.haltActions
  extract_lets -underBinder +onlyGivenNames _ _ _ _ _ s1
  have h1 : Canon s1 := canon_modCtx <| canon_fst_foldl (fun _ _ ht => canon_dueActions ht) <| canon_fst_foldl (fun _ _ ht => canon_stopAction ht) hs
  exact canon_ite (canon_later h1) <| canon_ite (canon_teardown h1) <| canon_ite h1 <| canon_ite h1 h1
theorem keeps_execFaultActionsComplete {s : State} {p} (hs : Canon s) : Keeps (execFaultActionsComplete p s) :=
  canon_modPart <| canon_foldl (fun _ _ ht => canon_ite (canon_haltActions ht) ht) hs
theorem canon_laterFault {s : State} {k e d} (hs : Canon s) : Canon (s.laterFault k e d) :=
  canon_ite (canon_ite (canon_teardown <| canon_appendEvent hs) <| canon_appendEvent hs) <| canon_haltAt <| canon_setCore hs
theorem keeps_execRateChangeEffect {s : State} {p} (hs : Canon s) : Keeps (execRateChangeEffect p s) :=
  keeps_ite (canon_modPart hs) hs
theorem keeps_execGovernorWindow {s : State} {watts g} (hs : Canon s) : Keeps (execGovernorWindow watts g s) :=
  canon_ite hs <| canon_foldl (fun _ _ ht => canon_modDie ht) hs
theorem keeps_execServoMeasurement {s : State} {off} (hs : Canon s) : Keeps (execServoMeasurement off s) := by
  unfold execServoMeasurement
  dsimp only
  split
  · exact keeps_ite (keeps_ite hs hs) hs
  · exact hs
  · exact hs
theorem keeps_execServoSourceLost {s : State} (hs : Canon s) : Keeps (execServoSourceLost s) := by
  unfold execServoSourceLost
  dsimp only
  split
  · exact hs
  · exact hs
  · exact hs
theorem keeps_execDebugStopRequest {s : State} {k} (hs : Canon s) : Keeps (execDebugStopRequest k s) :=
  keeps_ite (canon_haltAt hs) hs

/-! ### The functions of Machine/LoadStore.lean -/

theorem keeps_loadOp {s : State} {g n sx d a i} (hs : Canon s) : Keeps (loadOp g n sx d a i s) :=
  keeps_slotTry hs
theorem keeps_storeOp {s : State} {g n d a i} (hs : Canon s) : Keeps (storeOp g n d a i s) :=
  keeps_slotTry hs
theorem keeps_amoOp {s : State} {g f d a b w} (hs : Canon s) : Keeps (amoOp g f d a b w s) := by
  unfold amoOp
  exact keeps_slotTry hs
theorem keeps_rowOp {s : State} {g occ eu n span rows pre} (hs : Canon s) : Keeps (rowOp g occ eu n span rows pre s) := by
  unfold rowOp
  refine keeps_ite (canon_trapHere hs) ?_
  refine keeps_ite ?_ (canon_setHere hs)
  split
  · exact canon_trapHere hs
  · exact canon_setHere hs
theorem keeps_vldOp {s : State} {g f6 d at'} (hs : Canon s) : Keeps (vldOp g f6 d at' s) :=
  keeps_rowOp hs
theorem keeps_vstOp {s : State} {g f6 d at'} (hs : Canon s) : Keeps (vstOp g f6 d at' s) :=
  keeps_rowOp hs

/-! ### The functions of Machine/CopyOps.lean -/

theorem canon_modCopy {s : State} {k st id f} (hs : Canon s) : Canon (s.modCopy k st id f) :=
  canon_modCore hs
theorem canon_queueCopy {s : State} {k c st t eu y} (hs : Canon s) : Canon (s.queueCopy k c st t eu y) :=
  canon_setCore hs
theorem keeps_copyOp {s : State} {g ask eu} (hs : Canon s) : Keeps (copyOp g ask eu s) := by
  unfold copyOp
  refine keeps_ite ?_ hs
  dsimp only
  split
  · exact canon_trapHere hs
  · exact canon_queueCopy hs
theorem canon_copyFaultAt {s : State} {k st id b cause info e runs} (hs : Canon s) : Canon (s.copyFaultAt k st id b cause info e runs) := by
  unfold State.copyFaultAt
  split
  · exact hs
  · exact canon_ite (canon_laterFault hs) <| canon_ite (canon_modCopy hs) <| canon_laterFault <| canon_modCopy <| canon_modCopy hs
theorem canon_readIndex {s : State} {k st id n} (hs : Canon s) : Canon (s.readIndex k st id n) := by
  unfold State.readIndex
  split
  · exact hs
  · refine canon_ite hs ?_
    dsimp only
    split
    · exact canon_see <| canon_modCore <| canon_modCopy hs
    · exact canon_later <| canon_see <| canon_modCore <| canon_modCopy hs
theorem canon_needIndex {s : State} {k st id b} (hs : Canon s) : Canon (s.needIndex k st id b) := by
  unfold State.needIndex
  split
  · exact canon_ite hs <| canon_readIndex hs
  · exact hs
theorem canon_readBeat {s : State} {k st id b} (hs : Canon s) : Canon (s.readBeat k st id b) := by
  unfold State.readBeat
  extract_lets -underBinder +onlyGivenNames s
  have h : Canon s := canon_needIndex hs
  extract_lets -underBinder +onlyGivenNames _
  split
  · exact h
  · refine canon_ite h ?_
    split
    · extract_lets -underBinder +onlyGivenNames _ key _ s0
      have h0 : Canon s0 := by
        unfold s0 key
        split
        · exact canon_see h
        · exact h
      extract_lets -underBinder +onlyGivenNames _ s2
      have h2 : Canon s2 := by
        unfold s2
        split
        · exact canon_countRequest <| canon_modCopy h0
        · exact canon_modCopy h0
      extract_lets -underBinder +onlyGivenNames s3
      have h3 : Canon s3 := canon_ite h2 <| canon_later h2
      refine canon_ite ?_ h3
      split
      · exact canon_modCore h3
      · exact h3
    · refine canon_later ?_
      refine canon_modCopy ?_
      split
      · exact canon_ite (canon_meetError <| canon_countRequest h) h
      · exact h
theorem canon_endLookup {s : State} {k st id b dst e va at'} (hs : Canon s) : Canon (s.endLookup k st id b dst e va at') := by
  unfold State.endLookup
  refine canon_ite ?_ (canon_copyFaultAt hs)
  split
  · exact canon_copyFaultAt hs
  · exact canon_ite (canon_modCopy hs) <| canon_copyFaultAt hs
theorem canon_putPlace {s : State} {k st id b dst pl} (hs : Canon s) : Canon (s.putPlace k st id b dst pl) :=
  canon_modCopy hs
theorem canon_lookupTensor {s0 : State} {k st id b dst tid va at'} (hs : Canon s0) : Canon (s0.lookupTensor k st id b dst tid va at') := by
  unfold State.lookupTensor
  dsimp only
  split
  · exact canon_copyFaultAt <| canon_pinTensor hs
  · split
    · exact canon_ite (canon_putPlace <| canon_pinTensor hs) <| canon_copyFaultAt <| canon_pinTensor hs
    · exact canon_copyFaultAt <| canon_pinTensor hs
theorem canon_lookup {s : State} {k st id b dst} (hs : Canon s) : Canon (s.lookup k st id b dst) := by
  unfold State.lookup
  extract_lets -underBinder +onlyGivenNames s
  have h : Canon s := canon_needIndex hs
  dsimp only
  split
  · exact h
  · split
    · exact canon_lookupTensor h
    · refine canon_ite (canon_copyFaultAt h) ?_
      refine canon_ite (canon_modPart <| canon_raiseHoldAt h) ?_
      split
      · exact canon_endLookup h
      · exact canon_later <| canon_raiseHoldAt h
theorem canon_walkEnd {s : State} {k st id b dst} (hs : Canon s) : Canon (s.walkEnd k st id b dst) := by
  unfold State.walkEnd
  dsimp only
  split
  · exact hs
  · split
    · exact canon_copyFaultAt hs
    · exact canon_endLookup <| canon_ite hs <| canon_setCore hs
theorem canon_walkMate {s : State} {k st e w} (hs : Canon s) : Canon (State.walkMate k st e s w) := by
  unfold State.walkMate
  dsimp only
  split
  · exact hs
  · exact canon_endLookup hs
theorem canon_readDescriptor {s : State} {k st id r} (hs : Canon s) : Canon (s.readDescriptor k st id r) :=
  canon_modCopy hs
theorem canon_closeReads {s : State} {k t} (hs : Canon s) : Canon (s.closeReads k t) := by
  unfold State.closeReads
  refine canon_foldl (fun _ _ ht => ?_) hs
  dsimp only
  split
  · exact canon_ite (canon_readIndex ht) ht
  · exact canon_ite (canon_readDescriptor ht) ht
  · exact canon_ite (canon_readBeat ht) ht
  · exact ht
theorem canon_countLine {s : State} {p pd tid} (hs : Canon s) : Canon (s.countLine p pd tid) :=
  canon_ite (canon_setVrec hs) hs
theorem canon_writeDest {s : State} {k st y b v} (hs : Canon s) : Canon (s.writeDest k st y b v) := by
  unfold State.writeDest
  dsimp only
  split
  · split
    · exact canon_writeLine hs
    · exact hs
  · split
    · exact canon_writeLine hs
    · exact hs
  · split
    · exact hs
    · split
      · exact canon_copyFaultAt hs
      · split
        · exact canon_copyFaultAt hs
        · rename_i heq
          have ht1 := canon_of_some (canonOpt_writePlace hs) heq
          exact canon_countRequest <| canon_countLine ht1
  · split
    · exact hs
    · refine canon_ite (canon_copyFaultAt hs) ?_
      split
      · exact canon_copyFaultAt hs
      · rename_i heq
        have ht1 := canon_of_some (canonOpt_writePlace hs) heq
        exact canon_countRequest <| canon_ite ht1 <| canon_countLine ht1
  · exact canon_modCore hs
  · exact hs

/-! ### The functions of Machine/Tensor.lean -/

theorem canon_freezeCount {s : State} {pd tid f} (hs : Canon s) : Canon (s.freezeCount pd tid f) :=
  canon_ite hs hs
theorem keeps_tensorOp {s : State} {g op tidx eu} (hs : Canon s) : Keeps (tensorOp g op tidx eu s) := by
  unfold tensorOp
  refine keeps_ite ?_ hs
  dsimp only
  split
  · exact canon_trapHere hs
  · exact keeps_ite (canon_freezeCount <| canon_setHere hs) <| canon_setHere hs
theorem canon_faultReads {s : State} {p asid tid} (hs : Canon s) : Canon (s.faultReads p asid tid) := by
  unfold State.faultReads
  refine canon_foldl (fun _ _ ht => ?_) hs
  refine canon_foldl (fun _ _ hu => ?_) ht
  refine canon_foldl (fun _ _ hv => ?_) hu
  split
  · exact hv
  · exact canon_modCopy <| canon_copyFaultAt hv
theorem canon_openEpoch {s : State} {p b} (hs : Canon s) : Canon (s.openEpoch p b) :=
  canon_faultReads <| canon_modPart <| canon_setVrec hs
theorem canon_commitEpoch {s : State} {p b} (hs : Canon s) : Canon (s.commitEpoch p b) :=
  canon_setVrec hs
theorem canon_dropEffect {s : State} {k st id} (hs : Canon s) : Canon (s.dropEffect k st id) :=
  canon_modCore hs
theorem canon_effectFault {s : State} {k st e tid} (hs : Canon s) : Canon (s.effectFault k st e tid) :=
  canon_ite (canon_laterFault hs) <| canon_appendEvent hs
theorem keeps_tensorEffect {s : State} {k st id op ok act} (hact : ∀ x y z w, Canon x → Canon (act x y z w)) (hs : Canon s) :
    Keeps (tensorEffect k st id op ok act s) := by
  unfold tensorEffect
  split
  · exact hs
  · refine keeps_ite hs ?_
    dsimp only
    split
    · exact canon_effectFault <| canon_dropEffect hs
    · exact keeps_ite (hact _ _ _ _ <| canon_dropEffect hs) <| canon_effectFault <| canon_dropEffect hs
theorem keeps_execTbumpEffect {s : State} {k st id} (hs : Canon s) : Keeps (execTbumpEffect k st id s) :=
  keeps_tensorEffect (fun _ _ _ _ ht => canon_openEpoch ht) hs
theorem keeps_execTcommitEffect {s : State} {k st id} (hs : Canon s) : Keeps (execTcommitEffect k st id s) := by
  unfold execTcommitEffect
  dsimp only
  split
  · exact hs
  · refine keeps_tensorEffect (fun _ _ _ _ ht => canon_ite (canon_effectFault <| canon_commitEpoch ht) <| canon_commitEpoch ht) ?_
    split
    · exact canon_freezeCount hs
    · exact hs
theorem keeps_execTdigEffect {s : State} {k st id} (hs : Canon s) : Keeps (execTdigEffect k st id s) :=
  keeps_tensorEffect (fun _ _ _ _ ht => canon_modPart ht) hs
theorem canon_rotate {s : State} {p} (hs : Canon s) : Canon (s.rotate p) :=
  canon_foldl (fun _ _ ht => canon_ite ht <| canon_setVrec ht) <| canon_modPart hs
theorem keeps_execKrotEffect {s : State} {k st id} (hs : Canon s) : Keeps (execKrotEffect k st id s) := by
  unfold execKrotEffect
  split
  · exact hs
  · exact keeps_ite hs <| keeps_ite (canon_dropEffect hs) <| keeps_ite (canon_effectFault <| canon_dropEffect hs) <| canon_modPart <| canon_rotate <|
      canon_dropEffect hs

/-! ### The functions of Machine/Seal.lean -/

theorem keeps_sealOp {s : State} {g kd a} (hs : Canon s) : Keeps (sealOp g kd a s) :=
  keeps_ite (keeps_ite (canon_trapHere hs) <| keeps_ite (canon_trapHere hs) <| canon_setHere hs) hs
theorem canon_startOutputs {s : State} {k st old new first} (hs : Canon s) : Canon (s.startOutputs k st old new first) :=
  canon_ite (canon_foldl (fun _ _ ht => canon_later ht) hs) hs
theorem keeps_execSealDescriptorCheck {s : State} {k st id} (hs : Canon s) : Keeps (execSealDescriptorCheck k st id s) := by
  unfold execSealDescriptorCheck
  extract_lets -underBinder +onlyGivenNames _
  split
  · exact hs
  · refine keeps_ite hs ?_
    extract_lets -underBinder +onlyGivenNames _ _ s1
    have h1 : Canon s1 := canon_modCore <| canon_modCopy hs
    split
    · exact canon_copyFaultAt h1
    · exact canon_startOutputs <| canon_modCore <| canon_modCopy h1
theorem canon_releaseSealed {s : State} {k st y b} (hs : Canon s) : Canon (s.releaseSealed k st y b) := by
  unfold State.releaseSealed
  refine canon_ite ?_ ?_
  · split
    · exact canon_writeRaced hs
    · exact hs
  · split
    · exact canon_writeDest hs
    · exact canon_ite (canon_writeDest <| canon_modCopy hs) <| canon_modCopy hs
    · split
      · exact canon_writeDest hs
      · extract_lets -underBinder +onlyGivenNames s1
        have h1 : Canon s1 := canon_ite (canon_openEpoch hs) hs
        exact canon_ite (canon_commitEpoch <| canon_writeDest <| canon_ite (canon_modCopy h1) h1) <| canon_writeDest <|
          canon_ite (canon_modCopy h1) h1

/-! ### The functions of Machine/Wire.lean -/

theorem canon_modCircuit {s : State} {e f} (hs : Canon s) : Canon (s.modCircuit e f) :=
  hs
theorem canon_setPort {s : State} {n x} (hs : Canon s) : Canon (s.setPort n x) :=
  hs
theorem canon_putFlit {s : State} {f key g v} (hs : Canon s) : Canon (s.putFlit f key g v) :=
  hs
theorem canon_overAttach {s : State} {a f} (hs : Canon s) : Canon (s.overAttach a f) := by
  unfold State.overAttach
  split
  · exact hs
  · exact hs
theorem canon_carry {s : State} {p a b kind space sel off tick v} (hs : Canon s) : Canon (s.carry p a b kind space sel off tick v) := by
  unfold State.carry
  dsimp only
  split
  · exact hs
  · exact canon_modPart <| canon_overAttach <| canon_putFlit hs
theorem canonOpt_crossBy {s : State} {c y b ps v} (hs : Canon s) : CanonOpt (s.crossBy c y b ps v) :=
  canonOpt_ite canonOpt_none <| canonOpt_some <| canon_foldl (fun _ _ ht => canon_carry ht) hs
theorem canonOpt_cross {s : State} {k c st y b} (hs : Canon s) : CanonOpt (s.cross k c st y b) :=
  canonOpt_crossBy hs
theorem canonOpt_crossOut {s : State} {k c st y b} (hs : Canon s) : CanonOpt (s.crossOut k c st y b) :=
  canonOpt_crossBy hs
theorem canonOpt_crossWalk {s : State} {k va tick} (hs : Canon s) : CanonOpt (s.crossWalk k va tick) :=
  canonOpt_ite canonOpt_none <| canonOpt_some <| canon_foldl (fun _ _ ht => canon_carry ht) hs
theorem canonOpt_queueOut {s : State} {k c st y b} (hs : Canon s) : CanonOpt (s.queueOut k c st y b) :=
  canonOpt_map fun _ => canon_ite hs <| canon_carry hs
theorem canon_refuseOut {s : State} {o} (hs : Canon s) : Canon (s.refuseOut o) :=
  canon_copyFaultAt hs
theorem canon_putPeer {s : State} {p i kind sel off tick v} (hs : Canon s) : Canon (s.putPeer p i kind sel off tick v) := by
  unfold State.putPeer
  dsimp only
  split
  · exact canon_putFlit hs
  · exact hs
theorem canon_sendOut {s : State} {o} (hs : Canon s) : Canon (s.sendOut o) :=
  canon_ite (canon_putPeer hs) <| canon_refuseOut hs
theorem canon_servePort {s : State} {n} (hs : Canon s) : Canon (s.servePort n) := by
  unfold State.servePort
  refine canon_ite ?_ hs
  dsimp only
  split
  · exact canon_sendOut hs
  · exact hs
theorem canon_servePorts {s : State} (hs : Canon s) : Canon s.servePorts :=
  canon_ite hs <| canon_foldl (fun _ _ ht => canon_servePort ht) hs
theorem canon_refusePeer {s : State} {p i sel off tick} (hs : Canon s) : Canon (s.refusePeer p i sel off tick) :=
  canon_putPeer hs
theorem canon_holdForPeer {s : State} {p i} (hs : Canon s) : Canon (s.holdForPeer p i) := by
  unfold State.holdForPeer
  split
  · exact canon_ite (canon_modCtx <| canon_modPart <| canon_raiseHoldAt hs) hs
  · exact hs
theorem canon_unawait {s : State} {p gone} (hs : Canon s) : Canon (s.unawait p gone) :=
  canon_modPart <| canon_foldl (fun _ _ ht => canon_clearHold ht) hs

/-! ### The functions of Machine/Copy.lean -/

theorem keeps_execBeatSourceRead {s : State} {k st id b} (hs : Canon s) : Keeps (execBeatSourceRead k st id b s) :=
  canon_readBeat hs
theorem keeps_execIndexEntryRead {s : State} {k st id n} (hs : Canon s) : Keeps (execIndexEntryRead k st id n s) :=
  canon_readIndex hs
theorem keeps_execCplSourceRead {s : State} {k st id b} (hs : Canon s) : Keeps (execCplSourceRead k st id b s) :=
  canon_readBeat hs
theorem keeps_execSendBeatRead {s : State} {k st id b} (hs : Canon s) : Keeps (execSendBeatRead k st id b s) :=
  canon_readBeat hs
theorem keeps_execCplDestWrite {s : State} {k st id b} (hs : Canon s) : Keeps (execCplDestWrite k st id b s) := by
  unfold execCplDestWrite
  split
  · split
    · exact canon_modCore <| canon_writeDest hs
    · exact hs
  · exact hs
theorem keeps_execMessageArrival {s : State} {k st id} (hs : Canon s) : Keeps (execMessageArrival k st id s) := by
  unfold execMessageArrival
  dsimp only
  split
  · exact hs
  · exact keeps_ite hs <| keeps_ite (canon_setCore <| canon_modCopy hs) <| canon_modCopy hs
theorem canon_releaseInbound {s : State} {p id} (hs : Canon s) : Canon (s.releaseInbound p id) := by
  unfold State.releaseInbound
  extract_lets -underBinder +onlyGivenNames _
  split
  · exact hs
  · extract_lets -underBinder +onlyGivenNames _ _ refuse
    have hrefuse : Canon refuse := canon_refusePeer <| canon_modPart hs
    split
    · exact hrefuse
    · refine canon_ite ?_ hrefuse
      split
      · exact hrefuse
      · split
        · exact hrefuse
        · rename_i heq
          have ht1 := canon_of_some (canonOpt_writePlace <| canon_modPart hs) heq
          exact canon_countLine ht1
theorem canon_release {s : State} {k st y b} (hs : Canon s) : Canon (s.release k st y b) := by
  unfold State.release
  refine canon_ite hs ?_
  split
  · split
    · exact canon_writeDest hs
    · exact hs
  · exact canon_writeDest <| canon_modCopy hs
  · exact canon_ite (canon_releaseSealed hs) hs
  · exact canon_ite (canon_releaseSealed hs) hs
  · exact canon_ite (canon_releaseSealed hs) hs
  · exact hs
theorem keeps_execBeatRelease {s : State} {k st id b} (hs : Canon s) : Keeps (execBeatRelease k st id b s) := by
  unfold execBeatRelease
  refine keeps_ite (canon_releaseInbound hs) ?_
  dsimp only
  split
  · exact canon_release <| canon_needIndex hs
  · exact canon_needIndex hs
theorem keeps_execLateBeatCheck {s : State} {k st id b} (hs : Canon s) : Keeps (execLateBeatCheck k st id b s) := by
  unfold execLateBeatCheck
  refine keeps_ite (canon_holdForPeer hs) ?_
  split
  · exact hs
  · exact keeps_ite hs <| keeps_ite (canon_copyFaultAt <| canon_modCtx <| canon_setCore hs) <| canon_raiseHold <| canon_modCtx <| canon_setCore hs
theorem canon_releaseOverdue {s : State} {k st id b} (hs : Canon s) : Canon (s.releaseOverdue k st id b) := by
  unfold State.releaseOverdue
  split
  · exact canon_ite (canon_ite (canon_later hs) <| canon_release hs) hs
  · exact hs
theorem canon_nowPresent {s : State} {k st id bs} (hs : Canon s) : Canon (s.nowPresent k st id bs) :=
  canon_foldl (fun _ _ ht => canon_releaseOverdue <| canon_clearHold ht) hs
theorem canon_outputCrosses {s : State} {k st y b} (hs : Canon s) : Canon (s.outputCrosses k st y b) := by
  unfold State.outputCrosses
  refine canon_ite hs ?_
  refine canon_ite (canon_nowPresent hs) ?_
  split
  · exact canon_later hs
  · rename_i heq
    have ht1 := canon_of_some (canonOpt_crossOut hs) heq
    exact canon_nowPresent <| canon_modCopy ht1
theorem canon_placed {s : State} {k st id b dst} (hs : Canon s) : Canon (s.placed k st id b dst) := by
  unfold State.placed
  dsimp only
  split
  · exact hs
  · exact canon_ite (canon_outputCrosses <| canon_modCopy hs) hs
theorem keeps_execBeatPresent {s : State} {k st id b} (hs : Canon s) : Keeps (execBeatPresent k st id b s) := by
  unfold execBeatPresent
  dsimp only
  split
  · exact hs
  · refine keeps_ite (canon_outputCrosses hs) ?_
    refine keeps_ite hs ?_
    refine keeps_ite (canon_copyFaultAt hs) ?_
    split
    · exact canon_later hs
    · rename_i heq
      have ht := canon_of_some (canonOpt_ite (canonOpt_some hs) <|
        canonOpt_bind_of (canonOpt_cross hs) fun _ hu => canonOpt_ite (canonOpt_queueOut hu) (canonOpt_some hu)) heq
      exact canon_nowPresent <| canon_startOutputs <| canon_modCopy ht
theorem keeps_execCopyFault {s : State} {k st id b cause info} (hs : Canon s) : Keeps (execCopyFault k st id b cause info s) := by
  unfold execCopyFault
  refine keeps_ite (canon_later hs) ?_
  split
  · exact canon_foldl (fun _ _ ht => canon_clearHold ht) <| canon_copyFaultAt hs
  · exact canon_copyFaultAt hs
theorem keeps_execWportBeatConsume {s : State} {k st b} (hs : Canon s) : Keeps (execWportBeatConsume k st b s) := by
  unfold execWportBeatConsume
  dsimp only
  split
  · exact hs
  · exact canon_setCore hs
theorem keeps_execVirtLookup {s : State} {k st id b dst} (hs : Canon s) : Keeps (execVirtLookup k st id b dst s) :=
  canon_placed <| canon_lookup hs
theorem keeps_execWalkComplete {s : State} {k st id b dst} (hs : Canon s) : Keeps (execWalkComplete k st id b dst s) := by
  unfold execWalkComplete
  dsimp only
  split
  · exact canon_later hs
  · rename_i heq
    have ht1 := canon_of_some (canonOpt_crossWalk hs) heq
    split
    · exact canon_placed <| canon_clearHold <| canon_walkEnd ht1
    · exact canon_foldl (fun _ _ hu => canon_placed <| canon_clearHold <| canon_walkMate hu) <| canon_placed <| canon_clearHold <| canon_walkEnd ht1

/-! ### The functions of Machine/Barrier.lean -/

theorem canon_setBarriers {s : State} {p n} (hs : Canon s) : Canon (setBarriers s p n) :=
  canon_modLaunch hs
theorem canon_arrive {s : State} {scope wait} (hs : Canon s) : Canon (s.arrive scope wait) :=
  canon_modLaunch <| canon_setHere hs
theorem keeps_barrierOp {s : State} {g wait chk scope} (hs : Canon s) : Keeps (barrierOp g wait chk scope s) := by
  unfold barrierOp
  refine keeps_ite ?_ hs
  split
  · exact hs
  · exact keeps_ite (canon_arrive <| canon_setHere hs) <| canon_trapHere hs
theorem keeps_bstatOp {s : State} {g d chk scope} (hs : Canon s) : Keeps (bstatOp g d chk scope s) := by
  unfold bstatOp
  refine keeps_ite ?_ hs
  split
  · exact canon_setHere hs
  · exact keeps_ite (canon_setHere hs) <| canon_trapHere hs
theorem canon_endWait {s : State} {l scope n r k} (hs : Canon s) : Canon (s.endWait l scope n r k) :=
  canon_ite (canon_setCore hs) hs
theorem keeps_execBarrierComplete {s : State} {p l scope n} (hs : Canon s) : Keeps (execBarrierComplete p l scope n s) := by
  unfold execBarrierComplete
  split
  · exact hs
  · split
    · exact hs
    · exact canon_foldl (fun _ _ ht => canon_endWait ht) <| canon_modLaunch hs
theorem keeps_execWaitBudgetExhausted {s : State} {k} (hs : Canon s) : Keeps (execWaitBudgetExhausted k s) := by
  unfold execWaitBudgetExhausted
  dsimp only
  split
  · exact keeps_ite (canon_raiseHalt <| canon_setCore hs) hs
  · exact hs

/-! ### The functions of Machine/Control.lean -/

theorem keeps_mbrOp {s : State} {g sel} (hs : Canon s) : Keeps (mbrOp g sel s) :=
  keeps_slotTry hs
theorem keeps_execNxt {s : State} {g} (hs : Canon s) : Keeps (execNxt g s) :=
  keeps_ite (canon_modLaunch <| canon_setHere hs) hs
theorem keeps_execNxtDelivery {s : State} {k} (hs : Canon s) : Keeps (execNxtDelivery k s) :=
  canon_setCore hs
theorem canon_releaseLease {s : State} {k} (hs : Canon s) : Canon (s.releaseLease k) :=
  canon_ite (canon_setCore hs) <| canon_ite (canon_modUnit hs) hs
theorem keeps_execExit {s : State} {g} (hs : Canon s) : Keeps (execExit g s) := by
  unfold execExit
  refine keeps_ite ?_ hs
  dsimp only
  split
  · exact canon_releaseLease <| canon_setHere hs
  · exact canon_releaseLease <| canon_arrive <| canon_setHere hs
theorem keeps_execYield {s : State} {g} (hs : Canon s) : Keeps (execYield g s) :=
  keeps_ite (canon_modCtx <| canon_setHere hs) hs

/-! ### The functions of Machine/Matrix.lean -/

theorem keeps_cmdOp {s : State} {g op} (hs : Canon s) : Keeps (cmdOp g op s) := by
  unfold cmdOp
  refine keeps_ite ?_ hs
  refine keeps_ite (canon_trapHere hs) ?_
  split
  · exact canon_trapHere hs
  · exact canon_modUnit <| canon_setHere hs
theorem keeps_execMrel {s : State} {g} (hs : Canon s) : Keeps (execMrel g s) :=
  keeps_ite (canon_releaseLease <| canon_setHere hs) hs
theorem keeps_execLeaseEnd {s : State} {u} (hs : Canon s) : Keeps (execLeaseEnd u s) :=
  keeps_ite (canon_modUnit <| canon_modCore hs) hs
theorem keeps_execLeaseTurnEnd {s : State} {u} (hs : Canon s) : Keeps (execLeaseTurnEnd u s) :=
  keeps_ite (canon_modUnit hs) hs
theorem keeps_execLeaseGrant {s : State} {u} (hs : Canon s) : Keeps (execLeaseGrant u s) := by
  unfold execLeaseGrant
  refine keeps_ite ?_ hs
  split
  · exact hs
  · exact canon_modUnit <| canon_modCore hs
theorem keeps_execMatrixCommandSwap {s : State} {k} (hs : Canon s) : Keeps (execMatrixCommandSwap k s) := by
  unfold execMatrixCommandSwap
  dsimp only
  split
  · exact hs
  · exact canon_modUnit <| canon_setCore hs
theorem canon_weightLine {s : State} {k r last} (hs : Canon s) : Canon (s.weightLine k r last) :=
  canon_ite hs <| canon_modCore hs
theorem canon_lateLine {s : State} {k r m} (hs : Canon s) : Canon (s.lateLine k r m) :=
  canon_modCore hs
theorem canon_sampleMatrix {s : State} {k} (hs : Canon s) : Canon (s.sampleMatrix k) :=
  canon_ite (canon_foldl (fun _ _ ht => canon_see ht) <| canon_setCore hs) hs
theorem keeps_execMatrixCommandComplete {s : State} {k} (hs : Canon s) : Keeps (execMatrixCommandComplete k s) :=
  canon_modUnit <| canon_setCore hs

/-! ### The functions of Machine/Bank.lean -/

theorem canon_askBanks {s : State} {k} (hs : Canon s) : Canon (s.askBanks k) :=
  canon_ite hs <| canon_modCore hs
theorem canon_perform {s : State} {j r} (hs : Canon s) : Canon (s.perform j r) := by
  unfold State.perform
  extract_lets -underBinder +onlyGivenNames _ _ _ _ _ _ _ s1
  have h1 : Canon s1 := canon_setCore hs
  extract_lets -underBinder +onlyGivenNames s2
  have h2 : Canon s2 := by
    unfold s2
    split
    · exact canon_modCore h1
    · exact canon_writeRaced h1
    · exact canon_modCore h1
    · exact canon_writeRaced h1
    · exact canon_writeRaced <| canon_modCore h1
    · exact canon_writeRaced h1
    · exact canon_weightLine h1
    · exact canon_ite (canon_lateLine h1) h1
    · exact canon_readBeat h1
    · exact canon_readIndex h1
    · exact canon_readDescriptor h1
    · exact canon_writeRaced h1
  extract_lets -underBinder +onlyGivenNames s3
  have h3 : Canon s3 := canon_ite (canon_modCore h2) h2
  exact canon_ite (canon_ite (canon_setCore h3) h3) <| canon_see <| canon_ite (canon_setCore h3) h3
theorem canon_performOne {s : State} {e} (hs : Canon s) : Canon (s.performOne e) :=
  canon_perform hs
theorem canon_performOwed {s : State} {k n} (hs : Canon s) : Canon (State.performOwed k n s) := by
  induction n generalizing s with
  | zero => exact hs
  | succ n ih =>
    unfold State.performOwed
    split
    · exact ih (canon_performOne hs)
    · exact hs
theorem keeps_execBankAccessPerform {s : State} {k} (hs : Canon s) : Keeps (execBankAccessPerform k s) :=
  canon_performOwed <| canon_foldl (fun _ _ ht => canon_performOne ht) <| canon_askBanks <| canon_ite (canon_sampleMatrix hs) hs
theorem keeps_execBundleIssue {s : State} {k} (hs : Canon s) : Keeps (execBundleIssue k s) := by
  unfold execBundleIssue
  refine keeps_ite hs ?_
  split
  · exact canon_raiseHalt <| canon_setCore hs
  · exact keeps_ite hs <| keeps_ite (canon_setCore hs) <| keeps_ite (canon_takeTrap <| canon_setCore hs) <| keeps_ite (canon_takeTrap <|
      canon_setCore hs) <| canon_setCore hs
theorem keeps_execWaitEnd {s : State} {k} (hs : Canon s) : Keeps (execWaitEnd k s) := by
  unfold execWaitEnd
  dsimp only
  split
  · exact canon_ite (canon_setCore hs) hs
  · exact hs

/-! ### The functions of Machine/Context.lean -/

theorem canon_writeCcb {s : State} {p a x st} (hs : Canon s) : Canon (s.writeCcb p a x st) :=
  canon_ite hs <| canon_devStore <| canon_devStore <| canon_devStore <| canon_devStore hs
theorem canon_ctxComplete {s : State} {p tag status asid} (hs : Canon s) : Canon (s.ctxComplete p tag status asid) :=
  canon_modPart hs
theorem keeps_ctxCommand {s : State} {p cmd rec argOk f} (hf : ∀ x, Canon (f x)) (hs : Canon s) : Keeps (ctxCommand p cmd rec argOk f s) :=
  canon_withPart hs (fun _ => canon_ite hs <| canon_ite (canon_ctxComplete hs) <| hf _)
theorem keeps_execCreate {s : State} {p rec} (hs : Canon s) : Keeps (execCreate p rec s) := by
  unfold execCreate
  refine keeps_ctxCommand (fun _ => ?_) hs
  refine canon_ite (canon_ctxComplete hs) ?_
  refine canon_ite (canon_ctxComplete hs) ?_
  split
  · exact canon_ctxComplete hs
  · dsimp only
    split
    · exact canon_ctxComplete <| canon_meetRecord hs
    · exact canon_later <| canon_modPart <| canon_meetRecord hs
theorem keeps_execContextCreateComplete {s : State} {p asid} (hs : Canon s) : Keeps (execContextCreateComplete p asid s) := by
  unfold execContextCreateComplete
  split
  · exact hs
  · exact keeps_ite hs <| keeps_ite (canon_ctxComplete <| canon_modCtx <| canon_pinTensor hs) <| canon_ctxComplete <| canon_modPart <|
      canon_writeCcb hs
theorem keeps_execPolicy {s : State} {p rec} (hs : Canon s) : Keeps (execPolicy p rec s) := by
  unfold execPolicy
  refine keeps_ctxCommand (fun _ => ?_) hs
  split
  · exact canon_ctxComplete hs
  · refine canon_ite ?_ (canon_ctxComplete hs)
    dsimp only
    split
    · exact canon_ctxComplete <| canon_meetRecord hs
    · exact canon_ctxComplete <| canon_modCtx <| canon_meetRecord hs
theorem keeps_execDestroy {s : State} {p rec} (hs : Canon s) : Keeps (execDestroy p rec s) := by
  unfold execDestroy
  refine keeps_ctxCommand (fun _ => ?_) hs
  split
  · exact canon_ctxComplete hs
  · exact canon_ite (canon_ctxComplete <| canon_teardown hs) <| canon_ctxComplete hs
theorem keeps_execPreempt {s : State} {p rec} (hs : Canon s) : Keeps (execPreempt p rec s) := by
  unfold execPreempt
  refine keeps_ctxCommand (fun _ => ?_) hs
  split
  · exact canon_ctxComplete hs
  · exact canon_ite (canon_ctxComplete <| canon_modCtx hs) <| canon_ite (canon_ctxComplete <| canon_later <| canon_modCtx hs) <| canon_ctxComplete hs
theorem keeps_execPreemptBoundary {s : State} {p asid} (hs : Canon s) : Keeps (execPreemptBoundary p asid s) := by
  unfold execPreemptBoundary
  split
  · exact hs
  · split
    · exact keeps_ite (canon_modCtx <| canon_raiseHold hs) hs
    · exact hs
theorem canon_clearCores {s : State} {ks} (hs : Canon s) : Canon (s.clearCores ks) :=
  canon_foldl (fun _ _ ht => canon_modUnit <| canon_setCore ht) hs
theorem canon_clearPads {s : State} {ks} (hs : Canon s) : Canon (s.clearPads ks) :=
  canon_filterMem hs rfl rfl
theorem canon_clearBeatHolds {s : State} {p ks} (hs : Canon s) : Canon (s.clearBeatHolds p ks) :=
  canon_modPart hs
theorem canon_dropStreamEvents {s : State} {ks} (hs : Canon s) : Canon (s.dropStreamEvents ks) :=
  hs
theorem canon_saveCore {s : State} {q b stops k} (hs : Canon s) : Canon (State.saveCore q b stops s k) := by
  unfold State.saveCore
  extract_lets -underBinder +onlyGivenNames c o put s1 s2 s3 prog s4 s5 s6 s7 s8 s9 regs s10 s11
  have hput : ∀ t n len v, Canon t → Canon (put t n len v) := fun _ _ _ _ ht => canon_ite ht (canon_saveAt ht)
  have hprog : ∀ x a t, Canon t → Canon (prog x a t) := fun _ _ _ => canon_foldl fun _ _ => hput _ _ _ _
  have h3 : Canon s3 :=
    canon_foldl (fun _ _ => hput _ _ _ _) <| canon_foldl (fun _ _ => hput _ _ _ _) <| canon_foldl (fun _ _ => hput _ _ _ _) hs
  have h7 : Canon s7 :=
    canon_foldl (fun _ _ => hput _ _ _ _) <| canon_foldl (fun _ _ => hput _ _ _ _) <| canon_foldl (fun _ _ => hput _ _ _ _) <|
      hprog _ _ _ <| hprog _ _ _ h3
  have h11 : Canon s11 :=
    canon_foldl (fun _ _ => hput _ _ _ _) <| canon_foldl (fun _ _ => hput _ _ _ _) <| canon_foldl (fun _ _ => hput _ _ _ _) <| hput _ _ _ _ h7
  split
  · exact hput _ _ _ _ h11
  · exact h11
theorem canon_writeSave {s : State} {p b stops ks} (hs : Canon s) : Canon (s.writeSave p b stops ks) :=
  canon_modPart <| canon_setVrec <| canon_foldl (fun _ _ ht => canon_masterBytes ht) <| canon_foldl (fun _ _ ht => canon_saveCore ht) <|
    canon_filterMem hs rfl rfl
theorem canon_patrolSave {s : State} {q b} (hs : Canon s) : Canon (s.patrolSave q b) :=
  canon_ite hs <| canon_foldl (fun _ _ ht => canon_countError ht) hs
theorem keeps_execSaveCommit {s0 : State} {p asid} (hs : Canon s0) : Keeps (execSaveCommit p asid s0) := by
  unfold execSaveCommit
  dsimp only
  split
  · exact hs
  · refine keeps_ite hs ?_
    split
    · exact canon_teardown <| canon_foldl (fun _ _ ht => canon_modCore ht) hs
    · exact canon_clearHold <| canon_foldl (fun _ _ ht => canon_modCore ht) <| canon_clearCores <| canon_clearPads <| canon_clearBeatHolds <|
        canon_dropStreamEvents <| canon_modPart <| canon_modCtx <| canon_writeSave <| canon_patrolSave <|
        canon_foldl (fun _ _ ht => canon_modCore ht) hs
theorem canon_loadBytes {s : State} {key vs} (hs : Canon s) : Canon (s.loadBytes key vs) := by
  induction vs generalizing s key with
  | nil => exact hs
  | cons v vs ih => exact ih (canon_ite hs <| canon_setByte hs)
theorem canon_reload {s : State} {p ls e} (hs : Canon s) : Canon (State.reload p ls s e) := by
  unfold State.reload
  split
  · exact hs
  · exact canon_loadBytes <| canon_filterMem (canon_meetRecord hs) rfl rfl
theorem canon_restore {s0 : State} {p a x} (hs : Canon s0) : Canon (s0.restore p a x) := by
  unfold State.restore
  refine canon_modCtx ?_
  refine canon_foldl (fun _ _ ht => canon_later ht) ?_
  refine canon_modPart ?_
  refine canon_foldl (fun _ _ ht => canon_reload ht) ?_
  refine canon_foldl (fun _ _ ht => canon_setByte ht) ?_
  refine canon_foldl (fun _ _ ht => canon_modUnit ht) ?_
  refine canon_foldl (fun _ _ ht => canon_setCore ht) ?_
  refine canon_clearPads ?_
  split
  · exact canon_patrolSave hs
  · exact hs
theorem keeps_execResume {s : State} {p rec} (hs : Canon s) : Keeps (execResume p rec s) := by
  unfold execResume
  refine keeps_ctxCommand (fun _ => ?_) hs
  split
  · exact canon_ctxComplete hs
  · refine canon_ite (canon_ctxComplete hs) ?_
    refine canon_ite (canon_ctxComplete <| canon_resumeHalted hs) ?_
    refine canon_ite (canon_ctxComplete hs) ?_
    refine canon_ite ?_ (canon_ctxComplete <| canon_acceptResume <| canon_restore hs)
    refine canon_ctxComplete ?_
    refine canon_teardown ?_
    split
    · exact canon_patrolSave hs
    · exact hs
theorem keeps_execTeardownComplete {s : State} {p asid} (hs : Canon s) : Keeps (execTeardownComplete p asid s) := by
  unfold execTeardownComplete
  split
  · exact hs
  · exact keeps_ite hs <| canon_laterBy <| canon_modCtx <| canon_foldl (fun _ _ ht => canon_within ht) <| canon_clearCores <| canon_clearPads <|
      canon_clearBeatHolds <| canon_dropStreamEvents <| canon_modPart hs
theorem canon_scrubMemory {s : State} {asid} (hs : Canon s) : Canon (s.scrubMemory asid) :=
  canon_filterMem hs rfl rfl
theorem keeps_execContextScrubComplete {s : State} {p asid} (hs : Canon s) : Keeps (execContextScrubComplete p asid s) := by
  unfold execContextScrubComplete
  split
  · exact hs
  · refine keeps_ite hs ?_
    extract_lets -underBinder +onlyGivenNames _ s2
    have h2 : Canon s2 := canon_foldl (fun _ _ ht => canon_setVrec ht) <| canon_scrubMemory <| canon_writeCcb hs
    exact canon_modPart <| canon_setCores h2 <| sorted_map s2.cores _ (fun _ => rfl) h2.2

/-! ### The functions of Machine/Queue.lean -/

theorem canon_modQueue {s : State} {p n f} (hs : Canon s) : Canon (s.modQueue p n f) :=
  canon_modPart hs
theorem canon_writeQueue {s : State} {p n f} (hs : Canon s) : Canon (s.writeQueue p n f) :=
  canon_modQueue hs
theorem canon_selectLater {s : State} {p n} (hs : Canon s) : Canon (s.selectLater p n) :=
  canon_ite (canon_later hs) hs
theorem canon_enableQueue {s : State} {p q n cfg} (hs : Canon s) : Canon (s.enableQueue p q n cfg) :=
  canon_ite (canon_ite (canon_selectLater <| canon_writeQueue hs) <| canon_writeQueue hs) <| canon_writeQueue hs
theorem canon_disableQueue {s : State} {p q n cfg} (hs : Canon s) : Canon (s.disableQueue p q n cfg) :=
  canon_writeQueue hs
theorem canon_writeTail {s : State} {p n v} (hs : Canon s) : Canon (s.writeTail p n v) :=
  canon_selectLater <| canon_writeQueue hs
theorem keeps_execQueueEnable {s : State} {p n cfg} (hs : Canon s) : Keeps (execQueueEnable p n cfg s) :=
  canon_withVf hs (fun _ => canon_enableQueue hs)
theorem keeps_execQueueDisable {s : State} {p w} (hs : Canon s) : Keeps (execQueueDisable p w s) :=
  canon_withVf hs (fun _ => canon_disableQueue hs)
theorem keeps_execQtailWrite {s : State} {p n v} (hs : Canon s) : Keeps (execQtailWrite p n v s) :=
  canon_withVf hs (fun _ => canon_writeTail hs)
theorem canon_sealCode {s : State} {q asid image len} (hs : Canon s) : Canon (s.sealCode q asid image len) :=
  canon_foldl (fun _ _ ht => canon_ite (canon_setOwn ht) ht) hs
theorem canon_takeImage {s : State} {p asid image gw gh} (hs : Canon s) : Canon (s.takeImage p asid image gw gh).1 := by
  unfold State.takeImage
  refine canon_fst_ite hs ?_
  split
  · exact hs
  · extract_lets -underBinder +onlyGivenNames _ _ s1
    have h1 : Canon s1 := canon_meetRecord <| canon_ite (canon_sealCode hs) <| canon_sealCode hs
    refine canon_fst_ite ?_ h1
    split
    · exact h1
    · exact canon_modCtx <| canon_modPart h1
theorem canon_refuseHead {s : State} {p n r tag status} (hs : Canon s) : Canon (s.refuseHead p n r tag status) :=
  canon_selectLater <| canon_complete <| canon_modQueue hs
theorem keeps_execQueueSelect {s : State} {p n} (hs : Canon s) : Keeps (execQueueSelect p n s) := by
  unfold execQueueSelect
  refine keeps_ite hs ?_
  refine keeps_ite (canon_selectLater hs) ?_
  extract_lets -underBinder +onlyGivenNames _ s
  have h : Canon s := canon_meetRecord hs
  split
  · exact canon_modQueue h
  · refine keeps_ite (canon_refuseHead h) ?_
    split
    · exact canon_refuseHead h
    · refine keeps_ite (canon_selectLater <| canon_modQueue <| canon_modPart h) ?_
      split
      · rename_i heq
        have ht1 := canon_of_mk (canon_takeImage h) heq
        exact canon_refuseHead ht1
      · rename_i heq
        have ht1 := canon_of_mk (canon_takeImage h) heq
        exact canon_modQueue <| canon_modPart ht1
/-- Structural recursion on a list takes one step. -/
theorem brecOn_cons {α : Type} {motive : List α → Type} (a : α) (l : List α) (F : (t : List α) → List.below (motive := motive) t → motive t) :
    List.brecOn (motive := motive) (a :: l) F = F (a :: l) (List.brecOn.go l F) := rfl
/-- One entry of the declarations, when what binds those after it keeps the form. The functions that read memory are made opaque: the kernel would evaluate them
to compare the cases of the walk. -/
theorem canonFst_bindTensors_step {s : State} {p asid arg i d ds} {b : List.below (motive := fun _ => State → Nat → _) (d :: ds)} (hs : Canon s)
    (hb : ∀ {t j}, Canon t → CanonFst (b.1 t j)) : CanonFst (State.bindTensors._f p asid arg (d :: ds) b s i) := by
  generalize hf : State.bindTensors._f = f
  delta State.bindTensors._f at hf
  subst hf
  beta_reduce
  obtain ⟨read, hread⟩ : ∃ f, f = State.devRecord := ⟨_, rfl⟩
  obtain ⟨pin, hpin⟩ : ∃ f, f = State.pinTensor := ⟨_, rfl⟩
  have hcanon : ∀ n, Canon (pin s p asid n).1 := fun _ => hpin ▸ canon_pinTensor hs
  rw [← hread, ← hpin]
  dsimp only
  split
  · exact canonFst_none
  · refine canonFst_ite canonFst_none ?_
    split
    · exact canonFst_none
    · rename_i heq
      exact canonFst_ite canonFst_none <| canonFst_map (hb <| canon_of_mk (hcanon _) heq) fun _ => rfl
theorem canonFst_bindTensors {s : State} {p asid arg i ds} (hs : Canon s) : CanonFst (s.bindTensors p asid arg i ds) := by
  delta State.bindTensors
  induction ds generalizing s i with
  | nil => exact canonFst_some hs
  | cons d ds ih =>
    rw [brecOn_cons]
    exact canonFst_bindTensors_step hs ih
theorem canonFst_launchArgs {s : State} {p c m} (hs : Canon s) : CanonFst (s.launchArgs p c m) := by
  unfold State.launchArgs
  extract_lets -underBinder +onlyGivenNames _ _
  refine canonFst_ite (canonFst_ite (canonFst_some hs) canonFst_none) ?_
  refine canonFst_ite canonFst_none ?_
  extract_lets -underBinder +onlyGivenNames _
  split
  · exact canonFst_none
  · exact canonFst_ite canonFst_none <| canonFst_map (canonFst_bindTensors <| canon_meetRecord hs) fun _ => rfl
theorem canon_bindLaunch {s : State} {p c h m a gx gy} (hs : Canon s) : Canon (s.bindLaunch p c h m a gx gy) := by
  unfold State.bindLaunch
  extract_lets -underBinder +onlyGivenNames _ _ _ _ _ _ _ _ _ _ _ s3
  have h3 : Canon s3 := canon_foldl (fun _ _ ht => canon_foldl (fun _ _ hu => canon_loadBytes hu) <| canon_setCore <| canon_loadBytes ht) <|
    canon_foldl (fun _ _ ht => canon_modUnit ht) <| canon_filterMem (canon_clearPads hs) rfl rfl
  dsimp only
  split
  · exact canon_modCtx <| canon_modPart h3
  · exact canon_modPart <| canon_modCtx <| canon_modPart h3
theorem canon_endGraph {s : State} {p g status} (hs : Canon s) : Canon (s.endGraph p g status) := by
  unfold State.endGraph
  split
  · exact hs
  · exact canon_unreadBy <| canon_complete <| canon_modPart hs
theorem canon_refuseClaim {s : State} {p c status} (hs : Canon s) : Canon (s.refuseClaim p c status) := by
  unfold State.refuseClaim
  split
  · exact canon_endGraph hs
  · exact canon_selectLater <| canon_complete <| canon_modQueue hs
theorem canon_loseClaim {s : State} {p c} (hs : Canon s) : Canon (s.loseClaim p c) := by
  unfold State.loseClaim
  split
  · exact canon_modPart hs
  · exact canon_selectLater <| canon_modQueue hs
theorem canon_resolveClaim {s : State} {p c} (hs : Canon s) : Canon (s.resolveClaim p c) := by
  unfold State.resolveClaim
  dsimp only
  refine canon_ite (canon_refuseClaim hs) ?_
  refine canon_ite (canon_refuseClaim hs) ?_
  split
  · exact canon_refuseClaim hs
  · rename_i heq
    have ht : Canon _ := canonFst_launchArgs hs _ heq
    split
    · exact canon_loseClaim hs
    · split
      · exact canon_bindLaunch <| canon_meetRecord ht
      · exact canon_selectLater <| canon_modQueue <| canon_bindLaunch <| canon_meetRecord ht
theorem canon_moveLeaders {s : State} {p} (hs : Canon s) : Canon (s.moveLeaders p) := by
  unfold State.moveLeaders
  refine canon_foldl (fun _ _ ht => ?_) hs
  dsimp only
  split
  · exact ht
  · exact canon_ite ht <| canon_selectLater <| canon_modQueue <| canon_modPart ht
theorem keeps_execClaimResolve {s : State} {p} (hs : Canon s) : Keeps (execClaimResolve p s) :=
  canon_withPart hs (fun _ => canon_ite hs <| canon_foldl (fun _ _ hu => canon_resolveClaim hu) <| canon_modPart <| canon_moveLeaders <|
    canon_modPart hs)

/-! ### The functions of Machine/Launch.lean -/

theorem keeps_execLaunchStart {s : State} {p l} (hs : Canon s) : Keeps (execLaunchStart p l s) := by
  unfold execLaunchStart
  split
  · exact hs
  · exact keeps_ite (canon_foldl (fun _ _ ht => canon_ite (canon_setCore ht) ht) <| canon_foldl (fun _ _ ht => canon_modUnit ht) <|
      canon_modLaunch hs) hs
theorem canon_lateTrap {s : State} {k d} (hs : Canon s) : Canon (s.lateTrap k d) :=
  canon_ite (canon_teardown <| canon_appendEvent hs) <| canon_appendEvent hs
theorem keeps_execCoreExitTick {s : State} {k} (hs : Canon s) : Keeps (execCoreExitTick k s) :=
  keeps_ite (keeps_ite (canon_modCtx <| canon_clearHold <| canon_foldl (fun _ _ ht => canon_lateTrap ht) <| canon_modCtx <| canon_setCore hs) <|
    canon_foldl (fun _ _ ht => canon_lateTrap ht) <| canon_modCtx <| canon_setCore hs) <| canon_ite (canon_setCore hs) hs
theorem canon_findFaults {s : State} {ks} (hs : Canon s) : Canon (s.findFaults ks) := by
  unfold State.findFaults
  refine canon_foldl (fun _ _ ht => ?_) hs
  split
  · exact canon_copyFaultAt ht
  · exact ht
theorem keeps_execLaunchRetire {s : State} {p l} (hs : Canon s) : Keeps (execLaunchRetire p l s) := by
  unfold execLaunchRetire
  split
  · exact hs
  · refine keeps_ite ?_ hs
    refine keeps_ite (canon_findFaults hs) ?_
    extract_lets -underBinder +onlyGivenNames s1
    have h1 : Canon s1 := canon_foldl (fun _ _ ht => canon_setCore ht) <| canon_modPart <| canon_findFaults hs
    split
    · exact canon_unreadBy <| canon_complete h1
    · exact canon_modPart h1
theorem canon_modGraph {s : State} {p g f} (hs : Canon s) : Canon (s.modGraph p g f) :=
  canon_modPart hs
theorem canon_reach {s : State} {p g node at'} (hs : Canon s) : Canon (s.reach p g node at') := by
  unfold State.reach
  extract_lets -underBinder +onlyGivenNames s1
  have h1 : Canon s1 := canon_modGraph hs
  split
  · exact canon_ite h1 h1
  · exact h1
theorem keeps_takeNode {s : State} {p g kind f} (hf : ∀ x y z, Canon z → Canon (f x y z)) (hs : Canon s) : Keeps (takeNode p g kind f s) := by
  unfold takeNode
  refine canon_withPart hs (fun _ => ?_)
  split
  · exact hs
  · refine canon_ite hs ?_
    extract_lets -underBinder +onlyGivenNames s1
    have h1 : Canon s1 := canon_meetRecord hs
    split
    · exact canon_endGraph h1
    · exact canon_ite hs <| canon_ite (canon_ite (canon_endGraph h1) <| hf _ _ _ <| canon_modGraph h1) <| hf _ _ _ h1
theorem keeps_execGraphKernelNode {s : State} {p g} (hs : Canon s) : Keeps (execGraphKernelNode p g s) := by
  unfold execGraphKernelNode
  refine keeps_takeNode (fun _ _ _ ht => ?_) hs
  dsimp only
  split
  · exact canon_endGraph ht
  · split
    · rename_i heq
      have hu1 := canon_of_mk (canon_takeImage ht) heq
      exact canon_endGraph hu1
    · rename_i heq
      have hu1 := canon_of_mk (canon_takeImage ht) heq
      exact canon_modGraph <| canon_modPart hu1
theorem canon_condWord {s : State} {p z x} (hs : Canon s) : Canon (s.condWord p z x).1 := by
  unfold State.condWord
  split
  · rename_i heq
    have ht1 := canon_of_mk (canon_readDesc hs) heq
    exact ht1
  · rename_i heq
    have ht1 := canon_of_mk (canon_readDesc hs) heq
    refine canon_fst_ite ?_ ht1
    split
    · exact canon_meetError ht1
    · exact ht1
theorem keeps_execGraphCondNode {s : State} {p g} (hs : Canon s) : Keeps (execGraphCondNode p g s) := by
  unfold execGraphCondNode
  refine keeps_takeNode (fun _ _ _ ht => ?_) hs
  split
  · rename_i heq
    have hu1 := canon_of_mk (canon_condWord ht) heq
    exact canon_endGraph hu1
  · rename_i heq
    have hu1 := canon_of_mk (canon_condWord ht) heq
    exact canon_reach hu1
theorem keeps_execGraphWhileNode {s : State} {p g} (hs : Canon s) : Keeps (execGraphWhileNode p g s) := by
  unfold execGraphWhileNode
  refine keeps_takeNode (fun _ _ _ ht => ?_) hs
  split
  · rename_i heq
    have hu1 := canon_of_mk (canon_condWord ht) heq
    exact canon_endGraph hu1
  · rename_i heq
    have hu1 := canon_of_mk (canon_condWord ht) heq
    exact canon_ite (canon_reach <| canon_modGraph hu1) <| canon_ite (canon_reach <| canon_modGraph hu1) <| canon_endGraph hu1
theorem canon_swapTick {s : State} {recs p g z go} (hs : Canon s) (hgo : ∀ x, Canon x → Canon (go x)) : Canon (s.swapTick recs p g z go) :=
  canon_ite (hgo _ hs) <| canon_ite (canon_endGraph hs) <| canon_modGraph hs
theorem keeps_execGraphSwapNode {s : State} {p g} (hs : Canon s) : Keeps (execGraphSwapNode p g s) := by
  unfold execGraphSwapNode
  split
  · exact hs
  · exact keeps_ite (canon_ite (canon_swapTick hs (fun _ ht => canon_modGraph ht)) hs) <|
      keeps_takeNode (fun _ _ _ ht => canon_ite (canon_modGraph <| canon_readDesc ht) <| canon_swapTick (canon_modGraph <|
      canon_readDesc ht) (fun _ hu => canon_reach hu)) hs
theorem keeps_execGraphEndNode {s : State} {p g} (hs : Canon s) : Keeps (execGraphEndNode p g s) :=
  keeps_takeNode (fun _ _ _ ht => canon_endGraph ht) hs

/-! ### The functions of Machine/Page.lean -/

theorem canon_pageDone {s : State} {p code} (hs : Canon s) : Canon (s.pageDone p code) :=
  canon_modPart hs
theorem canon_zeroGranule {s : State} {station pd off} (hs : Canon s) : Canon (s.zeroGranule station pd off) :=
  canon_ite (canon_uncover <| canon_filterMem hs rfl rfl) <| canon_clearStamps <| canon_filterMem hs rfl rfl
theorem keeps_execAssign {s : State} {p rec} (hs : Canon s) : Keeps (execAssign p rec s) := by
  unfold execAssign
  refine canon_withPart hs (fun _ => ?_)
  split
  · exact canon_pageDone hs
  · exact canon_ite (canon_pageDone hs) <| canon_pageDone <| canon_foldl (fun _ _ hu => canon_setOwn <| canon_zeroGranule hu) hs
theorem keeps_execRelease {s : State} {p rec} (hs : Canon s) : Keeps (execRelease p rec s) := by
  unfold execRelease
  refine canon_withPart hs (fun _ => ?_)
  split
  · exact canon_pageDone hs
  · exact canon_ite (canon_pageDone hs) <| canon_ite (canon_pageDone hs) <| canon_pageDone <| canon_foldl (fun _ _ hu => canon_setOwn <|
      canon_zeroGranule hu) hs
theorem canon_dropTlb {s : State} {p asid va size} (hs : Canon s) : Canon (s.dropTlb p asid va size) :=
  canon_mapCores (fun e => by split <;> rfl) hs rfl rfl
theorem keeps_execInvalidate {s : State} {p rec} (hs : Canon s) : Keeps (execInvalidate p rec s) :=
  canon_withPart hs (fun _ => canon_ite (canon_pageDone <| canon_dropTlb hs) <| canon_pageDone hs)
theorem keeps_execMigrate {s : State} {p rec} (hs : Canon s) : Keeps (execMigrate p rec s) := by
  unfold execMigrate
  refine canon_withPart hs (fun _ => ?_)
  dsimp only
  split
  · exact canon_pageDone hs
  · exact canon_ite (canon_pageDone hs) <| canon_ite (canon_pageDone hs) <| canon_ite (canon_pageDone hs) <| canon_modPart <| canon_dropTlb <|
      canon_foldl (fun _ _ hu => canon_setOwn hu) hs
theorem keeps_execMigrationCopyStart {s : State} {p} (hs : Canon s) : Keeps (execMigrationCopyStart p s) := by
  unfold execMigrationCopyStart
  split
  · exact keeps_ite (canon_later <| canon_modPart hs) hs
  · exact hs
theorem canon_moveLine {s : State} {q m new i} (hs : Canon s) : Canon (s.moveLine q m new i) := by
  unfold State.moveLine
  split
  · extract_lets -underBinder +onlyGivenNames pa pb o
    refine canon_ite hs ?_
    extract_lets -underBinder +onlyGivenNames good v s0 s1 _ s2
    have h0 : Canon s0 := canon_ite (canon_countError hs) hs
    have h1 : Canon s1 := canon_setBytes h0
    have h2 : Canon s2 := canon_ite h1 (canon_setStamp (s := s1) h1)
    refine canon_ite h2 ?_
    extract_lets -underBinder +onlyGivenNames s3
    have h3 : Canon s3 := canon_setBytes h2
    clear_value s3
    exact canon_ite h3 h3
  · exact hs
theorem canon_reEpoch {s : State} {station pd off gen epoch} (hs : Canon s) : Canon (s.reEpoch station pd off gen epoch) :=
  canon_setOwn <| canon_ite hs <| canon_foldl (fun _ _ ht => canon_ite ht <| canon_setStamp ht) hs
theorem keeps_execCopyEngineComplete {s : State} {p} (hs : Canon s) : Keeps (execCopyEngineComplete p s) := by
  unfold execCopyEngineComplete
  split
  · exact hs
  · exact keeps_ite hs <| canon_modPart <| canon_foldl (fun _ _ ht => canon_placed <| canon_lookup ht) <| canon_pageDone <| canon_modPart <|
      canon_foldl (fun _ _ ht => canon_setOwn ht) <| canon_foldl (fun _ _ ht => canon_store ht) <| canon_foldl (fun _ _ ht => canon_reEpoch ht) <|
      canon_foldl (fun _ _ ht => canon_moveLine ht) hs
theorem keeps_execPatrolRead {s : State} {die granule bad} (hs : Canon s) : Keeps (execPatrolRead die granule bad s) :=
  keeps_ite (canon_modDie <| canon_foldl (fun _ _ ht => canon_countError <| canon_setStamp ht) hs) hs

/-! ### The functions of Machine/Shard.lean -/

theorem canon_setEntry {s : State} {p asid base i off v} (hs : Canon s) : Canon (s.setEntry p asid base i off v) :=
  canon_ite (canon_devStore hs) hs
/-! The next proof, and two like it, unfold the function as a constant and not at its arguments: for the unfolded match the kernel would evaluate the record that it
reads, a manifest header, where it compares it with the call. -/

theorem canon_manifestCount {s : State} {p} (hs : Canon s) : Canon (s.manifestCount p) := by
  generalize hf : State.manifestCount = f
  delta State.manifestCount at hf
  subst hf
  beta_reduce
  extract_lets -underBinder +onlyGivenNames q m base
  split
  · exact hs
  · exact canon_modPart hs
theorem canon_setPoison {s : State} {p asid tid bad} (hs : Canon s) : Canon (s.setPoison p asid tid bad) := by
  unfold State.setPoison
  split
  · rename_i heq
    have ht1 := canon_of_mk (canon_readDesc hs) heq
    exact canon_setVrec ht1
  · rename_i heq
    have ht1 := canon_of_mk (canon_readDesc hs) heq
    exact canon_foldl (fun _ _ hu => canon_setVrec hu) ht1
theorem canon_shardFail {s : State} {p asid base i} (hs : Canon s) : Canon (s.shardFail p asid base i) :=
  canon_ite (canon_modPart <| canon_setEntry <| canon_setEntry <| canon_setEntry <| canon_setEntry <| canon_setPoison hs) <| canon_appendEvent <|
    canon_modPart <| canon_setEntry <| canon_setEntry <| canon_setEntry <| canon_setEntry <| canon_setPoison hs
theorem canon_digestRead {s : State} {p} (hs : Canon s) : Canon (s.digestRead p) := by
  unfold State.digestRead
  refine canon_foldl (fun _ _ ht => ?_) (canon_modPart hs)
  refine canon_ite ?_ ht
  split
  · exact canon_meetError ht
  · exact ht
theorem canon_endDigest {s : State} {p d} (hs : Canon s) : Canon (s.endDigest p d) := by
  generalize hf : State.endDigest = f
  delta State.endDigest at hf
  subst hf
  beta_reduce
  extract_lets -underBinder +onlyGivenNames b q set
  have hset : ∀ t bad, Canon t → Canon (set t bad) := fun t bad ht => canon_manifestCount <| canon_ite (canon_setVrec ht) ht
  -- both reads are made opaque, as above
  obtain ⟨found, hfound⟩ : ∃ o, o = s.entryOf p d.asid b.tid := ⟨_, rfl⟩
  obtain ⟨entry, hentry⟩ : ∃ f, f = s.entryIn q d.asid := ⟨_, rfl⟩
  rw [← hfound, ← hentry]
  split
  · exact hset _ _ hs
  · split
    · exact hset _ _ hs
    · exact canon_ite (hset _ _ hs) <| canon_ite (hset _ _ <| canon_shardFail hs) <| hset _ _ hs
theorem keeps_execDigestResult {s : State} {p tid} (hs : Canon s) : Keeps (execDigestResult p tid s) := by
  unfold execDigestResult
  refine canon_withPart hs (fun _ => ?_)
  split
  · exact hs
  · exact canon_endDigest <| canon_modPart hs
theorem canon_startLoad {s : State} {p asid q} (hs : Canon s) : Canon (s.startLoad p asid q) := by
  unfold State.startLoad
  extract_lets -underBinder +onlyGivenNames s0
  have h0 : Canon s0 := canon_modPart hs
  refine canon_ite h0 ?_
  extract_lets -underBinder +onlyGivenNames base fail
  have hfail : Canon fail := canon_modPart h0
  split
  · exact hfail
  · extract_lets -underBinder +onlyGivenNames es
    refine canon_ite hfail ?_
    extract_lets -underBinder +onlyGivenNames s1
    have h1 : Canon s1 := canon_foldl (fun _ _ ht => canon_setEntry <| canon_setEntry ht) <| canon_meetRecord h0
    exact canon_manifestCount <| canon_modPart h1
theorem keeps_execManifestLoad {s : State} {p asid} (hs : Canon s) : Keeps (execManifestLoad p asid s) :=
  canon_withVf hs (fun _ => canon_startLoad hs)
theorem canonOpt_loadShard {s : State} {p b data} (hs : Canon s) : CanonOpt (s.loadShard p b data) := by
  unfold State.loadShard
  dsimp only
  refine canonOpt_ite canonOpt_none ?_
  split
  · rename_i heq
    refine canonOpt_some <| canon_commitEpoch <| canon_of_some (canonOpt_foldl (fun o n ho => ?_) <| canonOpt_some <| canon_openEpoch hs) heq
    split
    · exact canonOpt_map_of (canonOpt_writePlace <| ho _ rfl) fun _ hu => canon_countLine hu
    · exact canonOpt_none
  · exact canonOpt_some <| canon_commitEpoch <| canon_openEpoch hs
theorem keeps_execShardAttemptComplete {s : State} {p i ok data} (hs : Canon s) : Keeps (execShardAttemptComplete p i ok data s) := by
  unfold execShardAttemptComplete
  refine canon_withPart hs (fun _ => ?_)
  split
  · exact hs
  · refine canon_ite hs ?_
    extract_lets -underBinder +onlyGivenNames base fail
    have hfail : ∀ t, Canon t → Canon (fail t) := fun _ ht => canon_manifestCount <| canon_shardFail ht
    split
    · exact hfail _ hs
    · split
      · rename_i heq
        have hu1 := canon_of_mk (canon_readDesc hs) heq
        exact hfail _ hu1
      · rename_i heq
        have hu1 := canon_of_mk (canon_readDesc hs) heq
        split
        · exact hfail _ hu1
        · rename_i heq
          have hv1 := canon_of_some (canonOpt_ite (canonOpt_loadShard hu1) canonOpt_none) heq
          exact canon_ite (canon_manifestCount <| canon_modPart <| canon_setEntry <| canon_setPoison hv1) <| hfail _ hv1
theorem keeps_execShardDeadline {s : State} {p i} (hs : Canon s) : Keeps (execShardDeadline p i s) :=
  canon_withPart hs (fun _ => canon_foldl (fun _ _ hu => canon_manifestCount <| canon_shardFail <| canon_modPart hu) hs)
theorem canon_recheck {s : State} {p asid base} (hs : Canon s) : Canon (s.recheck p asid base) := by
  generalize hf : State.recheck = f
  delta State.recheck at hf
  subst hf
  beta_reduce
  extract_lets -underBinder +onlyGivenNames q t
  split
  · exact hs
  · refine canon_ite hs ?_
    refine canon_foldl (fun _ _ ht => ?_) hs
    split
    · exact ht
    · split
      · rename_i heq
        have hu1 := canon_of_mk (canon_readDesc ht) heq
        exact hu1
      · rename_i heq
        have hu1 := canon_of_mk (canon_readDesc ht) heq
        exact canon_modPart hu1
theorem keeps_execManifestRecheck {s : State} {p} (hs : Canon s) : Keeps (execManifestRecheck p s) :=
  canon_withPart hs (fun _ => canon_foldl (fun _ _ hu => canon_recheck hu) hs)

/-! ### The functions of Machine/Link.lean -/

theorem canon_tellHost {s : State} {kind n} (hs : Canon s) : Canon (s.tellHost kind n) :=
  hs
theorem canon_moveAttach {s : State} {d from' f} (hs : Canon s) : Canon (s.moveAttach d from' f) :=
  canon_ite (canon_modDie hs) hs
theorem canon_teardownDie {s : State} {d} (hs : Canon s) : Canon (s.teardownDie d) :=
  canon_foldl (fun _ _ ht => canon_foldl (fun _ _ hu => canon_ite (canon_teardown hu) hu) ht) hs
theorem keeps_execAttachTrainingFail {s : State} {die} (hs : Canon s) : Keeps (execAttachTrainingFail die s) :=
  keeps_ite (canon_tellHost <| canon_teardownDie <| canon_modDie hs) hs
theorem keeps_execCircuitEnable {s : State} {e w} (hs : Canon s) : Keeps (execCircuitEnable e w s) :=
  keeps_ite hs <| keeps_ite (canon_ite hs hs) <| keeps_ite hs <| canon_atWall <| canon_modCircuit hs
theorem keeps_execCircuitLit {s : State} {e} (hs : Canon s) : Keeps (execCircuitLit e s) :=
  keeps_ite hs <| keeps_ite (canon_later hs) <| canon_of_eq (s := s) hs rfl rfl
theorem keeps_execCircuitDisable {s : State} {e} (hs : Canon s) : Keeps (execCircuitDisable e s) :=
  keeps_ite (keeps_ite hs <| canon_atWall <| canon_modCircuit hs) hs
theorem keeps_execCircuitDrainComplete {s : State} {e} (hs : Canon s) : Keeps (execCircuitDrainComplete e s) :=
  keeps_ite (canon_modCircuit hs) hs
theorem canon_degrade {s : State} {d} (hs : Canon s) : Canon (s.degrade d) := by
  unfold State.degrade
  dsimp only
  split
  · exact hs
  · exact canon_tellHost <| canon_modCircuit hs
theorem canon_keep {s : State} {d} (hs : Canon s) : Canon (s.keep d) :=
  hs
theorem canon_replays {s : State} {on code} (hs : Canon s) : Canon (s.replays on code) :=
  hs
theorem canon_replaceWave {s : State} {d} (hs : Canon s) : Canon (s.replaceWave d) :=
  canon_ite (canon_modDie hs) <| canon_degrade hs
theorem canon_fenceWave {s : State} {die i} (hs : Canon s) : Canon (s.fenceWave die i) :=
  canon_ite hs <| canon_ite (canon_ite hs <| canon_replaceWave <| canon_replays <| canon_modDie hs) <| canon_ite hs <|
    canon_ite (canon_replaceWave <| canon_replays <| canon_modDie hs) <| canon_modDie hs
theorem keeps_execWavelengthFence {s : State} {die i} (hs : Canon s) : Keeps (execWavelengthFence die i s) :=
  canon_ite (canon_keep <| canon_fenceWave hs) hs
theorem canon_waveFail {s : State} {d} (hs : Canon s) : Canon (s.waveFail d) :=
  canon_ite hs <| canon_ite hs <| canon_keep <| canon_fenceWave hs
theorem keeps_execPortEnable {s : State} {n} (hs : Canon s) : Keeps (execPortEnable n s) :=
  canon_ite (canon_setPort hs) hs
theorem keeps_execPortTrainingPass {s : State} {n width} (hs : Canon s) : Keeps (execPortTrainingPass n width s) :=
  keeps_ite (canon_of_eq (s := s) hs rfl rfl) hs
theorem keeps_execPortLaneLoss {s : State} {n} (hs : Canon s) : Keeps (execPortLaneLoss n s) :=
  canon_ite (canon_replays <| canon_setPort hs) hs
theorem canon_sendControl {s : State} {n kind p i body} (hs : Canon s) : Canon (s.sendControl n kind p i body) := by
  unfold State.sendControl
  dsimp only
  split
  · exact hs
  · exact hs
  · exact hs
theorem canon_countDisc {s : State} {p port n} (hs : Canon s) : Canon (s.countDisc p port n) := by
  unfold State.countDisc
  split
  · exact canon_modCircuit hs
  · exact hs
theorem canon_modPeer {s : State} {p i f} (hs : Canon s) : Canon (s.modPeer p i f) :=
  canon_modPart hs
theorem canon_dropPeer {s : State} {p i st why} (hs : Canon s) : Canon (s.dropPeer p i st why) := by
  unfold State.dropPeer
  extract_lets -underBinder +onlyGivenNames q y n s1 s2 mine
  have h2 : Canon s2 := canon_unawait <| canon_countDisc <| canon_modPeer <| canon_modPart hs
  clear_value s2
  exact canon_foldl (fun _ _ ht => canon_refuseOut ht) h2
theorem keeps_execPortDisable {s : State} {n} (hs : Canon s) : Keeps (execPortDisable n s) :=
  keeps_ite (canon_foldl (fun _ _ ht => canon_foldl (fun _ _ hu => canon_ite (canon_dropPeer hu) hu) ht) <| canon_of_eq (s := s) hs rfl rfl) hs
theorem keeps_execFabidxWrite {s : State} {v} (hs : Canon s) : Keeps (execFabidxWrite v s) :=
  canon_ite hs hs
theorem canon_setLane {s : State} {f l} (hs : Canon s) : Canon (s.setLane f l) :=
  hs
theorem canon_countFlit {s : State} {f g} (hs : Canon s) : Canon (s.countFlit f g) := by
  unfold State.countFlit
  split
  · exact canon_modCircuit hs
  · exact hs
theorem canon_waveFailed {s : State} {f} (hs : Canon s) : Canon (s.waveFailed f) := by
  unfold State.waveFailed
  split
  · exact canon_waveFail hs
  · exact hs
theorem canon_flitFail {s : State} {f} (hs : Canon s) : Canon (s.flitFail f) := by
  unfold State.flitFail
  extract_lets -underBinder +onlyGivenNames _ s1
  have h1 : Canon s1 := canon_waveFailed <| canon_countFlit hs
  refine canon_ite (canon_setLane h1) ?_
  dsimp only
  split
  · exact canon_copyFaultAt <| canon_unawait <| canon_setLane h1
  · exact canon_unawait <| canon_setLane h1
theorem canon_deliver {s : State} {f v} (hs : Canon s) : Canon (s.deliver f v) := by
  unfold State.deliver
  refine canon_ite ?_ ?_
  · split
    · split
      · rename_i heq
        have ht1 := canon_of_next (keeps_execBeatPresent hs) heq
        exact ht1
      · exact hs
    · exact hs
  · extract_lets -underBinder +onlyGivenNames _ s1
    have h1 : Canon s1 := canon_ite (canon_modPeer hs) hs
    refine canon_ite ?_ ?_
    · dsimp only
      split
      · rename_i heq
        have ht1 := canon_of_mk (canon_readDesc <| canon_unawait h1) heq
        exact canon_refusePeer ht1
      · rename_i heq
        have ht1 := canon_of_mk (canon_readDesc <| canon_unawait h1) heq
        exact canon_ite (canon_modPart ht1) <| canon_refusePeer ht1
    · refine canon_ite ?_ h1
      split
      · exact canon_copyFaultAt h1
      · exact h1
theorem keeps_execFlitReceive {s : State} {f0} (hs : Canon s) : Keeps (execFlitReceive f0 s) := by
  unfold execFlitReceive
  refine keeps_ite (canon_countFlit hs) ?_
  refine keeps_ite (canon_ite hs <| canon_countFlit hs) ?_
  split
  · exact hs
  · refine keeps_ite hs ?_
    refine keeps_ite (canon_countFlit hs) ?_
    split
    · exact canon_flitFail hs
    · exact keeps_ite (canon_countFlit hs) <| canon_deliver <| canon_setLane hs

/-! ### The functions of Machine/Peer.lean -/

theorem canon_ownMsg {s : State} {p} (hs : Canon s) : Canon (s.ownMsg p).1 :=
  hs
theorem canon_ownResp {s : State} {p msg} (hs : Canon s) : Canon (s.ownResp p msg).1 := by
  unfold State.ownResp
  split
  · rename_i heq
    have ht1 := canon_of_mk (canon_ownMsg hs) heq
    exact ht1
theorem canon_peerStep {s : State} {p i f} (hs : Canon s) : Canon (s.peerStep p i f) :=
  canon_atWall <| canon_modPeer hs
theorem keeps_execPeerOpen {s : State} {p i} (hs : Canon s) : Keeps (execPeerOpen p i s) := by
  unfold execPeerOpen
  refine canon_withVf hs (fun _ => ?_)
  refine canon_ite ?_ hs
  refine canon_ite (canon_modPeer hs) ?_
  split
  · rename_i heq
    have hu1 := canon_of_mk (canon_ownMsg hs) heq
    exact canon_sendControl <| canon_peerStep hu1
theorem keeps_execPeerClose {s : State} {p i} (hs : Canon s) : Keeps (execPeerClose p i s) :=
  canon_withVf hs (fun _ => canon_ite (canon_sendControl <| canon_dropPeer hs) <| canon_ite (canon_dropPeer hs) hs)
theorem keeps_execPeerInit {s : State} {p n msg} (hs : Canon s) : Keeps (execPeerInit p n msg s) := by
  unfold execPeerInit
  refine canon_withPart hs (fun _ => ?_)
  split
  · exact canon_countDisc hs
  · refine canon_ite (canon_dropPeer hs) ?_
    split
    · rename_i heq
      have hu1 := canon_of_mk (canon_ownResp hs) heq
      exact canon_sendControl <| canon_peerStep hu1
theorem keeps_execPeerResp {s : State} {p i msg} (hs : Canon s) : Keeps (execPeerResp p i msg s) := by
  unfold execPeerResp
  refine canon_withPart hs (fun _ => ?_)
  dsimp only
  split
  · exact canon_ite hs <| canon_ite (canon_dropPeer hs) <| canon_ite (canon_sendControl <| canon_modPeer hs) <| canon_dropPeer hs
  · exact hs
theorem keeps_execPeerFin {s : State} {p i msg} (hs : Canon s) : Keeps (execPeerFin p i msg s) := by
  unfold execPeerFin
  refine canon_withPart hs (fun _ => ?_)
  dsimp only
  split
  · exact canon_ite hs <| canon_ite (canon_modPeer hs) <| canon_dropPeer hs
  · exact hs
theorem keeps_execPeerCloseReceived {s : State} {p i} (hs : Canon s) : Keeps (execPeerCloseReceived p i s) :=
  canon_withPart hs (fun _ => canon_ite (canon_dropPeer hs) hs)
theorem keeps_execPeerTimeout {s : State} {p i} (hs : Canon s) : Keeps (execPeerTimeout p i s) :=
  canon_withPart hs (fun _ => canon_ite (canon_dropPeer hs) hs)
theorem canon_resetFunction {s : State} {p} (hs : Canon s) : Canon (s.resetFunction p) := by
  unfold State.resetFunction
  refine canon_withPart hs (fun q => ?_)
  extract_lets -underBinder +onlyGivenNames s0 s1 s2 tell s3 s4
  have h1 : Canon s1 := canon_foldl (fun _ _ hu => canon_teardown hu) <| canon_modPart hs
  have h2 : Canon s2 := canon_modPart h1
  have h3 : Canon s3 := canon_foldl (fun _ _ hu => canon_ite (canon_sendControl hu) hu) h2
  have h4 : Canon s4 := canon_foldl (fun _ _ hu => canon_dropPeer hu) h3
  clear_value s4
  exact h4
theorem keeps_execFunctionLevelReset {s : State} {p} (hs : Canon s) : Keeps (execFunctionLevelReset p s) :=
  canon_resetFunction hs

/-! ### The functions of Machine/Health.lean -/

theorem canon_fenceCore {s : State} {k} (hs : Canon s) : Canon (s.fenceCore k) :=
  canon_modCore <| canon_foldl (fun _ _ ht => canon_teardown ht) hs
theorem canon_fencePos {s : State} {d pos} (hs : Canon s) : Canon (s.fencePos d pos) := by
  unfold State.fencePos
  dsimp only
  split
  · exact canon_fenceCore <| canon_modDie hs
  · exact canon_modDie hs
theorem canon_fence {s : State} {d fn} (hs : Canon s) : Canon (s.fence d fn) := by
  unfold State.fence
  refine canon_ite hs ?_
  refine canon_keep ?_
  split
  · exact canon_ite (canon_modDie hs) <| canon_fencePos <| canon_modDie hs
  · exact canon_fencePos hs
  · exact canon_foldl (fun _ _ ht => canon_fenceCore ht) <| canon_modDie hs
  · exact canon_fenceWave hs
  · exact canon_modDie hs
theorem keeps_execBuiltinTestComplete {s : State} {die fn pass} (hs : Canon s) : Keeps (execBuiltinTestComplete die fn pass s) :=
  keeps_ite (canon_ite (canon_fence <| canon_modDie hs) <| canon_modDie hs) hs
theorem keeps_execFenceclr {s : State} {loc} (hs : Canon s) : Keeps (execFenceclr loc s) :=
  keeps_ite (canon_modDie hs) hs
theorem canon_spoilUnit {s : State} {k y} (hs : Canon s) : Canon (s.spoilUnit k y) := by
  unfold State.spoilUnit
  dsimp only
  split
  · exact canon_modUnit hs
  · exact canon_modUnit hs
  · exact canon_foldl (fun _ _ ht => canon_setBytes ht) hs
  · exact hs
theorem canon_spoilOp {s : State} {x t} (hs : Canon s) : Canon (s.spoilOp x t) := by
  unfold State.spoilOp
  dsimp only
  split
  · exact canon_foldl (fun _ _ ht => canon_foldl (fun _ _ hu => canon_setByte hu) ht) <| canon_setCore hs
  · split
    · exact canon_spoilUnit <| canon_setCore hs
    · exact canon_setCore hs
  · exact canon_setCore hs
  · exact canon_setCore hs
  · exact canon_setCore hs
theorem canon_machineCheck {s : State} {x} (hs : Canon s) : Canon (s.machineCheck x) := by
  unfold State.machineCheck
  extract_lets -underBinder +onlyGivenNames _ _ _ _ _ _ s1
  have h1 : Canon s1 := canon_modDie <| canon_spoilOp hs
  extract_lets -underBinder +onlyGivenNames _
  split
  · extract_lets -underBinder +onlyGivenNames _ s1
    have h1 : Canon s1 := canon_ite h1 <| canon_modCtx h1
    exact canon_ite h1 <| canon_ite (canon_teardown <| canon_appendEvent h1) <| canon_raiseHalt <| canon_modCore h1
  · exact h1
theorem canon_pathFails {s : State} {d slot} (hs : Canon s) : Canon (s.pathFails d slot) :=
  canon_ite (canon_countError <| canon_modDie hs) <| canon_teardown <| canon_appendEvent <| canon_countError <| canon_modDie hs
theorem canon_counted {s : State} {x} (hs : Canon s) : Canon (s.counted x) := by
  unfold State.counted
  dsimp only
  split
  · exact canon_ite (canon_ite (canon_keep <| canon_modDie <| canon_modDie hs) <| canon_modDie hs) <| canon_modDie hs
  · exact canon_ite (canon_modDie hs) hs
  · exact canon_ite (canon_ite (canon_keep <| canon_modDie <| canon_modDie hs) <| canon_modDie hs) hs
  · exact canon_ite (canon_keep <| canon_modDie <| canon_modDie hs) <| canon_modDie hs
  · exact canon_pathFails hs
  · exact canon_countFixed hs
  · exact canon_setStamp hs
theorem canon_found {s : State} {x} (hs : Canon s) : Canon (s.found x) :=
  canon_ite (canon_machineCheck hs) hs
theorem canon_runChecks {s : State} (hs : Canon s) : Canon s.runChecks :=
  canon_foldl (fun _ _ ht => canon_found ht) <| canon_foldl (fun _ _ ht => canon_counted ht) hs
theorem canon_unfence {s : State} {d fn} (hs : Canon s) : Canon (s.unfence d fn) :=
  canon_modDie hs
theorem canon_reTest {s : State} {d fn} (hs : Canon s) : Canon (s.reTest d fn) :=
  canon_ite (canon_ite (canon_unfence hs) <| canon_modDie hs) hs
theorem canon_zero {s : State} {a n} (hs : Canon s) : Canon (s.zero a n) :=
  canon_filterMem hs rfl rfl
theorem canon_remap {s : State} {d fn} (hs : Canon s) : Canon (s.remap d fn) := by
  unfold State.remap
  extract_lets -underBinder +onlyGivenNames _ _ _ s1
  have h1 : Canon s1 := by
    unfold s1
    refine canon_ite ?_ (canon_zero hs)
    split
    · exact canon_zero hs
    · exact hs
  exact canon_ite (canon_modDie h1) <| canon_ite (canon_modDie h1) <| canon_setOwn h1
theorem canon_placeCore {s : State} {k pcol fenced} (hs : Canon s) : Canon (s.placeCore k pcol fenced) :=
  canon_ite hs <| canon_setCore hs
theorem canon_repairDie {s : State} {d} (hs : Canon s) : Canon (s.repairDie d) := by
  unfold State.repairDie
  extract_lets -underBinder +onlyGivenNames s1 s2 s3
  have h1 : Canon s1 := canon_foldl (fun _ _ ht => canon_reTest ht) hs
  have h2 : Canon s2 := canon_foldl (fun _ _ ht => canon_remap ht) h1
  have h3 : Canon s3 := canon_modDie <| canon_keep h2
  clear_value s3
  extract_lets -underBinder +onlyGivenNames y t
  have ht : Canon t := canon_foldl (fun _ _ hu => canon_placeCore hu) h3
  clear_value t
  exact ht
theorem keeps_execPartitionReset {s : State} {p} (hs : Canon s) : Keeps (execPartitionReset p s) :=
  canon_withPart hs (fun _ => canon_ite (canon_ite (canon_foldl (fun _ _ hu => canon_repairDie hu) hs) <| canon_modPart <|
    canon_foldl (fun _ _ hu => canon_repairDie hu) hs) hs)

/-! ### The functions of Machine/Host.lean -/

theorem keeps_execTdispMessage {s : State} {p msg} (hs : Canon s) : Keeps (execTdispMessage p msg s) :=
  canon_withPart hs (fun _ => canon_ite (canon_modPart hs) <| canon_ite (canon_modPart hs) <| canon_ite (canon_modPart hs) hs)
theorem keeps_execIdeCheckFail {s : State} {p} (hs : Canon s) : Keeps (execIdeCheckFail p s) :=
  canon_withPart hs (fun _ => canon_ite (canon_modPart hs) hs)
theorem canon_noteHosts {s : State} {p wr keys} (hs : Canon s) : Canon (s.noteHosts p wr keys) :=
  canon_ite hs <| canon_modPart hs
theorem canon_scatter {s : State} {q key} (hs : Canon s) : Canon (State.scatter q s key) :=
  canon_ite (canon_setByte hs) hs
theorem canon_setHostByte {s : State} {q e} (hs : Canon s) : Canon (State.setHostByte q s e) :=
  canon_setStamp <| canon_setByte <| canon_spoil hs
theorem keeps_execHostDmaRequest {s : State} {p write addr data ide} (hs : Canon s) : Keeps (execHostDmaRequest p write addr data ide s) :=
  canon_withPart hs (fun _ => canon_ite (canon_modPart <| canon_noteHosts <| canon_ite (canon_foldl (fun _ _ hu => canon_setHostByte hu) hs) <|
    canon_foldl (fun _ _ hu => canon_scatter hu) <| canon_modPart <| canon_meetRecord hs) <| canon_countHref hs)
theorem keeps_execTenantidWrite {s : State} {p v} (hs : Canon s) : Keeps (execTenantidWrite p v s) :=
  canon_withVf hs (fun _ => canon_ite hs <| canon_modPart hs)
theorem keeps_execDebugTokenCheck {s : State} {p token} (hs : Canon s) : Keeps (execDebugTokenCheck p token s) :=
  canon_withPart hs (fun _ => canon_ite (canon_of_eq (s := s) hs rfl rfl) <| canon_modPart hs)
theorem canon_pgcmdWrite {s : State} {p q v} (hs : Canon s) : Canon (s.pgcmdWrite p q v) :=
  canon_ite hs <| canon_modPart <| canon_meetRecord hs
theorem canon_vfWrite {s : State} {p q off v} (hs : Canon s) : Canon (s.vfWrite p q off v) :=
  canon_ite (canon_writeQueue hs) <| canon_ite (canon_ite (canon_enableQueue hs) <| canon_disableQueue hs) <| canon_ite (canon_writeTail hs) <|
    canon_ite (canon_modPart hs) <| canon_ite (canon_modPart hs) <| canon_ite (canon_modPart hs) <| canon_ite (canon_ite (canon_startLoad hs) <|
    canon_modPart hs) <| canon_ite (canon_ite (canon_modPart hs) hs) <| canon_ite (canon_pgcmdWrite hs) <|
    canon_ite (canon_ite (canon_modPeer hs) hs) <| canon_ite (canon_modPart hs) hs
theorem canon_pfWrite {s : State} {off v} (hs : Canon s) : Canon (s.pfWrite off v) :=
  canon_ite hs <| canon_ite (canon_ite (canon_modCircuit hs) <| canon_ite hs hs) hs
theorem keeps_execRegisterWrite {s : State} {p off v} (hs : Canon s) : Keeps (execRegisterWrite p off v s) :=
  keeps_ite (canon_pfWrite hs) <| keeps_ite (canon_withPart hs (fun _ => canon_countHref hs)) <| canon_withVf hs (fun _ => canon_vfWrite hs)
theorem canon_setResponder {s : State} {fn x} (hs : Canon s) : Canon (s.setResponder fn x) :=
  canon_ite hs hs
theorem canon_answer {s : State} {fn name ok sig ws f} (hs : Canon s) : Canon (answer s fn name ok sig ws f) :=
  canon_ite (canon_setResponder hs) <| canon_setResponder hs
theorem keeps_execFinish {s : State} {fn ok} (hs : Canon s) : Keeps (execFinish fn ok s) :=
  keeps_ite (canon_answer <| canon_setResponder hs) <| canon_answer hs

/-! ### The functions of Machine/Boot.lean -/

theorem keeps_execPartitionCreate {s : State} {p r} (hs : Canon s) : Keeps (execPartitionCreate p r s) := by
  unfold execPartitionCreate
  split
  · exact hs
  · exact hs
theorem keeps_execPartitionDestroy {s : State} {p} (hs : Canon s) : Keeps (execPartitionDestroy p s) :=
  canon_modPart <| canon_resetFunction hs
theorem canon_completeRecord {s : State} {step unit choice result} (hs : Canon s) : Canon (s.completeRecord step unit choice result) := by
  unfold State.completeRecord
  split
  · exact canon_ite hs hs
  · exact hs
theorem canon_afterPower {s : State} {on} : Canon (s.afterPower on) :=
  canon_reset
theorem keeps_execPowerLoss {s : State} : Keeps (execPowerLoss s) :=
  canon_afterPower
theorem keeps_execThermalTrip {s : State} {die} (hs : Canon s) : Keeps (execThermalTrip die s) :=
  keeps_ite canon_afterPower hs
theorem canon_beginStep {s : State} {fails step unit c0} (hs : Canon s) : Canon (State.beginStep fails s step unit c0) :=
  canon_ite hs <| canon_of_eq (s := s) hs rfl rfl
theorem canon_beginNext {s : State} {fails us} (hs : Canon s) : Canon (State.beginNext fails us s) := by
  induction us with
  | nil => exact hs
  | cons u us ih => exact canon_ite ih <| canon_beginStep hs
theorem canon_diePassed {s : State} {step n d c} (hs : Canon s) : Canon (s.diePassed step n d c) :=
  canon_ite (canon_modDie hs) <| canon_ite (canon_modDie hs) <| canon_ite (canon_repairDie <| canon_keep <| canon_modDie <|
    canon_foldl (fun _ _ ht => canon_fence ht) hs) hs
theorem canon_packagePassed {s : State} {step} (hs : Canon s) : Canon (s.packagePassed step) :=
  canon_ite (canon_foldl (fun _ _ ht => canon_modDie ht) hs) hs
theorem canon_endStep {s : State} {step unit c fails} (hs : Canon s) : Canon (s.endStep step unit c fails) :=
  canon_ite hs <| canon_ite (canon_beginStep <| canon_completeRecord hs) <| canon_ite (canon_atWall hs) <| canon_beginNext <|
    canon_ite (canon_diePassed <| canon_completeRecord hs) <| canon_packagePassed <| canon_completeRecord hs
theorem keeps_execPowerUp {s : State} {fails} : Keeps (execPowerUp fails s) :=
  canon_beginNext canon_afterPower
theorem keeps_vecOp {s : State} {g d a b k fn} (hs : Canon s) : Keeps (vecOp g d a b k fn s) :=
  keeps_ite (canon_trapHere hs) <| keeps_ite (canon_setHere hs) <| canon_setHere hs
theorem keeps_ktestOp {s : State} {g d a all} (hs : Canon s) : Keeps (ktestOp g d a all s) :=
  keeps_ite (canon_trapHere hs) <| keeps_ite (canon_setHere hs) <| canon_setHere hs
theorem keeps_execResultLand {s : State} {k} (hs : Canon s) : Keeps (execResultLand k s) :=
  canon_setCore hs
theorem canon_readOperands {s : State} {k} (hs : Canon s) : Canon (s.readOperands k) :=
  canon_closeReads <| canon_setCore hs

/-! ### The functions of Machine/Clock.lean -/

theorem canon_meetLine {s : State} {e} (hs : Canon s) : Canon (s.meetLine e) :=
  canon_ite (canon_modLaunch hs) hs
theorem canon_scatterRead {s : State} {e} (hs : Canon s) : Canon (s.scatterRead e) :=
  canon_ite hs <| canon_foldl (fun _ _ ht => canon_ite (canon_setByte ht) ht) hs
theorem canon_recordAccesses {s : State} (hs : Canon s) : Canon s.recordAccesses :=
  canon_foldl (fun _ _ ht => canon_meetLine ht) <| canon_foldl (fun _ _ ht => canon_scatterRead ht) hs
theorem canon_patrolOn {s : State} (hs : Canon s) : Canon s.patrolOn := by
  unfold State.patrolOn
  refine canon_ite ?_ hs
  refine canon_foldl (fun _ _ ht => ?_) hs
  split
  · rename_i heq
    have hu1 := canon_of_next (keeps_execPatrolRead ht) heq
    exact hu1
  · exact ht
theorem canon_endWallTick {s0 : State} (hs : Canon s0) : Canon s0.endWallTick :=
  canon_mapCores (fun _ => by rfl) (canon_patrolOn <| canon_servePorts <| canon_recordAccesses hs) rfl rfl
theorem keeps_exec {s : State} {i} (hs : Canon s) : Keeps (exec i s) := by
  cases i <;> dsimp only [exec]
  case vaddF32 | vsubF32 | vmulF32 | vfmaF32 | vfmsF32 | vminF32 | vmaxF32 | vabsF32 | vnegF32 | vrndF32
    | vcmpF32Eq | vcmpF32Ne | vcmpF32Lt | vcmpF32Le | vcmpF32Unord | vcmpI32Eq | vcmpI32Ne | vcmpI32Lt
    | vcmpI32Ge | vcmpI32Ltu | vcmpI32Geu | vaddI32 | vsubI32 | vmulI32 | vmulhI32 | vminI32 | vmaxI32
    | vminN32 | vmaxN32 | vaddsI32 | vsubsI32 | vabsI32 | vnegI32 | vand | vor | vxor | vandn | vnot | vsll
    | vsrl | vsra | vrol | vsllImm | vsrlImm | vsraImm | vrolImm | vsel | vdotI8I8 | vdotN8I8 | vdotN8N8
    | vcvt | vcvtSat | vscaI32 | vscaF32 | vsplat | vrotr | vbcr | vrotc | vbcc | vredrSumF32 | vredrMaxF32
    | vredrMinF32 | vredrSumI32 | vredrMaxI32 | vredrMinI32 | vredcSumF32 | vredcMaxF32 | vredcMinF32
    | vredcSumI32 | vredcMaxI32 | vredcMinI32 | vtr | kand | kor | kxor | kandn | knot | kmov | vrcpe | vrsqe
    | vrcps | vrsqs | vfexp | vexpi | vexpxE | vexpxM | vlg2e | vrngN32 | vrngF32 => exact keeps_vecOp hs
  case add | sub | and | or | xor | andn | orn | xnor | sll | srl | sra | rol | ror | mul | mulh | mulhu
    | min | max | minu | maxu => exact keeps_aluRR hs
  case waitt | waitd | tmge | bdge | sel | setb | getb | setbi | sysrd | syswr | qrd | mark | mlease | cprog
    | cprogi | xmark | krot => exact keeps_slotOp hs
  case clz | ctz | popc | bswap | addi | andi | ori | xori | slli | srli | srai | roli | movi => exact keeps_aluR hs
  case getVersion | getCapabilities | negotiateAlgorithms | getDigests | getCertificate | challenge
    | getMeasurements | keyExchange | keyUpdate | endSession => exact canon_answer hs
  case br | brb | call | callb | loop | trap | brk | mset | mseti => exact keeps_slotTry hs
  case amoAdd | amoSwap | amoAnd | amoOr | amoXor | amoMin | amoMax | amoMinu | amoMaxu => exact keeps_amoOp hs
  case mwld | mwlda | mwldb | mma | mmaAcc | mzero | mdrv | mdrs => exact keeps_cmdOp hs
  case ldb | ldbu | ldh | ldhu | ldw | ldwu | ldd => exact keeps_loadOp hs
  case cbar | cbarNw | dbar | dbarNw | ssb | ssbNw => exact keeps_barrierOp hs
  case cmpEq | cmpNe | cmpLt | cmpGe | cmpLtu | cmpGeu => exact keeps_cmpRR hs
  case cmpiEq | cmpiNe | cmpiLt | cmpiGe | cmpiLtu | cmpiGeu => exact keeps_cmpRI hs
  case pand | por | pxor | pandn | porn | pnot => exact keeps_plog hs
  case cpy | cpyt | cpl | send | recv => exact keeps_copyOp hs
  case nop | servoSourceSeen | servoSourceSelect | jreset => exact hs
  case stb | sth | stw | std => exact keeps_storeOp hs
  case bstatSub | bstatDie | bstatSs => exact keeps_bstatOp hs
  case movk16 | movk32 | movk48 => exact keeps_movk hs
  case vld | vlds | vldf6 => exact keeps_vldOp hs
  case vst | vsts | vstf6 => exact keeps_vstOp hs
  case tbump | tcommit | tdig => exact keeps_tensorOp hs
  case sealCopy | unsealCopy | scrubCopy => exact keeps_sealOp hs
  case dieDrain | debugLock | debuggerResume => exact canon_modPart hs
  case attachResetEnd | attachTrainingPass | attachRetrainRequest => exact canon_moveAttach hs
  case mbrChain | mbrTree => exact keeps_mbrOp hs
  case adds | subs => exact keeps_aluSat hs
  case vldr | vstr => exact keeps_rowOp hs
  case kany | kall => exact keeps_ktestOp hs
  case nxt => exact keeps_execNxt hs
  case exit => exact keeps_execExit hs
  case yield => exact keeps_execYield hs
  case mrel => exact keeps_execMrel hs
  case bundleIssue => exact keeps_execBundleIssue hs
  case resultLand => exact keeps_execResultLand hs
  case waitEnd => exact keeps_execWaitEnd hs
  case nxtDelivery => exact keeps_execNxtDelivery hs
  case bankAccessPerform => exact keeps_execBankAccessPerform hs
  case holdRequest => exact keeps_execHoldRequest hs
  case holdTakesEffect => exact keeps_execHoldTakesEffect hs
  case holdResume => exact keeps_execHoldResume hs
  case stationmasterResume => exact keeps_execStationmasterResume hs
  case governorWindow => exact keeps_execGovernorWindow hs
  case rateChangeEffect => exact keeps_execRateChangeEffect hs
  case thermalTrip => exact keeps_execThermalTrip hs
  case powerUp => exact keeps_execPowerUp
  case servoMeasurement => exact keeps_execServoMeasurement hs
  case servoSourceLost => exact keeps_execServoSourceLost hs
  case launchStart => exact keeps_execLaunchStart hs
  case coreExitTick => exact keeps_execCoreExitTick hs
  case launchRetire => exact keeps_execLaunchRetire hs
  case leaseGrant => exact keeps_execLeaseGrant hs
  case leaseEnd => exact keeps_execLeaseEnd hs
  case leaseTurnEnd => exact keeps_execLeaseTurnEnd hs
  case matrixCommandSwap => exact keeps_execMatrixCommandSwap hs
  case matrixCommandComplete => exact keeps_execMatrixCommandComplete hs
  case beatSourceRead => exact keeps_execBeatSourceRead hs
  case indexEntryRead => exact keeps_execIndexEntryRead hs
  case beatRelease => exact keeps_execBeatRelease hs
  case cplSourceRead => exact keeps_execCplSourceRead hs
  case cplDestWrite => exact keeps_execCplDestWrite hs
  case sendBeatRead => exact keeps_execSendBeatRead hs
  case messageArrival => exact keeps_execMessageArrival hs
  case lateBeatCheck => exact keeps_execLateBeatCheck hs
  case copyFault => exact keeps_execCopyFault hs
  case wportBeatConsume => exact keeps_execWportBeatConsume hs
  case virtLookup => exact keeps_execVirtLookup hs
  case walkComplete => exact keeps_execWalkComplete hs
  case sealDescriptorCheck => exact keeps_execSealDescriptorCheck hs
  case tbumpEffect => exact keeps_execTbumpEffect hs
  case tcommitEffect => exact keeps_execTcommitEffect hs
  case tdigEffect => exact keeps_execTdigEffect hs
  case digestResult => exact keeps_execDigestResult hs
  case krotEffect => exact keeps_execKrotEffect hs
  case barrierComplete => exact keeps_execBarrierComplete hs
  case create => exact keeps_execCreate hs
  case destroy => exact keeps_execDestroy hs
  case preempt => exact keeps_execPreempt hs
  case resume => exact keeps_execResume hs
  case policy => exact keeps_execPolicy hs
  case contextCreateComplete => exact keeps_execContextCreateComplete hs
  case preemptBoundary => exact keeps_execPreemptBoundary hs
  case saveCommit => exact keeps_execSaveCommit hs
  case contextReissue => exact keeps_execContextReissue hs
  case teardownComplete => exact keeps_execTeardownComplete hs
  case contextScrubComplete => exact keeps_execContextScrubComplete hs
  case builtinTestComplete => exact keeps_execBuiltinTestComplete hs
  case partitionReset => exact keeps_execPartitionReset hs
  case partitionCreate => exact keeps_execPartitionCreate hs
  case partitionDestroy => exact keeps_execPartitionDestroy hs
  case queueEnable => exact keeps_execQueueEnable hs
  case queueDisable => exact keeps_execQueueDisable hs
  case qtailWrite => exact keeps_execQtailWrite hs
  case queueSelect => exact keeps_execQueueSelect hs
  case claimResolve => exact keeps_execClaimResolve hs
  case graphKernelNode => exact keeps_execGraphKernelNode hs
  case graphCondNode => exact keeps_execGraphCondNode hs
  case graphWhileNode => exact keeps_execGraphWhileNode hs
  case graphSwapNode => exact keeps_execGraphSwapNode hs
  case graphEndNode => exact keeps_execGraphEndNode hs
  case assign => exact keeps_execAssign hs
  case release => exact keeps_execRelease hs
  case invalidate => exact keeps_execInvalidate hs
  case migrate => exact keeps_execMigrate hs
  case migrationCopyStart => exact keeps_execMigrationCopyStart hs
  case copyEngineComplete => exact keeps_execCopyEngineComplete hs
  case patrolRead => exact keeps_execPatrolRead hs
  case manifestLoad => exact keeps_execManifestLoad hs
  case shardAttemptComplete => exact keeps_execShardAttemptComplete hs
  case shardDeadline => exact keeps_execShardDeadline hs
  case manifestRecheck => exact keeps_execManifestRecheck hs
  case attachTrainingFail => exact keeps_execAttachTrainingFail hs
  case circuitEnable => exact keeps_execCircuitEnable hs
  case circuitDisable => exact keeps_execCircuitDisable hs
  case circuitLit => exact keeps_execCircuitLit hs
  case circuitDrainComplete => exact keeps_execCircuitDrainComplete hs
  case wavelengthFence => exact keeps_execWavelengthFence hs
  case portEnable => exact keeps_execPortEnable hs
  case portTrainingPass => exact keeps_execPortTrainingPass hs
  case portLaneLoss => exact keeps_execPortLaneLoss hs
  case portDisable => exact keeps_execPortDisable hs
  case fabidxWrite => exact keeps_execFabidxWrite hs
  case flitReceive => exact keeps_execFlitReceive hs
  case peerOpen => exact keeps_execPeerOpen hs
  case peerClose => exact keeps_execPeerClose hs
  case peerInit => exact keeps_execPeerInit hs
  case peerResp => exact keeps_execPeerResp hs
  case peerFin => exact keeps_execPeerFin hs
  case peerCloseReceived => exact keeps_execPeerCloseReceived hs
  case peerTimeout => exact keeps_execPeerTimeout hs
  case functionLevelReset => exact keeps_execFunctionLevelReset hs
  case tdispMessage => exact keeps_execTdispMessage hs
  case ideCheckFail => exact keeps_execIdeCheckFail hs
  case hostDmaRequest => exact keeps_execHostDmaRequest hs
  case finish => exact keeps_execFinish hs
  case tenantidWrite => exact keeps_execTenantidWrite hs
  case debugTokenCheck => exact keeps_execDebugTokenCheck hs
  case debugStopRequest => exact keeps_execDebugStopRequest hs
  case fenceclr => exact keeps_execFenceclr hs
  case registerWrite => exact keeps_execRegisterWrite hs
  case beatPresent => exact keeps_execBeatPresent hs
  case faultActionsComplete => exact keeps_execFaultActionsComplete hs
  case powerLoss => exact keeps_execPowerLoss
  case waitBudgetExhausted => exact keeps_execWaitBudgetExhausted hs

/-! ### The functions of Machine/Run.lean -/

theorem keeps_runOp {s : State} {k e} (hs : Canon s) : Keeps (runOp k s e) :=
  keeps_exec hs
theorem canon_firstTrap {s : State} {k ops r} (hs : Canon s) (e : firstTrap k s ops = some r) : Canon r.2 := by
  induction ops with
  | nil => cases e
  | cons o ops ih =>
    unfold firstTrap at e
    split at e
    · rename_i heq
      split at e
      · exact Option.some.inj e ▸ canon_of_next (keeps_runOp hs) heq
      · exact ih e
    · exact ih e
theorem canon_noted {s s' : State} {k n} (hs : Canon s') : Canon (State.noted k n s s') :=
  canon_ite hs <| canon_setCore hs
theorem keeps_runOps {s : State} {k ops} (hs : Canon s) : Keeps (runOps k ops s) := by
  induction ops generalizing s with
  | nil => exact hs
  | cons o ops ih =>
    unfold runOps
    split
    · rename_i heq
      exact ih <| canon_noted <| canon_of_next (keeps_runOp hs) heq
    · trivial
    · trivial
theorem keeps_finishBundle {s : State} {k} (hs : Canon s) : Keeps (finishBundle k s) := by
  unfold finishBundle
  extract_lets -underBinder +onlyGivenNames clean trap
  have hclean : ∀ t, Canon t → Canon (clean t) := fun _ ht => ht
  split
  · rename_i heq
    exact keeps_ite (hclean _ (canon_firstTrap hs heq)) <| hclean _ (canon_takeTrap hs)
  · exact hclean _ (canon_takeTrap hs)
  · rename_i heq
    exact hclean _ (canon_firstTrap hs heq)
  · split
    · rename_i heq
      exact hclean _ <| canon_setBarriers <| canon_of_next (keeps_runOps hs) heq
    · exact keeps_runOps hs
theorem keeps_runBundle {s : State} {k} (hs : Canon s) : Keeps (runBundle k s) := by
  unfold runBundle
  split
  · rename_i heq
    have ht := canon_of_next (keeps_execBundleIssue hs) heq
    exact keeps_ite (keeps_finishBundle ht) ht
  · exact keeps_execBundleIssue hs
theorem keeps_runGrant {s : State} {u} (hs : Canon s) : Keeps (runGrant u s) := by
  unfold runGrant
  extract_lets -underBinder +onlyGivenNames ks mark clear
  have hg : Keeps (execLeaseGrant u (ks.foldl mark s)) :=
    keeps_execLeaseGrant <| canon_foldl (fun _ _ ht => canon_ite (canon_modCore ht) ht) hs
  split
  · rename_i heq
    exact canon_foldl (fun _ _ hu => canon_ite (canon_modCore hu) hu) <| canon_of_next hg heq
  · exact hg
theorem keeps_unlessTrap {s : State} {k f} (hf : ∀ x, Canon x → Keeps (f x)) (hs : Canon s) : Keeps (unlessTrap k f s) := by
  unfold unlessTrap
  split
  · rename_i heq
    exact keeps_ite hs <| canon_of_next (hf _ hs) heq
  · exact hf _ hs
theorem keeps_unlessHalted {s : State} {k f} (hf : ∀ x, Canon x → Keeps (f x)) (hs : Canon s) : Keeps (unlessHalted k f s) :=
  keeps_ite hs <| hf _ hs
theorem keeps_runEvent {s : State} {e} (hs : Canon s) : Keeps (runEvent e s) := by
  unfold runEvent
  split
  · exact keeps_runBundle hs
  · exact keeps_execResultLand hs
  · exact keeps_unlessHalted (fun _ ht => canon_readOperands ht) hs
  · exact keeps_execWaitEnd hs
  · exact keeps_execNxtDelivery hs
  · exact keeps_execBankAccessPerform hs
  · exact keeps_execHoldTakesEffect hs
  · exact keeps_execHoldResume hs
  · exact keeps_execStationmasterResume hs
  · exact keeps_execRateChangeEffect hs
  · exact keeps_execLaunchStart hs
  · exact keeps_unlessHalted (fun _ ht => keeps_execCoreExitTick ht) hs
  · exact keeps_execLaunchRetire hs
  · exact keeps_runGrant hs
  · exact keeps_execLeaseEnd hs
  · exact keeps_execLeaseTurnEnd hs
  · exact keeps_execMatrixCommandSwap hs
  · exact keeps_execMatrixCommandComplete hs
  · exact keeps_unlessHalted (fun _ ht => keeps_execBeatSourceRead ht) hs
  · exact keeps_unlessHalted (fun _ ht => keeps_execIndexEntryRead ht) hs
  · exact keeps_unlessHalted (fun _ ht => keeps_execBeatRelease ht) hs
  · exact keeps_unlessHalted (fun _ ht => keeps_execCplSourceRead ht) hs
  · exact keeps_unlessHalted (fun _ ht => keeps_execCplDestWrite ht) hs
  · exact keeps_unlessHalted (fun _ ht => keeps_execSendBeatRead ht) hs
  · exact keeps_unlessTrap (fun _ ht => keeps_execMessageArrival ht) hs
  · exact keeps_unlessHalted (fun _ ht => keeps_execLateBeatCheck ht) hs
  · exact keeps_execCopyFault hs
  · exact keeps_unlessHalted (fun _ ht => keeps_execWportBeatConsume ht) hs
  · exact keeps_unlessHalted (fun _ ht => keeps_execVirtLookup ht) hs
  · exact keeps_execWalkComplete hs
  · exact keeps_unlessHalted (fun _ ht => keeps_execSealDescriptorCheck ht) hs
  · exact keeps_unlessTrap (fun _ ht => keeps_execTbumpEffect ht) hs
  · exact keeps_unlessTrap (fun _ ht => keeps_execTcommitEffect ht) hs
  · exact keeps_unlessTrap (fun _ ht => keeps_execTdigEffect ht) hs
  · exact keeps_execDigestResult hs
  · exact canon_digestRead hs
  · exact keeps_unlessTrap (fun _ ht => keeps_execKrotEffect ht) hs
  · exact keeps_execBarrierComplete hs
  · exact keeps_execContextCreateComplete hs
  · exact keeps_execPreemptBoundary hs
  · exact keeps_execSaveCommit hs
  · exact keeps_execContextReissue hs
  · exact keeps_execTeardownComplete hs
  · exact keeps_execContextScrubComplete hs
  · exact keeps_execPartitionReset hs
  · exact keeps_execQueueSelect hs
  · exact keeps_execClaimResolve hs
  · exact keeps_execGraphKernelNode hs
  · exact keeps_execGraphCondNode hs
  · exact keeps_execGraphWhileNode hs
  · exact keeps_execGraphSwapNode hs
  · exact keeps_execGraphEndNode hs
  · exact keeps_execAssign hs
  · exact keeps_execRelease hs
  · exact keeps_execInvalidate hs
  · exact keeps_execMigrate hs
  · exact keeps_execMigrationCopyStart hs
  · exact keeps_execCopyEngineComplete hs
  · exact keeps_execShardDeadline hs
  · exact keeps_execManifestRecheck hs
  · exact keeps_execCircuitLit hs
  · exact keeps_execCircuitDrainComplete hs
  · exact keeps_execPeerTimeout hs
  · exact keeps_execBeatPresent hs
  · exact keeps_execFaultActionsComplete hs
  · exact keeps_execWaitBudgetExhausted hs
  · exact keeps_execBuiltinTestComplete hs
  · exact canon_endStep hs
theorem canon_syncCcb {old new : State} (hs : Canon new) : Canon (old.syncCcb new) := by
  unfold State.syncCcb
  refine canon_foldl (fun _ _ hu => ?_) hs
  refine canon_foldl (fun _ _ hv => ?_) hu
  split
  · exact canon_ite hv <| canon_writeCcb hv
  · exact canon_writeCcb hv
theorem keeps_settled {s : State} {o} (hs : Keeps o) : Keeps (settled s o) := by
  unfold settled
  split
  · exact canon_syncCcb (new := _) hs
  · exact hs
theorem keeps_stepDark {s : State} : Keeps (stepDark s) := by
  unfold stepDark
  split
  · exact keeps_execPowerUp
  · exact trivial
theorem keeps_nextDue {s : State} {o} (hs : Canon s) (e : s.nextDue = some o) : Keeps o := by
  obtain ⟨n, -, hn⟩ := List.exists_of_findSome?_eq_some e
  split at hn
  · exact Option.some.inj hn ▸ keeps_runEvent hs
  · obtain ⟨r, -, rfl⟩ := Option.map_eq_some_iff.mp hn
    exact keeps_exec hs
theorem keeps_stepClock {s : State} (hs : Canon s) : Keeps (stepClock s) := by
  unfold stepClock
  split
  · refine keeps_ite (keeps_settled <| canon_runChecks hs) ?_
    split
    · rename_i heq
      exact keeps_settled <| keeps_nextDue hs heq
    · exact hs
  · exact hs
  · exact hs
  · split
    · exact keeps_settled <| keeps_exec hs
    · exact hs
  · exact canon_endWallTick hs
theorem keeps_step {s : State} (hs : Canon s) : Keeps (step s) := by
  unfold step
  refine keeps_ite ?_ keeps_stepDark
  split
  · exact keeps_settled <| keeps_runEvent hs
  · exact keeps_stepClock hs

/-- Settles O59: a step from a state in the canonical form leaves one, function by function of the model. -/
theorem stepKeepsTheInvariant : Obligations.StepKeepsTheInvariant := by
  unfold Obligations.StepKeepsTheInvariant
  intro s t hs e
  exact (inv_iff_canon t).mpr (canon_of_next (keeps_step ((inv_iff_canon s).mp hs)) e)

end Sys2Proof.Proofs
end

section
/-! PROOFS. Rows of integer operations and of dot products (O23): what a row reads of a register that is defined, what `State.vopRow` puts under way for an
operation that works lane by lane, and the value and the flags of each lane function as a number. -/
namespace Sys2Proof.Proofs
open Sys2Proof.Machine Sys2Proof.Laws Sys2Proof.Claims

/-! ### Lanes that a mask replaces -/

/-- The bits of the lanes that a mask enables, gathered as a row of lanes of all ones. -/
theorem expandFold_eq_mapRow (m : MaskRow) :
    (List.range 64).foldl (fun acc j => if m.getLsbD j then acc ||| (0xFFFFFFFF#2048 <<< (32 * j)) else acc) 0 =
      (mapRow m fun _ => (BitVec.allOnes 32, 0)).1 := by
  have hones : 0xFFFFFFFF#2048 = (BitVec.allOnes 32).setWidth 2048 := (BitVec.setWidth_ofNat_of_le_of_lt (by decide) (by decide)).symm
  rw [hones]
  unfold mapRow
  refine List.foldl_hom (Prod.fst (α := Row) (β := Flags)) (init := (0, 0)) fun acc j => ?_
  split
  · rfl
  · rfl

/-- The lanes that a mask enables are all ones, the others 0. -/
theorem laneOf_expand (m : MaskRow) (j : Nat) (hj : j < 64) : laneOf (expand m) j = if m.getLsbD j then BitVec.allOnes 32 else 0 := by
  unfold expand
  split
  · simp [laneOf, *]
  · split
    · subst m
      apply BitVec.eq_of_getLsbD_eq
      intro i hi
      have hb : 32 * j + i < 2048 := by omega
      simp only [laneOf, BitVec.getLsbD_extractLsb', BitVec.getLsbD_allOnes, hi, hj, hb, decide_true, Bool.and_self, if_true]
    · rw [expandFold_eq_mapRow, mapRow, mapRow_fold_lane m _ 64 j hj]
      simp [hj]

theorem laneOf_blend (m : MaskRow) (old new : Row) (j : Nat) (hj : j < 64) :
    laneOf (blend m old new) j = if m.getLsbD j then laneOf new j else laneOf old j := by
  have hlane : laneOf (blend m old new) j = (laneOf old j &&& ~~~laneOf (expand m) j) ||| (laneOf new j &&& laneOf (expand m) j) := by
    apply BitVec.eq_of_getLsbD_eq
    intro i hi
    have hb : 32 * j + i < 2048 := by omega
    simp [laneOf, blend, hi, hb]
  rw [hlane, laneOf_expand m j hj]
  cases m.getLsbD j
  · exact (congrArg₂ (· ||| ·) (BitVec.and_allOnes ..) (BitVec.and_zero ..)).trans (BitVec.or_zero ..)
  · rw [if_pos rfl, BitVec.not_allOnes, BitVec.and_zero, BitVec.zero_or, BitVec.and_allOnes, if_pos rfl]

/-! ### What an operation reads -/

theorem readV_of_closed {s : State} {c : Core} {r i : Nat} (h : c.vOpen (s.now c) r i = 0) : s.readV c r i = Tab.get 0 c.v (16 * r + i) := if_pos h

theorem readK_of_closed {s : State} {c : Core} {r i : Nat} (hr : r ≠ 0) (h : c.kOpen (s.now c) r i = 0) : s.readK c r i = Tab.get 0 c.k (16 * r + i) := by
  unfold State.readK
  rw [if_neg hr]
  exact if_pos h

theorem srcRow_of_none_ahead {s : State} {c : Core} {o : VOp} {r i : Nat} (h : s.here.vAhead (s.now c) o.t r i = 0) :
    s.srcRow c o r i = s.readV c r i := if_pos h

/-- A lane with no result under way is read as it stands. -/
theorem laneOf_readV {s : State} {c : Core} {r i j : Nat} (hj : j < 64) (h : (c.vOpen (s.now c) r i).getLsbD j = false) :
    laneOf (s.readV c r i) j = laneOf (Tab.get 0 c.v (16 * r + i)) j := by
  unfold State.readV
  dsimp only
  split
  · rfl
  · simp [laneOf_blend _ _ _ _ hj, h]

theorem laneOf_srcRow {s : State} {c : Core} {o : VOp} {r i j : Nat} (hj : j < 64) (h : (s.srcOpen c o r i).getLsbD j = false) :
    laneOf (s.srcRow c o r i) j = laneOf (Tab.get 0 c.v (16 * r + i)) j := by
  obtain ⟨hopen, hahead⟩ : (c.vOpen (s.now c) r i).getLsbD j = false ∧ (s.here.vAhead (s.now c) o.t r i).getLsbD j = false := by
    simpa [State.srcOpen] using h
  unfold State.srcRow
  dsimp only
  split
  · exact laneOf_readV hj hopen
  · simp [laneOf_blend _ _ _ _ hj, hahead, laneOf_readV hj hopen]

theorem sourceRows : SourceRows := fun _ _ _ _ _ =>
  ⟨srcRow_of_none_ahead, readV_of_closed, readK_of_closed, readK_zero _ _ _, fun _ => laneOf_srcRow⟩

/-! ### What a row puts under way -/

/-- Flags that are not zero land at some tick of their window. -/
theorem flagsBy_lands (c : Core) (n lo hi free : Nat) (f : Flags) (h : lo ≤ hi) :
    ∃ T, lo ≤ T ∧ T ≤ hi ∧ c.flagsBy n lo hi free f = { c with lands := c.lands ++ if f = 0 then [] else [⟨n, T, T, true, false, .flags f⟩] } := by
  have hlt : free % (hi + 1 - lo) < hi + 1 - lo := Nat.mod_lt _ (by omega)
  refine ⟨flagTick lo hi free, Nat.le_add_right .., by unfold flagTick; omega, ?_⟩
  unfold Core.flagsBy
  split
  · simp [*]
  · rfl

/-- Flags that join some of a mask lie within both. -/
theorem flags_within (f x k : Flags) : (f ||| (x &&& k)) &&& ~~~(f ||| k) = 0 := by
  apply BitVec.eq_of_getLsbD_eq
  intro n hn
  simp only [BitVec.getLsbD_and, BitVec.getLsbD_or, BitVec.getLsbD_not, hn, decide_true, Bool.true_and]
  cases f.getLsbD n <;> cases k.getLsbD n <;> simp

/-- An operation whose rows are written row by row into v[d], with latency bound lat. -/
def RowWise (fn : VFn) (lat : Nat) : Prop := fn.column = false ∧ fn.toMask = false ∧ fn.isRed = false ∧ fn.lat = lat

theorem seventeen_le_lat (fn : VFn) : 17 ≤ fn.lat := by
  cases fn <;> exact Nat.le_of_ble_eq_true rfl

/-- The row function of an operation at what it reads of row i. -/
def rowOf (s : State) (c : Core) (o : VOp) (i : Nat) : MaskRow × Row × Flags :=
  rowFn o.fn o.key o.n i (s.srcRow c o o.a i) (s.srcRow c o o.b i) (s.srcRow c o (o.b + 1) i) (s.srcRow c o o.d i) (s.readK c o.k i)

/-- The flags that land of row i: free ones that the operation may set beside its own, when a source is undefined (R8). -/
def rowFlagsOf (s : State) (c : Core) (o : VOp) (i : Nat) : Flags :=
  if s.srcUndefined c o i then (rowOf s c o i).2.2 ||| (BitVec.ofNat 7 (s.free (0x70060 + i)) &&& o.fn.flagMask) else (rowOf s c o i).2.2

theorem vopRow_rowWise {s : State} {c : Core} {o : VOp} {i lat : Nat} (hnow : s.now c = o.t + i) (hw : RowWise o.fn lat) (hok : (o.slot, o.t) ∉ c.spoilt) :
    s.vopRow c o = (fun c' : Core => if i < 15 then { c' with vops := c'.vops ++ [o] } else c')
      ((c.rowResult o.seq (o.t + i + 1) (o.t + i + lat - 15) true o.d i ((rowOf s c o i).1 &&& ~~~Tab.get 0 o.skip i) (rowOf s c o i).2.1).flagsBy o.seq
        (o.t + i + 1) (o.t + lat) (s.free (0x70020 + i)) (rowFlagsOf s c o i)) := by
  obtain ⟨hcol, hmask, hred, hlat⟩ := hw
  have hsp : c.spoilt.contains (o.slot, o.t) = false := by simpa using hok
  simp only [State.vopRow, hnow, hcol, hmask, hred, hlat, hsp, Nat.add_sub_cancel_left, Bool.false_eq_true, if_false,
    Bool.false_and, Bool.or_false, rowFlagsOf, rowOf]

theorem rowLands_of_rowFn {s : State} {c : Core} {o : VOp} {i lat : Nat} {m : MaskRow} {val : Nat → Lane} {f : Flags} (hnow : s.now c = o.t + i)
    (hi : i < 16) (hw : RowWise o.fn lat) (hm : (rowOf s c o i).1 = m) (hf : (rowOf s c o i).2.2 = f)
    (hval : ∀ j, j < 64 → m.getLsbD j = true → laneOf (rowOf s c o i).2.1 j = val j) : RowLands s c o i lat m val f := by
  intro hok
  have h17 : 17 ≤ lat := hw.2.2.2 ▸ seventeen_le_lat o.fn
  obtain ⟨T, hlo, hhi, hland⟩ := flagsBy_lands
    (c.rowResult o.seq (o.t + i + 1) (o.t + i + lat - 15) true o.d i (m &&& ~~~Tab.get 0 o.skip i) (rowOf s c o i).2.1) o.seq (o.t + i + 1) (o.t + lat)
    (s.free (0x70020 + i)) (rowFlagsOf s c o i) (by omega)
  refine ⟨_, _, ⟨rowFlagsOf s c o i, T, hlo, hhi, ?_, ?_, rfl⟩, ?_, hval⟩
  · intro hdef
    simp [rowFlagsOf, hdef, hf]
  · simp only [rowFlagsOf, hf]
    split
    · exact flags_within ..
    · simpa using flags_within f 0 o.fn.flagMask
  · rw [vopRow_rowWise hnow hw hok, hm, hland, Nat.add_sub_assoc (by omega)]
    dsimp only [Core.rowResult]
    split <;> rfl

/-! ### Operations that work lane by lane -/

/-- An operation of latency bound lat whose rows are those of its lane function, in the lanes that its mask enables or in every lane. -/
def LaneWise (fn : VFn) (lat : Nat) (masked : Bool) : Prop :=
  RowWise fn lat ∧ fn.masked = masked ∧ ∀ key n i a b b2 d k, rowFn fn key n i a b b2 d k =
    (let m := if fn.masked then k else BitVec.allOnes 64
     let y := mapRow m fun j => laneFn fn (laneOf a j) (laneOf b j) (laneOf d j) (laneOf b2 j) fun e => rvOf (rsrBlock key n i j) e
     (m, y.1, y.2))

section
variable {s : State} {c : Core} {o : VOp} {i lat : Nat} {masked : Bool} {fn : VFn}

theorem rowOf_laneWise (s : State) (c : Core) (i : Nat) (hw : LaneWise fn lat masked) (ho : o.fn = fn) :
    let m := if masked then s.readK c o.k i else BitVec.allOnes 64
    ∃ f : Nat → Lane × Flags, rowOf s c o i = (m, (mapRow m f).1, (mapRow m f).2) ∧ ∀ j, ∃ b2 rv,
      f j = laneFn fn (laneOf (s.srcRow c o o.a i) j) (laneOf (s.srcRow c o o.b i) j) (laneOf (s.srcRow c o o.d i) j) b2 rv := by
  obtain ⟨-, hmask, hfn⟩ := hw
  subst ho
  rw [rowOf, hfn, hmask]
  exact ⟨_, rfl, fun j => ⟨_, _, rfl⟩⟩

/-- A lane function without flags. -/
theorem rowLands_of_lane (hnow : s.now c = o.t + i) (hi : i < 16) (hw : LaneWise fn lat masked) {g : Lane → Lane → Lane → Lane}
    (hlane : ∀ a b d b2 rv, laneFn fn a b d b2 rv = (g a b d, 0)) (ho : o.fn = fn) :
    RowLands s c o i lat (if masked then s.readK c o.k i else BitVec.allOnes 64)
      (fun j => g (laneOf (s.srcRow c o o.a i) j) (laneOf (s.srcRow c o o.b i) j) (laneOf (s.srcRow c o o.d i) j)) 0 := by
  obtain ⟨f, hrow, hf⟩ := rowOf_laneWise s c i hw ho
  have hval : ∀ j, f j = (g (laneOf (s.srcRow c o o.a i) j) (laneOf (s.srcRow c o o.b i) j) (laneOf (s.srcRow c o o.d i) j), 0) := fun j => by
    obtain ⟨b2, rv, h⟩ := hf j
    rw [h, hlane]
  refine rowLands_of_rowFn hnow hi (ho ▸ hw.1) (by rw [hrow]) ?_ fun j hj hm => ?_
  · rw [hrow]
    dsimp only
    exact mapRow_noFlags _ _ fun j => by rw [hval]
  · rw [hrow, mapRow_lane _ _ j hj hm, hval]

/-- The nearest integer of 32 bits with sign. -/
def clampI32 (v : Int) : Int := max (-2147483648) (min 2147483647 v)

theorem clamp32_eq (v : Int) : clamp32 v = (BitVec.ofInt 32 (clampI32 v), Flags.when (decide (clampI32 v ≠ v)) Flags.sat) := by
  have hmin : intMin .i32 = -2147483648 := rfl
  have hmax : intMax .i32 = 2147483647 := rfl
  unfold clamp32 clampInt clampI32
  rw [hmin, hmax]
  split
  · rw [show max (-2147483648) (min 2147483647 v) = -2147483648 by omega]
    simp [Flags.when, show (-2147483648 : Int) ≠ v by omega]
  · split
    · rw [show max (-2147483648) (min 2147483647 v) = 2147483647 by omega]
      simp [Flags.when, show (2147483647 : Int) ≠ v by omega]
    · rw [show max (-2147483648) (min 2147483647 v) = v by omega]
      simp [Flags.when]

/-- A lane function that clamps sets SAT when an enabled lane does. -/
theorem rowLands_of_clamp (hnow : s.now c = o.t + i) (hi : i < 16) (hw : LaneWise fn lat true) {g : Lane → Lane → Lane → Int}
    (hlane : ∀ a b d b2 rv, laneFn fn a b d b2 rv = clamp32 (g a b d)) (ho : o.fn = fn) :
    let v := fun j => g (laneOf (s.srcRow c o o.a i) j) (laneOf (s.srcRow c o o.b i) j) (laneOf (s.srcRow c o o.d i) j)
    RowLands s c o i lat (s.readK c o.k i) (fun j => BitVec.ofInt 32 (clampI32 (v j)))
      (if (List.range 64).any (fun j => (s.readK c o.k i).getLsbD j && decide (clampI32 (v j) ≠ v j)) = true then Flags.sat else 0) := by
  intro v
  obtain ⟨f, hrow, hf⟩ := rowOf_laneWise s c i hw ho
  have hval : ∀ j, f j = clamp32 (v j) := fun j => by
    obtain ⟨b2, rv, h⟩ := hf j
    rw [h, hlane]
  rw [if_pos rfl] at hrow
  refine rowLands_of_rowFn hnow hi (ho ▸ hw.1) (by rw [hrow]) ?_ fun j hj hm => ?_
  · rw [hrow]
    dsimp only
    exact mapRow_flags _ _ _ _ fun j => by rw [hval, clamp32_eq]
  · rw [hrow, mapRow_lane _ _ j hj hm, hval, clamp32_eq]

end

/-! ### The integer lane functions as numbers (Table 6.3, R160, R161) -/

section
variable {n : Nat} {w : Lane} (a b d b2 : Lane) (rv : Nat → Nat)

theorem laneFn_addI : laneFn .addI a b d b2 rv = (BitVec.ofNat 32 (a.toNat + b.toNat), 0) := by
  refine Prod.ext ?_ rfl
  show a + b = _
  simp [BitVec.ofNat_add]
theorem laneFn_subI : laneFn .subI a b d b2 rv = (BitVec.ofInt 32 (a.toInt - b.toInt), 0) := by
  refine Prod.ext ?_ rfl
  show a - b = _
  exact BitVec.eq_of_toInt_eq (by simp [BitVec.toInt_sub])
theorem laneFn_mulI : laneFn .mulI a b d b2 rv = (BitVec.ofNat 32 (a.toNat * b.toNat), 0) := by
  refine Prod.ext ?_ rfl
  show a * b = _
  simp [BitVec.ofNat_mul]
theorem laneFn_minI : laneFn .minI a b d b2 rv = (BitVec.ofInt 32 (min a.toInt b.toInt), 0) := by
  refine Prod.ext ?_ rfl
  show (if a.slt b then a else b) = _
  rw [BitVec.slt_eq_decide]
  by_cases h : a.toInt < b.toInt
  · simp [h, min_eq_left h.le]
  · simp [h, min_eq_right (not_lt.mp h)]
theorem laneFn_maxI : laneFn .maxI a b d b2 rv = (BitVec.ofInt 32 (max a.toInt b.toInt), 0) := by
  refine Prod.ext ?_ rfl
  show (if a.slt b then b else a) = _
  rw [BitVec.slt_eq_decide]
  by_cases h : a.toInt < b.toInt
  · simp [h, max_eq_right h.le]
  · simp [h, max_eq_left (not_lt.mp h)]
theorem laneFn_minN : laneFn .minN a b d b2 rv = (BitVec.ofNat 32 (min a.toNat b.toNat), 0) := by
  refine Prod.ext ?_ rfl
  show (if a.ult b then a else b) = _
  rw [BitVec.ult_eq_decide]
  by_cases h : a.toNat < b.toNat
  · simp [h, min_eq_left h.le]
  · simp [h, min_eq_right (not_lt.mp h)]
theorem laneFn_maxN : laneFn .maxN a b d b2 rv = (BitVec.ofNat 32 (max a.toNat b.toNat), 0) := by
  refine Prod.ext ?_ rfl
  show (if a.ult b then b else a) = _
  rw [BitVec.ult_eq_decide]
  by_cases h : a.toNat < b.toNat
  · simp [h, max_eq_right h.le]
  · simp [h, max_eq_left (not_lt.mp h)]
theorem laneFn_mulhI : laneFn .mulhI a b d b2 rv = (BitVec.ofInt 32 (a.toInt * b.toInt / 2 ^ 32), 0) := rfl

theorem laneFn_addsI : laneFn .addsI a b d b2 rv = clamp32 (a.toInt + b.toInt) := rfl
theorem laneFn_subsI : laneFn .subsI a b d b2 rv = clamp32 (a.toInt - b.toInt) := rfl
theorem laneFn_absI : laneFn .absI a b d b2 rv = clamp32 |a.toInt| := congrArg clamp32 (Int.abs_eq_natAbs _).symm
theorem laneFn_negI : laneFn .negI a b d b2 rv = clamp32 (-a.toInt) := rfl

theorem laneFn_and : laneFn .and a b d b2 rv = (a &&& b, 0) := rfl
theorem laneFn_or : laneFn .or a b d b2 rv = (a ||| b, 0) := rfl
theorem laneFn_xor : laneFn .xor a b d b2 rv = (a ^^^ b, 0) := rfl
theorem laneFn_andn : laneFn .andn a b d b2 rv = (a &&& ~~~b, 0) := rfl
theorem laneFn_not : laneFn .not a b d b2 rv = (~~~a, 0) := rfl
theorem laneFn_splat : laneFn (.splat w) a b d b2 rv = (w, 0) := rfl

/-- Shifts are products and quotients by a power of two. -/
theorem shiftLeft_eq_ofNat (n : Nat) : a <<< n = BitVec.ofNat 32 (a.toNat * 2 ^ n) :=
  BitVec.eq_of_toNat_eq (by simp [Nat.shiftLeft_eq])
theorem shiftRight_eq_ofNat (n : Nat) : a >>> n = BitVec.ofNat 32 (a.toNat / 2 ^ n) := by
  rw [← Nat.shiftRight_eq_div_pow, ← BitVec.toNat_ushiftRight, BitVec.ofNat_toNat, BitVec.setWidth_eq]
theorem sshiftRight_eq_ofInt (n : Nat) : a.sshiftRight n = BitVec.ofInt 32 (a.toInt / 2 ^ n) := by
  unfold BitVec.sshiftRight
  rw [Int.shiftRight_eq_div_pow]
  norm_num


theorem laneFn_sll : laneFn .sll a b d b2 rv = (BitVec.ofNat 32 (a.toNat * 2 ^ (b.toNat % 32)), 0) := Prod.ext (shiftLeft_eq_ofNat a _) rfl
theorem laneFn_srl : laneFn .srl a b d b2 rv = (BitVec.ofNat 32 (a.toNat / 2 ^ (b.toNat % 32)), 0) := Prod.ext (shiftRight_eq_ofNat a _) rfl
theorem laneFn_sra : laneFn .sra a b d b2 rv = (BitVec.ofInt 32 (a.toInt / 2 ^ (b.toNat % 32)), 0) := Prod.ext (sshiftRight_eq_ofInt a _) rfl
theorem laneFn_rol : laneFn .rol a b d b2 rv = (a.rotateLeft (b.toNat % 32), 0) := rfl
theorem laneFn_sllI : laneFn (.sllI n) a b d b2 rv = (BitVec.ofNat 32 (a.toNat * 2 ^ n), 0) := Prod.ext (shiftLeft_eq_ofNat a n) rfl
theorem laneFn_srlI : laneFn (.srlI n) a b d b2 rv = (BitVec.ofNat 32 (a.toNat / 2 ^ n), 0) := Prod.ext (shiftRight_eq_ofNat a n) rfl
theorem laneFn_sraI : laneFn (.sraI n) a b d b2 rv = (BitVec.ofInt 32 (a.toInt / 2 ^ n), 0) := Prod.ext (sshiftRight_eq_ofInt a n) rfl
theorem laneFn_rolI : laneFn (.rolI n) a b d b2 rv = (a.rotateLeft n, 0) := rfl

end

/-- The value of byte e of a lane, with sign for I8. -/
def byteOf (f : Fmt) (w : Lane) (e : Nat) : Int := if f = .i8 then signedField 8 (w.toNat / 256 ^ e % 256) else (w.toNat / 256 ^ e % 256 : Nat)

theorem decodeI_elem {f : Fmt} (hf : f = .i8 ∨ f = .n8) (w : Lane) (e : Nat) : decodeI f (elem w.toNat 8 e) = byteOf f w e := by
  have helem : elem w.toNat 8 e = w.toNat / 256 ^ e % 256 := by rw [elem, pow_mul]; rfl
  rw [helem]
  rcases hf with rfl | rfl
  · rfl
  · rfl

/-- The accumulator of a lane with the four products of its bytes. -/
def dotSum (x y : Fmt) (a b d : Lane) : Int :=
  d.toInt + byteOf x a 0 * byteOf y b 0 + byteOf x a 1 * byteOf y b 1 + byteOf x a 2 * byteOf y b 2 + byteOf x a 3 * byteOf y b 3

theorem dotLane_eq {x y : Fmt} (hx : x = .i8 ∨ x = .n8) (hy : y = .i8 ∨ y = .n8) (z : Bool) (a b d : Lane) :
    dotLane x y z a b d = if z then clamp32 (dotSum x y a b d) else (BitVec.ofInt 32 (dotSum x y a b d), 0) := by
  simp only [dotLane, decodeI_elem hx, decodeI_elem hy]
  rfl

/-! ### The rows -/

/-- VSEL takes the lanes of v[A] where k[K] is set, else those of v[B]. -/
theorem rowLands_sel {s : State} {c : Core} {o : VOp} {i : Nat} (hnow : s.now c = o.t + i) (hi : i < 16) (ho : o.fn = .sel) :
    RowLands s c o i 18 (BitVec.allOnes 64)
      (fun j => if (s.readK c o.k i).getLsbD j = true then laneOf (s.srcRow c o o.a i) j else laneOf (s.srcRow c o o.b i) j) 0 := by
  have hrow : rowOf s c o i = (BitVec.allOnes 64, blend (s.readK c o.k i) (s.srcRow c o o.b i) (s.srcRow c o o.a i), 0) := by rw [rowOf, ho]; rfl
  have hw : RowWise o.fn 18 := ho ▸ ⟨rfl, rfl, rfl, rfl⟩
  refine rowLands_of_rowFn hnow hi hw (by rw [hrow]) (by rw [hrow]) fun j hj _ => ?_
  rw [hrow]
  exact laneOf_blend _ _ _ j hj

/-- The operations of this family work lane by lane, as computation shows. -/
theorem integerRowsHold : Claims.IntegerRows := by
  intro s c i o hnow hi A B K clamp rows saturates everyLane
  have plain {fn lat} {g : Lane → Lane → Lane} (hl : ∀ a b d b2 rv, laneFn fn a b d b2 rv = (g a b, 0))
      (hw : LaneWise fn lat true := by exact ⟨⟨rfl, rfl, rfl, rfl⟩, rfl, fun _ _ _ _ _ _ _ _ => rfl⟩) :
      rows fn lat fun j => g (A j) (B j) :=
    rowLands_of_lane (g := fun a b _ => g a b) hnow hi hw hl
  have clamped {fn} {g : Lane → Lane → Int} (hl : ∀ a b d b2 rv, laneFn fn a b d b2 rv = clamp32 (g a b))
      (hw : LaneWise fn 18 true := by exact ⟨⟨rfl, rfl, rfl, rfl⟩, rfl, fun _ _ _ _ _ _ _ _ => rfl⟩) :
      saturates fn fun j => g (A j) (B j) :=
    rowLands_of_clamp (g := fun a b _ => g a b) hnow hi hw hl
  have every {fn} {g : Lane → Lane → Lane} (hl : ∀ a b d b2 rv, laneFn fn a b d b2 rv = (g a b, 0))
      (hw : LaneWise fn 18 false := by exact ⟨⟨rfl, rfl, rfl, rfl⟩, rfl, fun _ _ _ _ _ _ _ _ => rfl⟩) :
      everyLane fn fun j => g (A j) (B j) :=
    rowLands_of_lane (g := fun a b _ => g a b) hnow hi hw hl
  refine ⟨(plain laneFn_addI :), (plain laneFn_subI :), (plain laneFn_mulI :), (plain laneFn_mulhI :),
    (plain laneFn_minI :), (plain laneFn_maxI :), (plain laneFn_minN :), (plain laneFn_maxN :),
    (clamped laneFn_addsI :), (clamped laneFn_subsI :), (clamped laneFn_absI :), (clamped laneFn_negI :),
    (plain laneFn_and :), (plain laneFn_or :), (plain laneFn_xor :), (plain laneFn_andn :), (plain laneFn_not :),
    (plain laneFn_sll :), (plain laneFn_srl :), (plain laneFn_sra :), (plain laneFn_rol :),
    fun n _ => ⟨(every laneFn_sllI :), (every laneFn_srlI :), (every laneFn_sraI :), (every laneFn_rolI :)⟩,
    rowLands_sel hnow hi, fun w => (plain (laneFn_splat (w := w)) :)⟩

theorem dotRows : DotRows := by
  intro s c i o x y z hnow hi hx hy ho byte A B exact clamp K
  have hw : LaneWise (.dot x y z) 22 true := ⟨⟨rfl, rfl, rfl, rfl⟩, rfl, fun _ _ _ _ _ _ _ _ => rfl⟩
  refine ⟨?_, ?_⟩
  · rintro rfl
    exact rowLands_of_lane (g := fun a b d => BitVec.ofInt 32 (dotSum x y a b d)) hnow hi hw (fun a b d _ _ => dotLane_eq hx hy false a b d) ho
  · rintro rfl
    exact rowLands_of_clamp (g := dotSum x y) hnow hi hw (fun a b d _ _ => dotLane_eq hx hy true a b d) ho

/-- Settles O23: what a row reads is `sourceRows`; a row of a lane function that is one number, clamped or not, is `rowLands_of_lane` and `rowLands_of_clamp`. -/
theorem integerRows : Obligations.IntegerRows := by
  unfold Obligations.IntegerRows
  exact ⟨sourceRows, integerRowsHold, dotRows⟩

end Sys2Proof.Proofs
end

section
/-! PROOFS. What reset leaves (O58): the registers of a core position that nothing has touched, and the tables that start empty. -/
namespace Sys2Proof.Proofs
open Sys2Proof.Machine Sys2Proof.Laws Sys2Proof.Claims

theorem stream_reset (k st : Nat) : (State.reset.core k).stream st = Stream.reset := ite_self _

theorem readX_reset (k a : Nat) : State.reset.readX (State.reset.core k) a = 0 := by
  unfold State.readX
  split
  · rfl
  · rfl

/-- Of the predicates only p0 is set. -/
theorem readP_reset {k a : Nat} (ha : 0 < a) : (State.reset.core k).readP a = false := by
  have hbit : (1#12).getLsbD a = false := by
    rw [BitVec.getLsbD_one]
    simpa using ha.ne'
  show (a == 0 || (1#12).getLsbD a) = false
  rw [hbit, Bool.or_false, beq_eq_false_iff_ne]
  exact ha.ne'

theorem readK_reset {k r i : Nat} (hr : 0 < r) : State.reset.readK (State.reset.core k) r i = 0 := if_neg hr.ne'

/-- Settles O58: `State.reset` holds empty tables and the values that the spec gives, which the reads of a core position return. -/
theorem resetValues : Obligations.ResetValues := by
  unfold Obligations.ResetValues
  refine ⟨rfl, rfl, rfl, rfl, rfl, rfl, rfl, fun k => ⟨rfl, rfl, rfl, rfl, rfl, rfl, rfl, rfl, rfl, rfl, readX_reset k, rfl, fun a => readP_reset,
    fun _ => rfl, fun _ => rfl, fun _ _ => rfl, fun _ => rfl, fun r i => readK_reset, rfl, fun st => ?_⟩, fun _ => ⟨rfl, rfl, rfl⟩, rfl, rfl, rfl, rfl⟩
  rw [stream_reset]
  exact ⟨rfl, rfl, rfl, fun _ _ _ => rfl⟩

end Sys2Proof.Proofs
end

section
/-! PROOFS. What the writes of a stationmaster leave alone: a record that it stores changes bytes, stamps and covers, and in the partitions only what races and
spoiled save areas are noted by (R251, R316). -/
namespace Sys2Proof.Proofs
open Sys2Proof.Machine Sys2Proof.Laws

/-! ### Partitions by index -/

section
variable {s : State} {p : Nat} {q : Part}

theorem part_of_find (h : Tab.find s.parts p = some q) : s.part p = q := congrArg (·.getD Part.reset) h

theorem withPart_of_find (h : Tab.find s.parts p = some q) (f : Part → State) : withPart s p f = f q := by simp [withPart, h]

theorem find_modPart_of_find (h : Tab.find s.parts p = some q) (f : Part → Part) : Tab.find (s.modPart p f).parts p = some (f q) := by
  rw [find_modPart, if_pos rfl, h, Option.map_some]

theorem find_modPart_other {j : Nat} (h : j ≠ p) (f : Part → Part) : Tab.find (s.modPart p f).parts j = Tab.find s.parts j := by
  rw [find_modPart, if_neg h]

end

/-! ### Tables whose entries are changed one by one -/

/-- The entries of u are those of t, each changed within R. -/
def Mapped {α : Type} (R : α → α → Prop) (t u : Tab α) : Prop := List.Forall₂ (fun e f => f.1 = e.1 ∧ R e.2 f.2) t u

section
variable {α : Type} {R : α → α → Prop} {t u w : Tab α}

theorem mapped_refl (hR : ∀ a, R a a) (t : Tab α) : Mapped R t t := List.forall₂_same.mpr fun e _ => ⟨rfl, hR e.2⟩

theorem Mapped.trans (hR : ∀ a b c, R a b → R b c → R a c) (h : Mapped R t u) (h' : Mapped R u w) : Mapped R t w := by
  induction h generalizing w with
  | nil => exact h'
  | cons hab _ ih =>
    obtain _ | ⟨hbc, hrest⟩ := h'
    exact .cons ⟨hbc.1.trans hab.1, hR _ _ _ hab.2 hbc.2⟩ (ih hrest)

theorem Mapped.imp {S : α → α → Prop} (h : Mapped R t u) (hRS : ∀ a b, R a b → S a b) : Mapped S t u :=
  List.Forall₂.imp (fun _ _ he => ⟨he.1, hRS _ _ he.2⟩) h

theorem mapped_map {f : Nat × α → Nat × α} (hf : ∀ e, (f e).1 = e.1 ∧ R e.2 (f e).2) (t : Tab α) : Mapped R t (t.map f) :=
  List.forall₂_map_right_iff.mpr <| List.forall₂_same.mpr fun e _ => hf e

theorem mapped_upd {k : Nat} {f : α → α} (hR : ∀ a, R a a) (hf : ∀ a, R a (f a)) (t : Tab α) : Mapped R t (Tab.upd t k f) := by
  refine mapped_map (fun e => ?_) t
  split
  · exact ⟨rfl, hf e.2⟩
  · exact ⟨rfl, hR e.2⟩

theorem Mapped.find {k : Nat} {a : α} (h : Mapped R t u) (ha : Tab.find t k = some a) : ∃ b, Tab.find u k = some b ∧ R a b := by
  induction h with
  | nil => cases ha
  | @cons e f _ _ hef _ ih =>
    obtain ⟨hkey, hR⟩ := hef
    simp only [Tab.find] at ha ⊢
    rw [hkey]
    split
    · rename_i hk
      rw [if_pos hk] at ha
      exact ⟨f.2, rfl, Option.some.inj ha ▸ hR⟩
    · rename_i hk
      rw [if_neg hk] at ha
      exact ih ha

end

/-! ### Stores -/

/-- What a stationmaster's writes and event records may change of a context. -/
def CtxNoted (x y : Ctx) : Prop := ∃ ls es b, y = { x with savedLaunches := ls, events := es, spoiled := b }
/-- What they may change of a partition. -/
def PartNoted (q r : Part) : Prop := ∃ ls cs, r = { q with launches := ls, ctxs := cs } ∧ Mapped CtxNoted q.ctxs cs
/-- Only bytes, stamps, covers and notes in the partitions differ. -/
def Stored (s t : State) : Prop :=
  ∃ mem stamps covers parts, t = { s with mem := mem, stamps := stamps, covers := covers, parts := parts } ∧ Mapped PartNoted s.parts parts

theorem CtxNoted.refl (x : Ctx) : CtxNoted x x := ⟨_, _, _, rfl⟩
theorem CtxNoted.trans (x y z : Ctx) : CtxNoted x y → CtxNoted y z → CtxNoted x z := by
  rintro ⟨_, _, _, rfl⟩ ⟨_, _, _, rfl⟩
  exact ⟨_, _, _, rfl⟩
theorem PartNoted.refl (q : Part) : PartNoted q q := ⟨_, _, rfl, mapped_refl CtxNoted.refl _⟩
theorem PartNoted.trans (q r z : Part) : PartNoted q r → PartNoted r z → PartNoted q z := by
  rintro ⟨_, _, rfl, h⟩ ⟨_, _, rfl, h'⟩
  exact ⟨_, _, rfl, h.trans CtxNoted.trans h'⟩

section
variable {s t u : State}

theorem Stored.refl (s : State) : Stored s s := ⟨_, _, _, _, rfl, mapped_refl PartNoted.refl _⟩
theorem Stored.trans (h : Stored s t) (h' : Stored t u) : Stored s u := by
  obtain ⟨_, _, _, _, rfl, h⟩ := h
  obtain ⟨_, _, _, _, rfl, h'⟩ := h'
  exact ⟨_, _, _, _, rfl, h.trans PartNoted.trans h'⟩
theorem stored_foldl {α : Type} {f : State → α → State} (hf : ∀ t x, Stored t (f t x)) (l : List α) (s : State) : Stored s (l.foldl f s) := by
  induction l generalizing s with
  | nil => exact .refl s
  | cons x l ih => exact (hf s x).trans (ih _)
theorem stored_ite {c : Prop} [Decidable c] (ht : Stored s t) (hu : Stored s u) : Stored s (if c then t else u) := by
  split
  · exact ht
  · exact hu

theorem Stored.cores (h : Stored s t) : t.cores = s.cores := by
  obtain ⟨_, _, _, _, rfl, -⟩ := h
  rfl
theorem Stored.core (h : Stored s t) (k : Nat) : t.core k = s.core k := by simp only [State.core, h.cores]
theorem Stored.agenda (h : Stored s t) : t.agenda = s.agenda := by
  obtain ⟨_, _, _, _, rfl, -⟩ := h
  rfl
theorem Stored.parts (h : Stored s t) : Mapped PartNoted s.parts t.parts := by
  obtain ⟨_, _, _, _, rfl, h⟩ := h
  exact h

end

theorem stored_setByte (s : State) (a : Nat) (v : Byte) : Stored s (s.setByte a v) := ⟨_, _, _, _, rfl, mapped_refl PartNoted.refl _⟩
theorem stored_setStamp (s : State) (pd off : Nat) (x : Stamp) : Stored s (s.setStamp pd off x) :=
  ⟨_, _, _, _, rfl, mapped_refl PartNoted.refl _⟩
theorem stored_uncover (s : State) (key : Nat) : Stored s (s.uncover key) := ⟨_, _, _, _, rfl, mapped_refl PartNoted.refl _⟩

theorem stored_modCtx {f : Ctx → Ctx} (hf : ∀ x, CtxNoted x (f x)) (s : State) (p a : Nat) : Stored s (s.modCtx p a f) :=
  ⟨_, _, _, _, rfl, mapped_upd PartNoted.refl (fun _ => ⟨_, _, rfl, mapped_upd CtxNoted.refl hf _⟩) _⟩

theorem noted_mapLaunches (q : Part) (f : Launch → Launch) : PartNoted q (q.mapLaunches f) :=
  ⟨_, _, rfl, List.forall₂_map_right_iff.mpr <| List.forall₂_same.mpr fun _ _ => ⟨rfl, _, _, _, rfl⟩⟩

theorem stored_masterKey (q : Part) (s : State) (e : Nat × Byte) : Stored s (State.masterKey q s e) := by
  unfold State.masterKey
  dsimp only
  split
  · exact stored_setByte ..
  · refine ⟨_, _, _, _, rfl, mapped_map (fun z => ?_) _⟩
    split
    · have h := noted_mapLaunches z.2 fun y => { y with host := (e.1, true) :: y.host }
      exact ⟨rfl, h⟩
    · exact ⟨rfl, PartNoted.refl _⟩
theorem stored_masterBytes (q : Part) (s : State) (key : Nat) (bs : List Byte) : Stored s (State.masterBytes q s key bs) :=
  stored_foldl (stored_masterKey q) _ _

theorem stored_spoil (s : State) (q : Part) (station : Bool) (pd off : Nat) : Stored s (s.spoil q station pd off) :=
  stored_foldl (fun _ _ => stored_foldl (fun _ _ => stored_ite (stored_modCtx (fun _ => ⟨_, _, _, rfl⟩) ..) (.refl _)) ..) ..

theorem stored_lineWritten (s : State) (q : Part) (addr : Nat) : Stored s (s.lineWritten q addr) :=
  stored_ite (stored_spoil ..) ((stored_spoil ..).trans (stored_setStamp ..))

theorem stored_devStore (s : State) (q : Part) (addr n v : Nat) : Stored s (s.devStore q addr n v) :=
  (stored_foldl (fun _ _ => stored_masterKey ..) ..).trans (stored_foldl (fun _ _ => stored_ite (stored_lineWritten ..) (.refl _)) ..)

theorem stored_appendEvent (s : State) (p a : Nat) (e : EventRec) : Stored s (s.appendEvent p a e) := by
  unfold State.appendEvent
  split
  · exact .refl s
  · have hnote : Stored s (s.modCtx p a fun x => { x with events := x.events ++ [e] }) := stored_modCtx (fun _ => ⟨_, _, _, rfl⟩) ..
    exact stored_ite (hnote.trans (stored_devStore ..)) hnote

theorem stored_saveAt (q : Part) (b : RangeBind) (s : State) (o : Nat) (bs : List Byte) : Stored s (State.saveAt q b s o bs) := by
  unfold State.saveAt
  split
  · exact stored_ite (stored_masterBytes ..) (.refl s)
  · exact .refl s

end Sys2Proof.Proofs
end

section
/-! PROOFS. Holds (O34): how a hold begins and ends, how its causes clear, and what the actions of a fault do for a context that BUDGET alone has halted. -/
namespace Sys2Proof.Proofs
open Sys2Proof.Machine Sys2Proof.Laws Sys2Proof.Claims

theorem partBecomes_modPart {s : State} {p : Nat} {q : Part} (h : Tab.find s.parts p = some q) (f : Part → Part) :
    partBecomes s (s.modPart p f) p (f q) :=
  ⟨find_modPart_of_find h f, fun _ hj => find_modPart_other hj f⟩

theorem restKept_modPart (s : State) (p : Nat) (f : Part → Part) : restKept s (s.modPart p f) := ⟨rfl, rfl, rfl, rfl, rfl, rfl⟩

/-! ### Core positions that change their state together -/

/-- Every listed core position changes by g, and one that is not listed stays at reset. -/
theorem core_mapCores (s : State) (g : Core → Core) (hg : ∀ k, g { Core.reset with pcol := k % 16 } = { Core.reset with pcol := k % 16 }) (j : Nat) :
    ({ s with cores := s.cores.map fun e => (e.1, g e.2) } : State).core j = g (s.core j) := by
  unfold State.core
  dsimp only
  induction s.cores with
  | nil => exact (hg j).symm
  | cons e t ih =>
    by_cases h : e.1 = j
    · simp [Tab.find, h]
    · simpa [Tab.find, h] using ih

/-- The cores of partition p that are in one state go to another. -/
def moveCores (p : Nat) (old new : CoreSt) (c : Core) : Core := if c.part = p ∧ c.st = old then { c with st := new } else c

theorem core_moveCores (s : State) (p : Nat) {old new : CoreSt} (hold : old ≠ .idle) (j : Nat) :
    ({ s with cores := s.cores.map fun (e : Nat × Core) => if e.2.part = p ∧ e.2.st = old then (e.1, { e.2 with st := new }) else e } : State).core j
      = moveCores p old new (s.core j) := by
  have hmap : (fun (e : Nat × Core) => if e.2.part = p ∧ e.2.st = old then (e.1, { e.2 with st := new }) else e)
      = fun e => (e.1, moveCores p old new e.2) := by
    funext e
    unfold moveCores
    split
    · rfl
    · rfl
  rw [hmap]
  refine core_mapCores s _ (fun k => ?_) j
  exact if_neg fun ⟨_, hidle⟩ => hold hidle.symm

/-! ### A partition that holds while its halts take effect -/

/-- Partition p holds as r does, and no core of it runs. -/
def StandsAs (p : Nat) (r : Part) (s : State) : Prop :=
  (∃ q, Tab.find s.parts p = some q ∧ q.held = r.held ∧ q.causes = r.causes ∧ q.stime = r.stime ∧ q.holdCount = r.holdCount) ∧
  ∀ j, (s.core j).part = p → (s.core j).st ≠ .running

section
variable {p : Nat} {r : Part} {s t : State}

theorem StandsAs.stored (h : StandsAs p r s) (hst : Stored s t) : StandsAs p r t := by
  obtain ⟨⟨q, hq, hr⟩, hcores⟩ := h
  obtain ⟨q', hq', _, _, rfl, -⟩ := hst.parts.find hq
  exact ⟨⟨_, hq', hr⟩, fun j => hst.core j ▸ hcores j⟩

theorem StandsAs.modPart (h : StandsAs p r s) (j : Nat) (f : Part → Part)
    (hf : ∀ q, (f q).held = q.held ∧ (f q).causes = q.causes ∧ (f q).stime = q.stime ∧ (f q).holdCount = q.holdCount := by
      exact fun _ => ⟨rfl, rfl, rfl, rfl⟩) : StandsAs p r (s.modPart j f) := by
  obtain ⟨⟨q, hq, hheld, hcauses, hstime, hcount⟩, hcores⟩ := h
  refine ⟨?_, hcores⟩
  rw [find_modPart, hq]
  split
  · obtain ⟨fheld, fcauses, fstime, fcount⟩ := hf q
    exact ⟨f q, rfl, fheld.trans hheld, fcauses.trans hcauses, fstime.trans hstime, fcount.trans hcount⟩
  · exact ⟨q, rfl, hheld, hcauses, hstime, hcount⟩

theorem StandsAs.modCtx (h : StandsAs p r s) (j a : Nat) (f : Ctx → Ctx) : StandsAs p r (s.modCtx j a f) := h.modPart j _

/-- A core may be written so long as the write does not set it running. -/
theorem StandsAs.setCore (h : StandsAs p r s) {k : Nat} {c : Core} (hc : c.part = p → c.st ≠ .running) : StandsAs p r (s.setCore k c) := by
  refine ⟨h.1, fun j => ?_⟩
  by_cases hj : j = k
  · subst hj
    rwa [core_setCore_same]
  · rw [core_setCore_other s c hj]
    exact h.2 j

theorem StandsAs.modCore (h : StandsAs p r s) {k : Nat} {f : Core → Core} (hpart : ∀ c, (f c).part = c.part := by exact fun _ => rfl)
    (hst : ∀ c, (f c).st = c.st := by exact fun _ => rfl) : StandsAs p r (s.modCore k f) :=
  h.setCore <| by
    rw [hpart, hst]
    exact h.2 k

theorem standsAs_foldl {α : Type} {f : State → α → State} {l : List α} (hf : ∀ t x, StandsAs p r t → StandsAs p r (f t x)) (h : StandsAs p r s) :
    StandsAs p r (l.foldl f s) := by
  induction l generalizing s with
  | nil => exact h
  | cons x l ih => exact ih (hf s x h)

theorem standsAs_ite {c : Prop} [Decidable c] (hs : StandsAs p r s) (ht : StandsAs p r t) : StandsAs p r (if c then s else t) := by
  split
  · exact hs
  · exact ht

theorem StandsAs.putStop (h : StandsAs p r s) (j a : Nat) (x : StopRec) : StandsAs p r (s.putStop j a x) := by
  unfold State.putStop
  dsimp only
  split
  · exact h.modCtx ..
  · split
    · exact (h.modCtx ..).stored (stored_saveAt ..)
    · exact ((h.modCtx ..).stored (stored_saveAt ..)).stored (stored_ite (stored_uncover ..) (stored_setStamp ..))

theorem ne_running_of_halted {c : Core} (h : c.st = .halted) : c.st ≠ .running := by
  rw [h]
  decide

/-- A core that is HALTED, or frozen now. -/
theorem frozen_st (c : Core) (t : Nat) : (if c.st = .halted then c else c.freeze t).st = .halted := by
  split
  · assumption
  · rfl

theorem StandsAs.haltCore (h : StandsAs p r s) (hal : Halt) (again : Bool) (k : Nat) : StandsAs p r (s.haltCore hal again k).1 := by
  have hst := frozen_st (s.core k) (s.now (s.core k))
  have hset {c : Core} (hc : c.st = .halted) : StandsAs p r (s.setCore k c) := h.setCore fun _ => ne_running_of_halted hc
  unfold State.haltCore
  dsimp only
  split
  · exact hset hst
  · split
    · exact h
    · split
      · exact hset hst
      · split
        · exact hset hst
        · exact hset hst

theorem StandsAs.newFreeze (h : StandsAs p r s) (j a : Nat) : StandsAs p r (s.newFreeze j a) :=
  (standsAs_foldl (fun _ _ ht => standsAs_ite (ht.setCore fun _ => ne_running_of_halted rfl) ht) h).modCtx ..

theorem StandsAs.haltContext (h : StandsAs p r s) (j a : Nat) (hal : Halt) : StandsAs p r (s.haltContext j a hal) :=
  ((standsAs_foldl (fun _ _ ht => ht.modCore) <| standsAs_foldl (fun _ _ ht => ht.modCore) <|
    standsAs_foldl (fun _ _ ht => (ht.haltCore ..).putStop ..) (h.newFreeze ..)).modPart ..).modCtx ..

theorem StandsAs.haltAgain (h : StandsAs p r s) (j a : Nat) (hal : Halt) : StandsAs p r (s.haltAgain j a hal) :=
  (standsAs_foldl (fun _ _ ht => (ht.haltCore ..).putStop ..) h).modCtx ..

theorem StandsAs.applyHalts (h : StandsAs p r s) (j : Nat) : StandsAs p r (s.applyHalts j) := by
  unfold State.applyHalts
  refine standsAs_foldl (fun _ _ ht => ?_) h
  split
  · exact standsAs_ite (standsAs_ite (ht.haltContext ..) <| standsAs_ite (ht.haltAgain ..) (ht.modCtx ..)) ht
  · exact ht

theorem StandsAs.freezeForSave (h : StandsAs p r s) (j a : Nat) : StandsAs p r (s.freezeForSave j a) := by
  unfold State.freezeForSave
  split
  · refine standsAs_ite ?_ h
    exact standsAs_foldl (fun _ _ ht => ht.modCore) <|
      standsAs_foldl (fun t k ht => (ht.setCore fun _ => ne_running_of_halted (frozen_st ..)).putStop ..) (h.newFreeze ..)
  · exact h

end

/-! ### Requests and resumes -/

section
variable {s : State} {p : Nat} {q : Part}

theorem raiseHold_eq (hq : Tab.find s.parts p = some q) (cause tag : Nat) :
    s.raiseHold p cause tag = s.modPart p fun z => { z with reqs := z.reqs ++ [⟨cause, q.stime + 192, false, tag⟩] } := by
  unfold State.raiseHold
  rw [part_of_find hq]
  rfl

theorem holdRequest_next (hq : Tab.find s.parts p = some q) {cause : Nat} (h1 : 1 ≤ cause) (h6 : cause ≤ 6) (h5 : cause = 5 → q.unlocked = true) :
    ∃ t, exec (.holdRequest p cause) s = .next t ∧ partBecomes s t p { q with reqs := q.reqs ++ [⟨cause, q.stime + 192, false, 0⟩] } ∧ restKept s t := by
  have hexec : exec (.holdRequest p cause) s = .next (s.raiseHold p cause 0) := if_pos ⟨h1, h6, by rwa [part_of_find hq]⟩
  rw [raiseHold_eq hq] at hexec
  exact ⟨_, hexec, partBecomes_modPart hq _, restKept_modPart ..⟩

theorem holdRequest_locked (hq : Tab.find s.parts p = some q) (hlock : q.unlocked = false) : exec (.holdRequest p 5) s = .next s := by
  refine if_neg fun ⟨_, _, h⟩ => ?_
  have := h rfl
  rw [part_of_find hq, hlock] at this
  cases this

theorem holdTakesEffect_early (hq : Tab.find s.parts p = some q) (h : ∀ r ∈ q.reqs, q.stime < r.h) : exec (.holdTakesEffect p) s = .next s := by
  refine if_pos ?_
  rw [part_of_find hq, List.isEmpty_iff, List.filter_eq_nil_iff]
  intro r hr
  simpa using h r hr

theorem applyHalts_none (hq : Tab.find s.parts p = some q) (h : ∀ e ∈ q.ctxs, e.2.halt = none) : s.applyHalts p = s := by
  unfold State.applyHalts
  rw [part_of_find hq]
  refine List.foldlRecOn (motive := (· = s)) q.ctxs _ rfl fun t ht e he => ?_
  rw [ht, h e he]

/-- The requests whose hold tick has come. -/
def dueHolds (q : Part) : List HoldReq := q.reqs.filter fun r => decide (r.h ≤ q.stime)

/-- What the hold tick makes of a partition whose due requests are given. -/
def takeHold (due : List HoldReq) (q : Part) : Part :=
  { q with
    held := true
    causes := q.causes ++ due
    reqs := q.reqs.filter fun r => !decide (r.h ≤ q.stime)
    holdCount := if q.held then q.holdCount else min (2 ^ 32 - 1) (q.holdCount + 1)
    holdLast := due.foldl (fun m r => max m r.cause) (if q.held then q.holdLast else 0)
    resumeAt := none
    pend := q.pend.map fun a => if a = q.stime + Config.holdLead then q.stime else a }

/-- The state in which the halts of a hold take effect: the partition holds, and its cores have stopped. -/
def heldState (s : State) (p : Nat) (q : Part) : State :=
  { s.modPart p (takeHold (dueHolds q)) with
    cores := s.cores.map fun (e : Nat × Core) => if e.2.part = p ∧ e.2.st = CoreSt.running then (e.1, { e.2 with st := CoreSt.held }) else e }

theorem partBecomes_heldState (hq : Tab.find s.parts p = some q) : partBecomes s (heldState s p q) p (takeHold (dueHolds q) q) :=
  partBecomes_modPart hq _

theorem standsAs_heldState (hq : Tab.find s.parts p = some q) : StandsAs p (takeHold (dueHolds q) q) (heldState s p q) := by
  refine ⟨⟨_, (partBecomes_heldState hq).1, rfl, rfl, rfl, rfl⟩, fun j => ?_⟩
  have hcore : (heldState s p q).core j = moveCores p .running .held (s.core j) := core_moveCores s p (by decide) j
  rw [hcore]
  unfold moveCores
  split
  · rintro - ⟨⟩
  · rename_i hnot
    exact fun hp hrun => hnot ⟨hp, hrun⟩

theorem holdTakesEffect_eq (hq : Tab.find s.parts p = some q) (hdue : ∃ r ∈ q.reqs, r.h ≤ q.stime) :
    exec (.holdTakesEffect p) s =
      .next (let s4 := ((dueHolds q).filter fun r => r.cause == 4).foldl (fun s r => s.freezeForSave p (r.tag - preTag 0)) ((heldState s p q).applyHalts p)
        if (dueHolds q).any fun r => r.cause == 6 || r.cause == 5 then s4.within (2 ^ 20 + p) actionTicks (.faultActionsComplete p) else s4) := by
  obtain ⟨r, hr, hh⟩ := hdue
  have hne : (dueHolds q).isEmpty = false := List.isEmpty_eq_false_iff_exists_mem.mpr ⟨r, List.mem_filter.mpr ⟨hr, decide_eq_true hh⟩⟩
  rw [exec_holdTakesEffect]
  unfold execHoldTakesEffect
  rw [part_of_find hq]
  exact if_neg (hne ▸ Bool.false_ne_true)

theorem holdTakesEffect_next (hq : Tab.find s.parts p = some q) (hheld : q.held = false) (hdue : ∃ r ∈ q.reqs, r.h ≤ q.stime) :
    ∃ t q', exec (.holdTakesEffect p) s = .next t ∧ Tab.find t.parts p = some q' ∧
      q'.held = true ∧ q'.causes = q.causes ++ q.reqs.filter (fun r => decide (r.h ≤ q.stime)) ∧ q'.stime = q.stime ∧
      q'.holdCount = min (2 ^ 32 - 1) (q.holdCount + 1) ∧ (∀ j, (t.core j).part = p → (t.core j).st ≠ .running) ∧
      ((∀ e ∈ q.ctxs, e.2.halt = none) → (∀ r ∈ q.reqs, r.h ≤ q.stime → r.cause ≠ 4) → t.mem = s.mem ∧ partBecomes s t p q') := by
  have hstands (t : State) (h : StandsAs p (takeHold (dueHolds q) q) t) : StandsAs p (takeHold (dueHolds q) q)
      (if (dueHolds q).any fun r => r.cause == 6 || r.cause == 5 then t.within (2 ^ 20 + p) actionTicks (.faultActionsComplete p) else t) :=
    standsAs_ite h h
  obtain ⟨⟨q', hq', hheld', hcauses, hstime, hcount⟩, hcores⟩ := hstands _ <|
    standsAs_foldl (l := (dueHolds q).filter fun r => r.cause == 4) (fun _ r ht => ht.freezeForSave p (r.tag - preTag 0)) <|
      (standsAs_heldState hq).applyHalts p
  refine ⟨_, q', holdTakesEffect_eq hq hdue, hq', hheld', hcauses, hstime, hcount.trans (by simp [takeHold, hheld]), hcores, fun hhalt h4 => ?_⟩
  have hfour : (dueHolds q).filter (fun r => r.cause == 4) = [] := by
    refine List.filter_eq_nil_iff.mpr fun r hr => ?_
    obtain ⟨hr, hh⟩ := List.mem_filter.mp hr
    simpa using h4 r hr (of_decide_eq_true hh)
  have hbecomes := partBecomes_heldState hq
  have hsame : (heldState s p q).applyHalts p = heldState s p q := applyHalts_none hbecomes.1 hhalt
  rw [hfour, hsame] at hq' ⊢
  obtain rfl : takeHold (dueHolds q) q = q' := by
    refine Option.some.inj (hbecomes.1.symm.trans ?_)
    split at hq'
    · exact hq'
    · exact hq'
  dsimp only
  split
  · exact ⟨rfl, hbecomes⟩
  · exact ⟨rfl, hbecomes⟩

/-- What the resume of a hold makes of a partition: `now` says that a rate change was decided during the hold. -/
def resumed (wall : Nat) (now : Bool) (q : Part) : Part :=
  { q with
    held := false
    causes := []
    resumeAt := none
    t0 := q.stime
    w0 := wall
    rate := if now then q.next else q.rate
    pend := if now then none else q.pend }

theorem holdResume_next (hq : Tab.find s.parts p = some q) (hheld : q.held = true) {w : Nat} (hat : q.resumeAt = some w) (hw : w ≤ s.wtime) :
    ∃ t q', exec (.holdResume p) s = .next t ∧ partBecomes s t p q' ∧
      (q.pend = none → q' = { q with held := false, causes := [], resumeAt := none, t0 := q.stime, w0 := s.wtime }) ∧
      (∀ a, q.pend = some a → a ≤ q.stime →
        q' = { q with held := false, causes := [], resumeAt := none, t0 := q.stime, w0 := s.wtime, rate := q.next, pend := none }) ∧ t.mem = s.mem ∧
      ∀ j, t.core j = if (s.core j).part = p ∧ (s.core j).st = .held then { s.core j with st := .running } else s.core j := by
  have hexec : exec (.holdResume p) s = .next { s.modPart p (resumed s.wtime (q.pend.any fun a => decide (a ≤ q.stime))) with
      cores := s.cores.map fun (e : Nat × Core) => if e.2.part = p ∧ e.2.st = CoreSt.held then (e.1, { e.2 with st := CoreSt.running }) else e } := by
    rw [exec_holdResume]
    unfold execHoldResume
    rw [part_of_find hq]
    dsimp only
    rw [hat]
    exact if_pos ⟨hheld, hw⟩
  refine ⟨_, _, hexec, partBecomes_modPart hq _, fun hpend => ?_, fun a hpend ha => ?_, rfl, fun j => core_moveCores s p (by decide) j⟩
  · simp [resumed, hpend]
  · simp [resumed, hpend, ha]

/-! ### Causes that clear -/

/-- Every cause that f names has cleared, and when it was the last the resume is 64 wall ticks away. -/
theorem clearHold_clears (q : Part) (wall c : Nat) (f : HoldReq → Bool) (hf : ∀ r ∈ q.causes, r.cause = c → f r = true) :
    (∀ r ∈ (q.clearHold wall f).causes, r.cause = c → r.cleared = true) ∧
    (q.held = true → q.resumeAt = none → (∀ r ∈ q.causes, r.cause = c ∨ r.cleared = true) → (q.clearHold wall f).resumeAt = some (wall + 64)) := by
  have hclear (r : HoldReq) (hr : r ∈ q.causes) (hc : r.cause = c ∨ r.cleared = true) : (if f r then { r with cleared := true } else r).cleared = true := by
    split
    · rfl
    · exact hc.resolve_left fun hc => ‹¬_› (hf r hr hc)
  refine ⟨fun r' hr' hc => ?_, fun hheld hnone hall => ?_⟩
  · obtain ⟨r, hr, rfl⟩ := List.mem_map.mp hr'
    refine hclear r hr (.inl ?_)
    split at hc
    · exact hc
    · exact hc
  · refine if_pos ?_
    rw [hheld, hnone]
    simpa using fun r hr => hclear r hr (hall r hr)

theorem debuggerResume_next (hq : Tab.find s.parts p = some q) :
    ∃ t q', exec (.debuggerResume p) s = .next t ∧ partBecomes s t p q' ∧ restKept s t ∧ (∀ r ∈ q'.reqs, r.cause ≠ 5) ∧
      (∀ r ∈ q'.causes, r.cause = 5 → r.cleared = true) ∧
      (q.held = true → q.resumeAt = none → (∀ r ∈ q.causes, r.cause = 5 ∨ r.cleared = true) → q'.resumeAt = some (s.wtime + 64)) := by
  refine ⟨_, _, rfl, partBecomes_modPart hq _, restKept_modPart .., fun r hr => ?_, clearHold_clears q s.wtime 5 _ fun r _ hc => beq_iff_eq.mpr hc⟩
  have hnot := (List.mem_filter.mp hr).2
  simpa using hnot

theorem faultActions_next (hq : Tab.find s.parts p = some q) (hhalt : ∀ e ∈ q.ctxs, e.2.halt = none) (hheld : q.held = true) :
    ∃ t q', exec (.faultActionsComplete p) s = .next t ∧ partBecomes s t p q' ∧ restKept s t ∧
      (∀ r ∈ q'.causes, r.cause = 6 → r.cleared = true) ∧
      (q.held = true → q.resumeAt = none → (∀ r ∈ q.causes, r.cause = 6 ∨ r.cleared = true) → q'.resumeAt = some (s.wtime + 64)) := by
  have hnone : (s.part p).ctxs.foldl (fun s e => if e.2.halt.any fun hal => hal.h == 0 then s.haltActions p e.1 e.2 else s) s = s := by
    rw [part_of_find hq]
    refine List.foldlRecOn (motive := (· = s)) q.ctxs _ rfl fun t ht e he => ?_
    rw [ht, hhalt e he]
    rfl
  rw [exec_faultActionsComplete]
  unfold execFaultActionsComplete
  rw [hnone]
  refine ⟨_, _, rfl, partBecomes_modPart hq _, restKept_modPart .., clearHold_clears q s.wtime 6 _ fun r hr hc => ?_⟩
  simp [hc, hheld, hr]

/-! ### A halt by BUDGET alone -/

/-- A context of partition p that reads, but for the notes of the stationmaster, as x does. -/
theorem Stored.ctx {t : State} (h : Stored s t) {a : Nat} {x : Ctx} (hx : s.ctx p a = some x) : ∃ y, t.ctx p a = some y ∧ CtxNoted x y := by
  cases hq : Tab.find s.parts p with
  | none =>
    rw [State.ctx, State.part, hq] at hx
    cases hx
  | some q =>
    obtain ⟨q', hq', ls, cs, rfl, hcs⟩ := h.parts.find hq
    rw [State.ctx, part_of_find hq] at hx
    obtain ⟨y, hy, hxy⟩ := hcs.find hx
    refine ⟨y, ?_, hxy⟩
    rw [State.ctx, part_of_find hq']
    exact hy

/-- Writing back a core that stands in the table changes nothing. -/
theorem setCore_core_of_put {t : State} {cs : Tab Core} {k : Nat} {c : Core} (h : t.cores = Tab.put cs k c) : t.setCore k (t.core k) = t := by
  have hcore : t.core k = c := by rw [State.core, h, find_put_same, Option.getD_some]
  rw [hcore, State.setCore, h, put_put, ← h]

/-- A core with no fault of its own to report stays as it is. -/
theorem dueActions_none {t : State} {cs : Tab Core} {k : Nat} {c : Core} (h : t.cores = Tab.put cs k c) (hc : ∀ d ∈ c.due, d.halts = false) (p a : Nat) :
    t.dueActions p a k = (t, false) := by
  have hcore : t.core k = c := by rw [State.core, h, find_put_same, Option.getD_some]
  have hnone : (t.core k).due.filter (·.halts) = [] := List.filter_eq_nil_iff.mpr fun d hd => by simp [hc d (hcore ▸ hd)]
  have hall : (t.core k).due.filter (fun d => !d.halts) = (t.core k).due := List.filter_eq_self.mpr fun d hd => by simp [hc d (hcore ▸ hd)]
  unfold State.dueActions State.modCore
  dsimp only
  rw [hnone, hall]
  exact congrArg (·, false) (setCore_core_of_put h)

/-- The stationmaster refills BUDGET from REFILL and counts the refill (R239). -/
def refilled (s : State) (p a k : Nat) (x : Ctx) : State :=
  (s.modCore k fun c => { c with budget := x.refill }).modCtx p a fun x => { x with rcount := x.rcount - 1 }

theorem ctx_refilled (s : State) (p a k : Nat) (x : Ctx) (f : Ctx → Ctx) :
    ((refilled s p a k x).modCtx p a f).ctx p a = (s.ctx p a).map fun y => f { y with rcount := y.rcount - 1 } := by
  rw [ctx_modCtx, refilled, ctx_modCtx, Option.map_map]
  rfl

theorem stopAction_budget {a : Nat} {x : Ctx} {r : StopRec} (hx : s.ctx p a = some x) (hkind : r.kind = 1) (hcause : r.trap.cause = 6)
    (hcount : 0 < x.rcount) : ∃ s1, Stored s s1 ∧ s.stopAction p a r = (refilled s1 p a r.core x, false) := by
  refine ⟨_, stored_appendEvent s p a (s.eventOf r.core r.trap r.copy), ?_⟩
  obtain ⟨y, hy, _, _, _, rfl⟩ := (stored_appendEvent s p a (s.eventOf r.core r.trap r.copy)).ctx hx
  unfold State.stopAction
  rw [if_pos (.inl hkind)]
  dsimp only
  rw [if_neg (by simp [hcause]), if_pos hcause, hy]
  exact if_pos hcount

theorem haltActions_budget {a k e : Nat} {x : Ctx} {h : Halt} {r : StopRec} (hx : s.ctx p a = some x) (hhalt : x.halt = some h) (hcores : h.cores = [k])
    (hst : x.st = .halted) (harmed : x.armed = none) (hstops : x.stops = [(k, r)]) (hkind : r.kind = 1) (hcore : r.core = k) (hcause : r.trap.cause = 6)
    (hcount : 0 < x.rcount) (hevents : h.events = [(k, 1, e)]) (hdue : ∀ d ∈ (s.core k).due, d.halts = false) :
    ∃ s1, Stored s s1 ∧ s.haltActions p a x =
      { (refilled s1 p a k x).modCtx p a fun y => { y with halt := none } with agenda := .stationmasterResume p a :: s.agenda } := by
  obtain ⟨s1, hstored, hstop⟩ := stopAction_budget hx hkind hcause hcount
  rw [hcore] at hstop
  have hput : (refilled s1 p a k x).cores = Tab.put s1.cores k { s1.core k with budget := x.refill } := rfl
  have hnone := dueActions_none hput (by rwa [hstored.core]) p a
  refine ⟨s1, hstored, ?_⟩
  unfold State.haltActions
  simp [hhalt, hcores, hevents, hstops, hstop, hnone, hst, harmed, hkind, hcause, ← hstored.agenda]
  rfl

theorem ctx_of_find (hq : Tab.find s.parts p = some q) (a : Nat) : s.ctx p a = Tab.find q.ctxs a := by rw [State.ctx, part_of_find hq]

theorem ctx_modPart (s : State) (j p a : Nat) {f : Part → Part} (hf : ∀ q, (f q).ctxs = q.ctxs) : (s.modPart j f).ctx p a = s.ctx p a := by
  unfold State.ctx State.part
  rw [find_modPart]
  split
  · cases Tab.find s.parts p with
    | none => rfl
    | some q => exact congrArg (Tab.find · a) (hf q)
  · rfl

theorem faultActions_budget (hq : Tab.find s.parts p = some q) {a k : Nat} {x : Ctx} {h : Halt} {r : StopRec} (hctxs : q.ctxs = [(a, x)])
    (hhalt : x.halt = some h) (hzero : h.h = 0) (hcores : h.cores = [k]) (hst : x.st = .halted) (harmed : x.armed = none) (hstops : x.stops = [(k, r)])
    (hkind : r.kind = 1) (hcore : r.core = k) (hcause : r.trap.cause = 6) (hcount : 0 < x.rcount) (hevents : ∃ e, h.events = [(k, 1, e)])
    (hdue : ∀ d ∈ (s.core k).due, d.halts = false) :
    ∃ t, exec (.faultActionsComplete p) s = .next t ∧ t.core k = { s.core k with budget := x.refill } ∧ (∀ j, j ≠ k → t.core j = s.core j) ∧
      (∃ x', ctxBecomes t p a x' ∧ x'.rcount = x.rcount - 1 ∧ x'.halt = none) ∧ t.agenda = .stationmasterResume p a :: s.agenda := by
  obtain ⟨e, hevents⟩ := hevents
  have hx : s.ctx p a = some x := by rw [ctx_of_find hq, hctxs, Tab.find, if_pos rfl]
  obtain ⟨s1, hstored, hactions⟩ := haltActions_budget hx hhalt hcores hst harmed hstops hkind hcore hcause hcount hevents hdue
  obtain ⟨y, hy, _, _, _, rfl⟩ := hstored.ctx hx
  have hexec : exec (.faultActionsComplete p) s = .next ((s.haltActions p a x).modPart p fun q =>
      q.clearHold s.wtime fun r => r.cause == 6 && q.held && q.causes.contains r) := by
    rw [exec_faultActionsComplete]
    unfold execFaultActionsComplete
    rw [part_of_find hq, hctxs]
    simp [hhalt, hzero]
  rw [hactions] at hexec
  have hctx := ctx_refilled s1 p a k x fun y => { y with halt := none }
  rw [hy] at hctx
  refine ⟨_, hexec, ?_, fun j hj => ?_, ⟨_, Eq.trans ?_ hctx, rfl, rfl⟩, rfl⟩
  · exact (core_setCore_same s1 k _).trans (by rw [hstored.core])
  · exact (core_setCore_other s1 _ hj).trans (hstored.core j)
  · exact ctx_modPart _ p p a fun _ => rfl

/-- A resume of a HALTED context raises no hold: only one of a SAVED context does. -/
theorem acceptResume_halted {a : Nat} {x : Ctx} (hx : s.ctx p a = some x) (hst : x.st = .halted) (P : Nat) :
    ∃ f, s.acceptResume p a P = s.modCtx p a f ∧ ∀ y, (f y).st = .active ∧ (f y).resumeP = some P := by
  have hsaved : ((s.ctx p a).any fun x => x.st == .saved) = false := by simp [hx, hst]
  unfold State.acceptResume
  dsimp only
  split
  · rw [hsaved]
    exact ⟨_, rfl, fun _ => ⟨rfl, rfl⟩⟩
  · exact ⟨_, rfl, fun _ => ⟨rfl, rfl⟩⟩

theorem stationmasterResume_next (hq : Tab.find s.parts p = some q) {a : Nat} {x : Ctx} (hx : Tab.find q.ctxs a = some x) (hst : x.st = .halted)
    (hspoiled : x.spoiled = false) : ∃ t x', exec (.stationmasterResume p a) s = .next t ∧ ctxBecomes t p a x' ∧
      x'.st = .active ∧ x'.resumeP = some (q.stime + 1024) ∧ restKept s t := by
  have hctx : s.ctx p a = some x := (ctx_of_find hq a).trans hx
  have hexec : exec (.stationmasterResume p a) s = .next (s.acceptResume p a (q.stime + 1024)) := by
    rw [exec_stationmasterResume]
    unfold execStationmasterResume State.resumeHalted
    simp [hctx, hst, hspoiled, part_of_find hq]
  obtain ⟨f, haccept, hf⟩ := acceptResume_halted hctx hst (q.stime + 1024)
  rw [haccept] at hexec
  have hresumed := ctx_modCtx s p a f
  rw [hctx] at hresumed
  exact ⟨_, f x, hexec, hresumed, (hf x).1, (hf x).2, restKept_modPart ..⟩

end

/-- Settles O34: each clause is the lemma about its event, and a cause that clears is `clearHold_clears`. -/
theorem holdEvents : Obligations.HoldEvents := by
  unfold Obligations.HoldEvents
  intro p a k w s q hq lastCleared
  refine ⟨fun cause => holdRequest_next hq, holdRequest_locked hq, holdTakesEffect_next hq, holdTakesEffect_early hq, fun hheld => holdResume_next hq hheld,
    debuggerResume_next hq, faultActions_next hq, fun x h r hctxs hhalt hzero hcores hst harmed hstops hkind hcore hcause hcount hevents hdue =>
    faultActions_budget hq hctxs hhalt hzero hcores hst harmed hstops hkind hcore hcause hcount hevents hdue, fun x => stationmasterResume_next hq⟩

end Sys2Proof.Proofs
end

section
/-! PROOFS. Rates, the governor and the time servo (O35). -/
namespace Sys2Proof.Proofs
open Sys2Proof.Machine Sys2Proof.Laws Sys2Proof.Claims

/-! ### The governor -/

section
variable {s : State} {p : Nat} {q : Part}

theorem find_map {α : Type} {t : Tab α} {k : Nat} {a : α} (h : Tab.find t k = some a) (f : Nat → α → α) :
    Tab.find (t.map fun e => (e.1, f e.1 e.2)) k = some (f k a) := by
  induction t with
  | nil => cases h
  | cons e t ih =>
    simp only [Tab.find, List.map_cons] at h ⊢
    split
    · rename_i hk
      rw [if_pos hk] at h
      rw [hk, Option.some.inj h]
    · rename_i hk
      rw [if_neg hk] at h
      exact ih h

/-- A fold over dies changes the table of dies alone. -/
theorem foldl_modDie (f : Nat → Die → Die) (l : List Nat) (s : State) : ∃ ds, l.foldl (fun s d => s.modDie d (f d)) s = { s with dies := ds } := by
  induction l generalizing s with
  | nil => exact ⟨s.dies, rfl⟩
  | cons d l ih =>
    obtain ⟨ds, h⟩ := ih (s.modDie d (f d))
    exact ⟨ds, h⟩

/-- Partition p with the limit that the host driver has set for it, if it has set one. -/
def withLimit (g : GovernorSet) (p : Nat) (q : Part) : Part :=
  { q with limit := ((g.limits.find? fun (l : Nat × Nat) => l.1 == p).map fun (l : Nat × Nat) => l.2).getD q.limit }

/-- Partition p after a window in which it has used its share of `watts`, `limits` being the sum of the limits. -/
def governed (watts : List Nat) (g : GovernorSet) (limits p : Nat) (q : Part) : Part :=
  (withLimit g p q).govern (watts.getD p 0) watts.sum limits (q.dies.any fun d => g.hot.contains d)

/-- At the end of a window the governor acts on every partition by what it has used. -/
theorem governorWindow_end (watts : List Nat) (g : GovernorSet) (hw : s.wtime % 16384 = 0) : ∃ ds limits, exec (.governorWindow watts g) s =
    .next { s with dies := ds, parts := s.parts.map fun e => (e.1, governed watts g limits e.1 e.2) } := by
  have hend : ¬ s.wtime % governorWindow ≠ 0 := not_not_intro hw
  rw [exec_governorWindow]
  unfold execGovernorWindow
  dsimp only
  rw [if_neg hend, List.map_map, ← List.sum_eq_foldl]
  obtain ⟨ds, hds⟩ := foldl_modDie (fun d y => { y with thermal := g.hot.contains d }) (List.range 8) _
  exact ⟨ds, _, congrArg Host.Outcome.next hds⟩

theorem governorWindow_within (watts : List Nat) (g : GovernorSet) (hw : s.wtime % 16384 ≠ 0) :
    exec (.governorWindow watts g) s = .next { s with parts := s.parts.map fun e => (e.1, withLimit g e.1 e.2) } := by
  rw [exec_governorWindow]
  exact congrArg Host.Outcome.next (if_pos hw)

theorem withLimit_none (hot : List Nat) (p : Nat) (q : Part) : withLimit ⟨hot, []⟩ p q = q := rfl

theorem governorWindow_nothing (watts hot : List Nat) (hw : s.wtime % 16384 ≠ 0) : exec (.governorWindow watts ⟨hot, []⟩) s = .next s := by
  rw [governorWindow_within watts _ hw]
  simp only [withLimit_none, List.map_id']

/-- The governor leaves the step in force and the limit. -/
theorem govern_keeps (q : Part) (w total limits : Nat) (hot : Bool) : (q.govern w total limits hot).rate = q.rate ∧ (q.govern w total limits hot).limit = q.limit := by
  unfold Part.govern Part.announce
  dsimp only
  repeat' split
  all_goals exact ⟨rfl, rfl⟩

theorem govern_above {w : Nat} (h : q.limit < w) (total limits : Nat) (hot : Bool) : q.govern w total limits hot =
    if 4 < q.next then { q.announce (q.next - 1) with calm := if 100 * w < 95 * q.limit then q.calm + 1 else 0, overLimit := false }
    else { q with calm := if 100 * w < 95 * q.limit then q.calm + 1 else 0, overLimit := true, powerEvents := q.powerEvents + 1 } := by
  simp [Part.govern, h]

theorem govern_calm {w total : Nat} (htotal : total ≤ 2400) (hw : 100 * w < 95 * q.limit) (hcalm : 3 ≤ q.calm) (hnext : q.next < 16) (limits : Nat) :
    q.govern w total limits false = { q.announce (q.next + 1) with calm := 0, overLimit := false } := by
  have h1 : ¬ q.limit < w := by omega
  have h2 : ¬ Config.packageWatts < total := Nat.not_lt.mpr htotal
  simp [Part.govern, h1, h2, hw, hcalm, hnext]

theorem governorWindow_next (hq : Tab.find s.parts p = some q) (watts : List Nat) : ∃ t q', exec (.governorWindow watts ⟨[], []⟩) s = .next t ∧
    Tab.find t.parts p = some q' ∧ t.mem = s.mem ∧ t.cores = s.cores ∧ q'.rate = q.rate ∧
    (s.wtime % 16384 = 0 → q.limit < watts.getD p 0 → 4 < q.next →
      q'.next = q.next - 1 ∧ (q.held = false → q.pend = none → q'.pend = some (q.stime + 192))) ∧
    (s.wtime % 16384 = 0 → q.limit < watts.getD p 0 → q.next ≤ 4 → q'.next = q.next ∧ q'.overLimit = true ∧ q'.powerEvents = q.powerEvents + 1) ∧
    (s.wtime % 16384 = 0 → watts.sum ≤ 2400 → 100 * watts.getD p 0 < 95 * q.limit → 3 ≤ q.calm → q.next < 16 → q'.next = q.next + 1 ∧ q'.calm = 0) := by
  by_cases hw : s.wtime % 16384 = 0
  · obtain ⟨ds, limits, hexec⟩ := governorWindow_end (s := s) watts ⟨[], []⟩ hw
    refine ⟨_, _, hexec, find_map hq (governed watts ⟨[], []⟩ limits), rfl, rfl, (govern_keeps ..).1, fun _ hover h4 => ?_, fun _ hover h4 => ?_, fun _ hsum hunder hcalm h16 => ?_⟩
    · rw [governed, withLimit_none, govern_above hover, if_pos h4]
      refine ⟨rfl, fun hheld hpend => ?_⟩
      simp [Part.announce, hheld, hpend, Config.holdLead]
    · rw [governed, withLimit_none, govern_above hover, if_neg (Nat.not_lt.mpr h4)]
      exact ⟨rfl, rfl, rfl⟩
    · have hhot : (q.dies.any fun d => List.contains [] d) = false := by simp
      rw [governed, withLimit_none, hhot, govern_calm hsum hunder hcalm h16]
      exact ⟨rfl, rfl⟩
  · exact ⟨s, q, governorWindow_nothing watts [] hw, hq, rfl, rfl, rfl, fun h => absurd h hw, fun h => absurd h hw, fun h => absurd h hw⟩

theorem governorWindow_limit (hq : Tab.find s.parts p = some q) (watts : List Nat) (L : Nat) :
    ∃ t q', exec (.governorWindow watts ⟨[], [(p, L)]⟩) s = .next t ∧ Tab.find t.parts p = some q' ∧ q'.limit = L ∧ t.mem = s.mem ∧ t.cores = s.cores := by
  have hlimit : (withLimit ⟨[], [(p, L)]⟩ p q).limit = L := by simp [withLimit]
  by_cases hw : s.wtime % 16384 = 0
  · obtain ⟨ds, limits, hexec⟩ := governorWindow_end (s := s) watts ⟨[], [(p, L)]⟩ hw
    exact ⟨_, _, hexec, find_map hq (governed watts ⟨[], [(p, L)]⟩ limits), (govern_keeps ..).2.trans hlimit, rfl, rfl⟩
  · exact ⟨_, _, governorWindow_within watts _ hw, find_map hq (withLimit _), hlimit, rfl, rfl⟩

theorem rateChangeEffect_next (hq : Tab.find s.parts p = some q) {a : Nat} (hheld : q.held = false) (hpend : q.pend = some a) (ha : a ≤ q.stime) :
    ∃ t, exec (.rateChangeEffect p) s = .next t ∧
      partBecomes s t p { q with rate := q.next, pend := none, t0 := q.stime, w0 := s.wtime } ∧ restKept s t := by
  refine ⟨s.modPart p fun q => { q with rate := q.next, pend := none, t0 := q.stime, w0 := s.wtime }, if_pos ?_, partBecomes_modPart hq _, restKept_modPart ..⟩
  rw [part_of_find hq]
  simp [hheld, hpend, ha]

end

/-! ### The servo -/

/-- The first of an order that is present is the choice. -/
theorem choice_of_first {v : Servo} {a b : List Nat} {n : Nat} (horder : v.order = a ++ n :: b) (hn : n ∈ v.present) (ha : ∀ x ∈ a, x ∉ v.present) :
    v.choice = n := by
  have hnone : a.find? v.present.contains = none := List.find?_eq_none.mpr fun x hx => by simpa using ha x hx
  have hhead : (n :: b).find? v.present.contains = some n := List.find?_cons_of_pos (by simpa using hn)
  rw [Servo.choice, horder, List.find?_append, hnone, hhead]
  rfl

theorem choice_of_none {v : Servo} (h : ∀ x ∈ v.order, x ∉ v.present) : v.choice = 0 := by
  have hnone : v.order.find? v.present.contains = none := List.find?_eq_none.mpr fun x hx => by simpa using h x hx
  rw [Servo.choice, hnone]
  rfl

theorem follow_of_none {v : Servo} (h : v.choice = 0) : v.follow = v := if_pos h

theorem follow_begins {v : Servo} {n : Nat} (h : v.choice = n) (hn : n ≠ 0) (hst : v.st = .free ∨ v.st = .holdover) :
    v.follow = { v with st := .acquiring, src := n, good := 0 } := by
  unfold Servo.follow
  dsimp only
  rw [h, if_neg hn]
  rcases hst with hst | hst
  · rw [hst]
  · rw [hst]

theorem follow_stays {v : Servo} (hst : v.st = .locked) (hn : v.choice = v.src) : v.follow = v := by
  unfold Servo.follow
  dsimp only
  rw [hn, hst]
  split
  · rfl
  · exact if_pos rfl

section
variable {s : State}

theorem servoSourceSeen_next {src : Nat} {valid a b : List Nat} (horder : s.servo.order = a ++ src :: b) (hsrc : src ≠ 0) (hvalid : src ∈ valid)
    (ha : ∀ x ∈ a, x ∉ valid ∧ x ≠ s.servo.src) (hst : s.servo.st = .free ∨ s.servo.st = .holdover) :
    exec (.servoSourceSeen valid) s = .next { s with servo := { s.servo with
      st := .acquiring, src := src, good := 0
      present := valid ++ s.servo.present.filter (fun x => x == s.servo.src && !valid.contains x) } } := by
  have hchoice : Servo.choice { s.servo with present := s.servo.sees valid } = src := by
    refine choice_of_first horder (List.mem_append_left _ hvalid) fun x hx hmem => ?_
    obtain ⟨hnot, hne⟩ := ha x hx
    rcases List.mem_append.mp hmem with h | h
    · exact hnot h
    · have hb := (List.mem_filter.mp h).2
      simp [hne] at hb
  rw [exec_servoSourceSeen]
  unfold execServoSourceSeen
  rw [follow_begins hchoice hsrc hst]
  rfl

theorem servoMeasurement_locks {off : Int} (hst : s.servo.st = .acquiring) (hlo : -8 < off) (hhi : off < 8) (hgood : s.servo.good = 15) :
    ∃ t, exec (.servoMeasurement off) s = .next t ∧ t.servo.st = .locked ∧ t.servo.offs = off ∧ (s.everPart = true → t.wtime = s.wtime) ∧
      (s.everPart = false → s.servo.stepped = false → 0 ≤ off → t.wtime = s.wtime + off.toNat) ∧ t.parts = s.parts ∧ t.mem = s.mem := by
  have hoffs : max (-32767) (min 32767 off) = off := by omega
  rw [exec_servoMeasurement]
  unfold execServoMeasurement
  simp only [hst, hlo, hhi, hgood, hoffs, and_self, if_true, Nat.reduceAdd, Nat.le_refl]
  split
  · rename_i hstep
    obtain ⟨-, hever, -⟩ := hstep
    exact ⟨_, rfl, rfl, rfl, fun h => absurd (hever.symm.trans h) Bool.false_ne_true, fun _ _ _ => rfl, rfl, rfl⟩
  · rename_i hstep
    exact ⟨_, rfl, rfl, rfl, fun _ => rfl, fun hever hstepped hoff => absurd ⟨hstepped, hever, hoff⟩ hstep, rfl, rfl⟩

theorem servoMeasurement_off {off : Int} (hst : s.servo.st = .acquiring) (hoff : off ≤ -8 ∨ 8 ≤ off) : ∃ t, exec (.servoMeasurement off) s = .next t ∧
    t.servo.st = .acquiring ∧ t.servo.good = 0 ∧ t.wtime = s.wtime ∧ t.mem = s.mem := by
  have hnot : ¬ (-8 < off ∧ off < 8) := by omega
  rw [exec_servoMeasurement]
  unfold execServoMeasurement
  simp only [hst, hnot, if_false, Nat.reduceLeDiff]
  exact ⟨_, rfl, rfl, rfl, rfl, rfl⟩

/-- A LOCKED servo that loses its source is in HOLDOVER, and goes on with the source that it then uses. -/
theorem servoSourceLost_locked (hst : s.servo.st = .locked) {v : Servo}
    (hv : Servo.follow { s.servo with st := .holdover, good := 0, present := s.servo.present.filter fun x => x != s.servo.src } = v) :
    exec .servoSourceLost s = .next { s with servo := v } := by
  rw [exec_servoSourceLost, ← hv]
  unfold execServoSourceLost
  simp only [hst]

theorem servoSourceSelect_none : ∃ t, exec (.servoSourceSelect []) s = .next t ∧ t.servo.st = .free ∧ t.servo.fadj = 0 ∧ t.servo.order = [] ∧
    restKept { s with servo := t.servo } t := ⟨_, rfl, rfl, rfl, rfl, rfl, rfl, rfl, rfl, rfl, rfl⟩

theorem choice_of_head {v : Servo} {n : Nat} {l : List Nat} (horder : v.order = n :: l) (hn : n ∈ v.present) : v.choice = n :=
  choice_of_first (a := []) horder hn fun _ h => nomatch h

/-- An order that keeps the source in use is followed. -/
theorem servoSourceSelect_follows {src : Nat} {l : List Nat} (hst : s.servo.st = .free ∨ s.servo.st = .locked ∧ s.servo.src = src) {v : Servo}
    (hv : Servo.follow { s.servo with order := src :: l } = v) : exec (.servoSourceSelect (src :: l)) s = .next { s with servo := v } := by
  rw [exec_servoSourceSelect, ← hv]
  unfold execServoSourceSelect
  rcases hst with hst | ⟨hst, hsrc⟩
  · simp [hst]
  · simp [hst, hsrc]

theorem servoSourceSelect_same {src : Nat} {l : List Nat} (hmem : src ∈ s.servo.present) (hst : s.servo.st = .locked) (hsrc : s.servo.src = src) :
    exec (.servoSourceSelect (src :: l)) s = .next { s with servo := { s.servo with order := src :: l } } :=
  servoSourceSelect_follows (.inr ⟨hst, hsrc⟩) <| follow_stays hst <| hsrc.symm ▸ choice_of_head rfl hmem

theorem servoSourceSelect_free {src : Nat} {l : List Nat} (hne : src ≠ 0) (hmem : src ∈ s.servo.present) (hst : s.servo.st = .free) :
    exec (.servoSourceSelect (src :: l)) s = .next { s with servo := { s.servo with order := src :: l, st := .acquiring, src := src, good := 0 } } :=
  servoSourceSelect_follows (.inl hst) <| follow_begins (choice_of_head rfl hmem) hne (.inl hst)

end

/-- Settles O35: each clause is the lemma about its event; where the servo changes its source, what `Servo.follow` makes of its choice. -/
theorem rateAndServoEvents : Obligations.RateAndServoEvents := by
  unfold Obligations.RateAndServoEvents
  intro p s q hq
  refine ⟨fun a => rateChangeEffect_next hq, governorWindow_next hq, governorWindow_nothing, governorWindow_limit hq,
    fun src valid a b => servoSourceSeen_next, fun off => servoMeasurement_locks, fun off => servoMeasurement_off, fun hst => ⟨fun hnone => ?_, ?_⟩,
    servoSourceSelect_none, fun src l hne hmem => ⟨servoSourceSelect_same hmem, servoSourceSelect_free hne hmem⟩⟩
  · exact servoSourceLost_locked hst (follow_of_none (choice_of_none hnone))
  · intro a n b horder hmem hne ha
    exact servoSourceLost_locked hst (follow_begins (choice_of_first horder hmem ha) hne (.inr rfl))

end Sys2Proof.Proofs
end

section
/-! PROOFS. What a teardown, a halt or a fault found late changes of the partitions (R225, R243, R252): their contexts, launches, queues, claims, graphs, holds and
page commands, and nothing else; a partition without claims, graphs and running queues stays so. -/
namespace Sys2Proof.Proofs
open Sys2Proof.Machine Sys2Proof.Laws Sys2Proof.Claims

/-- No claim, no graph, and every queue OFF. -/
def QueuesOff (q : Part) : Prop := q.claims = [] ∧ q.graphs = [] ∧ ∀ e ∈ q.queues, e.2.st = .off

/-- What a teardown may change of a partition. -/
def PartTorn (q r : Part) : Prop :=
  (∃ ctxs launches queues claims graphs unread migration pgcmd reqs causes wdrn resumeAt, r = { q with
    ctxs := ctxs, launches := launches, queues := queues, claims := claims, graphs := graphs, unread := unread, migration := migration, pgcmd := pgcmd,
    reqs := reqs, causes := causes, holdWdrn := wdrn, resumeAt := resumeAt }) ∧
  (QueuesOff q → QueuesOff r)

theorem PartTorn.refl (q : Part) : PartTorn q q := ⟨⟨_, _, _, _, _, _, _, _, _, _, _, _, rfl⟩, id⟩
theorem PartTorn.trans (q r z : Part) : PartTorn q r → PartTorn r z → PartTorn q z := by
  rintro ⟨⟨_, _, _, _, _, _, _, _, _, _, _, _, rfl⟩, h⟩ ⟨⟨_, _, _, _, _, _, _, _, _, _, _, _, rfl⟩, h'⟩
  exact ⟨⟨_, _, _, _, _, _, _, _, _, _, _, _, rfl⟩, h' ∘ h⟩

/-- The partitions of t are those of s but for what teardowns change. -/
def Torn (s t : State) : Prop := Mapped PartTorn s.parts t.parts

section
variable {s0 s t : State}

theorem Torn.refl (s : State) : Torn s s := mapped_refl PartTorn.refl _
theorem Torn.stored (h : Torn s0 s) (hst : Stored s t) : Torn s0 t := by
  refine Mapped.trans PartTorn.trans h (hst.parts.imp ?_)
  rintro q r ⟨_, _, rfl, -⟩
  exact ⟨⟨_, _, _, _, _, _, _, _, _, _, _, _, rfl⟩, id⟩
theorem Torn.modPart (h : Torn s0 s) {p : Nat} {f : Part → Part} (hf : ∀ q, PartTorn q (f q)) : Torn s0 (s.modPart p f) :=
  Mapped.trans PartTorn.trans h (mapped_upd PartTorn.refl hf _)
theorem Torn.modCtx (h : Torn s0 s) (p a : Nat) (f : Ctx → Ctx) : Torn s0 (s.modCtx p a f) :=
  h.modPart fun _ => ⟨⟨_, _, _, _, _, _, _, _, _, _, _, _, rfl⟩, id⟩
theorem Torn.ite {c : Prop} [Decidable c] (hs : Torn s0 s) (ht : Torn s0 t) : Torn s0 (if c then s else t) := by
  split
  · exact hs
  · exact ht
theorem Torn.foldl {α : Type} (h : Torn s0 s) {f : State → α → State} {l : List α} (hf : ∀ t x, Torn s0 t → Torn s0 (f t x)) : Torn s0 (l.foldl f s) := by
  induction l generalizing s with
  | nil => exact h
  | cons x l ih => exact ih (hf s x h)

theorem Torn.later (h : Torn s0 s) (code : Nat) (e : Ev) : Torn s0 (s.later code e) := h
theorem Torn.setCore (h : Torn s0 s) (k : Nat) (c : Core) : Torn s0 (s.setCore k c) := h
theorem Torn.modCopy (h : Torn s0 s) (k st id : Nat) (f : Copy → Copy) : Torn s0 (s.modCopy k st id f) := h
theorem Torn.raiseHoldAt (h : Torn s0 s) (p cause tag tick : Nat) : Torn s0 (s.raiseHoldAt p cause tag tick) :=
  h.modPart fun _ => ⟨⟨_, _, _, _, _, _, _, _, _, _, _, _, rfl⟩, id⟩
theorem Torn.haltAt (h : Torn s0 s) (k kind cause e tick : Nat) : Torn s0 (s.haltAt k kind cause e tick) := (h.raiseHoldAt ..).modCtx ..
theorem Torn.clearHold (h : Torn s0 s) (p cause tag : Nat) : Torn s0 (s.clearHold p cause tag) :=
  h.modPart fun _ => ⟨⟨_, _, _, _, _, _, _, _, _, _, _, _, rfl⟩, id⟩
theorem Torn.unreadBy (h : Torn s0 s) (p asid base log2n index : Nat) (mets : List (Tab Bool)) : Torn s0 (s.unreadBy p asid base log2n index mets) :=
  h.modPart fun _ => ⟨⟨_, _, _, _, _, _, _, _, _, _, _, _, rfl⟩, id⟩

/-- A change of queues that leaves OFF those that are OFF. -/
theorem partTorn_queues {q : Part} {g : Nat × Queue → Nat × Queue} (hg : ∀ e, e.2.st = .off → (g e).2.st = .off) :
    PartTorn q { q with queues := q.queues.map g } := by
  refine ⟨⟨_, _, _, _, _, _, _, _, _, _, _, _, rfl⟩, fun ⟨hclaims, hgraphs, hoff⟩ => ⟨hclaims, hgraphs, fun e he => ?_⟩⟩
  obtain ⟨z, hz, rfl⟩ := List.mem_map.mp he
  exact hg z (hoff z hz)

theorem Torn.complete (h : Torn s0 s) (p asid n base log2n index tag status start : Nat) :
    Torn s0 (s.complete p asid n base log2n index tag status start) := by
  refine (h.stored (stored_devStore ..)).ite (h.modPart fun q => partTorn_queues fun e he => ?_)
  split
  · dsimp only
    rw [he, if_neg (by decide)]
    exact he
  · exact he

/-- A queue that a teardown frees stays OFF when it is. -/
theorem freed_off {u : Queue} (h : u.st = .off) : u.freed.st = .off := by
  unfold Queue.freed
  rw [h]

theorem Torn.teardown (h : Torn s0 s) (p a : Nat) : Torn s0 (s.teardown p a) := by
  unfold State.teardown
  split
  · exact h
  · refine h.ite ?_
    extract_lets -underBinder +onlyGivenNames _ _ _ _ void freed s1
    have h1 : Torn s0 s1 := by
      refine ((Torn.foldl (h.foldl fun _ _ ht => ((ht.complete ..).unreadBy ..).ite ht) fun _ _ ht => (ht.complete ..).unreadBy ..).clearHold ..).modPart ?_
      refine fun q => ⟨⟨_, _, _, _, _, _, _, _, _, _, _, _, rfl⟩, fun ⟨hclaims, hgraphs, hoff⟩ => ⟨?_, ?_, fun e he => ?_⟩⟩
      · simp [hclaims]
      · simp [hgraphs]
      · obtain ⟨z, hz, rfl⟩ := List.mem_map.mp he
        split
        · rfl
        · split
          · exact freed_off (hoff z hz)
          · exact hoff z hz
    clear_value s1
    extract_lets -underBinder +onlyGivenNames s2
    have h2 : Torn s0 s2 := h1.foldl fun _ _ ht => (ht.later ..).ite ht
    clear_value s2
    dsimp only
    split
    · exact h2.modCtx p a _
    · exact (h2.modCtx p a _).haltAt ..

theorem Torn.laterFault (h : Torn s0 s) (k e : Nat) (d : DueTrap) : Torn s0 (s.laterFault k e d) :=
  Torn.ite (((h.stored (stored_appendEvent ..)).teardown ..).ite (h.stored (stored_appendEvent ..))) <|
    (h.setCore ..).haltAt ..

theorem Torn.copyFaultAt (h : Torn s0 s) (k st id b cause info e : Nat) (runs : Bool) : Torn s0 (s.copyFaultAt k st id b cause info e runs) := by
  unfold State.copyFaultAt
  split
  · exact h
  · exact (h.laterFault ..).ite <| (h.modCopy ..).ite <| ((h.modCopy ..).modCopy ..).laterFault ..

theorem Torn.refuseOut (h : Torn s0 s) (o : OutBeat) : Torn s0 (s.refuseOut o) := h.copyFaultAt ..

end

theorem sendControl_parts (s : State) (n kind p i : Nat) (body : List Byte) : (s.sendControl n kind p i body).parts = s.parts := by
  unfold State.sendControl
  dsimp only
  split
  · rfl
  · rfl
  · rfl

theorem countDisc_parts (s : State) (p port n : Nat) : (s.countDisc p port n).parts = s.parts := by
  unfold State.countDisc
  split
  · rfl
  · rfl

/-! ### One partition through a teardown -/

/-- Partition p exists and has C. -/
def PartHas (p : Nat) (C : Part → Prop) (s : State) : Prop := ∃ q, Tab.find s.parts p = some q ∧ C q

section
variable {p : Nat} {C D : Part → Prop} {s t : State}

theorem PartHas.torn (h : PartHas p C s) (hst : Torn s t) (hC : ∀ q r, PartTorn q r → C q → C r) : PartHas p C t := by
  obtain ⟨q, hq, hc⟩ := h
  obtain ⟨r, hr, hqr⟩ := Mapped.find hst hq
  exact ⟨r, hr, hC q r hqr hc⟩
theorem PartHas.modPart (h : PartHas p C s) {f : Part → Part} (hf : ∀ q, C q → D (f q)) : PartHas p D (s.modPart p f) := by
  obtain ⟨q, hq, hc⟩ := h
  exact ⟨f q, find_modPart_of_find hq f, hf q hc⟩
theorem PartHas.of_parts (h : PartHas p C s) (e : t.parts = s.parts) : PartHas p C t := by
  obtain ⟨q, hq, hc⟩ := h
  exact ⟨q, e ▸ hq, hc⟩
theorem PartHas.foldl {α : Type} {f : State → α → State} {l : List α} (h : PartHas p C s) (hf : ∀ t x, PartHas p C t → PartHas p C (f t x)) :
    PartHas p C (l.foldl f s) := by
  induction l generalizing s with
  | nil => exact h
  | cons x l ih => exact ih (hf s x h)

end

/-- A function that has been reset (R384): its sessions, claims and queues have ended, and the first n peer entries have FAILED with WHY 5. -/
structure Shut (destroying : Bool) (n : Nat) (q : Part) : Prop where
  resetting : q.resetting = true
  destroying : q.destroying = destroying
  tdisp : q.tdisp = .configUnlocked
  ide : q.ide = false
  tenantid : q.tenantid = 0
  unlocked : q.unlocked = false
  queues : QueuesOff q
  peers : ∀ i, 1 ≤ i → i ≤ n → ((Tab.find q.peers i).getD Peer.reset).st = 4 ∧ ((Tab.find q.peers i).getD Peer.reset).why = 5

section
variable {p n : Nat} {d : Bool} {s : State}

theorem Shut.torn (q r : Part) (hqr : PartTorn q r) (h : Shut d n q) : Shut d n r := by
  obtain ⟨⟨_, _, _, _, _, _, _, _, _, _, _, _, rfl⟩, hqueues⟩ := hqr
  exact { h with queues := hqueues h.queues }

theorem partHas_unawait (h : PartHas p (Shut d n) s) (gone : Nat → Bool) : PartHas p (Shut d n) (s.unawait p gone) :=
  (h.torn ((Torn.refl s).foldl fun _ _ ht => ht.clearHold ..) Shut.torn).modPart fun _ hq => { hq with }

/-- Dropping the next peer entry makes one more FAILED, and leaves those before it so. -/
theorem partHas_dropPeer (h : PartHas p (Shut d n) s) : PartHas p (Shut d (n + 1)) (s.dropPeer p (n + 1) 4 5) := by
  unfold State.dropPeer
  extract_lets -underBinder +onlyGivenNames _ _ _ s1 s2
  have h1 : PartHas p (Shut d (n + 1)) s1 := by
    refine PartHas.modPart (C := Shut d n) (PartHas.modPart (C := Shut d n) h fun _ hq => ?_) fun q hq => { hq with peers := fun i h1 hi => ?_ }
    · exact { hq with }
    by_cases he : i = n + 1
    · subst he
      rw [find_put_same]
      exact ⟨rfl, rfl⟩
    · rw [find_put_other _ _ he]
      exact hq.peers i h1 (by omega)
  have h2 : PartHas p (Shut d (n + 1)) s2 := partHas_unawait (h1.of_parts (countDisc_parts ..)) _
  clear_value s2
  refine h2.torn (Torn.foldl ?_ fun _ _ ht => ht.refuseOut _) Shut.torn
  exact Torn.refl s2

theorem partHas_dropPeers (h : PartHas p (Shut d 0) s) (n : Nat) :
    PartHas p (Shut d n) ((List.range n).foldl (fun s i => s.dropPeer p (i + 1) 4 5) s) := by
  induction n with
  | zero => exact h
  | succ n ih =>
    rw [List.range_succ, List.foldl_append]
    exact partHas_dropPeer ih

theorem partHas_resetFunction {q : Part} (hq : Tab.find s.parts p = some q) :
    PartHas p (fun r => Shut q.destroying 30 r ∧ r.inbound = []) (s.resetFunction p) := by
  unfold State.resetFunction
  rw [withPart_of_find hq]
  extract_lets -underBinder +onlyGivenNames s0 s1 s2 tell s3 s4
  have h0 : PartHas p (fun r => r.resetting = true ∧ r.destroying = q.destroying) s0 :=
    ⟨_, find_modPart_of_find hq _, rfl, rfl⟩
  have h1 : PartHas p (fun r => r.resetting = true ∧ r.destroying = q.destroying) s1 := by
    refine h0.torn ((Torn.refl s0).foldl fun _ _ ht => ht.teardown ..) ?_
    rintro r z ⟨⟨_, _, _, _, _, _, _, _, _, _, _, _, rfl⟩, -⟩ hr
    exact hr
  have h2 : PartHas p (Shut q.destroying 0) s2 := h1.modPart fun r hr => {
    resetting := hr.1, destroying := hr.2, tdisp := rfl, ide := rfl, tenantid := rfl, unlocked := rfl
    queues := ⟨rfl, rfl, fun e he => by
      obtain ⟨z, -, rfl⟩ := List.mem_map.mp he
      rfl⟩
    peers := fun i h1 h0 => absurd h1 (by omega) }
  have h3 : PartHas p (Shut q.destroying 0) s3 := by
    refine h2.foldl fun t e ht => ?_
    unfold tell
    split
    · exact ht.of_parts (sendControl_parts ..)
    · exact ht
  have h4 : PartHas p (Shut q.destroying 30) s4 := partHas_dropPeers h3 30
  clear_value s4
  exact h4.modPart (f := fun q => { q with inbound := [] }) fun _ hr => ⟨{ hr with }, rfl⟩

end

end Sys2Proof.Proofs
end

section
/-! PROOFS. Partitions, the interface of the VF, host DMA and debug (O48). -/
namespace Sys2Proof.Proofs
open Sys2Proof.Machine Sys2Proof.Laws Sys2Proof.Claims

/-! ### Creation -/

/-- The least of some numbers is one of them. -/
theorem foldl_least_mem {l : List Nat} {o : Option Nat} {m : Nat}
    (h : l.foldl (fun best a => match best with | none => some a | some b => some (min a b)) o = some m) : o = some m ∨ m ∈ l := by
  induction l generalizing o with
  | nil => exact .inl h
  | cons a l ih =>
    rcases ih h with h | h
    · cases o with
      | none => exact .inr (List.mem_cons.mpr (.inl (Option.some.inj h).symm))
      | some b =>
        rcases min_choice a b with hab | hab
        · exact .inr (List.mem_cons.mpr (.inl ((Option.some.inj h).symm.trans hab)))
        · exact .inl (congrArg some (hab.symm.trans (Option.some.inj h)))
    · exact .inr (List.mem_cons.mpr (.inr h))

theorem poolBase_fits {s : State} {n base : Nat} (h : s.poolBase n = some base) : base + n ≤ 4096 := by
  rcases foldl_least_mem h with h | h
  · cases h
  · have hfits := (List.mem_filter.mp h).2
    simp only [Bool.and_eq_true, decide_eq_true_eq] at hfits
    exact hfits.2

theorem partitionCreate_next {s : State} {p n base : Nat} {dies : List Nat} (hn : 1 ≤ n) (hbase : s.poolBase n = some base) (hready : s.bootStep = 255)
    (hrec : s.recovery = false) (hservo : s.servo.st = .locked ∨ s.servo.order = []) (hp : p < 8) (hnone : Tab.find s.parts p = none)
    (hlen : dies.length = 1 ∨ dies.length = 2 ∨ dies.length = 4 ∨ dies.length = 8) (hdup : dies.eraseDups = dies)
    (hfree : ∀ d ∈ dies, d < 8 ∧ (s.die d).leftOut = false ∧ ∀ e ∈ s.parts, d ∉ e.2.dies) :
    ∃ t q', exec (.partitionCreate p ⟨dies, n⟩) s = .next t ∧ partBecomes s t p q' ∧ q'.pool0 = base ∧ q'.poolN = n ∧ base + n ≤ 4096 ∧
      q'.dies = dies ∧ q'.stime = 0 ∧ q'.rate = 16 ∧ q'.w0 = s.wtime ∧ q'.limit = 300 * dies.length ∧ q'.ctxs = [] ∧ q'.gen = 1 ∧
      t.agenda = .partitionReset p :: s.agenda ∧ restKept s t := by
  have hdies : (dies.all fun d => decide (d < 8) && !(s.die d).leftOut && s.parts.all fun e => !e.2.dies.contains d) = true := by
    refine List.all_eq_true.mpr fun d hd => ?_
    obtain ⟨h8, hout, hothers⟩ := hfree d hd
    simpa [h8, hout] using fun a b hab => hothers (a, b) hab
  have hmay : s.mayCreate p dies = true := by
    simp only [State.mayCreate, hdies, hready, hrec, hp, hnone, hdup]
    simpa using ⟨hservo, hlen⟩
  have hchosen : (if s.mayCreate p dies = true ∧ 1 ≤ n then s.poolBase n else none) = some base := (if_pos ⟨hmay, hn⟩).trans hbase
  rw [exec_partitionCreate]
  unfold execPartitionCreate
  dsimp only
  rw [hchosen]
  exact ⟨_, _, rfl, ⟨find_put_same .., fun j hj => find_put_other _ _ hj⟩, rfl, rfl, poolBase_fits hbase, rfl, rfl, rfl, rfl, rfl, rfl, rfl, rfl,
    rfl, rfl, rfl, rfl, rfl, rfl⟩

section
variable {s : State} {p : Nat} {q : Part}

/-! ### Resets, drains and the interface -/

/-- What a reset of its function leaves of partition p. -/
def Cleared (p : Nat) (destroying : Bool) (t : State) : Prop := ∃ q', Tab.find t.parts p = some q' ∧ q'.resetting = true ∧
  q'.destroying = destroying ∧ q'.tdisp = .configUnlocked ∧ q'.ide = false ∧ q'.tenantid = 0 ∧ q'.unlocked = false ∧ q'.claims = [] ∧
  q'.graphs = [] ∧ q'.inbound = [] ∧ (∀ e ∈ q'.queues, e.2.st = .off) ∧ ∀ i, 1 ≤ i → i ≤ 30 → (t.peer p i).st = 4 ∧ (t.peer p i).why = 5

theorem cleared_of_shut {t : State} {d : Bool} (h : PartHas p (fun r => Shut d 30 r ∧ r.inbound = []) t) : Cleared p d t := by
  obtain ⟨r, hr, hshut, hin⟩ := h
  obtain ⟨hclaims, hgraphs, hqueues⟩ := hshut.queues
  refine ⟨r, hr, hshut.resetting, hshut.destroying, hshut.tdisp, hshut.ide, hshut.tenantid, hshut.unlocked, hclaims, hgraphs, hin, hqueues, ?_⟩
  unfold State.peer
  rw [part_of_find hr]
  exact hshut.peers

theorem functionLevelReset_next (hq : Tab.find s.parts p = some q) : ∃ t, exec (.functionLevelReset p) s = .next t ∧ Cleared p q.destroying t :=
  ⟨_, rfl, cleared_of_shut (partHas_resetFunction hq)⟩

theorem partitionDestroy_next (hq : Tab.find s.parts p = some q) : ∃ t, exec (.partitionDestroy p) s = .next t ∧ Cleared p true t :=
  ⟨_, rfl, cleared_of_shut ((partHas_resetFunction hq).modPart fun _ hr => ⟨{ hr.1 with destroying := rfl }, hr.2⟩)⟩

theorem dieDrain_next (hq : Tab.find s.parts p = some q) (d : Nat) (on : Bool) : ∃ t q', exec (.dieDrain p d on) s = .next t ∧ partBecomes s t p q' ∧
    restKept s t ∧ ∀ j, j ∈ q'.draining ↔ if j = d then on = true else j ∈ q.draining := by
  refine ⟨_, _, rfl, partBecomes_modPart hq _, restKept_modPart .., fun j => ?_⟩
  cases on
  · by_cases h : j = d
    · simp [h]
    · simp [h]
  · by_cases h : j = d
    · simp [h]
    · simp [h]

theorem tdispMessage_of_find (hq : Tab.find s.parts p = some q) (m : Nat) : exec (.tdispMessage p m) s = .next
    (if m = 0x83 ∧ q.tdisp = .configUnlocked then s.modPart p fun q => { q with tdisp := .configLocked, ide := s.sessionOpen p }
    else if m = 0x86 ∧ q.tdisp = .configLocked then s.modPart p fun q => { q with tdisp := .run }
    else if m = 0x87 then s.modPart p fun q => { q with tdisp := .configUnlocked, ide := false }
    else s) := congrArg Host.Outcome.next (withPart_of_find hq _)

/-- A change of partition p alone. -/
theorem modPart_next (hq : Tab.find s.parts p = some q) {i : Instr} {f : Part → Part} (h : exec i s = .next (s.modPart p f)) :
    ∃ t, exec i s = .next t ∧ restKept s t ∧ partBecomes s t p (f q) :=
  ⟨_, h, restKept_modPart .., partBecomes_modPart hq f⟩

theorem tdispMessage_lock (hq : Tab.find s.parts p = some q) (h : q.tdisp = .configUnlocked) : ∃ t, exec (.tdispMessage p 0x83) s = .next t ∧
    restKept s t ∧ partBecomes s t p { q with tdisp := .configLocked, ide := s.sessionOpen p } :=
  modPart_next hq <| (tdispMessage_of_find hq 0x83).trans <| congrArg _ <| if_pos ⟨rfl, h⟩

theorem tdispMessage_start (hq : Tab.find s.parts p = some q) (h : q.tdisp = .configLocked) : ∃ t, exec (.tdispMessage p 0x86) s = .next t ∧
    restKept s t ∧ partBecomes s t p { q with tdisp := .run } :=
  modPart_next hq <| (tdispMessage_of_find hq 0x86).trans <| congrArg _ <| (if_neg fun h => absurd h.1 (by decide)).trans <| if_pos ⟨rfl, h⟩

theorem tdispMessage_stop (hq : Tab.find s.parts p = some q) : ∃ t, exec (.tdispMessage p 0x87) s = .next t ∧
    restKept s t ∧ partBecomes s t p { q with tdisp := .configUnlocked, ide := false } :=
  modPart_next hq <| (tdispMessage_of_find hq 0x87).trans <| congrArg _ <| (if_neg fun h => absurd h.1 (by decide)).trans <|
    (if_neg fun h => absurd h.1 (by decide)).trans <| if_pos rfl

theorem tdispMessage_other (hq : Tab.find s.parts p = some q) {m : Nat} (h1 : m ≠ 0x83) (h2 : m ≠ 0x86) (h3 : m ≠ 0x87) :
    exec (.tdispMessage p m) s = .next s := by simp [tdispMessage_of_find hq, h1, h2, h3]

theorem ideCheckFail_of_find (hq : Tab.find s.parts p = some q) : exec (.ideCheckFail p) s = .next
    (if q.ide then s.modPart p fun q => { q with tdisp := .error, ide := false } else s) := congrArg Host.Outcome.next (withPart_of_find hq _)

theorem ideCheckFail_next (hq : Tab.find s.parts p = some q) (h : q.ide = true) : ∃ t, exec (.ideCheckFail p) s = .next t ∧
    restKept s t ∧ partBecomes s t p { q with tdisp := .error, ide := false } :=
  modPart_next hq <| (ideCheckFail_of_find hq).trans <| congrArg _ <| if_pos h

/-! ### TENANTID and debug -/

theorem withVf_of_find (hq : Tab.find s.parts p = some q) (f : Part → State) :
    withVf s p f = if !q.ide then s.countHref p else if q.tdisp = .run then f q else s := withPart_of_find hq _

theorem tenantidWrite_of_find (hq : Tab.find s.parts p = some q) (v : Nat) : exec (.tenantidWrite p v) s = .next
    (if !q.ide then s.countHref p else if q.tdisp = .run then
      if q.tenantSet then s else s.modPart p fun q => { q with tenantid := v % 2 ^ 384, tenantSet := true }
    else s) := congrArg Host.Outcome.next (withVf_of_find hq _)

theorem tenantidWrite_next (hq : Tab.find s.parts p = some q) (v : Nat) (hrun : q.tdisp = .run) (hide : q.ide = true) (hset : q.tenantSet = false) :
    ∃ t, exec (.tenantidWrite p v) s = .next t ∧ restKept s t ∧ partBecomes s t p { q with tenantid := v % 2 ^ 384, tenantSet := true } :=
  modPart_next hq <| (tenantidWrite_of_find hq v).trans <| congrArg _ <| (if_neg (by simp [hide])).trans <| (if_pos hrun).trans <|
    if_neg (by simp [hset])

theorem tenantidWrite_kept (hq : Tab.find s.parts p = some q) (v : Nat) (hide : q.ide = true) (h : q.tenantSet = true ∨ q.tdisp ≠ .run) :
    exec (.tenantidWrite p v) s = .next s := by
  rw [tenantidWrite_of_find hq, hide]
  rcases h with h | h
  · simp [h]
  · simp [h]

theorem tenantidWrite_refused (hq : Tab.find s.parts p = some q) (v : Nat) (hide : q.ide = false) :
    ∃ t, exec (.tenantidWrite p v) s = .next t ∧ restKept s t ∧ partBecomes s t p { q with href := min 65535 (q.href + 1) } :=
  modPart_next hq <| (tenantidWrite_of_find hq v).trans <| congrArg _ <| if_pos (by simp [hide])

theorem debugTokenCheck_of_find (hq : Tab.find s.parts p = some q) (tok : List Nat) : exec (.debugTokenCheck p tok) s = .next
    (if s.tokenStatus p q tok = 0 then
      { (s.modPart p fun q => { q with unlocked := true, dbgstat := 0, nonce := (Config.random s.draws).toNat % 2 ^ 32 }) with
        draws := s.draws + 1
        unlocks := Tab.set 0 s.unlocks p (Tab.get 0 s.unlocks p + 1) }
    else s.modPart p fun z => { z with dbgstat := s.tokenStatus p q tok }) := congrArg Host.Outcome.next (withPart_of_find hq _)

theorem debugTokenCheck_good (hq : Tab.find s.parts p = some q) (tok : List Nat) (h : s.tokenStatus p q tok = 0) :
    ∃ t q', exec (.debugTokenCheck p tok) s = .next t ∧ restKept s t ∧ partBecomes s t p q' ∧
      q'.unlocked = true ∧ q'.dbgstat = 0 ∧ Tab.get 0 t.unlocks p = Tab.get 0 s.unlocks p + 1 :=
  ⟨_, _, (debugTokenCheck_of_find hq tok).trans (congrArg _ (if_pos h)), ⟨rfl, rfl, rfl, rfl, rfl, rfl⟩,
    partBecomes_modPart hq fun q => { q with unlocked := true, dbgstat := 0, nonce := (Config.random s.draws).toNat % 2 ^ 32 }, rfl, rfl,
    get_set_same 0 s.unlocks p (Tab.get 0 s.unlocks p + 1)⟩

theorem debugTokenCheck_bad (hq : Tab.find s.parts p = some q) (tok : List Nat) (h : s.tokenStatus p q tok ≠ 0) :
    ∃ t, exec (.debugTokenCheck p tok) s = .next t ∧ restKept s t ∧ partBecomes s t p { q with dbgstat := s.tokenStatus p q tok } :=
  modPart_next hq <| (debugTokenCheck_of_find hq tok).trans <| congrArg _ <| if_neg h

theorem debugStopRequest_next (hq : Tab.find s.parts p = some q) {k : Nat} (hk : (s.core k).part = p) (hrun : (s.core k).st = .running)
    (hopen : q.unlocked = true) : ∃ t q', exec (.debugStopRequest k) s = .next t ∧ restKept s t ∧ Tab.find t.parts p = some q' ∧
      q'.reqs = q.reqs ++ [⟨5, q.stime + 192, false, haltTag (s.core k).asid⟩] := by
  have hexec : exec (.debugStopRequest k) s = .next (s.haltAt k 4 5 (s.now (s.core k)) (q.stime + 192)) := by
    rw [exec_debugStopRequest]
    unfold execDebugStopRequest
    dsimp only
    rw [hk, part_of_find hq]
    exact if_pos ⟨hopen, .inl hrun⟩
  subst hk
  exact ⟨_, _, hexec, ⟨rfl, rfl, rfl, rfl, rfl, rfl⟩, find_modPart_of_find (find_modPart_of_find hq _) _, rfl⟩

theorem debugStopRequest_locked (hq : Tab.find s.parts p = some q) {k : Nat} (hk : (s.core k).part = p) (hlock : q.unlocked = false) :
    exec (.debugStopRequest k) s = .next s := by
  refine if_neg fun ⟨h, _⟩ => ?_
  rw [hk, part_of_find hq, hlock] at h
  cases h

theorem debugLock_next (hq : Tab.find s.parts p = some q) : ∃ t, exec (.debugLock p) s = .next t ∧ restKept s t ∧
    partBecomes s t p { q with unlocked := false } :=
  ⟨_, rfl, restKept_modPart .., partBecomes_modPart hq fun q => { q with unlocked := false }⟩

/-! ### Host DMA -/

/-- The keys of n bytes from a device address. -/
def hostKeys (q : Part) (addr n : Nat) : List Nat := (List.range n).map fun i => q.hostKey (addr + i)

/-- After the host's n bytes of `data` from a device address. -/
def hostWritten (q : Part) (addr : Nat) (data : List Nat) (n : Nat) (s : State) : State :=
  ((List.range n).map fun i => (addr + i, data.getD i 0)).foldl (State.setHostByte q) s

/-- The bytes that a host read of n bytes returns. -/
def hostBytes (s : State) (q : Part) (addr n : Nat) : List Byte := (List.range n).map fun i => s.hostByte q (addr + i)
/-- The partition as a host read of n bytes leaves it, before it is noted. -/
def handedOut (addr n : Nat) (out : List Byte) (q : Part) : Part := { q.hostHasRead addr n with dmaOut := out }
/-- After a host read of n bytes of partition p, before it is noted. -/
def hostRead (p : Nat) (q : Part) (addr n : Nat) (s : State) : State :=
  (hostKeys q addr n).foldl (State.scatter q) ((s.meetRecord q addr n).modPart p (handedOut addr n (hostBytes s q addr n)))

theorem hostDmaRequest_of_find (hq : Tab.find s.parts p = some q) (w : Bool) (addr : Nat) (data : List Nat) (ide : Bool) :
    exec (.hostDmaRequest p w addr data ide) s = .next (if q.tdisp = .run ∧ ide ∧ q.ide ∧ s.hostOk q w addr data.length then
      ((if w then hostWritten q addr data data.length s else hostRead p q addr data.length s).noteHosts p w (hostKeys q addr data.length)).modPart p
        fun z => z.flush w (hostKeys q addr data.length)
    else s.countHref p) := by
  refine congrArg Host.Outcome.next ((withPart_of_find hq _).trans ?_)
  simp only [hostWritten, hostRead, hostBytes, hostKeys, List.map_map]
  rfl

theorem hostDmaRequest_refused (hq : Tab.find s.parts p = some q) {w : Bool} {addr : Nat} {data : List Nat} {ide : Bool}
    (h : q.tdisp ≠ .run ∨ ide = false ∨ q.ide = false ∨ s.hostOk q w addr data.length = false) : ∃ t, exec (.hostDmaRequest p w addr data ide) s = .next t ∧
      restKept s t ∧ partBecomes s t p { q with href := min 65535 (q.href + 1) } := by
  refine modPart_next hq <| (hostDmaRequest_of_find hq ..).trans <| congrArg _ <| if_neg ?_
  rintro ⟨hrun, hide, hon, hok⟩
  rcases h with h | h | h | h
  · exact h hrun
  · exact absurd (h.symm.trans hide) (by decide)
  · exact absurd (h.symm.trans hon) (by decide)
  · exact absurd (h.symm.trans hok) (by decide)

theorem noteHosts_cores (s : State) (p : Nat) (w : Bool) (keys : List Nat) : (s.noteHosts p w keys).cores = s.cores := by
  unfold State.noteHosts
  split
  · rfl
  · rfl
theorem noteHosts_mem (s : State) (p : Nat) (w : Bool) (keys : List Nat) : (s.noteHosts p w keys).mem = s.mem := by
  unfold State.noteHosts
  split
  · rfl
  · rfl
theorem noteHosts_of_idle {w : Bool} {keys : List Nat} (hq : Tab.find s.parts p = some q) (h : q.idle = true) : s.noteHosts p w keys = s :=
  if_pos (by rw [part_of_find hq, h])

theorem spoil_mem (s : State) (q : Part) (station : Bool) (pd off : Nat) : (s.spoil q station pd off).mem = s.mem := by
  refine List.foldlRecOn (motive := fun (t : State) => t.mem = s.mem) _ _ rfl fun t ht z _ => ?_
  refine List.foldlRecOn (motive := fun (t : State) => t.mem = s.mem) _ _ ht fun u hu e _ => ?_
  split
  · exact hu
  · exact hu

/-- A write spoils nothing where no context is HALTED or SAVED. -/
theorem spoil_of_none {station : Bool} {pd off : Nat} (h : ∀ e ∈ s.parts, ∀ x ∈ e.2.ctxs, x.2.st ≠ .halted ∧ x.2.st ≠ .saved) :
    s.spoil q station pd off = s := by
  refine List.foldlRecOn (motive := fun t => t = s) _ _ rfl fun t ht z hz => ?_
  refine List.foldlRecOn (motive := fun t => t = s) _ _ ht fun u hu e he => ?_
  obtain ⟨hhalted, hsaved⟩ := h z (List.mem_of_mem_filter hz) e he
  refine (if_neg fun hc => ?_).trans hu
  rcases hc.1 with hst | hst
  · exact hhalted hst
  · exact hsaved hst

theorem stored_setHostByte (q : Part) (s : State) (e : Nat × Nat) : Stored s (State.setHostByte q s e) :=
  ((stored_spoil ..).trans (stored_setByte ..)).trans (stored_setStamp ..)

theorem byte_setHostByte_other {e : Nat × Nat} {n : Nat} (h : n ≠ q.hostKey e.1) : (State.setHostByte q s e).byte n = s.byte n := by
  refine (byte_setByte_other _ _ h).trans ?_
  unfold State.byte
  rw [spoil_mem]

theorem byte_setHostByte_same {e : Nat × Nat} (h : q.hostRaces (q.hostKey e.1) false = false) :
    (State.setHostByte q s e).byte (q.hostKey e.1) = BitVec.ofNat 8 e.2 := by
  refine (byte_setByte_same ..).trans ?_
  rw [h]
  rfl

theorem hostWritten_succ (q : Part) (addr : Nat) (data : List Nat) (n : Nat) (s : State) :
    hostWritten q addr data (n + 1) s = State.setHostByte q (hostWritten q addr data n s) (addr + n, data.getD n 0) := by
  simp [hostWritten, List.range_succ]

theorem stored_hostWritten (q : Part) (addr : Nat) (data : List Nat) (n : Nat) (s : State) : Stored s (hostWritten q addr data n s) :=
  stored_foldl (stored_setHostByte q) _ _

theorem byte_hostWritten_other {addr n b : Nat} {data : List Nat} (h : ∀ i, i < n → b ≠ q.hostKey (addr + i)) :
    (hostWritten q addr data n s).byte b = s.byte b := by
  induction n with
  | zero => rfl
  | succ n ih =>
    rw [hostWritten_succ, byte_setHostByte_other (e := (addr + n, data.getD n 0)) (h n (by omega))]
    exact ih fun i hi => h i (by omega)

/-- The last byte written at a key stands there, where it does not race. -/
theorem byte_hostWritten_last {addr n i : Nat} {data : List Nat} (hi : i < n)
    (hlast : ∀ j, i < j → j < n → q.hostKey (addr + j) ≠ q.hostKey (addr + i)) (hrace : q.hostRaces (q.hostKey (addr + i)) false = false) :
    (hostWritten q addr data n s).byte (q.hostKey (addr + i)) = BitVec.ofNat 8 (data.getD i 0) := by
  induction n with
  | zero => omega
  | succ n ih =>
    rw [hostWritten_succ]
    by_cases h : i = n
    · subst h
      exact byte_setHostByte_same hrace
    · rw [byte_setHostByte_other (e := (addr + n, data.getD n 0)) fun he => hlast n (by omega) (by omega) he.symm]
      exact ih (by omega) fun j hij hj => hlast j hij (by omega)

/-- Where no context is HALTED or SAVED, the host's bytes leave the partitions as they are. -/
theorem hostWritten_parts (h : ∀ e ∈ s.parts, ∀ x ∈ e.2.ctxs, x.2.st ≠ .halted ∧ x.2.st ≠ .saved) (addr : Nat) (data : List Nat) (n : Nat) :
    (hostWritten q addr data n s).parts = s.parts := by
  refine List.foldlRecOn (motive := fun (t : State) => t.parts = s.parts) _ _ rfl fun t ht e _ => ?_
  unfold State.setHostByte
  dsimp only
  rw [spoil_of_none (by rwa [ht])]
  exact ht

theorem hostDmaRequest_write (hq : Tab.find s.parts p = some q) {addr : Nat} {data : List Nat} (hrun : q.tdisp = .run) (hide : q.ide = true)
    (hok : s.hostOk q true addr data.length = true) :
    ∃ t, exec (.hostDmaRequest p true addr data true) s = .next t ∧ t.cores = s.cores ∧
      (q.idle = true → (∀ e ∈ s.parts, ∀ x ∈ e.2.ctxs, x.2.st ≠ .halted ∧ x.2.st ≠ .saved) →
        partBecomes s t p { q with unflushed := (hostKeys q addr data.length ++ q.unflushed).eraseDups }) ∧
      (∀ n, (∀ i, i < data.length → n ≠ q.hostKey (addr + i)) → t.byte n = s.byte n) ∧
      ∀ i, i < data.length → (∀ j, i < j → j < data.length → q.hostKey (addr + j) ≠ q.hostKey (addr + i)) →
        q.hostRaces (q.hostKey (addr + i)) false = false → t.byte (q.hostKey (addr + i)) = BitVec.ofNat 8 (data.getD i 0) := by
  refine ⟨_, (hostDmaRequest_of_find hq ..).trans (congrArg _ (if_pos ⟨hrun, rfl, hide, hok⟩)), ?_, fun hidle hctx => ?_, fun n hn => ?_,
    fun i hi hlast hrace => ?_⟩
  · exact (noteHosts_cores ..).trans (stored_hostWritten ..).cores
  · have hparts : (hostWritten q addr data data.length s).parts = s.parts := hostWritten_parts hctx addr data _
    have hq1 : Tab.find (hostWritten q addr data data.length s).parts p = some q := hparts.symm ▸ hq
    rw [if_pos rfl, noteHosts_of_idle hq1 hidle]
    obtain ⟨hsame, hother⟩ := partBecomes_modPart hq1 fun z => z.flush true (hostKeys q addr data.length)
    exact ⟨hsame, fun j hj => (hother j hj).trans (by rw [hparts])⟩
  · rw [byte_modPart, State.byte, noteHosts_mem]
    exact byte_hostWritten_other hn
  · rw [byte_modPart, State.byte, noteHosts_mem]
    exact byte_hostWritten_last hi hlast hrace

/-- A read counts the uncorrectable errors that it meets, and changes nothing else. -/
theorem meetRecord_eq (s : State) (q : Part) (addr n : Nat) : ∃ e, s.meetRecord q addr n = { s with ecc := e } := by
  refine List.foldlRecOn (motive := fun (t : State) => ∃ e, t = { s with ecc := e }) _ _ ⟨_, rfl⟩ fun t ht i _ => ?_
  obtain ⟨e, rfl⟩ := ht
  dsimp only
  split
  · exact ⟨_, rfl⟩
  · exact ⟨_, rfl⟩

/-- What a read leaves to chance is bytes alone. -/
theorem scatters_eq (q : Part) (keys : List Nat) (s : State) : ∃ m, keys.foldl (State.scatter q) s = { s with mem := m } := by
  refine List.foldlRecOn (motive := fun (t : State) => ∃ m, t = { s with mem := m }) _ _ ⟨_, rfl⟩ fun t ht key _ => ?_
  obtain ⟨m, rfl⟩ := ht
  unfold State.scatter
  split
  · exact ⟨_, rfl⟩
  · exact ⟨_, rfl⟩

theorem noteHosts_dmaOut (p : Nat) (w : Bool) (keys : List Nat) (hq : Tab.find s.parts p = some q) :
    ∃ r, Tab.find (s.noteHosts p w keys).parts p = some r ∧ r.dmaOut = q.dmaOut := by
  unfold State.noteHosts
  split
  · exact ⟨q, hq, rfl⟩
  · exact ⟨_, find_modPart_of_find hq _, List.foldlRecOn (motive := fun (r : Part) => r.dmaOut = q.dmaOut) _ _ rfl fun _ hr _ _ => hr⟩

theorem metBy_of_unlaunched (h : q.unlaunched = true) (key : Nat) (w : Bool) : q.metBy key w = false := by
  simp only [Part.unlaunched, Bool.and_eq_true, List.all_eq_true, List.isEmpty_iff] at h
  obtain ⟨hlaunches, hsaved⟩ := h
  rw [Part.metBy, hlaunches, Bool.or_eq_false_iff]
  exact ⟨rfl, List.any_eq_false.mpr fun x hx => by simp [hsaved x hx]⟩

theorem hostRaces_of_idle (hidle : q.idle = true) (hunread : q.unread = []) (key : Nat) (w : Bool) : q.hostRaces key w = false := by
  have hlaunch : q.unlaunched = true := by
    simp only [Part.idle, Bool.and_eq_true] at hidle
    exact hidle.1.1
  rw [Part.hostRaces, metBy_of_unlaunched hlaunch, hunread]
  rfl

theorem scatters_of_idle (hidle : q.idle = true) (hunread : q.unread = []) (keys : List Nat) (s : State) : keys.foldl (State.scatter q) s = s :=
  List.foldlRecOn (motive := fun t => t = s) _ _ rfl fun t ht key _ =>
    (if_neg (by rw [hostRaces_of_idle hidle hunread]; decide)).trans ht

theorem hostHasRead_of_nil (hunread : q.unread = []) (addr n : Nat) : q.hostHasRead addr n = q := by
  have h : (q.unread.filter fun u => !(decide (addr ≤ u.1) && decide (u.1 + 16 ≤ addr + n))) = q.unread := by rw [hunread, List.filter_nil]
  rw [Part.hostHasRead, h]

theorem handedOut_of_nil (hunread : q.unread = []) (addr n : Nat) (out : List Byte) : handedOut addr n out q = { q with dmaOut := out } := by
  rw [handedOut, hostHasRead_of_nil hunread]

/-- A read leaves the partitions as the handing out of its bytes does. -/
theorem hostRead_eq (p : Nat) (q : Part) (addr n : Nat) (s : State) : ∃ ecc mem,
    hostRead p q addr n s = { s.modPart p (handedOut addr n (hostBytes s q addr n)) with ecc := ecc, mem := mem } := by
  obtain ⟨mem, hscatter⟩ := scatters_eq q (hostKeys q addr n) ((s.meetRecord q addr n).modPart p (handedOut addr n (hostBytes s q addr n)))
  obtain ⟨ecc, hmet⟩ := meetRecord_eq s q addr n
  refine ⟨ecc, mem, hscatter.trans ?_⟩
  rw [hmet]
  rfl

theorem hostRead_of_idle (hidle : q.idle = true) (hunread : q.unread = []) (addr n : Nat) (s : State) : ∃ ecc,
    hostRead p q addr n s = { s.modPart p (handedOut addr n (hostBytes s q addr n)) with ecc := ecc } := by
  obtain ⟨ecc, hmet⟩ := meetRecord_eq s q addr n
  refine ⟨ecc, (scatters_of_idle hidle hunread ..).trans ?_⟩
  rw [hmet]
  rfl

theorem hostDmaRequest_read (hq : Tab.find s.parts p = some q) {addr : Nat} {data : List Nat} (hrun : q.tdisp = .run) (hide : q.ide = true)
    (hok : s.hostOk q false addr data.length = true) :
    ∃ t q', exec (.hostDmaRequest p false addr data true) s = .next t ∧ Tab.find t.parts p = some q' ∧
      q'.dmaOut = hostBytes s q addr data.length ∧ t.cores = s.cores ∧ (q.idle = true → q.unread = [] → restKept s t ∧
        partBecomes s t p { q with dmaOut := hostBytes s q addr data.length, unflushed := [] }) := by
  have hexec := (hostDmaRequest_of_find hq false addr data true).trans (congrArg _ (if_pos ⟨hrun, rfl, hide, hok⟩))
  rw [if_neg (by decide)] at hexec
  have hfind : Tab.find (hostRead p q addr data.length s).parts p = some (handedOut addr data.length (hostBytes s q addr data.length) q) := by
    obtain ⟨_, _, h⟩ := hostRead_eq p q addr data.length s
    rw [h]
    exact find_modPart_of_find hq _
  obtain ⟨r, hr, hout⟩ := noteHosts_dmaOut p false (hostKeys q addr data.length) hfind
  refine ⟨_, _, hexec, find_modPart_of_find hr _, hout, (noteHosts_cores ..).trans ?_, fun hidle hunread => ?_⟩
  · obtain ⟨_, _, h⟩ := hostRead_eq p q addr data.length s
    rw [h]
    rfl
  · rw [noteHosts_of_idle hfind hidle]
    obtain ⟨_, h⟩ := hostRead_of_idle (p := p) hidle hunread addr data.length s
    rw [h]
    rw [handedOut_of_nil hunread] at hfind
    refine ⟨⟨rfl, rfl, rfl, rfl, rfl, rfl⟩, find_modPart_of_find (h ▸ hfind) _, fun j hj => ?_⟩
    exact (find_modPart_other hj _).trans (find_modPart_other (s := s) hj _)

end

/-- Settles O48: each clause is the lemma about its event. -/
theorem hostEvents : Obligations.HostEvents := by
  unfold Obligations.HostEvents
  refine fun p s => ⟨fun dies n base => partitionCreate_next, fun q hq => ?_⟩
  refine ⟨functionLevelReset_next hq, partitionDestroy_next hq, dieDrain_next hq, tdispMessage_lock hq, tdispMessage_start hq, tdispMessage_stop hq,
    fun m => tdispMessage_other hq, ideCheckFail_next hq, fun w addr data ide => hostDmaRequest_refused hq,
    fun addr data => hostDmaRequest_write hq, fun addr data => hostDmaRequest_read hq, tenantidWrite_next hq, tenantidWrite_kept hq,
    tenantidWrite_refused hq, debugTokenCheck_good hq, debugTokenCheck_bad hq, debugLock_next hq,
    fun k hk hrun hopen _ => debugStopRequest_next hq hk hrun hopen, fun k => debugStopRequest_locked hq⟩

end Sys2Proof.Proofs
end

section
/-! PROOFS. Every step keeps the rate of each partition, and the rate that it announces, between 4 and 16 sixteenths (R19, O60). A change of rate takes the announced
one, the governor moves that by one within the bounds, and a partition is created at the full rate; nothing else in the model writes either. A state function that
leaves the partitions alone keeps the bounds by computation, and a store, a teardown or a fault found late by what it may change (`Stored`, `Torn`). One lemma per
function that may change a partition says so, in the order of the model, and each proof follows the body of its function. -/
namespace Sys2Proof.Proofs
open Sys2Proof.Machine Sys2Proof.Laws

/-! ## The bounds -/

/-- The rate of a partition and the one that it announces, in sixteenths, are within the bounds of R19. -/
def RateOk (q : Part) : Prop := (4 ≤ q.rate ∧ q.rate ≤ 16) ∧ 4 ≤ q.next ∧ q.next ≤ 16

/-- Every partition is listed once, and its rates are within the bounds. -/
def Rated (s : State) : Prop := Tab.sorted s.parts = true ∧ ∀ e ∈ s.parts, RateOk e.2

/-- An outcome that leaves a rated state, when it leaves one. -/
def RatedOut : Out → Prop
  | .next t => Rated t
  | _ => True

/-- A state that is rated, when there is one. -/
def RatedOpt (o : Option State) : Prop := ∀ t, o = some t → Rated t

/-- A state that is rated beside another value, when there is one. -/
def RatedFst {β : Type} (o : Option (State × β)) : Prop := ∀ x, o = some x → Rated x.1

theorem ratesOk_iff_rated (s : State) : Safety.ratesOk s = true ↔ Rated s := by
  simp only [Safety.ratesOk, Rated, RateOk, Bool.and_eq_true, List.all_eq_true, decide_eq_true_eq]

section
variable {α β : Type} {s t : State}

theorem rated_of_next {o : Out} (h : RatedOut o) (e : o = .next t) : Rated t := by
  subst e
  exact h
theorem rated_of_mk {x : State × β} {b : β} (h : Rated x.1) (e : x = (t, b)) : Rated t := by
  subst e
  exact h
theorem rated_of_some {o : Option State} (h : RatedOpt o) (e : o = some t) : Rated t := h t e

theorem ratedOpt_none : RatedOpt none := fun _ e => nomatch e
theorem ratedOpt_some (h : Rated s) : RatedOpt (some s) := fun _ e => Option.some.inj e ▸ h
theorem ratedOpt_map {o : Option α} {f : α → State} (hf : ∀ x, Rated (f x)) : RatedOpt (o.map f) := by
  cases o with
  | none => exact ratedOpt_none
  | some x => exact ratedOpt_some (hf x)
theorem ratedOpt_map_of {o : Option State} {f : State → State} (ho : RatedOpt o) (hf : ∀ t, Rated t → Rated (f t)) : RatedOpt (o.map f) := by
  cases o with
  | none => exact ratedOpt_none
  | some t => exact ratedOpt_some (hf t (ho t rfl))
theorem ratedOpt_bind_of {o : Option State} {f : State → Option State} (ho : RatedOpt o) (hf : ∀ t, Rated t → RatedOpt (f t)) :
    RatedOpt (o.bind f) := by
  cases o with
  | none => exact ratedOpt_none
  | some t => exact hf t (ho t rfl)

theorem ratedFst_none : RatedFst (β := β) none := fun _ e => nomatch e
theorem ratedFst_some {b : β} (hs : Rated s) : RatedFst (some (s, b)) := fun _ e => Option.some.inj e ▸ hs
theorem ratedFst_ite {c : Prop} [Decidable c] {o o' : Option (State × β)} (h : RatedFst o) (h' : RatedFst o') : RatedFst (if c then o else o') := by
  split
  · exact h
  · exact h'
theorem ratedFst_map {o : Option (State × α)} {f : State × α → State × β} (h : RatedFst o) (hf : ∀ x, (f x).1 = x.1) : RatedFst (o.map f) := by
  rintro x e
  obtain ⟨y, ey, rfl⟩ := Option.map_eq_some_iff.mp e
  exact hf y ▸ h y ey

/-! A branch keeps the bounds when both of its sides do; a fold does when its step does. -/

theorem rated_ite {c : Prop} [Decidable c] (hs : Rated s) (ht : Rated t) : Rated (if c then s else t) := by
  split
  · exact hs
  · exact ht
theorem ratedOut_ite {c : Prop} [Decidable c] {o o' : Out} (h : RatedOut o) (h' : RatedOut o') : RatedOut (if c then o else o') := by
  split
  · exact h
  · exact h'
theorem rated_fst_ite {c : Prop} [Decidable c] {x y : State × β} (hx : Rated x.1) (hy : Rated y.1) : Rated (if c then x else y).1 := by
  split
  · exact hx
  · exact hy
theorem ratedOpt_ite {c : Prop} [Decidable c] {o o' : Option State} (h : RatedOpt o) (h' : RatedOpt o') : RatedOpt (if c then o else o') := by
  split
  · exact h
  · exact h'
theorem rated_foldl {f : State → α → State} {l : List α} (hf : ∀ t x, Rated t → Rated (f t x)) (h : Rated s) : Rated (l.foldl f s) := by
  induction l generalizing s with
  | nil => exact h
  | cons x l ih => exact ih (hf s x h)
theorem ratedOpt_foldl {f : Option State → α → Option State} {l : List α} {o : Option State} (hf : ∀ o x, RatedOpt o → RatedOpt (f o x)) (h : RatedOpt o) :
    RatedOpt (l.foldl f o) := by
  induction l generalizing o with
  | nil => exact h
  | cons x l ih => exact ih (hf o x h)
theorem rated_fst_foldl {f : State × β → α → State × β} {l : List α} {x : State × β} (hf : ∀ y a, Rated y.1 → Rated (f y a).1) (h : Rated x.1) :
    Rated (l.foldl f x).1 := by
  induction l generalizing x with
  | nil => exact h
  | cons a l ih => exact ih (hf x a h)
/-! Tables whose entries are changed one by one. -/

theorem Mapped.mem {R : α → α → Prop} {t u : Tab α} {z : Nat × α} (h : Mapped R t u) (hz : z ∈ u) : ∃ y ∈ t, z.1 = y.1 ∧ R y.2 z.2 := by
  induction h with
  | nil => cases hz
  | @cons e f _ _ hef _ ih =>
    rcases List.mem_cons.mp hz with rfl | hz
    · exact ⟨e, List.mem_cons_self, hef⟩
    · obtain ⟨y, hy, hyz⟩ := ih hz
      exact ⟨y, List.mem_cons_of_mem _ hy, hyz⟩

theorem Mapped.sorted {R : α → α → Prop} {t u : Tab α} (h : Mapped R t u) (ht : Tab.sorted t = true) : Tab.sorted u = true := by
  induction h with
  | nil => rfl
  | @cons e f t u hef htu ih =>
    obtain ⟨hlt, ht⟩ := (sorted_cons e.1 e.2 t).mp ht
    refine (sorted_cons f.1 f.2 u).mpr ⟨fun z hz => ?_, ih ht⟩
    obtain ⟨y, hy, hkey, -⟩ := Mapped.mem htu hz
    rw [hef.1, hkey]
    exact hlt y hy

/-! Writes of the partitions themselves. -/

theorem rated_of_parts (h : Rated s) (e : t.parts = s.parts) : Rated t := by
  unfold Rated
  rwa [e]

theorem rated_mapParts {f : Nat × Part → Nat × Part} (h : Rated s) (e : t.parts = s.parts.map f) (hkey : ∀ e, (f e).1 = e.1)
    (hf : ∀ e, RateOk e.2 → RateOk (f e).2) : Rated t := by
  obtain ⟨hsorted, hrates⟩ := h
  unfold Rated
  rw [e]
  refine ⟨sorted_map s.parts f hkey hsorted, fun z hz => ?_⟩
  obtain ⟨y, hy, rfl⟩ := List.mem_map.mp hz
  exact hf y (hrates y hy)

theorem rated_updPart {p : Nat} {f : Part → Part} (h : Rated s) (e : t.parts = Tab.upd s.parts p f) (hf : ∀ q, RateOk q → RateOk (f q)) :
    Rated t := by
  refine rated_mapParts h e (fun e => ?_) (fun e he => ?_)
  · split
    · rfl
    · rfl
  · split
    · exact hf e.2 he
    · exact he

theorem rated_modPart_of {p : Nat} {f : Part → Part} (h : Rated s) (hf : ∀ q, RateOk q → RateOk (f q)) : Rated (s.modPart p f) :=
  rated_updPart h rfl hf

/-- A change of a partition that leaves its rates. -/
theorem rated_modPart {p : Nat} {f : Part → Part} (hf : ∀ q, RateOk (f q) = RateOk q) (h : Rated s) : Rated (s.modPart p f) :=
  rated_modPart_of h fun q hq => (hf q).symm ▸ hq

theorem rated_putPart {p : Nat} {q : Part} (h : Rated s) (e : t.parts = Tab.put s.parts p q) (hq : RateOk q) : Rated t := by
  obtain ⟨hsorted, hrates⟩ := h
  unfold Rated
  rw [e]
  refine ⟨sorted_put s.parts p q hsorted, fun z hz => ?_⟩
  rcases mem_put hz with rfl | hz
  · exact hq
  · exact hrates z hz

theorem rated_delPart {p : Nat} (h : Rated s) (e : t.parts = Tab.del s.parts p) : Rated t := by
  obtain ⟨hsorted, hrates⟩ := h
  unfold Rated
  rw [e]
  exact ⟨sorted_del s.parts p hsorted, fun z hz => hrates z (mem_del hz)⟩

/-- Partitions that are changed one by one, each within the bounds. -/
theorem rated_of_mapped {R : Part → Part → Prop} (h : Rated s) (hR : ∀ q r, R q r → RateOk q → RateOk r) (hm : Mapped R s.parts t.parts) : Rated t := by
  obtain ⟨hsorted, hrates⟩ := h
  refine ⟨hm.sorted hsorted, fun z hz => ?_⟩
  obtain ⟨y, hy, -, hyz⟩ := hm.mem hz
  exact hR _ _ hyz (hrates y hy)

theorem rated_of_stored (h : Rated s) (hst : Stored s t) : Rated t :=
  rated_of_mapped h (fun _ _ ⟨_, _, e, _⟩ hq => e ▸ hq) hst.parts

theorem rated_of_torn (h : Rated s) (hst : Torn s t) : Rated t := by
  refine rated_of_mapped h ?_ hst
  rintro q r ⟨⟨_, _, _, _, _, _, _, _, _, _, _, _, rfl⟩, -⟩ hq
  exact hq

theorem rated_withMem {m} (h : Rated s) : Rated { s with mem := m } := h
theorem rated_withCores {cs} (h : Rated s) : Rated { s with cores := cs } := h
theorem rated_reset : Rated State.reset := ⟨rfl, fun _ he => nomatch he⟩
theorem rated_setCore {k c} (hs : Rated s) : Rated (s.setCore k c) := hs
theorem rated_setByte {a v} (hs : Rated s) : Rated (s.setByte a v) := hs
theorem rated_setBytes {a vs} (hs : Rated s) : Rated (s.setBytes a vs) := by
  induction vs generalizing s a with
  | nil => exact hs
  | cons v vs ih => exact ih hs

end

end Sys2Proof.Proofs
end

section
/-! PROOFS. Every step keeps the rates of the partitions (O60): traps, stores, holds and the governor, loads and stores, copies, tensors, seals and the wire. -/
namespace Sys2Proof.Proofs
open Sys2Proof.Machine Sys2Proof.Laws

section
variable {s : State}

theorem rated_store {a n v} (hs : Rated s) : Rated (s.store a n v) := rated_setBytes hs
theorem rated_modCore {k f} (hs : Rated s) : Rated (s.modCore k f) := hs
theorem rated_modDie {d f} (hs : Rated s) : Rated (s.modDie d f) := hs
theorem rated_modCtx {p a f} (hs : Rated s) : Rated (s.modCtx p a f) := rated_modPart (fun _ => rfl) hs
theorem rated_modLaunch {p l f} (hs : Rated s) : Rated (s.modLaunch p l f) := rated_modPart (fun _ => rfl) hs
theorem rated_withPart {p f} (hs : Rated s) (hf : ∀ x, Rated (f x)) : Rated (withPart s p f) := by
  unfold withPart
  split
  · exact hf _
  · exact hs
theorem rated_countHref {p} (hs : Rated s) : Rated (s.countHref p) := rated_modPart (fun _ => rfl) hs
theorem rated_withVf {p f} (hs : Rated s) (hf : ∀ x, Rated (f x)) : Rated (withVf s p f) :=
  rated_withPart hs (fun _ => rated_ite (rated_countHref hs) <| rated_ite (hf _) hs)
theorem rated_see {k a n} (hs : Rated s) : Rated (s.see k a n) := hs
theorem rated_raiseHoldAt {p cause tag h} (hs : Rated s) : Rated (s.raiseHoldAt p cause tag h) := rated_modPart (fun _ => rfl) hs
theorem rated_raiseHold {p cause tag} (hs : Rated s) : Rated (s.raiseHold p cause tag) := rated_raiseHoldAt hs
theorem rated_haltAt {k kind cause e h} (hs : Rated s) : Rated (s.haltAt k kind cause e h) := rated_modCtx <| rated_raiseHoldAt hs
theorem rated_raiseHalt {k kind e} (hs : Rated s) : Rated (s.raiseHalt k kind e) := rated_haltAt hs
theorem rated_takeTrap {k slot cause info} (hs : Rated s) : Rated (s.takeTrap k slot cause info) := rated_raiseHalt hs
theorem rated_trapHere {cause info} (hs : Rated s) : Rated (s.trapHere cause info) := rated_takeTrap hs
theorem ratedOut_slotOp {g eu f} (hs : Rated s) : RatedOut (slotOp g eu f s) := ratedOut_ite hs hs
theorem ratedOut_slotTry {g eu chk f} (hs : Rated s) : RatedOut (slotTry g eu chk f s) := by
  unfold slotTry
  refine ratedOut_ite ?_ hs
  split
  · exact rated_trapHere hs
  · exact hs

/-! ### The functions of Machine/Scalar.lean -/

theorem ratedOut_aluRR {g lat d a b f} (hs : Rated s) : RatedOut (aluRR g lat d a b f s) := ratedOut_slotOp hs
theorem ratedOut_aluR {g d a f} (hs : Rated s) : RatedOut (aluR g d a f s) := ratedOut_slotOp hs
theorem ratedOut_aluSat {g d a b f} (hs : Rated s) : RatedOut (aluSat g d a b f s) := ratedOut_slotOp hs
theorem ratedOut_cmpRR {g d a b f} (hs : Rated s) : RatedOut (cmpRR g d a b f s) := ratedOut_slotOp hs
theorem ratedOut_cmpRI {g d a i f} (hs : Rated s) : RatedOut (cmpRI g d a i f s) := ratedOut_slotOp hs
theorem ratedOut_plog {g d a b f} (hs : Rated s) : RatedOut (plog g d a b f s) := ratedOut_slotOp hs
theorem ratedOut_movk {g k d i} (hs : Rated s) : RatedOut (movk g k d i s) := ratedOut_aluR hs

/-! ### The functions of Machine/Device.lean -/

theorem rated_atWall {w i} (hs : Rated s) : Rated (s.atWall w i) := hs
theorem rated_laterBy {n code i} (hs : Rated s) : Rated (s.laterBy n code i) := hs
theorem rated_later {code i} (hs : Rated s) : Rated (s.later code i) := hs
theorem rated_within {code n i} (hs : Rated s) : Rated (s.within code n i) := hs
theorem rated_setOwn {station pd off o} (hs : Rated s) : Rated (s.setOwn station pd off o) := hs
theorem rated_uncover {key} (hs : Rated s) : Rated (s.uncover key) := hs
theorem rated_setStamp {pd off x} (hs : Rated s) : Rated (s.setStamp pd off x) := hs
theorem rated_clearStamps {pd off} (hs : Rated s) : Rated (s.clearStamps pd off) := rated_uncover (key := ownKey false pd off) hs
theorem rated_spoil {q station pd off} (hs : Rated s) : Rated (s.spoil q station pd off) := rated_of_stored hs (stored_spoil ..)
theorem rated_masterBytes {q key bs} (hs : Rated s) : Rated (State.masterBytes q s key bs) := rated_of_stored hs (stored_masterBytes ..)
theorem rated_devStore {q addr n v} (hs : Rated s) : Rated (s.devStore q addr n v) := rated_of_stored hs (stored_devStore ..)
theorem rated_appendEvent {p a e} (hs : Rated s) : Rated (s.appendEvent p a e) := rated_of_stored hs (stored_appendEvent ..)
theorem rated_meetRecord {q addr n} (hs : Rated s) : Rated (s.meetRecord q addr n) :=
  rated_foldl (fun _ _ ht => rated_ite ht ht) hs
theorem rated_setVrec {q pd tid r} (hs : Rated s) : Rated (s.setVrec q pd tid r) := by
  unfold State.setVrec
  dsimp only
  split
  · exact hs
  · exact rated_ite (rated_devStore <| rated_devStore hs) hs
theorem rated_pinTensor {p asid tid} (hs : Rated s) : Rated (s.pinTensor p asid tid).1 := by
  unfold State.pinTensor
  split
  · exact hs
  · exact rated_fst_ite (rated_setVrec hs) hs
theorem rated_tensorFault {p asid tid} (hs : Rated s) : Rated (s.tensorFault p asid tid) := rated_appendEvent hs
theorem rated_readDesc {p asid tid} (hs : Rated s) : Rated (s.readDesc p asid tid).1 := by
  unfold State.readDesc
  split
  · rename_i heq
    exact rated_of_mk (rated_pinTensor hs) heq
  · rename_i heq
    have ht1 := rated_of_mk (rated_pinTensor hs) heq
    exact rated_tensorFault ht1
theorem rated_writeRaced {k a vs} (hs : Rated s) : Rated (s.writeRaced k a vs) := by
  induction vs generalizing s a with
  | nil => exact hs
  | cons v vs ih =>
    refine ih ?_
    exact hs
theorem rated_writeLine {k a v} (hs : Rated s) : Rated (s.writeLine k a v) := rated_writeRaced hs
theorem ratedOpt_writePlace {k p asid y ver gen v} (hs : Rated s) : RatedOpt (s.writePlace k p asid y ver gen v) :=
  ratedOpt_ite ratedOpt_none <| ratedOpt_some <| rated_ite (rated_uncover <| rated_writeLine <| rated_spoil hs) <| rated_setStamp <|
    rated_writeLine <| rated_spoil hs
theorem rated_meetError {p y src} (hs : Rated s) : Rated (s.meetError p y src) := rated_ite hs hs
theorem rated_countRequest {p d y} (hs : Rated s) : Rated (s.countRequest p d y) := rated_modPart (fun _ => rfl) hs

/-! ### The functions of Machine/Hold.lean -/

theorem rated_clearHold {p cause tag} (hs : Rated s) : Rated (s.clearHold p cause tag) := rated_of_torn hs ((Torn.refl s).clearHold ..)
theorem rated_complete {p asid n base log2n index tag status start} (hs : Rated s) :
    Rated (s.complete p asid n base log2n index tag status start) := rated_of_torn hs ((Torn.refl s).complete ..)
theorem rated_unreadBy {p asid base log2n index mets} (hs : Rated s) : Rated (s.unreadBy p asid base log2n index mets) :=
  rated_of_torn hs ((Torn.refl s).unreadBy ..)
theorem rated_saveAt {q b o bs} (hs : Rated s) : Rated (State.saveAt q b s o bs) := rated_of_stored hs (stored_saveAt ..)
theorem rated_putStop {p a r} (hs : Rated s) : Rated (s.putStop p a r) := by
  unfold State.putStop
  dsimp only
  split
  · exact rated_modCtx hs
  · split
    · exact rated_saveAt <| rated_modCtx hs
    · exact rated_ite (rated_uncover <| rated_saveAt <| rated_modCtx hs) <| rated_setStamp <| rated_saveAt <| rated_modCtx hs
theorem rated_haltCore {hal again k} (hs : Rated s) : Rated (s.haltCore hal again k).1 := by
  unfold State.haltCore
  dsimp only
  split
  · exact hs
  · refine rated_fst_ite hs ?_
    split
    · exact hs
    · split
      · exact hs
      · exact hs
theorem rated_newFreeze {p a} (hs : Rated s) : Rated (s.newFreeze p a) :=
  rated_modCtx <| rated_foldl (fun _ _ ht => rated_ite ht ht) hs
theorem rated_haltContext {s0 : State} {p a hal} (hs : Rated s0) : Rated (s0.haltContext p a hal) :=
  rated_modCtx <| rated_modPart (fun _ => rfl) <| rated_foldl (fun _ _ ht => ht) <| rated_foldl (fun _ _ ht => ht) <|
    rated_foldl (fun _ _ ht => rated_putStop <| rated_haltCore ht) <| rated_newFreeze hs
theorem rated_haltAgain {p a hal} (hs : Rated s) : Rated (s.haltAgain p a hal) :=
  rated_modCtx <| rated_foldl (fun _ _ ht => rated_putStop <| rated_haltCore ht) hs
theorem rated_applyHalts {p} (hs : Rated s) : Rated (s.applyHalts p) := by
  unfold State.applyHalts
  refine rated_foldl (fun _ _ ht => ?_) hs
  split
  · exact rated_ite (rated_ite (rated_haltContext ht) <| rated_ite (rated_haltAgain ht) <| rated_modCtx ht) ht
  · exact ht
theorem rated_freezeForSave {p a} (hs : Rated s) : Rated (s.freezeForSave p a) := by
  unfold State.freezeForSave
  split
  · exact rated_ite (rated_later <| rated_foldl (fun _ _ ht => ht) <| rated_foldl (fun _ _ ht => rated_putStop ht) <|
      rated_newFreeze hs) hs
  · exact hs
theorem ratedOut_execHoldRequest {p cause} (hs : Rated s) : RatedOut (execHoldRequest p cause s) := ratedOut_ite (rated_raiseHold hs) hs
theorem ratedOut_execHoldTakesEffect {p} (hs : Rated s) : RatedOut (execHoldTakesEffect p s) :=
  ratedOut_ite hs <| rated_ite (rated_within <| rated_foldl (fun _ _ ht => rated_freezeForSave ht) <| rated_applyHalts <| rated_withCores <|
    rated_modPart (fun _ => rfl) hs) <| rated_foldl (fun _ _ ht => rated_freezeForSave ht) <| rated_applyHalts <| rated_withCores <|
    rated_modPart (fun _ => rfl) hs
theorem ratedOut_execHoldResume {p} (hs : Rated s) : RatedOut (execHoldResume p s) := by
  unfold execHoldResume
  dsimp only
  split
  · refine ratedOut_ite (rated_withCores <| rated_modPart_of hs fun q hq => ⟨?_, hq.2⟩) hs
    dsimp only
    split
    · exact hq.2
    · exact hq.1
  · exact hs
theorem rated_acceptResume {p a P} (hs : Rated s) : Rated (s.acceptResume p a P) := by
  unfold State.acceptResume
  dsimp only
  split
  · exact rated_ite (rated_modCtx hs) <| rated_raiseHoldAt <| rated_modCtx hs
  · exact rated_modCtx hs
theorem ratedOut_execContextReissue {p asid} (hs : Rated s) : RatedOut (execContextReissue p asid s) := by
  unfold execContextReissue
  split
  · refine ratedOut_ite ?_ hs
    extract_lets -underBinder +onlyGivenNames s1
    have h1 : Rated s1 := rated_foldl (fun _ _ ht => rated_ite ht ht) hs
    exact rated_ite (rated_modCtx h1) h1
  · exact hs
theorem rated_teardown {p a} (hs : Rated s) : Rated (s.teardown p a) := rated_of_torn hs ((Torn.refl s).teardown ..)
theorem rated_resumeHalted {p a P} (hs : Rated s) : Rated (s.resumeHalted p a P) := rated_ite (rated_teardown hs) <| rated_acceptResume hs
theorem ratedOut_execStationmasterResume {p asid} (hs : Rated s) : RatedOut (execStationmasterResume p asid s) := by
  unfold execStationmasterResume
  split
  · exact rated_ite (rated_resumeHalted hs) hs
  · exact hs
theorem rated_dueActions {p a k} (hs : Rated s) : Rated (s.dueActions p a k).1 := rated_foldl (fun _ _ ht => rated_appendEvent ht) hs
theorem rated_stopAction {p a r} (hs : Rated s) : Rated (s.stopAction p a r).1 := by
  unfold State.stopAction
  refine rated_fst_ite ?_ hs
  refine rated_fst_ite hs ?_
  extract_lets -underBinder +onlyGivenNames s1
  have h1 : Rated s1 := rated_appendEvent hs
  refine rated_fst_ite ?_ h1
  split
  · exact rated_fst_ite (rated_modCtx h1) h1
  · exact h1
theorem rated_haltActions {p a x} (hs : Rated s) : Rated (s.haltActions p a x) := by
  unfold State.haltActions
  extract_lets -underBinder +onlyGivenNames _ _ _ _ _ s1
  have h1 : Rated s1 := rated_modCtx <| rated_fst_foldl (fun _ _ ht => rated_dueActions ht) <| rated_fst_foldl (fun _ _ ht => rated_stopAction ht) hs
  exact rated_ite h1 <| rated_ite (rated_teardown h1) <| rated_ite h1 <| rated_ite h1 h1
theorem ratedOut_execFaultActionsComplete {p} (hs : Rated s) : RatedOut (execFaultActionsComplete p s) :=
  rated_modPart (fun _ => rfl) <| rated_foldl (fun _ _ ht => rated_ite (rated_haltActions ht) ht) hs
theorem rated_laterFault {k e d} (hs : Rated s) : Rated (s.laterFault k e d) := rated_of_torn hs ((Torn.refl s).laterFault ..)
theorem ratedOut_execRateChangeEffect {p} (hs : Rated s) : RatedOut (execRateChangeEffect p s) :=
  ratedOut_ite (rated_modPart_of hs fun _ hq => ⟨hq.2, hq.2⟩) hs
/-- The governor moves the announced rate by one at most, within the bounds. -/
theorem rateOk_govern {q : Part} {w total limits hot} (hq : RateOk q) : RateOk (q.govern w total limits hot) := by
  obtain ⟨hrate, hlow, hhigh⟩ := hq
  refine ⟨(govern_keeps q w total limits hot).1.symm ▸ hrate, ?_⟩
  unfold Part.govern Part.announce
  dsimp only
  repeat' split
  all_goals
    dsimp only
    omega
theorem ratedOut_execGovernorWindow {watts g} (hs : Rated s) : RatedOut (execGovernorWindow watts g s) := by
  rw [← exec_governorWindow]
  by_cases hw : s.wtime % 16384 = 0
  · obtain ⟨_, _, h⟩ := governorWindow_end watts g hw
    rw [h]
    exact rated_mapParts hs rfl (fun _ => rfl) fun _ he => rateOk_govern he
  · rw [governorWindow_within watts g hw]
    exact rated_mapParts hs rfl (fun _ => rfl) fun _ he => he
theorem ratedOut_execServoMeasurement {off} (hs : Rated s) : RatedOut (execServoMeasurement off s) := by
  unfold execServoMeasurement
  dsimp only
  split
  · exact ratedOut_ite (ratedOut_ite hs hs) hs
  · exact hs
  · exact hs
theorem ratedOut_execServoSourceLost (hs : Rated s) : RatedOut (execServoSourceLost s) := by
  unfold execServoSourceLost
  dsimp only
  split
  · exact hs
  · exact hs
  · exact hs
theorem ratedOut_execDebugStopRequest {k} (hs : Rated s) : RatedOut (execDebugStopRequest k s) := ratedOut_ite (rated_haltAt hs) hs

/-! ### The functions of Machine/LoadStore.lean -/

theorem ratedOut_loadOp {g n sx d a i} (hs : Rated s) : RatedOut (loadOp g n sx d a i s) := ratedOut_slotTry hs
theorem ratedOut_storeOp {g n d a i} (hs : Rated s) : RatedOut (storeOp g n d a i s) := ratedOut_slotTry hs
theorem ratedOut_amoOp {g f d a b w} (hs : Rated s) : RatedOut (amoOp g f d a b w s) := by
  unfold amoOp
  exact ratedOut_slotTry hs
theorem ratedOut_rowOp {g occ eu n span rows pre} (hs : Rated s) : RatedOut (rowOp g occ eu n span rows pre s) := by
  unfold rowOp
  refine ratedOut_ite (rated_trapHere hs) ?_
  refine ratedOut_ite ?_ hs
  split
  · exact rated_trapHere hs
  · exact hs
theorem ratedOut_vldOp {g f6 d at'} (hs : Rated s) : RatedOut (vldOp g f6 d at' s) := ratedOut_rowOp hs
theorem ratedOut_vstOp {g f6 d at'} (hs : Rated s) : RatedOut (vstOp g f6 d at' s) := ratedOut_rowOp hs

/-! ### The functions of Machine/CopyOps.lean -/

theorem rated_modCopy {k st id f} (hs : Rated s) : Rated (s.modCopy k st id f) := hs
theorem ratedOut_copyOp {g ask eu} (hs : Rated s) : RatedOut (copyOp g ask eu s) := by
  unfold copyOp
  refine ratedOut_ite ?_ hs
  dsimp only
  split
  · exact rated_trapHere hs
  · exact hs
theorem rated_copyFaultAt {k st id b cause info e runs} (hs : Rated s) : Rated (s.copyFaultAt k st id b cause info e runs) :=
  rated_of_torn hs ((Torn.refl s).copyFaultAt ..)
theorem rated_readIndex {k st id n} (hs : Rated s) : Rated (s.readIndex k st id n) := by
  unfold State.readIndex
  split
  · exact hs
  · refine rated_ite hs ?_
    dsimp only
    split
    · exact hs
    · exact hs
theorem rated_needIndex {k st id b} (hs : Rated s) : Rated (s.needIndex k st id b) := by
  unfold State.needIndex
  split
  · exact rated_ite hs <| rated_readIndex hs
  · exact hs
theorem rated_readBeat {k st id b} (hs : Rated s) : Rated (s.readBeat k st id b) := by
  unfold State.readBeat
  extract_lets -underBinder +onlyGivenNames s
  have h : Rated s := rated_needIndex hs
  extract_lets -underBinder +onlyGivenNames _
  split
  · exact h
  · refine rated_ite h ?_
    split
    · extract_lets -underBinder +onlyGivenNames _ key _ s0
      have h0 : Rated s0 := by
        unfold s0 key
        split
        · exact h
        · exact h
      extract_lets -underBinder +onlyGivenNames _ s2
      have h2 : Rated s2 := by
        unfold s2
        split
        · exact rated_countRequest h0
        · exact h0
      extract_lets -underBinder +onlyGivenNames s3
      have h3 : Rated s3 := rated_ite h2 h2
      refine rated_ite ?_ h3
      split
      · exact h3
      · exact h3
    · refine rated_later ?_
      refine rated_modCopy ?_
      split
      · exact rated_ite (rated_meetError <| rated_countRequest h) h
      · exact h
theorem rated_endLookup {k st id b dst e va at'} (hs : Rated s) : Rated (s.endLookup k st id b dst e va at') := by
  unfold State.endLookup
  refine rated_ite ?_ (rated_copyFaultAt hs)
  split
  · exact rated_copyFaultAt hs
  · exact rated_ite hs <| rated_copyFaultAt hs
theorem rated_putPlace {k st id b dst pl} (hs : Rated s) : Rated (s.putPlace k st id b dst pl) := hs
theorem rated_lookupTensor {s0 : State} {k st id b dst tid va at'} (hs : Rated s0) : Rated (s0.lookupTensor k st id b dst tid va at') := by
  unfold State.lookupTensor
  dsimp only
  split
  · exact rated_copyFaultAt <| rated_pinTensor hs
  · split
    · exact rated_ite (rated_putPlace <| rated_pinTensor hs) <| rated_copyFaultAt <| rated_pinTensor hs
    · exact rated_copyFaultAt <| rated_pinTensor hs
theorem rated_lookup {k st id b dst} (hs : Rated s) : Rated (s.lookup k st id b dst) := by
  unfold State.lookup
  extract_lets -underBinder +onlyGivenNames s
  have h : Rated s := rated_needIndex hs
  dsimp only
  split
  · exact h
  · split
    · exact rated_lookupTensor h
    · refine rated_ite (rated_copyFaultAt h) ?_
      refine rated_ite (rated_modPart (fun _ => rfl) <| rated_raiseHoldAt h) ?_
      split
      · exact rated_endLookup h
      · exact rated_later <| rated_raiseHoldAt h
theorem rated_walkEnd {k st id b dst} (hs : Rated s) : Rated (s.walkEnd k st id b dst) := by
  unfold State.walkEnd
  dsimp only
  split
  · exact hs
  · split
    · exact rated_copyFaultAt hs
    · exact rated_endLookup <| rated_ite hs hs
theorem rated_walkMate {k st e w} (hs : Rated s) : Rated (State.walkMate k st e s w) := by
  unfold State.walkMate
  dsimp only
  split
  · exact hs
  · exact rated_endLookup hs
theorem rated_closeReads {k t} (hs : Rated s) : Rated (s.closeReads k t) := by
  unfold State.closeReads
  refine rated_foldl (fun _ _ ht => ?_) hs
  dsimp only
  split
  · exact rated_ite (rated_readIndex ht) ht
  · exact rated_ite ht ht
  · exact rated_ite (rated_readBeat ht) ht
  · exact ht
theorem rated_countLine {p pd tid} (hs : Rated s) : Rated (s.countLine p pd tid) := rated_ite (rated_setVrec hs) hs
theorem rated_writeDest {k st y b v} (hs : Rated s) : Rated (s.writeDest k st y b v) := by
  unfold State.writeDest
  dsimp only
  split
  · split
    · exact rated_writeLine hs
    · exact hs
  · split
    · exact rated_writeLine hs
    · exact hs
  · split
    · exact hs
    · split
      · exact rated_copyFaultAt hs
      · split
        · exact rated_copyFaultAt hs
        · rename_i heq
          have ht1 := rated_of_some (ratedOpt_writePlace hs) heq
          exact rated_countRequest <| rated_countLine ht1
  · split
    · exact hs
    · refine rated_ite (rated_copyFaultAt hs) ?_
      split
      · exact rated_copyFaultAt hs
      · rename_i heq
        have ht1 := rated_of_some (ratedOpt_writePlace hs) heq
        exact rated_countRequest <| rated_ite ht1 <| rated_countLine ht1
  · exact hs
  · exact hs

/-! ### The functions of Machine/Tensor.lean -/

theorem rated_freezeCount {pd tid f} (hs : Rated s) : Rated (s.freezeCount pd tid f) := rated_ite hs hs
theorem ratedOut_tensorOp {g op tidx eu} (hs : Rated s) : RatedOut (tensorOp g op tidx eu s) := by
  unfold tensorOp
  refine ratedOut_ite ?_ hs
  dsimp only
  split
  · exact rated_trapHere hs
  · exact ratedOut_ite (rated_freezeCount hs) hs
theorem rated_faultReads {p asid tid} (hs : Rated s) : Rated (s.faultReads p asid tid) := by
  unfold State.faultReads
  refine rated_foldl (fun _ _ ht => ?_) hs
  refine rated_foldl (fun _ _ hu => ?_) ht
  refine rated_foldl (fun _ _ hv => ?_) hu
  split
  · exact hv
  · exact rated_modCopy <| rated_copyFaultAt hv
theorem rated_openEpoch {p b} (hs : Rated s) : Rated (s.openEpoch p b) := rated_faultReads <| rated_modPart (fun _ => rfl) <| rated_setVrec hs
theorem rated_commitEpoch {p b} (hs : Rated s) : Rated (s.commitEpoch p b) := rated_setVrec hs
theorem rated_effectFault {k st e tid} (hs : Rated s) : Rated (s.effectFault k st e tid) := rated_ite (rated_laterFault hs) <| rated_appendEvent hs
theorem ratedOut_tensorEffect {k st id op ok act} (hact : ∀ x y z w, Rated x → Rated (act x y z w)) (hs : Rated s) :
    RatedOut (tensorEffect k st id op ok act s) := by
  unfold tensorEffect
  split
  · exact hs
  · refine ratedOut_ite hs ?_
    dsimp only
    split
    · exact rated_effectFault hs
    · exact ratedOut_ite (hact _ _ _ _ hs) <| rated_effectFault hs
theorem ratedOut_execTbumpEffect {k st id} (hs : Rated s) : RatedOut (execTbumpEffect k st id s) :=
  ratedOut_tensorEffect (fun _ _ _ _ ht => rated_openEpoch ht) hs
theorem ratedOut_execTcommitEffect {k st id} (hs : Rated s) : RatedOut (execTcommitEffect k st id s) := by
  unfold execTcommitEffect
  dsimp only
  split
  · exact hs
  · refine ratedOut_tensorEffect (fun _ _ _ _ ht => rated_ite (rated_effectFault <| rated_commitEpoch ht) <| rated_commitEpoch ht) ?_
    split
    · exact rated_freezeCount hs
    · exact hs
theorem ratedOut_execTdigEffect {k st id} (hs : Rated s) : RatedOut (execTdigEffect k st id s) :=
  ratedOut_tensorEffect (fun _ _ _ _ ht => rated_modPart (fun _ => rfl) ht) hs
theorem rated_rotate {p} (hs : Rated s) : Rated (s.rotate p) :=
  rated_foldl (fun _ _ ht => rated_ite ht <| rated_setVrec ht) <| rated_modPart (fun _ => rfl) hs
theorem ratedOut_execKrotEffect {k st id} (hs : Rated s) : RatedOut (execKrotEffect k st id s) := by
  unfold execKrotEffect
  split
  · exact hs
  · exact ratedOut_ite hs <| ratedOut_ite hs <| ratedOut_ite (rated_effectFault hs) <| rated_modPart (fun _ => rfl) <| rated_rotate <|
      hs

/-! ### The functions of Machine/Seal.lean -/

theorem ratedOut_sealOp {g kd a} (hs : Rated s) : RatedOut (sealOp g kd a s) :=
  ratedOut_ite (ratedOut_ite (rated_trapHere hs) <| ratedOut_ite (rated_trapHere hs) hs) hs
theorem rated_startOutputs {k st old new first} (hs : Rated s) : Rated (s.startOutputs k st old new first) :=
  rated_ite (rated_foldl (fun _ _ ht => ht) hs) hs
theorem ratedOut_execSealDescriptorCheck {k st id} (hs : Rated s) : RatedOut (execSealDescriptorCheck k st id s) := by
  unfold execSealDescriptorCheck
  extract_lets -underBinder +onlyGivenNames _
  split
  · exact hs
  · refine ratedOut_ite hs ?_
    extract_lets -underBinder +onlyGivenNames _ _ s1
    have h1 : Rated s1 := hs
    split
    · exact rated_copyFaultAt h1
    · exact rated_startOutputs h1
theorem rated_releaseSealed {k st y b} (hs : Rated s) : Rated (s.releaseSealed k st y b) := by
  unfold State.releaseSealed
  refine rated_ite ?_ ?_
  · split
    · exact rated_writeRaced hs
    · exact hs
  · split
    · exact rated_writeDest hs
    · exact rated_ite (rated_writeDest hs) hs
    · split
      · exact rated_writeDest hs
      · extract_lets -underBinder +onlyGivenNames s1
        have h1 : Rated s1 := rated_ite (rated_openEpoch hs) hs
        exact rated_ite (rated_commitEpoch <| rated_writeDest <| rated_ite h1 h1) <| rated_writeDest <|
          rated_ite h1 h1

/-! ### The functions of Machine/Wire.lean -/

theorem rated_overAttach {a f} (hs : Rated s) : Rated (s.overAttach a f) := by
  unfold State.overAttach
  split
  · exact hs
  · exact hs
theorem rated_carry {p a b kind space sel off tick v} (hs : Rated s) : Rated (s.carry p a b kind space sel off tick v) := by
  unfold State.carry
  dsimp only
  split
  · exact hs
  · exact rated_modPart (fun _ => rfl) <| rated_overAttach hs
theorem ratedOpt_crossBy {c y b ps v} (hs : Rated s) : RatedOpt (s.crossBy c y b ps v) :=
  ratedOpt_ite ratedOpt_none <| ratedOpt_some <| rated_foldl (fun _ _ ht => rated_carry ht) hs
theorem ratedOpt_cross {k c st y b} (hs : Rated s) : RatedOpt (s.cross k c st y b) := ratedOpt_crossBy hs
theorem ratedOpt_crossOut {k c st y b} (hs : Rated s) : RatedOpt (s.crossOut k c st y b) := ratedOpt_crossBy hs
theorem ratedOpt_crossWalk {k va tick} (hs : Rated s) : RatedOpt (s.crossWalk k va tick) :=
  ratedOpt_ite ratedOpt_none <| ratedOpt_some <| rated_foldl (fun _ _ ht => rated_carry ht) hs
theorem ratedOpt_queueOut {k c st y b} (hs : Rated s) : RatedOpt (s.queueOut k c st y b) := ratedOpt_map fun _ => rated_ite hs <| rated_carry hs
theorem rated_refuseOut {o} (hs : Rated s) : Rated (s.refuseOut o) := rated_of_torn hs ((Torn.refl s).refuseOut ..)
theorem rated_putPeer {p i kind sel off tick v} (hs : Rated s) : Rated (s.putPeer p i kind sel off tick v) := by
  unfold State.putPeer
  dsimp only
  split
  · exact hs
  · exact hs
theorem rated_sendOut {o} (hs : Rated s) : Rated (s.sendOut o) := rated_ite (rated_putPeer hs) <| rated_refuseOut hs
theorem rated_servePort {n} (hs : Rated s) : Rated (s.servePort n) := by
  unfold State.servePort
  refine rated_ite ?_ hs
  dsimp only
  split
  · exact rated_sendOut hs
  · exact hs
theorem rated_servePorts (hs : Rated s) : Rated s.servePorts := rated_ite hs <| rated_foldl (fun _ _ ht => rated_servePort ht) hs
theorem rated_refusePeer {p i sel off tick} (hs : Rated s) : Rated (s.refusePeer p i sel off tick) := rated_putPeer hs
theorem rated_holdForPeer {p i} (hs : Rated s) : Rated (s.holdForPeer p i) := by
  unfold State.holdForPeer
  split
  · exact rated_ite (rated_modCtx <| rated_modPart (fun _ => rfl) <| rated_raiseHoldAt hs) hs
  · exact hs
theorem rated_unawait {p gone} (hs : Rated s) : Rated (s.unawait p gone) :=
  rated_modPart (fun _ => rfl) <| rated_foldl (fun _ _ ht => rated_clearHold ht) hs

end

end Sys2Proof.Proofs
end

section
/-! PROOFS. Every step keeps the rates of the partitions (O60): beats, barriers, control, the matrix units, banks, contexts, queues and launches. -/
namespace Sys2Proof.Proofs
open Sys2Proof.Machine Sys2Proof.Laws

section
variable {s : State}

/-! ### The functions of Machine/Copy.lean -/

theorem ratedOut_execBeatSourceRead {k st id b} (hs : Rated s) : RatedOut (execBeatSourceRead k st id b s) := rated_readBeat hs
theorem ratedOut_execIndexEntryRead {k st id n} (hs : Rated s) : RatedOut (execIndexEntryRead k st id n s) := rated_readIndex hs
theorem ratedOut_execCplSourceRead {k st id b} (hs : Rated s) : RatedOut (execCplSourceRead k st id b s) := rated_readBeat hs
theorem ratedOut_execSendBeatRead {k st id b} (hs : Rated s) : RatedOut (execSendBeatRead k st id b s) := rated_readBeat hs
theorem ratedOut_execCplDestWrite {k st id b} (hs : Rated s) : RatedOut (execCplDestWrite k st id b s) := by
  unfold execCplDestWrite
  split
  · split
    · exact rated_modCore <| rated_writeDest hs
    · exact hs
  · exact hs
theorem ratedOut_execMessageArrival {k st id} (hs : Rated s) : RatedOut (execMessageArrival k st id s) := by
  unfold execMessageArrival
  dsimp only
  split
  · exact hs
  · exact ratedOut_ite hs <| ratedOut_ite hs hs
theorem rated_releaseInbound {p id} (hs : Rated s) : Rated (s.releaseInbound p id) := by
  unfold State.releaseInbound
  extract_lets -underBinder +onlyGivenNames _
  split
  · exact hs
  · extract_lets -underBinder +onlyGivenNames s1 _ refuse
    have h1 : Rated s1 := rated_modPart (fun _ => rfl) hs
    have hrefuse : Rated refuse := rated_refusePeer h1
    split
    · exact hrefuse
    · refine rated_ite ?_ hrefuse
      split
      · exact hrefuse
      · split
        · exact hrefuse
        · rename_i heq
          exact rated_countLine <| rated_of_some (ratedOpt_writePlace h1) heq
theorem rated_release {k st y b} (hs : Rated s) : Rated (s.release k st y b) := by
  unfold State.release
  refine rated_ite hs ?_
  split
  · split
    · exact rated_writeDest hs
    · exact hs
  · exact rated_writeDest hs
  · exact rated_ite (rated_releaseSealed hs) hs
  · exact rated_ite (rated_releaseSealed hs) hs
  · exact rated_ite (rated_releaseSealed hs) hs
  · exact hs
theorem ratedOut_execBeatRelease {k st id b} (hs : Rated s) : RatedOut (execBeatRelease k st id b s) := by
  unfold execBeatRelease
  refine ratedOut_ite (rated_releaseInbound hs) ?_
  dsimp only
  split
  · exact rated_release <| rated_needIndex hs
  · exact rated_needIndex hs
theorem ratedOut_execLateBeatCheck {k st id b} (hs : Rated s) : RatedOut (execLateBeatCheck k st id b s) := by
  unfold execLateBeatCheck
  refine ratedOut_ite (rated_holdForPeer hs) ?_
  split
  · exact hs
  · exact ratedOut_ite hs <| ratedOut_ite (rated_copyFaultAt <| rated_modCtx hs) <| rated_raiseHold <| rated_modCtx hs
theorem rated_releaseOverdue {k st id b} (hs : Rated s) : Rated (s.releaseOverdue k st id b) := by
  unfold State.releaseOverdue
  split
  · exact rated_ite (rated_ite hs <| rated_release hs) hs
  · exact hs
theorem rated_nowPresent {k st id bs} (hs : Rated s) : Rated (s.nowPresent k st id bs) :=
  rated_foldl (fun _ _ ht => rated_releaseOverdue <| rated_clearHold ht) hs
theorem rated_outputCrosses {k st y b} (hs : Rated s) : Rated (s.outputCrosses k st y b) := by
  unfold State.outputCrosses
  refine rated_ite hs ?_
  refine rated_ite (rated_nowPresent hs) ?_
  split
  · exact hs
  · rename_i heq
    have ht1 := rated_of_some (ratedOpt_crossOut hs) heq
    exact rated_nowPresent ht1
theorem rated_placed {k st id b dst} (hs : Rated s) : Rated (s.placed k st id b dst) := by
  unfold State.placed
  dsimp only
  split
  · exact hs
  · exact rated_ite (rated_outputCrosses hs) hs
theorem ratedOut_execBeatPresent {k st id b} (hs : Rated s) : RatedOut (execBeatPresent k st id b s) := by
  unfold execBeatPresent
  dsimp only
  split
  · exact hs
  · refine ratedOut_ite (rated_outputCrosses hs) ?_
    refine ratedOut_ite hs ?_
    refine ratedOut_ite (rated_copyFaultAt hs) ?_
    split
    · exact hs
    · rename_i heq
      have ht := rated_of_some (ratedOpt_ite (ratedOpt_some hs) <|
        ratedOpt_bind_of (ratedOpt_cross hs) fun _ hu => ratedOpt_ite (ratedOpt_queueOut hu) (ratedOpt_some hu)) heq
      exact rated_nowPresent <| rated_startOutputs ht
theorem ratedOut_execCopyFault {k st id b cause info} (hs : Rated s) : RatedOut (execCopyFault k st id b cause info s) := by
  unfold execCopyFault
  refine ratedOut_ite hs ?_
  split
  · exact rated_foldl (fun _ _ ht => rated_clearHold ht) <| rated_copyFaultAt hs
  · exact rated_copyFaultAt hs
theorem ratedOut_execWportBeatConsume {k st b} (hs : Rated s) : RatedOut (execWportBeatConsume k st b s) := by
  unfold execWportBeatConsume
  dsimp only
  split
  · exact hs
  · exact hs
theorem ratedOut_execVirtLookup {k st id b dst} (hs : Rated s) : RatedOut (execVirtLookup k st id b dst s) := rated_placed <| rated_lookup hs
theorem ratedOut_execWalkComplete {k st id b dst} (hs : Rated s) : RatedOut (execWalkComplete k st id b dst s) := by
  unfold execWalkComplete
  dsimp only
  split
  · exact hs
  · rename_i heq
    have ht1 := rated_of_some (ratedOpt_crossWalk hs) heq
    split
    · exact rated_placed <| rated_clearHold <| rated_walkEnd ht1
    · exact rated_foldl (fun _ _ hu => rated_placed <| rated_clearHold <| rated_walkMate hu) <| rated_placed <| rated_clearHold <| rated_walkEnd ht1

/-! ### The functions of Machine/Barrier.lean -/

theorem rated_setBarriers {p n} (hs : Rated s) : Rated (setBarriers s p n) := rated_modLaunch hs
theorem rated_arrive {scope wait} (hs : Rated s) : Rated (s.arrive scope wait) := rated_modLaunch hs
theorem ratedOut_barrierOp {g wait chk scope} (hs : Rated s) : RatedOut (barrierOp g wait chk scope s) := by
  unfold barrierOp
  refine ratedOut_ite ?_ hs
  split
  · exact hs
  · exact ratedOut_ite (rated_arrive hs) <| rated_trapHere hs
theorem ratedOut_bstatOp {g d chk scope} (hs : Rated s) : RatedOut (bstatOp g d chk scope s) := by
  unfold bstatOp
  refine ratedOut_ite ?_ hs
  split
  · exact hs
  · exact ratedOut_ite hs <| rated_trapHere hs
theorem rated_endWait {l scope n r k} (hs : Rated s) : Rated (s.endWait l scope n r k) := rated_ite hs hs
theorem ratedOut_execBarrierComplete {p l scope n} (hs : Rated s) : RatedOut (execBarrierComplete p l scope n s) := by
  unfold execBarrierComplete
  split
  · exact hs
  · split
    · exact hs
    · exact rated_foldl (fun _ _ ht => rated_endWait ht) <| rated_modLaunch hs
theorem ratedOut_execWaitBudgetExhausted {k} (hs : Rated s) : RatedOut (execWaitBudgetExhausted k s) := by
  unfold execWaitBudgetExhausted
  dsimp only
  split
  · exact ratedOut_ite (rated_raiseHalt hs) hs
  · exact hs

/-! ### The functions of Machine/Control.lean -/

theorem ratedOut_mbrOp {g sel} (hs : Rated s) : RatedOut (mbrOp g sel s) := ratedOut_slotTry hs
theorem ratedOut_execNxt {g} (hs : Rated s) : RatedOut (execNxt g s) := ratedOut_ite (rated_modLaunch hs) hs
theorem ratedOut_execNxtDelivery {k} (hs : Rated s) : RatedOut (execNxtDelivery k s) := hs
theorem rated_releaseLease {k} (hs : Rated s) : Rated (s.releaseLease k) := rated_ite hs <| rated_ite hs hs
theorem ratedOut_execExit {g} (hs : Rated s) : RatedOut (execExit g s) := by
  unfold execExit
  refine ratedOut_ite ?_ hs
  dsimp only
  split
  · exact rated_releaseLease hs
  · exact rated_releaseLease <| rated_arrive hs
theorem ratedOut_execYield {g} (hs : Rated s) : RatedOut (execYield g s) := ratedOut_ite (rated_modCtx hs) hs

/-! ### The functions of Machine/Matrix.lean -/

theorem ratedOut_cmdOp {g op} (hs : Rated s) : RatedOut (cmdOp g op s) := by
  unfold cmdOp
  refine ratedOut_ite ?_ hs
  refine ratedOut_ite (rated_trapHere hs) ?_
  split
  · exact rated_trapHere hs
  · exact hs
theorem ratedOut_execMrel {g} (hs : Rated s) : RatedOut (execMrel g s) := ratedOut_ite (rated_releaseLease hs) hs
theorem ratedOut_execLeaseEnd {u} (hs : Rated s) : RatedOut (execLeaseEnd u s) := ratedOut_ite hs hs
theorem ratedOut_execLeaseTurnEnd {u} (hs : Rated s) : RatedOut (execLeaseTurnEnd u s) := ratedOut_ite hs hs
theorem ratedOut_execLeaseGrant {u} (hs : Rated s) : RatedOut (execLeaseGrant u s) := by
  unfold execLeaseGrant
  refine ratedOut_ite ?_ hs
  split
  · exact hs
  · exact hs
theorem ratedOut_execMatrixCommandSwap {k} (hs : Rated s) : RatedOut (execMatrixCommandSwap k s) := by
  unfold execMatrixCommandSwap
  dsimp only
  split
  · exact hs
  · exact hs
theorem rated_weightLine {k r last} (hs : Rated s) : Rated (s.weightLine k r last) := rated_ite hs hs
theorem rated_sampleMatrix {k} (hs : Rated s) : Rated (s.sampleMatrix k) :=
  rated_ite (rated_foldl (fun _ _ ht => ht) hs) hs
theorem ratedOut_execMatrixCommandComplete {k} (hs : Rated s) : RatedOut (execMatrixCommandComplete k s) := hs

/-! ### The functions of Machine/Bank.lean -/

theorem rated_askBanks {k} (hs : Rated s) : Rated (s.askBanks k) := rated_ite hs hs
theorem rated_perform {j r} (hs : Rated s) : Rated (s.perform j r) := by
  unfold State.perform
  extract_lets -underBinder +onlyGivenNames _ _ _ _ _ _ _ s1
  have h1 : Rated s1 := hs
  extract_lets -underBinder +onlyGivenNames s2
  have h2 : Rated s2 := by
    unfold s2
    split
    · exact h1
    · exact rated_writeRaced h1
    · exact h1
    · exact rated_writeRaced h1
    · exact rated_writeRaced h1
    · exact rated_writeRaced h1
    · exact rated_weightLine h1
    · exact rated_ite h1 h1
    · exact rated_readBeat h1
    · exact rated_readIndex h1
    · exact h1
    · exact rated_writeRaced h1
  extract_lets -underBinder +onlyGivenNames s3
  have h3 : Rated s3 := rated_ite h2 h2
  exact rated_ite (rated_ite h3 h3) <| rated_see <| rated_ite h3 h3
theorem rated_performOne {e} (hs : Rated s) : Rated (s.performOne e) := rated_perform hs
theorem rated_performOwed {k n} (hs : Rated s) : Rated (State.performOwed k n s) := by
  induction n generalizing s with
  | zero => exact hs
  | succ n ih =>
    unfold State.performOwed
    split
    · exact ih (rated_performOne hs)
    · exact hs
theorem ratedOut_execBankAccessPerform {k} (hs : Rated s) : RatedOut (execBankAccessPerform k s) :=
  rated_performOwed <| rated_foldl (fun _ _ ht => rated_performOne ht) <| rated_askBanks <| rated_ite (rated_sampleMatrix hs) hs
theorem ratedOut_execBundleIssue {k} (hs : Rated s) : RatedOut (execBundleIssue k s) := by
  unfold execBundleIssue
  refine ratedOut_ite hs ?_
  split
  · exact rated_raiseHalt hs
  · exact ratedOut_ite hs <| ratedOut_ite hs <| ratedOut_ite (rated_takeTrap hs) <| ratedOut_ite (rated_takeTrap <|
      hs) hs
theorem ratedOut_execWaitEnd {k} (hs : Rated s) : RatedOut (execWaitEnd k s) := by
  unfold execWaitEnd
  dsimp only
  split
  · exact rated_ite hs hs
  · exact hs

/-! ### The functions of Machine/Context.lean -/

theorem rated_writeCcb {p a x st} (hs : Rated s) : Rated (s.writeCcb p a x st) :=
  rated_ite hs <| rated_devStore <| rated_devStore <| rated_devStore <| rated_devStore hs
theorem rated_ctxComplete {p tag status asid} (hs : Rated s) : Rated (s.ctxComplete p tag status asid) := rated_modPart (fun _ => rfl) hs
theorem ratedOut_ctxCommand {p cmd rec argOk f} (hf : ∀ x, Rated (f x)) (hs : Rated s) : RatedOut (ctxCommand p cmd rec argOk f s) :=
  rated_withPart hs (fun _ => rated_ite hs <| rated_ite (rated_ctxComplete hs) <| hf _)
theorem ratedOut_execCreate {p rec} (hs : Rated s) : RatedOut (execCreate p rec s) := by
  unfold execCreate
  refine ratedOut_ctxCommand (fun _ => ?_) hs
  refine rated_ite (rated_ctxComplete hs) ?_
  refine rated_ite (rated_ctxComplete hs) ?_
  split
  · exact rated_ctxComplete hs
  · dsimp only
    split
    · exact rated_ctxComplete <| rated_meetRecord hs
    · exact rated_later <| rated_modPart (fun _ => rfl) <| rated_meetRecord hs
theorem ratedOut_execContextCreateComplete {p asid} (hs : Rated s) : RatedOut (execContextCreateComplete p asid s) := by
  unfold execContextCreateComplete
  split
  · exact hs
  · exact ratedOut_ite hs <| ratedOut_ite (rated_ctxComplete <| rated_modCtx <| rated_pinTensor hs) <| rated_ctxComplete <|
      rated_modPart (fun _ => rfl) <|
      rated_writeCcb hs
theorem ratedOut_execPolicy {p rec} (hs : Rated s) : RatedOut (execPolicy p rec s) := by
  unfold execPolicy
  refine ratedOut_ctxCommand (fun _ => ?_) hs
  split
  · exact rated_ctxComplete hs
  · refine rated_ite ?_ (rated_ctxComplete hs)
    dsimp only
    split
    · exact rated_ctxComplete <| rated_meetRecord hs
    · exact rated_ctxComplete <| rated_modCtx <| rated_meetRecord hs
theorem ratedOut_execDestroy {p rec} (hs : Rated s) : RatedOut (execDestroy p rec s) := by
  unfold execDestroy
  refine ratedOut_ctxCommand (fun _ => ?_) hs
  split
  · exact rated_ctxComplete hs
  · exact rated_ite (rated_ctxComplete <| rated_teardown hs) <| rated_ctxComplete hs
theorem ratedOut_execPreempt {p rec} (hs : Rated s) : RatedOut (execPreempt p rec s) := by
  unfold execPreempt
  refine ratedOut_ctxCommand (fun _ => ?_) hs
  split
  · exact rated_ctxComplete hs
  · exact rated_ite (rated_ctxComplete <| rated_modCtx hs) <| rated_ite (rated_ctxComplete <| rated_later <| rated_modCtx hs) <| rated_ctxComplete hs
theorem ratedOut_execPreemptBoundary {p asid} (hs : Rated s) : RatedOut (execPreemptBoundary p asid s) := by
  unfold execPreemptBoundary
  split
  · exact hs
  · split
    · exact ratedOut_ite (rated_modCtx <| rated_raiseHold hs) hs
    · exact hs
theorem rated_clearCores {ks} (hs : Rated s) : Rated (s.clearCores ks) := rated_foldl (fun _ _ ht => ht) hs
theorem rated_clearPads {ks} (hs : Rated s) : Rated (s.clearPads ks) := hs
theorem rated_clearBeatHolds {p ks} (hs : Rated s) : Rated (s.clearBeatHolds p ks) := rated_modPart (fun _ => rfl) hs
theorem rated_dropStreamEvents {ks} (hs : Rated s) : Rated (s.dropStreamEvents ks) := hs
theorem rated_saveCore {q b stops k} (hs : Rated s) : Rated (State.saveCore q b stops s k) := by
  unfold State.saveCore
  extract_lets -underBinder +onlyGivenNames c o put s1 s2 s3 prog s4 s5 s6 s7 s8 s9 regs s10 s11
  have hput : ∀ t n len v, Rated t → Rated (put t n len v) := fun _ _ _ _ ht => rated_ite ht (rated_saveAt ht)
  have hprog : ∀ x a t, Rated t → Rated (prog x a t) := fun _ _ _ => rated_foldl fun _ _ => hput _ _ _ _
  have h3 : Rated s3 :=
    rated_foldl (fun _ _ => hput _ _ _ _) <| rated_foldl (fun _ _ => hput _ _ _ _) <| rated_foldl (fun _ _ => hput _ _ _ _) hs
  have h7 : Rated s7 :=
    rated_foldl (fun _ _ => hput _ _ _ _) <| rated_foldl (fun _ _ => hput _ _ _ _) <| rated_foldl (fun _ _ => hput _ _ _ _) <|
      hprog _ _ _ <| hprog _ _ _ h3
  have h11 : Rated s11 :=
    rated_foldl (fun _ _ => hput _ _ _ _) <| rated_foldl (fun _ _ => hput _ _ _ _) <| rated_foldl (fun _ _ => hput _ _ _ _) <| hput _ _ _ _ h7
  split
  · exact hput _ _ _ _ h11
  · exact h11
theorem rated_writeSave {p b stops ks} (hs : Rated s) : Rated (s.writeSave p b stops ks) :=
  rated_modPart (fun _ => rfl) <| rated_setVrec <| rated_foldl (fun _ _ ht => rated_masterBytes ht) <|
    rated_foldl (fun _ _ ht => rated_saveCore ht) <|
    rated_of_parts hs rfl
theorem rated_patrolSave {q b} (hs : Rated s) : Rated (s.patrolSave q b) := rated_ite hs <| rated_foldl (fun _ _ ht => ht) hs
theorem ratedOut_execSaveCommit {s0 : State} {p asid} (hs : Rated s0) : RatedOut (execSaveCommit p asid s0) := by
  unfold execSaveCommit
  dsimp only
  split
  · exact hs
  · refine ratedOut_ite hs ?_
    split
    · exact rated_teardown <| rated_foldl (fun _ _ ht => ht) hs
    · exact rated_clearHold <| rated_foldl (fun _ _ ht => ht) <| rated_clearCores <| rated_clearPads <| rated_clearBeatHolds <|
        rated_dropStreamEvents <| rated_modPart (fun _ => rfl) <| rated_modCtx <| rated_writeSave <| rated_patrolSave <|
        rated_foldl (fun _ _ ht => ht) hs
theorem rated_loadBytes {key vs} (hs : Rated s) : Rated (s.loadBytes key vs) := by
  induction vs generalizing s key with
  | nil => exact hs
  | cons v vs ih => exact ih (rated_ite hs hs)
theorem rated_reload {p ls e} (hs : Rated s) : Rated (State.reload p ls s e) := by
  unfold State.reload
  split
  · exact hs
  · exact rated_loadBytes <| rated_withMem <| rated_meetRecord hs
theorem rated_restore {s0 : State} {p a x} (hs : Rated s0) : Rated (s0.restore p a x) := by
  unfold State.restore
  refine rated_modCtx ?_
  refine rated_foldl (fun _ _ ht => ht) ?_
  refine rated_modPart (fun _ => rfl) ?_
  refine rated_foldl (fun _ _ ht => rated_reload ht) ?_
  refine rated_foldl (fun _ _ ht => ht) ?_
  refine rated_foldl (fun _ _ ht => ht) ?_
  refine rated_foldl (fun _ _ ht => ht) ?_
  refine rated_clearPads ?_
  split
  · exact rated_patrolSave hs
  · exact hs
theorem ratedOut_execResume {p rec} (hs : Rated s) : RatedOut (execResume p rec s) := by
  unfold execResume
  refine ratedOut_ctxCommand (fun _ => ?_) hs
  split
  · exact rated_ctxComplete hs
  · refine rated_ite (rated_ctxComplete hs) ?_
    refine rated_ite (rated_ctxComplete <| rated_resumeHalted hs) ?_
    refine rated_ite (rated_ctxComplete hs) ?_
    refine rated_ite ?_ (rated_ctxComplete <| rated_acceptResume <| rated_restore hs)
    refine rated_ctxComplete ?_
    refine rated_teardown ?_
    split
    · exact rated_patrolSave hs
    · exact hs
theorem ratedOut_execTeardownComplete {p asid} (hs : Rated s) : RatedOut (execTeardownComplete p asid s) := by
  unfold execTeardownComplete
  split
  · exact hs
  · exact ratedOut_ite hs <| rated_laterBy <| rated_modCtx <| rated_foldl (fun _ _ ht => ht) <| rated_clearCores <| rated_clearPads <|
      rated_clearBeatHolds <| rated_dropStreamEvents <| rated_modPart (fun _ => rfl) hs
theorem rated_scrubMemory {asid} (hs : Rated s) : Rated (s.scrubMemory asid) := hs
theorem ratedOut_execContextScrubComplete {p asid} (hs : Rated s) : RatedOut (execContextScrubComplete p asid s) := by
  unfold execContextScrubComplete
  split
  · exact hs
  · refine ratedOut_ite hs ?_
    extract_lets -underBinder +onlyGivenNames _ s2
    have h2 : Rated s2 := rated_foldl (fun _ _ ht => rated_setVrec ht) <| rated_scrubMemory <| rated_writeCcb hs
    clear_value s2
    exact rated_modPart (fun _ => rfl) <| rated_withCores h2

/-! ### The functions of Machine/Queue.lean -/

theorem rated_modQueue {p n f} (hs : Rated s) : Rated (s.modQueue p n f) :=
  rated_modPart_of hs fun q hq => by
    split
    · exact hq
    · exact hq
theorem rated_writeQueue {p n f} (hs : Rated s) : Rated (s.writeQueue p n f) := rated_modQueue hs
theorem rated_selectLater {p n} (hs : Rated s) : Rated (s.selectLater p n) := rated_ite hs hs
theorem rated_enableQueue {p q n cfg} (hs : Rated s) : Rated (s.enableQueue p q n cfg) :=
  rated_ite (rated_ite (rated_selectLater <| rated_writeQueue hs) <| rated_writeQueue hs) <| rated_writeQueue hs
theorem rated_disableQueue {p q n cfg} (hs : Rated s) : Rated (s.disableQueue p q n cfg) := rated_writeQueue hs
theorem rated_writeTail {p n v} (hs : Rated s) : Rated (s.writeTail p n v) := rated_selectLater <| rated_writeQueue hs
theorem ratedOut_execQueueEnable {p n cfg} (hs : Rated s) : RatedOut (execQueueEnable p n cfg s) := rated_withVf hs (fun _ => rated_enableQueue hs)
theorem ratedOut_execQueueDisable {p w} (hs : Rated s) : RatedOut (execQueueDisable p w s) := rated_withVf hs (fun _ => rated_disableQueue hs)
theorem ratedOut_execQtailWrite {p n v} (hs : Rated s) : RatedOut (execQtailWrite p n v s) := rated_withVf hs (fun _ => rated_writeTail hs)
theorem rated_sealCode {q asid image len} (hs : Rated s) : Rated (s.sealCode q asid image len) :=
  rated_foldl (fun _ _ ht => rated_ite ht ht) hs
theorem rated_takeImage {p asid image gw gh} (hs : Rated s) : Rated (s.takeImage p asid image gw gh).1 := by
  unfold State.takeImage
  refine rated_fst_ite hs ?_
  split
  · exact hs
  · extract_lets -underBinder +onlyGivenNames _ _ s1
    have h1 : Rated s1 := rated_meetRecord <| rated_ite (rated_sealCode hs) <| rated_sealCode hs
    refine rated_fst_ite ?_ h1
    split
    · exact h1
    · exact rated_modCtx <| rated_modPart (fun _ => rfl) h1
theorem rated_refuseHead {p n r tag status} (hs : Rated s) : Rated (s.refuseHead p n r tag status) :=
  rated_selectLater <| rated_complete <| rated_modQueue hs
theorem ratedOut_execQueueSelect {p n} (hs : Rated s) : RatedOut (execQueueSelect p n s) := by
  unfold execQueueSelect
  refine ratedOut_ite hs ?_
  refine ratedOut_ite (rated_selectLater hs) ?_
  extract_lets -underBinder +onlyGivenNames _ s
  have h : Rated s := rated_meetRecord hs
  split
  · exact rated_modQueue h
  · refine ratedOut_ite (rated_refuseHead h) ?_
    split
    · exact rated_refuseHead h
    · refine ratedOut_ite (rated_selectLater <| rated_modQueue <| rated_modPart (fun _ => rfl) h) ?_
      split
      · rename_i heq
        have ht1 := rated_of_mk (rated_takeImage h) heq
        exact rated_refuseHead ht1
      · rename_i heq
        have ht1 := rated_of_mk (rated_takeImage h) heq
        exact rated_modQueue <| rated_modPart (fun _ => rfl) ht1
/-- One entry of the declarations, when what binds those after it keeps the bounds. The functions that read memory are made opaque, as in
`canonFst_bindTensors_step`: the kernel would evaluate them to compare the cases of the walk. -/
theorem ratedFst_bindTensors_step {p asid arg i d ds} {b : List.below (motive := fun _ => State → Nat → _) (d :: ds)} (hs : Rated s)
    (hb : ∀ {t j}, Rated t → RatedFst (b.1 t j)) : RatedFst (State.bindTensors._f p asid arg (d :: ds) b s i) := by
  generalize hf : State.bindTensors._f = f
  delta State.bindTensors._f at hf
  subst hf
  beta_reduce
  obtain ⟨read, hread⟩ : ∃ f, f = State.devRecord := ⟨_, rfl⟩
  obtain ⟨pin, hpin⟩ : ∃ f, f = State.pinTensor := ⟨_, rfl⟩
  have hcanon : ∀ n, Rated (pin s p asid n).1 := fun _ => hpin ▸ rated_pinTensor hs
  rw [← hread, ← hpin]
  dsimp only
  split
  · exact ratedFst_none
  · refine ratedFst_ite ratedFst_none ?_
    split
    · exact ratedFst_none
    · rename_i heq
      exact ratedFst_ite ratedFst_none <| ratedFst_map (hb <| rated_of_mk (hcanon _) heq) fun _ => rfl
theorem ratedFst_bindTensors {p asid arg i ds} (hs : Rated s) : RatedFst (s.bindTensors p asid arg i ds) := by
  delta State.bindTensors
  induction ds generalizing s i with
  | nil => exact ratedFst_some hs
  | cons d ds ih =>
    rw [brecOn_cons]
    exact ratedFst_bindTensors_step hs ih
theorem ratedFst_launchArgs {p c m} (hs : Rated s) : RatedFst (s.launchArgs p c m) := by
  unfold State.launchArgs
  extract_lets -underBinder +onlyGivenNames _ _
  refine ratedFst_ite (ratedFst_ite (ratedFst_some hs) ratedFst_none) ?_
  refine ratedFst_ite ratedFst_none ?_
  extract_lets -underBinder +onlyGivenNames _
  split
  · exact ratedFst_none
  · exact ratedFst_ite ratedFst_none <| ratedFst_map (ratedFst_bindTensors <| rated_meetRecord hs) fun _ => rfl
theorem rated_bindLaunch {p c h m a gx gy} (hs : Rated s) : Rated (s.bindLaunch p c h m a gx gy) := by
  unfold State.bindLaunch
  extract_lets -underBinder +onlyGivenNames _ _ _ _ _ _ _ _ _ _ _ s3
  have h3 : Rated s3 := rated_foldl (fun _ _ ht => rated_foldl (fun _ _ hu => rated_loadBytes hu) <| rated_setCore <| rated_loadBytes ht) <|
    rated_foldl (fun _ _ ht => ht) hs
  dsimp only
  split
  · exact rated_modCtx <| rated_modPart (fun _ => rfl) h3
  · exact rated_modPart (fun _ => rfl) <| rated_modCtx <| rated_modPart (fun _ => rfl) h3
theorem rated_endGraph {p g status} (hs : Rated s) : Rated (s.endGraph p g status) := by
  unfold State.endGraph
  split
  · exact hs
  · exact rated_unreadBy <| rated_complete <| rated_modPart (fun _ => rfl) hs
theorem rated_refuseClaim {p c status} (hs : Rated s) : Rated (s.refuseClaim p c status) := by
  unfold State.refuseClaim
  split
  · exact rated_endGraph hs
  · exact rated_selectLater <| rated_complete <| rated_modQueue hs
theorem rated_loseClaim {p c} (hs : Rated s) : Rated (s.loseClaim p c) := by
  unfold State.loseClaim
  split
  · exact rated_modPart (fun _ => rfl) hs
  · exact rated_selectLater <| rated_modQueue hs
theorem rated_resolveClaim {p c} (hs : Rated s) : Rated (s.resolveClaim p c) := by
  unfold State.resolveClaim
  dsimp only
  refine rated_ite (rated_refuseClaim hs) ?_
  refine rated_ite (rated_refuseClaim hs) ?_
  split
  · exact rated_refuseClaim hs
  · rename_i heq
    have ht : Rated _ := ratedFst_launchArgs hs _ heq
    split
    · exact rated_loseClaim hs
    · split
      · exact rated_bindLaunch <| rated_meetRecord ht
      · exact rated_selectLater <| rated_modQueue <| rated_bindLaunch <| rated_meetRecord ht
theorem rated_moveLeaders {p} (hs : Rated s) : Rated (s.moveLeaders p) := by
  unfold State.moveLeaders
  refine rated_foldl (fun _ _ ht => ?_) hs
  dsimp only
  split
  · exact ht
  · exact rated_ite ht <| rated_selectLater <| rated_modQueue <| rated_modPart (fun _ => rfl) ht
theorem ratedOut_execClaimResolve {p} (hs : Rated s) : RatedOut (execClaimResolve p s) :=
  rated_withPart hs (fun _ => rated_ite hs <| rated_foldl (fun _ _ hu => rated_resolveClaim hu) <| rated_modPart (fun _ => rfl) <|
    rated_moveLeaders <|
    rated_modPart (fun _ => rfl) hs)

/-! ### The functions of Machine/Launch.lean -/

theorem ratedOut_execLaunchStart {p l} (hs : Rated s) : RatedOut (execLaunchStart p l s) := by
  unfold execLaunchStart
  split
  · exact hs
  · exact ratedOut_ite (rated_foldl (fun _ _ ht => rated_ite ht ht) <| rated_foldl (fun _ _ ht => ht) <|
      rated_modLaunch hs) hs
theorem rated_lateTrap {k d} (hs : Rated s) : Rated (s.lateTrap k d) := rated_ite (rated_teardown <| rated_appendEvent hs) <| rated_appendEvent hs
theorem ratedOut_execCoreExitTick {k} (hs : Rated s) : RatedOut (execCoreExitTick k s) :=
  ratedOut_ite (ratedOut_ite (rated_modCtx <| rated_clearHold <| rated_foldl (fun _ _ ht => rated_lateTrap ht) <| rated_modCtx hs) <|
    rated_foldl (fun _ _ ht => rated_lateTrap ht) <| rated_modCtx hs) <| rated_ite hs hs
theorem rated_findFaults {ks} (hs : Rated s) : Rated (s.findFaults ks) := by
  unfold State.findFaults
  refine rated_foldl (fun _ _ ht => ?_) hs
  split
  · exact rated_copyFaultAt ht
  · exact ht
theorem ratedOut_execLaunchRetire {p l} (hs : Rated s) : RatedOut (execLaunchRetire p l s) := by
  unfold execLaunchRetire
  split
  · exact hs
  · refine ratedOut_ite ?_ hs
    refine ratedOut_ite (rated_findFaults hs) ?_
    extract_lets -underBinder +onlyGivenNames s1
    have h1 : Rated s1 := rated_foldl (fun _ _ ht => ht) <| rated_modPart (fun _ => rfl) <| rated_findFaults hs
    split
    · exact rated_unreadBy <| rated_complete h1
    · exact rated_modPart (fun _ => rfl) h1
theorem rated_modGraph {p g f} (hs : Rated s) : Rated (s.modGraph p g f) := rated_modPart (fun _ => rfl) hs
theorem rated_reach {p g node at'} (hs : Rated s) : Rated (s.reach p g node at') := by
  unfold State.reach
  extract_lets -underBinder +onlyGivenNames s1
  have h1 : Rated s1 := rated_modGraph hs
  split
  · exact rated_ite h1 h1
  · exact h1
theorem ratedOut_takeNode {p g kind f} (hf : ∀ x y z, Rated z → Rated (f x y z)) (hs : Rated s) : RatedOut (takeNode p g kind f s) := by
  unfold takeNode
  refine rated_withPart hs (fun _ => ?_)
  split
  · exact hs
  · refine rated_ite hs ?_
    extract_lets -underBinder +onlyGivenNames s1
    have h1 : Rated s1 := rated_meetRecord hs
    split
    · exact rated_endGraph h1
    · exact rated_ite hs <| rated_ite (rated_ite (rated_endGraph h1) <| hf _ _ _ <| rated_modGraph h1) <| hf _ _ _ h1
theorem ratedOut_execGraphKernelNode {p g} (hs : Rated s) : RatedOut (execGraphKernelNode p g s) := by
  unfold execGraphKernelNode
  refine ratedOut_takeNode (fun _ _ _ ht => ?_) hs
  dsimp only
  split
  · exact rated_endGraph ht
  · split
    · rename_i heq
      have hu1 := rated_of_mk (rated_takeImage ht) heq
      exact rated_endGraph hu1
    · rename_i heq
      have hu1 := rated_of_mk (rated_takeImage ht) heq
      exact rated_modGraph <| rated_modPart (fun _ => rfl) hu1
theorem rated_condWord {p z x} (hs : Rated s) : Rated (s.condWord p z x).1 := by
  unfold State.condWord
  split
  · rename_i heq
    exact rated_of_mk (rated_readDesc hs) heq
  · rename_i heq
    have ht1 := rated_of_mk (rated_readDesc hs) heq
    refine rated_fst_ite ?_ ht1
    split
    · exact rated_meetError ht1
    · exact ht1
theorem ratedOut_execGraphCondNode {p g} (hs : Rated s) : RatedOut (execGraphCondNode p g s) := by
  unfold execGraphCondNode
  refine ratedOut_takeNode (fun _ _ _ ht => ?_) hs
  split
  · rename_i heq
    have hu1 := rated_of_mk (rated_condWord ht) heq
    exact rated_endGraph hu1
  · rename_i heq
    have hu1 := rated_of_mk (rated_condWord ht) heq
    exact rated_reach hu1
theorem ratedOut_execGraphWhileNode {p g} (hs : Rated s) : RatedOut (execGraphWhileNode p g s) := by
  unfold execGraphWhileNode
  refine ratedOut_takeNode (fun _ _ _ ht => ?_) hs
  split
  · rename_i heq
    have hu1 := rated_of_mk (rated_condWord ht) heq
    exact rated_endGraph hu1
  · rename_i heq
    have hu1 := rated_of_mk (rated_condWord ht) heq
    exact rated_ite (rated_reach <| rated_modGraph hu1) <| rated_ite (rated_reach <| rated_modGraph hu1) <| rated_endGraph hu1
theorem rated_swapTick {recs p g z go} (hs : Rated s) (hgo : ∀ x, Rated x → Rated (go x)) : Rated (s.swapTick recs p g z go) :=
  rated_ite (hgo _ hs) <| rated_ite (rated_endGraph hs) <| rated_modGraph hs
theorem ratedOut_execGraphSwapNode {p g} (hs : Rated s) : RatedOut (execGraphSwapNode p g s) := by
  unfold execGraphSwapNode
  split
  · exact hs
  · exact ratedOut_ite (rated_ite (rated_swapTick hs (fun _ ht => rated_modGraph ht)) hs) <|
      ratedOut_takeNode (fun _ _ _ ht => rated_ite (rated_modGraph <| rated_readDesc ht) <| rated_swapTick (rated_modGraph <|
      rated_readDesc ht) (fun _ hu => rated_reach hu)) hs
theorem ratedOut_execGraphEndNode {p g} (hs : Rated s) : RatedOut (execGraphEndNode p g s) := ratedOut_takeNode (fun _ _ _ ht => rated_endGraph ht) hs

end

end Sys2Proof.Proofs
end

section
/-! PROOFS. Every step keeps the rates of the partitions (O60): pages, shards, links and peers. -/
namespace Sys2Proof.Proofs
open Sys2Proof.Machine Sys2Proof.Laws

section
variable {s : State}

/-! ### The functions of Machine/Page.lean -/

theorem rated_pageDone {p code} (hs : Rated s) : Rated (s.pageDone p code) := rated_modPart (fun _ => rfl) hs
theorem rated_zeroGranule {station pd off} (hs : Rated s) : Rated (s.zeroGranule station pd off) :=
  rated_ite (rated_uncover <| rated_of_parts hs rfl) <| rated_clearStamps <| rated_of_parts hs rfl
theorem ratedOut_execAssign {p rec} (hs : Rated s) : RatedOut (execAssign p rec s) := by
  unfold execAssign
  refine rated_withPart hs (fun _ => ?_)
  split
  · exact rated_pageDone hs
  · exact rated_ite (rated_pageDone hs) <| rated_pageDone <| rated_foldl (fun _ _ hu => rated_setOwn <| rated_zeroGranule hu) hs
theorem ratedOut_execRelease {p rec} (hs : Rated s) : RatedOut (execRelease p rec s) := by
  unfold execRelease
  refine rated_withPart hs (fun _ => ?_)
  split
  · exact rated_pageDone hs
  · exact rated_ite (rated_pageDone hs) <| rated_ite (rated_pageDone hs) <| rated_pageDone <| rated_foldl (fun _ _ hu => rated_setOwn <|
      rated_zeroGranule hu) hs
theorem rated_dropTlb {p asid va size} (hs : Rated s) : Rated (s.dropTlb p asid va size) := hs
theorem ratedOut_execInvalidate {p rec} (hs : Rated s) : RatedOut (execInvalidate p rec s) :=
  rated_withPart hs (fun _ => rated_ite (rated_pageDone hs) <| rated_pageDone hs)
theorem ratedOut_execMigrate {p rec} (hs : Rated s) : RatedOut (execMigrate p rec s) := by
  unfold execMigrate
  refine rated_withPart hs (fun _ => ?_)
  dsimp only
  split
  · exact rated_pageDone hs
  · exact rated_ite (rated_pageDone hs) <| rated_ite (rated_pageDone hs) <| rated_ite (rated_pageDone hs) <| rated_modPart (fun _ => rfl) <|
      rated_dropTlb <|
      rated_foldl (fun _ _ hu => hu) hs
theorem ratedOut_execMigrationCopyStart {p} (hs : Rated s) : RatedOut (execMigrationCopyStart p s) := by
  unfold execMigrationCopyStart
  split
  · exact ratedOut_ite (rated_later <| rated_modPart (fun _ => rfl) hs) hs
  · exact hs
theorem rated_moveLine {q m new i} (hs : Rated s) : Rated (s.moveLine q m new i) := by
  unfold State.moveLine
  split
  · extract_lets -underBinder +onlyGivenNames pa pb o
    refine rated_ite hs ?_
    extract_lets -underBinder +onlyGivenNames good v s0 s1 _ s2
    have h0 : Rated s0 := rated_ite hs hs
    have h1 : Rated s1 := rated_setBytes h0
    have h2 : Rated s2 := rated_ite h1 (rated_setStamp (s := s1) h1)
    refine rated_ite h2 ?_
    extract_lets -underBinder +onlyGivenNames s3
    have h3 : Rated s3 := rated_setBytes h2
    clear_value s3
    exact rated_ite h3 h3
  · exact hs
theorem rated_reEpoch {station pd off gen epoch} (hs : Rated s) : Rated (s.reEpoch station pd off gen epoch) :=
  rated_setOwn <| rated_ite hs <| rated_foldl (fun _ _ ht => rated_ite ht ht) hs
theorem ratedOut_execCopyEngineComplete {p} (hs : Rated s) : RatedOut (execCopyEngineComplete p s) := by
  unfold execCopyEngineComplete
  split
  · exact hs
  · exact ratedOut_ite hs <| rated_modPart (fun _ => rfl) <| rated_foldl (fun _ _ ht => rated_placed <| rated_lookup ht) <| rated_pageDone <|
      rated_modPart (fun _ => rfl) <|
      rated_foldl (fun _ _ ht => ht) <| rated_foldl (fun _ _ ht => rated_store ht) <| rated_foldl (fun _ _ ht => rated_reEpoch ht) <|
      rated_foldl (fun _ _ ht => rated_moveLine ht) hs
theorem ratedOut_execPatrolRead {die granule bad} (hs : Rated s) : RatedOut (execPatrolRead die granule bad s) :=
  ratedOut_ite (rated_modDie <| rated_foldl (fun _ _ ht => ht) hs) hs

/-! ### The functions of Machine/Shard.lean -/

theorem rated_setEntry {p asid base i off v} (hs : Rated s) : Rated (s.setEntry p asid base i off v) := rated_ite (rated_devStore hs) hs
/-! The next proof, and two like it, unfold the function as a constant and not at its arguments, as for O59: for the unfolded match the kernel would
evaluate the record that it reads, a manifest header, where it compares it with the call. -/

theorem rated_manifestCount {p} (hs : Rated s) : Rated (s.manifestCount p) := by
  generalize hf : State.manifestCount = f
  delta State.manifestCount at hf
  subst hf
  beta_reduce
  extract_lets -underBinder +onlyGivenNames q m base
  split
  · exact hs
  · exact rated_modPart (fun _ => rfl) hs
theorem rated_setPoison {p asid tid bad} (hs : Rated s) : Rated (s.setPoison p asid tid bad) := by
  unfold State.setPoison
  split
  · rename_i heq
    have ht1 := rated_of_mk (rated_readDesc hs) heq
    exact rated_setVrec ht1
  · rename_i heq
    have ht1 := rated_of_mk (rated_readDesc hs) heq
    exact rated_foldl (fun _ _ hu => rated_setVrec hu) ht1
theorem rated_shardFail {p asid base i} (hs : Rated s) : Rated (s.shardFail p asid base i) :=
  rated_ite (rated_modPart (fun _ => rfl) <| rated_setEntry <| rated_setEntry <| rated_setEntry <| rated_setEntry <| rated_setPoison hs) <|
    rated_appendEvent <|
    rated_modPart (fun _ => rfl) <| rated_setEntry <| rated_setEntry <| rated_setEntry <| rated_setEntry <| rated_setPoison hs
theorem rated_digestRead {p} (hs : Rated s) : Rated (s.digestRead p) := by
  unfold State.digestRead
  refine rated_foldl (fun _ _ ht => ?_) (rated_modPart (fun _ => rfl) hs)
  refine rated_ite ?_ ht
  split
  · exact rated_meetError ht
  · exact ht
theorem rated_endDigest {p d} (hs : Rated s) : Rated (s.endDigest p d) := by
  generalize hf : State.endDigest = f
  delta State.endDigest at hf
  subst hf
  beta_reduce
  extract_lets -underBinder +onlyGivenNames b q set
  have hset : ∀ t bad, Rated t → Rated (set t bad) := fun t bad ht => rated_manifestCount <| rated_ite (rated_setVrec ht) ht
  -- both reads are made opaque, as above
  obtain ⟨found, hfound⟩ : ∃ o, o = s.entryOf p d.asid b.tid := ⟨_, rfl⟩
  obtain ⟨entry, hentry⟩ : ∃ f, f = s.entryIn q d.asid := ⟨_, rfl⟩
  rw [← hfound, ← hentry]
  split
  · exact hset _ _ hs
  · split
    · exact hset _ _ hs
    · exact rated_ite (hset _ _ hs) <| rated_ite (hset _ _ <| rated_shardFail hs) <| hset _ _ hs
theorem ratedOut_execDigestResult {p tid} (hs : Rated s) : RatedOut (execDigestResult p tid s) := by
  unfold execDigestResult
  refine rated_withPart hs (fun _ => ?_)
  split
  · exact hs
  · exact rated_endDigest <| rated_modPart (fun _ => rfl) hs
theorem rated_startLoad {p asid q} (hs : Rated s) : Rated (s.startLoad p asid q) := by
  unfold State.startLoad
  extract_lets -underBinder +onlyGivenNames s0
  have h0 : Rated s0 := rated_modPart (fun _ => rfl) hs
  refine rated_ite h0 ?_
  extract_lets -underBinder +onlyGivenNames base fail
  have hfail : Rated fail := rated_modPart (fun _ => rfl) h0
  split
  · exact hfail
  · extract_lets -underBinder +onlyGivenNames es
    refine rated_ite hfail ?_
    extract_lets -underBinder +onlyGivenNames s1
    have h1 : Rated s1 := rated_foldl (fun _ _ ht => rated_setEntry <| rated_setEntry ht) <| rated_meetRecord h0
    exact rated_manifestCount <| rated_modPart (fun _ => rfl) h1
theorem ratedOut_execManifestLoad {p asid} (hs : Rated s) : RatedOut (execManifestLoad p asid s) := rated_withVf hs (fun _ => rated_startLoad hs)
theorem ratedOpt_loadShard {p b data} (hs : Rated s) : RatedOpt (s.loadShard p b data) := by
  unfold State.loadShard
  dsimp only
  refine ratedOpt_ite ratedOpt_none ?_
  split
  · rename_i heq
    refine ratedOpt_some <| rated_commitEpoch <| rated_of_some (ratedOpt_foldl (fun o n ho => ?_) <| ratedOpt_some <| rated_openEpoch hs) heq
    split
    · exact ratedOpt_map_of (ratedOpt_writePlace <| ho _ rfl) fun _ hu => rated_countLine hu
    · exact ratedOpt_none
  · exact ratedOpt_some <| rated_commitEpoch <| rated_openEpoch hs
theorem ratedOut_execShardAttemptComplete {p i ok data} (hs : Rated s) : RatedOut (execShardAttemptComplete p i ok data s) := by
  unfold execShardAttemptComplete
  refine rated_withPart hs (fun _ => ?_)
  split
  · exact hs
  · refine rated_ite hs ?_
    extract_lets -underBinder +onlyGivenNames base fail
    have hfail : ∀ t, Rated t → Rated (fail t) := fun _ ht => rated_manifestCount <| rated_shardFail ht
    split
    · exact hfail _ hs
    · split
      · rename_i heq
        have hu1 := rated_of_mk (rated_readDesc hs) heq
        exact hfail _ hu1
      · rename_i heq
        have hu1 := rated_of_mk (rated_readDesc hs) heq
        split
        · exact hfail _ hu1
        · rename_i heq
          have hv1 := rated_of_some (ratedOpt_ite (ratedOpt_loadShard hu1) ratedOpt_none) heq
          exact rated_ite (rated_manifestCount <| rated_modPart (fun _ => rfl) <| rated_setEntry <| rated_setPoison hv1) <| hfail _ hv1
theorem ratedOut_execShardDeadline {p i} (hs : Rated s) : RatedOut (execShardDeadline p i s) :=
  rated_withPart hs (fun _ => rated_foldl (fun _ _ hu => rated_manifestCount <| rated_shardFail <| rated_modPart (fun _ => rfl) hu) hs)
theorem rated_recheck {p asid base} (hs : Rated s) : Rated (s.recheck p asid base) := by
  generalize hf : State.recheck = f
  delta State.recheck at hf
  subst hf
  beta_reduce
  extract_lets -underBinder +onlyGivenNames q t
  split
  · exact hs
  · refine rated_ite hs ?_
    refine rated_foldl (fun _ _ ht => ?_) hs
    split
    · exact ht
    · split
      · rename_i heq
        exact rated_of_mk (rated_readDesc ht) heq
      · rename_i heq
        have hu1 := rated_of_mk (rated_readDesc ht) heq
        exact rated_modPart (fun _ => rfl) hu1
theorem ratedOut_execManifestRecheck {p} (hs : Rated s) : RatedOut (execManifestRecheck p s) :=
  rated_withPart hs (fun _ => rated_foldl (fun _ _ hu => rated_recheck hu) hs)

/-! ### The functions of Machine/Link.lean -/

theorem rated_tellHost {kind n} (hs : Rated s) : Rated (s.tellHost kind n) := hs
theorem rated_moveAttach {d from' f} (hs : Rated s) : Rated (s.moveAttach d from' f) := rated_ite hs hs
theorem rated_teardownDie {d} (hs : Rated s) : Rated (s.teardownDie d) :=
  rated_foldl (fun _ _ ht => rated_foldl (fun _ _ hu => rated_ite (rated_teardown hu) hu) ht) hs
theorem ratedOut_execAttachTrainingFail {die} (hs : Rated s) : RatedOut (execAttachTrainingFail die s) :=
  ratedOut_ite (rated_tellHost <| rated_teardownDie hs) hs
theorem ratedOut_execCircuitEnable {e w} (hs : Rated s) : RatedOut (execCircuitEnable e w s) :=
  ratedOut_ite hs <| ratedOut_ite (rated_ite hs hs) <| ratedOut_ite hs hs
theorem ratedOut_execCircuitLit {e} (hs : Rated s) : RatedOut (execCircuitLit e s) := ratedOut_ite hs <| ratedOut_ite hs hs
theorem ratedOut_execCircuitDisable {e} (hs : Rated s) : RatedOut (execCircuitDisable e s) :=
  ratedOut_ite (ratedOut_ite hs hs) hs
theorem ratedOut_execCircuitDrainComplete {e} (hs : Rated s) : RatedOut (execCircuitDrainComplete e s) := ratedOut_ite hs hs
theorem rated_degrade {d} (hs : Rated s) : Rated (s.degrade d) := by
  unfold State.degrade
  dsimp only
  split
  · exact hs
  · exact hs
theorem rated_keep {d} (hs : Rated s) : Rated (s.keep d) := hs
theorem rated_replaceWave {d} (hs : Rated s) : Rated (s.replaceWave d) := rated_ite hs <| rated_degrade hs
theorem rated_fenceWave {die i} (hs : Rated s) : Rated (s.fenceWave die i) :=
  rated_ite hs <| rated_ite (rated_ite hs <| rated_replaceWave hs) <| rated_ite hs <|
    rated_ite (rated_replaceWave hs) hs
theorem ratedOut_execWavelengthFence {die i} (hs : Rated s) : RatedOut (execWavelengthFence die i s) :=
  rated_ite (rated_keep <| rated_fenceWave hs) hs
theorem rated_waveFail {d} (hs : Rated s) : Rated (s.waveFail d) := rated_ite hs <| rated_ite hs <| rated_keep <| rated_fenceWave hs
theorem ratedOut_execPortEnable {n} (hs : Rated s) : RatedOut (execPortEnable n s) := rated_ite hs hs
theorem ratedOut_execPortTrainingPass {n width} (hs : Rated s) : RatedOut (execPortTrainingPass n width s) := ratedOut_ite hs hs
theorem ratedOut_execPortLaneLoss {n} (hs : Rated s) : RatedOut (execPortLaneLoss n s) := rated_ite hs hs
theorem rated_sendControl {n kind p i body} (hs : Rated s) : Rated (s.sendControl n kind p i body) := by
  unfold State.sendControl
  dsimp only
  split
  · exact hs
  · exact hs
  · exact hs
theorem rated_countDisc {p port n} (hs : Rated s) : Rated (s.countDisc p port n) := by
  unfold State.countDisc
  split
  · exact hs
  · exact hs
theorem rated_modPeer {p i f} (hs : Rated s) : Rated (s.modPeer p i f) := rated_modPart (fun _ => rfl) hs
theorem rated_dropPeer {p i st why} (hs : Rated s) : Rated (s.dropPeer p i st why) := by
  unfold State.dropPeer
  extract_lets -underBinder +onlyGivenNames q y n s1 s2 mine
  have h2 : Rated s2 := rated_unawait <| rated_countDisc <| rated_modPeer <| rated_modPart (fun _ => rfl) hs
  clear_value s2
  exact rated_foldl (fun _ _ ht => rated_refuseOut ht) h2
theorem ratedOut_execPortDisable {n} (hs : Rated s) : RatedOut (execPortDisable n s) :=
  ratedOut_ite (rated_foldl (fun _ _ ht => rated_foldl (fun _ _ hu => rated_ite (rated_dropPeer hu) hu) ht) hs) hs
theorem ratedOut_execFabidxWrite {v} (hs : Rated s) : RatedOut (execFabidxWrite v s) := rated_ite hs hs
theorem rated_countFlit {f g} (hs : Rated s) : Rated (s.countFlit f g) := by
  unfold State.countFlit
  split
  · exact hs
  · exact hs
theorem rated_waveFailed {f} (hs : Rated s) : Rated (s.waveFailed f) := by
  unfold State.waveFailed
  split
  · exact rated_waveFail hs
  · exact hs
theorem rated_flitFail {f} (hs : Rated s) : Rated (s.flitFail f) := by
  unfold State.flitFail
  extract_lets -underBinder +onlyGivenNames _ s1
  have h1 : Rated s1 := rated_waveFailed <| rated_countFlit hs
  refine rated_ite h1 ?_
  dsimp only
  split
  · exact rated_copyFaultAt <| rated_unawait h1
  · exact rated_unawait h1
theorem rated_deliver {f v} (hs : Rated s) : Rated (s.deliver f v) := by
  unfold State.deliver
  refine rated_ite ?_ ?_
  · split
    · split
      · rename_i heq
        exact rated_of_next (ratedOut_execBeatPresent hs) heq
      · exact hs
    · exact hs
  · extract_lets -underBinder +onlyGivenNames _ s1
    have h1 : Rated s1 := rated_ite (rated_modPeer hs) hs
    refine rated_ite ?_ ?_
    · dsimp only
      split
      · rename_i heq
        have ht1 := rated_of_mk (rated_readDesc <| rated_unawait h1) heq
        exact rated_refusePeer ht1
      · rename_i heq
        have ht1 := rated_of_mk (rated_readDesc <| rated_unawait h1) heq
        exact rated_ite (rated_modPart (fun _ => rfl) ht1) <| rated_refusePeer ht1
    · refine rated_ite ?_ h1
      split
      · exact rated_copyFaultAt h1
      · exact h1
theorem ratedOut_execFlitReceive {f0} (hs : Rated s) : RatedOut (execFlitReceive f0 s) := by
  unfold execFlitReceive
  refine ratedOut_ite (rated_countFlit hs) ?_
  refine ratedOut_ite (rated_ite hs <| rated_countFlit hs) ?_
  split
  · exact hs
  · refine ratedOut_ite hs ?_
    refine ratedOut_ite (rated_countFlit hs) ?_
    split
    · exact rated_flitFail hs
    · exact ratedOut_ite (rated_countFlit hs) <| rated_deliver hs

/-! ### The functions of Machine/Peer.lean -/

theorem rated_ownResp {p msg} (hs : Rated s) : Rated (s.ownResp p msg).1 := by
  unfold State.ownResp
  split
  · rename_i heq
    exact rated_of_mk hs heq
theorem rated_peerStep {p i f} (hs : Rated s) : Rated (s.peerStep p i f) := rated_atWall <| rated_modPeer hs
theorem ratedOut_execPeerOpen {p i} (hs : Rated s) : RatedOut (execPeerOpen p i s) := by
  unfold execPeerOpen
  refine rated_withVf hs (fun _ => ?_)
  refine rated_ite ?_ hs
  refine rated_ite (rated_modPeer hs) ?_
  split
  · rename_i heq
    have hu1 := rated_of_mk hs heq
    exact rated_sendControl <| rated_peerStep hu1
theorem ratedOut_execPeerClose {p i} (hs : Rated s) : RatedOut (execPeerClose p i s) :=
  rated_withVf hs (fun _ => rated_ite (rated_sendControl <| rated_dropPeer hs) <| rated_ite (rated_dropPeer hs) hs)
theorem ratedOut_execPeerInit {p n msg} (hs : Rated s) : RatedOut (execPeerInit p n msg s) := by
  unfold execPeerInit
  refine rated_withPart hs (fun _ => ?_)
  split
  · exact rated_countDisc hs
  · refine rated_ite (rated_dropPeer hs) ?_
    split
    · rename_i heq
      have hu1 := rated_of_mk (rated_ownResp hs) heq
      exact rated_sendControl <| rated_peerStep hu1
theorem ratedOut_execPeerResp {p i msg} (hs : Rated s) : RatedOut (execPeerResp p i msg s) := by
  unfold execPeerResp
  refine rated_withPart hs (fun _ => ?_)
  dsimp only
  split
  · exact rated_ite hs <| rated_ite (rated_dropPeer hs) <| rated_ite (rated_sendControl <| rated_modPeer hs) <| rated_dropPeer hs
  · exact hs
theorem ratedOut_execPeerFin {p i msg} (hs : Rated s) : RatedOut (execPeerFin p i msg s) := by
  unfold execPeerFin
  refine rated_withPart hs (fun _ => ?_)
  dsimp only
  split
  · exact rated_ite hs <| rated_ite (rated_modPeer hs) <| rated_dropPeer hs
  · exact hs
theorem ratedOut_execPeerCloseReceived {p i} (hs : Rated s) : RatedOut (execPeerCloseReceived p i s) :=
  rated_withPart hs (fun _ => rated_ite (rated_dropPeer hs) hs)
theorem ratedOut_execPeerTimeout {p i} (hs : Rated s) : RatedOut (execPeerTimeout p i s) :=
  rated_withPart hs (fun _ => rated_ite (rated_dropPeer hs) hs)
theorem rated_resetFunction {p} (hs : Rated s) : Rated (s.resetFunction p) := by
  unfold State.resetFunction
  refine rated_withPart hs (fun q => ?_)
  extract_lets -underBinder +onlyGivenNames s0 s1 s2 tell s3 s4
  have h1 : Rated s1 := rated_foldl (fun _ _ hu => rated_teardown hu) <| rated_modPart (fun _ => rfl) hs
  have h2 : Rated s2 := rated_modPart (fun _ => rfl) h1
  have h3 : Rated s3 := rated_foldl (fun _ _ hu => rated_ite (rated_sendControl hu) hu) h2
  have h4 : Rated s4 := rated_foldl (fun _ _ hu => rated_dropPeer hu) h3
  clear_value s4
  exact rated_updPart (p := p) (f := fun q => { q with inbound := [] }) h4 rfl fun _ hq => hq
theorem ratedOut_execFunctionLevelReset {p} (hs : Rated s) : RatedOut (execFunctionLevelReset p s) := rated_resetFunction hs

end

end Sys2Proof.Proofs
end

section
/-! PROOFS. Every step keeps the rates of the partitions (O60): health, the host, boot, the clock, and with them a step. -/
namespace Sys2Proof.Proofs
open Sys2Proof.Machine Sys2Proof.Laws

section
variable {s : State}

/-! ### The functions of Machine/Health.lean -/

theorem rated_fenceCore {k} (hs : Rated s) : Rated (s.fenceCore k) := rated_modCore <| rated_foldl (fun _ _ ht => rated_teardown ht) hs
theorem rated_fencePos {d pos} (hs : Rated s) : Rated (s.fencePos d pos) := by
  unfold State.fencePos
  dsimp only
  split
  · exact rated_fenceCore hs
  · exact hs
theorem rated_fence {d fn} (hs : Rated s) : Rated (s.fence d fn) := by
  unfold State.fence
  refine rated_ite hs ?_
  refine rated_keep ?_
  split
  · exact rated_ite hs <| rated_fencePos hs
  · exact rated_fencePos hs
  · exact rated_foldl (fun _ _ ht => rated_fenceCore ht) hs
  · exact rated_fenceWave hs
  · exact hs
theorem ratedOut_execBuiltinTestComplete {die fn pass} (hs : Rated s) : RatedOut (execBuiltinTestComplete die fn pass s) :=
  ratedOut_ite (rated_ite (rated_fence hs) hs) hs
theorem ratedOut_execFenceclr {loc} (hs : Rated s) : RatedOut (execFenceclr loc s) := ratedOut_ite hs hs
theorem rated_spoilUnit {k y} (hs : Rated s) : Rated (s.spoilUnit k y) := by
  unfold State.spoilUnit
  dsimp only
  split
  · exact hs
  · exact hs
  · exact rated_foldl (fun _ _ ht => rated_setBytes ht) hs
  · exact hs
theorem rated_spoilOp {x t} (hs : Rated s) : Rated (s.spoilOp x t) := by
  unfold State.spoilOp
  dsimp only
  split
  · exact rated_foldl (fun _ _ ht => rated_foldl (fun _ _ hu => hu) ht) hs
  · split
    · exact rated_spoilUnit hs
    · exact hs
  · exact hs
  · exact hs
  · exact hs
theorem rated_machineCheck {x} (hs : Rated s) : Rated (s.machineCheck x) := by
  unfold State.machineCheck
  extract_lets -underBinder +onlyGivenNames _ _ _ _ _ _ s1
  have h1 : Rated s1 := rated_modDie <| rated_spoilOp hs
  extract_lets -underBinder +onlyGivenNames _
  split
  · extract_lets -underBinder +onlyGivenNames _ s1
    have h1 : Rated s1 := rated_ite h1 <| rated_modCtx h1
    exact rated_ite h1 <| rated_ite (rated_teardown <| rated_appendEvent h1) <| rated_raiseHalt h1
  · exact h1
theorem rated_pathFails {d slot} (hs : Rated s) : Rated (s.pathFails d slot) :=
  rated_ite hs <| rated_teardown <| rated_appendEvent hs
theorem rated_counted {x} (hs : Rated s) : Rated (s.counted x) := by
  unfold State.counted
  dsimp only
  split
  · exact rated_ite (rated_ite hs hs) hs
  · exact rated_ite hs hs
  · exact rated_ite (rated_ite hs hs) hs
  · exact rated_ite hs hs
  · exact rated_pathFails hs
  · exact hs
  · exact hs
theorem rated_found {x} (hs : Rated s) : Rated (s.found x) := rated_ite (rated_machineCheck hs) hs
theorem rated_runChecks (hs : Rated s) : Rated s.runChecks :=
  rated_foldl (fun _ _ ht => rated_found ht) <| rated_foldl (fun _ _ ht => rated_counted ht) hs
theorem rated_reTest {d fn} (hs : Rated s) : Rated (s.reTest d fn) := rated_ite (rated_ite hs hs) hs
theorem rated_remap {d fn} (hs : Rated s) : Rated (s.remap d fn) := by
  unfold State.remap
  extract_lets -underBinder +onlyGivenNames _ _ _ s1
  have h1 : Rated s1 := by
    unfold s1
    refine rated_ite ?_ hs
    split
    · exact hs
    · exact hs
  exact rated_ite h1 <| rated_ite h1 h1
theorem rated_placeCore {k pcol fenced} (hs : Rated s) : Rated (s.placeCore k pcol fenced) := rated_ite hs hs
theorem rated_repairDie {d} (hs : Rated s) : Rated (s.repairDie d) := by
  unfold State.repairDie
  extract_lets -underBinder +onlyGivenNames s1 s2 s3
  have h1 : Rated s1 := rated_foldl (fun _ _ ht => rated_reTest ht) hs
  have h2 : Rated s2 := rated_foldl (fun _ _ ht => rated_remap ht) h1
  have h3 : Rated s3 := h2
  clear_value s3
  extract_lets -underBinder +onlyGivenNames y t
  have ht : Rated t := rated_foldl (fun _ _ hu => rated_placeCore hu) h3
  clear_value t
  exact ht
theorem ratedOut_execPartitionReset {p} (hs : Rated s) : RatedOut (execPartitionReset p s) :=
  rated_withPart hs fun q => by
    have h1 : Rated (q.dies.foldl State.repairDie s) := rated_foldl (fun _ _ hu => rated_repairDie hu) hs
    exact rated_ite (rated_ite (rated_delPart h1 rfl) <| rated_modPart (fun _ => rfl) h1) hs

/-! ### The functions of Machine/Host.lean -/

theorem ratedOut_execTdispMessage {p msg} (hs : Rated s) : RatedOut (execTdispMessage p msg s) :=
  rated_withPart hs (fun _ => rated_ite (rated_modPart (fun _ => rfl) hs) <| rated_ite (rated_modPart (fun _ => rfl) hs) <|
    rated_ite (rated_modPart (fun _ => rfl) hs) hs)
theorem ratedOut_execIdeCheckFail {p} (hs : Rated s) : RatedOut (execIdeCheckFail p s) :=
  rated_withPart hs (fun _ => rated_ite (rated_modPart (fun _ => rfl) hs) hs)
theorem rated_noteHosts {p wr keys} (hs : Rated s) : Rated (s.noteHosts p wr keys) := rated_ite hs <| rated_modPart_of hs fun _ hq =>
  List.foldlRecOn (motive := RateOk) _ _ hq fun _ hr _ _ => hr
theorem rated_scatter {q key} (hs : Rated s) : Rated (State.scatter q s key) := rated_ite hs hs
theorem rated_setHostByte {q e} (hs : Rated s) : Rated (State.setHostByte q s e) := rated_setStamp <| rated_setByte <| rated_spoil hs
theorem ratedOut_execHostDmaRequest {p write addr data ide} (hs : Rated s) : RatedOut (execHostDmaRequest p write addr data ide s) :=
  rated_withPart hs (fun _ => rated_ite (rated_modPart (fun _ => rfl) <| rated_noteHosts <|
    rated_ite (rated_foldl (fun _ _ hu => rated_setHostByte hu) hs) <|
    rated_foldl (fun _ _ hu => rated_scatter hu) <| rated_modPart (fun _ => rfl) <| rated_meetRecord hs) <| rated_countHref hs)
theorem ratedOut_execTenantidWrite {p v} (hs : Rated s) : RatedOut (execTenantidWrite p v s) :=
  rated_withVf hs (fun _ => rated_ite hs <| rated_modPart (fun _ => rfl) hs)
theorem ratedOut_execDebugTokenCheck {p token} (hs : Rated s) : RatedOut (execDebugTokenCheck p token s) :=
  rated_withPart hs (fun _ => rated_ite (rated_updPart (p := p) (f := fun q => { q with
    unlocked := true, dbgstat := 0, nonce := (Config.random s.draws).toNat % 2 ^ 32 }) hs rfl fun _ hq => hq) <| rated_modPart (fun _ => rfl) hs)
theorem rated_pgcmdWrite {p q v} (hs : Rated s) : Rated (s.pgcmdWrite p q v) := rated_ite hs <| rated_modPart (fun _ => rfl) <| rated_meetRecord hs
theorem rated_vfWrite {p q off v} (hs : Rated s) : Rated (s.vfWrite p q off v) :=
  rated_ite (rated_writeQueue hs) <| rated_ite (rated_ite (rated_enableQueue hs) <| rated_disableQueue hs) <| rated_ite (rated_writeTail hs) <|
    rated_ite (rated_modPart (fun _ => rfl) hs) <| rated_ite (rated_modPart (fun _ => rfl) hs) <| rated_ite (rated_modPart (fun _ => rfl) hs) <|
    rated_ite (rated_ite (rated_startLoad hs) <|
    rated_modPart (fun _ => rfl) hs) <| rated_ite (rated_ite (rated_modPart (fun _ => rfl) hs) hs) <| rated_ite (rated_pgcmdWrite hs) <|
    rated_ite (rated_ite (rated_modPeer hs) hs) <| rated_ite (rated_modPart (fun _ => rfl) hs) hs
theorem rated_pfWrite {off v} (hs : Rated s) : Rated (s.pfWrite off v) :=
  rated_ite hs <| rated_ite (rated_ite hs <| rated_ite hs hs) hs
theorem ratedOut_execRegisterWrite {p off v} (hs : Rated s) : RatedOut (execRegisterWrite p off v s) :=
  ratedOut_ite (rated_pfWrite hs) <| ratedOut_ite (rated_withPart hs (fun _ => rated_countHref hs)) <| rated_withVf hs (fun _ => rated_vfWrite hs)
theorem rated_setResponder {fn x} (hs : Rated s) : Rated (s.setResponder fn x) := rated_ite hs hs
theorem rated_answer {fn name ok sig ws f} (hs : Rated s) : Rated (answer s fn name ok sig ws f) :=
  rated_ite (rated_setResponder hs) <| rated_setResponder hs
theorem ratedOut_execFinish {fn ok} (hs : Rated s) : RatedOut (execFinish fn ok s) :=
  ratedOut_ite (rated_answer <| rated_setResponder hs) <| rated_answer hs

/-! ### The functions of Machine/Boot.lean -/

theorem rateOk_reset : RateOk Part.reset := by
  unfold RateOk
  decide
theorem ratedOut_execPartitionCreate {p r} (hs : Rated s) : RatedOut (execPartitionCreate p r s) := by
  unfold execPartitionCreate
  split
  · exact hs
  · exact rated_putPart hs rfl rateOk_reset
theorem ratedOut_execPartitionDestroy {p} (hs : Rated s) : RatedOut (execPartitionDestroy p s) :=
  rated_modPart (fun _ => rfl) <| rated_resetFunction hs
theorem rated_completeRecord {step unit choice result} (hs : Rated s) : Rated (s.completeRecord step unit choice result) := by
  unfold State.completeRecord
  split
  · exact rated_ite hs hs
  · exact hs
theorem rated_afterPower {on} : Rated (s.afterPower on) := rated_reset
theorem ratedOut_execPowerLoss : RatedOut (execPowerLoss s) := rated_afterPower
theorem ratedOut_execThermalTrip {die} (hs : Rated s) : RatedOut (execThermalTrip die s) := ratedOut_ite rated_afterPower hs
theorem rated_beginStep {fails step unit c0} (hs : Rated s) : Rated (State.beginStep fails s step unit c0) := rated_ite hs hs
theorem rated_beginNext {fails us} (hs : Rated s) : Rated (State.beginNext fails us s) := by
  induction us with
  | nil => exact hs
  | cons u us ih => exact rated_ite ih <| rated_beginStep hs
theorem rated_diePassed {step n d c} (hs : Rated s) : Rated (s.diePassed step n d c) :=
  rated_ite hs <| rated_ite hs <| rated_ite (rated_repairDie <| rated_keep <| rated_modDie <|
    rated_foldl (fun _ _ ht => rated_fence ht) hs) hs
theorem rated_packagePassed {step} (hs : Rated s) : Rated (s.packagePassed step) := rated_ite (rated_foldl (fun _ _ ht => ht) hs) hs
theorem rated_endStep {step unit c fails} (hs : Rated s) : Rated (s.endStep step unit c fails) :=
  rated_ite hs <| rated_ite (rated_beginStep <| rated_completeRecord hs) <| rated_ite hs <| rated_beginNext <|
    rated_ite (rated_diePassed <| rated_completeRecord hs) <| rated_packagePassed <| rated_completeRecord hs
theorem ratedOut_execPowerUp {fails} : RatedOut (execPowerUp fails s) := rated_beginNext rated_afterPower
theorem ratedOut_vecOp {g d a b k fn} (hs : Rated s) : RatedOut (vecOp g d a b k fn s) :=
  ratedOut_ite (rated_trapHere hs) <| ratedOut_ite hs hs
theorem ratedOut_ktestOp {g d a all} (hs : Rated s) : RatedOut (ktestOp g d a all s) :=
  ratedOut_ite (rated_trapHere hs) <| ratedOut_ite hs hs
theorem ratedOut_execResultLand {k} (hs : Rated s) : RatedOut (execResultLand k s) := hs
theorem rated_readOperands {k} (hs : Rated s) : Rated (s.readOperands k) := rated_closeReads hs

/-! ### The functions of Machine/Clock.lean -/

theorem rated_meetLine {e} (hs : Rated s) : Rated (s.meetLine e) := rated_ite (rated_modLaunch hs) hs
theorem rated_scatterRead {e} (hs : Rated s) : Rated (s.scatterRead e) :=
  rated_ite hs <| rated_foldl (fun _ _ ht => rated_ite ht ht) hs
theorem rated_recordAccesses (hs : Rated s) : Rated s.recordAccesses :=
  rated_foldl (fun _ _ ht => rated_meetLine ht) <| rated_foldl (fun _ _ ht => rated_scatterRead ht) hs
theorem rated_patrolOn (hs : Rated s) : Rated s.patrolOn := by
  unfold State.patrolOn
  refine rated_ite ?_ hs
  refine rated_foldl (fun _ _ ht => ?_) hs
  split
  · rename_i heq
    exact rated_of_next (ratedOut_execPatrolRead ht) heq
  · exact ht
theorem rateOk_closeBarriers {q : Part} (hq : RateOk q) : RateOk (q.closeBarriers s) := by
  unfold Part.closeBarriers
  split
  · exact hq
  · exact hq
theorem rated_endWallTick {s0 : State} (hs : Rated s0) : Rated s0.endWallTick :=
  rated_mapParts (rated_patrolOn <| rated_servePorts <| rated_recordAccesses hs) rfl
    (fun e => by
      split
      · rfl
      · rfl)
    fun e he => by
      split
      · exact rateOk_closeBarriers he
      · exact he
theorem ratedOut_exec {i} (hs : Rated s) : RatedOut (exec i s) := by
  cases i <;> dsimp only [exec]
  case vaddF32 | vsubF32 | vmulF32 | vfmaF32 | vfmsF32 | vminF32 | vmaxF32 | vabsF32 | vnegF32 | vrndF32
    | vcmpF32Eq | vcmpF32Ne | vcmpF32Lt | vcmpF32Le | vcmpF32Unord | vcmpI32Eq | vcmpI32Ne | vcmpI32Lt
    | vcmpI32Ge | vcmpI32Ltu | vcmpI32Geu | vaddI32 | vsubI32 | vmulI32 | vmulhI32 | vminI32 | vmaxI32
    | vminN32 | vmaxN32 | vaddsI32 | vsubsI32 | vabsI32 | vnegI32 | vand | vor | vxor | vandn | vnot | vsll
    | vsrl | vsra | vrol | vsllImm | vsrlImm | vsraImm | vrolImm | vsel | vdotI8I8 | vdotN8I8 | vdotN8N8
    | vcvt | vcvtSat | vscaI32 | vscaF32 | vsplat | vrotr | vbcr | vrotc | vbcc | vredrSumF32 | vredrMaxF32
    | vredrMinF32 | vredrSumI32 | vredrMaxI32 | vredrMinI32 | vredcSumF32 | vredcMaxF32 | vredcMinF32
    | vredcSumI32 | vredcMaxI32 | vredcMinI32 | vtr | kand | kor | kxor | kandn | knot | kmov | vrcpe | vrsqe
    | vrcps | vrsqs | vfexp | vexpi | vexpxE | vexpxM | vlg2e | vrngN32 | vrngF32 => exact ratedOut_vecOp hs
  case add | sub | and | or | xor | andn | orn | xnor | sll | srl | sra | rol | ror | mul | mulh | mulhu
    | min | max | minu | maxu => exact ratedOut_aluRR hs
  case waitt | waitd | tmge | bdge | sel | setb | getb | setbi | sysrd | syswr | qrd | mark | mlease | cprog
    | cprogi | xmark | krot => exact ratedOut_slotOp hs
  case clz | ctz | popc | bswap | addi | andi | ori | xori | slli | srli | srai | roli | movi => exact ratedOut_aluR hs
  case getVersion | getCapabilities | negotiateAlgorithms | getDigests | getCertificate | challenge
    | getMeasurements | keyExchange | keyUpdate | endSession => exact rated_answer hs
  case br | brb | call | callb | loop | trap | brk | mset | mseti => exact ratedOut_slotTry hs
  case amoAdd | amoSwap | amoAnd | amoOr | amoXor | amoMin | amoMax | amoMinu | amoMaxu => exact ratedOut_amoOp hs
  case mwld | mwlda | mwldb | mma | mmaAcc | mzero | mdrv | mdrs => exact ratedOut_cmdOp hs
  case ldb | ldbu | ldh | ldhu | ldw | ldwu | ldd => exact ratedOut_loadOp hs
  case cbar | cbarNw | dbar | dbarNw | ssb | ssbNw => exact ratedOut_barrierOp hs
  case cmpEq | cmpNe | cmpLt | cmpGe | cmpLtu | cmpGeu => exact ratedOut_cmpRR hs
  case cmpiEq | cmpiNe | cmpiLt | cmpiGe | cmpiLtu | cmpiGeu => exact ratedOut_cmpRI hs
  case pand | por | pxor | pandn | porn | pnot => exact ratedOut_plog hs
  case cpy | cpyt | cpl | send | recv => exact ratedOut_copyOp hs
  case nop | servoSourceSeen | servoSourceSelect | jreset => exact hs
  case stb | sth | stw | std => exact ratedOut_storeOp hs
  case bstatSub | bstatDie | bstatSs => exact ratedOut_bstatOp hs
  case movk16 | movk32 | movk48 => exact ratedOut_movk hs
  case vld | vlds | vldf6 => exact ratedOut_vldOp hs
  case vst | vsts | vstf6 => exact ratedOut_vstOp hs
  case tbump | tcommit | tdig => exact ratedOut_tensorOp hs
  case sealCopy | unsealCopy | scrubCopy => exact ratedOut_sealOp hs
  case dieDrain | debugLock | debuggerResume => exact rated_modPart (fun _ => rfl) hs
  case attachResetEnd | attachTrainingPass | attachRetrainRequest => exact rated_moveAttach hs
  case mbrChain | mbrTree => exact ratedOut_mbrOp hs
  case adds | subs => exact ratedOut_aluSat hs
  case vldr | vstr => exact ratedOut_rowOp hs
  case kany | kall => exact ratedOut_ktestOp hs
  case nxt => exact ratedOut_execNxt hs
  case exit => exact ratedOut_execExit hs
  case yield => exact ratedOut_execYield hs
  case mrel => exact ratedOut_execMrel hs
  case bundleIssue => exact ratedOut_execBundleIssue hs
  case resultLand => exact ratedOut_execResultLand hs
  case waitEnd => exact ratedOut_execWaitEnd hs
  case nxtDelivery => exact ratedOut_execNxtDelivery hs
  case bankAccessPerform => exact ratedOut_execBankAccessPerform hs
  case holdRequest => exact ratedOut_execHoldRequest hs
  case holdTakesEffect => exact ratedOut_execHoldTakesEffect hs
  case holdResume => exact ratedOut_execHoldResume hs
  case stationmasterResume => exact ratedOut_execStationmasterResume hs
  case governorWindow => exact ratedOut_execGovernorWindow hs
  case rateChangeEffect => exact ratedOut_execRateChangeEffect hs
  case thermalTrip => exact ratedOut_execThermalTrip hs
  case powerUp => exact ratedOut_execPowerUp
  case servoMeasurement => exact ratedOut_execServoMeasurement hs
  case servoSourceLost => exact ratedOut_execServoSourceLost hs
  case launchStart => exact ratedOut_execLaunchStart hs
  case coreExitTick => exact ratedOut_execCoreExitTick hs
  case launchRetire => exact ratedOut_execLaunchRetire hs
  case leaseGrant => exact ratedOut_execLeaseGrant hs
  case leaseEnd => exact ratedOut_execLeaseEnd hs
  case leaseTurnEnd => exact ratedOut_execLeaseTurnEnd hs
  case matrixCommandSwap => exact ratedOut_execMatrixCommandSwap hs
  case matrixCommandComplete => exact ratedOut_execMatrixCommandComplete hs
  case beatSourceRead => exact ratedOut_execBeatSourceRead hs
  case indexEntryRead => exact ratedOut_execIndexEntryRead hs
  case beatRelease => exact ratedOut_execBeatRelease hs
  case cplSourceRead => exact ratedOut_execCplSourceRead hs
  case cplDestWrite => exact ratedOut_execCplDestWrite hs
  case sendBeatRead => exact ratedOut_execSendBeatRead hs
  case messageArrival => exact ratedOut_execMessageArrival hs
  case lateBeatCheck => exact ratedOut_execLateBeatCheck hs
  case copyFault => exact ratedOut_execCopyFault hs
  case wportBeatConsume => exact ratedOut_execWportBeatConsume hs
  case virtLookup => exact ratedOut_execVirtLookup hs
  case walkComplete => exact ratedOut_execWalkComplete hs
  case sealDescriptorCheck => exact ratedOut_execSealDescriptorCheck hs
  case tbumpEffect => exact ratedOut_execTbumpEffect hs
  case tcommitEffect => exact ratedOut_execTcommitEffect hs
  case tdigEffect => exact ratedOut_execTdigEffect hs
  case digestResult => exact ratedOut_execDigestResult hs
  case krotEffect => exact ratedOut_execKrotEffect hs
  case barrierComplete => exact ratedOut_execBarrierComplete hs
  case create => exact ratedOut_execCreate hs
  case destroy => exact ratedOut_execDestroy hs
  case preempt => exact ratedOut_execPreempt hs
  case resume => exact ratedOut_execResume hs
  case policy => exact ratedOut_execPolicy hs
  case contextCreateComplete => exact ratedOut_execContextCreateComplete hs
  case preemptBoundary => exact ratedOut_execPreemptBoundary hs
  case saveCommit => exact ratedOut_execSaveCommit hs
  case contextReissue => exact ratedOut_execContextReissue hs
  case teardownComplete => exact ratedOut_execTeardownComplete hs
  case contextScrubComplete => exact ratedOut_execContextScrubComplete hs
  case builtinTestComplete => exact ratedOut_execBuiltinTestComplete hs
  case partitionReset => exact ratedOut_execPartitionReset hs
  case partitionCreate => exact ratedOut_execPartitionCreate hs
  case partitionDestroy => exact ratedOut_execPartitionDestroy hs
  case queueEnable => exact ratedOut_execQueueEnable hs
  case queueDisable => exact ratedOut_execQueueDisable hs
  case qtailWrite => exact ratedOut_execQtailWrite hs
  case queueSelect => exact ratedOut_execQueueSelect hs
  case claimResolve => exact ratedOut_execClaimResolve hs
  case graphKernelNode => exact ratedOut_execGraphKernelNode hs
  case graphCondNode => exact ratedOut_execGraphCondNode hs
  case graphWhileNode => exact ratedOut_execGraphWhileNode hs
  case graphSwapNode => exact ratedOut_execGraphSwapNode hs
  case graphEndNode => exact ratedOut_execGraphEndNode hs
  case assign => exact ratedOut_execAssign hs
  case release => exact ratedOut_execRelease hs
  case invalidate => exact ratedOut_execInvalidate hs
  case migrate => exact ratedOut_execMigrate hs
  case migrationCopyStart => exact ratedOut_execMigrationCopyStart hs
  case copyEngineComplete => exact ratedOut_execCopyEngineComplete hs
  case patrolRead => exact ratedOut_execPatrolRead hs
  case manifestLoad => exact ratedOut_execManifestLoad hs
  case shardAttemptComplete => exact ratedOut_execShardAttemptComplete hs
  case shardDeadline => exact ratedOut_execShardDeadline hs
  case manifestRecheck => exact ratedOut_execManifestRecheck hs
  case attachTrainingFail => exact ratedOut_execAttachTrainingFail hs
  case circuitEnable => exact ratedOut_execCircuitEnable hs
  case circuitDisable => exact ratedOut_execCircuitDisable hs
  case circuitLit => exact ratedOut_execCircuitLit hs
  case circuitDrainComplete => exact ratedOut_execCircuitDrainComplete hs
  case wavelengthFence => exact ratedOut_execWavelengthFence hs
  case portEnable => exact ratedOut_execPortEnable hs
  case portTrainingPass => exact ratedOut_execPortTrainingPass hs
  case portLaneLoss => exact ratedOut_execPortLaneLoss hs
  case portDisable => exact ratedOut_execPortDisable hs
  case fabidxWrite => exact ratedOut_execFabidxWrite hs
  case flitReceive => exact ratedOut_execFlitReceive hs
  case peerOpen => exact ratedOut_execPeerOpen hs
  case peerClose => exact ratedOut_execPeerClose hs
  case peerInit => exact ratedOut_execPeerInit hs
  case peerResp => exact ratedOut_execPeerResp hs
  case peerFin => exact ratedOut_execPeerFin hs
  case peerCloseReceived => exact ratedOut_execPeerCloseReceived hs
  case peerTimeout => exact ratedOut_execPeerTimeout hs
  case functionLevelReset => exact ratedOut_execFunctionLevelReset hs
  case tdispMessage => exact ratedOut_execTdispMessage hs
  case ideCheckFail => exact ratedOut_execIdeCheckFail hs
  case hostDmaRequest => exact ratedOut_execHostDmaRequest hs
  case finish => exact ratedOut_execFinish hs
  case tenantidWrite => exact ratedOut_execTenantidWrite hs
  case debugTokenCheck => exact ratedOut_execDebugTokenCheck hs
  case debugStopRequest => exact ratedOut_execDebugStopRequest hs
  case fenceclr => exact ratedOut_execFenceclr hs
  case registerWrite => exact ratedOut_execRegisterWrite hs
  case beatPresent => exact ratedOut_execBeatPresent hs
  case faultActionsComplete => exact ratedOut_execFaultActionsComplete hs
  case powerLoss => exact ratedOut_execPowerLoss
  case waitBudgetExhausted => exact ratedOut_execWaitBudgetExhausted hs

/-! ### The functions of Machine/Run.lean -/

theorem ratedOut_runOp {k e} (hs : Rated s) : RatedOut (runOp k s e) := ratedOut_exec hs
theorem rated_firstTrap {k ops r} (hs : Rated s) (e : firstTrap k s ops = some r) : Rated r.2 := by
  induction ops with
  | nil => cases e
  | cons o ops ih =>
    unfold firstTrap at e
    split at e
    · rename_i heq
      split at e
      · exact Option.some.inj e ▸ rated_of_next (ratedOut_runOp hs) heq
      · exact ih e
    · exact ih e
theorem rated_noted {s s' : State} {k n} (hs : Rated s') : Rated (State.noted k n s s') := rated_ite hs hs
theorem ratedOut_runOps {k ops} (hs : Rated s) : RatedOut (runOps k ops s) := by
  induction ops generalizing s with
  | nil => exact hs
  | cons o ops ih =>
    unfold runOps
    split
    · rename_i heq
      exact ih <| rated_noted <| rated_of_next (ratedOut_runOp hs) heq
    · trivial
    · trivial
theorem ratedOut_finishBundle {k} (hs : Rated s) : RatedOut (finishBundle k s) := by
  unfold finishBundle
  extract_lets -underBinder +onlyGivenNames clean trap
  have hclean : ∀ t, Rated t → Rated (clean t) := fun _ ht => ht
  split
  · rename_i heq
    exact ratedOut_ite (hclean _ (rated_firstTrap hs heq)) <| hclean _ (rated_takeTrap hs)
  · exact hclean _ (rated_takeTrap hs)
  · rename_i heq
    exact hclean _ (rated_firstTrap hs heq)
  · split
    · rename_i heq
      exact hclean _ <| rated_setBarriers <| rated_of_next (ratedOut_runOps hs) heq
    · exact ratedOut_runOps hs
theorem ratedOut_runBundle {k} (hs : Rated s) : RatedOut (runBundle k s) := by
  unfold runBundle
  split
  · rename_i heq
    have ht := rated_of_next (ratedOut_execBundleIssue hs) heq
    exact ratedOut_ite (ratedOut_finishBundle ht) ht
  · exact ratedOut_execBundleIssue hs
theorem ratedOut_runGrant {u} (hs : Rated s) : RatedOut (runGrant u s) := by
  unfold runGrant
  extract_lets -underBinder +onlyGivenNames ks mark clear
  have hg : RatedOut (execLeaseGrant u (ks.foldl mark s)) :=
    ratedOut_execLeaseGrant <| rated_foldl (fun _ _ ht => rated_ite ht ht) hs
  split
  · rename_i heq
    exact rated_foldl (fun _ _ hu => rated_ite hu hu) <| rated_of_next hg heq
  · exact hg
theorem ratedOut_unlessTrap {k f} (hf : ∀ x, Rated x → RatedOut (f x)) (hs : Rated s) : RatedOut (unlessTrap k f s) := by
  unfold unlessTrap
  split
  · rename_i heq
    exact ratedOut_ite hs <| rated_of_next (hf _ hs) heq
  · exact hf _ hs
theorem ratedOut_unlessHalted {k f} (hf : ∀ x, Rated x → RatedOut (f x)) (hs : Rated s) : RatedOut (unlessHalted k f s) := ratedOut_ite hs <| hf _ hs
theorem ratedOut_runEvent {e} (hs : Rated s) : RatedOut (runEvent e s) := by
  unfold runEvent
  split
  · exact ratedOut_runBundle hs
  · exact ratedOut_execResultLand hs
  · exact ratedOut_unlessHalted (fun _ ht => rated_readOperands ht) hs
  · exact ratedOut_execWaitEnd hs
  · exact ratedOut_execNxtDelivery hs
  · exact ratedOut_execBankAccessPerform hs
  · exact ratedOut_execHoldTakesEffect hs
  · exact ratedOut_execHoldResume hs
  · exact ratedOut_execStationmasterResume hs
  · exact ratedOut_execRateChangeEffect hs
  · exact ratedOut_execLaunchStart hs
  · exact ratedOut_unlessHalted (fun _ ht => ratedOut_execCoreExitTick ht) hs
  · exact ratedOut_execLaunchRetire hs
  · exact ratedOut_runGrant hs
  · exact ratedOut_execLeaseEnd hs
  · exact ratedOut_execLeaseTurnEnd hs
  · exact ratedOut_execMatrixCommandSwap hs
  · exact ratedOut_execMatrixCommandComplete hs
  · exact ratedOut_unlessHalted (fun _ ht => ratedOut_execBeatSourceRead ht) hs
  · exact ratedOut_unlessHalted (fun _ ht => ratedOut_execIndexEntryRead ht) hs
  · exact ratedOut_unlessHalted (fun _ ht => ratedOut_execBeatRelease ht) hs
  · exact ratedOut_unlessHalted (fun _ ht => ratedOut_execCplSourceRead ht) hs
  · exact ratedOut_unlessHalted (fun _ ht => ratedOut_execCplDestWrite ht) hs
  · exact ratedOut_unlessHalted (fun _ ht => ratedOut_execSendBeatRead ht) hs
  · exact ratedOut_unlessTrap (fun _ ht => ratedOut_execMessageArrival ht) hs
  · exact ratedOut_unlessHalted (fun _ ht => ratedOut_execLateBeatCheck ht) hs
  · exact ratedOut_execCopyFault hs
  · exact ratedOut_unlessHalted (fun _ ht => ratedOut_execWportBeatConsume ht) hs
  · exact ratedOut_unlessHalted (fun _ ht => ratedOut_execVirtLookup ht) hs
  · exact ratedOut_execWalkComplete hs
  · exact ratedOut_unlessHalted (fun _ ht => ratedOut_execSealDescriptorCheck ht) hs
  · exact ratedOut_unlessTrap (fun _ ht => ratedOut_execTbumpEffect ht) hs
  · exact ratedOut_unlessTrap (fun _ ht => ratedOut_execTcommitEffect ht) hs
  · exact ratedOut_unlessTrap (fun _ ht => ratedOut_execTdigEffect ht) hs
  · exact ratedOut_execDigestResult hs
  · exact rated_digestRead hs
  · exact ratedOut_unlessTrap (fun _ ht => ratedOut_execKrotEffect ht) hs
  · exact ratedOut_execBarrierComplete hs
  · exact ratedOut_execContextCreateComplete hs
  · exact ratedOut_execPreemptBoundary hs
  · exact ratedOut_execSaveCommit hs
  · exact ratedOut_execContextReissue hs
  · exact ratedOut_execTeardownComplete hs
  · exact ratedOut_execContextScrubComplete hs
  · exact ratedOut_execPartitionReset hs
  · exact ratedOut_execQueueSelect hs
  · exact ratedOut_execClaimResolve hs
  · exact ratedOut_execGraphKernelNode hs
  · exact ratedOut_execGraphCondNode hs
  · exact ratedOut_execGraphWhileNode hs
  · exact ratedOut_execGraphSwapNode hs
  · exact ratedOut_execGraphEndNode hs
  · exact ratedOut_execAssign hs
  · exact ratedOut_execRelease hs
  · exact ratedOut_execInvalidate hs
  · exact ratedOut_execMigrate hs
  · exact ratedOut_execMigrationCopyStart hs
  · exact ratedOut_execCopyEngineComplete hs
  · exact ratedOut_execShardDeadline hs
  · exact ratedOut_execManifestRecheck hs
  · exact ratedOut_execCircuitLit hs
  · exact ratedOut_execCircuitDrainComplete hs
  · exact ratedOut_execPeerTimeout hs
  · exact ratedOut_execBeatPresent hs
  · exact ratedOut_execFaultActionsComplete hs
  · exact ratedOut_execWaitBudgetExhausted hs
  · exact ratedOut_execBuiltinTestComplete hs
  · exact rated_endStep hs
theorem rated_syncCcb {old new : State} (hs : Rated new) : Rated (old.syncCcb new) := by
  unfold State.syncCcb
  refine rated_foldl (fun _ _ hu => ?_) hs
  refine rated_foldl (fun _ _ hv => ?_) hu
  split
  · exact rated_ite hv <| rated_writeCcb hv
  · exact rated_writeCcb hv
theorem ratedOut_settled {o} (hs : RatedOut o) : RatedOut (settled s o) := by
  unfold settled
  split
  · exact rated_syncCcb (new := _) hs
  · exact hs
theorem ratedOut_stepDark : RatedOut (stepDark s) := by
  unfold stepDark
  split
  · exact ratedOut_execPowerUp
  · exact trivial
theorem ratedOut_nextDue {o} (hs : Rated s) (e : s.nextDue = some o) : RatedOut o := by
  obtain ⟨n, -, hn⟩ := List.exists_of_findSome?_eq_some e
  split at hn
  · exact Option.some.inj hn ▸ ratedOut_runEvent hs
  · obtain ⟨r, -, rfl⟩ := Option.map_eq_some_iff.mp hn
    exact ratedOut_exec hs
theorem ratedOut_stepClock (hs : Rated s) : RatedOut (stepClock s) := by
  unfold stepClock
  split
  · refine ratedOut_ite (ratedOut_settled <| rated_runChecks hs) ?_
    split
    · rename_i heq
      exact ratedOut_settled <| ratedOut_nextDue hs heq
    · exact hs
  · exact hs
  · exact hs
  · split
    · exact ratedOut_settled <| ratedOut_exec hs
    · exact hs
  · exact rated_endWallTick hs
theorem ratedOut_step (hs : Rated s) : RatedOut (step s) := by
  unfold step
  refine ratedOut_ite ?_ ratedOut_stepDark
  split
  · exact ratedOut_settled <| ratedOut_runEvent hs
  · exact ratedOut_stepClock hs

end

/-- Settles O60: a step from a state whose rates are within the bounds leaves one, function by function of the model. -/
theorem stepKeepsTheRates : Obligations.StepKeepsTheRates := by
  unfold Obligations.StepKeepsTheRates
  intro s t hs e
  exact (ratesOk_iff_rated t).mpr (rated_of_next (ratedOut_step ((ratesOk_iff_rated s).mp hs)) e)

end Sys2Proof.Proofs
end

section
/-! PROOFS. A row of the matrix product on the sign-select array (O30): the elements that a write into a tile row replaces, and the sum of the products. -/
namespace Sys2Proof.Proofs
open Sys2Proof.Machine Sys2Proof.Laws Sys2Proof.Claims

/-- An element that another one replaces. -/
theorem zElem_replace (v : TileRow) (x : Lane) (j n : Nat) (hn : n < 128) :
    zElem ((v &&& ~~~(0xFFFFFFFF#4096 <<< (32 * j))) ||| (x.setWidth 4096 <<< (32 * j))) n = if n = j then x else zElem v n := by
  have hones : 0xFFFFFFFF#4096 = (BitVec.allOnes 32).setWidth 4096 := (BitVec.setWidth_ofNat_of_le_of_lt (by decide) (by decide)).symm
  apply BitVec.eq_of_getLsbD_eq
  intro i hi
  have hb : 32 * n + i < 4096 := by omega
  rw [hones]
  simp only [zElem, BitVec.getLsbD_extractLsb', BitVec.getLsbD_or, BitVec.getLsbD_and, BitVec.getLsbD_not, BitVec.getLsbD_shiftLeft,
    BitVec.getLsbD_setWidth, BitVec.getLsbD_allOnes, hi, hb, decide_true, Bool.true_and]
  rcases Nat.lt_trichotomy n j with h | rfl | h
  · simp [show 32 * n + i < 32 * j by omega, h.ne, hi]
  · simp [hi, show i < 4096 by omega]
  · have hge : 32 ≤ 32 * n + i - 32 * j := by omega
    simp [hge, h.ne', show ¬ 32 * n + i - 32 * j < 32 by omega, hi]

theorem zElem_zPut (old : TileRow) (f : Nat → Lane) (n ncol : Nat) (hn : n < 128) : zElem (zPut old ncol f) n = if n < ncol then f n else zElem old n := by
  induction ncol with
  | zero => rfl
  | succ ncol ih =>
    unfold zPut at ih ⊢
    rw [List.range_succ, List.foldl_append, List.foldl_cons, List.foldl_nil, zElem_replace _ _ _ _ hn, ih]
    rcases Nat.lt_trichotomy n ncol with h | rfl | h
    · simp [h, h.ne, Nat.lt_succ_of_lt h]
    · simp
    · simp [h.ne', show ¬ n < ncol by omega, show ¬ n < ncol + 1 by omega]

/-- A fold over a list of values beside their places is the sum over the places. -/
theorem foldl_zip_range_eq_sum (f : Nat → Nat) (g : Nat → Nat → Int) (K : Nat) :
    (((List.range K).map f).zip (List.range K)).foldl (fun (s : Int) e => s + g e.1 e.2) 0 = ((List.range K).map fun k => g (f k) k).sum := by
  have hzip : ((List.range K).map f).zip (List.range K) = (List.range K).map fun k => (f k, k) := by
    simpa using List.zip_map' (f := f) (g := id) (l := List.range K)
  rw [hzip, List.foldl_map, List.sum_eq_foldl, List.foldl_map]

/-- Settles O30: the row of an MMA on the sign-select array replaces the elements below NCOL, each by the sum of its products. -/
theorem matrixRow : Obligations.MatrixRow := by
  unfold Obligations.MatrixRow
  intro c y w wf af z m n acc hssa hn hcol old sum
  unfold mmaRow
  rw [if_pos hssa]
  refine ⟨rfl, ?_⟩
  dsimp only
  rw [zElem_zPut _ _ _ _ hn, foldl_zip_range_eq_sum (aelem y af m) fun x k => decodeI wf (wCode w k n) * decodeI af x]

end Sys2Proof.Proofs
end

section
/-! PROOFS. Rounding (O27). The magnitude codes of a float format are in the order of their values (`magVal_strictMono`), `rnd` chooses between the two codes about
the exact value (`rnd_between`), and `rint` between the two integers about it. -/
namespace Sys2Proof.Proofs
open Sys2Proof.Machine Sys2Proof.Laws Sys2Proof.Claims

/-! ### Magnitude codes and their values (Table 2.2) -/

/-- The binade of a magnitude code, counted from that of the subnormal numbers. -/
def magBinade (f : Fmt) (c : Nat) : Nat := c / 2 ^ fmtP f - 1
/-- The significand of a magnitude code. -/
def magMant (f : Fmt) (c : Nat) : Nat := c - magBinade f c * 2 ^ fmtP f
/-- The exponent of its last place. -/
def magExp (f : Fmt) (c : Nat) : Int := fmtEmin f - fmtP f + magBinade f c
/-- The value of a magnitude code. -/
def magVal (f : Fmt) (c : Nat) : ℚ := magMant f c * 2 ^ magExp f c

theorem two_zpow_pos (e : Int) : (0 : ℚ) < 2 ^ e := zpow_pos two_pos e

/-- A code is its binade and its significand, which is below 2^(p + 1), and from 2^p on outside the lowest binade. -/
theorem magBinade_magMant (f : Fmt) (c : Nat) :
    c = magBinade f c * 2 ^ fmtP f + magMant f c ∧ magMant f c < 2 * 2 ^ fmtP f ∧ (magBinade f c = 0 ∨ 2 ^ fmtP f ≤ magMant f c) := by
  have hpos : 0 < 2 ^ fmtP f := Nat.two_pow_pos _
  have hdiv := Nat.div_add_mod' c (2 ^ fmtP f)
  have hmod := Nat.mod_lt c hpos
  unfold magMant magBinade
  generalize c / 2 ^ fmtP f = E at hdiv ⊢
  cases E with
  | zero => omega
  | succ a =>
    rw [Nat.succ_mul] at hdiv
    rw [Nat.add_sub_cancel]
    omega

theorem magMant_of_lt {f : Fmt} {c : Nat} (h : c / 2 ^ fmtP f = 0) : magMant f c = c % 2 ^ fmtP f := by
  have hc : c < 2 ^ fmtP f := (Nat.div_eq_zero_iff_lt (Nat.two_pow_pos _)).mp h
  simp [magMant, magBinade, h, Nat.mod_eq_of_lt hc]

theorem magMant_of_ge {f : Fmt} {c : Nat} (h : c / 2 ^ fmtP f ≠ 0) : magMant f c = 2 ^ fmtP f + c % 2 ^ fmtP f := by
  have hdiv := Nat.div_add_mod' c (2 ^ fmtP f)
  unfold magMant magBinade
  obtain ⟨a, ha⟩ := Nat.exists_eq_succ_of_ne_zero h
  rw [ha, Nat.succ_mul] at hdiv
  rw [ha, Nat.succ_sub_one]
  omega

/-- A code written with any significand of its binade up to the first of the next. -/
theorem magVal_of_binade {f : Fmt} {a n : Nat} (hn : n ≤ 2 * 2 ^ fmtP f) (ha : a = 0 ∨ 2 ^ fmtP f ≤ n) :
    magVal f (a * 2 ^ fmtP f + n) = n * 2 ^ (fmtEmin f - fmtP f + a) := by
  have hpos : 0 < 2 ^ fmtP f := Nat.two_pow_pos _
  rcases Nat.lt_or_eq_of_le hn with hlt | rfl
  · have hb : magBinade f (a * 2 ^ fmtP f + n) = a := by
      unfold magBinade
      rw [Nat.mul_comm, Nat.mul_add_div hpos]
      rcases ha with rfl | ha
      · have : n / 2 ^ fmtP f < 2 := Nat.div_lt_of_lt_mul (by omega)
        omega
      · rw [Nat.div_eq_of_lt_le (k := 1) (by omega) (by omega)]
        rfl
    simp [magVal, magMant, magExp, hb]
  · have hb : magBinade f (a * 2 ^ fmtP f + 2 * 2 ^ fmtP f) = a + 1 := by
      unfold magBinade
      rw [← Nat.add_mul, Nat.mul_div_cancel _ hpos]
      rfl
    have hm : magMant f (a * 2 ^ fmtP f + 2 * 2 ^ fmtP f) = 2 ^ fmtP f := by
      unfold magMant
      rw [hb, ← Nat.add_mul, ← Nat.sub_mul]
      simp [show a + 2 - (a + 1) = 1 by omega]
    rw [magVal, magExp, hb, hm]
    push_cast
    rw [show fmtEmin f - fmtP f + ((a : Int) + 1) = fmtEmin f - fmtP f + a + 1 by ring, zpow_add_one₀ two_ne_zero]
    ring

/-- The gap between a code and the next one. -/
theorem magVal_succ (f : Fmt) (c : Nat) : magVal f (c + 1) = magVal f c + 2 ^ magExp f c := by
  obtain ⟨hc, hlt, hge⟩ := magBinade_magMant f c
  have hsucc : c + 1 = magBinade f c * 2 ^ fmtP f + (magMant f c + 1) := by omega
  have hge' : magBinade f c = 0 ∨ 2 ^ fmtP f ≤ magMant f c + 1 := by omega
  rw [hsucc, magVal_of_binade hlt hge', ← magExp, magVal]
  push_cast
  ring

theorem magVal_strictMono (f : Fmt) : StrictMono (magVal f) := strictMono_nat_of_lt_succ fun c => by
  rw [magVal_succ]
  exact lt_add_of_pos_right _ (two_zpow_pos _)

theorem magVal_nonneg (f : Fmt) (c : Nat) : 0 ≤ magVal f c := mul_nonneg (Nat.cast_nonneg _) (two_zpow_pos _).le

/-! ### Codes with their sign -/

/-- A rational with a sign. -/
def withSign (neg : Bool) (x : ℚ) : ℚ := if neg = true then -x else x

theorem abs_withSign (neg : Bool) (x : ℚ) : |withSign neg x| = |x| := by
  unfold withSign
  split
  · exact abs_neg x
  · rfl

theorem withSign_sub (neg : Bool) (x y : ℚ) : withSign neg x - withSign neg y = withSign neg (x - y) := by
  unfold withSign
  split
  · ring
  · rfl

theorem withSign_not (neg : Bool) (x : ℚ) : withSign (!neg) x = withSign neg (-x) := by
  cases neg
  · rfl
  · exact (neg_neg x).symm

theorem valueOf_fin (neg : Bool) (m : Nat) (e : Int) : valueOf (.fin neg m e) = withSign neg (m * 2 ^ e) := by
  cases neg
  · simp [valueOf, withSign]
  · simp [valueOf, withSign]

theorem fmtMaxCode_lt_fmtSign {f : Fmt} (hf : f.isFloat = true) : fmtMaxCode f < fmtSign f := by
  revert hf
  cases f <;> decide

theorem one_le_fmtP (f : Fmt) : 1 ≤ fmtP f := by cases f <;> decide

theorem two_mul_fmtSign (f : Fmt) : 2 ^ fmtWidth f = 2 * fmtSign f := by cases f <;> rfl

theorem signed_lt {f : Fmt} {neg : Bool} {c : Nat} (hc : c < fmtSign f) : signed f neg c < 2 ^ fmtWidth f := by
  rw [two_mul_fmtSign]
  unfold signed
  split <;> omega

/-- What a code holds: its sign and its magnitude code. -/
theorem eq_signed {f : Fmt} {x : Nat} (hx : x < 2 ^ fmtWidth f) : x = signed f (x / fmtSign f % 2 == 1) (x % fmtSign f) := by
  rw [two_mul_fmtSign] at hx
  have hpos : 0 < fmtSign f := Nat.two_pow_pos _
  have hdiv := Nat.div_add_mod' x (fmtSign f)
  have hlt : x / fmtSign f < 2 := Nat.div_lt_of_lt_mul (by omega)
  unfold signed
  rcases Nat.le_one_iff_eq_zero_or_eq_one.mp (Nat.le_of_lt_succ hlt) with h | h
  · rw [h] at hdiv
    simp [h]
    omega
  · rw [h] at hdiv
    simp [h]
    omega

theorem signed_mod_fmtSign {f : Fmt} {neg : Bool} {c : Nat} (hc : c < fmtSign f) : signed f neg c % fmtSign f = c := by
  unfold signed
  split
  · rw [Nat.add_mod_left, Nat.mod_eq_of_lt hc]
  · exact Nat.mod_eq_of_lt hc

theorem signed_div_fmtSign {f : Fmt} {neg : Bool} {c : Nat} (hc : c < fmtSign f) : (signed f neg c / fmtSign f % 2 == 1) = neg := by
  have hpos : 0 < fmtSign f := Nat.two_pow_pos _
  unfold signed
  cases neg
  · simp [Nat.div_eq_of_lt hc]
  · simp [Nat.add_div_left _ hpos, Nat.div_eq_of_lt hc]

/-- A code whose magnitude is not above the largest finite one. -/
theorem decodeF_finite {f : Fmt} {x : Nat} (hx : x % fmtSign f ≤ fmtMaxCode f) :
    decodeF f x = .fin (x / fmtSign f % 2 == 1) (magMant f (x % fmtSign f)) (magExp f (x % fmtSign f)) := by
  unfold decodeF
  simp only [Nat.not_lt.mpr hx, if_false]
  split
  next h => rw [magMant_of_lt h]; simp [magExp, magBinade, h]
  next h =>
    rw [magMant_of_ge h]
    rw [magExp, magBinade, Nat.cast_pred (Nat.pos_of_ne_zero h)]

theorem decodeF_signed {f : Fmt} (hf : f.isFloat = true) (neg : Bool) {c : Nat} (hc : c ≤ fmtMaxCode f) :
    decodeF f (signed f neg c) = .fin neg (magMant f c) (magExp f c) := by
  have hlt : c < fmtSign f := hc.trans_lt (fmtMaxCode_lt_fmtSign hf)
  have hmod := signed_mod_fmtSign (neg := neg) hlt
  rw [decodeF_finite (by omega), hmod, signed_div_fmtSign hlt]

theorem isFinite_signed {f : Fmt} (hf : f.isFloat = true) (neg : Bool) {c : Nat} (hc : c ≤ fmtMaxCode f) : isFinite f (signed f neg c) := by
  have hlt : c < fmtSign f := hc.trans_lt (fmtMaxCode_lt_fmtSign hf)
  exact ⟨signed_lt hlt, (signed_mod_fmtSign hlt).trans_le hc⟩

theorem exists_signed_of_isFinite {f : Fmt} {x : Nat} (hx : isFinite f x) : ∃ neg c, c ≤ fmtMaxCode f ∧ x = signed f neg c :=
  ⟨_, _, hx.2, eq_signed hx.1⟩

theorem valueOf_signed {f : Fmt} (hf : f.isFloat = true) (neg : Bool) {c : Nat} (hc : c ≤ fmtMaxCode f) :
    valueOf (decodeF f (signed f neg c)) = withSign neg (magVal f c) := by
  rw [decodeF_signed hf neg hc, valueOf_fin, magVal]

/-! ### An exact value on a grid -/

/-- How many whole steps of 2^q the value m × 2^e holds, and what is left over of it, in steps of 2^e. -/
def gridFloor (m : Nat) (e q : Int) : Nat := if e ≥ q then m * 2 ^ (e - q).toNat else m / 2 ^ (q - e).toNat
def gridRest (m : Nat) (e q : Int) : Nat := if e ≥ q then 0 else m % 2 ^ (q - e).toNat
/-- The part of a step that is left over. -/
def gridPart (m : Nat) (e q : Int) : ℚ := gridRest m e q / 2 ^ (q - e).toNat

theorem gridPart_nonneg (m : Nat) (e q : Int) : 0 ≤ gridPart m e q := by unfold gridPart; positivity

theorem gridRest_lt (m : Nat) (e q : Int) : gridRest m e q < 2 ^ (q - e).toNat := by
  unfold gridRest
  split
  · exact Nat.two_pow_pos _
  · exact Nat.mod_lt _ (Nat.two_pow_pos _)

theorem gridPart_lt_one (m : Nat) (e q : Int) : gridPart m e q < 1 := by
  have h : (gridRest m e q : ℚ) < 2 ^ (q - e).toNat := by exact_mod_cast gridRest_lt m e q
  exact (div_lt_one (by positivity)).mpr h

theorem gridPart_eq_zero {m : Nat} {e q : Int} : gridPart m e q = 0 ↔ gridRest m e q = 0 := by
  simp [gridPart]

theorem gridFloor_add_gridPart (m : Nat) (e q : Int) : (m : ℚ) * 2 ^ e = (gridFloor m e q + gridPart m e q) * 2 ^ q := by
  unfold gridPart gridFloor gridRest
  split
  next h =>
    have he : (2 : ℚ) ^ e = 2 ^ (e - q).toNat * 2 ^ q := by
      rw [← zpow_natCast, Int.toNat_of_nonneg (by omega), ← zpow_add₀ two_ne_zero]
      congr 1
      ring
    push_cast
    rw [he]
    ring
  next h =>
    have hq : (2 : ℚ) ^ q = 2 ^ (q - e).toNat * 2 ^ e := by
      rw [← zpow_natCast, Int.toNat_of_nonneg (by omega), ← zpow_add₀ two_ne_zero]
      congr 1
      ring
    have hm : (m : ℚ) = (m / 2 ^ (q - e).toNat : Nat) * 2 ^ (q - e).toNat + (m % 2 ^ (q - e).toNat : Nat) := by
      exact_mod_cast (Nat.div_add_mod' m _).symm
    have hne : (2 : ℚ) ^ (q - e).toNat ≠ 0 := by positivity
    rw [hq]
    conv_lhs => rw [hm]
    field_simp

/-! ### The direction of rounding (R44) -/

section
variable {neg : Bool} {n rv m : Nat} {e q : Int} {rm : Rm}

/-- Whether the value m × 2^e, of n whole steps of 2^q, is rounded away from 0. -/
def gridUp (rm : Rm) (neg : Bool) (n m : Nat) (e q : Int) (rv : Nat) : Bool := rdir rm neg n (gridRest m e q) (q - e).toNat rv

theorem gridUp_exact (h : gridPart m e q = 0) : gridUp rm neg n m e q rv = false := by
  rw [gridPart_eq_zero] at h
  simp [gridUp, rdir, h]

theorem gridUp_rne : gridUp .rne neg n m e q rv = (decide (1 / 2 < gridPart m e q) || (decide (gridPart m e q = 1 / 2) && n % 2 == 1)) := by
  have hk : (0 : ℚ) < 2 ^ (q - e).toNat := by positivity
  have hlt : (1 / 2 < gridPart m e q) ↔ 2 ^ (q - e).toNat < 2 * gridRest m e q := by
    rw [gridPart, div_lt_div_iff₀ two_pos hk]
    norm_cast
    rw [one_mul, mul_comm]
  have heq : (gridPart m e q = 1 / 2) ↔ 2 ^ (q - e).toNat = 2 * gridRest m e q := by
    rw [gridPart, div_eq_div_iff hk.ne' two_ne_zero]
    norm_cast
    rw [one_mul, mul_comm, eq_comm]
  unfold gridUp rdir
  split
  next h =>
    have hp : gridPart m e q = 0 := gridPart_eq_zero.mpr h
    norm_num [hp]
  next => simp only [hlt, heq]; rfl

theorem gridUp_rtz : gridUp .rtz neg n m e q rv = false := by simp [gridUp, rdir]
theorem gridUp_rup (h : gridPart m e q ≠ 0) : gridUp .rup neg n m e q rv = !neg := by
  rw [Ne, gridPart_eq_zero] at h
  simp [gridUp, rdir, h]
theorem gridUp_rdn (h : gridPart m e q ≠ 0) : gridUp .rdn neg n m e q rv = neg := by
  rw [Ne, gridPart_eq_zero] at h
  simp [gridUp, rdir, h]

/-- To nearest, the side that is chosen is not the farther one. -/
theorem half_le_of_gridUp (h : gridUp .rne neg n m e q rv = true) : 1 / 2 ≤ gridPart m e q := by
  simp only [gridUp_rne, Bool.or_eq_true, Bool.and_eq_true, decide_eq_true_eq] at h
  rcases h with h | ⟨h, -⟩
  · exact h.le
  · exact h.ge
theorem le_half_of_not_gridUp (h : gridUp .rne neg n m e q rv = false) : gridPart m e q ≤ 1 / 2 := by
  simp only [gridUp_rne, Bool.or_eq_false_iff, decide_eq_false_iff_not, not_lt] at h
  exact h.1

end

/-! ### Rounding to a float format -/

section
variable {f : Fmt} {m : Nat} {e : Int}

/-- The exponent of the last place to which `rnd` rounds. -/
def rndQuantum (f : Fmt) (m : Nat) (e : Int) : Int := max ((Nat.log2 m : Int) + e) (fmtEmin f) - fmtP f
/-- The magnitude code at or below the exact value. -/
def rndFloor (f : Fmt) (m : Nat) (e : Int) : Nat :=
  (max ((Nat.log2 m : Int) + e) (fmtEmin f) - fmtEmin f).toNat * 2 ^ fmtP f + gridFloor m e (rndQuantum f m e)
/-- Whether `rnd` takes the next one. -/
def rndUp (f : Fmt) (rm : Rm) (neg : Bool) (m : Nat) (e : Int) (rv : Nat) : Bool :=
  gridUp rm neg (gridFloor m e (rndQuantum f m e)) m e (rndQuantum f m e) rv
/-- NX, and UF for a value below the normal numbers, where a part is left over. -/
def rndFlags (f : Fmt) (m : Nat) (e : Int) : Flags :=
  Flags.when (gridRest m e (rndQuantum f m e) != 0) Flags.nx |||
    Flags.when (gridRest m e (rndQuantum f m e) != 0 && (Nat.log2 m : Int) + e < fmtEmin f) Flags.uf

theorem rnd_eq (hm : m ≠ 0) (neg : Bool) (rm : Rm) (rv : Nat) (sat : Bool) :
    rnd neg m e f rm rv sat =
      if fmtMaxCode f < rndFloor f m e + (rndUp f rm neg m e rv).toNat then ((ovf f neg rm sat).1, rndFlags f m e ||| (ovf f neg rm sat).2)
      else (signed f neg (rndFloor f m e + (rndUp f rm neg m e rv).toNat), rndFlags f m e) := by
  rw [rndFloor, Nat.add_assoc]
  unfold rnd
  rw [if_neg hm]
  rfl

theorem two_pow_log2_le (hm : m ≠ 0) : (2 : ℚ) ^ ((Nat.log2 m : Int) + e) ≤ m * 2 ^ e := by
  rw [zpow_add₀ two_ne_zero, zpow_natCast]
  have h : ((2 ^ Nat.log2 m : Nat) : ℚ) ≤ m := by exact_mod_cast Nat.log2_self_le hm
  push_cast at h
  exact mul_le_mul_of_nonneg_right h (two_zpow_pos _).le

theorem lt_two_pow_log2 (m : Nat) (e : Int) : m * 2 ^ e < (2 : ℚ) ^ ((Nat.log2 m : Int) + e + 1) := by
  rw [show (Nat.log2 m : Int) + e + 1 = ((Nat.log2 m + 1 : Nat) : Int) + e by push_cast; ring, zpow_add₀ two_ne_zero, zpow_natCast]
  have h : (m : ℚ) < ((2 ^ (Nat.log2 m + 1) : Nat) : ℚ) := by exact_mod_cast Nat.lt_log2_self
  push_cast at h
  exact mul_lt_mul_of_pos_right h (two_zpow_pos _)

/-- The significand that is kept: below 2^(p + 1), and from 2^p on for a value that is not below the normal numbers. -/
theorem gridFloor_lt (m : Nat) (e : Int) : gridFloor m e (rndQuantum f m e) < 2 * 2 ^ fmtP f := by
  have hsplit := gridFloor_add_gridPart m e (rndQuantum f m e)
  have hpart := gridPart_nonneg m e (rndQuantum f m e)
  have hlt := lt_two_pow_log2 m e
  have hle : (2 : ℚ) ^ ((Nat.log2 m : Int) + e + 1) ≤ 2 * 2 ^ fmtP f * 2 ^ rndQuantum f m e := by
    rw [← zpow_natCast, ← zpow_one_add₀ two_ne_zero, ← zpow_add₀ two_ne_zero]
    exact zpow_le_zpow_right₀ one_le_two (by unfold rndQuantum; omega)
  have hfloor : (gridFloor m e (rndQuantum f m e) : ℚ) < 2 * 2 ^ fmtP f := by
    by_contra hcon
    have := mul_le_mul_of_nonneg_right (not_lt.mp hcon) (two_zpow_pos (rndQuantum f m e)).le
    have := mul_nonneg hpart (two_zpow_pos (rndQuantum f m e)).le
    linarith
  exact_mod_cast hfloor

theorem le_gridFloor (hm : m ≠ 0) (h : fmtEmin f ≤ (Nat.log2 m : Int) + e) : 2 ^ fmtP f ≤ gridFloor m e (rndQuantum f m e) := by
  have hsplit := gridFloor_add_gridPart m e (rndQuantum f m e)
  have hpart := gridPart_lt_one m e (rndQuantum f m e)
  have hge := two_pow_log2_le (e := e) hm
  have hle : (2 : ℚ) ^ ((Nat.log2 m : Int) + e) = 2 ^ fmtP f * 2 ^ rndQuantum f m e := by
    rw [← zpow_natCast, ← zpow_add₀ two_ne_zero]
    congr 1
    unfold rndQuantum
    omega
  have hfloor : ((2 : ℚ) ^ fmtP f) < gridFloor m e (rndQuantum f m e) + 1 := by
    by_contra hcon
    have h1 : gridFloor m e (rndQuantum f m e) + gridPart m e (rndQuantum f m e) < (2 : ℚ) ^ fmtP f := by linarith [not_lt.mp hcon]
    have := mul_lt_mul_of_pos_right h1 (two_zpow_pos (rndQuantum f m e))
    linarith
  have : 2 ^ fmtP f < gridFloor m e (rndQuantum f m e) + 1 := by exact_mod_cast hfloor
  omega

theorem binade_or_le_gridFloor (hm : m ≠ 0) :
    (max ((Nat.log2 m : Int) + e) (fmtEmin f) - fmtEmin f).toNat = 0 ∨ 2 ^ fmtP f ≤ gridFloor m e (rndQuantum f m e) := by
  by_cases h : fmtEmin f ≤ (Nat.log2 m : Int) + e
  · exact .inr (le_gridFloor hm h)
  · left
    omega

theorem rndQuantum_eq (f : Fmt) (m : Nat) (e : Int) :
    rndQuantum f m e = fmtEmin f - fmtP f + (max ((Nat.log2 m : Int) + e) (fmtEmin f) - fmtEmin f).toNat := by
  rw [Int.toNat_of_nonneg (by omega), rndQuantum]
  ring

theorem magVal_rndFloor (hm : m ≠ 0) : magVal f (rndFloor f m e) = gridFloor m e (rndQuantum f m e) * 2 ^ rndQuantum f m e := by
  rw [rndFloor, magVal_of_binade (gridFloor_lt m e).le (binade_or_le_gridFloor hm), ← rndQuantum_eq]

theorem magVal_rndFloor_succ (hm : m ≠ 0) :
    magVal f (rndFloor f m e + 1) = (gridFloor m e (rndQuantum f m e) + 1) * 2 ^ rndQuantum f m e := by
  have h := binade_or_le_gridFloor (f := f) (e := e) hm
  rw [rndFloor, Nat.add_assoc, magVal_of_binade (gridFloor_lt m e) (by omega), ← rndQuantum_eq]
  push_cast
  rfl

/-- The exact value lies between the code that `rnd` takes as its floor and the next one, at the part of the gap that is left over. -/
theorem rnd_between (hm : m ≠ 0) :
    (m : ℚ) * 2 ^ e = magVal f (rndFloor f m e) + gridPart m e (rndQuantum f m e) * 2 ^ rndQuantum f m e ∧
    magVal f (rndFloor f m e + 1) = magVal f (rndFloor f m e) + 2 ^ rndQuantum f m e := by
  rw [magVal_rndFloor_succ hm, magVal_rndFloor hm, gridFloor_add_gridPart m e (rndQuantum f m e)]
  constructor <;> ring

theorem magVal_rndFloor_le (hm : m ≠ 0) : magVal f (rndFloor f m e) ≤ m * 2 ^ e := by
  have := mul_nonneg (gridPart_nonneg m e (rndQuantum f m e)) (two_zpow_pos (rndQuantum f m e)).le
  linarith [(rnd_between (f := f) (e := e) hm).1]

theorem lt_magVal_rndFloor_succ (hm : m ≠ 0) : m * 2 ^ e < magVal f (rndFloor f m e + 1) := by
  have := mul_lt_mul_of_pos_right (gridPart_lt_one m e (rndQuantum f m e)) (two_zpow_pos (rndQuantum f m e))
  obtain ⟨hx, hsucc⟩ := rnd_between (f := f) (e := e) hm
  linarith

/-- The floor of the value of a code is the code. -/
theorem rndFloor_eq (hm : m ≠ 0) {c : Nat} (hlo : magVal f c ≤ m * 2 ^ e) (hhi : m * 2 ^ e < magVal f (c + 1)) : rndFloor f m e = c := by
  have h1 := (magVal_strictMono f).lt_iff_lt.mp (hlo.trans_lt (lt_magVal_rndFloor_succ hm))
  have h2 := (magVal_strictMono f).lt_iff_lt.mp ((magVal_rndFloor_le hm).trans_lt hhi)
  omega

theorem gridPart_eq_zero_of_value (hm : m ≠ 0) {c : Nat} (h : (m : ℚ) * 2 ^ e = magVal f c) :
    rndFloor f m e = c ∧ gridPart m e (rndQuantum f m e) = 0 := by
  have hc : rndFloor f m e = c := rndFloor_eq hm h.ge (h.trans_lt (magVal_strictMono f c.lt_succ_self))
  have hx := (rnd_between (f := f) (e := e) hm).1
  rw [hc, h, left_eq_add, mul_eq_zero, or_iff_left (two_zpow_pos _).ne'] at hx
  exact ⟨hc, hx⟩

/-- A value that a code represents rounds to that code, without a flag, in every mode. -/
theorem rnd_magVal {c : Nat} (hc : c ≤ fmtMaxCode f) (h : (m : ℚ) * 2 ^ e = magVal f c) (neg : Bool) (rm : Rm) (rv : Nat) (sat : Bool) :
    rnd neg m e f rm rv sat = (signed f neg c, 0) := by
  rcases Nat.eq_zero_or_pos m with rfl | hm
  · have h0 : magVal f 0 = 0 := by simp [magVal, magMant]
    have : c = 0 := (magVal_strictMono f).injective (by rw [← h, h0]; simp)
    simp [rnd, this]
  · obtain ⟨hfloor, hpart⟩ := gridPart_eq_zero_of_value hm.ne' h
    have hrest := gridPart_eq_zero.mp hpart
    have hup : rndUp f rm neg m e rv = false := gridUp_exact hpart
    rw [rnd_eq hm.ne', hfloor, hup, if_neg (by simpa using hc)]
    simp [rndFlags, hrest, Flags.when]

/-- Under .rne the code that is chosen is not farther from the exact value than its neighbour. -/
theorem rndUp_rne (hm : m ≠ 0) (neg : Bool) (rv : Nat) :
    |magVal f (rndFloor f m e + (rndUp f .rne neg m e rv).toNat) - m * 2 ^ e| ≤ 2 ^ rndQuantum f m e / 2 ∧
    ∀ d, |magVal f (rndFloor f m e + (rndUp f .rne neg m e rv).toNat) - m * 2 ^ e| ≤ |magVal f d - m * 2 ^ e| := by
  obtain ⟨hx, hsucc⟩ := rnd_between (f := f) (e := e) hm
  have hq := two_zpow_pos (rndQuantum f m e)
  have h0 := mul_nonneg (gridPart_nonneg m e (rndQuantum f m e)) hq.le
  have h1 := mul_lt_mul_of_pos_right (gridPart_lt_one m e (rndQuantum f m e)) hq
  have hmin : |magVal f (rndFloor f m e + (rndUp f .rne neg m e rv).toNat) - m * 2 ^ e| ≤ gridPart m e (rndQuantum f m e) * 2 ^ rndQuantum f m e ∧
      |magVal f (rndFloor f m e + (rndUp f .rne neg m e rv).toNat) - m * 2 ^ e| ≤ 2 ^ rndQuantum f m e - gridPart m e (rndQuantum f m e) * 2 ^ rndQuantum f m e := by
    cases hup : rndUp f .rne neg m e rv with
    | false =>
      have := mul_le_mul_of_nonneg_right (le_half_of_not_gridUp hup) hq.le
      rw [Bool.toNat_false, Nat.add_zero, abs_sub_comm, abs_of_nonneg (by linarith)]
      constructor <;> linarith
    | true =>
      have := mul_le_mul_of_nonneg_right (half_le_of_gridUp hup) hq.le
      rw [Bool.toNat_true, abs_of_nonneg (by linarith)]
      constructor <;> linarith
  refine ⟨by linarith, fun d => ?_⟩
  rcases Nat.lt_or_ge (rndFloor f m e) d with hd | hd
  · have := (magVal_strictMono f).monotone (Nat.succ_le_of_lt hd)
    rw [abs_of_nonneg (show 0 ≤ magVal f d - m * 2 ^ e by linarith)]
    linarith
  · have := (magVal_strictMono f).monotone hd
    rw [abs_sub_comm (magVal f d), abs_of_nonneg (show 0 ≤ m * 2 ^ e - magVal f d by linarith)]
    linarith

/-- An overflow sets OF (R44). -/
theorem ovf_of (f : Fmt) (neg : Bool) (rm : Rm) (sat : Bool) : (ovf f neg rm sat).2 = Flags.ofnx := by
  unfold ovf
  cases fmtInf f <;> rfl

/-- Where OF is not set, the result is the code that was chosen. -/
theorem rnd_noOverflow (hm : m ≠ 0) {neg : Bool} {rm : Rm} {rv : Nat} {sat : Bool} (h : (rnd neg m e f rm rv sat).2.getLsbD 2 = false) :
    rndFloor f m e + (rndUp f rm neg m e rv).toNat ≤ fmtMaxCode f ∧
    rnd neg m e f rm rv sat = (signed f neg (rndFloor f m e + (rndUp f rm neg m e rv).toNat), rndFlags f m e) := by
  rw [rnd_eq hm] at h ⊢
  split at h
  · rw [ovf_of] at h
    simp [Flags.ofnx] at h
  next hle => exact ⟨not_lt.mp hle, if_neg hle⟩

end

/-- Rounding to nearest, with the sign: no finite code lies closer. -/
theorem rnd_rne_nearest {f : Fmt} (hf : f.isFloat = true) {neg : Bool} {m : Nat} {e : Int} {rv : Nat} {sat : Bool} {y : Nat} (hm : m ≠ 0) (hy : isFinite f y)
    (h : (rnd neg m e f .rne rv sat).2.getLsbD 2 = false) :
    isFinite f (rnd neg m e f .rne rv sat).1 ∧
    |valueOf (decodeF f (rnd neg m e f .rne rv sat).1) - valueOf (.fin neg m e)| ≤ |valueOf (decodeF f y) - valueOf (.fin neg m e)| := by
  obtain ⟨hle, heq⟩ := rnd_noOverflow hm h
  obtain ⟨-, hnear⟩ := rndUp_rne (f := f) (e := e) hm neg rv
  obtain ⟨s, d, hd, rfl⟩ := exists_signed_of_isFinite hy
  rw [heq]
  refine ⟨isFinite_signed hf neg hle, ?_⟩
  rw [valueOf_signed hf neg hle, valueOf_signed hf s hd, valueOf_fin, withSign_sub, abs_withSign]
  rcases Bool.eq_or_eq_not s neg with rfl | rfl
  · rw [withSign_sub, abs_withSign]
    exact hnear d
  · -- a code of the other sign is not closer than zero
    have hx : (0 : ℚ) ≤ m * 2 ^ e := mul_nonneg (Nat.cast_nonneg _) (two_zpow_pos _).le
    have h0 := hnear 0
    rw [show magVal f 0 = 0 by simp [magVal, magMant], zero_sub, abs_neg, abs_of_nonneg hx] at h0
    have hd0 := magVal_nonneg f d
    rw [withSign_not, withSign_sub, abs_withSign]
    exact h0.trans (le_abs.mpr (.inr (by linarith)))

/-! ### Rounding to an integer -/

section
variable {neg : Bool} {m : Nat} {e : Int} {rm : Rm} {rv : Nat}

/-- Whether `rint` rounds away from 0. -/
def rintUp (rm : Rm) (neg : Bool) (m : Nat) (e : Int) (rv : Nat) : Bool := gridUp rm neg (gridFloor m e 0) m e 0 rv

theorem rint_eq (neg : Bool) (m : Nat) (e : Int) (rm : Rm) (rv : Nat) :
    rint neg m e rm rv = (if neg then -((gridFloor m e 0 + (rintUp rm neg m e rv).toNat : Nat) : Int) else (gridFloor m e 0 + (rintUp rm neg m e rv).toNat : Nat),
      Flags.when (gridRest m e 0 != 0) Flags.nx) := by
  simp only [rintUp, gridUp, gridFloor, gridRest, sub_zero, zero_sub, ge_iff_le]
  rfl

/-- The integer that `rint` gives, as a distance from the exact value. -/
theorem rint_sub (neg : Bool) (m : Nat) (e : Int) (rm : Rm) (rv : Nat) :
    ((rint neg m e rm rv).1 : ℚ) - valueOf (.fin neg m e) = withSign neg ((rintUp rm neg m e rv).toNat - gridPart m e 0) := by
  have hsplit := gridFloor_add_gridPart m e 0
  rw [zpow_zero, mul_one] at hsplit
  rw [rint_eq, valueOf_fin, hsplit]
  unfold withSign
  cases neg
  · push_cast
    simp
  · push_cast
    simp
    ring

theorem exists_int_iff_gridPart : (∃ z : Int, valueOf (.fin neg m e) = z) ↔ gridPart m e 0 = 0 := by
  have hsplit := gridFloor_add_gridPart m e 0
  rw [zpow_zero, mul_one] at hsplit
  rw [valueOf_fin, hsplit]
  constructor
  · rintro ⟨z, hz⟩
    have hfrac : gridPart m e 0 = ((if neg = true then -z else z) - gridFloor m e 0 : Int) := by
      unfold withSign at hz
      push_cast
      split at hz
      · simp [*]
        linarith
      · simp [*]
        linarith
    have hlo := gridPart_nonneg m e 0
    have hhi := gridPart_lt_one m e 0
    rw [hfrac] at hlo hhi ⊢
    norm_cast at hlo hhi ⊢
    omega
  · intro h
    rw [h, add_zero]
    exact ⟨if neg = true then -gridFloor m e 0 else gridFloor m e 0, by unfold withSign; split <;> simp⟩

theorem rint_exact (h : ∃ z : Int, valueOf (.fin neg m e) = z) : ((rint neg m e rm rv).1 : ℚ) = valueOf (.fin neg m e) ∧ (rint neg m e rm rv).2 = 0 := by
  rw [exists_int_iff_gridPart] at h
  refine ⟨?_, by simp [rint_eq, gridPart_eq_zero.mp h, Flags.when]⟩
  rw [← sub_eq_zero, rint_sub, h, rintUp, gridUp_exact h]
  simp [withSign]

end

/-- Rounding of a value that is no integer: NX, one of its two neighbours, and which of them (R44). -/
theorem rint_inexact {neg : Bool} {m : Nat} {e : Int} {rm : Rm} {rv : Nat} (h : ∀ z : Int, valueOf (.fin neg m e) ≠ z) :
    let x := valueOf (.fin neg m e)
    let n := rint neg m e rm rv
    n.2 = Flags.nx ∧ |(n.1 : ℚ) - x| < 1 ∧ (rm = .rne → |(n.1 : ℚ) - x| ≤ 2⁻¹ ∧ (|(n.1 : ℚ) - x| = 2⁻¹ → n.1 % 2 = 0)) ∧
      (rm = .rtz → |(n.1 : ℚ)| < |x|) ∧ (rm = .rup → x < n.1) ∧ (rm = .rdn → (n.1 : ℚ) < x) := by
  intro x n
  have hpart : gridPart m e 0 ≠ 0 := fun h0 => by
    obtain ⟨z, hz⟩ := exists_int_iff_gridPart.mpr h0
    exact h z hz
  have hpos : 0 < gridPart m e 0 := lt_of_le_of_ne (gridPart_nonneg m e 0) hpart.symm
  have hlt := gridPart_lt_one m e 0
  have hsub : (n.1 : ℚ) - x = withSign neg ((rintUp rm neg m e rv).toNat - gridPart m e 0) := rint_sub ..
  have habs : |(n.1 : ℚ) - x| = if rintUp rm neg m e rv then 1 - gridPart m e 0 else gridPart m e 0 := by
    rw [hsub, abs_withSign]
    split
    · simp [*, abs_of_pos]
    · simp [*, abs_of_pos]
  refine ⟨?_, ?_, ?_, ?_, ?_, ?_⟩
  · simp [n, rint_eq, mt gridPart_eq_zero.mpr hpart, Flags.when]
  · rw [habs]
    split <;> linarith
  · rintro rfl
    rw [habs]
    split
    next hup =>
      have := half_le_of_gridUp hup
      refine ⟨by linarith, fun htie => ?_⟩
      have hhalf : gridPart m e 0 = 1 / 2 := by linarith
      have hodd : gridFloor m e 0 % 2 = 1 := by simpa [rintUp, gridUp_rne, hhalf] using hup
      simp only [n, rint_eq, hup, Bool.toNat_true]
      split <;> omega
    next hup =>
      rw [Bool.not_eq_true] at hup
      have := le_half_of_not_gridUp hup
      refine ⟨by linarith, fun htie => ?_⟩
      have hhalf : gridPart m e 0 = 1 / 2 := by linarith
      have heven : gridFloor m e 0 % 2 = 0 := by simpa [rintUp, gridUp_rne, hhalf] using hup
      simp only [n, rint_eq, hup, Bool.toNat_false]
      split <;> omega
  · rintro rfl
    have hsplit := gridFloor_add_gridPart m e 0
    rw [zpow_zero, mul_one] at hsplit
    have hn : |(n.1 : ℚ)| = gridFloor m e 0 := by
      simp only [n, rint_eq, rintUp, gridUp_rtz, Bool.toNat_false, Nat.add_zero]
      split <;> simp
    have hx : |x| = gridFloor m e 0 + gridPart m e 0 := by
      rw [show x = withSign neg (m * 2 ^ e) from valueOf_fin .., abs_withSign, hsplit, abs_of_nonneg]
      positivity
    rw [hn, hx]
    linarith
  · rintro rfl
    rw [← sub_pos, hsub, rintUp, gridUp_rup hpart]
    cases neg <;> simp [withSign] <;> linarith
  · rintro rfl
    rw [← sub_neg, hsub, rintUp, gridUp_rdn hpart]
    cases neg <;> simp [withSign] <;> linarith

/-- Settles O27: a represented value is `rnd_magVal`, the nearest code `rnd_rne_nearest`, and integers are `rint_exact` and `rint_inexact`. -/
theorem roundToNearest : Obligations.RoundToNearest := by
  unfold Obligations.RoundToNearest
  refine ⟨fun f hf => ⟨?_, ?_⟩, ?_⟩
  · intro x neg m e rm rv sat hx hdec _
    obtain ⟨s, c, hc, rfl⟩ := exists_signed_of_isFinite hx
    rw [decodeF_signed hf s hc] at hdec
    obtain ⟨rfl, rfl, rfl⟩ := FVal.fin.inj hdec
    exact rnd_magVal hc rfl s rm rv sat
  · intro neg m e rv sat y hm hy r hof
    exact rnd_rne_nearest hf hm.ne' hy hof
  · intro neg m e rm rv x n
    exact ⟨rint_exact, rint_inexact⟩

end Sys2Proof.Proofs
end

section
/-! PROOFS. The F32 arithmetic of a lane (O26): what `ofF32` reads of a code, and R40, R58 and R154 in terms of the codes. -/
namespace Sys2Proof.Proofs
open Sys2Proof.Machine Sys2Proof.Laws Sys2Proof.Claims

/-! ### A code as its sign and its magnitude code -/

section
variable (w : Lane)

/-- The magnitude code of a lane. -/
def mag32 : Nat := w.toNat % 2 ^ 31

theorem mag32_lt : mag32 w < 2 ^ 31 := Nat.mod_lt _ (by decide)

theorem msb_eq : w.msb = (w.toNat / 2 ^ 31 % 2 == 1) := by
  have := w.isLt
  rw [BitVec.msb_eq_decide, Bool.eq_iff_iff]
  simp
  omega

theorem toNat_eq_signed : w.toNat = signed .f32 w.msb (mag32 w) := by
  rw [msb_eq]
  exact eq_signed (f := .f32) w.isLt

theorem eq_of_msb_of_mag32 {a b : Lane} (hs : a.msb = b.msb) (hm : mag32 a = mag32 b) : a = b :=
  BitVec.eq_of_toNat_eq (by rw [toNat_eq_signed a, toNat_eq_signed b, hs, hm])

theorem mag32_ofNat_signed (neg : Bool) {c : Nat} (hc : c < 2 ^ 31) : mag32 (BitVec.ofNat 32 (signed .f32 neg c)) = c := by
  have hlt : signed .f32 neg c < 2 ^ 32 := signed_lt (f := .f32) hc
  rw [mag32, BitVec.toNat_ofNat, Nat.mod_eq_of_lt hlt]
  exact signed_mod_fmtSign (f := .f32) hc

theorem msb_ofNat_signed (neg : Bool) {c : Nat} (hc : c < 2 ^ 31) : (BitVec.ofNat 32 (signed .f32 neg c)).msb = neg := by
  have hlt : signed .f32 neg c < 2 ^ 32 := signed_lt (f := .f32) hc
  rw [msb_eq, BitVec.toNat_ofNat, Nat.mod_eq_of_lt hlt]
  exact signed_div_fmtSign (f := .f32) hc

theorem ofNat_signed_self : BitVec.ofNat 32 (signed .f32 w.msb (mag32 w)) = w := by
  rw [← toNat_eq_signed, BitVec.ofNat_toNat, BitVec.setWidth_eq]

theorem f32Nan_eq : f32Nan w = decide (0x7F800000 < mag32 w) := rfl
theorem f32Inf_eq : f32Inf w = decide (mag32 w = 0x7F800000) := rfl
theorem f32Zero_eq : f32Zero w = decide (mag32 w = 0) := rfl

theorem f32Sig_eq : f32Sig w = (f32Nan w && !(mag32 w).testBit 22) := by
  rw [f32Sig, mag32, Nat.testBit_mod_two_pow]
  rfl

theorem f32Mant_eq : f32Mant w = sgn w.msb (magMant .f32 (mag32 w)) := by
  have hE : mag32 w / 2 ^ 23 = w.toNat / 2 ^ 23 % 256 := by unfold mag32; omega
  have hM : mag32 w % 2 ^ 23 = w.toNat % 2 ^ 23 := by unfold mag32; omega
  unfold f32Mant
  split
  next h =>
    rw [magMant_of_lt (f := .f32) (hE.trans h), show fmtP .f32 = 23 from rfl, hM]
    rfl
  next h =>
    rw [magMant_of_ge (f := .f32) (fun h0 => h (hE.symm.trans h0)), show fmtP .f32 = 23 from rfl, hM]
    rfl

theorem f32Exp_eq : f32Exp w = magExp .f32 (mag32 w) := by
  unfold f32Exp magExp magBinade mag32
  rw [show fmtP .f32 = 23 from rfl, show fmtEmin .f32 = -126 from rfl]
  omega

theorem natAbs_sgn (neg : Bool) (m : Nat) : (sgn neg m).natAbs = m := by cases neg <;> simp [sgn]

theorem natAbs_f32Mant : (f32Mant w).natAbs = magMant .f32 (mag32 w) := by rw [f32Mant_eq, natAbs_sgn]

theorem sgn_f32Mant : sgn w.msb (f32Mant w).natAbs = f32Mant w := by rw [natAbs_f32Mant, f32Mant_eq]

theorem sgn_cast (neg : Bool) (m : Nat) : ((sgn neg m : Int) : ℚ) = withSign neg m := by cases neg <;> simp [sgn, withSign]

theorem withSign_mul (neg : Bool) (x y : ℚ) : withSign neg x * y = withSign neg (x * y) := by
  cases neg
  · rfl
  · exact neg_mul x y

theorem f32Value_eq : f32Value w = withSign w.msb (magVal .f32 (mag32 w)) := by
  rw [f32Value, f32Mant_eq, f32Exp_eq, sgn_cast, withSign_mul, magVal]

theorem f32Zero_iff_mant : f32Zero w = decide (f32Mant w = 0) := by
  have h0 : magVal .f32 0 = 0 := by simp [magVal, magMant]
  have hz : mag32 w = 0 ↔ f32Mant w = 0 := by
    rw [← Int.natAbs_eq_zero, natAbs_f32Mant]
    constructor
    · intro h
      rw [h]
      rfl
    · intro h
      refine (magVal_strictMono .f32).injective ?_
      rw [h0, magVal, h]
      simp
  rw [f32Zero_eq, decide_eq_decide]
  exact hz

theorem f32Zero_operand : (!f32Inf w && decide (f32Mant w = 0)) = f32Zero w := by
  rw [← f32Zero_iff_mant, f32Zero_eq, f32Inf_eq]
  by_cases h : mag32 w = 0
  · simp [h]
  · simp [h]

/-- What a lane holds as an F32 code (R38, R39). -/
theorem ofF32_eq : ofF32 w = if f32Nan w then .nan (f32Sig w) else if f32Inf w then .inf w.msb else .fin w.msb (f32Mant w).natAbs (f32Exp w) := by
  have hsign : (w.toNat / fmtSign .f32 % 2 == 1) = w.msb := (msb_eq w).symm
  have hmod : w.toNat % fmtSign .f32 = mag32 w := rfl
  have hmax : fmtMaxCode .f32 = 0x7F7FFFFF := rfl
  rcases Nat.lt_trichotomy (mag32 w) 0x7F800000 with h | h | h
  · have hn : f32Nan w = false := f32Nan_eq w ▸ decide_eq_false h.not_gt
    have hi : f32Inf w = false := decide_eq_false h.ne
    rw [hn, hi, ofF32, decodeF_finite (by rw [hmod, hmax]; omega), hsign, hmod, natAbs_f32Mant, f32Exp_eq]
    rfl
  · have hn : f32Nan w = false := f32Nan_eq w ▸ decide_eq_false h.not_gt
    have hi : f32Inf w = true := decide_eq_true h
    rw [hn, hi]
    simp [ofF32, decodeF, hsign, hmod, h, hmax, fmtInf]
  · have hn : f32Nan w = true := decide_eq_true h
    have hi : 0x7F800000 ≠ mag32 w := h.ne
    have hlow : mag32 w % 2 ^ 23 < 2 ^ 22 ↔ (mag32 w).testBit 22 = false := by
      rw [Nat.testBit_eq_decide_div_mod_eq]
      simp
      omega
    rw [f32Sig_eq, hn]
    simp only [ofF32, decodeF, hmod, hmax, fmtInf, show fmtP .f32 = 23 from rfl]
    rw [if_pos (by omega), if_neg (by simpa using hi)]
    simp [show mag32 w % 8388608 < 4194304 ↔ _ from hlow, Bool.decide_eq_false]

end

section
variable {w : Lane}

theorem ofF32_nan (h : f32Nan w = true) : ofF32 w = .nan (f32Sig w) := by simp [ofF32_eq, h]
theorem ofF32_inf (h : f32Inf w = true) : ofF32 w = .inf w.msb := by
  have hn : f32Nan w = false := by
    rw [f32Inf_eq, decide_eq_true_eq] at h
    simp [f32Nan_eq, h]
  simp [ofF32_eq, h, hn]
theorem ofF32_fin (hn : f32Nan w = false) (hi : f32Inf w = false) : ofF32 w = .fin w.msb (f32Mant w).natAbs (f32Exp w) := by simp [ofF32_eq, hn, hi]

theorem not_nan_of_inf (h : f32Inf w = true) : f32Nan w = false := by
  rw [f32Inf_eq, decide_eq_true_eq] at h
  simp [f32Nan_eq, h]
theorem not_nan_of_zero (h : f32Zero w = true) : f32Nan w = false := by
  rw [f32Zero_eq, decide_eq_true_eq] at h
  simp [f32Nan_eq, h]
theorem not_inf_of_zero (h : f32Zero w = true) : f32Inf w = false := by
  rw [f32Zero_eq, decide_eq_true_eq] at h
  simp [f32Inf_eq, h]
theorem f32Sig_of_not_nan (h : f32Nan w = false) : f32Sig w = false := by simp [f32Sig, h]

@[simp] theorem isNan_ofF32 : (ofF32 w).isNan = f32Nan w := by
  rw [ofF32_eq]
  cases f32Nan w
  · cases f32Inf w <;> rfl
  · rfl
@[simp] theorem snan_ofF32 : (ofF32 w).snan = f32Sig w := by
  rw [ofF32_eq]
  cases h : f32Nan w
  · rw [f32Sig_of_not_nan h]
    cases f32Inf w <;> rfl
  · rfl

end

/-! ### The lane of a result -/

@[simp] theorem lane_canon32 (f : Flags) : lane (canon32, f) = (f32Canon, f) := rfl
@[simp] theorem lane_inf (neg : Bool) (f : Flags) : lane (signed .f32 neg 0x7F800000, f) = (f32InfOf neg, f) := by cases neg <;> rfl
@[simp] theorem lane_zero (neg : Bool) (f : Flags) : lane (signed .f32 neg 0, f) = (f32ZeroOf neg, f) := by cases neg <;> rfl

theorem f32InfOf_msb {w : Lane} (h : f32Inf w = true) : f32InfOf w.msb = w := by
  rw [f32Inf_eq, decide_eq_true_eq] at h
  calc f32InfOf w.msb = BitVec.ofNat 32 (signed .f32 w.msb 0x7F800000) := (congrArg Prod.fst (lane_inf w.msb 0)).symm
    _ = w := by rw [← h, ofNat_signed_self]
theorem f32ZeroOf_msb {w : Lane} (h : f32Zero w = true) : f32ZeroOf w.msb = w := by
  rw [f32Zero_eq, decide_eq_true_eq] at h
  calc f32ZeroOf w.msb = BitVec.ofNat 32 (signed .f32 w.msb (mag32 w)) := by rw [h]; exact (congrArg Prod.fst (lane_zero w.msb 0)).symm
    _ = w := ofNat_signed_self w

theorem lane_rndInt (neg : Bool) (m e : Int) (r : Rm) (rv : Nat) : lane (rndInt neg m e .f32 r rv false) = f32Round neg m e r rv := by
  unfold rndInt f32Round
  split
  next h =>
    subst h
    exact lane_zero neg 0
  next h => rfl

/-- A rounded value of known sign. -/
theorem lane_rnd {neg : Bool} {m : Int} (hm : sgn neg m.natAbs = m) (e : Int) (r : Rm) (rv : Nat) :
    lane (rnd neg m.natAbs e .f32 r rv false) = f32Round neg m e r rv := by
  rw [← lane_rndInt, rndInt]
  split
  next h => rfl
  next h =>
    have hneg : neg = decide (m < 0) := by
      cases neg
      · simp only [sgn, Bool.false_eq_true, if_false] at hm
        simp
        omega
      · simp only [sgn, if_true] at hm
        simp
        omega
    rw [← hneg]

/-! ### Sums and products of values that are no NaN -/

/-- An infinity of a sign, or an exact number. -/
def operand (inf neg : Bool) (m e : Int) : FVal := if inf then .inf neg else .fin neg m.natAbs e

section
variable {i j s t : Bool} {m n e d : Int} {z : Lane} {r : Rm} {rv : Nat}

theorem ofF32_operand {w : Lane} (h : f32Nan w = false) : ofF32 w = operand (f32Inf w) w.msb (f32Mant w) (f32Exp w) := by
  rw [ofF32_eq, h]
  rfl

theorem isNan_operand : (operand i s m e).isNan = false := by cases i <;> rfl
theorem snan_operand : (operand i s m e).snan = false := by cases i <;> rfl
theorem isInf_operand : (operand i s m e).isInf = i := by cases i <;> rfl
theorem neg_operand : (operand i s m e).neg = s := by cases i <;> rfl
theorem isZero_operand : (operand i s m e).isZero = (!i && decide (m = 0)) := by
  cases i
  · rw [Bool.eq_iff_iff]
    simp [operand, FVal.isZero]
  · rfl

theorem mulF_operand : mulF (operand i s m e) (operand j t n d) =
    if i && (!j && decide (n = 0)) || (!i && decide (m = 0)) && j then none else some (operand (i || j) (s ^^ t) (m * n) (e + d)) := by
  cases i
  · cases j
    · simp [operand, mulF, Int.natAbs_mul]
    · simp only [mulF, operand, FVal.isZero, FVal.neg]
      simp
  · have hz := isZero_operand (i := j) (s := t) (m := n) (e := d)
    have hs := neg_operand (i := j) (s := t) (m := n) (e := d)
    have hn := isNan_operand (i := j) (s := t) (m := n) (e := d)
    revert hz hs hn
    cases operand j t n d <;> simp_all [mulF, operand, FVal.isNan]

/-- The product where no infinity meets a zero. -/
theorem mulF_operand_of_valid (h : ((i || j) && ((!i && decide (m = 0)) || (!j && decide (n = 0)))) = false) :
    mulF (operand i s m e) (operand j t n d) = some (operand (i || j) (s ^^ t) (m * n) (e + d)) := by
  rw [mulF_operand, if_neg]
  cases i
  · cases j
    · simp
    · simpa using h
  · cases j
    · simpa using h
    · simp

theorem sgn_mul (hm : sgn s m.natAbs = m) (hn : sgn t n.natAbs = n) : sgn (s ^^ t) (m * n).natAbs = m * n := by
  rw [Int.natAbs_mul]
  conv_rhs => rw [← hm, ← hn]
  cases s <;> cases t <;> simp [sgn]

theorem addDy_comm (a b : Int × Int) : addDy a b = addDy b a := by
  simp only [addDy, min_comm a.2 b.2]
  rw [add_comm]

theorem addF_comm (a b : FVal) : addF a b r rv = addF b a r rv := by
  cases a with
  | nan _ => cases b <;> rfl
  | inf s =>
    cases b with
    | inf t =>
      unfold addF
      simp only
      split
      next h => rw [if_pos h.symm, h]
      next h => rw [if_neg (Ne.symm h)]
    | _ => rfl
  | fin s m e =>
    cases b with
    | fin t n d =>
      unfold addF
      simp only
      rw [addDy_comm]
      congr 1
      by_cases h : m = 0 ∧ n = 0 ∧ s = t
      · rw [if_pos h, if_pos ⟨h.2.1, h.1, h.2.2.symm⟩, h.2.2]
      · rw [if_neg h, if_neg fun h' => h ⟨h'.2.1, h'.1, h'.2.2.symm⟩]
    | _ => rfl

theorem lane_addF (hm : sgn s m.natAbs = m) (hz : f32Nan z = false) : lane (addF (operand i s m e) (ofF32 z) r rv) = f32Plus r rv z i s m e := by
  cases hinf : f32Inf z
  · rw [ofF32_fin hz hinf]
    cases i
    · simp only [operand, addF, f32Plus, hinf, Bool.false_eq_true, if_false, lane_rndInt]
      simp only [hm, sgn_f32Mant, addDy, Int.natAbs_eq_zero]
    · simp [operand, addF, f32Plus, hinf]
  · rw [ofF32_inf hinf]
    cases i
    · simp [operand, addF, f32Plus, hinf, f32InfOf_msb hinf]
    · by_cases hs : s = z.msb
      · simp [operand, addF, f32Plus, hinf, hs]
      · simp [operand, addF, f32Plus, hinf, hs, Ne.symm hs]

end

/-! ### The operations of R40, R58 and R154 -/

section
variable (a b d : Lane) (r : Rm) (rv : Nat)

theorem lane_fadd32 : lane (fadd32 (ofF32 a) (ofF32 b) r rv) = f32Add r rv a b := by
  unfold fadd32 f32Add
  rw [isNan_ofF32, isNan_ofF32]
  split
  · simp [f32NaNs, Flags.when]
  next h =>
    obtain ⟨ha, hb⟩ : f32Nan a = false ∧ f32Nan b = false := by simpa using h
    rw [ofF32_operand ha, lane_addF (sgn_f32Mant a) hb]

/-- The product of two codes that are no NaN. -/
theorem mulF_ofF32 {a b : Lane} (ha : f32Nan a = false) (hb : f32Nan b = false) : mulF (ofF32 a) (ofF32 b) =
    if f32Inf a && f32Zero b || f32Zero a && f32Inf b then none
    else some (operand (f32Inf a || f32Inf b) (a.msb ^^ b.msb) (f32Mant a * f32Mant b) (f32Exp a + f32Exp b)) := by
  rw [ofF32_operand ha, ofF32_operand hb, mulF_operand, f32Zero_operand, f32Zero_operand]

theorem mulF_nan {x y : FVal} (h : (x.isNan || y.isNan) = true) : mulF x y = none := by
  cases x with
  | nan _ => rfl
  | _ =>
    cases y with
    | nan _ => rfl
    | _ => cases h

theorem not_and_not_of_or {p q : Bool} (h : (p || q) = true) : (!p && !q) = false := by rw [← Bool.not_or, h]; rfl

theorem lane_fmul32 : lane (fmul32 (ofF32 a) (ofF32 b) r rv) = f32Mul r rv a b := by
  unfold fmul32 f32Mul
  by_cases hn : (f32Nan a || f32Nan b) = true
  · rw [if_pos hn, mulF_nan (by simpa only [isNan_ofF32] using hn)]
    simp [f32NaNs, Flags.when, not_and_not_of_or hn]
  · obtain ⟨ha, hb⟩ : f32Nan a = false ∧ f32Nan b = false := by simpa using hn
    rw [if_neg hn, mulF_ofF32 ha hb]
    by_cases h0 : (f32Inf a && f32Zero b || f32Zero a && f32Inf b) = true
    · rw [if_pos h0, if_pos h0]
      simp [ha, hb, Flags.when]
    · rw [if_neg h0, if_neg h0]
      cases f32Inf a || f32Inf b
      · exact lane_rnd (sgn_mul (sgn_f32Mant a) (sgn_f32Mant b)) _ _ _
      · exact lane_inf _ 0

theorem lane_ffma32 : lane (ffma32 (ofF32 a) (ofF32 b) (ofF32 d) r rv) = f32Fma r rv a b d := by
  unfold ffma32 f32Fma
  by_cases hn : (f32Nan a || f32Nan b) = true
  · rw [if_pos hn, mulF_nan (by simpa only [isNan_ofF32] using hn)]
    simp [f32NaNs, Flags.when, not_and_not_of_or hn, Bool.or_assoc]
  · obtain ⟨ha, hb⟩ : f32Nan a = false ∧ f32Nan b = false := by simpa using hn
    have hsa := f32Sig_of_not_nan ha
    have hsb := f32Sig_of_not_nan hb
    rw [if_neg hn, mulF_ofF32 ha hb]
    by_cases h0 : (f32Inf a && f32Zero b || f32Zero a && f32Inf b) = true
    · rw [if_pos h0, if_pos h0]
      cases hd : f32Sig d <;> simp [ha, hb, hsa, hsb, hd, Flags.when]
    · rw [if_neg h0, if_neg h0]
      cases hd : f32Nan d
      · simp [hd, lane_addF (sgn_mul (sgn_f32Mant a) (sgn_f32Mant b)) hd]
      · simp [hd, f32NaNs, Flags.when, hsa, hsb]

/-! A code with the other sign. -/

theorem mag32_f32Neg : mag32 (f32Neg a) = mag32 a := by
  have h : (f32Neg a).setWidth 31 = a.setWidth 31 := by
    rw [f32Neg, BitVec.setWidth_xor, show (0x80000000 : Lane).setWidth 31 = 0#31 by decide, BitVec.xor_zero]
  simpa [mag32] using congrArg BitVec.toNat h
theorem msb_f32Neg : (f32Neg a).msb = !a.msb := by
  rw [f32Neg, BitVec.msb_xor, show (0x80000000 : Lane).msb = true by decide, Bool.xor_true]
theorem f32Nan_f32Neg : f32Nan (f32Neg a) = f32Nan a := by rw [f32Nan_eq, mag32_f32Neg, f32Nan_eq]
theorem f32Inf_f32Neg : f32Inf (f32Neg a) = f32Inf a := by rw [f32Inf_eq, mag32_f32Neg, f32Inf_eq]
theorem f32Sig_f32Neg : f32Sig (f32Neg a) = f32Sig a := by rw [f32Sig_eq, mag32_f32Neg, f32Nan_f32Neg, f32Sig_eq]

theorem flip_ofF32 : (ofF32 a).flip = ofF32 (f32Neg a) := by
  rw [ofF32_eq, ofF32_eq, f32Nan_f32Neg, f32Inf_f32Neg, f32Sig_f32Neg, msb_f32Neg, natAbs_f32Mant, natAbs_f32Mant, f32Exp_eq, f32Exp_eq, mag32_f32Neg]
  cases f32Nan a
  · cases f32Inf a <;> rfl
  · rfl

/-- The order of the codes that are no NaN, with −0 below +0. -/
theorem ordF_lt_iff : ordF a < ordF b ↔ f32Key a < f32Key b ∨ f32Zero a = true ∧ f32Zero b = true ∧ a.msb = true ∧ b.msb = false := by
  have hpos : ∀ w : Lane, w.msb = false → w.toNat = mag32 w := fun w h => by rw [toNat_eq_signed, h]; rfl
  have hkey : ∀ w : Lane, f32Key w = if w.msb = true then -(mag32 w : Int) else mag32 w := fun _ => rfl
  have hord : ∀ w : Lane, ordF w = if w.msb = true then -(mag32 w : Int) - 1 else mag32 w := fun w => by
    unfold ordF
    split
    · rfl
    next h => rw [hpos w (by simpa using h)]
  rw [hkey, hkey, hord, hord, f32Zero_eq, f32Zero_eq, decide_eq_true_eq, decide_eq_true_eq]
  cases a.msb <;> cases b.msb <;> simp <;> omega

theorem minmaxF_eq (mx : Bool) : minmaxF mx a b = f32Least mx a b := by
  have hless : ∀ x y : Lane, (decide (f32Key x < f32Key y) || f32Zero x && f32Zero y && x.msb && !y.msb) = decide (ordF x < ordF y) := fun x y => by
    rw [Bool.eq_iff_iff]
    simp [ordF_lt_iff, and_assoc]
  unfold minmaxF f32Least
  simp only [isNan_ofF32, snan_ofF32, hless]
  split
  · simp [f32NaNs, Flags.when, f32Canon, canon32]
  · cases mx
    · simp
    · simp

end

/-- Of three factors, where no infinity meets a zero among them none does in the products of R58. -/
theorem products_valid (i j k zi zj zk : Bool) (h : ((i || j || k) && (!i && zi || !j && zj || !k && zk)) = false) :
    ((i || j) && (!i && zi || !j && zj)) = false ∧ ((i || j || k) && (!(i || j) && (zi || zj) || !k && zk)) = false := by
  revert i j k zi zj zk
  decide

/-- Scale-and-accumulate of a block sum that is a value as R58 takes it. -/
theorem lane_scaleacc (d x y : Lane) (r : Rm) (rv : Nat) (v : FVal) {nan sig inf neg : Bool} {m e : Int} (hnan : v.isNan = nan) (hsig : v.snan = sig)
    (hv : nan = false → v = operand inf neg m e) (hm : sgn neg m.natAbs = m) :
    lane (scaleacc (ofF32 d) v (ofF32 x) (ofF32 y) r rv) = f32Scale r rv d x y nan sig inf neg m e := by
  unfold scaleacc f32Scale
  simp only [isNan_ofF32, snan_ofF32, hnan, hsig]
  split
  · simp [Flags.when]
  next h =>
    obtain ⟨⟨⟨hd, hn⟩, hx⟩, hy⟩ : ((f32Nan d = false ∧ nan = false) ∧ f32Nan x = false) ∧ f32Nan y = false := by simpa using h
    rw [hv hn, ofF32_operand hx, ofF32_operand hy]
    simp only [isInf_operand, isZero_operand]
    rw [← f32Zero_operand x, ← f32Zero_operand y]
    split
    · rfl
    next h0 =>
      rw [Bool.not_eq_true] at h0
      obtain ⟨h1, h2⟩ := products_valid _ _ _ _ _ _ h0
      rw [← Bool.decide_or, ← decide_eq_decide.mpr mul_eq_zero] at h2
      rw [mulF_operand_of_valid h1]
      simp only
      rw [mulF_operand_of_valid h2]
      simp only
      rw [addF_comm]
      exact lane_addF (sgn_mul (sgn_mul hm (sgn_f32Mant x)) (sgn_f32Mant y)) hd

end Sys2Proof.Proofs
end

section
/-! PROOFS. Rows of float lanes (O26): the flags of a row together, and the rows of R153, R154 and R166. -/
namespace Sys2Proof.Proofs
open Sys2Proof.Machine Sys2Proof.Laws Sys2Proof.Claims

theorem mapRow_rowFlags (m : MaskRow) (f : Nat → Lane × Flags) : (mapRow m f).2 = rowFlags m fun j => (f j).2 := by
  unfold mapRow rowFlags
  refine (List.foldl_hom (Prod.snd (α := Row) (β := Flags)) (init := (0, 0)) fun acc j => ?_).symm
  split
  · rfl
  · rfl

theorem rowFlags_zero (m : MaskRow) {f : Nat → Flags} (hf : ∀ j, f j = 0) : rowFlags m f = 0 := by
  rw [← mapRow_rowFlags m fun j => (0, f j)]
  exact mapRow_noFlags _ _ hf

section
variable {s : State} {c : Core} {o : VOp} {i lat : Nat} {fn : VFn}

/-- A row whose lanes and flags are those of a function of the lane. -/
theorem rowLands_of_mapRow (hnow : s.now c = o.t + i) (hi : i < 16) (hw : RowWise o.fn lat) {m : MaskRow} {val : Nat → Lane × Flags}
    (hrow : rowOf s c o i = (m, (mapRow m val).1, (mapRow m val).2)) :
    RowLands s c o i lat m (fun j => (val j).1) (rowFlags m fun j => (val j).2) :=
  rowLands_of_rowFn hnow hi hw (by rw [hrow]) (by rw [hrow, ← mapRow_rowFlags]) fun j hj hm => by rw [hrow, mapRow_lane _ _ j hj hm]

/-- A masked lane function with flags, at the random value of its lane (R54). -/
theorem rowLands_of_laneFn (hnow : s.now c = o.t + i) (hi : i < 16) (hw : LaneWise fn lat true) {val : Nat → Lane × Flags}
    (hval : ∀ j, laneFn fn (laneOf (s.srcRow c o o.a i) j) (laneOf (s.srcRow c o o.b i) j) (laneOf (s.srcRow c o o.d i) j)
      (laneOf (s.srcRow c o (o.b + 1) i) j) (fun e => rvOf (rsrBlock o.key o.n i j) e) = val j) (ho : o.fn = fn) :
    RowLands s c o i lat (s.readK c o.k i) (fun j => (val j).1) (rowFlags (s.readK c o.k i) fun j => (val j).2) := by
  obtain ⟨hrw, hmask, hfn⟩ := hw
  subst ho
  refine rowLands_of_mapRow hnow hi hrw ?_
  rw [rowOf, hfn, hmask, funext hval]
  rfl

end

/-! ### The float lane functions by their codes -/

section
variable (r : Rm) (a b d b2 : Lane) (rv : Nat → Nat)

theorem laneFn_addF : laneFn (.addF r) a b d b2 rv = f32Add r (rv 0) a b := lane_fadd32 ..
theorem laneFn_subF : laneFn (.subF r) a b d b2 rv = f32Add r (rv 0) a (f32Neg b) := by
  rw [← lane_fadd32, ← flip_ofF32]
  rfl
theorem laneFn_mulF : laneFn (.mulF r) a b d b2 rv = f32Mul r (rv 0) a b := lane_fmul32 ..
theorem laneFn_fma : laneFn (.fma r) a b d b2 rv = f32Fma r (rv 0) a b d := lane_ffma32 ..
theorem laneFn_fms : laneFn (.fms r) a b d b2 rv = f32Fma r (rv 0) (f32Neg a) b d := by
  rw [← lane_ffma32, ← flip_ofF32]
  rfl
theorem laneFn_minF : laneFn .minF a b d b2 rv = f32Least false a b := minmaxF_eq a b false
theorem laneFn_maxF : laneFn .maxF a b d b2 rv = f32Least true a b := minmaxF_eq a b true

theorem laneFn_scaI : laneFn (.scaI r) a b d b2 rv = f32Scale r (rv 0) d b b2 false false false a.msb a.toInt 0 := by
  have hneg : decide (a.toInt < 0) = a.msb := by rw [BitVec.msb_eq_toInt]
  refine lane_scaleacc d b b2 r (rv 0) (ofI32 a) rfl rfl (fun _ => ?_) ?_
  · unfold ofI32 operand
    rw [hneg]
    rfl
  · rw [← hneg]
    rcases lt_or_ge a.toInt 0 with h | h
    · simp [sgn, h, abs_of_neg h]
    · simp [sgn, h.not_gt, h]

theorem laneFn_scaF :
    laneFn (.scaF r) a b d b2 rv = f32Scale r (rv 0) d b b2 (f32Nan a) (f32Sig a) (f32Inf a) a.msb (f32Mant a) (f32Exp a) :=
  lane_scaleacc d b b2 r (rv 0) (ofF32 a) isNan_ofF32 snan_ofF32 ofF32_operand (sgn_f32Mant a)

theorem laneFn_absF : laneFn .absF a b d b2 rv = (if f32Nan a = true then f32Canon else a &&& 0x7FFFFFFF, 0) := by
  rw [← isNan_ofF32]
  rfl
theorem laneFn_negF : laneFn .negF a b d b2 rv = (if f32Nan a = true then f32Canon else f32Neg a, 0) := by
  rw [← isNan_ofF32]
  rfl

end

theorem floatRowsHold : Claims.FloatRows := by
  intro s c i o r hnow hi A B C D K rv rows
  have lanes {fn lat} {val : Nat → Lane × Flags}
      (hval : ∀ j, laneFn fn (A j) (B j) (D j) (C j) (fun e => rvOf (rsrBlock o.key o.n i j) e) = val j)
      (hw : LaneWise fn lat true := by exact ⟨⟨rfl, rfl, rfl, rfl⟩, rfl, fun _ _ _ _ _ _ _ _ => rfl⟩) : rows fn lat val :=
    rowLands_of_laneFn hnow hi hw hval
  refine ⟨lanes fun j => laneFn_addF .., lanes fun j => laneFn_subF .., lanes fun j => laneFn_mulF .., lanes fun j => laneFn_fma ..,
    lanes fun j => laneFn_fms .., lanes fun j => laneFn_minF .., lanes fun j => laneFn_maxF .., lanes fun j => laneFn_scaI ..,
    lanes fun j => laneFn_scaF .., ?_, ?_⟩
  · exact rowLands_of_lane (g := fun a _ _ => if f32Nan a = true then f32Canon else a &&& 0x7FFFFFFF) hnow hi
      ⟨⟨rfl, rfl, rfl, rfl⟩, rfl, fun _ _ _ _ _ _ _ _ => rfl⟩ laneFn_absF
  · exact rowLands_of_lane (g := fun a _ _ => if f32Nan a = true then f32Canon else f32Neg a) hnow hi
      ⟨⟨rfl, rfl, rfl, rfl⟩, rfl, fun _ _ _ _ _ _ _ _ => rfl⟩ laneFn_negF

end Sys2Proof.Proofs
end

section
/-! PROOFS. Conversions (O26): what one element converts to (R47 to R50), and the lanes and column pairs of VCVT (R163, R164). -/
namespace Sys2Proof.Proofs
open Sys2Proof.Machine Sys2Proof.Laws Sys2Proof.Claims

/-! ### One element -/

section
variable {src dst : Fmt} {x rv : Nat} {rm : Rm} {sat : Bool}

/-- The flag of a TRN operand that holds 0b10 (R37). -/
def trnFlag (src : Fmt) (x : Nat) : Flags := if src = .trn ∧ x = 2 then Flags.fmt else 0

theorem when_trn (src : Fmt) (x : Nat) : Flags.when (src == .trn && x == 2) Flags.fmt = trnFlag src x := by
  simp [Flags.when, trnFlag]

/-- Whether a format holds an integer, and the nearest end of its range to one that it does not hold. -/
def fitsIn (dst : Fmt) (v : Int) : Prop := intMin dst ≤ v ∧ v ≤ intMax dst
def nearestEnd (dst : Fmt) (v : Int) : Int := if v < intMin dst then intMin dst else intMax dst

theorem clampInt_of_fits {v : Int} (h : fitsIn dst v) : clampInt dst v = (v, false) := by
  obtain ⟨hlo, hhi⟩ := h
  rw [clampInt, if_neg hlo.not_gt, if_neg hhi.not_gt]

theorem clampInt_of_not_fits {v : Int} (h : ¬ fitsIn dst v) : clampInt dst v = (nearestEnd dst v, true) := by
  unfold fitsIn at h
  unfold clampInt nearestEnd
  split
  · rfl
  next hlo => rw [if_pos (by omega)]

theorem cvt_int_int (hs : src.isFloat = false) (hd : dst.isFloat = false) : cvt x src dst rm rv sat =
    if (sat || dst == .trn) = true then
      (encI dst (clampInt dst (decodeI src x)).1, trnFlag src x ||| Flags.when (clampInt dst (decodeI src x)).2 Flags.sat)
    else (encI dst (decodeI src x), trnFlag src x) := by
  simp [cvt, hs, hd, when_trn]

theorem cvt_int_float (hs : src.isFloat = false) (hd : dst.isFloat = true) : cvt x src dst rm rv sat =
    ((rndInt false (decodeI src x) 0 dst rm rv sat).1, trnFlag src x ||| (rndInt false (decodeI src x) 0 dst rm rv sat).2) := by
  simp [cvt, hs, hd, when_trn]

/-- What a NaN gives in a float format (R49). -/
def nanResult (dst : Fmt) (sig : Bool) : Nat × Flags :=
  match fmtNan dst with
  | some c => (c, Flags.when sig Flags.nv)
  | none => (0, Flags.nv)
/-- What an infinity gives in a float format (R49). -/
def infResult (dst : Fmt) (neg sat : Bool) : Nat × Flags :=
  match fmtInf dst with
  | some i => if sat then (signed dst neg (fmtMaxCode dst), Flags.nv) else (signed dst neg i, 0)
  | none => (signed dst neg (fmtMaxCode dst), Flags.nv)

theorem cvt_nan {sig : Bool} (hs : src.isFloat = true) (h : decodeF src x = .nan sig) : cvt x src dst rm rv sat =
    if dst.isFloat then nanResult dst sig else (0, Flags.nv) := by
  simp only [cvt, hs, h, if_true]
  rfl

theorem cvt_inf {neg : Bool} (hs : src.isFloat = true) (h : decodeF src x = .inf neg) : cvt x src dst rm rv sat =
    if dst.isFloat then infResult dst neg sat else (encI dst (if neg then intMin dst else intMax dst), Flags.nv) := by
  simp only [cvt, hs, h, if_true]
  rfl

theorem cvt_fin {neg : Bool} {m : Nat} {e : Int} (hs : src.isFloat = true) (h : decodeF src x = .fin neg m e) : cvt x src dst rm rv sat =
    if dst.isFloat then rnd neg m e dst rm rv sat
    else (encI dst (clampInt dst (rint neg m e rm rv).1).1, (rint neg m e rm rv).2 ||| Flags.when (clampInt dst (rint neg m e rm rv).1).2 Flags.nv) := by
  simp only [cvt, hs, h, if_true]

theorem signed_eq (f : Fmt) (neg : Bool) (c : Nat) : signed f neg c = (if neg = true then 2 ^ (fmtWidth f - 1) else 0) + c := by
  cases neg
  · exact (Nat.zero_add c).symm
  · rfl

theorem conversionResults : ConversionResults := by
  intro src dst rm rv x sat _ low v fits nearest fm y
  refine ⟨fun hs hd => ?_, fun hs hd hv => ?_, fun hs hd hv => ?_, fun hs neg m e hx => ⟨fun hd => ?_, fun hd => ?_⟩,
    fun hs sig hx => ⟨fun hd => ?_, fun n hd hn => ?_⟩, fun hs neg hx => ⟨fun n hd hn hsat => ?_, fun hd h => ?_, fun hd => ?_⟩⟩
  · have hy : y = _ := cvt_int_int hs hd
    refine ⟨fun hfit => ?_, fun _ hsat htrn => ?_, fun hfit hclamp => ?_⟩
    · rw [hy, clampInt_of_fits hfit]
      split
      · exact Prod.ext rfl (BitVec.or_zero ..)
      · rfl
    · rw [hy, if_neg (by simp [hsat, htrn])]
      rfl
    · rw [hy, clampInt_of_not_fits hfit, if_pos (by simpa using hclamp)]
      rfl
  · have hy : y = _ := cvt_int_float hs hd
    rw [show decodeI src x = v from rfl, rndInt, if_neg hv] at hy
    exact ⟨_, rfl, hy⟩
  · have hy : y = _ := cvt_int_float hs hd
    rw [show decodeI src x = v from rfl, hv] at hy
    rw [hy]
    exact Prod.ext rfl (BitVec.or_zero ..)
  · exact (cvt_fin hs hx).trans (if_pos hd)
  · have hy : y = _ := (cvt_fin hs hx).trans (if_neg (by simp [hd]))
    refine ⟨_, rfl, fun hfit => ?_, fun hfit => ?_⟩
    · rw [hy, clampInt_of_fits hfit]
      exact Prod.ext rfl (BitVec.or_zero ..)
    · rw [hy, clampInt_of_not_fits hfit]
      rfl
  · rw [show y = _ from cvt_nan hs hx]
    rcases hd with hd | hd
    · simp [hd]
    · simp [nanResult, hd]
  · rw [show y = _ from cvt_nan hs hx, if_pos hd, nanResult, hn]
    rfl
  · rw [show y = _ from cvt_inf hs hx, if_pos hd, infResult, hn, hsat, ← signed_eq]
    rfl
  · rw [show y = _ from cvt_inf hs hx, if_pos hd, infResult, signed_eq]
    rcases h with h | h
    · rw [h]
    · rw [h]
      cases fmtInf dst <;> rfl
  · exact (cvt_inf hs hx).trans (if_neg (by simp [hd]))

/-! ### The width of a result -/

theorem fmtInf_lt {f : Fmt} {i : Nat} (h : fmtInf f = some i) : i < fmtSign f := by
  revert h
  cases f <;> simp [fmtInf, fmtSign, fmtWidth] <;> omega
theorem fmtNan_lt {f : Fmt} {c : Nat} (h : fmtNan f = some c) : c < fmtSign f := by
  revert h
  cases f <;> simp [fmtNan, fmtSign, fmtWidth] <;> omega

theorem ite_lt_of_lt {p : Prop} [Decidable p] {a b c : Nat} (ha : a < c) (hb : b < c) : (if p then a else b) < c := by
  split
  · exact ha
  · exact hb

theorem ovf_lt {f : Fmt} (hf : f.isFloat = true) (neg : Bool) (rm : Rm) (sat : Bool) : (ovf f neg rm sat).1 < 2 ^ fmtWidth f := by
  have hmax := fmtMaxCode_lt_fmtSign hf
  unfold ovf
  cases h : fmtInf f with
  | none => exact signed_lt hmax
  | some i => exact signed_lt (ite_lt_of_lt (fmtInf_lt h) hmax)

theorem rnd_lt {f : Fmt} (hf : f.isFloat = true) (neg : Bool) (m : Nat) (e : Int) (rm : Rm) (rv : Nat) (sat : Bool) :
    (rnd neg m e f rm rv sat).1 < 2 ^ fmtWidth f := by
  have hmax := fmtMaxCode_lt_fmtSign hf
  by_cases hm : m = 0
  · simpa [rnd, hm] using signed_lt (neg := neg) (Nat.zero_lt_of_lt hmax)
  · rw [rnd_eq hm]
    split
    · exact ovf_lt hf ..
    next h => exact signed_lt ((not_lt.mp h).trans_lt hmax)

theorem encI_lt (f : Fmt) (v : Int) : encI f v < 2 ^ fmtWidth f := by
  have hpos : (0 : Int) < 2 ^ fmtWidth f := by positivity
  have hlt := Int.emod_lt_of_pos v hpos
  have hle := Int.emod_nonneg v hpos.ne'
  unfold encI wrap
  zify
  rwa [Int.toNat_of_nonneg hle]

theorem nanResult_lt (dst : Fmt) (sig : Bool) : (nanResult dst sig).1 < 2 ^ fmtWidth dst := by
  unfold nanResult
  cases h : fmtNan dst with
  | none => exact Nat.two_pow_pos _
  | some c =>
    refine (fmtNan_lt h).trans_le ?_
    rw [two_mul_fmtSign]
    omega

theorem infResult_lt {dst : Fmt} (hd : dst.isFloat = true) (neg sat : Bool) : (infResult dst neg sat).1 < 2 ^ fmtWidth dst := by
  have hmax := signed_lt (neg := neg) (fmtMaxCode_lt_fmtSign hd)
  unfold infResult
  cases h : fmtInf dst with
  | none => exact hmax
  | some i =>
    cases sat
    · exact signed_lt (fmtInf_lt h)
    · exact hmax

theorem cvt_lt : (cvt x src dst rm rv sat).1 < 2 ^ fmtWidth dst := by
  have hpos : 0 < 2 ^ fmtWidth dst := Nat.two_pow_pos _
  cases hs : src.isFloat with
  | false =>
    cases hd : dst.isFloat with
    | false =>
      rw [cvt_int_int hs hd]
      split <;> exact encI_lt ..
    | true =>
      rw [cvt_int_float hs hd]
      exact rnd_lt hd ..
  | true =>
    cases hx : decodeF src x with
    | nan sig =>
      rw [cvt_nan hs hx]
      split
      · exact nanResult_lt dst sig
      · exact hpos
    | inf neg =>
      rw [cvt_inf hs hx]
      split
      next hd => exact infResult_lt hd neg sat
      · exact encI_lt ..
    | fin neg m e =>
      rw [cvt_fin hs hx]
      split
      next hd => exact rnd_lt hd ..
      · exact encI_lt ..

end

/-! ### Flags of several elements -/

/-- Flags within flags, bit by bit. -/
theorem and_not_eq_zero_iff (f g : Flags) : f &&& ~~~g = 0 ↔ ∀ b, f.getLsbD b = true → g.getLsbD b = true := by
  constructor
  · intro h b hf
    have hb := congrArg (·.getLsbD b) h
    have hlt := BitVec.lt_of_getLsbD hf
    simpa [hf, hlt] using hb
  · intro h
    apply BitVec.eq_of_getLsbD_eq
    intro b hb
    cases hf : f.getLsbD b
    · simp [hf]
    · simp [hf, h b hf]

theorem getLsbD_foldl_or (F : Nat → Flags) (l : List Nat) (f : Flags) (b : Nat) :
    (l.foldl (fun acc j => acc ||| F j) f).getLsbD b = (f.getLsbD b || l.any fun j => (F j).getLsbD b) := by
  induction l generalizing f with
  | nil => simp
  | cons j l ih => simp [ih, Bool.or_assoc]

/-- A flag of a row is one of an enabled lane. -/
theorem getLsbD_rowFlags (m : MaskRow) (f : Nat → Flags) (b : Nat) :
    (rowFlags m f).getLsbD b = true ↔ ∃ j, j < 64 ∧ m.getLsbD j = true ∧ (f j).getLsbD b = true := by
  have hfold : rowFlags m f = (List.range 64).foldl (fun acc j => acc ||| if m.getLsbD j = true then f j else 0) 0 := by
    unfold rowFlags
    congr 1
    funext acc j
    split
    · rfl
    · exact (BitVec.or_zero ..).symm
  rw [hfold, getLsbD_foldl_or]
  simp only [BitVec.ofNat_eq_ofNat, BitVec.getLsbD_zero, Bool.false_or, List.any_eq_true, List.mem_range]
  refine exists_congr fun j => and_congr_right fun _ => ?_
  cases m.getLsbD j <;> simp

/-! ### Packed elements (R42, R163) -/

section
variable {src dst : Fmt} {r : Rm} {sat : Bool} {x : Nat} {rv : Nat → Nat}

/-- Element e of a conversion. -/
def cvtElem (src dst : Fmt) (r : Rm) (sat : Bool) (x : Nat) (rv : Nat → Nat) (e : Nat) : Nat × Flags :=
  cvt (elem x (fmtWidth src) e) src dst r (rv e) sat

/-- The packed results of n elements from element e on. -/
theorem cvtElems_packed (n e : Nat) : ∃ q, (cvtElems src dst r sat x rv n e).1 = 2 ^ (fmtWidth dst * e) * q ∧ q < 2 ^ (fmtWidth dst * n) ∧
    ∀ k, k < n → q / 2 ^ (fmtWidth dst * k) % 2 ^ fmtWidth dst = (cvtElem src dst r sat x rv (e + k)).1 := by
  induction n generalizing e with
  | zero => exact ⟨0, rfl, Nat.two_pow_pos _, fun k hk => absurd hk (Nat.not_lt_zero k)⟩
  | succ n ih =>
    obtain ⟨q, hval, hlt, hq⟩ := ih (e + 1)
    have hy : (cvtElem src dst r sat x rv e).1 < 2 ^ fmtWidth dst := cvt_lt
    have hw : 0 < 2 ^ fmtWidth dst := Nat.two_pow_pos _
    refine ⟨(cvtElem src dst r sat x rv e).1 + 2 ^ fmtWidth dst * q, ?_, ?_, fun k hk => ?_⟩
    · unfold cvtElems
      simp only [hval, Nat.mul_succ, pow_add]
      unfold cvtElem
      ring
    · rw [Nat.mul_succ, pow_add]
      have := Nat.mul_le_mul_left (2 ^ fmtWidth dst) (Nat.succ_le_of_lt hlt)
      rw [Nat.mul_succ] at this
      rw [Nat.mul_comm (2 ^ (fmtWidth dst * n))]
      omega
    · cases k with
      | zero => simp [Nat.add_mul_mod_self_left, Nat.mod_eq_of_lt hy]
      | succ k =>
        rw [Nat.mul_succ, Nat.add_comm (fmtWidth dst * k), pow_add, ← Nat.div_div_eq_div_mul, Nat.add_mul_div_left _ _ hw, Nat.div_eq_of_lt hy, Nat.zero_add,
          hq k (by omega)]
        congr 2
        omega

theorem getLsbD_cvtElems (n e b : Nat) :
    (cvtElems src dst r sat x rv n e).2.getLsbD b = true ↔ ∃ k, k < n ∧ (cvtElem src dst r sat x rv (e + k)).2.getLsbD b = true := by
  induction n generalizing e with
  | zero => simp [cvtElems]
  | succ n ih =>
    have hstep : (cvtElems src dst r sat x rv (n + 1) e).2 = (cvtElem src dst r sat x rv e).2 ||| (cvtElems src dst r sat x rv n (e + 1)).2 := rfl
    rw [hstep, BitVec.getLsbD_or, Bool.or_eq_true, ih]
    constructor
    · rintro (h | ⟨k, hk, h⟩)
      · exact ⟨0, by omega, h⟩
      · exact ⟨k + 1, by omega, by rwa [show e + (k + 1) = e + 1 + k by omega]⟩
    · rintro ⟨k, hk, h⟩
      cases k with
      | zero => exact .inl h
      | succ k => exact .inr ⟨k, by omega, by rwa [show e + 1 + k = e + (k + 1) by omega]⟩

theorem fmtWidth_mul_fmtPerLane {f : Fmt} (h : f ≠ .i64) : fmtWidth f * fmtPerLane f ≤ 32 := by
  revert h
  cases f <;> decide

/-- The lane of a conversion holds its elements at their places, and 0 above them. -/
theorem cvtLane_packed (hd : dst ≠ .i64) (a : Lane) :
    (cvtLane src dst r sat a rv).1.toNat < 2 ^ (fmtWidth dst * min (fmtPerLane src) (fmtPerLane dst)) ∧
    ∀ e, e < min (fmtPerLane src) (fmtPerLane dst) →
      (cvtLane src dst r sat a rv).1.toNat / 2 ^ (fmtWidth dst * e) % 2 ^ fmtWidth dst = (cvtElem src dst r sat a.toNat rv e).1 := by
  obtain ⟨q, hval, hlt, hq⟩ := cvtElems_packed (src := src) (dst := dst) (r := r) (sat := sat) (x := a.toNat) (rv := rv)
    (min (fmtPerLane src) (fmtPerLane dst)) 0
  have hbits : fmtWidth dst * min (fmtPerLane src) (fmtPerLane dst) ≤ 32 :=
    (Nat.mul_le_mul_left _ (Nat.min_le_right _ _)).trans (fmtWidth_mul_fmtPerLane hd)
  have hfull : q < 2 ^ 32 := hlt.trans_le (Nat.pow_le_pow_right two_pos hbits)
  have hlane : (cvtLane src dst r sat a rv).1.toNat = q := by
    rw [Nat.mul_zero, pow_zero, one_mul] at hval
    rw [cvtLane, lane, hval]
    exact Nat.mod_eq_of_lt hfull
  rw [hlane]
  exact ⟨hlt, fun e he => by rw [hq e he, Nat.zero_add]⟩

theorem getLsbD_cvtLane (a : Lane) (b : Nat) : (cvtLane src dst r sat a rv).2.getLsbD b = true ↔
    ∃ e, e < min (fmtPerLane src) (fmtPerLane dst) ∧ (cvtElem src dst r sat a.toNat rv e).2.getLsbD b = true := by
  refine (getLsbD_cvtElems (min (fmtPerLane src) (fmtPerLane dst)) 0 b).trans ?_
  simp only [Nat.zero_add]

end

/-! ### Column pairs (R164) -/

theorem laneOf_or_pair (x : Row) (v n j : Nat) (hj : j < 64) : laneOf (x ||| (BitVec.ofNat 2048 (v % 2 ^ 64) <<< (64 * n))) j =
    laneOf x j ||| if j / 2 = n then BitVec.ofNat 32 (v / 2 ^ (32 * (j % 2))) else 0 := by
  apply BitVec.eq_of_getLsbD_eq
  intro i hi
  have hb : 32 * j + i < 2048 := by omega
  simp only [laneOf, BitVec.getLsbD_extractLsb', BitVec.getLsbD_or, BitVec.getLsbD_shiftLeft, BitVec.getLsbD_ofNat, hi, hb, decide_true, Bool.true_and,
    Nat.testBit_mod_two_pow]
  congr 1
  rcases Nat.lt_trichotomy (j / 2) n with h | h | h
  · simp [show 32 * j + i < 64 * n by omega, h.ne]
  · have hbit : 32 * j + i - 64 * n = 32 * (j % 2) + i := by omega
    rw [if_pos h, hbit, BitVec.getLsbD_ofNat, Nat.testBit_div_two_pow, Nat.add_comm i]
    simp [hi, show ¬ 32 * j + i < 64 * n by omega, show 32 * (j % 2) + i < 64 by omega, show 32 * (j % 2) + i < 2048 by omega]
  · simp [show ¬ 32 * j + i - 64 * n < 64 by omega, h.ne']

section
variable {src dst : Fmt} {r : Rm} {sat : Bool} {a : Row} {rv : Nat → Nat}

/-- Column pair j of a conversion to or from I64. -/
def cvtPair (src dst : Fmt) (r : Rm) (sat : Bool) (a : Row) (rv : Nat → Nat) (j : Nat) : Nat × Flags :=
  cvt (if src = .i64 then (laneOf a (2 * j)).toNat + (laneOf a (2 * j + 1)).toNat * 2 ^ 32 else elem (laneOf a (2 * j)).toNat (fmtWidth src) 0)
    src dst r (rv (2 * j)) sat

/-- The lane of a pair that holds the bits of its result. -/
def pairLane (y : Nat → Nat × Flags) (j : Nat) : Lane := BitVec.ofNat 32 ((y (j / 2)).1 / 2 ^ (32 * (j % 2)))

theorem pairs_fold_lane (y : Nat → Nat × Flags) (n j : Nat) (hj : j < 64) :
    laneOf ((List.range n).foldl (fun acc k => (acc.1 ||| (BitVec.ofNat 2048 ((y k).1 % 2 ^ 64) <<< (64 * k)), acc.2 ||| (y k).2)) ((0 : Row), (0 : Flags))).1 j =
      if j / 2 < n then pairLane y j else 0 := by
  induction n with
  | zero => simp [laneOf]
  | succ n ih =>
    rw [List.range_succ, List.foldl_append, List.foldl_cons, List.foldl_nil, laneOf_or_pair _ _ _ _ hj, ih]
    rcases Nat.lt_trichotomy (j / 2) n with h | h | h
    · rw [if_pos h, if_neg h.ne, if_pos (Nat.lt_succ_of_lt h)]
      exact BitVec.or_zero ..
    · rw [if_neg h.not_lt, if_pos h, if_pos (by omega), pairLane, h]
      exact BitVec.zero_or ..
    · rw [if_neg h.not_gt, if_neg h.ne', if_neg (by omega)]
      exact BitVec.or_zero ..

theorem cvtPairRow_eq : cvtPairRow src dst r sat a rv = (List.range 32).foldl (fun acc k =>
    (acc.1 ||| (BitVec.ofNat 2048 ((cvtPair src dst r sat a rv k).1 % 2 ^ 64) <<< (64 * k)), acc.2 ||| (cvtPair src dst r sat a rv k).2))
      ((0 : Row), (0 : Flags)) := rfl

theorem laneOf_cvtPairRow {j : Nat} (hj : j < 64) : laneOf (cvtPairRow src dst r sat a rv).1 j = pairLane (cvtPair src dst r sat a rv) j := by
  rw [cvtPairRow_eq, pairs_fold_lane _ _ _ hj, if_pos (by omega)]

/-- The flags of a pair are among those of the row. -/
theorem cvtPair_flags {j : Nat} (hj : j < 32) : (cvtPair src dst r sat a rv j).2 &&& ~~~(cvtPairRow src dst r sat a rv).2 = 0 := by
  have hflags : (cvtPairRow src dst r sat a rv).2 = (List.range 32).foldl (fun acc k => acc ||| (cvtPair src dst r sat a rv k).2) 0 := by
    rw [cvtPairRow_eq]
    exact (List.foldl_hom (Prod.snd (α := Row) (β := Flags)) (init := (0, 0)) fun _ _ => rfl).symm
  rw [hflags, and_not_eq_zero_iff]
  intro b hb
  rw [getLsbD_foldl_or, Bool.or_eq_true, List.any_eq_true]
  exact .inr ⟨j, List.mem_range.mpr hj, hb⟩

theorem pairLane_even (y : Nat → Nat × Flags) (j : Nat) : pairLane y (2 * j) = BitVec.ofNat 32 (y j).1 := by
  simp [pairLane]
theorem pairLane_odd (y : Nat → Nat × Flags) (j : Nat) : pairLane y (2 * j + 1) = BitVec.ofNat 32 ((y j).1 / 2 ^ 32) := by
  unfold pairLane
  rw [show (2 * j + 1) / 2 = j by omega, show (2 * j + 1) % 2 = 1 by omega]

theorem cvtPair_of_i64 (j : Nat) : cvtPair .i64 dst r sat a rv j =
    cvt ((laneOf a (2 * j)).toNat + (laneOf a (2 * j + 1)).toNat * 2 ^ 32) .i64 dst r (rv (2 * j)) sat := rfl

theorem cvtPair_of_not_i64 (hs : src ≠ .i64) (j : Nat) : cvtPair src dst r sat a rv j =
    cvt ((laneOf a (2 * j)).toNat % 2 ^ fmtWidth src) src dst r (rv (2 * j)) sat := by
  rw [cvtPair, if_neg hs, elem, Nat.mul_zero, pow_zero, Nat.div_one]

/-- A pair whose destination has at most 32 bits holds its result in the even lane. -/
theorem pairLane_of_narrow (hd : dst ≠ .i64) (j : Nat) :
    (pairLane (cvtPair src dst r sat a rv) (2 * j)).toNat = (cvtPair src dst r sat a rv j).1 ∧ pairLane (cvtPair src dst r sat a rv) (2 * j + 1) = 0 := by
  have hw : fmtWidth dst ≤ 32 := by
    revert hd
    cases dst <;> decide
  have hlt : (cvtPair src dst r sat a rv j).1 < 2 ^ 32 := cvt_lt.trans_le (Nat.pow_le_pow_right two_pos hw)
  rw [pairLane_even, pairLane_odd, Nat.div_eq_of_lt hlt]
  exact ⟨Nat.mod_eq_of_lt hlt, rfl⟩

/-- A pair whose destination is I64 holds its result in both lanes. -/
theorem pairLane_of_i64 (j : Nat) :
    (pairLane (cvtPair src .i64 r sat a rv) (2 * j)).toNat + (pairLane (cvtPair src .i64 r sat a rv) (2 * j + 1)).toNat * 2 ^ 32 =
      (cvtPair src .i64 r sat a rv j).1 := by
  have hlt : (cvtPair src .i64 r sat a rv j).1 < 2 ^ 64 := cvt_lt
  rw [pairLane_even, pairLane_odd, BitVec.toNat_ofNat, BitVec.toNat_ofNat]
  omega

end

/-! ### The rows -/

section
variable {s : State} {c : Core} {o : VOp} {i : Nat} {r : Rm} {dst src : Fmt} {sat : Bool}

theorem rowWise_cvt (dst src : Fmt) (r : Rm) (sat : Bool) : RowWise (.cvt dst src r sat) 20 := ⟨rfl, rfl, rfl, rfl⟩

/-- The random values of a lane under .rsr (R53, R54). -/
def laneRv (o : VOp) (i : Nat) (r : Rm) (j e : Nat) : Nat := if r = .rsr then rvOf (rsrBlock o.key o.n i j) e else 0

theorem rowLands_cvt (hnow : s.now c = o.t + i) (hi : i < 16) (ho : o.fn = .cvt dst src r sat) (hs : src ≠ .i64) (hd : dst ≠ .i64) :
    let val := fun j => cvtLane src dst r sat (laneOf (s.srcRow c o o.a i) j) (laneRv o i r j)
    RowLands s c o i 20 (BitVec.allOnes 64) (fun j => (val j).1) (rowFlags (BitVec.allOnes 64) fun j => (val j).2) := by
  intro val
  refine rowLands_of_mapRow hnow hi (ho ▸ rowWise_cvt dst src r sat) ?_
  rw [rowOf, ho]
  exact if_neg (not_or.mpr ⟨hs, hd⟩)

theorem rowLands_cvtPairs (hnow : s.now c = o.t + i) (hi : i < 16) (ho : o.fn = .cvt dst src r sat) (h : src = .i64 ∨ dst = .i64) :
    let rv := fun j => rvOf (rsrBlock o.key o.n i j) 0
    RowLands s c o i 20 (BitVec.allOnes 64) (pairLane (cvtPair src dst r sat (s.srcRow c o o.a i) rv)) (cvtPairRow src dst r sat (s.srcRow c o o.a i) rv).2 := by
  intro rv
  have hrow : rowOf s c o i = (BitVec.allOnes 64, cvtPairRow src dst r sat (s.srcRow c o o.a i) rv) := by
    rw [rowOf, ho]
    exact if_pos h
  refine rowLands_of_rowFn hnow hi (ho ▸ rowWise_cvt dst src r sat) (by rw [hrow]) (by rw [hrow]) fun j hj _ => ?_
  rw [hrow]
  exact laneOf_cvtPairRow hj

end

theorem conversionRows : ConversionRows := by
  intro s c i o r dst src sat hnow hi ho A n rv
  refine ⟨fun hs hd => ⟨_, _, rowLands_cvt hnow hi ho hs hd, fun j e hj he => ⟨_, rfl, ?_, ?_⟩, fun j _ => ?_, fun b hb => ?_⟩,
    fun hs hd => ⟨_, _, rowLands_cvtPairs hnow hi ho (.inl hs), fun j hj => ⟨_, rfl, ?_⟩⟩,
    fun hs hd => ⟨_, _, rowLands_cvtPairs hnow hi ho (.inr hd), fun j hj => ⟨_, rfl, ?_⟩⟩⟩
  · exact (cvtLane_packed hd (A j)).2 e he
  · rw [and_not_eq_zero_iff]
    intro b hb
    exact (getLsbD_rowFlags _ _ b).mpr ⟨j, hj, (BitVec.getLsbD_allOnes ..).trans (decide_eq_true hj), (getLsbD_cvtLane _ b).mpr ⟨e, he, hb⟩⟩
  · exact (cvtLane_packed hd (A j)).1
  · obtain ⟨j, hj, -, h⟩ := (getLsbD_rowFlags _ _ b).mp hb
    obtain ⟨e, he, h⟩ := (getLsbD_cvtLane _ b).mp h
    exact ⟨j, e, hj, he, h⟩
  · subst hs
    rw [← cvtPair_of_i64 (a := s.srcRow c o o.a i) (rv := fun j => rvOf (rsrBlock o.key o.n i j) 0)]
    exact ⟨(pairLane_of_narrow hd j).1, (pairLane_of_narrow hd j).2, cvtPair_flags hj⟩
  · subst hd
    rw [← cvtPair_of_not_i64 hs (a := s.srcRow c o o.a i) (rv := fun j => rvOf (rsrBlock o.key o.n i j) 0)]
    exact ⟨pairLane_of_i64 j, cvtPair_flags hj⟩

end Sys2Proof.Proofs
end

section
/-! PROOFS. Float reductions (O26): the list that `combTree` folds level by level is the tree of R172, and a largest or smallest raises NV for a signalling input alone. -/
namespace Sys2Proof.Proofs
open Sys2Proof.Machine Sys2Proof.Laws Sys2Proof.Claims

/-! ### The tree -/

section
variable {op : Lane → Lane → Lane × Flags} {x : Nat → Option Lane}

theorem combine_pairwise (l m : Nat) : combine op (pairwise op x l (2 * m)) (pairwise op x l (2 * m + 1)) = pairwise op x (l + 1) m := by
  rw [pairwise, combine]
  rcases (pairwise op x l (2 * m)).1 with _ | u
  · rfl
  · rcases (pairwise op x l (2 * m + 1)).1 with _ | v <;> rfl

theorem combLevel_range (g : Nat → Option Lane × Flags) (k : Nat) :
    combLevel op ((List.range (2 * k)).map g) = (List.range k).map fun m => combine op (g (2 * m)) (g (2 * m + 1)) := by
  induction k generalizing g with
  | zero => rfl
  | succ k ih =>
    rw [Nat.mul_succ, List.range_succ_eq_map, List.range_succ_eq_map, List.range_succ_eq_map]
    simp only [List.map_cons, List.map_map, combLevel]
    congr 1
    exact ih fun m => g (m + 2)

theorem combTree_pairwise (l n : Nat) : combTree op n ((List.range (2 ^ n)).map (pairwise op x l)) = [pairwise op x (l + n) 0] := by
  induction n generalizing l with
  | zero => rfl
  | succ n ih =>
    rw [pow_succ, Nat.mul_comm, combTree, combLevel_range]
    simp only [combine_pairwise]
    rw [ih, Nat.add_assoc, Nat.add_comm 1]

/-- A reduction of 2^n inputs is the root of their tree. -/
theorem combTree_inputs (n : Nat) : (combTree op n (((List.range (2 ^ n)).map x).map fun y => (y, 0))).headD (none, 0) = pairwise op x n 0 := by
  have hleaves : ((List.range (2 ^ n)).map x).map (fun y => (y, (0 : Flags))) = (List.range (2 ^ n)).map (pairwise op x 0) := by
    rw [List.map_map]
    rfl
  rw [hleaves, combTree_pairwise, Nat.zero_add]
  rfl

/-- Whether an input of the subtree below node m of level l is a signalling NaN. -/
def sigBelow (x : Nat → Option Lane) (l m : Nat) : Prop := ∃ j, m * 2 ^ l ≤ j ∧ j < (m + 1) * 2 ^ l ∧ (x j).any f32Sig = true

theorem sigBelow_of_left {l m : Nat} (h : sigBelow x l (2 * m)) : sigBelow x (l + 1) m := by
  obtain ⟨j, hlo, hhi, hsig⟩ := h
  refine ⟨j, ?_, ?_, hsig⟩
  · rw [pow_succ]
    linarith
  · rw [pow_succ]
    have := Nat.two_pow_pos l
    linarith

theorem sigBelow_of_right {l m : Nat} (h : sigBelow x l (2 * m + 1)) : sigBelow x (l + 1) m := by
  obtain ⟨j, hlo, hhi, hsig⟩ := h
  refine ⟨j, ?_, ?_, hsig⟩
  · rw [pow_succ]
    have := Nat.two_pow_pos l
    linarith
  · rw [pow_succ]
    linarith

/-- A largest or smallest is one of its operands or the canonical NaN, and raises NV for a signalling operand alone. -/
theorem f32Least_sig (mx : Bool) (a b : Lane) : (f32Sig (f32Least mx a b).1 = true → f32Sig a = true ∨ f32Sig b = true) ∧
    ((f32Least mx a b).2 = 0 ∨ (f32Least mx a b).2 = Flags.nv ∧ (f32Sig a = true ∨ f32Sig b = true)) := by
  unfold f32Least
  split
  · have hcanon : f32Sig f32Canon = false := by decide
    refine ⟨fun h => absurd (hcanon.symm.trans h) (by decide), ?_⟩
    by_cases h : f32Sig a = true ∨ f32Sig b = true
    · exact .inr ⟨by simp [f32NaNs, h], h⟩
    · exact .inl (by simp [f32NaNs, h])
  · refine ⟨?_, .inl rfl⟩
    dsimp only
    generalize (if mx = true then _ else _ : Bool) = p
    cases p
    · exact .inr
    · exact .inl

theorem or_nv_cases {P Q R : Prop} {f g : Flags} (hP : P → R) (hQ : Q → R) (hf : f = 0 ∨ f = Flags.nv ∧ P) (hg : g = 0 ∨ g = Flags.nv ∧ Q) :
    f ||| g = 0 ∨ f ||| g = Flags.nv ∧ R := by
  rcases hf with rfl | ⟨rfl, hp⟩
  · rcases hg with rfl | ⟨rfl, hq⟩
    · exact .inl rfl
    · exact .inr ⟨rfl, hQ hq⟩
  · rcases hg with rfl | ⟨rfl, -⟩
    · exact .inr ⟨rfl, hP hp⟩
    · exact .inr ⟨rfl, hP hp⟩

theorem pairwise_sig (mx : Bool) (l m : Nat) :
    (∀ w, (pairwise (f32Least mx) x l m).1 = some w → f32Sig w = true → sigBelow x l m) ∧
    ((pairwise (f32Least mx) x l m).2 = 0 ∨ (pairwise (f32Least mx) x l m).2 = Flags.nv ∧ sigBelow x l m) := by
  induction l generalizing m with
  | zero =>
    refine ⟨fun w hw hsig => ⟨m, by simp, by simp, ?_⟩, .inl rfl⟩
    rw [show x m = some w from hw]
    exact hsig
  | succ l ih =>
    obtain ⟨hsigL, hflagL⟩ := ih (2 * m)
    obtain ⟨hsigR, hflagR⟩ := ih (2 * m + 1)
    have hboth := or_nv_cases sigBelow_of_left sigBelow_of_right hflagL hflagR
    rw [← combine_pairwise, combine]
    cases hL : (pairwise (f32Least mx) x l (2 * m)).1 with
    | none => exact ⟨fun w hw hsig => sigBelow_of_right (hsigR w hw hsig), hboth⟩
    | some u =>
      cases hR : (pairwise (f32Least mx) x l (2 * m + 1)).1 with
      | none =>
        refine ⟨fun w hw hsig => sigBelow_of_left (hsigL w (hL.trans hw) hsig), hboth⟩
      | some v =>
        obtain ⟨hval, hflag⟩ := f32Least_sig mx u v
        have hnode : f32Sig u = true ∨ f32Sig v = true → sigBelow x (l + 1) m := fun h =>
          h.elim (fun hu => sigBelow_of_left (hsigL u hL hu)) fun hv => sigBelow_of_right (hsigR v hR hv)
        exact ⟨fun w hw hsig => hnode (hval (Option.some.inj hw ▸ hsig)), or_nv_cases id hnode hboth hflag⟩

end

/-! ### Reductions of F32 values -/

section
variable {fn : VFn} {x : Nat → Option Lane} {l N : Nat}

/-- A reduction of 2^l inputs by its tree (R172, R173). -/
theorem reduce_eq (hN : N = 2 ^ l) (hred : fn.redF = true) : reduce fn l ((List.range N).map x) =
    ((pairwise (redOp fn) x l 0).1.map fun w => if f32Nan w = true then f32Canon else w,
      (pairwise (redOp fn) x l 0).2 ||| Flags.when (fn.redMinMaxF && (List.range (2 ^ l)).any fun j => (x j).any f32Sig) Flags.nv) := by
  subst hN
  unfold reduce
  simp only [combTree_inputs, hred, if_true, List.any_map, isNan_ofF32, snan_ofF32]
  rfl

theorem floatReduces_sum {op : Lane → Lane → Lane × Flags} (hN : N = 2 ^ l) (hred : fn.redF = true) (hmm : fn.redMinMaxF = false) (hop : redOp fn = op) :
    floatReduces op true x l ((reduce fn l ((List.range N).map x)).1.getD 0) (reduce fn l ((List.range N).map x)).2 := by
  rw [reduce_eq hN hred, hmm, hop]
  refine ⟨fun w hw => ?_, fun _ => BitVec.or_zero .., fun h => absurd h (by decide)⟩
  simp [hw]

theorem floatReduces_least {mx : Bool} (hN : N = 2 ^ l) (hred : fn.redF = true) (hmm : fn.redMinMaxF = true) (hop : redOp fn = f32Least mx) :
    floatReduces (f32Least mx) false x l ((reduce fn l ((List.range N).map x)).1.getD 0) (reduce fn l ((List.range N).map x)).2 := by
  rw [reduce_eq hN hred, hmm, hop]
  refine ⟨fun w hw => ?_, fun h => absurd h (by decide), fun _ => ?_⟩
  · simp [hw]
  · have hany : sigBelow x l 0 → ((List.range (2 ^ l)).any fun j => (x j).any f32Sig) = true := by
      rintro ⟨j, -, hj, hsig⟩
      rw [List.any_eq_true]
      exact ⟨j, List.mem_range.mpr (by omega), hsig⟩
    rcases (pairwise_sig (x := x) mx l 0).2 with h | ⟨h, hsig⟩
    · rw [h, Bool.true_and]
      exact BitVec.zero_or ..
    · rw [h, Bool.true_and, if_pos (hany hsig), hany hsig]
      rfl

end

theorem redOp_sum {fn : VFn} (h : fn = .redrSumF ∨ fn = .redcSumF) : redOp fn = f32Add .rne 0 := by
  funext a b
  rw [← lane_fadd32]
  rcases h with rfl | rfl <;> rfl
theorem redOp_max {fn : VFn} (h : fn = .redrMaxF ∨ fn = .redcMaxF) : redOp fn = f32Least true := by
  funext a b
  rw [← minmaxF_eq]
  rcases h with rfl | rfl <;> rfl
theorem redOp_min {fn : VFn} (h : fn = .redrMinF ∨ fn = .redcMinF) : redOp fn = f32Least false := by
  funext a b
  rw [← minmaxF_eq]
  rcases h with rfl | rfl <;> rfl

/-! ### Rows and columns of reductions -/

theorem laneOf_mkRow (f : Nat → Lane) {j : Nat} (hj : j < 64) : laneOf (mkRow f) j = f j := by
  have hfold : ∀ n, laneOf ((List.range n).foldl (fun acc j => acc ||| ((f j).setWidth 2048 <<< (32 * j))) (0 : Row)) j = if j < n then f j else 0 := by
    intro n
    induction n with
    | zero => simp [laneOf]
    | succ n ih =>
      rw [List.range_succ, List.foldl_append, List.foldl_cons, List.foldl_nil, laneOf_or _ _ _ _ hj, ih]
      rcases Nat.lt_trichotomy j n with h | rfl | h
      · simp [h, h.ne, Nat.lt_succ_of_lt h]
      · simp
      · simp [h.ne', h.not_gt, show ¬ j < n + 1 by omega]
  rw [mkRow, hfold, if_pos hj]

/-- A row of an operation whose sources are defined. -/
theorem vopRow_of_defined {s : State} {c : Core} {o : VOp} {i lat : Nat} (hnow : s.now c = o.t + i) (hcol : o.fn.column = false)
    (hmask : o.fn.toMask = false) (hlat : o.fn.lat = lat) (hdef : s.srcUndefined c o i = false) (hok : (o.slot, o.t) ∉ c.spoilt) :
    s.vopRow c o = (fun c' : Core => if i < 15 then { c' with vops := c'.vops ++ [o] } else c')
      ((c.rowResult o.seq (o.t + i + 1) (o.t + i + lat - 15) true o.d i ((rowOf s c o i).1 &&& ~~~Tab.get 0 o.skip i) (rowOf s c o i).2.1).flagsBy o.seq
        (o.t + i + 1) (o.t + lat) (s.free (0x70020 + i)) (rowOf s c o i).2.2) := by
  have hsp : c.spoilt.contains (o.slot, o.t) = false := by simpa using hok
  simp only [State.vopRow, hnow, hcol, hmask, hlat, hsp, hdef, Nat.add_sub_cancel_left, Bool.false_eq_true, if_false, Bool.and_false, Bool.or_false, rowOf]

/-- It lands with the flags of its row function. -/
theorem rowLands_of_defined {s : State} {c : Core} {o : VOp} {i lat : Nat} {m : MaskRow} {val : Nat → Lane} {f : Flags} (hnow : s.now c = o.t + i)
    (hcol : o.fn.column = false) (hmask : o.fn.toMask = false) (hlat : o.fn.lat = lat) (hdef : s.srcUndefined c o i = false)
    (hm : (rowOf s c o i).1 = m) (hf : (rowOf s c o i).2.2 = f) (hi : i < 16)
    (hval : ∀ j, j < 64 → m.getLsbD j = true → laneOf (rowOf s c o i).2.1 j = val j) : RowLands s c o i lat m val f := by
  intro hok
  have h17 : 17 ≤ lat := hlat ▸ seventeen_le_lat o.fn
  obtain ⟨T, hlo, hhi, hland⟩ := flagsBy_lands
    (c.rowResult o.seq (o.t + i + 1) (o.t + i + lat - 15) true o.d i (m &&& ~~~Tab.get 0 o.skip i) (rowOf s c o i).2.1) o.seq (o.t + i + 1) (o.t + lat)
    (s.free (0x70020 + i)) f (by omega)
  refine ⟨_, _, ⟨f, T, hlo, hhi, fun _ => rfl, by simpa using flags_within f 0 o.fn.flagMask, rfl⟩, ?_, hval⟩
  rw [vopRow_of_defined hnow hcol hmask hlat hdef hok, hm, hf, hland, Nat.add_sub_assoc (by omega)]
  dsimp only [Core.rowResult]
  split <;> rfl

/-- The value and the flags of a float reduction of row i. -/
def rowReduction (s : State) (c : Core) (o : VOp) (i : Nat) : Option Lane × Flags :=
  reduce o.fn 6 ((List.range 64).map fun j => if (s.readK c o.k i).getLsbD j = true then some (laneOf (s.srcRow c o o.a i) j) else none)

theorem rowLands_reduction {s : State} {c : Core} {o : VOp} {i : Nat} (hnow : s.now c = o.t + i) (hi : i < 16) (hdef : s.srcUndefined c o i = false)
    (ho : o.fn = .redrSumF ∨ o.fn = .redrMaxF ∨ o.fn = .redrMinF) :
    RowLands s c o i 24 (s.readK c o.k i) (fun _ => (rowReduction s c o i).1.getD 0) (rowReduction s c o i).2 := by
  have hrow : rowOf s c o i = (s.readK c o.k i, mkRow fun _ => (rowReduction s c o i).1.getD 0, (rowReduction s c o i).2) := by
    rw [rowOf, rowReduction]
    rcases ho with ho | ho | ho <;> rw [ho] <;> rfl
  obtain ⟨hcol, hmask, hlat⟩ : o.fn.column = false ∧ o.fn.toMask = false ∧ o.fn.lat = 24 := by
    rcases ho with ho | ho | ho <;> rw [ho] <;> exact ⟨rfl, rfl, rfl⟩
  refine rowLands_of_defined hnow hcol hmask hlat hdef (by rw [hrow]) (by rw [hrow]) hi fun j hj _ => ?_
  simp only [hrow, laneOf_mkRow _ hj]

/-- The value and the flags of a float reduction of column j. -/
def columnReduction (fn : VFn) (a : Nat → Row) (k : Nat → MaskRow) (j : Nat) : Option Lane × Flags :=
  reduce fn 4 ((List.range 16).map fun h => if (k h).getLsbD j = true then some (laneOf (a h) j) else none)

theorem columnReduction_flags {fn : VFn} {a : Nat → Row} {k : Nat → MaskRow} {j : Nat} (hj : j < 64)
    (hflags : colFlags fn a k = (List.range 64).foldl (fun acc j => acc ||| (columnReduction fn a k j).2) 0) :
    (columnReduction fn a k j).2 &&& ~~~colFlags fn a k = 0 := by
  rw [hflags, and_not_eq_zero_iff]
  intro b hb
  rw [getLsbD_foldl_or, Bool.or_eq_true, List.any_eq_true]
  exact .inr ⟨j, List.mem_range.mpr hj, hb⟩

theorem laneOf_colRow {fn : VFn} {i : Nat} {a : Nat → Row} {k : Nat → MaskRow} {j : Nat} (hj : j < 64)
    (hrow : colRow fn i a k = (k i, mkRow fun j => (columnReduction fn a k j).1.getD 0)) :
    laneOf (colRow fn i a k).2 j = (columnReduction fn a k j).1.getD 0 := by
  simp only [hrow, laneOf_mkRow _ hj]

theorem floatReductions : FloatReductions := by
  refine ⟨fun s c i o hnow hi hdef => ?_, fun a k i j hi hj => ?_⟩
  · intro K x row
    refine ⟨fun ho => ?_, fun ho => ?_, fun ho => ?_⟩
    · exact ⟨_, _, rowLands_reduction hnow hi hdef (.inl ho), floatReduces_sum (by decide) (ho ▸ rfl) (ho ▸ rfl) (redOp_sum (.inl ho))⟩
    · exact ⟨_, _, rowLands_reduction hnow hi hdef (.inr (.inl ho)), floatReduces_least (by decide) (ho ▸ rfl) (ho ▸ rfl) (redOp_max (.inl ho))⟩
    · exact ⟨_, _, rowLands_reduction hnow hi hdef (.inr (.inr ho)), floatReduces_least (by decide) (ho ▸ rfl) (ho ▸ rfl) (redOp_min (.inl ho))⟩
  · intro x column
    refine ⟨⟨_, ?_, columnReduction_flags hj rfl, rfl⟩, ⟨_, ?_, columnReduction_flags hj rfl, rfl⟩, ⟨_, ?_, columnReduction_flags hj rfl, rfl⟩⟩
    · rw [laneOf_colRow hj rfl]
      exact floatReduces_sum (by decide) rfl rfl (redOp_sum (.inr rfl))
    · rw [laneOf_colRow hj rfl]
      exact floatReduces_least (by decide) rfl rfl (redOp_max (.inr rfl))
    · rw [laneOf_colRow hj rfl]
      exact floatReduces_least (by decide) rfl rfl (redOp_min (.inr rfl))

end Sys2Proof.Proofs
end

section
/-! PROOFS. Estimates and exact functions of a lane (O26): the rounding of R176 by quotients and square roots, one Newton step, and the functions whose results
F32 holds exactly. -/
namespace Sys2Proof.Proofs
open Sys2Proof.Machine Sys2Proof.Laws Sys2Proof.Claims

/-! ### F32 results that are exact -/

section
variable {neg : Bool} {m : Nat} {e : Int} {rm : Rm} {rv : Nat} {c : Nat}

/-- A code that holds a finite value of a sign. -/
theorem f32Value_ofNat_signed (hc : c ≤ fmtMaxCode .f32) (y : Lane) (hy : y = BitVec.ofNat 32 (signed .f32 neg c)) :
    y.msb = neg ∧ mag32 y = c ∧ f32Nan y = false ∧ f32Inf y = false ∧ f32Value y = withSign neg (magVal .f32 c) := by
  have hmax : fmtMaxCode .f32 = 0x7F7FFFFF := rfl
  have hlt : c < 2 ^ 31 := by omega
  have hmsb : y.msb = neg := hy ▸ msb_ofNat_signed neg hlt
  have hmag : mag32 y = c := hy ▸ mag32_ofNat_signed neg hlt
  refine ⟨hmsb, hmag, ?_, ?_, by rw [f32Value_eq, hmsb, hmag]⟩
  · rw [f32Nan_eq, hmag]
    exact decide_eq_false (by omega)
  · rw [f32Inf_eq, hmag]
    exact decide_eq_false (by omega)

/-- What rounding to F32 of a represented value gives. -/
theorem lane_rnd_magVal (hc : c ≤ fmtMaxCode .f32) (h : (m : ℚ) * 2 ^ e = magVal .f32 c) :
    lane (rnd neg m e .f32 rm rv false) = (BitVec.ofNat 32 (signed .f32 neg c), 0) := by
  rw [rnd_magVal hc h]
  rfl

theorem two_mul_two_pow_fmtP_f32 : 2 * 2 ^ fmtP .f32 = 2 ^ 24 := by norm_num [fmtP]

theorem magVal_f32_normal (k n : Nat) (hlo : 2 ^ 23 ≤ n) (hhi : n ≤ 2 ^ 24) : magVal .f32 (k * 2 ^ 23 + n) = n * 2 ^ ((k : Int) - 149) := by
  have h := magVal_of_binade (f := .f32) (a := k) (n := n) (hhi.trans_eq two_mul_two_pow_fmtP_f32.symm) (.inr hlo)
  rw [show fmtEmin .f32 - (fmtP .f32 : Int) + k = k - 149 by rw [show fmtEmin .f32 = -126 from rfl, show fmtP .f32 = 23 from rfl]; push_cast; ring] at h
  exact h

/-- The first value that F32 does not hold. -/
theorem magVal_f32_inf : magVal .f32 (fmtMaxCode .f32 + 1) = 2 ^ (128 : Int) := by
  rw [show fmtMaxCode .f32 + 1 = 254 * 2 ^ 23 + 2 ^ 23 by norm_num [fmtMaxCode], magVal_f32_normal _ _ le_rfl (by norm_num)]
  norm_num
theorem magVal_f32_one : magVal .f32 0x3F800000 = 1 := by
  rw [show 0x3F800000 = 126 * 2 ^ 23 + 2 ^ 23 by norm_num, magVal_f32_normal _ _ le_rfl (by norm_num)]
  norm_num

/-- A value of at most 24 bits that is not too small nor too large. -/
theorem exists_magVal_f32 (hm : m ≠ 0) (hbits : m < 2 ^ 24) (he : -149 ≤ e) (hmax : (m : ℚ) * 2 ^ e < 2 ^ (128 : Int)) :
    ∃ c, c ≤ fmtMaxCode .f32 ∧ (m : ℚ) * 2 ^ e = magVal .f32 c := by
  have hlog : Nat.log2 m < 24 := (Nat.log2_lt hm).mpr hbits
  have hq : e ≥ rndQuantum .f32 m e := by
    unfold rndQuantum
    rw [show fmtEmin .f32 = -126 from rfl, show fmtP .f32 = 23 from rfl]
    omega
  have hpart : gridPart m e (rndQuantum .f32 m e) = 0 := gridPart_eq_zero.mpr (if_pos hq)
  have hval := (rnd_between (f := .f32) (e := e) hm).1
  rw [hpart, zero_mul, add_zero] at hval
  refine ⟨_, ?_, hval⟩
  rw [hval, ← magVal_f32_inf] at hmax
  exact Nat.le_of_lt_succ ((magVal_strictMono .f32).lt_iff_lt.mp hmax)

end

/-! ### Numbers: codes that are neither NaN, infinite nor zero -/

section
variable {a b : Lane}

/-- A code of a number that is not zero. -/
def isNumber (a : Lane) : Prop := f32Nan a = false ∧ f32Inf a = false ∧ f32Zero a = false

/-- The significand of a lane. -/
def sig32 (a : Lane) : Nat := (f32Mant a).natAbs

theorem ofF32_number (h : isNumber a) : ofF32 a = .fin a.msb (sig32 a) (f32Exp a) := ofF32_fin h.1 h.2.1

theorem sig32_ne_zero (h : isNumber a) : sig32 a ≠ 0 := by
  have hz := h.2.2
  rw [f32Zero_iff_mant, decide_eq_false_iff_not] at hz
  exact Int.natAbs_ne_zero.mpr hz

theorem sig32_lt (a : Lane) : sig32 a < 2 ^ 24 := by
  rw [sig32, natAbs_f32Mant]
  exact (magBinade_magMant .f32 (mag32 a)).2.1.trans_eq two_mul_two_pow_fmtP_f32

theorem log2_sig32_lt (h : isNumber a) : Nat.log2 (sig32 a) < 24 := (Nat.log2_lt (sig32_ne_zero h)).mpr (sig32_lt a)

theorem f32Exp_ge (a : Lane) : -149 ≤ f32Exp a := by
  rw [f32Exp_eq, magExp, show fmtEmin .f32 = -126 from rfl, show fmtP .f32 = 23 from rfl]
  omega

theorem mag32_le_max (hn : f32Nan a = false) (hi : f32Inf a = false) : mag32 a ≤ fmtMaxCode .f32 := by
  rw [f32Nan_eq, decide_eq_false_iff_not] at hn
  rw [f32Inf_eq, decide_eq_false_iff_not] at hi
  have : fmtMaxCode .f32 = 0x7F7FFFFF := rfl
  omega

theorem f32Value_eq_sig (a : Lane) : f32Value a = withSign a.msb (sig32 a * 2 ^ f32Exp a) := by
  rw [f32Value_eq, sig32, natAbs_f32Mant, f32Exp_eq, magVal]

theorem magVal_mag32 (a : Lane) : magVal .f32 (mag32 a) = sig32 a * 2 ^ f32Exp a := by rw [sig32, natAbs_f32Mant, f32Exp_eq, magVal]

theorem abs_f32Value (a : Lane) : |f32Value a| = sig32 a * 2 ^ f32Exp a := by
  rw [f32Value_eq_sig, abs_withSign, abs_of_nonneg]
  positivity

theorem sig32_mul_pos (h : isNumber a) : (0 : ℚ) < sig32 a * 2 ^ f32Exp a := by
  have := Nat.pos_of_ne_zero (sig32_ne_zero h)
  positivity

theorem abs_f32Value_lt (h : isNumber a) : |f32Value a| < 2 ^ (128 : Int) := by
  rw [abs_f32Value, ← magVal_mag32, ← magVal_f32_inf]
  exact magVal_strictMono .f32 (Nat.lt_succ_of_le (mag32_le_max h.1 h.2.1))

/-- Rounding of a value that is not zero takes its sign from it. -/
theorem f32Round_of_ne_zero (neg neg' : Bool) {m : Int} (hm : m ≠ 0) (e : Int) (r : Rm) (rv : Nat) : f32Round neg m e r rv = f32Round neg' m e r rv := by
  simp [f32Round, hm]

/-- A zero reads as a number of significand 0. -/
theorem ofF32_zero (h : f32Zero a = true) : ofF32 a = .fin a.msb 0 (f32Exp a) := by
  have hm : f32Mant a = 0 := by
    have := f32Zero_iff_mant a
    rw [h] at this
    exact of_decide_eq_true this.symm
  rw [ofF32_fin (not_nan_of_zero h) (not_inf_of_zero h), hm]
  rfl

end

/-! ### VRND (R155) -/

section
variable {a : Lane} {r : Rm} {rv : Nat}

theorem rndLane_nan (h : f32Nan a = true) : rndLane a r rv = f32NaNs [a] := by
  simp [rndLane, ofF32_nan h, f32NaNs, Flags.when, f32Canon, canon32]

theorem rndLane_inf_or_zero (h : f32Inf a = true ∨ f32Zero a = true) : rndLane a r rv = (a, 0) := by
  rcases h with h | h
  · simp [rndLane, ofF32_inf h]
  · simp [rndLane, ofF32_zero h]

theorem rint_eq_sgn (neg : Bool) (m : Nat) (e : Int) (rm : Rm) (rv : Nat) :
    (rint neg m e rm rv).1 = sgn neg (gridFloor m e 0 + (rintUp rm neg m e rv).toNat) := by
  rw [rint_eq]
  rfl

/-- An integer that VRND gives is one that F32 holds. -/
theorem exists_magVal_rint (h : isNumber a) :
    ∃ c, c ≤ fmtMaxCode .f32 ∧ (((rint a.msb (sig32 a) (f32Exp a) r rv).1.natAbs : ℚ)) * 2 ^ (0 : Int) = magVal .f32 c := by
  have habs : (rint a.msb (sig32 a) (f32Exp a) r rv).1.natAbs =
      gridFloor (sig32 a) (f32Exp a) 0 + (rintUp r a.msb (sig32 a) (f32Exp a) rv).toNat := by
    rw [rint_eq_sgn, natAbs_sgn]
  rcases le_or_gt 0 (f32Exp a) with he | he
  · have hint : gridPart (sig32 a) (f32Exp a) 0 = 0 := gridPart_eq_zero.mpr (if_pos he)
    have hval := gridFloor_add_gridPart (sig32 a) (f32Exp a) 0
    rw [hint, add_zero, ← magVal_mag32] at hval
    have hup : rintUp r a.msb (sig32 a) (f32Exp a) rv = false := gridUp_exact hint
    rw [habs, hup, Bool.toNat_false, Nat.add_zero]
    exact ⟨_, mag32_le_max h.1 h.2.1, hval.symm⟩
  · have hfloor : gridFloor (sig32 a) (f32Exp a) 0 < 2 ^ 23 := by
      rw [gridFloor, if_neg he.not_ge]
      have htwo : 2 ≤ 2 ^ (0 - f32Exp a).toNat := Nat.le_self_pow (by omega) 2
      have := sig32_lt a
      exact Nat.div_lt_of_lt_mul (this.trans_le (Nat.mul_le_mul_right (2 ^ 23) htwo))
    have hup := Bool.toNat_lt (rintUp r a.msb (sig32 a) (f32Exp a) rv)
    generalize (rint a.msb (sig32 a) (f32Exp a) r rv).1.natAbs = n at habs ⊢
    rcases Nat.eq_zero_or_pos n with rfl | hn
    · exact ⟨0, Nat.zero_le _, by simp [magVal, magMant]⟩
    · refine exists_magVal_f32 hn.ne' (by omega) (by norm_num) ?_
      have hle : (n : ℚ) < 2 ^ 24 := by exact_mod_cast (by omega : n < 2 ^ 24)
      rw [zpow_zero, mul_one]
      exact hle.trans_le (by norm_num)

theorem rndLane_number (h : isNumber a) : ∃ n : Int × Flags, n = rint a.msb (sig32 a) (f32Exp a) r rv ∧ (rndLane a r rv).2 = n.2 ∧
    (rndLane a r rv).1.msb = a.msb ∧ f32Nan (rndLane a r rv).1 = false ∧ f32Inf (rndLane a r rv).1 = false ∧ f32Value (rndLane a r rv).1 = n.1 := by
  obtain ⟨c, hc, hval⟩ := exists_magVal_rint (r := r) (rv := rv) h
  have hlane : rndLane a r rv = (BitVec.ofNat 32 (signed .f32 a.msb c), (rint a.msb (sig32 a) (f32Exp a) r rv).2) := by
    simp [rndLane, ofF32_number h, sig32_ne_zero h, rnd_magVal hc hval]
  obtain ⟨hmsb, -, hnan, hinf, hv⟩ := f32Value_ofNat_signed hc (rndLane a r rv).1 (by rw [hlane])
  refine ⟨_, rfl, by rw [hlane], hmsb, hnan, hinf, ?_⟩
  rw [hv, ← hval, zpow_zero, mul_one, rint_eq_sgn, natAbs_sgn, sgn_cast]

end

/-! ### Quotients and square roots to 12 fraction bits (R176) -/

/-- The binary logarithm of a positive rational, rounded down. -/
theorem log2Rat_spec {p q : Nat} (hp : p ≠ 0) (hq : q ≠ 0) : (2 : ℚ) ^ log2Rat p q ≤ p / q ∧ (p : ℚ) / q < 2 ^ (log2Rat p q + 1) := by
  have hqpos : (0 : ℚ) < q := by exact_mod_cast Nat.pos_of_ne_zero hq
  have hplo := two_pow_log2_le (e := 0) hp
  have hqlo := two_pow_log2_le (e := 0) hq
  have hphi := lt_two_pow_log2 p 0
  have hqhi := lt_two_pow_log2 q 0
  simp only [add_zero, zpow_zero, mul_one] at hplo hqlo hphi hqhi
  have hcond : log2Rat p q = (Nat.log2 p : Int) - Nat.log2 q ∧ (2 : ℚ) ^ ((Nat.log2 p : Int) - Nat.log2 q) * q ≤ p ∨
      log2Rat p q = (Nat.log2 p : Int) - Nat.log2 q - 1 ∧ (p : ℚ) < 2 ^ ((Nat.log2 p : Int) - Nat.log2 q) * q := by
    have hle : (2 : ℚ) ^ ((Nat.log2 p : Int) - Nat.log2 q) * q ≤ p ↔
        if 0 ≤ (Nat.log2 p : Int) - Nat.log2 q then q * 2 ^ ((Nat.log2 p : Int) - Nat.log2 q).toNat ≤ p
        else q ≤ p * 2 ^ (-((Nat.log2 p : Int) - Nat.log2 q)).toNat := by
      generalize (Nat.log2 p : Int) - Nat.log2 q = d
      split
      next h0 =>
        have hcast : (2 : ℚ) ^ d = 2 ^ d.toNat := by rw [← zpow_natCast, Int.toNat_of_nonneg h0]
        rw [hcast, mul_comm]
        norm_cast
      next h0 =>
        have hcast : (2 : ℚ) ^ d = (2 ^ (-d).toNat)⁻¹ := by rw [← zpow_natCast, Int.toNat_of_nonneg (by omega), zpow_neg, inv_inv]
        rw [hcast, inv_mul_le_iff₀ (by positivity), mul_comm]
        norm_cast
    unfold log2Rat
    dsimp only
    rw [← not_le, hle]
    split
    · split
      next h => exact .inl ⟨rfl, h⟩
      next h => exact .inr ⟨rfl, h⟩
    · split
      next h => exact .inl ⟨rfl, h⟩
      next h => exact .inr ⟨rfl, h⟩
  have hratio : (2 : ℚ) ^ ((Nat.log2 p : Int) - Nat.log2 q - 1) * q ≤ p ∧ (p : ℚ) < 2 ^ ((Nat.log2 p : Int) - Nat.log2 q + 1) * q := by
    constructor
    · calc (2 : ℚ) ^ ((Nat.log2 p : Int) - Nat.log2 q - 1) * q ≤ 2 ^ ((Nat.log2 p : Int) - Nat.log2 q - 1) * 2 ^ ((Nat.log2 q : Int) + 1) := by
            exact mul_le_mul_of_nonneg_left hqhi.le (two_zpow_pos _).le
        _ = 2 ^ (Nat.log2 p : Int) := by rw [← zpow_add₀ two_ne_zero]; congr 1; ring
        _ ≤ p := hplo
    · calc (p : ℚ) < 2 ^ ((Nat.log2 p : Int) + 1) := hphi
        _ = 2 ^ ((Nat.log2 p : Int) - Nat.log2 q + 1) * 2 ^ (Nat.log2 q : Int) := by rw [← zpow_add₀ two_ne_zero]; congr 1; ring
        _ ≤ _ := mul_le_mul_of_nonneg_left hqlo (two_zpow_pos _).le
  rw [le_div_iff₀ hqpos, div_lt_iff₀ hqpos]
  rcases hcond with ⟨hd, h⟩ | ⟨hd, h⟩
  · rw [hd]
    exact ⟨h, hratio.2⟩
  · rw [hd, sub_add_cancel]
    exact ⟨hratio.1, h⟩

theorem scaleRat_eq (p q : Nat) (x : Int) : ((scaleRat p q x).1 : ℚ) / (scaleRat p q x).2 = p / q * 2 ^ x := by
  unfold scaleRat
  push_cast
  rcases le_total 0 x with h | h
  · rw [Int.toNat_eq_zero.mpr (neg_nonpos.mpr h), pow_zero, mul_one, ← zpow_natCast, Int.toNat_of_nonneg h]
    ring
  · rw [Int.toNat_eq_zero.mpr h, pow_zero, mul_one, ← zpow_natCast, Int.toNat_of_nonneg (neg_nonneg.mpr h), zpow_neg]
    field_simp

theorem scaleRat_ne_zero {p q : Nat} (hp : p ≠ 0) (hq : q ≠ 0) (x : Int) : (scaleRat p q x).1 ≠ 0 ∧ (scaleRat p q x).2 ≠ 0 :=
  ⟨Nat.mul_ne_zero hp (Nat.two_pow_pos _).ne', Nat.mul_ne_zero hq (Nat.two_pow_pos _).ne'⟩

/-- A quotient of naturals rounded to the nearest integer, ties to even. -/
def roundDiv (u v : Nat) : Nat := u / v + (decide (v < 2 * (u % v)) || (2 * (u % v) == v && u / v % 2 == 1)).toNat

theorem roundDiv_spec (u : Nat) {v : Nat} (hv : v ≠ 0) :
    |(roundDiv u v : ℚ) - u / v| ≤ 1 / 2 ∧ (|(roundDiv u v : ℚ) - u / v| = 1 / 2 → roundDiv u v % 2 = 0) := by
  have hvpos : (0 : ℚ) < v := by exact_mod_cast Nat.pos_of_ne_zero hv
  have hdiv : (u : ℚ) / v = (u / v : Nat) + (u % v : Nat) / (v : ℚ) := by
    have h : (u : ℚ) = (u / v : Nat) * v + (u % v : Nat) := by exact_mod_cast (Nat.div_add_mod' u v).symm
    rw [div_eq_iff hvpos.ne', add_mul, div_mul_cancel₀ _ hvpos.ne']
    exact h
  have hmod : (u % v : Nat) / (v : ℚ) < 1 := (div_lt_one hvpos).mpr (by exact_mod_cast Nat.mod_lt u (Nat.pos_of_ne_zero hv))
  have hmod0 : 0 ≤ (u % v : Nat) / (v : ℚ) := by positivity
  have hlt : v < 2 * (u % v) ↔ 1 / 2 < (u % v : Nat) / (v : ℚ) := by
    rw [div_lt_div_iff₀ two_pos hvpos]
    norm_cast
    omega
  have heq : 2 * (u % v) = v ↔ (u % v : Nat) / (v : ℚ) = 1 / 2 := by
    rw [div_eq_div_iff hvpos.ne' two_ne_zero]
    norm_cast
    omega
  unfold roundDiv
  rw [hdiv]
  generalize ((u % v : Nat) : ℚ) / v = t at hlt heq hmod hmod0
  generalize u / v = n
  simp only [hlt, Bool.beq_eq_decide_eq, heq]
  rcases lt_trichotomy t (1 / 2) with h | rfl | h
  · have habs : |((n + (decide (1 / 2 < t) || (decide (t = 1 / 2) && decide (n % 2 = 1))).toNat : Nat) : ℚ) - (n + t)| = t := by
      rw [decide_eq_false h.not_gt, decide_eq_false h.ne]
      simpa [abs_sub_comm] using hmod0
    rw [habs]
    exact ⟨h.le, fun h' => absurd h' h.ne⟩
  · rcases Nat.mod_two_eq_zero_or_one n with hn | hn
    · simp [hn, abs_of_pos]
    · norm_num [hn]
      omega
  · have habs : |((n + (decide (1 / 2 < t) || (decide (t = 1 / 2) && decide (n % 2 = 1))).toNat : Nat) : ℚ) - (n + t)| = 1 - t := by
      rw [decide_eq_true h]
      simp [abs_of_pos (sub_pos.mpr hmod)]
    rw [habs]
    exact ⟨by linarith, fun h' => absurd h' (by linarith)⟩

/-- The estimate of a positive rational: a multiple of its grid, to the nearest, ties to even. -/
theorem est12_spec {p q : Nat} (hp : p ≠ 0) (hq : q ≠ 0) :
    (est12 p q).2 = estGrid (log2Rat p q) ∧ |((est12 p q).1 : ℚ) * 2 ^ (est12 p q).2 - p / q| ≤ 2 ^ ((est12 p q).2 - 1) ∧
    (|((est12 p q).1 : ℚ) * 2 ^ (est12 p q).2 - p / q| = 2 ^ ((est12 p q).2 - 1) → (est12 p q).1 % 2 = 0) := by
  have hest : est12 p q = (roundDiv (scaleRat p q (-estGrid (log2Rat p q))).1 (scaleRat p q (-estGrid (log2Rat p q))).2, estGrid (log2Rat p q)) := rfl
  rw [hest]
  generalize estGrid (log2Rat p q) = g
  obtain ⟨hhalf, htie⟩ := roundDiv_spec (scaleRat p q (-g)).1 (scaleRat_ne_zero hp hq (-g)).2
  rw [scaleRat_eq] at hhalf htie
  generalize roundDiv _ _ = n at hhalf htie ⊢
  have hpos := two_zpow_pos g
  have hscale : (n : ℚ) * 2 ^ g - p / q = (n - p / q * 2 ^ (-g)) * 2 ^ g := by
    rw [zpow_neg]
    field_simp
  have hgrid : (2 : ℚ) ^ (g - 1) = 1 / 2 * 2 ^ g := by
    rw [zpow_sub_one₀ two_ne_zero]
    ring
  rw [hscale, abs_mul, abs_of_pos hpos, hgrid]
  exact ⟨rfl, mul_le_mul_of_nonneg_right hhalf hpos.le, fun h => htie (mul_right_cancel₀ hpos.ne' h)⟩

/-- The bits of a square root, from the highest on. -/
theorem isqrt_bits {n : Nat} (hn : n < 2 ^ 32) (k : Nat) (hk : k ≤ 16) :
    let acc := (List.range k).foldl (fun acc i => let c := acc + 2 ^ (15 - i); if c * c ≤ n then c else acc) 0
    acc * acc ≤ n ∧ n < (acc + 2 ^ (16 - k)) * (acc + 2 ^ (16 - k)) := by
  induction k with
  | zero => exact ⟨Nat.zero_le _, by simpa using hn⟩
  | succ k ih =>
    obtain ⟨hlo, hhi⟩ := ih (by omega)
    rw [List.range_succ, List.foldl_append, List.foldl_cons, List.foldl_nil]
    generalize (List.range k).foldl _ 0 = acc at hlo hhi ⊢
    have hpow : 2 ^ (16 - k) = 2 ^ (15 - k) + 2 ^ (15 - k) := by
      rw [show 16 - k = 15 - k + 1 by omega, pow_succ]
      ring
    rw [show 16 - (k + 1) = 15 - k by omega]
    dsimp only
    split
    next h =>
      rw [hpow, ← Nat.add_assoc] at hhi
      exact ⟨h, hhi⟩
    next h => exact ⟨hlo, not_le.mp h⟩

theorem isqrt_spec {n : Nat} (hn : n < 2 ^ 32) : isqrt n * isqrt n ≤ n ∧ n < (isqrt n + 1) * (isqrt n + 1) := by
  obtain ⟨hlo, hhi⟩ := isqrt_bits hn 16 le_rfl
  rw [Nat.sub_self, pow_zero] at hhi
  exact ⟨hlo, hhi⟩

/-- The square root of u / v rounded to the nearest integer, ties to even. -/
def roundSqrt (u v : Nat) : Nat :=
  isqrt (u / v) + (decide ((2 * isqrt (u / v) + 1) * (2 * isqrt (u / v) + 1) * v < 4 * u) ||
    ((2 * isqrt (u / v) + 1) * (2 * isqrt (u / v) + 1) * v == 4 * u && isqrt (u / v) % 2 == 1)).toNat

theorem est12Sqrt_eq (p q : Nat) : est12Sqrt p q =
    (roundSqrt (scaleRat p q (-2 * estGrid (log2Rat p q / 2))).1 (scaleRat p q (-2 * estGrid (log2Rat p q / 2))).2, estGrid (log2Rat p q / 2)) := rfl

theorem roundSqrt_cases (u v : Nat) :
    let n := isqrt (u / v)
    let h := (2 * n + 1) * (2 * n + 1) * v
    h < 4 * u ∧ roundSqrt u v = n + 1 ∨ h = 4 * u ∧ roundSqrt u v = n + n % 2 ∨ 4 * u < h ∧ roundSqrt u v = n := by
  intro n h
  have hround : roundSqrt u v = n + (decide (h < 4 * u) || (h == 4 * u && n % 2 == 1)).toNat := rfl
  rw [hround]
  generalize h = h
  rcases Nat.lt_trichotomy h (4 * u) with hlt | heq | hgt
  · exact .inl ⟨hlt, by simp [hlt]⟩
  · refine .inr (.inl ⟨heq, ?_⟩)
    rcases Nat.mod_two_eq_zero_or_one n with hn | hn <;> simp [heq, hn]
  · exact .inr (.inr ⟨hgt, by simp [hgt.not_gt, hgt.ne']⟩)

theorem roundSqrt_spec {u v : Nat} (hv : v ≠ 0) (hlo : (1 : ℚ) ≤ u / v) (hhi : (u : ℚ) / v < 2 ^ 32) :
    0 < roundSqrt u v ∧ (2 * (roundSqrt u v : ℚ) - 1) ^ 2 ≤ 4 * (u / v) ∧ 4 * ((u : ℚ) / v) ≤ (2 * (roundSqrt u v : ℚ) + 1) ^ 2 ∧
    (4 * ((u : ℚ) / v) = (2 * (roundSqrt u v : ℚ) - 1) ^ 2 ∨ 4 * ((u : ℚ) / v) = (2 * (roundSqrt u v : ℚ) + 1) ^ 2 → roundSqrt u v % 2 = 0) := by
  have hvpos : (0 : ℚ) < v := by exact_mod_cast Nat.pos_of_ne_zero hv
  have hfloor : u / v < 2 ^ 32 := Nat.div_lt_of_lt_mul (by rw [div_lt_iff₀ hvpos, mul_comm] at hhi; exact_mod_cast hhi)
  obtain ⟨hsq, hsucc⟩ := isqrt_spec hfloor
  have hcases := roundSqrt_cases u v
  generalize isqrt (u / v) = n at hsq hsucc hcases
  generalize roundSqrt u v = N at hcases ⊢
  have hhalf : ((2 * n + 1) * (2 * n + 1) * v : Nat) = (2 * (n : ℚ) + 1) ^ 2 * v := by push_cast; ring
  have hle : (n : ℚ) ^ 2 ≤ u / v := by
    rw [le_div_iff₀ hvpos, sq]
    exact_mod_cast (Nat.mul_le_mul_right v hsq).trans (Nat.div_mul_le_self u v)
  have hlt : (u : ℚ) / v < (n + 1) ^ 2 := by
    rw [div_lt_iff₀ hvpos, sq]
    exact_mod_cast Nat.lt_mul_of_div_lt hsucc (Nat.pos_of_ne_zero hv)
  have hV : (u : ℚ) = u / v * v := (div_mul_cancel₀ _ hvpos.ne').symm
  have hpos : 1 ≤ n := by
    by_contra h
    rw [Nat.lt_one_iff.mp (not_le.mp h)] at hlt
    norm_num at hlt
    linarith
  have hn : (1 : ℚ) ≤ n := by exact_mod_cast hpos
  generalize (u : ℚ) / v = V at hle hlt hV ⊢
  rcases hcases with ⟨h, rfl⟩ | ⟨h, rfl⟩ | ⟨h, rfl⟩
  · have h' : (2 * (n : ℚ) + 1) ^ 2 < 4 * V := by
      have hq : (((2 * n + 1) * (2 * n + 1) * v : Nat) : ℚ) < 4 * u := by exact_mod_cast h
      rw [hhalf, hV, ← mul_assoc] at hq
      exact lt_of_mul_lt_mul_right hq hvpos.le
    push_cast
    exact ⟨by omega, by linarith, by linarith, fun ht => by exfalso; rcases ht with ht | ht <;> linarith⟩
  · have h' : (2 * (n : ℚ) + 1) ^ 2 = 4 * V := by
      have hq : (((2 * n + 1) * (2 * n + 1) * v : Nat) : ℚ) = 4 * u := by exact_mod_cast h
      rw [hhalf, hV, ← mul_assoc] at hq
      exact mul_right_cancel₀ hvpos.ne' hq
    rcases Nat.mod_two_eq_zero_or_one n with hp | hp
    · rw [hp, Nat.add_zero]
      exact ⟨hpos, by linarith, h'.ge, fun _ => hp⟩
    · rw [hp]
      push_cast
      exact ⟨by omega, by linarith, by linarith, fun _ => by omega⟩
  · have h' : 4 * V < (2 * (N : ℚ) + 1) ^ 2 := by
      have hq : 4 * (u : ℚ) < ((2 * N + 1) * (2 * N + 1) * v : Nat) := by exact_mod_cast h
      rw [hhalf, hV, ← mul_assoc] at hq
      exact lt_of_mul_lt_mul_right hq hvpos.le
    exact ⟨hpos, by linarith, h'.le, fun ht => by exfalso; rcases ht with ht | ht <;> linarith⟩

end Sys2Proof.Proofs
end

section
/-! PROOFS. The special functions of a lane but for VFEXP and VLG2E (O26; R176 to R182, Tables 7.3 and 7.4). -/
namespace Sys2Proof.Proofs
open Sys2Proof.Machine Sys2Proof.Laws Sys2Proof.Claims

section
variable {a b : Lane} {r : Rm} {rv : Nat}

theorem lane_nan (a : Lane) : lane (canon32, Flags.when (f32Sig a) Flags.nv) = f32NaNs [a] := by
  simp [f32NaNs, Flags.when]

/-- A finite code rounds to itself. -/
theorem rnd_self (hn : f32Nan a = false) (hi : f32Inf a = false) (r : Rm) (rv : Nat) :
    rnd a.msb (sig32 a) (f32Exp a) .f32 r rv false = (signed .f32 a.msb (mag32 a), 0) := rnd_magVal (mag32_le_max hn hi) (magVal_mag32 a).symm _ _ _ _

theorem lane_self (a : Lane) (f : Flags) : lane (signed .f32 a.msb (mag32 a), f) = (a, f) := Prod.ext (ofNat_signed_self a) rfl

theorem lane_inf_self (h : f32Inf a = true) : lane (signed .f32 a.msb 0x7F800000, 0) = (a, 0) := by rw [lane_inf, f32InfOf_msb h]
theorem lane_zero_self (h : f32Zero a = true) : lane (signed .f32 a.msb 0, 0) = (a, 0) := by rw [lane_zero, f32ZeroOf_msb h]

theorem lane_rnd_natCast (n : Nat) (e : Int) (r : Rm) (rv : Nat) : lane (rnd false n e .f32 r rv false) = f32Round false n e r rv :=
  lane_rnd (neg := false) (m := n) rfl e r rv

/-! ### Estimates (R176) -/

theorem rcpe_nan (h : f32Nan a = true) : lane (rcpe (ofF32 a)) = f32NaNs [a] := by rw [ofF32_nan h]; exact lane_nan a
theorem rcpe_zero (h : f32Zero a = true) : lane (rcpe (ofF32 a)) = (f32InfOf a.msb, Flags.dz) := by rw [ofF32_zero h]; exact lane_inf ..
theorem rcpe_inf (h : f32Inf a = true) : lane (rcpe (ofF32 a)) = (f32ZeroOf a.msb, 0) := by rw [ofF32_inf h]; exact lane_zero ..
theorem rsqe_nan (h : f32Nan a = true) : lane (rsqe (ofF32 a)) = f32NaNs [a] := by rw [ofF32_nan h]; exact lane_nan a
theorem rsqe_zero (h : f32Zero a = true) : lane (rsqe (ofF32 a)) = (f32InfOf a.msb, Flags.dz) := by rw [ofF32_zero h]; exact lane_inf ..
theorem rsqe_inf (h : f32Inf a = true) : lane (rsqe (ofF32 a)) = if a.msb = true then (f32Canon, Flags.nv) else (0, 0) := by
  rw [ofF32_inf h]
  cases a.msb <;> rfl
theorem rsqe_negative (h : isNumber a) (hs : a.msb = true) : lane (rsqe (ofF32 a)) = (f32Canon, Flags.nv) := by
  rw [ofF32_number h, rsqe, if_neg (sig32_ne_zero h), if_pos hs]
  rfl

/-- The fraction of which the estimates of a number are formed. -/
def recip (a : Lane) : Nat × Nat := scaleRat 1 (sig32 a) (-f32Exp a)

theorem recip_ne_zero (h : isNumber a) : (recip a).1 ≠ 0 ∧ (recip a).2 ≠ 0 := scaleRat_ne_zero one_ne_zero (sig32_ne_zero h) _

theorem recip_eq (a : Lane) : ((recip a).1 : ℚ) / (recip a).2 = |f32Value a|⁻¹ := by
  rw [recip, scaleRat_eq, abs_f32Value, mul_inv, zpow_neg]
  simp

/-- The binary logarithm of the reciprocal. -/
def recipLog (a : Lane) : Int := log2Rat (recip a).1 (recip a).2

theorem recipLog_spec (h : isNumber a) : (2 : ℚ) ^ recipLog a ≤ |f32Value a|⁻¹ ∧ |f32Value a|⁻¹ < 2 ^ (recipLog a + 1) := by
  rw [← recip_eq]
  exact log2Rat_spec (recip_ne_zero h).1 (recip_ne_zero h).2

theorem recipLog_ge (h : isNumber a) : -128 ≤ recipLog a := by
  have hpos : 0 < |f32Value a| := by rw [abs_f32Value]; exact sig32_mul_pos h
  have hlt : (2 : ℚ) ^ (-128 : Int) < |f32Value a|⁻¹ := by
    rw [zpow_neg]
    exact (inv_lt_inv₀ (two_zpow_pos _) hpos).mpr (abs_f32Value_lt h)
  have := (zpow_lt_zpow_iff_right₀ one_lt_two).mp (hlt.trans (recipLog_spec h).2)
  omega

theorem rcpe_number (h : isNumber a) : ∃ (n : Nat) (g : Int),
    (g = -149 ∧ |f32Value a|⁻¹ < 2 ^ (-136 : Int) ∨ -149 < g ∧ (2 : ℚ) ^ (g + 12) ≤ |f32Value a|⁻¹ ∧ |f32Value a|⁻¹ < 2 ^ (g + 13)) ∧
    |n * 2 ^ g - |f32Value a|⁻¹| ≤ 2 ^ (g - 1) ∧ (|n * 2 ^ g - |f32Value a|⁻¹| = 2 ^ (g - 1) → n % 2 = 0) ∧
    lane (rcpe (ofF32 a)) = f32Round a.msb (if a.msb = true then -(n : Int) else n) g .rne 0 := by
  obtain ⟨hg, hnear, htie⟩ := est12_spec (recip_ne_zero h).1 (recip_ne_zero h).2
  obtain ⟨hlo, hhi⟩ := recipLog_spec h
  rw [recip_eq] at hnear htie
  refine ⟨_, _, ?_, hnear, htie, ?_⟩
  · rw [hg, show log2Rat (recip a).1 (recip a).2 = recipLog a from rfl, estGrid]
    rcases le_or_gt (recipLog a - 12) (-149) with hsmall | hbig
    · rw [max_eq_right hsmall]
      exact .inl ⟨rfl, hhi.trans_le (zpow_le_zpow_right₀ one_le_two (by omega))⟩
    · rw [max_eq_left hbig.le]
      refine .inr ⟨hbig, ?_, ?_⟩
      · rwa [sub_add_cancel]
      · rwa [show recipLog a - 12 + 13 = recipLog a + 1 by ring]
  · have hlane := lane_rnd (neg := a.msb) (m := sgn a.msb (est12 (recip a).1 (recip a).2).1) (by rw [natAbs_sgn]) (est12 (recip a).1 (recip a).2).2 .rne 0
    rw [natAbs_sgn] at hlane
    rw [ofF32_number h, rcpe, if_neg (sig32_ne_zero h)]
    exact hlane

theorem rsqe_number (h : isNumber a) (hs : a.msb = false) : ∃ (n : Nat) (g : Int),
    (2 : ℚ) ^ (2 * g + 24) ≤ (f32Value a)⁻¹ ∧ (f32Value a)⁻¹ < 2 ^ (2 * g + 26) ∧ 0 < n ∧
    (2 * n - 1) ^ 2 * 2 ^ (2 * g - 2) ≤ (f32Value a)⁻¹ ∧ (f32Value a)⁻¹ ≤ (2 * n + 1) ^ 2 * 2 ^ (2 * g - 2) ∧
    ((f32Value a)⁻¹ = (2 * n - 1) ^ 2 * 2 ^ (2 * g - 2) ∨ (f32Value a)⁻¹ = (2 * n + 1) ^ 2 * 2 ^ (2 * g - 2) → n % 2 = 0) ∧
    lane (rsqe (ofF32 a)) = f32Round false n g .rne 0 := by
  have hvalue : f32Value a = |f32Value a| := by rw [abs_f32Value, f32Value_eq_sig, hs]; rfl
  obtain ⟨hlo, hhi⟩ := recipLog_spec h
  have hge := recipLog_ge h
  have hgrid : estGrid (recipLog a / 2) = recipLog a / 2 - 12 := max_eq_left (by omega)
  rw [← hvalue] at hlo hhi
  have hfrac := scaleRat_eq (recip a).1 (recip a).2 (-2 * estGrid (recipLog a / 2))
  rw [recip_eq, ← hvalue] at hfrac
  have hlane : lane (rsqe (ofF32 a)) = f32Round false ((est12Sqrt (recip a).1 (recip a).2).1 : Nat) (est12Sqrt (recip a).1 (recip a).2).2 .rne 0 := by
    rw [← lane_rnd_natCast, ofF32_number h, hs]
    simp only [rsqe, sig32_ne_zero h, Bool.false_eq_true, if_false, recip]
  rw [est12Sqrt_eq, show log2Rat (recip a).1 (recip a).2 = recipLog a from rfl] at hlane
  have hden := (scaleRat_ne_zero (recip_ne_zero h).1 (recip_ne_zero h).2 (-2 * estGrid (recipLog a / 2))).2
  generalize hg : estGrid (recipLog a / 2) = g at hfrac hlane hden hgrid
  generalize scaleRat (recip a).1 (recip a).2 (-2 * g) = v at hfrac hlane hden
  have hV : (f32Value a)⁻¹ = v.1 / v.2 * 2 ^ (2 * g) := by
    rw [hfrac, mul_assoc, ← zpow_add₀ two_ne_zero]
    simp
  have h24 : (2 : ℚ) ^ (2 * g + 24) ≤ (f32Value a)⁻¹ := le_trans (zpow_le_zpow_right₀ one_le_two (by omega)) hlo
  have h26 : (f32Value a)⁻¹ < (2 : ℚ) ^ (2 * g + 26) := hhi.trans_le (zpow_le_zpow_right₀ one_le_two (by omega))
  have hpos := two_zpow_pos (2 * g)
  have hquarter : (2 : ℚ) ^ (2 * g - 2) = 2 ^ (2 * g) / 4 := by
    rw [zpow_sub₀ two_ne_zero]
    norm_num
  have hVlo : (1 : ℚ) ≤ v.1 / v.2 := by
    rw [zpow_add₀ two_ne_zero, hV, mul_comm] at h24
    exact le_trans (by norm_num) (le_of_mul_le_mul_right h24 hpos)
  have hVhi : (v.1 : ℚ) / v.2 < 2 ^ 32 := by
    rw [zpow_add₀ two_ne_zero, hV, mul_comm (2 ^ (2 * g) : ℚ)] at h26
    exact (lt_of_mul_lt_mul_right h26 hpos.le).trans (by norm_num)
  obtain ⟨hn, hnlo, hnhi, htie⟩ := roundSqrt_spec hden hVlo hVhi
  have hscale : (f32Value a)⁻¹ = 4 * (v.1 / v.2) * 2 ^ (2 * g - 2) := by
    rw [hV, hquarter]
    ring
  have hpos' := two_zpow_pos (2 * g - 2)
  refine ⟨roundSqrt v.1 v.2, g, h24, h26, hn, ?_, ?_, ?_, hlane⟩
  · rw [hscale]
    exact mul_le_mul_of_nonneg_right hnlo hpos'.le
  · rw [hscale]
    exact mul_le_mul_of_nonneg_right hnhi hpos'.le
  · rw [hscale]
    exact fun ht => htie (ht.imp (mul_right_cancel₀ hpos'.ne') (mul_right_cancel₀ hpos'.ne'))

/-! ### Newton steps (R177) -/

theorem newton_of_nan {sq : Bool} {x y : FVal} (h : x.isNan = true ∨ y.isNan = true) :
    newton sq x y r rv = (canon32, Flags.when (x.snan || y.snan) Flags.nv) := by
  cases x with
  | nan _ => rfl
  | inf _ =>
    cases y with
    | nan _ => rfl
    | _ => simp [FVal.isNan] at h
  | fin _ _ _ =>
    cases y with
    | nan _ => rfl
    | _ => simp [FVal.isNan] at h

theorem newton_nan {sq : Bool} (h : f32Nan a = true ∨ f32Nan b = true) : lane (newton sq (ofF32 a) (ofF32 b) r rv) = f32NaNs [a, b] := by
  rw [newton_of_nan (by simpa using h), snan_ofF32, snan_ofF32]
  simp [f32NaNs, Flags.when]

/-- Where one of the operands is an infinity or a zero, the second one stays. -/
theorem newton_keeps {sq : Bool} (ha : f32Nan a = false) (hb : f32Nan b = false) (h : ¬ (isNumber a ∧ isNumber b)) :
    lane (newton sq (ofF32 a) (ofF32 b) r rv) = (b, 0) := by
  cases hbi : f32Inf b with
  | true =>
    have hbranch : newton sq (ofF32 a) (ofF32 b) r rv = (signed .f32 b.msb 0x7F800000, 0) := by
      rw [ofF32_inf hbi, ofF32_operand ha]
      cases f32Inf a <;> rfl
    rw [hbranch, lane_inf_self hbi]
  | false =>
    have hself := rnd_self hb hbi .rne 0
    cases hai : f32Inf a with
    | true =>
      have hbranch : newton sq (ofF32 a) (ofF32 b) r rv = ((rnd b.msb (sig32 b) (f32Exp b) .f32 .rne 0 false).1, 0) := by
        rw [ofF32_fin hb hbi, ofF32_inf hai]
        rfl
      rw [hbranch, hself, lane_self]
    | false =>
      have hzero : sig32 a = 0 ∨ sig32 b = 0 := by
        by_contra hcon
        have hnum : ∀ w, sig32 w ≠ 0 → f32Zero w = false := fun w hw => by
          rw [f32Zero_iff_mant]
          exact decide_eq_false fun h0 => hw (by rw [sig32, h0]; rfl)
        exact h ⟨⟨ha, hai, hnum a fun h0 => hcon (.inl h0)⟩, ⟨hb, hbi, hnum b fun h0 => hcon (.inr h0)⟩⟩
      have hbranch : newton sq (ofF32 a) (ofF32 b) r rv =
          (if sig32 b = 0 then signed .f32 b.msb 0 else (rnd b.msb (sig32 b) (f32Exp b) .f32 .rne 0 false).1, 0) := by
        rw [ofF32_fin hb hbi, ofF32_fin ha hai]
        exact if_pos hzero
      rw [hbranch]
      split
      next h0 =>
        have hz : f32Zero b = true := by
          rw [f32Zero_iff_mant]
          exact decide_eq_true (Int.natAbs_eq_zero.mp h0)
        exact lane_zero_self hz
      · rw [hself, lane_self]

theorem newton_number (sq : Bool) (ha : isNumber a) (hb : isNumber b) : newton sq (ofF32 a) (ofF32 b) r rv =
    (let p : Int × Int := if sq then (-(f32Mant a) * (sig32 b * sig32 b : Nat), f32Exp a + 2 * f32Exp b) else (-(f32Mant a * f32Mant b), f32Exp a + f32Exp b)
     let t := addDy (if sq then 3 else 2, 0) p
     rndInt (r == .rdn) (f32Mant b * t.1) (f32Exp b + t.2 - (if sq then 1 else 0)) .f32 r rv false) := by
  rw [ofF32_number ha, ofF32_number hb, newton, if_neg (not_or.mpr ⟨sig32_ne_zero ha, sig32_ne_zero hb⟩)]
  rw [sig32, sig32, sgn_f32Mant, sgn_f32Mant]

theorem rcps_number (ha : isNumber a) (hb : isNumber b) : lane (newton false (ofF32 a) (ofF32 b) r rv) =
    (let e := f32Exp a + f32Exp b
     let q := min 0 e
     f32Round (r == .rdn) (f32Mant b * (2 * 2 ^ (-q).toNat - f32Mant a * f32Mant b * 2 ^ (e - q).toNat)) (f32Exp b + q) r rv) := by
  rw [newton_number false ha hb, lane_rndInt]
  simp only [addDy, Bool.false_eq_true, if_false, zero_sub, sub_zero, neg_mul, ← sub_eq_add_neg]

theorem rsqs_number (ha : isNumber a) (hb : isNumber b) : lane (newton true (ofF32 a) (ofF32 b) r rv) =
    (let e := f32Exp a + 2 * f32Exp b
     let q := min 0 e
     f32Round (r == .rdn) (f32Mant b * (3 * 2 ^ (-q).toNat - f32Mant a * f32Mant b ^ 2 * 2 ^ (e - q).toNat)) (f32Exp b + q - 1) r rv) := by
  have hsq : ((sig32 b * sig32 b : Nat) : Int) = f32Mant b ^ 2 := by
    rw [sig32, sq]
    exact Int.natAbs_mul_self
  rw [newton_number true ha hb, lane_rndInt]
  simp only [addDy, if_true, zero_sub, neg_mul, ← sub_eq_add_neg, hsq]

/-! ### VEXPI and VEXPX (R179, Table 7.4) -/

theorem expi_nan {n : Int} (h : f32Nan a = true) : lane (expi (ofF32 a) n r rv) = f32NaNs [a] := by rw [ofF32_nan h]; exact lane_nan a
theorem expi_keeps {n : Int} (h : f32Inf a = true ∨ f32Zero a = true) : lane (expi (ofF32 a) n r rv) = (a, 0) := by
  rcases h with h | h
  · rw [ofF32_inf h]
    exact lane_inf_self h
  · rw [ofF32_zero h]
    exact lane_zero_self h
theorem expi_number {n : Int} (h : isNumber a) : lane (expi (ofF32 a) n r rv) = f32Round false (f32Mant a) (f32Exp a + n) r rv := by
  rw [ofF32_number h, f32Round_of_ne_zero false a.msb fun h0 => sig32_ne_zero h (by rw [sig32, h0]; rfl)]
  exact lane_rnd (sgn_f32Mant a) _ _ _

theorem expxE_nan (h : f32Nan a = true) : lane (expxE (ofF32 a)) = (0, Flags.nv) := by rw [ofF32_nan h]; rfl
theorem expxE_inf (h : f32Inf a = true) : lane (expxE (ofF32 a)) = (0x7FFFFFFF, Flags.nv) := by rw [ofF32_inf h]; rfl
theorem expxE_zero (h : f32Zero a = true) : lane (expxE (ofF32 a)) = (0x80000000, 0) := by rw [ofF32_zero h]; rfl

theorem expxE_number (h : isNumber a) : (lane (expxE (ofF32 a))).2 = 0 ∧ (2 : ℚ) ^ (lane (expxE (ofF32 a))).1.toInt ≤ |f32Value a| ∧
    |f32Value a| < 2 ^ ((lane (expxE (ofF32 a))).1.toInt + 1) := by
  have hlo := two_pow_log2_le (e := f32Exp a) (sig32_ne_zero h)
  have hhi := lt_two_pow_log2 (sig32 a) (f32Exp a)
  have hmax := abs_f32Value_lt h
  rw [abs_f32Value] at hmax ⊢
  have hbig := (zpow_lt_zpow_iff_right₀ one_lt_two).mp (hlo.trans_lt hmax)
  have hsmall := f32Exp_ge a
  have hlane : lane (expxE (ofF32 a)) = (BitVec.ofNat 32 (wrap 32 ((Nat.log2 (sig32 a) : Int) + f32Exp a)), 0) := by
    rw [ofF32_number h, expxE, if_neg (sig32_ne_zero h)]
    rfl
  have hint : (BitVec.ofNat 32 (wrap 32 ((Nat.log2 (sig32 a) : Int) + f32Exp a))).toInt = (Nat.log2 (sig32 a) : Int) + f32Exp a := by
    rw [wrap, BitVec.toInt_eq_toNat_bmod, BitVec.toNat_ofNat, Int.bmod_def]
    omega
  rw [hlane, hint]
  exact ⟨rfl, hlo, hhi⟩

theorem expxM_nan (h : f32Nan a = true) : lane (expxM (ofF32 a)) = f32NaNs [a] := by rw [ofF32_nan h]; exact lane_nan a
theorem expxM_keeps (h : f32Inf a = true ∨ f32Zero a = true) : lane (expxM (ofF32 a)) = (a, 0) := by
  rcases h with h | h
  · rw [ofF32_inf h]
    exact lane_inf_self h
  · rw [ofF32_zero h]
    exact lane_zero_self h

/-- The significand of a number, in [1, 2). -/
def mantRat (a : Lane) : ℚ := sig32 a * 2 ^ (-(Nat.log2 (sig32 a) : Int))

theorem one_le_mantRat (h : isNumber a) : 1 ≤ mantRat a := by
  have := two_pow_log2_le (e := -(Nat.log2 (sig32 a) : Int)) (sig32_ne_zero h)
  rwa [add_neg_cancel, zpow_zero] at this
theorem mantRat_lt_two (a : Lane) : mantRat a < 2 := by
  have := lt_two_pow_log2 (sig32 a) (-(Nat.log2 (sig32 a) : Int))
  rwa [add_neg_cancel, zero_add, zpow_one] at this

/-- The exponent of a number, in floating point. -/
def expOf (a : Lane) : Int := (Nat.log2 (sig32 a) : Int) + f32Exp a

theorem abs_f32Value_mul (a : Lane) : |f32Value a| * 2 ^ (-expOf a) = mantRat a := by
  rw [abs_f32Value, mantRat, mul_assoc, ← zpow_add₀ two_ne_zero]
  congr 2
  unfold expOf
  ring
theorem mantRat_mul (a : Lane) : mantRat a * 2 ^ expOf a = |f32Value a| := by
  rw [← abs_f32Value_mul, mul_assoc, ← zpow_add₀ two_ne_zero]
  simp

theorem expxM_number (h : isNumber a) :
    let y := lane (expxM (ofF32 a))
    y.2 = 0 ∧ y.1.msb = a.msb ∧ f32Nan y.1 = false ∧ f32Inf y.1 = false ∧ |f32Value y.1| = mantRat a ∧ f32Value y.1 * 2 ^ expOf a = f32Value a := by
  intro y
  have hlog := log2_sig32_lt h
  obtain ⟨c, hc, hval⟩ := exists_magVal_f32 (sig32_ne_zero h) (sig32_lt a) (e := -(Nat.log2 (sig32 a) : Int)) (by omega)
    ((mantRat_lt_two a).trans (by norm_num))
  have hlane : y = (BitVec.ofNat 32 (signed .f32 a.msb c), 0) := by
    show lane (expxM (ofF32 a)) = _
    rw [ofF32_number h, expxM, if_neg (sig32_ne_zero h), rnd_magVal hc hval]
    rfl
  obtain ⟨hmsb, -, hnan, hinf, hv⟩ := f32Value_ofNat_signed hc y.1 (by rw [hlane])
  rw [← hval, ← mantRat] at hv
  refine ⟨by rw [hlane], hmsb, hnan, hinf, ?_, ?_⟩
  · rw [hv, abs_withSign, abs_of_nonneg (zero_le_one.trans (one_le_mantRat h))]
  · rw [hv, withSign_mul, mantRat_mul, abs_f32Value, f32Value_eq_sig]

end

/-! ### Random numbers (R182) -/

/-- A random fraction: an odd multiple of 2^−24 below 1. -/
theorem rngF_spec (w : Nat) (hw : w < 2 ^ 32) :
    let y := lane (rnd false (2 * (w / 2 ^ 9) + 1) (-24) .f32 .rne 0 false)
    y.2 = 0 ∧ y.1.toNat < 0x3F800000 ∧ f32Value y.1 = (2 * (w / 2 ^ 9 : Nat) + 1) * 2 ^ (-24 : Int) := by
  intro y
  have hlt : 2 * (w / 2 ^ 9) + 1 < 2 ^ 24 := by omega
  have hone : ((2 * (w / 2 ^ 9) + 1 : Nat) : ℚ) * 2 ^ (-24 : Int) < 1 := by
    have : ((2 * (w / 2 ^ 9) + 1 : Nat) : ℚ) < 2 ^ 24 := by exact_mod_cast hlt
    rw [zpow_neg, mul_inv_lt_iff₀ (two_zpow_pos _), one_mul]
    exact_mod_cast this
  obtain ⟨c, hc, hval⟩ := exists_magVal_f32 (Nat.succ_ne_zero _) hlt (e := -24) (by norm_num) (hone.trans (by norm_num))
  have hlane : y = (BitVec.ofNat 32 (signed .f32 false c), 0) := lane_rnd_magVal hc hval
  obtain ⟨hmsb, hmag, -, -, hv⟩ := f32Value_ofNat_signed hc y.1 (by rw [hlane])
  refine ⟨by rw [hlane], ?_, ?_⟩
  · rw [toNat_eq_signed, hmsb, hmag]
    rw [hval, ← magVal_f32_one] at hone
    exact (magVal_strictMono .f32).lt_iff_lt.mp hone
  · rw [hv, ← hval]
    push_cast
    rfl

end Sys2Proof.Proofs
end

section
/-! PROOFS. VFEXP and VLG2E (O26; R178, R181): the fixed-point series and the repeated squaring, with bounds on what they drop (log entry 20), and the code to which
their result rounds. -/
namespace Sys2Proof.Proofs
open Sys2Proof.Machine Sys2Proof.Laws Sys2Proof.Claims

/-! ### Rounding to nearest between two codes -/

section
variable {m : Nat} {e : Int}

/-- A value that lies below the middle of a code and the next one does not round above that code. -/
theorem chosen_le {f : Fmt} {d : Nat} (hm : m ≠ 0) (h : 2 * ((m : ℚ) * 2 ^ e) < magVal f d + magVal f (d + 1)) :
    rndFloor f m e + (rndUp f .rne false m e 0).toNat ≤ d := by
  obtain ⟨-, hnear⟩ := rndUp_rne (f := f) (e := e) hm false 0
  generalize rndFloor f m e + _ = c at hnear ⊢
  by_contra hcon
  have hc := (magVal_strictMono f).monotone (show d + 1 ≤ c by omega)
  have hstep := magVal_strictMono f d.lt_succ_self
  have hd := (le_abs_self _).trans (hnear d)
  rcases abs_cases (magVal f d - m * 2 ^ e) with ⟨habs, -⟩ | ⟨habs, -⟩
  · linarith
  · linarith

/-- A value that lies between two codes, below the middle above the second one, rounds to a code between them, by at most half a step. -/
theorem lane_rnd_between {lo hi : Nat} (hm : m ≠ 0) (hmax : hi ≤ fmtMaxCode .f32) (hlo : magVal .f32 lo ≤ m * 2 ^ e)
    (hhi : 2 * ((m : ℚ) * 2 ^ e) < magVal .f32 hi + magVal .f32 (hi + 1)) :
    ∃ c, lo ≤ c ∧ c ≤ hi ∧ lane (rnd false m e .f32 .rne 0 false) = (BitVec.ofNat 32 (signed .f32 false c), rndFlags .f32 m e) ∧
      |magVal .f32 c - m * 2 ^ e| ≤ 2 ^ rndQuantum .f32 m e / 2 := by
  have hle := chosen_le hm hhi
  have hfloor : lo ≤ rndFloor .f32 m e :=
    Nat.le_of_lt_succ ((magVal_strictMono .f32).lt_iff_lt.mp (hlo.trans_lt (lt_magVal_rndFloor_succ hm)))
  refine ⟨_, hfloor.trans (Nat.le_add_right _ _), hle, ?_, (rndUp_rne hm false 0).1⟩
  rw [rnd_eq hm, if_neg (by omega)]
  rfl

/-- An odd number of steps finer than the last place is inexact. -/
theorem rndFlags_odd {f : Fmt} (hodd : m % 2 = 1) (hq : e < rndQuantum f m e) (hnormal : fmtEmin f ≤ (Nat.log2 m : Int) + e) : rndFlags f m e = Flags.nx := by
  have hrest : gridRest m e (rndQuantum f m e) ≠ 0 := by
    rw [gridRest, if_neg hq.not_ge]
    intro h0
    have h2 : 2 ∣ 2 ^ (rndQuantum f m e - e).toNat := dvd_pow_self 2 (by omega)
    have := h2.trans (Nat.dvd_of_mod_eq_zero h0)
    omega
  simp [rndFlags, hrest, hnormal.not_gt, Flags.when]

theorem rndQuantum_of_normal (h : -126 ≤ (Nat.log2 m : Int) + e) : rndQuantum .f32 m e = (Nat.log2 m : Int) + e - 23 := by
  rw [rndQuantum, show fmtEmin .f32 = -126 from rfl, show fmtP .f32 = 23 from rfl, max_eq_left h]
  rfl

/-- A normal value of odd significand, finer than the last place, between two codes: the code it rounds to, inexact. -/
theorem lane_rnd_odd {lo hi : Nat} (hodd : m % 2 = 1) (hfine : 23 < Nat.log2 m) (hnormal : -126 ≤ (Nat.log2 m : Int) + e) (hmax : hi ≤ fmtMaxCode .f32)
    (hlo : magVal .f32 lo ≤ m * 2 ^ e) (hhi : 2 * ((m : ℚ) * 2 ^ e) < magVal .f32 hi + magVal .f32 (hi + 1)) :
    let y := lane (rnd false m e .f32 .rne 0 false)
    y.2 = Flags.nx ∧ lo ≤ y.1.toNat ∧ y.1.toNat ≤ hi ∧ f32Value y.1 = magVal .f32 y.1.toNat ∧ |f32Value y.1 - m * 2 ^ e| ≤ 2 ^ ((Nat.log2 m : Int) + e) * 2⁻¹ ^ 24 := by
  intro y
  obtain ⟨c, hcl, hch, hround, herr⟩ := lane_rnd_between (by omega) hmax hlo hhi
  have hq := rndQuantum_of_normal hnormal
  rw [rndFlags_odd hodd (by rw [hq]; omega) hnormal] at hround
  have hy : y = (BitVec.ofNat 32 (signed .f32 false c), Flags.nx) := hround
  obtain ⟨hmsb, hmag, -, -, hv⟩ := f32Value_ofNat_signed (hch.trans hmax) y.1 (by rw [hy])
  have hcode : y.1.toNat = c := by
    rw [toNat_eq_signed, hmsb, hmag]
    rfl
  have hhalf : (2 : ℚ) ^ rndQuantum .f32 m e / 2 = 2 ^ ((Nat.log2 m : Int) + e) * 2⁻¹ ^ 24 := by
    rw [hq, zpow_sub₀ two_ne_zero]
    norm_num
    ring
  rw [hcode, hv, ← hhalf]
  exact ⟨by rw [hy], hcl, hch, rfl, herr⟩

end

theorem magVal_f32_pred_one : magVal .f32 0x3F7FFFFF = 1 - 2 ^ (-24 : Int) := by
  rw [show 0x3F7FFFFF = 125 * 2 ^ 23 + (2 ^ 24 - 1) by norm_num, magVal_f32_normal _ _ (by norm_num) (by norm_num)]
  norm_num
theorem magVal_f32_two : magVal .f32 0x40000000 = 2 := by
  rw [show 0x40000000 = 127 * 2 ^ 23 + 2 ^ 23 by norm_num, magVal_f32_normal _ _ le_rfl (by norm_num)]
  norm_num
theorem magVal_f32_pred_two : magVal .f32 0x3FFFFFFF = 2 - 2 ^ (-23 : Int) := by
  rw [show 0x3FFFFFFF = 126 * 2 ^ 23 + (2 ^ 24 - 1) by norm_num, magVal_f32_normal _ _ (by norm_num) (by norm_num)]
  norm_num

/-! ### The logarithm of 2 -/

/-- Partial sums of the series of log 2 = −log (1 − 1/2). -/
def logTwoSum : Nat → ℚ
  | 0 => 0
  | n + 1 => logTwoSum n + 1 / (2 ^ (n + 1) * (n + 1))

theorem logTwoSum_cast (n : Nat) : ((logTwoSum n : ℚ) : ℝ) = ∑ i ∈ Finset.range n, (1 / 2 : ℝ) ^ (i + 1) / (i + 1) := by
  induction n with
  | zero => simp [logTwoSum]
  | succ n ih =>
    rw [Finset.sum_range_succ, ← ih, logTwoSum]
    push_cast
    rw [one_div_pow, div_div]

theorem logTwoSum_near : |logTwoSum 112 - (ln2Scaled : ℚ) / 2 ^ 256| ≤ 1 / 2 ^ 112 := by
  norm_num [logTwoSum, ln2Scaled]

theorem log_two_near : |Real.log 2 - (ln2Scaled : ℝ) / 2 ^ 256| ≤ 1 / 2 ^ 111 := by
  have hseries := Real.abs_log_sub_add_sum_range_le (x := 1 / 2) (by norm_num [abs_of_pos]) 112
  have hlog : Real.log (1 - 1 / 2) = -Real.log 2 := by
    rw [show (1 : ℝ) - 1 / 2 = 2⁻¹ by norm_num, Real.log_inv]
  have hnear : |((logTwoSum 112 : ℚ) : ℝ) - (ln2Scaled : ℝ) / 2 ^ 256| ≤ 1 / 2 ^ 112 := by
    have h := (Rat.cast_le (K := ℝ)).mpr logTwoSum_near
    push_cast at h
    exact h
  rw [hlog, ← logTwoSum_cast, abs_of_pos (show (0 : ℝ) < 1 / 2 by norm_num)] at hseries
  have htail : (1 / 2 : ℝ) ^ (112 + 1) / (1 - 1 / 2) = 1 / 2 ^ 112 := by norm_num
  rw [htail, abs_le] at hseries
  rw [abs_le] at hnear ⊢
  have hsum : (1 : ℝ) / 2 ^ 111 = 1 / 2 ^ 112 + 1 / 2 ^ 112 := by norm_num
  constructor <;> linarith [hseries.1, hseries.2, hnear.1, hnear.2]

/-! ### The exponential series in fixed point -/

theorem natDiv_bounds (u : Nat) {v : Nat} (hv : 0 < v) : ((u / v : Nat) : ℝ) ≤ u / v ∧ (u : ℝ) / v < (u / v : Nat) + 1 := by
  refine ⟨Nat.cast_div_le, ?_⟩
  rw [div_lt_iff₀ (by exact_mod_cast hv)]
  exact_mod_cast Nat.lt_mul_of_div_lt (Nat.lt_succ_self _) hv

/-- The sum of n terms of the exponential series of z from term τ, of index k − 1, on. -/
noncomputable def expTerms : Nat → Nat → ℝ → ℝ → ℝ
  | 0, _, _, _ => 0
  | n + 1, k, z, τ => τ + expTerms n (k + 1) z (τ * z / k)

section
variable {z : ℝ}

theorem expTerms_factorial (n k : Nat) : expTerms n (k + 1) z (z ^ k / k.factorial) = ∑ i ∈ Finset.range n, z ^ (k + i) / (k + i).factorial := by
  induction n generalizing k with
  | zero => rfl
  | succ n ih =>
    have hterm : z ^ k / k.factorial * z / ((k + 1 : Nat) : ℝ) = z ^ (k + 1) / (k + 1).factorial := by
      rw [Nat.factorial_succ, Nat.cast_mul, pow_succ, div_mul_eq_mul_div, div_div, mul_comm (k.factorial : ℝ)]
    rw [expTerms, hterm, ih, Finset.sum_range_succ', add_comm]
    simp only [Nat.add_zero, add_left_inj]
    refine Finset.sum_congr rfl fun i _ => ?_
    rw [show k + 1 + i = k + (i + 1) by omega]

theorem expTerms_mul (n k : Nat) (a τ : ℝ) : expTerms n k z (a * τ) = a * expTerms n k z τ := by
  induction n generalizing k τ with
  | zero => exact (mul_zero a).symm
  | succ n ih =>
    rw [expTerms, expTerms, mul_add, ← ih]
    congr 2
    ring

theorem expTerms_sub (n k : Nat) (a b : ℝ) : expTerms n k z (a - b) = expTerms n k z a - expTerms n k z b := by
  induction n generalizing k a b with
  | zero => exact (sub_zero 0).symm
  | succ n ih =>
    rw [expTerms, expTerms, expTerms, show (a - b) * z / k = a * z / k - b * z / k by ring, ih]
    ring

theorem expTerms_bounds (hz : 0 ≤ z) (hz1 : z ≤ 1) (n : Nat) {k : Nat} (hk : 1 ≤ k) {τ : ℝ} (hτ : 0 ≤ τ) :
    0 ≤ expTerms n k z τ ∧ expTerms n k z τ ≤ n * τ := by
  induction n generalizing k τ with
  | zero => exact ⟨le_rfl, by simp [expTerms]⟩
  | succ n ih =>
    have hk' : (1 : ℝ) ≤ k := by exact_mod_cast hk
    have hnext : 0 ≤ τ * z / k := by positivity
    have hle : τ * z / k ≤ τ := by
      rw [div_le_iff₀ (by linarith)]
      exact mul_le_mul_of_nonneg_left (hz1.trans hk') hτ
    obtain ⟨hlo, hhi⟩ := ih (Nat.le_succ_of_le hk) hnext
    have := mul_le_mul_of_nonneg_left hle (Nat.cast_nonneg (α := ℝ) n)
    rw [expTerms]
    push_cast
    constructor <;> linarith

theorem le_expSeries {n : Nat} (hn : n ≠ 0) (k y t : Nat) : t ≤ expSeries n k y t := by
  cases n with
  | zero => exact absurd rfl hn
  | succ n => exact Nat.le_add_right _ _

/-- What the fixed-point series drops. -/
theorem expSeries_near {y : Nat} (hzy : z = y / 2 ^ 256) (hz1 : z ≤ 1) (n : Nat) {k : Nat} (hk : 1 ≤ k) (t : Nat) :
    (expSeries n k y t : ℝ) ≤ expTerms n k z t ∧ expTerms n k z t ≤ expSeries n k y t + n ^ 2 := by
  have hz : 0 ≤ z := hzy ▸ by positivity
  induction n generalizing k t with
  | zero => simp [expSeries, expTerms]
  | succ n ih =>
    have hk' : (1 : ℝ) ≤ k := by exact_mod_cast hk
    obtain ⟨hlo, hhi⟩ := ih (Nat.le_succ_of_le hk) (t * y / 2 ^ 256 / k)
    obtain ⟨hq, hq'⟩ := natDiv_bounds (t * y) (v := 2 ^ 256) (Nat.two_pow_pos _)
    obtain ⟨hr, hr'⟩ := natDiv_bounds (t * y / 2 ^ 256) hk
    have hexact : ((t * y : Nat) : ℝ) / (2 ^ 256 : Nat) = t * z := by
      rw [hzy]
      push_cast
      ring
    rw [hexact] at hq hq'
    have hdrop : 0 ≤ t * z / k - (t * y / 2 ^ 256 / k : Nat) ∧ t * z / k - (t * y / 2 ^ 256 / k : Nat) ≤ 2 := by
      have h1 := div_le_div_of_nonneg_right hq (by linarith : (0 : ℝ) ≤ k)
      have h2 : t * z / k ≤ (t * y / 2 ^ 256 : Nat) / k + 1 := by
        have h := div_le_div_of_nonneg_right hq'.le (by linarith : (0 : ℝ) ≤ k)
        rw [add_div] at h
        exact h.trans (add_le_add_right ((div_le_one (by linarith)).mpr hk') _)
      constructor <;> linarith
    obtain ⟨hd0, hd1⟩ := expTerms_bounds hz hz1 n (Nat.le_succ_of_le hk) hdrop.1
    rw [expTerms_sub] at hd0 hd1
    have hd2 := mul_le_mul_of_nonneg_left hdrop.2 (Nat.cast_nonneg (α := ℝ) n)
    rw [expTerms, expSeries]
    push_cast
    constructor
    · linarith
    · nlinarith

/-- The exponential by 80 terms. -/
theorem exp_near_series (hz : 0 ≤ z) (hz1 : z ≤ 1) : expTerms 80 1 z 1 ≤ Real.exp z ∧ Real.exp z ≤ expTerms 80 1 z 1 + 1 / 2 ^ 128 := by
  have hsum := expTerms_factorial (z := z) 80 0
  simp only [pow_zero, Nat.factorial_zero, Nat.cast_one, div_one, Nat.zero_add] at hsum
  rw [hsum]
  refine ⟨Real.sum_le_exp_of_nonneg hz 80, (Real.exp_bound' hz hz1 (n := 80) (by norm_num)).trans (add_le_add_right ?_ _)⟩
  have hpow : z ^ 80 ≤ 1 := pow_le_one₀ hz hz1
  calc z ^ 80 * ((80 : Nat) + 1) / ((Nat.factorial 80 : Nat) * (80 : Nat)) ≤ 1 * ((80 : Nat) + 1) / ((Nat.factorial 80 : Nat) * (80 : Nat)) := by gcongr
    _ ≤ 1 / 2 ^ 128 := by norm_num [Nat.factorial]

end

theorem exp_sub_le {a b : ℝ} (hb : b ≤ 1) : Real.exp b - Real.exp a ≤ 3 * |b - a| := by
  have h3 : Real.exp 1 < 3 := Real.exp_one_lt_d9.trans (by norm_num)
  have hstep : Real.exp b * (1 + (a - b)) ≤ Real.exp a := by
    have h := mul_le_mul_of_nonneg_left (Real.add_one_le_exp (a - b)) (Real.exp_pos b).le
    rwa [← Real.exp_add, add_sub_cancel, add_comm (a - b)] at h
  have hexp : Real.exp b ≤ 3 := (Real.exp_le_exp.mpr hb).trans h3.le
  calc Real.exp b - Real.exp a ≤ Real.exp b * (b - a) := by linarith
    _ ≤ Real.exp b * |b - a| := mul_le_mul_of_nonneg_left (le_abs_self _) (Real.exp_pos b).le
    _ ≤ 3 * |b - a| := mul_le_mul_of_nonneg_right hexp (abs_nonneg _)

theorem abs_exp_sub_le {a b : ℝ} (ha : a ≤ 1) (hb : b ≤ 1) : |Real.exp b - Real.exp a| ≤ 3 * |b - a| := by
  refine abs_le.mpr ⟨?_, exp_sub_le hb⟩
  have h := exp_sub_le (b := a) (a := b) ha
  rw [abs_sub_comm] at h
  linarith

/-! ### VFEXP (R178) -/

/-- The argument of the series: a fixed-point product with log 2, rounded down. -/
theorem expArg_near {f : ℝ} {y : Nat} (hf0 : 0 ≤ f) (hf1 : f ≤ 1) (hy : (y : ℝ) ≤ f * ln2Scaled) (hy' : f * ln2Scaled < y + 1) :
    (y : ℝ) / 2 ^ 256 ≤ 1 ∧ |(y : ℝ) / 2 ^ 256 - Real.log 2 * f| ≤ 1 / 2 ^ 110 := by
  have hlam0 : (0 : ℝ) ≤ (ln2Scaled : ℝ) / 2 ^ 256 := by positivity
  have hlam1 : (ln2Scaled : ℝ) / 2 ^ 256 ≤ 1 := by norm_num [ln2Scaled]
  have hlo : (y : ℝ) / 2 ^ 256 ≤ f * (ln2Scaled / 2 ^ 256) := by
    rw [← mul_div_assoc]
    exact div_le_div_of_nonneg_right hy (by positivity)
  have hhi : f * (ln2Scaled / 2 ^ 256) ≤ (y : ℝ) / 2 ^ 256 + 1 / 2 ^ 256 := by
    rw [← mul_div_assoc, ← add_div]
    exact div_le_div_of_nonneg_right hy'.le (by positivity)
  have hmul : |f * (ln2Scaled / 2 ^ 256) - Real.log 2 * f| ≤ 1 / 2 ^ 111 := by
    rw [mul_comm (Real.log 2), ← mul_sub, abs_mul, abs_of_nonneg hf0, abs_sub_comm]
    exact (mul_le_of_le_one_left (abs_nonneg _) hf1).trans log_two_near
  refine ⟨hlo.trans (mul_le_one₀ hf1 hlam0 hlam1), ?_⟩
  rw [abs_le] at hmul ⊢
  have htiny : (1 : ℝ) / 2 ^ 256 + 1 / 2 ^ 111 ≤ 1 / 2 ^ 110 := by norm_num
  constructor <;> linarith [hmul.1, hmul.2]

/-- The series at a fixed-point argument, against the exponential. -/
theorem expSeries_exp_near {y : Nat} (hz1 : (y : ℝ) / 2 ^ 256 ≤ 1) :
    (expSeries 80 1 y (2 ^ 256) : ℝ) ≤ 2 ^ 256 * Real.exp (y / 2 ^ 256) ∧
    2 ^ 256 * Real.exp (y / 2 ^ 256) ≤ expSeries 80 1 y (2 ^ 256) + 80 ^ 2 + 2 ^ 128 := by
  obtain ⟨hs, hs'⟩ := expSeries_near (z := (y : ℝ) / 2 ^ 256) (y := y) rfl hz1 80 le_rfl (2 ^ 256)
  obtain ⟨hexp, hexp'⟩ := exp_near_series (z := (y : ℝ) / 2 ^ 256) (by positivity) hz1
  have hscale : expTerms 80 1 ((y : ℝ) / 2 ^ 256) ((2 ^ 256 : Nat) : ℝ) = 2 ^ 256 * expTerms 80 1 ((y : ℝ) / 2 ^ 256) 1 := by
    rw [← expTerms_mul, mul_one, Nat.cast_pow, Nat.cast_ofNat]
  rw [hscale] at hs hs'
  generalize expSeries 80 1 y (2 ^ 256) = S at hs hs' ⊢
  generalize expTerms 80 1 ((y : ℝ) / 2 ^ 256) 1 = T at hs hs' hexp hexp'
  generalize Real.exp ((y : ℝ) / 2 ^ 256) = E at hexp hexp' ⊢
  norm_num at hs hs' hexp' ⊢
  constructor <;> linarith

theorem exp2Bits_eq {e : Int} (he : e < 0) (m : Nat) :
    exp2Bits m e = expSeries 80 1 (m * ln2Scaled / 2 ^ (-e).toNat) (2 ^ 256) / 2 ^ 128 := by
  unfold exp2Bits
  rw [if_neg (by omega)]

theorem two_zpow_of_neg {e : Int} (he : e < 0) : (2 : ℝ) ^ e = (2 ^ (-e).toNat)⁻¹ := by
  rw [← zpow_natCast, Int.toNat_of_nonneg (by omega), zpow_neg, inv_inv]

/-- The bits of 2^f that the model computes differ from 2^f by less than 2^−100. -/
theorem exp2Bits_near {m : Nat} {e : Int} (he : e < 0) (h1 : (m : ℝ) * 2 ^ e < 1) :
    2 ^ 128 ≤ exp2Bits m e ∧ |(exp2Bits m e : ℝ) / 2 ^ 128 - (2 : ℝ) ^ ((m : ℝ) * 2 ^ e)| ≤ 1 / 2 ^ 106 := by
  have hf0 : 0 ≤ (m : ℝ) * 2 ^ e := by positivity
  obtain ⟨hy, hy'⟩ := natDiv_bounds (m * ln2Scaled) (v := 2 ^ (-e).toNat) (Nat.two_pow_pos _)
  have hexact : ((m * ln2Scaled : Nat) : ℝ) / (2 ^ (-e).toNat : Nat) = (m : ℝ) * 2 ^ e * ln2Scaled := by
    rw [two_zpow_of_neg he]
    push_cast
    field_simp
  rw [hexact] at hy hy'
  rw [exp2Bits_eq he]
  generalize m * ln2Scaled / 2 ^ (-e).toNat = y at hy hy'
  generalize (m : ℝ) * 2 ^ e = f at h1 hf0 hy hy'
  obtain ⟨hz1, hdist⟩ := expArg_near hf0 h1.le hy hy'
  obtain ⟨hs, hs'⟩ := expSeries_exp_near hz1
  obtain ⟨hB, hB'⟩ := natDiv_bounds (expSeries 80 1 y (2 ^ 256)) (v := 2 ^ 128) (Nat.two_pow_pos _)
  have hfirst : 2 ^ 256 ≤ expSeries 80 1 y (2 ^ 256) := le_expSeries (by norm_num) 1 y _
  generalize expSeries 80 1 y (2 ^ 256) = S at hfirst hs hs' hB hB'
  have hpow : (2 : ℝ) ^ f = Real.exp (Real.log 2 * f) := Real.rpow_def_of_pos two_pos f
  have harg : Real.log 2 * f ≤ 1 := mul_le_one₀ (by linarith [Real.log_two_lt_d9]) hf0 h1.le
  have hexpdist := (abs_exp_sub_le harg hz1).trans (mul_le_mul_of_nonneg_left hdist (by norm_num : (0 : ℝ) ≤ 3))
  rw [← hpow, abs_le] at hexpdist
  constructor
  · have h := Nat.div_le_div_right (c := 2 ^ 128) hfirst
    rwa [show 2 ^ 256 / 2 ^ 128 = 2 ^ 128 by norm_num] at h
  · generalize (S / 2 ^ 128 : Nat) = B at hB hB' ⊢
    generalize Real.exp ((y : ℝ) / 2 ^ 256) = E at hexpdist hs hs'
    push_cast at hB hB'
    rw [abs_le]
    obtain ⟨h1, h2⟩ := hexpdist
    constructor
    · rw [le_sub_iff_add_le, le_div_iff₀ (by positivity)]
      rw [div_lt_iff₀ (by positivity)] at hB'
      norm_num at hB' hs' h1 h2 ⊢
      linarith
    · rw [sub_le_iff_le_add, div_le_iff₀ (by positivity)]
      rw [le_div_iff₀ (by positivity)] at hB
      norm_num at hB hs h1 h2 ⊢
      linarith

theorem fexp_nan {a : Lane} (h : f32Nan a = true) : lane (fexp (ofF32 a)) = f32NaNs [a] := by rw [ofF32_nan h]; exact lane_nan a
theorem fexp_zero {a : Lane} (h : f32Zero a = true) : lane (fexp (ofF32 a)) = (0x3F800000, 0) := by rw [ofF32_zero h]; rfl

/-- A number is below 1 exactly when its code is below that of 1. -/
theorem log2_sig32_neg_iff {a : Lane} (h : isNumber a) : (Nat.log2 (sig32 a) : Int) + f32Exp a < 0 ↔ mag32 a < 0x3F800000 := by
  have hlo := two_pow_log2_le (e := f32Exp a) (sig32_ne_zero h)
  have hhi := lt_two_pow_log2 (sig32 a) (f32Exp a)
  rw [← magVal_mag32] at hlo hhi
  rw [← (magVal_strictMono .f32).lt_iff_lt, magVal_f32_one]
  constructor
  · intro hneg
    exact hhi.trans_le (zpow_le_one_of_nonpos₀ one_le_two (by omega))
  · intro hlt
    have := (zpow_lt_one_iff_right₀ one_lt_two).mp (hlo.trans_lt hlt)
    exact this

/-- Outside [0, 1) the operation is invalid. -/
theorem fexp_invalid {a : Lane} (hn : f32Nan a = false) (hz : f32Zero a = false) (h : a.msb = true ∨ 0x3F800000 ≤ a.toNat) :
    lane (fexp (ofF32 a)) = (f32Canon, Flags.nv) := by
  cases hi : f32Inf a with
  | true =>
    rw [ofF32_inf hi]
    rfl
  | false =>
    have hnum : isNumber a := ⟨hn, hi, hz⟩
    have hcond : (a.msb || decide (0 ≤ (Nat.log2 (sig32 a) : Int) + f32Exp a)) = true := by
      cases hs : a.msb with
      | true => rfl
      | false =>
        have hmag : a.toNat = mag32 a := by rw [toNat_eq_signed, hs]; rfl
        rw [Bool.false_or, decide_eq_true_eq, ← not_lt, log2_sig32_neg_iff hnum, ← hmag]
        exact (h.resolve_left (by simp [hs])).not_gt
    rw [ofF32_number hnum, fexp, if_neg (sig32_ne_zero hnum), if_pos hcond]
    rfl

/-- The power of a fraction that F32 holds stays clear of 2. -/
theorem two_rpow_le {f : ℝ} (hf : f ≤ 1 - 1 / 2 ^ 24) : (2 : ℝ) ^ f ≤ 2 - 1.3 / 2 ^ 24 := by
  have hlog := Real.log_two_gt_d9
  have hle : (2 : ℝ) ^ f ≤ 2 ^ (1 - 1 / 2 ^ 24 : ℝ) := Real.rpow_le_rpow_of_exponent_le one_le_two hf
  have hsplit : (2 : ℝ) ^ (1 - 1 / 2 ^ 24 : ℝ) = 2 / Real.exp (Real.log 2 * (1 / 2 ^ 24)) := by
    rw [Real.rpow_sub two_pos, Real.rpow_one, Real.rpow_def_of_pos two_pos (1 / 2 ^ 24)]
  have hexp : 1 + 0.69 / 2 ^ 24 ≤ Real.exp (Real.log 2 * (1 / 2 ^ 24)) := by
    have h := Real.add_one_le_exp (Real.log 2 * (1 / 2 ^ 24))
    linarith
  rw [hsplit] at hle
  refine hle.trans ((div_le_div_of_nonneg_left two_pos.le (by positivity) hexp).trans ?_)
  norm_num

/-- The value that VFEXP rounds, as a rational: the middle of the step that the computed bits leave. -/
theorem fexp_middle {m : Nat} {e : Int} (he : e < 0) (hle : (m : ℚ) * 2 ^ e ≤ 1 - 2 ^ (-24 : Int)) :
    1 ≤ ((2 * exp2Bits m e + 1 : Nat) : ℚ) * 2 ^ (-129 : Int) ∧ 2 * (((2 * exp2Bits m e + 1 : Nat) : ℚ) * 2 ^ (-129 : Int)) < 4 - 2 ^ (-23 : Int) ∧
    |((((2 * exp2Bits m e + 1 : Nat) : ℚ) * 2 ^ (-129 : Int) : ℚ) : ℝ) - (2 : ℝ) ^ ((m : ℝ) * 2 ^ e)| ≤ 1 / 2 ^ 105 := by
  have hle' : (m : ℝ) * 2 ^ e ≤ 1 - 1 / 2 ^ 24 := by
    have h := (Rat.cast_le (K := ℝ)).mpr hle
    push_cast at h
    norm_num at h ⊢
    exact h
  obtain ⟨hlow, hnear⟩ := exp2Bits_near he (hle'.trans_lt (by norm_num))
  have htop := two_rpow_le hle'
  generalize (2 : ℝ) ^ ((m : ℝ) * 2 ^ e) = P at hnear htop ⊢
  generalize exp2Bits m e = B at hlow hnear ⊢
  have hvalue : ((((2 * B + 1 : Nat) : ℚ) * 2 ^ (-129 : Int) : ℚ) : ℝ) = (B : ℝ) / 2 ^ 128 + 1 / 2 ^ 129 := by
    push_cast
    norm_num
    ring
  rw [abs_le] at hnear
  refine ⟨?_, ?_, ?_⟩
  · have hB : (2 : ℚ) ^ 128 ≤ B := by exact_mod_cast hlow
    have hsplit : ((2 * B + 1 : Nat) : ℚ) * 2 ^ (-129 : Int) = B / 2 ^ 128 + 2 ^ (-129 : Int) := by
      push_cast
      norm_num
      ring
    rw [hsplit]
    exact ((one_le_div (by positivity)).mpr hB).trans (le_add_of_nonneg_right (two_zpow_pos _).le)
  · rw [← Rat.cast_lt (K := ℝ), Rat.cast_mul, hvalue]
    push_cast
    norm_num at hnear htop ⊢
    linarith [hnear.2]
  · rw [hvalue, abs_le]
    norm_num at hnear ⊢
    constructor <;> linarith [hnear.1, hnear.2]

theorem fexp_number {a : Lane} (hpos : 0 < a.toNat) (hlt : a.toNat < 0x3F800000) :
    let y := lane (fexp (ofF32 a))
    y.2 = Flags.nx ∧ 1 ≤ f32Value y.1 ∧ f32Value y.1 < 2 ∧ y.1.toNat < 0x40000000 ∧
      |((f32Value y.1 : ℚ) : ℝ) - (2 : ℝ) ^ ((f32Value a : ℚ) : ℝ)| ≤ 2⁻¹ ^ 24 + 2⁻¹ ^ 100 := by
  intro y
  have hmag : mag32 a = a.toNat := Nat.mod_eq_of_lt (hlt.trans (by norm_num))
  have hs : a.msb = false := by
    rw [BitVec.msb_eq_decide]
    exact decide_eq_false (by omega)
  have hnum : isNumber a := ⟨by rw [f32Nan_eq, hmag]; exact decide_eq_false (by omega), by rw [f32Inf_eq, hmag]; exact decide_eq_false (by omega),
    by rw [f32Zero_eq, hmag]; exact decide_eq_false hpos.ne'⟩
  have hneg := (log2_sig32_neg_iff hnum).mpr (hmag ▸ hlt)
  have hvalue : f32Value a = sig32 a * 2 ^ f32Exp a := by rw [f32Value_eq_sig, hs]; rfl
  have hle : (sig32 a : ℚ) * 2 ^ f32Exp a ≤ 1 - 2 ^ (-24 : Int) := by
    rw [← magVal_mag32, ← magVal_f32_pred_one]
    exact (magVal_strictMono .f32).monotone (by omega)
  obtain ⟨hone, htwo, hnear⟩ := fexp_middle (m := sig32 a) (e := f32Exp a) (by omega) hle
  have hlane : y = lane (rnd false (2 * exp2Bits (sig32 a) (f32Exp a) + 1) (-129) .f32 .rne 0 false) := by
    show lane (fexp (ofF32 a)) = _
    rw [ofF32_number hnum, hs, fexp, if_neg (sig32_ne_zero hnum), if_neg (by simpa using hneg)]
  have hcast : (2 : ℝ) ^ ((f32Value a : ℚ) : ℝ) = 2 ^ ((sig32 a : ℝ) * 2 ^ f32Exp a) := by
    rw [hvalue]
    push_cast
    rfl
  rw [hcast]
  generalize (2 : ℝ) ^ ((sig32 a : ℝ) * 2 ^ f32Exp a) = P at hnear ⊢
  generalize hm : 2 * exp2Bits (sig32 a) (f32Exp a) + 1 = m at hone htwo hnear hlane
  have hm0 : m ≠ 0 := by omega
  have hlog0 : 0 ≤ (Nat.log2 m : Int) + -129 := by
    have := (zpow_lt_zpow_iff_right₀ one_lt_two).mp (((zpow_zero (2 : ℚ)).le.trans hone).trans_lt (lt_two_pow_log2 m (-129)))
    omega
  have hlog1 : (Nat.log2 m : Int) + -129 ≤ 0 := by
    have h2 : (m : ℚ) * 2 ^ (-129 : Int) < 2 ^ (1 : Int) := by
      rw [zpow_one]
      linarith [two_zpow_pos (-23)]
    have := (zpow_lt_zpow_iff_right₀ one_lt_two).mp ((two_pow_log2_le (e := -129) hm0).trans_lt h2)
    omega
  obtain ⟨hflags, hlo, hhi, hval, herr⟩ := lane_rnd_odd (m := m) (e := -129) (lo := 0x3F800000) (hi := 0x3FFFFFFF) (by omega) (by omega) (by omega) (by decide)
    (by rwa [magVal_f32_one]) (by rw [show 0x3FFFFFFF + 1 = 0x40000000 from rfl, magVal_f32_two, magVal_f32_pred_two]; linarith)
  rw [← hlane] at hflags hlo hhi hval herr
  rw [le_antisymm hlog1 hlog0, zpow_zero, one_mul] at herr
  have hmono := magVal_strictMono .f32
  refine ⟨hflags, ?_, ?_, Nat.lt_succ_of_le hhi, ?_⟩
  · rw [hval, ← magVal_f32_one]
    exact hmono.monotone hlo
  · rw [hval, ← magVal_f32_two]
    exact hmono (Nat.lt_succ_of_le hhi)
  · have herr' := (Rat.cast_le (K := ℝ)).mpr herr
    rw [Rat.cast_abs, Rat.cast_sub, show ((2⁻¹ ^ 24 : ℚ) : ℝ) = 2⁻¹ ^ 24 by norm_num] at herr'
    have htiny : (1 : ℝ) / 2 ^ 105 ≤ 2⁻¹ ^ 100 := by norm_num
    exact (abs_sub_le _ _ _).trans (add_le_add herr' (hnear.trans htiny))

end Sys2Proof.Proofs
end

section
/-! PROOFS. VLG2E (O26; R181): the bits of the logarithm by repeated squaring, with a bound on what the fixed point drops (log entry 20), and the code to which their
middle rounds. -/
namespace Sys2Proof.Proofs
open Sys2Proof.Machine Sys2Proof.Laws Sys2Proof.Claims

/-! ### Repeated squaring -/

/-- The step of the repeated squaring: q is the square of y over N, halved b times and rounded down. -/
theorem logb_square_near {N y q : Nat} {b : Nat} (hN : 0 < N) (hy : 0 < y) (hq : q = y * y / (N * 2 ^ b)) (hNq : N ≤ q) :
    0 ≤ 2 * Real.logb 2 ((y : ℝ) / N) - b - Real.logb 2 ((q : ℝ) / N) ∧ 2 * Real.logb 2 ((y : ℝ) / N) - b - Real.logb 2 ((q : ℝ) / N) ≤ 2 / N := by
  have hN' : (0 : ℝ) < N := by exact_mod_cast hN
  have hy' : (0 : ℝ) < y := by exact_mod_cast hy
  have hNq' : (N : ℝ) ≤ q := by exact_mod_cast hNq
  have hq' : (0 : ℝ) < q := hN'.trans_le hNq'
  obtain ⟨hlo, hhi⟩ := natDiv_bounds (y * y) (v := N * 2 ^ b) (by positivity)
  rw [← hq] at hlo hhi
  push_cast at hlo hhi
  have hr : (0 : ℝ) < y * y / (N * 2 ^ b) := by positivity
  have hlog : 2 * Real.logb 2 ((y : ℝ) / N) - b = Real.logb 2 (y * y / (N * 2 ^ b) / N) := by
    rw [Real.logb_div hr.ne' hN'.ne', Real.logb_div (mul_pos hy' hy').ne' (by positivity), Real.logb_mul hy'.ne' hy'.ne',
      Real.logb_mul hN'.ne' (by positivity), Real.logb_div hy'.ne' hN'.ne', Real.logb_pow, Real.logb_self_eq_one one_lt_two]
    ring
  rw [hlog, ← Real.logb_div (by positivity) (by positivity), div_div_div_cancel_right₀ hN'.ne']
  generalize (y : ℝ) * y / (N * 2 ^ b) = r at hlo hhi hr
  have hone : 1 ≤ r / q := (one_le_div hq').mpr hlo
  refine ⟨Real.logb_nonneg one_lt_two hone, ?_⟩
  have hupper : Real.log (r / q) ≤ 1 / N := by
    refine (Real.log_le_sub_one_of_pos (by positivity)).trans ?_
    rw [div_sub_one hq'.ne']
    exact div_le_div₀ zero_le_one (by linarith) hN' hNq'
  have htwo : 1 / 2 ≤ Real.log 2 := by linarith [Real.log_two_gt_d9]
  rw [Real.logb]
  calc Real.log (r / q) / Real.log 2 ≤ 1 / N / (1 / 2) := div_le_div₀ (by positivity) hupper (by norm_num) htwo
    _ = 2 / N := by ring

/-- The logarithm of a fixed-point number of 512 fraction bits. -/
noncomputable def fixLog (y : Nat) : ℝ := Real.logb 2 ((y : ℝ) / (2 ^ 512 : Nat))

theorem fixLog_bounds {y : Nat} (hlo : 2 ^ 512 ≤ y) (hhi : y < 2 * 2 ^ 512) : 0 ≤ fixLog y ∧ fixLog y < 1 := by
  unfold fixLog
  have hN' : (0 : ℝ) < (2 ^ 512 : Nat) := by positivity
  generalize 2 ^ 512 = N at hlo hhi hN' ⊢
  have hlo' : (N : ℝ) ≤ y := by exact_mod_cast hlo
  have hhi' : (y : ℝ) < 2 * N := by exact_mod_cast hhi
  have hy' := hN'.trans_le hlo'
  refine ⟨Real.logb_nonneg one_lt_two ((one_le_div hN').mpr hlo'), ?_⟩
  rw [Real.logb_lt_iff_lt_rpow one_lt_two (by positivity), Real.rpow_one, div_lt_iff₀ hN']
  exact hhi'

theorem logBits_succ {y : Nat} (hlo : 2 ^ 512 ≤ y) (hhi : y < 2 * 2 ^ 512) : ∃ b q : Nat, (∀ n acc, logBits (n + 1) y acc = logBits n q (2 * acc + b)) ∧
    2 ^ 512 ≤ q ∧ q < 2 * 2 ^ 512 ∧ 0 ≤ 2 * fixLog y - b - fixLog q ∧ 2 * fixLog y - b - fixLog q ≤ 1 / 2 ^ 200 := by
  have heps : (2 : ℝ) / (2 ^ 512 : Nat) ≤ 1 / 2 ^ 200 := by
    rw [Nat.cast_pow, Nat.cast_ofNat, show (2 : ℝ) ^ 512 = 2 * 2 ^ 511 from pow_succ' 2 511, div_mul_cancel_left₀ two_ne_zero, ← one_div]
    exact one_div_le_one_div_of_le (by positivity) (pow_le_pow_right₀ one_le_two (by norm_num))
  have hstep : ∀ n acc, logBits (n + 1) y acc = if 2 * 2 ^ 512 ≤ y * y / 2 ^ 512 then logBits n (y * y / 2 ^ 512 / 2) (2 * acc + 1)
      else logBits n (y * y / 2 ^ 512) (2 * acc) := fun n acc => by
    rw [logBits, show 513 = 512 + 1 from rfl, pow_succ']
  have hpos : 0 < 2 ^ 512 := by positivity
  unfold fixLog
  generalize 2 ^ 512 = N at hlo hhi hstep hpos heps ⊢
  have hz : N ≤ y * y / N := (Nat.le_div_iff_mul_le hpos).mpr (Nat.mul_le_mul hlo hlo)
  have hz' : y * y / N < 2 * (2 * N) := Nat.div_lt_of_lt_mul (by nlinarith)
  have hy : 0 < y := hpos.trans_le hlo
  by_cases h : 2 * N ≤ y * y / N
  · have hNq : N ≤ y * y / N / 2 := by omega
    obtain ⟨h0, h1⟩ := logb_square_near (b := 1) hpos hy (by rw [Nat.div_div_eq_div_mul, pow_one]) hNq
    exact ⟨1, _, fun n acc => (hstep n acc).trans (if_pos h), hNq, by omega, h0, h1.trans heps⟩
  · obtain ⟨h0, h1⟩ := logb_square_near (b := 0) hpos hy (by rw [pow_zero, mul_one]) hz
    exact ⟨0, _, fun n acc => (hstep n acc).trans (if_neg h), hz, by omega, h0, h1.trans heps⟩

/-- What n bits of the logarithm leave. -/
theorem logBits_near (n : Nat) {y : Nat} (hlo : 2 ^ 512 ≤ y) (hhi : y < 2 * 2 ^ 512) (acc : Nat) :
    (logBits n y acc : ℝ) ≤ 2 ^ n * (fixLog y + acc) ∧ 2 ^ n * (fixLog y + acc) ≤ logBits n y acc + 1 + (2 ^ n - 1) * (1 / 2 ^ 200) := by
  induction n generalizing y acc with
  | zero =>
    obtain ⟨h0, h1⟩ := fixLog_bounds hlo hhi
    rw [logBits]
    constructor <;> linarith
  | succ n ih =>
    obtain ⟨b, q, hstep, hqlo, hqhi, h0, h1⟩ := logBits_succ hlo hhi
    obtain ⟨ih0, ih1⟩ := ih hqlo hqhi (2 * acc + b)
    rw [hstep]
    push_cast at ih0 ih1
    have hsplit : (2 : ℝ) ^ (n + 1) * (fixLog y + acc) = 2 ^ n * (fixLog q + (2 * acc + b)) + 2 ^ n * (2 * fixLog y - b - fixLog q) := by ring
    have hpow : (0 : ℝ) ≤ 2 ^ n := by positivity
    have hd0 := mul_nonneg hpow h0
    have hd1 := mul_le_mul_of_nonneg_left h1 hpow
    have hgeom : ((2 : ℝ) ^ (n + 1) - 1) * (1 / 2 ^ 200) = (2 ^ n - 1) * (1 / 2 ^ 200) + 2 ^ n * (1 / 2 ^ 200) := by ring
    rw [hsplit, hgeom]
    constructor <;> linarith

/-! ### The significand -/

section
variable {a : Lane}

theorem lg2e_nan (h : f32Nan a = true) : lane (lg2e (ofF32 a)) = f32NaNs [a] := by rw [ofF32_nan h]; exact lane_nan a

theorem lg2e_invalid (h : f32Inf a = true ∨ f32Zero a = true) : lane (lg2e (ofF32 a)) = (f32Canon, Flags.nv) := by
  rcases h with h | h
  · rw [ofF32_inf h]
    rfl
  · rw [ofF32_zero h]
    rfl

/-- The significand with 512 fraction bits. -/
def fixMant (a : Lane) : Nat := sig32 a * 2 ^ (512 - Nat.log2 (sig32 a))

theorem mantRat_eq_div (a : Lane) : mantRat a = sig32 a / 2 ^ Nat.log2 (sig32 a) := by rw [mantRat, zpow_neg, zpow_natCast, div_eq_mul_inv]

theorem two_pow_le_sig32 (h : isNumber a) : 2 ^ Nat.log2 (sig32 a) ≤ sig32 a := Nat.log2_self_le (sig32_ne_zero h)
theorem sig32_lt_two_pow (a : Lane) : sig32 a < 2 * 2 ^ Nat.log2 (sig32 a) := by rw [← pow_succ']; exact Nat.lt_log2_self

theorem fixMant_bounds (h : isNumber a) : 2 ^ 512 ≤ fixMant a ∧ fixMant a < 2 * 2 ^ 512 := by
  have hk := log2_sig32_lt h
  have hsplit : 2 ^ 512 = 2 ^ Nat.log2 (sig32 a) * 2 ^ (512 - Nat.log2 (sig32 a)) := by rw [← pow_add, Nat.add_sub_cancel' (by omega)]
  rw [hsplit, fixMant, ← mul_assoc]
  exact ⟨Nat.mul_le_mul_right _ (two_pow_le_sig32 h), Nat.mul_lt_mul_of_pos_right (sig32_lt_two_pow a) (Nat.two_pow_pos _)⟩

theorem fixLog_fixMant (h : isNumber a) : fixLog (fixMant a) = Real.logb 2 ((mantRat a : ℚ) : ℝ) := by
  have hk := log2_sig32_lt h
  have hsplit : 2 ^ 512 = 2 ^ Nat.log2 (sig32 a) * 2 ^ (512 - Nat.log2 (sig32 a)) := by rw [← pow_add, Nat.add_sub_cancel' (by omega)]
  have hpos : ((2 ^ (512 - Nat.log2 (sig32 a)) : Nat) : ℝ) ≠ 0 := Nat.cast_ne_zero.mpr (Nat.two_pow_pos _).ne'
  rw [fixLog, hsplit, fixMant, Nat.cast_mul, Nat.cast_mul, mul_div_mul_right _ _ hpos, mantRat_eq_div]
  push_cast
  rfl

theorem mantRat_eq_one_iff (a : Lane) : mantRat a = 1 ↔ sig32 a = 2 ^ Nat.log2 (sig32 a) := by
  rw [mantRat_eq_div, div_eq_one_iff_eq (by positivity)]
  exact_mod_cast Iff.rfl

/-- A significand that is not 1 keeps a last place of distance from 1 and from 2. -/
theorem mantRat_bounds (h : isNumber a) (hone : mantRat a ≠ 1) : 1 + 1 / 2 ^ 23 ≤ mantRat a ∧ mantRat a ≤ 2 - 1 / 2 ^ 23 := by
  rw [Ne, mantRat_eq_one_iff] at hone
  have hlo := two_pow_le_sig32 h
  have hhi := sig32_lt_two_pow a
  have hP : 2 ^ Nat.log2 (sig32 a) ≤ 2 ^ 23 := Nat.pow_le_pow_right two_pos (Nat.le_of_lt_succ (log2_sig32_lt h))
  rw [mantRat_eq_div]
  have hpos : (0 : ℚ) < 2 ^ Nat.log2 (sig32 a) := by positivity
  have hlo' : ((2 ^ Nat.log2 (sig32 a) : Nat) : ℚ) + 1 ≤ sig32 a := by exact_mod_cast Nat.lt_of_le_of_ne hlo (Ne.symm hone)
  have hhi' : (sig32 a : ℚ) + 1 ≤ 2 * (2 ^ Nat.log2 (sig32 a) : Nat) := by exact_mod_cast hhi
  have hP' : ((2 ^ Nat.log2 (sig32 a) : Nat) : ℚ) ≤ 2 ^ 23 := by exact_mod_cast hP
  push_cast at hlo' hhi' hP'
  generalize (2 : ℚ) ^ Nat.log2 (sig32 a) = P at *
  rw [le_div_iff₀ hpos, div_le_iff₀ hpos]
  constructor <;> linarith

theorem logb_mant_bounds {x : ℝ} (hlo : 1 + 1 / 2 ^ 23 ≤ x) (hhi : x ≤ 2 - 1 / 2 ^ 23) : 1 / 2 ^ 24 ≤ Real.logb 2 x ∧ Real.logb 2 x ≤ 1 - 1 / 2 ^ 24 := by
  have hx : 0 < x := by linarith [show (0 : ℝ) < 1 / 2 ^ 23 by positivity]
  have hlog0 : 0 < Real.log 2 := Real.log_pos one_lt_two
  have hlog1 := Real.log_two_lt_d9
  rw [Real.logb, le_div_iff₀ hlog0, div_le_iff₀ hlog0]
  constructor
  · have hinv : x⁻¹ ≤ 1 - 1 / 2 ^ 24 := by
      refine (inv_anti₀ (by positivity) hlo).trans ?_
      norm_num
    have := Real.one_sub_inv_le_log_of_pos hx
    linarith
  · have hhalf : Real.log (x / 2) ≤ x / 2 - 1 := Real.log_le_sub_one_of_pos (by positivity)
    rw [Real.log_div hx.ne' two_ne_zero] at hhalf
    linarith

/-! ### The result -/

/-- The value that VLG2E rounds: the middle of the step that the computed bits leave. -/
def lgMiddle (a : Lane) : Nat := 2 * logBits 128 (fixMant a) 0 + 1

theorem lgMiddle_near (h : isNumber a) :
    |((lgMiddle a * 2 ^ (-129 : Int) : ℚ) : ℝ) - Real.logb 2 ((mantRat a : ℚ) : ℝ)| ≤ 1 / 2 ^ 128 := by
  obtain ⟨hlo, hhi⟩ := fixMant_bounds h
  obtain ⟨h0, h1⟩ := logBits_near 128 hlo hhi 0
  rw [fixLog_fixMant h] at h0 h1
  unfold lgMiddle
  generalize logBits 128 (fixMant a) 0 = B at h0 h1 ⊢
  generalize Real.logb 2 ((mantRat a : ℚ) : ℝ) = l at h0 h1 ⊢
  push_cast at h0 h1 ⊢
  rw [abs_le]
  norm_num at h0 h1 ⊢
  constructor <;> linarith

theorem odd_lgMiddle (a : Lane) : lgMiddle a % 2 = 1 := by
  unfold lgMiddle
  omega

theorem logb_mantRat_bounds (h : isNumber a) (hone : mantRat a ≠ 1) :
    1 / 2 ^ 24 ≤ Real.logb 2 ((mantRat a : ℚ) : ℝ) ∧ Real.logb 2 ((mantRat a : ℚ) : ℝ) ≤ 1 - 1 / 2 ^ 24 := by
  obtain ⟨hlo, hhi⟩ := mantRat_bounds h hone
  have hlo' := (Rat.cast_le (K := ℝ)).mpr hlo
  have hhi' := (Rat.cast_le (K := ℝ)).mpr hhi
  push_cast at hlo' hhi'
  exact logb_mant_bounds hlo' hhi'

/-- The middle is a normal value, below the middle of the last code below 1 and that of 1. -/
theorem lgMiddle_bounds (h : isNumber a) (hone : mantRat a ≠ 1) : (2 : ℚ) ^ (-25 : Int) ≤ lgMiddle a * 2 ^ (-129 : Int) ∧
    2 * ((lgMiddle a : ℚ) * 2 ^ (-129 : Int)) < magVal .f32 0x3F7FFFFF + magVal .f32 (0x3F7FFFFF + 1) := by
  obtain ⟨hl0, hl1⟩ := logb_mantRat_bounds h hone
  have hnear := lgMiddle_near h
  generalize Real.logb 2 ((mantRat a : ℚ) : ℝ) = l at hl0 hl1 hnear
  rw [abs_le] at hnear
  have hlo : l - 1 / 2 ^ 128 ≤ ((lgMiddle a * 2 ^ (-129 : Int) : ℚ) : ℝ) := by linarith [hnear.1]
  have hhi : ((lgMiddle a * 2 ^ (-129 : Int) : ℚ) : ℝ) ≤ l + 1 / 2 ^ 128 := by linarith [hnear.2]
  constructor
  · rw [← Rat.cast_le (K := ℝ)]
    refine le_trans ?_ hlo
    norm_num at hl0 ⊢
    linarith
  · rw [show 0x3F7FFFFF + 1 = 0x3F800000 from rfl, magVal_f32_pred_one, magVal_f32_one, ← Rat.cast_lt (K := ℝ), Rat.cast_mul]
    refine (mul_le_mul_of_nonneg_left hhi (by norm_num)).trans_lt ?_
    push_cast
    norm_num at hl1 ⊢
    linarith

theorem lg2e_one (h : isNumber a) (hone : mantRat a = 1) : lane (lg2e (ofF32 a)) = (0, 0) := by
  rw [ofF32_number h, lg2e, if_neg (sig32_ne_zero h)]
  simp only []
  rw [if_pos ((mantRat_eq_one_iff a).mp hone)]
  rfl

theorem lg2e_eq (h : isNumber a) (hone : mantRat a ≠ 1) : lane (lg2e (ofF32 a)) = lane (rnd false (lgMiddle a) (-129) .f32 .rne 0 false) := by
  rw [ofF32_number h, lg2e, if_neg (sig32_ne_zero h)]
  simp only []
  rw [if_neg (mt (mantRat_eq_one_iff a).mpr hone), lgMiddle, fixMant]

theorem lg2e_number (h : isNumber a) (hone : mantRat a ≠ 1) :
    let y := lane (lg2e (ofF32 a))
    let l := Real.logb 2 ((mantRat a : ℚ) : ℝ)
    y.2 = Flags.nx ∧ y.1.toNat < 0x3F800000 ∧ |((f32Value y.1 : ℚ) : ℝ) - l| ≤ l * 2⁻¹ ^ 24 + 2⁻¹ ^ 100 := by
  intro y l
  obtain ⟨hX0, hX1⟩ := lgMiddle_bounds h hone
  have hnear : |_ - l| ≤ _ := lgMiddle_near h
  have hlane : y = _ := lg2e_eq h hone
  have hodd := odd_lgMiddle a
  clear_value l y
  generalize lgMiddle a = m at hX0 hX1 hnear hlane hodd
  have hm : m ≠ 0 := by omega
  have hlarge : -26 < (Nat.log2 m : Int) + -129 := by
    have := (zpow_lt_zpow_iff_right₀ one_lt_two).mp (hX0.trans_lt (lt_two_pow_log2 m (-129)))
    omega
  obtain ⟨hflags, -, hcode, -, herr⟩ := lane_rnd_odd (m := m) (e := -129) (lo := 0) (hi := 0x3F7FFFFF) hodd (by omega) (by omega) (by decide) (by
    rw [show magVal .f32 0 = 0 by simp [magVal, magMant]]
    positivity) hX1
  rw [← hlane] at hflags hcode herr
  have herr' := (Rat.cast_le (K := ℝ)).mpr (herr.trans (mul_le_mul_of_nonneg_right (two_pow_log2_le hm) (by positivity)))
  rw [Rat.cast_abs, Rat.cast_sub, Rat.cast_mul (m * 2 ^ (-129 : Int)), show ((2⁻¹ ^ 24 : ℚ) : ℝ) = 2⁻¹ ^ 24 by norm_num] at herr'
  refine ⟨hflags, Nat.lt_succ_of_le hcode, ?_⟩
  generalize ((m * 2 ^ (-129 : Int) : ℚ) : ℝ) = X at herr' hnear
  have hX : X * 2⁻¹ ^ 24 ≤ (l + 1 / 2 ^ 128) * 2⁻¹ ^ 24 := mul_le_mul_of_nonneg_right (by linarith [(abs_le.mp hnear).2]) (by positivity)
  have htiny : (1 : ℝ) / 2 ^ 128 * 2⁻¹ ^ 24 + 1 / 2 ^ 128 ≤ 2⁻¹ ^ 100 := by norm_num
  calc |((f32Value y.1 : ℚ) : ℝ) - l| ≤ |((f32Value y.1 : ℚ) : ℝ) - X| + |X - l| := abs_sub_le _ _ _
    _ ≤ X * 2⁻¹ ^ 24 + 1 / 2 ^ 128 := add_le_add herr' hnear
    _ ≤ l * 2⁻¹ ^ 24 + 2⁻¹ ^ 100 := by linarith

end

end Sys2Proof.Proofs
end

section
/-! PROOFS. The rows of special functions and random numbers, and with them all the float rows (O26). -/
namespace Sys2Proof.Proofs
open Sys2Proof.Machine Sys2Proof.Laws Sys2Proof.Claims

theorem lg2e_spec {a : Lane} (h : isNumber a) :
    let y := lane (lg2e (ofF32 a))
    ∃ E : Int, 1 ≤ |f32Value a| * 2 ^ (-E) ∧ |f32Value a| * 2 ^ (-E) < 2 ∧ (|f32Value a| * 2 ^ (-E) = 1 → y = (0, 0)) ∧
      (|f32Value a| * 2 ^ (-E) ≠ 1 → y.2 = Flags.nx ∧ y.1.toNat < 0x3F800000 ∧
        |((f32Value y.1 : ℚ) : ℝ) - Real.logb 2 ((|f32Value a| * 2 ^ (-E) : ℚ) : ℝ)| ≤
          Real.logb 2 ((|f32Value a| * 2 ^ (-E) : ℚ) : ℝ) * 2⁻¹ ^ 24 + 2⁻¹ ^ 100) := by
  refine ⟨expOf a, ?_⟩
  rw [abs_f32Value_mul]
  exact ⟨one_le_mantRat h, mantRat_lt_two a, lg2e_one h, lg2e_number h⟩

theorem expxM_spec {a : Lane} (h : isNumber a) :
    let y := lane (expxM (ofF32 a))
    y.2 = 0 ∧ y.1.msb = a.msb ∧ f32Nan y.1 = false ∧ f32Inf y.1 = false ∧
      ∃ E : Int, 1 ≤ |f32Value y.1| ∧ |f32Value y.1| < 2 ∧ f32Value y.1 * 2 ^ E = f32Value a := by
  obtain ⟨hf, hs, hn, hi, hsize, hval⟩ := expxM_number h
  exact ⟨hf, hs, hn, hi, expOf a, hsize ▸ one_le_mantRat h, hsize ▸ mantRat_lt_two a, hval⟩

/-- The 32-bit word of a lane of a row of VRNG (R182). -/
def rngWord (o : VOp) (i j : Nat) : Lane := (vrngBlock o.key o.n i j).extractLsb' (32 * (j % 4)) 32
/-- A lane of a row of VRNG.F. -/
def rngLane (o : VOp) (i j : Nat) : Lane × Flags := lane (rnd false (2 * ((rngWord o i j).toNat / 2 ^ 9) + 1) (-24) .f32 .rne 0 false)

section
variable {s : State} {c : Core} {o : VOp} {i : Nat}

theorem rowLands_rngN (hnow : s.now c = o.t + i) (hi : i < 16) (ho : o.fn = .rngN) :
    RowLands s c o i 26 (s.readK c o.k i) (fun j => rngWord o i j) (rowFlags (s.readK c o.k i) fun _ => 0) := by
  refine rowLands_of_mapRow (val := fun j => (rngWord o i j, 0)) hnow hi (by rw [ho]; exact ⟨rfl, rfl, rfl, rfl⟩) ?_
  rw [mapRow_noFlags _ _ fun _ => rfl, rowOf, ho]
  rfl

theorem rowLands_rngF (hnow : s.now c = o.t + i) (hi : i < 16) (ho : o.fn = .rngF) :
    RowLands s c o i 26 (s.readK c o.k i) (fun j => (rngLane o i j).1) (rowFlags (s.readK c o.k i) fun j => (rngLane o i j).2) := by
  refine rowLands_of_mapRow (val := rngLane o i) hnow hi (by rw [ho]; exact ⟨rfl, rfl, rfl, rfl⟩) ?_
  rw [mapRow_noFlags _ (rngLane o i) fun j => (rngF_spec _ (rngWord o i j).isLt).1, rowOf, ho]
  rfl

end

theorem functionRows : FunctionRows := by
  intro s c i o r hnow hi A B K rv rows number nans invalid size two mantReal
  have lanes {fn lat} (val : Nat → Lane × Flags) (ho : o.fn = fn)
      (hval : ∀ j, laneFn fn (A j) (B j) (laneOf (s.srcRow c o o.d i) j) (laneOf (s.srcRow c o (o.b + 1) i) j)
        (fun e => rvOf (rsrBlock o.key o.n i j) e) = val j := by exact fun _ => rfl)
      (hw : LaneWise fn lat true := by exact ⟨⟨rfl, rfl, rfl, rfl⟩, rfl, fun _ _ _ _ _ _ _ _ => rfl⟩) :
      RowLands s c o i lat K (fun j => (val j).1) (rowFlags K fun j => (val j).2) :=
    rowLands_of_laneFn hnow hi hw hval ho
  refine ⟨?rndF, ?rcpe, ?rsqe, ?rcps, ?rsqs, ?expi, ?expxE, ?expxM, ?fexp, ?lg2e, ?rngN, ?rngF⟩
  case rndF => exact fun ho => ⟨_, lanes (fun j => rndLane (A j) r (rv j)) ho, fun j _ => ⟨rndLane_nan, rndLane_inf_or_zero, rndLane_number⟩⟩
  case rcpe => exact fun ho => ⟨_, lanes (fun j => lane (rcpe (ofF32 (A j)))) ho, fun j _ => ⟨rcpe_nan, rcpe_zero, rcpe_inf, rcpe_number⟩⟩
  case rsqe => exact fun ho => ⟨_, lanes (fun j => lane (rsqe (ofF32 (A j)))) ho, fun j _ => ⟨rsqe_nan, rsqe_zero, rsqe_inf, rsqe_negative, rsqe_number⟩⟩
  case rcps =>
    exact fun ho => ⟨_, lanes (fun j => lane (newton false (ofF32 (A j)) (ofF32 (B j)) r (rv j))) ho,
      fun j _ => ⟨newton_nan, fun ha hb => or_iff_not_imp_left.mpr (newton_keeps ha hb), rcps_number⟩⟩
  case rsqs =>
    exact fun ho => ⟨_, lanes (fun j => lane (newton true (ofF32 (A j)) (ofF32 (B j)) r (rv j))) ho,
      fun j _ => ⟨newton_nan, fun ha hb => or_iff_not_imp_left.mpr (newton_keeps ha hb), rsqs_number⟩⟩
  case expi => exact fun ho => ⟨_, lanes (fun j => lane (expi (ofF32 (A j)) (B j).toInt r (rv j))) ho, fun j _ => ⟨expi_nan, expi_keeps, expi_number⟩⟩
  case expxE => exact fun ho => ⟨_, lanes (fun j => lane (expxE (ofF32 (A j)))) ho, fun j _ => ⟨expxE_nan, expxE_inf, expxE_zero, expxE_number⟩⟩
  case expxM => exact fun ho => ⟨_, lanes (fun j => lane (expxM (ofF32 (A j)))) ho, fun j _ => ⟨expxM_nan, expxM_keeps, expxM_spec⟩⟩
  case fexp => exact fun ho => ⟨_, lanes (fun j => lane (fexp (ofF32 (A j)))) ho, fun j _ => ⟨fexp_nan, fexp_zero, fexp_invalid, fexp_number⟩⟩
  case lg2e => exact fun ho => ⟨_, lanes (fun j => lane (lg2e (ofF32 (A j)))) ho, fun j _ => ⟨lg2e_nan, lg2e_invalid, lg2e_spec⟩⟩
  case rngN => exact fun ho => ⟨fun j => (rngWord o i j, 0), rowLands_rngN hnow hi ho, fun j _ => rfl⟩
  case rngF => exact fun ho => ⟨rngLane o i, rowLands_rngF hnow hi ho, fun j _ => rngF_spec _ (rngWord o i j).isLt⟩

/-- Settles O26: the float arithmetic of a lane, the conversions, the special functions, the random numbers and the float reductions, each by its own rule. -/
theorem floatRows : Obligations.FloatRows := by
  unfold Obligations.FloatRows
  exact ⟨floatRowsHold, conversionRows, conversionResults, functionRows, floatReductions⟩

end Sys2Proof.Proofs
end

section
/-! PROOFS. Control transfers (O10): the targets that pass the checks of R74 and R137, and those that raise FETCH. -/
namespace Sys2Proof.Proofs
open Sys2Proof.Machine Sys2Proof.Laws Sys2Proof.Claims

/-! ### Targets -/

section
variable {c : Core} {t : Nat} {w : Word}

theorem targetFault_of_lt (h : t < c.nbundles) : targetFault c t = none := if_pos h
theorem targetFault_of_le (h : c.nbundles ≤ t) : targetFault c t = some (3, t) := if_neg (Nat.not_lt.mpr h)

/-- A b register that holds the byte address of bundle t names it. -/
theorem bTarget_address (h : t < 8192) : bTarget (BitVec.ofNat 64 (32 * t)) = t := by
  unfold bTarget
  rw [BitVec.toNat_ofNat]
  omega
theorem bFault_address (h : t < 8192) (hn : t < c.nbundles) : bFault c (BitVec.ofNat 64 (32 * t)) = none := by
  have hform : (BitVec.ofNat 64 (32 * t)).toNat / 2 ^ 18 = 0 ∧ (BitVec.ofNat 64 (32 * t)).toNat % 32 = 0 := by
    rw [BitVec.toNat_ofNat]
    omega
  rw [bFault, if_pos hform, bTarget_address h, targetFault_of_lt hn]
theorem bFault_malformed (h : w.toNat % 32 ≠ 0 ∨ 2 ^ 18 ≤ w.toNat) : bFault c w = some (3, w.toNat % 2 ^ 32) := if_neg (by omega)
theorem bFault_beyond (hal : w.toNat % 32 = 0) (hw : w.toNat < 2 ^ 18) (hn : c.nbundles ≤ w.toNat / 32) : bFault c w = some (3, w.toNat / 32) := by
  have htarget : bTarget w = w.toNat / 32 := by
    unfold bTarget
    omega
  rw [bFault, if_pos (by omega), htarget, targetFault_of_le hn]

end

/-! ### Transfers -/

section
variable {g : Guard} {s : State}

theorem transfersTakeEffect : TransfersTakeEffect := by
  unfold TransfersTakeEffect
  intro g d b t s hg ht c link
  rw [exec_br, exec_call, exec_brb, exec_callb, execBr, execCall, execBrb, execCallb]
  refine ⟨slotTry_on hg 1 _ _ (targetFault_of_lt ht), slotTry_on hg 1 _ _ (targetFault_of_lt ht), fun hb h8192 => ?_⟩
  have hfault : bFault s.here (s.here.readB b) = none := (congrArg (bFault s.here) hb).trans (bFault_address h8192 ht)
  have htarget : bTarget (((s.here.charge 1).next).readB b) = t := (congrArg bTarget hb).trans (bTarget_address h8192)
  refine ⟨(slotTry_on hg 1 _ _ hfault).trans ?_, (slotTry_on hg 1 _ _ hfault).trans ?_⟩
  · rw [htarget]
    rfl
  · rw [htarget]
    rfl

theorem badTargetsTrap : BadTargetsTrap := by
  unfold BadTargetsTrap
  intro g d b t s hg w
  simp only [exec_br, exec_call, exec_loop, exec_brb, exec_callb, execBr, execCall, execLoop, execBrb, execCallb]
  refine ⟨fun ht => ?_, fun hw => ?_, fun hal hw hn => ?_⟩
  · have hfault := targetFault_of_le ht
    exact ⟨slotTry_trap hg 1 _ _ hfault, slotTry_trap hg 1 _ _ hfault, fun a ha => slotTry_trap hg 1 _ _ ((if_pos ha).trans hfault)⟩
  · exact ⟨slotTry_trap hg 1 _ _ (bFault_malformed hw), slotTry_trap hg 1 _ _ (bFault_malformed hw)⟩
  · exact ⟨slotTry_trap hg 1 _ _ (bFault_beyond hal hw hn), slotTry_trap hg 1 _ _ (bFault_beyond hal hw hn)⟩

/-! ### Multiway branches (R140) -/

/-- What a multiway branch that selects b[n] does: it goes where the register names, or raises FETCH as BRB. -/
def BranchesThrough (s : State) (o : Out) (n : Nat) : Prop :=
  let w : Word := Tab.get 0 s.here.b n
  (∀ t, w = BitVec.ofNat 64 (32 * t) → t < s.here.nbundles → t < 8192 → o = .next (s.setHere { issued s 1 with dly := 2, tgt := t })) ∧
  (w.toNat % 32 ≠ 0 ∨ 2 ^ 18 ≤ w.toNat → o = .next (s.trapHere 3 (w.toNat % 2 ^ 32))) ∧
  (w.toNat % 32 = 0 → w.toNat < 2 ^ 18 → s.here.nbundles ≤ w.toNat / 32 → o = .next (s.trapHere 3 (w.toNat / 32)))

theorem brb_branchesThrough (hg : s.here.guardOn g = true) (n : Nat) : BranchesThrough s (execBrb g n s) n := by
  obtain ⟨-, hmalformed, hbeyond⟩ := badTargetsTrap g 0 n 0 s hg
  exact ⟨fun t hw ht h8192 => ((transfersTakeEffect g 0 n t s hg ht).2.2 hw h8192).1, fun hw => (hmalformed hw).1,
    fun hal hw hn => (hbeyond hal hw hn).1⟩

/-- A multiway branch that selects b[n], by what the core holds before it is charged and numbered, acts as BRB through it. -/
theorem mbrOp_some {sel : Core → Option Nat} {n : Nat} (hsel : sel s.here = some n) (hcharge : sel (s.here.charge 1).next = sel s.here) :
    mbrOp g sel s = execBrb g n s := by
  unfold mbrOp execBrb slotTry
  dsimp only
  rw [hcharge, hsel]

theorem mbrOp_none (hg : s.here.guardOn g = true) {sel : Core → Option Nat} (hsel : sel s.here = none)
    (hcharge : sel (s.here.charge 1).next = sel s.here) : mbrOp g sel s = .next (s.setHere (issued s 1)) := by
  unfold mbrOp
  rw [slotTry_on hg 1 _ _ (by rw [hsel]), hcharge, hsel]
  rfl

theorem mbrTest_eq_mbrHolds (c : Core) (f : Nat) : mbrTest c f = mbrHolds c f := rfl

theorem multiwayBranch : MultiwayBranch := by
  unfold MultiwayBranch
  intro g t0 t1 t2 t3 s hg T goes stays chain tree
  have chainGoes (n : Nat) (h : mbrChainSel s.here t0 t1 t2 t3 = some n) : goes chain n := by
    have hthrough := brb_branchesThrough hg n
    rwa [← mbrOp_some (sel := fun y => mbrChainSel y t0 t1 t2 t3) h rfl] at hthrough
  have treeGoes (n : Nat) (h : mbrTreeSel s.here t0 t1 t2 t3 = some n) : goes tree n := by
    have hthrough := brb_branchesThrough hg n
    rwa [← mbrOp_some (sel := fun y => mbrTreeSel y t0 t1 t2 t3) h rfl] at hthrough
  have chainStays (h : mbrChainSel s.here t0 t1 t2 t3 = none) : stays chain := mbrOp_none (sel := fun y => mbrChainSel y t0 t1 t2 t3) hg h rfl
  have treeStays (h : mbrTreeSel s.here t0 t1 t2 t3 = none) : stays tree := mbrOp_none (sel := fun y => mbrTreeSel y t0 t1 t2 t3) hg h rfl
  unfold mbrChainSel at chainGoes chainStays
  unfold mbrTreeSel at treeGoes treeStays
  simp only [mbrTest_eq_mbrHolds] at chainGoes chainStays treeGoes treeStays
  exact ⟨fun h0 => chainGoes 0 (by simp [T] at h0; simp [h0]), fun h0 h1 => chainGoes 1 (by simp_all [T]), fun h0 h1 h2 => chainGoes 2 (by simp_all [T]),
    fun h0 h1 h2 h3 => chainGoes 3 (by simp_all [T]), fun h0 h1 h2 h3 => chainStays (by simp_all [T]), fun h0 h1 => treeGoes 0 (by simp_all [T]),
    fun h0 h1 => treeGoes 1 (by simp_all [T]), fun h0 h2 => treeGoes 2 (by simp_all [T]), fun h0 h2 h3 => treeGoes 3 (by simp_all [T]),
    fun h0 h2 h3 => treeStays (by simp_all [T])⟩

end

/-- Settles O10: a transfer is its check and its effect (`slotTry`), and a multiway branch is BRB through the register that it selects. -/
theorem controlTransfers : Obligations.ControlTransfers := ⟨transfersTakeEffect, badTargetsTrap, multiwayBranch⟩

end Sys2Proof.Proofs
end

section
/-! PROOFS. Taking a trap (O12). -/
namespace Sys2Proof.Proofs
open Sys2Proof.Machine Sys2Proof.Laws Sys2Proof.Claims

section
variable {s : State} {k : Nat}

/-- The core that has trapped: at the boundary before its bundle, HALTED, with TRAPINFO written (R81, R84). -/
def trappedCore (s : State) (k slot cause info : Nat) : Core :=
  { (s.core k).atBoundary.freeze (s.now (s.core k)) with
    trap := ⟨cause, slot, (s.core k).iss.pc, info % 2 ^ 32⟩
    xnop := (s.core k).iss.xnop || cause == 14 || cause == 15 }

theorem takeTrap_eq (s : State) (k slot cause info : Nat) :
    s.takeTrap k slot cause info = (s.setCore k (trappedCore s k slot cause info)).raiseHalt k 1 (s.now (s.core k)) := rfl
theorem core_takeTrap_same (s : State) (k slot cause info : Nat) : (s.takeTrap k slot cause info).core k = trappedCore s k slot cause info :=
  core_setCore_same ..
theorem core_takeTrap_other {j : Nat} (h : j ≠ k) (slot cause info : Nat) : (s.takeTrap k slot cause info).core j = s.core j :=
  core_setCore_other _ _ h

/-- A halting event adds one request to its partition, under the tag of its context (R243). -/
theorem find_haltAt {p : Nat} {q : Part} (hp : (s.core k).part = p) (hq : Tab.find s.parts p = some q) (kind cause e h : Nat) :
    ∃ q', Tab.find (s.haltAt k kind cause e h).parts p = some q' ∧ q'.reqs = q.reqs ++ [⟨cause, h, false, haltTag (s.core k).asid⟩] ∧ q'.held = q.held := by
  subst hp
  exact ⟨_, find_modPart_of_find (find_modPart_of_find hq _) _, rfl, rfl⟩

theorem find_takeTrap {q : Part} (hq : Tab.find s.parts (s.core k).part = some q) (slot cause info : Nat) :
    ∃ q', Tab.find (s.takeTrap k slot cause info).parts (s.core k).part = some q' ∧
      q'.reqs = q.reqs ++ [⟨6, q.stime + 192, false, haltTag (s.core k).asid⟩] ∧ q'.held = q.held := by
  rw [takeTrap_eq, State.raiseHalt, core_setCore_same]
  obtain ⟨q', hq', hreqs, hheld⟩ := find_haltAt (s := s.setCore k (trappedCore s k slot cause info)) (k := k)
    (congrArg Core.part (core_setCore_same ..)) hq 1 6 (s.now (s.core k)) ((s.part (s.core k).part).stime + Config.holdLead)
  refine ⟨q', hq', hreqs.trans ?_, hheld⟩
  rw [core_setCore_same, part_of_find hq]
  rfl

end

theorem trapEntry : TrapEntry := by
  unfold TrapEntry
  intro s k slot cause info t c
  have hcore := core_takeTrap_same s k slot cause info
  refine ⟨?_, ?_, ?_, ?_, ?_, ?_, ?_, ?_, ?_, ?_, ?_, ?_, ?_, ?_, ?_, ?_, ?_, ?_, ?_, rfl, fun j hj => core_takeTrap_other hj .., fun q hq hheld => ?_⟩
  rotate_right 1
  · obtain ⟨q', hq', hreqs, hheld'⟩ := find_takeTrap hq slot cause info
    exact ⟨q', hq', hreqs, hheld'.trans hheld⟩
  all_goals exact Eq.trans (congrArg _ hcore) rfl

/-- What the traps of TRAP and BRK leave of their core, for a cause after which the bundle issues again without its X slot. -/
theorem trapHere_next {s : State} {cause i : Nat} (hcause : cause = 14 ∨ cause = 15) (hi : i < 2 ^ 16) :
    ∃ t, Host.Outcome.next (s.trapHere cause i) = (.next t : Out) ∧ t.here.st = .halted ∧ t.here.trap = ⟨cause, s.cur.slot, s.here.iss.pc, i⟩ ∧
      t.here.pc = s.here.iss.pc ∧ t.here.xnop = true ∧ t.mem = s.mem := by
  have hcore : (s.trapHere cause i).here = _ := core_takeTrap_same s s.cur.core s.cur.slot cause i
  refine ⟨_, rfl, ?_⟩
  rw [hcore]
  refine ⟨rfl, congrArg (TrapInfo.mk cause _ _) (Nat.mod_eq_of_lt (by omega)), rfl, ?_, rfl⟩
  unfold trappedCore
  rcases hcause with rfl | rfl
  · simp
  · simp

theorem softwareTraps : SoftwareTraps := by
  unfold SoftwareTraps
  intro g i s hg hi
  rw [exec_trap, exec_brk, execTrap, execBrk, slotTry_trap hg 1 _ _ rfl, slotTry_trap hg 1 _ _ rfl]
  exact ⟨trapHere_next (.inl rfl) hi, trapHere_next (.inr rfl) hi⟩

/-- Settles O12: what a trap writes is the core of `core_takeTrap_same`, and what it raises the request of `find_takeTrap`. -/
theorem traps : Obligations.Traps := ⟨softwareTraps, trapEntry⟩

end Sys2Proof.Proofs
end

section
/-! PROOFS. Addresses of the scratchpad (O16): the windows of R78 and R79, and the traps of addresses outside them (R124, R130 to R134). -/
namespace Sys2Proof.Proofs
open Sys2Proof.Machine Sys2Proof.Laws Sys2Proof.Claims

/-! ### Windows -/

section
variable {k A n : Nat}

theorem spadAt_own (h : A + n ≤ 2 ^ 21) : spadAt k A n = some (k, A) := if_pos h

theorem spadAt_sibling {w off : Nat} (hn : 0 < n) (hw : 1 ≤ w) (hw' : w ≤ 3) (hoff : off + n ≤ 2 ^ 21) (hA : A = (8 + w) * 2 ^ 21 + off) :
    spadAt k A n = some (coreAt (coreDie k) (clusterOf k) (posOf k ^^^ w), off) := by
  have hwindow : A / 2 ^ 21 = 8 + w := by omega
  have hoffset : A % 2 ^ 21 = off := by omega
  rw [spadAt, if_neg (by omega), if_pos (by omega), hwindow, hoffset, Nat.add_sub_cancel_left]
  rfl

/-- Bytes that end beyond the own scratchpad, and do not lie in one sibling window, lie nowhere. -/
theorem spadAt_none (hown : 2 ^ 21 < A + n) (h : A < 9 * 2 ^ 21 ∨ 12 * 2 ^ 21 < A + n ∨ A / 2 ^ 21 ≠ (A + n - 1) / 2 ^ 21) : spadAt k A n = none := by
  rw [spadAt, if_neg (by omega), if_neg (by omega)]

end

theorem scratchpadWindows : ScratchpadWindows := by
  unfold ScratchpadWindows
  intro k A n hn hn'
  exact ⟨spadAt_own, fun w off hw hw' hoff hA => spadAt_sibling hn hw hw' hoff hA, fun hown hA => spadAt_none hown (.inl hA),
    fun w off hw hw' hoff hcross hA => spadAt_none (by omega) (.inr (.inr (by omega))), fun hend => spadAt_none (by omega) (.inr (.inl hend))⟩

/-! ### Addresses -/

theorem sext_eq_signedField {w v : Nat} (hw : 0 < w) (hv : v < 2 ^ w) : sext w v = BitVec.ofInt 64 (signedField w v) := by
  obtain ⟨u, rfl⟩ : ∃ u, w = u + 1 := ⟨w - 1, by omega⟩
  have hint : (BitVec.ofNat (u + 1) v).toInt = signedField (u + 1) v := by
    rw [BitVec.toInt_eq_toNat_cond, BitVec.toNat_ofNat, Nat.mod_eq_of_lt hv, signedField, Nat.add_sub_cancel, Nat.pow_succ]
    split
    · rw [if_pos (by omega)]
    · rw [if_neg (by omega)]
      push_cast [Int.pow_succ]
      rfl
  rw [sext, BitVec.signExtend, hint]

/-- A signed field that counts units of 2^n bytes. -/
theorem sext_shift_eq {w v n : Nat} (hw : 0 < w) (hv : v < 2 ^ w) : sext w v <<< n = BitVec.ofInt 64 (2 ^ n * signedField w v) := by
  have hpow : BitVec.twoPow 64 n = BitVec.ofInt 64 (2 ^ n) := by
    have hcast : (2 ^ n : Int) = ((2 ^ n : Nat) : Int) := by push_cast; rfl
    rw [hcast, BitVec.ofInt_natCast]
    exact BitVec.eq_of_toNat_eq (by rw [BitVec.toNat_twoPow, BitVec.toNat_ofNat])
  rw [BitVec.shiftLeft_eq_mul_twoPow, sext_eq_signedField hw hv, BitVec.ofInt_mul, BitVec.mul_comm, hpow]

section
variable {s : State} {a b i : Nat}

theorem lAddr_eq_byteAddr (hi : i < 2 ^ 11) : s.lAddr s.here a i = byteAddr s a i := congrArg (s.readX s.here a + ·) (sext_eq_signedField (by decide) hi)

theorem wholeAddr_eq (hi : i < 2 ^ 11) (n j : Nat) :
    wholeAddr n a i s s.here j = s.readX s.here a + BitVec.ofInt 64 (64 * signedField 11 i) + BitVec.ofNat 64 (n * j) := by
  rw [wholeAddr, sext_shift_eq (by decide) hi]
  rfl

theorem oneAddr_eq : oneAddr a (i % 128) s s.here = s.readX s.here a + BitVec.ofInt 64 (256 * signedField 7 (i % 128)) := by
  have hi : i % 128 < 2 ^ 7 := Nat.mod_lt _ (by decide)
  rw [oneAddr, sext_shift_eq (by decide) hi]
  rfl

end

/-! ### The check of addresses (R124) -/

/-- An address that is aligned to al and at which n bytes lie in a scratchpad window. -/
def GoodAddr (k n al : Nat) (A : Word) : Prop := A.toNat % al = 0 ∧ spadAt k A.toNat n ≠ none

section
variable {k n al : Nat} {A : Word} {l l' : List Word}

theorem spadFault_cons_bad (h : ¬ GoodAddr k n al A) : spadFault k n al (A :: l) = some (4, A.toNat % 2 ^ 32) := by
  refine if_neg fun ⟨hal, hwin⟩ => h ⟨hal, Option.isSome_iff_ne_none.mp hwin⟩

theorem spadFault_append_good (h : ∀ A ∈ l, GoodAddr k n al A) : spadFault k n al (l ++ l') = spadFault k n al l' := by
  induction l with
  | nil => rfl
  | cons A l ih =>
    obtain ⟨hal, hwin⟩ := h A (List.mem_cons_self ..)
    exact (if_pos ⟨hal, Option.isSome_iff_ne_none.mpr hwin⟩).trans (ih fun B hB => h B (List.mem_cons_of_mem _ hB))

/-- The first row whose address fails counts. -/
theorem spadFault_rows {m j : Nat} {A : Nat → Word} (hj : j < m) (hbad : ¬ GoodAddr k n al (A j)) (hgood : ∀ h, h < j → GoodAddr k n al (A h)) :
    spadFault k n al ((List.range m).map A) = some (4, (A j).toNat % 2 ^ 32) := by
  obtain ⟨r, rfl⟩ : ∃ r, m = j + (r + 1) := ⟨m - j - 1, by omega⟩
  rw [List.range_add, List.map_append, spadFault_append_good, List.range_succ_eq_map]
  · exact spadFault_cons_bad hbad
  · intro B hB
    obtain ⟨h, hh, rfl⟩ := List.mem_map.mp hB
    exact hgood h (List.mem_range.mp hh)

end

/-! ### Operations -/

section
variable {g : Guard} {s : State}

theorem loadOp_bad {n d a i : Nat} {sx : Bool} (hg : s.here.guardOn g = true) (hi : i < 2 ^ 11) (h : ¬ GoodAddr s.cur.core n n (byteAddr s a i)) :
    loadOp g n sx d a i s = .next (s.trapHere 4 ((byteAddr s a i).toNat % 2 ^ 32)) := by
  refine slotTry_trap hg 2 _ _ ?_
  rw [lAddr_eq_byteAddr hi]
  exact spadFault_cons_bad h
theorem storeOp_bad {n d a i : Nat} (hg : s.here.guardOn g = true) (hi : i < 2 ^ 11) (h : ¬ GoodAddr s.cur.core n n (byteAddr s a i)) :
    storeOp g n d a i s = .next (s.trapHere 4 ((byteAddr s a i).toNat % 2 ^ 32)) := by
  refine slotTry_trap hg 2 _ _ ?_
  rw [lAddr_eq_byteAddr hi]
  exact spadFault_cons_bad h
theorem amoOp_bad {f d a b : Nat} {w : Bool} (hg : s.here.guardOn g = true)
    (h : ¬ GoodAddr s.cur.core (if w = true then 4 else 8) (if w = true then 4 else 8) (s.readX s.here a)) :
    amoOp g f d a b w s = .next (s.trapHere 4 ((s.readX s.here a).toNat % 2 ^ 32)) := by
  rw [amoOp]
  exact slotTry_trap hg 2 _ _ (spadFault_cons_bad h)

theorem rowOp_trap {occ eu n span : Nat} {rows : State → Core → List (Nat × Word × ReqKind)} {pre : Nat → Core → Core} {cause info : Nat}
    (hg : s.here.guardOn g = true) (hfree : s.rowBlocked s.here = false) (h : spadFault s.cur.core n 64 ((rows s s.here).map (·.2.1)) = some (cause, info)) :
    rowOp g occ eu n span rows pre s = .next (s.trapHere cause info) := by
  simp [rowOp, hg, hfree, h]

/-- A row-path operation of sixteen rows traps at the first row whose address fails. -/
theorem rowOp_rows_bad {occ eu n span j : Nat} {A : Nat → Word} {at' : State → Core → Nat → Word} {kind : Nat → ReqKind} {pre : Nat → Core → Core}
    (hg : s.here.guardOn g = true) (hfree : s.rowBlocked s.here = false) (hA : ∀ j, at' s s.here j = A j) (hj : j < 16)
    (hbad : ¬ GoodAddr s.cur.core n 64 (A j)) (hgood : ∀ h, h < j → GoodAddr s.cur.core n 64 (A h)) :
    rowOp g occ eu n span (fun s c => (List.range 16).map fun i => (i, at' s c i, kind i)) pre s = .next (s.trapHere 4 ((A j).toNat % 2 ^ 32)) := by
  refine rowOp_trap hg hfree ?_
  rw [List.map_map]
  exact (congrArg (spadFault s.cur.core n 64) (List.map_congr_left fun i _ => hA i)).trans (spadFault_rows hj hbad hgood)

theorem vldOp_bad {f6 : Bool} {d j : Nat} {A : Nat → Word} {at' : State → Core → Nat → Word} (hg : s.here.guardOn g = true)
    (hfree : s.rowBlocked s.here = false) (hA : ∀ j, at' s s.here j = A j) (hj : j < 16)
    (hbad : ¬ GoodAddr s.cur.core (if f6 then 192 else 256) 64 (A j)) (hgood : ∀ h, h < j → GoodAddr s.cur.core (if f6 then 192 else 256) 64 (A h)) :
    vldOp g f6 d at' s = .next (s.trapHere 4 ((A j).toNat % 2 ^ 32)) := rowOp_rows_bad hg hfree hA hj hbad hgood
theorem vstOp_bad {f6 : Bool} {d j : Nat} {A : Nat → Word} {at' : State → Core → Nat → Word} (hg : s.here.guardOn g = true)
    (hfree : s.rowBlocked s.here = false) (hA : ∀ j, at' s s.here j = A j) (hj : j < 16)
    (hbad : ¬ GoodAddr s.cur.core (if f6 then 192 else 256) 64 (A j)) (hgood : ∀ h, h < j → GoodAddr s.cur.core (if f6 then 192 else 256) 64 (A h)) :
    vstOp g f6 d at' s = .next (s.trapHere 4 ((A j).toNat % 2 ^ 32)) := rowOp_rows_bad hg hfree hA hj hbad hgood

theorem rowOp_one_bad {occ eu n span : Nat} {A : Word} {at' : State → Core → Word} {kind : ReqKind} {pre : Nat → Core → Core}
    (hg : s.here.guardOn g = true) (hfree : s.rowBlocked s.here = false) (hA : at' s s.here = A) (hbad : ¬ GoodAddr s.cur.core n 64 A) :
    rowOp g occ eu n span (fun s c => [(0, at' s c, kind)]) pre s = .next (s.trapHere 4 (A.toNat % 2 ^ 32)) := by
  subst hA
  exact rowOp_trap hg hfree (spadFault_cons_bad hbad)

end

theorem badAddressesTrap : BadAddressesTrap := by
  unfold BadAddressesTrap
  intro g d a b r i w s hg hi good traps size rows base strided single
  have load (n : Nat) (sx : Bool) : ¬ good (byteAddr s a i) n n → loadOp g n sx d a i s = .next (s.trapHere 4 ((byteAddr s a i).toNat % 2 ^ 32)) :=
    loadOp_bad hg hi
  have store (n : Nat) : ¬ good (byteAddr s a i) n n → storeOp g n d a i s = .next (s.trapHere 4 ((byteAddr s a i).toNat % 2 ^ 32)) := storeOp_bad hg hi
  have atomic (f : Nat) : ¬ good (s.readX s.here a) size size → amoOp g f d a b w s = .next (s.trapHere 4 ((s.readX s.here a).toNat % 2 ^ 32)) :=
    amoOp_bad hg
  have whole (n : Nat) (j : Nat) : wholeAddr n a i s s.here j = base n j := wholeAddr_eq hi n j
  simp only [traps, rows, exec_ldb, exec_ldbu, exec_stb, exec_ldh, exec_ldhu, exec_sth, exec_ldw, exec_ldwu, exec_stw, exec_ldd, exec_std, exec_amoAdd,
    exec_amoSwap, exec_amoAnd, exec_amoOr, exec_amoXor, exec_amoMin, exec_amoMax, exec_amoMinu, exec_amoMaxu, exec_vld, exec_vst, exec_vlds, exec_vsts,
    exec_vldf6, exec_vstf6, exec_vldr, exec_vstr]
  refine ⟨load 1 true, load 1 false, store 1, load 2 true, load 2 false, store 2, load 4 true, load 4 false, store 4, load 8 false, store 8,
    atomic 0, atomic 1, atomic 2, atomic 3, atomic 4, atomic 5, atomic 6, atomic 7, atomic 8, ?_, ?_, ?_, ?_, ?_, ?_, fun hfree hbad => ?_⟩
  · exact fun hfree j hj hbad hgood => vldOp_bad hg hfree (at' := wholeAddr 256 a i) (whole 256) hj hbad hgood
  · exact fun hfree j hj hbad hgood => vstOp_bad hg hfree (at' := wholeAddr 256 a i) (whole 256) hj hbad hgood
  · exact fun hfree j hj hbad hgood => vldOp_bad hg hfree (at' := strideAddr a b) (fun _ => rfl) hj hbad hgood
  · exact fun hfree j hj hbad hgood => vstOp_bad hg hfree (at' := strideAddr a b) (fun _ => rfl) hj hbad hgood
  · exact fun hfree j hj hbad hgood => vldOp_bad hg hfree (at' := wholeAddr 192 a i) (whole 192) hj hbad hgood
  · exact fun hfree j hj hbad hgood => vstOp_bad hg hfree (at' := wholeAddr 192 a i) (whole 192) hj hbad hgood
  · rw [execVldr, execVstr]
    exact ⟨rowOp_one_bad hg hfree oneAddr_eq hbad, rowOp_one_bad hg hfree oneAddr_eq hbad⟩

/-- Settles O16: the windows are the branches of `spadAt`, and every access runs its addresses through `spadFault`. -/
theorem scratchpadAddresses : Obligations.ScratchpadAddresses := ⟨scratchpadWindows, badAddressesTrap⟩

end Sys2Proof.Proofs
end

section
/-! PROOFS. The issue of a bundle (O37): the core that a bundle leaves when it issues, waits and traps before it (R63, R75, R141, R238). -/
namespace Sys2Proof.Proofs
open Sys2Proof.Machine Sys2Proof.Laws Sys2Proof.Claims

/-- A core of which a bundle may issue: it runs, no fault of the weight port is due, and it has not met EXIT. -/
structure MayIssue (c : Core) : Prop where
  running : c.st = .running
  due : c.due = []
  exit : c.exit = none

/-- Core k with its bundle issued (R63, R238): charged, moved on, and with the bundle among those that a check may name (R61). -/
def issuedCore (s : State) (k : Nat) : Core :=
  { (s.core k).snapshot.advance (hasTransfer (goodSlots (s.fetch k (s.core k)))) with
    issued := (s.now (s.core k), (s.core k).pc, 0) ::
      (s.core k).issued.filter fun e => decide (s.now (s.core k) < e.1 + 64) || (s.core k).reqs.any fun r => r.t == e.1 }
/-- The state in which the bundle of core k has issued, with its slots decoded. -/
def issuedState (s : State) (k : Nat) : State :=
  { s.setCore k (issuedCore s k) with
    cur := ⟨k, 0⟩
    ops := goodSlots (s.fetch k (s.core k))
    ill := illegalSlot (s.core k) (s.fetch k (s.core k)) }
/-- The state at the boundary before the bundle of core k, from which it traps. -/
def boundaryState (s : State) (k : Nat) : State := { s.setCore k (s.core k).snapshot with ops := [], ill := none, cur := ⟨k, 0⟩ }

section
variable {s : State} {k : Nat}

/-- What BUNDLE_ISSUE does for a core that may issue: by its wait, its BUDGET and its PC. -/
theorem bundleIssue_eq (h : MayIssue (s.core k)) : exec (.bundleIssue k) s = .next (
    if (s.core k).wait.isSome then { s.setCore k ((s.core k).spend.charge 1) with ops := [], ill := none, cur := ⟨k, 0⟩ }
    else if (s.core k).budget = 0 then (boundaryState s k).takeTrap k 0 6 0
    else if (s.core k).nbundles ≤ (s.core k).pc then (boundaryState s k).takeTrap k 0 3 (s.core k).pc
    else issuedState s k) := by
  obtain ⟨hrun, hdue, hexit⟩ := h
  rw [exec_bundleIssue, execBundleIssue]
  simp only [hrun, hdue, hexit, ne_eq, not_true_eq_false, if_false, List.find?_nil, Option.isSome_none, Bool.false_eq_true]
  simp only [apply_ite Host.Outcome.next]
  rfl

theorem bundleIssue_issues (h : MayIssue (s.core k)) (hwait : (s.core k).wait = none) (hbudget : (s.core k).budget ≠ 0)
    (hpc : (s.core k).pc < (s.core k).nbundles) : exec (.bundleIssue k) s = .next (issuedState s k) := by
  rw [bundleIssue_eq h, if_neg (by simp [hwait]), if_neg hbudget, if_neg (by omega)]

theorem bundleIssue_waits (h : MayIssue (s.core k)) (hwait : (s.core k).wait ≠ none) :
    exec (.bundleIssue k) s = .next { s.setCore k ((s.core k).spend.charge 1) with ops := [], ill := none, cur := ⟨k, 0⟩ } := by
  rw [bundleIssue_eq h, if_pos (Option.isSome_iff_ne_none.mpr hwait)]

theorem bundleIssue_noBudget (h : MayIssue (s.core k)) (hwait : (s.core k).wait = none) (hbudget : (s.core k).budget = 0) :
    exec (.bundleIssue k) s = .next ((boundaryState s k).takeTrap k 0 6 0) := by
  rw [bundleIssue_eq h, if_neg (by simp [hwait]), if_pos hbudget]

theorem bundleIssue_noBundle (h : MayIssue (s.core k)) (hwait : (s.core k).wait = none) (hbudget : (s.core k).budget ≠ 0)
    (hpc : (s.core k).nbundles ≤ (s.core k).pc) : exec (.bundleIssue k) s = .next ((boundaryState s k).takeTrap k 0 3 (s.core k).pc) := by
  rw [bundleIssue_eq h, if_neg (by simp [hwait]), if_neg hbudget, if_pos hpc]

theorem core_issuedState_same (s : State) (k : Nat) : (issuedState s k).core k = issuedCore s k := core_setCore_same ..
theorem core_issuedState_other {j : Nat} (h : j ≠ k) : (issuedState s k).core j = s.core j := core_setCore_other _ _ h
theorem core_boundaryState_same (s : State) (k : Nat) : (boundaryState s k).core k = (s.core k).snapshot := core_setCore_same ..

/-! ### The sequencer (R75) -/

section
variable {c : Core} {ct : Bool}

theorem advance_next (h : c.dly = 0) : (c.advance ct).pc = c.pc + 1 ∧ (c.advance ct).dly = 0 := by simp [Core.advance, Core.spend, Core.charge, h]
theorem advance_last (h : c.dly = 1) : (c.advance ct).pc = c.tgt ∧ (c.advance ct).dly = 0 := by simp [Core.advance, Core.spend, Core.charge, h]
theorem advance_first (h : c.dly = 2) : (c.advance ct).pc = c.pc + 1 ∧ (c.advance ct).dly = 1 := by simp [Core.advance, Core.spend, Core.charge, h]

/-- Moving on spends BUDGET and energy and moves the sequencer: the state of the core and its registers stay. -/
theorem advance_keeps (c : Core) (ct : Bool) : (c.advance ct).st = c.st ∧ (c.advance ct).iss = c.iss ∧ (c.advance ct).budget = c.spend.budget ∧
    (c.advance ct).ecnt = addEnergy c.ecnt 2 ∧ (c.advance ct).x = c.x ∧ (c.advance ct).p = c.p ∧ (c.advance ct).b = c.b ∧ (c.advance ct).v = c.v := by
  unfold Core.advance
  dsimp only
  split
  · exact ⟨rfl, rfl, rfl, rfl, rfl, rfl, rfl, rfl⟩
  · split
    · exact ⟨rfl, rfl, rfl, rfl, rfl, rfl, rfl, rfl⟩
    · exact ⟨rfl, rfl, rfl, rfl, rfl, rfl, rfl, rfl⟩

end

end

/-- Settles O37: each clause is a branch of `bundleIssue_eq`, and the sequencer's is the branch of `Core.advance` for its delay count. -/
theorem bundleEvents : Obligations.BundleEvents := by
  unfold Obligations.BundleEvents
  intro k s hrun hdue hexit c spent
  have h : MayIssue (s.core k) := ⟨hrun, hdue, hexit⟩
  refine ⟨fun hwait hbudget hpc => ⟨_, bundleIssue_issues h hwait hbudget hpc, rfl, rfl, ?_⟩, fun hwait => ⟨_, bundleIssue_waits h hwait, rfl,
    core_setCore_same .., rfl⟩, fun hwait hbudget => ⟨_, bundleIssue_noBudget h hwait hbudget, ?_⟩, fun hwait hbudget hpc =>
    ⟨_, bundleIssue_noBundle h hwait hbudget hpc, ?_⟩, fun T hT hnow => ?_, fun T hT hnow => ?_⟩
  · let d := (s.core k).snapshot.advance (hasTransfer (goodSlots (s.fetch k (s.core k))))
    obtain ⟨-, hiss, hspent, hecnt, hx, hp, hb, hv⟩ : d.st = _ ∧ _ := advance_keeps ..
    rw [core_issuedState_same]
    exact ⟨congrArg Issue.pc hiss, hspent, hecnt, advance_next (c := (s.core k).snapshot), advance_last (c := (s.core k).snapshot),
      advance_first (c := (s.core k).snapshot), hx, hp, hb, hv, rfl, fun j hj => core_issuedState_other hj⟩
  · rw [core_takeTrap_same, trappedCore, core_boundaryState_same]
    exact ⟨rfl, rfl⟩
  · rw [core_takeTrap_same, trappedCore, core_boundaryState_same]
    exact ⟨rfl, rfl⟩
  · rw [exec_waitEnd, execWaitEnd]
    simp only [show (s.core k).wait = _ from hT]
    exact congrArg _ (if_pos hnow)
  · rw [exec_waitEnd, execWaitEnd]
    simp only [show (s.core k).wait = _ from hT]
    exact congrArg _ (if_neg (Nat.not_le.mpr hnow))

end Sys2Proof.Proofs
end

section
/-! PROOFS. Results land (O38): what a write leaves of each register file (R67, R70; Table 3.2), and the landing of one result alone. -/
namespace Sys2Proof.Proofs
open Sys2Proof.Machine Sys2Proof.Laws Sys2Proof.Claims

/-! ### Registers after a write -/

section
variable {c : Core}

theorem get_write_x {d : Nat} (hd : d ≠ 0) (v : Word) (a : Nat) : Tab.get 0 (c.write (.x d v)).x a = if a = d then v else Tab.get 0 c.x a := by
  have hx : (c.write (.x d v)).x = Tab.set 0 c.x d v := congrArg Core.x (if_neg hd)
  rw [hx]
  split
  · subst_vars
    exact get_set_same ..
  · exact get_set_other _ _ _ ‹_›

theorem readP_write_p {d : Nat} (hd : 0 < d) (hd' : d < 12) (v : Bool) (a : Nat) : (c.write (.p d v)).readP a = if a = d then v else c.readP a := by
  have hp : (c.write (.p d v)).p = if v then c.p ||| (1#12 <<< d) else c.p &&& ~~~(1#12 <<< d) := congrArg Core.p (if_neg hd.ne')
  have hbit (h : a ≠ d) : (1#12 <<< d).getLsbD a = false := by
    rw [BitVec.getLsbD_shiftLeft, BitVec.getLsbD_one]
    simp
    omega
  have hone : (1#12 <<< d).getLsbD d = true := by simp [hd']
  have hne : (d == 0) = false := by simpa using hd.ne'
  unfold Core.readP
  rw [hp]
  by_cases h : a = d
  · subst h
    cases v
    · simp [hne, hone]
    · simp [hne, hone]
  · rw [if_neg h]
    cases v
    · by_cases ha : a < 12
      · simp only [Bool.false_eq_true, if_false, BitVec.getLsbD_and, BitVec.getLsbD_not, hbit h, ha, decide_true, Bool.not_false, Bool.and_true]
      · simp [BitVec.getLsbD_of_ge _ _ (Nat.not_lt.mp ha)]
    · simp only [if_true, BitVec.getLsbD_or, hbit h, Bool.or_false]

theorem laneOf_write_row (d i : Nat) (m : MaskRow) (v : Row) {j : Nat} (hj : j < 64) :
    laneOf (Tab.get 0 (c.write (.row d i m v)).v (16 * d + i)) j = if m.getLsbD j = true then laneOf v j else laneOf (Tab.get 0 c.v (16 * d + i)) j := by
  have hrow : Tab.get 0 (c.write (.row d i m v)).v (16 * d + i) = blend m (Tab.get 0 c.v (16 * d + i)) v := get_set_same ..
  rw [hrow]
  exact laneOf_blend _ _ _ _ hj

/-- No write touches the accesses or the matrix commands of its core. -/
theorem write_keeps_work (c : Core) (w : Write) : (c.write w).reqs = c.reqs ∧ (c.write w).cmds = c.cmds := by
  cases w with
  | x | p | krow =>
    unfold Core.write
    dsimp only
    split
    · exact ⟨rfl, rfl⟩
    · exact ⟨rfl, rfl⟩
  | b | q | row | flags => exact ⟨rfl, rfl⟩
  | sys n v =>
    unfold Core.write
    dsimp only
    split
    · exact ⟨rfl, rfl⟩
    · split
      · exact ⟨rfl, rfl⟩
      · split
        · exact ⟨rfl, rfl⟩
        · exact ⟨rfl, rfl⟩

end

/-! ### One result alone -/

section
variable {c : Core} {l : Land} {t : Nat}

/-- With no operation under way, one result lands by its write alone. -/
theorem landOne_alone (hvops : c.vops = []) (hlands : c.lands = []) (l : Land) : c.landOne l = c.write l.wr := by
  obtain ⟨⟩ := c
  subst hvops hlands
  rfl

theorem settle_alone (hlands : c.lands = [l]) (hvops : c.vops = []) (hdue : l.due t = true) : c.settle t = Core.write { c with lands := [] } l.wr := by
  have horder : ([l].filter (·.isSys) ++ [l].filter fun l => !l.isSys) = [l] := by
    cases h : l.isSys
    · simp [h]
    · simp [h]
  have hlanding : c.lands.filter (·.due t) = [l] := by rw [hlands, List.filter_cons, if_pos hdue, List.filter_nil]
  have hleft : (c.lands.filter fun l => !l.due t) = [] := by simp [hlands, hdue]
  unfold Core.settle
  rw [hlanding, hleft]
  exact (congrArg (List.foldl Core.landOne _) horder).trans (landOne_alone (c := { c with lands := [] }) hvops rfl l)

theorem matrixWork_idle (s : State) (hreqs : c.reqs = []) (hcmds : c.cmds = []) : s.matrixWork c = c := by
  simp [State.matrixWork, State.closeLines, hreqs, hcmds]

end

section
variable {k : Nat} {s : State} {l : Land}

theorem resultLand_alone (hlands : (s.core k).lands = [l]) (hvops : (s.core k).vops = []) (hcmds : (s.core k).cmds = []) (hreqs : (s.core k).reqs = [])
    (hdue : l.due (s.now (s.core k)) = true) :
    exec (.resultLand k) s = .next ({ s with cur := ⟨k, 0⟩ }.setCore k (Core.write { s.core k with lands := [] } l.wr)) := by
  have hsettle := settle_alone hlands hvops hdue
  obtain ⟨hwreqs, hwcmds⟩ := write_keeps_work { s.core k with lands := [] } l.wr
  rw [exec_resultLand, execResultLand]
  refine congrArg (fun c => Host.Outcome.next (({ s with cur := ⟨k, 0⟩ } : State).setCore k c)) ?_
  exact (congrArg _ hsettle).trans (matrixWork_idle _ (hwreqs.trans hreqs) (hwcmds.trans hcmds))

theorem nxtDelivery_alone {d : Nat} {v : Tile} (hlands : (s.core k).lands = [l]) (hdue : l.due (s.now (s.core k)) = true) (hwr : l.wr = .q d v) :
    exec (.nxtDelivery k) s = .next (s.setCore k (Core.write { s.core k with lands := [] } (.q d v))) := by
  rw [exec_nxtDelivery, execNxtDelivery]
  simp [hlands, hdue, hwr]

end

/-- Settles O38: one result that is due lands by its write, and each file reads as its write has left it. -/
theorem resultsLand : Obligations.ResultsLand := by
  unfold Obligations.ResultsLand
  intro k s l hlands hvops hcmds hreqs hready hhi c
  have hdue : l.due (s.now (s.core k)) = true := by simp [Land.due, hready, hhi]
  refine ⟨fun w hw => ⟨_, resultLand_alone hlands hvops hcmds hreqs hdue, ?_, rfl, fun j hj => core_setCore_other _ _ hj⟩,
    fun d v hw => ⟨_, nxtDelivery_alone hlands hdue hw, core_setCore_same .., rfl⟩, fun d v hd => get_write_x hd v, fun v => rfl,
    fun v => rfl, fun i m v => rfl, fun d v hd hd' => readP_write_p hd hd' v, fun d i m v j hj => laneOf_write_row d i m v hj,
    readX_zero s c, readP_zero c, readK_zero s c⟩
  rw [core_setCore_same, hw]

end Sys2Proof.Proofs
end

section
/-! PROOFS. The banks (O39): what a scratchpad serves and owes in a tick comes from the accesses of its cluster's cores inside their windows, and no bank serves
twice (R80). -/
namespace Sys2Proof.Proofs
open Sys2Proof.Machine Sys2Proof.Laws Sys2Proof.Claims

/-! ### Serving in order -/

section
variable {busy : List Nat} {l : List (Nat × Req)} {e : Nat × Req}

/-- What is served was a candidate, and takes none of the banks that are busy. -/
theorem mem_serve (h : e ∈ serve busy l) : e ∈ l ∧ ∀ n ∈ e.2.banks, n ∉ busy := by
  induction l generalizing busy with
  | nil => cases h
  | cons a l ih =>
    unfold serve at h
    split at h
    · obtain ⟨hmem, hfree⟩ := ih h
      exact ⟨List.mem_cons_of_mem _ hmem, hfree⟩
    · rename_i hfirst
      rcases List.mem_cons.mp h with rfl | h
      · refine ⟨List.mem_cons_self .., fun n hn hbusy => hfirst (List.any_eq_true.mpr ⟨n, hn, List.contains_iff_mem.mpr hbusy⟩)⟩
      · obtain ⟨hmem, hfree⟩ := ih h
        exact ⟨List.mem_cons_of_mem _ hmem, fun n hn hbusy => hfree n hn (List.mem_append_right _ hbusy)⟩

theorem serve_pairwise (busy : List Nat) (l : List (Nat × Req)) : (serve busy l).Pairwise fun a b => ∀ n ∈ a.2.banks, n ∉ b.2.banks := by
  induction l generalizing busy with
  | nil => exact .nil
  | cons a l ih =>
    unfold serve
    split
    · exact ih busy
    · exact .cons (fun b hb n hn hnb => (mem_serve hb).2 n hnb (List.mem_append_left _ hn)) (ih _)

theorem mem_putReq {k : Nat} {a : Nat × Req} (h : e ∈ putReq k a l) : e = a ∨ e ∈ l := by
  induction l with
  | nil => exact .inl (List.mem_singleton.mp h)
  | cons b l ih =>
    unfold putReq at h
    split at h
    · exact List.mem_cons.mp h
    · rcases List.mem_cons.mp h with rfl | h
      · exact .inr (List.mem_cons_self ..)
      · exact (ih h).imp id (List.mem_cons_of_mem _)

theorem mem_foldl_putReq {k : Nat} {acc : List (Nat × Req)} (h : e ∈ l.foldl (fun l a => putReq k a l) acc) : e ∈ acc ∨ e ∈ l := by
  induction l generalizing acc with
  | nil => exact .inl h
  | cons a l ih =>
    rcases ih h with h | h
    · rcases mem_putReq h with rfl | h
      · exact .inr (List.mem_cons_self ..)
      · exact .inl h
    · exact .inr (List.mem_cons_of_mem _ h)

end

/-! ### Candidates -/

theorem mem_lateTicks {c : Core} {e : Req × Nat} (h : e ∈ c.lateTicks) : e.1 ∈ c.reqs := by
  obtain ⟨r, hr, rfl⟩ := List.mem_map.mp h
  exact List.mem_of_mem_filter hr

/-- An access is presented no earlier than its window opens. -/
theorem lo_le_present {r : Req} {j p : Nat} (h : r.present j = some p) : ∃ l, r.lo = some l ∧ l ≤ p := by
  obtain ⟨l, hl, hp⟩ := Option.map_eq_some_iff.mp h
  refine ⟨l, hl, ?_⟩
  rw [← hp]
  split
  · exact Nat.le_refl l
  · exact Nat.le_add_right ..

theorem presents_in_window {c : Core} {t j d : Nat} {tight : List (Option Nat)} {r : Req} (h : c.presents t tight j r d = true) :
    ∃ l, r.lo = some l ∧ l ≤ t := by
  obtain ⟨-, h⟩ := Bool.and_eq_true_iff.mp h
  rcases Bool.or_eq_true_iff.mp h with h | h
  · obtain ⟨p, hp, hpt⟩ := (Option.any_eq_true _ _).mp h
    obtain ⟨l, hl, hlp⟩ := lo_le_present hp
    exact ⟨l, hl, hlp.trans (of_decide_eq_true hpt)⟩
  · obtain ⟨l, hl, hlt⟩ := (Option.any_eq_true _ _).mp (Bool.and_eq_true_iff.mp h).1
    exact ⟨l, hl, of_decide_eq_true hlt⟩

section
variable {s : State} {k : Nat}

theorem served_in_window {e : Nat × Req} (h : e ∈ s.served k) :
    e.2 ∈ (s.core e.1).reqs ∧ e.2.pad = k ∧ ∃ l, e.2.lo = some l ∧ l ≤ s.now (s.core e.1) := by
  rcases mem_foldl_putReq (mem_serve h).1 with h | h
  · cases h
  obtain ⟨⟨j, r, d⟩, hcand, rfl⟩ := List.mem_map.mp h
  obtain ⟨hall, hpresents⟩ := List.mem_filter.mp hcand
  obtain ⟨i, -, hi⟩ := List.mem_flatMap.mp hall
  split at hi
  · obtain ⟨x, hx, hji⟩ := List.mem_map.mp hi
    cases hji
    obtain ⟨hlate, hpad⟩ := List.mem_filter.mp hx
    exact ⟨mem_lateTicks hlate, beq_iff_eq.mp hpad, presents_in_window hpresents⟩
  · cases hi

theorem firstOwed_in_window {e : Nat × Req} (h : s.firstOwed k = some e) :
    e.2 ∈ (s.core e.1).reqs ∧ e.2.pad = k ∧ (∃ l, e.2.lo = some l ∧ l ≤ s.now (s.core e.1)) ∧ s.now (s.core e.1) ≤ e.2.hi := by
  rcases mem_foldl_putReq (List.mem_of_head? h) with h | h
  · cases h
  obtain ⟨i, -, hi⟩ := List.mem_flatMap.mp h
  split at hi
  · obtain ⟨x, hx, rfl⟩ := List.mem_map.mp hi
    obtain ⟨hlate, howed⟩ := List.mem_filter.mp hx
    simp only [State.owed, Bool.and_eq_true] at howed
    obtain ⟨⟨⟨⟨⟨⟨⟨hpad, hlo⟩, -⟩, hhi⟩, -⟩, -⟩, -⟩, -⟩ := howed
    obtain ⟨l, hl, hlt⟩ := (Option.any_eq_true _ _).mp hlo
    exact ⟨mem_lateTicks hlate, beq_iff_eq.mp hpad, ⟨l, hl, of_decide_eq_true hlt⟩, of_decide_eq_true hhi⟩
  · cases hi

/-! ### One tick -/

theorem askBanks_eq (s : State) (k : Nat) : ∃ d, s.askBanks k = s ∨ s.askBanks k = s.modCore k fun c => { c with bankDemand := d } := by
  unfold State.askBanks
  extract_lets new
  refine ⟨demandTick new (s.core k).bankDemand, ?_⟩
  split
  · exact .inl rfl
  · exact .inr rfl

theorem askBanks_mem (s : State) (k : Nat) : (s.askBanks k).mem = s.mem := by
  obtain ⟨d, h | h⟩ := askBanks_eq s k
  · rw [h]
  · rw [h]
    rfl

theorem core_askBanks (s : State) (k j : Nat) : (s.askBanks k).core j = { s.core j with bankDemand := ((s.askBanks k).core j).bankDemand } := by
  obtain ⟨d, h | h⟩ := askBanks_eq s k
  · rw [h]
  · rw [h, State.modCore]
    by_cases hj : j = k
    · subst hj
      rw [core_setCore_same]
    · rw [core_setCore_other _ _ hj]

/-- A core without matrix commands reads nothing for its unfolding unit. -/
theorem sampleMatrix_idle (h : (s.core k).cmds = []) : s.sampleMatrix k = s := by
  refine if_neg ?_
  rw [h]
  exact Bool.false_ne_true

theorem bankAccessPerform_eq (h : (s.core k).cmds = []) :
    exec (.bankAccessPerform k) s = .next (State.performOwed k 64 (((s.askBanks k).served k).foldl State.performOne (s.askBanks k))) := by
  rw [exec_bankAccessPerform, execBankAccessPerform, sampleMatrix_idle h, ite_self]

theorem performOwed_none {n : Nat} (h : s.firstOwed k = none) : State.performOwed k n s = s := by
  cases n with
  | zero => rfl
  | succ n =>
    unfold State.performOwed
    rw [h]

theorem performOwed_one {n : Nat} {e : Nat × Req} (h : s.firstOwed k = some e) (hnext : (s.performOne e).firstOwed k = none) :
    State.performOwed k (n + 1) s = s.performOne e := by
  unfold State.performOwed
  rw [h]
  exact performOwed_none hnext

end

/-- Settles O39: `serve` takes each bank once, and candidates are accesses whose windows have opened. -/
theorem banksServeOncePerTick : Obligations.BanksServeOncePerTick := by
  unfold Obligations.BanksServeOncePerTick
  intro k s
  refine ⟨serve_pairwise _ _, fun e => served_in_window, fun e => firstOwed_in_window, fun hcmds => ?_⟩
  intro s1
  refine ⟨fun e hserved hnext => ?_, fun e hserved howed hnext => ?_, fun hserved howed => ?_, askBanks_mem s k, core_askBanks s k⟩
  · rw [bankAccessPerform_eq hcmds, hserved]
    exact congrArg _ (performOwed_none hnext)
  · rw [bankAccessPerform_eq hcmds, hserved]
    exact congrArg _ (performOwed_one howed hnext)
  · rw [bankAccessPerform_eq hcmds, hserved]
    exact congrArg _ (performOwed_none howed)

end Sys2Proof.Proofs
end

section
/-! PROOFS. Steps (O57): a bundle with one operation, the events of the agenda and of wall time, and inputs. -/
namespace Sys2Proof.Proofs
open Sys2Proof.Machine Sys2Proof.Laws Sys2Proof.Claims

/-! ### A bundle whose other slots hold NOP -/

/-- The slots from a on, m of them, with NOP in each. -/
def nops (a m : Nat) : List (Nat × Instr) := (List.range' a m).map fun j => (j, .nop Guard.always)
/-- The operations of a bundle with i in slot n and NOP in the others. -/
def loneOps (n : Nat) (i : Instr) : List (Nat × Instr) := nops 0 n ++ (n, i) :: nops (n + 1) (7 - n)
/-- The slots from a on, m of them, each decoded to NOP. -/
def nopSlots (a m : Nat) : List (Nat × Except Ill Instr) := (nops a m).map fun e => (e.1, .ok e.2)
/-- The slots of a bundle decoded, with d from slot n and NOP from the others. -/
def loneSlots (n : Nat) (d : Except Ill Instr) : List (Nat × Except Ill Instr) := nopSlots 0 n ++ (n, d) :: nopSlots (n + 1) (7 - n)

section
variable {a m n : Nat}

theorem mem_nops {e : Nat × Instr} (h : e ∈ nops a m) : e.2 = .nop Guard.always := by
  obtain ⟨j, -, rfl⟩ := List.mem_map.mp h
  rfl
theorem mem_loneOps {e : Nat × Instr} {i : Instr} (h : e ∈ loneOps n i) : e.2 = .nop Guard.always ∨ e = (n, i) := by
  rcases List.mem_append.mp h with h | h
  · exact .inl (mem_nops h)
  · rcases List.mem_cons.mp h with h | h
    · exact .inr h
    · exact .inl (mem_nops h)
theorem mem_nopSlots {e : Nat × Except Ill Instr} (h : e ∈ nopSlots a m) : e.2 = .ok (.nop Guard.always) := by
  obtain ⟨z, hz, rfl⟩ := List.mem_map.mp h
  exact congrArg Except.ok (mem_nops hz)

theorem goodSlots_nopSlots (a m : Nat) : goodSlots (nopSlots a m) = nops a m := by
  unfold goodSlots nopSlots
  rw [List.filterMap_map]
  exact List.filterMap_some
theorem goodSlots_loneSlots_ok (n : Nat) (i : Instr) : goodSlots (loneSlots n (.ok i)) = loneOps n i := by
  have h : goodSlots (loneSlots n (.ok i)) = goodSlots (nopSlots 0 n) ++ (n, i) :: goodSlots (nopSlots (n + 1) (7 - n)) := List.filterMap_append
  rw [h, goodSlots_nopSlots, goodSlots_nopSlots]
  rfl
theorem goodSlots_loneSlots_error (n : Nat) (y : Ill) : goodSlots (loneSlots n (.error y)) = nops 0 n ++ nops (n + 1) (7 - n) := by
  have h : goodSlots (loneSlots n (.error y)) = goodSlots (nopSlots 0 n) ++ goodSlots (nopSlots (n + 1) (7 - n)) := List.filterMap_append
  rw [h, goodSlots_nopSlots, goodSlots_nopSlots]

/-- Eight slots of which all but slot n decode to NOP. -/
theorem map_range_eq_loneSlots {f : Nat → Except Ill Instr} (hn : n < 8) (h : ∀ j, j < 8 → j ≠ n → f j = .ok (.nop Guard.always)) :
    (List.range 8).map (fun j => (j, f j)) = loneSlots n (f n) := by
  have hsplit : List.range 8 = List.range' 0 n ++ n :: List.range' (n + 1) (7 - n) := by
    have hcons : n :: List.range' (n + 1) (7 - n) = List.range' n (8 - n) := by
      rw [show 8 - n = 7 - n + 1 by omega, List.range'_succ]
    rw [List.range_eq_range', hcons, show List.range' n (8 - n) = List.range' (0 + 1 * n) (8 - n) by simp, List.range'_append]
    congr 1
    omega
  have hnops (a m : Nat) (hm : a + m ≤ 8) (hne : n < a ∨ a + m ≤ n) : (List.range' a m).map (fun j => (j, f j)) = nopSlots a m := by
    unfold nopSlots nops
    rw [List.map_map]
    refine List.map_congr_left fun j hj => ?_
    have hj := List.mem_range'_1.mp hj
    exact congrArg (Prod.mk j) (h j (by omega) (by omega))
  rw [hsplit, List.map_append, List.map_cons, hnops 0 n (by omega) (by omega), hnops (n + 1) (7 - n) (by omega) (by omega)]
  rfl

/-- A word of zeros is NOP in every slot (R92). -/
theorem decodeWord_zero (sl : SlotClass) : decodeWord sl 0 = .ok (.nop Guard.always) := rfl

theorem fetch_eq_loneSlots {s : State} {k : Nat} (hn : n < 8) (hx : (s.core k).xnop = false)
    (hzero : ∀ m, m < 8 → m ≠ n → s.slotWordAt k (s.core k).pc m = 0) :
    s.fetch k (s.core k) = loneSlots n (decodeWord (slotClass n) (s.slotWordAt k (s.core k).pc n)) := by
  unfold State.fetch
  simp only [hx, Bool.false_eq_true, and_false, if_false]
  refine map_range_eq_loneSlots (f := fun m => decodeWord (slotClass m) (s.slotWordAt k (s.core k).pc m)) hn fun m hm hne => ?_
  rw [hzero m hm hne, decodeWord_zero]

/-! ### Charged slots (R94) -/

/-- Whether a slot is charged with ILLEGAL among those of a bundle, whose decoded operations are `ok`. -/
def charged (c : Core) (ok : List (Nat × Instr)) (e : Nat × Except Ill Instr) : Bool :=
  match e.2 with
  | .error _ => true
  | .ok i => (e.1 == 0 && isTransfer i && (c.ct1 || c.ct2)) || (dest i).any fun d => ok.any fun z => decide (z.1 < e.1) && dest z.2 == some d

theorem illegalSlot_eq (c : Core) (l : List (Nat × Except Ill Instr)) : illegalSlot c l =
    (l.find? (charged c (goodSlots l))).map fun e => (e.1, match e.2 with
      | .error y => y.code
      | .ok _ => if e.1 = 0 then 2 else 3) := rfl

theorem dest_nop (g : Guard) : dest (.nop g) = none := rfl

theorem charged_nop {c : Core} {ok : List (Nat × Instr)} {e : Nat × Except Ill Instr} (h : e.2 = .ok (.nop Guard.always)) : charged c ok e = false := by
  unfold charged
  rw [h]
  simp [isTransfer, dest_nop]

theorem find_charged_nopSlots (c : Core) (ok : List (Nat × Instr)) (a m : Nat) : (nopSlots a m).find? (charged c ok) = none :=
  List.find?_eq_none.mpr fun _ he => by simp [charged_nop (mem_nopSlots he)]

theorem illegalSlot_loneSlots_error (c : Core) (n : Nat) (y : Ill) : illegalSlot c (loneSlots n (.error y)) = some (n, y.code) := by
  rw [illegalSlot_eq]
  have hfind : (loneSlots n (.error y)).find? (charged c (goodSlots (loneSlots n (.error y)))) = some (n, .error y) := by
    rw [loneSlots, List.find?_append, find_charged_nopSlots]
    rfl
  rw [hfind]
  rfl

/-- One operation alone meets no other destination, and is charged only as a transfer in a delay bundle (R65, R76). -/
theorem illegalSlot_loneSlots_ok {c : Core} {i : Instr} (n : Nat) (h : isTransfer i = false ∨ (c.ct1 = false ∧ c.ct2 = false)) :
    illegalSlot c (loneSlots n (.ok i)) = none := by
  have halone (d : File × Nat) : ((loneOps n i).any fun z => decide (z.1 < n) && dest z.2 == some d) = false := by
    refine List.any_eq_false.mpr fun z hz => ?_
    rcases mem_loneOps hz with hnop | rfl
    · simp [hnop, dest_nop]
    · simp
  have hop : charged c (loneOps n i) (n, .ok i) = false := by
    unfold charged
    simp only [halone]
    rcases h with h | ⟨h1, h2⟩
    · simp [h]
    · simp [h1, h2]
  rw [illegalSlot_eq, goodSlots_loneSlots_ok, loneSlots, List.find?_append, find_charged_nopSlots, Option.none_or, List.find?_cons, hop,
    find_charged_nopSlots]
  rfl

end

/-! ### Running the operations (R66, R81) -/

section
variable {s t u v : State} {k n a m : Nat} {i : Instr}

theorem runOp_nop (k : Nat) (s : State) {e : Nat × Instr} (h : e.2 = .nop Guard.always) : runOp k s e = .next { s with cur := ⟨k, e.1⟩ } := by
  unfold runOp
  rw [h]
  rfl

theorem firstTrap_append {l l' : List (Nat × Instr)} (h : ∀ e ∈ l, ∀ u, runOp k s e = .next u → (u.core k).st ≠ .halted) :
    firstTrap k s (l ++ l') = firstTrap k s l' := by
  induction l with
  | nil => rfl
  | cons e l ih =>
    have hrest := ih fun e he => h e (List.mem_cons_of_mem _ he)
    rw [List.cons_append, firstTrap]
    split
    · rename_i u hu
      rw [if_neg (h e (List.mem_cons_self ..) u hu), hrest]
    · exact hrest

theorem firstTrap_nops (hrun : (s.core k).st = .running) (a m : Nat) (l : List (Nat × Instr)) : firstTrap k s (nops a m ++ l) = firstTrap k s l := by
  refine firstTrap_append fun e he u hu => ?_
  rw [runOp_nop k s (mem_nops he)] at hu
  cases hu
  exact fun hst => absurd (hrun.symm.trans hst) (by decide)

theorem firstTrap_nops_nil (hrun : (s.core k).st = .running) (a m : Nat) : firstTrap k s (nops a m) = none := by
  have h := firstTrap_nops hrun a m []
  rwa [List.append_nil] at h

theorem firstTrap_loneOps_halted (hrun : (s.core k).st = .running) (hu : exec i { s with cur := ⟨k, n⟩ } = .next u) (hhalt : (u.core k).st = .halted) :
    firstTrap k s (loneOps n i) = some (n, u) := by
  rw [loneOps, firstTrap_nops hrun, firstTrap, show runOp k s (n, i) = .next u from hu]
  exact if_pos hhalt

theorem firstTrap_loneOps_none (hrun : (s.core k).st = .running) (hu : exec i { s with cur := ⟨k, n⟩ } = .next u) (hhalt : (u.core k).st ≠ .halted) :
    firstTrap k s (loneOps n i) = none := by
  rw [loneOps, firstTrap_nops hrun, firstTrap, show runOp k s (n, i) = .next u from hu]
  exact (if_neg hhalt).trans (firstTrap_nops_nil hrun ..)

/-- NOPs leave nothing but the place of the last of them. -/
theorem runOps_nops (k a m : Nat) (l : List (Nat × Instr)) (s : State) :
    runOps k (nops a m ++ l) s = runOps k l { s with cur := if m = 0 then s.cur else ⟨k, a + m - 1⟩ } := by
  induction m generalizing a s with
  | zero => rfl
  | succ m ih =>
    have hcons : nops a (m + 1) ++ l = (a, .nop Guard.always) :: (nops (a + 1) m ++ l) := rfl
    have hop : runOp k s (a, .nop Guard.always) = .next { s with cur := ⟨k, a⟩ } := rfl
    have hnoted : State.noted k a s { s with cur := ⟨k, a⟩ } = { s with cur := ⟨k, a⟩ } := if_pos rfl
    rw [hcons, runOps, hop]
    dsimp only
    rw [hnoted, ih]
    refine congrArg (fun c => runOps k l { s with cur := c }) ?_
    by_cases hm : m = 0
    · simp [hm]
    · rw [if_neg hm, if_neg (Nat.succ_ne_zero m)]
      congr 1
      omega

theorem runOps_loneOps (hn : n < 8) (hu : exec i { s with cur := ⟨k, n⟩ } = .next u) : runOps k (loneOps n i) s =
    .next (if n = 7 then State.noted k n s u else { State.noted k n s u with cur := ⟨k, 7⟩ }) := by
  have hlast (v : State) : runOps k (nops (n + 1) (7 - n)) v = .next (if n = 7 then v else { v with cur := ⟨k, 7⟩ }) := by
    have h := runOps_nops k (n + 1) (7 - n) [] v
    rw [List.append_nil] at h
    rw [h, runOps]
    by_cases h7 : n = 7
    · subst h7
      rfl
    · rw [if_neg (by omega), if_neg h7, show n + 1 + (7 - n) - 1 = 7 by omega]
  rw [loneOps, runOps_nops]
  unfold runOps
  rw [show runOp k { s with cur := if n = 0 then s.cur else ⟨k, 0 + n - 1⟩ } (n, i) = .next u from hu]
  exact hlast _

/-- What a bundle's operations leave of the binding of their core, once their bounds are noted. -/
theorem core_noted_binding (k n : Nat) (s u : State) :
    ((State.noted k n s u).core k).part = (u.core k).part ∧ ((State.noted k n s u).core k).launch = (u.core k).launch := by
  unfold State.noted
  dsimp only
  split
  · exact ⟨rfl, rfl⟩
  · rw [core_setCore_same]
    exact ⟨rfl, rfl⟩

/-! ### The bundle once it has issued -/

theorem finishBundle_runs (hill : s.ill = none) (htrap : firstTrap k s s.ops = none) (hrun : runOps k s.ops s = .next v) :
    finishBundle k s = .next { setBarriers v (v.core k).part (v.core k).launch with ops := [], ill := none } := by
  unfold finishBundle
  rw [hill, htrap, hrun]
theorem finishBundle_traps (hill : s.ill = none) (htrap : firstTrap k s s.ops = some (n, u)) :
    finishBundle k s = .next { u with ops := [], ill := none } := by
  unfold finishBundle
  rw [hill, htrap]
theorem finishBundle_illegal {code : Nat} (hill : s.ill = some (n, code)) (htrap : firstTrap k s s.ops = none) :
    finishBundle k s = .next { s.takeTrap k n 1 code with ops := [], ill := none } := by
  unfold finishBundle
  rw [hill, htrap]

theorem runBundle_issues (h : exec (.bundleIssue k) s = .next t) (hrun : (t.core k).st = .running) : runBundle k s = finishBundle k t := by
  unfold runBundle
  rw [show execBundleIssue k s = .next t from h]
  exact if_pos hrun

/-- A bundle of which one slot n holds something, when it is to issue. -/
structure LoneBundle (s : State) (k n : Nat) : Prop where
  may : MayIssue (s.core k)
  wait : (s.core k).wait = none
  budget : (s.core k).budget ≠ 0
  pc : (s.core k).pc < (s.core k).nbundles
  xnop : (s.core k).xnop = false
  slot : n < 8
  zero : ∀ m, m < 8 → m ≠ n → s.slotWordAt k (s.core k).pc m = 0

theorem LoneBundle.issued (h : LoneBundle s k n) (ht : exec (.bundleIssue k) s = .next t) : t = issuedState s k ∧ runBundle k s = finishBundle k t := by
  have hissued : t = issuedState s k := by
    rw [bundleIssue_issues h.may h.wait h.budget h.pc] at ht
    exact (Host.Outcome.next.inj ht).symm
  refine ⟨hissued, runBundle_issues ht ?_⟩
  rw [hissued, core_issuedState_same]
  exact (advance_keeps (s.core k).snapshot _).1.trans h.may.running

theorem st_issuedState (h : (s.core k).st = .running) : ((issuedState s k).core k).st = .running := by
  rw [core_issuedState_same]
  exact (advance_keeps (s.core k).snapshot _).1.trans h

theorem LoneBundle.runs (h : LoneBundle s k n) (ht : exec (.bundleIssue k) s = .next t)
    (hi : decodeWord (slotClass n) (s.slotWordAt k (s.core k).pc n) = .ok i)
    (hct : isTransfer i = false ∨ ((s.core k).ct1 = false ∧ (s.core k).ct2 = false)) (hu : exec i { t with cur := ⟨k, n⟩ } = .next u) :
    ((u.core k).st ≠ .halted → runBundle k s = .next { setBarriers (if n = 7 then State.noted k n t u else { State.noted k n t u with cur := ⟨k, 7⟩ })
      (u.core k).part (u.core k).launch with ops := [], ill := none }) ∧
    ((u.core k).st = .halted → runBundle k s = .next { u with ops := [], ill := none }) := by
  obtain ⟨hissued, hrun⟩ := h.issued ht
  have hfetch := fetch_eq_loneSlots h.slot h.xnop h.zero
  rw [hi] at hfetch
  have hops : t.ops = loneOps n i := by
    rw [hissued]
    exact (congrArg goodSlots hfetch).trans (goodSlots_loneSlots_ok n i)
  have hill : t.ill = none := by
    rw [hissued]
    exact (congrArg (illegalSlot (s.core k)) hfetch).trans (illegalSlot_loneSlots_ok n hct)
  have hst : (t.core k).st = .running := hissued ▸ st_issuedState h.may.running
  rw [hrun]
  refine ⟨fun hgo => ?_, fun hhalt => ?_⟩
  · have hfinish := finishBundle_runs hill (hops ▸ firstTrap_loneOps_none hst hu hgo) (hops ▸ runOps_loneOps h.slot hu)
    have hcore : (if n = 7 then State.noted k n t u else { State.noted k n t u with cur := ⟨k, 7⟩ }).core k = (State.noted k n t u).core k := by
      split
      · rfl
      · rfl
    obtain ⟨hpart, hlaunch⟩ := core_noted_binding k n t u
    rw [hcore, hpart, hlaunch] at hfinish
    exact hfinish
  · exact finishBundle_traps hill (hops ▸ firstTrap_loneOps_halted hst hu hhalt)

theorem LoneBundle.illegal {y : Ill} (h : LoneBundle s k n) (ht : exec (.bundleIssue k) s = .next t)
    (hy : decodeWord (slotClass n) (s.slotWordAt k (s.core k).pc n) = .error y) :
    runBundle k s = .next { t.takeTrap k n 1 y.code with ops := [], ill := none } := by
  obtain ⟨hissued, hrun⟩ := h.issued ht
  have hfetch := fetch_eq_loneSlots h.slot h.xnop h.zero
  rw [hy] at hfetch
  have hops : t.ops = nops 0 n ++ nops (n + 1) (7 - n) := by
    rw [hissued]
    exact (congrArg goodSlots hfetch).trans (goodSlots_loneSlots_error n y)
  have hill : t.ill = some (n, y.code) := by
    rw [hissued]
    exact (congrArg (illegalSlot (s.core k)) hfetch).trans (illegalSlot_loneSlots_error _ n y)
  have hst : (t.core k).st = .running := hissued ▸ st_issuedState h.may.running
  rw [hrun]
  refine finishBundle_illegal hill ?_
  rw [hops, firstTrap_nops hst, firstTrap_nops_nil hst]

end

/-! ### Events (R82, R227, R336) -/

section
variable {s : State} {e : Ev} {i : Instr} {k : Nat}

theorem runEvent_keptIfHalted (h : isEvent e i) (hk : keptIfHalted e = some k) : runEvent e s = unlessHalted k (exec i) s := by
  cases e with
  | coreExitTick | beatSourceRead | indexEntryRead | beatRelease | cplSourceRead | cplDestWrite | sendBeatRead | lateBeatCheck | wportBeatConsume
  | virtLookup | sealDescriptorCheck =>
    cases h
    cases hk
    rfl
  | _ => cases hk

theorem runEvent_keptIfTraps (h : isEvent e i) (hk : keptIfTraps e = some k) : runEvent e s = unlessTrap k (exec i) s := by
  cases e with
  | messageArrival | tbumpEffect | tcommitEffect | tdigEffect | krotEffect =>
    cases h
    cases hk
    rfl
  | _ => cases hk

/-- An event that no trap of its tick keeps for the resume runs as its instruction; a bundle and a lease decision have more to do. -/
theorem runEvent_notKept (h : isEvent e i) (hbundle : ∀ k, e ≠ .bundleIssue k) (hgrant : ∀ u, e ≠ .leaseGrant u) (hhalted : keptIfHalted e = none)
    (htraps : keptIfTraps e = none) : runEvent e s = exec i s := by
  cases e with
  | bundleIssue k => exact absurd rfl (hbundle k)
  | leaseGrant u => exact absurd rfl (hgrant u)
  | coreExitTick | beatSourceRead | indexEntryRead | beatRelease | cplSourceRead | cplDestWrite | sendBeatRead | lateBeatCheck | wportBeatConsume
  | virtLookup | sealDescriptorCheck => cases hhalted
  | messageArrival | tbumpEffect | tcommitEffect | tdigEffect | krotEffect => cases htraps
  | operandRead | digestRead | startEnd => exact h.elim
  | _ =>
    cases h
    rfl

theorem keptIfTraps_of_keptIfHalted (hk : keptIfHalted e = some k) : keptIfTraps e = none := by
  cases e with
  | coreExitTick | beatSourceRead | indexEntryRead | beatRelease | cplSourceRead | cplDestWrite | sendBeatRead | lateBeatCheck | wportBeatConsume
  | virtLookup | sealDescriptorCheck => rfl
  | _ => cases hk

theorem unlessTrap_willTrap {f : State → Out} {u : State} (hu : f s = .next u) (h : willTrap u k = true) : unlessTrap k f s = .next s := by
  unfold unlessTrap
  rw [hu]
  exact if_pos h
theorem unlessTrap_not {f : State → Out} (h : ¬ ∃ u, f s = .next u ∧ willTrap u k = true) : unlessTrap k f s = f s := by
  unfold unlessTrap
  split
  · rename_i u hu
    exact (if_neg fun htrap => h ⟨u, hu, htrap⟩).trans hu.symm
  · rfl

/-- An event runs as its instruction, unless its core freezes at its own trap in this tick. -/
theorem runEvent_eq (h : isEvent e i) (hbundle : ∀ k, e ≠ .bundleIssue k) (hgrant : ∀ u, e ≠ .leaseGrant u) (s : State) :
    let kept := (∃ k, keptIfHalted e = some k ∧ (s.core k).st = .halted) ∨ ∃ k u, keptIfTraps e = some k ∧ exec i s = .next u ∧ willTrap u k = true
    (¬ kept → runEvent e s = exec i s) ∧ (kept → runEvent e s = .next s) := by
  intro kept
  cases hhalted : keptIfHalted e with
  | some k =>
    have htraps := keptIfTraps_of_keptIfHalted hhalted
    rw [runEvent_keptIfHalted h hhalted]
    refine ⟨fun hnot => if_neg fun hst => hnot (.inl ⟨k, hhalted, hst⟩), fun hkept => ?_⟩
    rcases hkept with ⟨j, hj, hst⟩ | ⟨j, u, hj, -⟩
    · cases hhalted.symm.trans hj
      exact if_pos hst
    · cases htraps.symm.trans hj
  | none =>
    cases htraps : keptIfTraps e with
    | some k =>
      rw [runEvent_keptIfTraps h htraps]
      refine ⟨fun hnot => unlessTrap_not fun ⟨u, hu, htrap⟩ => hnot (.inr ⟨k, u, htraps, hu, htrap⟩), fun hkept => ?_⟩
      rcases hkept with ⟨j, hj, -⟩ | ⟨j, u, hj, hu, htrap⟩
      · cases hhalted.symm.trans hj
      · cases htraps.symm.trans hj
        exact unlessTrap_willTrap hu htrap
    | none =>
      refine ⟨fun _ => runEvent_notKept h hbundle hgrant hhalted htraps, fun hkept => ?_⟩
      rcases hkept with ⟨j, hj, -⟩ | ⟨j, u, hj, -⟩
      · cases hhalted.symm.trans hj
      · cases htraps.symm.trans hj

end

/-! ### Steps -/

section
variable {s : State} {n : Nat}

theorem step_agenda {e : Ev} {rest : List Ev} (hp : s.power = true) (ha : s.agenda = e :: rest) :
    step s = settled s (runEvent e { s with agenda := rest }) := by
  unfold step
  rw [if_pos hp, ha]

theorem step_clock (hp : s.power = true) (ha : s.agenda = []) : step s = stepClock s := by
  unfold step
  rw [if_pos hp, ha]

theorem step_checks (hp : s.power = true) (ha : s.agenda = []) (hph : s.phase = 0) (h : ∃ c ∈ s.checks, c.1 ≤ s.epoch) :
    step s = settled s (.next s.runChecks) := by
  have hany : (s.checks.any fun e => decide (e.1 ≤ s.epoch)) = true := by simpa using h
  rw [step_clock hp ha, stepClock, hph]
  exact if_pos hany

theorem step_due {o : Out} (hp : s.power = true) (ha : s.agenda = []) (hph : s.phase = 0) (hchecks : ∀ c ∈ s.checks, s.epoch < c.1)
    (ho : s.nextDue = some o) : step s = settled s o := by
  have hany : ¬ (s.checks.any fun e => decide (e.1 ≤ s.epoch)) = true := by simpa using hchecks
  rw [step_clock hp ha, stepClock, hph, if_neg hany, ho]
  rfl

theorem step_lateLink {i : Instr} {rest : List (Nat × Instr)} (hp : s.power = true) (ha : s.agenda = []) (hph : s.phase = 3)
    (h : s.lateLink = some (i, rest)) : step s = settled s (exec i { s with inputs := rest }) := by
  rw [step_clock hp ha, stepClock, hph, h]
  rfl

/-- The first rank that answers decides. -/
theorem findSome_range {α : Type} {f : Nat → Option α} {N : Nat} {x : α} (hn : n < N) (hbelow : ∀ m, m < n → f m = none) (hx : f n = some x) :
    (List.range N).findSome? f = some x := by
  refine List.findSome?_eq_some_iff.mpr ⟨List.range n, n, (List.range (N - n - 1)).map fun j => n + (j + 1), ?_, hx, fun m hm => hbelow m (List.mem_range.mp hm)⟩
  rw [show N = n + (N - n - 1 + 1) by omega, List.range_add, List.range_succ_eq_map, List.map_cons, List.map_map]
  simp only [Nat.add_sub_cancel_left, Nat.add_sub_cancel, Nat.add_zero]
  rfl

theorem nextDue_event {e : Ev} {rest : List (Nat × Ev)} (hn : n < 5) (hnone : noneBelow s n)
    (he : dueHead s.wtime (fun e => eventRank e == n) s.events = some (e, rest)) : s.nextDue = some (runEvent e { s with events := rest }) := by
  refine findSome_range hn (fun m hm => ?_) ?_
  · obtain ⟨hevents, hinputs⟩ := hnone m hm
    simp only [hevents, hinputs, Option.map_none]
  · simp only [he]

theorem nextDue_input {i : Instr} {rest : List (Nat × Instr)} (hn : n < 5) (hnone : noneBelow s n)
    (he : dueHead s.wtime (fun e => eventRank e == n) s.events = none) (hi : s.inputOf n = some (i, rest)) :
    s.nextDue = some (exec i { s with inputs := rest }) := by
  refine findSome_range hn (fun m hm => ?_) ?_
  · obtain ⟨hevents, hinputs⟩ := hnone m hm
    simp only [hevents, hinputs, Option.map_none]
  · simp only [he, hi, Option.map_some]

/-- The event of a step that is no bundle and no lease decision: the head of the agenda, or the first that is due in wall time. -/
theorem step_event {e : Ev} {s0 : State} (hp : s.power = true)
    (hat : (∃ rest, s.agenda = e :: rest ∧ s0 = { s with agenda := rest }) ∨
      (s.agenda = [] ∧ s.phase = 0 ∧ (∀ c ∈ s.checks, s.epoch < c.1) ∧
        ∃ n rest, n < 5 ∧ noneBelow s n ∧ dueHead s.wtime (fun e => eventRank e == n) s.events = some (e, rest) ∧ s0 = { s with events := rest })) :
    step s = settled s (runEvent e s0) ∧ ∀ k, s0.core k = s.core k := by
  rcases hat with ⟨rest, ha, rfl⟩ | ⟨ha, hph, hchecks, n, rest, hn, hnone, he, rfl⟩
  · exact ⟨step_agenda hp ha, fun _ => rfl⟩
  · exact ⟨step_due hp ha hph hchecks (nextDue_event hn hnone he), fun _ => rfl⟩

end

/-- Settles O57: a bundle with one operation is `LoneBundle.runs`, an event `runEvent_eq`, and the order of a wall tick `step_due`. -/
theorem stepRunsTheDecodedInstruction : Obligations.StepRunsTheDecodedInstruction := by
  unfold Obligations.StepRunsTheDecodedInstruction
  intro s hp
  refine ⟨fun k n rest t ha hn hrun hdue hexit hwait hbudget hpc hxnop hzero ht => ?_, fun e i s0 he hbundle hgrant hat => ?_, fun i rest ha =>
    ⟨fun hph hchecks n hn hnone hevents hi => step_due hp ha hph hchecks (nextDue_input hn hnone hevents hi), fun hph => step_lateLink hp ha hph⟩,
    step_checks hp⟩
  · have hlone : LoneBundle { s with agenda := rest } k n := ⟨⟨hrun, hdue, hexit⟩, hwait, hbudget, hpc, hxnop, hn, hzero⟩
    have hstep : step s = settled s (runBundle k { s with agenda := rest }) := step_agenda hp ha
    rw [hstep]
    refine ⟨fun i hi hct u hu => ?_, fun y hy => congrArg (settled s) (hlone.illegal ht hy)⟩
    obtain ⟨hgo, hhalt⟩ := hlone.runs ht hi hct hu
    exact ⟨fun hst => congrArg (settled s) (hgo hst), fun hst => congrArg (settled s) (hhalt hst)⟩
  · obtain ⟨hstep, hcore⟩ := step_event hp hat
    obtain ⟨hgo, hkept⟩ := runEvent_eq he hbundle hgrant s0
    simp only [hcore] at hgo hkept
    rw [hstep]
    exact ⟨fun hnot => congrArg (settled s) (hgo hnot), fun hk => congrArg (settled s) (hkept hk)⟩

end Sys2Proof.Proofs
end

section
/-! PROOFS. The start and the end of a launch (O40): what changes core by core and unit by unit, and that a launch that has retired is gone from its partition,
whatever the completion writes (R86, R186, R270, R278, R279). -/
namespace Sys2Proof.Proofs
open Sys2Proof.Machine Sys2Proof.Laws Sys2Proof.Claims

/-! ### Cores and units changed one by one -/

/-- A change that is made to each core of a list, and made twice changes no more than once. -/
theorem core_foldl {f : Core → Core} {g : State → Nat → State} {s : State} (hf : ∀ c, f (f c) = f c) (hparts : ∀ t k, (g t k).parts = t.parts)
    (hg : ∀ t k, t.parts = s.parts → ∀ j, (g t k).core j = if j = k then f (t.core j) else t.core j) (ks : List Nat) (j : Nat) :
    (ks.foldl g s).core j = if j ∈ ks then f (s.core j) else s.core j := by
  induction ks generalizing s with
  | nil => rfl
  | cons k ks ih =>
    rw [List.foldl_cons, ih fun t i ht => hg t i (ht.trans (hparts s k)), hg s k rfl]
    by_cases hk : j = k
    · subst hk
      simp [hf]
    · simp [hk]

theorem core_setCore_eq (s : State) (k j : Nat) (c : Core) : (s.setCore k c).core j = if j = k then c else s.core j := by
  split
  · subst_vars
    exact core_setCore_same ..
  · exact core_setCore_other s c ‹_›

theorem unit_modUnit (s : State) (w u : Nat) (f : MUnit → MUnit) : (s.modUnit w f).unit u = if u = w then f (s.unit u) else s.unit u := by
  unfold State.unit State.modUnit
  split
  · subst_vars
    rw [find_put_same]
    rfl
  · rw [find_put_other _ _ ‹_›]

theorem find_del_same {α : Type} (t : Tab α) (k : Nat) : Tab.find (Tab.del t k) k = none := by
  induction t with
  | nil => rfl
  | cons e t ih =>
    unfold Tab.del
    split
    · exact ih
    · rename_i h
      exact (if_neg h).trans ih

/-! ### Start -/

section
variable {p l : Nat} {s : State} {q : Part} {y : Launch} {x : Ctx}

/-- The units of the launch, FREE with the last holder 3 (R186). -/
def freeUnits (s : State) (ks : List Nat) : State := ks.foldl (fun s k => s.modUnit (unitOf k) fun u => { MUnit.reset with active := u.active }) s
/-- A member of launch l as its start leaves it. -/
def startMember (l : Nat) (c : Core) : Core := if c.st = .bound ∧ c.launch = l then { c with st := .running } else c
/-- The members of launch l, started (R270). -/
def startMembers (l : Nat) (s : State) (ks : List Nat) : State :=
  ks.foldl (fun s k => let c := s.core k; if c.st = .bound ∧ c.launch = l then s.setCore k { c with st := .running } else s) s

theorem unit_freeUnits (s : State) (ks : List Nat) (u : Nat) :
    (freeUnits s ks).unit u = if u ∈ ks.map unitOf then { MUnit.reset with active := (s.unit u).active } else s.unit u := by
  unfold freeUnits
  induction ks generalizing s with
  | nil => rfl
  | cons k ks ih =>
    rw [List.foldl_cons, ih, unit_modUnit]
    by_cases hk : u = unitOf k
    · simp [hk]
    · simp [hk]

theorem freeUnits_keeps (s : State) (ks : List Nat) : (freeUnits s ks).cores = s.cores ∧ (freeUnits s ks).parts = s.parts ∧ (freeUnits s ks).mem = s.mem :=
  List.foldlRecOn (motive := fun (t : State) => t.cores = s.cores ∧ t.parts = s.parts ∧ t.mem = s.mem) _ _ ⟨rfl, rfl, rfl⟩ fun _ ht _ _ => ht

theorem startMembers_keeps (l : Nat) (s : State) (ks : List Nat) :
    (startMembers l s ks).units = s.units ∧ (startMembers l s ks).parts = s.parts ∧ (startMembers l s ks).mem = s.mem := by
  refine List.foldlRecOn (motive := fun (t : State) => t.units = s.units ∧ t.parts = s.parts ∧ t.mem = s.mem) _ _ ⟨rfl, rfl, rfl⟩ fun t ht k _ => ?_
  dsimp only
  split
  · exact ht
  · exact ht

theorem startMember_idem (l : Nat) (c : Core) : startMember l (startMember l c) = startMember l c := by
  by_cases h : c.st = .bound ∧ c.launch = l
  · have hstarted : startMember l c = { c with st := .running } := if_pos h
    rw [hstarted]
    exact if_neg fun h' => CoreSt.noConfusion h'.1
  · have hkept : startMember l c = c := if_neg h
    rw [hkept, hkept]

theorem core_startMembers (l : Nat) (s : State) (ks : List Nat) (j : Nat) :
    (startMembers l s ks).core j = if j ∈ ks then startMember l (s.core j) else s.core j := by
  refine core_foldl (startMember_idem l) (fun t k => ?_) (fun t k _ i => ?_) ks j
  · dsimp only
    split
    · rfl
    · rfl
  · dsimp only
    unfold startMember
    split
    · rw [core_setCore_eq]
      by_cases hi : i = k
      · subst hi
        rw [if_pos rfl, if_pos rfl, if_pos ‹_›]
      · rw [if_neg hi, if_neg hi]
    · by_cases hi : i = k
      · subst hi
        rw [if_pos rfl, if_neg ‹_›]
      · rw [if_neg hi]

theorem launch_of_find (hq : Tab.find s.parts p = some q) (l : Nat) : s.launch p l = Tab.find q.launches l := by rw [State.launch, part_of_find hq]

theorem launchStart_next (hq : Tab.find s.parts p = some q) (hy : Tab.find q.launches l = some y) (hx : Tab.find q.ctxs y.asid = some x)
    (hnew : y.running = false) (hheld : q.held = false) (hstart : y.start ≤ q.stime) (hst : x.st = .active)
    (hfrozen : ∀ j ∈ y.members, (s.core j).ftick + x.ctoff ≤ q.stime) :
    ∃ t, exec (.launchStart p l) s = .next t ∧ (∃ y', t.launch p l = some y' ∧ y'.running = true) ∧ t.mem = s.mem ∧
      (∀ j, t.core j = if j ∈ y.members ∧ (s.core j).st = .bound ∧ (s.core j).launch = l then { s.core j with st := .running } else s.core j) ∧
      ∀ u, t.unit u = if u ∈ y.members.map unitOf then { MUnit.reset with active := (s.unit u).active } else s.unit u := by
  have hlaunch : s.launch p l = some y := (launch_of_find hq l).trans hy
  have hnow : s.startsNow p y = true := by
    unfold State.startsNow
    rw [part_of_find hq, ctx_of_find hq, hx, hnew, hheld, Option.any_some, hst, decide_eq_true hstart]
    simpa using hfrozen
  let s1 := s.modLaunch p l fun y => { y with running := true }
  have hexec : exec (.launchStart p l) s = .next (startMembers l (freeUnits s1 y.members) y.members) := by
    rw [exec_launchStart, execLaunchStart, hlaunch]
    exact if_pos hnow
  obtain ⟨hunits, hparts, hmem⟩ := startMembers_keeps l (freeUnits s1 y.members) y.members
  obtain ⟨hcores', hparts', hmem'⟩ := freeUnits_keeps s1 y.members
  refine ⟨_, hexec, ⟨{ y with running := true }, ?_, rfl⟩, hmem.trans hmem', fun j => ?_, fun u => ?_⟩
  · have hrunning := launch_modLaunch s p l fun y => { y with running := true }
    rw [hlaunch] at hrunning
    unfold State.launch State.part
    rw [hparts, hparts']
    exact hrunning
  · have hcore : (freeUnits s1 y.members).core j = s.core j := by
      unfold State.core
      rw [hcores']
      rfl
    rw [core_startMembers, hcore, startMember]
    simp only [ite_and]
  · have hunit : (startMembers l (freeUnits s1 y.members) y.members).unit u = (freeUnits s1 y.members).unit u := by
      unfold State.unit
      rw [hunits]
    rw [hunit]
    exact unit_freeUnits s1 y.members u

/-! ### Retirement -/

/-- Launch l stands in the partition no more. -/
def NoLaunch (l : Nat) (q : Part) : Prop := Tab.find q.launches l = none

theorem PartHas.mapped {C : Part → Prop} {t : State} (h : PartHas p C s) (hst : Mapped (fun q r => C q → C r) s.parts t.parts) : PartHas p C t := by
  obtain ⟨q, hq, hc⟩ := h
  obtain ⟨r, hr, hqr⟩ := hst.find hq
  exact ⟨r, hr, hqr hc⟩
theorem PartHas.ite {C : Part → Prop} {c : Prop} [Decidable c] {t : State} (hs : PartHas p C s) (ht : PartHas p C t) : PartHas p C (if c then s else t) := by
  split
  · exact hs
  · exact ht
/-- A change of any partition that keeps C. -/
theorem PartHas.modAny {C : Part → Prop} (h : PartHas p C s) (j : Nat) {f : Part → Part} (hf : ∀ q, C q → C (f q)) : PartHas p C (s.modPart j f) :=
  h.mapped (mapped_upd (fun _ => id) hf _)

/-- A key that a table does not hold is in no table with the same keys. -/
theorem find_map_none {α : Type} (f : α → α) (k : Nat) (t : Tab α) (h : Tab.find t k = none) : Tab.find (t.map fun e => (e.1, f e.2)) k = none := by
  induction t with
  | nil => rfl
  | cons e t ih =>
    unfold Tab.find at h
    split at h
    · cases h
    · exact (if_neg ‹_›).trans (ih h)

theorem noLaunch_mapLaunches (f : Launch → Launch) {q : Part} (h : NoLaunch l q) : NoLaunch l (q.mapLaunches f) := find_map_none f l q.launches h

theorem PartHas.modCtx {C : Part → Prop} (h : PartHas p C s) (j a : Nat) (f : Ctx → Ctx) (hf : ∀ q c, C q → C { q with ctxs := c }) :
    PartHas p C (s.modCtx j a f) := h.modAny j fun q => hf q _

theorem noLaunch_masterKey (h : PartHas p (NoLaunch l) s) (q : Part) (e : Nat × Byte) : PartHas p (NoLaunch l) (State.masterKey q s e) := by
  unfold State.masterKey
  dsimp only
  split
  · exact h.of_parts rfl
  · refine h.mapped (mapped_map (fun z => ?_) _)
    split
    · exact ⟨rfl, noLaunch_mapLaunches _⟩
    · exact ⟨rfl, id⟩

theorem noLaunch_lineWritten (h : PartHas p (NoLaunch l) s) (q : Part) (addr : Nat) : PartHas p (NoLaunch l) (s.lineWritten q addr) := by
  have hspoil : PartHas p (NoLaunch l) (s.spoil q false (q.pdie (homedie q.logN addr).1) (homedie q.logN addr).2) := by
    unfold State.spoil
    refine h.foldl fun t z ht => ht.foldl fun u e hu => ?_
    split
    · exact hu.modCtx z.1 e.1 (fun x => { x with spoiled := true }) fun _ _ hr => hr
    · exact hu
  exact hspoil.ite (hspoil.of_parts rfl)

theorem noLaunch_devStore (h : PartHas p (NoLaunch l) s) (q : Part) (addr n v : Nat) : PartHas p (NoLaunch l) (s.devStore q addr n v) :=
  (h.foldl fun _ _ ht => noLaunch_masterKey ht ..).foldl fun _ _ ht => (noLaunch_lineWritten ht ..).ite ht

/-- A completion is written to its slot, or its queue is changed. -/
theorem complete_cases {C : State → Prop} {s : State} {p asid n base log2n index tag status start : Nat}
    (hwritten : ∀ addr v, C (s.devStore (s.part p) addr 16 v)) (hfaulted : ∀ g : Tab Queue → Tab Queue, C (s.modPart p fun q => { q with queues := g q.queues })) :
    C (s.complete p asid n base log2n index tag status start) := by
  unfold State.complete
  dsimp only
  split
  · exact hwritten ..
  · exact hfaulted fun t => Tab.upd t n _

theorem noLaunch_complete (h : PartHas p (NoLaunch l) s) (j asid n base log2n index tag status start : Nat) :
    PartHas p (NoLaunch l) (s.complete j asid n base log2n index tag status start) :=
  complete_cases (fun _ _ => noLaunch_devStore h ..) fun _ => h.modAny j fun _ hr => hr

theorem complete_cores (s : State) (j asid n base log2n index tag status start : Nat) : (s.complete j asid n base log2n index tag status start).cores = s.cores :=
  complete_cases (C := fun t => t.cores = s.cores) (fun _ _ => (stored_devStore ..).cores) fun _ => rfl

theorem unreadBy_cores (s : State) (j asid base log2n index : Nat) (mets : List (Tab Bool)) : (s.unreadBy j asid base log2n index mets).cores = s.cores := rfl

theorem cleared_cleared (c : Core) : c.cleared.cleared = c.cleared := by
  unfold Core.cleared
  dsimp only
  congr 1
  split
  · rfl
  · rfl
theorem retired_retired (c : Core) : c.retired.retired = c.retired := by
  unfold Core.retired Core.cleared
  dsimp only
  congr 1
  split
  · rfl
  · rfl

/-- The state in which launch l of partition p has left, and its members with it (R279). -/
def retireLaunch (s : State) (p l : Nat) (ks : List Nat) : State :=
  ks.foldl (fun s k => s.setCore k (s.core k).retired) (s.modPart p fun q => { q with launches := Tab.del q.launches l })

theorem retireLaunch_keeps (s : State) (p l : Nat) (ks : List Nat) :
    (retireLaunch s p l ks).parts = (s.modPart p fun q => { q with launches := Tab.del q.launches l }).parts ∧ (retireLaunch s p l ks).mem = s.mem :=
  List.foldlRecOn (motive := fun (t : State) => t.parts = _ ∧ t.mem = s.mem) _ _ ⟨rfl, rfl⟩ fun _ ht _ _ => ht

theorem core_retireLaunch (s : State) (p l : Nat) (ks : List Nat) (j : Nat) :
    (retireLaunch s p l ks).core j = if j ∈ ks then (s.core j).retired else s.core j := by
  refine core_foldl (g := fun s k => s.setCore k (s.core k).retired) retired_retired (fun _ _ => rfl) (fun t k _ i => ?_) ks j
  rw [core_setCore_eq]
  split
  · subst_vars
    rfl
  · rfl

theorem noLaunch_retireLaunch (hq : Tab.find s.parts p = some q) (l : Nat) (ks : List Nat) : PartHas p (NoLaunch l) (retireLaunch s p l ks) := by
  refine ⟨{ q with launches := Tab.del q.launches l }, ?_, find_del_same q.launches l⟩
  rw [(retireLaunch_keeps s p l ks).1]
  exact find_modPart_of_find hq _

theorem launch_none_of_noLaunch (h : PartHas p (NoLaunch l) s) : s.launch p l = none := by
  obtain ⟨q, hq, hl⟩ := h
  exact (launch_of_find hq l).trans hl

/-- Where no fault of a copy of these cores is to be found, finding them changes nothing. -/
theorem findFaults_none {ks : List Nat} (h : ∀ e ∈ s.events, ∀ k st id b c i, e.2 = .copyFault k st id b c i → k ∉ ks) : s.findFaults ks = s := by
  let mine := fun (e : Nat × Ev) => match e.2 with | .copyFault k _ _ _ _ _ => ks.contains k | _ => false
  have hmine : ∀ e ∈ s.events, mine e = false := by
    intro e he
    by_contra hc
    dsimp only [mine] at hc
    split at hc
    · rename_i k st id b c i heq
      exact h e he k st id b c i heq (by simpa using hc)
    · exact hc rfl
  have hnone : s.events.filter mine = [] := List.filter_eq_nil_iff.mpr fun e he => by simp [hmine e he]
  have hall : (s.events.filter fun e => !mine e) = s.events := List.filter_eq_self.mpr fun e he => by simp [hmine e he]
  have hfind : s.findFaults ks = (s.events.filter mine).foldl (fun s e => match e.2 with
      | .copyFault k st id b cause info => s.copyFaultAt k st id b cause info (s.tick k) false
      | _ => s) { s with events := s.events.filter fun e => !mine e } := rfl
  rw [hfind, hnone, hall]
  rfl

/-- A copy whose last tick and source windows have passed is over, stopped or not. -/
theorem over_of_past {e : Copy} {t : Nat} (hlast : e.last ≤ t) (hwindow : e.reads = 0 ∨ (e.window (e.reads - 1)).2 ≤ t) : e.over t = true := by
  unfold Copy.over
  split
  · simp [hlast]
  · simpa [hlast] using hwindow

/-- A core that has left launch l by EXIT, with nothing of its kept copies to come. -/
def LeftLaunch (l : Nat) (s : State) (j : Nat) : Prop :=
  let c := s.core j
  c.exit.isSome = true ∧ c.st = .idle ∧ c.launch = l ∧ ∀ e ∈ c.ca.copies ++ c.cb.copies, e.last ≤ s.now c ∧ (e.reads = 0 ∨ (e.window (e.reads - 1)).2 ≤ s.now c)

theorem retires_of_left (hq : Tab.find s.parts p = some q) (hx : Tab.find q.ctxs y.asid = some x) (hrun : y.running = true)
    (hst : x.st = .active ∨ x.st = .ready) (hleft : ∀ j ∈ y.members, LeftLaunch l s j) : s.retires p y l = true := by
  unfold State.retires
  rw [hrun, ctx_of_find hq, hx, Option.any_some, Bool.true_and, Bool.and_eq_true, List.all_eq_true]
  refine ⟨by simpa using hst, fun j hj => ?_⟩
  obtain ⟨hexit, hidle, hl, hcopies⟩ := hleft j hj
  have hover (st : Stream) (hsub : ∀ e ∈ st.copies, e ∈ (s.core j).ca.copies ++ (s.core j).cb.copies) : st.over (s.now (s.core j)) = true :=
    List.all_eq_true.mpr fun e he => over_of_past (hcopies e (hsub e he)).1 (hcopies e (hsub e he)).2
  simp only [Core.gone, hexit, hidle, hl, hover _ fun e he => List.mem_append_left _ he, hover _ fun e he => List.mem_append_right _ he, beq_self_eq_true, Bool.and_self]

theorem launchRetire_eq (hq : Tab.find s.parts p = some q) (hy : Tab.find q.launches l = some y) (hx : Tab.find q.ctxs y.asid = some x)
    (hrun : y.running = true) (hst : x.st = .active ∨ x.st = .ready) (hleft : ∀ j ∈ y.members, LeftLaunch l s j)
    (hfaults : ∀ e ∈ s.events, ∀ k st id b c i, e.2 = .copyFault k st id b c i → k ∉ y.members) :
    exec (.launchRetire p l) s = match y.graph with
      | none => .next (((retireLaunch s p l y.members).complete p y.asid y.queue y.base y.log2n y.index y.tag 0 y.start).unreadBy p y.asid y.base y.log2n y.index
          [y.met])
      | some g => .next ((retireLaunch s p l y.members).modPart p fun r => { r with graphs := Tab.upd r.graphs g fun z =>
          if z.st = .launched then { z with st := .reached, node := z.next, at' := q.stime - x.ctoff + 1, met := y.met :: z.met } else z }) := by
  have hretires : s.retires p y l = true := retires_of_left hq hx hrun hst hleft
  have hctx : s.ctx p y.asid = some x := (ctx_of_find hq y.asid).trans hx
  have hlives : (x.st == CtxSt.teardown) = false := by rcases hst with h | h <;> rw [h] <;> rfl
  rw [exec_launchRetire, execLaunchRetire, (launch_of_find hq l).trans hy]
  dsimp only
  rw [if_pos hretires, findFaults_none hfaults, hctx, Option.any_some, hlives, if_neg Bool.false_ne_true, part_of_find hq]
  cases y.graph with
  | none => rfl
  | some g => rfl

theorem noLaunch_unreadBy (h : PartHas p (NoLaunch l) s) (asid base log2n index : Nat) (mets : List (Tab Bool)) :
    PartHas p (NoLaunch l) (s.unreadBy p asid base log2n index mets) := h.modAny p fun _ hr => hr

theorem exit_retired (c : Core) : c.retired.exit = none := rfl
theorem launch_retired (c : Core) : c.retired.launch = Core.reset.launch := rfl

/-- The cores as the retirement of launch l leaves them. -/
theorem cores_of_retired {t : State} {ks : List Nat} (ht : t.cores = (retireLaunch s p l ks).cores) :
    (∀ j ∈ ks, (t.core j).launch = Core.reset.launch ∧ (t.core j).exit = none) ∧ ∀ j, j ∉ ks → t.core j = s.core j := by
  have hcore (j : Nat) : t.core j = if j ∈ ks then (s.core j).retired else s.core j := by
    rw [← core_retireLaunch s p l ks j, State.core, ht]
    rfl
  refine ⟨fun j hj => ?_, fun j hj => (hcore j).trans (if_neg hj)⟩
  rw [(hcore j).trans (if_pos hj)]
  exact ⟨launch_retired _, exit_retired _⟩

theorem launchRetire_next (hq : Tab.find s.parts p = some q) (hy : Tab.find q.launches l = some y) (hx : Tab.find q.ctxs y.asid = some x)
    (hrun : y.running = true) (hst : x.st = .active ∨ x.st = .ready) (hleft : ∀ j ∈ y.members, LeftLaunch l s j)
    (hfaults : ∀ e ∈ s.events, ∀ k st id b c i, e.2 = .copyFault k st id b c i → k ∉ y.members) :
    ∃ t, exec (.launchRetire p l) s = .next t ∧ t.launch p l = none ∧
      (∀ j ∈ y.members, (t.core j).launch = Core.reset.launch ∧ (t.core j).exit = none) ∧ (∀ j, j ∉ y.members → t.core j = s.core j) ∧
      ∀ g z, y.graph = some g → Tab.find q.graphs g = some z → z.st = .launched → t.mem = s.mem ∧
        ∃ z', Tab.find (t.part p).graphs g = some z' ∧ z'.st = .reached ∧ z'.node = z.next ∧ z'.at' = q.stime - x.ctoff + 1 := by
  have heq := launchRetire_eq hq hy hx hrun hst hleft hfaults
  have hgone := noLaunch_retireLaunch hq l y.members
  obtain ⟨hparts, hmem⟩ := retireLaunch_keeps s p l y.members
  cases hgraph : y.graph with
  | none =>
    rw [hgraph] at heq
    obtain ⟨hin, hout⟩ := cores_of_retired (s := s) (p := p) (l := l) (ks := y.members)
      ((unreadBy_cores _ p y.asid y.base y.log2n y.index [y.met]).trans
        (complete_cores (retireLaunch s p l y.members) p y.asid y.queue y.base y.log2n y.index y.tag 0 y.start))
    exact ⟨_, heq, launch_none_of_noLaunch (noLaunch_unreadBy (noLaunch_complete hgone ..) ..), hin, hout, fun g _ hg => by cases hg⟩
  | some g =>
    rw [hgraph] at heq
    obtain ⟨hin, hout⟩ := cores_of_retired (s := s) (p := p) (l := l) (ks := y.members) rfl
    refine ⟨_, heq, launch_none_of_noLaunch (hgone.modAny p fun _ hr => hr), hin, hout, fun g' z hg hz hzst => ⟨hmem, ?_⟩⟩
    cases hg
    have hfind : Tab.find (retireLaunch s p l y.members).parts p = some { q with launches := Tab.del q.launches l } := by
      rw [hparts]
      exact find_modPart_of_find hq _
    rw [part_of_find (find_modPart_of_find hfind _)]
    refine ⟨{ z with st := .reached, node := z.next, at' := q.stime - x.ctoff + 1, met := y.met :: z.met }, ?_, rfl, rfl, rfl⟩
    rw [find_upd, if_pos rfl, hz, Option.map_some, if_pos hzst]

end

/-- Settles O40: the start is `launchStart_next`, the retirement `launchRetire_next`. -/
theorem launchEvents : Obligations.LaunchEvents := by
  unfold Obligations.LaunchEvents
  intro p l s q y x hq hy hx
  exact ⟨fun hnew hheld hstart hst hfrozen => launchStart_next hq hy hx hnew hheld hstart hst hfrozen,
    fun hrun hst hleft hfaults => launchRetire_next hq hy hx hrun hst hleft hfaults⟩

end Sys2Proof.Proofs
end

section
/-! PROOFS. The life of a context (O47): what the stationmaster's writes leave of a partition, how cores are cleared, and the events of a context one by one
(R83, R229, R246, R249, R250, R252, R254). -/
namespace Sys2Proof.Proofs
open Sys2Proof.Machine Sys2Proof.Laws Sys2Proof.Claims

/-! ### What leaves the cores and only notes in the partitions -/

/-- The cores stand, and the partitions differ by notes of launches and contexts only. -/
def Noted (s t : State) : Prop := t.cores = s.cores ∧ Mapped PartNoted s.parts t.parts

section
variable {s0 s t : State}

theorem Noted.refl (s : State) : Noted s s := ⟨rfl, mapped_refl PartNoted.refl _⟩
theorem Noted.same (h : Noted s0 s) (hcores : t.cores = s.cores) (hparts : t.parts = s.parts) : Noted s0 t :=
  ⟨hcores.trans h.1, by rw [hparts]; exact h.2⟩
theorem Noted.stored (h : Noted s0 s) (hst : Stored s t) : Noted s0 t := ⟨hst.cores.trans h.1, h.2.trans PartNoted.trans hst.parts⟩
theorem Noted.foldl {α : Type} {f : State → α → State} (h : Noted s0 s) (hf : ∀ t x, Noted s0 t → Noted s0 (f t x)) (l : List α) : Noted s0 (l.foldl f s) :=
  List.foldlRecOn _ _ h fun t ht x _ => hf t x ht

theorem Noted.setVrec (h : Noted s0 s) (q : Part) (pd tid : Nat) (r : VRec) : Noted s0 (s.setVrec q pd tid r) := by
  have hvrecs (v : Tab VRec) : Noted s0 { s with vrecs := v } := h.same rfl rfl
  unfold State.setVrec
  dsimp only
  split
  · exact hvrecs _
  · split
    · exact ((hvrecs _).stored (stored_devStore ..)).stored (stored_devStore ..)
    · exact hvrecs _

theorem Noted.pinTensor (h : Noted s0 s) (p a tid : Nat) : Noted s0 (s.pinTensor p a tid).1 := by
  unfold State.pinTensor
  dsimp only
  split
  · exact h
  · split
    · exact h.setVrec ..
    · exact h

theorem Noted.writeCcb (h : Noted s0 s) (p a : Nat) (x : Ctx) (st : CtxSt) : Noted s0 (s.writeCcb p a x st) := by
  unfold State.writeCcb
  dsimp only
  split
  · exact h
  · exact (((h.stored (stored_devStore ..)).stored (stored_devStore ..)).stored (stored_devStore ..)).stored (stored_devStore ..)

theorem Noted.patrolSave (h : Noted s0 s) (q : Part) (b : RangeBind) : Noted s0 (s.patrolSave q b) := by
  unfold State.patrolSave
  split
  · exact h
  · exact h.foldl (fun t (e : Nat × Stamp) ht => ht.same (t := t.countError (e.1 / 2 ^ 30) (e.1 % 2 ^ 30) 2) rfl rfl) _

/-- What each write into a save area keeps, the writing of a whole core block keeps. -/
theorem saveCore_keeps {C : State → Prop} {q : Part} {b : RangeBind} (hsave : ∀ t o bs, C t → C (State.saveAt q b t o bs)) (stops : Tab StopRec) (k : Nat)
    (hs : C s) : C (State.saveCore q b stops s k) := by
  unfold State.saveCore
  extract_lets -underBinder +onlyGivenNames c o put s1 s2 s3 prog s4 s5 s6 s7 s8 s9 regs s10 s11
  have hput (t : State) (n len v : Nat) (ht : C t) : C (put t n len v) := by
    dsimp only [put]
    split
    · exact ht
    · exact hsave _ _ _ ht
  have hfold {α : Type} {f : State → α → State} (l : List α) (hf : ∀ t x, C t → C (f t x)) (t : State) (ht : C t) : C (l.foldl f t) :=
    List.foldlRecOn _ _ ht fun t ht x _ => hf t x ht
  have hprog (x : Stream) (at' : Nat) (t : State) (ht : C t) : C (prog x at' t) := hfold _ (fun _ _ => hput _ _ _ _) t ht
  have h3 : C s3 := hfold _ (fun _ _ => hput _ _ _ _) _ <| hfold _ (fun _ _ => hput _ _ _ _) _ <| hfold _ (fun _ _ => hput _ _ _ _) _ hs
  have h7 : C s7 := hfold _ (fun _ _ => hput _ _ _ _) _ <| hfold _ (fun _ _ => hput _ _ _ _) _ <| hfold _ (fun _ _ => hput _ _ _ _) _ <|
    hprog _ _ _ <| hprog _ _ _ h3
  have h11 : C s11 := hfold _ (fun _ _ => hput _ _ _ _) _ <| hfold _ (fun _ _ => hput _ _ _ _) _ <| hfold _ (fun _ _ => hput _ _ _ _) _ <| hput _ _ _ _ h7
  split
  · exact hput _ _ _ _ h11
  · exact h11

/-- The writing of a save area, but for the digests that it ends. -/
theorem Noted.writeSave (h : Noted s0 s) (p : Nat) (b : RangeBind) (stops : Tab StopRec) (ks : List Nat) :
    ∃ (t : State) (f : Part → List DigestCheck), Noted s0 t ∧ s.writeSave p b stops ks = t.modPart p fun q => { q with digests := f q } := by
  unfold State.writeSave
  refine ⟨_, _, ?_, rfl⟩
  refine Noted.setVrec (Noted.foldl (Noted.foldl ?_ (fun t k ht => ?_) _) (fun t _ ht => ht.stored (stored_masterBytes ..)) _) ..
  · exact h.same rfl rfl
  · exact saveCore_keeps (C := Noted s0) (fun t _ _ ht => ht.stored (stored_saveAt ..)) _ _ ht

/-- A partition with a context, after notes. -/
theorem Noted.find {p a : Nat} {q : Part} {x : Ctx} (h : Noted s t) (hq : Tab.find s.parts p = some q) (hx : Tab.find q.ctxs a = some x) :
    ∃ ls cs y, Tab.find t.parts p = some { q with launches := ls, ctxs := cs } ∧ Tab.find cs a = some y ∧ CtxNoted x y := by
  obtain ⟨_, hr, ls, cs, rfl, hcs⟩ := h.2.find hq
  obtain ⟨y, hy, hxy⟩ := hcs.find hx
  exact ⟨ls, cs, y, hr, hy, hxy⟩

end

/-! ### Cores and their scratchpads cleared -/

theorem clearCores_keeps (s : State) (ks : List Nat) :
    (s.clearCores ks).parts = s.parts ∧ (s.clearCores ks).mem = s.mem ∧ (s.clearCores ks).events = s.events :=
  List.foldlRecOn (motive := fun (t : State) => t.parts = s.parts ∧ t.mem = s.mem ∧ t.events = s.events) _ _ ⟨rfl, rfl, rfl⟩ fun _ ht _ _ => ht

theorem core_clearCores (s : State) (ks : List Nat) (j : Nat) : (s.clearCores ks).core j = if j ∈ ks then (s.core j).cleared else s.core j := by
  refine core_foldl (g := fun s k => (s.setCore k (s.core k).cleared).modUnit (unitOf k) fun _ => MUnit.reset) cleared_cleared (fun _ _ => rfl)
    (fun t k _ i => ?_) ks j
  refine Eq.trans (core_setCore_eq t k i (t.core k).cleared) ?_
  split
  · subst_vars
    rfl
  · rfl

theorem cleared_st {c : Core} (h : c.st ≠ .fenced) : c.cleared.st = .idle := if_neg h
theorem cleared_x (c : Core) : c.cleared.x = [] := rfl

/-- What a save and a teardown discard of cores: their beats in flight, the holds of these, their scratchpads and their state. -/
def discardCores (s : State) (p : Nat) (ks : List Nat) : State := (((s.dropStreamEvents ks).clearBeatHolds p ks).clearPads ks).clearCores ks

theorem core_discardCores (s : State) (p : Nat) (ks : List Nat) (j : Nat) :
    (discardCores s p ks).core j = if j ∈ ks then (s.core j).cleared else s.core j := core_clearCores ..

theorem ctx_of_parts {s t : State} (h : t.parts = s.parts) (p a : Nat) : t.ctx p a = s.ctx p a := by
  unfold State.ctx State.part
  rw [h]

theorem ctx_discardCores (s : State) (p : Nat) (ks : List Nat) (j a : Nat) : (discardCores s p ks).ctx j a = s.ctx j a := by
  have hparts : (discardCores s p ks).parts = ((s.dropStreamEvents ks).clearBeatHolds p ks).parts := (clearCores_keeps ..).1
  rw [ctx_of_parts hparts]
  exact ctx_modPart _ p j a fun _ => rfl

theorem get_filter_none {α : Type} {d : α} {f : Nat × α → Bool} {k : Nat} (h : ∀ v, f (k, v) = false) (t : Tab α) : Tab.get d (t.filter f) k = d := by
  induction t with
  | nil => rfl
  | cons e t ih =>
    obtain ⟨j, v⟩ := e
    by_cases hf : f (j, v) = true
    · rw [List.filter_cons_of_pos hf]
      have hj : j ≠ k := fun hjk => by rw [hjk, h] at hf; cases hf
      exact (if_neg hj).trans ih
    · rw [List.filter_cons_of_neg hf]
      exact ih

/-- The scratchpads of discarded positions read zero (R252). -/
theorem byte_discardCores (s : State) (p : Nat) {ks : List Nat} {k o : Nat} (hk : k ∈ ks) (hlt : k < 2048) (ho : o < 2 ^ 21) :
    (discardCores s p ks).byte (padKey k o) = 0 := by
  have hmem : (discardCores s p ks).mem = s.mem.filter fun e => !(decide (e.1 < 2 ^ 40) && ks.contains (e.1 / 2 ^ 21)) := (clearCores_keeps ..).2.1
  have hlow : padKey k o < 2 ^ 40 := by unfold padKey; omega
  have hpad : padKey k o / 2 ^ 21 = k := by unfold padKey; omega
  unfold State.byte
  rw [hmem]
  refine get_filter_none (fun v => ?_) _
  rw [decide_eq_true hlow, hpad, List.contains_iff_mem.mpr hk]
  rfl

/-! ### The events of a context -/

section
variable {p a : Nat} {s : State} {q : Part} {x : Ctx}

theorem contextCreateComplete_ready (hq : Tab.find s.parts p = some q) (hx : Tab.find q.ctxs a = some x) (hst : x.st = .creating)
    (hsave : (s.saveTensor p a x).isSome = true) :
    ∃ t q' x', exec (.contextCreateComplete p a) s = .next t ∧ ctxBecomes t p a x' ∧ x'.st = .ready ∧
      Tab.find t.parts p = some q' ∧ q'.ctxDone = q.ctxDone ++ [ctxWord x.tag 0 a] := by
  obtain ⟨ls, cs, y, hr, hy, -⟩ := ((Noted.refl s).pinTensor p a x.savetid).find hq hx
  have hready := find_modPart_of_find hr fun q => { q with ctxs := Tab.upd q.ctxs a fun y => { y with st := .ready } }
  have hdone := find_modPart_of_find hready fun q => { q with ctxDone := q.ctxDone ++ [ctxWord x.tag 0 a] }
  refine ⟨_, _, { y with st := .ready }, ?_, (ctx_of_find hdone a).trans ?_, rfl, hdone, rfl⟩
  · rw [exec_contextCreateComplete, execContextCreateComplete, ctx_of_find hq, hx]
    dsimp only
    rw [if_neg (not_not.mpr hst), if_pos hsave]
    rfl
  · dsimp only
    rw [find_upd, if_pos rfl, hy, Option.map_some]

theorem contextCreateComplete_gone (hq : Tab.find s.parts p = some q) (hx : Tab.find q.ctxs a = some x) (hst : x.st = .creating)
    (hsave : s.saveTensor p a x = none) :
    ∃ t q', exec (.contextCreateComplete p a) s = .next t ∧ Tab.find t.parts p = some q' ∧
      Tab.find q'.ctxs a = none ∧ q'.ctxDone = q.ctxDone ++ [ctxWord x.tag 4 a] := by
  obtain ⟨ls, cs, y, hr, -, -⟩ := ((Noted.refl s).writeCcb p a x .free).find hq hx
  have hgone := find_modPart_of_find hr fun q => { q with ctxs := Tab.del q.ctxs a }
  have hdone := find_modPart_of_find hgone fun q => { q with ctxDone := q.ctxDone ++ [ctxWord x.tag 4 a] }
  refine ⟨_, _, ?_, hdone, find_del_same cs a, rfl⟩
  rw [exec_contextCreateComplete, execContextCreateComplete, ctx_of_find hq, hx]
  dsimp only
  rw [if_neg (not_not.mpr hst), hsave]
  rfl

theorem preemptBoundary_taken {a0 : Nat} (hq : Tab.find s.parts p = some q) (hx : Tab.find q.ctxs a = some x) (harmed : x.armed = some a0)
    (hboundary : x.boundary = none) (hst : x.st = .active) (hle : a0 ≤ q.stime - x.ctoff)
    (hready : a0 + 4096 ≤ q.stime - x.ctoff ∨ (a0 + 2048 ≤ q.stime - x.ctoff ∧ s.betweenCommands p a (q.stime - x.ctoff) = true)) :
    ∃ t q', exec (.preemptBoundary p a) s = .next t ∧ ctxBecomes t p a { x with boundary := some (q.stime - x.ctoff) } ∧ Tab.find t.parts p = some q' ∧
      q'.reqs = q.reqs ++ [⟨4, q.stime + 192, false, preTag a⟩] ∧ t.cores = s.cores ∧ t.mem = s.mem := by
  have hraised := find_modPart_of_find hq fun r => { r with reqs := r.reqs ++ [⟨4, q.stime + 192, false, preTag a⟩] }
  have hset := find_modPart_of_find hraised fun r => { r with ctxs := Tab.upd r.ctxs a fun y => { y with boundary := some (q.stime - x.ctoff) } }
  refine ⟨_, _, ?_, (ctx_of_find hset a).trans ?_, hset, rfl, rfl, rfl⟩
  · rw [exec_preemptBoundary, execPreemptBoundary, ctx_of_find hq, hx]
    dsimp only
    rw [harmed, hboundary, part_of_find hq]
    dsimp only
    have htaken : x.st = .active ∧ a0 ≤ q.stime - x.ctoff ∧
        (((decide (a0 + 2048 ≤ q.stime - x.ctoff) || (x.yielded && decide (a0 < q.stime - x.ctoff))) && s.betweenCommands p a (q.stime - x.ctoff)) = true ∨
          a0 + 4096 ≤ q.stime - x.ctoff) := by
      refine ⟨hst, hle, ?_⟩
      rcases hready with hlate | ⟨hmin, hbetween⟩
      · exact .inr hlate
      · exact .inl (by simp [hmin, hbetween])
    rw [if_pos htaken, State.raiseHold, part_of_find hq]
    rfl
  · dsimp only
    rw [find_upd, if_pos rfl, hx, Option.map_some]

theorem preemptBoundary_early {a0 : Nat} (hq : Tab.find s.parts p = some q) (hx : Tab.find q.ctxs a = some x) (harmed : x.armed = some a0)
    (hboundary : x.boundary = none) (hearly : q.stime - x.ctoff < a0 + 2048) (hyield : x.yielded = false) : exec (.preemptBoundary p a) s = .next s := by
  rw [exec_preemptBoundary, execPreemptBoundary, ctx_of_find hq, hx]
  dsimp only
  rw [harmed, hboundary, part_of_find hq]
  dsimp only
  refine if_neg fun ⟨_, _, hready⟩ => ?_
  rw [hyield, decide_eq_false (Nat.not_le.mpr hearly)] at hready
  rcases hready with hnone | hlate
  · cases hnone
  · omega

/-- A core that its context lets issue again at its freeze tick (R83). -/
def reissued (s : State) (c : Core) : Core := if c.ftick ≤ s.now c then { c with st := .running } else c

theorem reissued_reissued (s : State) (c : Core) : reissued s (reissued s c) = reissued s c := by
  by_cases h : c.ftick ≤ s.now c
  · have hrun : reissued s c = { c with st := .running } := if_pos h
    rw [hrun]
    exact if_pos h
  · have hkept : reissued s c = c := if_neg h
    rw [hkept, hkept]

/-- The listed cores of a partition that does not hold, each issuing again where its freeze tick has come. -/
def reissueCores (p : Nat) (s : State) (ks : List Nat) : State :=
  ks.foldl (fun s k => let c := s.core k; if c.ftick ≤ s.now c ∧ !((s.part p).held) then s.setCore k { c with st := .running } else s) s

theorem reissueCores_mem (p : Nat) (s : State) (ks : List Nat) : (reissueCores p s ks).mem = s.mem := by
  refine List.foldlRecOn (motive := fun (t : State) => t.mem = s.mem) _ _ rfl fun t ht k _ => ?_
  dsimp only
  split
  · exact ht
  · exact ht

theorem now_of_parts {t : State} (h : t.parts = s.parts) (c : Core) : t.now c = s.now c := by
  unfold State.now State.ctoff State.ctx State.part
  rw [h]

theorem core_reissueCores (hheld : (s.part p).held = false) (ks : List Nat) (j : Nat) :
    (reissueCores p s ks).core j = if j ∈ ks then reissued s (s.core j) else s.core j := by
  refine core_foldl (reissued_reissued s) (fun t k => ?_) (fun t k ht i => ?_) ks j
  · dsimp only
    split
    · rfl
    · rfl
  · have hheld' : (t.part p).held = false := by
      unfold State.part at hheld ⊢
      rw [ht]
      exact hheld
    dsimp only
    unfold reissued
    rw [now_of_parts ht, hheld']
    by_cases hi : i = k
    · subst hi
      rw [if_pos rfl]
      split
      · rw [core_setCore_same, if_pos (And.left ‹_›)]
      · rw [if_neg fun h => absurd (And.intro h rfl) ‹_›]
    · rw [if_neg hi]
      split
      · exact core_setCore_other t _ hi
      · rfl

theorem contextReissue_next {P : Nat} (hq : Tab.find s.parts p = some q) (hx : Tab.find q.ctxs a = some x) (hst : x.st = .active)
    (hresume : x.resumeP = some P) (hP : P ≤ q.stime) (hheld : q.held = false) :
    ∃ t, exec (.contextReissue p a) s = .next t ∧
      (∀ k ∈ s.reissuing p a, (s.core k).ftick ≤ s.now (s.core k) → t.core k = { s.core k with st := .running }) ∧
      (∀ k, k ∉ s.reissuing p a ∨ s.now (s.core k) < (s.core k).ftick → t.core k = s.core k) ∧ t.mem = s.mem := by
  let s1 := reissueCores p s (s.reissuing p a)
  let t := if (s1.reissuing p a).isEmpty then s1.modCtx p a fun x => { x with resumeP := none } else s1
  have hexec : exec (.contextReissue p a) s = .next t := by
    have hdue : x.st = .active ∧ (x.resumeP.any fun P => decide (P ≤ q.stime)) = true := ⟨hst, by rw [hresume, Option.any_some, decide_eq_true hP]⟩
    rw [exec_contextReissue, execContextReissue, ctx_of_find hq, hx, part_of_find hq]
    dsimp only
    rw [if_pos hdue]
    rfl
  have hkeeps : t.cores = s1.cores ∧ t.mem = s1.mem := by
    dsimp only [t]
    split
    · exact ⟨rfl, rfl⟩
    · exact ⟨rfl, rfl⟩
  have hcore (k : Nat) : t.core k = if k ∈ s.reissuing p a then reissued s (s.core k) else s.core k := by
    rw [← core_reissueCores (by rw [part_of_find hq]; exact hheld), State.core, hkeeps.1]
    rfl
  refine ⟨t, hexec, fun k hk hdue => ?_, fun k hk => ?_, hkeeps.2.trans (reissueCores_mem ..)⟩
  · rw [hcore, if_pos hk]
    exact if_pos hdue
  · rw [hcore]
    rcases hk with hk | hearly
    · exact if_neg hk
    · unfold reissued
      rw [if_neg (Nat.not_le.mpr hearly), ite_self]

theorem mem_insertEvent (w : Nat) (i : Ev) (l : List (Nat × Ev)) : (w, i) ∈ insertEvent w i l := by
  induction l with
  | nil => exact List.mem_singleton.mpr rfl
  | cons e t ih =>
    unfold insertEvent
    split
    · exact List.mem_cons_of_mem _ ih
    · exact List.mem_cons_self

/-! ### Scrub -/

/-- The version records of a context, INVALID from its scrub on (R254). -/
def resetRecords (s : State) (p a : Nat) : State :=
  (s.vrecs.filter fun e => e.2.part == p && e.2.asid == a && e.2.st != .invalid).foldl (fun t e =>
    t.setVrec (t.part p) (e.1 / 2 ^ 18) e.2.tid { VRec.reset with next := e.2.next }) s
/-- The streams without the entries of an ASID (R254). -/
def forgetStreams (s : State) (a : Nat) : State := { s with cores := s.cores.map fun e => (e.1, { e.2 with ca := e.2.ca.forget a, cb := e.2.cb.forget a }) }
/-- The partition as its ASID returns to the pool (R254). -/
def releaseAsid (a : Nat) (q : Part) : Part :=
  { q with
    ctxs := Tab.del q.ctxs a
    unread := q.unread.filter fun u => u.2.1 != a
    kernels := q.kernels.filter fun e => !(e.2.asid == a)
    digests := q.digests.filter fun d => !(d.asid == a)
    manifest := { q.manifest with
      loaded := Tab.del q.manifest.loaded a
      todo := q.manifest.todo.filter fun e => e.1 != a
      poison := if q.manifest.cur = a then 0 else q.manifest.poison
      st := if q.manifest.cur = a ∧ q.manifest.st = 1 then 3 else q.manifest.st } }

theorem scrubMemory_keeps (s : State) (a : Nat) : (s.scrubMemory a).cores = s.cores ∧ (s.scrubMemory a).parts = s.parts := ⟨rfl, rfl⟩

theorem forgetStreams_parts (s : State) (a : Nat) : (forgetStreams s a).parts = s.parts := rfl

theorem noted_resetRecords (s : State) (p a : Nat) : Noted s (resetRecords s p a) :=
  (Noted.refl s).foldl (fun t (e : Nat × VRec) ht => ht.setVrec (t.part p) (e.1 / 2 ^ 18) e.2.tid { VRec.reset with next := e.2.next }) _

theorem contextScrubComplete_eq (hctx : s.ctx p a = some x) (hst : x.st = .scrubbing) :
    exec (.contextScrubComplete p a) s =
      .next ((forgetStreams (resetRecords ((s.writeCcb p a x .free).scrubMemory a) p a) a).modPart p (releaseAsid a)) := by
  rw [exec_contextScrubComplete, execContextScrubComplete, hctx]
  dsimp only
  rw [if_neg (not_not.mpr hst)]
  rfl

theorem contextScrubComplete_gone (hq : Tab.find s.parts p = some q) (hx : Tab.find q.ctxs a = some x) (hst : x.st = .scrubbing) :
    ∃ t q', exec (.contextScrubComplete p a) s = .next t ∧ Tab.find t.parts p = some q' ∧ Tab.find q'.ctxs a = none := by
  obtain ⟨-, hparts⟩ := scrubMemory_keeps (s.writeCcb p a x .free) a
  obtain ⟨_, _, _, hw, hwx, -⟩ := ((Noted.refl s).writeCcb p a x .free).find hq hx
  rw [← hparts] at hw
  obtain ⟨_, cs, _, hr, -, -⟩ := (noted_resetRecords ((s.writeCcb p a x .free).scrubMemory a) p a).find hw hwx
  rw [← forgetStreams_parts _ a] at hr
  exact ⟨_, _, contextScrubComplete_eq ((ctx_of_find hq a).trans hx) hst, find_modPart_of_find hr (releaseAsid a), find_del_same cs a⟩

/-! ### Teardown -/

/-- The cores that a teardown clears: those of the context, and those that it has held and that nothing has been bound to since (R254). -/
def tornCores (s : State) (p a : Nat) (x : Ctx) : List Nat :=
  let own := s.positions p a
  own ++ x.cores.filter fun k => !own.contains k && s.coreFree k
/-- The partition without the launches of the context, and without the arrivals from its peers. -/
def endLaunches (s : State) (p a : Nat) (q : Part) : Part :=
  { q with
    launches := q.launches.filter fun l => !(l.2.asid == a)
    inbound := q.inbound.filter fun e => !((s.peer p e.peer).asid == a) }
/-- The built-in tests of the suspects of the context, to come (R391). -/
def testSuspects (a : Nat) (x : Ctx) (s : State) : State :=
  x.suspects.foldl (fun s e =>
    s.within (2 ^ 27 + 2 ^ 20 * a + s.events.length) Config.testTime (.builtinTestComplete e.1 e.2 (Config.free (2 ^ 20 + 3) (s.epoch * 2 ^ 60 + 2 ^ 59 + a * 2 ^ 43 + e.1 * 2 ^ 40 + e.2) % 2 == 1))) s
/-- The context as its scrub begins. -/
def scrubbingCtx (y : Ctx) : Ctx :=
  { y with st := .scrubbing, suspects := [], saved := [], savedUnits := [], savedMem := [], savedLaunches := [], savedEvents := [], stops := [] }
/-- The state in which the cores of the context are cleared and its suspects are to be tested. -/
def tornState (s : State) (p a : Nat) (x : Ctx) : State := testSuspects a x (discardCores (s.modPart p (endLaunches s p a)) p (tornCores s p a x))

theorem testSuspects_keeps (a : Nat) (x : Ctx) (s : State) :
    (testSuspects a x s).cores = s.cores ∧ (testSuspects a x s).parts = s.parts ∧ (testSuspects a x s).mem = s.mem :=
  List.foldlRecOn (motive := fun (t : State) => t.cores = s.cores ∧ t.parts = s.parts ∧ t.mem = s.mem) _ _ ⟨rfl, rfl, rfl⟩ fun _ ht _ _ => ht

theorem teardownComplete_eq (hctx : s.ctx p a = some x) (hst : x.st = .teardown) :
    exec (.teardownComplete p a) s = .next (((tornState s p a x).modCtx p a scrubbingCtx).laterBy (if x.suspects = [] then 0 else Config.testTime) (28672 + a)
      (.contextScrubComplete p a)) := by
  rw [exec_teardownComplete, execTeardownComplete, hctx]
  dsimp only
  rw [if_neg (not_not.mpr hst)]
  rfl

/-- A position that a teardown or a save has cleared. -/
def IdleAfter (s t : State) (k : Nat) : Prop := (s.core k).st ≠ .fenced → (t.core k).st = .idle ∧ (t.core k).x = []

theorem idleAfter_of_cleared {t : State} {k : Nat} (h : t.core k = (s.core k).cleared) : IdleAfter s t k := by
  intro hst
  rw [h]
  exact ⟨cleared_st hst, cleared_x _⟩

theorem mem_laterBy (s : State) (n code : Nat) (i : Ev) : ∃ e ∈ (s.laterBy n code i).events, e.2 = i := ⟨_, mem_insertEvent _ i s.events, rfl⟩

theorem teardownComplete_next (hq : Tab.find s.parts p = some q) (hx : Tab.find q.ctxs a = some x) (hst : x.st = .teardown) :
    ∃ t x', exec (.teardownComplete p a) s = .next t ∧ ctxBecomes t p a x' ∧ x'.st = .scrubbing ∧ (∀ k ∈ s.positions p a, IdleAfter s t k) ∧
      (∀ k ∈ s.positions p a, k < 2048 → ∀ o, o < 2 ^ 21 → t.byte (padKey k o) = 0) ∧ ∃ e ∈ t.events, e.2 = .contextScrubComplete p a := by
  have hctx : s.ctx p a = some x := (ctx_of_find hq a).trans hx
  let s1 := s.modPart p (endLaunches s p a)
  obtain ⟨hcores, hparts, hmem⟩ := testSuspects_keeps a x (discardCores s1 p (tornCores s p a x))
  have hown (k : Nat) (hk : k ∈ s.positions p a) : k ∈ tornCores s p a x := List.mem_append_left _ hk
  refine ⟨_, scrubbingCtx x, teardownComplete_eq hctx hst, ?_, rfl, fun k hk => idleAfter_of_cleared ?_, fun k hk hlt o ho => ?_, mem_laterBy ..⟩
  · have hctx1 : s1.ctx p a = some x := (ctx_modPart s p p a (f := endLaunches s p a) fun _ => rfl).trans hctx
    have htorn : (tornState s p a x).ctx p a = some x := (ctx_of_parts hparts p a).trans ((ctx_discardCores s1 p _ p a).trans hctx1)
    exact (ctx_modCtx (tornState s p a x) p a scrubbingCtx).trans (by rw [htorn]; rfl)
  · have hcore : (tornState s p a x).core k = (discardCores s1 p (tornCores s p a x)).core k := by
      unfold State.core
      rw [← hcores]
      rfl
    exact hcore.trans ((core_discardCores s1 p _ k).trans (if_pos (hown k hk)))
  · have hbyte : (tornState s p a x).byte (padKey k o) = (discardCores s1 p (tornCores s p a x)).byte (padKey k o) := by
      unfold State.byte
      rw [← hmem]
      rfl
    exact hbyte.trans (byte_discardCores s1 p (hown k hk) hlt ho)

/-! ### Save -/

/-- The state in which the cores of the context have been charged their residency (R241). -/
def chargedState (s : State) (p a : Nat) : State := (s.positions p a).foldl (fun s k => s.modCore k Core.fold) s
/-- The context as it is saved (R250). -/
def savedCtx (s : State) (p a : Nat) (x : Ctx) (b : RangeBind) (ks : List Nat) (y0 : Ctx) : Ctx :=
  let y := ks.foldl (fun y k => y.keepSat k (s.core k)) y0
  { y with
    st := .saved
    armed := none
    boundary := none
    halt := (x.halt.filter fun y => decide (0 < y.h)).map fun y => { y with h := y.h - x.ctoff }
    resumeP := none
    energy := ks.foldl (fun n k => addEnergy n ((s.core k).ecnt % 2 ^ 48)) y.energy
    saved := ks.foldl (fun t k => Tab.put t k (s.core k)) []
    savedUnits := ks.foldl (fun t k => Tab.put t (unitOf k) (s.unit (unitOf k))) ([] : Tab MUnit)
    savedMem := s.mem.filter fun e => decide (e.1 < 2 ^ 40) && ks.contains (e.1 / 2 ^ 21)
    savedLaunches := (s.part p).launches.filter fun l => l.2.asid == a
    savedEvents := (s.events.filter fun e => e.2.streamCore.any ks.contains).map (·.2)
    saveVer := ((s.recOf p b).openAt 0).ever }
/-- The partition without the launches and the halt request of the context. -/
def endSaved (a : Nat) (q : Part) : Part :=
  { q with
    launches := q.launches.filter fun l => !(l.2.asid == a)
    reqs := q.reqs.filter fun r => !(r.tag == haltTag a) }
/-- The members that had left by EXIT stay those of their launches (R268). -/
def keepGone (s : State) (ks : List Nat) (s3 : State) : State :=
  (ks.filter fun k => (s.core k).gone).foldl (fun s1 k => s1.modCore k fun c =>
    let d := s.core k
    { c with part := d.part, asid := d.asid, die := d.die, launch := d.launch, exit := d.exit }) s3
/-- The state with the save area written and the context SAVED, its cores as they were. -/
def writtenState (s : State) (p a : Nat) (x : Ctx) (b : RangeBind) : State :=
  (((s.patrolSave (s.part p) b).writeSave p b x.stops (s.positions p a)).modCtx p a (savedCtx s p a x b (s.positions p a))).modPart p (endSaved a)

theorem parts_chargedState (s : State) (p a : Nat) : (chargedState s p a).parts = s.parts :=
  List.foldlRecOn (motive := fun (t : State) => t.parts = s.parts) _ _ rfl fun _ ht _ _ => ht

theorem keepGone_parts (s : State) (ks : List Nat) (s3 : State) : (keepGone s ks s3).parts = s3.parts :=
  List.foldlRecOn (motive := fun (t : State) => t.parts = s3.parts) _ _ rfl fun _ ht _ _ => ht

theorem keepGone_idle (s : State) (ks : List Nat) (s3 : State) (j : Nat) :
    ((keepGone s ks s3).core j).st = (s3.core j).st ∧ ((keepGone s ks s3).core j).x = (s3.core j).x := by
  refine List.foldlRecOn (motive := fun (t : State) => (t.core j).st = (s3.core j).st ∧ (t.core j).x = (s3.core j).x) _ _ ⟨rfl, rfl⟩ fun t ht k _ => ?_
  rw [State.modCore, core_setCore_eq]
  split
  · subst_vars
    exact ht
  · exact ht

/-- The save tensor of a context where its epoch opens and its granules are granted (R250). -/
def openSave (s : State) (p a : Nat) (x : Ctx) : Option RangeBind :=
  (s.saveTensor p a x).filter fun b => (s.recOf p b).opens b p && s.tensorGranted (s.part p) b

theorem saves_of_idle {st : CtxSt} {ks : List Nat} (hst : st = .active ∨ st = .halted) (hidle : ks = []) :
    ¬(st ≠ .active ∧ st ≠ .halted ∨ (!ks.isEmpty) = true) := by
  subst hidle
  rintro (⟨hactive, hhalted⟩ | hbusy)
  · exact hst.elim hactive hhalted
  · cases hbusy

theorem saveCommit_of_open {b : RangeBind} (hctx : (chargedState s p a).ctx p a = some x) (hst : x.st = .active ∨ x.st = .halted)
    (hidle : ((chargedState s p a).coresOf p a fun y => y == .running || y == .held) = []) (hopen : openSave (chargedState s p a) p a x = some b) :
    exec (.saveCommit p a) s = .next ((keepGone (chargedState s p a) ((chargedState s p a).positions p a)
      (discardCores (writtenState (chargedState s p a) p a x b) p ((chargedState s p a).positions p a))).clearHold p 4 (preTag a)) := by
  unfold openSave chargedState at hopen
  unfold chargedState at hctx hidle
  rw [exec_saveCommit, execSaveCommit, hctx]
  dsimp only
  rw [if_neg (saves_of_idle hst hidle), hopen]
  rfl

theorem saveCommit_of_shut (hctx : (chargedState s p a).ctx p a = some x) (hst : x.st = .active ∨ x.st = .halted)
    (hidle : ((chargedState s p a).coresOf p a fun y => y == .running || y == .held) = []) (hshut : openSave (chargedState s p a) p a x = none) :
    exec (.saveCommit p a) s = .next ((chargedState s p a).teardown p a) := by
  unfold openSave chargedState at hshut
  unfold chargedState at hctx hidle
  rw [exec_saveCommit, execSaveCommit, hctx]
  dsimp only
  rw [if_neg (saves_of_idle hst hidle), hshut]
  rfl

theorem openSave_eq_some {b : RangeBind} (hsave : s.saveTensor p a x = some b) (hopens : (s.recOf p b).opens b p = true)
    (hgranted : s.tensorGranted (s.part p) b = true) : openSave s p a x = some b := by
  rw [openSave, hsave, Option.filter_some, hopens, hgranted]
  rfl

theorem openSave_eq_none (hrefused : ∀ b, s.saveTensor p a x = some b → (s.recOf p b).opens b p = false ∨ s.tensorGranted (s.part p) b = false) :
    openSave s p a x = none := by
  unfold openSave
  refine Option.filter_eq_none_iff.mpr fun b hb => ?_
  rcases hrefused b hb with h | h
  · simp [h]
  · simp [h]

theorem ctx_clearHold (s : State) (p cause tag a : Nat) : (s.clearHold p cause tag).ctx p a = s.ctx p a :=
  ctx_modPart s p p a (f := fun q => q.clearHold s.wtime fun r => r.cause == cause && (r.tag == tag || r.tag == 0)) fun _ => rfl

theorem cores_writtenState (s : State) (p a : Nat) (x : Ctx) (b : RangeBind) : (writtenState s p a x b).cores = s.cores := by
  obtain ⟨t, f, ht, hwritten⟩ := ((Noted.refl s).patrolSave (s.part p) b).writeSave p b x.stops (s.positions p a)
  unfold writtenState
  rw [hwritten]
  exact ht.1

theorem ctx_writtenState (hq : Tab.find s.parts p = some q) (hx : Tab.find q.ctxs a = some x) (b : RangeBind) :
    ∃ y, (writtenState s p a x b).ctx p a = some (savedCtx s p a x b (s.positions p a) y) := by
  obtain ⟨t, f, ht, hwritten⟩ := ((Noted.refl s).patrolSave (s.part p) b).writeSave p b x.stops (s.positions p a)
  obtain ⟨_, cs, y, hr, hy, -⟩ := ht.find hq hx
  have hdigests : (t.modPart p fun q => { q with digests := f q }).ctx p a = some y :=
    (ctx_modPart t p p a (f := fun q => { q with digests := f q }) fun _ => rfl).trans ((ctx_of_find hr a).trans hy)
  refine ⟨y, (ctx_modPart _ p p a (f := endSaved a) fun _ => rfl).trans ?_⟩
  rw [hwritten, ctx_modCtx, hdigests, Option.map_some]

theorem saveCommit_saved {b : RangeBind} (hq : Tab.find s.parts p = some q) (hx : Tab.find q.ctxs a = some x) (hst : x.st = .active ∨ x.st = .halted)
    (hidle : ((chargedState s p a).coresOf p a fun y => y == .running || y == .held) = []) (hsave : (chargedState s p a).saveTensor p a x = some b)
    (hopens : ((chargedState s p a).recOf p b).opens b p = true) (hgranted : (chargedState s p a).tensorGranted ((chargedState s p a).part p) b = true) :
    ∃ t x', exec (.saveCommit p a) s = .next t ∧ ctxBecomes t p a x' ∧ x'.st = .saved ∧ x'.armed = none ∧
      x'.saveVer = ((chargedState s p a).recOf p b).next + 1 ∧ ∀ k ∈ (chargedState s p a).positions p a, IdleAfter (chargedState s p a) t k := by
  have hq1 : Tab.find (chargedState s p a).parts p = some q := by rw [parts_chargedState, hq]
  have hexec := saveCommit_of_open ((ctx_of_find hq1 a).trans hx) hst hidle (openSave_eq_some hsave hopens hgranted)
  revert hexec hq1
  generalize chargedState s p a = s1
  intro hq1 hexec
  let s2 := writtenState s1 p a x b
  let s3 := discardCores s2 p (s1.positions p a)
  obtain ⟨y, hy⟩ := ctx_writtenState hq1 hx b
  refine ⟨_, savedCtx s1 p a x b (s1.positions p a) y, hexec, ?_, rfl, rfl, rfl, fun k hk hk' => ?_⟩
  · have hgone : (keepGone s1 (s1.positions p a) s3).ctx p a = s2.ctx p a :=
      (ctx_of_parts (keepGone_parts s1 (s1.positions p a) s3) p a).trans (ctx_discardCores s2 p _ p a)
    exact (ctx_clearHold ..).trans (hgone.trans hy)
  · have hcore : s3.core k = (s1.core k).cleared := by
      refine (core_discardCores s2 p _ k).trans ((if_pos hk).trans ?_)
      rw [State.core, cores_writtenState]
      rfl
    obtain ⟨hst', hx'⟩ := keepGone_idle s1 (s1.positions p a) s3 k
    rw [hcore] at hst' hx'
    exact ⟨hst'.trans (cleared_st hk'), hx'.trans (cleared_x _)⟩

end

/-- Settles O47: a creation is `contextCreateComplete_ready` and `contextCreateComplete_gone`, a boundary `preemptBoundary_taken` and `preemptBoundary_early`, a save
`saveCommit_saved` and `saveCommit_of_shut`, and reissue, teardown and scrub `contextReissue_next`, `teardownComplete_next` and `contextScrubComplete_gone`. -/
theorem contextEvents : Obligations.ContextEvents := by
  unfold Obligations.ContextEvents
  intro p a s q x hq hx
  have hcharged : (chargedState s p a).ctx p a = some x := by rw [ctx_of_parts (parts_chargedState s p a), ctx_of_find hq, hx]
  refine ⟨fun hst => ⟨contextCreateComplete_ready hq hx hst, contextCreateComplete_gone hq hx hst⟩, fun a0 harmed hboundary hst => ⟨fun hle hready _ => ?_, ?_⟩,
    fun hst hidle => ⟨fun b hsave hopens hgranted => ?_, fun hrefused => ?_⟩, fun P hst hresume hP hheld => ?_, fun hst => ?_, contextScrubComplete_gone hq hx⟩
  · exact preemptBoundary_taken hq hx harmed hboundary hst hle hready
  · exact preemptBoundary_early hq hx harmed hboundary
  · exact saveCommit_saved hq hx hst hidle hsave hopens hgranted
  · exact saveCommit_of_shut hcharged hst hidle (openSave_eq_none hrefused)
  · exact contextReissue_next hq hx hst hresume hP hheld
  · exact teardownComplete_next hq hx hst

end Sys2Proof.Proofs
end

section
/-! PROOFS. Decoding (O1, O3, O4): the order of the checks of R93 case by case, NOP (R92), and the round trip of every operation. -/
namespace Sys2Proof.Proofs
open Sys2Proof.Machine Sys2Proof.Laws

/-- The map of a slot, on an operation word whose guard has been read. -/
def decodeIn (sl : SlotClass) (g : Guard) (w : Nat) : Except Ill Instr :=
  match sl with
  | .x => decodeX g w
  | .s => decodeS g w
  | .l => decodeL g w
  | .v => decodeV g w
  | .m => decodeM g w
  | .c => decodeC g w

/-- The guard that a word names (Table 4.1). -/
def guardOf (w : Nat) : Guard := ⟨fld w 31 31 == 1, fld w 30 27⟩

section
variable {sl : SlotClass} {w : Nat}

theorem decodeWord_reservedGuard (h1 : w ≠ 0xFFFFFFFF) (hg : 12 ≤ fld w 30 27) : decodeWord sl w = .error .reservedGuard :=
  (if_neg h1).trans (if_pos hg)

theorem decodeWord_nop (h1 : w ≠ 0xFFFFFFFF) (hg : fld w 30 27 < 12) (h0 : fld w 26 0 = 0) : decodeWord sl w = .ok (.nop (guardOf w)) :=
  (if_neg h1).trans ((if_neg (Nat.not_le.mpr hg)).trans (if_pos h0))

theorem decodeWord_eq_decodeIn (h1 : w ≠ 0xFFFFFFFF) (hg : fld w 30 27 < 12) (h0 : fld w 26 0 ≠ 0) :
    decodeWord sl w = decodeIn sl (guardOf w) w := by
  refine (if_neg h1).trans ((if_neg (Nat.not_le.mpr hg)).trans ((if_neg h0).trans ?_))
  cases sl <;> rfl

/-- No map lists major opcode 0x00. -/
theorem decodeIn_of_major_zero (g : Guard) (h : fld w 26 21 = 0) : decodeIn sl g w = .error .unassigned := by
  cases sl
  case x => simp only [decodeIn, decodeX, h]
  case s => simp only [decodeIn, decodeS, h]
  case l => simp only [decodeIn, decodeL, h]
  case v => simp only [decodeIn, decodeV, h]
  case m => simp only [decodeIn, decodeM, h]
  case c => simp only [decodeIn, decodeC, h]

end

theorem encode_nop (g : Guard) : encode (.nop g) = g.neg.toNat * 2 ^ 31 + g.pred * 2 ^ 27 := by
  change slotWord g 0 [] = _
  simp [slotWord, bodyOf]

/-- Settles O3: a word with major opcode 0x00 is NOP when its body is zero, and is listed in no map when it is not (R92). -/
theorem nopEncoding : Obligations.NopEncoding := by
  unfold Obligations.NopEncoding
  refine ⟨fun _ => rfl, fun sl n p hp => ?_, fun sl n p body hp h0 hb => ?_, fun _ _ => rfl⟩
  · rw [← encode_nop ⟨n, p⟩]
    exact RoundTrip.nop ⟨n, p⟩ (decide_eq_true hp) sl rfl
  · have hn := toNat_lt_two n
    have hguard : fld (n.toNat * 2 ^ 31 + p * 2 ^ 27 + body) 30 27 = p := by simp only [fld]; omega
    have hmajor : fld (n.toNat * 2 ^ 31 + p * 2 ^ 27 + body) 26 21 = 0 := by simp only [fld]; omega
    have hbody : fld (n.toNat * 2 ^ 31 + p * 2 ^ 27 + body) 26 0 ≠ 0 := by simp only [fld]; omega
    rw [decodeWord_eq_decodeIn (by omega) (hguard.trans_lt hp) hbody, decodeIn_of_major_zero _ hmajor]

/-- Settles O4: the ten words are computed, and the first two checks of R93 come before any other. -/
theorem wordsDecode : Obligations.WordsDecode := by
  unfold Obligations.WordsDecode Claims.WordsDecode Claims.ReservedWords
  refine ⟨by decide +kernel, fun sl => ?_, fun sl w _ hones hguard => decodeWord_reservedGuard hones hguard⟩
  exact if_pos rfl

theorem roundTrip (i : Instr) : RoundTrip.Statement i := by
  cases i with
  | nop => exact RoundTrip.nop _ | br => exact RoundTrip.br _ _ | brb => exact RoundTrip.brb _ _ | call => exact RoundTrip.call _ _ _
  | callb => exact RoundTrip.callb _ _ _ | loop => exact RoundTrip.loop _ _ _ | mbrChain => exact RoundTrip.mbrChain _ _ _ _ _
  | mbrTree => exact RoundTrip.mbrTree _ _ _ _ _ | waitt => exact RoundTrip.waitt _ _ _ | waitd => exact RoundTrip.waitd _ _
  | nxt => exact RoundTrip.nxt _ | trap => exact RoundTrip.trap _ _ | brk => exact RoundTrip.brk _ _ | cbar => exact RoundTrip.cbar _ _
  | cbarNw => exact RoundTrip.cbarNw _ _ | dbar => exact RoundTrip.dbar _ | dbarNw => exact RoundTrip.dbarNw _ | ssb => exact RoundTrip.ssb _
  | ssbNw => exact RoundTrip.ssbNw _ | bstatSub => exact RoundTrip.bstatSub _ _ _ | bstatDie => exact RoundTrip.bstatDie _ _
  | bstatSs => exact RoundTrip.bstatSs _ _ | tmge => exact RoundTrip.tmge _ _ _ | bdge => exact RoundTrip.bdge _ _ _ | exit => exact RoundTrip.exit _
  | yield => exact RoundTrip.yield _ | add => exact RoundTrip.add _ _ _ _ | sub => exact RoundTrip.sub _ _ _ _ | and => exact RoundTrip.and _ _ _ _
  | or => exact RoundTrip.or _ _ _ _ | xor => exact RoundTrip.xor _ _ _ _ | andn => exact RoundTrip.andn _ _ _ _ | orn => exact RoundTrip.orn _ _ _ _
  | xnor => exact RoundTrip.xnor _ _ _ _ | sll => exact RoundTrip.sll _ _ _ _ | srl => exact RoundTrip.srl _ _ _ _
  | sra => exact RoundTrip.sra _ _ _ _ | rol => exact RoundTrip.rol _ _ _ _ | ror => exact RoundTrip.ror _ _ _ _ | mul => exact RoundTrip.mul _ _ _ _
  | mulh => exact RoundTrip.mulh _ _ _ _ | mulhu => exact RoundTrip.mulhu _ _ _ _ | min => exact RoundTrip.min _ _ _ _
  | max => exact RoundTrip.max _ _ _ _ | minu => exact RoundTrip.minu _ _ _ _ | maxu => exact RoundTrip.maxu _ _ _ _
  | clz => exact RoundTrip.clz _ _ _ | ctz => exact RoundTrip.ctz _ _ _ | popc => exact RoundTrip.popc _ _ _ | bswap => exact RoundTrip.bswap _ _ _
  | adds => exact RoundTrip.adds _ _ _ _ | subs => exact RoundTrip.subs _ _ _ _ | addi => exact RoundTrip.addi _ _ _ _
  | andi => exact RoundTrip.andi _ _ _ _ | ori => exact RoundTrip.ori _ _ _ _ | xori => exact RoundTrip.xori _ _ _ _
  | slli => exact RoundTrip.slli _ _ _ _ | srli => exact RoundTrip.srli _ _ _ _ | srai => exact RoundTrip.srai _ _ _ _
  | roli => exact RoundTrip.roli _ _ _ _ | movi => exact RoundTrip.movi _ _ _ | movk16 => exact RoundTrip.movk16 _ _ _
  | movk32 => exact RoundTrip.movk32 _ _ _ | movk48 => exact RoundTrip.movk48 _ _ _ | cmpEq => exact RoundTrip.cmpEq _ _ _ _
  | cmpNe => exact RoundTrip.cmpNe _ _ _ _ | cmpLt => exact RoundTrip.cmpLt _ _ _ _ | cmpGe => exact RoundTrip.cmpGe _ _ _ _
  | cmpLtu => exact RoundTrip.cmpLtu _ _ _ _ | cmpGeu => exact RoundTrip.cmpGeu _ _ _ _ | cmpiEq => exact RoundTrip.cmpiEq _ _ _ _
  | cmpiNe => exact RoundTrip.cmpiNe _ _ _ _ | cmpiLt => exact RoundTrip.cmpiLt _ _ _ _ | cmpiGe => exact RoundTrip.cmpiGe _ _ _ _
  | cmpiLtu => exact RoundTrip.cmpiLtu _ _ _ _ | cmpiGeu => exact RoundTrip.cmpiGeu _ _ _ _ | pand => exact RoundTrip.pand _ _ _ _
  | por => exact RoundTrip.por _ _ _ _ | pxor => exact RoundTrip.pxor _ _ _ _ | pandn => exact RoundTrip.pandn _ _ _ _
  | porn => exact RoundTrip.porn _ _ _ _ | pnot => exact RoundTrip.pnot _ _ _ | sel => exact RoundTrip.sel _ _ _ _ _
  | setb => exact RoundTrip.setb _ _ _ | getb => exact RoundTrip.getb _ _ _ | setbi => exact RoundTrip.setbi _ _ _
  | sysrd => exact RoundTrip.sysrd _ _ _ | syswr => exact RoundTrip.syswr _ _ _ | qrd => exact RoundTrip.qrd _ _ _ _
  | ldb => exact RoundTrip.ldb _ _ _ _ | ldbu => exact RoundTrip.ldbu _ _ _ _ | ldh => exact RoundTrip.ldh _ _ _ _
  | ldhu => exact RoundTrip.ldhu _ _ _ _ | ldw => exact RoundTrip.ldw _ _ _ _ | ldwu => exact RoundTrip.ldwu _ _ _ _
  | ldd => exact RoundTrip.ldd _ _ _ _ | stb => exact RoundTrip.stb _ _ _ _ | sth => exact RoundTrip.sth _ _ _ _ | stw => exact RoundTrip.stw _ _ _ _
  | std => exact RoundTrip.std _ _ _ _ | vld => exact RoundTrip.vld _ _ _ _ | vst => exact RoundTrip.vst _ _ _ _
  | vldr => exact RoundTrip.vldr _ _ _ _ _ | vstr => exact RoundTrip.vstr _ _ _ _ _ | vlds => exact RoundTrip.vlds _ _ _ _
  | vsts => exact RoundTrip.vsts _ _ _ _ | vldf6 => exact RoundTrip.vldf6 _ _ _ _ | vstf6 => exact RoundTrip.vstf6 _ _ _ _
  | amoAdd => exact RoundTrip.amoAdd _ _ _ _ _ | amoSwap => exact RoundTrip.amoSwap _ _ _ _ _ | amoAnd => exact RoundTrip.amoAnd _ _ _ _ _
  | amoOr => exact RoundTrip.amoOr _ _ _ _ _ | amoXor => exact RoundTrip.amoXor _ _ _ _ _ | amoMin => exact RoundTrip.amoMin _ _ _ _ _
  | amoMax => exact RoundTrip.amoMax _ _ _ _ _ | amoMinu => exact RoundTrip.amoMinu _ _ _ _ _ | amoMaxu => exact RoundTrip.amoMaxu _ _ _ _ _
  | mark => exact RoundTrip.mark _ | vaddF32 => exact RoundTrip.vaddF32 _ _ _ _ _ _ | vsubF32 => exact RoundTrip.vsubF32 _ _ _ _ _ _
  | vmulF32 => exact RoundTrip.vmulF32 _ _ _ _ _ _ | vfmaF32 => exact RoundTrip.vfmaF32 _ _ _ _ _ _ | vfmsF32 => exact RoundTrip.vfmsF32 _ _ _ _ _ _
  | vminF32 => exact RoundTrip.vminF32 _ _ _ _ _ | vmaxF32 => exact RoundTrip.vmaxF32 _ _ _ _ _ | vabsF32 => exact RoundTrip.vabsF32 _ _ _ _
  | vnegF32 => exact RoundTrip.vnegF32 _ _ _ _ | vrndF32 => exact RoundTrip.vrndF32 _ _ _ _ _ | vcmpF32Eq => exact RoundTrip.vcmpF32Eq _ _ _ _ _
  | vcmpF32Ne => exact RoundTrip.vcmpF32Ne _ _ _ _ _ | vcmpF32Lt => exact RoundTrip.vcmpF32Lt _ _ _ _ _
  | vcmpF32Le => exact RoundTrip.vcmpF32Le _ _ _ _ _ | vcmpF32Unord => exact RoundTrip.vcmpF32Unord _ _ _ _ _
  | vcmpI32Eq => exact RoundTrip.vcmpI32Eq _ _ _ _ _ | vcmpI32Ne => exact RoundTrip.vcmpI32Ne _ _ _ _ _
  | vcmpI32Lt => exact RoundTrip.vcmpI32Lt _ _ _ _ _ | vcmpI32Ge => exact RoundTrip.vcmpI32Ge _ _ _ _ _
  | vcmpI32Ltu => exact RoundTrip.vcmpI32Ltu _ _ _ _ _ | vcmpI32Geu => exact RoundTrip.vcmpI32Geu _ _ _ _ _
  | vaddI32 => exact RoundTrip.vaddI32 _ _ _ _ _ | vsubI32 => exact RoundTrip.vsubI32 _ _ _ _ _ | vmulI32 => exact RoundTrip.vmulI32 _ _ _ _ _
  | vmulhI32 => exact RoundTrip.vmulhI32 _ _ _ _ _ | vminI32 => exact RoundTrip.vminI32 _ _ _ _ _ | vmaxI32 => exact RoundTrip.vmaxI32 _ _ _ _ _
  | vminN32 => exact RoundTrip.vminN32 _ _ _ _ _ | vmaxN32 => exact RoundTrip.vmaxN32 _ _ _ _ _ | vaddsI32 => exact RoundTrip.vaddsI32 _ _ _ _ _
  | vsubsI32 => exact RoundTrip.vsubsI32 _ _ _ _ _ | vabsI32 => exact RoundTrip.vabsI32 _ _ _ _ | vnegI32 => exact RoundTrip.vnegI32 _ _ _ _
  | vand => exact RoundTrip.vand _ _ _ _ _ | vor => exact RoundTrip.vor _ _ _ _ _ | vxor => exact RoundTrip.vxor _ _ _ _ _
  | vandn => exact RoundTrip.vandn _ _ _ _ _ | vnot => exact RoundTrip.vnot _ _ _ _ | vsll => exact RoundTrip.vsll _ _ _ _ _
  | vsrl => exact RoundTrip.vsrl _ _ _ _ _ | vsra => exact RoundTrip.vsra _ _ _ _ _ | vrol => exact RoundTrip.vrol _ _ _ _ _
  | vsllImm => exact RoundTrip.vsllImm _ _ _ _ | vsrlImm => exact RoundTrip.vsrlImm _ _ _ _ | vsraImm => exact RoundTrip.vsraImm _ _ _ _
  | vrolImm => exact RoundTrip.vrolImm _ _ _ _ | vsel => exact RoundTrip.vsel _ _ _ _ _ | vdotI8I8 => exact RoundTrip.vdotI8I8 _ _ _ _ _ _
  | vdotN8I8 => exact RoundTrip.vdotN8I8 _ _ _ _ _ _ | vdotN8N8 => exact RoundTrip.vdotN8N8 _ _ _ _ _ _ | vcvt => exact RoundTrip.vcvt _ _ _ _ _ _
  | vcvtSat => exact RoundTrip.vcvtSat _ _ _ _ _ _ | vscaI32 => exact RoundTrip.vscaI32 _ _ _ _ _ _ | vscaF32 => exact RoundTrip.vscaF32 _ _ _ _ _ _
  | vsplat => exact RoundTrip.vsplat _ _ _ _ | vrotr => exact RoundTrip.vrotr _ _ _ _ | vbcr => exact RoundTrip.vbcr _ _ _ _
  | vrotc => exact RoundTrip.vrotc _ _ _ _ | vbcc => exact RoundTrip.vbcc _ _ _ _ | vredrSumF32 => exact RoundTrip.vredrSumF32 _ _ _ _
  | vredrMaxF32 => exact RoundTrip.vredrMaxF32 _ _ _ _ | vredrMinF32 => exact RoundTrip.vredrMinF32 _ _ _ _
  | vredrSumI32 => exact RoundTrip.vredrSumI32 _ _ _ _ | vredrMaxI32 => exact RoundTrip.vredrMaxI32 _ _ _ _
  | vredrMinI32 => exact RoundTrip.vredrMinI32 _ _ _ _ | vredcSumF32 => exact RoundTrip.vredcSumF32 _ _ _ _
  | vredcMaxF32 => exact RoundTrip.vredcMaxF32 _ _ _ _ | vredcMinF32 => exact RoundTrip.vredcMinF32 _ _ _ _
  | vredcSumI32 => exact RoundTrip.vredcSumI32 _ _ _ _ | vredcMaxI32 => exact RoundTrip.vredcMaxI32 _ _ _ _
  | vredcMinI32 => exact RoundTrip.vredcMinI32 _ _ _ _ | vtr => exact RoundTrip.vtr _ _ _ _ | kand => exact RoundTrip.kand _ _ _ _
  | kor => exact RoundTrip.kor _ _ _ _ | kxor => exact RoundTrip.kxor _ _ _ _ | kandn => exact RoundTrip.kandn _ _ _ _
  | knot => exact RoundTrip.knot _ _ _ | kmov => exact RoundTrip.kmov _ _ _ | kany => exact RoundTrip.kany _ _ _ | kall => exact RoundTrip.kall _ _ _
  | vrcpe => exact RoundTrip.vrcpe _ _ _ _ | vrsqe => exact RoundTrip.vrsqe _ _ _ _ | vrcps => exact RoundTrip.vrcps _ _ _ _ _ _
  | vrsqs => exact RoundTrip.vrsqs _ _ _ _ _ _ | vfexp => exact RoundTrip.vfexp _ _ _ _ | vexpi => exact RoundTrip.vexpi _ _ _ _ _ _
  | vexpxE => exact RoundTrip.vexpxE _ _ _ _ | vexpxM => exact RoundTrip.vexpxM _ _ _ _ | vlg2e => exact RoundTrip.vlg2e _ _ _ _
  | vrngN32 => exact RoundTrip.vrngN32 _ _ _ | vrngF32 => exact RoundTrip.vrngF32 _ _ _ | mlease => exact RoundTrip.mlease _
  | mrel => exact RoundTrip.mrel _ | mset => exact RoundTrip.mset _ _ _ | mseti => exact RoundTrip.mseti _ _ _ | mwld => exact RoundTrip.mwld _ _
  | mwlda => exact RoundTrip.mwlda _ _ | mwldb => exact RoundTrip.mwldb _ _ | mma => exact RoundTrip.mma _ _ _ _
  | mmaAcc => exact RoundTrip.mmaAcc _ _ _ _ | mzero => exact RoundTrip.mzero _ _ | mdrv => exact RoundTrip.mdrv _ _ _ _
  | mdrs => exact RoundTrip.mdrs _ _ _ | cpy => exact RoundTrip.cpy _ _ _ _ | cpyt => exact RoundTrip.cpyt _ _ _ _ _ _ _
  | cpl => exact RoundTrip.cpl _ _ _ _ | cprog => exact RoundTrip.cprog _ _ _ _ | cprogi => exact RoundTrip.cprogi _ _ _ _
  | send => exact RoundTrip.send _ _ _ _ | recv => exact RoundTrip.recv _ _ _ _ | xmark => exact RoundTrip.xmark _
  | tbump => exact RoundTrip.tbump _ _ | tcommit => exact RoundTrip.tcommit _ _ | tdig => exact RoundTrip.tdig _ _ | krot => exact RoundTrip.krot _
  | sealCopy => exact RoundTrip.sealCopy _ _ | unsealCopy => exact RoundTrip.unsealCopy _ _ | scrubCopy => exact RoundTrip.scrubCopy _ _
  | _ => exact fun _ _ h => by cases h

/-- Settles O1: the round trip of each operation is a law of `Laws/PerInstr`, and an event stands in no map. -/
theorem encodeDecodeAgree : Obligations.EncodeDecodeAgree := by
  unfold Obligations.EncodeDecodeAgree
  exact fun i sl hwf hmap => roundTrip i hwf sl hmap

end Sys2Proof.Proofs
end

section
/-! PROOFS. Operations whose guard reads 0 (O8): each shared form of an operation does nothing (R91), and a row-path operation takes the row path (R135). -/
namespace Sys2Proof.Proofs
open Sys2Proof.Machine Sys2Proof.Laws

section
variable {g : Guard} {s : State} (h : s.here.guardOn g = false)
include h

theorem aluRR_off (lat d a b : Nat) (f : Word → Word → Word) : aluRR g lat d a b f s = .next s := slotOp_off h ..
theorem aluR_off (d a : Nat) (f : Word → Word) : aluR g d a f s = .next s := slotOp_off h ..
theorem aluSat_off (d a b : Nat) (f : Int → Int → Int) : aluSat g d a b f s = .next s := slotOp_off h ..
theorem movk_off (k d i : Nat) : movk g k d i s = .next s := aluR_off h ..
theorem cmpRR_off (d a b : Nat) (f : Word → Word → Bool) : cmpRR g d a b f s = .next s := slotOp_off h ..
theorem cmpRI_off (d a i : Nat) (f : Word → Word → Bool) : cmpRI g d a i f s = .next s := slotOp_off h ..
theorem plog_off (d a b : Nat) (f : Bool → Bool → Bool) : plog g d a b f s = .next s := slotOp_off h ..
theorem loadOp_off (n : Nat) (sx : Bool) (d a i : Nat) : loadOp g n sx d a i s = .next s := slotTry_off h ..
theorem storeOp_off (n d a i : Nat) : storeOp g n d a i s = .next s := slotTry_off h ..
theorem amoOp_off (f d a b : Nat) (w : Bool) : amoOp g f d a b w s = .next s := by
  unfold amoOp
  exact slotTry_off h ..
theorem mbrOp_off (sel : Core → Option Nat) : mbrOp g sel s = .next s := slotTry_off h ..
theorem barrierOp_off (wait : Bool) (chk : Launch → Bool) (scope : Launch → Nat → Core → Nat) : barrierOp g wait chk scope s = .next s := by
  simp [barrierOp, h]
theorem bstatOp_off (d : Nat) (chk : Launch → Bool) (scope : Launch → Nat → Core → Nat) : bstatOp g d chk scope s = .next s := by
  simp [bstatOp, h]
theorem execNxt_off : execNxt g s = .next s := by
  simp [execNxt, h]
theorem execExit_off : execExit g s = .next s := by
  simp [execExit, h]
theorem execYield_off : execYield g s = .next s := by
  simp [execYield, h]

/-- What a row-path operation of occupancy `occ` does when its guard reads 0 (R135): it takes a free row path, and traps on one that is not. -/
def TakesRowPath (s : State) (o : Out) (occ : Nat) : Prop :=
  (s.rowBlocked s.here = false →
    o = .next (s.setHere { s.here with rowPath := some ⟨s.now s.here, false, s.here.effIssue (s.now s.here), s.here.markGrp, occ⟩ })) ∧
  (s.rowBlocked s.here = true → o = .next (s.trapHere 2 2))

theorem rowOp_off (occ eu n span : Nat) (rows : State → Core → List (Nat × Word × ReqKind)) (pre : Nat → Core → Core) :
    TakesRowPath s (rowOp g occ eu n span rows pre s) occ :=
  ⟨fun hfree => by simp [rowOp, h, hfree], fun hbusy => by simp [rowOp, hbusy]⟩
theorem vldOp_off (f6 : Bool) (d : Nat) (at' : State → Core → Nat → Word) : TakesRowPath s (vldOp g f6 d at' s) 16 := rowOp_off h ..
theorem vstOp_off (f6 : Bool) (d : Nat) (at' : State → Core → Nat → Word) : TakesRowPath s (vstOp g f6 d at' s) 16 := rowOp_off h ..

end

/-- Settles O8: every operation of the slots is one of a few shared forms, and each form does nothing when its guard reads 0; on the row path `rowOp_off`. -/
theorem guardOffDoesNothing : Obligations.GuardOffDoesNothing := by
  unfold Obligations.GuardOffDoesNothing
  intro g s d a b c i n r w h idle rows
  have onRow {ins : Instr} {o : Out} {occ : Nat} (hexec : exec ins s = o) (ho : TakesRowPath s o occ) : rows ins occ :=
    (hexec ▸ ho : TakesRowPath s (exec ins s) occ)
  exact ⟨
    exec_nop .., (exec_br ..).trans (slotTry_off h ..), (exec_brb ..).trans (slotTry_off h ..), (exec_call ..).trans (slotTry_off h ..),
    (exec_callb ..).trans (slotTry_off h ..), (exec_loop ..).trans (slotTry_off h ..), (exec_mbrChain ..).trans (mbrOp_off h ..),
    (exec_mbrTree ..).trans (mbrOp_off h ..), (exec_waitt ..).trans (slotOp_off h ..), (exec_waitd ..).trans (slotOp_off h ..),
    (exec_nxt ..).trans (execNxt_off h), (exec_trap ..).trans (slotTry_off h ..), (exec_brk ..).trans (slotTry_off h ..),
    (exec_cbar ..).trans (barrierOp_off h ..), (exec_cbarNw ..).trans (barrierOp_off h ..), (exec_dbar ..).trans (barrierOp_off h ..),
    (exec_dbarNw ..).trans (barrierOp_off h ..), (exec_ssb ..).trans (barrierOp_off h ..), (exec_ssbNw ..).trans (barrierOp_off h ..),
    (exec_bstatSub ..).trans (bstatOp_off h ..), (exec_bstatDie ..).trans (bstatOp_off h ..), (exec_bstatSs ..).trans (bstatOp_off h ..),
    (exec_tmge ..).trans (slotOp_off h ..), (exec_bdge ..).trans (slotOp_off h ..), (exec_exit ..).trans (execExit_off h),
    (exec_yield ..).trans (execYield_off h), (exec_add ..).trans (aluRR_off h ..), (exec_sub ..).trans (aluRR_off h ..), (exec_and ..).trans (aluRR_off h ..),
    (exec_or ..).trans (aluRR_off h ..), (exec_xor ..).trans (aluRR_off h ..), (exec_andn ..).trans (aluRR_off h ..), (exec_orn ..).trans (aluRR_off h ..),
    (exec_xnor ..).trans (aluRR_off h ..), (exec_sll ..).trans (aluRR_off h ..), (exec_srl ..).trans (aluRR_off h ..), (exec_sra ..).trans (aluRR_off h ..),
    (exec_rol ..).trans (aluRR_off h ..), (exec_ror ..).trans (aluRR_off h ..), (exec_mul ..).trans (aluRR_off h ..), (exec_mulh ..).trans (aluRR_off h ..),
    (exec_mulhu ..).trans (aluRR_off h ..), (exec_min ..).trans (aluRR_off h ..), (exec_max ..).trans (aluRR_off h ..), (exec_minu ..).trans (aluRR_off h ..),
    (exec_maxu ..).trans (aluRR_off h ..), (exec_clz ..).trans (aluR_off h ..), (exec_ctz ..).trans (aluR_off h ..), (exec_popc ..).trans (aluR_off h ..),
    (exec_bswap ..).trans (aluR_off h ..), (exec_adds ..).trans (aluSat_off h ..), (exec_subs ..).trans (aluSat_off h ..),
    (exec_addi ..).trans (aluR_off h ..), (exec_andi ..).trans (aluR_off h ..), (exec_ori ..).trans (aluR_off h ..), (exec_xori ..).trans (aluR_off h ..),
    (exec_slli ..).trans (aluR_off h ..), (exec_srli ..).trans (aluR_off h ..), (exec_srai ..).trans (aluR_off h ..), (exec_roli ..).trans (aluR_off h ..),
    (exec_movi ..).trans (aluR_off h ..), (exec_movk16 ..).trans (movk_off h ..), (exec_movk32 ..).trans (movk_off h ..),
    (exec_movk48 ..).trans (movk_off h ..), (exec_cmpEq ..).trans (cmpRR_off h ..), (exec_cmpNe ..).trans (cmpRR_off h ..),
    (exec_cmpLt ..).trans (cmpRR_off h ..), (exec_cmpGe ..).trans (cmpRR_off h ..), (exec_cmpLtu ..).trans (cmpRR_off h ..),
    (exec_cmpGeu ..).trans (cmpRR_off h ..), (exec_cmpiEq ..).trans (cmpRI_off h ..), (exec_cmpiNe ..).trans (cmpRI_off h ..),
    (exec_cmpiLt ..).trans (cmpRI_off h ..), (exec_cmpiGe ..).trans (cmpRI_off h ..), (exec_cmpiLtu ..).trans (cmpRI_off h ..),
    (exec_cmpiGeu ..).trans (cmpRI_off h ..), (exec_pand ..).trans (plog_off h ..), (exec_por ..).trans (plog_off h ..), (exec_pxor ..).trans (plog_off h ..),
    (exec_pandn ..).trans (plog_off h ..), (exec_porn ..).trans (plog_off h ..), (exec_pnot ..).trans (plog_off h ..), (exec_sel ..).trans (slotOp_off h ..),
    (exec_setb ..).trans (slotOp_off h ..), (exec_getb ..).trans (slotOp_off h ..), (exec_setbi ..).trans (slotOp_off h ..),
    (exec_sysrd ..).trans (slotOp_off h ..), (exec_syswr ..).trans (slotOp_off h ..), (exec_qrd ..).trans (slotOp_off h ..),
    (exec_ldb ..).trans (loadOp_off h ..), (exec_ldbu ..).trans (loadOp_off h ..), (exec_ldh ..).trans (loadOp_off h ..),
    (exec_ldhu ..).trans (loadOp_off h ..), (exec_ldw ..).trans (loadOp_off h ..), (exec_ldwu ..).trans (loadOp_off h ..),
    (exec_ldd ..).trans (loadOp_off h ..), (exec_stb ..).trans (storeOp_off h ..), (exec_sth ..).trans (storeOp_off h ..),
    (exec_stw ..).trans (storeOp_off h ..), (exec_std ..).trans (storeOp_off h ..), (exec_amoAdd ..).trans (amoOp_off h ..),
    (exec_amoSwap ..).trans (amoOp_off h ..), (exec_amoAnd ..).trans (amoOp_off h ..), (exec_amoOr ..).trans (amoOp_off h ..),
    (exec_amoXor ..).trans (amoOp_off h ..), (exec_amoMin ..).trans (amoOp_off h ..), (exec_amoMax ..).trans (amoOp_off h ..),
    (exec_amoMinu ..).trans (amoOp_off h ..), (exec_amoMaxu ..).trans (amoOp_off h ..), (exec_mark ..).trans (slotOp_off h ..),
    onRow (exec_vld ..) (vldOp_off h ..), onRow (exec_vst ..) (vstOp_off h ..), onRow (exec_vldr ..) (rowOp_off h ..), onRow (exec_vstr ..) (rowOp_off h ..),
    onRow (exec_vlds ..) (vldOp_off h ..), onRow (exec_vsts ..) (vstOp_off h ..), onRow (exec_vldf6 ..) (vldOp_off h ..),
    onRow (exec_vstf6 ..) (vstOp_off h ..)⟩

end Sys2Proof.Proofs
end

section
/-! PROOFS. A word that decodes is the encoding of what it decodes to (O2). The fields that a row of the opcode maps names tile the body of a word from bit 20
down (`Tiles`): an operand, which the encoder puts back in its place; a minor code, which it puts back as a constant; or bits that must be zero, which it leaves out.
One lemma for each map goes through its rows. -/
namespace Sys2Proof.Proofs
open Sys2Proof.Machine Sys2Proof.Laws

/-! ## Fields -/

theorem fld_lt {w hi lo n : Nat} (h : 2 ^ (hi + 1 - lo) ≤ n) : fld w hi lo < n := (Nat.mod_lt _ (Nat.two_pow_pos _)).trans_le h

/-- The low bits of a word are those of a field and those below it. -/
theorem mod_eq_fld_add {w hi lo : Nat} (h : lo ≤ hi) : w % 2 ^ (hi + 1) = fld w hi lo * 2 ^ lo + w % 2 ^ lo := by
  rw [show hi + 1 = lo + (hi + 1 - lo) by omega, Nat.pow_add, Nat.mod_mul, fld, Nat.add_comm, Nat.mul_comm]

theorem toNat_fld_bit (w n : Nat) : (fld w n n == 1).toNat = fld w n n := by
  have h : fld w n n < 2 := fld_lt (by simp)
  rcases (by omega : fld w n n = 0 ∨ fld w n n = 1) with h0 | h1
  · rw [h0]; rfl
  · rw [h1]; rfl

theorem rm_code_of_ofCode {n : Nat} {r : Rm} (h : Rm.ofCode n = some r) : n = r.code := by
  unfold Rm.ofCode at h
  split at h <;> cases h <;> rfl
theorem fmt_code_of_ofCode {n : Nat} {f : Fmt} (h : Fmt.ofCode n = some f) : n = f.code := by
  unfold Fmt.ofCode at h
  split at h <;> cases h <;> rfl

/-! ## Bodies -/

/-- The fields put together are the low n bits of w. -/
def Tiles (w n : Nat) (fields : List (Nat × Nat)) : Prop := bodyOf fields = w % 2 ^ n

namespace Tiles
variable {w hi lo v : Nat} {fs : List (Nat × Nat)}

theorem nil : Tiles w 0 [] := (Nat.mod_one w).symm
theorem value (hv : fld w hi lo = v) (h : Tiles w lo fs) (hlo : lo ≤ hi := by decide) : Tiles w (hi + 1) ((v, lo) :: fs) := by
  rw [Tiles, mod_eq_fld_add hlo, hv, ← h, bodyOf]
theorem field (h : Tiles w lo fs) (hlo : lo ≤ hi := by decide) : Tiles w (hi + 1) ((fld w hi lo, lo) :: fs) := value rfl h hlo
theorem bit (h : Tiles w lo fs) : Tiles w (lo + 1) (((fld w lo lo == 1).toNat, lo) :: fs) := value (toNat_fld_bit w lo).symm h (Nat.le_refl lo)
theorem zero (hz : fld w hi lo = 0) (h : Tiles w lo fs) (hlo : lo ≤ hi := by decide) : Tiles w (hi + 1) fs := by
  rw [Tiles, mod_eq_fld_add hlo, hz, ← h, Nat.zero_mul, Nat.zero_add]
/-- A minor code, which the encoder may write as a smaller number further up. -/
theorem const {c k : Nat} (hv : fld w hi lo = v) (h : Tiles w lo fs) (hc : c * 2 ^ k = v * 2 ^ lo := by decide) (hlo : lo ≤ hi := by decide) :
    Tiles w (hi + 1) ((c, k) :: fs) := by
  rw [Tiles, mod_eq_fld_add hlo, hv, ← h, bodyOf, hc]
theorem swap {n : Nat} {x y : Nat × Nat} (h : Tiles w n (x :: y :: fs)) : Tiles w n (y :: x :: fs) := by
  rw [Tiles, ← h]
  exact Nat.add_left_comm ..

end Tiles

/-! ## Rows of a map -/

theorem and_lt {b : Bool} {w hi lo n : Nat} (hb : b = true) (h : 2 ^ (hi + 1 - lo) ≤ n := by decide) : (b && decide (fld w hi lo < n)) = true := by
  rw [hb, decide_eq_true (fld_lt h)]; rfl
theorem and_true_of {b c : Bool} (hb : b = true) (hc : c = true) : (b && c) = true := by
  rw [hb, hc]; rfl
theorem and_decide {b : Bool} {p : Prop} [Decidable p] (hb : b = true) (hp : p) : (b && decide p) = true := and_true_of hb (decide_eq_true hp)

/-- The B operand of VSCA is an even register, and the field holds half of its number. -/
theorem and_doubled {b : Bool} {w : Nat} (hb : b = true) : (b && decide (2 * fld w 10 7 < 32) && (2 * fld w 10 7 % 2 == 0)) = true := by
  have hlt : fld w 10 7 < 16 := fld_lt (by decide)
  exact and_true_of (and_decide hb (by omega)) (by simp)

/-- What a decoder answers for w in a map, where it answers an operation: a well-formed one of the map, with w for its word. -/
def Faithful (sl : SlotClass) (w : Nat) (r : Except Ill Instr) : Prop := ∀ i, r = .ok i → i.wf = true ∧ i.inMap sl = true ∧ encode i = w

section
variable {sl : SlotClass} {w : Nat}

theorem slotWord_guardOf {op : Nat} {fs : List (Nat × Nat)} (hw : w < 2 ^ 32) (hop : fld w 26 21 = op) (hbody : Tiles w 21 fs) :
    slotWord (guardOf w) op fs = w := by
  rw [slotWord, guardOf, toNat_fld_bit, hbody, ← hop]
  simp only [fld]
  omega

theorem faithful_error (e : Ill) : Faithful sl w (.error e) := fun _ h => nomatch h
theorem faithful_ite {c : Prop} [Decidable c] {r : Except Ill Instr} {e : Ill} (h : c → Faithful sl w r) : Faithful sl w (if c then r else .error e) := by
  split
  · exact h ‹_›
  · exact faithful_error _
theorem faithful_need {c : Prop} [Decidable c] {r : Except Ill Instr} (h : c → Faithful sl w r) : Faithful sl w (need c r) := faithful_ite h

/-- A row of a map: its operation stands in the map, its operands are inside their files, and its fields tile the body. -/
theorem faithful_row {i : Instr} {op : Nat} {fs : List (Nat × Nat)} (hw : w < 2 ^ 32) (hop : fld w 26 21 = op) (hmap : i.inMap sl = true)
    (henc : encode i = slotWord (guardOf w) op fs) (hwf : i.wf = true) (hbody : Tiles w 21 fs) : Faithful sl w (.ok i) :=
  fun _ h => Except.ok.inj h ▸ ⟨hwf, hmap, henc.trans (slotWord_guardOf hw hop hbody)⟩

end

/-! ## The maps (Tables 4.3 to 4.8)

Case h_n of a split is the n-th row of a map, or of the minor codes of an entry; the last is what the map does not list. Minor code 0 leaves the encoder no constant
to put back, so its row stands apart from those of the other codes. -/

section
variable {w : Nat} (hw : w < 2 ^ 32) (hg : (guardOf w).ok = true)
include hw hg

theorem faithful_decodeX : Faithful .x w (decodeX (guardOf w) w) := by
  unfold decodeX
  split <;> rename_i hop
  -- BR
  case h_1 => exact faithful_need fun h => faithful_row hw hop rfl rfl (and_lt hg) (.zero h <| .field .nil)
  -- BRB
  case h_2 => exact faithful_need fun ⟨h, h'⟩ => faithful_row hw hop rfl rfl (and_lt hg) (.zero h <| .field <| .zero h' .nil)
  -- CALL
  case h_3 => exact faithful_need fun h => faithful_row hw hop rfl rfl (and_lt <| and_lt hg) (.zero h <| .field <| .field .nil)
  -- CALLB
  case h_4 =>
    exact faithful_need fun ⟨h, h', h''⟩ => faithful_row hw hop rfl rfl (and_lt <| and_lt hg) (.zero h <| .field <| .zero h' <| .field <| .zero h'' .nil)
  -- LOOP
  case h_5 => exact faithful_need fun h => faithful_row hw hop rfl rfl (and_lt <| and_lt hg) (.field <| .zero h <| .field .nil)
  -- MBR
  case h_6 =>
    split <;> rename_i hfn
    case h_3 => exact faithful_error _
    case h_1 =>
      exact faithful_need fun ⟨ha, hb, hc, hd⟩ => faithful_row hw hop rfl rfl
        (and_decide (and_lt <| and_decide (and_lt <| and_decide (and_lt <| and_decide (and_lt hg) ha) hb) hc) hd)
        (.field <| .field <| .field <| .field <| .zero hfn .nil)
    case h_2 =>
      exact faithful_need fun ⟨ha, hb, hc, hd⟩ => faithful_row hw hop rfl rfl
        (and_decide (and_lt <| and_decide (and_lt <| and_decide (and_lt <| and_decide (and_lt hg) ha) hb) hc) hd)
        (.field <| .field <| .field <| .field <| .const hfn .nil)
  -- WAITT
  case h_7 => exact faithful_row hw hop rfl rfl (and_lt <| and_lt hg) (.field <| .field .nil)
  -- WAITD, TRAP, BRK
  case h_8 | h_10 | h_11 => exact faithful_need fun h => faithful_row hw hop rfl rfl (and_lt hg) (.zero h <| .field .nil)
  -- NXT, EXIT, YIELD
  case h_9 | h_18 | h_19 => exact faithful_need fun h => faithful_row hw hop rfl rfl hg (.zero h .nil)
  -- CBAR
  case h_12 =>
    split <;> rename_i hfn
    case h_3 => exact faithful_error _
    case h_1 =>
      exact faithful_need fun ⟨h, h', hc⟩ => faithful_row hw hop rfl rfl (and_true_of (and_lt hg) hc) (.zero h <| .zero hfn <| .zero h' <| .field .nil)
    case h_2 =>
      exact faithful_need fun ⟨h, h', hc⟩ => faithful_row hw hop rfl rfl
        (and_true_of (and_lt hg) hc) (.zero h <| .swap <| .const hfn <| .zero h' <| .field .nil)
  -- DBAR, SSB
  case h_13 | h_14 =>
    split <;> rename_i hfn
    case h_3 => exact faithful_error _
    case h_1 => exact faithful_need fun ⟨h, h'⟩ => faithful_row hw hop rfl rfl hg (.zero h <| .zero hfn <| .zero h' .nil)
    case h_2 => exact faithful_need fun ⟨h, h'⟩ => faithful_row hw hop rfl rfl hg (.zero h <| .const hfn <| .zero h' .nil)
  -- BSTAT
  case h_15 =>
    split <;> rename_i hfn
    case h_4 => exact faithful_error _
    case h_1 =>
      exact faithful_need fun ⟨h, h', h'', hd, hc⟩ => faithful_row hw hop rfl rfl
        (and_true_of (and_lt <| and_decide hg hd) hc) (.zero h <| .field <| .zero h' <| .zero hfn <| .zero h'' <| .field .nil)
    all_goals
      exact faithful_need fun ⟨h, h', h'', hd⟩ => faithful_row hw hop rfl rfl
        (and_decide hg hd) (.zero h <| .field <| .zero h' <| .const hfn <| .zero h'' .nil)
  -- TMGE
  case h_16 =>
    exact faithful_need fun ⟨h, h', hd⟩ => faithful_row hw hop rfl rfl (and_lt <| and_decide hg hd) (.zero h <| .field <| .field <| .zero h' .nil)
  -- BDGE
  case h_17 => exact faithful_need fun ⟨h, hd⟩ => faithful_row hw hop rfl rfl (and_lt <| and_decide hg hd) (.zero h <| .field <| .field .nil)
  case h_20 => exact faithful_error _

theorem faithful_decodeS : Faithful .s w (decodeS (guardOf w) w) := by
  unfold decodeS
  split <;> rename_i hop
  -- ALU
  case h_1 =>
    split <;> rename_i hfn
    case h_27 => exact faithful_error _
    case h_1 =>
      exact faithful_need fun h => faithful_row hw hop rfl rfl (and_lt <| and_lt <| and_lt hg) (.field <| .field <| .field <| .zero h <| .zero hfn .nil)
    case h_21 | h_22 | h_23 | h_24 =>
      exact faithful_need fun h => faithful_row hw hop rfl rfl (and_lt <| and_lt hg) (.field <| .field <| .zero h <| .const hfn .nil)
    all_goals
      exact faithful_need fun h => faithful_row hw hop rfl rfl (and_lt <| and_lt <| and_lt hg) (.field <| .field <| .field <| .zero h <| .const hfn .nil)
  -- ADDI, ANDI, ORI, XORI
  case h_2 | h_3 | h_4 | h_5 => exact faithful_row hw hop rfl rfl (and_lt <| and_lt <| and_lt hg) (.field <| .field <| .field .nil)
  -- SHI
  case h_6 =>
    split <;> rename_i hfn
    case h_5 => exact faithful_error _
    case h_1 =>
      exact faithful_need fun ⟨h, h'⟩ => faithful_row hw hop rfl rfl
        (and_lt <| and_lt <| and_lt hg) (.field <| .field <| .zero h <| .zero hfn <| .zero h' <| .field .nil)
    all_goals
      exact faithful_need fun ⟨h, h'⟩ => faithful_row hw hop rfl rfl
        (and_lt <| and_lt <| and_lt hg) (.field <| .field <| .zero h <| .swap <| .const hfn <| .zero h' <| .field .nil)
  -- MOVI, MOVK16, MOVK32, MOVK48
  case h_7 | h_8 | h_9 | h_10 => exact faithful_row hw hop rfl rfl (and_lt <| and_lt hg) (.field <| .field .nil)
  -- CMP
  case h_11 =>
    split <;> rename_i hfn
    case h_7 => exact faithful_error _
    case h_1 =>
      exact faithful_need fun ⟨h, h', hd⟩ => faithful_row hw hop rfl rfl
        (and_lt <| and_lt <| and_decide hg hd) (.zero h <| .field <| .field <| .field <| .zero h' <| .zero hfn .nil)
    all_goals
      exact faithful_need fun ⟨h, h', hd⟩ => faithful_row hw hop rfl rfl
        (and_lt <| and_lt <| and_decide hg hd) (.zero h <| .field <| .field <| .field <| .zero h' <| .const hfn .nil)
  -- CMPI
  case h_12 =>
    split <;> rename_i hfn
    case h_7 => exact faithful_error _
    case h_1 =>
      exact faithful_need fun ⟨h, hd⟩ => faithful_row hw hop rfl rfl
        (and_lt <| and_lt <| and_decide hg hd) (.zero h <| .field <| .field <| .zero hfn <| .field .nil)
    all_goals
      exact faithful_need fun ⟨h, hd⟩ => faithful_row hw hop rfl rfl
        (and_lt <| and_lt <| and_decide hg hd) (.zero h <| .field <| .field <| .swap <| .const hfn <| .field .nil)
  -- PLOG
  case h_13 =>
    split <;> rename_i hfn
    case h_7 => exact faithful_error _
    case h_1 =>
      exact faithful_need fun ⟨h, h', h'', h3, hd, ha, hb⟩ => faithful_row hw hop rfl rfl
        (and_decide (and_decide (and_decide hg hd) ha) hb) (.zero h <| .field <| .zero h' <| .field <| .zero h'' <| .field <| .zero h3 <| .zero hfn .nil)
    case h_6 =>
      exact faithful_need fun ⟨h, h', h'', hd, ha⟩ => faithful_row hw hop rfl rfl
        (and_decide (and_decide hg hd) ha) (.zero h <| .field <| .zero h' <| .field <| .zero h'' <| .const hfn .nil)
    all_goals
      exact faithful_need fun ⟨h, h', h'', h3, hd, ha, hb⟩ => faithful_row hw hop rfl rfl
        (and_decide (and_decide (and_decide hg hd) ha) hb) (.zero h <| .field <| .zero h' <| .field <| .zero h'' <| .field <| .zero h3 <| .const hfn .nil)
  -- SEL
  case h_14 =>
    exact faithful_need fun ⟨h, hp⟩ => faithful_row hw hop rfl rfl
      (and_decide (and_lt <| and_lt <| and_lt hg) hp) (.field <| .field <| .field <| .zero h <| .field .nil)
  -- SETB
  case h_15 => exact faithful_need fun ⟨h, h'⟩ => faithful_row hw hop rfl rfl (and_lt <| and_lt hg) (.zero h <| .field <| .field <| .zero h' .nil)
  -- GETB
  case h_16 => exact faithful_need fun ⟨h, h'⟩ => faithful_row hw hop rfl rfl (and_lt <| and_lt hg) (.field <| .zero h <| .field <| .zero h' .nil)
  -- SETBI
  case h_17 => exact faithful_need fun ⟨h, h'⟩ => faithful_row hw hop rfl rfl (and_lt <| and_lt hg) (.zero h <| .field <| .zero h' <| .field .nil)
  -- SYSRD, SYSWR
  case h_18 | h_19 =>
    exact faithful_need fun h => faithful_ite fun hn => faithful_row hw hop rfl rfl (and_true_of (and_lt hg) hn) (.field <| .zero h <| .field .nil)
  -- QRD
  case h_20 => exact faithful_need fun ⟨h, h'⟩ => faithful_row hw hop rfl rfl (and_lt <| and_lt hg) (.field <| .zero h <| .field <| .zero h' <| .bit .nil)
  case h_21 => exact faithful_error _

theorem faithful_decodeL : Faithful .l w (decodeL (guardOf w) w) := by
  unfold decodeL
  split <;> rename_i hop
  -- LDB, LDBU, LDH, LDHU, LDW, LDWU, LDD, STB, STH, STW, STD, VLD, VST, VLDF6, VSTF6
  case h_1 | h_2 | h_3 | h_4 | h_5 | h_6 | h_7 | h_8 | h_9 | h_10 | h_11 | h_12 | h_13 | h_18 | h_19 =>
    exact faithful_row hw hop rfl rfl (and_lt <| and_lt <| and_lt hg) (.field <| .field <| .field .nil)
  -- VLDR, VSTR
  case h_14 | h_15 => exact faithful_row hw hop rfl rfl (and_lt <| and_lt <| and_lt <| and_lt hg) (.field <| .field <| .field <| .field .nil)
  -- VLDS, VSTS
  case h_16 | h_17 => exact faithful_need fun h => faithful_row hw hop rfl rfl (and_lt <| and_lt <| and_lt hg) (.field <| .field <| .field <| .zero h .nil)
  -- AMO
  case h_20 =>
    split <;> rename_i hfn
    case h_10 => exact faithful_error _
    case h_1 =>
      exact faithful_need fun h => faithful_row hw hop rfl rfl
        (and_lt <| and_lt <| and_lt hg) (.field <| .field <| .field <| .zero h <| .bit <| .zero hfn .nil)
    all_goals
      exact faithful_need fun h => faithful_row hw hop rfl rfl
        (and_lt <| and_lt <| and_lt hg) (.field <| .field <| .field <| .zero h <| .bit <| .const hfn .nil)
  -- MARK
  case h_21 => exact faithful_need fun h => faithful_row hw hop rfl rfl hg (.zero h .nil)
  case h_22 => exact faithful_error _

theorem faithful_decodeV : Faithful .v w (decodeV (guardOf w) w) := by
  unfold decodeV
  split <;> rename_i hop
  -- VADD.F32, VSUB.F32, VMUL.F32, VFMA.F32, VFMS.F32, VRCPS, VRSQS, VEXPI
  case h_1 | h_2 | h_3 | h_4 | h_5 | h_31 | h_32 | h_34 =>
    split
    case h_1 r hr =>
      exact faithful_row hw hop rfl rfl (and_lt <| and_lt <| and_lt <| and_lt hg) (.field <| .field <| .field <| .field <| .value (rm_code_of_ofCode hr) .nil)
    case h_2 => exact faithful_error _
  -- VFMISC, VIB
  case h_6 | h_11 =>
    split <;> rename_i hfn
    case h_5 => exact faithful_error _
    case h_1 =>
      exact faithful_need fun h => faithful_row hw hop rfl rfl
        (and_lt <| and_lt <| and_lt <| and_lt hg) (.field <| .field <| .field <| .field <| .zero h <| .zero hfn .nil)
    case h_2 =>
      exact faithful_need fun h => faithful_row hw hop rfl rfl
        (and_lt <| and_lt <| and_lt <| and_lt hg) (.field <| .field <| .field <| .field <| .zero h <| .const hfn .nil)
    all_goals
      exact faithful_need fun ⟨h, h'⟩ => faithful_row hw hop rfl rfl
        (and_lt <| and_lt <| and_lt hg) (.field <| .field <| .zero h <| .field <| .zero h' <| .const hfn .nil)
  -- VRND.F32
  case h_7 =>
    refine faithful_need fun h => ?_
    split
    case h_1 r hr =>
      exact faithful_row hw hop rfl rfl (and_lt <| and_lt <| and_lt hg) (.field <| .field <| .zero h <| .field <| .value (rm_code_of_ofCode hr) .nil)
    case h_2 => exact faithful_error _
  -- VCMP.F32
  case h_8 =>
    split <;> rename_i hfn
    case h_6 => exact faithful_error _
    case h_1 =>
      exact faithful_need fun h => faithful_row hw hop rfl rfl
        (and_lt <| and_lt <| and_lt <| and_lt hg) (.zero h <| .field <| .field <| .field <| .field <| .zero hfn .nil)
    all_goals
      exact faithful_need fun h => faithful_row hw hop rfl rfl
        (and_lt <| and_lt <| and_lt <| and_lt hg) (.zero h <| .field <| .field <| .field <| .field <| .const hfn .nil)
  -- VCMP.I32
  case h_9 =>
    split <;> rename_i hfn
    case h_7 => exact faithful_error _
    case h_1 =>
      exact faithful_need fun h => faithful_row hw hop rfl rfl
        (and_lt <| and_lt <| and_lt <| and_lt hg) (.zero h <| .field <| .field <| .field <| .field <| .zero hfn .nil)
    all_goals
      exact faithful_need fun h => faithful_row hw hop rfl rfl
        (and_lt <| and_lt <| and_lt <| and_lt hg) (.zero h <| .field <| .field <| .field <| .field <| .const hfn .nil)
  -- VIA
  case h_10 =>
    split <;> rename_i hfn
    case h_9 => exact faithful_error _
    case h_1 => exact faithful_row hw hop rfl rfl (and_lt <| and_lt <| and_lt <| and_lt hg) (.field <| .field <| .field <| .field <| .zero hfn .nil)
    all_goals exact faithful_row hw hop rfl rfl (and_lt <| and_lt <| and_lt <| and_lt hg) (.field <| .field <| .field <| .field <| .const hfn .nil)
  -- VBIT
  case h_12 =>
    split <;> rename_i hfn
    case h_6 => exact faithful_error _
    case h_1 => exact faithful_row hw hop rfl rfl (and_lt <| and_lt <| and_lt <| and_lt hg) (.field <| .field <| .field <| .field <| .zero hfn .nil)
    case h_5 =>
      exact faithful_need fun h => faithful_row hw hop rfl rfl (and_lt <| and_lt <| and_lt hg) (.field <| .field <| .zero h <| .field <| .const hfn .nil)
    all_goals exact faithful_row hw hop rfl rfl (and_lt <| and_lt <| and_lt <| and_lt hg) (.field <| .field <| .field <| .field <| .const hfn .nil)
  -- VSH
  case h_13 =>
    split <;> rename_i hfn
    case h_5 => exact faithful_error _
    case h_1 =>
      exact faithful_need fun h => faithful_row hw hop rfl rfl
        (and_lt <| and_lt <| and_lt <| and_lt hg) (.field <| .field <| .field <| .field <| .zero h <| .zero hfn .nil)
    all_goals
      exact faithful_need fun h => faithful_row hw hop rfl rfl
        (and_lt <| and_lt <| and_lt <| and_lt hg) (.field <| .field <| .field <| .field <| .zero h <| .const hfn .nil)
  -- VSHI
  case h_14 =>
    split <;> rename_i hfn
    case h_5 => exact faithful_error _
    case h_1 =>
      exact faithful_need fun ⟨h, hi⟩ => faithful_row hw hop rfl rfl
        (and_decide (and_lt <| and_lt hg) hi) (.field <| .field <| .field <| .zero h <| .zero hfn .nil)
    all_goals
      exact faithful_need fun ⟨h, hi⟩ => faithful_row hw hop rfl rfl
        (and_decide (and_lt <| and_lt hg) hi) (.field <| .field <| .field <| .zero h <| .const hfn .nil)
  -- VSEL
  case h_15 =>
    exact faithful_need fun h => faithful_row hw hop rfl rfl (and_lt <| and_lt <| and_lt <| and_lt hg) (.field <| .field <| .field <| .field <| .zero h .nil)
  -- VDOT
  case h_16 =>
    split <;> rename_i hfn
    case h_4 => exact faithful_error _
    case h_1 => exact faithful_row hw hop rfl rfl (and_lt <| and_lt <| and_lt <| and_lt hg) (.field <| .field <| .field <| .field <| .bit <| .zero hfn .nil)
    all_goals exact faithful_row hw hop rfl rfl (and_lt <| and_lt <| and_lt <| and_lt hg) (.field <| .field <| .field <| .field <| .bit <| .const hfn .nil)
  -- VCVT, VCVT.SAT
  case h_17 | h_18 =>
    split
    case h_1 t f r ht hf hr =>
      exact faithful_ite fun hc => faithful_row hw hop rfl rfl
        (and_true_of (and_lt <| and_lt hg) hc)
        (.field <| .field <| .value (fmt_code_of_ofCode ht) <| .value (fmt_code_of_ofCode hf) <| .value (rm_code_of_ofCode hr) .nil)
    case h_2 => exact faithful_error _
  -- VSCA.I32, VSCA.F32
  case h_19 | h_20 =>
    refine faithful_need fun h => ?_
    split
    case h_1 r hr =>
      exact faithful_row hw hop rfl rfl
        (and_lt <| and_doubled <| and_lt <| and_lt hg)
        (.field <| .field <| .value (Nat.mul_div_right _ Nat.two_pos).symm <| .zero h <| .field <| .value (rm_code_of_ofCode hr) .nil)
    case h_2 => exact faithful_error _
  -- VSPLAT, VRCPE, VRSQE, VFEXP, VLG2E
  case h_21 | h_29 | h_30 | h_33 | h_36 =>
    exact faithful_need fun ⟨h, h'⟩ => faithful_row hw hop rfl rfl (and_lt <| and_lt <| and_lt hg) (.field <| .field <| .zero h <| .field <| .zero h' .nil)
  -- VROW, VCOL
  case h_22 | h_23 =>
    split <;> rename_i hfn
    case h_3 => exact faithful_error _
    case h_1 =>
      exact faithful_need fun ⟨h, hi⟩ => faithful_row hw hop rfl rfl
        (and_decide (and_lt <| and_lt hg) hi) (.field <| .field <| .field <| .zero h <| .zero hfn .nil)
    case h_2 =>
      exact faithful_need fun ⟨h, hi⟩ => faithful_row hw hop rfl rfl
        (and_decide (and_lt <| and_lt hg) hi) (.field <| .field <| .field <| .zero h <| .const hfn .nil)
  -- VREDR, VREDC
  case h_24 | h_25 =>
    split <;> rename_i hfn
    case h_7 => exact faithful_error _
    case h_1 =>
      exact faithful_need fun h => faithful_row hw hop rfl rfl (and_lt <| and_lt <| and_lt hg) (.field <| .field <| .zero h <| .field <| .zero hfn .nil)
    all_goals
      exact faithful_need fun h => faithful_row hw hop rfl rfl (and_lt <| and_lt <| and_lt hg) (.field <| .field <| .zero h <| .field <| .const hfn .nil)
  -- VTR
  case h_26 =>
    exact faithful_need fun ⟨h, hi⟩ => faithful_row hw hop rfl rfl (and_decide (and_lt <| and_lt hg) hi) (.field <| .field <| .field <| .zero h .nil)
  -- KOP
  case h_27 =>
    split <;> rename_i hfn
    case h_7 => exact faithful_error _
    case h_1 =>
      exact faithful_need fun ⟨h, h', h'', h3⟩ => faithful_row hw hop rfl rfl
        (and_lt <| and_lt <| and_lt hg) (.zero h <| .field <| .zero h' <| .field <| .zero h'' <| .field <| .zero h3 <| .zero hfn .nil)
    case h_5 | h_6 =>
      exact faithful_need fun ⟨h, h', h''⟩ => faithful_row hw hop rfl rfl
        (and_lt <| and_lt hg) (.zero h <| .field <| .zero h' <| .field <| .zero h'' <| .const hfn .nil)
    all_goals
      exact faithful_need fun ⟨h, h', h'', h3⟩ => faithful_row hw hop rfl rfl
        (and_lt <| and_lt <| and_lt hg) (.zero h <| .field <| .zero h' <| .field <| .zero h'' <| .field <| .zero h3 <| .const hfn .nil)
  -- KTEST
  case h_28 =>
    split <;> rename_i hfn
    case h_3 => exact faithful_error _
    case h_1 =>
      exact faithful_need fun ⟨h, h', h'', hd⟩ => faithful_row hw hop rfl rfl
        (and_lt <| and_decide hg hd) (.zero h <| .field <| .zero h' <| .field <| .zero h'' <| .zero hfn .nil)
    case h_2 =>
      exact faithful_need fun ⟨h, h', h'', hd⟩ => faithful_row hw hop rfl rfl
        (and_lt <| and_decide hg hd) (.zero h <| .field <| .zero h' <| .field <| .zero h'' <| .const hfn .nil)
  -- VEXPX
  case h_35 =>
    split <;> rename_i hfn
    case h_3 => exact faithful_error _
    case h_1 =>
      exact faithful_need fun ⟨h, h'⟩ => faithful_row hw hop rfl rfl
        (and_lt <| and_lt <| and_lt hg) (.field <| .field <| .zero h <| .field <| .zero h' <| .zero hfn .nil)
    case h_2 =>
      exact faithful_need fun ⟨h, h'⟩ => faithful_row hw hop rfl rfl
        (and_lt <| and_lt <| and_lt hg) (.field <| .field <| .zero h <| .field <| .zero h' <| .const hfn .nil)
  -- VRNG
  case h_37 =>
    split <;> rename_i hfn
    case h_3 => exact faithful_error _
    case h_1 =>
      exact faithful_need fun ⟨h, h'⟩ => faithful_row hw hop rfl rfl (and_lt <| and_lt hg) (.field <| .zero h <| .field <| .zero h' <| .zero hfn .nil)
    case h_2 =>
      exact faithful_need fun ⟨h, h'⟩ => faithful_row hw hop rfl rfl (and_lt <| and_lt hg) (.field <| .zero h <| .field <| .zero h' <| .const hfn .nil)
  case h_38 => exact faithful_error _

theorem faithful_decodeM : Faithful .m w (decodeM (guardOf w) w) := by
  unfold decodeM
  split <;> rename_i hop
  -- MLEASE, MREL
  case h_1 | h_2 => exact faithful_need fun h => faithful_row hw hop rfl rfl hg (.zero h .nil)
  -- MSET
  case h_3 => exact faithful_need fun ⟨h, hc⟩ => faithful_row hw hop rfl rfl (and_lt <| and_decide hg hc) (.field <| .field <| .zero h .nil)
  -- MSETI
  case h_4 => exact faithful_need fun hc => faithful_row hw hop rfl rfl (and_lt <| and_decide hg hc) (.field <| .field .nil)
  -- MWLD, MWLDA, MWLDB
  case h_5 | h_6 | h_7 =>
    refine faithful_need fun h => ?_
    split
    case h_1 f hf => exact faithful_ite fun hc => faithful_row hw hop rfl rfl (and_true_of hg hc) (.value (fmt_code_of_ofCode hf) <| .zero h .nil)
    case h_2 => exact faithful_error _
  -- MMA
  case h_8 =>
    split <;> rename_i hfn
    case h_3 => exact faithful_error _
    case h_1 =>
      refine faithful_need fun h => ?_
      split
      case h_1 f f' hf hf' =>
        exact faithful_ite fun hc => faithful_row hw hop rfl rfl
          (and_true_of (and_lt hg) hc) (.value (fmt_code_of_ofCode hf) <| .value (fmt_code_of_ofCode hf') <| .field <| .zero hfn <| .zero h .nil)
      case h_2 => exact faithful_error _
    case h_2 =>
      refine faithful_need fun h => ?_
      split
      case h_1 f f' hf hf' =>
        exact faithful_ite fun hc => faithful_row hw hop rfl rfl
          (and_true_of (and_lt hg) hc) (.value (fmt_code_of_ofCode hf) <| .value (fmt_code_of_ofCode hf') <| .field <| .const hfn <| .zero h .nil)
      case h_2 => exact faithful_error _
  -- MZERO
  case h_9 => exact faithful_need fun ⟨h, h'⟩ => faithful_row hw hop rfl rfl (and_lt hg) (.zero h <| .field <| .zero h' .nil)
  -- MDRV
  case h_10 => exact faithful_need fun h => faithful_row hw hop rfl rfl (and_lt <| and_lt <| and_lt hg) (.field <| .field <| .field <| .zero h .nil)
  -- MDRS
  case h_11 => exact faithful_need fun h => faithful_row hw hop rfl rfl (and_lt <| and_lt hg) (.field <| .field <| .zero h .nil)
  case h_12 => exact faithful_error _

theorem faithful_decodeC : Faithful .c w (decodeC (guardOf w) w) := by
  unfold decodeC
  split <;> rename_i hop
  -- CPY, CPL, SEND, RECV
  case h_1 | h_3 | h_6 | h_7 => exact faithful_row hw hop rfl rfl (and_lt <| and_lt <| and_lt hg) (.field <| .field <| .field .nil)
  -- CPYT
  case h_2 => exact faithful_row hw hop rfl rfl (and_lt <| and_lt <| and_lt <| and_lt hg) (.field <| .field <| .field <| .field <| .bit <| .bit .nil)
  -- CPROG
  case h_4 =>
    exact faithful_need fun ⟨h, hf⟩ => faithful_row hw hop rfl rfl
      (and_true_of (and_lt <| and_lt <| and_lt hg) hf) (.field <| .field <| .field <| .zero h .nil)
  -- CPROGI
  case h_5 => exact faithful_need fun hf => faithful_row hw hop rfl rfl (and_lt <| and_true_of (and_lt <| and_lt hg) hf) (.field <| .field <| .field .nil)
  -- XMARK, KROT
  case h_8 | h_12 => exact faithful_need fun h => faithful_row hw hop rfl rfl hg (.zero h .nil)
  -- TBUMP, TCOMMIT, TDIG
  case h_9 | h_10 | h_11 => exact faithful_need fun h => faithful_row hw hop rfl rfl (and_lt hg) (.field <| .zero h .nil)
  -- SEAL, UNSEAL, SCRUB
  case h_13 | h_14 | h_15 => exact faithful_need fun ⟨h, h'⟩ => faithful_row hw hop rfl rfl (and_lt hg) (.zero h <| .field <| .zero h' .nil)
  case h_16 => exact faithful_error _

end

theorem faithful_decodeIn {w : Nat} (hw : w < 2 ^ 32) (hg : (guardOf w).ok = true) (sl : SlotClass) : Faithful sl w (decodeIn sl (guardOf w) w) := by
  cases sl
  case x => exact faithful_decodeX hw hg
  case s => exact faithful_decodeS hw hg
  case l => exact faithful_decodeL hw hg
  case v => exact faithful_decodeV hw hg
  case m => exact faithful_decodeM hw hg
  case c => exact faithful_decodeC hw hg

theorem faithful_nop {w : Nat} (hw : w < 2 ^ 32) (hg : (guardOf w).ok = true) (h0 : fld w 26 0 = 0) (sl : SlotClass) :
    Faithful sl w (.ok (.nop (guardOf w))) := by
  have hmajor : fld w 26 21 = 0 := by simp only [fld] at h0 ⊢; omega
  have hbody : fld w 20 0 = 0 := by simp only [fld] at h0 ⊢; omega
  exact faithful_row hw hmajor rfl rfl hg (.zero hbody .nil)

theorem faithful_decodeWord {w : Nat} (hw : w < 2 ^ 32) (sl : SlotClass) : Faithful sl w (decodeWord sl w) := by
  by_cases hones : w = 0xFFFFFFFF
  · rw [show decodeWord sl w = .error .unassigned from if_pos hones]
    exact faithful_error _
  by_cases hpred : 12 ≤ fld w 30 27
  · rw [decodeWord_reservedGuard hones hpred]
    exact faithful_error _
  have hp := Nat.lt_of_not_le hpred
  by_cases h0 : fld w 26 0 = 0
  · rw [decodeWord_nop hones hp h0]
    exact faithful_nop hw (decide_eq_true hp) h0 sl
  · rw [decodeWord_eq_decodeIn hones hp h0]
    exact faithful_decodeIn hw (decide_eq_true hp) sl

/-- Settles O2: row by row of the six maps, the fields that the decoder reads and the bits that it wants zero tile the body of the word. -/
theorem decodeEncodeAgree : Obligations.DecodeEncodeAgree := by
  unfold Obligations.DecodeEncodeAgree
  exact fun sl w i hw h => faithful_decodeWord hw sl i h

end Sys2Proof.Proofs
end

section
/-! PROOFS. Numbers as bytes: what a list of bytes holds (R3), byte by byte and cut in two. -/
namespace Sys2Proof.Proofs
open Sys2Proof.Machine Sys2Proof.Laws

theorem leNat_lt (l : List Byte) : leNat l < 256 ^ l.length := by
  induction l with
  | nil => exact Nat.one_pos
  | cons b l ih =>
    rw [leNat, List.length_cons, Nat.pow_succ]
    omega

theorem leNat_cons_div (b : Byte) (l : List Byte) : leNat (b :: l) / 256 = leNat l := by
  rw [leNat]
  omega

theorem leNat_drop (l : List Byte) (i : Nat) : leNat (l.drop i) = leNat l / 256 ^ i := by
  induction i generalizing l with
  | zero => rw [List.drop_zero, Nat.pow_zero, Nat.div_one]
  | succ i ih =>
    cases l with
    | nil => rw [List.drop_nil, leNat, Nat.zero_div]
    | cons b l => rw [List.drop_succ_cons, ih, Nat.pow_succ', ← Nat.div_div_eq_div_mul, leNat_cons_div]

theorem leNat_take (l : List Byte) (n : Nat) : leNat (l.take n) = leNat l % 256 ^ n := by
  induction n generalizing l with
  | zero => rw [List.take_zero, leNat, Nat.pow_zero, Nat.mod_one]
  | succ n ih =>
    cases l with
    | nil => rw [List.take_nil, leNat, Nat.zero_mod]
    | cons b l =>
      rw [List.take_succ_cons, leNat, ih, Nat.pow_succ', Nat.mod_mul, leNat_cons_div, leNat, Nat.add_mul_mod_self_left, Nat.mod_eq_of_lt b.isLt]

/-- Byte i of the number that bytes hold. -/
theorem leNat_byte {l : List Byte} {i : Nat} (hi : i < l.length) : leNat l / 256 ^ i % 256 = l[i].toNat := by
  rw [← leNat_drop, List.drop_eq_getElem_cons hi, leNat, Nat.add_mul_mod_self_left, Nat.mod_eq_of_lt l[i].isLt]

theorem leBytes_getElem {n i : Nat} (v : Nat) (hi : i < (leBytes n v).length) : (leBytes n v)[i] = BitVec.ofNat 8 (v / 256 ^ i) := by
  induction n generalizing v i with
  | zero => cases hi
  | succ n ih =>
    cases i with
    | zero => simp [leBytes]
    | succ i => simpa only [leBytes, List.getElem_cons_succ, Nat.pow_succ', ← Nat.div_div_eq_div_mul] using ih (v / 256) _

end Sys2Proof.Proofs
end

section
/-! PROOFS. Words of 64 bits as numbers: the functions of Table 5.1 as signed or unsigned arithmetic (R115 to R118). -/
namespace Sys2Proof.Proofs
open Sys2Proof.Machine Sys2Proof.Laws Sys2Proof.Claims

/-! ### Sums, products and shifts -/

section
variable {A B : Word} {n : Nat}

theorem word_add_eq : A + B = BitVec.ofNat 64 (A.toNat + B.toNat) := by
  rw [BitVec.ofNat_add, BitVec.ofNat_toNat, BitVec.ofNat_toNat, BitVec.setWidth_eq, BitVec.setWidth_eq]
theorem word_sub_eq : A - B = BitVec.ofInt 64 (A.toInt - B.toInt) :=
  BitVec.eq_of_toInt_eq (by rw [BitVec.toInt_sub, BitVec.toInt_ofInt])
theorem word_mul_eq : A * B = BitVec.ofNat 64 (A.toNat * B.toNat) := by
  rw [BitVec.ofNat_mul, BitVec.ofNat_toNat, BitVec.ofNat_toNat, BitVec.setWidth_eq, BitVec.setWidth_eq]

theorem word_shiftLeft_eq (A : Word) (n : Nat) : A <<< n = BitVec.ofNat 64 (A.toNat * 2 ^ n) :=
  BitVec.eq_of_toNat_eq (by rw [BitVec.toNat_shiftLeft, Nat.shiftLeft_eq, BitVec.toNat_ofNat])
theorem word_ushiftRight_eq (A : Word) (n : Nat) : A >>> n = BitVec.ofNat 64 (A.toNat / 2 ^ n) := by
  have hlt : A.toNat / 2 ^ n < 2 ^ 64 := (Nat.div_le_self ..).trans_lt A.isLt
  exact BitVec.eq_of_toNat_eq (by rw [BitVec.toNat_ushiftRight, Nat.shiftRight_eq_div_pow, BitVec.toNat_ofNat, Nat.mod_eq_of_lt hlt])
theorem word_sshiftRight_eq (A : Word) (n : Nat) : A.sshiftRight n = BitVec.ofInt 64 (A.toInt / 2 ^ n) := by
  rw [← BitVec.ofInt_toInt (x := A.sshiftRight n), BitVec.toInt_sshiftRight, Int.shiftRight_eq_div_pow]
  push_cast
  rfl
theorem rotateLeft_eq_or (hn : n < 64) : A.rotateLeft n = (A <<< n) ||| (A >>> (64 - n)) := by
  rw [BitVec.rotateLeft_def, Nat.mod_eq_of_lt hn]
theorem rotateRight_eq_or (hn : n < 64) : A.rotateRight n = (A >>> n) ||| (A <<< (64 - n)) := by
  rw [BitVec.rotateRight_def, Nat.mod_eq_of_lt hn]

/-- The high half of a product of unsigned numbers. -/
theorem mulHighUnsigned_eq : (A.setWidth 128 * B.setWidth 128).extractLsb' 64 64 = BitVec.ofNat 64 (A.toNat * B.toNat / 2 ^ 64) := by
  have hprod : A.toNat * B.toNat < 2 ^ 64 * 2 ^ 64 := Nat.mul_lt_mul'' A.isLt B.isLt
  refine BitVec.eq_of_toNat_eq ?_
  rw [BitVec.extractLsb'_toNat, BitVec.toNat_mul, BitVec.toNat_setWidth_of_le (by decide), BitVec.toNat_setWidth_of_le (by decide),
    Nat.shiftRight_eq_div_pow, BitVec.toNat_ofNat]
  omega

theorem extractHigh_eq_ofInt (P : BitVec 128) : P.extractLsb' 64 64 = BitVec.ofInt 64 (P.toInt / 2 ^ 64) := by
  have hlt := P.isLt
  refine BitVec.eq_of_toNat_eq ?_
  rw [BitVec.extractLsb'_toNat, Nat.shiftRight_eq_div_pow, BitVec.toNat_ofInt, BitVec.toInt_eq_toNat_cond]
  split <;> omega

/-- The high half of a product of signed numbers, which 128 bits hold. -/
theorem mulHighSigned_eq : (A.signExtend 128 * B.signExtend 128).extractLsb' 64 64 = BitVec.ofInt 64 (A.toInt * B.toInt / 2 ^ 64) := by
  have habs (X : Word) : |X.toInt| ≤ 2 ^ 63 := by
    have hlt := BitVec.toInt_lt (x := X)
    have hle := BitVec.le_toInt (x := X)
    exact abs_le.mpr ⟨by omega, by omega⟩
  have hprod : |A.toInt * B.toInt| ≤ 2 ^ 63 * 2 ^ 63 := by
    rw [abs_mul]
    exact mul_le_mul (habs A) (habs B) (abs_nonneg _) (by decide)
  obtain ⟨hlo, hhi⟩ := abs_le.mp hprod
  rw [extractHigh_eq_ofInt, BitVec.toInt_mul, BitVec.toInt_signExtend_of_le (by decide), BitVec.toInt_signExtend_of_le (by decide),
    Int.bmod_eq_of_le (by omega) (by omega)]

/-! ### The smaller and the larger of two -/

/-- Of two words, a choice by < and one by ≤ differ only where the words have one value, and are one. -/
theorem choice_lt_eq_le {α β : Type} [LinearOrder β] {v : α → β} (hv : ∀ {a b}, v a = v b → a = b) (a b : α) :
    (if v a < v b then a else b) = (if v a ≤ v b then a else b) ∧ (if v a < v b then b else a) = if v a ≤ v b then b else a := by
  by_cases h : v a = v b
  · rw [hv h]
    exact ⟨by rw [ite_self, ite_self], by rw [ite_self, ite_self]⟩
  · simp only [le_iff_lt_or_eq, h, or_false, and_self]

theorem min_signed_eq : (if A.slt B then A else B) = if A.toInt ≤ B.toInt then A else B := by
  simpa only [BitVec.slt_iff_toInt_lt] using (choice_lt_eq_le BitVec.eq_of_toInt_eq A B).1
theorem max_signed_eq : (if A.slt B then B else A) = if A.toInt ≤ B.toInt then B else A := by
  simpa only [BitVec.slt_iff_toInt_lt] using (choice_lt_eq_le BitVec.eq_of_toInt_eq A B).2
theorem min_unsigned_eq : (if A.ult B then A else B) = if A.toNat ≤ B.toNat then A else B := by
  simpa only [BitVec.ult_iff_toNat_lt] using (choice_lt_eq_le BitVec.eq_of_toNat_eq A B).1
theorem max_unsigned_eq : (if A.ult B then B else A) = if A.toNat ≤ B.toNat then B else A := by
  simpa only [BitVec.ult_iff_toNat_lt] using (choice_lt_eq_le BitVec.eq_of_toNat_eq A B).2

/-! ### Counts and bytes -/

theorem clz64_eq (A : Word) : clz64 A = BitVec.ofNat 64 (if A = 0 then 64 else 63 - Nat.log2 A.toNat) := by
  unfold clz64
  split
  · rfl
  · rfl

theorem leadingZeros_bounds (h : A ≠ 0) : 63 - Nat.log2 A.toNat < 64 ∧ 2 ^ (63 - (63 - Nat.log2 A.toNat)) ≤ A.toNat ∧
    A.toNat < 2 ^ (64 - (63 - Nat.log2 A.toNat)) := by
  have hA : A.toNat ≠ 0 := fun h0 => h (BitVec.eq_of_toNat_eq h0)
  have hlog : Nat.log2 A.toNat < 64 := (Nat.log2_lt hA).mpr A.isLt
  rw [show 63 - (63 - Nat.log2 A.toNat) = Nat.log2 A.toNat by omega, show 64 - (63 - Nat.log2 A.toNat) = Nat.log2 A.toNat + 1 by omega]
  exact ⟨by omega, Nat.log2_self_le hA, Nat.lt_log2_self⟩

theorem find_bit_zero : ((List.range 64).find? fun i => (0 : Word).getLsbD i) = none := List.find?_eq_none.mpr fun i _ => by simp

theorem lowestOne_spec {r : Nat} (hr : ((List.range 64).find? fun i => A.getLsbD i).getD 64 = r) (h : A ≠ 0) :
    r < 64 ∧ A.getLsbD r = true ∧ ∀ i, i < r → A.getLsbD i = false := by
  cases hfind : (List.range 64).find? fun i => A.getLsbD i with
  | none =>
    refine absurd (BitVec.eq_of_getLsbD_eq fun i hi => ?_) h
    rw [Bool.eq_false_iff.mpr (List.find?_eq_none.mp hfind i (List.mem_range.mpr hi))]
    simp
  | some j =>
    rw [hfind, Option.getD_some] at hr
    subst hr
    obtain ⟨hone, hlt, hbelow⟩ := List.find?_range_eq_some.mp hfind
    exact ⟨List.mem_range.mp hlt, hone, fun i hi => by simpa using hbelow i hi⟩

theorem bswap64_byte (A : Word) {i : Nat} (hi : i < 8) : (bswap64 A).toNat / 256 ^ i % 256 = A.toNat / 256 ^ (7 - i) % 256 := by
  have hlength : (leBytes 8 A.toNat).reverse.length = 8 := List.length_reverse.trans (leBytes_length ..)
  have hlt : leNat (leBytes 8 A.toNat).reverse < 2 ^ 64 := (leNat_lt _).trans_eq (congrArg (256 ^ ·) hlength)
  rw [bswap64, BitVec.toNat_ofNat, Nat.mod_eq_of_lt hlt, leNat_byte (hi.trans_eq hlength.symm), List.getElem_reverse, leBytes_getElem, leBytes_length,
    BitVec.toNat_ofNat]

/-! ### Immediates -/

/-- MOVK writes bits k + 15 to k and leaves the others (R117). -/
theorem movk_toNat (D : Word) {k i : Nat} (hi : i < 2 ^ 16) (hk : k + 16 ≤ 64) :
    ((D &&& ~~~(0xFFFF#64 <<< k)) ||| (BitVec.ofNat 64 (i % 2 ^ 16) <<< k)).toNat = D.toNat / 2 ^ (k + 16) * 2 ^ (k + 16) + i * 2 ^ k + D.toNat % 2 ^ k := by
  have hlow := Nat.mod_lt D.toNat (Nat.two_pow_pos k)
  have hmid : 2 ^ k * i + D.toNat % 2 ^ k < 2 ^ (k + 16) := by
    calc 2 ^ k * i + D.toNat % 2 ^ k < 2 ^ k * (i + 1) := by rw [Nat.mul_succ]; omega
      _ ≤ 2 ^ (k + 16) := by rw [Nat.pow_add]; exact Nat.mul_le_mul_left _ hi
  refine Nat.eq_of_testBit_eq fun j => ?_
  have hones : Nat.testBit 0xFFFF (j - k) = decide (j - k < 16) := Nat.testBit_two_pow_sub_one 16 _
  rw [Nat.mul_comm, Nat.mul_comm i, Nat.add_assoc, Nat.testBit_two_pow_mul_add _ hmid, Nat.testBit_two_pow_mul_add _ hlow, BitVec.testBit_toNat,
    Nat.mod_eq_of_lt hi]
  simp only [BitVec.getLsbD_or, BitVec.getLsbD_and, BitVec.getLsbD_not, BitVec.getLsbD_shiftLeft, BitVec.getLsbD_ofNat, Nat.testBit_mod_two_pow,
    Nat.testBit_div_two_pow, hones, BitVec.testBit_toNat]
  by_cases hbelow : j < k
  · have h64 : j < 64 := by omega
    have hin : j < k + 16 := by omega
    simp [hbelow, h64, hin]
  · by_cases hin : j < k + 16
    · have h64 : j < 64 := by omega
      have hshift : j - k < 64 := by omega
      have hfield : j - k < 16 := by omega
      simp [*]
    · have hfield : ¬ j - k < 16 := by omega
      have hback : j - (k + 16) + (k + 16) = j := by omega
      have hi0 : i.testBit (j - k) = false := Nat.testBit_lt_two_pow (hi.trans_le (Nat.pow_le_pow_right (by decide) (by omega)))
      by_cases h64 : j < 64
      · simp [*]
      · have hD : D.getLsbD j = false := BitVec.getLsbD_of_ge D j (by omega)
        simp [*]

/-! ### Clamping (R62) -/

theorem clampInt_i64 (v : Int) : clampInt .i64 v = (clampI64 v, decide (clampI64 v ≠ v)) := by
  have hmin : intMin .i64 = -9223372036854775808 := rfl
  have hmax : intMax .i64 = 9223372036854775807 := rfl
  have hclamp (x : Int) (h : clampI64 v = x) (b : Bool) (hb : b = decide (x ≠ v)) : (x, b) = (clampI64 v, decide (clampI64 v ≠ v)) := by rw [h, hb]
  unfold clampInt
  rw [hmin, hmax]
  unfold clampI64 at hclamp ⊢
  split
  · exact hclamp _ (by omega) _ (decide_eq_true (by omega)).symm
  · split
    · exact hclamp _ (by omega) _ (decide_eq_true (by omega)).symm
    · exact hclamp _ (by omega) _ (decide_eq_false (by omega)).symm

end

end Sys2Proof.Proofs
end

section
/-! PROOFS. Arithmetic of slot S (O5): an operation whose guard reads 1 leaves its one result on its way, and its value is that of Table 5.1 (R114 to R117). -/
namespace Sys2Proof.Proofs
open Sys2Proof.Machine Sys2Proof.Laws Sys2Proof.Claims

section
variable {g : Guard} {s : State} (h : s.here.guardOn g = true)
include h

/-! ### Results on their way -/

theorem slotOp_result {lat : Nat} {f : State → Core → Write} {w : Write} (hw : f s (s.here.charge 1).next = w) :
    slotOp g 1 (fun s c => c.result (s.now c) lat (f s c)) s = .next (withResult s 1 lat w) := by
  rw [slotOp_on h, hw]
  rfl
theorem aluRR_result {lat d a b : Nat} {f : Word → Word → Word} {v : Word} (hv : f (s.readX s.here a) (s.readX s.here b) = v) :
    aluRR g lat d a b f s = .next (withResult s 1 lat (.x d v)) := slotOp_result h (congrArg (Write.x d) hv)
theorem aluR_result {d a : Nat} {f : Word → Word} {v : Word} (hv : f (s.readX s.here a) = v) :
    aluR g d a f s = .next (withResult s 1 1 (.x d v)) := slotOp_result h (congrArg (Write.x d) hv)

/-- MOVK writes its field into x[d] and leaves the other bits (R117). -/
theorem movk_result {k n d i : Nat} (hi : i < 2 ^ 16) (hn : k + 16 = n) (hn64 : n ≤ 64) :
    ∃ R : Word, movk g k d i s = .next (withResult s 1 1 (.x d R)) ∧
      R.toNat = (s.readX s.here d).toNat / 2 ^ n * 2 ^ n + i * 2 ^ k + (s.readX s.here d).toNat % 2 ^ k :=
  ⟨_, aluR_result h rfl, hn ▸ movk_toNat _ hi (hn ▸ hn64)⟩

/-- The effect of an operation that clamps an exact result (R115). -/
theorem aluSat_result {d a b : Nat} {f : Int → Int → Int} {v : Int} (hv : f (s.readX s.here a).toInt (s.readX s.here b).toInt = v) :
    aluSat g d a b f s = .next (withClamped s d (BitVec.ofInt 64 (clampI64 v)) (decide (clampI64 v ≠ v))) := by
  subst hv
  unfold aluSat withClamped
  rw [slotOp_on h]
  simp only [readX_charge, clampInt_i64]
  cases decide (clampI64 (f (s.readX s.here a).toInt (s.readX s.here b).toInt) ≠ f (s.readX s.here a).toInt (s.readX s.here b).toInt)
  · simp only [List.append_nil, Bool.false_eq_true, if_false]
    rfl
  · rfl

end

/-! ### Table 5.1 -/

theorem twoRegisterResults : TwoRegisterResults := by
  intro g d a b s hg A B n
  have hn : n < 64 := Nat.mod_lt _ (by decide)
  exact ⟨
    (exec_add ..).trans (aluRR_result hg word_add_eq), (exec_sub ..).trans (aluRR_result hg word_sub_eq),
    (exec_and ..).trans (aluRR_result hg rfl), (exec_or ..).trans (aluRR_result hg rfl), (exec_xor ..).trans (aluRR_result hg rfl),
    (exec_andn ..).trans (aluRR_result hg rfl), (exec_orn ..).trans (aluRR_result hg rfl), (exec_xnor ..).trans (aluRR_result hg rfl),
    (exec_sll ..).trans (aluRR_result hg (word_shiftLeft_eq A n)), (exec_srl ..).trans (aluRR_result hg (word_ushiftRight_eq A n)),
    (exec_sra ..).trans (aluRR_result hg (word_sshiftRight_eq A n)), (exec_rol ..).trans (aluRR_result hg (rotateLeft_eq_or hn)),
    (exec_ror ..).trans (aluRR_result hg (rotateRight_eq_or hn)), (exec_mul ..).trans (aluRR_result hg word_mul_eq),
    (exec_mulh ..).trans (aluRR_result hg mulHighSigned_eq), (exec_mulhu ..).trans (aluRR_result hg mulHighUnsigned_eq),
    (exec_min ..).trans (aluRR_result hg min_signed_eq), (exec_max ..).trans (aluRR_result hg max_signed_eq),
    (exec_minu ..).trans (aluRR_result hg min_unsigned_eq), (exec_maxu ..).trans (aluRR_result hg max_unsigned_eq)⟩

theorem saturatingResults : SaturatingResults := by
  intro g d a b s hg A B
  exact ⟨(exec_adds ..).trans (aluSat_result hg rfl), (exec_subs ..).trans (aluSat_result hg rfl)⟩

theorem oneRegisterResults : OneRegisterResults := by
  intro g d a s hg A
  refine ⟨⟨_, (exec_clz ..).trans (aluR_result hg (clz64_eq A)), fun h0 => if_pos h0, fun h0 => ?_⟩,
    ⟨_, (exec_ctz ..).trans (aluR_result hg rfl), fun h0 => ?_, fun h0 => lowestOne_spec rfl h0⟩,
    (exec_popc ..).trans (aluR_result hg rfl),
    ⟨_, (exec_bswap ..).trans (aluR_result hg rfl), fun i hi => bswap64_byte A hi⟩⟩
  · rw [if_neg h0]
    exact leadingZeros_bounds h0
  · rw [show s.readX s.here a = 0 from h0, find_bit_zero, Option.getD_none]

/-! ### Immediate forms -/

theorem immediateResults : ImmediateResults := by
  intro g d a i s hg A D
  refine ⟨fun hi => ?_, fun hi => ?_, fun hi => ?_⟩
  · have hsum : A + sext 11 i = BitVec.ofInt 64 (A.toInt + signedField 11 i) := by
      rw [sext_eq_signedField (by decide) hi, BitVec.ofInt_add, BitVec.ofInt_toInt]
    have hA : BitVec.ofNat 64 A.toNat = A := by rw [BitVec.ofNat_toNat, BitVec.setWidth_eq]
    exact ⟨
      (exec_addi ..).trans (aluR_result hg hsum), (exec_andi ..).trans (aluR_result hg (by rw [BitVec.ofNat_and, hA])),
      (exec_ori ..).trans (aluR_result hg (by rw [BitVec.ofNat_or, hA])), (exec_xori ..).trans (aluR_result hg (by rw [BitVec.ofNat_xor, hA]))⟩
  · exact ⟨
      (exec_slli ..).trans (aluR_result hg (word_shiftLeft_eq A i)), (exec_srli ..).trans (aluR_result hg (word_ushiftRight_eq A i)),
      (exec_srai ..).trans (aluR_result hg (word_sshiftRight_eq A i)), (exec_roli ..).trans (aluR_result hg (rotateLeft_eq_or hi))⟩
  · obtain ⟨R, hexec, hR⟩ := movk_result hg (d := d) hi (show 48 + 16 = 64 from rfl) (Nat.le_refl 64)
    rw [Nat.div_eq_of_lt D.isLt, Nat.zero_mul, Nat.zero_add] at hR
    exact ⟨(exec_movi ..).trans (aluR_result hg (sext_eq_signedField (by decide) hi)), movk_result hg hi (by decide) (by decide),
      movk_result hg hi (by decide) (by decide), R, hexec, hR⟩

/-- Settles O5: each operation is one of three shared forms, and the value of its word is an equation of words. -/
theorem arithmeticResults : Obligations.ArithmeticResults := ⟨twoRegisterResults, saturatingResults, oneRegisterResults, immediateResults⟩

end Sys2Proof.Proofs
end

section
/-! PROOFS. Compares, predicate operations and moves of slot S (O6; R118 to R121, R123), and its system registers (O7; R84, R122). -/
namespace Sys2Proof.Proofs
open Sys2Proof.Machine Sys2Proof.Laws Sys2Proof.Claims

/-! ### Conditions -/

section
variable {A B : Word}

theorem beq_eq_toNat : (A == B) = decide (A.toNat = B.toNat) := by
  rw [beq_eq_decide, decide_eq_decide, BitVec.toNat_inj]
theorem bne_eq_toNat : (A != B) = decide (A.toNat ≠ B.toNat) := by
  rw [bne, beq_eq_toNat, decide_not]
theorem beq_eq_toInt : (A == B) = decide (A.toInt = B.toInt) := by
  rw [beq_eq_decide, decide_eq_decide, BitVec.toInt_inj]
theorem bne_eq_toInt : (A != B) = decide (A.toInt ≠ B.toInt) := by
  rw [bne, beq_eq_toInt, decide_not]
theorem not_slt_eq : (!A.slt B) = decide (B.toInt ≤ A.toInt) := by
  rw [BitVec.slt_eq_decide, ← decide_not, decide_eq_decide, not_lt]
theorem not_ult_eq : (!A.ult B) = decide (B.toNat ≤ A.toNat) := by
  rw [BitVec.ult_eq_decide, ← decide_not, decide_eq_decide, not_lt]

theorem toInt_sext8 {i : Nat} (hi : i < 2 ^ 8) : (sext 8 i).toInt = signedField 8 i := by
  rw [sext_eq_signedField (by decide) hi, BitVec.toInt_ofInt, signedField]
  split <;> exact Int.bmod_eq_of_le (by omega) (by omega)

end

section
variable {g : Guard} {s : State} (h : s.here.guardOn g = true)
include h

theorem cmpRR_result {d a b : Nat} {f : Word → Word → Bool} {v : Bool} (hv : f (s.readX s.here a) (s.readX s.here b) = v) :
    cmpRR g d a b f s = .next (withResult s 1 1 (.p d v)) := slotOp_result h (congrArg (Write.p d) hv)
theorem cmpRI_result {d a i : Nat} {f : Word → Word → Bool} {v : Bool} (hv : f (s.readX s.here a) (sext 8 i) = v) :
    cmpRI g d a i f s = .next (withResult s 1 1 (.p d v)) := slotOp_result h (congrArg (Write.p d) hv)
theorem plog_result {d a b : Nat} {f : Bool → Bool → Bool} {v : Bool} (hv : f (s.here.readP a) (s.here.readP b) = v) :
    plog g d a b f s = .next (withResult s 1 1 (.p d v)) := slotOp_result h (congrArg (Write.p d) hv)

end

theorem compareResults : CompareResults := by
  intro g d a b i s hg hi A B I
  have hI : sext 8 i = I := sext_eq_signedField (by decide) hi
  have hint : (sext 8 i).toInt = signedField 8 i := toInt_sext8 hi
  refine ⟨
    (exec_cmpEq ..).trans (cmpRR_result hg beq_eq_toNat), (exec_cmpNe ..).trans (cmpRR_result hg bne_eq_toNat),
    (exec_cmpLt ..).trans (cmpRR_result hg BitVec.slt_eq_decide), (exec_cmpGe ..).trans (cmpRR_result hg not_slt_eq),
    (exec_cmpLtu ..).trans (cmpRR_result hg BitVec.ult_eq_decide), (exec_cmpGeu ..).trans (cmpRR_result hg not_ult_eq),
    (exec_cmpiEq ..).trans (cmpRI_result hg ?_), (exec_cmpiNe ..).trans (cmpRI_result hg ?_), (exec_cmpiLt ..).trans (cmpRI_result hg ?_),
    (exec_cmpiGe ..).trans (cmpRI_result hg ?_), (exec_cmpiLtu ..).trans (cmpRI_result hg ?_), (exec_cmpiGeu ..).trans (cmpRI_result hg ?_)⟩
  · rw [← hint, beq_eq_toInt]
  · rw [← hint, bne_eq_toInt]
  · rw [← hint, BitVec.slt_eq_decide]
  · rw [← hint, not_slt_eq]
  · rw [← hI, BitVec.ult_eq_decide]
  · rw [← hI, not_ult_eq]

theorem predicateResults : PredicateResults := by
  intro g d a b s hg P
  exact ⟨
    (exec_pand ..).trans (plog_result hg rfl), (exec_por ..).trans (plog_result hg rfl), (exec_pxor ..).trans (plog_result hg (congrFun₂ Bool.bne_eq_xor _ _)),
    (exec_pandn ..).trans (plog_result hg rfl), (exec_porn ..).trans (plog_result hg rfl), (exec_pnot ..).trans (plog_result hg rfl)⟩

theorem moveResults : MoveResults := by
  intro g d a b n t s hg
  have hlow (q : Tile) : q.extractLsb' 0 64 = BitVec.ofNat 64 (q.toNat % 2 ^ 64) :=
    BitVec.eq_of_toNat_eq (by rw [BitVec.extractLsb'_toNat, Nat.shiftRight_zero, BitVec.toNat_ofNat, Nat.mod_mod])
  have hhigh (q : Tile) : q.extractLsb' 64 64 = BitVec.ofNat 64 (q.toNat / 2 ^ 64) :=
    BitVec.eq_of_toNat_eq (by rw [BitVec.extractLsb'_toNat, Nat.shiftRight_eq_div_pow, BitVec.toNat_ofNat])
  exact ⟨
    (exec_sel ..).trans (slotOp_result hg rfl), (exec_setb ..).trans (slotOp_result hg rfl), (exec_getb ..).trans (slotOp_result hg rfl),
    (exec_setbi ..).trans (slotOp_result hg rfl), (exec_qrd ..).trans (slotOp_result hg (congrArg (Write.x d) (hlow _))),
    (exec_qrd ..).trans (slotOp_result hg (congrArg (Write.x d) (hhigh _)))⟩

/-- Settles O6: compares and predicate operations are shared forms, and so is each move. -/
theorem predicateAndMoveResults : Obligations.PredicateAndMoveResults := ⟨compareResults, predicateResults, moveResults⟩

/-! ### System registers -/

theorem toNat_eq_ite (b : Bool) : b.toNat = if b = true then 1 else 0 := by
  cases b
  · rfl
  · rfl

theorem toNat_setWidth_flags (f : Flags) : (f.setWidth 64).toNat = f.toNat := BitVec.toNat_setWidth_of_le (by decide)

theorem srateOf_eq (q : Part) : srateOf q = (if q.overLimit = true then 1 else 0) * 2 ^ 17 + (if q.pend.isSome = true then 1 else 0) * 2 ^ 16 +
    (if q.pend.isSome = true then q.next else q.rate) * 2 ^ 8 + q.rate := by
  rw [srateOf, toNat_eq_ite, toNat_eq_ite]

theorem leaseOf_eq (s : State) (k : Nat) (c : Core) : leaseOf s k c =
    (if c.lease = 2 then ((s.unit (unitOf k)).g + 16384 - s.now c) % 2 ^ 15 * 2 ^ 32 + (s.unit (unitOf k)).cmds % 128 * 2 ^ 16 else 0) +
      (if (c.cmds.any fun m => decide (s.now c < m.s)) = true then 1 else 0) * 2 ^ 5 +
      (if (c.cmds.any fun m => decide (m.s ≤ s.now c) && decide (s.now c < m.c)) = true then 1 else 0) * 2 ^ 4 + (s.unit (unitOf k)).h % 4 * 4 + c.lease := by
  simp only [leaseOf, toNat_eq_ite, beq_iff_eq]

/-- Settles O7: SYSRD reads `State.sysreg`, register by register, and SYSWR writes the three registers that are not RO. -/
theorem systemRegisterAccess : Obligations.SystemRegisterAccess := by
  unfold Obligations.SystemRegisterAccess
  intro g d a n s hg c k q u t bit is
  refine ⟨⟨s.sysreg k c n, (exec_sysrd ..).trans (slotOp_result hg rfl), ?_⟩, fun hn => ?_, fun _ hn => ?_⟩
  · refine ⟨?coreid, ?seq, ?trapinfo, ?stime, ?wtime, ?srate, ?holdinfo, ?tsync, ?fpflags, ?rngkey, ?rngctr, ?budget, ?ecnt, ?lease, ?group⟩
    case group =>
      intro hlo hhi
      unfold State.sysreg
      repeat rw [if_neg (by omega)]
    all_goals rintro rfl
    case srate => exact congrArg (BitVec.ofNat 64) (srateOf_eq q)
    case fpflags => exact toNat_setWidth_flags c.fpflags
    case lease => exact congrArg (BitVec.ofNat 64) (leaseOf_eq s k c)
    all_goals rfl
  · rw [exec_syswr, execSyswr, slotOp_on hg, if_pos hn]
    rfl
  · rw [exec_syswr, execSyswr, slotOp_on hg, if_neg (by omega)]
    rfl

end Sys2Proof.Proofs
end

section
/-! PROOFS. The X slot (O9, O11, O14): LOOP, waits, tests of time, the dispenser, EXIT and YIELD (R139, R141 to R143, R145, R146, R280, R281). -/
namespace Sys2Proof.Proofs
open Sys2Proof.Machine Sys2Proof.Laws Sys2Proof.Claims

section
variable {g : Guard} {s : State}

/-! ### LOOP (R139) -/

theorem loop_taken {a t : Nat} (h : s.here.guardOn g = true) (ha : 1 < (s.readX s.here a).toNat) (ht : t < s.here.nbundles) :
    exec (.loop g a t) s = .next (s.setHere { issued s 1 with dly := 2, tgt := t }) := by
  rw [exec_loop, execLoop, slotTry_on h 1 _ _ ((if_pos ha).trans (targetFault_of_lt ht))]
  exact congrArg (fun c => Host.Outcome.next (s.setHere c)) (if_pos ha)

theorem loop_not_taken {a : Nat} (h : s.here.guardOn g = true) (ha : ¬ 1 < (s.readX s.here a).toNat) (t : Nat) :
    exec (.loop g a t) s = .next (s.setHere (issued s 1)) := by
  rw [exec_loop, execLoop, slotTry_on h 1 _ _ (if_neg ha)]
  exact congrArg (fun c => Host.Outcome.next (s.setHere c)) (if_neg ha)

/-- Settles O9: LOOP checks its target only when its counter exceeds 1, and x0 reads 0. -/
theorem loopCounts : Obligations.LoopCounts := by
  unfold Obligations.LoopCounts
  exact fun g a t s hg => ⟨loop_taken hg, fun ha => loop_not_taken hg (Nat.not_lt.mpr ha) t, loop_not_taken hg (by simp) t⟩

/-! ### Waits and tests (R141, R142) -/

theorem waitFor_beyond {c : Core} {t T : Nat} (h : t + 1 < T) : c.waitFor t T = { c with wait := some (.until' T) } := if_pos h
theorem waitFor_now {c : Core} {t T : Nat} (h : T ≤ t + 1) : c.waitFor t T = c := if_neg (Nat.not_lt.mpr h)

theorem waitsAndTests : WaitsAndTests := by
  intro g d a i s hg t T
  have hT : (s.readX s.here a + BitVec.ofNat 64 i).toNat = T := by
    rw [BitVec.toNat_add, BitVec.toNat_ofNat, Nat.add_mod_mod]
  rw [exec_waitt, exec_waitd, exec_waitd, execWaitt, execWaitd, execWaitd, slotOp_on hg, slotOp_on hg, slotOp_on hg]
  simp only [readX_charge, now_charge, hT]
  refine ⟨fun h => ?_, fun h => ?_, fun h => ?_, ?_, (exec_tmge ..).trans (slotOp_result hg rfl), (exec_bdge ..).trans (slotOp_result hg rfl)⟩
  · rw [waitFor_beyond h]
    rfl
  · rw [waitFor_now h]
    rfl
  · rw [waitFor_beyond (Nat.lt_add_of_pos_right h)]
    rfl
  · rw [waitFor_now (Nat.le_refl _)]
    rfl

/-! ### The dispenser (R143, R280) -/

theorem tileAt_null {l : Launch} {n : Nat} (h : l.tilesx * l.tilesy ≤ n) : (l.tileAt n).toNat = 2 ^ 127 := by
  rw [Launch.tileAt, if_pos h]
  rfl

theorem packedTile_toNat {n row col : Nat} (hn : n < 2 ^ 32) (hrow : row < 2 ^ 32) (hcol : col < 2 ^ 32) :
    (BitVec.ofNat 128 (n % 2 ^ 32 * 2 ^ 64 + row % 2 ^ 32 * 2 ^ 32 + col % 2 ^ 32)).toNat = n * 2 ^ 64 + row * 2 ^ 32 + col := by
  rw [BitVec.toNat_ofNat]
  omega

theorem tileAt_byRows {l : Launch} {n : Nat} (hn : n < l.tilesx * l.tilesy) (h : l.order = 0) (hsize : l.tilesx * l.tilesy < 2 ^ 32) :
    (l.tileAt n).toNat = n * 2 ^ 64 + n / l.tilesx * 2 ^ 32 + n % l.tilesx := by
  have hn32 := hn.trans hsize
  rw [Launch.tileAt, if_neg (Nat.not_le.mpr hn), if_pos h, if_pos h]
  exact packedTile_toNat hn32 ((Nat.div_le_self ..).trans_lt hn32) ((Nat.mod_le ..).trans_lt hn32)

theorem tileAt_byColumns {l : Launch} {n : Nat} (hn : n < l.tilesx * l.tilesy) (h : l.order ≠ 0) (hsize : l.tilesx * l.tilesy < 2 ^ 32) :
    (l.tileAt n).toNat = n * 2 ^ 64 + n % l.tilesy * 2 ^ 32 + n / l.tilesy := by
  have hn32 := hn.trans hsize
  rw [Launch.tileAt, if_neg (Nat.not_le.mpr hn), if_neg h, if_neg h]
  exact packedTile_toNat hn32 ((Nat.mod_le ..).trans_lt hn32) ((Nat.div_le_self ..).trans_lt hn32)

/-- The core after NXT, with the tile on its way. -/
def nxtCore (s : State) (tile : Tile) : Core :=
  { issued s 1 with
    qn := (s.here.qn + 1) % 4
    lands := s.here.lands ++ [⟨s.here.seq + 1, s.now s.here + 24, s.now s.here + 24, true, false, .q s.here.qn tile⟩]
    bound := max s.here.bound (s.now s.here + 24) }
/-- The dispenser of a launch after it has given a tile: one without tiles gives NULL for ever. -/
def dispensed (l : Launch) : Launch := if l.tilesx = 0 then l else { l with tile := l.tile + 1 }

theorem nxt_delivers {l : Launch} (h : s.here.guardOn g = true) (hl : s.launch s.here.part s.here.launch = some l) :
    exec (.nxt g) s = .next ((s.setHere (nxtCore s (l.tileAt l.tile))).modLaunch s.here.part s.here.launch dispensed) := by
  rw [exec_nxt, execNxt, if_pos h, State.myLaunch, hl]
  rfl

theorem nextTile : NextTile := by
  intro g s q l hg hq hl
  have hlaunch : s.launch s.here.part s.here.launch = some l := (launch_of_find hq _).trans hl
  exact ⟨_, _, nxt_delivers hg hlaunch, core_setCore_same .., tileAt_null, tileAt_byRows, tileAt_byColumns,
    (launch_modLaunch ..).trans (congrArg _ hlaunch), rfl, rfl, fun j hj => core_setHere_other _ _ hj⟩

/-- Settles O11: a wait is `Core.waitFor`, and the dispenser gives the tile of `Launch.tileAt`. -/
theorem waitsAndTiles : Obligations.WaitsAndTiles := ⟨waitsAndTests, nextTile⟩

/-! ### EXIT and YIELD (R145, R146) -/

theorem mem_recordArrival (bars : List Barrier) (scope n k t : Nat) :
    ∃ b ∈ recordArrival bars scope n k t, b.scope = scope ∧ (k, t) ∈ b.arrived := by
  unfold recordArrival
  split
  next hany =>
    obtain ⟨b, hb, hsame⟩ := List.any_eq_true.mp hany
    refine ⟨_, List.mem_map_of_mem hb, ?_⟩
    rw [if_pos hsame]
    simp only [Bool.and_eq_true, beq_iff_eq] at hsame
    exact ⟨hsame.1, List.mem_append_right _ (List.mem_singleton_self _)⟩
  next => exact ⟨_, List.mem_append_right _ (List.mem_singleton_self _), rfl, List.mem_singleton_self _⟩

/-- An arrival that does not wait: its number, and its record in the launch of the core. -/
theorem arrive_noWait (s : State) (scope : Nat) :
    (s.arrive scope false).here = { s.here with arrivals := Tab.set 0 s.here.arrivals scope (Tab.get 0 s.here.arrivals scope + 1) } ∧
      (s.arrive scope false).launch s.here.part s.here.launch = (s.launch s.here.part s.here.launch).map fun l =>
        { l with bars := recordArrival l.bars scope (Tab.get 0 s.here.arrivals scope + 1) s.cur.core (s.now s.here) } :=
  ⟨core_setCore_same .., launch_modLaunch ..⟩

theorem releaseLease_none {k : Nat} (h : (s.core k).lease = 0) : s.releaseLease k = s := by
  unfold State.releaseLease
  dsimp only
  rw [if_neg (by omega), if_neg (by omega)]

/-- The core under execution once EXIT has marked it as exiting. -/
def exiting (s : State) : State := s.setHere { issued s 1 with exit := some (s.now s.here) }

theorem exit_arrives {l : Launch} (h : s.here.guardOn g = true) (hl : s.launch s.here.part s.here.launch = some l) (hlease : s.here.lease = 0) :
    exec (.exit g) s = .next ((exiting s).arrive (scopeExit l s.cur.core) false) := by
  have hhere : ((exiting s).arrive (scopeExit l s.cur.core) false).here.lease = 0 := by
    rw [(arrive_noWait ..).1, exiting, here_setHere]
    exact hlease
  rw [exec_exit, execExit, if_pos h, State.myLaunch, hl]
  exact congrArg _ (releaseLease_none hhere)

theorem yield_marks (h : s.here.guardOn g = true) : exec (.yield g) s = .next ((s.setHere (issued s 1)).modCtx s.here.part s.here.asid fun x =>
    if x.armed.isSome then { x with yielded := true } else x) := by
  rw [exec_yield, execYield, if_pos h]
  rfl

/-- Settles O14: EXIT is an arrival at the exit barrier, and YIELD a mark on an armed context. -/
theorem exitAndYield : Obligations.ExitAndYield := by
  unfold Obligations.ExitAndYield
  intro g s q hg hq
  refine ⟨?exit, ?yield⟩
  case exit =>
    intro l hl hlease scope
    have hlaunch := (launch_of_find hq _).trans hl
    obtain ⟨hhere, hrecord⟩ := arrive_noWait (exiting s) scope
    rw [exiting, here_setHere] at hhere hrecord
    exact ⟨_, _, exit_arrives hg hlaunch hlease, hhere, hrecord.trans (congrArg _ hlaunch), mem_recordArrival .., rfl,
      fun j hj => (core_setCore_other _ _ hj).trans (core_setHere_other _ _ hj)⟩
  case yield =>
    intro x hx
    have hctx : s.ctx s.here.part s.here.asid = some x := (ctx_of_find hq _).trans hx
    exact ⟨_, yield_marks hg, core_setCore_same .., (ctx_modCtx ..).trans (congrArg _ hctx), rfl, fun j hj => core_setHere_other _ _ hj⟩

end

end Sys2Proof.Proofs
end

section
/-! PROOFS. Scalar accesses of the L slot (O15): a load, a store or an atomic at a good address enters its queues (R124, R125, R128, R129, R134). -/
namespace Sys2Proof.Proofs
open Sys2Proof.Machine Sys2Proof.Laws Sys2Proof.Claims

theorem spadFault_good {k n al : Nat} {l : List Word} (h : ∀ A ∈ l, GoodAddr k n al A) : spadFault k n al l = none := by
  have hall := spadFault_append_good (l' := []) h
  rwa [List.append_nil] at hall

theorem goodAddr_of_window {k n al : Nat} {A : Word} {y : Nat × Nat} (hal : A.toNat % al = 0) (hy : spadAt k A.toNat n = some y) : GoodAddr k n al A :=
  ⟨hal, by rw [hy]; exact Option.some_ne_none y⟩

/-- What a result that awaits an access adds to a core. -/
theorem awaitX_eq (c : Core) (t d : Nat) : c.awaitX t d = { c with lands := c.lands ++ if d = 0 then [] else [⟨c.seq, t + 1, 0, false, false, .x d 0⟩] } := by
  unfold Core.awaitX
  split
  · rw [List.append_nil]
  · rfl

section
variable {g : Guard} {s : State} {y : Nat × Nat} (hg : s.here.guardOn g = true)
include hg

theorem loadOp_enters {n d a i : Nat} (sx : Bool) (hi : i < 2 ^ 11) (hal : (byteAddr s a i).toNat % n = 0)
    (hy : spadAt s.cur.core (byteAddr s a i).toNat n = some y) :
    loadOp g n sx d a i s = .next (s.setHere
      (({ issued s 2 with lands := s.here.lands ++ awaited s d } : Core).enq (s.now s.here) 0 (.ld d n sx) y 0 4)) := by
  have hgood : spadFault s.cur.core n n [s.lAddr s.here a i] = none := by
    rw [lAddr_eq_byteAddr hi]
    exact spadFault_good (List.forall_mem_singleton.mpr (goodAddr_of_window hal hy))
  have hplace : spadAt s.cur.core (s.lAddr (s.here.charge 2).next a i).toNat n = some y := (congrArg (spadAt s.cur.core ·.toNat n) (lAddr_eq_byteAddr hi)).trans hy
  rw [loadOp, slotTry_on hg 2 _ _ hgood]
  dsimp only
  rw [hplace, awaitX_eq]
  rfl

theorem storeOp_enters {n d a i : Nat} (hi : i < 2 ^ 11) (hal : (byteAddr s a i).toNat % n = 0)
    (hy : spadAt s.cur.core (byteAddr s a i).toNat n = some y) :
    storeOp g n d a i s = .next (s.setHere ((issued s 2).enq (s.now s.here) 0 (.st n (s.readX s.here d)) y 0 8)) := by
  have hgood : spadFault s.cur.core n n [s.lAddr s.here a i] = none := by
    rw [lAddr_eq_byteAddr hi]
    exact spadFault_good (List.forall_mem_singleton.mpr (goodAddr_of_window hal hy))
  have hplace : spadAt s.cur.core (s.lAddr (s.here.charge 2).next a i).toNat n = some y := (congrArg (spadAt s.cur.core ·.toNat n) (lAddr_eq_byteAddr hi)).trans hy
  rw [storeOp, slotTry_on hg 2 _ _ hgood, hplace]
  rfl

theorem amoOp_enters (f : Nat) {n d a b : Nat} {w : Bool} (hn : (if w = true then 4 else 8) = n) (hal : (s.readX s.here a).toNat % n = 0)
    (hy : spadAt s.cur.core (s.readX s.here a).toNat n = some y) :
    amoOp g f d a b w s = .next (s.setHere
      (({ (issued s 2).mark with lands := s.here.lands ++ awaited s d } : Core).enq (s.now s.here) 0 (.amo f d n (s.readX s.here b)) y 0 4).mark) := by
  have hcore : (s.here.charge 2).next = issued s 2 := rfl
  have hplace : spadAt s.cur.core (s.readX (issued s 2) a).toNat n = some y := hy
  rw [amoOp, hn, slotTry_on hg 2 _ _ (spadFault_good (List.forall_mem_singleton.mpr (goodAddr_of_window hal hy))), hcore]
  dsimp only
  rw [hplace, awaitX_eq]
  rfl

end

theorem loadsEnterTheQueue : LoadsEnterTheQueue := by
  intro g d a i s y hg hi loads
  have enters {ins : Instr} {n : Nat} {sx : Bool} (hexec : exec ins s = loadOp g n sx d a i s) : loads ins n sx := by
    intro hal hy
    refine ⟨_, hexec.trans (loadOp_enters hg sx hi hal hy), ⟨_, rfl⟩, ?_⟩
    rw [here_setHere]
    exact ⟨rfl, rfl, rfl, rfl, rfl, rfl⟩
  exact ⟨enters (exec_ldb ..), enters (exec_ldbu ..), enters (exec_ldh ..), enters (exec_ldhu ..), enters (exec_ldw ..), enters (exec_ldwu ..),
    enters (exec_ldd ..)⟩

theorem storesEnterTheQueue : StoresEnterTheQueue := by
  intro g d a i s y hg hi stores
  have enters {ins : Instr} {n : Nat} (hexec : exec ins s = storeOp g n d a i s) : stores ins n := by
    intro hal hy
    refine ⟨_, hexec.trans (storeOp_enters hg hi hal hy), ⟨_, rfl⟩, ?_⟩
    rw [here_setHere]
    exact ⟨rfl, rfl, rfl, rfl, rfl, rfl⟩
  exact ⟨enters (exec_stb ..), enters (exec_sth ..), enters (exec_stw ..), enters (exec_std ..)⟩

/-- An access of an empty queue has its effective issue at once (R128). -/
theorem effIssue_nil {c : Core} (h : c.reqs = []) (t : Nat) : c.effIssue t = some t := by
  rw [Core.effIssue, Core.behind, h]
  rfl

/-- The access of an atomic: it acts as a MARK first (R134). -/
def amoReq (s : State) (f d n : Nat) (x : Word) (y : Nat × Nat) : Req :=
  ⟨s.here.seq + 1, 0, .amo f d n x, y.1, y.2, s.now s.here, 0, 4, (issued s 2).mark.effIssue (s.now s.here), s.here.markGrp + 1, false⟩

theorem atomicsEnterBothQueues : AtomicsEnterBothQueues := by
  intro g d a b w s y hg n atomic
  have enters {ins : Instr} {f : Nat} (hexec : exec ins s = amoOp g f d a b w s) : atomic ins f := by
    intro hal hy
    refine ⟨_, amoReq s f d n (s.readX s.here b) y, hexec.trans (amoOp_enters hg f rfl hal hy), ⟨_, rfl⟩, ?_⟩
    rw [here_setHere]
    exact ⟨rfl, rfl, rfl, rfl, rfl, rfl, rfl, rfl, rfl, fun hempty => effIssue_nil (c := (issued s 2).mark) hempty _, rfl⟩
  refine ⟨enters (exec_amoAdd ..), enters (exec_amoSwap ..), enters (exec_amoAnd ..), enters (exec_amoOr ..), enters (exec_amoXor ..),
    enters (exec_amoMin ..), enters (exec_amoMax ..), enters (exec_amoMinu ..), enters (exec_amoMaxu ..),
    s.setHere (issued s 1).mark, (exec_mark ..).trans (slotOp_on hg 1 fun _ c => c.mark), ⟨_, rfl⟩, ?_⟩
  rw [here_setHere]
  exact ⟨rfl, rfl, rfl, rfl⟩

/-- Settles O15: a good address passes the check of R124, and the access joins the requests of its core. -/
theorem accessesEnterTheQueues : Obligations.AccessesEnterTheQueues := ⟨loadsEnterTheQueue, storesEnterTheQueue, atomicsEnterBothQueues⟩

end Sys2Proof.Proofs
end

section
/-! PROOFS. The row path (O17, R130 to R133, R135), and paths and queues that are taken (O32, R135, R211). -/
namespace Sys2Proof.Proofs
open Sys2Proof.Machine Sys2Proof.Laws Sys2Proof.Claims

/-! ### The accesses of a row operation -/

/-- The access that a row (row, address, kind) of core k becomes, with n bytes and a window of `span` ticks. -/
def rowReq (c : Core) (k t n span : Nat) (r : Nat × Word × ReqKind) : Req :=
  let at' := (spadAt k r.2.1.toNat n).getD (k, 0)
  ⟨c.seq, r.1, r.2.2, at'.1, at'.2, t, r.1, span, c.effIssue t, c.markGrp, false⟩

/-- An access of the present MARK group leaves the effective issue of the next as it is (R128). -/
theorem effIssue_enq (c : Core) (t t' sub : Nat) (kind : ReqKind) (p : Nat × Nat) (off span : Nat) :
    (c.enq t sub kind p off span).effIssue t' = c.effIssue t' := by
  simp [Core.effIssue, Core.behind, Core.enq]

theorem enqRows_eq (rows : List (Nat × Word × ReqKind)) (c : Core) (k t n span : Nat) :
    ∃ acc st, rows.foldl (fun c r => c.enq t r.1 r.2.2 ((spadAt k r.2.1.toNat n).getD (k, 0)) r.1 span) c =
      { c with reqs := c.reqs ++ rows.map (rowReq c k t n span), accHat := acc, stHat := st } := by
  induction rows generalizing c with
  | nil => exact ⟨_, _, by rw [List.map_nil, List.append_nil]; rfl⟩
  | cons r rows ih =>
    obtain ⟨acc, st, hfold⟩ := ih (c.enq t r.1 r.2.2 ((spadAt k r.2.1.toNat n).getD (k, 0)) r.1 span)
    have hrow : rowReq (c.enq t r.1 r.2.2 ((spadAt k r.2.1.toNat n).getD (k, 0)) r.1 span) k t n span = rowReq c k t n span := by
      funext e
      rw [rowReq, effIssue_enq]
      rfl
    have hreqs : (c.enq t r.1 r.2.2 ((spadAt k r.2.1.toNat n).getD (k, 0)) r.1 span).reqs ++ rows.map (rowReq c k t n span) =
        c.reqs ++ (r :: rows).map (rowReq c k t n span) := by
      rw [List.map_cons, List.append_cons]
      rfl
    refine ⟨acc, st, hfold.trans ?_⟩
    rw [hrow, hreqs]
    rfl

/-- The core of a row operation that has taken the row path for `occ` ticks, and once its rows have entered too. -/
def rowPathTaken (s : State) (occ eu : Nat) : Core :=
  { issued s eu with rowPath := some ⟨s.now s.here, true, effective s, s.here.markGrp, occ⟩ }
def rowsQueued (s : State) (occ eu n span : Nat) (rows : List (Nat × Word × ReqKind)) (lands : List Land) (acc st : Nat) : Core :=
  { rowPathTaken s occ eu with
    lands := lands
    reqs := s.here.reqs ++ rows.map (rowReq (issued s 0) s.cur.core (s.now s.here) n span)
    accHat := acc
    stHat := st }

/-- What a row operation does to its core before its accesses enter: it leaves rows of its destination undefined, or nothing. -/
def OnlyLands (pre : Nat → Core → Core) : Prop := ∀ t c, ∃ lands, pre t c = { c with lands := lands }

theorem onlyLands_awaitRows (d : Nat) (rows : List Nat) : OnlyLands (awaitRows d rows) := by
  intro t c
  unfold awaitRows
  induction rows generalizing c with
  | nil => exact ⟨c.lands, rfl⟩
  | cons i rows ih =>
    obtain ⟨lands, hfold⟩ := ih (c.rowResult c.seq (t + 1) 0 false d i (BitVec.allOnes 64) 0)
    exact ⟨lands, hfold⟩

theorem onlyLands_id : OnlyLands fun _ c => c := fun _ c => ⟨c.lands, rfl⟩

/-- A kind of access as it stands once the stores whose tick it is have read their data (R130). -/
def Sampled (k k' : ReqKind) : Prop := k' = k ∨ ∃ d i f6 data, k = .vst d i f6 none ∧ k' = .vst d i f6 data

/-- A row operation has entered the queues of its core: one access a row, and the row path is taken for `occ` ticks. -/
structure RowsEntered (s t : State) (occ n span : Nat) (rows : List (Nat × Word × ReqKind)) : Prop where
  here : onlyHere s t
  queued : ∀ r ∈ rows, ∃ q ∈ t.here.reqs, ∃ kind, Sampled r.2.2 kind ∧ q = { rowReq (issued s 0) s.cur.core (s.now s.here) n span r with kind := kind }
  length : t.here.reqs.length = s.here.reqs.length + rows.length
  path : t.here.rowPath = some ⟨s.now s.here, true, effective s, s.here.markGrp, occ⟩
  x : t.here.x = s.here.x
  v : t.here.v = s.here.v

theorem sampleStores_eq (s : State) (c : Core) :
    ∃ f : Req → Req, s.sampleStores c = { c with reqs := c.reqs.map f } ∧ ∀ r, ∃ kind, Sampled r.kind kind ∧ f r = { r with kind := kind } := by
  refine ⟨_, rfl, fun r => ?_⟩
  split
  next d i f6 hkind =>
    split
    · exact ⟨_, .inr ⟨d, i, f6, _, hkind, rfl⟩, rfl⟩
    · exact ⟨r.kind, .inl rfl, rfl⟩
  next => exact ⟨r.kind, .inl rfl, rfl⟩

section
variable {g : Guard} {s : State} (hg : s.here.guardOn g = true) (hfree : s.rowBlocked s.here = false)
include hg hfree

theorem rowOp_next {occ eu n span : Nat} {rows : State → Core → List (Nat × Word × ReqKind)} {pre : Nat → Core → Core} {lands : List Land} {acc st : Nat}
    (hfault : spadFault s.cur.core n 64 ((rows s s.here).map (·.2.1)) = none)
    (hpre : pre (s.now s.here) (rowPathTaken s occ eu) = { rowPathTaken s occ eu with lands := lands })
    (henq : (rows s s.here).foldl (fun c r => c.enq (s.now s.here) r.1 r.2.2 ((spadAt s.cur.core r.2.1.toNat n).getD (s.cur.core, 0)) r.1 span)
      { rowPathTaken s occ eu with lands := lands } = rowsQueued s occ eu n span (rows s s.here) lands acc st) :
    rowOp g occ eu n span rows pre s = .next (s.setHere (s.sampleStores (rowsQueued s occ eu n span (rows s s.here) lands acc st))) := by
  rw [← henq, ← hpre]
  simp only [rowOp, hg, hfree, Bool.false_eq_true, if_false, if_true, hfault]
  rfl

theorem rowOp_enters {occ eu n span : Nat} {rows : State → Core → List (Nat × Word × ReqKind)} {pre : Nat → Core → Core} (hpre : OnlyLands pre)
    (hgood : ∀ r ∈ rows s s.here, GoodAddr s.cur.core n 64 r.2.1) :
    ∃ t, rowOp g occ eu n span rows pre s = .next t ∧ RowsEntered s t occ n span (rows s s.here) := by
  have hfault : spadFault s.cur.core n 64 ((rows s s.here).map (·.2.1)) = none := by
    refine spadFault_good fun A hA => ?_
    obtain ⟨r, hr, rfl⟩ := List.mem_map.mp hA
    exact hgood r hr
  obtain ⟨lands, hlands⟩ := hpre (s.now s.here) (rowPathTaken s occ eu)
  obtain ⟨acc, st, henq⟩ := enqRows_eq (rows s s.here) { rowPathTaken s occ eu with lands := lands } s.cur.core (s.now s.here) n span
  obtain ⟨f, hsample, hf⟩ := sampleStores_eq s (rowsQueued s occ eu n span (rows s s.here) lands acc st)
  refine ⟨_, rowOp_next hg hfree hfault hlands henq, ⟨_, rfl⟩, fun r hr => ?_, ?_, ?_, ?_, ?_⟩
  all_goals rw [here_setHere, hsample]
  · obtain ⟨kind, hkind, hfr⟩ := hf (rowReq (issued s 0) s.cur.core (s.now s.here) n span r)
    exact ⟨_, List.mem_map_of_mem (List.mem_append_right _ (List.mem_map_of_mem hr)), kind, hkind, hfr⟩
  · rw [List.length_map, rowsQueued, List.length_append, List.length_map]
  · dsimp only [rowsQueued, rowPathTaken]
  · dsimp only [rowsQueued, rowPathTaken, issued]
  · dsimp only [rowsQueued, rowPathTaken, issued]

theorem vldOp_enters {f6 : Bool} {d n : Nat} {at' : State → Core → Nat → Word} (hn : (if f6 = true then 192 else 256) = n)
    (hgood : ∀ j < 16, GoodAddr s.cur.core n 64 (at' s s.here j)) :
    ∃ t, vldOp g f6 d at' s = .next t ∧ RowsEntered s t 16 n 4 ((List.range 16).map fun j => (j, at' s s.here j, .vld d j f6)) := by
  rw [vldOp, hn]
  refine rowOp_enters hg hfree (onlyLands_awaitRows d (List.range 16)) fun r hr => ?_
  obtain ⟨j, hj, rfl⟩ := List.mem_map.mp hr
  exact hgood j (List.mem_range.mp hj)

theorem vstOp_enters {f6 : Bool} {d n : Nat} {at' : State → Core → Nat → Word} (hn : (if f6 = true then 192 else 256) = n)
    (hgood : ∀ j < 16, GoodAddr s.cur.core n 64 (at' s s.here j)) :
    ∃ t, vstOp g f6 d at' s = .next t ∧ RowsEntered s t 16 n 8 ((List.range 16).map fun j => (j, at' s s.here j, .vst d j f6 none)) := by
  rw [vstOp, hn]
  refine rowOp_enters hg hfree onlyLands_id fun r hr => ?_
  obtain ⟨j, hj, rfl⟩ := List.mem_map.mp hr
  exact hgood j (List.mem_range.mp hj)

end

theorem Sampled.of_vld {d i : Nat} {f6 : Bool} {k : ReqKind} (h : Sampled (.vld d i f6) k) : k = .vld d i f6 := by
  obtain rfl | ⟨_, _, _, _, hk, _⟩ := h
  · rfl
  · cases hk

theorem Sampled.of_vst {d i : Nat} {f6 : Bool} {k : ReqKind} (h : Sampled (.vst d i f6 none) k) : ∃ data, k = .vst d i f6 data := by
  obtain rfl | ⟨_, _, _, data, hk, rfl⟩ := h
  · exact ⟨none, rfl⟩
  · cases hk
    exact ⟨data, rfl⟩

/-- The access of one row in the place that its address names. -/
theorem RowsEntered.access {s t : State} {occ n span j : Nat} {rows : List (Nat × Word × ReqKind)} (h : RowsEntered s t occ n span rows) {A : Word}
    {kind : ReqKind} {y : Nat × Nat} (hr : (j, A, kind) ∈ rows) (hy : spadAt s.cur.core A.toNat n = some y) {p : ReqKind → Prop}
    (hp : ∀ k, Sampled kind k → p k) :
    ∃ q ∈ t.here.reqs, q.seq = s.here.seq + 1 ∧ q.sub = j ∧ q.pad = y.1 ∧ q.addr = y.2 ∧ q.off = j ∧ q.span = span ∧ q.e = effective s ∧ p q.kind := by
  obtain ⟨q, hq, k, hk, rfl⟩ := h.queued _ hr
  have hplace : (spadAt s.cur.core A.toNat n).getD (s.cur.core, 0) = y := by rw [hy, Option.getD_some]
  exact ⟨_, hq, rfl, rfl, congrArg Prod.fst hplace, congrArg Prod.snd hplace, rfl, rfl, rfl, hp k hk⟩

/-- Settles O17: with good addresses every row becomes an access of its own, and the operation takes the row path. -/
theorem rowOperationsEnterTheQueues : Obligations.RowOperationsEnterTheQueues := by
  unfold Obligations.RowOperationsEnterTheQueues
  intro g d a b r i s y hg hfree hi queued isLoad isStore whole base strided single
  have loads {ins : Instr} {f6 : Bool} {n : Nat} {A : Nat → Word} {at' : State → Core → Nat → Word} (hexec : exec ins s = vldOp g f6 d at' s)
      (hn : (if f6 = true then 192 else 256) = n) (hat : ∀ j, at' s s.here j = A j) : whole ins n 4 A fun j => isLoad j f6 := by
    intro hgood
    obtain ⟨t, ht, hrows⟩ := vldOp_enters (d := d) (at' := at') hg hfree hn fun j hj => hat j ▸ goodAddr_of_window (hgood j hj).1 (hgood j hj).2
    exact ⟨t, hexec.trans ht, hrows.here,
      fun j hj => hrows.access (List.mem_map_of_mem (List.mem_range.mpr hj)) (hat j ▸ (hgood j hj).2) fun k hk => hk.of_vld, hrows.length, hrows.path,
      hrows.x, hrows.v⟩
  have stores {ins : Instr} {f6 : Bool} {n : Nat} {A : Nat → Word} {at' : State → Core → Nat → Word} (hexec : exec ins s = vstOp g f6 d at' s)
      (hn : (if f6 = true then 192 else 256) = n) (hat : ∀ j, at' s s.here j = A j) : whole ins n 8 A fun j => isStore j f6 := by
    intro hgood
    obtain ⟨t, ht, hrows⟩ := vstOp_enters (d := d) (at' := at') hg hfree hn fun j hj => hat j ▸ goodAddr_of_window (hgood j hj).1 (hgood j hj).2
    exact ⟨t, hexec.trans ht, hrows.here,
      fun j hj => hrows.access (List.mem_map_of_mem (List.mem_range.mpr hj)) (hat j ▸ (hgood j hj).2) fun k hk => hk.of_vst, hrows.length, hrows.path,
      hrows.x, hrows.v⟩
  refine ⟨loads (exec_vld ..) rfl (wholeAddr_eq hi 256), stores (exec_vst ..) rfl (wholeAddr_eq hi 256), loads (exec_vlds ..) rfl fun _ => rfl,
    stores (exec_vsts ..) rfl fun _ => rfl, loads (exec_vldf6 ..) rfl (wholeAddr_eq hi 192), stores (exec_vstf6 ..) rfl (wholeAddr_eq hi 192),
    fun hal hy => ?_⟩
  have hgood {kind : ReqKind} : ∀ q ∈ [(0, oneAddr a (i % 128) s s.here, kind)], GoodAddr s.cur.core 256 64 q.2.1 :=
    List.forall_mem_singleton.mpr (oneAddr_eq ▸ goodAddr_of_window hal hy)
  constructor
  · obtain ⟨t, ht, hrows⟩ := rowOp_enters (occ := 1) (eu := 8) (span := 4) (rows := fun s c => [(0, oneAddr a (i % 128) s c, .vld d r false)]) hg hfree
      (onlyLands_awaitRows d [r]) hgood
    exact ⟨t, (exec_vldr ..).trans ht, hrows.here, hrows.access List.mem_cons_self (oneAddr_eq ▸ hy) fun k hk => hk.of_vld, hrows.length, hrows.path,
      hrows.x, hrows.v⟩
  · obtain ⟨t, ht, hrows⟩ := rowOp_enters (occ := 1) (eu := 8) (span := 8) (rows := fun s c => [(0, oneAddr a (i % 128) s c, .vst d r false none)]) hg
      hfree onlyLands_id hgood
    exact ⟨t, (exec_vstr ..).trans ht, hrows.here, hrows.access List.mem_cons_self (oneAddr_eq ▸ hy) fun k hk => hk.of_vst, hrows.length, hrows.path,
      hrows.x, hrows.v⟩

/-! ### Paths and queues that are taken -/

theorem rowBlocked_of_rowPath {s : State} {y : RowPath} {p e : Nat} (hy : s.here.rowPath = some y) (hp : y.e = some p) (he : effective s = some e)
    (hlt : e < p + y.occ) : s.rowBlocked s.here = true := by
  have heff : s.here.effIssue (s.now s.here) = some e := he
  simp only [State.rowBlocked, hy, hp, heff]
  exact decide_eq_true hlt

theorem rowOp_busy {s : State} (h : s.rowBlocked s.here = true) (g : Guard) (occ eu n span : Nat) (rows : State → Core → List (Nat × Word × ReqKind))
    (pre : Nat → Core → Core) : rowOp g occ eu n span rows pre s = .next (s.trapHere 2 2) := by
  simp only [rowOp, h, if_true]

theorem rowPathBusyTraps : RowPathBusyTraps := by
  intro g d a b r i s y p e hy hp he hlt
  have hbusy := rowBlocked_of_rowPath hy hp he hlt
  have load (f6 : Bool) (at' : State → Core → Nat → Word) : vldOp g f6 d at' s = .next (s.trapHere 2 2) := rowOp_busy hbusy ..
  have store (f6 : Bool) (at' : State → Core → Nat → Word) : vstOp g f6 d at' s = .next (s.trapHere 2 2) := rowOp_busy hbusy ..
  exact ⟨(exec_vld ..).trans (load ..), (exec_vst ..).trans (store ..), (exec_vldr ..).trans (rowOp_busy hbusy ..),
    (exec_vstr ..).trans (rowOp_busy hbusy ..), (exec_vlds ..).trans (load ..), (exec_vsts ..).trans (store ..), (exec_vldf6 ..).trans (load ..),
    (exec_vstf6 ..).trans (store ..)⟩

section
variable {g : Guard} {s : State} (hg : s.here.guardOn g = true)
  (hfull : 16 ≤ ((s.here.stream (s.cur.slot - 6)).copies.filter fun y => y.queued (s.now s.here)).length)
include hg hfull

theorem copyOp_full (ask : State → Core → Nat → Nat → Copy × Bool) (eu : Core → Nat → Copy → Nat) :
    copyOp g ask eu s = .next (s.trapHere 2 (6 + (s.cur.slot - 6))) := by
  simp [copyOp, hg, State.copyTrap, hfull]

theorem sealOp_full (kd : CopyKind) (a : Nat) : sealOp g kd a s = .next (s.trapHere 2 (6 + (s.cur.slot - 6))) := by
  simp [sealOp, hg, hfull]

end

theorem fullCopyQueueTraps : FullCopyQueueTraps := by
  intro g p a v n time vabs nabs s hg hslot hfull traps
  have hinfo : 6 + (s.cur.slot - 6) = s.cur.slot := by omega
  have copy {ins : Instr} {ask : State → Core → Nat → Nat → Copy × Bool} {eu : Core → Nat → Copy → Nat} (hexec : exec ins s = copyOp g ask eu s) : traps ins :=
    hexec.trans (hinfo ▸ copyOp_full hg hfull ask eu)
  have sealed {ins : Instr} {kd : CopyKind} (hexec : exec ins s = sealOp g kd a s) : traps ins :=
    hexec.trans (hinfo ▸ sealOp_full hg hfull kd a)
  exact ⟨copy (exec_cpy ..), copy (exec_cpyt ..), copy (exec_cpl ..), copy (exec_send ..), copy (exec_recv ..), sealed (exec_sealCopy ..),
    sealed (exec_unsealCopy ..), sealed (exec_scrubCopy ..)⟩

/-- Settles O32: both checks come before anything else that the operation does. -/
theorem busyPathsTrap : Obligations.BusyPathsTrap := ⟨rowPathBusyTraps, fullCopyQueueTraps⟩

end Sys2Proof.Proofs
end

section
/-! PROOFS. Performing an access (O18, R125, R134): the access leaves its queue, acts at its bank by its kind, and what waits for it is settled. -/
namespace Sys2Proof.Proofs
open Sys2Proof.Machine Sys2Proof.Laws Sys2Proof.Claims

/-! ### The three stages of a perform tick -/

/-- Whether the operation of an access has failed a check (R61), and the free values that it then deals in. -/
def failedCheck (s : State) (j : Nat) (r : Req) : Bool := (s.core j).spoilt.contains (if r.isL then 2 else 5, r.t)
def freeValue (j : Nat) (r : Req) (i : Nat) : Nat := Config.free j (2 ^ 120 + r.seq * 2 ^ 24 + r.sub * 2 + i)

/-- The bound of a scalar result (R8). -/
def resultBound (s : State) (j : Nat) (r : Req) : Nat := (r.e.getD (s.now (s.core j))) + 5
/-- The core of an access that has left its queues. -/
def leftCore (s : State) (j : Nat) (r : Req) : Core :=
  ((if r.inLd then (s.core j).until' (resultBound s j r + r.off) else s.core j).noteBound r.t 2
    (if r.isL then resultBound s j r + r.off - r.t else 0)).leave r (s.now (s.core j))
def leftQueues (s : State) (j : Nat) (r : Req) : State := s.setCore j (leftCore s j r)

/-- What follows the action of an access of core j at tick t: marks, the stores whose tick it is, and the record of what it has read. -/
def marksSettled (s : State) (j t : Nat) (r : Req) : State := if r.inSt then s.modCore j fun c => c.settleMarks j t else s
def storesSampled (s : State) (j : Nat) (r : Req) : State := if r.isL then s.setCore j (s.sampleStores (s.core j)) else s
def readNoted (s : State) (j : Nat) (r : Req) : State := if r.readLength = 0 then s else s.see j (padKey r.pad r.addr) r.readLength
def accessDone (s : State) (j t : Nat) (r : Req) : State := readNoted (storesSampled (marksSettled s j t r) j r) j r

section
variable {s : State} {j : Nat} {r : Req}

theorem perform_ld {d n : Nat} {sx : Bool} (h : r.kind = .ld d n sx) :
    s.perform j r = accessDone ((leftQueues s j r).modCore j fun c => c.deliver r (landX d (max (resultBound s j r) (s.now (s.core j) + 1))
      (if failedCheck s j r then BitVec.ofNat 64 (freeValue j r 0) else loadValue n sx (s.loadBy j (padKey r.pad r.addr) n))))
      j (s.now (s.core j)) r := by
  rw [State.perform, h]
  rfl

theorem perform_st {n : Nat} {v : Word} (h : r.kind = .st n v) :
    s.perform j r = accessDone ((leftQueues s j r).writeRaced j (padKey r.pad r.addr)
      (leBytes n (if failedCheck s j r then freeValue j r 0 else v.toNat))) j (s.now (s.core j)) r := by
  rw [State.perform, h]
  rfl

theorem perform_vld {d i : Nat} {f6 : Bool} (h : r.kind = .vld d i f6) :
    s.perform j r = accessDone ((leftQueues s j r).modCore j fun c => c.deliver r (landRow d i (s.now (s.core j))
      (if failedCheck s j r then BitVec.ofNat 2048 (freeValue j r 0)
        else if f6 then unpackF6 (s.loadBy j (padKey r.pad r.addr) 192) else BitVec.ofNat 2048 (s.loadBy j (padKey r.pad r.addr) 256))))
      j (s.now (s.core j)) r := by
  rw [State.perform, h]
  rfl

/-- The row that a vector store writes. -/
def storedRow (s : State) (j : Nat) (r : Req) (data : Option Row) : Row := if failedCheck s j r then BitVec.ofNat 2048 (freeValue j r 0) else data.getD 0

theorem perform_vst {d i : Nat} {f6 : Bool} {data : Option Row} (h : r.kind = .vst d i f6 data) :
    s.perform j r = accessDone ((leftQueues s j r).writeRaced j (padKey r.pad r.addr)
      (if f6 then leBytes 192 (packF6 (storedRow s j r data)) else leBytes 256 (storedRow s j r data).toNat)) j (s.now (s.core j)) r := by
  rw [State.perform, h]
  rfl

/-- What an atomic reads, and what it writes (R134, R316, R318). -/
def amoOld (s : State) (j : Nat) (r : Req) (n : Nat) : Word :=
  BitVec.ofNat 64 (if s.raced (padKey r.pad r.addr) n then Config.free j (2 ^ 116 + r.seq) % 2 ^ (8 * n) else s.loadBy j (padKey r.pad r.addr) n)
def amoNew (s : State) (j : Nat) (r : Req) (f n : Nat) (v : Word) : Nat :=
  if failedCheck s j r then freeValue j r 1
  else if s.raced (padKey r.pad r.addr) n then Config.free j (2 ^ 116 + r.seq) / 2 ^ 64 else (amoValue f n (amoOld s j r n) v).toNat

theorem perform_amo {f d n : Nat} {v : Word} (h : r.kind = .amo f d n v) :
    s.perform j r = accessDone (((leftQueues s j r).modCore j fun c => c.deliver r (landX d (max (resultBound s j r) (s.now (s.core j) + 1))
      (if failedCheck s j r then BitVec.ofNat 64 (freeValue j r 0) else amoOld s j r n))).writeRaced j (padKey r.pad r.addr)
      (leBytes n (amoNew s j r f n v))) j (s.now (s.core j)) r := by
  rw [State.perform, h]
  rfl

theorem perform_dline {q h' : Nat} {data : Option Beat} (h : r.kind = .dline q h' data) :
    s.perform j r = accessDone ((leftQueues s j r).writeRaced j (padKey r.pad r.addr)
      (leBytes 64 (if failedCheck s j r then freeValue j r 0 else (data.getD 0).toNat))) j (s.now (s.core j)) r := by
  rw [State.perform, h]
  rfl

theorem perform_cpl {st id b : Nat} {data : Beat} (h : r.kind = .cpl st id b data) :
    s.perform j r = accessDone ((leftQueues s j r).writeRaced j (padKey r.pad r.addr) (leBytes 64 data.toNat)) j (s.now (s.core j)) r := by
  rw [State.perform, h]
  rfl

theorem perform_wline {m k q : Nat} (h : r.kind = .wline m k q) :
    s.perform j r = accessDone ((leftQueues s j r).weightLine j r (r.hi == s.now (s.core j))) j (s.now (s.core j)) r := by
  rw [State.perform, h]
  rfl

theorem perform_aline {q m : Nat} (h : r.kind = .aline q m) :
    s.perform j r = accessDone (if r.hi < s.now (s.core j) then (leftQueues s j r).lateLine j r m else leftQueues s j r) j (s.now (s.core j)) r := by
  rw [State.perform, h]
  rfl

theorem perform_idx {st id m : Nat} (h : r.kind = .idx st id m) :
    s.perform j r = accessDone ((leftQueues s j r).readIndex j st id m) j (s.now (s.core j)) r := by
  rw [State.perform, h]
  rfl

theorem perform_desc {st id : Nat} (h : r.kind = .desc st id) :
    s.perform j r = accessDone ((leftQueues s j r).readDescriptor j st id r) j (s.now (s.core j)) r := by
  rw [State.perform, h]
  rfl

end

/-! ### The frame -/

/-- Between two states only core j and the n bytes from a differ, of memory, partitions, matrix units and cores. -/
structure OnlyAccess (j a n : Nat) (s t : State) : Prop where
  byte : ∀ b, b < a ∨ a + n ≤ b → t.byte b = s.byte b
  parts : t.parts = s.parts
  units : t.units = s.units
  core : ∀ k, k ≠ j → t.core k = s.core k

section
variable {j a n : Nat} {s t u : State}

theorem OnlyAccess.refl : OnlyAccess j a n s s := ⟨fun _ _ => rfl, rfl, rfl, fun _ _ => rfl⟩

theorem OnlyAccess.trans (h : OnlyAccess j a n s t) (h' : OnlyAccess j a n t u) : OnlyAccess j a n s u :=
  ⟨fun b hb => (h'.byte b hb).trans (h.byte b hb), h'.parts.trans h.parts, h'.units.trans h.units, fun k hk => (h'.core k hk).trans (h.core k hk)⟩

theorem OnlyAccess.setCore (h : OnlyAccess j a n s t) (c : Core) : OnlyAccess j a n s (t.setCore j c) :=
  h.trans ⟨fun _ _ => rfl, rfl, rfl, fun _ hk => core_setCore_other t c hk⟩

theorem OnlyAccess.modCore (h : OnlyAccess j a n s t) (f : Core → Core) : OnlyAccess j a n s (t.modCore j f) := h.setCore _

theorem OnlyAccess.see (h : OnlyAccess j a n s t) (k b m : Nat) : OnlyAccess j a n s (t.see k b m) := ⟨h.byte, h.parts, h.units, h.core⟩

theorem OnlyAccess.later (h : OnlyAccess j a n s t) (code : Nat) (i : Ev) : OnlyAccess j a n s (t.later code i) := ⟨h.byte, h.parts, h.units, h.core⟩

theorem writeRaced_frame (vs : List Byte) (s : State) (k a : Nat) :
    (s.writeRaced k a vs).parts = s.parts ∧ (s.writeRaced k a vs).units = s.units ∧ (s.writeRaced k a vs).cores = s.cores := by
  induction vs generalizing s a with
  | nil => exact ⟨rfl, rfl, rfl⟩
  | cons v vs ih => exact ih _ _

theorem OnlyAccess.writeRaced (h : OnlyAccess j a n s t) {vs : List Byte} (hlen : vs.length = n) : OnlyAccess j a n s (t.writeRaced j a vs) := by
  obtain ⟨hparts, hunits, hcores⟩ := writeRaced_frame vs t j a
  exact h.trans ⟨fun b hb => byte_writeRaced_other vs t j a b (hlen ▸ hb), hparts, hunits, fun k _ => congrArg (fun l => (Tab.find l k).getD _) hcores⟩

theorem onlyAccess_leftQueues (r : Req) : OnlyAccess j a n s (leftQueues s j r) := OnlyAccess.refl.setCore _

theorem OnlyAccess.accessDone (h : OnlyAccess j a n s t) (p : Nat) (r : Req) : OnlyAccess j a n s (accessDone t j p r) := by
  have hmarks : OnlyAccess j a n s (marksSettled t j p r) := by
    unfold marksSettled
    split
    · exact h.modCore _
    · exact h
  have hstores : OnlyAccess j a n s (storesSampled (marksSettled t j p r) j r) := by
    unfold storesSampled
    split
    · exact hmarks.setCore _
    · exact hmarks
  unfold Proofs.accessDone readNoted
  split
  · exact hstores
  · exact hstores.see ..

theorem OnlyAccess.weightLine (h : OnlyAccess j a n s t) (r : Req) (last : Bool) : OnlyAccess j a n s (t.weightLine j r last) := by
  unfold State.weightLine
  split
  · exact h
  · exact h.modCore _

theorem OnlyAccess.lateLine (h : OnlyAccess j a n s t) (r : Req) (m : Nat) : OnlyAccess j a n s (t.lateLine j r m) := h.modCore _

theorem OnlyAccess.readDescriptor (h : OnlyAccess j a n s t) (st id : Nat) (r : Req) : OnlyAccess j a n s (t.readDescriptor j st id r) := h.setCore _

theorem OnlyAccess.readIndex (h : OnlyAccess j a n s t) (st id m : Nat) : OnlyAccess j a n s (t.readIndex j st id m) := by
  unfold State.readIndex
  split
  · exact h
  split
  · exact h
  dsimp only
  split
  · exact ((h.modCore _).modCore _).see ..
  · exact (((h.modCore _).modCore _).see ..).later ..

end

theorem perform_onlyAccess (s : State) (j : Nat) (r : Req) (hsrc : ∀ st id b, r.kind ≠ .src st id b) :
    OnlyAccess j (padKey r.pad r.addr) (storedLength r) s (s.perform j r) := by
  have hleft {n : Nat} : OnlyAccess j (padKey r.pad r.addr) n s (leftQueues s j r) := onlyAccess_leftQueues r
  have stores {vs : List Byte} {n : Nat} (hn : storedLength r = n) (hlen : vs.length = n) :
      OnlyAccess j (padKey r.pad r.addr) (storedLength r) s (accessDone ((leftQueues s j r).writeRaced j (padKey r.pad r.addr) vs) j (s.now (s.core j)) r) :=
    (hleft.writeRaced (hlen.trans hn.symm)).accessDone ..
  cases hk : r.kind with
  | ld d n sx => exact perform_ld hk ▸ (hleft.modCore _).accessDone ..
  | st n v => exact perform_st hk ▸ stores (by rw [storedLength, hk]) (leBytes_length ..)
  | vld d i f6 => exact perform_vld hk ▸ (hleft.modCore _).accessDone ..
  | vst d i f6 data =>
    refine perform_vst hk ▸ stores (n := if f6 then 192 else 256) (by rw [storedLength, hk]) ?_
    split
    · exact leBytes_length ..
    · exact leBytes_length ..
  | amo f d n v =>
    exact perform_amo hk ▸ ((hleft.modCore _).writeRaced ((leBytes_length ..).trans (by rw [storedLength, hk]))).accessDone ..
  | dline q h data => exact perform_dline hk ▸ stores (by rw [storedLength, hk]) (leBytes_length ..)
  | cpl st id b data => exact perform_cpl hk ▸ stores (by rw [storedLength, hk]) (leBytes_length ..)
  | src st id b => exact absurd hk (hsrc st id b)
  | wline m k q => exact perform_wline hk ▸ (hleft.weightLine ..).accessDone ..
  | aline q m =>
    rw [perform_aline hk]
    split
    · exact (hleft.lateLine ..).accessDone ..
    · exact hleft.accessDone ..
  | idx st id m => exact perform_idx hk ▸ (hleft.readIndex ..).accessDone ..
  | desc st id => exact perform_desc hk ▸ (hleft.readDescriptor ..).accessDone ..

/-- Settles O18: an access changes its core and stores to its own bytes, whatever its kind. -/
theorem performFrame : Obligations.PerformFrame := by
  unfold Obligations.PerformFrame
  intro s j r hsrc
  obtain ⟨hbyte, hparts, hunits, hcore⟩ := perform_onlyAccess s j r hsrc
  exact ⟨hbyte, hparts, hunits, hcore⟩

end Sys2Proof.Proofs
end

section
/-! PROOFS. The bytes of accesses (O19, R3, R124, R125, R130, R133, R134): what stores and atomics write, and what loads read. -/
namespace Sys2Proof.Proofs
open Sys2Proof.Machine Sys2Proof.Laws Sys2Proof.Claims

/-! ### Parts of the bytes that a number holds -/

theorem byte_mod_pow {i n : Nat} (hi : i < n) (x : Nat) : x % 256 ^ n / 256 ^ i % 256 = x / 256 ^ i % 256 := by
  obtain ⟨m, rfl⟩ : ∃ m, n = i + (m + 1) := ⟨n - i - 1, by omega⟩
  rw [Nat.pow_add, Nat.mod_mul_right_div_self, Nat.pow_succ', Nat.mod_mul_right_mod]

theorem bytes_length (s : State) (a n : Nat) : (s.bytes a n).length = n := by
  induction n generalizing a with
  | zero => rfl
  | succ n ih => rw [State.bytes, List.length_cons, ih]

theorem bytes_drop (s : State) (a i m : Nat) : (s.bytes a (i + m)).drop i = s.bytes (a + i) m := by
  induction i generalizing a with
  | zero => rw [Nat.zero_add, List.drop_zero, Nat.add_zero]
  | succ i ih => rw [Nat.succ_add, State.bytes, List.drop_succ_cons, ih, Nat.add_right_comm, Nat.add_assoc]

theorem bytes_take (s : State) (a m n : Nat) : (s.bytes a (m + n)).take m = s.bytes a m := by
  induction m generalizing a with
  | zero => rfl
  | succ m ih => rw [Nat.succ_add, State.bytes, List.take_succ_cons, ih, State.bytes]

theorem load_lt (s : State) (a n : Nat) : s.load a n < 256 ^ n := by
  have hlt := leNat_lt (s.bytes a n)
  rwa [bytes_length] at hlt

theorem load_lt_two_pow (s : State) (a n : Nat) : s.load a n < 2 ^ (8 * n) := by
  rw [Nat.pow_mul]
  exact load_lt s a n

theorem toNat_ofNat_load (s : State) (a : Nat) {w n : Nat} (h : w = 8 * n) : (BitVec.ofNat w (s.load a n)).toNat = s.load a n := by
  subst h
  rw [BitVec.toNat_ofNat, Nat.mod_eq_of_lt (load_lt_two_pow s a n)]

/-- The m bytes from a + i within the n bytes from a. -/
theorem load_part (s : State) {a n i m : Nat} (h : i + m ≤ n) : s.load a n / 256 ^ i % 256 ^ m = s.load (a + i) m := by
  obtain ⟨u, rfl⟩ : ∃ u, n = i + (m + u) := ⟨n - i - m, by omega⟩
  rw [State.load, ← leNat_drop, bytes_drop, ← leNat_take, bytes_take, State.load]

/-! ### Rows as bytes -/

/-- Digits in base B that a sum holds. -/
def digitSum (x : Nat → Nat) (B n : Nat) : Nat := (List.range n).foldl (fun acc j => acc + x j * B ^ j) 0

theorem digitSum_succ (x : Nat → Nat) (B n : Nat) : digitSum x B (n + 1) = digitSum x B n + x n * B ^ n := by
  rw [digitSum, List.range_succ, List.foldl_append]
  rfl

theorem digitSum_lt {x : Nat → Nat} {B : Nat} (hx : ∀ j, x j < B) (n : Nat) : digitSum x B n < B ^ n := by
  induction n with
  | zero => exact Nat.one_pos
  | succ n ih =>
    rw [digitSum_succ, Nat.pow_succ']
    calc digitSum x B n + x n * B ^ n < B ^ n + x n * B ^ n := by omega
      _ = (x n + 1) * B ^ n := by ring
      _ ≤ B * B ^ n := Nat.mul_le_mul_right _ (hx n)

theorem digitSum_digit {x : Nat → Nat} {B n l : Nat} (hx : ∀ j, x j < B) (hl : l < n) : digitSum x B n / B ^ l % B = x l := by
  have hB : 0 < B := Nat.zero_lt_of_lt (hx 0)
  induction n with
  | zero => cases hl
  | succ n ih =>
    rw [digitSum_succ]
    obtain rfl | hlt := Nat.eq_or_lt_of_le (Nat.le_of_lt_succ hl)
    · rw [Nat.add_mul_div_right _ _ (Nat.pow_pos hB), Nat.div_eq_of_lt (digitSum_lt hx l), Nat.zero_add, Nat.mod_eq_of_lt (hx l)]
    · obtain ⟨m, rfl⟩ : ∃ m, n = m + 1 + l := ⟨n - l - 1, by omega⟩
      have hhigh : x (m + 1 + l) * B ^ (m + 1 + l) = B * (x (m + 1 + l) * B ^ m) * B ^ l := by ring
      rw [hhigh, Nat.add_mul_div_right _ _ (Nat.pow_pos hB), Nat.add_mul_mod_self_left, ih hlt]

/-- Byte b of lane l of a packed F6 row (R133). -/
theorem packF6_byte (v : Row) {l b : Nat} (hl : l < 64) (hb : b < 3) : packF6 v / 256 ^ (3 * l + b) % 256 = (laneOf v l).toNat / 256 ^ b % 256 := by
  have hsum : packF6 v = digitSum (fun j => (laneOf v j).toNat % 256 ^ 3) (256 ^ 3) 64 := by
    rw [packF6, digitSum]
    simp only [Nat.pow_mul]
    rfl
  have hdigit : packF6 v / 256 ^ (3 * l) % 256 ^ 3 = (laneOf v l).toNat % 256 ^ 3 := by
    rw [hsum, Nat.pow_mul, digitSum_digit (fun _ => Nat.mod_lt _ (by decide)) hl]
  rw [Nat.pow_add, ← Nat.div_div_eq_div_mul, ← byte_mod_pow hb, hdigit, byte_mod_pow hb]

/-- Lane h of a row of 64 lanes of 4 bytes, and of a packed F6 row of 3. -/
theorem laneOf_load (s : State) (a : Nat) {h : Nat} (hh : h < 64) : (laneOf (BitVec.ofNat 2048 (s.load a 256)) h).toNat = s.load (a + 4 * h) 4 := by
  rw [laneOf, BitVec.extractLsb'_toNat, toNat_ofNat_load s a (n := 256) rfl, Nat.shiftRight_eq_div_pow, ← load_part s (n := 256) (by omega)]
  rw [show 32 * h = 8 * (4 * h) by ring, Nat.pow_mul]
  rfl

theorem laneOf_unpackF6 (s : State) (a : Nat) {h : Nat} (hh : h < 64) : (laneOf (unpackF6 (s.load a 192)) h).toNat = s.load (a + 3 * h) 3 := by
  rw [unpackF6, laneOf_mkRow _ hh, ← load_part s (n := 192) (by omega), Nat.pow_mul 2 24, Nat.pow_mul 256 3, BitVec.toNat_ofNat]
  exact Nat.mod_eq_of_lt (Nat.lt_of_lt_of_le (Nat.mod_lt _ (by decide)) (by decide))

/-! ### Atomics -/

theorem toInt_eq_signedField {w : Nat} (hw : 0 < w) (x : BitVec w) : x.toInt = signedField w x.toNat := by
  have hx := x.isLt
  obtain ⟨u, rfl⟩ : ∃ u, w = u + 1 := ⟨w - 1, by omega⟩
  rw [BitVec.toInt_eq_toNat_cond, signedField, Nat.add_sub_cancel, Nat.pow_succ]
  split
  · rw [if_pos (by omega)]
  · rw [if_neg (by omega)]
    push_cast [Int.pow_succ]
    rfl

/-- An operand of an atomic on n bytes. -/
def amoWord (n : Nat) (x : Word) : BitVec (8 * n) := BitVec.ofNat (8 * n) x.toNat

section
variable {n : Nat} {old : Nat} (hn : 8 * n ≤ 64)
include hn

theorem amoWord_toNat (hold : old < 2 ^ (8 * n)) : (amoWord n (BitVec.ofNat 64 old)).toNat = old := by
  have hlt : old < 2 ^ 64 := Nat.lt_of_lt_of_le hold (Nat.pow_le_pow_right (by decide) hn)
  rw [amoWord, BitVec.toNat_ofNat, BitVec.toNat_ofNat, Nat.mod_eq_of_lt hlt, Nat.mod_eq_of_lt hold]

theorem amoValue_toNat {f : Nat} {x v : Word} {R : BitVec (8 * n)} (h : amoValue f n x v = BitVec.ofNat 64 R.toNat) : (amoValue f n x v).toNat = R.toNat := by
  rw [h, BitVec.toNat_ofNat]
  exact Nat.mod_eq_of_lt (Nat.lt_of_lt_of_le R.isLt (Nat.pow_le_pow_right (by decide) hn))

/-- The functions of Table 5.3, by numbers of n bytes. -/
theorem amoValue_results {x : Word} (hpos : 0 < n) (hx : (amoWord n x).toNat = old) (v : Word) :
    let new := v.toNat % 256 ^ n
    let S := signedField (8 * n)
    let gives := fun (f m : Nat) => (amoValue f n x v).toNat = m % 256 ^ n
    gives 0 (old + new) ∧ gives 1 new ∧ gives 2 (old &&& new) ∧ gives 3 (old ||| new) ∧ gives 4 (old ^^^ new) ∧
      gives 5 (if S old < S new then old else new) ∧ gives 6 (if S old < S new then new else old) ∧ gives 7 (min old new) ∧ gives 8 (max old new) := by
  intro new S gives
  have hpow : 256 ^ n = 2 ^ (8 * n) := (Nat.pow_mul 2 8 n).symm
  have hv : (amoWord n v).toNat = new := (BitVec.toNat_ofNat ..).trans (hpow ▸ rfl)
  have result {f m : Nat} (R : BitVec (8 * n)) (hR : amoValue f n x v = BitVec.ofNat 64 R.toNat) (hm : R.toNat = m) : gives f m := by
    have hlt : m < 256 ^ n := by rw [← hm, hpow]; exact R.isLt
    exact (amoValue_toNat hn hR).trans (hm.trans (Nat.mod_eq_of_lt hlt).symm)
  have hslt : (amoWord n x).slt (amoWord n v) = decide (S old < S new) := by
    rw [BitVec.slt, toInt_eq_signedField (by omega), toInt_eq_signedField (by omega), hx, hv]
  refine ⟨?sum, result (amoWord n v) rfl hv, result (amoWord n x &&& amoWord n v) rfl (by rw [BitVec.toNat_and, hx, hv]),
    result (amoWord n x ||| amoWord n v) rfl (by rw [BitVec.toNat_or, hx, hv]), result (amoWord n x ^^^ amoWord n v) rfl (by rw [BitVec.toNat_xor, hx, hv]),
    result (if (amoWord n x).slt (amoWord n v) then amoWord n x else amoWord n v) rfl ?smaller,
    result (if (amoWord n x).slt (amoWord n v) then amoWord n v else amoWord n x) rfl ?larger,
    result (if amoWord n x < amoWord n v then amoWord n x else amoWord n v) rfl ?least,
    result (if amoWord n x < amoWord n v then amoWord n v else amoWord n x) rfl ?greatest⟩
  case sum =>
    have hsum : (amoWord n x + amoWord n v).toNat = (old + new) % 256 ^ n := by rw [BitVec.toNat_add, hx, hv, hpow]
    exact (amoValue_toNat hn (R := amoWord n x + amoWord n v) rfl).trans hsum
  case smaller => simp only [hslt, decide_eq_true_eq, apply_ite BitVec.toNat, hx, hv]
  case larger => simp only [hslt, decide_eq_true_eq, apply_ite BitVec.toNat, hx, hv]
  case least => simp only [BitVec.lt_def, apply_ite BitVec.toNat, hx, hv, min_def_lt]
  case greatest => simp only [BitVec.lt_def, apply_ite BitVec.toNat, hx, hv, max_def_lt]

end

/-! ### What an access keeps -/

/-- Leaving its queues, an access changes these fields of its core alone. -/
theorem leftCore_eq (s : State) (j : Nat) (r : Req) : ∃ bound issued reqs lastLd lastSt rowPath,
    leftCore s j r = { s.core j with bound := bound, issued := issued, reqs := reqs, lastLd := lastLd, lastSt := lastSt, rowPath := rowPath } := by
  unfold leftCore Core.leave
  split
  · split
    · exact ⟨_, _, _, _, _, _, rfl⟩
    · exact ⟨_, _, _, _, _, _, rfl⟩
  · split
    · exact ⟨_, _, _, _, _, _, rfl⟩
    · exact ⟨_, _, _, _, _, _, rfl⟩

theorem lands_leftQueues (s : State) (j : Nat) (r : Req) : ((leftQueues s j r).core j).lands = (s.core j).lands := by
  obtain ⟨_, _, _, _, _, _, hleft⟩ := leftCore_eq s j r
  rw [leftQueues, core_setCore_same, hleft]

theorem quiet_setCore {s : State} {j : Nat} {c : Core} (h : s.quiet j = true) (hpart : c.part = (s.core j).part) (hasid : c.asid = (s.core j).asid)
    (hlaunch : c.launch = (s.core j).launch) (hspan : c.spanEnd = (s.core j).spanEnd) : (s.setCore j c).quiet j = true := by
  rw [← h]
  simp only [State.quiet, core_setCore_same]
  simp only [State.now, State.ctoff, hpart, hasid, hlaunch, hspan]
  rfl

theorem quiet_leftQueues {s : State} {j : Nat} (r : Req) (h : s.quiet j = true) : (leftQueues s j r).quiet j = true := by
  obtain ⟨_, _, _, _, _, _, hleft⟩ := leftCore_eq s j r
  rw [leftQueues, hleft]
  exact quiet_setCore h rfl rfl rfl rfl

theorem quiet_deliver {s : State} {j : Nat} (r : Req) (f : Land → Option Land) (h : s.quiet j = true) : (s.modCore j fun c => c.deliver r f).quiet j = true :=
  quiet_setCore h rfl rfl rfl rfl

theorem unsettled_of_quiet {s : State} {j : Nat} (h : s.quiet j = true) (a : Nat) (wr : Bool) : s.unsettled j a wr = false := by
  obtain ⟨hspan, hhost⟩ := Bool.and_eq_true_iff.mp h
  have hpast : ¬ s.now (s.core j) < (s.core j).spanEnd := Nat.not_lt.mpr (of_decide_eq_true hspan)
  have halone : ((s.launch (s.core j).part (s.core j).launch).any fun y => y.host.any fun h => h.1 == a && (wr || h.2)) = false := by
    cases hlaunch : s.launch (s.core j).part (s.core j).launch with
    | none => rfl
    | some y =>
      rw [hlaunch] at hhost
      have hempty : y.host = [] := List.isEmpty_iff.mp hhost
      rw [Option.any_some, hempty, List.any_nil]
  simp only [State.unsettled, hpast, halone, decide_false, Bool.false_and, Bool.or_self, Bool.and_false]

theorem byte_accessDone (s : State) (j p : Nat) (r : Req) (a : Nat) : (accessDone s j p r).byte a = s.byte a :=
  ((OnlyAccess.refl (j := j) (a := 0) (n := 0)).accessDone p r).byte a (.inr (by omega))

theorem lands_settleMarks (c : Core) (k p : Nat) : (c.settleMarks k p).lands = c.lands := rfl

theorem lands_accessDone (s : State) (j p : Nat) (r : Req) : ((accessDone s j p r).core j).lands = (s.core j).lands := by
  have hmarks : ((marksSettled s j p r).core j).lands = (s.core j).lands := by
    unfold marksSettled
    split
    · rw [State.modCore, core_setCore_same, lands_settleMarks]
    · rfl
  have hstores : ((storesSampled (marksSettled s j p r) j r).core j).lands = (s.core j).lands := by
    unfold storesSampled
    split
    · rw [core_setCore_same, ← hmarks]
      rfl
    · exact hmarks
  unfold accessDone readNoted
  split
  · exact hstores
  · exact hstores

/-! ### Stores and atomics -/

/-- Written by a core that meets no race, where no other has written in the tick, each byte stands (R316). -/
theorem byte_writeRaced_at {vs : List Byte} {s : State} {j a i : Nat} (hquiet : s.quiet j = true) (hhits : ∀ h ∈ s.hits, h.2 = j) (hi : i < vs.length) :
    (s.writeRaced j a vs).byte (a + i) = vs[i] := by
  induction vs generalizing s a i with
  | nil => cases hi
  | cons v vs ih =>
    have hrace : ((s.hits.any fun h => h.1 == a && h.2 != j) || s.unsettled j a true) = false := by
      rw [unsettled_of_quiet hquiet, Bool.or_false, List.any_eq_false]
      intro h hh
      simp [hhits h hh]
    rw [State.writeRaced, hrace]
    cases i with
    | zero =>
      rw [byte_writeRaced_other _ _ _ _ _ (.inl (by omega))]
      exact get_set_same 0 s.mem a v
    | succ i =>
      have hnext := @ih { s with mem := Tab.set (0 : Byte) s.mem a v, hits := (a, j) :: s.hits } (a + 1) i hquiet
        (fun h hh => by
          obtain rfl | hh := List.mem_cons.mp hh
          · rfl
          · exact hhits h hh) (Nat.lt_of_succ_lt_succ hi)
      rw [Nat.add_right_comm, Nat.add_assoc] at hnext
      exact hnext

/-- The bytes of a number, written at an address. -/
theorem byte_writeRaced_leBytes {s : State} {j a n m i : Nat} (hquiet : s.quiet j = true) (hhits : s.hits = []) (hi : i < n) (p : Nat) (r : Req) :
    ((accessDone (s.writeRaced j a (leBytes n m)) j p r).byte (a + i)).toNat = m / 256 ^ i % 256 := by
  have hlen : i < (leBytes n m).length := by rwa [leBytes_length]
  rw [byte_accessDone, byte_writeRaced_at hquiet (by rw [hhits]; exact fun h hh => absurd hh List.not_mem_nil) hlen, leBytes_getElem, BitVec.toNat_ofNat]

theorem failedCheck_eq_false {s : State} {j : Nat} {r : Req} (hl : r.isL = true) (h : (2, r.t) ∉ (s.core j).spoilt) : failedCheck s j r = false := by
  rw [failedCheck, hl, if_pos rfl]
  exact Bool.eq_false_iff.mpr fun hc => h (List.contains_iff_mem.mp hc)

theorem loadBy_of_quiet {s : State} {j : Nat} (h : s.quiet j = true) (a n : Nat) : s.loadBy j a n = s.load a n := if_pos h

theorem raced_nil {s : State} (h : s.hits = []) (a n : Nat) : s.raced a n = false := by
  rw [State.raced, h, List.any_nil]

theorem storesWriteTheirBytes : StoresWriteTheirBytes := by
  intro s j r ⟨_, hhits, hquiet, hspoilt⟩ a after
  have hleft : (leftQueues s j r).quiet j = true := quiet_leftQueues r hquiet
  have hchecked (hl : r.isL = true) : failedCheck s j r = false := failedCheck_eq_false hl hspoilt
  refine ⟨fun n v hk i hi => ?_, fun d i v hk b hb => ?_, fun d i v hk l b hl hb => ?_, fun f d n v hk hn => ?_⟩
  · have hfail := hchecked (by rw [Req.isL, hk])
    simp only [after, perform_st hk, hfail, Bool.false_eq_true, if_false]
    exact byte_writeRaced_leBytes hleft hhits hi ..
  · have hfail := hchecked (by rw [Req.isL, hk])
    simp only [after, perform_vst hk, storedRow, hfail, Bool.false_eq_true, if_false]
    exact byte_writeRaced_leBytes hleft hhits hb ..
  · have hfail := hchecked (by rw [Req.isL, hk])
    simp only [after, perform_vst hk, storedRow, hfail, Bool.false_eq_true, if_false, if_true, Nat.add_assoc]
    exact (byte_writeRaced_leBytes hleft hhits (by omega) ..).trans (packF6_byte v hl hb)
  · have hfail := hchecked (by rw [Req.isL, hk])
    intro old new S writes
    have wrote {m : Nat} (hm : (amoValue f n (BitVec.ofNat 64 old) v).toNat = m % 256 ^ n) : writes m := by
      intro i hi
      have hamo : amoNew s j r f n v = m % 256 ^ n := by
        simp only [amoNew, amoOld, hfail, raced_nil hhits, Bool.false_eq_true, if_false, loadBy_of_quiet hquiet]
        exact hm
      rw [← byte_mod_pow hi m, ← hamo]
      simp only [after, perform_amo hk]
      exact byte_writeRaced_leBytes (quiet_deliver r _ hleft) hhits hi ..
    obtain ⟨hsum, hswap, hand, hor, hxor, hmin, hmax, hminu, hmaxu⟩ :=
      amoValue_results (by omega) (by omega : 0 < n) (amoWord_toNat (by omega) (load_lt_two_pow s a n)) v
    exact ⟨fun hf => wrote (hf ▸ hsum), fun hf => wrote (hf ▸ hswap), fun hf => wrote (hf ▸ hand), fun hf => wrote (hf ▸ hor), fun hf => wrote (hf ▸ hxor),
      fun hf => wrote (hf ▸ hmin), fun hf => wrote (hf ▸ hmax), fun hf => wrote (hf ▸ hminu), fun hf => wrote (hf ▸ hmaxu)⟩

/-! ### Loads -/

/-- A result that becomes known stands among the results of its core, whatever follows. -/
theorem delivered_mem {s : State} {j p : Nat} {r : Req} {l l' : Land} {f : Land → Option Land} (hl : l ∈ (s.core j).lands) (hseq : l.seq = r.seq)
    (hf : f l = some l') : l' ∈ ((accessDone ((leftQueues s j r).modCore j fun c => c.deliver r f) j p r).core j).lands := by
  rw [lands_accessDone, State.modCore, core_setCore_same]
  refine List.mem_map.mpr ⟨l, (lands_leftQueues s j r).symm ▸ hl, ?_⟩
  rw [if_pos hseq, hf, Option.getD_some]

theorem loadValue_signed {n v : Nat} (hn : 0 < n) (hv : v < 2 ^ (8 * n)) : loadValue n true v = BitVec.ofInt 64 (signedField (8 * n) v) :=
  sext_eq_signedField (by omega) hv

theorem loadValue_unsigned {n v : Nat} (hn : 8 * n ≤ 64) (hv : v < 2 ^ (8 * n)) : (loadValue n false v).toNat = v :=
  (BitVec.toNat_ofNat ..).trans (Nat.mod_eq_of_lt (Nat.lt_of_lt_of_le hv (Nat.pow_le_pow_right (by decide) hn)))

theorem storeRow_eq_readV {s : State} {c : Core} {d i : Nat} (h : c.vAhead (s.now c) (s.now c) d i = 0) : s.storeRow c d i = s.readV c d i := by
  rw [State.storeRow]
  exact if_pos h

theorem loadsReadTheirBytes : LoadsReadTheirBytes := by
  intro s j r e l hquiet hspoilt he hl hseq a t lands
  have hchecked (hl : r.isL = true) : failedCheck s j r = false := failedCheck_eq_false hl hspoilt
  have hbound : resultBound s j r = e + 5 := by rw [resultBound, he, Option.getD_some]
  refine ⟨fun d n sx w hk hwr hn => ?_, fun f d n x w hk hwr hn hhits => ?_, fun d i f6 m w hk hwr => ?_, fun c r' d i f6 e' hr' hk' he' hnow hahead => ?_⟩
  · have hfail := hchecked (by rw [Req.isL, hk])
    have hlt : s.load a n < 2 ^ (8 * n) := load_lt_two_pow s a n
    refine ⟨loadValue n sx (s.load a n), ?_, fun hsx => hsx ▸ loadValue_unsigned (by omega) hlt, fun hsx => hsx ▸ loadValue_signed (by omega) hlt⟩
    simp only [lands, perform_ld hk, hfail, hbound, loadBy_of_quiet hquiet, Bool.false_eq_true, if_false]
    exact delivered_mem hl hseq (by rw [landX, hwr]; exact if_pos rfl)
  · have hfail := hchecked (by rw [Req.isL, hk])
    have hcores : ∀ (u : State) (b : Nat) (vs : List Byte), ((u.writeRaced j b vs).core j).lands = (u.core j).lands := fun u b vs => by
      rw [State.core, (writeRaced_frame vs u j b).2.2]
      rfl
    simp only [lands, perform_amo hk, hfail, hbound, amoOld, raced_nil hhits, loadBy_of_quiet hquiet, Bool.false_eq_true, if_false]
    rw [lands_accessDone, hcores, ← lands_accessDone _ j t r]
    exact delivered_mem hl hseq (by rw [landX, hwr]; exact if_pos rfl)
  · have hfail := hchecked (by rw [Req.isL, hk])
    refine ⟨if f6 then unpackF6 (s.load a 192) else BitVec.ofNat 2048 (s.load a 256), ?_, fun h hh => ?_⟩
    · simp only [lands, perform_vld hk, hfail, loadBy_of_quiet hquiet, Bool.false_eq_true, if_false]
      exact delivered_mem hl hseq (by rw [landRow, hwr]; exact if_pos ⟨rfl, rfl⟩)
    · split
      · exact laneOf_unpackF6 s a hh
      · exact laneOf_load s a hh
  · have heff : r'.e.map (· + r'.off) = some (s.now c) := by rw [he', Option.map_some, hnow]
    refine List.mem_map.mpr ⟨r', hr', ?_⟩
    rw [hk']
    dsimp only
    rw [if_pos heff, storeRow_eq_readV hahead]

/-- Settles O19: stores and atomics through the bytes of what they write, loads through the result that becomes known. -/
theorem accessBytes : Obligations.AccessBytes := ⟨storesWriteTheirBytes, loadsReadTheirBytes⟩

end Sys2Proof.Proofs
end

section
/-! PROOFS. Exits of cores and completions of barriers (O41, R145, R228, R242, R299, R300, R305, R307, R308). -/
namespace Sys2Proof.Proofs
open Sys2Proof.Machine Sys2Proof.Laws Sys2Proof.Claims

/-! ### What leaves every core as it is -/

/-- The cores of t are those of s. -/
def SameCores (s t : State) : Prop := t.cores = s.cores

section
variable {s t u : State}

theorem SameCores.refl (s : State) : SameCores s s := rfl
theorem SameCores.trans (h : SameCores s t) (h' : SameCores t u) : SameCores s u := Eq.trans h' h
theorem SameCores.core (h : SameCores s t) (k : Nat) : t.core k = s.core k := congrArg (fun cs => (Tab.find cs k).getD _) h
theorem SameCores.ite {c : Prop} [Decidable c] (h : SameCores s t) (h' : SameCores s u) : SameCores s (if c then t else u) := by
  split
  · exact h
  · exact h'
theorem SameCores.foldl {α : Type} (h : SameCores s t) {f : State → α → State} {l : List α} (hf : ∀ u x, SameCores s u → SameCores s (f u x)) :
    SameCores s (l.foldl f t) := by
  induction l generalizing t with
  | nil => exact h
  | cons x l ih => exact ih (hf t x h)
theorem SameCores.later (h : SameCores s t) (code : Nat) (e : Ev) : SameCores s (t.later code e) := h
theorem SameCores.modCtx (h : SameCores s t) (p a : Nat) (f : Ctx → Ctx) : SameCores s (t.modCtx p a f) := h
theorem SameCores.clearHold (h : SameCores s t) (p cause tag : Nat) : SameCores s (t.clearHold p cause tag) := h
theorem SameCores.haltAt (h : SameCores s t) (k kind cause e tick : Nat) : SameCores s (t.haltAt k kind cause e tick) := h
theorem SameCores.complete (h : SameCores s t) (p asid n base log2n index tag status start : Nat) :
    SameCores s (t.complete p asid n base log2n index tag status start) := h.trans (complete_cores ..)
theorem SameCores.unreadBy (h : SameCores s t) (p asid base log2n index : Nat) (mets : List (Tab Bool)) :
    SameCores s (t.unreadBy p asid base log2n index mets) := h

/-- A teardown halts its cores at a hold to come (R252): it changes none of them itself. -/
theorem sameCores_teardown (s : State) (p a : Nat) : SameCores s (s.teardown p a) := by
  unfold State.teardown
  split
  · exact .refl s
  · refine (SameCores.refl s).ite ?_
    extract_lets -underBinder +onlyGivenNames _ _ _ _ void freed s1
    have h1 : SameCores s s1 :=
      ((SameCores.refl s).foldl fun _ _ ht => ((ht.complete ..).unreadBy ..).ite ht).foldl fun _ _ ht => (ht.complete ..).unreadBy ..
    clear_value s1
    extract_lets -underBinder +onlyGivenNames s2
    have h2 : SameCores s s2 := h1.foldl fun _ _ ht => (ht.later ..).ite ht
    clear_value s2
    dsimp only
    split
    · exact (h2.modCtx p a _).later ..
    · exact (h2.modCtx p a _).haltAt ..

theorem sameCores_lateTrap (s : State) (k : Nat) (d : DueTrap) : SameCores s (s.lateTrap k d) := by
  have hevent (p a : Nat) (e : EventRec) : SameCores s (s.appendEvent p a e) := (stored_appendEvent s p a e).cores
  exact ((hevent ..).trans (sameCores_teardown ..)).ite (hevent ..)

end

/-! ### Exits -/

/-- A context keeps its energy when its last core has left and it becomes READY (R228). -/
theorem energy_readied {s : State} {p a : Nat} {x : Ctx} (h : s.ctx p a = some x) (cause tag : Nat) (f : Ctx → Ctx) (hf : (f x).energy = x.energy) :
    ∃ x', ((s.clearHold p cause tag).modCtx p a f).ctx p a = some x' ∧ x'.energy = x.energy := by
  refine ⟨f x, ?_, hf⟩
  rw [ctx_modCtx, ctx_clearHold, h, Option.map_some]

section
variable {s : State} {k : Nat} (hst : (s.core k).st = .running)
include hst

/-- A core that goes IDLE at its exit tick: the core that is left, and what its context gains. -/
theorem coreExitTick_of_exits (hexits : s.exits k = true) : ∃ t c, exec (.coreExitTick k) s = .next t ∧ SameCores (s.setCore k c) t ∧
    (c.st = .idle ∧ c.x = [] ∧ c.v = [] ∧ c.p = Core.reset.p ∧ c.exit = (s.core k).exit) ∧
    ((s.core k).due = [] → t.mem = s.mem ∧ ∀ x, s.ctx (s.core k).part (s.core k).asid = some x → ∃ x', t.ctx (s.core k).part (s.core k).asid = some x' ∧
      x'.energy = addEnergy x.energy (addEnergy (s.core k).ecnt (s.core k).stat % 2 ^ 48)) := by
  rw [exec_coreExitTick, execCoreExitTick, if_pos hexits]
  extract_lets c t ca cb live gone c1 s1 s2
  have hidle : c1.st = .idle := by
    have hrun : c.st = .running := hst
    show (if c.st = .fenced then CoreSt.fenced else .idle) = .idle
    rw [hrun]
    rfl
  have hcores : SameCores (s.setCore k c1) s2 :=
    ((SameCores.refl (s.setCore k c1)).modCtx ..).foldl fun u d hu => hu.trans (sameCores_lateTrap u k d)
  have hgain (hdue : (s.core k).due = []) : s2.mem = s.mem ∧ ∀ x, s.ctx c.part c.asid = some x → ∃ x', s2.ctx c.part c.asid = some x' ∧
      x'.energy = addEnergy x.energy (c.ecnt % 2 ^ 48) := by
    have hnone : s2 = s1 := congrArg (List.foldl _ s1) hdue
    rw [hnone]
    refine ⟨rfl, fun x hx => ⟨_, (ctx_modCtx ..).trans (congrArg (Option.map _) hx), rfl⟩⟩
  clear_value s2
  split
  · refine ⟨_, c1, rfl, (hcores.clearHold ..).modCtx .., ⟨hidle, rfl, rfl, rfl, rfl⟩, fun hdue => ⟨(hgain hdue).1, fun x hx => ?_⟩⟩
    obtain ⟨x', hx', henergy⟩ := (hgain hdue).2 x hx
    obtain ⟨z, hz, hsame⟩ := energy_readied hx' 4 (preTag c.asid)
      (fun x => if x.st = .active then { x with st := .ready, armed := none, yielded := false, boundary := none, halt := none } else x)
      (by split <;> rfl)
    exact ⟨z, hz, hsame.trans henergy⟩
  · exact ⟨_, c1, rfl, hcores, ⟨hidle, rfl, rfl, rfl, rfl⟩, hgain⟩

variable {e : Nat} {y : Launch} (hexit : (s.core k).exit = some e) (he : e < s.now (s.core k)) (hy : s.launch (s.core k).part (s.core k).launch = some y)
include hexit he hy

theorem exits_of_complete (hbound : (s.core k).bound ≤ s.now (s.core k)) (hlands : (s.core k).lands = []) (hvops : (s.core k).vops = [])
    (hcmds : (s.core k).cmds = []) (hreqs : ∀ r ∈ (s.core k).reqs, r.isL = false)
    (hbars : ∀ b ∈ y.bars, b.scope = scopeExit y k → b.over' = true ∨ ∀ a ∈ b.arrived, a.1 ≠ k) : s.exits k = true := by
  have hany : (s.core k).reqs.any (·.isL) = false := List.any_eq_false.mpr fun r hr => by rw [hreqs r hr]; decide
  have hwaits : s.waitsExit k = false := by
    simp only [State.waitsExit, hy]
    refine List.any_eq_false.mpr fun b hb hwait => ?_
    obtain ⟨hopen, harrived⟩ := Bool.and_eq_true_iff.mp hwait
    obtain ⟨hscope, hover⟩ := Bool.and_eq_true_iff.mp hopen
    obtain ⟨a, ha, hak⟩ := List.any_eq_true.mp harrived
    obtain hdone | hfar := hbars b hb (eq_of_beq hscope)
    · rw [hdone] at hover
      cases hover
    · exact hfar a ha (eq_of_beq hak)
  simp [State.exits, hst, hexit, he, hbound, hlands, hvops, hcmds, hany, hwaits]

theorem coreExitTick_of_waits {b : Barrier} {a : Nat × Nat} (hb : b ∈ y.bars) (hscope : b.scope = scopeExit y k) (hover : b.over' = false)
    (ha : a ∈ b.arrived) (hak : a.1 = k) : exec (.coreExitTick k) s = .next (s.setCore k { s.core k with ecnt := addEnergy (s.core k).ecnt 1 }) := by
  have hwaits : s.waitsExit k = true := by
    simp only [State.waitsExit, hy]
    refine List.any_eq_true.mpr ⟨b, hb, ?_⟩
    rw [hscope, hover, beq_self_eq_true, Bool.not_false, Bool.and_true, Bool.true_and]
    exact List.any_eq_true.mpr ⟨a, ha, beq_iff_eq.mpr hak⟩
  have hexits : ¬ s.exits k = true := by simp [State.exits, hwaits]
  have hpast : (s.core k).exit.any (fun x => decide (x < s.now (s.core k))) = true := by rw [hexit, Option.any_some, decide_eq_true he]
  rw [exec_coreExitTick, execCoreExitTick, if_neg hexits]
  dsimp only
  rw [if_pos ⟨hst, hpast, hwaits⟩]
  rfl

end

/-! ### Completions of barriers -/

/-- Core k after barrier n of a scope of launch l has completed with tick r, when it waits on it (R300). -/
def waitEnded (l scope n r : Nat) (c : Core) : Core :=
  if c.wait = some (.barrier scope n) ∧ c.launch = l then { c with wait := if c.st = .halted then some (.until' r) else none } else c

theorem core_endWait (s : State) (l scope n r k j : Nat) : (s.endWait l scope n r k).core j = if j = k then waitEnded l scope n r (s.core j) else s.core j := by
  unfold State.endWait waitEnded
  dsimp only
  split
  next hwait =>
    rw [core_setCore_eq]
    split
    next hjk => rw [hjk, if_pos hwait]
    next => rfl
  next hwait =>
    split
    next hjk => rw [hjk, if_neg hwait]
    next => rfl

theorem waitEnded_idem (l scope n r : Nat) (c : Core) : waitEnded l scope n r (waitEnded l scope n r c) = waitEnded l scope n r c := by
  have hno : ¬ ((waitEnded l scope n r c).wait = some (.barrier scope n) ∧ (waitEnded l scope n r c).launch = l) := by
    rintro ⟨hwait, hlaunch⟩
    unfold waitEnded at hwait hlaunch
    split at hwait
    next =>
      dsimp only at hwait
      split at hwait
      · cases hwait
      · cases hwait
    next hnot =>
      rw [if_neg hnot] at hlaunch
      exact hnot ⟨hwait, hlaunch⟩
  exact if_neg hno

theorem core_endWaits (ks : List Nat) (s : State) (l scope n r j : Nat) :
    (ks.foldl (fun s k => s.endWait l scope n r k) s).core j = if j ∈ ks then waitEnded l scope n r (s.core j) else s.core j := by
  induction ks generalizing s with
  | nil => rw [if_neg List.not_mem_nil]; rfl
  | cons k ks ih =>
    rw [List.foldl_cons, ih, core_endWait]
    by_cases hjk : j = k
    · rw [if_pos hjk, waitEnded_idem, ite_self, if_pos (List.mem_cons.mpr (.inl hjk))]
    · simp only [hjk, List.mem_cons, false_or, if_false]

theorem endWaits_frame (ks : List Nat) (s : State) (l scope n r : Nat) :
    (ks.foldl (fun s k => s.endWait l scope n r k) s).parts = s.parts ∧ (ks.foldl (fun s k => s.endWait l scope n r k) s).mem = s.mem := by
  induction ks generalizing s with
  | nil => exact ⟨rfl, rfl⟩
  | cons k ks ih =>
    have hone : (s.endWait l scope n r k).parts = s.parts ∧ (s.endWait l scope n r k).mem = s.mem := by
      unfold State.endWait
      dsimp only
      split
      · exact ⟨rfl, rfl⟩
      · exact ⟨rfl, rfl⟩
    exact ⟨(ih _).1.trans hone.1, (ih _).2.trans hone.2⟩

/-- The launch in which barrier n of a scope has completed. -/
def barCompleted (scope n : Nat) (z : Launch) : Launch :=
  { z with bars := (z.bars.filter fun e => !(e.scope == scope && e.over')).map fun e => if e.scope = scope ∧ e.n = n then { e with over' := true } else e }

theorem barCompleted_over {scope n : Nat} {z : Launch} : ∀ b ∈ (barCompleted scope n z).bars, b.scope = scope → b.n = n → b.over' = true := by
  intro b hb hscope hn
  obtain ⟨e, -, rfl⟩ := List.mem_map.mp hb
  split
  · rfl
  next hother =>
    rw [if_neg hother] at hscope hn
    exact absurd ⟨hscope, hn⟩ hother

/-- Barrier n of a scope, once it is set and until it has completed. -/
def completesNow (scope n : Nat) (b : Barrier) : Bool := b.scope == scope && b.n == n && b.r.isSome && !b.over'

theorem barrierComplete_next {s : State} {p l scope n : Nat} {y : Launch} {b : Barrier} (hy : s.launch p l = some y)
    (hfind : y.bars.find? (completesNow scope n) = some b) :
    exec (.barrierComplete p l scope n) s =
      .next (y.members.foldl (fun s k => s.endWait l scope n (b.r.getD 0) k) (s.modLaunch p l (barCompleted scope n))) := by
  unfold completesNow at hfind
  rw [exec_barrierComplete, execBarrierComplete, hy]
  dsimp only
  rw [hfind]
  rfl

theorem barrierComplete_completes {s : State} {p l scope n : Nat} {y : Launch} {b : Barrier} (hy : s.launch p l = some y) (hb : b ∈ y.bars)
    (hscope : b.scope = scope) (hn : b.n = n) (hr : b.r ≠ none) (hover : b.over' = false) :
    ∃ t b' r, exec (.barrierComplete p l scope n) s = .next t ∧ b' ∈ y.bars ∧ b'.scope = scope ∧ b'.n = n ∧ b'.r = some r ∧
      t.launch p l = some (barCompleted scope n y) ∧ t.mem = s.mem ∧ ∀ j, t.core j = if j ∈ y.members then waitEnded l scope n r (s.core j) else s.core j := by
  have hset : completesNow scope n b = true := by
    rw [completesNow, hscope, hn, hover, Option.isSome_iff_ne_none.mpr hr, beq_self_eq_true, beq_self_eq_true]
    rfl
  obtain ⟨b', hfind⟩ := Option.isSome_iff_exists.mp (List.find?_isSome.mpr ⟨b, hb, hset⟩)
  have hset' := List.find?_some hfind
  simp only [completesNow, Bool.and_eq_true, beq_iff_eq] at hset'
  obtain ⟨⟨⟨hscope', hn'⟩, hr'⟩, -⟩ := hset'
  obtain ⟨r, hr'⟩ := Option.isSome_iff_exists.mp hr'
  obtain ⟨hparts, hmem⟩ := endWaits_frame y.members (s.modLaunch p l (barCompleted scope n)) l scope n (b'.r.getD 0)
  have hlaunch : (s.modLaunch p l (barCompleted scope n)).launch p l = some (barCompleted scope n y) := by rw [launch_modLaunch, hy, Option.map_some]
  refine ⟨_, b', r, barrierComplete_next hy hfind, List.mem_of_find?_eq_some hfind, hscope', hn', hr', ?_, hmem, fun j => ?_⟩
  · rw [← hlaunch, State.launch, State.part, hparts]
    rfl
  · rw [core_endWaits, hr', Option.getD_some]
    rfl

/-- A wait that meets BUDGET 0 before its barrier is set: the core freezes, and its halt is raised (R308). -/
theorem waitBudgetExhausted_halts {s : State} {k scope n : Nat} {y : Launch} {b : Barrier} (hy : s.launch (s.core k).part (s.core k).launch = some y)
    (hwait : (s.core k).wait = some (.barrier scope n)) (hbudget : (s.core k).budget = 0) (hst : (s.core k).st = .running) (hb : b ∈ y.bars)
    (hscope : b.scope = scope) (hn : b.n = n) (hr : b.r = none) :
    exec (.waitBudgetExhausted k) s = .next ((s.setCore k { (s.core k).freeze (s.now (s.core k)) with trap := ⟨6, 0, (s.core k).pc, 0⟩ }).raiseHalt k 1
      (s.now (s.core k))) := by
  have hopen : (y.bars.any fun b => b.scope == scope && b.n == n && b.r.isNone) = true := by
    refine List.any_eq_true.mpr ⟨b, hb, ?_⟩
    rw [hscope, hn, hr, beq_self_eq_true, beq_self_eq_true]
    rfl
  rw [exec_waitBudgetExhausted, execWaitBudgetExhausted]
  dsimp only
  rw [hwait, hy]
  dsimp only
  rw [if_pos ⟨hbudget, hst, hopen⟩]

/-- Settles O41: the exit tick by whether its core still waits, a barrier through the waits that it ends, and a wait through its BUDGET trap. -/
theorem exitAndBarrierEvents : Obligations.ExitAndBarrierEvents := by
  unfold Obligations.ExitAndBarrierEvents
  intro p l k s q y hq hy c
  have hlaunch (hp : c.part = p) (hl : c.launch = l) : s.launch c.part c.launch = some y := by rw [hp, hl, launch_of_find hq, hy]
  refine ⟨?exits, ?waits, ?completes, ?exhausts⟩
  case exits =>
    intro e hp hl hst hexit he hbound hlands hvops hcmds hreqs hbars
    obtain ⟨t, c', ht, hcores, ⟨hidle, hx, hv, hpred, hleft⟩, hgain⟩ :=
      coreExitTick_of_exits hst (exits_of_complete hst hexit he (hlaunch hp hl) hbound hlands hvops hcmds hreqs hbars)
    have hcore : t.core k = c' := (hcores.core k).trans (core_setCore_same ..)
    refine ⟨t, ht, ?_⟩
    rw [hcore]
    refine ⟨hidle, hx, hv, hpred, hleft.trans hexit, fun j hj => (hcores.core j).trans (core_setCore_other s c' hj), fun hdue => ?_⟩
    obtain ⟨hmem, henergy⟩ := hgain hdue
    refine ⟨hmem, fun x hx => hp ▸ henergy x ?_⟩
    exact hp.symm ▸ (ctx_of_find hq c.asid).trans hx
  case waits =>
    intro e b a hp hl hst hexit he hb hscope hover ha
    exact coreExitTick_of_waits hst hexit he (hlaunch hp hl) hb hscope hover ha rfl
  case completes =>
    intro scope n b hb hscope hn hr hover
    obtain ⟨t, b', r, ht, hb', hscope', hn', hr', hdone, hmem, hcore⟩ :=
      barrierComplete_completes ((launch_of_find hq l).trans hy) hb hscope hn hr hover
    refine ⟨t, b', r, ht, hb', hscope', hn', hr', ⟨_, hdone, barCompleted_over⟩, hmem, fun j => ?_⟩
    rw [hcore, waitEnded, ← ite_and]
  case exhausts =>
    intro scope n b hp hl hwait hbudget hst hb hscope hn hr
    have hcore (u : Core) : ((s.setCore k u).raiseHalt k 1 (s.now c)).core k = u := core_setCore_same s k u
    refine ⟨_, waitBudgetExhausted_halts (hlaunch hp hl) hwait hbudget hst hb hscope hn hr, ?_⟩
    rw [hcore]
    exact ⟨rfl, rfl, rfl, rfl⟩

end Sys2Proof.Proofs
end
